-- ==== Sys2Proof/Word.lean ====
section
/-!
DEFINITION. The words of the block: 32-bit registers and bytes, the place of a register field, and the signed and
unsigned readings of a run of bits.
-/

namespace Sys2Proof

/-- A BAR0 register word (spec/00_scope.md R6: 32 bits, little-endian). -/
abbrev Word := BitVec 32

/-- One byte of memory. -/
abbrev Byte := BitVec 8

/-- A field of a register: the BAR0 offset of its register, its lowest bit and its width. -/
structure Fld where
  off : Nat
  lo : Nat
  w : Nat
  deriving DecidableEq, Repr

/-- The `w` bits of `v` from bit `lo`, as a number. -/
def bitsOf (v : Nat) (lo w : Nat) : Nat := (v / 2 ^ lo) % 2 ^ w

/-- `v` with the `w` bits from bit `lo` replaced by the low bits of `x`. -/
def bitsPut (v : Nat) (lo w x : Nat) : Nat :=
  v - bitsOf v lo w * 2 ^ lo + (x % 2 ^ w) * 2 ^ lo

/-- The two's complement value of the low `w` bits of `n`. -/
def sext (w n : Nat) : Int :=
  let m := n % 2 ^ w
  if 2 * m < 2 ^ w then (m : Int) else (m : Int) - (2 : Int) ^ w

/-- The `w`-bit two's complement code of an integer. -/
def unsext (w : Nat) (i : Int) : Nat := (i % ((2 : Int) ^ w)).toNat

/-- Round up the quotient of two numbers; 0 for a divisor of 0. -/
def ceilDiv (a b : Nat) : Nat := if b = 0 then 0 else (a + b - 1) / b

/-- The nearest integer to a quotient, halves upward (used where the spec says "rounded to the nearest"). -/
def roundDiv (a : Int) (b : Int) : Int := (2 * a + b) / (2 * b)

/-- Clamp an integer to a range. -/
def clampI (lo hi x : Int) : Int := if x < lo then lo else if hi < x then hi else x

end Sys2Proof
end

