-- ==== Sys2Proof/Syntax.lean ====
section
/-!
DEFINITION. The commands the block takes (spec/opcode_table.json), with the operands of each: a register write carries
the word written; a command of the Riveino Engine Protocol carries its submission entry; an event carries what the
block measures or receives when it happens.
-/

namespace Sys2Proof

/-- The common part of a submission entry (R66): the queue pair whose ring holds it, its CMD_ID, and whether every
byte the layout marks zero is 0. -/
structure Entry where
  q : Fin 16
  cid : BitVec 16
  clean : Bool
  deriving DecidableEq, Repr

/-- The source addresses and header fields of a REP-lite datagram, and the tag of the submission entry it carries
(R84, R373). -/
structure ReplMsg where
  port : Fin 2
  mac : BitVec 48
  ip : BitVec 128
  session : BitVec 16
  seq : BitVec 32
  ack : BitVec 32
  cid : BitVec 16
  clean : Bool
  /-- the datagram came over IPv6 -/
  ip6 : Bool
  deriving DecidableEq, Repr

/-- The fields of a CAPS packet (R187, R200); `ok` says its reserved bytes are zero. -/
structure Caps where
  drvMin : BitVec 16
  drvMax : BitVec 16
  e : BitVec 8
  pitch : BitVec 8
  sos : BitVec 16
  bufBytes : BitVec 32
  serial : BitVec 32
  liv : Bool
  ok : Bool
  deriving DecidableEq, Repr

/-- The fields of a STATUS packet (R199). -/
structure LinkStatus where
  lock : Bool
  dark : Bool
  damaged : Bool
  late : Bool
  sensorFault : Bool
  voided : Bool
  ackSeq : BitVec 16
  sweep : BitVec 32
  headT : BitVec 16
  crcErrs : BitVec 16
  bdTime : BitVec 32
  deriving DecidableEq, Repr


/-- What FOC channel n samples and its observer finds in a PWM period (R234, R235, R243): phase currents (SQ2.18 of
I_FS), residual (Q2.18), speed (SQ17.3 rpm) and angle (SQ1.19), and the code of the bus voltage's AIN input. -/
structure PwmSample where
  iu : BitVec 20
  iv : BitVec 20
  iw : BitVec 20
  residual : BitVec 20
  rpm : BitVec 20
  theta : BitVec 20
  vbus : BitVec 12
  deriving DecidableEq, Repr

/-- A command to the block: one constructor for each row of spec/opcode_table.json, in the table's order. -/
inductive Instr where
  /-- POWER_ON: The board brings up the chip supplies and releases reset, and bring-up begins with the stay island starting on VSTAY. (R25) -/
  | powerOn
  /-- RESET_PIN: A low level on RESET_N holds every island except STAY in reset, and its release restarts bring-up. (R433) -/
  | resetPin (low : Bool)
  /-- SUPPLY_FAIL: VDD_CORE, VDD_PHY or VDDQ_DDR stays below 90 % for 2 µs; the outputs of R290 are forced and every island except STAY is held in reset. (R433) -/
  | supplyFail
  /-- SUPPLY_RECOVER: After the monitored supplies have been within tolerance for 1 ms, the device releases reset itself as a power-on chip reset. (R433) -/
  | supplyRecover
  /-- CHIP_RESET: A CHIP_RESET write with the key is accepted or refused by engine state; when accepted, it forces outputs, powers off and resets every island except STAY. (R427) -/
  | chipReset (v : Word)
  /-- REGISTER_WRITE: A write to a register that has no row of its own sets its fields by their access types. (R8) -/
  | registerWrite (off : BitVec 26) (be : Fin 16) (v : Word)
  /-- ABSENT_UNIT_ACCESS: An access in the space of a unit absent on the part reads zero, ignores writes and sets ABSENT_ACCESS. (R3) -/
  | absentUnitAccess (off : BitVec 26) (be : Fin 16) (write : Bool)
  /-- UNMAPPED_ACCESS: An access to an unoccupied offset reads zero, ignores writes and sets CHIP_ERR.UNMAPPED with address capture. (R425) -/
  | unmappedAccess (off : BitVec 26) (be : Fin 16) (write : Bool)
  /-- READ_CLEAR: A read of an RC field returns its value and clears it, a simultaneous set winning. (R8) -/
  | readClear (off : BitVec 26) (be : Fin 16)
  /-- LOW_WORD_READ: A read of the low word of a 64-bit register pair latches the high word. (R80) -/
  | lowWordRead (off : BitVec 26) (be : Fin 16)
  /-- FENCE_READ: A CHIP_FENCE read completes only after every earlier BAR0 write of the requester has taken effect, and returns the fence count. (R359) -/
  | fenceRead (be : Fin 16)
  /-- MBX_HDR_READ: A read of MBXn_HDR latches a snapshot of the whole mailbox for later reads. (R79) -/
  | mbxHdrRead (n : Fin 64) (be : Fin 16)
  /-- ERR_SLOT_READ: A read of word 0 of an error-log slot latches the slot's other seven words. (R417) -/
  | errSlotRead (slot : Fin 256) (be : Fin 16)
  /-- TIME_NOW_READ: A read of TIME_NOW_NS latches FRAC and SECONDS of the same tick. (R361) -/
  | timeNowRead (be : Fin 16)
  /-- SYSPLL_LOCK: SYSPLL locks after reset, and the boot source is read and rigging starts. (R25) -/
  | syspllLock (refclk : Bool)
  /-- QSPI_HEADER_READ: The 256-byte header of a flash slot arrives, and the read ends at byte 0xFF if a header-only check fails. (R38) -/
  | qspiHeaderRead (hdr : List (BitVec 8))
  /-- QSPI_IMAGE_READ_DONE: The last of IMG_LEN bytes of a flash slot arrives, and verification begins. (R38) -/
  | qspiImageReadDone (rest : List (BitVec 8))
  /-- NVM_IMAGE_READ_DONE: The NVM minimal image has been read into staging, and verification begins. (R39) -/
  | nvmImageReadDone
  /-- IMAGE_VERIFIED: Verification of a staged image ends with RIGGED or with a reject cause in CHIP_RIGSTAT. (R37) -/
  | imageVerified (ids : BitVec 32)
  /-- RIG_OPEN: RIG_LOADCTRL.OPEN opens a host load, and CHIP_RIGSTAT becomes LOADING. (R40) -/
  | rigOpen (v : Word)
  /-- RIG_COMMIT: RIG_LOADCTRL.COMMIT ends a host load and starts verification of the staged image. (R40) -/
  | rigCommit (v : Word)
  /-- RIG_ABANDON: RIG_LOADCTRL.ABANDON discards the staging contents and restores the state held before OPEN. (R41) -/
  | rigAbandon (v : Word)
  /-- APERTURE_WRITE: A write through the rigging aperture stores a staged word, and is ignored outside a host-opened LOADING state. (R41) -/
  | apertureWrite (off : BitVec 26) (v : Word)
  /-- NVM_IMAGE_STORE_DONE: A DEST = 1 image has been copied to the NVM rigging area, and NVM_DONE is set. (R40) -/
  | nvmImageStoreDone
  /-- CSET_CONFIRM: A CSET_CMD.CONFIRM write of 0x5A17 checks the staged value and starts programming a counted-setting slot, or refuses it. (R44) -/
  | csetConfirm (v : Word)
  /-- CSET_PROGRAM_DONE: Programming of a counted-setting slot completes after 2 ms, and BUSY clears with the result. (R44) -/
  | csetProgramDone
  /-- SPAR_HOST_WRITE: A write to SPAR_HOSTn presents 32 bits to the fabric with a one-cycle strobe. (R50) -/
  | sparHostWrite (n : Fin 128) (v : Word)
  /-- PCIE_RESET: A function-level reset, hot reset or link-down closes the REP session, disables every queue pair and resets MSI-X, with contexts handled as R56 gives. (R56) -/
  | pcieReset (size : Option (Fin 8))
  /-- BAR2_ACCESS: A BAR2 access reaches device DRAM at the window base, or is treated as beyond DRAM or poisoned. (R54) -/
  | bar2Access (addr : BitVec 37) (len : Fin 4097) (data : Option (List (BitVec 8))) (poisoned : Bool)
  /-- SQ_DOORBELL: A write of REP_QnSQT gives the device new submission entries to fetch, or stops the pair on an out-of-range index. (R62) -/
  | sqDoorbell (q : Fin 16) (v : Word)
  /-- CQ_DOORBELL: A write of REP_QnCQH frees completion-ring slots. (R62) -/
  | cqDoorbell (q : Fin 16) (v : Word)
  /-- QP_ENABLE: A REP_QnCFG write that sets ENABLE enables the pair with its rings, heads and tails starting at 0. (R83) -/
  | qpEnable (q : Fin 16) (v : Word)
  /-- QP_DISABLE: A REP_QnCFG write that clears ENABLE disables the pair and discards its fetched commands and held completions. (R83) -/
  | qpDisable (q : Fin 16) (v : Word)
  /-- SESSION_CLOSE: REP_CTRL.SESSION_CLOSE closes the session as BYE does. (R77) -/
  | sessionClose (v : Word)
  /-- HELLO: HELLO on QP0 negotiates the REP version and opens the session. (R76) -/
  | hello (e : Entry) (min : BitVec 16) (max : BitVec 16)
  /-- BYE: BYE completes unstarted commands with VERSION, waits for started ones and closes the session. (R77) -/
  | bye (e : Entry)
  /-- STATUS_QUERY: STATUS_QUERY writes the report of the named class to a result mailbox. (R82) -/
  | statusQuery (e : Entry) (cls : BitVec 8) (mbx : BitVec 8) (inst : BitVec 16)
  /-- LOG_READ: LOG_READ starts copying the named log to host memory. (R68) -/
  | logRead (e : Entry) (log : BitVec 8) (off : BitVec 32) (dst : BitVec 64) (len : BitVec 32) (ns : Bool)
  /-- LOG_READ_DONE: A LOG_READ copy ends, and its completion is written after its data. (R59) -/
  | logReadDone (q : Fin 16) (cid : BitVec 16)
  /-- TIME_EVENT: TIME_EVENT completes now or is held until the counter reaches the given time. (R366) -/
  | timeEvent (e : Entry) (kind : BitVec 8) (sec : BitVec 64) (ns : BitVec 32)
  /-- TIME_EVENT_DUE: The counter reaches a pending TIME_EVENT's time, and the event completes. (R366) -/
  | timeEventDue (q : Fin 16) (cid : BitVec 16)
  /-- ENGINE_START: ENGINE_START takes the engine to WARMUP and makes an on request to the power sequencer. (R75) -/
  | engineStart (e : Entry)
  /-- ENGINE_STOP: ENGINE_STOP drains, furls, or resets a faulted region and furls, as the engine state allows. (R75) -/
  | engineStop (e : Entry)
  /-- SPEED_SET: SPEED_SET checks the rate against polygon, link and admission limits, and sets the commanded speed. (R73) -/
  | speedSet (e : Entry) (rate : BitVec 32) (passes : BitVec 8)
  /-- SHEET_COMMIT: SHEET_COMMIT checks the descriptors and allocates a FREE context as LOADED. (R70) -/
  | sheetCommit (e : Entry) (id : BitVec 32) (mode : BitVec 8) (mask : BitVec 8) (pdt : BitVec 64) (lines : BitVec 32) (rep : BitVec 32) (ofs : BitVec 64)
  /-- SHEET_ABORT: SHEET_ABORT spoils, releases or retires the context holding the SHEET_ID by its state. (R71) -/
  | sheetAbort (e : Entry) (id : BitVec 32)
  /-- STATION_CFG: STATION_CFG reads and checks a configuration block and creates a new station generation. (R133) -/
  | stationCfg (e : Entry) (stn : BitVec 8) (en : BitVec 8) (addr : BitVec 64)
  /-- EMITTER_SET: EMITTER_SET changes an emitter's state, handling or boost in a new station generation. (R164) -/
  | emitterSet (e : Entry) (stn : BitVec 8) (em : BitVec 8) (st : BitVec 8) (hand : BitVec 8) (boost : BitVec 32)
  /-- REGISTER_ADJUST: REGISTER_ADJUST sets or adds a station's line offset, pixel offset and magnification. (R73) -/
  | registerAdjust (e : Entry) (stn : BitVec 8) (mode : BitVec 8) (line : BitVec 32) (pixel : BitVec 32) (phase : BitVec 8) (mag : BitVec 32)
  /-- CAMERA_CFG: CAMERA_CFG copies a settings block and assigns the stream's next settings generation. (R210) -/
  | cameraCfg (e : Entry) (stream : BitVec 8) (mbx : BitVec 8) (addr : BitVec 64)
  /-- FRAME_UPLOAD: FRAME_UPLOAD starts copying a held frame, optionally compressed, to host memory. (R218) -/
  | frameUpload (e : Entry) (stream : BitVec 8) (tag : BitVec 32) (dst : BitVec 64) (len : BitVec 32) (compress : Bool) (ns : Bool)
  /-- FRAME_UPLOAD_DONE: A frame upload ends, and FRAME_UPLOAD completes with its length or JOB_OVERFLOW. (R218) -/
  | frameUploadDone (q : Fin 16) (cid : BitVec 16)
  /-- CODEC_JOB: CODEC_JOB queues a compression job or an inflate job on a verify decoder. (R74) -/
  | codecJob (e : Entry) (op : BitVec 8) (fl : BitVec 8) (src : BitVec 64) (srcLen : BitVec 32) (dstLen : BitVec 32) (dst : BitVec 64) (data : List Byte)
  /-- UNKNOWN_OPCODE: A submission entry with an unknown or device-to-host opcode completes with UNKNOWN_OP. (R67) -/
  | unknownOpcode (e : Entry) (op : BitVec 8)
  /-- SHEET_DONE_WRITE: A SHEET_DONE completion is written once ring space and a session allow, and the context retires. (R64) -/
  | sheetDoneWrite (c : Fin 256)
  /-- REPL_HELLO: A partner's HELLO over REP-lite opens a session, or completes with BUSY beyond 8 sessions. (R85) -/
  | replHello (m : ReplMsg) (min : BitVec 16) (max : BitVec 16)
  /-- REPL_BYE: A partner's BYE closes its REP-lite session. (R85) -/
  | replBye (m : ReplMsg)
  /-- REPL_STATUS_QUERY: A partner's STATUS_QUERY of class 1 is answered with the engine report. (R85) -/
  | replStatusQuery (m : ReplMsg) (cls : BitVec 8)
  /-- REPL_TIME_EVENT: A partner's TIME_EVENT of kind 1 completes at once with the time. (R85) -/
  | replTimeEvent (m : ReplMsg) (kind : BitVec 8)
  /-- REPL_UNKNOWN_OP: Any other partner opcode completes with UNKNOWN_OP. (R85) -/
  | replUnknownOp (m : ReplMsg) (op : BitVec 8)
  /-- REPL_ACK: A partner's acknowledgement ends the repetition of a notification. (R86) -/
  | replAck (m : ReplMsg)
  /-- REPL_NOTIFY_RETRY: The 10 ms repeat of an unacknowledged notification expires, and the notification is sent again. (R86) -/
  | replNotifyRetry (session : BitVec 16) (seq : BitVec 32)
  /-- REPL_PORT_DISABLE: Clearing a REPL_CTRL EN bit closes every session on that port without notification. (R87) -/
  | replPortDisable (v : Word)
  /-- VERIFY_BAND_START: A free verify decoder takes the band or inflate job at the head of the verify queue. (R99) -/
  | verifyBandStart (n : Fin 8)
  /-- VERIFY_BAND_DONE: A verify decoder finishes a band with success or with the first error it met. (R98) -/
  | verifyBandDone (n : Fin 8)
  /-- SHEET_ADMISSION: A fully verified sheet is admitted to ARMED or refused with ADMISSION_RATE, in commit order. (R114) -/
  | sheetAdmission (c : Fin 256)
  /-- INFLATE_JOB_DONE: An inflate job ends on its decoder, and its CODEC_JOB completes. (R105) -/
  | inflateJobDone (n : Fin 8)
  /-- CMP_JOB_START: The compressor takes the next waiting compression job. (R104) -/
  | cmpJobStart
  /-- CMP_JOB_DONE: A compression job ends with OK, NO_GAIN or JOB_OVERFLOW. (R103) -/
  | cmpJobDone
  /-- CMP_PAUSE: Under REEF1, the compressor finishes its current block and sets PAUSED. (R104) -/
  | cmpPause
  /-- STATION_BAND_START: A free station decoder takes the next band of the sheet being fetched. (R141) -/
  | stationBandStart (n : Fin 8) (k : Fin 4)
  /-- STATION_BAND_DONE: A station decoder finishes a band into the lead buffer, or stops on an error. (R101) -/
  | stationBandDone (n : Fin 8) (k : Fin 4)
  /-- ENCODER_SAMPLE: A process encoder sample updates position, front and reversal state. (R116) -/
  | encoderSample (raw : BitVec 32)
  /-- FEED_REQ_RAISE: The PSQ raises FEED_REQ once every feeding condition holds. (R120) -/
  | feedReqRaise
  /-- FEED_ACK: A FEED_ACK pulse moves the oldest ARMED context to FEEDING, or is counted as stray. (R120) -/
  | feedAck
  /-- FEED_SENSE: A FEED_SENSE rising edge fixes the origin of the oldest awaiting context, or raises a misfeed. (R121) -/
  | feedSense
  /-- MISFEED_TIMEOUT: No feed-sensor edge arrives within FEEDWIN counts after a FEED_ACK, and a misfeed is raised. (R121) -/
  | misfeedTimeout (c : Fin 256)
  /-- WEB_RUN_START: A web run begins, and the first frame's origin is set at the front plus WEBLEAD. (R122) -/
  | webRunStart
  /-- TRIG_WEB_ORIGIN: The front crosses a web slot's origin, and the oldest ARMED web context enters FEEDING or the slot stays blank. (R122) -/
  | trigWebOrigin
  /-- TRIG_FEEDPOS: The front crosses origin + FEEDPOS, and the context becomes IN_PATH. (R107) -/
  | trigFeedpos (c : Fin 256)
  /-- TRIG_PREFETCH: The front crosses T_n − PREFn, and the station starts fetching the sheet's bands. (R123) -/
  | trigPrefetch (c : Fin 256) (n : Fin 8)
  /-- TRIG_STATION: The front crosses T_n; the station is armed and its occupancy begins, or the sheet is spoiled. (R150) -/
  | trigStation (c : Fin 256) (n : Fin 8)
  /-- TRIG_STATION_DONE: The front crosses the end of the station's part of the sheet, and STN_DONE is set. (R123) -/
  | trigStationDone (c : Fin 256) (n : Fin 8)
  /-- TRIG_DELIVERY: The front crosses origin + DELIVPOS, and the context becomes DELIVERED or SPOILED at delivery. (R107) -/
  | trigDelivery (c : Fin 256)
  /-- TRIG_CAMERA: The front crosses origin + CAM_POS, CAM_TRIG is raised and an association is queued. (R208) -/
  | trigCamera (c : Fin 256) (st : Fin 16)
  /-- SPEED_BOUNDARY_START: A pending speed boundary starts, and feeding stops. (R125) -/
  | speedBoundaryStart
  /-- BOUNDARY_PATH_CLEAR: Every context in the path is spoiled or done, and polygons and belt are commanded to the new speed. (R125) -/
  | boundaryPathClear
  /-- BOUNDARY_LOCKED: Polygons are locked and the belt is in band, and the boundary ends and feeding resumes. (R125) -/
  | boundaryLocked
  /-- PTRIM_WRITE: A PSQ_PTRIM write sets a waiting trim, or applies it at once in WARMUP. (R126) -/
  | ptrimWrite (v : Word)
  /-- WARMUP_COMPLETE: All conditions of R27 hold, and the engine passes from WARMUP to READY. (R27) -/
  | warmupComplete
  /-- DRAIN_COMPLETE: The path becomes empty during a drain, and the engine furls. (R451) -/
  | drainComplete
  /-- REGION_RESET_DONE: The reset of a faulted region completes, and the engine furls to FURLED. (R75) -/
  | regionResetDone (r : Fin 7)
  /-- CONTAINMENT_TIMEOUT: A block's containment action has not completed within 1 ms, and the error escalates to REGION_FATAL. (R420) -/
  | containmentTimeout (cls : BitVec 8) (inst : BitVec 8)
  /-- REGION_RESET_TIMEOUT: A region's recovery reset has not completed within 10 ms, and the error escalates to CHIP_FATAL. (R420) -/
  | regionResetTimeout (r : Fin 7)
  /-- BD_EDGE: A BDn edge samples the front, numbers the sweep and facet, and starts production and sending of the next sweep. (R157) -/
  | bdEdge (n : Fin 8) (mark : Bool) (period : Nat)
  /-- BD_MISS_TIMEOUT: No BDn edge arrives within 1.5 expected periods, and the station supplies one. (R160) -/
  | bdMissTimeout (n : Fin 8)
  /-- RELOAD_START: An unoccupied station starts reloading the tables of the generation next due. (R149) -/
  | reloadStart (n : Fin 8)
  /-- RELOAD_DONE: A table reload completes, and the generation becomes active. (R149) -/
  | reloadDone (n : Fin 8) (ns : Nat)
  /-- TABLE_WRITE: A BAR0 write to a bow, cell or screen table takes effect only while the station is disabled and not reloading. (R138) -/
  | tableWrite (off : BitVec 26) (v : Word)
  /-- WEAR_NVM_WRITE: The 60 s wear-account interval expires, and the emitter wear accounts are written to NVM. (R172) -/
  | wearNvmWrite (n : Fin 8)
  /-- BOOST_END: A boosted emitter's budget reaches 0, and the station ends the boost as by EMITTER_SET. (R174) -/
  | boostEnd (n : Fin 8) (em : Fin 40)
  /-- LINK_TRAIN_START: The station starts training its link from the PRBS step. (R185) -/
  | linkTrainStart (n : Fin 8)
  /-- BACK_BLOCK_LOCK: The device gains block lock on the back channel, and training leaves the PRBS step. (R182) -/
  | backBlockLock (n : Fin 8)
  /-- BACK_LOCK_LOSS: Loss of back-channel block lock is a link loss with cause BACK_LOSS. (R202) -/
  | backLockLoss (n : Fin 8)
  /-- CAPS_REQ_SEND: The 100 µs CAPS_REQ interval expires, and CAPS_REQ is sent. (R185) -/
  | capsReqSend (n : Fin 8)
  /-- CAPS_RX: A CAPS packet arrives; the version is chosen and CAPS_SET sent, or the CAPS is refused. (R187) -/
  | capsRx (n : Fin 8) (caps : Caps)
  /-- TRAIN_TIMEOUT: A training step's timeout expires, and the attempt ends with its cause. (R185) -/
  | trainTimeout (n : Fin 8)
  /-- RETRAIN_DELAY_END: The retry delay after a failed training expires, and training restarts. (R203) -/
  | retrainDelayEnd (n : Fin 8)
  /-- STATUS_RX: A STATUS packet from the driver reports a sweep, head temperature and acknowledgements. (R199) -/
  | statusRx (n : Fin 8) (st : LinkStatus)
  /-- HEALTH_RX: A HEALTH packet reports an emitter fault as a CORRECTED fault. (R166) -/
  | healthRx (n : Fin 8) (em : Fin 40) (kind : BitVec 8)
  /-- LIV_RX: A LIV packet updates an emitter's forward voltage and power. (R200) -/
  | livRx (n : Fin 8) (em : Fin 40) (vf : BitVec 16) (power : BitVec 16)
  /-- CONTROL_RESEND_TIMEOUT: An unacknowledged CONTROL packet's 1 ms timer expires, and it is resent or the link is lost. (R195) -/
  | controlResendTimeout (n : Fin 8) (seq : BitVec 16)
  /-- SWEEP_UNREPORTED: A sweep's STATUS has not arrived two sweeps later, and after 8 the station acts as at HT_CRIT. (R201) -/
  | sweepUnreported (n : Fin 8)
  /-- LINK_DOWN: Setting STNn_LCTRL.DOWN sends DARK and holds the link down. (R197) -/
  | linkDown (n : Fin 8) (v : Word)
  /-- LINK_UP: Clearing STNn_LCTRL.DOWN starts training. (R185) -/
  | linkUp (n : Fin 8) (v : Word)
  /-- LINK_RETRAIN: STNn_LCTRL.RETRAIN starts a retraining, as a loss with cause HOST if the link is UP. (R185) -/
  | linkRetrain (n : Fin 8) (v : Word)
  /-- BANK_LOAD_START: After the previous sheet's last STATUS, the station loads the spare driver bank with the next generation's tables. (R196) -/
  | bankLoadStart (n : Fin 8)
  /-- LIV_REQ_SEND: The LIV_PERIOD expires while the station is unoccupied, and LIV_REQ is sent. (R200) -/
  | livReqSend (n : Fin 8)
  /-- CSI_PACKET: A CSI-2 packet is received, corrected, stored, ignored or discarded by type and check. (R205) -/
  | csiPacket (p : Fin 4) (vc : Fin 16) (dt : BitVec 6) (hdr : Fin 3) (crcOk : Bool) (pix : List (BitVec 20))
  /-- FRAME_START: A Frame Start begins a frame, stamps it and takes the oldest association. (R207) -/
  | frameStart (p : Fin 4) (vc : Fin 16)
  /-- FRAME_END: A Frame End closes the frame with its status and starts any pending CCI writes. (R207) -/
  | frameEnd (p : Fin 4) (vc : Fin 16)
  /-- CCI_WRITES_DONE: A generation's CCI writes complete, fixing the frame from which it governs. (R212) -/
  | cciWritesDone (bus : Fin 4)
  /-- MEM_FRAME_PROCESS: The pipeline takes the oldest queued memory frame for processing. (R214) -/
  | memFrameProcess (p : Fin 4)
  /-- FRAME_RESULT: Processing of a frame ends, its result record and mailbox result are written and the fits are made. (R225) -/
  | frameResult (inl : Bool) (overrun : Bool)
  /-- REG_AUTO_STEP: NAVG qualifying frames have accumulated, and the loop applies a registration step. (R229) -/
  | regAutoStep (n : Fin 8)
  /-- REG_PTRIM_STEP: NAVG qualifying frames have accumulated, and the loop adjusts PSQ_PTRIM. (R231) -/
  | regPtrimStep
  /-- MC_ENABLE: Setting MCn_CTRL.ENABLE checks the channel and moves it from OFF to SENSE. (R242) -/
  | mcEnable (n : Fin 24) (v : Word)
  /-- MC_DISABLE: Clearing ENABLE turns the outputs off or starts a controlled stop by state. (R242) -/
  | mcDisable (n : Fin 24) (v : Word)
  /-- MC_STOP: MCn_CTRL.STOP starts a controlled stop. (R251) -/
  | mcStop (n : Fin 24) (v : Word)
  /-- MC_CLEAR: MCn_CTRL.CLEAR returns a faulted channel to OFF unless its cause holds. (R250) -/
  | mcClear (n : Fin 24) (v : Word)
  /-- MC_PWM_PERIOD: Each PWM period runs the current loop on the sampled phase currents. (R235) -/
  | mcPwmPeriod (n : Fin 24) (x : PwmSample)
  /-- MC_SENSE_DONE: The SENSE period T_S ends, and the channel catches, brakes or runs IPD. (R243) -/
  | mcSenseDone (n : Fin 24) (emf : Bool) (hz : BitVec 16) (th : BitVec 20)
  /-- MC_BRAKE_STILL: Stillness held for T_S in BRAKE moves the channel to IPD. (R243) -/
  | mcBrakeStill (n : Fin 24)
  /-- MC_START_TIMEOUT: T_ST expires in BRAKE or OPEN, and the channel enters FAULT. (R243) -/
  | mcStartTimeout (n : Fin 24)
  /-- MC_IPD_DONE: The test-vector attempts end with a found position or with POS_FAIL. (R244) -/
  | mcIpdDone (n : Fin 24) (ts : List (List Nat))
  /-- MC_REACQ_WINDOW: A 2 ms re-acquisition window ends, and the channel returns to RUN if rotation is caught. (R245) -/
  | mcReacqWindow (n : Fin 24) (hz : BitVec 16) (th : BitVec 20)
  /-- MC_REACQ_TIMEOUT: 50 ms pass without re-acquisition, and the channel enters FAULT with OBS_LOSS. (R245) -/
  | mcReacqTimeout (n : Fin 24)
  /-- MC_DRIVER_FAULT: MCn_DRVFLT_N going low puts the channel in FAULT within 200 ns. (R250) -/
  | mcDriverFault (n : Fin 24) (low : Bool)
  /-- MC_STOP_DONE: Stillness held for T_S ends a controlled stop, and the channel enters OFF. (R251) -/
  | mcStopDone (n : Fin 24)
  /-- CMD_LOSS_TIMEOUT: A duty-mode command pin sees no edge for 2 ms, and its loss action applies. (R241) -/
  | cmdLossTimeout (k : Fin 8)
  /-- AXIS_ENABLE: Setting AXn_CTRL.ENABLE asserts EN and aligns the encoder, or is refused. (R253) -/
  | axisEnable (n : Fin 48) (v : Word)
  /-- AXIS_DISABLE: Clearing ENABLE while the axis moves acts as STOP. (R263) -/
  | axisDisable (n : Fin 48) (v : Word)
  /-- AXIS_GO: AXn_CTRL.GO starts a position or velocity move, or waits for the start input. (R260) -/
  | axisGo (n : Fin 48) (v : Word)
  /-- AXIS_STOP: AXn_CTRL.STOP cancels a waiting move or decelerates a moving axis. (R263) -/
  | axisStop (n : Fin 48) (v : Word)
  /-- AXIS_CLEAR: AXn_CTRL.CLEAR returns a faulted axis to IDLE and realigns its encoder. (R269) -/
  | axisClear (n : Fin 48) (v : Word)
  /-- AXIS_TARGET_WRITE: A write of AXn_TARGET is accepted only while no move is under way. (R262) -/
  | axisTargetWrite (n : Fin 48) (v : Word)
  /-- AXIS_PROFILE_WRITE: A write of VMAX, ACCEL or DECEL during a move takes effect at the next tick. (R261) -/
  | axisProfileWrite (n : Fin 48) (k : Fin 3) (v : Word)
  /-- AXIS_START_INPUT: A pulse on an axis's start input starts its waiting move. (R260) -/
  | axisStartInput (n : Fin 48)
  /-- AXIS_PROFILE_TICK: Each 1 µs profile tick recomputes every moving axis and group and places step edges. (R254) -/
  | axisProfileTick
  /-- AXIS_MOVE_END: A position move reaches its target, the axis returns to IDLE and pulses DONE. (R260) -/
  | axisMoveEnd (n : Fin 48)
  /-- AXIS_ENCODER_SAMPLE: An encoder sample updates the axis's EPOS through the backlash window. (R268) -/
  | axisEncoderSample (n : Fin 48) (raw : BitVec 32)
  /-- GROUP_GO: AGg_CTRL.GO starts a coordinated move of every group member. (R266) -/
  | groupGo (g : Fin 8) (v : Word)
  /-- GROUP_STOP: AGg_CTRL.STOP stops the group along its path. (R267) -/
  | groupStop (g : Fin 8) (v : Word)
  /-- GROUP_START_INPUT: A pulse on a group's start input starts its waiting move. (R266) -/
  | groupStartInput (g : Fin 8)
  /-- TIMEBASE_TICK: A timebase tick samples inputs, commits outputs and runs the loops and trace units on it. (R276) -/
  | timebaseTick (t : Fin 8) (conv : List (BitVec 11 × BitVec 20)) (cnt : BitVec 32) (tMeas : BitVec 32) (pulses : List (BitVec 8))
  /-- LOOP_ENABLE: Setting LPn_CFG.ENABLE checks the loop and enables it, or reports the failing check. (R280) -/
  | loopEnable (n : Fin 64) (v : Word)
  /-- LOOP_DISABLE: Clearing ENABLE disables a loop, and its output ports return to 0. (R273) -/
  | loopDisable (n : Fin 64) (v : Word)
  /-- COEF_WRITE: A coefficient write takes effect between instructions, or is staged. (R282) -/
  | coefWrite (c : Fin 4096) (v : Word)
  /-- STAGED_COEF_APPLY: After STAGE clears, the staged writes apply together when no execution is in progress. (R282) -/
  | stagedCoefApply
  /-- NODE_WRITE: A host node write is sampled by its readers, or ignored when a loop writes the node. (R277) -/
  | nodeWrite (idx : Fin 1024) (v : Word)
  /-- WIDE_WORD_WRITE: The high-word write of a state or program word commits both halves. (R283) -/
  | wideWordWrite (prog : Bool) (w : Fin 4096) (v : Word)
  /-- TRACE_ARM: TUu_CFG.ARM discards the capture and starts recording. (R285) -/
  | traceArm (u : Fin 4) (v : Word)
  /-- TRACE_FORCE: TUu_CFG.FORCE triggers at the next sample once PREFILL is set. (R285) -/
  | traceForce (u : Fin 4) (v : Word)
  /-- TRACE_ABORT: TUu_CFG.ABORT returns the trace unit to IDLE. (R285) -/
  | traceAbort (u : Fin 4) (v : Word)
  /-- TRACE_DONE: The post-trigger samples have been recorded, and the unit enters DONE. (R285) -/
  | traceDone (u : Fin 4)
  /-- CE_ECC_ERROR: An uncorrectable engine-memory error disables the loop using the word. (R288) -/
  | ceEccError (mem : Fin 4) (w : Fin 4096) (corr : Bool)
  /-- INTERLOCK_OPEN: An ILK input opens, forcing the hard-wired outputs and beginning a hard stop by state. (R291) -/
  | interlockOpen (k : Fin 4)
  /-- INTERLOCK_CLOSE: An ILK input closes, which releases nothing by itself. (R292) -/
  | interlockClose (k : Fin 4)
  /-- HV_ENABLE: Setting HVj_CTRL.ENABLE checks the channel and starts charging. (R294) -/
  | hvEnable (j : Fin 32) (v : Word)
  /-- HV_DISABLE: Clearing ENABLE turns the channel OFF and starts a discharge confirmation. (R295) -/
  | hvDisable (j : Fin 32) (v : Word)
  /-- HV_HOLD: HVj_CTRL.HOLD moves an ON channel to HELD and back. (R295) -/
  | hvHold (j : Fin 32) (v : Word)
  /-- HV_CLEAR: HVj_CTRL.CLEAR returns a CLEATED channel to OFF once discharged. (R298) -/
  | hvClear (j : Fin 32) (v : Word)
  /-- HV_PWM_PERIOD: Each HV PWM period applies the drive duty scaled by the compliance factor. (R293) -/
  | hvPwmPeriod (j : Fin 32)
  /-- HV_FEEDBACK_RESULT: A new feedback result updates V, I and the shroud's energy figure. (R296) -/
  | hvFeedbackResult (j : Fin 32) (volt : BitVec 20) (cur : BitVec 20)
  /-- DISCHARGE_CONFIRMED: V stays below the safe level for 1 ms, and the discharge is confirmed. (R299) -/
  | dischargeConfirmed (j : Fin 32)
  /-- DISCHARGE_TIMEOUT: A discharge is not confirmed within 100 ms, and the channel is cleated with a REGION_FATAL fault. (R299) -/
  | dischargeTimeout (j : Fin 32)
  /-- HV_GUARD_SAMPLE: A drum-temperature guard sample holds or releases the channel. (R300) -/
  | hvGuardSample (j : Fin 32) (code : BitVec 12)
  /-- ZC_EDGE: A ZC rising edge measures the mains period and places the crossings. (R303) -/
  | zcEdge
  /-- ZC_LOSS_TIMEOUT: No ZC edge for 50 ms sets LOSS and drives every heater gate low. (R303) -/
  | zcLossTimeout
  /-- HEATER_HALF_CYCLE: Each half-cycle reads the duty and fires the heater by its gating mode. (R304) -/
  | heaterHalfCycle (h : Fin 8) (positive : Bool)
  /-- HEATER_SAMPLE: A thermistor sample judges broken sensor, over temperature and band. (R305) -/
  | heaterSample (h : Fin 8) (code : BitVec 12)
  /-- HEATER_OTS_TRIP: The analogue comparator trips, the gate goes low and the heater is cleated. (R306) -/
  | heaterOtsTrip (h : Fin 8) (trips : Bool)
  /-- HEATER_ENABLE: Setting HTh_CTRL.ENABLE lets the heater fire, or is refused while the comparator is off. (R307) -/
  | heaterEnable (h : Fin 8) (v : Word)
  /-- HEATER_CLEAR: HTh_CTRL.CLEAR leaves CLEATED once the comparator no longer trips. (R306) -/
  | heaterClear (h : Fin 8) (v : Word)
  /-- ON_REQUEST_START: A held on request starts UP_SEQ once the input and TOFF_MIN conditions hold. (R309) -/
  | onRequestStart
  /-- SEQ_END: END sets the power state ON. (R321) -/
  | seqEnd
  /-- SEQ_ENABLE: ENABLE activates a slot's enable output and appends it to the ledger. (R316) -/
  | seqEnable
  /-- SEQ_DISABLE: DISABLE removes a slot from the ledger and waits as a shutdown step. (R316) -/
  | seqDisable
  /-- SEQ_WAIT: WAIT starts a wait of the given microseconds. (R321) -/
  | seqWait
  /-- SEQ_WAIT_END: A WAIT's time expires, and the program continues. (R321) -/
  | seqWaitEnd
  /-- SEQ_WAITGOOD: WAITGOOD waits for its slot to qualify. (R321) -/
  | seqWaitgood
  /-- WAITGOOD_TIMEOUT: A WAITGOOD timeout expires, making a RISE_FAIL step failure. (R318) -/
  | waitgoodTimeout
  /-- SEQ_CHECK: CHECK samples an AIN input and sets the CHECK flag in or out. (R321) -/
  | seqCheck (code : BitVec 12)
  /-- SEQ_JUMPIF: JUMPIF jumps, or makes a step failure, when its condition holds. (R321) -/
  | seqJumpif (pws : Bool)
  /-- SEQ_JUMP: JUMP continues at its target. (R321) -/
  | seqJump
  /-- SEQ_RETRY: RETRY sets the number of further attempts and the retry delay. (R319) -/
  | seqRetry
  /-- SEQ_MARK: MARK writes PWR_MARK with its time and pulses PWS_MARK. (R321) -/
  | seqMark
  /-- RAIL_QUALIFIED: A rail's good signal holds for its qualify window, and the rail is qualified. (R314) -/
  | railQualified (r : Fin 32)
  /-- RAIL_GOOD_DROP: A rail's good signal drops, restarting the qualify window or starting the glitch filter. (R314) -/
  | railGoodDrop (r : Fin 32)
  /-- RAIL_DROOP: A drop of a qualified rail outlasts its glitch filter, a DROOP taking effect by power state. (R315) -/
  | railDroop (r : Fin 32)
  /-- RAIL_OV_SAMPLE: An overvoltage sample, two above OV_CODE making an OVERV. (R314) -/
  | railOvSample (r : Fin 32) (code : BitVec 12)
  /-- SHUTDOWN_SLOT_DONE: A shutdown slot's good drops or its TOFF elapses, and the next ledger slot is shut down or the shutdown ends. (R317) -/
  | shutdownSlotDone
  /-- RETRY_DELAY_END: The retry delay ends, and the program runs again with the next attempt. (R319) -/
  | retryDelayEnd
  /-- PWR_OFF: PWR_CTRL.OFF makes an off request, or is refused by engine state. (R310) -/
  | pwrOff (v : Word)
  /-- PWR_UNCLEAT: PWR_CTRL.UNCLEAT returns the power state from CLEATED to OFF. (R320) -/
  | pwrUncleat (v : Word)
  /-- PWR_SAVE: PWR_CTRL.SAVE makes a host test stay save. (R330) -/
  | pwrSave (v : Word)
  /-- PWR_CNT_CLR: PWR_CTRL.CNT_CLR zeroes a slot's rail counters. (R322) -/
  | pwrCntClr (v : Word)
  /-- SAG_TRIP: The input sags below 11.4 V; outputs are forced, a hard stop begins and the stay save starts. (R325) -/
  | sagTrip (vin : BitVec 16) (vstay : BitVec 16)
  /-- SAG_REARM: The input stays above 11.7 V for 100 ms, and the sag comparator re-arms. (R324) -/
  | sagRearm (vin : BitVec 16)
  /-- STAY_SHADOW_REFRESH: Every 50 µs, the stay island refreshes its shadow of the stay record. (R326) -/
  | stayShadowRefresh
  /-- STAY_FINAL_COPY: The final copy requested at the trip arrives, or its 20 µs wait expires. (R326) -/
  | stayFinalCopy (arrived : Bool)
  /-- STAY_SAVE_DONE: The stay save completes, and the sequencer receives an off request. (R328) -/
  | staySaveDone
  /-- STAY_SAVE_ABORT: VSTAY falls below 6.0 V before the save completes, leaving the slot invalid. (R327) -/
  | staySaveAbort
  /-- NVM_DEFERRED_WRITE: Tj returns inside the NVM write window, and a waiting NVM write proceeds. (R342) -/
  | nvmDeferredWrite
  /-- THERMAL_CONVERSION: A sensor conversion updates Tj, and enters any reef level it reaches. (R335) -/
  | thermalConversion (ts : Fin 48) (raw : BitVec 16) (bad : Bool)
  /-- REEF_LEAVE: Tj stays below threshold minus HYST for 1 s, and the reef level is left. (R335) -/
  | reefLeave (l : Fin 4)
  /-- HARDWARE_TRIP: A comparator crosses the trip level or finds a bad diode; outputs are forced, a hard stop begins and power goes off. (R339) -/
  | hardwareTrip (ts : Fin 48) (diode : Bool)
  /-- TRIP_RELEASE: Every comparator reads 15 °C below the trip level for 1 s, and the trip is no longer in force. (R340) -/
  | tripRelease
  /-- PLL_LOCK: A PLL calibrates its band and locks. (R351) -/
  | pllLock (p : Fin 12)
  /-- PLL_LOSS: A PLL loses lock or finds no band, with the effect that R353 gives by PLL. (R353) -/
  | pllLoss (p : Fin 12)
  /-- REFERENCE_LOSS: The reference shows no edge for 1 µs; every PLL is lost and the error is CHIP_FATAL. (R353) -/
  | referenceLoss
  /-- BAND_MEASURE_START: CLK_BANDMEAS.START starts measuring one VCO band of an unused PLL, or is refused. (R349) -/
  | bandMeasureStart (v : Word)
  /-- BAND_MEASURE_DONE: A band measurement ends, and its result is in CLK_BANDRES. (R349) -/
  | bandMeasureDone (fmin : BitVec 16) (fmax : BitVec 16)
  /-- TIME_INC_COMMIT: A TIME_INC_NS write commits a new increment, or is ignored out of range. (R362) -/
  | timeIncCommit (v : Word)
  /-- TIME_STEP: TIME_CTRL.STEP adds the offset to the counter at the next tick, or is refused. (R363) -/
  | timeStep (v : Word)
  /-- TIME_REARM: TIME_CTRL.REARM re-arms the step and increments TIME_DISC. (R364) -/
  | timeRearm (v : Word)
  /-- TPO_ENABLE: Setting TPOk_CTRL.ENABLE starts a timed pulse output. (R369) -/
  | tpoEnable (k : Fin 8) (v : Word)
  /-- TPO_DISABLE: Clearing ENABLE takes the output low at once. (R369) -/
  | tpoDisable (k : Fin 8) (v : Word)
  /-- TPO_EDGE: The counter reaches a TPO edge time, and the output rises and pulses TPO_EV. (R368) -/
  | tpoEdge (k : Fin 8)
  /-- TPO_PULSE_END: The counter reaches the edge plus WIDTH, and the output falls, ending the run after COUNT edges. (R368) -/
  | tpoPulseEnd (k : Fin 8)
  /-- ETH_FRAME_RX: A received Ethernet frame is answered, passed to REP-lite, stored for PTP or discarded. (R373) -/
  | ethFrameRx (p : Fin 2) (fcsOk : Bool) (bytes : List Byte)
  /-- ETH_RX_POP: ETHp_PRX.POP frees the oldest receive slot. (R374) -/
  | ethRxPop (p : Fin 2) (v : Word)
  /-- ETH_TS_POP: ETHp_PRX.TS_POP frees the oldest egress timestamp. (R375) -/
  | ethTsPop (p : Fin 2) (v : Word)
  /-- ETH_SEND: ETHp_PTX.SEND starts sending the window frame, or is refused. (R375) -/
  | ethSend (p : Fin 2) (v : Word)
  /-- ETH_TX_DONE: A frame leaves the port, and a PTP event message's egress timestamp is stored. (R375) -/
  | ethTxDone (p : Fin 2)
  /-- DRAM_TRAIN_END: END completes training on a channel, and when all channels are trained the engine enters STANDBY. (R379) -/
  | dramTrainEnd (n : Fin 2) (ms : BitVec 16)
  /-- DRAM_MRW: MRW writes a DRAM mode register. (R379) -/
  | dramMrw (n : Fin 2)
  /-- DRAM_TRAIN_PHASE: A TRAIN step runs a training phase and fails below MIN_EYE, with one re-run of the program. (R381) -/
  | dramTrainPhase (n : Fin 2) (eye : BitVec 8) (result : BitVec 32) (ms : BitVec 16)
  /-- DRAM_TRAIN_WAIT: A training WAIT step waits the given microseconds. (R379) -/
  | dramTrainWait (n : Fin 2)
  /-- DRAM_ZQCAL: ZQCAL runs ZQ calibration on the selected ranks. (R379) -/
  | dramZqcal (n : Fin 2)
  /-- DRAM_SAVED_VERIFY: Saved training results are loaded and verified, or the full program runs. (R383) -/
  | dramSavedVerify (n : Fin 2) (pass : Bool) (ms : BitVec 16)
  /-- DRAM_TRAIN_SAVE: DRAM_TCTRL.SAVE stores the training results in NVM. (R382) -/
  | dramTrainSave (v : Word)
  /-- DRAM_TRAIN_FORGET: DRAM_TCTRL.FORGET erases the saved training results. (R382) -/
  | dramTrainForget (v : Word)
  /-- DRAM_READ: A requester's DRAM read returns data that is corrected, poisoned, or zero from an untouched MiB. (R391) -/
  | dramRead (a : BitVec 37) (len : Fin 65) (wrong : Fin 3) (sel : Bool)
  /-- DRAM_WRITE: A requester's DRAM write proceeds, after zero-filling an untouched MiB. (R387) -/
  | dramWrite (a : BitVec 37) (data : List (BitVec 8)) (sel : Bool)
  /-- DRAM_REFRESH: The tREFI interval expires, and each rank is refreshed. (R388) -/
  | dramRefresh (n : Fin 2)
  /-- DRAM_MR4_POLL: Every 32 ms, the channel reads the refresh-rate indication and flags over-temperature. (R388) -/
  | dramMr4Poll (n : Fin 2) (fast : Bool) (hot : Bool)
  /-- NEIGHBOUR_REFRESH: A bank's pending row is served by DRFM or by refreshing its neighbours. (R389) -/
  | neighbourRefresh (n : Fin 2) (bank : Fin 128)
  /-- SCRUB_READ: The patrol scrub reads a burst, correcting or recording it. (R393) -/
  | scrubRead (n : Fin 2) (wrong : Fin 3)
  /-- SR_REQUEST: DRAM_SR.REQ requests self-refresh entry, or is refused by engine state. (R394) -/
  | srRequest (v : Word)
  /-- SR_ENTERED: Every channel has entered self-refresh and stopped its clock, or the entry is abandoned. (R394) -/
  | srEntered
  /-- SR_EXIT: DRAM_SR.EXIT, or any DRAM or DDR register access, starts the self-refresh exit. (R395) -/
  | srExit (v : Word)
  /-- SR_EXIT_DONE: The self-refresh exit completes, and waiting accesses are served. (R395) -/
  | srExitDone
  /-- DMA_ENABLE: Setting DMAn_CTRL.ENABLE starts the channel at its first descriptor, or is ignored. (R399) -/
  | dmaEnable (n : Fin 64) (v : Word)
  /-- DMA_ABORT: DMAn_CTRL.ABORT stops the channel after its issued writes. (R407) -/
  | dmaAbort (n : Fin 64) (v : Word)
  /-- DMA_DESC_FETCH: A fetched descriptor is checked before any byte moves. (R398) -/
  | dmaDescFetch (n : Fin 64) (host : Option (List Byte))
  /-- DMA_TRIGGER: A trigger pulse adds to PEND and lets a waiting descriptor start. (R400) -/
  | dmaTrigger (n : Fin 64)
  /-- DMA_FENCE_CLEAR: The writes of earlier descriptors have taken effect, and a FENCE descriptor starts. (R399) -/
  | dmaFenceClear (n : Fin 64)
  /-- DMA_DESC_COMPLETE: A descriptor's writes have taken effect; it is counted, its event pulsed and COUNT decremented. (R402) -/
  | dmaDescComplete (n : Fin 64) (host : List Byte)
  /-- DMA_COUNT_WRITE: A DMAn_COUNT write replaces COUNT and RELOAD after any same-cycle decrement. (R403) -/
  | dmaCountWrite (n : Fin 64) (v : Word)
  /-- DMA_TIMER_PULSE: A DMA timer period expires, and it pulses. (R401) -/
  | dmaTimerPulse (k : Fin 8)
  /-- MON_ENABLE: Setting MONm_CFG.ENABLE attaches the monitor to its probe, or is refused. (R411) -/
  | monEnable (m : Fin 32) (v : Word)
  /-- MON_SAMPLE: A probe sample updates the monitor's live statistics. (R412) -/
  | monSample (m : Fin 32) (x : BitVec 32)
  /-- MON_SNAP: MONm_CFG.SNAP copies the live statistics to the snapshot. (R413) -/
  | monSnap (m : Fin 32) (v : Word)
  /-- MON_CLEAR: MONm_CFG.CLEAR zeroes the live and snapshot statistics. (R413) -/
  | monClear (m : Fin 32) (v : Word)
  /-- IRQ_MASK_WRITE: A CHIP_IRQ_MASK write that unmasks a bit at 1 raises the root vector once. (R428) -/
  | irqMaskWrite (v : Word)
  /-- CMD_PIN_PERIOD: A command pin takes a new input: an analogue sample, or a complete duty or frequency period, and its setpoint Y follows it again after a loss. (R240) -/
  | cmdPinPeriod (k : Fin 8) (a : BitVec 32) (b : BitVec 32)
  /-- RAIL_GOOD_RISE: A rail slot's good input goes good, starting or restarting its qualify window TQ. (R314) -/
  | railGoodRise (r : Fin 32)
  /-- BACK_PACKET_DISCARD: A back-channel packet whose check fails, whose LEN disagrees or whose type is unknown is discarded and counted toward the BURST link-loss rule. (R202) -/
  | backPacketDiscard (n : Fin 8)
  /-- DMA_HOST_READ_ERROR: A host read of a running DMA channel completes with an error, a poisoned completion or a completion timeout, stopping the channel with ERR HOST. (R406) -/
  | dmaHostReadError (n : Fin 64) (got : List Byte)
  /-- ETH_LINK_CHANGE: An Ethernet port's link goes up or down, changing ETHp_STAT.LINK and whether frames sent are discarded. (R371) -/
  | ethLinkChange (p : Fin 2) (up : Bool) (speed : BitVec 2)
  /-- PLL_PHASE_EXCURSION: A PLL named in CLK_LOCKA.MASK has a phase error beyond the window in an f_pfd cycle, pulling LOCK_A low for 2 µs or extending the pulse. (R352) -/
  | pllPhaseExcursion (p : Fin 12)
  /-- VSTAY_DECAY: With the main supplies down, VSTAY decays below what the stay island needs, and the island stops, ending STAY_ONLY. (R328) -/
  | vstayDecay
  deriving DecidableEq, Repr

end Sys2Proof
end

