-- ==== Sys2Proof/Decode.lean ====
section
/-!
DEFINITION. The command a word of the opcode table spells. No row of spec/opcode_table.json gives bits: the block is
commanded by register writes, queue entries, events and packets, and none of its commands is a numbered word. So no word
spells a command.
-/

namespace Sys2Proof

/-- The command that `nbits` bits `w` spell by the table's bits: none, since no row gives any. -/
def decodeTableWord (_nbits _w : Nat) : Option Instr := none

end Sys2Proof
end

