-- ==== Sys2Proof/Config.lean ====
section
/-!
DEFINITION. What an implementation fixes and the spec does not, and the free values: constants with no body, so that
nothing in Lean can evaluate them or prove a value of them.
-/

namespace Sys2Proof
namespace Config

/-- The 64 data bytes of an uncorrectable burst as a requester takes them that its chapter lets go on (R392 leaves them open;
assumption log 91): State's counter of free values, the burst. -/
opaque poison : Nat → Nat → Nat

/-- The n-th open value of a run: applied to State's counter of free values (assumption log 3). -/
opaque freeNat : Nat → Nat

/-- Which of the balls left in its region a signal has (R444 gives the region of a signal and not its ball): region, the
signal's number there (assumption log 8). -/
opaque ballPick : Nat → Nat → Nat

/-- The DEFLATE data that the compressor writes for an input in a mode (R102 fixes block types and window and not the
matches chosen): mode, input (assumption log 5). -/
opaque deflate : Nat → List Byte → List Byte

/-- The codes of errors that the spec records and gives no code (assumption log 6): 0 a corrected DRAM burst (R391),
1 a corrected control-engine word (R288), 2 a DDRPLL or AUXPLL lost, 3 SYSPLL lost, 4 the reference lost (R353), 5 the
block that records the reference's loss, 6 a block's escalation, 7 a region's escalation (R420), 8 a registration step clamped at a limit (R229), 9 a REP-lite
session lost (R86), 10 an underrun (R150, R151), 11 a head at HT_CRIT (R171), 12 a polygon lost by BD, 13 a facet slip
(R160), 14 a lock lost by BD speed errors that spoils a sheet (R248), 15 a damaged sweep or an untrained link (R194, R202),
16 an unlocked polygon and 17 a dark head (R171) that spoil a sheet. -/
opaque errCode : Nat → BitVec 16

/-- Whether a quotient that the spec leaves unrounded, or halfway, is rounded up: place of use, dividend, divisor
(assumption log 60). Places: 0 mean of guide samples, 1 interpolation weight, 2 interpolation step (R220), 3 IR product,
4 matrix product (R221), 5 centroid (R223), 6 mark position (R224), 9 PTRIM step (R231). -/
opaque roundUp : Nat → Int → Nat → Bool

/-- A result that the spec does not state for its operand: place of use, operand (assumption log 60). -/
opaque unstated : Nat → Int → Int

/-- A pixel mirrored at the frame's edge is the edge pixel itself (R219 does not say which mirror; log 61). -/
opaque mirrorRepeats : Bool

/-- The centre of camera pixel 0, in 1/64 camera pixel (R223 does not say; log 61). -/
opaque pixelCentre : Int

/-- The bytes that the rules list no content for in an open layout (assumption log 62): the place, and its number and
length. -/
opaque layout : Nat → List Nat → List Byte

/-- The order of the fields of the record header of R225, and the zero bytes between them (assumption log 62). -/
opaque place : Nat → Nat

/-- The severity of a FAULT that the spec does not grade, CORRECTED or CONTAINED (assumption log 6): 0 a REP-lite session
lost (R86). -/
opaque openSev : Nat → Fin 2

/-- The arithmetic of the current loop, which R235 names and does not give (assumption log 7): place, arguments. Places: 0, 1
I_d and I_q at an angle from the phase currents; 2, 3 the voltage vector within the modulation limit of the bus voltage;
4, 5, 6 the high times of U, V and W; 7 the I_q reference that ramps a MODE 0 channel's speed (R251). -/
opaque motor : Nat → List Int → Int

/-- Where within one entry of R304's table the firing angle for a duty (Q2.18) lies, as a share of pi in 2^-16: the rule
gives the equation of the 256 entries, and neither which entry a duty takes nor how one is rounded (assumption log 88). -/
opaque firingAngle : Nat → Fin 65536

end Config
end Sys2Proof
end

