-- ==== Sys2Proof/Machine/RegMap.lean ====
section
/-!
DEFINITION. The BAR0 register map (spec/21_register_index.md R424 and the register headings of every
chapter): the offset of every register, by instance, and every named field of it. A definition here is
named as the spec names the register, without its instance letters: `Reg.MC_CTRL n` is the offset of
MCn_CTRL, `Reg.MC_CTRL_ENABLE n` its field ENABLE.
-/

namespace Sys2Proof.Machine
namespace Reg

/-! Registers of spec/02_rigging.md. -/

def RIG_LOADCTRL : Nat := 0x110000
def RIG_LOADCTRL_DEST : Fld := ⟨RIG_LOADCTRL, 4, 1⟩
def RIG_LOADCTRL_ABANDON : Fld := ⟨RIG_LOADCTRL, 2, 1⟩
def RIG_LOADCTRL_COMMIT : Fld := ⟨RIG_LOADCTRL, 1, 1⟩
def RIG_LOADCTRL_OPEN : Fld := ⟨RIG_LOADCTRL, 0, 1⟩
def RIG_LOADBASE : Nat := 0x110004
def RIG_LOADBASE_WINDOW : Fld := ⟨RIG_LOADBASE, 0, 8⟩
def RIG_LOADLEN : Nat := 0x110008
def RIG_LOADLEN_LENGTH : Fld := ⟨RIG_LOADLEN, 0, 24⟩
def RIG_LOADSTAT : Nat := 0x11000C
def RIG_LOADSTAT_FMT_MAJOR : Fld := ⟨RIG_LOADSTAT, 24, 8⟩
def RIG_LOADSTAT_FMT_MINOR : Fld := ⟨RIG_LOADSTAT, 16, 8⟩
def RIG_LOADSTAT_CAUSE_SEC : Fld := ⟨RIG_LOADSTAT, 12, 4⟩
def RIG_LOADSTAT_CAUSE_PRI : Fld := ⟨RIG_LOADSTAT, 8, 4⟩
def RIG_LOADSTAT_NVM_DONE : Fld := ⟨RIG_LOADSTAT, 6, 1⟩
def RIG_LOADSTAT_REFUSED : Fld := ⟨RIG_LOADSTAT, 5, 1⟩
def RIG_LOADSTAT_UNPROVISIONED : Fld := ⟨RIG_LOADSTAT, 4, 1⟩
def RIG_LOADSTAT_SRC : Fld := ⟨RIG_LOADSTAT, 0, 3⟩
def RIG_FMTCAP : Nat := 0x110010
def RIG_FMTCAP_MAJOR : Fld := ⟨RIG_FMTCAP, 8, 8⟩
def RIG_FMTCAP_MINOR_MAX : Fld := ⟨RIG_FMTCAP, 0, 8⟩
def RIG_IMGVER : Nat := 0x110014
def RIG_IMGVER_IMG_VERSION : Fld := ⟨RIG_IMGVER, 0, 32⟩
def CSET_SEL : Nat := 0x111000
def CSET_SEL_INDEX : Fld := ⟨CSET_SEL, 0, 4⟩
def CSET_CMD : Nat := 0x111004
def CSET_CMD_CONFIRM : Fld := ⟨CSET_CMD, 0, 16⟩
def CSET_STAT : Nat := 0x111008
def CSET_STAT_WRITTEN : Fld := ⟨CSET_STAT, 13, 1⟩
def CSET_STAT_IGNORED : Fld := ⟨CSET_STAT, 12, 1⟩
def CSET_STAT_RESULT : Fld := ⟨CSET_STAT, 9, 3⟩
def CSET_STAT_BUSY : Fld := ⟨CSET_STAT, 8, 1⟩
def CSET_STAT_TORN : Fld := ⟨CSET_STAT, 4, 4⟩
def CSET_STAT_REMAIN : Fld := ⟨CSET_STAT, 0, 4⟩
def CSET_DATA (n : Nat) : Nat := 0x111010 + 0x4 * n
def CSET_DATA_DATA (n : Nat) : Fld := ⟨CSET_DATA n, 0, 32⟩
def CSET_VAL (n : Nat) : Nat := 0x111040 + 0x4 * n
def CSET_VAL_VALUE (n : Nat) : Fld := ⟨CSET_VAL n, 0, 32⟩
def SPAR_CTRL : Nat := 0x1800000
def SPAR_CTRL_HOLD : Fld := ⟨SPAR_CTRL, 0, 1⟩
def SPAR_STAT : Nat := 0x1800004
def SPAR_STAT_BANK_3V3 : Fld := ⟨SPAR_STAT, 20, 8⟩
def SPAR_STAT_READBACK_LOCKED : Fld := ⟨SPAR_STAT, 17, 1⟩
def SPAR_STAT_CONFIGURED : Fld := ⟨SPAR_STAT, 16, 1⟩
def SPAR_STAT_CELLS_USED : Fld := ⟨SPAR_STAT, 0, 14⟩
def SPAR_HOST (n : Nat) : Nat := 0x1801000 + 0x4 * n
def SPAR_HOST_DATA (n : Nat) : Fld := ⟨SPAR_HOST n, 0, 32⟩
def SPAR_FAB (n : Nat) : Nat := 0x1801200 + 0x4 * n
def SPAR_FAB_DATA (n : Nat) : Fld := ⟨SPAR_FAB n, 0, 32⟩

/-! Registers of spec/03_host_rep.md. -/

def HNT_BAR2_CTRL : Nat := 0x301000
def HNT_BAR2_CTRL_BASE : Fld := ⟨HNT_BAR2_CTRL, 0, 7⟩
def HNT_BAR2_STAT : Nat := 0x301004
def HNT_BAR2_STAT_POISON_RX : Fld := ⟨HNT_BAR2_STAT, 1, 1⟩
def HNT_BAR2_STAT_BEYOND : Fld := ⟨HNT_BAR2_STAT, 0, 1⟩
def REP_CTRL : Nat := 0x310000
def REP_CTRL_SESSION_CLOSE : Fld := ⟨REP_CTRL, 0, 1⟩
def REP_STAT : Nat := 0x310004
def REP_STAT_VERSION : Fld := ⟨REP_STAT, 16, 16⟩
def REP_STAT_SESSION : Fld := ⟨REP_STAT, 8, 1⟩
def REP_STAT_ENGINE : Fld := ⟨REP_STAT, 0, 4⟩
def REP_EVT_LOST : Nat := 0x310008
def REP_EVT_LOST_COUNT : Fld := ⟨REP_EVT_LOST, 0, 16⟩
def REPL_CTRL : Nat := 0x310010
def REPL_CTRL_SESSIONS : Fld := ⟨REPL_CTRL, 8, 4⟩
def REPL_CTRL_EN_ETH1 : Fld := ⟨REPL_CTRL, 1, 1⟩
def REPL_CTRL_EN_ETH0 : Fld := ⟨REPL_CTRL, 0, 1⟩
def REP_QSQB_LO (n : Nat) : Nat := 0x311000 + 0x20 * n
def REP_QSQB_LO_ADDR (n : Nat) : Fld := ⟨REP_QSQB_LO n, 12, 20⟩
def REP_QSQB_HI (n : Nat) : Nat := 0x311004 + 0x20 * n
def REP_QSQB_HI_ADDR (n : Nat) : Fld := ⟨REP_QSQB_HI n, 0, 32⟩
def REP_QCQB_LO (n : Nat) : Nat := 0x311008 + 0x20 * n
def REP_QCQB_LO_ADDR (n : Nat) : Fld := ⟨REP_QCQB_LO n, 12, 20⟩
def REP_QCQB_HI (n : Nat) : Nat := 0x31100C + 0x20 * n
def REP_QCQB_HI_ADDR (n : Nat) : Fld := ⟨REP_QCQB_HI n, 0, 32⟩
def REP_SQB_LO (n : Nat) : Nat := 0x311000 + 0x20 * n
def REP_SQB_LO_ADDR (n : Nat) : Fld := ⟨REP_SQB_LO n, 12, 20⟩
def REP_SQB_HI (n : Nat) : Nat := 0x311004 + 0x20 * n
def REP_SQB_HI_ADDR (n : Nat) : Fld := ⟨REP_SQB_HI n, 0, 32⟩
def REP_QCFG (n : Nat) : Nat := 0x311010 + 0x20 * n
def REP_QCFG_ENABLE (n : Nat) : Fld := ⟨REP_QCFG n, 31, 1⟩
def REP_QCFG_VECTOR (n : Nat) : Fld := ⟨REP_QCFG n, 16, 8⟩
def REP_QCFG_CQ_LOG2 (n : Nat) : Fld := ⟨REP_QCFG n, 8, 4⟩
def REP_QCFG_SQ_LOG2 (n : Nat) : Fld := ⟨REP_QCFG n, 0, 4⟩
def REP_QSQT (n : Nat) : Nat := 0x311014 + 0x20 * n
def REP_QSQT_TAIL (n : Nat) : Fld := ⟨REP_QSQT n, 0, 12⟩
def REP_QCQH (n : Nat) : Nat := 0x311018 + 0x20 * n
def REP_QCQH_HEAD (n : Nat) : Fld := ⟨REP_QCQH n, 0, 12⟩
def REP_QSTAT (n : Nat) : Nat := 0x31101C + 0x20 * n
def REP_QSTAT_CQ_TAIL (n : Nat) : Fld := ⟨REP_QSTAT n, 16, 12⟩
def REP_QSTAT_FULL (n : Nat) : Fld := ⟨REP_QSTAT n, 14, 1⟩
def REP_QSTAT_CFG_ERR (n : Nat) : Fld := ⟨REP_QSTAT n, 13, 1⟩
def REP_QSTAT_DB_ERR (n : Nat) : Fld := ⟨REP_QSTAT n, 12, 1⟩
def REP_QSTAT_SQ_HEAD (n : Nat) : Fld := ⟨REP_QSTAT n, 0, 12⟩
def MBX_HDR (n : Nat) : Nat := 0x320000 + 0x40 * n
def MBX_HDR_VALID (n : Nat) : Fld := ⟨MBX_HDR n, 31, 1⟩
def MBX_HDR_SEQ (n : Nat) : Fld := ⟨MBX_HDR n, 0, 28⟩
def MBX_ACK (n : Nat) : Nat := 0x320004 + 0x40 * n
def MBX_ACK_ACK (n : Nat) : Fld := ⟨MBX_ACK n, 0, 28⟩
def MBX_TAG (n : Nat) : Nat := 0x320008 + 0x40 * n
def MBX_TAG_FRAME_TAG (n : Nat) : Fld := ⟨MBX_TAG n, 0, 32⟩
def MBX_GEN (n : Nat) : Nat := 0x32000C + 0x40 * n
def MBX_GEN_SETTINGS_GEN (n : Nat) : Fld := ⟨MBX_GEN n, 0, 32⟩
def MBX_DATA (n k : Nat) : Nat := 0x320010 + 0x40 * n + 0x4 * k
def MBX_DATA_DATA (n k : Nat) : Fld := ⟨MBX_DATA n k, 0, 32⟩

/-! Registers of spec/04_raster_codec.md. -/

def CODEC_CAPS : Nat := 0x410000
def CODEC_CAPS_BAND_MINOR_MAX : Fld := ⟨CODEC_CAPS, 16, 8⟩
def CODEC_CAPS_BAND_MAJOR : Fld := ⟨CODEC_CAPS, 8, 8⟩
def CODEC_CAPS_CMP : Fld := ⟨CODEC_CAPS, 4, 1⟩
def CODEC_CAPS_VDECS : Fld := ⟨CODEC_CAPS, 0, 4⟩
def CODEC_VSTAT : Nat := 0x410004
def CODEC_VSTAT_QUEUED : Fld := ⟨CODEC_VSTAT, 16, 16⟩
def CODEC_VSTAT_SHEETS : Fld := ⟨CODEC_VSTAT, 8, 8⟩
def CODEC_VOK : Nat := 0x410008
def CODEC_VOK_COUNT : Fld := ⟨CODEC_VOK, 0, 32⟩
def CODEC_VFAIL : Nat := 0x41000C
def CODEC_VFAIL_COUNT : Fld := ⟨CODEC_VFAIL, 0, 16⟩
def VDEC_STAT (n : Nat) : Nat := 0x410100 + 0x10 * n
def VDEC_STAT_BUSY (n : Nat) : Fld := ⟨VDEC_STAT n, 31, 1⟩
def VDEC_STAT_JOB (n : Nat) : Fld := ⟨VDEC_STAT n, 30, 1⟩
def VDEC_STAT_DETAIL (n : Nat) : Fld := ⟨VDEC_STAT n, 24, 6⟩
def VDEC_STAT_KIND (n : Nat) : Fld := ⟨VDEC_STAT n, 16, 4⟩
def VDEC_STAT_STATION (n : Nat) : Fld := ⟨VDEC_STAT n, 8, 3⟩
def VDEC_STAT_CONTEXT (n : Nat) : Fld := ⟨VDEC_STAT n, 0, 8⟩
def VDEC_BAND (n : Nat) : Nat := 0x410104 + 0x10 * n
def VDEC_BAND_TABLE (n : Nat) : Fld := ⟨VDEC_BAND n, 23, 1⟩
def VDEC_BAND_INDEX (n : Nat) : Fld := ⟨VDEC_BAND n, 0, 23⟩
def CMP_STAT : Nat := 0x410200
def CMP_STAT_QUEUED : Fld := ⟨CMP_STAT, 24, 4⟩
def CMP_STAT_LAST : Fld := ⟨CMP_STAT, 16, 4⟩
def CMP_STAT_PAUSED : Fld := ⟨CMP_STAT, 2, 1⟩
def CMP_STAT_MODE : Fld := ⟨CMP_STAT, 1, 1⟩
def CMP_STAT_BUSY : Fld := ⟨CMP_STAT, 0, 1⟩
def CMP_IN_LO : Nat := 0x410210
def CMP_IN_LO_BYTES : Fld := ⟨CMP_IN_LO, 0, 32⟩
def CMP_IN_HI : Nat := 0x410214
def CMP_IN_HI_BYTES : Fld := ⟨CMP_IN_HI, 0, 32⟩
def CMP_OUT_LO : Nat := 0x410218
def CMP_OUT_LO_BYTES : Fld := ⟨CMP_OUT_LO, 0, 32⟩
def CMP_OUT_HI : Nat := 0x41021C
def CMP_OUT_HI_BYTES : Fld := ⟨CMP_OUT_HI, 0, 32⟩

/-! Registers of spec/05_passage.md. -/

def PSQ_CTRL : Nat := 0x400000
def PSQ_CTRL_BACKLASH : Fld := ⟨PSQ_CTRL, 16, 4⟩
def PSQ_CTRL_ENC_SRC : Fld := ⟨PSQ_CTRL, 8, 5⟩
def PSQ_CTRL_ENC_INVERT : Fld := ⟨PSQ_CTRL, 2, 1⟩
def PSQ_CTRL_SENSE_EN : Fld := ⟨PSQ_CTRL, 1, 1⟩
def PSQ_CTRL_FEED_HOLD : Fld := ⟨PSQ_CTRL, 0, 1⟩
def PSQ_CPL : Nat := 0x400004
def PSQ_CPL_CPL : Fld := ⟨PSQ_CPL, 0, 20⟩
def PSQ_STAT : Nat := 0x400008
def PSQ_STAT_WEB_GAPS : Fld := ⟨PSQ_STAT, 16, 16⟩
def PSQ_STAT_ARMED : Fld := ⟨PSQ_STAT, 8, 8⟩
def PSQ_STAT_CFG_ERR : Fld := ⟨PSQ_STAT, 7, 1⟩
def PSQ_STAT_LATE_TRIG : Fld := ⟨PSQ_STAT, 6, 1⟩
def PSQ_STAT_STRAY_ACK : Fld := ⟨PSQ_STAT, 5, 1⟩
def PSQ_STAT_MISFEED : Fld := ⟨PSQ_STAT, 4, 1⟩
def PSQ_STAT_PATH_REVERSE : Fld := ⟨PSQ_STAT, 3, 1⟩
def PSQ_STAT_REVERSED : Fld := ⟨PSQ_STAT, 2, 1⟩
def PSQ_STAT_BOUNDARY : Fld := ⟨PSQ_STAT, 1, 1⟩
def PSQ_STAT_FEED_REQ : Fld := ⟨PSQ_STAT, 0, 1⟩
def PSQ_FRONT_LO : Nat := 0x400010
def PSQ_FRONT_LO_FRONT : Fld := ⟨PSQ_FRONT_LO, 0, 32⟩
def PSQ_FRONT_HI : Nat := 0x400014
def PSQ_FRONT_HI_FRONT : Fld := ⟨PSQ_FRONT_HI, 0, 16⟩
def PSQ_RAW : Nat := 0x400018
def PSQ_RAW_RAW : Fld := ⟨PSQ_RAW, 0, 32⟩
def PSQ_POS (n : Nat) : Nat := 0x400020 + 0x4 * n
def PSQ_POS_COUNTS (n : Nat) : Fld := ⟨PSQ_POS n, 0, 32⟩
def PSQ_BUDGET : Nat := 0x400040
def PSQ_BUDGET_DRAM : Fld := ⟨PSQ_BUDGET, 16, 12⟩
def PSQ_BUDGET_DEC : Fld := ⟨PSQ_BUDGET, 0, 12⟩
def PSQ_DEMAND : Nat := 0x400044
def PSQ_DEMAND_MBS : Fld := ⟨PSQ_DEMAND, 0, 32⟩
def PSQ_SPEED : Nat := 0x400048
def PSQ_SPEED_PASSES : Fld := ⟨PSQ_SPEED, 24, 2⟩
def PSQ_SPEED_RATE : Fld := ⟨PSQ_SPEED, 0, 18⟩
def PSQ_PTRIM : Nat := 0x40004C
def PSQ_PTRIM_TRIM : Fld := ⟨PSQ_PTRIM, 0, 32⟩
def PSQ_PMEAS : Nat := 0x400050
def PSQ_PMEAS_DEV : Fld := ⟨PSQ_PMEAS, 0, 32⟩
def PSQ_STN_TRIG (n : Nat) : Nat := 0x400100 + 0x8 * n
def PSQ_STN_TRIG_COUNTS (n : Nat) : Fld := ⟨PSQ_STN_TRIG n, 0, 32⟩
def PSQ_STN_PREF (n : Nat) : Nat := 0x400104 + 0x8 * n
def PSQ_STN_PREF_COUNTS (n : Nat) : Fld := ⟨PSQ_STN_PREF n, 0, 32⟩
def PCTX_STATE (n : Nat) : Nat := 0x401000 + 0x10 * n
def PCTX_STATE_STN_DONE (n : Nat) : Fld := ⟨PCTX_STATE n, 24, 8⟩
def PCTX_STATE_STN_MASK (n : Nat) : Fld := ⟨PCTX_STATE n, 16, 8⟩
def PCTX_STATE_AT_DELIV (n : Nat) : Fld := ⟨PCTX_STATE n, 10, 1⟩
def PCTX_STATE_BOUNDARY (n : Nat) : Fld := ⟨PCTX_STATE n, 9, 1⟩
def PCTX_STATE_MODE (n : Nat) : Fld := ⟨PCTX_STATE n, 8, 1⟩
def PCTX_STATE_CAUSE (n : Nat) : Fld := ⟨PCTX_STATE n, 4, 4⟩
def PCTX_STATE_STATE (n : Nat) : Fld := ⟨PCTX_STATE n, 0, 4⟩
def PCTX_SHEET (n : Nat) : Nat := 0x401004 + 0x10 * n
def PCTX_SHEET_SHEET_ID (n : Nat) : Fld := ⟨PCTX_SHEET n, 0, 32⟩
def PCTX_ORG_LO (n : Nat) : Nat := 0x401008 + 0x10 * n
def PCTX_ORG_LO_ORIGIN (n : Nat) : Fld := ⟨PCTX_ORG_LO n, 0, 32⟩
def PCTX_ORG_HI (n : Nat) : Nat := 0x40100C + 0x10 * n
def PCTX_ORG_HI_ORIGIN (n : Nat) : Fld := ⟨PCTX_ORG_HI n, 0, 16⟩

/-! Registers of spec/06_station_pipeline.md. -/

def STN_PCFG (n : Nat) : Nat := 0x1000000 + 0x100000 * n
def STN_PCFG_ENABLED (n : Nat) : Fld := ⟨STN_PCFG n, 31, 1⟩
def STN_PCFG_PROC_RES (n : Nat) : Fld := ⟨STN_PCFG n, 26, 1⟩
def STN_PCFG_MIRROR (n : Nat) : Fld := ⟨STN_PCFG n, 25, 1⟩
def STN_PCFG_CT_MAX (n : Nat) : Fld := ⟨STN_PCFG n, 24, 1⟩
def STN_PCFG_SCREEN (n : Nat) : Fld := ⟨STN_PCFG n, 20, 2⟩
def STN_PCFG_WIDTH (n : Nat) : Fld := ⟨STN_PCFG n, 0, 17⟩
def STN_SEG (n : Nat) : Nat := 0x1000004 + 0x100000 * n
def STN_SEG_NSEG (n : Nat) : Fld := ⟨STN_SEG n, 16, 13⟩
def STN_SEG_SEGW (n : Nat) : Fld := ⟨STN_SEG n, 0, 7⟩
def STN_TAGLVL (n : Nat) : Nat := 0x1000008 + 0x100000 * n
def STN_TAGLVL_TAGLVL (n : Nat) : Fld := ⟨STN_TAGLVL n, 0, 20⟩
def STN_SCRSIZE (n : Nat) : Nat := 0x100000C + 0x100000 * n
def STN_SCRSIZE_SIZE3 (n : Nat) : Fld := ⟨STN_SCRSIZE n, 24, 8⟩
def STN_SCRSIZE_SIZE2 (n : Nat) : Fld := ⟨STN_SCRSIZE n, 16, 8⟩
def STN_SCRSIZE_SIZE1 (n : Nat) : Fld := ⟨STN_SCRSIZE n, 8, 8⟩
def STN_SCRSIZE_SIZE0 (n : Nat) : Fld := ⟨STN_SCRSIZE n, 0, 8⟩
def STN_CFGSTAT (n : Nat) : Nat := 0x1000010 + 0x100000 * n
def STN_CFGSTAT_RELOADING (n : Nat) : Fld := ⟨STN_CFGSTAT n, 31, 1⟩
def STN_CFGSTAT_HELD (n : Nat) : Fld := ⟨STN_CFGSTAT n, 24, 5⟩
def STN_CFGSTAT_OLDEST (n : Nat) : Fld := ⟨STN_CFGSTAT n, 16, 8⟩
def STN_CFGSTAT_NEWEST (n : Nat) : Fld := ⟨STN_CFGSTAT n, 8, 8⟩
def STN_CFGSTAT_ACTIVE (n : Nat) : Fld := ⟨STN_CFGSTAT n, 0, 8⟩
def STN_SCRSEL (n : Nat) : Nat := 0x1000014 + 0x100000 * n
def STN_SCRSEL_ARRAY (n : Nat) : Fld := ⟨STN_SCRSEL n, 0, 2⟩
def STN_LBCAP (n : Nat) : Nat := 0x1000020 + 0x100000 * n
def STN_LBCAP_REACH (n : Nat) : Fld := ⟨STN_LBCAP n, 16, 16⟩
def STN_LBCAP_CAPL (n : Nat) : Fld := ⟨STN_LBCAP n, 0, 16⟩
def STN_LBBYTES (n : Nat) : Nat := 0x1000024 + 0x100000 * n
def STN_LBBYTES_BYTES (n : Nat) : Fld := ⟨STN_LBBYTES n, 0, 24⟩
def STN_LEVEL (n : Nat) : Nat := 0x1000028 + 0x100000 * n
def STN_LEVEL_LOW (n : Nat) : Fld := ⟨STN_LEVEL n, 16, 16⟩
def STN_LEVEL_LEVEL (n : Nat) : Fld := ⟨STN_LEVEL n, 0, 16⟩
def STN_STAT (n : Nat) : Nat := 0x100002C + 0x100000 * n
def STN_STAT_CONTEXT (n : Nat) : Fld := ⟨STN_STAT n, 24, 8⟩
def STN_STAT_BOW_CLAMP (n : Nat) : Fld := ⟨STN_STAT n, 10, 1⟩
def STN_STAT_TBL_IGN (n : Nat) : Fld := ⟨STN_STAT n, 9, 1⟩
def STN_STAT_UNDERRUN (n : Nat) : Fld := ⟨STN_STAT n, 8, 1⟩
def STN_STAT_UR_KIND (n : Nat) : Fld := ⟨STN_STAT n, 4, 2⟩
def STN_STAT_FETCHING (n : Nat) : Fld := ⟨STN_STAT n, 1, 1⟩
def STN_STAT_OCCUPIED (n : Nat) : Fld := ⟨STN_STAT n, 0, 1⟩
def STN_UNDERRUNS (n : Nat) : Nat := 0x1000030 + 0x100000 * n
def STN_UNDERRUNS_COUNT (n : Nat) : Fld := ⟨STN_UNDERRUNS n, 0, 16⟩
def STN_RELOAD (n : Nat) : Nat := 0x1000034 + 0x100000 * n
def STN_RELOAD_NS (n : Nat) : Fld := ⟨STN_RELOAD n, 0, 32⟩
def STN_DEC (n k : Nat) : Nat := 0x1000100 + 0x100000 * n + 0x4 * k
def STN_DEC_BUSY (n k : Nat) : Fld := ⟨STN_DEC n k, 31, 1⟩
def STN_DEC_TABLE (n k : Nat) : Fld := ⟨STN_DEC n k, 30, 1⟩
def STN_DEC_DETAIL (n k : Nat) : Fld := ⟨STN_DEC n k, 24, 6⟩
def STN_DEC_KIND (n k : Nat) : Fld := ⟨STN_DEC n k, 20, 4⟩
def STN_DEC_INDEX (n k : Nat) : Fld := ⟨STN_DEC n k, 0, 15⟩
def STN_BOW (n s : Nat) : Nat := 0x1004000 + 0x100000 * n + 0x4 * s
def STN_BOW_BOW (n s : Nat) : Fld := ⟨STN_BOW n s, 0, 8⟩
def STN_CELL (n s e : Nat) : Nat := 0x1010000 + 0x100000 * n + 0xA0 * s + 0x4 * e
def STN_CELL_GAIN (n s e : Nat) : Fld := ⟨STN_CELL n s e, 0, 20⟩
def STN_SCR (n y x : Nat) : Nat := 0x10C0000 + 0x100000 * n + 0x400 * y + 0x4 * x
def STN_SCR_T (n y x : Nat) : Fld := ⟨STN_SCR n y x, 0, 20⟩

/-! Registers of spec/07_emitters_scan.md. -/

def STN_GEOM (n : Nat) : Nat := 0x1001000 + 0x100000 * n
def STN_GEOM_FACETS (n : Nat) : Fld := ⟨STN_GEOM n, 20, 4⟩
def STN_GEOM_PITCH (n : Nat) : Fld := ⟨STN_GEOM n, 16, 4⟩
def STN_GEOM_OVERLAP_OK (n : Nat) : Fld := ⟨STN_GEOM n, 13, 1⟩
def STN_GEOM_GEOM_OK (n : Nat) : Fld := ⟨STN_GEOM n, 12, 1⟩
def STN_GEOM_E_COUNT (n : Nat) : Fld := ⟨STN_GEOM n, 0, 6⟩
def STN_WIN (n : Nat) : Nat := 0x1001004 + 0x100000 * n
def STN_WIN_RERIG (n : Nat) : Fld := ⟨STN_WIN n, 31, 1⟩
def STN_WIN_ETOP (n : Nat) : Fld := ⟨STN_WIN n, 24, 6⟩
def STN_WIN_PASSES (n : Nat) : Fld := ⟨STN_WIN n, 16, 2⟩
def STN_WIN_A (n : Nat) : Fld := ⟨STN_WIN n, 8, 6⟩
def STN_WIN_W0 (n : Nat) : Fld := ⟨STN_WIN n, 0, 6⟩
def STN_SWEEP (n : Nat) : Nat := 0x1001008 + 0x100000 * n
def STN_SWEEP_RATE (n : Nat) : Fld := ⟨STN_SWEEP n, 0, 32⟩
def STN_BASE (n : Nat) : Nat := 0x100100C + 0x100000 * n
def STN_BASE_BASE (n : Nat) : Fld := ⟨STN_BASE n, 0, 32⟩
def STN_SWEEPNO (n : Nat) : Nat := 0x1001010 + 0x100000 * n
def STN_SWEEPNO_COUNT (n : Nat) : Fld := ⟨STN_SWEEPNO n, 4, 28⟩
def STN_SWEEPNO_FACET (n : Nat) : Fld := ⟨STN_SWEEPNO n, 0, 4⟩
def STN_PXCTL (n : Nat) : Nat := 0x1001014 + 0x100000 * n
def STN_PXCTL_LOCK (n : Nat) : Fld := ⟨STN_PXCTL n, 31, 1⟩
def STN_PXCTL_PXDIV (n : Nat) : Fld := ⟨STN_PXCTL n, 16, 3⟩
def STN_PXCTL_NINT (n : Nat) : Fld := ⟨STN_PXCTL n, 0, 8⟩
def STN_PXFRAC (n : Nat) : Nat := 0x1001018 + 0x100000 * n
def STN_PXFRAC_FRAC (n : Nat) : Fld := ⟨STN_PXFRAC n, 0, 32⟩
def STN_MAG (n : Nat) : Nat := 0x100101C + 0x100000 * n
def STN_MAG_MAG (n : Nat) : Fld := ⟨STN_MAG n, 0, 32⟩
def STN_HEAD (n : Nat) : Nat := 0x1001020 + 0x100000 * n
def STN_HEAD_FROZEN (n : Nat) : Fld := ⟨STN_HEAD n, 18, 1⟩
def STN_HEAD_DARK (n : Nat) : Fld := ⟨STN_HEAD n, 17, 1⟩
def STN_HEAD_WARN (n : Nat) : Fld := ⟨STN_HEAD n, 16, 1⟩
def STN_HEAD_TEMP (n : Nat) : Fld := ⟨STN_HEAD n, 0, 16⟩
def STN_HTG (n : Nat) : Nat := 0x1001024 + 0x100000 * n
def STN_HTG_HTG (n : Nat) : Fld := ⟨STN_HTG n, 0, 20⟩
def STN_ESTAT (n : Nat) : Nat := 0x1001028 + 0x100000 * n
def STN_ESTAT_WEAR_RESET (n : Nat) : Fld := ⟨STN_ESTAT n, 8, 1⟩
def STN_ESTAT_EMITTER_FAIL (n : Nat) : Fld := ⟨STN_ESTAT n, 7, 1⟩
def STN_ESTAT_BOOST_END (n : Nat) : Fld := ⟨STN_ESTAT n, 6, 1⟩
def STN_ESTAT_HEAD_CRIT (n : Nat) : Fld := ⟨STN_ESTAT n, 5, 1⟩
def STN_ESTAT_HEAD_WARN (n : Nat) : Fld := ⟨STN_ESTAT n, 4, 1⟩
def STN_ESTAT_FACET_SLIP (n : Nat) : Fld := ⟨STN_ESTAT n, 3, 1⟩
def STN_ESTAT_BD_MISS (n : Nat) : Fld := ⟨STN_ESTAT n, 2, 1⟩
def STN_ESTAT_BASE_CLAMP (n : Nat) : Fld := ⟨STN_ESTAT n, 1, 1⟩
def STN_ESTAT_MASK_INCOMPLETE (n : Nat) : Fld := ⟨STN_ESTAT n, 0, 1⟩
def STN_SLIP (n : Nat) : Nat := 0x100102C + 0x100000 * n
def STN_SLIP_SLIP (n : Nat) : Fld := ⟨STN_SLIP n, 0, 32⟩
def STN_BDMISS (n : Nat) : Nat := 0x1001030 + 0x100000 * n
def STN_BDMISS_COUNT (n : Nat) : Fld := ⟨STN_BDMISS n, 0, 16⟩
def STN_EM (n k : Nat) : Nat := 0x1001100 + 0x100000 * n + 0x4 * k
def STN_EM_HEALTH (n k : Nat) : Fld := ⟨STN_EM n k, 26, 1⟩
def STN_EM_PASS (n k : Nat) : Fld := ⟨STN_EM n k, 24, 2⟩
def STN_EM_IN_WINDOW (n k : Nat) : Fld := ⟨STN_EM n k, 23, 1⟩
def STN_EM_HANDLING (n k : Nat) : Fld := ⟨STN_EM n k, 22, 1⟩
def STN_EM_STATE (n k : Nat) : Fld := ⟨STN_EM n k, 20, 2⟩
def STN_EM_BOOST (n k : Nat) : Fld := ⟨STN_EM n k, 0, 20⟩
def STN_WUSED (n k : Nat) : Nat := 0x1001200 + 0x100000 * n + 0x4 * k
def STN_WUSED_SECONDS (n k : Nat) : Fld := ⟨STN_WUSED n k, 0, 32⟩
def STN_WREM (n k : Nat) : Nat := 0x1001300 + 0x100000 * n + 0x4 * k
def STN_WREM_SECONDS (n k : Nat) : Fld := ⟨STN_WREM n k, 0, 32⟩
def STN_MASK (n t r : Nat) : Nat := 0x10B0000 + 0x100000 * n + 0x80 * t + 0x4 * r
def STN_MASK_BITS (n t r : Nat) : Fld := ⟨STN_MASK n t r, 0, 32⟩
def STN_FACET (n f : Nat) : Nat := 0x10B0400 + 0x100000 * n + 0x8 * f
def STN_FACET_FSTART (n f : Nat) : Fld := ⟨STN_FACET n f, 0, 16⟩
def STN_FGAIN (n f : Nat) : Nat := 0x10B0404 + 0x100000 * n + 0x8 * f
def STN_FGAIN_FGAIN (n f : Nat) : Fld := ⟨STN_FGAIN n f, 0, 20⟩
def STN_FILL (n s : Nat) : Nat := 0x10B4000 + 0x100000 * n + 0x4 * s
def STN_FILL_FILL (n s : Nat) : Fld := ⟨STN_FILL n s, 0, 20⟩

/-! Registers of spec/08_amonone_link.md. -/

def STN_LCTRL (n : Nat) : Nat := 0x1008000 + 0x100000 * n
def STN_LCTRL_DOWN (n : Nat) : Fld := ⟨STN_LCTRL n, 1, 1⟩
def STN_LCTRL_RETRAIN (n : Nat) : Fld := ⟨STN_LCTRL n, 0, 1⟩
def STN_LSTAT (n : Nat) : Nat := 0x1008004 + 0x100000 * n
def STN_LSTAT_VERSION (n : Nat) : Fld := ⟨STN_LSTAT n, 16, 16⟩
def STN_LSTAT_CAUSE (n : Nat) : Fld := ⟨STN_LSTAT n, 12, 4⟩
def STN_LSTAT_RATE_OK (n : Nat) : Fld := ⟨STN_LSTAT n, 11, 1⟩
def STN_LSTAT_BUF_OK (n : Nat) : Fld := ⟨STN_LSTAT n, 10, 1⟩
def STN_LSTAT_LIT (n : Nat) : Fld := ⟨STN_LSTAT n, 9, 1⟩
def STN_LSTAT_BANK (n : Nat) : Fld := ⟨STN_LSTAT n, 8, 1⟩
def STN_LSTAT_STATE (n : Nat) : Fld := ⟨STN_LSTAT n, 0, 3⟩
def STN_LERR (n : Nat) : Nat := 0x1008008 + 0x100000 * n
def STN_LERR_RESEND (n : Nat) : Fld := ⟨STN_LERR n, 6, 1⟩
def STN_LERR_LATE (n : Nat) : Fld := ⟨STN_LERR n, 5, 1⟩
def STN_LERR_SENSOR_FAULT (n : Nat) : Fld := ⟨STN_LERR n, 4, 1⟩
def STN_LERR_UNREPORTED (n : Nat) : Fld := ⟨STN_LERR n, 3, 1⟩
def STN_LERR_LOSS (n : Nat) : Fld := ⟨STN_LERR n, 2, 1⟩
def STN_LERR_BACK_CRC (n : Nat) : Fld := ⟨STN_LERR n, 1, 1⟩
def STN_LERR_DAMAGED (n : Nat) : Fld := ⟨STN_LERR n, 0, 1⟩
def STN_LCOUNT (n : Nat) : Nat := 0x100800C + 0x100000 * n
def STN_LCOUNT_LOSSES (n : Nat) : Fld := ⟨STN_LCOUNT n, 24, 8⟩
def STN_LCOUNT_BACK_CRC (n : Nat) : Fld := ⟨STN_LCOUNT n, 12, 12⟩
def STN_LCOUNT_DAMAGED (n : Nat) : Fld := ⟨STN_LCOUNT n, 0, 12⟩
def STN_LMARGIN (n : Nat) : Nat := 0x1008010 + 0x100000 * n
def STN_LMARGIN_NS (n : Nat) : Fld := ⟨STN_LMARGIN n, 0, 32⟩
def STN_DCAP0 (n : Nat) : Nat := 0x1008020 + 0x100000 * n
def STN_DCAP0_DRV_MAX (n : Nat) : Fld := ⟨STN_DCAP0 n, 16, 16⟩
def STN_DCAP0_DRV_MIN (n : Nat) : Fld := ⟨STN_DCAP0 n, 0, 16⟩
def STN_DCAP1 (n : Nat) : Nat := 0x1008024 + 0x100000 * n
def STN_DCAP1_SOS (n : Nat) : Fld := ⟨STN_DCAP1 n, 16, 16⟩
def STN_DCAP1_LIV (n : Nat) : Fld := ⟨STN_DCAP1 n, 12, 1⟩
def STN_DCAP1_PITCH (n : Nat) : Fld := ⟨STN_DCAP1 n, 8, 4⟩
def STN_DCAP1_E (n : Nat) : Fld := ⟨STN_DCAP1 n, 0, 6⟩
def STN_DCAP2 (n : Nat) : Nat := 0x1008028 + 0x100000 * n
def STN_DCAP2_BUF_BYTES (n : Nat) : Fld := ⟨STN_DCAP2 n, 0, 32⟩
def STN_DSERIAL (n : Nat) : Nat := 0x100802C + 0x100000 * n
def STN_DSERIAL_SERIAL (n : Nat) : Fld := ⟨STN_DSERIAL n, 0, 32⟩
def STN_BDTS (n : Nat) : Nat := 0x1008030 + 0x100000 * n
def STN_BDTS_BD_TIME (n : Nat) : Fld := ⟨STN_BDTS n, 0, 32⟩
def STN_LIV (n k : Nat) : Nat := 0x1008100 + 0x100000 * n + 0x4 * k
def STN_LIV_VF (n k : Nat) : Fld := ⟨STN_LIV n k, 16, 16⟩
def STN_LIV_POWER (n k : Nat) : Fld := ⟨STN_LIV n k, 0, 16⟩

/-! Registers of spec/09_vision_registration.md. -/

def VIS_CAPS : Nat := 0xC00000
def VIS_CAPS_STREAMS : Fld := ⟨VIS_CAPS, 4, 4⟩
def VIS_CAPS_PORTS : Fld := ⟨VIS_CAPS, 0, 4⟩
def VIS_STAT : Nat := 0xC00004
def VIS_STAT_INLINE_VALID : Fld := ⟨VIS_STAT, 8, 1⟩
def VIS_STAT_INLINE : Fld := ⟨VIS_STAT, 4, 4⟩
def VIS_STAT_BUSY : Fld := ⟨VIS_STAT, 1, 1⟩
def VIS_STAT_PAUSED : Fld := ⟨VIS_STAT, 0, 1⟩
def VIS_MRLOST : Nat := 0xC00008
def VIS_MRLOST_COUNT : Fld := ⟨VIS_MRLOST, 0, 16⟩
def VIS_CSI_CFG (p : Nat) : Nat := 0xC00100 + 0x20 * p
def VIS_CSI_CFG_LANES (p : Nat) : Fld := ⟨VIS_CSI_CFG p, 0, 3⟩
def VIS_CSI_ERR (p : Nat) : Nat := 0xC00104 + 0x20 * p
def VIS_CSI_ERR_SIZE (p : Nat) : Fld := ⟨VIS_CSI_ERR p, 24, 8⟩
def VIS_CSI_ERR_CRC (p : Nat) : Fld := ⟨VIS_CSI_ERR p, 16, 8⟩
def VIS_CSI_ERR_ECC_UNCORR (p : Nat) : Fld := ⟨VIS_CSI_ERR p, 8, 8⟩
def VIS_CSI_ERR_ECC_CORR (p : Nat) : Fld := ⟨VIS_CSI_ERR p, 0, 8⟩
def VIS_CSI_DROP (p : Nat) : Nat := 0xC00108 + 0x20 * p
def VIS_CSI_DROP_QUEUED (p : Nat) : Fld := ⟨VIS_CSI_DROP p, 16, 4⟩
def VIS_CSI_DROP_COUNT (p : Nat) : Fld := ⟨VIS_CSI_DROP p, 0, 16⟩
def VIS_CSI_DROPTAG (p : Nat) : Nat := 0xC0010C + 0x20 * p
def VIS_CSI_DROPTAG_FRAME_TAG (p : Nat) : Fld := ⟨VIS_CSI_DROPTAG p, 0, 32⟩
def VIS_CAM_STAT (s : Nat) : Nat := 0xC00200 + 0x10 * s
def VIS_CAM_STAT_PATH (s : Nat) : Fld := ⟨VIS_CAM_STAT s, 30, 2⟩
def VIS_CAM_STAT_CCI_LATE (s : Nat) : Fld := ⟨VIS_CAM_STAT s, 29, 1⟩
def VIS_CAM_STAT_SUPERSEDED (s : Nat) : Fld := ⟨VIS_CAM_STAT s, 28, 1⟩
def VIS_CAM_STAT_SEQ (s : Nat) : Fld := ⟨VIS_CAM_STAT s, 0, 28⟩
def VIS_CAM_GEN (s : Nat) : Nat := 0xC00204 + 0x10 * s
def VIS_CAM_GEN_GEN (s : Nat) : Fld := ⟨VIS_CAM_GEN s, 0, 32⟩
def VIS_CAM_PEND (s : Nat) : Nat := 0xC00208 + 0x10 * s
def VIS_CAM_PEND_GEN (s : Nat) : Fld := ⟨VIS_CAM_PEND s, 0, 32⟩
def VIS_CAM_EFF (s : Nat) : Nat := 0xC0020C + 0x10 * s
def VIS_CAM_EFF_SEQ (s : Nat) : Fld := ⟨VIS_CAM_EFF s, 0, 28⟩
def VIS_CAM_ALOST (s : Nat) : Nat := 0xC00300 + 0x4 * s
def VIS_CAM_ALOST_QUEUED (s : Nat) : Fld := ⟨VIS_CAM_ALOST s, 16, 3⟩
def VIS_CAM_ALOST_COUNT (s : Nat) : Fld := ⟨VIS_CAM_ALOST s, 0, 16⟩
def VIS_REG_CTRL : Nat := 0xC00400
def VIS_REG_CTRL_PTRIM_EN : Fld := ⟨VIS_REG_CTRL, 12, 1⟩
def VIS_REG_CTRL_NAVG : Fld := ⟨VIS_REG_CTRL, 8, 4⟩
def VIS_REG_CTRL_AUTO : Fld := ⟨VIS_REG_CTRL, 0, 8⟩
def VIS_REG_GAIN : Nat := 0xC00404
def VIS_REG_GAIN_GAIN : Fld := ⟨VIS_REG_GAIN, 0, 20⟩
def VIS_REG_DEAD : Nat := 0xC00408
def VIS_REG_DEAD_MAG : Fld := ⟨VIS_REG_DEAD, 16, 16⟩
def VIS_REG_DEAD_LINE : Fld := ⟨VIS_REG_DEAD, 8, 8⟩
def VIS_REG_DEAD_PIX : Fld := ⟨VIS_REG_DEAD, 0, 8⟩
def VIS_REG_STAT (n : Nat) : Nat := 0xC00410 + 0x4 * n
def VIS_REG_STAT_EPOCH (n : Nat) : Fld := ⟨VIS_REG_STAT n, 24, 8⟩
def VIS_REG_STAT_COUNT (n : Nat) : Fld := ⟨VIS_REG_STAT n, 20, 4⟩
def VIS_REG_STAT_LIMIT (n : Nat) : Fld := ⟨VIS_REG_STAT n, 0, 1⟩

/-! Registers of spec/10_motors_foc.md. -/

def MC_CTRL (n : Nat) : Nat := 0x800000 + 0x80 * n
def MC_CTRL_CMD_SEL (n : Nat) : Fld := ⟨MC_CTRL n, 8, 3⟩
def MC_CTRL_KEEP (n : Nat) : Fld := ⟨MC_CTRL n, 7, 1⟩
def MC_CTRL_DIR (n : Nat) : Fld := ⟨MC_CTRL n, 6, 1⟩
def MC_CTRL_SRC (n : Nat) : Fld := ⟨MC_CTRL n, 5, 1⟩
def MC_CTRL_MODE (n : Nat) : Fld := ⟨MC_CTRL n, 4, 1⟩
def MC_CTRL_CLEAR (n : Nat) : Fld := ⟨MC_CTRL n, 2, 1⟩
def MC_CTRL_STOP (n : Nat) : Fld := ⟨MC_CTRL n, 1, 1⟩
def MC_CTRL_ENABLE (n : Nat) : Fld := ⟨MC_CTRL n, 0, 1⟩
def MC_PWM (n : Nat) : Nat := 0x800004 + 0x80 * n
def MC_PWM_DEAD (n : Nat) : Fld := ⟨MC_PWM n, 16, 9⟩
def MC_PWM_FREQ (n : Nat) : Fld := ⟨MC_PWM n, 0, 10⟩
def MC_SENSE (n : Nat) : Nat := 0x800008 + 0x80 * n
def MC_SENSE_KIND (n : Nat) : Fld := ⟨MC_SENSE n, 31, 1⟩
def MC_SENSE_W_EN (n : Nat) : Fld := ⟨MC_SENSE n, 30, 1⟩
def MC_SENSE_VBUS_EN (n : Nat) : Fld := ⟨MC_SENSE n, 29, 1⟩
def MC_SENSE_VBUS (n : Nat) : Fld := ⟨MC_SENSE n, 24, 4⟩
def MC_SENSE_INW (n : Nat) : Fld := ⟨MC_SENSE n, 18, 6⟩
def MC_SENSE_INV (n : Nat) : Fld := ⟨MC_SENSE n, 12, 6⟩
def MC_SENSE_INU (n : Nat) : Fld := ⟨MC_SENSE n, 6, 6⟩
def MC_MOTOR (n : Nat) : Nat := 0x80000C + 0x80 * n
def MC_MOTOR_POLE_PAIRS (n : Nat) : Fld := ⟨MC_MOTOR n, 28, 4⟩
def MC_MOTOR_VBUS_NOM (n : Nat) : Fld := ⟨MC_MOTOR n, 16, 12⟩
def MC_MOTOR_I_FS (n : Nat) : Fld := ⟨MC_MOTOR n, 0, 16⟩
def MC_KP (n : Nat) : Nat := 0x800010 + 0x80 * n
def MC_KP_KP (n : Nat) : Fld := ⟨MC_KP n, 0, 20⟩
def MC_KI (n : Nat) : Nat := 0x800014 + 0x80 * n
def MC_KI_KI (n : Nat) : Fld := ⟨MC_KI n, 0, 20⟩
def MC_ILIM (n : Nat) : Nat := 0x800018 + 0x80 * n
def MC_ILIM_ILIM (n : Nat) : Fld := ⟨MC_ILIM n, 0, 20⟩
def MC_OCTRIP (n : Nat) : Nat := 0x80001C + 0x80 * n
def MC_OCTRIP_OCTRIP (n : Nat) : Fld := ⟨MC_OCTRIP n, 0, 20⟩
def MC_START (n : Nat) : Nat := 0x800020 + 0x80 * n
def MC_START_T_ST (n : Nat) : Fld := ⟨MC_START n, 20, 12⟩
def MC_START_RETRY (n : Nat) : Fld := ⟨MC_START n, 16, 2⟩
def MC_START_CONTRAST (n : Nat) : Fld := ⟨MC_START n, 8, 7⟩
def MC_START_TPULSE (n : Nat) : Fld := ⟨MC_START n, 0, 8⟩
def MC_FREQ (n : Nat) : Nat := 0x800024 + 0x80 * n
def MC_FREQ_F_STILL (n : Nat) : Fld := ⟨MC_FREQ n, 24, 8⟩
def MC_FREQ_F_CATCH (n : Nat) : Fld := ⟨MC_FREQ n, 12, 12⟩
def MC_FREQ_F_HAND (n : Nat) : Fld := ⟨MC_FREQ n, 0, 12⟩
def MC_RAMP (n : Nat) : Nat := 0x800028 + 0x80 * n
def MC_RAMP_DECEL (n : Nat) : Fld := ⟨MC_RAMP n, 16, 16⟩
def MC_RAMP_ACCEL (n : Nat) : Fld := ⟨MC_RAMP n, 0, 16⟩
def MC_OBS (n : Nat) : Nat := 0x80002C + 0x80 * n
def MC_OBS_RES_COUNT (n : Nat) : Fld := ⟨MC_OBS n, 24, 4⟩
def MC_OBS_RES_LIMIT (n : Nat) : Fld := ⟨MC_OBS n, 0, 20⟩
def MC_SETP (n : Nat) : Nat := 0x800030 + 0x80 * n
def MC_SETP_SETP (n : Nat) : Fld := ⟨MC_SETP n, 0, 20⟩
def MC_STAT (n : Nat) : Nat := 0x800034 + 0x80 * n
def MC_STAT_CAUSE (n : Nat) : Fld := ⟨MC_STAT n, 12, 4⟩
def MC_STAT_CMD_LOSS (n : Nat) : Fld := ⟨MC_STAT n, 11, 1⟩
def MC_STAT_OBS_LOSS (n : Nat) : Fld := ⟨MC_STAT n, 10, 1⟩
def MC_STAT_CLAMPED (n : Nat) : Fld := ⟨MC_STAT n, 9, 1⟩
def MC_STAT_CFG_ERR (n : Nat) : Fld := ⟨MC_STAT n, 8, 1⟩
def MC_STAT_LOCKED (n : Nat) : Fld := ⟨MC_STAT n, 4, 1⟩
def MC_STAT_STATE (n : Nat) : Fld := ⟨MC_STAT n, 0, 4⟩
def MC_SPEED (n : Nat) : Nat := 0x800038 + 0x80 * n
def MC_SPEED_RPM (n : Nat) : Fld := ⟨MC_SPEED n, 0, 20⟩
def MC_IQ (n : Nat) : Nat := 0x80003C + 0x80 * n
def MC_IQ_IQ (n : Nat) : Fld := ⟨MC_IQ n, 0, 20⟩
def MC_ID (n : Nat) : Nat := 0x800040 + 0x80 * n
def MC_ID_ID (n : Nat) : Fld := ⟨MC_ID n, 0, 20⟩
def MC_RS (n : Nat) : Nat := 0x800044 + 0x80 * n
def MC_RS_RS (n : Nat) : Fld := ⟨MC_RS n, 0, 32⟩
def MC_LS (n : Nat) : Nat := 0x800048 + 0x80 * n
def MC_LS_LS (n : Nat) : Fld := ⟨MC_LS n, 0, 32⟩
def MC_POLY (n : Nat) : Nat := 0x80004C + 0x80 * n
def MC_POLY_LOCK_PPM (n : Nat) : Fld := ⟨MC_POLY n, 8, 8⟩
def MC_POLY_BOUND (n : Nat) : Fld := ⟨MC_POLY n, 3, 1⟩
def MC_POLY_STATION (n : Nat) : Fld := ⟨MC_POLY n, 0, 3⟩
def MC_BDERR (n : Nat) : Nat := 0x800050 + 0x80 * n
def MC_BDERR_ERR (n : Nat) : Fld := ⟨MC_BDERR n, 0, 20⟩
def MC_FAULTS (n : Nat) : Nat := 0x800054 + 0x80 * n
def MC_FAULTS_REACQ (n : Nat) : Fld := ⟨MC_FAULTS n, 16, 16⟩
def MC_FAULTS_FAULTS (n : Nat) : Fld := ⟨MC_FAULTS n, 0, 16⟩
def CMD_CFG (k : Nat) : Nat := 0x801000 + 0x10 * k
def CMD_CFG_FS_HZ (k : Nat) : Fld := ⟨CMD_CFG k, 12, 20⟩
def CMD_CFG_AIN (k : Nat) : Fld := ⟨CMD_CFG k, 8, 4⟩
def CMD_CFG_LOSS_ACT (k : Nat) : Fld := ⟨CMD_CFG k, 4, 2⟩
def CMD_CFG_MODE (k : Nat) : Fld := ⟨CMD_CFG k, 0, 2⟩
def CMD_GAIN (k : Nat) : Nat := 0x801004 + 0x10 * k
def CMD_GAIN_GAIN (k : Nat) : Fld := ⟨CMD_GAIN k, 0, 20⟩
def CMD_OFFSET (k : Nat) : Nat := 0x801008 + 0x10 * k
def CMD_OFFSET_OFFSET (k : Nat) : Fld := ⟨CMD_OFFSET k, 0, 20⟩
def CMD_STAT (k : Nat) : Nat := 0x80100C + 0x10 * k
def CMD_STAT_LOSS (k : Nat) : Fld := ⟨CMD_STAT k, 31, 1⟩
def CMD_STAT_X (k : Nat) : Fld := ⟨CMD_STAT k, 0, 20⟩

/-! Registers of spec/11_step_motion.md. -/

def AX_CTRL (n : Nat) : Nat := 0x802000 + 0x40 * n
def AX_CTRL_IN_GROUP (n : Nat) : Fld := ⟨AX_CTRL n, 23, 1⟩
def AX_CTRL_GROUP (n : Nat) : Fld := ⟨AX_CTRL n, 20, 3⟩
def AX_CTRL_WAIT_EV (n : Nat) : Fld := ⟨AX_CTRL n, 15, 1⟩
def AX_CTRL_VDIR (n : Nat) : Fld := ⟨AX_CTRL n, 14, 1⟩
def AX_CTRL_REL (n : Nat) : Fld := ⟨AX_CTRL n, 13, 1⟩
def AX_CTRL_MODE (n : Nat) : Fld := ⟨AX_CTRL n, 12, 1⟩
def AX_CTRL_DIR_INV (n : Nat) : Fld := ⟨AX_CTRL n, 11, 1⟩
def AX_CTRL_EN_POL (n : Nat) : Fld := ⟨AX_CTRL n, 10, 1⟩
def AX_CTRL_KEEP (n : Nat) : Fld := ⟨AX_CTRL n, 9, 1⟩
def AX_CTRL_CLEAR (n : Nat) : Fld := ⟨AX_CTRL n, 4, 1⟩
def AX_CTRL_STOP (n : Nat) : Fld := ⟨AX_CTRL n, 3, 1⟩
def AX_CTRL_GO (n : Nat) : Fld := ⟨AX_CTRL n, 2, 1⟩
def AX_CTRL_ENABLE (n : Nat) : Fld := ⟨AX_CTRL n, 0, 1⟩
def AX_TARGET (n : Nat) : Nat := 0x802004 + 0x40 * n
def AX_TARGET_TARGET (n : Nat) : Fld := ⟨AX_TARGET n, 0, 32⟩
def AX_VMAX (n : Nat) : Nat := 0x802008 + 0x40 * n
def AX_VMAX_VMAX (n : Nat) : Fld := ⟨AX_VMAX n, 0, 32⟩
def AX_ACCEL (n : Nat) : Nat := 0x80200C + 0x40 * n
def AX_ACCEL_ACCEL (n : Nat) : Fld := ⟨AX_ACCEL n, 0, 32⟩
def AX_DECEL (n : Nat) : Nat := 0x802010 + 0x40 * n
def AX_DECEL_DECEL (n : Nat) : Fld := ⟨AX_DECEL n, 0, 32⟩
def AX_ESTOP (n : Nat) : Nat := 0x802014 + 0x40 * n
def AX_ESTOP_ESTOP (n : Nat) : Fld := ⟨AX_ESTOP n, 0, 32⟩
def AX_MSTEP (n : Nat) : Nat := 0x802018 + 0x40 * n
def AX_MSTEP_PMAX (n : Nat) : Fld := ⟨AX_MSTEP n, 16, 9⟩
def AX_MSTEP_MAXLEVEL (n : Nat) : Fld := ⟨AX_MSTEP n, 12, 4⟩
def AX_MSTEP_MINLEVEL (n : Nat) : Fld := ⟨AX_MSTEP n, 4, 4⟩
def AX_MRESMAP (n : Nat) : Nat := 0x80201C + 0x40 * n
def AX_MRESMAP_CODES (n : Nat) : Fld := ⟨AX_MRESMAP n, 0, 27⟩
def AX_TIMING (n : Nat) : Nat := 0x802020 + 0x40 * n
def AX_TIMING_TEN (n : Nat) : Fld := ⟨AX_TIMING n, 24, 8⟩
def AX_TIMING_TMS (n : Nat) : Fld := ⟨AX_TIMING n, 16, 8⟩
def AX_TIMING_TDS (n : Nat) : Fld := ⟨AX_TIMING n, 8, 8⟩
def AX_TIMING_TH (n : Nat) : Fld := ⟨AX_TIMING n, 0, 8⟩
def AX_PHREF (n : Nat) : Nat := 0x802024 + 0x40 * n
def AX_PHREF_PHREF (n : Nat) : Fld := ⟨AX_PHREF n, 0, 8⟩
def AX_ENC (n : Nat) : Nat := 0x802028 + 0x40 * n
def AX_ENC_FERR (n : Nat) : Fld := ⟨AX_ENC n, 16, 16⟩
def AX_ENC_W (n : Nat) : Fld := ⟨AX_ENC n, 12, 4⟩
def AX_ENC_EN (n : Nat) : Fld := ⟨AX_ENC n, 8, 1⟩
def AX_ENC_QE (n : Nat) : Fld := ⟨AX_ENC n, 0, 5⟩
def AX_CPF (n : Nat) : Nat := 0x80202C + 0x40 * n
def AX_CPF_CPF (n : Nat) : Fld := ⟨AX_CPF n, 0, 32⟩
def AX_POS (n : Nat) : Nat := 0x802030 + 0x40 * n
def AX_POS_POS (n : Nat) : Fld := ⟨AX_POS n, 0, 32⟩
def AX_EPOS (n : Nat) : Nat := 0x802034 + 0x40 * n
def AX_EPOS_EPOS (n : Nat) : Fld := ⟨AX_EPOS n, 0, 32⟩
def AX_STAT (n : Nat) : Nat := 0x802038 + 0x40 * n
def AX_STAT_CAUSE (n : Nat) : Fld := ⟨AX_STAT n, 28, 4⟩
def AX_STAT_RESULT (n : Nat) : Fld := ⟨AX_STAT n, 24, 4⟩
def AX_STAT_LEVEL (n : Nat) : Fld := ⟨AX_STAT n, 20, 4⟩
def AX_STAT_PEND (n : Nat) : Fld := ⟨AX_STAT n, 11, 1⟩
def AX_STAT_DECEL_RAISED (n : Nat) : Fld := ⟨AX_STAT n, 10, 1⟩
def AX_STAT_HELD (n : Nat) : Fld := ⟨AX_STAT n, 9, 1⟩
def AX_STAT_CFG_ERR (n : Nat) : Fld := ⟨AX_STAT n, 8, 1⟩
def AX_STAT_STATE (n : Nat) : Fld := ⟨AX_STAT n, 0, 3⟩
def AX_VEL (n : Nat) : Nat := 0x80203C + 0x40 * n
def AX_VEL_VEL (n : Nat) : Fld := ⟨AX_VEL n, 0, 32⟩
def AG_CTRL (g : Nat) : Nat := 0x803000 + 0x20 * g
def AG_CTRL_WAIT_EV (g : Nat) : Fld := ⟨AG_CTRL g, 4, 1⟩
def AG_CTRL_KEEP (g : Nat) : Fld := ⟨AG_CTRL g, 3, 1⟩
def AG_CTRL_STOP (g : Nat) : Fld := ⟨AG_CTRL g, 2, 1⟩
def AG_CTRL_GO (g : Nat) : Fld := ⟨AG_CTRL g, 1, 1⟩
def AG_VMAX (g : Nat) : Nat := 0x803004 + 0x20 * g
def AG_VMAX_VALUE (g : Nat) : Fld := ⟨AG_VMAX g, 0, 32⟩
def AG_ACCEL (g : Nat) : Nat := 0x803008 + 0x20 * g
def AG_ACCEL_VALUE (g : Nat) : Fld := ⟨AG_ACCEL g, 0, 32⟩
def AG_DECEL (g : Nat) : Nat := 0x80300C + 0x20 * g
def AG_DECEL_VALUE (g : Nat) : Fld := ⟨AG_DECEL g, 0, 32⟩
def AG_ESTOP (g : Nat) : Nat := 0x803010 + 0x20 * g
def AG_ESTOP_VALUE (g : Nat) : Fld := ⟨AG_ESTOP g, 0, 32⟩
def AG_STAT (g : Nat) : Nat := 0x803014 + 0x20 * g
def AG_STAT_RESULT (g : Nat) : Fld := ⟨AG_STAT g, 24, 4⟩
def AG_STAT_LEADER (g : Nat) : Fld := ⟨AG_STAT g, 16, 6⟩
def AG_STAT_HELD (g : Nat) : Fld := ⟨AG_STAT g, 7, 1⟩
def AG_STAT_MEMBERS (g : Nat) : Fld := ⟨AG_STAT g, 3, 4⟩
def AG_STAT_STATE (g : Nat) : Fld := ⟨AG_STAT g, 0, 3⟩

/-! Registers of spec/12_control_engine.md. -/

def CE_CAPS : Nat := 0x804000
def CE_CAPS_MHZ : Fld := ⟨CE_CAPS, 24, 8⟩
def CE_CAPS_TRACE : Fld := ⟨CE_CAPS, 16, 8⟩
def CE_CAPS_TB : Fld := ⟨CE_CAPS, 8, 8⟩
def CE_CAPS_LOOPS : Fld := ⟨CE_CAPS, 0, 8⟩
def CE_CTRL : Nat := 0x804004
def CE_CTRL_STAGE : Fld := ⟨CE_CTRL, 0, 1⟩
def CE_STAT : Nat := 0x804008
def CE_STAT_ENABLED : Fld := ⟨CE_STAT, 16, 8⟩
def CE_STAT_STAGED : Fld := ⟨CE_STAT, 8, 8⟩
def CE_STAT_ECC_CORR : Fld := ⟨CE_STAT, 3, 1⟩
def CE_STAT_CFG_ERR : Fld := ⟨CE_STAT, 2, 1⟩
def CE_STAT_WR_IGN : Fld := ⟨CE_STAT, 1, 1⟩
def CE_STAT_STAGE_PEND : Fld := ⟨CE_STAT, 0, 1⟩
def CE_BELT : Nat := 0x80400C
def CE_BELT_BAND : Fld := ⟨CE_BELT, 16, 16⟩
def CE_BELT_IN_BAND : Fld := ⟨CE_BELT, 4, 1⟩
def CE_BELT_TB : Fld := ⟨CE_BELT, 0, 3⟩
def TB_CFG (t : Nat) : Nat := 0x804100 + 0x8 * t
def TB_CFG_USED (t : Nat) : Fld := ⟨TB_CFG t, 31, 1⟩
def TB_CFG_DIV (t : Nat) : Fld := ⟨TB_CFG t, 16, 8⟩
def TB_CFG_MC (t : Nat) : Fld := ⟨TB_CFG t, 8, 5⟩
def TB_CFG_SRC (t : Nat) : Fld := ⟨TB_CFG t, 0, 1⟩
def TB_PERIOD (t : Nat) : Nat := 0x804104 + 0x8 * t
def TB_PERIOD_PERIOD (t : Nat) : Fld := ⟨TB_PERIOD t, 0, 27⟩
def LP_CFG (n : Nat) : Nat := 0x804400 + 0x10 * n
def LP_CFG_ENABLE (n : Nat) : Fld := ⟨LP_CFG n, 31, 1⟩
def LP_CFG_LEN (n : Nat) : Fld := ⟨LP_CFG n, 16, 13⟩
def LP_CFG_TB (n : Nat) : Fld := ⟨LP_CFG n, 12, 3⟩
def LP_CFG_START (n : Nat) : Fld := ⟨LP_CFG n, 0, 12⟩
def LP_STAT (n : Nat) : Nat := 0x804404 + 0x10 * n
def LP_STAT_INFO (n : Nat) : Fld := ⟨LP_STAT n, 16, 16⟩
def LP_STAT_ECC (n : Nat) : Fld := ⟨LP_STAT n, 7, 1⟩
def LP_STAT_SAT (n : Nat) : Fld := ⟨LP_STAT n, 6, 1⟩
def LP_STAT_CFG_ERR (n : Nat) : Fld := ⟨LP_STAT n, 5, 1⟩
def LP_STAT_ERR (n : Nat) : Fld := ⟨LP_STAT n, 0, 4⟩
def TU_CFG (u : Nat) : Nat := 0x804800 + 0x40 * u
def TU_CFG_DEC (u : Nat) : Fld := ⟨TU_CFG u, 16, 8⟩
def TU_CFG_TB (u : Nat) : Fld := ⟨TU_CFG u, 8, 3⟩
def TU_CFG_CHANS (u : Nat) : Fld := ⟨TU_CFG u, 4, 2⟩
def TU_CFG_ABORT (u : Nat) : Fld := ⟨TU_CFG u, 2, 1⟩
def TU_CFG_FORCE (u : Nat) : Fld := ⟨TU_CFG u, 1, 1⟩
def TU_CFG_ARM (u : Nat) : Fld := ⟨TU_CFG u, 0, 1⟩
def TU_TRIG (u : Nat) : Nat := 0x804804 + 0x40 * u
def TU_TRIG_MODE (u : Nat) : Fld := ⟨TU_TRIG u, 28, 4⟩
def TU_TRIG_SRC (u : Nat) : Fld := ⟨TU_TRIG u, 16, 11⟩
def TU_LEVEL (u : Nat) : Nat := 0x804808 + 0x40 * u
def TU_LEVEL_LEVEL (u : Nat) : Fld := ⟨TU_LEVEL u, 0, 20⟩
def TU_SRC01 (u : Nat) : Nat := 0x80480C + 0x40 * u
def TU_SRC01_SRC_HI (u : Nat) : Fld := ⟨TU_SRC01 u, 16, 11⟩
def TU_SRC01_SRC_LO (u : Nat) : Fld := ⟨TU_SRC01 u, 0, 11⟩
def TU_SRC23 (u : Nat) : Nat := 0x804810 + 0x40 * u
def TU_SRC23_SRC_HI (u : Nat) : Fld := ⟨TU_SRC23 u, 16, 11⟩
def TU_SRC23_SRC_LO (u : Nat) : Fld := ⟨TU_SRC23 u, 0, 11⟩
def TU_PRE (u : Nat) : Nat := 0x804814 + 0x40 * u
def TU_PRE_PRE (u : Nat) : Fld := ⟨TU_PRE u, 0, 14⟩
def TU_STAT (u : Nat) : Nat := 0x804818 + 0x40 * u
def TU_STAT_COUNT (u : Nat) : Fld := ⟨TU_STAT u, 16, 15⟩
def TU_STAT_CFG_ERR (u : Nat) : Fld := ⟨TU_STAT u, 4, 1⟩
def TU_STAT_PREFILL (u : Nat) : Fld := ⟨TU_STAT u, 3, 1⟩
def TU_STAT_STATE (u : Nat) : Fld := ⟨TU_STAT u, 0, 3⟩
def TU_T0_LO (u : Nat) : Nat := 0x80481C + 0x40 * u
def TU_T0_LO_TIME (u : Nat) : Fld := ⟨TU_T0_LO u, 0, 32⟩
def TU_T0_HI (u : Nat) : Nat := 0x804820 + 0x40 * u
def TU_T0_HI_TIME (u : Nat) : Fld := ⟨TU_T0_HI u, 0, 32⟩
def CE_PROG_LO (w : Nat) : Nat := 0x808000 + 0x8 * w
def CE_PROG_LO_WORD (w : Nat) : Fld := ⟨CE_PROG_LO w, 0, 32⟩
def CE_PROG_HI (w : Nat) : Nat := 0x808004 + 0x8 * w
def CE_PROG_HI_WORD (w : Nat) : Fld := ⟨CE_PROG_HI w, 0, 32⟩
def CE_COEF (c : Nat) : Nat := 0x810000 + 0x4 * c
def CE_COEF_COEF (c : Nat) : Fld := ⟨CE_COEF c, 0, 20⟩
def CE_NODE (i : Nat) : Nat := 0x814000 + 0x4 * i
def CE_NODE_NODE (i : Nat) : Fld := ⟨CE_NODE i, 0, 20⟩
def CE_STATE_LO (s : Nat) : Nat := 0x818000 + 0x8 * s
def CE_STATE_LO_STATE (s : Nat) : Fld := ⟨CE_STATE_LO s, 0, 32⟩
def CE_STATE_HI (s : Nat) : Nat := 0x818004 + 0x8 * s
def CE_STATE_HI_STATE (s : Nat) : Fld := ⟨CE_STATE_HI s, 0, 32⟩
def TU_BUF (u i : Nat) : Nat := 0x840000 + 0x10000 * u + 0x4 * i
def TU_BUF_SAMPLE (u i : Nat) : Fld := ⟨TU_BUF u i, 0, 32⟩

/-! Registers of spec/13_hv_fuser.md. -/

def HV_CTRL (j : Nat) : Nat := 0x805000 + 0x40 * j
def HV_CTRL_CLEAR (j : Nat) : Fld := ⟨HV_CTRL j, 3, 1⟩
def HV_CTRL_HOLD (j : Nat) : Fld := ⟨HV_CTRL j, 2, 1⟩
def HV_CTRL_MODE (j : Nat) : Fld := ⟨HV_CTRL j, 1, 1⟩
def HV_CTRL_ENABLE (j : Nat) : Fld := ⟨HV_CTRL j, 0, 1⟩
def HV_PWM (j : Nat) : Nat := 0x805004 + 0x40 * j
def HV_PWM_FREQ (j : Nat) : Fld := ⟨HV_PWM j, 0, 9⟩
def HV_FB (j : Nat) : Nat := 0x805008 + 0x40 * j
def HV_FB_IKIND (j : Nat) : Fld := ⟨HV_FB j, 15, 1⟩
def HV_FB_IIN (j : Nat) : Fld := ⟨HV_FB j, 8, 7⟩
def HV_FB_VKIND (j : Nat) : Fld := ⟨HV_FB j, 7, 1⟩
def HV_FB_VIN (j : Nat) : Fld := ⟨HV_FB j, 0, 7⟩
def HV_SCALE (j : Nat) : Nat := 0x80500C + 0x40 * j
def HV_SCALE_IFS (j : Nat) : Fld := ⟨HV_SCALE j, 16, 16⟩
def HV_SCALE_VFS (j : Nat) : Fld := ⟨HV_SCALE j, 0, 16⟩
def HV_CAP (j : Nat) : Nat := 0x805010 + 0x40 * j
def HV_CAP_CAP (j : Nat) : Fld := ⟨HV_CAP j, 0, 32⟩
def HV_SHROUD (j : Nat) : Nat := 0x805014 + 0x40 * j
def HV_SHROUD_QUIET (j : Nat) : Fld := ⟨HV_SHROUD j, 16, 8⟩
def HV_SHROUD_CEIL (j : Nat) : Fld := ⟨HV_SHROUD j, 0, 16⟩
def HV_LIMITS (j : Nat) : Nat := 0x805018 + 0x40 * j
def HV_LIMITS_COMPL (j : Nat) : Fld := ⟨HV_LIMITS j, 16, 16⟩
def HV_LIMITS_ILOAD (j : Nat) : Fld := ⟨HV_LIMITS j, 0, 16⟩
def HV_GUARD (j : Nat) : Nat := 0x80501C + 0x40 * j
def HV_GUARD_EN (j : Nat) : Fld := ⟨HV_GUARD j, 31, 1⟩
def HV_GUARD_AIN (j : Nat) : Fld := ⟨HV_GUARD j, 24, 4⟩
def HV_GUARD_HI (j : Nat) : Fld := ⟨HV_GUARD j, 12, 12⟩
def HV_GUARD_LO (j : Nat) : Fld := ⟨HV_GUARD j, 0, 12⟩
def HV_BAND (j : Nat) : Nat := 0x805020 + 0x40 * j
def HV_BAND_TOL (j : Nat) : Fld := ⟨HV_BAND j, 16, 16⟩
def HV_BAND_TARGET (j : Nat) : Fld := ⟨HV_BAND j, 0, 16⟩
def HV_SAFE (j : Nat) : Nat := 0x805024 + 0x40 * j
def HV_SAFE_VOLTS (j : Nat) : Fld := ⟨HV_SAFE j, 0, 16⟩
def HV_STAT (j : Nat) : Nat := 0x805028 + 0x40 * j
def HV_STAT_TRIPS (j : Nat) : Fld := ⟨HV_STAT j, 24, 8⟩
def HV_STAT_CAUSE (j : Nat) : Fld := ⟨HV_STAT j, 8, 2⟩
def HV_STAT_REGULATING (j : Nat) : Fld := ⟨HV_STAT j, 7, 1⟩
def HV_STAT_DSC_PEND (j : Nat) : Fld := ⟨HV_STAT j, 6, 1⟩
def HV_STAT_GUARD (j : Nat) : Fld := ⟨HV_STAT j, 5, 1⟩
def HV_STAT_COMPLIANCE (j : Nat) : Fld := ⟨HV_STAT j, 4, 1⟩
def HV_STAT_CFG_ERR (j : Nat) : Fld := ⟨HV_STAT j, 3, 1⟩
def HV_STAT_STATE (j : Nat) : Fld := ⟨HV_STAT j, 0, 2⟩
def HV_MEAS (j : Nat) : Nat := 0x80502C + 0x40 * j
def HV_MEAS_I (j : Nat) : Fld := ⟨HV_MEAS j, 16, 16⟩
def HV_MEAS_V (j : Nat) : Fld := ⟨HV_MEAS j, 0, 16⟩
def HV_ENERGY (j : Nat) : Nat := 0x805030 + 0x40 * j
def HV_ENERGY_PEAK (j : Nat) : Fld := ⟨HV_ENERGY j, 16, 16⟩
def HV_ENERGY_S (j : Nat) : Fld := ⟨HV_ENERGY j, 0, 16⟩
def HT_CTRL (h : Nat) : Nat := 0x806000 + 0x20 * h
def HT_CTRL_GATE_US (h : Nat) : Fld := ⟨HT_CTRL h, 24, 8⟩
def HT_CTRL_PHASE (h : Nat) : Fld := ⟨HT_CTRL h, 6, 2⟩
def HT_CTRL_MODE (h : Nat) : Fld := ⟨HT_CTRL h, 4, 2⟩
def HT_CTRL_FURL_OFF (h : Nat) : Fld := ⟨HT_CTRL h, 3, 1⟩
def HT_CTRL_CLEAR (h : Nat) : Fld := ⟨HT_CTRL h, 2, 1⟩
def HT_CTRL_ENABLE (h : Nat) : Fld := ⟨HT_CTRL h, 0, 1⟩
def HT_TH (h : Nat) : Nat := 0x806004 + 0x20 * h
def HT_TH_POL (h : Nat) : Fld := ⟨HT_TH h, 31, 1⟩
def HT_TH_AIN (h : Nat) : Fld := ⟨HT_TH h, 24, 4⟩
def HT_TH_VMAX (h : Nat) : Fld := ⟨HT_TH h, 12, 12⟩
def HT_TH_VMIN (h : Nat) : Fld := ⟨HT_TH h, 0, 12⟩
def HT_OT (h : Nat) : Nat := 0x806008 + 0x20 * h
def HT_OT_HYST (h : Nat) : Fld := ⟨HT_OT h, 16, 12⟩
def HT_OT_OT_CODE (h : Nat) : Fld := ⟨HT_OT h, 0, 12⟩
def HT_BAND (h : Nat) : Nat := 0x80600C + 0x20 * h
def HT_BAND_TOL (h : Nat) : Fld := ⟨HT_BAND h, 16, 12⟩
def HT_BAND_TARGET (h : Nat) : Fld := ⟨HT_BAND h, 0, 12⟩
def HT_OTC (h : Nat) : Nat := 0x806010 + 0x20 * h
def HT_OTC_ENABLE (h : Nat) : Fld := ⟨HT_OTC h, 9, 1⟩
def HT_OTC_POL (h : Nat) : Fld := ⟨HT_OTC h, 8, 1⟩
def HT_OTC_LEVEL (h : Nat) : Fld := ⟨HT_OTC h, 0, 8⟩
def HT_STAT (h : Nat) : Nat := 0x806014 + 0x20 * h
def HT_STAT_CODE (h : Nat) : Fld := ⟨HT_STAT h, 16, 16⟩
def HT_STAT_IN_BAND (h : Nat) : Fld := ⟨HT_STAT h, 6, 1⟩
def HT_STAT_FIRING (h : Nat) : Fld := ⟨HT_STAT h, 5, 1⟩
def HT_STAT_OVER (h : Nat) : Fld := ⟨HT_STAT h, 4, 1⟩
def HT_STAT_BROKEN (h : Nat) : Fld := ⟨HT_STAT h, 3, 1⟩
def HT_STAT_CFG_ERR (h : Nat) : Fld := ⟨HT_STAT h, 2, 1⟩
def HT_STAT_CLEATED (h : Nat) : Fld := ⟨HT_STAT h, 1, 1⟩
def HT_ZC : Nat := 0x807000
def HT_ZC_LOSS : Fld := ⟨HT_ZC, 31, 1⟩
def HT_ZC_PERIOD : Fld := ⟨HT_ZC, 16, 15⟩
def HT_ZC_DELAY : Fld := ⟨HT_ZC, 0, 10⟩
def ILK_STAT : Nat := 0x807004
def ILK_STAT_FORCED : Fld := ⟨ILK_STAT, 8, 1⟩
def ILK_STAT_OPENED : Fld := ⟨ILK_STAT, 4, 4⟩
def ILK_STAT_CLOSED : Fld := ⟨ILK_STAT, 0, 4⟩
def ILK_HEAT : Nat := 0x807008
def ILK_HEAT_MASK : Fld := ⟨ILK_HEAT, 0, 32⟩
def ILK_TIME_LO : Nat := 0x80700C
def ILK_TIME_LO_TIME : Fld := ⟨ILK_TIME_LO, 0, 32⟩
def ILK_TIME_HI : Nat := 0x807010
def ILK_TIME_HI_TIME : Fld := ⟨ILK_TIME_HI, 0, 32⟩

/-! Registers of spec/14_power_supervision.md. -/

def PWR_CTRL : Nat := 0x100000
def PWR_CTRL_CNT_SLOT : Fld := ⟨PWR_CTRL, 8, 5⟩
def PWR_CTRL_CNT_CLR : Fld := ⟨PWR_CTRL, 3, 1⟩
def PWR_CTRL_SAVE : Fld := ⟨PWR_CTRL, 2, 1⟩
def PWR_CTRL_UNCLEAT : Fld := ⟨PWR_CTRL, 1, 1⟩
def PWR_CTRL_OFF : Fld := ⟨PWR_CTRL, 0, 1⟩
def PWR_STAT : Nat := 0x100004
def PWR_STAT_REFUSED : Fld := ⟨PWR_STAT, 31, 1⟩
def PWR_STAT_SAVING : Fld := ⟨PWR_STAT, 30, 1⟩
def PWR_STAT_SAG_ARMED : Fld := ⟨PWR_STAT, 29, 1⟩
def PWR_STAT_VIN_LOW : Fld := ⟨PWR_STAT, 28, 1⟩
def PWR_STAT_NO_SLOT : Fld := ⟨PWR_STAT, 27, 1⟩
def PWR_STAT_FAIL_SLOT : Fld := ⟨PWR_STAT, 22, 5⟩
def PWR_STAT_FAIL_CAUSE : Fld := ⟨PWR_STAT, 18, 4⟩
def PWR_STAT_ATTEMPT : Fld := ⟨PWR_STAT, 15, 3⟩
def PWR_STAT_STEP : Fld := ⟨PWR_STAT, 7, 8⟩
def PWR_STAT_ON_HELD : Fld := ⟨PWR_STAT, 4, 1⟩
def PWR_STAT_RETRY_WAIT : Fld := ⟨PWR_STAT, 3, 1⟩
def PWR_STAT_STATE : Fld := ⟨PWR_STAT, 0, 3⟩
def PWR_CFG : Nat := 0x100008
def PWR_CFG_TOFF_MIN : Fld := ⟨PWR_CFG, 0, 16⟩
def PWR_MARK : Nat := 0x10000C
def PWR_MARK_NS : Fld := ⟨PWR_MARK, 8, 24⟩
def PWR_MARK_VALUE : Fld := ⟨PWR_MARK, 0, 8⟩
def PWR_GOOD : Nat := 0x100010
def PWR_GOOD_QUAL : Fld := ⟨PWR_GOOD, 0, 32⟩
def PWR_EN : Nat := 0x100014
def PWR_EN_ACTIVE : Fld := ⟨PWR_EN, 0, 32⟩
def PWR_VIN : Nat := 0x100018
def PWR_VIN_VSTAY : Fld := ⟨PWR_VIN, 16, 16⟩
def PWR_VIN_VIN : Fld := ⟨PWR_VIN, 0, 16⟩
def PWR_SAG : Nat := 0x10001C
def PWR_SAG_SAVES : Fld := ⟨PWR_SAG, 16, 16⟩
def PWR_SAG_TFILT : Fld := ⟨PWR_SAG, 0, 6⟩
def PWR_STAY : Nat := 0x100020
def PWR_STAY_SEQ : Fld := ⟨PWR_STAY, 0, 32⟩
def PWR_STAYSTAT : Nat := 0x100024
def PWR_STAYSTAT_ABORTED : Fld := ⟨PWR_STAYSTAT, 4, 1⟩
def PWR_STAYSTAT_TJ_OUT : Fld := ⟨PWR_STAYSTAT, 3, 1⟩
def PWR_STAYSTAT_NEWEST_B : Fld := ⟨PWR_STAYSTAT, 2, 1⟩
def PWR_STAYSTAT_B_VALID : Fld := ⟨PWR_STAYSTAT, 1, 1⟩
def PWR_STAYSTAT_A_VALID : Fld := ⟨PWR_STAYSTAT, 0, 1⟩
def PWR_LEDGER (i : Nat) : Nat := 0x100040 + 0x4 * i
def PWR_LEDGER_E3 (i : Nat) : Fld := ⟨PWR_LEDGER i, 24, 8⟩
def PWR_LEDGER_E2 (i : Nat) : Fld := ⟨PWR_LEDGER i, 16, 8⟩
def PWR_LEDGER_E1 (i : Nat) : Fld := ⟨PWR_LEDGER i, 8, 8⟩
def PWR_LEDGER_E0 (i : Nat) : Fld := ⟨PWR_LEDGER i, 0, 8⟩
def PWR_PROG (w : Nat) : Nat := 0x100400 + 0x4 * w
def PWR_PROG_WORD (w : Nat) : Fld := ⟨PWR_PROG w, 0, 32⟩
def PWR_SLOT_CFG (s : Nat) : Nat := 0x100800 + 0x20 * s
def PWR_SLOT_CFG_EN_POL (s : Nat) : Fld := ⟨PWR_SLOT_CFG s, 31, 1⟩
def PWR_SLOT_CFG_PG_POL (s : Nat) : Fld := ⟨PWR_SLOT_CFG s, 30, 1⟩
def PWR_SLOT_CFG_OV_EN (s : Nat) : Fld := ⟨PWR_SLOT_CFG s, 29, 1⟩
def PWR_SLOT_CFG_OV_AIN (s : Nat) : Fld := ⟨PWR_SLOT_CFG s, 24, 4⟩
def PWR_SLOT_CFG_OV_CODE (s : Nat) : Fld := ⟨PWR_SLOT_CFG s, 12, 12⟩
def PWR_SLOT_CFG_TOFF (s : Nat) : Fld := ⟨PWR_SLOT_CFG s, 0, 12⟩
def PWR_SLOT_TIME (s : Nat) : Nat := 0x100804 + 0x20 * s
def PWR_SLOT_TIME_TQ (s : Nat) : Fld := ⟨PWR_SLOT_TIME s, 15, 17⟩
def PWR_SLOT_TIME_TG (s : Nat) : Fld := ⟨PWR_SLOT_TIME s, 0, 10⟩
def PWR_SLOT_CNT0 (s : Nat) : Nat := 0x100808 + 0x20 * s
def PWR_SLOT_CNT0_CHATTER (s : Nat) : Fld := ⟨PWR_SLOT_CNT0 s, 16, 16⟩
def PWR_SLOT_CNT0_RISE_FAIL (s : Nat) : Fld := ⟨PWR_SLOT_CNT0 s, 0, 16⟩
def PWR_SLOT_CNT1 (s : Nat) : Nat := 0x10080C + 0x20 * s
def PWR_SLOT_CNT1_OVERV (s : Nat) : Fld := ⟨PWR_SLOT_CNT1 s, 16, 16⟩
def PWR_SLOT_CNT1_DROOP (s : Nat) : Fld := ⟨PWR_SLOT_CNT1 s, 0, 16⟩
def PWR_SLOT_CNT2 (s : Nat) : Nat := 0x100810 + 0x20 * s
def PWR_SLOT_CNT2_RETRY (s : Nat) : Fld := ⟨PWR_SLOT_CNT2 s, 0, 16⟩
def PWR_SLOT_STAT (s : Nat) : Nat := 0x100814 + 0x20 * s
def PWR_SLOT_STAT_IN_LEDGER (s : Nat) : Fld := ⟨PWR_SLOT_STAT s, 3, 1⟩
def PWR_SLOT_STAT_QUALIFIED (s : Nat) : Fld := ⟨PWR_SLOT_STAT s, 2, 1⟩
def PWR_SLOT_STAT_GOOD (s : Nat) : Fld := ⟨PWR_SLOT_STAT s, 1, 1⟩
def PWR_SLOT_STAT_ACTIVE (s : Nat) : Fld := ⟨PWR_SLOT_STAT s, 0, 1⟩

/-! Registers of spec/15_thermal.md. -/

def THM_TJ : Nat := 0x102000
def THM_TJ_TRIP : Fld := ⟨THM_TJ, 31, 1⟩
def THM_TJ_HOLD : Fld := ⟨THM_TJ, 30, 1⟩
def THM_TJ_DRAIN : Fld := ⟨THM_TJ, 29, 1⟩
def THM_TJ_REEF : Fld := ⟨THM_TJ, 24, 2⟩
def THM_TJ_SRC : Fld := ⟨THM_TJ, 16, 6⟩
def THM_TJ_TJ : Fld := ⟨THM_TJ, 0, 16⟩
def THM_THR : Nat := 0x102004
def THM_THR_HYST : Fld := ⟨THM_THR, 24, 4⟩
def THM_THR_THR3 : Fld := ⟨THM_THR, 16, 8⟩
def THM_THR_THR2 : Fld := ⟨THM_THR, 8, 8⟩
def THM_THR_THR1 : Fld := ⟨THM_THR, 0, 8⟩
def THM_CEIL : Nat := 0x102008
def THM_CEIL_RATE : Fld := ⟨THM_CEIL, 0, 18⟩
def THM_STAT : Nat := 0x10200C
def THM_STAT_TRIPPED : Fld := ⟨THM_STAT, 6, 1⟩
def THM_STAT_REEF3_ENT : Fld := ⟨THM_STAT, 5, 1⟩
def THM_STAT_REEF2_ENT : Fld := ⟨THM_STAT, 4, 1⟩
def THM_STAT_REEF1_ENT : Fld := ⟨THM_STAT, 3, 1⟩
def THM_STAT_BROKEN_NEW : Fld := ⟨THM_STAT, 2, 1⟩
def THM_STAT_CFG_ERR : Fld := ⟨THM_STAT, 1, 1⟩
def THM_BROKEN_LO : Nat := 0x102010
def THM_BROKEN_LO_TS : Fld := ⟨THM_BROKEN_LO, 0, 32⟩
def THM_BROKEN_HI : Nat := 0x102014
def THM_BROKEN_HI_TS : Fld := ⟨THM_BROKEN_HI, 0, 16⟩
def THM_PRESENT_LO : Nat := 0x102018
def THM_PRESENT_LO_TS : Fld := ⟨THM_PRESENT_LO, 0, 32⟩
def THM_PRESENT_HI : Nat := 0x10201C
def THM_PRESENT_HI_TS : Fld := ⟨THM_PRESENT_HI, 0, 16⟩
def THM_TRIP : Nat := 0x102020
def THM_TRIP_LEVEL : Fld := ⟨THM_TRIP, 16, 10⟩
def THM_TRIP_TRIM : Fld := ⟨THM_TRIP, 0, 8⟩
def THM_HS (k : Nat) : Nat := 0x102040 + 0x4 * k
def THM_HS_PEAK (k : Nat) : Fld := ⟨THM_HS k, 16, 16⟩
def THM_HS_TEMP (k : Nat) : Fld := ⟨THM_HS k, 0, 16⟩
def THM_TS (i : Nat) : Nat := 0x102100 + 0x4 * i
def THM_TS_PRESENT (i : Nat) : Fld := ⟨THM_TS i, 17, 1⟩
def THM_TS_BROKEN (i : Nat) : Fld := ⟨THM_TS i, 16, 1⟩
def THM_TS_TEMP (i : Nat) : Fld := ⟨THM_TS i, 0, 16⟩

/-! Registers of spec/16_clocks_islands.md. -/

def CLK_REF : Nat := 0x103000
def CLK_REF_LOSS : Fld := ⟨CLK_REF, 2, 1⟩
def CLK_REF_OK : Fld := ⟨CLK_REF, 1, 1⟩
def CLK_REF_INPUT : Fld := ⟨CLK_REF, 0, 1⟩
def CLK_LOCKA : Nat := 0x103004
def CLK_LOCKA_WINDOW : Fld := ⟨CLK_LOCKA, 16, 8⟩
def CLK_LOCKA_MASK : Fld := ⟨CLK_LOCKA, 0, 12⟩
def CLK_SPUR : Nat := 0x103008
def CLK_SPUR_MIN : Fld := ⟨CLK_SPUR, 0, 16⟩
def CLK_BANDMEAS : Nat := 0x103010
def CLK_BANDMEAS_BUSY : Fld := ⟨CLK_BANDMEAS, 31, 1⟩
def CLK_BANDMEAS_REFUSED : Fld := ⟨CLK_BANDMEAS, 30, 1⟩
def CLK_BANDMEAS_START : Fld := ⟨CLK_BANDMEAS, 16, 1⟩
def CLK_BANDMEAS_BAND : Fld := ⟨CLK_BANDMEAS, 8, 6⟩
def CLK_BANDMEAS_PLL : Fld := ⟨CLK_BANDMEAS, 0, 4⟩
def CLK_BANDRES : Nat := 0x103014
def CLK_BANDRES_FMAX : Fld := ⟨CLK_BANDRES, 16, 16⟩
def CLK_BANDRES_FMIN : Fld := ⟨CLK_BANDRES, 0, 16⟩
def CLK_BAND (b : Nat) : Nat := 0x103100 + 0x4 * b
def CLK_BAND_FMAX (b : Nat) : Fld := ⟨CLK_BAND b, 16, 16⟩
def CLK_BAND_FMIN (b : Nat) : Fld := ⟨CLK_BAND b, 0, 16⟩
def CLK_PLL_STAT (p : Nat) : Nat := 0x103200 + 0x8 * p
def CLK_PLL_STAT_RUN (p : Nat) : Fld := ⟨CLK_PLL_STAT p, 31, 1⟩
def CLK_PLL_STAT_ODIV (p : Nat) : Fld := ⟨CLK_PLL_STAT p, 26, 3⟩
def CLK_PLL_STAT_REFMODE (p : Nat) : Fld := ⟨CLK_PLL_STAT p, 24, 2⟩
def CLK_PLL_STAT_BAND (p : Nat) : Fld := ⟨CLK_PLL_STAT p, 16, 6⟩
def CLK_PLL_STAT_LOSSES (p : Nat) : Fld := ⟨CLK_PLL_STAT p, 8, 8⟩
def CLK_PLL_STAT_SPUR_NEAR (p : Nat) : Fld := ⟨CLK_PLL_STAT p, 4, 1⟩
def CLK_PLL_STAT_NO_BAND (p : Nat) : Fld := ⟨CLK_PLL_STAT p, 3, 1⟩
def CLK_PLL_STAT_LOST (p : Nat) : Fld := ⟨CLK_PLL_STAT p, 2, 1⟩
def CLK_PLL_STAT_LOCK (p : Nat) : Fld := ⟨CLK_PLL_STAT p, 0, 1⟩
def CLK_PLL_FREQ (p : Nat) : Nat := 0x103204 + 0x8 * p
def CLK_PLL_FREQ_KHZ (p : Nat) : Fld := ⟨CLK_PLL_FREQ p, 0, 32⟩
def CLK_CKO (k : Nat) : Nat := 0x103300 + 0x4 * k
def CLK_CKO_RANGE (k : Nat) : Fld := ⟨CLK_CKO k, 31, 1⟩
def CLK_CKO_DIV (k : Nat) : Fld := ⟨CLK_CKO k, 16, 10⟩
def CLK_CKO_SRC (k : Nat) : Fld := ⟨CLK_CKO k, 8, 2⟩
def CLK_CKO_SWING (k : Nat) : Fld := ⟨CLK_CKO k, 4, 2⟩
def CLK_CKO_FMT (k : Nat) : Fld := ⟨CLK_CKO k, 0, 3⟩
def CLK_ISL (i : Nat) : Nat := 0x103400 + 0x4 * i
def CLK_ISL_STOPPED (i : Nat) : Fld := ⟨CLK_ISL i, 31, 1⟩
def CLK_ISL_RESET (i : Nat) : Fld := ⟨CLK_ISL i, 30, 1⟩
def CLK_ISL_SRC (i : Nat) : Fld := ⟨CLK_ISL i, 24, 4⟩
def CLK_ISL_KHZ (i : Nat) : Fld := ⟨CLK_ISL i, 0, 20⟩

/-! Registers of spec/17_network_time.md. -/

def TIME_CTRL : Nat := 0x104000
def TIME_CTRL_REARM : Fld := ⟨TIME_CTRL, 2, 1⟩
def TIME_CTRL_STEP : Fld := ⟨TIME_CTRL, 1, 1⟩
def TIME_STAT : Nat := 0x104004
def TIME_STAT_STEP_RESULT : Fld := ⟨TIME_STAT, 4, 2⟩
def TIME_STAT_CFG_ERR : Fld := ⟨TIME_STAT, 3, 1⟩
def TIME_STAT_STEPPED : Fld := ⟨TIME_STAT, 1, 1⟩
def TIME_STAT_STEP_ARMED : Fld := ⟨TIME_STAT, 0, 1⟩
def TIME_INC_NS : Nat := 0x104008
def TIME_INC_NS_VALUE : Fld := ⟨TIME_INC_NS, 0, 32⟩
def TIME_INC_FRAC : Nat := 0x10400C
def TIME_INC_FRAC_VALUE : Fld := ⟨TIME_INC_FRAC, 0, 32⟩
def TIME_NOW_NS : Nat := 0x104010
def TIME_NOW_NS_VALUE : Fld := ⟨TIME_NOW_NS, 0, 32⟩
def TIME_NOW_FRAC : Nat := 0x104014
def TIME_NOW_FRAC_VALUE : Fld := ⟨TIME_NOW_FRAC, 0, 32⟩
def TIME_NOW_S_LO : Nat := 0x104018
def TIME_NOW_S_LO_VALUE : Fld := ⟨TIME_NOW_S_LO, 0, 32⟩
def TIME_NOW_S_HI : Nat := 0x10401C
def TIME_NOW_S_HI_VALUE : Fld := ⟨TIME_NOW_S_HI, 0, 32⟩
def TIME_OFS_NS : Nat := 0x104020
def TIME_OFS_NS_VALUE : Fld := ⟨TIME_OFS_NS, 0, 32⟩
def TIME_OFS_S_LO : Nat := 0x104024
def TIME_OFS_S_LO_VALUE : Fld := ⟨TIME_OFS_S_LO, 0, 32⟩
def TIME_OFS_S_HI : Nat := 0x104028
def TIME_OFS_S_HI_VALUE : Fld := ⟨TIME_OFS_S_HI, 0, 32⟩
def TIME_DISC : Nat := 0x10402C
def TIME_DISC_COUNT : Fld := ⟨TIME_DISC, 0, 32⟩
def TPO_CTRL (k : Nat) : Nat := 0x104100 + 0x20 * k
def TPO_CTRL_COUNT (k : Nat) : Fld := ⟨TPO_CTRL k, 16, 16⟩
def TPO_CTRL_POL (k : Nat) : Fld := ⟨TPO_CTRL k, 1, 1⟩
def TPO_CTRL_ENABLE (k : Nat) : Fld := ⟨TPO_CTRL k, 0, 1⟩
def TPO_START_NS (k : Nat) : Nat := 0x104104 + 0x20 * k
def TPO_START_NS_VALUE (k : Nat) : Fld := ⟨TPO_START_NS k, 0, 32⟩
def TPO_START_S_LO (k : Nat) : Nat := 0x104108 + 0x20 * k
def TPO_START_S_LO_VALUE (k : Nat) : Fld := ⟨TPO_START_S_LO k, 0, 32⟩
def TPO_START_S_HI (k : Nat) : Nat := 0x10410C + 0x20 * k
def TPO_START_S_HI_VALUE (k : Nat) : Fld := ⟨TPO_START_S_HI k, 0, 32⟩
def TPO_PERIOD (k : Nat) : Nat := 0x104110 + 0x20 * k
def TPO_PERIOD_VALUE (k : Nat) : Fld := ⟨TPO_PERIOD k, 0, 32⟩
def TPO_WIDTH (k : Nat) : Nat := 0x104114 + 0x20 * k
def TPO_WIDTH_VALUE (k : Nat) : Fld := ⟨TPO_WIDTH k, 0, 32⟩
def TPO_STAT (k : Nat) : Nat := 0x104118 + 0x20 * k
def TPO_STAT_MISSED (k : Nat) : Fld := ⟨TPO_STAT k, 16, 16⟩
def TPO_STAT_CFG_ERR (k : Nat) : Fld := ⟨TPO_STAT k, 4, 1⟩
def TPO_STAT_SPOIL (k : Nat) : Fld := ⟨TPO_STAT k, 3, 1⟩
def TPO_STAT_DONE (k : Nat) : Fld := ⟨TPO_STAT k, 2, 1⟩
def TPO_STAT_LATE (k : Nat) : Fld := ⟨TPO_STAT k, 1, 1⟩
def TPO_STAT_HIGH (k : Nat) : Fld := ⟨TPO_STAT k, 0, 1⟩
def ETH_CFG (p : Nat) : Nat := 0x302000 + 0x2000 * p
def ETH_CFG_VECTOR (p : Nat) : Fld := ⟨ETH_CFG p, 16, 8⟩
def ETH_CFG_MODE (p : Nat) : Fld := ⟨ETH_CFG p, 0, 2⟩
def ETH_STAT (p : Nat) : Nat := 0x302004 + 0x2000 * p
def ETH_STAT_FCS_ERR (p : Nat) : Fld := ⟨ETH_STAT p, 24, 8⟩
def ETH_STAT_RX_DROP (p : Nat) : Fld := ⟨ETH_STAT p, 16, 8⟩
def ETH_STAT_OTHER (p : Nat) : Fld := ⟨ETH_STAT p, 8, 8⟩
def ETH_STAT_SPEED (p : Nat) : Fld := ⟨ETH_STAT p, 4, 2⟩
def ETH_STAT_TS_LOST (p : Nat) : Fld := ⟨ETH_STAT p, 3, 1⟩
def ETH_STAT_TX_ERR (p : Nat) : Fld := ⟨ETH_STAT p, 2, 1⟩
def ETH_STAT_TX_BUSY (p : Nat) : Fld := ⟨ETH_STAT p, 1, 1⟩
def ETH_STAT_LINK (p : Nat) : Fld := ⟨ETH_STAT p, 0, 1⟩
def ETH_MAC_LO (p : Nat) : Nat := 0x302008 + 0x2000 * p
def ETH_MAC_LO_VALUE (p : Nat) : Fld := ⟨ETH_MAC_LO p, 0, 32⟩
def ETH_MAC_HI (p : Nat) : Nat := 0x30200C + 0x2000 * p
def ETH_MAC_HI_VALUE (p : Nat) : Fld := ⟨ETH_MAC_HI p, 0, 32⟩
def ETH_IP4 (p : Nat) : Nat := 0x302010 + 0x2000 * p
def ETH_IP4_VALUE (p : Nat) : Fld := ⟨ETH_IP4 p, 0, 32⟩
def ETH_IP6 (p w : Nat) : Nat := 0x302014 + 0x2000 * p + 0x4 * w
def ETH_IP6_VALUE (p w : Nat) : Fld := ⟨ETH_IP6 p w, 0, 32⟩
def ETH_TSLAT (p : Nat) : Nat := 0x302024 + 0x2000 * p
def ETH_TSLAT_TX (p : Nat) : Fld := ⟨ETH_TSLAT p, 16, 16⟩
def ETH_TSLAT_RX (p : Nat) : Fld := ⟨ETH_TSLAT p, 0, 16⟩
def ETH_PTX (p : Nat) : Nat := 0x302028 + 0x2000 * p
def ETH_PTX_SEND (p : Nat) : Fld := ⟨ETH_PTX p, 31, 1⟩
def ETH_PTX_LEN (p : Nat) : Fld := ⟨ETH_PTX p, 0, 11⟩
def ETH_PRX (p : Nat) : Nat := 0x30202C + 0x2000 * p
def ETH_PRX_POP (p : Nat) : Fld := ⟨ETH_PRX p, 31, 1⟩
def ETH_PRX_TS_POP (p : Nat) : Fld := ⟨ETH_PRX p, 30, 1⟩
def ETH_PRX_COUNT (p : Nat) : Fld := ⟨ETH_PRX p, 16, 5⟩
def ETH_PRX_TS_COUNT (p : Nat) : Fld := ⟨ETH_PRX p, 0, 3⟩
def ETH_TXTS_HDR (p : Nat) : Nat := 0x302030 + 0x2000 * p
def ETH_TXTS_HDR_VALUE (p : Nat) : Fld := ⟨ETH_TXTS_HDR p, 0, 32⟩
def ETH_TXTS_NS (p : Nat) : Nat := 0x302034 + 0x2000 * p
def ETH_TXTS_NS_VALUE (p : Nat) : Fld := ⟨ETH_TXTS_NS p, 0, 32⟩
def ETH_TXTS_S_LO (p : Nat) : Nat := 0x302038 + 0x2000 * p
def ETH_TXTS_S_LO_VALUE (p : Nat) : Fld := ⟨ETH_TXTS_S_LO p, 0, 32⟩
def ETH_TXTS_S_HI (p : Nat) : Nat := 0x30203C + 0x2000 * p
def ETH_TXTS_S_HI_VALUE (p : Nat) : Fld := ⟨ETH_TXTS_S_HI p, 0, 32⟩
def ETH_PTXBUF (p k : Nat) : Nat := 0x302800 + 0x2000 * p + 0x4 * k
def ETH_PTXBUF_DATA (p k : Nat) : Fld := ⟨ETH_PTXBUF p k, 0, 32⟩
def ETH_PRXBUF (p k : Nat) : Nat := 0x303000 + 0x2000 * p + 0x4 * k
def ETH_PRXBUF_DATA (p k : Nat) : Fld := ⟨ETH_PRXBUF p k, 0, 32⟩

/-! Registers of spec/18_dram.md. -/

def DRAM_CFG : Nat := 0x200000
def DRAM_CFG_INSTALLED : Fld := ⟨DRAM_CFG, 24, 8⟩
def DRAM_CFG_K : Fld := ⟨DRAM_CFG, 20, 4⟩
def DRAM_CFG_ORDER : Fld := ⟨DRAM_CFG, 18, 2⟩
def DRAM_CFG_CHANNELS : Fld := ⟨DRAM_CFG, 16, 2⟩
def DRAM_CFG_RANKS2 : Fld := ⟨DRAM_CFG, 15, 1⟩
def DRAM_CFG_X16 : Fld := ⟨DRAM_CFG, 14, 1⟩
def DRAM_CFG_DENSITY : Fld := ⟨DRAM_CFG, 8, 6⟩
def DRAM_CFG_RATE : Fld := ⟨DRAM_CFG, 0, 7⟩
def DRAM_TCTRL : Nat := 0x200004
def DRAM_TCTRL_FORGET : Fld := ⟨DRAM_TCTRL, 2, 1⟩
def DRAM_TCTRL_SAVE : Fld := ⟨DRAM_TCTRL, 1, 1⟩
def DRAM_TCTRL_USE_SAVED : Fld := ⟨DRAM_TCTRL, 0, 1⟩
def DRAM_TSTAT : Nat := 0x200008
def DRAM_TSTAT_MS : Fld := ⟨DRAM_TSTAT, 16, 16⟩
def DRAM_TSTAT_PHASE : Fld := ⟨DRAM_TSTAT, 12, 4⟩
def DRAM_TSTAT_FAILED : Fld := ⟨DRAM_TSTAT, 10, 2⟩
def DRAM_TSTAT_SAVE_PEND : Fld := ⟨DRAM_TSTAT, 9, 1⟩
def DRAM_TSTAT_SAVED_VALID : Fld := ⟨DRAM_TSTAT, 8, 1⟩
def DRAM_TSTAT_SOURCE : Fld := ⟨DRAM_TSTAT, 4, 2⟩
def DRAM_TSTAT_STATE : Fld := ⟨DRAM_TSTAT, 0, 3⟩
def DRAM_SR : Nat := 0x20000C
def DRAM_SR_COUNT : Fld := ⟨DRAM_SR, 16, 16⟩
def DRAM_SR_CANCELLED : Fld := ⟨DRAM_SR, 6, 1⟩
def DRAM_SR_REFUSED : Fld := ⟨DRAM_SR, 5, 1⟩
def DRAM_SR_PLL_OFF : Fld := ⟨DRAM_SR, 4, 1⟩
def DRAM_SR_EXIT : Fld := ⟨DRAM_SR, 3, 1⟩
def DRAM_SR_REQ : Fld := ⟨DRAM_SR, 2, 1⟩
def DRAM_SR_STATE : Fld := ⟨DRAM_SR, 0, 2⟩
def DRAM_TOUCH : Nat := 0x200010
def DRAM_TOUCH_MIB : Fld := ⟨DRAM_TOUCH, 0, 18⟩
def DDR_STAT (n : Nat) : Nat := 0x201000 + 0x1000 * n
def DDR_STAT_HOT (n : Nat) : Fld := ⟨DDR_STAT n, 6, 1⟩
def DDR_STAT_DRFM (n : Nat) : Fld := ⟨DDR_STAT n, 5, 1⟩
def DDR_STAT_SAMEBANK (n : Nat) : Fld := ⟨DDR_STAT n, 4, 1⟩
def DDR_STAT_FAST_REF (n : Nat) : Fld := ⟨DDR_STAT n, 3, 1⟩
def DDR_STAT_SCRUBBING (n : Nat) : Fld := ⟨DDR_STAT n, 2, 1⟩
def DDR_STAT_FAILED (n : Nat) : Fld := ⟨DDR_STAT n, 1, 1⟩
def DDR_STAT_TRAINED (n : Nat) : Fld := ⟨DDR_STAT n, 0, 1⟩
def DDR_ECC (n : Nat) : Nat := 0x201004 + 0x1000 * n
def DDR_ECC_CE (n : Nat) : Fld := ⟨DDR_ECC n, 16, 16⟩
def DDR_ECC_UE (n : Nat) : Fld := ⟨DDR_ECC n, 0, 16⟩
def DDR_ERRADDR_LO (n : Nat) : Nat := 0x201008 + 0x1000 * n
def DDR_ERRADDR_LO_ADDR (n : Nat) : Fld := ⟨DDR_ERRADDR_LO n, 0, 32⟩
def DDR_ERRADDR_HI (n : Nat) : Nat := 0x20100C + 0x1000 * n
def DDR_ERRADDR_HI_VALID (n : Nat) : Fld := ⟨DDR_ERRADDR_HI n, 31, 1⟩
def DDR_ERRADDR_HI_SCRUB (n : Nat) : Fld := ⟨DDR_ERRADDR_HI n, 30, 1⟩
def DDR_ERRADDR_HI_ADDR (n : Nat) : Fld := ⟨DDR_ERRADDR_HI n, 0, 5⟩
def DDR_SCRUB (n : Nat) : Nat := 0x201010 + 0x1000 * n
def DDR_SCRUB_PASSES (n : Nat) : Fld := ⟨DDR_SCRUB n, 16, 16⟩
def DDR_SCRUB_HOURS (n : Nat) : Fld := ⟨DDR_SCRUB n, 0, 8⟩
def DDR_RH (n : Nat) : Nat := 0x201014 + 0x1000 * n
def DDR_RH_SERVED (n : Nat) : Fld := ⟨DDR_RH n, 16, 16⟩
def DDR_RH_DROPPED (n : Nat) : Fld := ⟨DDR_RH n, 0, 8⟩

/-! Registers of spec/19_dma.md. -/

def DMT_CTRL (k : Nat) : Nat := 0x204000 + 0x8 * k
def DMT_CTRL_ENABLE (k : Nat) : Fld := ⟨DMT_CTRL k, 0, 1⟩
def DMT_PERIOD (k : Nat) : Nat := 0x204004 + 0x8 * k
def DMT_PERIOD_PERIOD (k : Nat) : Fld := ⟨DMT_PERIOD k, 0, 32⟩
def DMA_CTRL (n : Nat) : Nat := 0x208000 + 0x40 * n
def DMA_CTRL_ENABLE (n : Nat) : Fld := ⟨DMA_CTRL n, 31, 1⟩
def DMA_CTRL_ABORT (n : Nat) : Fld := ⟨DMA_CTRL n, 30, 1⟩
def DMA_CTRL_VECTOR (n : Nat) : Fld := ⟨DMA_CTRL n, 16, 8⟩
def DMA_CTRL_TRIG_IDX (n : Nat) : Fld := ⟨DMA_CTRL n, 8, 6⟩
def DMA_CTRL_TRIG_SRC (n : Nat) : Fld := ⟨DMA_CTRL n, 4, 3⟩
def DMA_DESC_LO (n : Nat) : Nat := 0x208004 + 0x40 * n
def DMA_DESC_LO_ADDR (n : Nat) : Fld := ⟨DMA_DESC_LO n, 5, 27⟩
def DMA_DESC_LO_SPACE (n : Nat) : Fld := ⟨DMA_DESC_LO n, 0, 1⟩
def DMA_DESC_HI (n : Nat) : Nat := 0x208008 + 0x40 * n
def DMA_DESC_HI_ADDR (n : Nat) : Fld := ⟨DMA_DESC_HI n, 0, 32⟩
def DMA_COUNT (n : Nat) : Nat := 0x20800C + 0x40 * n
def DMA_COUNT_RELOAD (n : Nat) : Fld := ⟨DMA_COUNT n, 16, 16⟩
def DMA_COUNT_COUNT (n : Nat) : Fld := ⟨DMA_COUNT n, 0, 16⟩
def DMA_STAT (n : Nat) : Nat := 0x208010 + 0x40 * n
def DMA_STAT_ERR (n : Nat) : Fld := ⟨DMA_STAT n, 28, 4⟩
def DMA_STAT_PEND (n : Nat) : Fld := ⟨DMA_STAT n, 24, 4⟩
def DMA_STAT_TRIG_LOST (n : Nat) : Fld := ⟨DMA_STAT n, 6, 1⟩
def DMA_STAT_ABORTED (n : Nat) : Fld := ⟨DMA_STAT n, 5, 1⟩
def DMA_STAT_CFG_ERR (n : Nat) : Fld := ⟨DMA_STAT n, 4, 1⟩
def DMA_STAT_STATE (n : Nat) : Fld := ⟨DMA_STAT n, 0, 3⟩
def DMA_CUR_LO (n : Nat) : Nat := 0x208014 + 0x40 * n
def DMA_CUR_LO_ADDR (n : Nat) : Fld := ⟨DMA_CUR_LO n, 0, 32⟩
def DMA_CUR_HI (n : Nat) : Nat := 0x208018 + 0x40 * n
def DMA_CUR_HI_ADDR (n : Nat) : Fld := ⟨DMA_CUR_HI n, 0, 32⟩
def DMA_BYTES (n : Nat) : Nat := 0x20801C + 0x40 * n
def DMA_BYTES_BYTES (n : Nat) : Fld := ⟨DMA_BYTES n, 0, 32⟩
def DMA_DESCS (n : Nat) : Nat := 0x208020 + 0x40 * n
def DMA_DESCS_COUNT (n : Nat) : Fld := ⟨DMA_DESCS n, 0, 32⟩

/-! Registers of spec/20_monitors_errors.md. -/

def MON_CTRL : Nat := 0x105000
def MON_CTRL_VECTOR : Fld := ⟨MON_CTRL, 0, 8⟩
def MON_ALARM : Nat := 0x105004
def MON_ALARM_ALARM : Fld := ⟨MON_ALARM, 0, 32⟩
def MON_CFG (m : Nat) : Nat := 0x105100 + 0x40 * m
def MON_CFG_ENABLE (m : Nat) : Fld := ⟨MON_CFG m, 31, 1⟩
def MON_CFG_SNAP (m : Nat) : Fld := ⟨MON_CFG m, 30, 1⟩
def MON_CFG_CLEAR (m : Nat) : Fld := ⟨MON_CFG m, 29, 1⟩
def MON_CFG_CLR_ON_SNAP (m : Nat) : Fld := ⟨MON_CFG m, 28, 1⟩
def MON_CFG_SUB (m : Nat) : Fld := ⟨MON_CFG m, 24, 4⟩
def MON_CFG_KIND (m : Nat) : Fld := ⟨MON_CFG m, 16, 4⟩
def MON_CFG_SEL (m : Nat) : Fld := ⟨MON_CFG m, 0, 12⟩
def MON_BASE (m : Nat) : Nat := 0x105104 + 0x40 * m
def MON_BASE_BASE (m : Nat) : Fld := ⟨MON_BASE m, 0, 32⟩
def MON_SCALE (m : Nat) : Nat := 0x105108 + 0x40 * m
def MON_SCALE_PERIOD (m : Nat) : Fld := ⟨MON_SCALE m, 16, 16⟩
def MON_SCALE_WIDTH (m : Nat) : Fld := ⟨MON_SCALE m, 0, 16⟩
def MON_ALO (m : Nat) : Nat := 0x10510C + 0x40 * m
def MON_ALO_LIMIT (m : Nat) : Fld := ⟨MON_ALO m, 0, 32⟩
def MON_AHI (m : Nat) : Nat := 0x105110 + 0x40 * m
def MON_AHI_LIMIT (m : Nat) : Fld := ⟨MON_AHI m, 0, 32⟩
def MON_MIN (m : Nat) : Nat := 0x105114 + 0x40 * m
def MON_MIN_VALUE (m : Nat) : Fld := ⟨MON_MIN m, 0, 32⟩
def MON_MAX (m : Nat) : Nat := 0x105118 + 0x40 * m
def MON_MAX_VALUE (m : Nat) : Fld := ⟨MON_MAX m, 0, 32⟩
def MON_COUNT (m : Nat) : Nat := 0x10511C + 0x40 * m
def MON_COUNT_VALUE (m : Nat) : Fld := ⟨MON_COUNT m, 0, 32⟩
def MON_STAT (m : Nat) : Nat := 0x105120 + 0x40 * m
def MON_STAT_SAT (m : Nat) : Fld := ⟨MON_STAT m, 3, 1⟩
def MON_STAT_CFG_ERR (m : Nat) : Fld := ⟨MON_STAT m, 2, 1⟩
def MON_STAT_ALARM (m : Nat) : Fld := ⟨MON_STAT m, 1, 1⟩
def MON_STAT_RUNNING (m : Nat) : Fld := ⟨MON_STAT m, 0, 1⟩
def MON_BIN (m k : Nat) : Nat := 0x106000 + 0x100 * m + 0x4 * k
def MON_BIN_COUNT (m k : Nat) : Fld := ⟨MON_BIN m k, 0, 32⟩
def ERR_HEAD : Nat := 0x108000
def ERR_HEAD_WRAPPED : Fld := ⟨ERR_HEAD, 8, 1⟩
def ERR_HEAD_NEXT : Fld := ⟨ERR_HEAD, 0, 8⟩
def ERR_SEQ : Nat := 0x108004
def ERR_SEQ_SEQ : Fld := ⟨ERR_SEQ, 0, 32⟩
def ERR_SUPPR : Nat := 0x108008
def ERR_SUPPR_COUNT : Fld := ⟨ERR_SUPPR, 0, 16⟩
def ERR_CNT (r : Nat) : Nat := 0x108020 + 0x4 * r
def ERR_CNT_CHIP_FATAL (r : Nat) : Fld := ⟨ERR_CNT r, 24, 8⟩
def ERR_CNT_REGION_FATAL (r : Nat) : Fld := ⟨ERR_CNT r, 16, 8⟩
def ERR_CNT_CONTAINED (r : Nat) : Fld := ⟨ERR_CNT r, 8, 8⟩
def ERR_CNT_CORRECTED (r : Nat) : Fld := ⟨ERR_CNT r, 0, 8⟩
def ERR_PEND (r : Nat) : Nat := 0x108040 + 0x4 * r
def ERR_PEND_SEV (r : Nat) : Fld := ⟨ERR_PEND r, 0, 4⟩
def ERR_MASK (r : Nat) : Nat := 0x108060 + 0x4 * r
def ERR_MASK_SEV (r : Nat) : Fld := ⟨ERR_MASK r, 0, 4⟩
def ERR_REC (i w : Nat) : Nat := 0x109000 + 0x20 * i + 0x4 * w
def ERR_REC_WORD (i w : Nat) : Fld := ⟨ERR_REC i w, 0, 32⟩

/-! Registers of spec/21_register_index.md. -/

def CHIP_ID : Nat := 0x0
def CHIP_ID_PART : Fld := ⟨CHIP_ID, 16, 16⟩
def CHIP_ID_REV : Fld := ⟨CHIP_ID, 8, 8⟩
def CHIP_CAPS : Nat := 0x4
def CHIP_CAPS_SPAR_8K : Fld := ⟨CHIP_CAPS, 29, 1⟩
def CHIP_CAPS_AXES : Fld := ⟨CHIP_CAPS, 23, 6⟩
def CHIP_CAPS_FOC : Fld := ⟨CHIP_CAPS, 18, 5⟩
def CHIP_CAPS_ETH : Fld := ⟨CHIP_CAPS, 16, 2⟩
def CHIP_CAPS_DDR : Fld := ⟨CHIP_CAPS, 14, 2⟩
def CHIP_CAPS_VIS : Fld := ⟨CHIP_CAPS, 13, 1⟩
def CHIP_CAPS_CMP : Fld := ⟨CHIP_CAPS, 12, 1⟩
def CHIP_CAPS_CSI : Fld := ⟨CHIP_CAPS, 8, 4⟩
def CHIP_CAPS_STN : Fld := ⟨CHIP_CAPS, 0, 8⟩
def CHIP_RIGSTAT : Nat := 0x8
def CHIP_RIGSTAT_MINIMAL : Fld := ⟨CHIP_RIGSTAT, 16, 1⟩
def CHIP_RIGSTAT_SLOT : Fld := ⟨CHIP_RIGSTAT, 12, 1⟩
def CHIP_RIGSTAT_CAUSE : Fld := ⟨CHIP_RIGSTAT, 8, 4⟩
def CHIP_RIGSTAT_STATE : Fld := ⟨CHIP_RIGSTAT, 0, 3⟩
def CHIP_FENCE : Nat := 0xC
def CHIP_FENCE_COUNT : Fld := ⟨CHIP_FENCE, 0, 32⟩
def CHIP_ERR : Nat := 0x10
def CHIP_ERR_RESET_REFUSED : Fld := ⟨CHIP_ERR, 3, 1⟩
def CHIP_ERR_UNMAPPED : Fld := ⟨CHIP_ERR, 2, 1⟩
def CHIP_ERR_PARTIAL_WRITE : Fld := ⟨CHIP_ERR, 1, 1⟩
def CHIP_ERR_ABSENT_ACCESS : Fld := ⟨CHIP_ERR, 0, 1⟩
def CHIP_ERRADDR : Nat := 0x14
def CHIP_ERRADDR_VALID : Fld := ⟨CHIP_ERRADDR, 31, 1⟩
def CHIP_ERRADDR_OFFSET : Fld := ⟨CHIP_ERRADDR, 0, 26⟩
def CHIP_RESET : Nat := 0x20
def CHIP_RESET_KEY : Fld := ⟨CHIP_RESET, 16, 16⟩
def CHIP_RESET_GO : Fld := ⟨CHIP_RESET, 0, 1⟩
def CHIP_RSTCAUSE : Nat := 0x24
def CHIP_RSTCAUSE_COUNT : Fld := ⟨CHIP_RSTCAUSE, 16, 16⟩
def CHIP_RSTCAUSE_CAUSE : Fld := ⟨CHIP_RSTCAUSE, 0, 2⟩
def CHIP_IRQ_STAT : Nat := 0x30
def CHIP_IRQ_STAT_REGION : Fld := ⟨CHIP_IRQ_STAT, 0, 7⟩
def CHIP_IRQ_MASK : Nat := 0x34
def CHIP_IRQ_MASK_REGION : Fld := ⟨CHIP_IRQ_MASK, 0, 7⟩
def CHIP_IRQ_CFG : Nat := 0x38
def CHIP_IRQ_CFG_VECTOR : Fld := ⟨CHIP_IRQ_CFG, 0, 8⟩

/-- MSI-X table of R55: 256 vectors of 16 bytes (address low and high, data, control). -/
def MSIX_TABLE (v k : Nat) : Nat := 0x308000 + 0x10 * v + 4 * k
/-- MSI-X pending-bit array of R55. -/
def MSIX_PBA (k : Nat) : Nat := 0x309000 + 4 * k

end Reg
end Sys2Proof.Machine
end

