-- ==== Sys2Proof/Machine/RegTable.lean ====
section
/-!
DEFINITION. The register table: for every register of the map its offset, its instances, its reset value and the
access type of each of its bits (spec/00_scope.md R8, the register tables of every chapter).
A register whose heading gives its reset value "per part", "per rigging", "per NVM" or by a formula has it in
`Sys2Proof/Machine/Ops.lean`, `resetWord`; the table then gives 0.
-/

namespace Sys2Proof.Machine
namespace RegTable

/-- Access type of a field (R8); `sign` is a read-only run of bits that reads as the sign extension of the field
below it (R11). -/
inductive Access where
  | ro | rw | wo | w1c | w1s | rc | rwl | rsv | sign
  deriving DecidableEq, Repr

/-- One run of bits of a register: lowest bit, width and access type. -/
structure Bits where
  lo : Nat
  w : Nat
  acc : Access
  deriving DecidableEq, Repr

/-- One register: its name, the offset of its first instance, (stride, count) of each instance letter with the
widest stride first, its reset value and its fields. -/
structure Desc where
  name : String
  base : Nat
  dims : List (Nat × Nat)
  reset : Nat
  bits : List Bits
  deriving DecidableEq, Repr

/-- Registers from 0x0 up to 0x100014. -/
def group0 : List Desc := [
  ⟨"CHIP_ID", 0x0, [], 0x0,
    [⟨0, 8, .rsv⟩, ⟨8, 8, .ro⟩, ⟨16, 16, .ro⟩]⟩,
  ⟨"CHIP_CAPS", 0x4, [], 0x3863FFFF,
    [⟨0, 8, .ro⟩, ⟨8, 4, .ro⟩, ⟨12, 1, .ro⟩, ⟨13, 1, .ro⟩, ⟨14, 2, .ro⟩, ⟨16, 2, .ro⟩, ⟨18, 5, .ro⟩, ⟨23, 6, .ro⟩, ⟨29, 1, .ro⟩, ⟨30, 2, .rsv⟩]⟩,
  ⟨"CHIP_RIGSTAT", 0x8, [], 0x0,
    [⟨0, 3, .ro⟩, ⟨3, 5, .rsv⟩, ⟨8, 4, .ro⟩, ⟨12, 1, .ro⟩, ⟨13, 3, .rsv⟩, ⟨16, 1, .ro⟩, ⟨17, 15, .rsv⟩]⟩,
  ⟨"CHIP_FENCE", 0xC, [], 0x0,
    [⟨0, 32, .ro⟩]⟩,
  ⟨"CHIP_ERR", 0x10, [], 0x0,
    [⟨0, 1, .w1c⟩, ⟨1, 1, .w1c⟩, ⟨2, 1, .w1c⟩, ⟨3, 1, .w1c⟩, ⟨4, 28, .rsv⟩]⟩,
  ⟨"CHIP_ERRADDR", 0x14, [], 0x0,
    [⟨0, 26, .ro⟩, ⟨26, 5, .rsv⟩, ⟨31, 1, .ro⟩]⟩,
  ⟨"CHIP_RESET", 0x20, [], 0x0,
    [⟨0, 1, .wo⟩, ⟨1, 15, .rsv⟩, ⟨16, 16, .wo⟩]⟩,
  ⟨"CHIP_RSTCAUSE", 0x24, [], 0x0,
    [⟨0, 2, .ro⟩, ⟨2, 14, .rsv⟩, ⟨16, 16, .ro⟩]⟩,
  ⟨"CHIP_IRQ_STAT", 0x30, [], 0x0,
    [⟨0, 7, .ro⟩, ⟨7, 25, .rsv⟩]⟩,
  ⟨"CHIP_IRQ_MASK", 0x34, [], 0x7F,
    [⟨0, 7, .rw⟩, ⟨7, 25, .rsv⟩]⟩,
  ⟨"CHIP_IRQ_CFG", 0x38, [], 0x0,
    [⟨0, 8, .rw⟩, ⟨8, 24, .rsv⟩]⟩,
  ⟨"PWR_CTRL", 0x100000, [], 0x0,
    [⟨0, 1, .wo⟩, ⟨1, 1, .wo⟩, ⟨2, 1, .wo⟩, ⟨3, 1, .wo⟩, ⟨4, 4, .rsv⟩, ⟨8, 5, .wo⟩, ⟨13, 19, .rsv⟩]⟩,
  ⟨"PWR_STAT", 0x100004, [], 0x0,
    [⟨0, 3, .ro⟩, ⟨3, 1, .ro⟩, ⟨4, 1, .ro⟩, ⟨5, 2, .rsv⟩, ⟨7, 8, .ro⟩, ⟨15, 3, .ro⟩, ⟨18, 4, .ro⟩, ⟨22, 5, .ro⟩, ⟨27, 1, .ro⟩, ⟨28, 1, .ro⟩, ⟨29, 1, .ro⟩, ⟨30, 1, .ro⟩, ⟨31, 1, .w1c⟩]⟩,
  ⟨"PWR_CFG", 0x100008, [], 0x0,
    [⟨0, 16, .rwl⟩, ⟨16, 16, .rsv⟩]⟩,
  ⟨"PWR_MARK", 0x10000C, [], 0x0,
    [⟨0, 8, .ro⟩, ⟨8, 24, .ro⟩]⟩,
  ⟨"PWR_GOOD", 0x100010, [], 0x0,
    [⟨0, 32, .ro⟩]⟩]

/-- Registers from 0x100014 up to 0x10200C. -/
def group1 : List Desc := [
  ⟨"PWR_EN", 0x100014, [], 0x0,
    [⟨0, 32, .ro⟩]⟩,
  ⟨"PWR_VIN", 0x100018, [], 0x0,
    [⟨0, 16, .ro⟩, ⟨16, 16, .ro⟩]⟩,
  ⟨"PWR_SAG", 0x10001C, [], 0x5,
    [⟨0, 6, .rw⟩, ⟨6, 10, .rsv⟩, ⟨16, 16, .rc⟩]⟩,
  ⟨"PWR_STAY", 0x100020, [], 0x0,
    [⟨0, 32, .ro⟩]⟩,
  ⟨"PWR_STAYSTAT", 0x100024, [], 0x0,
    [⟨0, 1, .ro⟩, ⟨1, 1, .ro⟩, ⟨2, 1, .ro⟩, ⟨3, 1, .ro⟩, ⟨4, 1, .w1c⟩, ⟨5, 27, .rsv⟩]⟩,
  ⟨"PWR_LEDGERi", 0x100040, [(0x4, 8)], 0xFFFFFFFF,
    [⟨0, 8, .ro⟩, ⟨8, 8, .ro⟩, ⟨16, 8, .ro⟩, ⟨24, 8, .ro⟩]⟩,
  ⟨"PWR_PROGw", 0x100400, [(0x4, 256)], 0x0,
    [⟨0, 32, .ro⟩]⟩,
  ⟨"PWR_SLOTs_CFG", 0x100800, [(0x20, 32)], 0x0,
    [⟨0, 12, .rwl⟩, ⟨12, 12, .rwl⟩, ⟨24, 4, .rwl⟩, ⟨28, 1, .rsv⟩, ⟨29, 1, .rwl⟩, ⟨30, 1, .rwl⟩, ⟨31, 1, .rwl⟩]⟩,
  ⟨"PWR_SLOTs_TIME", 0x100804, [(0x20, 32)], 0x0,
    [⟨0, 10, .rwl⟩, ⟨10, 5, .rsv⟩, ⟨15, 17, .rwl⟩]⟩,
  ⟨"PWR_SLOTs_CNT0", 0x100808, [(0x20, 32)], 0x0,
    [⟨0, 16, .ro⟩, ⟨16, 16, .ro⟩]⟩,
  ⟨"PWR_SLOTs_CNT1", 0x10080C, [(0x20, 32)], 0x0,
    [⟨0, 16, .ro⟩, ⟨16, 16, .ro⟩]⟩,
  ⟨"PWR_SLOTs_CNT2", 0x100810, [(0x20, 32)], 0x0,
    [⟨0, 16, .ro⟩, ⟨16, 16, .rsv⟩]⟩,
  ⟨"PWR_SLOTs_STAT", 0x100814, [(0x20, 32)], 0x0,
    [⟨0, 1, .ro⟩, ⟨1, 1, .ro⟩, ⟨2, 1, .ro⟩, ⟨3, 1, .ro⟩, ⟨4, 28, .rsv⟩]⟩,
  ⟨"THM_TJ", 0x102000, [], 0x0,
    [⟨0, 16, .ro⟩, ⟨16, 6, .ro⟩, ⟨22, 2, .rsv⟩, ⟨24, 2, .ro⟩, ⟨26, 3, .rsv⟩, ⟨29, 1, .ro⟩, ⟨30, 1, .ro⟩, ⟨31, 1, .ro⟩]⟩,
  ⟨"THM_THR", 0x102004, [], 0x369645F,
    [⟨0, 8, .rw⟩, ⟨8, 8, .rw⟩, ⟨16, 8, .rw⟩, ⟨24, 4, .rw⟩, ⟨28, 4, .rsv⟩]⟩,
  ⟨"THM_CEIL", 0x102008, [], 0x1F400,
    [⟨0, 18, .rw⟩, ⟨18, 14, .rsv⟩]⟩]

/-- Registers from 0x10200C up to 0x103260. -/
def group2 : List Desc := [
  ⟨"THM_STAT", 0x10200C, [], 0x0,
    [⟨0, 1, .rsv⟩, ⟨1, 1, .w1c⟩, ⟨2, 1, .w1c⟩, ⟨3, 1, .w1c⟩, ⟨4, 1, .w1c⟩, ⟨5, 1, .w1c⟩, ⟨6, 1, .w1c⟩, ⟨7, 25, .rsv⟩]⟩,
  ⟨"THM_BROKEN_LO", 0x102010, [], 0x0,
    [⟨0, 32, .ro⟩]⟩,
  ⟨"THM_BROKEN_HI", 0x102014, [], 0x0,
    [⟨0, 16, .ro⟩, ⟨16, 16, .rsv⟩]⟩,
  ⟨"THM_PRESENT_LO", 0x102018, [], 0x0,
    [⟨0, 32, .ro⟩]⟩,
  ⟨"THM_PRESENT_HI", 0x10201C, [], 0x0,
    [⟨0, 16, .ro⟩, ⟨16, 16, .rsv⟩]⟩,
  ⟨"THM_TRIP", 0x102020, [], 0x0,
    [⟨0, 8, .ro⟩, ⟨8, 8, .rsv⟩, ⟨16, 10, .ro⟩, ⟨26, 6, .rsv⟩]⟩,
  ⟨"THM_HSk", 0x102040, [(0x4, 7)], 0x0,
    [⟨0, 16, .ro⟩, ⟨16, 16, .rc⟩]⟩,
  ⟨"THM_TSi", 0x102100, [(0x4, 48)], 0x0,
    [⟨0, 16, .ro⟩, ⟨16, 1, .ro⟩, ⟨17, 1, .ro⟩, ⟨18, 14, .rsv⟩]⟩,
  ⟨"CLK_REF", 0x103000, [], 0x0,
    [⟨0, 1, .ro⟩, ⟨1, 1, .ro⟩, ⟨2, 1, .w1c⟩, ⟨3, 29, .rsv⟩]⟩,
  ⟨"CLK_LOCKA", 0x103004, [], 0x320003,
    [⟨0, 12, .rw⟩, ⟨12, 4, .rsv⟩, ⟨16, 8, .rw⟩, ⟨24, 8, .rsv⟩]⟩,
  ⟨"CLK_SPUR", 0x103008, [], 0x7D0,
    [⟨0, 16, .rw⟩, ⟨16, 16, .rsv⟩]⟩,
  ⟨"CLK_BANDMEAS", 0x103010, [], 0x0,
    [⟨0, 4, .rw⟩, ⟨4, 4, .rsv⟩, ⟨8, 6, .rw⟩, ⟨14, 2, .rsv⟩, ⟨16, 1, .wo⟩, ⟨17, 13, .rsv⟩, ⟨30, 1, .w1c⟩, ⟨31, 1, .ro⟩]⟩,
  ⟨"CLK_BANDRES", 0x103014, [], 0x0,
    [⟨0, 16, .ro⟩, ⟨16, 16, .ro⟩]⟩,
  ⟨"CLK_BANDb", 0x103100, [(0x4, 64)], 0x0,
    [⟨0, 16, .rw⟩, ⟨16, 16, .rw⟩]⟩,
  ⟨"CLK_PLLp_STAT", 0x103200, [(0x8, 12)], 0x0,
    [⟨0, 1, .ro⟩, ⟨1, 1, .rsv⟩, ⟨2, 1, .w1c⟩, ⟨3, 1, .w1c⟩, ⟨4, 1, .w1c⟩, ⟨5, 3, .rsv⟩, ⟨8, 8, .rc⟩, ⟨16, 6, .ro⟩, ⟨22, 2, .rsv⟩, ⟨24, 2, .ro⟩, ⟨26, 3, .ro⟩, ⟨29, 2, .rsv⟩, ⟨31, 1, .ro⟩]⟩,
  ⟨"CLK_PLLp_FREQ", 0x103204, [(0x8, 12)], 0x0,
    [⟨0, 32, .ro⟩]⟩]

/-- Registers from 0x103300 up to 0x104030. -/
def group3 : List Desc := [
  ⟨"CLK_CKOk", 0x103300, [(0x4, 12)], 0x0,
    [⟨0, 3, .rw⟩, ⟨3, 1, .rsv⟩, ⟨4, 2, .rw⟩, ⟨6, 2, .rsv⟩, ⟨8, 2, .rw⟩, ⟨10, 6, .rsv⟩, ⟨16, 10, .rw⟩, ⟨26, 5, .rsv⟩, ⟨31, 1, .w1c⟩]⟩,
  ⟨"CLK_ISLi", 0x103400, [(0x4, 48)], 0x0,
    [⟨0, 20, .ro⟩, ⟨20, 4, .rsv⟩, ⟨24, 4, .ro⟩, ⟨28, 2, .rsv⟩, ⟨30, 1, .ro⟩, ⟨31, 1, .ro⟩]⟩,
  ⟨"TIME_CTRL", 0x104000, [], 0x0,
    [⟨0, 1, .rsv⟩, ⟨1, 1, .wo⟩, ⟨2, 1, .wo⟩, ⟨3, 29, .rsv⟩]⟩,
  ⟨"TIME_STAT", 0x104004, [], 0x1,
    [⟨0, 1, .ro⟩, ⟨1, 1, .ro⟩, ⟨2, 1, .rsv⟩, ⟨3, 1, .w1c⟩, ⟨4, 2, .ro⟩, ⟨6, 26, .rsv⟩]⟩,
  ⟨"TIME_INC_NS", 0x104008, [], 0x4,
    [⟨0, 32, .rw⟩]⟩,
  ⟨"TIME_INC_FRAC", 0x10400C, [], 0x0,
    [⟨0, 32, .rw⟩]⟩,
  ⟨"TIME_NOW_NS", 0x104010, [], 0x0,
    [⟨0, 32, .ro⟩]⟩,
  ⟨"TIME_NOW_FRAC", 0x104014, [], 0x0,
    [⟨0, 32, .ro⟩]⟩,
  ⟨"TIME_NOW_S_LO", 0x104018, [], 0x0,
    [⟨0, 32, .ro⟩]⟩,
  ⟨"TIME_NOW_S_HI", 0x10401C, [], 0x0,
    [⟨0, 32, .ro⟩]⟩,
  ⟨"TIME_OFS_NS", 0x104020, [], 0x0,
    [⟨0, 32, .rw⟩]⟩,
  ⟨"TIME_OFS_S_LO", 0x104024, [], 0x0,
    [⟨0, 32, .rw⟩]⟩,
  ⟨"TIME_OFS_S_HI", 0x104028, [], 0x0,
    [⟨0, 32, .rw⟩]⟩,
  ⟨"TIME_DISC", 0x10402C, [], 0x0,
    [⟨0, 32, .ro⟩]⟩]

/-- Registers from 0x104100 up to 0x105008. -/
def group4 : List Desc := [
  ⟨"TPOk_CTRL", 0x104100, [(0x20, 8)], 0x0,
    [⟨0, 1, .rw⟩, ⟨1, 1, .rw⟩, ⟨2, 14, .rsv⟩, ⟨16, 16, .rw⟩]⟩,
  ⟨"TPOk_START_NS", 0x104104, [(0x20, 8)], 0x0,
    [⟨0, 32, .rw⟩]⟩,
  ⟨"TPOk_START_S_LO", 0x104108, [(0x20, 8)], 0x0,
    [⟨0, 32, .rw⟩]⟩,
  ⟨"TPOk_START_S_HI", 0x10410C, [(0x20, 8)], 0x0,
    [⟨0, 32, .rw⟩]⟩,
  ⟨"TPOk_PERIOD", 0x104110, [(0x20, 8)], 0x0,
    [⟨0, 32, .rw⟩]⟩,
  ⟨"TPOk_WIDTH", 0x104114, [(0x20, 8)], 0x0,
    [⟨0, 32, .rw⟩]⟩,
  ⟨"TPOk_STAT", 0x104118, [(0x20, 8)], 0x0,
    [⟨0, 1, .ro⟩, ⟨1, 1, .w1c⟩, ⟨2, 1, .w1c⟩, ⟨3, 1, .ro⟩, ⟨4, 1, .w1c⟩, ⟨5, 11, .rsv⟩, ⟨16, 16, .rc⟩]⟩,
  ⟨"MON_CTRL", 0x105000, [], 0x11,
    [⟨0, 8, .rw⟩, ⟨8, 24, .rsv⟩]⟩,
  ⟨"MON_ALARM", 0x105004, [], 0x0,
    [⟨0, 32, .w1c⟩]⟩]

/-- Registers from 0x105100 up to 0x10807C. -/
def group5 : List Desc := [
  ⟨"MONm_CFG", 0x105100, [(0x40, 32)], 0x0,
    [⟨0, 12, .rw⟩, ⟨12, 4, .rsv⟩, ⟨16, 4, .rw⟩, ⟨20, 4, .rsv⟩, ⟨24, 4, .rw⟩, ⟨28, 1, .rw⟩, ⟨29, 1, .wo⟩, ⟨30, 1, .wo⟩, ⟨31, 1, .rw⟩]⟩,
  ⟨"MONm_BASE", 0x105104, [(0x40, 32)], 0x0,
    [⟨0, 32, .rw⟩]⟩,
  ⟨"MONm_SCALE", 0x105108, [(0x40, 32)], 0x10001,
    [⟨0, 16, .rw⟩, ⟨16, 16, .rw⟩]⟩,
  ⟨"MONm_ALO", 0x10510C, [(0x40, 32)], 0x80000000,
    [⟨0, 32, .rw⟩]⟩,
  ⟨"MONm_AHI", 0x105110, [(0x40, 32)], 0x7FFFFFFF,
    [⟨0, 32, .rw⟩]⟩,
  ⟨"MONm_MIN", 0x105114, [(0x40, 32)], 0x7FFFFFFF,
    [⟨0, 32, .ro⟩]⟩,
  ⟨"MONm_MAX", 0x105118, [(0x40, 32)], 0x80000000,
    [⟨0, 32, .ro⟩]⟩,
  ⟨"MONm_COUNT", 0x10511C, [(0x40, 32)], 0x0,
    [⟨0, 32, .ro⟩]⟩,
  ⟨"MONm_STAT", 0x105120, [(0x40, 32)], 0x0,
    [⟨0, 1, .ro⟩, ⟨1, 1, .w1c⟩, ⟨2, 1, .w1c⟩, ⟨3, 1, .w1c⟩, ⟨4, 28, .rsv⟩]⟩,
  ⟨"MONm_BINk", 0x106000, [(0x100, 32), (0x4, 64)], 0x0,
    [⟨0, 32, .ro⟩]⟩,
  ⟨"ERR_HEAD", 0x108000, [], 0x0,
    [⟨0, 8, .ro⟩, ⟨8, 1, .ro⟩, ⟨9, 23, .rsv⟩]⟩,
  ⟨"ERR_SEQ", 0x108004, [], 0x0,
    [⟨0, 32, .ro⟩]⟩,
  ⟨"ERR_SUPPR", 0x108008, [], 0x0,
    [⟨0, 16, .rc⟩, ⟨16, 16, .rsv⟩]⟩,
  ⟨"ERR_CNTr", 0x108020, [(0x4, 7)], 0x0,
    [⟨0, 8, .rc⟩, ⟨8, 8, .rc⟩, ⟨16, 8, .rc⟩, ⟨24, 8, .rc⟩]⟩,
  ⟨"ERR_PENDr", 0x108040, [(0x4, 7)], 0x0,
    [⟨0, 4, .w1c⟩, ⟨4, 28, .rsv⟩]⟩,
  ⟨"ERR_MASKr", 0x108060, [(0x4, 7)], 0xE,
    [⟨0, 4, .rw⟩, ⟨4, 28, .rsv⟩]⟩]

/-- Registers from 0x109000 up to 0x200010. -/
def group6 : List Desc := [
  ⟨"ERR_RECi_w", 0x109000, [(0x20, 256), (0x4, 8)], 0x0,
    [⟨0, 32, .ro⟩]⟩,
  ⟨"RIG_LOADCTRL", 0x110000, [], 0x0,
    [⟨0, 1, .wo⟩, ⟨1, 1, .wo⟩, ⟨2, 1, .wo⟩, ⟨3, 1, .rsv⟩, ⟨4, 1, .rw⟩, ⟨5, 27, .rsv⟩]⟩,
  ⟨"RIG_LOADBASE", 0x110004, [], 0x0,
    [⟨0, 8, .rw⟩, ⟨8, 24, .rsv⟩]⟩,
  ⟨"RIG_LOADLEN", 0x110008, [], 0x0,
    [⟨0, 24, .rw⟩, ⟨24, 8, .rsv⟩]⟩,
  ⟨"RIG_LOADSTAT", 0x11000C, [], 0x0,
    [⟨0, 3, .ro⟩, ⟨3, 1, .rsv⟩, ⟨4, 1, .ro⟩, ⟨5, 1, .w1c⟩, ⟨6, 1, .w1c⟩, ⟨7, 1, .rsv⟩, ⟨8, 4, .ro⟩, ⟨12, 4, .ro⟩, ⟨16, 8, .ro⟩, ⟨24, 8, .ro⟩]⟩,
  ⟨"RIG_FMTCAP", 0x110010, [], 0x0,
    [⟨0, 8, .ro⟩, ⟨8, 8, .ro⟩, ⟨16, 16, .rsv⟩]⟩,
  ⟨"RIG_IMGVER", 0x110014, [], 0x0,
    [⟨0, 32, .ro⟩]⟩,
  ⟨"CSET_SEL", 0x111000, [], 0x0,
    [⟨0, 4, .rw⟩, ⟨4, 28, .rsv⟩]⟩,
  ⟨"CSET_CMD", 0x111004, [], 0x0,
    [⟨0, 16, .wo⟩, ⟨16, 16, .rsv⟩]⟩,
  ⟨"CSET_STAT", 0x111008, [], 0x0,
    [⟨0, 4, .ro⟩, ⟨4, 4, .ro⟩, ⟨8, 1, .ro⟩, ⟨9, 3, .ro⟩, ⟨12, 1, .w1c⟩, ⟨13, 1, .ro⟩, ⟨14, 18, .rsv⟩]⟩,
  ⟨"CSET_DATAn", 0x111010, [(0x4, 12)], 0x0,
    [⟨0, 32, .rw⟩]⟩,
  ⟨"CSET_VALn", 0x111040, [(0x4, 12)], 0x0,
    [⟨0, 32, .ro⟩]⟩,
  ⟨"DRAM_CFG", 0x200000, [], 0x0,
    [⟨0, 7, .ro⟩, ⟨7, 1, .rsv⟩, ⟨8, 6, .ro⟩, ⟨14, 1, .ro⟩, ⟨15, 1, .ro⟩, ⟨16, 2, .ro⟩, ⟨18, 2, .ro⟩, ⟨20, 4, .ro⟩, ⟨24, 8, .ro⟩]⟩,
  ⟨"DRAM_TCTRL", 0x200004, [], 0x1,
    [⟨0, 1, .rwl⟩, ⟨1, 1, .wo⟩, ⟨2, 1, .wo⟩, ⟨3, 29, .rsv⟩]⟩,
  ⟨"DRAM_TSTAT", 0x200008, [], 0x0,
    [⟨0, 3, .ro⟩, ⟨3, 1, .rsv⟩, ⟨4, 2, .ro⟩, ⟨6, 2, .rsv⟩, ⟨8, 1, .ro⟩, ⟨9, 1, .ro⟩, ⟨10, 2, .ro⟩, ⟨12, 4, .ro⟩, ⟨16, 16, .ro⟩]⟩,
  ⟨"DRAM_SR", 0x20000C, [], 0x0,
    [⟨0, 2, .ro⟩, ⟨2, 1, .wo⟩, ⟨3, 1, .wo⟩, ⟨4, 1, .rw⟩, ⟨5, 1, .w1c⟩, ⟨6, 1, .w1c⟩, ⟨7, 9, .rsv⟩, ⟨16, 16, .rc⟩]⟩]

/-- Registers from 0x200010 up to 0x204040. -/
def group7 : List Desc := [
  ⟨"DRAM_TOUCH", 0x200010, [], 0x0,
    [⟨0, 18, .ro⟩, ⟨18, 14, .rsv⟩]⟩,
  ⟨"DDRn_STAT", 0x201000, [(0x1000, 2)], 0x0,
    [⟨0, 1, .ro⟩, ⟨1, 1, .ro⟩, ⟨2, 1, .ro⟩, ⟨3, 1, .ro⟩, ⟨4, 1, .ro⟩, ⟨5, 1, .ro⟩, ⟨6, 1, .w1c⟩, ⟨7, 25, .rsv⟩]⟩,
  ⟨"DDRn_ECC", 0x201004, [(0x1000, 2)], 0x0,
    [⟨0, 16, .rc⟩, ⟨16, 16, .rc⟩]⟩,
  ⟨"DDRn_ERRADDR_LO", 0x201008, [(0x1000, 2)], 0x0,
    [⟨0, 32, .ro⟩]⟩,
  ⟨"DDRn_ERRADDR_HI", 0x20100C, [(0x1000, 2)], 0x0,
    [⟨0, 5, .ro⟩, ⟨5, 25, .rsv⟩, ⟨30, 1, .ro⟩, ⟨31, 1, .ro⟩]⟩,
  ⟨"DDRn_SCRUB", 0x201010, [(0x1000, 2)], 0x18,
    [⟨0, 8, .rw⟩, ⟨8, 8, .rsv⟩, ⟨16, 16, .ro⟩]⟩,
  ⟨"DDRn_RH", 0x201014, [(0x1000, 2)], 0x0,
    [⟨0, 8, .rc⟩, ⟨8, 8, .rsv⟩, ⟨16, 16, .rc⟩]⟩,
  ⟨"DMTk_CTRL", 0x204000, [(0x8, 8)], 0x0,
    [⟨0, 1, .rw⟩, ⟨1, 31, .rsv⟩]⟩,
  ⟨"DMTk_PERIOD", 0x204004, [(0x8, 8)], 0x0,
    [⟨0, 32, .rw⟩]⟩]

/-- Registers from 0x208000 up to 0x301008. -/
def group8 : List Desc := [
  ⟨"DMAn_CTRL", 0x208000, [(0x40, 64)], 0x0,
    [⟨0, 4, .rsv⟩, ⟨4, 3, .rw⟩, ⟨7, 1, .rsv⟩, ⟨8, 6, .rw⟩, ⟨14, 2, .rsv⟩, ⟨16, 8, .rw⟩, ⟨24, 6, .rsv⟩, ⟨30, 1, .wo⟩, ⟨31, 1, .rw⟩]⟩,
  ⟨"DMAn_DESC_LO", 0x208004, [(0x40, 64)], 0x0,
    [⟨0, 1, .rw⟩, ⟨1, 4, .rsv⟩, ⟨5, 27, .rw⟩]⟩,
  ⟨"DMAn_DESC_HI", 0x208008, [(0x40, 64)], 0x0,
    [⟨0, 32, .rw⟩]⟩,
  ⟨"DMAn_COUNT", 0x20800C, [(0x40, 64)], 0x0,
    [⟨0, 16, .rw⟩, ⟨16, 16, .rw⟩]⟩,
  ⟨"DMAn_STAT", 0x208010, [(0x40, 64)], 0x0,
    [⟨0, 3, .ro⟩, ⟨3, 1, .rsv⟩, ⟨4, 1, .w1c⟩, ⟨5, 1, .w1c⟩, ⟨6, 1, .w1c⟩, ⟨7, 17, .rsv⟩, ⟨24, 4, .ro⟩, ⟨28, 4, .ro⟩]⟩,
  ⟨"DMAn_CUR_LO", 0x208014, [(0x40, 64)], 0x0,
    [⟨0, 32, .ro⟩]⟩,
  ⟨"DMAn_CUR_HI", 0x208018, [(0x40, 64)], 0x0,
    [⟨0, 32, .ro⟩]⟩,
  ⟨"DMAn_BYTES", 0x20801C, [(0x40, 64)], 0x0,
    [⟨0, 32, .ro⟩]⟩,
  ⟨"DMAn_DESCS", 0x208020, [(0x40, 64)], 0x0,
    [⟨0, 32, .rc⟩]⟩,
  ⟨"HNT_BAR2_CTRL", 0x301000, [], 0x0,
    [⟨0, 7, .rw⟩, ⟨7, 25, .rsv⟩]⟩,
  ⟨"HNT_BAR2_STAT", 0x301004, [], 0x0,
    [⟨0, 1, .w1c⟩, ⟨1, 1, .w1c⟩, ⟨2, 30, .rsv⟩]⟩]

/-- Registers from 0x302000 up to 0x309000. -/
def group9 : List Desc := [
  ⟨"ETHp_CFG", 0x302000, [(0x2000, 2)], 0x0,
    [⟨0, 2, .rw⟩, ⟨2, 14, .rsv⟩, ⟨16, 8, .rw⟩, ⟨24, 8, .rsv⟩]⟩,
  ⟨"ETHp_STAT", 0x302004, [(0x2000, 2)], 0x0,
    [⟨0, 1, .ro⟩, ⟨1, 1, .ro⟩, ⟨2, 1, .w1c⟩, ⟨3, 1, .w1c⟩, ⟨4, 2, .ro⟩, ⟨6, 2, .rsv⟩, ⟨8, 8, .rc⟩, ⟨16, 8, .rc⟩, ⟨24, 8, .rc⟩]⟩,
  ⟨"ETHp_MAC_LO", 0x302008, [(0x2000, 2)], 0x0,
    [⟨0, 32, .rw⟩]⟩,
  ⟨"ETHp_MAC_HI", 0x30200C, [(0x2000, 2)], 0x0,
    [⟨0, 32, .rw⟩]⟩,
  ⟨"ETHp_IP4", 0x302010, [(0x2000, 2)], 0x0,
    [⟨0, 32, .rw⟩]⟩,
  ⟨"ETHp_IP6w", 0x302014, [(0x2000, 2), (0x4, 4)], 0x0,
    [⟨0, 32, .rw⟩]⟩,
  ⟨"ETHp_TSLAT", 0x302024, [(0x2000, 2)], 0x0,
    [⟨0, 16, .rw⟩, ⟨16, 16, .rw⟩]⟩,
  ⟨"ETHp_PTX", 0x302028, [(0x2000, 2)], 0x0,
    [⟨0, 11, .rw⟩, ⟨11, 20, .rsv⟩, ⟨31, 1, .wo⟩]⟩,
  ⟨"ETHp_PRX", 0x30202C, [(0x2000, 2)], 0x0,
    [⟨0, 3, .ro⟩, ⟨3, 13, .rsv⟩, ⟨16, 5, .ro⟩, ⟨21, 9, .rsv⟩, ⟨30, 1, .wo⟩, ⟨31, 1, .wo⟩]⟩,
  ⟨"ETHp_TXTS_HDR", 0x302030, [(0x2000, 2)], 0x0,
    [⟨0, 32, .ro⟩]⟩,
  ⟨"ETHp_TXTS_NS", 0x302034, [(0x2000, 2)], 0x0,
    [⟨0, 32, .ro⟩]⟩,
  ⟨"ETHp_TXTS_S_LO", 0x302038, [(0x2000, 2)], 0x0,
    [⟨0, 32, .ro⟩]⟩,
  ⟨"ETHp_TXTS_S_HI", 0x30203C, [(0x2000, 2)], 0x0,
    [⟨0, 32, .ro⟩]⟩,
  ⟨"ETHp_PTXBUF", 0x302800, [(0x2000, 2), (0x4, 384)], 0x0,
    [⟨0, 32, .wo⟩]⟩,
  ⟨"ETHp_PRXBUF", 0x303000, [(0x2000, 2), (0x4, 512)], 0x0,
    [⟨0, 32, .ro⟩]⟩,
  ⟨"MSIX_TABLE", 0x308000, [(0x10, 256), (4, 4)], 0,
    [⟨0, 32, .rw⟩]⟩]

/-- Registers from 0x309000 up to 0x311200. -/
def group10 : List Desc := [
  ⟨"MSIX_PBA", 0x309000, [(4, 8)], 0,
    [⟨0, 32, .ro⟩]⟩,
  ⟨"REP_CTRL", 0x310000, [], 0x0,
    [⟨0, 1, .wo⟩, ⟨1, 31, .rsv⟩]⟩,
  ⟨"REP_STAT", 0x310004, [], 0x0,
    [⟨0, 4, .ro⟩, ⟨4, 4, .rsv⟩, ⟨8, 1, .ro⟩, ⟨9, 7, .rsv⟩, ⟨16, 16, .ro⟩]⟩,
  ⟨"REP_EVT_LOST", 0x310008, [], 0x0,
    [⟨0, 16, .rc⟩, ⟨16, 16, .rsv⟩]⟩,
  ⟨"REPL_CTRL", 0x310010, [], 0x0,
    [⟨0, 1, .rw⟩, ⟨1, 1, .rw⟩, ⟨2, 6, .rsv⟩, ⟨8, 4, .ro⟩, ⟨12, 20, .rsv⟩]⟩,
  ⟨"REP_QnSQB_LO", 0x311000, [(0x20, 16)], 0x0,
    [⟨0, 12, .rsv⟩, ⟨12, 20, .rw⟩]⟩,
  ⟨"REP_QnSQB_HI", 0x311004, [(0x20, 16)], 0x0,
    [⟨0, 32, .rw⟩]⟩,
  ⟨"REP_QnCQB_LO", 0x311008, [(0x20, 16)], 0x0,
    [⟨0, 12, .rsv⟩, ⟨12, 20, .rw⟩]⟩,
  ⟨"REP_QnCQB_HI", 0x31100C, [(0x20, 16)], 0x0,
    [⟨0, 32, .rw⟩]⟩,
  ⟨"REP_QnCFG", 0x311010, [(0x20, 16)], 0x0,
    [⟨0, 4, .rw⟩, ⟨4, 4, .rsv⟩, ⟨8, 4, .rw⟩, ⟨12, 4, .rsv⟩, ⟨16, 8, .rw⟩, ⟨24, 7, .rsv⟩, ⟨31, 1, .rw⟩]⟩,
  ⟨"REP_QnSQT", 0x311014, [(0x20, 16)], 0x0,
    [⟨0, 12, .rw⟩, ⟨12, 20, .rsv⟩]⟩,
  ⟨"REP_QnCQH", 0x311018, [(0x20, 16)], 0x0,
    [⟨0, 12, .rw⟩, ⟨12, 20, .rsv⟩]⟩,
  ⟨"REP_QnSTAT", 0x31101C, [(0x20, 16)], 0x0,
    [⟨0, 12, .ro⟩, ⟨12, 1, .w1c⟩, ⟨13, 1, .w1c⟩, ⟨14, 1, .ro⟩, ⟨15, 1, .rsv⟩, ⟨16, 12, .ro⟩, ⟨28, 4, .rsv⟩]⟩]

/-- Registers from 0x320000 up to 0x400050. -/
def group11 : List Desc := [
  ⟨"MBXn_HDR", 0x320000, [(0x40, 64)], 0x0,
    [⟨0, 28, .ro⟩, ⟨28, 3, .rsv⟩, ⟨31, 1, .ro⟩]⟩,
  ⟨"MBXn_ACK", 0x320004, [(0x40, 64)], 0x0,
    [⟨0, 28, .rw⟩, ⟨28, 4, .rsv⟩]⟩,
  ⟨"MBXn_TAG", 0x320008, [(0x40, 64)], 0x0,
    [⟨0, 32, .ro⟩]⟩,
  ⟨"MBXn_GEN", 0x32000C, [(0x40, 64)], 0x0,
    [⟨0, 32, .ro⟩]⟩,
  ⟨"MBXn_DATAk", 0x320010, [(0x40, 64), (0x4, 12)], 0x0,
    [⟨0, 32, .ro⟩]⟩,
  ⟨"PSQ_CTRL", 0x400000, [], 0x0,
    [⟨0, 1, .rw⟩, ⟨1, 1, .rw⟩, ⟨2, 1, .rwl⟩, ⟨3, 5, .rsv⟩, ⟨8, 5, .rwl⟩, ⟨13, 3, .rsv⟩, ⟨16, 4, .rw⟩, ⟨20, 12, .rsv⟩]⟩,
  ⟨"PSQ_CPL", 0x400004, [], 0x0,
    [⟨0, 20, .rwl⟩, ⟨20, 12, .rsv⟩]⟩,
  ⟨"PSQ_STAT", 0x400008, [], 0x0,
    [⟨0, 1, .ro⟩, ⟨1, 1, .ro⟩, ⟨2, 1, .ro⟩, ⟨3, 1, .w1c⟩, ⟨4, 1, .w1c⟩, ⟨5, 1, .w1c⟩, ⟨6, 1, .w1c⟩, ⟨7, 1, .w1c⟩, ⟨8, 8, .ro⟩, ⟨16, 16, .rc⟩]⟩,
  ⟨"PSQ_FRONT_LO", 0x400010, [], 0x0,
    [⟨0, 32, .ro⟩]⟩,
  ⟨"PSQ_FRONT_HI", 0x400014, [], 0x0,
    [⟨0, 16, .ro⟩, ⟨16, 16, .rsv⟩]⟩,
  ⟨"PSQ_RAW", 0x400018, [], 0x0,
    [⟨0, 32, .ro⟩]⟩,
  ⟨"PSQ_POSn", 0x400020, [(0x4, 5)], 0x0,
    [⟨0, 32, .rw⟩]⟩,
  ⟨"PSQ_BUDGET", 0x400040, [], 0x3800A8C,
    [⟨0, 12, .rw⟩, ⟨12, 4, .rsv⟩, ⟨16, 12, .rw⟩, ⟨28, 4, .rsv⟩]⟩,
  ⟨"PSQ_DEMAND", 0x400044, [], 0x0,
    [⟨0, 32, .ro⟩]⟩,
  ⟨"PSQ_SPEED", 0x400048, [], 0x0,
    [⟨0, 18, .ro⟩, ⟨18, 6, .rsv⟩, ⟨24, 2, .ro⟩, ⟨26, 6, .rsv⟩]⟩,
  ⟨"PSQ_PTRIM", 0x40004C, [], 0x0,
    [⟨0, 32, .rw⟩]⟩]

/-- Registers from 0x400050 up to 0x410218. -/
def group12 : List Desc := [
  ⟨"PSQ_PMEAS", 0x400050, [], 0x0,
    [⟨0, 32, .ro⟩]⟩,
  ⟨"PSQ_STNn_TRIG", 0x400100, [(0x8, 8)], 0x0,
    [⟨0, 32, .rw⟩]⟩,
  ⟨"PSQ_STNn_PREF", 0x400104, [(0x8, 8)], 0x0,
    [⟨0, 32, .rw⟩]⟩,
  ⟨"PCTXn_STATE", 0x401000, [(0x10, 256)], 0x0,
    [⟨0, 4, .ro⟩, ⟨4, 4, .ro⟩, ⟨8, 1, .ro⟩, ⟨9, 1, .ro⟩, ⟨10, 1, .ro⟩, ⟨11, 5, .rsv⟩, ⟨16, 8, .ro⟩, ⟨24, 8, .ro⟩]⟩,
  ⟨"PCTXn_SHEET", 0x401004, [(0x10, 256)], 0x0,
    [⟨0, 32, .ro⟩]⟩,
  ⟨"PCTXn_ORG_LO", 0x401008, [(0x10, 256)], 0x0,
    [⟨0, 32, .ro⟩]⟩,
  ⟨"PCTXn_ORG_HI", 0x40100C, [(0x10, 256)], 0x0,
    [⟨0, 16, .ro⟩, ⟨16, 16, .rsv⟩]⟩,
  ⟨"CODEC_CAPS", 0x410000, [], 0x0,
    [⟨0, 4, .ro⟩, ⟨4, 1, .ro⟩, ⟨5, 3, .rsv⟩, ⟨8, 8, .ro⟩, ⟨16, 8, .ro⟩, ⟨24, 8, .rsv⟩]⟩,
  ⟨"CODEC_VSTAT", 0x410004, [], 0x0,
    [⟨0, 8, .rsv⟩, ⟨8, 8, .ro⟩, ⟨16, 16, .ro⟩]⟩,
  ⟨"CODEC_VOK", 0x410008, [], 0x0,
    [⟨0, 32, .rc⟩]⟩,
  ⟨"CODEC_VFAIL", 0x41000C, [], 0x0,
    [⟨0, 16, .rc⟩, ⟨16, 16, .rsv⟩]⟩,
  ⟨"VDECn_STAT", 0x410100, [(0x10, 8)], 0x0,
    [⟨0, 8, .ro⟩, ⟨8, 3, .ro⟩, ⟨11, 5, .rsv⟩, ⟨16, 4, .ro⟩, ⟨20, 4, .rsv⟩, ⟨24, 6, .ro⟩, ⟨30, 1, .ro⟩, ⟨31, 1, .ro⟩]⟩,
  ⟨"VDECn_BAND", 0x410104, [(0x10, 8)], 0x0,
    [⟨0, 23, .ro⟩, ⟨23, 1, .ro⟩, ⟨24, 8, .rsv⟩]⟩,
  ⟨"CMP_STAT", 0x410200, [], 0x0,
    [⟨0, 1, .ro⟩, ⟨1, 1, .ro⟩, ⟨2, 1, .ro⟩, ⟨3, 13, .rsv⟩, ⟨16, 4, .ro⟩, ⟨20, 4, .rsv⟩, ⟨24, 4, .ro⟩, ⟨28, 4, .rsv⟩]⟩,
  ⟨"CMP_IN_LO", 0x410210, [], 0x0,
    [⟨0, 32, .ro⟩]⟩,
  ⟨"CMP_IN_HI", 0x410214, [], 0x0,
    [⟨0, 32, .ro⟩]⟩]

/-- Registers from 0x410218 up to 0x410220. -/
def group13 : List Desc := [
  ⟨"CMP_OUT_LO", 0x410218, [], 0x0,
    [⟨0, 32, .ro⟩]⟩,
  ⟨"CMP_OUT_HI", 0x41021C, [], 0x0,
    [⟨0, 32, .ro⟩]⟩]

/-- Registers from 0x800000 up to 0x800BD8. -/
def group14 : List Desc := [
  ⟨"MCn_CTRL", 0x800000, [(0x80, 24)], 0x0,
    [⟨0, 1, .rw⟩, ⟨1, 1, .w1s⟩, ⟨2, 1, .wo⟩, ⟨3, 1, .rsv⟩, ⟨4, 1, .rw⟩, ⟨5, 1, .rw⟩, ⟨6, 1, .rw⟩, ⟨7, 1, .rw⟩, ⟨8, 3, .rw⟩, ⟨11, 21, .rsv⟩]⟩,
  ⟨"MCn_PWM", 0x800004, [(0x80, 24)], 0x0,
    [⟨0, 10, .rw⟩, ⟨10, 6, .rsv⟩, ⟨16, 9, .rw⟩, ⟨25, 7, .rsv⟩]⟩,
  ⟨"MCn_SENSE", 0x800008, [(0x80, 24)], 0x0,
    [⟨0, 6, .rsv⟩, ⟨6, 6, .rw⟩, ⟨12, 6, .rw⟩, ⟨18, 6, .rw⟩, ⟨24, 4, .rw⟩, ⟨28, 1, .rsv⟩, ⟨29, 1, .rw⟩, ⟨30, 1, .rw⟩, ⟨31, 1, .rw⟩]⟩,
  ⟨"MCn_MOTOR", 0x80000C, [(0x80, 24)], 0x0,
    [⟨0, 16, .rw⟩, ⟨16, 12, .rw⟩, ⟨28, 4, .rw⟩]⟩,
  ⟨"MCn_KP", 0x800010, [(0x80, 24)], 0x0,
    [⟨0, 20, .rw⟩, ⟨20, 12, .sign⟩]⟩,
  ⟨"MCn_KI", 0x800014, [(0x80, 24)], 0x0,
    [⟨0, 20, .rw⟩, ⟨20, 12, .sign⟩]⟩,
  ⟨"MCn_ILIM", 0x800018, [(0x80, 24)], 0x0,
    [⟨0, 20, .rw⟩, ⟨20, 12, .ro⟩]⟩,
  ⟨"MCn_OCTRIP", 0x80001C, [(0x80, 24)], 0x0,
    [⟨0, 20, .rw⟩, ⟨20, 12, .ro⟩]⟩,
  ⟨"MCn_START", 0x800020, [(0x80, 24)], 0x0,
    [⟨0, 8, .rw⟩, ⟨8, 7, .rw⟩, ⟨15, 1, .rsv⟩, ⟨16, 2, .rw⟩, ⟨18, 2, .rsv⟩, ⟨20, 12, .rw⟩]⟩,
  ⟨"MCn_FREQ", 0x800024, [(0x80, 24)], 0x0,
    [⟨0, 12, .rw⟩, ⟨12, 12, .rw⟩, ⟨24, 8, .rw⟩]⟩,
  ⟨"MCn_RAMP", 0x800028, [(0x80, 24)], 0x0,
    [⟨0, 16, .rw⟩, ⟨16, 16, .rw⟩]⟩,
  ⟨"MCn_OBS", 0x80002C, [(0x80, 24)], 0x0,
    [⟨0, 20, .rw⟩, ⟨20, 4, .rsv⟩, ⟨24, 4, .rw⟩, ⟨28, 4, .rsv⟩]⟩,
  ⟨"MCn_SETP", 0x800030, [(0x80, 24)], 0x0,
    [⟨0, 20, .rw⟩, ⟨20, 12, .sign⟩]⟩,
  ⟨"MCn_STAT", 0x800034, [(0x80, 24)], 0x0,
    [⟨0, 4, .ro⟩, ⟨4, 1, .ro⟩, ⟨5, 3, .rsv⟩, ⟨8, 1, .w1c⟩, ⟨9, 1, .w1c⟩, ⟨10, 1, .w1c⟩, ⟨11, 1, .w1c⟩, ⟨12, 4, .ro⟩, ⟨16, 16, .rsv⟩]⟩,
  ⟨"MCn_SPEED", 0x800038, [(0x80, 24)], 0x0,
    [⟨0, 20, .ro⟩, ⟨20, 12, .sign⟩]⟩,
  ⟨"MCn_IQ", 0x80003C, [(0x80, 24)], 0x0,
    [⟨0, 20, .ro⟩, ⟨20, 12, .sign⟩]⟩,
  ⟨"MCn_ID", 0x800040, [(0x80, 24)], 0x0,
    [⟨0, 20, .ro⟩, ⟨20, 12, .sign⟩]⟩,
  ⟨"MCn_RS", 0x800044, [(0x80, 24)], 0x0,
    [⟨0, 32, .rw⟩]⟩,
  ⟨"MCn_LS", 0x800048, [(0x80, 24)], 0x0,
    [⟨0, 32, .rw⟩]⟩,
  ⟨"MCn_POLY", 0x80004C, [(0x80, 8)], 0x0,
    [⟨0, 3, .rwl⟩, ⟨3, 1, .rwl⟩, ⟨4, 4, .rsv⟩, ⟨8, 8, .rwl⟩, ⟨16, 16, .rsv⟩]⟩,
  ⟨"MCn_BDERR", 0x800050, [(0x80, 8)], 0x0,
    [⟨0, 20, .ro⟩, ⟨20, 12, .sign⟩]⟩,
  ⟨"MCn_FAULTS", 0x800054, [(0x80, 24)], 0x0,
    [⟨0, 16, .rc⟩, ⟨16, 16, .rc⟩]⟩]

/-- Registers from 0x801000 up to 0x801080. -/
def group15 : List Desc := [
  ⟨"CMDk_CFG", 0x801000, [(0x10, 8)], 0x0,
    [⟨0, 2, .rw⟩, ⟨2, 2, .rsv⟩, ⟨4, 2, .rw⟩, ⟨6, 2, .rsv⟩, ⟨8, 4, .rw⟩, ⟨12, 20, .rw⟩]⟩,
  ⟨"CMDk_GAIN", 0x801004, [(0x10, 8)], 0x0,
    [⟨0, 20, .rw⟩, ⟨20, 12, .sign⟩]⟩,
  ⟨"CMDk_OFFSET", 0x801008, [(0x10, 8)], 0x0,
    [⟨0, 20, .rw⟩, ⟨20, 12, .sign⟩]⟩,
  ⟨"CMDk_STAT", 0x80100C, [(0x10, 8)], 0x0,
    [⟨0, 20, .ro⟩, ⟨20, 11, .rsv⟩, ⟨31, 1, .w1c⟩]⟩]

/-- Registers from 0x802000 up to 0x802C00. -/
def group16 : List Desc := [
  ⟨"AXn_CTRL", 0x802000, [(0x40, 48)], 0x0,
    [⟨0, 1, .rw⟩, ⟨1, 1, .rsv⟩, ⟨2, 1, .wo⟩, ⟨3, 1, .w1s⟩, ⟨4, 1, .wo⟩, ⟨5, 4, .rsv⟩, ⟨9, 1, .rw⟩, ⟨10, 1, .rw⟩, ⟨11, 1, .rw⟩, ⟨12, 1, .rw⟩, ⟨13, 1, .rw⟩, ⟨14, 1, .rw⟩, ⟨15, 1, .rw⟩, ⟨16, 4, .rsv⟩, ⟨20, 3, .rw⟩, ⟨23, 1, .rw⟩, ⟨24, 8, .rsv⟩]⟩,
  ⟨"AXn_TARGET", 0x802004, [(0x40, 48)], 0x0,
    [⟨0, 32, .rw⟩]⟩,
  ⟨"AXn_VMAX", 0x802008, [(0x40, 48)], 0x0,
    [⟨0, 32, .rw⟩]⟩,
  ⟨"AXn_ACCEL", 0x80200C, [(0x40, 48)], 0x0,
    [⟨0, 32, .rw⟩]⟩,
  ⟨"AXn_DECEL", 0x802010, [(0x40, 48)], 0x0,
    [⟨0, 32, .rw⟩]⟩,
  ⟨"AXn_ESTOP", 0x802014, [(0x40, 48)], 0xFFFFFFFF,
    [⟨0, 32, .rw⟩]⟩,
  ⟨"AXn_MSTEP", 0x802018, [(0x40, 48)], 0x8000,
    [⟨0, 4, .rsv⟩, ⟨4, 4, .rw⟩, ⟨8, 4, .rsv⟩, ⟨12, 4, .rw⟩, ⟨16, 9, .rw⟩, ⟨25, 7, .rsv⟩]⟩,
  ⟨"AXn_MRESMAP", 0x80201C, [(0x40, 48)], 0x7FAC688,
    [⟨0, 27, .rw⟩, ⟨27, 5, .rsv⟩]⟩,
  ⟨"AXn_TIMING", 0x802020, [(0x40, 48)], 0xA0A0A0A,
    [⟨0, 8, .rw⟩, ⟨8, 8, .rw⟩, ⟨16, 8, .rw⟩, ⟨24, 8, .rw⟩]⟩,
  ⟨"AXn_PHREF", 0x802024, [(0x40, 48)], 0x0,
    [⟨0, 8, .rw⟩, ⟨8, 24, .rsv⟩]⟩,
  ⟨"AXn_ENC", 0x802028, [(0x40, 48)], 0x0,
    [⟨0, 5, .rw⟩, ⟨5, 3, .rsv⟩, ⟨8, 1, .rw⟩, ⟨9, 3, .rsv⟩, ⟨12, 4, .rw⟩, ⟨16, 16, .rw⟩]⟩,
  ⟨"AXn_CPF", 0x80202C, [(0x40, 48)], 0x10000,
    [⟨0, 32, .rw⟩]⟩,
  ⟨"AXn_POS", 0x802030, [(0x40, 48)], 0x0,
    [⟨0, 32, .rw⟩]⟩,
  ⟨"AXn_EPOS", 0x802034, [(0x40, 48)], 0x0,
    [⟨0, 32, .ro⟩]⟩,
  ⟨"AXn_STAT", 0x802038, [(0x40, 48)], 0x0,
    [⟨0, 3, .ro⟩, ⟨3, 5, .rsv⟩, ⟨8, 1, .w1c⟩, ⟨9, 1, .w1c⟩, ⟨10, 1, .w1c⟩, ⟨11, 1, .ro⟩, ⟨12, 8, .rsv⟩, ⟨20, 4, .ro⟩, ⟨24, 4, .ro⟩, ⟨28, 4, .ro⟩]⟩,
  ⟨"AXn_VEL", 0x80203C, [(0x40, 48)], 0x0,
    [⟨0, 32, .ro⟩]⟩]

/-- Registers from 0x803000 up to 0x8047F8. -/
def group17 : List Desc := [
  ⟨"AGg_CTRL", 0x803000, [(0x20, 8)], 0x0,
    [⟨0, 1, .rsv⟩, ⟨1, 1, .wo⟩, ⟨2, 1, .w1s⟩, ⟨3, 1, .rw⟩, ⟨4, 1, .rw⟩, ⟨5, 27, .rsv⟩]⟩,
  ⟨"AGg_VMAX", 0x803004, [(0x20, 8)], 0x0,
    [⟨0, 32, .rw⟩]⟩,
  ⟨"AGg_ACCEL", 0x803008, [(0x20, 8)], 0x0,
    [⟨0, 32, .rw⟩]⟩,
  ⟨"AGg_DECEL", 0x80300C, [(0x20, 8)], 0x0,
    [⟨0, 32, .rw⟩]⟩,
  ⟨"AGg_ESTOP", 0x803010, [(0x20, 8)], 0xFFFFFFFF,
    [⟨0, 32, .rw⟩]⟩,
  ⟨"AGg_STAT", 0x803014, [(0x20, 8)], 0x0,
    [⟨0, 3, .ro⟩, ⟨3, 4, .ro⟩, ⟨7, 1, .w1c⟩, ⟨8, 8, .rsv⟩, ⟨16, 6, .ro⟩, ⟨22, 2, .rsv⟩, ⟨24, 4, .ro⟩, ⟨28, 4, .rsv⟩]⟩,
  ⟨"CE_CAPS", 0x804000, [], 0x0,
    [⟨0, 8, .ro⟩, ⟨8, 8, .ro⟩, ⟨16, 8, .ro⟩, ⟨24, 8, .ro⟩]⟩,
  ⟨"CE_CTRL", 0x804004, [], 0x0,
    [⟨0, 1, .rw⟩, ⟨1, 31, .rsv⟩]⟩,
  ⟨"CE_STAT", 0x804008, [], 0x0,
    [⟨0, 1, .ro⟩, ⟨1, 1, .w1c⟩, ⟨2, 1, .w1c⟩, ⟨3, 1, .w1c⟩, ⟨4, 4, .rsv⟩, ⟨8, 8, .ro⟩, ⟨16, 8, .ro⟩, ⟨24, 8, .rsv⟩]⟩,
  ⟨"CE_BELT", 0x80400C, [], 0x0,
    [⟨0, 3, .rw⟩, ⟨3, 1, .rsv⟩, ⟨4, 1, .ro⟩, ⟨5, 11, .rsv⟩, ⟨16, 16, .rw⟩]⟩,
  ⟨"TBt_CFG", 0x804100, [(0x8, 8)], 0x0,
    [⟨0, 1, .rw⟩, ⟨1, 7, .rsv⟩, ⟨8, 5, .rw⟩, ⟨13, 3, .rsv⟩, ⟨16, 8, .rw⟩, ⟨24, 7, .rsv⟩, ⟨31, 1, .ro⟩]⟩,
  ⟨"TBt_PERIOD", 0x804104, [(0x8, 8)], 0x0,
    [⟨0, 27, .rw⟩, ⟨27, 5, .rsv⟩]⟩,
  ⟨"LPn_CFG", 0x804400, [(0x10, 64)], 0x0,
    [⟨0, 12, .rw⟩, ⟨12, 3, .rw⟩, ⟨15, 1, .rsv⟩, ⟨16, 13, .rw⟩, ⟨29, 2, .rsv⟩, ⟨31, 1, .rw⟩]⟩,
  ⟨"LPn_STAT", 0x804404, [(0x10, 64)], 0x0,
    [⟨0, 4, .ro⟩, ⟨4, 1, .rsv⟩, ⟨5, 1, .w1c⟩, ⟨6, 1, .w1c⟩, ⟨7, 1, .w1c⟩, ⟨8, 8, .rsv⟩, ⟨16, 16, .ro⟩]⟩]

/-- Registers from 0x804800 up to 0x8048E4. -/
def group18 : List Desc := [
  ⟨"TUu_CFG", 0x804800, [(0x40, 4)], 0x0,
    [⟨0, 1, .wo⟩, ⟨1, 1, .wo⟩, ⟨2, 1, .wo⟩, ⟨3, 1, .rsv⟩, ⟨4, 2, .rw⟩, ⟨6, 2, .rsv⟩, ⟨8, 3, .rw⟩, ⟨11, 5, .rsv⟩, ⟨16, 8, .rw⟩, ⟨24, 8, .rsv⟩]⟩,
  ⟨"TUu_TRIG", 0x804804, [(0x40, 4)], 0x0,
    [⟨0, 16, .rsv⟩, ⟨16, 11, .rw⟩, ⟨27, 1, .rsv⟩, ⟨28, 4, .rw⟩]⟩,
  ⟨"TUu_LEVEL", 0x804808, [(0x40, 4)], 0x0,
    [⟨0, 20, .rw⟩, ⟨20, 12, .sign⟩]⟩,
  ⟨"TUu_SRC01", 0x80480C, [(0x40, 4)], 0x0,
    [⟨0, 11, .rw⟩, ⟨11, 5, .rsv⟩, ⟨16, 11, .rw⟩, ⟨27, 5, .rsv⟩]⟩,
  ⟨"TUu_SRC23", 0x804810, [(0x40, 4)], 0x0,
    [⟨0, 11, .rw⟩, ⟨11, 5, .rsv⟩, ⟨16, 11, .rw⟩, ⟨27, 5, .rsv⟩]⟩,
  ⟨"TUu_PRE", 0x804814, [(0x40, 4)], 0x0,
    [⟨0, 14, .rw⟩, ⟨14, 18, .rsv⟩]⟩,
  ⟨"TUu_STAT", 0x804818, [(0x40, 4)], 0x0,
    [⟨0, 3, .ro⟩, ⟨3, 1, .ro⟩, ⟨4, 1, .w1c⟩, ⟨5, 11, .rsv⟩, ⟨16, 15, .ro⟩, ⟨31, 1, .rsv⟩]⟩,
  ⟨"TUu_T0_LO", 0x80481C, [(0x40, 4)], 0x0,
    [⟨0, 32, .ro⟩]⟩,
  ⟨"TUu_T0_HI", 0x804820, [(0x40, 4)], 0x0,
    [⟨0, 32, .ro⟩]⟩]

/-- Registers from 0x805000 up to 0x8057F4. -/
def group19 : List Desc := [
  ⟨"HVj_CTRL", 0x805000, [(0x40, 32)], 0x0,
    [⟨0, 1, .rw⟩, ⟨1, 1, .rw⟩, ⟨2, 1, .rw⟩, ⟨3, 1, .wo⟩, ⟨4, 28, .rsv⟩]⟩,
  ⟨"HVj_PWM", 0x805004, [(0x40, 32)], 0x0,
    [⟨0, 9, .rw⟩, ⟨9, 23, .rsv⟩]⟩,
  ⟨"HVj_FB", 0x805008, [(0x40, 32)], 0x0,
    [⟨0, 7, .rw⟩, ⟨7, 1, .rw⟩, ⟨8, 7, .rw⟩, ⟨15, 1, .rw⟩, ⟨16, 16, .rsv⟩]⟩,
  ⟨"HVj_SCALE", 0x80500C, [(0x40, 32)], 0x0,
    [⟨0, 16, .rw⟩, ⟨16, 16, .rw⟩]⟩,
  ⟨"HVj_CAP", 0x805010, [(0x40, 32)], 0x0,
    [⟨0, 32, .rwl⟩]⟩,
  ⟨"HVj_SHROUD", 0x805014, [(0x40, 32)], 0x0,
    [⟨0, 16, .rwl⟩, ⟨16, 8, .rw⟩, ⟨24, 8, .rsv⟩]⟩,
  ⟨"HVj_LIMITS", 0x805018, [(0x40, 32)], 0x0,
    [⟨0, 16, .rw⟩, ⟨16, 16, .rw⟩]⟩,
  ⟨"HVj_GUARD", 0x80501C, [(0x40, 32)], 0x0,
    [⟨0, 12, .rw⟩, ⟨12, 12, .rw⟩, ⟨24, 4, .rw⟩, ⟨28, 3, .rsv⟩, ⟨31, 1, .rw⟩]⟩,
  ⟨"HVj_BAND", 0x805020, [(0x40, 32)], 0x0,
    [⟨0, 16, .rw⟩, ⟨16, 16, .rw⟩]⟩,
  ⟨"HVj_SAFE", 0x805024, [(0x40, 32)], 0x0,
    [⟨0, 16, .rw⟩, ⟨16, 16, .rsv⟩]⟩,
  ⟨"HVj_STAT", 0x805028, [(0x40, 32)], 0x0,
    [⟨0, 2, .ro⟩, ⟨2, 1, .rsv⟩, ⟨3, 1, .w1c⟩, ⟨4, 1, .w1c⟩, ⟨5, 1, .w1c⟩, ⟨6, 1, .ro⟩, ⟨7, 1, .ro⟩, ⟨8, 2, .ro⟩, ⟨10, 14, .rsv⟩, ⟨24, 8, .rc⟩]⟩,
  ⟨"HVj_MEAS", 0x80502C, [(0x40, 32)], 0x0,
    [⟨0, 16, .ro⟩, ⟨16, 16, .ro⟩]⟩,
  ⟨"HVj_ENERGY", 0x805030, [(0x40, 32)], 0x0,
    [⟨0, 16, .ro⟩, ⟨16, 16, .rc⟩]⟩]

/-- Registers from 0x806000 up to 0x815000. -/
def group20 : List Desc := [
  ⟨"HTh_CTRL", 0x806000, [(0x20, 8)], 0x0,
    [⟨0, 1, .rw⟩, ⟨1, 1, .rsv⟩, ⟨2, 1, .wo⟩, ⟨3, 1, .rw⟩, ⟨4, 2, .rw⟩, ⟨6, 2, .rw⟩, ⟨8, 16, .rsv⟩, ⟨24, 8, .rw⟩]⟩,
  ⟨"HTh_TH", 0x806004, [(0x20, 8)], 0x0,
    [⟨0, 12, .rw⟩, ⟨12, 12, .rw⟩, ⟨24, 4, .rw⟩, ⟨28, 3, .rsv⟩, ⟨31, 1, .rw⟩]⟩,
  ⟨"HTh_OT", 0x806008, [(0x20, 8)], 0x0,
    [⟨0, 12, .rw⟩, ⟨12, 4, .rsv⟩, ⟨16, 12, .rw⟩, ⟨28, 4, .rsv⟩]⟩,
  ⟨"HTh_BAND", 0x80600C, [(0x20, 8)], 0x0,
    [⟨0, 12, .rw⟩, ⟨12, 4, .rsv⟩, ⟨16, 12, .rw⟩, ⟨28, 4, .rsv⟩]⟩,
  ⟨"HTh_OTC", 0x806010, [(0x20, 8)], 0x0,
    [⟨0, 8, .rwl⟩, ⟨8, 1, .rwl⟩, ⟨9, 1, .rwl⟩, ⟨10, 22, .rsv⟩]⟩,
  ⟨"HTh_STAT", 0x806014, [(0x20, 8)], 0x0,
    [⟨0, 1, .rsv⟩, ⟨1, 1, .ro⟩, ⟨2, 1, .w1c⟩, ⟨3, 1, .w1c⟩, ⟨4, 1, .ro⟩, ⟨5, 1, .ro⟩, ⟨6, 1, .ro⟩, ⟨7, 9, .rsv⟩, ⟨16, 16, .ro⟩]⟩,
  ⟨"HT_ZC", 0x807000, [], 0x0,
    [⟨0, 10, .rw⟩, ⟨10, 6, .rsv⟩, ⟨16, 15, .ro⟩, ⟨31, 1, .ro⟩]⟩,
  ⟨"ILK_STAT", 0x807004, [], 0x0,
    [⟨0, 4, .ro⟩, ⟨4, 4, .w1c⟩, ⟨8, 1, .ro⟩, ⟨9, 23, .rsv⟩]⟩,
  ⟨"ILK_HEAT", 0x807008, [], 0x0,
    [⟨0, 32, .rwl⟩]⟩,
  ⟨"ILK_TIME_LO", 0x80700C, [], 0x0,
    [⟨0, 32, .ro⟩]⟩,
  ⟨"ILK_TIME_HI", 0x807010, [], 0x0,
    [⟨0, 32, .ro⟩]⟩,
  ⟨"CE_PROGw_LO", 0x808000, [(0x8, 4096)], 0x0,
    [⟨0, 32, .rw⟩]⟩,
  ⟨"CE_PROGw_HI", 0x808004, [(0x8, 4096)], 0x0,
    [⟨0, 32, .rw⟩]⟩,
  ⟨"CE_COEFc", 0x810000, [(0x4, 4096)], 0x0,
    [⟨0, 20, .rw⟩, ⟨20, 12, .sign⟩]⟩,
  ⟨"CE_NODEi", 0x814000, [(0x4, 1024)], 0x0,
    [⟨0, 20, .rw⟩, ⟨20, 12, .sign⟩]⟩]

/-- Registers from 0x818000 up to 0xC00404. -/
def group21 : List Desc := [
  ⟨"CE_STATEs_LO", 0x818000, [(0x8, 1024)], 0x0,
    [⟨0, 32, .rw⟩]⟩,
  ⟨"CE_STATEs_HI", 0x818004, [(0x8, 1024)], 0x0,
    [⟨0, 32, .rw⟩]⟩,
  ⟨"TUu_BUF", 0x840000, [(0x10000, 4), (0x4, 16384)], 0x0,
    [⟨0, 32, .ro⟩]⟩,
  ⟨"VIS_CAPS", 0xC00000, [], 0x0,
    [⟨0, 4, .ro⟩, ⟨4, 4, .ro⟩, ⟨8, 24, .rsv⟩]⟩,
  ⟨"VIS_STAT", 0xC00004, [], 0x0,
    [⟨0, 1, .ro⟩, ⟨1, 1, .ro⟩, ⟨2, 2, .rsv⟩, ⟨4, 4, .ro⟩, ⟨8, 1, .ro⟩, ⟨9, 23, .rsv⟩]⟩,
  ⟨"VIS_MRLOST", 0xC00008, [], 0x0,
    [⟨0, 16, .rc⟩, ⟨16, 16, .rsv⟩]⟩,
  ⟨"VIS_CSIp_CFG", 0xC00100, [(0x20, 4)], 0x0,
    [⟨0, 3, .rwl⟩, ⟨3, 29, .rsv⟩]⟩,
  ⟨"VIS_CSIp_ERR", 0xC00104, [(0x20, 4)], 0x0,
    [⟨0, 8, .rc⟩, ⟨8, 8, .rc⟩, ⟨16, 8, .rc⟩, ⟨24, 8, .rc⟩]⟩,
  ⟨"VIS_CSIp_DROP", 0xC00108, [(0x20, 4)], 0x0,
    [⟨0, 16, .rc⟩, ⟨16, 4, .ro⟩, ⟨20, 12, .rsv⟩]⟩,
  ⟨"VIS_CSIp_DROPTAG", 0xC0010C, [(0x20, 4)], 0x0,
    [⟨0, 32, .ro⟩]⟩,
  ⟨"VIS_CAMs_STAT", 0xC00200, [(0x10, 16)], 0x0,
    [⟨0, 28, .ro⟩, ⟨28, 1, .w1c⟩, ⟨29, 1, .w1c⟩, ⟨30, 2, .ro⟩]⟩,
  ⟨"VIS_CAMs_GEN", 0xC00204, [(0x10, 16)], 0x0,
    [⟨0, 32, .ro⟩]⟩,
  ⟨"VIS_CAMs_PEND", 0xC00208, [(0x10, 16)], 0x0,
    [⟨0, 32, .ro⟩]⟩,
  ⟨"VIS_CAMs_EFF", 0xC0020C, [(0x10, 16)], 0x0,
    [⟨0, 28, .ro⟩, ⟨28, 4, .rsv⟩]⟩,
  ⟨"VIS_CAMs_ALOST", 0xC00300, [(0x4, 16)], 0x0,
    [⟨0, 16, .rc⟩, ⟨16, 3, .ro⟩, ⟨19, 13, .rsv⟩]⟩,
  ⟨"VIS_REG_CTRL", 0xC00400, [], 0x0,
    [⟨0, 8, .rw⟩, ⟨8, 4, .rw⟩, ⟨12, 1, .rw⟩, ⟨13, 19, .rsv⟩]⟩]

/-- Registers from 0xC00404 up to 0xC00430. -/
def group22 : List Desc := [
  ⟨"VIS_REG_GAIN", 0xC00404, [], 0x20000,
    [⟨0, 20, .rw⟩, ⟨20, 12, .ro⟩]⟩,
  ⟨"VIS_REG_DEAD", 0xC00408, [], 0x0,
    [⟨0, 8, .rw⟩, ⟨8, 8, .rw⟩, ⟨16, 16, .rw⟩]⟩,
  ⟨"VIS_REGn_STAT", 0xC00410, [(0x4, 8)], 0x0,
    [⟨0, 1, .w1c⟩, ⟨1, 19, .rsv⟩, ⟨20, 4, .ro⟩, ⟨24, 8, .ro⟩]⟩]

/-- Registers from 0x1000000 up to 0x1800000, those from 0x1000000. -/
def group23p0 : List Desc := [
  ⟨"STNn_PCFG", 0x1000000, [(0x100000, 8)], 0x0,
    [⟨0, 17, .ro⟩, ⟨17, 3, .rsv⟩, ⟨20, 2, .ro⟩, ⟨22, 2, .rsv⟩, ⟨24, 1, .ro⟩, ⟨25, 1, .ro⟩, ⟨26, 1, .ro⟩, ⟨27, 4, .rsv⟩, ⟨31, 1, .ro⟩]⟩,
  ⟨"STNn_SEG", 0x1000004, [(0x100000, 8)], 0x0,
    [⟨0, 7, .ro⟩, ⟨7, 9, .rsv⟩, ⟨16, 13, .ro⟩, ⟨29, 3, .rsv⟩]⟩,
  ⟨"STNn_TAGLVL", 0x1000008, [(0x100000, 8)], 0x40000,
    [⟨0, 20, .ro⟩, ⟨20, 12, .ro⟩]⟩,
  ⟨"STNn_SCRSIZE", 0x100000C, [(0x100000, 8)], 0x88888888,
    [⟨0, 8, .ro⟩, ⟨8, 8, .ro⟩, ⟨16, 8, .ro⟩, ⟨24, 8, .ro⟩]⟩,
  ⟨"STNn_CFGSTAT", 0x1000010, [(0x100000, 8)], 0x0,
    [⟨0, 8, .ro⟩, ⟨8, 8, .ro⟩, ⟨16, 8, .ro⟩, ⟨24, 5, .ro⟩, ⟨29, 2, .rsv⟩, ⟨31, 1, .ro⟩]⟩,
  ⟨"STNn_SCRSEL", 0x1000014, [(0x100000, 8)], 0x0,
    [⟨0, 2, .rw⟩, ⟨2, 30, .rsv⟩]⟩,
  ⟨"STNn_LBCAP", 0x1000020, [(0x100000, 8)], 0x0,
    [⟨0, 16, .ro⟩, ⟨16, 16, .ro⟩]⟩,
  ⟨"STNn_LBBYTES", 0x1000024, [(0x100000, 8)], 0x0,
    [⟨0, 24, .ro⟩, ⟨24, 8, .rsv⟩]⟩,
  ⟨"STNn_LEVEL", 0x1000028, [(0x100000, 8)], 0x0,
    [⟨0, 16, .ro⟩, ⟨16, 16, .rc⟩]⟩,
  ⟨"STNn_STAT", 0x100002C, [(0x100000, 8)], 0x0,
    [⟨0, 1, .ro⟩, ⟨1, 1, .ro⟩, ⟨2, 2, .rsv⟩, ⟨4, 2, .ro⟩, ⟨6, 2, .rsv⟩, ⟨8, 1, .w1c⟩, ⟨9, 1, .w1c⟩, ⟨10, 1, .w1c⟩, ⟨11, 13, .rsv⟩, ⟨24, 8, .ro⟩]⟩,
  ⟨"STNn_UNDERRUNS", 0x1000030, [(0x100000, 8)], 0x0,
    [⟨0, 16, .rc⟩, ⟨16, 16, .rsv⟩]⟩,
  ⟨"STNn_RELOAD", 0x1000034, [(0x100000, 8)], 0x0,
    [⟨0, 32, .ro⟩]⟩,
  ⟨"STNn_DECk", 0x1000100, [(0x100000, 8), (0x4, 4)], 0x0,
    [⟨0, 15, .ro⟩, ⟨15, 5, .rsv⟩, ⟨20, 4, .ro⟩, ⟨24, 6, .ro⟩, ⟨30, 1, .ro⟩, ⟨31, 1, .ro⟩]⟩,
  ⟨"STNn_GEOM", 0x1001000, [(0x100000, 8)], 0x0,
    [⟨0, 6, .ro⟩, ⟨6, 6, .rsv⟩, ⟨12, 1, .ro⟩, ⟨13, 1, .ro⟩, ⟨14, 2, .rsv⟩, ⟨16, 4, .ro⟩, ⟨20, 4, .ro⟩, ⟨24, 8, .rsv⟩]⟩,
  ⟨"STNn_WIN", 0x1001004, [(0x100000, 8)], 0x0,
    [⟨0, 6, .ro⟩, ⟨6, 2, .rsv⟩, ⟨8, 6, .ro⟩, ⟨14, 2, .rsv⟩, ⟨16, 2, .ro⟩, ⟨18, 6, .rsv⟩, ⟨24, 6, .ro⟩, ⟨30, 1, .rsv⟩, ⟨31, 1, .ro⟩]⟩,
  ⟨"STNn_SWEEP", 0x1001008, [(0x100000, 8)], 0x0,
    [⟨0, 32, .ro⟩]⟩,
  ⟨"STNn_BASE", 0x100100C, [(0x100000, 8)], 0x0,
    [⟨0, 32, .ro⟩]⟩,
  ⟨"STNn_SWEEPNO", 0x1001010, [(0x100000, 8)], 0x0,
    [⟨0, 4, .ro⟩, ⟨4, 28, .ro⟩]⟩,
  ⟨"STNn_PXCTL", 0x1001014, [(0x100000, 8)], 0x0,
    [⟨0, 8, .ro⟩, ⟨8, 8, .rsv⟩, ⟨16, 3, .ro⟩, ⟨19, 12, .rsv⟩, ⟨31, 1, .ro⟩]⟩,
  ⟨"STNn_PXFRAC", 0x1001018, [(0x100000, 8)], 0x0,
    [⟨0, 32, .ro⟩]⟩,
  ⟨"STNn_MAG", 0x100101C, [(0x100000, 8)], 0x0,
    [⟨0, 32, .ro⟩]⟩,
  ⟨"STNn_HEAD", 0x1001020, [(0x100000, 8)], 0x0,
    [⟨0, 16, .ro⟩, ⟨16, 1, .ro⟩, ⟨17, 1, .ro⟩, ⟨18, 1, .ro⟩, ⟨19, 13, .rsv⟩]⟩,
  ⟨"STNn_HTG", 0x1001024, [(0x100000, 8)], 0x40000,
    [⟨0, 20, .ro⟩, ⟨20, 12, .ro⟩]⟩,
  ⟨"STNn_ESTAT", 0x1001028, [(0x100000, 8)], 0x0,
    [⟨0, 1, .w1c⟩, ⟨1, 1, .w1c⟩, ⟨2, 1, .w1c⟩, ⟨3, 1, .w1c⟩, ⟨4, 1, .w1c⟩, ⟨5, 1, .w1c⟩, ⟨6, 1, .w1c⟩, ⟨7, 1, .w1c⟩, ⟨8, 1, .w1c⟩, ⟨9, 23, .rsv⟩]⟩,
  ⟨"STNn_SLIP", 0x100102C, [(0x100000, 8)], 0x0,
    [⟨0, 32, .ro⟩]⟩]

/-- Registers from 0x1000000 up to 0x1800000, those from 0x1001030. -/
def group23p1 : List Desc := [
  ⟨"STNn_BDMISS", 0x1001030, [(0x100000, 8)], 0x0,
    [⟨0, 16, .rc⟩, ⟨16, 16, .rsv⟩]⟩,
  ⟨"STNn_EMk", 0x1001100, [(0x100000, 8), (0x4, 40)], 0x0,
    [⟨0, 20, .ro⟩, ⟨20, 2, .ro⟩, ⟨22, 1, .ro⟩, ⟨23, 1, .ro⟩, ⟨24, 2, .ro⟩, ⟨26, 1, .w1c⟩, ⟨27, 5, .rsv⟩]⟩,
  ⟨"STNn_WUSEDk", 0x1001200, [(0x100000, 8), (0x4, 40)], 0x0,
    [⟨0, 32, .ro⟩]⟩,
  ⟨"STNn_WREMk", 0x1001300, [(0x100000, 8), (0x4, 40)], 0x0,
    [⟨0, 32, .ro⟩]⟩,
  ⟨"STNn_BOWs", 0x1004000, [(0x100000, 8), (0x4, 4096)], 0x0,
    [⟨0, 8, .rw⟩, ⟨8, 24, .sign⟩]⟩,
  ⟨"STNn_LCTRL", 0x1008000, [(0x100000, 8)], 0x0,
    [⟨0, 1, .wo⟩, ⟨1, 1, .rw⟩, ⟨2, 30, .rsv⟩]⟩,
  ⟨"STNn_LSTAT", 0x1008004, [(0x100000, 8)], 0x0,
    [⟨0, 3, .ro⟩, ⟨3, 5, .rsv⟩, ⟨8, 1, .ro⟩, ⟨9, 1, .ro⟩, ⟨10, 1, .ro⟩, ⟨11, 1, .ro⟩, ⟨12, 4, .ro⟩, ⟨16, 16, .ro⟩]⟩,
  ⟨"STNn_LERR", 0x1008008, [(0x100000, 8)], 0x0,
    [⟨0, 1, .w1c⟩, ⟨1, 1, .w1c⟩, ⟨2, 1, .w1c⟩, ⟨3, 1, .w1c⟩, ⟨4, 1, .w1c⟩, ⟨5, 1, .w1c⟩, ⟨6, 1, .w1c⟩, ⟨7, 25, .rsv⟩]⟩,
  ⟨"STNn_LCOUNT", 0x100800C, [(0x100000, 8)], 0x0,
    [⟨0, 12, .rc⟩, ⟨12, 12, .rc⟩, ⟨24, 8, .rc⟩]⟩,
  ⟨"STNn_LMARGIN", 0x1008010, [(0x100000, 8)], 0x7FFFFFFF,
    [⟨0, 32, .rc⟩]⟩,
  ⟨"STNn_DCAP0", 0x1008020, [(0x100000, 8)], 0x0,
    [⟨0, 16, .ro⟩, ⟨16, 16, .ro⟩]⟩,
  ⟨"STNn_DCAP1", 0x1008024, [(0x100000, 8)], 0x0,
    [⟨0, 6, .ro⟩, ⟨6, 2, .rsv⟩, ⟨8, 4, .ro⟩, ⟨12, 1, .ro⟩, ⟨13, 3, .rsv⟩, ⟨16, 16, .ro⟩]⟩,
  ⟨"STNn_DCAP2", 0x1008028, [(0x100000, 8)], 0x0,
    [⟨0, 32, .ro⟩]⟩,
  ⟨"STNn_DSERIAL", 0x100802C, [(0x100000, 8)], 0x0,
    [⟨0, 32, .ro⟩]⟩,
  ⟨"STNn_BDTS", 0x1008030, [(0x100000, 8)], 0x0,
    [⟨0, 32, .ro⟩]⟩,
  ⟨"STNn_LIVk", 0x1008100, [(0x100000, 8), (0x4, 40)], 0x0,
    [⟨0, 16, .ro⟩, ⟨16, 16, .ro⟩]⟩,
  ⟨"STNn_CELL", 0x1010000, [(0x100000, 8), (0xA0, 4096), (0x4, 40)], 0x40000,
    [⟨0, 20, .rw⟩, ⟨20, 12, .ro⟩]⟩,
  ⟨"STNn_MASKt", 0x10B0000, [(0x100000, 8), (0x80, 6), (0x4, 32)], 0x0,
    [⟨0, 32, .ro⟩]⟩,
  ⟨"STNn_FACETf", 0x10B0400, [(0x100000, 8), (0x8, 12)], 0x0,
    [⟨0, 16, .ro⟩, ⟨16, 16, .rsv⟩]⟩,
  ⟨"STNn_FGAINf", 0x10B0404, [(0x100000, 8), (0x8, 12)], 0x40000,
    [⟨0, 20, .ro⟩, ⟨20, 12, .ro⟩]⟩,
  ⟨"STNn_FILLs", 0x10B4000, [(0x100000, 8), (0x4, 4096)], 0x40000,
    [⟨0, 20, .ro⟩, ⟨20, 12, .ro⟩]⟩,
  ⟨"STNn_SCR", 0x10C0000, [(0x100000, 8), (0x400, 256), (0x4, 256)], 0x80000,
    [⟨0, 20, .rw⟩, ⟨20, 12, .ro⟩]⟩]

/-- Registers from 0x1000000 up to 0x1800000. -/
def group23 : List Desc := group23p0 ++ group23p1

/-- Registers from 0x1800000 up to 0x1801400. -/
def group24 : List Desc := [
  ⟨"SPAR_CTRL", 0x1800000, [], 0x0,
    [⟨0, 1, .rw⟩, ⟨1, 31, .rsv⟩]⟩,
  ⟨"SPAR_STAT", 0x1800004, [], 0x0,
    [⟨0, 14, .ro⟩, ⟨14, 2, .rsv⟩, ⟨16, 1, .ro⟩, ⟨17, 1, .ro⟩, ⟨18, 2, .rsv⟩, ⟨20, 8, .ro⟩, ⟨28, 4, .rsv⟩]⟩,
  ⟨"SPAR_HOSTn", 0x1801000, [(0x4, 128)], 0x0,
    [⟨0, 32, .rw⟩]⟩,
  ⟨"SPAR_FABn", 0x1801200, [(0x4, 128)], 0x0,
    [⟨0, 32, .ro⟩]⟩]

/-- The registers of the map in groups that do not overlap, by rising offset: where a group ends, and its registers. -/
def groups : List (Nat × List Desc) := [
  (0x100014, group0), (0x10200C, group1), (0x103260, group2), (0x104030, group3), (0x105008, group4),
  (0x10807C, group5), (0x200010, group6), (0x204040, group7), (0x301008, group8), (0x309000, group9),
  (0x311200, group10), (0x400050, group11), (0x410218, group12), (0x410220, group13), (0x800BD8, group14),
  (0x801080, group15), (0x802C00, group16), (0x8047F8, group17), (0x8048E4, group18), (0x8057F4, group19),
  (0x815000, group20), (0xC00404, group21), (0xC00430, group22), (0x1800000, group23), (0x1801400, group24)]

/-- Every register of the map. -/
def all : List Desc := groups.flatMap (·.2)

/-- The instance numbers, from the dimensions left, of a distance `rel` from the first instance; none where the
distance names no instance. -/
def inst : List (Nat × Nat) → Nat → Option (List Nat)
  | [], rel => if rel = 0 then some [] else none
  | (stride, count) :: ds, rel =>
    if rel / stride < count then (inst ds (rel % stride)).map (rel / stride :: ·) else none

/-- The instance numbers of `off` as a place of register `d`. -/
def Desc.inst? (d : Desc) (off : Nat) : Option (List Nat) :=
  if off < d.base then none else RegTable.inst d.dims (off - d.base)

/-- The register at a BAR0 offset, with its instance numbers; none where the offset is unoccupied (R425 step 3). -/
def find (off : Nat) : Option (Desc × List Nat) :=
  match groups.find? fun g => Nat.blt off g.1 with
  | some g => g.2.findSome? fun d => (d.inst? off).map fun is => (d, is)
  | none => none

end RegTable
end Sys2Proof.Machine
end

