-- ==== Sys2Proof/Machine/Bank.lean ====
section
/-!
DEFINITION. A bank: a finite map from a number (an offset, an address, an instance number) to a value, as plain data
in one canonical form: keys strictly rising, and no entry equal to what an unlisted key reads as. The default of a
key is given at each use (a register's reset value, a byte of untouched memory, a unit as reset leaves it).
-/

namespace Sys2Proof.Machine

/-- Entries of a sparse map, keys rising. -/
abbrev Bank (α : Type) := List (Nat × α)

/-- The value of key `k`, `d` where it is not listed. -/
def bankGet {α : Type} (d : α) : Bank α → Nat → α
  | [], _ => d
  | e :: r, k => if e.1 = k then e.2 else bankGet d r k

/-- Every entry but those of key `k`. -/
def bankErase {α : Type} (k : Nat) : Bank α → Bank α
  | [] => []
  | e :: r => if e.1 = k then bankErase k r else e :: bankErase k r

/-- Entry `(k, v)` put in before the first larger key. -/
def bankInsert {α : Type} (k : Nat) (v : α) : Bank α → Bank α
  | [] => [(k, v)]
  | e :: r => if k < e.1 then (k, v) :: e :: r else e :: bankInsert k v r

/-- The map with key `k` at `v`, where an unlisted `k` reads as `d`. -/
def bankPut {α : Type} [DecidableEq α] (d : α) (k : Nat) (v : α) (b : Bank α) : Bank α :=
  if v = d then bankErase k b else bankInsert k v (bankErase k b)

/-- The canonical form: keys strictly rising and no entry equal to its key's default. -/
def bankWf {α : Type} [DecidableEq α] (d : Nat → α) : Bank α → Bool
  | [] => true
  | e :: r => decide (e.2 ≠ d e.1) && r.all (fun f => decide (e.1 < f.1)) && bankWf d r

end Sys2Proof.Machine
end

