-- ==== Sys2Proof/Machine/Units.lean ====
section
/-!
DEFINITION. The state that the spec gives the units beside their registers: what an engine works on, what it holds in
queues, what it has been told and not yet reported. A unit's registers are in State's register bank; nothing is held
twice. Every field's initial value is its value after a chip reset.
-/

namespace Sys2Proof.Machine

/-- A reading of the time counter (R360): seconds, nanoseconds, 2^-32 ns. -/
structure Time where
  sec : Nat := 0
  ns : Nat := 0
  frac : Nat := 0
  deriving DecidableEq, Repr

/-! ## Output: what the block shows outside -/

/-- A completion entry as written to a ring in host memory (R66). `phase` is FLAGS bit 0. -/
structure Cqe where
  cid : Nat
  aux : Nat
  op : Nat
  status : Nat
  engine : Nat
  phase : Nat
  result : Nat
  deriving DecidableEq, Repr

/-- Halyard event lines that this manual's rules drive, as the part shows them outside (R34). -/
inductive Event where
  | feedReq (level : Bool)
  | spoil (level : Bool)
  | divert
  | camTrig (stream : Nat)
  | monAlarm (mon : Nat)
  | dmaDone (chan : Nat)
  | tpo (out : Nat)
  | axDone (axis : Nat)
  | agDone (group : Nat)
  | pwsMark
  | loop (n : Nat) (level : Bool)
  | trace (u : Nat)
  | reef (level : Nat)
  | interlock (k : Nat) (isOpen : Bool)
  | gate (h : Nat) (level : Bool)
  | sof (port : Nat)
  | eof (port : Nat)
  | polyLock (chan : Nat) (level : Bool)
  | mcFault (chan : Nat)
  | fabric (k : Nat)
  deriving DecidableEq, Repr

/-- What a UDP datagram of the device bears (R84, R372, R373): the MAC and IP address it goes to and comes from, over
IPv4 or IPv6, and its ports. -/
structure UdpHead where
  mac : Nat
  ip6 : Bool
  ip : Nat
  srcMac : Nat
  srcIp : Nat
  sport : Nat := 7190
  dport : Nat := 7190
  deriving DecidableEq, Repr

/-- One thing the block does that is visible outside it, in the order done. -/
inductive Out where
  /-- a completion entry written to slot `slot` of pair `q`'s ring (R59, R64) -/
  | cqe (q slot : Nat) (e : Cqe)
  /-- an MSI-X message of vector `v` (R55) -/
  | msix (v : Nat)
  /-- the bytes a BAR0 read returned, in their places of the word; 0 where it addresses none (R6) -/
  | read (off : Nat) (v : Word)
  /-- the bytes a BAR2 or DRAM read returned, and whether they were poisoned (R54, R392) -/
  | data (bytes : List Byte) (poisoned : Bool)
  /-- a write request to host memory (R59), whether it is snooped (R405), and its Relaxed Ordering attribute, which no
  write of the device sets (R51) -/
  | host (addr : Nat) (bytes : List Byte) (snooped : Bool) (relaxed : Bool := false)
  /-- a read request to host memory, of at most 4,096 bytes (R51), and whether it is snooped (R57, R405) -/
  | hostRead (addr len : Nat) (snooped : Bool)
  /-- an AER report of a poisoned write (R54, R55) -/
  | aerPoison
  /-- an AER report of a host read that failed (R55, R406): 0 a poisoned completion, 1 a completion timeout, 2 an error
  completion -/
  | aerHostRead (kind : Nat)
  /-- a halyard event -/
  | event (e : Event)
  /-- the events `e` shown in this cycle do not happen after all: an earlier happening of the cycle, taken after them, rules
  them out (R108, R264) -/
  | undone (e : Event)
  /-- a packet on station `n`'s link (R183) -/
  | packet (n : Nat) (bytes : List Byte)
  /-- 8 DARK blocks on every active lane of station `n`'s link, with their reason (R197) -/
  | dark (n reason : Nat)
  /-- an Ethernet frame sent on a port, and the FCS appended to it (R375, R373) -/
  | frame (port : Nat) (bytes : List Byte) (fcs : Word)
  /-- a REP-lite datagram sent in a frame of a port (R84): its addresses and UDP ports, its header and entry -/
  | repl (port : Nat) (head : UdpHead) (bytes : List Byte)
  /-- a CCI register write: port, device address, register, the bytes of the value as sent (R209, R212) -/
  | cci (port dev reg : Nat) (bytes : List Byte)
  /-- phase duties of a motor channel (R235) -/
  | duty (chan u v w : Nat)
  /-- a train of test vectors of a motor channel (R244): electrical angles in order, I_TEST in quarters of 2^-18 I_FS,
  the longest pulse in us; each pulse but the first waits for 1 % of I_FS -/
  | testVectors (chan : Nat) (angles : List Nat) (iTest tPulse : Nat)
  /-- step edges of an axis in a tick: count and direction (R254) -/
  | steps (axis : Nat) (n : Int)
  /-- HV drive duty of a channel, as an exact fraction of the period (R293) -/
  | hvDrive (chan num den : Nat)
  /-- a heater's gate fired for a half-cycle (R303, R304): its mode, in phase angle mode the angle as a share of pi in
  2^-16 and the period T in us (the delay from the crossing is that share of T / 2), GATE_US, and the heater's crossings: thirds of a period after those of ZC, which lie so many us before the
  edges -/
  | fire (h mode : Nat) (delay : Option (Fin 65536 × Nat)) (gateUs third early : Nat)
  /-- timed pulse output level (R368) -/
  | tpoPin (k : Nat) (level : Bool)
  /-- a flash read issued (R38): command and address; and its end, after so many bytes -/
  | qspi (cmd addr : Nat)
  | qspiEnd (bytes : Nat)
  /-- a 32-bit word strobed into the spar fabric (R50) -/
  | spar (n : Nat) (v : Word)
  /-- a DRAM command issued to a channel: 1 mode register write, 4 calibration, 5 refresh, 6 DRFM,
  7 a neighbour row, 8 a corrected burst written back (R379, R388, R389, R391) -/
  | dram (chan op a b : Nat)
  deriving DecidableEq, Repr

/-! ## Host interface (03_host_rep.md) -/

/-- A finished completion waiting to be written (R64): the engine state is fixed only where a rule fixes it (R72). -/
structure Post where
  cid : Nat
  op : Nat
  status : Nat
  result : Nat
  aux : Option Nat := none
  engine : Option Nat := none
  deriving DecidableEq, Repr

/-- Queue-pair state beside its registers (R62-R64, R83): stopped by DB_ERR, wraps of the completion ring, held
completions oldest first. -/
structure Qp where
  stopped : Bool := false
  wraps : Nat := 0
  held : List Post := []
  /-- queued commands that a closing session completes with VERSION (R77) -/
  doomed : Nat := 0
  deriving DecidableEq, Repr

/-- A command in progress: its pair, tag and opcode (R65). -/
structure InProg where
  q : Nat
  cid : Nat
  op : Nat
  deriving DecidableEq, Repr

/-- A command that its pair may not start yet, for want of space in the completion ring (R64, R65). -/
structure HeldCmd where
  q : Nat
  cid : Nat
  op : Nat
  cmd : Instr
  deriving DecidableEq, Repr

/-- A TIME_EVENT held until its time (R366). -/
structure TimeEv where
  q : Nat
  cid : Nat
  sec : Nat
  ns : Nat
  deriving DecidableEq, Repr

/-- The live result of a mailbox (R78); its SEQ is in MBXn_HDR. -/
structure Mbx where
  tag : Nat := 0
  gen : Nat := 0
  data : List Nat := []
  deriving DecidableEq, Repr

/-- A notification a partner has not acknowledged (R86): SEQ, entry, times sent. -/
structure Notif where
  seq : Nat
  entry : List Byte
  sent : Nat
  deriving DecidableEq, Repr

/-- A REP-lite session (R85, R373): port, the MAC and IP address of its HELLO, negotiated version, last SEQ sent, highest SEQ received in order. -/
structure Repl where
  num : Nat
  port : Nat
  mac : Nat
  ip : Nat
  /-- IPv6, else IPv4 -/
  ip6 : Bool := false
  version : Nat
  seq : Nat := 0
  rx : Nat := 0
  waiting : List Notif := []
  deriving DecidableEq, Repr

/-- A LOG_READ copy under way (R68). -/
structure LogCopy where
  q : Nat
  cid : Nat
  dst : Nat
  bytes : List Byte
  size : Nat
  ns : Bool := false
  deriving DecidableEq, Repr

/-- Host-interface state. -/
structure HostU where
  qp : Bank Qp := []
  inProg : List InProg := []
  /-- commands held by full completion rings, in the order they came -/
  heldCmds : List HeldCmd := []
  /-- BYE or SESSION_CLOSE waiting for started commands (R77): the pair and tag of the BYE to complete -/
  closing : Option (Option (Nat × Nat)) := none
  tev : List TimeEv := []
  mbx : Bank Mbx := []
  repl : List Repl := []
  logs : List LogCopy := []
  /-- size of the BAR2 window in bytes: 16 GiB by default (R53) -/
  bar2 : Nat := 2 ^ 34
  /-- the negotiated payload of the link, 128 x 2^n bytes up to 512 (R51, R397); 128 until the host configures more
  (PRESUMED, assumption log 93) -/
  payload : Fin 3 := 0
  deriving DecidableEq, Repr

/-! ## Error records (20_monitors_errors.md) -/

/-- The latest record of a block (R416): class and instance, code, severity, slot, clock at
the first occurrence. -/
structure Latest where
  cls : Nat
  inst : Nat
  code : Nat
  sev : Nat
  slot : Fin 256
  at_ : Nat
  deriving DecidableEq, Repr

/-- Error-record state beside the ERR registers. -/
structure ErrU where
  latest : List Latest := []
  /-- SEQ of the latest CONTAINED record of a block (class x 256 + instance), and of the latest REGION_FATAL record of a
  region with its block (R420) -/
  conts : List (Nat × Nat) := []
  fatals : List (Nat × Nat × Nat) := []
  /-- the cycle in which the root last raised its vector (R428) -/
  irqAt : Option Nat := none
  /-- fatal records waiting for the NVM write window of R342, oldest first -/
  nvmWait : List (List Nat) := []
  /-- regions held in reset (R421), by region number -/
  regionReset : List Nat := []
  /-- regions with a REGION_FATAL error not yet recovered (R17, R75) -/
  faulted : List Nat := []
  deriving DecidableEq, Repr

/-! ## Passage (05_passage.md) and the codec (04_raster_codec.md) -/

/-- A plane descriptor as the device keeps it (R88-R91): band tables as (address, length). -/
structure Plane where
  kind : Nat := 0
  ctRes : Nat := 0
  procRes : Nat := 0
  bandH : Nat := 0
  width : Nat := 0
  ct : List (Nat × Nat) := []
  tg : List (Nat × Nat) := []
  deriving DecidableEq, Repr

/-- A band, in its context: station, table (0 contone, 1 tag or pre-screened), index. -/
structure BandId where
  ctx : Nat
  stn : Nat
  tbl : Nat
  idx : Nat
  deriving DecidableEq, Repr

/-- What a context carries beside PCTXn_STATE, _SHEET and _ORG (R107-R125). Lists of eight are by station. -/
structure Ctx where
  /-- commit order (R65, R100) -/
  seq : Nat := 0
  pair : Nat := 0
  cid : Nat := 0
  /-- SHEET_COMMIT not yet completed -/
  open_ : Bool := false
  lines : Nat := 0
  repeat_ : Nat := 0
  planes : List Plane := []
  ofs : List (Int × Int × Int) := []
  bytes : Nat := 0
  demand : Nat := 0
  smax : Nat := 0
  /-- bands not yet verified -/
  unverified : Nat := 0
  inDec : Nat := 0
  failed : Option (BandId × Nat) := none
  rate : Nat := 0
  passes : Nat := 0
  trim : Int := 0
  lineOfs : List Int := []
  p64 : List Int := []
  mag : List Int := []
  gen : List Nat := []
  fedAt : Time := {}
  endAt : Time := {}
  ended : Bool := false
  /-- its state when the fault struck it that its end bears (R23) -/
  was : Nat := 0
  ackFront : Nat := 0
  awaiting : Bool := false
  hasOrigin : Bool := false
  fed : Bool := false
  /-- stations whose prefetch trigger and whose T_n have fired -/
  fetched : Nat := 0
  trigd : Nat := 0
  camd : Nat := 0
  imagingAt : Nat := 0
  /-- registration epochs of the stations and number of the PTRIM in force, as it entered FEEDING (R230, R231) -/
  epochs : List Nat := []
  trimSeq : Nat := 0
  /-- the SHEET_DONE goes to ring 0, its pair having been disabled (R83) -/
  ring0 : Bool := false
  /-- the clock at which a position crossing last moved it, and its state before the crossings of that PSQ cycle (R108) -/
  moved : Option (Nat × Nat) := none
  /-- the removal of the jammed sheet is confirmed (R71) -/
  cleared : Bool := false
  deriving DecidableEq, Repr

/-- An emitter's state in a generation (R164): 0 LIVE, 1 WEAK, 2 DEAD; handling; boost. -/
structure Emit where
  st : Nat := 0
  hand : Nat := 0
  boost : Nat := 0
  deriving DecidableEq, Repr

/-- A station configuration generation (R132, R153, R189). `load` is LOAD; the addresses are those of its tables. -/
structure Gen where
  num : Nat := 0
  /-- its place in the order of acceptance, which unlike the number never recurs -/
  id : Nat := 0
  enable : Bool := false
  width : Nat := 0
  segw : Nat := 4
  ctMax : Nat := 0
  screen : Nat := 0
  mirror : Bool := false
  tagLvl : Nat := 0x40000
  load : Nat := 0
  procRes : Nat := 0
  scrSize : Nat := 0x88888888
  cells : Nat := 0
  bow : Nat := 0
  scr : List Nat := []
  eCount : Nat := 0
  pitch : Nat := 0
  facets : Nat := 0
  flags : Nat := 0
  win : List (Nat × Nat) := []
  rpmMax : Nat := 0
  pxpf : Nat := 0
  htWarn : Int := 0
  htCrit : Int := 0
  htRef : Int := 0
  htCoef : Nat := 0
  wear : Nat := 0
  /-- pass masks (192 words), fill profile (4,096) and facet table (FSTART, FGAIN); empty stands for the reset
  contents of R154 -/
  mask : List Nat := []
  fill : List Nat := []
  facet : List (Int × Nat) := []
  emit : List Emit := []
  codeTbl : List Nat := []
  alMin : Nat := 0x0100
  alMax : Nat := 0x0200
  burst : Nat := 4
  liv : Bool := false
  livPeriod : Nat := 0
  /-- the 256-byte block it was made from, which a STATION_CFG with CFG_ADDR 0 re-issues (R133) -/
  block : List Byte := []
  deriving DecidableEq, Repr

/-- What a context that enters FEEDING carries, as it stood before the changes of one PSQ cycle (R20, R335): the clock of
that cycle, the registers PSQ_SPEED, PSQ_PTRIM and THM_CEIL, the reef level, the trim in force and its number, each
station's newest generation and adjustments, the registration epochs, and a web run in progress. -/
structure Prior where
  at_ : Nat
  regs : List Word
  reef : Nat
  trim : Int
  trimSeq : Nat
  newest : List Gen
  adjust : List (Int × Int × Int)
  epochs : Bank Nat
  web : Bool
  deriving DecidableEq, Repr

/-- Passage-sequencer state beside the PSQ registers (R116-R126). -/
structure PsqU where
  pos : Nat := 0
  front : Nat := 0
  lastRaw : Nat := 0
  commits : Nat := 0
  web : Bool := false
  webOrigin : Nat := 0
  webRepeat : Nat := 0
  /-- the last context fed: its trail (origin + LINES x CPL_eff), RATE, PASSES, and its origin known -/
  lastTrail : Option Nat := none
  lastRate : Nat := 0
  lastPasses : Nat := 0
  trim : Int := 0
  /-- changes of the trim in force (R231) -/
  trimSeq : Nat := 0
  /-- the first context fed after an ENGINE_START passes a boundary (R125) -/
  startBoundary : Bool := false
  /-- boundary steps passed: 0 none, 2 path clear and speeds commanded -/
  bstep : Nat := 0
  brate : Nat := 0
  bpasses : Nat := 0
  /-- speeds commanded to the polygons (RATE and A) and to the belt (line rate), with the PASSES they were commanded for
  (R125, R454) -/
  sweeps : Bank (Nat × Nat) := []
  belt : Nat := 0
  beltPasses : Nat := 0
  beltTrim : Int := 0
  /-- the drain ends in FAULT (R17 HNT) instead of FURLED; the cause a drain gives -/
  drainFault : Bool := false
  spoilOut : Bool := false
  /-- the next context fed is the first after a speed boundary -/
  newSpeed : Bool := false
  /-- the engine was in the state where a fatal error leaves it until a reset (R17) -/
  chipFatal : Bool := false
  /-- a hard stop is in force (R292) -/
  stopInForce : Bool := false
  /-- sheets delivered, spoiled and jammed since reset (R326) -/
  nDelivered : Nat := 0
  nSpoiled : Nat := 0
  nJammed : Nat := 0
  /-- what held before the changes of the present PSQ cycle (R20, R108) -/
  prior : Option Prior := none
  /-- when FEED_REQ last went low by a change of one of its conditions -/
  reqFell : Option Nat := none
  deriving DecidableEq, Repr

/-- A compression, inflate or upload job (R102-R105, R218). -/
structure Job where
  q : Nat
  cid : Nat
  op : Nat
  mode : Nat
  flags : Nat
  src : Nat
  srcLen : Nat
  dst : Nat
  dstLen : Nat
  /-- source bytes given with the job (host source or held frame) -/
  data : Option (List Byte) := none
  /-- FRAME_TAG where the job is a frame upload -/
  tag : Nat := 0
  deriving DecidableEq, Repr

/-- An item of the verify queue: a band or an inflate job (R99, R105). -/
inductive VItem where
  | band (b : BandId)
  | job (j : Job)
  deriving DecidableEq, Repr

/-- Codec state beside its registers. -/
structure CodecU where
  queue : List VItem := []
  vdec : Bank (Option VItem) := []
  cmpWait : List Job := []
  cmpRun : Option Job := none
  deriving DecidableEq, Repr

/-! ## Stations (06_station_pipeline.md, 07_emitters_scan.md, 08_amonone_link.md) -/

/-- A band placed in a lead buffer (R140): its plane's lines as decoded. -/
structure LeadBand where
  b : BandId
  first : Nat
  stride : Nat
  bytes : List Byte
  deriving DecidableEq, Repr

/-- A sheet being fetched at a station (R123, R141): its untaken bands, its lines below `freed` no longer read, and
whether what is placed of it stays although it is spoiled (R101). -/
structure Fetch where
  ctx : Nat
  todo : List BandId
  freed : Nat := 0
  kept : Bool := false
  deriving DecidableEq, Repr

/-- A band in a station decoder: lines already in the lead buffer, and their bytes (R140). -/
structure DecBand where
  b : BandId
  got : Nat := 0
  bytes : List Byte := []
  deriving DecidableEq, Repr

/-- A CONTROL packet awaiting its acknowledgement (R195): type, SEQ, resends, bytes. -/
structure Ctl where
  ty : Nat
  seq : Nat
  resends : Nat := 0
  bytes : List Byte
  deriving DecidableEq, Repr

/-- A SWEEP_DATA packet of a sweep being sent: FLAGS, its fields before CODES, its codes (R191). -/
structure DataPkt where
  flags : Nat
  head : List Byte
  codes : List Nat
  deriving DecidableEq, Repr

/-- Link state of a station beside its registers (R185-R203). -/
structure LinkU where
  /-- step of training, 1-6 (R185); 0 down -/
  step : Nat := 0
  seq : Nat := 0
  /-- CAPS_SET acknowledged: later packets carry the negotiated check (R184) -/
  agreed : Bool := false
  version : Nat := 0
  waiting : List Ctl := []
  fails : Nat := 0
  /-- no retry until RETRAIN or another AL range (R186) -/
  noRetry : Bool := false
  /-- generation (Gen.id) whose tables each driver bank holds; none for a bank not loaded in this training -/
  bankGen : List (Option Nat) := [none, none]
  /-- a bank being loaded outside training, and the generation it will hold (R196) -/
  loading : Option (Nat × Nat) := none
  /-- the last 64 sweeps, newest first: number, damaged, packets discarded since -/
  recent : List (Nat × Bool × Nat) := []
  unrep : Nat := 0
  /-- sweeps sent and not yet reported: number, of a sheet -/
  unreported : List (Nat × Option Nat) := []
  /-- unreported sweeps of sheets, whose STATUS may still come (R194, R201) -/
  missed : List (Nat × Nat) := []
  /-- the last sweep of a sheet sent, its STATUS not arrived (R196) -/
  lastSweep : Option Nat := none
  /-- packets of the sweep being sent that have not left (R191, R198) -/
  sending : List DataPkt := []
  deriving DecidableEq, Repr

/-- Station state beside its registers. -/
structure Stn where
  held : List Gen := []
  /-- the sheet that a hard stop took from the station, and when (R23) -/
  jammed : Option (Nat × Time) := none
  active : Gen := {}
  newest : Gen := {}
  /-- wear accounts in 10^-6 ns (R172); the emitter table is the newest generation's -/
  wear : Bank Nat := []
  /-- the scan-unit serial that states and accounts belong to, and the emitters reported faulty (R165, R166) -/
  serial : Nat := 0
  health : Nat := 0
  boostEnd : List Nat := []
  /-- pixel clock as an exact fraction in Hz, and the PXPLL relocking at a change of it (R162, R163) -/
  px : Nat × Nat := (0, 1)
  /-- REGISTER_ADJUST values: LINE_adj, P64_adj, MAG (R73) -/
  lineAdj : Int := 0
  p64Adj : Int := 0
  magAdj : Int := 0
  /-- screen arrays by array x 65,536 + 256 y + x (R139: every entry 0x8_0000) -/
  scr : Bank Nat := []
  /-- bands in the lead buffer, the sheets being fetched, the decoders' bands -/
  lead : List LeadBand := []
  fetch : List Fetch := []
  dec : Bank (Option DecBand) := []
  lastFail : Nat := 0
  /-- underruns since reset (R152) -/
  urTotal : Nat := 0
  reloadFor : Option Nat := none
  /-- production for the sheet occupying the station -/
  started : Bool := false
  base : Int := 0
  /-- base of the sweep produced at the last edge, of a sheet -/
  own : Option Int := none
  finished : Bool := false
  dark : Bool := false
  lowLevel : Int := 32767
  lowQuery : Int := 32767
  /-- head temperature control -/
  frozen : Bool := false
  freezeFirst : Bool := false
  headT : Int := 0
  /-- beam detect: edges supplied in a row, facet marks seen, mag in use -/
  missRun : Nat := 0
  marked : Bool := false
  magNow : Int := 0
  bdPeriods : List Nat := []
  bdClock : Nat := 0
  link : LinkU := {}
  /-- NVM copy of the emitter table: serial, emitters, wear, faults reported, time (R165, R176) -/
  nvmSerial : Nat := 0
  nvmEmit : List Emit := []
  nvmWear : Bank Nat := []
  nvmHealth : Nat := 0
  nvmWritten : Nat := 0
  nvmWait : Bool := false
  deriving DecidableEq, Repr

/-! ## Clocks (16_clocks_islands.md) -/

/-- Clock state beside its registers: the clock up to which LOCK_A is pulled low by excursions (R352), the PLL being
measured (R349), and the band that each lock under way chose, or none, from the table as it stood when it began (R348). -/
structure ClkU where
  lockA : Nat := 0
  meas : Nat := 0
  cal : Bank (Option (Option Nat)) := []
  /-- host accesses that wait at the DRAM controllers' stopped islands, and the CHIP_FENCE reads behind them: offset, byte
  enables, the word of a write (R358, R359) -/
  held : List (Nat × Nat × Option Word) := []
  deriving DecidableEq, Repr

/-! ## Monitors (20_monitors_errors.md) -/

/-- A monitor's live statistics (R412). -/
structure Mon where
  /-- events of the probe modulo 2^SUB (R411) -/
  seen : Nat := 0
  lo : Int := 2147483647
  hi : Int := -2147483648
  count : Nat := 0
  bins : Bank Nat := []
  deriving DecidableEq, Repr

/-! ## DRAM (18_dram.md) -/

/-- DRAM channel state beside its registers: what the channel does (0 idle, 1 running the program, 2 verifying saved
results, 3 trained, 4 failed), TRAIN program runs made and position (R381), phase results, the pending neighbour row of
each bank (R389), corrected bursts awaiting write-back, the last FAULT for a corrected error (R391), the scrub position
as a burst number (R393). -/
structure Ddr where
  mode : Nat := 0
  runs : Nat := 0
  pc : Nat := 0
  results : List (Nat × Nat) := []
  pend : Bank Nat := []
  /-- draws of the random source to come (R389): whether each next activation is selected -/
  draw : List Bool := []
  writeBack : List Nat := []
  lastFault : Option Nat := none
  scrub : Nat := 0
  deriving DecidableEq, Repr

/-- DRAM state beside its registers. `ue`: bursts (address / 64) held uncorrectable (R392); `weak`: bursts that hold one
wrong symbol (R391); `touch`: touched MiB
(R387); the TRAIN header and program and the class weights of DRAMMAP as applied; `full`: a channel ran the full
program in this training. -/
structure DramU where
  /-- an applied image's training waits for its islands' clocks (R25) -/
  await : Bool := false
  ue : List Nat := []
  weak : List Nat := []
  touch : List Nat := []
  header : List Byte := []
  prog : List Nat := []
  weights : List Nat := []
  ddr : Bank Ddr := []
  full : Bool := false
  /-- saved training in NVM: its tag (R382: header CRC, identifiers) and each channel's results -/
  saved : Option (Nat × Nat × List (List (Nat × Nat))) := none
  saveWait : Bool := false
  forgetWait : Bool := false
  /-- manufacturer and revision identifiers of the devices -/
  ids : Nat := 0
  /-- DDRPLL stopped for self-refresh -/
  pllOff : Bool := false
  deriving DecidableEq, Repr

/-! ## Rigging (02_rigging.md) -/

/-- A write slot of a counted setting (R43): the value's words, and whether its commit word was written. -/
structure OtpSlot where
  words : List Nat
  valid : Bool
  deriving DecidableEq, Repr

/-- A HALYARD record (R31, R34): event `ev` of block `src` on a line, fed to input `inp` of block `sink`. -/
structure Route where
  line : Nat
  src : Nat
  ev : Nat
  sink : Nat
  inp : Nat
  mode : Nat
  deriving DecidableEq, Repr

/-- The image in force and its loading. -/
structure RigU where
  /-- PINMAP as (class, instance, signal), its balls with their pad settings and what they carry, HALYARD records, the owner of each SRAM bank (0 VIS, n + 1 station n), ISLANDS records (island, source, divider, kHz),
  the SPAR header, the spoil-flag TPO -/
  pins : List (Nat × Nat × Nat) := []
  pads : List (Nat × Nat × Nat × Nat × Nat) := []
  routes : List Route := []
  sram : List Nat := []
  isls : List (Nat × Nat × Nat × Nat) := []
  spar : List Byte := []
  spoilTpo : Option Nat := none
  /-- SYSPLL has locked since reset, and the boot source was read as `bootSrc` -/
  booted : Bool := false
  bootSrc : Nat := 0
  /-- the source being loaded or verified: 0 none, 1 flash primary, 2 flash secondary, 3 host, 4 NVM -/
  load : Nat := 0
  /-- the staging SRAM as the host has written it, a flash header read, the image under verification -/
  stage : Bank Byte := []
  hdr : Option (List Byte) := none
  image : List Byte := []
  /-- STATE and CAUSE of CHIP_RIGSTAT before OPEN; DEST and RIG_LOADLEN as they were at COMMIT -/
  prior : Nat × Nat := (0, 0)
  dest : Bool := false
  loadLen : Nat := 0
  /-- the counted settings HV_CEIL and SERIAL as read at chip reset -/
  hvCeil : Nat := 0
  serial : Nat := 0
  /-- counted settings: the used slots of each index, newest last (R43) -/
  otp : Bank (List OtpSlot) := []
  /-- a counted setting being programmed: index and value -/
  prog : Option (Nat × List Nat) := none
  /-- an image being copied to the NVM rigging area (R40), and that area's image -/
  storing : Option (List Byte) := none
  nvmImage : List Byte := []
  /-- a CHIP_RESET accepted and waiting for the power to be off (R427) -/
  resetWait : Bool := false
  /-- how many of the things shown outside have reached the halyard's sinks (R32) -/
  heard : Nat := 0
  deriving DecidableEq, Repr

/-! ## Motion (10_motors_foc.md to 13_hv_fuser.md) -/

/-- FOC channel state beside its registers (R242-R251): runs of BD errors inside and outside the lock window, of
periods with the residual over and under its limit, periods in OPEN and in STOPPING, speed at the start of a stop
(SQ17.3), active short, its release for the rest of a period (R243), angle (SQ1.19), the fault input low, the last
sample above OCTRIP, the position found, IPD attempts that failed, the cause of the FAULT held, the setpoint in force
from the last period (R237), the integrators of both axes and the high times for the next period in 5 ns (R235). -/
structure Mc where
  inWin : Nat := 0
  outWin : Nat := 0
  bad : Nat := 0
  good : Nat := 0
  openN : Nat := 0
  stopN : Nat := 0
  stopFrom : Int := 0
  short : Bool := false
  theta : Int := 0
  drvLow : Bool := false
  overCur : Bool := false
  pos : Nat := 0
  released : Bool := false
  tries : Nat := 0
  why : Nat := 0
  setp : Int := 0
  integD : Int := 0
  integQ : Int := 0
  duty : Option (Nat × Nat × Nat) := none
  /-- the registers in force since the last PWM period, by register (R237) -/
  taken : List (Nat × BitVec 32) := []
  deriving DecidableEq, Repr

/-- Command pin state (R241): a loss under way and the setpoint held over it. -/
structure CmdU where
  lost : Bool := false
  held : Int := 0
  deriving DecidableEq, Repr

/-- Axis state beside its registers (R254-R270): progress along the move in 0.5 x 10^-12 microsteps, speed in 10^-6
microsteps/s, distance and microsteps emitted, 10 ns units until the next edge may come, until DIR may change and until
STEP falls, the direction and the level that DIR and MRES show, the level to change to, the kind and distance that a
waiting GO latched, a GO and a STOP taken since the last tick (R264), and the encoder's alignment and backlash window,
its count followed by differences. -/
structure Ax where
  prog : Nat := 0
  vel : Nat := 0
  dist : Nat := 0
  emitted : Nat := 0
  fwd : Bool := true
  velMode : Bool := false
  byGroup : Bool := false
  wait : Nat := 0
  hold : Nat := 0
  high : Nat := 0
  dirOut : Bool := true
  shown : Nat := 0
  pendTo : Nat := 0
  latch : Bool × Int := (false, 0)
  goTick : Bool := false
  stopTick : Bool := false
  calls : List (Option (BitVec 32)) := []
  tgt0 : BitVec 32 := 0
  ended : Option Nat := none
  estop : Bool := false
  disable : Bool := false
  encBase : Int := 0
  encPos : Int := 0
  encRaw : Int := 0
  ext : Int := 0
  extFwd : Bool := true
  deriving DecidableEq, Repr

/-- Axis group state (R265-R267): the leader's progress and speed as for an axis, its distance, each member's axis and
signed distance as its GO latched them, and a GO and a STOP taken since the last tick. -/
structure Ag where
  prog : Nat := 0
  vel : Nat := 0
  dist : Nat := 0
  members : List (Nat × Int) := []
  estop : Bool := false
  goTick : Bool := false
  stopTick : Bool := false
  went : Bool := false
  ended : Option (Nat × Nat × List (Nat × Int)) := none
  deriving DecidableEq, Repr

/-- HV channel state beside its registers (R293-R301): energy released in 2^-38 fJ, the clock at the last result and
since I came to ILOAD or below, latest V and I in 2^-19 V and 2^-19 uA, runs of guard samples inside the window and
of periods inside and outside the band. -/
structure Hv where
  erel : Nat := 0
  lastAt : Option Nat := none
  quietAt : Option Nat := none
  vx : Nat := 0
  ix : Nat := 0
  guardOut : Bool := false
  guardIn : Bool := false
  inside : Nat := 0
  inBand : Nat := 0
  outBand : Nat := 0
  /-- the duty applied in the present PWM period, num and den (R293) -/
  duty : Nat × Nat := (0, 1)
  /-- the start of the latest discharge confirmation, and whether it has failed (R299) -/
  dscAt : Nat := 0
  failed : Bool := false
  /-- the latest result at which V was not below HVj_SAFE.VOLTS (R299) -/
  unsafeAt : Nat := 0
  deriving DecidableEq, Repr

/-- Heater state beside its registers (R304-R306): half-cycle accumulator (Q2.18), positive firings minus negative,
runs of samples inside and outside the band, sensor broken now, comparator tripping, gate level. -/
structure Ht where
  acc : Nat := 0
  net : Int := 0
  inBand : Nat := 0
  outBand : Nat := 0
  broken : Bool := false
  trips : Bool := false
  gate : Bool := false
  deriving DecidableEq, Repr

/-- Trace unit state (R285-R287): samples per channel newest first, ticks to the next sample, FORCE pending, the
previous value of the trigger operand, a halyard pulse seen, the trigger's index, samples still to record. -/
structure Tu where
  samples : List (List Int) := []
  dec : Nat := 0
  force : Bool := false
  prev : Option Int := none
  pulse : Bool := false
  post : Nat := 0
  deriving DecidableEq, Repr

/-- Control engine state beside its registers (R271-R288): output ports, each loop's results awaiting commit, staged
coefficient writes, low halves awaiting their high word, converter readings, PSQ speed error and its runs. -/
structure CeU where
  ports : Bank Int := []
  commits : Bank (List (Nat × Int)) := []
  staged : List (Nat × Nat) := []
  /-- held coefficient writes that await application, the first of them (R282) -/
  due : Nat := 0
  loHalf : Bank Nat := []
  conv : Bank Nat := []
  psqErr : Int := 0
  inBand : Nat := 0
  outBand : Nat := 0
  tu : Bank Tu := []
  deriving DecidableEq, Repr

/-- State of the motion units. -/
structure MotU where
  mc : Bank Mc := []
  cmd : Bank CmdU := []
  ax : Bank Ax := []
  ag : Bank Ag := []
  hv : Bank Hv := []
  ht : Bank Ht := []
  /-- zero-cross: the clock at the last edge, valid periods in a row -/
  zcAt : Option Nat := none
  zcGood : Nat := 0
  ce : CeU := {}
  deriving DecidableEq, Repr

/-! ## Vision (09_vision_registration.md) -/

/-- A region of interest (R222): place, histogram wanted, its channel and shift. -/
structure Roi where
  x : Nat
  y : Nat
  w : Nat
  h : Nat
  hist : Bool
  chan : Nat
  shift : Nat
  deriving DecidableEq, Repr

/-- A mark (R223). -/
structure Mark where
  x : Nat
  y : Nat
  w : Nat
  h : Nat
  stn : Nat
  chan : Nat
  light : Bool
  thresh : Nat
  nomU : Int
  nomV : Int
  deriving DecidableEq, Repr

/-- A settings generation (R209): the block and the tables it names, the pair and mailbox of its CAMERA_CFG. CCI writes
are (register, length, value). -/
structure CamGen where
  num : Nat := 0
  port : Nat := 0
  vc : Nat := 0
  dt : Nat := 0
  path : Nat := 0
  width : Nat := 0
  height : Nat := 0
  latency : Nat := 0
  bus : Nat := 0
  dev : Nat := 0
  cci : List (Nat × Nat × Nat) := []
  cfa : List Nat := []
  black : Nat := 0
  irk : List Int := []
  matrix : List Int := []
  edge : Nat := 0
  frames : Nat := 0
  resCount : Nat := 0
  rois : List Roi := []
  marks : List Mark := []
  regRef : Nat := 255
  camPos : Nat := 0
  sx : Int := 0
  sy : Int := 0
  ofsU : Int := 0
  ofsV : Int := 0
  swap : Bool := false
  frameAddr : Nat := 0
  resAddr : Nat := 0
  pair : Nat := 0
  mbx : Nat := 255
  deriving DecidableEq, Repr

/-- A generation applied and not yet governing (R212, R213): the frame it is written for, and its last CCI write made. -/
structure PendGen where
  gen : CamGen
  written : Nat
  sent : Bool := false
  deriving DecidableEq, Repr

/-- CCI writes of a generation not yet completed, in order of application: their time has come, and they have started. -/
structure CciJob where
  stream : Nat
  gen : CamGen
  ready : Bool
  started : Bool := false
  deriving DecidableEq, Repr

/-- An association of a context with a stream (R208): what the context recorded on entering FEEDING (R230, R231). -/
structure Assoc where
  ctx : Nat
  seq : Nat
  sheet : Nat
  epochs : List Nat
  trimSeq : Nat
  deriving DecidableEq, Repr

/-- A frame: its number since reset, its governing generation, Frame Start time, association, lines of pixel codes as
received (until stored), embedded data, marks, and whether the memory path dropped it. -/
structure Frame where
  stream : Nat
  count : Nat
  gen : CamGen
  start : Time
  assoc : Option Assoc := none
  lines : List (List Nat) := []
  emb : List Byte := []
  damaged : Bool := false
  size : Bool := false
  ended : Bool := false
  dropped : Bool := false
  stored : Bool := false
  deriving DecidableEq, Repr

/-- Stream state (R206-R213): Frame Starts since reset, the generation in force, generations pending oldest first,
associations oldest first, the frame in reception, and the frames that lie in the store (frame number, generation,
whole). -/
structure Stream where
  count : Nat := 0
  /-- Frame Starts seen when the present binding was made (R213) -/
  bound : Nat := 0
  cur : CamGen := {}
  pend : List PendGen := []
  assoc : List Assoc := []
  rx : Option Frame := none
  slots : List (Nat × CamGen × Bool) := []
  deriving DecidableEq, Repr

/-- Vision state beside its registers: per-port memory queues as (stream, frame number), frames ended and not yet
reported, the memory frame in the pipeline, uploads under way and waiting, registration epochs, the frames accumulated
for each station (A, B, EV) and for PTRIM (PTRIM in force, reference station, marks as dv and NOM_V), and the loop stopped (R232). -/
structure VisU where
  streams : Bank Stream := []
  cci : List CciJob := []
  queue : Bank (List (Nat × Nat)) := []
  held : List Frame := []
  run : Option Frame := none
  ups : List Job := []
  upWait : List (Nat × Job) := []
  epoch : Bank Nat := []
  acc : Bank (List (Int × Int × Int)) := []
  pacc : List (Nat × Nat × List (Int × Int)) := []
  /-- a station's last step: the block's clock, and the values before it (R230) -/
  stepped : Bank (Option (Nat × Int × Int × Int)) := []
  /-- the tile in progress as REEF1 began is the last of the memory frame in the pipeline (R216) -/
  lastTile : Bool := false
  stopped : Bool := false
  deriving DecidableEq, Repr

/-! ## Time, pulses, Ethernet (17_network_time.md) -/

/-- A timed pulse output (R368, R369): edges past or skipped, the time at which the output falls (ns since 0), and the
next edge fires late. -/
structure Tpo where
  next : Nat := 0
  fall : Option Nat := none
  late : Bool := false
  /-- the block's clock when the pulse in progress rose -/
  rose : Nat := 0
  deriving DecidableEq, Repr

/-- An egress timestamp (R375): SEQ_ID, MSG_TYPE and the time. -/
structure TxTs where
  seq : Nat
  ty : Nat
  ns : Nat
  sec : Nat
  deriving DecidableEq, Repr

/-- An Ethernet port: receive slots and egress timestamps, oldest first, the window frame being sent, and the REP-lite
datagrams that wait behind it (R375). -/
structure Eth where
  rx : List (List Byte) := []
  ts : List TxTs := []
  tx : Option (List Byte) := none
  wait : List (UdpHead × List Byte) := []
  deriving DecidableEq, Repr

/-- State of the time counter's increment (ns, 2^-32 ns), the pulse outputs and the ports. -/
structure NetU where
  inc : Nat × Nat := (4, 0)
  /-- the offset in ns that the next tick adds (R363) -/
  step : Option Int := none
  tpo : Bank Tpo := []
  eth : Bank Eth := []
  deriving DecidableEq, Repr

/-! ## DMA (19_dma.md) -/

/-- A range that a transfer touches: its space (1 device DRAM, 2 table window), address, length, written. -/
structure Span where
  space : Nat
  at_ : Nat
  len : Nat
  write : Bool
  deriving DecidableEq, Repr

/-- What a DMA channel does: nothing, fetches a descriptor, waits for a trigger, waits for its fence, moves bytes. -/
inductive DmaStep where
  | idle | fetch | trigger | fence | move
  deriving DecidableEq, Repr

/-- A descriptor (R396). -/
structure Desc where
  src : Nat := 0
  dst : Nat := 0
  len : Nat := 0
  ctrl : Nat := 0
  next : Nat := 0
  deriving DecidableEq, Repr

/-- DMA channel state beside its registers: its step, its descriptor, the spans of its last descriptor, the spans of
other transfers in flight together with this one, and the source in device DRAM as it stood when a descriptor between
two places of it started (R404). -/
structure Dma where
  step : DmaStep := .idle
  desc : Desc := {}
  last : List Span := []
  hazard : List Span := []
  snap : List Byte := []
  deriving DecidableEq, Repr

/-- DMA state: channels, and the clock of each timer's last pulse or start. -/
structure DmaU where
  chan : Bank Dma := []
  timer : Bank Nat := []
  deriving DecidableEq, Repr

/-! ## Power and thermal (14_power_supervision.md, 15_thermal.md) -/

/-- Why a shutdown runs (R308): an off request or fault, or a step failure and its slot. -/
inductive Down where
  | off
  | fail (cause : Nat) (slot : Option Nat)
  deriving DecidableEq, Repr

/-- What the program waits for (R321). -/
inductive PwWait where
  | none
  | time
  | good (slot : Nat)
  | drop (slot : Nat)
  deriving DecidableEq, Repr

/-- A stay save under way (R325-R328): cause, power and engine state and time at the trip, the record body at the
trip, Tj then, and whether the final copy came. -/
structure Save where
  /-- when it began -/
  begun : Nat := 0
  cause : Nat
  power : Nat
  engine : Nat
  at_ : Time
  vstay : Nat
  tj : Nat
  body : List Byte
  final : Bool := false
  deriving DecidableEq, Repr

/-- Stay-island and sequencer state beside the PWR registers. -/
structure PwrU where
  pc : Nat := 0
  wait : PwWait := .none
  n : Nat := 0
  delayMs : Nat := 0
  checkIn : Bool := true
  ledger : List Nat := []
  down : Option Down := none
  downAt : Option Nat := none
  lastSlot : Option Nat := none
  /-- slots within their glitch filter, and slots whose last overvoltage sample was above OV_CODE -/
  glitch : List Nat := []
  ovHigh : List Nat := []
  /-- rail counters in NVM, by slot x 8 + counter, and a write waiting for the window -/
  nvmCnt : Bank Nat := []
  nvmWait : Bool := false
  shadow : List Byte := []
  shadowAt : Time := {}
  save : Option Save := none
  slotA : Option (List Byte) := none
  slotB : Option (List Byte) := none
  saves : Nat := 0
  lastAborted : Bool := false
  /-- inputs at which a pulse of the block's own may still stand (R34) -/
  pulsed : List Nat := []
  /-- VSTAY has decayed and the stay island stands still (R328) -/
  lost : Bool := false
  /-- the main supplies are down (R433) -/
  supDown : Bool := false
  /-- a supply failed, or RESET_N went low, while a stay save ran, which runs to completion first (R433) -/
  failWait : Bool := false
  pinWait : Bool := false
  /-- the levels of RSs_PG as far as edges have shown them (R313) -/
  pg : List (Nat × Bool) := []
  /-- slots whose zeroed counters wait for the NVM write window (R322) -/
  clrWait : List Nat := []
  /-- when the latest step failure came, and a shutdown of it that ends, with no attempt left, in the same cycle (R312) -/
  failAt : Option Nat := none
  endDue : Bool := false
  /-- when an off request ended a WAITGOOD, and of which slot (R312) -/
  offWait : Option (Nat × Nat) := none
  deriving DecidableEq, Repr

/-- Thermal state beside the THM registers: entries of each reef level, trips, the time of the last change, highest Tj
since the last report, and the trip records in NVM by slot. -/
structure ThmU where
  entries : List Nat := [0, 0, 0]
  trips : Nat := 0
  changed : Time := {}
  peak : Int := 0
  ring : Bank (List Byte) := []
  tripSeq : Nat := 0
  /-- the latest trip record: when it was written, its slot and what that slot held; and a record that a stay save of its
  cycle precedes (R341) -/
  tripLast : Option (Nat × Nat × List Byte) := none
  tripHeld : Option (List Byte) := none
  /-- a comparator has found its diode open or shorted, and never reads below the trip level again (R340) -/
  diode : Bool := false
  deriving DecidableEq, Repr

end Sys2Proof.Machine
end

