-- ==== Sys2Proof/Machine/State.lean ====
section
/-!
DEFINITION. The state of the block: its registers, its units, its memories, its clock, what it has shown outside, and
the commands waiting. Plain data.
-/

namespace Sys2Proof.Machine

/-- The family member (R1). -/
inductive Part where
  | mlv9120 | mlv9080 | mlv9040
  deriving DecidableEq, Repr

/-- The silicon revision (R28, R37). -/
inductive Rev where
  | a0 | a1 | b0
  deriving DecidableEq, Repr

/-- Faults: none. The spec names no event at which the block stops; every error it describes is recorded and has its
effect (R16-R24). Raised by nobody. -/
inductive Fault
  deriving DecidableEq, Repr

/-- Refusals. -/
inductive Refusal where
  /-- a command whose meaning is not in the model: raised by exec's own arm only; safe (the run stops) -/
  | notModelled (mnemonic : String)
  deriving DecidableEq, Repr

/-- The block. Registers are in `regs` by BAR0 offset, an unlisted one at its reset value (Ops, `resetWord`); `mem` is
device DRAM by byte address, an unlisted byte 0 (R387). -/
structure State where
  part : Part := .mlv9120
  rev : Rev := .b0
  /-- every island except STAY is held in reset (R427, R433) -/
  inReset : Bool := false
  /-- RESET_N is low (R433) -/
  pinLow : Bool := false
  regs : Bank Word := []
  /-- what a high word, a record word or a time word was latched at (R79, R80, R361, R417), by its offset -/
  latch : Bank Word := []
  mem : List Host.Cell := []
  time : Time := {}
  /-- nanoseconds of operation, by which intervals are measured (the model's own field) -/
  clock : Nat := 0
  /-- how many open values the run has used (the model's own field) -/
  free : Nat := 0
  /-- what the block has shown outside, oldest last (the model's own field) -/
  out : List Out := []
  /-- the commands waiting, first in, first out (the model's own field) -/
  pending : List Instr := []
  host : HostU := {}
  err : ErrU := {}
  psq : PsqU := {}
  ctx : Bank Ctx := []
  codec : CodecU := {}
  stn : Bank Stn := []
  /-- the reset epoch, the count of chip resets as NVM holds it, the NVM ring of fatal records by slot with its next slot, and
  the stay island's copy of ERR_SEQ (R418, R422) -/
  epoch : Nat := 1
  epochNvm : Nat := 1
  nvmRing : Bank (List Nat) := []
  nvmNext : Nat := 0
  staySeq : Nat := 0
  dram : DramU := {}
  clk : ClkU := {}
  mon : Bank Mon := []
  rig : RigU := {}
  mot : MotU := {}
  pwr : PwrU := {}
  thm : ThmU := {}
  vis : VisU := {}
  net : NetU := {}
  dma : DmaU := {}
  deriving DecidableEq, Repr

/-- The block right after a power-on reset: every register at its reset value, every unit as reset leaves it, no
command waiting. -/
def State.reset : State := {}

end Sys2Proof.Machine
end

