-- ==== Sys2Proof/Machine/Ops.lean ====
section
/-!
DEFINITION. The named operations over registers, latches, device DRAM, the time counter, the open values and the
block's outputs, and the access classes of BAR0 (spec/00_scope.md R6-R11, spec/21_register_index.md R424-R426).
-/

namespace Sys2Proof.Machine

open Reg

/-! ## Family members (R1) -/

def Part.id : Part → Nat
  | .mlv9120 => 0x9120 | .mlv9080 => 0x9080 | .mlv9040 => 0x9040

def Part.stations : Part → Nat
  | .mlv9120 => 8 | .mlv9080 => 4 | .mlv9040 => 2

def Part.csi : Part → Nat
  | .mlv9120 => 4 | .mlv9080 => 2 | .mlv9040 => 0

def Part.foc : Part → Nat
  | .mlv9120 => 24 | .mlv9080 => 16 | .mlv9040 => 12

def Part.axes : Part → Nat
  | .mlv9120 => 48 | .mlv9080 => 32 | .mlv9040 => 24

def Part.cells : Part → Nat
  | .mlv9040 => 4096 | _ => 8192

def Part.ddr : Part → Nat
  | .mlv9040 => 1 | _ => 2

def Part.eth : Part → Nat
  | .mlv9040 => 1 | _ => 2

def Part.caps : Part → Nat
  | .mlv9120 => 0x3863FFFF | .mlv9080 => 0x3043F30F | .mlv9040 => 0x0C314003

def Rev.code : Rev → Nat
  | .a0 => 0xA0 | .a1 => 0xA1 | .b0 => 0xB0

/-- The number of instances of a stride that `off` lies in, from `base`. -/
def instOf (off base stride count : Nat) : Option Nat :=
  if base ≤ off ∧ (off - base) % stride = 0 ∧ (off - base) / stride < count then some ((off - base) / stride) else none

/-- Island clocks before an image is applied (R356): source and kHz. -/
def islandReset (i : Nat) : Nat :=
  if i = 1 ∨ i = 2 then 12 * 2 ^ 24 + 50000
  else if i = 3 then 0 * 2 ^ 24 + 250000
  else if i = 0 then 0 * 2 ^ 24 + 125000
  else 13 * 2 ^ 24 + 125000

/-- Thermal sensors present: those of the units on the part (15_thermal.md R332, its placement table). -/
def sensorPresent (p : Part) (i : Nat) : Bool :=
  if 4 ≤ i ∧ i ≤ 7 then decide (p ≠ .mlv9040)
  else if (8 ≤ i ∧ i ≤ 15) ∨ (20 ≤ i ∧ i ≤ 23) then decide (p = .mlv9120)
  else if i = 29 ∨ i = 31 ∨ i = 33 ∨ i = 34 then decide (p ≠ .mlv9040)
  else true

def sensorMask (p : Part) (lo n : Nat) : Nat :=
  (List.range n).foldl (fun a i => if sensorPresent p (lo + i) then a + 2 ^ i else a) 0

/-- Reset values that a register's heading gives by part, by revision or by formula. -/
def resetSpecial (p : Part) (r : Rev) (off : Nat) : Option Nat :=
  if off = CHIP_ID then some (p.id * 65536 + r.code * 256)
  else if off = CHIP_CAPS then some p.caps
  else if off = RIG_FMTCAP then some (2 * 256 + (if r = .a0 then 1 else 3))
  else if off = CSET_STAT then some 8
  else if off = CODEC_CAPS then some (if p = .mlv9040 then 0x00010108 else 0x00010118)
  else if off = PSQ_BUDGET then some (if p = .mlv9040 then 0x01C00A8C else 0x03800A8C)
  else if off = VIS_CAPS then some (0xF0 + (2 ^ p.csi - 1))
  else if off = CE_CAPS then some (125 * 2 ^ 24 + 0x040840)
  else if off = CLK_REF then some 2
  else if off = THM_PRESENT_LO then some (sensorMask p 0 32)
  else if off = THM_PRESENT_HI then some (sensorMask p 32 16)
  else if off = THM_TRIP then some (480 * 65536)
  else if off = CLK_PLL_FREQ 0 then some 2000000
  else if off = CLK_PLL_STAT 0 then some (2 ^ 31 + 2 ^ 26)
  else
    match instOf off (REP_QCFG 0) 0x20 16 with
    | some n => some ((n + 1) * 65536)
    | none =>
    match instOf off (DMA_CTRL 0) 0x40 64 with
    | some n => some ((32 + n) * 65536)
    | none =>
    match instOf off (CLK_BAND 0) 4 64 with
    | some b => some ((3260 + 64 * b) * 65536 + 3100 + 64 * b)
    | none =>
    match instOf off (CLK_ISL 0) 4 48 with
    | some i => some (islandReset i)
    | none =>
    match instOf off (THM_TS 0) 4 48 with
    | some i => some (if sensorPresent p i then 2 ^ 17 else 0)
    | none =>
    match instOf off (MSIX_TABLE 0 3) 0x10 256 with
    | some _ => some 1
    | none => none

/-- The reset value of the register at an offset: what an unlisted offset of the bank reads as. -/
def resetWord (p : Part) (r : Rev) (off : Nat) : Word :=
  match resetSpecial p r off with
  | some v => BitVec.ofNat 32 v
  | none => match RegTable.find off with
    | some (d, _) => BitVec.ofNat 32 d.reset
    | none => 0

/-! ## Registers -/

/-- The stored word of the register at `off`. -/
def State.reg (s : State) (off : Nat) : Word := bankGet (resetWord s.part s.rev off) s.regs off

/-- `s` with the register at `off` holding `v`. -/
def State.setReg (s : State) (off : Nat) (v : Word) : State :=
  { s with regs := bankPut (resetWord s.part s.rev off) off v s.regs }

/-- The value of a field, as a number. -/
def State.g (s : State) (f : Fld) : Nat := bitsOf (s.reg f.off).toNat f.lo f.w

/-- The value of a field, as a two's complement number. -/
def State.gi (s : State) (f : Fld) : Int := sext f.w (s.g f)

/-- Whether a field is not zero. -/
def State.on (s : State) (f : Fld) : Bool := s.g f != 0

/-- `s` with a field at the low bits of `v`. -/
def State.p (s : State) (f : Fld) (v : Nat) : State :=
  s.setReg f.off (BitVec.ofNat 32 (bitsPut (s.reg f.off).toNat f.lo f.w v))

/-- `s` with a field at the two's complement code of `i`. -/
def State.pz (s : State) (f : Fld) (i : Int) : State := s.p f (unsext f.w i)

/-- `s` with a one-bit field at `b`. -/
def State.pb (s : State) (f : Fld) (b : Bool) : State := s.p f b.toNat

/-- `s` with a counter field raised by 1, saturating. -/
def State.inc (s : State) (f : Fld) : State := s.p f (min (2 ^ f.w - 1) (s.g f + 1))

/-- A field of a word being written. -/
def fieldOf (f : Fld) (v : Word) : Nat := bitsOf v.toNat f.lo f.w

/-- `s` with every register whose offset `p` accepts back at its reset value. -/
def State.resetRegs (s : State) (p : Nat → Bool) : State :=
  { s with regs := s.regs.filter fun e => !p e.1 }

/-! ### Access types (R8-R11) -/

/-- What a host write of `v` leaves in one run of bits that holds `old`; `locked` is CHIP_RIGSTAT at RIGGED (R10). -/
def runWrite (locked : Bool) (acc : RegTable.Access) (old v : Nat) : Nat :=
  match acc with
  | .rw => v
  | .rwl => if locked then old else v
  | .w1c => old - Nat.land old v
  | .w1s => Nat.lor old v
  | .ro | .wo | .rc | .rsv | .sign => old

/-- The word that a host write of `v` leaves in a register that holds `old`, by the access types of its fields. -/
def wordWrite (locked : Bool) (bits : List RegTable.Bits) (old v : Nat) : Nat :=
  bits.foldl (fun a b => a + runWrite locked b.acc (bitsOf old b.lo b.w) (bitsOf v b.lo b.w) % 2 ^ b.w * 2 ^ b.lo) 0

/-- What a host read returns of one run of bits (R8, R11). -/
def runRead (all : List RegTable.Bits) (word : Nat) (b : RegTable.Bits) : Nat :=
  match b.acc with
  | .wo | .rsv => 0
  | .sign =>
    match all.find? fun c => c.lo + c.w == b.lo with
    | some c => if bitsOf word (c.lo + c.w - 1) 1 = 1 then 2 ^ b.w - 1 else 0
    | none => 0
  | _ => bitsOf word b.lo b.w

/-- The word a host read returns of a register that holds `word`. -/
def wordRead (bits : List RegTable.Bits) (word : Nat) : Nat :=
  bits.foldl (fun a b => a + runRead bits word b * 2 ^ b.lo) 0

/-- The word a read of an RC register leaves (R8). -/
def wordCleared (bits : List RegTable.Bits) (word : Nat) : Nat :=
  bits.foldl (fun a b => a + (if b.acc = .rc then 0 else bitsOf word b.lo b.w) * 2 ^ b.lo) 0

/-- CHIP_RIGSTAT reads RIGGED. -/
def State.rigged (s : State) : Bool := s.g CHIP_RIGSTAT_STATE == 3

/-- A host write of `v` to the register at `off`, by its access types and nothing else. -/
def State.plainWrite (s : State) (off : Nat) (v : Word) : State :=
  match RegTable.find off with
  | some (d, _) => s.setReg off (BitVec.ofNat 32 (wordWrite s.rigged d.bits (s.reg off).toNat v.toNat))
  | none => s

/-! ### Latches (R79, R80, R361, R417) -/

/-- What the latch of offset `off` holds: 0 after reset. -/
def State.latched (s : State) (off : Nat) : Word := bankGet 0 s.latch off

def State.setLatch (s : State) (off : Nat) (v : Word) : State :=
  { s with latch := bankPut 0 off v s.latch }

/-- The high words of 64-bit pairs, whose reads return what the low word's read latched (R80): (low, high). -/
def highOf (off : Nat) : Option Nat :=
  if off = PSQ_FRONT_LO then some PSQ_FRONT_HI
  else if off = CMP_IN_LO then some CMP_IN_HI
  else if off = CMP_OUT_LO then some CMP_OUT_HI
  else if off = ILK_TIME_LO then some ILK_TIME_HI
  else
    match instOf off (PCTX_ORG_LO 0) 0x10 256 with
    | some n => some (PCTX_ORG_HI n)
    | none =>
    match instOf off (TU_T0_LO 0) 0x40 4 with
    | some u => some (TU_T0_HI u)
    | none =>
    match instOf off (DDR_ERRADDR_LO 0) 0x1000 2 with
    | some n => some (DDR_ERRADDR_HI n)
    | none =>
    match instOf off (DMA_CUR_LO 0) 0x40 64 with
    | some n => some (DMA_CUR_HI n)
    | none =>
    match instOf off (CE_PROG_LO 0) 8 4096 with
    | some w => some (CE_PROG_HI w)
    | none =>
    match instOf off (CE_STATE_LO 0) 8 1024 with
    | some w => some (CE_STATE_HI w)
    | none => none

/-! ## Output, time and open values -/

def State.emit (s : State) (o : Out) : State := { s with out := s.out ++ [o] }

/-- A range cut at the multiples of `m`: the first address and the length of each piece, rising. -/
def cuts (m a len : Nat) : List (Nat × Nat) :=
  (List.range (len / m + 2)).filterMap fun i =>
    let lo := max a ((a / m + i) * m)
    let hi := min (a + len) ((a / m + i + 1) * m)
    if lo < hi then some (lo, hi - lo) else none

/-- The read requests of a range of host memory: none crosses a 4,096-byte boundary (R51; assumption log 93). -/
def State.hostReads (s : State) (a len : Nat) (snooped : Bool) : State :=
  { s with out := s.out ++ (cuts 4096 a len).map fun p => .hostRead p.1 p.2 snooped }

/-- The write requests that carry bytes to host memory, each within the negotiated payload (R51, R397). -/
def hostTlps (payload a : Nat) (bytes : List Byte) (snooped : Bool) : List Out :=
  (cuts payload a bytes.length).map fun p => .host p.1 ((bytes.drop (p.1 - a)).take p.2) snooped

/-- The negotiated payload in bytes. -/
def State.payload (s : State) : Nat := 128 * 2 ^ s.host.payload.val

def State.hostWrites (s : State) (a : Nat) (bytes : List Byte) (snooped : Bool) : State :=
  { s with out := s.out ++ hostTlps s.payload a bytes snooped }

/-- The bytes of a word that the byte enables address, in their places. -/
def lanes (be : Nat) (v : Word) : Word :=
  BitVec.ofNat 32 ((List.range 4).foldl (fun a i => if bitsOf be i 1 = 1 then a + bitsOf v.toNat (8 * i) 8 * 2 ^ (8 * i) else a) 0)

/-- A read of the register at `off` answered: the bytes its byte enables address (R6). -/
def State.answer (s : State) (off be : Nat) (v : Word) : State := s.emit (.read off (lanes be v))

def State.event (s : State) (e : Event) : State := s.emit (.event e)

/-- An event that has not left for its sinks is taken back. -/
def State.unEvent (s : State) (e : Event) : State :=
  if (s.out.drop s.rig.heard).contains (.event e) then s.emit (.undone e) else s

/-- An open value, and the state with one more used. -/
def State.fresh (s : State) : Nat × State := (Config.freeNat s.free, { s with free := s.free + 1 })

/-- The time counter as nanoseconds. -/
def Time.toNs (t : Time) : Nat := t.sec * 1000000000 + t.ns

/-- MSI-X vector `v` raised (R55): a message, or its pending bit while its table entry is masked. -/
def State.msix (s : State) (v : Nat) : State :=
  if bitsOf (s.reg (MSIX_TABLE v 3)).toNat 0 1 = 1 then
    let w := s.reg (MSIX_PBA (v / 32))
    s.setReg (MSIX_PBA (v / 32)) (w ||| BitVec.ofNat 32 (2 ^ (v % 32)))
  else s.emit (.msix v)

/-! ## Units -/

/-- PINMAP places signal `sig` of unit `inst` of function class `cls` on a ball (R450). -/
def State.mapped (s : State) (cls inst sig : Nat) : Bool := s.rig.pins.contains (cls, inst, sig)

/-- An output of signal `sig` of unit `inst`, shown where PINMAP places it: one it does not place is not driven (R450). -/
def State.drive (s : State) (cls inst sig : Nat) (o : Out) : State := if s.mapped cls inst sig then s.emit o else s

/-- The spar fabric runs: it is configured, and not held (R46, R47). -/
def State.fabricRuns (s : State) : Bool := s.on SPAR_STAT_CONFIGURED && !s.on SPAR_CTRL_HOLD

/-- The HALYARD records that feed an input of a sink block (R34). -/
def State.feeds (s : State) (sink inp : Nat) : List Route := s.rig.routes.filter fun r => r.sink == sink && r.inp == inp

/-- The running fabric feeds an input of a sink block: pulses of that input may come from outside the block's own rules;
an input that no record feeds reads 0 (R34). -/
def State.fabricFeeds (s : State) (sink inp : Nat) : Bool := s.fabricRuns && (s.feeds sink inp).any fun r => r.src == 0x1900

/-- The running fabric is the source of a halyard line. -/
def State.fabricLine (s : State) (line : Nat) : Bool :=
  s.fabricRuns && s.rig.routes.any fun r => r.line == line && r.src == 0x1900

def State.ctxU (s : State) (c : Nat) : Ctx := bankGet {} s.ctx c
def State.setCtx (s : State) (c : Nat) (u : Ctx) : State := { s with ctx := bankPut {} c u s.ctx }
def State.stnU (s : State) (n : Nat) : Stn := bankGet {} s.stn n
def State.setStn (s : State) (n : Nat) (u : Stn) : State := { s with stn := bankPut {} n u s.stn }
def State.qpU (s : State) (q : Nat) : Qp := bankGet {} s.host.qp q
def State.setQp (s : State) (q : Nat) (u : Qp) : State := { s with host.qp := bankPut {} q u s.host.qp }

def State.modCtx (s : State) (c : Nat) (f : Ctx → Ctx) : State := s.setCtx c (f (s.ctxU c))
def State.modStn (s : State) (n : Nat) (f : Stn → Stn) : State := s.setStn n (f (s.stnU n))

/-- Fold an operation of the state over the instances below `n`. -/
def overN (n : Nat) (f : Nat → State → State) (s : State) : State :=
  (List.range n).foldl (fun s i => f i s) s

/-! ## Access classes of BAR0 (R3, R7, R26, R425) -/

/-- How an access to a BAR0 offset is treated. -/
inductive AccessClass where
  /-- reads 0, ignores writes, sets nothing (R7, R26, R358) -/
  | silent
  /-- a unit absent on the part (R3) -/
  | absent
  /-- no register or table (R425 step 3) -/
  | unmapped
  /-- the register's own rules -/
  | own
  deriving DecidableEq, Repr

def inChipRegion (off : Nat) : Bool := decide (off ≤ 0xFF)

def inLoadPath (off : Nat) : Bool :=
  decide (0x110000 ≤ off ∧ off ≤ 0x11107F) || decide (0x118000 ≤ off ∧ off ≤ 0x11FFFF)

/-- Whether the offset lies in the space of a unit absent on the part (R425 step 2). -/
def absentSpace (p : Part) (off : Nat) : Bool :=
  decide (0x1000000 + 0x100000 * p.stations ≤ off ∧ off ≤ 0x17FFFFF)
  || (decide (p.ddr < 2) && decide (0x202000 ≤ off ∧ off ≤ 0x202FFF))
  || (decide (p.eth < 2) && decide (0x304000 ≤ off ∧ off ≤ 0x305FFF))
  || decide (0xC00100 + 0x20 * p.csi ≤ off ∧ off ≤ 0xC0017F)
  || decide (0x800000 + 0x80 * p.foc ≤ off ∧ off ≤ 0x800BFF)
  || decide (0x802000 + 0x40 * p.axes ≤ off ∧ off ≤ 0x802BFF)
  || (decide (p = .mlv9040) && decide (0x410200 ≤ off ∧ off ≤ 0x4102FF))
  || (decide (p = .mlv9040) && decide (0xC00000 ≤ off ∧ off ≤ 0xFFFFFF))

/-- Whether a register, a table or the rigging aperture occupies the offset. -/
def occupied (off : Nat) : Bool :=
  (RegTable.find off).isSome || (decide (0x118000 ≤ off ∧ off ≤ 0x11FFFF) && off % 4 == 0)

/-- The island of a register (R424). -/
def islandOf (off : Nat) : Nat :=
  if off < 0x100000 then 0
  else if off < 0x102000 then 1
  else if off < 0x103000 then 2
  else if off < 0x110000 then 3
  else if off < 0x200000 then 0
  else if off < 0x201000 then 6
  else if off < 0x203000 then 4 + (off - 0x201000) / 0x1000
  else if off < 0x300000 then 6
  else if off < 0x310000 then 7
  else if off < 0x400000 then 8
  else if off < 0x800000 then 9
  else if off < 0x801000 then 24 + (off - 0x800000) / 0x80
  else if off < 0x802000 then 19
  else if off < 0x804000 then 20
  else if off < 0x805000 then 21
  else if off < 0x808000 then 22
  else if off < 0xC00000 then 21
  else if off < 0x1000000 then 18
  else if off < 0x1800000 then 10 + (off - 0x1000000) / 0x100000
  else 23

/-- The island of the register at `off` is held in reset: a read returns 0 and a write is discarded (R358). -/
def State.offInReset (s : State) (off : Nat) : Bool := s.on (CLK_ISL_RESET (islandOf off))

/-- The class of an access to the 32-bit register that holds byte offset `off` (R425, in its order; R358). -/
def State.access (s : State) (off : Nat) : AccessClass :=
  let off := off / 4 * 4
  if 0x2000000 ≤ off then .silent
  else if !s.rigged && !(inChipRegion off) && !(inLoadPath off) then .silent
  else if absentSpace s.part off then .absent
  else if occupied off then (if s.offInReset off then .silent else .own)
  else .unmapped

/-- A CHIP_ERR bit set by an access to `off`, with address capture while every bit reads 0 (R426). -/
def State.chipErr (s : State) (f : Fld) (off : Nat) : State :=
  let s := if s.reg CHIP_ERR = 0 then s.setReg CHIP_ERRADDR (BitVec.ofNat 32 (2 ^ 31 + off % 2 ^ 26)) else s
  s.p f 1

/-- The islands but STAY are held in reset, or stopped by the loss of the reference or of SYSPLL (R353, R422). -/
def State.dead (s : State) : Bool := s.inReset || s.on (CLK_ISL_STOPPED 0)

/-- A command the host sends to the register at `off`: the access classes first, then the register's own rules `f`.
Nothing answers while every island but STAY is held in reset or stopped; an access that waits then (R358) is lost with the
reset that follows. -/
def hostAt (off : Nat) (f : State → State) (s : State) : State :=
  if s.dead then s
  else match s.access off with
    | .silent => s
    | .absent => s.chipErr CHIP_ERR_ABSENT_ACCESS off
    | .unmapped => s.chipErr CHIP_ERR_UNMAPPED off
    | .own => f s

/-- A happening inside the block: nothing happens while its island is held in reset or stopped. -/
def live (f : State → State) (s : State) : State := if s.dead then s else f s

/-- A happening in the stay island, which no reset but a power-on holds, and which its internal oscillator clocks once
the reference is lost (R353, R433), until VSTAY has decayed (R328). -/
def stayLive (f : State → State) (s : State) : State := if s.pwr.lost then s else f s

/-! ## Device DRAM as bytes -/

/-- The byte at a DRAM address; a byte nothing has written is 0 (R387). -/
def memByte (m : List Host.Cell) (a : Nat) : Byte := bankGet 0 m a

/-- `n` bytes from a DRAM address. -/
def memRead (m : List Host.Cell) (a : Nat) : Nat → List Byte
  | 0 => []
  | n + 1 => memByte m a :: memRead m (a + 1) n

/-- Bytes written from a DRAM address. -/
def memWrite (m : List Host.Cell) (a : Nat) : List Byte → List Host.Cell
  | [] => m
  | b :: bs => memWrite (bankPut 0 a b m) (a + 1) bs

/-- The canonical form of DRAM: addresses strictly rising, no zero byte listed. -/
def Memory.wf (m : List Host.Cell) : Bool := bankWf (fun _ => 0) m

/-- The little-endian number of a byte string. -/
def leNat : List Byte → Nat
  | [] => 0
  | b :: r => b.toNat + 256 * leNat r

/-- The `n` little-endian bytes of a number. -/
def leBytes : Nat → Nat → List Byte
  | 0, _ => []
  | n + 1, v => BitVec.ofNat 8 v :: leBytes n (v / 256)

/-- DRAM as a requester takes it whose chapter gives no rule for poisoned data: the bytes of uncorrectable bursts are
free values (R392; assumption log 91). -/
def memTaken (s : State) : List Host.Cell :=
  s.dram.ue.foldl (fun m b => memWrite m (64 * b) (leBytes 64 (Config.poison s.free b))) s.mem

/-- The big-endian number of a byte string. -/
def beNat (l : List Byte) : Nat := l.foldl (fun a b => a * 256 + b.toNat) 0

/-- A number as `n` bytes, most significant first. -/
def beBytes (n v : Nat) : List Byte := (leBytes n v).reverse

/-- A little-endian field of a byte string. -/
def bytesAt (b : List Byte) (off n : Nat) : Nat := leNat ((b.drop off).take n)

/-- Whether `n` bytes of a byte string from `off` are zero. -/
def zeroAt (b : List Byte) (off n : Nat) : Bool := ((b.drop off).take n).all (· == 0)

/-- Installed DRAM in bytes (R384). -/
def State.installed (s : State) : Nat := s.g DRAM_CFG_INSTALLED * 2 ^ 30

end Sys2Proof.Machine
end

