-- ==== Sys2Proof/Machine/Operands.lean ====
section
/-!
DEFINITION. The codes the spec gives to states, statuses and causes, and the operand forms that several chapters
share: fixed-point values (R11), integer square roots and greatest common divisors, check values over bytes
(CRC-32C of R97, CRC-16 of R184).
-/

namespace Sys2Proof.Machine

/-! ## Codes -/

namespace Eng
/-- Engine states (R67). -/
def unrigged : Nat := 0
def standby : Nat := 1
def warmup : Nat := 2
def ready : Nat := 3
def printing : Nat := 4
def draining : Nat := 5
def hardstop : Nat := 6
def furled : Nat := 7
def fault : Nat := 8
end Eng

namespace Sts
/-- REP status codes (R67). -/
def ok : Nat := 0
def badState : Nat := 1
def unknownOp : Nat := 2
def version : Nat := 3
def unitAbsent : Nat := 4
def admissionRate : Nat := 5
def noContext : Nat := 6
def verifyFail : Nat := 7
def busy : Nat := 8
def param : Nat := 9
def exhausted : Nat := 10
def noGain : Nat := 11
def jobOverflow : Nat := 12
end Sts

namespace Cause
/-- Spoil causes (R69). -/
def none : Nat := 0
def underrun : Nat := 1
def linkLoss : Nat := 2
def polygonLoss : Nat := 3
def headHot : Nat := 4
def decodeErr : Nat := 5
def eccUncorr : Nat := 6
def pathReverse : Nat := 7
def reef : Nat := 8
def interlock : Nat := 9
def hostAbort : Nat := 10
end Cause

namespace Px
/-- Context states (R106). -/
def free : Nat := 0
def loaded : Nat := 1
def verifying : Nat := 2
def armed : Nat := 3
def feeding : Nat := 4
def inPath : Nat := 5
def imaging : Nat := 6
def delivered : Nat := 7
def spoiled : Nat := 8
def jammed : Nat := 9
def retired : Nat := 10
end Px

namespace Sev
/-- Error severities (R16). -/
def corrected : Nat := 0
def contained : Nat := 1
def regionFatal : Nat := 2
def chipFatal : Nat := 3
end Sev

/-! ## Fixed point (R11) -/

/-- The integer of a 20-bit signed field. -/
def sq20 (n : Nat) : Int := sext 20 n

/-- Saturate to the 20-bit signed range. -/
def sat20 (i : Int) : Int := clampI (-524288) 524287 i

/-- `a x b` of two SQ2.18 values, truncated to SQ2.18 toward minus infinity. -/
def mulQ18 (a b : Int) : Int := (a * b) / 262144

/-! ## Integers -/

/-- Greatest common divisor by repeated remainder; the fuel bounds the steps. -/
def gcdFuel : Nat → Nat → Nat → Nat
  | 0, a, _ => a
  | n + 1, a, b => if b = 0 then a else gcdFuel n b (a % b)

def gcdN (a b : Nat) : Nat := gcdFuel 64 a b

/-- Integer square root of `n` by bits, from bit `k` down. -/
def isqrtBits (n : Nat) : Nat → Nat → Nat
  | 0, r => r
  | k + 1, r => if (r + 2 ^ k) * (r + 2 ^ k) ≤ n then isqrtBits n k (r + 2 ^ k) else isqrtBits n k r

def isqrt (n : Nat) : Nat := isqrtBits n 64 0

/-- Sum of a list. -/
def sumN (l : List Nat) : Nat := l.foldl (· + ·) 0

/-! ## Check values -/

/-- One bit of the reflected CRC-32C (R97). -/
def crc32cBit (c : BitVec 32) : BitVec 32 :=
  if c.getLsbD 0 then (c >>> 1) ^^^ 0x82F63B78 else c >>> 1

def iterate {α : Type} (f : α → α) : Nat → α → α
  | 0, x => x
  | n + 1, x => iterate f n (f x)

/-- CRC-32C before its final XOR. -/
def crc32cFold (c : BitVec 32) : List Byte → BitVec 32
  | [] => c
  | b :: r => crc32cFold (iterate crc32cBit 8 (c ^^^ b.setWidth 32)) r

/-- CRC-32C of a byte string (R97). -/
def crc32c (bs : List Byte) : BitVec 32 := crc32cFold 0xFFFFFFFF bs ^^^ 0xFFFFFFFF

/-- One bit of the reflected CRC-32 of a frame check sequence (PRESUMED, IEEE 802.3; assumption log 89). -/
def fcsBit (c : BitVec 32) : BitVec 32 :=
  if c.getLsbD 0 then (c >>> 1) ^^^ 0xEDB88320 else c >>> 1

def fcsFold (c : BitVec 32) : List Byte → BitVec 32
  | [] => c
  | b :: r => fcsFold (iterate fcsBit 8 (c ^^^ b.setWidth 32)) r

/-- The frame check sequence of a frame. -/
def fcs (bs : List Byte) : BitVec 32 := fcsFold 0xFFFFFFFF bs ^^^ 0xFFFFFFFF

/-- One bit of CRC-16 with polynomial 0x1021 (R184). -/
def crc16Bit (c : BitVec 16) : BitVec 16 :=
  if c.getLsbD 15 then (c <<< 1) ^^^ 0x1021 else c <<< 1

def crc16Fold (c : BitVec 16) : List Byte → BitVec 16
  | [] => c
  | b :: r => crc16Fold (iterate crc16Bit 8 (c ^^^ (b.setWidth 16 <<< 8))) r

/-- CRC-16 of a byte string (R184): initial value 0xFFFF, no reflection, no final XOR. -/
def crc16 (bs : List Byte) : BitVec 16 := crc16Fold 0xFFFF bs

end Sys2Proof.Machine
end

