-- ==== Sys2Proof/Machine/Post.lean ====
section
/-!
DEFINITION. What the device writes to the host: completion entries on their rings (R59, R63-R66, R83), FAULT and
SHEET_DONE messages, result mailboxes (R78-R81), and notifications to REP-lite partners (R86).
-/

namespace Sys2Proof.Machine

open Reg

def State.engine (s : State) : Nat := s.g REP_STAT_ENGINE
def State.setEngine (s : State) (e : Nat) : State := s.p REP_STAT_ENGINE e
def State.session (s : State) : Bool := s.on REP_STAT_SESSION
def State.repVersion (s : State) : Nat := s.g REP_STAT_VERSION

def State.pairOn (s : State) (q : Nat) : Bool := s.on (REP_QCFG_ENABLE q)
def State.cqSize (s : State) (q : Nat) : Nat := 2 ^ s.g (REP_QCFG_CQ_LOG2 q)
def State.sqSize (s : State) (q : Nat) : Nat := 2 ^ s.g (REP_QCFG_SQ_LOG2 q)

/-- The completion ring is full (R62): its next index is the host's head. -/
def State.cqFull (s : State) (q : Nat) : Bool :=
  (s.g (REP_QSTAT_CQ_TAIL q) + 1) % s.cqSize q == s.g (REP_QCQH_HEAD q)

/-- REP_QnSTAT.FULL follows the ring. -/
def syncFull (q : Nat) (s : State) : State := s.pb (REP_QSTAT_FULL q) (s.cqFull q)

/-- The completion entry that a finished completion becomes in pair `q`'s ring (R63, R66). -/
def cqeOf (s : State) (q : Nat) (p : Post) : Cqe :=
  { cid := p.cid
    aux := p.aux.getD (s.g (REP_QSTAT_SQ_HEAD q))
    op := p.op
    status := p.status
    engine := p.engine.getD s.engine
    phase := if (s.qpU q).wraps % 2 = 0 then 1 else 0
    result := p.result % 2 ^ 64 }

/-- Write a completion to the free slot at the ring's tail, and raise the ring's vector (R55, R59). -/
def writeCqe (q : Nat) (p : Post) (s : State) : State :=
  let tail := s.g (REP_QSTAT_CQ_TAIL q)
  let next := (tail + 1) % s.cqSize q
  let u := s.qpU q
  let s1 := s.emit (.cqe q tail (cqeOf s q p))
  let s2 := if next = 0 then s1.setQp q { u with wraps := u.wraps + 1 } else s1
  let s3 := syncFull q (s2.p (REP_QSTAT_CQ_TAIL q) next)
  s3.msix (s3.g (REP_QCFG_VECTOR q))

/-- A finished completion of pair `q`: written, held while the ring is full (R64), or discarded while the pair is
disabled (R83). -/
def post (q : Nat) (p : Post) (s : State) : State :=
  if !s.pairOn q then s
  else if s.cqFull q || !(s.qpU q).held.isEmpty then
    s.setQp q { s.qpU q with held := (s.qpU q).held ++ [p] }
  else writeCqe q p s

/-- Held completions written in order while slots are free (R64). -/
def drainHeld (q : Nat) : List Post → State → State
  | [], s => s.setQp q { s.qpU q with held := [] }
  | p :: r, s =>
    if s.cqFull q then s.setQp q { s.qpU q with held := p :: r }
    else drainHeld q r (writeCqe q p s)

/-! ## Sessions and commands -/

/-- Close the session (R77): engine state and contexts stay as they are. -/
def closeSession (s : State) : State :=
  (s.pb REP_STAT_SESSION false).p REP_STAT_VERSION 0

/-- A closing session closes once no command is in progress and every command that was queued has completed; a BYE then
completes (R77). -/
def tryClose (s : State) : State :=
  match s.host.closing with
  | none => s
  | some bye =>
    if s.host.inProg.isEmpty && (List.range 16).all fun q => (s.qpU q).doomed == 0 then
      let s1 := closeSession { s with host.closing := none }
      match bye with
      | some (q, cid) => post q { cid := cid, op := 0x02, status := Sts.ok, result := 0 } s1
      | none => s1
    else s

/-- A command in progress completes. -/
def complete (q cid op status result : Nat) (s : State) : State :=
  let s1 := { s with host.inProg := s.host.inProg.erase ⟨q, cid, op⟩ }
  tryClose (post q { cid := cid, op := op, status := status, result := result } s1)

/-- As `complete`, with the engine state its STATE field reports (R72). -/
def completeIn (eng q cid op status result : Nat) (s : State) : State :=
  let s1 := { s with host.inProg := s.host.inProg.erase ⟨q, cid, op⟩ }
  tryClose (post q { cid := cid, op := op, status := status, result := result, engine := some eng } s1)

/-- A command whose work goes on after its start (R65). -/
def begin_ (q cid op : Nat) (s : State) : State :=
  { s with host.inProg := s.host.inProg ++ [⟨q, cid, op⟩] }

/-! ## Mailboxes (R78-R81) -/

def mbxU (s : State) (m : Nat) : Mbx := bankGet {} s.host.mbx m

/-- MBXn_HDR.VALID: SEQ is non-zero and differs from MBXn_ACK. -/
def mbxValid (m : Nat) (s : State) : State :=
  s.pb (MBX_HDR_VALID m) (s.g (MBX_HDR_SEQ m) != 0 && s.g (MBX_HDR_SEQ m) != s.g (MBX_ACK_ACK m))

/-- The next SEQ of a mailbox: 1 to 2^28 - 1, then 1 again. -/
def mbxNext (n : Nat) : Nat := if n + 1 ≥ 2 ^ 28 then 1 else n + 1

/-- A new result in mailbox `m`. -/
def mbxPut (m tag gen : Nat) (data : List Nat) (s : State) : State :=
  let s1 := { s with host.mbx := bankPut {} m ({ tag := tag, gen := gen, data := data } : Mbx) s.host.mbx }
  mbxValid m (s1.p (MBX_HDR_SEQ m) (mbxNext (s1.g (MBX_HDR_SEQ m))))

/-! ## REP-lite partners (R84-R87) -/

/-- The 16 bytes of a completion entry (R66). -/
def cqeBytes (e : Cqe) : List Byte :=
  leBytes 2 e.cid ++ leBytes 2 e.aux ++ leBytes 1 e.op ++ leBytes 1 e.status ++ leBytes 1 e.engine
    ++ leBytes 1 e.phase ++ leBytes 8 e.result

/-- A datagram of the device (R84): the 16-byte header, and the entry with what follows it. -/
def replBytes (kind session seq ack : Nat) (entry : List Byte) : List Byte :=
  leBytes 2 0x4C52 ++ leBytes 1 kind ++ leBytes 1 0 ++ leBytes 2 session ++ leBytes 2 0 ++ leBytes 4 seq ++ leBytes 4 ack ++ entry

def ethU (s : State) (p : Nat) : Eth := bankGet {} s.net.eth p
def modEth (p : Nat) (f : Eth → Eth) (s : State) : State :=
  { s with net := { s.net with eth := bankPut {} p (f (ethU s p)) s.net.eth } }

/-- The port's MAC address as the six bytes sent. -/
def portMac (s : State) (p : Nat) : List Byte := leBytes 4 (s.g (ETH_MAC_LO_VALUE p)) ++ leBytes 2 (s.g (ETH_MAC_HI_VALUE p))

def portIp4 (s : State) (p : Nat) : Nat := s.g (ETH_IP4_VALUE p)

def portIp6 (s : State) (p : Nat) : Nat :=
  (List.range 4).foldl (fun a w => a * 2 ^ 32 + s.g (ETH_IP6_VALUE p w)) 0

/-- The port is on and its link up. -/
def portUp (s : State) (p : Nat) : Bool := decide (p < s.part.eth) && s.on (ETH_CFG_MODE p) && s.on (ETH_STAT_LINK p)

/-- The addresses of a datagram from a port: its own as configured, and those of the session's HELLO (R84, R373). -/
def replHead (s : State) (port mac : Nat) (ip6 : Bool) (ip : Nat) : UdpHead :=
  { mac := mac, ip6 := ip6, ip := ip, srcMac := beNat (portMac s port), srcIp := if ip6 then portIp6 s port else portIp4 s port }

/-- A REP-lite datagram leaves a port; behind a window frame it waits for the frame's end (R375). On a port without a link
it is lost (DESIGN CHOICE, assumption log 80). -/
def replSend (port mac : Nat) (ip6 : Bool) (ip : Nat) (bytes : List Byte) (s : State) : State :=
  let h := replHead s port mac ip6 ip
  if !portUp s port then s
  else if (ethU s port).tx.isSome then modEth port (fun u => { u with wait := u.wait ++ [(h, bytes)] }) s
  else s.emit (.repl port h bytes)

/-- Send a notification on one session. -/
def notifyOne (entry : List Byte) (r : Repl) (s : State) : State :=
  let r' : Repl := { r with seq := r.seq + 1, waiting := r.waiting ++ [⟨r.seq + 1, entry, 1⟩] }
  let s1 := { s with host.repl := s.host.repl.map fun (x : Repl) => if x.num = r.num then r' else x }
  replSend r.port r.mac r.ip6 r.ip (replBytes 2 r.num (r.seq + 1) r.rx entry) s1

/-- A SHEET_DONE or a fatal FAULT goes to every open partner session (R86). -/
def notifyAll (entry : List Byte) (s : State) : State :=
  s.host.repl.foldl (fun s r => notifyOne entry r s) s

end Sys2Proof.Machine
end

