-- ==== Sys2Proof/Machine/Flags.lean ====
section
/-!
DEFINITION. Error records, the summary and status flags they set, and the interrupt root (spec/20_monitors_errors.md
R415-R423, spec/21_register_index.md R428).
-/

namespace Sys2Proof.Machine

open Reg

/-- The region of a unit class (R415): 0 IMG, 1 MOT, 2 VIS, 3 MEM, 4 HNT, 5 INF, 6 chip. -/
def classRegion (cls : Nat) : Nat :=
  if cls < 0x10 then 0 else if cls < 0x20 then 1 else if cls < 0x30 then 2 else if cls < 0x40 then 3
  else if cls < 0x50 then 4 else if cls < 0x60 then 5 else 6

/-- An error as the unit that detects it describes it. -/
structure ErrIn where
  sev : Nat
  cls : Nat
  inst : Nat
  code : Nat
  cell : Nat := 0xFFFF
  /-- the context the error spoiled, and the cause -/
  spoiled : Option (Nat × Nat) := none
  /-- SEQ of the record this one escalates -/
  prev : Nat := 0
  level : Nat := 1
  /-- the record posts no FAULT (R391) -/
  quiet : Bool := false
  /-- the region where it is not the block's own: a PLL's loss acts in the regions it clocks (R353) -/
  region : Option Nat := none
  deriving DecidableEq, Repr

/-- The region of an error. -/
def ErrIn.reg (e : ErrIn) : Nat := e.region.getD (classRegion e.cls)

/-! ## Interrupt root -/

/-- The region lines, from pending and mask words (R423). -/
def irqLines (s : State) : Nat :=
  (List.range 7).foldl (fun a r =>
    if Nat.land (s.g (ERR_PEND_SEV r)) (s.g (ERR_MASK_SEV r)) ≠ 0 then a + 2 ^ r else a) 0

/-- Bring CHIP_IRQ_STAT to the lines and raise the root vector if a line under the mask rises, once in a cycle (R428). -/
def irqSync (s : State) : State :=
  let old := Nat.land (s.g CHIP_IRQ_STAT_REGION) (s.g CHIP_IRQ_MASK_REGION)
  let lines := irqLines s
  let s1 := s.p CHIP_IRQ_STAT_REGION lines
  if Nat.land lines (s.g CHIP_IRQ_MASK_REGION) - Nat.land (Nat.land lines (s.g CHIP_IRQ_MASK_REGION)) old ≠ 0
      ∧ s1.err.irqAt ≠ some s1.clock then
    { s1 with err := { s1.err with irqAt := some s1.clock } }.msix (s1.g CHIP_IRQ_CFG_VECTOR)
  else s1

/-- A bit of ERR_PENDr set by a new record (R423). -/
def pendSet (r sev : Nat) (s : State) : State :=
  irqSync (s.p (ERR_PEND_SEV r) (Nat.lor (s.g (ERR_PEND_SEV r)) (2 ^ sev)))

/-! ## Records -/

/-- The count of region `r`'s records of a severity (ERR_CNTr). -/
def cntFld (r sev : Nat) : Fld :=
  if sev = 0 then ERR_CNT_CORRECTED r else if sev = 1 then ERR_CNT_CONTAINED r
  else if sev = 2 then ERR_CNT_REGION_FATAL r else ERR_CNT_CHIP_FATAL r

/-- Whether `t` is within 1 s of `t0` (R416). -/
def within1s (t0 t : Nat) : Bool := decide (t ≤ t0 + 1000000000)

/-- The latest record of a block. -/
def latestOf (s : State) (cls inst : Nat) : Option Latest :=
  s.err.latest.find? fun l => l.cls == cls && l.inst == inst

/-- The FAULT message of a record (R68). -/
def faultResult (e : ErrIn) : Nat :=
  e.sev + e.reg * 2 ^ 8 + (e.cls * 256 + e.inst) * 2 ^ 16 + e.code * 2 ^ 32

/-- Post the FAULT of a new record on completion ring 0 while a session is open; dropped and counted when the ring is
full or disabled (R64, R83, R416). Says whether it was posted. -/
def postFault (slot : Nat) (e : ErrIn) (s : State) : State × Bool :=
  if !s.session then (s, false)
  else if !s.pairOn 0 || s.cqFull 0 || !(s.qpU 0).held.isEmpty then (s.inc REP_EVT_LOST_COUNT, false)
  else (writeCqe 0 { cid := 0xFFFF, op := 0x82, status := 0, result := faultResult e, aux := some slot } s, true)

/-- The eight words of a record (its layout in 20_monitors_errors.md). -/
def recWords (seq : Nat) (e : ErrIn) (flags : Nat) (t : Time) : List Nat :=
  let ctx := match e.spoiled with | some (c, k) => c * 2 ^ 16 + k * 2 ^ 24 | none => 0
  [ seq,
    e.sev + e.level * 2 ^ 8 + e.reg * 2 ^ 16 + flags * 2 ^ 24,
    (e.cls * 256 + e.inst) + e.code * 2 ^ 16,
    e.cell + ctx,
    t.ns, t.sec % 2 ^ 32, e.prev, 1 ]

/-- Put words from offset `off` up. -/
def putWords (off : Nat) : List Nat → State → State
  | [], s => s
  | w :: r, s => putWords (off + 4) r (s.setReg off (BitVec.ofNat 32 w))

/-- Whether Tj lies in the window of "any other NVM write": -30 to +105 degrees C, in 1/16 degree (R342). -/
def nvmWindow (s : State) : Bool :=
  let tj := s.gi THM_TJ_TJ
  decide (-480 ≤ tj ∧ tj ≤ 1680)

/-- A record in the next slot of the NVM ring of 32 (R418). -/
def ringPush (r : List Nat) (s : State) : State :=
  { s with nvmRing := bankPut [] s.nvmNext r s.nvmRing, nvmNext := (s.nvmNext + 1) % 32 }

/-- A fatal record for the NVM ring: with EPOCH in bytes 0x1E-0x1F; it waits outside the write window. -/
def nvmRecord (words : List Nat) (s : State) : State :=
  let r := words.take 7 ++ [1 + s.epoch % 65536 * 65536]
  if nvmWindow s then ringPush r s
  else { s with err.nvmWait := s.err.nvmWait ++ [r] }

/-- What later escalations of a record name: the block's latest CONTAINED record, the region's latest REGION_FATAL one. -/
def escalable (e : ErrIn) (seq : Nat) (u : ErrU) : ErrU :=
  let b := e.cls * 256 + e.inst
  if e.sev = 1 then { u with conts := (b, seq) :: u.conts.filter fun c => c.1 != b }
  else if e.sev = 2 then { u with fatals := (e.reg, b, seq) :: u.fatals.filter fun f => f.1 != e.reg }
  else u

/-- A new record in the next slot of the ring (R416). -/
def newRecord (e : ErrIn) (s : State) : State :=
  let r := e.reg
  let slot := s.g ERR_HEAD_NEXT
  let seq := (s.g ERR_SEQ_SEQ + 1) % 2 ^ 32
  let f0 := (if e.prev ≠ 0 then 1 else 0) + (if e.spoiled.isSome then 4 else 0)
  let s1 := (if s.g (ERR_REC_WORD slot 0) ≠ 0 then s.p ERR_HEAD_WRAPPED 1 else s)
  let s2 := ((s1.p ERR_HEAD_NEXT ((slot + 1) % 256)).p ERR_SEQ_SEQ seq).inc (cntFld r e.sev)
  let s3 := { s2 with staySeq := seq }
  let (s4, posted) := if e.quiet then (s3, false) else postFault slot e s3
  let words := recWords seq e (f0 + if posted then 2 else 0) s.time
  let s5 := putWords (ERR_REC slot 0) words s4
  let s6 := { s5 with err := { escalable e seq s5.err with latest :=
    ⟨e.cls, e.inst, e.code, e.sev, Fin.ofNat 256 slot, s.clock⟩ :: (s.err.latest.filter fun l => !(l.cls == e.cls && l.inst == e.inst)) } }
  let s7 := if 2 ≤ e.sev then
      nvmRecord words (notifyAll (cqeBytes ⟨0xFFFF, slot, 0x82, 0, s6.engine, 0, faultResult e⟩) s6)
    else s6
  pendSet r e.sev s7

/-- A CORRECTED occurrence that coalesces into the block's latest record (R416). -/
def coalesce (e : ErrIn) (l : Latest) (s : State) : State :=
  let w7 := s.g (ERR_REC_WORD l.slot 7)
  let w1 := (s.reg (ERR_REC l.slot 1)).toNat
  let s1 := s.p (ERR_REC_WORD l.slot 7) (min 65535 (w7 % 65536 + 1))
  let s2 := s1.setReg (ERR_REC l.slot 1) (BitVec.ofNat 32 (Nat.lor w1 (8 * 2 ^ 24)))
  s2.inc (cntFld e.reg e.sev)

/-- The island of a block that has one to itself (R356): a station's, a FOC channel's. -/
def blockIsland (cls inst : Nat) : Option Nat := if cls = 0x01 then some (10 + inst) else if cls = 0x10 then some (24 + inst) else none

/-- The block of an error, or its region, is held in reset (R421). -/
def errInReset (s : State) (e : ErrIn) : Bool :=
  s.err.regionReset.contains e.reg || ((blockIsland e.cls e.inst).map fun i => s.on (CLK_ISL_RESET i)).getD false

/-- A detected error is recorded, coalesced, or discarded while its block or region is held in reset (R416, R421). Before the
image is applied no region records errors (R428), and with the CLK island stopped the log does not advance (R422). -/
def record (e : ErrIn) (s : State) : State :=
  if !s.rigged ∨ s.dead then s
  else if errInReset s e then s.inc ERR_SUPPR_COUNT
  else match latestOf s e.cls e.inst with
    | some l =>
      if e.sev = 0 ∧ l.sev = 0 ∧ l.code = e.code ∧ within1s l.at_ s.clock
          ∧ s.g (ERR_REC_WORD l.slot 2) = (e.cls * 256 + e.inst) + e.code * 2 ^ 16 then coalesce e l s
      else newRecord e s
    | none => newRecord e s

/-- A CORRECTED error of a unit. -/
def corrected (cls inst code cell : Nat) (s : State) : State :=
  record { sev := 0, cls := cls, inst := inst, code := code, cell := cell } s

/-- A CONTAINED error of a unit. -/
def contained (cls inst code cell : Nat) (s : State) : State :=
  record { sev := 1, cls := cls, inst := inst, code := code, cell := cell } s

end Sys2Proof.Machine
end

