-- ==== Sys2Proof/Machine/LinkOps.lean ====
section
/-!
DEFINITION. What a station sends on its Amonone link (spec/08_amonone_link.md R183, R184, R190-R198): packets with
their check, DARK blocks, CONTROL packets that await acknowledgement, SWEEP_VOID.
-/

namespace Sys2Proof.Machine

open Reg

namespace Lk
/-- States of STNn_LSTAT.STATE. -/
def down : Nat := 0
def prbs : Nat := 1
def caps : Nat := 2
def prbsHi : Nat := 3
def load : Nat := 4
def up : Nat := 5
def wait : Nat := 6
end Lk

def linkState (s : State) (n : Nat) : Nat := s.g (STN_LSTAT_STATE n)

/-- Bytes of a packet's check (R184): CRC-16, or CRC-32C once AL2.0 is agreed. -/
def checkLen (u : LinkU) : Nat := if u.agreed && decide (u.version ≥ 0x0200) then 4 else 2

/-- A packet with its check appended. -/
def withCheck (u : LinkU) (b : List Byte) : List Byte :=
  if checkLen u = 4 then b ++ leBytes 4 (crc32c b).toNat else b ++ leBytes 2 (crc16 b).toNat

/-- The bytes of a packet (R183): common header, bytes 6-7, fields from 0x08, check. -/
def packetBytes (u : LinkU) (ty flags b67 : Nat) (body : List Byte) : List Byte :=
  withCheck u (leBytes 1 ty ++ leBytes 1 flags ++ leBytes 2 (8 + body.length + checkLen u) ++ leBytes 2 u.seq
    ++ leBytes 2 b67 ++ body)

/-- A packet leaves on station `n`'s link; the sender's SEQ goes on modulo 2^16. -/
def rawPacket (n ty flags b67 : Nat) (body : List Byte) (s : State) : State :=
  let u := s.stnU n
  let s1 := s.setStn n { u with link := { u.link with seq := (u.link.seq + 1) % 65536 } }
  s1.emit (.packet n (packetBytes u.link ty flags b67 body))

/-- Two codes a byte, the lower scan position in the low half (R191). -/
def packCodes : List Nat → List Byte
  | a :: b :: r => BitVec.ofNat 8 (a + 16 * b) :: packCodes r
  | [a] => [BitVec.ofNat 8 a]
  | [] => []

/-- SWEEP_DATA packets leave, in order (R191). -/
def sendData (n : Nat) (ps : List DataPkt) (s : State) : State :=
  ps.foldl (fun s p => rawPacket n 0x02 p.flags 0 (p.head ++ packCodes p.codes) s) s

def setSending (n : Nat) (ps : List DataPkt) (s : State) : State :=
  s.modStn n fun u => { u with link := { u.link with sending := ps } }

/-- The rest of a sweep being sent leaves. -/
def flushSweep (n : Nat) (s : State) : State := sendData n (s.stnU n).link.sending (setSending n [] s)

/-- Send a packet other than SWEEP_DATA and SWEEP_VOID: it stands behind the last SWEEP_DATA of a sweep being sent
(R191). -/
def sendPacket (n ty flags b67 : Nat) (body : List Byte) (s : State) : State :=
  rawPacket n ty flags b67 body (flushSweep n s)

/-- Send a CONTROL packet of types 0x11 to 0x15, which awaits its acknowledgement (R195). -/
def sendControl (n ty b67 : Nat) (body : List Byte) (s : State) : State :=
  let s0 := flushSweep n s
  let u := s0.stnU n
  let bytes := packetBytes u.link ty 0 b67 body
  let s1 := rawPacket n ty 0 b67 body s0
  s1.modStn n fun v =>
    { v with link := { v.link with waiting := v.link.waiting ++ [{ ty := ty, seq := u.link.seq, bytes := bytes }] } }

/-- 8 DARK blocks on every lane that carries blocks; LIT clears (R197). -/
def sendDark (n reason : Nat) (s : State) : State :=
  let st := linkState s n
  let s1 := if st = Lk.caps ∨ st = Lk.load ∨ st = Lk.up then s.emit (.dark n reason) else s
  let s2 := s1.modStn n fun v =>
    { v with link := { v.link with waiting := v.link.waiting.filter fun c => c.ty != 0x14 } }
  s2.pb (STN_LSTAT_LIT n) false

/-- Mean of the last 8 BDn periods of a station, ns (R192). -/
def bdMean (u : Stn) : Nat := sumN (u.bdPeriods.take 8) / max 1 (u.bdPeriods.take 8).length

/-- SWEEP_VOID for a sweep, twice in succession (R198). -/
def sendVoid (n sweep : Nat) (s : State) : State :=
  let body := leBytes 4 sweep ++ leBytes 4 0
  rawPacket n 0x16 0 0 body (rawPacket n 0x16 0 0 body s)

/-- The sweeps later than the sweep in progress that station `n` has begun to send: that of the latest edge, where its
writing begins more than 3 us from now, and the next, where its own writing does (R198). -/
def laterSweeps (s : State) (n : Nat) : List Nat :=
  let u := s.stnU n
  let k := s.g (STN_SWEEPNO_COUNT n)
  let soon := s.clock - u.bdClock + 3000
  let start := s.g (STN_DCAP1_SOS n) * bdMean u / 65536
  if soon < start then [k, (k + 1) % 2 ^ 28] else if soon < start + bdMean u then [(k + 1) % 2 ^ 28] else []

/-- At a fault under R21, the later sweeps of the sheet that occupies station `n` are voided, after the packet in
progress, and a sweep being sent ends with zero codes; how many of its packets had left is an open value (R198). -/
def voidSweeps (n : Nat) (s : State) : State :=
  let u := s.stnU n
  let c := s.g (STN_STAT_CONTEXT n)
  let later := (laterSweeps s n).filter fun k => u.link.unreported.contains (k, some c)
  if linkState s n ≠ Lk.up ∨ later.isEmpty then s
  else
    let ps := u.link.sending
    let (f, s1) := if ps.isEmpty then (0, s) else s.fresh
    let m := f % (ps.length + 1)
    let s2 := sendData n (ps.take m) (setSending n [] s1)
    let s3 := later.foldl (fun s k => sendVoid n k s) s2
    sendData n ((ps.drop m).map fun p => { p with codes := p.codes.map fun _ => 0 }) s3

end Sys2Proof.Machine
end

