-- ==== Sys2Proof/Machine/Sheet.lean ====
section
/-!
DEFINITION. Passage contexts as shared operations: their states (R106, R107), spoiling (R21-R23), release from ARMED
(R107), refusal of a commit, jamming (R24), and the summaries the PSQ shows of them.
-/

namespace Sys2Proof.Machine

open Reg

def ctxState (s : State) (c : Nat) : Nat := s.g (PCTX_STATE_STATE c)

/-- The contexts that are not FREE, by number. -/
def ctxKeys (s : State) : List Nat := s.ctx.map (·.1)

/-- ARMED or later (R106). -/
def armedLater (st : Nat) : Bool := decide (Px.armed ≤ st ∧ st ≤ Px.jammed)

/-- FEEDING or later. -/
def feedingLater (st : Nat) : Bool := decide (Px.feeding ≤ st ∧ st ≤ Px.jammed)

/-- FEEDING or later, released contexts apart: a context released from ARMED is never fed (R107). -/
def fedCtx (s : State) (c : Nat) : Bool := feedingLater (ctxState s c) && (s.ctxU c).fed

/-- The path keeps a context (R451): FEEDING, IN_PATH, IMAGING, JAMMED, or SPOILED before delivery. -/
def inPath (s : State) (c : Nat) : Bool :=
  let st := ctxState s c
  st == Px.feeding || st == Px.inPath || st == Px.imaging || st == Px.jammed
    || (st == Px.spoiled && !s.on (PCTX_STATE_AT_DELIV c))

def pathEmpty (s : State) : Bool := (ctxKeys s).all fun c => !inPath s c

def anyCtx (s : State) (p : Nat → Bool) : Bool := (ctxKeys s).any p

/-- The oldest context, by commit order, of those that satisfy `p`. -/
def oldest (s : State) (p : Nat → Bool) : Option Nat :=
  ((ctxKeys s).filter p).foldl (fun a c =>
    match a with
    | none => some c
    | some b => if (s.ctxU c).seq < (s.ctxU b).seq then some c else some b) none

def oldestArmed (s : State) : Option Nat := oldest s fun c => ctxState s c == Px.armed

/-- The spoil flag at a new level, and the timed pulse output that follows it (R22, R370). -/
def spoilShow (flag : Bool) (s : State) : State :=
  let s1 := { s with psq := { s.psq with spoilOut := flag } }.event (.spoil flag)
  match s1.rig.spoilTpo with
  | some k => (s1.pb (TPO_STAT_HIGH k) flag).drive 0x59 k 0 (.tpoPin k (flag != s1.on (TPO_CTRL_POL k)))
  | none => s1

/-- A context whose D counts in PSQ_DEMAND: ARMED or later, and not released from ARMED (R107, R114). -/
def demands (s : State) (c : Nat) : Bool :=
  armedLater (ctxState s c) && !(ctxState s c == Px.spoiled && !(s.ctxU c).fed)

/-- PSQ_STAT.ARMED, PSQ_DEMAND, CODEC_VSTAT.SHEETS and the spoil flag of R127 follow the contexts. -/
def psqSync (s : State) : State :=
  let armed := ((ctxKeys s).filter fun c => ctxState s c == Px.armed).length
  let demand := sumN (((ctxKeys s).filter (demands s)).map fun c => (s.ctxU c).demand)
  let sheets := ((ctxKeys s).filter fun c => ctxState s c == Px.verifying).length
  let flag := anyCtx s fun c => ctxState s c == Px.spoiled && !s.on (PCTX_STATE_AT_DELIV c)
  let s1 := ((s.p PSQ_STAT_ARMED armed).p PSQ_DEMAND_MBS demand).p CODEC_VSTAT_SHEETS sheets
  if flag = s1.psq.spoilOut then s1 else spoilShow flag s1

/-- PRINTING returns to READY when no context is ARMED or later (R27). -/
def printSync (s : State) : State :=
  if s.engine = Eng.printing ∧ !(anyCtx s fun c => armedLater (ctxState s c)) then s.setEngine Eng.ready else s

/-- A station keeps nothing of a context: bands in its decoders and its lead buffer. -/
def purge (c n : Nat) (s : State) : State :=
  let s1 := overN 4 (fun k s =>
    match bankGet none (s.stnU n).dec k with
    | some d => if d.b.ctx = c then
        (s.modStn n fun u => { u with dec := bankPut none k none u.dec }).pb (STN_DEC_BUSY n k) false
      else s
    | none => s) s
  s1.modStn n fun u =>
    { u with lead := u.lead.filter fun l => l.b.ctx != c, fetch := u.fetch.filter fun f => f.ctx != c }

/-- No sweep that awaits its STATUS belongs to a context any more: its number may come to name another sheet. -/
def forgetSweeps (c n : Nat) (s : State) : State :=
  s.modStn n fun u =>
    { u with link := { u.link with missed := u.link.missed.filter fun x => x.2 != c
                                   unreported := u.link.unreported.map fun x => if x.2 = some c then (x.1, none) else x } }

/-- A context unallocated. -/
def freeCtx (c : Nat) (s : State) : State :=
  let s1 := overN 8 (fun n s => forgetSweeps c n (purge c n s)) (s.setCtx c {})
  let s2 := ((s1.setReg (PCTX_STATE c) 0).setReg (PCTX_SHEET c) 0).setReg (PCTX_ORG_LO c) 0
  printSync (psqSync (s2.setReg (PCTX_ORG_HI c) 0))

/-- A context whose SHEET_DONE is written: RETIRED until the next PSQ cycle (R106). -/
def retireCtx (c : Nat) (s : State) : State :=
  let s1 := overN 8 (fun n s => forgetSweeps c n (purge c n s)) (s.p (PCTX_STATE_STATE c) Px.retired)
  printSync (psqSync s1)

/-- The next PSQ cycle: every RETIRED context is FREE (R106). -/
def freeRetired (s : State) : State :=
  (ctxKeys s).foldl (fun s c => if ctxState s c = Px.retired then freeCtx c s else s) s

/-- Complete the SHEET_COMMIT of a context, where it has not completed. -/
def completeCommit (c status result : Nat) (s : State) : State :=
  let u := s.ctxU c
  if u.open_ then complete u.pair u.cid 0x20 status result (s.setCtx c { u with open_ := false }) else s

/-- A verify decoder abandons a context's band. -/
def dropDec (c n : Nat) (s : State) : State :=
  match bankGet none s.codec.vdec n with
  | some (.band b) => if b.ctx = c then
      { s with codec.vdec := bankPut none n none s.codec.vdec }.pb (VDEC_STAT_BUSY n) false
    else s
  | _ => s

/-- Take a context out of every verify decoder and the verify queue. -/
def dropVerify (c : Nat) (s : State) : State :=
  let s := overN 8 (dropDec c) s
  let q := s.codec.queue.filter fun i => match i with | .band b => b.ctx != c | .job _ => true
  { s with codec := { s.codec with queue := q } }.p CODEC_VSTAT_QUEUED (min 65535 q.length)

/-- A LOADED or VERIFYING context returns to FREE, its SHEET_COMMIT completing with `status` and, where a rule gives
it, the engine state `eng` (R72). -/
def refuseCommit (c status result : Nat) (eng : Option Nat) (s : State) : State :=
  let u := s.ctxU c
  let s1 := dropVerify c s
  let s2 := if u.open_ then
      match eng with
      | some e => completeIn e u.pair u.cid 0x20 status result s1
      | none => complete u.pair u.cid 0x20 status result s1
    else s1
  freeCtx c s2

/-- An ARMED context is released (R107): SPOILED with AT_DELIV 1, its D out of PSQ_DEMAND at once. -/
def releaseArmed (cause c : Nat) (s : State) : State :=
  let s1 := ((s.p (PCTX_STATE_STATE c) Px.spoiled).p (PCTX_STATE_CAUSE c) cause).p (PCTX_STATE_AT_DELIV c) 1
  let s2 := s1.modCtx c fun u => { u with endAt := s.time, ended := true }
  psqSync { s2 with psq := { s2.psq with nSpoiled := s2.psq.nSpoiled + 1 } }

/-! ## One PSQ cycle (R20, R108) -/

/-- What a context that enters FEEDING now would carry. -/
def priorOf (s : State) : Prior :=
  { at_ := s.clock
    regs := [s.reg PSQ_SPEED, s.reg PSQ_PTRIM, s.reg THM_CEIL]
    reef := s.g THM_TJ_REEF
    trim := s.psq.trim
    trimSeq := s.psq.trimSeq
    newest := (List.range 8).map fun n => (s.stnU n).newest
    adjust := (List.range 8).map fun n => ((s.stnU n).lineAdj, (s.stnU n).p64Adj, (s.stnU n).magAdj)
    epochs := s.vis.epoch
    web := s.psq.web }

/-- A change under R20 comes: what held before the first of its PSQ cycle is kept. -/
def noteChange (s : State) : State :=
  if s.psq.prior.map (·.at_) = some s.clock then s else { s with psq.prior := some (priorOf s) }

/-- The machine as a context that enters FEEDING in this PSQ cycle finds it: the changes of the cycle not yet applied
(R20, R335). -/
def beforeChanges (s : State) : State :=
  match s.psq.prior with
  | none => s
  | some p =>
    if p.at_ ≠ s.clock then s
    else
      let s1 := ((s.setReg PSQ_SPEED (p.regs.getD 0 0)).setReg PSQ_PTRIM (p.regs.getD 1 0)).setReg THM_CEIL (p.regs.getD 2 0)
      let s2 := overN 8 (fun n s => s.modStn n fun u =>
        let a := p.adjust.getD n (0, 0, 0)
        { u with newest := p.newest.getD n {}, lineAdj := a.1, p64Adj := a.2.1, magAdj := a.2.2 }) (s1.p THM_TJ_REEF p.reef)
      { s2 with psq := { s2.psq with trim := p.trim, trimSeq := p.trimSeq, web := p.web }, vis.epoch := p.epochs }

/-- A position crossing moves a context: its state at the start of the PSQ cycle is kept. -/
def noteMove (c : Nat) (s : State) : State :=
  match (s.ctxU c).moved with
  | some (t, _) => if t = s.clock then s else s.modCtx c fun u => { u with moved := some (s.clock, ctxState s c) }
  | none => s.modCtx c fun u => { u with moved := some (s.clock, ctxState s c) }

/-- The state of a context before the crossings of the present PSQ cycle, which hard stops, faults and SHEET_ABORT of that
cycle precede (R108). -/
def cycleState (s : State) (c : Nat) : Nat :=
  match (s.ctxU c).moved with
  | some (t, st) => if t = s.clock then st else ctxState s c
  | none => ctxState s c

/-- A context delivered by a crossing of the present PSQ cycle. -/
def deliveredNow (s : State) (c : Nat) : Bool := ctxState s c == Px.delivered && cycleState s c != Px.delivered

/-- A context that came to delivery SPOILED by a crossing of the present PSQ cycle. -/
def divertedNow (s : State) (c : Nat) : Bool :=
  ctxState s c == Px.spoiled && s.on (PCTX_STATE_AT_DELIV c) && (s.ctxU c).fed
    && (match (s.ctxU c).moved with | some (t, st) => t == s.clock && st == Px.spoiled | none => false)

/-- A hard stop precedes the crossings of its PSQ cycle: a context that one of them took out of the path is in it, one that
a web slot has just taken is still ARMED (R108). -/
def undoMove (c : Nat) (s : State) : State :=
  if deliveredNow s c then
    let s1 := (s.p (PCTX_STATE_STATE c) (cycleState s c)).p (PCTX_STATE_AT_DELIV c) 0
    let s2 := s1.modCtx c fun u => { u with ended := false }
    { s2 with psq := { s2.psq with nDelivered := s2.psq.nDelivered - 1 } }
  else if divertedNow s c then s.p (PCTX_STATE_AT_DELIV c) 0
  else if cycleState s c = Px.armed ∧ ctxState s c = Px.feeding then
    (s.p (PCTX_STATE_STATE c) Px.armed).modCtx c fun u => { u with fed := false, hasOrigin := false, awaiting := false }
  else s

/-! ## Spoiling (R21-R23) -/

/-- STNn_STAT.FETCHING: a decoder works, or a sheet has bands untaken. -/
def fetchSync (n : Nat) (s : State) : State :=
  let u := s.stnU n
  s.pb (STN_STAT_FETCHING n) (u.dec.any (fun d => d.2.isSome) || u.fetch.any fun f => !f.todo.isEmpty)

/-- A station stops fetching a sheet: its untaken bands are dropped, and its lines, which no later sweep reads, are freed
(R140, R141), but for what is placed of a sheet whose decoder met an error there (R101). -/
def stopFetch (c n : Nat) (s : State) : State :=
  fetchSync n (s.modStn n fun u =>
    if u.fetch.any fun f => f.ctx == c && f.kept then
      { u with fetch := u.fetch.map fun f => if f.ctx = c then { f with todo := [] } else f }
    else
      { u with fetch := u.fetch.filter fun f => f.ctx != c, lead := u.lead.filter fun l => l.b.ctx != c })

/-- A station drops all it holds of a sheet that will not pass it. -/
def dropFetch (c n : Nat) (s : State) : State :=
  fetchSync n (s.modStn n fun u =>
    { u with fetch := u.fetch.filter fun f => f.ctx != c, lead := u.lead.filter fun l => l.b.ctx != c })

/-- A station that a sheet occupies. -/
def occupies (s : State) (c n : Nat) : Bool :=
  s.on (STN_STAT_OCCUPIED n) && s.g (STN_STAT_CONTEXT n) == c

/-- A station goes dark for the sheet that occupies it: later sweeps are voided, and zero codes follow (R21, R198). -/
def darkFor (c n : Nat) (s : State) : State :=
  if occupies s c n && !(s.stnU n).dark then
    (voidSweeps n s).modStn n fun u => { u with dark := true }
  else s

/-- A context SPOILED or JAMMED by a fault that bears the present time. -/
def struckNow (s : State) (c : Nat) : Bool :=
  let u := s.ctxU c
  (ctxState s c == Px.spoiled || ctxState s c == Px.jammed) && u.fed && u.ended && u.endAt == s.time

/-- A fault strikes a sheet: FEEDING, IN_PATH and IMAGING become SPOILED with one cause; a second fault changes the
cause only when it bears the same time and ranks before it (R23), also where the first was a hard stop. A sheet delivered
by a crossing of the same PSQ cycle was struck first, and comes to delivery SPOILED; one that a web slot took in that
cycle was not yet FEEDING (R108). -/
def spoil (cause c : Nat) (s : State) : State :=
  let st := ctxState s c
  if deliveredNow s c then
    let s1 := (s.p (PCTX_STATE_STATE c) Px.spoiled).p (PCTX_STATE_CAUSE c) cause
    let s2 := s1.modCtx c fun u => { u with endAt := s.time, ended := true, was := cycleState s c }
    psqSync ({ s2 with psq := { s2.psq with nDelivered := s2.psq.nDelivered - 1, nSpoiled := s2.psq.nSpoiled + 1 } }.event .divert)
  else if st = Px.feeding ∧ cycleState s c = Px.armed ∧ cause ≠ Cause.hostAbort then s
  else if st = Px.feeding ∨ st = Px.inPath ∨ st = Px.imaging then
    let s1 := (s.p (PCTX_STATE_STATE c) Px.spoiled).p (PCTX_STATE_CAUSE c) cause
    let s2 := s1.modCtx c fun u => { u with endAt := s.time, ended := true, was := st }
    let s3 := overN 8 (fun n s => darkFor c n (stopFetch c n s)) s2
    psqSync { s3 with psq := { s3.psq with nSpoiled := s3.psq.nSpoiled + 1 } }
  else if struckNow s c ∧ cause < s.g (PCTX_STATE_CAUSE c) then
    s.p (PCTX_STATE_CAUSE c) cause
  else s

/-- Whether a context can still be spoiled by a fault. -/
def spoilable (s : State) (c : Nat) : Bool :=
  let st := ctxState s c
  st == Px.feeding || st == Px.inPath || st == Px.imaging || deliveredNow s c

/-- A fault at a station strikes the sheet that occupies it (R17, R21), or that a hard stop of the same time took from
it (R23). -/
def spoilAt (cause n : Nat) (s : State) : State :=
  if s.on (STN_STAT_OCCUPIED n) then spoil cause (s.g (STN_STAT_CONTEXT n)) s
  else match (s.stnU n).jammed with
    | some (c, t) => if t = s.time ∧ ctxState s c = Px.jammed then spoil cause c s else s
    | none => s

/-- What a record says of the sheet a fault at station `n` spoils. -/
def spoiledBy (cause n : Nat) (s : State) : Option (Nat × Nat) :=
  let c := s.g (STN_STAT_CONTEXT n)
  if s.on (STN_STAT_OCCUPIED n) && spoilable s c then some (c, cause) else none

/-! ## Hard stop and its sheets (R24, R72) -/

/-- A station released by a sheet that will not pass it. -/
def vacate (c n : Nat) (s : State) : State :=
  if occupies s c n then
    let s1 := (s.pb (STN_STAT_OCCUPIED n) false).p (STN_BASE_BASE n) 0
    s1.modStn n fun u => { u with jammed := some (c, s.time), started := false, finished := false, dark := false, frozen := false, freezeFirst := false, lead := u.lead.filter fun l => l.b.ctx != c }
  else s

/-- A sheet in the path becomes JAMMED, keeping its cause or taking `cause` (R24); a cause that bears the same time and
ranks after `cause` gives way to it (R23). Of a sheet SPOILED before, the report's time stays that of the spoil (DESIGN
CHOICE, assumption log 97). -/
def jam (cause c : Nat) (s : State) : State :=
  if inPath s c ∧ ctxState s c ≠ Px.jammed then
    let s1 := s.p (PCTX_STATE_STATE c) Px.jammed
    let old := s.g (PCTX_STATE_CAUSE c)
    let s2 := if old = 0 ∨ (struckNow s c ∧ cause < old) then s1.p (PCTX_STATE_CAUSE c) cause else s1
    let st := ctxState s c
    let s3 := s2.modCtx c fun u =>
      { u with endAt := if u.ended then u.endAt else s.time, was := if u.ended then u.was else st, ended := true, awaiting := false }
    let s4 := { s3 with psq := { s3.psq with nJammed := s3.psq.nJammed + 1 } }
    overN 8 (fun n s => vacate c n (dropFetch c n (darkFor c n s))) s4
  else s

/-- What ENGINE_STOP or a hard stop does to contexts not yet feeding (R72): commits under way are refused with
BAD_STATE and the state entered, ARMED contexts are released. -/
def clearWaiting (eng cause : Nat) (s : State) : State :=
  let s1 := (ctxKeys s).foldl (fun s c =>
    if ctxState s c = Px.loaded ∨ ctxState s c = Px.verifying then refuseCommit c Sts.badState 0 (some eng) s else s) s
  let s2 := (ctxKeys s1).foldl (fun s c => if ctxState s c = Px.armed then releaseArmed cause c s else s) s1
  s2.pb THM_TJ_HOLD false

/-- Feeding stops and a web run ends (R122, R125), for what enters FEEDING in the same PSQ cycle too. -/
def stopFeeding (s : State) : State :=
  let s1 := if s.on PSQ_STAT_FEED_REQ then (s.pb PSQ_STAT_FEED_REQ false).event (.feedReq false) else s
  { s1 with psq := { s1.psq with web := false, reqFell := none, prior := s1.psq.prior.map fun p => { p with web := false } } }

end Sys2Proof.Machine
end

