-- ==== Sys2Proof/Machine/Stop.lean ====
section
/-!
DEFINITION. How the engine's outputs are forced and its machinery stopped, as operations that many events share: the
hard-wired path (spec/13_hv_fuser.md R290-R292), controlled stops of FOC channels (spec/10_motors_foc.md R247, R251,
R252), axes and groups (spec/11_step_motion.md R270), HV channels and heaters (R295, R299, R307).
-/

namespace Sys2Proof.Machine

open Reg

/-! ## FOC channels -/

namespace Mcs
/-- States of MCn_STAT.STATE (R242). -/
def off : Nat := 0
def sense : Nat := 1
def brake : Nat := 2
def ipd : Nat := 3
def open_ : Nat := 4
def run : Nat := 5
def reacq : Nat := 6
def stopping : Nat := 7
def fault : Nat := 8
end Mcs

def mcU (s : State) (n : Nat) : Mc := bankGet {} s.mot.mc n
def modMc (n : Nat) (f : Mc → Mc) (s : State) : State := { s with mot.mc := bankPut {} n (f (mcU s n)) s.mot.mc }
def mcState (s : State) (n : Nat) : Nat := s.g (MC_STAT_STATE n)

/-- The registers of a channel that something reads between two PWM periods. -/
def mcTakenRegs (n : Nat) : List Nat := [MC_CTRL n, MC_OCTRIP n, MC_START n, MC_FREQ n, MC_POLY n]

/-- The registers as written take effect (R237). -/
def mcTake (n : Nat) (s : State) : State :=
  modMc n (fun u => { u with taken := (mcTakenRegs n).map fun r => (r, s.reg r) }) s

/-- A channel register's field in force: as the last PWM period took it, as written while no period runs (R237). -/
def mcIn (s : State) (n : Nat) (f : Fld) : Nat :=
  if mcState s n = Mcs.off ∨ mcState s n = Mcs.fault then s.g f
  else fieldOf f ((((mcU s n).taken.find? fun r => r.1 == f.off).map (·.2)).getD (s.reg f.off))

/-- A channel bound to a polygon (R246). -/
def bound (s : State) (n : Nat) : Bool := decide (n < 8) && s.on (MC_POLY_BOUND n)

/-- The channel bound to station `n`'s polygon. -/
def polyOf (s : State) (n : Nat) : Option Nat :=
  (List.range 8).find? fun m => s.on (MC_POLY_BOUND m) && s.g (MC_POLY_STATION m) == n

/-- A polygon loses its lock (R247); a sheet occupying its station is spoiled (R248). -/
def loseLock (n : Nat) (s : State) : State :=
  let s1 := modMc n (fun u => { u with inWin := 0, outWin := 0 }) s
  if s1.on (MC_STAT_LOCKED n) then
    spoilAt Cause.polygonLoss (s1.g (MC_POLY_STATION n)) ((s1.pb (MC_STAT_LOCKED n) false).event (.polyLock n false))
  else s1

/-- A channel enters OFF: outputs off, STOP cleared. -/
def mcOff (n : Nat) (s : State) : State :=
  modMc n (fun u => { u with short := false, released := false, bad := 0, good := 0, duty := none })
    (loseLock n ((s.p (MC_STAT_STATE n) Mcs.off).pb (MC_CTRL_STOP n) false))

/-- A controlled stop (R251). -/
def mcStop (n : Nat) (s : State) : State :=
  let st := mcState s n
  if st = Mcs.run ∨ st = Mcs.reacq then
    modMc n (fun u => { u with stopN := 0, stopFrom := s.gi (MC_SPEED_RPM n), short := false })
      (loseLock n (s.p (MC_STAT_STATE n) Mcs.stopping))
  else if st = Mcs.sense ∨ st = Mcs.brake ∨ st = Mcs.ipd ∨ st = Mcs.open_ then mcOff n s
  else s

/-- Every enabled channel whose KEEP is 0, and every enabled polygon channel, stops; its ENABLE clears (R252). -/
def mcStopAll (s : State) : State :=
  overN s.part.foc (fun n s =>
    if s.on (MC_CTRL_ENABLE n) && (mcIn s n (MC_CTRL_KEEP n) == 0 || bound s n) then
      (mcStop n s).pb (MC_CTRL_ENABLE n) false
    else s) s

/-- A polygon channel's setpoint: rpm = S x 60 / FACETS in SQ17.3, S the station's commanded sweep rate (R246). -/
def polyRpm (s : State) (n : Nat) : Int :=
  let st := s.g (MC_POLY_STATION n)
  let (rate, a) := bankGet (0, 0) s.psq.sweeps st
  let f := (s.stnU st).newest.facets
  if a = 0 ∨ f = 0 then 0 else sat20 (roundDiv ((rate * 480 : Nat) : Int) ((a * f : Nat) : Int))

/-- MCn_SETP of a bound channel reads the speed its station commands. -/
def polySync (s : State) : State :=
  overN 8 (fun n s => if bound s n then s.pz (MC_SETP_SETP n) (polyRpm s n) else s) s

/-! ## Axes -/

namespace Axs
/-- States of AXn_STAT.STATE and AGg_STAT.STATE. -/
def off : Nat := 0
def idle : Nat := 1
def waiting : Nat := 2
def moving : Nat := 3
def stopping : Nat := 4
def fault : Nat := 5
end Axs

def axU (s : State) (n : Nat) : Ax := bankGet {} s.mot.ax n
def modAx (n : Nat) (f : Ax → Ax) (s : State) : State := { s with mot.ax := bankPut {} n (f (axU s n)) s.mot.ax }
def axState (s : State) (n : Nat) : Nat := s.g (AX_STAT_STATE n)
def agU (s : State) (g : Nat) : Ag := bankGet {} s.mot.ag g
def modAg (g : Nat) (f : Ag → Ag) (s : State) : State := { s with mot.ag := bankPut {} g (f (agU s g)) s.mot.ag }

/-- MOVING or STOPPING. -/
def axMoving (st : Nat) : Bool := st == Axs.moving || st == Axs.stopping

/-- A move ends: at its target for a position move (R260). -/
def axEndMove (n : Nat) (s : State) : State :=
  let s1 := ((s.setReg (AX_VEL n) 0).pb (AX_CTRL_STOP n) false).pb (AX_STAT_PEND n) false
  let off := (axU s n).disable
  let s2 := modAx n (fun u => { u with
    vel := 0, prog := 0, dist := 0, emitted := 0, estop := false, disable := false, byGroup := false, goTick := false }) s1
  if off then (s2.p (AX_STAT_STATE n) Axs.off).pb (AX_CTRL_ENABLE n) false
  else s2.p (AX_STAT_STATE n) Axs.idle

def axResult (n code : Nat) (s : State) : State := s.p (AX_STAT_RESULT n) code
def agResult (g code : Nat) (s : State) : State := s.p (AG_STAT_RESULT g) code

def memberOf (s : State) (n g : Nat) : Bool := s.on (AX_CTRL_IN_GROUP n) && s.g (AX_CTRL_GROUP n) == g
def membersOf (s : State) (g : Nat) : List Nat := (List.range s.part.axes).filter fun n => memberOf s n g
def agState (s : State) (g : Nat) : Nat := s.g (AG_STAT_STATE g)

/-- A group's end: every member ends in the same tick (R266). -/
def agEndMove (g : Nat) (s : State) : State :=
  let u := agU s g
  let s1 := (s.p (AG_STAT_STATE g) 0).pb (AG_CTRL_STOP g) false
  modAg g (fun u => { stopTick := u.stopTick, went := u.went }) (u.members.foldl (fun s m =>
    if (axU s m.1).byGroup ∧ axState s m.1 ≠ Axs.fault then axEndMove m.1 s else s) s1)

/-- AXn_VEL shows a speed and its sign. -/
def velSync (n v : Nat) (s : State) : State :=
  let r : Int := ((v / 1000000 : Nat) : Int)
  s.setReg (AX_VEL n) (BitVec.ofInt 32 (if (axU s n).fwd then r else -r))

/-! ### The order within a profile tick (R264)

A hard stop, a fault and a STOP come before the end of a move, the writes of AXn_TARGET and the GOs that the same tick took
already: those are undone, the earlier happening takes its effect, and they are taken again in their order. -/

/-- A move of the axis, or of the group it belongs to, is latched or under way (R262). -/
def axBusy (s : State) (n : Nat) : Bool :=
  let st := axState s n
  (decide (Axs.waiting ≤ st ∧ st ≤ Axs.stopping))
    || (s.on (AX_CTRL_IN_GROUP n) && agState s (s.g (AX_CTRL_GROUP n)) != 0)

/-- A write of AXn_TARGET as the axis stands (R262). -/
def axTargetPut (n : Nat) (v : Word) (s : State) : State :=
  if axBusy s n then axResult n Sts.badState s else axResult n Sts.ok (s.setReg (AX_TARGET n) v)

/-- The target and the GO of this tick are undone, and the end of the axis's move. -/
def axUnwind (n : Nat) (s : State) : State :=
  let u := axU s n
  let s1 := if u.calls.any Option.isSome then s.setReg (AX_TARGET n) u.tgt0 else s
  let s2 := if u.goTick then axEndMove n s1 else s1
  match u.ended with
  | some v => velSync n v (modAx n (fun u => { u with vel := v, velMode := true, ended := none })
      ((s2.unEvent (.axDone n)).p (AX_STAT_STATE n) Axs.moving))
  | none => s2

/-- The tick's target writes and GOs, taken again: a GO is now refused. -/
def axReplay (n : Nat) (s : State) : State :=
  (axU s n).calls.foldl (fun s c => match c with
    | some v => axTargetPut n v s
    | none => axResult n Sts.badState s) s

/-- A group's GO and its members' targets of this tick are undone, and the end of its move. -/
def agUnwind (g : Nat) (s : State) : State :=
  let u := agU s g
  let s1 := (membersOf s g).foldl (fun s n => axUnwind n s) (if u.goTick then agEndMove g s else s)
  match u.ended with
  | some (v, d, ms) =>
    let s2 := modAg g (fun u => { u with vel := v, dist := d, prog := d * 2000000000000, members := ms, ended := none })
      ((s1.unEvent (.agDone g)).p (AG_STAT_STATE g) Axs.moving)
    ms.foldl (fun s m => velSync m.1 (v * m.2.natAbs / max 1 d) (modAx m.1 (fun a =>
      { a with byGroup := true, dist := m.2.natAbs, emitted := m.2.natAbs, prog := m.2.natAbs * 2000000000000 })
      ((s.unEvent (.axDone m.1)).p (AX_STAT_STATE m.1) Axs.moving))) s2
  | none => s1

/-- The tick's target writes of the members and the group's GO, taken again. -/
def agReplay (g : Nat) (s : State) : State :=
  let s1 := (membersOf s g).foldl (fun s n => axReplay n s) s
  if (agU s g).went then agResult g Sts.badState s1 else s1

/-- What the tick took of an axis, or of the group whose move it ended with, is undone. -/
def unwind (n : Nat) (s : State) : State :=
  let g := s.g (AX_CTRL_GROUP n)
  if s.on (AX_CTRL_IN_GROUP n) && (agU s g).ended.isSome then agUnwind g s else axUnwind n s

/-- A moving axis decelerates at ESTOP and is disabled once stopped. -/
def axEstop (n : Nat) (s : State) : State :=
  if axMoving (axState s n) then
    modAx n (fun u => { u with estop := true, disable := true }) (s.p (AX_STAT_STATE n) Axs.stopping)
  else s

/-- A moving group does so along its path. -/
def agEstop (g : Nat) (s : State) : State :=
  if axMoving (agState s g) then
    (agU s g).members.foldl (fun s m =>
      modAx m.1 (fun u => { u with disable := true }) (s.p (AX_STAT_STATE m.1) Axs.stopping))
      (modAg g (fun u => { u with estop := true }) (s.p (AG_STAT_STATE g) Axs.stopping))
  else s

/-- At a hard stop or furl, moving axes and groups with KEEP 0 decelerate at ESTOP (R270); a GO of the same tick comes
after it, and is refused where a hard stop is in force (R264). -/
def axStopAll (hard : Bool) (s : State) : State :=
  let s1 := overN s.part.axes (fun n s =>
    if s.on (AX_CTRL_IN_GROUP n) || s.on (AX_CTRL_KEEP n) then s
    else if !hard && (axU s n).goTick && (axU s n).ended.isNone then s
    else axReplay n (axEstop n (axUnwind n s))) s
  overN 8 (fun g s =>
    if s.on (AG_CTRL_KEEP g) then s
    else if !hard && (agU s g).goTick && (agU s g).ended.isNone then s
    else agReplay g (agEstop g (agUnwind g s))) s1

/-! ## HV channels and heaters -/

namespace Hvs
/-- States of HVj_STAT.STATE (R295). -/
def off : Nat := 0
def on : Nat := 1
def held : Nat := 2
def cleated : Nat := 3
end Hvs

def hvU (s : State) (j : Nat) : Hv := bankGet {} s.mot.hv j
def modHv (j : Nat) (f : Hv → Hv) (s : State) : State := { s with mot.hv := bankPut {} j (f (hvU s j)) s.mot.hv }
def hvState (s : State) (j : Nat) : Nat := s.g (HV_STAT_STATE j)
def htU (s : State) (h : Nat) : Ht := bankGet {} s.mot.ht h
def modHt (h : Nat) (f : Ht → Ht) (s : State) : State := { s with mot.ht := bankPut {} h (f (htU s h)) s.mot.ht }

/-- A discharge confirmation starts (R299). -/
def hvConfirmStart (j : Nat) (s : State) : State :=
  modHv j (fun u => { u with dscAt := s.clock, failed := false }) (s.pb (HV_STAT_DSC_PEND j) true)

/-- A change of an HV channel's state; leaving ON starts a discharge confirmation (R295, R299). -/
def hvGoto (st j : Nat) (s : State) : State :=
  let was := hvState s j
  let s1 := s.p (HV_STAT_STATE j) st
  if was = Hvs.on ∧ st ≠ Hvs.on then
    modHv j (fun u => { u with erel := 0, quietAt := none, inBand := 0, outBand := 0, duty := (0, 1) })
      ((hvConfirmStart j s1).pb (HV_STAT_REGULATING j) false)
  else s1

/-- ENABLE cleared: OFF, but a CLEATED channel stays latched. -/
def hvOff (j : Nat) (s : State) : State :=
  let s1 := s.pb (HV_CTRL_ENABLE j) false
  if hvState s1 j = Hvs.cleated then s1 else hvGoto Hvs.off j s1

def hvAllOff (s : State) : State := overN 32 hvOff s

/-- A heater's gate goes low. -/
def gateLow (h : Nat) (s : State) : State :=
  if (htU s h).gate then (modHt h (fun u => { u with gate := false }) s).event (.gate h false) else s

/-- Every gate goes low. -/
def gatesLow (s : State) : State := overN 8 gateLow s

/-- Heaters with FURL_OFF set clear ENABLE at a furl (R307). -/
def htFurl (s : State) : State :=
  overN 8 (fun h s => if s.on (HT_CTRL_FURL_OFF h) then gateLow h (s.pb (HT_CTRL_ENABLE h) false) else s) s

/-! ## The hard-wired path (R290-R292) -/

def ilkOpen (s : State) (k : Nat) : Bool := bitsOf (s.g ILK_STAT_CLOSED) k 1 == 0
def anyOpen (s : State) : Bool := s.g ILK_STAT_CLOSED != 15

/-- What keeps the outputs of R290 forced: an open interlock, a hard stop, a CHIP_FATAL error, the hardware trip, a
CHIP_RESET that waits (R427). -/
def inForce (s : State) : Bool :=
  anyOpen s || s.psq.stopInForce || s.psq.chipFatal || s.on THM_TJ_TRIP || s.rig.resetWait

/-- The outputs of R290 stand forced. -/
def outForced (s : State) : Bool := inForce s || s.on ILK_STAT_FORCED

/-- LASER_ENn_N is low (R292). -/
def laserOn (s : State) (n : Nat) : Bool := !outForced s && linkState s n == Lk.up

/-- A heater is named in ILK_HEAT, for whatever interlock. -/
def htNamed (s : State) (h : Nat) : Bool := bitsOf (s.g ILK_HEAT_MASK) (4 * h) 4 != 0

/-- The outputs of R290 are forced: every HV channel discharges, heaters named in ILK_HEAT go low, DARK blocks go out on
every active station link. -/
def forceOutputs (s : State) : State :=
  let s1 := s.pb ILK_STAT_FORCED true
  let s2 := overN 32 hvConfirmStart s1
  let s3 := overN 8 (fun h s => if htNamed s h then gateLow h s else s) s2
  overN 8 (fun n s => sendDark n 1 s) s3

/-- The forcing ends once nothing keeps it in force. -/
def releaseOutputs (s : State) : State := if inForce s then s else s.pb ILK_STAT_FORCED false

/-- What a hard stop does to the machinery of MOT. -/
def stopMachinery (s : State) : State := hvAllOff (axStopAll true (mcStopAll s))

/-- What a furl does to it. -/
def furlMachinery (s : State) : State := htFurl (hvAllOff (axStopAll false (mcStopAll s)))

end Sys2Proof.Machine
end

