-- ==== Sys2Proof/Machine/Engine.lean ====
section
/-!
DEFINITION. The engine's states as shared operations: hard stop (R24, R291), drain and furl (R75, R451), the speeds
the PSQ commands (R454), and the effect of fatal errors (R17).
-/

namespace Sys2Proof.Machine

open Reg

/-- WARMUP, READY, PRINTING or DRAINING: the states a hard stop begins in. -/
def State.running (s : State) : Bool := decide (Eng.warmup ≤ s.engine ∧ s.engine ≤ Eng.draining)

/-- No speed boundary is under way any more. -/
def endBoundary (s : State) : State :=
  { s.pb PSQ_STAT_BOUNDARY false with psq := { s.psq with bstep := 0, startBoundary := false } }

/-- A hard stop from a running engine: sheets in the path are JAMMED, commits refused, ARMED contexts released, links
darkened, outputs forced, machinery stopped (R24, R72, R197, R290, R291). It precedes the crossings of its PSQ cycle
(R108). -/
def hardStop (cause : Nat) (s : State) : State :=
  let s0 := (ctxKeys s).foldl (fun s c => undoMove c s) (stopFeeding s)
  let s1 := clearWaiting Eng.hardstop cause s0
  let s2 := psqSync ((ctxKeys s1).foldl (fun s c => jam cause c s) s1)
  let s3 := (endBoundary (stopMachinery (forceOutputs s2))).setEngine Eng.hardstop
  { s3.pb THM_TJ_DRAIN false with psq := { s3.psq with stopInForce := true } }

/-- A drain begins: no further sheet is fed, and what waits is refused or released with a cause (R72, R75, R337). -/
def startDrain (cause : Nat) (s : State) : State :=
  (clearWaiting Eng.draining cause (stopFeeding s)).setEngine Eng.draining

/-- The wear accounts and emitter states of a station go to NVM, or wait for its window (R165, R172, R342). -/
def wearSave (n : Nat) (s : State) : State :=
  if nvmWindow s then
    s.modStn n fun u =>
      { u with nvmSerial := u.serial, nvmEmit := u.newest.emit, nvmWear := u.wear, nvmHealth := u.health,
               nvmWritten := s.time.sec % 2 ^ 32, nvmWait := false }
  else s.modStn n fun u => { u with nvmWait := true }

/-- The engine furls to FURLED, or to FAULT where a region's fatal error drained it (R17, R252). -/
def furl (s : State) : State :=
  let s1 := overN 8 (fun n s => wearSave n (sendDark n 3 s)) (stopFeeding s)
  let s2 := endBoundary (furlMachinery s1)
  let s3 := s2.setEngine (if s2.psq.drainFault then Eng.fault else Eng.furled)
  let s4 := overN 8 (fun n s => s.p (STN_SWEEP_RATE n) 0)
    { s3 with psq := { s3.psq with drainFault := false, sweeps := [], belt := 0, beltPasses := 0, beltTrim := 0 } }
  polySync (s4.pb THM_TJ_DRAIN false)

/-- The effect of a REGION_FATAL error in IMG, MOT, MEM or INF (R17). An engine still UNRIGGED, in DRAM training, which
R17's table does not name, stays so with its outputs as they are (DESIGN CHOICE, assumption log 76). -/
def fatalStop (s : State) : State :=
  if s.running then (hardStop Cause.interlock s).setEngine Eng.fault
  else if s.engine = Eng.unrigged then s
  else if s.engine = Eng.fault then s
  else (hvAllOff (forceOutputs s)).setEngine Eng.fault

/-- The effect of a REGION_FATAL error in HNT (R17). -/
def fatalHost (s : State) : State :=
  let e := s.engine
  if e = Eng.ready ∨ e = Eng.printing then
    let s1 := startDrain Cause.hostAbort s
    { s1 with psq := { s1.psq with drainFault := true } }
  else if e = Eng.draining then { s with psq := { s.psq with drainFault := true } }
  else if e = Eng.warmup then
    let s1 := clearWaiting Eng.furled Cause.hostAbort s
    furl { s1 with psq := { s1.psq with drainFault := true } }
  else if e = Eng.unrigged then s
  else s.setEngine Eng.fault

/-- The effect of a CHIP_FATAL error (R17): a hard stop through the hard-wired path, FAULT, and only a reset leaves. -/
def fatalChip (s : State) : State :=
  let s1 := gatesLow (if s.running then hardStop Cause.interlock s else stopMachinery (forceOutputs s))
  let s2 := s1.setEngine Eng.fault
  { s2 with psq := { s2.psq with chipFatal := true, stopInForce := true } }

/-- The effect on the engine of an error of a severity in a region (R17). -/
def fatalEffect (sev region : Nat) (s : State) : State :=
  if sev = Sev.chipFatal then fatalChip s
  else if sev = Sev.regionFatal then
    let s1 := { s with err.faulted := if s.err.faulted.contains region then s.err.faulted else s.err.faulted ++ [region] }
    if region = 2 then { s1.setReg VIS_REG_CTRL 0 with vis := { s1.vis with stopped := true } }
    else if region = 4 then fatalHost s1
    else fatalStop s1
  else s

/-- A detected error: its record, and the effect of a fatal one. Nothing of a region held in reset takes effect
(R421), and nothing before the image is applied. -/
def raise (e : ErrIn) (s : State) : State :=
  if !s.rigged ∨ s.dead ∨ errInReset s e then record e s
  else fatalEffect e.sev e.reg (record e s)

/-- The record of a fault at station `n` that R23 ranks (R421), its code the open one of `place` (assumption log 6). -/
def stnFault (place n : Nat) (hit : Option (Nat × Nat)) (s : State) : State :=
  raise { sev := 1, cls := 1, inst := n, code := (Config.errCode place).toNat, spoiled := hit } s

/-! ## Polygon and belt speeds (R125, R454) -/

/-- The window (w0, A) of a generation for a PASSES value. -/
def winOf (g : Gen) (passes : Nat) : Nat × Nat :=
  (g.win.getD (if passes = 1 then 0 else if passes = 2 then 1 else 2) (0, 0))

/-- PASSES of its code (0 = 1, 1 = 2, 2 = 4) and back. -/
def passesOf (code : Nat) : Nat := if code = 0 then 1 else if code = 1 then 2 else 4
def passCode (p : Nat) : Nat := if p = 1 then 0 else if p = 2 then 1 else 2

end Sys2Proof.Machine
end

