-- ==== Sys2Proof/Machine/Pll.lean ====
section
/-!
DEFINITION. PLLs as shared operations: the band a calibration chooses (R348), the reference mode of a PXPLL (R350), its
divider and multiplier (R162, R346), the islands that follow a PLL (R356, R357), the clock outputs' limits (R354), and
the relock or the step of a station's pixel clock (R163). Frequencies are exact fractions in Hz: numerator, denominator.
-/

namespace Sys2Proof.Machine

open Reg

/-- Reference frequency after a reference mode, Hz (R345). -/
def pfdHz (mode : Nat) : Nat := if mode = 1 then 100000000 else if mode = 2 then 25000000 else 50000000

/-- The spur offset d of a VCO frequency num/den under a reference mode, times den (R350). -/
def spurOf (num den mode : Nat) : Nat :=
  let f := pfdHz mode * den
  let r := (2 * num + f) / (2 * f)
  absN num (f * r)
where
  absN (a b : Nat) : Nat := (a - b) + (b - a)

/-- The reference mode of a PXPLL relock, and whether none met CLK_SPUR.MIN (R350). -/
def refMode (s : State) (num den : Nat) : Nat × Bool :=
  let ds := (List.range 3).map (spurOf num den)
  match (List.range 3).find? fun m => decide (ds.getD m 0 ≥ s.g CLK_SPUR_MIN * 1000 * den) with
  | some m => (m, false)
  | none =>
    let d0 := ds.getD 0 0
    let d1 := ds.getD 1 0
    let d2 := ds.getD 2 0
    (if d0 ≥ d1 ∧ d0 ≥ d2 then 0 else if d1 ≥ d2 then 1 else 2, true)

/-- The band a calibration chooses for a VCO frequency of num/den Hz: centre nearest among those that hold it with the
1 % guard, the lower number on a tie (R348). -/
def bandFor (s : State) (num den : Nat) : Option Nat :=
  (List.range 64).foldl (fun best b =>
    let lo := s.g (CLK_BAND_FMIN b) * 1000000 * den
    let hi := s.g (CLK_BAND_FMAX b) * 1000000 * den
    if 100 * lo ≤ 99 * num ∧ 101 * num ≤ 100 * hi then
      match best with
      | none => some b
      | some c => if dist b < dist c then some b else some c
    else best) none
where
  dist (b : Nat) : Nat :=
    let c := (s.g (CLK_BAND_FMIN b) + s.g (CLK_BAND_FMAX b)) * 1000000 * den
    (c - 2 * num) + (2 * num - c)

/-- The pixel clock f_px of R162: (PXPF / 256) x RATE / A / (1 + MAG x 10^-9). -/
def pxFreq (pxpf rate a : Nat) (mag : Int) : Nat × Nat :=
  (pxpf * rate * 1000000000, 256 * a * (1000000000 + mag).toNat)

/-- log2 of PXDIV: the smallest that brings the synthesizer to 400 MHz (R162). -/
def pxDivLog (f : Nat × Nat) : Nat :=
  ((List.range 7).find? fun k => decide (f.1 * 2 ^ k ≥ 400000000 * f.2)).getD 6

/-- The multiplier in 2^-32 of a synthesizer at f x 2^k on a reference mode (R162). -/
def pxMult (f : Nat × Nat) (k mode : Nat) : Nat :=
  let d := 2 * f.2 * pfdHz mode
  (f.1 * 2 ^ k * 2 ^ 32 * 2 + f.2 * pfdHz mode) / d

/-- Nearest whole number to a fraction. -/
def nearest (num den : Nat) : Nat := if den = 0 then 0 else (2 * num + den) / (2 * den)

/-- CLK_ISLi.KHZ of a frequency: kHz, or units of 1,000 kHz with bit 19 set. -/
def islCode (khz : Nat) : Nat := if khz ≥ 524288 then 524288 + khz / 1000 else khz

/-- An island on a source at a frequency. -/
def islOn (i src khz : Nat) (s : State) : State := (s.p (CLK_ISL_SRC i) src).p (CLK_ISL_KHZ i) (islCode khz)

def pllLocked (s : State) (p : Nat) : Bool := s.on (CLK_PLL_STAT_LOCK p)

/-- Once an image is in force, islands rigged to PLL `p` run from it while it is locked; a station island runs on the
boot clock while its PXPLL relocks (R356, R357). -/
def islFollow (p : Nat) (s : State) : State :=
  if !s.rigged then s
  else s.rig.isls.foldl (fun s r =>
    if r.2.1 = p ∧ r.1 < 48 then
      if pllLocked s p then islOn r.1 p (s.g (CLK_PLL_FREQ_KHZ p) / max 1 r.2.2.1) s
      else if 2 ≤ p ∧ p ≤ 9 then islOn r.1 13 125000 s
      else s
    else s) s

/-- Frequency of a clock output as a fraction in kHz: f_px / 4, or its source divided (R355). -/
def ckoKhz (s : State) (k : Nat) : Nat × Nat :=
  if k < 8 then ((s.stnU k).px.1, 4000 * (s.stnU k).px.2)
  else
    let src := s.g (CLK_CKO_SRC k)
    let f := if src = 0 then 50000 else if src = 1 then 2000000 else s.g (CLK_PLL_FREQ_KHZ (8 + src))
    (f, max 1 (s.g (CLK_CKO_DIV k)))

/-- The frequency of a clock output lies above a limit in kHz. -/
def ckoOver (s : State) (k lim : Nat) : Bool := decide (lim * (ckoKhz s k).2 < (ckoKhz s k).1)

/-- An output above its format's limit is held low and RANGE set (R354). -/
def ckoSync (k : Nat) (s : State) : State :=
  let fmt := s.g (CLK_CKO_FMT k)
  let lim := if fmt = 3 then 125000 else if fmt = 1 ∨ fmt = 2 then 312500 else 0
  if lim ≠ 0 ∧ ckoOver s k lim then s.pb (CLK_CKO_RANGE k) true else s

/-- PXPLL registers of a station for pixel clock `f` with the divider and mode in force. -/
def pxRegs (n : Nat) (f : Nat × Nat) (k mode : Nat) (s : State) : State :=
  let m := pxMult f k mode
  let s1 := ((s.p (STN_PXCTL_PXDIV n) k).p (STN_PXCTL_NINT n) (m / 2 ^ 32)).p (STN_PXFRAC_FRAC n) (m % 2 ^ 32)
  s1.p (CLK_PLL_FREQ_KHZ (2 + n)) (nearest (f.1 * 2 ^ k) (f.2 * 1000))

/-- CLK_BANDMEAS is measuring a PLL. -/
def measured (s : State) (p : Nat) : Bool := s.on CLK_BANDMEAS_BUSY && s.clk.meas == p

/-- The VCO frequency a calibration of PLL `p` aims at, as a fraction in Hz (R346, R162). -/
def vcoTarget (s : State) (p : Nat) : Nat × Nat :=
  if 2 ≤ p ∧ p ≤ 9 then
    let f := (s.stnU (p - 2)).px
    (8 * f.1 * 2 ^ s.g (STN_PXCTL_PXDIV (p - 2)), f.2)
  else (s.g (CLK_PLL_FREQ_KHZ p) * 1000 * 2 ^ s.g (CLK_PLL_STAT_ODIV p), 1)

/-- The band that PLL `p` takes from the table as it stands. -/
def bandNow (s : State) (p : Nat) : Option Nat := bandFor s (vcoTarget s p).1 (vcoTarget s p).2

def setCal (p : Nat) (c : Option (Option Nat)) (s : State) : State :=
  { s with clk := { s.clk with cal := bankPut none p c s.clk.cal } }

/-- A lock of PLL `p` begins, which a PLL under measurement does once that ends (R348, R349). -/
def calibrate (p : Nat) (s : State) : State :=
  setCal p (if s.on (CLK_PLL_STAT_RUN p) && !measured s p then some (bandNow s p) else none) s

/-- A relock of PXPLLn begins at its target: the reference mode is chosen anew (R350), and the band (R348). -/
def pxRelock (n : Nat) (s : State) : State :=
  let p := 2 + n
  let f := (s.stnU n).px
  let k := s.g (STN_PXCTL_PXDIV n)
  let (mode, near) := refMode s (8 * f.1 * 2 ^ k) f.2
  let s1 := (pxRegs n f k mode s).p (CLK_PLL_STAT_REFMODE p) mode
  calibrate p (if near then s1.pb (CLK_PLL_STAT_SPUR_NEAR p) true else s1)

/-- A change of f_px relocks PXPLLn: divider and reference mode anew, LOCK cleared until PLL_LOCK (R162, R163, R350). -/
def pxRetune (n pxpf rate a : Nat) (s : State) : State :=
  let f := pxFreq pxpf rate a (s.stnU n).magNow
  if rate = 0 ∨ a = 0 ∨ pxpf = 0 ∨ 8 ≤ n then s
  else if s.on (CLK_PLL_STAT_RUN (2 + n)) ∧ f.1 * (s.stnU n).px.2 = (s.stnU n).px.1 * f.2 then s
  else
    let s1 := (s.modStn n fun u => { u with px := f }).p (STN_PXCTL_PXDIV n) (pxDivLog f)
    let p := 2 + n
    let s2 := (s1.pb (CLK_PLL_STAT_RUN p) true).p (CLK_PLL_STAT_ODIV p) 3
    islFollow p (((pxRelock n s2).pb (CLK_PLL_STAT_LOCK p) false).pb (STN_PXCTL_LOCK n) false)

/-- A magnification step of the synthesizer's fraction, without relock (R163): the divider in force stays, wherever the step
takes f_px (DESIGN CHOICE, assumption log 97). -/
def magStep (n : Nat) (mag : Int) (s : State) : State :=
  let u := s.stnU n
  let s1 := (s.modStn n fun u => { u with magNow := mag }).pz (STN_MAG_MAG n) mag
  if u.px.1 = 0 then s1
  else
    let f := (u.px.1 * (1000000000 + u.magNow).toNat, u.px.2 * (1000000000 + mag).toNat)
    ckoSync n (pxRegs n f (s.g (STN_PXCTL_PXDIV n)) (s.g (CLK_PLL_STAT_REFMODE (2 + n))) (s1.modStn n fun u => { u with px := f }))

/-- The pixel clock, nearest Hz. -/
def pxHz (s : State) (n : Nat) : Nat := nearest (s.stnU n).px.1 (s.stnU n).px.2

end Sys2Proof.Machine
end

