-- ==== Sys2Proof/Machine/StationCfg.lean ====
section
/-!
DEFINITION. A station's configuration: the block STATION_CFG reads and its checks (R132-R135, R153, R154, R189),
effective windows (R168, R169), legal rates (R159, R188), line geometry of a sweep on the link (R190, R191).
-/

namespace Sys2Proof.Machine

open Reg

/-! ## Emitters and windows -/

def Gen.em (g : Gen) (e : Nat) : Emit := g.emit.getD e {}

def isDead (m : Emit) : Bool := m.st == 2
def isRerig (m : Emit) : Bool := m.st == 2 && m.hand == 1
def isFill (m : Emit) : Bool := m.st == 2 && m.hand == 0

/-- Maximal runs [lo, hi] of emitters below `e` without a re-rig DEAD emitter, ascending. -/
def runsFrom (g : Gen) : List Nat → Option Nat → Nat → List (Nat × Nat)
  | [], none, _ => []
  | [], some lo, last => [(lo, last)]
  | e :: r, cur, last =>
    if isRerig (g.em e) then
      match cur with
      | some lo => (lo, last) :: runsFrom g r none e
      | none => runsFrom g r none e
    else runsFrom g r (some (cur.getD e)) e

def runs (g : Gen) : List (Nat × Nat) := runsFrom g (List.range g.eCount) none 0

/-- The largest a not above `a` that has no common factor with the pitch. -/
def coprimeDown (p : Nat) : Nat → Nat
  | 0 => 0
  | a + 1 => if gcdN (a + 1) p = 1 then a + 1 else coprimeDown p a

def absDiff (a b : Nat) : Nat := (a - b) + (b - a)

/-- The derived window of R169 for `p` passes. -/
def deriveWin (g : Gen) (p w0c ac : Nat) : Nat × Nat :=
  (runs g).foldl (fun best r =>
    let a := coprimeDown g.pitch (min ac ((r.2 - r.1 + 1) / p))
    if a = 0 then best
    else
      let w := max r.1 (min w0c (r.2 + 1 - a * p))
      if a > best.2 ∨ (a = best.2 ∧ absDiff w w0c < absDiff best.1 w0c) then (w, a) else best) (0, 0)

/-- Whether the configured window of `p` passes holds a re-rig DEAD emitter. -/
def winRerig (g : Gen) (p : Nat) : Bool :=
  let (w0, a) := winOf g p
  (List.range (a * p)).any fun i => isRerig (g.em (w0 + i))

/-- The effective window (w0, A) of a generation for `p` passes (R169). -/
def effWin (g : Gen) (p : Nat) : Nat × Nat :=
  let (w0, a) := winOf g p
  if a ≠ 0 ∧ winRerig g p then deriveWin g p w0 a else (w0, a)

/-- The fill-handled DEAD emitters of a window. -/
def fillDead (g : Gen) (w : Nat × Nat) (p : Nat) : List Nat :=
  ((List.range (w.2 * p)).map (· + w.1)).filter fun e => isFill (g.em e)

/-- Whether a window meets R168. -/
def meets168 (g : Gen) (p : Nat) (w : Nat × Nat) : Bool :=
  let ds := fillDead g w p
  ds.isEmpty || (decide (2 ≤ w.2) && ds.all fun d1 => ds.all fun d2 =>
    d1 == d2 ||
      (let r := (((d1 : Int) - d2) * g.pitch) % (w.2 : Int)
       r != 0 && r != 1 && r != (w.2 : Int) - 1))

/-! ## Rates -/

/-- Whether a sweep rate RATE / A lies in the polygon and pixel-clock range (R159). -/
def rateInRange (g : Gen) (rate a : Nat) : Bool :=
  decide (60 * rate ≥ a * 10000 * g.facets) && decide (rate ≤ 12000 * a)
    && decide (60 * rate ≤ a * g.rpmMax * g.facets) && decide (rate * g.pxpf ≤ a * 229939200000)

/-- Legality of a rate at a generation for `p` passes (R159). -/
def legal159 (g : Gen) (rate p : Nat) : Bool :=
  let w := effWin g p
  decide (w.2 ≠ 0) && rateInRange g rate w.2 && meets168 g p w

/-- TX lanes and lane rate, kbit/s, of a link version (R178). -/
def lanesOf (ver : Nat) : Nat := if ver = 0x0100 then 1 else 2
def laneKbps (ver : Nat) : Nat := if ver = 0x0200 then 28125000 else 25781250
/-- Highest emitter-pixel rate of a version, pixels/s. -/
def maxEmPx (ver : Nat) : Nat := if ver = 0x0100 then 6000000000 else if ver = 0x0101 then 10800000000 else 12000000000

/-- Blocks that a packet of `len` bytes takes (R183). -/
def blocksOf (len : Nat) : Nat := 1 + (len - 7 + 7) / 8

def headLen (ver : Nat) : Nat := if ver = 0x0200 then 68 else 34
def dataLen (ver count : Nat) : Nat := 24 + count / 2 + (if ver = 0x0200 then 4 else 2)

/-- Blocks of one sweep: head, data, a pair of SWEEP_VOID, and DESKEW (R188, R190, R191). -/
def sweepBlocks (ver emitters width : Nat) : Nat :=
  let perEm := width / 2048 * blocksOf (dataLen ver 2048)
    + (if width % 2048 = 0 then 0 else blocksOf (dataLen ver (width % 2048)))
  let n := blocksOf (headLen ver) + emitters * perEm + 6
  n + lanesOf ver * ceilDiv (ceilDiv n (lanesOf ver)) 16383

/-- Legality of a rate on the link (R188). -/
def legal188 (ver sos width rate p a : Nat) : Bool :=
  let lk := lanesOf ver * laneKbps ver
  let b := sweepBlocks ver (a * p) width
  decide (rate * p * width ≤ maxEmPx ver)
    && decide ((b * 66000 + 6 * lk) * 65536 * rate ≤ (65536 + sos) * a * lk * 1000000)

/-- The version and SOS that R188 judges a station by: negotiated while UP, else the newest generation's highest. -/
def linkBasis (s : State) (n : Nat) : Nat × Nat :=
  if linkState s n = Lk.up then ((s.stnU n).link.version, s.g (STN_DCAP1_SOS n))
  else (min 0x0200 (s.stnU n).newest.alMax, 0)

/-- A RATE with PASSES is legal at station `n` (R159, R188). -/
def legalAt (s : State) (n rate p : Nat) : Bool :=
  let g := (s.stnU n).newest
  let (ver, sos) := linkBasis s n
  legal159 g rate p && legal188 ver sos g.width rate p (effWin g p).2

/-- The highest RATE of R159 and R188 for the newest generation, lines/s (R177). -/
def highestRate (s : State) (n p : Nat) : Nat :=
  let g := (s.stnU n).newest
  let a := (effWin g p).2
  let (ver, sos) := linkBasis s n
  let lk := lanesOf ver * laneKbps ver
  let b := sweepBlocks ver (a * p) g.width
  let m := min (min (12000 * a) (a * g.rpmMax * g.facets / 60)) (a * 229939200000 / max 1 g.pxpf)
  let m := min m (min (maxEmPx ver / max 1 (p * g.width)) ((65536 + sos) * a * lk * 1000000 / max 1 ((b * 66000 + 6 * lk) * 65536)))
  let m := min m (160000 / max 1 p)
  if legalAt s n m p then m else 0

/-- The commanded PASSES and RATE (PSQ_SPEED). -/
def cmdPasses (s : State) : Nat := passesOf (s.g PSQ_SPEED_PASSES)
def cmdRate (s : State) : Nat := s.g PSQ_SPEED_RATE

/-- Enabled stations: those whose newest generation enables them. -/
def stnEnabled (s : State) (n : Nat) : Bool := (s.stnU n).newest.enable
def enabledStns (s : State) : List Nat := (List.range 8).filter (stnEnabled s)

/-! ## Counts per line -/

/-- CPL_eff as a fraction: numerator, over 1,024 x 10^9 (Q10.10 counts per line and the trim in 10^-9). -/
def cplNum (s : State) (trim : Int) : Int := (s.g PSQ_CPL_CPL : Int) * (1000000000 + trim)
def cplDen : Nat := 1024 * 1000000000

/-- Lines to counts, rounded to the nearest count. -/
def countsOf (s : State) (trim : Int) (lines : Int) : Int := roundDiv (lines * cplNum s trim) cplDen

/-- Lines to counts, the first whole count at or beyond them: where the front is when it has passed so many lines. -/
def countsUp (s : State) (trim : Int) (lines : Int) : Int := -((-(lines * cplNum s trim)) / (cplDen : Int))

/-! ## Speeds commanded to polygons and belt -/

/-- Command each enabled station's polygon to RATE / A (STNn_SWEEP in 1/256 sweeps/s) with its pixel clock (R163), and
the belt to the line rate with trim (R125 step 3, R454); nothing while RATE is 0. The sweep rate is truncated to its 1/256
(DESIGN CHOICE, assumption log 60). -/
def commandSpeeds (rate p : Nat) (trim : Int) (s : State) : State :=
  if rate = 0 then s
  else
    let s1 := (enabledStns s).foldl (fun s n =>
      let a := (effWin (s.stnU n).newest p).2
      let v := if a = 0 then 0 else 256 * rate / a
      let s1 := { s.p (STN_SWEEP_RATE n) v with psq := { s.psq with sweeps := bankPut (0, 0) n (rate, a) s.psq.sweeps } }
      pxRetune n (s.stnU n).newest.pxpf rate a s1) s
    polySync { s1 with psq := { s1.psq with belt := rate, beltPasses := p, beltTrim := trim } }

/-- A trim applied: the number of changes of the trim in force goes on with it (R231). -/
def applyTrim (t : Int) (s : State) : State :=
  let s := noteChange s
  { s with psq := { s.psq with trim := t, trimSeq := if t = s.psq.trim then s.psq.trimSeq else s.psq.trimSeq + 1 } }

/-- While the engine is WARMUP the PSQ commands the speeds as PSQ_SPEED and PSQ_PTRIM hold them; a PTRIM so applied is
no longer waiting (R454). -/
def warmupSpeeds (s : State) : State :=
  if s.engine = Eng.warmup then
    let trim := s.gi PSQ_PTRIM_TRIM
    applyTrim trim (commandSpeeds (cmdRate s) (cmdPasses s) trim s)
  else s

/-! ## The configuration block -/

/-- proc_lpi of R135. -/
def procLpi (procRes : Nat) : Nat := if procRes = 0 then 2400 else 1200

/-- b_of(res) of R135. -/
def bOf (width procRes res : Nat) : Nat := width / 8 + (width * res / 2400) / (procLpi procRes / res)

/-- Reach of R135 for a contone resolution. -/
def reachOf (g : Gen) (bowMin bowMax : Int) (res : Nat) : Nat :=
  (g.eCount - 1) * g.pitch + 1 + (bowMax - bowMin).toNat + procLpi g.procRes / res

def topRes (g : Gen) : Nat := if g.ctMax = 1 then 1200 else 600

/-- CAPL of R140. -/
def caplOf (cap : Nat) (g : Gen) : Nat :=
  let b := bOf g.width g.procRes (topRes g)
  if b = 0 then 0 else cap / b

/-- The capacity check of R135. -/
def capacityOk (cap : Nat) (g : Gen) (bowMin bowMax : Int) : Bool :=
  let capl := caplOf cap g
  let one := fun res =>
    let r := min 160000 (3000000000 / max 1 (bOf g.width g.procRes res))
    decide (capl ≥ reachOf g bowMin bowMax res + ceilDiv r 1000)
  one 600 && (g.ctMax == 0 || one 1200)

def minI (l : List Int) : Int := match l with | [] => 0 | x :: r => r.foldl min x
def maxI (l : List Int) : Int := match l with | [] => 0 | x :: r => r.foldl max x

def segCount (g : Gen) : Nat := ceilDiv g.width g.segw

/-- The active bow table, from its registers. -/
def bowActive (s : State) (n : Nat) : List Int :=
  (List.range 4096).map fun i => sext 8 (s.g (STN_BOW_BOW n i))

/-- The 32-bit little-endian words of a byte string. -/
def words32 (b : List Byte) (k : Nat) : List Nat := (List.range k).map fun i => bytesAt b (4 * i) 4

/-- A table of `len` bytes at `a` is a multiple of 64 and wholly in installed DRAM. -/
def tableOk (s : State) (a len : Nat) : Bool := decide (a % 64 = 0 ∧ a + len ≤ s.installed)

/-- The masks of `p` passes from tile `t0`: together every bit, and disjoint unless overlap is allowed (R158). -/
def masksOk (mask : List Nat) (overlap : Bool) (t0 p : Nat) : Bool :=
  (List.range 32).all fun r =>
    let ws := (List.range p).map fun t => mask.getD (32 * (t0 + t) + r) 0
    ws.foldl Nat.lor 0 == 0xFFFFFFFF
      && (overlap || sumN ws == ws.foldl Nat.lor 0)

/-- The fields of a block as a generation (no check), its tables read where their condition holds; tables not read
keep the previous generation's contents (R154). -/
def parseGen (m : List Host.Cell) (b : List Byte) (prev : Gen) : Gen :=
  let win := (List.range 3).map fun i => (bytesAt b (0x64 + 2 * i) 1, bytesAt b (0x65 + 2 * i) 1)
  let sf := bytesAt b 0x63 1
  let maskRead := (win.getD 1 (0, 0)).2 != 0 || (win.getD 2 (0, 0)).2 != 0
  { num := 0
    enable := true
    width := bytesAt b 0 4
    segw := bytesAt b 4 1
    ctMax := bytesAt b 5 1
    screen := bytesAt b 6 1
    mirror := bytesAt b 7 1 % 2 == 1
    tagLvl := bytesAt b 8 4
    load := bytesAt b 0xC 1
    procRes := bytesAt b 0xD 1
    scrSize := bytesAt b 0x10 4
    cells := bytesAt b 0x18 8
    bow := bytesAt b 0x20 8
    scr := (List.range 4).map fun a => bytesAt b (0x28 + 8 * a) 8
    eCount := bytesAt b 0x60 1
    pitch := bytesAt b 0x61 1
    facets := bytesAt b 0x62 1
    flags := sf
    win := win
    rpmMax := bytesAt b 0x6A 2
    pxpf := bytesAt b 0x6C 4
    htWarn := sext 16 (bytesAt b 0x70 2)
    htCrit := sext 16 (bytesAt b 0x72 2)
    htRef := sext 16 (bytesAt b 0x74 2)
    htCoef := bytesAt b 0x78 4
    wear := bytesAt b 0x7C 4
    mask := if maskRead then words32 (memRead m (bytesAt b 0x80 8) 768) 192 else prev.mask
    fill := if bitsOf sf 1 1 = 1 then (words32 (memRead m (bytesAt b 0x88 8) 16384) 4096).map (· % 2 ^ 20) else prev.fill
    facet := if bitsOf sf 2 1 = 1 then
        let t := memRead m (bytesAt b 0x90 8) 96
        (List.range 12).map fun f => (sext 16 (bytesAt t (8 * f) 2), bytesAt t (8 * f + 4) 4)
      else prev.facet
    emit := prev.emit
    codeTbl := (List.range 16).map fun c => bytesAt b (0xC0 + 2 * c) 2
    alMin := bytesAt b 0xE0 2
    alMax := bytesAt b 0xE2 2
    burst := bytesAt b 0xE4 1
    liv := bytesAt b 0xE5 1 % 2 == 1
    livPeriod := bytesAt b 0xE6 2
    block := b }

/-- Bytes of screen array `a` of a block, from SCR_SIZE (R132). -/
def scrEntries (scrSize a : Nat) : Nat := 2 ^ (bitsOf scrSize (8 * a) 4 + bitsOf scrSize (8 * a + 4) 4)

/-- R132: the pipeline fields and their tables. -/
def pipeOk (s : State) (b : List Byte) (g : Gen) : Bool :=
  decide (g.width % 32 = 0 ∧ 32 ≤ g.width ∧ g.width ≤ 73728 ∧ 4 ≤ g.segw ∧ g.segw ≤ 64 ∧ segCount g ≤ 4096
    ∧ g.ctMax ≤ 1 ∧ g.screen ≤ 3 ∧ bytesAt b 7 1 ≤ 1 ∧ g.tagLvl ≤ 0x40000 ∧ g.load < 64 ∧ g.procRes ≤ 1)
  && zeroAt b 0xE 2 && zeroAt b 0x14 4 && zeroAt b 0x48 24
  && ((List.range 8).all fun i => decide (4 ≤ bitsOf g.scrSize (4 * i) 4 ∧ bitsOf g.scrSize (4 * i) 4 ≤ 8))
  && (bitsOf g.load 0 1 == 0 || tableOk s g.cells 655360)
  && (bitsOf g.load 1 1 == 0 || tableOk s g.bow 4096)
  && ((List.range 4).all fun a => bitsOf g.load (2 + a) 1 == 0 || tableOk s (g.scr.getD a 0) (4 * scrEntries g.scrSize a))

/-- R153 and R154: the scan fields, their tables and the windows; the masks apart. -/
def scanOk (s : State) (b : List Byte) (g : Gen) : Bool :=
  decide (1 ≤ g.eCount ∧ g.eCount ≤ 40 ∧ 1 ≤ g.pitch ∧ g.pitch ≤ 15 ∧ 4 ≤ g.facets ∧ g.facets ≤ 12 ∧ g.flags < 8
    ∧ 10000 ≤ g.rpmMax ∧ g.rpmMax ≤ 60000 ∧ g.htWarn < g.htCrit ∧ g.htCoef < 2 ^ 20)
  && zeroAt b 0x76 2 && zeroAt b 0x98 40
  && decide ((winOf g 1).2 ≠ 0)
  && ([1, 2, 4].all fun p =>
      let w := winOf g p
      w.2 == 0 || (decide (w.2 ≤ 40 ∧ w.1 + w.2 * p ≤ g.eCount) && gcdN w.2 g.pitch == 1))
  && decide (g.pxpf > 256 * g.width)
  -- dead interval at SMAX of at least 4 us, for SMAX = min(12,000, RPM_MAX x FACETS / 60, 0.998 x 900 MHz / (PXPF / 256))
  && (let dead := fun num den => decide ((g.pxpf - 256 * g.width) * den * 250000 ≥ g.pxpf * num)
      dead 12000 1 || dead (g.rpmMax * g.facets) 60 || dead 229939200000 g.pxpf)
  && decide (g.pxpf * 10000 * g.facets ≥ 6250000 * 256 * 60)
  && ((winOf g 2).2 == 0 && (winOf g 4).2 == 0 || tableOk s (bytesAt b 0x80 8) 768)
  && (bitsOf g.flags 1 1 == 0 || (tableOk s (bytesAt b 0x88 8) 16384
        && g.fill.all fun f => decide (0x40000 ≤ f ∧ f ≤ 0x80000)))
  && (bitsOf g.flags 2 1 == 0 || (tableOk s (bytesAt b 0x90 8) 96
        && (g.facet.all fun f => decide (-2048 ≤ f.1 ∧ f.1 ≤ 2047 ∧ 0x30000 ≤ f.2 ∧ f.2 ≤ 0x50000))
        && ((List.range 12).all fun i => zeroAt (memRead (memTaken s) (bytesAt b 0x90 8) 96) (8 * i + 2) 2)))

/-- The pass masks are read: some P but 1 is in use, and their table lies where it must (R153, R154). -/
def maskReads (s : State) (b : List Byte) (g : Gen) : Bool :=
  ((winOf g 2).2 != 0 || (winOf g 4).2 != 0) && tableOk s (bytesAt b 0x80 8) 768

/-- The pass masks of every P in use (R154, R158). -/
def maskOk (g : Gen) : Bool :=
  let ov := bitsOf g.flags 0 1 == 1
  ((winOf g 2).2 == 0 || masksOk g.mask ov 0 2) && ((winOf g 4).2 == 0 || masksOk g.mask ov 2 4)

/-- The effective window for the commanded PASSES meets R159, R168 and R169 (R154). -/
def winOk (s : State) (g : Gen) : Bool :=
  let p := cmdPasses s
  let w := effWin g p
  decide (w.2 ≠ 0) && meets168 g p w
    && (cmdRate s == 0 || legal159 g (cmdRate s) p)

/-- R189: the link fields. -/
def linkFieldsOk (b : List Byte) (g : Gen) : Bool :=
  let impl := fun v => v == 0x0100 || v == 0x0101 || v == 0x0200
  (g.codeTbl.getD 0 1 == 0)
  && ((List.range 15).all fun c => decide (g.codeTbl.getD c 0 ≤ g.codeTbl.getD (c + 1) 0))
  && impl g.alMin && impl g.alMax && decide (g.alMin ≤ g.alMax ∧ 1 ≤ g.burst ∧ g.burst ≤ 64)
  && decide (bytesAt b 0xE5 1 < 2) && !(g.liv && decide (g.alMax < 0x0200)) && g.livPeriod != 0
  && zeroAt b 0xE8 24

/-- The bow table of a block: loaded, or the active one; segments in use. -/
def bowFor (s : State) (n : Nat) (g : Gen) : List Int :=
  (if bitsOf g.load 1 1 = 1 then (memRead (memTaken s) g.bow 4096).map fun x => sext 8 x.toNat else bowActive s n).take (segCount g)

/-- Step 1 of R133 for a block: PARAM unless every field, table and the capacity check pass. -/
def blockOk (s : State) (n : Nat) (b : List Byte) (g : Gen) : Bool :=
  pipeOk s b g && scanOk s b g && maskOk g && winOk s g && linkFieldsOk b g
    && (bitsOf g.load 1 1 == 0 || (memRead (memTaken s) g.bow 4096).all fun x => x != 0x80#8)
    && (let bw := bowFor s n g
        capacityOk (s.g (STN_LBBYTES_BYTES n)) g (minI bw) (maxI bw))

end Sys2Proof.Machine
end

