-- ==== Sys2Proof/Machine/Inputs.lean ====
section
/-!
DEFINITION. The converter inputs that motor channels, HV channels, heaters, rail slots and command pins share, and
their budget (spec/10_motors_foc.md R234, spec/13_hv_fuser.md R294, R300, R305, spec/14_power_supervision.md R314).
-/

namespace Sys2Proof.Machine

open Reg

/-- Sigma-delta inputs that FOC channel `n` takes. -/
def mcSd (s : State) (n : Nat) : List Nat :=
  if s.on (MC_SENSE_KIND n) then []
  else [s.g (MC_SENSE_INU n), s.g (MC_SENSE_INV n)] ++ (if s.on (MC_SENSE_W_EN n) then [s.g (MC_SENSE_INW n)] else [])

/-- Sigma-delta inputs that HV channel `j` takes. -/
def hvSd (s : State) (j : Nat) : List Nat :=
  (if s.on (HV_FB_VKIND j) then [] else [s.g (HV_FB_VIN j)]) ++ (if s.on (HV_FB_IKIND j) then [] else [s.g (HV_FB_IIN j)])

/-- AIN samples per second that FOC channel `n` takes (R234). -/
def mcAin (s : State) (n : Nat) : Nat :=
  s.g (MC_PWM_FREQ n) * 100 *
    ((if s.on (MC_SENSE_KIND n) then (if s.on (MC_SENSE_W_EN n) then 3 else 2) else 0)
      + (if s.on (MC_SENSE_VBUS_EN n) then 1 else 0))

/-- AIN samples per second that HV channel `j`'s feedback takes. -/
def hvAin (s : State) (j : Nat) : Nat := 100000 * (s.g (HV_FB_VKIND j) + s.g (HV_FB_IKIND j))

/-- FOC channels whose inputs are in use: enabled, or still running down. -/
def mcOn (s : State) : List Nat :=
  (List.range s.part.foc).filter fun n =>
    s.on (MC_CTRL_ENABLE n) || (mcState s n != Mcs.off && mcState s n != Mcs.fault)

def hvOn (s : State) : List Nat := (List.range 32).filter fun j => s.on (HV_CTRL_ENABLE j)

/-- AIN samples per second of every user but the FOC and HV channels: command pins, guards, heaters, rails. -/
def otherAin (s : State) : Nat :=
  10000 * ((List.range 8).filter fun k => s.g (CMD_CFG_MODE k) == 1).length
    + 1000 * ((List.range 32).filter fun j => s.on (HV_GUARD_EN j)).length
    + 8000
    + 1000 * ((List.range 32).filter fun r => s.on (PWR_SLOT_CFG_OV_EN r) && s.on (PWR_SLOT_STAT_ACTIVE r)).length

/-- The AIN budget holds with FOC channels `ms` and HV channels `js` in use. -/
def ainOk (s : State) (ms js : List Nat) : Bool :=
  decide (sumN (ms.map (mcAin s)) + sumN (js.map (hvAin s)) + otherAin s ≤ 1000000)

/-- FOC channel `n` may be enabled beside those enabled: its sigma-delta inputs are free and the AIN budget holds. -/
def mcInputsOk (s : State) (n : Nat) : Bool :=
  let ms := (mcOn s).filter (· != n)
  let used := ms.flatMap (mcSd s) ++ (hvOn s).flatMap (hvSd s)
  let mine := mcSd s n
  mine.all (fun i => !used.contains i) && decide mine.Nodup && ainOk s (n :: ms) (hvOn s)

/-- AIN inputs that FOC channel `n` takes. -/
def mcAinOf (s : State) (n : Nat) : List Nat :=
  (if s.on (MC_SENSE_KIND n) then
    [s.g (MC_SENSE_INU n), s.g (MC_SENSE_INV n)] ++ (if s.on (MC_SENSE_W_EN n) then [s.g (MC_SENSE_INW n)] else [])
   else []) ++ (if s.on (MC_SENSE_VBUS_EN n) then [s.g (MC_SENSE_VBUS n)] else [])

/-- AIN inputs that HV channel `j`'s feedback takes. -/
def hvAinOf (s : State) (j : Nat) : List Nat :=
  (if s.on (HV_FB_VKIND j) then [s.g (HV_FB_VIN j)] else []) ++ (if s.on (HV_FB_IKIND j) then [s.g (HV_FB_IIN j)] else [])

/-- AIN inputs of every other user: command pins, guards, enabled heaters, rails. -/
def otherAinOf (s : State) : List Nat :=
  ((List.range 8).filter fun k => s.g (CMD_CFG_MODE k) == 1).map (fun k => s.g (CMD_CFG_AIN k))
    ++ ((List.range 32).filter fun j => s.on (HV_GUARD_EN j)).map (fun j => s.g (HV_GUARD_AIN j))
    ++ ((List.range 8).filter fun h => s.on (HT_CTRL_ENABLE h)).map (fun h => s.g (HT_TH_AIN h))
    ++ ((List.range 32).filter fun r => s.on (PWR_SLOT_CFG_OV_EN r) && s.on (PWR_SLOT_STAT_ACTIVE r)).map
        (fun r => s.g (PWR_SLOT_CFG_OV_AIN r))

/-- HV channel `j` may be enabled beside those enabled: its inputs exist and nothing else has them (R294). -/
def hvInputsOk (s : State) (j : Nat) : Bool :=
  let js := (hvOn s).filter (· != j)
  let sd := (mcOn s).flatMap (mcSd s) ++ js.flatMap (hvSd s)
  let ain := (mcOn s).flatMap (mcAinOf s) ++ js.flatMap (hvAinOf s) ++ otherAinOf s
  (hvSd s j).all (fun i => decide (i < 64) && !sd.contains i) && (hvAinOf s j).all (fun i => decide (i < 16) && !ain.contains i)
    && decide (hvSd s j).Nodup && decide (hvAinOf s j).Nodup && ainOk s (mcOn s) (j :: js)

end Sys2Proof.Machine
end

