-- ==== Sys2Proof/Machine/Motor.lean ====
section
/-!
DEFINITION. FOC channels, polygon locks and command pins (spec/10_motors_foc.md R233-R252).
-/

namespace Sys2Proof.Machine

open Reg

/-! ## Setpoints (R238-R241, R246) -/

def cmdU (s : State) (k : Nat) : CmdU := bankGet {} s.mot.cmd k
def setCmd (k : Nat) (u : CmdU) (s : State) : State := { s with mot.cmd := bankPut {} k u s.mot.cmd }

/-- Y from the latest input (R240). -/
def cmdYof (s : State) (k : Nat) : Int :=
  let x := if s.g (CMD_CFG_MODE k) = 0 then 0 else s.g (CMD_STAT_X k)
  sat20 (s.gi (CMD_OFFSET_OFFSET k) + s.gi (CMD_GAIN_GAIN k) * (x : Int) / 262144)

/-- The output Y of command pin `k`, during a loss as LOSS_ACT gives (R241). -/
def cmdY (s : State) (k : Nat) : Int :=
  let u := cmdU s k
  if u.lost then (if s.g (CMD_CFG_LOSS_ACT k) = 1 then s.gi (CMD_OFFSET_OFFSET k) else u.held) else cmdYof s k

/-- The mode in force: a bound channel forces MODE 1 (R246). -/
def mcMode (s : State) (n : Nat) : Nat := if bound s n then 1 else s.g (MC_CTRL_MODE n)

/-- F_MAX of a channel, electrical Hz (R238). -/
def fMax (s : State) (n : Nat) : Nat := min (if n < 8 then 3000 else 1000) (s.g (MC_PWM_FREQ n) * 5)

/-- The setpoint before the limit of R238 (R239, R246). -/
def mcSource (s : State) (n : Nat) : Int :=
  if bound s n then polyRpm s n
  else if s.on (MC_CTRL_SRC n) then cmdY s (s.g (MC_CTRL_CMD_SEL n))
  else s.gi (MC_SETP_SETP n)

/-- The largest speed setpoint, SQ17.3 rpm. -/
def rpmMax (s : State) (n : Nat) : Int := (fMax s n * 480 / max 1 (s.g (MC_MOTOR_POLE_PAIRS n)) : Nat)

/-- The setpoint that a period takes: a speed is clamped to F_MAX; in STOPPING it ramps to 0 at DECEL (R238, R251). -/
def mcSetp (s : State) (n : Nat) : Int :=
  if mcState s n = Mcs.stopping then
    let u := mcU s n
    let d := s.g (MC_RAMP_DECEL n)
    let drop : Int := if d = 0 then u.stopFrom.natAbs
      else ((d * 4800 * u.stopN / (max 1 (s.g (MC_MOTOR_POLE_PAIRS n)) * max 1 (s.g (MC_PWM_FREQ n) * 100)) : Nat) : Int)
    if u.stopFrom < 0 then min 0 (u.stopFrom + drop) else max 0 (u.stopFrom - drop)
  else if mcMode s n = 1 then clampI (-rpmMax s n) (rpmMax s n) (mcSource s n)
  else mcSource s n

/-- Whether |f| of a speed (SQ17.3 rpm) is below `hz` electrical. -/
def slower (s : State) (n : Nat) (rpm8 : Int) (hz : Nat) : Bool :=
  decide (rpm8 * s.g (MC_MOTOR_POLE_PAIRS n) < hz * 480)

/-! ## Faults (R250) -/

/-- A channel enters FAULT: outputs off, its lock lost, its record and halyard pulse made. -/
def mcFault (cause n : Nat) (s0 : State) : State :=
  let s := modMc n (fun u => { u with short := false, released := false, duty := none, why := cause }) s0
  let sp := if s.on (MC_STAT_LOCKED n) then spoiledBy Cause.polygonLoss (s.g (MC_POLY_STATION n)) s else none
  let s1 := (s.p (MC_STAT_STATE n) Mcs.fault).p (MC_STAT_CAUSE n) cause
  let s2 := (loseLock n (s1.inc (MC_FAULTS_FAULTS n))).event (.mcFault n)
  raise { sev := Sev.contained, cls := 0x10, inst := n, code := cause, spoiled := sp } s2

/-- MCn_CTRL.CLEAR in FAULT (R250): ignored while the cause of that FAULT holds; a fault input still low faults the
channel again. -/
def mcClear (n : Nat) (s : State) : State :=
  let u := mcU s n
  if (u.why = 1 ∧ u.drvLow = true) ∨ (u.why = 2 ∧ u.overCur = true) then s.pb (MC_STAT_CFG_ERR n) true
  else
    let s1 := mcOff n (s.pb (MC_CTRL_ENABLE n) false)
    if u.drvLow then mcFault 1 n s1 else s1

/-- The checks of an ENABLE (R234, R243 and the register fields). -/
def mcEnableOk (s : State) (n : Nat) : Bool :=
  let f := s.g (MC_PWM_FREQ n)
  decide (80 ≤ f ∧ f ≤ 1000 ∧ s.g (MC_MOTOR_POLE_PAIRS n) ≠ 0 ∧ s.g (MC_OCTRIP_OCTRIP n) ≠ 0
    ∧ s.g (MC_FREQ_F_STILL n) < s.g (MC_FREQ_F_CATCH n) ∧ s.g (MC_FREQ_F_CATCH n) ≤ s.g (MC_FREQ_F_HAND n))
  && mcInputsOk s n

/-- The plain fields of an MCn_CTRL write but ENABLE. -/
def mcFields (n : Nat) (v : Word) (s : State) : State :=
  let put := fun (f : Fld) (s : State) => s.p f (fieldOf f v)
  put (MC_CTRL_MODE n) (put (MC_CTRL_SRC n) (put (MC_CTRL_DIR n) (put (MC_CTRL_KEEP n) (put (MC_CTRL_CMD_SEL n) s))))

/-- ENABLE set in OFF: SENSE, from a loop at rest. -/
def mcStart (n : Nat) (s : State) : State :=
  mcTake n (modMc n (fun u => { drvLow := u.drvLow, setp := u.setp, why := u.why }) (s.p (MC_STAT_STATE n) Mcs.sense))

/-- A write of MCn_CTRL: CLEAR, ENABLE set and cleared, STOP (R242, R250, R251). Every write that sets ENABLE is checked,
and one that fails is ignored (R234). -/
def mcCtrlWrite (n : Nat) (v : Word) (s : State) : State :=
  let st := mcState s n
  let en := fieldOf (MC_CTRL_ENABLE n) v == 1
  let stop := fieldOf (MC_CTRL_STOP n) v == 1
  let held := fun s : State => if stop then s.pb (MC_CTRL_STOP n) true else s
  if fieldOf (MC_CTRL_CLEAR n) v = 1 ∧ st = Mcs.fault then mcClear n (held (mcFields n v s))
  else if en && (st == Mcs.off || !s.on (MC_CTRL_ENABLE n)) && !mcEnableOk s n then s.pb (MC_STAT_CFG_ERR n) true
  else if en ∧ st = Mcs.off then
    let s1 := mcStart n ((mcFields n v s).pb (MC_CTRL_ENABLE n) true)
    if stop then mcStop n (held s1) else s1
  else
    let s1 := (mcFields n v s).pb (MC_CTRL_ENABLE n) en
    let s2 := if stop then mcStop n (held s1) else s1
    if !en ∧ s.on (MC_CTRL_ENABLE n) then
      (if mcState s2 n = Mcs.reacq then mcOff n s2 else mcStop n s2)
    else s2

def execMcEnable (n : Fin 24) (v : Word) (s : State) : Host.Outcome State Fault Refusal :=
  .next (hostAt (MC_CTRL n) (mcCtrlWrite n v) s)

def execMcDisable (n : Fin 24) (v : Word) (s : State) : Host.Outcome State Fault Refusal :=
  .next (hostAt (MC_CTRL n) (mcCtrlWrite n v) s)

def execMcStop (n : Fin 24) (v : Word) (s : State) : Host.Outcome State Fault Refusal :=
  .next (hostAt (MC_CTRL n) (mcCtrlWrite n v) s)

def execMcClear (n : Fin 24) (v : Word) (s : State) : Host.Outcome State Fault Refusal :=
  .next (hostAt (MC_CTRL n) (mcCtrlWrite n v) s)

/-! ## The PWM period (R235, R243, R245, R250, R251) -/

/-- An observer loss in RUN: REACQ at zero current (R245). -/
def observerLoss (n : Nat) (s : State) : State :=
  let s1 := ((s.p (MC_STAT_STATE n) Mcs.reacq).pb (MC_STAT_OBS_LOSS n) true).p (MC_STAT_CAUSE n) 5
  loseLock n (modMc n (fun u => { u with bad := 0 }) s1)

/-- A PWM period in units of 5 ns, the resolution of the duties (R233). -/
def pwmUnits (s : State) (n : Nat) : Nat := 2000000 / s.g (MC_PWM_FREQ n)

/-- The phase currents that a period samples: W is sensed, or taken as -I_U - I_V (R234). -/
def phases (s : State) (n : Nat) (x : PwmSample) : Int × Int × Int :=
  let iu := sext 20 x.iu.toNat
  let iv := sext 20 x.iv.toNat
  (iu, iv, if s.on (MC_SENSE_W_EN n) then sext 20 x.iw.toNat else -iu - iv)

/-- A phase current beyond a limit (Q2.18). -/
def beyond (lim : Nat) (i : Int × Int × Int) : Bool :=
  decide (lim < i.1.natAbs ∨ lim < i.2.1.natAbs ∨ lim < i.2.2.natAbs)

/-- The bus voltage the loop uses, as arguments of its arithmetic: the AIN code where VBUS_EN is 1, else VBUS_NOM. -/
def busOf (s : State) (n : Nat) (x : PwmSample) : List Int :=
  if s.on (MC_SENSE_VBUS_EN n) then [1, (x.vbus.toNat : Int)] else [0, (s.g (MC_MOTOR_VBUS_NOM n) : Int)]

/-- What a channel's outputs show, where PINMAP places any of them (R450). -/
def mcShow (n : Nat) (o : Out) (s : State) : State := if (List.range 6).any fun k => s.mapped 0x10 n k then s.emit o else s

/-- I_d and I_q of a period's phase currents at angle `th` (R235). DIR exchanges phases V and W. -/
def dqOf (s : State) (n : Nat) (x : PwmSample) (th : Int) : Int × Int :=
  let (iu, iv, iw) := phases s n x
  let i := if s.on (MC_CTRL_DIR n) then [th, iu, iw, iv] else [th, iu, iv, iw]
  (sat20 (Config.motor 0 i), sat20 (Config.motor 1 i))

/-- One period of the current loop at angle `th` with references `rd` and `rq` (R235): the high times that the period
before found are applied, each axis regulated, its integrator held where the voltage limit
acts, and the next period's high times found. DIR exchanges phases V and W. -/
def currentLoop (n : Nat) (x : PwmSample) (th rd rq : Int) (s : State) : State :=
  let u := mcU s n
  let dir := s.on (MC_CTRL_DIR n)
  let bus := busOf s n x
  let (d, q) := dqOf s n x th
  let vd := s.gi (MC_KP_KP n) * (rd - d) + u.integD
  let vq := s.gi (MC_KP_KP n) * (rq - q) + u.integQ
  let md := Config.motor 2 (vd :: vq :: bus)
  let mq := Config.motor 3 (vd :: vq :: bus)
  let high := fun k => min (pwmUnits s n) (Config.motor k (md :: mq :: th :: bus)).toNat
  let next := if dir then (high 4, high 6, high 5) else (high 4, high 5, high 6)
  let s1 := match u.duty with
    | some h => mcShow n (.duty n h.1 h.2.1 h.2.2) s
    | none => s
  modMc n (fun u => { u with
    integD := if md = vd then u.integD + s.gi (MC_KI_KI n) * (rd - d) else u.integD,
    integQ := if mq = vq then u.integQ + s.gi (MC_KI_KI n) * (rq - q) else u.integQ,
    duty := some next }) s1

/-- The I_q reference (R236): the setpoint in MODE 0, the output port of the loop bound to the channel in MODE 1, within
ILIM. A MODE 0 channel that stops follows its ramp by an I_q that the spec leaves open, at ILIM where DECEL is 0 (R251;
assumption log 7). -/
def iqRef (s : State) (n : Nat) : Int :=
  let lim : Int := s.g (MC_ILIM_ILIM n)
  let rpm := s.gi (MC_SPEED_RPM n)
  let want :=
    if mcMode s n = 1 then bankGet 0 s.mot.ce.ports (0x600 + n)
    else if mcState s n ≠ Mcs.stopping then (mcU s n).setp
    else if s.g (MC_RAMP_DECEL n) = 0 then (if 0 < rpm then -lim else lim)
    else Config.motor 7 [(mcU s n).setp, rpm]
  clampI (-lim) lim want

/-- The angle of the vector of OPEN, SQ1.19: 90 degrees ahead of the position found, and turning forward at a frequency
that rises from 0 at ACCEL (R243). -/
def openAngle (s : State) (n : Nat) : Int :=
  let u := mcU s n
  let f := s.g (MC_PWM_FREQ n) * 100
  sext 20 ((u.pos * 2 ^ 20 / 360 + 2 ^ 18 + s.g (MC_RAMP_ACCEL n) * 10 * u.openN * u.openN * 2 ^ 20 / (2 * f * f)) % 2 ^ 20)

/-- Runs of the observer's residual over and under its limit. -/
def residualRun (n : Nat) (res : Nat) (s : State) : State :=
  let lim := s.g (MC_OBS_RES_LIMIT n)
  modMc n (fun u => { u with bad := if res > lim then u.bad + 1 else 0, good := if res < lim then u.good + 1 else 0 }) s

/-- The residual has exceeded its limit for RES_COUNT periods; 0 acts as 1. -/
def residualLost (s : State) (n : Nat) : Bool := decide ((mcU s n).bad ≥ max 1 (s.g (MC_OBS_RES_COUNT n)))

/-- The active short of BRAKE and STOPPING is released for the rest of a period whose phase current exceeds ILIM
(R243). -/
def shortPeriod (n : Nat) (x : PwmSample) (s : State) : State :=
  modMc n (fun u => { u with released := beyond (s.g (MC_ILIM_ILIM n)) (phases s n x) }) s

/-- What a period does in each state, currents within OCTRIP. -/
def mcStatePeriod (n : Nat) (x : PwmSample) (s : State) : State :=
  let st := mcState s n
  let rpm := sext 20 x.rpm.toNat
  let res := x.residual.toNat
  let th := sext 20 x.theta.toNat
  if st = Mcs.run then
    let s1 := residualRun n res (currentLoop n x th 0 (iqRef s n) s)
    if residualLost s1 n || slower s1 n rpm (s1.g (MC_FREQ_F_CATCH n)) then observerLoss n s1 else s1
  else if st = Mcs.open_ then
    let s1 := modMc n (fun u => { u with openN := u.openN + 1 })
      (residualRun n res (currentLoop n x (openAngle s n) (s.g (MC_ILIM_ILIM n)) 0 s))
    let u := mcU s1 n
    if s1.g (MC_RAMP_ACCEL n) * 10 * u.openN ≥ s1.g (MC_FREQ_F_HAND n) * (s1.g (MC_PWM_FREQ n) * 100) ∧ 64 ≤ u.good then
      modMc n (fun u => { u with bad := 0 }) (s1.p (MC_STAT_STATE n) Mcs.run)
    else s1
  else if st = Mcs.stopping then
    if (mcU s n).short then shortPeriod n x s
    else
      let s1 := modMc n (fun u => { u with stopN := u.stopN + 1 }) (residualRun n res (currentLoop n x th 0 (iqRef s n) s))
      let s2 := if residualLost s1 n then (s1.pb (MC_STAT_OBS_LOSS n) true).p (MC_STAT_CAUSE n) 5 else s1
      if residualLost s1 n || slower s1 n rpm (s1.g (MC_FREQ_F_CATCH n)) then
        shortPeriod n x (modMc n (fun u => { u with short := true, duty := none }) s2)
      else s2
  else if st = Mcs.brake then shortPeriod n x s
  else if st = Mcs.sense ∨ st = Mcs.reacq then currentLoop n x th 0 0 s
  else s

/-- The nodes that a channel presents on every PWM period (R236). -/
def mcPresent (n : Nat) (x : PwmSample) (s : State) : State :=
  let th := sext 20 x.theta.toNat
  let (d, q) := dqOf s n x (if mcState s n = Mcs.open_ then openAngle s n else th)
  modMc n (fun u => { u with theta := th })
    (((s.pz (MC_SPEED_RPM n) (sext 20 x.rpm.toNat)).pz (MC_ID_ID n) d).pz (MC_IQ_IQ n) q)

/-- A PWM period of channel `n`: the registers written since the last one take effect (R237). -/
def mcPeriod (n : Nat) (x : PwmSample) (s0 : State) : State :=
  let s := mcTake n (modMc n (fun u => { u with setp := mcSetp s0 n }) s0)
  let st := mcState s n
  if st = Mcs.off then s
  else
    let tooBig := beyond (s.g (MC_OCTRIP_OCTRIP n)) (phases s n x)
    let s1 := modMc n (fun u => { u with overCur := tooBig }) (mcPresent n x s)
    if st = Mcs.fault then s1
    else if tooBig then mcFault 2 n s1
    else mcStatePeriod n x
      (if mcMode s1 n = 1 ∧ st ≠ Mcs.stopping ∧ mcSetp s1 n ≠ mcSource s1 n then s1.pb (MC_STAT_CLAMPED n) true else s1)

def execMcPwmPeriod (n : Fin 24) (x : PwmSample) (s : State) : Host.Outcome State Fault Refusal :=
  .next (live (mcPeriod n x) s)

/-! ## Starting (R243-R245) -/

/-- SQ17.3 rpm of an electrical frequency. -/
def rpmOf (s : State) (n : Nat) (hz : Int) : Int :=
  sat20 (roundDiv (hz * 480) (max 1 (s.g (MC_MOTOR_POLE_PAIRS n)) : Nat))

/-- The channel loads the observer with angle and frequency, and runs. -/
def mcCatch (n : Nat) (hz : Int) (th : BitVec 20) (s : State) : State :=
  modMc n (fun u => { u with bad := 0, good := 0, theta := sext 20 th.toNat })
    ((s.p (MC_STAT_STATE n) Mcs.run).pz (MC_SPEED_RPM n) (rpmOf s n hz))

/-- Electrical angles of the test vectors, in order (R244). -/
def testAngles : List Nat := [0, 180, 30, 210, 60, 240, 90, 270, 120, 300, 150, 330]

/-- An attempt of IPD begins: the test vectors go out, each up to I_TEST = 0.75 x OCTRIP or TPULSE (R244). -/
def testTrain (n : Nat) (s : State) : State :=
  mcShow n (.testVectors n testAngles (3 * mcIn s n (MC_OCTRIP_OCTRIP n)) (mcIn s n (MC_START_TPULSE n))) s

/-- A channel enters IPD. -/
def enterIpd (n : Nat) (s : State) : State :=
  testTrain n (modMc n (fun u => { u with tries := 0, released := false, duty := none }) (s.p (MC_STAT_STATE n) Mcs.ipd))

/-- T_S ends in SENSE: `emf` says whether back-EMF was detected, `hz` its signed frequency, `th` its angle. -/
def mcSenseDone (n : Nat) (emf : Bool) (hz : BitVec 16) (th : BitVec 20) (s : State) : State :=
  if mcState s n ≠ Mcs.sense then s
  else
    let f := sext 16 hz.toNat
    if emf ∧ (mcIn s n (MC_FREQ_F_CATCH n) : Int) ≤ f then mcCatch n f th s
    else if !emf ∨ f.natAbs < mcIn s n (MC_FREQ_F_STILL n) then enterIpd n s
    else modMc n (fun u => { u with duty := none }) (s.p (MC_STAT_STATE n) Mcs.brake)

def execMcSenseDone (n : Fin 24) (emf : Bool) (hz : BitVec 16) (th : BitVec 20) (s : State) : Host.Outcome State Fault Refusal :=
  .next (live (mcSenseDone n emf hz th) s)

def execMcBrakeStill (n : Fin 24) (s : State) : Host.Outcome State Fault Refusal :=
  .next (live (fun s => if mcState s n = Mcs.brake then enterIpd n s else s) s)

def mcStartTimeout (n : Nat) (s : State) : State :=
  if mcState s n = Mcs.brake then mcFault 6 n s
  else if mcState s n = Mcs.open_ then mcFault 4 n s
  else s

def execMcStartTimeout (n : Fin 24) (s : State) : Host.Outcome State Fault Refusal :=
  .next (live (mcStartTimeout n) s)

/-- The angle of the smallest time. -/
def posOf (ts : List Nat) : Nat :=
  ((ts.zip testAngles).foldl (fun (b : Option (Nat × Nat)) p =>
    match b with
    | none => some p
    | some q => if p.1 < q.1 then some p else some q) none).elim 0 (·.2)

/-- The twelve times that the channel records for an attempt, ns: TPULSE where I_TEST is not reached (R244). -/
def pulseTimes (s : State) (n : Nat) (ts : List Nat) : List Nat :=
  let cap := 1000 * mcIn s n (MC_START_TPULSE n)
  ((ts ++ List.replicate 12 cap).take 12).map (min cap)

/-- The contrast of an attempt reaches CONTRAST. -/
def contrastOk (s : State) (n : Nat) (ts : List Nat) : Bool :=
  let hi := ts.foldl max 0
  let lo := ts.foldl min hi
  decide (mcIn s n (MC_START_CONTRAST n) * hi ≤ (hi - lo) * 100)

/-- The attempts of IPD in turn: the first with enough contrast gives the position; after 1 + RETRY without one the
channel faults. -/
def ipdAttempts (n : Nat) : List (List Nat) → State → State
  | [], s => s
  | t :: r, s =>
    let ts := pulseTimes s n t
    if contrastOk s n ts then
      modMc n (fun u => { u with openN := 0, good := 0, bad := 0, pos := posOf ts }) (s.p (MC_STAT_STATE n) Mcs.open_)
    else if (mcU s n).tries < mcIn s n (MC_START_RETRY n) then
      ipdAttempts n r (testTrain n (modMc n (fun u => { u with tries := u.tries + 1 }) s))
    else mcFault 3 n s

/-- The attempts end, with the times of each. -/
def mcIpdDone (n : Nat) (ts : List (List Nat)) (s : State) : State :=
  if mcState s n ≠ Mcs.ipd then s else ipdAttempts n ts s

def execMcIpdDone (n : Fin 24) (ts : List (List Nat)) (s : State) : Host.Outcome State Fault Refusal :=
  .next (live (mcIpdDone n ts) s)

/-- A 2 ms window of REACQ ends with a signed frequency, 0 where no rotation is found. -/
def mcReacqWindow (n : Nat) (hz : BitVec 16) (th : BitVec 20) (s : State) : State :=
  let f := sext 16 hz.toNat
  if mcState s n = Mcs.reacq ∧ (mcIn s n (MC_FREQ_F_CATCH n) : Int) ≤ f then
    corrected 0x10 n 5 0xFFFF ((mcCatch n f th s).inc (MC_FAULTS_REACQ n))
  else s

def execMcReacqWindow (n : Fin 24) (hz : BitVec 16) (th : BitVec 20) (s : State) : Host.Outcome State Fault Refusal :=
  .next (live (mcReacqWindow n hz th) s)

def execMcReacqTimeout (n : Fin 24) (s : State) : Host.Outcome State Fault Refusal :=
  .next (live (fun s => if mcState s n = Mcs.reacq then mcFault 5 n s else s) s)

/-- MCn_DRVFLT_N, where PINMAP places it, takes a level; low puts the channel in FAULT. -/
def mcDriverFault (n : Nat) (low : Bool) (s : State) : State :=
  if s.part.foc ≤ n ∨ !s.mapped 0x10 n 6 then s
  else
  let s1 := modMc n (fun u => { u with drvLow := low }) s
  if low ∧ mcState s n ≠ Mcs.fault then mcFault 1 n s1 else s1

def execMcDriverFault (n : Fin 24) (low : Bool) (s : State) : Host.Outcome State Fault Refusal :=
  .next (live (mcDriverFault n low) s)

/-- |f| < F_STILL has held for T_S in the active short of a controlled stop (R251). -/
def execMcStopDone (n : Fin 24) (s : State) : Host.Outcome State Fault Refusal :=
  .next (live (fun s => if mcState s n = Mcs.stopping ∧ (mcU s n).short then mcOff n s else s) s)

/-! ## Polygon lock (R246, R247) -/

/-- The BD speed error of a station's last FACETS periods, 0.1 ppm; none before there are as many or without a
commanded speed. -/
def bdError (s : State) (st : Nat) : Option Int :=
  let (rate, a) := bankGet (0, 0) s.psq.sweeps st
  let f := (s.stnU st).newest.facets
  let ps := (s.stnU st).bdPeriods.take f
  if rate = 0 ∨ a = 0 ∨ f = 0 ∨ ps.length < f then none
  else
    let cmd : Int := ((f * a * 1000000000 : Nat) : Int)
    some (clampI (-524287) 524287 (roundDiv (10000000 * (((sumN ps * rate : Nat) : Int) - cmd)) cmd))

/-- Eight BD speed errors outside the wide window: the lock is lost, a fault that is recorded where it spoils the sheet
at the station (R247, R248, R421). -/
def lockLost (m st : Nat) (s : State) : State :=
  let hit := spoiledBy Cause.polygonLoss st s
  loseLock m (if hit.isSome then
    raise { sev := 1, cls := 0x10, inst := m, code := (Config.errCode 14).toNat, spoiled := hit } s else s)

/-- A BDn edge at the bound channel: the error presented, and the lock it makes or breaks; none while R160 holds the
polygon lost, its edges being the station's own. -/
def polyEdge (st : Nat) (s : State) : State :=
  match polyOf s st, bdError s st with
  | some m, some e =>
    let w := 10 * mcIn s m (MC_POLY_LOCK_PPM m)
    let lost := decide (3 ≤ (s.stnU st).missRun)
    let s1 := modMc m (fun u =>
      { u with inWin := if e.natAbs ≤ w ∧ !lost then u.inWin + 1 else 0, outWin := if 4 * w < e.natAbs then u.outWin + 1 else 0 })
      (s.pz (MC_BDERR_ERR m) e)
    let u := mcU s1 m
    if s1.on (MC_STAT_LOCKED m) then (if 8 ≤ u.outWin then lockLost m st s1 else s1)
    else if 64 ≤ u.inWin ∧ mcState s1 m = Mcs.run then (s1.pb (MC_STAT_LOCKED m) true).event (.polyLock m true)
    else s1
  | _, _ => s

/-- Station `st`'s polygon is locked. -/
def polyLocked (s : State) (st : Nat) : Bool :=
  match polyOf s st with
  | some m => s.on (MC_STAT_LOCKED m)
  | none => false

/-- R249: a station may be enabled only with a bound channel fast enough for its RPM_MAX. -/
def polyOk (s : State) (st rpm : Nat) : Bool :=
  match polyOf s st with
  | some m => decide (rpm * s.g (MC_MOTOR_POLE_PAIRS m) ≤ 60 * fMax s m)
  | none => false

/-! ## Command pins (R240, R241) -/

/-- Channels that take their setpoint from pin `k`. -/
def selecting (s : State) (k : Nat) : List Nat :=
  (List.range s.part.foc).filter fun n => !bound s n && mcIn s n (MC_CTRL_SRC n) == 1 && mcIn s n (MC_CTRL_CMD_SEL n) == k

/-- No edge for 2 ms in duty mode. -/
def cmdLoss (k : Nat) (s : State) : State :=
  if s.g (CMD_CFG_MODE k) ≠ 2 ∨ (cmdU s k).lost = true then s
  else
    let s1 := setCmd k { lost := true, held := cmdYof s k } (s.pb (CMD_STAT_LOSS k) true)
    (selecting s k).foldl (fun s n =>
      let s2 := if s.g (CMD_CFG_LOSS_ACT k) = 2 then mcStop n s else s
      corrected 0x10 n 7 0xFFFF ((s2.pb (MC_STAT_CMD_LOSS n) true).p (MC_STAT_CAUSE n) 7)) s1

def execCmdLossTimeout (k : Fin 8) (s : State) : Host.Outcome State Fault Refusal := .next (live (cmdLoss k) s)

/-- x of an input (R240): a 12-bit sample; a high time and a period; a frequency in Hz. -/
def cmdX (s : State) (k a b : Nat) : Nat :=
  let m := s.g (CMD_CFG_MODE k)
  if m = 1 then min 262144 (a % 4096 * 64)
  else if m = 2 then (if b = 0 then 0 else min 262144 (roundDiv ((a * 262144 : Nat) : Int) (b : Nat)).toNat)
  else if m = 3 then
    let fs := 10 * s.g (CMD_CFG_FS_HZ k)
    if a < 500 then 0 else if a ≥ fs then 262144 else (roundDiv ((a * 262144 : Nat) : Int) (fs : Nat)).toNat
  else 0

def cmdPeriod (k a b : Nat) (s : State) : State :=
  setCmd k {} (s.p (CMD_STAT_X k) (cmdX s k a b))

def execCmdPinPeriod (k : Fin 8) (a b : BitVec 32) (s : State) : Host.Outcome State Fault Refusal :=
  .next (live (cmdPeriod k a.toNat b.toNat) s)

/-- A write of CMDk_CFG: MODE 0 makes x 0, and a mode other than duty knows no loss (R240). -/
def cmdCfgWrite (k : Nat) (v : Word) (s : State) : State :=
  let s1 := s.plainWrite (CMD_CFG k) v
  let s2 := if fieldOf (CMD_CFG_MODE k) v = 2 then s1 else setCmd k {} s1
  if fieldOf (CMD_CFG_MODE k) v = 0 then s2.p (CMD_STAT_X k) 0 else s2

/-! ## Channel registers written while enabled (R237, R239, R274) -/

/-- A write of MCn_PWM, MCn_SENSE, MCn_MOTOR, MCn_RS or MCn_LS while ENABLE is 1 is ignored. -/
def mcHeldWrite (n off : Nat) (v : Word) (s : State) : State :=
  if s.on (MC_CTRL_ENABLE n) then s.pb (MC_STAT_CFG_ERR n) true else s.plainWrite off v

end Sys2Proof.Machine
end

