-- ==== Sys2Proof/Machine/Axis.lean ====
section
/-!
DEFINITION. Step axes and axis groups (spec/11_step_motion.md R253-R270). The profile is integrated exactly over each
1 us profile tick: speed in 10^-6 microsteps/s, progress in 0.5 x 10^-12 microsteps (assumption log 9).
-/

namespace Sys2Proof.Machine

open Reg

/-- The s32 value of a register. -/
def s32 (w : Word) : Int := sext 32 w.toNat

/-- A rate x / y in pulses/s is at most the pulse limit L = min(500 kHz, 1 / (2 x TH)), TH in 10 ns (R254). -/
def withinLimit (s : State) (n x y : Nat) : Bool :=
  decide (x ≤ 500000 * y ∧ x * s.g (AX_TIMING_TH n) ≤ 50000000 * y)

/-- A rate x / y in pulses/s has reached L. -/
def atLimit (s : State) (n x y : Nat) : Bool :=
  decide (500000 * y ≤ x ∨ 50000000 * y ≤ x * s.g (AX_TIMING_TH n))

/-! ## Groups -/

def membersSync (s : State) : State := overN 8 (fun g s => s.p (AG_STAT_MEMBERS g) (membersOf s g).length) s

/-- A membership write that R265 permits. -/
def joinOk (s : State) (n : Nat) (v : Word) : Bool :=
  let inG := fieldOf (AX_CTRL_IN_GROUP n) v
  let g := fieldOf (AX_CTRL_GROUP n) v
  let og := s.g (AX_CTRL_GROUP n)
  let same := inG == s.g (AX_CTRL_IN_GROUP n) && (g == og || inG == 0)
  same || (decide (axState s n ≤ Axs.idle) && (inG == 0 || agState s g == 0) && (!s.on (AX_CTRL_IN_GROUP n) || agState s og == 0)
    && (inG == 0 || decide (((membersOf s g).filter (· != n)).length < 6)))

/-! ## Encoder (R268, R269) -/

/-- Counts to microsteps: x 256 / CPF, CPF in Q16.16. -/
def encScale (s : State) (n : Nat) (c : Int) : Int := roundDiv (c * 16777216) (max 1 (s.g (AX_CPF_CPF n)) : Nat)

/-- EPOS from the extreme of the count. -/
def eposSync (n : Nat) (s : State) : State :=
  let u := axU s n
  s.setReg (AX_EPOS n) (BitVec.ofInt 32 (u.encPos + encScale s n (u.ext - u.encBase)))

/-- The encoder's count aligned to AXn_POS. -/
def encAlign (n : Nat) (s : State) : State :=
  if s.on (AX_ENC_EN n) then
    eposSync n (modAx n (fun u => { u with encBase := u.encRaw, ext := u.encRaw, extFwd := true, encPos := s32 (s.reg (AX_POS n)) }) s)
  else s

/-- A count of the encoder, followed by 32-bit differences as R116 follows the process encoder's, and the backlash
window of R268. -/
def axEncoder (n : Nat) (count : Nat) (s : State) : State :=
  let last := (axU s n).encRaw
  let raw := last + sext 32 (unsext 32 ((count : Int) - last))
  let s1 := modAx n (fun u => { u with encRaw := raw }) s
  if !s.on (AX_ENC_EN n) ∨ axState s n = Axs.off then s1
  else
    let w : Int := s.g (AX_ENC_W n)
    eposSync n (modAx n (fun u =>
      let d : Int := if u.extFwd then 1 else -1
      if (raw - u.ext) * d > 0 then { u with ext := raw }
      else if (u.ext - raw) * d > w then { u with ext := raw, extFwd := !u.extFwd }
      else u) s1)

/-- The axes that follow the quadrature input that axis `n` names: several may read the same one. -/
def sharers (s : State) (n : Nat) : List Nat :=
  (List.range s.part.axes).filter fun m => m == n || (s.on (AX_ENC_EN m) && s.g (AX_ENC_QE m) == s.g (AX_ENC_QE n))

def execAxisEncoderSample (n : Fin 48) (raw : BitVec 32) (s : State) : Host.Outcome State Fault Refusal :=
  .next (live (fun s => (sharers s n).foldl (fun s m => axEncoder m raw.toNat s) s) s)

/-! ## Levels (R255-R259) -/

/-- The least j in [lo, hi] for which a speed (10^-6 microsteps/s) at 2^-j does not exceed `num/8` of PMAX kHz; `hi`
where there is none. -/
def levelFor (v pmax num : Nat) : Nat → Nat → Nat
  | 0, lo => lo
  | k + 1, lo => if v * 8 ≤ num * pmax * 1000 * 1000000 * 2 ^ lo then lo else levelFor v pmax num k (lo + 1)

/-- The level R256 calls for at a speed. -/
def wantLevel (s : State) (n v : Nat) : Nat :=
  let k := s.g (AX_STAT_LEVEL n)
  let pm := s.g (AX_MSTEP_PMAX n)
  let lo := s.g (AX_MSTEP_MINLEVEL n)
  let hi := s.g (AX_MSTEP_MAXLEVEL n)
  if v > pm * 1000 * 1000000 * 2 ^ k then levelFor v pm 8 (hi - k) k
  else
    let j := levelFor v pm 7 (k - lo) lo
    if j < k then j else k

/-- A level change becomes pending, or no longer is (R257). -/
def levelPend (n v : Nat) (s : State) : State :=
  let j := wantLevel s n v
  modAx n (fun u => { u with pendTo := j }) (s.pb (AX_STAT_PEND n) (j != s.g (AX_STAT_LEVEL n)))

/-- The axis is held at the pulse limit: a coarser level is pending and the rate has reached L (R258). -/
def axHeld (s : State) (n v : Nat) : Bool :=
  s.on (AX_STAT_PEND n) && decide ((axU s n).pendTo > s.g (AX_STAT_LEVEL n))
    && atLimit s n v (1000000 * 2 ^ s.g (AX_STAT_LEVEL n))

/-- A level change at a full-step boundary: MRES changes at the falling edge of the pulse that reaches it, and the next
rising edge waits TMS from there. -/
def setLevel (n k : Nat) (s : State) : State :=
  if k = s.g (AX_STAT_LEVEL n) then s.pb (AX_STAT_PEND n) false
  else modAx n (fun u => { u with wait := max u.wait (u.high + 10 * s.g (AX_TIMING_TMS n)) })
    ((s.p (AX_STAT_LEVEL n) k).pb (AX_STAT_PEND n) false)

/-- A position is a full-step boundary. -/
def boundaryAt (s : State) (n : Nat) (p : Int) : Bool := (p - (s.g (AX_PHREF_PHREF n) : Int)) % 256 == 0

/-- At the last boundary before a target `rest` microsteps away the axis changes to MINLEVEL; at any boundary it makes a
pending change (R257, R259). -/
def atBoundary (n rest : Nat) (toTarget : Bool) (s : State) : State :=
  if toTarget ∧ 0 < rest ∧ rest ≤ 256 then setLevel n (s.g (AX_MSTEP_MINLEVEL n)) s
  else if s.on (AX_STAT_PEND n) then setLevel n (axU s n).pendTo s
  else s

/-! ## Step edges (R254, R257) -/

/-- A rising edge `e` x 10 ns into a tick: POS moves, STEP falls TH later, the next edge is 2 x TH away at least, and DIR
stays for TDS. -/
def takeEdge (n e : Nat) (toTarget : Bool) (s : State) : State :=
  let u := axU s n
  let k := s.g (AX_STAT_LEVEL n)
  let th := s.g (AX_TIMING_TH n)
  let d : Int := if u.fwd then 1 else -1
  let p : Int := s32 (s.reg (AX_POS n)) + d * ((2 ^ k : Nat) : Int)
  let s1 := modAx n (fun u => { u with
    emitted := u.emitted + 2 ^ k, wait := e + 2 * th, high := e + th, hold := e + s.g (AX_TIMING_TDS n) })
    (s.setReg (AX_POS n) (BitVec.ofInt 32 p))
  let s2 := s1.drive 0x12 n 0 (.steps n d)
  if boundaryAt s2 n p then atBoundary n (u.dist - (u.emitted + 2 ^ k)) toTarget s2 else s2

/-- The edges of a tick over which the profile goes from `p0` to `p1` (0.5 x 10^-12 microsteps): one where it passes the
next position of the present granularity, on the 10 ns grid, or later where the output timing makes it wait. -/
def stepEdges (n p0 p1 : Nat) (toTarget : Bool) : Nat → State → State
  | 0, s => s
  | f + 1, s =>
    let u := axU s n
    let goal := (u.emitted + 2 ^ s.g (AX_STAT_LEVEL n)) * 2000000000000
    let e := max u.wait (if goal ≤ p0 then 0 else ceilDiv ((goal - p0) * 100) (p1 - p0))
    if p1 < goal ∨ 100 ≤ e then s else stepEdges n p0 p1 toTarget f (takeEdge n e toTarget s)

/-- A tick ends: the output timing counts on, DIR turns once it may, MRES shows the level once STEP is low, and GO and STOP
of the tick are past. -/
def axTimers (n : Nat) (s : State) : State :=
  modAx n (fun u => { u with
    wait := u.wait - 100, hold := u.hold - 100, high := u.high - 100,
    dirOut := if u.hold ≤ 100 then u.fwd else u.dirOut,
    shown := if u.high ≤ 100 then s.g (AX_STAT_LEVEL n) else u.shown,
    goTick := false, stopTick := false, calls := [], ended := none }) s

/-! ## Profile (R260, R261, R263) -/

/-- VMAX = x / y does not exceed L x 2^MAXLEVEL (R259). -/
def rateOk (s : State) (n x y : Nat) : Bool := withinLimit s n x (y * 2 ^ s.g (AX_MSTEP_MAXLEVEL n))

/-- DECEL = x / y does not exceed (L x 2^MINLEVEL)^2 / 512 (R259). -/
def decelOk (s : State) (n x y : Nat) : Bool :=
  let k := 2 ^ s.g (AX_MSTEP_MINLEVEL n)
  let th := s.g (AX_TIMING_TH n)
  decide (x * 512 ≤ (500000 * k) ^ 2 * y ∧ x * 512 * th ^ 2 ≤ (50000000 * k) ^ 2 * y)

/-- The greatest speed up to `hi`, tried in steps of 2^k, after which DECEL still stops within `r`, `v` being the speed
before (0.5 x 10^-12 microsteps a tick). -/
def stopSpeed (v dec r : Nat) : Nat → Nat → Nat → Nat
  | 0, w, _ => w
  | k + 1, w, hi =>
    let x := w + 2 ^ k
    stopSpeed v dec r k (if x ≤ hi ∧ v + x ≤ r ∧ x * x + x * dec ≤ (r - v) * dec then x else w) hi

/-- The speed after a tick, from speed `v` with `rest` (0.5 x 10^-12 microsteps) to go, `none` in a velocity move: the
trapezoidal profile (R260), or, where DECEL can no longer stop at the target, the smallest deceleration that does (R261). -/
def nextVel (v vmax acc dec : Nat) (rest : Option Nat) (held : Bool) : Nat :=
  let vm := vmax * 1000000
  let up := if v > vm then max vm (v - dec) else if held then v else min vm (v + acc)
  match rest with
  | none => up
  | some r =>
    if v * v > r * dec then v - ceilDiv (v * v) (max 1 r)
    else
      let w := stopSpeed v dec r 64 0 up
      if v = 0 ∧ w = 0 then min r up else w

/-- |AXn_POS - AXn_EPOS|, of positions that wrap, beyond FERR (R269): FAULT with cause FOLLOW. -/
def followCheck (n : Nat) (s : State) : State :=
  let f := s.g (AX_ENC_FERR n)
  if s.on (AX_ENC_EN n) ∧ f ≠ 0 ∧ axState s n ≠ Axs.fault ∧ axState s n ≠ Axs.off
      ∧ f * 16 < (s32 (s.reg (AX_POS n) - s.reg (AX_EPOS n))).natAbs then
    let s1 := (((unwind n s).p (AX_STAT_STATE n) Axs.fault).p (AX_STAT_CAUSE n) 1).setReg (AX_VEL n) 0
    axReplay n (contained 0x12 n 1 0xFFFF (modAx n (fun u => { u with vel := 0, estop := false, disable := false }) s1))
  else s

/-- One axis in one profile tick. -/
def axTick (n : Nat) (s : State) : State :=
  let s1 := followCheck n s
  let u := axU s1 n
  let st := axState s1 n
  if u.byGroup ∨ !(axMoving st) then s1
  else if st = Axs.stopping then
    let d := if u.estop then s1.g (AX_ESTOP_ESTOP n) else s1.g (AX_DECEL_DECEL n)
    let v := u.vel - d
    let p := u.prog + u.vel + v
    let s2 := velSync n v (modAx n (fun u => { u with vel := v, prog := p }) s1)
    let s3 := stepEdges n u.prog p false 6 (levelPend n v s2)
    if v = 0 then axEndMove n s3 else s3
  else
    let rest := if u.velMode then none else some (u.dist * 2000000000000 - u.prog)
    let held := axHeld s1 n u.vel
    let v := nextVel u.vel (s1.g (AX_VMAX_VMAX n)) (s1.g (AX_ACCEL_ACCEL n)) (s1.g (AX_DECEL_DECEL n)) rest held
    let p := match rest with
      | some _ => min (u.dist * 2000000000000) (u.prog + u.vel + v)
      | none => u.prog + u.vel + v
    let s2 := velSync n v (modAx n (fun u => { u with vel := v, prog := p }) s1)
    let s3 := levelPend n v (if held then s2.pb (AX_STAT_HELD n) true else s2)
    stepEdges n u.prog p (!u.velMode) 6 s3

/-- A faulted member stops every other one with cause GROUP; the group ends, its move waiting or under way (R267). -/
def groupFault (g : Nat) (s : State) : State :=
  let u := agU s g
  if u.members.any (fun m => axState s m.1 == Axs.fault) then
    let s1 := u.members.foldl (fun s m =>
      if axState s m.1 = Axs.fault then modAx m.1 (fun u => { u with byGroup := false }) s
      else (if (axU s m.1).byGroup then axEndMove m.1 s else s).p (AX_STAT_CAUSE m.1) 2) s
    agResult g Sts.badState (agEndMove g s1)
  else s

/-- A member's speed and position from the leader's (R266). -/
def memberTick (g : Nat) (v p : Nat) (s : State) (m : Nat × Int) : State :=
  let u := agU s g
  let d := max 1 u.dist
  let vm := v * m.2.natAbs / d
  let pm := p * m.2.natAbs / d
  let p0 := (axU s m.1).prog
  let s1 := modAx m.1 (fun a => { a with vel := vm, prog := pm }) s
  stepEdges m.1 p0 pm true 6 (levelPend m.1 vm (velSync m.1 vm s1))

/-- One group in one profile tick. -/
def agTick (g : Nat) (s : State) : State :=
  let s0 := groupFault g s
  let u := agU s0 g
  let st := agState s0 g
  if !(axMoving st) then s0
  else
    let holds := u.members.filter fun m => axHeld s0 m.1 (u.vel * m.2.natAbs / max 1 u.dist)
    let held := !holds.isEmpty
    let dec := if u.estop then s0.g (AG_ESTOP_VALUE g) else s0.g (AG_DECEL_VALUE g)
    let v := if st = Axs.stopping then u.vel - dec
      else nextVel u.vel (s0.g (AG_VMAX_VALUE g)) (s0.g (AG_ACCEL_VALUE g)) dec (some (u.dist * 2000000000000 - u.prog)) held
    let p := min (u.dist * 2000000000000) (u.prog + u.vel + v)
    let s1 := modAg g (fun u => { u with vel := v, prog := p }) s0
    let s2 := if held ∧ st = Axs.moving then
        holds.foldl (fun s m => s.pb (AX_STAT_HELD m.1) true) (s1.pb (AG_STAT_HELD g) true)
      else s1
    let s3 := u.members.foldl (memberTick g v p) s2
    if st = Axs.stopping ∧ v = 0 then agEndMove g s3 else s3

/-- A 1 us profile tick (R254, R264): faults first, then every moving axis and group. -/
def profileTick (s : State) : State :=
  let s1 := overN 8 agTick (overN s.part.axes axTick s)
  overN 8 (fun g => modAg g fun u =>
    { u with goTick := false, stopTick := false, went := false, ended := none }) (overN s.part.axes axTimers s1)

def execAxisProfileTick (s : State) : Host.Outcome State Fault Refusal := .next (live profileTick s)

/-! ## Control writes (R253, R260-R265, R269) -/

/-- A hard stop is in force for an axis or group with KEEP 0 (R270). -/
def stopped (s : State) (keep : Fld) : Bool := s.psq.stopInForce && !s.on keep

/-- The signed distance a position move of axis `n` travels. -/
def axDelta (s : State) (n : Nat) : Int :=
  let t := s32 (s.reg (AX_TARGET n))
  if s.on (AX_CTRL_REL n) then t else t - s32 (s.reg (AX_POS n))

/-- The move's start: distance, direction, DIR setup and hold, and MINLEVEL where the axis stands at the last boundary
before its target. -/
def axBegin (n : Nat) (velMode byGroup : Bool) (delta : Int) (s : State) : State :=
  let fwd := decide (0 ≤ delta)
  let s1 := modAx n (fun u => { u with
    prog := 0, vel := 0, emitted := 0, dist := delta.natAbs, fwd := fwd,
    velMode := velMode, byGroup := byGroup, estop := false, disable := false,
    dirOut := if u.hold = 0 then fwd else u.dirOut,
    wait := if fwd = u.dirOut then u.wait else max u.wait (u.hold + s.g (AX_TIMING_TDS n)) }) (s.p (AX_STAT_STATE n) Axs.moving)
  if boundaryAt s1 n (s32 (s.reg (AX_POS n))) && !velMode then atBoundary n delta.natAbs true s1 else s1

/-- The move that a GO latches: a velocity move and its direction, or a position move and its distance (R260). -/
def latched (s : State) (n : Nat) : Bool × Int :=
  if s.on (AX_CTRL_MODE n) then (true, if s.on (AX_CTRL_VDIR n) then -1 else 1) else (false, axDelta s n)

/-- The move that a GO latched starts. -/
def axStart (n : Nat) (s : State) : State :=
  let l := (axU s n).latch
  axBegin n l.1 false l.2 s

/-- The refusals of R259 for a move of axis `n`, its speed and deceleration shares x / y of those given. -/
def goParam (s : State) (n vmax acc dec x y : Nat) (position : Bool) : Bool :=
  vmax == 0 || acc == 0 || dec == 0 || !rateOk s n (vmax * x) y || !decelOk s n (dec * x) y
    || (position && (s32 (s.reg (AX_POS n)) + axDelta s n - (s.g (AX_PHREF_PHREF n) : Int)) % ((2 ^ s.g (AX_MSTEP_MINLEVEL n) : Nat) : Int) != 0)

/-- AXn_CTRL.GO (R260, R262, R265, R270): a member's is refused with BUSY, or with BAD_STATE while its group's move is
latched or under way (DEDUCED, assumption log 86). -/
def axGo (n : Nat) (s : State) : State :=
  if s.on (AX_CTRL_IN_GROUP n) then
    axResult n (if agState s (s.g (AX_CTRL_GROUP n)) = 0 then Sts.busy else Sts.badState) s
  else
    let s0 := modAx n (fun u => { u with calls := u.calls ++ [none] }) s
    if axState s n ≠ Axs.idle ∨ (axU s n).stopTick ∨ stopped s (AX_CTRL_KEEP n) then axResult n Sts.badState s0
    else if goParam s n (s.g (AX_VMAX_VMAX n)) (s.g (AX_ACCEL_ACCEL n)) (s.g (AX_DECEL_DECEL n)) 1 1 (!s.on (AX_CTRL_MODE n)) then
      axResult n Sts.param s0
    else
      let s1 := axResult n Sts.ok (modAx n (fun u => { u with latch := latched s n, goTick := true }) s0)
      if s.on (AX_CTRL_WAIT_EV n) then s1.p (AX_STAT_STATE n) Axs.waiting else axStart n s1

/-- AGg_CTRL.STOP: along the path, ahead of what the tick took already (R264, R267). The bit is set in every state (R8). -/
def agStop (g : Nat) (s : State) : State :=
  let s1 := ((modAg g (fun u => { u with stopTick := true }) (agUnwind g s)).pb (AG_CTRL_STOP g) true)
  let st := agState s1 g
  agReplay g (if st = Axs.waiting then agEndMove g s1
    else if st = Axs.moving then
      (agU s1 g).members.foldl (fun s m => s.p (AX_STAT_STATE m.1) Axs.stopping) (s1.p (AG_STAT_STATE g) Axs.stopping)
    else s1)

/-- AXn_CTRL.STOP (R263), ahead of what the tick took already: a GO of the same tick is refused (R264). A member stops its
group along its path (DEDUCED, assumption log 86). The bit is set in every state, and cleared on entry to IDLE (R8). -/
def axStop (n : Nat) (s : State) : State :=
  let g := s.g (AX_CTRL_GROUP n)
  let s0 := modAx n (fun u => { u with stopTick := true }) s
  if ((axU s n).byGroup && axMoving (axState s n)) || (s.on (AX_CTRL_IN_GROUP n) && (agU s g).ended.isSome) then
    agStop g (s0.pb (AX_CTRL_STOP n) true)
  else
    let s1 := (axUnwind n s0).pb (AX_CTRL_STOP n) true
    let st := axState s1 n
    axReplay n (if st = Axs.waiting then axEndMove n s1
      else if st = Axs.moving then s1.p (AX_STAT_STATE n) Axs.stopping
      else s1)

/-- The code that MRES shows (R255). -/
def mresShown (s : State) (n : Nat) : Nat := bitsOf (s.g (AX_MRESMAP_CODES n)) (3 * (axU s n).shown) 3

/-- After a change of MRES from `was` the next rising edge waits TMS (R254). -/
def mresWait (n was : Nat) (s : State) : State :=
  if mresShown s n = was then s else modAx n (fun u => { u with wait := max u.wait (10 * s.g (AX_TIMING_TMS n)) }) s

/-- A write of AXn_MRESMAP. -/
def axMresWrite (n : Nat) (v : Word) (s : State) : State :=
  mresWait n (mresShown s n) (s.plainWrite (AX_MRESMAP n) v)

/-- ENABLE set in OFF (R253, R268 and the register fields), or refused. -/
def axEnable (n : Nat) (s : State) : State :=
  if s.mapped 0x12 n 0 ∧ s.g (AX_MSTEP_PMAX n) ≠ 0 ∧ 10 ≤ s.g (AX_TIMING_TH n) then
    let s1 := ((s.pb (AX_CTRL_ENABLE n) true).p (AX_STAT_STATE n) Axs.idle).p (AX_STAT_LEVEL n) (s.g (AX_MSTEP_MINLEVEL n))
    let lo := s.g (AX_MSTEP_MINLEVEL n)
    let s2 := mresWait n (mresShown s n) (modAx n (fun u => { u with shown := lo }) (s1.pb (AX_CTRL_STOP n) false))
    encAlign n (modAx n (fun u => { u with wait := max u.wait (10000 * s.g (AX_TIMING_TEN n)) }) s2)
  else s.pb (AX_STAT_CFG_ERR n) true

/-- ENABLE cleared: at once while still, as STOP while moving (R263). -/
def axDisable (n : Nat) (s : State) : State :=
  let st := axState s n
  if axMoving st then
    axStop n (modAx n (fun u => { u with disable := true }) s)
  else (s.pb (AX_CTRL_ENABLE n) false).p (AX_STAT_STATE n) Axs.off

/-- The plain fields of an AXn_CTRL write; DIR_INV and EN_POL only while OFF. -/
def axFields (n : Nat) (v : Word) (s : State) : State :=
  let put := fun (f : Fld) (s : State) => s.p f (fieldOf f v)
  let s1 := put (AX_CTRL_IN_GROUP n) (put (AX_CTRL_GROUP n) (put (AX_CTRL_WAIT_EV n) (put (AX_CTRL_VDIR n)
    (put (AX_CTRL_REL n) (put (AX_CTRL_MODE n) (put (AX_CTRL_KEEP n) s))))))
  if axState s n = Axs.off then put (AX_CTRL_DIR_INV n) (put (AX_CTRL_EN_POL n) s1)
  else if fieldOf (AX_CTRL_DIR_INV n) v ≠ s.g (AX_CTRL_DIR_INV n) ∨ fieldOf (AX_CTRL_EN_POL n) v ≠ s.g (AX_CTRL_EN_POL n) then
    s1.pb (AX_STAT_CFG_ERR n) true
  else s1

/-- AXn_CTRL.CLEAR in FAULT: IDLE, encoder realigned (R269). -/
def axClear (n : Nat) (s : State) : State :=
  if axState s n = Axs.fault then encAlign n ((s.p (AX_STAT_STATE n) Axs.idle).pb (AX_CTRL_STOP n) false) else s

/-- The profile of axis `n`'s position move has reached its target, and no pulse of it is still to come. -/
def atTarget (s : State) (n : Nat) : Bool :=
  let u := axU s n
  decide (axState s n = Axs.moving) && !u.velMode && decide (u.prog = u.dist * 2000000000000)
    && decide (u.dist < u.emitted + 2 ^ s.g (AX_STAT_LEVEL n))

/-- A position move or a group move that has reached its target ends: DONE pulsed (R260, R266). -/
def axMoveEnd (n : Nat) (s : State) : State :=
  if (axU s n).byGroup then
    let g := s.g (AX_CTRL_GROUP n)
    let ms := (agU s g).members
    if ms.all fun m => atTarget s m.1 then
      let was := ((agU s g).vel, (agU s g).dist, ms)
      (ms.foldl (fun s m => s.event (.axDone m.1)) (modAg g (fun u => { u with ended := some was }) (agEndMove g s))).event
        (.agDone g)
    else s
  else if atTarget s n then
    (modAx n (fun u => { u with ended := some (axU s n).vel }) (axEndMove n s)).event (.axDone n)
  else s

def execAxisMoveEnd (n : Fin 48) (s : State) : Host.Outcome State Fault Refusal := .next (live (axMoveEnd n) s)

/-- Before a write that is no STOP comes the end of a move at its target in the same tick (R264). -/
def axSettle (n : Nat) (s : State) : State := if axMoving (axState s n) then axMoveEnd n s else s

/-- A write of AXn_CTRL: a STOP comes before the end of a move, and before a GO of the same tick (R264). -/
def axCtrlWrite (n : Nat) (v : Word) (s0 : State) : State :=
  let s := if fieldOf (AX_CTRL_STOP n) v = 1 then s0 else axSettle n s0
  if !joinOk s n v then s.pb (AX_STAT_CFG_ERR n) true
  else
    let s2 := membersSync (axFields n v s)
    let s3 := if fieldOf (AX_CTRL_CLEAR n) v = 1 then axClear n s2 else s2
    let en := fieldOf (AX_CTRL_ENABLE n) v == 1
    let s4 := if en ∧ axState s3 n = Axs.off then axEnable n s3
      else if !en ∧ axState s3 n ≠ Axs.off then axDisable n s3 else s3
    let s5 := if fieldOf (AX_CTRL_STOP n) v = 1 then axStop n s4 else s4
    if fieldOf (AX_CTRL_GO n) v = 1 then axGo n s5 else s5

def execAxisEnable (n : Fin 48) (v : Word) (s : State) : Host.Outcome State Fault Refusal :=
  .next (hostAt (AX_CTRL n) (axCtrlWrite n v) s)

def execAxisDisable (n : Fin 48) (v : Word) (s : State) : Host.Outcome State Fault Refusal :=
  .next (hostAt (AX_CTRL n) (axCtrlWrite n v) s)

def execAxisGo (n : Fin 48) (v : Word) (s : State) : Host.Outcome State Fault Refusal :=
  .next (hostAt (AX_CTRL n) (axCtrlWrite n v) s)

def execAxisStop (n : Fin 48) (v : Word) (s : State) : Host.Outcome State Fault Refusal :=
  .next (hostAt (AX_CTRL n) (axCtrlWrite n v) s)

def execAxisClear (n : Fin 48) (v : Word) (s : State) : Host.Outcome State Fault Refusal :=
  .next (hostAt (AX_CTRL n) (axCtrlWrite n v) s)

/-- A write of AXn_TARGET (R262). -/
def axTargetWrite (n : Nat) (v : Word) (s0 : State) : State :=
  let s := axSettle n s0
  let call := fun u : Ax =>
    { u with tgt0 := if u.calls.any Option.isSome then u.tgt0 else s.reg (AX_TARGET n), calls := u.calls ++ [some v] }
  axTargetPut n v (modAx n call s)

def execAxisTargetWrite (n : Fin 48) (v : Word) (s : State) : Host.Outcome State Fault Refusal :=
  .next (hostAt (AX_TARGET n) (axTargetWrite n v) s)

/-- The offsets of VMAX, ACCEL and DECEL. -/
def axProfileReg (n : Nat) (k : Nat) : Nat := if k = 0 then AX_VMAX n else if k = 1 then AX_ACCEL n else AX_DECEL n

/-- A value of VMAX, ACCEL or DECEL, of which axis `n` has the share x / y, that R259 would refuse at GO. -/
def profileRefused (s : State) (n k v x y : Nat) : Bool :=
  v == 0 || (k == 0 && !rateOk s n (v * x) y) || (k == 2 && !decelOk s n (v * x) y)

/-- A write of VMAX, ACCEL or DECEL (R261): during a move a value R259 would refuse is ignored. -/
def axProfileWrite (n k : Nat) (v : Word) (s0 : State) : State :=
  let s := axSettle n s0
  if axMoving (axState s n) ∧ !(axU s n).byGroup then
    if profileRefused s n k v.toNat 1 1 then axResult n Sts.param s
    else
      let u := axU s n
      let s1 := axResult n Sts.ok (s.setReg (axProfileReg n k) v)
      if k = 2 ∧ axState s n = Axs.moving ∧ !u.velMode ∧ u.vel * u.vel > (u.dist * 2000000000000 - u.prog) * v.toNat then
        s1.pb (AX_STAT_DECEL_RAISED n) true
      else s1
  else s.setReg (axProfileReg n k) v

def execAxisProfileWrite (n : Fin 48) (k : Fin 3) (v : Word) (s : State) : Host.Outcome State Fault Refusal :=
  .next (hostAt (axProfileReg n k) (axProfileWrite n k v) s)

/-- A pulse on an axis's start input (R260). -/
def axPulse (n : Nat) (s : State) : State :=
  if axState s n = Axs.waiting ∧ !stopped s (AX_CTRL_KEEP n) then axStart n s else s

/-- A pulse from the fabric, or from the START ball where PINMAP places it (R34, R450). -/
def execAxisStartInput (n : Fin 48) (s : State) : Host.Outcome State Fault Refusal :=
  .next (live (fun s => if s.fabricFeeds (0x1200 + n) 0 ∨ s.mapped 0x12 n 6 then axPulse n s else s) s)

/-! ## Group moves (R266, R267) -/

/-- Each member's signed distance. -/
def deltasOf (s : State) (g : Nat) : List (Nat × Int) := (membersOf s g).map fun n => (n, axDelta s n)

/-- The leader: the largest |delta|, the lowest-numbered of equals. -/
def leaderOf (ds : List (Nat × Int)) : Nat × Int :=
  ds.foldl (fun b d => if b.2.natAbs < d.2.natAbs then d else b) (ds.headD (0, 0))

/-- R259 for one member: the group's values scaled by its share of the leader's distance. -/
def memberParam (s : State) (g lead : Nat) (d : Nat × Int) : Bool :=
  goParam s d.1 (s.g (AG_VMAX_VALUE g)) (s.g (AG_ACCEL_VALUE g)) (s.g (AG_DECEL_VALUE g)) d.2.natAbs (max 1 lead) true

/-- The group's moves, as its GO latched them, start in one tick; with a member no longer idle the group ends with
BAD_STATE and nothing moves (DESIGN CHOICE, assumption log 86). -/
def agStart (g : Nat) (s : State) : State :=
  let ds := (agU s g).members
  if ds.any fun d => axState s d.1 != Axs.idle then agResult g Sts.badState (agEndMove g s)
  else ds.foldl (fun s d => axBegin d.1 false true d.2 s) (s.p (AG_STAT_STATE g) Axs.moving)

/-- AGg_CTRL.GO. -/
def agGo (g : Nat) (s0 : State) : State :=
  let s := modAg g (fun u => { u with went := true }) s0
  let ds := deltasOf s g
  let lead := (leaderOf ds).2.natAbs
  if agState s g ≠ 0 ∨ (agU s g).stopTick ∨ stopped s (AG_CTRL_KEEP g) then agResult g Sts.badState s
  else if ds.any (fun d => axMoving (axState s d.1) || axState s d.1 == Axs.waiting) then agResult g Sts.busy s
  else if ds.any (fun d => axState s d.1 != Axs.idle) then agResult g Sts.badState s
  else if s.g (AG_VMAX_VALUE g) = 0 ∨ s.g (AG_ACCEL_VALUE g) = 0 ∨ s.g (AG_DECEL_VALUE g) = 0 ∨ ds.any (memberParam s g lead) then
    agResult g Sts.param s
  else
    let s1 := agResult g Sts.ok (s.p (AG_STAT_LEADER g) (leaderOf ds).1)
    if lead = 0 then s1.event (.agDone g)
    else
      let s2 := modAg g (fun u => { u with dist := lead, members := ds, goTick := true }) s1
      if s.on (AG_CTRL_WAIT_EV g) then s2.p (AG_STAT_STATE g) Axs.waiting else agStart g s2

/-- Before a write that is no STOP comes the end of a group's move at its target in the same tick (R264, R267). -/
def agSettle (g : Nat) (s : State) : State :=
  if agState s g = Axs.moving then axMoveEnd ((agU s g).members.headD (0, 0)).1 s else s

/-- A write of AGg_CTRL; WAIT_EV is latched at GO. -/
def agCtrlWrite (g : Nat) (v : Word) (s0 : State) : State :=
  let s := if fieldOf (AG_CTRL_STOP g) v = 1 then s0 else agSettle g s0
  let s1 := (s.p (AG_CTRL_KEEP g) (fieldOf (AG_CTRL_KEEP g) v)).p (AG_CTRL_WAIT_EV g) (fieldOf (AG_CTRL_WAIT_EV g) v)
  let s2 := if fieldOf (AG_CTRL_STOP g) v = 1 then agStop g s1 else s1
  if fieldOf (AG_CTRL_GO g) v = 1 then agGo g s2 else s2

def execGroupGo (g : Fin 8) (v : Word) (s : State) : Host.Outcome State Fault Refusal :=
  .next (hostAt (AG_CTRL g) (agCtrlWrite g v) s)

def execGroupStop (g : Fin 8) (v : Word) (s : State) : Host.Outcome State Fault Refusal :=
  .next (hostAt (AG_CTRL g) (agCtrlWrite g v) s)

/-- A pulse on a group's start input (R266). -/
def agPulse (g : Nat) (s : State) : State :=
  if agState s g = Axs.waiting ∧ !stopped s (AG_CTRL_KEEP g) then agStart g s else s

def execGroupStartInput (g : Fin 8) (s : State) : Host.Outcome State Fault Refusal :=
  .next (live (fun s => if s.fabricFeeds (0x1300 + g) 0 then agPulse g s else s) s)

/-- A write of a group's VMAX, ACCEL or DECEL (R261, R267): during a move a value R259 would refuse is ignored. -/
def agProfileWrite (g k : Nat) (v : Word) (s0 : State) : State :=
  let s := agSettle g s0
  let off := if k = 0 then AG_VMAX g else if k = 1 then AG_ACCEL g else AG_DECEL g
  if axMoving (agState s g) ∧ (v.toNat = 0 ∨ (agU s g).members.any fun m =>
      profileRefused s m.1 k v.toNat m.2.natAbs (max 1 (agU s g).dist)) then
    agResult g Sts.param s
  else s.setReg off v

/-- Axis registers writable only while OFF: AXn_MSTEP, PHREF, CPF, POS, and EN of AXn_ENC. -/
def axOffWrite (n off : Nat) (v : Word) (s : State) : State :=
  if axState s n = Axs.off then s.plainWrite off v
  else if off = AX_POS n then s
  else if off = AX_ENC n ∧ fieldOf (AX_ENC_EN n) v = s.g (AX_ENC_EN n) then s.plainWrite off v
  else s.pb (AX_STAT_CFG_ERR n) true

end Sys2Proof.Machine
end

