-- ==== Sys2Proof/Machine/Control.lean ====
section
/-!
DEFINITION. The control engine: operands and ports, loops and their checks, execution at a tick, staging, wide words,
trace units and memory errors (spec/12_control_engine.md R271-R288).
-/

namespace Sys2Proof.Machine

open Reg

def ceU (s : State) : CeU := s.mot.ce
def setCe (u : CeU) (s : State) : State := { s with mot.ce := u }

/-! ## Memories -/

def nodeVal (s : State) (i : Nat) : Int := if i = 0 then 0 else s.gi (CE_NODE_NODE i)
def coefVal (s : State) (c : Nat) : Int := s.gi (CE_COEF_COEF c)

/-- A 48-bit state word. -/
def stateVal (s : State) (k : Nat) : Int :=
  sext 48 ((s.reg (CE_STATE_HI k)).toNat % 65536 * 2 ^ 32 + (s.reg (CE_STATE_LO k)).toNat)

/-- Store a state word: 48 bits, the high register sign-extended (R283). -/
def putState (k : Nat) (x : Int) (s : State) : State :=
  let n := unsext 48 x
  (s.setReg (CE_STATE_LO k) (BitVec.ofNat 32 n)).setReg (CE_STATE_HI k) (BitVec.ofInt 32 (sext 16 (n / 2 ^ 32)))

/-! ## Operands and ports (R272) -/

/-- The PSQ belt setpoint, SQ2.18 m/s. -/
def beltSetp (s : State) : Int :=
  sat20 (roundDiv ((s.psq.belt : Int) * 254 * 262144 * (1000000000 + s.psq.beltTrim)) (24000000 * 1000000000))

/-- An output port's present value; one that no enabled loop writes reads 0 (R273). -/
def portVal (s : State) (a : Nat) : Int := bankGet 0 (ceU s).ports a

/-- The value an instruction or a trace unit reads at an operand address. -/
def readAddr (s : State) (a : Nat) : Int :=
  if a < 0x400 then nodeVal s a
  else if a < 0x4C0 then
    let n := (a - 0x400) / 8
    match (a - 0x400) % 8 with
    | 0 => s.gi (MC_SPEED_RPM n)
    | 1 => (mcU s n).theta
    | 2 => s.gi (MC_ID_ID n)
    | 3 => s.gi (MC_IQ_IQ n)
    | 4 => (mcU s n).setp
    | 5 => if n < 8 then s.gi (MC_BDERR_ERR n) else 0
    | 6 => s.g (MC_STAT_LOCKED n)
    | _ => 0
  else if a < 0x500 then sext 20 (bankGet 0 (ceU s).conv a)
  else if a < 0x510 then ((bankGet 0 (ceU s).conv a % 4096 * 128 : Nat) : Int)
  else if a = 0x530 then beltSetp s
  else if a = 0x531 then (ceU s).psqErr
  else if a = 0x532 then s.g PSQ_STAT_BOUNDARY
  else if 0x600 ≤ a then portVal s a
  else 0

/-- An input operand: a node or a listed input port. -/
def inputOk (a : Nat) : Bool :=
  decide (a < 0x400) || (decide (0x400 ≤ a ∧ a < 0x4C0) && (a - 0x400) % 8 != 7)
    || decide (0x4C0 ≤ a ∧ a < 0x510) || decide (0x530 ≤ a ∧ a ≤ 0x532)

/-- A destination: a node from N1 or a listed output port. -/
def destOk (a : Nat) : Bool :=
  decide (1 ≤ a ∧ a < 0x400) || decide (0x600 ≤ a ∧ a < 0x618) || decide (0x620 ≤ a ∧ a < 0x648)

/-- A port of a unit absent on the part. -/
def portAbsent (s : State) (a : Nat) : Bool :=
  (decide (0x400 ≤ a ∧ a < 0x4C0) && decide (s.part.foc ≤ (a - 0x400) / 8))
    || (decide (0x600 ≤ a ∧ a < 0x618) && decide (s.part.foc ≤ a - 0x600))

/-! ## Instructions (R278, R279) -/

/-- A decoded program word. -/
structure CeInstr where
  op : Nat
  a : Nat
  b : Nat
  d : Nat
  c : Nat
  st : Nat
  m : Nat
  deriving DecidableEq, Repr

def ceInstr (s : State) (w : Nat) : CeInstr :=
  let v := (s.reg (CE_PROG_HI w)).toNat * 2 ^ 32 + (s.reg (CE_PROG_LO w)).toNat
  { op := bitsOf v 59 5, a := bitsOf v 48 11, b := bitsOf v 37 11, d := bitsOf v 26 11, c := bitsOf v 14 12,
    st := bitsOf v 4 10, m := bitsOf v 0 4 }

/-- A row of the operation table: cycles, coefficients, states, use of A, B, D and E, and M (0 zero, 1 shift, 2 the
test bit). -/
structure CeOp where
  cycles : Nat
  coefs : Nat := 0
  states : Nat := 0
  a : Bool := true
  b : Bool := false
  d : Bool := true
  e : Bool := false
  m : Nat := 0
  deriving DecidableEq, Repr

def ceOp (op : Nat) : Option CeOp :=
  match op with
  | 0x00 => some { cycles := 1, a := false, d := false }
  | 0x01 => some { cycles := 1 }
  | 0x02 => some { cycles := 1, b := true }
  | 0x03 => some { cycles := 1, b := true }
  | 0x04 => some { cycles := 1, coefs := 1, m := 1 }
  | 0x05 => some { cycles := 1, coefs := 1, b := true, m := 1 }
  | 0x08 => some { cycles := 3, coefs := 5, states := 2, m := 1 }
  | 0x09 => some { cycles := 3, coefs := 4, states := 1, b := true, m := 1 }
  | 0x0A => some { cycles := 5, coefs := 6, states := 3, b := true, m := 1 }
  | 0x0C => some { cycles := 1, coefs := 2 }
  | 0x0D => some { cycles := 1, coefs := 2, states := 1 }
  | 0x0E => some { cycles := 1, b := true, e := true, m := 2 }
  | _ => none

def ceCoefs (i : CeInstr) : Nat := match ceOp i.op with | some o => o.coefs | none => 0
def ceStates (i : CeInstr) : Nat := match ceOp i.op with | some o => o.states | none => 0

/-- Operand addresses an instruction reads. -/
def ceReads (i : CeInstr) : List Nat :=
  match ceOp i.op with
  | some o => (if o.a then [i.a] else []) ++ (if o.b then [i.b] else []) ++ (if o.e then [i.c % 2048] else [])
  | none => []

/-- The destination, where the operation has one. -/
def ceDest (i : CeInstr) : Option Nat :=
  match ceOp i.op with
  | some o => if o.d then some i.d else none
  | none => none

/-- Every unused field is 0 and M is as the table gives (check 3 of R280). -/
def ceFieldsOk (i : CeInstr) : Bool :=
  match ceOp i.op with
  | none => true
  | some o =>
    (o.a || i.a == 0) && (o.b || i.b == 0) && (o.d || i.d == 0)
      && (o.coefs != 0 || (if o.e then decide (i.c < 2048) else i.c == 0)) && (o.states != 0 || i.st == 0)
      && (o.m == 1 || (if o.m = 2 then decide (i.m < 2) else i.m == 0))

/-- Shift right by `k` with halves rounded up. -/
def rShift (x : Int) (k : Nat) : Int := if k = 0 then x else (x + 2 ^ (k - 1)) / 2 ^ k

def clamp48 (x : Int) : Int := clampI (-(2 ^ 47)) (2 ^ 47 - 1) x

/-- clamp(x, lo, hi): hi when lo exceeds hi. -/
def ceClamp (x lo hi : Int) : Int := if lo > hi then hi else if x < lo then lo else if x > hi then hi else x

/-- A sum or product in the 48-bit accumulator of R278; what one beyond 48 bits gives is a free value (assumption log 87). -/
def acc48 (x : Int) : Int := if clamp48 x = x then x else sext 48 (unsext 48 (Config.unstated 20 x))

/-- A 20-bit result that the listing does not saturate; one beyond 20 bits is a free value (assumption log 87). -/
def fit20 (x : Int) : Int := if sat20 x = x then x else sext 20 (unsext 20 (Config.unstated 21 x))

/-- What one operation gives: its result, its new state words, and whether a result saturated. -/
structure CeResult where
  d : Int
  st : List Int
  sat : Bool
  deriving DecidableEq, Repr

/-- sat20 with a note that it acted. -/
def satR (x : Int) (st : List Int) (sat : Bool := false) : CeResult := ⟨sat20 x, st, sat || decide (sat20 x ≠ x)⟩

/-- The integrator of PI and PID: it holds while the output is limited and the error would drive it further. -/
def integrate (s0 x ki u mx mn : Int) (m : Nat) : Int :=
  if (u ≥ mx ∧ x * ki > 0) ∨ (u ≤ mn ∧ x * ki < 0) then s0
  else ceClamp (acc48 (s0 + acc48 (ki * x * 2 ^ m))) (mn * 2 ^ 18) (mx * 2 ^ 18)

/-- The operations of R279, as the listing gives them: operands a, b, e, coefficients c, state words st. -/
def ceCompute (op m : Nat) (a b e : Int) (c st : Nat → Int) : CeResult :=
  let k := 18 - m
  match op with
  | 0x01 => ⟨a, [], false⟩
  | 0x02 => satR (a + b) []
  | 0x03 => satR (a - b) []
  | 0x04 => satR (rShift (a * c 0) k) []
  | 0x05 => satR (a + rShift (b * c 0) k) []
  | 0x08 =>
    let u := rShift (acc48 (acc48 (c 0 * a * 2 ^ m) + st 0)) 18
    let y := sat20 u
    let n0 := acc48 (c 1 * a * 2 ^ m) - c 3 * y + st 1
    let n1 := acc48 (c 2 * a * 2 ^ m) - c 4 * y
    satR u [clamp48 n0, clamp48 n1] (decide (clamp48 n0 ≠ n0) || decide (clamp48 n1 ≠ n1))
  | 0x09 =>
    let x := a - b
    let u := rShift (acc48 (acc48 (c 0 * x * 2 ^ m) + st 0)) 18
    ⟨ceClamp u (c 3) (c 2), [integrate (st 0) x (c 1) u (c 2) (c 3) m], false⟩
  | 0x0A =>
    let x := a - b
    let dd := acc48 (-acc48 (c 2 * (b - st 2) * 2 ^ m))
    let s1 := acc48 (st 1 + rShift (acc48 (c 5 * acc48 (dd - st 1))) 18)
    let u := rShift (acc48 (acc48 (acc48 (c 0 * x * 2 ^ m) + st 0) + s1)) 18
    ⟨ceClamp u (c 4) (c 3), [integrate (st 0) x (c 1) u (c 3) (c 4) m, s1, b * 2 ^ 18], false⟩
  | 0x0C => ⟨ceClamp a (c 1) (c 0), [], false⟩
  | 0x0D =>
    let d := fit20 (st 0 + ceClamp (a - st 0) (-c 1) (c 0))
    ⟨d, [d], false⟩
  | 0x0E => ⟨if m % 2 = 1 then (if e < 0 then a else b) else (if e ≠ 0 then a else b), [], false⟩
  | _ => ⟨0, [], false⟩

/-! ## Loops -/

def lpOn (s : State) (n : Nat) : Bool := s.on (LP_CFG_ENABLE n)
def enabledLoops (s : State) : List Nat := (List.range 64).filter (lpOn s)

/-- The program words of a loop that exist. -/
def lpWords (s : State) (n : Nat) : List Nat :=
  ((List.range (s.g (LP_CFG_LEN n))).map (s.g (LP_CFG_START n) + ·)).filter fun w => decide (w < 4096)

def lpCode (s : State) (n : Nat) : List CeInstr := (lpWords s n).map (ceInstr s)

/-- Cycles of one execution: its instructions' and 8 to sample and commit (R275). -/
def lpCost (s : State) (n : Nat) : Nat :=
  sumN ((lpCode s n).map fun i => match ceOp i.op with | some o => o.cycles | none => 0) + 8

/-- A loop writes a node or output port. -/
def lpWrites (s : State) (n a : Nat) : Bool := (lpCode s n).any fun i => ceDest i == some a
/-- A loop uses a state word. -/
def lpUsesState (s : State) (n k : Nat) : Bool :=
  (lpCode s n).any fun i => decide (i.st ≤ k ∧ k < i.st + ceStates i)

/-! ## Timebases (R274) -/

/-- A timebase's period as a fraction of a second. -/
def tbPeriod (s : State) (t : Nat) : Nat × Nat :=
  if s.on (TB_CFG_SRC t) then (s.g (TB_CFG_DIV t) + 1, s.g (MC_PWM_FREQ (s.g (TB_CFG_MC t))) * 100)
  else (s.g (TB_PERIOD_PERIOD t), 100000000)

/-- From 12.5 us to 1 s. -/
def tbLegal (s : State) (t : Nat) : Bool :=
  let (a, b) := tbPeriod s t
  decide (b ≠ 0 ∧ b ≤ 80000 * a ∧ a ≤ b)

def tuState (s : State) (u : Nat) : Nat := s.g (TU_STAT_STATE u)
def tuArmed (s : State) (u : Nat) : Bool := tuState s u == 1 || tuState s u == 2

def tbUsed (s : State) (t : Nat) : Bool :=
  ((List.range 64).any fun n => lpOn s n && s.g (LP_CFG_TB n) == t)
    || (List.range 4).any fun u => tuArmed s u && s.g (TU_CFG_TB u) == t

/-- TBt_CFG.USED and CE_STAT.ENABLED follow the loops and trace units. -/
def ceSync (s : State) : State :=
  overN 8 (fun t s => s.pb (TB_CFG_USED t) (tbUsed s t)) (s.p CE_STAT_ENABLED (enabledLoops s).length)

/-! ## Checks of R280 -/

/-- The schedule condition of R275 with loops `ls` enabled. -/
def schedOk (s : State) (ls : List Nat) : Bool :=
  let tbs := (List.range 8).filter fun t => ls.any fun n => s.g (LP_CFG_TB n) == t
  let w := fun u => sumN ((ls.filter fun n => s.g (LP_CFG_TB n) == u).map (lpCost s))
  tbs.all fun t =>
    let (at_, bt) := tbPeriod s t
    let total := sumN (tbs.map fun u =>
      let (au, bu) := tbPeriod s u
      if au * bt ≤ at_ * bu then w u * ceilDiv (at_ * bu) (bt * au) else 0)
    decide (total * 10 * bt ≤ 9 * at_ * s.g CE_CAPS_MHZ * 1000000)

/-- The first program word of a loop that a test fails. -/
def firstBad (s : State) (n : Nat) (bad : CeInstr → Bool) : Option Nat := (lpWords s n).find? fun w => bad (ceInstr s w)

/-- R277 for a word of loop `n`: another enabled loop writes its destination or uses its state words. -/
def writerClash (s : State) (n : Nat) (i : CeInstr) : Bool :=
  ((enabledLoops s).filter (· != n)).any fun k =>
    (match ceDest i with | some d => lpWrites s k d | none => false)
      || (List.range (ceStates i)).any fun j => lpUsesState s k (i.st + j)

/-- The first failing check and the offending word, in the order of R280. -/
def lpCheck (s : State) (n : Nat) : Option (Nat × Nat) :=
  let start := s.g (LP_CFG_START n)
  if !tbLegal s (s.g (LP_CFG_TB n)) then some (1, start)
  else match firstBad s n (fun i => (ceOp i.op).isNone) with
  | some w => some (2, w)
  | none => match firstBad s n (fun i => !ceFieldsOk i) with
  | some w => some (3, w)
  | none => match firstBad s n (fun i => (ceReads i).any (fun a => !inputOk a)
      || (match ceDest i with | some d => !destOk d | none => false)) with
  | some w => some (4, w)
  | none => match firstBad s n (fun i => (ceReads i).any (portAbsent s)
      || (match ceDest i with | some d => portAbsent s d | none => false)) with
  | some w => some (5, w)
  | none =>
    if start + s.g (LP_CFG_LEN n) > 4096 then some (6, start)
    else match firstBad s n (fun i => decide (i.c + ceCoefs i > 4096 ∧ ceCoefs i ≠ 0) || decide (i.st + ceStates i > 1024)) with
    | some w => some (6, w)
    | none => match firstBad s n (writerClash s n) with
    | some w => some (7, w)
    | none => if schedOk s (n :: (enabledLoops s).filter (· != n)) then none else some (8, start)

/-- A loop is disabled: its output ports return to 0 at the next tick of its timebase (R273). -/
def lpDisable (n : Nat) (s : State) : State :=
  let zeros := ((lpCode s n).filterMap ceDest).filter (fun a => decide (0x600 ≤ a)) |>.map fun a => (a, (0 : Int))
  let u := ceU s
  ceSync (setCe { u with commits := bankPut [] n zeros u.commits } (s.pb (LP_CFG_ENABLE n) false))

/-- A write of LPn_CFG (R273, R280). -/
def lpCfgWrite (n : Nat) (v : Word) (s : State) : State :=
  let en := fieldOf (LP_CFG_ENABLE n) v == 1
  let same := fieldOf (LP_CFG_LEN n) v == s.g (LP_CFG_LEN n) && fieldOf (LP_CFG_TB n) v == s.g (LP_CFG_TB n)
    && fieldOf (LP_CFG_START n) v == s.g (LP_CFG_START n)
  if lpOn s n then
    let s1 := if same then s else s.pb (LP_STAT_CFG_ERR n) true
    if en then s1 else lpDisable n s1
  else
    let s1 := ((s.p (LP_CFG_LEN n) (fieldOf (LP_CFG_LEN n) v)).p (LP_CFG_TB n) (fieldOf (LP_CFG_TB n) v)).p
      (LP_CFG_START n) (fieldOf (LP_CFG_START n) v)
    if !en then s1
    else match lpCheck s1 n with
      | some (e, w) => (s1.p (LP_STAT_ERR n) e).p (LP_STAT_INFO n) w
      | none =>
        ceSync (((s1.p (LP_STAT_ERR n) 0).p (LP_STAT_INFO n) (lpCost s1 n)).pb (LP_CFG_ENABLE n) true)

def execLoopEnable (n : Fin 64) (v : Word) (s : State) : Host.Outcome State Fault Refusal :=
  .next (hostAt (LP_CFG n) (lpCfgWrite n v) s)

def execLoopDisable (n : Fin 64) (v : Word) (s : State) : Host.Outcome State Fault Refusal :=
  .next (hostAt (LP_CFG n) (lpCfgWrite n v) s)

/-! ## Execution (R276) -/

/-- Commit a loop's results: nodes and output ports, all at once. -/
def lpCommit (n : Nat) (s : State) : State :=
  let u := ceU s
  let cs := bankGet [] u.commits n
  let s1 := setCe { u with commits := bankPut [] n [] u.commits } s
  cs.foldl (fun s c =>
    if c.1 < 0x400 then s.pz (CE_NODE_NODE c.1) c.2
    else setCe { ceU s with ports := bankPut 0 c.1 c.2 (ceU s).ports } s) s1

/-- An operand in an execution: a value written earlier in it, else the sample. -/
def ceRead (s : State) (done : List (Nat × Int)) (a : Nat) : Int :=
  match done.find? fun d => d.1 == a with
  | some d => d.2
  | none => readAddr s a

/-- Run instructions: state words change at once, results collect until the commit. -/
def ceRun (n : Nat) : List CeInstr → List (Nat × Int) → State → List (Nat × Int) × State
  | [], done, s => (done, s)
  | i :: r, done, s =>
    match ceDest i with
    | none => ceRun n r done s
    | some d =>
      let res := ceCompute i.op i.m (ceRead s done i.a) (ceRead s done i.b) (ceRead s done (i.c % 2048))
        (fun k => coefVal s (i.c + k)) (fun k => stateVal s (i.st + k))
      let s1 := (res.st.zipIdx).foldl (fun s p => putState (i.st + p.2) p.1 s) s
      let s2 := if res.sat then s1.pb (LP_STAT_SAT n) true else s1
      ceRun n r ((d, res.d) :: done.filter (fun x => x.1 != d)) s2

/-- One execution of loop `n`. -/
def lpExec (n : Nat) (s : State) : State :=
  let (done, s1) := ceRun n (lpCode s n) [] s
  setCe { ceU s1 with commits := bankPut [] n done.reverse (ceU s1).commits } s1

/-! ## PSQ speed error (R281) -/

/-- The error for `cnt` counts and the time from the first to the last, ns. -/
def psqError (s : State) (cnt tMeas : Nat) : Int :=
  if cnt < 2 then 524287
  else
    let n : Int := (tMeas : Int) * s.psq.belt * cplNum s s.psq.trim
    let d : Int := ((cnt - 1 : Nat) : Int) * 1000000000 * cplDen
    clampI (-524287) 524287 (roundDiv (10000000 * (n - d)) d)

/-- The belt enters its band after 64 errors within it and leaves it after 8 beyond four times it. -/
def beltStep (e : Int) (s : State) : State :=
  let b := s.g CE_BELT_BAND
  let u := ceU s
  let u' := { u with psqErr := e, inBand := if e.natAbs ≤ b then u.inBand + 1 else 0,
                     outBand := if 4 * b < e.natAbs then u.outBand + 1 else 0 }
  let s1 := setCe u' s
  if s1.on CE_BELT_IN_BAND then (if 8 ≤ u'.outBand then s1.pb CE_BELT_IN_BAND false else s1)
  else if 64 ≤ u'.inBand then s1.pb CE_BELT_IN_BAND true
  else s1

/-- The belt counts as in band (R27, R281). -/
def beltOk (s : State) : Bool := s.g CE_BELT_BAND == 0 || s.on CE_BELT_IN_BAND

/-! ## Trace units (R285-R287) -/

def tuU (s : State) (u : Nat) : Tu := bankGet {} (ceU s).tu u
def modTu (u : Nat) (f : Tu → Tu) (s : State) : State :=
  setCe { ceU s with tu := bankPut {} u (f (tuU s u)) (ceU s).tu } s

def tuChans (s : State) (u : Nat) : Nat := match s.g (TU_CFG_CHANS u) with | 0 => 1 | 1 => 2 | _ => 4
def tuDepth (s : State) (u : Nat) : Nat := 16384 / tuChans s u
def tuPre (s : State) (u : Nat) : Nat := min (s.g (TU_PRE_PRE u)) (tuDepth s u - 1)

/-- The operand addresses of a unit's channels. -/
def tuSources (s : State) (u : Nat) : List Nat :=
  [s.g (TU_SRC01_SRC_LO u), s.g (TU_SRC01_SRC_HI u), s.g (TU_SRC23_SRC_LO u), s.g (TU_SRC23_SRC_HI u)].take (tuChans s u)

/-- Whether the unit's trigger fires between the previous value of its operand and the present one. -/
def tuFires (s : State) (u : Nat) : Bool :=
  let t := tuU s u
  let lv := s.gi (TU_LEVEL_LEVEL u)
  let cur := readAddr s (s.g (TU_TRIG_SRC u))
  let rise := match t.prev with | some p => decide (p < lv ∧ lv ≤ cur) | none => false
  let fall := match t.prev with | some p => decide (lv ≤ p ∧ cur < lv) | none => false
  t.force || (match s.g (TU_TRIG_MODE u) with
    | 1 => rise
    | 2 => fall
    | 3 => rise || fall
    | 4 => t.pulse
    | _ => false)

/-- The buffer window shows nothing. -/
def tuClearBuf (u : Nat) (s : State) : State :=
  s.resetRegs fun o => decide (TU_BUF u 0 ≤ o ∧ o < TU_BUF u 16384)

/-- A sample of unit `u`. -/
def tuSample (u : Nat) (s : State) : State :=
  let t := tuU s u
  let row := (tuSources s u).map (readAddr s)
  let pre := tuPre s u
  let d := tuDepth s u
  let trig := tuState s u == 1 && s.on (TU_STAT_PREFILL u) && tuFires s u
  let t1 : Tu := { t with prev := some (readAddr s (s.g (TU_TRIG_SRC u))), pulse := false, dec := s.g (TU_CFG_DEC u) }
  if tuState s u = 1 then
    if trig then
      let t2 := { t1 with samples := row :: t.samples.take pre, force := false, post := d - pre - 1 }
      let s1 := ((s.p (TU_STAT_STATE u) 2).setReg (TU_T0_LO u) (BitVec.ofNat 32 s.time.ns)).setReg (TU_T0_HI u) (BitVec.ofNat 32 s.time.sec)
      (modTu u (fun _ => t2) s1).p (TU_STAT_COUNT u) t2.samples.length
    else
      let t2 := { t1 with samples := (row :: t.samples).take d }
      let s1 := (modTu u (fun _ => t2) s).p (TU_STAT_COUNT u) t2.samples.length
      if pre ≤ t2.samples.length then s1.pb (TU_STAT_PREFILL u) true else s1
  else if t.post = 0 then s
  else
    let t2 := { t1 with samples := row :: t.samples, post := t.post - 1 }
    (modTu u (fun _ => t2) s).p (TU_STAT_COUNT u) t2.samples.length

/-- A tick of the unit's timebase: every DEC-th takes a sample; a pulse of the trigger's halyard line is remembered. -/
def tuTick (pulses : List Nat) (u : Nat) (s : State) : State :=
  let s0 := if pulses.contains (s.g (TU_TRIG_SRC u) % 256) then modTu u (fun t => { t with pulse := true }) s else s
  let t := tuU s0 u
  if t.dec ≠ 0 then modTu u (fun t => { t with dec := t.dec - 1 }) s0 else tuSample u s0

/-- A tick of timebase `t`: the ports of loops disabled since return to 0 (R273), results committed, the PSQ speed error refreshed, trace units sampled, loops run. -/
def tbTick (t : Nat) (conv : List (BitVec 11 × BitVec 20)) (cnt tMeas : Nat) (pulses : List Nat) (s : State) : State :=
  if s.on (TB_CFG_SRC t) && !s.on (MC_CTRL_ENABLE (s.g (TB_CFG_MC t))) then s
  else
    let s0 := setCe { ceU s with conv := conv.foldl (fun b c => bankPut 0 c.1.toNat c.2.toNat b) (ceU s).conv } s
    let commits := fun (on : Bool) => overN 64 fun n s => if lpOn s n = on ∧ s.g (LP_CFG_TB n) = t then lpCommit n s else s
    let s1 := commits true (commits false s0)
    let s2 := if s1.g CE_BELT_TB = t then beltStep (psqError s1 cnt tMeas) s1 else s1
    let s3 := overN 4 (fun u s => if tuArmed s u && s.g (TU_CFG_TB u) == t then tuTick pulses u s else s) s2
    overN 64 (fun n s => if lpOn s n && s.g (LP_CFG_TB n) == t then lpExec n s else s) s3

def execTimebaseTick (t : Fin 8) (conv : List (BitVec 11 × BitVec 20)) (cnt tMeas : BitVec 32) (pulses : List (BitVec 8))
    (s : State) : Host.Outcome State Fault Refusal :=
  .next (live (fun s => tbTick t conv cnt.toNat tMeas.toNat ((pulses.map BitVec.toNat).filter s.fabricLine) s) s)

/-- A write of TUu_CFG: ABORT, ARM, FORCE, and the other fields while idle (R285, R286). -/
def tuCfgWrite (u : Nat) (v : Word) (s : State) : State :=
  let same := fieldOf (TU_CFG_DEC u) v == s.g (TU_CFG_DEC u) && fieldOf (TU_CFG_TB u) v == s.g (TU_CFG_TB u)
    && fieldOf (TU_CFG_CHANS u) v == s.g (TU_CFG_CHANS u)
  let s1 := if tuArmed s u then (if same then s else s.pb (TU_STAT_CFG_ERR u) true)
    else ((s.p (TU_CFG_DEC u) (fieldOf (TU_CFG_DEC u) v)).p (TU_CFG_TB u) (fieldOf (TU_CFG_TB u) v)).p (TU_CFG_CHANS u) (fieldOf (TU_CFG_CHANS u) v)
  let s2 := if fieldOf (TU_CFG_ABORT u) v = 1 then
      tuClearBuf u (modTu u (fun _ => {}) (((s1.p (TU_STAT_STATE u) 0).p (TU_STAT_COUNT u) 0).pb (TU_STAT_PREFILL u) false))
    else s1
  let s3 := if fieldOf (TU_CFG_ARM u) v = 1 then
      tuClearBuf u (modTu u (fun _ => {}) (((s2.p (TU_STAT_STATE u) 1).p (TU_STAT_COUNT u) 0).pb (TU_STAT_PREFILL u) (tuPre s2 u == 0)))
    else s2
  let s4 := if fieldOf (TU_CFG_FORCE u) v = 1 ∧ tuState s3 u = 1 then modTu u (fun t => { t with force := true }) s3 else s3
  ceSync s4

def execTraceArm (u : Fin 4) (v : Word) (s : State) : Host.Outcome State Fault Refusal :=
  .next (hostAt (TU_CFG u) (tuCfgWrite u v) s)

def execTraceForce (u : Fin 4) (v : Word) (s : State) : Host.Outcome State Fault Refusal :=
  .next (hostAt (TU_CFG u) (tuCfgWrite u v) s)

def execTraceAbort (u : Fin 4) (v : Word) (s : State) : Host.Outcome State Fault Refusal :=
  .next (hostAt (TU_CFG u) (tuCfgWrite u v) s)

/-- Fill the window: word C x j + c holds sample j of channel c. -/
def tuFill (u : Nat) : List Int → Nat → State → State
  | [], _, s => s
  | x :: r, i, s => tuFill u r (i + 1) (s.setReg (TU_BUF u i) (BitVec.ofInt 32 x))

def traceDone (u : Nat) (s : State) : State :=
  if tuState s u = 2 ∧ (tuU s u).post = 0 then
    ceSync (tuFill u (tuU s u).samples.reverse.flatten 0 (s.p (TU_STAT_STATE u) 3))
  else s

def execTraceDone (u : Fin 4) (s : State) : Host.Outcome State Fault Refusal := .next (live (traceDone u) s)

/-! ## Coefficients, nodes, wide words (R277, R282, R283) -/

/-- A coefficient write, staged while STAGE is 1. -/
def coefWrite (c : Nat) (v : Word) (s : State) : State :=
  if s.on CE_CTRL_STAGE then
    let u := ceU s
    if 64 ≤ u.staged.length then s.pb CE_STAT_WR_IGN true
    else (setCe { u with staged := u.staged ++ [(c, v.toNat % 2 ^ 20)] } s).p CE_STAT_STAGED (u.staged.length + 1)
  else s.p (CE_COEF_COEF c) v.toNat

def execCoefWrite (c : Fin 4096) (v : Word) (s : State) : Host.Outcome State Fault Refusal :=
  .next (hostAt (CE_COEF c) (coefWrite c v) s)

/-- A write of CE_CTRL: clearing STAGE leaves the held writes awaiting application. -/
def ceCtrlWrite (v : Word) (s : State) : State :=
  let st := fieldOf CE_CTRL_STAGE v
  let s1 := s.p CE_CTRL_STAGE st
  if st = 0 ∧ s.on CE_CTRL_STAGE ∧ (ceU s).staged ≠ [] then
    (setCe { ceU s1 with due := (ceU s1).staged.length } s1).pb CE_STAT_STAGE_PEND true
  else s1

/-- The writes held as STAGE was cleared apply together; those held since stay (R282). -/
def stagedApply (s : State) : State :=
  if s.on CE_STAT_STAGE_PEND then
    let u := ceU s
    let s1 := (u.staged.take u.due).foldl (fun s c => s.p (CE_COEF_COEF c.1) c.2) s
    let rest := u.staged.drop u.due
    ((setCe { ceU s1 with staged := rest, due := 0 } s1).p CE_STAT_STAGED rest.length).pb CE_STAT_STAGE_PEND false
  else s

def execStagedCoefApply (s : State) : Host.Outcome State Fault Refusal := .next (live stagedApply s)

/-- A host node write; N0 ignores it, and so does a node that an enabled loop writes. -/
def nodeWrite (i : Nat) (v : Word) (s : State) : State :=
  if i = 0 then s
  else if (enabledLoops s).any (fun n => lpWrites s n i) then s.pb CE_STAT_WR_IGN true
  else s.p (CE_NODE_NODE i) v.toNat

def execNodeWrite (i : Fin 1024) (v : Word) (s : State) : Host.Outcome State Fault Refusal :=
  .next (hostAt (CE_NODE i) (nodeWrite i v) s)

/-- The low half of a wide word is held until its high half comes. -/
def lowHalf (off : Nat) (v : Word) (s : State) : State :=
  setCe { ceU s with loHalf := bankPut 0 off (v.toNat + 1) (ceU s).loHalf } s

/-- A write of either half of a program word, which an enabled loop's word ignores (R280). -/
def progGuard (w : Nat) (write : State → State) (s : State) : State :=
  let users := (enabledLoops s).filter fun n => (lpWords s n).contains w
  if users.isEmpty then write s else users.foldl (fun s n => s.pb (LP_STAT_CFG_ERR n) true) s

/-- A write of either half of a state word, which a word in use by an enabled loop ignores (R277). -/
def stateGuard (k : Nat) (write : State → State) (s : State) : State :=
  if (enabledLoops s).any (fun n => lpUsesState s n k) then s.pb CE_STAT_WR_IGN true else write s

/-- A commit of both halves takes the held low half. -/
def lowTaken (off : Nat) (s : State) : State := setCe { ceU s with loHalf := bankPut 0 off 0 (ceU s).loHalf } s

/-- The low half held for an offset, or what the register holds. -/
def heldLow (s : State) (off : Nat) : Word :=
  match bankGet 0 (ceU s).loHalf off with
  | 0 => s.reg off
  | n + 1 => BitVec.ofNat 32 n

def progWrite (w : Nat) (v : Word) (s : State) : State :=
  progGuard w (fun s => lowTaken (CE_PROG_LO w) ((s.setReg (CE_PROG_LO w) (heldLow s (CE_PROG_LO w))).setReg (CE_PROG_HI w) v)) s

def stateWrite (k : Nat) (v : Word) (s : State) : State :=
  stateGuard k (fun s => lowTaken (CE_STATE_LO k)
    (putState k (sext 48 (v.toNat % 65536 * 2 ^ 32 + (heldLow s (CE_STATE_LO k)).toNat)) s)) s

def progLowWrite (w : Nat) (v : Word) (s : State) : State := progGuard w (lowHalf (CE_PROG_LO w) v) s
def stateLowWrite (k : Nat) (v : Word) (s : State) : State := stateGuard k (lowHalf (CE_STATE_LO k) v) s

/-- The high word's offset of program word `w` or state word `w`. -/
def wideHi (prog : Bool) (w : Nat) : Nat := if prog then CE_PROG_HI w else CE_STATE_HI (w % 1024)

def wideWrite (prog : Bool) (w : Nat) (v : Word) (s : State) : State :=
  if prog then progWrite w v s else stateWrite (w % 1024) v s

def execWideWordWrite (prog : Bool) (w : Fin 4096) (v : Word) (s : State) : Host.Outcome State Fault Refusal :=
  .next (hostAt (wideHi prog w) (wideWrite prog w v) s)

/-- A write of TBt_CFG or TBt_PERIOD: ignored while an enabled loop or armed trace unit uses the timebase (R274). -/
def tbWrite (t off : Nat) (v : Word) (s : State) : State :=
  if tbUsed s t then s.pb CE_STAT_CFG_ERR true else s.plainWrite off v

/-- A write of MCn_PWM: ignored while an enabled loop runs on a timebase derived from the channel (R274). -/
def mcPwmWrite (n : Nat) (v : Word) (s : State) : State :=
  if (enabledLoops s).any fun l => let t := s.g (LP_CFG_TB l); s.on (TB_CFG_SRC t) && s.g (TB_CFG_MC t) == n then
    s.pb (MC_STAT_CFG_ERR n) true
  else mcHeldWrite n (MC_PWM n) v s

/-- A write of TUu_TRIG, TUu_LEVEL, TUu_SRC or TUu_PRE. -/
def tuRegWrite (u off : Nat) (v : Word) (s : State) : State :=
  if tuArmed s u then s.pb (TU_STAT_CFG_ERR u) true else s.plainWrite off v

/-! ## Memory errors (R288) -/

/-- Whether an enabled loop uses word `w` of a memory: 0 program, 1 coefficient, 2 node, 3 state. -/
def lpUses (s : State) (mem w n : Nat) : Bool :=
  match mem with
  | 0 => (lpWords s n).contains w
  | 1 => (lpCode s n).any fun i => decide (i.c ≤ w ∧ w < i.c + ceCoefs i)
  | 2 => lpWrites s n w || (lpCode s n).any fun i => (ceReads i).contains w
  | _ => lpUsesState s n w

/-- An error in an engine memory word. -/
def ceEcc (mem w : Nat) (corr : Bool) (s : State) : State :=
  if corr then
    record { sev := 0, cls := 0x14, inst := 0, code := (Config.errCode 1).toNat, cell := w, level := 0 } (s.pb CE_STAT_ECC_CORR true)
  else ((enabledLoops s).filter (lpUses s mem w)).foldl (fun s n =>
    contained 0x14 n 1 0xFFFF ((lpDisable n s).pb (LP_STAT_ECC n) true)) s

def execCeEccError (mem : Fin 4) (w : Fin 4096) (corr : Bool) (s : State) : Host.Outcome State Fault Refusal :=
  .next (live (ceEcc mem w corr) s)

end Sys2Proof.Machine
end

