-- ==== Sys2Proof/Machine/Hv.lean ====
section
/-!
DEFINITION. Interlocks, HV channels with their shrouds, and heaters (spec/13_hv_fuser.md R289-R307).
-/

namespace Sys2Proof.Machine

open Reg

/-! ## Interlocks (R289-R292) -/

/-- ILKk opens: recorded, the outputs of R290 forced, and a hard stop begun where the engine runs. -/
def ilkOpens (k : Nat) (s : State) : State :=
  if ilkOpen s k then s
  else
    let s1 := (s.p ILK_STAT_CLOSED (s.g ILK_STAT_CLOSED - 2 ^ k)).p ILK_STAT_OPENED (Nat.lor (s.g ILK_STAT_OPENED) (2 ^ k))
    let s2 := (s1.setReg ILK_TIME_LO (BitVec.ofNat 32 s.time.ns)).setReg ILK_TIME_HI (BitVec.ofNat 32 s.time.sec)
    let s3 := overN 8 (fun h s => if bitsOf (s.g ILK_HEAT_MASK) (4 * h + k) 1 = 1 then gateLow h s else s) s2
    let s4 := if s3.running then hardStop Cause.interlock s3
      else if s3.psq.stopInForce then s3
      else hvAllOff (forceOutputs s3)
    corrected 0x18 k 1 0xFFFF (s4.event (.interlock k true))

def execInterlockOpen (k : Fin 4) (s : State) : Host.Outcome State Fault Refusal := .next (live (ilkOpens k) s)

/-- ILKk closes, which releases nothing by itself (R292): what an ENGINE_START released already, but for an interlock that
stayed open, is then no longer forced (DEDUCED, assumption log 88). -/
def ilkCloses (k : Nat) (s : State) : State :=
  if ilkOpen s k then
    let s1 := (s.p ILK_STAT_CLOSED (s.g ILK_STAT_CLOSED + 2 ^ k)).event (.interlock k false)
    if s1.running then releaseOutputs s1 else s1
  else s

def execInterlockClose (k : Fin 4) (s : State) : Host.Outcome State Fault Refusal := .next (live (ilkCloses k) s)

/-! ## HV channels (R293-R301) -/

/-- The guard is satisfied and HOLD is 0 (R295, R300). -/
def hvPermit (s : State) (j : Nat) : Bool :=
  !s.on (HV_CTRL_HOLD j) && (!s.on (HV_GUARD_EN j) || ((hvU s j).guardIn && !(hvU s j).guardOut))

/-- An enabled channel that is OFF or HELD enters ON once everything permits it: no output forced (R290), no confirmation
pending (R299). -/
def hvTry (j : Nat) (s : State) : State :=
  if s.on (HV_CTRL_ENABLE j) ∧ (hvState s j = Hvs.off ∨ hvState s j = Hvs.held) ∧ hvPermit s j
      ∧ !s.on (HV_STAT_DSC_PEND j) ∧ s.running ∧ !outForced s then
    (hvGoto Hvs.on j s).pb (HV_STAT_REGULATING j) (s.g (HV_BAND_TOL j) == 0)
  else s

/-- The checks of an ENABLE (R294, R297 and HVj_PWM). -/
def hvEnableOk (s : State) (j : Nat) : Bool :=
  s.running && !s.psq.stopInForce && hvInputsOk s j
    && decide (s.g (HV_CAP_CAP j) ≠ 0 ∧ s.g (HV_SHROUD_CEIL j) ≠ 0 ∧ s.g (HV_SHROUD_CEIL j) ≤ s.rig.hvCeil
      ∧ 20 ≤ s.g (HV_PWM_FREQ j) ∧ s.g (HV_PWM_FREQ j) ≤ 400)

/-- HVj_CTRL.CLEAR (R298). -/
def hvClear (j : Nat) (s : State) : State :=
  if hvState s j ≠ Hvs.cleated then s
  else if s.on (HV_STAT_DSC_PEND j) || anyOpen s then s.pb (HV_STAT_CFG_ERR j) true
  else ((s.p (HV_STAT_STATE j) Hvs.off).p (HV_STAT_CAUSE j) 0).pb (HV_CTRL_ENABLE j) false

/-- MODE, writable only while OFF. -/
def hvMode (j : Nat) (v : Word) (s : State) : State :=
  let m := fieldOf (HV_CTRL_MODE j) v
  if hvState s j = Hvs.off then s.p (HV_CTRL_MODE j) m
  else if m = s.g (HV_CTRL_MODE j) then s
  else s.pb (HV_STAT_CFG_ERR j) true

/-- HOLD: an ON channel is HELD while it is set. -/
def hvHold (j : Nat) (v : Word) (s : State) : State :=
  let s1 := s.p (HV_CTRL_HOLD j) (fieldOf (HV_CTRL_HOLD j) v)
  if s1.on (HV_CTRL_HOLD j) ∧ hvState s1 j = Hvs.on then hvGoto Hvs.held j s1 else hvTry j s1

/-- A write of HVj_CTRL. -/
def hvCtrlWrite (j : Nat) (v : Word) (s : State) : State :=
  let s1 := hvHold j v (hvMode j v s)
  if fieldOf (HV_CTRL_CLEAR j) v = 1 ∧ hvState s j = Hvs.cleated then hvClear j s1
  else
    let en := fieldOf (HV_CTRL_ENABLE j) v == 1
    if en ∧ !s1.on (HV_CTRL_ENABLE j) then
      if hvEnableOk s1 j then hvTry j (s1.pb (HV_CTRL_ENABLE j) true) else s1.pb (HV_STAT_CFG_ERR j) true
    else if !en ∧ s1.on (HV_CTRL_ENABLE j) then hvOff j s1
    else s1

/-- A write of HVj_GUARD: a guard no longer in force holds no channel (R295). -/
def hvGuardWrite (j : Nat) (v : Word) (s : State) : State := hvTry j (s.plainWrite (HV_GUARD j) v)

def execHvEnable (j : Fin 32) (v : Word) (s : State) : Host.Outcome State Fault Refusal :=
  .next (hostAt (HV_CTRL j) (hvCtrlWrite j v) s)

def execHvDisable (j : Fin 32) (v : Word) (s : State) : Host.Outcome State Fault Refusal :=
  .next (hostAt (HV_CTRL j) (hvCtrlWrite j v) s)

def execHvHold (j : Fin 32) (v : Word) (s : State) : Host.Outcome State Fault Refusal :=
  .next (hostAt (HV_CTRL j) (hvCtrlWrite j v) s)

def execHvClear (j : Fin 32) (v : Word) (s : State) : Host.Outcome State Fault Refusal :=
  .next (hostAt (HV_CTRL j) (hvCtrlWrite j v) s)

/-- A value in 2^-19 units lies within `t` plus or minus `tol`. -/
def inWindow (x t tol : Nat) : Bool := decide ((t - tol) * 524288 ≤ x ∧ x ≤ (t + tol) * 524288)

/-- The duty applied in a period, as a fraction: the drive port's value scaled by the compliance factor (R293). -/
def hvDuty (s : State) (j : Nat) : Nat × Nat × Bool :=
  let d := (clampI 0 262144 (portVal s (0x620 + j))).toNat
  let y := if s.on (HV_CTRL_MODE j) then (hvU s j).vx else (hvU s j).ix
  let c := s.g (HV_LIMITS_COMPL j) * 524288
  if c ≠ 0 ∧ c < y then (d * c, y * 262144, true) else (d, 262144, false)

/-- Regulation judged at a PWM period (R301). -/
def hvRegulate (j : Nat) (s : State) : State :=
  if s.g (HV_BAND_TOL j) = 0 then s.pb (HV_STAT_REGULATING j) true
  else
    let x := if s.on (HV_CTRL_MODE j) then (hvU s j).ix else (hvU s j).vx
    let ok := inWindow x (s.g (HV_BAND_TARGET j)) (s.g (HV_BAND_TOL j))
    let s1 := modHv j (fun u => { u with inBand := if ok then u.inBand + 1 else 0, outBand := if ok then 0 else u.outBand + 1 }) s
    if 64 ≤ (hvU s1 j).inBand then s1.pb (HV_STAT_REGULATING j) true
    else if 64 ≤ (hvU s1 j).outBand then s1.pb (HV_STAT_REGULATING j) false
    else s1

def hvPeriod (j : Nat) (s : State) : State :=
  if hvState s j ≠ Hvs.on then s
  else
    let (num, den, low) := hvDuty s j
    let s1 := if low then s.pb (HV_STAT_COMPLIANCE j) true else s
    hvRegulate j ((modHv j (fun u => { u with duty := (num, den) }) s1).drive 0x16 j 1 (.hvDrive j num den))

def execHvPwmPeriod (j : Fin 32) (s : State) : Host.Outcome State Fault Refusal := .next (live (hvPeriod j) s)

/-- A channel is CLEATED (R296, R299). -/
def hvCleat (cause j : Nat) (s : State) : State :=
  let s1 := (hvGoto Hvs.cleated j s).p (HV_STAT_CAUSE j) cause
  if hvState s j = Hvs.cleated then s1 else s1.inc (HV_STAT_TRIPS j)

/-- E_rel after a result (R296), in 2^-38 fJ. -/
def hvRelease (s : State) (j vx ix : Nat) : Hv :=
  let u := hvU s j
  let iload := s.g (HV_LIMITS_ILOAD j) * 524288
  let dt := match u.lastAt with | some t => s.clock - t | none => 0
  let quiet := if ix ≤ iload then some (u.quietAt.getD s.clock) else none
  let e := if hvState s j = Hvs.on then u.erel + vx * (ix - iload) * dt else 0
  let done := match quiet with
    | some t => decide (max 1 (s.g (HV_SHROUD_QUIET j)) * 1000000 ≤ s.clock - t)
    | none => false
  { u with vx := vx, ix := ix, lastAt := some s.clock, quietAt := quiet, erel := if done then 0 else e }

/-- The energy figure S in 2^-38 fJ. -/
def hvEnergy (s : State) (j : Nat) : Nat :=
  500 * s.g (HV_CAP_CAP j) * (hvU s j).vx * (hvU s j).vx + (hvU s j).erel

/-- 10 uJ in 2^-38 fJ. -/
def tenMicro : Nat := 10000000000 * 2 ^ 38

/-- A new feedback result: V, I, S, the shroud's trip (R294, R296), and the entry into ON of a channel that an output
forced at its ENABLE kept OFF. -/
def hvFeedback (j : Nat) (v i : Nat) (s : State) : State :=
  let vx := (max 0 (sext 20 v)).toNat * s.g (HV_SCALE_VFS j)
  let ix := (max 0 (sext 20 i)).toNat * s.g (HV_SCALE_IFS j)
  let u := hvRelease s j vx ix
  let unsafe_ := s.g (HV_SAFE_VOLTS j) * 524288 ≤ vx
  let s1 := modHv j (fun _ => { u with unsafeAt := if unsafe_ then s.clock else u.unsafeAt }) s
  let e := hvEnergy s1 j
  let e10 := min 65535 (roundDiv e tenMicro).toNat
  let s2 := ((s1.p (HV_MEAS_V j) (min 65535 ((vx + 262144) / 524288))).p (HV_MEAS_I j) (min 65535 ((ix + 262144) / 524288))).p (HV_ENERGY_S j) e10
  let s3 := s2.p (HV_ENERGY_PEAK j) (max e10 (s2.g (HV_ENERGY_PEAK j)))
  if hvState s3 j = Hvs.on ∧ s3.g (HV_SHROUD_CEIL j) * tenMicro < e then
    contained 0x16 j 1 0xFFFF (hvCleat 1 j s3)
  else hvTry j s3

def execHvFeedbackResult (j : Fin 32) (v i : BitVec 20) (s : State) : Host.Outcome State Fault Refusal :=
  .next (live (hvFeedback j v.toNat i.toNat) s)

/-- V lies below HVj_SAFE.VOLTS, and every result of the last 1 ms, all since the confirmation started, found it so. -/
def hvSafe (s : State) (j : Nat) : Bool :=
  let u := hvU s j
  decide (u.vx < s.g (HV_SAFE_VOLTS j) * 524288 ∧ max u.dscAt u.unsafeAt + 1000000 ≤ s.clock)

/-- A confirmation succeeds (R299). -/
def hvConfirmed (j : Nat) (s : State) : State :=
  if s.on (HV_STAT_DSC_PEND j) ∧ hvSafe s j then hvTry j (s.pb (HV_STAT_DSC_PEND j) false) else s

def execDischargeConfirmed (j : Fin 32) (s : State) : Host.Outcome State Fault Refusal := .next (live (hvConfirmed j) s)

/-- A confirmation fails, once: CLEATED with cause DISCHARGE and a REGION_FATAL error in MOT. -/
def hvDischargeFail (j : Nat) (s : State) : State :=
  if s.on (HV_STAT_DSC_PEND j) ∧ !(hvU s j).failed then
    raise { sev := Sev.regionFatal, cls := 0x16, inst := j, code := 2 }
      (modHv j (fun u => { u with failed := true }) (hvCleat 2 j s))
  else s

def execDischargeTimeout (j : Fin 32) (s : State) : Host.Outcome State Fault Refusal := .next (live (hvDischargeFail j) s)

/-- A write of HVj_BAND: with TOL 0 a channel that is ON is regulating at once (R301). -/
def hvBandWrite (j : Nat) (v : Word) (s : State) : State :=
  let s1 := s.plainWrite (HV_BAND j) v
  if hvState s1 j = Hvs.on ∧ s1.g (HV_BAND_TOL j) = 0 then s1.pb (HV_STAT_REGULATING j) true else s1

/-- A guard sample (R300). -/
def hvGuard (j code : Nat) (s : State) : State :=
  if !s.on (HV_GUARD_EN j) then s
  else if s.g (HV_GUARD_LO j) ≤ code ∧ code ≤ s.g (HV_GUARD_HI j) then
    hvTry j (modHv j (fun u => { u with guardIn := true, inside := u.inside + 1, guardOut := u.guardOut && decide (u.inside + 1 < 100) }) s)
  else
    let s1 := modHv j (fun u => { u with guardIn := false, inside := 0 }) s
    if hvState s j = Hvs.on then
      let s2 := modHv j (fun u => { u with guardOut := true }) ((hvGoto Hvs.held j s1).pb (HV_STAT_GUARD j) true)
      corrected 0x16 j 3 0xFFFF s2
    else s1

def execHvGuardSample (j : Fin 32) (code : BitVec 12) (s : State) : Host.Outcome State Fault Refusal :=
  .next (live (hvGuard j code.toNat) s)

/-! ## Heaters (R303-R307) -/

/-- The zero-cross input is lost: LOSS, gates low, recorded (R303). -/
def zcLose (s : State) : State :=
  let s1 := { s with mot.zcGood := 0 }
  if s1.on HT_ZC_LOSS then s1 else corrected 0x17 0 3 0xFFFF (gatesLow (s1.pb HT_ZC_LOSS true))

/-- A ZC rising edge: the period measured, judged against 1/65 to 1/45 s; gating resumes after 8 valid periods. -/
def zcEdge (s : State) : State :=
  let s1 := { s with mot.zcAt := some s.clock }
  match s.mot.zcAt with
  | none => s1
  | some t =>
    let p := s.clock - t
    let s2 := s1.p HT_ZC_PERIOD (min 32767 ((p + 500) / 1000))
    if 1000000000 ≤ 65 * p ∧ 45 * p ≤ 1000000000 then
      let s3 := { s2 with mot.zcGood := s2.mot.zcGood + 1 }
      if 8 ≤ s3.mot.zcGood then s3.pb HT_ZC_LOSS false else s3
    else zcLose s2

def execZcEdge (s : State) : Host.Outcome State Fault Refusal := .next (live zcEdge s)

/-- No edge for 50 ms. -/
def execZcLossTimeout (s : State) : Host.Outcome State Fault Refusal :=
  .next (live (fun s => zcLose { s with mot.zcAt := none }) s)

/-- An open interlock is named for the heater in ILK_HEAT. -/
def htLocked (s : State) (h : Nat) : Bool :=
  (List.range 4).any fun k => bitsOf (s.g ILK_HEAT_MASK) (4 * h + k) 1 == 1 && ilkOpen s k

/-- A heater may fire (R307); one named in ILK_HEAT stays forced while a CHIP_RESET waits (R427). -/
def htOk (s : State) (h : Nat) : Bool :=
  s.on (HT_CTRL_ENABLE h) && !s.on (HT_STAT_CLEATED h) && !s.on HT_ZC_LOSS && !(htU s h).broken && !s.on (HT_STAT_OVER h)
    && !htLocked s h && !s.psq.chipFatal && !s.on THM_TJ_TRIP && !(s.rig.resetWait && htNamed s h)

/-- The gate fires for this half-cycle. -/
def htFire (h mode : Nat) (delay : Option (Fin 65536 × Nat)) (s : State) : State :=
  (modHt h (fun u => { u with gate := true }) (s.pb (HT_STAT_FIRING h) true)).drive 0x17 h 0
    (.fire h mode delay (s.g (HT_CTRL_GATE_US h)) (s.g (HT_CTRL_PHASE h) % 3) (s.g HT_ZC_DELAY))

/-- A half-cycle without firing. -/
def htRest (h : Nat) (s : State) : State := gateLow h (s.pb (HT_STAT_FIRING h) false)

/-- 2 pi in 2^-32. -/
def twoPi : Int := 26986075409

/-- The sine of an angle between -pi and pi, both in 2^-32, by its series. -/
def sine (y : Int) : Int :=
  let sq := y * y / 4294967296
  y * ([6, 20, 42, 72, 110, 156, 210, 272, 342, 420].foldr (fun k t => 4294967296 - sq * t / (k * 4294967296)) 4294967296)
    / 4294967296

/-- The duty of a firing at the share `x` of pi, in 2^-16: 1 - alpha/pi + sin(2 alpha)/(2 pi), in 2^-32 (R304). -/
def dutyAt (x : Nat) : Int :=
  4294967296 - 65536 * (x : Int) - sine (twoPi * (2 * (x : Int) - 65536) / 131072) * 4294967296 / twoPi

/-- The least share of pi whose duty is at most `d` (Q2.18), sought by halves in `n` bits above `x`. -/
def angleFor (d : Int) : Nat → Nat → Nat
  | 0, x => x
  | n + 1, x => angleFor d n (if dutyAt (x + 2 ^ n - 1) ≤ d * 16384 then x else x + 2 ^ n)

/-- One entry of the 256-entry table of R304 in Q2.18, rounded up. -/
def angleStep : Int := 1029

/-- The firing angle for a duty, as a share of pi in 2^-16: the solution of R304's equation to within one entry of its
table. Which entry a duty takes, and how one is rounded, the rule does not give (assumption log 88). -/
def firingAngle (d : Nat) : Fin 65536 :=
  let lo := if 262144 ≤ d + angleStep then 0 else angleFor (d + angleStep) 16 0
  let hi := if d ≤ angleStep then 65535 else angleFor (d - angleStep) 16 0
  Fin.ofNat 65536 (max lo (min hi (Config.firingAngle d).val))

/-- A half-cycle of heater `h`, positive or negative (R304). -/
def htHalf (h : Nat) (positive : Bool) (s : State) : State :=
  let d := (clampI 0 262144 (portVal s (0x640 + h))).toNat
  let u := htU s h
  match s.g (HT_CTRL_MODE h) with
  | 1 =>
    let acc := u.acc + d
    let net : Int := if positive then u.net + 1 else u.net - 1
    if htOk s h ∧ 262144 ≤ acc ∧ net.natAbs ≤ 1 then
      htFire h 1 none (modHt h (fun u => { u with acc := acc - 262144, net := net }) s)
    else htRest h (modHt h (fun u => { u with acc := acc }) s)
  | 2 => if htOk s h ∧ d ≠ 0 then htFire h 2 (some (firingAngle d, s.g HT_ZC_PERIOD)) s else htRest h s
  | _ => htRest h s

def execHeaterHalfCycle (h : Fin 8) (positive : Bool) (s : State) : Host.Outcome State Fault Refusal :=
  .next (live (htHalf h positive) s)

/-- Whether a code is at or beyond OT_CODE in the hotter direction, and whether it lies HYST back on the cooler side. -/
def htHot (s : State) (h code : Nat) : Bool :=
  if s.on (HT_TH_POL h) then decide (s.g (HT_OT_OT_CODE h) ≤ code) else decide (code ≤ s.g (HT_OT_OT_CODE h))
def htCool (s : State) (h code : Nat) : Bool :=
  if s.on (HT_TH_POL h) then decide (code + s.g (HT_OT_HYST h) ≤ s.g (HT_OT_OT_CODE h))
  else decide (s.g (HT_OT_OT_CODE h) + s.g (HT_OT_HYST h) ≤ code)

/-- A thermistor sample (R305). -/
def htSample (h code : Nat) (s : State) : State :=
  let broken := decide (code < s.g (HT_TH_VMIN h)) || decide (s.g (HT_TH_VMAX h) < code)
  let tol := s.g (HT_BAND_TOL h)
  let tgt := s.g (HT_BAND_TARGET h)
  let inB := !broken && decide (tgt ≤ code + tol ∧ code ≤ tgt + tol)
  let was := (htU s h).broken
  let s1 := modHt h (fun u => { u with broken := broken, inBand := if inB then u.inBand + 1 else 0, outBand := if inB then 0 else u.outBand + 1 })
    (s.p (HT_STAT_CODE h) code)
  let s2 := if broken || htHot s1 h code then s1.pb (HT_STAT_OVER h) true
    else if htCool s1 h code then s1.pb (HT_STAT_OVER h) false else s1
  let s3 := if 64 ≤ (htU s2 h).inBand then s2.pb (HT_STAT_IN_BAND h) true
    else if 64 ≤ (htU s2 h).outBand then s2.pb (HT_STAT_IN_BAND h) false else s2
  let s4 := if htOk s3 h then s3 else gateLow h s3
  if broken ∧ !was then corrected 0x17 h 2 0xFFFF (s4.pb (HT_STAT_BROKEN h) true) else s4

def execHeaterSample (h : Fin 8) (code : BitVec 12) (s : State) : Host.Outcome State Fault Refusal :=
  .next (live (htSample h code.toNat) s)

/-- The comparator on HTh_OTS takes a level: a trip cleats the heater (R306). -/
def htTrip (h : Nat) (trips : Bool) (s : State) : State :=
  let s1 := modHt h (fun u => { u with trips := trips }) s
  if trips ∧ s1.on (HT_OTC_ENABLE h) ∧ !s1.on (HT_STAT_CLEATED h) then
    contained 0x17 h 1 0xFFFF (gateLow h (s1.pb (HT_STAT_CLEATED h) true))
  else s1

def execHeaterOtsTrip (h : Fin 8) (trips : Bool) (s : State) : Host.Outcome State Fault Refusal :=
  .next (live (htTrip h trips) s)

/-- A write of HTh_CTRL: CLEAR only while the comparator no longer trips, ENABLE only with the comparator on. -/
def htCtrlWrite (h : Nat) (v : Word) (s : State) : State :=
  let put := fun (f : Fld) (s : State) => s.p f (fieldOf f v)
  let s1 := put (HT_CTRL_GATE_US h) (put (HT_CTRL_PHASE h) (put (HT_CTRL_MODE h) (put (HT_CTRL_FURL_OFF h) s)))
  let s2 := if fieldOf (HT_CTRL_CLEAR h) v = 1 then
      (if (htU s1 h).trips ∧ s1.on (HT_OTC_ENABLE h) then s1.pb (HT_STAT_CFG_ERR h) true else s1.pb (HT_STAT_CLEATED h) false)
    else s1
  if fieldOf (HT_CTRL_ENABLE h) v = 1 then
    (if s2.on (HT_OTC_ENABLE h) then s2.pb (HT_CTRL_ENABLE h) true else s2.pb (HT_STAT_CFG_ERR h) true)
  else gateLow h (s2.pb (HT_CTRL_ENABLE h) false)

def execHeaterEnable (h : Fin 8) (v : Word) (s : State) : Host.Outcome State Fault Refusal :=
  .next (hostAt (HT_CTRL h) (htCtrlWrite h v) s)

def execHeaterClear (h : Fin 8) (v : Word) (s : State) : Host.Outcome State Fault Refusal :=
  .next (hostAt (HT_CTRL h) (htCtrlWrite h v) s)

/-- R27: every heater in use is in band, every HV channel in use is regulating. -/
def heatReady (s : State) : Bool := (List.range 8).all fun h => !s.on (HT_CTRL_ENABLE h) || s.on (HT_STAT_IN_BAND h)
def hvReady (s : State) : Bool := (List.range 32).all fun j => !s.on (HV_CTRL_ENABLE j) || s.on (HV_STAT_REGULATING j)

end Sys2Proof.Machine
end

