-- ==== Sys2Proof/Machine/Otp.lean ====
section
/-!
DEFINITION. Counted settings in OTP (spec/02_rigging.md R43-R45): slots, current values, the registers that show the
selected setting, programming and its abort.
-/

namespace Sys2Proof.Machine

open Reg

/-- The slots used of setting `i`. -/
def otpSlots (s : State) (i : Nat) : List OtpSlot := bankGet [] s.rig.otp i

/-- The latest valid slot's words. -/
def otpValue (s : State) (i : Nat) : Option (List Nat) :=
  ((otpSlots s i).reverse.find? (·.valid)).map (·.words)

/-- The first word of a setting, 0 while unwritten. -/
def otpWord (s : State) (i : Nat) : Nat := match otpValue s i with | some (w :: _) => w | _ => 0

/-- CSET_STAT and CSET_VALn show the selected setting. -/
def csetSync (s : State) : State :=
  let i := s.g CSET_SEL_INDEX
  let sl := otpSlots s i
  let s1 := ((s.pb CSET_STAT_WRITTEN (otpValue s i).isSome).p CSET_STAT_TORN (sl.filter fun x => !x.valid).length).p
    CSET_STAT_REMAIN (8 - sl.length)
  overN 12 (fun n s => s.setReg (CSET_VAL n) (BitVec.ofNat 32 (((otpValue s i).getD []).getD n 0))) s1

/-- A slot is used: whole, or torn. -/
def otpUse (i : Nat) (words : List Nat) (valid : Bool) (s : State) : State :=
  { s with rig := { s.rig with otp := bankPut [] i (otpSlots s i ++ [⟨words, valid⟩]) s.rig.otp, prog := none } }

/-- Programming under way is aborted, and its slot is torn (R43). -/
def csetTear (s : State) : State :=
  match s.rig.prog with
  | some (i, w) => csetSync ((otpUse i w false s).pb CSET_STAT_BUSY false)
  | none => s

/-- A copy to the NVM rigging area is cut off: what the area then holds is open (R40 gives only a whole copy). -/
def storeTear (s : State) : State :=
  match s.rig.storing with
  | some b =>
    let (x, s1) := s.fresh
    { s1 with rig := { s1.rig with nvmImage := leBytes b.length x, storing := none } }
  | none => s

/-- CHIP_RIGSTAT goes back to the state it held before OPEN, and the staging contents are discarded (R40, R41). -/
def loadRestore (s : State) : State :=
  let s1 := (s.p CHIP_RIGSTAT_STATE s.rig.prior.1).p CHIP_RIGSTAT_CAUSE s.rig.prior.2
  { s1 with rig := { s1.rig with load := 0, stage := [], image := [], storing := none } }

/-- A sag aborts NVM and OTP programming under way (R43, R325): the setting's result is ABORTED; after a copy to the
rigging area that is cut off, CHIP_RIGSTAT goes back to what it held before OPEN (DESIGN CHOICE, assumption log 33). -/
def abortProgramming (s : State) : State :=
  let s1 := match s.rig.prog with
    | some _ => (csetTear s).p CSET_STAT_RESULT 4
    | none => s
  match s1.rig.storing with
  | some _ => loadRestore (storeTear s1)
  | none => s1

/-- The width of a setting (R44's table). -/
def csetWidth (i : Nat) : Nat :=
  if i < 4 then 384 else match i with | 4 => 4 | 5 => 2 | 6 => 1 | 8 => 16 | 9 => 8 | _ => 32

/-- The staged value's words. -/
def csetStaged (s : State) (i : Nat) : List Nat :=
  (List.range (if i < 4 then 12 else 1)).map fun n => (s.reg (CSET_DATA n)).toNat

/-- The value rule of a setting. -/
def csetValueOk (s : State) (i : Nat) : Bool :=
  let v := (csetStaged s i).headD 0
  if i < 4 then bitsOf (otpWord s 4) i 1 == 0
  else decide (v < 2 ^ csetWidth i) &&
    (match i with
     | 4 => Nat.land v (otpWord s 4) == otpWord s 4
     | 6 => otpWord s 6 == 0
     | 9 => decide (-16 ≤ sext 8 v ∧ sext 8 v ≤ 16)
     | _ => true)

/-- CSET_CMD.CONFIRM (R44, R45). -/
def csetConfirm (v : Word) (s : State) : State :=
  if fieldOf CSET_CMD_CONFIRM v ≠ 0x5A17 then s
  else if s.on CSET_STAT_BUSY then s.pb CSET_STAT_IGNORED true
  else
    let i := s.g CSET_SEL_INDEX
    let tj := s.gi THM_TJ_TJ
    if !csetValueOk s i then s.p CSET_STAT_RESULT 1
    else if 8 ≤ (otpSlots s i).length then s.p CSET_STAT_RESULT 2
    else if tj < 160 ∨ 1360 < tj then s.p CSET_STAT_RESULT 3
    else { (s.p CSET_STAT_RESULT 0).pb CSET_STAT_BUSY true with
           rig := { s.rig with prog := some (i, csetStaged s i) } }

def execCsetConfirm (v : Word) (s : State) : Host.Outcome State Fault Refusal := .next (hostAt CSET_CMD (csetConfirm v) s)

/-- Programming ends after 2 ms. -/
def csetDone (s : State) : State :=
  match s.rig.prog with
  | some (i, w) => csetSync ((otpUse i w true s).pb CSET_STAT_BUSY false)
  | none => s

def execCsetProgramDone (s : State) : Host.Outcome State Fault Refusal := .next (live csetDone s)

end Sys2Proof.Machine
end

