-- ==== Sys2Proof/Machine/Reset.lean ====
section
/-!
DEFINITION. A chip reset as one operation (spec/21_register_index.md R427, spec/22_electrical_package.md R433): what
every island but STAY becomes, and what the stay island, NVM and OTP keep; and a CHIP_RESET that waits for the power to
be off.
-/

namespace Sys2Proof.Machine

open Reg

namespace Pw
/-- Power states (R308). -/
def off : Nat := 0
def stayOnly : Nat := 1
def upSeq : Nat := 2
def on : Nat := 3
def downSeq : Nat := 4
def cleated : Nat := 5
end Pw

def pwState (s : State) : Nat := s.g PWR_STAT_STATE
def setPwr (u : PwrU) (s : State) : State := { s with pwr := u }

/-- The registers of the stay island (R424). -/
def stayReg (off : Nat) : Bool := decide (0x100000 ≤ off ∧ off < 0x100C00)

/-- What a station is after a reset: the emitter states and wear of its NVM copy, nothing boosted (R165, R172). -/
def stnReset (u : Stn) : Stn :=
  let em := u.nvmEmit.map fun (m : Emit) => { m with boost := 0 }
  { active := { emit := em }, newest := { emit := em }, wear := u.nvmWear,
    serial := u.nvmSerial, health := u.nvmHealth, nvmHealth := u.nvmHealth,
    nvmSerial := u.nvmSerial, nvmEmit := u.nvmEmit, nvmWear := u.nvmWear, nvmWritten := u.nvmWritten }

/-- STNn_EMk and STNn_WUSEDk after a reset: from NVM. -/
def stnNvmRegs (n : Nat) (s : State) : State :=
  let u := s.stnU n
  overN 40 (fun e s =>
    let m := u.newest.emit.getD e {}
    ((s.p (STN_EM_HANDLING n e) m.hand).p (STN_EM_STATE n e) m.st).p (STN_WUSED_SECONDS n e)
      (min 0xFFFFFFFF (bankGet 0 u.wear e / 1000000000000000))) s

/-- The islands but STAY right after a reset, with an OTP slot in programming torn (R43); `cause` and `count` are those
of CHIP_RSTCAUSE. NVM keeps its image, fatal records, trip records, saved training and emitter tables. Fatal records that wait for the
write window go on waiting (R418), and the reset count goes to NVM at once where Tj allows; a station's or the DRAM's waiting write is lost. -/
def resetCore (cause count : Nat) (s : State) : State :=
  let rig : RigU := { otp := s.rig.otp, nvmImage := s.rig.nvmImage, hvCeil := otpWord s 8, serial := otpWord s 7,
                      heard := s.out.length }
  let s1 : State :=
    { part := s.part, rev := s.rev, inReset := s.inReset, pinLow := s.pinLow, clock := s.clock, free := s.free,
      out := s.out, pending := s.pending, regs := s.regs.filter fun e => stayReg e.1,
      epoch := s.epochNvm + 1, epochNvm := if nvmWindow s then s.epochNvm + 1 else s.epochNvm, nvmRing := s.nvmRing, nvmNext := s.nvmNext, dram := { saved := s.dram.saved },
      stn := (List.range 8).foldl (fun b n => bankPut {} n (stnReset (s.stnU n)) b) [], rig := rig, pwr := s.pwr,
      thm := { ring := s.thm.ring, tripSeq := s.thm.tripSeq }, err := { nvmWait := s.err.nvmWait } }
  let s2 := overN 8 stnNvmRegs ((s1.p CHIP_RSTCAUSE_CAUSE cause).p CHIP_RSTCAUSE_COUNT count)
  let trim := sext 8 (otpWord s 9)
  let s3 := (s2.pz THM_TRIP_TRIM trim).pz THM_TRIP_LEVEL (480 + trim)
  csetSync (s3.pb SPAR_STAT_READBACK_LOCKED (otpWord s 6 != 0))

/-- A chip reset with CHIP_RSTCAUSE.CAUSE 0 (R433), or by CHIP_RESET (R427). -/
def chipReset (byCommand : Bool) (s : State) : State :=
  let n := s.g CHIP_RSTCAUSE_COUNT
  resetCore byCommand.toNat (if byCommand then min 65535 (n + 1) else n) (storeTear (csetTear s))

/-- A CHIP_RESET accepted earlier resets the chip once the power state is OFF or CLEATED, and releases the reset. -/
def settleReset (s : State) : State :=
  if s.rig.resetWait && (pwState s == Pw.off || pwState s == Pw.cleated) then chipReset true s else s

/-- A happening in the stay island, which may be the end of the shutdown that a CHIP_RESET waits for. -/
def stayStep (f : State → State) (s : State) : State := settleReset (stayLive f s)

end Sys2Proof.Machine
end

