-- ==== Sys2Proof/Machine/Power.lean ====
section
/-!
DEFINITION. The power sequencer, rail supervision, sag and the stay save (spec/14_power_supervision.md R308-R331).
-/

namespace Sys2Proof.Machine

open Reg

/-! ## Rail slots (R313-R316, R322) -/

/-- A bit of a word of slot bits. -/
def setBit (w i : Nat) (b : Bool) : Nat := bitsPut w i 1 b.toNat

/-- PWR_LEDGERi and IN_LEDGER follow the ledger. -/
def ledgerSync (s : State) : State :=
  let l := s.pwr.ledger
  let s1 := overN 8 (fun i s => s.setReg (PWR_LEDGER i)
    (BitVec.ofNat 32 (sumN ((List.range 4).map fun k => l.getD (4 * i + k) 0xFF * 2 ^ (8 * k))))) s
  overN 32 (fun r s => s.pb (PWR_SLOT_STAT_IN_LEDGER r) (l.contains r)) s1

def setLedger (l : List Nat) (s : State) : State := ledgerSync (setPwr { s.pwr with ledger := l } s)

def slotQual (r : Nat) (b : Bool) (s : State) : State :=
  (s.pb (PWR_SLOT_STAT_QUALIFIED r) b).p PWR_GOOD_QUAL (setBit (s.g PWR_GOOD_QUAL) r b)

/-- RSr_EN takes a level: going inactive ends its qualification; a slot with no PG ball is good while active. -/
def setEnable (r : Nat) (b : Bool) (s : State) : State :=
  let s1 := (s.pb (PWR_SLOT_STAT_ACTIVE r) b).p PWR_EN_ACTIVE (setBit (s.g PWR_EN_ACTIVE) r b)
  let s2 := if s.mapped 0x50 r 1 then s1 else s1.pb (PWR_SLOT_STAT_GOOD r) b
  let s3 := setPwr { s2.pwr with glitch := s2.pwr.glitch.filter (· != r), ovHigh := s2.pwr.ovHigh.filter (· != r) } s2
  if b then s3 else slotQual r false s3

/-- The five counters of a slot, in the order of R322. -/
def railCnt (r k : Nat) : Fld :=
  match k with
  | 0 => PWR_SLOT_CNT0_RISE_FAIL r
  | 1 => PWR_SLOT_CNT0_CHATTER r
  | 2 => PWR_SLOT_CNT1_DROOP r
  | 3 => PWR_SLOT_CNT1_OVERV r
  | _ => PWR_SLOT_CNT2_RETRY r

/-- The counters go to NVM, or wait for the write window (R322, R342). -/
def railNvm (s : State) : State :=
  if nvmWindow s then
    let b := (List.range 32).foldl (fun b r => (List.range 5).foldl (fun b k => bankPut 0 (8 * r + k) (s.g (railCnt r k)) b) b) s.pwr.nvmCnt
    setPwr { s.pwr with nvmCnt := b, nvmWait := false, clrWait := [] } s
  else setPwr { s.pwr with nvmWait := true } s

/-- The five counters of slot `r` are zero in NVM. -/
def railNvmClr (r : Nat) (s : State) : State :=
  setPwr { s.pwr with nvmCnt := (List.range 5).foldl (fun b k => bankPut 0 (8 * r + k) 0 b) s.pwr.nvmCnt } s

/-- What waited for the write window goes to NVM: every counter, or the zeros of the slots cleared (R322, R342). -/
def railDeferred (s : State) : State :=
  let s1 := s.pwr.clrWait.foldl (fun s r => railNvmClr r s) s
  let s2 := setPwr { s1.pwr with clrWait := [] } s1
  if s2.pwr.nvmWait then railNvm s2 else s2

/-! ## The input (R308, R324) -/

/-- The voltages as they are now, and whether the input has held above 11.7 V for 10 ms: the board's, so free values. -/
def vinSample (s : State) : State :=
  let (x, s1) := s.fresh
  let (y, s2) := s1.fresh
  let (z, s3) := s2.fresh
  ((s3.p PWR_VIN_VIN (x % 65536)).p PWR_VIN_VSTAY (y % 65536)).pb PWR_STAT_VIN_LOW (decide (x % 65536 < 1170) || z % 2 == 1)

/-! ## Shutdown (R317-R320) -/

/-- Furling leaves STANDBY once the power is off (R310). -/
def reachOff (s : State) : State :=
  let s1 := s.p PWR_STAT_STATE Pw.off
  if s1.engine = Eng.furled then s1.setEngine Eng.standby else s1

/-- A shutdown ends (R308, R319, R320). -/
def endDown (s : State) : State :=
  let s1 := setPwr { s.pwr with wait := .none, down := none, downAt := some s.clock, endDue := false } s
  match s.pwr.down with
  | some (.fail _ slot) =>
    if s.g PWR_STAT_ATTEMPT < s.pwr.n then
      railNvm (setPwr { s1.pwr with lastSlot := slot } ((s1.p PWR_STAT_STATE Pw.upSeq).pb PWR_STAT_RETRY_WAIT true))
    else
      let (x, s2) := s1.fresh
      raise { sev := Sev.regionFatal, cls := 0x50, inst := slot.getD (x % 256), code := 2 } (railNvm (s2.p PWR_STAT_STATE Pw.cleated))
  | _ => railNvm (reachOff s1)

/-- A step failure of this very cycle, with no attempt left: an off request may still come, and precedes it (R312). -/
def lastFailNow (s : State) : Bool :=
  match s.pwr.down with
  | some (.fail _ _) => s.pwr.failAt == some s.clock && decide (s.pwr.n ≤ s.g PWR_STAT_ATTEMPT)
  | _ => false

/-- The ledger is shut down: DOWN_SEQ ends, in the next cycle where this one may still bring an off request. -/
def downEnds (s : State) : State :=
  if lastFailNow s then setPwr { s.pwr with wait := .none, endDue := true } s else endDown s

/-- Shut down the last slot of the ledger and wait for its good to drop, or pass on at once where it is low already or
TOFF is 0; the fuel bounds the slots. -/
def shutStep : Nat → State → State
  | 0, s => downEnds s
  | k + 1, s =>
    match s.pwr.ledger.getLast? with
    | none => downEnds s
    | some r =>
      let s1 := setEnable r false s
      if s1.on (PWR_SLOT_STAT_GOOD r) ∧ s1.g (PWR_SLOT_CFG_TOFF r) ≠ 0 then setPwr { s1.pwr with wait := .drop r } s1
      else shutStep k (setLedger s1.pwr.ledger.dropLast s1)

/-- DOWN_SEQ begins; where UP_SEQ ends with it, the counters are written (R322). -/
def beginDown (d : Down) (s0 : State) : State :=
  let s := if pwState s0 = Pw.upSeq then railNvm s0 else s0
  shutStep 32 (setPwr { s.pwr with wait := .none, down := if s.pwr.down = some .off then some .off else some d } ((s.p PWR_STAT_STATE Pw.downSeq).pb PWR_STAT_RETRY_WAIT false))

/-- A step failure (R318): attributed to its slot, else to the last slot of the ledger, else to none. -/
def stepFail (cause : Nat) (slot : Option Nat) (s : State) : State :=
  let at_ := match slot with | some r => some r | none => s.pwr.ledger.getLast?
  let s1 := s.p PWR_STAT_FAIL_CAUSE cause
  let s2 := match at_ with
    | some r =>
      let s2 := (s1.p PWR_STAT_FAIL_SLOT r).pb PWR_STAT_NO_SLOT false
      if cause = 1 then s2.inc (railCnt r 0) else s2
    | none => s1.pb PWR_STAT_NO_SLOT true
  beginDown (.fail cause at_) (setPwr { s2.pwr with failAt := some s2.clock } s2)

/-- An off request's effect on the power state (R310, R311). -/
def offRequest (s : State) : State :=
  let s1 := s.pb PWR_STAT_ON_HELD false
  let st := pwState s1
  if st = Pw.upSeq then
    if s1.on PWR_STAT_RETRY_WAIT then railNvm (reachOff (s1.pb PWR_STAT_RETRY_WAIT false))
    else match s1.pwr.wait with
      | .drop _ => setPwr { s1.pwr with down := some .off } s1
      | .good r => beginDown .off (setPwr { s1.pwr with offWait := some (s1.clock, r) } s1)
      | _ => beginDown .off s1
  else if st = Pw.on then beginDown .off s1
  else if st = Pw.downSeq then setPwr { s1.pwr with down := some .off } s1
  else s1

/-! ## Power-up (R309) -/

/-- UP_SEQ begins with attempt 0. -/
def startUp (s : State) : State :=
  let s1 := ((s.p PWR_STAT_STATE Pw.upSeq).p PWR_STAT_ATTEMPT 0).p PWR_STAT_STEP 0
  let s2 := (s1.pb PWR_STAT_ON_HELD false).pb PWR_STAT_RETRY_WAIT false
  setPwr { s2.pwr with pc := 0, wait := .none, n := 0, delayMs := 0, checkIn := true, down := none, lastSlot := none } s2

/-- TOFF_MIN has passed since the last DOWN_SEQ ended. -/
def toffPassed (s : State) : Bool :=
  match s.pwr.downAt with
  | none => true
  | some t => decide (t + s.g PWR_CFG_TOFF_MIN * 1000000 ≤ s.clock)

/-- An on request, made by an accepted ENGINE_START (R309): it starts UP_SEQ at once where the input, as it is now, and
TOFF_MIN allow, and is held otherwise. -/
def onRequest (s : State) : State :=
  let st := pwState s
  if st = Pw.off then
    let s1 := vinSample s
    if !s1.on PWR_STAT_VIN_LOW ∧ toffPassed s1 then startUp s1 else s1.pb PWR_STAT_ON_HELD true
  else if st = Pw.downSeq then s.pb PWR_STAT_ON_HELD true
  else s

/-- A held request starts once the power state is OFF, the input is good and TOFF_MIN has passed. -/
def onRequestStart (s : State) : State :=
  if s.on PWR_STAT_ON_HELD ∧ pwState s = Pw.off ∧ toffPassed s then startUp (s.pb PWR_STAT_VIN_LOW false) else s

def execOnRequestStart (s : State) : Host.Outcome State Fault Refusal := .next (stayStep onRequestStart s)

/-! ## The program (R321) -/

/-- The program word about to execute, where the program may execute one. -/
def seqWord (s : State) (op : Nat) : Option Nat :=
  let w := s.g (PWR_PROG_WORD s.pwr.pc)
  if pwState s = Pw.upSeq ∧ !s.on PWR_STAT_RETRY_WAIT ∧ s.pwr.wait = .none ∧ s.pwr.pc < 256 ∧ bitsOf w 28 4 = op then some w
  else none

/-- Execute the word at the program step: STEP shows it, and the program goes on to `next`. -/
def seqAt (next : Nat) (s : State) : State := setPwr { s.pwr with pc := next } (s.p PWR_STAT_STEP s.pwr.pc)

def seqEnd (s : State) : State :=
  match seqWord s 0 with
  | some _ => railNvm ((seqAt s.pwr.pc s).p PWR_STAT_STATE Pw.on)
  | none => s

def execSeqEnd (s : State) : Host.Outcome State Fault Refusal := .next (stayStep seqEnd s)

def seqEnable (s : State) : State :=
  match seqWord s 1 with
  | some w =>
    let s1 := seqAt (s.pwr.pc + 1) s
    let r := w % 32
    if s.pwr.ledger.contains r then s1 else setLedger (s1.pwr.ledger ++ [r]) (setEnable r true s1)
  | none => s

def execSeqEnable (s : State) : Host.Outcome State Fault Refusal := .next (stayStep seqEnable s)

def seqDisable (s : State) : State :=
  match seqWord s 2 with
  | some w =>
    let r := w % 32
    let s1 := setEnable r false (setLedger (s.pwr.ledger.filter (· != r)) (seqAt (s.pwr.pc + 1) s))
    if s1.on (PWR_SLOT_STAT_GOOD r) ∧ s1.g (PWR_SLOT_CFG_TOFF r) ≠ 0 then setPwr { s1.pwr with wait := .drop r } s1 else s1
  | none => s

def execSeqDisable (s : State) : Host.Outcome State Fault Refusal := .next (stayStep seqDisable s)

def seqWait (s : State) : State :=
  match seqWord s 3 with
  | some _ => let s1 := seqAt (s.pwr.pc + 1) s; setPwr { s1.pwr with wait := .time } s1
  | none => s

def execSeqWait (s : State) : Host.Outcome State Fault Refusal := .next (stayStep seqWait s)

def seqWaitEnd (s : State) : State := if s.pwr.wait = .time then setPwr { s.pwr with wait := .none } s else s

def execSeqWaitEnd (s : State) : Host.Outcome State Fault Refusal := .next (stayStep seqWaitEnd s)

def seqWaitgood (s : State) : State :=
  match seqWord s 4 with
  | some w =>
    let s1 := seqAt (s.pwr.pc + 1) s
    let r := bitsOf w 20 5
    if s1.on (PWR_SLOT_STAT_QUALIFIED r) then s1 else setPwr { s1.pwr with wait := .good r } s1
  | none => s

def execSeqWaitgood (s : State) : Host.Outcome State Fault Refusal := .next (stayStep seqWaitgood s)

/-- The timeout of a WAITGOOD; one that an off request of the same cycle ended is counted all the same (R312). -/
def waitgoodTimeout (s : State) : State :=
  match s.pwr.wait, s.pwr.offWait with
  | .good r, _ => stepFail 1 (some r) s
  | _, some (t, r) => if t = s.clock then setPwr { s.pwr with offWait := none } (s.inc (railCnt r 0)) else s
  | _, none => s

def execWaitgoodTimeout (s : State) : Host.Outcome State Fault Refusal := .next (stayStep waitgoodTimeout s)

/-- CHECK takes one sample of its AIN input. -/
def seqCheck (code : Nat) (s : State) : State :=
  match seqWord s 5 with
  | some w =>
    let s1 := seqAt (s.pwr.pc + 1) s
    setPwr { s1.pwr with checkIn := decide (bitsOf w 0 12 ≤ code ∧ code ≤ bitsOf w 12 12) } s1
  | none => s

def execSeqCheck (code : BitVec 12) (s : State) : Host.Outcome State Fault Refusal := .next (stayStep (seqCheck code.toNat) s)

/-- The level of PWS input `k`: that of FEED_REQ or the spoil flag where one feeds it; 0 where nothing does (R34). `ext` says
what the fabric drives, and whether a pulse that came to the input still stands, for the manual gives a pulse no width
(DESIGN CHOICE, assumption log 85). -/
def pwsLevel (k : Nat) (ext : Bool) (s : State) : Bool :=
  (s.feeds 0x5800 k).any fun r =>
    if r.src = 0x0200 ∧ r.ev = 0 then s.on PSQ_STAT_FEED_REQ
    else if r.src = 0x0200 ∧ r.ev = 2 then s.psq.spoilOut
    else if r.src = 0x1900 then ext && s.fabricRuns
    else ext && s.pwr.pulsed.contains k

/-- A JUMPIF condition; `pws` stands for the standing pulse and the fabric's level at the input that COND 4 names. -/
def seqCond (s : State) (cond arg : Nat) (pws : Bool) : Bool :=
  match cond with
  | 0 => !s.pwr.checkIn
  | 1 => s.pwr.checkIn
  | 2 => s.on (PWR_SLOT_STAT_QUALIFIED (arg % 32))
  | 3 => !s.on (PWR_SLOT_STAT_QUALIFIED (arg % 32))
  | 4 => pwsLevel arg pws s
  | 5 => decide (arg ≤ s.g PWR_STAT_ATTEMPT)
  | _ => false

/-- A pulse at a PWS input that is read low is over. -/
def pwsRead (k : Nat) (ext : Bool) (s : State) : State :=
  if pwsLevel k ext s then s else setPwr { s.pwr with pulsed := s.pwr.pulsed.filter (· != k) } s

def seqJumpif (pws : Bool) (s0 : State) : State :=
  match seqWord s0 6 with
  | some w =>
    let s := if bitsOf w 24 3 = 4 then pwsRead (bitsOf w 16 8) pws s0 else s0
    if seqCond s (bitsOf w 24 3) (bitsOf w 16 8) pws then
      if bitsOf w 27 1 = 1 then stepFail 2 none (seqAt (s.pwr.pc + 1) s) else seqAt (w % 256) s
    else seqAt (s.pwr.pc + 1) s
  | none => s0

def execSeqJumpif (pws : Bool) (s : State) : Host.Outcome State Fault Refusal := .next (stayStep (seqJumpif pws) s)

def seqJump (s : State) : State :=
  match seqWord s 7 with
  | some w => seqAt (w % 256) s
  | none => s

def execSeqJump (s : State) : Host.Outcome State Fault Refusal := .next (stayStep seqJump s)

def seqRetry (s : State) : State :=
  match seqWord s 8 with
  | some w =>
    let s1 := seqAt (s.pwr.pc + 1) s
    setPwr { s1.pwr with n := bitsOf w 24 3, delayMs := bitsOf w 0 20 } s1
  | none => s

def execSeqRetry (s : State) : Host.Outcome State Fault Refusal := .next (stayStep seqRetry s)

def seqMark (s : State) : State :=
  match seqWord s 9 with
  | some w => (((seqAt (s.pwr.pc + 1) s).p PWR_MARK_VALUE w).p PWR_MARK_NS (s.time.ns / 64)).event .pwsMark
  | none => s

def execSeqMark (s : State) : Host.Outcome State Fault Refusal := .next (stayStep seqMark s)

/-! ## Supervision (R314, R315) -/

def railQualified (r : Nat) (s : State) : State :=
  if s.on (PWR_SLOT_STAT_ACTIVE r) ∧ s.on (PWR_SLOT_STAT_GOOD r) ∧ !s.on (PWR_SLOT_STAT_QUALIFIED r) then
    let s1 := slotQual r true s
    if s1.pwr.wait = .good r then setPwr { s1.pwr with wait := .none } s1 else s1
  else s

def execRailQualified (r : Fin 32) (s : State) : Host.Outcome State Fault Refusal := .next (stayStep (railQualified r) s)

def railRise (r : Nat) (s : State) : State :=
  setPwr { s.pwr with glitch := s.pwr.glitch.filter (· != r) } (s.pb (PWR_SLOT_STAT_GOOD r) true)

/-- RSr_PG takes a level. -/
def pgLevel (r : Nat) (high : Bool) (s : State) : State :=
  setPwr { s.pwr with pg := (r, high) :: s.pwr.pg.filter fun p => p.1 != r } s

/-- RSr_PG turns good, at the level PG_POL, where PINMAP places it (R313). -/
def pgRise (r : Nat) (s : State) : State :=
  if s.mapped 0x50 r 1 then railRise r (pgLevel r (s.on (PWR_SLOT_CFG_PG_POL r)) s) else s

def execRailGoodRise (r : Fin 32) (s : State) : Host.Outcome State Fault Refusal := .next (stayStep (pgRise r) s)

/-- Good drops: inside the qualify window one CHATTER is counted and the window restarts; once qualified the glitch
filter starts. -/
def railDrop (r : Nat) (s : State) : State :=
  if !s.on (PWR_SLOT_STAT_GOOD r) then s
  else
    let s1 := s.pb (PWR_SLOT_STAT_GOOD r) false
    if !s1.on (PWR_SLOT_STAT_ACTIVE r) then s1
    else if s1.on (PWR_SLOT_STAT_QUALIFIED r) then setPwr { s1.pwr with glitch := s1.pwr.glitch ++ [r] } s1
    else s1.inc (railCnt r 1)

/-- RSr_PG turns to the level opposite to PG_POL. -/
def pgDrop (r : Nat) (s : State) : State :=
  if s.mapped 0x50 r 1 then railDrop r (pgLevel r (!s.on (PWR_SLOT_CFG_PG_POL r)) s) else s

def execRailGoodDrop (r : Fin 32) (s : State) : Host.Outcome State Fault Refusal := .next (stayStep (pgDrop r) s)

/-- An image may change PG_POL and where RSr_PG lies: a level shown before is read against the polarity it sets (R313). -/
def pgSync (r : Nat) (s : State) : State :=
  if !s.mapped 0x50 r 1 then s.pb (PWR_SLOT_STAT_GOOD r) (s.on (PWR_SLOT_STAT_ACTIVE r))
  else match s.pwr.pg.find? fun p => p.1 == r with
    | some p =>
      if p.2 = s.on (PWR_SLOT_CFG_PG_POL r) then (if s.on (PWR_SLOT_STAT_GOOD r) then s else railRise r s) else railDrop r s
    | none => s

/-- A DROOP (cause 3, FAULT code 1) or OVERV (cause 4, code 3) of a rail, by power state (R315). -/
def railFault (cause code k r : Nat) (s : State) : State :=
  let s1 := s.inc (railCnt r k)
  let st := pwState s1
  if !s1.pwr.ledger.contains r then s1
  else if st = Pw.upSeq then stepFail cause (some r) s1
  else if st = Pw.on then
    let s2 := ((s1.p PWR_STAT_FAIL_CAUSE cause).p PWR_STAT_FAIL_SLOT r).pb PWR_STAT_NO_SLOT false
    beginDown .off (raise { sev := Sev.regionFatal, cls := 0x50, inst := r, code := code } s2)
  else s1

def railDroop (r : Nat) (s : State) : State :=
  if s.pwr.glitch.contains r ∧ s.on (PWR_SLOT_STAT_ACTIVE r) then
    railFault 3 1 2 r (slotQual r false (setPwr { s.pwr with glitch := s.pwr.glitch.filter (· != r) } s))
  else s

def execRailDroop (r : Fin 32) (s : State) : Host.Outcome State Fault Refusal := .next (stayStep (railDroop r) s)

/-- A sample of a slot's overvoltage input; two in a row above OV_CODE are an OVERV. -/
def railOv (r code : Nat) (s : State) : State :=
  if !s.on (PWR_SLOT_CFG_OV_EN r) ∨ !s.on (PWR_SLOT_STAT_ACTIVE r) then s
  else
    let was := s.pwr.ovHigh.contains r
    let s1 := setPwr { s.pwr with ovHigh := s.pwr.ovHigh.filter (· != r) } s
    if code ≤ s.g (PWR_SLOT_CFG_OV_CODE r) then s1
    else if was then railFault 4 3 3 r s1
    else setPwr { s1.pwr with ovHigh := s1.pwr.ovHigh ++ [r] } s1

def execRailOvSample (r : Fin 32) (code : BitVec 12) (s : State) : Host.Outcome State Fault Refusal :=
  .next (stayStep (railOv r code.toNat) s)

/-- A shutdown step's good drops or its TOFF elapses. -/
def slotDone (s : State) : State :=
  match s.pwr.wait with
  | .drop _ =>
    let s1 := setPwr { s.pwr with wait := .none } s
    if pwState s = Pw.downSeq then shutStep 32 (setLedger s1.pwr.ledger.dropLast s1)
    else if s1.pwr.down = some .off then beginDown .off s1
    else s1
  | _ => s

def execShutdownSlotDone (s : State) : Host.Outcome State Fault Refusal := .next (stayStep slotDone s)

/-- The retry delay ends: the next attempt (R319). -/
def retryEnd (s : State) : State :=
  if !s.on PWR_STAT_RETRY_WAIT then s
  else
    let s1 := (s.p PWR_STAT_ATTEMPT (s.g PWR_STAT_ATTEMPT + 1)).pb PWR_STAT_RETRY_WAIT false
    let s2 := match s.pwr.lastSlot with | some r => s1.inc (railCnt r 4) | none => s1
    let s3 := setPwr { s2.pwr with pc := 0, wait := .none, checkIn := true } (s2.p PWR_STAT_STEP 0)
    let (x, s4) := (railNvm s3).fresh
    corrected 0x50 (s.pwr.lastSlot.getD (x % 256)) 5 0xFFFF s4

def execRetryDelayEnd (s : State) : Host.Outcome State Fault Refusal := .next (stayStep retryEnd s)

/-! ## The stay record (R326, R327) -/

/-- The context entries of the record. -/
def stayCtx (s : State) (c : Nat) : List Byte :=
  let org : Nat := (s.reg (PCTX_ORG_LO c)).toNat + (s.reg (PCTX_ORG_HI c)).toNat * 2 ^ 32
  let d : Int := if (s.ctxU c).hasOrigin then (s.psq.front : Int) - ((org : Nat) : Int) else 0
  leBytes 1 (ctxState s c + s.g (PCTX_STATE_CAUSE c) * 16) ++ leBytes 1 (s.g (PCTX_STATE_STN_MASK c))
    ++ leBytes 1 (s.g (PCTX_STATE_STN_DONE c)) ++ leBytes 1 (s.g (PCTX_STATE_MODE c) + 2 * s.g (PCTX_STATE_AT_DELIV c))
    ++ leBytes 4 (s.reg (PCTX_SHEET c)).toNat ++ leBytes 4 (unsext 32 d)

/-- The station entries of the record. -/
def stayStn (s : State) (n : Nat) : List Byte :=
  leBytes 1 (s.stnU n).active.num ++ leBytes 1 (s.g (STN_STAT_CONTEXT n))
    ++ leBytes 1 (s.g (STN_STAT_OCCUPIED n) + 2 * s.g (STN_HEAD_DARK n)) ++ leBytes 1 0
    ++ leBytes 4 (s.g (STN_BASE_BASE n))

/-- Bytes 0x020 to 0xFFB of the record: what the shadow and the final copy hold. -/
def stayBody (s : State) : List Byte :=
  leBytes 8 s.psq.front ++ leBytes 4 (cmdRate s) ++ leBytes 1 (cmdPasses s) ++ leBytes 1 s.pwr.ledger.length
    ++ List.replicate 18 0 ++ (List.range 32).flatMap (fun i => leBytes 1 (s.pwr.ledger.getD i 0xFF))
    ++ (List.range 8).flatMap (stayStn s)
    ++ leBytes 4 s.psq.nDelivered ++ leBytes 4 s.psq.nSpoiled ++ leBytes 4 s.psq.nJammed ++ leBytes 4 (s.g TIME_DISC_COUNT)
    ++ List.replicate 16 0 ++ (List.range 256).flatMap (stayCtx s) ++ List.replicate 828 0

/-- Tj, as it was at the trip, is outside the NVM write window. -/
def saveTjOut (v : Save) : Bool := decide (sext 16 v.tj < -480 ∨ 1680 < sext 16 v.tj)

/-- The record of a save as it is written: 4,096 bytes with their CRC. -/
def stayRecord (s : State) (v : Save) (seq : Nat) : List Byte :=
  let body := if v.final then v.body else if s.pwr.shadow.isEmpty then List.replicate 4060 0 else s.pwr.shadow
  let b := leBytes 4 0x59415453 ++ leBytes 1 0 ++ leBytes 1 1 ++ leBytes 2 4096 ++ leBytes 4 seq ++ leBytes 1 v.cause
    ++ leBytes 1 (v.final.toNat + 2 * (saveTjOut v).toNat) ++ leBytes 1 v.power ++ leBytes 1 v.engine
    ++ leBytes 8 v.at_.sec ++ leBytes 4 v.at_.ns ++ leBytes 2 v.vstay ++ leBytes 2 v.tj ++ body
  b ++ leBytes 4 (crc32c b).toNat

/-! ### The trip record beside a save (R341) -/

/-- The NVM slot of the record with the lowest SEQ, or an empty one. -/
def tripSlot (s : State) : Nat :=
  let seqOf := fun k => bytesAt (bankGet [] s.thm.ring k) 0 4
  (List.range 8).foldl (fun b k => if seqOf k < seqOf b then k else b) 0

/-- A trip record written to the ring. -/
def tripWrite (r : List Byte) (s : State) : State :=
  let k := tripSlot s
  { s with thm := { s.thm with ring := bankPut [] k r s.thm.ring, tripSeq := s.thm.tripSeq + 1,
                               tripLast := some (s.clock, k, bankGet [] s.thm.ring k), tripHeld := none } }

/-- The trip record waits where a sag's save began in its cycle. -/
def tripPut (r : List Byte) (s : State) : State :=
  if (match s.pwr.save with | some v => v.cause == 1 && v.begun == s.clock | none => false) then
    { s with thm := { s.thm with tripHeld := some r } }
  else tripWrite r s

/-- A sag's save begins in the cycle of a trip: the record is written after it. -/
def tripBehind (s : State) : State :=
  match s.thm.tripLast with
  | some (t, k, old) =>
    if t = s.clock then
      { s with thm := { s.thm with ring := bankPut [] k old s.thm.ring, tripSeq := s.thm.tripSeq - 1, tripLast := none,
                                   tripHeld := some (bankGet [] s.thm.ring k) } }
    else s
  | none => s

/-- The save is over: a record that waited follows, if power remains. -/
def tripFollow (power : Bool) (s : State) : State :=
  match s.thm.tripHeld with
  | some r => if power ∧ !s.pwr.supDown then tripWrite r s else { s with thm := { s.thm with tripHeld := none } }
  | none => s

/-- A save begins. -/
def saveBegin (cause : Nat) (s : State) : State :=
  let v : Save := { begun := s.clock, cause := cause, power := pwState s, engine := s.engine, at_ := s.time, vstay := s.g PWR_VIN_VSTAY, tj := s.g THM_TJ_TJ, body := stayBody s }
  setPwr { s.pwr with save := some v } (s.pb PWR_STAT_SAVING true)

/-- A sag trip (R325), in the order of its list. -/
def sagTrip (vin vstay : Nat) (s : State) : State :=
  if !s.on PWR_STAT_SAG_ARMED then s
  else
    let s1 := ((s.p PWR_VIN_VIN vin).p PWR_VIN_VSTAY vstay).pb PWR_STAT_VIN_LOW true
    let s2 := saveBegin 1 (tripBehind (s1.pb PWR_STAT_SAG_ARMED false))
    let s3 := if s2.running then hardStop Cause.reef s2 else forceOutputs s2
    let (x, s4) := (abortProgramming s3).fresh
    corrected 0x50 (x % 256) 6 0xFFFF s4

def execSagTrip (vin vstay : BitVec 16) (s : State) : Host.Outcome State Fault Refusal :=
  .next (stayStep (sagTrip vin.toNat vstay.toNat) s)

/-- The input has stayed above 11.7 V for 100 ms (R324). -/
def sagRearm (vin : Nat) (s : State) : State :=
  ((s.p PWR_VIN_VIN vin).pb PWR_STAT_VIN_LOW false).pb PWR_STAT_SAG_ARMED true

def execSagRearm (vin : BitVec 16) (s : State) : Host.Outcome State Fault Refusal := .next (stayStep (sagRearm vin.toNat) s)

/-- The shadow is refreshed; while a save runs its copy of the trip stays as it is (R326). -/
def shadowRefresh (s : State) : State :=
  let u := { s.pwr with shadowAt := s.time }
  setPwr (if s.pwr.save.isNone then { u with shadow := stayBody s } else u) s

def execStayShadowRefresh (s : State) : Host.Outcome State Fault Refusal := .next (live shadowRefresh s)

/-- The final copy arrives, or its 20 us pass without it. -/
def stayFinal (arrived : Bool) (s : State) : State :=
  match s.pwr.save with
  | some v => if arrived && !s.dead then setPwr { s.pwr with save := some { v with final := true } } s else s
  | none => s

def execStayFinalCopy (arrived : Bool) (s : State) : Host.Outcome State Fault Refusal := .next (stayStep (stayFinal arrived) s)

/-- PWR_STAY and PWR_STAYSTAT after a slot is written or left invalid. -/
def staySlots (a b : Option (List Byte)) (seq : Nat) (newestB tjOut : Bool) (s : State) : State :=
  let s1 := setPwr { s.pwr with slotA := a, slotB := b, save := none } (s.pb PWR_STAT_SAVING false)
  let s2 := (s1.pb PWR_STAYSTAT_A_VALID a.isSome).pb PWR_STAYSTAT_B_VALID b.isSome
  ((s2.p PWR_STAY_SEQ seq).pb PWR_STAYSTAT_NEWEST_B newestB).pb PWR_STAYSTAT_TJ_OUT tjOut

/-- The save goes to slot A: B holds the newest valid record. -/
def saveToA (s : State) : Bool := s.on PWR_STAYSTAT_B_VALID && s.on PWR_STAYSTAT_NEWEST_B

/-- The save completes: its record written, and after a sag an off request (R327, R328). -/
def staySaveDone (s : State) : State :=
  match s.pwr.save with
  | none => s
  | some v =>
    let seq := (s.g PWR_STAY_SEQ + 1) % 2 ^ 32
    let r := stayRecord s v seq
    let toA := saveToA s
    let s1 := staySlots (if toA then some r else s.pwr.slotA) (if toA then s.pwr.slotB else some r) seq (!toA) (saveTjOut v) s
    let s2 := setPwr { s1.pwr with saves := s1.pwr.saves + 1, lastAborted := false } (s1.inc PWR_SAG_SAVES)
    let s3 := tripFollow true s2
    if v.cause = 1 then offRequest s3 else s3

/-- VSTAY falls below 6.0 V: the slot is left invalid and the other keeps its record. -/
def staySaveAbort (s : State) : State :=
  match s.pwr.save with
  | none => s
  | some _ =>
    let toA := saveToA s
    let s1 := staySlots (if toA then none else s.pwr.slotA) (if toA then s.pwr.slotB else none)
      (s.g PWR_STAY_SEQ) (s.on PWR_STAYSTAT_NEWEST_B) (s.on PWR_STAYSTAT_TJ_OUT) s
    tripFollow false (setPwr { s1.pwr with lastAborted := true } (s1.pb PWR_STAYSTAT_ABORTED true))

/-! ## PWR_CTRL (R310, R320, R322, R330) -/

def pwrRefuse (s : State) : State := s.pb PWR_STAT_REFUSED true

/-- ENGINE_STOP and PWR_CTRL.OFF from WARMUP furl at once (R72, R75, R310). -/
def furlWarmup (cause : Nat) (s : State) : State := furl (clearWaiting Eng.furled cause s)

/-- PWR_CTRL.OFF. -/
def pwrOff (s : State) : State :=
  let e := s.engine
  if e = Eng.warmup then offRequest (furlWarmup Cause.hostAbort s)
  else if e = Eng.standby ∨ e = Eng.furled ∨ e = Eng.fault then offRequest s
  else pwrRefuse s

def pwrUncleat (s : State) : State := if pwState s = Pw.cleated then reachOff s else pwrRefuse s

def pwrSave (s : State) : State :=
  if s.on PWR_STAT_SAVING ∨ !s.on PWR_STAT_SAG_ARMED then pwrRefuse s else saveBegin 2 (vinSample s)

/-- PWR_CTRL.CNT_CLR: the slot's counters zeroed here and in NVM, or once the write window opens (R322, R342). -/
def pwrCntClr (r : Nat) (s : State) : State :=
  let s1 := (List.range 5).foldl (fun s k => s.p (railCnt r k) 0) s
  if nvmWindow s1 then railNvmClr r s1
  else setPwr { s1.pwr with clrWait := r :: s1.pwr.clrWait.filter (· != r) } s1

/-- A write of PWR_CTRL: each command bit written 1, from the highest bit down. -/
def pwrCtrlWrite (v : Word) (s : State) : State :=
  let s1 := if fieldOf PWR_CTRL_CNT_CLR v = 1 then pwrCntClr (fieldOf PWR_CTRL_CNT_SLOT v) s else s
  let s2 := if fieldOf PWR_CTRL_SAVE v = 1 then pwrSave s1 else s1
  let s3 := if fieldOf PWR_CTRL_UNCLEAT v = 1 then pwrUncleat s2 else s2
  if fieldOf PWR_CTRL_OFF v = 1 then pwrOff s3 else s3

def execPwrOff (v : Word) (s : State) : Host.Outcome State Fault Refusal := .next (hostAt PWR_CTRL (pwrCtrlWrite v) s)
def execPwrUncleat (v : Word) (s : State) : Host.Outcome State Fault Refusal := .next (hostAt PWR_CTRL (pwrCtrlWrite v) s)
def execPwrSave (v : Word) (s : State) : Host.Outcome State Fault Refusal := .next (hostAt PWR_CTRL (pwrCtrlWrite v) s)
def execPwrCntClr (v : Word) (s : State) : Host.Outcome State Fault Refusal := .next (hostAt PWR_CTRL (pwrCtrlWrite v) s)

/-! ## Logs and report (R323, R330, R331) -/

/-- LOG 0: stay slots A and B. -/
def stayLog (s : State) : List Byte :=
  s.pwr.slotA.getD (List.replicate 4096 0) ++ s.pwr.slotB.getD (List.replicate 4096 0)

/-- LOG 1: 32 records of rail counters. -/
def railLog (s : State) : List Byte :=
  (List.range 32).flatMap fun r => (List.range 5).flatMap (fun k => leBytes 2 (s.g (railCnt r k))) ++ List.replicate 6 0

/-- CLASS 4 of STATUS_QUERY: its 5 bits hold the number of ledger entries modulo 32 (log 91). -/
def powerReport (s : State) : List Nat :=
  [ pwState s + 8 * s.g PWR_STAT_RETRY_WAIT + 16 * s.g PWR_STAT_ON_HELD + s.pwr.ledger.length % 32 * 2 ^ 8
      + s.g PWR_STAT_ATTEMPT * 2 ^ 16 + s.g PWR_MARK_VALUE * 2 ^ 24,
    s.g PWR_STAT_STEP + s.g PWR_STAT_FAIL_CAUSE * 2 ^ 8 + s.g PWR_STAT_FAIL_SLOT * 2 ^ 16 + s.g PWR_STAT_NO_SLOT * 2 ^ 21,
    s.g PWR_GOOD_QUAL, s.g PWR_EN_ACTIVE, (s.reg PWR_VIN).toNat, s.g PWR_STAY_SEQ,
    s.g PWR_STAT_SAG_ARMED + 2 * s.g PWR_STAYSTAT_A_VALID + 4 * s.g PWR_STAYSTAT_B_VALID + 8 * s.g PWR_STAYSTAT_NEWEST_B
      + 16 * s.pwr.lastAborted.toNat,
    s.pwr.saves, 0, 0, 0, 0 ]

/-- R27: every rail slot in the ledger is qualified. -/
def railsReady (s : State) : Bool := s.pwr.ledger.all fun r => s.on (PWR_SLOT_STAT_QUALIFIED r)

end Sys2Proof.Machine
end

