-- ==== Sys2Proof/Machine/Bringup.lean ====
section
/-!
DEFINITION. Power-on, the reset pin, the failure and recovery of the chip supplies, the decay of VSTAY, and CHIP_RESET
(spec/01_architecture.md R25; spec/14_power_supervision.md R308, R328; spec/21 R427; spec/22 R432, R433).
-/

namespace Sys2Proof.Machine

open Reg

/-! ## The stay island at power-on (R322, R326, R327) -/

/-- SEQ of a stay record. -/
def staySeqOf (r : List Byte) : Nat := bytesAt r 8 4

/-- The newest valid record is in slot B: the higher SEQ modulo 2^32 over half that range. -/
def stayNewestB (a b : Option (List Byte)) : Bool :=
  match a, b with
  | _, none => false
  | none, some _ => true
  | some x, some y => decide (0 < (staySeqOf y + 2 ^ 32 - staySeqOf x) % 2 ^ 32 ∧ (staySeqOf y + 2 ^ 32 - staySeqOf x) % 2 ^ 32 < 2 ^ 31)

/-- PWR_STAY and PWR_STAYSTAT from the slots in NVM. -/
def stayLoad (s : State) : State :=
  let newB := stayNewestB s.pwr.slotA s.pwr.slotB
  let newest := (if newB then s.pwr.slotB else s.pwr.slotA).getD []
  let s1 := (s.pb PWR_STAYSTAT_A_VALID s.pwr.slotA.isSome).pb PWR_STAYSTAT_B_VALID s.pwr.slotB.isSome
  let s2 := (s1.pb PWR_STAYSTAT_NEWEST_B newB).pb PWR_STAYSTAT_TJ_OUT (bitsOf (bytesAt newest 13 1) 1 1 == 1)
  s2.p PWR_STAY_SEQ (staySeqOf newest)

/-- The rail counters from NVM. -/
def railLoad (s : State) : State :=
  overN 32 (fun r s => overN 5 (fun k s => s.p (railCnt r k) (bankGet 0 s.pwr.nvmCnt (8 * r + k))) s) s

/-- The stay island starts on VSTAY. -/
def stayStart (s : State) : State :=
  stayLoad (railLoad { s.resetRegs stayReg with
    pwr := { nvmCnt := s.pwr.nvmCnt, slotA := s.pwr.slotA, slotB := s.pwr.slotB, supDown := s.pwr.supDown } })

/-- The whole chip right after the supplies have come up, the stay island included. -/
def coldStart (s : State) : State := stayStart (resetCore 0 0 (storeTear (csetTear s)))

/-- A cycle of the stay island: with VSTAY decayed, it starts alone once VSTAY exceeds 5.5 V again, which the board decides
(R432), and with the main supplies down its state is STAY_ONLY; a shutdown whose end waited for the cycle's off request ends
(R312). -/
def stayTick (s : State) : State :=
  if s.pwr.lost then
    let (x, s1) := s.fresh
    if x % 2 = 1 then (stayStart s1).p PWR_STAT_STATE Pw.stayOnly else s1
  else if s.pwr.endDue then settleReset (endDown s)
  else s

/-! ## Supplies and the reset pin -/

/-- Every island but STAY goes into reset, where it was not in it. -/
def holdIslands (s : State) : State := { (if s.inReset then s else chipReset false s) with inReset := true }

/-- The outputs of R290 are forced, and every island but STAY goes into reset, where it was not in it. -/
def holdReset (s : State) : State := holdIslands (if s.inReset then s else forceOutputs s)

/-- The chip's main supplies are up and its reset is released: STAY_ONLY ends in OFF. A stay island that has run all
along keeps what it holds; otherwise the whole chip starts afresh. -/
def powerOn (s : State) : State :=
  let s1 := if pwState s = Pw.stayOnly ∧ !s.pwr.lost then s.p PWR_STAT_STATE Pw.off else coldStart s
  { s1 with inReset := false, pinLow := false, pwr := { s1.pwr with supDown := false } }

def execPowerOn (s : State) : Host.Outcome State Fault Refusal := .next (powerOn s)

/-- The chip reset is released once RESET_N is high and the supplies stand, with the stay island running: STAY_ONLY ends
in OFF (R308, R433). -/
def releaseReset (s : State) : State :=
  if s.pinLow ∨ s.pwr.supDown ∨ s.pwr.lost then s
  else { (if pwState s = Pw.stayOnly then s.p PWR_STAT_STATE Pw.off else s) with inReset := false }

/-- The rails of a chip without its main supplies are no longer enabled, and the power state is STAY_ONLY. -/
def stayAlone (s : State) : State :=
  let s1 := setLedger [] (overN 32 (fun r s => setEnable r false s) s)
  let s2 := (s1.p PWR_STAT_STATE Pw.stayOnly).pb PWR_STAT_RETRY_WAIT false
  setPwr { s2.pwr with wait := .none, down := none, endDue := false } (s2.pb PWR_STAT_ON_HELD false)

/-- What a stay save held up comes now that it has ended (R433). -/
def saveEnd (s : State) : State :=
  if s.pwr.save.isSome then s
  else
    let s1 := if s.pwr.failWait then stayAlone (holdIslands (setPwr { s.pwr with failWait := false } s)) else s
    let s2 := if s1.pwr.pinWait then holdIslands (setPwr { s1.pwr with pinWait := false } s1) else s1
    if s.pwr.failWait || s.pwr.pinWait then releaseReset s2 else s2

def execStaySaveDone (s : State) : Host.Outcome State Fault Refusal :=
  .next (stayStep (fun s => saveEnd (staySaveDone s)) s)

def execStaySaveAbort (s : State) : Host.Outcome State Fault Refusal :=
  .next (stayStep (fun s => saveEnd (staySaveAbort s)) s)

/-- RESET_N goes low, or high again; a failed supply goes on holding the reset. A stay save under way runs to completion
before the islands go into reset, with the outputs forced at once. -/
def resetPin (low : Bool) (s : State) : State :=
  if !low then releaseReset { s with pinLow := false }
  else if s.pwr.save.isSome ∧ !s.inReset then
    let s1 := forceOutputs { s with pinLow := true }
    setPwr { s1.pwr with pinWait := true } s1
  else { holdReset s with pinLow := true }

def execResetPin (low : Bool) (s : State) : Host.Outcome State Fault Refusal := .next (resetPin low s)

/-- A monitored supply fails; a stay save under way runs to completion first, with the outputs forced at once. -/
def supplyFail (s : State) : State :=
  if s.pwr.supDown ∨ s.pwr.lost then s
  else
    let s1 := setPwr { s.pwr with supDown := true } s
    if s.pwr.save.isSome ∧ !s.inReset then
      let s2 := forceOutputs s1
      setPwr { s2.pwr with failWait := true } s2
    else stayAlone (holdReset s1)

def execSupplyFail (s : State) : Host.Outcome State Fault Refusal := .next (supplyFail s)

/-- The supplies have been within tolerance for 1 ms: the reset they held is released. -/
def supplyRecover (s : State) : State :=
  if s.pwr.supDown ∧ !s.pwr.lost then
    let s1 := setPwr { s.pwr with supDown := false } s
    if s.pwr.failWait then s1 else releaseReset s1
  else s

def execSupplyRecover (s : State) : Host.Outcome State Fault Refusal := .next (supplyRecover s)

/-- With the main supplies down, VSTAY falls below what the stay island needs: a save under way is aborted, and the island
stops. -/
def vstayDecay (s : State) : State :=
  if s.pwr.supDown ∧ !s.pwr.lost then
    let s1 := (saveEnd (staySaveAbort s)).p PWR_STAT_STATE Pw.off
    setPwr { s1.pwr with lost := true } s1
  else s

def execVstayDecay (s : State) : Host.Outcome State Fault Refusal := .next (vstayDecay s)

/-! ## CHIP_RESET (R427) -/

/-- The engine states in which a CHIP_RESET is accepted. -/
def resetLegal (s : State) : Bool := [Eng.unrigged, Eng.standby, Eng.furled, Eng.fault].contains s.engine

/-- A write of CHIP_RESET. -/
def chipResetWrite (v : Word) (s : State) : State :=
  if fieldOf CHIP_RESET_KEY v ≠ 0xC1EA ∨ fieldOf CHIP_RESET_GO v = 0 then s
  else if resetLegal s then
    let s1 := offRequest (forceOutputs s)
    settleReset { s1 with rig := { s1.rig with resetWait := true } }
  else s.chipErr CHIP_ERR_RESET_REFUSED CHIP_RESET

def execChipReset (v : Word) (s : State) : Host.Outcome State Fault Refusal :=
  .next (hostAt CHIP_RESET (chipResetWrite v) s)

end Sys2Proof.Machine
end

