-- ==== Sys2Proof/Machine/DramOps.lean ====
section
/-!
DEFINITION. Device DRAM as every requester sees it (spec/18_dram.md R384-R387, R390-R395): the address map, reads
that meet uncorrectable bursts, writes with the touch map, and the self-refresh exit that any access starts.
-/

namespace Sys2Proof.Machine

open Reg

def ddrU (s : State) (n : Nat) : Ddr := bankGet {} s.dram.ddr n
def setDdr (s : State) (n : Nat) (d : Ddr) : State := { s with dram.ddr := bankPut {} n d s.dram.ddr }
def modDdr (n : Nat) (f : Ddr → Ddr) (s : State) : State := setDdr s n (f (ddrU s n))

/-- Channels in use. -/
def channels (s : State) : List Nat := (List.range 2).filter fun n => bitsOf (s.g DRAM_CFG_CHANNELS) n 1 == 1

/-! ## Address map (R384, R385) -/

/-- Widths (nG, nB, nRow) of a population. -/
def fieldWidths (x16 : Bool) (density : Nat) : Nat × Nat × Nat :=
  (if x16 then 2 else 3, if density = 8 then 1 else 2, if density = 32 then 17 else 16)

/-- Where a burst lies. -/
structure Place where
  chan : Nat
  sub : Nat
  col : Nat
  rank : Nat
  bg : Nat
  bank : Nat
  row : Nat
  deriving DecidableEq, Repr

/-- Take fields of the given widths from `v` upward. -/
def takeFields : List Nat → Nat → List Nat
  | [], _ => []
  | w :: r, v => v % 2 ^ w :: takeFields r (v / 2 ^ w)

/-- The place of a device address under an order and a population. -/
def placeOf (order : Nat) (nCh nRk : Nat) (w : Nat × Nat × Nat) (a : Nat) : Place :=
  let (nG, nB, nRow) := w
  let v := a / 128
  let chan := v % 2 ^ nCh
  let f := v / 2 ^ nCh
  let mk := fun c k g b r =>
    if order = 1 then
      { chan := chan, sub := a / 64 % 2, col := c, rank := k, bg := Nat.xor g (r % 2 ^ nG), bank := Nat.xor b (r / 2 ^ nG % 2 ^ nB), row := r : Place }
    else { chan := chan, sub := a / 64 % 2, col := c, rank := k, bg := g, bank := b, row := r }
  match order with
  | 0 => match takeFields [6, nG, nB, nRk, nRow] f with
    | [c, g, b, k, r] => mk c k g b r
    | _ => mk 0 0 0 0 0
  | 1 => match takeFields [6, nRk, nG, nB, nRow] f with
    | [c, k, g, b, r] => mk c k g b r
    | _ => mk 0 0 0 0 0
  | 2 => match takeFields [6, nRow, nG, nB, nRk] f with
    | [c, r, g, b, k] => mk c k g b r
    | _ => mk 0 0 0 0 0
  | _ => match takeFields [nRk, 6, nRow, nG, nB] f with
    | [k, c, r, g, b] => mk c k g b r
    | _ => mk 0 0 0 0 0

/-- The place of an address in the population in use; the channel number is the DDR's own where one is in use. -/
def place (s : State) (a : Nat) : Place :=
  let two := s.g DRAM_CFG_CHANNELS == 3
  let p := placeOf (s.g DRAM_CFG_ORDER) (if two then 1 else 0) (if s.on DRAM_CFG_RANKS2 then 1 else 0)
    (fieldWidths (s.on DRAM_CFG_X16) (s.g DRAM_CFG_DENSITY)) a
  if two then p else { p with chan := (channels s).headD 0 }

/-- The bank of a place, as one number within its channel. -/
def Place.bankKey (p : Place) : Nat := ((p.sub * 2 + p.rank) * 8 + p.bg) * 4 + p.bank

/-! ## Touch map (R387) -/

def touched (s : State) (a : Nat) : Bool := s.dram.touch.contains (a / 2 ^ 20)

def touch (a : Nat) (s : State) : State :=
  if touched s a then s
  else
    let s1 := { s with dram.touch := s.dram.touch ++ [a / 2 ^ 20] }
    s1.p DRAM_TOUCH_MIB (s1.dram.touch.length)

/-! ## Self-refresh exit by access (R394, R395) -/

/-- The exit from self-refresh starts: DDRPLL relocks where it was stopped. -/
def startExit (s : State) : State :=
  let s1 := s.p DRAM_SR_STATE 3
  if s1.dram.pllOff then s1.pb (CLK_PLL_STAT_RUN 1) true else s1

/-- A DRAM access abandons an entry under way and starts the exit from self-refresh. -/
def wake (s : State) : State :=
  if s.g DRAM_SR_STATE = 1 then (s.p DRAM_SR_STATE 0).pb DRAM_SR_CANCELLED true
  else if s.g DRAM_SR_STATE = 2 then startExit s
  else s

/-! ## Errors (R391, R392) -/

/-- An uncorrectable burst met: counted, its address kept, recorded as CONTAINED naming the channel. -/
def ueErr (scrub : Bool) (a : Nat) (s : State) : State :=
  let n := (place s a).chan
  let b := a / 64 * 64
  let s1 := s.inc (DDR_ECC_UE n)
  let s2 := s1.p (DDR_ERRADDR_LO_ADDR n) (b % 2 ^ 32)
  let s3 := ((s2.p (DDR_ERRADDR_HI_ADDR n) (b / 2 ^ 32)).pb (DDR_ERRADDR_HI_VALID n) true).pb (DDR_ERRADDR_HI_SCRUB n) scrub
  contained 0x30 n 1 0xFFFF s3

/-- A corrected burst met: counted, queued for its write-back, recorded as CORRECTED; at most one FAULT for corrected
errors per channel per second (R391). -/
def ceErr (a : Nat) (s : State) : State :=
  let n := (place s a).chan
  let quiet := match (ddrU s n).lastFault with | some t => within1s t s.clock | none => false
  let s1 := modDdr n (fun d => { d with writeBack := if d.writeBack.contains (a / 64) then d.writeBack else d.writeBack ++ [a / 64],
                                        lastFault := if quiet then d.lastFault else some s.clock }) (s.inc (DDR_ECC_CE n))
  record { sev := 0, cls := 0x30, inst := n, code := (Config.errCode 0).toNat, level := 0, quiet := quiet } s1

/-! ## Activations (R389) -/

/-- The channel's random source selects the activated row: pending, or dropped while one is (R389). -/
def rowSelect (a : Nat) (s : State) : State :=
  let p := place s a
  let d := ddrU s p.chan
  match bankGet none (d.pend.map fun e => (e.1, some e.2)) p.bankKey with
  | some _ => s.inc (DDR_RH_DROPPED p.chan)
  | none => setDdr s p.chan { d with pend := bankInsert p.bankKey p.row d.pend }

/-- A requester's activation of a row takes the channel's next draw; with none given, it is not selected. -/
def activation (a : Nat) (s : State) : State :=
  let n := (place s a).chan
  match (ddrU s n).draw with
  | [] => s
  | b :: r =>
    let s1 := modDdr n (fun d => { d with draw := r }) s
    if b then rowSelect a s1 else s1

/-- The rows that bursts lie in, each by its first burst: an access activates each once (DESIGN CHOICE, assumption log 91). -/
def rowsOf (s : State) : List (Nat × Nat × Nat) → List Nat → List Nat
  | _, [] => []
  | seen, b :: r =>
    let p := place s (64 * b)
    let k := (p.chan, p.bankKey, p.row)
    if seen.contains k then rowsOf s seen r else b :: rowsOf s (k :: seen) r

/-- The activations of an access to bursts. -/
def activations (bs : List Nat) (s : State) : State :=
  if (List.range 2).all fun n => (ddrU s n).draw.isEmpty then s
  else (rowsOf s [] bs).foldl (fun s b => activation (64 * b) s) s

/-! ## Reads and writes -/

/-- The burst is held uncorrectable. -/
def isUe (s : State) (a : Nat) : Bool := s.dram.ue.contains (a / 64)

/-- The burst holds one wrong symbol. -/
def isCe (s : State) (a : Nat) : Bool := s.dram.weak.contains (a / 64)

/-- A burst is read: an error that it holds is met (R391, R392). -/
def burstMet (scrub : Bool) (s : State) (a : Nat) : State :=
  if isUe s a then ueErr scrub a s else if isCe s a then ceErr a s else s

/-- The bursts that `n` bytes from `a` lie in. -/
def burstsOf (a n : Nat) : List Nat :=
  if n = 0 then [] else (List.range ((a + n - 1) / 64 - a / 64 + 1)).map (a / 64 + ·)

/-- `n` bytes from `a`, `none` where the burst is uncorrectable. -/
def dramBytes (s : State) (a : Nat) : Nat → List (Option Byte)
  | 0 => []
  | n + 1 => (if isUe s a then none else some (memByte s.mem a)) :: dramBytes s (a + 1) n

/-- The first uncorrectable byte address in a range. -/
def firstUe (s : State) (a n : Nat) : Option Nat := ((List.range n).map (a + ·)).find? (isUe s)

/-- A read of `n` bytes from `a` reaches DRAM: a MiB it falls in is touched (R387). -/
def reaches (s : State) (a n : Nat) : Bool :=
  n != 0 && (List.range (n / 2 ^ 20 + 2)).any fun i => decide ((a / 2 ^ 20 + i) * 2 ^ 20 < a + n) && s.dram.touch.contains (a / 2 ^ 20 + i)

/-- A read starts the exit from self-refresh where it reaches DRAM (R387, R395). -/
def wakeRead (a n : Nat) (s : State) : State := if reaches s a n then wake s else s

/-- Bytes with those of poisoned bursts filled from an open number. -/
def filled (x : Nat) : List (Option Byte) → List Byte
  | [] => []
  | some b :: r => b :: filled x r
  | none :: r => BitVec.ofNat 8 x :: filled (x / 256) r

/-- The bytes a read returns, poisoned where one is of an uncorrectable burst: such a byte's value is open (R392). -/
def readData (bytes : List (Option Byte)) (s : State) : State :=
  if bytes.contains none then
    let (x, s1) := s.fresh
    s1.emit (.data (filled x bytes) true)
  else s.emit (.data (filled 0 bytes) false)

/-- What a requester's read of `n` bytes does to the channels: the exit from self-refresh, the activations of the touched
bursts, and their errors (R389, R391, R392, R395). -/
def meet (a n : Nat) (s : State) : State :=
  let s1 := wakeRead a n s
  let bs := (burstsOf a n).filter fun b => touched s (64 * b)
  (bs.filter fun b => isUe s (64 * b) || isCe s (64 * b)).foldl (fun s b => burstMet false s (64 * b)) (activations bs s1)

/-- A requester's read: the bytes, and what the channels make of it. -/
def dramGet (a n : Nat) (s : State) : List (Option Byte) × State := (dramBytes s a n, meet a n s)

/-- A read by a requester that goes on with poisoned bytes: those are free values. -/
def dramTake (a n : Nat) (s : State) : List Byte × State :=
  (memRead (memTaken s) a n, let s1 := meet a n s; if (firstUe s a n).isSome then s1.fresh.2 else s1)

/-- The reads of ranges of the installed DRAM, in order. -/
def meetAll (rs : List (Nat × Nat)) (s : State) : State :=
  rs.foldl (fun s r => if r.1 + r.2 ≤ s.installed then meet r.1 r.2 s else s) s

/-- Bursts that a write of `n` bytes from `a` replaces whole. -/
def wholeBursts (a n : Nat) : List Nat :=
  ((List.range (n / 64 + 1)).map (ceilDiv a 64 + ·)).filter fun b => decide (64 * b + 64 ≤ a + n)

/-- A requester's write within installed DRAM: untouched MiB are zero-filled first; a burst held uncorrectable becomes
good only when all its 64 bytes are replaced, one with a wrong symbol with any write (R387, R390-R392). -/
def dramPut (a : Nat) (bytes : List Byte) (s : State) : State :=
  let s1 := activations (burstsOf a bytes.length) (((List.range (bytes.length / 2 ^ 20 + 2)).map fun i => a / 2 ^ 20 + i).foldl
    (fun s m => if decide (m * 2 ^ 20 < a + bytes.length) then touch (m * 2 ^ 20) s else s) (wake s))
  let whole := wholeBursts a bytes.length
  let away := fun b : Nat => decide (64 * b + 64 ≤ a) || decide (a + bytes.length ≤ 64 * b)
  let s2 := { s1 with mem := memWrite s1.mem a bytes }
  let s3 := { s2 with dram.ue := s2.dram.ue.filter fun b => !whole.contains b, dram.weak := s2.dram.weak.filter away }
  overN 2 (modDdr · fun d => { d with writeBack := d.writeBack.filter away }) s3

end Sys2Proof.Machine
end

