-- ==== Sys2Proof/Machine/Dram.lean ====
section
/-!
DEFINITION. DRAM training, refresh, neighbour refresh, scrub and self-refresh (spec/18_dram.md R377-R395).
-/

namespace Sys2Proof.Machine

open Reg

/-! ## Training (R379-R383) -/

/-- The tag of R382 for the devices installed. -/
def trainTag (s : State) : Nat × Nat := ((crc32c s.dram.header).toNat, s.dram.ids)

/-- NVM holds saved results whose tag matches. -/
def savedMatch (s : State) : Bool :=
  match s.dram.saved with
  | some (c, i, _) => trainTag s == (c, i)
  | none => false

/-- Patrol scrub runs on a trained channel with a period set, out of self-refresh (R393). -/
def scrubOn (s : State) (n : Nat) : Bool :=
  (ddrU s n).mode == 3 && s.g (DDR_SCRUB_HOURS n) != 0 && decide (s.g DRAM_SR_STATE < 2)

def scrubSync (s : State) : State := (channels s).foldl (fun s n => s.pb (DDR_STAT_SCRUBBING n) (scrubOn s n)) s

/-- Training begins on every channel in use: contents undefined, the touch map clear (R387); from saved results where
they may be used and match. -/
def startTraining (s : State) : State :=
  let use := s.on DRAM_TCTRL_USE_SAVED && savedMatch s
  let d := { s.dram with await := false, ue := [], weak := [], touch := [], full := !use }
  let s1 := { s with mem := [], dram := d }
  let s2 := ((s1.p DRAM_TOUCH_MIB 0).p DRAM_TSTAT_PHASE 0).p DRAM_TSTAT_FAILED 0
  let s3 := (channels s2).foldl (fun s n =>
    setDdr ((s.pb (DDR_STAT_TRAINED n) false).pb (DDR_STAT_FAILED n) false) n { mode := if use then 2 else 1 }) s2
  scrubSync ((s3.pb DRAM_TSTAT_SAVED_VALID (savedMatch s3)).p DRAM_TSTAT_STATE (if use then 2 else 1))

/-- Once every channel in use has ended, the training ends: trained, the engine entering STANDBY from bring-up, or
failed, entering FAULT in its place (R381). -/
def trainCheck (ms : Nat) (s : State) : State :=
  let modes := (channels s).map fun n => (ddrU s n).mode
  if !(modes.all fun m => m == 3 || m == 4) then
    s.p DRAM_TSTAT_STATE (if modes.contains 2 then 2 else 1)
  else
    let s1 := s.p DRAM_TSTAT_MS ms
    if modes.contains 4 then
      let s2 := s1.p DRAM_TSTAT_STATE 4
      if s2.engine = Eng.unrigged then s2.setEngine Eng.fault else s2
    else
      let s2 := (s1.p DRAM_TSTAT_STATE 3).p DRAM_TSTAT_SOURCE (if s1.dram.full then 1 else 2)
      scrubSync (if s2.engine = Eng.unrigged then s2.setEngine Eng.standby else s2)

/-- The word a channel is at, where it may run a step of opcode `op`. -/
def trainWord (s : State) (n op : Nat) : Option Nat :=
  let d := ddrU s n
  if (channels s).contains n ∧ d.mode = 1 then
    match s.dram.prog[d.pc]? with
    | some w => if w / 2 ^ 28 = op then some w else none
    | none => none
  else none

def trainNext (n : Nat) (s : State) : State := modDdr n (fun d => { d with pc := d.pc + 1 }) s

/-- Every island that the image in force names runs at its rigged frequency; a station's pixel clock comes later (R25,
R356). -/
def islandsClocked (s : State) : Bool :=
  s.rig.isls.all fun r => decide (2 ≤ r.2.1 ∧ r.2.1 ≤ 9) || decide (12 ≤ r.2.1) || s.on (CLK_PLL_STAT_LOCK r.2.1)

/-- Step 5 of R25: an applied image's training starts once its islands are clocked. -/
def trainClocked (s : State) : State :=
  if s.dram.await && islandsClocked s then startTraining s else s

/-- END. -/
def trainEnd (n ms : Nat) (s : State) : State :=
  match trainWord s n 0 with
  | some _ => trainCheck ms (modDdr n (fun d => { d with mode := 3 }) (s.pb (DDR_STAT_TRAINED n) true))
  | none => s

def execDramTrainEnd (n : Fin 2) (ms : BitVec 16) (s : State) : Host.Outcome State Fault Refusal :=
  .next (live (trainEnd n ms.toNat) s)

/-- MRW: a mode register write to the ranks named. -/
def trainMrw (n : Nat) (s : State) : State :=
  match trainWord s n 1 with
  | some w => trainNext n (s.emit (.dram n 1 (bitsOf w 24 2 * 256 + bitsOf w 16 8) (bitsOf w 8 8)))
  | none => s

def execDramMrw (n : Fin 2) (s : State) : Host.Outcome State Fault Refusal := .next (live (trainMrw n) s)

/-- A channel fails: once more from word 0, or failed for good (R381). -/
def trainFail (n phase ms : Nat) (s : State) : State :=
  if (ddrU s n).runs = 0 then modDdr n (fun d => { d with runs := 1, pc := 0, results := [] }) s
  else
    let s1 := (s.p DRAM_TSTAT_PHASE phase).p DRAM_TSTAT_FAILED (Nat.lor (s.g DRAM_TSTAT_FAILED) (2 ^ n))
    let s2 := modDdr n (fun d => { d with mode := 4 }) (s1.pb (DDR_STAT_FAILED n) true)
    trainCheck ms (raise { sev := Sev.regionFatal, cls := 0x30, inst := n, code := 2 } s2)

/-- TRAIN: a phase with the narrowest eye of any lane, 1/64 UI, its averaged result, and the ms the training has lasted. -/
def trainPhase (n eye result ms : Nat) (s : State) : State :=
  match trainWord s n 2 with
  | some w =>
    let phase := bitsOf w 24 4
    if eye < bitsOf w 8 8 then trainFail n phase ms s
    else modDdr n (fun d => { d with results := d.results ++ [(phase, result)] }) (trainNext n s)
  | none => s

def execDramTrainPhase (n : Fin 2) (eye : BitVec 8) (result : BitVec 32) (ms : BitVec 16) (s : State) :
    Host.Outcome State Fault Refusal := .next (live (trainPhase n eye.toNat result.toNat ms.toNat) s)

/-- WAIT. -/
def trainWait (n : Nat) (s : State) : State :=
  match trainWord s n 3 with
  | some _ => trainNext n s
  | none => s

def execDramTrainWait (n : Fin 2) (s : State) : Host.Outcome State Fault Refusal := .next (live (trainWait n) s)

/-- ZQCAL on the ranks named. -/
def trainZqcal (n : Nat) (s : State) : State :=
  match trainWord s n 4 with
  | some w => trainNext n (s.emit (.dram n 4 (bitsOf w 24 2) 0))
  | none => s

def execDramZqcal (n : Fin 2) (s : State) : Host.Outcome State Fault Refusal := .next (live (trainZqcal n) s)

/-- Saved results loaded and verified by a pattern: trained, or the full program runs (R383). -/
def savedVerify (n : Nat) (pass : Bool) (ms : Nat) (s : State) : State :=
  if (channels s).contains n ∧ (ddrU s n).mode = 2 then
    if pass then
      let r := match s.dram.saved with | some (_, _, l) => l.getD n [] | none => []
      trainCheck ms (modDdr n (fun d => { d with mode := 3, results := r }) (s.pb (DDR_STAT_TRAINED n) true))
    else
      let s1 := modDdr n (fun d => { d with mode := 1 }) s
      trainCheck ms { s1 with dram := { s1.dram with full := true } }
  else s

def execDramSavedVerify (n : Fin 2) (pass : Bool) (ms : BitVec 16) (s : State) : Host.Outcome State Fault Refusal :=
  .next (live (savedVerify n pass ms.toNat) s)

/-- The results of the last full training go to NVM with their tag (R382). -/
def trainStore (s : State) : State :=
  let t := trainTag s
  let r := (List.range 2).map fun n => (ddrU s n).results
  let s1 := { s with dram := { s.dram with saved := some (t.1, t.2, r), saveWait := false } }
  (s1.pb DRAM_TSTAT_SAVE_PEND false).pb DRAM_TSTAT_SAVED_VALID true

/-- The stored results are erased. -/
def trainErase (s : State) : State :=
  { s.pb DRAM_TSTAT_SAVED_VALID false with dram := { s.dram with saved := none, forgetWait := false } }

/-- A write of DRAM_TCTRL: USE_SAVED where not locked, FORGET, then SAVE; each NVM write under the window of R342. -/
def tctrlWrite (v : Word) (s : State) : State :=
  let s1 := s.plainWrite DRAM_TCTRL v
  let s2 := if fieldOf DRAM_TCTRL_FORGET v = 0 then s1
    else if nvmWindow s1 then trainErase s1 else { s1 with dram := { s1.dram with forgetWait := true } }
  if fieldOf DRAM_TCTRL_SAVE v = 1 ∧ s2.g DRAM_TSTAT_STATE = 3 ∧ s2.g DRAM_TSTAT_SOURCE = 1 then
    if nvmWindow s2 then trainStore s2
    else { s2.pb DRAM_TSTAT_SAVE_PEND true with dram := { s2.dram with saveWait := true } }
  else s2

def execDramTrainSave (v : Word) (s : State) : Host.Outcome State Fault Refusal := .next (hostAt DRAM_TCTRL (tctrlWrite v) s)
def execDramTrainForget (v : Word) (s : State) : Host.Outcome State Fault Refusal := .next (hostAt DRAM_TCTRL (tctrlWrite v) s)

/-! ## Reads and writes (R386, R387, R389, R391, R392) -/

/-- The address is served: DRAM is trained and holds it (R386). -/
def served (s : State) (a n : Nat) : Bool := s.g DRAM_TSTAT_STATE == 3 && decide (a + n ≤ s.installed)

/-- Symbols of a burst have gone wrong: one can be corrected, two are uncorrectable (R390). -/
def spoilBurst (wrong a : Nat) (s : State) : State :=
  if wrong = 2 then { s with dram := { s.dram with ue := if isUe s a then s.dram.ue else s.dram.ue ++ [a / 64] } }
  else if wrong = 1 then { s with dram := { s.dram with weak := if isCe s a then s.dram.weak else s.dram.weak ++ [a / 64] } }
  else s

/-- A burst is read in which `wrong` symbols are found wrong. -/
def burstCheck (wrong : Nat) (scrub : Bool) (a : Nat) (s : State) : State := burstMet scrub (spoilBurst wrong a s) a

/-- The second burst of a read, where its last byte lies in one. -/
def lastBurst (a last : Nat) (s : State) : State := if a / 64 ≠ last / 64 then burstMet false s last else s

/-- What a DRAM_READ of no bytes says: symbols have gone wrong in a touched burst that no requester has read yet, and
the channel's next draw (DESIGN CHOICE, assumption log 91). -/
def unread (a wrong : Nat) (sel : Bool) (s : State) : State :=
  modDdr (place s a).chan (fun d => { d with draw := d.draw ++ [sel] }) (if touched s a then spoilBurst wrong a s else s)

/-- A requester's read of up to 64 bytes: zeros from an untouched MiB, with no DRAM access and no check; else `wrong`
symbols are found wrong in its first burst (R387, R390-R392). -/
def dramRead (a n wrong : Nat) (sel : Bool) (s : State) : State :=
  if !served s a n then s
  else if n = 0 then unread a wrong sel s
  else if !reaches s a n then s.emit (.data (List.replicate n 0) false)
  else
    let s1 := wake s
    let s2 := if touched s1 a then burstCheck wrong false a (if sel then rowSelect a s1 else s1) else s1
    let s3 := lastBurst a (a + n - 1) s2
    readData (dramBytes s3 a n) s3

def execDramRead (a : BitVec 37) (len : Fin 65) (wrong : Fin 3) (sel : Bool) (s : State) :
    Host.Outcome State Fault Refusal := .next (live (dramRead a.toNat len wrong sel) s)

/-- A requester's write. -/
def dramWrite (a : Nat) (data : List Byte) (sel : Bool) (s : State) : State :=
  if !served s a data.length then s
  else
    let s1 := dramPut a data s
    if sel then rowSelect a s1 else s1

def execDramWrite (a : BitVec 37) (data : List (BitVec 8)) (sel : Bool) (s : State) :
    Host.Outcome State Fault Refusal := .next (live (dramWrite a.toNat data sel) s)

/-! ## Refresh (R388, R389) -/

/-- The channel runs: trained and out of self-refresh. -/
def ddrActive (s : State) (n : Nat) : Bool := (ddrU s n).mode == 3 && decide (s.g DRAM_SR_STATE < 2)

def ranks (s : State) : Nat := if s.on DRAM_CFG_RANKS2 then 2 else 1

/-- Every rank refreshed, all-bank or same-bank. -/
def refreshAll (n : Nat) (s : State) : State :=
  overN (ranks s) (fun k s => s.emit (.dram n 5 k (s.g (DDR_STAT_SAMEBANK n)))) s

/-- Mode register 4 every 32 ms: a shortened interval, or a temperature above the range. -/
def mr4Poll (n : Nat) (fast hot : Bool) (s : State) : State :=
  if ddrActive s n then
    let s1 := s.pb (DDR_STAT_FAST_REF n) fast
    if hot then corrected 0x30 n 3 0xFFFF (s1.pb (DDR_STAT_HOT n) true) else s1
  else s

def execDramMr4Poll (n : Fin 2) (fast hot : Bool) (s : State) : Host.Outcome State Fault Refusal := .next (live (mr4Poll n fast hot) s)

/-- Bits of a row number. -/
def rowBits (s : State) : Nat := (fieldWidths (s.on DRAM_CFG_X16) (s.g DRAM_CFG_DENSITY)).2.2

/-- A bank's pending row is served: by DRFM, or rows r - 1 and r + 1 where they exist. -/
def serveRow (n bank row : Nat) (s : State) : State :=
  let s1 := if s.on (DDR_STAT_DRFM n) then s.emit (.dram n 6 bank 0)
    else
      let a := if 0 < row then s.emit (.dram n 7 bank (row - 1)) else s
      if row + 1 < 2 ^ rowBits s then a.emit (.dram n 7 bank (row + 1)) else a
  modDdr n (fun d => { d with pend := bankErase bank d.pend }) (s1.inc (DDR_RH_SERVED n))

def neighbour (n bank : Nat) (s : State) : State :=
  if ddrActive s n then
    match (ddrU s n).pend.find? fun e => e.1 == bank with
    | some e => serveRow n bank e.2 s
    | none => s
  else s

def execNeighbourRefresh (n : Fin 2) (bank : Fin 128) (s : State) : Host.Outcome State Fault Refusal :=
  .next (live (neighbour n bank) s)

/-- Every pending row of a channel is served. -/
def serveAll (n : Nat) (s : State) : State := (ddrU s n).pend.foldl (fun s e => serveRow n e.1 e.2 s) s

/-- A refresh every tREFI, the pending rows first: none waits beyond tREFI (R388, R389). Which rows a refresh would delay
too long the manual leaves to time; all are served (DESIGN CHOICE, assumption log 90). -/
def dramRefresh (n : Nat) (s : State) : State := if ddrActive s n then refreshAll n (serveAll n s) else s

def execDramRefresh (n : Fin 2) (s : State) : Host.Outcome State Fault Refusal := .next (live (dramRefresh n) s)

/-- The oldest corrected burst queued is written back (R391). -/
def writeBackOne (n : Nat) (s : State) : State :=
  match (ddrU s n).writeBack with
  | b :: r =>
    let s1 := modDdr n (fun d => { d with writeBack := r }) (s.emit (.dram n 8 b 0))
    { s1 with dram.weak := s1.dram.weak.filter (· != b) }
  | [] => s

/-- At each tick a channel that runs writes one corrected burst back. -/
def writeBackTick (s : State) : State := overN 2 (fun n s => if ddrActive s n then writeBackOne n s else s) s

/-- Every corrected burst queued is written back, before self-refresh. -/
def writeBackAll (n : Nat) (s : State) : State := (ddrU s n).writeBack.foldl (fun s _ => writeBackOne n s) s

/-! ## Scrub (R393) -/

/-- The first burst of channel `n`, not below `b`, in a touched MiB, `b` being a burst number. -/
def nextBurst (s : State) (n b : Nat) : Option Nat :=
  let inMib := fun m lo => ((List.range 4).map (fun i => lo + i)).find? fun x => decide (x / 16384 = m) && (place s (64 * x)).chan == n
  let later := (s.dram.touch.filter fun m => decide (b / 16384 < m)).foldl
    (fun a m => match a with | some x => some (min x m) | none => some m) none
  match (if s.dram.touch.contains (b / 16384) then inMib (b / 16384) b else none) with
  | some x => some x
  | none => match later with
    | some m => inMib m (m * 16384)
    | none => none

/-- The scrub reads its next burst; at the end of the touched MiB a pass is complete. -/
def scrubRead (n wrong : Nat) (s : State) : State :=
  if !scrubOn s n ∨ !ddrActive s n then s
  else
    let d := ddrU s n
    match nextBurst s n d.scrub with
    | some b => burstCheck wrong true (64 * b) (setDdr s n { d with scrub := b + 1 })
    | none =>
      let s1 := s.p (DDR_SCRUB_PASSES n) (s.g (DDR_SCRUB_PASSES n) + 1)
      match nextBurst s n 0 with
      | some b => burstCheck wrong true (64 * b) (setDdr s1 n { d with scrub := b + 1 })
      | none => setDdr s1 n { d with scrub := 0 }

def execScrubRead (n : Fin 2) (wrong : Fin 3) (s : State) : Host.Outcome State Fault Refusal := .next (live (scrubRead n wrong) s)

/-- A write of DDRn_SCRUB. -/
def scrubWrite (off : Nat) (v : Word) (s : State) : State := scrubSync ((wake s).plainWrite off v)

/-! ## Self-refresh (R394, R395) -/

/-- A write of DRAM_SR: PLL_OFF and the W1C bits, REQ, then EXIT. -/
def srWrite (v : Word) (s : State) : State :=
  let s1 := s.plainWrite DRAM_SR v
  let e := s1.engine
  let s2 := if fieldOf DRAM_SR_REQ v = 0 then s1
    else if e = Eng.standby ∨ e = Eng.furled ∨ e = Eng.fault then
      (if s1.g DRAM_SR_STATE = 0 then s1.p DRAM_SR_STATE 1 else s1)
    else s1.pb DRAM_SR_REFUSED true
  if fieldOf DRAM_SR_EXIT v = 1 ∧ s2.g DRAM_SR_STATE = 2 then startExit s2 else s2

def execSrRequest (v : Word) (s : State) : Host.Outcome State Fault Refusal := .next (hostAt DRAM_SR (srWrite v) s)
def execSrExit (v : Word) (s : State) : Host.Outcome State Fault Refusal := .next (hostAt DRAM_SR (srWrite v) s)

/-- Every channel has entered: write-backs and pending rows served first, the island clocks stopped, DDRPLL stopped with PLL_OFF. -/
def srEntered (s : State) : State :=
  if s.g DRAM_SR_STATE ≠ 1 then s
  else
    let s1 := (channels s).foldl (fun s n =>
      (serveAll n (writeBackAll n s)).pb (CLK_ISL_STOPPED (4 + n)) true) s
    let s2 := (s1.p DRAM_SR_STATE 2).inc DRAM_SR_COUNT
    let s3 := if s2.on DRAM_SR_PLL_OFF then
        { (s2.pb (CLK_PLL_STAT_RUN 1) false).pb (CLK_PLL_STAT_LOCK 1) false with dram := { s2.dram with pllOff := true } }
      else s2
    scrubSync s3

def execSrEntered (s : State) : Host.Outcome State Fault Refusal := .next (live srEntered s)

/-- The exit is complete: DDRPLL locked again, clocks restarted, each rank refreshed. -/
def srExitDone (s : State) : State :=
  if s.g DRAM_SR_STATE ≠ 3 then s
  else
    let s1 := if s.dram.pllOff then
        { (s.pb (CLK_PLL_STAT_RUN 1) true).pb (CLK_PLL_STAT_LOCK 1) true with dram := { s.dram with pllOff := false } }
      else s
    let s2 := (channels s1).foldl (fun s n => refreshAll n (s.pb (CLK_ISL_STOPPED (4 + n)) false)) (s1.p DRAM_SR_STATE 0)
    scrubSync s2


end Sys2Proof.Machine
end

