-- ==== Sys2Proof/Machine/Inflate.lean ====
section
/-!
DEFINITION. The decoders' work as functions of bytes: RFC 1951 streams with the checks and error details of
spec/04_raster_codec.md R96 and R98, band headers and trailers (R93, R94), predictors (R95), job streams (R105).
An input byte that lies in an uncorrectable burst is `none`.
-/

namespace Sys2Proof.Machine
namespace Inflate

/-- What a decoder reads from: bytes not yet consumed, the next bit of the first, and the bytes consumed. -/
structure Src where
  rest : List (Option Byte)
  bit : Nat
  used : Nat

/-- One bit, least significant first; detail 15 past the end, detail 17 on an uncorrectable byte. -/
def nextBit (s : Src) : Except Nat (Nat × Src) :=
  match s.rest with
  | [] => .error 15
  | none :: _ => .error 17
  | some b :: r =>
    let v := bitsOf b.toNat s.bit 1
    if s.bit = 7 then .ok (v, ⟨r, 0, s.used + 1⟩) else .ok (v, ⟨s.rest, s.bit + 1, s.used⟩)

/-- `n` bits, the first the least significant. -/
def nextBits : Nat → Src → Except Nat (Nat × Src)
  | 0, s => .ok (0, s)
  | n + 1, s =>
    match nextBit s with
    | .error e => .error e
    | .ok (b, s1) =>
      match nextBits n s1 with
      | .error e => .error e
      | .ok (v, s2) => .ok (b + 2 * v, s2)

/-- On to the next byte boundary. -/
def align (s : Src) : Src :=
  if s.bit = 0 then s else ⟨s.rest.drop 1, 0, s.used + 1⟩

/-- A canonical Huffman code: how many symbols of each length 1 to 15, and the symbols in code order. -/
structure Huff where
  counts : List Nat
  syms : List Nat

def huffOf (lens : List Nat) : Huff :=
  let idx := lens.zipIdx
  { counts := (List.range 15).map fun l => (lens.filter (· == l + 1)).length
    syms := (List.range 15).flatMap fun l => (idx.filter fun p => p.1 == l + 1).map (·.2) }

/-- Code space left: positive where incomplete, negative where over-subscribed. -/
def spaceLeft : List Nat → Int → Int
  | [], left => left
  | c :: r, left => let l := 2 * left - c; if l < 0 then l else spaceLeft r l

/-- Decode one symbol; an unused code of an accepted incomplete code is detail 7. -/
def symGo (syms : List Nat) : List Nat → Nat → Nat → Nat → Src → Except Nat (Nat × Src)
  | [], _, _, _, _ => .error 7
  | c :: cs, code, first, index, s =>
    match nextBit s with
    | .error e => .error e
    | .ok (b, s1) =>
      let code := code + b
      if code < first + c then .ok (syms.getD (index + (code - first)) 0, s1)
      else symGo syms cs (2 * code) (2 * (first + c)) (index + c) s1

def symbol (h : Huff) (s : Src) : Except Nat (Nat × Src) := symGo h.syms h.counts 0 0 0 s

/-- Base and extra bits of length symbols 257 to 285 (RFC 1951). -/
def lenTable : List (Nat × Nat) :=
  [(3,0),(4,0),(5,0),(6,0),(7,0),(8,0),(9,0),(10,0),(11,1),(13,1),(15,1),(17,1),(19,2),(23,2),(27,2),(31,2),
   (35,3),(43,3),(51,3),(59,3),(67,4),(83,4),(99,4),(115,4),(131,5),(163,5),(195,5),(227,5),(258,0)]

/-- Base and extra bits of distance symbols 0 to 29 (RFC 1951). -/
def distTable : List (Nat × Nat) :=
  [(1,0),(2,0),(3,0),(4,0),(5,1),(7,1),(9,2),(13,2),(17,3),(25,3),(33,4),(49,4),(65,5),(97,5),(129,6),(193,6),
   (257,7),(385,7),(513,8),(769,8),(1025,9),(1537,9),(2049,10),(3073,10),(4097,11),(6145,11),(8193,12),(12289,12),
   (16385,13),(24577,13)]

/-- An error met: its detail, and the output so far, newest first. -/
abbrev Met := Nat × List Byte

/-- What a stream may be: the limit of its output, its search window, its block types, the output of one block. -/
structure Form where
  max : Nat
  window : Nat := 32768
  types : List Nat := [0, 1, 2]
  segment : Option Nat := none

/-- Copy `n` bytes from distance `d`; the output is held newest first, `max` its limit (detail 12). -/
def copy (max d : Nat) : Nat → List Byte → Except Met (List Byte)
  | 0, out => .ok out
  | n + 1, out =>
    if out.length ≥ max then .error (12, out) else copy max d n (out.getD (d - 1) 0 :: out)

/-- The symbols of one compressed block. -/
def codes (lit dist : Huff) (f : Form) : Nat → Src → List Byte → Except Met (Src × List Byte)
  | 0, _, out => .error (15, out)
  | fuel + 1, s, out =>
    match symbol lit s with
    | .error e => .error (e, out)
    | .ok (sym, s1) =>
      if sym < 256 then
        if out.length ≥ f.max then .error (12, out) else codes lit dist f fuel s1 (BitVec.ofNat 8 sym :: out)
      else if sym = 256 then .ok (s1, out)
      else if sym ≥ 286 then .error (8, out)
      else
        let (lb, le) := lenTable.getD (sym - 257) (3, 0)
        match nextBits le s1 with
        | .error e => .error (e, out)
        | .ok (lx, s2) =>
          match symbol dist s2 with
          | .error e => .error (e, out)
          | .ok (ds, s3) =>
            if ds ≥ 30 then .error (8, out)
            else
              let (db, de) := distTable.getD ds (1, 0)
              match nextBits de s3 with
              | .error e => .error (e, out)
              | .ok (dx, s4) =>
                if db + dx > min out.length f.window then .error (10, out)
                else match copy f.max (db + dx) (lb + lx) out with
                  | .error e => .error e
                  | .ok out1 => codes lit dist f fuel s4 out1

/-- The fixed literal/length code lengths (RFC 1951). -/
def fixedLit : List Nat :=
  List.replicate 144 8 ++ List.replicate 112 9 ++ List.replicate 24 7 ++ List.replicate 8 8

def clOrder : List Nat := [16, 17, 18, 0, 8, 7, 9, 6, 10, 5, 11, 4, 12, 3, 13, 2, 14, 1, 15]

/-- The code-length code's lengths, as sent. -/
def clLens : Nat → Src → Except Nat (List Nat × Src)
  | 0, s => .ok ([], s)
  | n + 1, s =>
    match nextBits 3 s with
    | .error e => .error e
    | .ok (v, s1) =>
      match clLens n s1 with
      | .error e => .error e
      | .ok (r, s2) => .ok (v :: r, s2)

/-- The literal/length and distance code lengths, `total` of them. -/
def codeLens (h : Huff) (total : Nat) : Nat → Src → List Nat → Except Nat (List Nat × Src)
  | 0, s, acc => .ok (acc, s)
  | fuel + 1, s, acc =>
    if acc.length ≥ total then .ok (acc, s)
    else match symbol h s with
      | .error e => .error e
      | .ok (sym, s1) =>
        if sym < 16 then codeLens h total fuel s1 (acc ++ [sym])
        else if sym = 16 ∧ acc.isEmpty then .error 9
        else
          let (base, bits, val) := if sym = 16 then (3, 2, acc.getLastD 0) else if sym = 17 then (3, 3, 0) else (11, 7, 0)
          match nextBits bits s1 with
          | .error e => .error e
          | .ok (x, s2) =>
            if acc.length + base + x > total then .error 9
            else codeLens h total fuel s2 (acc ++ List.replicate (base + x) val)

/-- The two codes of a type 2 block, checked against R96. -/
def dynamic (s : Src) : Except Nat (Huff × Huff × Src) :=
  match nextBits 14 s with
  | .error e => .error e
  | .ok (v, s1) =>
    let hlit := v % 32 + 257
    let hdist := v / 32 % 32 + 1
    let hclen := v / 1024 + 4
    match clLens hclen s1 with
    | .error e => .error e
    | .ok (cl, s2) =>
      let lens := (List.range 19).map fun i => (((clOrder.zip cl).find? fun p => p.1 == i).map (·.2)).getD 0
      let h := huffOf lens
      if spaceLeft h.counts 1 ≠ 0 then .error 7
      else match codeLens h (hlit + hdist) (hlit + hdist) s2 [] with
        | .error e => .error e
        | .ok (all, s3) =>
          let lit := huffOf (all.take hlit)
          let dist := huffOf (all.drop hlit)
          if spaceLeft lit.counts 1 ≠ 0 then .error 7
          else if spaceLeft dist.counts 1 < 0 then .error 7
          else if spaceLeft dist.counts 1 ≠ 0 ∧ dist.syms.length > 1 then .error 7
          else .ok (lit, dist, s3)

/-- `n` bytes of a stored block. -/
def stored (max : Nat) : Nat → Src → List Byte → Except Met (Src × List Byte)
  | 0, s, out => .ok (s, out)
  | n + 1, s, out =>
    match s.rest with
    | [] => .error (15, out)
    | none :: _ => .error (17, out)
    | some b :: r => if out.length ≥ max then .error (12, out) else stored max n ⟨r, 0, s.used + 1⟩ (b :: out)

/-- One block of a type, its header bits read. -/
def block (f : Form) (ty : Nat) (s : Src) (out : List Byte) : Except Met (Src × List Byte) :=
  if !f.types.contains ty then .error (5, out)
  else match ty with
    | 0 =>
      match nextBits 32 (align s) with
      | .error e => .error (e, out)
      | .ok (ln, s1) =>
        if ln % 65536 + ln / 65536 ≠ 65535 then .error (6, out) else stored f.max (ln % 65536) s1 out
    | 1 => codes (huffOf fixedLit) (huffOf (List.replicate 32 5)) f (8 * s.rest.length + 8) s out
    | _ =>
      match dynamic s with
      | .error e => .error (e, out)
      | .ok (lit, dist, s1) => codes lit dist f (8 * s1.rest.length + 8) s1 out

/-- Blocks until the one whose BFINAL is 1. -/
def blocks (f : Form) : Nat → Src → List Byte → Except Met (Src × List Byte)
  | 0, _, out => .error (15, out)
  | fuel + 1, s, out =>
    match nextBits 3 s with
    | .error e => .error (e, out)
    | .ok (v, s1) =>
      match block f (v / 2) s1 out with
      | .error e => .error e
      | .ok (s2, out2) =>
        if (f.segment.any fun n => decide (n < out2.length - out.length)) then .error (12, out2)
        else if v % 2 = 1 then .ok (align s2, out2) else blocks f fuel s2 out2

/-- A whole DEFLATE stream of a form: the bytes consumed and the output; or the error met and the output before it. -/
def stream (input : List (Option Byte)) (f : Form) : Except Met (Nat × List Byte) :=
  match blocks f (8 * input.length + 8) ⟨input, 0, 0⟩ [] with
  | .error (e, out) => .error (e, out.reverse)
  | .ok (s, out) => .ok (s.used, out.reverse)

/-! ## Bands -/

/-- What a band must be (R89): plane kind, line width in pixels, lines, index, stride in bytes. -/
structure Want where
  kind : Nat
  width : Nat
  lines : Nat
  index : Nat
  stride : Nat

def known (b : List (Option Byte)) : Bool := b.all Option.isSome
def plain (b : List (Option Byte)) : List Byte := b.map fun x => x.getD 0

/-- The header checks on the bytes `h` of it that may be consumed, in the order of the details (R93, R94, R98). -/
def header (h : List Byte) (w : Want) : Option Nat :=
  let minor := bytesAt h 2 1
  let kind := bytesAt h 4 1
  let pred := bytesAt h 5 1
  if 2 ≤ h.length ∧ bytesAt h 0 2 ≠ 0x5242 then some 1
  else if 4 ≤ h.length ∧ (bytesAt h 3 1 ≠ 1 ∨ minor > 1) then some 2
  else if 6 ≤ h.length ∧ (kind > 2 ∨ (kind = 0 ∧ pred > (if minor = 0 then 2 else 3)) ∨ (kind ≠ 0 ∧ pred > 1)) then some 3
  else if h.length < 16 then some 15
  else if kind ≠ w.kind ∨ bytesAt h 8 4 ≠ w.width ∨ bytesAt h 6 2 ≠ w.lines ∨ bytesAt h 12 4 ≠ w.index then some 11
  else none

/-- One line rebuilt from its residuals and the line above (R95). -/
def unpredLine (kind pred : Nat) : Byte → List Byte → List Byte → List Byte
  | _, _, [] => []
  | left, above, d :: r =>
    let up := above.headD 0
    let x := if kind = 0 then
        (if pred = 1 then d + left else if pred = 2 then d + up
         else if pred = 3 then d + BitVec.ofNat 8 ((left.toNat + up.toNat) / 2) else d)
      else if pred = 1 then d ^^^ up else d
    x :: unpredLine kind pred x (above.drop 1) r

/-- The uncompressed band from its residuals. -/
def unpredict (kind pred stride : Nat) : Nat → List Byte → List Byte → List Byte
  | 0, _, _ => []
  | n + 1, above, d =>
    let line := unpredLine kind pred 0 above (d.take stride)
    line ++ unpredict kind pred stride n line (d.drop stride)

/-- A band of `len` bytes in a decoder whose output has room for `room` lines: its uncompressed lines, or the detail of
the first error met and the whole lines placed before it (R98, R101). Output that wants more than the room is detail
12. -/
def bandIn (room : Nat) (bytes : List (Option Byte)) (len : Nat) (w : Want) : Except Met (List Byte) :=
  let body := bytes.take (len - 8)
  let h := body.take 16
  let lines := fun out : List Byte => unpredict w.kind (bytesAt (plain h) 5 1) w.stride (out.length / max 1 w.stride) [] out
  if !known h then .error (17, [])
  else match header (plain h) w with
    | some d => .error (d, [])
    | none =>
      match stream (body.drop 16) { max := min room w.lines * w.stride } with
      | .error (d, out) => .error (d, lines out)
      | .ok (used, out) =>
        let t := (bytes.drop (16 + used)).take 8
        let bad := fun d => Except.error (d, lines out)
        if out.length < w.lines * w.stride then bad 13
        else if 16 + used + 8 ≠ len then bad 15
        else if !known t then bad 17
        else if bytesAt (plain t) 4 4 ≠ used then bad 14
        else if (crc32c (lines out)).toNat ≠ bytesAt (plain t) 0 4 then bad 16
        else .ok (lines out)

/-- A whole band: its uncompressed lines, or the first error met. -/
def band (bytes : List (Option Byte)) (len : Nat) (w : Want) : Except Met (List Byte) := bandIn w.lines bytes len w

/-- How an inflate job ends (R98, R105), with the output written by then. -/
inductive JobEnd where
  | ok (out : List Byte)
  | overflow (out : List Byte)
  | fail (detail : Nat) (out : List Byte)
  deriving DecidableEq, Repr

/-- A job stream of `len` bytes into at most `dstLen` bytes (R105). -/
def job (bytes : List (Option Byte)) (len dstLen : Nat) : JobEnd :=
  match stream (bytes.take (len - 8)) { max := dstLen } with
  | .error (12, out) => .overflow out
  | .error (d, out) => .fail d out
  | .ok (used, out) =>
    let t := (bytes.drop used).take 8
    if !known t then .fail 17 out
    else if out.length < bytesAt (plain t) 4 4 then .fail 13 out
    else if out.length > bytesAt (plain t) 4 4 then .fail 12 out
    else if used + 8 ≠ len then .fail 15 out
    else if (crc32c out).toNat ≠ bytesAt (plain t) 0 4 then .fail 16 out
    else .ok out

/-! ## The compressor's streams (R102) -/

/-- The streams a compressor mode writes for a source of `n` bytes: normal mode type 1 blocks only, over the last 4,096
bytes; recovery mode type 2 or 0, over the last 32,768, a block for at most 1 MiB of input. -/
def modeForm (mode n : Nat) : Form :=
  if mode = 1 then { max := n, types := [0, 2], segment := some 1048576 } else { max := n, window := 4096, types := [1] }

/-- The streams of type 2 blocks alone that recovery mode weighs against stored ones. -/
def typeTwo (n : Nat) : Form := { max := n, types := [2], segment := some 1048576 }

/-- `d` is one whole stream of a form for the source. -/
def codesFor (f : Form) (src d : List Byte) : Bool :=
  match stream (d.map some) f with
  | .ok (used, out) => used == d.length && out == src
  | .error _ => false

/-- Bits packed into bytes, the first the least significant. -/
def packBits : Nat → List Bool → List Byte
  | 0, _ => []
  | n + 1, bs => BitVec.ofNat 8 ((bs.take 8).foldr (fun b a => b.toNat + 2 * a) 0) :: packBits n (bs.drop 8)

/-- The `n` bits of a Huffman code, the first sent the most significant. -/
def codeBits (n v : Nat) : List Bool := (List.range n).map fun i => bitsOf v (n - 1 - i) 1 == 1

/-- One final type 1 block of literals. -/
def literalStream (src : List Byte) : List Byte :=
  let lit := fun b : Byte => if b.toNat < 144 then codeBits 8 (0x30 + b.toNat) else codeBits 9 (0x190 + b.toNat - 144)
  let bits := [true, true, false] ++ src.flatMap lit ++ codeBits 7 0
  packBits (ceilDiv bits.length 8) bits

/-- The bits of bytes, the least significant of each first. -/
def bitList (b : List Byte) : List Bool := b.flatMap fun x => (List.range 8).map fun i => bitsOf x.toNat i 1 == 1

/-- The bits in a stream at which a block's type begins and the block ends, and the bytes it codes, for each block. -/
def blockSpans (f : Form) : Nat → Src → List Byte → List (Nat × Nat × Nat)
  | 0, _, _ => []
  | fuel + 1, s, out =>
    match nextBits 3 s with
    | .error _ => []
    | .ok (v, s1) =>
      match block f (v / 2) s1 out with
      | .error _ => []
      | .ok (s2, out2) =>
        (8 * s.used + s.bit + 1, 8 * s2.used + s2.bit, out2.length - out.length)
          :: (if v % 2 = 1 then [] else blockSpans f fuel s2 out2)

/-- Stored blocks of a segment from bit `at_` of a byte; the fuel bounds the blocks. -/
def storedBits (last : Bool) : Nat → Nat → List Byte → List Bool
  | 0, _, _ => []
  | fuel + 1, at_, seg =>
    let part := seg.take 65535
    let more := seg.drop 65535
    [last && more.isEmpty, false, false] ++ List.replicate ((16 - (at_ + 3) % 8) % 8) false
      ++ bitList (leBytes 2 part.length ++ leBytes 2 (65535 - part.length) ++ part)
      ++ (if more.isEmpty then [] else storedBits last fuel 0 more)

/-- Segments, each as the type 2 block that `d` codes it with, or stored where that is not smaller (R102). -/
def weighed (d : List Bool) : List (Nat × Nat × Nat) → List Byte → List Bool → List Bool
  | [], _, acc => acc
  | (a, b, n) :: r, src, acc =>
    let two := r.isEmpty :: (d.drop a).take (b - a)
    let zero := storedBits r.isEmpty (n / 65535 + 1) (acc.length % 8) (src.take n)
    weighed d r (src.drop n) (acc ++ if two.length < zero.length then two else zero)

/-- Stored blocks of at most 65,535 bytes; the fuel bounds the blocks. -/
def storedStream : Nat → List Byte → List Byte
  | 0, _ => []
  | fuel + 1, src =>
    let part := src.take 65535
    let more := src.drop 65535
    BitVec.ofNat 8 more.isEmpty.toNat :: (leBytes 2 part.length ++ leBytes 2 (65535 - part.length) ++ part)
      ++ (if more.isEmpty then [] else storedStream fuel more)

/-- What the compressor writes for a source: normal mode a stream of its form, recovery mode the shorter for each segment
of a type 2 block and stored ones, the segments, matches and codes being open; where the open bytes are no such stream, the
plainest stream of the mode (assumption log 5). -/
def compressed (mode : Nat) (src : List Byte) : List Byte :=
  let d := Config.deflate mode src
  if mode = 1 then
    if codesFor (typeTwo src.length) src d then
      let bits := weighed (bitList d) (blockSpans (typeTwo src.length) (8 * d.length + 8) ⟨d.map some, 0, 0⟩ []) src []
      packBits (ceilDiv bits.length 8) bits
    else storedStream (src.length / 65535 + 1) src
  else if codesFor (modeForm mode src.length) src d then d
  else literalStream src

/-- The kind of a detail (R98's table). -/
def kindOf (detail : Nat) : Nat :=
  if detail = 0 then 0 else if detail ≤ 9 then 1 else if detail = 10 then 2 else if detail ≤ 15 then 3 else 4

end Inflate
end Sys2Proof.Machine
end

