-- ==== Sys2Proof/Machine/Codec.lean ====
section
/-!
DEFINITION. The verify pass, admission, inflate jobs and the compressor (spec/04_raster_codec.md R98-R105,
spec/05_passage.md R113, R114).
-/

namespace Sys2Proof.Machine

open Reg

/-! ## Plane geometry (R89) -/

def bandHeight (p : Plane) : Nat := 16 * 2 ^ p.bandH

/-- Process lines per contone line. -/
def qOf (p : Plane) : Nat :=
  if p.ctRes = 0 then (if p.procRes = 0 then 4 else 2) else (if p.procRes = 0 then 2 else 1)

def wcOf (p : Plane) : Nat := if p.ctRes = 0 then p.width / 4 else p.width / 2

/-- Bands that each table of a plane holds. -/
def bandCount (p : Plane) (lines : Nat) : Nat :=
  if p.kind = 2 then ceilDiv lines (4 * bandHeight p) else ceilDiv lines (qOf p * bandHeight p)

/-- Lines of band `k` of a table, in the plane's own lines. -/
def bandLines (p : Plane) (lines tbl k : Nat) : Nat :=
  if p.kind = 2 then min (4 * (k + 1) * bandHeight p) lines - 4 * k * bandHeight p
  else if tbl = 0 then min ((k + 1) * bandHeight p) (ceilDiv lines (qOf p)) - k * bandHeight p
  else min ((k + 1) * bandHeight p * qOf p) lines - k * bandHeight p * qOf p

/-- What a band must hold (R93, R98). -/
def wantOf (p : Plane) (lines tbl k : Nat) : Inflate.Want :=
  if tbl = 0 then { kind := 0, width := wcOf p, lines := bandLines p lines 0 k, index := k, stride := wcOf p }
  else { kind := if p.kind = 2 then 2 else 1, width := p.width, lines := bandLines p lines 1 k, index := k, stride := p.width / 8 }

/-- Bands of a plane in decode order: contone 0, tag 0, contone 1, tag 1 and onward (R99, R141). -/
def planeBands (c n : Nat) (p : Plane) (lines : Nat) : List BandId :=
  (List.range (bandCount p lines)).flatMap fun k =>
    (if p.kind = 2 then [] else [⟨c, n, 0, k⟩]) ++ (if p.kind = 1 then [] else [⟨c, n, 1, k⟩])

/-- Address and length of a band. -/
def bandAt (p : Plane) (b : BandId) : Nat × Nat :=
  (if b.tbl = 0 then p.ct else p.tg).getD b.idx (0, 0)

/-- Whether station `n` is in a context's STN_MASK. -/
def inMask (s : State) (c n : Nat) : Bool := bitsOf (s.g (PCTX_STATE_STN_MASK c)) n 1 == 1

/-- A band decoded with room for some of its lines: its lines or the first error met, and the DRAM reads it made. The decoder
fetches the whole LEN, so the channel records an uncorrectable burst that it would have stopped before too (DESIGN CHOICE,
assumption log 97). -/
def decodeIn (room : Nat) (b : BandId) (s : State) : Except Inflate.Met (List Byte) × State :=
  let u := s.ctxU b.ctx
  let p := u.planes.getD b.stn {}
  let (a, len) := bandAt p b
  let (bytes, s1) := dramGet a len s
  (Inflate.bandIn room bytes len (wantOf p u.lines b.tbl b.idx), s1)

/-- A band decoded with room for all of it. -/
def decodeBand (b : BandId) (s : State) : Except Inflate.Met (List Byte) × State :=
  let u := s.ctxU b.ctx
  decodeIn (bandLines (u.planes.getD b.stn {}) u.lines b.tbl b.idx) b s

/-! ## Verify queue (R99, R105) -/

def vQueueSync (s : State) : State := s.p CODEC_VSTAT_QUEUED (min 65535 s.codec.queue.length)

/-- Whether band `x` lies before band `y` in queue order within a sheet. -/
def bandBefore (x y : BandId) : Bool :=
  decide (x.stn < y.stn) || (x.stn == y.stn && (decide (x.idx < y.idx) || (x.idx == y.idx && decide (x.tbl < y.tbl))))

/-- RESULT of VERIFY_FAIL (R68, R99). -/
def verifyFailResult (b : BandId) (detail : Nat) : Nat :=
  b.stn * 2 ^ 8 + (b.idx + b.tbl * 2 ^ 23) * 2 ^ 16 + Inflate.kindOf detail * 2 ^ 40

/-- VERIFY_BAND_START (R99): a free decoder takes the item at the head of the queue; the sheet's first band moves its
context to VERIFYING (R107). -/
def verifyStart (n : Nat) (s : State) : State :=
  match bankGet none s.codec.vdec n, s.codec.queue with
  | none, i :: r =>
    let s1 := vQueueSync { s with codec := { s.codec with queue := r, vdec := bankPut none n (some i) s.codec.vdec } }
    let s2 := s1.pb (VDEC_STAT_BUSY n) true
    match i with
    | .band b =>
      let s3 := (((s2.p (VDEC_STAT_JOB n) 0).p (VDEC_STAT_STATION n) b.stn).p (VDEC_STAT_CONTEXT n) b.ctx)
      let s4 := (s3.p (VDEC_BAND_TABLE n) b.tbl).p (VDEC_BAND_INDEX n) b.idx
      let s5 := s4.modCtx b.ctx fun u => { u with inDec := u.inDec + 1 }
      if ctxState s5 b.ctx = Px.loaded then psqSync (s5.p (PCTX_STATE_STATE b.ctx) Px.verifying) else s5
    | .job _ => s2.p (VDEC_STAT_JOB n) 1
  | _, _ => s

def execVerifyBandStart (n : Fin 8) (s : State) : Host.Outcome State Fault Refusal :=
  .next (live (verifyStart n) s)

/-- A failed sheet whose bands in decoders have finished completes with VERIFY_FAIL (R99, R100). -/
def verifyFailDone (c : Nat) (s : State) : State :=
  let u := s.ctxU c
  match u.failed with
  | some (b, d) => if u.inDec = 0 then refuseCommit c Sts.verifyFail (verifyFailResult b d) none s else s
  | none => s

/-- A verify decoder's end of work. -/
def vdecFree (n : Nat) (s : State) : State :=
  { s with codec.vdec := bankPut none n none s.codec.vdec }.pb (VDEC_STAT_BUSY n) false

/-- VERIFY_BAND_DONE (R98-R100): success counts the band; a failure ends the sheet's queueing, and the earliest failed
band in queue order is reported once the sheet's bands in decoders have finished. -/
def verifyDone (n : Nat) (s : State) : State :=
  match bankGet none s.codec.vdec n with
  | some (.band b) =>
    let (r, s1) := decodeBand b s
    let s2 := (vdecFree n s1).modCtx b.ctx fun u => { u with inDec := u.inDec - 1 }
    match r with
    | .ok _ =>
      verifyFailDone b.ctx ((s2.inc CODEC_VOK_COUNT).modCtx b.ctx fun u => { u with unverified := u.unverified - 1 })
    | .error (d, _) =>
      let s3 := ((s2.inc CODEC_VFAIL_COUNT).p (VDEC_STAT_KIND n) (Inflate.kindOf d)).p (VDEC_STAT_DETAIL n) d
      let q := s3.codec.queue.filter fun i => match i with | .band x => x.ctx != b.ctx | .job _ => true
      let s4 := vQueueSync { s3 with codec := { s3.codec with queue := q } }
      let s5 := s4.modCtx b.ctx fun u =>
        { u with failed := match u.failed with
            | some (x, e) => if bandBefore b x then some (b, d) else some (x, e)
            | none => some (b, d) }
      verifyFailDone b.ctx s5
  | _ => s

def execVerifyBandDone (n : Fin 8) (s : State) : Host.Outcome State Fault Refusal :=
  .next (live (verifyDone n) s)

/-! ## Admission (R113, R114) -/

/-- B_n, decoder output in bytes per process line (R113). -/
def bytesPerLine (p : Plane) : Nat :=
  (if p.kind = 1 then 0 else p.width / 8) + (if p.kind = 2 then 0 else wcOf p / qOf p)

/-- D of a sheet at a rate (R113). -/
def demandOf (s : State) (u : Ctx) (rate : Nat) : Nat :=
  let n := (cplNum s s.psq.trim).toNat
  ceilDiv (3 * u.bytes * rate * n) (1000000 * (s.g (PSQ_POS_COUNTS 1) * cplDen + u.lines * n))

/-- S_n of a plane at a rate (R113). -/
def decDemand (p : Plane) (rate : Nat) : Nat := ceilDiv (bytesPerLine p * rate) 1000000

/-- Station demands of a context, ascending (R114). -/
def stnDemands (s : State) (c rate : Nat) : List Nat :=
  ((List.range 8).filter (inMask s c)).map fun n => decDemand ((s.ctxU c).planes.getD n {}) rate

def maxN (l : List Nat) : Nat := l.foldl max 0

/-- The first failing check of an admission: budget and demand (R114). `others` is the DRAM demand already standing. -/
def admitFail (s : State) (ss : List Nat) (d others : Nat) : Option (Nat × Nat) :=
  match ss.find? fun x => decide (x > s.g PSQ_BUDGET_DEC) with
  | some x => some (s.g PSQ_BUDGET_DEC, x)
  | none =>
    if others + d > 100 * s.g PSQ_BUDGET_DRAM then some (100 * s.g PSQ_BUDGET_DRAM, others + d) else none

/-- SHEET_ADMISSION (R100, R113, R114): a fully verified sheet, its turn come in commit order. -/
def admission (c : Nat) (s : State) : State :=
  let u := s.ctxU c
  let st := ctxState s c
  let earlier := anyCtx s fun x =>
    decide ((s.ctxU x).seq < u.seq) && (ctxState s x == Px.loaded || ctxState s x == Px.verifying)
  if st = Px.verifying ∧ u.unverified = 0 ∧ u.failed = none ∧ earlier = false then
    let rate := s.g PSQ_SPEED_RATE
    let d := demandOf s u rate
    let ss := stnDemands s c rate
    match admitFail s ss d (s.g PSQ_DEMAND_MBS) with
    | some (b, x) => refuseCommit c Sts.admissionRate (b + x * 2 ^ 32) none s
    | none =>
      let s1 := s.modCtx c fun u => { u with demand := d, smax := maxN ss }
      completeCommit c Sts.ok c (psqSync (s1.p (PCTX_STATE_STATE c) Px.armed))
  else s

/-! ## Jobs (R102-R105) -/

/-- The source bytes of a job: given with it from host memory or a frame, or read from DRAM. -/
def jobSource (j : Job) (s : State) : List (Option Byte) × State :=
  match j.data with
  | some b => ((b.take j.srcLen).map some, s)
  | none => dramGet j.src j.srcLen s

/-- The source of a compression: bytes of uncorrectable bursts are free values (R392; assumption log 91). -/
def cmpSource (j : Job) (s : State) : List Byte × State :=
  match j.data with
  | some b => (b.take j.srcLen, s)
  | none => dramTake j.src j.srcLen s

/-- The read of a job's source in host memory, snooped unless the job marks it (R57); in recovery mode the source is read
twice (R102). -/
def jobRead (j : Job) (s : State) : State :=
  if j.data.isNone then s
  else
    let r := fun s : State => s.hostReads j.src j.srcLen (bitsOf j.flags 2 1 == 0)
    if j.mode = 1 then r (r s) else r s

/-- Put a job's output where it goes: host memory (flag bit 1) or DRAM. -/
def jobPut (j : Job) (bytes : List Byte) (s : State) : State :=
  if bytes.isEmpty then s
  else if bitsOf j.flags 1 1 = 1 then s.hostWrites j.dst bytes (bitsOf j.flags 3 1 == 0) else dramPut j.dst bytes s

/-- INFLATE_JOB_DONE (R98, R105). Output is written as it is decoded: a job that ends in an error leaves what it had
put out by then (DESIGN CHOICE, assumption log 44). -/
def inflateDone (n : Nat) (s : State) : State :=
  match bankGet none s.codec.vdec n with
  | some (.job j) =>
    let (bytes, s1) := jobSource j (jobRead j s)
    let s2 := vdecFree n s1
    match Inflate.job bytes j.srcLen j.dstLen with
    | .ok out => complete j.q j.cid 0x50 Sts.ok out.length (jobPut j out s2)
    | .overflow out => complete j.q j.cid 0x50 Sts.jobOverflow 0 (jobPut j out (s2.inc CODEC_VFAIL_COUNT))
    | .fail d out =>
      let s3 := ((s2.inc CODEC_VFAIL_COUNT).p (VDEC_STAT_KIND n) (Inflate.kindOf d)).p (VDEC_STAT_DETAIL n) d
      complete j.q j.cid 0x50 Sts.verifyFail (Inflate.kindOf d * 2 ^ 40) (jobPut j out s3)
  | _ => s

def execInflateJobDone (n : Fin 8) (s : State) : Host.Outcome State Fault Refusal :=
  .next (live (inflateDone n) s)

/-! ## The compressor -/

/-- REEF1 holds (R104): THM_TJ.REEF is 1 or more. -/
def reef1 (s : State) : Bool := decide (1 ≤ s.g THM_TJ_REEF)

def cmpSync (s : State) : State := s.p CMP_STAT_QUEUED (min 15 s.codec.cmpWait.length)

/-- CMP_JOB_START (R104): the next waiting job starts once no job runs and REEF1 does not hold. -/
def cmpStart (s : State) : State :=
  match s.codec.cmpRun, s.codec.cmpWait with
  | none, j :: r =>
    if reef1 s then s
    else
      let s1 := cmpSync { s with codec := { s.codec with cmpRun := some j, cmpWait := r } }
      (s1.pb CMP_STAT_BUSY true).p CMP_STAT_MODE j.mode
  | _, _ => s

def execCmpJobStart (s : State) : Host.Outcome State Fault Refusal := .next (live cmpStart s)

/-- A compression that would be the ninth to wait (R104); an idle compressor has taken the first that waits. -/
def cmpFull (s : State) : Bool := decide (8 ≤ (cmpStart s).codec.cmpWait.length)

/-- A compression takes its place in the compressor's queue, behind those an idle compressor has not yet begun. -/
def cmpEnqueue (j : Job) (s : State) : State :=
  let s1 := cmpStart s
  cmpSync { s1 with codec := { s1.codec with cmpWait := s1.codec.cmpWait ++ [j] } }

/-- CMP_PAUSE (R104): under REEF1 the running job stands after its current block. PAUSED is for a running job: a compressor
that REEF1 keeps from starting one does not show it (DESIGN CHOICE, assumption log 97). -/
def cmpPause (s : State) : State :=
  if reef1 s && s.codec.cmpRun.isSome then s.pb CMP_STAT_PAUSED true else s

def execCmpPause (s : State) : Host.Outcome State Fault Refusal := .next (live cmpPause s)

/-- A 64-bit byte counter in a register pair raised by `n`. -/
def add64 (lo hi : Fld) (n : Nat) (s : State) : State :=
  let v := s.g lo + s.g hi * 2 ^ 32 + n
  (s.p lo (v % 2 ^ 32)).p hi (v / 2 ^ 32)

/-- The job stream of a source (R102): DEFLATE data and the trailer. -/
def jobStream (mode : Nat) (src : List Byte) : List Byte :=
  Inflate.compressed mode src ++ leBytes 4 (crc32c src).toNat ++ leBytes 4 src.length

/-- How a compression ends (R103): its status and the bytes it has written by then. At each output byte NO_GAIN is
checked before JOB_OVERFLOW: the byte that would reach SRC_LEN, or exceed DST_LEN, is not written. -/
def cmpResult (j : Job) (src : List Byte) : Nat × List Byte :=
  let data := jobStream j.mode src
  if src.length ≤ data.length ∧ src.length ≤ j.dstLen + 1 then (Sts.noGain, data.take (src.length - 1))
  else if j.dstLen < data.length then (Sts.jobOverflow, data.take j.dstLen)
  else (Sts.ok, data)

/-- CMP_JOB_DONE (R102-R104, R74, R218): the job's bytes and its completion; an upload that does not shrink is then
written uncompressed. CMP_IN counts the whole source once (DESIGN CHOICE, assumption log 78). -/
def cmpDone (s : State) : State :=
  match s.codec.cmpRun with
  | none => s
  | some j =>
    if s.on CMP_STAT_PAUSED then s
    else
      let (src, s0) := cmpSource j (jobRead j s)
      let (st, out) := cmpResult j src
      let s1 := { s0 with codec := { s0.codec with cmpRun := none } }
      let s2 := (s1.pb CMP_STAT_BUSY false).p CMP_STAT_LAST st
      let s3 := add64 CMP_OUT_LO_BYTES CMP_OUT_HI_BYTES out.length (add64 CMP_IN_LO_BYTES CMP_IN_HI_BYTES src.length s2)
      let s4 := jobPut j out s3
      if j.op = 0x41 then
        if st = Sts.ok then complete j.q j.cid 0x41 Sts.ok (out.length + 2 ^ 31 + j.tag * 2 ^ 32) s4
        else if src.length ≤ j.dstLen then
          complete j.q j.cid 0x41 Sts.ok (src.length + j.tag * 2 ^ 32) (jobPut j src s4)
        else complete j.q j.cid 0x41 Sts.jobOverflow (j.tag * 2 ^ 32) s4
      else complete j.q j.cid 0x50 st (if st = Sts.ok then out.length else 0) s4

def execCmpJobDone (s : State) : Host.Outcome State Fault Refusal := .next (live cmpDone s)

end Sys2Proof.Machine
end

