-- ==== Sys2Proof/Machine/LinkTrain.lean ====
section
/-!
DEFINITION. Amonone link training and loss as shared operations, the flags of STNn_LSTAT, and the banks of the driver
(spec/08_amonone_link.md R185-R188, R195-R197, R202, R203).
-/

namespace Sys2Proof.Machine

open Reg

def modLink (n : Nat) (f : LinkU → LinkU) (s : State) : State := s.modStn n fun u => { u with link := f u.link }

/-- Happenings at a station that the part has. -/
def stnLive (n : Nat) (f : State → State) (s : State) : State := if n < s.part.stations then live f s else s

/-! ## Status flags -/

/-- GEOM_OK (R155): E and p of the active generation equal those of the scan unit. -/
def geomOk (s : State) (n : Nat) : Bool :=
  let g := (s.stnU n).active
  g.num != 0 && s.g (STN_DCAP1_E n) != 0 && s.g (STN_DCAP1_E n) == g.eCount && s.g (STN_DCAP1_PITCH n) == g.pitch

/-- BUF_OK (R187): two sweeps of the effective window of the commanded PASSES fit the buffer that the last valid CAPS
declares; before any CAPS it reads its reset value. -/
def bufOk (s : State) (n : Nat) : Bool :=
  let g := (s.stnU n).newest
  let p := cmdPasses s
  s.g (STN_DCAP1_E n) != 0 && decide (s.g (STN_DCAP2_BUF_BYTES n) ≥ (effWin g p).2 * p * g.width)

/-- RATE_OK (R188): a version is negotiated, and the commanded RATE passes the link's checks at it. -/
def rateOkAt (s : State) (n : Nat) : Bool :=
  let u := s.stnU n
  let p := cmdPasses s
  u.link.version != 0 && (cmdRate s == 0
    || legal188 u.link.version (s.g (STN_DCAP1_SOS n)) u.newest.width (cmdRate s) p (effWin u.newest p).2)

def linkOkSync (n : Nat) (s : State) : State :=
  let s1 := s.pb (STN_GEOM_GEOM_OK n) (geomOk s n)
  (s1.pb (STN_LSTAT_BUF_OK n) (bufOk s n)).pb (STN_LSTAT_RATE_OK n) (rateOkAt s n)

/-- Trained, for R27 (R185, R353): UP, lit, the three flags at 1, and PXPLLn locked. -/
def linkTrained (s : State) (n : Nat) : Bool :=
  linkState s n == Lk.up && s.on (STN_LSTAT_LIT n) && s.on (STN_GEOM_GEOM_OK n) && s.on (STN_LSTAT_BUF_OK n)
    && s.on (STN_LSTAT_RATE_OK n) && s.on (STN_PXCTL_LOCK n)

/-! ## Training -/

/-- Training starts at step 1 (R185, R203): blocks on the lanes end with DARK, and nothing learned in the last training
stands. -/
def linkStart (n : Nat) (s : State) : State :=
  let s1 := (sendDark n 2 s).p (STN_LSTAT_STATE n) Lk.prbs
  let s2 := modLink n (fun l =>
    { l with step := 1, agreed := false, version := 0, waiting := [], bankGen := [none, none], loading := none,
             noRetry := false, recent := [], unrep := 0, unreported := [], missed := [], lastSweep := none, sending := [] }) s1
  linkOkSync n (s2.p (STN_LSTAT_VERSION n) 0)

/-- A training attempt ends with a cause (R185, R186, R203): WAIT before the next, or DOWN after VERSION. -/
def linkFail (n cause : Nat) (s : State) : State :=
  let s1 := s.p (STN_LSTAT_CAUSE n) cause
  let s2 := s1.p (STN_LSTAT_STATE n) (if cause = 2 then Lk.down else Lk.wait)
  linkOkSync n (modLink n (fun l =>
    { l with step := 0, version := 0, waiting := [], fails := l.fails + 1, noRetry := cause == 2 }) s2)

/-- A link loss while UP (R202): the sheet spoiled, a CONTAINED fault naming the station, and retraining. -/
def linkLoss (n cause : Nat) (s : State) : State :=
  if linkState s n ≠ Lk.up then s
  else
    let e : ErrIn := { sev := 1, cls := 1, inst := n, code := 2, cell := cause, spoiled := spoiledBy Cause.linkLoss n s }
    let s1 := ((s.p (STN_LSTAT_CAUSE n) cause).pb (STN_LERR_LOSS n) true).inc (STN_LCOUNT_LOSSES n)
    let s2 := spoilAt Cause.linkLoss n (raise e s1)
    linkStart n (modLink n (fun l => { l with fails := 0 }) s2)

/-! ## Banks (R196) -/

/-- The code table of a generation: 4,369 x c until the first STATION_CFG (R189). -/
def codesOf (g : Gen) : List Nat := (List.range 16).map fun c => if g.codeTbl.isEmpty then 4369 * c else g.codeTbl.getD c 0

/-- Send the CODE_TABLE and EMITTER_DRIVE of a generation to a bank (R195). -/
def sendBank (n bank : Nat) (g : Gen) (s : State) : State :=
  let codes := (codesOf g).flatMap (leBytes 2)
  let drive := (List.range 40).flatMap fun e =>
    leBytes 4 (if (g.em e).boost = 0 then 0x40000 else (g.em e).boost)
  sendControl n 0x13 bank drive (sendControl n 0x12 bank codes s)

/-- LIGHT may be sent (R197): the engine WARMUP to DRAINING and no hard stop in force. -/
def lightAllowed (s : State) : Bool := s.running && !s.psq.stopInForce

/-- On entry to WARMUP, LIGHT goes to every link that is UP, or in step 5 of training, and not lit (R185, R197). -/
def lightAll (s : State) : State :=
  overN 8 (fun n s =>
    if (linkState s n = Lk.up ∨ linkState s n = Lk.load) ∧ s.on (STN_LSTAT_LIT n) = false ∧ lightAllowed s
        ∧ (s.stnU n).link.waiting.all (fun c => c.ty != 0x14) then sendControl n 0x14 0 [] s else s) s

/-- The driver bank that holds a generation, by its place in the order of acceptance, the one in use first. -/
def bankOf (s : State) (n id : Nat) : Option Nat :=
  let l := (s.stnU n).link
  let b := s.g (STN_LSTAT_BANK n)
  [b, 1 - b].find? fun k => l.bankGen.getD k none == some id

/-- The generation of station `n` that a context carries: a held one. -/
def carriedGen (s : State) (n c : Nat) : Option Gen :=
  (s.stnU n).held.find? fun g => g.num == (s.ctxU c).gen.getD n 0

end Sys2Proof.Machine
end

