-- ==== Sys2Proof/Machine/Station.lean ====
section
/-!
DEFINITION. Station generations: numbering, holding, activation and reloads, the tables in BAR0, emitter wear and boost
(spec/06_station_pipeline.md R132, R133, R138, R149, R152; spec/07_emitters_scan.md R164, R165, R172, R174).
-/

namespace Sys2Proof.Machine

open Reg

/-! ## What the registers show of the active generation -/

/-- PASSES in force at a station: of the sheet that occupies it, else the commanded. -/
def stnPasses (s : State) (n : Nat) : Nat :=
  if s.on (STN_STAT_OCCUPIED n) then (s.ctxU (s.g (STN_STAT_CONTEXT n))).passes else cmdPasses s

/-- STNn_WIN and the window fields of STNn_EMk. -/
def winSync (n : Nat) (s : State) : State :=
  let g := (s.stnU n).active
  let p := stnPasses s n
  let w := effWin g p
  let top := if w.2 = 0 then 0 else w.1 + w.2 * p - 1
  let s1 := ((s.pb (STN_WIN_RERIG n) (w.2 != 0 && w != winOf g p)).p (STN_WIN_ETOP n) top).p (STN_WIN_PASSES n) (passCode p)
  let s2 := (s1.p (STN_WIN_A n) w.2).p (STN_WIN_W0 n) w.1
  overN 40 (fun e s =>
    let inw := decide (w.1 ≤ e ∧ e < w.1 + w.2 * p)
    (s.pb (STN_EM_IN_WINDOW n e) inw).p (STN_EM_PASS n e) (if inw then (e - w.1) / w.2 else 0)) s2

/-- The states of STNn_EMk, from the active generation's emitter table. -/
def emSync (n : Nat) (s : State) : State :=
  let g := (s.stnU n).active
  overN 40 (fun e s =>
    let m := g.em e
    ((s.p (STN_EM_HANDLING n e) m.hand).p (STN_EM_STATE n e) m.st).p (STN_EM_BOOST n e) m.boost) s

/-- Wear used by an emitter, ns, and its remaining budget in the active generation, s (R172). -/
def wearNs (u : Stn) (e : Nat) : Nat := bankGet 0 u.wear e / 1000000
def wearRem (u : Stn) (e : Nat) : Nat := (u.active.wear * 1000000000 - wearNs u e) / 1000000000

/-- STNn_WUSEDk and STNn_WREMk. -/
def wearSync (n : Nat) (s : State) : State :=
  let u := s.stnU n
  overN 40 (fun e s =>
    (s.p (STN_WUSED_SECONDS n e) (min 0xFFFFFFFF (wearNs u e / 1000000000))).p (STN_WREM_SECONDS n e) (wearRem u e)) s

/-- Reach of a generation for the largest of its contone resolutions checked (R135). -/
def reachMax (g : Gen) (bow : List Int) : Nat :=
  let r := reachOf g (minI bow) (maxI bow) 600
  if g.ctMax = 1 then max r (reachOf g (minI bow) (maxI bow) 1200) else r

/-- Tables of the scan fields, from the active generation where they differ from `old` (R154). -/
def scanTables (n : Nat) (old : Gen) (s : State) : State :=
  let g := (s.stnU n).active
  let s1 := if g.mask = old.mask then s
    else overN 6 (fun t s => overN 32 (fun r s => s.p (STN_MASK_BITS n t r) (g.mask.getD (32 * t + r) 0)) s) s
  let s2 := if g.fill = old.fill then s1
    else overN 4096 (fun i s => s.p (STN_FILL_FILL n i) (g.fill.getD i 0x40000)) s1
  if g.facet = old.facet then s2
  else overN 12 (fun f s =>
    let (st, ga) := g.facet.getD f (0, 0x40000)
    (s.pz (STN_FACET_FSTART n f) st).p (STN_FGAIN_FGAIN n f) ga) s2

/-- The registers that show the active generation's fields. -/
def genRegs (n : Nat) (s : State) : State :=
  let g := (s.stnU n).active
  let s1 := ((s.pb (STN_PCFG_ENABLED n) g.enable).p (STN_PCFG_PROC_RES n) g.procRes).pb (STN_PCFG_MIRROR n) g.mirror
  let s2 := ((s1.p (STN_PCFG_CT_MAX n) g.ctMax).p (STN_PCFG_SCREEN n) g.screen).p (STN_PCFG_WIDTH n) g.width
  let s3 := ((s2.p (STN_SEG_NSEG n) (segCount g)).p (STN_SEG_SEGW n) g.segw).p (STN_TAGLVL_TAGLVL n) g.tagLvl
  let s4 := s3.setReg (STN_SCRSIZE n) (BitVec.ofNat 32 g.scrSize)
  let bow := (bowActive s4 n).take (segCount g)
  let s5 := (s4.p (STN_LBCAP_CAPL n) (min 65535 (caplOf (s4.g (STN_LBBYTES_BYTES n)) g))).p (STN_LBCAP_REACH n)
    (min 65535 (reachMax g bow))
  let s6 := ((s5.p (STN_GEOM_FACETS n) g.facets).p (STN_GEOM_PITCH n) g.pitch).p (STN_GEOM_OVERLAP_OK n) (g.flags % 2)
  linkOkSync n (wearSync n (emSync n (winSync n (s6.p (STN_GEOM_E_COUNT n) g.eCount))))

/-! ## Generations held (R133) -/

/-- A context unfinished at station `n`: fed, before delivery, its part at the station not over. -/
def unfinishedAt (s : State) (n c : Nat) : Bool :=
  let st := ctxState s c
  (st == Px.feeding || st == Px.inPath || st == Px.imaging || (st == Px.spoiled && !s.on (PCTX_STATE_AT_DELIV c)))
    && inMask s c n && bitsOf (s.g (PCTX_STATE_STN_DONE c)) n 1 == 0

/-- A context that carries a generation of station `n` and is unfinished there. -/
def carried (s : State) (n num : Nat) : Bool :=
  (ctxKeys s).any fun c => unfinishedAt s n c && (s.ctxU c).gen.getD n 0 == num

/-- STNn_CFGSTAT. -/
def cfgStat (n : Nat) (s : State) : State :=
  let u := s.stnU n
  let s1 := (s.p (STN_CFGSTAT_HELD n) u.held.length).p (STN_CFGSTAT_OLDEST n) ((u.held.head?.map (·.num)).getD 0)
  (s1.p (STN_CFGSTAT_NEWEST n) u.newest.num).p (STN_CFGSTAT_ACTIVE n) u.active.num

/-- Generations no longer held: older than the active one and carried by no unfinished context. -/
def dropHeld (n : Nat) (s : State) : State :=
  let u := s.stnU n
  let older := (u.held.takeWhile fun g => g.num != u.active.num)
  if u.held.any (fun g => g.num == u.active.num) then
    let keep := older.filter fun g => carried s n g.num
    cfgStat n (s.modStn n fun v => { v with held := keep ++ u.held.drop older.length })
  else cfgStat n s

/-- The number after `k` that no held generation bears: 1 to 255, then 1. -/
def nextNum (held : List Gen) (k : Nat) : Nat :=
  match (List.range 255).find? fun i => !(held.any fun g => g.num == (k + i) % 255 + 1) with
  | some i => (k + i) % 255 + 1
  | none => k % 255 + 1

/-- The oldest context due at a station: fed, not SPOILED, its part there not over (R149). -/
def dueCtx (s : State) (n : Nat) : Option Nat :=
  oldest s fun c =>
    let st := ctxState s c
    (st == Px.feeding || st == Px.inPath || st == Px.imaging) && inMask s c n
      && bitsOf (s.g (PCTX_STATE_STN_DONE c)) n 1 == 0 && bitsOf (s.ctxU c).trigd n 1 == 0

/-- The generation the station goes to: that of the next sheet due, else the newest (R149). -/
def targetNum (s : State) (n : Nat) : Nat :=
  match dueCtx s n with
  | some c => (s.ctxU c).gen.getD n 0
  | none => (s.stnU n).newest.num

/-- The generation that follows the active one in order of acceptance. -/
def nextGen (u : Stn) : Option Gen :=
  if u.held.any (fun g => g.num == u.active.num) then ((u.held.dropWhile fun g => g.num != u.active.num).drop 1).head?
  else u.held.head?

/-- A generation becomes active (R149): its fields, tables and flags; the pixel clock follows its PXPF (R162), and a
link whose chosen version its AL range excludes is retrained (R203). A change of PXPF alone relocks the PLL here, between
sheets (DESIGN CHOICE, assumption log 97). -/
def activate (n : Nat) (g : Gen) (s : State) : State :=
  let old := (s.stnU n).active
  let s1 := s.modStn n fun u => { u with active := g }
  let s2 := dropHeld n (genRegs n (scanTables n old s1))
  let (rate, a) := bankGet (0, 0) s2.psq.sweeps n
  let s3 := if g.pxpf ≠ old.pxpf then pxRetune n g.pxpf rate a s2 else s2
  let v := (s3.stnU n).link.version
  if v ≠ 0 ∧ (v < g.alMin ∨ g.alMax < v) then linkStart n s3 else s3

/-- Generations that load nothing become active at once, in order, while the station is not occupied (R149). -/
def activateFuel : Nat → Nat → State → State
  | 0, _, s => s
  | k + 1, n, s =>
    let u := s.stnU n
    if s.on (STN_STAT_OCCUPIED n) ∨ u.reloadFor.isSome ∨ targetNum s n = u.active.num then s
    else match nextGen u with
      | some g => if g.load = 0 then activateFuel k n (activate n g s) else s
      | none => s

def activateTry (n : Nat) (s : State) : State := activateFuel 17 n s

/-- A generation becomes newest: the speeds of WARMUP follow a changed window or enabling (R454), and a link that waits
for another AL range trains (R186). -/
def addGen (n : Nat) (g : Gen) (s : State) : State :=
  let s := noteChange s
  let u := s.stnU n
  let g' := { g with num := nextNum u.held u.newest.num, id := u.newest.id + 1 }
  let s1 := s.modStn n fun v => { v with held := v.held ++ [g'], newest := g' }
  let s2 := linkOkSync n (cfgStat n s1)
  let p := cmdPasses s
  let s3 := if g'.enable ≠ u.newest.enable ∨ effWin g' p ≠ effWin u.newest p then warmupSpeeds s2 else s2
  let s4 := if u.link.noRetry ∧ !s3.on (STN_LCTRL_DOWN n) ∧ (g'.alMin ≠ u.newest.alMin ∨ g'.alMax ≠ u.newest.alMax) then
      linkStart n s3
    else s3
  activateTry n s4

/-- A boost that ended and waits for a free generation makes it, as an EMITTER_SET with BOOST 0 would (R165, R174). -/
def boostGen (n e : Nat) (s : State) : State :=
  let u := s.stnU n
  if u.held.length ≥ 16 then s
  else
    let em := (u.newest.emit ++ List.replicate (40 - u.newest.emit.length) ({} : Emit))
    let g := { u.newest with load := 0, emit := em.set e { em.getD e {} with boost := 0 } }
    wearSave n (addGen n g (s.modStn n fun v => { v with boostEnd := v.boostEnd.erase e }))

/-- Every boost that ended and waits, while generations are free. -/
def boostGens (n : Nat) (s : State) : State := (s.stnU n).boostEnd.foldl (fun s e => boostGen n e s) s

/-- A context leaves a station, or is fed: what the station holds, and goes to, follows. -/
def stnSettle (n : Nat) (s : State) : State := boostGens n (activateTry n (dropHeld n s))

def stnSettleAll (s : State) : State := overN 8 stnSettle s

/-! ## Reloads (R149) -/

/-- RELOAD_START: an unoccupied station reads the tables of the generation that follows the active one. -/
def reloadStart (n : Nat) (s : State) : State :=
  let u := s.stnU n
  if s.on (STN_STAT_OCCUPIED n) ∨ u.reloadFor.isSome ∨ targetNum s n = u.active.num then s
  else match nextGen u with
    | some g => (s.modStn n fun v => { v with reloadFor := some g.num }).pb (STN_CFGSTAT_RELOADING n) true
    | none => s

def execReloadStart (n : Fin 8) (s : State) : Host.Outcome State Fault Refusal :=
  .next (stnLive n (reloadStart n) s)

/-- The table words that a reload puts in place: correction cells, bow, screen arrays (R132). -/
def loadCells (n : Nat) (ws : List Nat) (s : State) : State :=
  (List.range 4096).foldl (fun s i =>
    overN 40 (fun e s => s.p (STN_CELL_GAIN n i e) (ws.getD (40 * i + e) 0 % 2 ^ 20)) s) s

/-- A bow entry; its upper bits read as its sign. -/
def loadBow (n : Nat) (bs : List Byte) (s : State) : State :=
  overN 4096 (fun i s => s.p (STN_BOW_BOW n i) (bs.getD i 0).toNat) s

def loadScreen (n a scrSize : Nat) (ws : List Nat) (s : State) : State :=
  let w := 2 ^ bitsOf scrSize (8 * a) 4
  let h := 2 ^ bitsOf scrSize (8 * a + 4) 4
  s.modStn n fun u =>
    { u with scr := (List.range h).foldl (fun b y => (List.range w).foldl (fun b x =>
        bankPut 0x80000 (a * 65536 + 256 * y + x) (ws.getD (y * w + x) 0 % 2 ^ 20) b) b) u.scr }

/-- Read every table whose LOAD bit is set. -/
def loadTables (n : Nat) (g : Gen) (s : State) : State :=
  let s1 := if bitsOf g.load 0 1 = 1 then
      let r := dramTake g.cells 655360 s
      loadCells n (words32 r.1 163840) r.2
    else s
  let s2 := if bitsOf g.load 1 1 = 1 then
      let r := dramTake g.bow 4096 s1
      loadBow n r.1 r.2
    else s1
  (List.range 4).foldl (fun s a =>
    if bitsOf g.load (2 + a) 1 = 1 then
      let r := dramTake (g.scr.getD a 0) (4 * scrEntries g.scrSize a) s
      loadScreen n a g.scrSize (words32 r.1 (scrEntries g.scrSize a)) r.2
    else s) s2

/-- RELOAD_DONE: the generation becomes active. -/
def reloadDone (n ns : Nat) (s : State) : State :=
  let u := s.stnU n
  match u.reloadFor with
  | none => s
  | some num =>
    let s1 := (s.modStn n fun v => { v with reloadFor := none }).pb (STN_CFGSTAT_RELOADING n) false
    let s2 := s1.p (STN_RELOAD_NS n) (min 0xFFFFFFFF ns)
    match u.held.find? fun g => g.num == num with
    | some g => boostGens n (activateTry n (activate n g (loadTables n g s2)))
    | none => s2

def execReloadDone (n : Fin 8) (ns : Nat) (s : State) : Host.Outcome State Fault Refusal :=
  .next (stnLive n (reloadDone n ns) s)

/-! ## Tables in BAR0 (R138) -/

/-- The station and the place in its space of an offset. -/
def stnOf (off : Nat) : Nat := (off - 0x1000000) / 0x100000
def stnOff (off : Nat) : Nat := (off - 0x1000000) % 0x100000

/-- A write to the bow, cell or screen table: only while the station is disabled and not reloading. -/
def tableWrite (off : Nat) (v : Word) (s : State) : State :=
  let n := stnOf off
  let o := stnOff off
  if off < 0x1000000 ∨ 8 ≤ n then s
  else
    let ok := !s.on (STN_PCFG_ENABLED n) && (s.stnU n).reloadFor.isNone
    let ign := s.pb (STN_STAT_TBL_IGN n) true
    if 0x4000 ≤ o ∧ o < 0x8000 then
      if ok then
        let i := (o - 0x4000) / 4
        let b := v.toNat % 256
        let s1 := if b = 0x80 then s.pb (STN_STAT_BOW_CLAMP n) true else s
        s1.p (STN_BOW_BOW n i) (if b = 0x80 then 0x81 else b)
      else ign
    else if 0x10000 ≤ o ∧ o < 0xB0000 then
      if ok then
        let i := (o - 0x10000) / 4
        s.p (STN_CELL_GAIN n (i / 40) (i % 40)) (v.toNat % 2 ^ 20)
      else ign
    else if 0xC0000 ≤ o then
      if ok then
        let i := s.g (STN_SCRSEL_ARRAY n) * 65536 + (o - 0xC0000) / 4
        s.modStn n fun u => { u with scr := bankPut 0x80000 i (v.toNat % 2 ^ 20) u.scr }
      else ign
    else s

def execTableWrite (off : BitVec 26) (v : Word) (s : State) : Host.Outcome State Fault Refusal :=
  .next (hostAt off.toNat (tableWrite off.toNat v) s)

/-- What the screen window reads (STNn_SCR). -/
def screenWord (s : State) (off : Nat) : Nat :=
  let n := stnOf off
  bankGet 0x80000 (s.stnU n).scr (s.g (STN_SCRSEL_ARRAY n) * 65536 + (stnOff off - 0xC0000) / 4)

/-! ## Wear and boost (R165, R172, R174) -/

def execWearNvmWrite (n : Fin 8) (s : State) : Host.Outcome State Fault Refusal :=
  .next (stnLive n (wearSave n) s)

/-- BOOST_END: the budget of a boosted emitter of the newest generation has reached 0. -/
def boostEnd (n e : Nat) (s : State) : State :=
  let u := s.stnU n
  if (u.newest.em e).boost ≠ 0 ∧ wearRem u e = 0 ∧ u.boostEnd.contains e = false then
    let s1 := corrected 1 n 5 e (s.pb (STN_ESTAT_BOOST_END n) true)
    boostGens n (s1.modStn n fun v => { v with boostEnd := v.boostEnd ++ [e] })
  else s

def execBoostEnd (n : Fin 8) (em : Fin 40) (s : State) : Host.Outcome State Fault Refusal :=
  .next (stnLive n (boostEnd n em) s)

/-- A scan unit of another serial (R165): every state LIVE, every account zero; a change is flagged and recorded. The
first serial a station ever sees is no change: states and accounts stand (DESIGN CHOICE, assumption log 53). -/
def serialSeen (n serial : Nat) (s : State) : State :=
  let u := s.stnU n
  let s1 := s.p (STN_DSERIAL_SERIAL n) serial
  if u.serial = serial then s1
  else if u.serial = 0 then wearSave n (s1.modStn n fun v => { v with serial := serial })
  else
    let clear := fun (g : Gen) => { g with emit := [] }
    let s2 := s1.modStn n fun v =>
      { v with serial := serial, health := 0, wear := [], boostEnd := [], active := clear v.active, newest := clear v.newest, held := v.held.map clear }
    let s3 := wearSave n (genRegs n s2)
    corrected 1 n 3 0xFFFF (s3.pb (STN_ESTAT_WEAR_RESET n) true)

end Sys2Proof.Machine
end

