-- ==== Sys2Proof/Machine/Pixel.lean ====
section
/-!
DEFINITION. What a station computes for each emitter-pixel: the lines of its lead buffer, scaling, merge, bow, gain,
fill, screening and pass masks, and the lead level (spec/06_station_pipeline.md R131, R140-R147;
spec/07_emitters_scan.md R156, R158, R167, R168).
-/

namespace Sys2Proof.Machine

open Reg

/-! ## Lead buffer -/

/-- First line of a band in the plane's own lines (R89). -/
def bandFirst (p : Plane) (tbl k : Nat) : Nat :=
  if p.kind = 2 then 4 * k * bandHeight p else if tbl = 0 then k * bandHeight p else k * bandHeight p * qOf p

def strideOf (p : Plane) (tbl : Nat) : Nat := if tbl = 0 then wcOf p else p.width / 8

/-- The band of a table that holds a line. -/
def bandOfLine (p : Plane) (tbl i : Nat) : Nat :=
  if p.kind = 2 then i / (4 * bandHeight p) else if tbl = 0 then i / bandHeight p else i / (bandHeight p * qOf p)

/-- Lines of a band that are in the lead buffer: those placed, or those written by its decoder. -/
def linesIn (u : Stn) (b : BandId) (all : Nat) : Nat :=
  match u.lead.find? fun l => l.b == b with
  | some l => if l.stride = 0 then all else min all (l.bytes.length / l.stride)
  | none => match u.dec.find? fun d => d.2.any fun x => x.b == b with
    | some (_, some d) => d.got
    | _ => 0

/-- Lines of a table available without a gap from band `k` up; the fuel bounds the bands. -/
def availFrom (u : Stn) (c n : Nat) (p : Plane) (lines tbl : Nat) : Nat → Nat → Nat
  | 0, k => bandFirst p tbl k
  | f + 1, k =>
    let all := bandLines p lines tbl k
    let got := linesIn u ⟨c, n, tbl, k⟩ all
    if all ≠ 0 ∧ got = all then availFrom u c n p lines tbl f (k + 1) else bandFirst p tbl k + got

/-- Process lines for which the contone lines below `a` hold every line that scaling reads (R143). -/
def ctReady (p : Plane) (lines a : Nat) : Nat :=
  let q := qOf p
  if a ≥ ceilDiv lines q then lines else if a = 0 then 0 else if q = 1 then a else q * (a - 1) + q / 2

/-- The first contone line that process line `y` reads. -/
def ctFirst (p : Plane) (y : Nat) : Nat := (2 * y + 1 - qOf p) / (2 * qOf p)

/-- Process lines of a sheet ready without a gap from line `freed` (R140, R142): TOP + 1. -/
def readyTo (s : State) (n c freed : Nat) : Nat :=
  let x := s.ctxU c
  let u := s.stnU n
  let p := x.planes.getD n {}
  let cf := ctFirst p freed
  let ct := ctReady p x.lines (availFrom u c n p x.lines 0 (bandCount p x.lines + 1) (bandOfLine p 0 cf))
  let tg := availFrom u c n p x.lines 1 (bandCount p x.lines + 1) (bandOfLine p 1 freed)
  min x.lines (if p.kind = 0 then min ct tg else if p.kind = 1 then ct else tg)

/-- A byte of a line in the lead buffer. -/
def leadByte (u : Stn) (b : BandId) (first stride i j : Nat) : Nat :=
  match u.lead.find? fun l => l.b == b with
  | some l => (l.bytes.getD ((i - l.first) * l.stride + j) 0).toNat
  | none => match u.dec.find? fun d => d.2.any fun x => x.b == b with
    | some (_, some d) => (d.bytes.getD ((i - first) * stride + j) 0).toNat
    | _ => 0

/-- What production of a sheet at a station reads. -/
structure View where
  u : Stn
  g : Gen
  n : Nat
  c : Nat
  p : Plane
  lines : Nat
  ofs : Int
  passes : Nat
  win : Nat × Nat
  base : Int

/-- Byte `j` of line `i` of a table of the sheet. -/
def View.byte (v : View) (tbl i j : Nat) : Nat :=
  let k := bandOfLine v.p tbl i
  leadByte v.u ⟨v.c, v.n, tbl, k⟩ (bandFirst v.p tbl k) (strideOf v.p tbl) i j

/-! ## Scaling and merge (R143, R144) -/

def clampN (i : Int) (hi : Nat) : Nat := if i < 0 then 0 else min i.toNat hi

/-- V of image pixel (y, x) from the contone plane. -/
def View.scale (v : View) (y x : Nat) : Nat :=
  let q := qOf v.p
  let r := if v.p.ctRes = 0 then 4 else 2
  let lc := ceilDiv v.lines q - 1
  let wc := wcOf v.p - 1
  -- u and w in 1/(2 q) and 1/(2 r); fractions in eighths
  let un : Int := 2 * y + 1 - q
  let wn : Int := 2 * x + 1 - r
  let i0 := un / (2 * q)
  let j0 := wn / (2 * r)
  let a := ((un - i0 * (2 * q)) * 8 / (2 * q)).toNat
  let c := ((wn - j0 * (2 * r)) * 8 / (2 * r)).toNat
  let at_ := fun (i j : Int) => v.byte 0 (clampN i lc) (clampN j wc)
  let sum := (8 - a) * (8 - c) * at_ i0 j0 + (8 - a) * c * at_ i0 (j0 + 1)
    + a * (8 - c) * at_ (i0 + 1) j0 + a * c * at_ (i0 + 1) (j0 + 1)
  (2 * 262144 * sum + 16320) / (2 * 16320)

/-- The tag or pre-screened bit of image pixel (y, x) (R93). -/
def View.tag (v : View) (y x : Nat) : Bool := bitsOf (v.byte 1 y (x / 8)) (7 - x % 8) 1 == 1

/-- V and the tagged flag. -/
def View.merge (v : View) (y x : Nat) : Nat × Bool :=
  if v.p.kind = 1 then (v.scale y x, false)
  else if v.p.kind = 2 then (if v.tag y x then (v.g.tagLvl, true) else (0, false))
  else if v.tag y x then (v.g.tagLvl, true) else (v.scale y x, false)

/-! ## Emitters, masks and fill -/

/-- The emitter of pass `t` that writes line `l`: the one of the pass with L - base a multiple of p modulo A (R156). -/
def View.writer (v : View) (l : Int) (t : Nat) : Option Nat :=
  let a := v.win.2
  ((List.range a).map fun i => v.win.1 + t * a + i).find? fun e =>
    decide ((l - v.base - ((e * v.g.pitch : Nat) : Int)) % (a : Int) = 0)

/-- The mask bit of a pass at (L, X); every bit is 1 with one pass (R158). -/
def View.maskBit (v : View) (t : Nat) (l : Int) (x : Nat) : Bool :=
  if v.passes = 1 then true
  else
    let tile := if v.passes = 2 then t else 2 + t
    bitsOf (v.g.mask.getD (32 * tile + (l % 32).toNat) 0) (x % 32) 1 == 1

/-- Line `l` is written by a fill-handled DEAD emitter of the window. -/
def View.missing (v : View) (l : Int) : Bool :=
  (fillDead v.g v.win v.passes).any fun d => decide ((l - v.base - ((d * v.g.pitch : Nat) : Int)) % (v.win.2 : Int) = 0)

/-- Line `l` takes the fill gain (R168). -/
def View.filled (v : View) (l : Int) : Bool := !v.missing l && (v.missing (l - 1) || v.missing (l + 1))

/-- Gain of Q2.18, halves up, at most 1.0 (R146). -/
def gainQ (v g : Nat) : Nat := min 0x40000 ((2 * v * g + 262144) / 524288)

/-- The 4-bit code of emitter `e` at scan position `x` of output line `l` (R131, R145-R147, R158, R167). -/
def View.code (s : State) (v : View) (e : Nat) (l : Int) (x : Nat) : Nat :=
  let pass := if v.win.2 = 0 then 0 else (e - v.win.1) / v.win.2
  let xi : Int := if v.g.mirror then (v.g.width : Int) - 1 - x + v.ofs else (x : Int) - v.ofs
  let seg := x / max 1 v.g.segw
  let y := l - sext 8 (s.g (STN_BOW_BOW v.n seg))
  if l < 0 ∨ (v.lines : Int) ≤ l ∨ isDead (v.g.em e) ∨ v.maskBit pass l x = false
      ∨ xi < 0 ∨ (v.g.width : Int) ≤ xi ∨ y < 0 ∨ (v.lines : Int) ≤ y then 0
  else
    let ix := xi.toNat
    let iy := y.toNat
    let (v0, tagged) := v.merge iy ix
    let ge := match (List.range v.passes).find? fun t => v.maskBit t l x with
      | some t => (v.writer l t).getD e
      | none => e
    let v1 := gainQ v0 (s.g (STN_CELL_GAIN v.n seg ge))
    let v2 := if v.filled l then gainQ v1 (v.g.fill.getD seg 0x40000) else v1
    if tagged then (60 * v2 + 0x80000) / 2 ^ 20
    else
      let w := 2 ^ bitsOf v.g.scrSize (8 * v.g.screen) 4
      let h := 2 ^ bitsOf v.g.scrSize (8 * v.g.screen + 4) 4
      let t := bankGet 0x80000 v.u.scr (v.g.screen * 65536 + 256 * (iy % h) + ix % w)
      (60 * v2 + t) / 2 ^ 20

/-- The codes of emitter `e` for the sweep: one per scan position (R148). -/
def View.line (s : State) (v : View) (e : Nat) : List Nat :=
  let l := v.base + ((e * v.g.pitch : Nat) : Int)
  if l < 0 ∨ (v.lines : Int) ≤ l then List.replicate v.g.width 0
  else (List.range v.g.width).map (View.code s v e l)

end Sys2Proof.Machine
end

