-- ==== Sys2Proof/Machine/Sweep.lean ====
section
/-!
DEFINITION. Station decoders and the lead buffer, BDn edges and the sweeps they produce and send (spec/04 R101; spec/06
R140-R142, R148, R151; spec/07 R156-R163, R170, R172; spec/08 R190-R192).
-/

namespace Sys2Proof.Machine

open Reg

/-! ## Positions -/

/-- The front less a position, modulo 2^48 over half that range (R117). -/
def aheadOf (front at_ : Nat) : Int := sext 48 ((front + 2 ^ 48 - at_ % 2 ^ 48) % 2 ^ 48)

/-- The front has reached or passed a position. -/
def crossed (s : State) (at_ : Nat) : Bool := decide (0 ≤ aheadOf s.psq.front at_)

/-- A position moved by a signed count. -/
def posAdd (at_ : Nat) (d : Int) : Nat := unsext 48 ((at_ : Int) + d)

/-- A context's origin. -/
def originOf (s : State) (c : Nat) : Nat := s.g (PCTX_ORG_LO_ORIGIN c) + s.g (PCTX_ORG_HI_ORIGIN c) * 2 ^ 32

/-- T_n of a context (R123). -/
def trigAt (s : State) (c n : Nat) : Nat :=
  let u := s.ctxU c
  posAdd (originOf s c) (s.g (PSQ_STN_TRIG_COUNTS n) + countsOf s u.trim (u.lineOfs.getD n 0))

/-- span of a generation, lines (R123). -/
def spanOf (g : Gen) : Nat := (g.eCount - 1) * g.pitch + 1

/-- The front position at which a sheet's part at a station ends. -/
def endAt (s : State) (c n : Nat) : Nat :=
  let u := s.ctxU c
  let g := (s.stnU n).held.find? fun g => g.num == u.gen.getD n 0
  posAdd (trigAt s c n) (countsUp s u.trim (u.lines + spanOf (g.getD (s.stnU n).active)))

/-! ## Lead level (R142) -/

def bowUse (s : State) (n : Nat) : List Int := (bowActive s n).take (segCount (s.stnU n).active)

def stnLevel (n : Nat) (v : Int) (s : State) : State :=
  let v := clampI (-32768) 32767 v
  let u := s.stnU n
  let low := min u.lowLevel v
  let s1 := s.modStn n fun w => { w with lowLevel := low, lowQuery := min w.lowQuery v }
  (s1.pz (STN_LEVEL_LEVEL n) v).pz (STN_LEVEL_LOW n) low

/-- The lead level of a sweep of base `base`. -/
def leadFor (s : State) (n c : Nat) (base : Int) : Int :=
  let x := s.ctxU c
  let u := s.stnU n
  let w := effWin u.active x.passes
  let top : Int := (w.1 + w.2 * x.passes - 1 : Nat)
  let freed := ((u.fetch.find? fun f => f.ctx == c).map (·.freed)).getD 0
  let need := min ((x.lines : Int) - 1) (base + top * u.active.pitch - minI (bowUse s n))
  (readyTo s n c freed : Int) - 1 - need

/-- STNn_LEVEL: of the next sweep of the sheet in production, while it is to have data; until a sheet's first sweep, and
at a station that none occupies, the lines ready of the next sheet. -/
def levelSync (n : Nat) (s : State) : State :=
  let u := s.stnU n
  let c := s.g (STN_STAT_CONTEXT n)
  if s.on (STN_STAT_OCCUPIED n) ∧ (u.dark ∨ u.finished) then s
  else if s.on (STN_STAT_OCCUPIED n) ∧ u.started then
    stnLevel n (leadFor s n c (u.base + (effWin u.active (s.ctxU c).passes).2)) s
  else match u.fetch.head? with
    | some f => stnLevel n (readyTo s n f.ctx f.freed) s
    | none => stnLevel n 0 s

/-! ## Station decoders (R101, R140, R141) -/

/-- Ring capacity in lines: of the active generation, or of the newest while none has been active. -/
def ringCap (s : State) (n : Nat) : Nat :=
  let u := s.stnU n
  caplOf (s.g (STN_LBBYTES_BYTES n)) (if u.active.num = 0 then u.newest else u.active)

/-- The process line up to which a sheet has bands of a table placed or in decoders. -/
def takenTo (s : State) (n c tbl : Nat) : Nat :=
  let x := s.ctxU c
  let p := x.planes.getD n {}
  let q := if tbl = 0 then qOf p else 1
  let mine := fun b : BandId => b.ctx == c && b.tbl == tbl
  let u := s.stnU n
  let placed := (u.lead.filter fun l => mine l.b).map fun l => l.first + l.bytes.length / max 1 l.stride
  let busy := (u.dec.filterMap (·.2)).filter (fun d => mine d.b) |>.map fun d =>
    bandFirst p tbl d.b.idx + bandLines p x.lines tbl d.b.idx
  min x.lines (q * maxN (placed ++ busy))

/-- The process line below which a sheet's lines of a table are freed: no contone line that scaling still reads (R140). -/
def freedTo (s : State) (n tbl : Nat) (f : Fetch) : Nat :=
  let x := s.ctxU f.ctx
  let p := x.planes.getD n {}
  if x.lines ≤ f.freed then x.lines else if tbl = 0 then qOf p * ctFirst p f.freed else f.freed

/-- The line up to which a sheet's lines fit the ring of a table, behind those of the sheets before it (R140). -/
def ringLimit (s : State) (n c tbl : Nat) : Nat :=
  let u := s.stnU n
  let before := u.fetch.takeWhile fun f => f.ctx != c
  let used := sumN (before.map fun f => takenTo s n f.ctx tbl - freedTo s n tbl f)
  let freed := ((u.fetch.find? fun f => f.ctx == c).map (freedTo s n tbl)).getD 0
  freed + (ringCap s n - used)

/-- Lines of a band that its ring has room for. -/
def ringRoom (s : State) (n : Nat) (b : BandId) : Nat :=
  let x := s.ctxU b.ctx
  let p := x.planes.getD b.stn {}
  let all := bandLines p x.lines b.tbl b.idx
  let first := bandFirst p b.tbl b.idx
  let q := if b.tbl = 0 then qOf p else 1
  let lim := ringLimit s n b.ctx b.tbl
  if min x.lines (q * (first + all)) ≤ lim then all else min all (lim / q - first)

def execStationBandStart (n : Fin 8) (k : Fin 4) (s : State) : Host.Outcome State Fault Refusal :=
  .next (stnLive n (fun s =>
    let u := s.stnU n
    match bankGet none u.dec k, u.fetch.find? fun f => !f.todo.isEmpty with
    | none, some f =>
      match f.todo with
      | b :: r =>
        let s1 := s.modStn n fun v =>
          { v with dec := bankPut none k (some { b := b }) v.dec,
                   fetch := v.fetch.map fun x => if x.ctx = f.ctx then { x with todo := r } else x }
        fetchSync n (((s1.pb (STN_DEC_BUSY n k) true).p (STN_DEC_TABLE n k) b.tbl).p (STN_DEC_INDEX n k) b.idx)
      | [] => s
    | _, _ => s) s)

/-- A station decoder comes free. -/
def decFree (n k : Nat) (s : State) : State :=
  fetchSync n ((s.modStn n fun v => { v with dec := bankPut none k none v.dec }).pb (STN_DEC_BUSY n k) false)

/-- A decode that stands for want of room: it wants more output than fits. -/
def waits (r : Except Inflate.Met (List Byte)) (room all : Nat) : Bool :=
  decide (room < all) && (match r with | .error (12, _) => true | _ => false)

/-- STATION_BAND_DONE: the band's lines are in the lead buffer once its ring has room for them, or the decoder meets an
error, which spoils the sheet: what it has placed stays (R101). Of a burst found uncorrectable the station's record precedes
the DRAM channel's, its region being the lower (R421). -/
def stationBandDone (n k : Nat) (s : State) : State :=
  match bankGet none (s.stnU n).dec k with
  | none => s
  | some d =>
    let x := s.ctxU d.b.ctx
    let p := x.planes.getD d.b.stn {}
    let room := ringRoom s n d.b
    let (r, s0) := decodeIn room d.b s
    if waits r room (bandLines p x.lines d.b.tbl d.b.idx) then s
    else
      let c := d.b.ctx
      let fault := fun (e : Nat) (s : State) =>
        let cause := if e = 17 then Cause.eccUncorr else Cause.decodeErr
        raise { sev := 1, cls := 1, inst := n, code := 1, cell := k, spoiled := if spoilable s c then some (c, cause) else none } s
      let s1 := match r with
        | .error (17, _) => (decodeIn room d.b (fault 17 s)).2
        | _ => s0
      let s2 := decFree n k s1
      let keep := (s2.stnU n).fetch.any fun f => f.ctx == d.b.ctx
      let place := fun bytes : List Byte => if keep ∧ !bytes.isEmpty then
          s2.modStn n fun v => { v with lead := v.lead ++
            [{ b := d.b, first := bandFirst p d.b.tbl d.b.idx, stride := strideOf p d.b.tbl, bytes := bytes }] }
        else s2
      match r with
      | .ok bytes => levelSync n (place bytes)
      | .error (e, out) =>
        let kind := Inflate.kindOf e
        let s3 := (((place out).p (STN_DEC_KIND n k) kind).p (STN_DEC_DETAIL n k) e).modStn n fun v =>
          { v with lastFail := kind + 64 * e, fetch := v.fetch.map fun f => if f.ctx = d.b.ctx then { f with kept := true } else f }
        let cause := if e = 17 then Cause.eccUncorr else Cause.decodeErr
        spoil cause c (if e = 17 then s3 else fault e s3)

def execStationBandDone (n : Fin 8) (k : Fin 4) (s : State) : Host.Outcome State Fault Refusal :=
  .next (stnLive n (stationBandDone n k) s)

/-- How far a busy decoder has come: an open number of further lines, within its ring's room and before any error. -/
def decProgress (n k : Nat) (s : State) : State :=
  match bankGet none (s.stnU n).dec k with
  | none => s
  | some d =>
    let x := s.ctxU d.b.ctx
    let p := x.planes.getD d.b.stn {}
    let bytes := if d.bytes.isEmpty then (match (decodeBand d.b s).1 with | .ok b => b | .error (_, b) => b) else d.bytes
    let room := min (ringRoom s n d.b) (bytes.length / max 1 (strideOf p d.b.tbl))
    if room ≤ d.got then s
    else
      let (f, s1) := s.fresh
      let got := d.got + f % (room - d.got + 1)
      s1.modStn n fun v => { v with dec := bankPut none k (some { d with got := got, bytes := bytes }) v.dec }

/-- Lines below `line` of a sheet are read by no later sweep, and the bands they fill leave the buffer (R140). -/
def freeLines (n c line : Nat) (s : State) : State :=
  let x := s.ctxU c
  s.modStn n fun u =>
    let p := x.planes.getD n {}
    let u1 : Stn := { u with fetch := u.fetch.map fun (f : Fetch) => if f.ctx = c then { f with freed := max f.freed (min x.lines line) } else f }
    let freed := ((u1.fetch.find? fun f => f.ctx == c).map (·.freed)).getD 0
    { u1 with lead := u1.lead.filter fun l =>
        l.b.ctx != c || decide ((if l.b.tbl = 0 then ctFirst p freed else freed) < l.first + bandLines p x.lines l.b.tbl l.b.idx) }

/-! ## Underrun (R150, R151) -/

/-- An underrun of one kind at station `n`, which strikes sheet `c`. -/
def underrun (n kind c : Nat) (s : State) : State :=
  let s1 := ((s.pb (STN_STAT_UNDERRUN n) true).p (STN_STAT_UR_KIND n) kind).inc (STN_UNDERRUNS_COUNT n)
  let hit := if spoilable s c then some (c, Cause.underrun) else none
  stnFault 10 n hit (s1.modStn n fun u => { u with urTotal := min 0xFFFFFFFF (u.urTotal + 1) })

/-- A sheet out of data: spoiled; sweeps already produced are exposed as produced (R151). -/
def dataUnderrun (n c : Nat) (s : State) : State :=
  let s1 := (underrun n 0 c s).modStn n fun u => { u with dark := true }
  fetchSync n (purge c n (spoil Cause.underrun c s1))

/-! ## Sending a sweep (R190, R191) -/

/-- What one sweep carries. -/
structure SweepOut where
  num : Nat
  facet : Nat
  sheet : Option Nat
  first : Bool
  last : Bool
  win : Nat × Nat
  passes : Nat
  base : Int
  zero : Bool

def sweepHead (n : Nat) (o : SweepOut) (bank : Nat) (s : State) : State :=
  let u := s.stnU n
  let g := u.active
  let v2 := u.link.version = 0x0200
  let (fs, fg) := g.facet.getD o.facet (0, 0x40000)
  let htg := s.g (STN_HTG_HTG n)
  let c := o.sheet.getD 0
  let ofs := if o.sheet.isSome then (s.ctxU c).p64.getD n 0 else 0
  let pkts := o.win.2 * o.passes * ceilDiv g.width 2048
  let body := leBytes 4 o.num ++ leBytes 1 o.facet ++ leBytes 1 o.win.1 ++ leBytes 1 o.win.2 ++ leBytes 1 o.passes
    ++ leBytes 4 g.width ++ leBytes 2 (unsext 16 fs) ++ leBytes 1 (ofs % 64).toNat ++ leBytes 1 c
    ++ leBytes 4 ((2 * fg * htg + 262144) / 524288) ++ leBytes 2 pkts ++ leBytes 2 0
  let more := leBytes 4 (pxHz s n) ++ leBytes 4 (unsext 32 u.magNow)
    ++ leBytes 4 (if o.sheet.isSome then s.g (PCTX_SHEET_SHEET_ID c) else 0)
    ++ leBytes 4 s.time.ns ++ leBytes 4 s.time.sec ++ leBytes 4 htg ++ leBytes 8 0
  sendPacket n 0x01 (o.sheet.isSome.toNat + 2 * o.first.toNat + 4 * o.last.toNat + 8 * bank)
    (if v2 then 2 else 1) (if v2 then body ++ more else body) s

/-- The SWEEP_DATA packets of one emitter. -/
def sweepData (g : Gen) (o : SweepOut) (e : Nat) (final : Bool) (codes : List Nat) : List DataPkt :=
  let l := o.base + ((e * g.pitch : Nat) : Int)
  let parts := ceilDiv g.width 2048
  (List.range parts).map fun i =>
    let cs := (codes.drop (2048 * i)).take 2048
    { flags := (final && i + 1 == parts).toNat
      head := leBytes 4 o.num ++ leBytes 1 e ++ leBytes 1 0 ++ leBytes 2 cs.length ++ leBytes 4 (2048 * i)
        ++ leBytes 4 (unsext 32 l)
      codes := cs }

/-- Wear of an emitter for a sweep of codes, 10^-6 ns (R172). -/
def wearOf (px : Nat × Nat) (m : Emit) (codes : List Nat) : Nat :=
  if px.1 = 0 then 0
  else sumN codes * 1000000000000000 * px.2 * (if m.boost ≠ 0 then 2 else 1) / (15 * px.1)

/-- Produce and send a sweep: its codes by emitter, their wear, its head and the packets to follow it where the link is
UP, and the sweep among those whose STATUS is awaited (R148, R190-R192, R196). -/
def sendSweep (n : Nat) (o : SweepOut) (s : State) : State :=
  let u := s.stnU n
  let g := u.active
  let c := o.sheet.getD 0
  let x := s.ctxU c
  let v : View := { u := u, g := g, n := n, c := c, p := x.planes.getD n {}, lines := x.lines,
                    ofs := x.p64.getD n 0 / 64, passes := o.passes, win := o.win, base := o.base }
  let es := (List.range (o.win.2 * o.passes)).map (· + o.win.1)
  let rows := es.map fun e => (e, if o.zero then List.replicate g.width 0 else View.line s v e)
  let s1 := s.modStn n fun w => { w with wear := rows.foldl (fun b r =>
    bankPut 0 r.1 (bankGet 0 b r.1 + wearOf u.px (g.em r.1) r.2) b) w.wear }
  if linkState s n ≠ Lk.up then s1
  else
    let bank := match o.sheet with
      | some _ => (bankOf s n g.id).getD (s.g (STN_LSTAT_BANK n))
      | none => s.g (STN_LSTAT_BANK n)
    let s2 := sweepHead n o bank (s1.p (STN_LSTAT_BANK n) bank)
    let top := o.win.1 + o.win.2 * o.passes - 1
    let s3 := setSending n (rows.flatMap fun r => sweepData g o r.1 (r.1 == top) r.2) s2
    let (f, s4) := s3.fresh
    let m := sext 32 f
    let s5 := if m < s4.gi (STN_LMARGIN_NS n) then s4.pz (STN_LMARGIN_NS n) m else s4
    modLink n (fun l => { l with unreported := l.unreported ++ [(o.num, o.sheet)],
                                 lastSweep := if o.sheet.isSome then some o.num else l.lastSweep }) s5

/-- The last block of a sweep has left within 5 us and its sending time of the edge (R192). -/
def sendDue (n : Nat) (s : State) : State :=
  let u := s.stnU n
  if u.link.sending.isEmpty then s
  else
    let g := u.active
    let p := stnPasses s n
    let lk := lanesOf u.link.version * laneKbps u.link.version
    if (s.clock - u.bdClock) * lk < 5000 * lk + sweepBlocks u.link.version ((effWin g p).2 * p) g.width * 66000000 then s
    else flushSweep n s

/-! ## Production at an edge (R148, R156, R157) -/

/-- HTG of the latest report (R170). -/
def htgOf (u : Stn) : Int := clampI 0x30000 0x50000 (0x40000 + roundDiv (sext 20 u.active.htCoef * (u.headT - u.active.htRef)) 16)

/-- The thermal gain of the next sweep; a sheet that began hot freezes it at its first sweep. -/
def htgStep (n : Nat) (sheet : Bool) (s : State) : State :=
  let u := s.stnU n
  if u.frozen then s
  else
    let s1 := s.p (STN_HTG_HTG n) (htgOf u).toNat
    if sheet ∧ u.freezeFirst then
      ((s1.modStn n fun v => { v with frozen := true, freezeFirst := false }).pb (STN_HEAD_FROZEN n) true).pb (STN_ESTAT_HEAD_WARN n) true
    else s1

/-- The base of the sheet's next sweep, and whether it is the first and was clamped (R157). -/
def nextBase (s : State) (n c : Nat) : Option (Int × Bool × Bool) :=
  let u := s.stnU n
  let x := s.ctxU c
  let g := u.active
  let w := effWin g x.passes
  if u.finished ∨ w.2 = 0 then none
  else if u.started then some (u.base + w.2, false, false)
  else
    let spanp : Int := ((g.eCount - 1) * g.pitch : Nat)
    let top : Int := ((w.1 + w.2 * x.passes - 1) * g.pitch : Nat)
    let lam := aheadOf s.psq.front (trigAt s c n) * (cplDen : Int)
    let den := cplNum s x.trim
    if den ≤ 0 then none
    else
      let b := (w.2 : Int) + roundDiv lam den - spanp
      if b ≥ -top then some (min b ((w.2 : Int) - 1 - top), true, decide (b > (w.2 : Int) - 1 - top)) else none

/-- STNn_SLIP at the own edge of a sheet's sweep (R157). -/
def slipSync (n : Nat) (s : State) : State :=
  let u := s.stnU n
  match u.own with
  | none => s
  | some b =>
    let c := s.g (STN_STAT_CONTEXT n)
    let den := cplNum s (s.ctxU c).trim
    if !s.on (STN_STAT_OCCUPIED n) ∨ den ≤ 0 then s
    else
      let lam := aheadOf s.psq.front (trigAt s c n) * (cplDen : Int)
      s.pz (STN_SLIP_SLIP n) (roundDiv (256 * lam) den - 256 * (b + ((u.active.eCount - 1) * u.active.pitch : Nat)))

/-- Sweep `num` is produced: of the sheet where it has one due, else of no sheet. -/
def produce (n num facet : Nat) (s : State) : State :=
  let u := s.stnU n
  let c := s.g (STN_STAT_CONTEXT n)
  let due := if s.on (STN_STAT_OCCUPIED n) then nextBase s n c else none
  match due with
  | none =>
    let p := stnPasses s n
    let w := effWin u.active p
    let s1 := htgStep n false (s.modStn n fun v => { v with own := none })
    if u.active.enable ∧ w.2 ≠ 0 then
      sendSweep n ⟨num, facet, none, false, false, w, p, 0, true⟩ s1
    else s1
  | some (base, first, clamped) =>
    let x := s.ctxU c
    let w := effWin u.active x.passes
    let last := decide (base + w.2 > (x.lines : Int) - 1 - ((w.1 * u.active.pitch : Nat) : Int))
    let s1 := if clamped then s.pb (STN_ESTAT_BASE_CLAMP n) true else s
    let s2 := (s1.modStn n fun v => { v with started := true, base := base, own := some base, finished := last }).pz (STN_BASE_BASE n) base
    let s3 := if first ∧ x.mag.getD n 0 ≠ u.magNow then magStep n (x.mag.getD n 0) s2 else s2
    let s4 := overN 4 (decProgress n) s3
    let dark := u.dark || ctxState s c != Px.imaging
    let level := leadFor s4 n c base
    let s5 := if dark then s4 else stnLevel n level s4
    let under := !dark && decide (level < 0)
    let s6 := htgStep n true (if under then dataUnderrun n c s5 else s5)
    let s7 := sendSweep n ⟨num, facet, some c, first, last, w, x.passes, base, dark || under⟩ s6
    let line := if last then x.lines else (base + w.2 + ((w.1 * u.active.pitch : Nat) : Int) - maxI (bowUse s n)).toNat
    levelSync n (wearSync n (freeLines n c line s7))

/-- A polygon lost by BD, or a facet slip: recorded, the sheet there spoiled, and the lock lost (R160, R247). -/
def bdLost (place n : Nat) (s : State) : State :=
  let s1 := spoilAt Cause.polygonLoss n (stnFault place n (spoiledBy Cause.polygonLoss n s) s)
  match polyOf s1 n with
  | some m => loseLock m s1
  | none => s1

/-- An edge of BDn, seen or supplied: the sweep and facet numbered, and the next sweep produced (R157, R160). A mark at
a wrong count leaves the count going on; the next mark restarts it. An edge that the station supplies has no second edge
to miss: at count 0 it is no missing mark (DESIGN CHOICE, assumption log 96). -/
def bdEdge (n : Nat) (mark supplied : Bool) (period : Nat) (s : State) : State :=
  let u := s.stnU n
  let f := max 1 u.active.facets
  let k := (s.g (STN_SWEEPNO_COUNT n) + 1) % 2 ^ 28
  let expect := (s.g (STN_SWEEPNO_FACET n) + 1) % f
  let slip := u.marked && ((mark && expect != 0) || (!mark && !supplied && expect == 0))
  let facet := if mark && !slip then 0 else expect
  let marked := (u.marked || mark) && !slip
  let s1 := (s.p (STN_SWEEPNO_COUNT n) k).p (STN_SWEEPNO_FACET n) facet
  let s2 := s1.modStn n fun v =>
    { v with marked := marked, bdClock := s.clock, missRun := if supplied then v.missRun + 1 else 0,
             bdPeriods := if period = 0 then v.bdPeriods else (period :: v.bdPeriods).take 12 }
  let s3 := if slip then bdLost 13 n (s2.pb (STN_ESTAT_FACET_SLIP n) true) else s2
  let s4 := if period = 0 then s3 else polyEdge n s3
  produce n ((k + 1) % 2 ^ 28) ((facet + 1) % f) (slipSync n s4)

def execBdEdge (n : Fin 8) (mark : Bool) (period : Nat) (s : State) : Host.Outcome State Fault Refusal :=
  .next (stnLive n (bdEdge n mark false period) s)

/-- BD_MISS_TIMEOUT: while a sweep rate is commanded, the station supplies the edge at its expected time; three in a row
mean the polygon is lost (R160). -/
def bdMiss (n : Nat) (s : State) : State :=
  let (rate, a) := bankGet (0, 0) s.psq.sweeps n
  if rate = 0 ∨ a = 0 then s
  else
    let s1 := (s.pb (STN_ESTAT_BD_MISS n) true).inc (STN_BDMISS_COUNT n)
    let s2 := bdEdge n false true (nearest (1000000000 * a) rate) s1
    if (s2.stnU n).missRun = 3 then bdLost 12 n s2 else s2

def execBdMissTimeout (n : Fin 8) (s : State) : Host.Outcome State Fault Refusal := .next (stnLive n (bdMiss n) s)

end Sys2Proof.Machine
end

