-- ==== Sys2Proof/Machine/Feed.lean ====
section
/-!
DEFINITION. What holds feeding back: the rate a context would be fed at, the speed boundary that is pending, the gap to
the previous sheet, and the level of FEED_REQ that follows them (spec/05_passage.md R120, R122, R125; spec/15 R336).
-/

namespace Sys2Proof.Machine

open Reg

def reefLevel (s : State) : Nat := s.g THM_TJ_REEF

/-! ## Speeds that contexts carry (R125, R336) -/

/-- The rate a context would be fed at: its own, or RATE_eff while REEF2 holds; none where no rate qualifies. -/
def rateEff (s : State) (c : Nat) : Option Nat :=
  let r := cmdRate s
  if reefLevel s < 2 then some r
  else
    let p := cmdPasses s
    let ns := (List.range 8).filter (inMask s c)
    let m := ns.foldl (fun m n => min m (highestRate s n p)) (min r (s.g THM_CEIL_RATE))
    if m ≠ 0 ∧ ns.all (fun n => legalAt s n m p) then some m else none

/-- Some station of a context would turn at another number of lines per sweep (R159). -/
def windowMoves (s : State) (c : Nat) : Bool :=
  (List.range 8).any fun n => inMask s c n
    && (effWin (s.stnU n).newest (cmdPasses s)).2 != (bankGet (0, 0) s.psq.sweeps n).2

def ptrimWaiting (s : State) : Bool := s.gi PSQ_PTRIM_TRIM != s.psq.trim

/-- A speed boundary is pending (R125, R159). -/
def boundaryPending (s : State) : Bool :=
  ptrimWaiting s || (match oldestArmed s with
    | none => false
    | some c => s.psq.startBoundary || windowMoves s c || cmdPasses s != s.psq.lastPasses
        || (match rateEff s c with | some r => r != s.psq.lastRate | none => false))

/-! ## Feeding (R120-R122) -/

/-- The front has passed the previous sheet's trail and MINGAP, its origin being known. -/
def gapClear (s : State) : Bool :=
  !(ctxKeys s).any (fun c => (s.ctxU c).awaiting)
    && (match s.psq.lastTrail with
      | none => true
      | some t => crossed s (t + s.g (PSQ_POS_COUNTS 2)))

def engineFeeds (s : State) : Bool := s.engine == Eng.ready || s.engine == Eng.printing

/-- The context that would be fed, in a mode, while nothing holds feeding back. -/
def feedable (s : State) (web : Bool) : Option Nat :=
  match oldestArmed s with
  | none => none
  | some c =>
    if engineFeeds s && !s.on PSQ_CTRL_FEED_HOLD && !boundaryPending s && !s.on PSQ_STAT_BOUNDARY
        && s.on (PCTX_STATE_MODE c) == web && gapClear s && (rateEff s c).isSome then some c else none

/-- THM_TJ.HOLD: feeding is held because no rate qualifies under REEF2 (R336). -/
def holdSync (s : State) : State :=
  s.pb THM_TJ_HOLD (reefLevel s == 2 && match oldestArmed s with | some c => (rateEff s c).isNone | none => false)

/-- SHEET_ADMISSION; a context now ARMED may be one that no rate feeds under REEF2. -/
def execSheetAdmission (c : Fin 256) (s : State) : Host.Outcome State Fault Refusal :=
  .next (live (fun s => holdSync (admission c s)) s)

/-- FEED_REQ goes low as soon as one of its conditions fails (R120). -/
def feedSync (s : State) : State :=
  let s1 := holdSync s
  if s1.on PSQ_STAT_FEED_REQ ∧ (feedable s1 false).isNone then
    { (s1.pb PSQ_STAT_FEED_REQ false).event (.feedReq false) with psq.reqFell := some s.clock }
  else s1

end Sys2Proof.Machine
end

