-- ==== Sys2Proof/Machine/Thermal.lean ====
section
/-!
DEFINITION. Temperature sensors, reef levels, the hardware trip, and the NVM writes that wait for the write window
(spec/15_thermal.md R332-R343).
-/

namespace Sys2Proof.Machine

open Reg

/-- A happening in island THERM, which runs from the reference whatever becomes of SYSPLL (R356). -/
def thermLive (f : State → State) (s : State) : State := if s.inReset || s.on (CLK_ISL_STOPPED 2) then s else f s

/-! ## Sensors (R332, R333) -/

def tsTemp (s : State) (i : Nat) : Int := s.gi (THM_TS_TEMP i)
def sensors (s : State) : List Nat := (List.range 48).filter (sensorPresent s.part)

/-- The hotter of two (reading, sensor), the lower number of equals. -/
def hotter (a b : Int × Nat) : Int × Nat := if a.1 < b.1 then b else a

/-- Tj and the sensor that gives it. -/
def hottest (s : State) : Int × Nat :=
  match sensors s with
  | [] => (0, 0)
  | i :: r => r.foldl (fun a j => hotter a (tsTemp s j, j)) (tsTemp s i, i)

/-- Hot spot `k`: the highest of its four sensors, 0 when absent. -/
def hotSpot (s : State) (k : Nat) : Int :=
  match (List.range 4).filterMap (fun j => if sensorPresent s.part (4 * k + j) then some (tsTemp s (4 * k + j)) else none) with
  | [] => 0
  | x :: r => r.foldl max x

/-- Tj, SRC, the hot spots with their peaks, and the report's peak follow the sensors. -/
def thermSync (s : State) : State :=
  let (t, i) := hottest s
  let s1 := (s.pz THM_TJ_TJ t).p THM_TJ_SRC i
  let s2 := overN 7 (fun k s =>
    let h := hotSpot s k
    (s.pz (THM_HS_TEMP k) h).pz (THM_HS_PEAK k) (max h (s.gi (THM_HS_PEAK k)))) s1
  { s2 with thm := { s2.thm with peak := max t s2.thm.peak } }

/-- A sensor is found broken: it reads 0x7FFF until a chip reset (R333). -/
def sensorBreak (i : Nat) (s : State) : State :=
  if s.on (THM_TS_BROKEN i) then s
  else
    let s1 := (s.pb (THM_TS_BROKEN i) true).p (THM_TS_TEMP i) 0x7FFF
    let s2 := if i < 32 then s1.p THM_BROKEN_LO_TS (setBit (s1.g THM_BROKEN_LO_TS) i true)
      else s1.p THM_BROKEN_HI_TS (setBit (s1.g THM_BROKEN_HI_TS) (i - 32) true)
    corrected 0x51 i 8 0xFFFF (s2.pb THM_STAT_BROKEN_NEW true)

/-! ## Reef levels (R334-R338) -/

/-- Threshold of level `l`, 1/16 degree C. -/
def reefThr (s : State) (l : Nat) : Int :=
  16 * (if l = 1 then s.g THM_THR_THR1 else if l = 2 then s.g THM_THR_THR2 else s.g THM_THR_THR3 : Nat)

/-- On entry to REEF3 (R337). A context released by it may still enter FEEDING in the same PSQ cycle (R335). -/
def reef3 (s : State) : State :=
  let e := s.engine
  if e = Eng.ready ∨ e = Eng.printing then
    let s1 := (ctxKeys s).foldl (fun s c => if ctxState s c = Px.armed then noteMove c s else s) s
    let s2 := (startDrain Cause.reef s1).pb THM_TJ_DRAIN true
    { s2 with psq := { s2.psq with prior := s.psq.prior, reqFell := if s.on PSQ_STAT_FEED_REQ then some s.clock else s.psq.reqFell } }
  else if e = Eng.warmup then furlWarmup Cause.reef s
  else s

/-- The memory path stops after the tile in progress; the rules do not say whether that is the last of a frame of more than
256 lines (R216, assumption log 95). -/
def visPause (s : State) : State :=
  let s1 := s.pb VIS_STAT_PAUSED true
  match s.vis.run with
  | some f =>
    if f.gen.height ≤ 256 then { s1 with vis := { s1.vis with lastTile := true } }
    else
      let (x, s2) := s1.fresh
      { s2 with vis := { s2.vis with lastTile := x % 2 == 1 } }
  | none => s1

/-- Level `l` is shown as entered, and counted. -/
def reefShow (l : Nat) (s : State) : State :=
  let s1 := (s.p THM_TJ_REEF l).p ⟨THM_STAT, 2 + l, 1⟩ 1
  let n := s1.thm.entries.getD (l - 1) 0
  { s1 with thm := { s1.thm with entries := s1.thm.entries.set (l - 1) (min 255 (n + 1)), changed := s1.time } }

/-- Level `l` is entered (R335); with the other islands stopped nothing acts on it and nothing records it (R422). -/
def reefEnter (l : Nat) (s : State) : State :=
  if s.dead then reefShow l s
  else
    let s1 := reefShow l (if l = 1 then visPause (noteChange s) else noteChange s)
    let s2 := corrected 0x52 l 9 0xFFFF s1
    if l = 3 then reef3 (s2.pb THM_TJ_HOLD false) else s2

/-- Every level that Tj reaches is entered together. -/
def reefCheck (s : State) : State :=
  let tj := s.gi THM_TJ_TJ
  [1, 2, 3].foldl (fun s l => if reefLevel s < l ∧ reefThr s l ≤ tj then reefEnter l s else s) s

/-- A conversion of sensor `i`: a reading in 1/16 degree C, or a diode found open or shorted. -/
def thermConvert (i : Nat) (raw : Int) (bad : Bool) (s : State) : State :=
  if !sensorPresent s.part i then s
  else
    let s1 := if s.on (THM_TS_BROKEN i) then s
      else if bad ∨ raw < -880 ∨ 2400 < raw then sensorBreak i s
      else s.pz (THM_TS_TEMP i) raw
    live feedSync (reefCheck (thermSync s1))

def execThermalConversion (i : Fin 48) (raw : BitVec 16) (bad : Bool) (s : State) : Host.Outcome State Fault Refusal :=
  .next (thermLive (thermConvert i (sext 16 raw.toNat) bad) s)

/-- A level is left: Tj has stayed below its threshold minus HYST for 1 s. -/
def reefLeave (l : Nat) (s : State) : State :=
  if l = 0 ∨ reefLevel s ≠ l ∨ reefThr s l - 16 * s.g THM_THR_HYST ≤ s.gi THM_TJ_TJ then s
  else
    let s1 := { (live noteChange s).p THM_TJ_REEF (l - 1) with thm := { s.thm with changed := s.time } }
    live (fun s => feedSync (if l = 1 then (s.pb VIS_STAT_PAUSED false).pb CMP_STAT_PAUSED false else s)) s1

def execReefLeave (l : Fin 4) (s : State) : Host.Outcome State Fault Refusal := .next (thermLive (reefLeave l) s)

/-! ## Hardware trip (R339-R341) -/

/-- The 64-byte record of trip `seq` by sensor `i`. -/
def tripRecord (s : State) (seq i : Nat) (diode : Bool) : List Byte :=
  let b := leBytes 4 seq ++ leBytes 1 i ++ leBytes 1 (s.g THM_TRIP_TRIM) ++ leBytes 1 s.engine ++ leBytes 1 (pwState s)
    ++ leBytes 8 s.time.sec ++ leBytes 4 s.time.ns ++ leBytes 2 (s.g THM_TJ_TJ) ++ leBytes 1 (reefLevel s)
    ++ leBytes 1 diode.toNat ++ (List.range 7).flatMap (fun k => leBytes 2 (s.g (THM_HS_TEMP k))) ++ leBytes 2 0
    ++ leBytes 8 (s.g THM_BROKEN_LO_TS + s.g THM_BROKEN_HI_TS * 2 ^ 32) ++ List.replicate 12 0
  b ++ leBytes 4 (crc32c b).toNat

/-- A comparator crosses the trip level or finds its diode open or shorted (R339, R340); the converter finds such a diode
in a conversion of its own (R333). -/
def hardwareTrip (i : Nat) (diode : Bool) (s : State) : State :=
  if !sensorPresent s.part i then s
  else
    let s1 := { s with thm := { s.thm with trips := min 255 (s.thm.trips + 1), diode := s.thm.diode || diode } }
    if s1.on THM_TJ_TRIP then s1
    else
      let r := tripRecord s1 (s1.thm.tripSeq + 1) i diode
      let s2 := (s1.pb THM_TJ_TRIP true).pb THM_STAT_TRIPPED true
      let s3 := gatesLow (if s2.running then hardStop Cause.reef s2 else forceOutputs s2)
      let s4 := raise { sev := Sev.regionFatal, cls := 0x57, inst := 0, code := 10 } (offRequest s3)
      tripPut r s4

/-- A comparator acts whatever becomes of the clocks and the digital logic (R339); of a chip held in reset, whose outputs are
forced, it still makes the off request while its supplies stand. -/
def comparator (i : Nat) (diode : Bool) (s : State) : State :=
  if !s.inReset then settleReset (hardwareTrip i diode s)
  else if s.pwr.supDown ∨ !sensorPresent s.part i then s
  else stayStep offRequest s

def execHardwareTrip (i : Fin 48) (diode : Bool) (s : State) : Host.Outcome State Fault Refusal :=
  .next (comparator i diode s)

/-- Every comparator has read below the trip level - 15 for 1 s, as one with an open or shorted diode never does: the trip
is no longer in force (R340). -/
def tripRelease (s : State) : State := if s.on THM_TJ_TRIP && !s.thm.diode then s.pb THM_TJ_TRIP false else s

def execTripRelease (s : State) : Host.Outcome State Fault Refusal := .next (thermLive tripRelease s)

/-- LOG 3: the ring in slot order. -/
def tripLog (s : State) : List Byte :=
  (List.range 8).flatMap fun k =>
    let r := bankGet [] s.thm.ring k
    if r.isEmpty then List.replicate 64 0 else r

/-! ## Register rules and the report (R335, R336, R343) -/

/-- A write of THM_THR: ignored outside 60 <= THR1 < THR2 < THR3 <= 105 and HYST 1 to 15. -/
def thrWrite (v : Word) (s : State) : State :=
  let a := fieldOf THM_THR_THR1 v
  let b := fieldOf THM_THR_THR2 v
  let c := fieldOf THM_THR_THR3 v
  if 60 ≤ a ∧ a < b ∧ b < c ∧ c ≤ 105 ∧ 1 ≤ fieldOf THM_THR_HYST v then s.plainWrite THM_THR v else s.pb THM_STAT_CFG_ERR true

/-- A write of THM_CEIL: 1,000 to 160,000 lines/s. -/
def ceilWrite (v : Word) (s : State) : State :=
  let r := fieldOf THM_CEIL_RATE v
  if 1000 ≤ r ∧ r ≤ 160000 then feedSync ((noteChange s).plainWrite THM_CEIL v) else s.pb THM_STAT_CFG_ERR true

/-- CLASS 5 of STATUS_QUERY; DATA1 starts afresh with each query. -/
def thermalReport (s : State) : List Nat :=
  let hs := fun k => s.g (THM_HS_TEMP k)
  [ s.g THM_TJ_TJ + reefLevel s * 2 ^ 16 + s.g THM_TJ_TRIP * 2 ^ 18 + s.g THM_TJ_DRAIN * 2 ^ 19 + s.g THM_TJ_HOLD * 2 ^ 20
      + s.g THM_TJ_SRC * 2 ^ 24,
    unsext 16 s.thm.peak, hs 0 + hs 1 * 2 ^ 16, hs 2 + hs 3 * 2 ^ 16, hs 4 + hs 5 * 2 ^ 16, hs 6,
    s.g THM_BROKEN_LO_TS, s.g THM_BROKEN_HI_TS,
    s.thm.entries.getD 0 0 + s.thm.entries.getD 1 0 * 2 ^ 8 + s.thm.entries.getD 2 0 * 2 ^ 16 + s.thm.trips * 2 ^ 24,
    if 2 ≤ reefLevel s then s.g THM_CEIL_RATE else 0,
    s.thm.changed.ns, s.thm.changed.sec % 2 ^ 32 ]

end Sys2Proof.Machine
end

