-- ==== Sys2Proof/Machine/Passage.lean ====
section
/-!
DEFINITION. The passage sequencer: encoder, feeding in sheet and web mode, triggers, occupancy, delivery, speed
boundaries, and the engine's READY and drain (spec/05_passage.md R116-R127, R453, R454; spec/06 R150; spec/01 R27).
-/

namespace Sys2Proof.Machine

open Reg

/-! ## Feeding (R120-R122) -/

def feedReqRaise (s : State) : State :=
  if s.on PSQ_STAT_FEED_REQ = false ∧ (feedable s false).isSome then (s.pb PSQ_STAT_FEED_REQ true).event (.feedReq true)
  else feedSync s

def execFeedReqRaise (s : State) : Host.Outcome State Fault Refusal := .next (live feedReqRaise s)

/-- A context enters FEEDING (R20, R107, R111, R125, R149): what it carries is fixed, and a change of the same PSQ cycle
is not in it (R20, R335). -/
def enterFeeding (c : Nat) (s : State) : State :=
  let b := beforeChanges s
  let r := (rateEff b c).getD (cmdRate b)
  let p := cmdPasses b
  let per := fun {α : Type} (f : Nat → α) => (List.range 8).map f
  let s1 := s.modCtx c fun u =>
    { u with rate := r, passes := p, trim := b.psq.trim, fedAt := s.time, fed := true, ackFront := s.psq.front
             gen := per fun n => (b.stnU n).newest.num
             lineOfs := per fun n => (b.stnU n).lineAdj + (u.ofs.getD n (0, 0, 0)).1
             p64 := per fun n => (b.stnU n).p64Adj + 64 * (u.ofs.getD n (0, 0, 0)).2.1 + (u.ofs.getD n (0, 0, 0)).2.2
             mag := per fun n => (b.stnU n).magAdj
             epochs := per fun n => bankGet 0 b.vis.epoch n
             trimSeq := b.psq.trimSeq }
  let s2 := (s1.p (PCTX_STATE_STATE c) Px.feeding).pb (PCTX_STATE_BOUNDARY c) s.psq.newSpeed
  let s3 := { s2 with psq := { s2.psq with lastRate := r, lastPasses := p, newSpeed := false } }
  let s4 := if s3.engine = Eng.ready then s3.setEngine Eng.printing else s3
  stnSettleAll (psqSync s4)

/-- A trigger already behind the front when it is computed (R118). -/
def lateTrig (at_ : Nat) (s : State) : State :=
  if 0 < aheadOf s.psq.front at_ then s.pb PSQ_STAT_LATE_TRIG true else s

/-- The triggers of a context, computed as its origin becomes known. -/
def lateTrigs (c : Nat) (s : State) : State :=
  let org := originOf s c
  let s1 := if ctxState s c = Px.feeding then lateTrig (org + s.g (PSQ_POS_COUNTS 0)) s else s
  let s2 := lateTrig (org + s.g (PSQ_POS_COUNTS 1)) s1
  overN 8 (fun n s =>
    if inMask s c n then lateTrig (posAdd (trigAt s c n) (-(s.g (PSQ_STN_PREF_COUNTS n) : Int))) (lateTrig (trigAt s c n) s)
    else s) s2

/-- A context's origin, and with it the trail that the next sheet keeps clear of. -/
def setOrigin (c org : Nat) (s : State) : State :=
  let org := org % 2 ^ 48
  let s1 := (s.p (PCTX_ORG_LO_ORIGIN c) (org % 2 ^ 32)).p (PCTX_ORG_HI_ORIGIN c) (org / 2 ^ 32)
  let s2 := s1.modCtx c fun u => { u with hasOrigin := true, awaiting := false }
  let u := s2.ctxU c
  { s2 with psq := { s2.psq with lastTrail := some (posAdd org (countsUp s2 u.trim u.lines)) } }

/-- A context that REEF3 has released in this PSQ cycle, and that feeding may still take (R335). -/
def releasedNow (s : State) (c : Nat) : Bool :=
  ctxState s c == Px.spoiled && !(s.ctxU c).fed && (s.ctxU c).moved == some (s.clock, Px.armed)

/-- The context that feeding takes: the oldest ARMED at the start of the PSQ cycle. -/
def feedTaker (s : State) : Option Nat := oldest s fun c => ctxState s c == Px.armed || releasedNow s c

/-- The release of a context by REEF3 taken back. -/
def rearm (c : Nat) (s : State) : State :=
  if releasedNow s c then
    let s1 := ((s.p (PCTX_STATE_STATE c) Px.armed).p (PCTX_STATE_CAUSE c) 0).p (PCTX_STATE_AT_DELIV c) 0
    let s2 := s1.modCtx c fun u => { u with endAt := {}, ended := false }
    { s2 with psq := { s2.psq with nSpoiled := s2.psq.nSpoiled - 1 } }
  else s

/-- FEED_ACK (R107, R120, R121): FEED_REQ counts as it stood before the changes of the PSQ cycle (R20, R335). -/
def feedAck (s : State) : State :=
  if !s.on PSQ_STAT_FEED_REQ ∧ s.psq.reqFell ≠ some s.clock then s.pb PSQ_STAT_STRAY_ACK true
  else match feedTaker s with
    | none => s
    | some c =>
      let s1 := enterFeeding c (rearm c s)
      let s2 := if s.on PSQ_CTRL_SENSE_EN then s1.modCtx c fun u => { u with awaiting := true }
        else lateTrigs c (setOrigin c s.psq.front s1)
      { feedSync s2 with psq.reqFell := none }

/-- A FEED_ACK pulse from the fabric, the one source outside the block's own rules (R34). -/
def execFeedAck (s : State) : Host.Outcome State Fault Refusal :=
  .next (live (fun s => if s.fabricFeeds 0x0200 0 then feedAck s else s) s)

/-- A misfeed: REGION_FATAL in IMG (R121, R453). -/
def misfeed (s : State) : State := raise { sev := 2, cls := 2, inst := 0, code := 2 } (s.pb PSQ_STAT_MISFEED true)

/-- FEED_SENSE (R121): the edge fixes the origin of the oldest awaiting context. -/
def feedSense (s : State) : State :=
  if !s.on PSQ_CTRL_SENSE_EN then s
  else match oldest s fun c => (s.ctxU c).awaiting with
    | none => misfeed s
    | some c =>
      let org := posAdd s.psq.front (-(s.g (PSQ_POS_COUNTS 0) : Int))
      let near := match s.psq.lastTrail with
        | some t => decide (aheadOf org (t + s.g (PSQ_POS_COUNTS 2)) < 0)
        | none => false
      let s1 := setOrigin c org s
      let s2 := if ctxState s1 c = Px.feeding then s1.p (PCTX_STATE_STATE c) Px.inPath else s1
      let s3 := lateTrigs c s2
      if near then misfeed s3 else s3

/-- A rising edge of FEED_SENSE from the fabric. -/
def execFeedSense (s : State) : Host.Outcome State Fault Refusal :=
  .next (live (fun s => if s.fabricFeeds 0x0200 1 then feedSense s else s) s)

/-- MISFEED_TIMEOUT: no edge within FEEDWIN counts of the FEED_ACK (R121). -/
def misfeedTimeout (c : Nat) (s : State) : State :=
  let u := s.ctxU c
  if u.awaiting ∧ 0 < aheadOf s.psq.front (u.ackFront + s.g (PSQ_POS_COUNTS 4)) then misfeed s else s

def execMisfeedTimeout (c : Fin 256) (s : State) : Host.Outcome State Fault Refusal := .next (live (misfeedTimeout c) s)

/-- WEB_RUN_START (R122). -/
def webRunStart (s : State) : State :=
  if s.psq.web = false ∧ (feedable s true).isSome then
    { s with psq := { s.psq with web := true, webOrigin := (s.psq.front + s.g (PSQ_POS_COUNTS 3)) % 2 ^ 48 } }
  else s

def execWebRunStart (s : State) : Host.Outcome State Fault Refusal := .next (live webRunStart s)

/-- The web context that takes the slot whose origin the front crosses, `s` being the machine before the changes of the
PSQ cycle. -/
def webTaker (s : State) : Option Nat :=
  match feedTaker s with
  | some c => if s.on (PCTX_STATE_MODE c) ∧ !s.on PSQ_CTRL_FEED_HOLD ∧ !boundaryPending s ∧ (rateEff s c).isSome then some c else none
  | none => none

/-- TRIG_WEB_ORIGIN (R122): the oldest ARMED web context takes the slot, or it stays blank and is counted. A run in
which no frame has been fed has no REPEAT to go on by, and ends. -/
def trigWebOrigin (s : State) : State :=
  if (beforeChanges s).psq.web = false ∨ crossed s s.psq.webOrigin = false then s
  else
    let org := s.psq.webOrigin
    match webTaker (beforeChanges s) with
    | some c =>
      let rep := (s.ctxU c).repeat_
      let s1 := holdSync (lateTrig (org + rep) (lateTrigs c (setOrigin c org (enterFeeding c (noteMove c (rearm c s))))))
      { s1 with psq := { s1.psq with webRepeat := rep, webOrigin := (org + rep) % 2 ^ 48 } }
    | none =>
      let s1 := holdSync (s.inc PSQ_STAT_WEB_GAPS)
      if s.psq.webRepeat = 0 then { s1 with psq := { s1.psq with web := false } }
      else
        let s2 := lateTrig (org + s.psq.webRepeat) s1
        { s2 with psq := { s2.psq with webOrigin := (org + s.psq.webRepeat) % 2 ^ 48 } }


/-! ## The encoder (R116, R119) -/

/-- PATH_REVERSE: every IMAGING context is spoiled, one that a fault of the same time took from
IMAGING among them (R23); the record names the earliest (R119, R453). -/
def pathReverse (s : State) : State :=
  let hit := oldest s fun c => cycleState s c == Px.imaging && spoilable s c
  let s1 := raise { sev := 0, cls := 2, inst := 0, code := 1, spoiled := hit.map fun c => (c, Cause.pathReverse) }
    (s.pb PSQ_STAT_PATH_REVERSE true)
  (ctxKeys s1).foldl (fun s c =>
    if (cycleState s c = Px.imaging ∧ spoilable s c) ∨ (struckNow s c ∧ (s.ctxU c).was = Px.imaging) then spoil Cause.pathReverse c s else s) s1

/-- A process encoder sample: position, front and reversal. -/
def encoderSample (raw : Nat) (s : State) : State :=
  let d := sext 32 ((raw + 2 ^ 32 - s.psq.lastRaw) % 2 ^ 32)
  let pos := posAdd s.psq.pos (if s.on PSQ_CTRL_ENC_INVERT then -d else d)
  let front := if 0 < aheadOf pos s.psq.front then pos else s.psq.front
  let s1 := { s.p PSQ_RAW_RAW raw with psq := { s.psq with pos := pos, front := front, lastRaw := raw } }
  let s2 := (s1.p PSQ_FRONT_LO_FRONT (front % 2 ^ 32)).p PSQ_FRONT_HI_FRONT (front / 2 ^ 32)
  let back := decide ((s.g PSQ_CTRL_BACKLASH : Int) < aheadOf front pos)
  let s3 := s2.pb PSQ_STAT_REVERSED back
  if back && !s.on PSQ_STAT_REVERSED then pathReverse s3 else s3

def execEncoderSample (raw : BitVec 32) (s : State) : Host.Outcome State Fault Refusal :=
  .next (live (encoderSample raw.toNat) s)

/-! ## Triggers (R107, R123) -/

/-- A context in the path whose origin is known. -/
def tracked (s : State) (c : Nat) : Bool :=
  let st := ctxState s c
  (s.ctxU c).fed && (s.ctxU c).hasOrigin
    && (st == Px.feeding || st == Px.inPath || st == Px.imaging || (st == Px.spoiled && !s.on (PCTX_STATE_AT_DELIV c)))

/-- A station's triggers and the end of its part that a context has crossed and that have not fired. -/
def stnDue (s : State) (c n : Nat) : Bool :=
  let st := ctxState s c
  let u := s.ctxU c
  inMask s c n
    && ((st != Px.spoiled && bitsOf u.fetched n 1 == 0 && crossed s (posAdd (trigAt s c n) (-(s.g (PSQ_STN_PREF_COUNTS n) : Int))))
      || (st != Px.feeding && bitsOf u.trigd n 1 == 0 && crossed s (trigAt s c n))
      || (bitsOf u.trigd n 1 == 1 && bitsOf (s.g (PCTX_STATE_STN_DONE c)) n 1 == 0 && crossed s (endAt s c n)))

/-- A context has crossed a position whose crossing has yet to be resolved. -/
def crossingDue (s : State) (c : Nat) : Bool :=
  let st := ctxState s c
  tracked s c
    && ((st == Px.feeding && crossed s (originOf s c + s.g (PSQ_POS_COUNTS 0)))
      || (st != Px.feeding && (st != Px.inPath || s.g (PCTX_STATE_STN_MASK c) == 0)
          && crossed s (originOf s c + s.g (PSQ_POS_COUNTS 1)))
      || (List.range 8).any (stnDue s c))

/-- A crossing of context `c` is resolved once no older context has one to be resolved (R108). -/
def inTurn (c : Nat) (f : State → State) (s : State) : State :=
  if anyCtx s fun d => decide ((s.ctxU d).seq < (s.ctxU c).seq) && crossingDue s d then s else f s

/-- TRIG_WEB_ORIGIN: the frame fed is younger than any context in the path, and its crossing comes last (R108). -/
def execTrigWebOrigin (s : State) : Host.Outcome State Fault Refusal :=
  .next (live (fun s => if anyCtx s (crossingDue s) then s else trigWebOrigin s) s)

def execTrigFeedpos (c : Fin 256) (s : State) : Host.Outcome State Fault Refusal :=
  .next (live (inTurn c fun s =>
    if ctxState s c = Px.feeding ∧ tracked s c ∧ crossed s (originOf s c + s.g (PSQ_POS_COUNTS 0)) then
      (noteMove c s).p (PCTX_STATE_STATE c) Px.inPath
    else s) s)

/-- A station starts fetching a sheet's bands (R123, R141). -/
def fetchSheet (c n : Nat) (s : State) : State :=
  let u := s.ctxU c
  if bitsOf u.fetched n 1 = 1 then s
  else
    let s1 := s.modCtx c fun u => { u with fetched := u.fetched + 2 ^ n }
    let f : Fetch := { ctx := c, todo := planeBands c n (u.planes.getD n {}) u.lines }
    levelSync n (fetchSync n (s1.modStn n fun v => { v with fetch := v.fetch ++ [f] }))

def execTrigPrefetch (c : Fin 256) (n : Fin 8) (s : State) : Host.Outcome State Fault Refusal :=
  .next (stnLive n (inTurn c fun s =>
    if tracked s c ∧ ctxState s c ≠ Px.spoiled ∧ inMask s c n
        ∧ crossed s (posAdd (trigAt s c n) (-(s.g (PSQ_STN_PREF_COUNTS n) : Int))) then fetchSheet c n s
    else s) s)

/-- What keeps a station from imaging a sheet that reaches it: cause and kind of underrun, ranked by R23 (R150, R171,
R196, R202, R248). -/
def armFail (s : State) (c n : Nat) : Option (Nat × Option Nat) :=
  let u := s.stnU n
  let num := (s.ctxU c).gen.getD n 0
  if s.on (STN_STAT_OCCUPIED n) then some (Cause.underrun, some 2)
  else if u.active.num ≠ num ∨ (linkTrained s n ∧ (bankOf s n u.active.id).isNone) then some (Cause.underrun, some 1)
  else if !linkTrained s n then some (Cause.linkLoss, none)
  else if !polyLocked s n then some (Cause.polygonLoss, none)
  else if s.on (STN_HEAD_DARK n) then some (Cause.headHot, none)
  else none

/-- A station's occupancy by a sheet begins (R150, R170). -/
def occupy (c n : Nat) (s : State) : State :=
  let s1 := (s.pb (STN_STAT_OCCUPIED n) true).p (STN_STAT_CONTEXT n) c
  let s2 := s1.modStn n fun u =>
    { u with started := false, finished := false, own := none, dark := false, base := 0, frozen := false,
             freezeFirst := decide (u.active.htWarn ≤ u.headT) }
  levelSync n (winSync n (fetchSheet c n (s2.pb (STN_HEAD_FROZEN n) false)))

/-- TRIG_STATION: the front crosses T_n. -/
def trigStation (c n : Nat) (s : State) : State :=
  let st := ctxState s c
  if tracked s c ∧ st ≠ Px.feeding ∧ inMask s c n ∧ bitsOf (s.ctxU c).trigd n 1 = 0 ∧ crossed s (trigAt s c n) then
    let s1 := s.modCtx c fun u => { u with trigd := u.trigd + 2 ^ n }
    if st = Px.spoiled then fetchSync n (purge c n s1)
    else
      let s2 := if st = Px.inPath then (noteMove c s1).p (PCTX_STATE_STATE c) Px.imaging else s1
      match armFail s2 c n with
      | some (cause, kind) =>
        let s3 := match kind with
          | some k => underrun n k c s2
          | none => stnFault (13 + cause) n (some (c, cause)) s2
        spoil cause c s3
      | none => (occupy c n s2).modCtx c fun u => { u with imagingAt := u.imagingAt + 2 ^ n }
  else s

def execTrigStation (c : Fin 256) (n : Fin 8) (s : State) : Host.Outcome State Fault Refusal :=
  .next (stnLive n (inTurn c (trigStation c n)) s)

/-- A station free of the sheet that occupied it; what waits for that follows (R149). -/
def release (c n : Nat) (s : State) : State :=
  if occupies s c n then
    let s1 := (s.pb (STN_STAT_OCCUPIED n) false).p (STN_BASE_BASE n) 0
    let s2 := s1.modStn n fun u =>
      { u with started := false, finished := false, dark := false, frozen := false, freezeFirst := false, own := none }
    levelSync n (winSync n (fetchSync n (purge c n (s2.pb (STN_HEAD_FROZEN n) false))))
  else fetchSync n (purge c n s)

/-- The earliest station of a sheet, by its effective trigger. -/
def earliest (s : State) (c : Nat) : Option Nat :=
  ((List.range 8).filter (inMask s c)).foldl (fun b n =>
    match b with
    | none => some n
    | some m => if aheadOf (trigAt s c n) (trigAt s c m) < 0 then some n else some m) none

/-- TRIG_STATION_DONE (R123, R126): the station's part of the sheet ends; PSQ_PMEAS at the earliest station is an open
value, its measuring method not being given. -/
def trigStationDone (c n : Nat) (s : State) : State :=
  if tracked s c ∧ inMask s c n ∧ bitsOf (s.ctxU c).trigd n 1 = 1 ∧ bitsOf (s.g (PCTX_STATE_STN_DONE c)) n 1 = 0
      ∧ crossed s (endAt s c n) then
    let s1 := s.p (PCTX_STATE_STN_DONE c) (s.g (PCTX_STATE_STN_DONE c) + 2 ^ n)
    let s2 := s1.modCtx c fun u => { u with imagingAt := if bitsOf u.imagingAt n 1 = 1 then u.imagingAt - 2 ^ n else u.imagingAt }
    let s3 := if earliest s c = some n then
        let (f, s3) := s2.fresh
        s3.p PSQ_PMEAS_DEV f
      else s2
    stnSettle n (release c n s3)
  else s

def execTrigStationDone (c : Fin 256) (n : Fin 8) (s : State) : Host.Outcome State Fault Refusal :=
  .next (stnLive n (inTurn c (trigStationDone c n)) s)

/-- TRIG_DELIVERY (R107, R127): DELIVERED, or SPOILED at delivery with a DIVERT pulse. -/
def trigDelivery (c : Nat) (s : State) : State :=
  let st := ctxState s c
  if tracked s c ∧ crossed s (originOf s c + s.g (PSQ_POS_COUNTS 1)) then
    if st = Px.imaging ∨ (st = Px.inPath ∧ s.g (PCTX_STATE_STN_MASK c) = 0) then
      let s1 := ((noteMove c s).p (PCTX_STATE_STATE c) Px.delivered).p (PCTX_STATE_AT_DELIV c) 1
      let s2 := s1.modCtx c fun u => { u with endAt := s.time, ended := true }
      psqSync { s2 with psq := { s2.psq with nDelivered := s2.psq.nDelivered + 1 } }
    else if st = Px.spoiled then psqSync (((noteMove c s).p (PCTX_STATE_AT_DELIV c) 1).event .divert)
    else s
  else s

def execTrigDelivery (c : Fin 256) (s : State) : Host.Outcome State Fault Refusal :=
  .next (live (inTurn c (trigDelivery c)) s)

/-! ## Speed boundaries (R125, R126) -/

/-- SPEED_BOUNDARY_START: a pending boundary begins; feeding stops and a web run ends. -/
def boundaryStart (s : State) : State :=
  if boundaryPending s ∧ engineFeeds s ∧ s.on PSQ_STAT_BOUNDARY = false then
    let (r, p) := match oldestArmed s with
      | some c => ((rateEff s c).getD s.psq.lastRate, cmdPasses s)
      | none => (s.psq.belt, s.psq.beltPasses)
    let s1 := (stopFeeding s).pb PSQ_STAT_BOUNDARY true
    { s1 with psq := { s1.psq with bstep := 1, brate := r, bpasses := p } }
  else s

def execSpeedBoundaryStart (s : State) : Host.Outcome State Fault Refusal := .next (live boundaryStart s)

/-- Every context FEEDING or later is SPOILED, or has finished at its stations (step 2). -/
def boundaryClear (s : State) : Bool :=
  (ctxKeys s).all fun c => !feedingLater (ctxState s c) || ctxState s c == Px.spoiled
    || s.g (PCTX_STATE_STN_DONE c) == s.g (PCTX_STATE_STN_MASK c)

/-- BOUNDARY_PATH_CLEAR: polygons, pixel clocks and belt are commanded and the waiting PTRIM applied (step 3). -/
def boundaryPathClear (s : State) : State :=
  if s.on PSQ_STAT_BOUNDARY ∧ s.psq.bstep = 1 ∧ boundaryClear s then
    let t := s.gi PSQ_PTRIM_TRIM
    let s1 := applyTrim t (commandSpeeds s.psq.brate s.psq.bpasses t s)
    { s1 with psq := { s1.psq with bstep := 2 } }
  else s

def execBoundaryPathClear (s : State) : Host.Outcome State Fault Refusal := .next (live boundaryPathClear s)

/-- Polygons of enabled stations locked and the belt in its band (step 4, R27). -/
def speedsHold (s : State) : Bool := (enabledStns s).all (polyLocked s) && beltOk s

/-- BOUNDARY_LOCKED (steps 4 and 5): the speed in force is that of the boundary. -/
def boundaryLocked (s : State) : State :=
  if s.on PSQ_STAT_BOUNDARY ∧ s.psq.bstep = 2 ∧ speedsHold s then
    let s1 := endBoundary s
    { s1 with psq := { s1.psq with lastRate := s.psq.brate, lastPasses := s.psq.bpasses, newSpeed := true } }
  else s

def execBoundaryLocked (s : State) : Host.Outcome State Fault Refusal := .next (live boundaryLocked s)

/-- A write of PSQ_PTRIM (R126, R454). -/
def ptrimWrite (v : Word) (s : State) : State :=
  let t := sext 32 v.toNat
  if t < -2000000 ∨ 2000000 < t then s.pb PSQ_STAT_CFG_ERR true
  else feedSync (warmupSpeeds ((noteChange s).pz PSQ_PTRIM_TRIM t))

def execPtrimWrite (v : Word) (s : State) : Host.Outcome State Fault Refusal :=
  .next (hostAt PSQ_PTRIM (ptrimWrite v) s)

/-! ## Engine (R27, R75, R451) -/

/-- What WARMUP waits for (R27). -/
def warm (s : State) : Bool :=
  pwState s == Pw.on && !s.on PWR_STAT_ON_HELD && cmdRate s != 0 && railsReady s && heatReady s && (enabledStns s).all (polyLocked s) && (enabledStns s).all (linkTrained s)
    && beltOk s && hvReady s && !anyOpen s

def execWarmupComplete (s : State) : Host.Outcome State Fault Refusal :=
  .next (live (fun s => if s.engine = Eng.warmup ∧ warm s then s.setEngine Eng.ready else s) s)

/-- DRAIN_COMPLETE: the path is empty, and the engine furls. -/
def execDrainComplete (s : State) : Host.Outcome State Fault Refusal :=
  .next (live (fun s => if s.engine = Eng.draining ∧ pathEmpty s then furl s else s) s)

end Sys2Proof.Machine
end

