-- ==== Sys2Proof/Machine/Link.lean ====
section
/-!
DEFINITION. The Amonone link's commands: training, CAPS, STATUS, HEALTH and LIV packets, resends, banks, and the link
control register (spec/08_amonone_link.md R185-R187, R193-R203; spec/07_emitters_scan.md R166, R170, R171).
-/

namespace Sys2Proof.Machine

open Reg

def linkU (s : State) (n : Nat) : LinkU := (s.stnU n).link

/-- The rigging maps station `n`'s link: lane 0 and the back channel (R185). -/
def linkMapped (s : State) (n : Nat) : Bool := s.rigged && [0, 1, 4, 5].all fun k => s.mapped 1 n k

/-! ## Training (R185-R187, R203) -/

def execLinkTrainStart (n : Fin 8) (s : State) : Host.Outcome State Fault Refusal :=
  .next (stnLive n (fun s =>
    if linkState s n = Lk.down ∧ linkMapped s n ∧ !s.on (STN_LCTRL_DOWN n) ∧ !(linkU s n).noRetry then linkStart n s else s) s)

def execRetrainDelayEnd (n : Fin 8) (s : State) : Host.Outcome State Fault Refusal :=
  .next (stnLive n (fun s => if linkState s n = Lk.wait then linkStart n s else s) s)

/-- The generation whose tables training loads: that of the next sheet due, else the newest (R196). -/
def loadGen (s : State) (n : Nat) : Gen :=
  let u := s.stnU n
  (u.held.find? fun g => g.num == targetNum s n).getD u.newest

/-- Step 5: both banks are loaded, and LIGHT sent where R197 allows. -/
def linkLoad (n : Nat) (s : State) : State :=
  let g := loadGen s n
  let s1 := modLink n (fun l => { l with step := 5, bankGen := [some g.id, some g.id] }) (s.p (STN_LSTAT_STATE n) Lk.load)
  let s2 := sendBank n 1 g (sendBank n 0 g s1)
  if lightAllowed s2 then sendControl n 0x14 0 [] s2 else s2

/-- Block lock on the back channel ends a PRBS step. -/
def backLock (n : Nat) (s : State) : State :=
  let k := (linkU s n).step
  if k = 1 then modLink n (fun l => { l with step := 2 }) (s.p (STN_LSTAT_STATE n) Lk.caps)
  else if k = 4 then linkLoad n s
  else s

def execBackBlockLock (n : Fin 8) (s : State) : Host.Outcome State Fault Refusal := .next (stnLive n (backLock n) s)

/-- Loss of block lock: a link loss while UP, the end of the attempt in training. -/
def backLoss (n : Nat) (s : State) : State :=
  let k := (linkU s n).step
  if k = 6 then linkLoss n 4 s else if k = 2 ∨ k = 3 ∨ k = 5 then linkFail n 4 s else s

def execBackLockLoss (n : Fin 8) (s : State) : Host.Outcome State Fault Refusal := .next (stnLive n (backLoss n) s)

/-- The version range the device offers (R186). -/
def devMin (s : State) (n : Nat) : Nat := max 0x0100 (s.stnU n).newest.alMin
def devMax (s : State) (n : Nat) : Nat := min 0x0200 (s.stnU n).newest.alMax

def capsReq (n : Nat) (s : State) : State :=
  sendPacket n 0x10 0 0 (leBytes 2 (devMin s n) ++ leBytes 2 (devMax s n) ++ leBytes 1 n ++ leBytes 3 0) s

def execCapsReqSend (n : Fin 8) (s : State) : Host.Outcome State Fault Refusal :=
  .next (stnLive n (fun s => if (linkU s n).step = 2 then capsReq n s else s) s)

/-- The version chosen (R186). -/
def chooseVersion (s : State) (n lo hi : Nat) : Option Nat :=
  [0x0200, 0x0101, 0x0100].find? fun v => decide (v ≤ min (devMax s n) hi ∧ max (devMin s n) lo ≤ v)

/-- CAPS_RX (R186, R187). -/
def capsRx (n : Nat) (c : Caps) (s : State) : State :=
  if (linkU s n).step ≠ 2 then s
  else if c.e.toNat = 0 ∨ 40 < c.e.toNat ∨ c.pitch.toNat = 0 ∨ 15 < c.pitch.toNat ∨ 16384 < c.sos.toNat ∨ c.ok = false then
    capsReq n s
  else
    let s1 := (s.p (STN_DCAP0_DRV_MIN n) c.drvMin.toNat).p (STN_DCAP0_DRV_MAX n) c.drvMax.toNat
    let s2 := ((s1.p (STN_DCAP1_SOS n) c.sos.toNat).pb (STN_DCAP1_LIV n) c.liv).p (STN_DCAP1_PITCH n) c.pitch.toNat
    let s3 := (s2.p (STN_DCAP1_E n) c.e.toNat).p (STN_DCAP2_BUF_BYTES n) c.bufBytes.toNat
    let s4 := serialSeen n c.serial.toNat s3
    match chooseVersion s4 n c.drvMin.toNat c.drvMax.toNat with
    | none => linkFail n 2 s4
    | some v =>
      let s5 := linkOkSync n (modLink n (fun l => { l with version := v, step := 3 }) s4)
      sendControl n 0x11 0 (leBytes 2 v ++ leBytes 6 0) s5

def execCapsRx (n : Fin 8) (caps : Caps) (s : State) : Host.Outcome State Fault Refusal :=
  .next (stnLive n (capsRx n caps) s)

/-- The timeout of a training step: NO_LOCK for PRBS, CAPS for CAPS; steps 3 and 5 end by their resends. -/
def trainTimeout (n : Nat) (s : State) : State :=
  let k := (linkU s n).step
  if k = 1 ∨ k = 4 then linkFail n 1 s else if k = 2 then linkFail n 3 s else s

def execTrainTimeout (n : Fin 8) (s : State) : Host.Outcome State Fault Refusal := .next (stnLive n (trainTimeout n) s)

/-! ## STATUS (R193-R196, R199-R202) -/

/-- A packet's SEQ is reached by ACK_SEQ. -/
def acked (ack seq : Nat) : Bool := decide (0 ≤ sext 16 ((ack + 65536 - seq % 65536) % 65536))

/-- Acknowledgements: training goes on, LIGHT lights, banks are loaded. -/
def linkAcks (n ack : Nat) (s : State) : State :=
  let l := linkU s n
  let got := l.waiting.filter fun c => acked ack c.seq
  let s1 := modLink n (fun l => { l with waiting := l.waiting.filter fun c => !acked ack c.seq }) s
  let s2 := if got.any (fun c => c.ty == 0x14) then s1.pb (STN_LSTAT_LIT n) true else s1
  if l.step = 3 ∧ got.any (fun c => c.ty == 0x11) then
    let s3 := modLink n (fun l => { l with agreed := true }) s2
    if l.version = 0x0200 then modLink n (fun l => { l with step := 4 }) (s3.p (STN_LSTAT_STATE n) Lk.prbsHi)
    else linkLoad n s3
  else if l.step = 5 ∧ (linkU s2 n).waiting.isEmpty then
    let s3 := modLink n (fun l => { l with step := 6, fails := 0 }) (s2.p (STN_LSTAT_STATE n) Lk.up)
    linkOkSync n (s3.p (STN_LSTAT_VERSION n) l.version)
  else match l.loading with
    | some (b, g) =>
      if (linkU s2 n).waiting.any (fun c => c.ty == 0x12 || c.ty == 0x13) then s2
      else modLink n (fun l => { l with loading := none, bankGen := l.bankGen.set b (some g) }) s2
    | none => s2

/-- The station acts as on a report at HT_CRIT (R171, R201); the fault is recorded once, as the station goes dark. -/
def headCrit (n : Nat) (s : State) : State :=
  let s1 := if s.on (STN_HEAD_DARK n) then s else stnFault 11 n (spoiledBy Cause.headHot n s) s
  spoilAt Cause.headHot n ((s1.pb (STN_HEAD_DARK n) true).pb (STN_ESTAT_HEAD_CRIT n) true)

/-- A head temperature report, 1/16 degree C (R170, R171). -/
def headReport (n : Nat) (t : Int) (s : State) : State :=
  let g := (s.stnU n).active
  let s1 := (s.modStn n fun u => { u with headT := t }).pz (STN_HEAD_TEMP n) t
  if g.num = 0 then s1
  else
    let warm := decide (g.htWarn ≤ t)
    let s2 := s1.pb (STN_HEAD_WARN n) warm
    let s3 := if warm && s.on (STN_STAT_OCCUPIED n) && !(s.stnU n).frozen && !(s.stnU n).freezeFirst then
        ((s2.modStn n fun u => { u with frozen := true }).pb (STN_HEAD_FROZEN n) true).pb (STN_ESTAT_HEAD_WARN n) true
      else s2
    if g.htCrit ≤ t then headCrit n s3
    else if warm then s3
    else s3.pb (STN_HEAD_DARK n) false

/-- One sweep more in the last 64 (R202). -/
def recentPush (n k : Nat) (damaged : Bool) (s : State) : State :=
  modLink n (fun l => { l with recent := ((k, damaged, 0) :: l.recent).take 64 }) s

/-- A sweep among the last 64 turns out damaged. -/
def recentDamage (n k : Nat) (s : State) : State :=
  modLink n (fun l => { l with recent := l.recent.map fun x => if x.1 = k then (k, true, x.2.2) else x }) s

/-- More than BURST damaged sweeps, or packets discarded, within 64 sweeps. -/
def burst (s : State) (n : Nat) : Bool :=
  let l := linkU s n
  let b := (s.stnU n).active.burst
  decide (b < (l.recent.filter (·.2.1)).length) || decide (b < sumN (l.recent.map (·.2.2)))

/-- A damaged sweep spoils the sheet it belongs to; the station records the fault it strikes with (R194, R421). -/
def damagedSweep (n : Nat) (sheet : Option Nat) (s : State) : State :=
  let s1 := (s.pb (STN_LERR_DAMAGED n) true).inc (STN_LCOUNT_DAMAGED n)
  match sheet with
  | some c => spoil Cause.linkLoss c (if spoilable s c then stnFault 15 n (some (c, Cause.linkLoss)) s1 else s1)
  | none => s1

/-- What a STATUS says of a sweep written, one counted as unreported among them (R194, R196, R201). A STATUS that comes
after its sweep was counted as unreported ends no row of them and is no sweep more. -/
def sweepReport (n : Nat) (st : LinkStatus) (s : State) : State :=
  if st.sweep = 0xFFFFFFFF#32 then s
  else
    let l := linkU s n
    let k := st.sweep.toNat
    let last := if l.lastSweep = some k then none else l.lastSweep
    match l.unreported.find? fun x => x.1 == k with
    | some (_, sheet) =>
      let s1 := modLink n (fun l =>
        { l with unreported := l.unreported.filter fun x => x.1 != k, unrep := 0, lastSweep := last }) s
      let s2 := recentPush n k st.damaged s1
      if st.damaged then damagedSweep n sheet s2 else s2
    | none =>
      let sheet := (l.missed.find? fun x => x.1 == k).map (·.2)
      let s1 := modLink n (fun l => { l with missed := l.missed.filter fun x => x.1 != k, lastSweep := last }) s
      if st.damaged then damagedSweep n sheet (recentDamage n k s1) else s1

/-- STATUS_RX. -/
def statusRx (n : Nat) (st : LinkStatus) (s : State) : State :=
  let k := (linkU s n).step
  if k < 2 ∨ k = 4 then s
  else
    let lit := s.on (STN_LSTAT_LIT n)
    let s1 := linkAcks n st.ackSeq.toNat (s.p (STN_BDTS_BD_TIME n) st.bdTime.toNat)
    let s2 := if st.sensorFault then s1.pb (STN_LERR_SENSOR_FAULT n) true else s1
    let s3 := sweepReport n st (headReport n (if st.sensorFault then 0x7FFF else sext 16 st.headT.toNat) s2)
    let s4 := if st.late then s3.pb (STN_LERR_LATE n) true else s3
    if k ≠ 6 then s4
    else if !st.lock then linkLoss n 5 s4
    else if burst s4 n then linkLoss n 6 s4
    else if st.late then linkLoss n 8 s4
    else if st.dark && lit then linkLoss n 9 s4
    else s4

def execStatusRx (n : Fin 8) (st : LinkStatus) (s : State) : Host.Outcome State Fault Refusal :=
  .next (stnLive n (statusRx n st) s)

/-- A back-channel packet discarded (R202). -/
def backDiscard (n : Nat) (s : State) : State :=
  if (linkU s n).step < 2 then s
  else
    let s1 := (s.pb (STN_LERR_BACK_CRC n) true).inc (STN_LCOUNT_BACK_CRC n)
    let s2 := modLink n (fun l => { l with recent := match l.recent with
        | (m, d, k) :: r => (m, d, k + 1) :: r
        | [] => [(s.g (STN_SWEEPNO_COUNT n), false, 1)] }) s1
    if burst s2 n then linkLoss n 6 s2 else s2

def execBackPacketDiscard (n : Fin 8) (s : State) : Host.Outcome State Fault Refusal := .next (stnLive n (backDiscard n) s)

/-- SWEEP_UNREPORTED (R201): the STATUS of the oldest sweep outstanding has not come by the edge two sweeps later. -/
def sweepUnreported (n : Nat) (s : State) : State :=
  match (linkU s n).unreported with
  | [] => s
  | (num, c) :: r =>
    if sext 28 ((s.g (STN_SWEEPNO_COUNT n) + 2 ^ 28 - num % 2 ^ 28) % 2 ^ 28) < 2 then s
    else
      let k := (linkU s n).unrep + 1
      let s1 := modLink n (fun l => { l with unreported := r, unrep := k, missed := match c with
        | some c => l.missed ++ [(num, c)]
        | none => l.missed }) (s.pb (STN_LERR_UNREPORTED n) true)
      let s2 := recentPush n num false s1
      if 8 ≤ k ∧ linkState s n = Lk.up then headCrit n s2 else s2

def execSweepUnreported (n : Fin 8) (s : State) : Host.Outcome State Fault Refusal :=
  .next (stnLive n (sweepUnreported n) s)

/-- HEALTH_RX (R166). -/
def healthRx (n e : Nat) (s : State) : State :=
  if (linkU s n).step < 2 then s
  else
    let s1 := (s.pb (STN_ESTAT_EMITTER_FAIL n) true).pb (STN_EM_HEALTH n e) true
    corrected 1 n 4 e (s1.modStn n fun u => { u with health := Nat.lor u.health (2 ^ e) })

def execHealthRx (n : Fin 8) (em : Fin 40) (_ : BitVec 8) (s : State) : Host.Outcome State Fault Refusal :=
  .next (stnLive n (healthRx n em) s)

/-- LIV_RX (R200): a packet of AL2.0. -/
def livRx (n e vf power : Nat) (s : State) : State :=
  if (linkU s n).version ≠ 0x0200 ∨ (linkU s n).agreed = false then s
  else (s.p (STN_LIV_VF n e) vf).p (STN_LIV_POWER n e) power

def execLivRx (n : Fin 8) (em : Fin 40) (vf power : BitVec 16) (s : State) : Host.Outcome State Fault Refusal :=
  .next (stnLive n (livRx n em vf.toNat power.toNat) s)

/-- LIV_REQ_SEND (R200). -/
def livReq (n : Nat) (s : State) : State :=
  if linkState s n = Lk.up ∧ (linkU s n).version = 0x0200 ∧ (s.stnU n).active.liv ∧ s.on (STN_DCAP1_LIV n)
      ∧ s.on (STN_STAT_OCCUPIED n) = false then sendControl n 0x15 0 (leBytes 1 0xFF ++ leBytes 7 0) s
  else s

def execLivReqSend (n : Fin 8) (s : State) : Host.Outcome State Fault Refusal := .next (stnLive n (livReq n) s)

/-- CONTROL_RESEND_TIMEOUT (R185, R195): sent again as it was, up to 3 times. -/
def controlResend (n seq : Nat) (s : State) : State :=
  match (linkU s n).waiting.find? fun c => c.seq == seq with
  | none => s
  | some c =>
    if c.resends < 3 then
      let s1 := modLink n (fun l => { l with waiting := l.waiting.map fun (x : Ctl) =>
        if x.seq = seq then { x with resends := x.resends + 1 } else x }) s
      (flushSweep n (s1.pb (STN_LERR_RESEND n) true)).emit (.packet n c.bytes)
    else if c.ty = 0x11 then linkFail n 3 s
    else if (linkU s n).step = 5 then linkFail n 7 s
    else linkLoss n 7 s

def execControlResendTimeout (n : Fin 8) (seq : BitVec 16) (s : State) : Host.Outcome State Fault Refusal :=
  .next (stnLive n (controlResend n seq.toNat) s)

/-- BANK_LOAD_START (R196): the spare bank takes the tables of the generation of the next sheet due. -/
def bankLoad (n : Nat) (s : State) : State :=
  let l := linkU s n
  match dueCtx s n with
  | none => s
  | some c =>
    match carriedGen s n c with
    | some g =>
      if linkState s n = Lk.up ∧ l.loading = none ∧ s.on (STN_STAT_OCCUPIED n) = false ∧ (bankOf s n g.id).isNone
          ∧ l.lastSweep = none then
        let b := 1 - s.g (STN_LSTAT_BANK n)
        sendBank n b g (modLink n (fun l => { l with loading := some (b, g.id), bankGen := l.bankGen.set b none }) s)
      else s
    | none => s

def execBankLoadStart (n : Fin 8) (s : State) : Host.Outcome State Fault Refusal := .next (stnLive n (bankLoad n) s)

/-! ## STNn_LCTRL (R185, R197) -/

/-- A write of STNn_LCTRL: DOWN darkens and holds the link down, its clearing trains it, RETRAIN trains it anew. -/
def lctrlWrite (n : Nat) (v : Word) (s : State) : State :=
  let down := fieldOf (STN_LCTRL_DOWN n) v = 1
  let was := s.on (STN_LCTRL_DOWN n)
  let s1 := s.pb (STN_LCTRL_DOWN n) down
  if down then
    if was then s1
    else
      let s2 := (sendDark n 2 (spoilAt Cause.linkLoss n s1)).p (STN_LSTAT_STATE n) Lk.down
      linkOkSync n <| modLink n (fun l => { l with step := 0, version := 0, waiting := [], loading := none, unreported := [], missed := [], lastSweep := none, sending := [] })
        (s2.p (STN_LSTAT_VERSION n) 0)
  else if fieldOf (STN_LCTRL_RETRAIN n) v = 1 then
    if linkState s1 n = Lk.up then linkLoss n 10 s1 else if linkMapped s1 n then linkStart n s1 else s1
  else if was ∧ linkMapped s1 n then linkStart n s1
  else s1

def execLinkDown (n : Fin 8) (v : Word) (s : State) : Host.Outcome State Fault Refusal :=
  .next (hostAt (STN_LCTRL n) (lctrlWrite n v) s)

def execLinkUp (n : Fin 8) (v : Word) (s : State) : Host.Outcome State Fault Refusal :=
  .next (hostAt (STN_LCTRL n) (lctrlWrite n v) s)

def execLinkRetrain (n : Fin 8) (v : Word) (s : State) : Host.Outcome State Fault Refusal :=
  .next (hostAt (STN_LCTRL n) (lctrlWrite n v) s)

end Sys2Proof.Machine
end

