-- ==== Sys2Proof/Machine/Clocks.lean ====
section
/-!
DEFINITION. Clocks (spec/16_clocks_islands.md): locks and losses of the PLLs, the loss of the reference, band
measurements, the LOCK_A output, the clock registers.
-/

namespace Sys2Proof.Machine

open Reg

/-- The region of an island (R356), by the numbers of R415. -/
def islandRegion (i : Nat) : Nat :=
  if i = 0 then 6 else if i ≤ 3 then 5 else if i ≤ 6 then 3 else if i ≤ 8 then 4 else if i ≤ 17 then 0
  else if i = 18 then 2 else 1

def ckoSyncAll (s : State) : State := overN 12 ckoSync s

/-! ## Losses (R353) -/

/-- Every island clocked from the reference through a PLL stops; where the reference itself is lost, the stay island
runs from its internal oscillator and every other stops. -/
def stopIslands (reference : Bool) (s : State) : State :=
  overN 48 (fun i s =>
    let src := s.g (CLK_ISL_SRC i)
    if i = 1 then (if reference then islOn 1 14 40000 s else s)
    else if reference || src == 0 || src == 13 then s.pb (CLK_ISL_STOPPED i) true
    else s) s

/-- The CHIP_FATAL record of a stopped CLK island, made by the stay island in the NVM ring only (R422). -/
def stayFatal (block code : Nat) (s : State) : State :=
  let t := s.pwr.shadowAt
  let words := recWords ((s.staySeq + 1) % 2 ^ 32) { sev := 3, cls := block / 256, inst := block % 256, code := code } 0 t
  fatalChip { nvmRecord words s with staySeq := (s.staySeq + 1) % 2 ^ 32 }

/-- The loss of SYSPLL or of the reference: an NVM record and the CHIP_FATAL effect, and the islands stop. -/
def clockFatal (reference : Bool) (s : State) : State :=
  let block := if reference then (Config.errCode 5).toNat else 0x5300
  stopIslands reference (stayFatal block (Config.errCode (if reference then 4 else 3)).toNat s)

/-- A PXPLL lost: a CONTAINED fault naming the station, the sheet there spoiled, the link untrained until relock, which
begins by itself. -/
def pxLost (n : Nat) (s : State) : State :=
  let s1 := (pxRelock n s).pb (STN_PXCTL_LOCK n) false
  let s2 := raise { sev := 1, cls := 1, inst := n, code := 6, spoiled := spoiledBy Cause.linkLoss n s1 } s1
  spoilAt Cause.linkLoss n s2

/-- Regions with an island that runs from AUXPLL `p`. -/
def regionsOn (s : State) (p : Nat) : List Nat :=
  (List.range 7).filter fun r => (List.range 48).any fun i => islandRegion i == r && s.g (CLK_ISL_SRC i) == p

/-- What the loss of PLL `p` does (R353). -/
def lostEffect (p : Nat) (s : State) : State :=
  if p = 0 then clockFatal false s
  else if p = 1 then raise { sev := 2, cls := 0x53, inst := 1, code := (Config.errCode 2).toNat, region := some 3 } s
  else if p ≤ 9 then islFollow p (pxLost (p - 2) s)
  else
    match regionsOn s p with
    | [] => corrected 0x53 p (Config.errCode 2).toNat 0xFFFF s
    | rs => rs.foldl (fun s r =>
        raise { sev := 2, cls := 0x53, inst := p, code := (Config.errCode 2).toNat, region := some r } s) s

/-- LOCK of a PLL clears unasked. -/
def pllLoss (p : Nat) (s : State) : State :=
  if !pllLocked s p then s
  else
    let s1 := ((s.pb (CLK_PLL_STAT_LOCK p) false).pb (CLK_PLL_STAT_LOST p) true).inc (CLK_PLL_STAT_LOSSES p)
    lostEffect p (calibrate p s1)

def execPllLoss (p : Fin 12) (s : State) : Host.Outcome State Fault Refusal := .next (live (pllLoss p) s)

/-- A PLL that runs and is not locked calibrates its band and locks, or finds none (R348, R351). -/
def pllLock (p : Nat) (s : State) : State :=
  if p = 0 ∨ !s.on (CLK_PLL_STAT_RUN p) ∨ pllLocked s p ∨ measured s p then s
  else
    let s0 := setCal p none s
    match (bankGet none s.clk.cal p).getD (bandNow s p) with
    | none => setCal p none (lostEffect p (s0.pb (CLK_PLL_STAT_NO_BAND p) true))
    | some b =>
      let s1 := (s0.p (CLK_PLL_STAT_BAND p) b).pb (CLK_PLL_STAT_LOCK p) true
      let s2 := if 2 ≤ p ∧ p ≤ 9 then s1.pb (STN_PXCTL_LOCK (p - 2)) true else s1
      ckoSyncAll (islFollow p s2)

def execPllLock (p : Fin 12) (s : State) : Host.Outcome State Fault Refusal := .next (live (fun s => trainClocked (pllLock p s)) s)

/-- The reference shows no edge for 1 us: every PLL is lost. -/
def refLoss (s : State) : State :=
  if !s.on CLK_REF_OK then s
  else
    let s1 := (s.pb CLK_REF_OK false).pb CLK_REF_LOSS true
    let s2 := overN 12 (fun p s =>
      if pllLocked s p then
        ((s.pb (CLK_PLL_STAT_LOCK p) false).pb (CLK_PLL_STAT_LOST p) true).inc (CLK_PLL_STAT_LOSSES p)
      else s) s1
    let s3 := overN 8 (fun n s => s.pb (STN_PXCTL_LOCK n) false) s2
    clockFatal true s3

/-- The reference is lost, with SYSPLL running or lost already. -/
def execReferenceLoss (s : State) : Host.Outcome State Fault Refusal := .next (if s.inReset then s else refLoss s)

/-! ## Band measurements (R349) -/

/-- A PLL that may be measured: unlocked, and a PXPLL of a station not enabled or an AUXPLL with no record. -/
def measurable (s : State) (p : Nat) : Bool :=
  !pllLocked s p &&
    (if 2 ≤ p ∧ p ≤ 9 then decide (p - 2 < s.part.stations) && !s.on (STN_PCFG_ENABLED (p - 2))
     else decide (p = 10 ∨ p = 11) && !s.on (CLK_PLL_STAT_RUN p))

/-- A write of CLK_BANDMEAS: START measures the PLL and band of the same write, or is refused. -/
def bandMeasWrite (v : Word) (s : State) : State :=
  let s1 := s.plainWrite CLK_BANDMEAS v
  let p := s1.g CLK_BANDMEAS_PLL
  if fieldOf CLK_BANDMEAS_START v = 0 then s1
  else if s.on CLK_BANDMEAS_BUSY || !measurable s1 p then s1.pb CLK_BANDMEAS_REFUSED true
  else { s1.pb CLK_BANDMEAS_BUSY true with clk := { s1.clk with meas := p } }

def execBandMeasureStart (v : Word) (s : State) : Host.Outcome State Fault Refusal :=
  .next (hostAt CLK_BANDMEAS (bandMeasWrite v) s)

/-- The measurement ends with the frequencies counted, in MHz. -/
def bandMeasDone (fmin fmax : Nat) (s : State) : State :=
  if !s.on CLK_BANDMEAS_BUSY then s
  else calibrate s.clk.meas (((s.pb CLK_BANDMEAS_BUSY false).p CLK_BANDRES_FMIN fmin).p CLK_BANDRES_FMAX fmax)

def execBandMeasureDone (fmin fmax : BitVec 16) (s : State) : Host.Outcome State Fault Refusal :=
  .next (live (bandMeasDone fmin.toNat fmax.toNat) s)

/-! ## LOCK_A (R352) -/

/-- LOCK_A is high: no masked PLL is off or unlocked, and no excursion's pulse runs. -/
def lockAHigh (s : State) : Bool :=
  decide (s.clk.lockA ≤ s.clock) &&
    (List.range 12).all fun p => bitsOf (s.g CLK_LOCKA_MASK) p 1 == 0 || (s.on (CLK_PLL_STAT_RUN p) && pllLocked s p)

/-- A phase error of a masked PLL beyond the window pulls LOCK_A low for 2 us, or extends a pulse by 2 us. -/
def excursion (p : Nat) (s : State) : State :=
  if bitsOf (s.g CLK_LOCKA_MASK) p 1 = 0 then s
  else { s with clk := { s.clk with lockA := max s.clock s.clk.lockA + 2000 } }

def execPllPhaseExcursion (p : Fin 12) (s : State) : Host.Outcome State Fault Refusal := .next (live (excursion p) s)

/-- A write of CLK_LOCKA: the bits of absent PXPLLs ignore it. -/
def lockaWrite (v : Word) (s : State) : State :=
  let s1 := s.plainWrite CLK_LOCKA v
  s1.p CLK_LOCKA_MASK ((List.range 12).foldl (fun a p =>
    if 2 ≤ p ∧ p ≤ 9 ∧ s.part.stations ≤ p - 2 then a + bitsOf (s.g CLK_LOCKA_MASK) p 1 * 2 ^ p
    else a + bitsOf (s1.g CLK_LOCKA_MASK) p 1 * 2 ^ p) 0)

/-- A write of CLK_CKOk: the output stops and restarts on its new clock, or stays low above its limit (R354). -/
def ckoWrite (k : Nat) (v : Word) (s : State) : State := ckoSync k (s.plainWrite (CLK_CKO k) v)

end Sys2Proof.Machine
end

