-- ==== Sys2Proof/Machine/Monitors.lean ====
section
/-!
DEFINITION. Crow's nest monitors, the escalation of errors, the reads of the error log and the interrupt mask
(spec/20_monitors_errors.md R411-R421, spec/21_register_index.md R428).
-/

namespace Sys2Proof.Machine

open Reg

/-! ## Monitors -/

/-- A probe point of R411's table on this part. -/
def probeOk (s : State) (kind sel : Nat) : Bool :=
  let p := s.part
  if kind = 1 then
    decide (sel < p.stations ∨ (8 ≤ sel ∧ sel ≤ 15) ∨ (sel = 16 ∧ p ≠ .mlv9040) ∨ (17 ≤ sel ∧ sel < 17 + p.csi)
      ∨ sel = 21 ∨ sel = 22 ∨ (64 ≤ sel ∧ sel ≤ 131))
  else if kind = 2 then decide (sel < p.stations)
  else if kind = 3 then
    decide (sel ≤ 15 ∨ (16 ≤ sel ∧ sel < 16 + p.csi) ∨ sel = 20 ∨ (sel = 21 ∧ p ≠ .mlv9040)
      ∨ (22 ≤ sel ∧ sel < 22 + p.eth) ∨ (24 ≤ sel ∧ sel ≤ 91))
  else if kind = 4 then decide (sel ≤ 17)
  else if kind = 5 then
    sel == 55 || (decide (48 ≤ sel ∧ sel < 55) && (List.range 4).any fun j => sensorPresent p (4 * (sel - 48) + j))
      || (decide (sel < 48) && sensorPresent p sel)
  else if kind = 6 then decide (sel < p.foc ∨ (32 ≤ sel ∧ sel < 32 + p.foc))
  else false

def monU (s : State) (m : Nat) : Mon := bankGet {} s.mon m
def setMon (m : Nat) (u : Mon) (s : State) : State := { s with mon := bankPut {} m u s.mon }

/-- The live statistics copied to the snapshot (R413). -/
def monSnap (m : Nat) (s : State) : State :=
  let u := monU s m
  let s1 := ((s.pz (MON_MIN_VALUE m) u.lo).pz (MON_MAX_VALUE m) u.hi).p (MON_COUNT_VALUE m) u.count
  let s2 := overN 64 (fun k s => s.p (MON_BIN_COUNT m k) (bankGet 0 u.bins k)) s1
  if s2.on (MON_CFG_CLR_ON_SNAP m) then setMon m { seen := u.seen } s2 else s2

/-- Live and snapshot statistics zeroed. -/
def monClear (m : Nat) (s : State) : State :=
  let s1 := setMon m { seen := (monU s m).seen } s
  let s2 := ((s1.pz (MON_MIN_VALUE m) 2147483647).pz (MON_MAX_VALUE m) (-2147483648)).p (MON_COUNT_VALUE m) 0
  overN 64 (fun k s => s.p (MON_BIN_COUNT m k) 0) s2

/-- A write of MONm_CFG: while ENABLE is 1 a change of the probe is ignored; setting ENABLE with no such probe is
ignored; then SNAP and CLEAR, in that order (R411, R413, R414). -/
def monCfgWrite (m : Nat) (v : Word) (s : State) : State :=
  let s1 := s.plainWrite (MON_CFG m) v
  let same := s1.g (MON_CFG_KIND m) == s.g (MON_CFG_KIND m) && s1.g (MON_CFG_SEL m) == s.g (MON_CFG_SEL m)
    && s1.g (MON_CFG_SUB m) == s.g (MON_CFG_SUB m)
  let s2 :=
    if s.on (MON_CFG_ENABLE m) then
      if same then s1
      else (((s1.p (MON_CFG_KIND m) (s.g (MON_CFG_KIND m))).p (MON_CFG_SEL m) (s.g (MON_CFG_SEL m))).p
        (MON_CFG_SUB m) (s.g (MON_CFG_SUB m))).pb (MON_STAT_CFG_ERR m) true
    else if s1.on (MON_CFG_ENABLE m) && !probeOk s (s1.g (MON_CFG_KIND m)) (s1.g (MON_CFG_SEL m)) then
      (s1.pb (MON_CFG_ENABLE m) false).pb (MON_STAT_CFG_ERR m) true
    else if s1.on (MON_CFG_ENABLE m) then setMon m { monU s1 m with seen := 0 } s1
    else s1
  let s3 := s2.pb (MON_STAT_RUNNING m) (s2.on (MON_CFG_ENABLE m))
  let s4 := if fieldOf (MON_CFG_SNAP m) v = 1 then monSnap m s3 else s3
  if fieldOf (MON_CFG_CLEAR m) v = 1 then monClear m s4 else s4

def execMonEnable (m : Fin 32) (v : Word) (s : State) : Host.Outcome State Fault Refusal :=
  .next (hostAt (MON_CFG m) (monCfgWrite m v) s)

def execMonSnap (m : Fin 32) (v : Word) (s : State) : Host.Outcome State Fault Refusal :=
  .next (hostAt (MON_CFG m) (monCfgWrite m v) s)

def execMonClear (m : Fin 32) (v : Word) (s : State) : Host.Outcome State Fault Refusal :=
  .next (hostAt (MON_CFG m) (monCfgWrite m v) s)

/-- A write of MONm_BASE or MONm_SCALE, ignored while ENABLE is 1 (R414). -/
def monParamWrite (m off : Nat) (v : Word) (s : State) : State :=
  if s.on (MON_CFG_ENABLE m) then s.pb (MON_STAT_CFG_ERR m) true else s.plainWrite off v

/-- A bit of MON_ALARM set, with the vector when it rises, and the halyard event (R412, R414). -/
def monAlarm (m : Nat) (s : State) : State :=
  let a := s.g MON_ALARM_ALARM
  let s1 := ((s.pb (MON_STAT_ALARM m) true).p MON_ALARM_ALARM (Nat.lor a (2 ^ m))).event (.monAlarm m)
  if bitsOf a m 1 = 0 then s1.msix (s1.g MON_CTRL_VECTOR) else s1

/-- A sample taken by monitor `m` updates the live statistics (R412). -/
def monTake (m : Nat) (x : Int) (s : State) : State :=
  let u := monU s m
  let k := (clampI 0 63 ((x - s.gi (MON_BASE_BASE m)) / (((max 1 (s.g (MON_SCALE_WIDTH m)) : Nat) : Int)))).toNat
  let b := bankGet 0 u.bins k
  let top := 0xFFFFFFFF
  let u1 : Mon := { seen := u.seen, lo := min u.lo x, hi := max u.hi x, count := min top (u.count + 1),
                    bins := bankPut 0 k (min top (b + 1)) u.bins }
  let s1 := setMon m u1 s
  let s2 := if u.count + 1 = top ∨ b + 1 = top then s1.pb (MON_STAT_SAT m) true else s1
  if x < s.gi (MON_ALO_LIMIT m) ∨ s.gi (MON_AHI_LIMIT m) < x then monAlarm m s2 else s2

/-! ## Escalation (R420) -/

/-- SEQ of the latest record of a block, if it has one. -/
def latestSeq (s : State) (cls inst : Nat) : Option Nat :=
  (latestOf s cls inst).map fun l => s.g (ERR_REC_WORD l.slot 0)

/-- A block's containment action has not completed within 1 ms: a REGION_FATAL record that escalates its record. -/
def containTimeout (cls inst : Nat) (s : State) : State :=
  let b := cls * 256 + inst
  match s.err.conts.find? fun c => c.1 == b with
  | some c =>
    raise { sev := 2, cls := cls, inst := inst, code := (Config.errCode 6).toNat, prev := c.2 }
      { s with err := { s.err with conts := s.err.conts.filter fun c => c.1 != b } }
  | none => s

def execContainmentTimeout (cls inst : BitVec 8) (s : State) : Host.Outcome State Fault Refusal :=
  .next (live (containTimeout cls.toNat inst.toNat) s)

/-- A region's recovery reset has not completed within 10 ms: CHIP_FATAL. -/
def resetTimeout (r : Nat) (s : State) : State :=
  if !s.err.regionReset.contains r then s
  else
    let s1 := { s with err.regionReset := s.err.regionReset.filter (· != r) }
    let f := (s.err.fatals.find? fun f => f.1 == r).getD (r, 0x6100, 0)
    let e : ErrIn := { sev := 3, cls := f.2.1 / 256, inst := f.2.1 % 256, code := (Config.errCode 7).toNat,
                       prev := f.2.2, region := some r, level := 2 }
    raise e s1

def execRegionResetTimeout (r : Fin 7) (s : State) : Host.Outcome State Fault Refusal := .next (live (resetTimeout r) s)

/-! ## Reads of the log (R417) -/

/-- A read of word 0 of a slot latches the other seven. -/
def slotRead (i be : Nat) (s : State) : State :=
  let s1 := (List.range 7).foldl (fun s w => s.setLatch (ERR_REC i (w + 1)) (s.reg (ERR_REC i (w + 1)))) s
  s1.answer (ERR_REC i 0) be (s.reg (ERR_REC i 0))

def execErrSlotRead (i : Fin 256) (be : Fin 16) (s : State) : Host.Outcome State Fault Refusal :=
  .next (hostAt (ERR_REC i 0) (slotRead i be) s)

/-! ## Interrupt root (R428) -/

/-- Regions at 1 that newly stand under the mask raise the root vector once. -/
def irqMaskWrite (v : Word) (s : State) : State :=
  let old := Nat.land (s.g CHIP_IRQ_STAT_REGION) (s.g CHIP_IRQ_MASK_REGION)
  let s1 := s.plainWrite CHIP_IRQ_MASK v
  let new := Nat.land (s1.g CHIP_IRQ_STAT_REGION) (s1.g CHIP_IRQ_MASK_REGION)
  if new - Nat.land new old ≠ 0 then s1.msix (s1.g CHIP_IRQ_CFG_VECTOR) else s1

def execIrqMaskWrite (v : Word) (s : State) : Host.Outcome State Fault Refusal :=
  .next (hostAt CHIP_IRQ_MASK (irqMaskWrite v) s)

end Sys2Proof.Machine
end

