-- ==== Sys2Proof/Machine/Rep.lean ====
section
/-!
DEFINITION. Queue pairs, sessions and mailboxes (spec/03_host_rep.md R54-R56, R61-R67, R75-R83): doorbells and pair
configuration, the order in which a command is checked, HELLO and BYE, SHEET_DONE, resets of the PCIe link.
-/

namespace Sys2Proof.Machine

open Reg

/-! ## Results of commands -/

/-- A command that completes when it has been applied, or is refused. -/
def done (e : Entry) (op status result : Nat) (s : State) : State :=
  post e.q { cid := e.cid.toNat, op := op, status := status, result := result } s

/-- RESULT of a TIME_EVENT: nanoseconds in [29:0], seconds [33:0] above (R68). -/
def timeResult (s : State) : Nat := s.time.ns % 2 ^ 30 + s.time.sec % 2 ^ 34 * 2 ^ 30

/-! ## Starting a command (R62, R64, R65, R67) -/

/-- How many entries pair `q` has queued: from the head up to the doorbell's index (R62). -/
def queuedIn (s : State) (q : Nat) : Nat :=
  (s.g (REP_QSQT_TAIL q) + s.sqSize q - s.g (REP_QSTAT_SQ_HEAD q)) % s.sqSize q

/-- An entry of pair `q` waits, and the pair is not stopped. While the engine is UNRIGGED the REP registers do not
respond and no command is judged (R67). -/
def entryWaits (s : State) (q : Nat) : Bool :=
  s.rigged && s.engine != Eng.unrigged && s.pairOn q && !(s.qpU q).stopped
    && s.g (REP_QSTAT_SQ_HEAD q) != s.g (REP_QSQT_TAIL q)

/-- The device may start the next command of pair `q`: its completion ring has space (R64). -/
def canStart (s : State) (q : Nat) : Bool := entryWaits s q && !s.cqFull q && (s.qpU q).held.isEmpty

/-- Host address of an entry of a submission ring (R61). -/
def sqAddr (s : State) (q i : Nat) : Nat :=
  s.g (REP_SQB_LO_ADDR q) * 4096 + s.g (REP_SQB_HI_ADDR q) * 2 ^ 32 + 64 * i

/-- The entry is fetched, by a snooped read (R57), and the head moves past it. -/
def fetchEntry (q : Nat) (s : State) : State :=
  (s.emit (.hostRead (sqAddr s q (s.g (REP_QSTAT_SQ_HEAD q))) 64 true)).p (REP_QSTAT_SQ_HEAD q)
    ((s.g (REP_QSTAT_SQ_HEAD q) + 1) % s.sqSize q)

/-- A command that was queued as the session began to close completes with VERSION (R77). -/
def doom (q cid op : Nat) (s : State) : State :=
  let s1 := fetchEntry q s
  let s2 := s1.setQp q { s1.qpU q with doomed := (s1.qpU q).doomed - 1 }
  tryClose (post q { cid := cid, op := op, status := Sts.version, result := 0 } s2)

/-- Command `c` is the next of pair e.q: started where the pair may start it, and held, in its place, where the
completion ring has no space (R64, R65). -/
def take (c : Instr) (e : Entry) (op : Nat) (run : State → State) (s : State) : State :=
  let mine := s.host.heldCmds.filter fun h => h.q == e.q.val
  let hold := if mine.length < queuedIn s e.q then
      { s with host.heldCmds := s.host.heldCmds ++ [⟨e.q, e.cid.toNat, op, c⟩] }
    else s
  if !entryWaits s e.q then s
  else if (s.qpU e.q).doomed ≠ 0 then doom e.q e.cid.toNat op s
  else match mine.head? with
    | some h =>
      if h.cmd ≠ c then hold
      else if canStart s e.q then run (fetchEntry e.q { s with host.heldCmds := s.host.heldCmds.erase h })
      else s
    | none => if canStart s e.q then run (fetchEntry e.q s) else hold

/-- The engine states in which a command is legal, by opcode (R75). -/
def legalIn (op eng : Nat) : Bool :=
  let cfg := [Eng.standby, Eng.warmup, Eng.ready, Eng.printing, Eng.draining, Eng.furled]
  if op = 0x10 then [Eng.standby, Eng.furled].contains eng
  else if op = 0x11 then eng != Eng.standby
  else if op = 0x12 then [Eng.standby, Eng.warmup, Eng.ready, Eng.printing, Eng.furled].contains eng
  else if op = 0x20 then [Eng.warmup, Eng.ready, Eng.printing].contains eng
  else if op = 0x30 ∨ op = 0x31 ∨ op = 0x32 ∨ op = 0x40 then cfg.contains eng
  else if op = 0x41 then [Eng.warmup, Eng.ready, Eng.printing, Eng.draining].contains eng
  else true

/-- The lowest REP version of a host-to-device opcode (R68); none for any other opcode. -/
def sinceOf (op : Nat) : Option Nat :=
  if [0x01, 0x02, 0x03, 0x10, 0x11, 0x12, 0x20, 0x21, 0x30, 0x31, 0x32].contains op then some 0x0100
  else if [0x04, 0x40, 0x41, 0x50].contains op then some 0x0101
  else if op = 0x05 then some 0x0200
  else none

/-- The session takes commands: open, and not closing (R77). -/
def sessionTakes (s : State) : Bool := s.session && s.host.closing.isNone

/-- An opcode of a command in the negotiated version. -/
def knownOp (s : State) (op : Nat) : Bool :=
  match sinceOf op with | some v => decide (v ≤ s.repVersion) | none => false

/-- The first failing status of R67, in its order: `absent` says a named unit is absent, `ok` that every parameter is
valid in itself, `legal` that the engine state allows the command. -/
def firstFail (s : State) (e : Entry) (op : Nat) (absent ok legal : Bool) : Option Nat :=
  if !sessionTakes s then some Sts.version
  else if !knownOp s op then some Sts.unknownOp
  else if absent then some Sts.unitAbsent
  else if !e.clean || e.cid == 0xFFFF#16 || !ok then some Sts.param
  else if !legal then some Sts.badState
  else none

/-- The first of the held commands that its pair may now start (R65). -/
def startable (s : State) : Option Instr :=
  if s.dead then none else (s.host.heldCmds.find? fun h => canStart s h.q).map (·.cmd)

/-- A command fetched: past the session and opcode checks it reads what it names in device DRAM, its parameters among it;
then R67's order goes on, and its own rules follow. A command refused by what it read has read it: R67's side effects
are those of commands, and the read is the channel's (R391, R392, R395; assumption log 91). -/
def judge (e : Entry) (op : Nat) (absent ok : State → Bool) (run : State → State) (reads : State → List (Nat × Nat)) (s : State) :
    State :=
  let s := if sessionTakes s && knownOp s op && e.clean then meetAll (reads s) s else s
  match firstFail s e op (absent s) (ok s) (legalIn op s.engine) with
  | some st => done e op st 0 s
  | none => run s

/-- A command that reads no device DRAM. -/
def noReads : State → List (Nat × Nat) := fun _ => []

/-- Command `c` from pair e.q, in its turn. -/
def command (c : Instr) (e : Entry) (op : Nat) (absent ok : State → Bool) (run : State → State)
    (reads : State → List (Nat × Nat) := noReads) : State → State :=
  take c e op (judge e op absent ok run reads)

/-- No unit is named. -/
def noUnit : State → Bool := fun _ => false
/-- No parameter can be invalid. -/
def anyParam : State → Bool := fun _ => true

/-! ## Doorbells and pair configuration (R62, R64, R83) -/

/-- Commands of a pair that wait for space are no longer held. -/
def dropHeldCmds (q : Nat) (s : State) : State :=
  { s with host.heldCmds := s.host.heldCmds.filter fun h => h.q != q }

/-- A write of an index not below the ring size stops the pair: nothing queued there is fetched any more. -/
def dbErr (q : Nat) (s : State) : State :=
  tryClose (dropHeldCmds q ((s.setQp q { s.qpU q with stopped := true, doomed := 0 }).pb (REP_QSTAT_DB_ERR q) true))

def sqDoorbell (q : Nat) (v : Word) (s : State) : State :=
  let s1 := s.plainWrite (REP_QSQT q) v
  if s.pairOn q && decide (fieldOf (REP_QSQT_TAIL q) v ≥ s.sqSize q) then dbErr q s1 else s1

def execSqDoorbell (q : Fin 16) (v : Word) (s : State) : Host.Outcome State Fault Refusal :=
  .next (hostAt (REP_QSQT q) (sqDoorbell q v) s)

/-- Slots freed in a completion ring take the completions held, in order (R64). -/
def cqDoorbell (q : Nat) (v : Word) (s : State) : State :=
  let s1 := s.plainWrite (REP_QCQH q) v
  if !s.pairOn q then s1
  else if fieldOf (REP_QCQH_HEAD q) v ≥ s.cqSize q then dbErr q s1
  else
    let s2 := syncFull q s1
    drainHeld q (s2.qpU q).held s2


/-- A pair is disabled (R83): what it holds is discarded, but its contexts' SHEET_DONEs go to ring 0. -/
def pairDrop (q : Nat) (s : State) : State :=
  let s1 := (dropHeldCmds q (s.setQp q {})).pb (REP_QCFG_ENABLE q) false
  (ctxKeys s1).foldl (fun s c => if (s.ctxU c).pair = q then s.modCtx c fun u => { u with ring0 := true } else s) s1

/-- A pair enabled starts empty: heads and tails at 0 (R63, R83). -/
def pairStart (q : Nat) (s : State) : State :=
  let s1 := ((s.p (REP_QSQT_TAIL q) 0).p (REP_QCQH_HEAD q) 0).p (REP_QSTAT_CQ_TAIL q) 0
  syncFull q ((s1.p (REP_QSTAT_SQ_HEAD q) 0).setQp q {})

/-- A write of REP_QnCFG. A BYE that waits for other commands is in progress as they are. -/
def qcfgWrite (q : Nat) (v : Word) (s : State) : State :=
  let en := fieldOf (REP_QCFG_ENABLE q) v == 1
  let cur := s.pairOn q
  let sizeOk := fun n => decide (4 ≤ n ∧ n ≤ 12)
  let same := fieldOf (REP_QCFG_VECTOR q) v == s.g (REP_QCFG_VECTOR q)
    && fieldOf (REP_QCFG_CQ_LOG2 q) v == s.g (REP_QCFG_CQ_LOG2 q) && fieldOf (REP_QCFG_SQ_LOG2 q) v == s.g (REP_QCFG_SQ_LOG2 q)
  let bye := match s.host.closing with | some (some b) => b.1 == q | _ => false
  let busy := (s.host.inProg.any fun c => c.q == q) || bye || (q == 0 && s.session)
  if (cur && !same) || !sizeOk (fieldOf (REP_QCFG_CQ_LOG2 q) v) || !sizeOk (fieldOf (REP_QCFG_SQ_LOG2 q) v)
      || (cur && !en && busy) then s.pb (REP_QSTAT_CFG_ERR q) true
  else
    let s1 := s.plainWrite (REP_QCFG q) v
    if en && !cur then pairStart q s1 else if cur && !en then tryClose (pairDrop q s1) else s1

def execQpEnable (q : Fin 16) (v : Word) (s : State) : Host.Outcome State Fault Refusal :=
  .next (hostAt (REP_QCFG q) (qcfgWrite q v) s)

def execQpDisable (q : Fin 16) (v : Word) (s : State) : Host.Outcome State Fault Refusal :=
  .next (hostAt (REP_QCFG q) (qcfgWrite q v) s)

/-! ## Sessions (R76, R77, R366) -/

/-- The highest implemented version within both ranges (R76). -/
def repChoose (lo hi : Nat) : Option Nat :=
  if hi < lo then none
  else [0x0200, 0x0101, 0x0100].find? fun v => decide (lo ≤ v ∧ v ≤ hi)

/-- RESULT of HELLO (R68). -/
def helloResult (v : Nat) : Nat := v + 0x0100 * 2 ^ 16 + 0x0200 * 2 ^ 32 + 16 * 2 ^ 48

/-- HELLO fetched: QP0 only, while no session is open. A HELLO refused with VERSION shows chosen version 0 beside the
device's range and its queue pairs, and one refused otherwise RESULT 0 (DESIGN CHOICE, assumption log 79). -/
def hello (e : Entry) (lo hi : Nat) (s : State) : State :=
  if e.q ≠ 0 ∨ !e.clean ∨ e.cid = 0xFFFF#16 then done e 0x01 Sts.param 0 s
  else if s.session then done e 0x01 Sts.badState 0 s
  else
    match repChoose lo hi with
    | some v => done e 0x01 Sts.ok (helloResult v) ((s.pb REP_STAT_SESSION true).p REP_STAT_VERSION v)
    | none => done e 0x01 Sts.version (helloResult 0) s

def cmdHello (e : Entry) (min max : BitVec 16) (s : State) : State :=
  live (take (.hello e min max) e 0x01 (hello e min.toNat max.toNat)) s

def execHello (e : Entry) (min max : BitVec 16) (s : State) : Host.Outcome State Fault Refusal :=
  .next (cmdHello e min max s)

/-- Each pending TIME_EVENT completes with BUSY and the time of completion (R366). -/
def endTimeEvents (s : State) : State :=
  let evs := s.host.tev
  evs.foldl (fun s t => complete t.q t.cid 0x05 Sts.busy (timeResult s) s) { s with host.tev := [] }

/-- Every command queued on pair `q` is to complete with VERSION: those held at once, the others as they come. -/
def doomPair (q : Nat) (s : State) : State :=
  if s.pairOn q && !(s.qpU q).stopped then
    let mine := s.host.heldCmds.filter fun h => h.q == q
    let s1 := s.setQp q { s.qpU q with doomed := queuedIn s q }
    mine.foldl (fun s h => doom q h.cid h.op s) (dropHeldCmds q s1)
  else s

/-- The session begins to close (R77): every command queued on any pair completes with VERSION, pending TIME_EVENTs end,
and the commands in progress are waited for. -/
def startClose (bye : Option (Nat × Nat)) (s : State) : State :=
  let s1 := endTimeEvents (overN 16 doomPair s)
  tryClose { s1 with host.closing := some bye }

def cmdBye (e : Entry) (s : State) : State :=
  live (command (.bye e) e 0x02 noUnit anyParam (startClose (some (e.q, e.cid.toNat)))) s

def execBye (e : Entry) (s : State) : Host.Outcome State Fault Refusal :=
  .next (cmdBye e s)

/-- REP_CTRL.SESSION_CLOSE. -/
def sessionClose (v : Word) (s : State) : State :=
  if fieldOf REP_CTRL_SESSION_CLOSE v = 1 && s.session && s.host.closing.isNone then startClose none s else s

def execSessionClose (v : Word) (s : State) : Host.Outcome State Fault Refusal :=
  .next (hostAt REP_CTRL (sessionClose v) s)

/-- An opcode that no command of the negotiated version bears (R67). -/
def unknownOpcode (e : Entry) (op : Nat) (s : State) : State :=
  done e op (if sessionTakes s then Sts.unknownOp else Sts.version) 0 s

/-- An opcode that the version knows is another command's. -/
def cmdUnknownOpcode (e : Entry) (op : BitVec 8) (s : State) : State :=
  live (fun s =>
    if op.toNat = 0x01 ∨ (sessionTakes s && knownOp s op.toNat) then s
    else take (.unknownOpcode e op) e op.toNat (unknownOpcode e op.toNat) s) s

def execUnknownOpcode (e : Entry) (op : BitVec 8) (s : State) : Host.Outcome State Fault Refusal :=
  .next (cmdUnknownOpcode e op s)

/-! ## SHEET_DONE (R56, R64, R68, R83, R86) -/

/-- The ring that a context's SHEET_DONE goes to, where it may be written now. One that goes to ring 0 and finds it full
is written once there is space, in the same session too (DESIGN CHOICE, assumption log 82); on a pair of its own it is written
with no session open as well (DESIGN CHOICE, assumption log 97). -/
def doneRing (s : State) (c : Nat) : Option Nat :=
  let u := s.ctxU c
  let q := if u.ring0 then 0 else u.pair
  if s.pairOn q && !s.cqFull q && (s.qpU q).held.isEmpty && (!u.ring0 || s.session) then some q else none

/-- A context whose SHEET_DONE is due: DELIVERED, SPOILED at delivery, or JAMMED with its removal confirmed. -/
def doneDue (s : State) (c : Nat) : Bool :=
  let st := ctxState s c
  st == Px.delivered || (st == Px.spoiled && s.on (PCTX_STATE_AT_DELIV c)) || (st == Px.jammed && (s.ctxU c).cleared)

/-- SHEET_DONE written: the context is RETIRED (R106). The notification to the partners leaves with the entry (DESIGN
CHOICE, assumption log 83): R86 does not say when. -/
def sheetDone (c : Nat) (s : State) : State :=
  if !doneDue s c then s
  else match doneRing s c with
    | none => s
    | some q =>
      let outcome := if ctxState s c = Px.delivered then 0 else 1
      let result := s.g (PCTX_SHEET_SHEET_ID c) + outcome * 2 ^ 32 + s.g (PCTX_STATE_CAUSE c) * 2 ^ 40
      let s1 := writeCqe q { cid := 0xFFFF, op := 0x80, status := 0, result := result, aux := some c } s
      let s2 := notifyAll (cqeBytes ⟨0xFFFF, c, 0x80, 0, s1.engine, 0, result⟩) s1
      stnSettleAll (retireCtx c s2)

def execSheetDoneWrite (c : Fin 256) (s : State) : Host.Outcome State Fault Refusal := .next (live (sheetDone c) s)

/-! ## Mailboxes (R78-R80) -/

/-- A read of MBXn_HDR latches the whole mailbox. -/
def mbxRead (n be : Nat) (s : State) : State :=
  let u := mbxU s n
  let s1 := (s.setLatch (MBX_TAG n) (BitVec.ofNat 32 u.tag)).setLatch (MBX_GEN n) (BitVec.ofNat 32 u.gen)
  let s2 := overN 12 (fun k s => s.setLatch (MBX_DATA n k) (BitVec.ofNat 32 (u.data.getD k 0))) s1
  s2.answer (MBX_HDR n) be (s.reg (MBX_HDR n))

def execMbxHdrRead (n : Fin 64) (be : Fin 16) (s : State) : Host.Outcome State Fault Refusal :=
  .next (hostAt (MBX_HDR n) (mbxRead n be) s)

/-- A write of MBXn_ACK. -/
def mbxAck (n : Nat) (v : Word) (s : State) : State := mbxValid n (s.plainWrite (MBX_ACK n) v)

end Sys2Proof.Machine
end

