-- ==== Sys2Proof/Machine/Reports.lean ====
section
/-!
DEFINITION. STATUS_QUERY, LOG_READ and TIME_EVENT: the reports of each class (spec/03_host_rep.md R82, spec/05 R129,
spec/06 R152, spec/07 R177, spec/14 R331, spec/15 R343), the logs (R68, R176, R323, R330, R341, R418), and events in
counter time (R366).
-/

namespace Sys2Proof.Machine

open Reg

/-! ## Reports -/

/-- A CSI port counts as mapped when its clock pair is (R30, R450). -/
def csiMapped (s : State) (p : Nat) : Bool := s.mapped 0x20 p 0 && s.mapped 0x20 p 1

/-- A bit mask of the numbers below `n` that satisfy `p`. -/
def maskOf (n : Nat) (p : Nat → Bool) : Nat := (List.range n).foldl (fun a i => if p i then a + 2 ^ i else a) 0

def sparCells (p : Part) : Nat := if p = .mlv9040 then 4096 else 8192

/-- The capability report (CLASS 0). -/
def capsReport (s : State) : List Nat :=
  let p := s.part
  [ p.id + s.rev.code * 2 ^ 16,
    (2 ^ p.stations - 1) + maskOf 8 (linkMapped s) * 2 ^ 8 + (2 ^ p.csi - 1) * 2 ^ 16 + maskOf 4 (csiMapped s) * 2 ^ 20
      + (decide (p ≠ .mlv9040)).toNat * 2 ^ 24 + (decide (p ≠ .mlv9040)).toNat * 2 ^ 25 + (2 ^ p.ddr - 1) * 2 ^ 26
      + (2 ^ p.eth - 1) * 2 ^ 28,
    p.foc + p.axes * 2 ^ 8 + sparCells p * 2 ^ 16,
    0x0100 + 0x0200 * 2 ^ 16, 0x0100 + 0x0200 * 2 ^ 16, 0x0100 + 0x0101 * 2 ^ 16,
    s.g RIG_FMTCAP_MAJOR + s.g RIG_FMTCAP_MINOR_MAX * 2 ^ 8 + s.g DRAM_CFG_INSTALLED * 2 ^ 16,
    s.rig.serial, 0, 0, 0, 0 ]

/-- The engine report (CLASS 1). -/
def engineReport (s : State) : List Nat :=
  [ s.engine + min 255 (ctxKeys s).length * 2 ^ 8, cmdRate s, s.g PSQ_DEMAND_MBS, 100 * s.g PSQ_BUDGET_DRAM,
    0, 0, 0, 0, 0, 0, 0, 0 ]

/-- The context report (CLASS 2, R129). -/
def ctxReport (c : Nat) (s : State) : List Nat :=
  let u := s.ctxU c
  let rate := if u.fed then u.rate else if ctxState s c = Px.free then 0 else cmdRate s
  let passes := if u.fed then passCode u.passes else if ctxState s c = Px.free then 0 else s.g PSQ_SPEED_PASSES
  let at_ := fun (b : Bool) (t : Time) => if b then [t.ns, t.sec % 2 ^ 32] else [0, 0]
  [ (s.reg (PCTX_STATE c)).toNat, s.g (PCTX_SHEET_SHEET_ID c), (s.reg (PCTX_ORG_LO c)).toNat, (s.reg (PCTX_ORG_HI c)).toNat,
    rate + passes * 2 ^ 24, u.demand, u.smax, maskOf 8 (fun n => occupies s c n && !(s.stnU n).dark) ]
    ++ at_ u.fed u.fedAt ++ at_ u.ended u.endAt

/-- The station report (CLASS 3, R152, R177). -/
def stnReport (n : Nat) (s : State) : List Nat :=
  let u := s.stnU n
  let bow := (bowActive s n).take (segCount u.active)
  let dead := ((List.range 40).filter fun e => isDead (u.active.em e)).length
  let p := cmdPasses s
  [ s.g (STN_PCFG_ENABLED n) + s.g (STN_STAT_OCCUPIED n) * 2 + s.g (STN_CFGSTAT_RELOADING n) * 4
      + s.g (STN_STAT_CONTEXT n) * 2 ^ 8 + u.active.num * 2 ^ 16 + u.held.length * 2 ^ 24,
    s.g (STN_PCFG_WIDTH n), (s.reg (STN_LBCAP n)).toNat,
    s.g (STN_LEVEL_LEVEL n) + unsext 16 (clampI (-32768) 32767 u.lowQuery) * 2 ^ 16,
    min 0xFFFFFFFF u.urTotal, s.g (STN_RELOAD_NS n),
    unsext 8 (minI bow) + unsext 8 (maxI bow) * 2 ^ 8 + s.g (STN_SEG_NSEG n) * 2 ^ 16,
    maskOf 4 (fun k => s.on (STN_DEC_BUSY n k)) + u.lastFail % 64 * 2 ^ 8 + u.lastFail / 64 * 2 ^ 12,
    s.g (STN_WIN_W0 n) + s.g (STN_WIN_A n) * 2 ^ 8 + s.g (STN_WIN_PASSES n) * 2 ^ 16 + dead * 2 ^ 18 + s.g (STN_WIN_RERIG n) * 2 ^ 31,
    highestRate s n p,
    s.g (STN_HEAD_TEMP n) + s.g (STN_HEAD_WARN n) * 2 ^ 16 + s.g (STN_HEAD_DARK n) * 2 ^ 17 + s.g (STN_HEAD_FROZEN n) * 2 ^ 18,
    pxHz s n ]

/-- The report of a class, and the state after it: what it says "since the previous query" starts afresh. -/
def report (cls inst : Nat) (s : State) : List Nat × State :=
  if cls = 0 then (capsReport s, s)
  else if cls = 1 then (engineReport s, s)
  else if cls = 2 then (ctxReport inst s, s)
  else if cls = 3 then (stnReport inst s, s.modStn inst fun u => { u with lowQuery := 32767 })
  else if cls = 4 then (powerReport (vinSample s), vinSample s)
  else (thermalReport s, { s with thm := { s.thm with peak := s.gi THM_TJ_TJ } })

/-- The parameters of STATUS_QUERY. -/
def queryOk (cls mbx inst : Nat) : Bool :=
  decide (cls ≤ 5 ∧ mbx ≤ 63) && (cls != 2 || decide (inst ≤ 255)) && (cls != 3 || decide (inst < 8))
    && ((cls != 4 && cls != 5) || inst == 0)

/-- STATUS_QUERY applied: the report in its mailbox, RESULT its SEQ. -/
def statusQuery (e : Entry) (cls mbx inst : Nat) (s : State) : State :=
  let (words, s1) := report cls inst s
  let s2 := mbxPut mbx 0 0 words s1
  done e 0x03 Sts.ok (s2.g (MBX_HDR_SEQ mbx)) s2

def cmdStatusQuery (e : Entry) (cls mbx : BitVec 8) (inst : BitVec 16) (s : State) : State :=
  live (command (.statusQuery e cls mbx inst) e 0x03
    (fun s => cls.toNat == 3 && decide (s.part.stations ≤ inst.toNat ∧ inst.toNat < 8))
    (fun _ => queryOk cls.toNat mbx.toNat inst.toNat)
    (statusQuery e cls.toNat mbx.toNat inst.toNat)) s

def execStatusQuery (e : Entry) (cls mbx : BitVec 8) (inst : BitVec 16) (s : State) : Host.Outcome State Fault Refusal :=
  .next (cmdStatusQuery e cls mbx inst s)

/-! ## Logs -/

/-- The 32 bytes of a record's eight words. -/
def recBytes (ws : List Nat) : List Byte := (List.range 8).flatMap fun i => leBytes 4 (ws.getD i 0)

/-- LOG 2: the 256 slots of the log, then the 32 of the NVM ring (R418). -/
def errorLog (s : State) : List Byte :=
  (List.range 256).flatMap (fun i => (List.range 8).flatMap fun w => leBytes 4 (s.g (ERR_REC_WORD i w)))
    ++ (List.range 32).flatMap fun k => recBytes (bankGet [] s.nvmRing k)

/-- An emitter record of LOG 4. -/
def wearRecord (s : State) (n e : Nat) : List Byte :=
  let u := s.stnU n
  let m := u.nvmEmit.getD e {}
  leBytes 8 (bankGet 0 u.nvmWear e / 1000000) ++ leBytes 1 m.st ++ leBytes 1 m.hand
    ++ leBytes 1 ((m.boost != 0).toNat + 2 * bitsOf u.nvmHealth e 1) ++ leBytes 1 0 ++ leBytes 4 m.boost

/-- A station's block of LOG 4 (R176). -/
def wearBlock (s : State) (n : Nat) : List Byte :=
  let u := s.stnU n
  if n ≥ s.part.stations ∨ u.serial = 0 then List.replicate 1024 0
  else
    leBytes 4 u.nvmSerial ++ leBytes 4 u.active.wear ++ leBytes 4 u.nvmWritten ++ leBytes 1 u.active.eCount
      ++ List.replicate 3 0
      ++ (List.range 40).flatMap (fun e => if e < u.active.eCount then wearRecord s n e else List.replicate 16 0)
      ++ List.replicate 368 0

/-- A log by its number (R68). -/
def logBytes (s : State) (log : Nat) : List Byte :=
  if log = 0 then stayLog s
  else if log = 1 then railLog s
  else if log = 2 then errorLog s
  else if log = 3 then tripLog s
  else (List.range 8).flatMap (wearBlock s)

/-- LOG_READ starts: its bytes are taken, and it stays in progress until they are written. -/
def logRead (e : Entry) (log off dst len : Nat) (ns : Bool) (s : State) : State :=
  let all := logBytes s log
  let u : LogCopy := { q := e.q, cid := e.cid.toNat, dst := dst, bytes := (all.drop off).take len, size := all.length, ns := ns }
  begin_ e.q e.cid.toNat 0x04 { s with host.logs := s.host.logs ++ [u] }

def cmdLogRead (e : Entry) (log : BitVec 8) (off : BitVec 32) (dst : BitVec 64) (len : BitVec 32) (ns : Bool) (s : State) : State :=
  live (command (.logRead e log off dst len ns) e 0x04 noUnit (fun _ => decide (log.toNat ≤ 4))
    (logRead e log.toNat off.toNat dst.toNat len.toNat ns)) s

def execLogRead (e : Entry) (log : BitVec 8) (off : BitVec 32) (dst : BitVec 64) (len : BitVec 32) (ns : Bool) (s : State) : Host.Outcome State Fault Refusal :=
  .next (cmdLogRead e log off dst len ns s)

/-- A LOG_READ's bytes are in host memory, and it completes (R59). -/
def logDone (q cid : Nat) (s : State) : State :=
  match s.host.logs.find? fun l => l.q == q && l.cid == cid with
  | none => s
  | some l =>
    let s1 := if l.bytes.isEmpty then s else s.hostWrites l.dst l.bytes (!l.ns)
    let s2 := { s1 with host.logs := s1.host.logs.filter fun x => !(x.q == q && x.cid == cid) }
    complete q cid 0x04 Sts.ok (l.bytes.length + l.size * 2 ^ 32) s2

def execLogReadDone (q : Fin 16) (cid : BitVec 16) (s : State) : Host.Outcome State Fault Refusal :=
  .next (live (logDone q cid.toNat) s)

/-! ## TIME_EVENT (R366) -/

/-- The counter has reached or passed a time. -/
def timeReached (s : State) (sec ns : Nat) : Bool :=
  decide (sec < s.time.sec) || (sec == s.time.sec && decide (ns ≤ s.time.ns))

def timeEvent (e : Entry) (kind sec ns : Nat) (s : State) : State :=
  if kind = 1 ∨ timeReached s sec ns then done e 0x05 Sts.ok (timeResult s) s
  else if s.host.tev.length ≥ 16 then done e 0x05 Sts.busy 0 s
  else begin_ e.q e.cid.toNat 0x05 { s with host.tev := s.host.tev ++ [⟨e.q, e.cid.toNat, sec, ns⟩] }

/-- SECONDS uses 48 bits: bits above them are bytes that must be zero. -/
def timeEventOk (kind sec ns : Nat) : Bool :=
  decide (kind ≤ 1 ∧ sec < 2 ^ 48) && (kind == 1 || decide (ns ≤ 999999999))

def cmdTimeEvent (e : Entry) (kind : BitVec 8) (sec : BitVec 64) (ns : BitVec 32) (s : State) : State :=
  live (command (.timeEvent e kind sec ns) e 0x05 noUnit (fun _ => timeEventOk kind.toNat sec.toNat ns.toNat)
    (timeEvent e kind.toNat sec.toNat ns.toNat)) s

def execTimeEvent (e : Entry) (kind : BitVec 8) (sec : BitVec 64) (ns : BitVec 32) (s : State) : Host.Outcome State Fault Refusal :=
  .next (cmdTimeEvent e kind sec ns s)

/-- A held TIME_EVENT's time has come. -/
def timeEventDue (q cid : Nat) (s : State) : State :=
  match s.host.tev.find? fun t => t.q == q && t.cid == cid with
  | none => s
  | some t =>
    if timeReached s t.sec t.ns then
      complete q cid 0x05 Sts.ok (timeResult s) { s with host.tev := s.host.tev.erase t }
    else s

def execTimeEventDue (q : Fin 16) (cid : BitVec 16) (s : State) : Host.Outcome State Fault Refusal :=
  .next (live (timeEventDue q cid.toNat) s)

end Sys2Proof.Machine
end

