-- ==== Sys2Proof/Machine/Commands.lean ====
section
/-!
DEFINITION. The engine, sheet, station and codec commands of REP (spec/03_host_rep.md R70-R75; spec/04 R88-R92, R102-R105;
spec/05 R107-R114; spec/06 R132-R136; spec/07 R164-R175; spec/15 R338).
-/

namespace Sys2Proof.Machine

open Reg

/-- The first context to carry a change (R68): the oldest ARMED one, else the oldest that is LOADED or VERIFYING, else the
next allocated. -/
def firstCarrier (s : State) : Nat :=
  match oldestArmed s with
  | some c => c
  | none => (oldest s fun c => ctxState s c == Px.loaded || ctxState s c == Px.verifying).getD 0xFFFF

/-! ## ENGINE_START and ENGINE_STOP (R75, R338) -/

/-- ENGINE_START: an on request, WARMUP, the speeds of R454, LIGHT to every link that is up. -/
def engineStart (e : Entry) (s : State) : State :=
  if 3 ≤ reefLevel s ∨ s.on THM_TJ_TRIP then done e 0x10 Sts.busy 0 s
  else
    let s1 := (onRequest (releaseOutputs (wake s))).setEngine Eng.warmup
    let s2 := { s1 with psq := { s1.psq with startBoundary := true } }
    done e 0x10 Sts.ok 0 (lightAll (warmupSpeeds s2))

def cmdEngineStart (e : Entry) (s : State) : State :=
  live (command (.engineStart e) e 0x10 noUnit anyParam (engineStart e)) s

def execEngineStart (e : Entry) (s : State) : Host.Outcome State Fault Refusal :=
  .next (cmdEngineStart e s)

/-- The region of an island (R356). -/
def islRegion (i : Nat) : Nat :=
  if i = 0 then 6 else if i ≤ 3 then 5 else if i ≤ 6 then 3 else if i ≤ 8 then 4 else if i ≤ 17 then 0 else if i = 18 then 2 else 1

/-- CLK_ISLi.RESET of a region's islands but STAY, which only a power-on resets (R433). -/
def islReset (r : Nat) (b : Bool) (s : State) : State :=
  overN 48 (fun i s => if islRegion i = r ∧ i ≠ 1 then s.pb (CLK_ISL_RESET i) b else s) s

/-- The region resets of ENGINE_STOP begin; MEM trains every channel afresh (R75, R381). -/
def resetRegions (s : State) : State :=
  let s1 := s.err.faulted.foldl (fun s r => islReset r true s) { s with err := { s.err with regionReset := s.err.faulted } }
  if s.err.faulted.contains 3 then startTraining s1 else s1

/-- The faulted regions reset, the engine furls (R75, R292). -/
def recoverFurl (s : State) : State :=
  let s1 := { s with psq := { s.psq with stopInForce := false } }
  if s1.err.faulted.isEmpty then furl (releaseOutputs s1) else resetRegions s1

def engineStop (e : Entry) (s : State) : State :=
  let st := s.engine
  if st = Eng.warmup then done e 0x11 Sts.ok 0 (furlWarmup Cause.hostAbort s)
  else if st = Eng.ready ∨ st = Eng.printing then done e 0x11 Sts.ok 0 (startDrain Cause.hostAbort s)
  else if st = Eng.draining ∨ st = Eng.furled then done e 0x11 Sts.ok 0 s
  else if s.psq.chipFatal then done e 0x11 Sts.badState 0 s
  else if (anyCtx s fun c => ctxState s c == Px.jammed) || anyOpen s || s.on THM_TJ_TRIP then done e 0x11 Sts.busy 0 s
  else done e 0x11 Sts.ok 0 (recoverFurl s)

def cmdEngineStop (e : Entry) (s : State) : State :=
  live (command (.engineStop e) e 0x11 noUnit anyParam (engineStop e)) s

def execEngineStop (e : Entry) (s : State) : Host.Outcome State Fault Refusal :=
  .next (cmdEngineStop e s)

/-- A faulted region's reset completes, MEM's once its channels are trained; with the last of them the engine furls. -/
def regionResetDone (r : Nat) (s : State) : State :=
  if !s.err.regionReset.contains r ∨ (r = 3 ∧ s.g DRAM_TSTAT_STATE ≠ 3) then s
  else
    let s1 := islReset r false
      { s with err := { s.err with regionReset := s.err.regionReset.filter (· != r), faulted := s.err.faulted.filter (· != r) } }
    if s1.err.regionReset.isEmpty ∧ (s1.engine = Eng.fault ∨ s1.engine = Eng.hardstop) ∧ !s1.psq.chipFatal then
      furl (releaseOutputs s1)
    else s1

def execRegionResetDone (r : Fin 7) (s : State) : Host.Outcome State Fault Refusal := .next (live (regionResetDone r) s)

/-! ## SPEED_SET (R73, R114) -/

/-- D of a context at a new rate, and the largest S_n. -/
def recost (s : State) (rate c : Nat) : Nat × Nat := (demandOf s (s.ctxU c) rate, maxN (stnDemands s c rate))

/-- A number put in before the first of a larger key. -/
def insertBy (key : Nat → Nat) (c : Nat) : List Nat → List Nat
  | [] => [c]
  | x :: r => if key c ≤ key x then c :: x :: r else x :: insertBy key c r

/-- ARMED contexts in commit order. -/
def armedInOrder (s : State) : List Nat :=
  ((ctxKeys s).filter fun c => ctxState s c == Px.armed).foldr (insertBy fun c => (s.ctxU c).seq) []

/-- The first check that fails as ARMED contexts are re-costed, with `others` standing before them. -/
def recostFail (s : State) (rate : Nat) : List Nat → Nat → Option (Nat × Nat)
  | [], _ => none
  | c :: r, others =>
    let d := (recost s rate c).1
    match admitFail s (stnDemands s c rate) d others with
    | some x => some x
    | none => recostFail s rate r (others + d)

/-- D of every context FEEDING or later, released ones apart. -/
def standing (s : State) : Nat :=
  sumN (((ctxKeys s).filter fun c => feedingLater (ctxState s c) && demands s c).map fun c => (s.ctxU c).demand)

/-- The parameters of SPEED_SET: legal at every enabled station's newest generation (R73, R159, R188), which ranks before
BAD_STATE too (DESIGN CHOICE, assumption log 97). -/
def speedOk (s : State) (rate passes : Nat) : Bool :=
  [1, 2, 4].contains passes && decide (1 ≤ rate ∧ rate * passes ≤ 160000)
    && (enabledStns s).all fun n => legalAt s n rate passes

/-- A speed taken: PSQ_SPEED, the re-costed ARMED contexts, what follows of it at the stations and in WARMUP. -/
def speedApply (rate passes : Nat) (s : State) : State :=
  let s1 := ((noteChange s).p PSQ_SPEED_RATE rate).p PSQ_SPEED_PASSES (passCode passes)
  let s2 := (armedInOrder s).foldl (fun t c =>
    let (d, m) := recost s rate c
    t.modCtx c fun u => { u with demand := d, smax := m }) s1
  let s3 := overN 8 (fun n s => linkOkSync n (winSync n s)) (psqSync s2)
  feedSync (warmupSpeeds s3)

def speedSet (e : Entry) (rate passes : Nat) (s : State) : State :=
  match recostFail s rate (armedInOrder s) (standing s) with
  | some (b, d) => done e 0x12 Sts.admissionRate (b + d * 2 ^ 32) s
  | none => done e 0x12 Sts.ok (firstCarrier s) (speedApply rate passes s)

def cmdSpeedSet (e : Entry) (rate : BitVec 32) (passes : BitVec 8) (s : State) : State :=
  live (command (.speedSet e rate passes) e 0x12 noUnit (fun s => speedOk s rate.toNat passes.toNat)
    (speedSet e rate.toNat passes.toNat)) s

def execSpeedSet (e : Entry) (rate : BitVec 32) (passes : BitVec 8) (s : State) : Host.Outcome State Fault Refusal :=
  .next (cmdSpeedSet e rate passes s)

/-! ## SHEET_COMMIT (R70, R88-R92, R107-R112) -/

/-- The parameters of a SHEET_COMMIT. -/
structure CommitIn where
  id : Nat
  mode : Nat
  mask : Nat
  pdt : Nat
  lines : Nat
  rep : Nat
  ofs : Nat
  deriving DecidableEq, Repr

def CommitIn.has (k : CommitIn) (n : Nat) : Bool := bitsOf k.mask n 1 == 1
def CommitIn.stns (k : CommitIn) : List Nat := (List.range 8).filter k.has

/-- A range of device DRAM lies in installed DRAM. -/
def inDram (s : State) (a len : Nat) : Bool := decide (a + len ≤ s.installed)

/-- The 16-byte entries of a band table as (address, length), with their zero bytes checked by `entriesZero`. -/
def bandEntries (m : List Host.Cell) (a : Nat) : Nat → List (Nat × Nat)
  | 0 => []
  | k + 1 =>
    let b := memRead m a 16
    (bytesAt b 0 8, bytesAt b 8 4) :: bandEntries m (a + 16) k

def entriesZero (m : List Host.Cell) (a : Nat) : Nat → Bool
  | 0 => true
  | k + 1 => zeroAt (memRead m a 16) 12 4 && entriesZero m (a + 16) k

/-- The descriptor of station `n` (R88), without its tables. -/
def readPlane (s : State) (pdt n : Nat) : Plane :=
  let b := memRead (memTaken s) (pdt + 64 * n) 64
  { kind := bytesAt b 0 1, ctRes := bytesAt b 1 1, procRes := bytesAt b 2 1, bandH := bytesAt b 3 1, width := bytesAt b 4 4 }

/-- R88 and R89 for one descriptor, against the station's newest generation (R137). -/
def planeOk (s : State) (pdt n lines : Nat) : Bool :=
  let b := memRead (memTaken s) (pdt + 64 * n) 64
  let p := readPlane s pdt n
  let g := (s.stnU n).newest
  let ct := bytesAt b 8 4
  let tg := bytesAt b 0xC 4
  let cta := bytesAt b 0x10 8
  let tga := bytesAt b 0x18 8
  let table := fun (used : Bool) (count addr : Nat) =>
    if used then count == bandCount p lines && addr % 64 == 0 && inDram s addr (16 * count) && entriesZero (memTaken s) addr count
    else count == 0 && addr == 0
  decide (p.kind ≤ 2 ∧ p.ctRes ≤ g.ctMax ∧ p.ctRes ≤ 1 ∧ (p.kind = 2 → p.ctRes = 0) ∧ p.procRes ≤ 1 ∧ p.procRes = g.procRes
      ∧ p.bandH ≤ 3 ∧ p.width % 32 = 0 ∧ 32 ≤ p.width ∧ p.width ≤ 73728 ∧ p.width = g.width)
    && table (p.kind != 2) ct cta && table (p.kind != 1) tg tga && zeroAt b 0x20 32

/-- A descriptor with its band tables. -/
def fullPlane (s : State) (pdt n lines : Nat) : Plane :=
  let b := memRead (memTaken s) (pdt + 64 * n) 64
  let p := readPlane s pdt n
  let k := bandCount p lines
  { p with ct := if p.kind = 2 then [] else bandEntries (memTaken s) (bytesAt b 0x10 8) k,
           tg := if p.kind = 1 then [] else bandEntries (memTaken s) (bytesAt b 0x18 8) k }

/-- Ranges that no band may overlap: the descriptors read, their band tables, the offset entries read (R90). -/
def fixedRanges (s : State) (k : CommitIn) : List (Nat × Nat) :=
  k.stns.flatMap fun n =>
    let b := memRead (memTaken s) (k.pdt + 64 * n) 64
    [(k.pdt + 64 * n, 64), (bytesAt b 0x10 8, 16 * bytesAt b 8 4), (bytesAt b 0x18 8, 16 * bytesAt b 0xC 4)]
      ++ (if k.ofs = 0 then [] else [(k.ofs + 16 * n, 16)])

def overlap (x y : Nat × Nat) : Bool := decide (x.2 ≠ 0 ∧ y.2 ≠ 0 ∧ x.1 < y.1 + y.2 ∧ y.1 < x.1 + x.2)

/-- No entry overlaps a later one of the list, or any of `fixed`. -/
def noOverlap (fixed : List (Nat × Nat)) : List (Nat × Nat) → Bool
  | [] => true
  | x :: r => r.all (fun y => !overlap x y) && fixed.all (fun y => !overlap x y) && noOverlap fixed r

/-- R90: every band is aligned, lies in installed DRAM and overlaps nothing of the sheet. -/
def bandsOk (s : State) (k : CommitIn) : Bool :=
  let bands := k.stns.flatMap fun n => let p := fullPlane s k.pdt n k.lines; p.ct ++ p.tg
  bands.all (fun b => b.1 % 16 == 0 && inDram s b.1 b.2) && noOverlap (fixedRanges s k) bands

/-- The offset entry of a station: LINE, PIXEL, PHASE (R110). -/
def ofsEntry (s : State) (ofs n : Nat) : Int × Int × Int :=
  if ofs = 0 then (0, 0, 0)
  else
    let b := memRead (memTaken s) (ofs + 16 * n) 16
    (sext 32 (bytesAt b 0 4), sext 32 (bytesAt b 4 4), sext 8 (bytesAt b 8 1))

def ofsOk (s : State) (k : CommitIn) : Bool :=
  k.ofs == 0 || (k.ofs % 64 == 0 && k.stns.all fun n =>
    let (l, x, ph) := ofsEntry s k.ofs n
    inDram s (k.ofs + 16 * n) 16
      && decide (-65536 ≤ l ∧ l ≤ 65535 ∧ -4096 ≤ x ∧ x ≤ 4095 ∧ -63 ≤ ph ∧ ph ≤ 63)
      && zeroAt (memRead (memTaken s) (k.ofs + 16 * n) 16) 9 7)

/-- The geometry checks of R112. -/
def geomFits (s : State) (k : CommitIn) : Bool :=
  let n1 := cplNum s s.psq.trim
  (k.mode == 0 || decide (((k.rep : Nat) : Int) * cplDen ≥ (k.lines : Int) * n1 + s.g (PSQ_POS_COUNTS 2) * cplDen))
    && k.stns.all fun n =>
      decide (((s.g (PSQ_STN_TRIG_COUNTS n) : Nat) : Int) * cplDen + ((k.lines : Int) + (ofsEntry s k.ofs n).1 + 1024) * n1
        < (s.g (PSQ_POS_COUNTS 1) : Int) * cplDen)

/-- The DRAM that a SHEET_COMMIT reads: descriptors, offset entries, band tables (R88-R90, R110). -/
def commitReads (k : CommitIn) (s : State) : List (Nat × Nat) :=
  if 2 ^ s.part.stations ≤ k.mask ∨ k.pdt % 64 ≠ 0 then [] else fixedRanges s k

/-- The parameters of SHEET_COMMIT (R70, R92, R110, R112). The cases that depend on what the device holds rank as invalid in
themselves, before BAD_STATE (DESIGN CHOICE, assumption log 97). -/
def commitOk (s : State) (k : CommitIn) : Bool :=
  decide (k.mode ≤ 1) && (k.mode == 0 || decide (0x0200 ≤ s.repVersion))
    && decide (1 ≤ k.lines ∧ k.lines ≤ 262144)
    && !(anyCtx s fun c => s.g (PCTX_SHEET_SHEET_ID c) == k.id)
    && k.pdt % 64 == 0 && k.stns.all (fun n => inDram s (k.pdt + 64 * n) 64)
    && (k.mode == 1 || k.rep == 0)
    && k.stns.all (fun n => (s.stnU n).newest.enable && (s.stnU n).newest.num != 0)
    && s.g PSQ_CPL_CPL != 0
    && ofsOk s k && k.stns.all (fun n => planeOk s k.pdt n k.lines) && bandsOk s k && geomFits s k

/-- The lowest-numbered FREE context. -/
def freeContext (s : State) : Option Nat := (List.range 256).find? fun c => !(ctxKeys s).contains c

/-- The context of an accepted commit, and its bands in the verify queue (R99, R107). -/
def commitLoad (e : Entry) (k : CommitIn) (c : Nat) (s : State) : State :=
  let planes := (List.range 8).map fun n => if k.has n then fullPlane s k.pdt n k.lines else {}
  let bands := k.stns.flatMap fun n => planeBands c n (planes.getD n {}) k.lines
  let bytes := sumN (planes.map fun p => sumN (p.ct.map (·.2)) + sumN (p.tg.map (·.2)))
  let u : Ctx := { seq := s.psq.commits + 1, pair := e.q, cid := e.cid.toNat, open_ := true, lines := k.lines, repeat_ := k.rep,
                   planes := planes, ofs := (List.range 8).map fun n => if k.has n then ofsEntry s k.ofs n else (0, 0, 0),
                   bytes := bytes, unverified := bands.length }
  let s1 := begin_ e.q e.cid.toNat 0x20 { s.setCtx c u with psq := { s.psq with commits := s.psq.commits + 1 } }
  let s2 := (s1.setReg (PCTX_STATE c) 0).p (PCTX_STATE_STATE c) (if k.mask = 0 then Px.verifying else Px.loaded)
  let s3 := ((s2.p (PCTX_STATE_STN_MASK c) k.mask).p (PCTX_STATE_MODE c) k.mode).p (PCTX_SHEET_SHEET_ID c) k.id
  psqSync (vQueueSync { s3 with codec := { s3.codec with queue := s3.codec.queue ++ bands.map .band } })

/-- A commit's own statuses: a MODE unlike that of a context ARMED or later, and no FREE context. -/
def sheetCommit (e : Entry) (k : CommitIn) (s : State) : State :=
  if anyCtx s fun c => armedLater (ctxState s c) && s.g (PCTX_STATE_MODE c) != k.mode then done e 0x20 Sts.badState 0 s
  else match freeContext s with
    | none => done e 0x20 Sts.noContext 0 s
    | some c => commitLoad e k c (wake s)

def cmdSheetCommit (e : Entry) (id : BitVec 32) (mode mask : BitVec 8) (pdt : BitVec 64) (lines rep : BitVec 32)
    (ofs : BitVec 64) (s : State) : State :=
  let k : CommitIn := ⟨id.toNat, mode.toNat, mask.toNat, pdt.toNat, lines.toNat, rep.toNat, ofs.toNat⟩
  live (command (.sheetCommit e id mode mask pdt lines rep ofs) e 0x20
    (fun s => decide (2 ^ s.part.stations ≤ k.mask)) (fun s => commitOk s k) (sheetCommit e k) (commitReads k)) s

def execSheetCommit (e : Entry) (id : BitVec 32) (mode mask : BitVec 8) (pdt : BitVec 64) (lines rep : BitVec 32)
    (ofs : BitVec 64) (s : State) : Host.Outcome State Fault Refusal :=
  .next (cmdSheetCommit e id mode mask pdt lines rep ofs s)

/-! ## SHEET_ABORT (R71) -/

/-- The context that holds a SHEET_ID, neither FREE nor RETIRED (R71). -/
def ctxOf (s : State) (id : Nat) : Option Nat :=
  (ctxKeys s).find? fun c => s.g (PCTX_SHEET_SHEET_ID c) == id && ctxState s c != Px.retired

/-- RESULT of SHEET_ABORT: context, outcome, cause. -/
def abortResult (s : State) (c : Nat) : Nat :=
  c + (if ctxState s c = Px.delivered then 0 else 1) * 2 ^ 8 + s.g (PCTX_STATE_CAUSE c) * 2 ^ 16

/-- The removal of a JAMMED sheet confirmed: its SHEET_DONE is due, and the context stays JAMMED until it is written
(R24, R71, R107). -/
def jamCleared (c : Nat) (s : State) : State := sheetDone c (s.modCtx c fun u => { u with cleared := true })

def sheetAbort (e : Entry) (id : Nat) (s : State) : State :=
  match ctxOf s id with
  | none => done e 0x21 Sts.noContext 0 s
  | some c =>
    let st := ctxState s c
    if st = Px.loaded ∨ st = Px.verifying then done e 0x21 Sts.busy 0 s
    else if st = Px.armed then
      let s1 := releaseArmed Cause.hostAbort c s
      feedSync (done e 0x21 Sts.ok (abortResult s1 c) s1)
    else if st = Px.feeding ∨ st = Px.inPath ∨ st = Px.imaging ∨ deliveredNow s c then
      let s1 := stnSettleAll (spoil Cause.hostAbort c s)
      done e 0x21 Sts.ok (abortResult s1 c) s1
    else if st = Px.jammed then done e 0x21 Sts.ok (abortResult s c) (jamCleared c s)
    else done e 0x21 Sts.ok (abortResult s c) s

def cmdSheetAbort (e : Entry) (id : BitVec 32) (s : State) : State :=
  live (command (.sheetAbort e id) e 0x21 noUnit anyParam (sheetAbort e id.toNat)) s

def execSheetAbort (e : Entry) (id : BitVec 32) (s : State) : Host.Outcome State Fault Refusal :=
  .next (cmdSheetAbort e id s)

/-! ## STATION_CFG (R132-R136, R73, R249) -/

/-- A station number of this part. -/
def stnAbsent (n : Nat) (s : State) : Bool := decide (s.part.stations ≤ n)

/-- Contexts not FREE that name a station. -/
def namesStn (s : State) (n : Nat) (p : Nat → Bool) : Bool := anyCtx s fun c => inMask s c n && p (ctxState s c)

/-- The block that a STATION_CFG takes: at CFG_ADDR, or the newest generation's (R133). -/
def cfgBlock (s : State) (n addr : Nat) : Option (List Byte) :=
  if addr = 0 then (if (s.stnU n).newest.block.isEmpty then none else some (s.stnU n).newest.block)
  else if tableOk s addr 256 then some (memRead (memTaken s) addr 256)
  else none

/-- The generation of an ENABLE 1, where step 1 of R133 passes; and whether the mask rule fails (R158). -/
def cfgGen (s : State) (n addr : Nat) : Option Gen × Bool :=
  match cfgBlock s n addr with
  | none => (none, false)
  | some b =>
    let g := parseGen (memTaken s) b (s.stnU n).newest
    if blockOk s n b g && polyOk s n g.rpmMax then (some g, false) else (none, maskReads s b g && !maskOk g)

/-- The DRAM that a STATION_CFG reads before it is judged: the block, and the tables its checks take (R132, R133, R153,
R154). -/
def cfgReads (n en addr : Nat) (s : State) : List (Nat × Nat) :=
  match cfgBlock s n addr with
  | none => []
  | some b =>
    let g := parseGen (memTaken s) b (s.stnU n).newest
    if stnAbsent n s ∨ en ≠ 1 then []
    else (if addr = 0 then [] else [(addr, 256)])
      ++ (if maskReads s b g then [(bytesAt b 0x80 8, 768)] else [])
      ++ (if bitsOf g.flags 1 1 = 1 ∧ tableOk s (bytesAt b 0x88 8) 16384 then [(bytesAt b 0x88 8, 16384)] else [])
      ++ (if bitsOf g.flags 2 1 = 1 ∧ tableOk s (bytesAt b 0x90 8) 96 then [(bytesAt b 0x90 8, 96)] else [])
      ++ (if bitsOf g.load 1 1 = 1 ∧ tableOk s g.bow 4096 then [(g.bow, 4096)] else [])

/-- The generation of an ENABLE 0: the newest, disabled, loading nothing. -/
def offGen (s : State) (n : Nat) : Gen := { (s.stnU n).newest with enable := false, load := 0 }

/-- BUSY of R73 and R134. -/
def cfgBusy (s : State) (n en : Nat) (g : Gen) : Bool :=
  let old := (s.stnU n).newest
  (en == 0 && namesStn s n (· == Px.armed))
    || (old.num != 0 && (g.width != old.width || g.ctMax != old.ctMax || g.procRes != old.procRes) && namesStn s n fun _ => true)

def stationGen (s : State) (n en addr : Nat) : Option Gen :=
  if en = 0 then some (offGen s n) else if en = 1 then (cfgGen s n addr).1 else none

/-- STATION_CFG after R67's checks. -/
def stationCfg (e : Entry) (n en : Nat) (g : Gen) (s : State) : State :=
  if cfgBusy s n en g ∨ 16 ≤ (s.stnU n).held.length then done e 0x30 Sts.busy 0 s
  else feedSync (done e 0x30 Sts.ok (firstCarrier s) (addGen n g (wake s)))

/-- A block whose masks fail the rule of R158 sets MASK_INCOMPLETE (R154). -/
def maskFlag (e : Entry) (n en addr : Nat) (s : State) : State :=
  if canStart s e.q && (s.qpU e.q).doomed == 0 && sessionTakes s && !stnAbsent n s && en == 1 && (cfgGen s n addr).2 then
    s.pb (STN_ESTAT_MASK_INCOMPLETE n) true
  else s

def cmdStationCfg (e : Entry) (stn en : BitVec 8) (addr : BitVec 64) (s : State) : State :=
  let n := stn.toNat
  live (fun s => command (.stationCfg e stn en addr) e 0x30 (stnAbsent n)
    (fun s => (stationGen s n en.toNat addr.toNat).isSome)
    (fun s => match stationGen s n en.toNat addr.toNat with
      | some g => stationCfg e n en.toNat g s
      | none => s) (cfgReads n en.toNat addr.toNat) (maskFlag e n en.toNat addr.toNat s)) s

def execStationCfg (e : Entry) (stn en : BitVec 8) (addr : BitVec 64) (s : State) : Host.Outcome State Fault Refusal :=
  .next (cmdStationCfg e stn en addr s)

/-! ## EMITTER_SET (R164-R175) -/

/-- The generation an EMITTER_SET makes: the newest with one emitter's state set, loading nothing. -/
def emitterGen (g : Gen) (em st hand boost : Nat) : Gen :=
  let l := g.emit ++ List.replicate (40 - g.emit.length) ({} : Emit)
  { g with load := 0, emit := l.set em ⟨st, hand, boost⟩ }

/-- The parameters of EMITTER_SET, each valid in itself (R67, R173); a station without a generation has no emitter. -/
def emitterOk (s : State) (n em st hand boost : Nat) : Bool :=
  decide (em < 40 ∧ st ≤ 2 ∧ hand ≤ 1) && (s.stnU n).newest.num != 0
    && (boost == 0 || decide (st = 1 ∧ 0x40000 ≤ boost ∧ boost ≤ 0x50000))

/-- What EMITTER_SET checks after all of R67: the windows of R168 and R169, and REP 2.0 for a boost (R175). -/
def emitterRules (s : State) (n em st hand boost : Nat) : Bool :=
  let g := emitterGen (s.stnU n).newest em st hand boost
  let p := cmdPasses s
  (boost == 0 || decide (0x0200 ≤ s.repVersion))
    && (if hand = 0 then meets168 g p (effWin g p)
        else (effWin g p).2 != 0 && (cmdRate s == 0 || legal159 g (cmdRate s) p))

/-- EMITTER_SET after R67's checks, in R164's order: PARAM, BUSY at 16 generations held, EXHAUSTED, else the generation;
the state table goes to NVM (R165). The budget left counts in whole seconds, rounded down (DESIGN CHOICE, assumption
log 81). -/
def emitterSet (e : Entry) (n em st hand boost : Nat) (s : State) : State :=
  let u := s.stnU n
  let left := (u.newest.wear * 1000000000 - wearNs u em) / 1000000000
  if !emitterRules s n em st hand boost then done e 0x31 Sts.param 0 s
  else if 16 ≤ u.held.length then done e 0x31 Sts.busy 0 s
  else if boost ≠ 0 ∧ left = 0 then done e 0x31 Sts.exhausted 0 s
  else feedSync (done e 0x31 Sts.ok (firstCarrier s + left * 2 ^ 32) (wearSave n (addGen n (emitterGen u.newest em st hand boost) s)))

def cmdEmitterSet (e : Entry) (stn em st hand : BitVec 8) (boost : BitVec 32) (s : State) : State :=
  live (command (.emitterSet e stn em st hand boost) e 0x31 (stnAbsent stn.toNat)
    (fun s => emitterOk s stn.toNat em.toNat st.toNat hand.toNat boost.toNat)
    (emitterSet e stn.toNat em.toNat st.toNat hand.toNat boost.toNat)) s

def execEmitterSet (e : Entry) (stn em st hand : BitVec 8) (boost : BitVec 32) (s : State) :
    Host.Outcome State Fault Refusal :=
  .next (cmdEmitterSet e stn em st hand boost s)

/-! ## REGISTER_ADJUST (R73) -/

/-- The three values after the command: line offset, P64, magnification. -/
def adjusted (u : Stn) (mode : Nat) (line p64 mag : Int) : Int × Int × Int :=
  if mode = 0 then (line, p64, mag) else (u.lineAdj + line, u.p64Adj + p64, u.magAdj + mag)

/-- A step computed in this cycle for a station is discarded (R230). -/
def unstep (n : Nat) (s : State) : State :=
  match bankGet none s.vis.stepped n with
  | some (t, l, p, m) =>
    if t = s.clock then
      let v := { s.vis with epoch := bankPut 0 n (bankGet 0 s.vis.epoch n - 1) s.vis.epoch,
                            stepped := bankPut none n none s.vis.stepped }
      { s with vis := v }.modStn n fun u => { u with lineAdj := l, p64Adj := p, magAdj := m }
    else s
  | none => s

def adjustOk (s : State) (n mode : Nat) (line pixel phase mag : Int) : Bool :=
  let (l, p, m) := adjusted ((unstep n s).stnU n) mode line (64 * pixel + phase) mag
  decide (mode ≤ 1 ∧ -63 ≤ phase ∧ phase ≤ 63 ∧ -256 ≤ l ∧ l ≤ 255 ∧ -262144 ≤ p ∧ p ≤ 262143 ∧ -2000000 ≤ m ∧ m ≤ 2000000)

/-- A station's registration epoch ends: the frames accumulated for it, and for PTRIM with it as the reference, are
discarded (R230). -/
def newEpoch (n : Nat) (s : State) : State :=
  let k := bankGet 0 s.vis.epoch n + 1
  let s1 := { s with vis := { s.vis with epoch := bankPut 0 n k s.vis.epoch, acc := bankPut [] n [] s.vis.acc,
                                         pacc := s.vis.pacc.filter fun e => e.2.1 != n } }
  (s1.p (VIS_REG_STAT_EPOCH n) (k % 256)).p (VIS_REG_STAT_COUNT n) 0

/-- The three values of a station set, and its epoch ended. -/
def setAdjust (n : Nat) (line p64 mag : Int) (s : State) : State :=
  newEpoch n ((noteChange s).modStn n fun u => { u with lineAdj := line, p64Adj := p64, magAdj := mag })

def registerAdjust (e : Entry) (n mode : Nat) (line pixel phase mag : Int) (s0 : State) : State :=
  let s := unstep n s0
  let (l, p, m) := adjusted (s.stnU n) mode line (64 * pixel + phase) mag
  done e 0x32 Sts.ok (firstCarrier s) (setAdjust n l p m s)

def cmdRegisterAdjust (e : Entry) (stn mode : BitVec 8) (line pixel : BitVec 32) (phase : BitVec 8) (mag : BitVec 32)
    (s : State) : State :=
  live (command (.registerAdjust e stn mode line pixel phase mag) e 0x32 (stnAbsent stn.toNat)
    (fun s => adjustOk s stn.toNat mode.toNat line.toInt pixel.toInt phase.toInt mag.toInt)
    (registerAdjust e stn.toNat mode.toNat line.toInt pixel.toInt phase.toInt mag.toInt)) s

def execRegisterAdjust (e : Entry) (stn mode : BitVec 8) (line pixel : BitVec 32) (phase : BitVec 8) (mag : BitVec 32)
    (s : State) : Host.Outcome State Fault Refusal :=
  .next (cmdRegisterAdjust e stn mode line pixel phase mag s)

/-! ## CODEC_JOB (R74, R102-R105) -/

/-- The parameters of a CODEC_JOB (R103). -/
def jobOk (s : State) (j : Job) : Bool :=
  decide (j.mode ≤ 2 ∧ j.flags < 16 ∧ j.srcLen ≠ 0 ∧ j.dstLen ≠ 0)
    && (bitsOf j.flags 0 1 == 1 || inDram s j.src j.srcLen) && (bitsOf j.flags 1 1 == 1 || inDram s j.dst j.dstLen)


/-- CODEC_JOB after R67's checks: OP 1 is legal only in some engine states; a compression joins the compressor's queue,
an inflation the verify queue. -/
def codecJob (e : Entry) (j : Job) (s : State) : State :=
  let st := s.engine
  if j.mode = 1 ∧ !([Eng.standby, Eng.warmup, Eng.hardstop, Eng.furled, Eng.fault].contains st) then done e 0x50 Sts.badState 0 s
  else if j.mode = 2 then
    vQueueSync (begin_ e.q e.cid.toNat 0x50 { s with codec := { s.codec with queue := s.codec.queue ++ [.job j] } })
  else if cmpFull s then done e 0x50 Sts.busy 0 s
  else cmpEnqueue j (begin_ e.q e.cid.toNat 0x50 s)

/-- Source bytes in host memory, as many as SRC_LEN. -/
def hostBytes (b : List Byte) (n : Nat) : List Byte := (b ++ List.replicate (n - b.length) 0).take n

def cmdCodecJob (e : Entry) (op fl : BitVec 8) (src : BitVec 64) (srcLen dstLen : BitVec 32) (dst : BitVec 64)
    (data : List Byte) (s : State) : State :=
  let j : Job := { q := e.q, cid := e.cid.toNat, op := 0x50, mode := op.toNat, flags := fl.toNat, src := src.toNat,
                   srcLen := srcLen.toNat, dst := dst.toNat, dstLen := dstLen.toNat,
                   data := if bitsOf fl.toNat 0 1 = 1 then some (hostBytes data srcLen.toNat) else none }
  live (command (.codecJob e op fl src srcLen dstLen dst data) e 0x50
    (fun s => decide (op.toNat ≤ 1) && decide (s.part = .mlv9040)) (fun s => jobOk s j) (codecJob e j)) s

def execCodecJob (e : Entry) (op fl : BitVec 8) (src : BitVec 64) (srcLen dstLen : BitVec 32) (dst : BitVec 64)
    (data : List Byte) (s : State) : Host.Outcome State Fault Refusal :=
  .next (cmdCodecJob e op fl src srcLen dstLen dst data s)

end Sys2Proof.Machine
end

