-- ==== Sys2Proof/Machine/Measure.lean ====
section
/-!
DEFINITION. What the vision pipeline computes from a frame: colour reconstruction, measurements and registration fits
(spec/09_vision_registration.md R219-R224, R227, R228), as functions of the pixel codes and the settings.
-/

namespace Sys2Proof.Machine

/-! ## Quotients whose rounding the spec leaves open -/

/-- `a / n` where the spec gives no rounding: the quotient where it is whole, one of its two neighbours otherwise. -/
def openDiv (k : Nat) (a : Int) (n : Nat) : Int :=
  if n = 0 then Config.unstated k a
  else if a % n = 0 then a / n
  else a / n + (Config.roundUp k a n).toNat

/-- `a / n` rounded to the nearest, the direction of a half being open. -/
def nearestOpen (k : Nat) (a : Int) (n : Nat) : Int :=
  if n = 0 then Config.unstated k a
  else if 2 * (a % n) < n then a / n
  else if (n : Int) < 2 * (a % n) then a / n + 1
  else a / n + (Config.roundUp k a n).toNat

/-- `a / n` rounded to the nearest, halves up (R222, R228). -/
def halfUp (k : Nat) (a : Int) (n : Nat) : Int :=
  if n = 0 then Config.unstated k a else (2 * a + n) / (2 * n)

def sumI (l : List Int) : Int := l.foldl (· + ·) 0

/-! ## Pixels (R219) -/

/-- Bits of a pixel code, by data type. -/
def rawBits (dt : Nat) : Nat :=
  if dt = 0x2A then 8 else if dt = 0x2B then 10 else if dt = 0x2C then 12 else if dt = 0x2D then 14
  else if dt = 0x2E then 16 else if dt = 0x2F then 20 else 8

/-- Bytes a stored pixel takes (R217). -/
def pixBytes (dt : Nat) : Nat := if dt = 0x2F then 4 else if 0x2B ≤ dt ∧ dt ≤ 0x2E then 2 else 1

/-- User-defined types are stored and never measured (R206). -/
def userType (dt : Nat) : Bool := decide (0x30 ≤ dt ∧ dt ≤ 0x37)

/-- A coordinate outside 0 to n - 1 taken as its mirror inside. -/
def mirror (n : Nat) (i : Int) : Nat :=
  let e : Int := if Config.mirrorRepeats then 1 else 0
  (clampI 0 (n - 1) (if i < 0 then -i - e else if (n : Int) ≤ i then 2 * n - 2 + e - i else i)).toNat

/-- A frame to be measured: its settings and the pixel codes of its lines. -/
structure Shot where
  g : CamGen
  lines : List (List Nat)
  deriving DecidableEq, Repr

/-- The colour of a pixel: 0 R, 1 G, 2 B, 3 W, 4 IR. -/
def CamGen.colour (g : CamGen) (y x : Nat) : Nat := g.cfa.getD (4 * (y % 4) + x % 4) 0

def CamGen.has (g : CamGen) (k : Nat) : Bool := g.cfa.contains k

def CamGen.mono (g : CamGen) : Bool := g.cfa.all (· == g.cfa.headD 0)

/-- The guide channel (R220). -/
def CamGen.guide (g : CamGen) : Nat := if g.has 3 then 3 else 1

/-- The normalised value of a pixel. -/
def Shot.at_ (f : Shot) (p : Nat × Nat) : Int :=
  let c := (f.lines.getD p.1 []).getD p.2 0
  ((c - f.g.black) * 2 ^ (20 - rawBits f.g.dt) : Nat)

/-- The pixels of a window of half-width `r` about (y, x), mirrored into the frame. -/
def Shot.window (f : Shot) (r y x : Nat) : List (Nat × Nat) :=
  let ds := (List.range (2 * r + 1)).map fun (i : Nat) => (i : Int) - r
  (ds.map fun dy => ds.map fun dx => (mirror f.g.height (y + dy), mirror f.g.width (x + dx))).foldr (· ++ ·) []

/-- The samples of colour `k` in a window. -/
def Shot.sites (f : Shot) (k r y x : Nat) : List (Nat × Nat) :=
  (f.window r y x).filter fun p => f.g.colour p.1 p.2 == k

/-! ## Interpolation (R220) -/

/-- The guide at a pixel: its sample, or the mean of the samples about it. -/
def Shot.guideAt (f : Shot) (p : Nat × Nat) : Int :=
  let k := f.g.guide
  if f.g.colour p.1 p.2 = k then f.at_ p
  else
    let near := f.sites k 1 p.1 p.2
    let l := if near.isEmpty then f.sites k 2 p.1 p.2 else near
    openDiv 0 (sumI (l.map f.at_)) l.length

/-- The weight of a sample, to 8 fraction bits: 1 / (1 + difference / edge). -/
def weight (edge : Nat) (d : Int) : Int := openDiv 1 (256 * edge) (edge + d.natAbs)

/-- The value of colour `k` at a pixel that is not its own. -/
def Shot.fillAt (f : Shot) (k : Nat) (p : Nat × Nat) : Int :=
  let g0 := f.guideAt p
  let ws := (f.sites k 2 p.1 p.2).map fun q => (weight f.g.edge (f.guideAt q - g0), f.at_ q - f.guideAt q)
  let v := g0 + openDiv 2 (sumI (ws.map fun w => w.1 * w.2)) (sumI (ws.map (·.1))).toNat
  if v < 0 then 0 else if 2 ^ 20 ≤ v then Config.unstated 8 v else v

/-- Channel `k` complete at a pixel. -/
def Shot.chan (f : Shot) (k : Nat) (p : Nat × Nat) : Int :=
  if f.g.mono then (if f.g.cfa.headD 0 = k then f.at_ p else 0)
  else if !f.g.has k then 0
  else if f.g.colour p.1 p.2 = k then f.at_ p
  else if k = f.g.guide then f.guideAt p
  else f.fillAt k p

/-! ## Projection (R221) -/

/-- A channel less its IR part. -/
def Shot.clean (f : Shot) (k : Nat) (p : Nat × Nat) : Int :=
  if !f.g.has 4 then f.chan k p
  else max 0 (f.chan k p - openDiv 3 (f.g.irk.getD k 0 * f.chan 4 p) 262144)

/-- Measurement channel `i` at a pixel. -/
def Shot.m (f : Shot) (i : Nat) (p : Nat × Nat) : Int :=
  clampI 0 (2 ^ 20 - 1)
    (openDiv 4 (sumI ((List.range 4).map fun k => f.g.matrix.getD (4 * i + k) 0 * f.clean k p)) 262144)

/-! ## Measurements (R222-R224) -/

/-- The pixels of a rectangle, by lines. -/
def rect (x y w h : Nat) : List (Nat × Nat) :=
  ((List.range h).map fun i => (List.range w).map fun j => (y + i, x + j)).foldr (· ++ ·) []

/-- The mean of a channel over an ROI. -/
def Shot.roiMean (f : Shot) (r : Roi) (i : Nat) : Int :=
  let l := rect r.x r.y r.w r.h
  halfUp 7 (sumI (l.map (f.m i))) l.length

/-- The 16-byte result of an ROI: three means and the pixel count. -/
def Shot.roiBytes (f : Shot) (r : Roi) : List Byte :=
  ((List.range 3).map fun i => leBytes 4 (unsext 32 (f.roiMean r i))).foldr (· ++ ·) [] ++ leBytes 4 (r.w * r.h)

/-- The 64 bins of an ROI's histogram. -/
def Shot.histBytes (f : Shot) (r : Roi) : List Byte :=
  let bins := (rect r.x r.y r.w r.h).map fun p => min 63 ((f.m r.chan p).toNat / 2 ^ r.shift)
  ((List.range 64).map fun b => leBytes 4 (bins.filter (· == b)).length).foldr (· ++ ·) []

/-- What is measured of a mark: position, weight sum, status. -/
structure Found where
  u : Int
  v : Int
  mass : Nat
  status : Nat
  deriving DecidableEq, Repr

/-- The pixel belongs to the mark. -/
def Shot.qualifies (f : Shot) (k : Mark) (p : Nat × Nat) : Bool :=
  if k.light then decide ((k.thresh : Int) < f.m k.chan p) else decide (f.m k.chan p < k.thresh)

/-- The mark as found in its window (R223), and its position on the sheet (R224). -/
def Shot.find (f : Shot) (k : Mark) : Found :=
  let l := (rect k.x k.y k.w k.h).filter (f.qualifies k)
  let ws := l.map fun p => ((f.m k.chan p - k.thresh).natAbs, p)
  let w := sumN (ws.map (·.1))
  let cx := nearestOpen 5 (sumI (ws.map fun e => (e.1 : Int) * (64 * (e.2.2 : Int) + Config.pixelCentre))) w
  let cy := nearestOpen 5 (sumI (ws.map fun e => (e.1 : Int) * (64 * (e.2.1 : Int) + Config.pixelCentre))) w
  let (a, b) := if f.g.swap then (cy, cx) else (cx, cy)
  let edge := l.any fun p => p.2 == k.x || p.2 + 1 == k.x + k.w || p.1 == k.y || p.1 + 1 == k.y + k.h
  { u := f.g.ofsU + nearestOpen 6 (f.g.sx * a) 65536
    v := f.g.ofsV + nearestOpen 6 (f.g.sy * b) 65536
    mass := min (2 ^ 32 - 1) (w / 2 ^ 12)
    status := if l.isEmpty then 1 else if edge then 2 else 0 }

/-- The 16-byte result of a mark (R225). -/
def Found.bytes (r : Found) : List Byte :=
  leBytes 4 (unsext 32 r.u) ++ leBytes 4 (unsext 32 r.v) ++ leBytes 4 r.mass ++ leBytes 1 r.status ++ leBytes 3 0

/-! ## Fits (R227, R228) -/

/-- A mark found, as the fits use it: station, NOM_U, NOM_V, du, dv. -/
structure Dev where
  stn : Nat
  nomU : Int
  nomV : Int
  du : Int
  dv : Int
  deriving DecidableEq, Repr

/-- A station's fit: A, B, EV, marks used, magnification valid. -/
structure Fit where
  a : Int
  b : Int
  ev : Int
  used : Nat
  magOk : Bool
  deriving DecidableEq, Repr

/-- A quotient of integers rounded half up, the divisor positive. -/
def divHalfUp (a d : Int) : Int := (2 * a + d) / (2 * d)

/-- The fit of a station from its marks and the reference's, `u0` the centre of its scan line. All sums are exact: the
deviations are scaled by the number of reference marks. -/
def fitOf (u0 : Int) (own ref : List Dev) : Option Fit :=
  if own.isEmpty then none
  else
    let nr : Int := if ref.isEmpty then 1 else ref.length
    let ru := if ref.isEmpty then 0 else sumI (ref.map (·.du))
    let rv := if ref.isEmpty then 0 else sumI (ref.map (·.dv))
    let n : Int := own.length
    let se := sumI (own.map fun d => nr * d.du - ru)
    let sv := sumI (own.map fun d => nr * d.dv - rv)
    let sx := sumI (own.map fun d => d.nomU - u0)
    let sxx := sumI (own.map fun d => (d.nomU - u0) * (d.nomU - u0))
    let sxe := sumI (own.map fun d => (d.nomU - u0) * (nr * d.du - ru))
    let det := n * sxx - sx * sx
    let ev := divHalfUp sv (n * nr)
    if det = 0 then some ⟨divHalfUp se (n * nr), 0, ev, own.length, false⟩
    else some ⟨divHalfUp (sxx * se - sx * sxe) (det * nr), divHalfUp (1000000000 * (n * sxe - sx * se)) (det * nr), ev,
      own.length, true⟩

/-- The corrections (MAG, P64, LINE) at gain `g` (Q2.18) for A, B and EV given as sums over `n` frames. -/
def corrections (g : Nat) (u0 a b ev n : Int) : Int × Int × Int :=
  let q : Int := 262144 * n
  let mag := -(divHalfUp (g * b) q)
  let p64 := divHalfUp (-(g * a * 1000000000) - u0 * mag * q) (1000000000 * q)
  (mag, p64, divHalfUp (-(g * ev)) (64 * q))

/-- The 32 bytes of a station fit: A, B, EV, marks used, flags, and last the corrections at gain 1; the four bytes
between are open. -/
def Fit.bytes (u0 : Int) (open_ : Nat) (f : Fit) : List Byte :=
  let (mag, p64, line) := corrections 262144 u0 f.a f.b f.ev 1
  leBytes 4 (unsext 32 f.a) ++ leBytes 4 (unsext 32 f.b) ++ leBytes 4 (unsext 32 f.ev) ++ leBytes 1 f.used
    ++ leBytes 1 (1 + 2 * f.magOk.toNat) ++ leBytes 2 0 ++ leBytes 4 open_
    ++ leBytes 4 (unsext 32 mag) ++ leBytes 4 (unsext 32 p64) ++ leBytes 4 (unsext 32 line)

/-- The slope of dv against NOM_V, in 0.001 ppm, over marks of several frames, as an exact fraction (R231). -/
def slopeOf (marks : List (Int × Int)) : Int × Int :=
  let n : Int := marks.length
  let sx := sumI (marks.map (·.2))
  let sxx := sumI (marks.map fun m => m.2 * m.2)
  let se := sumI (marks.map (·.1))
  let sxe := sumI (marks.map fun m => m.1 * m.2)
  (1000000000 * (n * sxe - sx * se), n * sxx - sx * sx)

end Sys2Proof.Machine
end

