-- ==== Sys2Proof/Machine/Vision.lean ====
section
/-!
DEFINITION. Camera streams (spec/09_vision_registration.md R205-R218): settings generations and CAMERA_CFG, CCI writes,
CSI-2 packets, frames, associations, the memory path's queues, the frame store, uploads.
-/

namespace Sys2Proof.Machine

open Reg

def strU (s : State) (k : Nat) : Stream := bankGet {} s.vis.streams k
def modStr (k : Nat) (f : Stream → Stream) (s : State) : State :=
  { s with vis := { s.vis with streams := bankPut {} k (f (strU s k)) s.vis.streams } }

/-! ## Numbers -/

/-- Sequence number of the n-th Frame Start: 1 to 2^28 - 1, then 1 again; 0 for none (R211). -/
def seqOf (n : Nat) : Nat := if n = 0 then 0 else (n - 1) % (2 ^ 28 - 1) + 1

/-- FRAME_TAG of a stream's n-th frame. -/
def tagOf (k n : Nat) : Nat := k * 2 ^ 28 + seqOf n

/-- The next SETTINGS_GEN: 1 to 2^32 - 1, then 1 again. -/
def genNext (n : Nat) : Nat := if n + 1 ≥ 2 ^ 32 then 1 else n + 1

/-- The newest generation assigned to a stream. -/
def newestGen (u : Stream) : CamGen := match u.pend.getLast? with | some p => p.gen | none => u.cur

/-- The frame from which a pending generation governs (R212). -/
def PendGen.eff (p : PendGen) : Nat := p.written + 1 + p.gen.latency

/-- The generation that governs frame `n` of a stream, and those left pending. -/
def governs (u : Stream) (n : Nat) : CamGen × List PendGen :=
  u.pend.foldl (fun (g, rest) p => if p.sent ∧ p.eff ≤ n then (p.gen, []) else (g, rest ++ [p])) (u.cur, [])

/-- PEND and EFF follow the generations pending. -/
def pendSync (k : Nat) (s : State) : State :=
  let u := strU s k
  let s1 := s.p (VIS_CAM_PEND_GEN k) (newestGen u).num
  s1.p (VIS_CAM_EFF_SEQ k) (match u.pend.getLast? with | some p => seqOf p.eff | none => 0)

/-! ## Frame store and result ring (R217, R225) -/

/-- Bytes of a stored frame from its header up to its last pixel. -/
def frameBytes (g : CamGen) : Nat := 64 + 16384 + g.width * g.height * pixBytes g.dt

def slotBytes (g : CamGen) : Nat := ceilDiv (frameBytes g) 4096 * 4096

/-- The store address of a stream's n-th frame. -/
def slotAddr (g : CamGen) (n : Nat) : Nat := g.frameAddr + (if g.frames = 0 then 0 else seqOf n % g.frames) * slotBytes g

def recordBytes (g : CamGen) : Nat :=
  ceilDiv (64 + 8 * 32 + 16 * g.rois.length + 256 * (g.rois.filter (·.hist)).length + 16 * g.marks.length) 64 * 64

/-! ## CCI writes (R207, R212) -/

/-- The last write of a generation is made. -/
def genSent (k num : Nat) (s : State) : State :=
  modStr k (fun u => { u with pend := u.pend.map fun p => if p.gen.num = num then { p with sent := true } else p }) s

/-- The bytes of a CCI value of length `n`, most significant first (R209). -/
def cciBytes (n v : Nat) : List Byte := (leBytes n v).reverse

/-- The next job of a controller that has none under way, in the order the generations were applied, starts once its
time has come. A generation without writes needs no controller. -/
def cciStart (bus : Nat) (s : State) : State :=
  match s.vis.cci.find? fun j => j.gen.bus == bus && !j.gen.cci.isEmpty with
  | none => s
  | some j =>
    if j.started ∨ !j.ready then s
    else
      let s1 := { s with vis := { s.vis with cci := s.vis.cci.map fun x => if x = j then { x with started := true } else x } }
      j.gen.cci.foldl (fun s w => s.emit (.cci bus j.gen.dev w.1 (cciBytes w.2.1 w.2.2))) s1

/-- Generations without CCI writes whose time has come are complete at once; the others start as their controllers are
free. -/
def cciSync (s : State) : State :=
  let now := s.vis.cci.filter fun j => j.ready && j.gen.cci.isEmpty
  let s1 := { s with vis := { s.vis with cci := s.vis.cci.filter fun j => !(j.ready && j.gen.cci.isEmpty) } }
  overN 4 cciStart (now.foldl (fun s j => genSent j.stream j.gen.num s) s1)

/-- CCI_WRITES_DONE: the writes under way on a controller end. -/
def cciDone (bus : Nat) (s : State) : State :=
  match s.vis.cci.find? fun j => j.gen.bus == bus && j.started with
  | none => s
  | some j =>
    let s1 := { s with vis := { s.vis with cci := s.vis.cci.filter (· != j) } }
    pendSync j.stream (cciSync (genSent j.stream j.gen.num s1))

def execCciWritesDone (bus : Fin 4) (s : State) : Host.Outcome State Fault Refusal := .next (live (cciDone bus) s)

/-- The frame in reception has ended: the writes for it may start. -/
def cciReady (k : Nat) (s : State) : State :=
  let u := strU s k
  let due := fun j : CciJob => j.stream == k &&
    (match u.pend.find? fun p => p.gen.num == j.gen.num with | some p => decide (p.written ≤ u.count) | none => true)
  cciSync { s with vis := { s.vis with cci := s.vis.cci.map fun j => if due j then { j with ready := true } else j } }

/-! ## Settings blocks (R209, R210, R222, R223) -/

/-- Tables of `n` entries of `size` bytes at `a`. -/
def entriesOf (m : List Host.Cell) (a size : Nat) : Nat → List (List Byte)
  | 0 => []
  | n + 1 => memRead m a size :: entriesOf m (a + size) size n

def roiOf (b : List Byte) : Roi :=
  { x := bytesAt b 0 2, y := bytesAt b 2 2, w := bytesAt b 4 2, h := bytesAt b 6 2,
    hist := bitsOf (bytesAt b 8 1) 0 1 == 1, chan := bitsOf (bytesAt b 8 1) 1 2, shift := bytesAt b 9 1 }

def roiOk (w h : Nat) (b : List Byte) : Bool :=
  let r := roiOf b
  decide (r.x + r.w ≤ w ∧ r.y + r.h ≤ h ∧ r.chan ≤ 2 ∧ r.shift ≤ 14) && zeroAt b 10 6

def markOf (b : List Byte) : Mark :=
  { x := bytesAt b 0 2, y := bytesAt b 2 2, w := bytesAt b 4 2, h := bytesAt b 6 2, stn := bytesAt b 8 1,
    chan := bytesAt b 9 1, light := bytesAt b 10 1 == 1, thresh := bytesAt b 12 4 % 2 ^ 20,
    nomU := sext 32 (bytesAt b 16 4), nomV := sext 32 (bytesAt b 20 4) }

def markOk (p : Part) (w h : Nat) (b : List Byte) : Bool :=
  let r := markOf b
  decide (r.x + r.w ≤ w ∧ r.y + r.h ≤ h ∧ r.stn < p.stations ∧ r.chan ≤ 2 ∧ bytesAt b 10 1 ≤ 1)
    && zeroAt b 11 1 && zeroAt b 24 8

def cciOf (b : List Byte) : Nat × Nat × Nat := (bytesAt b 0 2, bytesAt b 2 1, bytesAt b 4 4)

def cciOk (b : List Byte) : Bool := decide (1 ≤ bytesAt b 2 1 ∧ bytesAt b 2 1 ≤ 4) && zeroAt b 3 1

/-- Twenty-bit values of a block, signed. -/
def sq20s (b : List Byte) (off n : Nat) : List Int := (List.range n).map fun i => sext 20 (bytesAt b (off + 4 * i) 4)

/-- The generation that a settings block makes, with the tables it names. -/
def blockGen (m : List Host.Cell) (b : List Byte) (num pair mbx : Nat) : CamGen :=
  { num := num, pair := pair, mbx := mbx
    port := bytesAt b 0 1, vc := bytesAt b 1 1, dt := bytesAt b 2 1, path := bytesAt b 3 1
    width := bytesAt b 4 2, height := bytesAt b 6 2, latency := bytesAt b 8 1, bus := bytesAt b 9 1, dev := bytesAt b 10 1
    cci := (entriesOf m (bytesAt b 0xA0 8) 8 (bytesAt b 11 1)).map cciOf
    cfa := (List.range 16).map fun i => bitsOf (bytesAt b 12 8) (4 * i) 4
    black := bytesAt b 0x14 2, irk := sq20s b 0x18 4, matrix := sq20s b 0x28 12, edge := bytesAt b 0x58 4
    frames := bytesAt b 0x5C 1, resCount := bytesAt b 0x5D 1
    rois := (entriesOf m (bytesAt b 0x90 8) 16 (bytesAt b 0x5E 2)).map roiOf
    marks := (entriesOf m (bytesAt b 0x98 8) 32 (bytesAt b 0x60 1)).map markOf
    regRef := bytesAt b 0x61 1, camPos := bytesAt b 0x64 4
    sx := sext 32 (bytesAt b 0x68 4), sy := sext 32 (bytesAt b 0x6C 4)
    ofsU := sext 32 (bytesAt b 0x70 4), ofsV := sext 32 (bytesAt b 0x74 4), swap := bitsOf (bytesAt b 0x78 1) 0 1 == 1
    frameAddr := bytesAt b 0x80 8, resAddr := bytesAt b 0x88 8 }

/-- The data types a stream may have: RAW8 to RAW20 and the user-defined types (R205). -/
def streamDt (dt : Nat) : Bool := decide (0x2A ≤ dt ∧ dt ≤ 0x2F) || userType dt

/-- An address field that is used. -/
def tableAt (s : State) (a len : Nat) : Bool := len == 0 || (a % 64 == 0 && inDram s a len)

/-- The fields of a block that hold only themselves. -/
def settingsOk (s : State) (b : List Byte) : Bool :=
  let u := fun off n => bytesAt b off n
  decide (u 0 1 ≤ 3 ∧ u 1 1 ≤ 15 ∧ u 3 1 ≤ 2 ∧ u 4 2 % 4 = 0 ∧ 16 ≤ u 4 2 ∧ u 4 2 ≤ 8192 ∧ 16 ≤ u 6 2 ∧ u 6 2 ≤ 16384)
    && decide (u 8 1 ≤ 3 ∧ u 9 1 ≤ 3 ∧ u 10 1 ≤ 127 ∧ u 11 1 ≤ 32) && streamDt (u 2 1)
    && ((List.range 16).all fun i => decide (bitsOf (u 12 8) (4 * i) 4 ≤ 4))
    && zeroAt b 0x16 2 && ((List.range 16).all fun i => decide (u (0x18 + 4 * i) 4 < 2 ^ 20))
    && decide (1 ≤ u 0x58 4 ∧ u 0x58 4 < 2 ^ 20 ∧ u 0x5C 1 ≤ 8 ∧ u 0x5D 1 ≠ 1 ∧ u 0x5D 1 ≤ 64 ∧ u 0x5E 2 ≤ 256 ∧ u 0x60 1 ≤ 64)
    && decide (u 0x61 1 = 255 ∨ u 0x61 1 < s.part.stations) && zeroAt b 0x62 2 && decide (u 0x78 1 ≤ 1) && zeroAt b 0x79 7
    && zeroAt b 0xA8 88 && decide (u 3 1 ≠ 1 ∨ u 0x5C 1 ≠ 0)

/-- The tables of a block: where they lie, and each entry by its own rule. -/
def tablesOk (s : State) (b : List Byte) : Bool :=
  let u := fun off n => bytesAt b off n
  let g := blockGen (memTaken s) b 0 0 0
  tableAt s g.frameAddr (g.frames * slotBytes g) && tableAt s g.resAddr (g.resCount * recordBytes g)
    && tableAt s (u 0x90 8) (16 * u 0x5E 2) && tableAt s (u 0x98 8) (32 * u 0x60 1) && tableAt s (u 0xA0 8) (8 * u 11 1)
    && (entriesOf (memTaken s) (u 0x90 8) 16 (u 0x5E 2)).all (roiOk g.width g.height)
    && (entriesOf (memTaken s) (u 0x98 8) 32 (u 0x60 1)).all (markOk s.part g.width g.height)
    && (entriesOf (memTaken s) (u 0xA0 8) 8 (u 11 1)).all cciOk

/-- A stream other than `k`, as its newest generation binds it, while its path is not off. -/
def otherBound (s : State) (k : Nat) (p : CamGen → Bool) : Bool :=
  (List.range 16).any fun j => j != k && (newestGen (strU s j)).path != 0 && p (newestGen (strU s j))

def settingsAt (s : State) (a : Nat) : List Byte := memRead (memTaken s) a 256

/-- The parameters of CAMERA_CFG (R209, R210). -/
def cameraOk (s : State) (k mbx a : Nat) : Bool :=
  let b := settingsAt s a
  let g := blockGen (memTaken s) b 0 0 0
  decide (k ≤ 15 ∧ (mbx ≤ 63 ∨ mbx = 255) ∧ a % 64 = 0) && inDram s a 256 && settingsOk s b && tablesOk s b
    && !(g.path == 2 && otherBound s k fun x => x.path == 2)
    && !(g.path != 0 && otherBound s k fun x => x.port == g.port && x.vc == g.vc && x.dt == g.dt)

/-- The DRAM that a CAMERA_CFG reads: the block, and its tables of entries (R209, R210). -/
def cameraReads (a : Nat) (s : State) : List (Nat × Nat) :=
  let b := settingsAt s a
  if s.part = .mlv9040 ∨ a % 64 ≠ 0 ∨ !inDram s a 256 then []
  else [(a, 256), (bytesAt b 0x90 8, 16 * min 256 (bytesAt b 0x5E 2)), (bytesAt b 0x98 8, 32 * min 64 (bytesAt b 0x60 1)),
        (bytesAt b 0xA0 8, 8 * min 32 (bytesAt b 11 1))]

/-- The block names a port that the part lacks, or the part has no vision (R3, R210). -/
def cameraAbsent (a : Nat) (s : State) : Bool :=
  s.part == .mlv9040 || (a % 64 == 0 && inDram s a 256
    && decide (s.part.csi ≤ bytesAt (settingsAt s a) 0 1 ∧ bytesAt (settingsAt s a) 0 1 ≤ 3))

/-- A change of PORT, VC, DT or PATH (R213); a stream's first generation is one. -/
def rebinds (old g : CamGen) : Bool :=
  old.num == 0 || old.port != g.port || old.vc != g.vc || old.dt != g.dt || old.path != g.path

/-- A frame of the stream is queued or in the pipeline: waiting in a port's queue, worked on, in reception on a path, or
ended and not yet reported. -/
def streamBusy (s : State) (k : Nat) : Bool :=
  ((List.range 4).any fun p => (bankGet [] s.vis.queue p).any fun e => e.1 == k)
    || (match s.vis.run with | some f => f.stream == k | none => false)
    || (s.vis.held.any fun f => f.stream == k)
    || (match (strU s k).rx with | some f => !f.dropped | none => false)

/-- VIS_STAT names the in-line stream. -/
def inlineSync (s : State) : State :=
  match (List.range 16).find? fun k => (newestGen (strU s k)).path == 2 with
  | some k => (s.pb VIS_STAT_INLINE_VALID true).p VIS_STAT_INLINE k
  | none => (s.pb VIS_STAT_INLINE_VALID false).p VIS_STAT_INLINE 0

/-- A generation of stream `k` whose CCI writes have not started. -/
def cciIdle (s : State) (k num : Nat) : Bool := s.vis.cci.any fun j => j.stream == k && j.gen.num == num && !j.started

/-- Generations whose CCI writes have not started are superseded, the one that bound the stream among them. -/
def supersede (k : Nat) (s : State) : State :=
  let idle := cciIdle s k
  let u := strU s k
  if idle u.cur.num ∨ u.pend.any fun p => idle p.gen.num then
    let s1 := modStr k (fun u => { u with pend := u.pend.filter fun p => !idle p.gen.num }) s
    let s2 := { s1 with vis := { s1.vis with cci := s1.vis.cci.filter fun j => !(j.stream == k && !j.started) } }
    s2.pb (VIS_CAM_STAT_SUPERSEDED k) true
  else s

/-- A generation applied without rebinding (R212, R213): where the writes of the one before it have started, a binding one
whose first frame is to come among them, it is written for the next frame. -/
def applyGen (k : Nat) (g : CamGen) (s : State) : State :=
  let u := strU s k
  let w := match u.pend.getLast? with
    | some p => max u.count (p.written + 1)
    | none => if u.count = u.bound then u.count + 1 else u.count
  let now := decide (w ≤ u.count) && u.rx.isNone
  let p : PendGen := { gen := g, written := w }
  let s1 := modStr k (fun u => { u with pend := u.pend ++ [p] }) s
  cciSync { s1 with vis := { s1.vis with cci := s1.vis.cci ++ [⟨k, g, now, false⟩] } }

/-- A rebinding: the writes are sent at once, and the generation governs from the first Frame Start of the new triple. -/
def rebind (k : Nat) (g : CamGen) (s : State) : State :=
  let s1 := modStr k (fun u => { u with cur := g, pend := [], rx := none, bound := u.count }) s
  let s2 : State := { s1 with vis := { s1.vis with cci := s1.vis.cci ++ [⟨k, g, true, false⟩] } }
  inlineSync (cciSync (s2.p (VIS_CAM_STAT_PATH k) g.path))

/-- CAMERA_CFG after R67's checks. The pair that a stream's results go to is that of the CAMERA_CFG which bound it
(R226). -/
def cameraCfg (e : Entry) (k mbx a : Nat) (s : State) : State :=
  let old := newestGen (strU s k)
  let u := strU s k
  let g0 := blockGen (memTaken s) (settingsAt s a) (genNext old.num) e.q mbx
  let g := if rebinds old g0 then g0 else { g0 with pair := old.pair }
  if rebinds old g ∧ streamBusy s k then done e 0x40 Sts.busy 0 s
  else
    -- a binding generation superseded before any frame leaves the binding to the later one
    let binds := rebinds old g || (cciIdle s k u.cur.num && u.count == u.bound)
    let s1 := supersede k s
    done e 0x40 Sts.ok g.num (pendSync k (if binds then rebind k g s1 else applyGen k g s1))

def cmdCameraCfg (e : Entry) (stream mbx : BitVec 8) (addr : BitVec 64) (s : State) : State :=
  live (command (.cameraCfg e stream mbx addr) e 0x40 (cameraAbsent addr.toNat) (fun s => cameraOk s stream.toNat mbx.toNat addr.toNat)
    (cameraCfg e stream.toNat mbx.toNat addr.toNat) (cameraReads addr.toNat)) s

def execCameraCfg (e : Entry) (stream mbx : BitVec 8) (addr : BitVec 64) (s : State) : Host.Outcome State Fault Refusal :=
  .next (cmdCameraCfg e stream mbx addr s)

/-! ## Associations (R208) -/

def assocSync (k : Nat) (s : State) : State := s.p (VIS_CAM_ALOST_QUEUED k) (strU s k).assoc.length

/-- CAM_POS in force on a stream: that of the generation its next frame would be governed by. -/
def camPos (s : State) (k : Nat) : Nat := (governs (strU s k) ((strU s k).count + 1)).1.camPos

/-- A context that the front may cross a camera with: fed, its origin known, and not jammed. -/
def camTracked (s : State) (c : Nat) : Bool :=
  (s.ctxU c).fed && (s.ctxU c).hasOrigin && feedingLater (ctxState s c) && ctxState s c != Px.jammed

/-- An association joins a stream's queue; where four wait, the oldest is discarded and counted. -/
def associate (k : Nat) (a : Assoc) (s : State) : State :=
  let q := (strU s k).assoc
  let s1 := if 4 ≤ q.length then s.inc (VIS_CAM_ALOST_COUNT k) else s
  assocSync k (modStr k (fun u => { u with assoc := (if 4 ≤ q.length then q.drop 1 else q) ++ [a] }) s1)

/-- TRIG_CAMERA: the front crosses origin + CAM_POS. -/
def trigCamera (c k : Nat) (s : State) : State :=
  let u := s.ctxU c
  let pos := camPos s k
  if camTracked s c ∧ pos ≠ 0 ∧ bitsOf u.camd k 1 = 0 ∧ crossed s (originOf s c + pos) then
    let s1 := (s.modCtx c fun u => { u with camd := u.camd + 2 ^ k }).event (.camTrig k)
    associate k ⟨c, u.seq, s.g (PCTX_SHEET_SHEET_ID c), u.epochs, u.trimSeq⟩ s1
  else s

def execTrigCamera (c : Fin 256) (st : Fin 16) (s : State) : Host.Outcome State Fault Refusal :=
  .next (live (if s.part = .mlv9040 then id else trigCamera c st) s)

/-! ## Results to the host (R214, R225, R226) -/

/-- `n` fields of a header in open places, apart from one another, with `room` bytes about them that `fill` gives; the
draws from `k` up choose the order and the gaps. -/
def placed (fill : Nat → Nat → List Byte) : Nat → Nat → Nat → List (List Byte) → List Byte
  | 0, k, room, _ => fill k room
  | n + 1, k, room, fs =>
    let i := Config.place (2 * k) % fs.length
    let gap := Config.place (2 * k + 1) % (room + 1)
    fill k gap ++ fs.getD i [] ++ placed fill n (k + 1) (room - gap) (fs.eraseIdx i)

/-- Zero bytes about the fields. -/
def zeroFill (_ n : Nat) : List Byte := List.replicate n 0

/-- Bytes about the fields that the rules do not give. -/
def openFill (k n : Nat) : List Byte := (Config.layout 0 [k, n] ++ List.replicate n 0).take n

/-- The 64-byte header of a result record. -/
def recordHeader (f : Frame) (status : Nat) : List Byte :=
  let (c, id) := match f.assoc with | some a => (a.ctx, a.sheet) | none => (0, 0)
  placed zeroFill 8 0 37 [leBytes 4 (tagOf f.stream f.count), leBytes 4 f.gen.num, leBytes 1 status, leBytes 1 c,
    leBytes 1 (f.assoc.isSome.toNat * 2 ^ (Config.place 100 % 8)), leBytes 4 id, leBytes 8 f.start.sec, leBytes 4 f.start.ns]

/-- A MEASURE_RESULT, dropped and counted where its ring cannot take it (R83, R226). A session below version 1.1 has no
such message (R68), and none is posted. -/
def measureResult (q m tag : Nat) (s : State) : State :=
  if s.session && decide (s.repVersion < 0x0101) then s
  else if s.pairOn q && !s.cqFull q && (s.qpU q).held.isEmpty then
    writeCqe q { cid := 0xFFFF, op := 0x81, status := 0, aux := some m, result := tag + s.g (MBX_HDR_SEQ m) * 2 ^ 32 } s
  else s.inc VIS_MRLOST_COUNT

/-- A record written to its ring slot, and the mailbox result that follows it. `body` is what follows the header;
`found` the ROIs measured, the marks found and the stations with a valid fit. -/
def reportFrame (f : Frame) (status : Nat) (body : List Byte) (found : Nat × Nat × Nat) (s : State) : State :=
  let g := f.gen
  if g.resCount = 0 then s
  else
    let a := g.resAddr + seqOf f.count % g.resCount * recordBytes g
    let bytes := recordHeader f status ++ body
    let s1 := dramPut a (bytes ++ List.replicate (recordBytes g - bytes.length) 0) s
    if g.mbx = 255 then s1
    else
      let (c, id) := match f.assoc with | some x => (x.ctx, x.sheet) | none => (0, 0)
      let data := [status + c * 2 ^ 8 + f.assoc.isSome.toNat * 2 ^ 16, id, a % 2 ^ 32, a / 2 ^ 32,
        found.1 + found.2.1 * 2 ^ 16 + found.2.2 * 2 ^ 24]
      measureResult g.pair g.mbx (tagOf f.stream f.count) (mbxPut g.mbx (tagOf f.stream f.count) g.num data s1)

/-- The body of a record without valid measurements: open values, no fit marked valid, zero bytes where every record has
them. -/
def voidBody (g : CamGen) (s : State) : List Byte × State :=
  let (x, s1) := s.fresh
  let fit := fun i => leBytes 13 (x / 2 ^ (256 * i)) ++ leBytes 3 0 ++ leBytes 16 (x / 2 ^ (256 * i + 104))
  let rois := 16 * g.rois.length + 256 * (g.rois.filter (·.hist)).length
  let mark := fun i => leBytes 13 (x / 2 ^ (2048 + 8 * rois + 128 * i)) ++ leBytes 3 0
  ((List.range 8).flatMap fit ++ leBytes rois (x / 2 ^ 2048) ++ (List.range g.marks.length).flatMap mark, s1)

/-! ## Frames (R206, R207, R211, R214, R217) -/

/-- Data lanes of a port in use: 0 for a LANES value that the mapped pairs do not carry (R30). -/
def csiLanes (s : State) (p : Nat) : Nat :=
  let n := s.g (VIS_CSI_CFG_LANES p)
  let pairs := (List.range n).all fun i => s.mapped 0x20 p (2 + 2 * i) && s.mapped 0x20 p (3 + 2 * i)
  if n ≤ 4 && pairs && csiMapped s p then n else 0

/-- The port receives. -/
def portOn (s : State) (p : Nat) : Bool := decide (p < s.part.csi) && csiLanes s p != 0

/-- The streams that take frames of a port and virtual channel. -/
def streamsOn (s : State) (p vc : Nat) : List Nat :=
  (List.range 16).filter fun k =>
    let g := newestGen (strU s k)
    g.path != 0 && g.port == p && g.vc == vc

def setQueue (p : Nat) (q : List (Nat × Nat)) (s : State) : State :=
  { s with vis := { s.vis with queue := bankPut [] p q s.vis.queue } }.p (VIS_CSI_DROP_QUEUED p) q.length

/-- A frame's place in the store is touched by another. -/
def shares (g : CamGen) (n : Nat) (h : CamGen) (m : Nat) : Bool :=
  overlap (slotAddr g n, frameBytes g) (slotAddr h m, frameBytes h)

/-- A part of a frame's place in the store is being uploaded. -/
def slotUploading (s : State) (g : CamGen) (n : Nat) : Bool :=
  let frameJob := fun j : Job => j.op == 0x41 && overlap (slotAddr g n, frameBytes g) (j.src, j.srcLen)
  s.vis.ups.any frameJob || s.codec.cmpWait.any frameJob || (match s.codec.cmpRun with | some j => frameJob j | none => false)

/-- A frame's place in the store holds a frame waiting for the pipeline or in it. -/
def slotQueued (s : State) (g : CamGen) (n : Nat) : Bool :=
  ((List.range 4).any fun p => (bankGet [] s.vis.queue p).any fun e =>
      (s.vis.held ++ (strU s e.1).rx.toList).any fun f => f.stream == e.1 && f.count == e.2 && shares g n f.gen f.count)
    || (match s.vis.run with | some f => shares g n f.gen f.count | none => false)

/-- How a frame ends (R225). -/
def frameStatus (f : Frame) (overrun : Bool) : Nat :=
  if f.dropped then 1 else if f.damaged then 2 else if f.size then 3 else if overrun then 4
  else if userType f.gen.dt then 5 else 0

/-- Little-endian pixel codes. -/
def pixelBytes (g : CamGen) (line : List Nat) : List Byte :=
  (line.map fun c => leBytes (pixBytes g.dt) (c % 2 ^ rawBits g.dt)).foldr (· ++ ·) []

/-- Lines written one after another, each in its row's place, no further than WIDTH and HEIGHT. -/
def putLines (g : CamGen) (a : Nat) : Nat → List (List Nat) → State → State
  | _, [], s => s
  | y, l :: r, s =>
    if g.height ≤ y then s
    else putLines g a (y + 1) r (dramPut (a + y * (g.width * pixBytes g.dt)) (pixelBytes g (l.take g.width)) s)

/-- A frame written to its slot: header, its fields in open places (R217), embedded data, pixels. -/
def storeFrame (f : Frame) (s : State) : State :=
  let g := f.gen
  let a := slotAddr g f.count
  let hdr := placed openFill 8 128 37 [leBytes 4 (tagOf f.stream f.count), leBytes 4 g.num, leBytes 8 f.start.sec,
    leBytes 4 f.start.ns, leBytes 1 g.dt, leBytes 2 g.width, leBytes 2 g.height, leBytes 2 f.emb.length]
  putLines g (a + 64 + 16384) 0 f.lines (dramPut (a + 64) f.emb (dramPut a hdr s))

/-- A frame lies in the store (frame number, generation, whole); those that it overwrites no longer do. -/
def setSlot (f : Frame) (whole : Bool) (s : State) : State :=
  let s1 := overN 16 (fun k => modStr k fun u =>
    { u with slots := u.slots.filter fun e => !shares f.gen f.count e.2.1 e.1 }) s
  modStr f.stream (fun u => { u with slots := (f.count, f.gen, whole) :: u.slots }) s1

/-- A frame dropped by the memory path (R214). -/
def dropFrame (f : Frame) (s : State) : State :=
  let p := f.gen.port
  let s1 := (s.inc (VIS_CSI_DROP_COUNT p)).setReg (VIS_CSI_DROPTAG p) (BitVec.ofNat 32 (tagOf f.stream f.count))
  let (body, s2) := voidBody f.gen s1
  reportFrame f 1 body (0, 0, 0) s2

/-- Uploads waiting for a stream's next frame take the frame that has arrived. -/
def startUpload (j : Job) (f : Nat × CamGen) (k : Nat) (s : State) : State :=
  let j' := { j with src := slotAddr f.2 f.1, srcLen := frameBytes f.2, tag := tagOf k f.1 }
  if j.mode = 1 then
    if cmpFull s then complete j.q j.cid 0x41 Sts.busy 0 s else cmpEnqueue { j' with mode := 0 } s
  else { s with vis := { s.vis with ups := s.vis.ups ++ [j'] } }

def takeUploads (f : Frame) (s : State) : State :=
  let mine := s.vis.upWait.filter fun e => e.1 == f.stream
  let s1 := { s with vis := { s.vis with upWait := s.vis.upWait.filter fun e => e.1 != f.stream } }
  mine.foldl (fun s e => startUpload e.2 (f.count, f.gen) f.stream s) s1

/-- The frame in reception on a stream ends. -/
def endFrame (k : Nat) (s : State) : State :=
  match (strU s k).rx with
  | none => s
  | some f0 =>
    let bad := f0.lines.length != f0.gen.height
    let f := { f0 with ended := true, size := f0.size || bad }
    let s1 := modStr k (fun u => { u with rx := none }) (if f.size then s.inc (VIS_CSI_ERR_SIZE f.gen.port) else s)
    let s2 := if f.dropped then s1
      else
        let t := if f.stored then takeUploads f (setSlot f true (storeFrame f s1)) else s1
        { t with vis := { t.vis with held := t.vis.held ++ [if f.gen.path = 1 then { f with lines := [] } else f] } }
    pendSync k (cciReady k s2)

/-- Pending generations whose last write has not been made as the next frame starts count as written for that frame
(R212). -/
def slip (k n : Nat) (s : State) : State :=
  let u := strU s k
  let late := fun p : PendGen => !p.sent && decide (p.written < n)
  let s1 := modStr k (fun u => { u with pend := u.pend.map fun p => if late p then { p with written := n } else p }) s
  if u.pend.any fun p => late p then s1.pb (VIS_CAM_STAT_CCI_LATE k) true else s1

/-- A memory frame is queued on its port, or dropped; an in-line frame goes to the pipeline (R214, R215, R217). -/
def takeFrame (f : Frame) (s : State) : State :=
  let p := f.gen.port
  let q := bankGet [] s.vis.queue p
  if f.gen.path = 1 then
    if 8 ≤ q.length ∨ slotQueued s f.gen f.count ∨ slotUploading s f.gen f.count then
      let f1 := { f with dropped := true }
      dropFrame f1 (modStr f.stream (fun u => { u with rx := some f1 }) s)
    else
      let f1 := { f with stored := true }
      setQueue p (q ++ [(f.stream, f.count)]) (setSlot f1 false (modStr f.stream (fun u => { u with rx := some f1 }) s))
  else
    let f1 := { f with stored := f.gen.frames != 0 && !slotUploading s f.gen f.count }
    let s1 := modStr f.stream (fun u => { u with rx := some f1 }) s
    (if f1.stored then setSlot f1 false s1 else s1).pb VIS_STAT_BUSY true

/-- A Frame Start on a stream. -/
def startFrame (k : Nat) (s : State) : State :=
  let s0 := match (strU s k).rx with
    | some f => endFrame k (modStr k (fun u => { u with rx := some { f with damaged := true } }) s)
    | none => s
  let n := (strU s0 k).count + 1
  let s1 := slip k n s0
  let (g, rest) := governs (strU s1 k) n
  let q := (strU s1 k).assoc
  let a := if g.camPos = 0 then none else q.head?
  let s2 := assocSync k (modStr k (fun u =>
    { u with count := n, cur := g, pend := rest, assoc := if g.camPos = 0 then q else q.drop 1 }) s1)
  let s3 := pendSync k ((s2.p (VIS_CAM_STAT_SEQ k) (seqOf n)).p (VIS_CAM_GEN_GEN k) g.num)
  takeFrame { stream := k, count := n, gen := g, start := s3.time, assoc := a } s3

def execFrameStart (p : Fin 4) (vc : Fin 16) (s : State) : Host.Outcome State Fault Refusal :=
  .next (live (fun s => if portOn s p then (streamsOn s p vc).foldl (fun s k => startFrame k s) s else s) s)

def execFrameEnd (p : Fin 4) (vc : Fin 16) (s : State) : Host.Outcome State Fault Refusal :=
  .next (live (fun s => if portOn s p then (streamsOn s p vc).foldl (fun s k => endFrame k s) s else s) s)

/-! ## Packets (R205-R207) -/

/-- The frame in reception on a stream changed. -/
def modRx (k : Nat) (f : Frame → Frame) (s : State) : State := modStr k (fun u => { u with rx := u.rx.map f }) s

/-- Every frame in reception on a port is damaged: a header that cannot be corrected names no stream. -/
def damagePort (p : Nat) (s : State) : State :=
  overN 16 (fun k s => if (newestGen (strU s k)).port = p then modRx k (fun f => { f with damaged := true }) s else s) s

/-- A line of pixels received for a stream's frame. -/
def lineIn (crcOk : Bool) (pix : List Nat) (f : Frame) : Frame :=
  { f with lines := f.lines ++ [pix], damaged := f.damaged || !crcOk, size := f.size || pix.length != f.gen.width }

/-- Embedded data received for a frame: at most 16 KiB is kept. -/
def embIn (crcOk : Bool) (bytes : List Nat) (f : Frame) : Frame :=
  { f with emb := (f.emb ++ bytes.map (BitVec.ofNat 8)).take 16384, damaged := f.damaged || !crcOk }

/-- A packet other than a Frame Start or Frame End, by its corrected header: `pix` are pixel codes, or the bytes of
embedded data. A long packet of a type that is discarded can damage the frame too. -/
def packetBody (p vc dt : Nat) (crcOk : Bool) (pix : List Nat) (s : State) : State :=
  let s1 := if crcOk then s else s.inc (VIS_CSI_ERR_CRC p)
  let hurt := fun f : Frame => { f with damaged := f.damaged || !crcOk }
  if dt ≤ 3 then s
  else if 8 ≤ dt ∧ dt ≤ 15 then s.inc (VIS_CSI_ERR_ECC_CORR p)
  else if dt = 0x12 then (streamsOn s p vc).foldl (fun s k => modRx k (embIn crcOk pix) s) s1
  else if streamDt dt then
    (streamsOn s p vc).foldl (fun s k =>
      if (newestGen (strU s k)).dt = dt then modRx k (lineIn crcOk pix) s else s) s1
  else if dt < 16 then s.inc (VIS_CSI_ERR_SIZE p)
  else ((streamsOn s p vc).foldl (fun s k => modRx k hurt s) s1).inc (VIS_CSI_ERR_SIZE p)

/-- CSI_PACKET: `hdr` is 0 for a sound header, 1 for one corrected, 2 for one that cannot be corrected. -/
def csiPacket (p vc dt hdr : Nat) (crcOk : Bool) (pix : List Nat) (s : State) : State :=
  if !portOn s p then s
  else if hdr = 2 then damagePort p (s.inc (VIS_CSI_ERR_ECC_UNCORR p))
  else packetBody p vc dt crcOk pix (if hdr = 1 then s.inc (VIS_CSI_ERR_ECC_CORR p) else s)

def execCsiPacket (p : Fin 4) (vc : Fin 16) (dt : BitVec 6) (hdr : Fin 3) (crcOk : Bool) (pix : List (BitVec 20)) (s : State) :
    Host.Outcome State Fault Refusal :=
  .next (live (csiPacket p vc dt.toNat hdr crcOk (pix.map (·.toNat))) s)

/-! ## Uploads (R218, R74) -/

/-- The frame of a stream held under a tag, whole and not overwritten. -/
def heldFrame (s : State) (k tag : Nat) : Option (Nat × CamGen) :=
  ((strU s k).slots.find? fun e => e.2.2 && tagOf k e.1 == tag).map fun e => (e.1, e.2.1)

/-- The parameters of FRAME_UPLOAD. -/
def uploadOk (s : State) (k tag : Nat) : Bool := decide (k ≤ 15) && (tag == 0 || (heldFrame s k tag).isSome)

def frameUpload (e : Entry) (k tag dst len : Nat) (compress ns : Bool) (s : State) : State :=
  if compress && cmpFull s then done e 0x41 Sts.busy 0 s
  else
    let j : Job := { q := e.q, cid := e.cid.toNat, op := 0x41, mode := compress.toNat, flags := 2 + 8 * ns.toNat, src := 0, srcLen := 0,
                     dst := dst, dstLen := len }
    let s1 := begin_ e.q e.cid.toNat 0x41 s
    match heldFrame s k tag with
    | some f => if tag = 0 then { s1 with vis := { s1.vis with upWait := s1.vis.upWait ++ [(k, j)] } } else startUpload j f k s1
    | none => { s1 with vis := { s1.vis with upWait := s1.vis.upWait ++ [(k, j)] } }

def cmdFrameUpload (e : Entry) (stream : BitVec 8) (tag : BitVec 32) (dst : BitVec 64) (len : BitVec 32) (compress ns : Bool)
    (s : State) : State :=
  live (command (.frameUpload e stream tag dst len compress ns) e 0x41 (fun s => s.part == .mlv9040) (fun s => uploadOk s stream.toNat tag.toNat)
    (frameUpload e stream.toNat tag.toNat dst.toNat len.toNat compress ns)) s

def execFrameUpload (e : Entry) (stream : BitVec 8) (tag : BitVec 32) (dst : BitVec 64) (len : BitVec 32) (compress ns : Bool)
    (s : State) : Host.Outcome State Fault Refusal :=
  .next (cmdFrameUpload e stream tag dst len compress ns s)

/-- An upload that is not compressed ends (R218). -/
def uploadDone (q cid : Nat) (s : State) : State :=
  match s.vis.ups.find? fun j => j.q == q && j.cid == cid with
  | none => s
  | some j =>
    let s1 := { s with vis := { s.vis with ups := s.vis.ups.erase j } }
    if j.dstLen < j.srcLen then complete q cid 0x41 Sts.jobOverflow (j.tag * 2 ^ 32) s1
    else
      let (bytes, s2) := dramTake j.src j.srcLen s1
      complete q cid 0x41 Sts.ok (j.srcLen + j.tag * 2 ^ 32) (s2.hostWrites j.dst bytes (bitsOf j.flags 3 1 == 0))

def execFrameUploadDone (q : Fin 16) (cid : BitVec 16) (s : State) : Host.Outcome State Fault Refusal :=
  .next (live (uploadDone q cid.toNat) s)

end Sys2Proof.Machine
end

