-- ==== Sys2Proof/Machine/Registration.lean ====
section
/-!
DEFINITION. The vision pipeline and the registration loop (spec/09_vision_registration.md R214-R216, R225-R232).
-/

namespace Sys2Proof.Machine

open Reg

/-! ## The pipeline (R214-R216) -/

/-- An in-line frame is in reception, or in the pipeline. -/
def inlineBusy (s : State) : Bool :=
  (s.vis.held.any fun f => f.gen.path == 2)
    || (List.range 16).any fun k => match (strU s k).rx with | some f => f.gen.path == 2 | none => false

def pipeSync (s : State) : State := s.pb VIS_STAT_BUSY (s.vis.run.isSome || inlineBusy s)

/-- MEM_FRAME_PROCESS: the oldest frame of a port's queue, once it is whole, while REEF1 does not hold and no in-line
frame has the pipeline. -/
def memProcess (p : Nat) (s : State) : State :=
  match bankGet [] s.vis.queue p with
  | [] => s
  | e :: r =>
    match s.vis.held.find? fun f => f.stream == e.1 && f.count == e.2 with
    | none => s
    | some f =>
      if s.vis.run.isSome || inlineBusy s || s.on VIS_STAT_PAUSED then s
      else
        let s1 := setQueue p r { s with vis := { s.vis with run := some f, held := s.vis.held.erase f } }
        pipeSync s1

def execMemFrameProcess (p : Fin 4) (s : State) : Host.Outcome State Fault Refusal := .next (live (memProcess p) s)

/-! ## Measuring a frame (R219-R228) -/

/-- The lines of a stored frame. -/
def storedLines (s : State) (g : CamGen) (a : Nat) : List (List Nat) :=
  (List.range g.height).map fun y => (List.range g.width).map fun x =>
    leNat (memRead (memTaken s) (a + (y * g.width + x) * pixBytes g.dt) (pixBytes g.dt))

/-- The read of a stored frame's pixels by the pipeline. -/
def shotRead (f : Frame) (s : State) : State :=
  if f.gen.path = 1 then
    meet (slotAddr f.gen f.count + 64 + 16384) (f.gen.height * f.gen.width * pixBytes f.gen.dt) s
  else s

/-- The pixel codes that a frame is measured from. -/
def shotOf (s : State) (f : Frame) : Shot :=
  { g := f.gen
    lines := if f.gen.path = 1 then storedLines s f.gen (slotAddr f.gen f.count + 64 + 16384) else f.lines }

/-- The centre of a station's active scan line, in 1/64 px (R227). -/
def scanCentre (s : State) (n : Nat) : Int := 32 * (s.stnU n).active.width

/-- The marks found, as the fits use them. -/
def devsOf (g : CamGen) (found : List (Mark × Found)) : List Dev :=
  (found.filter fun e => e.2.status == 0 && decide (e.1.stn < 8) && decide (g.width ≠ 0)).map fun e =>
    ⟨e.1.stn, e.1.nomU, e.1.nomV, e.2.u - e.1.nomU, e.2.v - e.1.nomV⟩

/-- The fit of station `n` (R227): the reference's marks count where REG_REF names another station. -/
def fitStn (s : State) (g : CamGen) (devs : List Dev) (n : Nat) : Option Fit :=
  fitOf (scanCentre s n) (devs.filter fun d => d.stn == n)
    (if g.regRef = n then [] else devs.filter fun d => d.stn == g.regRef)

/-- The body of a record of an OK frame: fits, ROI results, histograms, marks. A station without a found mark has no
fit: nothing there is valid, and its values are open. -/
def recordBody (s : State) (open_ : Nat) (shot : Shot) (found : List (Mark × Found)) (fits : List (Option Fit)) : List Byte :=
  let fitBytes := fun n : Nat => match fits.getD n none with
    | some f => f.bytes (scanCentre s n) (open_ / 2 ^ (256 * n))
    | none => leBytes 12 (open_ / 2 ^ (256 * n)) ++ leBytes 4 0 ++ leBytes 16 (open_ / 2 ^ (256 * n + 96))
  ((List.range 8).map fitBytes).foldr (· ++ ·) []
    ++ (shot.g.rois.map shot.roiBytes).foldr (· ++ ·) []
    ++ ((shot.g.rois.filter (·.hist)).map shot.histBytes).foldr (· ++ ·) []
    ++ (found.map fun e => e.2.bytes).foldr (· ++ ·) []

/-! ## Qualifying frames (R230, R231) -/

/-- The associated context is neither SPOILED nor JAMMED; one released since is neither. -/
def assocGood (s : State) (a : Assoc) : Bool :=
  (s.ctxU a.ctx).seq != a.seq || (ctxState s a.ctx != Px.spoiled && ctxState s a.ctx != Px.jammed)

/-- A frame with association `a` qualifies for station `n`, its fit being valid. -/
def qualifiesFor (s : State) (a : Assoc) (n : Nat) : Bool :=
  assocGood s a && a.epochs.getD n 0 == bankGet 0 s.vis.epoch n

/-- A qualifying frame's fit accumulated for a station whose steps are automatic. -/
def accumulate (n : Nat) (f : Fit) (s : State) : State :=
  if s.vis.stopped ∨ bitsOf (s.g VIS_REG_CTRL_AUTO) n 1 = 0 then s
  else
    let l := bankGet [] s.vis.acc n ++ [(f.a, f.b, f.ev)]
    { s with vis := { s.vis with acc := bankPut [] n l s.vis.acc } }.p (VIS_REG_STAT_COUNT n) (min 15 l.length)

/-- A qualifying frame accumulated for PTRIM: two distinct NOM_V of the reference's marks, its context fed since the
last PTRIM took effect. -/
def accumulateTrim (a : Assoc) (n : Nat) (ref : List Dev) (s : State) : State :=
  let distinct := ref.any fun d => d.nomV != (ref.head?.map (·.nomV)).getD 0
  if s.vis.stopped ∨ !s.on VIS_REG_CTRL_PTRIM_EN ∨ !distinct ∨ ptrimWaiting s ∨ a.trimSeq ≠ s.psq.trimSeq then s
  else { s with vis := { s.vis with pacc := s.vis.pacc ++ [(a.trimSeq, n, ref.map fun d => (d.dv, d.nomV))] } }

/-- What an OK frame gives the registration loop. -/
def feedLoop (f : Frame) (devs : List Dev) (fits : List (Option Fit)) (s : State) : State :=
  match f.assoc with
  | none => s
  | some a =>
    let s1 := overN 8 (fun n t => match fits.getD n none with
      | some x => if qualifiesFor s a n then accumulate n x t else t
      | none => t) s
    if f.gen.regRef < 8 ∧ qualifiesFor s a f.gen.regRef then
      accumulateTrim a f.gen.regRef (devs.filter fun d => d.stn == f.gen.regRef) s1
    else s1

/-! ## Results (R225, R226) -/

/-- A frame's measurements and record. -/
def measureFrame (f : Frame) (s : State) : State :=
  let shot := shotOf s f
  let found := f.gen.marks.map fun k => (k, shot.find k)
  let devs := devsOf f.gen found
  let fits := (List.range 8).map (fitStn s f.gen devs)
  let (x, s1) := s.fresh
  let mask := (List.range 8).foldl (fun a n => if (fits.getD n none).isSome then a + 2 ^ n else a) 0
  feedLoop f devs fits
    (reportFrame f 0 (recordBody s x shot found fits)
      (f.gen.rois.length, (found.filter fun e => e.2.status == 0).length, mask) s1)

/-- The result of a frame whose processing has ended. -/
def frameDone (f : Frame) (overrun : Bool) (s : State) : State :=
  let st := frameStatus f (overrun && f.gen.path == 2)
  if st = 0 then measureFrame f s
  else
    let (body, s1) := voidBody f.gen s
    reportFrame f st body (0, 0, 0) s1

/-- FRAME_RESULT: the in-line frame's processing ends, or that of the memory frame in the pipeline, while REEF1 holds only
where the tile it began in is the frame's last (R216). -/
def frameResult (inl overrun : Bool) (s : State) : State :=
  if inl then
    match s.vis.held.find? fun f => f.gen.path == 2 with
    | some f => pipeSync (frameDone f overrun { s with vis := { s.vis with held := s.vis.held.erase f } })
    | none => s
  else
    match s.vis.run with
    | some f =>
      if s.on VIS_STAT_PAUSED && !s.vis.lastTile then s
      else pipeSync (frameDone f false (shotRead f { s with vis := { s.vis with run := none } }))
    | none => s

def execFrameResult (inl overrun : Bool) (s : State) : Host.Outcome State Fault Refusal :=
  .next (live (frameResult inl overrun) s)

/-! ## Steps (R229, R231) -/

/-- Frames per step: NAVG, 0 acting as 1. -/
def navg (s : State) : Nat := max 1 (s.g VIS_REG_CTRL_NAVG)

/-- A component within its dead band is 0. -/
def dead (band : Nat) (x : Int) : Int := if x.natAbs ≤ band then 0 else x

/-- The step of station `n` from its accumulated frames (R228, R229): LINE, P64, MAG. -/
def stepOf (s : State) (n : Nat) : Int × Int × Int :=
  let l := (bankGet [] s.vis.acc n).take (navg s)
  let (mag, p64, line) := corrections (s.g VIS_REG_GAIN_GAIN) (scanCentre s n) (sumI (l.map (·.1))) (sumI (l.map (·.2.1)))
    (sumI (l.map (·.2.2))) (navg s)
  (if 64 * line.natAbs ≤ s.g VIS_REG_DEAD_LINE then 0 else line, dead (s.g VIS_REG_DEAD_PIX) p64,
    dead (100 * s.g VIS_REG_DEAD_MAG) mag)

/-- A step applied: each value held within its range of R73. A REGISTER_ADJUST of the same cycle discards it (R230). -/
def regStep (n : Nat) (s : State) : State :=
  if s.vis.stopped ∨ bitsOf (s.g VIS_REG_CTRL_AUTO) n 1 = 0 ∨ (bankGet [] s.vis.acc n).length < navg s then s
  else
    let (dl, dp, dm) := stepOf s n
    let (l, p, m) := adjusted (s.stnU n) 1 dl dp dm
    let (l', p', m') := (clampI (-256) 255 l, clampI (-262144) 262143 p, clampI (-2000000) 2000000 m)
    let u := s.stnU n
    let s0 := { s with vis := { s.vis with stepped := bankPut none n (some (s.clock, u.lineAdj, u.p64Adj, u.magAdj)) s.vis.stepped } }
    let s1 := setAdjust n l' p' m' s0
    if l' = l ∧ p' = p ∧ m' = m then s1
    else corrected 0x22 0 (Config.errCode 8).toNat 0xFFFF (s1.pb (VIS_REG_STAT_LIMIT n) true)

def execRegAutoStep (n : Fin 8) (s : State) : Host.Outcome State Fault Refusal := .next (live (regStep n) s)

/-- The frames that count toward a PTRIM step: those of the PTRIM in force. -/
def trimFrames (s : State) : List (List (Int × Int)) := (s.vis.pacc.filter fun e => e.1 == s.psq.trimSeq).map (·.2.2)

/-- A PTRIM step. -/
def ptrimStep (s : State) : State :=
  let fs := trimFrames s
  if s.vis.stopped ∨ !s.on VIS_REG_CTRL_PTRIM_EN ∨ ptrimWaiting s ∨ fs.length < navg s then s
  else
    let (num, den) := slopeOf ((fs.take (navg s)).foldr (· ++ ·) [])
    let d := openDiv 9 (-(s.g VIS_REG_GAIN_GAIN * num)) (262144 * den).toNat
    let t := clampI (-2000000) 2000000 (s.gi PSQ_PTRIM_TRIM + d)
    ptrimWrite (BitVec.ofInt 32 t) { s with vis := { s.vis with pacc := [] } }

def execRegPtrimStep (s : State) : Host.Outcome State Fault Refusal := .next (live ptrimStep s)

/-! ## Registers of the loop -/

/-- VIS_REG_CTRL: a stopped loop takes no write (R232). -/
def regCtrlWrite (v : Word) (s : State) : State := if s.vis.stopped then s else s.plainWrite VIS_REG_CTRL v

/-- VIS_REG_GAIN: a gain above 0x4_0000 is ignored. -/
def regGainWrite (v : Word) (s : State) : State :=
  if 0x40000 < fieldOf VIS_REG_GAIN_GAIN v then s else s.plainWrite VIS_REG_GAIN v

end Sys2Proof.Machine
end

