-- ==== Sys2Proof/Machine/Reads.lean ====
section
/-!
DEFINITION. What a read of a BAR0 register returns: its fields by access type, a latched word, or what its unit shows
there (spec/00_scope.md R8, R11; spec/02 R41, R50; spec/03 R79, R80; spec/06 R138; spec/17 R361, R374, R375; spec/20 R417).
-/

namespace Sys2Proof.Machine

open Reg


/-- Words that a read of another register latched: high words, the time words, mailboxes, record words, egress
timestamps. -/
def isLatch (off : Nat) : Bool :=
  (decide (4 ≤ off) && highOf (off - 4) == some off)
  || off == TIME_NOW_FRAC || off == TIME_NOW_S_LO || off == TIME_NOW_S_HI
  || (decide (0x320000 ≤ off ∧ off < 0x321000) && decide (8 ≤ off % 0x40))
  || (decide (0x109000 ≤ off ∧ off < 0x10B000) && off % 0x20 != 0)
  || (List.range 2).any fun p => off == ETH_TXTS_NS p || off == ETH_TXTS_S_LO p || off == ETH_TXTS_S_HI p

/-- Words that an access takes from a unit. -/
inductive Window where
  | latch
  | timeNow
  | screen
  | receive (p : Nat)
  | egress (p : Nat)
  | fabric
  | aperture
  | plain
  deriving DecidableEq, Repr

def windowOf (off : Nat) : Window :=
  if isLatch off then .latch
  else if off = TIME_NOW_NS then .timeNow
  else if 0x1000000 ≤ off ∧ off < 0x1800000 ∧ 0xC0000 ≤ stnOff off then .screen
  else if 0x303000 ≤ off ∧ off < 0x304000 then .receive 0
  else if 0x305000 ≤ off ∧ off < 0x306000 then .receive 1
  else if off = ETH_TXTS_HDR 0 then .egress 0
  else if off = ETH_TXTS_HDR 1 then .egress 1
  else if 0x1801200 ≤ off ∧ off < 0x1801400 then .fabric
  else if 0x118000 ≤ off ∧ off < 0x120000 then .aperture
  else .plain

/-- The first word of the oldest egress entry: VALID, MSG_TYPE, SEQ_ID. -/
def egressHdr (s : State) (p : Nat) : Nat :=
  match (ethU s p).ts with
  | t :: _ => 2 ^ 31 + t.ty * 2 ^ 16 + t.seq
  | [] => 0

/-- A host load is open, its bytes being written (R41). -/
def hostLoading (s : State) : Bool := s.rig.load == 3 && s.g CHIP_RIGSTAT_STATE == 1

/-- The place in the staging SRAM of an aperture offset. -/
def stageAt (s : State) (off : Nat) : Nat := s.g RIG_LOADBASE_WINDOW * 32768 + (off - 0x118000)

def stageWord (s : State) (a : Nat) : Nat :=
  leNat ((List.range 4).map fun i => bankGet 0 s.rig.stage (a + i))

/-- What a read of the register at `off` returns; a word that the fabric presents is an open value. -/
def readWord (off : Nat) (s : State) : Word × State :=
  match windowOf off with
  | .latch => (s.latched off, s)
  | .timeNow => (BitVec.ofNat 32 s.time.ns, s)
  | .screen => (BitVec.ofNat 32 (screenWord s off), s)
  | .receive p => (BitVec.ofNat 32 (bytesAt ((ethU s p).rx.headD []) (off % 0x1000) 4), s)
  | .egress p => (BitVec.ofNat 32 (egressHdr s p), s)
  | .fabric =>
    if s.fabricRuns then
      let (x, s1) := s.fresh
      (BitVec.ofNat 32 x, s1)
    else (0, s)
  | .aperture => (if hostLoading s then BitVec.ofNat 32 (stageWord s (stageAt s off)) else 0, s)
  | .plain =>
    match RegTable.find off with
    | some (d, _) => (BitVec.ofNat 32 (wordRead d.bits (s.reg off).toNat), s)
    | none => (0, s)

end Sys2Proof.Machine
end

