-- ==== Sys2Proof/Machine/Dma.lean ====
section
/-!
DEFINITION. The DMA engine (spec/19_dma.md R396-R410): descriptors and their checks, table windows, triggers, moves,
completion, errors, abort.
-/

namespace Sys2Proof.Machine

open Reg

def dmaU (s : State) (n : Nat) : Dma := bankGet {} s.dma.chan n
def modDma (n : Nat) (f : Dma → Dma) (s : State) : State :=
  { s with dma := { s.dma with chan := bankPut {} n (f (dmaU s n)) s.dma.chan } }

namespace Dst
/-- DMAn_STAT.STATE. -/
def idle : Nat := 0
def waiting : Nat := 1
def running : Nat := 2
def error : Nat := 3
end Dst

/-! ## Descriptors (R396-R398) -/

def descOf (b : List Byte) : Desc :=
  { src := bytesAt b 0 8, dst := bytesAt b 8 8, len := bytesAt b 16 4, ctrl := bytesAt b 20 4, next := bytesAt b 24 8 }

def Desc.ssp (d : Desc) : Nat := bitsOf d.ctrl 0 2
def Desc.dsp (d : Desc) : Nat := bitsOf d.ctrl 2 2
def Desc.flag (d : Desc) (k : Nat) : Bool := bitsOf d.ctrl k 1 == 1

/-- The table windows (R397): base, length, readable, writable. -/
def windows : List (Nat × Nat × Bool × Bool) :=
  ((List.range 8).map fun n => (STN_BOW n 0, 0x4000, true, true))
    ++ ((List.range 8).map fun n => (STN_CELL n 0 0, 0xA0000, true, true))
    ++ ((List.range 8).map fun n => (STN_SCR n 0 0, 0x40000, true, true))
    ++ [(CE_COEF 0, 0x4000, true, true), (CE_NODE 0, 0x1000, true, true)]
    ++ ((List.range 4).map fun u => (TU_BUF u 0, 0x10000, true, false))
    ++ [(SPAR_HOST 0, 0x200, false, true), (SPAR_FAB 0, 0x200, true, false)]

/-- A range of table words that lies in one window whose words are registers, open to the access, of units present. -/
def tableRange (p : Part) (a len : Nat) (write : Bool) : Bool :=
  a % 4 == 0 && len % 4 == 0 && windows.any fun w =>
    decide (w.1 ≤ a ∧ a + len ≤ w.1 + w.2.1) && (if write then w.2.2.2 else w.2.2.1) && !absentSpace p a
      && (len == 0 || ((RegTable.find a).isSome && (RegTable.find (a + len - 4)).isSome))

/-- PARAM (R398). -/
def descParam (p : Part) (d : Desc) : Bool :=
  d.ctrl ≥ 2 ^ 11 || d.dsp == 3 || (d.flag 4 && d.ssp != 0) || (d.flag 5 && d.dsp != 0)
    || (d.ssp == 3 && d.src ≥ 2 ^ 32) || (!d.flag 10 && d.next / 2 % 16 != 0)
    || (d.ssp == 2 && !tableRange p d.src d.len false) || (d.dsp == 2 && !tableRange p d.dst d.len true)

/-- BEYOND (R398). -/
def descBeyond (s : State) (d : Desc) : Bool :=
  (d.ssp == 1 && d.len != 0 && decide (s.installed < d.src + d.len))
    || (d.dsp == 1 && d.len != 0 && decide (s.installed < d.dst + d.len))

/-! ## Stops (R406-R408) -/

/-- A channel stopped by an error. -/
def dmaFail (n err : Nat) (s : State) : State :=
  let s1 := ((s.p (DMA_STAT_ERR n) err).pb (DMA_CTRL_ENABLE n) false).p (DMA_STAT_STATE n) Dst.error
  let s2 := modDma n (fun u => { u with step := .idle, hazard := [], last := [] }) s1
  contained 0x31 n err 0xFFFF (s2.msix (s2.g (DMA_CTRL_VECTOR n)))

/-! ## Triggers (R400, R401) -/

/-- A channel begins to wait for its fence, or to move. -/
def spansOf (d : Desc) : List Span :=
  (if d.ssp = 1 ∨ d.ssp = 2 then [⟨d.ssp, d.src, d.len, false⟩] else [])
    ++ (if d.dsp = 1 ∨ d.dsp = 2 then [⟨d.dsp, d.dst, d.len, true⟩] else [])

/-- The source that a descriptor between two places of device DRAM keeps as it stands now (R404). -/
def snapOf (s : State) (d : Desc) : List Byte := if d.ssp = 1 ∧ d.dsp = 1 then memRead s.mem d.src d.len else []

/-- A transfer begins: transfers in flight note each other's spans; without FENCE the channel's own last descriptor may
still be in flight (R399, R404). -/
def dmaRun (n : Nat) (s : State) : State :=
  let mine := spansOf (dmaU s n).desc
  let snap := snapOf s (dmaU s n).desc
  let others := (List.range 64).filter fun m => m != n && (dmaU s m).step == .move
  let theirs := (others.map fun m => spansOf (dmaU s m).desc).foldr (· ++ ·) []
  let own := if (dmaU s n).desc.flag 7 then [] else (dmaU s n).last
  let s1 := others.foldl (fun s m => modDma m (fun u => { u with hazard := u.hazard ++ mine }) s) s
  (modDma n (fun u => { u with step := .move, hazard := own ++ theirs, snap := snap }) s1).p (DMA_STAT_STATE n) Dst.running

/-- Past the trigger: the fence is waited for, or the move begins. -/
def dmaPastTrigger (n : Nat) (s : State) : State :=
  if (dmaU s n).desc.flag 7 then modDma n (fun u => { u with step := .fence }) s else dmaRun n s

/-- A waiting descriptor takes a pending trigger. -/
def dmaTake (n : Nat) (s : State) : State :=
  if (dmaU s n).step = .trigger ∧ s.on (DMA_STAT_PEND n) then
    dmaPastTrigger n (s.p (DMA_STAT_PEND n) (s.g (DMA_STAT_PEND n) - 1))
  else s

/-- A trigger pulse for a channel. -/
def dmaPulse (n : Nat) (s : State) : State :=
  if !s.on (DMA_CTRL_ENABLE n) then s
  else if s.g (DMA_STAT_PEND n) = 15 then s.pb (DMA_STAT_TRIG_LOST n) true
  else dmaTake n (s.p (DMA_STAT_PEND n) (s.g (DMA_STAT_PEND n) + 1))

/-- A pulse of a trigger source, to every channel that selects it. -/
def dmaSource (src idx : Nat) (s : State) : State :=
  overN 64 (fun n s => if s.g (DMA_CTRL_TRIG_SRC n) = src ∧ s.g (DMA_CTRL_TRIG_IDX n) = idx then dmaPulse n s else s) s

/-- A pulse of a channel's halyard trigger input. -/
def dmaInput (n : Nat) (s : State) : State := if s.g (DMA_CTRL_TRIG_SRC n) = 4 then dmaPulse n s else s

/-- DMA_TRIGGER: a pulse of that input from the fabric, or from the START ball where PINMAP places it (R34, R450). -/
def execDmaTrigger (n : Fin 64) (s : State) : Host.Outcome State Fault Refusal :=
  .next (live (fun s => if s.fabricFeeds (0x3100 + n) 0 ∨ s.mapped 0x31 n 0 then dmaInput n s else s) s)

/-- A timer's period in ns. -/
def timerNs (s : State) (k : Nat) : Nat := 10 * max 100 (s.g (DMT_PERIOD_PERIOD k))

/-- DMA_TIMER_PULSE, once a period has passed since the timer was enabled or last pulsed. -/
def dmaTimer (k : Nat) (s : State) : State :=
  let at_ := bankGet 0 s.dma.timer k
  if s.on (DMT_CTRL_ENABLE k) ∧ at_ + timerNs s k ≤ s.clock then
    dmaSource 1 k { s with dma := { s.dma with timer := bankPut 0 k (at_ + timerNs s k) s.dma.timer } }
  else s

def execDmaTimerPulse (k : Fin 8) (s : State) : Host.Outcome State Fault Refusal := .next (live (dmaTimer k) s)

/-- A write of DMTk_CTRL: the first pulse comes one period after ENABLE. -/
def dmtCtrlWrite (k : Nat) (v : Word) (s : State) : State :=
  let s1 := s.plainWrite (DMT_CTRL k) v
  if s1.on (DMT_CTRL_ENABLE k) ∧ !s.on (DMT_CTRL_ENABLE k) then
    { s1 with dma := { s1.dma with timer := bankPut 0 k s.clock s1.dma.timer } }
  else s1

/-- A write of DMTk_PERIOD: ignored while the timer is enabled. -/
def dmtPeriodWrite (k : Nat) (v : Word) (s : State) : State :=
  if s.on (DMT_CTRL_ENABLE k) then s else s.plainWrite (DMT_PERIOD k) v

/-! ## Table windows (R397) -/

/-- A word written to a table window, as the host would write it. -/
def windowWrite (off : Nat) (v : Word) (s : State) : State :=
  if 0x1000000 ≤ off ∧ off < 0x1800000 then tableWrite off v s
  else if CE_COEF 0 ≤ off ∧ off < CE_COEF 0 + 0x4000 then coefWrite ((off - CE_COEF 0) / 4) v s
  else if CE_NODE 0 ≤ off ∧ off < CE_NODE 0 + 0x1000 then nodeWrite ((off - CE_NODE 0) / 4) v s
  else if SPAR_HOST 0 ≤ off ∧ off < SPAR_HOST 0 + 0x200 then (s.setReg off v).emit (.spar ((off - SPAR_HOST 0) / 4) v)
  else s

/-- Words read from a table window from `off` up. -/
def tableGet (off : Nat) : Nat → State → List Byte × State
  | 0, s => ([], s)
  | k + 1, s =>
    let (v, s1) := readWord off s
    let (r, s2) := tableGet (off + 4) k s1
    (leBytes 4 v.toNat ++ r, s2)

/-- Words written to a table window from `off` up. -/
def tablePut (off : Nat) (bytes : List Byte) : Nat → State → State
  | 0, s => s
  | k + 1, s => tablePut (off + 4) (bytes.drop 4) k (windowWrite off (BitVec.ofNat 32 (bytesAt bytes 0 4)) s)

/-! ## Moves (R402, R404, R406) -/

/-- The copy runs from the highest address downward. -/
def downward (d : Desc) : Bool :=
  d.ssp == 1 && d.dsp == 1 && decide (d.src < d.dst ∧ d.dst < d.src + d.len)

/-- Whether a hazard touches a byte of a space (R404). -/
def touches (hs : List Span) (space : Nat) (write : Bool) (a : Nat) : Bool :=
  hs.any fun h => h.space == space && (h.write || write) && decide (h.at_ ≤ a ∧ a < h.at_ + h.len)

/-- The bytes a descriptor takes from its source, `host` being what host memory holds there. -/
def sourceBytes (n : Nat) (host : List Byte) (s : State) : List Byte × State :=
  let d := (dmaU s n).desc
  if d.ssp = 0 then ((host ++ List.replicate (d.len - host.length) 0).take d.len, s)
  else if d.ssp = 1 then (if d.dsp = 1 then (dmaU s n).snap else memRead s.mem d.src d.len, s)
  else if d.ssp = 2 then tableGet d.src (d.len / 4) s
  else ((List.range d.len).map fun i => BitVec.ofNat 8 (d.src / 2 ^ (8 * (i % 4))), s)

/-- The descriptor's own ranges overlap at byte `i` in a table window (R404). -/
def selfTouch (d : Desc) (i : Nat) : Bool :=
  d.ssp == 2 && d.dsp == 2 && (decide (d.dst ≤ d.src + i ∧ d.src + i < d.dst + d.len) || decide (d.src ≤ d.dst + i ∧ d.dst + i < d.src + d.len))

/-- Bytes with those that the hazards touch replaced by open ones: a source byte that another transfer writes, a
destination byte that another touches, a byte of both ranges of a copy within table windows. -/
def openBytes (d : Desc) (hs : List Span) (x : Nat) (bytes : List Byte) : List Byte :=
  (bytes.zip (List.range bytes.length)).map fun e =>
    if touches hs d.ssp false (d.src + e.2) ∨ touches hs d.dsp true (d.dst + e.2) ∨ selfTouch d e.2 then
      BitVec.ofNat 8 (x / 2 ^ (8 * e.2))
    else e.1

/-- The part of a transfer that is written when it ends after `k` bytes, as its first place and its bytes. -/
def partOf (d : Desc) (k : Nat) (bytes : List Byte) : Nat × List Byte :=
  if downward d then (d.len - k, bytes.drop (d.len - k)) else (0, bytes.take k)

/-- `k` bytes of a descriptor written at its destination. -/
def destPut (d : Desc) (k : Nat) (bytes : List Byte) (s : State) : State :=
  let (at_, b) := partOf d k bytes
  if k = 0 then s
  else if d.dsp = 0 then s.hostWrites (d.dst + at_) b (!d.flag 5)
  else if d.dsp = 1 then dramPut (d.dst + at_) b s
  else tablePut (d.dst + at_) b (b.length / 4) s

/-- The bytes that come before the first uncorrectable burst of the source, in the order of the copy. -/
def cleanLen (s : State) (d : Desc) : Option Nat :=
  if d.ssp ≠ 1 then none
  else
    let bad := (List.range d.len).filter fun i => isUe s (d.src + i)
    if downward d then bad.getLast?.map fun i => d.len - 1 - i else bad.head?

/-- The read of `r` bytes of a descriptor's source in host memory, snooped unless SNS marks it (R405), or of the `k`
bytes moved in device DRAM. -/
def dmaRead (d : Desc) (r k : Nat) (s : State) : State :=
  if d.ssp = 0 then s.hostReads d.src r (!d.flag 4)
  else if d.ssp = 1 then meet (d.src + (if downward d then d.len - k else 0)) k s
  else s

/-- `k` bytes moved, `r` having been asked of a source in host memory: the destination, DMAn_BYTES. -/
def dmaMove (n k r : Nat) (host : List Byte) (s : State) : State :=
  let u := dmaU s n
  let (b, s1) := sourceBytes n host s
  let (x, s2) := (dmaRead u.desc r k s1).fresh
  let clean := u.hazard.isEmpty && !(u.desc.ssp == 2 && u.desc.dsp == 2)
  (destPut u.desc k (if clean then b else openBytes u.desc u.hazard x b) s2).p (DMA_BYTES_BYTES n) k

/-! ## Fetch and completion (R399, R402) -/

/-- DMAn_CUR at a descriptor address, in the NEXT encoding. -/
def setCur (n a : Nat) (s : State) : State :=
  (s.p (DMA_CUR_LO_ADDR n) (a % 2 ^ 32)).p (DMA_CUR_HI_ADDR n) (a / 2 ^ 32)

def curOf (s : State) (n : Nat) : Nat := s.g (DMA_CUR_LO_ADDR n) + s.g (DMA_CUR_HI_ADDR n) * 2 ^ 32

/-- A descriptor as fetched is checked; then it waits, or starts. -/
def dmaChecked (n : Nat) (d : Desc) (s : State) : State :=
  let s1 := (modDma n (fun u => { u with desc := d }) s).p (DMA_BYTES_BYTES n) 0
  if descParam s.part d then dmaFail n 1 s1
  else if descBeyond s d then dmaFail n 2 s1
  else if d.flag 6 && s.on (DMA_CTRL_TRIG_SRC n) then
    dmaTake n ((modDma n (fun u => { u with step := .trigger }) s1).p (DMA_STAT_STATE n) Dst.waiting)
  else dmaPastTrigger n s1

/-- A descriptor cannot be fetched: it has moved no byte (R398, R406). -/
def fetchFail (n err : Nat) (s : State) : State := dmaFail n err (s.p (DMA_BYTES_BYTES n) 0)

/-- A host read that failed is reported through AER; which failure it was is open (R55, R406). -/
def hostReadAer (s : State) : State :=
  let (x, s1) := s.fresh
  s1.emit (.aerHostRead (x % 3))

/-- DMA_DESC_FETCH: `host` is what host memory holds at the descriptor's address, none where the read fails. A fetch from
host memory is always snooped (R405). -/
def dmaFetch (n : Nat) (host : Option (List Byte)) (s : State) : State :=
  if (dmaU s n).step ≠ .fetch then s
  else
    let a := curOf s n
    let at_ := a / 32 * 32
    if a % 2 = 0 then
      let s1 := s.emit (.hostRead at_ 32 true)
      match host with
      | none => fetchFail n 4 (hostReadAer s1)
      | some b => dmaChecked n (descOf b) s1
    else if s.installed < at_ + 32 then fetchFail n 2 s
    else
      let (b, s1) := dramGet at_ 32 s
      if b.any (·.isNone) then fetchFail n 3 s1 else dmaChecked n (descOf (b.map fun x => x.getD 0)) s1

def execDmaDescFetch (n : Fin 64) (host : Option (List Byte)) (s : State) : Host.Outcome State Fault Refusal :=
  .next (live (dmaFetch n host) s)

/-- DMA_FENCE_CLEAR: the writes of the channel's earlier descriptors have taken effect. -/
def execDmaFenceClear (n : Fin 64) (s : State) : Host.Outcome State Fault Refusal :=
  .next (live (fun s => if (dmaU s n).step = .fence then dmaRun n s else s) s)

/-- COUNT at a completed descriptor with CNT set. -/
def dmaCount (n : Nat) (s : State) : State :=
  let c := s.g (DMA_COUNT_COUNT n)
  if c = 0 then s
  else if c = 1 then (s.msix (s.g (DMA_CTRL_VECTOR n))).p (DMA_COUNT_COUNT n) (s.g (DMA_COUNT_RELOAD n))
  else s.p (DMA_COUNT_COUNT n) (c - 1)

/-- A descriptor completes: counted, its event, its count; then the chain ends or goes on. -/
def dmaCompleted (n : Nat) (d : Desc) (s : State) : State :=
  let s1 := modDma n (fun u => { u with step := .fetch, last := spansOf d, hazard := [] }) (s.inc (DMA_DESCS_COUNT n))
  let s2 := if d.flag 9 then dmaSource 3 n (s1.event (.dmaDone n)) else s1
  let s3 := if d.flag 8 then dmaCount n s2 else s2
  if d.flag 10 then
    (modDma n (fun u => { u with step := .idle, last := [] }) (s3.pb (DMA_CTRL_ENABLE n) false)).p (DMA_STAT_STATE n) Dst.idle
  else (setCur n d.next s3).p (DMA_STAT_STATE n) Dst.waiting

/-- DMA_DESC_COMPLETE: `host` is what host memory holds at the source. -/
def dmaComplete (n : Nat) (host : List Byte) (s : State) : State :=
  let d := (dmaU s n).desc
  if (dmaU s n).step ≠ .move then s
  else match cleanLen s d with
    | some k =>
      let a := if downward d then d.src + d.len - 1 - k else d.src + k
      dmaFail n 3 (ueErr false a (dmaMove n k 0 host (wakeRead a 1 s)))
    | none => dmaCompleted n d (dmaMove n d.len d.len host s)

def execDmaDescComplete (n : Fin 64) (host : List Byte) (s : State) : Host.Outcome State Fault Refusal :=
  .next (live (dmaComplete n host) s)

/-- DMA_HOST_READ_ERROR: a host read of the channel fails after `got` has been written; a descriptor fetch likewise. -/
def dmaHostError (n : Nat) (got : List Byte) (s : State) : State :=
  let u := dmaU s n
  let k := min u.desc.len got.length
  -- whole words alone are written to a table window
  if u.step = .move ∧ u.desc.ssp = 0 then
    dmaFail n 4 (hostReadAer (dmaMove n (if u.desc.dsp = 2 then k / 4 * 4 else k) u.desc.len got s))
  else if u.step = .fetch ∧ curOf s n % 2 = 0 then
    fetchFail n 4 (hostReadAer (s.emit (.hostRead (curOf s n / 32 * 32) 32 true)))
  else s

def execDmaHostReadError (n : Fin 64) (got : List Byte) (s : State) : Host.Outcome State Fault Refusal :=
  .next (live (dmaHostError n got) s)

/-! ## Abort and control writes (R407-R409) -/

/-- How many bytes a transfer stopped by ABORT has moved, `x` being how far it had come: it goes on to its next 64-byte
boundary, which is taken at its destination (DESIGN CHOICE, assumption log 92), and never into an uncorrectable burst. -/
def abortAt (s : State) (d : Desc) (x : Nat) : Nat :=
  let p := x % (d.len + 1)
  let k := if downward d then min d.len (d.dst + d.len - (d.dst + d.len - p) / 64 * 64)
    else min d.len ((d.dst + p + 63) / 64 * 64 - d.dst)
  match cleanLen s d with | some c => min k c | none => k

/-- A channel stopped by ABORT: how far a transfer had come, and what it had read of host memory, are open. -/
def dmaAbort (n err : Nat) (s : State) : State :=
  let u := dmaU s n
  if u.step = .idle then s
  else
    let s1 := if u.step = .move then
        let (x, t) := s.fresh
        let (y, t) := t.fresh
        let k := abortAt s u.desc x
        dmaMove n k k (leBytes u.desc.len y) t
      else s
    let s2 := modDma n (fun u => { u with step := .idle, hazard := [], last := [] }) s1
    (((s2.pb (DMA_STAT_ABORTED n) true).pb (DMA_CTRL_ENABLE n) false).p (DMA_STAT_STATE n) Dst.idle).p (DMA_STAT_ERR n) err

/-- A write that sets ENABLE is refused (R409). -/
def dmaRefused (s : State) (n : Nat) (v : Word) : Bool :=
  let src := fieldOf (DMA_CTRL_TRIG_SRC n) v
  decide (5 ≤ src) || (src == 3 && fieldOf (DMA_CTRL_TRIG_IDX n) v == n) || (s.reg (DMA_DESC_LO n)).toNat / 2 % 16 != 0

/-- A write of DMAn_CTRL. -/
def dmaCtrlWrite (n : Nat) (v : Word) (s : State) : State :=
  let en := fieldOf (DMA_CTRL_ENABLE n) v == 1
  let same := [DMA_CTRL_VECTOR n, DMA_CTRL_TRIG_IDX n, DMA_CTRL_TRIG_SRC n].all fun f => fieldOf f v == s.g f
  if s.on (DMA_CTRL_ENABLE n) then
    let s1 := if same then s else s.pb (DMA_STAT_CFG_ERR n) true
    if !en || fieldOf (DMA_CTRL_ABORT n) v == 1 then dmaAbort n (s1.g (DMA_STAT_ERR n)) s1 else s1
  else if !en then s.plainWrite (DMA_CTRL n) v
  else if dmaRefused s n v then s.pb (DMA_STAT_CFG_ERR n) true
  else
    let s1 := ((s.plainWrite (DMA_CTRL n) v).p (DMA_STAT_ERR n) 0).p (DMA_STAT_PEND n) 0
    let s2 := setCur n ((s1.reg (DMA_DESC_LO n)).toNat + s1.g (DMA_DESC_HI_ADDR n) * 2 ^ 32) s1
    (modDma n (fun u => { u with step := .fetch, last := [], hazard := [] }) s2).p (DMA_STAT_STATE n) Dst.waiting

def execDmaEnable (n : Fin 64) (v : Word) (s : State) : Host.Outcome State Fault Refusal :=
  .next (hostAt (DMA_CTRL n) (dmaCtrlWrite n v) s)

def execDmaAbort (n : Fin 64) (v : Word) (s : State) : Host.Outcome State Fault Refusal :=
  .next (hostAt (DMA_CTRL n) (dmaCtrlWrite n v) s)

/-- A write of DMAn_DESC_LO or DMAn_DESC_HI. Bits [4:1] of the address are kept, for the check at ENABLE. -/
def dmaDescWrite (n off : Nat) (v : Word) (s : State) : State :=
  if s.on (DMA_CTRL_ENABLE n) then s.pb (DMA_STAT_CFG_ERR n) true else s.setReg off v

def execDmaCountWrite (n : Fin 64) (v : Word) (s : State) : Host.Outcome State Fault Refusal :=
  .next (hostAt (DMA_COUNT n) (fun s => s.plainWrite (DMA_COUNT n) v) s)

/-- A reset of the PCIe link stops every channel, without a vector (R408). -/
def dmaLinkReset (s : State) : State := overN 64 (fun n s => dmaAbort n 5 s) s

end Sys2Proof.Machine
end

