-- ==== Sys2Proof/Machine/NetTime.lean ====
section
/-!
DEFINITION. The time counter and the timed pulse outputs (spec/17_network_time.md R360-R370).
-/

namespace Sys2Proof.Machine

open Reg

/-! ## The counter (R360-R364) -/

/-- A time moved on by an increment of whole nanoseconds and 2^-32 ns. -/
def Time.add (t : Time) (ns frac : Nat) : Time :=
  let f := t.frac + frac
  let n := t.ns + ns + f / 2 ^ 32
  { sec := (t.sec + n / 1000000000) % 2 ^ 48, ns := n % 1000000000, frac := f % 2 ^ 32 }

/-- One tick of the 250 MHz clock. -/
def tick (s : State) : State :=
  if s.dead then { s with clock := s.clock + 4 }
  else { s with clock := s.clock + 4, time := s.time.add s.net.inc.1 s.net.inc.2 }

/-- A write of TIME_INC_NS commits both fields, or is ignored. -/
def timeIncWrite (v : Word) (s : State) : State :=
  let ns := v.toNat % 16
  let frac := s.g TIME_INC_FRAC_VALUE
  let inc := ns * 2 ^ 32 + frac
  if 3996 * 2 ^ 32 ≤ 1000 * inc ∧ 1000 * inc ≤ 4004 * 2 ^ 32 then
    { s.p TIME_INC_NS_VALUE ns with net := { s.net with inc := (ns, frac) } }
  else s.pb TIME_STAT_CFG_ERR true

def execTimeIncCommit (v : Word) (s : State) : Host.Outcome State Fault Refusal :=
  .next (hostAt TIME_INC_NS (timeIncWrite v) s)

/-! ## Timed pulses (R368, R369) -/

def tpoU (s : State) (k : Nat) : Tpo := bankGet {} s.net.tpo k
def modTpo (k : Nat) (f : Tpo → Tpo) (s : State) : State :=
  { s with net := { s.net with tpo := bankPut {} k (f (tpoU s k)) s.net.tpo } }

/-- The output at a level, on its ball. -/
def tpoSet (k : Nat) (level : Bool) (s : State) : State :=
  (s.pb (TPO_STAT_HIGH k) level).drive 0x59 k 0 (.tpoPin k (level != s.on (TPO_CTRL_POL k)))

/-- The time of the j-th rising edge, in ns since 0. -/
def tpoEdgeAt (s : State) (k j : Nat) : Nat :=
  (s.g (TPO_START_S_LO_VALUE k) + s.g (TPO_START_S_HI_VALUE k) % 65536 * 2 ^ 32) * 1000000000
    + s.g (TPO_START_NS_VALUE k) + j * s.g (TPO_PERIOD_VALUE k)

/-- The first edge at or after a time, from edge `j` on. -/
def tpoFirst (s : State) (k j t : Nat) : Nat :=
  let e := tpoEdgeAt s k j
  if t ≤ e then j else j + ceilDiv (t - e) (s.g (TPO_PERIOD_VALUE k))

/-- The run ends once its last edge is past and no pulse is in progress. -/
def tpoEnd (k : Nat) (s : State) : State :=
  let n := s.g (TPO_CTRL_COUNT k)
  if n ≠ 0 ∧ n ≤ (tpoU s k).next ∧ (tpoU s k).fall = none then
    (s.pb (TPO_CTRL_ENABLE k) false).pb (TPO_STAT_DONE k) true
  else s

/-- Edges whose times have passed, at ENABLE or a forward step: one alone fires late, others are skipped. -/
def tpoCatch (k : Nat) (s : State) : State :=
  let n := s.g (TPO_CTRL_COUNT k)
  let u := tpoU s k
  let t := s.time.toNs
  if n = 1 then
    if u.next = 0 ∧ tpoEdgeAt s k 0 < t then modTpo k (fun u => { u with late := true }) s else s
  else
    let j := tpoFirst s k u.next t
    let j := if n ≠ 0 then min n j else j
    if j = u.next then s
    else
      let s1 := (s.p (TPO_STAT_MISSED k) (min 65535 (s.g (TPO_STAT_MISSED k) + (j - u.next)))).pb (TPO_STAT_LATE k) true
      tpoEnd k (modTpo k (fun u => { u with next := j }) s1)

/-- Setting ENABLE takes the registers as written; PERIOD and WIDTH outside their ranges refuse it. -/
def tpoStart (k : Nat) (s : State) : State :=
  let p := s.g (TPO_PERIOD_VALUE k)
  let w := s.g (TPO_WIDTH_VALUE k)
  if 8 ≤ p ∧ 4 ≤ w ∧ w + 4 ≤ p then tpoCatch k (modTpo k (fun _ => {}) (s.pb (TPO_CTRL_ENABLE k) true))
  else s.pb (TPO_STAT_CFG_ERR k) true

/-- Clearing ENABLE takes the output low at once. -/
def tpoStop (k : Nat) (s : State) : State :=
  tpoSet k false (modTpo k (fun _ => {}) (s.pb (TPO_CTRL_ENABLE k) false))

/-- A write of TPOk_CTRL (R369, R370). -/
def tpoCtrlWrite (k : Nat) (v : Word) (s : State) : State :=
  let en := fieldOf (TPO_CTRL_ENABLE k) v == 1
  let same := [TPO_CTRL_COUNT k, TPO_CTRL_POL k].all fun f => fieldOf f v == s.g f
  if s.on (TPO_STAT_SPOIL k) then s
  else if s.on (TPO_CTRL_ENABLE k) then
    let s1 := if same then s else s.pb (TPO_STAT_CFG_ERR k) true
    if en then s1 else tpoStop k s1
  else
    let s1 := (s.p (TPO_CTRL_COUNT k) (fieldOf (TPO_CTRL_COUNT k) v)).p (TPO_CTRL_POL k) (fieldOf (TPO_CTRL_POL k) v)
    if en then tpoStart k s1 else s1

/-- A write of another TPO register. -/
def tpoRegWrite (k off : Nat) (v : Word) (s : State) : State :=
  if s.on (TPO_STAT_SPOIL k) then s
  else if off ≠ TPO_STAT k ∧ s.on (TPO_CTRL_ENABLE k) then s.pb (TPO_STAT_CFG_ERR k) true
  else s.plainWrite off v

def execTpoEnable (k : Fin 8) (v : Word) (s : State) : Host.Outcome State Fault Refusal :=
  .next (hostAt (TPO_CTRL k) (tpoCtrlWrite k v) s)

def execTpoDisable (k : Fin 8) (v : Word) (s : State) : Host.Outcome State Fault Refusal :=
  .next (hostAt (TPO_CTRL k) (tpoCtrlWrite k v) s)

/-- TPO_EDGE: the counter has reached the next rising edge. -/
def tpoEdge (k : Nat) (s : State) : State :=
  let u := tpoU s k
  let n := s.g (TPO_CTRL_COUNT k)
  let e := tpoEdgeAt s k u.next
  if s.on (TPO_CTRL_ENABLE k) ∧ (n = 0 ∨ u.next < n) ∧ e ≤ s.time.toNs then
    let s1 := modTpo k (fun u => { next := u.next + 1, fall := some (e + s.g (TPO_WIDTH_VALUE k)), late := false, rose := s.clock }) s
    let s2 := if u.late then s1.pb (TPO_STAT_LATE k) true else s1
    dmaSource 2 k ((tpoSet k true s2).event (.tpo k))
  else s

def execTpoEdge (k : Fin 8) (s : State) : Host.Outcome State Fault Refusal := .next (live (tpoEdge k) s)

/-- TPO_PULSE_END: the counter has reached the edge plus WIDTH, and the pulse has been high for a tick (R369). -/
def tpoFall (k : Nat) (s : State) : State :=
  match (tpoU s k).fall with
  | some t =>
    if t ≤ s.time.toNs ∧ (tpoU s k).rose < s.clock then tpoEnd k (tpoSet k false (modTpo k (fun u => { u with fall := none }) s)) else s
  | none => s

def execTpoPulseEnd (k : Fin 8) (s : State) : Host.Outcome State Fault Refusal := .next (live (tpoFall k) s)

/-! ## The single step (R363, R364) -/

/-- The step offset as nanoseconds. -/
def stepOfs (s : State) : Int :=
  sext 48 (s.g TIME_OFS_S_LO_VALUE + s.g TIME_OFS_S_HI_VALUE % 65536 * 2 ^ 32) * 1000000000 + s.g TIME_OFS_NS_VALUE

/-- TIME_CTRL.STEP: the step is refused, or waits for the next tick. -/
def timeStep (s : State) : State :=
  if !s.on TIME_STAT_STEP_ARMED then s.p TIME_STAT_STEP_RESULT 1
  else if 999999999 < s.g TIME_OFS_NS_VALUE ∨ (s.time.toNs : Int) + stepOfs s < 0 then s.p TIME_STAT_STEP_RESULT 2
  else { s with net.step := some (stepOfs s) }

/-- The tick after an accepted STEP adds the offset to SECONDS and NS and leaves FRAC; outputs whose edges a forward step
passes catch up (R363, R369). -/
def stepDue (s : State) : State :=
  match s.net.step with
  | none => s
  | some ofs =>
    let n := ((s.time.toNs : Int) + ofs).toNat
    let s1 := { s with time := { s.time with sec := n / 1000000000 % 2 ^ 48, ns := n % 1000000000 }, net.step := none }
    let s2 := ((s1.pb TIME_STAT_STEP_ARMED false).pb TIME_STAT_STEPPED true).p TIME_STAT_STEP_RESULT 0
    if ofs ≤ 0 then s2 else overN 8 (fun k s => if s.on (TPO_CTRL_ENABLE k) then tpoCatch k s else s) s2

/-- TIME_CTRL.REARM. -/
def timeRearm (s : State) : State :=
  if s.on TIME_STAT_STEP_ARMED then s
  else (s.pb TIME_STAT_STEP_ARMED true).p TIME_DISC_COUNT ((s.g TIME_DISC_COUNT + 1) % 2 ^ 32)

/-- A write of TIME_CTRL: it rearms first, then steps. -/
def timeCtrlWrite (v : Word) (s : State) : State :=
  let s1 := if fieldOf TIME_CTRL_REARM v = 1 then timeRearm s else s
  if fieldOf TIME_CTRL_STEP v = 1 then timeStep s1 else s1

def execTimeStep (v : Word) (s : State) : Host.Outcome State Fault Refusal := .next (hostAt TIME_CTRL (timeCtrlWrite v) s)

def execTimeRearm (v : Word) (s : State) : Host.Outcome State Fault Refusal := .next (hostAt TIME_CTRL (timeCtrlWrite v) s)

/-- A read of TIME_NOW_NS latches the rest of the same tick (R361). -/
def timeNowRead (be : Nat) (s : State) : State :=
  let s1 := ((s.setLatch TIME_NOW_FRAC (BitVec.ofNat 32 s.time.frac)).setLatch TIME_NOW_S_LO (BitVec.ofNat 32 s.time.sec)).setLatch
    TIME_NOW_S_HI (BitVec.ofNat 32 (s.time.sec / 2 ^ 32))
  s1.answer TIME_NOW_NS be (BitVec.ofNat 32 s.time.ns)

def execTimeNowRead (be : Fin 16) (s : State) : Host.Outcome State Fault Refusal := .next (hostAt TIME_NOW_NS (timeNowRead be) s)

end Sys2Proof.Machine
end

