-- ==== Sys2Proof/Machine/Ethernet.lean ====
section
/-!
DEFINITION. The Ethernet ports (spec/17_network_time.md R371-R376): which frames a port accepts, how it sorts them, the
receive FIFO, the transmit window, PTP timestamps. Byte strings are frames without their FCS.
-/

namespace Sys2Proof.Machine

open Reg

/-! ## Bytes in network order -/

def beAt (b : List Byte) (off n : Nat) : Nat := beNat ((b.drop off).take n)

/-- Sum of the 16-bit words of a byte string, an odd byte padded with zero. -/
def wordSum : List Byte → Nat
  | a :: b :: r => a.toNat * 256 + b.toNat + wordSum r
  | [a] => a.toNat * 256
  | [] => 0

/-- Ones' complement sum folded to 16 bits. -/
def foldSum (n : Nat) : Nat :=
  let f := fun n : Nat => n % 65536 + n / 65536
  f (f (f n))

/-- The internet checksum of a byte string with an extra sum. -/
def inetSum (extra : Nat) (b : List Byte) : Nat := 65535 - foldSum (extra + wordSum b)

/-! ## Addresses (R372) -/

/-- Multicast addresses of PTP. -/
def ptpMacs : List Nat :=
  [0x011B19000000, 0x0180C200000E, 0x01005E000181, 0x01005E00006B, 0x333300000181, 0x33330000006B]

/-- The port accepts a destination address. -/
def accepts (s : State) (p : Nat) (b : List Byte) : Bool :=
  let d := beAt b 0 6
  b.take 6 == portMac s p || d == 0xFFFFFFFFFFFF || ptpMacs.contains d || d == 0x3333FF000000 + portIp6 s p % 2 ^ 24

/-! ## Layers (R373, R376) -/

/-- The EtherType and where the payload begins, past at most one 802.1Q tag. -/
def etherAt (b : List Byte) : Nat × Nat := if beAt b 12 2 = 0x8100 then (beAt b 16 2, 18) else (beAt b 12 2, 14)

def tagged (b : List Byte) : Bool := beAt b 12 2 == 0x8100

/-- A UDP header at an offset: source and destination port, place of its payload. -/
structure Udp where
  ip6 : Bool
  src : Nat
  dst : Nat
  sport : Nat
  dport : Nat
  at_ : Nat
  ok : Bool
  deriving DecidableEq, Repr

/-- The UDP checksum, where one is given, holds. -/
def udpOk (pseudo : Nat) (b : List Byte) (off : Nat) : Bool :=
  let len := beAt b (off + 4) 2
  beAt b (off + 6) 2 == 0 || inetSum (pseudo + len + 17) ((b.drop off).take len) == 0

/-- The UDP datagram of an IPv4 packet, located behind a header of any IHL. -/
def udp4 (b : List Byte) (o : Nat) : Option Udp :=
  let ihl := 4 * (beAt b o 1 % 16)
  if beAt b o 1 / 16 = 4 ∧ 20 ≤ ihl ∧ beAt b (o + 9) 1 = 17 then
    let u := o + ihl
    some ⟨false, beAt b (o + 12) 4, beAt b (o + 16) 4, beAt b u 2, beAt b (u + 2) 2, u + 8,
      udpOk (wordSum ((b.drop (o + 12)).take 8)) b u⟩
  else none

/-- The UDP datagram of an IPv6 packet without extension headers. -/
def udp6 (b : List Byte) (o : Nat) : Option Udp :=
  if beAt b o 1 / 16 = 6 ∧ beAt b (o + 6) 1 = 17 then
    let u := o + 40
    some ⟨true, beAt b (o + 8) 16, beAt b (o + 24) 16, beAt b u 2, beAt b (u + 2) 2, u + 8,
      udpOk (wordSum ((b.drop (o + 8)).take 32)) b u⟩
  else none

/-- The UDP datagram of a frame, located (R376). -/
def udpAt (b : List Byte) : Option Udp :=
  let (ty, o) := etherAt b
  if ty = 0x0800 then udp4 b o else if ty = 0x86DD then udp6 b o else none

/-- An IPv4 packet whose header checksum holds and which is no fragment (R373). -/
def sound4 (b : List Byte) (o : Nat) : Bool :=
  inetSum 0 ((b.drop o).take (4 * (beAt b o 1 % 16))) == 0 && beAt b (o + 6) 2 % 0x4000 == 0

/-- The UDP datagram of a frame received, none where an IPv4 packet is a fragment or its header unsound (R373). -/
def udpOf (b : List Byte) : Option Udp :=
  let (ty, o) := etherAt b
  if ty = 0x0800 && !sound4 b o then none else udpAt b

/-- What a frame is to the port (R373). -/
inductive FrameClass where
  | arp | solicit | repl
  /-- a PTP frame, with the place of its PTP header -/
  | ptp (at_ : Nat)
  | other
  deriving DecidableEq, Repr

/-- A UDP datagram is addressed to the port. -/
def udpOwn (s : State) (p : Nat) (u : Udp) : Bool := u.dst == (if u.ip6 then portIp6 s p else portIp4 s p)

/-- REP-lite runs on the port (R84). -/
def replOn (s : State) (p : Nat) : Bool := if p = 0 then s.on REPL_CTRL_EN_ETH0 else s.on REPL_CTRL_EN_ETH1

/-- A Neighbor Solicitation for the port's address: its ICMPv6 header follows the IPv6 header, its checksum holds. -/
def solicits (s : State) (p : Nat) (b : List Byte) (o : Nat) : Bool :=
  let len := beAt b (o + 4) 2
  beAt b (o + 6) 1 == 58 && beAt b (o + 40) 1 == 135 && beAt b (o + 48) 16 == portIp6 s p
    && inetSum (wordSum ((b.drop (o + 8)).take 32) + len + 58) ((b.drop (o + 40)).take len) == 0

/-- A frame sorted into its class. -/
def classify (s : State) (p : Nat) (b : List Byte) : FrameClass :=
  let (ty, o) := etherAt b
  if ty = 0x0806 then (if beAt b (o + 6) 2 = 1 ∧ beAt b (o + 24) 4 = portIp4 s p then .arp else .other)
  else if ty = 0x88F7 then .ptp o
  else if ty = 0x86DD ∧ solicits s p b o then .solicit
  else match udpOf b with
    | some u =>
      if !u.ok then .other
      else if u.dport = 319 ∨ u.dport = 320 then .ptp u.at_
      else if u.dport = 7190 ∧ udpOwn s p u ∧ replOn s p then .repl
      else .other
    | none => .other

/-! ## Answers -/

/-- A frame as it leaves the port, padded to 60 bytes. -/
def padded (b : List Byte) : List Byte := b ++ List.replicate (60 - b.length) 0

/-- A frame padded, with its FCS, and sent (R375). -/
def sendFrame (p : Nat) (b : List Byte) (s : State) : State := s.emit (.frame p (padded b) (fcs (padded b)))

/-- The Ethernet header of an answer, with the tag of the frame it answers. -/
def answerHead (s : State) (p : Nat) (dest : List Byte) (b : List Byte) : List Byte :=
  dest ++ portMac s p ++ (if tagged b then (b.drop 12).take 4 else [])

/-- The ARP reply. -/
def arpReply (s : State) (p : Nat) (b : List Byte) : List Byte :=
  let o := (etherAt b).2
  let sha := (b.drop (o + 8)).take 6
  let spa := (b.drop (o + 14)).take 4
  answerHead s p sha b ++ beBytes 2 0x0806 ++ (b.drop o).take 6 ++ beBytes 2 2 ++ portMac s p ++ beBytes 4 (portIp4 s p)
    ++ sha ++ spa

/-- The Neighbor Advertisement: solicited and overriding, to the asker, or to all nodes where it has no address yet. -/
def advertisement (s : State) (p : Nat) (b : List Byte) : List Byte :=
  let o := (etherAt b).2
  let src := beAt b (o + 8) 16
  let me := beBytes 16 (portIp6 s p)
  let dest := if src = 0 then beBytes 16 (0xFF02 * 2 ^ 112 + 1) else beBytes 16 src
  let body := fun sum : Nat => beBytes 1 136 ++ beBytes 1 0 ++ beBytes 2 sum ++ beBytes 4 (if src = 0 then 0x20000000 else 0x60000000)
    ++ me ++ beBytes 2 0x0201 ++ portMac s p
  let sum := inetSum (wordSum (me ++ dest) + 32 + 58) (body 0)
  answerHead s p (if src = 0 then beBytes 6 0x333300000001 else (b.drop 6).take 6) b ++ beBytes 2 0x86DD
    ++ beBytes 4 0x60000000 ++ beBytes 2 32 ++ beBytes 1 58 ++ beBytes 1 255 ++ me ++ dest ++ body sum

/-! ## Timestamps (R374-R376) -/

/-- A PTP event message: messageType 0 to 3. -/
def ptpEvent (b : List Byte) (at_ : Nat) : Bool := decide (at_ < b.length) && decide (beAt b at_ 1 % 16 ≤ 3)

/-- The time of a byte on a port's wire, in tenths of ns. -/
def byteTenths (s : State) (p : Nat) : Nat :=
  match s.g (ETH_STAT_SPEED p) with | 3 => 8 | 2 => 80 | 1 => 800 | _ => 8000

/-- Ticks from the start-of-frame delimiter of a frame of `len` bytes to the end of its FCS. -/
def sinceSfd (s : State) (p len : Nat) : Nat := (len + 5) * byteTenths s p / 40

/-- The counter at the start-of-frame delimiter of a frame that has just ended, with a signed offset in ns (R376). Between
the two the counter has gone on at its present increment (DEDUCED, assumption log 94). -/
def stamp (s : State) (p len : Nat) (ofs : Int) : Nat × Nat :=
  let now := (s.time.toNs * 2 ^ 32 + s.time.frac : Nat)
  let t := ((now : Int) - (sinceSfd s p len * (s.net.inc.1 * 2 ^ 32 + s.net.inc.2) : Nat)) / 2 ^ 32 + ofs
  ((t % 1000000000).toNat, (t / 1000000000 % 2 ^ 48).toNat)

/-! ## Reception (R373, R374) -/

def prxSync (p : Nat) (s : State) : State :=
  (s.p (ETH_PRX_COUNT p) (ethU s p).rx.length).p (ETH_PRX_TS_COUNT p) (ethU s p).ts.length

/-- A PTP frame into the receive FIFO; one without a timestamp shows an open time. -/
def receivePtp (p at_ : Nat) (b : List Byte) (s : State) : State :=
  if 16 ≤ (ethU s p).rx.length then s.inc (ETH_STAT_RX_DROP p)
  else
    let valid := ptpEvent b at_
    let (x, s1) := s.fresh
    let (ns, sec) := if valid then stamp s p b.length (s.gi (ETH_TSLAT_RX p)) else (x % 2 ^ 32, x / 2 ^ 32)
    let head := leBytes 2 b.length ++ leBytes 2 (valid.toNat + 2 * (tagged b).toNat) ++ leBytes 4 ns ++ leBytes 8 (sec % 2 ^ 48)
    let s2 := prxSync p (modEth p (fun u => { u with rx := u.rx ++ [head ++ b] }) s1)
    s2.msix (s2.g (ETH_CFG_VECTOR p))

/-- A write of ETHp_PRX. -/
def prxWrite (p : Nat) (v : Word) (s : State) : State :=
  let s1 := if fieldOf (ETH_PRX_POP p) v = 1 then modEth p (fun u => { u with rx := u.rx.drop 1 }) s else s
  let s2 := if fieldOf (ETH_PRX_TS_POP p) v = 1 then modEth p (fun u => { u with ts := u.ts.drop 1 }) s1 else s1
  prxSync p s2

def execEthRxPop (p : Fin 2) (v : Word) (s : State) : Host.Outcome State Fault Refusal :=
  .next (hostAt (ETH_PRX p) (prxWrite p v) s)

def execEthTsPop (p : Fin 2) (v : Word) (s : State) : Host.Outcome State Fault Refusal :=
  .next (hostAt (ETH_PRX p) (prxWrite p v) s)

/-! ## Transmission (R375) -/

/-- The bytes of the transmit window. -/
def windowBytes (s : State) (p len : Nat) : List Byte :=
  (((List.range (ceilDiv len 4)).map fun k => leBytes 4 (s.g (ETH_PTXBUF_DATA p k))).foldr (· ++ ·) []).take len

/-- A write of ETHp_PTX. -/
def ptxWrite (p : Nat) (v : Word) (s : State) : State :=
  let len := fieldOf (ETH_PTX_LEN p) v
  let err := s.pb (ETH_STAT_TX_ERR p) true
  if fieldOf (ETH_PTX_SEND p) v = 0 then s.plainWrite (ETH_PTX p) v
  else if s.on (ETH_STAT_TX_BUSY p) ∨ len < 14 ∨ 1518 < len then err
  else
    let s1 := s.plainWrite (ETH_PTX p) v
    if !portUp s p then s1.pb (ETH_STAT_TX_ERR p) true
    else (modEth p (fun u => { u with tx := some (windowBytes s p len) }) s1).pb (ETH_STAT_TX_BUSY p) true

def execEthSend (p : Fin 2) (v : Word) (s : State) : Host.Outcome State Fault Refusal :=
  .next (hostAt (ETH_PTX p) (ptxWrite p v) s)

/-- The place of the PTP header in a frame, where the device can locate it (R376). -/
def ptpAt (b : List Byte) : Option Nat :=
  if (etherAt b).1 = 0x88F7 then some (etherAt b).2
  else match udpAt b with
    | some u => if u.dport = 319 ∨ u.dport = 320 then some u.at_ else none
    | none => none

/-- The egress timestamp of a PTP event message. -/
def txStamp (p : Nat) (b : List Byte) (s : State) : State :=
  match ptpAt b with
  | some a =>
    if !ptpEvent b a then s
    else if 4 ≤ (ethU s p).ts.length then s.pb (ETH_STAT_TS_LOST p) true
    else
      let (ns, sec) := stamp s p (padded b).length (s.gi (ETH_TSLAT_TX p))
      let t : TxTs := { seq := beAt b (a + 30) 2, ty := beAt b a 1 % 16, ns := ns, sec := sec }
      let s1 := prxSync p (modEth p (fun u => { u with ts := u.ts ++ [t] }) s)
      s1.msix (s1.g (ETH_CFG_VECTOR p))
  | none => s

/-- The REP-lite datagrams that waited behind a window frame go (R375). -/
def replFlush (p : Nat) (s : State) : State :=
  (ethU s p).wait.foldl (fun s w => s.emit (.repl p w.1 w.2)) (modEth p (fun u => { u with wait := [] }) s)

/-- ETH_TX_DONE: the window frame leaves the port, padded to 60 bytes, with its FCS. -/
def txDone (p : Nat) (s : State) : State :=
  match (ethU s p).tx with
  | none => s
  | some b =>
    let s1 := (modEth p (fun u => { u with tx := none }) s).pb (ETH_STAT_TX_BUSY p) false
    if !portUp s p then s1.pb (ETH_STAT_TX_ERR p) true
    else replFlush p (txStamp p b (sendFrame p b s1))

def execEthTxDone (p : Fin 2) (s : State) : Host.Outcome State Fault Refusal := .next (live (txDone p) s)

/-- A read of ETHp_TXTS_HDR latches the other three words of the oldest entry. -/
def egressRead (p : Nat) (s : State) : State :=
  let (ns, sec) := match (ethU s p).ts with | t :: _ => (t.ns, t.sec) | [] => (0, 0)
  ((s.setLatch (ETH_TXTS_NS p) (BitVec.ofNat 32 ns)).setLatch (ETH_TXTS_S_LO p) (BitVec.ofNat 32 sec)).setLatch
    (ETH_TXTS_S_HI p) (BitVec.ofNat 32 (sec / 2 ^ 32))

/-! ## The port -/

/-- The speed a link comes up at: fixed by 10GBASE-R and by 1000BASE-X, the PHY's in-band status in SGMII (R371). -/
def linkSpeed (mode speed : Nat) : Nat := if mode = 1 then 3 else if mode = 2 then 2 else min speed 2

/-- ETH_LINK_CHANGE: the link of a port that is on goes up at a speed, or down. -/
def linkChange (p : Nat) (up : Bool) (speed : Nat) (s : State) : State :=
  if decide (p < s.part.eth) && s.on (ETH_CFG_MODE p) then
    let s1 := modEth p (fun u => { u with wait := if up then u.wait else [] }) (s.pb (ETH_STAT_LINK p) up)
    if up then s1.p (ETH_STAT_SPEED p) (linkSpeed (s.g (ETH_CFG_MODE p)) speed) else s1
  else s

def execEthLinkChange (p : Fin 2) (up : Bool) (speed : BitVec 2) (s : State) : Host.Outcome State Fault Refusal :=
  .next (live (linkChange p up speed.toNat) s)

/-- A write of ETHp_CFG: a port switched off, or to another mode, has no link until one comes up in the new mode
(DEDUCED from R371, assumption log 89). -/
def ethCfgWrite (p : Nat) (v : Word) (s : State) : State :=
  let s1 := s.plainWrite (ETH_CFG p) v
  if s1.on (ETH_CFG_MODE p) && s1.g (ETH_CFG_MODE p) == s.g (ETH_CFG_MODE p) then s1
  else modEth p (fun u => { u with wait := [] }) (s1.pb (ETH_STAT_LINK p) false)

/-- A write of an address register: refused while the port is on (R372). -/
def ethAddrWrite (p off : Nat) (v : Word) (s : State) : State :=
  if s.on (ETH_CFG_MODE p) then s.pb (ETH_STAT_TX_ERR p) true else s.plainWrite off v

end Sys2Proof.Machine
end

