-- ==== Sys2Proof/Machine/Repl.lean ====
section
/-!
DEFINITION. REP-lite (spec/03_host_rep.md R84-R87): sessions of line partners over Ethernet, their requests, and the
repetition of notifications.
-/

namespace Sys2Proof.Machine

open Reg

def setRepl (l : List Repl) (s : State) : State := { s with host.repl := l }.p REPL_CTRL_SESSIONS l.length

/-- A session changed in place. -/
def modRepl (num : Nat) (f : Repl → Repl) (s : State) : State :=
  { s with host.repl := s.host.repl.map fun r => if r.num = num then f r else r }

/-- The open session a datagram belongs to. -/
def replOf (s : State) (m : ReplMsg) : Option Repl :=
  s.host.repl.find? fun r => r.num == m.session.toNat && r.port == m.port.val

/-- The port carries REP-lite. -/
def replPort (s : State) (m : ReplMsg) : Bool := portUp s m.port && replOn s m.port

/-- What every datagram of a session says: the highest SEQ received in order, and the notifications it acknowledges. -/
def replHeard (r : Repl) (m : ReplMsg) (s : State) : State :=
  modRepl r.num (fun r =>
    { r with rx := if m.seq.toNat = r.rx + 1 then m.seq.toNat else r.rx,
             waiting := r.waiting.filter fun w => decide (m.ack.toNat < w.seq) }) s

/-- A reply on a session: its completion entry and the words that follow it. -/
def replReply (r : Repl) (cid op status result : Nat) (words : List Nat) (s : State) : State :=
  let r := (s.host.repl.find? fun x => x.num == r.num).getD r
  let entry := cqeBytes ⟨cid, 0, op, status, s.engine, 0, result⟩ ++ (words.map (leBytes 4)).foldr (· ++ ·) []
  replSend r.port r.mac r.ip6 r.ip (replBytes 1 r.num (r.seq + 1) r.rx entry) (modRepl r.num (fun r => { r with seq := r.seq + 1 }) s)

/-- A request in an open session, checked as R67 checks a command: version, parameters, then `run`. One that names no open
session gets no answer (DESIGN CHOICE, assumption log 80). -/
def replRequest (m : ReplMsg) (op : Nat) (run : Repl → State → State) (s : State) : State :=
  if !replPort s m then s
  else match replOf s m with
    | none => s
    | some r =>
      let s1 := replHeard r m s
      let reply := fun st => replReply r m.cid.toNat op st 0 [] s1
      if !(match sinceOf op with | some v => decide (v ≤ r.version) | none => false) then reply Sts.unknownOp
      else if !m.clean || m.cid == 0xFFFF#16 then reply Sts.param
      else run r s1

/-- The lowest session number not in use. -/
def replNum (s : State) : Nat :=
  ((List.range 8).map (· + 1)).find? (fun k => !(s.host.repl.any fun r => r.num == k)) |>.getD 0

/-- HELLO: a session opens, or BUSY beyond 8, or VERSION (R76, R85). A refusal belongs to no session: its SEQ is open,
and its RESULT is 0 but for VERSION, as for a host's HELLO (DESIGN CHOICE, assumption log 79). -/
def replHello (m : ReplMsg) (lo hi : Nat) (s : State) : State :=
  if !replPort s m then s
  else
    let refuse := fun st res =>
      let (x, s1) := s.fresh
      replSend m.port m.mac.toNat m.ip6 m.ip.toNat (replBytes 1 0 (x % 2 ^ 32) m.seq.toNat
        (cqeBytes ⟨m.cid.toNat, 0, 0x01, st, s.engine, 0, res⟩)) s1
    if !m.clean || m.cid == 0xFFFF#16 then refuse Sts.param 0
    else if 8 ≤ s.host.repl.length then refuse Sts.busy 0
    else match repChoose lo hi with
      | none => refuse Sts.version (helloResult 0)
      | some v =>
        let r : Repl := { num := replNum s, port := m.port, mac := m.mac.toNat, ip := m.ip.toNat, ip6 := m.ip6, version := v, rx := m.seq.toNat }
        replReply r m.cid.toNat 0x01 Sts.ok (helloResult v) [] (setRepl (s.host.repl ++ [r]) s)

def execReplHello (m : ReplMsg) (min max : BitVec 16) (s : State) : Host.Outcome State Fault Refusal :=
  .next (live (replHello m min.toNat max.toNat) s)

/-- BYE: the session closes with its reply. -/
def replBye (m : ReplMsg) : State → State :=
  replRequest m 0x02 fun r s =>
    let s1 := replReply r m.cid.toNat 0x02 Sts.ok 0 [] s
    setRepl (s1.host.repl.filter fun x => x.num != r.num) s1

def execReplBye (m : ReplMsg) (s : State) : Host.Outcome State Fault Refusal := .next (live (replBye m) s)

/-- STATUS_QUERY with CLASS 1: the reply carries the engine report. Another CLASS is answered UNKNOWN_OP (DESIGN CHOICE,
assumption log 80). -/
def replStatus (m : ReplMsg) (cls : Nat) : State → State :=
  replRequest m 0x03 fun r s =>
    if cls = 1 then replReply r m.cid.toNat 0x03 Sts.ok 0 (engineReport s) s
    else replReply r m.cid.toNat 0x03 Sts.unknownOp 0 [] s

def execReplStatusQuery (m : ReplMsg) (cls : BitVec 8) (s : State) : Host.Outcome State Fault Refusal :=
  .next (live (replStatus m cls.toNat) s)

/-- TIME_EVENT with KIND 1: the time, at once. Another KIND is answered UNKNOWN_OP (DESIGN CHOICE, assumption log 80). -/
def replTime (m : ReplMsg) (kind : Nat) : State → State :=
  replRequest m 0x05 fun r s =>
    if kind = 1 then replReply r m.cid.toNat 0x05 Sts.ok (timeResult s) [] s
    else replReply r m.cid.toNat 0x05 Sts.unknownOp 0 [] s

def execReplTimeEvent (m : ReplMsg) (kind : BitVec 8) (s : State) : Host.Outcome State Fault Refusal :=
  .next (live (replTime m kind.toNat) s)

/-- Any other opcode; with no open session named, no answer (DESIGN CHOICE, assumption log 80). -/
def replUnknown (m : ReplMsg) (op : Nat) (s : State) : State :=
  if [0x01, 0x02, 0x03, 0x05].contains op || !replPort s m then s
  else match replOf s m with
    | none => s
    | some r => replReply r m.cid.toNat op Sts.unknownOp 0 [] (replHeard r m s)

def execReplUnknownOp (m : ReplMsg) (op : BitVec 8) (s : State) : Host.Outcome State Fault Refusal :=
  .next (live (replUnknown m op.toNat) s)

/-- An acknowledgement. -/
def replAck (m : ReplMsg) (s : State) : State :=
  if !replPort s m then s else match replOf s m with | none => s | some r => replHeard r m s

def execReplAck (m : ReplMsg) (s : State) : Host.Outcome State Fault Refusal := .next (live (replAck m) s)

/-- REPL_NOTIFY_RETRY: 10 ms have passed since a notification was last sent. After eight repeats the session is lost, and
a FAULT reports it (R86). -/
def replRetry (num seq : Nat) (s : State) : State :=
  match s.host.repl.find? fun r => r.num == num with
  | none => s
  | some r =>
    match r.waiting.find? fun w => w.seq == seq with
    | none => s
    | some w =>
      if w.sent ≤ 8 then
        replSend r.port r.mac r.ip6 r.ip (replBytes 2 num seq r.rx w.entry)
          (modRepl num (fun r => { r with waiting := r.waiting.map fun x => if x.seq = seq then { x with sent := x.sent + 1 } else x }) s)
      else
        record { sev := (Config.openSev 0).val, cls := 0x43, inst := num, code := (Config.errCode 9).toNat }
          (setRepl (s.host.repl.filter fun x => x.num != num) s)

def execReplNotifyRetry (session : BitVec 16) (seq : BitVec 32) (s : State) : Host.Outcome State Fault Refusal :=
  .next (live (replRetry session.toNat seq.toNat) s)

/-- A write of REPL_CTRL: an EN bit of an absent port is ignored; an EN bit cleared closes the port's sessions (R87). -/
def replCtrlWrite (v : Word) (s : State) : State :=
  let s1 := s.plainWrite REPL_CTRL v
  let s2 := if s.part.eth < 2 then s1.pb REPL_CTRL_EN_ETH1 false else s1
  setRepl (s2.host.repl.filter fun r => replOn s2 r.port) s2

def execReplPortDisable (v : Word) (s : State) : Host.Outcome State Fault Refusal :=
  .next (hostAt REPL_CTRL (replCtrlWrite v) s)

end Sys2Proof.Machine
end

