-- ==== Sys2Proof/Machine/ChipRegs.lean ====
section
/-!
DEFINITION. A host write or read of any BAR0 register as its own rules have it (spec/00_scope.md R6-R11, spec/21
R425-R428): the table of registers whose writes or reads do more than their access types say.
-/

namespace Sys2Proof.Machine

open Reg

/-! ## Registers with small rules of their own -/

/-- CHIP_ERR: with every bit at 0, CHIP_ERRADDR is no longer valid (R426). -/
def chipErrWrite (v : Word) (s : State) : State :=
  let s1 := s.plainWrite CHIP_ERR v
  if s1.reg CHIP_ERR = 0 then s1.pb CHIP_ERRADDR_VALID false else s1

/-- PSQ_BUDGET (R115): DEC to 3,000 MB/s, DRAM to the installed peak in 100 MB/s, RATE being in 100 MT/s. -/
def budgetWrite (v : Word) (s : State) : State :=
  let dec := fieldOf PSQ_BUDGET_DEC v
  let dram := fieldOf PSQ_BUDGET_DRAM v
  let peak := s.g DRAM_CFG_RATE * 8 * (channels s).length
  if 1 ≤ dec ∧ dec ≤ 3000 ∧ 1 ≤ dram ∧ dram ≤ peak then s.plainWrite PSQ_BUDGET v else s.pb PSQ_STAT_CFG_ERR true

/-- PSQ_POSn, PSQ_STNn_TRIG, PSQ_STNn_PREF (R124). -/
def posWrite (off : Nat) (v : Word) (s : State) : State :=
  if anyCtx s fun c => armedLater (ctxState s c) then s.pb PSQ_STAT_CFG_ERR true else feedSync (s.plainWrite off v)

/-- MCn_SETP of a polygon channel follows its station (R239). -/
def setpWrite (n : Nat) (v : Word) (s : State) : State := if bound s n then s else s.plainWrite (MC_SETP n) v

/-- An MSI-X table word: a vector unmasked while its pending bit is set is sent. -/
def msixWrite (off : Nat) (v : Word) (s : State) : State :=
  let n := (off - MSIX_TABLE 0 0) / 16
  let s1 := s.plainWrite off v
  let pba := s.reg (MSIX_PBA (n / 32))
  if off % 16 = 12 ∧ v.toNat % 2 = 0 ∧ bitsOf pba.toNat (n % 32) 1 = 1 then
    (s1.setReg (MSIX_PBA (n / 32)) (pba &&& ~~~ BitVec.ofNat 32 (2 ^ (n % 32)))).emit (.msix n)
  else s1

/-! ## Writes -/

/-- `f` where `off` is the register `a`. -/
def one (a off : Nat) (f : State → State) : Option (State → State) := if off = a then some f else none

/-- `f n` where `off` is instance `n` of `count` registers `stride` apart from `a`. -/
def many (a stride count off : Nat) (f : Nat → State → State) : Option (State → State) := (instOf off a stride count).map f

def first : List (Option (State → State)) → Option (State → State)
  | [] => none
  | some f :: _ => some f
  | none :: r => first r

/-- Chip region and INF. -/
def infWrites (off : Nat) (v : Word) : Option (State → State) := first [
  one CHIP_ERR off (chipErrWrite v), one CHIP_IRQ_MASK off (irqMaskWrite v),
  one CSET_SEL off (fun s => csetSync (s.plainWrite CSET_SEL v)), one CSET_CMD off (csetConfirm v),
  one PWR_CTRL off (pwrCtrlWrite v), one THM_THR off (thrWrite v), one THM_CEIL off (ceilWrite v),
  one CLK_LOCKA off (lockaWrite v), one CLK_BANDMEAS off (bandMeasWrite v), many (CLK_CKO 0) 4 12 off (ckoWrite · v),
  one TIME_CTRL off (timeCtrlWrite v), one TIME_INC_NS off (timeIncWrite v),
  many (TPO_CTRL 0) 0x20 8 off (tpoCtrlWrite · v),
  (if 0x104100 ≤ off ∧ off < 0x104200 then some (tpoRegWrite ((off - 0x104100) / 0x20) off v) else none),
  many (MON_CFG 0) 0x40 32 off (monCfgWrite · v), many (MON_BASE 0) 0x40 32 off (fun m => monParamWrite m off v),
  many (MON_SCALE 0) 0x40 32 off (fun m => monParamWrite m off v),
  many (ERR_PEND 0) 4 7 off (fun _ s => irqSync (s.plainWrite off v)),
  many (ERR_MASK 0) 4 7 off (fun _ s => irqSync (s.plainWrite off v))]

/-- MEM: DRAM and DMA. -/
def memWrites (off : Nat) (v : Word) : Option (State → State) := first [
  one DRAM_TCTRL off (tctrlWrite v), one DRAM_SR off (srWrite v), many (DDR_SCRUB 0) 0x1000 2 off (fun _ => scrubWrite off v),
  (if 0x201000 ≤ off ∧ off < 0x203000 then some (fun s => (wake s).plainWrite off v) else none),
  many (DMT_CTRL 0) 8 8 off (dmtCtrlWrite · v), many (DMT_PERIOD 0) 8 8 off (dmtPeriodWrite · v),
  many (DMA_CTRL 0) 0x40 64 off (dmaCtrlWrite · v), many (DMA_DESC_LO 0) 0x40 64 off (fun n => dmaDescWrite n off v),
  many (DMA_DESC_HI 0) 0x40 64 off (fun n => dmaDescWrite n off v)]

/-- HNT: the endpoint, REP, REP-lite, mailboxes, Ethernet. -/
def hntWrites (off : Nat) (v : Word) : Option (State → State) := first [
  one REP_CTRL off (sessionClose v), one REPL_CTRL off (replCtrlWrite v),
  many (REP_QSQT 0) 0x20 16 off (sqDoorbell · v), many (REP_QCQH 0) 0x20 16 off (cqDoorbell · v),
  many (REP_QCFG 0) 0x20 16 off (qcfgWrite · v), many (MBX_ACK 0) 0x40 64 off (mbxAck · v),
  many (ETH_CFG 0) 0x2000 2 off (ethCfgWrite · v), many (ETH_PTX 0) 0x2000 2 off (ptxWrite · v),
  many (ETH_PRX 0) 0x2000 2 off (prxWrite · v),
  (if off / 0x2000 = 0x181 ∧ 8 ≤ off % 0x2000 ∧ off % 0x2000 < 0x24 then some (ethAddrWrite 0 off v) else none),
  (if off / 0x2000 = 0x182 ∧ 8 ≤ off % 0x2000 ∧ off % 0x2000 < 0x24 then some (ethAddrWrite 1 off v) else none),
  many (ETH_PTXBUF 0 0) 4 384 off (fun _ s => s.setReg off v), many (ETH_PTXBUF 1 0) 4 384 off (fun _ s => s.setReg off v),
  many (MSIX_TABLE 0 0) 4 1024 off (fun _ => msixWrite off v)]

/-- IMG: the passage sequencer and the stations. -/
def imgWrites (off : Nat) (v : Word) : Option (State → State) := first [
  one PSQ_CTRL off (fun s => feedSync (s.plainWrite PSQ_CTRL v)), one PSQ_BUDGET off (budgetWrite v),
  one PSQ_PTRIM off (ptrimWrite v), many (PSQ_POS 0) 4 5 off (fun _ => posWrite off v),
  many (PSQ_STN_TRIG 0) 8 8 off (fun _ => posWrite off v), many (PSQ_STN_PREF 0) 8 8 off (fun _ => posWrite off v),
  many (STN_LCTRL 0) 0x100000 8 off (lctrlWrite · v),
  (if 0x1000000 ≤ off ∧ off < 0x1800000 ∧ ((0x4000 ≤ stnOff off ∧ stnOff off < 0x8000)
      ∨ (0x10000 ≤ stnOff off ∧ stnOff off < 0xB0000) ∨ 0xC0000 ≤ stnOff off) then some (tableWrite off v) else none)]

/-- MOT: motors, axes, control engine, high voltage, heaters, spar words; and the registration loop. -/
def motWrites (off : Nat) (v : Word) : Option (State → State) := first [
  many (MC_CTRL 0) 0x80 24 off (mcCtrlWrite · v), many (MC_PWM 0) 0x80 24 off (mcPwmWrite · v),
  many (MC_SENSE 0) 0x80 24 off (fun n => mcHeldWrite n off v), many (MC_MOTOR 0) 0x80 24 off (fun n => mcHeldWrite n off v),
  many (MC_RS 0) 0x80 24 off (fun n => mcHeldWrite n off v), many (MC_LS 0) 0x80 24 off (fun n => mcHeldWrite n off v),
  many (MC_SETP 0) 0x80 24 off (setpWrite · v), many (CMD_CFG 0) 0x10 8 off (cmdCfgWrite · v),
  many (AX_CTRL 0) 0x40 48 off (axCtrlWrite · v), many (AX_TARGET 0) 0x40 48 off (axTargetWrite · v),
  many (AX_VMAX 0) 0x40 48 off (fun n => axProfileWrite n 0 v), many (AX_ACCEL 0) 0x40 48 off (fun n => axProfileWrite n 1 v),
  many (AX_DECEL 0) 0x40 48 off (fun n => axProfileWrite n 2 v),
  many (AX_MSTEP 0) 0x40 48 off (fun n => axOffWrite n off v), many (AX_PHREF 0) 0x40 48 off (fun n => axOffWrite n off v),
  many (AX_ENC 0) 0x40 48 off (fun n => axOffWrite n off v), many (AX_CPF 0) 0x40 48 off (fun n => axOffWrite n off v),
  many (AX_POS 0) 0x40 48 off (fun n => axOffWrite n off v), many (AX_MRESMAP 0) 0x40 48 off (axMresWrite · v),
  many (AG_CTRL 0) 0x20 8 off (agCtrlWrite · v), many (AG_VMAX 0) 0x20 8 off (fun g => agProfileWrite g 0 v),
  many (AG_ACCEL 0) 0x20 8 off (fun g => agProfileWrite g 1 v), many (AG_DECEL 0) 0x20 8 off (fun g => agProfileWrite g 2 v),
  one CE_CTRL off (ceCtrlWrite v), many (TB_CFG 0) 8 8 off (fun t => tbWrite t off v),
  many (TB_PERIOD 0) 8 8 off (fun t => tbWrite t off v), many (LP_CFG 0) 0x10 64 off (lpCfgWrite · v),
  many (TU_CFG 0) 0x40 4 off (tuCfgWrite · v),
  (if 0x804800 ≤ off ∧ off < 0x804900 ∧ 4 ≤ off % 0x40 ∧ off % 0x40 < 0x18 then some (tuRegWrite ((off - 0x804800) / 0x40) off v)
   else none),
  many (CE_PROG_LO 0) 8 4096 off (progLowWrite · v), many (CE_PROG_HI 0) 8 4096 off (fun w => wideWrite true w v),
  many (CE_STATE_LO 0) 8 1024 off (stateLowWrite · v), many (CE_STATE_HI 0) 8 1024 off (fun w => wideWrite false w v),
  many (CE_COEF 0) 4 4096 off (coefWrite · v), many (CE_NODE 0) 4 1024 off (nodeWrite · v),
  many (HV_CTRL 0) 0x40 32 off (hvCtrlWrite · v), many (HV_GUARD 0) 0x40 32 off (hvGuardWrite · v),
  many (HV_BAND 0) 0x40 32 off (hvBandWrite · v),
  many (HT_CTRL 0) 0x20 8 off (htCtrlWrite · v),
  many (SPAR_HOST 0) 4 128 off (fun _ => windowWrite off v),
  one VIS_REG_CTRL off (regCtrlWrite v), one VIS_REG_GAIN off (regGainWrite v)]

/-- A 32-bit write of the register at `off`, present and mapped, by its own rules: those of the table above, or its
access types alone. -/
def regWrite (off : Nat) (v : Word) (s : State) : State :=
  match first [infWrites off v, memWrites off v, hntWrites off v, imgWrites off v, motWrites off v] with
  | some f => f s
  | none => s.plainWrite off v

/-! ## Reads (R8, R79, R80, R359, R361, R417) -/

/-- Latches and effects of a read that come before the value is returned. -/
def readEffect (off : Nat) (s : State) : State :=
  let s1 := match highOf off with
    | some hi => match RegTable.find hi with
      | some (d, _) => s.setLatch hi (BitVec.ofNat 32 (wordRead d.bits (s.reg hi).toNat))
      | none => s
    | none => s
  if off = CHIP_FENCE then s1.setReg CHIP_FENCE (s1.reg CHIP_FENCE + 1)
  else if off = ETH_TXTS_HDR 0 then egressRead 0 s1
  else if off = ETH_TXTS_HDR 1 then egressRead 1 s1
  else if 0x201000 ≤ off ∧ off < 0x203000 then wake s1
  else if off = PWR_STAT ∨ off = PWR_VIN then vinSample s1
  else s1

/-- What a read leaves of the register (R8). STNn_LEVEL.LOW and STNn_LMARGIN start their minima afresh. -/
def readClear (off : Nat) (s : State) : State :=
  match windowOf off, RegTable.find off with
  | .plain, some (d, _) =>
    match instOf off (STN_LMARGIN 0) 0x100000 8, instOf off (STN_LEVEL 0) 0x100000 8 with
    | some n, _ => s.setReg (STN_LMARGIN n) 0x7FFFFFFF
    | none, some n => (s.modStn n fun u => { u with lowLevel := 32767 }).setReg off (BitVec.ofNat 32 (wordCleared d.bits (s.reg off).toNat))
    | none, none =>
      let w := BitVec.ofNat 32 (wordCleared d.bits (s.reg off).toNat)
      if w = s.reg off then s else s.setReg off w
  | _, _ => s

/-- A read of the register at `off`, present and mapped. -/
def regRead (off be : Nat) (s : State) : State :=
  match instOf off (MBX_HDR 0) 0x40 64, instOf off (ERR_REC 0 0) 0x20 256 with
  | some n, _ => mbxRead n be s
  | none, some i => slotRead i be s
  | none, none =>
    if off = TIME_NOW_NS then timeNowRead be s
    else
      let s1 := readEffect off s
      let (v, s2) := readWord off s1
      (readClear off s2).answer off be v

/-- An access to a register that waits: at a DRAM controller in self-refresh, whose exit it starts, or, of CHIP_FENCE, behind
the writes that wait there (R358, R359). -/
def accessWaits (off : Nat) (read : Bool) (s : State) : Bool :=
  (decide (0x201000 ≤ off ∧ off < 0x203000) && decide (2 ≤ s.g DRAM_SR_STATE))
    || (read && off == CHIP_FENCE && s.clk.held.any fun h => h.2.2.isSome)

def holdAccess (off be : Nat) (v : Option Word) (s : State) : State :=
  let s1 := if off = CHIP_FENCE then s else wake s
  { s1 with clk := { s1.clk with held := s1.clk.held ++ [(off, be, v)] } }

/-- A host read with its byte enables: it has the effects of a read of the whole register (R6). Accesses that no register
answers read as 0 (R3, R7, R26, R425). -/
def hostRead (off be : Nat) (s : State) : State :=
  let off := off / 4 * 4
  if s.dead then s
  else match s.access off with
    | .own => if accessWaits off true s then holdAccess off be none s else regRead off be s
    | .silent => s.answer off be 0
    | .absent => (s.chipErr CHIP_ERR_ABSENT_ACCESS off).answer off be 0
    | .unmapped => (s.chipErr CHIP_ERR_UNMAPPED off).answer off be 0

def execReadClear (off : BitVec 26) (be : Fin 16) (s : State) : Host.Outcome State Fault Refusal :=
  .next (hostRead off.toNat be s)

def execLowWordRead (off : BitVec 26) (be : Fin 16) (s : State) : Host.Outcome State Fault Refusal :=
  .next (hostRead off.toNat be s)

/-- A CHIP_FENCE read: every earlier write has taken effect here, and the count includes this read (R359). -/
def execFenceRead (be : Fin 16) (s : State) : Host.Outcome State Fault Refusal := .next (hostRead CHIP_FENCE be s)

/-! ## Accesses that no register answers (R3, R425) -/

/-- An access of `off`, where it is a unit absent on the part, or unmapped; another access is not this command. -/
def strayAccess (cls : AccessClass) (off be : Nat) (write : Bool) (s : State) : State :=
  let off := off / 4 * 4
  if s.access off ≠ cls then s else if write then hostAt off id s else hostRead off be s

def execAbsentUnitAccess (off : BitVec 26) (be : Fin 16) (write : Bool) (s : State) : Host.Outcome State Fault Refusal :=
  .next (strayAccess .absent off.toNat be write s)

def execUnmappedAccess (off : BitVec 26) (be : Fin 16) (write : Bool) (s : State) : Host.Outcome State Fault Refusal :=
  .next (strayAccess .unmapped off.toNat be write s)

def execSparHostWrite (n : Fin 128) (v : Word) (s : State) : Host.Outcome State Fault Refusal :=
  .next (hostAt (SPAR_HOST n) (windowWrite (SPAR_HOST n) v) s)

end Sys2Proof.Machine
end

