-- ==== Sys2Proof/Machine/Crypto.lean ====
section
/-!
DEFINITION. The standards that R12 names for the rigging image's signature (spec/02_rigging.md R35, R36): SHA-384 (FIPS
180-4) and the verification of an ECDSA P-384 signature (FIPS 186-5). The spec names them and does not restate them
(assumption log 4). Arithmetic is on numbers below 2^64, below the field's prime and below the group's order.
-/

namespace Sys2Proof.Machine

/-! ## SHA-384 -/

namespace Sha

def rotr (k x : Nat) : Nat := x / 2 ^ k + x % 2 ^ k * 2 ^ (64 - k)
def low (x : Nat) : Nat := x % 2 ^ 64
def bigSigma0 (x : Nat) : Nat := Nat.xor (rotr 28 x) (Nat.xor (rotr 34 x) (rotr 39 x))
def bigSigma1 (x : Nat) : Nat := Nat.xor (rotr 14 x) (Nat.xor (rotr 18 x) (rotr 41 x))
def sigma0 (x : Nat) : Nat := Nat.xor (rotr 1 x) (Nat.xor (rotr 8 x) (x / 2 ^ 7))
def sigma1 (x : Nat) : Nat := Nat.xor (rotr 19 x) (Nat.xor (rotr 61 x) (x / 2 ^ 6))
def choose (e f g : Nat) : Nat := Nat.xor (Nat.land e f) (Nat.land (2 ^ 64 - 1 - e) g)
def majority (a b c : Nat) : Nat := Nat.xor (Nat.land a b) (Nat.xor (Nat.land a c) (Nat.land b c))

/-- The eight working words. -/
structure Regs where
  a : Nat
  b : Nat
  c : Nat
  d : Nat
  e : Nat
  f : Nat
  g : Nat
  h : Nat

/-- The initial words. -/
def start : Regs :=
  ⟨0xCBBB9D5DC1059ED8, 0x629A292A367CD507, 0x9159015A3070DD17, 0x152FECD8F70E5939,
    0x67332667FFC00B31, 0x8EB44A8768581511, 0xDB0C2E0D64F98FA7, 0x47B5481DBEFA4FA4⟩

/-- Round constants 0 to 19. -/
def round0 : List Nat := [
  0x428A2F98D728AE22, 0x7137449123EF65CD, 0xB5C0FBCFEC4D3B2F, 0xE9B5DBA58189DBBC,
  0x3956C25BF348B538, 0x59F111F1B605D019, 0x923F82A4AF194F9B, 0xAB1C5ED5DA6D8118,
  0xD807AA98A3030242, 0x12835B0145706FBE, 0x243185BE4EE4B28C, 0x550C7DC3D5FFB4E2,
  0x72BE5D74F27B896F, 0x80DEB1FE3B1696B1, 0x9BDC06A725C71235, 0xC19BF174CF692694,
  0xE49B69C19EF14AD2, 0xEFBE4786384F25E3, 0x0FC19DC68B8CD5B5, 0x240CA1CC77AC9C65]

/-- Round constants 20 to 39. -/
def round20 : List Nat := [
  0x2DE92C6F592B0275, 0x4A7484AA6EA6E483, 0x5CB0A9DCBD41FBD4, 0x76F988DA831153B5,
  0x983E5152EE66DFAB, 0xA831C66D2DB43210, 0xB00327C898FB213F, 0xBF597FC7BEEF0EE4,
  0xC6E00BF33DA88FC2, 0xD5A79147930AA725, 0x06CA6351E003826F, 0x142929670A0E6E70,
  0x27B70A8546D22FFC, 0x2E1B21385C26C926, 0x4D2C6DFC5AC42AED, 0x53380D139D95B3DF,
  0x650A73548BAF63DE, 0x766A0ABB3C77B2A8, 0x81C2C92E47EDAEE6, 0x92722C851482353B]

/-- Round constants 40 to 59. -/
def round40 : List Nat := [
  0xA2BFE8A14CF10364, 0xA81A664BBC423001, 0xC24B8B70D0F89791, 0xC76C51A30654BE30,
  0xD192E819D6EF5218, 0xD69906245565A910, 0xF40E35855771202A, 0x106AA07032BBD1B8,
  0x19A4C116B8D2D0C8, 0x1E376C085141AB53, 0x2748774CDF8EEB99, 0x34B0BCB5E19B48A8,
  0x391C0CB3C5C95A63, 0x4ED8AA4AE3418ACB, 0x5B9CCA4F7763E373, 0x682E6FF3D6B2B8A3,
  0x748F82EE5DEFB2FC, 0x78A5636F43172F60, 0x84C87814A1F0AB72, 0x8CC702081A6439EC]

/-- Round constants 60 to 79. -/
def round60 : List Nat := [
  0x90BEFFFA23631E28, 0xA4506CEBDE82BDE9, 0xBEF9A3F7B2C67915, 0xC67178F2E372532B,
  0xCA273ECEEA26619C, 0xD186B8C721C0C207, 0xEADA7DD6CDE0EB1E, 0xF57D4F7FEE6ED178,
  0x06F067AA72176FBA, 0x0A637DC5A2C898A6, 0x113F9804BEF90DAE, 0x1B710B35131C471B,
  0x28DB77F523047D84, 0x32CAAB7B40C72493, 0x3C9EBE0A15C9BEBC, 0x431D67C49C100D4C,
  0x4CC5D4BECB3E42B6, 0x597F299CFC657E2A, 0x5FCB6FAB3AD6FAEC, 0x6C44198C4A475817]


/-- The rounds left, by their constants, over the next sixteen schedule words and the working words. -/
def rounds : List Nat → List Nat → Regs → Regs
  | [], _, r => r
  | k :: ks, w, r =>
    let t1 := r.h + bigSigma1 r.e + choose r.e r.f r.g + k + w.headD 0
    let t2 := bigSigma0 r.a + majority r.a r.b r.c
    let next := low (sigma1 (w.getD 14 0) + w.getD 9 0 + sigma0 (w.getD 1 0) + w.headD 0)
    rounds ks (w.drop 1 ++ [next]) ⟨low (t1 + t2), r.a, r.b, r.c, low (r.d + t1), r.e, r.f, r.g⟩

/-- The sixteen words of a block of 128 bytes. -/
def blockWords (b : List Byte) : List Nat := (List.range 16).map fun i => beNat ((b.drop (8 * i)).take 8)

def block (b : List Byte) (r : Regs) : Regs :=
  let x := rounds (round0 ++ round20 ++ round40 ++ round60) (blockWords b) r
  ⟨low (r.a + x.a), low (r.b + x.b), low (r.c + x.c), low (r.d + x.d), low (r.e + x.e), low (r.f + x.f),
    low (r.g + x.g), low (r.h + x.h)⟩

/-- `n` blocks of a padded message. -/
def blocks : Nat → List Byte → Regs → Regs
  | 0, _, r => r
  | n + 1, b, r => blocks n (b.drop 128) (block b r)

/-- The message, a 1 bit, zeros and the message's length in bits. -/
def padded (m : List Byte) : List Byte :=
  m ++ [0x80] ++ List.replicate ((239 - m.length % 128) % 128) 0 ++ beBytes 16 (8 * m.length)

end Sha

/-- The SHA-384 digest of a byte string. -/
def sha384 (m : List Byte) : List Byte :=
  let p := Sha.padded m
  let r := Sha.blocks (p.length / 128) p Sha.start
  [r.a, r.b, r.c, r.d, r.e, r.f].flatMap (beBytes 8)

/-! ## ECDSA P-384 -/

namespace P384

/-- The field's prime. -/
def p : Nat := 2 ^ 384 - 2 ^ 128 - 2 ^ 96 + 2 ^ 32 - 1
/-- The group's order. -/
def n : Nat := 0xFFFFFFFFFFFFFFFFFFFFFFFFFFFFFFFFFFFFFFFFFFFFFFFFC7634D81F4372DDF581A0DB248B0A77AECEC196ACCC52973
/-- The curve's constant, in y^2 = x^3 - 3 x + b. -/
def b : Nat := 0xB3312FA7E23EE7E4988E056BE3F82D19181D9C6EFE8141120314088F5013875AC656398D8A2ED19D2A85C8EDD3EC2AEF
/-- The base point. -/
def gx : Nat := 0xAA87CA22BE8B05378EB1C71EF320AD746E1D3B628BA79B9859F741E082542A385502F25DBF55296C3A545E3872760AB7
def gy : Nat := 0x3617DE4A96262C6F5D9E98BF9292DC29F8F41DBD289A147CE9DA3113B5F0B8C00A60B1CE1D7E819D7A431D7C90EA0E5F

/-- A point (x / z^2, y / z^3); the point at infinity where z is 0. -/
structure Pt where
  x : Nat
  y : Nat
  z : Nat

def mul (a c : Nat) : Nat := a * c % p
def sub (a c : Nat) : Nat := (a + p - c) % p

def double (q : Pt) : Pt :=
  let zz := mul q.z q.z
  let yy := mul q.y q.y
  let xyy := mul q.x yy
  let m := mul 3 (mul (sub q.x zz) ((q.x + zz) % p))
  let x := sub (mul m m) (mul 8 xyy)
  ⟨x, sub (mul m (sub (mul 4 xyy) x)) (mul 8 (mul yy yy)), mul 2 (mul q.y q.z)⟩

def add (q r : Pt) : Pt :=
  if q.z = 0 then r
  else if r.z = 0 then q
  else
    let qz := mul q.z q.z
    let rz := mul r.z r.z
    let u := mul q.x rz
    let s := mul q.y (mul rz r.z)
    let h := sub (mul r.x qz) u
    let d := sub (mul r.y (mul qz q.z)) s
    if h = 0 then (if d = 0 then double q else ⟨1, 1, 0⟩)
    else
      let hh := mul h h
      let hhh := mul hh h
      let v := mul u hh
      let x := sub (sub (mul d d) hhh) (mul 2 v)
      ⟨x, sub (mul d (sub v x)) (mul s hhh), mul h (mul q.z r.z)⟩

/-- `a` doubled and added to by the low `k` bits of u and v, which ends at 2^k a + u g + v q; `gq` is g + q. -/
def combine (u v : Nat) (g q gq : Pt) : Nat → Pt → Pt
  | 0, a => a
  | k + 1, a =>
    let a2 := double a
    let bits := u / 2 ^ k % 2 + 2 * (v / 2 ^ k % 2)
    combine u v g q gq k (if bits = 0 then a2 else if bits = 1 then add a2 g else if bits = 2 then add a2 q else add a2 gq)

/-- `r` squared and multiplied by `a` modulo `m`, by the low `k` bits of `e`. -/
def power (m a e : Nat) : Nat → Nat → Nat
  | 0, r => r
  | k + 1, r => power m a e k (if e / 2 ^ k % 2 = 1 then r * r % m * a % m else r * r % m)

/-- The inverse modulo a prime of 384 bits. -/
def inverse (m a : Nat) : Nat := power m a (m - 2) 384 1

/-- A public key names a point of the curve: 0x04, x, y. -/
def keyOk (k : List Byte) : Bool :=
  let x := beNat ((k.drop 1).take 48)
  let y := beNat ((k.drop 49).take 48)
  k.headD 0 == 4 && decide (x < p ∧ y < p) && mul y y == (mul x (mul x x) + sub b (mul 3 x)) % p

end P384

/-- An ECDSA P-384 signature, r then s, of a digest verifies with a public key. -/
def ecdsaP384 (key digest sig : List Byte) : Bool :=
  let r := beNat (sig.take 48)
  let s := beNat ((sig.drop 48).take 48)
  if r = 0 ∨ P384.n ≤ r ∨ s = 0 ∨ P384.n ≤ s ∨ P384.keyOk key = false then false
  else
    let w := P384.inverse P384.n s
    let u := beNat digest * w % P384.n
    let v := r * w % P384.n
    let g : P384.Pt := ⟨P384.gx, P384.gy, 1⟩
    let q : P384.Pt := ⟨beNat ((key.drop 1).take 48), beNat ((key.drop 49).take 48), 1⟩
    let t := P384.combine u v g q (P384.add g q) 384 ⟨1, 1, 0⟩
    t.z != 0 && P384.mul t.x (P384.inverse P384.p (P384.mul t.z t.z)) % P384.n == r

end Sys2Proof.Machine
end

