-- ==== Sys2Proof/Machine/Image.lean ====
section
/-!
DEFINITION. The rigging image as the device reads it (spec/02_rigging.md R28-R36, R46, R48, R450; section contents also
R321, R347, R356, R357, R377-R380): its layout, and every check of R37.
-/

namespace Sys2Proof.Machine

/-! ## Layout (R28, R29) -/

namespace Rj
/-- Reject causes (R37). -/
def none : Nat := 0
def noImage : Nat := 1
def size : Nat := 2
def format : Nat := 3
def major : Nat := 4
def minor : Nat := 5
def part : Nat := 6
def revision : Nat := 7
def key : Nat := 8
def signature : Nat := 9
def content : Nat := 10
end Rj

/-- A directory entry: type, offset, length. -/
structure Sect where
  ty : Nat
  off : Nat
  len : Nat
  deriving DecidableEq, Repr

def imgLen (b : List Byte) : Nat := bytesAt b 8 4
def imgMinimal (b : List Byte) : Bool := bytesAt b 0x10 4 % 2 == 1

def dirEntry (b : List Byte) (i : Nat) : Sect :=
  { ty := bytesAt b (0x40 + 12 * i) 1, off := bytesAt b (0x44 + 12 * i) 4, len := bytesAt b (0x48 + 12 * i) 4 }

/-- The entries in use. -/
def imgDir (b : List Byte) : List Sect := (List.range (min 16 (bytesAt b 0x20 1))).map (dirEntry b)

/-- The bytes of a section, none where the image has none. -/
def sect? (b : List Byte) (ty : Nat) : Option (List Byte) :=
  ((imgDir b).find? (·.ty == ty)).map fun e => (b.drop e.off).take e.len

def sect (b : List Byte) (ty : Nat) : List Byte := (sect? b ty).getD []

/-- The whole records of `size` bytes of a section. -/
def recsOf (b : List Byte) (size : Nat) : List (List Byte) :=
  (List.range (b.length / size)).map fun i => (b.drop (i * size)).take size

/-- Whether a list has no value twice. -/
def distinctB {α : Type} [DecidableEq α] : List α → Bool
  | [] => true
  | a :: r => !r.contains a && distinctB r

/-- Entries in rising order without overlap. R29 asks for ascending order of OFFSET; two entries may have one OFFSET
where the earlier is empty (DESIGN CHOICE, assumption log 77). -/
def ascending : List Sect → Bool
  | a :: b :: r => decide (a.off + a.len ≤ b.off ∧ a.off ≤ b.off) && ascending (b :: r)
  | _ => true

/-- The record size of a section of records (R31); 0 for the others. -/
def recSize (ty : Nat) : Nat :=
  if ty = 4 then 2 else if ty = 2 ∨ ty = 3 ∨ ty = 5 ∨ ty = 6 ∨ ty = 0xA then 8 else 0

/-! ## The checks that the HEADER decides (R37 checks 1-7) -/

/-- Check 5, the part the HEADER decides. -/
def headerFormat (b : List Byte) : Bool :=
  let n := bytesAt b 0x20 1
  let d := imgDir b
  let types := d.map (·.ty)
  let mini := imgMinimal b
  decide (bytesAt b 6 2 = 256 ∧ 2 ≤ n ∧ n ≤ 16 ∧ bytesAt b 0x10 4 < 2 ∧ bytesAt b 0xF 1 ≤ 3)
  && [0xA0, 0xA1, 0xB0].contains (bytesAt b 0xE 1)
  && zeroAt b 0x21 31
  && ((List.range 16).all fun i => zeroAt b (0x41 + 12 * i) 3 && (decide (i < n) || zeroAt b (0x40 + 12 * i) 12))
  && (d.head? == some ⟨1, 0, 256⟩)
  && distinctB types
  && (types.all fun t => [1, 2, 3, 4, 5, 6, 7, 8, 9, 0xA, 0xF].contains t)
  && (d.all fun e => e.off % 16 == 0)
  && ascending d
  && (match d.getLast? with
      | some e => e.ty == 0xF && e.len == 208 && e.off + e.len == imgLen b
      | none => false)
  && ([2, 3, 5, 8, 9].all fun t => types.contains t)
  && (mini || (types.contains 4 && types.contains 6))
  && !(mini && types.contains 7)
  && (d.all fun e => (recSize e.ty == 0 || e.len % recSize e.ty == 0) && (e.ty != 5 || e.len == 8))

/-- Check 5, the SIGNATURE section's part: SIG_FORMAT and the zero bytes. -/
def sigFormat (b : List Byte) : Bool :=
  let g := sect b 0xF
  g.length == 208 && bytesAt g 0 4 == 1 && zeroAt g 4 4 && zeroAt g 0x69 7

def revOrder (r : Nat) : Nat := if r = 0xA0 then 0 else if r = 0xA1 then 1 else 2

/-- Checks 1 to 5, `fmt` standing for check 5. -/
def headCause5 (s : State) (b : List Byte) (fmt : Bool) : Nat :=
  if bytesAt b 0 4 ≠ 0x47524C4D then Rj.noImage
  else if imgLen b > (if imgMinimal b then 65536 else 8388608) then Rj.size
  else if bytesAt b 5 1 ≠ 2 then Rj.major
  else if bytesAt b 4 1 > (if s.rev = .a0 then 1 else 3) then Rj.minor
  else if !fmt then Rj.format
  else Rj.none

/-- Checks 6 and 7. -/
def headCause7 (s : State) (b : List Byte) : Nat :=
  if bytesAt b 0xC 2 ≠ s.part.id then Rj.part
  else if revOrder (bytesAt b 0xE 1) > revOrder s.rev.code then Rj.revision
  else Rj.none

/-- The cause a HEADER alone gives (R38). -/
def headerCause (s : State) (b : List Byte) : Nat :=
  let c := headCause5 s b (headerFormat b)
  if c ≠ 0 then c else headCause7 s b

/-! ## PINMAP (R450, R444, R449, R48) -/

/-- The ball number of FIOn (R449). -/
def fioBall (n : Nat) : Nat :=
  let i := n % 16
  let j := 18 * (n / 16) + (if i < 8 then 1 + i else 2 + i)
  (13 + j / 10) * 41 + [30, 31, 32, 33, 34, 36, 37, 38, 39, 40].getD (j % 10) 0 - 1

/-- The FIO index of a ball. -/
def fioOf (ball : Nat) : Option Nat := (List.range 128).find? fun n => fioBall n == ball

/-- A PINMAP record. -/
structure Pin where
  ball : Nat
  cls : Nat
  inst : Nat
  sig : Nat
  pad : Nat
  zero : Nat
  deriving DecidableEq, Repr

def pinOf (r : List Byte) : Pin := ⟨bytesAt r 0 2, bytesAt r 2 1, bytesAt r 3 1, bytesAt r 4 1, bytesAt r 5 1, bytesAt r 6 2⟩

def isBankRec (p : Pin) : Bool := p.ball == 0xFFFF && p.cls == 0xFF

/-- Units present and signals of a function class (R450, R1). -/
def classSize (part : Part) (cls : Nat) : Nat × Nat :=
  match cls with
  | 0x01 => (part.stations, 8)
  | 0x10 => (part.foc, 7)
  | 0x11 => (8, 1)
  | 0x12 => (part.axes, 7)
  | 0x16 => (32, 3)
  | 0x17 => (8, 1)
  | 0x20 => (part.csi, 10)
  | 0x31 => (64, 1)
  | 0x50 => (32, 2)
  | 0x59 => (8, 1)
  | 0x5A => (32, 2)
  | 0x5B => (64, 1)
  | 0x5C => (8, 1)
  | _ => (0, 0)

/-- The balls of a grid region: rows and columns from 0. -/
def ballsOf (r0 r1 c0 c1 : Nat) : List Nat :=
  (List.range (r1 - r0)).flatMap fun r => (List.range (c1 - c0)).map fun c => (r0 + r) * 41 + c0 + c

/-- The code of a fixed signal. -/
def fixedUse (cls inst sig : Nat) : Nat := 2 + cls * 65536 + inst * 256 + sig

/-- The PINMAP signals of a region of R444, a MIO ball as 1: 0 north, 1 north-east, 2 west. -/
def usesOf (region : Nat) : List Nat :=
  match region with
  | 0 => (List.range 8).flatMap fun n => (List.range 6).map fun g => fixedUse 1 n g
  | 1 => (List.range 4).flatMap fun p => (List.range 10).map fun g => fixedUse 0x20 p g
  | _ => List.replicate 72 1 ++ (List.range 8).flatMap fun n => [fixedUse 1 n 6, fixedUse 1 n 7]

/-- Each signal of a region takes one ball of those left there. -/
def spread (region : Nat) : Nat → List Nat → List Nat → List (Nat × Nat)
  | _, [], _ => []
  | i, u :: us, left =>
    let b := left.getD (Config.ballPick region i % left.length) 0
    (b, u) :: spread region (i + 1) us (left.erase b)

/-- What a ball outside the FIO banks carries: 0 no PINMAP signal, 1 a MIO ball, else the code of its fixed signal (R444,
R445). -/
def ballUse (ball : Nat) : Nat :=
  let row := ball / 41
  let col := ball % 41
  let l := if row < 13 then (if col < 13 then [] else if col < 28 then spread 0 0 (usesOf 0) (ballsOf 0 13 13 28)
      else spread 1 0 (usesOf 1) (ballsOf 0 13 28 41))
    else if row < 28 ∧ col < 13 then spread 2 0 (usesOf 2) (ballsOf 13 28 0 13)
    else []
  ((l.find? fun p => p.1 == ball).map (·.2)).getD 0

/-- Whether a ball offers a signal: a FIO or MIO ball any pool signal; a station or CSI signal its own ball. -/
def ballOffers (p : Pin) : Bool :=
  if p.cls = 1 ∨ p.cls = 0x20 then ballUse p.ball == fixedUse p.cls p.inst p.sig
  else (fioOf p.ball).isSome || ballUse p.ball == 1

/-- A differential ball. -/
def diffPin (p : Pin) : Bool := (p.cls == 1 && decide (p.sig < 6)) || p.cls == 0x20

/-- One PINMAP record by itself. -/
def pinOk (part : Part) (p : Pin) : Bool :=
  p.zero == 0 &&
    (if p.ball = 0xFFFF ∨ p.cls = 0xFF then isBankRec p && decide (p.inst < 8 ∧ p.sig < 2 ∧ p.pad = 0)
     else decide (p.ball < 1681 ∧ p.inst < (classSize part p.cls).1 ∧ p.sig < (classSize part p.cls).2 ∧ p.pad < 32)
      && ballOffers p && (!diffPin p || p.pad == 0))

/-- PINMAP as a whole, and the MINIMAL limits of R30: no station, no HV channel, and no CSI port, which its clock pair
maps. -/
def pinmapOk (part : Part) (mini : Bool) (pins : List Pin) : Bool :=
  let us := pins.filter fun p => !isBankRec p
  let sigs := us.map fun p => (p.cls, p.inst, p.sig)
  pins.all (pinOk part)
  && distinctB (us.map (·.ball)) && distinctB sigs
  && distinctB ((pins.filter isBankRec).map (·.inst))
  && (us.all fun p => p.cls != 1 || (List.range 8).all fun g => sigs.contains (1, p.inst, g))
  && (us.all fun p => p.cls != 0x20 || sigs.contains (0x20, p.inst, if p.sig % 2 = 0 then p.sig + 1 else p.sig - 1))
  && (!mini || us.all fun p => p.cls != 1 && p.cls != 0x16 && !(p.cls == 0x20 && decide (p.sig < 2)))

/-- The signals PINMAP places. -/
def pinSigs (pins : List Pin) : List (Nat × Nat × Nat) :=
  (pins.filter fun p => !isBankRec p).map fun p => (p.cls, p.inst, p.sig)

def imgStations (pins : List Pin) : Bool := pins.any fun p => p.cls == 1
def imgCsi (pins : List Pin) : Bool := pins.any fun p => p.cls == 0x20 && p.sig == 0

/-! ## ISLANDS (R31, R32, R346, R347, R356, R357, R378) -/

/-- An ISLANDS record. -/
structure Isl where
  isl : Nat
  src : Nat
  div : Nat
  khz : Nat
  deriving DecidableEq, Repr

def islOf (r : List Byte) : Isl := ⟨bytesAt r 0 1, bytesAt r 1 1, bytesAt r 2 2, bytesAt r 4 4⟩

def isPll (r : Isl) : Bool := decide (0xF1 ≤ r.isl ∧ r.isl ≤ 0xF3)

/-- The PLL index of a PLL record. -/
def pllOf (r : Isl) : Nat := if r.isl = 0xF1 then 1 else r.isl - 0xE8

/-- f_pfd of a reference mode, kHz. -/
def pfdKhz (mode : Nat) : Nat := if mode = 0 then 50000 else if mode = 1 then 100000 else 25000

/-- log2 of ODIV: the smallest that places the VCO at 3,200 MHz or above (R346). -/
def odivLog (khz : Nat) : Nat :=
  if 3200000 ≤ khz then 0 else if 3200000 ≤ 2 * khz then 1 else if 3200000 ≤ 4 * khz then 2
  else if 3200000 ≤ 8 * khz then 3 else if 3200000 ≤ 16 * khz then 4 else 5

def pllRecOk (r : Isl) : Bool :=
  decide (r.src ≤ 2 ∧ r.div = 1 ∧ 4 * pfdKhz r.src ≤ r.khz ∧ r.khz < 256 * pfdKhz r.src)
  && decide (3200000 ≤ r.khz * 2 ^ odivLog r.khz ∧ r.khz * 2 ^ odivLog r.khz ≤ 7200000)
  && (if r.isl = 0xF1 then decide (2400000 ≤ r.khz ∧ r.khz ≤ 4000000) else decide (100000 ≤ r.khz ∧ r.khz ≤ 3600000))

/-- The output a PLL record sets, kHz. -/
def pllKhz (rs : List Isl) (p d : Nat) : Nat :=
  match rs.find? fun r => isPll r && pllOf r == p with | some r => r.khz | none => d

def ddrKhz (rs : List Isl) : Nat := pllKhz rs 1 3200000

/-- The frequency of a source other than a PXPLL, kHz. -/
def srcKhz (rs : List Isl) (src : Nat) : Nat :=
  if src = 0 then 2000000 else if src = 1 then ddrKhz rs else if src = 12 then 50000 else pllKhz rs src 0

/-- The highest frequency of an island, kHz (R356). -/
def islMax (i : Nat) : Nat :=
  if i = 0 then 125000 else if i ≤ 2 then 50000 else if i = 3 then 250000 else if i ≤ 6 then 1000000
  else if i ≤ 8 then 500000 else if i ≤ 17 then 1000000 else if i = 18 then 800000
  else if i = 23 then 200000 else 250000

def islPresent (part : Part) (i : Nat) : Bool :=
  if i = 5 then decide (2 ≤ part.ddr)
  else if 10 ≤ i ∧ i ≤ 17 then decide (i - 10 < part.stations)
  else if i = 18 then decide (0 < part.csi)
  else if 24 ≤ i then decide (i - 24 < part.foc)
  else true

/-- A fixed island's source and divider (R357). -/
def fixedIsl (i : Nat) : Option (Nat × Nat) :=
  if i = 0 then some (0, 16) else if i = 1 ∨ i = 2 then some (12, 1) else if i = 3 then some (0, 8) else none

def islRecOk (part : Part) (rs : List Isl) (r : Isl) : Bool :=
  if isPll r then pllRecOk r
  else
    decide (r.isl < 48 ∧ r.src ≤ 12 ∧ 1 ≤ r.div ∧ r.div ≤ 1024)
    && islPresent part r.isl
    && (match fixedIsl r.isl with | some f => (r.src, r.div) == f | none => true)
    && (decide (r.isl ≠ 4 ∧ r.isl ≠ 5) || (r.src == 1 && r.div == 4))
    && (if 2 ≤ r.src ∧ r.src ≤ 9 then
          r.isl == 8 + r.src && decide (400000 ≤ r.khz * r.div ∧ r.khz * r.div ≤ 900000 ∧ 900000 ≤ islMax r.isl * r.div)
        else
          decide (r.khz * r.div ≤ srcKhz rs r.src + r.div ∧ srcKhz rs r.src ≤ r.khz * r.div + r.div ∧ r.khz ≤ islMax r.isl))

def islandsOk (part : Part) (rate : Nat) (rs : List Isl) : Bool :=
  distinctB (rs.map (·.isl)) && rs.all (islRecOk part rs) && ddrKhz rs == rate * 500

/-- The frequency an island will have, kHz: its record's, else the boot clock. -/
def islKhz (rs : List Isl) (i : Nat) : Nat :=
  match rs.find? fun r => r.isl == i with | some r => r.khz | none => 125000

/-! ## SRAMPART, DRAMMAP (R31, R32) -/

/-- The owner of bank `b`: named, or the default. -/
def bankOwner (part : Part) (rs : List (Nat × Nat)) (b : Nat) : Nat :=
  match rs.find? fun r => r.1 == b with
  | some r => r.2
  | none => if part = .mlv9040 then 1 + b % 2 else 0

/-- Banks of an owner (0 VIS, n + 1 station n). -/
def banksOf (part : Part) (rs : List (Nat × Nat)) (o : Nat) : Nat :=
  ((List.range 16).filter fun b => bankOwner part rs b == o).length

def sramRecs (b : List Byte) : List (Nat × Nat) := (recsOf (sect b 4) 2).map fun r => (bytesAt r 0 1, bytesAt r 1 1)

def sramOk (part : Part) (csi : Bool) (rs : List (Nat × Nat)) : Bool :=
  distinctB (rs.map (·.1))
  && (rs.all fun r => decide (r.1 < 16 ∧ r.2 ≤ part.stations) && !(part == .mlv9040 && r.2 == 0))
  && (!csi || decide (4 ≤ banksOf part rs 0))

def drammapOk (r : List Byte) : Bool :=
  decide (bytesAt r 0 1 ≤ 3 ∧ 6 ≤ bytesAt r 5 1 ∧ bytesAt r 5 1 ≤ 14 ∧ bytesAt r 1 1 ≠ 0)
  && ((List.range 4).all fun i => decide (bytesAt r (1 + i) 1 ≤ 15)) && zeroAt r 6 2

/-! ## SPAR (R46) and the FIO banks (R47, R48) -/

def sparOk (part : Part) (rs : List Isl) (b : List Byte) : Bool :=
  let frames := bytesAt b 0x30 4
  decide (1 ≤ frames ∧ b.length = 64 + 256 * frames)
  && bytesAt b 0 1 == 1 && bytesAt b 1 1 == 0
  && decide (bytesAt b 2 2 ≤ part.cells ∧ bytesAt b 4 1 ≤ (if part = .mlv9040 then 16 else 32))
  && ((List.range 4).all fun i =>
      let k := bytesAt b (8 + 4 * i) 4
      k == 0 || decide (1000 ≤ k ∧ k ≤ 200000 ∧ k ≤ islKhz rs 23))
  && Nat.land (bytesAt b 6 1) (bytesAt b 5 1) == bytesAt b 6 1
  && bytesAt b 0x34 4 == (crc32c (b.drop 64)).toNat
  && zeroAt b 7 1 && zeroAt b 0x38 8

/-- The declared voltage of a bank: none, or whether 3.3 V, from a bank record or from SPAR. -/
def bankVolt (pins : List Pin) (spar : Option (List Byte)) (k : Nat) : Option Bool :=
  match pins.find? fun p => isBankRec p && p.inst == k with
  | some p => some (p.sig == 1)
  | none => match spar with
    | some b => if bitsOf (bytesAt b 5 1) k 1 = 1 then some (bitsOf (bytesAt b 6 1) k 1 == 1) else none
    | none => none

/-- R48: one voltage for a bank declared in both places, and every bank in use declared; and no FIO ball used by the
fabric that PINMAP gives to a unit signal (R32). -/
def fioOk (pins : List Pin) (spar : Option (List Byte)) : Bool :=
  let use := match spar with | some b => bytesAt b 0x18 16 | none => 0
  let fios := (pins.filter fun p => !isBankRec p).filterMap fun p => fioOf p.ball
  ((List.range 8).all fun k =>
    (match pins.find? (fun p => isBankRec p && p.inst == k), spar with
     | some p, some b => bitsOf (bytesAt b 5 1) k 1 == 0 || bitsOf (bytesAt b 6 1) k 1 == p.sig
     | _, _ => true)
    && (bitsOf use (16 * k) 16 == 0 || (bankVolt pins spar k).isSome))
  && (fios.all fun n => (bankVolt pins spar (n / 16)).isSome && bitsOf use n 1 == 0)

/-! ## HALYARD (R34) -/

def halOf (r : List Byte) : Route := ⟨bytesAt r 0 1, bytesAt r 1 2, bytesAt r 3 1, bytesAt r 4 2, bytesAt r 6 1, bytesAt r 7 1⟩

/-- Instances of a halyard block class on a part. -/
def halInsts (part : Part) (cls : Nat) : Nat :=
  match cls with
  | 0x02 => 1 | 0x10 => part.foc | 0x12 => part.axes | 0x13 => 8 | 0x19 => 1 | 0x31 => 64 | 0x56 => 32 | 0x58 => 1
  | 0x59 => 8 | _ => 0

/-- The kinds a source event allows: pulse, level. -/
def halSource (cls ev : Nat) : Bool × Bool :=
  if cls = 0x02 then
    (if ev = 0 ∨ ev = 2 then (false, true) else if ev = 1 ∨ (16 ≤ ev ∧ ev ≤ 31) then (true, false) else (false, false))
  else if cls = 0x19 then (decide (ev < 32), decide (ev < 32))
  else if [0x10, 0x12, 0x13, 0x31, 0x56, 0x58, 0x59].contains cls then (ev == 0, false)
  else (false, false)

/-- Sink inputs of a class, all of them reachable from the fabric but the fabric's own. -/
def halSinks (cls : Nat) : Nat :=
  match cls with
  | 0x02 => 2 | 0x12 => 1 | 0x13 => 1 | 0x19 => 32 | 0x31 => 1 | 0x58 => 8 | _ => 0

def halOk1 (part : Part) (out_ in_ : Nat) (h : Route) : Bool :=
  let c := h.src / 256
  let k := h.sink / 256
  let m := halSource c h.ev
  decide (h.src % 256 < halInsts part c) && (if h.mode = 0 then m.1 else h.mode == 1 && m.2)
  && (c != 0x19 || bitsOf out_ h.ev 1 == 1)
  && (if h.sink = 0xFFFF then decide (h.inp < 8 ∧ h.src = 0x0200 ∧ h.ev = 2 ∧ h.mode = 1)
      else decide (h.sink % 256 < halInsts part k ∧ h.inp < halSinks k)
        && (k != 0x19 || (bitsOf in_ h.inp 1 == 1 && c != 0x19)))

def halyardOk (part : Part) (stations : Bool) (spar : Option (List Byte)) (hs : List Route) : Bool :=
  let out_ := match spar with | some b => bytesAt b 0x28 4 | none => 0
  let in_ := match spar with | some b => bytesAt b 0x2C 4 | none => 0
  let spoils := hs.filter fun h => h.sink == 0xFFFF
  hs.all (halOk1 part out_ in_)
  && (hs.all fun a => hs.all fun b => a.line != b.line || (a.src == b.src && a.ev == b.ev))
  && decide (spoils.length ≤ 1) && (!stations || decide (spoils.length = 1))

/-! ## SEQ and TRAIN (R321, R379, R380) -/

/-- The program words of SEQ or TRAIN after a header of `h` bytes. -/
def progWords (b : List Byte) (h : Nat) : List Nat := (List.range (bytesAt b 2 2)).map fun i => bytesAt b (h + 4 * i) 4

def seqWordOk (sigs : List (Nat × Nat × Nat)) (steps w : Nat) : Bool :=
  let a := w % 2 ^ 28
  let en := fun r => sigs.contains (0x50, r, 0)
  let any := fun r => en r || sigs.contains (0x50, r, 1)
  match w / 2 ^ 28 with
  | 0 => a == 0
  | 1 => decide (a < 32) && en a
  | 2 => decide (a < 32) && en a
  | 3 => decide (1 ≤ a ∧ a < 2 ^ 24)
  | 4 => decide (a < 2 ^ 25 ∧ a % 2 ^ 20 ≠ 0) && any (bitsOf a 20 5)
  | 5 => true
  | 6 =>
    let cond := bitsOf a 24 3
    let arg := bitsOf a 16 8
    let t := a % 256
    bitsOf a 8 8 == 0 && decide (t < steps) && (bitsOf a 27 1 == 0 || t == 0)
      && (match cond with
          | 0 => arg == 0
          | 1 => arg == 0
          | 2 => decide (arg < 32) && any arg
          | 3 => decide (arg < 32) && any arg
          | 4 => decide (arg ≤ 7)
          | 5 => decide (1 ≤ arg ∧ arg ≤ 7)
          | _ => false)
  | 7 => decide (a < 256 ∧ a < steps)
  | 8 => bitsOf a 27 1 == 0 && bitsOf a 20 4 == 0 && a % 2 ^ 20 != 0
  | 9 => decide (a < 256)
  | _ => false

def seqOk (sigs : List (Nat × Nat × Nat)) (b : List Byte) : Bool :=
  let n := bytesAt b 2 2
  bytesAt b 0 1 == 1 && bytesAt b 1 1 == 0 && decide (1 ≤ n ∧ n ≤ 256 ∧ b.length = 16 + 4 * n) && zeroAt b 4 12
  && ((progWords b 16).all (seqWordOk sigs n)) && ((progWords b 16).contains 0)

def trainWordOk (ranks w : Nat) : Bool :=
  let a := w % 2 ^ 28
  let rank := bitsOf a 24 2
  let rankOk := rank != 0 && (ranks == 2 || rank == 1)
  match w / 2 ^ 28 with
  | 0 => a == 0
  | 1 => bitsOf a 26 2 == 0 && a % 256 == 0 && rankOk
  | 2 => bitsOf a 16 8 == 0 && bitsOf a 4 4 == 0
      && decide (1 ≤ bitsOf a 24 4 ∧ bitsOf a 24 4 ≤ 8 ∧ 1 ≤ bitsOf a 8 8 ∧ bitsOf a 8 8 ≤ 63 ∧ a % 16 ≠ 0)
  | 3 => decide (1 ≤ a ∧ a < 2 ^ 24)
  | 4 => bitsOf a 26 2 == 0 && a % 2 ^ 24 == 0 && rankOk
  | _ => false

def trainOk (part : Part) (b : List Byte) : Bool :=
  let n := bytesAt b 2 2
  let rate := bytesAt b 4 2
  let ch := bytesAt b 6 1
  let ranks := bytesAt b 7 1
  bytesAt b 0 1 == 1 && bytesAt b 1 1 == 0 && decide (1 ≤ n ∧ n ≤ 256 ∧ b.length = 64 + 4 * n)
  && decide (4800 ≤ rate ∧ rate ≤ 8000 ∧ rate % 400 = 0 ∧ 1 ≤ ch ∧ ch < 2 ^ part.ddr ∧ (ranks = 1 ∨ ranks = 2))
  && [8, 16].contains (bytesAt b 8 1) && [8, 16, 24, 32].contains (bytesAt b 9 1)
  && decide (bytesAt b 0xA 1 < 4) && zeroAt b 0xB 1 && zeroAt b 0x28 24
  && ((List.range 13).all fun i => bytesAt b (0xC + 2 * i) 2 != 0) && bytesAt b 0x26 2 == 0
  && ((progWords b 64).all (trainWordOk ranks)) && ((progWords b 64).contains 0)

/-- log2 of installed DRAM in bytes (R384). -/
def installedLog (b : List Byte) : Nat :=
  let dens := bytesAt b 9 1
  13 + (if bytesAt b 6 1 = 3 then 1 else 0) + (if bytesAt b 8 1 = 8 then 3 else 2) + (if dens = 8 then 1 else 2)
    + (if dens = 32 then 17 else 16) + (bytesAt b 7 1 - 1)

/-! ## PRESET (R33) -/

def presetRecs (b : List Byte) : List (Nat × Nat) := (recsOf (sect b 0xA) 8).map fun r => (bytesAt r 0 4, bytesAt r 4 4)

def presetOk (part : Part) (r : Nat × Nat) : Bool :=
  r.1 % 4 == 0 && !inChipRegion r.1 && !decide (0x110000 ≤ r.1 ∧ r.1 ≤ 0x11FFFF) && !absentSpace part r.1

/-! ## The whole check (R37) -/

def imgPins (b : List Byte) : List Pin := (recsOf (sect b 2) 8).map pinOf
def imgIsls (b : List Byte) : List Isl := (recsOf (sect b 3) 8).map islOf
def imgHals (b : List Byte) : List Route := (recsOf (sect b 6) 8).map halOf
def imgRate (b : List Byte) : Nat := bytesAt (sect b 9) 4 2

/-- Check 10. -/
def contentOk (part : Part) (b : List Byte) : Bool :=
  let pins := imgPins b
  let isls := imgIsls b
  let spar := sect? b 7
  pinmapOk part (imgMinimal b) pins
  && trainOk part (sect b 9)
  && islandsOk part (imgRate b) isls
  && sramOk part (imgCsi pins) (sramRecs b)
  && drammapOk (sect b 5)
  && (match spar with | some x => sparOk part isls x | none => true)
  && fioOk pins spar
  && halyardOk part (imgStations pins) spar (imgHals b)
  && seqOk (pinSigs pins) (sect b 8)
  && (presetRecs b).all (presetOk part)

/-- The signed message: every byte before the SIGNATURE section (R35). -/
def imgMessage (b : List Byte) : List Byte := b.take (imgLen b - 208)

/-- R35. -/
def signatureOk (b : List Byte) : Bool :=
  let g := sect b 0xF
  ecdsaP384 ((g.drop 8).take 97) (sha384 (imgMessage b)) ((g.drop 0x70).take 96)

end Sys2Proof.Machine
end

