-- ==== Sys2Proof/Machine/Boot.lean ====
section
/-!
DEFINITION. Rigging: the boot source, the loads from flash, NVM and the host, the verification of an image and its
application (spec/01 R25; spec/02_rigging.md R28-R42; spec/16 R344-R348, R356; spec/18 R378-R384).
-/

namespace Sys2Proof.Machine

open Reg

namespace Rg
/-- States of CHIP_RIGSTAT. -/
def unrigged : Nat := 0
def loading : Nat := 1
def verifying : Nat := 2
def rigged : Nat := 3
def rejected : Nat := 4
/-- Sources of an image, as RIG_LOADSTAT.SRC encodes them. -/
def flash1 : Nat := 1
def flash2 : Nat := 2
def host : Nat := 3
def nvm : Nat := 4
end Rg

def rigState (s : State) : Nat := s.g CHIP_RIGSTAT_STATE

/-! ## Loads (R38-R40) -/

/-- A load from source `src` begins; a flash slot's with the Quad Output Fast Read of R38 at the slot's address. -/
def startLoad (src : Nat) (s : State) : State :=
  let s1 := (s.p CHIP_RIGSTAT_STATE Rg.loading).p CHIP_RIGSTAT_CAUSE 0
  let s2 := s1.pb CHIP_RIGSTAT_SLOT (src == Rg.flash2)
  let s3 : State := { s2 with rig := { s2.rig with load := src, hdr := none, stage := [], image := [] } }
  if src = Rg.flash1 then s3.emit (.qspi 0x6B 0)
  else if src = Rg.flash2 then s3.emit (.qspi 0x6B 0x800000)
  else s3

/-- The load ends with a rejection. -/
def rejectLoad (cause : Nat) (s : State) : State :=
  let s1 := ((s.p CHIP_RIGSTAT_STATE Rg.rejected).p CHIP_RIGSTAT_CAUSE cause).pb CHIP_RIGSTAT_SLOT false
  { s1 with rig := { s1.rig with load := 0, hdr := none, stage := [], image := [] } }

def bootSrc (s : State) : Nat := otpWord s 5 % 4

/-- An image is rejected: a primary slot gives way to the secondary, both to NVM where BOOT_SRC says so (R38, R39). -/
def reject (cause : Nat) (s : State) : State :=
  if s.rig.load = Rg.flash1 then startLoad Rg.flash2 (s.p RIG_LOADSTAT_CAUSE_PRI cause)
  else if s.rig.load = Rg.flash2 then
    let s1 := s.p RIG_LOADSTAT_CAUSE_SEC cause
    if s.rig.bootSrc = 3 then startLoad Rg.nvm s1 else rejectLoad cause s1
  else rejectLoad cause s

/-- Verification begins. -/
def verify (image : List Byte) (s : State) : State :=
  let s1 := s.p CHIP_RIGSTAT_STATE Rg.verifying
  { s1 with rig := { s1.rig with image := image } }

/-- SYSPLL locks (R25 step 2, R344), and the boot source is read, once for all loads up to the next reset. -/
def sysPllLock (refclk : Bool) (s : State) : State :=
  if s.rig.booted then s
  else
    let s1 := (s.pb CLK_REF_INPUT refclk).pb (CLK_PLL_STAT_LOCK 0) true
    let s2 := s1.p (CLK_PLL_STAT_BAND 0) ((bandFor s1 4000000000 1).getD 0)
    let s3 : State := { s2 with rig := { s2.rig with booted := true, bootSrc := bootSrc s2 } }
    if rigState s ≠ Rg.unrigged ∨ s3.rig.bootSrc = 1 then s3
    else startLoad (if s3.rig.bootSrc = 2 then Rg.nvm else Rg.flash1) s3

def execSyspllLock (refclk : Bool) (s : State) : Host.Outcome State Fault Refusal := .next (live (sysPllLock refclk) s)

/-- A flash slot is being read. -/
def flashLoading (s : State) : Bool :=
  rigState s == Rg.loading && (s.rig.load == Rg.flash1 || s.rig.load == Rg.flash2)

/-- The HEADER of a flash slot. A slot that it alone rejects goes from LOADING on to the next, with VERIFYING not shown of it
(DESIGN CHOICE, assumption log 97). -/
def headerRead (hdr : List Byte) (s : State) : State :=
  if !flashLoading s ∨ s.rig.hdr.isSome ∨ hdr.length ≠ 256 then s
  else
    let c := headerCause s hdr
    if c ≠ 0 then reject c (s.emit (.qspiEnd 256)) else { s with rig := { s.rig with hdr := some hdr } }

def execQspiHeaderRead (hdr : List (BitVec 8)) (s : State) : Host.Outcome State Fault Refusal :=
  .next (live (headerRead hdr) s)

/-- The rest of a flash slot's image, to IMG_LEN bytes in all. -/
def imageRead (rest : List Byte) (s : State) : State :=
  match s.rig.hdr with
  | some h =>
    if flashLoading s ∧ h.length + rest.length = imgLen h then verify (h ++ rest) (s.emit (.qspiEnd (imgLen h))) else s
  | none => s

def execQspiImageReadDone (rest : List (BitVec 8)) (s : State) : Host.Outcome State Fault Refusal :=
  .next (live (imageRead rest) s)

/-- The NVM rigging area has been read. -/
def nvmImageRead (s : State) : State :=
  if rigState s = Rg.loading ∧ s.rig.load = Rg.nvm then verify s.rig.nvmImage s else s

def execNvmImageReadDone (s : State) : Host.Outcome State Fault Refusal := .next (live nvmImageRead s)

/-! ## Host load (R40, R41) -/

def loadRefused (s : State) : State := s.pb RIG_LOADSTAT_REFUSED true

/-- OPEN is accepted (R41): UNRIGGED or REJECTED, no load under way, and the reading of the boot source, which comes
first in R25's order, behind (assumption log 33). -/
def openOk (s : State) : Bool :=
  s.rig.booted && (rigState s == Rg.unrigged || rigState s == Rg.rejected) && s.rig.load == 0

/-- OPEN. -/
def loadOpen (s : State) : State :=
  startLoad Rg.host { s with rig := { s.rig with prior := (rigState s, s.g CHIP_RIGSTAT_CAUSE) } }

/-- The first `n` bytes of the staging SRAM. -/
def staged (s : State) (n : Nat) : List Byte := (List.range n).map (bankGet 0 s.rig.stage)

/-- The staged image: as many bytes as its own HEADER says, where they fit the largest image; at least a HEADER. -/
def stagedImage (s : State) : List Byte :=
  let n := imgLen (staged s 12)
  staged s (if n ≤ 8388608 then max 256 n else 256)

/-- COMMIT is accepted with a DEST. -/
def commitTaken (s : State) (dest : Bool) : Bool :=
  hostLoading s && (!dest || (imgMinimal (staged s 32) && nvmWindow s))

/-- COMMIT: DEST and RIG_LOADLEN count as they are now. -/
def loadCommit (s : State) : State :=
  verify (stagedImage s) { s with rig := { s.rig with dest := s.on RIG_LOADCTRL_DEST, loadLen := s.g RIG_LOADLEN_LENGTH } }

/-- A write of RIG_LOADCTRL; a command that is not accepted has no effect, DEST included (R41). -/
def loadCtrlWrite (v : Word) (s : State) : State :=
  let o := fieldOf RIG_LOADCTRL_OPEN v
  let c := fieldOf RIG_LOADCTRL_COMMIT v
  let a := fieldOf RIG_LOADCTRL_ABANDON v
  let s1 := s.plainWrite RIG_LOADCTRL v
  if 1 < o + c + a then loadRefused s
  else if o = 1 then (if openOk s then loadOpen s1 else loadRefused s)
  else if c = 1 then (if commitTaken s (fieldOf RIG_LOADCTRL_DEST v == 1) then loadCommit s1 else loadRefused s)
  else if a = 1 then (if hostLoading s then loadRestore s1 else loadRefused s)
  else s1

def execRigOpen (v : Word) (s : State) : Host.Outcome State Fault Refusal := .next (hostAt RIG_LOADCTRL (loadCtrlWrite v) s)
def execRigCommit (v : Word) (s : State) : Host.Outcome State Fault Refusal := .next (hostAt RIG_LOADCTRL (loadCtrlWrite v) s)
def execRigAbandon (v : Word) (s : State) : Host.Outcome State Fault Refusal := .next (hostAt RIG_LOADCTRL (loadCtrlWrite v) s)

def inAperture (off : Nat) : Bool := decide (0x118000 ≤ off ∧ off < 0x120000)

/-- A word written through the aperture. -/
def apertureWrite (off : Nat) (v : Word) (s : State) : State :=
  if hostLoading s && inAperture off then
    let a := stageAt s off
    let st := (List.range 4).foldl (fun m i => bankPut 0 (a + i) ((leBytes 4 v.toNat).getD i 0) m) s.rig.stage
    { s with rig := { s.rig with stage := st } }
  else s

/-- A write of the aperture register at `off`; elsewhere it is not this command. -/
def apertureAt (off : Nat) (v : Word) (s : State) : State :=
  if inAperture off then hostAt off (apertureWrite off v) s else s

def execApertureWrite (off : BitVec 26) (v : Word) (s : State) : Host.Outcome State Fault Refusal :=
  .next (apertureAt (off.toNat / 4 * 4) v s)

/-! ## Verification (R35-R37) -/

/-- A key setting has been written: the device is provisioned. -/
def provisioned (s : State) : Bool := (List.range 4).any fun i => (otpValue s i).isSome

/-- R36, where the device is provisioned. -/
def keyOk (s : State) (b : List Byte) : Bool :=
  let k := bytesAt b 0xF 1
  match otpValue s k with
  | some w => bitsOf (otpWord s 4) k 1 == 0 && w.flatMap (leBytes 4) == sha384 (((sect b 0xF).drop 8).take 97)
  | none => false

/-- The first check of R37 that an image fails, 0 for none. -/
def imageCause (s : State) (b : List Byte) : Nat :=
  let fmt := headerFormat b && sigFormat b && (s.rig.load != Rg.nvm || imgMinimal b)
  let c := headCause5 s b fmt
  if c = Rj.noImage then c
  else if s.rig.load = Rg.host ∧ imgLen b ≠ s.rig.loadLen then Rj.size
  else if c ≠ 0 then c
  else if headCause7 s b ≠ 0 then headCause7 s b
  else if provisioned s && !keyOk s b then Rj.key
  else if !signatureOk b then Rj.signature
  else if !contentOk s.part b then Rj.content
  else Rj.none

/-! ## Application (R33, R25 step 4) -/

/-- A PLL set by a record starts towards `khz`. -/
def pllSet (p mode khz : Nat) (s : State) : State :=
  let s1 := ((s.pb (CLK_PLL_STAT_RUN p) true).p (CLK_PLL_STAT_ODIV p) (odivLog khz)).p (CLK_PLL_STAT_REFMODE p) mode
  calibrate p (s1.p (CLK_PLL_FREQ_KHZ p) khz)

/-- DDRPLL, 3,200 MHz without a record, and the AUXPLLs that have one (R347). -/
def applyPlls (rs : List Isl) (s : State) : State :=
  let s1 := if rs.any (fun r => isPll r && pllOf r == 1) then s else pllSet 1 0 3200000 s
  (rs.filter isPll).foldl (fun s r => pllSet (pllOf r) r.src r.khz s) s1

/-- The islands an image names, with DDR0 and DDR1 at DDRPLL / 4 (R378): island, source, divider, kHz. -/
def islandsOf (p : Part) (rs : List Isl) : List (Nat × Nat × Nat × Nat) :=
  let named := (rs.filter fun r => !isPll r).map fun r => (r.isl, r.src, r.div, r.khz)
  let ddr := ([4, 5].filter fun i => islPresent p i && !(named.any fun r => r.1 == i)).map fun i =>
    (i, 1, 4, ddrKhz rs / 4)
  named ++ ddr

/-- Islands on SYSPLL and the reference switch at once; the others once their source has locked. -/
def applyIslands (s : State) : State :=
  s.rig.isls.foldl (fun s r => if r.2.1 = 0 ∨ r.2.1 = 12 then islOn r.1 r.2.1 r.2.2.2 s else s) s

/-- The DRAM map, the TRAIN program, the admission budget that follows from them. -/
def applyDram (b : List Byte) (ids : Nat) (s : State) : State :=
  let t := sect b 9
  let m := sect b 5
  let ch := bytesAt t 6 1
  let rate := bytesAt t 4 2 / 100
  let s1 := ((s.p DRAM_CFG_INSTALLED (2 ^ installedLog t / 2 ^ 30)).p DRAM_CFG_K (bytesAt m 5 1)).p DRAM_CFG_ORDER (bytesAt m 0 1)
  let s2 := ((s1.p DRAM_CFG_CHANNELS ch).pb DRAM_CFG_RANKS2 (bytesAt t 7 1 == 2)).pb DRAM_CFG_X16 (bytesAt t 8 1 == 16)
  let s3 := (s2.p DRAM_CFG_DENSITY (bytesAt t 9 1)).p DRAM_CFG_RATE rate
  let fl := bytesAt t 0xA 1
  let s4 := overN 2 (fun n s =>
    if bitsOf ch n 1 = 1 then
      (s.pb (DDR_STAT_DRFM n) (bitsOf fl 0 1 == 1)).pb (DDR_STAT_SAMEBANK n) (bitsOf fl 1 1 == 1)
    else s) s3
  let s5 := s4.p PSQ_BUDGET_DRAM (rate * 8 * (bitsOf ch 0 1 + bitsOf ch 1 1) * 7 / 10)
  { s5 with dram := { s5.dram with header := t.take 64, prog := progWords t 64, ids := ids,
                                   weights := (List.range 4).map fun i => bytesAt m (1 + i) 1 } }

/-- The power sequencer's program. -/
def applySeq (b : List Byte) (s : State) : State :=
  let w := progWords (sect b 8) 16
  overN 256 (fun i s => s.p (PWR_PROG_WORD i) (w.getD i 0)) s

/-- The spar fabric and the FIO banks (R46, R48). -/
def applySpar (b : List Byte) (s : State) : State :=
  let spar := sect? b 7
  let pins := imgPins b
  let volts := sumN ((List.range 8).map fun k => if bankVolt pins spar k = some true then 2 ^ k else 0)
  let s1 := s.p SPAR_STAT_BANK_3V3 volts
  match spar with
  | some x => (s1.pb SPAR_STAT_CONFIGURED true).p SPAR_STAT_CELLS_USED (bytesAt x 2 2)
  | none => s1

/-- A PRESET record sets the RW and RWL fields of its register (R33). -/
def preset (r : Nat × Nat) (s : State) : State :=
  match RegTable.find r.1 with
  | some (d, _) =>
    let v := sumN (d.bits.map fun x => if x.acc = .rw ∨ x.acc = .rwl then bitsOf r.2 x.lo x.w * 2 ^ x.lo else 0)
    regWrite r.1 (BitVec.ofNat 32 v) s
  | none => s

/-- The rigging unit's own record of the image. -/
def applyRig (b : List Byte) (s : State) : State :=
  let hals := imgHals b
  let pins := imgPins b
  let spoil := (hals.find? fun h => h.sink == 0xFFFF).map fun h => h.inp
  let rig := { s.rig with
    pins := pinSigs pins, pads := (pins.filter fun p => !isBankRec p).map fun p => (p.ball, p.pad, p.cls, p.inst, p.sig),
    routes := hals,
    sram := (List.range 16).map (bankOwner s.part (sramRecs b)), isls := islandsOf s.part (imgIsls b), spar := sect b 7,
    spoilTpo := spoil, load := 0, hdr := none, stage := [], image := [] }
  let s1 : State := { s with rig := rig }
  let s2 := match spoil with | some k => s1.pb (TPO_STAT_SPOIL k) true | none => s1
  overN s.part.stations (fun n s => s.p (STN_LBBYTES_BYTES n) (6291456 + 524288 * banksOf s.part (sramRecs b) (n + 1))) s2

/-- What RIG_LOADSTAT, RIG_IMGVER and CHIP_RIGSTAT say of the image. -/
def applyStatus (b : List Byte) (src : Nat) (s : State) : State :=
  let s1 := ((s.p RIG_LOADSTAT_FMT_MAJOR (bytesAt b 5 1)).p RIG_LOADSTAT_FMT_MINOR (bytesAt b 4 1)).p RIG_LOADSTAT_SRC src
  let s2 := (s1.pb RIG_LOADSTAT_UNPROVISIONED (!provisioned s)).p RIG_IMGVER_IMG_VERSION (bytesAt b 0x14 4)
  (s2.pb CHIP_RIGSTAT_MINIMAL (imgMinimal b)).pb CHIP_RIGSTAT_SLOT false

/-- The image is applied and locked, its presets last, and DRAM training begins once the islands are clocked (R25); `ids` are the identifiers of the DRAM
devices (R382). -/
def apply (b : List Byte) (ids : Nat) (s : State) : State :=
  let s1 := applyStatus b s.rig.load s
  let s2 := applyIslands (applyPlls (imgIsls b) (applyRig b s1))
  let s3 := applySpar b (applySeq b (applyDram b ids s2))
  let s4 := s3.p CE_CAPS_MHZ (islKhz (imgIsls b) 21 / 1000)
  let s5 := (presetRecs b).foldl (fun s r => preset r s) s4
  let s6 := overN 32 pgSync s5
  trainClocked { s6.p CHIP_RIGSTAT_STATE Rg.rigged with dram.await := true }

/-- Verification ends: the image is applied, copied to NVM, or rejected. -/
def imageVerified (ids : Nat) (s : State) : State :=
  let b := s.rig.image
  if rigState s ≠ Rg.verifying ∨ s.rig.storing.isSome then s
  else
    let c := imageCause s b
    if c ≠ 0 then reject c s
    else if s.rig.load = Rg.host ∧ s.rig.dest then { s with rig := { s.rig with storing := some b } }
    else apply b ids s

def execImageVerified (ids : BitVec 32) (s : State) : Host.Outcome State Fault Refusal :=
  .next (live (imageVerified ids.toNat) s)

/-- The copy to the NVM rigging area ends. -/
def nvmStoreDone (s : State) : State :=
  match s.rig.storing with
  | some b =>
    let s1 : State := { s.pb RIG_LOADSTAT_NVM_DONE true with rig := { s.rig with nvmImage := b } }
    loadRestore s1
  | none => s

def execNvmImageStoreDone (s : State) : Host.Outcome State Fault Refusal := .next (live nvmStoreDone s)

end Sys2Proof.Machine
end

