-- ==== Sys2Proof/Machine/Bridge.lean ====
section
/-!
DEFINITION. The PCIe link beside REP (spec/03_host_rep.md R53, R54, R56), and the NVM writes that wait for the write
window (spec/15_thermal.md R342).
-/

namespace Sys2Proof.Machine

open Reg

/-! ## The function (R52, R53) -/

/-- What the function presents of itself in configuration space (R52, R53): identity, class and revision, the kinds of its
BARs. The offsets are those of a type 0 header (PRESUMED from PCI, assumption log 84). -/
def pciConfig (p : Part) (r : Rev) (off : Nat) : Word :=
  if off = 0x00 ∨ off = 0x2C then BitVec.ofNat 32 (p.id * 65536 + 0x1F3D)
  else if off = 0x08 then BitVec.ofNat 32 (0x118000 * 256 + r.code)
  else if off = 0x10 then 0x4
  else if off = 0x18 then 0xC
  else 0

/-! ## BAR2 (R26, R53, R54) -/

/-- The DRAM address of a byte of the BAR2 window. -/
def bar2Addr (s : State) (a : Nat) : Nat := s.g HNT_BAR2_CTRL_BASE * s.host.bar2 + a

/-- BAR2 reaches DRAM: the image is applied and training has ended (R26). -/
def bar2Open (s : State) : Bool := s.rigged && s.g DRAM_TSTAT_STATE == 3

/-- A read of `n` bytes at a DRAM address: zeros beyond the installed DRAM, poisoned where a burst is uncorrectable. -/
def bar2Read (a n : Nat) (s : State) : State :=
  if s.installed < a + n then (s.pb HNT_BAR2_STAT_BEYOND true).emit (.data (List.replicate n 0) false)
  else
    let (bytes, s1) := dramGet a n s
    readData bytes s1

/-- A write of bytes at a DRAM address: ignored beyond the installed DRAM; a poisoned one is
discarded and reported through AER. One that is both sets both flags, by R54's two sentences. -/
def bar2Write (a : Nat) (bytes : List Byte) (poisoned : Bool) (s : State) : State :=
  let beyond := decide (s.installed < a + bytes.length)
  let s1 := if beyond then s.pb HNT_BAR2_STAT_BEYOND true else s
  if poisoned then (s1.pb HNT_BAR2_STAT_POISON_RX true).emit .aerPoison
  else if beyond then s1
  else dramPut a bytes s1

/-- An access of BAR2 at byte `addr` of the window: a write of `data`, or a read of `len` bytes. -/
def bar2Access (addr len : Nat) (data : Option (List Byte)) (poisoned : Bool) (s : State) : State :=
  if s.host.bar2 ≤ addr then s
  else match data with
    | some bytes => if bar2Open s then bar2Write (bar2Addr s addr) bytes poisoned s else s
    | none => if bar2Open s then bar2Read (bar2Addr s addr) len s else s.emit (.data (List.replicate len 0) false)

def execBar2Access (addr : BitVec 37) (len : Fin 4097) (data : Option (List (BitVec 8))) (poisoned : Bool) (s : State) :
    Host.Outcome State Fault Refusal := .next (live (bar2Access addr.toNat len data poisoned) s)

/-! ## Link resets (R56, R83, R408) -/

/-- LOADED and VERIFYING contexts return to FREE; their pairs being disabled, their SHEET_COMMITs never complete. -/
def dropCommits (s : State) : State :=
  (ctxKeys s).foldl (fun s c =>
    if ctxState s c = Px.loaded ∨ ctxState s c = Px.verifying then refuseCommit c 0 0 none s else s) s

/-- A BAR2 size of the Resizable BAR capability (R53): code k is 2^k GiB; 16 GiB where the host sets none. -/
def bar2Size (code : Option (Fin 8)) : Nat := match code with | some k => 2 ^ (30 + k.val) | none => 2 ^ 34

/-- A function-level reset, a hot reset or a link-down; then the host configures the function, BAR2's size with it. A codec
job or an upload in progress runs on, still a command in progress, and its completion is written where its pair is enabled
again by then (DEDUCED from R83, assumption log 39). -/
def pcieReset (size : Option (Fin 8)) (s : State) : State :=
  let s1 := overN 16 pairDrop s
  let s2 := dropCommits (endTimeEvents s1)
  let s3 := closeSession { s2 with host := { s2.host with closing := none, logs := [], inProg := s2.host.inProg.filter fun c => c.op == 0x41 || c.op == 0x50, heldCmds := [], bar2 := bar2Size size } }
  dmaLinkReset (s3.resetRegs fun off => decide (0x308000 ≤ off ∧ off < 0x309020))

def execPcieReset (size : Option (Fin 8)) (s : State) : Host.Outcome State Fault Refusal := .next (live (pcieReset size) s)

/-! ## Waiting NVM writes (R165, R322, R342, R382, R418) -/

/-- Tj is inside the window: the reset count, rail counters, fatal records, emitter tables and saved training are written. -/
def nvmDeferred (s : State) : State :=
  if !nvmWindow s then s
  else
    let s1 := railDeferred { s with epochNvm := max s.epoch s.epochNvm }
    let s2 := { s1.err.nvmWait.foldl (fun s r => ringPush r s) s1 with err.nvmWait := [] }
    let s3 := overN 8 (fun n s => if (s.stnU n).nvmWait then wearSave n s else s) s2
    let s4 := if s3.dram.forgetWait then trainErase s3 else s3
    if s4.dram.saveWait then trainStore s4 else s4

def execNvmDeferredWrite (s : State) : Host.Outcome State Fault Refusal := .next (live nvmDeferred s)

end Sys2Proof.Machine
end

