-- ==== Sys2Proof/Machine/HostRegs.lean ====
section
/-!
DEFINITION. A host write of any BAR0 offset (spec/00_scope.md R6-R10; spec/21_register_index.md R425, R426), and what a
completion ring that gains space starts (spec/03_host_rep.md R64, R65).
-/

namespace Sys2Proof.Machine

open Reg

/-- A full write of the register at `off`, present and mapped: those whose rules are written above ChipRegs, or the
table's. -/
def hostWord (off : Nat) (v : Word) (s : State) : State :=
  if off = CHIP_RESET then chipResetWrite v s
  else if off = RIG_LOADCTRL then loadCtrlWrite v s
  else if inAperture off then apertureWrite off v s
  else regWrite off v s

/-- Only a write of all four bytes reaches the register (R6). -/
def fullWrite (off be : Nat) (v : Word) (s : State) : State :=
  if be = 15 then hostWord off v s else s.chipErr CHIP_ERR_PARTIAL_WRITE off

/-- A host write with its byte enables. -/
def hostWrite (off be : Nat) (v : Word) (s : State) : State :=
  let off := off / 4 * 4
  hostAt off (fun s => if accessWaits off false s then holdAccess off be (some v) s else fullWrite off be v s) s

/-- The accesses that waited are served in their order. -/
def serveHeld (s : State) : State :=
  s.clk.held.foldl (fun s h => match h.2.2 with
    | some v => fullWrite h.1 h.2.1 v s
    | none => regRead h.1 h.2.1 s) { s with clk := { s.clk with held := [] } }

/-- The exit from self-refresh is complete, and what waited for it is served (R358, R395). -/
def srExit (s : State) : State :=
  let s1 := srExitDone s
  if s.g DRAM_SR_STATE = 3 then serveHeld s1 else s1

def execSrExitDone (s : State) : Host.Outcome State Fault Refusal := .next (live srExit s)

/-- A command of the Riveino Engine Protocol that a full completion ring had held has its effect. -/
def startHeld (c : Instr) (s : State) : State :=
  match c with
  | .hello e lo hi => cmdHello e lo hi s
  | .bye e => cmdBye e s
  | .statusQuery e cls mbx inst => cmdStatusQuery e cls mbx inst s
  | .logRead e log off dst len ns => cmdLogRead e log off dst len ns s
  | .timeEvent e kind sec ns => cmdTimeEvent e kind sec ns s
  | .engineStart e => cmdEngineStart e s
  | .engineStop e => cmdEngineStop e s
  | .speedSet e rate passes => cmdSpeedSet e rate passes s
  | .sheetCommit e id mode mask pdt lines rep ofs => cmdSheetCommit e id mode mask pdt lines rep ofs s
  | .sheetAbort e id => cmdSheetAbort e id s
  | .stationCfg e stn en addr => cmdStationCfg e stn en addr s
  | .emitterSet e stn em st hand boost => cmdEmitterSet e stn em st hand boost s
  | .registerAdjust e stn mode line pixel phase mag => cmdRegisterAdjust e stn mode line pixel phase mag s
  | .cameraCfg e stream mbx addr => cmdCameraCfg e stream mbx addr s
  | .frameUpload e stream tag dst len compress ns => cmdFrameUpload e stream tag dst len compress ns s
  | .codecJob e op fl src srcLen dstLen dst data => cmdCodecJob e op fl src srcLen dstLen dst data s
  | .unknownOpcode e op => cmdUnknownOpcode e op s
  | _ => s

/-- The commands held for want of space start as soon as space frees, in the order they came and ahead of every command
that comes later (R65). -/
def startAll : Nat → State → State
  | 0, s => s
  | k + 1, s => match startable s with
    | some c => startAll k (startHeld c s)
    | none => s

/-- After a write at `off`: one of a completion ring's head may have freed space. -/
def ringFreed (off : Nat) (s : State) : State :=
  if (List.range 16).any fun q => off / 4 * 4 == REP_QCQH q then startAll s.host.heldCmds.length s else s

def execCqDoorbell (q : Fin 16) (v : Word) (s : State) : Host.Outcome State Fault Refusal :=
  .next (ringFreed (REP_QCQH q) (hostAt (REP_QCQH q) (cqDoorbell q v) s))

def execRegisterWrite (off : BitVec 26) (be : Fin 16) (v : Word) (s : State) : Host.Outcome State Fault Refusal :=
  .next (ringFreed off.toNat (hostWrite off.toNat be.val v s))

end Sys2Proof.Machine
end

