-- ==== Sys2Proof/Machine/Probe.lean ====
section
/-!
DEFINITION. The probe points of the crow's nest monitors (spec/20_monitors_errors.md R411).
-/

namespace Sys2Proof.Machine

open Reg

/-- Entries in a queue that a KIND 3 probe names; requests waiting in the crossbar come with the event. -/
def fillOf (s : State) (sel : Nat) (x : Int) : Int :=
  if sel < 16 then ((s.g (REP_QSTAT_CQ_TAIL sel) + s.cqSize sel - s.g (REP_QCQH_HEAD sel)) % s.cqSize sel : Nat)
  else if sel < 20 then (bankGet [] s.vis.queue (sel - 16)).length
  else if sel = 20 then s.codec.queue.length
  else if sel = 21 then s.g CMP_STAT_QUEUED
  else if sel < 24 then (ethU s (sel - 22)).rx.length
  else if sel < 88 then s.g (DMA_STAT_PEND (sel - 24))
  else x

/-- The sample of a probe point (R411): what the state holds there; a latency comes with the event that ends it. -/
def probeValue (s : State) (kind sel : Nat) (x : Int) : Int :=
  if kind = 2 then s.gi (STN_LEVEL_LEVEL sel)
  else if kind = 3 then fillOf s sel x
  else if kind = 4 then
    (if sel < 16 then (bankGet 0 (ceU s).conv (0x500 + sel) % 4096 : Nat) else x % 65536)
  else if kind = 5 then
    (if sel < 48 then s.gi (THM_TS_TEMP sel) else if sel = 55 then s.gi THM_TJ_TJ else s.gi (THM_HS_TEMP (sel - 48)))
  else if kind = 6 then (if sel < 32 then s.gi (MC_IQ_IQ sel) else s.gi (MC_ID_ID (sel - 32)))
  else x

/-- A requester with nothing to request (DEDUCED, assumption log 72): a station not enabled, a decoder or a compressor with
no job, a CSI port of no stream, a DMA channel not enabled. -/
def requesterIdle (s : State) (sel : Nat) : Bool :=
  if sel < 8 then !s.on (STN_PCFG_ENABLED sel)
  else if sel < 16 then !s.on (VDEC_STAT_BUSY (sel - 8))
  else if sel = 16 then !s.on CMP_STAT_BUSY
  else if sel < 21 then (List.range 16).all fun k =>
    let g := newestGen (strU s k)
    g.num == 0 || g.path == 0 || g.port != sel - 17
  else decide (64 ≤ sel ∧ sel < 128) && !s.on (DMA_CTRL_ENABLE (sel - 64))

/-- A probe that is idle gives no samples: a station not occupied, a disabled motor channel, an unused requester. -/
def probeIdle (s : State) (kind sel : Nat) : Bool :=
  (kind == 1 && requesterIdle s sel) || (kind == 2 && !s.on (STN_STAT_OCCUPIED sel))
    || (kind == 6 && !(mcOn s).contains (sel % 32))

/-- The kinds that take one event in 2^SUB. -/
def eventKind (kind : Nat) : Bool := kind == 1 || kind == 2 || kind == 6

/-- MON_SAMPLE: an event of the probe of monitor `m`, with its value where the state does not hold it. Event kinds take the
first of each 2^SUB events since ENABLE (DESIGN CHOICE, assumption log 72). -/
def monSample (m : Nat) (x : Int) (s : State) : State :=
  let kind := s.g (MON_CFG_KIND m)
  let sel := s.g (MON_CFG_SEL m)
  if !s.on (MON_CFG_ENABLE m) || probeIdle s kind sel then s
  else
    let n := (monU s m).seen
    let s1 := setMon m { monU s m with seen := (n + 1) % 2 ^ s.g (MON_CFG_SUB m) } s
    if eventKind kind && n != 0 then s1 else monTake m (probeValue s kind sel x) s1

def execMonSample (m : Fin 32) (x : BitVec 32) (s : State) : Host.Outcome State Fault Refusal :=
  .next (live (monSample m x.toInt) s)

end Sys2Proof.Machine
end

