-- ==== Sys2Proof/Machine/Entry.lean ====
section
/-!
DEFINITION. The 64-byte submission entry (spec/03_host_rep.md R66, R68): the bytes of each message with its parameters at
their offsets, and the command that an entry's bytes spell. A command of the queue carries what an entry of its pair's
ring spells; a REP-lite request carries an entry too (R84).
-/

namespace Sys2Proof.Machine

/-- An entry: OPCODE, CMD_ID, and the parameters from offset 0x08, every other byte zero. -/
def submission (op cid : Nat) (params : List Byte) : List Byte :=
  leBytes 1 op ++ leBytes 1 0 ++ leBytes 2 cid ++ leBytes 4 0 ++ params ++ List.replicate (56 - params.length) 0

/-- The entry of a command of the Riveino Engine Protocol; other commands have none. -/
def entryBytes : Instr → Option (List Byte)
  | .hello e lo hi => some (submission 0x01 e.cid.toNat (leBytes 2 lo.toNat ++ leBytes 2 hi.toNat))
  | .bye e => some (submission 0x02 e.cid.toNat [])
  | .statusQuery e cls mbx inst =>
    some (submission 0x03 e.cid.toNat (leBytes 1 cls.toNat ++ leBytes 1 mbx.toNat ++ leBytes 2 inst.toNat))
  | .logRead e log off dst len ns =>
    some (submission 0x04 e.cid.toNat (leBytes 4 log.toNat ++ leBytes 4 off.toNat ++ leBytes 8 dst.toNat ++ leBytes 4 len.toNat
      ++ leBytes 1 ns.toNat))
  | .timeEvent e kind sec ns =>
    some (submission 0x05 e.cid.toNat (leBytes 8 kind.toNat ++ leBytes 8 sec.toNat ++ leBytes 4 ns.toNat))
  | .engineStart e => some (submission 0x10 e.cid.toNat [])
  | .engineStop e => some (submission 0x11 e.cid.toNat [])
  | .speedSet e rate passes => some (submission 0x12 e.cid.toNat (leBytes 4 rate.toNat ++ leBytes 1 passes.toNat))
  | .sheetCommit e id mode mask pdt lines rep ofs =>
    some (submission 0x20 e.cid.toNat (leBytes 4 id.toNat ++ leBytes 1 mode.toNat ++ leBytes 3 mask.toNat ++ leBytes 8 pdt.toNat
      ++ leBytes 4 lines.toNat ++ leBytes 4 rep.toNat ++ leBytes 8 ofs.toNat))
  | .sheetAbort e id => some (submission 0x21 e.cid.toNat (leBytes 4 id.toNat))
  | .stationCfg e stn en addr =>
    some (submission 0x30 e.cid.toNat (leBytes 1 stn.toNat ++ leBytes 7 en.toNat ++ leBytes 8 addr.toNat))
  | .emitterSet e stn em st hand boost =>
    some (submission 0x31 e.cid.toNat (leBytes 1 stn.toNat ++ leBytes 1 em.toNat ++ leBytes 1 st.toNat ++ leBytes 1 hand.toNat
      ++ leBytes 4 boost.toNat))
  | .registerAdjust e stn mode line pixel phase mag =>
    some (submission 0x32 e.cid.toNat (leBytes 1 stn.toNat ++ leBytes 3 mode.toNat ++ leBytes 4 line.toNat ++ leBytes 4 pixel.toNat
      ++ leBytes 4 phase.toNat ++ leBytes 4 mag.toNat))
  | .cameraCfg e stream mbx addr =>
    some (submission 0x40 e.cid.toNat (leBytes 1 stream.toNat ++ leBytes 7 mbx.toNat ++ leBytes 8 addr.toNat))
  | .frameUpload e stream tag dst len compress ns =>
    some (submission 0x41 e.cid.toNat (leBytes 4 stream.toNat ++ leBytes 4 tag.toNat ++ leBytes 8 dst.toNat ++ leBytes 4 len.toNat
      ++ leBytes 1 (compress.toNat + 2 * ns.toNat)))
  | .codecJob e op fl src srcLen dstLen dst _ =>
    some (submission 0x50 e.cid.toNat (leBytes 1 op.toNat ++ leBytes 7 fl.toNat ++ leBytes 8 src.toNat ++ leBytes 4 srcLen.toNat
      ++ leBytes 4 dstLen.toNat ++ leBytes 8 dst.toNat))
  | .unknownOpcode e op => some (submission op.toNat e.cid.toNat [])
  | _ => none

/-- The parameter of `w` bits at an offset of an entry, little-endian. -/
def param (w : Nat) (b : List Byte) (off : Nat) : BitVec w := BitVec.ofNat w (bytesAt b off (w / 8))

/-- The message of an entry, `e` its common part; `data` is what host memory holds at a job's source. -/
def messageOf (e : Entry) (b data : List Byte) : Instr :=
  match bytesAt b 0 1 with
  | 0x01 => .hello e (param 16 b 0x08) (param 16 b 0x0A)
  | 0x02 => .bye e
  | 0x03 => .statusQuery e (param 8 b 0x08) (param 8 b 0x09) (param 16 b 0x0A)
  | 0x04 => .logRead e (param 8 b 0x08) (param 32 b 0x0C) (param 64 b 0x10) (param 32 b 0x18) (bitsOf (bytesAt b 0x1C 1) 0 1 == 1)
  | 0x05 => .timeEvent e (param 8 b 0x08) (param 64 b 0x10) (param 32 b 0x18)
  | 0x10 => .engineStart e
  | 0x11 => .engineStop e
  | 0x12 => .speedSet e (param 32 b 0x08) (param 8 b 0x0C)
  | 0x20 => .sheetCommit e (param 32 b 0x08) (param 8 b 0x0C) (param 8 b 0x0D) (param 64 b 0x10) (param 32 b 0x18)
      (param 32 b 0x1C) (param 64 b 0x20)
  | 0x21 => .sheetAbort e (param 32 b 0x08)
  | 0x30 => .stationCfg e (param 8 b 0x08) (param 8 b 0x09) (param 64 b 0x10)
  | 0x31 => .emitterSet e (param 8 b 0x08) (param 8 b 0x09) (param 8 b 0x0A) (param 8 b 0x0B) (param 32 b 0x0C)
  | 0x32 => .registerAdjust e (param 8 b 0x08) (param 8 b 0x09) (param 32 b 0x0C) (param 32 b 0x10) (param 8 b 0x14) (param 32 b 0x18)
  | 0x40 => .cameraCfg e (param 8 b 0x08) (param 8 b 0x09) (param 64 b 0x10)
  | 0x41 => .frameUpload e (param 8 b 0x08) (param 32 b 0x0C) (param 64 b 0x10) (param 32 b 0x18)
      (bitsOf (bytesAt b 0x1C 1) 0 1 == 1) (bitsOf (bytesAt b 0x1C 1) 1 1 == 1)
  | 0x50 => .codecJob e (param 8 b 0x08) (param 8 b 0x09) (param 64 b 0x10) (param 32 b 0x18) (param 32 b 0x1C) (param 64 b 0x20) data
  | op => .unknownOpcode e (BitVec.ofNat 8 op)

/-- The command that an entry of pair `q` spells. Every byte and bit outside the message's parameters must be zero: the
entry is clean where its bytes are those of the message read from it. -/
def entryCommand (q : Fin 16) (b data : List Byte) : Instr :=
  let e := fun clean => (⟨q, BitVec.ofNat 16 (bytesAt b 2 2), clean⟩ : Entry)
  messageOf (e (entryBytes (messageOf (e true) b data) == some b)) b data

end Sys2Proof.Machine
end

