-- ==== Sys2Proof/Machine/ReplFrame.lean ====
section
/-!
DEFINITION. A frame received on an Ethernet port, with the REP-lite datagrams among them (spec/17_network_time.md R373;
spec/03_host_rep.md R84, R85).
-/

namespace Sys2Proof.Machine

open Reg

/-- A request of a partner: its entry does what the REP-lite command it spells does. HELLO bears session number 0. -/
def replEntry (m : ReplMsg) (b : List Byte) (s : State) : State :=
  match entryCommand 0 b [] with
  | .hello e lo hi =>
    if m.session = 0 then replHello { m with cid := e.cid, clean := e.clean } lo.toNat hi.toNat s else s
  | .bye e => replBye { m with cid := e.cid, clean := e.clean } s
  | .statusQuery e cls _ _ => replStatus { m with cid := e.cid, clean := e.clean } cls.toNat s
  | .timeEvent e kind _ _ => replTime { m with cid := e.cid, clean := e.clean } kind.toNat s
  | _ => replUnknown { m with cid := BitVec.ofNat 16 (bytesAt b 2 2), clean := true } (bytesAt b 0 1) s

/-- A UDP datagram to REP-lite: a 16-byte header, and a request's 64-byte entry. One from another source port, with
another MAGIC, a byte that is not zero where the header has zero, another length, or a KIND that only the device sends,
is no REP-lite datagram and is dropped (DESIGN CHOICE, assumption log 80). -/
def replDatagram (p : Fin 2) (b : List Byte) (u : Udp) (s : State) : State :=
  let d := (b.drop u.at_).take (beAt b (u.at_ - 4) 2 - 8)
  let m : ReplMsg := { port := p, mac := BitVec.ofNat 48 (beAt b 6 6), ip := BitVec.ofNat 128 u.src,
                       session := BitVec.ofNat 16 (bytesAt d 4 2), seq := BitVec.ofNat 32 (bytesAt d 8 4),
                       ack := BitVec.ofNat 32 (bytesAt d 12 4), cid := 0, clean := true, ip6 := u.ip6 }
  if u.sport ≠ 7190 ∨ d.length < 16 ∨ bytesAt d 0 2 ≠ 0x4C52 ∨ !zeroAt d 3 1 ∨ !zeroAt d 6 2 then s
  else if bytesAt d 2 1 = 3 then replAck m s
  else if bytesAt d 2 1 = 0 ∧ d.length = 80 then replEntry m (d.drop 16) s
  else s

/-- ETH_FRAME_RX. -/
def frameRx (p : Fin 2) (fcsOk : Bool) (b : List Byte) (s : State) : State :=
  if !portUp s p then s
  else if !fcsOk then s.inc (ETH_STAT_FCS_ERR p)
  else if b.length < 14 ∨ 1518 < b.length ∨ beAt b 12 2 = 0x8808 ∨ !accepts s p b then s
  else match classify s p b with
    | .arp => sendFrame p (arpReply s p b) s
    | .solicit => sendFrame p (advertisement s p b) s
    | .repl => match udpOf b with
      | some u => replDatagram p b u s
      | none => s
    | .ptp a => receivePtp p a b s
    | .other => s.inc (ETH_STAT_OTHER p)

def execEthFrameRx (p : Fin 2) (fcsOk : Bool) (bytes : List Byte) (s : State) : Host.Outcome State Fault Refusal :=
  .next (live (frameRx p fcsOk bytes) s)

end Sys2Proof.Machine
end

