-- ==== Sys2Proof/Machine/Dispatch.lean ====
section
/-!
DEFINITION. The dispatch: one arm for each constructor of Instr, each one direct call of the command's meaning.
-/

namespace Sys2Proof.Machine

def exec (i : Instr) (s : State) : Host.Outcome State Fault Refusal :=
  match i with
  | .powerOn => Sys2Proof.Machine.execPowerOn s
  | .resetPin low => Sys2Proof.Machine.execResetPin low s
  | .supplyFail => Sys2Proof.Machine.execSupplyFail s
  | .supplyRecover => Sys2Proof.Machine.execSupplyRecover s
  | .chipReset v => Sys2Proof.Machine.execChipReset v s
  | .registerWrite off be v => Sys2Proof.Machine.execRegisterWrite off be v s
  | .absentUnitAccess off be write => Sys2Proof.Machine.execAbsentUnitAccess off be write s
  | .unmappedAccess off be write => Sys2Proof.Machine.execUnmappedAccess off be write s
  | .readClear off be => Sys2Proof.Machine.execReadClear off be s
  | .lowWordRead off be => Sys2Proof.Machine.execLowWordRead off be s
  | .fenceRead be => Sys2Proof.Machine.execFenceRead be s
  | .mbxHdrRead n be => Sys2Proof.Machine.execMbxHdrRead n be s
  | .errSlotRead slot be => Sys2Proof.Machine.execErrSlotRead slot be s
  | .timeNowRead be => Sys2Proof.Machine.execTimeNowRead be s
  | .syspllLock refclk => Sys2Proof.Machine.execSyspllLock refclk s
  | .qspiHeaderRead hdr => Sys2Proof.Machine.execQspiHeaderRead hdr s
  | .qspiImageReadDone rest => Sys2Proof.Machine.execQspiImageReadDone rest s
  | .nvmImageReadDone => Sys2Proof.Machine.execNvmImageReadDone s
  | .imageVerified ids => Sys2Proof.Machine.execImageVerified ids s
  | .rigOpen v => Sys2Proof.Machine.execRigOpen v s
  | .rigCommit v => Sys2Proof.Machine.execRigCommit v s
  | .rigAbandon v => Sys2Proof.Machine.execRigAbandon v s
  | .apertureWrite off v => Sys2Proof.Machine.execApertureWrite off v s
  | .nvmImageStoreDone => Sys2Proof.Machine.execNvmImageStoreDone s
  | .csetConfirm v => Sys2Proof.Machine.execCsetConfirm v s
  | .csetProgramDone => Sys2Proof.Machine.execCsetProgramDone s
  | .sparHostWrite n v => Sys2Proof.Machine.execSparHostWrite n v s
  | .pcieReset size => Sys2Proof.Machine.execPcieReset size s
  | .bar2Access addr len data poisoned => Sys2Proof.Machine.execBar2Access addr len data poisoned s
  | .sqDoorbell q v => Sys2Proof.Machine.execSqDoorbell q v s
  | .cqDoorbell q v => Sys2Proof.Machine.execCqDoorbell q v s
  | .qpEnable q v => Sys2Proof.Machine.execQpEnable q v s
  | .qpDisable q v => Sys2Proof.Machine.execQpDisable q v s
  | .sessionClose v => Sys2Proof.Machine.execSessionClose v s
  | .hello e min max => Sys2Proof.Machine.execHello e min max s
  | .bye e => Sys2Proof.Machine.execBye e s
  | .statusQuery e cls mbx inst => Sys2Proof.Machine.execStatusQuery e cls mbx inst s
  | .logRead e log off dst len ns => Sys2Proof.Machine.execLogRead e log off dst len ns s
  | .logReadDone q cid => Sys2Proof.Machine.execLogReadDone q cid s
  | .timeEvent e kind sec ns => Sys2Proof.Machine.execTimeEvent e kind sec ns s
  | .timeEventDue q cid => Sys2Proof.Machine.execTimeEventDue q cid s
  | .engineStart e => Sys2Proof.Machine.execEngineStart e s
  | .engineStop e => Sys2Proof.Machine.execEngineStop e s
  | .speedSet e rate passes => Sys2Proof.Machine.execSpeedSet e rate passes s
  | .sheetCommit e id mode mask pdt lines rep ofs => Sys2Proof.Machine.execSheetCommit e id mode mask pdt lines rep ofs s
  | .sheetAbort e id => Sys2Proof.Machine.execSheetAbort e id s
  | .stationCfg e stn en addr => Sys2Proof.Machine.execStationCfg e stn en addr s
  | .emitterSet e stn em st hand boost => Sys2Proof.Machine.execEmitterSet e stn em st hand boost s
  | .registerAdjust e stn mode line pixel phase mag => Sys2Proof.Machine.execRegisterAdjust e stn mode line pixel phase mag s
  | .cameraCfg e stream mbx addr => Sys2Proof.Machine.execCameraCfg e stream mbx addr s
  | .frameUpload e stream tag dst len compress ns => Sys2Proof.Machine.execFrameUpload e stream tag dst len compress ns s
  | .frameUploadDone q cid => Sys2Proof.Machine.execFrameUploadDone q cid s
  | .codecJob e op fl src srcLen dstLen dst data => Sys2Proof.Machine.execCodecJob e op fl src srcLen dstLen dst data s
  | .unknownOpcode e op => Sys2Proof.Machine.execUnknownOpcode e op s
  | .sheetDoneWrite c => Sys2Proof.Machine.execSheetDoneWrite c s
  | .replHello m min max => Sys2Proof.Machine.execReplHello m min max s
  | .replBye m => Sys2Proof.Machine.execReplBye m s
  | .replStatusQuery m cls => Sys2Proof.Machine.execReplStatusQuery m cls s
  | .replTimeEvent m kind => Sys2Proof.Machine.execReplTimeEvent m kind s
  | .replUnknownOp m op => Sys2Proof.Machine.execReplUnknownOp m op s
  | .replAck m => Sys2Proof.Machine.execReplAck m s
  | .replNotifyRetry session seq => Sys2Proof.Machine.execReplNotifyRetry session seq s
  | .replPortDisable v => Sys2Proof.Machine.execReplPortDisable v s
  | .verifyBandStart n => Sys2Proof.Machine.execVerifyBandStart n s
  | .verifyBandDone n => Sys2Proof.Machine.execVerifyBandDone n s
  | .sheetAdmission c => Sys2Proof.Machine.execSheetAdmission c s
  | .inflateJobDone n => Sys2Proof.Machine.execInflateJobDone n s
  | .cmpJobStart => Sys2Proof.Machine.execCmpJobStart s
  | .cmpJobDone => Sys2Proof.Machine.execCmpJobDone s
  | .cmpPause => Sys2Proof.Machine.execCmpPause s
  | .stationBandStart n k => Sys2Proof.Machine.execStationBandStart n k s
  | .stationBandDone n k => Sys2Proof.Machine.execStationBandDone n k s
  | .encoderSample raw => Sys2Proof.Machine.execEncoderSample raw s
  | .feedReqRaise => Sys2Proof.Machine.execFeedReqRaise s
  | .feedAck => Sys2Proof.Machine.execFeedAck s
  | .feedSense => Sys2Proof.Machine.execFeedSense s
  | .misfeedTimeout c => Sys2Proof.Machine.execMisfeedTimeout c s
  | .webRunStart => Sys2Proof.Machine.execWebRunStart s
  | .trigWebOrigin => Sys2Proof.Machine.execTrigWebOrigin s
  | .trigFeedpos c => Sys2Proof.Machine.execTrigFeedpos c s
  | .trigPrefetch c n => Sys2Proof.Machine.execTrigPrefetch c n s
  | .trigStation c n => Sys2Proof.Machine.execTrigStation c n s
  | .trigStationDone c n => Sys2Proof.Machine.execTrigStationDone c n s
  | .trigDelivery c => Sys2Proof.Machine.execTrigDelivery c s
  | .trigCamera c st => Sys2Proof.Machine.execTrigCamera c st s
  | .speedBoundaryStart => Sys2Proof.Machine.execSpeedBoundaryStart s
  | .boundaryPathClear => Sys2Proof.Machine.execBoundaryPathClear s
  | .boundaryLocked => Sys2Proof.Machine.execBoundaryLocked s
  | .ptrimWrite v => Sys2Proof.Machine.execPtrimWrite v s
  | .warmupComplete => Sys2Proof.Machine.execWarmupComplete s
  | .drainComplete => Sys2Proof.Machine.execDrainComplete s
  | .regionResetDone r => Sys2Proof.Machine.execRegionResetDone r s
  | .containmentTimeout cls inst => Sys2Proof.Machine.execContainmentTimeout cls inst s
  | .regionResetTimeout r => Sys2Proof.Machine.execRegionResetTimeout r s
  | .bdEdge n mark period => Sys2Proof.Machine.execBdEdge n mark period s
  | .bdMissTimeout n => Sys2Proof.Machine.execBdMissTimeout n s
  | .reloadStart n => Sys2Proof.Machine.execReloadStart n s
  | .reloadDone n ns => Sys2Proof.Machine.execReloadDone n ns s
  | .tableWrite off v => Sys2Proof.Machine.execTableWrite off v s
  | .wearNvmWrite n => Sys2Proof.Machine.execWearNvmWrite n s
  | .boostEnd n em => Sys2Proof.Machine.execBoostEnd n em s
  | .linkTrainStart n => Sys2Proof.Machine.execLinkTrainStart n s
  | .backBlockLock n => Sys2Proof.Machine.execBackBlockLock n s
  | .backLockLoss n => Sys2Proof.Machine.execBackLockLoss n s
  | .capsReqSend n => Sys2Proof.Machine.execCapsReqSend n s
  | .capsRx n caps => Sys2Proof.Machine.execCapsRx n caps s
  | .trainTimeout n => Sys2Proof.Machine.execTrainTimeout n s
  | .retrainDelayEnd n => Sys2Proof.Machine.execRetrainDelayEnd n s
  | .statusRx n st => Sys2Proof.Machine.execStatusRx n st s
  | .healthRx n em kind => Sys2Proof.Machine.execHealthRx n em kind s
  | .livRx n em vf power => Sys2Proof.Machine.execLivRx n em vf power s
  | .controlResendTimeout n seq => Sys2Proof.Machine.execControlResendTimeout n seq s
  | .sweepUnreported n => Sys2Proof.Machine.execSweepUnreported n s
  | .linkDown n v => Sys2Proof.Machine.execLinkDown n v s
  | .linkUp n v => Sys2Proof.Machine.execLinkUp n v s
  | .linkRetrain n v => Sys2Proof.Machine.execLinkRetrain n v s
  | .bankLoadStart n => Sys2Proof.Machine.execBankLoadStart n s
  | .livReqSend n => Sys2Proof.Machine.execLivReqSend n s
  | .csiPacket p vc dt hdr crcOk pix => Sys2Proof.Machine.execCsiPacket p vc dt hdr crcOk pix s
  | .frameStart p vc => Sys2Proof.Machine.execFrameStart p vc s
  | .frameEnd p vc => Sys2Proof.Machine.execFrameEnd p vc s
  | .cciWritesDone bus => Sys2Proof.Machine.execCciWritesDone bus s
  | .memFrameProcess p => Sys2Proof.Machine.execMemFrameProcess p s
  | .frameResult inl overrun => Sys2Proof.Machine.execFrameResult inl overrun s
  | .regAutoStep n => Sys2Proof.Machine.execRegAutoStep n s
  | .regPtrimStep => Sys2Proof.Machine.execRegPtrimStep s
  | .mcEnable n v => Sys2Proof.Machine.execMcEnable n v s
  | .mcDisable n v => Sys2Proof.Machine.execMcDisable n v s
  | .mcStop n v => Sys2Proof.Machine.execMcStop n v s
  | .mcClear n v => Sys2Proof.Machine.execMcClear n v s
  | .mcPwmPeriod n x => Sys2Proof.Machine.execMcPwmPeriod n x s
  | .mcSenseDone n emf hz th => Sys2Proof.Machine.execMcSenseDone n emf hz th s
  | .mcBrakeStill n => Sys2Proof.Machine.execMcBrakeStill n s
  | .mcStartTimeout n => Sys2Proof.Machine.execMcStartTimeout n s
  | .mcIpdDone n ts => Sys2Proof.Machine.execMcIpdDone n ts s
  | .mcReacqWindow n hz th => Sys2Proof.Machine.execMcReacqWindow n hz th s
  | .mcReacqTimeout n => Sys2Proof.Machine.execMcReacqTimeout n s
  | .mcDriverFault n low => Sys2Proof.Machine.execMcDriverFault n low s
  | .mcStopDone n => Sys2Proof.Machine.execMcStopDone n s
  | .cmdLossTimeout k => Sys2Proof.Machine.execCmdLossTimeout k s
  | .axisEnable n v => Sys2Proof.Machine.execAxisEnable n v s
  | .axisDisable n v => Sys2Proof.Machine.execAxisDisable n v s
  | .axisGo n v => Sys2Proof.Machine.execAxisGo n v s
  | .axisStop n v => Sys2Proof.Machine.execAxisStop n v s
  | .axisClear n v => Sys2Proof.Machine.execAxisClear n v s
  | .axisTargetWrite n v => Sys2Proof.Machine.execAxisTargetWrite n v s
  | .axisProfileWrite n k v => Sys2Proof.Machine.execAxisProfileWrite n k v s
  | .axisStartInput n => Sys2Proof.Machine.execAxisStartInput n s
  | .axisProfileTick => Sys2Proof.Machine.execAxisProfileTick s
  | .axisMoveEnd n => Sys2Proof.Machine.execAxisMoveEnd n s
  | .axisEncoderSample n raw => Sys2Proof.Machine.execAxisEncoderSample n raw s
  | .groupGo g v => Sys2Proof.Machine.execGroupGo g v s
  | .groupStop g v => Sys2Proof.Machine.execGroupStop g v s
  | .groupStartInput g => Sys2Proof.Machine.execGroupStartInput g s
  | .timebaseTick t conv cnt tMeas pulses => Sys2Proof.Machine.execTimebaseTick t conv cnt tMeas pulses s
  | .loopEnable n v => Sys2Proof.Machine.execLoopEnable n v s
  | .loopDisable n v => Sys2Proof.Machine.execLoopDisable n v s
  | .coefWrite c v => Sys2Proof.Machine.execCoefWrite c v s
  | .stagedCoefApply => Sys2Proof.Machine.execStagedCoefApply s
  | .nodeWrite idx v => Sys2Proof.Machine.execNodeWrite idx v s
  | .wideWordWrite prog w v => Sys2Proof.Machine.execWideWordWrite prog w v s
  | .traceArm u v => Sys2Proof.Machine.execTraceArm u v s
  | .traceForce u v => Sys2Proof.Machine.execTraceForce u v s
  | .traceAbort u v => Sys2Proof.Machine.execTraceAbort u v s
  | .traceDone u => Sys2Proof.Machine.execTraceDone u s
  | .ceEccError mem w corr => Sys2Proof.Machine.execCeEccError mem w corr s
  | .interlockOpen k => Sys2Proof.Machine.execInterlockOpen k s
  | .interlockClose k => Sys2Proof.Machine.execInterlockClose k s
  | .hvEnable j v => Sys2Proof.Machine.execHvEnable j v s
  | .hvDisable j v => Sys2Proof.Machine.execHvDisable j v s
  | .hvHold j v => Sys2Proof.Machine.execHvHold j v s
  | .hvClear j v => Sys2Proof.Machine.execHvClear j v s
  | .hvPwmPeriod j => Sys2Proof.Machine.execHvPwmPeriod j s
  | .hvFeedbackResult j volt cur => Sys2Proof.Machine.execHvFeedbackResult j volt cur s
  | .dischargeConfirmed j => Sys2Proof.Machine.execDischargeConfirmed j s
  | .dischargeTimeout j => Sys2Proof.Machine.execDischargeTimeout j s
  | .hvGuardSample j code => Sys2Proof.Machine.execHvGuardSample j code s
  | .zcEdge => Sys2Proof.Machine.execZcEdge s
  | .zcLossTimeout => Sys2Proof.Machine.execZcLossTimeout s
  | .heaterHalfCycle h positive => Sys2Proof.Machine.execHeaterHalfCycle h positive s
  | .heaterSample h code => Sys2Proof.Machine.execHeaterSample h code s
  | .heaterOtsTrip h trips => Sys2Proof.Machine.execHeaterOtsTrip h trips s
  | .heaterEnable h v => Sys2Proof.Machine.execHeaterEnable h v s
  | .heaterClear h v => Sys2Proof.Machine.execHeaterClear h v s
  | .onRequestStart => Sys2Proof.Machine.execOnRequestStart s
  | .seqEnd => Sys2Proof.Machine.execSeqEnd s
  | .seqEnable => Sys2Proof.Machine.execSeqEnable s
  | .seqDisable => Sys2Proof.Machine.execSeqDisable s
  | .seqWait => Sys2Proof.Machine.execSeqWait s
  | .seqWaitEnd => Sys2Proof.Machine.execSeqWaitEnd s
  | .seqWaitgood => Sys2Proof.Machine.execSeqWaitgood s
  | .waitgoodTimeout => Sys2Proof.Machine.execWaitgoodTimeout s
  | .seqCheck code => Sys2Proof.Machine.execSeqCheck code s
  | .seqJumpif pws => Sys2Proof.Machine.execSeqJumpif pws s
  | .seqJump => Sys2Proof.Machine.execSeqJump s
  | .seqRetry => Sys2Proof.Machine.execSeqRetry s
  | .seqMark => Sys2Proof.Machine.execSeqMark s
  | .railQualified r => Sys2Proof.Machine.execRailQualified r s
  | .railGoodDrop r => Sys2Proof.Machine.execRailGoodDrop r s
  | .railDroop r => Sys2Proof.Machine.execRailDroop r s
  | .railOvSample r code => Sys2Proof.Machine.execRailOvSample r code s
  | .shutdownSlotDone => Sys2Proof.Machine.execShutdownSlotDone s
  | .retryDelayEnd => Sys2Proof.Machine.execRetryDelayEnd s
  | .pwrOff v => Sys2Proof.Machine.execPwrOff v s
  | .pwrUncleat v => Sys2Proof.Machine.execPwrUncleat v s
  | .pwrSave v => Sys2Proof.Machine.execPwrSave v s
  | .pwrCntClr v => Sys2Proof.Machine.execPwrCntClr v s
  | .sagTrip vin vstay => Sys2Proof.Machine.execSagTrip vin vstay s
  | .sagRearm vin => Sys2Proof.Machine.execSagRearm vin s
  | .stayShadowRefresh => Sys2Proof.Machine.execStayShadowRefresh s
  | .stayFinalCopy arrived => Sys2Proof.Machine.execStayFinalCopy arrived s
  | .staySaveDone => Sys2Proof.Machine.execStaySaveDone s
  | .staySaveAbort => Sys2Proof.Machine.execStaySaveAbort s
  | .nvmDeferredWrite => Sys2Proof.Machine.execNvmDeferredWrite s
  | .thermalConversion ts raw bad => Sys2Proof.Machine.execThermalConversion ts raw bad s
  | .reefLeave l => Sys2Proof.Machine.execReefLeave l s
  | .hardwareTrip ts diode => Sys2Proof.Machine.execHardwareTrip ts diode s
  | .tripRelease => Sys2Proof.Machine.execTripRelease s
  | .pllLock p => Sys2Proof.Machine.execPllLock p s
  | .pllLoss p => Sys2Proof.Machine.execPllLoss p s
  | .referenceLoss => Sys2Proof.Machine.execReferenceLoss s
  | .bandMeasureStart v => Sys2Proof.Machine.execBandMeasureStart v s
  | .bandMeasureDone fmin fmax => Sys2Proof.Machine.execBandMeasureDone fmin fmax s
  | .timeIncCommit v => Sys2Proof.Machine.execTimeIncCommit v s
  | .timeStep v => Sys2Proof.Machine.execTimeStep v s
  | .timeRearm v => Sys2Proof.Machine.execTimeRearm v s
  | .tpoEnable k v => Sys2Proof.Machine.execTpoEnable k v s
  | .tpoDisable k v => Sys2Proof.Machine.execTpoDisable k v s
  | .tpoEdge k => Sys2Proof.Machine.execTpoEdge k s
  | .tpoPulseEnd k => Sys2Proof.Machine.execTpoPulseEnd k s
  | .ethFrameRx p fcsOk bytes => Sys2Proof.Machine.execEthFrameRx p fcsOk bytes s
  | .ethRxPop p v => Sys2Proof.Machine.execEthRxPop p v s
  | .ethTsPop p v => Sys2Proof.Machine.execEthTsPop p v s
  | .ethSend p v => Sys2Proof.Machine.execEthSend p v s
  | .ethTxDone p => Sys2Proof.Machine.execEthTxDone p s
  | .dramTrainEnd n ms => Sys2Proof.Machine.execDramTrainEnd n ms s
  | .dramMrw n => Sys2Proof.Machine.execDramMrw n s
  | .dramTrainPhase n eye result ms => Sys2Proof.Machine.execDramTrainPhase n eye result ms s
  | .dramTrainWait n => Sys2Proof.Machine.execDramTrainWait n s
  | .dramZqcal n => Sys2Proof.Machine.execDramZqcal n s
  | .dramSavedVerify n pass ms => Sys2Proof.Machine.execDramSavedVerify n pass ms s
  | .dramTrainSave v => Sys2Proof.Machine.execDramTrainSave v s
  | .dramTrainForget v => Sys2Proof.Machine.execDramTrainForget v s
  | .dramRead a len wrong sel => Sys2Proof.Machine.execDramRead a len wrong sel s
  | .dramWrite a data sel => Sys2Proof.Machine.execDramWrite a data sel s
  | .dramRefresh n => Sys2Proof.Machine.execDramRefresh n s
  | .dramMr4Poll n fast hot => Sys2Proof.Machine.execDramMr4Poll n fast hot s
  | .neighbourRefresh n bank => Sys2Proof.Machine.execNeighbourRefresh n bank s
  | .scrubRead n wrong => Sys2Proof.Machine.execScrubRead n wrong s
  | .srRequest v => Sys2Proof.Machine.execSrRequest v s
  | .srEntered => Sys2Proof.Machine.execSrEntered s
  | .srExit v => Sys2Proof.Machine.execSrExit v s
  | .srExitDone => Sys2Proof.Machine.execSrExitDone s
  | .dmaEnable n v => Sys2Proof.Machine.execDmaEnable n v s
  | .dmaAbort n v => Sys2Proof.Machine.execDmaAbort n v s
  | .dmaDescFetch n host => Sys2Proof.Machine.execDmaDescFetch n host s
  | .dmaTrigger n => Sys2Proof.Machine.execDmaTrigger n s
  | .dmaFenceClear n => Sys2Proof.Machine.execDmaFenceClear n s
  | .dmaDescComplete n host => Sys2Proof.Machine.execDmaDescComplete n host s
  | .dmaCountWrite n v => Sys2Proof.Machine.execDmaCountWrite n v s
  | .dmaTimerPulse k => Sys2Proof.Machine.execDmaTimerPulse k s
  | .monEnable m v => Sys2Proof.Machine.execMonEnable m v s
  | .monSample m x => Sys2Proof.Machine.execMonSample m x s
  | .monSnap m v => Sys2Proof.Machine.execMonSnap m v s
  | .monClear m v => Sys2Proof.Machine.execMonClear m v s
  | .irqMaskWrite v => Sys2Proof.Machine.execIrqMaskWrite v s
  | .cmdPinPeriod k a b => Sys2Proof.Machine.execCmdPinPeriod k a b s
  | .railGoodRise r => Sys2Proof.Machine.execRailGoodRise r s
  | .backPacketDiscard n => Sys2Proof.Machine.execBackPacketDiscard n s
  | .dmaHostReadError n got => Sys2Proof.Machine.execDmaHostReadError n got s
  | .ethLinkChange p up speed => Sys2Proof.Machine.execEthLinkChange p up speed s
  | .pllPhaseExcursion p => Sys2Proof.Machine.execPllPhaseExcursion p s
  | .vstayDecay => Sys2Proof.Machine.execVstayDecay s

end Sys2Proof.Machine
end

