-- ==== Sys2Proof/Machine/Halyard.lean ====
section
/-!
DEFINITION. The halyard: events of the block's own sources at the sinks of their lines, one tick after they leave
(spec/02_rigging.md R32, R34; spec/12_control_engine.md R286); and what else one tick of the block's clock brings.
-/

namespace Sys2Proof.Machine

open Reg

/-- The source block and event number of an event line that HALYARD can name, at a pulse or a rise of its level (R34). -/
def sourceOf : Event → Option (Nat × Nat)
  | .feedReq true => some (0x0200, 0)
  | .divert => some (0x0200, 1)
  | .spoil true => some (0x0200, 2)
  | .camTrig k => some (0x0200, 16 + k)
  | .mcFault n => some (0x1000 + n, 0)
  | .axDone n => some (0x1200 + n, 0)
  | .agDone g => some (0x1300 + g, 0)
  | .dmaDone n => some (0x3100 + n, 0)
  | .monAlarm m => some (0x5600 + m, 0)
  | .pwsMark => some (0x5800, 0)
  | .tpo k => some (0x5900 + k, 0)
  | _ => none

/-- A pulse at a sink input: the power sequencer's keep it until they are read low, and those of the spar fabric act on
nothing the manual gives. A rise of a level line counts as a pulse of what it feeds (DESIGN CHOICE,
assumption log 85). -/
def sinkPulse (sink inp : Nat) (s : State) : State :=
  if sink = 0x0200 then (if inp = 0 then feedAck s else feedSense s)
  else if sink / 256 = 0x12 then axPulse (sink % 256) s
  else if sink / 256 = 0x13 then agPulse (sink % 256) s
  else if sink / 256 = 0x31 then dmaInput (sink % 256) s
  else if sink = 0x5800 then setPwr { s.pwr with pulsed := inp :: s.pwr.pulsed.filter (· != inp) } s
  else s

/-- A pulse of a line at the trace units whose trigger names it (R286). -/
def tracePulse (line : Nat) (s : State) : State :=
  overN 4 (fun u s =>
    if tuArmed s u ∧ s.g (TU_TRIG_MODE u) = 4 ∧ s.g (TU_TRIG_SRC u) % 256 = line then
      modTu u (fun t => { t with pulse := true }) s
    else s) s

/-- An event reaches every sink of its line. -/
def hear (e : Event) (s : State) : State :=
  match sourceOf e with
  | none => s
  | some (src, ev) =>
    (s.rig.routes.filter fun r => r.src == src && r.ev == ev).foldl
      (fun s r => sinkPulse r.sink r.inp (tracePulse r.line s)) s

def hearOut (s : State) : Out → State
  | .event e => hear e s
  | _ => s

/-- What stands of the things shown, with the events taken back left out. -/
def shownLast (l : List Out) : List Out :=
  l.foldl (fun acc o => match o with
    | .undone e => acc.filter (· != .event e)
    | o => acc ++ [o]) []

/-- Every event that left its source since the last tick reaches its sinks; what that raises waits for the next tick. -/
def deliver (s : State) : State :=
  (shownLast (s.out.drop s.rig.heard)).foldl hearOut { s with rig.heard := s.out.length }

/-- RETIRED contexts are FREE, and what waits for that at the stations follows. -/
def retireTick (s : State) : State :=
  if anyCtx s fun c => ctxState s c == Px.retired then stnSettleAll (freeRetired s) else s

/-- One tick of the block's 250 MHz clock, which is the PSQ's cycle too (DEDUCED, assumption log 21): the time counter and
a step that waits for it, RETIRED contexts freed, the sweeps whose sending ends, corrected bursts written back,
FEED_REQ and the hold of feeding as every condition of theirs now stands (R120, R336), the halyard. The stay island has its
cycle too. -/
def blockTick (s : State) : State :=
  let s1 := stayTick (tick s)
  if s1.dead then s1 else deliver (feedSync (writeBackTick (overN 8 sendDue (retireTick (stepDue s1)))))

end Sys2Proof.Machine
end

