-- ==== Sys2Proof/Machine/Step.lean ====
section
/-!
DEFINITION. One step of the block: the command at the front of the queue; where none waits, a command that a full
completion ring had held and that may now start, or a tick of the block's clock.
-/

namespace Sys2Proof.Machine

/-- The command at the front is taken out of the queue and has its effect. With none waiting, a command that its pair
held for want of space starts (R65); else one tick of the 250 MHz clock passes (assumption log 21). -/
def step (s : State) : Host.Outcome State Fault Refusal :=
  match s.pending with
  | c :: r => exec c { s with pending := r }
  | [] => match startable s with
    | some c => exec c s
    | none => .next (blockTick s)

/-- `s` with the command that a table word spells put at the front of its queue; unchanged where the word spells none. -/
def State.withFetchWord (s : State) (nbits w : Nat) : State :=
  match Sys2Proof.decodeTableWord nbits w with
  | some c => { s with pending := c :: s.pending }
  | none => s

end Sys2Proof.Machine
end

