-- ==== Sys2Proof/Machine/Pins.lean ====
section
/-!
DEFINITION. What each ball does in a state: the outputs of the units that PINMAP places, the balls of the fabric, and the
balls of an image not yet applied (spec/02_rigging.md R47, R450, spec/10_motors_foc.md R233, R242, spec/11_step_motion.md
R253, R255, spec/13_hv_fuser.md R290, R295, spec/14_power_supervision.md R313, spec/22_electrical_package.md R436).
-/

namespace Sys2Proof.Machine

open Reg

/-- What a ball does. -/
inductive Drive where
  /-- high-impedance, with its pull-down or with no pull -/
  | highZ (pullDown : Bool)
  /-- read by its unit -/
  | input
  /-- driven to a level -/
  | level (b : Bool)
  /-- one output of a complementary pair, the lower or the upper: the upper's high time, the period and the dead time on
  each edge, in 5 ns (R233) -/
  | phase (lower : Bool) (high period dead : Nat)
  /-- a PWM whose duty is num / den (R293) -/
  | pwm (num den : Nat)
  /-- a transmit lane in electrical idle (R178) -/
  | idle
  /-- the unit's own signal: a link, a clock, test vectors -/
  | signal
  /-- driven or read by the fabric -/
  | fabric
  deriving DecidableEq, Repr

/-- An output of FOC channel `n`: 0 UH, 1 UL, 2 VH, 3 VL, 4 WH, 5 WL (R233, R242). Off drives all six to 0; the active short
drives the lower ones to 1, until its release. -/
def mcDrive (s : State) (n sig : Nat) : Drive :=
  let st := mcState s n
  let u := mcU s n
  let lower := sig % 2 == 1
  if 6 ≤ sig then .input
  else if st = Mcs.off ∨ st = Mcs.fault then .level false
  else if st = Mcs.brake ∨ (st = Mcs.stopping ∧ u.short) then .level (lower && !u.released)
  else if st = Mcs.ipd then .signal
  else match u.duty with
    | none => .level false
    | some h => .phase lower (if sig < 2 then h.1 else if sig < 4 then h.2.1 else h.2.2) (pwmUnits s n) (s.g (MC_PWM_DEAD n))

/-- A signal of axis `n`: 0 STEP, 1 DIR, 2 EN, 3 to 5 MRES, 6 START (R253, R255). -/
def axDrive (s : State) (n sig : Nat) : Drive :=
  let u := axU s n
  match sig with
  | 0 => .level (decide (0 < u.high))
  | 1 => .level (u.dirOut == s.on (AX_CTRL_DIR_INV n))
  | 2 => .level (s.on (AX_CTRL_ENABLE n) == s.on (AX_CTRL_EN_POL n))
  | 6 => .input
  | k => .level (bitsOf (mresShown s n) (k - 3) 1 == 1)

/-- A signal of HV channel `j`: 0 HVj_EN, 1 HVj_DRV, 2 HVj_DSC (R295). -/
def hvDrive (s : State) (j sig : Nat) : Drive :=
  let on := decide (hvState s j = Hvs.on) && !outForced s
  match sig with
  | 0 => .level on
  | 1 => if on then .pwm (hvU s j).duty.1 (hvU s j).duty.2 else .level false
  | _ => .level (!on)

/-- What signal `sig` of unit `inst` of PINMAP class `cls` does on its ball, in a RIGGED chip. -/
def unitDrive (s : State) (cls inst sig : Nat) : Drive :=
  match cls with
  | 0x01 =>
    if sig < 4 then (if 2 ≤ sig ∧ (s.stnU inst).link.version = 0x0100 then .idle else .signal)
    else if sig = 6 then .level (!laserOn s inst) else .input
  | 0x10 => mcDrive s inst sig
  | 0x12 => axDrive s inst sig
  | 0x16 => hvDrive s inst sig
  | 0x17 => .level (htU s inst).gate
  | 0x50 => if sig = 0 then .level (s.on (PWR_SLOT_STAT_ACTIVE inst) == s.on (PWR_SLOT_CFG_EN_POL inst)) else .input
  | 0x59 => .level (s.on (TPO_STAT_HIGH inst) != s.on (TPO_CTRL_POL inst))
  | 0x5C => .signal
  | _ => .input

/-- The spar fabric drives or reads FIO ball `i` (R46). -/
def fabricUses (s : State) (i : Nat) : Bool := bitsOf (bytesAt s.rig.spar 0x18 16) i 1 == 1

/-- What a ball of the multiplexed pool, of a station or of a CSI port does (R47, R436, R450): before RIGGED a laser enable
is high and the rest high-impedance; then a ball that PINMAP gives to a unit signal is that unit's alone, an FIO ball of the
running fabric is the fabric's, and any other is high-impedance, a MIO ball with its pull-down. -/
def ballDrive (s : State) (ball : Nat) : Drive :=
  let rest := Drive.highZ ((fioOf ball).isNone && ballUse ball == 1)
  if !s.rigged then
    (if (List.range 8).any fun n => ballUse ball == fixedUse 1 n 6 then .level true else rest)
  else match s.rig.pads.find? fun p => p.1 == ball with
  | some (_, _, cls, inst, sig) => unitDrive s cls inst sig
  | none => match fioOf ball with
    | some i => if fabricUses s i && s.fabricRuns then .fabric else rest
    | none => rest

/-- The pair CKOk_P and CKOk_N while it runs: format, swing, frequency as a fraction in kHz, and whether CKOk_N is held low
(R354). -/
structure CkoOut where
  fmt : Nat
  swing : Nat
  khz : Nat × Nat
  negLow : Bool
  deriving DecidableEq, Repr

/-- What clock output CKOk shows; none where both legs are low: off, not yet rigged, its PLL not locked or never configured,
or above its format's limit (R354, R355, R436). -/
def ckoDrive (s : State) (k : Nat) : Option CkoOut :=
  let fmt := s.g (CLK_CKO_FMT k)
  let src := s.g (CLK_CKO_SRC k)
  let runs := if k < 8 then pllLocked s (2 + k) else if src = 0 then s.on CLK_REF_OK else if src = 1 then pllLocked s 0
    else pllLocked s (8 + src)
  let lim := if fmt = 3 then 125000 else 312500
  if s.rigged && runs && decide (1 ≤ fmt ∧ fmt ≤ 3) && !ckoOver s k lim then
    some { fmt := fmt, swing := min 2 (s.g (CLK_CKO_SWING k)), khz := ckoKhz s k, negLow := fmt == 3 }
  else none

/-- The debug port TCK, TMS, TDI, TDO and TRST_N answers: DEBUG_LOCK, taken at the chip reset, disables it (R444). -/
def debugOpen (s : State) : Bool := !s.on SPAR_STAT_READBACK_LOCKED

/-- The pad setting of a ball, where PINMAP places a signal on it. -/
def padOf (s : State) (ball : Nat) : Option Nat := (s.rig.pads.find? fun p => p.1 == ball).map fun p => p.2.1

end Sys2Proof.Machine
end

