-- ==== Sys2Proof/Safety.lean ====
section
/-!
DEFINITION. What claims are stated in: the parts of State by name and which of them each command may change, the
canonical forms, the answer of a command, what a step may never do.
-/

namespace Sys2Proof.Machine

open Reg

/-- The parts of State that a command may change. -/
inductive Piece where
  | regs | latch | mem | time | free | out | host | err | psq | ctx | codec | stn | epoch | nvm | staySeq | dram | clk
  | mon | rig | mot | pwr | thm | vis | net | dma | pins
  deriving DecidableEq, Repr

/-- Part `p` is the same in both states. -/
def Piece.same (a b : State) : Piece → Prop
  | .regs => b.regs = a.regs
  | .latch => b.latch = a.latch
  | .mem => b.mem = a.mem
  | .time => b.time = a.time
  | .free => b.free = a.free
  | .out => b.out = a.out
  | .host => b.host = a.host
  | .err => b.err = a.err
  | .psq => b.psq = a.psq
  | .ctx => b.ctx = a.ctx
  | .codec => b.codec = a.codec
  | .stn => b.stn = a.stn
  | .epoch => b.epoch = a.epoch ∧ b.epochNvm = a.epochNvm
  | .nvm => b.nvmRing = a.nvmRing ∧ b.nvmNext = a.nvmNext
  | .staySeq => b.staySeq = a.staySeq
  | .dram => b.dram = a.dram
  | .clk => b.clk = a.clk
  | .mon => b.mon = a.mon
  | .rig => b.rig = a.rig
  | .mot => b.mot = a.mot
  | .pwr => b.pwr = a.pwr
  | .thm => b.thm = a.thm
  | .vis => b.vis = a.vis
  | .net => b.net = a.net
  | .dma => b.dma = a.dma
  | .pins => b.inReset = a.inReset ∧ b.pinLow = a.pinLow

/-- Which parts of State a command may change; every other part stands. A command that may bring the block to reset
(a step of the power sequencer or of the supply that lets a waiting CHIP_RESET finish, R427) may change what the reset
changes. -/
def Instr.parts : Sys2Proof.Instr → List Piece
  | .powerOn | .staySaveAbort | .vstayDecay =>
      [.regs, .latch, .mem, .time, .free, .host, .err, .psq, .ctx, .codec, .stn, .epoch, .staySeq, .dram, .clk,
        .mon, .rig, .mot, .pwr, .thm, .vis, .net, .dma, .pins]
  | .resetPin .. | .supplyFail =>
      [.regs, .latch, .mem, .time, .free, .out, .host, .err, .psq, .ctx, .codec, .stn, .epoch, .staySeq, .dram,
        .clk, .mon, .rig, .mot, .pwr, .thm, .vis, .net, .dma, .pins]
  | .supplyRecover =>
      [.regs, .pwr, .pins]
  | .chipReset .. | .registerWrite .. | .waitgoodTimeout | .seqJumpif .. | .railDroop .. | .railOvSample .. |
      .shutdownSlotDone | .retryDelayEnd | .sagTrip .. | .hardwareTrip .. | .srExitDone =>
      [.regs, .latch, .mem, .time, .free, .out, .host, .err, .psq, .ctx, .codec, .stn, .epoch, .nvm, .staySeq,
        .dram, .clk, .mon, .rig, .mot, .pwr, .thm, .vis, .net, .dma]
  | .absentUnitAccess .. | .unmappedAccess .. | .readClear .. | .lowWordRead .. | .fenceRead .. =>
      [.regs, .latch, .free, .out, .stn, .clk]
  | .mbxHdrRead .. | .errSlotRead .. | .timeNowRead .. =>
      [.regs, .latch, .out]
  | .syspllLock .. | .qspiHeaderRead .. | .qspiImageReadDone .. | .rigOpen .. | .rigCommit .. | .rigAbandon .. =>
      [.regs, .out, .rig]
  | .nvmImageReadDone | .apertureWrite .. | .nvmImageStoreDone | .csetConfirm .. | .csetProgramDone =>
      [.regs, .rig]
  | .imageVerified .. =>
      [.regs, .mem, .free, .out, .host, .err, .psq, .ctx, .codec, .stn, .nvm, .staySeq, .dram, .clk, .mon, .rig,
        .mot, .pwr, .vis, .net, .dma]
  | .sparHostWrite .. =>
      [.regs, .out, .stn, .mot]
  | .pcieReset .. =>
      [.regs, .mem, .free, .out, .host, .err, .psq, .ctx, .codec, .stn, .nvm, .staySeq, .dram, .mot, .net, .dma]
  | .bar2Access .. =>
      [.regs, .mem, .free, .out, .host, .err, .nvm, .staySeq, .dram, .net]
  | .sqDoorbell .. | .sessionClose .. | .hello .. | .logReadDone .. | .timeEventDue .. | .unknownOpcode .. =>
      [.regs, .out, .host]
  | .cqDoorbell .. =>
      [.regs, .mem, .free, .out, .host, .err, .psq, .ctx, .codec, .stn, .nvm, .staySeq, .dram, .clk, .mot, .pwr,
        .thm, .vis, .net]
  | .qpEnable .. | .qpDisable .. =>
      [.regs, .out, .host, .ctx]
  | .bye .. | .logRead .. | .timeEvent .. | .scrubRead .. =>
      [.regs, .out, .host, .err, .nvm, .staySeq, .dram, .net]
  | .statusQuery .. =>
      [.regs, .free, .out, .host, .err, .stn, .nvm, .staySeq, .dram, .thm, .net]
  | .engineStart .. =>
      [.regs, .free, .out, .host, .err, .psq, .stn, .nvm, .staySeq, .dram, .clk, .pwr, .net]
  | .engineStop .. =>
      [.regs, .mem, .free, .out, .host, .err, .psq, .ctx, .codec, .stn, .nvm, .staySeq, .dram, .mot, .net]
  | .speedSet .. =>
      [.regs, .out, .host, .err, .psq, .ctx, .stn, .nvm, .staySeq, .dram, .clk, .net]
  | .sheetCommit .. =>
      [.regs, .out, .host, .err, .psq, .ctx, .codec, .nvm, .staySeq, .dram, .net]
  | .sheetAbort .. =>
      [.regs, .free, .out, .host, .err, .psq, .ctx, .stn, .nvm, .staySeq, .dram, .clk, .net]
  | .stationCfg .. | .emitterSet .. =>
      [.regs, .out, .host, .err, .psq, .stn, .nvm, .staySeq, .dram, .clk, .net]
  | .registerAdjust .. =>
      [.regs, .out, .host, .err, .psq, .stn, .nvm, .staySeq, .dram, .vis, .net]
  | .cameraCfg .. =>
      [.regs, .out, .host, .err, .nvm, .staySeq, .dram, .vis, .net]
  | .frameUpload .. =>
      [.regs, .out, .host, .err, .codec, .nvm, .staySeq, .dram, .vis, .net]
  | .frameUploadDone .. =>
      [.regs, .free, .out, .host, .err, .nvm, .staySeq, .dram, .vis, .net]
  | .codecJob .. =>
      [.regs, .out, .host, .err, .codec, .nvm, .staySeq, .dram, .net]
  | .sheetDoneWrite .. =>
      [.regs, .out, .host, .psq, .stn, .clk, .net]
  | .replHello .. | .ethFrameRx .. =>
      [.regs, .free, .out, .host, .net]
  | .replBye .. =>
      [.regs, .out, .host, .net]
  | .replStatusQuery .. | .replTimeEvent .. | .replUnknownOp .. =>
      [.out, .host, .net]
  | .replAck .. =>
      [.host]
  | .replNotifyRetry .. | .dramMr4Poll .. =>
      [.regs, .out, .host, .err, .nvm, .staySeq, .net]
  | .replPortDisable .. =>
      [.regs, .host]
  | .verifyBandStart .. =>
      [.regs, .out, .psq, .ctx, .codec]
  | .verifyBandDone .. =>
      [.regs, .out, .host, .err, .psq, .ctx, .codec, .stn, .nvm, .staySeq, .dram, .net]
  | .sheetAdmission .. =>
      [.regs, .out, .host, .psq, .ctx, .codec, .stn]
  | .inflateJobDone .. =>
      [.regs, .mem, .out, .host, .err, .codec, .nvm, .staySeq, .dram, .net]
  | .cmpJobStart =>
      [.regs, .codec]
  | .cmpJobDone =>
      [.regs, .mem, .free, .out, .host, .err, .codec, .nvm, .staySeq, .dram, .net]
  | .cmpPause | .warmupComplete | .livRx .. | .nodeWrite .. | .traceDone .. | .tripRelease | .srRequest .. |
      .srExit .. | .dmaCountWrite .. =>
      [.regs]
  | .stationBandStart .. | .reloadStart .. | .tableWrite .. | .trainTimeout .. =>
      [.regs, .stn]
  | .stationBandDone .. | .bdEdge .. | .bdMissTimeout .. | .dramTrainPhase .. =>
      [.regs, .free, .out, .host, .err, .psq, .ctx, .codec, .stn, .nvm, .staySeq, .dram, .mot, .vis, .net]
  | .encoderSample .. | .feedSense | .misfeedTimeout .. | .trigStation .. | .containmentTimeout .. |
      .regionResetTimeout .. | .backLockLoss .. | .statusRx .. | .controlResendTimeout .. | .sweepUnreported .. |
      .linkDown .. | .linkUp .. | .linkRetrain .. | .mcEnable .. | .mcDisable .. | .mcStop .. | .mcClear .. |
      .mcPwmPeriod .. | .mcStartTimeout .. | .mcIpdDone .. | .mcReacqTimeout .. | .mcDriverFault .. |
      .dischargeTimeout .. | .backPacketDiscard .. =>
      [.regs, .free, .out, .host, .err, .psq, .ctx, .codec, .stn, .nvm, .staySeq, .mot, .vis, .net]
  | .feedReqRaise | .speedBoundaryStart =>
      [.regs, .out, .psq]
  | .feedAck | .trigWebOrigin =>
      [.regs, .out, .psq, .ctx, .stn, .clk, .vis]
  | .webRunStart =>
      [.psq]
  | .trigFeedpos .. =>
      [.regs, .ctx]
  | .trigPrefetch .. =>
      [.regs, .ctx, .stn]
  | .trigStationDone .. =>
      [.regs, .free, .out, .psq, .ctx, .stn, .clk]
  | .trigDelivery .. =>
      [.regs, .out, .psq, .ctx]
  | .trigCamera .. =>
      [.regs, .out, .ctx, .vis]
  | .boundaryPathClear =>
      [.regs, .psq, .stn, .clk]
  | .boundaryLocked =>
      [.regs, .psq]
  | .ptrimWrite .. =>
      [.regs, .out, .psq, .stn, .clk]
  | .drainComplete | .mcStopDone .. =>
      [.regs, .free, .out, .psq, .ctx, .stn, .mot]
  | .regionResetDone .. =>
      [.regs, .free, .out, .err, .psq, .ctx, .stn, .mot]
  | .reloadDone .. =>
      [.regs, .free, .out, .host, .err, .psq, .stn, .nvm, .staySeq, .dram, .clk, .net]
  | .wearNvmWrite .. =>
      [.stn]
  | .boostEnd .. =>
      [.regs, .out, .host, .err, .psq, .stn, .nvm, .staySeq, .clk, .net]
  | .linkTrainStart .. | .backBlockLock .. | .retrainDelayEnd .. =>
      [.regs, .out, .stn]
  | .capsReqSend .. | .bankLoadStart .. | .livReqSend .. =>
      [.out, .stn]
  | .capsRx .. | .healthRx .. =>
      [.regs, .out, .host, .err, .stn, .nvm, .staySeq, .net]
  | .csiPacket .. | .memFrameProcess .. =>
      [.regs, .vis]
  | .frameStart .. =>
      [.regs, .mem, .free, .out, .host, .codec, .dram, .vis]
  | .frameEnd .. =>
      [.regs, .mem, .out, .host, .codec, .dram, .vis]
  | .cciWritesDone .. =>
      [.regs, .out, .vis]
  | .frameResult .. =>
      [.regs, .mem, .free, .out, .host, .err, .nvm, .staySeq, .dram, .vis, .net]
  | .regAutoStep .. =>
      [.regs, .out, .host, .err, .psq, .stn, .nvm, .staySeq, .vis, .net]
  | .regPtrimStep =>
      [.regs, .out, .psq, .stn, .clk, .vis]
  | .mcSenseDone .. | .mcBrakeStill .. | .axisEnable .. | .axisDisable .. | .axisGo .. | .axisStop .. |
      .axisClear .. | .axisTargetWrite .. | .axisProfileWrite .. | .axisMoveEnd .. | .groupGo .. | .groupStop .. |
      .hvPwmPeriod .. | .heaterHalfCycle .. | .heaterEnable .. | .heaterClear .. =>
      [.regs, .out, .mot]
  | .mcReacqWindow .. | .axisProfileTick | .ceEccError .. | .hvFeedbackResult .. | .hvGuardSample .. | .zcEdge |
      .zcLossTimeout | .heaterSample .. | .heaterOtsTrip .. =>
      [.regs, .out, .host, .err, .nvm, .staySeq, .mot, .net]
  | .cmdLossTimeout .. =>
      [.regs, .free, .out, .host, .err, .psq, .ctx, .stn, .nvm, .staySeq, .mot, .net]
  | .axisStartInput .. | .axisEncoderSample .. | .groupStartInput .. | .timebaseTick .. | .loopEnable .. |
      .loopDisable .. | .coefWrite .. | .stagedCoefApply | .wideWordWrite .. | .traceArm .. | .traceForce .. |
      .traceAbort .. | .hvEnable .. | .hvDisable .. | .hvHold .. | .hvClear .. | .dischargeConfirmed .. |
      .cmdPinPeriod .. =>
      [.regs, .mot]
  | .interlockOpen .. =>
      [.regs, .free, .out, .host, .err, .psq, .ctx, .codec, .stn, .nvm, .staySeq, .mot, .net]
  | .interlockClose .. | .irqMaskWrite .. =>
      [.regs, .out]
  | .onRequestStart | .seqEnd | .seqEnable | .seqDisable | .seqWait | .seqWaitEnd | .seqWaitgood | .seqCheck .. |
      .seqJump | .seqRetry | .railQualified .. | .railGoodDrop .. | .stayFinalCopy .. | .railGoodRise .. =>
      [.regs, .latch, .mem, .time, .free, .host, .err, .psq, .ctx, .codec, .stn, .epoch, .staySeq, .dram, .clk,
        .mon, .rig, .mot, .pwr, .thm, .vis, .net, .dma]
  | .seqMark =>
      [.regs, .latch, .mem, .time, .free, .out, .host, .err, .psq, .ctx, .codec, .stn, .epoch, .staySeq, .dram,
        .clk, .mon, .rig, .mot, .pwr, .thm, .vis, .net, .dma]
  | .pwrOff .. | .pwrUncleat .. | .pwrSave .. | .pwrCntClr .. =>
      [.regs, .free, .out, .host, .err, .psq, .ctx, .codec, .stn, .nvm, .staySeq, .mot, .pwr, .vis, .net]
  | .sagRearm .. =>
      [.regs, .latch, .mem, .time, .free, .host, .err, .psq, .ctx, .codec, .stn, .epoch, .staySeq, .dram, .clk,
        .mon, .rig, .mot, .thm, .vis, .net, .dma]
  | .stayShadowRefresh =>
      [.pwr]
  | .staySaveDone =>
      [.regs, .latch, .mem, .time, .free, .out, .host, .err, .psq, .ctx, .codec, .stn, .epoch, .nvm, .staySeq,
        .dram, .clk, .mon, .rig, .mot, .pwr, .thm, .vis, .net, .dma, .pins]
  | .nvmDeferredWrite =>
      [.regs, .err, .stn, .epoch, .nvm, .dram, .pwr]
  | .thermalConversion .. =>
      [.regs, .free, .out, .host, .err, .psq, .ctx, .codec, .stn, .nvm, .staySeq, .mot, .thm, .vis, .net]
  | .reefLeave .. =>
      [.regs, .out, .psq, .thm]
  | .pllLock .. =>
      [.regs, .mem, .free, .out, .host, .err, .psq, .ctx, .codec, .stn, .nvm, .staySeq, .dram, .clk, .mot, .vis,
        .net]
  | .pllLoss .. =>
      [.regs, .free, .out, .host, .err, .psq, .ctx, .codec, .stn, .nvm, .staySeq, .clk, .mot, .vis, .net]
  | .referenceLoss =>
      [.regs, .free, .out, .host, .err, .psq, .ctx, .codec, .stn, .nvm, .staySeq, .mot]
  | .bandMeasureStart .. | .bandMeasureDone .. =>
      [.regs, .clk]
  | .timeIncCommit .. | .timeStep .. | .timeRearm .. | .ethRxPop .. | .ethTsPop .. | .ethSend .. |
      .ethLinkChange .. =>
      [.regs, .net]
  | .tpoEnable .. | .tpoDisable .. | .tpoPulseEnd .. | .ethTxDone .. =>
      [.regs, .out, .net]
  | .tpoEdge .. =>
      [.regs, .out, .net, .dma]
  | .dramTrainEnd .. | .dramSavedVerify .. | .dramTrainSave .. | .dramTrainForget .. =>
      [.regs, .dram]
  | .dramMrw .. | .dramZqcal .. =>
      [.out, .dram]
  | .dramTrainWait .. =>
      [.dram]
  | .dramRead .. =>
      [.regs, .free, .out, .host, .err, .nvm, .staySeq, .dram, .net]
  | .dramWrite .. =>
      [.regs, .mem, .dram]
  | .dramRefresh .. | .neighbourRefresh .. | .srEntered =>
      [.regs, .out, .dram]
  | .dmaEnable .. | .dmaAbort .. | .dmaDescComplete .. | .dmaHostReadError .. =>
      [.regs, .mem, .free, .out, .host, .err, .stn, .nvm, .staySeq, .dram, .mot, .net, .dma]
  | .dmaDescFetch .. =>
      [.regs, .free, .out, .host, .err, .nvm, .staySeq, .dram, .net, .dma]
  | .dmaTrigger .. | .dmaFenceClear .. | .dmaTimerPulse .. =>
      [.regs, .dma]
  | .monEnable .. | .monSnap .. | .monClear .. =>
      [.regs, .mon]
  | .monSample .. =>
      [.regs, .out, .mon]
  | .pllPhaseExcursion .. =>
      [.clk]

/-- The canonical form of the three banks of State that a claim may rest on. -/
def banksWf (s : State) : Prop :=
  bankWf (resetWord s.part s.rev) s.regs = true ∧ bankWf (fun _ => (0 : Word)) s.latch = true ∧ Memory.wf s.mem = true

/-- A command is answered by a next state, of which `post` holds. -/
def Does (c : Sys2Proof.Instr) (s : State) (post : State → Prop) : Prop :=
  ∃ t, exec c s = .next t ∧ post t

/-- A host access to the register at `off` comes to the register's own rules: nothing is held in reset or stopped, and
no class of access in front of them answers it (R425). -/
abbrev Reaches (s : State) (off : Nat) : Prop := s.dead = false ∧ s.access off = .own

/-- The only registers that may differ between two states are those at the offsets listed. -/
def OnlyRegs (l : List Nat) (s t : State) : Prop := ∀ off, off ∉ l → t.reg off = s.reg off

/-- What has been shown outside between two states. -/
def shown (s t : State) : List Out := t.out.drop s.out.length

/-- A completion entry of these fields has been written to pair `q`'s ring between two states (R66). -/
def completes (q cid op status result : Nat) (s t : State) : Bool :=
  (shown s t).any fun o => match o with
    | .cqe p _ c => p == q && c.cid == cid && c.op == op && c.status == status && c.result == result
    | _ => false

/-- A completion entry of these fields, whatever its result, has been written to pair `q`'s ring between two states. -/
def completesAs (q cid op status : Nat) (s t : State) : Bool :=
  (shown s t).any fun o => match o with
    | .cqe p _ c => p == q && c.cid == cid && c.op == op && c.status == status
    | _ => false

/-- The error that a decoder met, with the output before it (R98). -/
def metBy (r : Except Inflate.Met (List Byte)) : Option Inflate.Met :=
  match r with
  | .error m => some m
  | .ok _ => none

/-- A command of pair `q` that comes now is judged at once: its pair may start one, none is held before it, and none
queued there is to complete with VERSION (R62, R64, R65, R77). -/
def turn (s : State) (q : Nat) : Bool :=
  !s.dead && canStart s q && (s.qpU q).doomed == 0 && s.host.heldCmds.all fun h => h.q != q

/-- A command that is judged at once, and that no check of R67 refuses. -/
def accepted (s : State) (e : Entry) (op : Nat) (absent ok : State → Bool) : Bool :=
  let s1 := fetchEntry e.q s
  turn s e.q && (firstFail s1 e op (absent s1) (ok s1) (legalIn op s1.engine)).isNone

/-- `t` is what the completion of a command with a status and a result leaves (R59, R64-R66, R83). -/
def Ends (e : Entry) (op status result : Nat) (t : State) : Prop := ∃ m, t = done e op status result m

/-- What a sample command gives monitor `m`: the sample of its probe point (R411). -/
def probed (s : State) (m : Nat) (x : BitVec 32) : Int :=
  probeValue s (s.g (MON_CFG_KIND m)) (s.g (MON_CFG_SEL m)) x.toInt

/-- An event of its probe that monitor `m`, running, takes as a sample: the probe is not idle, and the event is one that
SUB lets through (R411). -/
abbrev monTakes (s : State) (m : Nat) : Prop :=
  s.on (MON_CFG_ENABLE m) = true ∧ probeIdle s (s.g (MON_CFG_KIND m)) (s.g (MON_CFG_SEL m)) = false ∧
    (eventKind (s.g (MON_CFG_KIND m)) = false ∨ (monU s m).seen = 0)

/-- The bin of a sample: floor((x - BASE) / WIDTH), clamped to 0 to 63 (R412). -/
def binOf (s : State) (m : Nat) (x : Int) : Nat :=
  (clampI 0 63 ((x - s.gi (MON_BASE_BASE m)) / ((max 1 (s.g (MON_SCALE_WIDTH m)) : Nat) : Int))).toNat

/-- The runs of bits of the register at `off`, with their access types (R8). -/
def regBits (off : Nat) : List RegTable.Bits :=
  match RegTable.find off with
  | some (d, _) => d.bits
  | none => []

/-- A write of the register at `off` has a rule of its own beside its access types. -/
def ownRule (off : Nat) : Bool :=
  off == CHIP_RESET || off == RIG_LOADCTRL || inAperture off
    || (first [infWrites off 0, memWrites off 0, hntWrites off 0, imgWrites off 0, motWrites off 0]).isSome

/-- The word that a host read of the register at `off` returns by its access types. -/
def shownWord (s : State) (off : Nat) : Word := BitVec.ofNat 32 (wordRead (regBits off) (s.reg off).toNat)

/-- A read of the register at `off` does no more than its access types say: it returns no latch and no word of a unit,
latches and counts nothing, and touches no DRAM register (R79, R80, R359, R361, R395, R417). -/
def plainRead (off : Nat) : Bool :=
  windowOf off == .plain && (highOf off).isNone && off != CHIP_FENCE && !decide (0x201000 ≤ off ∧ off < 0x203000)
    && (instOf off (MBX_HDR 0) 0x40 64).isNone && (instOf off (ERR_REC 0 0) 0x20 256).isNone
    && (instOf off (STN_LMARGIN 0) 0x100000 8).isNone && (instOf off (STN_LEVEL 0) 0x100000 8).isNone

/-- A step is safe where it neither stops nor forgets: it answers a next state, and whatever the block had shown
outside before stays shown. -/
def SafeStep (s : State) : Prop := ∃ t, step s = .next t ∧ s.out <+: t.out

end Sys2Proof.Machine
end

