-- ==== Sys2Proof/Certificates/Slice0/Obligations.lean ====
section
/-!
DEFINITION. The statements for the provers, each with the rules of spec/ it comes from.
-/

open Sys2Proof Sys2Proof.Machine Sys2Proof.Machine.Reg

/-- A step with a command at the front of the queue is that command's effect on the state with the rest of the
queue, whatever the command and the state. With no command waiting, one that its pair held for want of completion
space and that may start now has its effect. With none of either the step is one tick of the 250 MHz clock, which is
the model's choice (assumption log 21): four nanoseconds pass, and what was shown stays shown. While the stay island
runs and no shutdown ends in that cycle, the tick of a block that is held moves the clock alone; that of a running
block leaves device DRAM, the latches, the reset epoch, the monitors, the thermal unit and the pins as they are, and
advances the time counter by the increment in force and then by the accepted step that waits, if one does.
(03_host_rep.md, Queue pairs, 01_architecture.md, Clock islands) -/
def Obligations.StepRunsTheFront : Prop :=
  (∀ (c : Instr) (s : State) (q : List Instr), s.pending = c :: q → step s = exec c { s with pending := q }) ∧
    (∀ (c : Instr) (s : State), s.pending = [] → startable s = some c → step s = exec c s) ∧
    ∀ s : State, s.pending = [] → startable s = none → ∃ t, step s = .next t ∧ t.clock = s.clock + 4 ∧
      t.pending = [] ∧ s.out <+: t.out ∧
      (s.pwr.lost = false → s.pwr.endDue = false →
        (s.dead = true → t = { s with clock := s.clock + 4 }) ∧
        (∀ p ∈ [Piece.latch, .mem, .epoch, .mon, .thm, .pins], p.same s t) ∧
        (s.dead = false → t.time = (stepDue (tick s)).time ∧ (tick s).time = s.time.add s.net.inc.1 s.net.inc.2))

/-- After reset the register bank, the latches and device DRAM are in canonical form: their keys rise strictly, and
no entry equals what an unlisted key reads as. No command waits and nothing has been shown. (21_register_index.md,
BAR0 map) -/
def Obligations.ResetIsCanonical : Prop :=
  banksWf State.reset ∧ State.reset.pending = [] ∧ State.reset.out = []

/-- From every state whose register bank, latches and device DRAM are in canonical form, whatever command is at the
front of its queue, a step that answers a next state answers one whose three banks are in canonical form: no key
stands twice, and equal contents are equal data. (21_register_index.md, BAR0 map) -/
def Obligations.EveryStepKeepsTheBanksCanonical : Prop :=
  ∀ s t : State, banksWf s → step s = .next t → banksWf t

/-- Whatever the command and the state, the block answers a next state, with neither fault nor refusal. That state
keeps the part number, the revision, the queue and the model's clock; what the block had shown outside stays shown,
with anything new after it; the count of open values used and the reset count that NVM holds never fall.
(00_scope.md, Family, 01_architecture.md, Errors and their containment) -/
def Obligations.EveryCommandAnswersAndAppends : Prop :=
  ∀ (c : Instr) (s : State), ∃ t, exec c s = .next t ∧ t.part = s.part ∧ t.rev = s.rev ∧ t.pending = s.pending ∧
    t.clock = s.clock ∧ s.out <+: t.out ∧ s.free ≤ t.free ∧ s.epochNvm ≤ t.epochNvm

/-- The frame of every command: where a command answers a next state, every part of the state that the command's own
list does not name is the same after it. The lists name for each command the registers, units and memories it may
change: device DRAM changes only by the commands whose rules store there or reset it, the NVM ring only by those
that record or copy errors, the time counter only by TIME_STEP, TIME_REARM and what may reset the block.
(01_architecture.md, Levels and regions, 01_architecture.md, Errors and their containment) -/
def Obligations.CommandFrame : Prop :=
  ∀ (c : Instr) (s t : State) (p : Piece), exec c s = .next t → p ∉ Instr.parts c → p.same s t

/-- The model's state at reset. A state whose register bank lists nothing, as State.reset, shows in each register
the value the spec states for reset: identity, capabilities and budget by part, the queue pairs' vectors, DMA
vectors and VCO bands by their formulas, station tables at 1.0, the defaults of axes, monitors, thermal levels,
supervision and clocks, and 0 for REP_STAT and ILK_HEAT. In State.reset the block is UNRIGGED and at time 0. That
State.reset is of the one part it is of, and that its device DRAM, whose contents the spec leaves undefined until
training, reads as zeros, are the model's choices (assumption logs 1 and 13), as is 0 for every field whose reset
value the spec does not give (assumption log 2). (00_scope.md, Family, 21_register_index.md, BAR0 map,
21_register_index.md, Chip registers, 18_dram.md, Contents after reset) -/
def Obligations.ResetValues : Prop :=
  (∀ s : State, s.regs = [] →
    s.reg CHIP_CAPS = BitVec.ofNat 32 (match s.part with
      | .mlv9120 => 0x3863FFFF
      | .mlv9080 => 0x3043F30F
      | .mlv9040 => 0x0C314003) ∧
    s.reg PSQ_BUDGET = (if s.part = .mlv9040 then 0x01C00A8C else 0x03800A8C) ∧
    (∀ n : Fin 16, s.reg (REP_QCFG n) = BitVec.ofNat 32 ((n + 1) * 65536)) ∧
    (∀ n : Fin 64, s.reg (DMA_CTRL n) = BitVec.ofNat 32 ((32 + n) * 65536)) ∧
    (∀ b : Fin 64, s.reg (CLK_BAND b) = BitVec.ofNat 32 ((3260 + 64 * b) * 65536 + 3100 + 64 * b)) ∧
    (∀ n : Fin 8, s.reg (STN_CELL n 4095 39) = 0x40000 ∧ s.reg (STN_SCR n 255 255) = 0x80000 ∧
      s.reg (STN_SCRSIZE n) = 0x88888888 ∧ s.reg (STN_TAGLVL n) = 0x40000 ∧ s.reg (STN_LMARGIN n) = 0x7FFFFFFF) ∧
    (∀ n : Fin 48, s.reg (AX_ESTOP n) = 0xFFFFFFFF ∧ s.reg (AX_MSTEP n) = 0x8000 ∧ s.reg (AX_TIMING n) = 0x0A0A0A0A) ∧
    (∀ m : Fin 32, s.reg (MON_ALO m) = 0x80000000 ∧ s.reg (MON_AHI m) = 0x7FFFFFFF) ∧
    (∀ r : Fin 7, s.reg (ERR_MASK r) = 0xE) ∧
    s.reg PWR_SAG = 5 ∧ s.reg THM_THR = 0x0369645F ∧ s.reg TIME_STAT = 1 ∧ s.reg TIME_INC_NS = 4 ∧
    s.reg CLK_LOCKA = 0x00320003 ∧ s.reg CHIP_IRQ_MASK = 0x7F ∧ s.reg ILK_HEAT = 0 ∧ s.reg REP_STAT = 0) ∧
  State.reset.rigged = false ∧ State.reset.engine = Eng.unrigged ∧ State.reset.session = false ∧
    State.reset.time.toNs = 0 ∧ (∀ a, memByte State.reset.mem a = 0)

/-- A host write of all four bytes to a register that it reaches and that has no rule of its own puts the written
bits into its RW fields, and into its RWL fields until the image is applied; clears in its W1C fields the bits
written as 1; sets in its W1S fields the bits written as 1; leaves its RO and RC fields and its RWL fields once the
image is applied. No other register changes, and no other part of the state: memory, rings, engines and what was
shown are as they were. The low two bits of the offset are ignored. (00_scope.md, Notation) -/
def Obligations.RegisterWriteByAccessTypes : Prop :=
  ∀ (s : State) (off : BitVec 26) (v : Word),
    Reaches s (off.toNat / 4 * 4) →
    ownRule (off.toNat / 4 * 4) = false →
    Does (.registerWrite off 15 v) s fun t => (∀ b ∈ regBits (off.toNat / 4 * 4), b.acc = RegTable.Access.rw →
      bitsOf (t.reg (off.toNat / 4 * 4)).toNat b.lo b.w = bitsOf v.toNat b.lo b.w) ∧ (∀ b ∈ regBits (off.toNat / 4
      * 4), b.acc = RegTable.Access.rwl → bitsOf (t.reg (off.toNat / 4 * 4)).toNat b.lo b.w = if s.rigged then
      bitsOf (s.reg (off.toNat / 4 * 4)).toNat b.lo b.w else bitsOf v.toNat b.lo b.w) ∧ (∀ b ∈ regBits (off.toNat
      / 4 * 4), b.acc = RegTable.Access.w1c → bitsOf (t.reg (off.toNat / 4 * 4)).toNat b.lo b.w = bitsOf (s.reg
      (off.toNat / 4 * 4)).toNat b.lo b.w - Nat.land (bitsOf (s.reg (off.toNat / 4 * 4)).toNat b.lo b.w) (bitsOf
      v.toNat b.lo b.w)) ∧ (∀ b ∈ regBits (off.toNat / 4 * 4), b.acc = RegTable.Access.w1s → bitsOf (t.reg
      (off.toNat / 4 * 4)).toNat b.lo b.w = Nat.lor (bitsOf (s.reg (off.toNat / 4 * 4)).toNat b.lo b.w) (bitsOf
      v.toNat b.lo b.w)) ∧ (∀ b ∈ regBits (off.toNat / 4 * 4), b.acc = RegTable.Access.ro → bitsOf (t.reg
      (off.toNat / 4 * 4)).toNat b.lo b.w = bitsOf (s.reg (off.toNat / 4 * 4)).toNat b.lo b.w) ∧ (∀ b ∈ regBits
      (off.toNat / 4 * 4), b.acc = RegTable.Access.rc → bitsOf (t.reg (off.toNat / 4 * 4)).toNat b.lo b.w = bitsOf
      (s.reg (off.toNat / 4 * 4)).toNat b.lo b.w) ∧ OnlyRegs [off.toNat / 4 * 4] s t ∧ t =
      { s with regs := t.regs }

/-- A read of an offset from 0x2000000 to the end of the window shows 0 at its word and changes no register; a write
there, whatever its byte enables, leaves the whole state as it was. So neither sets ABSENT_ACCESS. (R7) -/
def Obligations.ReservedWindow : Prop :=
  ∀ (s : State) (off : BitVec 26) (be : Fin 16) (v : Word),
    s.dead = false →
    0x2000000 ≤ off.toNat →
    (Does (.registerWrite off be v) s fun t => t = s) ∧
    (Does (.readClear off be) s fun t => t.out = s.out ++ [.read (off.toNat / 4 * 4) 0] ∧ t.regs = s.regs)

/-- A full host write of MONm_CFG of a stopped monitor that sets ENABLE, with SNAP and CLEAR 0, leaves ENABLE and
RUNNING 1 where the part has the probe point, and otherwise ENABLE 0 and CFG_ERR 1; either changes no register but
MONm_CFG and MONm_STAT and keeps the live statistics. SNAP 1 with CLEAR 0 copies the live minimum, maximum, count
and 64 bins to the snapshot registers; the live ones stay with CLR_ON_SNAP 0 and are zeroed with it 1. CLEAR 1 with
SNAP 0 zeroes the live statistics and the count and bins of the snapshot, MIN reading 0x7FFFFFFF and MAX 0x80000000;
no register of another monitor changes. An event of the probe of a running monitor that the monitor takes as a
sample (the probe is not idle; of the kinds that SUB divides, the first of each 2^SUB events: assumption log 72)
adds one to its live count, saturating at 32 bits, lowers its minimum and raises its maximum to take in the sample,
adds one to the bin floor((x - BASE) / WIDTH) clamped to 0 to 63 and to no other, and no register changes but
MONm_STAT while the sample lies within ALO and AHI. Below ALO or above AHI the same, and the ALARM bits of the
monitor and of MON_ALARM are set and the alarm event goes to the halyard. An event of an idle probe, and any event
while ENABLE is 0, change nothing. (20_monitors_errors.md, Crow's nest monitors, 20_monitors_errors.md, Monitor
registers) -/
def Obligations.MonitorCommands : Prop :=
  ∀ (s : State) (m : Fin 32) (v : Word) (x : BitVec 32),
    (Reaches s (MON_CFG m) → s.on (MON_CFG_ENABLE m) = false → fieldOf (MON_CFG_ENABLE m) v = 1 → fieldOf
      (MON_CFG_SNAP m) v = 0 → fieldOf (MON_CFG_CLEAR m) v = 0 → probeOk s (fieldOf (MON_CFG_KIND m) v) (fieldOf
      (MON_CFG_SEL m) v) = true → Does (.monEnable m v) s fun t => t.on (MON_CFG_ENABLE m) = true ∧ t.on
      (MON_STAT_RUNNING m) = true ∧ ({ monU t m with seen := 0 } : Mon) = { monU s m with seen := 0 } ∧ t.out =
      s.out ∧ OnlyRegs [MON_CFG m, MON_STAT m] s t) ∧
    (Reaches s (MON_CFG m) → s.on (MON_CFG_ENABLE m) = false → fieldOf (MON_CFG_ENABLE m) v = 1 → fieldOf
      (MON_CFG_SNAP m) v = 0 → fieldOf (MON_CFG_CLEAR m) v = 0 → probeOk s (fieldOf (MON_CFG_KIND m) v) (fieldOf
      (MON_CFG_SEL m) v) = false → Does (.monEnable m v) s fun t => t.on (MON_CFG_ENABLE m) = false ∧ t.on
      (MON_STAT_CFG_ERR m) = true ∧ t.mon = s.mon ∧ t.out = s.out ∧ OnlyRegs [MON_CFG m, MON_STAT m] s t) ∧
    (Reaches s (MON_CFG m) → fieldOf (MON_CFG_SNAP m) v = 1 → fieldOf (MON_CFG_CLEAR m) v = 0 → fieldOf
      (MON_CFG_CLR_ON_SNAP m) v = 0 → Does (.monSnap m v) s fun t => t.g (MON_COUNT_VALUE m) = (monU s m).count %
      2 ^ 32 ∧ t.g (MON_MIN_VALUE m) = unsext 32 (monU s m).lo % 2 ^ 32 ∧ t.g (MON_MAX_VALUE m) = unsext 32 (monU
      s m).hi % 2 ^ 32 ∧ (∀ k : Fin 64, t.g (MON_BIN_COUNT m k) = bankGet 0 (monU s m).bins k % 2 ^ 32) ∧ t.out =
      s.out ∧ OnlyRegs ([MON_CFG m, MON_STAT m, MON_MIN m, MON_MAX m, MON_COUNT m] ++ (List.range 64).map (MON_BIN
      m)) s t ∧ ({ monU t m with seen := 0 } : Mon) = { monU s m with seen := 0 }) ∧
    (Reaches s (MON_CFG m) → fieldOf (MON_CFG_SNAP m) v = 1 → fieldOf (MON_CFG_CLEAR m) v = 0 → fieldOf
      (MON_CFG_CLR_ON_SNAP m) v = 1 → Does (.monSnap m v) s fun t => t.g (MON_COUNT_VALUE m) = (monU s m).count %
      2 ^ 32 ∧ t.g (MON_MIN_VALUE m) = unsext 32 (monU s m).lo % 2 ^ 32 ∧ t.g (MON_MAX_VALUE m) = unsext 32 (monU
      s m).hi % 2 ^ 32 ∧ (∀ k : Fin 64, t.g (MON_BIN_COUNT m k) = bankGet 0 (monU s m).bins k % 2 ^ 32) ∧ t.out =
      s.out ∧ OnlyRegs ([MON_CFG m, MON_STAT m, MON_MIN m, MON_MAX m, MON_COUNT m] ++ (List.range 64).map (MON_BIN
      m)) s t ∧ ({ monU t m with seen := 0 } : Mon) = {}) ∧
    (Reaches s (MON_CFG m) → fieldOf (MON_CFG_SNAP m) v = 0 → fieldOf (MON_CFG_CLEAR m) v = 1 → Does (.monClear m
      v) s fun t => ({ monU t m with seen := 0 } : Mon) = {} ∧ t.g (MON_COUNT_VALUE m) = 0 ∧ t.g (MON_MIN_VALUE m)
      = 0x7FFFFFFF ∧ t.g (MON_MAX_VALUE m) = 0x80000000 ∧ (∀ k : Fin 64, t.g (MON_BIN_COUNT m k) = 0) ∧ t.out =
      s.out ∧ OnlyRegs ([MON_CFG m, MON_STAT m, MON_MIN m, MON_MAX m, MON_COUNT m] ++ (List.range 64).map (MON_BIN
      m)) s t) ∧
    (s.dead = false → monTakes s m → Does (.monSample m x) s fun t => (monU t m).count = min 0xFFFFFFFF ((monU s
      m).count + 1) ∧ (monU t m).lo = min (monU s m).lo (probed s m x) ∧ (monU t m).hi = max (monU s m).hi (probed
      s m x) ∧ (∀ k : Fin 64, bankGet 0 (monU t m).bins k = if k.val = binOf s m (probed s m x) then min
      0xFFFFFFFF (bankGet 0 (monU s m).bins k + 1) else bankGet 0 (monU s m).bins k)) ∧
    (s.dead = false → monTakes s m → s.gi (MON_ALO_LIMIT m) ≤ probed s m x → probed s m x ≤ s.gi (MON_AHI_LIMIT m)
      → Does (.monSample m x) s fun t => t.out = s.out ∧ t.g (MON_STAT_ALARM m) = s.g (MON_STAT_ALARM m) ∧
      OnlyRegs [MON_STAT m] s t) ∧
    (s.dead = false → monTakes s m → probed s m x < s.gi (MON_ALO_LIMIT m) ∨ s.gi (MON_AHI_LIMIT m) < probed s m x
      → Does (.monSample m x) s fun t => t.on (MON_STAT_ALARM m) = true ∧ bitsOf (t.g MON_ALARM_ALARM) m 1 = 1 ∧
      Out.event (.monAlarm m) ∈ shown s t) ∧
    (s.dead = false → s.on (MON_CFG_ENABLE m) = false ∨ probeIdle s (s.g (MON_CFG_KIND m)) (s.g (MON_CFG_SEL m)) =
      true → Does (.monSample m x) s fun t => t = s)

/-- A host read of word 0 of an error slot returns the bytes of that word that its byte enables address and latches
words 1 to 7 of the slot; a read of TIME_NOW_NS so returns the nanoseconds of the counter and latches FRAC, S_LO and
S_HI of the same tick; neither changes a register. A full host write of CHIP_IRQ_MASK puts the mask in force and
changes no other register. Where it uncovers no region whose CHIP_IRQ_STAT bit is 1, nothing is shown outside; where
regions newly stand under it and the root vector is not masked in the MSI-X table, the root vector is sent once.
(20_monitors_errors.md, Escalation, 17_network_time.md, The counter, 00_scope.md, Notation, 21_register_index.md,
Interrupt root) -/
def Obligations.ErrorLogAndInterrupts : Prop :=
  ∀ (s : State) (i : Fin 256) (be : Fin 16) (v : Word),
    (Reaches s (ERR_REC i 0) → Does (.errSlotRead i be) s fun t => (∀ w : Fin 7, t.latched (ERR_REC i (w + 1)) =
      s.reg (ERR_REC i (w + 1))) ∧ t.out = s.out ++ [.read (ERR_REC i 0) (lanes be (s.reg (ERR_REC i 0)))] ∧
      t.regs = s.regs) ∧
    (Reaches s TIME_NOW_NS → Does (.timeNowRead be) s fun t => t.latched TIME_NOW_FRAC = BitVec.ofNat 32
      s.time.frac ∧ t.latched TIME_NOW_S_LO = BitVec.ofNat 32 s.time.sec ∧ t.latched TIME_NOW_S_HI = BitVec.ofNat
      32 (s.time.sec / 2 ^ 32) ∧ t.out = s.out ++ [.read TIME_NOW_NS (lanes be (BitVec.ofNat 32 s.time.ns))] ∧
      t.regs = s.regs) ∧
    (Reaches s CHIP_IRQ_MASK → Nat.land (s.g CHIP_IRQ_STAT_REGION) (fieldOf CHIP_IRQ_MASK_REGION v) = 0 → Does
      (.irqMaskWrite v) s fun t => t.g CHIP_IRQ_MASK_REGION = fieldOf CHIP_IRQ_MASK_REGION v ∧ t.out = s.out ∧
      OnlyRegs [CHIP_IRQ_MASK] s t) ∧
    (Reaches s CHIP_IRQ_MASK → Nat.land (s.g CHIP_IRQ_STAT_REGION) (s.g CHIP_IRQ_MASK_REGION) = 0 → Nat.land (s.g
      CHIP_IRQ_STAT_REGION) (fieldOf CHIP_IRQ_MASK_REGION v) ≠ 0 → bitsOf (s.reg (MSIX_TABLE (s.g
      CHIP_IRQ_CFG_VECTOR) 3)).toNat 0 1 = 0 → Does (.irqMaskWrite v) s fun t => t.g CHIP_IRQ_MASK_REGION =
      fieldOf CHIP_IRQ_MASK_REGION v ∧ t.out = s.out ++ [.msix (s.g CHIP_IRQ_CFG_VECTOR)] ∧ OnlyRegs
      [CHIP_IRQ_MASK] s t)

/-- A containment action not complete within its time is a REGION_FATAL error of the same block that names the
latest CONTAINED record of the block, whatever else the block recorded after it, and that record escalates no second
time; where the block has none, nothing changes. A region reset not complete in time is a CHIP_FATAL error of level
2 of the block of the region's latest REGION_FATAL record, naming that record, and the reset of the region is no
longer under way; a region with no reset under way is left alone. The codes of the two errors are values the spec
leaves open (assumption log 6). (20_monitors_errors.md, Escalation, 20_monitors_errors.md, Error records) -/
def Obligations.EscalationTimeouts : Prop :=
  ∀ (s : State) (c : BitVec 8) (i : BitVec 8) (r : Fin 7) (b : Nat) (q : Nat),
    s.dead = false →
    (s.err.conts.find? (fun x => x.1 == c.toNat * 256 + i.toNat) = some (b, q) → Does (.containmentTimeout c i) s
      fun t => t = raise
      { sev := 2, cls := c.toNat, inst := i.toNat, code := (Config.errCode 6).toNat, prev := q }
      { s with err := { s.err with conts := s.err.conts.filter (fun x => x.1 != c.toNat * 256 + i.toNat) } }) ∧
    (s.err.conts.find? (fun x => x.1 == c.toNat * 256 + i.toNat) = none → Does (.containmentTimeout c i) s fun t
      => t = s) ∧
    (s.err.regionReset.contains r.val = true → s.err.fatals.find? (fun x => x.1 == r.val) = some (r.val, b, q) →
      Does (.regionResetTimeout r) s fun t => t = raise
      { sev := 3, cls := b / 256, inst := b % 256, code := (Config.errCode 7).toNat, prev := q,
        region := some r.val, level := 2 }
      { s with err := { s.err with regionReset := s.err.regionReset.filter (· != r.val) } }) ∧
    (s.err.regionReset.contains r.val = false → Does (.regionResetTimeout r) s fun t => t = s)

/-- A full host write of TIME_INC_NS whose nanoseconds with TIME_INC_FRAC lie within 0.1 percent of 4 ns takes both
into force and changes no other register; outside that range it sets CFG_ERR and keeps the increment. Neither moves
the counter. A full host write of TIME_CTRL with STEP 1 and REARM 0: with STEP_ARMED 1, an offset nanosecond field
of at most 999,999,999 and a sum not below 0 the step waits for the next tick, with counter and registers as they
were; without STEP_ARMED the counter stays and STEP_RESULT is 1; with a larger nanosecond field or a sum below 0 the
counter stays and STEP_RESULT is 2. REARM 1 with STEP 0 and STEP_ARMED 0 sets STEP_ARMED and adds 1 to the count of
discontinuities, which wraps at 2^32; with STEP_ARMED 1 it changes nothing. An accepted step, when its tick comes
and the sum is not below 0, adds the offset to seconds and nanoseconds with its carry, leaves the fraction, and
leaves STEP_ARMED 0, STEPPED 1 and STEP_RESULT 0 and no step waiting. (17_network_time.md, The counter,
17_network_time.md, The single step) -/
def Obligations.TimeCounter : Prop :=
  ∀ (s : State) (v : Word) (o : Int),
    (Reaches s TIME_INC_NS → 3996 * 2 ^ 32 ≤ 1000 * (v.toNat % 16 * 2 ^ 32 + s.g TIME_INC_FRAC_VALUE) → 1000 *
      (v.toNat % 16 * 2 ^ 32 + s.g TIME_INC_FRAC_VALUE) ≤ 4004 * 2 ^ 32 → Does (.timeIncCommit v) s fun t =>
      t.net.inc = (v.toNat % 16, s.g TIME_INC_FRAC_VALUE) ∧ t.g TIME_INC_NS_VALUE = v.toNat % 16 ∧ OnlyRegs
      [TIME_INC_NS] s t ∧ t.time = s.time ∧ t.out = s.out) ∧
    (Reaches s TIME_INC_NS → 1000 * (v.toNat % 16 * 2 ^ 32 + s.g TIME_INC_FRAC_VALUE) < 3996 * 2 ^ 32 ∨ 4004 * 2 ^
      32 < 1000 * (v.toNat % 16 * 2 ^ 32 + s.g TIME_INC_FRAC_VALUE) → Does (.timeIncCommit v) s fun t => t.net =
      s.net ∧ t.on TIME_STAT_CFG_ERR = true ∧ OnlyRegs [TIME_STAT] s t ∧ t.time = s.time ∧ t.out = s.out) ∧
    (Reaches s TIME_CTRL → fieldOf TIME_CTRL_STEP v = 1 → fieldOf TIME_CTRL_REARM v = 0 → s.on
      TIME_STAT_STEP_ARMED = true → s.g TIME_OFS_NS_VALUE ≤ 999999999 → 0 ≤ (s.time.toNs : Int) + stepOfs s → Does
      (.timeStep v) s fun t => t = { s with net := { s.net with step := some (stepOfs s) } }) ∧
    (Reaches s TIME_CTRL → fieldOf TIME_CTRL_STEP v = 1 → fieldOf TIME_CTRL_REARM v = 0 → s.on
      TIME_STAT_STEP_ARMED = false → Does (.timeStep v) s fun t => t.time = s.time ∧ t.net = s.net ∧ t.g
      TIME_STAT_STEP_RESULT = 1 ∧ OnlyRegs [TIME_STAT] s t) ∧
    (Reaches s TIME_CTRL → fieldOf TIME_CTRL_STEP v = 1 → fieldOf TIME_CTRL_REARM v = 0 → s.on
      TIME_STAT_STEP_ARMED = true → 999999999 < s.g TIME_OFS_NS_VALUE ∨ (s.time.toNs : Int) + stepOfs s < 0 → Does
      (.timeStep v) s fun t => t.time = s.time ∧ t.net = s.net ∧ t.g TIME_STAT_STEP_RESULT = 2 ∧ OnlyRegs
      [TIME_STAT] s t) ∧
    (Reaches s TIME_CTRL → s.on TIME_STAT_STEP_ARMED = false → fieldOf TIME_CTRL_REARM v = 1 → fieldOf
      TIME_CTRL_STEP v = 0 → Does (.timeRearm v) s fun t => t.on TIME_STAT_STEP_ARMED = true ∧ t.g TIME_DISC_COUNT
      = (s.g TIME_DISC_COUNT + 1) % 2 ^ 32 ∧ t.time = s.time ∧ OnlyRegs [TIME_STAT, TIME_DISC] s t) ∧
    (Reaches s TIME_CTRL → s.on TIME_STAT_STEP_ARMED = true → fieldOf TIME_CTRL_REARM v = 1 → fieldOf
      TIME_CTRL_STEP v = 0 → Does (.timeRearm v) s fun t => t = s) ∧
    (s.net.step = some o → 0 ≤ (s.time.toNs : Int) + o → (stepDue s).time.toNs = ((s.time.toNs : Int) + o).toNat %
      (2 ^ 48 * 1000000000) ∧ (stepDue s).time.frac = s.time.frac ∧ (stepDue s).on TIME_STAT_STEP_ARMED = false ∧
      (stepDue s).on TIME_STAT_STEPPED = true ∧ (stepDue s).g TIME_STAT_STEP_RESULT = 0 ∧ (stepDue s).net.step =
      none ∧ (stepDue s).out = s.out)

/-- A full host write of TPOk_CTRL of an output that is not spoiled: ENABLE 1 while it was 0, with PERIOD at least
8, WIDTH at least 4 and WIDTH + 4 at most PERIOD, and a first edge not behind the counter, starts a run before its
first edge; with PERIOD or WIDTH outside those ranges ENABLE stays 0 and CFG_ERR is set; ENABLE 0 while it was 1
takes the output low at once. When the counter has reached the next rising edge of a run with edges left, the output
is high, the edge counts, its falling edge stands WIDTH later and the pulse event goes to the halyard; when it has
reached the falling edge, in a later tick than the pulse rose in, the output is low, and the pulse of a run's last
edge ends the run, ENABLE 0 and DONE set. A level that changes is shown at the ball, inverted by POL, where PINMAP
maps the output. (17_network_time.md, Timed pulse outputs, 02_rigging.md, Section contents) -/
def Obligations.TimedPulseOutputs : Prop :=
  ∀ (s : State) (k : Fin 8) (v : Word) (e : Nat),
    (Reaches s (TPO_CTRL k) → s.on (TPO_STAT_SPOIL k) = false → s.on (TPO_CTRL_ENABLE k) = false → fieldOf
      (TPO_CTRL_ENABLE k) v = 1 → 8 ≤ s.g (TPO_PERIOD_VALUE k) → 4 ≤ s.g (TPO_WIDTH_VALUE k) → s.g
      (TPO_WIDTH_VALUE k) + 4 ≤ s.g (TPO_PERIOD_VALUE k) → s.time.toNs ≤ tpoEdgeAt s k 0 → Does (.tpoEnable k v) s
      fun t => t.on (TPO_CTRL_ENABLE k) = true ∧ tpoU t k = {} ∧ t.g (TPO_CTRL_COUNT k) = fieldOf (TPO_CTRL_COUNT
      k) v ∧ t.g (TPO_CTRL_POL k) = fieldOf (TPO_CTRL_POL k) v ∧ t.out = s.out ∧ OnlyRegs [TPO_CTRL k] s t) ∧
    (Reaches s (TPO_CTRL k) → s.on (TPO_STAT_SPOIL k) = false → s.on (TPO_CTRL_ENABLE k) = false → fieldOf
      (TPO_CTRL_ENABLE k) v = 1 → s.g (TPO_PERIOD_VALUE k) < 8 ∨ s.g (TPO_WIDTH_VALUE k) < 4 ∨ s.g
      (TPO_PERIOD_VALUE k) < s.g (TPO_WIDTH_VALUE k) + 4 → Does (.tpoEnable k v) s fun t => t.on (TPO_CTRL_ENABLE
      k) = false ∧ t.on (TPO_STAT_CFG_ERR k) = true ∧ t.net = s.net ∧ t.out = s.out ∧ OnlyRegs [TPO_CTRL k,
      TPO_STAT k] s t) ∧
    (Reaches s (TPO_CTRL k) → s.on (TPO_STAT_SPOIL k) = false → s.on (TPO_CTRL_ENABLE k) = true → fieldOf
      (TPO_CTRL_ENABLE k) v = 0 → Does (.tpoDisable k v) s fun t => t.on (TPO_CTRL_ENABLE k) = false ∧ t.on
      (TPO_STAT_HIGH k) = false ∧ tpoU t k = {} ∧ (s.mapped 0x59 k 0 = true → Out.tpoPin k (s.on (TPO_CTRL_POL k))
      ∈ shown s t) ∧ OnlyRegs [TPO_CTRL k, TPO_STAT k] s t) ∧
    (s.dead = false → s.on (TPO_CTRL_ENABLE k) = true → s.g (TPO_CTRL_COUNT k) = 0 ∨ (tpoU s k).next < s.g
      (TPO_CTRL_COUNT k) → e = tpoEdgeAt s k (tpoU s k).next → e ≤ s.time.toNs → Does (.tpoEdge k) s fun t => t.on
      (TPO_STAT_HIGH k) = true ∧ (tpoU t k).next = (tpoU s k).next + 1 ∧ (tpoU t k).fall = some (e + s.g
      (TPO_WIDTH_VALUE k)) ∧ (tpoU t k).rose = s.clock ∧ Out.event (.tpo k) ∈ shown s t ∧ (s.mapped 0x59 k 0 =
      true → Out.tpoPin k (!s.on (TPO_CTRL_POL k)) ∈ shown s t)) ∧
    (s.dead = false → (tpoU s k).fall = some e → e ≤ s.time.toNs → (tpoU s k).rose < s.clock → Does (.tpoPulseEnd
      k) s fun t => t.on (TPO_STAT_HIGH k) = false ∧ (tpoU t k).fall = none ∧ (tpoU t k).next = (tpoU s k).next ∧
      t.on (TPO_CTRL_ENABLE k) = (s.on (TPO_CTRL_ENABLE k) && !(s.g (TPO_CTRL_COUNT k) != 0 && decide (s.g
      (TPO_CTRL_COUNT k) ≤ (tpoU s k).next))) ∧ (s.mapped 0x59 k 0 = true → Out.tpoPin k (s.on (TPO_CTRL_POL k)) ∈
      shown s t) ∧ OnlyRegs [TPO_CTRL k, TPO_STAT k] s t)

/-- A running PLL but SYSPLL, unlocked and not being measured, whose calibration finds a band b of the table, locks:
LOCK is 1, BAND is b, and where it is the PXPLL of a station the LOCK of that station too. A locked PLL that loses
its lock clears LOCK, sets LOST and counts the loss, which saturates at 255; so for each of the twelve. The loss of
the reference clears CLK_REF.OK and every PLL's LOCK, sets CLK_REF.LOSS, and stops the CLK island. A full host write
of CLK_BANDMEAS with START on a PLL that may be measured, with no measurement under way, sets BUSY for that PLL;
with one under way, or on a PLL that may not, it sets REFUSED and starts nothing. The measurement ends with its two
frequencies in CLK_BANDRES and BUSY 0. A phase excursion of a PLL in the LOCK_A mask holds LOCK_A low until 2 us
after the later of now and the end of the pulse before; it changes no register. (16_clocks_islands.md, VCO bands,
16_clocks_islands.md, Lock, 16_clocks_islands.md, Reference, 16_clocks_islands.md, Islands) -/
def Obligations.PllsAndBands : Prop :=
  ∀ (s : State) (p : Fin 12) (b : Nat) (v : Word) (a : BitVec 16) (b2 : BitVec 16),
    (s.dead = false → 1 ≤ p.val → s.on (CLK_PLL_STAT_RUN p) = true → pllLocked s p = false → measured s p = false
      → (bankGet none s.clk.cal p).getD (bandNow s p) = some b → b < 64 → Does (.pllLock p) s fun t => t.on
      (CLK_PLL_STAT_LOCK p) = true ∧ t.g (CLK_PLL_STAT_BAND p) = b ∧ (2 ≤ p.val ∧ p.val ≤ 9 → t.on (STN_PXCTL_LOCK
      (p.val - 2)) = true) ∧ t.out = s.out) ∧
    (s.dead = false → pllLocked s p = true → Does (.pllLoss p) s fun t => t.on (CLK_PLL_STAT_LOCK p) = false ∧
      t.on (CLK_PLL_STAT_LOST p) = true ∧ t.g (CLK_PLL_STAT_LOSSES p) = min 255 (s.g (CLK_PLL_STAT_LOSSES p) + 1))
      ∧
    (s.dead = false → s.on CLK_REF_OK = true → Does (.referenceLoss) s fun t => t.on CLK_REF_OK = false ∧ t.on
      CLK_REF_LOSS = true ∧ (∀ q : Fin 12, t.on (CLK_PLL_STAT_LOCK q) = false) ∧ t.on (CLK_ISL_STOPPED 0) = true ∧
      t.dead = true) ∧
    (Reaches s CLK_BANDMEAS → fieldOf CLK_BANDMEAS_START v = 1 → s.on CLK_BANDMEAS_BUSY = false → measurable s
      (fieldOf CLK_BANDMEAS_PLL v) = true → Does (.bandMeasureStart v) s fun t => t.on CLK_BANDMEAS_BUSY = true ∧
      t.clk.meas = fieldOf CLK_BANDMEAS_PLL v ∧ OnlyRegs [CLK_BANDMEAS] s t) ∧
    (Reaches s CLK_BANDMEAS → fieldOf CLK_BANDMEAS_START v = 1 → s.on CLK_BANDMEAS_BUSY = true ∨ measurable s
      (fieldOf CLK_BANDMEAS_PLL v) = false → Does (.bandMeasureStart v) s fun t => t.on CLK_BANDMEAS_REFUSED =
      true ∧ t.on CLK_BANDMEAS_BUSY = s.on CLK_BANDMEAS_BUSY ∧ t.clk = s.clk ∧ OnlyRegs [CLK_BANDMEAS] s t) ∧
    (s.dead = false → s.on CLK_BANDMEAS_BUSY = true → Does (.bandMeasureDone a b2) s fun t => t.on
      CLK_BANDMEAS_BUSY = false ∧ t.g CLK_BANDRES_FMIN = a.toNat ∧ t.g CLK_BANDRES_FMAX = b2.toNat ∧ OnlyRegs
      [CLK_BANDMEAS, CLK_BANDRES] s t) ∧
    (s.dead = false → bitsOf (s.g CLK_LOCKA_MASK) p 1 = 1 → Does (.pllPhaseExcursion p) s fun t => t.clk.lockA =
      max s.clock s.clk.lockA + 2000 ∧ t.regs = s.regs ∧ t.out = s.out)

/-- A full host write of DMAn_CTRL that sets ENABLE of a stopped channel, not refused, leaves ENABLE 1, STATE
waiting, ERR and PEND 0, DMAn_CUR at the descriptor address, and the channel fetching. A refused one sets CFG_ERR
and leaves ENABLE 0 and the channel as it was. Clearing ENABLE, or ABORT, on an enabled channel that fetches, or
waits for its trigger or its fence, leaves it idle with ABORTED set and ENABLE 0, and moves no byte; no other
register changes. On a channel that moves a descriptor it does the same and keeps ERR, and no byte of device DRAM
outside the descriptor's destination changes. A copy within device DRAM, upward, without uncorrectable burst and
touched by no other transfer, is then stopped at its end or at a 64-byte boundary of its destination, which is how
the model reads the boundary (assumption log 92): BYTES counts the bytes it came to, and so many bytes at the
destination are those the source held when the copy began. A full write of DMAn_COUNT puts both its fields in force
and changes no other register. (19_dma.md, Running a chain, 19_dma.md, Errors, abort and resets, 19_dma.md, DMA
registers) -/
def Obligations.DmaControlWrites : Prop :=
  ∀ (s : State) (n : Fin 64) (v : Word) (a : Nat),
    (Reaches s (DMA_CTRL n) → s.on (DMA_CTRL_ENABLE n) = false → fieldOf (DMA_CTRL_ENABLE n) v = 1 → dmaRefused s
      n v = false → Does (.dmaEnable n v) s fun t => t.on (DMA_CTRL_ENABLE n) = true ∧ t.g (DMA_STAT_STATE n) = 1
      ∧ t.g (DMA_STAT_ERR n) = 0 ∧ t.g (DMA_STAT_PEND n) = 0 ∧ (dmaU t n).step = .fetch ∧ curOf t n = (s.reg
      (DMA_DESC_LO n)).toNat + s.g (DMA_DESC_HI_ADDR n) * 2 ^ 32 ∧ t.out = s.out ∧ OnlyRegs [DMA_CTRL n, DMA_STAT
      n, DMA_CUR_LO n, DMA_CUR_HI n] s t) ∧
    (Reaches s (DMA_CTRL n) → s.on (DMA_CTRL_ENABLE n) = false → fieldOf (DMA_CTRL_ENABLE n) v = 1 → dmaRefused s
      n v = true → Does (.dmaEnable n v) s fun t => t.on (DMA_CTRL_ENABLE n) = false ∧ t.on (DMA_STAT_CFG_ERR n) =
      true ∧ t.dma = s.dma ∧ t.out = s.out ∧ OnlyRegs [DMA_STAT n] s t) ∧
    (Reaches s (DMA_CTRL n) → s.on (DMA_CTRL_ENABLE n) = true → fieldOf (DMA_CTRL_ENABLE n) v = 0 ∨ fieldOf
      (DMA_CTRL_ABORT n) v = 1 → (dmaU s n).step ≠ .idle → (dmaU s n).step ≠ .move → Does (.dmaAbort n v) s fun t
      => t.on (DMA_CTRL_ENABLE n) = false ∧ t.on (DMA_STAT_ABORTED n) = true ∧ t.g (DMA_STAT_STATE n) = 0 ∧ (dmaU
      t n).step = .idle ∧ t.mem = s.mem ∧ t.out = s.out ∧ OnlyRegs [DMA_CTRL n, DMA_STAT n] s t) ∧
    (Reaches s (DMA_CTRL n) → s.on (DMA_CTRL_ENABLE n) = true → fieldOf (DMA_CTRL_ENABLE n) v = 0 ∨ fieldOf
      (DMA_CTRL_ABORT n) v = 1 → (dmaU s n).step = .move → (dmaU s n).desc.dsp = 1 → a < (dmaU s n).desc.dst ∨
      (dmaU s n).desc.dst + (dmaU s n).desc.len ≤ a → Does (.dmaAbort n v) s fun t => t.on (DMA_CTRL_ENABLE n) =
      false ∧ t.on (DMA_STAT_ABORTED n) = true ∧ t.g (DMA_STAT_STATE n) = 0 ∧ t.g (DMA_STAT_ERR n) = s.g
      (DMA_STAT_ERR n) ∧ (dmaU t n).step = .idle ∧ memByte t.mem a = memByte s.mem a) ∧
    (Reaches s (DMA_CTRL n) → s.on (DMA_CTRL_ENABLE n) = true → fieldOf (DMA_CTRL_ENABLE n) v = 0 ∨ fieldOf
      (DMA_CTRL_ABORT n) v = 1 → (dmaU s n).step = .move → (dmaU s n).desc.ssp = 1 → (dmaU s n).desc.dsp = 1 →
      downward (dmaU s n).desc = false → (dmaU s n).hazard = [] → cleanLen s (dmaU s n).desc = none → (dmaU s
      n).desc.len < 2 ^ 32 → (dmaU s n).snap.length = (dmaU s n).desc.len → Does (.dmaAbort n v) s fun t => t.g
      (DMA_BYTES_BYTES n) ≤ (dmaU s n).desc.len ∧ (t.g (DMA_BYTES_BYTES n) = (dmaU s n).desc.len ∨ ((dmaU s
      n).desc.dst + t.g (DMA_BYTES_BYTES n)) % 64 = 0) ∧ memRead t.mem (dmaU s n).desc.dst (t.g (DMA_BYTES_BYTES
      n)) = (dmaU s n).snap.take (t.g (DMA_BYTES_BYTES n))) ∧
    (Reaches s (DMA_COUNT n) → Does (.dmaCountWrite n v) s fun t => t.g (DMA_COUNT_COUNT n) = fieldOf
      (DMA_COUNT_COUNT n) v ∧ t.g (DMA_COUNT_RELOAD n) = fieldOf (DMA_COUNT_RELOAD n) v ∧ t.out = s.out ∧ OnlyRegs
      [DMA_COUNT n] s t)

/-- A pulse of the trigger input of an enabled channel that selects it, where the running fabric feeds the input or
PINMAP places its ball, raises PEND by 1 while it is below 15 and the channel waits for no trigger, sets TRIG_LOST
at 15, and is taken at once by a descriptor without FENCE that waits for it, which then moves. A timer whose period
has passed moves its reference on by one period, and so pulses each enabled channel that selects it. Once earlier
writes have taken effect, a channel waiting at its fence moves. A channel that fetches from host memory reads 32
bytes there, snooped. A descriptor with no PARAM and no BEYOND error and neither trigger nor fence is then being
moved, STATE running and BYTES 0; a copy within device DRAM keeps the source as it stands then; one with TRIG and no
pulse pending, of a channel with a trigger source, waits for its trigger; one with FENCE and no TRIG waits at its
fence. A PARAM error stops the channel with ERR 1, else a BEYOND error with ERR 2, and a host read that fails, at
the fetch or during a move from host memory, with ERR 4, and is reported through AER: it is then idle with ENABLE 0
and STATE error. A fetch from device DRAM outside installed DRAM stops it with ERR 2. (19_dma.md, Running a chain,
02_rigging.md, Halyard blocks and events, 19_dma.md, Descriptors, 19_dma.md, Errors, abort and resets) -/
def Obligations.DmaTriggersAndDescriptors : Prop :=
  ∀ (s : State) (n : Fin 64) (k : Fin 8) (b : List (BitVec 8)) (o : Option (List (BitVec 8))),
    s.dead = false →
    (s.fabricFeeds (0x3100 + n.val) 0 = true ∨ s.mapped 0x31 n 0 = true → s.g (DMA_CTRL_TRIG_SRC n) = 4 → s.on
      (DMA_CTRL_ENABLE n) = true → s.g (DMA_STAT_PEND n) < 15 → (dmaU s n).step ≠ .trigger → Does (.dmaTrigger n)
      s fun t => t.g (DMA_STAT_PEND n) = s.g (DMA_STAT_PEND n) + 1 ∧ t.dma = s.dma ∧ t.out = s.out ∧ OnlyRegs
      [DMA_STAT n] s t) ∧
    (s.fabricFeeds (0x3100 + n.val) 0 = true ∨ s.mapped 0x31 n 0 = true → s.g (DMA_CTRL_TRIG_SRC n) = 4 → s.on
      (DMA_CTRL_ENABLE n) = true → s.g (DMA_STAT_PEND n) = 15 → Does (.dmaTrigger n) s fun t => t.on
      (DMA_STAT_TRIG_LOST n) = true ∧ t.g (DMA_STAT_PEND n) = 15 ∧ t.dma = s.dma ∧ t.out = s.out ∧ OnlyRegs
      [DMA_STAT n] s t) ∧
    (s.fabricFeeds (0x3100 + n.val) 0 = true ∨ s.mapped 0x31 n 0 = true → s.g (DMA_CTRL_TRIG_SRC n) = 4 → s.on
      (DMA_CTRL_ENABLE n) = true → s.g (DMA_STAT_PEND n) < 15 → (dmaU s n).step = .trigger → (dmaU s n).desc.flag
      7 = false → Does (.dmaTrigger n) s fun t => (dmaU t n).step = .move ∧ t.g (DMA_STAT_STATE n) = 2 ∧ t.g
      (DMA_STAT_PEND n) = s.g (DMA_STAT_PEND n) ∧ t.out = s.out ∧ OnlyRegs [DMA_STAT n] s t) ∧
    (s.on (DMT_CTRL_ENABLE k) = true → bankGet 0 s.dma.timer k + timerNs s k ≤ s.clock → Does (.dmaTimerPulse k) s
      fun t => bankGet 0 t.dma.timer k = bankGet 0 s.dma.timer k + timerNs s k ∧ t.out = s.out ∧ t.mem = s.mem ∧
      OnlyRegs ((List.range 64).map DMA_STAT) s t) ∧
    (s.on (DMT_CTRL_ENABLE k) = true → bankGet 0 s.dma.timer k + timerNs s k ≤ s.clock → s.g (DMA_CTRL_TRIG_SRC n)
      = 1 → s.g (DMA_CTRL_TRIG_IDX n) = k.val → s.on (DMA_CTRL_ENABLE n) = true → s.g (DMA_STAT_PEND n) < 15 →
      (dmaU s n).step ≠ .trigger → Does (.dmaTimerPulse k) s fun t => t.g (DMA_STAT_PEND n) = s.g (DMA_STAT_PEND
      n) + 1 ∧ (dmaU t n).step = (dmaU s n).step) ∧
    ((dmaU s n).step = .fence → Does (.dmaFenceClear n) s fun t => (dmaU t n).step = .move ∧ t.g (DMA_STAT_STATE
      n) = 2 ∧ OnlyRegs [DMA_STAT n] s t ∧ t.mem = s.mem ∧ t.out = s.out) ∧
    ((dmaU s n).step = .fetch → curOf s n % 2 = 0 → descParam s.part (descOf b) = false → descBeyond s (descOf b)
      = false → (descOf b).flag 6 = false → (descOf b).flag 7 = false → Does (.dmaDescFetch n (some b)) s fun t =>
      (dmaU t n).step = .move ∧ (dmaU t n).desc = descOf b ∧ ((descOf b).ssp = 1 → (descOf b).dsp = 1 → (dmaU t
      n).snap = memRead s.mem (descOf b).src (descOf b).len) ∧ t.g (DMA_STAT_STATE n) = 2 ∧ t.g (DMA_BYTES_BYTES
      n) = 0 ∧ t.out = s.out ++ [.hostRead (curOf s n / 32 * 32) 32 true] ∧ t.mem = s.mem ∧ OnlyRegs [DMA_STAT n,
      DMA_BYTES n] s t) ∧
    ((dmaU s n).step = .fetch → curOf s n % 2 = 0 → descParam s.part (descOf b) = false → descBeyond s (descOf b)
      = false → (descOf b).flag 6 = true → s.on (DMA_CTRL_TRIG_SRC n) = true → s.g (DMA_STAT_PEND n) = 0 → Does
      (.dmaDescFetch n (some b)) s fun t => (dmaU t n).step = .trigger ∧ (dmaU t n).desc = descOf b ∧ t.g
      (DMA_STAT_STATE n) = 1 ∧ t.out = s.out ++ [.hostRead (curOf s n / 32 * 32) 32 true] ∧ t.mem = s.mem ∧
      OnlyRegs [DMA_STAT n, DMA_BYTES n] s t) ∧
    ((dmaU s n).step = .fetch → curOf s n % 2 = 0 → descParam s.part (descOf b) = false → descBeyond s (descOf b)
      = false → (descOf b).flag 6 = false → (descOf b).flag 7 = true → Does (.dmaDescFetch n (some b)) s fun t =>
      (dmaU t n).step = .fence ∧ (dmaU t n).desc = descOf b ∧ t.out = s.out ++ [.hostRead (curOf s n / 32 * 32) 32
      true] ∧ t.mem = s.mem ∧ OnlyRegs [DMA_BYTES n] s t) ∧
    ((dmaU s n).step = .fetch → curOf s n % 2 = 0 → descParam s.part (descOf b) = true → Does (.dmaDescFetch n
      (some b)) s fun t => (dmaU t n).step = .idle ∧ t.on (DMA_CTRL_ENABLE n) = false ∧ t.g (DMA_STAT_ERR n) = 1 ∧
      t.g (DMA_STAT_STATE n) = Dst.error ∧ t.mem = s.mem) ∧
    ((dmaU s n).step = .fetch → curOf s n % 2 = 0 → descParam s.part (descOf b) = false → descBeyond s (descOf b)
      = true → Does (.dmaDescFetch n (some b)) s fun t => (dmaU t n).step = .idle ∧ t.on (DMA_CTRL_ENABLE n) =
      false ∧ t.g (DMA_STAT_ERR n) = 2 ∧ t.g (DMA_STAT_STATE n) = Dst.error ∧ t.mem = s.mem) ∧
    ((dmaU s n).step = .fetch → curOf s n % 2 = 0 → Does (.dmaDescFetch n none) s fun t => (dmaU t n).step = .idle
      ∧ t.on (DMA_CTRL_ENABLE n) = false ∧ t.g (DMA_STAT_ERR n) = 4 ∧ t.g (DMA_STAT_STATE n) = Dst.error ∧ t.mem =
      s.mem ∧ (shown s t).any (fun o => match o with | .aerHostRead _ => true | _ => false) = true) ∧
    ((dmaU s n).step = .fetch → curOf s n % 2 = 1 → s.installed < curOf s n / 32 * 32 + 32 → Does (.dmaDescFetch n
      o) s fun t => (dmaU t n).step = .idle ∧ t.on (DMA_CTRL_ENABLE n) = false ∧ t.g (DMA_STAT_ERR n) = 2 ∧ t.g
      (DMA_STAT_STATE n) = Dst.error ∧ t.mem = s.mem) ∧
    ((dmaU s n).step = .fetch → curOf s n % 2 = 0 → Does (.dmaHostReadError n b) s fun t => (dmaU t n).step =
      .idle ∧ t.on (DMA_CTRL_ENABLE n) = false ∧ t.g (DMA_STAT_ERR n) = 4 ∧ t.g (DMA_STAT_STATE n) = Dst.error ∧
      t.mem = s.mem ∧ (shown s t).any (fun o => match o with | .aerHostRead _ => true | _ => false) = true) ∧
    ((dmaU s n).step = .move → (dmaU s n).desc.ssp = 0 → Does (.dmaHostReadError n b) s fun t => (dmaU t n).step =
      .idle ∧ t.on (DMA_CTRL_ENABLE n) = false ∧ t.g (DMA_STAT_ERR n) = 4 ∧ t.g (DMA_STAT_STATE n) = Dst.error ∧
      (shown s t).any (fun o => match o with | .aerHostRead _ => true | _ => false) = true)

/-- When a descriptor with no CNT and no EVENT that is the last of its chain completes, with no transfer in flight
beside it that touches its bytes: a copy within device DRAM with no uncorrectable burst in its source leaves at the
destination the bytes that the source held when the copy began, whether or not the two overlap; a copy from host
memory leaves there the bytes read from the host; a fill leaves there the pattern, repeated; and every byte of
device DRAM outside the destination reads as before. A copy from device DRAM to host memory writes the bytes of the
source to the host and no byte of device DRAM. In each ENABLE is then 0, the channel idle, BYTES the length and the
descriptor counted. A descriptor that is not the last puts the channel to fetching the next, DMAn_CUR at it; with
EVENT it shows the channel's event; with CNT and COUNT 1 it sends the channel's vector, where that is not masked,
and reloads COUNT. (19_dma.md, Running a chain, 19_dma.md, Completion, counts and interrupts, 19_dma.md, Overlap and
coherence) -/
def Obligations.DmaCopyIsExact : Prop :=
  ∀ (s : State) (n : Fin 64) (a : Nat) (b : List (BitVec 8)),
    (s.dead = false → (dmaU s n).step = .move → (dmaU s n).hazard = [] → (dmaU s n).desc.flag 8 = false → (dmaU s
      n).desc.flag 9 = false → (dmaU s n).desc.flag 10 = true → (dmaU s n).desc.ssp = 1 → (dmaU s n).desc.dsp = 1
      → cleanLen s (dmaU s n).desc = none → (dmaU s n).snap.length = (dmaU s n).desc.len → Does (.dmaDescComplete
      n []) s fun t => memRead t.mem (dmaU s n).desc.dst (dmaU s n).desc.len = (dmaU s n).snap ∧ t.on
      (DMA_CTRL_ENABLE n) = false ∧ (dmaU t n).step = .idle ∧ t.g (DMA_DESCS_COUNT n) = min (2 ^ 32 - 1) (s.g
      (DMA_DESCS_COUNT n) + 1) ∧ t.g (DMA_BYTES_BYTES n) = (dmaU s n).desc.len % 2 ^ 32) ∧
    (s.dead = false → (dmaU s n).step = .move → (dmaU s n).hazard = [] → (dmaU s n).desc.flag 8 = false → (dmaU s
      n).desc.flag 9 = false → (dmaU s n).desc.flag 10 = true → (dmaU s n).desc.dsp = 1 → cleanLen s (dmaU s
      n).desc = none → a < (dmaU s n).desc.dst ∨ (dmaU s n).desc.dst + (dmaU s n).desc.len ≤ a → Does
      (.dmaDescComplete n b) s fun t => memByte t.mem a = memByte s.mem a) ∧
    (s.dead = false → (dmaU s n).step = .move → (dmaU s n).hazard = [] → (dmaU s n).desc.flag 8 = false → (dmaU s
      n).desc.flag 9 = false → (dmaU s n).desc.flag 10 = true → (dmaU s n).desc.ssp = 0 → (dmaU s n).desc.dsp = 1
      → b.length = (dmaU s n).desc.len → Does (.dmaDescComplete n b) s fun t => memRead t.mem (dmaU s n).desc.dst
      (dmaU s n).desc.len = b ∧ t.on (DMA_CTRL_ENABLE n) = false ∧ (dmaU t n).step = .idle ∧ t.g (DMA_DESCS_COUNT
      n) = min (2 ^ 32 - 1) (s.g (DMA_DESCS_COUNT n) + 1) ∧ t.g (DMA_BYTES_BYTES n) = (dmaU s n).desc.len % 2 ^
      32) ∧
    (s.dead = false → (dmaU s n).step = .move → (dmaU s n).hazard = [] → (dmaU s n).desc.flag 8 = false → (dmaU s
      n).desc.flag 9 = false → (dmaU s n).desc.flag 10 = true → (dmaU s n).desc.ssp = 3 → (dmaU s n).desc.dsp = 1
      → (dmaU s n).desc.dst ≤ a → a < (dmaU s n).desc.dst + (dmaU s n).desc.len → Does (.dmaDescComplete n []) s
      fun t => memByte t.mem a = BitVec.ofNat 8 ((dmaU s n).desc.src / 2 ^ (8 * ((a - (dmaU s n).desc.dst) % 4)))
      ∧ t.on (DMA_CTRL_ENABLE n) = false ∧ (dmaU t n).step = .idle ∧ t.g (DMA_DESCS_COUNT n) = min (2 ^ 32 - 1)
      (s.g (DMA_DESCS_COUNT n) + 1) ∧ t.g (DMA_BYTES_BYTES n) = (dmaU s n).desc.len % 2 ^ 32) ∧
    (s.dead = false → (dmaU s n).step = .move → (dmaU s n).hazard = [] → (dmaU s n).desc.flag 8 = false → (dmaU s
      n).desc.flag 9 = false → (dmaU s n).desc.flag 10 = true → (dmaU s n).desc.ssp = 1 → (dmaU s n).desc.dsp = 0
      → (dmaU s n).desc.len ≠ 0 → cleanLen s (dmaU s n).desc = none → Does (.dmaDescComplete n []) s fun t =>
      Out.host (dmaU s n).desc.dst (memRead s.mem (dmaU s n).desc.src (dmaU s n).desc.len) (!(dmaU s n).desc.flag
      5) ∈ shown s t ∧ t.mem = s.mem ∧ t.on (DMA_CTRL_ENABLE n) = false ∧ (dmaU t n).step = .idle ∧ t.g
      (DMA_DESCS_COUNT n) = min (2 ^ 32 - 1) (s.g (DMA_DESCS_COUNT n) + 1) ∧ t.g (DMA_BYTES_BYTES n) = (dmaU s
      n).desc.len % 2 ^ 32) ∧
    (s.dead = false → (dmaU s n).step = .move → (dmaU s n).hazard = [] → (dmaU s n).desc.flag 8 = false → (dmaU s
      n).desc.flag 9 = false → (dmaU s n).desc.flag 10 = false → cleanLen s (dmaU s n).desc = none → Does
      (.dmaDescComplete n b) s fun t => (dmaU t n).step = .fetch ∧ t.g (DMA_STAT_STATE n) = 1 ∧ t.on
      (DMA_CTRL_ENABLE n) = s.on (DMA_CTRL_ENABLE n) ∧ curOf t n = (dmaU s n).desc.next % 2 ^ 64) ∧
    (s.dead = false → (dmaU s n).step = .move → (dmaU s n).hazard = [] → (dmaU s n).desc.flag 9 = true → cleanLen
      s (dmaU s n).desc = none → Does (.dmaDescComplete n b) s fun t => Out.event (.dmaDone n) ∈ shown s t) ∧
    (s.dead = false → (dmaU s n).step = .move → (dmaU s n).hazard = [] → (dmaU s n).desc.flag 8 = true → s.g
      (DMA_COUNT_COUNT n) = 1 → bitsOf (s.reg (MSIX_TABLE (s.g (DMA_CTRL_VECTOR n)) 3)).toNat 0 1 = 0 → cleanLen s
      (dmaU s n).desc = none → Does (.dmaDescComplete n b) s fun t => Out.msix (s.g (DMA_CTRL_VECTOR n)) ∈ shown s
      t ∧ t.g (DMA_COUNT_COUNT n) = s.g (DMA_COUNT_RELOAD n))

/-- On a channel in use that runs the program: END ends its training, TRAINED 1, and where every other channel in
use is trained DRAM_TSTAT.STATE is trained with the milliseconds it lasted in MS; MRW and ZQCAL issue their command
to the devices and WAIT passes, each going on to the next word; TRAIN with an eye at least the one asked for keeps
the result of its phase and goes on, and with a narrower one at the first failure of the channel restarts the
program from word 0 with no result kept. Saved results that verify end the training of their channel; those that do
not start the program. A full host write of DRAM_TCTRL. SAVE without FORGET after a full training stores, inside the
NVM write window, each channel's results under the tag of the TRAIN header and the devices and leaves SAVED_VALID 1
and SAVE_PEND 0; outside the window it leaves SAVE_PEND 1 and what is stored as it was. FORGET without SAVE inside
the window erases what is stored and leaves SAVED_VALID 0. (18_dram.md, The TRAIN section, 18_dram.md, Saved
training, 15_thermal.md, Temperature windows) -/
def Obligations.DramTraining : Prop :=
  ∀ (s : State) (n : Fin 2) (w : Nat) (ms : BitVec 16) (eye : BitVec 8) (res : BitVec 32) (v : Word),
    (s.dead = false → trainWord s n 0 = some w → Does (.dramTrainEnd n ms) s fun t => (ddrU t n).mode = 3 ∧ (ddrU
      t n).results = (ddrU s n).results ∧ t.on (DDR_STAT_TRAINED n) = true ∧ ((channels s).all (fun m => m ==
      n.val || (ddrU s m).mode == 3) = true → t.g DRAM_TSTAT_STATE = 3 ∧ t.g DRAM_TSTAT_MS = ms.toNat) ∧ t.mem =
      s.mem ∧ t.out = s.out) ∧
    (s.dead = false → trainWord s n 1 = some w → Does (.dramMrw n) s fun t => (ddrU t n).pc = (ddrU s n).pc + 1 ∧
      t.out = s.out ++ [.dram n 1 (bitsOf w 24 2 * 256 + bitsOf w 16 8) (bitsOf w 8 8)] ∧ t.regs = s.regs) ∧
    (s.dead = false → trainWord s n 2 = some w → bitsOf w 8 8 ≤ eye.toNat → Does (.dramTrainPhase n eye res ms) s
      fun t => (ddrU t n).pc = (ddrU s n).pc + 1 ∧ (ddrU t n).results = (ddrU s n).results ++ [(bitsOf w 24 4,
      res.toNat)] ∧ t.regs = s.regs ∧ t.out = s.out) ∧
    (s.dead = false → trainWord s n 2 = some w → eye.toNat < bitsOf w 8 8 → (ddrU s n).runs = 0 → Does
      (.dramTrainPhase n eye res ms) s fun t => (ddrU t n).pc = 0 ∧ (ddrU t n).runs = 1 ∧ (ddrU t n).results = []
      ∧ t.regs = s.regs ∧ t.out = s.out) ∧
    (s.dead = false → trainWord s n 3 = some w → Does (.dramTrainWait n) s fun t => (ddrU t n).pc = (ddrU s n).pc
      + 1 ∧ t.out = s.out ∧ t.regs = s.regs) ∧
    (s.dead = false → trainWord s n 4 = some w → Does (.dramZqcal n) s fun t => (ddrU t n).pc = (ddrU s n).pc + 1
      ∧ t.out = s.out ++ [.dram n 4 (bitsOf w 24 2) 0] ∧ t.regs = s.regs) ∧
    (s.dead = false → (channels s).contains n.val = true → (ddrU s n).mode = 2 → Does (.dramSavedVerify n true ms)
      s fun t => (ddrU t n).mode = 3 ∧ t.on (DDR_STAT_TRAINED n) = true ∧ t.mem = s.mem ∧ t.out = s.out) ∧
    (s.dead = false → (channels s).contains n.val = true → (ddrU s n).mode = 2 → Does (.dramSavedVerify n false
      ms) s fun t => (ddrU t n).mode = 1 ∧ t.dram.full = true ∧ t.mem = s.mem ∧ t.out = s.out) ∧
    (Reaches s DRAM_TCTRL → fieldOf DRAM_TCTRL_SAVE v = 1 → fieldOf DRAM_TCTRL_FORGET v = 0 → s.g DRAM_TSTAT_STATE
      = 3 → s.g DRAM_TSTAT_SOURCE = 1 → nvmWindow s = true → Does (.dramTrainSave v) s fun t => t.dram.saved =
      some ((trainTag s).1, (trainTag s).2, (List.range 2).map fun n => (ddrU s n).results) ∧ t.on
      DRAM_TSTAT_SAVED_VALID = true ∧ t.on DRAM_TSTAT_SAVE_PEND = false ∧ OnlyRegs [DRAM_TCTRL, DRAM_TSTAT] s t) ∧
    (Reaches s DRAM_TCTRL → fieldOf DRAM_TCTRL_SAVE v = 1 → fieldOf DRAM_TCTRL_FORGET v = 0 → s.g DRAM_TSTAT_STATE
      = 3 → s.g DRAM_TSTAT_SOURCE = 1 → nvmWindow s = false → Does (.dramTrainSave v) s fun t => t.dram.saved =
      s.dram.saved ∧ t.on DRAM_TSTAT_SAVE_PEND = true ∧ OnlyRegs [DRAM_TCTRL, DRAM_TSTAT] s t) ∧
    (Reaches s DRAM_TCTRL → fieldOf DRAM_TCTRL_FORGET v = 1 → fieldOf DRAM_TCTRL_SAVE v = 0 → nvmWindow s = true →
      Does (.dramTrainForget v) s fun t => t.dram.saved = none ∧ t.on DRAM_TSTAT_SAVED_VALID = false ∧ OnlyRegs
      [DRAM_TCTRL, DRAM_TSTAT] s t)

/-- A write that device DRAM serves leaves its bytes at its address, and every other byte reads as before. A served
read of at least one byte that reaches a touched MiB, with DRAM out of self-refresh and no wrong symbol in the
bursts it reads, shows those bytes unpoisoned and changes neither memory nor register. One wrong symbol in the burst
of its first byte, touched, is corrected: the same bytes are shown, the correction is counted for the channel and
the burst queued for its write-back. Two wrong symbols make the burst uncorrectable: the read is shown poisoned, the
error is counted for the channel, the burst's address stands in DDRn_ERRADDR, and the burst stays uncorrectable. A
served read that reaches no touched MiB shows zeros, with no access. That an access is served in the same step as it
comes (assumption log 70) and that a read of an untouched MiB wakes nothing (assumption log 90) are the model's
choice. (18_dram.md, Address map, 18_dram.md, Contents after reset, 18_dram.md, ECC and scrub) -/
def Obligations.DramReadAfterWrite : Prop :=
  ∀ (s : State) (a : BitVec 37) (len : Fin 65) (d : List (BitVec 8)) (x : Nat) (b : Bool),
    s.dead = false →
    (served s a.toNat d.length = true → Does (.dramWrite a d b) s fun t => memRead t.mem a.toNat d.length = d ∧
      t.out = s.out) ∧
    (served s a.toNat d.length = true → x < a.toNat ∨ a.toNat + d.length ≤ x → Does (.dramWrite a d b) s fun t =>
      memByte t.mem x = memByte s.mem x) ∧
    (served s a.toNat len = true → 0 < len.val → reaches s a.toNat len = true → firstUe s a.toNat len = none →
      isCe s a.toNat = false → isCe s (a.toNat + len - 1) = false → s.g DRAM_SR_STATE ≠ 1 → s.g DRAM_SR_STATE ≠ 2
      → Does (.dramRead a len 0 false) s fun t => t.out = s.out ++ [.data (memRead s.mem a.toNat len) false] ∧
      t.mem = s.mem ∧ t.regs = s.regs ∧ t.dram = s.dram) ∧
    (served s a.toNat len = true → 0 < len.val → touched s a.toNat = true → firstUe s a.toNat len = none → isCe s
      (a.toNat + len - 1) = false → x = (place s a.toNat).chan → x < 2 → s.g DRAM_SR_STATE ≠ 1 → s.g DRAM_SR_STATE
      ≠ 2 → Does (.dramRead a len 1 b) s fun t => Out.data (memRead s.mem a.toNat len) false ∈ shown s t ∧ t.mem =
      s.mem ∧ t.g (DDR_ECC_CE x) = min (2 ^ (DDR_ECC_CE x).w - 1) (s.g (DDR_ECC_CE x) + 1) ∧ (ddrU t x).writeBack
      = (if (ddrU s x).writeBack.contains (a.toNat / 64) then (ddrU s x).writeBack else (ddrU s x).writeBack ++
      [a.toNat / 64])) ∧
    (served s a.toNat len = true → 0 < len.val → touched s a.toNat = true → a.toNat / 64 = (a.toNat + len - 1) /
      64 → x = (place s a.toNat).chan → x < 2 → s.g DRAM_SR_STATE ≠ 1 → s.g DRAM_SR_STATE ≠ 2 → Does (.dramRead a
      len 2 b) s fun t => (shown s t).any (fun o => match o with | .data _ p => p | _ => false) = true ∧ t.mem =
      s.mem ∧ t.g (DDR_ECC_UE x) = min (2 ^ (DDR_ECC_UE x).w - 1) (s.g (DDR_ECC_UE x) + 1) ∧ t.on
      (DDR_ERRADDR_HI_VALID x) = true ∧ t.g (DDR_ERRADDR_LO_ADDR x) + t.g (DDR_ERRADDR_HI_ADDR x) * 2 ^ 32 =
      a.toNat / 64 * 64 ∧ isUe t a.toNat = true) ∧
    (served s a.toNat len = true → reaches s a.toNat len = false → Does (.dramRead a len 0 b) s fun t => t.out =
      s.out ++ [.data (List.replicate len 0) false] ∧ t.mem = s.mem ∧ t.regs = s.regs)

/-- On a channel that is trained and out of self-refresh: a refresh leaves no neighbour row waiting, which of the
bounds R389 allows is the model's choice (assumption log 90), and with none waiting issues one refresh command for
each rank and changes no register; the temperature poll within range sets FAST_REF as polled and changes no other
register; a waiting neighbour row is served, by one DRFM command where the device has it and otherwise by the rows
beside it that exist, is counted, and waits no more; the scrub moves past the next touched burst, and where that
reads right changes neither memory nor register. A full host write of DRAM_SR with REQ 1 and EXIT 0: in STANDBY,
FURLED or FAULT with self-refresh idle it starts an entry (STATE 1); in another engine state it is refused, REFUSED
set and STATE kept. EXIT 1 with REQ 0 in self-refresh starts the exit (STATE 3). The entry ends in STATE 2 and is
counted, every channel in use having its clocks stopped and no neighbour row and no write-back waiting; the exit
ends in STATE 0 with their clocks running. No byte of memory changes. (18_dram.md, Refresh and neighbour refresh,
18_dram.md, ECC and scrub, 18_dram.md, Self-refresh) -/
def Obligations.DramUpkeepAndSleep : Prop :=
  ∀ (s : State) (n : Fin 2) (f : Bool) (bank : Fin 128) (row : Nat) (b : Nat) (v : Word),
    (s.dead = false → ddrActive s n = true → (ddrU s n).pend = [] → Does (.dramRefresh n) s fun t => t.out = s.out
      ++ (List.range (ranks s)).map (fun k => .dram n 5 k (s.g (DDR_STAT_SAMEBANK n))) ∧ t.regs = s.regs ∧ t.mem =
      s.mem) ∧
    (s.dead = false → ddrActive s n = true → Does (.dramRefresh n) s fun t => (ddrU t n).pend = [] ∧ OnlyRegs
      [DDR_RH n] s t ∧ t.mem = s.mem) ∧
    (s.dead = false → ddrActive s n = true → Does (.dramMr4Poll n f false) s fun t => t.on (DDR_STAT_FAST_REF n) =
      f ∧ t.out = s.out ∧ OnlyRegs [DDR_STAT n] s t) ∧
    (s.dead = false → ddrActive s n = true → (ddrU s n).pend.find? (fun e => e.1 == bank.val) = some (bank.val,
      row) → Does (.neighbourRefresh n bank) s fun t => t.g (DDR_RH_SERVED n) = min (2 ^ (DDR_RH_SERVED n).w - 1)
      (s.g (DDR_RH_SERVED n) + 1) ∧ (ddrU t n).pend.find? (fun e => e.1 == bank.val) = none ∧ t.out = s.out ++ (if
      s.on (DDR_STAT_DRFM n) then [.dram n 6 bank 0] else (if 0 < row then [.dram n 7 bank (row - 1)] else []) ++
      (if row + 1 < 2 ^ rowBits s then [.dram n 7 bank (row + 1)] else [])) ∧ OnlyRegs [DDR_RH n] s t) ∧
    (s.dead = false → ddrActive s n = true → scrubOn s n = true → nextBurst s n (ddrU s n).scrub = some b → isUe s
      (64 * b) = false → Does (.scrubRead n 0) s fun t => (ddrU t n).scrub = b + 1 ∧ t.regs = s.regs ∧ t.mem =
      s.mem ∧ t.out = s.out) ∧
    (Reaches s DRAM_SR → fieldOf DRAM_SR_REQ v = 1 → fieldOf DRAM_SR_EXIT v = 0 → s.g DRAM_SR_STATE = 0 → s.engine
      = Eng.standby ∨ s.engine = Eng.furled ∨ s.engine = Eng.fault → Does (.srRequest v) s fun t => t.g
      DRAM_SR_STATE = 1 ∧ t.out = s.out ∧ OnlyRegs [DRAM_SR] s t) ∧
    (Reaches s DRAM_SR → fieldOf DRAM_SR_REQ v = 1 → fieldOf DRAM_SR_EXIT v = 0 → s.engine ≠ Eng.standby →
      s.engine ≠ Eng.furled → s.engine ≠ Eng.fault → Does (.srRequest v) s fun t => t.on DRAM_SR_REFUSED = true ∧
      t.g DRAM_SR_STATE = s.g DRAM_SR_STATE ∧ OnlyRegs [DRAM_SR] s t) ∧
    (Reaches s DRAM_SR → fieldOf DRAM_SR_REQ v = 0 → fieldOf DRAM_SR_EXIT v = 1 → s.g DRAM_SR_STATE = 2 → Does
      (.srExit v) s fun t => t.g DRAM_SR_STATE = 3 ∧ t.mem = s.mem) ∧
    (s.dead = false → s.g DRAM_SR_STATE = 1 → Does (.srEntered) s fun t => t.g DRAM_SR_STATE = 2 ∧ t.g
      DRAM_SR_COUNT = min (2 ^ DRAM_SR_COUNT.w - 1) (s.g DRAM_SR_COUNT + 1) ∧ (channels s).all (fun n => t.on
      (CLK_ISL_STOPPED (4 + n)) && (ddrU t n).pend.isEmpty && (ddrU t n).writeBack.isEmpty) = true ∧ t.mem =
      s.mem) ∧
    (s.dead = false → s.g DRAM_SR_STATE = 3 → Does (.srExitDone) s fun t => t.g DRAM_SR_STATE = 0 ∧ (channels
      s).all (fun n => !t.on (CLK_ISL_STOPPED (4 + n))) = true ∧ t.mem = s.mem)

/-- On a port that is on with its link up: a frame with a bad check sequence is counted in FCS_ERR, which saturates,
and nothing else changes; a frame of fewer than 14 or more than 1,518 bytes, a pause frame, or one the port does not
accept changes nothing; an accepted ARP request for the port's address, or a Neighbor Solicitation for it, is
answered on the same port, padded to 60 bytes and with its check sequence, and changes no register; an accepted
frame of no other class is counted in OTHER; an accepted PTP event message is appended to the receive FIFO with the
receive timestamp, which the model takes back from the frame's end to its start-of-frame delimiter (assumption log
94), while it holds fewer than 16 frames, and is otherwise counted in RX_DROP. A full write of PRX with POP alone
takes the oldest frame out, with TS_POP alone the oldest egress timestamp. A full write of ETHp_PTX with SEND and a
length of 14 to 1518 on a port that is up and not sending takes the window's bytes and sets TX_BUSY; a length
outside, or a port still sending, sets TX_ERR and takes nothing. At the end TX_BUSY is 0 and, on a port that is up,
the frame leaves it padded to 60 bytes with its check sequence, and the REP-lite datagrams that waited follow in
their order; a PTP event message leaves its egress timestamp in the FIFO while that holds fewer than 4. A link of a
port that is on that comes up sets LINK and SPEED, the speed of the port's mode or in SGMII the one found; one that
goes down clears LINK and keeps SPEED; no other register changes. (17_network_time.md, Ethernet ports,
17_network_time.md, Timestamped events) -/
def Obligations.EthernetFrames : Prop :=
  ∀ (s : State) (p : Fin 2) (b : List (BitVec 8)) (a : Nat) (v : Word) (sp : BitVec 2),
    (s.dead = false → portUp s p = true → Does (.ethFrameRx p false b) s fun t => t.g (ETH_STAT_FCS_ERR p) = min
      (2 ^ (ETH_STAT_FCS_ERR p).w - 1) (s.g (ETH_STAT_FCS_ERR p) + 1) ∧ t.net = s.net ∧ t.out = s.out ∧ OnlyRegs
      [ETH_STAT p] s t) ∧
    (s.dead = false → portUp s p = true → b.length < 14 ∨ 1518 < b.length ∨ beAt b 12 2 = 0x8808 ∨ accepts s p b =
      false → Does (.ethFrameRx p true b) s fun t => t = s) ∧
    (s.dead = false → portUp s p = true → 14 ≤ b.length → b.length ≤ 1518 → beAt b 12 2 ≠ 0x8808 → accepts s p b =
      true → classify s p b = .arp → Does (.ethFrameRx p true b) s fun t => t.out = s.out ++ [.frame p (padded
      (arpReply s p b)) (fcs (padded (arpReply s p b)))] ∧ t.regs = s.regs ∧ t.net = s.net) ∧
    (s.dead = false → portUp s p = true → 14 ≤ b.length → b.length ≤ 1518 → beAt b 12 2 ≠ 0x8808 → accepts s p b =
      true → classify s p b = .solicit → Does (.ethFrameRx p true b) s fun t => t.out = s.out ++ [.frame p (padded
      (advertisement s p b)) (fcs (padded (advertisement s p b)))] ∧ t.regs = s.regs ∧ t.net = s.net) ∧
    (s.dead = false → portUp s p = true → 14 ≤ b.length → b.length ≤ 1518 → beAt b 12 2 ≠ 0x8808 → accepts s p b =
      true → classify s p b = .other → Does (.ethFrameRx p true b) s fun t => t.g (ETH_STAT_OTHER p) = min (2 ^
      (ETH_STAT_OTHER p).w - 1) (s.g (ETH_STAT_OTHER p) + 1) ∧ t.out = s.out ∧ t.net = s.net ∧ OnlyRegs [ETH_STAT
      p] s t) ∧
    (s.dead = false → portUp s p = true → 14 ≤ b.length → b.length ≤ 1518 → beAt b 12 2 ≠ 0x8808 → accepts s p b =
      true → classify s p b = .ptp a → ptpEvent b a = true → (ethU s p).rx.length < 16 → Does (.ethFrameRx p true
      b) s fun t => (ethU t p).rx.length = (ethU s p).rx.length + 1 ∧ ((ethU t p).rx.getLastD []).drop 16 = b ∧
      bytesAt ((ethU t p).rx.getLastD []) 4 4 = (stamp s p b.length (s.gi (ETH_TSLAT_RX p))).1 ∧ bytesAt ((ethU t
      p).rx.getLastD []) 8 6 = (stamp s p b.length (s.gi (ETH_TSLAT_RX p))).2) ∧
    (s.dead = false → portUp s p = true → 14 ≤ b.length → b.length ≤ 1518 → beAt b 12 2 ≠ 0x8808 → accepts s p b =
      true → classify s p b = .ptp a → 16 ≤ (ethU s p).rx.length → Does (.ethFrameRx p true b) s fun t => t.g
      (ETH_STAT_RX_DROP p) = min (2 ^ (ETH_STAT_RX_DROP p).w - 1) (s.g (ETH_STAT_RX_DROP p) + 1) ∧ t.net = s.net ∧
      t.out = s.out) ∧
    (Reaches s (ETH_PRX p) → fieldOf (ETH_PRX_POP p) v = 1 → fieldOf (ETH_PRX_TS_POP p) v = 0 → Does (.ethRxPop p
      v) s fun t => (ethU t p).rx = (ethU s p).rx.drop 1 ∧ (ethU t p).ts = (ethU s p).ts ∧ t.out = s.out ∧
      OnlyRegs [ETH_PRX p] s t) ∧
    (Reaches s (ETH_PRX p) → fieldOf (ETH_PRX_POP p) v = 0 → fieldOf (ETH_PRX_TS_POP p) v = 1 → Does (.ethTsPop p
      v) s fun t => (ethU t p).ts = (ethU s p).ts.drop 1 ∧ (ethU t p).rx = (ethU s p).rx ∧ t.out = s.out ∧
      OnlyRegs [ETH_PRX p] s t) ∧
    (Reaches s (ETH_PTX p) → fieldOf (ETH_PTX_SEND p) v = 1 → s.on (ETH_STAT_TX_BUSY p) = false → 14 ≤ fieldOf
      (ETH_PTX_LEN p) v → fieldOf (ETH_PTX_LEN p) v ≤ 1518 → portUp s p = true → Does (.ethSend p v) s fun t =>
      t.on (ETH_STAT_TX_BUSY p) = true ∧ (ethU t p).tx = some (windowBytes s p (fieldOf (ETH_PTX_LEN p) v)) ∧
      t.out = s.out) ∧
    (Reaches s (ETH_PTX p) → fieldOf (ETH_PTX_SEND p) v = 1 → fieldOf (ETH_PTX_LEN p) v < 14 ∨ 1518 < fieldOf
      (ETH_PTX_LEN p) v ∨ s.on (ETH_STAT_TX_BUSY p) = true → Does (.ethSend p v) s fun t => t.on (ETH_STAT_TX_ERR
      p) = true ∧ t.net = s.net ∧ t.out = s.out ∧ OnlyRegs [ETH_STAT p] s t) ∧
    (s.dead = false → (ethU s p).tx = some b → portUp s p = true → ptpAt b = none → Does (.ethTxDone p) s fun t =>
      t.on (ETH_STAT_TX_BUSY p) = false ∧ (ethU t p).tx = none ∧ (ethU t p).wait = [] ∧ t.out = s.out ++ .frame p
      (padded b) (fcs (padded b)) :: (ethU s p).wait.map (fun w => .repl p w.1 w.2)) ∧
    (s.dead = false → (ethU s p).tx = some b → portUp s p = true → ptpAt b = some a → ptpEvent b a = true → (ethU
      s p).ts.length < 4 → Does (.ethTxDone p) s fun t => t.on (ETH_STAT_TX_BUSY p) = false ∧ (ethU t p).tx = none
      ∧ Out.frame p (padded b) (fcs (padded b)) ∈ shown s t ∧ (ethU t p).ts = (ethU s p).ts ++ [⟨beAt b (a + 30)
      2, beAt b a 1 % 16, (stamp s p (padded b).length (s.gi (ETH_TSLAT_TX p))).1, (stamp s p (padded b).length
      (s.gi (ETH_TSLAT_TX p))).2⟩]) ∧
    (s.dead = false → p.val < s.part.eth → s.on (ETH_CFG_MODE p) = true → Does (.ethLinkChange p true sp) s fun t
      => t.on (ETH_STAT_LINK p) = true ∧ t.g (ETH_STAT_SPEED p) = linkSpeed (s.g (ETH_CFG_MODE p)) sp.toNat ∧
      t.out = s.out ∧ OnlyRegs [ETH_STAT p] s t) ∧
    (s.dead = false → p.val < s.part.eth → s.on (ETH_CFG_MODE p) = true → Does (.ethLinkChange p false sp) s fun t
      => t.on (ETH_STAT_LINK p) = false ∧ t.g (ETH_STAT_SPEED p) = s.g (ETH_STAT_SPEED p) ∧ t.out = s.out ∧
      OnlyRegs [ETH_STAT p] s t)

/-- A reading in range of a present sensor that is not found broken is the sensor's TEMP, and Tj and SRC are the
hottest sensor's; where Tj then lies below every threshold above the level in force, the level stays, and where it
reaches the threshold of a higher level and no level above that, that level is in force and the vision pipeline
paused. A present sensor found open or shorted is BROKEN. A level whose threshold minus the hysteresis Tj has fallen
below is left for the level under it, and leaving level 1 ends the pause of the vision pipeline and of the
compressor. A comparator of a present sensor that trips, or finds its diode open or shorted, while no trip is in
force puts the trip in force, counts one more trip up to 255, takes the next SEQ and writes a record with it in the
NVM ring of eight, whether or not the clocks run, where no sag's save began in that cycle; with one begun in that
cycle the record waits and the ring is as it was. A crossing while a trip is in force only counts. In a chip held in
reset whose supplies stand the comparator makes the off request: the shutdown begins with the last rail of the
ledger. The end of a trip that no broken diode holds clears TRIP and changes no other register. (15_thermal.md,
Sensors, 15_thermal.md, Reef levels, 15_thermal.md, Hardware trip) -/
def Obligations.ThermalLevelsAndTrips : Prop :=
  ∀ (s : State) (i : Fin 48) (raw : BitVec 16) (l : Fin 4) (d : Bool) (r : Nat),
    (s.dead = false → s.on (CLK_ISL_STOPPED 2) = false → sensorPresent s.part i = true → s.on (THM_TS_BROKEN i) =
      false → -880 ≤ sext 16 raw.toNat → sext 16 raw.toNat ≤ 2400 → (∀ k : Fin 3, reefLevel s < k.val + 1 →
      (hottest (s.pz (THM_TS_TEMP i) (sext 16 raw.toNat))).1 < reefThr s (k + 1)) → Does (.thermalConversion i raw
      false) s fun t => t.gi (THM_TS_TEMP i) = sext 16 raw.toNat ∧ t.gi THM_TJ_TJ = (hottest (s.pz (THM_TS_TEMP i)
      (sext 16 raw.toNat))).1 ∧ t.g THM_TJ_SRC = (hottest (s.pz (THM_TS_TEMP i) (sext 16 raw.toNat))).2 ∧
      reefLevel t = reefLevel s) ∧
    (s.dead = false → s.on (CLK_ISL_STOPPED 2) = false → sensorPresent s.part i = true → s.on (THM_TS_BROKEN i) =
      false → -880 ≤ sext 16 raw.toNat → sext 16 raw.toNat ≤ 2400 → reefLevel s < l.val → reefThr s l ≤ (hottest
      (s.pz (THM_TS_TEMP i) (sext 16 raw.toNat))).1 → (∀ k : Fin 3, l.val < k.val + 1 → (hottest (s.pz
      (THM_TS_TEMP i) (sext 16 raw.toNat))).1 < reefThr s (k + 1)) → Does (.thermalConversion i raw false) s fun t
      => t.gi (THM_TS_TEMP i) = sext 16 raw.toNat ∧ t.gi THM_TJ_TJ = (hottest (s.pz (THM_TS_TEMP i) (sext 16
      raw.toNat))).1 ∧ reefLevel t = l.val ∧ t.on VIS_STAT_PAUSED = true) ∧
    (s.dead = false → s.on (CLK_ISL_STOPPED 2) = false → sensorPresent s.part i = true → Does (.thermalConversion
      i raw true) s fun t => t.on (THM_TS_BROKEN i) = true) ∧
    (s.dead = false → s.on (CLK_ISL_STOPPED 2) = false → 1 ≤ l.val → reefLevel s = l.val → s.gi THM_TJ_TJ <
      reefThr s l - 16 * s.g THM_THR_HYST → Does (.reefLeave l) s fun t => reefLevel t = l.val - 1 ∧ t.on
      VIS_STAT_PAUSED = (s.on VIS_STAT_PAUSED && decide (2 ≤ l.val)) ∧ t.on CMP_STAT_PAUSED = (s.on
      CMP_STAT_PAUSED && decide (2 ≤ l.val)) ∧ t.thm.changed = s.time) ∧
    (s.inReset = false → s.rig.resetWait = false → sensorPresent s.part i = true → s.on THM_TJ_TRIP = false →
      s.pwr.save.any (fun v => v.cause == 1 && v.begun == s.clock) = false → Does (.hardwareTrip i d) s fun t =>
      t.on THM_TJ_TRIP = true ∧ t.on THM_STAT_TRIPPED = true ∧ t.thm.trips = min 255 (s.thm.trips + 1) ∧
      t.thm.tripSeq = s.thm.tripSeq + 1 ∧ t.thm.tripHeld = none ∧ (List.range 8).any (fun k => bytesAt (bankGet []
      t.thm.ring k) 0 4 == (s.thm.tripSeq + 1) % 2 ^ 32) = true) ∧
    (s.inReset = false → s.rig.resetWait = false → sensorPresent s.part i = true → s.on THM_TJ_TRIP = false →
      s.pwr.save.any (fun v => v.cause == 1 && v.begun == s.clock) = true → Does (.hardwareTrip i d) s fun t =>
      t.on THM_TJ_TRIP = true ∧ t.thm.tripHeld.isSome = true ∧ t.thm.ring = s.thm.ring ∧ t.thm.tripSeq =
      s.thm.tripSeq) ∧
    (s.inReset = true → s.pwr.supDown = false → s.pwr.lost = false → s.rig.resetWait = false → sensorPresent
      s.part i = true → pwState s = Pw.on → s.pwr.ledger.getLast? = some r → s.on (PWR_SLOT_STAT_GOOD r) = true →
      s.g (PWR_SLOT_CFG_TOFF r) ≠ 0 → s.mapped 0x50 r 1 = true → Does (.hardwareTrip i d) s fun t => pwState t =
      Pw.downSeq) ∧
    (s.inReset = false → s.rig.resetWait = false → sensorPresent s.part i = true → s.on THM_TJ_TRIP = true → Does
      (.hardwareTrip i d) s fun t => t.thm.trips = min 255 (s.thm.trips + 1) ∧ t.thm.tripSeq = s.thm.tripSeq ∧
      t.regs = s.regs ∧ t.out = s.out) ∧
    (s.inReset = false → s.on (CLK_ISL_STOPPED 2) = false → s.on THM_TJ_TRIP = true → s.thm.diode = false → Does
      (.tripRelease) s fun t => t.on THM_TJ_TRIP = false ∧ t.thm = s.thm ∧ t.out = s.out ∧ OnlyRegs [THM_TJ] s t)

/-- When the power program is about to execute a word: END ends it in ON; WAIT starts a wait; WAITGOOD passes at
once a rail that is qualified and waits for one that is not; CHECK records whether the sample lies within its
bounds; JUMPIF goes to its target when its condition holds and FAIL is 0, with FAIL 1 is a failure of cause 2 that
names the last slot of the ledger, shutting down, and otherwise goes on; JUMP goes to its target; RETRY sets the
attempts and the delay; MARK shows its value with the time and an event. Each but the failing JUMPIF shows its own
step number in PWR_STAT.STEP and changes no register beside PWR_STAT and, for MARK, PWR_MARK.
(14_power_supervision.md, The SEQ program, 14_power_supervision.md, Step failure, retry and the cleat) -/
def Obligations.SequencerWords : Prop :=
  ∀ (s : State) (w : Nat) (q : Nat) (code : BitVec 12) (pws : Bool),
    s.pwr.lost = false →
    s.rig.resetWait = false →
    (seqWord s 0 = some w → Does (.seqEnd) s fun t => pwState t = Pw.on ∧ t.g PWR_STAT_STEP = s.pwr.pc ∧
      t.pwr.ledger = s.pwr.ledger ∧ t.out = s.out ∧ OnlyRegs [PWR_STAT] s t) ∧
    (seqWord s 3 = some w → Does (.seqWait) s fun t => t.pwr.wait = .time ∧ t.pwr.pc = s.pwr.pc + 1 ∧ t.g
      PWR_STAT_STEP = s.pwr.pc ∧ t.out = s.out ∧ OnlyRegs [PWR_STAT] s t) ∧
    (seqWord s 4 = some w → s.on (PWR_SLOT_STAT_QUALIFIED (bitsOf w 20 5)) = true → Does (.seqWaitgood) s fun t =>
      t.pwr.wait = .none ∧ t.pwr.pc = s.pwr.pc + 1 ∧ t.g PWR_STAT_STEP = s.pwr.pc ∧ t.out = s.out ∧ OnlyRegs
      [PWR_STAT] s t) ∧
    (seqWord s 4 = some w → s.on (PWR_SLOT_STAT_QUALIFIED (bitsOf w 20 5)) = false → Does (.seqWaitgood) s fun t
      => t.pwr.wait = .good (bitsOf w 20 5) ∧ t.pwr.pc = s.pwr.pc + 1 ∧ t.g PWR_STAT_STEP = s.pwr.pc ∧ t.out =
      s.out ∧ OnlyRegs [PWR_STAT] s t) ∧
    (seqWord s 5 = some w → Does (.seqCheck code) s fun t => t.pwr.checkIn = decide (bitsOf w 0 12 ≤ code.toNat ∧
      code.toNat ≤ bitsOf w 12 12) ∧ t.pwr.pc = s.pwr.pc + 1 ∧ t.g PWR_STAT_STEP = s.pwr.pc ∧ t.out = s.out ∧
      OnlyRegs [PWR_STAT] s t) ∧
    (seqWord s 6 = some w → seqCond s (bitsOf w 24 3) (bitsOf w 16 8) pws = true → bitsOf w 27 1 = 0 → Does
      (.seqJumpif pws) s fun t => t.pwr.pc = w % 256 ∧ t.pwr.wait = .none ∧ t.g PWR_STAT_STEP = s.pwr.pc ∧ t.out =
      s.out ∧ OnlyRegs [PWR_STAT] s t) ∧
    (seqWord s 6 = some w → seqCond s (bitsOf w 24 3) (bitsOf w 16 8) pws = true → bitsOf w 27 1 = 1 →
      s.pwr.ledger.getLast? = some q → q < 32 → s.mapped 0x50 q 1 = true → s.on (PWR_SLOT_STAT_GOOD q) = true →
      s.g (PWR_SLOT_CFG_TOFF q) ≠ 0 → Does (.seqJumpif pws) s fun t => t.g PWR_STAT_FAIL_CAUSE = 2 ∧ t.g
      PWR_STAT_FAIL_SLOT = q ∧ t.on PWR_STAT_NO_SLOT = false ∧ pwState t = Pw.downSeq ∧ t.pwr.wait = .drop q) ∧
    (seqWord s 6 = some w → seqCond s (bitsOf w 24 3) (bitsOf w 16 8) pws = false → Does (.seqJumpif pws) s fun t
      => t.pwr.pc = s.pwr.pc + 1 ∧ t.pwr.wait = .none ∧ t.g PWR_STAT_STEP = s.pwr.pc ∧ t.out = s.out ∧ OnlyRegs
      [PWR_STAT] s t) ∧
    (seqWord s 7 = some w → Does (.seqJump) s fun t => t.pwr.pc = w % 256 ∧ t.g PWR_STAT_STEP = s.pwr.pc ∧ t.out =
      s.out ∧ OnlyRegs [PWR_STAT] s t) ∧
    (seqWord s 8 = some w → Does (.seqRetry) s fun t => t.pwr.n = bitsOf w 24 3 ∧ t.pwr.delayMs = bitsOf w 0 20 ∧
      t.pwr.pc = s.pwr.pc + 1 ∧ t.g PWR_STAT_STEP = s.pwr.pc ∧ t.out = s.out ∧ OnlyRegs [PWR_STAT] s t) ∧
    (seqWord s 9 = some w → Does (.seqMark) s fun t => t.g PWR_MARK_VALUE = w % 256 ∧ t.pwr.pc = s.pwr.pc + 1 ∧
      t.g PWR_MARK_NS = s.time.ns / 64 ∧ t.g PWR_STAT_STEP = s.pwr.pc ∧ t.out = s.out ++ [.event .pwsMark] ∧
      OnlyRegs [PWR_STAT, PWR_MARK] s t)

/-- ENABLE of a slot not in the ledger makes it active and appends it to the ledger, and of one in the ledger
changes neither; DISABLE of a slot, mapped, whose good is low makes it inactive, takes it out and goes on, and of
one whose good is high with a TOFF waits for good to drop. A WAITGOOD that times out counts one RISE_FAIL of its
slot, names it with cause 1, and begins the shutdown with the last slot of the ledger, waiting for its good to drop.
When the last slot of an off request has dropped, the ledger is empty and the power state OFF, at that time, with
the engine in STANDBY where it was FURLED. An on request that was held starts the program at step 0 with attempt 0
once the power is OFF and TOFF_MIN has passed. A retry delay that ends counts the attempt, starts the program at
step 0, and counts one RETRY of the slot the failure named. A WAITGOOD that an off request of the same cycle ended
counts its RISE_FAIL all the same. The last slot of a step failure's shutdown leaves the power state UP_SEQ with the
retry delay running while an attempt is left, and CLEATED where none is. A wait that has ended lets the program
execute its next word. (14_power_supervision.md, Power states, 14_power_supervision.md, The enable ledger and
shutdown, 14_power_supervision.md, Step failure, retry and the cleat, 14_power_supervision.md, The SEQ program) -/
def Obligations.SequencerLedger : Prop :=
  ∀ (s : State) (w : Nat) (q : Nat) (r : Fin 32) (o : Option Nat),
    s.pwr.lost = false →
    s.rig.resetWait = false →
    (seqWord s 1 = some w → s.pwr.ledger.contains (w % 32) = false → Does (.seqEnable) s fun t => t.pwr.ledger =
      s.pwr.ledger ++ [w % 32] ∧ t.on (PWR_SLOT_STAT_ACTIVE (w % 32)) = true ∧ t.on (PWR_SLOT_STAT_IN_LEDGER (w %
      32)) = true ∧ t.pwr.pc = s.pwr.pc + 1 ∧ t.out = s.out) ∧
    (seqWord s 1 = some w → s.pwr.ledger.contains (w % 32) = true → Does (.seqEnable) s fun t => t.pwr.ledger =
      s.pwr.ledger ∧ t.pwr.pc = s.pwr.pc + 1 ∧ OnlyRegs [PWR_STAT] s t ∧ t.out = s.out) ∧
    (seqWord s 2 = some w → s.mapped 0x50 (w % 32) 1 = true → s.on (PWR_SLOT_STAT_GOOD (w % 32)) = false → Does
      (.seqDisable) s fun t => t.pwr.ledger = s.pwr.ledger.filter (· != w % 32) ∧ t.on (PWR_SLOT_STAT_ACTIVE (w %
      32)) = false ∧ t.pwr.pc = s.pwr.pc + 1 ∧ t.pwr.wait = .none ∧ t.out = s.out) ∧
    (seqWord s 2 = some w → s.mapped 0x50 (w % 32) 1 = true → s.on (PWR_SLOT_STAT_GOOD (w % 32)) = true → s.g
      (PWR_SLOT_CFG_TOFF (w % 32)) ≠ 0 → Does (.seqDisable) s fun t => t.pwr.ledger = s.pwr.ledger.filter (· != w
      % 32) ∧ t.on (PWR_SLOT_STAT_ACTIVE (w % 32)) = false ∧ t.pwr.pc = s.pwr.pc + 1 ∧ t.pwr.wait = .drop (w % 32)
      ∧ t.out = s.out) ∧
    (s.pwr.wait = .good r → s.pwr.ledger.getLast? = some q → q < 32 → s.mapped 0x50 q 1 = true → s.on
      (PWR_SLOT_STAT_GOOD q) = true → s.g (PWR_SLOT_CFG_TOFF q) ≠ 0 → Does (.waitgoodTimeout) s fun t => pwState t
      = Pw.downSeq ∧ t.pwr.wait = .drop q ∧ t.g PWR_STAT_FAIL_CAUSE = 1 ∧ t.g PWR_STAT_FAIL_SLOT = r ∧ t.on
      PWR_STAT_NO_SLOT = false ∧ t.on (PWR_SLOT_STAT_ACTIVE q) = false ∧ t.g (PWR_SLOT_CNT0_RISE_FAIL r) = min
      65535 (s.g (PWR_SLOT_CNT0_RISE_FAIL r) + 1)) ∧
    (s.pwr.wait = .none ∨ s.pwr.wait = .drop q → s.pwr.offWait = some (s.clock, r.val) → Does (.waitgoodTimeout) s
      fun t => t.g (PWR_SLOT_CNT0_RISE_FAIL r) = min 65535 (s.g (PWR_SLOT_CNT0_RISE_FAIL r) + 1) ∧ t.pwr.offWait =
      none ∧ t.pwr.down = s.pwr.down ∧ t.out = s.out ∧ OnlyRegs [PWR_SLOT_CNT0 r] s t) ∧
    (s.pwr.wait = .drop q → s.pwr.ledger = [q] → pwState s = Pw.downSeq → s.pwr.down = some (.fail w o) → s.g
      PWR_STAT_ATTEMPT < s.pwr.n → Does (.shutdownSlotDone) s fun t => pwState t = Pw.upSeq ∧ t.on
      PWR_STAT_RETRY_WAIT = true ∧ t.pwr.ledger = [] ∧ t.pwr.lastSlot = o ∧ t.g PWR_STAT_ATTEMPT = s.g
      PWR_STAT_ATTEMPT ∧ t.out = s.out) ∧
    (s.pwr.wait = .drop q → s.pwr.ledger = [q] → pwState s = Pw.downSeq → s.pwr.down = some (.fail w o) → s.pwr.n
      ≤ s.g PWR_STAT_ATTEMPT → s.pwr.failAt ≠ some s.clock → Does (.shutdownSlotDone) s fun t => pwState t =
      Pw.cleated ∧ t.pwr.ledger = [] ∧ t.pwr.downAt = some s.clock) ∧
    (s.pwr.wait = .drop q → s.pwr.ledger = [q] → pwState s = Pw.downSeq → s.pwr.down = some .off → Does
      (.shutdownSlotDone) s fun t => pwState t = Pw.off ∧ t.pwr.ledger = [] ∧ t.pwr.wait = .none ∧ t.pwr.downAt =
      some s.clock ∧ t.engine = (if s.engine = Eng.furled then Eng.standby else s.engine)) ∧
    (s.on PWR_STAT_ON_HELD = true → pwState s = Pw.off → toffPassed s = true → Does (.onRequestStart) s fun t =>
      pwState t = Pw.upSeq ∧ t.pwr.pc = 0 ∧ t.g PWR_STAT_ATTEMPT = 0 ∧ t.on PWR_STAT_ON_HELD = false ∧ t.out =
      s.out ∧ OnlyRegs [PWR_STAT] s t) ∧
    (s.pwr.wait = .time → Does (.seqWaitEnd) s fun t => t.pwr.wait = .none ∧ t.pwr.pc = s.pwr.pc ∧ t.regs = s.regs
      ∧ t.out = s.out) ∧
    (s.on PWR_STAT_RETRY_WAIT = true → s.pwr.lastSlot = some r.val → Does (.retryDelayEnd) s fun t => t.pwr.pc = 0
      ∧ t.pwr.wait = .none ∧ t.pwr.checkIn = true ∧ t.pwr.ledger = s.pwr.ledger ∧ t.g PWR_STAT_ATTEMPT = (s.g
      PWR_STAT_ATTEMPT + 1) % 8 ∧ t.on PWR_STAT_RETRY_WAIT = false ∧ t.g (PWR_SLOT_CNT2_RETRY r) = min 65535 (s.g
      (PWR_SLOT_CNT2_RETRY r) + 1))

/-- A good, active slot whose qualify window ends is QUALIFIED. Where PINMAP places its PG ball, a rise of good sets
GOOD and ends its glitch filter; a drop of a qualified slot starts its filter, and of an active one not yet
qualified counts one CHATTER. A droop past the filter of an active slot in the ledger counts one DROOP and ends its
qualification. With the power ON it also names the slot with cause 3 and begins the shutdown with the last slot of
the ledger, an off request's: it waits for that slot's good to drop, or, where the slot that drooped is the only
one, ends in OFF. In UP_SEQ it is a step failure of cause 3 that names the slot and shuts down; in DOWN_SEQ it is
counted only. The first overvoltage sample of a slot is kept and no register changes; a sample at or below OV_CODE
forgets it; a second in a row of a slot in the ledger counts one OVERV and acts likewise, with cause 4.
(14_power_supervision.md, Rail slots, 14_power_supervision.md, Rail counters) -/
def Obligations.RailSupervision : Prop :=
  ∀ (s : State) (r : Fin 32) (code : BitVec 12) (q : Nat),
    s.pwr.lost = false →
    s.rig.resetWait = false →
    (s.on (PWR_SLOT_STAT_ACTIVE r) = true → s.on (PWR_SLOT_STAT_GOOD r) = true → s.on (PWR_SLOT_STAT_QUALIFIED r)
      = false → Does (.railQualified r) s fun t => t.on (PWR_SLOT_STAT_QUALIFIED r) = true ∧ bitsOf (t.g
      PWR_GOOD_QUAL) r 1 = 1 ∧ OnlyRegs [PWR_SLOT_STAT r, PWR_GOOD] s t) ∧
    (s.mapped 0x50 r 1 = true → Does (.railGoodRise r) s fun t => t.on (PWR_SLOT_STAT_GOOD r) = true ∧
      t.pwr.glitch = s.pwr.glitch.filter (· != r.val) ∧ t.pwr.ledger = s.pwr.ledger ∧ t.out = s.out ∧ OnlyRegs
      [PWR_SLOT_STAT r] s t) ∧
    (s.mapped 0x50 r 1 = true → s.on (PWR_SLOT_STAT_ACTIVE r) = true → s.on (PWR_SLOT_STAT_GOOD r) = true → s.on
      (PWR_SLOT_STAT_QUALIFIED r) = true → Does (.railGoodDrop r) s fun t => t.on (PWR_SLOT_STAT_GOOD r) = false ∧
      t.pwr.glitch = s.pwr.glitch ++ [r.val] ∧ t.out = s.out ∧ OnlyRegs [PWR_SLOT_STAT r] s t) ∧
    (s.mapped 0x50 r 1 = true → s.on (PWR_SLOT_STAT_ACTIVE r) = true → s.on (PWR_SLOT_STAT_GOOD r) = true → s.on
      (PWR_SLOT_STAT_QUALIFIED r) = false → Does (.railGoodDrop r) s fun t => t.on (PWR_SLOT_STAT_GOOD r) = false
      ∧ t.g (PWR_SLOT_CNT0_CHATTER r) = min 65535 (s.g (PWR_SLOT_CNT0_CHATTER r) + 1) ∧ t.pwr =
      { s.pwr with pg := t.pwr.pg } ∧ t.out = s.out ∧ OnlyRegs [PWR_SLOT_STAT r, PWR_SLOT_CNT0 r] s t) ∧
    (s.pwr.glitch.contains r.val = true → s.on (PWR_SLOT_STAT_ACTIVE r) = true → s.pwr.ledger.contains r.val =
      true → pwState s = Pw.on → s.pwr.down = none → q ≠ r.val → s.pwr.ledger.getLast? = some q → q < 32 →
      s.mapped 0x50 q 1 = true → s.on (PWR_SLOT_STAT_GOOD q) = true → s.g (PWR_SLOT_CFG_TOFF q) ≠ 0 → Does
      (.railDroop r) s fun t => t.g (PWR_SLOT_CNT1_DROOP r) = min 65535 (s.g (PWR_SLOT_CNT1_DROOP r) + 1) ∧ t.g
      PWR_STAT_FAIL_CAUSE = 3 ∧ t.g PWR_STAT_FAIL_SLOT = r ∧ t.on PWR_STAT_NO_SLOT = false ∧ pwState t =
      Pw.downSeq ∧ t.pwr.wait = .drop q ∧ t.on (PWR_SLOT_STAT_ACTIVE q) = false ∧ t.pwr.down = some .off ∧ t.on
      (PWR_SLOT_STAT_QUALIFIED r) = false) ∧
    (s.pwr.glitch.contains r.val = true → s.on (PWR_SLOT_STAT_ACTIVE r) = true → s.pwr.ledger.contains r.val =
      true → pwState s = Pw.on → s.pwr.down = none → s.pwr.ledger = [r.val] → s.on (PWR_SLOT_STAT_GOOD r) = false
      → Does (.railDroop r) s fun t => t.g (PWR_SLOT_CNT1_DROOP r) = min 65535 (s.g (PWR_SLOT_CNT1_DROOP r) + 1) ∧
      t.g PWR_STAT_FAIL_CAUSE = 3 ∧ t.g PWR_STAT_FAIL_SLOT = r ∧ pwState t = Pw.off ∧ t.pwr.ledger = [] ∧
      t.pwr.downAt = some s.clock ∧ t.on (PWR_SLOT_STAT_ACTIVE r) = false) ∧
    (s.pwr.glitch.contains r.val = true → s.on (PWR_SLOT_STAT_ACTIVE r) = true → s.pwr.ledger.contains r.val =
      true → pwState s = Pw.upSeq → s.pwr.down = none → q ≠ r.val → s.pwr.ledger.getLast? = some q → q < 32 →
      s.mapped 0x50 q 1 = true → s.on (PWR_SLOT_STAT_GOOD q) = true → s.g (PWR_SLOT_CFG_TOFF q) ≠ 0 → Does
      (.railDroop r) s fun t => t.g (PWR_SLOT_CNT1_DROOP r) = min 65535 (s.g (PWR_SLOT_CNT1_DROOP r) + 1) ∧ t.g
      PWR_STAT_FAIL_CAUSE = 3 ∧ t.g PWR_STAT_FAIL_SLOT = r ∧ t.on PWR_STAT_NO_SLOT = false ∧ pwState t =
      Pw.downSeq ∧ t.pwr.wait = .drop q ∧ t.on (PWR_SLOT_STAT_ACTIVE q) = false ∧ t.pwr.down = some (.fail 3 (some
      r.val)) ∧ t.on (PWR_SLOT_STAT_QUALIFIED r) = false ∧ t.out = s.out) ∧
    (s.pwr.glitch.contains r.val = true → s.on (PWR_SLOT_STAT_ACTIVE r) = true → s.pwr.ledger.contains r.val =
      true → pwState s = Pw.downSeq → Does (.railDroop r) s fun t => t.g (PWR_SLOT_CNT1_DROOP r) = min 65535 (s.g
      (PWR_SLOT_CNT1_DROOP r) + 1) ∧ t.pwr.ledger = s.pwr.ledger ∧ t.pwr.down = s.pwr.down ∧ t.pwr.wait =
      s.pwr.wait ∧ t.out = s.out ∧ OnlyRegs [PWR_SLOT_STAT r, PWR_GOOD, PWR_SLOT_CNT1 r] s t ∧ t.on
      (PWR_SLOT_STAT_QUALIFIED r) = false) ∧
    (s.on (PWR_SLOT_CFG_OV_EN r) = true → s.on (PWR_SLOT_STAT_ACTIVE r) = true → s.g (PWR_SLOT_CFG_OV_CODE r) <
      code.toNat → s.pwr.ovHigh.contains r.val = true → s.pwr.ledger.contains r.val = true → pwState s = Pw.on →
      s.pwr.down = none → s.pwr.ledger.getLast? = some q → q < 32 → s.mapped 0x50 q 1 = true → s.on
      (PWR_SLOT_STAT_GOOD q) = true → s.g (PWR_SLOT_CFG_TOFF q) ≠ 0 → Does (.railOvSample r code) s fun t => t.g
      (PWR_SLOT_CNT1_OVERV r) = min 65535 (s.g (PWR_SLOT_CNT1_OVERV r) + 1) ∧ t.g PWR_STAT_FAIL_CAUSE = 4 ∧ t.g
      PWR_STAT_FAIL_SLOT = r ∧ t.on PWR_STAT_NO_SLOT = false ∧ pwState t = Pw.downSeq ∧ t.pwr.wait = .drop q ∧
      t.on (PWR_SLOT_STAT_ACTIVE q) = false ∧ t.pwr.down = some .off ∧ t.pwr.ovHigh.contains r.val = false) ∧
    (s.on (PWR_SLOT_CFG_OV_EN r) = true → s.on (PWR_SLOT_STAT_ACTIVE r) = true → s.g (PWR_SLOT_CFG_OV_CODE r) <
      code.toNat → s.pwr.ovHigh.contains r.val = true → s.pwr.ledger.contains r.val = true → pwState s = Pw.upSeq
      → s.pwr.down = none → s.pwr.ledger.getLast? = some q → q < 32 → s.mapped 0x50 q 1 = true → s.on
      (PWR_SLOT_STAT_GOOD q) = true → s.g (PWR_SLOT_CFG_TOFF q) ≠ 0 → Does (.railOvSample r code) s fun t => t.g
      (PWR_SLOT_CNT1_OVERV r) = min 65535 (s.g (PWR_SLOT_CNT1_OVERV r) + 1) ∧ t.g PWR_STAT_FAIL_CAUSE = 4 ∧ t.g
      PWR_STAT_FAIL_SLOT = r ∧ t.on PWR_STAT_NO_SLOT = false ∧ pwState t = Pw.downSeq ∧ t.pwr.wait = .drop q ∧
      t.on (PWR_SLOT_STAT_ACTIVE q) = false ∧ t.pwr.down = some (.fail 4 (some r.val)) ∧ t.pwr.ovHigh.contains
      r.val = false ∧ t.out = s.out) ∧
    (s.on (PWR_SLOT_CFG_OV_EN r) = true → s.on (PWR_SLOT_STAT_ACTIVE r) = true → s.g (PWR_SLOT_CFG_OV_CODE r) <
      code.toNat → s.pwr.ovHigh.contains r.val = true → s.pwr.ledger.contains r.val = true → pwState s =
      Pw.downSeq → Does (.railOvSample r code) s fun t => t.g (PWR_SLOT_CNT1_OVERV r) = min 65535 (s.g
      (PWR_SLOT_CNT1_OVERV r) + 1) ∧ t.pwr.ledger = s.pwr.ledger ∧ t.pwr.down = s.pwr.down ∧ t.pwr.wait =
      s.pwr.wait ∧ t.out = s.out ∧ OnlyRegs [PWR_SLOT_CNT1 r] s t ∧ t.pwr.ovHigh.contains r.val = false) ∧
    (s.on (PWR_SLOT_CFG_OV_EN r) = true → s.on (PWR_SLOT_STAT_ACTIVE r) = true → s.g (PWR_SLOT_CFG_OV_CODE r) <
      code.toNat → s.pwr.ovHigh.contains r.val = false → Does (.railOvSample r code) s fun t =>
      t.pwr.ovHigh.contains r.val = true ∧ t.regs = s.regs) ∧
    (s.on (PWR_SLOT_CFG_OV_EN r) = true → s.on (PWR_SLOT_STAT_ACTIVE r) = true → code.toNat ≤ s.g
      (PWR_SLOT_CFG_OV_CODE r) → Does (.railOvSample r code) s fun t => t.pwr.ovHigh.contains r.val = false ∧
      t.regs = s.regs)

/-- A sag trip while armed shows the two inputs, sets VIN_LOW, disarms, and starts a save of cause 1 with the record
body as it stood at the trip; both stay slots are as they were. A running engine goes to HARDSTOP; otherwise the
outputs are forced. Recovery clears VIN_LOW and arms again. With no save under way the shadow takes the record body
and the time of its refresh; during a save it stays as it is; a final copy that arrives marks the save. A save that
completes writes its record to the slot that does not hold the newest one, leaves the other slot, advances SEQ,
counts the save and ends it, with an off request where a sag began it; one that is cut off leaves its slot invalid,
the other slot and SEQ as they were, and sets ABORTED. (14_power_supervision.md, Sag and the stay save) -/
def Obligations.SagAndStaySave : Prop :=
  ∀ (s : State) (v : Save) (vin : BitVec 16) (vstay : BitVec 16) (q : Nat),
    s.pwr.lost = false →
    s.rig.resetWait = false →
    (s.on PWR_STAT_SAG_ARMED = true → Does (.sagTrip vin vstay) s fun t => t.pwr.save.map (·.cause) = some 1 ∧
      t.pwr.slotA = s.pwr.slotA ∧ t.pwr.slotB = s.pwr.slotB ∧ t.on PWR_STAT_VIN_LOW = true ∧ t.on
      PWR_STAT_SAG_ARMED = false ∧ t.on PWR_STAT_SAVING = true ∧ t.g PWR_VIN_VIN = vin.toNat ∧ t.g PWR_VIN_VSTAY =
      vstay.toNat ∧ t.pwr.save.map (·.body) = some (stayBody s) ∧ t.engine = (if s.running then Eng.hardstop else
      s.engine) ∧ t.on ILK_STAT_FORCED = true) ∧
    (Does (.sagRearm vin) s fun t => t.on PWR_STAT_VIN_LOW = false ∧ t.on PWR_STAT_SAG_ARMED = true ∧ t.g
      PWR_VIN_VIN = vin.toNat ∧ t.pwr = s.pwr ∧ OnlyRegs [PWR_STAT, PWR_VIN] s t) ∧
    (s.dead = false → s.pwr.save = none → Does (.stayShadowRefresh) s fun t => t.pwr.shadow = stayBody s ∧
      t.pwr.shadowAt = s.time ∧ t.regs = s.regs) ∧
    (s.dead = false → s.pwr.save = some v → Does (.stayShadowRefresh) s fun t => t.pwr.shadow = s.pwr.shadow ∧
      t.regs = s.regs) ∧
    (s.dead = false → s.pwr.save = some v → Does (.stayFinalCopy true) s fun t => t.pwr.save = some
      { v with final := true } ∧ t.regs = s.regs) ∧
    (s.pwr.failWait = false → s.pwr.pinWait = false → s.pwr.save = some v → v.cause = 2 → Does (.staySaveDone) s
      fun t => (if saveToA s then t.pwr.slotA else t.pwr.slotB) = some (stayRecord s v ((s.g PWR_STAY_SEQ + 1) % 2
      ^ 32)) ∧ (if saveToA s then t.pwr.slotB else t.pwr.slotA) = (if saveToA s then s.pwr.slotB else s.pwr.slotA)
      ∧ t.g PWR_STAY_SEQ = (s.g PWR_STAY_SEQ + 1) % 2 ^ 32 ∧ t.pwr.save = none ∧ t.on PWR_STAT_SAVING = false ∧
      t.pwr.saves = s.pwr.saves + 1 ∧ t.on PWR_STAYSTAT_NEWEST_B = !saveToA s ∧ t.g PWR_SAG_SAVES = min (2 ^
      PWR_SAG_SAVES.w - 1) (s.g PWR_SAG_SAVES + 1)) ∧
    (s.pwr.failWait = false → s.pwr.pinWait = false → s.pwr.save = some v → v.cause = 1 → pwState s = Pw.on →
      s.pwr.ledger.getLast? = some q → q < 32 → s.mapped 0x50 q 1 = true → s.on (PWR_SLOT_STAT_GOOD q) = true →
      s.g (PWR_SLOT_CFG_TOFF q) ≠ 0 → Does (.staySaveDone) s fun t => (if saveToA s then t.pwr.slotA else
      t.pwr.slotB) = some (stayRecord s v ((s.g PWR_STAY_SEQ + 1) % 2 ^ 32)) ∧ t.pwr.save = none ∧ pwState t =
      Pw.downSeq ∧ t.pwr.wait = .drop q) ∧
    (s.pwr.failWait = false → s.pwr.pinWait = false → s.pwr.save = some v → Does (.staySaveAbort) s fun t => (if
      saveToA s then t.pwr.slotA else t.pwr.slotB) = none ∧ (if saveToA s then t.pwr.slotB else t.pwr.slotA) = (if
      saveToA s then s.pwr.slotB else s.pwr.slotA) ∧ t.g PWR_STAY_SEQ = s.g PWR_STAY_SEQ ∧ t.on
      PWR_STAYSTAT_ABORTED = true ∧ t.on PWR_STAT_SAVING = false ∧ t.pwr.save = none ∧ t.out = s.out ∧ OnlyRegs
      [PWR_STAT, PWR_STAY, PWR_STAYSTAT] s t)

/-- A full host write of PWR_CTRL with only the bit named written 1. OFF in STANDBY and power ON begins the shutdown
of the last slot of the ledger, waiting for its good to drop; in READY, PRINTING, DRAINING and HARDSTOP it sets
REFUSED and nothing else. UNCLEAT leaves CLEATED for OFF, the engine in STANDBY where it was FURLED, and elsewhere
sets REFUSED. SAVE starts a save of cause 2 while armed and none under way, with the input voltages as they are
then, and else sets REFUSED. CNT_CLR zeroes the five counters of the slot it names, in NVM too inside the write
window, and changes no other register; outside the window the zeros of that slot alone wait.
(14_power_supervision.md, Power states, 14_power_supervision.md, Step failure, retry and the cleat,
14_power_supervision.md, Rail counters, 14_power_supervision.md, Sag and the stay save, 14_power_supervision.md,
Registers) -/
def Obligations.PowerControlWrites : Prop :=
  ∀ (s : State) (v : Word) (q : Nat),
    Reaches s PWR_CTRL →
    (fieldOf PWR_CTRL_CNT_CLR v = 0 → fieldOf PWR_CTRL_SAVE v = 0 → fieldOf PWR_CTRL_UNCLEAT v = 0 → fieldOf
      PWR_CTRL_OFF v = 1 → s.engine = Eng.standby → pwState s = Pw.on → s.pwr.ledger.getLast? = some q → q < 32 →
      s.mapped 0x50 q 1 = true → s.on (PWR_SLOT_STAT_GOOD q) = true → s.g (PWR_SLOT_CFG_TOFF q) ≠ 0 → Does
      (.pwrOff v) s fun t => pwState t = Pw.downSeq ∧ t.pwr.wait = .drop q ∧ t.pwr.down = some .off ∧ t.on
      (PWR_SLOT_STAT_ACTIVE q) = false) ∧
    (fieldOf PWR_CTRL_CNT_CLR v = 0 → fieldOf PWR_CTRL_SAVE v = 0 → fieldOf PWR_CTRL_UNCLEAT v = 0 → fieldOf
      PWR_CTRL_OFF v = 1 → s.engine = Eng.ready ∨ s.engine = Eng.printing ∨ s.engine = Eng.draining ∨ s.engine =
      Eng.hardstop → Does (.pwrOff v) s fun t => t.on PWR_STAT_REFUSED = true ∧ t.pwr = s.pwr ∧ t.out = s.out ∧
      OnlyRegs [PWR_STAT] s t) ∧
    (fieldOf PWR_CTRL_CNT_CLR v = 0 → fieldOf PWR_CTRL_SAVE v = 0 → fieldOf PWR_CTRL_UNCLEAT v = 1 → fieldOf
      PWR_CTRL_OFF v = 0 → pwState s = Pw.cleated → Does (.pwrUncleat v) s fun t => pwState t = Pw.off ∧ t.engine
      = (if s.engine = Eng.furled then Eng.standby else s.engine) ∧ t.pwr = s.pwr) ∧
    (fieldOf PWR_CTRL_CNT_CLR v = 0 → fieldOf PWR_CTRL_SAVE v = 0 → fieldOf PWR_CTRL_UNCLEAT v = 1 → fieldOf
      PWR_CTRL_OFF v = 0 → pwState s ≠ Pw.cleated → Does (.pwrUncleat v) s fun t => t.on PWR_STAT_REFUSED = true ∧
      t.pwr = s.pwr ∧ t.out = s.out ∧ OnlyRegs [PWR_STAT] s t) ∧
    (fieldOf PWR_CTRL_CNT_CLR v = 0 → fieldOf PWR_CTRL_SAVE v = 1 → fieldOf PWR_CTRL_UNCLEAT v = 0 → fieldOf
      PWR_CTRL_OFF v = 0 → s.on PWR_STAT_SAVING = false → s.on PWR_STAT_SAG_ARMED = true → Does (.pwrSave v) s fun
      t => t.on PWR_STAT_SAVING = true ∧ t.pwr.save.map (·.cause) = some 2 ∧ t.pwr.slotA = s.pwr.slotA ∧
      t.pwr.slotB = s.pwr.slotB ∧ t.pwr.save.map (·.vstay) = some (t.g PWR_VIN_VSTAY) ∧ t.out = s.out ∧ OnlyRegs
      [PWR_STAT, PWR_VIN] s t) ∧
    (fieldOf PWR_CTRL_CNT_CLR v = 0 → fieldOf PWR_CTRL_SAVE v = 1 → fieldOf PWR_CTRL_UNCLEAT v = 0 → fieldOf
      PWR_CTRL_OFF v = 0 → s.on PWR_STAT_SAVING = true ∨ s.on PWR_STAT_SAG_ARMED = false → Does (.pwrSave v) s fun
      t => t.on PWR_STAT_REFUSED = true ∧ t.pwr = s.pwr ∧ t.out = s.out ∧ OnlyRegs [PWR_STAT] s t) ∧
    (fieldOf PWR_CTRL_CNT_CLR v = 1 → fieldOf PWR_CTRL_SAVE v = 0 → fieldOf PWR_CTRL_UNCLEAT v = 0 → fieldOf
      PWR_CTRL_OFF v = 0 → Does (.pwrCntClr v) s fun t => (∀ k : Fin 5, t.g (railCnt (fieldOf PWR_CTRL_CNT_SLOT v)
      k) = 0) ∧ t.pwr.nvmWait = s.pwr.nvmWait ∧ (if nvmWindow s then (∀ k : Fin 5, bankGet 0 t.pwr.nvmCnt (8 *
      fieldOf PWR_CTRL_CNT_SLOT v + k) = 0) else t.pwr.nvmCnt = s.pwr.nvmCnt ∧ fieldOf PWR_CTRL_CNT_SLOT v ∈
      t.pwr.clrWait) ∧ t.pwr.ledger = s.pwr.ledger ∧ t.out = s.out ∧ OnlyRegs [PWR_SLOT_CNT0 (fieldOf
      PWR_CTRL_CNT_SLOT v), PWR_SLOT_CNT1 (fieldOf PWR_CTRL_CNT_SLOT v), PWR_SLOT_CNT2 (fieldOf PWR_CTRL_CNT_SLOT
      v)] s t)

/-- When SYSPLL locks for the first time, with no image loading or applied, its LOCK is set, CLK_REF.INPUT says
which reference it has, and with BOOT_SRC 0 or 3 flash slot 1 starts loading by the quad read of its address; with
BOOT_SRC 2 the NVM rigging area does; with 1 nothing loads. A HEADER of 256 bytes that no check rejects is kept and
changes no register; one that a check rejects ends the read after byte 255 and, from slot 1, starts slot 2 with the
cause kept. The bytes that complete IMG_LEN end the read at it and start verification of the whole; so does the end
of a read of the NVM rigging area. A full host write of RIG_LOADCTRL with one command bit written 1. OPEN, UNRIGGED
or REJECTED with no load under way and the boot source read (assumption log 33), starts a host load and keeps the
state to go back to; OPEN while a load is under way is refused: REFUSED is set and nothing else changes. COMMIT with
DEST 0 starts verification of the staged image, DEST and RIG_LOADLEN taken as they are. ABANDON of an open load goes
back to the state before OPEN. A full host write of the aperture while a host load is open puts its four bytes,
least significant first, into the staging SRAM at the window, and changes nothing else. (01_architecture.md, Bring-
up from power-on to READY, 02_rigging.md, Loading and checking, 02_rigging.md, Boot sources, 16_clocks_islands.md,
Reference, 02_rigging.md, Host load, 02_rigging.md, Rigging registers) -/
def Obligations.BootAndHostLoad : Prop :=
  ∀ (s : State) (ref : Bool) (h : List (BitVec 8)) (b : List (BitVec 8)) (v : BitVec 32) (off : BitVec 26) (i : Fin 4),
    (s.dead = false → s.rig.booted = false → s.g CHIP_RIGSTAT_STATE = 0 → bootSrc s = 0 ∨ bootSrc s = 3 → Does
      (.syspllLock ref) s fun t => t.rig.booted = true ∧ t.rig.load = 1 ∧ t.g CHIP_RIGSTAT_STATE = 1 ∧ t.on
      (CLK_PLL_STAT_LOCK 0) = true ∧ t.on CLK_REF_INPUT = ref ∧ t.out = s.out ++ [.qspi 0x6B 0]) ∧
    (s.dead = false → s.rig.booted = false → s.g CHIP_RIGSTAT_STATE = 0 → bootSrc s = 1 ∨ bootSrc s = 2 → Does
      (.syspllLock ref) s fun t => t.rig.booted = true ∧ t.rig.load = (if bootSrc s = 2 then 4 else s.rig.load) ∧
      t.g CHIP_RIGSTAT_STATE = (if bootSrc s = 2 then 1 else 0) ∧ t.on (CLK_PLL_STAT_LOCK 0) = true ∧ t.on
      CLK_REF_INPUT = ref ∧ t.out = s.out) ∧
    (s.dead = false → flashLoading s = true → s.rig.hdr = none → h.length = 256 → headerCause s h = 0 → Does
      (.qspiHeaderRead h) s fun t => t.rig = { s.rig with hdr := some h } ∧ t.regs = s.regs ∧ t.out = s.out) ∧
    (s.dead = false → flashLoading s = true → s.rig.hdr = none → h.length = 256 → headerCause s h ≠ 0 → s.rig.load
      = 1 → Does (.qspiHeaderRead h) s fun t => t.rig.load = 2 ∧ t.g CHIP_RIGSTAT_STATE = 1 ∧ t.on
      CHIP_RIGSTAT_SLOT = true ∧ t.g RIG_LOADSTAT_CAUSE_PRI = headerCause s h % 16 ∧ t.out = s.out ++ [.qspiEnd
      256, .qspi 0x6B 0x800000] ∧ OnlyRegs [CHIP_RIGSTAT, RIG_LOADSTAT] s t) ∧
    (s.dead = false → flashLoading s = true → s.rig.hdr = some h → h.length + b.length = imgLen h → Does
      (.qspiImageReadDone b) s fun t => t.rig = { s.rig with image := h ++ b } ∧ t.g CHIP_RIGSTAT_STATE = 2 ∧
      t.out = s.out ++ [.qspiEnd (imgLen h)] ∧ OnlyRegs [CHIP_RIGSTAT] s t) ∧
    (s.dead = false → s.g CHIP_RIGSTAT_STATE = 1 → s.rig.load = 4 → Does (.nvmImageReadDone) s fun t => t.rig =
      { s.rig with image := s.rig.nvmImage } ∧ t.g CHIP_RIGSTAT_STATE = 2 ∧ t.out = s.out ∧ OnlyRegs
      [CHIP_RIGSTAT] s t) ∧
    (Reaches s RIG_LOADCTRL → fieldOf RIG_LOADCTRL_OPEN v = 1 → fieldOf RIG_LOADCTRL_COMMIT v = 0 → fieldOf
      RIG_LOADCTRL_ABANDON v = 0 → s.g CHIP_RIGSTAT_STATE = 0 ∨ s.g CHIP_RIGSTAT_STATE = 4 → s.rig.load = 0 →
      s.rig.booted = true → Does (.rigOpen v) s fun t => t.rig.load = 3 ∧ t.g CHIP_RIGSTAT_STATE = 1 ∧ t.rig.prior
      = (s.g CHIP_RIGSTAT_STATE, s.g CHIP_RIGSTAT_CAUSE) ∧ t.rig.stage = [] ∧ t.out = s.out ∧ OnlyRegs
      [RIG_LOADCTRL, CHIP_RIGSTAT] s t) ∧
    (Reaches s RIG_LOADCTRL → fieldOf RIG_LOADCTRL_OPEN v = 1 → fieldOf RIG_LOADCTRL_COMMIT v = 0 → fieldOf
      RIG_LOADCTRL_ABANDON v = 0 → s.rig.load ≠ 0 → Does (.rigOpen v) s fun t => t.on RIG_LOADSTAT_REFUSED = true
      ∧ t.rig = s.rig ∧ t.out = s.out ∧ OnlyRegs [RIG_LOADSTAT] s t) ∧
    (Reaches s (off.toNat / 4 * 4) → inAperture (off.toNat / 4 * 4) = true → hostLoading s = true → Does
      (.apertureWrite off v) s fun t => bankGet 0 t.rig.stage (stageAt s (off.toNat / 4 * 4) + i) = (leBytes 4
      v.toNat).getD i 0 ∧ t.regs = s.regs ∧ t.out = s.out ∧ t.rig = { s.rig with stage := t.rig.stage }) ∧
    (Reaches s RIG_LOADCTRL → fieldOf RIG_LOADCTRL_OPEN v = 0 → fieldOf RIG_LOADCTRL_COMMIT v = 1 → fieldOf
      RIG_LOADCTRL_ABANDON v = 0 → fieldOf RIG_LOADCTRL_DEST v = 0 → hostLoading s = true → Does (.rigCommit v) s
      fun t => t.rig = { s.rig with image := stagedImage s, dest := false, loadLen := s.g RIG_LOADLEN_LENGTH } ∧
      t.g CHIP_RIGSTAT_STATE = 2 ∧ t.out = s.out ∧ OnlyRegs [RIG_LOADCTRL, CHIP_RIGSTAT] s t) ∧
    (Reaches s RIG_LOADCTRL → fieldOf RIG_LOADCTRL_OPEN v = 0 → fieldOf RIG_LOADCTRL_COMMIT v = 0 → fieldOf
      RIG_LOADCTRL_ABANDON v = 1 → s.rig.prior.1 = 0 ∨ s.rig.prior.1 = 4 → hostLoading s = true → Does
      (.rigAbandon v) s fun t => t.rig.load = 0 ∧ t.g CHIP_RIGSTAT_STATE = s.rig.prior.1 ∧ t.rig.stage = [] ∧ t.on
      RIG_LOADSTAT_REFUSED = s.on RIG_LOADSTAT_REFUSED ∧ t.out = s.out)

/-- At the end of the verification of a host image whose COMMIT had DEST 0, CHIP_RIGSTAT becomes RIGGED if no check
fails; otherwise REJECTED with the first failing check as cause, and no pin or route of the image is used. With DEST
1 an image that passes is held for the copy to the NVM rigging area. An image of flash slot 1 that fails gives way
to slot 2, its cause kept. The end of the copy stores the image whole, sets NVM_DONE and ends the load. The
arithmetic of the signature check is that of the standards the spec names (assumption log 4). A full host write of
CSET_CMD whose CONFIRM is the key: for a value its rule allows, a slot left and Tj from 10 to 85 degrees C, it
starts programming of the staged words, BUSY 1 and RESULT 0. Where the rule forbids the value, RESULT is 1 and
nothing is programmed. At the end of programming the setting has one slot more, whole, and BUSY is 0.
(02_rigging.md, Loading and checking, 02_rigging.md, Host load, 02_rigging.md, Counted settings) -/
def Obligations.ImagesAndSettings : Prop :=
  ∀ (s : State) (ids : BitVec 32) (b : List (BitVec 8)) (v : BitVec 32) (i : Nat) (w : List Nat),
    (s.dead = false → s.g CHIP_RIGSTAT_STATE = 2 → s.rig.storing = none → s.rig.load = 3 → s.rig.dest = false →
      Does (.imageVerified ids) s fun t => (if imageCause s s.rig.image = 0 then t.g CHIP_RIGSTAT_STATE = 3 else
      t.g CHIP_RIGSTAT_STATE = 4 ∧ t.g CHIP_RIGSTAT_CAUSE = imageCause s s.rig.image % 16 ∧ t.rig.pins =
      s.rig.pins ∧ t.rig.routes = s.rig.routes)) ∧
    (s.dead = false → s.g CHIP_RIGSTAT_STATE = 2 → s.rig.storing = none → s.rig.load = 3 → s.rig.dest = true →
      Does (.imageVerified ids) s fun t => (if imageCause s s.rig.image = 0 then t.rig.storing = some s.rig.image
      ∧ t.regs = s.regs else t.rig.storing = none ∧ t.g CHIP_RIGSTAT_STATE = 4)) ∧
    (s.dead = false → s.g CHIP_RIGSTAT_STATE = 2 → s.rig.storing = none → s.rig.load = 1 → Does (.imageVerified
      ids) s fun t => (if imageCause s s.rig.image = 0 then t.g CHIP_RIGSTAT_STATE = 3 else t.g CHIP_RIGSTAT_STATE
      = 1 ∧ t.rig.load = 2 ∧ t.g RIG_LOADSTAT_CAUSE_PRI = imageCause s s.rig.image % 16)) ∧
    (s.dead = false → s.rig.storing = some b → Does (.nvmImageStoreDone) s fun t => t.rig.nvmImage = b ∧
      t.rig.storing = none ∧ t.rig.load = 0 ∧ t.on RIG_LOADSTAT_NVM_DONE = true ∧ t.out = s.out ∧ OnlyRegs
      [RIG_LOADSTAT, CHIP_RIGSTAT] s t) ∧
    (Reaches s CSET_CMD → fieldOf CSET_CMD_CONFIRM v = 0x5A17 → s.on CSET_STAT_BUSY = false → csetValueOk s (s.g
      CSET_SEL_INDEX) = true → (otpSlots s (s.g CSET_SEL_INDEX)).length < 8 → 160 ≤ s.gi THM_TJ_TJ → s.gi
      THM_TJ_TJ ≤ 1360 → Does (.csetConfirm v) s fun t => t.rig =
      { s.rig with prog := some (s.g CSET_SEL_INDEX, csetStaged s (s.g CSET_SEL_INDEX)) } ∧ t.on CSET_STAT_BUSY =
      true ∧ t.g CSET_STAT_RESULT = 0 ∧ t.out = s.out ∧ OnlyRegs [CSET_STAT] s t) ∧
    (Reaches s CSET_CMD → fieldOf CSET_CMD_CONFIRM v = 0x5A17 → s.on CSET_STAT_BUSY = false → csetValueOk s (s.g
      CSET_SEL_INDEX) = false → Does (.csetConfirm v) s fun t => t.rig = s.rig ∧ t.g CSET_STAT_RESULT = 1 ∧ t.out
      = s.out ∧ OnlyRegs [CSET_STAT] s t) ∧
    (s.dead = false → s.rig.prog = some (i, w) → Does (.csetProgramDone) s fun t => otpSlots t i = otpSlots s i ++
      [⟨w, true⟩] ∧ t.rig.prog = none ∧ t.on CSET_STAT_BUSY = false ∧ t.out = s.out)

/-- Power-on of a chip whose stay island has stopped starts it afresh: device DRAM, contexts and the sequencer
empty, its NVM record ring kept; that of a STAY_ONLY chip goes to OFF with its stay island as it was. RESET_N low
holds every island but STAY in reset and clears device DRAM, contexts and the sequencer; with a stay save under way
it forces the outputs and the reset waits for the save. High releases the reset, ending STAY_ONLY in OFF, unless a
supply holds it. A failed supply empties the ledger and leaves STAY_ONLY with the islands in reset; with a stay save
under way that waits likewise. Recovery of the supplies releases the reset while RESET_N is high. The decay of VSTAY
with the supplies down stops the stay island and any save. A full host write of CHIP_RESET with its key and GO 1, in
an engine state that allows it and with the power OFF, resets the chip, with CAUSE 1 and one more in COUNT; in
another engine state it sets RESET_REFUSED and keeps its address. (14_power_supervision.md, Power states,
14_power_supervision.md, Sag and the stay save, 21_register_index.md, Chip registers, 22_electrical_package.md,
Timing) -/
def Obligations.SuppliesAndReset : Prop :=
  ∀ (s : State) (v : BitVec 32),
    (s.pwr.lost = true → Does (.powerOn) s fun t => t.inReset = false ∧ t.pinLow = false ∧ t.pwr.lost = false ∧
      t.mem = [] ∧ t.psq = {} ∧ t.ctx = [] ∧ t.nvmRing = s.nvmRing ∧ t.epoch = s.epochNvm + 1 ∧ t.pwr.supDown =
      false) ∧
    (pwState s = Pw.stayOnly → s.pwr.lost = false → Does (.powerOn) s fun t => pwState t = Pw.off ∧ t.inReset =
      false ∧ t.pinLow = false ∧ t.pwr = { s.pwr with supDown := false } ∧ t.out = s.out ∧ OnlyRegs [PWR_STAT] s
      t) ∧
    (s.inReset = false → s.pwr.save = none → Does (.resetPin true) s fun t => t.inReset = true ∧ t.pinLow = true ∧
      t.mem = [] ∧ t.psq = {} ∧ t.ctx = [] ∧ t.pwr = s.pwr) ∧
    (s.inReset = false → s.pwr.save.isSome = true → Does (.resetPin true) s fun t => t.inReset = false ∧ t.pinLow
      = true ∧ t.mem = s.mem ∧ t.pwr = { s.pwr with pinWait := true } ∧ t.on ILK_STAT_FORCED = true) ∧
    (s.pwr.supDown = false → s.pwr.lost = false → Does (.resetPin false) s fun t => t.pinLow = false ∧ t.inReset =
      false ∧ pwState t = (if pwState s = Pw.stayOnly then Pw.off else pwState s) ∧ t.out = s.out ∧ OnlyRegs
      [PWR_STAT] s t) ∧
    (s.pwr.supDown = true ∨ s.pwr.lost = true → Does (.resetPin false) s fun t => t = { s with pinLow := false })
      ∧
    (s.pwr.supDown = false → s.pwr.lost = false → s.pwr.save = none ∨ s.inReset = true → Does (.supplyFail) s fun
      t => pwState t = Pw.stayOnly ∧ t.inReset = true ∧ t.pwr.ledger = [] ∧ t.pwr.wait = .none ∧ t.on
      PWR_STAT_ON_HELD = false ∧ t.pwr.supDown = true) ∧
    (s.pwr.supDown = false → s.pwr.lost = false → s.pwr.save.isSome = true → s.inReset = false → Does
      (.supplyFail) s fun t => t.inReset = false ∧ t.mem = s.mem ∧ t.pwr =
      { s.pwr with supDown := true, failWait := true } ∧ t.on ILK_STAT_FORCED = true) ∧
    (s.pwr.supDown = true → s.pwr.lost = false → s.pwr.failWait = false → s.pinLow = false → Does (.supplyRecover)
      s fun t => pwState t = (if pwState s = Pw.stayOnly then Pw.off else pwState s) ∧ t.inReset = false ∧ t.pwr =
      { s.pwr with supDown := false } ∧ t.out = s.out ∧ OnlyRegs [PWR_STAT] s t) ∧
    (s.pwr.supDown = true → s.pwr.lost = false → s.pinLow = true → Does (.supplyRecover) s fun t => t =
      { s with pwr := { s.pwr with supDown := false } }) ∧
    (s.pwr.supDown = true → s.pwr.lost = false → Does (.vstayDecay) s fun t => t.pwr.lost = true ∧ t.pwr.save =
      none ∧ pwState t = Pw.off ∧ t.out = s.out) ∧
    (Reaches s CHIP_RESET → fieldOf CHIP_RESET_KEY v = 0xC1EA → fieldOf CHIP_RESET_GO v = 1 → resetLegal s = true
      → pwState s = Pw.off → s.pwr.lost = false → Does (.chipReset v) s fun t => t.g CHIP_RSTCAUSE_CAUSE = 1 ∧ t.g
      CHIP_RSTCAUSE_COUNT = min 65535 (s.g CHIP_RSTCAUSE_COUNT + 1) ∧ t.epoch = s.epochNvm + 1 ∧ t.mem = [] ∧
      t.psq = {} ∧ pwState t = Pw.off) ∧
    (Reaches s CHIP_RESET → fieldOf CHIP_RESET_KEY v = 0xC1EA → fieldOf CHIP_RESET_GO v = 1 → resetLegal s = false
      → Does (.chipReset v) s fun t => t.on CHIP_ERR_RESET_REFUSED = true ∧ (s.reg CHIP_ERR = 0 → t.reg
      CHIP_ERRADDR = BitVec.ofNat 32 (2 ^ 31 + CHIP_RESET)) ∧ t.rig = s.rig ∧ t.mem = s.mem ∧ t.out = s.out ∧
      OnlyRegs [CHIP_ERR, CHIP_ERRADDR] s t)

/-- An access of an absent unit or of an unmapped offset sets ABSENT_ACCESS or UNMAPPED and, where CHIP_ERR read 0,
keeps its word offset in CHIP_ERRADDR; it changes no other register, and a read of one returns 0. A register write
with a byte enable low sets PARTIAL_WRITE so and writes nothing. A read of any register whose read has no further
rule returns the addressed bytes of its word, with 0 in WO and reserved bits, clears its RC fields, and changes no
other field and no other register. The read of a low word latches its high word as a read would show it. A
CHIP_FENCE read counts itself and returns the count. A full write of a spar host register is kept and shown to the
fabric. (00_scope.md, Notation, 02_rigging.md, Spar fabric, 03_host_rep.md, PCI Express endpoint,
16_clocks_islands.md, Islands, 21_register_index.md, BAR0 map, 21_register_index.md, Chip registers) -/
def Obligations.HostAccesses : Prop :=
  ∀ (s : State) (off : BitVec 26) (be : Fin 16) (v : BitVec 32) (n : Fin 128) (hi : Nat),
    s.dead = false →
    (s.access (off.toNat / 4 * 4) = .absent → Does (.absentUnitAccess off be true) s fun t => t.on
      CHIP_ERR_ABSENT_ACCESS = true ∧ (s.reg CHIP_ERR = 0 → t.reg CHIP_ERRADDR = BitVec.ofNat 32 (2 ^ 31 +
      off.toNat / 4 * 4)) ∧ t.out = s.out ∧ OnlyRegs [CHIP_ERR, CHIP_ERRADDR] s t) ∧
    (s.access (off.toNat / 4 * 4) = .absent → Does (.absentUnitAccess off be false) s fun t => t.on
      CHIP_ERR_ABSENT_ACCESS = true ∧ (s.reg CHIP_ERR = 0 → t.reg CHIP_ERRADDR = BitVec.ofNat 32 (2 ^ 31 +
      off.toNat / 4 * 4)) ∧ t.out = s.out ++ [.read (off.toNat / 4 * 4) 0] ∧ OnlyRegs [CHIP_ERR, CHIP_ERRADDR] s
      t) ∧
    (s.access (off.toNat / 4 * 4) = .unmapped → Does (.unmappedAccess off be true) s fun t => t.on
      CHIP_ERR_UNMAPPED = true ∧ (s.reg CHIP_ERR = 0 → t.reg CHIP_ERRADDR = BitVec.ofNat 32 (2 ^ 31 + off.toNat /
      4 * 4)) ∧ t.out = s.out ∧ OnlyRegs [CHIP_ERR, CHIP_ERRADDR] s t) ∧
    (s.access (off.toNat / 4 * 4) = .unmapped → Does (.unmappedAccess off be false) s fun t => t.on
      CHIP_ERR_UNMAPPED = true ∧ (s.reg CHIP_ERR = 0 → t.reg CHIP_ERRADDR = BitVec.ofNat 32 (2 ^ 31 + off.toNat /
      4 * 4)) ∧ t.out = s.out ++ [.read (off.toNat / 4 * 4) 0] ∧ OnlyRegs [CHIP_ERR, CHIP_ERRADDR] s t) ∧
    (Reaches s (off.toNat / 4 * 4) → be ≠ 15 → Does (.registerWrite off be v) s fun t => t.on
      CHIP_ERR_PARTIAL_WRITE = true ∧ (s.reg CHIP_ERR = 0 → t.reg CHIP_ERRADDR = BitVec.ofNat 32 (2 ^ 31 +
      off.toNat / 4 * 4)) ∧ t.out = s.out ∧ OnlyRegs [CHIP_ERR, CHIP_ERRADDR] s t) ∧
    (Reaches s (off.toNat / 4 * 4) → plainRead (off.toNat / 4 * 4) = true → Does (.readClear off be) s fun t =>
      t.out = s.out ++ [.read (off.toNat / 4 * 4) (lanes be (shownWord s (off.toNat / 4 * 4)))] ∧ (∀ b ∈ regBits
      (off.toNat / 4 * 4), bitsOf (shownWord s (off.toNat / 4 * 4)).toNat b.lo b.w = if b.acc = .wo ∨ b.acc = .rsv
      then 0 else if b.acc = .sign then bitsOf (shownWord s (off.toNat / 4 * 4)).toNat b.lo b.w else bitsOf (s.reg
      (off.toNat / 4 * 4)).toNat b.lo b.w) ∧ (∀ b ∈ regBits (off.toNat / 4 * 4), bitsOf (t.reg (off.toNat / 4 *
      4)).toNat b.lo b.w = if b.acc = .rc then 0 else bitsOf (s.reg (off.toNat / 4 * 4)).toNat b.lo b.w) ∧
      OnlyRegs [off.toNat / 4 * 4] s t) ∧
    (Reaches s (off.toNat / 4 * 4) → highOf (off.toNat / 4 * 4) = some hi → ¬(0x201000 ≤ off.toNat / 4 * 4 ∧
      off.toNat / 4 * 4 < 0x203000) → Does (.lowWordRead off be) s fun t => t.latched hi = shownWord s hi ∧ t.out
      = s.out ++ [.read (off.toNat / 4 * 4) (lanes be (shownWord s (off.toNat / 4 * 4)))] ∧ t.regs = s.regs) ∧
    (Reaches s CHIP_FENCE → Does (.fenceRead be) s fun t => t.reg CHIP_FENCE = s.reg CHIP_FENCE + 1 ∧ t.out =
      s.out ++ [.read CHIP_FENCE (lanes be (s.reg CHIP_FENCE + 1))] ∧ OnlyRegs [CHIP_FENCE] s t) ∧
    (Reaches s (SPAR_HOST n) → Does (.sparHostWrite n v) s fun t => t.reg (SPAR_HOST n) = v ∧ t.out = s.out ++
      [.spar n v] ∧ OnlyRegs [SPAR_HOST n] s t)

/-- A link reset, with a BAR2 size to come up with or none, closes the session, disables every queue pair, ends the
closing and the commands in progress but codec jobs and uploads, which run on (assumption log 39), puts the MSI-X
table back to its reset values, stops every DMA channel that is not idle with ERR 5, and leaves device DRAM where no
DMA channel moves; BAR2 then has that size, 16 GiB with none. An access beyond the window's size has no effect;
until the window is open a read shows zeros and a write has no effect. With the image applied and training ended, a
BAR2 write inside installed DRAM leaves its bytes at the DRAM address of the window; a poisoned one writes nothing,
sets POISON_RX, with BEYOND where it lies beyond installed DRAM too, and is reported through AER; a write beyond
installed DRAM writes nothing and sets BEYOND; a read of bytes with no uncorrectable burst shows them, DRAM being
awake. With Tj inside the window and the ring no further than its 32 places, every fatal record that waited is
written there, in the order they came, each in the place after the last; no other place of the ring changes, and the
reset count in NVM is no less than the one in force. A read of MBXn_HDR returns its addressed bytes and latches the
tag, the generation and the twelve words of the same result, changing no register. Where a context's SHEET_DONE is
due and its ring can take it, the entry is written with its sheet, outcome and cause, and the context is RETIRED;
where its ring cannot, nothing changes. In the next tick a RETIRED context that a commit gave its record is FREE.
(03_host_rep.md, PCI Express endpoint, 03_host_rep.md, Sessions and version negotiation, 01_architecture.md, Bring-
up from power-on to READY, 15_thermal.md, Temperature windows, 20_monitors_errors.md, Error records, 03_host_rep.md,
Result mailboxes, 03_host_rep.md, Messages, 03_host_rep.md, Queue pairs) -/
def Obligations.LinkResetWindowAndMailboxes : Prop :=
  ∀ (s : State) (a : BitVec 37) (len : Fin 4097) (d : List (BitVec 8)) (q : Fin 16) (z : Option (Fin 8)) (n : Fin 64) (o : Option (List (BitVec 8))) (be : Fin 16) (k : Fin 12) (c : Fin 256) (q2 : Nat),
    (s.dead = false → Does (.pcieReset z) s fun t => t.session = false ∧ t.pairOn q = false ∧ t.host.closing =
      none ∧ t.host.inProg = s.host.inProg.filter (fun c => c.op == 0x41 || c.op == 0x50) ∧ t.host.bar2 = bar2Size
      z ∧ t.reg (MSIX_TABLE n 3) = resetWord s.part s.rev (MSIX_TABLE n 3) ∧ ((List.range 64).all (fun k => (dmaU
      s k).step != .move) = true → t.mem = s.mem)) ∧
    (s.dead = false → (dmaU s n).step ≠ .idle → Does (.pcieReset z) s fun t => (dmaU t n).step = .idle ∧ t.on
      (DMA_CTRL_ENABLE n) = false ∧ t.g (DMA_STAT_ERR n) = 5 ∧ t.on (DMA_STAT_ABORTED n) = true) ∧
    (s.dead = false → s.host.bar2 ≤ a.toNat → Does (.bar2Access a len o true) s fun t => t = s) ∧
    (s.dead = false → a.toNat < s.host.bar2 → bar2Open s = false → Does (.bar2Access a len none false) s fun t =>
      t.out = s.out ++ [.data (List.replicate len 0) false] ∧ t.regs = s.regs ∧ t.mem = s.mem) ∧
    (s.dead = false → a.toNat < s.host.bar2 → bar2Open s = false → Does (.bar2Access a len (some d) false) s fun t
      => t = s) ∧
    (s.dead = false → a.toNat < s.host.bar2 → bar2Open s = true → bar2Addr s a.toNat + d.length ≤ s.installed →
      Does (.bar2Access a len (some d) false) s fun t => memRead t.mem (bar2Addr s a.toNat) d.length = d ∧ t.out =
      s.out) ∧
    (s.dead = false → a.toNat < s.host.bar2 → bar2Open s = true → Does (.bar2Access a len (some d) true) s fun t
      => t.on HNT_BAR2_STAT_POISON_RX = true ∧ t.on HNT_BAR2_STAT_BEYOND = (s.on HNT_BAR2_STAT_BEYOND || decide
      (s.installed < bar2Addr s a.toNat + d.length)) ∧ t.mem = s.mem ∧ t.out = s.out ++ [.aerPoison] ∧ OnlyRegs
      [HNT_BAR2_STAT] s t) ∧
    (s.dead = false → a.toNat < s.host.bar2 → bar2Open s = true → s.installed < bar2Addr s a.toNat + d.length →
      Does (.bar2Access a len (some d) false) s fun t => t.on HNT_BAR2_STAT_BEYOND = true ∧ t.mem = s.mem ∧ t.out
      = s.out ∧ OnlyRegs [HNT_BAR2_STAT] s t) ∧
    (s.dead = false → a.toNat < s.host.bar2 → bar2Open s = true → bar2Addr s a.toNat + len ≤ s.installed → s.g
      DRAM_SR_STATE = 0 → s.dram.ue = [] → s.dram.weak = [] → Does (.bar2Access a len none false) s fun t => t.out
      = s.out ++ [.data (memRead s.mem (bar2Addr s a.toNat) len) false] ∧ t.mem = s.mem ∧ t.regs = s.regs) ∧
    (s.dead = false → nvmWindow s = true → s.nvmNext < 32 → s.err.nvmWait.length ≤ 32 → Does (.nvmDeferredWrite) s
      fun t => t.err.nvmWait = [] ∧ t.nvmNext = (s.nvmNext + s.err.nvmWait.length) % 32 ∧ (∀ i : Fin 32, i.val <
      s.err.nvmWait.length → bankGet [] t.nvmRing ((s.nvmNext + i) % 32) = s.err.nvmWait.getD i []) ∧ (∀ i : Fin
      32, s.err.nvmWait.length ≤ (i.val + 32 - s.nvmNext) % 32 → bankGet [] t.nvmRing i = bankGet [] s.nvmRing i)
      ∧ t.epochNvm = max s.epoch s.epochNvm ∧ t.out = s.out) ∧
    (Reaches s (MBX_HDR n) → Does (.mbxHdrRead n be) s fun t => t.latched (MBX_TAG n) = BitVec.ofNat 32 (mbxU s
      n).tag ∧ t.latched (MBX_GEN n) = BitVec.ofNat 32 (mbxU s n).gen ∧ t.latched (MBX_DATA n k) = BitVec.ofNat 32
      ((mbxU s n).data.getD k 0) ∧ t.out = s.out ++ [.read (MBX_HDR n) (lanes be (s.reg (MBX_HDR n)))] ∧ t.regs =
      s.regs) ∧
    (s.dead = false → doneDue s c = true → doneRing s c = some q2 → Does (.sheetDoneWrite c) s fun t => ctxState t
      c = Px.retired ∧ completes q2 0xFFFF 0x80 0 (s.g (PCTX_SHEET_SHEET_ID c) + (if ctxState s c = Px.delivered
      then 0 else 1) * 2 ^ 32 + s.g (PCTX_STATE_CAUSE c) * 2 ^ 40) s t = true) ∧
    (s.dead = false → doneDue s c = true → doneRing s c = none → Does (.sheetDoneWrite c) s fun t => t = s) ∧
    (ctxState s c = Px.retired → c.val ∈ ctxKeys s → ctxState (retireTick s) c = Px.free ∧ (retireTick s).ctxU c =
      {})

/-- Full host writes of a pair's registers. A tail or head below the ring size of an enabled pair is taken; one that
is not stops the pair and sets DB_ERR. With one completion held, a head that leaves a free slot writes it. A pair is
enabled with ring sizes of 4 to 12 and starts empty, heads and tails at 0; a ring size outside that sets CFG_ERR and
enables nothing. An enabled pair is disabled, with all it holds, where none of its commands is in progress, no BYE
of it waits for other commands, and it is not pair 0 of an open session, and the SHEET_DONEs of its contexts go to
ring 0 from then on; otherwise CFG_ERR is set and nothing else changes. (03_host_rep.md, Queue pairs,
03_host_rep.md, Sessions and version negotiation, 03_host_rep.md, REP registers) -/
def Obligations.QueuePairs : Prop :=
  ∀ (s : State) (q : Fin 16) (v : BitVec 32) (p : Post),
    (Reaches s (REP_QSQT q) → s.pairOn q = true → fieldOf (REP_QSQT_TAIL q) v < s.sqSize q → Does (.sqDoorbell q
      v) s fun t => t.g (REP_QSQT_TAIL q) = fieldOf (REP_QSQT_TAIL q) v ∧ t.host = s.host ∧ t.out = s.out ∧
      OnlyRegs [REP_QSQT q] s t) ∧
    (Reaches s (REP_QSQT q) → s.pairOn q = true → s.sqSize q ≤ fieldOf (REP_QSQT_TAIL q) v → Does (.sqDoorbell q
      v) s fun t => t.on (REP_QSTAT_DB_ERR q) = true ∧ (t.qpU q).stopped = true) ∧
    (Reaches s (REP_QCQH q) → s.pairOn q = true → s.cqSize q ≤ fieldOf (REP_QCQH_HEAD q) v → Does (.cqDoorbell q
      v) s fun t => t.on (REP_QSTAT_DB_ERR q) = true ∧ (t.qpU q).stopped = true) ∧
    (Reaches s (REP_QCQH q) → s.pairOn q = true → fieldOf (REP_QCQH_HEAD q) v < s.cqSize q → (s.qpU q).held = [] →
      Does (.cqDoorbell q v) s fun t => t.g (REP_QCQH_HEAD q) = fieldOf (REP_QCQH_HEAD q) v ∧ t.out = s.out ∧
      OnlyRegs [REP_QCQH q, REP_QSTAT q] s t) ∧
    (Reaches s (REP_QCQH q) → s.pairOn q = true → fieldOf (REP_QCQH_HEAD q) v < s.cqSize q → (s.qpU q).held = [p]
      → (s.g (REP_QSTAT_CQ_TAIL q) + 1) % s.cqSize q ≠ fieldOf (REP_QCQH_HEAD q) v → Does (.cqDoorbell q v) s fun
      t => (t.qpU q).held = [] ∧ completes q p.cid p.op p.status (p.result % 2 ^ 64) s t = true) ∧
    (Reaches s (REP_QCFG q) → s.pairOn q = false → fieldOf (REP_QCFG_ENABLE q) v = 1 → 4 ≤ fieldOf
      (REP_QCFG_CQ_LOG2 q) v → fieldOf (REP_QCFG_CQ_LOG2 q) v ≤ 12 → 4 ≤ fieldOf (REP_QCFG_SQ_LOG2 q) v → fieldOf
      (REP_QCFG_SQ_LOG2 q) v ≤ 12 → Does (.qpEnable q v) s fun t => t.pairOn q = true ∧ t.qpU q = {} ∧ t.g
      (REP_QSQT_TAIL q) = 0 ∧ t.g (REP_QCQH_HEAD q) = 0 ∧ t.g (REP_QSTAT_CQ_TAIL q) = 0 ∧ t.g (REP_QSTAT_SQ_HEAD
      q) = 0 ∧ t.g (REP_QCFG_CQ_LOG2 q) = fieldOf (REP_QCFG_CQ_LOG2 q) v ∧ t.g (REP_QCFG_SQ_LOG2 q) = fieldOf
      (REP_QCFG_SQ_LOG2 q) v ∧ t.out = s.out ∧ OnlyRegs [REP_QCFG q, REP_QSQT q, REP_QCQH q, REP_QSTAT q] s t) ∧
    (Reaches s (REP_QCFG q) → s.pairOn q = false → fieldOf (REP_QCFG_ENABLE q) v = 1 → fieldOf (REP_QCFG_CQ_LOG2
      q) v < 4 ∨ 12 < fieldOf (REP_QCFG_CQ_LOG2 q) v ∨ fieldOf (REP_QCFG_SQ_LOG2 q) v < 4 ∨ 12 < fieldOf
      (REP_QCFG_SQ_LOG2 q) v → Does (.qpEnable q v) s fun t => t.pairOn q = false ∧ t.on (REP_QSTAT_CFG_ERR q) =
      true ∧ t.host = s.host ∧ t.out = s.out ∧ OnlyRegs [REP_QSTAT q] s t) ∧
    (Reaches s (REP_QCFG q) → s.pairOn q = true → fieldOf (REP_QCFG_ENABLE q) v = 0 → fieldOf (REP_QCFG_VECTOR q)
      v = s.g (REP_QCFG_VECTOR q) → fieldOf (REP_QCFG_CQ_LOG2 q) v = s.g (REP_QCFG_CQ_LOG2 q) → fieldOf
      (REP_QCFG_SQ_LOG2 q) v = s.g (REP_QCFG_SQ_LOG2 q) → 4 ≤ s.g (REP_QCFG_CQ_LOG2 q) → s.g (REP_QCFG_CQ_LOG2 q)
      ≤ 12 → 4 ≤ s.g (REP_QCFG_SQ_LOG2 q) → s.g (REP_QCFG_SQ_LOG2 q) ≤ 12 → s.host.inProg.any (fun c => c.q ==
      q.val) = false → s.host.closing.any (fun b => b.any (fun p => p.1 == q.val)) = false → q.val ≠ 0 ∨ s.session
      = false → Does (.qpDisable q v) s fun t => t.pairOn q = false ∧ t.qpU q = {} ∧ (∀ c ∈ ctxKeys s, (s.ctxU
      c).pair = q.val → (t.ctxU c).ring0 = true)) ∧
    (Reaches s (REP_QCFG q) → s.pairOn q = true → fieldOf (REP_QCFG_ENABLE q) v = 0 → s.host.inProg.any (fun c =>
      c.q == q.val) = true ∨ s.host.closing.any (fun b => b.any (fun p => p.1 == q.val)) = true ∨ q.val = 0 ∧
      s.session = true → Does (.qpDisable q v) s fun t => t.pairOn q = true ∧ t.on (REP_QSTAT_CFG_ERR q) = true ∧
      t.host = s.host ∧ t.out = s.out ∧ OnlyRegs [REP_QSTAT q] s t)

/-- In each, the command is next on its pair and may start. HELLO on pair 0 with no session open takes the highest
implemented version within its range and completes OK with it; a range without one completes VERSION and opens
nothing, with chosen version 0 beside the device's range in RESULT (assumption log 79); with a session open it
completes BAD_STATE. With nothing in progress and nothing else queued, BYE closes the session and completes OK, and
a full host write of REP_CTRL with SESSION_CLOSE closes it; contexts stay. An opcode that the session's version does
not know completes UNKNOWN_OP, and any but HELLO without a session VERSION. (03_host_rep.md, Sessions and version
negotiation, 03_host_rep.md, Messages, 03_host_rep.md, Status codes and engine states, 03_host_rep.md, Queue pairs)
-/
def Obligations.SessionsOpenAndClose : Prop :=
  ∀ (s : State) (e : Entry) (lo : BitVec 16) (hi : BitVec 16) (x : Nat) (v : BitVec 32) (op : BitVec 8),
    (turn s e.q = true → e.q = 0 → e.clean = true → e.cid ≠ 0xFFFF#16 → s.session = false → repChoose lo.toNat
      hi.toNat = some x → Does (.hello e lo hi) s fun t => t.session = true ∧ t.repVersion = x ∧ completes e.q
      e.cid.toNat 0x01 0 (helloResult x) s t = true) ∧
    (turn s e.q = true → e.q = 0 → e.clean = true → e.cid ≠ 0xFFFF#16 → s.session = false → repChoose lo.toNat
      hi.toNat = none → Does (.hello e lo hi) s fun t => t.session = false ∧ completes e.q e.cid.toNat 0x01
      Sts.version (helloResult 0) s t = true) ∧
    (turn s e.q = true → e.q = 0 → e.clean = true → e.cid ≠ 0xFFFF#16 → s.session = true → Does (.hello e lo hi) s
      fun t => t.session = true ∧ t.repVersion = s.repVersion ∧ completes e.q e.cid.toNat 0x01 Sts.badState 0 s t
      = true) ∧
    (accepted s e 0x02 noUnit anyParam = true → s.host.inProg = [] → s.host.tev = [] → (∀ k : Fin 16, (s.qpU
      k).doomed = 0 ∧ queuedIn (fetchEntry e.q s) k = 0) → Does (.bye e) s fun t => t.session = false ∧
      t.repVersion = 0 ∧ t.host.closing = none ∧ t.ctx = s.ctx ∧ completes e.q e.cid.toNat 0x02 0 0 s t = true) ∧
    (Reaches s REP_CTRL → fieldOf REP_CTRL_SESSION_CLOSE v = 1 → s.session = true → s.host.closing = none →
      s.host.heldCmds = [] → s.host.inProg = [] → s.host.tev = [] → (∀ k : Fin 16, (s.qpU k).doomed = 0 ∧ queuedIn
      (s) k = 0) → Does (.sessionClose v) s fun t => t.session = false ∧ t.repVersion = 0 ∧ t.host.closing = none
      ∧ t.ctx = s.ctx ∧ t.out = s.out ∧ OnlyRegs [REP_STAT] s t) ∧
    (turn s e.q = true → sessionTakes s = true → knownOp s op.toNat = false → op ≠ 1#8 → Does (.unknownOpcode e
      op) s fun t => completes e.q e.cid.toNat op.toNat Sts.unknownOp 0 s t = true ∧ t.ctx = s.ctx ∧ t.psq =
      s.psq) ∧
    (turn s e.q = true → s.session = false → op ≠ 1#8 → Does (.unknownOpcode e op) s fun t => completes e.q
      e.cid.toNat op.toNat Sts.version 0 s t = true ∧ t.ctx = s.ctx ∧ t.psq = s.psq)

/-- Of a command that is accepted: STATUS_QUERY puts the report of its class in the mailbox under the next SEQ and
completes with it. LOG_READ takes the bytes of its log and stays in progress. TIME_EVENT completes with the time at
once for KIND 1 or a time reached; with another time it is held and stays in progress while fewer than 16 are held,
and completes BUSY at 16. STATUS_QUERY of an absent station completes UNIT_ABSENT and leaves its mailbox. At the end
of a LOG_READ, the only one, its bytes are written to the host, snooped or not as it asked, and it completes with
their count and the size of the log. A held TIME_EVENT, the only one, completes with the time once it is reached.
(03_host_rep.md, Messages, 03_host_rep.md, Result mailboxes, 17_network_time.md, Timestamped events) -/
def Obligations.ReportsAndTimeEvents : Prop :=
  ∀ (s : State) (e : Entry) (cls : BitVec 8) (mbx : BitVec 8) (log : BitVec 8) (kind : BitVec 8) (inst : BitVec 16) (off : BitVec 32) (len : BitVec 32) (ns : BitVec 32) (dst : BitVec 64) (sec : BitVec 64) (b : Bool) (l : LogCopy) (x : TimeEv),
    (accepted s e 0x03 (fun s => cls.toNat == 3 && decide (s.part.stations ≤ inst.toNat ∧ inst.toNat < 8)) (fun _
      => queryOk cls.toNat mbx.toNat inst.toNat) = true → Does (.statusQuery e cls mbx inst) s fun t => (mbxU t
      mbx.toNat).data = (report cls.toNat inst.toNat (fetchEntry e.q s)).1 ∧ t.g (MBX_HDR_SEQ mbx.toNat) = mbxNext
      (s.g (MBX_HDR_SEQ mbx.toNat)) ∧ completes e.q e.cid.toNat 0x03 0 (mbxNext (s.g (MBX_HDR_SEQ mbx.toNat))) s t
      = true) ∧
    (turn s e.q = true → sessionTakes s = true → 0x0100 ≤ s.repVersion → cls = 3#8 → s.part.stations ≤ inst.toNat
      → inst.toNat < 8 → Does (.statusQuery e cls mbx inst) s fun t => completes e.q e.cid.toNat 0x03
      Sts.unitAbsent 0 s t = true ∧ mbxU t mbx.toNat = mbxU s mbx.toNat) ∧
    (accepted s e 0x04 noUnit (fun _ => decide (log.toNat ≤ 4)) = true → Does (.logRead e log off dst len b) s fun
      t => t.host.logs = s.host.logs ++ [⟨e.q, e.cid.toNat, dst.toNat, ((logBytes (fetchEntry e.q s)
      log.toNat).drop off.toNat).take len.toNat, (logBytes (fetchEntry e.q s) log.toNat).length, b⟩] ∧
      t.host.inProg = s.host.inProg ++ [⟨e.q, e.cid.toNat, 0x04⟩] ∧ t.out = (fetchEntry e.q s).out) ∧
    (s.dead = false → s.host.logs = [l] → l.q = e.q → l.cid = e.cid.toNat → l.bytes ≠ [] → s.pairOn e.q = true →
      s.cqFull e.q = false → (s.qpU e.q).held = [] → Does (.logReadDone e.q e.cid) s fun t => t.host.logs = [] ∧
      completes e.q e.cid.toNat 0x04 0 ((l.bytes.length + l.size * 2 ^ 32) % 2 ^ 64) s t = true ∧ Out.host l.dst
      l.bytes (!l.ns) ∈ shown s t) ∧
    (accepted s e 0x05 noUnit (fun _ => timeEventOk kind.toNat sec.toNat ns.toNat) = true → kind.toNat = 1 ∨
      timeReached s sec.toNat ns.toNat = true → Does (.timeEvent e kind sec ns) s fun t => completes e.q
      e.cid.toNat 0x05 0 (timeResult s) s t = true ∧ t.host.tev = s.host.tev) ∧
    (accepted s e 0x05 noUnit (fun _ => timeEventOk kind.toNat sec.toNat ns.toNat) = true → kind = 0#8 →
      timeReached s sec.toNat ns.toNat = false → s.host.tev.length < 16 → Does (.timeEvent e kind sec ns) s fun t
      => t.host.tev = s.host.tev ++ [⟨e.q, e.cid.toNat, sec.toNat, ns.toNat⟩] ∧ t.host.inProg = s.host.inProg ++
      [⟨e.q, e.cid.toNat, 0x05⟩] ∧ t.out = (fetchEntry e.q s).out) ∧
    (accepted s e 0x05 noUnit (fun _ => timeEventOk kind.toNat sec.toNat ns.toNat) = true → kind = 0#8 →
      timeReached s sec.toNat ns.toNat = false → 16 ≤ s.host.tev.length → Does (.timeEvent e kind sec ns) s fun t
      => completes e.q e.cid.toNat 0x05 Sts.busy 0 s t = true ∧ t.host.tev = s.host.tev) ∧
    (s.dead = false → s.host.tev = [x] → x.q = e.q → x.cid = e.cid.toNat → timeReached s x.sec x.ns = true →
      s.pairOn e.q = true → s.cqFull e.q = false → (s.qpU e.q).held = [] → Does (.timeEventDue e.q e.cid) s fun t
      => t.host.tev = [] ∧ completes e.q e.cid.toNat 0x05 0 (timeResult s) s t = true)

/-- Of a command that is accepted. An ENGINE_START below REEF3 and with no trip enters WARMUP, with the power
sequence begun from OFF or its on request held, and its last effect is to complete OK; at REEF3 or above, or with a
trip, it completes BUSY and the engine stays. An ENGINE_STOP in READY or PRINTING begins a drain, and its last
effect is to complete OK; in DRAINING or FURLED it completes OK and changes neither the sequencer nor a context. A
SPEED_SET under which every ARMED sheet still fits takes the speed, and its last effect is to complete OK; one under
which some sheet does not completes ADMISSION_RATE with the budget and the demand, and no speed is taken. A region
whose reset ends, MEM only once its channels are trained, is neither in reset nor faulted any more, and its islands
but STAY leave reset; with the last of them an engine in FAULT or HARDSTOP, without a CHIP_FATAL error, furls.
(03_host_rep.md, Command legality by engine state, 03_host_rep.md, Messages, 05_passage.md, Admission,
15_thermal.md, Reef levels) -/
def Obligations.EngineCommands : Prop :=
  ∀ (s : State) (e : Entry) (r : Fin 7) (rate : BitVec 32) (passes : BitVec 8) (b : Nat) (d : Nat),
    (accepted s e 0x10 noUnit anyParam = true → reefLevel s < 3 → s.on THM_TJ_TRIP = false → Does (.engineStart e)
      s fun t => t.engine = Eng.warmup ∧ t.psq.startBoundary = true ∧ pwState s = Pw.off → pwState t = Pw.upSeq ∨
      t.on PWR_STAT_ON_HELD = true ∧ Ends e 0x10 0 0 t) ∧
    (accepted s e 0x10 noUnit anyParam = true → 3 ≤ reefLevel s ∨ s.on THM_TJ_TRIP = true → Does (.engineStart e)
      s fun t => t.engine = s.engine ∧ t.psq = s.psq ∧ completes e.q e.cid.toNat 0x10 Sts.busy 0 s t = true) ∧
    (accepted s e 0x11 noUnit anyParam = true → s.engine = Eng.ready ∨ s.engine = Eng.printing → Does (.engineStop
      e) s fun t => t.engine = Eng.draining ∧ t.psq.web = false ∧ Ends e 0x11 0 0 t) ∧
    (accepted s e 0x11 noUnit anyParam = true → s.engine = Eng.draining ∨ s.engine = Eng.furled → Does
      (.engineStop e) s fun t => t.engine = s.engine ∧ t.psq = s.psq ∧ t.ctx = s.ctx ∧ completes e.q e.cid.toNat
      0x11 0 0 s t = true) ∧
    (s.dead = false → s.err.regionReset.contains r.val = true → r.val ≠ 3 ∨ s.g DRAM_TSTAT_STATE = 3 →
      (s.err.regionReset.filter (· != r.val)) ≠ [] → Does (.regionResetDone r) s fun t => t.err.regionReset =
      s.err.regionReset.filter (· != r.val) ∧ t.err.faulted = s.err.faulted.filter (· != r.val) ∧ ∀ i ∈ List.range
      48, islRegion i = r.val → i ≠ 1 → t.on (CLK_ISL_RESET i) = false ∧ OnlyRegs ((List.range 48).map CLK_ISL) s
      t ∧ t.out = s.out) ∧
    (s.dead = false → s.err.regionReset.contains r.val = true → r.val ≠ 3 ∨ s.g DRAM_TSTAT_STATE = 3 →
      (s.err.regionReset.filter (· != r.val)) = [] → s.engine = Eng.fault ∨ s.engine = Eng.hardstop →
      s.psq.chipFatal = false → Does (.regionResetDone r) s fun t => t.err.regionReset = [] ∧ t.err.faulted =
      s.err.faulted.filter (· != r.val) ∧ ∀ i ∈ List.range 48, islRegion i = r.val → i ≠ 1 → t.on (CLK_ISL_RESET
      i) = false ∧ t.engine = (if s.psq.drainFault then Eng.fault else Eng.furled)) ∧
    (accepted s e 0x12 noUnit (fun s => speedOk s rate.toNat passes.toNat) = true → recostFail (fetchEntry e.q s)
      rate.toNat (armedInOrder (fetchEntry e.q s)) (standing (fetchEntry e.q s)) = none → Does (.speedSet e rate
      passes) s fun t => t.g PSQ_SPEED_RATE = rate.toNat ∧ t.g PSQ_SPEED_PASSES = passCode passes.toNat ∧ Ends e
      0x12 0 (firstCarrier (fetchEntry e.q s)) t) ∧
    (accepted s e 0x12 noUnit (fun s => speedOk s rate.toNat passes.toNat) = true → recostFail (fetchEntry e.q s)
      rate.toNat (armedInOrder (fetchEntry e.q s)) (standing (fetchEntry e.q s)) = some (b, d) → Does (.speedSet e
      rate passes) s fun t => completes e.q e.cid.toNat 0x12 Sts.admissionRate ((b + d * 2 ^ 32) % 2 ^ 64) s t =
      true ∧ t.ctx = s.ctx ∧ t.g PSQ_SPEED_RATE = s.g PSQ_SPEED_RATE)

/-- Of a command that is accepted. A SHEET_COMMIT of the MODE of every context ARMED or later takes the lowest FREE
context: LOADED, or VERIFYING with an empty mask, with its id, mask, lines, repeat, pair and place in commit order,
the verify queue kept in front of its bands, and the command in progress; with no context free it completes
NO_CONTEXT, and with another MODE BAD_STATE. A SHEET_ABORT of an ARMED sheet leaves it SPOILED by HOST_ABORT, with
AT_DELIV 1 and its SHEET_DONE due; of one FEEDING, IN_PATH or IMAGING leaves it SPOILED by HOST_ABORT, to travel on
to delivery, and its last effect is to complete OK; of a JAMMED one confirms its removal: RETIRED with a SHEET_DONE
of SPOILED and its cause where that can be written, and else JAMMED with its SHEET_DONE due (assumption log 74), and
its last effect is to complete OK; of one DELIVERED before the present PSQ cycle, or SPOILED, it completes OK with
its outcome and changes no context; of a LOADED or VERIFYING one it completes BUSY; of an unknown id NO_CONTEXT.
(03_host_rep.md, Messages, 03_host_rep.md, Status codes and engine states, 05_passage.md, Context states) -/
def Obligations.SheetCommands : Prop :=
  ∀ (s : State) (e : Entry) (sid : BitVec 32) (lines : BitVec 32) (rep : BitVec 32) (mode : BitVec 8) (mask : BitVec 8) (pdt : BitVec 64) (ofs : BitVec 64) (c : Nat) (x : Nat),
    (accepted s e 0x20 (fun s => decide (2 ^ s.part.stations ≤ mask.toNat)) (fun s => commitOk s ⟨sid.toNat,
      mode.toNat, mask.toNat, pdt.toNat, lines.toNat, rep.toNat, ofs.toNat⟩) = true → anyCtx (fetchEntry e.q s)
      (fun c => armedLater (ctxState (fetchEntry e.q s) c) && (fetchEntry e.q s).g (PCTX_STATE_MODE c) !=
      mode.toNat) = false → freeContext s = some c → Does (.sheetCommit e sid mode mask pdt lines rep ofs) s fun t
      => ctxState t c = (if mask = 0#8 then Px.verifying else Px.loaded) ∧ t.g (PCTX_SHEET_SHEET_ID c) = sid.toNat
      ∧ t.g (PCTX_STATE_STN_MASK c) = mask.toNat ∧ (t.ctxU c).cid = e.cid.toNat ∧ (t.ctxU c).pair = e.q ∧ (t.ctxU
      c).lines = lines.toNat ∧ (t.ctxU c).repeat_ = rep.toNat ∧ (t.ctxU c).seq = s.psq.commits + 1 ∧ (t.ctxU
      c).open_ = true ∧ t.psq.commits = s.psq.commits + 1 ∧ t.host.inProg = s.host.inProg ++ [⟨e.q, e.cid.toNat,
      0x20⟩] ∧ t.codec.queue.take s.codec.queue.length = s.codec.queue) ∧
    (accepted s e 0x20 (fun s => decide (2 ^ s.part.stations ≤ mask.toNat)) (fun s => commitOk s ⟨sid.toNat,
      mode.toNat, mask.toNat, pdt.toNat, lines.toNat, rep.toNat, ofs.toNat⟩) = true → anyCtx (fetchEntry e.q s)
      (fun c => armedLater (ctxState (fetchEntry e.q s) c) && (fetchEntry e.q s).g (PCTX_STATE_MODE c) !=
      mode.toNat) = false → freeContext s = none → Does (.sheetCommit e sid mode mask pdt lines rep ofs) s fun t
      => completes e.q e.cid.toNat 0x20 Sts.noContext 0 s t = true ∧ t.ctx = s.ctx ∧ t.codec = s.codec) ∧
    (accepted s e 0x20 (fun s => decide (2 ^ s.part.stations ≤ mask.toNat)) (fun s => commitOk s ⟨sid.toNat,
      mode.toNat, mask.toNat, pdt.toNat, lines.toNat, rep.toNat, ofs.toNat⟩) = true → anyCtx (fetchEntry e.q s)
      (fun c => armedLater (ctxState (fetchEntry e.q s) c) && (fetchEntry e.q s).g (PCTX_STATE_MODE c) !=
      mode.toNat) = true → Does (.sheetCommit e sid mode mask pdt lines rep ofs) s fun t => completes e.q
      e.cid.toNat 0x20 Sts.badState 0 s t = true ∧ t.ctx = s.ctx ∧ t.codec = s.codec) ∧
    (accepted s e 0x21 noUnit anyParam = true → ctxOf s sid.toNat = some c → ctxState s c = Px.armed → c < 256 →
      Does (.sheetAbort e sid) s fun t => (t.ctxU c).ended = true ∧ ctxState t c = Px.spoiled ∧ t.g
      (PCTX_STATE_CAUSE c) = Cause.hostAbort ∧ t.on (PCTX_STATE_AT_DELIV c) = true ∧ t.psq.nSpoiled =
      s.psq.nSpoiled + 1) ∧
    (accepted s e 0x21 noUnit anyParam = true → ctxOf s sid.toNat = some c → ctxState s c = Px.loaded ∨ ctxState s
      c = Px.verifying → c < 256 → Does (.sheetAbort e sid) s fun t => completes e.q e.cid.toNat 0x21 Sts.busy 0 s
      t = true ∧ t.ctx = s.ctx ∧ t.psq = s.psq) ∧
    (accepted s e 0x21 noUnit anyParam = true → ctxOf s sid.toNat = some c → ctxState s c = Px.delivered ∧
      deliveredNow s c = false ∨ ctxState s c = Px.spoiled → c < 256 → Does (.sheetAbort e sid) s fun t =>
      completes e.q e.cid.toNat 0x21 0 ((abortResult s c) % 2 ^ 64) s t = true ∧ t.ctx = s.ctx ∧ t.psq = s.psq) ∧
    (accepted s e 0x21 noUnit anyParam = true → ctxOf s sid.toNat = some c → ctxState s c = Px.feeding ∨ ctxState
      s c = Px.inPath ∨ ctxState s c = Px.imaging → c < 256 → Does (.sheetAbort e sid) s fun t => ctxState t c =
      Px.spoiled ∧ t.g (PCTX_STATE_CAUSE c) = Cause.hostAbort ∧ (t.ctxU c).ended = true ∧ t.psq.nSpoiled =
      s.psq.nSpoiled + 1 ∧ Ends e 0x21 0 (c + 2 ^ 8 + Cause.hostAbort * 2 ^ 16) t) ∧
    (accepted s e 0x21 noUnit anyParam = true → ctxOf s sid.toNat = some c → ctxState s c = Px.jammed → c < 256 →
      doneRing (fetchEntry e.q s) c = some x → Does (.sheetAbort e sid) s fun t => ctxState t c = Px.retired ∧
      completes x 0xFFFF 0x80 0 (sid.toNat + 2 ^ 32 + s.g (PCTX_STATE_CAUSE c) * 2 ^ 40) s t = true ∧ Ends e 0x21
      0 (c + 2 ^ 8 + s.g (PCTX_STATE_CAUSE c) * 2 ^ 16) t) ∧
    (accepted s e 0x21 noUnit anyParam = true → ctxOf s sid.toNat = some c → ctxState s c = Px.jammed → c < 256 →
      doneRing (fetchEntry e.q s) c = none → Does (.sheetAbort e sid) s fun t => ctxState t c = Px.jammed ∧
      (t.ctxU c).cleared = true ∧ Ends e 0x21 0 (c + 2 ^ 8 + s.g (PCTX_STATE_CAUSE c) * 2 ^ 16) t) ∧
    (accepted s e 0x21 noUnit anyParam = true → ctxOf s sid.toNat = none → Does (.sheetAbort e sid) s fun t =>
      completes e.q e.cid.toNat 0x21 Sts.noContext 0 s t = true ∧ t.ctx = s.ctx ∧ t.psq = s.psq)

/-- Of a command that is accepted. A STATION_CFG that is not BUSY, with fewer than 16 generations held, makes its
generation the newest, with the next number that no held one bears, and completes OK; with 16 held it completes
BUSY. An EMITTER_SET without a boost that meets the station's windows, with fewer than 16 held, makes the newest one
with that emitter set so and the next number, and completes OK with what is left of its boost budget, in whole
seconds rounded down (by the model's choice, log 81); one that does not meet them completes PARAM. REGISTER_ADJUST
with MODE 0 sets the three offsets, with MODE 1 adds to them, discards the frames accumulated for the station and a
step of registration made in the same cycle, and its last effect is to complete OK. CODEC_JOB puts its job, an
inflation at the end of the verify queue, and a compression, legal in the engine state, at the end of the
compressor's queue where that is not full, each in progress; a recovery compression in an engine state without it
completes BAD_STATE. (03_host_rep.md, Messages, 03_host_rep.md, Status codes and engine states, 04_raster_codec.md,
The compressor, 06_station_pipeline.md, Station configuration, 07_emitters_scan.md, Emitter states) -/
def Obligations.StationCommands : Prop :=
  ∀ (s : State) (e : Entry) (n : BitVec 8) (en : BitVec 8) (em : BitVec 8) (st : BitVec 8) (hand : BitVec 8) (mode : BitVec 8) (phase : BitVec 8) (op : BitVec 8) (fl : BitVec 8) (addr : BitVec 64) (src : BitVec 64) (dst : BitVec 64) (boost : BitVec 32) (line : BitVec 32) (pixel : BitVec 32) (mag : BitVec 32) (sl : BitVec 32) (dl : BitVec 32) (g : Gen) (j : Job) (data : List (BitVec 8)),
    (accepted s e 0x30 (stnAbsent n.toNat) (fun s => (stationGen s n.toNat en.toNat addr.toNat).isSome) = true →
      stationGen (fetchEntry e.q s) n.toNat en.toNat addr.toNat = some g → cfgBusy (fetchEntry e.q s) n.toNat
      en.toNat g = false → (s.stnU n.toNat).held.length < 16 → Does (.stationCfg e n en addr) s fun t => (t.stnU
      n.toNat).newest =
      { g with
          num := nextNum (s.stnU n.toNat).held (s.stnU n.toNat).newest.num,
          id := (s.stnU n.toNat).newest.id + 1 } ∧ t.ctx = s.ctx ∧ completes e.q e.cid.toNat 0x30 0 (firstCarrier
      (fetchEntry e.q s)) s t = true) ∧
    (accepted s e 0x30 (stnAbsent n.toNat) (fun s => (stationGen s n.toNat en.toNat addr.toNat).isSome) = true →
      stationGen (fetchEntry e.q s) n.toNat en.toNat addr.toNat = some g → 16 ≤ (s.stnU n.toNat).held.length →
      Does (.stationCfg e n en addr) s fun t => (t.stnU n.toNat).newest = (s.stnU n.toNat).newest ∧ t.ctx = s.ctx
      ∧ completes e.q e.cid.toNat 0x30 Sts.busy 0 s t = true) ∧
    (accepted s e 0x31 (stnAbsent n.toNat) (fun s => emitterOk s n.toNat em.toNat st.toNat hand.toNat boost.toNat)
      = true → emitterRules (fetchEntry e.q s) n.toNat em.toNat st.toNat hand.toNat boost.toNat = true → (s.stnU
      n.toNat).held.length < 16 → boost = 0#32 → Does (.emitterSet e n em st hand boost) s fun t => (t.stnU
      n.toNat).newest.emit.getD em.toNat {} = ⟨st.toNat, hand.toNat, boost.toNat⟩ ∧ (t.stnU n.toNat).newest =
      { emitterGen (s.stnU n.toNat).newest em.toNat st.toNat hand.toNat boost.toNat with
          num := nextNum (s.stnU n.toNat).held (s.stnU n.toNat).newest.num,
          id := (s.stnU n.toNat).newest.id + 1 } ∧ completes e.q e.cid.toNat 0x31 0 (firstCarrier (fetchEntry e.q
      s) + ((s.stnU n.toNat).newest.wear * 1000000000 - wearNs (s.stnU n.toNat) em.toNat) / 1000000000 * 2 ^ 32) s
      t = true) ∧
    (accepted s e 0x31 (stnAbsent n.toNat) (fun s => emitterOk s n.toNat em.toNat st.toNat hand.toNat boost.toNat)
      = true → emitterRules (fetchEntry e.q s) n.toNat em.toNat st.toNat hand.toNat boost.toNat = false → Does
      (.emitterSet e n em st hand boost) s fun t => (t.stnU n.toNat).newest = (s.stnU n.toNat).newest ∧ completes
      e.q e.cid.toNat 0x31 Sts.param 0 s t = true) ∧
    (accepted s e 0x32 (stnAbsent n.toNat) (fun s => adjustOk s n.toNat mode.toNat line.toInt pixel.toInt
      phase.toInt mag.toInt) = true → Does (.registerAdjust e n mode line pixel phase mag) s fun t => ((t.stnU
      n.toNat).lineAdj, (t.stnU n.toNat).p64Adj, (t.stnU n.toNat).magAdj) = adjusted ((unstep n.toNat s).stnU
      n.toNat) mode.toNat line.toInt (64 * pixel.toInt + phase.toInt) mag.toInt ∧ bankGet [] t.vis.acc n.toNat =
      [] ∧ Ends e 0x32 0 (firstCarrier (fetchEntry e.q s)) t) ∧
    (accepted s e 0x50 (fun s => decide (op.toNat ≤ 1) && decide (s.part = .mlv9040)) (fun s => jobOk s j) = true
      → j =
      { q := e.q, cid := e.cid.toNat, op := 0x50, mode := op.toNat, flags := fl.toNat, src := src.toNat,
        srcLen := sl.toNat, dst := dst.toNat, dstLen := dl.toNat,
        data := if bitsOf fl.toNat 0 1 = 1 then some (hostBytes data sl.toNat) else none } → op = 2#8 → Does
      (.codecJob e op fl src sl dl dst data) s fun t => t.host.inProg = s.host.inProg ++ [⟨e.q, e.cid.toNat,
      0x50⟩] ∧ t.codec.queue = s.codec.queue ++ [.job j] ∧ t.codec.cmpWait = s.codec.cmpWait ∧ t.out = (fetchEntry
      e.q s).out) ∧
    (accepted s e 0x50 (fun s => decide (op.toNat ≤ 1) && decide (s.part = .mlv9040)) (fun s => jobOk s j) = true
      → j =
      { q := e.q, cid := e.cid.toNat, op := 0x50, mode := op.toNat, flags := fl.toNat, src := src.toNat,
        srcLen := sl.toNat, dst := dst.toNat, dstLen := dl.toNat,
        data := if bitsOf fl.toNat 0 1 = 1 then some (hostBytes data sl.toNat) else none } → op = 0#8 ∨ op = 1#8 ∧
      [Eng.standby, Eng.warmup, Eng.hardstop, Eng.furled, Eng.fault].contains s.engine = true → cmpFull s = false
      → Does (.codecJob e op fl src sl dl dst data) s fun t => t.host.inProg = s.host.inProg ++ [⟨e.q,
      e.cid.toNat, 0x50⟩] ∧ t.codec.cmpWait = (cmpStart s).codec.cmpWait ++ [j] ∧ t.codec.queue = s.codec.queue ∧
      t.out = (fetchEntry e.q s).out) ∧
    (accepted s e 0x50 (fun s => decide (op.toNat ≤ 1) && decide (s.part = .mlv9040)) (fun s => jobOk s j) = true
      → j =
      { q := e.q, cid := e.cid.toNat, op := 0x50, mode := op.toNat, flags := fl.toNat, src := src.toNat,
        srcLen := sl.toNat, dst := dst.toNat, dstLen := dl.toNat,
        data := if bitsOf fl.toNat 0 1 = 1 then some (hostBytes data sl.toNat) else none } → op = 1#8 →
      [Eng.standby, Eng.warmup, Eng.hardstop, Eng.furled, Eng.fault].contains s.engine = false → Does (.codecJob e
      op fl src sl dl dst data) s fun t => completes e.q e.cid.toNat 0x50 Sts.badState 0 s t = true ∧ t.codec =
      s.codec)

/-- On a port that carries REP-lite. HELLO with a common version and fewer than 8 sessions opens one more at the
lowest free number and answers OK. In an open session, found by its number and port: BYE is answered OK and ends the
session; STATUS_QUERY of CLASS 1 is answered with the engine report, TIME_EVENT of KIND 1, where the version has it,
with the time, and any opcode outside the subset with UNKNOWN_OP; each answer bears the next SEQ and acknowledges
the highest SEQ received in order, goes to the addresses of the session from those of the port, at once or behind
the frame that the port sends, and changes no register but the sessions counted. Every datagram of a session
acknowledges the notifications up to its ACK. A notification unacknowledged, on a port whose link is up, is sent
again while it has been sent at most 8 times, and then its session is lost. A full host write of REPL_CTRL on a part
with two ports keeps the sessions on the ports whose EN bit it sets, and ends the others. (03_host_rep.md, REP-lite
over Ethernet) -/
def Obligations.LinePartners : Prop :=
  ∀ (s : State) (m : ReplMsg) (r : Repl) (lo : BitVec 16) (hi : BitVec 16) (cls : BitVec 8) (kind : BitVec 8) (op : BitVec 8) (x : Nat) (num : BitVec 16) (seq : BitVec 32) (w : Notif) (v : BitVec 32),
    (s.dead = false → replPort s m = true → m.clean = true → m.cid ≠ 0xFFFF#16 → s.host.repl.length < 8 →
      repChoose lo.toNat hi.toNat = some x → Does (.replHello m lo hi) s fun t => t.host.repl.length =
      s.host.repl.length + 1 ∧ t.g REPL_CTRL_SESSIONS = s.host.repl.length + 1 ∧ t.host.repl.getLast?.map
      (·.version) = some x ∧ t.host.repl.getLast?.map (·.num) = some (replNum s) ∧ (ethU s m.port).tx.isSome =
      false → t.out = s.out ++ [.repl m.port (replHead s m.port m.mac.toNat m.ip6 m.ip.toNat) (replBytes 1
      (replNum s) 1 m.seq.toNat (cqeBytes ⟨m.cid.toNat, 0, 0x01, 0, s.engine, 0, helloResult x⟩))] ∧ (ethU s
      m.port).tx.isSome = true → (ethU t m.port).wait = (ethU s m.port).wait ++ [((replHead s m.port m.mac.toNat
      m.ip6 m.ip.toNat), (replBytes 1 (replNum s) 1 m.seq.toNat (cqeBytes ⟨m.cid.toNat, 0, 0x01, 0, s.engine, 0,
      helloResult x⟩)))] ∧ OnlyRegs [REPL_CTRL] s t) ∧
    (s.dead = false → replPort s m = true → m.clean = true → m.cid ≠ 0xFFFF#16 → 0x0100 ≤ r.version → replOf s m =
      some r → s.host.repl.find? (fun x => x.num == r.num) = some r → Does (.replBye m) s fun t => t.host.repl.all
      (fun x => x.num != r.num) = true ∧ (ethU s r.port).tx.isSome = false → t.out = s.out ++ [.repl r.port
      (replHead s r.port r.mac r.ip6 r.ip) (replBytes 1 r.num (r.seq + 1) (if m.seq.toNat = r.rx + 1 then
      m.seq.toNat else r.rx) (cqeBytes ⟨m.cid.toNat, 0, 0x02, 0, s.engine, 0, 0⟩ ++ []))] ∧ (ethU s
      r.port).tx.isSome = true → (ethU t r.port).wait = (ethU s r.port).wait ++ [((replHead s r.port r.mac r.ip6
      r.ip), (replBytes 1 r.num (r.seq + 1) (if m.seq.toNat = r.rx + 1 then m.seq.toNat else r.rx) (cqeBytes
      ⟨m.cid.toNat, 0, 0x02, 0, s.engine, 0, 0⟩ ++ [])))] ∧ OnlyRegs [REPL_CTRL] s t) ∧
    (s.dead = false → replPort s m = true → m.clean = true → m.cid ≠ 0xFFFF#16 → 0x0100 ≤ r.version → cls = 1#8 →
      replOf s m = some r → s.host.repl.find? (fun x => x.num == r.num) = some r → Does (.replStatusQuery m cls) s
      fun t => (ethU s r.port).tx.isSome = false → t.out = s.out ++ [.repl r.port (replHead s r.port r.mac r.ip6
      r.ip) (replBytes 1 r.num (r.seq + 1) (if m.seq.toNat = r.rx + 1 then m.seq.toNat else r.rx) (cqeBytes
      ⟨m.cid.toNat, 0, 0x03, 0, s.engine, 0, 0⟩ ++ ((engineReport s).map (leBytes 4)).foldr (· ++ ·) []))] ∧ (ethU
      s r.port).tx.isSome = true → (ethU t r.port).wait = (ethU s r.port).wait ++ [((replHead s r.port r.mac r.ip6
      r.ip), (replBytes 1 r.num (r.seq + 1) (if m.seq.toNat = r.rx + 1 then m.seq.toNat else r.rx) (cqeBytes
      ⟨m.cid.toNat, 0, 0x03, 0, s.engine, 0, 0⟩ ++ ((engineReport s).map (leBytes 4)).foldr (· ++ ·) [])))] ∧
      t.regs = s.regs) ∧
    (s.dead = false → replPort s m = true → m.clean = true → m.cid ≠ 0xFFFF#16 → 0x0200 ≤ r.version → kind = 1#8 →
      replOf s m = some r → s.host.repl.find? (fun x => x.num == r.num) = some r → Does (.replTimeEvent m kind) s
      fun t => (ethU s r.port).tx.isSome = false → t.out = s.out ++ [.repl r.port (replHead s r.port r.mac r.ip6
      r.ip) (replBytes 1 r.num (r.seq + 1) (if m.seq.toNat = r.rx + 1 then m.seq.toNat else r.rx) (cqeBytes
      ⟨m.cid.toNat, 0, 0x05, 0, s.engine, 0, timeResult s⟩ ++ []))] ∧ (ethU s r.port).tx.isSome = true → (ethU t
      r.port).wait = (ethU s r.port).wait ++ [((replHead s r.port r.mac r.ip6 r.ip), (replBytes 1 r.num (r.seq +
      1) (if m.seq.toNat = r.rx + 1 then m.seq.toNat else r.rx) (cqeBytes ⟨m.cid.toNat, 0, 0x05, 0, s.engine, 0,
      timeResult s⟩ ++ [])))] ∧ t.regs = s.regs) ∧
    (s.dead = false → replPort s m = true → [0x01, 0x02, 0x03, 0x05].contains op.toNat = false → replOf s m = some
      r → s.host.repl.find? (fun x => x.num == r.num) = some r → Does (.replUnknownOp m op) s fun t => (ethU s
      r.port).tx.isSome = false → t.out = s.out ++ [.repl r.port (replHead s r.port r.mac r.ip6 r.ip) (replBytes 1
      r.num (r.seq + 1) (if m.seq.toNat = r.rx + 1 then m.seq.toNat else r.rx) (cqeBytes ⟨m.cid.toNat, 0,
      op.toNat, Sts.unknownOp, s.engine, 0, 0⟩ ++ []))] ∧ (ethU s r.port).tx.isSome = true → (ethU t r.port).wait
      = (ethU s r.port).wait ++ [((replHead s r.port r.mac r.ip6 r.ip), (replBytes 1 r.num (r.seq + 1) (if
      m.seq.toNat = r.rx + 1 then m.seq.toNat else r.rx) (cqeBytes ⟨m.cid.toNat, 0, op.toNat, Sts.unknownOp,
      s.engine, 0, 0⟩ ++ [])))] ∧ t.regs = s.regs) ∧
    (s.dead = false → replPort s m = true → replOf s m = some r → s.host.repl.find? (fun x => x.num == r.num) =
      some r → Does (.replAck m) s fun t => (t.host.repl.find? (fun x => x.num == r.num)).map (·.waiting) = some
      (r.waiting.filter fun w => decide (m.ack.toNat < w.seq)) ∧ t.regs = s.regs ∧ t.out = s.out) ∧
    (s.dead = false → s.host.repl.find? (fun r => r.num == num.toNat) = some r → r.waiting.find? (fun w => w.seq
      == seq.toNat) = some w → w.sent ≤ 8 → portUp s r.port = true → Does (.replNotifyRetry num seq) s fun t =>
      (ethU s r.port).tx.isSome = false → t.out = s.out ++ [.repl r.port (replHead s r.port r.mac r.ip6 r.ip)
      (replBytes 2 num.toNat seq.toNat r.rx w.entry)] ∧ (ethU s r.port).tx.isSome = true → (ethU t r.port).wait =
      (ethU s r.port).wait ++ [((replHead s r.port r.mac r.ip6 r.ip), (replBytes 2 num.toNat seq.toNat r.rx
      w.entry))] ∧ t.regs = s.regs) ∧
    (s.dead = false → s.host.repl.find? (fun r => r.num == num.toNat) = some r → r.waiting.find? (fun w => w.seq
      == seq.toNat) = some w → 8 < w.sent → Does (.replNotifyRetry num seq) s fun t => t.host.repl.map (·.num) =
      (s.host.repl.map (·.num)).filter (· != num.toNat)) ∧
    (Reaches s REPL_CTRL → s.part.eth = 2 → Does (.replPortDisable v) s fun t => t.host.repl = s.host.repl.filter
      (fun r => if r.port = 0 then fieldOf REPL_CTRL_EN_ETH0 v == 1 else fieldOf REPL_CTRL_EN_ETH1 v == 1) ∧ t.g
      REPL_CTRL_SESSIONS = t.host.repl.length % 16 ∧ t.out = s.out ∧ OnlyRegs [REPL_CTRL] s t)

/-- A free verify decoder takes the item at the head of the queue and is BUSY. A band that decodes without error, of
a sheet without a failed band, frees the decoder, is counted, and leaves its sheet one band fewer to verify. A sheet
wholly verified, with no earlier sheet still LOADED or VERIFYING, whose demands fit the budgets is ARMED, keeps its
demand, and completes its SHEET_COMMIT OK with the context; one whose demands do not fit is freed, and its
SHEET_COMMIT completes ADMISSION_RATE with the budget and the demand. An inflate job frees its decoder and is no
longer in progress, with a completion in its ring where that has space and DRAM holds no bad burst for it: OK with
the length of its output where its source decodes. With no compression running and REEF1 not in force the next
waiting one starts; under REEF1 the running one is PAUSED; one not paused ends, leaves the compressor free, is no
longer in progress, shows its status in CMP_STAT.LAST and, a CODEC_JOB, completes with that status.
(04_raster_codec.md, The verify pass, 05_passage.md, Context states, 05_passage.md, Admission, 04_raster_codec.md,
The compressor, 03_host_rep.md, Messages, 15_thermal.md, Reef levels) -/
def Obligations.VerifyPassAndCodecJobs : Prop :=
  ∀ (s : State) (n : Fin 8) (i : VItem) (r : List VItem) (b : BandId) (x : List (BitVec 8)) (c : Fin 256) (bud : Nat) (dem : Nat) (j : Job) (r2 : List Job),
    s.dead = false →
    (bankGet none s.codec.vdec n = none → s.codec.queue = i :: r → Does (.verifyBandStart n) s fun t =>
      t.codec.queue = r ∧ bankGet none t.codec.vdec n = some i ∧ t.on (VDEC_STAT_BUSY n) = true ∧ t.out = s.out) ∧
    (bankGet none s.codec.vdec n = some (.band b) → (decodeBand b s).1.toOption = some x → (s.ctxU b.ctx).failed =
      none → (decodeBand b s).2 = s → Does (.verifyBandDone n) s fun t => bankGet none t.codec.vdec n = none ∧
      t.on (VDEC_STAT_BUSY n) = false ∧ t.g CODEC_VOK_COUNT = min 0xFFFFFFFF (s.g CODEC_VOK_COUNT + 1) ∧ (t.ctxU
      b.ctx).unverified = (s.ctxU b.ctx).unverified - 1 ∧ (t.ctxU b.ctx).inDec = (s.ctxU b.ctx).inDec - 1 ∧
      t.codec.queue = s.codec.queue) ∧
    (ctxState s c = Px.verifying → (s.ctxU c).unverified = 0 → (s.ctxU c).failed = none → (anyCtx s fun x =>
      decide ((s.ctxU x).seq < (s.ctxU c).seq) && (ctxState s x == Px.loaded || ctxState s x == Px.verifying)) =
      false → admitFail s (stnDemands s c (s.g PSQ_SPEED_RATE)) (demandOf s (s.ctxU c) (s.g PSQ_SPEED_RATE)) (s.g
      PSQ_DEMAND_MBS) = none → Does (.sheetAdmission c) s fun t => (t.ctxU c).demand = demandOf s (s.ctxU c) (s.g
      PSQ_SPEED_RATE) ∧ (t.ctxU c).open_ = false ∧ ctxState t c = Px.armed ∧ (s.ctxU c).open_ = true → s.pairOn
      (s.ctxU c).pair = true → s.cqFull (s.ctxU c).pair = false → (s.qpU (s.ctxU c).pair).held = [] → completes
      (s.ctxU c).pair (s.ctxU c).cid 0x20 Sts.ok c s t = true) ∧
    (ctxState s c = Px.verifying → (s.ctxU c).unverified = 0 → (s.ctxU c).failed = none → (anyCtx s fun x =>
      decide ((s.ctxU x).seq < (s.ctxU c).seq) && (ctxState s x == Px.loaded || ctxState s x == Px.verifying)) =
      false → (admitFail s (stnDemands s c (s.g PSQ_SPEED_RATE)) (demandOf s (s.ctxU c) (s.g PSQ_SPEED_RATE)) (s.g
      PSQ_DEMAND_MBS)) = some (bud, dem) → Does (.sheetAdmission c) s fun t => t.ctxU c = {} ∧ ctxState t c =
      Px.free ∧ (s.ctxU c).open_ = true → s.pairOn (s.ctxU c).pair = true → s.cqFull (s.ctxU c).pair = false →
      (s.qpU (s.ctxU c).pair).held = [] → completes (s.ctxU c).pair (s.ctxU c).cid 0x20 Sts.admissionRate (bud +
      dem * 2 ^ 32) s t = true) ∧
    (bankGet none s.codec.vdec n = some (.job j) → Does (.inflateJobDone n) s fun t => bankGet none t.codec.vdec n
      = none ∧ t.on (VDEC_STAT_BUSY n) = false ∧ t.host.inProg = s.host.inProg.erase ⟨j.q, j.cid, 0x50⟩ ∧
      t.codec.queue = s.codec.queue) ∧
    (bankGet none s.codec.vdec n = some (.job j) → Inflate.job (jobSource j (jobRead j s)).1 j.srcLen j.dstLen =
      .ok x → x.length < 2 ^ 64 → j.data.isSome = true ∨ s.dram.ue = [] ∧ s.dram.weak = [] → s.pairOn j.q = true →
      s.cqFull j.q = false → (s.qpU j.q).held = [] → Does (.inflateJobDone n) s fun t => completes j.q j.cid 0x50
      Sts.ok x.length s t = true) ∧
    (s.codec.cmpRun = none → s.codec.cmpWait = j :: r2 → reef1 s = false → Does (.cmpJobStart) s fun t =>
      t.codec.cmpRun = some j ∧ t.codec.cmpWait = r2 ∧ t.on CMP_STAT_BUSY = true ∧ t.g CMP_STAT_MODE = j.mode % 4
      ∧ t.out = s.out ∧ OnlyRegs [CMP_STAT] s t) ∧
    (reef1 s = true → s.codec.cmpRun.isSome = true → Does (.cmpPause) s fun t => t.on CMP_STAT_PAUSED = true ∧
      t.codec = s.codec ∧ t.out = s.out ∧ OnlyRegs [CMP_STAT] s t) ∧
    (s.codec.cmpRun = some j → s.on CMP_STAT_PAUSED = false → j.op = 0x41 ∨ j.op = 0x50 → Does (.cmpJobDone) s fun
      t => t.codec.cmpRun = none ∧ t.codec.cmpWait = s.codec.cmpWait ∧ t.on CMP_STAT_BUSY = false ∧ t.g
      CMP_STAT_LAST = (cmpResult j (cmpSource j (jobRead j s)).1).1 ∧ t.host.inProg = s.host.inProg.erase ⟨j.q,
      j.cid, j.op⟩) ∧
    (s.codec.cmpRun = some j → s.on CMP_STAT_PAUSED = false → j.op = 0x50 → j.data.isSome = true ∨ s.dram.ue = []
      ∧ s.dram.weak = [] → s.pairOn j.q = true → s.cqFull j.q = false → (s.qpU j.q).held = [] → Does (.cmpJobDone)
      s fun t => completesAs j.q j.cid 0x50 (cmpResult j (cmpSource j (jobRead j s)).1).1 s t = true)

/-- A CAMERA_CFG that is accepted makes the stream's newest generation of the block and tables it names, numbered
after the last, and its last effect is to complete OK with that number; one that binds the stream anew makes it the
governing one with nothing pending and no frame in reception; one that would bind a stream with a frame queued or in
the pipeline anew completes BUSY and changes no stream. The end of the CCI writes of a controller takes their job
out, its generation sent whole; the governing one stays. On a port that receives, for the one stream of a virtual
channel: a Frame Start counts a frame and shows its number; from it on the one pending generation governs where its
last write was made and the frame is at least its written frame + 1 + L; one of a later frame goes on waiting; one
whose last write is not made counts as written for this frame, with CCI_LATE set; the governing one stays; the Frame
End of a generation's written frame starts its CCI writes, in list order; a line packet of the stream's type joins
the frame in reception; a Frame End ends the reception and leaves the governing generation. A header that cannot be
corrected is counted. (09_vision_registration.md, Ports and streams, 09_vision_registration.md, Settings,
generations and frame tags, 03_host_rep.md, Messages) -/
def Obligations.CameraStreams : Prop :=
  ∀ (s : State) (e : Entry) (k : BitVec 8) (mbx : BitVec 8) (addr : BitVec 64) (bus : Fin 4) (p : Fin 4) (vc : Fin 16) (st : Fin 16) (j : CciJob) (pg : PendGen) (f : Frame) (dt : BitVec 6) (ok : Bool) (pix : List (BitVec 20)),
    (accepted s e 0x40 (cameraAbsent addr.toNat) (fun s => cameraOk s k.toNat mbx.toNat addr.toNat) = true →
      rebinds (newestGen (strU s k.toNat)) (blockGen (memTaken (fetchEntry e.q s)) (settingsAt (fetchEntry e.q s)
      addr.toNat) (genNext (newestGen (strU s k.toNat)).num) e.q mbx.toNat) = false ∨ streamBusy s k.toNat = false
      → Does (.cameraCfg e k mbx addr) s fun t => newestGen (strU t k.toNat) = (if rebinds (newestGen (strU s
      k.toNat)) (blockGen (memTaken (fetchEntry e.q s)) (settingsAt (fetchEntry e.q s) addr.toNat) (genNext
      (newestGen (strU s k.toNat)).num) e.q mbx.toNat) then blockGen (memTaken (fetchEntry e.q s)) (settingsAt
      (fetchEntry e.q s) addr.toNat) (genNext (newestGen (strU s k.toNat)).num) e.q mbx.toNat else
      { blockGen (memTaken (fetchEntry e.q s)) (settingsAt (fetchEntry e.q s) addr.toNat) (genNext (newestGen (strU s k.toNat)).num) e.q mbx.toNat with
          pair := (newestGen (strU s k.toNat)).pair }) ∧ Ends e 0x40 0 (genNext (newestGen (strU s k.toNat)).num)
      t) ∧
    (accepted s e 0x40 (cameraAbsent addr.toNat) (fun s => cameraOk s k.toNat mbx.toNat addr.toNat) = true →
      streamBusy s k.toNat = false → rebinds (newestGen (strU s k.toNat)) (blockGen (memTaken (fetchEntry e.q s))
      (settingsAt (fetchEntry e.q s) addr.toNat) (genNext (newestGen (strU s k.toNat)).num) e.q mbx.toNat) = true
      → Does (.cameraCfg e k mbx addr) s fun t => (strU t k.toNat).cur = blockGen (memTaken (fetchEntry e.q s))
      (settingsAt (fetchEntry e.q s) addr.toNat) (genNext (newestGen (strU s k.toNat)).num) e.q mbx.toNat ∧ (strU
      t k.toNat).pend = [] ∧ (strU t k.toNat).rx = none) ∧
    (accepted s e 0x40 (cameraAbsent addr.toNat) (fun s => cameraOk s k.toNat mbx.toNat addr.toNat) = true →
      streamBusy s k.toNat = true → rebinds (newestGen (strU s k.toNat)) (blockGen (memTaken (fetchEntry e.q s))
      (settingsAt (fetchEntry e.q s) addr.toNat) (genNext (newestGen (strU s k.toNat)).num) e.q mbx.toNat) = true
      → Does (.cameraCfg e k mbx addr) s fun t => t.vis = s.vis ∧ Ends e 0x40 Sts.busy 0 t) ∧
    (s.dead = false → s.vis.cci.find? (fun j => j.gen.bus == bus.val && j.started) = some j → Does (.cciWritesDone
      bus) s fun t => t.vis.cci.length < s.vis.cci.length ∧ (strU t j.stream).pend.map (·.gen) = (strU s
      j.stream).pend.map (·.gen) ∧ ∀ p ∈ (strU t j.stream).pend, p.gen.num = j.gen.num → p.sent = true ∧ (strU t
      j.stream).cur = (strU s j.stream).cur) ∧
    (s.dead = false → portOn s p = true → streamsOn s p vc = [st.val] → Does (.frameStart p vc) s fun t => (strU t
      st).count = (strU s st).count + 1 ∧ t.g (VIS_CAM_STAT_SEQ st) = seqOf ((strU s st).count + 1)) ∧
    (s.dead = false → portOn s p = true → streamsOn s p vc = [st.val] → (strU s st).rx = none → (strU s st).pend =
      [pg] → pg.sent = true → pg.written + 1 + pg.gen.latency ≤ (strU s st).count + 1 → Does (.frameStart p vc) s
      fun t => (strU t st).cur = pg.gen ∧ (strU t st).pend = [] ∧ t.g (VIS_CAM_GEN_GEN st) = pg.gen.num % 2 ^ 32 ∧
      t.g (VIS_CAM_EFF_SEQ st) = 0) ∧
    (s.dead = false → portOn s p = true → streamsOn s p vc = [st.val] → (strU s st).rx = none → (strU s st).pend =
      [pg] → (strU s st).count + 1 < pg.written + 1 + pg.gen.latency → pg.sent = true ∨ (strU s st).count <
      pg.written → Does (.frameStart p vc) s fun t => (strU t st).cur = (strU s st).cur ∧ (strU t st).pend = [pg])
      ∧
    (s.dead = false → portOn s p = true → streamsOn s p vc = [st.val] → (strU s st).rx = none → (strU s st).pend =
      [pg] → pg.sent = false → pg.written ≤ (strU s st).count → Does (.frameStart p vc) s fun t => (strU t st).cur
      = (strU s st).cur ∧ (strU t st).pend = [{ pg with written := (strU s st).count + 1 }] ∧ t.on
      (VIS_CAM_STAT_CCI_LATE st) = true) ∧
    (s.dead = false → portOn s p = true → streamsOn s p vc = [st.val] → (newestGen (strU s st)).dt = dt.toNat →
      streamDt dt.toNat = true → (strU s st).rx = some f → Does (.csiPacket p vc dt 0 ok pix) s fun t => (strU t
      st).rx = some (lineIn ok (pix.map (·.toNat)) f)) ∧
    (s.dead = false → portOn s p = true → Does (.csiPacket p vc dt 2 ok pix) s fun t => t.g
      (VIS_CSI_ERR_ECC_UNCORR p) = min (2 ^ (VIS_CSI_ERR_ECC_UNCORR p).w - 1) (s.g (VIS_CSI_ERR_ECC_UNCORR p) + 1)
      ∧ t.out = s.out ∧ OnlyRegs [VIS_CSI_ERR p] s t) ∧
    (s.dead = false → portOn s p = true → streamsOn s p vc = [st.val] → (strU s st).rx = some f → (strU s st).pend
      = [pg] → pg.written ≤ (strU s st).count → s.vis.cci = [j] → j.stream = st.val → j.gen = pg.gen → j.gen.cci ≠
      [] → j.started = false → j.gen.bus < 4 → Does (.frameEnd p vc) s fun t => t.vis.cci =
      [{ j with ready := true, started := true }] ∧ ∀ w ∈ j.gen.cci, (.cci j.gen.bus j.gen.dev w.1 (cciBytes w.2.1
      w.2.2)) ∈ shown s t) ∧
    (s.dead = false → portOn s p = true → streamsOn s p vc = [st.val] → (strU s st).rx = some f → Does (.frameEnd
      p vc) s fun t => (strU t st).rx = none ∧ (strU t st).count = (strU s st).count ∧ (strU t st).cur = (strU s
      st).cur)

/-- A FRAME_UPLOAD that is accepted is BUSY where it asks for a compression the compressor has no place for;
otherwise one with tag 0 waits for the stream's next frame, in progress, and one without compression that names a
held frame is under way, in progress. An upload under way that fits ends with its job gone, and completes OK with
its length and tag. The front crossing a camera position marks the context, pulses the stream's trigger line, and
puts the association last in its queue. The pipeline takes the oldest frame of a port, once whole, while it is free,
no in-line frame has it and it is not paused, and is free after its result, which while the pipeline is PAUSED comes
only in a frame's last tile. A result writes its record, of the frame's tag, generation, status, association and
time, to its slot of the ring; where a mailbox is named, the frame's words to the mailbox; and a MEASURE_RESULT of
the tag to its pair, where that takes one; DRAM holding no bad burst. A station step with enough frames adds the
step of the accumulated frames to the station's three values, each held within its range, uses the frames up and
begins a new epoch; a PTRIM step with enough frames uses its frames up and adds the negative of the gain times their
slope to PSQ_PTRIM, held within its range. (03_host_rep.md, Messages, 04_raster_codec.md, The compressor,
09_vision_registration.md, Settings, generations and frame tags, 09_vision_registration.md, In-line and memory
paths, 09_vision_registration.md, Registration) -/
def Obligations.FramesAndRegistration : Prop :=
  ∀ (s : State) (e : Entry) (k : BitVec 8) (tag : BitVec 32) (dst : BitVec 64) (len : BitVec 32) (cb : Bool) (b : Bool) (j : Job) (c : Fin 256) (st : Fin 16) (p : Fin 4) (x : Nat × Nat) (r : List (Nat × Nat)) (f : Frame) (n : Fin 8) (num : Int) (den : Int),
    (accepted s e 0x41 (fun s => s.part == .mlv9040) (fun s => uploadOk s k.toNat tag.toNat) = true → tag = 0#32 →
      cb = false ∨ cmpFull s = false → Does (.frameUpload e k tag dst len cb b) s fun t => t.vis.upWait.length =
      s.vis.upWait.length + 1 ∧ t.vis.ups = s.vis.ups ∧ t.host.inProg = s.host.inProg ++ [⟨e.q, e.cid.toNat,
      0x41⟩] ∧ t.out = (fetchEntry e.q s).out) ∧
    (accepted s e 0x41 (fun s => s.part == .mlv9040) (fun s => uploadOk s k.toNat tag.toNat) = true → tag ≠ 0#32 →
      cb = false → Does (.frameUpload e k tag dst len cb b) s fun t => t.vis.ups.length = s.vis.ups.length + 1 ∧
      t.vis.upWait = s.vis.upWait ∧ t.host.inProg = s.host.inProg ++ [⟨e.q, e.cid.toNat, 0x41⟩] ∧ t.out =
      (fetchEntry e.q s).out) ∧
    (accepted s e 0x41 (fun s => s.part == .mlv9040) (fun s => uploadOk s k.toNat tag.toNat) = true → cb = true →
      cmpFull s = true → Does (.frameUpload e k tag dst len cb b) s fun t => t.vis = s.vis ∧ t.codec = s.codec ∧
      completes e.q e.cid.toNat 0x41 Sts.busy 0 s t = true) ∧
    (s.dead = false → s.vis.ups.find? (fun j => j.q == e.q.val && j.cid == e.cid.toNat) = some j → j.srcLen ≤
      j.dstLen → s.dram.ue = [] → s.dram.weak = [] → s.pairOn e.q = true → s.cqFull e.q = false → (s.qpU e.q).held
      = [] → Does (.frameUploadDone e.q e.cid) s fun t => t.vis.ups = s.vis.ups.erase j ∧ t.host.inProg =
      s.host.inProg.erase ⟨e.q, e.cid.toNat, 0x41⟩ ∧ completes e.q e.cid.toNat 0x41 Sts.ok ((j.srcLen + j.tag * 2
      ^ 32) % 2 ^ 64) s t = true) ∧
    (s.dead = false → s.part ≠ .mlv9040 → camTracked s c = true → camPos s st ≠ 0 → bitsOf (s.ctxU c).camd st 1 =
      0 → crossed s (originOf s c + camPos s st) = true → Does (.trigCamera c st) s fun t => (t.ctxU c).camd =
      (s.ctxU c).camd + 2 ^ st.val ∧ (strU t st).assoc.getLast?.map (·.ctx) = some c.val ∧ t.out = s.out ++
      [.event (.camTrig st)] ∧ t.psq = s.psq) ∧
    (s.dead = false → bankGet [] s.vis.queue p = x :: r → s.vis.held.find? (fun f => f.stream == x.1 && f.count ==
      x.2) = some f → s.vis.run = none → inlineBusy s = false → s.on VIS_STAT_PAUSED = false → Does
      (.memFrameProcess p) s fun t => t.vis.run = some f ∧ bankGet [] t.vis.queue p = r ∧ t.vis.held =
      s.vis.held.erase f ∧ t.out = s.out) ∧
    (s.dead = false → s.vis.run = some f → s.on VIS_STAT_PAUSED = false ∨ s.vis.lastTile = true → f.gen.resCount ≠
      0 → f.stream < 16 → s.dram.ue = [] → s.dram.weak = [] → Does (.frameResult false b) s fun t => t.vis.run =
      none ∧ t.vis.held = s.vis.held ∧ memRead t.mem (f.gen.resAddr + seqOf f.count % f.gen.resCount * recordBytes
      f.gen) 64 = recordHeader f (frameStatus f false) ∧ f.gen.mbx < 64 → (bankGet {} t.host.mbx f.gen.mbx).tag =
      tagOf f.stream f.count ∧ (bankGet {} t.host.mbx f.gen.mbx).gen = f.gen.num ∧ (bankGet {} t.host.mbx
      f.gen.mbx).data.take 4 = [(frameStatus f false) + (f.assoc.map (·.ctx)).getD 0 * 2 ^ 8 +
      f.assoc.isSome.toNat * 2 ^ 16, (f.assoc.map (·.sheet)).getD 0, (f.gen.resAddr + seqOf f.count %
      f.gen.resCount * recordBytes f.gen) % 2 ^ 32, (f.gen.resAddr + seqOf f.count % f.gen.resCount * recordBytes
      f.gen) / 2 ^ 32] ∧ f.gen.mbx < 64 → s.pairOn f.gen.pair = true → s.cqFull f.gen.pair = false → (s.qpU
      f.gen.pair).held = [] → 0x0101 ≤ s.repVersion → completes f.gen.pair 0xFFFF 0x81 0 (tagOf f.stream f.count +
      t.g (MBX_HDR_SEQ f.gen.mbx) * 2 ^ 32) s t = true) ∧
    (s.dead = false → s.on VIS_STAT_PAUSED = true → s.vis.lastTile = false → Does (.frameResult false b) s fun t
      => t = s) ∧
    (s.dead = false → s.vis.held.find? (fun f => f.gen.path == 2) = some f → f.gen.resCount ≠ 0 → f.stream < 16 →
      s.dram.ue = [] → s.dram.weak = [] → Does (.frameResult true b) s fun t => t.vis.held = s.vis.held.erase f ∧
      t.vis.run = s.vis.run ∧ memRead t.mem (f.gen.resAddr + seqOf f.count % f.gen.resCount * recordBytes f.gen)
      64 = recordHeader f (frameStatus f b) ∧ f.gen.mbx < 64 → (bankGet {} t.host.mbx f.gen.mbx).tag = tagOf
      f.stream f.count ∧ (bankGet {} t.host.mbx f.gen.mbx).gen = f.gen.num ∧ (bankGet {} t.host.mbx
      f.gen.mbx).data.take 4 = [(frameStatus f b) + (f.assoc.map (·.ctx)).getD 0 * 2 ^ 8 + f.assoc.isSome.toNat *
      2 ^ 16, (f.assoc.map (·.sheet)).getD 0, (f.gen.resAddr + seqOf f.count % f.gen.resCount * recordBytes f.gen)
      % 2 ^ 32, (f.gen.resAddr + seqOf f.count % f.gen.resCount * recordBytes f.gen) / 2 ^ 32] ∧ f.gen.mbx < 64 →
      s.pairOn f.gen.pair = true → s.cqFull f.gen.pair = false → (s.qpU f.gen.pair).held = [] → 0x0101 ≤
      s.repVersion → completes f.gen.pair 0xFFFF 0x81 0 (tagOf f.stream f.count + t.g (MBX_HDR_SEQ f.gen.mbx) * 2
      ^ 32) s t = true) ∧
    (s.dead = false → s.vis.stopped = false → bitsOf (s.g VIS_REG_CTRL_AUTO) n 1 = 1 → navg s ≤ (bankGet []
      s.vis.acc n).length → Does (.regAutoStep n) s fun t => ((t.stnU n).lineAdj, (t.stnU n).p64Adj, (t.stnU
      n).magAdj) = (clampI (-256) 255 ((s.stnU n).lineAdj + (stepOf s n).1), clampI (-262144) 262143 ((s.stnU
      n).p64Adj + (stepOf s n).2.1), clampI (-2000000) 2000000 ((s.stnU n).magAdj + (stepOf s n).2.2)) ∧ bankGet
      [] t.vis.acc n = [] ∧ bankGet 0 t.vis.epoch n = bankGet 0 s.vis.epoch n + 1) ∧
    (s.dead = false → slopeOf (((trimFrames s).take (navg s)).foldr (· ++ ·) []) = (num, den) → s.vis.stopped =
      false → s.on VIS_REG_CTRL_PTRIM_EN = true → ptrimWaiting s = false → navg s ≤ (trimFrames s).length → Does
      (.regPtrimStep) s fun t => t.vis.pacc = [] ∧ t.vis.acc = s.vis.acc ∧ t.gi PSQ_PTRIM_TRIM = clampI (-2000000)
      2000000 (s.gi PSQ_PTRIM_TRIM + openDiv 9 (-(s.g VIS_REG_GAIN_GAIN * num)) (262144 * den).toNat))

/-- A free station decoder takes the first band of the first sheet being fetched and is BUSY with its table and
index. A band that decodes, its bytes read without an ECC error, with room in its ring, frees the decoder and joins
the lead buffer of a sheet still fetched; a band whose decoder must wait for room stands, and nothing changes; a
band that meets an error frees the decoder, shows it in the DETAIL field, and spoils a sheet that can be spoiled. On
an unoccupied, disabled station an edge adds 1 to the sweep count, modulo 2^28: before the first facet mark a mark
makes the facet 0; after it the facet counts modulo FACETS, and a mark at another count or a count without its mark
sets FACET_SLIP. An edge at an occupied station with a sweep due, whatever its period, that is no slip numbers the
sweep and the facet so too, and produces that sweep: its base is the sheet's next; a slip there spoils the sheet
with POLYGON_LOSS. An edge that does not come, while a sweep rate is commanded, is supplied, counted and flagged.
(06_station_pipeline.md, Lead buffer, 04_raster_codec.md, Decoder errors, 07_emitters_scan.md, Sweeps and the
polygon) -/
def Obligations.StationDecodersAndEdges : Prop :=
  ∀ (s : State) (n : Fin 8) (k : Fin 4) (f : Fetch) (b : BandId) (r : List BandId) (d : DecBand) (x : List (BitVec 8)) (mark : Bool) (per : Nat) (c : Nat) (base : Int) (e : Nat × List (BitVec 8)),
    s.dead = false →
    n.val < s.part.stations →
    (bankGet none (s.stnU n).dec k = none → (s.stnU n).fetch.find? (fun f => !f.todo.isEmpty) = some f → f.todo =
      b :: r → Does (.stationBandStart n k) s fun t => bankGet none (t.stnU n).dec k = some { b := b } ∧ t.on
      (STN_DEC_BUSY n k) = true ∧ t.ctx = s.ctx ∧ t.out = s.out) ∧
    (bankGet none (s.stnU n).dec k = some d → (decodeIn (ringRoom s n d.b) d.b s).1.toOption = some x → (decodeIn
      (ringRoom s n d.b) d.b s).2 = s → x ≠ [] → (s.stnU n).fetch.any (fun f => f.ctx == d.b.ctx) = true → Does
      (.stationBandDone n k) s fun t => bankGet none (t.stnU n).dec k = none ∧ t.on (STN_DEC_BUSY n k) = false ∧
      (t.stnU n).lead = (s.stnU n).lead ++

         [{ b := d.b, first := bandFirst ((s.ctxU d.b.ctx).planes.getD d.b.stn {}) d.b.tbl d.b.idx, stride := strideOf ((s.ctxU d.b.ctx).planes.getD d.b.stn {}) d.b.tbl, bytes := x }]
      ∧ t.ctx = s.ctx ∧ t.out = s.out) ∧
    (bankGet none (s.stnU n).dec k = some d → waits (decodeIn (ringRoom s n d.b) d.b s).1 (ringRoom s n d.b)
      (bandLines ((s.ctxU d.b.ctx).planes.getD d.b.stn {}) (s.ctxU d.b.ctx).lines d.b.tbl d.b.idx) = true → Does
      (.stationBandDone n k) s fun t => t = s) ∧
    (bankGet none (s.stnU n).dec k = some d → metBy (decodeIn (ringRoom s n d.b) d.b s).1 = some e → (decodeIn
      (ringRoom s n d.b) d.b s).2 = s → waits (decodeIn (ringRoom s n d.b) d.b s).1 (ringRoom s n d.b) (bandLines
      ((s.ctxU d.b.ctx).planes.getD d.b.stn {}) (s.ctxU d.b.ctx).lines d.b.tbl d.b.idx) = false → spoilable s
      d.b.ctx = true → cycleState s d.b.ctx ≠ Px.armed → Does (.stationBandDone n k) s fun t => t.g
      (STN_DEC_DETAIL n k) = e.1 % 64 ∧ t.on (STN_DEC_BUSY n k) = false ∧ ctxState t d.b.ctx = Px.spoiled) ∧
    (s.on (STN_STAT_OCCUPIED n) = false → (s.stnU n).active.enable = false → (s.stnU n).marked = false → polyOf s
      n = none → Does (.bdEdge n mark per) s fun t => t.g (STN_SWEEPNO_COUNT n) = (s.g (STN_SWEEPNO_COUNT n) + 1)
      % 2 ^ 28 ∧ (mark = true → t.g (STN_SWEEPNO_FACET n) = 0) ∧ (t.stnU n).marked = mark ∧ (t.stnU n).bdClock =
      s.clock ∧ t.ctx = s.ctx ∧ t.out = s.out) ∧
    (s.on (STN_STAT_OCCUPIED n) = false → (s.stnU n).active.enable = false → (s.stnU n).marked = true → mark =
      decide ((s.g (STN_SWEEPNO_FACET n) + 1) % max 1 (s.stnU n).active.facets = 0) → (s.stnU n).active.facets ≤
      16 → polyOf s n = none → Does (.bdEdge n mark per) s fun t => t.g (STN_SWEEPNO_COUNT n) = (s.g
      (STN_SWEEPNO_COUNT n) + 1) % 2 ^ 28 ∧ t.g (STN_SWEEPNO_FACET n) = (s.g (STN_SWEEPNO_FACET n) + 1) % max 1
      (s.stnU n).active.facets ∧ t.on (STN_ESTAT_FACET_SLIP n) = s.on (STN_ESTAT_FACET_SLIP n) ∧ t.ctx = s.ctx) ∧
    (s.on (STN_STAT_OCCUPIED n) = false → (s.stnU n).active.enable = false → (s.stnU n).marked = true → mark ≠
      decide ((s.g (STN_SWEEPNO_FACET n) + 1) % max 1 (s.stnU n).active.facets = 0) → Does (.bdEdge n mark per) s
      fun t => t.g (STN_SWEEPNO_COUNT n) = (s.g (STN_SWEEPNO_COUNT n) + 1) % 2 ^ 28 ∧ t.on (STN_ESTAT_FACET_SLIP
      n) = true ∧ (t.stnU n).marked = false) ∧
    (s.on (STN_STAT_OCCUPIED n) = true → s.g (STN_STAT_CONTEXT n) = c → (s.stnU n).marked = false ∨ mark = decide
      ((s.g (STN_SWEEPNO_FACET n) + 1) % max 1 (s.stnU n).active.facets = 0) → (nextBase s n c).map (·.1) = some
      base → Does (.bdEdge n mark per) s fun t => t.g (STN_SWEEPNO_COUNT n) = (s.g (STN_SWEEPNO_COUNT n) + 1) % 2
      ^ 28 ∧ (mark = true → t.g (STN_SWEEPNO_FACET n) = 0) ∧ (t.stnU n).marked = ((s.stnU n).marked || mark) ∧
      (t.stnU n).started = true ∧ (t.stnU n).base = base ∧ (t.stnU n).own = some base) ∧
    (s.on (STN_STAT_OCCUPIED n) = true → s.g (STN_STAT_CONTEXT n) = c → (s.stnU n).marked = true → mark ≠ decide
      ((s.g (STN_SWEEPNO_FACET n) + 1) % max 1 (s.stnU n).active.facets = 0) → ctxState s c = Px.imaging → Does
      (.bdEdge n mark per) s fun t => t.on (STN_ESTAT_FACET_SLIP n) = true ∧ (t.stnU n).marked = false ∧ ctxState
      t c = Px.spoiled ∧ t.g (PCTX_STATE_CAUSE c) = Cause.polygonLoss) ∧
    (s.on (STN_STAT_OCCUPIED n) = false → (s.stnU n).active.enable = false → (bankGet (0, 0) s.psq.sweeps n).1 ≠ 0
      → (bankGet (0, 0) s.psq.sweeps n).2 ≠ 0 → Does (.bdMissTimeout n) s fun t => t.on (STN_ESTAT_BD_MISS n) =
      true ∧ t.g (STN_SWEEPNO_COUNT n) = (s.g (STN_SWEEPNO_COUNT n) + 1) % 2 ^ 28 ∧ (t.stnU n).missRun = (s.stnU
      n).missRun + 1)

/-- A station that goes to another generation, unoccupied and not reloading, starts to reload for the next in order,
and changes no other register and shows nothing; at the end it reloads no more and shows how long it took; where its
generation is the newest, no sheet is due at the station and no ended boost waits, that generation becomes the
active one. A bow, correction-cell or screen word written while the station is disabled and not reloading takes its
low bits, a bow of -128 taken as -127 with BOW_CLAMP set; on an enabled or reloading station TBL_IGN is set and no
table changes. Inside the NVM window the wear accounts, emitter states and serial are saved; outside it the write
waits. The end of a boosted emitter's budget sets BOOST_END; with a generation free a new newest one ends the boost,
with 16 held the emitter is kept until one is free. (06_station_pipeline.md, Station configuration,
06_station_pipeline.md, Occupancy and table reloads, 06_station_pipeline.md, Station registers, 07_emitters_scan.md,
Wear and boost) -/
def Obligations.StationGenerationsAndTables : Prop :=
  ∀ (s : State) (n : Fin 8) (g : Gen) (i : Fin 4096) (e : Fin 40) (y : Fin 256) (z : Fin 256) (v : Word) (ns : Nat) (num : Nat),
    (s.dead = false → n.val < s.part.stations → s.on (STN_STAT_OCCUPIED n) = false → (s.stnU n).reloadFor = none →
      targetNum s n ≠ (s.stnU n).active.num → nextGen (s.stnU n) = some g → Does (.reloadStart n) s fun t =>
      (t.stnU n).reloadFor = some g.num ∧ t.on (STN_CFGSTAT_RELOADING n) = true ∧ t.out = s.out ∧ OnlyRegs
      [STN_CFGSTAT n] s t) ∧
    (s.dead = false → n.val < s.part.stations → (s.stnU n).reloadFor = some num → (s.stnU n).held.find? (fun g =>
      g.num == num) = none → Does (.reloadDone n ns) s fun t => (t.stnU n).reloadFor = none ∧ t.on
      (STN_CFGSTAT_RELOADING n) = false ∧ t.g (STN_RELOAD_NS n) = min 0xFFFFFFFF ns) ∧
    (s.dead = false → n.val < s.part.stations → (s.stnU n).reloadFor = some num → (s.stnU n).held.find? (fun g =>
      g.num == num) = some g → (s.stnU n).newest.num = num → (s.stnU n).boostEnd = [] → dueCtx s n = none → Does
      (.reloadDone n ns) s fun t => (t.stnU n).reloadFor = none ∧ t.on (STN_CFGSTAT_RELOADING n) = false ∧ t.g
      (STN_RELOAD_NS n) = min 0xFFFFFFFF ns ∧ (t.stnU n).active = g) ∧
    (Reaches s (STN_CELL n i e) → s.on (STN_PCFG_ENABLED n) = false → (s.stnU n).reloadFor = none → Does
      (.tableWrite (BitVec.ofNat 26 (STN_CELL n i e)) v) s fun t => t.g (STN_CELL_GAIN n i e) = v.toNat % 2 ^ 20 ∧
      t.stn = s.stn ∧ t.out = s.out ∧ OnlyRegs [STN_CELL n i e] s t) ∧
    (Reaches s (STN_BOW n i) → s.on (STN_PCFG_ENABLED n) = false → (s.stnU n).reloadFor = none → Does (.tableWrite
      (BitVec.ofNat 26 (STN_BOW n i)) v) s fun t => t.gi (STN_BOW_BOW n i) = max (-127) (sext 8 (v.toNat % 256)) ∧
      t.on (STN_STAT_BOW_CLAMP n) = (s.on (STN_STAT_BOW_CLAMP n) || v.toNat % 256 == 128) ∧ t.stn = s.stn ∧ t.out
      = s.out ∧ OnlyRegs [STN_BOW n i, STN_STAT n] s t) ∧
    (Reaches s (STN_SCR n y z) → s.on (STN_PCFG_ENABLED n) = false → (s.stnU n).reloadFor = none → Does
      (.tableWrite (BitVec.ofNat 26 (STN_SCR n y z)) v) s fun t => screenWord t (STN_SCR n y z) = v.toNat % 2 ^ 20
      ∧ t.regs = s.regs ∧ t.out = s.out) ∧
    (Reaches s (STN_CELL n i e) → s.on (STN_PCFG_ENABLED n) = true ∨ (s.stnU n).reloadFor ≠ none → Does
      (.tableWrite (BitVec.ofNat 26 (STN_CELL n i e)) v) s fun t => t.on (STN_STAT_TBL_IGN n) = true ∧ t.stn =
      s.stn ∧ OnlyRegs [STN_STAT n] s t) ∧
    (Reaches s (STN_BOW n i) → s.on (STN_PCFG_ENABLED n) = true ∨ (s.stnU n).reloadFor ≠ none → Does (.tableWrite
      (BitVec.ofNat 26 (STN_BOW n i)) v) s fun t => t.on (STN_STAT_TBL_IGN n) = true ∧ t.stn = s.stn ∧ OnlyRegs
      [STN_STAT n] s t) ∧
    (Reaches s (STN_SCR n y z) → s.on (STN_PCFG_ENABLED n) = true ∨ (s.stnU n).reloadFor ≠ none → Does
      (.tableWrite (BitVec.ofNat 26 (STN_SCR n y z)) v) s fun t => t.on (STN_STAT_TBL_IGN n) = true ∧ t.stn =
      s.stn ∧ OnlyRegs [STN_STAT n] s t) ∧
    (s.dead = false → n.val < s.part.stations → nvmWindow s = true → Does (.wearNvmWrite n) s fun t => (t.stnU
      n).nvmWear = (s.stnU n).wear ∧ (t.stnU n).nvmEmit = (s.stnU n).newest.emit ∧ (t.stnU n).nvmSerial = (s.stnU
      n).serial ∧ (t.stnU n).nvmWait = false ∧ t.regs = s.regs ∧ t.out = s.out) ∧
    (s.dead = false → n.val < s.part.stations → nvmWindow s = false → Does (.wearNvmWrite n) s fun t => (t.stnU
      n).nvmWait = true ∧ (t.stnU n).nvmWear = (s.stnU n).nvmWear ∧ t.regs = s.regs ∧ t.out = s.out) ∧
    (s.dead = false → n.val < s.part.stations → ((s.stnU n).newest.em e).boost ≠ 0 → wearRem (s.stnU n) e = 0 →
      (s.stnU n).boostEnd.contains e.val = false → 16 ≤ (s.stnU n).held.length → Does (.boostEnd n e) s fun t =>
      (t.stnU n).boostEnd = (s.stnU n).boostEnd ++ [e.val] ∧ (t.stnU n).newest = (s.stnU n).newest ∧ t.on
      (STN_ESTAT_BOOST_END n) = true ∧ t.ctx = s.ctx) ∧
    (s.dead = false → n.val < s.part.stations → ((s.stnU n).newest.em e).boost ≠ 0 → wearRem (s.stnU n) e = 0 →
      (s.stnU n).boostEnd = [] → (s.stnU n).held.length < 16 → Does (.boostEnd n e) s fun t => ((t.stnU
      n).newest.em e).boost = 0 ∧ (t.stnU n).newest.num = nextNum (s.stnU n).held (s.stnU n).newest.num ∧ t.on
      (STN_ESTAT_BOOST_END n) = true ∧ t.ctx = s.ctx)

/-- The position moves by the signed 32-bit difference of the encoder's samples, against it where ENC_INVERT is 1. A
sample that moves past the front takes position and front there and shows it; one that goes back no further than
BACKLASH leaves the front; one that goes back further sets REVERSED and PATH_REVERSE. FEED_REQ is raised with its
event where a context may be fed. A FEED_ACK that the fabric gives with FEED_REQ high, or fallen in the same cycle,
feeds the oldest context ARMED before the cycle at the speeds in force before it, with its origin at the front
unless SENSE_EN awaits it; one without FEED_REQ sets STRAY_ACK and feeds nothing. The FEED_SENSE edge fixes the
origin of the oldest awaiting context at the front less FEEDPOS, and puts it IN_PATH; with none awaiting, or an
origin, fixed all the same, less than MINGAP behind the trail before it, it is a misfeed, as is a context that waits
beyond FEEDWIN: MISFEED is set and IMG is faulted. (05_passage.md, Process position, 05_passage.md, Context states)
-/
def Obligations.EncoderAndFeeding : Prop :=
  ∀ (s : State) (raw : BitVec 32) (c : Fin 256),
    s.dead = false →
    (0 < aheadOf (posAdd s.psq.pos (if s.on PSQ_CTRL_ENC_INVERT then -(sext 32 ((raw.toNat + 2 ^ 32 -
      s.psq.lastRaw) % 2 ^ 32)) else sext 32 ((raw.toNat + 2 ^ 32 - s.psq.lastRaw) % 2 ^ 32))) s.psq.front → Does
      (.encoderSample raw) s fun t => t.psq.pos = (posAdd s.psq.pos (if s.on PSQ_CTRL_ENC_INVERT then -(sext 32
      ((raw.toNat + 2 ^ 32 - s.psq.lastRaw) % 2 ^ 32)) else sext 32 ((raw.toNat + 2 ^ 32 - s.psq.lastRaw) % 2 ^
      32))) ∧ t.psq.front = (posAdd s.psq.pos (if s.on PSQ_CTRL_ENC_INVERT then -(sext 32 ((raw.toNat + 2 ^ 32 -
      s.psq.lastRaw) % 2 ^ 32)) else sext 32 ((raw.toNat + 2 ^ 32 - s.psq.lastRaw) % 2 ^ 32))) ∧ t.psq.lastRaw =
      raw.toNat ∧ t.g PSQ_FRONT_LO_FRONT = (posAdd s.psq.pos (if s.on PSQ_CTRL_ENC_INVERT then -(sext 32
      ((raw.toNat + 2 ^ 32 - s.psq.lastRaw) % 2 ^ 32)) else sext 32 ((raw.toNat + 2 ^ 32 - s.psq.lastRaw) % 2 ^
      32))) % 2 ^ 32 ∧ t.g PSQ_FRONT_HI_FRONT = (posAdd s.psq.pos (if s.on PSQ_CTRL_ENC_INVERT then -(sext 32
      ((raw.toNat + 2 ^ 32 - s.psq.lastRaw) % 2 ^ 32)) else sext 32 ((raw.toNat + 2 ^ 32 - s.psq.lastRaw) % 2 ^
      32))) / 2 ^ 32 ∧ t.ctx = s.ctx ∧ t.out = s.out ∧ OnlyRegs [PSQ_RAW, PSQ_FRONT_LO, PSQ_FRONT_HI, PSQ_STAT] s
      t) ∧
    (aheadOf (posAdd s.psq.pos (if s.on PSQ_CTRL_ENC_INVERT then -(sext 32 ((raw.toNat + 2 ^ 32 - s.psq.lastRaw) %
      2 ^ 32)) else sext 32 ((raw.toNat + 2 ^ 32 - s.psq.lastRaw) % 2 ^ 32))) s.psq.front ≤ 0 → aheadOf
      s.psq.front (posAdd s.psq.pos (if s.on PSQ_CTRL_ENC_INVERT then -(sext 32 ((raw.toNat + 2 ^ 32 -
      s.psq.lastRaw) % 2 ^ 32)) else sext 32 ((raw.toNat + 2 ^ 32 - s.psq.lastRaw) % 2 ^ 32))) ≤ s.g
      PSQ_CTRL_BACKLASH → Does (.encoderSample raw) s fun t => t.psq.pos = (posAdd s.psq.pos (if s.on
      PSQ_CTRL_ENC_INVERT then -(sext 32 ((raw.toNat + 2 ^ 32 - s.psq.lastRaw) % 2 ^ 32)) else sext 32 ((raw.toNat
      + 2 ^ 32 - s.psq.lastRaw) % 2 ^ 32))) ∧ t.psq.front = s.psq.front ∧ t.on PSQ_STAT_REVERSED = false ∧ t.ctx =
      s.ctx ∧ t.out = s.out) ∧
    (aheadOf (posAdd s.psq.pos (if s.on PSQ_CTRL_ENC_INVERT then -(sext 32 ((raw.toNat + 2 ^ 32 - s.psq.lastRaw) %
      2 ^ 32)) else sext 32 ((raw.toNat + 2 ^ 32 - s.psq.lastRaw) % 2 ^ 32))) s.psq.front ≤ 0 → s.g
      PSQ_CTRL_BACKLASH < aheadOf s.psq.front (posAdd s.psq.pos (if s.on PSQ_CTRL_ENC_INVERT then -(sext 32
      ((raw.toNat + 2 ^ 32 - s.psq.lastRaw) % 2 ^ 32)) else sext 32 ((raw.toNat + 2 ^ 32 - s.psq.lastRaw) % 2 ^
      32))) → s.on PSQ_STAT_REVERSED = false → Does (.encoderSample raw) s fun t => t.on PSQ_STAT_REVERSED = true
      ∧ t.on PSQ_STAT_PATH_REVERSE = true) ∧
    (s.on PSQ_STAT_FEED_REQ = false → (feedable s false).isSome = true → Does (.feedReqRaise) s fun t => t.on
      PSQ_STAT_FEED_REQ = true ∧ t.out = s.out ++ [.event (.feedReq true)] ∧ OnlyRegs [PSQ_STAT] s t) ∧
    (s.fabricFeeds 0x0200 0 = true → s.on PSQ_STAT_FEED_REQ = false → s.psq.reqFell ≠ some s.clock → Does
      (.feedAck) s fun t => t.on PSQ_STAT_STRAY_ACK = true ∧ t.ctx = s.ctx ∧ t.psq = s.psq ∧ t.out = s.out ∧
      OnlyRegs [PSQ_STAT] s t) ∧
    (s.fabricFeeds 0x0200 0 = true → s.on PSQ_STAT_FEED_REQ = true ∨ s.psq.reqFell = some s.clock → feedTaker s =
      some c.val → (s.ctxU c).awaiting = false → Does (.feedAck) s fun t => (t.ctxU c).fed = true ∧ ctxState t c =
      Px.feeding ∧ (t.ctxU c).fedAt = s.time ∧ (t.ctxU c).rate = (rateEff (beforeChanges s) c).getD (cmdRate
      (beforeChanges s)) ∧ (t.ctxU c).passes = cmdPasses (beforeChanges s) ∧ t.psq.lastPasses = cmdPasses
      (beforeChanges s) ∧ (t.ctxU c).awaiting = s.on PSQ_CTRL_SENSE_EN ∧ (s.on PSQ_CTRL_SENSE_EN = false →
      originOf t c = s.psq.front % 2 ^ 48)) ∧
    (s.fabricFeeds 0x0200 1 = true → s.on PSQ_CTRL_SENSE_EN = true → oldest s (fun c => (s.ctxU c).awaiting) =
      some c.val → s.psq.lastTrail.all (fun t => decide (0 ≤ aheadOf (posAdd s.psq.front (-(s.g (PSQ_POS_COUNTS 0)
      : Int))) (t + s.g (PSQ_POS_COUNTS 2)))) = true → Does (.feedSense) s fun t => (t.ctxU c).hasOrigin = true ∧
      (t.ctxU c).awaiting = false ∧ originOf t c = posAdd s.psq.front (-(s.g (PSQ_POS_COUNTS 0) : Int)) ∧
      (ctxState s c = Px.feeding → ctxState t c = Px.inPath) ∧ t.psq.front = s.psq.front ∧ t.out = s.out) ∧
    (s.fabricFeeds 0x0200 1 = true → s.on PSQ_CTRL_SENSE_EN = true → oldest s (fun c => (s.ctxU c).awaiting) =
      some c.val → s.psq.lastTrail.all (fun t => decide (0 ≤ aheadOf (posAdd s.psq.front (-(s.g (PSQ_POS_COUNTS 0)
      : Int))) (t + s.g (PSQ_POS_COUNTS 2)))) = false → Does (.feedSense) s fun t => (t.ctxU c).hasOrigin = true ∧
      originOf t c = posAdd s.psq.front (-(s.g (PSQ_POS_COUNTS 0) : Int)) ∧ t.on PSQ_STAT_MISFEED = true) ∧
    (s.fabricFeeds 0x0200 1 = true → s.on PSQ_CTRL_SENSE_EN = true → (oldest s fun c => (s.ctxU c).awaiting) =
      none ∨ s.psq.lastTrail.all (fun t => decide (0 ≤ aheadOf (posAdd s.psq.front (-(s.g (PSQ_POS_COUNTS 0) :
      Int))) (t + s.g (PSQ_POS_COUNTS 2)))) = false → s.rigged = true → s.err.regionReset.contains 0 = false →
      Does (.feedSense) s fun t => t.on PSQ_STAT_MISFEED = true ∧ t.err.faulted.contains 0 = true) ∧
    (s.rigged = true → s.err.regionReset.contains 0 = false → (s.ctxU c).awaiting = true → 0 < aheadOf s.psq.front
      ((s.ctxU c).ackFront + s.g (PSQ_POS_COUNTS 4)) → Does (.misfeedTimeout c) s fun t => t.on PSQ_STAT_MISFEED =
      true ∧ t.err.faulted.contains 0 = true)

/-- Where a web context may be fed a web run starts, its first origin ahead of the front by the web lead. At a
crossed slot with no context to take it the gap is counted and the next slot follows by REPEAT; at a slot with one,
that context is fed with the slot's position as its origin. Crossings are resolved oldest context first, a web slot
after them all; of a context whose turn it is: the feed position moves a FEEDING context IN_PATH; a prefetch
position starts its fetching; its trigger at a station that nothing keeps from imaging begins the occupancy and
makes it IMAGING, and at one that something keeps from it spoils it with that cause; a SPOILED context is dropped
there; the end of the station's part sets its STN_DONE bit and frees the station; the delivery position delivers an
IMAGING sheet, or an IN_PATH one of empty mask, and marks a SPOILED one with a DIVERT pulse. (05_passage.md, Context
states, 05_passage.md, Process position, 05_passage.md, Spoiling and delivery, 06_station_pipeline.md, Occupancy and
table reloads) -/
def Obligations.WebRunsAndTriggers : Prop :=
  ∀ (s : State) (c : Fin 256) (n : Fin 8) (cause : Nat) (kind : Option Nat),
    s.dead = false →
    (s.psq.web = false → (feedable s true).isSome = true → Does (.webRunStart) s fun t => t.psq.web = true ∧
      t.psq.webOrigin = (s.psq.front + s.g (PSQ_POS_COUNTS 3)) % 2 ^ 48 ∧ t.regs = s.regs ∧ t.ctx = s.ctx ∧ t.out
      = s.out) ∧
    ((beforeChanges s).psq.web = true → anyCtx s (crossingDue s) = false → crossed s s.psq.webOrigin = true →
      webTaker (beforeChanges s) = none → s.psq.webRepeat ≠ 0 → Does (.trigWebOrigin) s fun t => t.g
      PSQ_STAT_WEB_GAPS = min (2 ^ PSQ_STAT_WEB_GAPS.w - 1) (s.g PSQ_STAT_WEB_GAPS + 1) ∧ t.psq.webOrigin =
      (s.psq.webOrigin + s.psq.webRepeat) % 2 ^ 48 ∧ t.ctx = s.ctx ∧ t.out = s.out) ∧
    ((beforeChanges s).psq.web = true → anyCtx s (crossingDue s) = false → crossed s s.psq.webOrigin = true →
      webTaker (beforeChanges s) = some c.val → Does (.trigWebOrigin) s fun t => (t.ctxU c).fed = true ∧ ctxState
      t c = Px.feeding ∧ originOf t c = s.psq.webOrigin % 2 ^ 48 ∧ t.psq.webRepeat = (s.ctxU c).repeat_ ∧
      t.psq.webOrigin = (s.psq.webOrigin + (s.ctxU c).repeat_) % 2 ^ 48) ∧
    (anyCtx s (fun d => decide ((s.ctxU d).seq < (s.ctxU c).seq) && crossingDue s d) = false → ctxState s c =
      Px.feeding → tracked s c = true → crossed s (originOf s c + s.g (PSQ_POS_COUNTS 0)) = true → Does
      (.trigFeedpos c) s fun t => ctxState t c = Px.inPath ∧ ∀ d : Nat, d ≠ c.val → t.ctxU d = s.ctxU d ∧ originOf
      t c = originOf s c ∧ t.out = s.out ∧ OnlyRegs [PCTX_STATE c] s t) ∧
    (anyCtx s (fun d => decide ((s.ctxU d).seq < (s.ctxU c).seq) && crossingDue s d) = false → n.val <
      s.part.stations → tracked s c = true → ctxState s c ≠ Px.spoiled → inMask s c n = true → crossed s (posAdd
      (trigAt s c n) (-(s.g (PSQ_STN_PREF_COUNTS n) : Int))) = true → bitsOf (s.ctxU c).fetched n 1 = 0 → Does
      (.trigPrefetch c n) s fun t => (t.ctxU c).fetched = (s.ctxU c).fetched + 2 ^ n.val ∧ (t.stnU n).fetch =
      (s.stnU n).fetch ++ [{ ctx := c, todo := planeBands c n ((s.ctxU c).planes.getD n {}) (s.ctxU c).lines }] ∧
      t.out = s.out) ∧
    (anyCtx s (fun d => decide ((s.ctxU d).seq < (s.ctxU c).seq) && crossingDue s d) = false → n.val <
      s.part.stations → tracked s c = true → ctxState s c = Px.inPath ∨ ctxState s c = Px.imaging → inMask s c n =
      true → bitsOf (s.ctxU c).trigd n 1 = 0 → crossed s (trigAt s c n) = true → armFail s c n = none → Does
      (.trigStation c n) s fun t => (t.ctxU c).trigd = (s.ctxU c).trigd + 2 ^ n.val ∧ (t.ctxU c).imagingAt =
      (s.ctxU c).imagingAt + 2 ^ n.val ∧ ctxState t c = Px.imaging ∧ t.on (STN_STAT_OCCUPIED n) = true ∧ t.g
      (STN_STAT_CONTEXT n) = c ∧ t.out = s.out) ∧
    (anyCtx s (fun d => decide ((s.ctxU d).seq < (s.ctxU c).seq) && crossingDue s d) = false → n.val <
      s.part.stations → tracked s c = true → ctxState s c = Px.inPath ∨ ctxState s c = Px.imaging → inMask s c n =
      true → bitsOf (s.ctxU c).trigd n 1 = 0 → crossed s (trigAt s c n) = true → armFail s c n = some (cause,
      kind) → Does (.trigStation c n) s fun t => ctxState t c = Px.spoiled ∧ t.g (PCTX_STATE_CAUSE c) = cause ∧
      (t.ctxU c).trigd = (s.ctxU c).trigd + 2 ^ n.val) ∧
    (anyCtx s (fun d => decide ((s.ctxU d).seq < (s.ctxU c).seq) && crossingDue s d) = false → n.val <
      s.part.stations → tracked s c = true → ctxState s c = Px.spoiled → inMask s c n = true → bitsOf (s.ctxU
      c).trigd n 1 = 0 → crossed s (trigAt s c n) = true → Does (.trigStation c n) s fun t => (t.ctxU c).trigd =
      (s.ctxU c).trigd + 2 ^ n.val ∧ (t.stnU n).fetch = (s.stnU n).fetch.filter (fun f => f.ctx != c.val) ∧
      (t.stnU n).lead = (s.stnU n).lead.filter (fun l => l.b.ctx != c.val) ∧ t.out = s.out) ∧
    (anyCtx s (fun d => decide ((s.ctxU d).seq < (s.ctxU c).seq) && crossingDue s d) = false → n.val <
      s.part.stations → tracked s c = true → inMask s c n = true → bitsOf (s.ctxU c).trigd n 1 = 1 → bitsOf (s.g
      (PCTX_STATE_STN_DONE c)) n 1 = 0 → crossed s (endAt s c n) = true → Does (.trigStationDone c n) s fun t =>
      bitsOf (t.g (PCTX_STATE_STN_DONE c)) n 1 = 1 ∧ (s.g (STN_STAT_CONTEXT n) = c → t.on (STN_STAT_OCCUPIED n) =
      false)) ∧
    (anyCtx s (fun d => decide ((s.ctxU d).seq < (s.ctxU c).seq) && crossingDue s d) = false → tracked s c = true
      → crossed s (originOf s c + s.g (PSQ_POS_COUNTS 1)) = true → ctxState s c = Px.imaging ∨ ctxState s c =
      Px.inPath ∧ s.g (PCTX_STATE_STN_MASK c) = 0 → Does (.trigDelivery c) s fun t => ctxState t c = Px.delivered
      ∧ t.on (PCTX_STATE_AT_DELIV c) = true ∧ (t.ctxU c).ended = true ∧ t.psq.nDelivered = s.psq.nDelivered + 1 ∧
      t.out = s.out) ∧
    (anyCtx s (fun d => decide ((s.ctxU d).seq < (s.ctxU c).seq) && crossingDue s d) = false → tracked s c = true
      → crossed s (originOf s c + s.g (PSQ_POS_COUNTS 1)) = true → ctxState s c = Px.spoiled → Does (.trigDelivery
      c) s fun t => ctxState t c = Px.spoiled ∧ t.on (PCTX_STATE_AT_DELIV c) = true ∧ Out.event .divert ∈ shown s
      t ∧ ∀ d : Nat, d ≠ c.val → t.ctxU d = s.ctxU d ∧ t.psq.nSpoiled = s.psq.nSpoiled)

/-- A pending boundary begins while the engine feeds and none is under way: BOUNDARY 1, its first step, and no web
run. With the path clear it takes the waiting PTRIM, commands the belt its rate, passes and trim, and each enabled
station its sweeps, RATE over the active emitters, which STNn_SWEEP shows in 1/256 (truncated by the model's choice,
log 60), where its rate is not 0, and goes to its next step; with polygons and belt holding it, BOUNDARY is 0 and
the speed in force is the boundary's. A PTRIM beyond +-2,000,000 sets CFG_ERR and is not taken; one within it is the
register's new value. A warm engine in WARMUP is READY; a drained one whose path is empty is FURLED, or in FAULT
where a region's fatal error drained it, with no sweep rate commanded. (05_passage.md, Line timing and speed
boundaries, 05_passage.md, PSQ registers, 05_passage.md, Hard stop and jam recovery, 01_architecture.md, Bring-up
from power-on to READY) -/
def Obligations.SpeedsAndEngineStates : Prop :=
  ∀ (s : State) (v : Word),
    (s.dead = false → boundaryPending s = true → engineFeeds s = true → s.on PSQ_STAT_BOUNDARY = false → Does
      (.speedBoundaryStart) s fun t => t.on PSQ_STAT_BOUNDARY = true ∧ t.psq.bstep = 1 ∧ t.psq.web = false ∧ t.ctx
      = s.ctx) ∧
    (s.dead = false → s.on PSQ_STAT_BOUNDARY = true → s.psq.bstep = 1 → boundaryClear s = true → Does
      (.boundaryPathClear) s fun t => t.psq.bstep = 2 ∧ t.psq.trim = s.gi PSQ_PTRIM_TRIM ∧ s.psq.brate ≠ 0 →
      t.psq.belt = s.psq.brate ∧ t.psq.beltPasses = s.psq.bpasses ∧ t.psq.beltTrim = s.gi PSQ_PTRIM_TRIM ∧
      s.psq.brate ≠ 0 → ∀ n ∈ enabledStns s, bankGet (0, 0) t.psq.sweeps n = (s.psq.brate, (effWin (s.stnU
      n).newest s.psq.bpasses).2) ∧ s.psq.brate ≠ 0 → ∀ n ∈ enabledStns s, (effWin (s.stnU n).newest
      s.psq.bpasses).2 ≠ 0 → t.g (STN_SWEEP_RATE n) = (256 * s.psq.brate / (effWin (s.stnU n).newest
      s.psq.bpasses).2) % 2 ^ (STN_SWEEP_RATE n).w ∧ t.ctx = s.ctx ∧ t.out = s.out) ∧
    (s.dead = false → s.on PSQ_STAT_BOUNDARY = true → s.psq.bstep = 2 → speedsHold s = true → Does
      (.boundaryLocked) s fun t => t.on PSQ_STAT_BOUNDARY = false ∧ t.psq.bstep = 0 ∧ t.psq.lastRate = s.psq.brate
      ∧ t.psq.lastPasses = s.psq.bpasses ∧ t.psq.newSpeed = true ∧ t.out = s.out ∧ OnlyRegs [PSQ_STAT] s t) ∧
    (Reaches s PSQ_PTRIM → -2000000 ≤ sext 32 v.toNat → sext 32 v.toNat ≤ 2000000 → Does (.ptrimWrite v) s fun t
      => t.gi PSQ_PTRIM_TRIM = sext 32 v.toNat ∧ t.ctx = s.ctx) ∧
    (Reaches s PSQ_PTRIM → 2000000 < sext 32 v.toNat ∨ sext 32 v.toNat < -2000000 → Does (.ptrimWrite v) s fun t
      => t.on PSQ_STAT_CFG_ERR = true ∧ t.psq = s.psq ∧ t.out = s.out ∧ OnlyRegs [PSQ_STAT] s t) ∧
    (s.dead = false → s.engine = Eng.warmup → warm s = true → Does (.warmupComplete) s fun t => t.engine =
      Eng.ready ∧ t.ctx = s.ctx ∧ t.out = s.out ∧ OnlyRegs [REP_STAT] s t) ∧
    (s.dead = false → s.engine = Eng.draining → pathEmpty s = true → Does (.drainComplete) s fun t => t.engine =
      (if s.psq.drainFault then Eng.fault else Eng.furled) ∧ t.psq.sweeps = [] ∧ t.psq.drainFault = false)

/-- A mapped link that is DOWN and may train enters PRBS with no version; block lock takes it to CAPS, or after
PRBS_HI to LOAD with both banks loading. CAPS_REQ is sent in CAPS with the device's version range; sound CAPS with a
common version are shown and agreed on, sound ones without one end the attempt DOWN with cause VERSION, after which
no training starts of itself, and unsound ones are asked again. A PRBS or CAPS step that times out, or a training
step that loses its lock, ends in WAIT with its cause; after the delay training starts anew. A lock lost while UP is
a link loss, and training starts anew. A write of STNn_LCTRL holds the link DOWN, lets it train when DOWN clears, or
trains it anew, from UP as a link loss with its cause. (08_amonone_link.md, Training and capability exchange,
08_amonone_link.md, Control packets and banks, 08_amonone_link.md, Link loss and retraining, 08_amonone_link.md,
Link registers) -/
def Obligations.LinkTraining : Prop :=
  ∀ (s : State) (n : Fin 8) (c : Caps) (x : Nat) (v : Word),
    (s.dead = false → n.val < s.part.stations → linkState s n = Lk.down → linkMapped s n = true → s.on
      (STN_LCTRL_DOWN n) = false → (linkU s n).noRetry = false → Does (.linkTrainStart n) s fun t => linkState t n
      = Lk.prbs ∧ (linkU t n).step = 1 ∧ (linkU t n).version = 0 ∧ t.ctx = s.ctx ∧ t.out = s.out) ∧
    (s.dead = false → n.val < s.part.stations → (linkU s n).step = 1 → Does (.backBlockLock n) s fun t =>
      linkState t n = Lk.caps ∧ (linkU t n).step = 2 ∧ t.ctx = s.ctx ∧ t.out = s.out ∧ OnlyRegs [STN_LSTAT n] s t)
      ∧
    (s.dead = false → n.val < s.part.stations → (linkU s n).step = 4 → Does (.backBlockLock n) s fun t =>
      linkState t n = Lk.load ∧ (linkU t n).step = 5 ∧ (linkU t n).bankGen = [some (loadGen s n).id, some (loadGen
      s n).id] ∧ OnlyRegs [STN_LSTAT n] s t) ∧
    (s.dead = false → n.val < s.part.stations → (linkU s n).step = 2 ∨ (linkU s n).step = 3 ∨ (linkU s n).step = 5
      → Does (.backLockLoss n) s fun t => linkState t n = Lk.wait ∧ t.g (STN_LSTAT_CAUSE n) = 4 ∧ (linkU t n).step
      = 0 ∧ (linkU t n).waiting = [] ∧ t.ctx = s.ctx ∧ t.out = s.out ∧ OnlyRegs [STN_LSTAT n, STN_GEOM n] s t) ∧
    (s.dead = false → n.val < s.part.stations → (linkU s n).step = 6 → linkState s n = Lk.up → Does (.backLockLoss
      n) s fun t => linkState t n = Lk.prbs ∧ t.g (STN_LSTAT_CAUSE n) = 4 ∧ t.on (STN_LERR_LOSS n) = true ∧ (linkU
      t n).step = 1 ∧ (linkU t n).version = 0) ∧
    (s.dead = false → n.val < s.part.stations → (linkU s n).step = 2 → (linkU s n).sending = [] → Does
      (.capsReqSend n) s fun t => t.out = s.out ++ [.packet n (packetBytes (linkU s n) 0x10 0 0 (leBytes 2 (devMin
      s n) ++ leBytes 2 (devMax s n) ++ leBytes 1 n ++ leBytes 3 0))] ∧ (linkU t n).seq = ((linkU s n).seq + 1) %
      65536 ∧ t.regs = s.regs) ∧
    (s.dead = false → n.val < s.part.stations → (linkU s n).step = 2 → 1 ≤ c.e.toNat → c.e.toNat ≤ 40 → 1 ≤
      c.pitch.toNat → c.pitch.toNat ≤ 15 → c.sos.toNat ≤ 16384 → c.ok = true → chooseVersion s n c.drvMin.toNat
      c.drvMax.toNat = some x → Does (.capsRx n c) s fun t => (linkU t n).step = 3 ∧ (linkU t n).version = x ∧ t.g
      (STN_DCAP1_E n) = c.e.toNat ∧ t.g (STN_DCAP1_PITCH n) = c.pitch.toNat ∧ t.g (STN_DSERIAL_SERIAL n) =
      c.serial.toNat) ∧
    (s.dead = false → n.val < s.part.stations → (linkU s n).step = 2 → 1 ≤ c.e.toNat → c.e.toNat ≤ 40 → 1 ≤
      c.pitch.toNat → c.pitch.toNat ≤ 15 → c.sos.toNat ≤ 16384 → c.ok = true → chooseVersion s n c.drvMin.toNat
      c.drvMax.toNat = none → Does (.capsRx n c) s fun t => linkState t n = Lk.down ∧ t.g (STN_LSTAT_CAUSE n) = 2
      ∧ (linkU t n).step = 0 ∧ (linkU t n).noRetry = true) ∧
    (s.dead = false → n.val < s.part.stations → (linkU s n).step = 2 → (linkU s n).sending = [] → c.e.toNat = 0 ∨
      40 < c.e.toNat ∨ c.pitch.toNat = 0 ∨ 15 < c.pitch.toNat ∨ 16384 < c.sos.toNat ∨ c.ok = false → Does (.capsRx
      n c) s fun t => t.out = s.out ++ [.packet n (packetBytes (linkU s n) 0x10 0 0 (leBytes 2 (devMin s n) ++
      leBytes 2 (devMax s n) ++ leBytes 1 n ++ leBytes 3 0))] ∧ (linkU t n).step = 2 ∧ t.regs = s.regs) ∧
    (s.dead = false → n.val < s.part.stations → (linkU s n).step = 1 ∨ (linkU s n).step = 2 ∨ (linkU s n).step = 4
      → Does (.trainTimeout n) s fun t => linkState t n = Lk.wait ∧ t.g (STN_LSTAT_CAUSE n) = (if (linkU s n).step
      = 2 then 3 else 1) ∧ (linkU t n).step = 0 ∧ t.ctx = s.ctx ∧ t.out = s.out ∧ OnlyRegs [STN_LSTAT n, STN_GEOM
      n] s t) ∧
    (s.dead = false → n.val < s.part.stations → linkState s n = Lk.wait → Does (.retrainDelayEnd n) s fun t =>
      linkState t n = Lk.prbs ∧ (linkU t n).step = 1 ∧ t.ctx = s.ctx ∧ t.out = s.out) ∧
    (Reaches s (STN_LCTRL n) → fieldOf (STN_LCTRL_DOWN n) v = 1 → s.on (STN_LCTRL_DOWN n) = false → Does
      (.linkDown n v) s fun t => linkState t n = Lk.down ∧ t.on (STN_LCTRL_DOWN n) = true ∧ t.on (STN_LSTAT_LIT n)
      = false ∧ (linkU t n).step = 0 ∧ (linkU t n).version = 0) ∧
    (Reaches s (STN_LCTRL n) → fieldOf (STN_LCTRL_DOWN n) v = 0 → fieldOf (STN_LCTRL_RETRAIN n) v = 0 → s.on
      (STN_LCTRL_DOWN n) = true → linkMapped s n = true → Does (.linkUp n v) s fun t => linkState t n = Lk.prbs ∧
      (linkU t n).step = 1 ∧ t.on (STN_LCTRL_DOWN n) = false ∧ t.ctx = s.ctx) ∧
    (Reaches s (STN_LCTRL n) → fieldOf (STN_LCTRL_DOWN n) v = 0 → fieldOf (STN_LCTRL_RETRAIN n) v = 1 → linkState
      s n = Lk.up ∨ linkMapped s n = true → Does (.linkRetrain n v) s fun t => linkState t n = Lk.prbs ∧ (linkU t
      n).step = 1 ∧ (linkState s n = Lk.up → t.g (STN_LSTAT_CAUSE n) = 10))

/-- A STATUS in UP that reports nothing wrong shows the beam-detect time and the head temperature and takes what it
acknowledges; one that reports a sheet's sweep as damaged sets DAMAGED and spoils that sheet; one of a sweep counted
as unreported before, or of none, changes no count of them; one without lock is a link loss. The last
acknowledgement of LOAD brings the link UP. HEALTH marks its emitter and sets EMITTER_FAIL; LIV, at AL2.0, shows its
values. A control packet unacknowledged is sent again as it was, at most three times; then the step or the link ends
with its cause. The spare bank is loaded for the next sheet due while no sweep of a sheet is outstanding. A sweep
not reported is flagged and dropped; with the eighth in a row an UP link's station goes dark. A packet discarded is
counted. A LIV_REQ is sent where the generation and the scan unit have it. Where a packet is shown as the only one,
no sweep is being sent. (07_emitters_scan.md, Head temperature, 07_emitters_scan.md, Emitter states,
08_amonone_link.md, Control packets and banks, 08_amonone_link.md, Back channel, 08_amonone_link.md, Link loss and
retraining) -/
def Obligations.LinkTraffic : Prop :=
  ∀ (s : State) (n : Fin 8) (st : LinkStatus) (e : Fin 40) (b : BitVec 8) (vf : BitVec 16) (power : BitVec 16) (seq : BitVec 16) (c : Ctl) (x : Nat × Option Nat) (r : List (Nat × Option Nat)) (k : Nat) (g : Gen),
    s.dead = false →
    n.val < s.part.stations →
    ((linkU s n).step = 6 → st.sweep = 0xFFFFFFFF#32 → st.sensorFault = false → st.lock = true → st.late = false →
      st.dark = false → (s.stnU n).active.num = 0 ∨ sext 16 st.headT.toNat < (s.stnU n).active.htCrit → burst s n
      = false → Does (.statusRx n st) s fun t => (t.stnU n).headT = sext 16 st.headT.toNat ∧ t.g (STN_BDTS_BD_TIME
      n) = st.bdTime.toNat % 2 ^ (STN_BDTS_BD_TIME n).w ∧ (linkU t n).waiting = (linkU s n).waiting.filter (fun c
      => !acked st.ackSeq.toNat c.seq) ∧ (linkU t n).step = 6 ∧ t.ctx = s.ctx ∧ t.out = s.out) ∧
    ((linkU s n).step = 6 → st.sweep ≠ 0xFFFFFFFF#32 → st.damaged = true → st.sensorFault = false → (s.stnU
      n).active.num = 0 ∨ sext 16 st.headT.toNat < (s.stnU n).active.htCrit → (linkU s n).unreported.find? (fun x
      => x.1 == st.sweep.toNat) = some (st.sweep.toNat, some k) → spoilable s k = true → cycleState s k ≠ Px.armed
      → Does (.statusRx n st) s fun t => t.on (STN_LERR_DAMAGED n) = true ∧ ctxState t k = Px.spoiled) ∧
    ((linkU s n).step = 6 → linkState s n = Lk.up → st.sweep = 0xFFFFFFFF#32 → st.sensorFault = false → st.lock =
      false → (s.stnU n).active.num = 0 ∨ sext 16 st.headT.toNat < (s.stnU n).active.htCrit → Does (.statusRx n
      st) s fun t => linkState t n = Lk.prbs ∧ t.g (STN_LSTAT_CAUSE n) = 5) ∧
    ((linkU s n).step = 5 → st.sweep = 0xFFFFFFFF#32 → st.sensorFault = false → (s.stnU n).active.num = 0 ∨ sext
      16 st.headT.toNat < (s.stnU n).active.htCrit → (linkU s n).waiting.all (fun c => acked st.ackSeq.toNat
      c.seq) = true → Does (.statusRx n st) s fun t => linkState t n = Lk.up ∧ (linkU t n).step = 6 ∧ (linkU t
      n).waiting = []) ∧
    ((linkU s n).step = 6 → st.damaged = false → st.sensorFault = false → st.lock = true → st.late = false →
      st.dark = false → (s.stnU n).active.num = 0 ∨ sext 16 st.headT.toNat < (s.stnU n).active.htCrit → burst s n
      = false → (linkU s n).unreported.find? (fun x => x.1 == st.sweep.toNat) = none → Does (.statusRx n st) s fun
      t => (linkU t n).unrep = (linkU s n).unrep ∧ (linkU t n).unreported = (linkU s n).unreported ∧ (linkU t
      n).recent = (linkU s n).recent) ∧
    (2 ≤ (linkU s n).step → Does (.healthRx n e b) s fun t => (t.stnU n).health = Nat.lor (s.stnU n).health (2 ^
      e.val) ∧ t.on (STN_ESTAT_EMITTER_FAIL n) = true ∧ t.ctx = s.ctx) ∧
    ((linkU s n).version = 0x0200 → (linkU s n).agreed = true → Does (.livRx n e vf power) s fun t => t.g
      (STN_LIV_VF n e) = vf.toNat ∧ t.g (STN_LIV_POWER n e) = power.toNat ∧ t.stn = s.stn ∧ t.out = s.out ∧
      OnlyRegs [STN_LIV n e] s t) ∧
    ((linkU s n).waiting.find? (fun c => c.seq == seq.toNat) = some c → c.resends < 3 → (linkU s n).sending = [] →
      Does (.controlResendTimeout n seq) s fun t => t.out = s.out ++ [.packet n c.bytes] ∧ t.on (STN_LERR_RESEND
      n) = true ∧ OnlyRegs [STN_LERR n] s t) ∧
    ((linkU s n).waiting.find? (fun c => c.seq == seq.toNat) = some c → 3 ≤ c.resends → c.ty = 0x11 ∨ (linkU s
      n).step = 5 → Does (.controlResendTimeout n seq) s fun t => linkState t n = Lk.wait ∧ t.g (STN_LSTAT_CAUSE
      n) = (if c.ty = 0x11 then 3 else 7) ∧ t.out = s.out) ∧
    ((linkU s n).waiting.find? (fun c => c.seq == seq.toNat) = some c → 3 ≤ c.resends → c.ty ≠ 0x11 → (linkU s
      n).step = 6 → linkState s n = Lk.up → Does (.controlResendTimeout n seq) s fun t => linkState t n = Lk.prbs
      ∧ t.g (STN_LSTAT_CAUSE n) = 7) ∧
    ((linkU s n).unreported = x :: r → 2 ≤ sext 28 ((s.g (STN_SWEEPNO_COUNT n) + 2 ^ 28 - x.1 % 2 ^ 28) % 2 ^ 28)
      → (linkU s n).unrep < 7 → Does (.sweepUnreported n) s fun t => (linkU t n).unreported = r ∧ (linkU t
      n).unrep = (linkU s n).unrep + 1 ∧ t.on (STN_LERR_UNREPORTED n) = true ∧ t.out = s.out ∧ OnlyRegs [STN_LERR
      n] s t) ∧
    ((linkU s n).unreported = x :: r → 2 ≤ sext 28 ((s.g (STN_SWEEPNO_COUNT n) + 2 ^ 28 - x.1 % 2 ^ 28) % 2 ^ 28)
      → 7 ≤ (linkU s n).unrep → linkState s n = Lk.up → Does (.sweepUnreported n) s fun t => (linkU t n).unrep =
      (linkU s n).unrep + 1 ∧ t.on (STN_HEAD_DARK n) = true) ∧
    (dueCtx s n = some k → carriedGen s n k = some g → linkState s n = Lk.up → (linkU s n).loading = none → s.on
      (STN_STAT_OCCUPIED n) = false → bankOf s n g.id = none → (linkU s n).lastSweep = none → (linkU s n).sending
      = [] → Does (.bankLoadStart n) s fun t => (linkU t n).loading = some (1 - s.g (STN_LSTAT_BANK n), g.id) ∧
      t.out.length = s.out.length + 2 ∧ t.regs = s.regs) ∧
    (linkState s n = Lk.up → (linkU s n).version = 0x0200 → (s.stnU n).active.liv = true → s.on (STN_DCAP1_LIV n)
      = true → s.on (STN_STAT_OCCUPIED n) = false → (linkU s n).sending = [] → Does (.livReqSend n) s fun t =>
      t.out = s.out ++ [.packet n (packetBytes (linkU s n) 0x15 0 0 (leBytes 1 0xFF ++ leBytes 7 0))] ∧ (linkU t
      n).waiting.length = (linkU s n).waiting.length + 1 ∧ t.regs = s.regs) ∧
    (2 ≤ (linkU s n).step → burst (modLink n (fun l =>
      { l with

          recent := if l.recent = [] then [(s.g (STN_SWEEPNO_COUNT n), false, 1)] else l.recent.modifyHead (fun e => (e.1, e.2.1, e.2.2 + 1)) })
      s) n = false → Does (.backPacketDiscard n) s fun t => t.on (STN_LERR_BACK_CRC n) = true ∧ t.g
      (STN_LCOUNT_BACK_CRC n) = min (2 ^ (STN_LCOUNT_BACK_CRC n).w - 1) (s.g (STN_LCOUNT_BACK_CRC n) + 1) ∧ t.out
      = s.out ∧ OnlyRegs [STN_LERR n, STN_LCOUNT n] s t)

/-- ENABLE in OFF with a legal configuration takes an FOC channel to SENSE, its loop at rest; an illegal one sets
CFG_ERR and changes nothing else. STOP in RUN or REACQ, or ENABLE cleared in RUN, begins the controlled stop from
the present speed; a starting channel turns OFF at once, as does one in REACQ whose ENABLE clears. CLEAR leaves a
FAULT whose cause has gone, with ENABLE cleared; while that cause holds it is ignored and sets CFG_ERR. STOPPING in
its active short ends OFF. A command pin takes x from its voltage, duty or frequency, which ends a loss; a loss in
duty mode sets LOSS and makes Y the setpoint held or the offset, as LOSS_ACT has it, and marks the channel that
selects the pin, which with LOSS_ACT 2 stops. Where no polygon lock is lost, only the registers named change.
(10_motors_foc.md, Outputs, sensing and the current loop, 10_motors_foc.md, Setpoint sources and command pins,
10_motors_foc.md, Channel states, 10_motors_foc.md, Faults and stopping) -/
def Obligations.MotorControl : Prop :=
  ∀ (s : State) (n : Fin 24) (k : Fin 8) (a : BitVec 32) (b : BitVec 32) (v : Word),
    (Reaches s (MC_CTRL n) → fieldOf (MC_CTRL_ENABLE n) v = 1 → fieldOf (MC_CTRL_STOP n) v = 0 → mcState s n =
      Mcs.off → mcEnableOk s n = true → Does (.mcEnable n v) s fun t => mcState t n = Mcs.sense ∧ t.on
      (MC_CTRL_ENABLE n) = true ∧ mcU t n =
      { drvLow := (mcU s n).drvLow, setp := (mcU s n).setp, why := (mcU s n).why,
        taken := (mcTakenRegs n).map (fun r => (r, t.reg r)) } ∧ t.out = s.out ∧ OnlyRegs [MC_CTRL n, MC_STAT n] s
      t) ∧
    (Reaches s (MC_CTRL n) → fieldOf (MC_CTRL_ENABLE n) v = 1 → mcState s n = Mcs.off → mcEnableOk s n = false →
      Does (.mcEnable n v) s fun t => t.on (MC_STAT_CFG_ERR n) = true ∧ mcState t n = Mcs.off ∧ t.mot = s.mot ∧
      t.out = s.out ∧ OnlyRegs [MC_STAT n] s t) ∧
    (Reaches s (MC_CTRL n) → fieldOf (MC_CTRL_ENABLE n) v = 0 → fieldOf (MC_CTRL_STOP n) v = 0 → s.on
      (MC_CTRL_ENABLE n) = true → mcState s n = Mcs.run → Does (.mcDisable n v) s fun t => mcState t n =
      Mcs.stopping ∧ t.on (MC_CTRL_ENABLE n) = false ∧ (mcU t n).stopFrom = s.gi (MC_SPEED_RPM n) ∧ (mcU t
      n).short = false ∧ (s.on (MC_STAT_LOCKED n) = false → t.out = s.out ∧ OnlyRegs [MC_CTRL n, MC_STAT n] s t))
      ∧
    (Reaches s (MC_CTRL n) → fieldOf (MC_CTRL_ENABLE n) v = 0 → fieldOf (MC_CTRL_STOP n) v = 0 → s.on
      (MC_CTRL_ENABLE n) = true → 1 ≤ mcState s n ∧ mcState s n ≤ Mcs.open_ ∨ mcState s n = Mcs.reacq → Does
      (.mcDisable n v) s fun t => mcState t n = Mcs.off ∧ t.on (MC_CTRL_ENABLE n) = false ∧ (mcU t n).duty = none)
      ∧
    (Reaches s (MC_CTRL n) → fieldOf (MC_CTRL_ENABLE n) v = 1 → s.on (MC_CTRL_ENABLE n) = true → fieldOf
      (MC_CTRL_STOP n) v = 1 → mcState s n = Mcs.run ∨ mcState s n = Mcs.reacq → Does (.mcStop n v) s fun t =>
      mcState t n = Mcs.stopping ∧ t.on (MC_CTRL_STOP n) = true ∧ (mcU t n).stopFrom = s.gi (MC_SPEED_RPM n) ∧
      (mcU t n).stopN = 0 ∧ (s.on (MC_STAT_LOCKED n) = false → t.out = s.out ∧ OnlyRegs [MC_CTRL n, MC_STAT n] s
      t)) ∧
    (Reaches s (MC_CTRL n) → fieldOf (MC_CTRL_ENABLE n) v = 1 → s.on (MC_CTRL_ENABLE n) = true → fieldOf
      (MC_CTRL_STOP n) v = 1 → 1 ≤ mcState s n → mcState s n ≤ Mcs.open_ → Does (.mcStop n v) s fun t => mcState t
      n = Mcs.off ∧ t.on (MC_CTRL_STOP n) = false ∧ (mcU t n).duty = none) ∧
    (Reaches s (MC_CTRL n) → fieldOf (MC_CTRL_CLEAR n) v = 1 → mcState s n = Mcs.fault → (mcU s n).drvLow = false
      → (mcU s n).why ≠ 2 ∨ (mcU s n).overCur = false → Does (.mcClear n v) s fun t => mcState t n = Mcs.off ∧
      t.on (MC_CTRL_ENABLE n) = false ∧ (s.on (MC_STAT_LOCKED n) = false → t.out = s.out ∧ OnlyRegs [MC_CTRL n,
      MC_STAT n] s t)) ∧
    (Reaches s (MC_CTRL n) → fieldOf (MC_CTRL_CLEAR n) v = 1 → mcState s n = Mcs.fault → (mcU s n).why = 1 ∧ (mcU
      s n).drvLow = true ∨ (mcU s n).why = 2 ∧ (mcU s n).overCur = true → Does (.mcClear n v) s fun t => mcState t
      n = Mcs.fault ∧ t.on (MC_STAT_CFG_ERR n) = true ∧ t.mot = s.mot ∧ t.out = s.out ∧ OnlyRegs [MC_CTRL n,
      MC_STAT n] s t) ∧
    (s.dead = false → mcState s n = Mcs.stopping → (mcU s n).short = true → Does (.mcStopDone n) s fun t =>
      mcState t n = Mcs.off ∧ t.on (MC_CTRL_STOP n) = false ∧ (mcU t n).short = false ∧ (mcU t n).inWin = 0 ∧
      (s.on (MC_STAT_LOCKED n) = false → t.out = s.out ∧ OnlyRegs [MC_CTRL n, MC_STAT n] s t)) ∧
    (s.dead = false → s.g (CMD_CFG_MODE k) = 1 → Does (.cmdPinPeriod k a b) s fun t => t.g (CMD_STAT_X k) =
      a.toNat % 4096 * 64 ∧ cmdU t k = {} ∧ t.out = s.out ∧ OnlyRegs [CMD_STAT k] s t) ∧
    (s.dead = false → s.g (CMD_CFG_MODE k) = 2 → b ≠ 0#32 → Does (.cmdPinPeriod k a b) s fun t => t.g (CMD_STAT_X
      k) = min 262144 (roundDiv ((a.toNat * 262144 : Nat) : Int) b.toNat).toNat ∧ cmdU t k = {} ∧ t.out = s.out ∧
      OnlyRegs [CMD_STAT k] s t) ∧
    (s.dead = false → s.g (CMD_CFG_MODE k) = 3 → Does (.cmdPinPeriod k a b) s fun t => t.g (CMD_STAT_X k) = (if
      a.toNat < 500 then 0 else if 10 * s.g (CMD_CFG_FS_HZ k) ≤ a.toNat then 262144 else (roundDiv ((a.toNat *
      262144 : Nat) : Int) ((10 * s.g (CMD_CFG_FS_HZ k) : Nat) : Int)).toNat) ∧ t.out = s.out ∧ OnlyRegs [CMD_STAT
      k] s t) ∧
    (s.dead = false → s.g (CMD_CFG_MODE k) = 2 → (cmdU s k).lost = false → selecting s k = [] → Does
      (.cmdLossTimeout k) s fun t => cmdU t k = ⟨true, cmdYof s k⟩ ∧ t.on (CMD_STAT_LOSS k) = true ∧ cmdY t k =
      (if s.g (CMD_CFG_LOSS_ACT k) = 1 then s.gi (CMD_OFFSET_OFFSET k) else cmdYof s k) ∧ t.out = s.out ∧ OnlyRegs
      [CMD_STAT k] s t) ∧
    (s.dead = false → s.g (CMD_CFG_MODE k) = 2 → (cmdU s k).lost = false → s.g (CMD_CFG_LOSS_ACT k) ≠ 2 ∨ mcState
      s n = Mcs.run → selecting s k = [n.val] → Does (.cmdLossTimeout k) s fun t => t.on (MC_STAT_CMD_LOSS n) =
      true ∧ t.g (MC_STAT_CAUSE n) = 7 ∧ mcState t n = (if s.g (CMD_CFG_LOSS_ACT k) = 2 ∧ mcState s n = Mcs.run
      then Mcs.stopping else mcState s n) ∧ cmdU t k = ⟨true, cmdYof s k⟩)

/-- SENSE ends in RUN, with the speed and angle found, where the rotor already turns forward fast enough, in IPD
where it stands, in BRAKE otherwise; BRAKE ends in IPD, which sends its test vectors. An attempt of IPD with enough
contrast ends in OPEN at the angle of the shortest pulse; one without is tried again up to RETRY times, and then is
a FAULT. A period whose currents are within OCTRIP shows the speed, takes the angle, and shows I_d and I_q at it, or
in OPEN at the angle of the vector it turns; outside RUN, OPEN and STOPPING the state stays; in OPEN it stays until
the frequency has reached F_HAND and the observer has been locked for 64 periods, and then runs; in RUN it applies
the duties found in the period before and finds the next, and a lost observer ends in REACQ; in STOPPING a rotor too
slow goes to the active short. A current beyond OCTRIP is a FAULT. A window of REACQ that finds the rotor fast
enough runs again. Timeouts and a low driver line are FAULTs with their causes; a FAULT turns the outputs off, and
shows its event. Where SENSE, BRAKE, an attempt of IPD or a period ends neither in FAULT nor in an observer loss, no
register changes but the channel's status, speed and currents. (10_motors_foc.md, Outputs, sensing and the current
loop, 10_motors_foc.md, Channel states, 10_motors_foc.md, Start, catch and brake, 10_motors_foc.md, Observer loss
and re-acquisition, 10_motors_foc.md, Faults and stopping) -/
def Obligations.MotorRunning : Prop :=
  ∀ (s : State) (n : Fin 24) (x : PwmSample) (emf : Bool) (hz : BitVec 16) (a : List Nat) (ts : List (List Nat)) (th : BitVec 20),
    s.dead = false →
    (mcState s n = Mcs.sense → emf = true → (mcIn s n (MC_FREQ_F_CATCH n) : Int) ≤ sext 16 hz.toNat → Does
      (.mcSenseDone n emf hz th) s fun t => mcState t n = Mcs.run ∧ t.gi (MC_SPEED_RPM n) = rpmOf s n (sext 16
      hz.toNat) ∧ (mcU t n).theta = sext 20 th.toNat ∧ t.out = s.out ∧ OnlyRegs [MC_STAT n, MC_SPEED n] s t) ∧
    (mcState s n = Mcs.sense → emf = false ∨ ((sext 16 hz.toNat).natAbs < mcIn s n (MC_FREQ_F_STILL n) ∧ mcIn s n
      (MC_FREQ_F_STILL n) ≤ mcIn s n (MC_FREQ_F_CATCH n)) → Does (.mcSenseDone n emf hz th) s fun t => mcState t n
      = Mcs.ipd ∧ (mcU t n).tries = 0 ∧ t.out = s.out ++ (if ((List.range 6).any fun k => s.mapped 0x10 n k) then
      [.testVectors n testAngles (3 * mcIn s n (MC_OCTRIP_OCTRIP n)) (mcIn s n (MC_START_TPULSE n))] else []) ∧
      OnlyRegs [MC_STAT n] s t) ∧
    (mcState s n = Mcs.sense → emf = true → sext 16 hz.toNat < (mcIn s n (MC_FREQ_F_CATCH n) : Int) → mcIn s n
      (MC_FREQ_F_STILL n) ≤ (sext 16 hz.toNat).natAbs → Does (.mcSenseDone n emf hz th) s fun t => mcState t n =
      Mcs.brake ∧ (mcU t n).duty = none ∧ t.out = s.out ∧ OnlyRegs [MC_STAT n] s t) ∧
    (mcState s n = Mcs.brake → Does (.mcBrakeStill n) s fun t => mcState t n = Mcs.ipd ∧ (mcU t n).tries = 0 ∧
      t.out = s.out ++ (if ((List.range 6).any fun k => s.mapped 0x10 n k) then [.testVectors n testAngles (3 *
      mcIn s n (MC_OCTRIP_OCTRIP n)) (mcIn s n (MC_START_TPULSE n))] else []) ∧ OnlyRegs [MC_STAT n] s t) ∧
    (mcState s n = Mcs.ipd → contrastOk s n (pulseTimes s n a) = true → Does (.mcIpdDone n (a :: ts)) s fun t =>
      mcState t n = Mcs.open_ ∧ (mcU t n).pos = posOf (pulseTimes s n a) ∧ (mcU t n).openN = 0 ∧ t.out = s.out ∧
      OnlyRegs [MC_STAT n] s t) ∧
    (mcState s n = Mcs.ipd → contrastOk s n (pulseTimes s n a) = false → (mcU s n).tries < mcIn s n
      (MC_START_RETRY n) → Does (.mcIpdDone n [a]) s fun t => mcState t n = Mcs.ipd ∧ (mcU t n).tries = (mcU s
      n).tries + 1 ∧ t.out = s.out ++ (if ((List.range 6).any fun k => s.mapped 0x10 n k) then [.testVectors n
      testAngles (3 * mcIn s n (MC_OCTRIP_OCTRIP n)) (mcIn s n (MC_START_TPULSE n))] else []) ∧ t.regs = s.regs) ∧
    (mcState s n = Mcs.ipd → contrastOk s n (pulseTimes s n a) = false → mcIn s n (MC_START_RETRY n) ≤ (mcU s
      n).tries → Does (.mcIpdDone n (a :: ts)) s fun t => mcState t n = Mcs.fault ∧ t.g (MC_STAT_CAUSE n) = 3 ∧
      (mcU t n).duty = none ∧ Out.event (.mcFault n) ∈ shown s t) ∧
    (mcState s n = Mcs.brake ∨ mcState s n = Mcs.open_ → Does (.mcStartTimeout n) s fun t => mcState t n =
      Mcs.fault ∧ t.g (MC_STAT_CAUSE n) = (if mcState s n = Mcs.brake then 6 else 4) ∧ (mcU t n).duty = none ∧
      Out.event (.mcFault n) ∈ shown s t) ∧
    (mcState s n = Mcs.reacq → Does (.mcReacqTimeout n) s fun t => mcState t n = Mcs.fault ∧ t.g (MC_STAT_CAUSE n)
      = 5 ∧ (mcU t n).duty = none ∧ Out.event (.mcFault n) ∈ shown s t) ∧
    (mcState s n = Mcs.reacq → (mcIn s n (MC_FREQ_F_CATCH n) : Int) ≤ sext 16 hz.toNat → Does (.mcReacqWindow n hz
      th) s fun t => mcState t n = Mcs.run ∧ t.gi (MC_SPEED_RPM n) = rpmOf s n (sext 16 hz.toNat) ∧ (mcU t
      n).theta = sext 20 th.toNat ∧ (mcU t n).bad = 0) ∧
    (mcState s n = Mcs.reacq → sext 16 hz.toNat < (mcIn s n (MC_FREQ_F_CATCH n) : Int) → Does (.mcReacqWindow n hz
      th) s fun t => t = s) ∧
    (n.val < s.part.foc → s.mapped 0x10 n 6 = true → mcState s n ≠ Mcs.fault → Does (.mcDriverFault n true) s fun
      t => mcState t n = Mcs.fault ∧ t.g (MC_STAT_CAUSE n) = 1 ∧ (mcU t n).duty = none ∧ Out.event (.mcFault n) ∈
      shown s t ∧ (mcU t n).drvLow = true) ∧
    (n.val < s.part.foc → s.mapped 0x10 n 6 = true → Does (.mcDriverFault n false) s fun t => (mcU t n).drvLow =
      false ∧ t.regs = s.regs ∧ t.out = s.out) ∧
    ((sext 20 x.iu.toNat).natAbs ≤ s.g (MC_OCTRIP_OCTRIP n) → (sext 20 x.iv.toNat).natAbs ≤ s.g (MC_OCTRIP_OCTRIP
      n) → ((if s.on (MC_SENSE_W_EN n) then sext 20 x.iw.toNat else -(sext 20 x.iu.toNat) - sext 20
      x.iv.toNat)).natAbs ≤ s.g (MC_OCTRIP_OCTRIP n) → mcState s n = Mcs.sense ∨ mcState s n = Mcs.brake ∨ mcState
      s n = Mcs.ipd ∨ mcState s n = Mcs.reacq → Does (.mcPwmPeriod n x) s fun t => mcState t n = mcState s n ∧
      t.gi (MC_SPEED_RPM n) = sext 20 x.rpm.toNat ∧ (mcU t n).theta = sext 20 x.theta.toNat ∧ (mcU t n).overCur =
      false ∧ t.gi (MC_ID_ID n) = (dqOf s n x (sext 20 x.theta.toNat)).1 ∧ t.gi (MC_IQ_IQ n) = (dqOf s n x (sext
      20 x.theta.toNat)).2 ∧ OnlyRegs [MC_SPEED n, MC_ID n, MC_IQ n, MC_STAT n] s t) ∧
    ((sext 20 x.iu.toNat).natAbs ≤ s.g (MC_OCTRIP_OCTRIP n) → (sext 20 x.iv.toNat).natAbs ≤ s.g (MC_OCTRIP_OCTRIP
      n) → ((if s.on (MC_SENSE_W_EN n) then sext 20 x.iw.toNat else -(sext 20 x.iu.toNat) - sext 20
      x.iv.toNat)).natAbs ≤ s.g (MC_OCTRIP_OCTRIP n) → mcState s n = Mcs.run → x.residual.toNat ≤ s.g
      (MC_OBS_RES_LIMIT n) → slower s n (sext 20 x.rpm.toNat) (s.g (MC_FREQ_F_CATCH n)) = false → Does
      (.mcPwmPeriod n x) s fun t => mcState t n = Mcs.run ∧ t.gi (MC_SPEED_RPM n) = sext 20 x.rpm.toNat ∧ (mcU t
      n).theta = sext 20 x.theta.toNat ∧ (mcU t n).duty.isSome = true ∧ t.out = s.out ++ (if ((List.range 6).any
      fun k => s.mapped 0x10 n k) then ((mcU s n).duty.map fun h => Out.duty n h.1 h.2.1 h.2.2).toList else []) ∧
      OnlyRegs [MC_SPEED n, MC_ID n, MC_IQ n, MC_STAT n] s t) ∧
    ((sext 20 x.iu.toNat).natAbs ≤ s.g (MC_OCTRIP_OCTRIP n) → (sext 20 x.iv.toNat).natAbs ≤ s.g (MC_OCTRIP_OCTRIP
      n) → ((if s.on (MC_SENSE_W_EN n) then sext 20 x.iw.toNat else -(sext 20 x.iu.toNat) - sext 20
      x.iv.toNat)).natAbs ≤ s.g (MC_OCTRIP_OCTRIP n) → mcState s n = Mcs.run → slower s n (sext 20 x.rpm.toNat)
      (s.g (MC_FREQ_F_CATCH n)) = true → Does (.mcPwmPeriod n x) s fun t => mcState t n = Mcs.reacq ∧ t.g
      (MC_STAT_CAUSE n) = 5 ∧ t.on (MC_STAT_OBS_LOSS n) = true ∧ (mcU t n).bad = 0) ∧
    ((sext 20 x.iu.toNat).natAbs ≤ s.g (MC_OCTRIP_OCTRIP n) → (sext 20 x.iv.toNat).natAbs ≤ s.g (MC_OCTRIP_OCTRIP
      n) → ((if s.on (MC_SENSE_W_EN n) then sext 20 x.iw.toNat else -(sext 20 x.iu.toNat) - sext 20
      x.iv.toNat)).natAbs ≤ s.g (MC_OCTRIP_OCTRIP n) → mcState s n = Mcs.open_ → ¬ (s.g (MC_FREQ_F_HAND n) * (s.g
      (MC_PWM_FREQ n) * 100) ≤ s.g (MC_RAMP_ACCEL n) * 10 * ((mcU s n).openN + 1) ∧ 64 ≤ (if x.residual.toNat <
      s.g (MC_OBS_RES_LIMIT n) then (mcU s n).good + 1 else 0)) → Does (.mcPwmPeriod n x) s fun t => mcState t n =
      Mcs.open_ ∧ (mcU t n).openN = (mcU s n).openN + 1 ∧ t.gi (MC_SPEED_RPM n) = sext 20 x.rpm.toNat ∧ (mcU t
      n).theta = sext 20 x.theta.toNat ∧ (mcU t n).duty.isSome = true ∧ t.gi (MC_ID_ID n) = (dqOf s n x (openAngle
      s n)).1 ∧ t.gi (MC_IQ_IQ n) = (dqOf s n x (openAngle s n)).2 ∧ t.out = s.out ++ (if ((List.range 6).any fun
      k => s.mapped 0x10 n k) then ((mcU s n).duty.map fun h => Out.duty n h.1 h.2.1 h.2.2).toList else []) ∧
      OnlyRegs [MC_SPEED n, MC_ID n, MC_IQ n, MC_STAT n] s t) ∧
    ((sext 20 x.iu.toNat).natAbs ≤ s.g (MC_OCTRIP_OCTRIP n) → (sext 20 x.iv.toNat).natAbs ≤ s.g (MC_OCTRIP_OCTRIP
      n) → ((if s.on (MC_SENSE_W_EN n) then sext 20 x.iw.toNat else -(sext 20 x.iu.toNat) - sext 20
      x.iv.toNat)).natAbs ≤ s.g (MC_OCTRIP_OCTRIP n) → mcState s n = Mcs.open_ → s.g (MC_FREQ_F_HAND n) * (s.g
      (MC_PWM_FREQ n) * 100) ≤ s.g (MC_RAMP_ACCEL n) * 10 * ((mcU s n).openN + 1) → 64 ≤ (if x.residual.toNat <
      s.g (MC_OBS_RES_LIMIT n) then (mcU s n).good + 1 else 0) → Does (.mcPwmPeriod n x) s fun t => mcState t n =
      Mcs.run ∧ t.gi (MC_SPEED_RPM n) = sext 20 x.rpm.toNat ∧ (mcU t n).theta = sext 20 x.theta.toNat ∧ (mcU t
      n).bad = 0 ∧ t.out = s.out ++ (if ((List.range 6).any fun k => s.mapped 0x10 n k) then ((mcU s n).duty.map
      fun h => Out.duty n h.1 h.2.1 h.2.2).toList else []) ∧ OnlyRegs [MC_SPEED n, MC_ID n, MC_IQ n, MC_STAT n] s
      t) ∧
    ((sext 20 x.iu.toNat).natAbs ≤ s.g (MC_OCTRIP_OCTRIP n) → (sext 20 x.iv.toNat).natAbs ≤ s.g (MC_OCTRIP_OCTRIP
      n) → ((if s.on (MC_SENSE_W_EN n) then sext 20 x.iw.toNat else -(sext 20 x.iu.toNat) - sext 20
      x.iv.toNat)).natAbs ≤ s.g (MC_OCTRIP_OCTRIP n) → mcState s n = Mcs.stopping → (mcU s n).short = false →
      slower s n (sext 20 x.rpm.toNat) (s.g (MC_FREQ_F_CATCH n)) = true → Does (.mcPwmPeriod n x) s fun t =>
      mcState t n = Mcs.stopping ∧ (mcU t n).short = true ∧ (mcU t n).duty = none ∧ t.gi (MC_ID_ID n) = (dqOf s n
      x (sext 20 x.theta.toNat)).1 ∧ t.gi (MC_IQ_IQ n) = (dqOf s n x (sext 20 x.theta.toNat)).2 ∧ t.out = s.out ++
      (if ((List.range 6).any fun k => s.mapped 0x10 n k) then ((mcU s n).duty.map fun h => Out.duty n h.1 h.2.1
      h.2.2).toList else []) ∧ OnlyRegs [MC_SPEED n, MC_ID n, MC_IQ n, MC_STAT n] s t) ∧
    (s.g (MC_OCTRIP_OCTRIP n) < (sext 20 x.iu.toNat).natAbs ∨ s.g (MC_OCTRIP_OCTRIP n) < (sext 20
      x.iv.toNat).natAbs ∨ s.g (MC_OCTRIP_OCTRIP n) < ((if s.on (MC_SENSE_W_EN n) then sext 20 x.iw.toNat else
      -(sext 20 x.iu.toNat) - sext 20 x.iv.toNat)).natAbs → mcState s n ≠ Mcs.off → mcState s n ≠ Mcs.fault → Does
      (.mcPwmPeriod n x) s fun t => mcState t n = Mcs.fault ∧ t.g (MC_STAT_CAUSE n) = 2 ∧ (mcU t n).duty = none ∧
      Out.event (.mcFault n) ∈ shown s t ∧ (mcU t n).overCur = true)

/-- ENABLE in OFF takes an axis whose STEP ball is mapped, with PMAX and a TH of at least 10, to IDLE at MINLEVEL,
its first edge held off by TEN; otherwise CFG_ERR is set and it stays OFF. GO in IDLE, with the limits a move may
have, starts a velocity move in VDIR or a position move over its distance with RESULT 0, or waits for the start
input with WAIT_EV; without them RESULT is PARAM and nothing moves. GO of a member of a group is refused with BUSY
while its group is idle. STOP ends a waiting move, ahead of a TARGET written in its tick, which is then taken, and
decelerates a moving one, and GO beside it is refused with BAD_STATE; ENABLE cleared turns a still axis OFF and
stops a moving one first; a member that is stopped brings its group down (assumption log 86). CLEAR in FAULT returns
to IDLE. TARGET is written only while no move is latched or under way; a profile value that no move may have is
refused during one with PARAM, any other is taken. Where a clause names a move under way, the move does not reach
its target in the same tick, and its GO is not of that tick. (11_step_motion.md, Outputs and pulse timing,
11_step_motion.md, Moves, 11_step_motion.md, Axis groups, 11_step_motion.md, Encoder feedback, 11_step_motion.md,
Axis registers) -/
def Obligations.AxisControl : Prop :=
  ∀ (s : State) (n : Fin 48) (k : Fin 3) (v : Word) (w : Word),
    (Reaches s (AX_CTRL n) → joinOk s n v = true → fieldOf (AX_CTRL_ENABLE n) v = 1 → fieldOf (AX_CTRL_STOP n) v =
      0 → fieldOf (AX_CTRL_GO n) v = 0 → axState s n = Axs.off → s.mapped 0x12 n 0 = true → s.g (AX_MSTEP_PMAX n)
      ≠ 0 → 10 ≤ s.g (AX_TIMING_TH n) → Does (.axisEnable n v) s fun t => axState t n = Axs.idle ∧ t.on
      (AX_CTRL_ENABLE n) = true ∧ t.g (AX_STAT_LEVEL n) = s.g (AX_MSTEP_MINLEVEL n) ∧ (axU t n).wait = 10000 * s.g
      (AX_TIMING_TEN n) ∧ t.out = s.out ∧ OnlyRegs ([AX_CTRL n, AX_STAT n, AX_EPOS n] ++ (List.range 8).map
      AG_STAT) s t) ∧
    (Reaches s (AX_CTRL n) → joinOk s n v = true → fieldOf (AX_CTRL_ENABLE n) v = 1 → fieldOf (AX_CTRL_STOP n) v =
      0 → fieldOf (AX_CTRL_GO n) v = 0 → axState s n = Axs.off → s.on (AX_CTRL_ENABLE n) = false → s.mapped 0x12 n
      0 = false ∨ s.g (AX_MSTEP_PMAX n) = 0 ∨ s.g (AX_TIMING_TH n) < 10 → Does (.axisEnable n v) s fun t =>
      axState t n = Axs.off ∧ t.on (AX_STAT_CFG_ERR n) = true ∧ t.on (AX_CTRL_ENABLE n) = false ∧ t.mot = s.mot ∧
      t.out = s.out ∧ OnlyRegs ([AX_CTRL n, AX_STAT n] ++ (List.range 8).map AG_STAT) s t) ∧
    (Reaches s (AX_CTRL n) → joinOk s n v = true → fieldOf (AX_CTRL_ENABLE n) v = 0 → fieldOf (AX_CTRL_CLEAR n) v
      = 0 → fieldOf (AX_CTRL_STOP n) v = 0 → fieldOf (AX_CTRL_GO n) v = 0 → axState s n = Axs.idle → Does
      (.axisDisable n v) s fun t => axState t n = Axs.off ∧ t.on (AX_CTRL_ENABLE n) = false ∧ t.mot = s.mot ∧
      t.out = s.out ∧ OnlyRegs ([AX_CTRL n, AX_STAT n] ++ (List.range 8).map AG_STAT) s t) ∧
    (Reaches s (AX_CTRL n) → joinOk s n v = true → fieldOf (AX_CTRL_ENABLE n) v = 0 → fieldOf (AX_CTRL_CLEAR n) v
      = 0 → fieldOf (AX_CTRL_STOP n) v = 0 → fieldOf (AX_CTRL_GO n) v = 0 → axState s n = Axs.moving → atTarget s
      n = false → (axU s n).byGroup = false → (axU s n).goTick = false → (axU s n).calls = [] → (axU s n).ended =
      none → (agU s (s.g (AX_CTRL_GROUP n))).ended = none → Does (.axisDisable n v) s fun t => axState t n =
      Axs.stopping ∧ (axU t n).disable = true ∧ (axU t n).vel = (axU s n).vel ∧ t.out = s.out ∧ OnlyRegs ([AX_CTRL
      n, AX_STAT n] ++ (List.range 8).map AG_STAT) s t) ∧
    (Reaches s (AX_CTRL n) → joinOk s n v = true → fieldOf (AX_CTRL_ENABLE n) v = 1 → fieldOf (AX_CTRL_CLEAR n) v
      = 0 → fieldOf (AX_CTRL_STOP n) v = 0 → fieldOf (AX_CTRL_GO n) v = 1 → fieldOf (AX_CTRL_MODE n) v = 1 →
      fieldOf (AX_CTRL_WAIT_EV n) v = 0 → fieldOf (AX_CTRL_IN_GROUP n) v = 0 → axState s n = Axs.idle → (axU s
      n).stopTick = false → s.psq.stopInForce = false → goParam s n (s.g (AX_VMAX_VMAX n)) (s.g (AX_ACCEL_ACCEL
      n)) (s.g (AX_DECEL_DECEL n)) 1 1 false = false → Does (.axisGo n v) s fun t => axState t n = Axs.moving ∧
      t.g (AX_STAT_RESULT n) = Sts.ok ∧ (axU t n).velMode = true ∧ (axU t n).fwd = decide (fieldOf (AX_CTRL_VDIR
      n) v = 0) ∧ (axU t n).vel = 0 ∧ t.out = s.out ∧ OnlyRegs ([AX_CTRL n, AX_STAT n] ++ (List.range 8).map
      AG_STAT) s t) ∧
    (Reaches s (AX_CTRL n) → joinOk s n v = true → fieldOf (AX_CTRL_ENABLE n) v = 1 → fieldOf (AX_CTRL_CLEAR n) v
      = 0 → fieldOf (AX_CTRL_STOP n) v = 0 → fieldOf (AX_CTRL_GO n) v = 1 → fieldOf (AX_CTRL_MODE n) v = 0 →
      fieldOf (AX_CTRL_REL n) v = s.g (AX_CTRL_REL n) → fieldOf (AX_CTRL_WAIT_EV n) v = 0 → fieldOf
      (AX_CTRL_IN_GROUP n) v = 0 → axState s n = Axs.idle → (axU s n).stopTick = false → s.psq.stopInForce = false
      → goParam s n (s.g (AX_VMAX_VMAX n)) (s.g (AX_ACCEL_ACCEL n)) (s.g (AX_DECEL_DECEL n)) 1 1 true = false →
      Does (.axisGo n v) s fun t => axState t n = Axs.moving ∧ t.g (AX_STAT_RESULT n) = Sts.ok ∧ (axU t n).velMode
      = false ∧ (axU t n).dist = (axDelta s n).natAbs ∧ (axU t n).fwd = decide (0 ≤ axDelta s n) ∧ t.reg (AX_POS
      n) = s.reg (AX_POS n) ∧ t.out = s.out ∧ OnlyRegs ([AX_CTRL n, AX_STAT n] ++ (List.range 8).map AG_STAT) s t)
      ∧
    (Reaches s (AX_CTRL n) → joinOk s n v = true → fieldOf (AX_CTRL_ENABLE n) v = 1 → fieldOf (AX_CTRL_CLEAR n) v
      = 0 → fieldOf (AX_CTRL_STOP n) v = 0 → fieldOf (AX_CTRL_GO n) v = 1 → fieldOf (AX_CTRL_MODE n) v = 1 →
      fieldOf (AX_CTRL_WAIT_EV n) v = 1 → fieldOf (AX_CTRL_IN_GROUP n) v = 0 → axState s n = Axs.idle → (axU s
      n).stopTick = false → s.psq.stopInForce = false → goParam s n (s.g (AX_VMAX_VMAX n)) (s.g (AX_ACCEL_ACCEL
      n)) (s.g (AX_DECEL_DECEL n)) 1 1 false = false → Does (.axisGo n v) s fun t => axState t n = Axs.waiting ∧
      t.g (AX_STAT_RESULT n) = Sts.ok ∧ (axU t n).latch = (true, if fieldOf (AX_CTRL_VDIR n) v = 0 then 1 else -1)
      ∧ t.out = s.out ∧ OnlyRegs ([AX_CTRL n, AX_STAT n] ++ (List.range 8).map AG_STAT) s t) ∧
    (Reaches s (AX_CTRL n) → joinOk s n v = true → fieldOf (AX_CTRL_ENABLE n) v = 1 → fieldOf (AX_CTRL_CLEAR n) v
      = 0 → fieldOf (AX_CTRL_STOP n) v = 0 → fieldOf (AX_CTRL_GO n) v = 1 → fieldOf (AX_CTRL_MODE n) v = 1 →
      fieldOf (AX_CTRL_IN_GROUP n) v = 0 → axState s n = Axs.idle → (axU s n).stopTick = false → s.psq.stopInForce
      = false → goParam s n (s.g (AX_VMAX_VMAX n)) (s.g (AX_ACCEL_ACCEL n)) (s.g (AX_DECEL_DECEL n)) 1 1 false =
      true → Does (.axisGo n v) s fun t => axState t n = Axs.idle ∧ t.g (AX_STAT_RESULT n) = Sts.param ∧ axU t n =
      { axU s n with calls := (axU s n).calls ++ [none] } ∧ t.mot = { s.mot with ax := t.mot.ax } ∧ ∀ m : Nat, m ≠
      n.val → axU t m = axU s m ∧ t.out = s.out) ∧
    (Reaches s (AX_CTRL n) → joinOk s n v = true → fieldOf (AX_CTRL_ENABLE n) v = 1 → fieldOf (AX_CTRL_CLEAR n) v
      = 0 → fieldOf (AX_CTRL_STOP n) v = 0 → fieldOf (AX_CTRL_GO n) v = 1 → fieldOf (AX_CTRL_IN_GROUP n) v = 1 →
      fieldOf (AX_CTRL_GROUP n) v = s.g (AX_CTRL_GROUP n) → s.on (AX_CTRL_IN_GROUP n) = true → axState s n =
      Axs.idle → agState s (s.g (AX_CTRL_GROUP n)) = 0 → Does (.axisGo n v) s fun t => axState t n = axState s n ∧
      t.g (AX_STAT_RESULT n) = Sts.busy ∧ t.mot = s.mot ∧ t.out = s.out) ∧
    (Reaches s (AX_CTRL n) → joinOk s n v = true → fieldOf (AX_CTRL_ENABLE n) v = 1 → fieldOf (AX_CTRL_CLEAR n) v
      = 0 → fieldOf (AX_CTRL_STOP n) v = 1 → fieldOf (AX_CTRL_GO n) v = 0 → axState s n = Axs.moving → (axU s
      n).byGroup = false → (axU s n).goTick = false → (axU s n).calls = [] → (axU s n).ended = none → (agU s (s.g
      (AX_CTRL_GROUP n))).ended = none → Does (.axisStop n v) s fun t => axState t n = Axs.stopping ∧ t.on
      (AX_CTRL_STOP n) = true ∧ (axU t n).vel = (axU s n).vel ∧ t.out = s.out ∧ OnlyRegs ([AX_CTRL n, AX_STAT n]
      ++ (List.range 8).map AG_STAT) s t) ∧
    (Reaches s (AX_CTRL n) → joinOk s n v = true → fieldOf (AX_CTRL_ENABLE n) v = 1 → fieldOf (AX_CTRL_CLEAR n) v
      = 0 → fieldOf (AX_CTRL_STOP n) v = 1 → fieldOf (AX_CTRL_GO n) v = 0 → axState s n = Axs.waiting → (axU s
      n).disable = false → (axU s n).byGroup = false → (axU s n).goTick = false → (axU s n).calls = [] → (axU s
      n).ended = none → (agU s (s.g (AX_CTRL_GROUP n))).ended = none → Does (.axisStop n v) s fun t => axState t n
      = Axs.idle ∧ t.reg (AX_VEL n) = 0 ∧ t.on (AX_CTRL_STOP n) = false ∧ (axU t n).dist = 0 ∧ t.out = s.out) ∧
    (Reaches s (AX_CTRL n) → joinOk s n v = true → fieldOf (AX_CTRL_ENABLE n) v = 1 → fieldOf (AX_CTRL_CLEAR n) v
      = 0 → fieldOf (AX_CTRL_STOP n) v = 1 → fieldOf (AX_CTRL_GO n) v = 0 → axState s n = Axs.waiting → (axU s
      n).disable = false → (axU s n).byGroup = false → s.on (AX_CTRL_IN_GROUP n) = false → (axU s n).goTick =
      false → (axU s n).calls = [some w] → (axU s n).ended = none → Does (.axisStop n v) s fun t => axState t n =
      Axs.idle ∧ t.reg (AX_TARGET n) = w ∧ t.g (AX_STAT_RESULT n) = Sts.ok ∧ t.out = s.out) ∧
    (Reaches s (AX_CTRL n) → joinOk s n v = true → fieldOf (AX_CTRL_ENABLE n) v = 1 → fieldOf (AX_CTRL_CLEAR n) v
      = 0 → fieldOf (AX_CTRL_STOP n) v = 1 → fieldOf (AX_CTRL_GO n) v = 1 → fieldOf (AX_CTRL_IN_GROUP n) v = 0 →
      axState s n = Axs.moving → (axU s n).byGroup = false → (axU s n).goTick = false → (axU s n).calls = [] →
      (axU s n).ended = none → (agU s (s.g (AX_CTRL_GROUP n))).ended = none → Does (.axisStop n v) s fun t => t.g
      (AX_STAT_RESULT n) = Sts.badState ∧ axState t n = Axs.stopping) ∧
    (Reaches s (AX_CTRL n) → joinOk s n v = true → fieldOf (AX_CTRL_ENABLE n) v = 1 → fieldOf (AX_CTRL_CLEAR n) v
      = 0 → fieldOf (AX_CTRL_STOP n) v = 1 → fieldOf (AX_CTRL_GO n) v = 0 → fieldOf (AX_CTRL_GROUP n) v = s.g
      (AX_CTRL_GROUP n) → axState s n = Axs.moving → (axU s n).byGroup = true → agState s (s.g (AX_CTRL_GROUP n))
      = Axs.moving → (agU s (s.g (AX_CTRL_GROUP n))).goTick = false → (agU s (s.g (AX_CTRL_GROUP n))).ended = none
      → (membersOf s (s.g (AX_CTRL_GROUP n))).all (fun m => (axU s m).ended.isNone) = true → Does (.axisStop n v)
      s fun t => agState t (s.g (AX_CTRL_GROUP n)) = Axs.stopping ∧ t.on (AG_CTRL_STOP (s.g (AX_CTRL_GROUP n))) =
      true ∧ t.out = s.out) ∧
    (Reaches s (AX_CTRL n) → joinOk s n v = true → fieldOf (AX_CTRL_ENABLE n) v = 1 → fieldOf (AX_CTRL_CLEAR n) v
      = 1 → fieldOf (AX_CTRL_STOP n) v = 0 → fieldOf (AX_CTRL_GO n) v = 0 → axState s n = Axs.fault → Does
      (.axisClear n v) s fun t => axState t n = Axs.idle ∧ t.on (AX_CTRL_STOP n) = false ∧ t.out = s.out ∧
      OnlyRegs ([AX_CTRL n, AX_STAT n, AX_EPOS n] ++ (List.range 8).map AG_STAT) s t) ∧
    (Reaches s (AX_TARGET n) → axBusy s n = false → Does (.axisTargetWrite n v) s fun t => t.reg (AX_TARGET n) = v
      ∧ t.g (AX_STAT_RESULT n) = Sts.ok ∧ axU t n =
      { axU s n with tgt0 := (axU t n).tgt0, calls := (axU s n).calls ++ [some v] } ∧ t.mot =
      { s.mot with ax := t.mot.ax } ∧ ∀ m : Nat, m ≠ n.val → axU t m = axU s m ∧ t.out = s.out ∧ OnlyRegs
      [AX_TARGET n, AX_STAT n] s t) ∧
    (Reaches s (AX_TARGET n) → axSettle n s = s → axBusy s n = true → Does (.axisTargetWrite n v) s fun t => t.reg
      (AX_TARGET n) = s.reg (AX_TARGET n) ∧ t.g (AX_STAT_RESULT n) = Sts.badState ∧ axU t n =
      { axU s n with tgt0 := (axU t n).tgt0, calls := (axU s n).calls ++ [some v] } ∧ t.mot =
      { s.mot with ax := t.mot.ax } ∧ ∀ m : Nat, m ≠ n.val → axU t m = axU s m ∧ t.out = s.out ∧ OnlyRegs [AX_STAT
      n] s t) ∧
    (Reaches s (axProfileReg n k) → axMoving (axState s n) = false → Does (.axisProfileWrite n k v) s fun t =>
      t.reg (axProfileReg n k) = v ∧ t.mot = s.mot ∧ t.out = s.out ∧ OnlyRegs [axProfileReg n k] s t) ∧
    (Reaches s (axProfileReg n k) → axSettle n s = s → axMoving (axState s n) = true → (axU s n).byGroup = false →
      profileRefused s n k v.toNat 1 1 = false → Does (.axisProfileWrite n k v) s fun t => t.reg (axProfileReg n
      k) = v ∧ t.g (AX_STAT_RESULT n) = Sts.ok ∧ t.mot = s.mot ∧ t.out = s.out ∧ OnlyRegs [axProfileReg n k,
      AX_STAT n] s t) ∧
    (Reaches s (axProfileReg n k) → axSettle n s = s → axMoving (axState s n) = true → (axU s n).byGroup = false →
      profileRefused s n k v.toNat 1 1 = true → Does (.axisProfileWrite n k v) s fun t => t.g (AX_STAT_RESULT n) =
      Sts.param ∧ t.mot = s.mot ∧ t.out = s.out ∧ OnlyRegs [AX_STAT n] s t)

/-- The start input, from the fabric or an axis's mapped START ball, starts a waiting axis or group as its GO
latched it; a group with a member no longer idle ends with BAD_STATE instead (assumption log 86). In a profile tick
with one axis moving, that axis takes its next speed, and its progress goes on by the mean of the two speeds, a
position move's no further than its target. A position move at its target ends IDLE with speed 0 and its position as
it is, and shows DONE; a group whose members all are ends as one. An encoder sample, followed by 32-bit differences,
moves EPOS with the extreme of the count, which a reversal within the backlash window leaves. GO of a group whose
members are idle and within their limits starts every member over its own distance with one leader, or waits with
WAIT_EV; GO of a group not idle is refused with BAD_STATE. STOP brings the group down along its path, and ends a
waiting one. (11_step_motion.md, Outputs and pulse timing, 11_step_motion.md, Units and resolution levels,
11_step_motion.md, Moves, 11_step_motion.md, Axis groups, 11_step_motion.md, Encoder feedback) -/
def Obligations.AxisMotion : Prop :=
  ∀ (s : State) (n : Fin 48) (raw : BitVec 32) (g : Fin 8) (v : Word),
    (s.dead = false → s.fabricFeeds (0x1200 + n) 0 = true ∨ s.mapped 0x12 n 6 = true → axState s n = Axs.waiting →
      s.psq.stopInForce = false ∨ s.on (AX_CTRL_KEEP n) = true → Does (.axisStartInput n) s fun t => axState t n =
      Axs.moving ∧ (axU t n).velMode = (axU s n).latch.1 ∧ (axU t n).dist = (axU s n).latch.2.natAbs ∧ (axU t
      n).emitted = 0 ∧ t.out = s.out ∧ OnlyRegs [AX_STAT n] s t) ∧
    (s.dead = false → n.val < s.part.axes → axState s n = Axs.moving → (axU s n).byGroup = false → (∀ m : Fin 48,
      s.on (AX_ENC_EN m) = false) → (∀ m : Fin 48, m ≠ n → axMoving (axState s m) = false) → (∀ h : Fin 8,
      axMoving (agState s h) = false ∧ (agU s h).members = []) → (axU s n).velMode = true → Does
      (.axisProfileTick) s fun t => axState t n = Axs.moving ∧ (axU t n).vel = nextVel (axU s n).vel (s.g
      (AX_VMAX_VMAX n)) (s.g (AX_ACCEL_ACCEL n)) (s.g (AX_DECEL_DECEL n)) none (axHeld s n (axU s n).vel) ∧ (axU t
      n).prog = (axU s n).prog + (axU s n).vel + (axU t n).vel) ∧
    (s.dead = false → n.val < s.part.axes → axState s n = Axs.moving → (axU s n).byGroup = false → (∀ m : Fin 48,
      s.on (AX_ENC_EN m) = false) → (∀ m : Fin 48, m ≠ n → axMoving (axState s m) = false) → (∀ h : Fin 8,
      axMoving (agState s h) = false ∧ (agU s h).members = []) → (axU s n).velMode = false → Does
      (.axisProfileTick) s fun t => axState t n = Axs.moving ∧ (axU t n).vel = nextVel (axU s n).vel (s.g
      (AX_VMAX_VMAX n)) (s.g (AX_ACCEL_ACCEL n)) (s.g (AX_DECEL_DECEL n)) (some ((axU s n).dist * 2000000000000 -
      (axU s n).prog)) (axHeld s n (axU s n).vel) ∧ (axU t n).prog = min ((axU s n).dist * 2000000000000) ((axU s
      n).prog + (axU s n).vel + (axU t n).vel)) ∧
    (s.dead = false → atTarget s n = true → (axU s n).byGroup = false → (axU s n).disable = false → Does
      (.axisMoveEnd n) s fun t => axState t n = Axs.idle ∧ t.reg (AX_POS n) = s.reg (AX_POS n) ∧ t.reg (AX_VEL n)
      = 0 ∧ (axU t n).dist = 0 ∧ t.out = s.out ++ [.event (.axDone n)] ∧ OnlyRegs [AX_CTRL n, AX_STAT n, AX_VEL n]
      s t) ∧
    (s.dead = false → (axU s n).byGroup = true → (agU s (s.g (AX_CTRL_GROUP n))).members.all (fun m => atTarget s
      m.1) = true → Does (.axisMoveEnd n) s fun t => agState t (s.g (AX_CTRL_GROUP n)) = 0 ∧ (agU t (s.g
      (AX_CTRL_GROUP n))).members = [] ∧ Out.event (.agDone (s.g (AX_CTRL_GROUP n))) ∈ shown s t ∧ t.mem = s.mem)
      ∧
    (s.dead = false → sharers s n = [n.val] → s.on (AX_ENC_EN n) = true → axState s n ≠ Axs.off → (axU s n).extFwd
      = true → (axU s n).ext < ((axU s n).encRaw + sext 32 (unsext 32 ((raw.toNat : Int) - (axU s n).encRaw))) →
      Does (.axisEncoderSample n raw) s fun t => t.reg (AX_EPOS n) = BitVec.ofInt 32 ((axU s n).encPos + encScale
      s n (((axU s n).encRaw + sext 32 (unsext 32 ((raw.toNat : Int) - (axU s n).encRaw))) - (axU s n).encBase)) ∧
      (axU t n).ext = ((axU s n).encRaw + sext 32 (unsext 32 ((raw.toNat : Int) - (axU s n).encRaw))) ∧ (axU t
      n).encRaw = ((axU s n).encRaw + sext 32 (unsext 32 ((raw.toNat : Int) - (axU s n).encRaw))) ∧ t.out = s.out
      ∧ OnlyRegs [AX_EPOS n] s t) ∧
    (s.dead = false → sharers s n = [n.val] → s.on (AX_ENC_EN n) = true → axState s n ≠ Axs.off → (axU s n).extFwd
      = true → ((axU s n).encRaw + sext 32 (unsext 32 ((raw.toNat : Int) - (axU s n).encRaw))) ≤ (axU s n).ext →
      (axU s n).ext - ((axU s n).encRaw + sext 32 (unsext 32 ((raw.toNat : Int) - (axU s n).encRaw))) ≤ s.g
      (AX_ENC_W n) → Does (.axisEncoderSample n raw) s fun t => (axU t n).ext = (axU s n).ext ∧ (axU t n).extFwd =
      (axU s n).extFwd ∧ (axU t n).encRaw = ((axU s n).encRaw + sext 32 (unsext 32 ((raw.toNat : Int) - (axU s
      n).encRaw))) ∧ t.out = s.out ∧ OnlyRegs [AX_EPOS n] s t) ∧
    (Reaches s (AG_CTRL g) → fieldOf (AG_CTRL_GO g) v = 1 → fieldOf (AG_CTRL_STOP g) v = 0 → fieldOf
      (AG_CTRL_WAIT_EV g) v = 0 → agState s g = 0 → (agU s g).stopTick = false → s.psq.stopInForce = false →
      (deltasOf s g).all (fun d => axState s d.1 == Axs.idle) = true → s.g (AG_VMAX_VALUE g) ≠ 0 → s.g
      (AG_ACCEL_VALUE g) ≠ 0 → s.g (AG_DECEL_VALUE g) ≠ 0 → (deltasOf s g).any (memberParam s g (leaderOf
      (deltasOf s g)).2.natAbs) = false → (leaderOf (deltasOf s g)).2.natAbs ≠ 0 → Does (.groupGo g v) s fun t =>
      agState t g = Axs.moving ∧ t.g (AG_STAT_RESULT g) = Sts.ok ∧ t.g (AG_STAT_LEADER g) = (leaderOf (deltasOf s
      g)).1 ∧ (agU t g).dist = (leaderOf (deltasOf s g)).2.natAbs ∧ (agU t g).members = deltasOf s g ∧ (deltasOf s
      g).all (fun d => axState t d.1 == Axs.moving && (axU t d.1).dist == d.2.natAbs) = true ∧ t.out = s.out) ∧
    (Reaches s (AG_CTRL g) → fieldOf (AG_CTRL_GO g) v = 1 → fieldOf (AG_CTRL_STOP g) v = 0 → fieldOf
      (AG_CTRL_WAIT_EV g) v = 1 → agState s g = 0 → (agU s g).stopTick = false → s.psq.stopInForce = false →
      (deltasOf s g).all (fun d => axState s d.1 == Axs.idle) = true → s.g (AG_VMAX_VALUE g) ≠ 0 → s.g
      (AG_ACCEL_VALUE g) ≠ 0 → s.g (AG_DECEL_VALUE g) ≠ 0 → (deltasOf s g).any (memberParam s g (leaderOf
      (deltasOf s g)).2.natAbs) = false → (leaderOf (deltasOf s g)).2.natAbs ≠ 0 → Does (.groupGo g v) s fun t =>
      agState t g = Axs.waiting ∧ t.g (AG_STAT_RESULT g) = Sts.ok ∧ (agU t g).members = deltasOf s g ∧ t.out =
      s.out ∧ OnlyRegs [AG_CTRL g, AG_STAT g] s t) ∧
    (Reaches s (AG_CTRL g) → fieldOf (AG_CTRL_GO g) v = 1 → fieldOf (AG_CTRL_STOP g) v = 0 → agState s g ≠ 0 →
      agSettle g s = s → Does (.groupGo g v) s fun t => t.g (AG_STAT_RESULT g) = Sts.badState ∧ agState t g =
      agState s g ∧ agU t g = { agU s g with went := true } ∧ t.mot = { s.mot with ag := t.mot.ag } ∧ t.out =
      s.out ∧ OnlyRegs [AG_CTRL g, AG_STAT g] s t) ∧
    (Reaches s (AG_CTRL g) → fieldOf (AG_CTRL_GO g) v = 0 → fieldOf (AG_CTRL_STOP g) v = 1 → agState s g =
      Axs.moving → (agU s g).goTick = false → (agU s g).ended = none → (membersOf s g).all (fun m => (axU s
      m).ended.isNone) = true → (agU s g).members.all (fun m => decide (m.1 < 48)) = true → Does (.groupStop g v)
      s fun t => agState t g = Axs.stopping ∧ t.on (AG_CTRL_STOP g) = true ∧ (agU s g).members.all (fun m =>
      axState t m.1 == Axs.stopping) = true ∧ t.out = s.out) ∧
    (Reaches s (AG_CTRL g) → fieldOf (AG_CTRL_GO g) v = 0 → fieldOf (AG_CTRL_STOP g) v = 1 → agState s g =
      Axs.waiting → (agU s g).goTick = false → (agU s g).ended = none → (membersOf s g).all (fun m => (axU s
      m).ended.isNone) = true → Does (.groupStop g v) s fun t => agState t g = 0 ∧ t.on (AG_CTRL_STOP g) = false ∧
      (agU t g).members = [] ∧ t.out = s.out) ∧
    (s.dead = false → s.fabricFeeds (0x1300 + g) 0 = true → agState s g = Axs.waiting → s.psq.stopInForce = false
      ∨ s.on (AG_CTRL_KEEP g) = true → (agU s g).members.all (fun m => decide (m.1 < 48) && axState s m.1 ==
      Axs.idle) = true → Does (.groupStartInput g) s fun t => agState t g = Axs.moving ∧ (agU t g).members = (agU
      s g).members ∧ (agU s g).members.all (fun m => axState t m.1 == Axs.moving) = true ∧ t.out = s.out) ∧
    (s.dead = false → s.fabricFeeds (0x1300 + g) 0 = true → agState s g = Axs.waiting → s.psq.stopInForce = false
      ∨ s.on (AG_CTRL_KEEP g) = true → (agU s g).members.any (fun m => axState s m.1 != Axs.idle) = true → Does
      (.groupStartInput g) s fun t => agState t g = 0 ∧ t.g (AG_STAT_RESULT g) = Sts.badState ∧ t.out = s.out)

/-- ENABLE of a loop that passes every check sets ENABLE, ERR 0 and INFO to its cycles; one that fails stays
disabled with the check's number in ERR and its word in INFO. At a tick of its timebase, with no other loop, trace
unit or belt measurement on that timebase, a loop of one instruction computes its result from the values sampled, to
be committed; at the next tick the result stands at the output port or node, for a loop disabled meanwhile unless an
enabled loop writes there. A disabled loop leaves a zero to commit at each output port it wrote. A tick from a motor
channel that is not enabled does nothing. (12_control_engine.md, Memories and operands, 12_control_engine.md,
Timebases and scheduling, 12_control_engine.md, Sampling and the one-period delay, 12_control_engine.md, Instruction
set, 12_control_engine.md, Changing a running loop) -/
def Obligations.LoopsAndTicks : Prop :=
  ∀ (s : State) (n : Fin 64) (b : Fin 8) (v : Word) (e : Nat) (w : Nat) (a : Nat) (x : Int) (i : CeInstr) (d : Nat) (cnt : BitVec 32) (tMeas : BitVec 32) (cv : List (BitVec 11 × BitVec 20)) (pl : List (BitVec 8)),
    (Reaches s (LP_CFG n) → lpOn s n = false → fieldOf (LP_CFG_ENABLE n) v = 1 → lpCheck (((s.p (LP_CFG_LEN n)
      (fieldOf (LP_CFG_LEN n) v)).p (LP_CFG_TB n) (fieldOf (LP_CFG_TB n) v)).p (LP_CFG_START n) (fieldOf
      (LP_CFG_START n) v)) n = none → Does (.loopEnable n v) s fun t => lpOn t n = true ∧ t.g (LP_STAT_ERR n) = 0
      ∧ t.g (LP_STAT_INFO n) = lpCost (((s.p (LP_CFG_LEN n) (fieldOf (LP_CFG_LEN n) v)).p (LP_CFG_TB n) (fieldOf
      (LP_CFG_TB n) v)).p (LP_CFG_START n) (fieldOf (LP_CFG_START n) v)) n % 65536 ∧ t.mot = s.mot ∧ t.out =
      s.out) ∧
    (Reaches s (LP_CFG n) → lpOn s n = false → fieldOf (LP_CFG_ENABLE n) v = 1 → lpCheck (((s.p (LP_CFG_LEN n)
      (fieldOf (LP_CFG_LEN n) v)).p (LP_CFG_TB n) (fieldOf (LP_CFG_TB n) v)).p (LP_CFG_START n) (fieldOf
      (LP_CFG_START n) v)) n = some (e, w) → Does (.loopEnable n v) s fun t => lpOn t n = false ∧ t.g (LP_STAT_ERR
      n) = e % 16 ∧ t.g (LP_STAT_INFO n) = w % 65536 ∧ t.mot = s.mot ∧ t.out = s.out ∧ OnlyRegs [LP_CFG n, LP_STAT
      n] s t) ∧
    (Reaches s (LP_CFG n) → lpOn s n = true → fieldOf (LP_CFG_ENABLE n) v = 0 → Does (.loopDisable n v) s fun t =>
      lpOn t n = false ∧ bankGet [] (ceU t).commits n = (((lpCode s n).filterMap ceDest).filter (fun a => decide
      (0x600 ≤ a))).map (fun a => (a, 0)) ∧ t.out = s.out) ∧
    (s.dead = false → s.on (TB_CFG_SRC b) = false ∨ s.on (MC_CTRL_ENABLE (s.g (TB_CFG_MC b))) = true → s.g
      CE_BELT_TB ≠ b.val → (∀ u : Fin 4, tuArmed s u = false) → (∀ m : Fin 64, m ≠ n → s.g (LP_CFG_TB m) ≠ b.val)
      → s.g (LP_CFG_TB n) = b.val → lpOn s n = true → (ceU s).commits = [] → lpCode s n = [i] → ceDest i = some d
      → ceStates i = 0 → Does (.timebaseTick b [] cnt tMeas pl) s fun t => bankGet [] (ceU t).commits n = [(d,
      sext 20 (unsext 20 (ceCompute i.op i.m (readAddr s i.a) (readAddr s i.b) (readAddr s (i.c % 2048)) (fun k =>
      coefVal s (i.c + k)) (fun k => stateVal s (i.st + k))).d))] ∧ t.out = s.out) ∧
    (s.dead = false → s.on (TB_CFG_SRC b) = false ∨ s.on (MC_CTRL_ENABLE (s.g (TB_CFG_MC b))) = true → s.g
      CE_BELT_TB ≠ b.val → (∀ u : Fin 4, tuArmed s u = false) → (∀ m : Fin 64, m ≠ n → s.g (LP_CFG_TB m) ≠ b.val)
      → s.g (LP_CFG_TB n) = b.val → lpOn s n = true ∨ (enabledLoops s).any (fun k => lpWrites s k a) = false →
      bankGet [] (ceU s).commits n = [(a, x)] → 0x400 ≤ a → Does (.timebaseTick b cv cnt tMeas pl) s fun t =>
      portVal t a = x ∧ (lpOn s n = false → bankGet [] (ceU t).commits n = [] ∧ t.regs = s.regs) ∧ t.out = s.out)
      ∧
    (s.dead = false → s.on (TB_CFG_SRC b) = false ∨ s.on (MC_CTRL_ENABLE (s.g (TB_CFG_MC b))) = true → s.g
      CE_BELT_TB ≠ b.val → (∀ u : Fin 4, tuArmed s u = false) → (∀ m : Fin 64, m ≠ n → s.g (LP_CFG_TB m) ≠ b.val)
      → s.g (LP_CFG_TB n) = b.val → lpOn s n = true ∨ (enabledLoops s).any (fun k => lpWrites s k a) = false →
      bankGet [] (ceU s).commits n = [(a, x)] → 1 ≤ a → a < 0x400 → Does (.timebaseTick b cv cnt tMeas pl) s fun t
      => nodeVal t a = sext 20 (unsext 20 x) ∧ (lpOn s n = false → OnlyRegs [CE_NODE a] s t) ∧ t.out = s.out) ∧
    (s.dead = false → s.on (TB_CFG_SRC b) = true → s.on (MC_CTRL_ENABLE (s.g (TB_CFG_MC b))) = false → Does
      (.timebaseTick b cv cnt tMeas pl) s fun t => t = s)

/-- A coefficient written with STAGE 0 takes its value at once; with STAGE 1 it is held, up to 64; those held as
STAGE was cleared all apply together, in order, a coefficient with none among them staying as it is; a 65th is
ignored with WR_IGN. A node takes the value written, but N0 and one an enabled loop writes do not, the latter
setting WR_IGN. The high half of a program word of an enabled loop is not written and sets its CFG_ERR. ARM clears
and arms a trace unit, FORCE makes its next sample the trigger, ABORT ends it; a finished trace fills its window,
oldest sample first. A corrected memory error is noted; an uncorrectable one disables the loop that uses the word.
(12_control_engine.md, Memories and operands, 12_control_engine.md, Changing a running loop, 12_control_engine.md,
Trace units, 12_control_engine.md, Errors, 12_control_engine.md, Engine registers) -/
def Obligations.ControlMemories : Prop :=
  ∀ (s : State) (c : Fin 4096) (i : Fin 1024) (w : Fin 4096) (u : Fin 4) (n : Fin 64) (y : Int) (q : List Int) (r : List Int) (mem : Fin 4) (v : Word),
    (Reaches s (CE_COEF c) → s.on CE_CTRL_STAGE = false → Does (.coefWrite c v) s fun t => t.g (CE_COEF_COEF c) =
      v.toNat % 2 ^ 20 ∧ t.mot = s.mot ∧ t.out = s.out ∧ OnlyRegs [CE_COEF c] s t) ∧
    (Reaches s (CE_COEF c) → s.on CE_CTRL_STAGE = true → (ceU s).staged.length < 64 → Does (.coefWrite c v) s fun
      t => (ceU t).staged = (ceU s).staged ++ [(c.val, v.toNat % 2 ^ 20)] ∧ t.g CE_STAT_STAGED = (ceU
      s).staged.length + 1 ∧ OnlyRegs [CE_STAT] s t) ∧
    (Reaches s (CE_COEF c) → s.on CE_CTRL_STAGE = true → 64 ≤ (ceU s).staged.length → Does (.coefWrite c v) s fun
      t => t.on CE_STAT_WR_IGN = true ∧ t.mot = s.mot ∧ OnlyRegs [CE_STAT] s t) ∧
    (s.dead = false → s.on CE_STAT_STAGE_PEND = true → Does (.stagedCoefApply) s fun t => t.g (CE_COEF_COEF c) =
      ((((ceU s).staged.take (ceU s).due).reverse.find? (fun e => e.1 == c.val)).map (fun e => e.2 % 2 ^ 20)).getD
      (s.g (CE_COEF_COEF c)) ∧ (ceU t).staged = (ceU s).staged.drop (ceU s).due ∧ t.g CE_STAT_STAGED = ((ceU
      s).staged.drop (ceU s).due).length % 2 ^ CE_STAT_STAGED.w ∧ t.on CE_STAT_STAGE_PEND = false ∧ t.out = s.out)
      ∧
    (Reaches s (CE_NODE i) → i ≠ 0 → (enabledLoops s).any (fun n => lpWrites s n i) = false → Does (.nodeWrite i
      v) s fun t => t.g (CE_NODE_NODE i) = v.toNat % 2 ^ 20 ∧ OnlyRegs [CE_NODE i] s t) ∧
    (Reaches s (CE_NODE i) → i = 0 → Does (.nodeWrite i v) s fun t => t = s) ∧
    (Reaches s (CE_NODE i) → i ≠ 0 → (enabledLoops s).any (fun n => lpWrites s n i) = true → Does (.nodeWrite i v)
      s fun t => t.on CE_STAT_WR_IGN = true ∧ OnlyRegs [CE_STAT] s t) ∧
    (Reaches s (CE_PROG_HI w) → (enabledLoops s).filter (fun n => (lpWords s n).contains w.val) = [n.val] → Does
      (.wideWordWrite true w v) s fun t => t.on (LP_STAT_CFG_ERR n) = true ∧ t.reg (CE_PROG_HI w) = s.reg
      (CE_PROG_HI w) ∧ OnlyRegs [LP_STAT n] s t) ∧
    (Reaches s (TU_CFG u) → tuArmed s u = false → fieldOf (TU_CFG_ARM u) v = 1 → fieldOf (TU_CFG_ABORT u) v = 0 →
      fieldOf (TU_CFG_FORCE u) v = 0 → Does (.traceArm u v) s fun t => tuState t u = 1 ∧ t.g (TU_STAT_COUNT u) = 0
      ∧ tuU t u = {} ∧ t.on (TU_STAT_PREFILL u) = decide (tuPre t u = 0) ∧ t.out = s.out) ∧
    (Reaches s (TU_CFG u) → tuState s u = 1 → fieldOf (TU_CFG_ARM u) v = 0 → fieldOf (TU_CFG_ABORT u) v = 0 →
      fieldOf (TU_CFG_FORCE u) v = 1 → Does (.traceForce u v) s fun t => (tuU t u).force = true ∧ tuState t u = 1
      ∧ (tuU t u).samples = (tuU s u).samples) ∧
    (Reaches s (TU_CFG u) → fieldOf (TU_CFG_ARM u) v = 0 → fieldOf (TU_CFG_ABORT u) v = 1 → fieldOf (TU_CFG_FORCE
      u) v = 0 → Does (.traceAbort u v) s fun t => tuState t u = 0 ∧ t.g (TU_STAT_COUNT u) = 0 ∧ tuU t u = {} ∧
      t.out = s.out) ∧
    (s.dead = false → tuState s u = 2 → (tuU s u).post = 0 → (tuU s u).samples.reverse.flatten = q ++ y :: r → (q
      ++ y :: r).length ≤ 16384 → Does (.traceDone u) s fun t => tuState t u = 3 ∧ t.reg (TU_BUF u q.length) =
      BitVec.ofInt 32 y ∧ t.mot = s.mot ∧ t.out = s.out) ∧
    (s.dead = false → Does (.ceEccError mem w true) s fun t => t.on CE_STAT_ECC_CORR = true ∧ t.mot = s.mot) ∧
    (s.dead = false → (enabledLoops s).filter (lpUses s mem w) = [n.val] → Does (.ceEccError mem w false) s fun t
      => lpOn t n = false ∧ t.on (LP_STAT_ECC n) = true)

/-- ENABLE of an OFF channel that no check refuses turns it ON once its guard permits, no output is forced and no
discharge waits, and until then leaves it enabled and OFF; one that a check refuses sets CFG_ERR and stays. HOLD
keeps an ON channel HELD, ENABLE cleared turns it OFF, both with a discharge pending. A PWM period of an ON channel
drives the duty of its port on a mapped drive pin, and after 64 periods in the band, or with TOL 0, the channel is
REGULATING. A feedback result shows V, I and the energy; it turns an enabled channel that nothing keeps any more ON
(the moment is the model's, log 88), and beyond the ceiling an ON channel is CLEATED with cause 1. A guard sample
outside HOLDs it until 100 samples inside, after which an enabled channel that nothing else keeps is ON again. A
discharge confirmed, V below HVj_SAFE for 1 ms since the confirmation started, ends the wait, and not before; then
an enabled channel that nothing else keeps is ON; one that times out, once, is CLEATED with cause 2 and the engine
faults. (13_hv_fuser.md, HV channels, 13_hv_fuser.md, The shroud, 13_hv_fuser.md, Discharge, 13_hv_fuser.md, Guard,
band and sheets) -/
def Obligations.HighVoltage : Prop :=
  ∀ (s : State) (j : Fin 32) (x : BitVec 20) (y : BitVec 20) (code : BitVec 12) (v : Word),
    (Reaches s (HV_CTRL j) → fieldOf (HV_CTRL_ENABLE j) v = 1 → fieldOf (HV_CTRL_HOLD j) v = 0 → hvState s j =
      Hvs.off → s.on (HV_CTRL_ENABLE j) = false → s.on (HV_STAT_DSC_PEND j) = false → hvEnableOk s j = true →
      outForced s = false → s.on (HV_GUARD_EN j) = false ∨ ((hvU s j).guardIn = true ∧ (hvU s j).guardOut = false)
      → Does (.hvEnable j v) s fun t => hvState t j = Hvs.on ∧ t.on (HV_CTRL_ENABLE j) = true ∧ t.on
      (HV_STAT_REGULATING j) = decide (s.g (HV_BAND_TOL j) = 0) ∧ t.out = s.out ∧ OnlyRegs [HV_CTRL j, HV_STAT j]
      s t) ∧
    (Reaches s (HV_CTRL j) → fieldOf (HV_CTRL_ENABLE j) v = 1 → hvState s j = Hvs.off → s.on (HV_CTRL_ENABLE j) =
      false → s.on (HV_STAT_DSC_PEND j) = true ∨ outForced s = true ∨ s.on (HV_GUARD_EN j) = true ∧ ((hvU s
      j).guardIn = false ∨ (hvU s j).guardOut = true) → hvEnableOk s j = true → Does (.hvEnable j v) s fun t =>
      hvState t j = Hvs.off ∧ t.on (HV_CTRL_ENABLE j) = true ∧ t.out = s.out ∧ OnlyRegs [HV_CTRL j, HV_STAT j] s
      t) ∧
    (Reaches s (HV_CTRL j) → fieldOf (HV_CTRL_ENABLE j) v = 1 → hvState s j = Hvs.off → s.on (HV_CTRL_ENABLE j) =
      false → hvEnableOk s j = false → Does (.hvEnable j v) s fun t => hvState t j = Hvs.off ∧ t.on
      (HV_CTRL_ENABLE j) = false ∧ t.on (HV_STAT_CFG_ERR j) = true ∧ t.mot = s.mot ∧ t.out = s.out ∧ OnlyRegs
      [HV_CTRL j, HV_STAT j] s t) ∧
    (Reaches s (HV_CTRL j) → fieldOf (HV_CTRL_ENABLE j) v = 0 → fieldOf (HV_CTRL_HOLD j) v = 0 → fieldOf
      (HV_CTRL_MODE j) v = s.g (HV_CTRL_MODE j) → hvState s j = Hvs.on → s.on (HV_CTRL_ENABLE j) = true → Does
      (.hvDisable j v) s fun t => hvState t j = Hvs.off ∧ t.on (HV_CTRL_ENABLE j) = false ∧ t.on (HV_STAT_DSC_PEND
      j) = true ∧ (hvU t j).erel = 0 ∧ t.out = s.out ∧ OnlyRegs [HV_CTRL j, HV_STAT j] s t) ∧
    (Reaches s (HV_CTRL j) → fieldOf (HV_CTRL_ENABLE j) v = 1 → fieldOf (HV_CTRL_HOLD j) v = 1 → fieldOf
      (HV_CTRL_MODE j) v = s.g (HV_CTRL_MODE j) → hvState s j = Hvs.on → s.on (HV_CTRL_ENABLE j) = true → Does
      (.hvHold j v) s fun t => hvState t j = Hvs.held ∧ t.on (HV_CTRL_HOLD j) = true ∧ t.on (HV_STAT_DSC_PEND j) =
      true ∧ t.on (HV_STAT_REGULATING j) = false ∧ t.out = s.out ∧ OnlyRegs [HV_CTRL j, HV_STAT j] s t) ∧
    (s.dead = false → hvState s j = Hvs.on → s.g (HV_BAND_TOL j) = 0 ∨ (63 ≤ (hvU s j).inBand ∧ inWindow (if s.on
      (HV_CTRL_MODE j) then (hvU s j).ix else (hvU s j).vx) (s.g (HV_BAND_TARGET j)) (s.g (HV_BAND_TOL j)) = true)
      → Does (.hvPwmPeriod j) s fun t => (hvU t j).duty = ((hvDuty s j).1, (hvDuty s j).2.1) ∧ t.out = s.out ++
      (if s.mapped 0x16 j 1 then [.hvDrive j (hvDuty s j).1 (hvDuty s j).2.1] else []) ∧ t.on (HV_STAT_REGULATING
      j) = true ∧ OnlyRegs [HV_STAT j] s t) ∧
    (s.dead = false → hvState s j = Hvs.on ∧ hvEnergy (modHv j (fun _ => hvRelease s j ((max 0 (sext 20
      x.toNat)).toNat * s.g (HV_SCALE_VFS j)) ((max 0 (sext 20 y.toNat)).toNat * s.g (HV_SCALE_IFS j))) s) j ≤ s.g
      (HV_SHROUD_CEIL j) * tenMicro ∨ hvState s j = Hvs.cleated ∨ s.on (HV_CTRL_ENABLE j) = false ∧ hvState s j ≠
      Hvs.on → Does (.hvFeedbackResult j x y) s fun t => t.g (HV_MEAS_V j) = min 65535 (((max 0 (sext 20
      x.toNat)).toNat * s.g (HV_SCALE_VFS j) + 262144) / 524288) ∧ t.g (HV_MEAS_I j) = min 65535 (((max 0 (sext 20
      y.toNat)).toNat * s.g (HV_SCALE_IFS j) + 262144) / 524288) ∧ t.g (HV_ENERGY_S j) = min 65535 (roundDiv
      (hvEnergy (modHv j (fun _ => hvRelease s j ((max 0 (sext 20 x.toNat)).toNat * s.g (HV_SCALE_VFS j)) ((max 0
      (sext 20 y.toNat)).toNat * s.g (HV_SCALE_IFS j))) s) j) tenMicro).toNat ∧ hvState t j = hvState s j ∧ t.out
      = s.out ∧ OnlyRegs [HV_MEAS j, HV_ENERGY j] s t) ∧
    (s.dead = false → s.on (HV_CTRL_ENABLE j) = true → hvState s j = Hvs.off ∨ hvState s j = Hvs.held → s.on
      (HV_CTRL_HOLD j) = false → s.on (HV_STAT_DSC_PEND j) = false → s.running = true → outForced s = false → s.on
      (HV_GUARD_EN j) = false ∨ ((hvU s j).guardIn = true ∧ (hvU s j).guardOut = false) → Does (.hvFeedbackResult
      j x y) s fun t => hvState t j = Hvs.on ∧ t.out = s.out ∧ OnlyRegs [HV_MEAS j, HV_ENERGY j, HV_STAT j] s t) ∧
    (s.dead = false → hvState s j = Hvs.on → s.g (HV_SHROUD_CEIL j) * tenMicro < hvEnergy (modHv j (fun _ =>
      hvRelease s j ((max 0 (sext 20 x.toNat)).toNat * s.g (HV_SCALE_VFS j)) ((max 0 (sext 20 y.toNat)).toNat *
      s.g (HV_SCALE_IFS j))) s) j → Does (.hvFeedbackResult j x y) s fun t => hvState t j = Hvs.cleated ∧ t.g
      (HV_STAT_CAUSE j) = 1 ∧ t.on (HV_STAT_DSC_PEND j) = true ∧ (hvU t j).erel = 0) ∧
    (s.dead = false → s.on (HV_STAT_DSC_PEND j) = true → (hvU s j).vx < s.g (HV_SAFE_VOLTS j) * 524288 → max (hvU
      s j).dscAt (hvU s j).unsafeAt + 1000000 ≤ s.clock → s.on (HV_CTRL_ENABLE j) = false → Does
      (.dischargeConfirmed j) s fun t => t.on (HV_STAT_DSC_PEND j) = false ∧ hvState t j = hvState s j ∧ t.mot =
      s.mot ∧ t.out = s.out ∧ OnlyRegs [HV_STAT j] s t) ∧
    (s.dead = false → s.g (HV_SAFE_VOLTS j) * 524288 ≤ (hvU s j).vx ∨ s.clock < max (hvU s j).dscAt (hvU s
      j).unsafeAt + 1000000 → Does (.dischargeConfirmed j) s fun t => t = s) ∧
    (s.dead = false → s.on (HV_STAT_DSC_PEND j) = true → (hvU s j).vx < s.g (HV_SAFE_VOLTS j) * 524288 → max (hvU
      s j).dscAt (hvU s j).unsafeAt + 1000000 ≤ s.clock → s.on (HV_CTRL_ENABLE j) = true → hvState s j = Hvs.off ∨
      hvState s j = Hvs.held → s.on (HV_CTRL_HOLD j) = false → s.running = true → outForced s = false → s.on
      (HV_GUARD_EN j) = false ∨ ((hvU s j).guardIn = true ∧ (hvU s j).guardOut = false) → Does
      (.dischargeConfirmed j) s fun t => t.on (HV_STAT_DSC_PEND j) = false ∧ hvState t j = Hvs.on ∧ t.out = s.out
      ∧ OnlyRegs [HV_STAT j] s t) ∧
    (s.dead = false → s.on (HV_STAT_DSC_PEND j) = true → (hvU s j).failed = false → s.rigged = true → s.engine ≠
      Eng.unrigged → s.err.regionReset = [] → Does (.dischargeTimeout j) s fun t => hvState t j = Hvs.cleated ∧
      t.g (HV_STAT_CAUSE j) = 2 ∧ t.engine = Eng.fault) ∧
    (s.dead = false → s.on (HV_GUARD_EN j) = true → code.toNat < s.g (HV_GUARD_LO j) ∨ s.g (HV_GUARD_HI j) <
      code.toNat → hvState s j = Hvs.on → Does (.hvGuardSample j code) s fun t => hvState t j = Hvs.held ∧ t.on
      (HV_STAT_GUARD j) = true ∧ (hvU t j).guardOut = true ∧ (hvU t j).inside = 0 ∧ t.on (HV_STAT_DSC_PEND j) =
      true) ∧
    (s.dead = false → s.on (HV_GUARD_EN j) = true → s.g (HV_GUARD_LO j) ≤ code.toNat → code.toNat ≤ s.g
      (HV_GUARD_HI j) → s.on (HV_CTRL_ENABLE j) = false → Does (.hvGuardSample j code) s fun t => (hvU t
      j).guardIn = true ∧ (hvU t j).inside = (hvU s j).inside + 1 ∧ t.regs = s.regs ∧ t.out = s.out) ∧
    (s.dead = false → s.on (HV_GUARD_EN j) = true → s.g (HV_GUARD_LO j) ≤ code.toNat → code.toNat ≤ s.g
      (HV_GUARD_HI j) → s.on (HV_CTRL_ENABLE j) = true → 99 ≤ (hvU s j).inside → hvState s j = Hvs.held → s.on
      (HV_CTRL_HOLD j) = false → s.on (HV_STAT_DSC_PEND j) = false → s.running = true → outForced s = false → Does
      (.hvGuardSample j code) s fun t => hvState t j = Hvs.on ∧ (hvU t j).guardOut = false ∧ t.out = s.out ∧
      OnlyRegs [HV_STAT j] s t)

/-- An opening interlock is recorded with its time and clears its CLOSED bit; it forces the outputs, with every HV
channel disabled and its discharge pending, or begins a hard stop where the engine runs. Closing shows its event,
and with no engine running releases nothing; with one running it ends what its ENGINE_START had released but for an
open interlock (assumption log 88). The first zero-cross edge starts a period; the eighth valid period in a row ends
LOSS; no edge for 50 ms sets it with every gate low. In burst mode a heater that may fire does so when its
accumulator reaches the full scale and the half-cycles stay balanced, and else rests, its demand added; in phase
mode it fires at the angle of the duty, R304's solution to within one entry of a table that the spec does not list
(assumption log 88); a heater that may not fire rests. The firing shows on a mapped gate pin. A sample shows its
code and the over-temperature; a code outside the sensor range is BROKEN with the gate low. A comparator trip cleats
the heater until CLEAR once it no longer trips. ENABLE needs the comparator on, and else sets CFG_ERR.
(13_hv_fuser.md, Interlocks, 13_hv_fuser.md, Heaters, 13_hv_fuser.md, Registers) -/
def Obligations.InterlocksAndHeaters : Prop :=
  ∀ (s : State) (k : Fin 4) (h : Fin 8) (code : BitVec 12) (pos : Bool) (x : Nat) (v : Word),
    (s.dead = false → ilkOpen s k = false → s.running = false → s.psq.stopInForce = true → Does (.interlockOpen k)
      s fun t => t.g ILK_STAT_CLOSED = s.g ILK_STAT_CLOSED - 2 ^ k.val ∧ t.g ILK_STAT_OPENED = Nat.lor (s.g
      ILK_STAT_OPENED) (2 ^ k.val) ∧ t.reg ILK_TIME_LO = BitVec.ofNat 32 s.time.ns ∧ t.reg ILK_TIME_HI =
      BitVec.ofNat 32 s.time.sec ∧ t.engine = s.engine) ∧
    (s.dead = false → ilkOpen s k = false → s.running = false → s.psq.stopInForce = false → Does (.interlockOpen
      k) s fun t => t.on ILK_STAT_FORCED = true ∧ (∀ j : Fin 32, t.on (HV_CTRL_ENABLE j) = false ∧ t.on
      (HV_STAT_DSC_PEND j) = true) ∧ t.engine = s.engine) ∧
    (s.dead = false → ilkOpen s k = false → s.running = true → Does (.interlockOpen k) s fun t => t.engine =
      Eng.hardstop ∧ t.psq.stopInForce = true ∧ t.on ILK_STAT_FORCED = true ∧ t.g ILK_STAT_CLOSED = s.g
      ILK_STAT_CLOSED - 2 ^ k.val) ∧
    (s.dead = false → ilkOpen s k = true → Does (.interlockClose k) s fun t => t.g ILK_STAT_CLOSED = s.g
      ILK_STAT_CLOSED + 2 ^ k.val ∧ t.out = s.out ++ [.event (.interlock k false)] ∧ OnlyRegs [ILK_STAT] s t) ∧
    (s.dead = false → s.mot.zcAt = none → Does (.zcEdge) s fun t => t.mot.zcAt = some s.clock ∧ t.regs = s.regs ∧
      t.out = s.out) ∧
    (s.dead = false → s.mot.zcAt = some x → 1000000000 ≤ 65 * (s.clock - x) → 45 * (s.clock - x) ≤ 1000000000 → 7
      ≤ s.mot.zcGood → Does (.zcEdge) s fun t => t.on HT_ZC_LOSS = false ∧ t.g HT_ZC_PERIOD = min 32767 ((s.clock
      - x + 500) / 1000) ∧ t.mot.zcGood = s.mot.zcGood + 1 ∧ t.out = s.out ∧ OnlyRegs [HT_ZC] s t) ∧
    (s.dead = false → s.on HT_ZC_LOSS = false → Does (.zcLossTimeout) s fun t => t.on HT_ZC_LOSS = true ∧
      t.mot.zcGood = 0 ∧ t.mot.zcAt = none ∧ (∀ g : Fin 8, (htU t g).gate = false)) ∧
    (s.dead = false → htOk s h = true → s.g (HT_CTRL_MODE h) = 1 → 262144 ≤ (htU s h).acc + (clampI 0 262144
      (portVal s (0x640 + h))).toNat → ((htU s h).net + (if pos then 1 else -1)).natAbs ≤ 1 → Does
      (.heaterHalfCycle h pos) s fun t => t.on (HT_STAT_FIRING h) = true ∧ (htU t h).gate = true ∧ (htU t h).acc =
      (htU s h).acc + (clampI 0 262144 (portVal s (0x640 + h))).toNat - 262144 ∧ (htU t h).net = (htU s h).net +
      (if pos then 1 else -1) ∧ t.out = s.out ++ (if s.mapped 0x17 h 0 then [.fire h 1 none (s.g (HT_CTRL_GATE_US
      h)) (s.g (HT_CTRL_PHASE h) % 3) (s.g HT_ZC_DELAY)] else []) ∧ OnlyRegs [HT_STAT h] s t) ∧
    (s.dead = false → s.g (HT_CTRL_MODE h) = 1 → htOk s h = false ∨ (htU s h).acc + (clampI 0 262144 (portVal s
      (0x640 + h))).toNat < 262144 ∨ 1 < ((htU s h).net + (if pos then 1 else -1)).natAbs → Does (.heaterHalfCycle
      h pos) s fun t => t.on (HT_STAT_FIRING h) = false ∧ (htU t h).gate = false ∧ (htU t h).acc = (htU s h).acc +
      (clampI 0 262144 (portVal s (0x640 + h))).toNat ∧ (htU t h).net = (htU s h).net ∧ OnlyRegs [HT_STAT h] s t)
      ∧
    (s.dead = false → htOk s h = true → s.g (HT_CTRL_MODE h) = 2 → 0 < portVal s (0x640 + h) → Does
      (.heaterHalfCycle h pos) s fun t => t.on (HT_STAT_FIRING h) = true ∧ (htU t h).gate = true ∧ t.out = s.out
      ++ (if s.mapped 0x17 h 0 then [.fire h 2 (some (firingAngle (clampI 0 262144 (portVal s (0x640 + h))).toNat,
      s.g HT_ZC_PERIOD)) (s.g (HT_CTRL_GATE_US h)) (s.g (HT_CTRL_PHASE h) % 3) (s.g HT_ZC_DELAY)] else []) ∧
      t.free = s.free ∧ OnlyRegs [HT_STAT h] s t) ∧
    (s.dead = false → htOk s h = false ∨ s.g (HT_CTRL_MODE h) = 0 → Does (.heaterHalfCycle h pos) s fun t => t.on
      (HT_STAT_FIRING h) = false ∧ (htU t h).gate = false ∧ s.g (HT_CTRL_MODE h) ≠ 1 → (htU t h).acc = (htU s
      h).acc ∧ OnlyRegs [HT_STAT h] s t) ∧
    (s.dead = false → s.g (HT_TH_VMIN h) ≤ code.toNat → code.toNat ≤ s.g (HT_TH_VMAX h) → htHot s h code.toNat =
      true ∨ htCool s h code.toNat = true → Does (.heaterSample h code) s fun t => t.g (HT_STAT_CODE h) =
      code.toNat ∧ t.on (HT_STAT_OVER h) = htHot s h code.toNat ∧ (htU t h).broken = false ∧ OnlyRegs [HT_STAT h]
      s t) ∧
    (s.dead = false → code.toNat < s.g (HT_TH_VMIN h) ∨ s.g (HT_TH_VMAX h) < code.toNat → (htU s h).broken = false
      → Does (.heaterSample h code) s fun t => t.g (HT_STAT_CODE h) = code.toNat ∧ t.on (HT_STAT_OVER h) = true ∧
      t.on (HT_STAT_BROKEN h) = true ∧ (htU t h).broken = true ∧ (htU t h).gate = false) ∧
    (s.dead = false → s.on (HT_OTC_ENABLE h) = true → s.on (HT_STAT_CLEATED h) = false → Does (.heaterOtsTrip h
      true) s fun t => t.on (HT_STAT_CLEATED h) = true ∧ (htU t h).gate = false ∧ (htU t h).trips = true) ∧
    (s.dead = false → Does (.heaterOtsTrip h false) s fun t => (htU t h).trips = false ∧ t.regs = s.regs ∧ t.out =
      s.out) ∧
    (Reaches s (HT_CTRL h) → fieldOf (HT_CTRL_ENABLE h) v = 1 → fieldOf (HT_CTRL_CLEAR h) v = 0 → s.on
      (HT_OTC_ENABLE h) = true → Does (.heaterEnable h v) s fun t => t.on (HT_CTRL_ENABLE h) = true ∧ t.mot =
      s.mot ∧ t.out = s.out ∧ OnlyRegs [HT_CTRL h] s t) ∧
    (Reaches s (HT_CTRL h) → fieldOf (HT_CTRL_ENABLE h) v = 1 → fieldOf (HT_CTRL_CLEAR h) v = 0 → s.on
      (HT_OTC_ENABLE h) = false → Does (.heaterEnable h v) s fun t => t.on (HT_STAT_CFG_ERR h) = true ∧ t.on
      (HT_CTRL_ENABLE h) = s.on (HT_CTRL_ENABLE h) ∧ t.mot = s.mot ∧ t.out = s.out ∧ OnlyRegs [HT_CTRL h, HT_STAT
      h] s t) ∧
    (Reaches s (HT_CTRL h) → fieldOf (HT_CTRL_CLEAR h) v = 1 → (htU s h).trips = false ∨ s.on (HT_OTC_ENABLE h) =
      false → Does (.heaterClear h v) s fun t => t.on (HT_STAT_CLEATED h) = false ∧ (fieldOf (HT_CTRL_ENABLE h) v
      = 0 → t.on (HT_CTRL_ENABLE h) = false ∧ (htU t h).gate = false) ∧ OnlyRegs [HT_CTRL h, HT_STAT h] s t) ∧
    (Reaches s (HT_CTRL h) → fieldOf (HT_CTRL_CLEAR h) v = 1 → (htU s h).trips = true → s.on (HT_OTC_ENABLE h) =
      true → Does (.heaterClear h v) s fun t => t.on (HT_STAT_CLEATED h) = s.on (HT_STAT_CLEATED h) ∧ t.on
      (HT_STAT_CFG_ERR h) = true ∧ OnlyRegs [HT_CTRL h, HT_STAT h] s t)

/-- A write of the low word of a program word or a state word changes no register and holds the value; the write of
the high word, where no enabled loop uses the word, then makes both halves what was written; a read of the low word
latches the high word for the next read of it. (R283) -/
def Obligations.WideWordsInTwoHalves : Prop :=
  ∀ (s : State) (w : Fin 4096) (k : Fin 1024) (be : Fin 16) (v : Word),
    (Reaches s (CE_PROG_LO w) → (enabledLoops s).all (fun n => !(lpWords s n).contains w.val) = true → Does
      (.registerWrite (BitVec.ofNat 26 (CE_PROG_LO w)) 15 v) s fun t => heldLow t (CE_PROG_LO w) = v ∧ t.regs =
      s.regs ∧ t.out = s.out) ∧
    (Reaches s (CE_STATE_LO k) → (enabledLoops s).any (fun n => lpUsesState s n k) = false → Does (.registerWrite
      (BitVec.ofNat 26 (CE_STATE_LO k)) 15 v) s fun t => heldLow t (CE_STATE_LO k) = v ∧ t.regs = s.regs ∧ t.out =
      s.out) ∧
    (Reaches s (CE_PROG_HI w) → (enabledLoops s).all (fun n => !(lpWords s n).contains w.val) = true → Does
      (.wideWordWrite true w v) s fun t => t.reg (CE_PROG_HI w) = v ∧ t.reg (CE_PROG_LO w) = heldLow s (CE_PROG_LO
      w) ∧ OnlyRegs [CE_PROG_HI w, CE_PROG_LO w] s t) ∧
    (Reaches s (CE_STATE_HI (w.val % 1024)) → (enabledLoops s).any (fun n => lpUsesState s n (w.val % 1024)) =
      false → Does (.wideWordWrite false w v) s fun t => stateVal t (w.val % 1024) = sext 48 (v.toNat % 65536 * 2
      ^ 32 + (heldLow s (CE_STATE_LO (w.val % 1024))).toNat) ∧ OnlyRegs [CE_STATE_HI (w.val % 1024), CE_STATE_LO
      (w.val % 1024)] s t) ∧
    (Reaches s (CE_PROG_LO w) → Does (.lowWordRead (BitVec.ofNat 26 (CE_PROG_LO w)) be) s fun t => t.latched
      (CE_PROG_HI w) = s.reg (CE_PROG_HI w) ∧ t.regs = s.regs) ∧
    (Reaches s (CE_STATE_LO k) → Does (.lowWordRead (BitVec.ofNat 26 (CE_STATE_LO k)) be) s fun t => t.latched
      (CE_STATE_HI k) = s.reg (CE_STATE_HI k) ∧ t.regs = s.regs)

/-- Writing 1 to HVj_CTRL.CLEAR of a CLEATED channel whose discharge is confirmed, with every interlock closed,
returns it to OFF and clears ENABLE; no other channel's register changes. While the discharge is unconfirmed or an
interlock is open, CLEAR is ignored and CFG_ERR is set: the channel stays CLEATED, with its cause and its ENABLE.
(R298) -/
def Obligations.ClearOfACleatedChannel : Prop :=
  ∀ (s : State) (j : Fin 32) (v : Word),
    Reaches s (HV_CTRL j) →
    fieldOf (HV_CTRL_CLEAR j) v = 1 →
    hvState s j = Hvs.cleated →
    (s.on (HV_STAT_DSC_PEND j) = false → anyOpen s = false → Does (.hvClear j v) s fun t => hvState t j = Hvs.off
      ∧ t.on (HV_CTRL_ENABLE j) = false ∧ t.g (HV_STAT_CAUSE j) = 0 ∧ t.mot = s.mot ∧ t.out = s.out ∧ OnlyRegs
      [HV_CTRL j, HV_STAT j] s t) ∧
    (s.on (HV_STAT_DSC_PEND j) = true ∨ anyOpen s = true → Does (.hvClear j v) s fun t => t.on (HV_STAT_CFG_ERR j)
      = true ∧ hvState t j = Hvs.cleated ∧ t.on (HV_CTRL_ENABLE j) = s.on (HV_CTRL_ENABLE j) ∧ t.g (HV_STAT_CAUSE
      j) = s.g (HV_STAT_CAUSE j) ∧ t.mot = s.mot ∧ t.out = s.out ∧ OnlyRegs [HV_CTRL j, HV_STAT j] s t)

/-- In a rigged chip. A ball of an FIO bank that the image gives to a unit signal is that unit's alone, with no
condition on the spar fabric or its HOLD. One that the image gives to no unit and the fabric uses is the fabric's
while the fabric is configured and HOLD is 0, and else high-impedance. One that neither uses is high-impedance with
no pull. The six outputs of a motor channel OFF or in FAULT are low on any ball that carries one. (02_rigging.md,
Spar fabric, 10_motors_foc.md, Channel states) -/
def Obligations.FioBalls : Prop :=
  ∀ (s : State) (i : Fin 128) (ball : Nat) (pad : Nat) (cls : Nat) (inst : Nat) (sig : Nat),
    s.rigged = true →
    (s.rig.pads.find? (fun p => p.1 == fioBall i) = some (fioBall i, pad, cls, inst, sig) → ballDrive s (fioBall
      i) = unitDrive s cls inst sig) ∧
    (s.rig.pads.find? (fun p => p.1 == fioBall i) = none → fabricUses s i = true → s.on SPAR_STAT_CONFIGURED =
      true → s.on SPAR_CTRL_HOLD = false → ballDrive s (fioBall i) = .fabric) ∧
    (s.rig.pads.find? (fun p => p.1 == fioBall i) = none → fabricUses s i = true → s.on SPAR_STAT_CONFIGURED =
      false ∨ s.on SPAR_CTRL_HOLD = true → ballDrive s (fioBall i) = .highZ false) ∧
    (s.rig.pads.find? (fun p => p.1 == fioBall i) = none → fabricUses s i = false → ballDrive s (fioBall i) =
      .highZ false) ∧
    (s.rig.pads.find? (fun p => p.1 == ball) = some (ball, pad, 0x10, inst, sig) → sig < 6 → mcState s inst =
      Mcs.off ∨ mcState s inst = Mcs.fault → ballDrive s ball = .level false)
end

