-- ==== Sys2Proof/Laws/Bank.lean ====
section
/-!
SUPPORT. Laws of banks: a value put is the value read, every other key reads as before, and the canonical form is kept.
-/

namespace Sys2Proof.Machine

variable {α : Type}

@[simp] theorem bankGet_nil (d : α) (k : Nat) : bankGet d [] k = d := rfl

theorem bankGet_erase_self (d : α) (k : Nat) (b : Bank α) : bankGet d (bankErase k b) k = d := by
  induction b with
  | nil => rfl
  | cons e r ih =>
    unfold bankErase
    split
    · exact ih
    · rename_i h; simp [bankGet, h, ih]

theorem bankGet_erase_other (d : α) (k j : Nat) (b : Bank α) (h : j ≠ k) :
    bankGet d (bankErase k b) j = bankGet d b j := by
  induction b with
  | nil => rfl
  | cons e r ih =>
    unfold bankErase
    split
    · rename_i hk
      rw [ih]
      have : ¬ e.1 = j := by omega
      simp [bankGet, this]
    · simp [bankGet, ih]

theorem bankGet_insert_other (d : α) (k j : Nat) (v : α) (b : Bank α) (h : j ≠ k) :
    bankGet d (bankInsert k v b) j = bankGet d b j := by
  induction b with
  | nil => simp [bankInsert, bankGet, Ne.symm h]
  | cons e r ih =>
    unfold bankInsert
    split
    · simp [bankGet, Ne.symm h]
    · simp [bankGet, ih]

theorem bankGet_insert_self (d : α) (k : Nat) (v : α) (b : Bank α) (h : ∀ e ∈ b, e.1 ≠ k) :
    bankGet d (bankInsert k v b) k = v := by
  induction b with
  | nil => simp [bankInsert, bankGet]
  | cons e r ih =>
    have he : ¬ e.1 = k := h e (by simp)
    unfold bankInsert
    split
    · simp [bankGet]
    · simp only [bankGet, he, if_false]
      exact ih fun x hx => h x (by simp [hx])

theorem bankErase_ne (k : Nat) (b : Bank α) : ∀ e ∈ bankErase k b, e.1 ≠ k := by
  induction b with
  | nil => simp [bankErase]
  | cons e r ih =>
    unfold bankErase
    split
    · exact ih
    · rename_i h
      intro x hx
      rcases List.mem_cons.mp hx with rfl | hx
      · exact h
      · exact ih x hx

theorem bankErase_mem (k : Nat) (b : Bank α) : ∀ e ∈ bankErase k b, e ∈ b := by
  induction b with
  | nil => simp [bankErase]
  | cons e r ih =>
    unfold bankErase
    intro x hx
    split at hx
    · exact List.mem_cons_of_mem _ (ih x hx)
    · rcases List.mem_cons.mp hx with rfl | hx
      · exact List.mem_cons_self
      · exact List.mem_cons_of_mem _ (ih x hx)

variable [DecidableEq α]

/-- The value put at a key is what it reads as. -/
@[simp] theorem bankGet_put_self (d : α) (k : Nat) (v : α) (b : Bank α) : bankGet d (bankPut d k v b) k = v := by
  unfold bankPut
  split
  · rename_i h; rw [bankGet_erase_self, h]
  · exact bankGet_insert_self d k v _ (bankErase_ne k b)

/-- Every other key reads as before. -/
theorem bankGet_put_other (d d' : α) (k j : Nat) (v : α) (b : Bank α) (h : j ≠ k) :
    bankGet d' (bankPut d k v b) j = bankGet d' b j := by
  unfold bankPut
  split
  · exact bankGet_erase_other d' k j b h
  · rw [bankGet_insert_other d' k j v _ h, bankGet_erase_other d' k j b h]

/-! ## The canonical form -/

theorem bankWf_cons (df : Nat → α) (e : Nat × α) (r : Bank α) :
    bankWf df (e :: r) = true ↔ e.2 ≠ df e.1 ∧ (∀ f ∈ r, e.1 < f.1) ∧ bankWf df r = true := by
  simp [bankWf, List.all_eq_true, and_assoc]

theorem bankWf_erase (df : Nat → α) (k : Nat) (b : Bank α) (h : bankWf df b = true) : bankWf df (bankErase k b) = true := by
  induction b with
  | nil => rfl
  | cons e r ih =>
    obtain ⟨h1, h2, h3⟩ := (bankWf_cons df e r).mp h
    unfold bankErase
    split
    · exact ih h3
    · exact (bankWf_cons df e _).mpr ⟨h1, fun f hf => h2 f (bankErase_mem k r f hf), ih h3⟩

omit [DecidableEq α] in
theorem bankInsert_mem (k : Nat) (v : α) (b : Bank α) : ∀ e ∈ bankInsert k v b, e = (k, v) ∨ e ∈ b := by
  induction b with
  | nil => intro e he; simpa [bankInsert] using he
  | cons e r ih =>
    intro x hx
    unfold bankInsert at hx
    split at hx
    · simpa using hx
    · rcases List.mem_cons.mp hx with rfl | hx
      · exact Or.inr List.mem_cons_self
      · rcases ih x hx with rfl | hx
        · exact Or.inl rfl
        · exact Or.inr (List.mem_cons_of_mem _ hx)

theorem bankWf_insert (df : Nat → α) (k : Nat) (v : α) (b : Bank α) (hv : v ≠ df k) (hk : ∀ e ∈ b, e.1 ≠ k)
    (h : bankWf df b = true) : bankWf df (bankInsert k v b) = true := by
  induction b with
  | nil => simp [bankInsert, bankWf, hv]
  | cons e r ih =>
    obtain ⟨h1, h2, h3⟩ := (bankWf_cons df e r).mp h
    unfold bankInsert
    split
    · rename_i hlt
      refine (bankWf_cons df _ _).mpr ⟨hv, ?_, h⟩
      intro f hf
      rcases List.mem_cons.mp hf with rfl | hf
      · exact hlt
      · exact Nat.lt_trans hlt (h2 f hf)
    · rename_i hlt
      have hne := hk e List.mem_cons_self
      refine (bankWf_cons df _ _).mpr ⟨h1, ?_, ih (fun x hx => hk x (List.mem_cons_of_mem _ hx)) h3⟩
      intro f hf
      rcases bankInsert_mem k v r f hf with rfl | hf
      · show e.1 < k; omega
      · exact h2 f hf

/-- Putting a value keeps the canonical form. -/
theorem bankWf_put (df : Nat → α) (k : Nat) (v : α) (b : Bank α) (h : bankWf df b = true) :
    bankWf df (bankPut (df k) k v b) = true := by
  unfold bankPut
  split
  · exact bankWf_erase df k b h
  · rename_i hv
    exact bankWf_insert df k v _ hv (bankErase_ne k b) (bankWf_erase df k b h)

theorem bankWf_filter (df : Nat → α) (p : Nat × α → Bool) (b : Bank α) (h : bankWf df b = true) :
    bankWf df (b.filter p) = true := by
  induction b with
  | nil => rfl
  | cons e r ih =>
    obtain ⟨h1, h2, h3⟩ := (bankWf_cons df e r).mp h
    rw [List.filter_cons]
    split
    · exact (bankWf_cons df e _).mpr ⟨h1, fun f hf => h2 f (List.mem_filter.mp hf).1, ih h3⟩
    · exact ih h3

end Sys2Proof.Machine
end

