-- ==== Sys2Proof/Laws/Bits.lean ====
section
/-!
SUPPORT. Laws of bit runs: a run written reads back, a run beside it does not change.
-/

namespace Sys2Proof

theorem bitsOf_lt (v lo w : Nat) : bitsOf v lo w < 2 ^ w := Nat.mod_lt _ (Nat.two_pow_pos w)

theorem bitsOf_mod (v lo w : Nat) : bitsOf v lo w % 2 ^ w = bitsOf v lo w := Nat.mod_eq_of_lt (bitsOf_lt v lo w)

/-- A number splits at a run of its bits: what lies above, the run, what lies below. -/
theorem split_bits (v lo w : Nat) :
    v = (v / 2 ^ (lo + w)) * 2 ^ (lo + w) + bitsOf v lo w * 2 ^ lo + v % 2 ^ lo := by
  have h1 := Nat.div_add_mod v (2 ^ lo)
  have h2 := Nat.div_add_mod (v / 2 ^ lo) (2 ^ w)
  rw [Nat.div_div_eq_div_mul, ← Nat.pow_add] at h2
  unfold bitsOf
  have h3 : 2 ^ lo * (v / 2 ^ lo) = (v / 2 ^ (lo + w)) * 2 ^ (lo + w) + v / 2 ^ lo % 2 ^ w * 2 ^ lo := by
    conv_lhs => rw [← h2]
    rw [Nat.mul_add, Nat.pow_add]
    ac_rfl
  omega

/-- The same number with another value in the run. -/
theorem bitsPut_eq (v lo w x : Nat) :
    bitsPut v lo w x = (v / 2 ^ (lo + w)) * 2 ^ (lo + w) + (x % 2 ^ w) * 2 ^ lo + v % 2 ^ lo := by
  unfold bitsPut
  have h := split_bits v lo w
  omega

theorem bitsOf_bitsPut_self (v lo w x : Nat) : bitsOf (bitsPut v lo w x) lo w = x % 2 ^ w := by
  rw [bitsPut_eq]
  unfold bitsOf
  have hp : (v / 2 ^ (lo + w)) * 2 ^ (lo + w) + (x % 2 ^ w) * 2 ^ lo + v % 2 ^ lo
      = v % 2 ^ lo + 2 ^ lo * ((v / 2 ^ (lo + w)) * 2 ^ w + x % 2 ^ w) := by
    rw [Nat.pow_add, Nat.mul_add]; ac_rfl
  rw [hp, Nat.add_mul_div_left _ _ (Nat.two_pow_pos lo), Nat.div_eq_of_lt (Nat.mod_lt _ (Nat.two_pow_pos lo)),
    Nat.zero_add, Nat.add_comm, Nat.add_mul_mod_self_right, Nat.mod_mod]

theorem bitsOf_bitsPut_below (v lo w x lo' w' : Nat) (h : lo' + w' ≤ lo) :
    bitsOf (bitsPut v lo w x) lo' w' = bitsOf v lo' w' := by
  have key : ∀ a b : Nat, a % 2 ^ lo = b % 2 ^ lo → bitsOf a lo' w' = bitsOf b lo' w' := by
    intro a b hab
    have e : ∀ c : Nat, bitsOf (c % 2 ^ lo) lo' w' = bitsOf c lo' w' := by
      intro c
      unfold bitsOf
      obtain ⟨k, rfl⟩ := Nat.exists_eq_add_of_le h
      rw [Nat.add_assoc, Nat.pow_add, Nat.mod_mul_right_div_self, Nat.pow_add, Nat.mod_mul_right_mod]
    rw [← e a, ← e b, hab]
  apply key
  rw [bitsPut_eq, Nat.pow_add]
  have : v / (2 ^ lo * 2 ^ w) * (2 ^ lo * 2 ^ w) + x % 2 ^ w * 2 ^ lo + v % 2 ^ lo
      = v % 2 ^ lo + 2 ^ lo * (v / (2 ^ lo * 2 ^ w) * 2 ^ w + x % 2 ^ w) := by
    rw [Nat.mul_add]; ac_rfl
  rw [this, Nat.add_mul_mod_self_left, Nat.mod_mod]

theorem bitsOf_bitsPut_above (v lo w x lo' w' : Nat) (h : lo + w ≤ lo') :
    bitsOf (bitsPut v lo w x) lo' w' = bitsOf v lo' w' := by
  have key : bitsPut v lo w x / 2 ^ (lo + w) = v / 2 ^ (lo + w) := by
    rw [bitsPut_eq]
    have hlt : (x % 2 ^ w) * 2 ^ lo + v % 2 ^ lo < 2 ^ (lo + w) := by
      have h1 : x % 2 ^ w < 2 ^ w := Nat.mod_lt _ (Nat.two_pow_pos w)
      have h2 : v % 2 ^ lo < 2 ^ lo := Nat.mod_lt _ (Nat.two_pow_pos lo)
      calc (x % 2 ^ w) * 2 ^ lo + v % 2 ^ lo < (x % 2 ^ w) * 2 ^ lo + 2 ^ lo := by omega
        _ = (x % 2 ^ w + 1) * 2 ^ lo := by rw [Nat.add_mul, Nat.one_mul]
        _ ≤ 2 ^ w * 2 ^ lo := Nat.mul_le_mul_right _ h1
        _ = 2 ^ (lo + w) := by rw [Nat.pow_add, Nat.mul_comm]
    rw [Nat.add_assoc, Nat.mul_comm, Nat.mul_add_div (Nat.two_pow_pos _), Nat.div_eq_of_lt hlt, Nat.add_zero]
  obtain ⟨k, rfl⟩ := Nat.exists_eq_add_of_le h
  have e : ∀ a : Nat, bitsOf a (lo + w + k) w' = a / 2 ^ (lo + w) / 2 ^ k % 2 ^ w' := by
    intro a
    unfold bitsOf
    rw [Nat.div_div_eq_div_mul, ← Nat.pow_add]
  rw [e, e, key]

/-- A run written does not change a run beside it. -/
theorem bitsOf_bitsPut_other (v lo w x lo' w' : Nat) (h : lo' + w' ≤ lo ∨ lo + w ≤ lo') :
    bitsOf (bitsPut v lo w x) lo' w' = bitsOf v lo' w' := by
  rcases h with h | h
  · exact bitsOf_bitsPut_below v lo w x lo' w' h
  · exact bitsOf_bitsPut_above v lo w x lo' w' h

theorem bitsPut_lt (v lo w x n : Nat) (hv : v < 2 ^ n) (h : lo + w ≤ n) : bitsPut v lo w x < 2 ^ n := by
  have hd : bitsPut v lo w x / 2 ^ n = 0 := by
    have e := bitsOf_bitsPut_above v lo w x n (n + 1 + bitsPut v lo w x + v) h
    unfold bitsOf at e
    have big : ∀ a : Nat, a / 2 ^ n ≤ a := fun a => Nat.div_le_self a _
    have hl : ∀ a b : Nat, a ≤ b → a < 2 ^ b := fun a b hab => Nat.lt_of_le_of_lt hab Nat.lt_two_pow_self
    rw [Nat.mod_eq_of_lt (hl _ _ (Nat.le_trans (big _) (by omega))),
      Nat.mod_eq_of_lt (hl _ _ (Nat.le_trans (big _) (by omega))), Nat.div_eq_of_lt hv] at e
    exact e
  exact (Nat.div_eq_zero_iff_lt (Nat.two_pow_pos n)).mp hd

end Sys2Proof
end

