-- ==== Sys2Proof/Laws/State.lean ====
section
/-!
SUPPORT. Laws of State: what each update leaves alone, field by field; registers and their fields read back as written,
and every other register and field reads as before.
-/

namespace Sys2Proof.Machine

/-! ## What an update leaves alone -/

@[simp] theorem State.setReg_part (s : State) (off : Nat) (v : Word) : (s.setReg off v).part = s.part := rfl
@[simp] theorem State.setReg_rev (s : State) (off : Nat) (v : Word) : (s.setReg off v).rev = s.rev := rfl
@[simp] theorem State.setReg_inReset (s : State) (off : Nat) (v : Word) : (s.setReg off v).inReset = s.inReset := rfl
@[simp] theorem State.setReg_pinLow (s : State) (off : Nat) (v : Word) : (s.setReg off v).pinLow = s.pinLow := rfl
@[simp] theorem State.setReg_latch (s : State) (off : Nat) (v : Word) : (s.setReg off v).latch = s.latch := rfl
@[simp] theorem State.setReg_mem (s : State) (off : Nat) (v : Word) : (s.setReg off v).mem = s.mem := rfl
@[simp] theorem State.setReg_time (s : State) (off : Nat) (v : Word) : (s.setReg off v).time = s.time := rfl
@[simp] theorem State.setReg_clock (s : State) (off : Nat) (v : Word) : (s.setReg off v).clock = s.clock := rfl
@[simp] theorem State.setReg_free (s : State) (off : Nat) (v : Word) : (s.setReg off v).free = s.free := rfl
@[simp] theorem State.setReg_out (s : State) (off : Nat) (v : Word) : (s.setReg off v).out = s.out := rfl
@[simp] theorem State.setReg_pending (s : State) (off : Nat) (v : Word) : (s.setReg off v).pending = s.pending := rfl
@[simp] theorem State.setReg_host (s : State) (off : Nat) (v : Word) : (s.setReg off v).host = s.host := rfl
@[simp] theorem State.setReg_err (s : State) (off : Nat) (v : Word) : (s.setReg off v).err = s.err := rfl
@[simp] theorem State.setReg_psq (s : State) (off : Nat) (v : Word) : (s.setReg off v).psq = s.psq := rfl
@[simp] theorem State.setReg_ctx (s : State) (off : Nat) (v : Word) : (s.setReg off v).ctx = s.ctx := rfl
@[simp] theorem State.setReg_codec (s : State) (off : Nat) (v : Word) : (s.setReg off v).codec = s.codec := rfl
@[simp] theorem State.setReg_stn (s : State) (off : Nat) (v : Word) : (s.setReg off v).stn = s.stn := rfl
@[simp] theorem State.setReg_epoch (s : State) (off : Nat) (v : Word) : (s.setReg off v).epoch = s.epoch := rfl
@[simp] theorem State.setReg_epochNvm (s : State) (off : Nat) (v : Word) : (s.setReg off v).epochNvm = s.epochNvm := rfl
@[simp] theorem State.setReg_nvmRing (s : State) (off : Nat) (v : Word) : (s.setReg off v).nvmRing = s.nvmRing := rfl
@[simp] theorem State.setReg_nvmNext (s : State) (off : Nat) (v : Word) : (s.setReg off v).nvmNext = s.nvmNext := rfl
@[simp] theorem State.setReg_staySeq (s : State) (off : Nat) (v : Word) : (s.setReg off v).staySeq = s.staySeq := rfl
@[simp] theorem State.setReg_dram (s : State) (off : Nat) (v : Word) : (s.setReg off v).dram = s.dram := rfl
@[simp] theorem State.setReg_clk (s : State) (off : Nat) (v : Word) : (s.setReg off v).clk = s.clk := rfl
@[simp] theorem State.setReg_mon (s : State) (off : Nat) (v : Word) : (s.setReg off v).mon = s.mon := rfl
@[simp] theorem State.setReg_rig (s : State) (off : Nat) (v : Word) : (s.setReg off v).rig = s.rig := rfl
@[simp] theorem State.setReg_mot (s : State) (off : Nat) (v : Word) : (s.setReg off v).mot = s.mot := rfl
@[simp] theorem State.setReg_pwr (s : State) (off : Nat) (v : Word) : (s.setReg off v).pwr = s.pwr := rfl
@[simp] theorem State.setReg_thm (s : State) (off : Nat) (v : Word) : (s.setReg off v).thm = s.thm := rfl
@[simp] theorem State.setReg_vis (s : State) (off : Nat) (v : Word) : (s.setReg off v).vis = s.vis := rfl
@[simp] theorem State.setReg_net (s : State) (off : Nat) (v : Word) : (s.setReg off v).net = s.net := rfl
@[simp] theorem State.setReg_dma (s : State) (off : Nat) (v : Word) : (s.setReg off v).dma = s.dma := rfl

@[simp] theorem State.p_part (s : State) (f : Fld) (v : Nat) : (s.p f v).part = s.part := rfl
@[simp] theorem State.p_rev (s : State) (f : Fld) (v : Nat) : (s.p f v).rev = s.rev := rfl
@[simp] theorem State.p_inReset (s : State) (f : Fld) (v : Nat) : (s.p f v).inReset = s.inReset := rfl
@[simp] theorem State.p_pinLow (s : State) (f : Fld) (v : Nat) : (s.p f v).pinLow = s.pinLow := rfl
@[simp] theorem State.p_latch (s : State) (f : Fld) (v : Nat) : (s.p f v).latch = s.latch := rfl
@[simp] theorem State.p_mem (s : State) (f : Fld) (v : Nat) : (s.p f v).mem = s.mem := rfl
@[simp] theorem State.p_time (s : State) (f : Fld) (v : Nat) : (s.p f v).time = s.time := rfl
@[simp] theorem State.p_clock (s : State) (f : Fld) (v : Nat) : (s.p f v).clock = s.clock := rfl
@[simp] theorem State.p_free (s : State) (f : Fld) (v : Nat) : (s.p f v).free = s.free := rfl
@[simp] theorem State.p_out (s : State) (f : Fld) (v : Nat) : (s.p f v).out = s.out := rfl
@[simp] theorem State.p_pending (s : State) (f : Fld) (v : Nat) : (s.p f v).pending = s.pending := rfl
@[simp] theorem State.p_host (s : State) (f : Fld) (v : Nat) : (s.p f v).host = s.host := rfl
@[simp] theorem State.p_err (s : State) (f : Fld) (v : Nat) : (s.p f v).err = s.err := rfl
@[simp] theorem State.p_psq (s : State) (f : Fld) (v : Nat) : (s.p f v).psq = s.psq := rfl
@[simp] theorem State.p_ctx (s : State) (f : Fld) (v : Nat) : (s.p f v).ctx = s.ctx := rfl
@[simp] theorem State.p_codec (s : State) (f : Fld) (v : Nat) : (s.p f v).codec = s.codec := rfl
@[simp] theorem State.p_stn (s : State) (f : Fld) (v : Nat) : (s.p f v).stn = s.stn := rfl
@[simp] theorem State.p_epoch (s : State) (f : Fld) (v : Nat) : (s.p f v).epoch = s.epoch := rfl
@[simp] theorem State.p_epochNvm (s : State) (f : Fld) (v : Nat) : (s.p f v).epochNvm = s.epochNvm := rfl
@[simp] theorem State.p_nvmRing (s : State) (f : Fld) (v : Nat) : (s.p f v).nvmRing = s.nvmRing := rfl
@[simp] theorem State.p_nvmNext (s : State) (f : Fld) (v : Nat) : (s.p f v).nvmNext = s.nvmNext := rfl
@[simp] theorem State.p_staySeq (s : State) (f : Fld) (v : Nat) : (s.p f v).staySeq = s.staySeq := rfl
@[simp] theorem State.p_dram (s : State) (f : Fld) (v : Nat) : (s.p f v).dram = s.dram := rfl
@[simp] theorem State.p_clk (s : State) (f : Fld) (v : Nat) : (s.p f v).clk = s.clk := rfl
@[simp] theorem State.p_mon (s : State) (f : Fld) (v : Nat) : (s.p f v).mon = s.mon := rfl
@[simp] theorem State.p_rig (s : State) (f : Fld) (v : Nat) : (s.p f v).rig = s.rig := rfl
@[simp] theorem State.p_mot (s : State) (f : Fld) (v : Nat) : (s.p f v).mot = s.mot := rfl
@[simp] theorem State.p_pwr (s : State) (f : Fld) (v : Nat) : (s.p f v).pwr = s.pwr := rfl
@[simp] theorem State.p_thm (s : State) (f : Fld) (v : Nat) : (s.p f v).thm = s.thm := rfl
@[simp] theorem State.p_vis (s : State) (f : Fld) (v : Nat) : (s.p f v).vis = s.vis := rfl
@[simp] theorem State.p_net (s : State) (f : Fld) (v : Nat) : (s.p f v).net = s.net := rfl
@[simp] theorem State.p_dma (s : State) (f : Fld) (v : Nat) : (s.p f v).dma = s.dma := rfl

@[simp] theorem State.pz_part (s : State) (f : Fld) (v : Int) : (s.pz f v).part = s.part := rfl
@[simp] theorem State.pz_rev (s : State) (f : Fld) (v : Int) : (s.pz f v).rev = s.rev := rfl
@[simp] theorem State.pz_inReset (s : State) (f : Fld) (v : Int) : (s.pz f v).inReset = s.inReset := rfl
@[simp] theorem State.pz_pinLow (s : State) (f : Fld) (v : Int) : (s.pz f v).pinLow = s.pinLow := rfl
@[simp] theorem State.pz_latch (s : State) (f : Fld) (v : Int) : (s.pz f v).latch = s.latch := rfl
@[simp] theorem State.pz_mem (s : State) (f : Fld) (v : Int) : (s.pz f v).mem = s.mem := rfl
@[simp] theorem State.pz_time (s : State) (f : Fld) (v : Int) : (s.pz f v).time = s.time := rfl
@[simp] theorem State.pz_clock (s : State) (f : Fld) (v : Int) : (s.pz f v).clock = s.clock := rfl
@[simp] theorem State.pz_free (s : State) (f : Fld) (v : Int) : (s.pz f v).free = s.free := rfl
@[simp] theorem State.pz_out (s : State) (f : Fld) (v : Int) : (s.pz f v).out = s.out := rfl
@[simp] theorem State.pz_pending (s : State) (f : Fld) (v : Int) : (s.pz f v).pending = s.pending := rfl
@[simp] theorem State.pz_host (s : State) (f : Fld) (v : Int) : (s.pz f v).host = s.host := rfl
@[simp] theorem State.pz_err (s : State) (f : Fld) (v : Int) : (s.pz f v).err = s.err := rfl
@[simp] theorem State.pz_psq (s : State) (f : Fld) (v : Int) : (s.pz f v).psq = s.psq := rfl
@[simp] theorem State.pz_ctx (s : State) (f : Fld) (v : Int) : (s.pz f v).ctx = s.ctx := rfl
@[simp] theorem State.pz_codec (s : State) (f : Fld) (v : Int) : (s.pz f v).codec = s.codec := rfl
@[simp] theorem State.pz_stn (s : State) (f : Fld) (v : Int) : (s.pz f v).stn = s.stn := rfl
@[simp] theorem State.pz_epoch (s : State) (f : Fld) (v : Int) : (s.pz f v).epoch = s.epoch := rfl
@[simp] theorem State.pz_epochNvm (s : State) (f : Fld) (v : Int) : (s.pz f v).epochNvm = s.epochNvm := rfl
@[simp] theorem State.pz_nvmRing (s : State) (f : Fld) (v : Int) : (s.pz f v).nvmRing = s.nvmRing := rfl
@[simp] theorem State.pz_nvmNext (s : State) (f : Fld) (v : Int) : (s.pz f v).nvmNext = s.nvmNext := rfl
@[simp] theorem State.pz_staySeq (s : State) (f : Fld) (v : Int) : (s.pz f v).staySeq = s.staySeq := rfl
@[simp] theorem State.pz_dram (s : State) (f : Fld) (v : Int) : (s.pz f v).dram = s.dram := rfl
@[simp] theorem State.pz_clk (s : State) (f : Fld) (v : Int) : (s.pz f v).clk = s.clk := rfl
@[simp] theorem State.pz_mon (s : State) (f : Fld) (v : Int) : (s.pz f v).mon = s.mon := rfl
@[simp] theorem State.pz_rig (s : State) (f : Fld) (v : Int) : (s.pz f v).rig = s.rig := rfl
@[simp] theorem State.pz_mot (s : State) (f : Fld) (v : Int) : (s.pz f v).mot = s.mot := rfl
@[simp] theorem State.pz_pwr (s : State) (f : Fld) (v : Int) : (s.pz f v).pwr = s.pwr := rfl
@[simp] theorem State.pz_thm (s : State) (f : Fld) (v : Int) : (s.pz f v).thm = s.thm := rfl
@[simp] theorem State.pz_vis (s : State) (f : Fld) (v : Int) : (s.pz f v).vis = s.vis := rfl
@[simp] theorem State.pz_net (s : State) (f : Fld) (v : Int) : (s.pz f v).net = s.net := rfl
@[simp] theorem State.pz_dma (s : State) (f : Fld) (v : Int) : (s.pz f v).dma = s.dma := rfl

@[simp] theorem State.pb_part (s : State) (f : Fld) (v : Bool) : (s.pb f v).part = s.part := rfl
@[simp] theorem State.pb_rev (s : State) (f : Fld) (v : Bool) : (s.pb f v).rev = s.rev := rfl
@[simp] theorem State.pb_inReset (s : State) (f : Fld) (v : Bool) : (s.pb f v).inReset = s.inReset := rfl
@[simp] theorem State.pb_pinLow (s : State) (f : Fld) (v : Bool) : (s.pb f v).pinLow = s.pinLow := rfl
@[simp] theorem State.pb_latch (s : State) (f : Fld) (v : Bool) : (s.pb f v).latch = s.latch := rfl
@[simp] theorem State.pb_mem (s : State) (f : Fld) (v : Bool) : (s.pb f v).mem = s.mem := rfl
@[simp] theorem State.pb_time (s : State) (f : Fld) (v : Bool) : (s.pb f v).time = s.time := rfl
@[simp] theorem State.pb_clock (s : State) (f : Fld) (v : Bool) : (s.pb f v).clock = s.clock := rfl
@[simp] theorem State.pb_free (s : State) (f : Fld) (v : Bool) : (s.pb f v).free = s.free := rfl
@[simp] theorem State.pb_out (s : State) (f : Fld) (v : Bool) : (s.pb f v).out = s.out := rfl
@[simp] theorem State.pb_pending (s : State) (f : Fld) (v : Bool) : (s.pb f v).pending = s.pending := rfl
@[simp] theorem State.pb_host (s : State) (f : Fld) (v : Bool) : (s.pb f v).host = s.host := rfl
@[simp] theorem State.pb_err (s : State) (f : Fld) (v : Bool) : (s.pb f v).err = s.err := rfl
@[simp] theorem State.pb_psq (s : State) (f : Fld) (v : Bool) : (s.pb f v).psq = s.psq := rfl
@[simp] theorem State.pb_ctx (s : State) (f : Fld) (v : Bool) : (s.pb f v).ctx = s.ctx := rfl
@[simp] theorem State.pb_codec (s : State) (f : Fld) (v : Bool) : (s.pb f v).codec = s.codec := rfl
@[simp] theorem State.pb_stn (s : State) (f : Fld) (v : Bool) : (s.pb f v).stn = s.stn := rfl
@[simp] theorem State.pb_epoch (s : State) (f : Fld) (v : Bool) : (s.pb f v).epoch = s.epoch := rfl
@[simp] theorem State.pb_epochNvm (s : State) (f : Fld) (v : Bool) : (s.pb f v).epochNvm = s.epochNvm := rfl
@[simp] theorem State.pb_nvmRing (s : State) (f : Fld) (v : Bool) : (s.pb f v).nvmRing = s.nvmRing := rfl
@[simp] theorem State.pb_nvmNext (s : State) (f : Fld) (v : Bool) : (s.pb f v).nvmNext = s.nvmNext := rfl
@[simp] theorem State.pb_staySeq (s : State) (f : Fld) (v : Bool) : (s.pb f v).staySeq = s.staySeq := rfl
@[simp] theorem State.pb_dram (s : State) (f : Fld) (v : Bool) : (s.pb f v).dram = s.dram := rfl
@[simp] theorem State.pb_clk (s : State) (f : Fld) (v : Bool) : (s.pb f v).clk = s.clk := rfl
@[simp] theorem State.pb_mon (s : State) (f : Fld) (v : Bool) : (s.pb f v).mon = s.mon := rfl
@[simp] theorem State.pb_rig (s : State) (f : Fld) (v : Bool) : (s.pb f v).rig = s.rig := rfl
@[simp] theorem State.pb_mot (s : State) (f : Fld) (v : Bool) : (s.pb f v).mot = s.mot := rfl
@[simp] theorem State.pb_pwr (s : State) (f : Fld) (v : Bool) : (s.pb f v).pwr = s.pwr := rfl
@[simp] theorem State.pb_thm (s : State) (f : Fld) (v : Bool) : (s.pb f v).thm = s.thm := rfl
@[simp] theorem State.pb_vis (s : State) (f : Fld) (v : Bool) : (s.pb f v).vis = s.vis := rfl
@[simp] theorem State.pb_net (s : State) (f : Fld) (v : Bool) : (s.pb f v).net = s.net := rfl
@[simp] theorem State.pb_dma (s : State) (f : Fld) (v : Bool) : (s.pb f v).dma = s.dma := rfl

@[simp] theorem State.inc_part (s : State) (f : Fld) : (s.inc f).part = s.part := rfl
@[simp] theorem State.inc_rev (s : State) (f : Fld) : (s.inc f).rev = s.rev := rfl
@[simp] theorem State.inc_inReset (s : State) (f : Fld) : (s.inc f).inReset = s.inReset := rfl
@[simp] theorem State.inc_pinLow (s : State) (f : Fld) : (s.inc f).pinLow = s.pinLow := rfl
@[simp] theorem State.inc_latch (s : State) (f : Fld) : (s.inc f).latch = s.latch := rfl
@[simp] theorem State.inc_mem (s : State) (f : Fld) : (s.inc f).mem = s.mem := rfl
@[simp] theorem State.inc_time (s : State) (f : Fld) : (s.inc f).time = s.time := rfl
@[simp] theorem State.inc_clock (s : State) (f : Fld) : (s.inc f).clock = s.clock := rfl
@[simp] theorem State.inc_free (s : State) (f : Fld) : (s.inc f).free = s.free := rfl
@[simp] theorem State.inc_out (s : State) (f : Fld) : (s.inc f).out = s.out := rfl
@[simp] theorem State.inc_pending (s : State) (f : Fld) : (s.inc f).pending = s.pending := rfl
@[simp] theorem State.inc_host (s : State) (f : Fld) : (s.inc f).host = s.host := rfl
@[simp] theorem State.inc_err (s : State) (f : Fld) : (s.inc f).err = s.err := rfl
@[simp] theorem State.inc_psq (s : State) (f : Fld) : (s.inc f).psq = s.psq := rfl
@[simp] theorem State.inc_ctx (s : State) (f : Fld) : (s.inc f).ctx = s.ctx := rfl
@[simp] theorem State.inc_codec (s : State) (f : Fld) : (s.inc f).codec = s.codec := rfl
@[simp] theorem State.inc_stn (s : State) (f : Fld) : (s.inc f).stn = s.stn := rfl
@[simp] theorem State.inc_epoch (s : State) (f : Fld) : (s.inc f).epoch = s.epoch := rfl
@[simp] theorem State.inc_epochNvm (s : State) (f : Fld) : (s.inc f).epochNvm = s.epochNvm := rfl
@[simp] theorem State.inc_nvmRing (s : State) (f : Fld) : (s.inc f).nvmRing = s.nvmRing := rfl
@[simp] theorem State.inc_nvmNext (s : State) (f : Fld) : (s.inc f).nvmNext = s.nvmNext := rfl
@[simp] theorem State.inc_staySeq (s : State) (f : Fld) : (s.inc f).staySeq = s.staySeq := rfl
@[simp] theorem State.inc_dram (s : State) (f : Fld) : (s.inc f).dram = s.dram := rfl
@[simp] theorem State.inc_clk (s : State) (f : Fld) : (s.inc f).clk = s.clk := rfl
@[simp] theorem State.inc_mon (s : State) (f : Fld) : (s.inc f).mon = s.mon := rfl
@[simp] theorem State.inc_rig (s : State) (f : Fld) : (s.inc f).rig = s.rig := rfl
@[simp] theorem State.inc_mot (s : State) (f : Fld) : (s.inc f).mot = s.mot := rfl
@[simp] theorem State.inc_pwr (s : State) (f : Fld) : (s.inc f).pwr = s.pwr := rfl
@[simp] theorem State.inc_thm (s : State) (f : Fld) : (s.inc f).thm = s.thm := rfl
@[simp] theorem State.inc_vis (s : State) (f : Fld) : (s.inc f).vis = s.vis := rfl
@[simp] theorem State.inc_net (s : State) (f : Fld) : (s.inc f).net = s.net := rfl
@[simp] theorem State.inc_dma (s : State) (f : Fld) : (s.inc f).dma = s.dma := rfl

@[simp] theorem State.resetRegs_part (s : State) (q : Nat → Bool) : (s.resetRegs q).part = s.part := rfl
@[simp] theorem State.resetRegs_rev (s : State) (q : Nat → Bool) : (s.resetRegs q).rev = s.rev := rfl
@[simp] theorem State.resetRegs_inReset (s : State) (q : Nat → Bool) : (s.resetRegs q).inReset = s.inReset := rfl
@[simp] theorem State.resetRegs_pinLow (s : State) (q : Nat → Bool) : (s.resetRegs q).pinLow = s.pinLow := rfl
@[simp] theorem State.resetRegs_latch (s : State) (q : Nat → Bool) : (s.resetRegs q).latch = s.latch := rfl
@[simp] theorem State.resetRegs_mem (s : State) (q : Nat → Bool) : (s.resetRegs q).mem = s.mem := rfl
@[simp] theorem State.resetRegs_time (s : State) (q : Nat → Bool) : (s.resetRegs q).time = s.time := rfl
@[simp] theorem State.resetRegs_clock (s : State) (q : Nat → Bool) : (s.resetRegs q).clock = s.clock := rfl
@[simp] theorem State.resetRegs_free (s : State) (q : Nat → Bool) : (s.resetRegs q).free = s.free := rfl
@[simp] theorem State.resetRegs_out (s : State) (q : Nat → Bool) : (s.resetRegs q).out = s.out := rfl
@[simp] theorem State.resetRegs_pending (s : State) (q : Nat → Bool) : (s.resetRegs q).pending = s.pending := rfl
@[simp] theorem State.resetRegs_host (s : State) (q : Nat → Bool) : (s.resetRegs q).host = s.host := rfl
@[simp] theorem State.resetRegs_err (s : State) (q : Nat → Bool) : (s.resetRegs q).err = s.err := rfl
@[simp] theorem State.resetRegs_psq (s : State) (q : Nat → Bool) : (s.resetRegs q).psq = s.psq := rfl
@[simp] theorem State.resetRegs_ctx (s : State) (q : Nat → Bool) : (s.resetRegs q).ctx = s.ctx := rfl
@[simp] theorem State.resetRegs_codec (s : State) (q : Nat → Bool) : (s.resetRegs q).codec = s.codec := rfl
@[simp] theorem State.resetRegs_stn (s : State) (q : Nat → Bool) : (s.resetRegs q).stn = s.stn := rfl
@[simp] theorem State.resetRegs_epoch (s : State) (q : Nat → Bool) : (s.resetRegs q).epoch = s.epoch := rfl
@[simp] theorem State.resetRegs_epochNvm (s : State) (q : Nat → Bool) : (s.resetRegs q).epochNvm = s.epochNvm := rfl
@[simp] theorem State.resetRegs_nvmRing (s : State) (q : Nat → Bool) : (s.resetRegs q).nvmRing = s.nvmRing := rfl
@[simp] theorem State.resetRegs_nvmNext (s : State) (q : Nat → Bool) : (s.resetRegs q).nvmNext = s.nvmNext := rfl
@[simp] theorem State.resetRegs_staySeq (s : State) (q : Nat → Bool) : (s.resetRegs q).staySeq = s.staySeq := rfl
@[simp] theorem State.resetRegs_dram (s : State) (q : Nat → Bool) : (s.resetRegs q).dram = s.dram := rfl
@[simp] theorem State.resetRegs_clk (s : State) (q : Nat → Bool) : (s.resetRegs q).clk = s.clk := rfl
@[simp] theorem State.resetRegs_mon (s : State) (q : Nat → Bool) : (s.resetRegs q).mon = s.mon := rfl
@[simp] theorem State.resetRegs_rig (s : State) (q : Nat → Bool) : (s.resetRegs q).rig = s.rig := rfl
@[simp] theorem State.resetRegs_mot (s : State) (q : Nat → Bool) : (s.resetRegs q).mot = s.mot := rfl
@[simp] theorem State.resetRegs_pwr (s : State) (q : Nat → Bool) : (s.resetRegs q).pwr = s.pwr := rfl
@[simp] theorem State.resetRegs_thm (s : State) (q : Nat → Bool) : (s.resetRegs q).thm = s.thm := rfl
@[simp] theorem State.resetRegs_vis (s : State) (q : Nat → Bool) : (s.resetRegs q).vis = s.vis := rfl
@[simp] theorem State.resetRegs_net (s : State) (q : Nat → Bool) : (s.resetRegs q).net = s.net := rfl
@[simp] theorem State.resetRegs_dma (s : State) (q : Nat → Bool) : (s.resetRegs q).dma = s.dma := rfl

@[simp] theorem State.setLatch_part (s : State) (off : Nat) (v : Word) : (s.setLatch off v).part = s.part := rfl
@[simp] theorem State.setLatch_rev (s : State) (off : Nat) (v : Word) : (s.setLatch off v).rev = s.rev := rfl
@[simp] theorem State.setLatch_inReset (s : State) (off : Nat) (v : Word) : (s.setLatch off v).inReset = s.inReset := rfl
@[simp] theorem State.setLatch_pinLow (s : State) (off : Nat) (v : Word) : (s.setLatch off v).pinLow = s.pinLow := rfl
@[simp] theorem State.setLatch_regs (s : State) (off : Nat) (v : Word) : (s.setLatch off v).regs = s.regs := rfl
@[simp] theorem State.setLatch_mem (s : State) (off : Nat) (v : Word) : (s.setLatch off v).mem = s.mem := rfl
@[simp] theorem State.setLatch_time (s : State) (off : Nat) (v : Word) : (s.setLatch off v).time = s.time := rfl
@[simp] theorem State.setLatch_clock (s : State) (off : Nat) (v : Word) : (s.setLatch off v).clock = s.clock := rfl
@[simp] theorem State.setLatch_free (s : State) (off : Nat) (v : Word) : (s.setLatch off v).free = s.free := rfl
@[simp] theorem State.setLatch_out (s : State) (off : Nat) (v : Word) : (s.setLatch off v).out = s.out := rfl
@[simp] theorem State.setLatch_pending (s : State) (off : Nat) (v : Word) : (s.setLatch off v).pending = s.pending := rfl
@[simp] theorem State.setLatch_host (s : State) (off : Nat) (v : Word) : (s.setLatch off v).host = s.host := rfl
@[simp] theorem State.setLatch_err (s : State) (off : Nat) (v : Word) : (s.setLatch off v).err = s.err := rfl
@[simp] theorem State.setLatch_psq (s : State) (off : Nat) (v : Word) : (s.setLatch off v).psq = s.psq := rfl
@[simp] theorem State.setLatch_ctx (s : State) (off : Nat) (v : Word) : (s.setLatch off v).ctx = s.ctx := rfl
@[simp] theorem State.setLatch_codec (s : State) (off : Nat) (v : Word) : (s.setLatch off v).codec = s.codec := rfl
@[simp] theorem State.setLatch_stn (s : State) (off : Nat) (v : Word) : (s.setLatch off v).stn = s.stn := rfl
@[simp] theorem State.setLatch_epoch (s : State) (off : Nat) (v : Word) : (s.setLatch off v).epoch = s.epoch := rfl
@[simp] theorem State.setLatch_epochNvm (s : State) (off : Nat) (v : Word) : (s.setLatch off v).epochNvm = s.epochNvm := rfl
@[simp] theorem State.setLatch_nvmRing (s : State) (off : Nat) (v : Word) : (s.setLatch off v).nvmRing = s.nvmRing := rfl
@[simp] theorem State.setLatch_nvmNext (s : State) (off : Nat) (v : Word) : (s.setLatch off v).nvmNext = s.nvmNext := rfl
@[simp] theorem State.setLatch_staySeq (s : State) (off : Nat) (v : Word) : (s.setLatch off v).staySeq = s.staySeq := rfl
@[simp] theorem State.setLatch_dram (s : State) (off : Nat) (v : Word) : (s.setLatch off v).dram = s.dram := rfl
@[simp] theorem State.setLatch_clk (s : State) (off : Nat) (v : Word) : (s.setLatch off v).clk = s.clk := rfl
@[simp] theorem State.setLatch_mon (s : State) (off : Nat) (v : Word) : (s.setLatch off v).mon = s.mon := rfl
@[simp] theorem State.setLatch_rig (s : State) (off : Nat) (v : Word) : (s.setLatch off v).rig = s.rig := rfl
@[simp] theorem State.setLatch_mot (s : State) (off : Nat) (v : Word) : (s.setLatch off v).mot = s.mot := rfl
@[simp] theorem State.setLatch_pwr (s : State) (off : Nat) (v : Word) : (s.setLatch off v).pwr = s.pwr := rfl
@[simp] theorem State.setLatch_thm (s : State) (off : Nat) (v : Word) : (s.setLatch off v).thm = s.thm := rfl
@[simp] theorem State.setLatch_vis (s : State) (off : Nat) (v : Word) : (s.setLatch off v).vis = s.vis := rfl
@[simp] theorem State.setLatch_net (s : State) (off : Nat) (v : Word) : (s.setLatch off v).net = s.net := rfl
@[simp] theorem State.setLatch_dma (s : State) (off : Nat) (v : Word) : (s.setLatch off v).dma = s.dma := rfl

@[simp] theorem State.emit_part (s : State) (o : Out) : (s.emit o).part = s.part := rfl
@[simp] theorem State.emit_rev (s : State) (o : Out) : (s.emit o).rev = s.rev := rfl
@[simp] theorem State.emit_inReset (s : State) (o : Out) : (s.emit o).inReset = s.inReset := rfl
@[simp] theorem State.emit_pinLow (s : State) (o : Out) : (s.emit o).pinLow = s.pinLow := rfl
@[simp] theorem State.emit_regs (s : State) (o : Out) : (s.emit o).regs = s.regs := rfl
@[simp] theorem State.emit_latch (s : State) (o : Out) : (s.emit o).latch = s.latch := rfl
@[simp] theorem State.emit_mem (s : State) (o : Out) : (s.emit o).mem = s.mem := rfl
@[simp] theorem State.emit_time (s : State) (o : Out) : (s.emit o).time = s.time := rfl
@[simp] theorem State.emit_clock (s : State) (o : Out) : (s.emit o).clock = s.clock := rfl
@[simp] theorem State.emit_free (s : State) (o : Out) : (s.emit o).free = s.free := rfl
@[simp] theorem State.emit_pending (s : State) (o : Out) : (s.emit o).pending = s.pending := rfl
@[simp] theorem State.emit_host (s : State) (o : Out) : (s.emit o).host = s.host := rfl
@[simp] theorem State.emit_err (s : State) (o : Out) : (s.emit o).err = s.err := rfl
@[simp] theorem State.emit_psq (s : State) (o : Out) : (s.emit o).psq = s.psq := rfl
@[simp] theorem State.emit_ctx (s : State) (o : Out) : (s.emit o).ctx = s.ctx := rfl
@[simp] theorem State.emit_codec (s : State) (o : Out) : (s.emit o).codec = s.codec := rfl
@[simp] theorem State.emit_stn (s : State) (o : Out) : (s.emit o).stn = s.stn := rfl
@[simp] theorem State.emit_epoch (s : State) (o : Out) : (s.emit o).epoch = s.epoch := rfl
@[simp] theorem State.emit_epochNvm (s : State) (o : Out) : (s.emit o).epochNvm = s.epochNvm := rfl
@[simp] theorem State.emit_nvmRing (s : State) (o : Out) : (s.emit o).nvmRing = s.nvmRing := rfl
@[simp] theorem State.emit_nvmNext (s : State) (o : Out) : (s.emit o).nvmNext = s.nvmNext := rfl
@[simp] theorem State.emit_staySeq (s : State) (o : Out) : (s.emit o).staySeq = s.staySeq := rfl
@[simp] theorem State.emit_dram (s : State) (o : Out) : (s.emit o).dram = s.dram := rfl
@[simp] theorem State.emit_clk (s : State) (o : Out) : (s.emit o).clk = s.clk := rfl
@[simp] theorem State.emit_mon (s : State) (o : Out) : (s.emit o).mon = s.mon := rfl
@[simp] theorem State.emit_rig (s : State) (o : Out) : (s.emit o).rig = s.rig := rfl
@[simp] theorem State.emit_mot (s : State) (o : Out) : (s.emit o).mot = s.mot := rfl
@[simp] theorem State.emit_pwr (s : State) (o : Out) : (s.emit o).pwr = s.pwr := rfl
@[simp] theorem State.emit_thm (s : State) (o : Out) : (s.emit o).thm = s.thm := rfl
@[simp] theorem State.emit_vis (s : State) (o : Out) : (s.emit o).vis = s.vis := rfl
@[simp] theorem State.emit_net (s : State) (o : Out) : (s.emit o).net = s.net := rfl
@[simp] theorem State.emit_dma (s : State) (o : Out) : (s.emit o).dma = s.dma := rfl

@[simp] theorem State.event_part (s : State) (e : Event) : (s.event e).part = s.part := rfl
@[simp] theorem State.event_rev (s : State) (e : Event) : (s.event e).rev = s.rev := rfl
@[simp] theorem State.event_inReset (s : State) (e : Event) : (s.event e).inReset = s.inReset := rfl
@[simp] theorem State.event_pinLow (s : State) (e : Event) : (s.event e).pinLow = s.pinLow := rfl
@[simp] theorem State.event_regs (s : State) (e : Event) : (s.event e).regs = s.regs := rfl
@[simp] theorem State.event_latch (s : State) (e : Event) : (s.event e).latch = s.latch := rfl
@[simp] theorem State.event_mem (s : State) (e : Event) : (s.event e).mem = s.mem := rfl
@[simp] theorem State.event_time (s : State) (e : Event) : (s.event e).time = s.time := rfl
@[simp] theorem State.event_clock (s : State) (e : Event) : (s.event e).clock = s.clock := rfl
@[simp] theorem State.event_free (s : State) (e : Event) : (s.event e).free = s.free := rfl
@[simp] theorem State.event_pending (s : State) (e : Event) : (s.event e).pending = s.pending := rfl
@[simp] theorem State.event_host (s : State) (e : Event) : (s.event e).host = s.host := rfl
@[simp] theorem State.event_err (s : State) (e : Event) : (s.event e).err = s.err := rfl
@[simp] theorem State.event_psq (s : State) (e : Event) : (s.event e).psq = s.psq := rfl
@[simp] theorem State.event_ctx (s : State) (e : Event) : (s.event e).ctx = s.ctx := rfl
@[simp] theorem State.event_codec (s : State) (e : Event) : (s.event e).codec = s.codec := rfl
@[simp] theorem State.event_stn (s : State) (e : Event) : (s.event e).stn = s.stn := rfl
@[simp] theorem State.event_epoch (s : State) (e : Event) : (s.event e).epoch = s.epoch := rfl
@[simp] theorem State.event_epochNvm (s : State) (e : Event) : (s.event e).epochNvm = s.epochNvm := rfl
@[simp] theorem State.event_nvmRing (s : State) (e : Event) : (s.event e).nvmRing = s.nvmRing := rfl
@[simp] theorem State.event_nvmNext (s : State) (e : Event) : (s.event e).nvmNext = s.nvmNext := rfl
@[simp] theorem State.event_staySeq (s : State) (e : Event) : (s.event e).staySeq = s.staySeq := rfl
@[simp] theorem State.event_dram (s : State) (e : Event) : (s.event e).dram = s.dram := rfl
@[simp] theorem State.event_clk (s : State) (e : Event) : (s.event e).clk = s.clk := rfl
@[simp] theorem State.event_mon (s : State) (e : Event) : (s.event e).mon = s.mon := rfl
@[simp] theorem State.event_rig (s : State) (e : Event) : (s.event e).rig = s.rig := rfl
@[simp] theorem State.event_mot (s : State) (e : Event) : (s.event e).mot = s.mot := rfl
@[simp] theorem State.event_pwr (s : State) (e : Event) : (s.event e).pwr = s.pwr := rfl
@[simp] theorem State.event_thm (s : State) (e : Event) : (s.event e).thm = s.thm := rfl
@[simp] theorem State.event_vis (s : State) (e : Event) : (s.event e).vis = s.vis := rfl
@[simp] theorem State.event_net (s : State) (e : Event) : (s.event e).net = s.net := rfl
@[simp] theorem State.event_dma (s : State) (e : Event) : (s.event e).dma = s.dma := rfl

@[simp] theorem State.fresh_part (s : State) : (s.fresh.2).part = s.part := rfl
@[simp] theorem State.fresh_rev (s : State) : (s.fresh.2).rev = s.rev := rfl
@[simp] theorem State.fresh_inReset (s : State) : (s.fresh.2).inReset = s.inReset := rfl
@[simp] theorem State.fresh_pinLow (s : State) : (s.fresh.2).pinLow = s.pinLow := rfl
@[simp] theorem State.fresh_regs (s : State) : (s.fresh.2).regs = s.regs := rfl
@[simp] theorem State.fresh_latch (s : State) : (s.fresh.2).latch = s.latch := rfl
@[simp] theorem State.fresh_mem (s : State) : (s.fresh.2).mem = s.mem := rfl
@[simp] theorem State.fresh_time (s : State) : (s.fresh.2).time = s.time := rfl
@[simp] theorem State.fresh_clock (s : State) : (s.fresh.2).clock = s.clock := rfl
@[simp] theorem State.fresh_out (s : State) : (s.fresh.2).out = s.out := rfl
@[simp] theorem State.fresh_pending (s : State) : (s.fresh.2).pending = s.pending := rfl
@[simp] theorem State.fresh_host (s : State) : (s.fresh.2).host = s.host := rfl
@[simp] theorem State.fresh_err (s : State) : (s.fresh.2).err = s.err := rfl
@[simp] theorem State.fresh_psq (s : State) : (s.fresh.2).psq = s.psq := rfl
@[simp] theorem State.fresh_ctx (s : State) : (s.fresh.2).ctx = s.ctx := rfl
@[simp] theorem State.fresh_codec (s : State) : (s.fresh.2).codec = s.codec := rfl
@[simp] theorem State.fresh_stn (s : State) : (s.fresh.2).stn = s.stn := rfl
@[simp] theorem State.fresh_epoch (s : State) : (s.fresh.2).epoch = s.epoch := rfl
@[simp] theorem State.fresh_epochNvm (s : State) : (s.fresh.2).epochNvm = s.epochNvm := rfl
@[simp] theorem State.fresh_nvmRing (s : State) : (s.fresh.2).nvmRing = s.nvmRing := rfl
@[simp] theorem State.fresh_nvmNext (s : State) : (s.fresh.2).nvmNext = s.nvmNext := rfl
@[simp] theorem State.fresh_staySeq (s : State) : (s.fresh.2).staySeq = s.staySeq := rfl
@[simp] theorem State.fresh_dram (s : State) : (s.fresh.2).dram = s.dram := rfl
@[simp] theorem State.fresh_clk (s : State) : (s.fresh.2).clk = s.clk := rfl
@[simp] theorem State.fresh_mon (s : State) : (s.fresh.2).mon = s.mon := rfl
@[simp] theorem State.fresh_rig (s : State) : (s.fresh.2).rig = s.rig := rfl
@[simp] theorem State.fresh_mot (s : State) : (s.fresh.2).mot = s.mot := rfl
@[simp] theorem State.fresh_pwr (s : State) : (s.fresh.2).pwr = s.pwr := rfl
@[simp] theorem State.fresh_thm (s : State) : (s.fresh.2).thm = s.thm := rfl
@[simp] theorem State.fresh_vis (s : State) : (s.fresh.2).vis = s.vis := rfl
@[simp] theorem State.fresh_net (s : State) : (s.fresh.2).net = s.net := rfl
@[simp] theorem State.fresh_dma (s : State) : (s.fresh.2).dma = s.dma := rfl

@[simp] theorem State.setCtx_part (s : State) (c : Nat) (u : Ctx) : (s.setCtx c u).part = s.part := rfl
@[simp] theorem State.setCtx_rev (s : State) (c : Nat) (u : Ctx) : (s.setCtx c u).rev = s.rev := rfl
@[simp] theorem State.setCtx_inReset (s : State) (c : Nat) (u : Ctx) : (s.setCtx c u).inReset = s.inReset := rfl
@[simp] theorem State.setCtx_pinLow (s : State) (c : Nat) (u : Ctx) : (s.setCtx c u).pinLow = s.pinLow := rfl
@[simp] theorem State.setCtx_regs (s : State) (c : Nat) (u : Ctx) : (s.setCtx c u).regs = s.regs := rfl
@[simp] theorem State.setCtx_latch (s : State) (c : Nat) (u : Ctx) : (s.setCtx c u).latch = s.latch := rfl
@[simp] theorem State.setCtx_mem (s : State) (c : Nat) (u : Ctx) : (s.setCtx c u).mem = s.mem := rfl
@[simp] theorem State.setCtx_time (s : State) (c : Nat) (u : Ctx) : (s.setCtx c u).time = s.time := rfl
@[simp] theorem State.setCtx_clock (s : State) (c : Nat) (u : Ctx) : (s.setCtx c u).clock = s.clock := rfl
@[simp] theorem State.setCtx_free (s : State) (c : Nat) (u : Ctx) : (s.setCtx c u).free = s.free := rfl
@[simp] theorem State.setCtx_out (s : State) (c : Nat) (u : Ctx) : (s.setCtx c u).out = s.out := rfl
@[simp] theorem State.setCtx_pending (s : State) (c : Nat) (u : Ctx) : (s.setCtx c u).pending = s.pending := rfl
@[simp] theorem State.setCtx_host (s : State) (c : Nat) (u : Ctx) : (s.setCtx c u).host = s.host := rfl
@[simp] theorem State.setCtx_err (s : State) (c : Nat) (u : Ctx) : (s.setCtx c u).err = s.err := rfl
@[simp] theorem State.setCtx_psq (s : State) (c : Nat) (u : Ctx) : (s.setCtx c u).psq = s.psq := rfl
@[simp] theorem State.setCtx_codec (s : State) (c : Nat) (u : Ctx) : (s.setCtx c u).codec = s.codec := rfl
@[simp] theorem State.setCtx_stn (s : State) (c : Nat) (u : Ctx) : (s.setCtx c u).stn = s.stn := rfl
@[simp] theorem State.setCtx_epoch (s : State) (c : Nat) (u : Ctx) : (s.setCtx c u).epoch = s.epoch := rfl
@[simp] theorem State.setCtx_epochNvm (s : State) (c : Nat) (u : Ctx) : (s.setCtx c u).epochNvm = s.epochNvm := rfl
@[simp] theorem State.setCtx_nvmRing (s : State) (c : Nat) (u : Ctx) : (s.setCtx c u).nvmRing = s.nvmRing := rfl
@[simp] theorem State.setCtx_nvmNext (s : State) (c : Nat) (u : Ctx) : (s.setCtx c u).nvmNext = s.nvmNext := rfl
@[simp] theorem State.setCtx_staySeq (s : State) (c : Nat) (u : Ctx) : (s.setCtx c u).staySeq = s.staySeq := rfl
@[simp] theorem State.setCtx_dram (s : State) (c : Nat) (u : Ctx) : (s.setCtx c u).dram = s.dram := rfl
@[simp] theorem State.setCtx_clk (s : State) (c : Nat) (u : Ctx) : (s.setCtx c u).clk = s.clk := rfl
@[simp] theorem State.setCtx_mon (s : State) (c : Nat) (u : Ctx) : (s.setCtx c u).mon = s.mon := rfl
@[simp] theorem State.setCtx_rig (s : State) (c : Nat) (u : Ctx) : (s.setCtx c u).rig = s.rig := rfl
@[simp] theorem State.setCtx_mot (s : State) (c : Nat) (u : Ctx) : (s.setCtx c u).mot = s.mot := rfl
@[simp] theorem State.setCtx_pwr (s : State) (c : Nat) (u : Ctx) : (s.setCtx c u).pwr = s.pwr := rfl
@[simp] theorem State.setCtx_thm (s : State) (c : Nat) (u : Ctx) : (s.setCtx c u).thm = s.thm := rfl
@[simp] theorem State.setCtx_vis (s : State) (c : Nat) (u : Ctx) : (s.setCtx c u).vis = s.vis := rfl
@[simp] theorem State.setCtx_net (s : State) (c : Nat) (u : Ctx) : (s.setCtx c u).net = s.net := rfl
@[simp] theorem State.setCtx_dma (s : State) (c : Nat) (u : Ctx) : (s.setCtx c u).dma = s.dma := rfl

@[simp] theorem State.modCtx_part (s : State) (c : Nat) (f : Ctx → Ctx) : (s.modCtx c f).part = s.part := rfl
@[simp] theorem State.modCtx_rev (s : State) (c : Nat) (f : Ctx → Ctx) : (s.modCtx c f).rev = s.rev := rfl
@[simp] theorem State.modCtx_inReset (s : State) (c : Nat) (f : Ctx → Ctx) : (s.modCtx c f).inReset = s.inReset := rfl
@[simp] theorem State.modCtx_pinLow (s : State) (c : Nat) (f : Ctx → Ctx) : (s.modCtx c f).pinLow = s.pinLow := rfl
@[simp] theorem State.modCtx_regs (s : State) (c : Nat) (f : Ctx → Ctx) : (s.modCtx c f).regs = s.regs := rfl
@[simp] theorem State.modCtx_latch (s : State) (c : Nat) (f : Ctx → Ctx) : (s.modCtx c f).latch = s.latch := rfl
@[simp] theorem State.modCtx_mem (s : State) (c : Nat) (f : Ctx → Ctx) : (s.modCtx c f).mem = s.mem := rfl
@[simp] theorem State.modCtx_time (s : State) (c : Nat) (f : Ctx → Ctx) : (s.modCtx c f).time = s.time := rfl
@[simp] theorem State.modCtx_clock (s : State) (c : Nat) (f : Ctx → Ctx) : (s.modCtx c f).clock = s.clock := rfl
@[simp] theorem State.modCtx_free (s : State) (c : Nat) (f : Ctx → Ctx) : (s.modCtx c f).free = s.free := rfl
@[simp] theorem State.modCtx_out (s : State) (c : Nat) (f : Ctx → Ctx) : (s.modCtx c f).out = s.out := rfl
@[simp] theorem State.modCtx_pending (s : State) (c : Nat) (f : Ctx → Ctx) : (s.modCtx c f).pending = s.pending := rfl
@[simp] theorem State.modCtx_host (s : State) (c : Nat) (f : Ctx → Ctx) : (s.modCtx c f).host = s.host := rfl
@[simp] theorem State.modCtx_err (s : State) (c : Nat) (f : Ctx → Ctx) : (s.modCtx c f).err = s.err := rfl
@[simp] theorem State.modCtx_psq (s : State) (c : Nat) (f : Ctx → Ctx) : (s.modCtx c f).psq = s.psq := rfl
@[simp] theorem State.modCtx_codec (s : State) (c : Nat) (f : Ctx → Ctx) : (s.modCtx c f).codec = s.codec := rfl
@[simp] theorem State.modCtx_stn (s : State) (c : Nat) (f : Ctx → Ctx) : (s.modCtx c f).stn = s.stn := rfl
@[simp] theorem State.modCtx_epoch (s : State) (c : Nat) (f : Ctx → Ctx) : (s.modCtx c f).epoch = s.epoch := rfl
@[simp] theorem State.modCtx_epochNvm (s : State) (c : Nat) (f : Ctx → Ctx) : (s.modCtx c f).epochNvm = s.epochNvm := rfl
@[simp] theorem State.modCtx_nvmRing (s : State) (c : Nat) (f : Ctx → Ctx) : (s.modCtx c f).nvmRing = s.nvmRing := rfl
@[simp] theorem State.modCtx_nvmNext (s : State) (c : Nat) (f : Ctx → Ctx) : (s.modCtx c f).nvmNext = s.nvmNext := rfl
@[simp] theorem State.modCtx_staySeq (s : State) (c : Nat) (f : Ctx → Ctx) : (s.modCtx c f).staySeq = s.staySeq := rfl
@[simp] theorem State.modCtx_dram (s : State) (c : Nat) (f : Ctx → Ctx) : (s.modCtx c f).dram = s.dram := rfl
@[simp] theorem State.modCtx_clk (s : State) (c : Nat) (f : Ctx → Ctx) : (s.modCtx c f).clk = s.clk := rfl
@[simp] theorem State.modCtx_mon (s : State) (c : Nat) (f : Ctx → Ctx) : (s.modCtx c f).mon = s.mon := rfl
@[simp] theorem State.modCtx_rig (s : State) (c : Nat) (f : Ctx → Ctx) : (s.modCtx c f).rig = s.rig := rfl
@[simp] theorem State.modCtx_mot (s : State) (c : Nat) (f : Ctx → Ctx) : (s.modCtx c f).mot = s.mot := rfl
@[simp] theorem State.modCtx_pwr (s : State) (c : Nat) (f : Ctx → Ctx) : (s.modCtx c f).pwr = s.pwr := rfl
@[simp] theorem State.modCtx_thm (s : State) (c : Nat) (f : Ctx → Ctx) : (s.modCtx c f).thm = s.thm := rfl
@[simp] theorem State.modCtx_vis (s : State) (c : Nat) (f : Ctx → Ctx) : (s.modCtx c f).vis = s.vis := rfl
@[simp] theorem State.modCtx_net (s : State) (c : Nat) (f : Ctx → Ctx) : (s.modCtx c f).net = s.net := rfl
@[simp] theorem State.modCtx_dma (s : State) (c : Nat) (f : Ctx → Ctx) : (s.modCtx c f).dma = s.dma := rfl

@[simp] theorem State.setStn_part (s : State) (n : Nat) (u : Stn) : (s.setStn n u).part = s.part := rfl
@[simp] theorem State.setStn_rev (s : State) (n : Nat) (u : Stn) : (s.setStn n u).rev = s.rev := rfl
@[simp] theorem State.setStn_inReset (s : State) (n : Nat) (u : Stn) : (s.setStn n u).inReset = s.inReset := rfl
@[simp] theorem State.setStn_pinLow (s : State) (n : Nat) (u : Stn) : (s.setStn n u).pinLow = s.pinLow := rfl
@[simp] theorem State.setStn_regs (s : State) (n : Nat) (u : Stn) : (s.setStn n u).regs = s.regs := rfl
@[simp] theorem State.setStn_latch (s : State) (n : Nat) (u : Stn) : (s.setStn n u).latch = s.latch := rfl
@[simp] theorem State.setStn_mem (s : State) (n : Nat) (u : Stn) : (s.setStn n u).mem = s.mem := rfl
@[simp] theorem State.setStn_time (s : State) (n : Nat) (u : Stn) : (s.setStn n u).time = s.time := rfl
@[simp] theorem State.setStn_clock (s : State) (n : Nat) (u : Stn) : (s.setStn n u).clock = s.clock := rfl
@[simp] theorem State.setStn_free (s : State) (n : Nat) (u : Stn) : (s.setStn n u).free = s.free := rfl
@[simp] theorem State.setStn_out (s : State) (n : Nat) (u : Stn) : (s.setStn n u).out = s.out := rfl
@[simp] theorem State.setStn_pending (s : State) (n : Nat) (u : Stn) : (s.setStn n u).pending = s.pending := rfl
@[simp] theorem State.setStn_host (s : State) (n : Nat) (u : Stn) : (s.setStn n u).host = s.host := rfl
@[simp] theorem State.setStn_err (s : State) (n : Nat) (u : Stn) : (s.setStn n u).err = s.err := rfl
@[simp] theorem State.setStn_psq (s : State) (n : Nat) (u : Stn) : (s.setStn n u).psq = s.psq := rfl
@[simp] theorem State.setStn_ctx (s : State) (n : Nat) (u : Stn) : (s.setStn n u).ctx = s.ctx := rfl
@[simp] theorem State.setStn_codec (s : State) (n : Nat) (u : Stn) : (s.setStn n u).codec = s.codec := rfl
@[simp] theorem State.setStn_epoch (s : State) (n : Nat) (u : Stn) : (s.setStn n u).epoch = s.epoch := rfl
@[simp] theorem State.setStn_epochNvm (s : State) (n : Nat) (u : Stn) : (s.setStn n u).epochNvm = s.epochNvm := rfl
@[simp] theorem State.setStn_nvmRing (s : State) (n : Nat) (u : Stn) : (s.setStn n u).nvmRing = s.nvmRing := rfl
@[simp] theorem State.setStn_nvmNext (s : State) (n : Nat) (u : Stn) : (s.setStn n u).nvmNext = s.nvmNext := rfl
@[simp] theorem State.setStn_staySeq (s : State) (n : Nat) (u : Stn) : (s.setStn n u).staySeq = s.staySeq := rfl
@[simp] theorem State.setStn_dram (s : State) (n : Nat) (u : Stn) : (s.setStn n u).dram = s.dram := rfl
@[simp] theorem State.setStn_clk (s : State) (n : Nat) (u : Stn) : (s.setStn n u).clk = s.clk := rfl
@[simp] theorem State.setStn_mon (s : State) (n : Nat) (u : Stn) : (s.setStn n u).mon = s.mon := rfl
@[simp] theorem State.setStn_rig (s : State) (n : Nat) (u : Stn) : (s.setStn n u).rig = s.rig := rfl
@[simp] theorem State.setStn_mot (s : State) (n : Nat) (u : Stn) : (s.setStn n u).mot = s.mot := rfl
@[simp] theorem State.setStn_pwr (s : State) (n : Nat) (u : Stn) : (s.setStn n u).pwr = s.pwr := rfl
@[simp] theorem State.setStn_thm (s : State) (n : Nat) (u : Stn) : (s.setStn n u).thm = s.thm := rfl
@[simp] theorem State.setStn_vis (s : State) (n : Nat) (u : Stn) : (s.setStn n u).vis = s.vis := rfl
@[simp] theorem State.setStn_net (s : State) (n : Nat) (u : Stn) : (s.setStn n u).net = s.net := rfl
@[simp] theorem State.setStn_dma (s : State) (n : Nat) (u : Stn) : (s.setStn n u).dma = s.dma := rfl

@[simp] theorem State.modStn_part (s : State) (n : Nat) (f : Stn → Stn) : (s.modStn n f).part = s.part := rfl
@[simp] theorem State.modStn_rev (s : State) (n : Nat) (f : Stn → Stn) : (s.modStn n f).rev = s.rev := rfl
@[simp] theorem State.modStn_inReset (s : State) (n : Nat) (f : Stn → Stn) : (s.modStn n f).inReset = s.inReset := rfl
@[simp] theorem State.modStn_pinLow (s : State) (n : Nat) (f : Stn → Stn) : (s.modStn n f).pinLow = s.pinLow := rfl
@[simp] theorem State.modStn_regs (s : State) (n : Nat) (f : Stn → Stn) : (s.modStn n f).regs = s.regs := rfl
@[simp] theorem State.modStn_latch (s : State) (n : Nat) (f : Stn → Stn) : (s.modStn n f).latch = s.latch := rfl
@[simp] theorem State.modStn_mem (s : State) (n : Nat) (f : Stn → Stn) : (s.modStn n f).mem = s.mem := rfl
@[simp] theorem State.modStn_time (s : State) (n : Nat) (f : Stn → Stn) : (s.modStn n f).time = s.time := rfl
@[simp] theorem State.modStn_clock (s : State) (n : Nat) (f : Stn → Stn) : (s.modStn n f).clock = s.clock := rfl
@[simp] theorem State.modStn_free (s : State) (n : Nat) (f : Stn → Stn) : (s.modStn n f).free = s.free := rfl
@[simp] theorem State.modStn_out (s : State) (n : Nat) (f : Stn → Stn) : (s.modStn n f).out = s.out := rfl
@[simp] theorem State.modStn_pending (s : State) (n : Nat) (f : Stn → Stn) : (s.modStn n f).pending = s.pending := rfl
@[simp] theorem State.modStn_host (s : State) (n : Nat) (f : Stn → Stn) : (s.modStn n f).host = s.host := rfl
@[simp] theorem State.modStn_err (s : State) (n : Nat) (f : Stn → Stn) : (s.modStn n f).err = s.err := rfl
@[simp] theorem State.modStn_psq (s : State) (n : Nat) (f : Stn → Stn) : (s.modStn n f).psq = s.psq := rfl
@[simp] theorem State.modStn_ctx (s : State) (n : Nat) (f : Stn → Stn) : (s.modStn n f).ctx = s.ctx := rfl
@[simp] theorem State.modStn_codec (s : State) (n : Nat) (f : Stn → Stn) : (s.modStn n f).codec = s.codec := rfl
@[simp] theorem State.modStn_epoch (s : State) (n : Nat) (f : Stn → Stn) : (s.modStn n f).epoch = s.epoch := rfl
@[simp] theorem State.modStn_epochNvm (s : State) (n : Nat) (f : Stn → Stn) : (s.modStn n f).epochNvm = s.epochNvm := rfl
@[simp] theorem State.modStn_nvmRing (s : State) (n : Nat) (f : Stn → Stn) : (s.modStn n f).nvmRing = s.nvmRing := rfl
@[simp] theorem State.modStn_nvmNext (s : State) (n : Nat) (f : Stn → Stn) : (s.modStn n f).nvmNext = s.nvmNext := rfl
@[simp] theorem State.modStn_staySeq (s : State) (n : Nat) (f : Stn → Stn) : (s.modStn n f).staySeq = s.staySeq := rfl
@[simp] theorem State.modStn_dram (s : State) (n : Nat) (f : Stn → Stn) : (s.modStn n f).dram = s.dram := rfl
@[simp] theorem State.modStn_clk (s : State) (n : Nat) (f : Stn → Stn) : (s.modStn n f).clk = s.clk := rfl
@[simp] theorem State.modStn_mon (s : State) (n : Nat) (f : Stn → Stn) : (s.modStn n f).mon = s.mon := rfl
@[simp] theorem State.modStn_rig (s : State) (n : Nat) (f : Stn → Stn) : (s.modStn n f).rig = s.rig := rfl
@[simp] theorem State.modStn_mot (s : State) (n : Nat) (f : Stn → Stn) : (s.modStn n f).mot = s.mot := rfl
@[simp] theorem State.modStn_pwr (s : State) (n : Nat) (f : Stn → Stn) : (s.modStn n f).pwr = s.pwr := rfl
@[simp] theorem State.modStn_thm (s : State) (n : Nat) (f : Stn → Stn) : (s.modStn n f).thm = s.thm := rfl
@[simp] theorem State.modStn_vis (s : State) (n : Nat) (f : Stn → Stn) : (s.modStn n f).vis = s.vis := rfl
@[simp] theorem State.modStn_net (s : State) (n : Nat) (f : Stn → Stn) : (s.modStn n f).net = s.net := rfl
@[simp] theorem State.modStn_dma (s : State) (n : Nat) (f : Stn → Stn) : (s.modStn n f).dma = s.dma := rfl

@[simp] theorem State.setQp_part (s : State) (q : Nat) (u : Qp) : (s.setQp q u).part = s.part := rfl
@[simp] theorem State.setQp_rev (s : State) (q : Nat) (u : Qp) : (s.setQp q u).rev = s.rev := rfl
@[simp] theorem State.setQp_inReset (s : State) (q : Nat) (u : Qp) : (s.setQp q u).inReset = s.inReset := rfl
@[simp] theorem State.setQp_pinLow (s : State) (q : Nat) (u : Qp) : (s.setQp q u).pinLow = s.pinLow := rfl
@[simp] theorem State.setQp_regs (s : State) (q : Nat) (u : Qp) : (s.setQp q u).regs = s.regs := rfl
@[simp] theorem State.setQp_latch (s : State) (q : Nat) (u : Qp) : (s.setQp q u).latch = s.latch := rfl
@[simp] theorem State.setQp_mem (s : State) (q : Nat) (u : Qp) : (s.setQp q u).mem = s.mem := rfl
@[simp] theorem State.setQp_time (s : State) (q : Nat) (u : Qp) : (s.setQp q u).time = s.time := rfl
@[simp] theorem State.setQp_clock (s : State) (q : Nat) (u : Qp) : (s.setQp q u).clock = s.clock := rfl
@[simp] theorem State.setQp_free (s : State) (q : Nat) (u : Qp) : (s.setQp q u).free = s.free := rfl
@[simp] theorem State.setQp_out (s : State) (q : Nat) (u : Qp) : (s.setQp q u).out = s.out := rfl
@[simp] theorem State.setQp_pending (s : State) (q : Nat) (u : Qp) : (s.setQp q u).pending = s.pending := rfl
@[simp] theorem State.setQp_err (s : State) (q : Nat) (u : Qp) : (s.setQp q u).err = s.err := rfl
@[simp] theorem State.setQp_psq (s : State) (q : Nat) (u : Qp) : (s.setQp q u).psq = s.psq := rfl
@[simp] theorem State.setQp_ctx (s : State) (q : Nat) (u : Qp) : (s.setQp q u).ctx = s.ctx := rfl
@[simp] theorem State.setQp_codec (s : State) (q : Nat) (u : Qp) : (s.setQp q u).codec = s.codec := rfl
@[simp] theorem State.setQp_stn (s : State) (q : Nat) (u : Qp) : (s.setQp q u).stn = s.stn := rfl
@[simp] theorem State.setQp_epoch (s : State) (q : Nat) (u : Qp) : (s.setQp q u).epoch = s.epoch := rfl
@[simp] theorem State.setQp_epochNvm (s : State) (q : Nat) (u : Qp) : (s.setQp q u).epochNvm = s.epochNvm := rfl
@[simp] theorem State.setQp_nvmRing (s : State) (q : Nat) (u : Qp) : (s.setQp q u).nvmRing = s.nvmRing := rfl
@[simp] theorem State.setQp_nvmNext (s : State) (q : Nat) (u : Qp) : (s.setQp q u).nvmNext = s.nvmNext := rfl
@[simp] theorem State.setQp_staySeq (s : State) (q : Nat) (u : Qp) : (s.setQp q u).staySeq = s.staySeq := rfl
@[simp] theorem State.setQp_dram (s : State) (q : Nat) (u : Qp) : (s.setQp q u).dram = s.dram := rfl
@[simp] theorem State.setQp_clk (s : State) (q : Nat) (u : Qp) : (s.setQp q u).clk = s.clk := rfl
@[simp] theorem State.setQp_mon (s : State) (q : Nat) (u : Qp) : (s.setQp q u).mon = s.mon := rfl
@[simp] theorem State.setQp_rig (s : State) (q : Nat) (u : Qp) : (s.setQp q u).rig = s.rig := rfl
@[simp] theorem State.setQp_mot (s : State) (q : Nat) (u : Qp) : (s.setQp q u).mot = s.mot := rfl
@[simp] theorem State.setQp_pwr (s : State) (q : Nat) (u : Qp) : (s.setQp q u).pwr = s.pwr := rfl
@[simp] theorem State.setQp_thm (s : State) (q : Nat) (u : Qp) : (s.setQp q u).thm = s.thm := rfl
@[simp] theorem State.setQp_vis (s : State) (q : Nat) (u : Qp) : (s.setQp q u).vis = s.vis := rfl
@[simp] theorem State.setQp_net (s : State) (q : Nat) (u : Qp) : (s.setQp q u).net = s.net := rfl
@[simp] theorem State.setQp_dma (s : State) (q : Nat) (u : Qp) : (s.setQp q u).dma = s.dma := rfl

/-! ## Registers -/

/-- The word written at an offset is the word there. -/
@[simp] theorem reg_setReg_self (s : State) (off : Nat) (v : Word) : (s.setReg off v).reg off = v := by
  unfold State.reg State.setReg
  exact bankGet_put_self _ _ _ _

/-- Every other register reads as before. -/
theorem reg_setReg_other (s : State) (off : Nat) (v : Word) (j : Nat) (h : j ≠ off) :
    (s.setReg off v).reg j = s.reg j := by
  unfold State.reg State.setReg
  exact bankGet_put_other _ _ _ _ _ _ h

theorem reg_p_other (s : State) (f : Fld) (v j : Nat) (h : j ≠ f.off) : (s.p f v).reg j = s.reg j :=
  reg_setReg_other s _ _ j h

theorem reg_pb_other (s : State) (f : Fld) (v : Bool) (j : Nat) (h : j ≠ f.off) : (s.pb f v).reg j = s.reg j :=
  reg_setReg_other s _ _ j h

theorem reg_pz_other (s : State) (f : Fld) (v : Int) (j : Nat) (h : j ≠ f.off) : (s.pz f v).reg j = s.reg j :=
  reg_setReg_other s _ _ j h

theorem reg_p_self (s : State) (f : Fld) (v : Nat) :
    (s.p f v).reg f.off = BitVec.ofNat 32 (bitsPut (s.reg f.off).toNat f.lo f.w v) :=
  reg_setReg_self s _ _

/-- A field reads back what was put in it, to its width. -/
theorem g_p_self (s : State) (f : Fld) (v : Nat) (h : f.lo + f.w ≤ 32) : (s.p f v).g f = v % 2 ^ f.w := by
  unfold State.g
  rw [reg_p_self, BitVec.toNat_ofNat,
    Nat.mod_eq_of_lt (bitsPut_lt _ _ _ _ 32 (s.reg f.off).isLt h), bitsOf_bitsPut_self]

/-- A field of another register reads as before. -/
theorem g_p_off (s : State) (f k : Fld) (v : Nat) (h : k.off ≠ f.off) : (s.p f v).g k = s.g k := by
  unfold State.g
  rw [reg_p_other s f v k.off h]

/-- Another field of the same register reads as before. -/
theorem g_p_bits (s : State) (f k : Fld) (v : Nat) (h : f.lo + f.w ≤ 32) (ho : k.off = f.off)
    (hd : k.lo + k.w ≤ f.lo ∨ f.lo + f.w ≤ k.lo) : (s.p f v).g k = s.g k := by
  unfold State.g
  rw [ho, reg_p_self, BitVec.toNat_ofNat,
    Nat.mod_eq_of_lt (bitsPut_lt _ _ _ _ 32 (s.reg f.off).isLt h), bitsOf_bitsPut_other _ _ _ _ _ _ hd]

/-- A field that the one written does not touch reads as before. -/
theorem g_p_other (s : State) (f k : Fld) (v : Nat) (h : f.lo + f.w ≤ 32)
    (hd : k.off ≠ f.off ∨ k.lo + k.w ≤ f.lo ∨ f.lo + f.w ≤ k.lo) : (s.p f v).g k = s.g k := by
  by_cases ho : k.off = f.off
  · exact g_p_bits s f k v h ho (hd.resolve_left (fun n => n ho))
  · exact g_p_off s f k v ho

theorem on_pb_self (s : State) (f : Fld) (b : Bool) (h : f.lo + f.w ≤ 32) (hw : f.w = 1) : (s.pb f b).on f = b := by
  unfold State.on State.pb
  rw [g_p_self s f _ h, hw]
  cases b <;> rfl

theorem g_pb_self (s : State) (f : Fld) (b : Bool) (h : f.lo + f.w ≤ 32) (hw : f.w = 1) :
    (s.pb f b).g f = b.toNat := by
  unfold State.pb
  rw [g_p_self s f _ h, hw]
  cases b <;> rfl

/-- A register reads by the part, the revision and the bank alone. -/
theorem reg_congr {s t : State} (hp : t.part = s.part) (hr : t.rev = s.rev) (hb : t.regs = s.regs) (off : Nat) :
    t.reg off = s.reg off := by
  unfold State.reg; rw [hp, hr, hb]

theorem g_congr {s t : State} (hp : t.part = s.part) (hr : t.rev = s.rev) (hb : t.regs = s.regs) (f : Fld) :
    t.g f = s.g f := by
  unfold State.g; rw [reg_congr hp hr hb]

theorem on_congr {s t : State} (hp : t.part = s.part) (hr : t.rev = s.rev) (hb : t.regs = s.regs) (f : Fld) :
    t.on f = s.on f := by
  unfold State.on; rw [g_congr hp hr hb]

@[simp] theorem reg_emit (s : State) (o : Out) (off : Nat) : (s.emit o).reg off = s.reg off := rfl
@[simp] theorem reg_event (s : State) (e : Event) (off : Nat) : (s.event e).reg off = s.reg off := rfl
@[simp] theorem reg_fresh (s : State) (off : Nat) : s.fresh.2.reg off = s.reg off := rfl
@[simp] theorem reg_setLatch (s : State) (o : Nat) (v : Word) (off : Nat) : (s.setLatch o v).reg off = s.reg off := rfl
@[simp] theorem reg_setCtx (s : State) (c : Nat) (u : Ctx) (off : Nat) : (s.setCtx c u).reg off = s.reg off := rfl
@[simp] theorem reg_setStn (s : State) (n : Nat) (u : Stn) (off : Nat) : (s.setStn n u).reg off = s.reg off := rfl
@[simp] theorem reg_setQp (s : State) (q : Nat) (u : Qp) (off : Nat) : (s.setQp q u).reg off = s.reg off := rfl
@[simp] theorem g_emit (s : State) (o : Out) (f : Fld) : (s.emit o).g f = s.g f := rfl
@[simp] theorem g_event (s : State) (e : Event) (f : Fld) : (s.event e).g f = s.g f := rfl
@[simp] theorem g_fresh (s : State) (f : Fld) : s.fresh.2.g f = s.g f := rfl
@[simp] theorem g_setLatch (s : State) (o : Nat) (v : Word) (f : Fld) : (s.setLatch o v).g f = s.g f := rfl
@[simp] theorem g_setCtx (s : State) (c : Nat) (u : Ctx) (f : Fld) : (s.setCtx c u).g f = s.g f := rfl
@[simp] theorem g_modCtx (s : State) (c : Nat) (u : Ctx → Ctx) (f : Fld) : (s.modCtx c u).g f = s.g f := rfl
@[simp] theorem g_setStn (s : State) (n : Nat) (u : Stn) (f : Fld) : (s.setStn n u).g f = s.g f := rfl
@[simp] theorem g_modStn (s : State) (n : Nat) (u : Stn → Stn) (f : Fld) : (s.modStn n u).g f = s.g f := rfl
@[simp] theorem g_setQp (s : State) (q : Nat) (u : Qp) (f : Fld) : (s.setQp q u).g f = s.g f := rfl

/-- A register back at its reset value. -/
theorem reg_resetRegs_of (s : State) (q : Nat → Bool) (off : Nat) (h : q off = true) :
    (s.resetRegs q).reg off = resetWord s.part s.rev off := by
  unfold State.reg State.resetRegs
  simp only
  induction s.regs with
  | nil => rfl
  | cons e r ih =>
    rw [List.filter_cons]
    split
    · rename_i hq
      unfold bankGet
      split
      · rename_i he
        rw [he, h] at hq
        exact absurd hq (by decide)
      · exact ih
    · exact ih

/-- A register that a reset of others leaves alone. -/
theorem reg_resetRegs_other (s : State) (q : Nat → Bool) (off : Nat) (h : q off = false) :
    (s.resetRegs q).reg off = s.reg off := by
  unfold State.reg State.resetRegs
  simp only
  induction s.regs with
  | nil => rfl
  | cons e r ih =>
    rw [List.filter_cons]
    split
    · unfold bankGet
      split
      · rfl
      · exact ih
    · rename_i hq
      rw [ih]
      conv_rhs => unfold bankGet
      split
      · rename_i he
        rw [he, h] at hq
        exact absurd rfl hq
      · rfl

/-! ## Latches and units -/

@[simp] theorem latched_setLatch_self (s : State) (off : Nat) (v : Word) : (s.setLatch off v).latched off = v :=
  bankGet_put_self _ _ _ _

theorem latched_setLatch_other (s : State) (off : Nat) (v : Word) (j : Nat) (h : j ≠ off) :
    (s.setLatch off v).latched j = s.latched j := bankGet_put_other _ _ _ _ _ _ h

@[simp] theorem ctxU_setCtx_self (s : State) (c : Nat) (u : Ctx) : (s.setCtx c u).ctxU c = u := bankGet_put_self _ _ _ _

theorem ctxU_setCtx_other (s : State) (c d : Nat) (u : Ctx) (h : d ≠ c) : (s.setCtx c u).ctxU d = s.ctxU d :=
  bankGet_put_other _ _ _ _ _ _ h

@[simp] theorem stnU_setStn_self (s : State) (n : Nat) (u : Stn) : (s.setStn n u).stnU n = u := bankGet_put_self _ _ _ _

theorem stnU_setStn_other (s : State) (n m : Nat) (u : Stn) (h : m ≠ n) : (s.setStn n u).stnU m = s.stnU m :=
  bankGet_put_other _ _ _ _ _ _ h

@[simp] theorem qpU_setQp_self (s : State) (q : Nat) (u : Qp) : (s.setQp q u).qpU q = u := bankGet_put_self _ _ _ _

theorem qpU_setQp_other (s : State) (q r : Nat) (u : Qp) (h : r ≠ q) : (s.setQp q u).qpU r = s.qpU r :=
  bankGet_put_other _ _ _ _ _ _ h

@[simp] theorem ctxU_modCtx_self (s : State) (c : Nat) (f : Ctx → Ctx) : (s.modCtx c f).ctxU c = f (s.ctxU c) :=
  bankGet_put_self _ _ _ _

@[simp] theorem stnU_modStn_self (s : State) (n : Nat) (f : Stn → Stn) : (s.modStn n f).stnU n = f (s.stnU n) :=
  bankGet_put_self _ _ _ _

/-! ## Device DRAM -/

theorem memByte_put_self (m : List Host.Cell) (x : Nat) (b : Byte) : memByte (bankPut 0 x b m) x = b :=
  bankGet_put_self _ _ _ _

/-- A byte below the bytes written reads as before. -/
theorem memByte_memWrite_below (m : List Host.Cell) (x : Nat) (l : List Byte) (y : Nat) (h : y < x) :
    memByte (memWrite m x l) y = memByte m y := by
  induction l generalizing m x with
  | nil => rfl
  | cons b r ih =>
    unfold memWrite
    rw [ih _ _ (by omega)]
    exact bankGet_put_other _ _ _ _ _ _ (by omega)

/-- A byte above the bytes written reads as before. -/
theorem memByte_memWrite_above (m : List Host.Cell) (x : Nat) (l : List Byte) (y : Nat) (h : x + l.length ≤ y) :
    memByte (memWrite m x l) y = memByte m y := by
  induction l generalizing m x with
  | nil => rfl
  | cons b r ih =>
    simp only [List.length_cons] at h
    unfold memWrite
    rw [ih _ _ (by omega)]
    exact bankGet_put_other _ _ _ _ _ _ (by omega)

/-- The bytes written read back. -/
theorem memByte_memWrite_in (m : List Host.Cell) (x : Nat) (l : List Byte) (i : Nat) (h : i < l.length) :
    memByte (memWrite m x l) (x + i) = l[i] := by
  induction l generalizing m x i with
  | nil => exact absurd h (Nat.not_lt_zero _)
  | cons b r ih =>
    unfold memWrite
    cases i with
    | zero =>
      rw [memByte_memWrite_below _ _ _ _ (by omega)]
      exact memByte_put_self _ _ _
    | succ k =>
      have := ih (bankPut 0 x b m) (x + 1) k (by simpa using h)
      rw [Nat.add_right_comm] at this
      simpa [Nat.add_assoc] using this

theorem memRead_memWrite (m : List Host.Cell) (x : Nat) (l : List Byte) : memRead (memWrite m x l) x l.length = l := by
  have key : ∀ (n : Nat) (r : List Byte) (y : Nat) (g : List Host.Cell), r.length = n →
      (∀ i (h : i < r.length), memByte g (y + i) = r[i]) → memRead g y n = r := by
    intro n
    induction n with
    | zero => intro r y g hr _; rw [List.length_eq_zero_iff.mp hr]; rfl
    | succ k ih =>
      intro r y g hr hb
      cases r with
      | nil => exact absurd hr (by simp)
      | cons b q =>
        unfold memRead
        have h0 := hb 0 (by simp)
        simp only [Nat.add_zero, List.getElem_cons_zero] at h0
        rw [h0, ih q (y + 1) g (by simpa using hr) (fun i hi => by
          have := hb (i + 1) (by simpa using hi)
          simpa [Nat.add_assoc, Nat.add_comm 1 i] using this)]
  exact key _ l x _ rfl (fun i hi => memByte_memWrite_in m x l i hi)

end Sys2Proof.Machine
end

