-- ==== Sys2Proof/Laws/Ops.lean ====
section
/-!
SUPPORT. Laws of the shared operations: what an access and a happening come to, the folds over instances, the registers
that an operation leaves alone.
-/

namespace Sys2Proof.Machine

theorem hostAt_reaches {off : Nat} {f : State → State} {s : State} (h : Reaches s off) : hostAt off f s = f s := by
  unfold hostAt
  rw [h.1, h.2]
  rfl

theorem hostAt_dead {off : Nat} {f : State → State} {s : State} (h : s.dead = true) : hostAt off f s = s := by
  unfold hostAt
  rw [h]
  rfl

theorem live_of {f : State → State} {s : State} (h : s.dead = false) : live f s = f s := by
  unfold live
  rw [h]
  rfl

theorem live_dead {f : State → State} {s : State} (h : s.dead = true) : live f s = s := by
  unfold live
  rw [h]
  rfl

theorem stayLive_of {f : State → State} {s : State} (h : s.pwr.lost = false) : stayLive f s = f s := by
  unfold stayLive
  rw [h]
  rfl

theorem stnLive_of {n : Nat} {f : State → State} {s : State} (hn : n < s.part.stations) (h : s.dead = false) :
    stnLive n f s = f s := by
  unfold stnLive
  rw [if_pos hn, live_of h]

@[simp] theorem overN_zero (f : Nat → State → State) (s : State) : overN 0 f s = s := rfl

theorem overN_succ (n : Nat) (f : Nat → State → State) (s : State) : overN (n + 1) f s = f n (overN n f s) := by
  unfold overN
  rw [List.range_succ, List.foldl_append]
  rfl

/-- What every step of a fold keeps, the fold keeps. -/
theorem overN_keeps {P : State → Prop} (n : Nat) (f : Nat → State → State) (hf : ∀ i t, i < n → P t → P (f i t)) (s : State)
    (h : P s) : P (overN n f s) := by
  induction n with
  | zero => exact h
  | succ k ih =>
    rw [overN_succ]
    exact hf k _ (Nat.lt_succ_self k) (ih fun i t hi => hf i t (Nat.lt_succ_of_lt hi))

/-! ## Registers left alone -/

theorem onlyRegs_refl (l : List Nat) (s : State) : OnlyRegs l s s := fun _ _ => rfl

theorem OnlyRegs.trans {l : List Nat} {s t u : State} (h : OnlyRegs l s t) (k : OnlyRegs l t u) : OnlyRegs l s u :=
  fun off hn => (k off hn).trans (h off hn)

theorem onlyRegs_of_regs {l : List Nat} {s t : State} (hp : t.part = s.part) (hr : t.rev = s.rev) (hb : t.regs = s.regs) :
    OnlyRegs l s t := fun off _ => reg_congr hp hr hb off

theorem OnlyRegs.setReg {l : List Nat} {s t : State} (h : OnlyRegs l s t) {off : Nat} (v : Word) (ho : off ∈ l) :
    OnlyRegs l s (t.setReg off v) := fun j hj =>
  (reg_setReg_other t off v j (fun e => hj (e ▸ ho))).trans (h j hj)

theorem OnlyRegs.p {l : List Nat} {s t : State} (h : OnlyRegs l s t) (f : Fld) (v : Nat) (ho : f.off ∈ l) :
    OnlyRegs l s (t.p f v) := h.setReg _ ho

theorem OnlyRegs.pb {l : List Nat} {s t : State} (h : OnlyRegs l s t) (f : Fld) (v : Bool) (ho : f.off ∈ l) :
    OnlyRegs l s (t.pb f v) := h.setReg _ ho

theorem OnlyRegs.pz {l : List Nat} {s t : State} (h : OnlyRegs l s t) (f : Fld) (v : Int) (ho : f.off ∈ l) :
    OnlyRegs l s (t.pz f v) := h.setReg _ ho

theorem OnlyRegs.inc {l : List Nat} {s t : State} (h : OnlyRegs l s t) (f : Fld) (ho : f.off ∈ l) :
    OnlyRegs l s (t.inc f) := h.setReg _ ho

theorem OnlyRegs.plainWrite {l : List Nat} {s t : State} (h : OnlyRegs l s t) (off : Nat) (v : Word) (ho : off ∈ l) :
    OnlyRegs l s (t.plainWrite off v) := by
  unfold State.plainWrite
  split
  · exact h.setReg _ ho
  · exact h

theorem OnlyRegs.ite {l : List Nat} {s t u : State} {c : Prop} [Decidable c] (h : OnlyRegs l s t) (k : OnlyRegs l s u) :
    OnlyRegs l s (if c then t else u) := by
  split
  · exact h
  · exact k

end Sys2Proof.Machine
end

