-- ==== Sys2Proof/Laws/Access.lean ====
section
/-!
SUPPORT. Laws of host writes: a register's runs of bits tile its word, and each run is left as its access type says
(R8-R10).
-/

namespace Sys2Proof.Machine

open RegTable

/-- The runs follow each other from bit `lo` to bit 32. -/
def tiled : Nat → List Bits → Bool
  | lo, [] => decide (lo = 32)
  | lo, b :: r => decide (b.lo = lo) && tiled (lo + b.w) r

theorem all_tiled : RegTable.all.all (fun d => tiled 0 d.bits) = true := by decide +kernel

theorem find_mem {off : Nat} {d : RegTable.Desc} {is : List Nat} (h : RegTable.find off = some (d, is)) : d ∈ RegTable.all := by
  unfold RegTable.find at h
  split at h
  · rename_i g hg
    obtain ⟨e, he, hx⟩ := List.exists_of_findSome?_eq_some h
    cases hi : e.inst? off with
    | none => rw [hi] at hx; exact nomatch hx
    | some x =>
      rw [hi] at hx
      injection hx with hx
      injection hx with h1 _
      exact List.mem_flatMap.mpr ⟨g, List.mem_of_find?_eq_some hg, h1 ▸ he⟩
  · exact nomatch h

theorem find_tiled {off : Nat} {d : RegTable.Desc} {is : List Nat} (h : RegTable.find off = some (d, is)) :
    tiled 0 d.bits = true := List.all_eq_true.mp all_tiled d (find_mem h)

/-- The word that values of the runs make. -/
def wordOf (val : Bits → Nat) (bits : List Bits) : Nat := bits.foldl (fun a b => a + val b % 2 ^ b.w * 2 ^ b.lo) 0

theorem wordFold_add (val : Bits → Nat) (bits : List Bits) (x : Nat) :
    bits.foldl (fun a b => a + val b % 2 ^ b.w * 2 ^ b.lo) x = x + wordOf val bits := by
  unfold wordOf
  induction bits generalizing x with
  | nil => rfl
  | cons b r ih => simp only [List.foldl_cons]; rw [ih, ih (0 + _)]; omega

theorem wordOf_cons (val : Bits → Nat) (b : Bits) (r : List Bits) :
    wordOf val (b :: r) = val b % 2 ^ b.w * 2 ^ b.lo + wordOf val r := by
  have h := wordFold_add val r (0 + val b % 2 ^ b.w * 2 ^ b.lo)
  unfold wordOf at h ⊢
  rw [List.foldl_cons, h, Nat.zero_add]

theorem tiled_le {lo : Nat} {bits : List Bits} (h : tiled lo bits = true) : lo ≤ 32 := by
  induction bits generalizing lo with
  | nil => exact Nat.le_of_eq (of_decide_eq_true h)
  | cons b r ih =>
    unfold tiled at h
    simp only [Bool.and_eq_true] at h
    have := ih h.2
    omega

/-- The runs from bit `lo` up make a multiple of 2^lo below 2^32. -/
theorem wordOf_tiled (val : Bits → Nat) {lo : Nat} {bits : List Bits} (h : tiled lo bits = true) :
    ∃ k, wordOf val bits = 2 ^ lo * k ∧ wordOf val bits + 2 ^ lo ≤ 2 ^ 32 := by
  induction bits generalizing lo with
  | nil =>
    have e : lo = 32 := of_decide_eq_true h
    subst e
    exact ⟨0, rfl, by unfold wordOf; simp⟩
  | cons b r ih =>
    unfold tiled at h
    simp only [Bool.and_eq_true, decide_eq_true_eq] at h
    obtain ⟨k, hk, hb⟩ := ih h.2
    rw [wordOf_cons, h.1]
    have hm : val b % 2 ^ b.w < 2 ^ b.w := Nat.mod_lt _ (Nat.two_pow_pos _)
    have hp : 2 ^ (lo + b.w) = 2 ^ lo * 2 ^ b.w := Nat.pow_add ..
    refine ⟨val b % 2 ^ b.w + 2 ^ b.w * k, ?_, ?_⟩
    · rw [hk, hp, Nat.mul_add, Nat.mul_comm (val b % 2 ^ b.w), Nat.mul_assoc]
    · have h1 : val b % 2 ^ b.w * 2 ^ lo + 2 ^ lo ≤ 2 ^ b.w * 2 ^ lo := by
        calc val b % 2 ^ b.w * 2 ^ lo + 2 ^ lo = (val b % 2 ^ b.w + 1) * 2 ^ lo := by rw [Nat.add_mul, Nat.one_mul]
          _ ≤ 2 ^ b.w * 2 ^ lo := Nat.mul_le_mul_right _ hm
      rw [hp, Nat.mul_comm (2 ^ lo)] at hb
      omega

theorem tiled_ge {lo : Nat} {bits : List Bits} (h : tiled lo bits = true) : ∀ b ∈ bits, lo ≤ b.lo := by
  induction bits generalizing lo with
  | nil => intro b hb; exact absurd hb (List.not_mem_nil)
  | cons c r ih =>
    unfold tiled at h
    simp only [Bool.and_eq_true, decide_eq_true_eq] at h
    intro b hb
    rcases List.mem_cons.mp hb with rfl | hb
    · omega
    · have := ih h.2 b hb
      omega

/-- Each run of the word holds its value. -/
theorem bitsOf_wordOf (val : Bits → Nat) {lo : Nat} {bits : List Bits} (h : tiled lo bits = true) :
    ∀ b ∈ bits, bitsOf (wordOf val bits) b.lo b.w = val b % 2 ^ b.w := by
  induction bits generalizing lo with
  | nil => intro b hb; exact absurd hb (List.not_mem_nil)
  | cons c r ih =>
    have h0 := h
    unfold tiled at h
    simp only [Bool.and_eq_true, decide_eq_true_eq] at h
    obtain ⟨k, hk, _⟩ := wordOf_tiled val h.2
    have hm : val c % 2 ^ c.w < 2 ^ c.w := Nat.mod_lt _ (Nat.two_pow_pos _)
    have hc : val c % 2 ^ c.w * 2 ^ lo < 2 ^ (lo + c.w) := by
      rw [Nat.pow_add, Nat.mul_comm]
      exact Nat.mul_lt_mul_of_pos_left hm (Nat.two_pow_pos _)
    intro b hb
    rw [wordOf_cons, h.1]
    rcases List.mem_cons.mp hb with rfl | hb
    · unfold bitsOf
      rw [h.1, hk, Nat.pow_add, Nat.mul_comm (val b % 2 ^ b.w), Nat.mul_assoc, ← Nat.mul_add,
        Nat.mul_div_cancel_left _ (Nat.two_pow_pos lo), Nat.add_mul_mod_self_left, Nat.mod_mod]
    · have e := ih h.2 b hb
      have hg := tiled_ge h.2 b hb
      rw [← e]
      unfold bitsOf
      congr 1
      obtain ⟨d, hd⟩ := Nat.exists_eq_add_of_le hg
      rw [hd, Nat.pow_add, ← Nat.div_div_eq_div_mul, ← Nat.div_div_eq_div_mul, hk, Nat.add_mul_div_left _ _ (Nat.two_pow_pos _),
        Nat.div_eq_of_lt hc, Nat.zero_add, Nat.mul_div_cancel_left _ (Nat.two_pow_pos _)]

theorem wordWrite_eq (locked : Bool) (bits : List Bits) (old v : Nat) :
    wordWrite locked bits old v = wordOf (fun b => runWrite locked b.acc (bitsOf old b.lo b.w) (bitsOf v b.lo b.w)) bits := rfl

/-- What a host write leaves in each run of the register it goes to. -/
theorem plainWrite_run {s : State} {off : Nat} {v : Word} {d : RegTable.Desc} {is : List Nat} (h : RegTable.find off = some (d, is))
    {b : Bits} (hb : b ∈ d.bits) :
    bitsOf ((s.plainWrite off v).reg off).toNat b.lo b.w =
      runWrite s.rigged b.acc (bitsOf (s.reg off).toNat b.lo b.w) (bitsOf v.toNat b.lo b.w) % 2 ^ b.w := by
  obtain ⟨k, _, hlt⟩ := wordOf_tiled
    (fun b => runWrite s.rigged b.acc (bitsOf (s.reg off).toNat b.lo b.w) (bitsOf v.toNat b.lo b.w)) (find_tiled h)
  unfold State.plainWrite
  rw [h]
  simp only [reg_setReg_self, BitVec.toNat_ofNat]
  rw [Nat.mod_eq_of_lt (by rw [wordWrite_eq]; omega), wordWrite_eq]
  exact bitsOf_wordOf _ (find_tiled h) b hb

/-- The runs of the register at an offset. -/
def runsAt (off : Nat) : Option (List Bits) := (RegTable.find off).map fun x => x.1.bits

/-- A field of access type RW takes the value a host write gives it. -/
theorem g_plainWrite_rw {s : State} {f : Fld} {v : Word} {l : List Bits} (h : runsAt f.off = some l)
    (hb : ⟨f.lo, f.w, .rw⟩ ∈ l) : (s.plainWrite f.off v).g f = fieldOf f v := by
  unfold runsAt at h
  cases hf : RegTable.find f.off with
  | none => rw [hf] at h; exact nomatch h
  | some x =>
    obtain ⟨d, is⟩ := x
    rw [hf] at h
    injection h with h
    have e := plainWrite_run (s := s) (v := v) hf (h ▸ hb)
    unfold State.g fieldOf
    rw [e]
    exact bitsOf_mod _ _ _

/-- A field that a host write does not reach keeps its value. -/
theorem g_plainWrite_ro {s : State} {f : Fld} {v : Word} {l : List Bits} (h : runsAt f.off = some l)
    (hb : ⟨f.lo, f.w, .ro⟩ ∈ l ∨ ⟨f.lo, f.w, .wo⟩ ∈ l ∨ ⟨f.lo, f.w, .rsv⟩ ∈ l) :
    (s.plainWrite f.off v).g f = s.g f := by
  unfold runsAt at h
  cases hf : RegTable.find f.off with
  | none => rw [hf] at h; exact nomatch h
  | some x =>
    obtain ⟨d, is⟩ := x
    rw [hf] at h
    injection h with h
    have key : ∀ acc, (acc = .ro ∨ acc = .wo ∨ acc = .rsv) → ⟨f.lo, f.w, acc⟩ ∈ l →
        (s.plainWrite f.off v).g f = s.g f := by
      intro acc ha hm
      have e := plainWrite_run (s := s) (v := v) hf (h ▸ hm)
      unfold State.g
      rw [e]
      rcases ha with rfl | rfl | rfl <;> exact bitsOf_mod _ _ _
    rcases hb with hb | hb | hb
    · exact key _ (.inl rfl) hb
    · exact key _ (.inr (.inl rfl)) hb
    · exact key _ (.inr (.inr rfl)) hb

theorem reg_plainWrite_other (s : State) (off : Nat) (v : Word) (j : Nat) (h : j ≠ off) :
    (s.plainWrite off v).reg j = s.reg j := by
  unfold State.plainWrite
  split
  · exact reg_setReg_other _ _ _ _ h
  · rfl

theorem g_plainWrite_off (s : State) (off : Nat) (v : Word) (f : Fld) (h : f.off ≠ off) :
    (s.plainWrite off v).g f = s.g f := by
  unfold State.g
  rw [reg_plainWrite_other s off v f.off h]

end Sys2Proof.Machine
end

