-- ==== Sys2Proof/Laws/Kept.lean ====
section
/-!
SUPPORT. What an operation leaves unchanged: the relation `Kept K a b` between a state and a later one. One lemma per operation (Laws/KeptOps1.lean and onward) says which parts it may change; everything
else stands, the register bank, the latches and device DRAM keep their canonical form, and the queue, the part number
and the model's clock stay as they are.
-/

namespace Sys2Proof.Machine

theorem Piece.same_refl (a : State) (p : Piece) : p.same a a := by
  cases p <;> first | rfl | exact ⟨rfl, rfl⟩

theorem Piece.same.trans {a b c : State} {p : Piece} (h : p.same a b) (k : p.same b c) : p.same a c := by
  cases p <;> first | exact Eq.trans k h | exact ⟨k.1.trans h.1, k.2.trans h.2⟩

/-- `b` is `a` but for the parts outside `K`: part number, revision, queue and clock as they were, canonical forms
kept. -/
structure Kept (K : Piece → Prop) (a b : State) : Prop where
  part : b.part = a.part
  rev : b.rev = a.rev
  pending : b.pending = a.pending
  clock : b.clock = a.clock
  shown : a.out <+: b.out
  spent : a.free ≤ b.free
  later : a.epochNvm ≤ b.epochNvm
  wf : banksWf a → banksWf b
  same : ∀ p, K p → p.same a b

namespace Kept

variable {K : Piece → Prop} {a b c : State}

theorem refl (a : State) : Kept K a a :=
  ⟨rfl, rfl, rfl, rfl, List.prefix_refl _, Nat.le_refl _, Nat.le_refl _, id, fun p _ => Piece.same_refl a p⟩

theorem trans (h : Kept K a b) (k : Kept K b c) : Kept K a c :=
  ⟨k.part.trans h.part, k.rev.trans h.rev, k.pending.trans h.pending, k.clock.trans h.clock,
    h.shown.trans k.shown, Nat.le_trans h.spent k.spent, Nat.le_trans h.later k.later, fun w => k.wf (h.wf w),
    fun p hp => (h.same p hp).trans (k.same p hp)⟩

/-- An update of one part that no bank's form depends on. -/
theorem put (h : Kept K a b) (e : c.part = b.part ∧ c.rev = b.rev ∧ c.pending = b.pending ∧ c.clock = b.clock)
    (e_regs : c.regs = b.regs) (e_latch : c.latch = b.latch) (e_mem : c.mem = b.mem) (e_out : c.out = b.out)
    (e_free : c.free = b.free) (e_epoch : c.epochNvm = b.epochNvm) (hs : ∀ p, K p → p.same b c) : Kept K a c :=
  h.trans
    { part := e.1, rev := e.2.1, pending := e.2.2.1, clock := e.2.2.2
      shown := e_out ▸ List.prefix_refl _
      spent := Nat.le_of_eq e_free.symm
      later := Nat.le_of_eq e_epoch.symm
      wf := fun w => ⟨by rw [e.1, e.2.1, e_regs]; exact w.1, by rw [e_latch]; exact w.2.1, by rw [e_mem]; exact w.2.2⟩
      same := hs }

end Kept

variable {K : Piece → Prop} {a b s : State}

/-- A state written out in full: what stands of the state `b` it was made from. What its fields say is found by
reflexivity where none is given. -/
theorem kept_mk {part rev inReset pinLow regs latch mem time clock free out pending host err psq ctx codec stn epoch epochNvm
    nvmRing nvmNext staySeq dram clk mon rig mot pwr thm vis net dma} (h : Kept K a b)
    (e_fixed : part = b.part ∧ rev = b.rev ∧ pending = b.pending ∧ clock = b.clock := by exact ⟨rfl, rfl, rfl, rfl⟩)
    (e_regs : regs = b.regs := by exact rfl) (e_latch : latch = b.latch := by exact rfl)
    (e_mem : mem = b.mem := by exact rfl) (e_out : out = b.out := by exact rfl) (e_free : free = b.free := by exact rfl)
    (e_epoch : epochNvm = b.epochNvm := by exact rfl)
    (r_epoch : K .epoch → epoch = b.epoch ∧ epochNvm = b.epochNvm := by exact fun _ => ⟨rfl, rfl⟩)
    (r_nvm : K .nvm → nvmRing = b.nvmRing ∧ nvmNext = b.nvmNext := by exact fun _ => ⟨rfl, rfl⟩)
    (r_pins : K .pins → inReset = b.inReset ∧ pinLow = b.pinLow := by exact fun _ => ⟨rfl, rfl⟩)
    (r_time : K .time → time = b.time := by exact fun _ => rfl)
    (r_host : K .host → host = b.host := by exact fun _ => rfl)
    (r_err : K .err → err = b.err := by exact fun _ => rfl) (r_psq : K .psq → psq = b.psq := by exact fun _ => rfl)
    (r_ctx : K .ctx → ctx = b.ctx := by exact fun _ => rfl)
    (r_codec : K .codec → codec = b.codec := by exact fun _ => rfl)
    (r_stn : K .stn → stn = b.stn := by exact fun _ => rfl)
    (r_dram : K .dram → dram = b.dram := by exact fun _ => rfl)
    (r_clk : K .clk → clk = b.clk := by exact fun _ => rfl) (r_mon : K .mon → mon = b.mon := by exact fun _ => rfl)
    (r_rig : K .rig → rig = b.rig := by exact fun _ => rfl) (r_mot : K .mot → mot = b.mot := by exact fun _ => rfl)
    (r_pwr : K .pwr → pwr = b.pwr := by exact fun _ => rfl) (r_thm : K .thm → thm = b.thm := by exact fun _ => rfl)
    (r_vis : K .vis → vis = b.vis := by exact fun _ => rfl) (r_net : K .net → net = b.net := by exact fun _ => rfl)
    (r_dma : K .dma → dma = b.dma := by exact fun _ => rfl)
    (r_staySeq : K .staySeq → staySeq = b.staySeq := by exact fun _ => rfl) :
    Kept K a (State.mk part rev inReset pinLow regs latch mem time clock free out pending host err psq
      ctx codec stn epoch epochNvm nvmRing nvmNext staySeq dram clk mon rig mot pwr thm vis net dma) :=
  h.put e_fixed e_regs e_latch e_mem e_out e_free e_epoch fun p => by
    cases p <;> first | assumption | exact fun _ => by assumption

/-- A reset: some registers stand, nothing is latched, memory lists nothing, and the reset count in NVM never falls. -/
theorem kept_reset {c : State} (h : Kept K a s)
    (e : c.part = s.part ∧ c.rev = s.rev ∧ c.pending = s.pending ∧ c.clock = s.clock) (e_out : c.out = s.out)
    (e_free : c.free = s.free) (e_epoch : s.epochNvm ≤ c.epochNvm) (f : Nat × Word → Bool)
    (e_regs : c.regs = s.regs.filter f) (e_latch : c.latch = []) (e_mem : c.mem = [])
    (hs : ∀ p, K p → p.same s c := by
      exact fun p hp => by cases p <;> first | exact absurd hp ‹_› | exact rfl | exact ⟨rfl, rfl⟩) : Kept K a c :=
  h.trans
    { part := e.1, rev := e.2.1, pending := e.2.2.1, clock := e.2.2.2
      shown := e_out ▸ List.prefix_refl _
      spent := Nat.le_of_eq e_free.symm
      later := e_epoch
      wf := fun w => ⟨by rw [e.1, e.2.1, e_regs]; exact bankWf_filter _ _ _ w.1, by rw [e_latch]; rfl, by rw [e_mem]; rfl⟩
      same := hs }

theorem kept_ite {c : Prop} [Decidable c] {x y : State} (hx : Kept K a x) (hy : Kept K a y) :
    Kept K a (if c then x else y) := by
  split
  · exact hx
  · exact hy

theorem kept_id (h : Kept K a s) : Kept K a (id s) := h

theorem kept_foldl {β : Type} {l : List β} {f : State → β → State} (hf : ∀ t x, Kept K a t → Kept K a (f t x))
    (h : Kept K a s) : Kept K a (l.foldl f s) := by
  induction l generalizing s with
  | nil => exact h
  | cons x r ih => exact ih (hf s x h)

theorem kept_foldl_snd {β γ : Type} {l : List β} {f : γ × State → β → γ × State} {q : γ × State}
    (hf : ∀ t x, Kept K a t.2 → Kept K a (f t x).2) (h : Kept K a q.2) : Kept K a (l.foldl f q).2 := by
  induction l generalizing q with
  | nil => exact h
  | cons x r ih => exact ih (hf q x h)

theorem kept_foldl_fst {β γ : Type} {l : List β} {f : State × γ → β → State × γ} {q : State × γ}
    (hf : ∀ t x, Kept K a t.1 → Kept K a (f t x).1) (h : Kept K a q.1) : Kept K a (l.foldl f q).1 := by
  induction l generalizing q with
  | nil => exact h
  | cons x r ih => exact ih (hf q x h)

/-- A register's word is put under its own reset value, so the bank keeps its form. -/
theorem kept_State_setReg (h_regs : ¬ K .regs) (off : Nat) (v : Word) (h : Kept K a s) :
    Kept K a (State.setReg s off v) :=
  h.trans ⟨rfl, rfl, rfl, rfl, List.prefix_refl _, Nat.le_refl _, Nat.le_refl _, fun w => ⟨bankWf_put _ off v _ w.1, w.2.1, w.2.2⟩, fun p hp => by
    cases p <;> first | rfl | exact ⟨rfl, rfl⟩ | exact absurd hp h_regs⟩

theorem kept_State_p (h_regs : ¬ K .regs) (f : Fld) (v : Nat) (h : Kept K a s) : Kept K a (State.p s f v) :=
  kept_State_setReg h_regs _ _ h

theorem kept_State_pz (h_regs : ¬ K .regs) (f : Fld) (v : Int) (h : Kept K a s) : Kept K a (State.pz s f v) :=
  kept_State_setReg h_regs _ _ h

theorem kept_State_pb (h_regs : ¬ K .regs) (f : Fld) (v : Bool) (h : Kept K a s) : Kept K a (State.pb s f v) :=
  kept_State_setReg h_regs _ _ h

theorem kept_State_inc (h_regs : ¬ K .regs) (f : Fld) (h : Kept K a s) : Kept K a (State.inc s f) :=
  kept_State_setReg h_regs _ _ h

theorem kept_State_resetRegs (h_regs : ¬ K .regs) (f : Nat → Bool) (h : Kept K a s) :
    Kept K a (State.resetRegs s f) :=
  h.trans ⟨rfl, rfl, rfl, rfl, List.prefix_refl _, Nat.le_refl _, Nat.le_refl _, fun w => ⟨bankWf_filter _ _ _ w.1, w.2.1, w.2.2⟩, fun p hp => by
    cases p <;> first | rfl | exact ⟨rfl, rfl⟩ | exact absurd hp h_regs⟩

theorem kept_State_setLatch (h_latch : ¬ K .latch) (off : Nat) (v : Word) (h : Kept K a s) :
    Kept K a (State.setLatch s off v) :=
  h.trans ⟨rfl, rfl, rfl, rfl, List.prefix_refl _, Nat.le_refl _, Nat.le_refl _, fun w => ⟨w.1, bankWf_put (fun _ => 0) off v _ w.2.1, w.2.2⟩, fun p hp => by
    cases p <;> first | rfl | exact ⟨rfl, rfl⟩ | exact absurd hp h_latch⟩

theorem kept_overN (n : Nat) (f : Nat → State → State) (hf : ∀ i t, Kept K a t → Kept K a (f i t)) (h : Kept K a s) :
    Kept K a (overN n f s) :=
  kept_foldl (fun t i ht => hf i t ht) h

theorem kept_live (f : State → State) (hf : ∀ t, Kept K a t → Kept K a (f t)) (h : Kept K a s) :
    Kept K a (live f s) := by
  unfold live; split
  · exact h
  · exact hf s h

theorem kept_stayLive (f : State → State) (hf : ∀ t, Kept K a t → Kept K a (f t)) (h : Kept K a s) :
    Kept K a (stayLive f s) := by
  unfold stayLive; split
  · exact h
  · exact hf s h

theorem kept_stnLive (n : Nat) (f : State → State) (hf : ∀ t, Kept K a t → Kept K a (f t)) (h : Kept K a s) :
    Kept K a (stnLive n f s) := by
  unfold stnLive; split
  · exact kept_live f hf h
  · exact h

theorem kept_State_chipErr (h_regs : ¬ K .regs) (f : Fld) (off : Nat) (h : Kept K a s) :
    Kept K a (State.chipErr s f off) := by
  unfold State.chipErr
  dsimp only
  refine kept_State_p h_regs _ _ ?_
  split
  · exact kept_State_setReg h_regs _ _ h
  · exact h

theorem kept_hostAt (h_regs : ¬ K .regs) (off : Nat) (f : State → State) (hf : ∀ t, Kept K a t → Kept K a (f t))
    (h : Kept K a s) : Kept K a (hostAt off f s) := by
  unfold hostAt
  split
  · exact h
  · split
    · exact h
    · exact kept_State_chipErr h_regs _ _ h
    · exact kept_State_chipErr h_regs _ _ h
    · exact hf s h

/-- What is shown outside comes after what was shown before. -/
theorem kept_State_emit (h_out : ¬ K .out) (o : Out) (h : Kept K a s) : Kept K a (State.emit s o) :=
  h.trans ⟨rfl, rfl, rfl, rfl, List.prefix_append _ _, Nat.le_refl _, Nat.le_refl _, id, fun p hp => by
    cases p <;> first | rfl | exact ⟨rfl, rfl⟩ | exact absurd hp h_out⟩

/-- Several things shown, one after another. -/
theorem kept_out (h_out : ¬ K .out) (l : List Out) (h : Kept K a s) : Kept K a { s with out := s.out ++ l } :=
  h.trans ⟨rfl, rfl, rfl, rfl, List.prefix_append _ _, Nat.le_refl _, Nat.le_refl _, id, fun p hp => by
    cases p <;> first | rfl | exact ⟨rfl, rfl⟩ | exact absurd hp h_out⟩

/-- The reset count goes to NVM, where it never falls. -/
theorem kept_epoch (h_epoch : ¬ K .epoch) {n : Nat} (hn : s.epochNvm ≤ n) (h : Kept K a s) :
    Kept K a { s with epochNvm := n } :=
  h.trans ⟨rfl, rfl, rfl, rfl, List.prefix_refl _, Nat.le_refl _, hn, id, fun p hp => by
    cases p <;> first | rfl | exact ⟨rfl, rfl⟩ | exact absurd hp h_epoch⟩

/-- More open values used. -/
theorem kept_free (h_free : ¬ K .free) {n : Nat} (hn : s.free ≤ n) (h : Kept K a s) : Kept K a { s with free := n } :=
  h.trans ⟨rfl, rfl, rfl, rfl, List.prefix_refl _, hn, Nat.le_refl _, id, fun p hp => by
    cases p <;> first | rfl | exact ⟨rfl, rfl⟩ | exact absurd hp h_free⟩

theorem kept_State_fresh (h_free : ¬ K .free) (h : Kept K a s) : Kept K a (State.fresh s).2 :=
  kept_free h_free (Nat.le_succ _) h

theorem kept_staySeq (h_staySeq : ¬ K .staySeq) (n : Nat) (h : Kept K a s) : Kept K a { s with staySeq := n } :=
  h.trans ⟨rfl, rfl, rfl, rfl, List.prefix_refl _, Nat.le_refl _, Nat.le_refl _, id, fun p hp => by
    cases p <;> first | rfl | exact ⟨rfl, rfl⟩ | exact absurd hp h_staySeq⟩

theorem kept_err (h_err : ¬ K .err) (u : ErrU) (h : Kept K a s) : Kept K a { s with err := u } :=
  h.trans ⟨rfl, rfl, rfl, rfl, List.prefix_refl _, Nat.le_refl _, Nat.le_refl _, id, fun p hp => by
    cases p <;> first | rfl | exact ⟨rfl, rfl⟩ | exact absurd hp h_err⟩

theorem kept_memDram (h_mem : ¬ K .mem) (h_dram : ¬ K .dram) (m : List Host.Cell) (d : DramU)
    (hm : Memory.wf s.mem = true → Memory.wf m = true) (h : Kept K a s) : Kept K a { s with mem := m, dram := d } :=
  h.trans ⟨rfl, rfl, rfl, rfl, List.prefix_refl _, Nat.le_refl _, Nat.le_refl _, fun w => ⟨w.1, w.2.1, hm w.2.2⟩, fun p hp => by
    cases p <;> first | rfl | exact ⟨rfl, rfl⟩ | exact absurd hp h_mem | exact absurd hp h_dram⟩

/-- An operation looked up, where there is one. -/
def Keeps (K : Piece → Prop) (a : State) (o : Option (State → State)) : Prop :=
  ∀ f, o = some f → ∀ s, Kept K a s → Kept K a (f s)

theorem keeps_apply {o : Option (State → State)} (ho : Keeps K a o) {f : State → State} (hf : o = some f)
    (h : Kept K a s) : Kept K a (f s) := ho f hf s h

theorem keeps_nil : Keeps K a (first []) := fun _ h => nomatch h

theorem keeps_cons {o : Option (State → State)} {r : List (Option (State → State))} (ho : Keeps K a o)
    (hr : Keeps K a (first r)) : Keeps K a (first (o :: r)) := by
  cases o with
  | none => exact hr
  | some f => exact ho

theorem keeps_one {x off : Nat} {f : State → State} (hf : ∀ t, Kept K a t → Kept K a (f t)) :
    Keeps K a (one x off f) := by
  intro g hg t ht
  unfold one at hg
  split at hg
  · injection hg with e; subst e; exact hf t ht
  · exact nomatch hg

theorem keeps_many {x stride count off : Nat} {f : Nat → State → State}
    (hf : ∀ n t, Kept K a t → Kept K a (f n t)) : Keeps K a (many x stride count off f) := by
  intro g hg t ht
  unfold many at hg
  cases hi : instOf off x stride count with
  | none => rw [hi] at hg; exact nomatch hg
  | some n => rw [hi] at hg; injection hg with e; subst e; exact hf n t ht

theorem keeps_if {c : Prop} [Decidable c] {f : State → State} (hf : ∀ t, Kept K a t → Kept K a (f t)) :
    Keeps K a (if c then some f else none) := by
  intro g hg t ht
  split at hg
  · injection hg with e; subst e; exact hf t ht
  · exact nomatch hg

theorem memWf_write (m : List Host.Cell) (x : Nat) (l : List Byte) (h : Memory.wf m = true) :
    Memory.wf (memWrite m x l) = true := by
  induction l generalizing m x with
  | nil => exact h
  | cons b r ih => exact ih _ _ (bankWf_put (fun _ => 0) x b m h)

end Sys2Proof.Machine
end

