-- ==== Sys2Proof/Laws/KeptOps1.lean ====
section
/-!
SUPPORT. What the operations of the machine leave unchanged, part 1 of 4: one lemma per operation, in the order in which they
use each other. An operation that may write the parts h_x names keeps every other part (Laws/Kept.lean).
-/

set_option linter.all false
set_option Elab.async false

namespace Sys2Proof.Machine

open Reg

variable {K : Piece → Prop} {a s : State}

theorem kept_State_answer (h_out : ¬ K .out) (x1 : Nat) (x2 : Nat) (x3 : Sys2Proof.Word) (h : Kept K a s) :
    Kept K a (State.answer s x1 x2 x3) := by
  unfold State.answer
  with_reducible repeat' first
    | (assumption) | (intro) | (apply kept_State_emit) | (apply kept_foldl) | (apply kept_foldl_snd)
    | (apply kept_foldl_fst) | (apply kept_ite) | (dsimp only) | (split)

theorem kept_State_drive (h_out : ¬ K .out) (x1 : Nat) (x2 : Nat) (x3 : Nat) (x4 : Out) (h : Kept K a s) :
    Kept K a (State.drive s x1 x2 x3 x4) := by
  unfold State.drive
  with_reducible repeat' first
    | (assumption) | (intro) | (apply kept_State_emit) | (apply kept_foldl) | (apply kept_foldl_snd)
    | (apply kept_foldl_fst) | (apply kept_ite) | (dsimp only) | (split)

theorem kept_State_event (h_out : ¬ K .out) (x1 : Event) (h : Kept K a s) :
    Kept K a (State.event s x1) := by
  unfold State.event
  with_reducible repeat' first
    | (assumption) | (intro) | (apply kept_State_emit) | (apply kept_foldl) | (apply kept_foldl_snd)
    | (apply kept_foldl_fst) | (apply kept_ite) | (dsimp only) | (split)

theorem kept_State_hostReads (h_out : ¬ K .out) (x1 : Nat) (x2 : Nat) (x3 : Bool) (h : Kept K a s) :
    Kept K a (State.hostReads s x1 x2 x3) := by
  exact kept_out h_out _ h

theorem kept_State_hostWrites (h_out : ¬ K .out) (x1 : Nat) (x2 : List Sys2Proof.Byte) (x3 : Bool) (h : Kept K a s) :
    Kept K a (State.hostWrites s x1 x2 x3) := by
  exact kept_out h_out _ h

theorem kept_State_setCtx (h_ctx : ¬ K .ctx) (x1 : Nat) (x2 : Ctx) (h : Kept K a s) :
    Kept K a (State.setCtx s x1 x2) := by
  unfold State.setCtx
  with_reducible repeat' first
    | (assumption) | (intro) | (apply kept_foldl) | (apply kept_foldl_snd) | (apply kept_foldl_fst)
    | (apply kept_ite) | (dsimp only) | (split) | (refine kept_mk ?_ (r_ctx := (absurd · h_ctx)))

theorem kept_State_modCtx (h_ctx : ¬ K .ctx) (x1 : Nat) (x2 : Ctx → Ctx) (h : Kept K a s) :
    Kept K a (State.modCtx s x1 x2) := by
  unfold State.modCtx
  with_reducible repeat' first
    | (assumption) | (intro) | (apply kept_State_setCtx) | (apply kept_foldl) | (apply kept_foldl_snd)
    | (apply kept_foldl_fst) | (apply kept_ite) | (dsimp only) | (split)

theorem kept_State_setStn (h_stn : ¬ K .stn) (x1 : Nat) (x2 : Stn) (h : Kept K a s) :
    Kept K a (State.setStn s x1 x2) := by
  unfold State.setStn
  with_reducible repeat' first
    | (assumption) | (intro) | (apply kept_foldl) | (apply kept_foldl_snd) | (apply kept_foldl_fst)
    | (apply kept_ite) | (dsimp only) | (split) | (refine kept_mk ?_ (r_stn := (absurd · h_stn)))

theorem kept_State_modStn (h_stn : ¬ K .stn) (x1 : Nat) (x2 : Stn → Stn) (h : Kept K a s) :
    Kept K a (State.modStn s x1 x2) := by
  unfold State.modStn
  with_reducible repeat' first
    | (assumption) | (intro) | (apply kept_State_setStn) | (apply kept_foldl) | (apply kept_foldl_snd)
    | (apply kept_foldl_fst) | (apply kept_ite) | (dsimp only) | (split)

theorem kept_State_msix (h_regs : ¬ K .regs) (h_out : ¬ K .out) (x1 : Nat) (h : Kept K a s) :
    Kept K a (State.msix s x1) := by
  unfold State.msix
  with_reducible repeat' first
    | (assumption) | (intro) | (apply kept_State_setReg) | (apply kept_State_emit) | (apply kept_foldl)
    | (apply kept_foldl_snd) | (apply kept_foldl_fst) | (apply kept_ite) | (dsimp only) | (split)

theorem kept_State_plainWrite (h_regs : ¬ K .regs) (x1 : Nat) (x2 : Sys2Proof.Word) (h : Kept K a s) :
    Kept K a (State.plainWrite s x1 x2) := by
  unfold State.plainWrite
  with_reducible repeat' first
    | (assumption) | (intro) | (apply kept_State_setReg) | (apply kept_foldl) | (apply kept_foldl_snd)
    | (apply kept_foldl_fst) | (apply kept_ite) | (dsimp only) | (split)

theorem kept_State_setEngine (h_regs : ¬ K .regs) (x1 : Nat) (h : Kept K a s) :
    Kept K a (State.setEngine s x1) := by
  unfold State.setEngine
  with_reducible repeat' first
    | (assumption) | (intro) | (apply kept_State_p) | (apply kept_foldl) | (apply kept_foldl_snd)
    | (apply kept_foldl_fst) | (apply kept_ite) | (dsimp only) | (split)

theorem kept_State_setQp (h_host : ¬ K .host) (x1 : Nat) (x2 : Qp) (h : Kept K a s) :
    Kept K a (State.setQp s x1 x2) := by
  unfold State.setQp
  with_reducible repeat' first
    | (assumption) | (intro) | (apply kept_foldl) | (apply kept_foldl_snd) | (apply kept_foldl_fst)
    | (apply kept_ite) | (dsimp only) | (split) | (refine kept_mk ?_ (r_host := (absurd · h_host)))

theorem kept_State_unEvent (h_out : ¬ K .out) (x1 : Event) (h : Kept K a s) :
    Kept K a (State.unEvent s x1) := by
  unfold State.unEvent
  with_reducible repeat' first
    | (assumption) | (intro) | (apply kept_State_emit) | (apply kept_foldl) | (apply kept_foldl_snd)
    | (apply kept_foldl_fst) | (apply kept_ite) | (dsimp only) | (split)

theorem kept_csetSync (h_regs : ¬ K .regs)  (h : Kept K a s) :
    Kept K a (csetSync s) := by
  unfold csetSync
  with_reducible repeat' first
    | (assumption) | (intro) | (apply kept_State_p) | (apply kept_State_pb) | (apply kept_overN)
    | (apply kept_State_setReg) | (apply kept_foldl) | (apply kept_foldl_snd) | (apply kept_foldl_fst)
    | (apply kept_ite) | (dsimp only) | (split)

theorem kept_otpUse (h_rig : ¬ K .rig) (x0 : Nat) (x1 : List Nat) (x2 : Bool) (h : Kept K a s) :
    Kept K a (otpUse x0 x1 x2 s) := by
  unfold otpUse
  with_reducible repeat' first
    | (assumption) | (intro) | (apply kept_foldl) | (apply kept_foldl_snd) | (apply kept_foldl_fst)
    | (apply kept_ite) | (dsimp only) | (split) | (refine kept_mk ?_ (r_rig := (absurd · h_rig)))

theorem kept_csetTear (h_regs : ¬ K .regs) (h_rig : ¬ K .rig)  (h : Kept K a s) :
    Kept K a (csetTear s) := by
  unfold csetTear
  with_reducible repeat' first
    | (assumption) | (intro) | (apply kept_csetSync) | (apply kept_State_pb) | (apply kept_otpUse)
    | (apply kept_foldl) | (apply kept_foldl_snd) | (apply kept_foldl_fst) | (apply kept_ite) | (dsimp only)
    | (split)

theorem kept_loadRestore (h_regs : ¬ K .regs) (h_rig : ¬ K .rig)  (h : Kept K a s) :
    Kept K a (loadRestore s) := by
  unfold loadRestore
  with_reducible repeat' first
    | (assumption) | (intro) | (apply kept_State_p) | (apply kept_foldl) | (apply kept_foldl_snd)
    | (apply kept_foldl_fst) | (apply kept_ite) | (dsimp only) | (split)
    | (refine kept_mk ?_ (r_rig := (absurd · h_rig)))

theorem kept_storeTear (h_free : ¬ K .free) (h_rig : ¬ K .rig)  (h : Kept K a s) :
    Kept K a (storeTear s) := by
  unfold storeTear
  with_reducible repeat' first
    | (assumption) | (intro) | (apply kept_State_fresh) | (apply kept_foldl) | (apply kept_foldl_snd)
    | (apply kept_foldl_fst) | (apply kept_ite) | (dsimp only) | (split)
    | (refine kept_mk ?_ (r_rig := (absurd · h_rig)))

theorem kept_abortProgramming (h_regs : ¬ K .regs) (h_free : ¬ K .free) (h_rig : ¬ K .rig)  (h : Kept K a s) :
    Kept K a (abortProgramming s) := by
  unfold abortProgramming
  with_reducible repeat' first
    | (assumption) | (intro) | (apply kept_State_p) | (apply kept_csetTear) | (apply kept_loadRestore)
    | (apply kept_storeTear) | (apply kept_foldl) | (apply kept_foldl_snd) | (apply kept_foldl_fst)
    | (apply kept_ite) | (dsimp only) | (split)

theorem kept_accumulate (h_regs : ¬ K .regs) (h_vis : ¬ K .vis) (x0 : Nat) (x1 : Fit) (h : Kept K a s) :
    Kept K a (accumulate x0 x1 s) := by
  unfold accumulate
  with_reducible repeat' first
    | (assumption) | (intro) | (apply kept_State_p) | (apply kept_foldl) | (apply kept_foldl_snd)
    | (apply kept_foldl_fst) | (apply kept_ite) | (dsimp only) | (split)
    | (refine kept_mk ?_ (r_vis := (absurd · h_vis)))

theorem kept_accumulateTrim (h_vis : ¬ K .vis) (x0 : Assoc) (x1 : Nat) (x2 : List Dev) (h : Kept K a s) :
    Kept K a (accumulateTrim x0 x1 x2 s) := by
  unfold accumulateTrim
  with_reducible repeat' first
    | (assumption) | (intro) | (apply kept_foldl) | (apply kept_foldl_snd) | (apply kept_foldl_fst)
    | (apply kept_ite) | (dsimp only) | (split) | (refine kept_mk ?_ (r_vis := (absurd · h_vis)))

theorem kept_cfgStat (h_regs : ¬ K .regs) (x0 : Nat) (h : Kept K a s) :
    Kept K a (cfgStat x0 s) := by
  unfold cfgStat
  with_reducible repeat' first
    | (assumption) | (intro) | (apply kept_State_p) | (apply kept_foldl) | (apply kept_foldl_snd)
    | (apply kept_foldl_fst) | (apply kept_ite) | (dsimp only) | (split)

theorem kept_dropHeld (h_regs : ¬ K .regs) (h_stn : ¬ K .stn) (x0 : Nat) (h : Kept K a s) :
    Kept K a (dropHeld x0 s) := by
  unfold dropHeld
  with_reducible repeat' first
    | (assumption) | (intro) | (apply kept_cfgStat) | (apply kept_State_modStn) | (apply kept_foldl)
    | (apply kept_foldl_snd) | (apply kept_foldl_fst) | (apply kept_ite) | (dsimp only) | (split)

theorem kept_linkOkSync (h_regs : ¬ K .regs) (x0 : Nat) (h : Kept K a s) :
    Kept K a (linkOkSync x0 s) := by
  unfold linkOkSync
  with_reducible repeat' first
    | (assumption) | (intro) | (apply kept_State_pb) | (apply kept_foldl) | (apply kept_foldl_snd)
    | (apply kept_foldl_fst) | (apply kept_ite) | (dsimp only) | (split)

theorem kept_wearSync (h_regs : ¬ K .regs) (x0 : Nat) (h : Kept K a s) :
    Kept K a (wearSync x0 s) := by
  unfold wearSync
  with_reducible repeat' first
    | (assumption) | (intro) | (apply kept_overN) | (apply kept_State_p) | (apply kept_foldl)
    | (apply kept_foldl_snd) | (apply kept_foldl_fst) | (apply kept_ite) | (dsimp only) | (split)

theorem kept_emSync (h_regs : ¬ K .regs) (x0 : Nat) (h : Kept K a s) :
    Kept K a (emSync x0 s) := by
  unfold emSync
  with_reducible repeat' first
    | (assumption) | (intro) | (apply kept_overN) | (apply kept_State_p) | (apply kept_foldl)
    | (apply kept_foldl_snd) | (apply kept_foldl_fst) | (apply kept_ite) | (dsimp only) | (split)

theorem kept_winSync (h_regs : ¬ K .regs) (x0 : Nat) (h : Kept K a s) :
    Kept K a (winSync x0 s) := by
  unfold winSync
  with_reducible repeat' first
    | (assumption) | (intro) | (apply kept_State_p) | (apply kept_State_pb) | (apply kept_overN) | (apply kept_foldl)
    | (apply kept_foldl_snd) | (apply kept_foldl_fst) | (apply kept_ite) | (dsimp only) | (split)

theorem kept_genRegs (h_regs : ¬ K .regs) (x0 : Nat) (h : Kept K a s) :
    Kept K a (genRegs x0 s) := by
  unfold genRegs
  with_reducible repeat' first
    | (assumption) | (intro) | (apply kept_State_pb) | (apply kept_State_p) | (apply kept_State_setReg)
    | (apply kept_linkOkSync) | (apply kept_wearSync) | (apply kept_emSync) | (apply kept_winSync)
    | (apply kept_foldl) | (apply kept_foldl_snd) | (apply kept_foldl_fst) | (apply kept_ite) | (dsimp only)
    | (split)

theorem kept_scanTables (h_regs : ¬ K .regs) (x0 : Nat) (x1 : Gen) (h : Kept K a s) :
    Kept K a (scanTables x0 x1 s) := by
  unfold scanTables
  with_reducible repeat' first
    | (assumption) | (intro) | (apply kept_overN) | (apply kept_State_p) | (apply kept_State_pz) | (apply kept_foldl)
    | (apply kept_foldl_snd) | (apply kept_foldl_fst) | (apply kept_ite) | (dsimp only) | (split)

theorem kept_islOn (h_regs : ¬ K .regs) (x0 : Nat) (x1 : Nat) (x2 : Nat) (h : Kept K a s) :
    Kept K a (islOn x0 x1 x2 s) := by
  unfold islOn
  with_reducible repeat' first
    | (assumption) | (intro) | (apply kept_State_p) | (apply kept_foldl) | (apply kept_foldl_snd)
    | (apply kept_foldl_fst) | (apply kept_ite) | (dsimp only) | (split)

theorem kept_islFollow (h_regs : ¬ K .regs) (x0 : Nat) (h : Kept K a s) :
    Kept K a (islFollow x0 s) := by
  unfold islFollow
  with_reducible repeat' first
    | (assumption) | (intro) | (apply kept_islOn) | (apply kept_foldl) | (apply kept_foldl_snd)
    | (apply kept_foldl_fst) | (apply kept_ite) | (dsimp only) | (split)

theorem kept_pxRegs (h_regs : ¬ K .regs) (x0 : Nat) (x1 : Nat × Nat) (x2 : Nat) (x3 : Nat) (h : Kept K a s) :
    Kept K a (pxRegs x0 x1 x2 x3 s) := by
  unfold pxRegs
  with_reducible repeat' first
    | (assumption) | (intro) | (apply kept_State_p) | (apply kept_foldl) | (apply kept_foldl_snd)
    | (apply kept_foldl_fst) | (apply kept_ite) | (dsimp only) | (split)

theorem kept_setCal (h_clk : ¬ K .clk) (x0 : Nat) (x1 : Option (Option Nat)) (h : Kept K a s) :
    Kept K a (setCal x0 x1 s) := by
  unfold setCal
  with_reducible repeat' first
    | (assumption) | (intro) | (apply kept_foldl) | (apply kept_foldl_snd) | (apply kept_foldl_fst)
    | (apply kept_ite) | (dsimp only) | (split) | (refine kept_mk ?_ (r_clk := (absurd · h_clk)))

theorem kept_calibrate (h_clk : ¬ K .clk) (x0 : Nat) (h : Kept K a s) :
    Kept K a (calibrate x0 s) := by
  unfold calibrate
  with_reducible repeat' first
    | (assumption) | (intro) | (apply kept_setCal) | (apply kept_foldl) | (apply kept_foldl_snd)
    | (apply kept_foldl_fst) | (apply kept_ite) | (dsimp only) | (split)

theorem kept_pxRelock (h_regs : ¬ K .regs) (h_clk : ¬ K .clk) (x0 : Nat) (h : Kept K a s) :
    Kept K a (pxRelock x0 s) := by
  unfold pxRelock
  with_reducible repeat' first
    | (assumption) | (intro) | (apply kept_State_p) | (apply kept_pxRegs) | (apply kept_calibrate)
    | (apply kept_State_pb) | (apply kept_foldl) | (apply kept_foldl_snd) | (apply kept_foldl_fst) | (apply kept_ite)
    | (dsimp only) | (split)

theorem kept_pxRetune (h_regs : ¬ K .regs) (h_stn : ¬ K .stn) (h_clk : ¬ K .clk) (x0 : Nat) (x1 : Nat) (x2 : Nat) (x3
    : Nat) (h : Kept K a s) :
    Kept K a (pxRetune x0 x1 x2 x3 s) := by
  unfold pxRetune
  with_reducible repeat' first
    | (assumption) | (intro) | (apply kept_State_p) | (apply kept_State_modStn) | (apply kept_State_pb)
    | (apply kept_islFollow) | (apply kept_pxRelock) | (apply kept_foldl) | (apply kept_foldl_snd)
    | (apply kept_foldl_fst) | (apply kept_ite) | (dsimp only) | (split)

theorem kept_sendDark (h_regs : ¬ K .regs) (h_out : ¬ K .out) (h_stn : ¬ K .stn) (x0 : Nat) (x1 : Nat)
    (h : Kept K a s) :
    Kept K a (sendDark x0 x1 s) := by
  unfold sendDark
  with_reducible repeat' first
    | (assumption) | (intro) | (apply kept_State_emit) | (apply kept_State_modStn) | (apply kept_State_pb)
    | (apply kept_foldl) | (apply kept_foldl_snd) | (apply kept_foldl_fst) | (apply kept_ite) | (dsimp only)
    | (split)

theorem kept_modLink (h_stn : ¬ K .stn) (x0 : Nat) (x1 : LinkU → LinkU) (h : Kept K a s) :
    Kept K a (modLink x0 x1 s) := by
  unfold modLink
  with_reducible repeat' first
    | (assumption) | (intro) | (apply kept_State_modStn) | (apply kept_foldl) | (apply kept_foldl_snd)
    | (apply kept_foldl_fst) | (apply kept_ite) | (dsimp only) | (split)

theorem kept_linkStart (h_regs : ¬ K .regs) (h_out : ¬ K .out) (h_stn : ¬ K .stn) (x0 : Nat) (h : Kept K a s) :
    Kept K a (linkStart x0 s) := by
  unfold linkStart
  with_reducible repeat' first
    | (assumption) | (intro) | (apply kept_State_p) | (apply kept_sendDark) | (apply kept_modLink)
    | (apply kept_linkOkSync) | (apply kept_foldl) | (apply kept_foldl_snd) | (apply kept_foldl_fst)
    | (apply kept_ite) | (dsimp only) | (split)

theorem kept_activate (h_regs : ¬ K .regs) (h_out : ¬ K .out) (h_stn : ¬ K .stn) (h_clk : ¬ K .clk) (x0 : Nat) (x1 :
    Gen) (h : Kept K a s) :
    Kept K a (activate x0 x1 s) := by
  unfold activate
  with_reducible repeat' first
    | (assumption) | (intro) | (apply kept_State_modStn) | (apply kept_dropHeld) | (apply kept_genRegs)
    | (apply kept_scanTables) | (apply kept_pxRetune) | (apply kept_linkStart) | (apply kept_foldl)
    | (apply kept_foldl_snd) | (apply kept_foldl_fst) | (apply kept_ite) | (dsimp only) | (split)

theorem kept_activateFuel (h_regs : ¬ K .regs) (h_out : ¬ K .out) (h_stn : ¬ K .stn) (h_clk : ¬ K .clk) (x0 : Nat)
    (x1 : Nat) (h : Kept K a s) :
    Kept K a (activateFuel x0 x1 s) := by
  induction x0 generalizing s  with
  | zero => exact h
  | succ k ih =>
    unfold activateFuel
    with_reducible repeat' first
      | (assumption) | (intro) | (apply ih) | (apply kept_activate) | (apply kept_foldl) | (apply kept_foldl_snd)
      | (apply kept_foldl_fst) | (apply kept_ite) | (dsimp only) | (split)

theorem kept_activateTry (h_regs : ¬ K .regs) (h_out : ¬ K .out) (h_stn : ¬ K .stn) (h_clk : ¬ K .clk) (x0 : Nat)
    (h : Kept K a s) :
    Kept K a (activateTry x0 s) := by
  unfold activateTry
  with_reducible repeat' first
    | (assumption) | (intro) | (apply kept_activateFuel) | (apply kept_foldl) | (apply kept_foldl_snd)
    | (apply kept_foldl_fst) | (apply kept_ite) | (dsimp only) | (split)

theorem kept_setDdr (h_dram : ¬ K .dram) (x1 : Nat) (x2 : Ddr) (h : Kept K a s) :
    Kept K a (setDdr s x1 x2) := by
  unfold setDdr
  with_reducible repeat' first
    | (assumption) | (intro) | (apply kept_foldl) | (apply kept_foldl_snd) | (apply kept_foldl_fst)
    | (apply kept_ite) | (dsimp only) | (split) | (refine kept_mk ?_ (r_dram := (absurd · h_dram)))

theorem kept_modDdr (h_dram : ¬ K .dram) (x0 : Nat) (x1 : Ddr → Ddr) (h : Kept K a s) :
    Kept K a (modDdr x0 x1 s) := by
  unfold modDdr
  with_reducible repeat' first
    | (assumption) | (intro) | (apply kept_setDdr) | (apply kept_foldl) | (apply kept_foldl_snd)
    | (apply kept_foldl_fst) | (apply kept_ite) | (dsimp only) | (split)

theorem kept_rowSelect (h_regs : ¬ K .regs) (h_dram : ¬ K .dram) (x0 : Nat) (h : Kept K a s) :
    Kept K a (rowSelect x0 s) := by
  unfold rowSelect
  with_reducible repeat' first
    | (assumption) | (intro) | (apply kept_State_inc) | (apply kept_setDdr) | (apply kept_foldl)
    | (apply kept_foldl_snd) | (apply kept_foldl_fst) | (apply kept_ite) | (dsimp only) | (split)

theorem kept_activation (h_regs : ¬ K .regs) (h_dram : ¬ K .dram) (x0 : Nat) (h : Kept K a s) :
    Kept K a (activation x0 s) := by
  unfold activation
  with_reducible repeat' first
    | (assumption) | (intro) | (apply kept_modDdr) | (apply kept_rowSelect) | (apply kept_foldl)
    | (apply kept_foldl_snd) | (apply kept_foldl_fst) | (apply kept_ite) | (dsimp only) | (split)

theorem kept_activations (h_regs : ¬ K .regs) (h_dram : ¬ K .dram) (x0 : List Nat) (h : Kept K a s) :
    Kept K a (activations x0 s) := by
  unfold activations
  with_reducible repeat' first
    | (assumption) | (intro) | (apply kept_activation) | (apply kept_foldl) | (apply kept_foldl_snd)
    | (apply kept_foldl_fst) | (apply kept_ite) | (dsimp only) | (split)

theorem kept_add64 (h_regs : ¬ K .regs) (x0 : Sys2Proof.Fld) (x1 : Sys2Proof.Fld) (x2 : Nat) (h : Kept K a s) :
    Kept K a (add64 x0 x1 x2 s) := by
  unfold add64
  with_reducible repeat' first
    | (assumption) | (intro) | (apply kept_State_p) | (apply kept_foldl) | (apply kept_foldl_snd)
    | (apply kept_foldl_fst) | (apply kept_ite) | (dsimp only) | (split)

theorem kept_noteChange (h_psq : ¬ K .psq)  (h : Kept K a s) :
    Kept K a (noteChange s) := by
  unfold noteChange
  with_reducible repeat' first
    | (assumption) | (intro) | (apply kept_foldl) | (apply kept_foldl_snd) | (apply kept_foldl_fst)
    | (apply kept_ite) | (dsimp only) | (split) | (refine kept_mk ?_ (r_psq := (absurd · h_psq)))

theorem kept_applyTrim (h_psq : ¬ K .psq) (x0 : Int) (h : Kept K a s) :
    Kept K a (applyTrim x0 s) := by
  unfold applyTrim
  with_reducible repeat' first
    | (assumption) | (intro) | (apply kept_noteChange) | (apply kept_foldl) | (apply kept_foldl_snd)
    | (apply kept_foldl_fst) | (apply kept_ite) | (dsimp only) | (split)
    | (refine kept_mk ?_ (r_psq := (absurd · h_psq)))

theorem kept_polySync (h_regs : ¬ K .regs)  (h : Kept K a s) :
    Kept K a (polySync s) := by
  unfold polySync
  with_reducible repeat' first
    | (assumption) | (intro) | (apply kept_overN) | (apply kept_State_pz) | (apply kept_foldl)
    | (apply kept_foldl_snd) | (apply kept_foldl_fst) | (apply kept_ite) | (dsimp only) | (split)

theorem kept_commandSpeeds (h_regs : ¬ K .regs) (h_psq : ¬ K .psq) (h_stn : ¬ K .stn) (h_clk : ¬ K .clk) (x0 : Nat)
    (x1 : Nat) (x2 : Int) (h : Kept K a s) :
    Kept K a (commandSpeeds x0 x1 x2 s) := by
  unfold commandSpeeds
  with_reducible repeat' first
    | (assumption) | (intro) | (apply kept_State_p) | (apply kept_pxRetune) | (apply kept_polySync)
    | (apply kept_foldl) | (apply kept_foldl_snd) | (apply kept_foldl_fst) | (apply kept_ite) | (dsimp only)
    | (split)
    | (refine kept_mk ?_ (r_psq := (absurd · h_psq)) (r_stn := (absurd · h_stn)) (r_clk := (absurd · h_clk)))

theorem kept_warmupSpeeds (h_regs : ¬ K .regs) (h_psq : ¬ K .psq) (h_stn : ¬ K .stn) (h_clk : ¬ K .clk)
    (h : Kept K a s) :
    Kept K a (warmupSpeeds s) := by
  unfold warmupSpeeds
  with_reducible repeat' first
    | (assumption) | (intro) | (apply kept_applyTrim) | (apply kept_commandSpeeds) | (apply kept_foldl)
    | (apply kept_foldl_snd) | (apply kept_foldl_fst) | (apply kept_ite) | (dsimp only) | (split)

theorem kept_addGen (h_regs : ¬ K .regs) (h_out : ¬ K .out) (h_psq : ¬ K .psq) (h_stn : ¬ K .stn) (h_clk : ¬ K .clk)
    (x0 : Nat) (x1 : Gen) (h : Kept K a s) :
    Kept K a (addGen x0 x1 s) := by
  unfold addGen
  with_reducible repeat' first
    | (assumption) | (intro) | (apply kept_noteChange) | (apply kept_State_modStn) | (apply kept_linkOkSync)
    | (apply kept_cfgStat) | (apply kept_warmupSpeeds) | (apply kept_linkStart) | (apply kept_activateTry)
    | (apply kept_foldl) | (apply kept_foldl_snd) | (apply kept_foldl_fst) | (apply kept_ite) | (dsimp only)
    | (split) | (apply kept_id)

theorem kept_dropDec (h_regs : ¬ K .regs) (h_codec : ¬ K .codec) (x0 : Nat) (x1 : Nat) (h : Kept K a s) :
    Kept K a (dropDec x0 x1 s) := by
  unfold dropDec
  with_reducible repeat' first
    | (assumption) | (intro) | (apply kept_State_pb) | (apply kept_foldl) | (apply kept_foldl_snd)
    | (apply kept_foldl_fst) | (apply kept_ite) | (dsimp only) | (split)
    | (refine kept_mk ?_ (r_codec := (absurd · h_codec)))

theorem kept_dropVerify (h_regs : ¬ K .regs) (h_codec : ¬ K .codec) (x0 : Nat) (h : Kept K a s) :
    Kept K a (dropVerify x0 s) := by
  unfold dropVerify
  with_reducible repeat' first
    | (assumption) | (intro) | (apply kept_overN) | (apply kept_dropDec) | (apply kept_State_p) | (apply kept_foldl)
    | (apply kept_foldl_snd) | (apply kept_foldl_fst) | (apply kept_ite) | (dsimp only) | (split)
    | (refine kept_mk ?_ (r_codec := (absurd · h_codec)))

theorem kept_closeSession (h_regs : ¬ K .regs)  (h : Kept K a s) :
    Kept K a (closeSession s) := by
  unfold closeSession
  with_reducible repeat' first
    | (assumption) | (intro) | (apply kept_State_p) | (apply kept_State_pb) | (apply kept_foldl)
    | (apply kept_foldl_snd) | (apply kept_foldl_fst) | (apply kept_ite) | (dsimp only) | (split)

theorem kept_syncFull (h_regs : ¬ K .regs) (x0 : Nat) (h : Kept K a s) :
    Kept K a (syncFull x0 s) := by
  unfold syncFull
  with_reducible repeat' first
    | (assumption) | (intro) | (apply kept_State_pb) | (apply kept_foldl) | (apply kept_foldl_snd)
    | (apply kept_foldl_fst) | (apply kept_ite) | (dsimp only) | (split)

theorem kept_writeCqe (h_regs : ¬ K .regs) (h_out : ¬ K .out) (h_host : ¬ K .host) (x0 : Nat) (x1 : Post)
    (h : Kept K a s) :
    Kept K a (writeCqe x0 x1 s) := by
  unfold writeCqe
  with_reducible repeat' first
    | (assumption) | (intro) | (apply kept_State_emit) | (apply kept_State_setQp) | (apply kept_syncFull)
    | (apply kept_State_p) | (apply kept_State_msix) | (apply kept_foldl) | (apply kept_foldl_snd)
    | (apply kept_foldl_fst) | (apply kept_ite) | (dsimp only) | (split)

theorem kept_post (h_regs : ¬ K .regs) (h_out : ¬ K .out) (h_host : ¬ K .host) (x0 : Nat) (x1 : Post)
    (h : Kept K a s) :
    Kept K a (post x0 x1 s) := by
  unfold post
  with_reducible repeat' first
    | (assumption) | (intro) | (apply kept_State_setQp) | (apply kept_writeCqe) | (apply kept_foldl)
    | (apply kept_foldl_snd) | (apply kept_foldl_fst) | (apply kept_ite) | (dsimp only) | (split)

theorem kept_tryClose (h_regs : ¬ K .regs) (h_out : ¬ K .out) (h_host : ¬ K .host)  (h : Kept K a s) :
    Kept K a (tryClose s) := by
  unfold tryClose
  with_reducible repeat' first
    | (assumption) | (intro) | (apply kept_closeSession) | (apply kept_post) | (apply kept_foldl)
    | (apply kept_foldl_snd) | (apply kept_foldl_fst) | (apply kept_ite) | (dsimp only) | (split)
    | (refine kept_mk ?_ (r_host := (absurd · h_host)))

theorem kept_completeIn (h_regs : ¬ K .regs) (h_out : ¬ K .out) (h_host : ¬ K .host) (x0 : Nat) (x1 : Nat) (x2 : Nat)
    (x3 : Nat) (x4 : Nat) (x5 : Nat) (h : Kept K a s) :
    Kept K a (completeIn x0 x1 x2 x3 x4 x5 s) := by
  unfold completeIn
  with_reducible repeat' first
    | (assumption) | (intro) | (apply kept_tryClose) | (apply kept_post) | (apply kept_foldl)
    | (apply kept_foldl_snd) | (apply kept_foldl_fst) | (apply kept_ite) | (dsimp only) | (split)
    | (refine kept_mk ?_ (r_host := (absurd · h_host)))

theorem kept_complete (h_regs : ¬ K .regs) (h_out : ¬ K .out) (h_host : ¬ K .host) (x0 : Nat) (x1 : Nat) (x2 : Nat)
    (x3 : Nat) (x4 : Nat) (h : Kept K a s) :
    Kept K a (complete x0 x1 x2 x3 x4 s) := by
  unfold complete
  with_reducible repeat' first
    | (assumption) | (intro) | (apply kept_tryClose) | (apply kept_post) | (apply kept_foldl)
    | (apply kept_foldl_snd) | (apply kept_foldl_fst) | (apply kept_ite) | (dsimp only) | (split)
    | (refine kept_mk ?_ (r_host := (absurd · h_host)))

theorem kept_forgetSweeps (h_stn : ¬ K .stn) (x0 : Nat) (x1 : Nat) (h : Kept K a s) :
    Kept K a (forgetSweeps x0 x1 s) := by
  unfold forgetSweeps
  with_reducible repeat' first
    | (assumption) | (intro) | (apply kept_State_modStn) | (apply kept_foldl) | (apply kept_foldl_snd)
    | (apply kept_foldl_fst) | (apply kept_ite) | (dsimp only) | (split)

theorem kept_purge (h_regs : ¬ K .regs) (h_stn : ¬ K .stn) (x0 : Nat) (x1 : Nat) (h : Kept K a s) :
    Kept K a (purge x0 x1 s) := by
  unfold purge
  with_reducible repeat' first
    | (assumption) | (intro) | (apply kept_overN) | (apply kept_State_pb) | (apply kept_State_modStn)
    | (apply kept_foldl) | (apply kept_foldl_snd) | (apply kept_foldl_fst) | (apply kept_ite) | (dsimp only)
    | (split)

theorem kept_printSync (h_regs : ¬ K .regs)  (h : Kept K a s) :
    Kept K a (printSync s) := by
  unfold printSync
  with_reducible repeat' first
    | (assumption) | (intro) | (apply kept_State_setEngine) | (apply kept_foldl) | (apply kept_foldl_snd)
    | (apply kept_foldl_fst) | (apply kept_ite) | (dsimp only) | (split)

theorem kept_spoilShow (h_regs : ¬ K .regs) (h_out : ¬ K .out) (h_psq : ¬ K .psq) (x0 : Bool) (h : Kept K a s) :
    Kept K a (spoilShow x0 s) := by
  unfold spoilShow
  with_reducible repeat' first
    | (assumption) | (intro) | (apply kept_State_event) | (apply kept_State_drive) | (apply kept_State_pb)
    | (apply kept_foldl) | (apply kept_foldl_snd) | (apply kept_foldl_fst) | (apply kept_ite) | (dsimp only)
    | (split) | (refine kept_mk ?_ (r_psq := (absurd · h_psq)))

theorem kept_psqSync (h_regs : ¬ K .regs) (h_out : ¬ K .out) (h_psq : ¬ K .psq)  (h : Kept K a s) :
    Kept K a (psqSync s) := by
  unfold psqSync
  with_reducible repeat' first
    | (assumption) | (intro) | (apply kept_State_p) | (apply kept_spoilShow) | (apply kept_foldl)
    | (apply kept_foldl_snd) | (apply kept_foldl_fst) | (apply kept_ite) | (dsimp only) | (split)

theorem kept_freeCtx (h_regs : ¬ K .regs) (h_out : ¬ K .out) (h_psq : ¬ K .psq) (h_ctx : ¬ K .ctx) (h_stn : ¬ K .stn)
    (x0 : Nat) (h : Kept K a s) :
    Kept K a (freeCtx x0 s) := by
  unfold freeCtx
  with_reducible repeat' first
    | (assumption) | (intro) | (apply kept_overN) | (apply kept_forgetSweeps) | (apply kept_purge)
    | (apply kept_State_setCtx) | (apply kept_State_setReg) | (apply kept_printSync) | (apply kept_psqSync)
    | (apply kept_foldl) | (apply kept_foldl_snd) | (apply kept_foldl_fst) | (apply kept_ite) | (dsimp only)
    | (split)

theorem kept_refuseCommit (h_regs : ¬ K .regs) (h_out : ¬ K .out) (h_host : ¬ K .host) (h_psq : ¬ K .psq)
    (h_ctx : ¬ K .ctx) (h_codec : ¬ K .codec) (h_stn : ¬ K .stn) (x0 : Nat) (x1 : Nat) (x2 : Nat) (x3 : Option Nat)
    (h : Kept K a s) :
    Kept K a (refuseCommit x0 x1 x2 x3 s) := by
  unfold refuseCommit
  with_reducible repeat' first
    | (assumption) | (intro) | (apply kept_dropVerify) | (apply kept_completeIn) | (apply kept_complete)
    | (apply kept_freeCtx) | (apply kept_foldl) | (apply kept_foldl_snd) | (apply kept_foldl_fst) | (apply kept_ite)
    | (dsimp only) | (split)

theorem kept_completeCommit (h_regs : ¬ K .regs) (h_out : ¬ K .out) (h_host : ¬ K .host) (h_ctx : ¬ K .ctx) (x0 :
    Nat) (x1 : Nat) (x2 : Nat) (h : Kept K a s) :
    Kept K a (completeCommit x0 x1 x2 s) := by
  unfold completeCommit
  with_reducible repeat' first
    | (assumption) | (intro) | (apply kept_complete) | (apply kept_State_setCtx) | (apply kept_foldl)
    | (apply kept_foldl_snd) | (apply kept_foldl_fst) | (apply kept_ite) | (dsimp only) | (split)

theorem kept_admission (h_regs : ¬ K .regs) (h_out : ¬ K .out) (h_host : ¬ K .host) (h_psq : ¬ K .psq)
    (h_ctx : ¬ K .ctx) (h_codec : ¬ K .codec) (h_stn : ¬ K .stn) (x0 : Nat) (h : Kept K a s) :
    Kept K a (admission x0 s) := by
  unfold admission
  with_reducible repeat' first
    | (assumption) | (intro) | (apply kept_refuseCommit) | (apply kept_State_modCtx) | (apply kept_completeCommit)
    | (apply kept_psqSync) | (apply kept_State_p) | (apply kept_foldl) | (apply kept_foldl_snd)
    | (apply kept_foldl_fst) | (apply kept_ite) | (dsimp only) | (split)

theorem kept_modAg (h_mot : ¬ K .mot) (x0 : Nat) (x1 : Ag → Ag) (h : Kept K a s) :
    Kept K a (modAg x0 x1 s) := by
  unfold modAg
  with_reducible repeat' first
    | (assumption) | (intro) | (apply kept_foldl) | (apply kept_foldl_snd) | (apply kept_foldl_fst)
    | (apply kept_ite) | (dsimp only) | (split) | (refine kept_mk ?_ (r_mot := (absurd · h_mot)))

theorem kept_modAx (h_mot : ¬ K .mot) (x0 : Nat) (x1 : Ax → Ax) (h : Kept K a s) :
    Kept K a (modAx x0 x1 s) := by
  unfold modAx
  with_reducible repeat' first
    | (assumption) | (intro) | (apply kept_foldl) | (apply kept_foldl_snd) | (apply kept_foldl_fst)
    | (apply kept_ite) | (dsimp only) | (split) | (refine kept_mk ?_ (r_mot := (absurd · h_mot)))

theorem kept_axEndMove (h_regs : ¬ K .regs) (h_mot : ¬ K .mot) (x0 : Nat) (h : Kept K a s) :
    Kept K a (axEndMove x0 s) := by
  unfold axEndMove
  with_reducible repeat' first
    | (assumption) | (intro) | (apply kept_State_pb) | (apply kept_State_setReg) | (apply kept_modAx)
    | (apply kept_State_p) | (apply kept_foldl) | (apply kept_foldl_snd) | (apply kept_foldl_fst) | (apply kept_ite)
    | (dsimp only) | (split)

theorem kept_agEndMove (h_regs : ¬ K .regs) (h_mot : ¬ K .mot) (x0 : Nat) (h : Kept K a s) :
    Kept K a (agEndMove x0 s) := by
  unfold agEndMove
  with_reducible repeat' first
    | (assumption) | (intro) | (apply kept_State_pb) | (apply kept_State_p) | (apply kept_modAg)
    | (apply kept_axEndMove) | (apply kept_foldl) | (apply kept_foldl_snd) | (apply kept_foldl_fst)
    | (apply kept_ite) | (dsimp only) | (split)

theorem kept_axMoveEnd (h_regs : ¬ K .regs) (h_out : ¬ K .out) (h_mot : ¬ K .mot) (x0 : Nat) (h : Kept K a s) :
    Kept K a (axMoveEnd x0 s) := by
  unfold axMoveEnd
  with_reducible repeat' first
    | (assumption) | (intro) | (apply kept_State_event) | (apply kept_modAg) | (apply kept_agEndMove)
    | (apply kept_modAx) | (apply kept_axEndMove) | (apply kept_foldl) | (apply kept_foldl_snd)
    | (apply kept_foldl_fst) | (apply kept_ite) | (dsimp only) | (split)

theorem kept_agSettle (h_regs : ¬ K .regs) (h_out : ¬ K .out) (h_mot : ¬ K .mot) (x0 : Nat) (h : Kept K a s) :
    Kept K a (agSettle x0 s) := by
  unfold agSettle
  with_reducible repeat' first
    | (assumption) | (intro) | (apply kept_axMoveEnd) | (apply kept_foldl) | (apply kept_foldl_snd)
    | (apply kept_foldl_fst) | (apply kept_ite) | (dsimp only) | (split)

theorem kept_velSync (h_regs : ¬ K .regs) (x0 : Nat) (x1 : Nat) (h : Kept K a s) :
    Kept K a (velSync x0 x1 s) := by
  unfold velSync
  with_reducible repeat' first
    | (assumption) | (intro) | (apply kept_State_setReg) | (apply kept_foldl) | (apply kept_foldl_snd)
    | (apply kept_foldl_fst) | (apply kept_ite) | (dsimp only) | (split)

theorem kept_axUnwind (h_regs : ¬ K .regs) (h_out : ¬ K .out) (h_mot : ¬ K .mot) (x0 : Nat) (h : Kept K a s) :
    Kept K a (axUnwind x0 s) := by
  unfold axUnwind
  with_reducible repeat' first
    | (assumption) | (intro) | (apply kept_State_setReg) | (apply kept_axEndMove) | (apply kept_velSync)
    | (apply kept_modAx) | (apply kept_State_p) | (apply kept_State_unEvent) | (apply kept_foldl)
    | (apply kept_foldl_snd) | (apply kept_foldl_fst) | (apply kept_ite) | (dsimp only) | (split)

theorem kept_agUnwind (h_regs : ¬ K .regs) (h_out : ¬ K .out) (h_mot : ¬ K .mot) (x0 : Nat) (h : Kept K a s) :
    Kept K a (agUnwind x0 s) := by
  unfold agUnwind
  with_reducible repeat' first
    | (assumption) | (intro) | (apply kept_axUnwind) | (apply kept_agEndMove) | (apply kept_modAg)
    | (apply kept_State_p) | (apply kept_State_unEvent) | (apply kept_velSync) | (apply kept_modAx)
    | (apply kept_foldl) | (apply kept_foldl_snd) | (apply kept_foldl_fst) | (apply kept_ite) | (dsimp only)
    | (split)

theorem kept_axResult (h_regs : ¬ K .regs) (x0 : Nat) (x1 : Nat) (h : Kept K a s) :
    Kept K a (axResult x0 x1 s) := by
  unfold axResult
  with_reducible repeat' first
    | (assumption) | (intro) | (apply kept_State_p) | (apply kept_foldl) | (apply kept_foldl_snd)
    | (apply kept_foldl_fst) | (apply kept_ite) | (dsimp only) | (split)

theorem kept_axTargetPut (h_regs : ¬ K .regs) (x0 : Nat) (x1 : Sys2Proof.Word) (h : Kept K a s) :
    Kept K a (axTargetPut x0 x1 s) := by
  unfold axTargetPut
  with_reducible repeat' first
    | (assumption) | (intro) | (apply kept_axResult) | (apply kept_State_setReg) | (apply kept_foldl)
    | (apply kept_foldl_snd) | (apply kept_foldl_fst) | (apply kept_ite) | (dsimp only) | (split)

theorem kept_axReplay (h_regs : ¬ K .regs) (x0 : Nat) (h : Kept K a s) :
    Kept K a (axReplay x0 s) := by
  unfold axReplay
  with_reducible repeat' first
    | (assumption) | (intro) | (apply kept_axTargetPut) | (apply kept_axResult) | (apply kept_foldl)
    | (apply kept_foldl_snd) | (apply kept_foldl_fst) | (apply kept_ite) | (dsimp only) | (split)

theorem kept_agResult (h_regs : ¬ K .regs) (x0 : Nat) (x1 : Nat) (h : Kept K a s) :
    Kept K a (agResult x0 x1 s) := by
  unfold agResult
  with_reducible repeat' first
    | (assumption) | (intro) | (apply kept_State_p) | (apply kept_foldl) | (apply kept_foldl_snd)
    | (apply kept_foldl_fst) | (apply kept_ite) | (dsimp only) | (split)

theorem kept_agReplay (h_regs : ¬ K .regs) (x0 : Nat) (h : Kept K a s) :
    Kept K a (agReplay x0 s) := by
  unfold agReplay
  with_reducible repeat' first
    | (assumption) | (intro) | (apply kept_axReplay) | (apply kept_agResult) | (apply kept_foldl)
    | (apply kept_foldl_snd) | (apply kept_foldl_fst) | (apply kept_ite) | (dsimp only) | (split)

theorem kept_agStop (h_regs : ¬ K .regs) (h_out : ¬ K .out) (h_mot : ¬ K .mot) (x0 : Nat) (h : Kept K a s) :
    Kept K a (agStop x0 s) := by
  unfold agStop
  with_reducible repeat' first
    | (assumption) | (intro) | (apply kept_State_pb) | (apply kept_modAg) | (apply kept_agUnwind)
    | (apply kept_agReplay) | (apply kept_agEndMove) | (apply kept_State_p) | (apply kept_foldl)
    | (apply kept_foldl_snd) | (apply kept_foldl_fst) | (apply kept_ite) | (dsimp only) | (split)

theorem kept_setLevel (h_regs : ¬ K .regs) (h_mot : ¬ K .mot) (x0 : Nat) (x1 : Nat) (h : Kept K a s) :
    Kept K a (setLevel x0 x1 s) := by
  unfold setLevel
  with_reducible repeat' first
    | (assumption) | (intro) | (apply kept_State_pb) | (apply kept_modAx) | (apply kept_State_p) | (apply kept_foldl)
    | (apply kept_foldl_snd) | (apply kept_foldl_fst) | (apply kept_ite) | (dsimp only) | (split)

theorem kept_atBoundary (h_regs : ¬ K .regs) (h_mot : ¬ K .mot) (x0 : Nat) (x1 : Nat) (x2 : Bool) (h : Kept K a s) :
    Kept K a (atBoundary x0 x1 x2 s) := by
  unfold atBoundary
  with_reducible repeat' first
    | (assumption) | (intro) | (apply kept_setLevel) | (apply kept_foldl) | (apply kept_foldl_snd)
    | (apply kept_foldl_fst) | (apply kept_ite) | (dsimp only) | (split)

theorem kept_axBegin (h_regs : ¬ K .regs) (h_mot : ¬ K .mot) (x0 : Nat) (x1 : Bool) (x2 : Bool) (x3 : Int)
    (h : Kept K a s) :
    Kept K a (axBegin x0 x1 x2 x3 s) := by
  unfold axBegin
  with_reducible repeat' first
    | (assumption) | (intro) | (apply kept_modAx) | (apply kept_State_p) | (apply kept_atBoundary)
    | (apply kept_foldl) | (apply kept_foldl_snd) | (apply kept_foldl_fst) | (apply kept_ite) | (dsimp only)
    | (split)

theorem kept_agStart (h_regs : ¬ K .regs) (h_mot : ¬ K .mot) (x0 : Nat) (h : Kept K a s) :
    Kept K a (agStart x0 s) := by
  unfold agStart
  with_reducible repeat' first
    | (assumption) | (intro) | (apply kept_agResult) | (apply kept_agEndMove) | (apply kept_axBegin)
    | (apply kept_State_p) | (apply kept_foldl) | (apply kept_foldl_snd) | (apply kept_foldl_fst) | (apply kept_ite)
    | (dsimp only) | (split)

theorem kept_agGo (h_regs : ¬ K .regs) (h_out : ¬ K .out) (h_mot : ¬ K .mot) (x0 : Nat) (h : Kept K a s) :
    Kept K a (agGo x0 s) := by
  unfold agGo
  with_reducible repeat' first
    | (assumption) | (intro) | (apply kept_modAg) | (apply kept_agResult) | (apply kept_State_p)
    | (apply kept_State_event) | (apply kept_agStart) | (apply kept_foldl) | (apply kept_foldl_snd)
    | (apply kept_foldl_fst) | (apply kept_ite) | (dsimp only) | (split)

theorem kept_agCtrlWrite (h_regs : ¬ K .regs) (h_out : ¬ K .out) (h_mot : ¬ K .mot) (x0 : Nat) (x1 : Sys2Proof.Word)
    (h : Kept K a s) :
    Kept K a (agCtrlWrite x0 x1 s) := by
  unfold agCtrlWrite
  with_reducible repeat' first
    | (assumption) | (intro) | (apply kept_agSettle) | (apply kept_State_p) | (apply kept_agStop) | (apply kept_agGo)
    | (apply kept_foldl) | (apply kept_foldl_snd) | (apply kept_foldl_fst) | (apply kept_ite) | (dsimp only)
    | (split)

theorem kept_agEstop (h_regs : ¬ K .regs) (h_mot : ¬ K .mot) (x0 : Nat) (h : Kept K a s) :
    Kept K a (agEstop x0 s) := by
  unfold agEstop
  with_reducible repeat' first
    | (assumption) | (intro) | (apply kept_modAx) | (apply kept_State_p) | (apply kept_modAg) | (apply kept_foldl)
    | (apply kept_foldl_snd) | (apply kept_foldl_fst) | (apply kept_ite) | (dsimp only) | (split)

theorem kept_agProfileWrite (h_regs : ¬ K .regs) (h_out : ¬ K .out) (h_mot : ¬ K .mot) (x0 : Nat) (x1 : Nat) (x2 :
    Sys2Proof.Word) (h : Kept K a s) :
    Kept K a (agProfileWrite x0 x1 x2 s) := by
  unfold agProfileWrite
  with_reducible repeat' first
    | (assumption) | (intro) | (apply kept_agSettle) | (apply kept_agResult) | (apply kept_State_setReg)
    | (apply kept_foldl) | (apply kept_foldl_snd) | (apply kept_foldl_fst) | (apply kept_ite) | (dsimp only)
    | (split)

theorem kept_agPulse (h_regs : ¬ K .regs) (h_mot : ¬ K .mot) (x0 : Nat) (h : Kept K a s) :
    Kept K a (agPulse x0 s) := by
  unfold agPulse
  with_reducible repeat' first
    | (assumption) | (intro) | (apply kept_agStart) | (apply kept_foldl) | (apply kept_foldl_snd)
    | (apply kept_foldl_fst) | (apply kept_ite) | (dsimp only) | (split)

theorem kept_groupFault (h_regs : ¬ K .regs) (h_mot : ¬ K .mot) (x0 : Nat) (h : Kept K a s) :
    Kept K a (groupFault x0 s) := by
  unfold groupFault
  with_reducible repeat' first
    | (assumption) | (intro) | (apply kept_modAx) | (apply kept_State_p) | (apply kept_axEndMove)
    | (apply kept_agResult) | (apply kept_agEndMove) | (apply kept_foldl) | (apply kept_foldl_snd)
    | (apply kept_foldl_fst) | (apply kept_ite) | (dsimp only) | (split)

theorem kept_takeEdge (h_regs : ¬ K .regs) (h_out : ¬ K .out) (h_mot : ¬ K .mot) (x0 : Nat) (x1 : Nat) (x2 : Bool)
    (h : Kept K a s) :
    Kept K a (takeEdge x0 x1 x2 s) := by
  unfold takeEdge
  with_reducible repeat' first
    | (assumption) | (intro) | (apply kept_modAx) | (apply kept_State_setReg) | (apply kept_State_drive)
    | (apply kept_atBoundary) | (apply kept_foldl) | (apply kept_foldl_snd) | (apply kept_foldl_fst)
    | (apply kept_ite) | (dsimp only) | (split)

theorem kept_stepEdges (h_regs : ¬ K .regs) (h_out : ¬ K .out) (h_mot : ¬ K .mot) (x0 : Nat) (x1 : Nat) (x2 : Nat)
    (x3 : Bool) (x4 : Nat) (h : Kept K a s) :
    Kept K a (stepEdges x0 x1 x2 x3 x4 s) := by
  induction x4 generalizing s  with
  | zero => unfold stepEdges; exact h
  | succ k ih =>
    unfold stepEdges
    with_reducible repeat' first
      | (assumption) | (intro) | (apply ih) | (apply kept_takeEdge) | (apply kept_foldl) | (apply kept_foldl_snd)
      | (apply kept_foldl_fst) | (apply kept_ite) | (dsimp only) | (split)

theorem kept_levelPend (h_regs : ¬ K .regs) (h_mot : ¬ K .mot) (x0 : Nat) (x1 : Nat) (h : Kept K a s) :
    Kept K a (levelPend x0 x1 s) := by
  unfold levelPend
  with_reducible repeat' first
    | (assumption) | (intro) | (apply kept_modAx) | (apply kept_State_pb) | (apply kept_foldl)
    | (apply kept_foldl_snd) | (apply kept_foldl_fst) | (apply kept_ite) | (dsimp only) | (split)

theorem kept_memberTick (h_regs : ¬ K .regs) (h_out : ¬ K .out) (h_mot : ¬ K .mot) (x0 : Nat) (x1 : Nat) (x2 : Nat)
    (x4 : Nat × Int) (h : Kept K a s) :
    Kept K a (memberTick x0 x1 x2 s x4) := by
  unfold memberTick
  with_reducible repeat' first
    | (assumption) | (intro) | (apply kept_modAx) | (apply kept_stepEdges) | (apply kept_levelPend)
    | (apply kept_velSync) | (apply kept_foldl) | (apply kept_foldl_snd) | (apply kept_foldl_fst) | (apply kept_ite)
    | (dsimp only) | (split)

theorem kept_agTick (h_regs : ¬ K .regs) (h_out : ¬ K .out) (h_mot : ¬ K .mot) (x0 : Nat) (h : Kept K a s) :
    Kept K a (agTick x0 s) := by
  unfold agTick
  with_reducible repeat' first
    | (assumption) | (intro) | (apply kept_groupFault) | (apply kept_modAg) | (apply kept_State_pb)
    | (apply kept_memberTick) | (apply kept_agEndMove) | (apply kept_foldl) | (apply kept_foldl_snd)
    | (apply kept_foldl_fst) | (apply kept_ite) | (dsimp only) | (split)

theorem kept_apertureWrite (h_rig : ¬ K .rig) (x0 : Nat) (x1 : Sys2Proof.Word) (h : Kept K a s) :
    Kept K a (apertureWrite x0 x1 s) := by
  unfold apertureWrite
  with_reducible repeat' first
    | (assumption) | (intro) | (apply kept_foldl) | (apply kept_foldl_snd) | (apply kept_foldl_fst)
    | (apply kept_ite) | (dsimp only) | (split) | (refine kept_mk ?_ (r_rig := (absurd · h_rig)))

theorem kept_apertureAt (h_regs : ¬ K .regs) (h_rig : ¬ K .rig) (x0 : Nat) (x1 : Sys2Proof.Word) (h : Kept K a s) :
    Kept K a (apertureAt x0 x1 s) := by
  unfold apertureAt
  with_reducible repeat' first
    | (assumption) | (intro) | (apply kept_hostAt) | (apply kept_apertureWrite) | (apply kept_foldl)
    | (apply kept_foldl_snd) | (apply kept_foldl_fst) | (apply kept_ite) | (dsimp only) | (split)

theorem kept_applyStatus (h_regs : ¬ K .regs) (x0 : List Sys2Proof.Byte) (x1 : Nat) (h : Kept K a s) :
    Kept K a (applyStatus x0 x1 s) := by
  unfold applyStatus
  with_reducible repeat' first
    | (assumption) | (intro) | (apply kept_State_p) | (apply kept_State_pb) | (apply kept_foldl)
    | (apply kept_foldl_snd) | (apply kept_foldl_fst) | (apply kept_ite) | (dsimp only) | (split)

theorem kept_applyIslands (h_regs : ¬ K .regs)  (h : Kept K a s) :
    Kept K a (applyIslands s) := by
  unfold applyIslands
  with_reducible repeat' first
    | (assumption) | (intro) | (apply kept_islOn) | (apply kept_foldl) | (apply kept_foldl_snd)
    | (apply kept_foldl_fst) | (apply kept_ite) | (dsimp only) | (split)

theorem kept_pllSet (h_regs : ¬ K .regs) (h_clk : ¬ K .clk) (x0 : Nat) (x1 : Nat) (x2 : Nat) (h : Kept K a s) :
    Kept K a (pllSet x0 x1 x2 s) := by
  unfold pllSet
  with_reducible repeat' first
    | (assumption) | (intro) | (apply kept_State_p) | (apply kept_State_pb) | (apply kept_calibrate)
    | (apply kept_foldl) | (apply kept_foldl_snd) | (apply kept_foldl_fst) | (apply kept_ite) | (dsimp only)
    | (split)

theorem kept_applyPlls (h_regs : ¬ K .regs) (h_clk : ¬ K .clk) (x0 : List Isl) (h : Kept K a s) :
    Kept K a (applyPlls x0 s) := by
  unfold applyPlls
  with_reducible repeat' first
    | (assumption) | (intro) | (apply kept_pllSet) | (apply kept_foldl) | (apply kept_foldl_snd)
    | (apply kept_foldl_fst) | (apply kept_ite) | (dsimp only) | (split)

theorem kept_applyRig (h_regs : ¬ K .regs) (h_rig : ¬ K .rig) (x0 : List Sys2Proof.Byte) (h : Kept K a s) :
    Kept K a (applyRig x0 s) := by
  unfold applyRig
  with_reducible repeat' first
    | (assumption) | (intro) | (apply kept_State_pb) | (apply kept_overN) | (apply kept_State_p) | (apply kept_foldl)
    | (apply kept_foldl_snd) | (apply kept_foldl_fst) | (apply kept_ite) | (dsimp only) | (split)
    | (refine kept_mk ?_ (r_rig := (absurd · h_rig)))

theorem kept_applySpar (h_regs : ¬ K .regs) (x0 : List Sys2Proof.Byte) (h : Kept K a s) :
    Kept K a (applySpar x0 s) := by
  unfold applySpar
  with_reducible repeat' first
    | (assumption) | (intro) | (apply kept_State_p) | (apply kept_State_pb) | (apply kept_foldl)
    | (apply kept_foldl_snd) | (apply kept_foldl_fst) | (apply kept_ite) | (dsimp only) | (split)

theorem kept_applySeq (h_regs : ¬ K .regs) (x0 : List Sys2Proof.Byte) (h : Kept K a s) :
    Kept K a (applySeq x0 s) := by
  unfold applySeq
  with_reducible repeat' first
    | (assumption) | (intro) | (apply kept_overN) | (apply kept_State_p) | (apply kept_foldl)
    | (apply kept_foldl_snd) | (apply kept_foldl_fst) | (apply kept_ite) | (dsimp only) | (split)

theorem kept_applyDram (h_regs : ¬ K .regs) (h_dram : ¬ K .dram) (x0 : List Sys2Proof.Byte) (x1 : Nat)
    (h : Kept K a s) :
    Kept K a (applyDram x0 x1 s) := by
  unfold applyDram
  with_reducible repeat' first
    | (assumption) | (intro) | (apply kept_State_p) | (apply kept_State_pb) | (apply kept_overN) | (apply kept_foldl)
    | (apply kept_foldl_snd) | (apply kept_foldl_fst) | (apply kept_ite) | (dsimp only) | (split)
    | (refine kept_mk ?_ (r_dram := (absurd · h_dram)))

theorem kept_chipErrWrite (h_regs : ¬ K .regs) (x0 : Sys2Proof.Word) (h : Kept K a s) :
    Kept K a (chipErrWrite x0 s) := by
  unfold chipErrWrite
  with_reducible repeat' first
    | (assumption) | (intro) | (apply kept_State_plainWrite) | (apply kept_State_pb) | (apply kept_foldl)
    | (apply kept_foldl_snd) | (apply kept_foldl_fst) | (apply kept_ite) | (dsimp only) | (split)

theorem kept_irqMaskWrite (h_regs : ¬ K .regs) (h_out : ¬ K .out) (x0 : Sys2Proof.Word) (h : Kept K a s) :
    Kept K a (irqMaskWrite x0 s) := by
  unfold irqMaskWrite
  with_reducible repeat' first
    | (assumption) | (intro) | (apply kept_State_plainWrite) | (apply kept_State_msix) | (apply kept_foldl)
    | (apply kept_foldl_snd) | (apply kept_foldl_fst) | (apply kept_ite) | (dsimp only) | (split)

theorem kept_csetConfirm (h_regs : ¬ K .regs) (h_rig : ¬ K .rig) (x0 : Sys2Proof.Word) (h : Kept K a s) :
    Kept K a (csetConfirm x0 s) := by
  unfold csetConfirm
  with_reducible repeat' first
    | (assumption) | (intro) | (apply kept_State_pb) | (apply kept_State_p) | (apply kept_foldl)
    | (apply kept_foldl_snd) | (apply kept_foldl_fst) | (apply kept_ite) | (dsimp only) | (split)
    | (refine kept_mk ?_ (r_rig := (absurd · h_rig)))

theorem kept_setPwr (h_pwr : ¬ K .pwr) (x0 : PwrU) (h : Kept K a s) :
    Kept K a (setPwr x0 s) := by
  unfold setPwr
  with_reducible repeat' first
    | (assumption) | (intro) | (apply kept_foldl) | (apply kept_foldl_snd) | (apply kept_foldl_fst)
    | (apply kept_ite) | (dsimp only) | (split) | (refine kept_mk ?_ (r_pwr := (absurd · h_pwr)))

theorem kept_railNvmClr (h_pwr : ¬ K .pwr) (x0 : Nat) (h : Kept K a s) :
    Kept K a (railNvmClr x0 s) := by
  unfold railNvmClr
  with_reducible repeat' first
    | (assumption) | (intro) | (apply kept_setPwr) | (apply kept_foldl) | (apply kept_foldl_snd)
    | (apply kept_foldl_fst) | (apply kept_ite) | (dsimp only) | (split)

theorem kept_pwrCntClr (h_regs : ¬ K .regs) (h_pwr : ¬ K .pwr) (x0 : Nat) (h : Kept K a s) :
    Kept K a (pwrCntClr x0 s) := by
  unfold pwrCntClr
  with_reducible repeat' first
    | (assumption) | (intro) | (apply kept_State_p) | (apply kept_railNvmClr) | (apply kept_setPwr)
    | (apply kept_foldl) | (apply kept_foldl_snd) | (apply kept_foldl_fst) | (apply kept_ite) | (dsimp only)
    | (split)

theorem kept_pwrRefuse (h_regs : ¬ K .regs)  (h : Kept K a s) :
    Kept K a (pwrRefuse s) := by
  unfold pwrRefuse
  with_reducible repeat' first
    | (assumption) | (intro) | (apply kept_State_pb) | (apply kept_foldl) | (apply kept_foldl_snd)
    | (apply kept_foldl_fst) | (apply kept_ite) | (dsimp only) | (split)

theorem kept_saveBegin (h_regs : ¬ K .regs) (h_pwr : ¬ K .pwr) (x0 : Nat) (h : Kept K a s) :
    Kept K a (saveBegin x0 s) := by
  unfold saveBegin
  with_reducible repeat' first
    | (assumption) | (intro) | (apply kept_setPwr) | (apply kept_State_pb) | (apply kept_foldl)
    | (apply kept_foldl_snd) | (apply kept_foldl_fst) | (apply kept_ite) | (dsimp only) | (split)

theorem kept_vinSample (h_regs : ¬ K .regs) (h_free : ¬ K .free)  (h : Kept K a s) :
    Kept K a (vinSample s) := by
  unfold vinSample
  with_reducible repeat' first
    | (assumption) | (intro) | (apply kept_State_fresh) | (apply kept_State_pb) | (apply kept_State_p)
    | (apply kept_foldl) | (apply kept_foldl_snd) | (apply kept_foldl_fst) | (apply kept_ite) | (dsimp only)
    | (split)

theorem kept_pwrSave (h_regs : ¬ K .regs) (h_free : ¬ K .free) (h_pwr : ¬ K .pwr)  (h : Kept K a s) :
    Kept K a (pwrSave s) := by
  unfold pwrSave
  with_reducible repeat' first
    | (assumption) | (intro) | (apply kept_pwrRefuse) | (apply kept_saveBegin) | (apply kept_vinSample)
    | (apply kept_foldl) | (apply kept_foldl_snd) | (apply kept_foldl_fst) | (apply kept_ite) | (dsimp only)
    | (split)

theorem kept_reachOff (h_regs : ¬ K .regs)  (h : Kept K a s) :
    Kept K a (reachOff s) := by
  unfold reachOff
  with_reducible repeat' first
    | (assumption) | (intro) | (apply kept_State_p) | (apply kept_State_setEngine) | (apply kept_foldl)
    | (apply kept_foldl_snd) | (apply kept_foldl_fst) | (apply kept_ite) | (dsimp only) | (split)

theorem kept_pwrUncleat (h_regs : ¬ K .regs)  (h : Kept K a s) :
    Kept K a (pwrUncleat s) := by
  unfold pwrUncleat
  with_reducible repeat' first
    | (assumption) | (intro) | (apply kept_reachOff) | (apply kept_pwrRefuse) | (apply kept_foldl)
    | (apply kept_foldl_snd) | (apply kept_foldl_fst) | (apply kept_ite) | (dsimp only) | (split)

theorem kept_railNvm (h_pwr : ¬ K .pwr)  (h : Kept K a s) :
    Kept K a (railNvm s) := by
  unfold railNvm
  with_reducible repeat' first
    | (assumption) | (intro) | (apply kept_setPwr) | (apply kept_foldl) | (apply kept_foldl_snd)
    | (apply kept_foldl_fst) | (apply kept_ite) | (dsimp only) | (split)

theorem kept_slotQual (h_regs : ¬ K .regs) (x0 : Nat) (x1 : Bool) (h : Kept K a s) :
    Kept K a (slotQual x0 x1 s) := by
  unfold slotQual
  with_reducible repeat' first
    | (assumption) | (intro) | (apply kept_State_p) | (apply kept_State_pb) | (apply kept_foldl)
    | (apply kept_foldl_snd) | (apply kept_foldl_fst) | (apply kept_ite) | (dsimp only) | (split)

theorem kept_setEnable (h_regs : ¬ K .regs) (h_pwr : ¬ K .pwr) (x0 : Nat) (x1 : Bool) (h : Kept K a s) :
    Kept K a (setEnable x0 x1 s) := by
  unfold setEnable
  with_reducible repeat' first
    | (assumption) | (intro) | (apply kept_State_p) | (apply kept_State_pb) | (apply kept_setPwr)
    | (apply kept_slotQual) | (apply kept_foldl) | (apply kept_foldl_snd) | (apply kept_foldl_fst) | (apply kept_ite)
    | (dsimp only) | (split)

theorem kept_coalesce (h_regs : ¬ K .regs) (x0 : ErrIn) (x1 : Latest) (h : Kept K a s) :
    Kept K a (coalesce x0 x1 s) := by
  unfold coalesce
  with_reducible repeat' first
    | (assumption) | (intro) | (apply kept_State_p) | (apply kept_State_setReg) | (apply kept_State_inc)
    | (apply kept_foldl) | (apply kept_foldl_snd) | (apply kept_foldl_fst) | (apply kept_ite) | (dsimp only)
    | (split)

theorem kept_postFault (h_regs : ¬ K .regs) (h_out : ¬ K .out) (h_host : ¬ K .host) (x0 : Nat) (x1 : ErrIn)
    (h : Kept K a s) :
    Kept K a (postFault x0 x1 s).1 := by
  unfold postFault
  with_reducible repeat' first
    | (assumption) | (intro) | (apply kept_State_inc) | (apply kept_writeCqe) | (apply kept_foldl)
    | (apply kept_foldl_snd) | (apply kept_foldl_fst) | (apply kept_ite) | (dsimp only) | (split)

theorem kept_putWords (h_regs : ¬ K .regs) (x0 : Nat) (x1 : List Nat) (h : Kept K a s) :
    Kept K a (putWords x0 x1 s) := by
  induction x1 generalizing s x0 with
  | nil => exact h
  | cons x r ih =>
    unfold putWords
    with_reducible repeat' first
      | (assumption) | (intro) | (apply ih) | (apply kept_State_setReg) | (apply kept_foldl) | (apply kept_foldl_snd)
      | (apply kept_foldl_fst) | (apply kept_ite) | (dsimp only) | (split)

theorem kept_ringPush (h_nvm : ¬ K .nvm) (x0 : List Nat) (h : Kept K a s) :
    Kept K a (ringPush x0 s) := by
  unfold ringPush
  with_reducible repeat' first
    | (assumption) | (intro) | (apply kept_foldl) | (apply kept_foldl_snd) | (apply kept_foldl_fst)
    | (apply kept_ite) | (dsimp only) | (split) | (refine kept_mk ?_ (r_nvm := (absurd · h_nvm)))

theorem kept_nvmRecord (h_err : ¬ K .err) (h_nvm : ¬ K .nvm) (x0 : List Nat) (h : Kept K a s) :
    Kept K a (nvmRecord x0 s) := by
  unfold nvmRecord
  with_reducible repeat' first
    | (assumption) | (intro) | (apply kept_ringPush) | (apply kept_foldl) | (apply kept_foldl_snd)
    | (apply kept_foldl_fst) | (apply kept_ite) | (dsimp only) | (split)
    | (refine kept_mk ?_ (r_err := (absurd · h_err)) (r_nvm := (absurd · h_nvm)))

theorem kept_modEth (h_net : ¬ K .net) (x0 : Nat) (x1 : Eth → Eth) (h : Kept K a s) :
    Kept K a (modEth x0 x1 s) := by
  unfold modEth
  with_reducible repeat' first
    | (assumption) | (intro) | (apply kept_foldl) | (apply kept_foldl_snd) | (apply kept_foldl_fst)
    | (apply kept_ite) | (dsimp only) | (split) | (refine kept_mk ?_ (r_net := (absurd · h_net)))

theorem kept_replSend (h_out : ¬ K .out) (h_net : ¬ K .net) (x0 : Nat) (x1 : Nat) (x2 : Bool) (x3 : Nat) (x4 : List
    Sys2Proof.Byte) (h : Kept K a s) :
    Kept K a (replSend x0 x1 x2 x3 x4 s) := by
  unfold replSend
  with_reducible repeat' first
    | (assumption) | (intro) | (apply kept_modEth) | (apply kept_State_emit) | (apply kept_foldl)
    | (apply kept_foldl_snd) | (apply kept_foldl_fst) | (apply kept_ite) | (dsimp only) | (split)

theorem kept_notifyOne (h_out : ¬ K .out) (h_host : ¬ K .host) (h_net : ¬ K .net) (x0 : List Sys2Proof.Byte) (x1 :
    Repl) (h : Kept K a s) :
    Kept K a (notifyOne x0 x1 s) := by
  unfold notifyOne
  with_reducible repeat' first
    | (assumption) | (intro) | (apply kept_replSend) | (apply kept_foldl) | (apply kept_foldl_snd)
    | (apply kept_foldl_fst) | (apply kept_ite) | (dsimp only) | (split)
    | (refine kept_mk ?_ (r_host := (absurd · h_host)) (r_net := (absurd · h_net)))

theorem kept_notifyAll (h_out : ¬ K .out) (h_host : ¬ K .host) (h_net : ¬ K .net) (x0 : List Sys2Proof.Byte)
    (h : Kept K a s) :
    Kept K a (notifyAll x0 s) := by
  unfold notifyAll
  with_reducible repeat' first
    | (assumption) | (intro) | (apply kept_notifyOne) | (apply kept_foldl) | (apply kept_foldl_snd)
    | (apply kept_foldl_fst) | (apply kept_ite) | (dsimp only) | (split)

theorem kept_irqSync (h_regs : ¬ K .regs) (h_out : ¬ K .out) (h_err : ¬ K .err)  (h : Kept K a s) :
    Kept K a (irqSync s) := by
  unfold irqSync
  with_reducible repeat' first
    | (assumption) | (intro) | (apply kept_State_p) | (apply kept_State_msix) | (apply kept_foldl)
    | (apply kept_foldl_snd) | (apply kept_foldl_fst) | (apply kept_ite) | (dsimp only) | (split)
    | (refine kept_mk ?_ (r_err := (absurd · h_err)))

theorem kept_pendSet (h_regs : ¬ K .regs) (h_out : ¬ K .out) (h_err : ¬ K .err) (x0 : Nat) (x1 : Nat)
    (h : Kept K a s) :
    Kept K a (pendSet x0 x1 s) := by
  unfold pendSet
  with_reducible repeat' first
    | (assumption) | (intro) | (apply kept_irqSync) | (apply kept_State_p) | (apply kept_foldl)
    | (apply kept_foldl_snd) | (apply kept_foldl_fst) | (apply kept_ite) | (dsimp only) | (split)

theorem kept_newRecord (h_regs : ¬ K .regs) (h_out : ¬ K .out) (h_host : ¬ K .host) (h_err : ¬ K .err)
    (h_nvm : ¬ K .nvm) (h_staySeq : ¬ K .staySeq) (h_net : ¬ K .net) (x0 : ErrIn) (h : Kept K a s) :
    Kept K a (newRecord x0 s) := by
  unfold newRecord
  have h2 : Kept K a (if x0.quiet then ({ (((if s.g (Reg.ERR_REC_WORD (s.g Reg.ERR_HEAD_NEXT) 0) ≠ 0
      then s.p Reg.ERR_HEAD_WRAPPED 1 else s).p Reg.ERR_HEAD_NEXT ((s.g Reg.ERR_HEAD_NEXT + 1) % 256)).p
          Reg.ERR_SEQ_SEQ
      ((s.g Reg.ERR_SEQ_SEQ + 1) % 2 ^ 32)).inc (cntFld x0.reg x0.sev) with
      staySeq := (s.g Reg.ERR_SEQ_SEQ + 1) % 2 ^ 32 }, false)
    else postFault (s.g Reg.ERR_HEAD_NEXT) x0 { (((if s.g (Reg.ERR_REC_WORD (s.g Reg.ERR_HEAD_NEXT) 0) ≠ 0
      then s.p Reg.ERR_HEAD_WRAPPED 1 else s).p Reg.ERR_HEAD_NEXT ((s.g Reg.ERR_HEAD_NEXT + 1) % 256)).p
          Reg.ERR_SEQ_SEQ
      ((s.g Reg.ERR_SEQ_SEQ + 1) % 2 ^ 32)).inc (cntFld x0.reg x0.sev) with
      staySeq := (s.g Reg.ERR_SEQ_SEQ + 1) % 2 ^ 32 }).1 := by
    have h1 := kept_ite (c := s.g (Reg.ERR_REC_WORD (s.g Reg.ERR_HEAD_NEXT) 0) ≠ 0)
      (kept_State_p h_regs Reg.ERR_HEAD_WRAPPED 1 h) h
    have h3 := kept_staySeq h_staySeq ((s.g Reg.ERR_SEQ_SEQ + 1) % 2 ^ 32) (kept_State_inc h_regs (cntFld x0.reg
        x0.sev)
      (kept_State_p h_regs Reg.ERR_SEQ_SEQ ((s.g Reg.ERR_SEQ_SEQ + 1) % 2 ^ 32)
      (kept_State_p h_regs Reg.ERR_HEAD_NEXT ((s.g Reg.ERR_HEAD_NEXT + 1) % 256) h1)))
    split
    · exact h3
    · exact kept_postFault h_regs h_out h_host _ _ h3
  dsimp only
  revert h2
  generalize (if x0.quiet then _ else _ : State × Bool) = pr
  obtain ⟨s4, posted⟩ := pr
  intro h2
  refine kept_pendSet h_regs h_out h_err _ _ ?_
  refine kept_ite (kept_nvmRecord h_err h_nvm _ (kept_notifyAll h_out h_host h_net _ ?_)) ?_
  all_goals exact kept_err h_err _ (kept_putWords h_regs _ _ h2)

theorem kept_record (h_regs : ¬ K .regs) (h_out : ¬ K .out) (h_host : ¬ K .host) (h_err : ¬ K .err)
    (h_nvm : ¬ K .nvm) (h_staySeq : ¬ K .staySeq) (h_net : ¬ K .net) (x0 : ErrIn) (h : Kept K a s) :
    Kept K a (record x0 s) := by
  unfold record
  with_reducible repeat' first
    | (assumption) | (intro) | (apply kept_State_inc) | (apply kept_coalesce) | (apply kept_newRecord)
    | (apply kept_foldl) | (apply kept_foldl_snd) | (apply kept_foldl_fst) | (apply kept_ite) | (dsimp only)
    | (split)

theorem kept_modHt (h_mot : ¬ K .mot) (x0 : Nat) (x1 : Ht → Ht) (h : Kept K a s) :
    Kept K a (modHt x0 x1 s) := by
  unfold modHt
  with_reducible repeat' first
    | (assumption) | (intro) | (apply kept_foldl) | (apply kept_foldl_snd) | (apply kept_foldl_fst)
    | (apply kept_ite) | (dsimp only) | (split) | (refine kept_mk ?_ (r_mot := (absurd · h_mot)))

theorem kept_gateLow (h_out : ¬ K .out) (h_mot : ¬ K .mot) (x0 : Nat) (h : Kept K a s) :
    Kept K a (gateLow x0 s) := by
  unfold gateLow
  with_reducible repeat' first
    | (assumption) | (intro) | (apply kept_State_event) | (apply kept_modHt) | (apply kept_foldl)
    | (apply kept_foldl_snd) | (apply kept_foldl_fst) | (apply kept_ite) | (dsimp only) | (split)

theorem kept_gatesLow (h_out : ¬ K .out) (h_mot : ¬ K .mot)  (h : Kept K a s) :
    Kept K a (gatesLow s) := by
  unfold gatesLow
  with_reducible repeat' first
    | (assumption) | (intro) | (apply kept_overN) | (apply kept_gateLow) | (apply kept_foldl)
    | (apply kept_foldl_snd) | (apply kept_foldl_fst) | (apply kept_ite) | (dsimp only) | (split)

theorem kept_undoMove (h_regs : ¬ K .regs) (h_psq : ¬ K .psq) (h_ctx : ¬ K .ctx) (x0 : Nat) (h : Kept K a s) :
    Kept K a (undoMove x0 s) := by
  unfold undoMove
  with_reducible repeat' first
    | (assumption) | (intro) | (apply kept_State_p) | (apply kept_State_modCtx) | (apply kept_foldl)
    | (apply kept_foldl_snd) | (apply kept_foldl_fst) | (apply kept_ite) | (dsimp only) | (split)
    | (refine kept_mk ?_ (r_psq := (absurd · h_psq)) (r_ctx := (absurd · h_ctx)))

theorem kept_stopFeeding (h_regs : ¬ K .regs) (h_out : ¬ K .out) (h_psq : ¬ K .psq)  (h : Kept K a s) :
    Kept K a (stopFeeding s) := by
  unfold stopFeeding
  with_reducible repeat' first
    | (assumption) | (intro) | (apply kept_State_event) | (apply kept_State_pb) | (apply kept_foldl)
    | (apply kept_foldl_snd) | (apply kept_foldl_fst) | (apply kept_ite) | (dsimp only) | (split)
    | (refine kept_mk ?_ (r_psq := (absurd · h_psq)))

theorem kept_releaseArmed (h_regs : ¬ K .regs) (h_out : ¬ K .out) (h_psq : ¬ K .psq) (h_ctx : ¬ K .ctx) (x0 : Nat)
    (x1 : Nat) (h : Kept K a s) :
    Kept K a (releaseArmed x0 x1 s) := by
  unfold releaseArmed
  with_reducible repeat' first
    | (assumption) | (intro) | (apply kept_State_p) | (apply kept_State_modCtx) | (apply kept_psqSync)
    | (apply kept_foldl) | (apply kept_foldl_snd) | (apply kept_foldl_fst) | (apply kept_ite) | (dsimp only)
    | (split) | (refine kept_mk ?_ (r_psq := (absurd · h_psq)) (r_ctx := (absurd · h_ctx)))

theorem kept_clearWaiting (h_regs : ¬ K .regs) (h_out : ¬ K .out) (h_host : ¬ K .host) (h_psq : ¬ K .psq)
    (h_ctx : ¬ K .ctx) (h_codec : ¬ K .codec) (h_stn : ¬ K .stn) (x0 : Nat) (x1 : Nat) (h : Kept K a s) :
    Kept K a (clearWaiting x0 x1 s) := by
  unfold clearWaiting
  with_reducible repeat' first
    | (assumption) | (intro) | (apply kept_refuseCommit) | (apply kept_releaseArmed) | (apply kept_State_pb)
    | (apply kept_foldl) | (apply kept_foldl_snd) | (apply kept_foldl_fst) | (apply kept_ite) | (dsimp only)
    | (split)

theorem kept_vacate (h_regs : ¬ K .regs) (h_stn : ¬ K .stn) (x0 : Nat) (x1 : Nat) (h : Kept K a s) :
    Kept K a (vacate x0 x1 s) := by
  unfold vacate
  with_reducible repeat' first
    | (assumption) | (intro) | (apply kept_State_p) | (apply kept_State_pb) | (apply kept_State_modStn)
    | (apply kept_foldl) | (apply kept_foldl_snd) | (apply kept_foldl_fst) | (apply kept_ite) | (dsimp only)
    | (split)

theorem kept_fetchSync (h_regs : ¬ K .regs) (x0 : Nat) (h : Kept K a s) :
    Kept K a (fetchSync x0 s) := by
  unfold fetchSync
  with_reducible repeat' first
    | (assumption) | (intro) | (apply kept_State_pb) | (apply kept_foldl) | (apply kept_foldl_snd)
    | (apply kept_foldl_fst) | (apply kept_ite) | (dsimp only) | (split)

theorem kept_dropFetch (h_regs : ¬ K .regs) (h_stn : ¬ K .stn) (x0 : Nat) (x1 : Nat) (h : Kept K a s) :
    Kept K a (dropFetch x0 x1 s) := by
  unfold dropFetch
  with_reducible repeat' first
    | (assumption) | (intro) | (apply kept_fetchSync) | (apply kept_State_modStn) | (apply kept_foldl)
    | (apply kept_foldl_snd) | (apply kept_foldl_fst) | (apply kept_ite) | (dsimp only) | (split)

theorem kept_rawPacket (h_out : ¬ K .out) (h_stn : ¬ K .stn) (x0 : Nat) (x1 : Nat) (x2 : Nat) (x3 : Nat) (x4 : List
    Sys2Proof.Byte) (h : Kept K a s) :
    Kept K a (rawPacket x0 x1 x2 x3 x4 s) := by
  unfold rawPacket
  with_reducible repeat' first
    | (assumption) | (intro) | (apply kept_State_setStn) | (apply kept_State_emit) | (apply kept_foldl)
    | (apply kept_foldl_snd) | (apply kept_foldl_fst) | (apply kept_ite) | (dsimp only) | (split)

theorem kept_sendData (h_out : ¬ K .out) (h_stn : ¬ K .stn) (x0 : Nat) (x1 : List DataPkt) (h : Kept K a s) :
    Kept K a (sendData x0 x1 s) := by
  unfold sendData
  with_reducible repeat' first
    | (assumption) | (intro) | (apply kept_rawPacket) | (apply kept_foldl) | (apply kept_foldl_snd)
    | (apply kept_foldl_fst) | (apply kept_ite) | (dsimp only) | (split)

theorem kept_setSending (h_stn : ¬ K .stn) (x0 : Nat) (x1 : List DataPkt) (h : Kept K a s) :
    Kept K a (setSending x0 x1 s) := by
  unfold setSending
  with_reducible repeat' first
    | (assumption) | (intro) | (apply kept_State_modStn) | (apply kept_foldl) | (apply kept_foldl_snd)
    | (apply kept_foldl_fst) | (apply kept_ite) | (dsimp only) | (split)

theorem kept_sendVoid (h_out : ¬ K .out) (h_stn : ¬ K .stn) (x0 : Nat) (x1 : Nat) (h : Kept K a s) :
    Kept K a (sendVoid x0 x1 s) := by
  unfold sendVoid
  with_reducible repeat' first
    | (assumption) | (intro) | (apply kept_rawPacket) | (apply kept_foldl) | (apply kept_foldl_snd)
    | (apply kept_foldl_fst) | (apply kept_ite) | (dsimp only) | (split)

theorem kept_voidSweeps (h_free : ¬ K .free) (h_out : ¬ K .out) (h_stn : ¬ K .stn) (x0 : Nat) (h : Kept K a s) :
    Kept K a (voidSweeps x0 s) := by
  unfold voidSweeps
  with_reducible repeat' first
    | (assumption) | (intro) | (apply kept_State_fresh) | (apply kept_sendData) | (apply kept_setSending)
    | (apply kept_sendVoid) | (apply kept_foldl) | (apply kept_foldl_snd) | (apply kept_foldl_fst) | (apply kept_ite)
    | (dsimp only) | (split)

theorem kept_darkFor (h_free : ¬ K .free) (h_out : ¬ K .out) (h_stn : ¬ K .stn) (x0 : Nat) (x1 : Nat)
    (h : Kept K a s) :
    Kept K a (darkFor x0 x1 s) := by
  unfold darkFor
  with_reducible repeat' first
    | (assumption) | (intro) | (apply kept_State_modStn) | (apply kept_voidSweeps) | (apply kept_foldl)
    | (apply kept_foldl_snd) | (apply kept_foldl_fst) | (apply kept_ite) | (dsimp only) | (split)

theorem kept_jam (h_regs : ¬ K .regs) (h_free : ¬ K .free) (h_out : ¬ K .out) (h_psq : ¬ K .psq) (h_ctx : ¬ K .ctx)
    (h_stn : ¬ K .stn) (x0 : Nat) (x1 : Nat) (h : Kept K a s) :
    Kept K a (jam x0 x1 s) := by
  unfold jam
  with_reducible repeat' first
    | (assumption) | (intro) | (apply kept_State_p) | (apply kept_State_modCtx) | (apply kept_overN)
    | (apply kept_vacate) | (apply kept_dropFetch) | (apply kept_darkFor) | (apply kept_foldl)
    | (apply kept_foldl_snd) | (apply kept_foldl_fst) | (apply kept_ite) | (dsimp only) | (split)
    | (refine kept_mk ?_ (r_psq := (absurd · h_psq)) (r_ctx := (absurd · h_ctx)) (r_stn := (absurd · h_stn)))

theorem kept_endBoundary (h_regs : ¬ K .regs) (h_psq : ¬ K .psq)  (h : Kept K a s) :
    Kept K a (endBoundary s) := by
  unfold endBoundary
  with_reducible repeat' first
    | (assumption) | (intro) | (apply kept_State_pb) | (apply kept_foldl) | (apply kept_foldl_snd)
    | (apply kept_foldl_fst) | (apply kept_ite) | (dsimp only) | (split)
    | (refine kept_mk ?_ (r_psq := (absurd · h_psq)))

theorem kept_modHv (h_mot : ¬ K .mot) (x0 : Nat) (x1 : Hv → Hv) (h : Kept K a s) :
    Kept K a (modHv x0 x1 s) := by
  unfold modHv
  with_reducible repeat' first
    | (assumption) | (intro) | (apply kept_foldl) | (apply kept_foldl_snd) | (apply kept_foldl_fst)
    | (apply kept_ite) | (dsimp only) | (split) | (refine kept_mk ?_ (r_mot := (absurd · h_mot)))

theorem kept_hvConfirmStart (h_regs : ¬ K .regs) (h_mot : ¬ K .mot) (x0 : Nat) (h : Kept K a s) :
    Kept K a (hvConfirmStart x0 s) := by
  unfold hvConfirmStart
  with_reducible repeat' first
    | (assumption) | (intro) | (apply kept_modHv) | (apply kept_State_pb) | (apply kept_foldl)
    | (apply kept_foldl_snd) | (apply kept_foldl_fst) | (apply kept_ite) | (dsimp only) | (split)

theorem kept_hvGoto (h_regs : ¬ K .regs) (h_mot : ¬ K .mot) (x0 : Nat) (x1 : Nat) (h : Kept K a s) :
    Kept K a (hvGoto x0 x1 s) := by
  unfold hvGoto
  with_reducible repeat' first
    | (assumption) | (intro) | (apply kept_State_p) | (apply kept_modHv) | (apply kept_State_pb)
    | (apply kept_hvConfirmStart) | (apply kept_foldl) | (apply kept_foldl_snd) | (apply kept_foldl_fst)
    | (apply kept_ite) | (dsimp only) | (split)

theorem kept_hvOff (h_regs : ¬ K .regs) (h_mot : ¬ K .mot) (x0 : Nat) (h : Kept K a s) :
    Kept K a (hvOff x0 s) := by
  unfold hvOff
  with_reducible repeat' first
    | (assumption) | (intro) | (apply kept_State_pb) | (apply kept_hvGoto) | (apply kept_foldl)
    | (apply kept_foldl_snd) | (apply kept_foldl_fst) | (apply kept_ite) | (dsimp only) | (split)

theorem kept_hvAllOff (h_regs : ¬ K .regs) (h_mot : ¬ K .mot)  (h : Kept K a s) :
    Kept K a (hvAllOff s) := by
  unfold hvAllOff
  with_reducible repeat' first
    | (assumption) | (intro) | (apply kept_overN) | (apply kept_hvOff) | (apply kept_foldl) | (apply kept_foldl_snd)
    | (apply kept_foldl_fst) | (apply kept_ite) | (dsimp only) | (split)

theorem kept_axEstop (h_regs : ¬ K .regs) (h_mot : ¬ K .mot) (x0 : Nat) (h : Kept K a s) :
    Kept K a (axEstop x0 s) := by
  unfold axEstop
  with_reducible repeat' first
    | (assumption) | (intro) | (apply kept_modAx) | (apply kept_State_p) | (apply kept_foldl)
    | (apply kept_foldl_snd) | (apply kept_foldl_fst) | (apply kept_ite) | (dsimp only) | (split)

theorem kept_axStopAll (h_regs : ¬ K .regs) (h_out : ¬ K .out) (h_mot : ¬ K .mot) (x0 : Bool) (h : Kept K a s) :
    Kept K a (axStopAll x0 s) := by
  unfold axStopAll
  with_reducible repeat' first
    | (assumption) | (intro) | (apply kept_overN) | (apply kept_axReplay) | (apply kept_axEstop)
    | (apply kept_axUnwind) | (apply kept_agReplay) | (apply kept_agEstop) | (apply kept_agUnwind)
    | (apply kept_foldl) | (apply kept_foldl_snd) | (apply kept_foldl_fst) | (apply kept_ite) | (dsimp only)
    | (split)

theorem kept_modMc (h_mot : ¬ K .mot) (x0 : Nat) (x1 : Mc → Mc) (h : Kept K a s) :
    Kept K a (modMc x0 x1 s) := by
  unfold modMc
  with_reducible repeat' first
    | (assumption) | (intro) | (apply kept_foldl) | (apply kept_foldl_snd) | (apply kept_foldl_fst)
    | (apply kept_ite) | (dsimp only) | (split) | (refine kept_mk ?_ (r_mot := (absurd · h_mot)))

theorem kept_stopFetch (h_regs : ¬ K .regs) (h_stn : ¬ K .stn) (x0 : Nat) (x1 : Nat) (h : Kept K a s) :
    Kept K a (stopFetch x0 x1 s) := by
  unfold stopFetch
  with_reducible repeat' first
    | (assumption) | (intro) | (apply kept_fetchSync) | (apply kept_State_modStn) | (apply kept_foldl)
    | (apply kept_foldl_snd) | (apply kept_foldl_fst) | (apply kept_ite) | (dsimp only) | (split)

theorem kept_spoil (h_regs : ¬ K .regs) (h_free : ¬ K .free) (h_out : ¬ K .out) (h_psq : ¬ K .psq) (h_ctx : ¬ K .ctx)
    (h_stn : ¬ K .stn) (x0 : Nat) (x1 : Nat) (h : Kept K a s) :
    Kept K a (spoil x0 x1 s) := by
  unfold spoil
  with_reducible repeat' first
    | (assumption) | (intro) | (apply kept_State_p) | (apply kept_State_modCtx) | (apply kept_psqSync)
    | (apply kept_State_event) | (apply kept_overN) | (apply kept_darkFor) | (apply kept_stopFetch)
    | (apply kept_foldl) | (apply kept_foldl_snd) | (apply kept_foldl_fst) | (apply kept_ite) | (dsimp only)
    | (split)
    | (refine kept_mk ?_ (r_psq := (absurd · h_psq)) (r_ctx := (absurd · h_ctx)) (r_stn := (absurd · h_stn)))

theorem kept_spoilAt (h_regs : ¬ K .regs) (h_free : ¬ K .free) (h_out : ¬ K .out) (h_psq : ¬ K .psq)
    (h_ctx : ¬ K .ctx) (h_stn : ¬ K .stn) (x0 : Nat) (x1 : Nat) (h : Kept K a s) :
    Kept K a (spoilAt x0 x1 s) := by
  unfold spoilAt
  with_reducible repeat' first
    | (assumption) | (intro) | (apply kept_spoil) | (apply kept_foldl) | (apply kept_foldl_snd)
    | (apply kept_foldl_fst) | (apply kept_ite) | (dsimp only) | (split)

theorem kept_loseLock (h_regs : ¬ K .regs) (h_free : ¬ K .free) (h_out : ¬ K .out) (h_psq : ¬ K .psq)
    (h_ctx : ¬ K .ctx) (h_stn : ¬ K .stn) (h_mot : ¬ K .mot) (x0 : Nat) (h : Kept K a s) :
    Kept K a (loseLock x0 s) := by
  unfold loseLock
  with_reducible repeat' first
    | (assumption) | (intro) | (apply kept_modMc) | (apply kept_spoilAt) | (apply kept_State_event)
    | (apply kept_State_pb) | (apply kept_foldl) | (apply kept_foldl_snd) | (apply kept_foldl_fst) | (apply kept_ite)
    | (dsimp only) | (split)

theorem kept_mcOff (h_regs : ¬ K .regs) (h_free : ¬ K .free) (h_out : ¬ K .out) (h_psq : ¬ K .psq) (h_ctx : ¬ K .ctx)
    (h_stn : ¬ K .stn) (h_mot : ¬ K .mot) (x0 : Nat) (h : Kept K a s) :
    Kept K a (mcOff x0 s) := by
  unfold mcOff
  with_reducible repeat' first
    | (assumption) | (intro) | (apply kept_modMc) | (apply kept_loseLock) | (apply kept_State_pb)
    | (apply kept_State_p) | (apply kept_foldl) | (apply kept_foldl_snd) | (apply kept_foldl_fst) | (apply kept_ite)
    | (dsimp only) | (split)

theorem kept_mcStop (h_regs : ¬ K .regs) (h_free : ¬ K .free) (h_out : ¬ K .out) (h_psq : ¬ K .psq)
    (h_ctx : ¬ K .ctx) (h_stn : ¬ K .stn) (h_mot : ¬ K .mot) (x0 : Nat) (h : Kept K a s) :
    Kept K a (mcStop x0 s) := by
  unfold mcStop
  with_reducible repeat' first
    | (assumption) | (intro) | (apply kept_modMc) | (apply kept_loseLock) | (apply kept_State_p) | (apply kept_mcOff)
    | (apply kept_foldl) | (apply kept_foldl_snd) | (apply kept_foldl_fst) | (apply kept_ite) | (dsimp only)
    | (split)

theorem kept_mcStopAll (h_regs : ¬ K .regs) (h_free : ¬ K .free) (h_out : ¬ K .out) (h_psq : ¬ K .psq)
    (h_ctx : ¬ K .ctx) (h_stn : ¬ K .stn) (h_mot : ¬ K .mot)  (h : Kept K a s) :
    Kept K a (mcStopAll s) := by
  unfold mcStopAll
  with_reducible repeat' first
    | (assumption) | (intro) | (apply kept_overN) | (apply kept_State_pb) | (apply kept_mcStop) | (apply kept_foldl)
    | (apply kept_foldl_snd) | (apply kept_foldl_fst) | (apply kept_ite) | (dsimp only) | (split)

theorem kept_stopMachinery (h_regs : ¬ K .regs) (h_free : ¬ K .free) (h_out : ¬ K .out) (h_psq : ¬ K .psq)
    (h_ctx : ¬ K .ctx) (h_stn : ¬ K .stn) (h_mot : ¬ K .mot)  (h : Kept K a s) :
    Kept K a (stopMachinery s) := by
  unfold stopMachinery
  with_reducible repeat' first
    | (assumption) | (intro) | (apply kept_hvAllOff) | (apply kept_axStopAll) | (apply kept_mcStopAll)
    | (apply kept_foldl) | (apply kept_foldl_snd) | (apply kept_foldl_fst) | (apply kept_ite) | (dsimp only)
    | (split)

theorem kept_forceOutputs (h_regs : ¬ K .regs) (h_out : ¬ K .out) (h_stn : ¬ K .stn) (h_mot : ¬ K .mot)
    (h : Kept K a s) :
    Kept K a (forceOutputs s) := by
  unfold forceOutputs
  with_reducible repeat' first
    | (assumption) | (intro) | (apply kept_State_pb) | (apply kept_overN) | (apply kept_hvConfirmStart)
    | (apply kept_gateLow) | (apply kept_sendDark) | (apply kept_foldl) | (apply kept_foldl_snd)
    | (apply kept_foldl_fst) | (apply kept_ite) | (dsimp only) | (split)

theorem kept_hardStop (h_regs : ¬ K .regs) (h_free : ¬ K .free) (h_out : ¬ K .out) (h_host : ¬ K .host)
    (h_psq : ¬ K .psq) (h_ctx : ¬ K .ctx) (h_codec : ¬ K .codec) (h_stn : ¬ K .stn) (h_mot : ¬ K .mot) (x0 : Nat)
    (h : Kept K a s) :
    Kept K a (hardStop x0 s) := by
  unfold hardStop
  with_reducible repeat' first
    | (assumption) | (intro) | (apply kept_undoMove) | (apply kept_stopFeeding) | (apply kept_clearWaiting)
    | (apply kept_psqSync) | (apply kept_jam) | (apply kept_State_setEngine) | (apply kept_endBoundary)
    | (apply kept_stopMachinery) | (apply kept_forceOutputs) | (apply kept_State_pb) | (apply kept_foldl)
    | (apply kept_foldl_snd) | (apply kept_foldl_fst) | (apply kept_ite) | (dsimp only) | (split)
    | (refine kept_mk ?_ (r_host := (absurd · h_host)) (r_psq := (absurd · h_psq)) (r_ctx := (absurd · h_ctx))
        (r_codec := (absurd · h_codec)) (r_stn := (absurd · h_stn)) (r_mot := (absurd · h_mot)))

theorem kept_fatalChip (h_regs : ¬ K .regs) (h_free : ¬ K .free) (h_out : ¬ K .out) (h_host : ¬ K .host)
    (h_psq : ¬ K .psq) (h_ctx : ¬ K .ctx) (h_codec : ¬ K .codec) (h_stn : ¬ K .stn) (h_mot : ¬ K .mot)
    (h : Kept K a s) :
    Kept K a (fatalChip s) := by
  unfold fatalChip
  with_reducible repeat' first
    | (assumption) | (intro) | (apply kept_gatesLow) | (apply kept_hardStop) | (apply kept_stopMachinery)
    | (apply kept_forceOutputs) | (apply kept_State_setEngine) | (apply kept_foldl) | (apply kept_foldl_snd)
    | (apply kept_foldl_fst) | (apply kept_ite) | (dsimp only) | (split)
    | (refine kept_mk ?_ (r_host := (absurd · h_host)) (r_psq := (absurd · h_psq)) (r_ctx := (absurd · h_ctx))
        (r_codec := (absurd · h_codec)) (r_stn := (absurd · h_stn)) (r_mot := (absurd · h_mot)))

theorem kept_startDrain (h_regs : ¬ K .regs) (h_out : ¬ K .out) (h_host : ¬ K .host) (h_psq : ¬ K .psq)
    (h_ctx : ¬ K .ctx) (h_codec : ¬ K .codec) (h_stn : ¬ K .stn) (x0 : Nat) (h : Kept K a s) :
    Kept K a (startDrain x0 s) := by
  unfold startDrain
  with_reducible repeat' first
    | (assumption) | (intro) | (apply kept_State_setEngine) | (apply kept_clearWaiting) | (apply kept_stopFeeding)
    | (apply kept_foldl) | (apply kept_foldl_snd) | (apply kept_foldl_fst) | (apply kept_ite) | (dsimp only)
    | (split)

theorem kept_wearSave (h_stn : ¬ K .stn) (x0 : Nat) (h : Kept K a s) :
    Kept K a (wearSave x0 s) := by
  unfold wearSave
  with_reducible repeat' first
    | (assumption) | (intro) | (apply kept_State_modStn) | (apply kept_foldl) | (apply kept_foldl_snd)
    | (apply kept_foldl_fst) | (apply kept_ite) | (dsimp only) | (split)

theorem kept_htFurl (h_regs : ¬ K .regs) (h_out : ¬ K .out) (h_mot : ¬ K .mot)  (h : Kept K a s) :
    Kept K a (htFurl s) := by
  unfold htFurl
  with_reducible repeat' first
    | (assumption) | (intro) | (apply kept_overN) | (apply kept_gateLow) | (apply kept_State_pb) | (apply kept_foldl)
    | (apply kept_foldl_snd) | (apply kept_foldl_fst) | (apply kept_ite) | (dsimp only) | (split)

theorem kept_furlMachinery (h_regs : ¬ K .regs) (h_free : ¬ K .free) (h_out : ¬ K .out) (h_psq : ¬ K .psq)
    (h_ctx : ¬ K .ctx) (h_stn : ¬ K .stn) (h_mot : ¬ K .mot)  (h : Kept K a s) :
    Kept K a (furlMachinery s) := by
  unfold furlMachinery
  with_reducible repeat' first
    | (assumption) | (intro) | (apply kept_htFurl) | (apply kept_hvAllOff) | (apply kept_axStopAll)
    | (apply kept_mcStopAll) | (apply kept_foldl) | (apply kept_foldl_snd) | (apply kept_foldl_fst)
    | (apply kept_ite) | (dsimp only) | (split)

theorem kept_furl (h_regs : ¬ K .regs) (h_free : ¬ K .free) (h_out : ¬ K .out) (h_psq : ¬ K .psq) (h_ctx : ¬ K .ctx)
    (h_stn : ¬ K .stn) (h_mot : ¬ K .mot)  (h : Kept K a s) :
    Kept K a (furl s) := by
  unfold furl
  with_reducible repeat' first
    | (assumption) | (intro) | (apply kept_overN) | (apply kept_wearSave) | (apply kept_sendDark)
    | (apply kept_stopFeeding) | (apply kept_endBoundary) | (apply kept_furlMachinery) | (apply kept_State_setEngine)
    | (apply kept_State_p) | (apply kept_polySync) | (apply kept_State_pb) | (apply kept_foldl)
    | (apply kept_foldl_snd) | (apply kept_foldl_fst) | (apply kept_ite) | (dsimp only) | (split)
    | (refine kept_mk ?_ (r_psq := (absurd · h_psq)) (r_ctx := (absurd · h_ctx)) (r_stn := (absurd · h_stn)) (r_mot
        := (absurd · h_mot)))

theorem kept_fatalHost (h_regs : ¬ K .regs) (h_free : ¬ K .free) (h_out : ¬ K .out) (h_host : ¬ K .host)
    (h_psq : ¬ K .psq) (h_ctx : ¬ K .ctx) (h_codec : ¬ K .codec) (h_stn : ¬ K .stn) (h_mot : ¬ K .mot)
    (h : Kept K a s) :
    Kept K a (fatalHost s) := by
  unfold fatalHost
  with_reducible repeat' first
    | (assumption) | (intro) | (apply kept_startDrain) | (apply kept_clearWaiting) | (apply kept_furl)
    | (apply kept_State_setEngine) | (apply kept_foldl) | (apply kept_foldl_snd) | (apply kept_foldl_fst)
    | (apply kept_ite) | (dsimp only) | (split)
    | (refine kept_mk ?_ (r_host := (absurd · h_host)) (r_psq := (absurd · h_psq)) (r_ctx := (absurd · h_ctx))
        (r_codec := (absurd · h_codec)) (r_stn := (absurd · h_stn)) (r_mot := (absurd · h_mot)))

theorem kept_fatalStop (h_regs : ¬ K .regs) (h_free : ¬ K .free) (h_out : ¬ K .out) (h_host : ¬ K .host)
    (h_psq : ¬ K .psq) (h_ctx : ¬ K .ctx) (h_codec : ¬ K .codec) (h_stn : ¬ K .stn) (h_mot : ¬ K .mot)
    (h : Kept K a s) :
    Kept K a (fatalStop s) := by
  unfold fatalStop
  with_reducible repeat' first
    | (assumption) | (intro) | (apply kept_State_setEngine) | (apply kept_hardStop) | (apply kept_hvAllOff)
    | (apply kept_forceOutputs) | (apply kept_foldl) | (apply kept_foldl_snd) | (apply kept_foldl_fst)
    | (apply kept_ite) | (dsimp only) | (split)

theorem kept_fatalEffect (h_regs : ¬ K .regs) (h_free : ¬ K .free) (h_out : ¬ K .out) (h_host : ¬ K .host)
    (h_err : ¬ K .err) (h_psq : ¬ K .psq) (h_ctx : ¬ K .ctx) (h_codec : ¬ K .codec) (h_stn : ¬ K .stn)
    (h_mot : ¬ K .mot) (h_vis : ¬ K .vis) (x0 : Nat) (x1 : Nat) (h : Kept K a s) :
    Kept K a (fatalEffect x0 x1 s) := by
  unfold fatalEffect
  with_reducible repeat' first
    | (assumption) | (intro) | (apply kept_fatalChip) | (apply kept_State_setReg) | (apply kept_fatalHost)
    | (apply kept_fatalStop) | (apply kept_foldl) | (apply kept_foldl_snd) | (apply kept_foldl_fst)
    | (apply kept_ite) | (dsimp only) | (split)
    | (refine kept_mk ?_ (r_host := (absurd · h_host)) (r_err := (absurd · h_err)) (r_psq := (absurd · h_psq)) (r_ctx
        := (absurd · h_ctx)) (r_codec := (absurd · h_codec)) (r_stn := (absurd · h_stn)) (r_mot := (absurd · h_mot))
        (r_vis := (absurd · h_vis)))

theorem kept_raise (h_regs : ¬ K .regs) (h_free : ¬ K .free) (h_out : ¬ K .out) (h_host : ¬ K .host)
    (h_err : ¬ K .err) (h_psq : ¬ K .psq) (h_ctx : ¬ K .ctx) (h_codec : ¬ K .codec) (h_stn : ¬ K .stn)
    (h_nvm : ¬ K .nvm) (h_staySeq : ¬ K .staySeq) (h_mot : ¬ K .mot) (h_vis : ¬ K .vis) (h_net : ¬ K .net) (x0 :
    ErrIn) (h : Kept K a s) :
    Kept K a (raise x0 s) := by
  unfold raise
  with_reducible repeat' first
    | (assumption) | (intro) | (apply kept_record) | (apply kept_fatalEffect) | (apply kept_foldl)
    | (apply kept_foldl_snd) | (apply kept_foldl_fst) | (apply kept_ite) | (dsimp only) | (split)

theorem kept_endDown (h_regs : ¬ K .regs) (h_free : ¬ K .free) (h_out : ¬ K .out) (h_host : ¬ K .host)
    (h_err : ¬ K .err) (h_psq : ¬ K .psq) (h_ctx : ¬ K .ctx) (h_codec : ¬ K .codec) (h_stn : ¬ K .stn)
    (h_nvm : ¬ K .nvm) (h_staySeq : ¬ K .staySeq) (h_mot : ¬ K .mot) (h_pwr : ¬ K .pwr) (h_vis : ¬ K .vis)
    (h_net : ¬ K .net)  (h : Kept K a s) :
    Kept K a (endDown s) := by
  unfold endDown
  with_reducible repeat' first
    | (assumption) | (intro) | (apply kept_setPwr) | (apply kept_railNvm) | (apply kept_State_pb)
    | (apply kept_State_p) | (apply kept_State_fresh) | (apply kept_raise) | (apply kept_reachOff)
    | (apply kept_foldl) | (apply kept_foldl_snd) | (apply kept_foldl_fst) | (apply kept_ite) | (dsimp only)
    | (split)

theorem kept_downEnds (h_regs : ¬ K .regs) (h_free : ¬ K .free) (h_out : ¬ K .out) (h_host : ¬ K .host)
    (h_err : ¬ K .err) (h_psq : ¬ K .psq) (h_ctx : ¬ K .ctx) (h_codec : ¬ K .codec) (h_stn : ¬ K .stn)
    (h_nvm : ¬ K .nvm) (h_staySeq : ¬ K .staySeq) (h_mot : ¬ K .mot) (h_pwr : ¬ K .pwr) (h_vis : ¬ K .vis)
    (h_net : ¬ K .net)  (h : Kept K a s) :
    Kept K a (downEnds s) := by
  unfold downEnds
  with_reducible repeat' first
    | (assumption) | (intro) | (apply kept_setPwr) | (apply kept_endDown) | (apply kept_foldl)
    | (apply kept_foldl_snd) | (apply kept_foldl_fst) | (apply kept_ite) | (dsimp only) | (split)

theorem kept_ledgerSync (h_regs : ¬ K .regs)  (h : Kept K a s) :
    Kept K a (ledgerSync s) := by
  unfold ledgerSync
  with_reducible repeat' first
    | (assumption) | (intro) | (apply kept_overN) | (apply kept_State_setReg) | (apply kept_State_pb)
    | (apply kept_foldl) | (apply kept_foldl_snd) | (apply kept_foldl_fst) | (apply kept_ite) | (dsimp only)
    | (split)

theorem kept_setLedger (h_regs : ¬ K .regs) (h_pwr : ¬ K .pwr) (x0 : List Nat) (h : Kept K a s) :
    Kept K a (setLedger x0 s) := by
  unfold setLedger
  with_reducible repeat' first
    | (assumption) | (intro) | (apply kept_ledgerSync) | (apply kept_setPwr) | (apply kept_foldl)
    | (apply kept_foldl_snd) | (apply kept_foldl_fst) | (apply kept_ite) | (dsimp only) | (split)

theorem kept_shutStep (h_regs : ¬ K .regs) (h_free : ¬ K .free) (h_out : ¬ K .out) (h_host : ¬ K .host)
    (h_err : ¬ K .err) (h_psq : ¬ K .psq) (h_ctx : ¬ K .ctx) (h_codec : ¬ K .codec) (h_stn : ¬ K .stn)
    (h_nvm : ¬ K .nvm) (h_staySeq : ¬ K .staySeq) (h_mot : ¬ K .mot) (h_pwr : ¬ K .pwr) (h_vis : ¬ K .vis)
    (h_net : ¬ K .net) (x0 : Nat) (h : Kept K a s) :
    Kept K a (shutStep x0 s) := by
  induction x0 generalizing s  with
  | zero => 
    unfold shutStep
    with_reducible repeat' first
      | (assumption) | (intro) | (apply kept_setPwr) | (apply kept_setEnable) | (apply kept_downEnds)
      | (apply kept_setLedger) | (apply kept_foldl) | (apply kept_foldl_snd) | (apply kept_foldl_fst)
      | (apply kept_ite) | (dsimp only) | (split)
  | succ k ih =>
    unfold shutStep
    with_reducible repeat' first
      | (assumption) | (intro) | (apply ih) | (apply kept_setPwr) | (apply kept_setEnable) | (apply kept_downEnds)
      | (apply kept_setLedger) | (apply kept_foldl) | (apply kept_foldl_snd) | (apply kept_foldl_fst)
      | (apply kept_ite) | (dsimp only) | (split)

theorem kept_beginDown (h_regs : ¬ K .regs) (h_free : ¬ K .free) (h_out : ¬ K .out) (h_host : ¬ K .host)
    (h_err : ¬ K .err) (h_psq : ¬ K .psq) (h_ctx : ¬ K .ctx) (h_codec : ¬ K .codec) (h_stn : ¬ K .stn)
    (h_nvm : ¬ K .nvm) (h_staySeq : ¬ K .staySeq) (h_mot : ¬ K .mot) (h_pwr : ¬ K .pwr) (h_vis : ¬ K .vis)
    (h_net : ¬ K .net) (x0 : Down) (h : Kept K a s) :
    Kept K a (beginDown x0 s) := by
  unfold beginDown
  with_reducible repeat' first
    | (assumption) | (intro) | (apply kept_railNvm) | (apply kept_shutStep) | (apply kept_setPwr)
    | (apply kept_State_pb) | (apply kept_State_p) | (apply kept_foldl) | (apply kept_foldl_snd)
    | (apply kept_foldl_fst) | (apply kept_ite) | (dsimp only) | (split)

theorem kept_offRequest (h_regs : ¬ K .regs) (h_free : ¬ K .free) (h_out : ¬ K .out) (h_host : ¬ K .host)
    (h_err : ¬ K .err) (h_psq : ¬ K .psq) (h_ctx : ¬ K .ctx) (h_codec : ¬ K .codec) (h_stn : ¬ K .stn)
    (h_nvm : ¬ K .nvm) (h_staySeq : ¬ K .staySeq) (h_mot : ¬ K .mot) (h_pwr : ¬ K .pwr) (h_vis : ¬ K .vis)
    (h_net : ¬ K .net)  (h : Kept K a s) :
    Kept K a (offRequest s) := by
  unfold offRequest
  with_reducible repeat' first
    | (assumption) | (intro) | (apply kept_State_pb) | (apply kept_railNvm) | (apply kept_reachOff)
    | (apply kept_setPwr) | (apply kept_beginDown) | (apply kept_foldl) | (apply kept_foldl_snd)
    | (apply kept_foldl_fst) | (apply kept_ite) | (dsimp only) | (split)

theorem kept_furlWarmup (h_regs : ¬ K .regs) (h_free : ¬ K .free) (h_out : ¬ K .out) (h_host : ¬ K .host)
    (h_psq : ¬ K .psq) (h_ctx : ¬ K .ctx) (h_codec : ¬ K .codec) (h_stn : ¬ K .stn) (h_mot : ¬ K .mot) (x0 : Nat)
    (h : Kept K a s) :
    Kept K a (furlWarmup x0 s) := by
  unfold furlWarmup
  with_reducible repeat' first
    | (assumption) | (intro) | (apply kept_furl) | (apply kept_clearWaiting) | (apply kept_foldl)
    | (apply kept_foldl_snd) | (apply kept_foldl_fst) | (apply kept_ite) | (dsimp only) | (split)

theorem kept_pwrOff (h_regs : ¬ K .regs) (h_free : ¬ K .free) (h_out : ¬ K .out) (h_host : ¬ K .host)
    (h_err : ¬ K .err) (h_psq : ¬ K .psq) (h_ctx : ¬ K .ctx) (h_codec : ¬ K .codec) (h_stn : ¬ K .stn)
    (h_nvm : ¬ K .nvm) (h_staySeq : ¬ K .staySeq) (h_mot : ¬ K .mot) (h_pwr : ¬ K .pwr) (h_vis : ¬ K .vis)
    (h_net : ¬ K .net)  (h : Kept K a s) :
    Kept K a (pwrOff s) := by
  unfold pwrOff
  with_reducible repeat' first
    | (assumption) | (intro) | (apply kept_offRequest) | (apply kept_furlWarmup) | (apply kept_pwrRefuse)
    | (apply kept_foldl) | (apply kept_foldl_snd) | (apply kept_foldl_fst) | (apply kept_ite) | (dsimp only)
    | (split)

theorem kept_pwrCtrlWrite (h_regs : ¬ K .regs) (h_free : ¬ K .free) (h_out : ¬ K .out) (h_host : ¬ K .host)
    (h_err : ¬ K .err) (h_psq : ¬ K .psq) (h_ctx : ¬ K .ctx) (h_codec : ¬ K .codec) (h_stn : ¬ K .stn)
    (h_nvm : ¬ K .nvm) (h_staySeq : ¬ K .staySeq) (h_mot : ¬ K .mot) (h_pwr : ¬ K .pwr) (h_vis : ¬ K .vis)
    (h_net : ¬ K .net) (x0 : Sys2Proof.Word) (h : Kept K a s) :
    Kept K a (pwrCtrlWrite x0 s) := by
  unfold pwrCtrlWrite
  with_reducible repeat' first
    | (assumption) | (intro) | (apply kept_pwrCntClr) | (apply kept_pwrSave) | (apply kept_pwrUncleat)
    | (apply kept_pwrOff) | (apply kept_foldl) | (apply kept_foldl_snd) | (apply kept_foldl_fst) | (apply kept_ite)
    | (dsimp only) | (split)

theorem kept_thrWrite (h_regs : ¬ K .regs) (x0 : Sys2Proof.Word) (h : Kept K a s) :
    Kept K a (thrWrite x0 s) := by
  unfold thrWrite
  with_reducible repeat' first
    | (assumption) | (intro) | (apply kept_State_plainWrite) | (apply kept_State_pb) | (apply kept_foldl)
    | (apply kept_foldl_snd) | (apply kept_foldl_fst) | (apply kept_ite) | (dsimp only) | (split)

theorem kept_holdSync (h_regs : ¬ K .regs)  (h : Kept K a s) :
    Kept K a (holdSync s) := by
  unfold holdSync
  with_reducible repeat' first
    | (assumption) | (intro) | (apply kept_State_pb) | (apply kept_foldl) | (apply kept_foldl_snd)
    | (apply kept_foldl_fst) | (apply kept_ite) | (dsimp only) | (split)

theorem kept_feedSync (h_regs : ¬ K .regs) (h_out : ¬ K .out) (h_psq : ¬ K .psq)  (h : Kept K a s) :
    Kept K a (feedSync s) := by
  unfold feedSync
  with_reducible repeat' first
    | (assumption) | (intro) | (apply kept_holdSync) | (apply kept_State_event) | (apply kept_State_pb)
    | (apply kept_foldl) | (apply kept_foldl_snd) | (apply kept_foldl_fst) | (apply kept_ite) | (dsimp only)
    | (split) | (refine kept_mk ?_ (r_psq := (absurd · h_psq)))

theorem kept_ceilWrite (h_regs : ¬ K .regs) (h_out : ¬ K .out) (h_psq : ¬ K .psq) (x0 : Sys2Proof.Word)
    (h : Kept K a s) :
    Kept K a (ceilWrite x0 s) := by
  unfold ceilWrite
  with_reducible repeat' first
    | (assumption) | (intro) | (apply kept_feedSync) | (apply kept_State_plainWrite) | (apply kept_noteChange)
    | (apply kept_State_pb) | (apply kept_foldl) | (apply kept_foldl_snd) | (apply kept_foldl_fst) | (apply kept_ite)
    | (dsimp only) | (split)

theorem kept_lockaWrite (h_regs : ¬ K .regs) (x0 : Sys2Proof.Word) (h : Kept K a s) :
    Kept K a (lockaWrite x0 s) := by
  unfold lockaWrite
  with_reducible repeat' first
    | (assumption) | (intro) | (apply kept_State_plainWrite) | (apply kept_State_p) | (apply kept_foldl)
    | (apply kept_foldl_snd) | (apply kept_foldl_fst) | (apply kept_ite) | (dsimp only) | (split)

theorem kept_bandMeasWrite (h_regs : ¬ K .regs) (h_clk : ¬ K .clk) (x0 : Sys2Proof.Word) (h : Kept K a s) :
    Kept K a (bandMeasWrite x0 s) := by
  unfold bandMeasWrite
  with_reducible repeat' first
    | (assumption) | (intro) | (apply kept_State_plainWrite) | (apply kept_State_pb) | (apply kept_foldl)
    | (apply kept_foldl_snd) | (apply kept_foldl_fst) | (apply kept_ite) | (dsimp only) | (split)
    | (refine kept_mk ?_ (r_clk := (absurd · h_clk)))

theorem kept_ckoSync (h_regs : ¬ K .regs) (x0 : Nat) (h : Kept K a s) :
    Kept K a (ckoSync x0 s) := by
  unfold ckoSync
  with_reducible repeat' first
    | (assumption) | (intro) | (apply kept_State_pb) | (apply kept_foldl) | (apply kept_foldl_snd)
    | (apply kept_foldl_fst) | (apply kept_ite) | (dsimp only) | (split)

theorem kept_ckoWrite (h_regs : ¬ K .regs) (x0 : Nat) (x1 : Sys2Proof.Word) (h : Kept K a s) :
    Kept K a (ckoWrite x0 x1 s) := by
  unfold ckoWrite
  with_reducible repeat' first
    | (assumption) | (intro) | (apply kept_ckoSync) | (apply kept_State_plainWrite) | (apply kept_foldl)
    | (apply kept_foldl_snd) | (apply kept_foldl_fst) | (apply kept_ite) | (dsimp only) | (split)

end Sys2Proof.Machine
end

