-- ==== Sys2Proof/Laws/KeptOps2.lean ====
section
/-!
SUPPORT. What the operations of the machine leave unchanged, part 2 of 4: one lemma per operation, in the order in which they
use each other. An operation that may write the parts h_x names keeps every other part (Laws/Kept.lean).
-/

set_option linter.all false
set_option Elab.async false

namespace Sys2Proof.Machine

open Reg

variable {K : Piece → Prop} {a s : State}

theorem kept_timeRearm (h_regs : ¬ K .regs)  (h : Kept K a s) :
    Kept K a (timeRearm s) := by
  unfold timeRearm
  with_reducible repeat' first
    | (assumption) | (intro) | (apply kept_State_p) | (apply kept_State_pb) | (apply kept_foldl)
    | (apply kept_foldl_snd) | (apply kept_foldl_fst) | (apply kept_ite) | (dsimp only) | (split)

theorem kept_timeStep (h_regs : ¬ K .regs) (h_net : ¬ K .net)  (h : Kept K a s) :
    Kept K a (timeStep s) := by
  unfold timeStep
  with_reducible repeat' first
    | (assumption) | (intro) | (apply kept_State_p) | (apply kept_foldl) | (apply kept_foldl_snd)
    | (apply kept_foldl_fst) | (apply kept_ite) | (dsimp only) | (split)
    | (refine kept_mk ?_ (r_net := (absurd · h_net)))

theorem kept_timeCtrlWrite (h_regs : ¬ K .regs) (h_net : ¬ K .net) (x0 : Sys2Proof.Word) (h : Kept K a s) :
    Kept K a (timeCtrlWrite x0 s) := by
  unfold timeCtrlWrite
  with_reducible repeat' first
    | (assumption) | (intro) | (apply kept_timeRearm) | (apply kept_timeStep) | (apply kept_foldl)
    | (apply kept_foldl_snd) | (apply kept_foldl_fst) | (apply kept_ite) | (dsimp only) | (split)

theorem kept_timeIncWrite (h_regs : ¬ K .regs) (h_net : ¬ K .net) (x0 : Sys2Proof.Word) (h : Kept K a s) :
    Kept K a (timeIncWrite x0 s) := by
  unfold timeIncWrite
  with_reducible repeat' first
    | (assumption) | (intro) | (apply kept_State_p) | (apply kept_State_pb) | (apply kept_foldl)
    | (apply kept_foldl_snd) | (apply kept_foldl_fst) | (apply kept_ite) | (dsimp only) | (split)
    | (refine kept_mk ?_ (r_net := (absurd · h_net)))

theorem kept_tpoSet (h_regs : ¬ K .regs) (h_out : ¬ K .out) (x0 : Nat) (x1 : Bool) (h : Kept K a s) :
    Kept K a (tpoSet x0 x1 s) := by
  unfold tpoSet
  with_reducible repeat' first
    | (assumption) | (intro) | (apply kept_State_drive) | (apply kept_State_pb) | (apply kept_foldl)
    | (apply kept_foldl_snd) | (apply kept_foldl_fst) | (apply kept_ite) | (dsimp only) | (split)

theorem kept_modTpo (h_net : ¬ K .net) (x0 : Nat) (x1 : Tpo → Tpo) (h : Kept K a s) :
    Kept K a (modTpo x0 x1 s) := by
  unfold modTpo
  with_reducible repeat' first
    | (assumption) | (intro) | (apply kept_foldl) | (apply kept_foldl_snd) | (apply kept_foldl_fst)
    | (apply kept_ite) | (dsimp only) | (split) | (refine kept_mk ?_ (r_net := (absurd · h_net)))

theorem kept_tpoStop (h_regs : ¬ K .regs) (h_out : ¬ K .out) (h_net : ¬ K .net) (x0 : Nat) (h : Kept K a s) :
    Kept K a (tpoStop x0 s) := by
  unfold tpoStop
  with_reducible repeat' first
    | (assumption) | (intro) | (apply kept_tpoSet) | (apply kept_modTpo) | (apply kept_State_pb) | (apply kept_foldl)
    | (apply kept_foldl_snd) | (apply kept_foldl_fst) | (apply kept_ite) | (dsimp only) | (split)

theorem kept_tpoEnd (h_regs : ¬ K .regs) (x0 : Nat) (h : Kept K a s) :
    Kept K a (tpoEnd x0 s) := by
  unfold tpoEnd
  with_reducible repeat' first
    | (assumption) | (intro) | (apply kept_State_pb) | (apply kept_foldl) | (apply kept_foldl_snd)
    | (apply kept_foldl_fst) | (apply kept_ite) | (dsimp only) | (split)

theorem kept_tpoCatch (h_regs : ¬ K .regs) (h_net : ¬ K .net) (x0 : Nat) (h : Kept K a s) :
    Kept K a (tpoCatch x0 s) := by
  unfold tpoCatch
  with_reducible repeat' first
    | (assumption) | (intro) | (apply kept_modTpo) | (apply kept_State_pb) | (apply kept_State_p)
    | (apply kept_tpoEnd) | (apply kept_foldl) | (apply kept_foldl_snd) | (apply kept_foldl_fst) | (apply kept_ite)
    | (dsimp only) | (split)

theorem kept_tpoStart (h_regs : ¬ K .regs) (h_net : ¬ K .net) (x0 : Nat) (h : Kept K a s) :
    Kept K a (tpoStart x0 s) := by
  unfold tpoStart
  with_reducible repeat' first
    | (assumption) | (intro) | (apply kept_tpoCatch) | (apply kept_modTpo) | (apply kept_State_pb)
    | (apply kept_foldl) | (apply kept_foldl_snd) | (apply kept_foldl_fst) | (apply kept_ite) | (dsimp only)
    | (split)

theorem kept_tpoCtrlWrite (h_regs : ¬ K .regs) (h_out : ¬ K .out) (h_net : ¬ K .net) (x0 : Nat) (x1 : Sys2Proof.Word)
    (h : Kept K a s) :
    Kept K a (tpoCtrlWrite x0 x1 s) := by
  unfold tpoCtrlWrite
  with_reducible repeat' first
    | (assumption) | (intro) | (apply kept_State_pb) | (apply kept_tpoStop) | (apply kept_State_p)
    | (apply kept_tpoStart) | (apply kept_foldl) | (apply kept_foldl_snd) | (apply kept_foldl_fst) | (apply kept_ite)
    | (dsimp only) | (split)

theorem kept_tpoRegWrite (h_regs : ¬ K .regs) (x0 : Nat) (x1 : Nat) (x2 : Sys2Proof.Word) (h : Kept K a s) :
    Kept K a (tpoRegWrite x0 x1 x2 s) := by
  unfold tpoRegWrite
  with_reducible repeat' first
    | (assumption) | (intro) | (apply kept_State_pb) | (apply kept_State_plainWrite) | (apply kept_foldl)
    | (apply kept_foldl_snd) | (apply kept_foldl_fst) | (apply kept_ite) | (dsimp only) | (split)

theorem kept_setMon (h_mon : ¬ K .mon) (x0 : Nat) (x1 : Mon) (h : Kept K a s) :
    Kept K a (setMon x0 x1 s) := by
  unfold setMon
  with_reducible repeat' first
    | (assumption) | (intro) | (apply kept_foldl) | (apply kept_foldl_snd) | (apply kept_foldl_fst)
    | (apply kept_ite) | (dsimp only) | (split) | (refine kept_mk ?_ (r_mon := (absurd · h_mon)))

theorem kept_monSnap (h_regs : ¬ K .regs) (h_mon : ¬ K .mon) (x0 : Nat) (h : Kept K a s) :
    Kept K a (monSnap x0 s) := by
  unfold monSnap
  with_reducible repeat' first
    | (assumption) | (intro) | (apply kept_State_p) | (apply kept_State_pz) | (apply kept_overN)
    | (apply kept_setMon) | (apply kept_foldl) | (apply kept_foldl_snd) | (apply kept_foldl_fst) | (apply kept_ite)
    | (dsimp only) | (split)

theorem kept_monClear (h_regs : ¬ K .regs) (h_mon : ¬ K .mon) (x0 : Nat) (h : Kept K a s) :
    Kept K a (monClear x0 s) := by
  unfold monClear
  with_reducible repeat' first
    | (assumption) | (intro) | (apply kept_setMon) | (apply kept_State_p) | (apply kept_State_pz)
    | (apply kept_overN) | (apply kept_foldl) | (apply kept_foldl_snd) | (apply kept_foldl_fst) | (apply kept_ite)
    | (dsimp only) | (split)

theorem kept_monCfgWrite (h_regs : ¬ K .regs) (h_mon : ¬ K .mon) (x0 : Nat) (x1 : Sys2Proof.Word) (h : Kept K a s) :
    Kept K a (monCfgWrite x0 x1 s) := by
  unfold monCfgWrite
  with_reducible repeat' first
    | (assumption) | (intro) | (apply kept_State_plainWrite) | (apply kept_State_pb) | (apply kept_State_p)
    | (apply kept_setMon) | (apply kept_monSnap) | (apply kept_monClear) | (apply kept_foldl)
    | (apply kept_foldl_snd) | (apply kept_foldl_fst) | (apply kept_ite) | (dsimp only) | (split)

theorem kept_monParamWrite (h_regs : ¬ K .regs) (x0 : Nat) (x1 : Nat) (x2 : Sys2Proof.Word) (h : Kept K a s) :
    Kept K a (monParamWrite x0 x1 x2 s) := by
  unfold monParamWrite
  with_reducible repeat' first
    | (assumption) | (intro) | (apply kept_State_pb) | (apply kept_State_plainWrite) | (apply kept_foldl)
    | (apply kept_foldl_snd) | (apply kept_foldl_fst) | (apply kept_ite) | (dsimp only) | (split)

theorem kept_infWrites (h_regs : ¬ K .regs) (h_free : ¬ K .free) (h_out : ¬ K .out) (h_host : ¬ K .host)
    (h_err : ¬ K .err) (h_psq : ¬ K .psq) (h_ctx : ¬ K .ctx) (h_codec : ¬ K .codec) (h_stn : ¬ K .stn)
    (h_nvm : ¬ K .nvm) (h_staySeq : ¬ K .staySeq) (h_clk : ¬ K .clk) (h_mon : ¬ K .mon) (h_rig : ¬ K .rig)
    (h_mot : ¬ K .mot) (h_pwr : ¬ K .pwr) (h_vis : ¬ K .vis) (h_net : ¬ K .net) (x0 : Nat) (x1 : Sys2Proof.Word) :
    Keeps K a (infWrites x0 x1) := by
  unfold infWrites
  with_reducible repeat' first
    | (assumption) | (apply keeps_cons) | (exact keeps_nil) | (apply keeps_one) | (apply keeps_many)
    | (apply keeps_if) | (intro) | (apply kept_chipErrWrite) | (apply kept_irqMaskWrite) | (apply kept_csetSync)
    | (apply kept_State_plainWrite) | (apply kept_csetConfirm) | (apply kept_pwrCtrlWrite) | (apply kept_thrWrite)
    | (apply kept_ceilWrite) | (apply kept_lockaWrite) | (apply kept_bandMeasWrite) | (apply kept_ckoWrite)
    | (apply kept_timeCtrlWrite) | (apply kept_timeIncWrite) | (apply kept_tpoCtrlWrite) | (apply kept_tpoRegWrite)
    | (apply kept_monCfgWrite) | (apply kept_monParamWrite) | (apply kept_irqSync) | (apply kept_ite) | (dsimp only)
    | (split)

theorem kept_trainErase (h_regs : ¬ K .regs) (h_dram : ¬ K .dram)  (h : Kept K a s) :
    Kept K a (trainErase s) := by
  unfold trainErase
  with_reducible repeat' first
    | (assumption) | (intro) | (apply kept_State_pb) | (apply kept_foldl) | (apply kept_foldl_snd)
    | (apply kept_foldl_fst) | (apply kept_ite) | (dsimp only) | (split)
    | (refine kept_mk ?_ (r_dram := (absurd · h_dram)))

theorem kept_trainStore (h_regs : ¬ K .regs) (h_dram : ¬ K .dram)  (h : Kept K a s) :
    Kept K a (trainStore s) := by
  unfold trainStore
  with_reducible repeat' first
    | (assumption) | (intro) | (apply kept_State_pb) | (apply kept_foldl) | (apply kept_foldl_snd)
    | (apply kept_foldl_fst) | (apply kept_ite) | (dsimp only) | (split)
    | (refine kept_mk ?_ (r_dram := (absurd · h_dram)))

theorem kept_tctrlWrite (h_regs : ¬ K .regs) (h_dram : ¬ K .dram) (x0 : Sys2Proof.Word) (h : Kept K a s) :
    Kept K a (tctrlWrite x0 s) := by
  unfold tctrlWrite
  with_reducible repeat' first
    | (assumption) | (intro) | (apply kept_State_plainWrite) | (apply kept_trainErase) | (apply kept_trainStore)
    | (apply kept_State_pb) | (apply kept_foldl) | (apply kept_foldl_snd) | (apply kept_foldl_fst) | (apply kept_ite)
    | (dsimp only) | (split) | (refine kept_mk ?_ (r_dram := (absurd · h_dram)))

theorem kept_startExit (h_regs : ¬ K .regs)  (h : Kept K a s) :
    Kept K a (startExit s) := by
  unfold startExit
  with_reducible repeat' first
    | (assumption) | (intro) | (apply kept_State_p) | (apply kept_State_pb) | (apply kept_foldl)
    | (apply kept_foldl_snd) | (apply kept_foldl_fst) | (apply kept_ite) | (dsimp only) | (split)

theorem kept_srWrite (h_regs : ¬ K .regs) (x0 : Sys2Proof.Word) (h : Kept K a s) :
    Kept K a (srWrite x0 s) := by
  unfold srWrite
  with_reducible repeat' first
    | (assumption) | (intro) | (apply kept_State_plainWrite) | (apply kept_State_p) | (apply kept_State_pb)
    | (apply kept_startExit) | (apply kept_foldl) | (apply kept_foldl_snd) | (apply kept_foldl_fst)
    | (apply kept_ite) | (dsimp only) | (split)

theorem kept_scrubSync (h_regs : ¬ K .regs)  (h : Kept K a s) :
    Kept K a (scrubSync s) := by
  unfold scrubSync
  with_reducible repeat' first
    | (assumption) | (intro) | (apply kept_State_pb) | (apply kept_foldl) | (apply kept_foldl_snd)
    | (apply kept_foldl_fst) | (apply kept_ite) | (dsimp only) | (split)

theorem kept_wake (h_regs : ¬ K .regs)  (h : Kept K a s) :
    Kept K a (wake s) := by
  unfold wake
  with_reducible repeat' first
    | (assumption) | (intro) | (apply kept_State_pb) | (apply kept_State_p) | (apply kept_startExit)
    | (apply kept_foldl) | (apply kept_foldl_snd) | (apply kept_foldl_fst) | (apply kept_ite) | (dsimp only)
    | (split)

theorem kept_scrubWrite (h_regs : ¬ K .regs) (x0 : Nat) (x1 : Sys2Proof.Word) (h : Kept K a s) :
    Kept K a (scrubWrite x0 x1 s) := by
  unfold scrubWrite
  with_reducible repeat' first
    | (assumption) | (intro) | (apply kept_scrubSync) | (apply kept_State_plainWrite) | (apply kept_wake)
    | (apply kept_foldl) | (apply kept_foldl_snd) | (apply kept_foldl_fst) | (apply kept_ite) | (dsimp only)
    | (split)

theorem kept_dmtCtrlWrite (h_regs : ¬ K .regs) (h_dma : ¬ K .dma) (x0 : Nat) (x1 : Sys2Proof.Word) (h : Kept K a s) :
    Kept K a (dmtCtrlWrite x0 x1 s) := by
  unfold dmtCtrlWrite
  with_reducible repeat' first
    | (assumption) | (intro) | (apply kept_State_plainWrite) | (apply kept_foldl) | (apply kept_foldl_snd)
    | (apply kept_foldl_fst) | (apply kept_ite) | (dsimp only) | (split)
    | (refine kept_mk ?_ (r_dma := (absurd · h_dma)))

theorem kept_dmtPeriodWrite (h_regs : ¬ K .regs) (x0 : Nat) (x1 : Sys2Proof.Word) (h : Kept K a s) :
    Kept K a (dmtPeriodWrite x0 x1 s) := by
  unfold dmtPeriodWrite
  with_reducible repeat' first
    | (assumption) | (intro) | (apply kept_State_plainWrite) | (apply kept_foldl) | (apply kept_foldl_snd)
    | (apply kept_foldl_fst) | (apply kept_ite) | (dsimp only) | (split)

theorem kept_readWord (h_free : ¬ K .free) (x0 : Nat) (h : Kept K a s) :
    Kept K a (readWord x0 s).2 := by
  unfold readWord
  with_reducible repeat' first
    | (assumption) | (intro) | (apply kept_State_fresh) | (apply kept_foldl) | (apply kept_foldl_snd)
    | (apply kept_foldl_fst) | (apply kept_ite) | (dsimp only) | (split)

theorem kept_tableGet (h_free : ¬ K .free) (x0 : Nat) (x1 : Nat) (h : Kept K a s) :
    Kept K a (tableGet x0 x1 s).2 := by
  induction x1 generalizing s x0 with
  | zero => exact h
  | succ k ih =>
    unfold tableGet
    with_reducible repeat' first
      | (assumption) | (intro) | (apply ih) | (apply kept_readWord) | (apply kept_foldl) | (apply kept_foldl_snd)
      | (apply kept_foldl_fst) | (apply kept_ite) | (dsimp only) | (split)

theorem kept_sourceBytes (h_free : ¬ K .free) (x0 : Nat) (x1 : List Sys2Proof.Byte) (h : Kept K a s) :
    Kept K a (sourceBytes x0 x1 s).2 := by
  unfold sourceBytes
  with_reducible repeat' first
    | (assumption) | (intro) | (apply kept_tableGet) | (apply kept_foldl) | (apply kept_foldl_snd)
    | (apply kept_foldl_fst) | (apply kept_ite) | (dsimp only) | (split)

theorem kept_wakeRead (h_regs : ¬ K .regs) (x0 : Nat) (x1 : Nat) (h : Kept K a s) :
    Kept K a (wakeRead x0 x1 s) := by
  unfold wakeRead
  with_reducible repeat' first
    | (assumption) | (intro) | (apply kept_wake) | (apply kept_foldl) | (apply kept_foldl_snd)
    | (apply kept_foldl_fst) | (apply kept_ite) | (dsimp only) | (split)

theorem kept_contained (h_regs : ¬ K .regs) (h_out : ¬ K .out) (h_host : ¬ K .host) (h_err : ¬ K .err)
    (h_nvm : ¬ K .nvm) (h_staySeq : ¬ K .staySeq) (h_net : ¬ K .net) (x0 : Nat) (x1 : Nat) (x2 : Nat) (x3 : Nat)
    (h : Kept K a s) :
    Kept K a (contained x0 x1 x2 x3 s) := by
  unfold contained
  with_reducible repeat' first
    | (assumption) | (intro) | (apply kept_record) | (apply kept_foldl) | (apply kept_foldl_snd)
    | (apply kept_foldl_fst) | (apply kept_ite) | (dsimp only) | (split)

theorem kept_ueErr (h_regs : ¬ K .regs) (h_out : ¬ K .out) (h_host : ¬ K .host) (h_err : ¬ K .err) (h_nvm : ¬ K .nvm)
    (h_staySeq : ¬ K .staySeq) (h_net : ¬ K .net) (x0 : Bool) (x1 : Nat) (h : Kept K a s) :
    Kept K a (ueErr x0 x1 s) := by
  unfold ueErr
  with_reducible repeat' first
    | (assumption) | (intro) | (apply kept_State_inc) | (apply kept_State_p) | (apply kept_State_pb)
    | (apply kept_contained) | (apply kept_foldl) | (apply kept_foldl_snd) | (apply kept_foldl_fst)
    | (apply kept_ite) | (dsimp only) | (split)

theorem kept_ceErr (h_regs : ¬ K .regs) (h_out : ¬ K .out) (h_host : ¬ K .host) (h_err : ¬ K .err) (h_nvm : ¬ K .nvm)
    (h_staySeq : ¬ K .staySeq) (h_dram : ¬ K .dram) (h_net : ¬ K .net) (x0 : Nat) (h : Kept K a s) :
    Kept K a (ceErr x0 s) := by
  unfold ceErr
  with_reducible repeat' first
    | (assumption) | (intro) | (apply kept_modDdr) | (apply kept_State_inc) | (apply kept_record)
    | (apply kept_foldl) | (apply kept_foldl_snd) | (apply kept_foldl_fst) | (apply kept_ite) | (dsimp only)
    | (split)

theorem kept_burstMet (h_regs : ¬ K .regs) (h_out : ¬ K .out) (h_host : ¬ K .host) (h_err : ¬ K .err)
    (h_nvm : ¬ K .nvm) (h_staySeq : ¬ K .staySeq) (h_dram : ¬ K .dram) (h_net : ¬ K .net) (x0 : Bool) (x2 : Nat)
    (h : Kept K a s) :
    Kept K a (burstMet x0 s x2) := by
  unfold burstMet
  with_reducible repeat' first
    | (assumption) | (intro) | (apply kept_ueErr) | (apply kept_ceErr) | (apply kept_foldl) | (apply kept_foldl_snd)
    | (apply kept_foldl_fst) | (apply kept_ite) | (dsimp only) | (split)

theorem kept_meet (h_regs : ¬ K .regs) (h_out : ¬ K .out) (h_host : ¬ K .host) (h_err : ¬ K .err) (h_nvm : ¬ K .nvm)
    (h_staySeq : ¬ K .staySeq) (h_dram : ¬ K .dram) (h_net : ¬ K .net) (x0 : Nat) (x1 : Nat) (h : Kept K a s) :
    Kept K a (meet x0 x1 s) := by
  unfold meet
  with_reducible repeat' first
    | (assumption) | (intro) | (apply kept_wakeRead) | (apply kept_burstMet) | (apply kept_activations)
    | (apply kept_foldl) | (apply kept_foldl_snd) | (apply kept_foldl_fst) | (apply kept_ite) | (dsimp only)
    | (split)

theorem kept_dmaRead (h_regs : ¬ K .regs) (h_out : ¬ K .out) (h_host : ¬ K .host) (h_err : ¬ K .err)
    (h_nvm : ¬ K .nvm) (h_staySeq : ¬ K .staySeq) (h_dram : ¬ K .dram) (h_net : ¬ K .net) (x0 : Desc) (x1 : Nat) (x2
    : Nat) (h : Kept K a s) :
    Kept K a (dmaRead x0 x1 x2 s) := by
  unfold dmaRead
  with_reducible repeat' first
    | (assumption) | (intro) | (apply kept_State_hostReads) | (apply kept_meet) | (apply kept_foldl)
    | (apply kept_foldl_snd) | (apply kept_foldl_fst) | (apply kept_ite) | (dsimp only) | (split)

theorem kept_touch (h_regs : ¬ K .regs) (h_dram : ¬ K .dram) (x0 : Nat) (h : Kept K a s) :
    Kept K a (touch x0 s) := by
  unfold touch
  with_reducible repeat' first
    | (assumption) | (intro) | (apply kept_State_p) | (apply kept_foldl) | (apply kept_foldl_snd)
    | (apply kept_foldl_fst) | (apply kept_ite) | (dsimp only) | (split)
    | (refine kept_mk ?_ (r_dram := (absurd · h_dram)))

theorem kept_dramPut (h_regs : ¬ K .regs) (h_mem : ¬ K .mem) (h_dram : ¬ K .dram) (x0 : Nat) (x1 : List
    Sys2Proof.Byte) (h : Kept K a s) :
    Kept K a (dramPut x0 x1 s) := by
  unfold dramPut
  with_reducible repeat' first
    | (assumption) | (intro) | (apply kept_activations) | (apply kept_touch) | (apply kept_wake) | (apply kept_overN)
    | (apply kept_modDdr) | (apply kept_foldl) | (apply kept_foldl_snd) | (apply kept_foldl_fst) | (apply kept_ite)
    | (dsimp only) | (split) | (refine kept_memDram h_mem h_dram _ _ (memWf_write _ _ _) ?_)
    | (refine kept_mk ?_ (r_dram := (absurd · h_dram)))

theorem kept_tableWrite (h_regs : ¬ K .regs) (h_stn : ¬ K .stn) (x0 : Nat) (x1 : Sys2Proof.Word) (h : Kept K a s) :
    Kept K a (tableWrite x0 x1 s) := by
  unfold tableWrite
  with_reducible repeat' first
    | (assumption) | (intro) | (apply kept_State_pb) | (apply kept_State_p) | (apply kept_State_modStn)
    | (apply kept_foldl) | (apply kept_foldl_snd) | (apply kept_foldl_fst) | (apply kept_ite) | (dsimp only)
    | (split)

theorem kept_setCe (h_mot : ¬ K .mot) (x0 : CeU) (h : Kept K a s) :
    Kept K a (setCe x0 s) := by
  unfold setCe
  with_reducible repeat' first
    | (assumption) | (intro) | (apply kept_foldl) | (apply kept_foldl_snd) | (apply kept_foldl_fst)
    | (apply kept_ite) | (dsimp only) | (split) | (refine kept_mk ?_ (r_mot := (absurd · h_mot)))

theorem kept_coefWrite (h_regs : ¬ K .regs) (h_mot : ¬ K .mot) (x0 : Nat) (x1 : Sys2Proof.Word) (h : Kept K a s) :
    Kept K a (coefWrite x0 x1 s) := by
  unfold coefWrite
  with_reducible repeat' first
    | (assumption) | (intro) | (apply kept_State_pb) | (apply kept_State_p) | (apply kept_setCe) | (apply kept_foldl)
    | (apply kept_foldl_snd) | (apply kept_foldl_fst) | (apply kept_ite) | (dsimp only) | (split)

theorem kept_nodeWrite (h_regs : ¬ K .regs) (x0 : Nat) (x1 : Sys2Proof.Word) (h : Kept K a s) :
    Kept K a (nodeWrite x0 x1 s) := by
  unfold nodeWrite
  with_reducible repeat' first
    | (assumption) | (intro) | (apply kept_State_pb) | (apply kept_State_p) | (apply kept_foldl)
    | (apply kept_foldl_snd) | (apply kept_foldl_fst) | (apply kept_ite) | (dsimp only) | (split)

theorem kept_windowWrite (h_regs : ¬ K .regs) (h_out : ¬ K .out) (h_stn : ¬ K .stn) (h_mot : ¬ K .mot) (x0 : Nat) (x1
    : Sys2Proof.Word) (h : Kept K a s) :
    Kept K a (windowWrite x0 x1 s) := by
  unfold windowWrite
  with_reducible repeat' first
    | (assumption) | (intro) | (apply kept_tableWrite) | (apply kept_coefWrite) | (apply kept_nodeWrite)
    | (apply kept_State_emit) | (apply kept_State_setReg) | (apply kept_foldl) | (apply kept_foldl_snd)
    | (apply kept_foldl_fst) | (apply kept_ite) | (dsimp only) | (split)

theorem kept_tablePut (h_regs : ¬ K .regs) (h_out : ¬ K .out) (h_stn : ¬ K .stn) (h_mot : ¬ K .mot) (x0 : Nat) (x1 :
    List Sys2Proof.Byte) (x2 : Nat) (h : Kept K a s) :
    Kept K a (tablePut x0 x1 x2 s) := by
  induction x2 generalizing s x0 x1 with
  | zero => exact h
  | succ k ih =>
    unfold tablePut
    with_reducible repeat' first
      | (assumption) | (intro) | (apply ih) | (apply kept_windowWrite) | (apply kept_foldl) | (apply kept_foldl_snd)
      | (apply kept_foldl_fst) | (apply kept_ite) | (dsimp only) | (split)

theorem kept_destPut (h_regs : ¬ K .regs) (h_mem : ¬ K .mem) (h_out : ¬ K .out) (h_stn : ¬ K .stn)
    (h_dram : ¬ K .dram) (h_mot : ¬ K .mot) (x0 : Desc) (x1 : Nat) (x2 : List Sys2Proof.Byte) (h : Kept K a s) :
    Kept K a (destPut x0 x1 x2 s) := by
  unfold destPut
  with_reducible repeat' first
    | (assumption) | (intro) | (apply kept_State_hostWrites) | (apply kept_dramPut) | (apply kept_tablePut)
    | (apply kept_foldl) | (apply kept_foldl_snd) | (apply kept_foldl_fst) | (apply kept_ite) | (dsimp only)
    | (split)

theorem kept_dmaMove (h_regs : ¬ K .regs) (h_mem : ¬ K .mem) (h_free : ¬ K .free) (h_out : ¬ K .out)
    (h_host : ¬ K .host) (h_err : ¬ K .err) (h_stn : ¬ K .stn) (h_nvm : ¬ K .nvm) (h_staySeq : ¬ K .staySeq)
    (h_dram : ¬ K .dram) (h_mot : ¬ K .mot) (h_net : ¬ K .net) (x0 : Nat) (x1 : Nat) (x2 : Nat) (x3 : List
    Sys2Proof.Byte) (h : Kept K a s) :
    Kept K a (dmaMove x0 x1 x2 x3 s) := by
  unfold dmaMove
  with_reducible repeat' first
    | (assumption) | (intro) | (apply kept_sourceBytes) | (apply kept_State_fresh) | (apply kept_dmaRead)
    | (apply kept_State_p) | (apply kept_destPut) | (apply kept_foldl) | (apply kept_foldl_snd)
    | (apply kept_foldl_fst) | (apply kept_ite) | (dsimp only) | (split)

theorem kept_modDma (h_dma : ¬ K .dma) (x0 : Nat) (x1 : Dma → Dma) (h : Kept K a s) :
    Kept K a (modDma x0 x1 s) := by
  unfold modDma
  with_reducible repeat' first
    | (assumption) | (intro) | (apply kept_foldl) | (apply kept_foldl_snd) | (apply kept_foldl_fst)
    | (apply kept_ite) | (dsimp only) | (split) | (refine kept_mk ?_ (r_dma := (absurd · h_dma)))

theorem kept_dmaAbort (h_regs : ¬ K .regs) (h_mem : ¬ K .mem) (h_free : ¬ K .free) (h_out : ¬ K .out)
    (h_host : ¬ K .host) (h_err : ¬ K .err) (h_stn : ¬ K .stn) (h_nvm : ¬ K .nvm) (h_staySeq : ¬ K .staySeq)
    (h_dram : ¬ K .dram) (h_mot : ¬ K .mot) (h_net : ¬ K .net) (h_dma : ¬ K .dma) (x0 : Nat) (x1 : Nat)
    (h : Kept K a s) :
    Kept K a (dmaAbort x0 x1 s) := by
  unfold dmaAbort
  with_reducible repeat' first
    | (assumption) | (intro) | (apply kept_State_fresh) | (apply kept_dmaMove) | (apply kept_modDma)
    | (apply kept_State_p) | (apply kept_State_pb) | (apply kept_foldl) | (apply kept_foldl_snd)
    | (apply kept_foldl_fst) | (apply kept_ite) | (dsimp only) | (split)

theorem kept_setCur (h_regs : ¬ K .regs) (x0 : Nat) (x1 : Nat) (h : Kept K a s) :
    Kept K a (setCur x0 x1 s) := by
  unfold setCur
  with_reducible repeat' first
    | (assumption) | (intro) | (apply kept_State_p) | (apply kept_foldl) | (apply kept_foldl_snd)
    | (apply kept_foldl_fst) | (apply kept_ite) | (dsimp only) | (split)

theorem kept_dmaCtrlWrite (h_regs : ¬ K .regs) (h_mem : ¬ K .mem) (h_free : ¬ K .free) (h_out : ¬ K .out)
    (h_host : ¬ K .host) (h_err : ¬ K .err) (h_stn : ¬ K .stn) (h_nvm : ¬ K .nvm) (h_staySeq : ¬ K .staySeq)
    (h_dram : ¬ K .dram) (h_mot : ¬ K .mot) (h_net : ¬ K .net) (h_dma : ¬ K .dma) (x0 : Nat) (x1 : Sys2Proof.Word)
    (h : Kept K a s) :
    Kept K a (dmaCtrlWrite x0 x1 s) := by
  unfold dmaCtrlWrite
  with_reducible repeat' first
    | (assumption) | (intro) | (apply kept_State_pb) | (apply kept_dmaAbort) | (apply kept_State_plainWrite)
    | (apply kept_State_p) | (apply kept_setCur) | (apply kept_modDma) | (apply kept_foldl) | (apply kept_foldl_snd)
    | (apply kept_foldl_fst) | (apply kept_ite) | (dsimp only) | (split)

theorem kept_dmaDescWrite (h_regs : ¬ K .regs) (x0 : Nat) (x1 : Nat) (x2 : Sys2Proof.Word) (h : Kept K a s) :
    Kept K a (dmaDescWrite x0 x1 x2 s) := by
  unfold dmaDescWrite
  with_reducible repeat' first
    | (assumption) | (intro) | (apply kept_State_pb) | (apply kept_State_setReg) | (apply kept_foldl)
    | (apply kept_foldl_snd) | (apply kept_foldl_fst) | (apply kept_ite) | (dsimp only) | (split)

theorem kept_memWrites (h_regs : ¬ K .regs) (h_mem : ¬ K .mem) (h_free : ¬ K .free) (h_out : ¬ K .out)
    (h_host : ¬ K .host) (h_err : ¬ K .err) (h_stn : ¬ K .stn) (h_nvm : ¬ K .nvm) (h_staySeq : ¬ K .staySeq)
    (h_dram : ¬ K .dram) (h_mot : ¬ K .mot) (h_net : ¬ K .net) (h_dma : ¬ K .dma) (x0 : Nat) (x1 : Sys2Proof.Word) :
    Keeps K a (memWrites x0 x1) := by
  unfold memWrites
  with_reducible repeat' first
    | (assumption) | (apply keeps_cons) | (exact keeps_nil) | (apply keeps_one) | (apply keeps_many)
    | (apply keeps_if) | (intro) | (apply kept_tctrlWrite) | (apply kept_srWrite) | (apply kept_scrubWrite)
    | (apply kept_State_plainWrite) | (apply kept_wake) | (apply kept_dmtCtrlWrite) | (apply kept_dmtPeriodWrite)
    | (apply kept_dmaCtrlWrite) | (apply kept_dmaDescWrite) | (apply kept_ite) | (dsimp only) | (split)

theorem kept_endTimeEvents (h_regs : ¬ K .regs) (h_out : ¬ K .out) (h_host : ¬ K .host)  (h : Kept K a s) :
    Kept K a (endTimeEvents s) := by
  unfold endTimeEvents
  with_reducible repeat' first
    | (assumption) | (intro) | (apply kept_complete) | (apply kept_foldl) | (apply kept_foldl_snd)
    | (apply kept_foldl_fst) | (apply kept_ite) | (dsimp only) | (split)
    | (refine kept_mk ?_ (r_host := (absurd · h_host)))

theorem kept_fetchEntry (h_regs : ¬ K .regs) (h_out : ¬ K .out) (x0 : Nat) (h : Kept K a s) :
    Kept K a (fetchEntry x0 s) := by
  unfold fetchEntry
  with_reducible repeat' first
    | (assumption) | (intro) | (apply kept_State_p) | (apply kept_State_emit) | (apply kept_foldl)
    | (apply kept_foldl_snd) | (apply kept_foldl_fst) | (apply kept_ite) | (dsimp only) | (split)

theorem kept_doom (h_regs : ¬ K .regs) (h_out : ¬ K .out) (h_host : ¬ K .host) (x0 : Nat) (x1 : Nat) (x2 : Nat)
    (h : Kept K a s) :
    Kept K a (doom x0 x1 x2 s) := by
  unfold doom
  with_reducible repeat' first
    | (assumption) | (intro) | (apply kept_fetchEntry) | (apply kept_State_setQp) | (apply kept_tryClose)
    | (apply kept_post) | (apply kept_foldl) | (apply kept_foldl_snd) | (apply kept_foldl_fst) | (apply kept_ite)
    | (dsimp only) | (split)

theorem kept_dropHeldCmds (h_host : ¬ K .host) (x0 : Nat) (h : Kept K a s) :
    Kept K a (dropHeldCmds x0 s) := by
  unfold dropHeldCmds
  with_reducible repeat' first
    | (assumption) | (intro) | (apply kept_foldl) | (apply kept_foldl_snd) | (apply kept_foldl_fst)
    | (apply kept_ite) | (dsimp only) | (split) | (refine kept_mk ?_ (r_host := (absurd · h_host)))

theorem kept_doomPair (h_regs : ¬ K .regs) (h_out : ¬ K .out) (h_host : ¬ K .host) (x0 : Nat) (h : Kept K a s) :
    Kept K a (doomPair x0 s) := by
  unfold doomPair
  with_reducible repeat' first
    | (assumption) | (intro) | (apply kept_State_setQp) | (apply kept_doom) | (apply kept_dropHeldCmds)
    | (apply kept_foldl) | (apply kept_foldl_snd) | (apply kept_foldl_fst) | (apply kept_ite) | (dsimp only)
    | (split)

theorem kept_startClose (h_regs : ¬ K .regs) (h_out : ¬ K .out) (h_host : ¬ K .host) (x0 : Option (Nat × Nat))
    (h : Kept K a s) :
    Kept K a (startClose x0 s) := by
  unfold startClose
  with_reducible repeat' first
    | (assumption) | (intro) | (apply kept_endTimeEvents) | (apply kept_overN) | (apply kept_doomPair)
    | (apply kept_tryClose) | (apply kept_foldl) | (apply kept_foldl_snd) | (apply kept_foldl_fst) | (apply kept_ite)
    | (dsimp only) | (split) | (refine kept_mk ?_ (r_host := (absurd · h_host)))

theorem kept_sessionClose (h_regs : ¬ K .regs) (h_out : ¬ K .out) (h_host : ¬ K .host) (x0 : Sys2Proof.Word)
    (h : Kept K a s) :
    Kept K a (sessionClose x0 s) := by
  unfold sessionClose
  with_reducible repeat' first
    | (assumption) | (intro) | (apply kept_startClose) | (apply kept_foldl) | (apply kept_foldl_snd)
    | (apply kept_foldl_fst) | (apply kept_ite) | (dsimp only) | (split)

theorem kept_setRepl (h_regs : ¬ K .regs) (h_host : ¬ K .host) (x0 : List Repl) (h : Kept K a s) :
    Kept K a (setRepl x0 s) := by
  unfold setRepl
  with_reducible repeat' first
    | (assumption) | (intro) | (apply kept_State_p) | (apply kept_foldl) | (apply kept_foldl_snd)
    | (apply kept_foldl_fst) | (apply kept_ite) | (dsimp only) | (split)
    | (refine kept_mk ?_ (r_host := (absurd · h_host)))

theorem kept_replCtrlWrite (h_regs : ¬ K .regs) (h_host : ¬ K .host) (x0 : Sys2Proof.Word) (h : Kept K a s) :
    Kept K a (replCtrlWrite x0 s) := by
  unfold replCtrlWrite
  with_reducible repeat' first
    | (assumption) | (intro) | (apply kept_State_plainWrite) | (apply kept_State_pb) | (apply kept_setRepl)
    | (apply kept_foldl) | (apply kept_foldl_snd) | (apply kept_foldl_fst) | (apply kept_ite) | (dsimp only)
    | (split)

theorem kept_dbErr (h_regs : ¬ K .regs) (h_out : ¬ K .out) (h_host : ¬ K .host) (x0 : Nat) (h : Kept K a s) :
    Kept K a (dbErr x0 s) := by
  unfold dbErr
  with_reducible repeat' first
    | (assumption) | (intro) | (apply kept_tryClose) | (apply kept_dropHeldCmds) | (apply kept_State_pb)
    | (apply kept_State_setQp) | (apply kept_foldl) | (apply kept_foldl_snd) | (apply kept_foldl_fst)
    | (apply kept_ite) | (dsimp only) | (split)

theorem kept_sqDoorbell (h_regs : ¬ K .regs) (h_out : ¬ K .out) (h_host : ¬ K .host) (x0 : Nat) (x1 : Sys2Proof.Word)
    (h : Kept K a s) :
    Kept K a (sqDoorbell x0 x1 s) := by
  unfold sqDoorbell
  with_reducible repeat' first
    | (assumption) | (intro) | (apply kept_State_plainWrite) | (apply kept_dbErr) | (apply kept_foldl)
    | (apply kept_foldl_snd) | (apply kept_foldl_fst) | (apply kept_ite) | (dsimp only) | (split)

theorem kept_drainHeld (h_regs : ¬ K .regs) (h_out : ¬ K .out) (h_host : ¬ K .host) (x0 : Nat) (x1 : List Post)
    (h : Kept K a s) :
    Kept K a (drainHeld x0 x1 s) := by
  induction x1 generalizing s  with
  | nil => 
    unfold drainHeld
    with_reducible repeat' first
      | (assumption) | (intro) | (apply kept_writeCqe) | (apply kept_State_p) | (apply kept_State_setQp)
      | (apply kept_foldl) | (apply kept_foldl_snd) | (apply kept_foldl_fst) | (apply kept_ite) | (dsimp only)
      | (split)
  | cons x r ih =>
    unfold drainHeld
    with_reducible repeat' first
      | (assumption) | (intro) | (apply ih) | (apply kept_writeCqe) | (apply kept_State_p) | (apply kept_State_setQp)
      | (apply kept_foldl) | (apply kept_foldl_snd) | (apply kept_foldl_fst) | (apply kept_ite) | (dsimp only)
      | (split)

theorem kept_cqDoorbell (h_regs : ¬ K .regs) (h_out : ¬ K .out) (h_host : ¬ K .host) (x0 : Nat) (x1 : Sys2Proof.Word)
    (h : Kept K a s) :
    Kept K a (cqDoorbell x0 x1 s) := by
  unfold cqDoorbell
  with_reducible repeat' first
    | (assumption) | (intro) | (apply kept_State_plainWrite) | (apply kept_dbErr) | (apply kept_syncFull)
    | (apply kept_drainHeld) | (apply kept_foldl) | (apply kept_foldl_snd) | (apply kept_foldl_fst)
    | (apply kept_ite) | (dsimp only) | (split)

theorem kept_pairStart (h_regs : ¬ K .regs) (h_host : ¬ K .host) (x0 : Nat) (h : Kept K a s) :
    Kept K a (pairStart x0 s) := by
  unfold pairStart
  with_reducible repeat' first
    | (assumption) | (intro) | (apply kept_State_p) | (apply kept_syncFull) | (apply kept_State_setQp)
    | (apply kept_foldl) | (apply kept_foldl_snd) | (apply kept_foldl_fst) | (apply kept_ite) | (dsimp only)
    | (split)

theorem kept_pairDrop (h_regs : ¬ K .regs) (h_host : ¬ K .host) (h_ctx : ¬ K .ctx) (x0 : Nat) (h : Kept K a s) :
    Kept K a (pairDrop x0 s) := by
  unfold pairDrop
  with_reducible repeat' first
    | (assumption) | (intro) | (apply kept_State_pb) | (apply kept_dropHeldCmds) | (apply kept_State_setQp)
    | (apply kept_State_modCtx) | (apply kept_foldl) | (apply kept_foldl_snd) | (apply kept_foldl_fst)
    | (apply kept_ite) | (dsimp only) | (split)

theorem kept_qcfgWrite (h_regs : ¬ K .regs) (h_out : ¬ K .out) (h_host : ¬ K .host) (h_ctx : ¬ K .ctx) (x0 : Nat) (x1
    : Sys2Proof.Word) (h : Kept K a s) :
    Kept K a (qcfgWrite x0 x1 s) := by
  unfold qcfgWrite
  with_reducible repeat' first
    | (assumption) | (intro) | (apply kept_State_pb) | (apply kept_State_plainWrite) | (apply kept_pairStart)
    | (apply kept_tryClose) | (apply kept_pairDrop) | (apply kept_foldl) | (apply kept_foldl_snd)
    | (apply kept_foldl_fst) | (apply kept_ite) | (dsimp only) | (split)

theorem kept_mbxValid (h_regs : ¬ K .regs) (x0 : Nat) (h : Kept K a s) :
    Kept K a (mbxValid x0 s) := by
  unfold mbxValid
  with_reducible repeat' first
    | (assumption) | (intro) | (apply kept_State_pb) | (apply kept_foldl) | (apply kept_foldl_snd)
    | (apply kept_foldl_fst) | (apply kept_ite) | (dsimp only) | (split)

theorem kept_mbxAck (h_regs : ¬ K .regs) (x0 : Nat) (x1 : Sys2Proof.Word) (h : Kept K a s) :
    Kept K a (mbxAck x0 x1 s) := by
  unfold mbxAck
  with_reducible repeat' first
    | (assumption) | (intro) | (apply kept_mbxValid) | (apply kept_State_plainWrite) | (apply kept_foldl)
    | (apply kept_foldl_snd) | (apply kept_foldl_fst) | (apply kept_ite) | (dsimp only) | (split)

theorem kept_ethCfgWrite (h_regs : ¬ K .regs) (h_net : ¬ K .net) (x0 : Nat) (x1 : Sys2Proof.Word) (h : Kept K a s) :
    Kept K a (ethCfgWrite x0 x1 s) := by
  unfold ethCfgWrite
  with_reducible repeat' first
    | (assumption) | (intro) | (apply kept_State_plainWrite) | (apply kept_modEth) | (apply kept_State_pb)
    | (apply kept_foldl) | (apply kept_foldl_snd) | (apply kept_foldl_fst) | (apply kept_ite) | (dsimp only)
    | (split)

theorem kept_ptxWrite (h_regs : ¬ K .regs) (h_net : ¬ K .net) (x0 : Nat) (x1 : Sys2Proof.Word) (h : Kept K a s) :
    Kept K a (ptxWrite x0 x1 s) := by
  unfold ptxWrite
  with_reducible repeat' first
    | (assumption) | (intro) | (apply kept_State_pb) | (apply kept_State_plainWrite) | (apply kept_modEth)
    | (apply kept_foldl) | (apply kept_foldl_snd) | (apply kept_foldl_fst) | (apply kept_ite) | (dsimp only)
    | (split)

theorem kept_prxSync (h_regs : ¬ K .regs) (x0 : Nat) (h : Kept K a s) :
    Kept K a (prxSync x0 s) := by
  unfold prxSync
  with_reducible repeat' first
    | (assumption) | (intro) | (apply kept_State_p) | (apply kept_foldl) | (apply kept_foldl_snd)
    | (apply kept_foldl_fst) | (apply kept_ite) | (dsimp only) | (split)

theorem kept_prxWrite (h_regs : ¬ K .regs) (h_net : ¬ K .net) (x0 : Nat) (x1 : Sys2Proof.Word) (h : Kept K a s) :
    Kept K a (prxWrite x0 x1 s) := by
  unfold prxWrite
  with_reducible repeat' first
    | (assumption) | (intro) | (apply kept_modEth) | (apply kept_prxSync) | (apply kept_foldl)
    | (apply kept_foldl_snd) | (apply kept_foldl_fst) | (apply kept_ite) | (dsimp only) | (split)

theorem kept_ethAddrWrite (h_regs : ¬ K .regs) (x0 : Nat) (x1 : Nat) (x2 : Sys2Proof.Word) (h : Kept K a s) :
    Kept K a (ethAddrWrite x0 x1 x2 s) := by
  unfold ethAddrWrite
  with_reducible repeat' first
    | (assumption) | (intro) | (apply kept_State_pb) | (apply kept_State_plainWrite) | (apply kept_foldl)
    | (apply kept_foldl_snd) | (apply kept_foldl_fst) | (apply kept_ite) | (dsimp only) | (split)

theorem kept_msixWrite (h_regs : ¬ K .regs) (h_out : ¬ K .out) (x0 : Nat) (x1 : Sys2Proof.Word) (h : Kept K a s) :
    Kept K a (msixWrite x0 x1 s) := by
  unfold msixWrite
  with_reducible repeat' first
    | (assumption) | (intro) | (apply kept_State_plainWrite) | (apply kept_State_emit) | (apply kept_State_setReg)
    | (apply kept_foldl) | (apply kept_foldl_snd) | (apply kept_foldl_fst) | (apply kept_ite) | (dsimp only)
    | (split)

theorem kept_hntWrites (h_regs : ¬ K .regs) (h_out : ¬ K .out) (h_host : ¬ K .host) (h_ctx : ¬ K .ctx)
    (h_net : ¬ K .net) (x0 : Nat) (x1 : Sys2Proof.Word) : Keeps K a (hntWrites x0 x1) := by
  unfold hntWrites
  with_reducible repeat' first
    | (assumption) | (apply keeps_cons) | (exact keeps_nil) | (apply keeps_one) | (apply keeps_many)
    | (apply keeps_if) | (intro) | (apply kept_sessionClose) | (apply kept_replCtrlWrite) | (apply kept_sqDoorbell)
    | (apply kept_cqDoorbell) | (apply kept_qcfgWrite) | (apply kept_mbxAck) | (apply kept_ethCfgWrite)
    | (apply kept_ptxWrite) | (apply kept_prxWrite) | (apply kept_ethAddrWrite) | (apply kept_State_setReg)
    | (apply kept_msixWrite) | (apply kept_ite) | (dsimp only) | (split)

theorem kept_budgetWrite (h_regs : ¬ K .regs) (x0 : Sys2Proof.Word) (h : Kept K a s) :
    Kept K a (budgetWrite x0 s) := by
  unfold budgetWrite
  with_reducible repeat' first
    | (assumption) | (intro) | (apply kept_State_plainWrite) | (apply kept_State_pb) | (apply kept_foldl)
    | (apply kept_foldl_snd) | (apply kept_foldl_fst) | (apply kept_ite) | (dsimp only) | (split)

theorem kept_ptrimWrite (h_regs : ¬ K .regs) (h_out : ¬ K .out) (h_psq : ¬ K .psq) (h_stn : ¬ K .stn)
    (h_clk : ¬ K .clk) (x0 : Sys2Proof.Word) (h : Kept K a s) :
    Kept K a (ptrimWrite x0 s) := by
  unfold ptrimWrite
  with_reducible repeat' first
    | (assumption) | (intro) | (apply kept_State_pb) | (apply kept_feedSync) | (apply kept_warmupSpeeds)
    | (apply kept_State_pz) | (apply kept_noteChange) | (apply kept_foldl) | (apply kept_foldl_snd)
    | (apply kept_foldl_fst) | (apply kept_ite) | (dsimp only) | (split)

theorem kept_posWrite (h_regs : ¬ K .regs) (h_out : ¬ K .out) (h_psq : ¬ K .psq) (x0 : Nat) (x1 : Sys2Proof.Word)
    (h : Kept K a s) :
    Kept K a (posWrite x0 x1 s) := by
  unfold posWrite
  with_reducible repeat' first
    | (assumption) | (intro) | (apply kept_State_pb) | (apply kept_feedSync) | (apply kept_State_plainWrite)
    | (apply kept_foldl) | (apply kept_foldl_snd) | (apply kept_foldl_fst) | (apply kept_ite) | (dsimp only)
    | (split)

theorem kept_linkLoss (h_regs : ¬ K .regs) (h_free : ¬ K .free) (h_out : ¬ K .out) (h_host : ¬ K .host)
    (h_err : ¬ K .err) (h_psq : ¬ K .psq) (h_ctx : ¬ K .ctx) (h_codec : ¬ K .codec) (h_stn : ¬ K .stn)
    (h_nvm : ¬ K .nvm) (h_staySeq : ¬ K .staySeq) (h_mot : ¬ K .mot) (h_vis : ¬ K .vis) (h_net : ¬ K .net) (x0 : Nat)
    (x1 : Nat) (h : Kept K a s) :
    Kept K a (linkLoss x0 x1 s) := by
  unfold linkLoss
  with_reducible repeat' first
    | (assumption) | (intro) | (apply kept_State_inc) | (apply kept_State_pb) | (apply kept_State_p)
    | (apply kept_spoilAt) | (apply kept_raise) | (apply kept_linkStart) | (apply kept_modLink) | (apply kept_foldl)
    | (apply kept_foldl_snd) | (apply kept_foldl_fst) | (apply kept_ite) | (dsimp only) | (split)

theorem kept_lctrlWrite (h_regs : ¬ K .regs) (h_free : ¬ K .free) (h_out : ¬ K .out) (h_host : ¬ K .host)
    (h_err : ¬ K .err) (h_psq : ¬ K .psq) (h_ctx : ¬ K .ctx) (h_codec : ¬ K .codec) (h_stn : ¬ K .stn)
    (h_nvm : ¬ K .nvm) (h_staySeq : ¬ K .staySeq) (h_mot : ¬ K .mot) (h_vis : ¬ K .vis) (h_net : ¬ K .net) (x0 : Nat)
    (x1 : Sys2Proof.Word) (h : Kept K a s) :
    Kept K a (lctrlWrite x0 x1 s) := by
  unfold lctrlWrite
  with_reducible repeat' first
    | (assumption) | (intro) | (apply kept_State_pb) | (apply kept_State_p) | (apply kept_sendDark)
    | (apply kept_spoilAt) | (apply kept_linkOkSync) | (apply kept_modLink) | (apply kept_linkLoss)
    | (apply kept_linkStart) | (apply kept_foldl) | (apply kept_foldl_snd) | (apply kept_foldl_fst)
    | (apply kept_ite) | (dsimp only) | (split)

theorem kept_imgWrites (h_regs : ¬ K .regs) (h_free : ¬ K .free) (h_out : ¬ K .out) (h_host : ¬ K .host)
    (h_err : ¬ K .err) (h_psq : ¬ K .psq) (h_ctx : ¬ K .ctx) (h_codec : ¬ K .codec) (h_stn : ¬ K .stn)
    (h_nvm : ¬ K .nvm) (h_staySeq : ¬ K .staySeq) (h_clk : ¬ K .clk) (h_mot : ¬ K .mot) (h_vis : ¬ K .vis)
    (h_net : ¬ K .net) (x0 : Nat) (x1 : Sys2Proof.Word) : Keeps K a (imgWrites x0 x1) := by
  unfold imgWrites
  with_reducible repeat' first
    | (assumption) | (apply keeps_cons) | (exact keeps_nil) | (apply keeps_one) | (apply keeps_many)
    | (apply keeps_if) | (intro) | (apply kept_feedSync) | (apply kept_State_plainWrite) | (apply kept_budgetWrite)
    | (apply kept_ptrimWrite) | (apply kept_posWrite) | (apply kept_lctrlWrite) | (apply kept_tableWrite)
    | (apply kept_ite) | (dsimp only) | (split)

theorem kept_hvTry (h_regs : ¬ K .regs) (h_mot : ¬ K .mot) (x0 : Nat) (h : Kept K a s) :
    Kept K a (hvTry x0 s) := by
  unfold hvTry
  with_reducible repeat' first
    | (assumption) | (intro) | (apply kept_State_pb) | (apply kept_hvGoto) | (apply kept_foldl)
    | (apply kept_foldl_snd) | (apply kept_foldl_fst) | (apply kept_ite) | (dsimp only) | (split)

theorem kept_hvGuardWrite (h_regs : ¬ K .regs) (h_mot : ¬ K .mot) (x0 : Nat) (x1 : Sys2Proof.Word) (h : Kept K a s) :
    Kept K a (hvGuardWrite x0 x1 s) := by
  unfold hvGuardWrite
  with_reducible repeat' first
    | (assumption) | (intro) | (apply kept_hvTry) | (apply kept_State_plainWrite) | (apply kept_foldl)
    | (apply kept_foldl_snd) | (apply kept_foldl_fst) | (apply kept_ite) | (dsimp only) | (split)

theorem kept_hvBandWrite (h_regs : ¬ K .regs) (x0 : Nat) (x1 : Sys2Proof.Word) (h : Kept K a s) :
    Kept K a (hvBandWrite x0 x1 s) := by
  unfold hvBandWrite
  with_reducible repeat' first
    | (assumption) | (intro) | (apply kept_State_plainWrite) | (apply kept_State_pb) | (apply kept_foldl)
    | (apply kept_foldl_snd) | (apply kept_foldl_fst) | (apply kept_ite) | (dsimp only) | (split)

theorem kept_htCtrlWrite (h_regs : ¬ K .regs) (h_out : ¬ K .out) (h_mot : ¬ K .mot) (x0 : Nat) (x1 : Sys2Proof.Word)
    (h : Kept K a s) :
    Kept K a (htCtrlWrite x0 x1 s) := by
  unfold htCtrlWrite
  with_reducible repeat' first
    | (assumption) | (intro) | (apply kept_State_p) | (apply kept_State_pb) | (apply kept_gateLow)
    | (apply kept_foldl) | (apply kept_foldl_snd) | (apply kept_foldl_fst) | (apply kept_ite) | (dsimp only)
    | (split)

theorem kept_regCtrlWrite (h_regs : ¬ K .regs) (x0 : Sys2Proof.Word) (h : Kept K a s) :
    Kept K a (regCtrlWrite x0 s) := by
  unfold regCtrlWrite
  with_reducible repeat' first
    | (assumption) | (intro) | (apply kept_State_plainWrite) | (apply kept_foldl) | (apply kept_foldl_snd)
    | (apply kept_foldl_fst) | (apply kept_ite) | (dsimp only) | (split)

theorem kept_regGainWrite (h_regs : ¬ K .regs) (x0 : Sys2Proof.Word) (h : Kept K a s) :
    Kept K a (regGainWrite x0 s) := by
  unfold regGainWrite
  with_reducible repeat' first
    | (assumption) | (intro) | (apply kept_State_plainWrite) | (apply kept_foldl) | (apply kept_foldl_snd)
    | (apply kept_foldl_fst) | (apply kept_ite) | (dsimp only) | (split)

theorem kept_stateGuard (h_regs : ¬ K .regs) (x0 : Nat) (x1 : State → State) (hf_x1 : ∀  t, Kept K a t → Kept K a (x1
     t)) (h : Kept K a s) :
    Kept K a (stateGuard x0 x1 s) := by
  unfold stateGuard
  with_reducible repeat' first
    | (assumption) | (intro) | (apply hf_x1) | (apply kept_State_pb) | (apply kept_foldl) | (apply kept_foldl_snd)
    | (apply kept_foldl_fst) | (apply kept_ite) | (dsimp only) | (split)

theorem kept_lowHalf (h_mot : ¬ K .mot) (x0 : Nat) (x1 : Sys2Proof.Word) (h : Kept K a s) :
    Kept K a (lowHalf x0 x1 s) := by
  unfold lowHalf
  with_reducible repeat' first
    | (assumption) | (intro) | (apply kept_setCe) | (apply kept_foldl) | (apply kept_foldl_snd)
    | (apply kept_foldl_fst) | (apply kept_ite) | (dsimp only) | (split)

theorem kept_stateLowWrite (h_regs : ¬ K .regs) (h_mot : ¬ K .mot) (x0 : Nat) (x1 : Sys2Proof.Word) (h : Kept K a s) :
    Kept K a (stateLowWrite x0 x1 s) := by
  unfold stateLowWrite
  with_reducible repeat' first
    | (assumption) | (intro) | (apply kept_stateGuard) | (apply kept_lowHalf) | (apply kept_foldl)
    | (apply kept_foldl_snd) | (apply kept_foldl_fst) | (apply kept_ite) | (dsimp only) | (split)

theorem kept_progGuard (h_regs : ¬ K .regs) (x0 : Nat) (x1 : State → State) (hf_x1 : ∀  t, Kept K a t → Kept K a (x1
    t)) (h : Kept K a s) :
    Kept K a (progGuard x0 x1 s) := by
  unfold progGuard
  with_reducible repeat' first
    | (assumption) | (intro) | (apply hf_x1) | (apply kept_State_pb) | (apply kept_foldl) | (apply kept_foldl_snd)
    | (apply kept_foldl_fst) | (apply kept_ite) | (dsimp only) | (split)

theorem kept_lowTaken (h_mot : ¬ K .mot) (x0 : Nat) (h : Kept K a s) :
    Kept K a (lowTaken x0 s) := by
  unfold lowTaken
  with_reducible repeat' first
    | (assumption) | (intro) | (apply kept_setCe) | (apply kept_foldl) | (apply kept_foldl_snd)
    | (apply kept_foldl_fst) | (apply kept_ite) | (dsimp only) | (split)

theorem kept_progWrite (h_regs : ¬ K .regs) (h_mot : ¬ K .mot) (x0 : Nat) (x1 : Sys2Proof.Word) (h : Kept K a s) :
    Kept K a (progWrite x0 x1 s) := by
  unfold progWrite
  with_reducible repeat' first
    | (assumption) | (intro) | (apply kept_progGuard) | (apply kept_lowTaken) | (apply kept_State_setReg)
    | (apply kept_foldl) | (apply kept_foldl_snd) | (apply kept_foldl_fst) | (apply kept_ite) | (dsimp only)
    | (split)

theorem kept_putState (h_regs : ¬ K .regs) (x0 : Nat) (x1 : Int) (h : Kept K a s) :
    Kept K a (putState x0 x1 s) := by
  unfold putState
  with_reducible repeat' first
    | (assumption) | (intro) | (apply kept_State_setReg) | (apply kept_foldl) | (apply kept_foldl_snd)
    | (apply kept_foldl_fst) | (apply kept_ite) | (dsimp only) | (split)

theorem kept_stateWrite (h_regs : ¬ K .regs) (h_mot : ¬ K .mot) (x0 : Nat) (x1 : Sys2Proof.Word) (h : Kept K a s) :
    Kept K a (stateWrite x0 x1 s) := by
  unfold stateWrite
  with_reducible repeat' first
    | (assumption) | (intro) | (apply kept_stateGuard) | (apply kept_lowTaken) | (apply kept_putState)
    | (apply kept_foldl) | (apply kept_foldl_snd) | (apply kept_foldl_fst) | (apply kept_ite) | (dsimp only)
    | (split)

theorem kept_wideWrite (h_regs : ¬ K .regs) (h_mot : ¬ K .mot) (x0 : Bool) (x1 : Nat) (x2 : Sys2Proof.Word)
    (h : Kept K a s) :
    Kept K a (wideWrite x0 x1 x2 s) := by
  unfold wideWrite
  with_reducible repeat' first
    | (assumption) | (intro) | (apply kept_progWrite) | (apply kept_stateWrite) | (apply kept_foldl)
    | (apply kept_foldl_snd) | (apply kept_foldl_fst) | (apply kept_ite) | (dsimp only) | (split)

theorem kept_hvHold (h_regs : ¬ K .regs) (h_mot : ¬ K .mot) (x0 : Nat) (x1 : Sys2Proof.Word) (h : Kept K a s) :
    Kept K a (hvHold x0 x1 s) := by
  unfold hvHold
  with_reducible repeat' first
    | (assumption) | (intro) | (apply kept_State_p) | (apply kept_hvGoto) | (apply kept_hvTry) | (apply kept_foldl)
    | (apply kept_foldl_snd) | (apply kept_foldl_fst) | (apply kept_ite) | (dsimp only) | (split)

theorem kept_hvMode (h_regs : ¬ K .regs) (x0 : Nat) (x1 : Sys2Proof.Word) (h : Kept K a s) :
    Kept K a (hvMode x0 x1 s) := by
  unfold hvMode
  with_reducible repeat' first
    | (assumption) | (intro) | (apply kept_State_p) | (apply kept_State_pb) | (apply kept_foldl)
    | (apply kept_foldl_snd) | (apply kept_foldl_fst) | (apply kept_ite) | (dsimp only) | (split)

theorem kept_hvClear (h_regs : ¬ K .regs) (x0 : Nat) (h : Kept K a s) :
    Kept K a (hvClear x0 s) := by
  unfold hvClear
  with_reducible repeat' first
    | (assumption) | (intro) | (apply kept_State_pb) | (apply kept_State_p) | (apply kept_foldl)
    | (apply kept_foldl_snd) | (apply kept_foldl_fst) | (apply kept_ite) | (dsimp only) | (split)

theorem kept_hvCtrlWrite (h_regs : ¬ K .regs) (h_mot : ¬ K .mot) (x0 : Nat) (x1 : Sys2Proof.Word) (h : Kept K a s) :
    Kept K a (hvCtrlWrite x0 x1 s) := by
  unfold hvCtrlWrite
  with_reducible repeat' first
    | (assumption) | (intro) | (apply kept_hvHold) | (apply kept_hvMode) | (apply kept_hvClear) | (apply kept_hvTry)
    | (apply kept_State_pb) | (apply kept_hvOff) | (apply kept_foldl) | (apply kept_foldl_snd)
    | (apply kept_foldl_fst) | (apply kept_ite) | (dsimp only) | (split)

theorem kept_ceSync (h_regs : ¬ K .regs)  (h : Kept K a s) :
    Kept K a (ceSync s) := by
  unfold ceSync
  with_reducible repeat' first
    | (assumption) | (intro) | (apply kept_overN) | (apply kept_State_pb) | (apply kept_State_p) | (apply kept_foldl)
    | (apply kept_foldl_snd) | (apply kept_foldl_fst) | (apply kept_ite) | (dsimp only) | (split)

theorem kept_lpDisable (h_regs : ¬ K .regs) (h_mot : ¬ K .mot) (x0 : Nat) (h : Kept K a s) :
    Kept K a (lpDisable x0 s) := by
  unfold lpDisable
  with_reducible repeat' first
    | (assumption) | (intro) | (apply kept_ceSync) | (apply kept_setCe) | (apply kept_State_pb) | (apply kept_foldl)
    | (apply kept_foldl_snd) | (apply kept_foldl_fst) | (apply kept_ite) | (dsimp only) | (split)

theorem kept_lpCfgWrite (h_regs : ¬ K .regs) (h_mot : ¬ K .mot) (x0 : Nat) (x1 : Sys2Proof.Word) (h : Kept K a s) :
    Kept K a (lpCfgWrite x0 x1 s) := by
  unfold lpCfgWrite
  with_reducible repeat' first
    | (assumption) | (intro) | (apply kept_State_pb) | (apply kept_lpDisable) | (apply kept_State_p)
    | (apply kept_ceSync) | (apply kept_foldl) | (apply kept_foldl_snd) | (apply kept_foldl_fst) | (apply kept_ite)
    | (split) | (dsimp only)

theorem kept_tuClearBuf (h_regs : ¬ K .regs) (x0 : Nat) (h : Kept K a s) :
    Kept K a (tuClearBuf x0 s) := by
  unfold tuClearBuf
  with_reducible repeat' first
    | (assumption) | (intro) | (apply kept_State_resetRegs) | (apply kept_foldl) | (apply kept_foldl_snd)
    | (apply kept_foldl_fst) | (apply kept_ite) | (dsimp only) | (split)

theorem kept_modTu (h_mot : ¬ K .mot) (x0 : Nat) (x1 : Tu → Tu) (h : Kept K a s) :
    Kept K a (modTu x0 x1 s) := by
  unfold modTu
  with_reducible repeat' first
    | (assumption) | (intro) | (apply kept_setCe) | (apply kept_foldl) | (apply kept_foldl_snd)
    | (apply kept_foldl_fst) | (apply kept_ite) | (dsimp only) | (split)

theorem kept_tuCfgWrite (h_regs : ¬ K .regs) (h_mot : ¬ K .mot) (x0 : Nat) (x1 : Sys2Proof.Word) (h : Kept K a s) :
    Kept K a (tuCfgWrite x0 x1 s) := by
  unfold tuCfgWrite
  with_reducible repeat' first
    | (assumption) | (intro) | (apply kept_State_pb) | (apply kept_State_p) | (apply kept_tuClearBuf)
    | (apply kept_modTu) | (apply kept_ceSync) | (apply kept_foldl) | (apply kept_foldl_snd) | (apply kept_foldl_fst)
    | (apply kept_ite) | (dsimp only) | (split)

theorem kept_tuRegWrite (h_regs : ¬ K .regs) (x0 : Nat) (x1 : Nat) (x2 : Sys2Proof.Word) (h : Kept K a s) :
    Kept K a (tuRegWrite x0 x1 x2 s) := by
  unfold tuRegWrite
  with_reducible repeat' first
    | (assumption) | (intro) | (apply kept_State_pb) | (apply kept_State_plainWrite) | (apply kept_foldl)
    | (apply kept_foldl_snd) | (apply kept_foldl_fst) | (apply kept_ite) | (dsimp only) | (split)

theorem kept_progLowWrite (h_regs : ¬ K .regs) (h_mot : ¬ K .mot) (x0 : Nat) (x1 : Sys2Proof.Word) (h : Kept K a s) :
    Kept K a (progLowWrite x0 x1 s) := by
  unfold progLowWrite
  with_reducible repeat' first
    | (assumption) | (intro) | (apply kept_progGuard) | (apply kept_lowHalf) | (apply kept_foldl)
    | (apply kept_foldl_snd) | (apply kept_foldl_fst) | (apply kept_ite) | (dsimp only) | (split)

theorem kept_ceCtrlWrite (h_regs : ¬ K .regs) (h_mot : ¬ K .mot) (x0 : Sys2Proof.Word) (h : Kept K a s) :
    Kept K a (ceCtrlWrite x0 s) := by
  unfold ceCtrlWrite
  with_reducible repeat' first
    | (assumption) | (intro) | (apply kept_State_p) | (apply kept_State_pb) | (apply kept_setCe) | (apply kept_foldl)
    | (apply kept_foldl_snd) | (apply kept_foldl_fst) | (apply kept_ite) | (dsimp only) | (split)

theorem kept_tbWrite (h_regs : ¬ K .regs) (x0 : Nat) (x1 : Nat) (x2 : Sys2Proof.Word) (h : Kept K a s) :
    Kept K a (tbWrite x0 x1 x2 s) := by
  unfold tbWrite
  with_reducible repeat' first
    | (assumption) | (intro) | (apply kept_State_pb) | (apply kept_State_plainWrite) | (apply kept_foldl)
    | (apply kept_foldl_snd) | (apply kept_foldl_fst) | (apply kept_ite) | (dsimp only) | (split)

theorem kept_axOffWrite (h_regs : ¬ K .regs) (x0 : Nat) (x1 : Nat) (x2 : Sys2Proof.Word) (h : Kept K a s) :
    Kept K a (axOffWrite x0 x1 x2 s) := by
  unfold axOffWrite
  with_reducible repeat' first
    | (assumption) | (intro) | (apply kept_State_plainWrite) | (apply kept_State_pb) | (apply kept_foldl)
    | (apply kept_foldl_snd) | (apply kept_foldl_fst) | (apply kept_ite) | (dsimp only) | (split)

theorem kept_mresWait (h_mot : ¬ K .mot) (x0 : Nat) (x1 : Nat) (h : Kept K a s) :
    Kept K a (mresWait x0 x1 s) := by
  unfold mresWait
  with_reducible repeat' first
    | (assumption) | (intro) | (apply kept_modAx) | (apply kept_foldl) | (apply kept_foldl_snd)
    | (apply kept_foldl_fst) | (apply kept_ite) | (dsimp only) | (split)

theorem kept_axMresWrite (h_regs : ¬ K .regs) (h_mot : ¬ K .mot) (x0 : Nat) (x1 : Sys2Proof.Word) (h : Kept K a s) :
    Kept K a (axMresWrite x0 x1 s) := by
  unfold axMresWrite
  with_reducible repeat' first
    | (assumption) | (intro) | (apply kept_mresWait) | (apply kept_State_plainWrite) | (apply kept_foldl)
    | (apply kept_foldl_snd) | (apply kept_foldl_fst) | (apply kept_ite) | (dsimp only) | (split)

theorem kept_axSettle (h_regs : ¬ K .regs) (h_out : ¬ K .out) (h_mot : ¬ K .mot) (x0 : Nat) (h : Kept K a s) :
    Kept K a (axSettle x0 s) := by
  unfold axSettle
  with_reducible repeat' first
    | (assumption) | (intro) | (apply kept_axMoveEnd) | (apply kept_foldl) | (apply kept_foldl_snd)
    | (apply kept_foldl_fst) | (apply kept_ite) | (dsimp only) | (split)

theorem kept_axProfileWrite (h_regs : ¬ K .regs) (h_out : ¬ K .out) (h_mot : ¬ K .mot) (x0 : Nat) (x1 : Nat) (x2 :
    Sys2Proof.Word) (h : Kept K a s) :
    Kept K a (axProfileWrite x0 x1 x2 s) := by
  unfold axProfileWrite
  with_reducible repeat' first
    | (assumption) | (intro) | (apply kept_axSettle) | (apply kept_axResult) | (apply kept_State_setReg)
    | (apply kept_State_pb) | (apply kept_foldl) | (apply kept_foldl_snd) | (apply kept_foldl_fst) | (apply kept_ite)
    | (dsimp only) | (split)

theorem kept_mcHeldWrite (h_regs : ¬ K .regs) (x0 : Nat) (x1 : Nat) (x2 : Sys2Proof.Word) (h : Kept K a s) :
    Kept K a (mcHeldWrite x0 x1 x2 s) := by
  unfold mcHeldWrite
  with_reducible repeat' first
    | (assumption) | (intro) | (apply kept_State_pb) | (apply kept_State_plainWrite) | (apply kept_foldl)
    | (apply kept_foldl_snd) | (apply kept_foldl_fst) | (apply kept_ite) | (dsimp only) | (split)

theorem kept_setpWrite (h_regs : ¬ K .regs) (x0 : Nat) (x1 : Sys2Proof.Word) (h : Kept K a s) :
    Kept K a (setpWrite x0 x1 s) := by
  unfold setpWrite
  with_reducible repeat' first
    | (assumption) | (intro) | (apply kept_State_plainWrite) | (apply kept_foldl) | (apply kept_foldl_snd)
    | (apply kept_foldl_fst) | (apply kept_ite) | (dsimp only) | (split)

theorem kept_setCmd (h_mot : ¬ K .mot) (x0 : Nat) (x1 : CmdU) (h : Kept K a s) :
    Kept K a (setCmd x0 x1 s) := by
  unfold setCmd
  with_reducible repeat' first
    | (assumption) | (intro) | (apply kept_foldl) | (apply kept_foldl_snd) | (apply kept_foldl_fst)
    | (apply kept_ite) | (dsimp only) | (split) | (refine kept_mk ?_ (r_mot := (absurd · h_mot)))

theorem kept_cmdCfgWrite (h_regs : ¬ K .regs) (h_mot : ¬ K .mot) (x0 : Nat) (x1 : Sys2Proof.Word) (h : Kept K a s) :
    Kept K a (cmdCfgWrite x0 x1 s) := by
  unfold cmdCfgWrite
  with_reducible repeat' first
    | (assumption) | (intro) | (apply kept_State_plainWrite) | (apply kept_setCmd) | (apply kept_State_p)
    | (apply kept_foldl) | (apply kept_foldl_snd) | (apply kept_foldl_fst) | (apply kept_ite) | (dsimp only)
    | (split)

theorem kept_membersSync (h_regs : ¬ K .regs)  (h : Kept K a s) :
    Kept K a (membersSync s) := by
  unfold membersSync
  with_reducible repeat' first
    | (assumption) | (intro) | (apply kept_overN) | (apply kept_State_p) | (apply kept_foldl)
    | (apply kept_foldl_snd) | (apply kept_foldl_fst) | (apply kept_ite) | (dsimp only) | (split)

theorem kept_axFields (h_regs : ¬ K .regs) (x0 : Nat) (x1 : Sys2Proof.Word) (h : Kept K a s) :
    Kept K a (axFields x0 x1 s) := by
  unfold axFields
  with_reducible repeat' first
    | (assumption) | (intro) | (apply kept_State_p) | (apply kept_State_pb) | (apply kept_foldl)
    | (apply kept_foldl_snd) | (apply kept_foldl_fst) | (apply kept_ite) | (dsimp only) | (split)

theorem kept_eposSync (h_regs : ¬ K .regs) (x0 : Nat) (h : Kept K a s) :
    Kept K a (eposSync x0 s) := by
  unfold eposSync
  with_reducible repeat' first
    | (assumption) | (intro) | (apply kept_State_setReg) | (apply kept_foldl) | (apply kept_foldl_snd)
    | (apply kept_foldl_fst) | (apply kept_ite) | (dsimp only) | (split)

theorem kept_encAlign (h_regs : ¬ K .regs) (h_mot : ¬ K .mot) (x0 : Nat) (h : Kept K a s) :
    Kept K a (encAlign x0 s) := by
  unfold encAlign
  with_reducible repeat' first
    | (assumption) | (intro) | (apply kept_eposSync) | (apply kept_modAx) | (apply kept_foldl)
    | (apply kept_foldl_snd) | (apply kept_foldl_fst) | (apply kept_ite) | (dsimp only) | (split)

theorem kept_axClear (h_regs : ¬ K .regs) (h_mot : ¬ K .mot) (x0 : Nat) (h : Kept K a s) :
    Kept K a (axClear x0 s) := by
  unfold axClear
  with_reducible repeat' first
    | (assumption) | (intro) | (apply kept_encAlign) | (apply kept_State_pb) | (apply kept_State_p)
    | (apply kept_foldl) | (apply kept_foldl_snd) | (apply kept_foldl_fst) | (apply kept_ite) | (dsimp only)
    | (split)

theorem kept_axEnable (h_regs : ¬ K .regs) (h_mot : ¬ K .mot) (x0 : Nat) (h : Kept K a s) :
    Kept K a (axEnable x0 s) := by
  unfold axEnable
  with_reducible repeat' first
    | (assumption) | (intro) | (apply kept_State_p) | (apply kept_State_pb) | (apply kept_mresWait)
    | (apply kept_modAx) | (apply kept_encAlign) | (apply kept_foldl) | (apply kept_foldl_snd)
    | (apply kept_foldl_fst) | (apply kept_ite) | (dsimp only) | (split)

theorem kept_axStop (h_regs : ¬ K .regs) (h_out : ¬ K .out) (h_mot : ¬ K .mot) (x0 : Nat) (h : Kept K a s) :
    Kept K a (axStop x0 s) := by
  unfold axStop
  with_reducible repeat' first
    | (assumption) | (intro) | (apply kept_modAx) | (apply kept_agStop) | (apply kept_State_pb)
    | (apply kept_axUnwind) | (apply kept_axReplay) | (apply kept_axEndMove) | (apply kept_State_p)
    | (apply kept_foldl) | (apply kept_foldl_snd) | (apply kept_foldl_fst) | (apply kept_ite) | (dsimp only)
    | (split)

theorem kept_axDisable (h_regs : ¬ K .regs) (h_out : ¬ K .out) (h_mot : ¬ K .mot) (x0 : Nat) (h : Kept K a s) :
    Kept K a (axDisable x0 s) := by
  unfold axDisable
  with_reducible repeat' first
    | (assumption) | (intro) | (apply kept_axStop) | (apply kept_modAx) | (apply kept_State_p)
    | (apply kept_State_pb) | (apply kept_foldl) | (apply kept_foldl_snd) | (apply kept_foldl_fst) | (apply kept_ite)
    | (dsimp only) | (split)

theorem kept_axStart (h_regs : ¬ K .regs) (h_mot : ¬ K .mot) (x0 : Nat) (h : Kept K a s) :
    Kept K a (axStart x0 s) := by
  unfold axStart
  with_reducible repeat' first
    | (assumption) | (intro) | (apply kept_axBegin) | (apply kept_foldl) | (apply kept_foldl_snd)
    | (apply kept_foldl_fst) | (apply kept_ite) | (dsimp only) | (split)

theorem kept_axGo (h_regs : ¬ K .regs) (h_mot : ¬ K .mot) (x0 : Nat) (h : Kept K a s) :
    Kept K a (axGo x0 s) := by
  unfold axGo
  with_reducible repeat' first
    | (assumption) | (intro) | (apply kept_axResult) | (apply kept_modAx) | (apply kept_State_p)
    | (apply kept_axStart) | (apply kept_foldl) | (apply kept_foldl_snd) | (apply kept_foldl_fst) | (apply kept_ite)
    | (dsimp only) | (split)

theorem kept_axCtrlWrite (h_regs : ¬ K .regs) (h_out : ¬ K .out) (h_mot : ¬ K .mot) (x0 : Nat) (x1 : Sys2Proof.Word)
    (h : Kept K a s) :
    Kept K a (axCtrlWrite x0 x1 s) := by
  unfold axCtrlWrite
  with_reducible repeat' first
    | (assumption) | (intro) | (apply kept_axSettle) | (apply kept_State_pb) | (apply kept_membersSync)
    | (apply kept_axFields) | (apply kept_axClear) | (apply kept_axEnable) | (apply kept_axDisable)
    | (apply kept_axStop) | (apply kept_axGo) | (apply kept_foldl) | (apply kept_foldl_snd) | (apply kept_foldl_fst)
    | (apply kept_ite) | (dsimp only) | (split)

theorem kept_axTargetWrite (h_regs : ¬ K .regs) (h_out : ¬ K .out) (h_mot : ¬ K .mot) (x0 : Nat) (x1 :
    Sys2Proof.Word) (h : Kept K a s) :
    Kept K a (axTargetWrite x0 x1 s) := by
  unfold axTargetWrite
  with_reducible repeat' first
    | (assumption) | (intro) | (apply kept_axSettle) | (apply kept_axTargetPut) | (apply kept_modAx)
    | (apply kept_foldl) | (apply kept_foldl_snd) | (apply kept_foldl_fst) | (apply kept_ite) | (dsimp only)
    | (split)

theorem kept_mcFault (h_regs : ¬ K .regs) (h_free : ¬ K .free) (h_out : ¬ K .out) (h_host : ¬ K .host)
    (h_err : ¬ K .err) (h_psq : ¬ K .psq) (h_ctx : ¬ K .ctx) (h_codec : ¬ K .codec) (h_stn : ¬ K .stn)
    (h_nvm : ¬ K .nvm) (h_staySeq : ¬ K .staySeq) (h_mot : ¬ K .mot) (h_vis : ¬ K .vis) (h_net : ¬ K .net) (x0 : Nat)
    (x1 : Nat) (h : Kept K a s) :
    Kept K a (mcFault x0 x1 s) := by
  unfold mcFault
  with_reducible repeat' first
    | (assumption) | (intro) | (apply kept_modMc) | (apply kept_State_p) | (apply kept_State_event)
    | (apply kept_loseLock) | (apply kept_State_inc) | (apply kept_raise) | (apply kept_foldl)
    | (apply kept_foldl_snd) | (apply kept_foldl_fst) | (apply kept_ite) | (dsimp only) | (split)

theorem kept_mcClear (h_regs : ¬ K .regs) (h_free : ¬ K .free) (h_out : ¬ K .out) (h_host : ¬ K .host)
    (h_err : ¬ K .err) (h_psq : ¬ K .psq) (h_ctx : ¬ K .ctx) (h_codec : ¬ K .codec) (h_stn : ¬ K .stn)
    (h_nvm : ¬ K .nvm) (h_staySeq : ¬ K .staySeq) (h_mot : ¬ K .mot) (h_vis : ¬ K .vis) (h_net : ¬ K .net) (x0 : Nat)
    (h : Kept K a s) :
    Kept K a (mcClear x0 s) := by
  unfold mcClear
  with_reducible repeat' first
    | (assumption) | (intro) | (apply kept_State_pb) | (apply kept_mcOff) | (apply kept_mcFault) | (apply kept_foldl)
    | (apply kept_foldl_snd) | (apply kept_foldl_fst) | (apply kept_ite) | (dsimp only) | (split)

theorem kept_mcFields (h_regs : ¬ K .regs) (x0 : Nat) (x1 : Sys2Proof.Word) (h : Kept K a s) :
    Kept K a (mcFields x0 x1 s) := by
  unfold mcFields
  with_reducible repeat' first
    | (assumption) | (intro) | (apply kept_State_p) | (apply kept_foldl) | (apply kept_foldl_snd)
    | (apply kept_foldl_fst) | (apply kept_ite) | (dsimp only) | (split)

theorem kept_mcTake (h_mot : ¬ K .mot) (x0 : Nat) (h : Kept K a s) :
    Kept K a (mcTake x0 s) := by
  unfold mcTake
  with_reducible repeat' first
    | (assumption) | (intro) | (apply kept_modMc) | (apply kept_foldl) | (apply kept_foldl_snd)
    | (apply kept_foldl_fst) | (apply kept_ite) | (dsimp only) | (split)

theorem kept_mcStart (h_regs : ¬ K .regs) (h_mot : ¬ K .mot) (x0 : Nat) (h : Kept K a s) :
    Kept K a (mcStart x0 s) := by
  unfold mcStart
  with_reducible repeat' first
    | (assumption) | (intro) | (apply kept_mcTake) | (apply kept_modMc) | (apply kept_State_p) | (apply kept_foldl)
    | (apply kept_foldl_snd) | (apply kept_foldl_fst) | (apply kept_ite) | (dsimp only) | (split)

theorem kept_mcCtrlWrite (h_regs : ¬ K .regs) (h_free : ¬ K .free) (h_out : ¬ K .out) (h_host : ¬ K .host)
    (h_err : ¬ K .err) (h_psq : ¬ K .psq) (h_ctx : ¬ K .ctx) (h_codec : ¬ K .codec) (h_stn : ¬ K .stn)
    (h_nvm : ¬ K .nvm) (h_staySeq : ¬ K .staySeq) (h_mot : ¬ K .mot) (h_vis : ¬ K .vis) (h_net : ¬ K .net) (x0 : Nat)
    (x1 : Sys2Proof.Word) (h : Kept K a s) :
    Kept K a (mcCtrlWrite x0 x1 s) := by
  unfold mcCtrlWrite
  with_reducible repeat' first
    | (assumption) | (intro) | (apply kept_State_pb) | (apply kept_mcClear) | (apply kept_mcFields)
    | (apply kept_mcStart) | (apply kept_mcStop) | (apply kept_mcOff) | (apply kept_foldl) | (apply kept_foldl_snd)
    | (apply kept_foldl_fst) | (apply kept_ite) | (dsimp only) | (split)

theorem kept_mcPwmWrite (h_regs : ¬ K .regs) (x0 : Nat) (x1 : Sys2Proof.Word) (h : Kept K a s) :
    Kept K a (mcPwmWrite x0 x1 s) := by
  unfold mcPwmWrite
  with_reducible repeat' first
    | (assumption) | (intro) | (apply kept_State_pb) | (apply kept_mcHeldWrite) | (apply kept_foldl)
    | (apply kept_foldl_snd) | (apply kept_foldl_fst) | (apply kept_ite) | (dsimp only) | (split)

theorem kept_motWrites (h_regs : ¬ K .regs) (h_free : ¬ K .free) (h_out : ¬ K .out) (h_host : ¬ K .host)
    (h_err : ¬ K .err) (h_psq : ¬ K .psq) (h_ctx : ¬ K .ctx) (h_codec : ¬ K .codec) (h_stn : ¬ K .stn)
    (h_nvm : ¬ K .nvm) (h_staySeq : ¬ K .staySeq) (h_mot : ¬ K .mot) (h_vis : ¬ K .vis) (h_net : ¬ K .net) (x0 : Nat)
    (x1 : Sys2Proof.Word) : Keeps K a (motWrites x0 x1) := by
  unfold motWrites
  with_reducible repeat' first
    | (assumption) | (apply keeps_cons) | (exact keeps_nil) | (apply keeps_one) | (apply keeps_many)
    | (apply keeps_if) | (intro) | (apply kept_hvGuardWrite) | (apply kept_hvBandWrite) | (apply kept_htCtrlWrite)
    | (apply kept_windowWrite) | (apply kept_regCtrlWrite) | (apply kept_regGainWrite) | (apply kept_stateLowWrite)
    | (apply kept_wideWrite) | (apply kept_coefWrite) | (apply kept_nodeWrite) | (apply kept_hvCtrlWrite)
    | (apply kept_lpCfgWrite) | (apply kept_tuCfgWrite) | (apply kept_tuRegWrite) | (apply kept_progLowWrite)
    | (apply kept_agProfileWrite) | (apply kept_ceCtrlWrite) | (apply kept_tbWrite) | (apply kept_axOffWrite)
    | (apply kept_axMresWrite) | (apply kept_agCtrlWrite) | (apply kept_axProfileWrite) | (apply kept_mcHeldWrite)
    | (apply kept_setpWrite) | (apply kept_cmdCfgWrite) | (apply kept_axCtrlWrite) | (apply kept_axTargetWrite)
    | (apply kept_mcCtrlWrite) | (apply kept_mcPwmWrite) | (apply kept_ite) | (dsimp only) | (split)

theorem kept_regWrite (h_regs : ¬ K .regs) (h_mem : ¬ K .mem) (h_free : ¬ K .free) (h_out : ¬ K .out)
    (h_host : ¬ K .host) (h_err : ¬ K .err) (h_psq : ¬ K .psq) (h_ctx : ¬ K .ctx) (h_codec : ¬ K .codec)
    (h_stn : ¬ K .stn) (h_nvm : ¬ K .nvm) (h_staySeq : ¬ K .staySeq) (h_dram : ¬ K .dram) (h_clk : ¬ K .clk)
    (h_mon : ¬ K .mon) (h_rig : ¬ K .rig) (h_mot : ¬ K .mot) (h_pwr : ¬ K .pwr) (h_vis : ¬ K .vis) (h_net : ¬ K .net)
    (h_dma : ¬ K .dma) (x0 : Nat) (x1 : Sys2Proof.Word) (h : Kept K a s) :
    Kept K a (regWrite x0 x1 s) := by
  unfold regWrite
  with_reducible repeat' first
    | (assumption) | (intro) | (apply kept_first) | (apply kept_State_plainWrite) | (apply kept_foldl)
    | (apply kept_foldl_snd) | (apply kept_foldl_fst) | (apply kept_ite) | (dsimp only) | (split)
    | (refine keeps_apply (keeps_cons (kept_infWrites h_regs h_free h_out h_host h_err h_psq h_ctx h_codec h_stn
        h_nvm h_staySeq h_clk h_mon h_rig h_mot h_pwr h_vis h_net _ _) (keeps_cons (kept_memWrites h_regs h_mem
        h_free h_out h_host h_err h_stn h_nvm h_staySeq h_dram h_mot h_net h_dma _ _) (keeps_cons (kept_hntWrites
        h_regs h_out h_host h_ctx h_net _ _) (keeps_cons (kept_imgWrites h_regs h_free h_out h_host h_err h_psq h_ctx
        h_codec h_stn h_nvm h_staySeq h_clk h_mot h_vis h_net _ _) (keeps_cons (kept_motWrites h_regs h_free h_out
        h_host h_err h_psq h_ctx h_codec h_stn h_nvm h_staySeq h_mot h_vis h_net _ _) keeps_nil))))) (by assumption)
        ?_)

theorem kept_preset (h_regs : ¬ K .regs) (h_mem : ¬ K .mem) (h_free : ¬ K .free) (h_out : ¬ K .out)
    (h_host : ¬ K .host) (h_err : ¬ K .err) (h_psq : ¬ K .psq) (h_ctx : ¬ K .ctx) (h_codec : ¬ K .codec)
    (h_stn : ¬ K .stn) (h_nvm : ¬ K .nvm) (h_staySeq : ¬ K .staySeq) (h_dram : ¬ K .dram) (h_clk : ¬ K .clk)
    (h_mon : ¬ K .mon) (h_rig : ¬ K .rig) (h_mot : ¬ K .mot) (h_pwr : ¬ K .pwr) (h_vis : ¬ K .vis) (h_net : ¬ K .net)
    (h_dma : ¬ K .dma) (x0 : Nat × Nat) (h : Kept K a s) :
    Kept K a (preset x0 s) := by
  unfold preset
  with_reducible repeat' first
    | (assumption) | (intro) | (apply kept_regWrite) | (apply kept_foldl) | (apply kept_foldl_snd)
    | (apply kept_foldl_fst) | (apply kept_ite) | (dsimp only) | (split)

theorem kept_railRise (h_regs : ¬ K .regs) (h_pwr : ¬ K .pwr) (x0 : Nat) (h : Kept K a s) :
    Kept K a (railRise x0 s) := by
  unfold railRise
  with_reducible repeat' first
    | (assumption) | (intro) | (apply kept_setPwr) | (apply kept_State_pb) | (apply kept_foldl)
    | (apply kept_foldl_snd) | (apply kept_foldl_fst) | (apply kept_ite) | (dsimp only) | (split)

theorem kept_railDrop (h_regs : ¬ K .regs) (h_pwr : ¬ K .pwr) (x0 : Nat) (h : Kept K a s) :
    Kept K a (railDrop x0 s) := by
  unfold railDrop
  with_reducible repeat' first
    | (assumption) | (intro) | (apply kept_State_pb) | (apply kept_setPwr) | (apply kept_State_inc)
    | (apply kept_foldl) | (apply kept_foldl_snd) | (apply kept_foldl_fst) | (apply kept_ite) | (dsimp only)
    | (split)

theorem kept_pgSync (h_regs : ¬ K .regs) (h_pwr : ¬ K .pwr) (x0 : Nat) (h : Kept K a s) :
    Kept K a (pgSync x0 s) := by
  unfold pgSync
  with_reducible repeat' first
    | (assumption) | (intro) | (apply kept_State_pb) | (apply kept_railRise) | (apply kept_railDrop)
    | (apply kept_foldl) | (apply kept_foldl_snd) | (apply kept_foldl_fst) | (apply kept_ite) | (dsimp only)
    | (split)

theorem kept_startTraining (h_regs : ¬ K .regs) (h_mem : ¬ K .mem) (h_dram : ¬ K .dram)  (h : Kept K a s) :
    Kept K a (startTraining s) := by
  unfold startTraining
  with_reducible repeat' first
    | (assumption) | (intro) | (apply kept_State_p) | (apply kept_setDdr) | (apply kept_State_pb)
    | (apply kept_scrubSync) | (apply kept_foldl) | (apply kept_foldl_snd) | (apply kept_foldl_fst)
    | (apply kept_ite) | (dsimp only) | (split) | (refine kept_memDram h_mem h_dram _ _ (fun _ => rfl) ?_)
    | (refine kept_mk ?_ (r_dram := (absurd · h_dram)))

theorem kept_trainClocked (h_regs : ¬ K .regs) (h_mem : ¬ K .mem) (h_dram : ¬ K .dram)  (h : Kept K a s) :
    Kept K a (trainClocked s) := by
  unfold trainClocked
  with_reducible repeat' first
    | (assumption) | (intro) | (apply kept_startTraining) | (apply kept_foldl) | (apply kept_foldl_snd)
    | (apply kept_foldl_fst) | (apply kept_ite) | (dsimp only) | (split)

theorem kept_apply (h_regs : ¬ K .regs) (h_mem : ¬ K .mem) (h_free : ¬ K .free) (h_out : ¬ K .out)
    (h_host : ¬ K .host) (h_err : ¬ K .err) (h_psq : ¬ K .psq) (h_ctx : ¬ K .ctx) (h_codec : ¬ K .codec)
    (h_stn : ¬ K .stn) (h_nvm : ¬ K .nvm) (h_staySeq : ¬ K .staySeq) (h_dram : ¬ K .dram) (h_clk : ¬ K .clk)
    (h_mon : ¬ K .mon) (h_rig : ¬ K .rig) (h_mot : ¬ K .mot) (h_pwr : ¬ K .pwr) (h_vis : ¬ K .vis) (h_net : ¬ K .net)
    (h_dma : ¬ K .dma) (x0 : List Sys2Proof.Byte) (x1 : Nat) (h : Kept K a s) :
    Kept K a (apply x0 x1 s) := by
  unfold apply
  with_reducible repeat' first
    | (assumption) | (intro) | (apply kept_applyStatus) | (apply kept_applyIslands) | (apply kept_applyPlls)
    | (apply kept_applyRig) | (apply kept_applySpar) | (apply kept_applySeq) | (apply kept_applyDram)
    | (apply kept_State_p) | (apply kept_preset) | (apply kept_overN) | (apply kept_pgSync)
    | (apply kept_trainClocked) | (apply kept_foldl) | (apply kept_foldl_snd) | (apply kept_foldl_fst)
    | (apply kept_ite) | (dsimp only) | (split)
    | (refine kept_mk ?_ (r_host := (absurd · h_host)) (r_err := (absurd · h_err)) (r_psq := (absurd · h_psq)) (r_ctx
        := (absurd · h_ctx)) (r_codec := (absurd · h_codec)) (r_stn := (absurd · h_stn)) (r_nvm := (absurd · h_nvm))
        (r_staySeq := (absurd · h_staySeq)) (r_dram := (absurd · h_dram)) (r_clk := (absurd · h_clk)) (r_mon :=
        (absurd · h_mon)) (r_rig := (absurd · h_rig)) (r_mot := (absurd · h_mot)) (r_pwr := (absurd · h_pwr)) (r_vis
        := (absurd · h_vis)) (r_net := (absurd · h_net)) (r_dma := (absurd · h_dma)))

theorem kept_modStr (h_vis : ¬ K .vis) (x0 : Nat) (x1 : Stream → Stream) (h : Kept K a s) :
    Kept K a (modStr x0 x1 s) := by
  unfold modStr
  with_reducible repeat' first
    | (assumption) | (intro) | (apply kept_foldl) | (apply kept_foldl_snd) | (apply kept_foldl_fst)
    | (apply kept_ite) | (dsimp only) | (split) | (refine kept_mk ?_ (r_vis := (absurd · h_vis)))

theorem kept_cciStart (h_out : ¬ K .out) (h_vis : ¬ K .vis) (x0 : Nat) (h : Kept K a s) :
    Kept K a (cciStart x0 s) := by
  unfold cciStart
  with_reducible repeat' first
    | (assumption) | (intro) | (apply kept_State_emit) | (apply kept_foldl) | (apply kept_foldl_snd)
    | (apply kept_foldl_fst) | (apply kept_ite) | (dsimp only) | (split)
    | (refine kept_mk ?_ (r_vis := (absurd · h_vis)))

theorem kept_genSent (h_vis : ¬ K .vis) (x0 : Nat) (x1 : Nat) (h : Kept K a s) :
    Kept K a (genSent x0 x1 s) := by
  unfold genSent
  with_reducible repeat' first
    | (assumption) | (intro) | (apply kept_modStr) | (apply kept_foldl) | (apply kept_foldl_snd)
    | (apply kept_foldl_fst) | (apply kept_ite) | (dsimp only) | (split)

theorem kept_cciSync (h_out : ¬ K .out) (h_vis : ¬ K .vis)  (h : Kept K a s) :
    Kept K a (cciSync s) := by
  unfold cciSync
  with_reducible repeat' first
    | (assumption) | (intro) | (apply kept_overN) | (apply kept_cciStart) | (apply kept_genSent) | (apply kept_foldl)
    | (apply kept_foldl_snd) | (apply kept_foldl_fst) | (apply kept_ite) | (dsimp only) | (split)
    | (refine kept_mk ?_ (r_vis := (absurd · h_vis)))

theorem kept_applyGen (h_out : ¬ K .out) (h_vis : ¬ K .vis) (x0 : Nat) (x1 : CamGen) (h : Kept K a s) :
    Kept K a (applyGen x0 x1 s) := by
  unfold applyGen
  with_reducible repeat' first
    | (assumption) | (intro) | (apply kept_modStr) | (apply kept_cciSync) | (apply kept_foldl)
    | (apply kept_foldl_snd) | (apply kept_foldl_fst) | (apply kept_ite) | (dsimp only) | (split)
    | (refine kept_mk ?_ (r_vis := (absurd · h_vis)))

theorem kept_assocSync (h_regs : ¬ K .regs) (x0 : Nat) (h : Kept K a s) :
    Kept K a (assocSync x0 s) := by
  unfold assocSync
  with_reducible repeat' first
    | (assumption) | (intro) | (apply kept_State_p) | (apply kept_foldl) | (apply kept_foldl_snd)
    | (apply kept_foldl_fst) | (apply kept_ite) | (dsimp only) | (split)

theorem kept_associate (h_regs : ¬ K .regs) (h_vis : ¬ K .vis) (x0 : Nat) (x1 : Assoc) (h : Kept K a s) :
    Kept K a (associate x0 x1 s) := by
  unfold associate
  with_reducible repeat' first
    | (assumption) | (intro) | (apply kept_State_inc) | (apply kept_assocSync) | (apply kept_modStr)
    | (apply kept_foldl) | (apply kept_foldl_snd) | (apply kept_foldl_fst) | (apply kept_ite) | (dsimp only)
    | (split)

theorem kept_axEncoder (h_regs : ¬ K .regs) (h_mot : ¬ K .mot) (x0 : Nat) (x1 : Nat) (h : Kept K a s) :
    Kept K a (axEncoder x0 x1 s) := by
  unfold axEncoder
  with_reducible repeat' first
    | (assumption) | (intro) | (apply kept_modAx) | (apply kept_eposSync) | (apply kept_foldl)
    | (apply kept_foldl_snd) | (apply kept_foldl_fst) | (apply kept_ite) | (dsimp only) | (split)

theorem kept_axPulse (h_regs : ¬ K .regs) (h_mot : ¬ K .mot) (x0 : Nat) (h : Kept K a s) :
    Kept K a (axPulse x0 s) := by
  unfold axPulse
  with_reducible repeat' first
    | (assumption) | (intro) | (apply kept_axStart) | (apply kept_foldl) | (apply kept_foldl_snd)
    | (apply kept_foldl_fst) | (apply kept_ite) | (dsimp only) | (split)

theorem kept_unwind (h_regs : ¬ K .regs) (h_out : ¬ K .out) (h_mot : ¬ K .mot) (x0 : Nat) (h : Kept K a s) :
    Kept K a (unwind x0 s) := by
  unfold unwind
  with_reducible repeat' first
    | (assumption) | (intro) | (apply kept_agUnwind) | (apply kept_axUnwind) | (apply kept_foldl)
    | (apply kept_foldl_snd) | (apply kept_foldl_fst) | (apply kept_ite) | (dsimp only) | (split)

theorem kept_followCheck (h_regs : ¬ K .regs) (h_out : ¬ K .out) (h_host : ¬ K .host) (h_err : ¬ K .err)
    (h_nvm : ¬ K .nvm) (h_staySeq : ¬ K .staySeq) (h_mot : ¬ K .mot) (h_net : ¬ K .net) (x0 : Nat) (h : Kept K a s) :
    Kept K a (followCheck x0 s) := by
  unfold followCheck
  with_reducible repeat' first
    | (assumption) | (intro) | (apply kept_State_setReg) | (apply kept_State_p) | (apply kept_unwind)
    | (apply kept_axReplay) | (apply kept_contained) | (apply kept_modAx) | (apply kept_foldl)
    | (apply kept_foldl_snd) | (apply kept_foldl_fst) | (apply kept_ite) | (dsimp only) | (split)

theorem kept_axTick (h_regs : ¬ K .regs) (h_out : ¬ K .out) (h_host : ¬ K .host) (h_err : ¬ K .err)
    (h_nvm : ¬ K .nvm) (h_staySeq : ¬ K .staySeq) (h_mot : ¬ K .mot) (h_net : ¬ K .net) (x0 : Nat) (h : Kept K a s) :
    Kept K a (axTick x0 s) := by
  unfold axTick
  with_reducible repeat' first
    | (assumption) | (intro) | (apply kept_followCheck) | (apply kept_velSync) | (apply kept_modAx)
    | (apply kept_stepEdges) | (apply kept_levelPend) | (apply kept_axEndMove) | (apply kept_State_pb)
    | (apply kept_foldl) | (apply kept_foldl_snd) | (apply kept_foldl_fst) | (apply kept_ite) | (dsimp only)
    | (split)

theorem kept_axTimers (h_mot : ¬ K .mot) (x0 : Nat) (h : Kept K a s) :
    Kept K a (axTimers x0 s) := by
  unfold axTimers
  with_reducible repeat' first
    | (assumption) | (intro) | (apply kept_modAx) | (apply kept_foldl) | (apply kept_foldl_snd)
    | (apply kept_foldl_fst) | (apply kept_ite) | (dsimp only) | (split)

theorem kept_backDiscard (h_regs : ¬ K .regs) (h_free : ¬ K .free) (h_out : ¬ K .out) (h_host : ¬ K .host)
    (h_err : ¬ K .err) (h_psq : ¬ K .psq) (h_ctx : ¬ K .ctx) (h_codec : ¬ K .codec) (h_stn : ¬ K .stn)
    (h_nvm : ¬ K .nvm) (h_staySeq : ¬ K .staySeq) (h_mot : ¬ K .mot) (h_vis : ¬ K .vis) (h_net : ¬ K .net) (x0 : Nat)
    (h : Kept K a s) :
    Kept K a (backDiscard x0 s) := by
  unfold backDiscard
  with_reducible repeat' first
    | (assumption) | (intro) | (apply kept_State_inc) | (apply kept_State_pb) | (apply kept_modLink)
    | (apply kept_linkLoss) | (apply kept_foldl) | (apply kept_foldl_snd) | (apply kept_foldl_fst) | (apply kept_ite)
    | (dsimp only) | (split)

theorem kept_flushSweep (h_out : ¬ K .out) (h_stn : ¬ K .stn) (x0 : Nat) (h : Kept K a s) :
    Kept K a (flushSweep x0 s) := by
  unfold flushSweep
  with_reducible repeat' first
    | (assumption) | (intro) | (apply kept_sendData) | (apply kept_setSending) | (apply kept_foldl)
    | (apply kept_foldl_snd) | (apply kept_foldl_fst) | (apply kept_ite) | (dsimp only) | (split)

theorem kept_sendControl (h_out : ¬ K .out) (h_stn : ¬ K .stn) (x0 : Nat) (x1 : Nat) (x2 : Nat) (x3 : List
    Sys2Proof.Byte) (h : Kept K a s) :
    Kept K a (sendControl x0 x1 x2 x3 s) := by
  unfold sendControl
  with_reducible repeat' first
    | (assumption) | (intro) | (apply kept_flushSweep) | (apply kept_rawPacket) | (apply kept_State_modStn)
    | (apply kept_foldl) | (apply kept_foldl_snd) | (apply kept_foldl_fst) | (apply kept_ite) | (dsimp only)
    | (split)

theorem kept_sendBank (h_out : ¬ K .out) (h_stn : ¬ K .stn) (x0 : Nat) (x1 : Nat) (x2 : Gen) (h : Kept K a s) :
    Kept K a (sendBank x0 x1 x2 s) := by
  unfold sendBank
  with_reducible repeat' first
    | (assumption) | (intro) | (apply kept_sendControl) | (apply kept_foldl) | (apply kept_foldl_snd)
    | (apply kept_foldl_fst) | (apply kept_ite) | (dsimp only) | (split)

theorem kept_linkLoad (h_regs : ¬ K .regs) (h_out : ¬ K .out) (h_stn : ¬ K .stn) (x0 : Nat) (h : Kept K a s) :
    Kept K a (linkLoad x0 s) := by
  unfold linkLoad
  with_reducible repeat' first
    | (assumption) | (intro) | (apply kept_modLink) | (apply kept_State_p) | (apply kept_sendBank)
    | (apply kept_sendControl) | (apply kept_foldl) | (apply kept_foldl_snd) | (apply kept_foldl_fst)
    | (apply kept_ite) | (dsimp only) | (split) | (apply kept_id)

theorem kept_backLock (h_regs : ¬ K .regs) (h_out : ¬ K .out) (h_stn : ¬ K .stn) (x0 : Nat) (h : Kept K a s) :
    Kept K a (backLock x0 s) := by
  unfold backLock
  with_reducible repeat' first
    | (assumption) | (intro) | (apply kept_modLink) | (apply kept_State_p) | (apply kept_linkLoad)
    | (apply kept_foldl) | (apply kept_foldl_snd) | (apply kept_foldl_fst) | (apply kept_ite) | (dsimp only)
    | (split)

theorem kept_linkFail (h_regs : ¬ K .regs) (h_stn : ¬ K .stn) (x0 : Nat) (x1 : Nat) (h : Kept K a s) :
    Kept K a (linkFail x0 x1 s) := by
  unfold linkFail
  with_reducible repeat' first
    | (assumption) | (intro) | (apply kept_State_p) | (apply kept_linkOkSync) | (apply kept_modLink)
    | (apply kept_foldl) | (apply kept_foldl_snd) | (apply kept_foldl_fst) | (apply kept_ite) | (dsimp only)
    | (split)

theorem kept_backLoss (h_regs : ¬ K .regs) (h_free : ¬ K .free) (h_out : ¬ K .out) (h_host : ¬ K .host)
    (h_err : ¬ K .err) (h_psq : ¬ K .psq) (h_ctx : ¬ K .ctx) (h_codec : ¬ K .codec) (h_stn : ¬ K .stn)
    (h_nvm : ¬ K .nvm) (h_staySeq : ¬ K .staySeq) (h_mot : ¬ K .mot) (h_vis : ¬ K .vis) (h_net : ¬ K .net) (x0 : Nat)
    (h : Kept K a s) :
    Kept K a (backLoss x0 s) := by
  unfold backLoss
  with_reducible repeat' first
    | (assumption) | (intro) | (apply kept_linkLoss) | (apply kept_linkFail) | (apply kept_foldl)
    | (apply kept_foldl_snd) | (apply kept_foldl_fst) | (apply kept_ite) | (dsimp only) | (split)

theorem kept_bandMeasDone (h_regs : ¬ K .regs) (h_clk : ¬ K .clk) (x0 : Nat) (x1 : Nat) (h : Kept K a s) :
    Kept K a (bandMeasDone x0 x1 s) := by
  unfold bandMeasDone
  with_reducible repeat' first
    | (assumption) | (intro) | (apply kept_calibrate) | (apply kept_State_p) | (apply kept_State_pb)
    | (apply kept_foldl) | (apply kept_foldl_snd) | (apply kept_foldl_fst) | (apply kept_ite) | (dsimp only)
    | (split)

theorem kept_bankLoad (h_out : ¬ K .out) (h_stn : ¬ K .stn) (x0 : Nat) (h : Kept K a s) :
    Kept K a (bankLoad x0 s) := by
  unfold bankLoad
  with_reducible repeat' first
    | (assumption) | (intro) | (apply kept_sendBank) | (apply kept_modLink) | (apply kept_foldl)
    | (apply kept_foldl_snd) | (apply kept_foldl_fst) | (apply kept_ite) | (dsimp only) | (split) | (apply kept_id)

theorem kept_bar2Write (h_regs : ¬ K .regs) (h_mem : ¬ K .mem) (h_out : ¬ K .out) (h_dram : ¬ K .dram) (x0 : Nat) (x1
    : List Sys2Proof.Byte) (x2 : Bool) (h : Kept K a s) :
    Kept K a (bar2Write x0 x1 x2 s) := by
  unfold bar2Write
  with_reducible repeat' first
    | (assumption) | (intro) | (apply kept_State_pb) | (apply kept_State_emit) | (apply kept_dramPut)
    | (apply kept_foldl) | (apply kept_foldl_snd) | (apply kept_foldl_fst) | (apply kept_ite) | (dsimp only)
    | (split)

theorem kept_dramGet (h_regs : ¬ K .regs) (h_out : ¬ K .out) (h_host : ¬ K .host) (h_err : ¬ K .err)
    (h_nvm : ¬ K .nvm) (h_staySeq : ¬ K .staySeq) (h_dram : ¬ K .dram) (h_net : ¬ K .net) (x0 : Nat) (x1 : Nat)
    (h : Kept K a s) :
    Kept K a (dramGet x0 x1 s).2 := by
  unfold dramGet
  with_reducible repeat' first
    | (assumption) | (intro) | (apply kept_meet) | (apply kept_foldl) | (apply kept_foldl_snd)
    | (apply kept_foldl_fst) | (apply kept_ite) | (dsimp only) | (split)

theorem kept_readData (h_free : ¬ K .free) (h_out : ¬ K .out) (x0 : List (Option Sys2Proof.Byte)) (h : Kept K a s) :
    Kept K a (readData x0 s) := by
  unfold readData
  with_reducible repeat' first
    | (assumption) | (intro) | (apply kept_State_fresh) | (apply kept_State_emit) | (apply kept_foldl)
    | (apply kept_foldl_snd) | (apply kept_foldl_fst) | (apply kept_ite) | (dsimp only) | (split)

theorem kept_bar2Read (h_regs : ¬ K .regs) (h_free : ¬ K .free) (h_out : ¬ K .out) (h_host : ¬ K .host)
    (h_err : ¬ K .err) (h_nvm : ¬ K .nvm) (h_staySeq : ¬ K .staySeq) (h_dram : ¬ K .dram) (h_net : ¬ K .net) (x0 :
    Nat) (x1 : Nat) (h : Kept K a s) :
    Kept K a (bar2Read x0 x1 s) := by
  unfold bar2Read
  with_reducible repeat' first
    | (assumption) | (intro) | (apply kept_State_emit) | (apply kept_State_pb) | (apply kept_dramGet)
    | (apply kept_readData) | (apply kept_foldl) | (apply kept_foldl_snd) | (apply kept_foldl_fst) | (apply kept_ite)
    | (dsimp only) | (split)

theorem kept_bar2Access (h_regs : ¬ K .regs) (h_mem : ¬ K .mem) (h_free : ¬ K .free) (h_out : ¬ K .out)
    (h_host : ¬ K .host) (h_err : ¬ K .err) (h_nvm : ¬ K .nvm) (h_staySeq : ¬ K .staySeq) (h_dram : ¬ K .dram)
    (h_net : ¬ K .net) (x0 : Nat) (x1 : Nat) (x2 : Option (List Sys2Proof.Byte)) (x3 : Bool) (h : Kept K a s) :
    Kept K a (bar2Access x0 x1 x2 x3 s) := by
  unfold bar2Access
  with_reducible repeat' first
    | (assumption) | (intro) | (apply kept_bar2Write) | (apply kept_bar2Read) | (apply kept_State_emit)
    | (apply kept_foldl) | (apply kept_foldl_snd) | (apply kept_foldl_fst) | (apply kept_ite) | (dsimp only)
    | (split)

theorem kept_stnFault (h_regs : ¬ K .regs) (h_free : ¬ K .free) (h_out : ¬ K .out) (h_host : ¬ K .host)
    (h_err : ¬ K .err) (h_psq : ¬ K .psq) (h_ctx : ¬ K .ctx) (h_codec : ¬ K .codec) (h_stn : ¬ K .stn)
    (h_nvm : ¬ K .nvm) (h_staySeq : ¬ K .staySeq) (h_mot : ¬ K .mot) (h_vis : ¬ K .vis) (h_net : ¬ K .net) (x0 : Nat)
    (x1 : Nat) (x2 : Option (Nat × Nat)) (h : Kept K a s) :
    Kept K a (stnFault x0 x1 x2 s) := by
  unfold stnFault
  with_reducible repeat' first
    | (assumption) | (intro) | (apply kept_raise) | (apply kept_foldl) | (apply kept_foldl_snd)
    | (apply kept_foldl_fst) | (apply kept_ite) | (dsimp only) | (split)

theorem kept_bdLost (h_regs : ¬ K .regs) (h_free : ¬ K .free) (h_out : ¬ K .out) (h_host : ¬ K .host)
    (h_err : ¬ K .err) (h_psq : ¬ K .psq) (h_ctx : ¬ K .ctx) (h_codec : ¬ K .codec) (h_stn : ¬ K .stn)
    (h_nvm : ¬ K .nvm) (h_staySeq : ¬ K .staySeq) (h_mot : ¬ K .mot) (h_vis : ¬ K .vis) (h_net : ¬ K .net) (x0 : Nat)
    (x1 : Nat) (h : Kept K a s) :
    Kept K a (bdLost x0 x1 s) := by
  unfold bdLost
  with_reducible repeat' first
    | (assumption) | (intro) | (apply kept_spoilAt) | (apply kept_stnFault) | (apply kept_loseLock)
    | (apply kept_foldl) | (apply kept_foldl_snd) | (apply kept_foldl_fst) | (apply kept_ite) | (dsimp only)
    | (split)

theorem kept_lockLost (h_regs : ¬ K .regs) (h_free : ¬ K .free) (h_out : ¬ K .out) (h_host : ¬ K .host)
    (h_err : ¬ K .err) (h_psq : ¬ K .psq) (h_ctx : ¬ K .ctx) (h_codec : ¬ K .codec) (h_stn : ¬ K .stn)
    (h_nvm : ¬ K .nvm) (h_staySeq : ¬ K .staySeq) (h_mot : ¬ K .mot) (h_vis : ¬ K .vis) (h_net : ¬ K .net) (x0 : Nat)
    (x1 : Nat) (h : Kept K a s) :
    Kept K a (lockLost x0 x1 s) := by
  unfold lockLost
  with_reducible repeat' first
    | (assumption) | (intro) | (apply kept_loseLock) | (apply kept_raise) | (apply kept_foldl)
    | (apply kept_foldl_snd) | (apply kept_foldl_fst) | (apply kept_ite) | (dsimp only) | (split)

theorem kept_polyEdge (h_regs : ¬ K .regs) (h_free : ¬ K .free) (h_out : ¬ K .out) (h_host : ¬ K .host)
    (h_err : ¬ K .err) (h_psq : ¬ K .psq) (h_ctx : ¬ K .ctx) (h_codec : ¬ K .codec) (h_stn : ¬ K .stn)
    (h_nvm : ¬ K .nvm) (h_staySeq : ¬ K .staySeq) (h_mot : ¬ K .mot) (h_vis : ¬ K .vis) (h_net : ¬ K .net) (x0 : Nat)
    (h : Kept K a s) :
    Kept K a (polyEdge x0 s) := by
  unfold polyEdge
  with_reducible repeat' first
    | (assumption) | (intro) | (apply kept_modMc) | (apply kept_State_pz) | (apply kept_lockLost)
    | (apply kept_State_event) | (apply kept_State_pb) | (apply kept_foldl) | (apply kept_foldl_snd)
    | (apply kept_foldl_fst) | (apply kept_ite) | (dsimp only) | (split)

theorem kept_htgStep (h_regs : ¬ K .regs) (h_stn : ¬ K .stn) (x0 : Nat) (x1 : Bool) (h : Kept K a s) :
    Kept K a (htgStep x0 x1 s) := by
  unfold htgStep
  with_reducible repeat' first
    | (assumption) | (intro) | (apply kept_State_p) | (apply kept_State_pb) | (apply kept_State_modStn)
    | (apply kept_foldl) | (apply kept_foldl_snd) | (apply kept_foldl_fst) | (apply kept_ite) | (dsimp only)
    | (split)

theorem kept_sendPacket (h_out : ¬ K .out) (h_stn : ¬ K .stn) (x0 : Nat) (x1 : Nat) (x2 : Nat) (x3 : Nat) (x4 : List
    Sys2Proof.Byte) (h : Kept K a s) :
    Kept K a (sendPacket x0 x1 x2 x3 x4 s) := by
  unfold sendPacket
  with_reducible repeat' first
    | (assumption) | (intro) | (apply kept_rawPacket) | (apply kept_flushSweep) | (apply kept_foldl)
    | (apply kept_foldl_snd) | (apply kept_foldl_fst) | (apply kept_ite) | (dsimp only) | (split)

theorem kept_sweepHead (h_out : ¬ K .out) (h_stn : ¬ K .stn) (x0 : Nat) (x1 : SweepOut) (x2 : Nat) (h : Kept K a s) :
    Kept K a (sweepHead x0 x1 x2 s) := by
  unfold sweepHead
  with_reducible repeat' first
    | (assumption) | (intro) | (apply kept_sendPacket) | (apply kept_foldl) | (apply kept_foldl_snd)
    | (apply kept_foldl_fst) | (apply kept_ite) | (dsimp only) | (split)

theorem kept_sendSweep (h_regs : ¬ K .regs) (h_free : ¬ K .free) (h_out : ¬ K .out) (h_stn : ¬ K .stn) (x0 : Nat) (x1
    : SweepOut) (h : Kept K a s) :
    Kept K a (sendSweep x0 x1 s) := by
  unfold sendSweep
  with_reducible repeat' first
    | (assumption) | (intro) | (apply kept_State_modStn) | (apply kept_sweepHead) | (apply kept_State_p)
    | (apply kept_setSending) | (apply kept_State_fresh) | (apply kept_State_pz) | (apply kept_modLink)
    | (apply kept_foldl) | (apply kept_foldl_snd) | (apply kept_foldl_fst) | (apply kept_ite) | (dsimp only)
    | (split) | (apply kept_id)

theorem kept_magStep (h_regs : ¬ K .regs) (h_stn : ¬ K .stn) (x0 : Nat) (x1 : Int) (h : Kept K a s) :
    Kept K a (magStep x0 x1 s) := by
  unfold magStep
  with_reducible repeat' first
    | (assumption) | (intro) | (apply kept_State_pz) | (apply kept_State_modStn) | (apply kept_ckoSync)
    | (apply kept_pxRegs) | (apply kept_foldl) | (apply kept_foldl_snd) | (apply kept_foldl_fst) | (apply kept_ite)
    | (dsimp only) | (split)

theorem kept_decodeIn (h_regs : ¬ K .regs) (h_out : ¬ K .out) (h_host : ¬ K .host) (h_err : ¬ K .err)
    (h_nvm : ¬ K .nvm) (h_staySeq : ¬ K .staySeq) (h_dram : ¬ K .dram) (h_net : ¬ K .net) (x0 : Nat) (x1 : BandId)
    (h : Kept K a s) :
    Kept K a (decodeIn x0 x1 s).2 := by
  unfold decodeIn
  with_reducible repeat' first
    | (assumption) | (intro) | (apply kept_dramGet) | (apply kept_foldl) | (apply kept_foldl_snd)
    | (apply kept_foldl_fst) | (apply kept_ite) | (dsimp only) | (split)

theorem kept_decodeBand (h_regs : ¬ K .regs) (h_out : ¬ K .out) (h_host : ¬ K .host) (h_err : ¬ K .err)
    (h_nvm : ¬ K .nvm) (h_staySeq : ¬ K .staySeq) (h_dram : ¬ K .dram) (h_net : ¬ K .net) (x0 : BandId)
    (h : Kept K a s) :
    Kept K a (decodeBand x0 s).2 := by
  unfold decodeBand
  with_reducible repeat' first
    | (assumption) | (intro) | (apply kept_decodeIn) | (apply kept_foldl) | (apply kept_foldl_snd)
    | (apply kept_foldl_fst) | (apply kept_ite) | (dsimp only) | (split)

theorem kept_decProgress (h_free : ¬ K .free) (h_stn : ¬ K .stn) (h_dram : ¬ K .dram) (h_net : ¬ K .net) (x0 : Nat)
    (x1 : Nat) (h : Kept K a s) :
    Kept K a (decProgress x0 x1 s) := by
  unfold decProgress
  with_reducible repeat' first
    | (assumption) | (intro) | (apply kept_decodeBand) | (apply kept_State_fresh) | (apply kept_State_modStn)
    | (apply kept_foldl) | (apply kept_foldl_snd) | (apply kept_foldl_fst) | (apply kept_ite) | (dsimp only)
    | (split)

theorem kept_stnLevel (h_regs : ¬ K .regs) (h_stn : ¬ K .stn) (x0 : Nat) (x1 : Int) (h : Kept K a s) :
    Kept K a (stnLevel x0 x1 s) := by
  unfold stnLevel
  with_reducible repeat' first
    | (assumption) | (intro) | (apply kept_State_modStn) | (apply kept_State_pz) | (apply kept_foldl)
    | (apply kept_foldl_snd) | (apply kept_foldl_fst) | (apply kept_ite) | (dsimp only) | (split)

theorem kept_underrun (h_regs : ¬ K .regs) (h_free : ¬ K .free) (h_out : ¬ K .out) (h_host : ¬ K .host)
    (h_err : ¬ K .err) (h_psq : ¬ K .psq) (h_ctx : ¬ K .ctx) (h_codec : ¬ K .codec) (h_stn : ¬ K .stn)
    (h_nvm : ¬ K .nvm) (h_staySeq : ¬ K .staySeq) (h_mot : ¬ K .mot) (h_vis : ¬ K .vis) (h_net : ¬ K .net) (x0 : Nat)
    (x1 : Nat) (x2 : Nat) (h : Kept K a s) :
    Kept K a (underrun x0 x1 x2 s) := by
  unfold underrun
  with_reducible repeat' first
    | (assumption) | (intro) | (apply kept_State_inc) | (apply kept_State_p) | (apply kept_State_pb)
    | (apply kept_stnFault) | (apply kept_State_modStn) | (apply kept_foldl) | (apply kept_foldl_snd)
    | (apply kept_foldl_fst) | (apply kept_ite) | (dsimp only) | (split)

theorem kept_dataUnderrun (h_regs : ¬ K .regs) (h_free : ¬ K .free) (h_out : ¬ K .out) (h_host : ¬ K .host)
    (h_err : ¬ K .err) (h_psq : ¬ K .psq) (h_ctx : ¬ K .ctx) (h_codec : ¬ K .codec) (h_stn : ¬ K .stn)
    (h_nvm : ¬ K .nvm) (h_staySeq : ¬ K .staySeq) (h_mot : ¬ K .mot) (h_vis : ¬ K .vis) (h_net : ¬ K .net) (x0 : Nat)
    (x1 : Nat) (h : Kept K a s) :
    Kept K a (dataUnderrun x0 x1 s) := by
  unfold dataUnderrun
  with_reducible repeat' first
    | (assumption) | (intro) | (apply kept_State_modStn) | (apply kept_underrun) | (apply kept_fetchSync)
    | (apply kept_purge) | (apply kept_spoil) | (apply kept_foldl) | (apply kept_foldl_snd) | (apply kept_foldl_fst)
    | (apply kept_ite) | (dsimp only) | (split)

theorem kept_levelSync (h_regs : ¬ K .regs) (h_stn : ¬ K .stn) (x0 : Nat) (h : Kept K a s) :
    Kept K a (levelSync x0 s) := by
  unfold levelSync
  with_reducible repeat' first
    | (assumption) | (intro) | (apply kept_stnLevel) | (apply kept_foldl) | (apply kept_foldl_snd)
    | (apply kept_foldl_fst) | (apply kept_ite) | (dsimp only) | (split)

theorem kept_freeLines (h_stn : ¬ K .stn) (x0 : Nat) (x1 : Nat) (x2 : Nat) (h : Kept K a s) :
    Kept K a (freeLines x0 x1 x2 s) := by
  unfold freeLines
  with_reducible repeat' first
    | (assumption) | (intro) | (apply kept_State_modStn) | (apply kept_foldl) | (apply kept_foldl_snd)
    | (apply kept_foldl_fst) | (apply kept_ite) | (dsimp only) | (split)

theorem kept_produce (h_regs : ¬ K .regs) (h_free : ¬ K .free) (h_out : ¬ K .out) (h_host : ¬ K .host)
    (h_err : ¬ K .err) (h_psq : ¬ K .psq) (h_ctx : ¬ K .ctx) (h_codec : ¬ K .codec) (h_stn : ¬ K .stn)
    (h_nvm : ¬ K .nvm) (h_staySeq : ¬ K .staySeq) (h_dram : ¬ K .dram) (h_mot : ¬ K .mot) (h_vis : ¬ K .vis)
    (h_net : ¬ K .net) (x0 : Nat) (x1 : Nat) (x2 : Nat) (h : Kept K a s) :
    Kept K a (produce x0 x1 x2 s) := by
  unfold produce
  with_reducible repeat' first
    | (assumption) | (intro) | (apply kept_htgStep) | (apply kept_State_modStn) | (apply kept_sendSweep)
    | (apply kept_State_pb) | (apply kept_State_pz) | (apply kept_magStep) | (apply kept_overN)
    | (apply kept_decProgress) | (apply kept_stnLevel) | (apply kept_dataUnderrun) | (apply kept_levelSync)
    | (apply kept_wearSync) | (apply kept_freeLines) | (apply kept_foldl) | (apply kept_foldl_snd)
    | (apply kept_foldl_fst) | (apply kept_ite) | (dsimp only) | (split)

theorem kept_slipSync (h_regs : ¬ K .regs) (x0 : Nat) (h : Kept K a s) :
    Kept K a (slipSync x0 s) := by
  unfold slipSync
  with_reducible repeat' first
    | (assumption) | (intro) | (apply kept_State_pz) | (apply kept_foldl) | (apply kept_foldl_snd)
    | (apply kept_foldl_fst) | (apply kept_ite) | (dsimp only) | (split)

theorem kept_bdEdge (h_regs : ¬ K .regs) (h_free : ¬ K .free) (h_out : ¬ K .out) (h_host : ¬ K .host)
    (h_err : ¬ K .err) (h_psq : ¬ K .psq) (h_ctx : ¬ K .ctx) (h_codec : ¬ K .codec) (h_stn : ¬ K .stn)
    (h_nvm : ¬ K .nvm) (h_staySeq : ¬ K .staySeq) (h_dram : ¬ K .dram) (h_mot : ¬ K .mot) (h_vis : ¬ K .vis)
    (h_net : ¬ K .net) (x0 : Nat) (x1 : Bool) (x2 : Bool) (x3 : Nat) (h : Kept K a s) :
    Kept K a (bdEdge x0 x1 x2 x3 s) := by
  unfold bdEdge
  with_reducible repeat' first
    | (assumption) | (intro) | (apply kept_State_p) | (apply kept_State_modStn) | (apply kept_bdLost)
    | (apply kept_State_pb) | (apply kept_polyEdge) | (apply kept_produce) | (apply kept_slipSync)
    | (apply kept_foldl) | (apply kept_foldl_snd) | (apply kept_foldl_fst) | (apply kept_ite) | (dsimp only)
    | (split)

theorem kept_bdMiss (h_regs : ¬ K .regs) (h_free : ¬ K .free) (h_out : ¬ K .out) (h_host : ¬ K .host)
    (h_err : ¬ K .err) (h_psq : ¬ K .psq) (h_ctx : ¬ K .ctx) (h_codec : ¬ K .codec) (h_stn : ¬ K .stn)
    (h_nvm : ¬ K .nvm) (h_staySeq : ¬ K .staySeq) (h_dram : ¬ K .dram) (h_mot : ¬ K .mot) (h_vis : ¬ K .vis)
    (h_net : ¬ K .net) (x0 : Nat) (h : Kept K a s) :
    Kept K a (bdMiss x0 s) := by
  unfold bdMiss
  with_reducible repeat' first
    | (assumption) | (intro) | (apply kept_State_inc) | (apply kept_State_pb) | (apply kept_bdEdge)
    | (apply kept_bdLost) | (apply kept_foldl) | (apply kept_foldl_snd) | (apply kept_foldl_fst) | (apply kept_ite)
    | (dsimp only) | (split)

theorem kept_beforeChanges (h_regs : ¬ K .regs) (h_psq : ¬ K .psq) (h_stn : ¬ K .stn) (h_vis : ¬ K .vis)
    (h : Kept K a s) :
    Kept K a (beforeChanges s) := by
  unfold beforeChanges
  with_reducible repeat' first
    | (assumption) | (intro) | (apply kept_State_setReg) | (apply kept_overN) | (apply kept_State_modStn)
    | (apply kept_State_p) | (apply kept_foldl) | (apply kept_foldl_snd) | (apply kept_foldl_fst) | (apply kept_ite)
    | (dsimp only) | (split)
    | (refine kept_mk ?_ (r_psq := (absurd · h_psq)) (r_stn := (absurd · h_stn)) (r_vis := (absurd · h_vis)))

theorem kept_begin_ (h_host : ¬ K .host) (x0 : Nat) (x1 : Nat) (x2 : Nat) (h : Kept K a s) :
    Kept K a (begin_ x0 x1 x2 s) := by
  unfold begin_
  with_reducible repeat' first
    | (assumption) | (intro) | (apply kept_foldl) | (apply kept_foldl_snd) | (apply kept_foldl_fst)
    | (apply kept_ite) | (dsimp only) | (split) | (refine kept_mk ?_ (r_host := (absurd · h_host)))

theorem kept_beltStep (h_regs : ¬ K .regs) (h_mot : ¬ K .mot) (x0 : Int) (h : Kept K a s) :
    Kept K a (beltStep x0 s) := by
  unfold beltStep
  with_reducible repeat' first
    | (assumption) | (intro) | (apply kept_setCe) | (apply kept_State_pb) | (apply kept_foldl)
    | (apply kept_foldl_snd) | (apply kept_foldl_fst) | (apply kept_ite) | (dsimp only) | (split)

theorem kept_corrected (h_regs : ¬ K .regs) (h_out : ¬ K .out) (h_host : ¬ K .host) (h_err : ¬ K .err)
    (h_nvm : ¬ K .nvm) (h_staySeq : ¬ K .staySeq) (h_net : ¬ K .net) (x0 : Nat) (x1 : Nat) (x2 : Nat) (x3 : Nat)
    (h : Kept K a s) :
    Kept K a (corrected x0 x1 x2 x3 s) := by
  unfold corrected
  with_reducible repeat' first
    | (assumption) | (intro) | (apply kept_record) | (apply kept_foldl) | (apply kept_foldl_snd)
    | (apply kept_foldl_fst) | (apply kept_ite) | (dsimp only) | (split)

theorem kept_boostGen (h_regs : ¬ K .regs) (h_out : ¬ K .out) (h_psq : ¬ K .psq) (h_stn : ¬ K .stn)
    (h_clk : ¬ K .clk) (x0 : Nat) (x1 : Nat) (h : Kept K a s) :
    Kept K a (boostGen x0 x1 s) := by
  unfold boostGen
  with_reducible repeat' first
    | (assumption) | (intro) | (apply kept_wearSave) | (apply kept_addGen) | (apply kept_State_modStn)
    | (apply kept_foldl) | (apply kept_foldl_snd) | (apply kept_foldl_fst) | (apply kept_ite) | (dsimp only)
    | (split)

end Sys2Proof.Machine
end

