-- ==== Sys2Proof/Laws/KeptOps3.lean ====
section
/-!
SUPPORT. What the operations of the machine leave unchanged, part 3 of 4: one lemma per operation, in the order in which they
use each other. An operation that may write the parts h_x names keeps every other part (Laws/Kept.lean).
-/

set_option linter.all false
set_option Elab.async false

namespace Sys2Proof.Machine

open Reg

variable {K : Piece → Prop} {a s : State}

theorem kept_boostGens (h_regs : ¬ K .regs) (h_out : ¬ K .out) (h_psq : ¬ K .psq) (h_stn : ¬ K .stn)
    (h_clk : ¬ K .clk) (x0 : Nat) (h : Kept K a s) :
    Kept K a (boostGens x0 s) := by
  unfold boostGens
  with_reducible repeat' first
    | (assumption) | (intro) | (apply kept_boostGen) | (apply kept_foldl) | (apply kept_foldl_snd)
    | (apply kept_foldl_fst) | (apply kept_ite) | (dsimp only) | (split)

theorem kept_boostEnd (h_regs : ¬ K .regs) (h_out : ¬ K .out) (h_host : ¬ K .host) (h_err : ¬ K .err)
    (h_psq : ¬ K .psq) (h_stn : ¬ K .stn) (h_nvm : ¬ K .nvm) (h_staySeq : ¬ K .staySeq) (h_clk : ¬ K .clk)
    (h_net : ¬ K .net) (x0 : Nat) (x1 : Nat) (h : Kept K a s) :
    Kept K a (boostEnd x0 x1 s) := by
  unfold boostEnd
  with_reducible repeat' first
    | (assumption) | (intro) | (apply kept_corrected) | (apply kept_State_pb) | (apply kept_boostGens)
    | (apply kept_State_modStn) | (apply kept_foldl) | (apply kept_foldl_snd) | (apply kept_foldl_fst)
    | (apply kept_ite) | (dsimp only) | (split)

theorem kept_boundaryLocked (h_regs : ¬ K .regs) (h_psq : ¬ K .psq)  (h : Kept K a s) :
    Kept K a (boundaryLocked s) := by
  unfold boundaryLocked
  with_reducible repeat' first
    | (assumption) | (intro) | (apply kept_endBoundary) | (apply kept_foldl) | (apply kept_foldl_snd)
    | (apply kept_foldl_fst) | (apply kept_ite) | (dsimp only) | (split)
    | (refine kept_mk ?_ (r_psq := (absurd · h_psq)))

theorem kept_boundaryPathClear (h_regs : ¬ K .regs) (h_psq : ¬ K .psq) (h_stn : ¬ K .stn) (h_clk : ¬ K .clk)
    (h : Kept K a s) :
    Kept K a (boundaryPathClear s) := by
  unfold boundaryPathClear
  with_reducible repeat' first
    | (assumption) | (intro) | (apply kept_applyTrim) | (apply kept_commandSpeeds) | (apply kept_foldl)
    | (apply kept_foldl_snd) | (apply kept_foldl_fst) | (apply kept_ite) | (dsimp only) | (split)
    | (refine kept_mk ?_ (r_psq := (absurd · h_psq)) (r_stn := (absurd · h_stn)) (r_clk := (absurd · h_clk)))

theorem kept_boundaryStart (h_regs : ¬ K .regs) (h_out : ¬ K .out) (h_psq : ¬ K .psq)  (h : Kept K a s) :
    Kept K a (boundaryStart s) := by
  unfold boundaryStart
  with_reducible repeat' first
    | (assumption) | (intro) | (apply kept_State_pb) | (apply kept_stopFeeding) | (apply kept_foldl)
    | (apply kept_foldl_snd) | (apply kept_foldl_fst) | (apply kept_ite) | (dsimp only) | (split)
    | (refine kept_mk ?_ (r_psq := (absurd · h_psq)))

theorem kept_spoilBurst (h_dram : ¬ K .dram) (x0 : Nat) (x1 : Nat) (h : Kept K a s) :
    Kept K a (spoilBurst x0 x1 s) := by
  unfold spoilBurst
  with_reducible repeat' first
    | (assumption) | (intro) | (apply kept_foldl) | (apply kept_foldl_snd) | (apply kept_foldl_fst)
    | (apply kept_ite) | (dsimp only) | (split) | (refine kept_mk ?_ (r_dram := (absurd · h_dram)))

theorem kept_burstCheck (h_regs : ¬ K .regs) (h_out : ¬ K .out) (h_host : ¬ K .host) (h_err : ¬ K .err)
    (h_nvm : ¬ K .nvm) (h_staySeq : ¬ K .staySeq) (h_dram : ¬ K .dram) (h_net : ¬ K .net) (x0 : Nat) (x1 : Bool) (x2
    : Nat) (h : Kept K a s) :
    Kept K a (burstCheck x0 x1 x2 s) := by
  unfold burstCheck
  with_reducible repeat' first
    | (assumption) | (intro) | (apply kept_burstMet) | (apply kept_spoilBurst) | (apply kept_foldl)
    | (apply kept_foldl_snd) | (apply kept_foldl_fst) | (apply kept_ite) | (dsimp only) | (split)

theorem kept_done (h_regs : ¬ K .regs) (h_out : ¬ K .out) (h_host : ¬ K .host) (x0 : Sys2Proof.Entry) (x1 : Nat) (x2
    : Nat) (x3 : Nat) (h : Kept K a s) :
    Kept K a (done x0 x1 x2 x3 s) := by
  unfold done
  with_reducible repeat' first
    | (assumption) | (intro) | (apply kept_post) | (apply kept_foldl) | (apply kept_foldl_snd)
    | (apply kept_foldl_fst) | (apply kept_ite) | (dsimp only) | (split)

theorem kept_supersede (h_regs : ¬ K .regs) (h_vis : ¬ K .vis) (x0 : Nat) (h : Kept K a s) :
    Kept K a (supersede x0 s) := by
  unfold supersede
  with_reducible repeat' first
    | (assumption) | (intro) | (apply kept_modStr) | (apply kept_State_pb) | (apply kept_foldl)
    | (apply kept_foldl_snd) | (apply kept_foldl_fst) | (apply kept_ite) | (dsimp only) | (split)
    | (refine kept_mk ?_ (r_vis := (absurd · h_vis)))

theorem kept_pendSync (h_regs : ¬ K .regs) (x0 : Nat) (h : Kept K a s) :
    Kept K a (pendSync x0 s) := by
  unfold pendSync
  with_reducible repeat' first
    | (assumption) | (intro) | (apply kept_State_p) | (apply kept_foldl) | (apply kept_foldl_snd)
    | (apply kept_foldl_fst) | (apply kept_ite) | (dsimp only) | (split)

theorem kept_inlineSync (h_regs : ¬ K .regs)  (h : Kept K a s) :
    Kept K a (inlineSync s) := by
  unfold inlineSync
  with_reducible repeat' first
    | (assumption) | (intro) | (apply kept_State_p) | (apply kept_State_pb) | (apply kept_foldl)
    | (apply kept_foldl_snd) | (apply kept_foldl_fst) | (apply kept_ite) | (dsimp only) | (split)

theorem kept_rebind (h_regs : ¬ K .regs) (h_out : ¬ K .out) (h_vis : ¬ K .vis) (x0 : Nat) (x1 : CamGen)
    (h : Kept K a s) :
    Kept K a (rebind x0 x1 s) := by
  unfold rebind
  with_reducible repeat' first
    | (assumption) | (intro) | (apply kept_modStr) | (apply kept_inlineSync) | (apply kept_cciSync)
    | (apply kept_State_p) | (apply kept_foldl) | (apply kept_foldl_snd) | (apply kept_foldl_fst) | (apply kept_ite)
    | (dsimp only) | (split) | (refine kept_mk ?_ (r_vis := (absurd · h_vis)))

theorem kept_cameraCfg (h_regs : ¬ K .regs) (h_out : ¬ K .out) (h_host : ¬ K .host) (h_vis : ¬ K .vis) (x0 :
    Sys2Proof.Entry) (x1 : Nat) (x2 : Nat) (x3 : Nat) (h : Kept K a s) :
    Kept K a (cameraCfg x0 x1 x2 x3 s) := by
  unfold cameraCfg
  with_reducible repeat' first
    | (assumption) | (intro) | (apply kept_done) | (apply kept_supersede) | (apply kept_pendSync)
    | (apply kept_rebind) | (apply kept_applyGen) | (apply kept_foldl) | (apply kept_foldl_snd)
    | (apply kept_foldl_fst) | (apply kept_ite) | (dsimp only) | (split)

theorem kept_capsReq (h_out : ¬ K .out) (h_stn : ¬ K .stn) (x0 : Nat) (h : Kept K a s) :
    Kept K a (capsReq x0 s) := by
  unfold capsReq
  with_reducible repeat' first
    | (assumption) | (intro) | (apply kept_sendPacket) | (apply kept_foldl) | (apply kept_foldl_snd)
    | (apply kept_foldl_fst) | (apply kept_ite) | (dsimp only) | (split)

theorem kept_serialSeen (h_regs : ¬ K .regs) (h_out : ¬ K .out) (h_host : ¬ K .host) (h_err : ¬ K .err)
    (h_stn : ¬ K .stn) (h_nvm : ¬ K .nvm) (h_staySeq : ¬ K .staySeq) (h_net : ¬ K .net) (x0 : Nat) (x1 : Nat)
    (h : Kept K a s) :
    Kept K a (serialSeen x0 x1 s) := by
  unfold serialSeen
  with_reducible repeat' first
    | (assumption) | (intro) | (apply kept_State_p) | (apply kept_wearSave) | (apply kept_State_modStn)
    | (apply kept_genRegs) | (apply kept_corrected) | (apply kept_State_pb) | (apply kept_foldl)
    | (apply kept_foldl_snd) | (apply kept_foldl_fst) | (apply kept_ite) | (dsimp only) | (split)

theorem kept_capsRx (h_regs : ¬ K .regs) (h_out : ¬ K .out) (h_host : ¬ K .host) (h_err : ¬ K .err)
    (h_stn : ¬ K .stn) (h_nvm : ¬ K .nvm) (h_staySeq : ¬ K .staySeq) (h_net : ¬ K .net) (x0 : Nat) (x1 :
    Sys2Proof.Caps) (h : Kept K a s) :
    Kept K a (capsRx x0 x1 s) := by
  unfold capsRx
  with_reducible repeat' first
    | (assumption) | (intro) | (apply kept_capsReq) | (apply kept_State_p) | (apply kept_State_pb)
    | (apply kept_serialSeen) | (apply kept_linkFail) | (apply kept_linkOkSync) | (apply kept_modLink)
    | (apply kept_sendControl) | (apply kept_foldl) | (apply kept_foldl_snd) | (apply kept_foldl_fst)
    | (apply kept_ite) | (dsimp only) | (split)

theorem kept_cciDone (h_regs : ¬ K .regs) (h_out : ¬ K .out) (h_vis : ¬ K .vis) (x0 : Nat) (h : Kept K a s) :
    Kept K a (cciDone x0 s) := by
  unfold cciDone
  with_reducible repeat' first
    | (assumption) | (intro) | (apply kept_pendSync) | (apply kept_cciSync) | (apply kept_genSent)
    | (apply kept_foldl) | (apply kept_foldl_snd) | (apply kept_foldl_fst) | (apply kept_ite) | (dsimp only)
    | (split) | (refine kept_mk ?_ (r_vis := (absurd · h_vis)))

theorem kept_cciReady (h_out : ¬ K .out) (h_vis : ¬ K .vis) (x0 : Nat) (h : Kept K a s) :
    Kept K a (cciReady x0 s) := by
  unfold cciReady
  with_reducible repeat' first
    | (assumption) | (intro) | (apply kept_cciSync) | (apply kept_foldl) | (apply kept_foldl_snd)
    | (apply kept_foldl_fst) | (apply kept_ite) | (dsimp only) | (split)
    | (refine kept_mk ?_ (r_vis := (absurd · h_vis)))

theorem kept_ceEcc (h_regs : ¬ K .regs) (h_out : ¬ K .out) (h_host : ¬ K .host) (h_err : ¬ K .err) (h_nvm : ¬ K .nvm)
    (h_staySeq : ¬ K .staySeq) (h_mot : ¬ K .mot) (h_net : ¬ K .net) (x0 : Nat) (x1 : Nat) (x2 : Bool)
    (h : Kept K a s) :
    Kept K a (ceEcc x0 x1 x2 s) := by
  unfold ceEcc
  with_reducible repeat' first
    | (assumption) | (intro) | (apply kept_record) | (apply kept_State_pb) | (apply kept_contained)
    | (apply kept_lpDisable) | (apply kept_foldl) | (apply kept_foldl_snd) | (apply kept_foldl_fst)
    | (apply kept_ite) | (dsimp only) | (split)

theorem kept_ceRun (h_regs : ¬ K .regs) (x0 : Nat) (x1 : List CeInstr) (x2 : List (Nat × Int)) (h : Kept K a s) :
    Kept K a (ceRun x0 x1 x2 s).2 := by
  induction x1 generalizing s x2 with
  | nil => exact h
  | cons x r ih =>
    unfold ceRun
    with_reducible repeat' first
      | (assumption) | (intro) | (apply ih) | (apply kept_putState) | (apply kept_done) | (apply kept_State_pb)
      | (apply kept_State_p) | (apply kept_foldl) | (apply kept_foldl_snd) | (apply kept_foldl_fst)
      | (apply kept_ite) | (dsimp only) | (split)

theorem kept_stnNvmRegs (h_regs : ¬ K .regs) (x0 : Nat) (h : Kept K a s) :
    Kept K a (stnNvmRegs x0 s) := by
  unfold stnNvmRegs
  with_reducible repeat' first
    | (assumption) | (intro) | (apply kept_overN) | (apply kept_State_p) | (apply kept_foldl)
    | (apply kept_foldl_snd) | (apply kept_foldl_fst) | (apply kept_ite) | (dsimp only) | (split)

theorem kept_resetCore (h_regs : ¬ K .regs) (h_latch : ¬ K .latch) (h_mem : ¬ K .mem) (h_time : ¬ K .time)
    (h_host : ¬ K .host) (h_err : ¬ K .err) (h_psq : ¬ K .psq) (h_ctx : ¬ K .ctx) (h_codec : ¬ K .codec)
    (h_stn : ¬ K .stn) (h_epoch : ¬ K .epoch) (h_staySeq : ¬ K .staySeq) (h_dram : ¬ K .dram) (h_clk : ¬ K .clk)
    (h_mon : ¬ K .mon) (h_rig : ¬ K .rig) (h_mot : ¬ K .mot) (h_thm : ¬ K .thm) (h_vis : ¬ K .vis) (h_net : ¬ K .net)
    (h_dma : ¬ K .dma) (x0 : Nat) (x1 : Nat) (h : Kept K a s) :
    Kept K a (resetCore x0 x1 s) := by
  unfold resetCore
  repeat' first
    | (with_reducible assumption) | (with_reducible intro) | (with_reducible apply kept_overN)
    | (with_reducible apply kept_stnNvmRegs) | (with_reducible apply kept_State_p)
    | (with_reducible apply kept_State_pz) | (with_reducible apply kept_csetSync)
    | (with_reducible apply kept_State_pb) | (with_reducible apply kept_foldl)
    | (with_reducible apply kept_foldl_snd) | (with_reducible apply kept_foldl_fst) | (with_reducible apply kept_ite)
    | (with_reducible dsimp only) | (with_reducible split)
    | (refine kept_reset h ⟨rfl, rfl, rfl, rfl⟩ rfl rfl (by dsimp only; (try split) <;> omega) _ rfl rfl rfl)

theorem kept_chipReset (h_regs : ¬ K .regs) (h_latch : ¬ K .latch) (h_mem : ¬ K .mem) (h_time : ¬ K .time)
    (h_free : ¬ K .free) (h_host : ¬ K .host) (h_err : ¬ K .err) (h_psq : ¬ K .psq) (h_ctx : ¬ K .ctx)
    (h_codec : ¬ K .codec) (h_stn : ¬ K .stn) (h_epoch : ¬ K .epoch) (h_staySeq : ¬ K .staySeq) (h_dram : ¬ K .dram)
    (h_clk : ¬ K .clk) (h_mon : ¬ K .mon) (h_rig : ¬ K .rig) (h_mot : ¬ K .mot) (h_thm : ¬ K .thm) (h_vis : ¬ K .vis)
    (h_net : ¬ K .net) (h_dma : ¬ K .dma) (x0 : Bool) (h : Kept K a s) :
    Kept K a (chipReset x0 s) := by
  unfold chipReset
  with_reducible repeat' first
    | (assumption) | (intro) | (apply kept_resetCore) | (apply kept_storeTear) | (apply kept_csetTear)
    | (apply kept_foldl) | (apply kept_foldl_snd) | (apply kept_foldl_fst) | (apply kept_ite) | (dsimp only)
    | (split)

theorem kept_settleReset (h_regs : ¬ K .regs) (h_latch : ¬ K .latch) (h_mem : ¬ K .mem) (h_time : ¬ K .time)
    (h_free : ¬ K .free) (h_host : ¬ K .host) (h_err : ¬ K .err) (h_psq : ¬ K .psq) (h_ctx : ¬ K .ctx)
    (h_codec : ¬ K .codec) (h_stn : ¬ K .stn) (h_epoch : ¬ K .epoch) (h_staySeq : ¬ K .staySeq) (h_dram : ¬ K .dram)
    (h_clk : ¬ K .clk) (h_mon : ¬ K .mon) (h_rig : ¬ K .rig) (h_mot : ¬ K .mot) (h_thm : ¬ K .thm) (h_vis : ¬ K .vis)
    (h_net : ¬ K .net) (h_dma : ¬ K .dma)  (h : Kept K a s) :
    Kept K a (settleReset s) := by
  unfold settleReset
  with_reducible repeat' first
    | (assumption) | (intro) | (apply kept_chipReset) | (apply kept_foldl) | (apply kept_foldl_snd)
    | (apply kept_foldl_fst) | (apply kept_ite) | (dsimp only) | (split)

theorem kept_chipResetWrite (h_regs : ¬ K .regs) (h_latch : ¬ K .latch) (h_mem : ¬ K .mem) (h_time : ¬ K .time)
    (h_free : ¬ K .free) (h_out : ¬ K .out) (h_host : ¬ K .host) (h_err : ¬ K .err) (h_psq : ¬ K .psq)
    (h_ctx : ¬ K .ctx) (h_codec : ¬ K .codec) (h_stn : ¬ K .stn) (h_epoch : ¬ K .epoch) (h_nvm : ¬ K .nvm)
    (h_staySeq : ¬ K .staySeq) (h_dram : ¬ K .dram) (h_clk : ¬ K .clk) (h_mon : ¬ K .mon) (h_rig : ¬ K .rig)
    (h_mot : ¬ K .mot) (h_pwr : ¬ K .pwr) (h_thm : ¬ K .thm) (h_vis : ¬ K .vis) (h_net : ¬ K .net) (h_dma : ¬ K .dma)
    (x0 : Sys2Proof.Word) (h : Kept K a s) :
    Kept K a (chipResetWrite x0 s) := by
  unfold chipResetWrite
  with_reducible repeat' first
    | (assumption) | (intro) | (apply kept_offRequest) | (apply kept_forceOutputs) | (apply kept_settleReset)
    | (apply kept_State_chipErr) | (apply kept_foldl) | (apply kept_foldl_snd) | (apply kept_foldl_fst)
    | (apply kept_ite) | (dsimp only) | (split)
    | (refine kept_mk ?_ (r_time := (absurd · h_time)) (r_host := (absurd · h_host)) (r_err := (absurd · h_err))
        (r_psq := (absurd · h_psq)) (r_ctx := (absurd · h_ctx)) (r_codec := (absurd · h_codec)) (r_stn :=
        (absurd · h_stn)) (r_nvm := (absurd · h_nvm)) (r_staySeq := (absurd · h_staySeq)) (r_dram :=
        (absurd · h_dram)) (r_clk := (absurd · h_clk)) (r_mon := (absurd · h_mon)) (r_rig := (absurd · h_rig)) (r_mot
        := (absurd · h_mot)) (r_pwr := (absurd · h_pwr)) (r_thm := (absurd · h_thm)) (r_vis := (absurd · h_vis))
        (r_net := (absurd · h_net)) (r_dma := (absurd · h_dma)))

theorem kept_ckoSyncAll (h_regs : ¬ K .regs)  (h : Kept K a s) :
    Kept K a (ckoSyncAll s) := by
  unfold ckoSyncAll
  with_reducible repeat' first
    | (assumption) | (intro) | (apply kept_overN) | (apply kept_ckoSync) | (apply kept_foldl)
    | (apply kept_foldl_snd) | (apply kept_foldl_fst) | (apply kept_ite) | (dsimp only) | (split)

theorem kept_stopIslands (h_regs : ¬ K .regs) (x0 : Bool) (h : Kept K a s) :
    Kept K a (stopIslands x0 s) := by
  unfold stopIslands
  with_reducible repeat' first
    | (assumption) | (intro) | (apply kept_overN) | (apply kept_islOn) | (apply kept_State_pb) | (apply kept_foldl)
    | (apply kept_foldl_snd) | (apply kept_foldl_fst) | (apply kept_ite) | (dsimp only) | (split)

theorem kept_stayFatal (h_regs : ¬ K .regs) (h_free : ¬ K .free) (h_out : ¬ K .out) (h_host : ¬ K .host)
    (h_err : ¬ K .err) (h_psq : ¬ K .psq) (h_ctx : ¬ K .ctx) (h_codec : ¬ K .codec) (h_stn : ¬ K .stn)
    (h_nvm : ¬ K .nvm) (h_staySeq : ¬ K .staySeq) (h_mot : ¬ K .mot) (x0 : Nat) (x1 : Nat) (h : Kept K a s) :
    Kept K a (stayFatal x0 x1 s) := by
  unfold stayFatal
  with_reducible repeat' first
    | (assumption) | (intro) | (apply kept_fatalChip) | (apply kept_nvmRecord) | (apply kept_foldl)
    | (apply kept_foldl_snd) | (apply kept_foldl_fst) | (apply kept_ite) | (dsimp only) | (split)
    | (refine kept_mk ?_ (r_host := (absurd · h_host)) (r_err := (absurd · h_err)) (r_psq := (absurd · h_psq)) (r_ctx
        := (absurd · h_ctx)) (r_codec := (absurd · h_codec)) (r_stn := (absurd · h_stn)) (r_nvm := (absurd · h_nvm))
        (r_staySeq := (absurd · h_staySeq)) (r_mot := (absurd · h_mot)))

theorem kept_clockFatal (h_regs : ¬ K .regs) (h_free : ¬ K .free) (h_out : ¬ K .out) (h_host : ¬ K .host)
    (h_err : ¬ K .err) (h_psq : ¬ K .psq) (h_ctx : ¬ K .ctx) (h_codec : ¬ K .codec) (h_stn : ¬ K .stn)
    (h_nvm : ¬ K .nvm) (h_staySeq : ¬ K .staySeq) (h_mot : ¬ K .mot) (x0 : Bool) (h : Kept K a s) :
    Kept K a (clockFatal x0 s) := by
  unfold clockFatal
  with_reducible repeat' first
    | (assumption) | (intro) | (apply kept_stopIslands) | (apply kept_stayFatal) | (apply kept_foldl)
    | (apply kept_foldl_snd) | (apply kept_foldl_fst) | (apply kept_ite) | (dsimp only) | (split)

theorem kept_take (h_regs : ¬ K .regs) (h_out : ¬ K .out) (h_host : ¬ K .host) (x0 : Sys2Proof.Instr) (x1 :
    Sys2Proof.Entry) (x2 : Nat) (x3 : State → State) (hf_x3 : ∀  t, Kept K a t → Kept K a (x3  t)) (h : Kept K a s) :
    Kept K a (take x0 x1 x2 x3 s) := by
  unfold take
  with_reducible repeat' first
    | (assumption) | (intro) | (apply hf_x3) | (apply kept_doom) | (apply kept_fetchEntry) | (apply kept_foldl)
    | (apply kept_foldl_snd) | (apply kept_foldl_fst) | (apply kept_ite) | (dsimp only) | (split)
    | (refine kept_mk ?_ (r_host := (absurd · h_host)))

theorem kept_meetAll (h_regs : ¬ K .regs) (h_out : ¬ K .out) (h_host : ¬ K .host) (h_err : ¬ K .err)
    (h_nvm : ¬ K .nvm) (h_staySeq : ¬ K .staySeq) (h_dram : ¬ K .dram) (h_net : ¬ K .net) (x0 : List (Nat × Nat))
    (h : Kept K a s) :
    Kept K a (meetAll x0 s) := by
  unfold meetAll
  with_reducible repeat' first
    | (assumption) | (intro) | (apply kept_meet) | (apply kept_foldl) | (apply kept_foldl_snd)
    | (apply kept_foldl_fst) | (apply kept_ite) | (dsimp only) | (split)

theorem kept_judge (h_regs : ¬ K .regs) (h_out : ¬ K .out) (h_host : ¬ K .host) (h_err : ¬ K .err) (h_nvm : ¬ K .nvm)
    (h_staySeq : ¬ K .staySeq) (h_dram : ¬ K .dram) (h_net : ¬ K .net) (x0 : Sys2Proof.Entry) (x1 : Nat) (x2 : State
    → Bool) (x3 : State → Bool) (x4 : State → State) (x5 : State → List (Nat × Nat)) (hf_x4 : ∀  t, Kept K a t → Kept
    K a (x4  t)) (h : Kept K a s) :
    Kept K a (judge x0 x1 x2 x3 x4 x5 s) := by
  unfold judge
  with_reducible repeat' first
    | (assumption) | (intro) | (apply hf_x4) | (apply kept_meetAll) | (apply kept_done) | (apply kept_foldl)
    | (apply kept_foldl_snd) | (apply kept_foldl_fst) | (apply kept_ite) | (dsimp only) | (split)

theorem kept_command (h_regs : ¬ K .regs) (h_out : ¬ K .out) (h_host : ¬ K .host) (h_err : ¬ K .err)
    (h_nvm : ¬ K .nvm) (h_staySeq : ¬ K .staySeq) (h_dram : ¬ K .dram) (h_net : ¬ K .net) (x0 : Sys2Proof.Instr) (x1
    : Sys2Proof.Entry) (x2 : Nat) (x3 : State → Bool) (x4 : State → Bool) (x5 : State → State) (x6 : optParam (State
    → List (Nat × Nat)) noReads) (hf_x5 : ∀  t, Kept K a t → Kept K a (x5  t)) (h : Kept K a s) :
    Kept K a (command x0 x1 x2 x3 x4 x5 x6 s) := by
  unfold command
  with_reducible repeat' first
    | (assumption) | (intro) | (apply hf_x5) | (apply kept_take) | (apply kept_judge) | (apply kept_foldl)
    | (apply kept_foldl_snd) | (apply kept_foldl_fst) | (apply kept_ite) | (dsimp only) | (split)

theorem kept_cmdBye (h_regs : ¬ K .regs) (h_out : ¬ K .out) (h_host : ¬ K .host) (h_err : ¬ K .err)
    (h_nvm : ¬ K .nvm) (h_staySeq : ¬ K .staySeq) (h_dram : ¬ K .dram) (h_net : ¬ K .net) (x0 : Sys2Proof.Entry)
    (h : Kept K a s) :
    Kept K a (cmdBye x0 s) := by
  unfold cmdBye
  with_reducible repeat' first
    | (assumption) | (intro) | (apply kept_live) | (apply kept_command) | (apply kept_startClose)
    | (apply kept_foldl) | (apply kept_foldl_snd) | (apply kept_foldl_fst) | (apply kept_ite) | (dsimp only)
    | (split)

theorem kept_cmdCameraCfg (h_regs : ¬ K .regs) (h_out : ¬ K .out) (h_host : ¬ K .host) (h_err : ¬ K .err)
    (h_nvm : ¬ K .nvm) (h_staySeq : ¬ K .staySeq) (h_dram : ¬ K .dram) (h_vis : ¬ K .vis) (h_net : ¬ K .net) (x0 :
    Sys2Proof.Entry) (x1 : BitVec 8) (x2 : BitVec 8) (x3 : BitVec 64) (h : Kept K a s) :
    Kept K a (cmdCameraCfg x0 x1 x2 x3 s) := by
  unfold cmdCameraCfg
  with_reducible repeat' first
    | (assumption) | (intro) | (apply kept_live) | (apply kept_command) | (apply kept_cameraCfg) | (apply kept_foldl)
    | (apply kept_foldl_snd) | (apply kept_foldl_fst) | (apply kept_ite) | (dsimp only) | (split)

theorem kept_vQueueSync (h_regs : ¬ K .regs)  (h : Kept K a s) :
    Kept K a (vQueueSync s) := by
  unfold vQueueSync
  with_reducible repeat' first
    | (assumption) | (intro) | (apply kept_State_p) | (apply kept_foldl) | (apply kept_foldl_snd)
    | (apply kept_foldl_fst) | (apply kept_ite) | (dsimp only) | (split)

theorem kept_cmpSync (h_regs : ¬ K .regs)  (h : Kept K a s) :
    Kept K a (cmpSync s) := by
  unfold cmpSync
  with_reducible repeat' first
    | (assumption) | (intro) | (apply kept_State_p) | (apply kept_foldl) | (apply kept_foldl_snd)
    | (apply kept_foldl_fst) | (apply kept_ite) | (dsimp only) | (split)

theorem kept_cmpStart (h_regs : ¬ K .regs) (h_codec : ¬ K .codec)  (h : Kept K a s) :
    Kept K a (cmpStart s) := by
  unfold cmpStart
  with_reducible repeat' first
    | (assumption) | (intro) | (apply kept_cmpSync) | (apply kept_State_p) | (apply kept_State_pb)
    | (apply kept_foldl) | (apply kept_foldl_snd) | (apply kept_foldl_fst) | (apply kept_ite) | (dsimp only)
    | (split) | (refine kept_mk ?_ (r_codec := (absurd · h_codec)))

theorem kept_cmpEnqueue (h_regs : ¬ K .regs) (h_codec : ¬ K .codec) (x0 : Job) (h : Kept K a s) :
    Kept K a (cmpEnqueue x0 s) := by
  unfold cmpEnqueue
  with_reducible repeat' first
    | (assumption) | (intro) | (apply kept_cmpStart) | (apply kept_cmpSync) | (apply kept_foldl)
    | (apply kept_foldl_snd) | (apply kept_foldl_fst) | (apply kept_ite) | (dsimp only) | (split)
    | (refine kept_mk ?_ (r_codec := (absurd · h_codec)))

theorem kept_codecJob (h_regs : ¬ K .regs) (h_out : ¬ K .out) (h_host : ¬ K .host) (h_codec : ¬ K .codec) (x0 :
    Sys2Proof.Entry) (x1 : Job) (h : Kept K a s) :
    Kept K a (codecJob x0 x1 s) := by
  unfold codecJob
  with_reducible repeat' first
    | (assumption) | (intro) | (apply kept_done) | (apply kept_vQueueSync) | (apply kept_begin_)
    | (apply kept_cmpEnqueue) | (apply kept_foldl) | (apply kept_foldl_snd) | (apply kept_foldl_fst)
    | (apply kept_ite) | (dsimp only) | (split)
    | (refine kept_mk ?_ (r_host := (absurd · h_host)) (r_codec := (absurd · h_codec)))

theorem kept_cmdCodecJob (h_regs : ¬ K .regs) (h_out : ¬ K .out) (h_host : ¬ K .host) (h_err : ¬ K .err)
    (h_codec : ¬ K .codec) (h_nvm : ¬ K .nvm) (h_staySeq : ¬ K .staySeq) (h_dram : ¬ K .dram) (h_net : ¬ K .net) (x0
    : Sys2Proof.Entry) (x1 : BitVec 8) (x2 : BitVec 8) (x3 : BitVec 64) (x4 : BitVec 32) (x5 : BitVec 32) (x6 :
    BitVec 64) (x7 : List Sys2Proof.Byte) (h : Kept K a s) :
    Kept K a (cmdCodecJob x0 x1 x2 x3 x4 x5 x6 x7 s) := by
  unfold cmdCodecJob
  with_reducible repeat' first
    | (assumption) | (intro) | (apply kept_live) | (apply kept_command) | (apply kept_codecJob) | (apply kept_foldl)
    | (apply kept_foldl_snd) | (apply kept_foldl_fst) | (apply kept_ite) | (dsimp only) | (split)

theorem kept_emitterSet (h_regs : ¬ K .regs) (h_out : ¬ K .out) (h_host : ¬ K .host) (h_psq : ¬ K .psq)
    (h_stn : ¬ K .stn) (h_clk : ¬ K .clk) (x0 : Sys2Proof.Entry) (x1 : Nat) (x2 : Nat) (x3 : Nat) (x4 : Nat) (x5 :
    Nat) (h : Kept K a s) :
    Kept K a (emitterSet x0 x1 x2 x3 x4 x5 s) := by
  unfold emitterSet
  with_reducible repeat' first
    | (assumption) | (intro) | (apply kept_done) | (apply kept_feedSync) | (apply kept_wearSave)
    | (apply kept_addGen) | (apply kept_foldl) | (apply kept_foldl_snd) | (apply kept_foldl_fst) | (apply kept_ite)
    | (dsimp only) | (split)

theorem kept_cmdEmitterSet (h_regs : ¬ K .regs) (h_out : ¬ K .out) (h_host : ¬ K .host) (h_err : ¬ K .err)
    (h_psq : ¬ K .psq) (h_stn : ¬ K .stn) (h_nvm : ¬ K .nvm) (h_staySeq : ¬ K .staySeq) (h_dram : ¬ K .dram)
    (h_clk : ¬ K .clk) (h_net : ¬ K .net) (x0 : Sys2Proof.Entry) (x1 : BitVec 8) (x2 : BitVec 8) (x3 : BitVec 8) (x4
    : BitVec 8) (x5 : BitVec 32) (h : Kept K a s) :
    Kept K a (cmdEmitterSet x0 x1 x2 x3 x4 x5 s) := by
  unfold cmdEmitterSet
  with_reducible repeat' first
    | (assumption) | (intro) | (apply kept_live) | (apply kept_command) | (apply kept_emitterSet)
    | (apply kept_foldl) | (apply kept_foldl_snd) | (apply kept_foldl_fst) | (apply kept_ite) | (dsimp only)
    | (split)

theorem kept_startUp (h_regs : ¬ K .regs) (h_pwr : ¬ K .pwr)  (h : Kept K a s) :
    Kept K a (startUp s) := by
  unfold startUp
  with_reducible repeat' first
    | (assumption) | (intro) | (apply kept_State_p) | (apply kept_State_pb) | (apply kept_setPwr)
    | (apply kept_foldl) | (apply kept_foldl_snd) | (apply kept_foldl_fst) | (apply kept_ite) | (dsimp only)
    | (split)

theorem kept_onRequest (h_regs : ¬ K .regs) (h_free : ¬ K .free) (h_pwr : ¬ K .pwr)  (h : Kept K a s) :
    Kept K a (onRequest s) := by
  unfold onRequest
  with_reducible repeat' first
    | (assumption) | (intro) | (apply kept_vinSample) | (apply kept_startUp) | (apply kept_State_pb)
    | (apply kept_foldl) | (apply kept_foldl_snd) | (apply kept_foldl_fst) | (apply kept_ite) | (dsimp only)
    | (split)

theorem kept_releaseOutputs (h_regs : ¬ K .regs)  (h : Kept K a s) :
    Kept K a (releaseOutputs s) := by
  unfold releaseOutputs
  with_reducible repeat' first
    | (assumption) | (intro) | (apply kept_State_pb) | (apply kept_foldl) | (apply kept_foldl_snd)
    | (apply kept_foldl_fst) | (apply kept_ite) | (dsimp only) | (split)

theorem kept_lightAll (h_out : ¬ K .out) (h_stn : ¬ K .stn)  (h : Kept K a s) :
    Kept K a (lightAll s) := by
  unfold lightAll
  with_reducible repeat' first
    | (assumption) | (intro) | (apply kept_overN) | (apply kept_sendControl) | (apply kept_foldl)
    | (apply kept_foldl_snd) | (apply kept_foldl_fst) | (apply kept_ite) | (dsimp only) | (split)

theorem kept_engineStart (h_regs : ¬ K .regs) (h_free : ¬ K .free) (h_out : ¬ K .out) (h_host : ¬ K .host)
    (h_psq : ¬ K .psq) (h_stn : ¬ K .stn) (h_clk : ¬ K .clk) (h_pwr : ¬ K .pwr) (x0 : Sys2Proof.Entry)
    (h : Kept K a s) :
    Kept K a (engineStart x0 s) := by
  unfold engineStart
  with_reducible repeat' first
    | (assumption) | (intro) | (apply kept_done) | (apply kept_State_setEngine) | (apply kept_onRequest)
    | (apply kept_releaseOutputs) | (apply kept_wake) | (apply kept_lightAll) | (apply kept_warmupSpeeds)
    | (apply kept_foldl) | (apply kept_foldl_snd) | (apply kept_foldl_fst) | (apply kept_ite) | (dsimp only)
    | (split)
    | (refine kept_mk ?_ (r_host := (absurd · h_host)) (r_psq := (absurd · h_psq)) (r_stn := (absurd · h_stn)) (r_clk
        := (absurd · h_clk)) (r_pwr := (absurd · h_pwr)))

theorem kept_cmdEngineStart (h_regs : ¬ K .regs) (h_free : ¬ K .free) (h_out : ¬ K .out) (h_host : ¬ K .host)
    (h_err : ¬ K .err) (h_psq : ¬ K .psq) (h_stn : ¬ K .stn) (h_nvm : ¬ K .nvm) (h_staySeq : ¬ K .staySeq)
    (h_dram : ¬ K .dram) (h_clk : ¬ K .clk) (h_pwr : ¬ K .pwr) (h_net : ¬ K .net) (x0 : Sys2Proof.Entry)
    (h : Kept K a s) :
    Kept K a (cmdEngineStart x0 s) := by
  unfold cmdEngineStart
  with_reducible repeat' first
    | (assumption) | (intro) | (apply kept_live) | (apply kept_command) | (apply kept_engineStart)
    | (apply kept_foldl) | (apply kept_foldl_snd) | (apply kept_foldl_fst) | (apply kept_ite) | (dsimp only)
    | (split)

theorem kept_islReset (h_regs : ¬ K .regs) (x0 : Nat) (x1 : Bool) (h : Kept K a s) :
    Kept K a (islReset x0 x1 s) := by
  unfold islReset
  with_reducible repeat' first
    | (assumption) | (intro) | (apply kept_overN) | (apply kept_State_pb) | (apply kept_foldl)
    | (apply kept_foldl_snd) | (apply kept_foldl_fst) | (apply kept_ite) | (dsimp only) | (split)

theorem kept_resetRegions (h_regs : ¬ K .regs) (h_mem : ¬ K .mem) (h_err : ¬ K .err) (h_dram : ¬ K .dram)
    (h : Kept K a s) :
    Kept K a (resetRegions s) := by
  unfold resetRegions
  with_reducible repeat' first
    | (assumption) | (intro) | (apply kept_islReset) | (apply kept_startTraining) | (apply kept_foldl)
    | (apply kept_foldl_snd) | (apply kept_foldl_fst) | (apply kept_ite) | (dsimp only) | (split)
    | (refine kept_mk ?_ (r_err := (absurd · h_err)) (r_dram := (absurd · h_dram)))

theorem kept_recoverFurl (h_regs : ¬ K .regs) (h_mem : ¬ K .mem) (h_free : ¬ K .free) (h_out : ¬ K .out)
    (h_err : ¬ K .err) (h_psq : ¬ K .psq) (h_ctx : ¬ K .ctx) (h_stn : ¬ K .stn) (h_dram : ¬ K .dram)
    (h_mot : ¬ K .mot)  (h : Kept K a s) :
    Kept K a (recoverFurl s) := by
  unfold recoverFurl
  with_reducible repeat' first
    | (assumption) | (intro) | (apply kept_furl) | (apply kept_releaseOutputs) | (apply kept_resetRegions)
    | (apply kept_foldl) | (apply kept_foldl_snd) | (apply kept_foldl_fst) | (apply kept_ite) | (dsimp only)
    | (split)
    | (refine kept_mk ?_ (r_err := (absurd · h_err)) (r_psq := (absurd · h_psq)) (r_ctx := (absurd · h_ctx)) (r_stn
        := (absurd · h_stn)) (r_dram := (absurd · h_dram)) (r_mot := (absurd · h_mot)))

theorem kept_engineStop (h_regs : ¬ K .regs) (h_mem : ¬ K .mem) (h_free : ¬ K .free) (h_out : ¬ K .out)
    (h_host : ¬ K .host) (h_err : ¬ K .err) (h_psq : ¬ K .psq) (h_ctx : ¬ K .ctx) (h_codec : ¬ K .codec)
    (h_stn : ¬ K .stn) (h_dram : ¬ K .dram) (h_mot : ¬ K .mot) (x0 : Sys2Proof.Entry) (h : Kept K a s) :
    Kept K a (engineStop x0 s) := by
  unfold engineStop
  with_reducible repeat' first
    | (assumption) | (intro) | (apply kept_done) | (apply kept_furlWarmup) | (apply kept_startDrain)
    | (apply kept_recoverFurl) | (apply kept_foldl) | (apply kept_foldl_snd) | (apply kept_foldl_fst)
    | (apply kept_ite) | (dsimp only) | (split)

theorem kept_cmdEngineStop (h_regs : ¬ K .regs) (h_mem : ¬ K .mem) (h_free : ¬ K .free) (h_out : ¬ K .out)
    (h_host : ¬ K .host) (h_err : ¬ K .err) (h_psq : ¬ K .psq) (h_ctx : ¬ K .ctx) (h_codec : ¬ K .codec)
    (h_stn : ¬ K .stn) (h_nvm : ¬ K .nvm) (h_staySeq : ¬ K .staySeq) (h_dram : ¬ K .dram) (h_mot : ¬ K .mot)
    (h_net : ¬ K .net) (x0 : Sys2Proof.Entry) (h : Kept K a s) :
    Kept K a (cmdEngineStop x0 s) := by
  unfold cmdEngineStop
  with_reducible repeat' first
    | (assumption) | (intro) | (apply kept_live) | (apply kept_command) | (apply kept_engineStop)
    | (apply kept_foldl) | (apply kept_foldl_snd) | (apply kept_foldl_fst) | (apply kept_ite) | (dsimp only)
    | (split)

theorem kept_startUpload (h_regs : ¬ K .regs) (h_out : ¬ K .out) (h_host : ¬ K .host) (h_codec : ¬ K .codec)
    (h_vis : ¬ K .vis) (x0 : Job) (x1 : Nat × CamGen) (x2 : Nat) (h : Kept K a s) :
    Kept K a (startUpload x0 x1 x2 s) := by
  unfold startUpload
  with_reducible repeat' first
    | (assumption) | (intro) | (apply kept_complete) | (apply kept_cmpEnqueue) | (apply kept_foldl)
    | (apply kept_foldl_snd) | (apply kept_foldl_fst) | (apply kept_ite) | (dsimp only) | (split)
    | (refine kept_mk ?_ (r_host := (absurd · h_host)) (r_codec := (absurd · h_codec)) (r_vis := (absurd · h_vis)))

theorem kept_frameUpload (h_regs : ¬ K .regs) (h_out : ¬ K .out) (h_host : ¬ K .host) (h_codec : ¬ K .codec)
    (h_vis : ¬ K .vis) (x0 : Sys2Proof.Entry) (x1 : Nat) (x2 : Nat) (x3 : Nat) (x4 : Nat) (x5 : Bool) (x6 : Bool)
    (h : Kept K a s) :
    Kept K a (frameUpload x0 x1 x2 x3 x4 x5 x6 s) := by
  unfold frameUpload
  with_reducible repeat' first
    | (assumption) | (intro) | (apply kept_done) | (apply kept_begin_) | (apply kept_startUpload)
    | (apply kept_foldl) | (apply kept_foldl_snd) | (apply kept_foldl_fst) | (apply kept_ite) | (dsimp only)
    | (split)
    | (refine kept_mk ?_ (r_host := (absurd · h_host)) (r_codec := (absurd · h_codec)) (r_vis := (absurd · h_vis)))

theorem kept_cmdFrameUpload (h_regs : ¬ K .regs) (h_out : ¬ K .out) (h_host : ¬ K .host) (h_err : ¬ K .err)
    (h_codec : ¬ K .codec) (h_nvm : ¬ K .nvm) (h_staySeq : ¬ K .staySeq) (h_dram : ¬ K .dram) (h_vis : ¬ K .vis)
    (h_net : ¬ K .net) (x0 : Sys2Proof.Entry) (x1 : BitVec 8) (x2 : BitVec 32) (x3 : BitVec 64) (x4 : BitVec 32) (x5
    : Bool) (x6 : Bool) (h : Kept K a s) :
    Kept K a (cmdFrameUpload x0 x1 x2 x3 x4 x5 x6 s) := by
  unfold cmdFrameUpload
  with_reducible repeat' first
    | (assumption) | (intro) | (apply kept_live) | (apply kept_command) | (apply kept_frameUpload)
    | (apply kept_foldl) | (apply kept_foldl_snd) | (apply kept_foldl_fst) | (apply kept_ite) | (dsimp only)
    | (split)

theorem kept_hello (h_regs : ¬ K .regs) (h_out : ¬ K .out) (h_host : ¬ K .host) (x0 : Sys2Proof.Entry) (x1 : Nat) (x2
    : Nat) (h : Kept K a s) :
    Kept K a (hello x0 x1 x2 s) := by
  unfold hello
  with_reducible repeat' first
    | (assumption) | (intro) | (apply kept_done) | (apply kept_State_p) | (apply kept_State_pb) | (apply kept_foldl)
    | (apply kept_foldl_snd) | (apply kept_foldl_fst) | (apply kept_ite) | (dsimp only) | (split)

theorem kept_cmdHello (h_regs : ¬ K .regs) (h_out : ¬ K .out) (h_host : ¬ K .host) (x0 : Sys2Proof.Entry) (x1 :
    BitVec 16) (x2 : BitVec 16) (h : Kept K a s) :
    Kept K a (cmdHello x0 x1 x2 s) := by
  unfold cmdHello
  with_reducible repeat' first
    | (assumption) | (intro) | (apply kept_live) | (apply kept_take) | (apply kept_hello) | (apply kept_foldl)
    | (apply kept_foldl_snd) | (apply kept_foldl_fst) | (apply kept_ite) | (dsimp only) | (split)

theorem kept_logRead (h_host : ¬ K .host) (x0 : Sys2Proof.Entry) (x1 : Nat) (x2 : Nat) (x3 : Nat) (x4 : Nat) (x5 :
    Bool) (h : Kept K a s) :
    Kept K a (logRead x0 x1 x2 x3 x4 x5 s) := by
  unfold logRead
  with_reducible repeat' first
    | (assumption) | (intro) | (apply kept_begin_) | (apply kept_foldl) | (apply kept_foldl_snd)
    | (apply kept_foldl_fst) | (apply kept_ite) | (dsimp only) | (split)
    | (refine kept_mk ?_ (r_host := (absurd · h_host)))

theorem kept_cmdLogRead (h_regs : ¬ K .regs) (h_out : ¬ K .out) (h_host : ¬ K .host) (h_err : ¬ K .err)
    (h_nvm : ¬ K .nvm) (h_staySeq : ¬ K .staySeq) (h_dram : ¬ K .dram) (h_net : ¬ K .net) (x0 : Sys2Proof.Entry) (x1
    : BitVec 8) (x2 : BitVec 32) (x3 : BitVec 64) (x4 : BitVec 32) (x5 : Bool) (h : Kept K a s) :
    Kept K a (cmdLogRead x0 x1 x2 x3 x4 x5 s) := by
  unfold cmdLogRead
  with_reducible repeat' first
    | (assumption) | (intro) | (apply kept_live) | (apply kept_command) | (apply kept_logRead) | (apply kept_foldl)
    | (apply kept_foldl_snd) | (apply kept_foldl_fst) | (apply kept_ite) | (dsimp only) | (split)

theorem kept_cmdLoss (h_regs : ¬ K .regs) (h_free : ¬ K .free) (h_out : ¬ K .out) (h_host : ¬ K .host)
    (h_err : ¬ K .err) (h_psq : ¬ K .psq) (h_ctx : ¬ K .ctx) (h_stn : ¬ K .stn) (h_nvm : ¬ K .nvm)
    (h_staySeq : ¬ K .staySeq) (h_mot : ¬ K .mot) (h_net : ¬ K .net) (x0 : Nat) (h : Kept K a s) :
    Kept K a (cmdLoss x0 s) := by
  unfold cmdLoss
  with_reducible repeat' first
    | (assumption) | (intro) | (apply kept_setCmd) | (apply kept_State_pb) | (apply kept_mcStop)
    | (apply kept_corrected) | (apply kept_State_p) | (apply kept_foldl) | (apply kept_foldl_snd)
    | (apply kept_foldl_fst) | (apply kept_ite) | (dsimp only) | (split)

theorem kept_cmdPeriod (h_regs : ¬ K .regs) (h_mot : ¬ K .mot) (x0 : Nat) (x1 : Nat) (x2 : Nat) (h : Kept K a s) :
    Kept K a (cmdPeriod x0 x1 x2 s) := by
  unfold cmdPeriod
  with_reducible repeat' first
    | (assumption) | (intro) | (apply kept_setCmd) | (apply kept_State_p) | (apply kept_foldl)
    | (apply kept_foldl_snd) | (apply kept_foldl_fst) | (apply kept_ite) | (dsimp only) | (split)

theorem kept_unstep (h_stn : ¬ K .stn) (h_vis : ¬ K .vis) (x0 : Nat) (h : Kept K a s) :
    Kept K a (unstep x0 s) := by
  unfold unstep
  with_reducible repeat' first
    | (assumption) | (intro) | (apply kept_State_modStn) | (apply kept_foldl) | (apply kept_foldl_snd)
    | (apply kept_foldl_fst) | (apply kept_ite) | (dsimp only) | (split)
    | (refine kept_mk ?_ (r_stn := (absurd · h_stn)) (r_vis := (absurd · h_vis)))

theorem kept_newEpoch (h_regs : ¬ K .regs) (h_vis : ¬ K .vis) (x0 : Nat) (h : Kept K a s) :
    Kept K a (newEpoch x0 s) := by
  unfold newEpoch
  with_reducible repeat' first
    | (assumption) | (intro) | (apply kept_State_p) | (apply kept_foldl) | (apply kept_foldl_snd)
    | (apply kept_foldl_fst) | (apply kept_ite) | (dsimp only) | (split)
    | (refine kept_mk ?_ (r_vis := (absurd · h_vis)))

theorem kept_setAdjust (h_regs : ¬ K .regs) (h_psq : ¬ K .psq) (h_stn : ¬ K .stn) (h_vis : ¬ K .vis) (x0 : Nat) (x1 :
    Int) (x2 : Int) (x3 : Int) (h : Kept K a s) :
    Kept K a (setAdjust x0 x1 x2 x3 s) := by
  unfold setAdjust
  with_reducible repeat' first
    | (assumption) | (intro) | (apply kept_newEpoch) | (apply kept_State_modStn) | (apply kept_noteChange)
    | (apply kept_foldl) | (apply kept_foldl_snd) | (apply kept_foldl_fst) | (apply kept_ite) | (dsimp only)
    | (split)

theorem kept_registerAdjust (h_regs : ¬ K .regs) (h_out : ¬ K .out) (h_host : ¬ K .host) (h_psq : ¬ K .psq)
    (h_stn : ¬ K .stn) (h_vis : ¬ K .vis) (x0 : Sys2Proof.Entry) (x1 : Nat) (x2 : Nat) (x3 : Int) (x4 : Int) (x5 :
    Int) (x6 : Int) (h : Kept K a s) :
    Kept K a (registerAdjust x0 x1 x2 x3 x4 x5 x6 s) := by
  unfold registerAdjust
  with_reducible repeat' first
    | (assumption) | (intro) | (apply kept_unstep) | (apply kept_done) | (apply kept_setAdjust) | (apply kept_foldl)
    | (apply kept_foldl_snd) | (apply kept_foldl_fst) | (apply kept_ite) | (dsimp only) | (split)

theorem kept_cmdRegisterAdjust (h_regs : ¬ K .regs) (h_out : ¬ K .out) (h_host : ¬ K .host) (h_err : ¬ K .err)
    (h_psq : ¬ K .psq) (h_stn : ¬ K .stn) (h_nvm : ¬ K .nvm) (h_staySeq : ¬ K .staySeq) (h_dram : ¬ K .dram)
    (h_vis : ¬ K .vis) (h_net : ¬ K .net) (x0 : Sys2Proof.Entry) (x1 : BitVec 8) (x2 : BitVec 8) (x3 : BitVec 32) (x4
    : BitVec 32) (x5 : BitVec 8) (x6 : BitVec 32) (h : Kept K a s) :
    Kept K a (cmdRegisterAdjust x0 x1 x2 x3 x4 x5 x6 s) := by
  unfold cmdRegisterAdjust
  with_reducible repeat' first
    | (assumption) | (intro) | (apply kept_live) | (apply kept_command) | (apply kept_registerAdjust)
    | (apply kept_foldl) | (apply kept_foldl_snd) | (apply kept_foldl_fst) | (apply kept_ite) | (dsimp only)
    | (split)

theorem kept_stnSettle (h_regs : ¬ K .regs) (h_out : ¬ K .out) (h_psq : ¬ K .psq) (h_stn : ¬ K .stn)
    (h_clk : ¬ K .clk) (x0 : Nat) (h : Kept K a s) :
    Kept K a (stnSettle x0 s) := by
  unfold stnSettle
  with_reducible repeat' first
    | (assumption) | (intro) | (apply kept_boostGens) | (apply kept_activateTry) | (apply kept_dropHeld)
    | (apply kept_foldl) | (apply kept_foldl_snd) | (apply kept_foldl_fst) | (apply kept_ite) | (dsimp only)
    | (split)

theorem kept_stnSettleAll (h_regs : ¬ K .regs) (h_out : ¬ K .out) (h_psq : ¬ K .psq) (h_stn : ¬ K .stn)
    (h_clk : ¬ K .clk)  (h : Kept K a s) :
    Kept K a (stnSettleAll s) := by
  unfold stnSettleAll
  with_reducible repeat' first
    | (assumption) | (intro) | (apply kept_overN) | (apply kept_stnSettle) | (apply kept_foldl)
    | (apply kept_foldl_snd) | (apply kept_foldl_fst) | (apply kept_ite) | (dsimp only) | (split)

theorem kept_retireCtx (h_regs : ¬ K .regs) (h_out : ¬ K .out) (h_psq : ¬ K .psq) (h_stn : ¬ K .stn) (x0 : Nat)
    (h : Kept K a s) :
    Kept K a (retireCtx x0 s) := by
  unfold retireCtx
  with_reducible repeat' first
    | (assumption) | (intro) | (apply kept_overN) | (apply kept_forgetSweeps) | (apply kept_purge)
    | (apply kept_State_p) | (apply kept_printSync) | (apply kept_psqSync) | (apply kept_foldl)
    | (apply kept_foldl_snd) | (apply kept_foldl_fst) | (apply kept_ite) | (dsimp only) | (split)

theorem kept_sheetDone (h_regs : ¬ K .regs) (h_out : ¬ K .out) (h_host : ¬ K .host) (h_psq : ¬ K .psq)
    (h_stn : ¬ K .stn) (h_clk : ¬ K .clk) (h_net : ¬ K .net) (x0 : Nat) (h : Kept K a s) :
    Kept K a (sheetDone x0 s) := by
  unfold sheetDone
  with_reducible repeat' first
    | (assumption) | (intro) | (apply kept_writeCqe) | (apply kept_notifyAll) | (apply kept_stnSettleAll)
    | (apply kept_retireCtx) | (apply kept_foldl) | (apply kept_foldl_snd) | (apply kept_foldl_fst)
    | (apply kept_ite) | (dsimp only) | (split)

theorem kept_jamCleared (h_regs : ¬ K .regs) (h_out : ¬ K .out) (h_host : ¬ K .host) (h_psq : ¬ K .psq)
    (h_ctx : ¬ K .ctx) (h_stn : ¬ K .stn) (h_clk : ¬ K .clk) (h_net : ¬ K .net) (x0 : Nat) (h : Kept K a s) :
    Kept K a (jamCleared x0 s) := by
  unfold jamCleared
  with_reducible repeat' first
    | (assumption) | (intro) | (apply kept_sheetDone) | (apply kept_State_modCtx) | (apply kept_foldl)
    | (apply kept_foldl_snd) | (apply kept_foldl_fst) | (apply kept_ite) | (dsimp only) | (split)

theorem kept_sheetAbort (h_regs : ¬ K .regs) (h_free : ¬ K .free) (h_out : ¬ K .out) (h_host : ¬ K .host)
    (h_psq : ¬ K .psq) (h_ctx : ¬ K .ctx) (h_stn : ¬ K .stn) (h_clk : ¬ K .clk) (h_net : ¬ K .net) (x0 :
    Sys2Proof.Entry) (x1 : Nat) (h : Kept K a s) :
    Kept K a (sheetAbort x0 x1 s) := by
  unfold sheetAbort
  with_reducible repeat' first
    | (assumption) | (intro) | (apply kept_done) | (apply kept_releaseArmed) | (apply kept_feedSync)
    | (apply kept_stnSettleAll) | (apply kept_spoil) | (apply kept_jamCleared) | (apply kept_foldl)
    | (apply kept_foldl_snd) | (apply kept_foldl_fst) | (apply kept_ite) | (dsimp only) | (split) | (apply kept_id)

theorem kept_cmdSheetAbort (h_regs : ¬ K .regs) (h_free : ¬ K .free) (h_out : ¬ K .out) (h_host : ¬ K .host)
    (h_err : ¬ K .err) (h_psq : ¬ K .psq) (h_ctx : ¬ K .ctx) (h_stn : ¬ K .stn) (h_nvm : ¬ K .nvm)
    (h_staySeq : ¬ K .staySeq) (h_dram : ¬ K .dram) (h_clk : ¬ K .clk) (h_net : ¬ K .net) (x0 : Sys2Proof.Entry) (x1
    : BitVec 32) (h : Kept K a s) :
    Kept K a (cmdSheetAbort x0 x1 s) := by
  unfold cmdSheetAbort
  with_reducible repeat' first
    | (assumption) | (intro) | (apply kept_live) | (apply kept_command) | (apply kept_sheetAbort)
    | (apply kept_foldl) | (apply kept_foldl_snd) | (apply kept_foldl_fst) | (apply kept_ite) | (dsimp only)
    | (split) | (apply kept_id)

theorem kept_commitLoad (h_regs : ¬ K .regs) (h_out : ¬ K .out) (h_host : ¬ K .host) (h_psq : ¬ K .psq)
    (h_ctx : ¬ K .ctx) (h_codec : ¬ K .codec) (x0 : Sys2Proof.Entry) (x1 : CommitIn) (x2 : Nat) (h : Kept K a s) :
    Kept K a (commitLoad x0 x1 x2 s) := by
  unfold commitLoad
  with_reducible repeat' first
    | (assumption) | (intro) | (apply kept_begin_) | (apply kept_State_setCtx) | (apply kept_State_p)
    | (apply kept_State_setReg) | (apply kept_psqSync) | (apply kept_vQueueSync) | (apply kept_foldl)
    | (apply kept_foldl_snd) | (apply kept_foldl_fst) | (apply kept_ite) | (dsimp only) | (split) | (apply kept_id)
    | (refine kept_mk ?_ (r_host := (absurd · h_host)) (r_psq := (absurd · h_psq)) (r_ctx := (absurd · h_ctx))
        (r_codec := (absurd · h_codec)))

theorem kept_sheetCommit (h_regs : ¬ K .regs) (h_out : ¬ K .out) (h_host : ¬ K .host) (h_psq : ¬ K .psq)
    (h_ctx : ¬ K .ctx) (h_codec : ¬ K .codec) (x0 : Sys2Proof.Entry) (x1 : CommitIn) (h : Kept K a s) :
    Kept K a (sheetCommit x0 x1 s) := by
  unfold sheetCommit
  with_reducible repeat' first
    | (assumption) | (intro) | (apply kept_done) | (apply kept_commitLoad) | (apply kept_wake) | (apply kept_foldl)
    | (apply kept_foldl_snd) | (apply kept_foldl_fst) | (apply kept_ite) | (dsimp only) | (split)

theorem kept_cmdSheetCommit (h_regs : ¬ K .regs) (h_out : ¬ K .out) (h_host : ¬ K .host) (h_err : ¬ K .err)
    (h_psq : ¬ K .psq) (h_ctx : ¬ K .ctx) (h_codec : ¬ K .codec) (h_nvm : ¬ K .nvm) (h_staySeq : ¬ K .staySeq)
    (h_dram : ¬ K .dram) (h_net : ¬ K .net) (x0 : Sys2Proof.Entry) (x1 : BitVec 32) (x2 : BitVec 8) (x3 : BitVec 8)
    (x4 : BitVec 64) (x5 : BitVec 32) (x6 : BitVec 32) (x7 : BitVec 64) (h : Kept K a s) :
    Kept K a (cmdSheetCommit x0 x1 x2 x3 x4 x5 x6 x7 s) := by
  unfold cmdSheetCommit
  with_reducible repeat' first
    | (assumption) | (intro) | (apply kept_live) | (apply kept_command) | (apply kept_sheetCommit)
    | (apply kept_foldl) | (apply kept_foldl_snd) | (apply kept_foldl_fst) | (apply kept_ite) | (dsimp only)
    | (split) | (apply kept_id)

theorem kept_speedApply (h_regs : ¬ K .regs) (h_out : ¬ K .out) (h_psq : ¬ K .psq) (h_ctx : ¬ K .ctx)
    (h_stn : ¬ K .stn) (h_clk : ¬ K .clk) (x0 : Nat) (x1 : Nat) (h : Kept K a s) :
    Kept K a (speedApply x0 x1 s) := by
  unfold speedApply
  with_reducible repeat' first
    | (assumption) | (intro) | (apply kept_State_p) | (apply kept_noteChange) | (apply kept_State_modCtx)
    | (apply kept_overN) | (apply kept_linkOkSync) | (apply kept_winSync) | (apply kept_psqSync)
    | (apply kept_feedSync) | (apply kept_warmupSpeeds) | (apply kept_foldl) | (apply kept_foldl_snd)
    | (apply kept_foldl_fst) | (apply kept_ite) | (dsimp only) | (split)

theorem kept_speedSet (h_regs : ¬ K .regs) (h_out : ¬ K .out) (h_host : ¬ K .host) (h_psq : ¬ K .psq)
    (h_ctx : ¬ K .ctx) (h_stn : ¬ K .stn) (h_clk : ¬ K .clk) (x0 : Sys2Proof.Entry) (x1 : Nat) (x2 : Nat)
    (h : Kept K a s) :
    Kept K a (speedSet x0 x1 x2 s) := by
  unfold speedSet
  with_reducible repeat' first
    | (assumption) | (intro) | (apply kept_done) | (apply kept_speedApply) | (apply kept_foldl)
    | (apply kept_foldl_snd) | (apply kept_foldl_fst) | (apply kept_ite) | (dsimp only) | (split)

theorem kept_cmdSpeedSet (h_regs : ¬ K .regs) (h_out : ¬ K .out) (h_host : ¬ K .host) (h_err : ¬ K .err)
    (h_psq : ¬ K .psq) (h_ctx : ¬ K .ctx) (h_stn : ¬ K .stn) (h_nvm : ¬ K .nvm) (h_staySeq : ¬ K .staySeq)
    (h_dram : ¬ K .dram) (h_clk : ¬ K .clk) (h_net : ¬ K .net) (x0 : Sys2Proof.Entry) (x1 : BitVec 32) (x2 : BitVec
    8) (h : Kept K a s) :
    Kept K a (cmdSpeedSet x0 x1 x2 s) := by
  unfold cmdSpeedSet
  with_reducible repeat' first
    | (assumption) | (intro) | (apply kept_live) | (apply kept_command) | (apply kept_speedSet) | (apply kept_foldl)
    | (apply kept_foldl_snd) | (apply kept_foldl_fst) | (apply kept_ite) | (dsimp only) | (split)

theorem kept_stationCfg (h_regs : ¬ K .regs) (h_out : ¬ K .out) (h_host : ¬ K .host) (h_psq : ¬ K .psq)
    (h_stn : ¬ K .stn) (h_clk : ¬ K .clk) (x0 : Sys2Proof.Entry) (x1 : Nat) (x2 : Nat) (x3 : Gen) (h : Kept K a s) :
    Kept K a (stationCfg x0 x1 x2 x3 s) := by
  unfold stationCfg
  with_reducible repeat' first
    | (assumption) | (intro) | (apply kept_done) | (apply kept_feedSync) | (apply kept_addGen) | (apply kept_wake)
    | (apply kept_foldl) | (apply kept_foldl_snd) | (apply kept_foldl_fst) | (apply kept_ite) | (dsimp only)
    | (split)

theorem kept_maskFlag (h_regs : ¬ K .regs) (x0 : Sys2Proof.Entry) (x1 : Nat) (x2 : Nat) (x3 : Nat) (h : Kept K a s) :
    Kept K a (maskFlag x0 x1 x2 x3 s) := by
  unfold maskFlag
  with_reducible repeat' first
    | (assumption) | (intro) | (apply kept_State_pb) | (apply kept_foldl) | (apply kept_foldl_snd)
    | (apply kept_foldl_fst) | (apply kept_ite) | (dsimp only) | (split)

theorem kept_cmdStationCfg (h_regs : ¬ K .regs) (h_out : ¬ K .out) (h_host : ¬ K .host) (h_err : ¬ K .err)
    (h_psq : ¬ K .psq) (h_stn : ¬ K .stn) (h_nvm : ¬ K .nvm) (h_staySeq : ¬ K .staySeq) (h_dram : ¬ K .dram)
    (h_clk : ¬ K .clk) (h_net : ¬ K .net) (x0 : Sys2Proof.Entry) (x1 : BitVec 8) (x2 : BitVec 8) (x3 : BitVec 64)
    (h : Kept K a s) :
    Kept K a (cmdStationCfg x0 x1 x2 x3 s) := by
  unfold cmdStationCfg
  with_reducible repeat' first
    | (assumption) | (intro) | (apply kept_live) | (apply kept_command) | (apply kept_stationCfg)
    | (apply kept_maskFlag) | (apply kept_foldl) | (apply kept_foldl_snd) | (apply kept_foldl_fst) | (apply kept_ite)
    | (dsimp only) | (split)

theorem kept_report (h_regs : ¬ K .regs) (h_free : ¬ K .free) (h_stn : ¬ K .stn) (h_thm : ¬ K .thm) (x0 : Nat) (x1 :
    Nat) (h : Kept K a s) :
    Kept K a (report x0 x1 s).2 := by
  unfold report
  with_reducible repeat' first
    | (assumption) | (intro) | (apply kept_State_modStn) | (apply kept_vinSample) | (apply kept_foldl)
    | (apply kept_foldl_snd) | (apply kept_foldl_fst) | (apply kept_ite) | (dsimp only) | (split)
    | (refine kept_mk ?_ (r_stn := (absurd · h_stn)) (r_thm := (absurd · h_thm)))

theorem kept_mbxPut (h_regs : ¬ K .regs) (h_host : ¬ K .host) (x0 : Nat) (x1 : Nat) (x2 : Nat) (x3 : List Nat)
    (h : Kept K a s) :
    Kept K a (mbxPut x0 x1 x2 x3 s) := by
  unfold mbxPut
  with_reducible repeat' first
    | (assumption) | (intro) | (apply kept_mbxValid) | (apply kept_State_p) | (apply kept_foldl)
    | (apply kept_foldl_snd) | (apply kept_foldl_fst) | (apply kept_ite) | (dsimp only) | (split)
    | (refine kept_mk ?_ (r_host := (absurd · h_host)))

theorem kept_statusQuery (h_regs : ¬ K .regs) (h_free : ¬ K .free) (h_out : ¬ K .out) (h_host : ¬ K .host)
    (h_stn : ¬ K .stn) (h_thm : ¬ K .thm) (x0 : Sys2Proof.Entry) (x1 : Nat) (x2 : Nat) (x3 : Nat) (h : Kept K a s) :
    Kept K a (statusQuery x0 x1 x2 x3 s) := by
  unfold statusQuery
  with_reducible repeat' first
    | (assumption) | (intro) | (apply kept_report) | (apply kept_mbxPut) | (apply kept_done) | (apply kept_foldl)
    | (apply kept_foldl_snd) | (apply kept_foldl_fst) | (apply kept_ite) | (dsimp only) | (split)

theorem kept_cmdStatusQuery (h_regs : ¬ K .regs) (h_free : ¬ K .free) (h_out : ¬ K .out) (h_host : ¬ K .host)
    (h_err : ¬ K .err) (h_stn : ¬ K .stn) (h_nvm : ¬ K .nvm) (h_staySeq : ¬ K .staySeq) (h_dram : ¬ K .dram)
    (h_thm : ¬ K .thm) (h_net : ¬ K .net) (x0 : Sys2Proof.Entry) (x1 : BitVec 8) (x2 : BitVec 8) (x3 : BitVec 16)
    (h : Kept K a s) :
    Kept K a (cmdStatusQuery x0 x1 x2 x3 s) := by
  unfold cmdStatusQuery
  with_reducible repeat' first
    | (assumption) | (intro) | (apply kept_live) | (apply kept_command) | (apply kept_statusQuery)
    | (apply kept_foldl) | (apply kept_foldl_snd) | (apply kept_foldl_fst) | (apply kept_ite) | (dsimp only)
    | (split)

theorem kept_timeEvent (h_regs : ¬ K .regs) (h_out : ¬ K .out) (h_host : ¬ K .host) (x0 : Sys2Proof.Entry) (x1 : Nat)
    (x2 : Nat) (x3 : Nat) (h : Kept K a s) :
    Kept K a (timeEvent x0 x1 x2 x3 s) := by
  unfold timeEvent
  with_reducible repeat' first
    | (assumption) | (intro) | (apply kept_done) | (apply kept_begin_) | (apply kept_foldl) | (apply kept_foldl_snd)
    | (apply kept_foldl_fst) | (apply kept_ite) | (dsimp only) | (split)
    | (refine kept_mk ?_ (r_host := (absurd · h_host)))

theorem kept_cmdTimeEvent (h_regs : ¬ K .regs) (h_out : ¬ K .out) (h_host : ¬ K .host) (h_err : ¬ K .err)
    (h_nvm : ¬ K .nvm) (h_staySeq : ¬ K .staySeq) (h_dram : ¬ K .dram) (h_net : ¬ K .net) (x0 : Sys2Proof.Entry) (x1
    : BitVec 8) (x2 : BitVec 64) (x3 : BitVec 32) (h : Kept K a s) :
    Kept K a (cmdTimeEvent x0 x1 x2 x3 s) := by
  unfold cmdTimeEvent
  with_reducible repeat' first
    | (assumption) | (intro) | (apply kept_live) | (apply kept_command) | (apply kept_timeEvent) | (apply kept_foldl)
    | (apply kept_foldl_snd) | (apply kept_foldl_fst) | (apply kept_ite) | (dsimp only) | (split)

theorem kept_unknownOpcode (h_regs : ¬ K .regs) (h_out : ¬ K .out) (h_host : ¬ K .host) (x0 : Sys2Proof.Entry) (x1 :
    Nat) (h : Kept K a s) :
    Kept K a (unknownOpcode x0 x1 s) := by
  unfold unknownOpcode
  with_reducible repeat' first
    | (assumption) | (intro) | (apply kept_done) | (apply kept_foldl) | (apply kept_foldl_snd)
    | (apply kept_foldl_fst) | (apply kept_ite) | (dsimp only) | (split)

theorem kept_cmdUnknownOpcode (h_regs : ¬ K .regs) (h_out : ¬ K .out) (h_host : ¬ K .host) (x0 : Sys2Proof.Entry) (x1
    : BitVec 8) (h : Kept K a s) :
    Kept K a (cmdUnknownOpcode x0 x1 s) := by
  unfold cmdUnknownOpcode
  with_reducible repeat' first
    | (assumption) | (intro) | (apply kept_live) | (apply kept_take) | (apply kept_unknownOpcode)
    | (apply kept_foldl) | (apply kept_foldl_snd) | (apply kept_foldl_fst) | (apply kept_ite) | (dsimp only)
    | (split)

theorem kept_dramTake (h_regs : ¬ K .regs) (h_free : ¬ K .free) (h_out : ¬ K .out) (h_host : ¬ K .host)
    (h_err : ¬ K .err) (h_nvm : ¬ K .nvm) (h_staySeq : ¬ K .staySeq) (h_dram : ¬ K .dram) (h_net : ¬ K .net) (x0 :
    Nat) (x1 : Nat) (h : Kept K a s) :
    Kept K a (dramTake x0 x1 s).2 := by
  unfold dramTake
  with_reducible repeat' first
    | (assumption) | (intro) | (apply kept_meet) | (apply kept_State_fresh) | (apply kept_foldl)
    | (apply kept_foldl_snd) | (apply kept_foldl_fst) | (apply kept_ite) | (dsimp only) | (split)

theorem kept_cmpSource (h_regs : ¬ K .regs) (h_free : ¬ K .free) (h_out : ¬ K .out) (h_host : ¬ K .host)
    (h_err : ¬ K .err) (h_nvm : ¬ K .nvm) (h_staySeq : ¬ K .staySeq) (h_dram : ¬ K .dram) (h_net : ¬ K .net) (x0 :
    Job) (h : Kept K a s) :
    Kept K a (cmpSource x0 s).2 := by
  unfold cmpSource
  with_reducible repeat' first
    | (assumption) | (intro) | (apply kept_dramTake) | (apply kept_foldl) | (apply kept_foldl_snd)
    | (apply kept_foldl_fst) | (apply kept_ite) | (dsimp only) | (split)

theorem kept_jobRead (h_out : ¬ K .out) (x0 : Job) (h : Kept K a s) :
    Kept K a (jobRead x0 s) := by
  unfold jobRead
  with_reducible repeat' first
    | (assumption) | (intro) | (apply kept_State_hostReads) | (apply kept_foldl) | (apply kept_foldl_snd)
    | (apply kept_foldl_fst) | (apply kept_ite) | (dsimp only) | (split)

theorem kept_jobPut (h_regs : ¬ K .regs) (h_mem : ¬ K .mem) (h_out : ¬ K .out) (h_dram : ¬ K .dram) (x0 : Job) (x1 :
    List Sys2Proof.Byte) (h : Kept K a s) :
    Kept K a (jobPut x0 x1 s) := by
  unfold jobPut
  with_reducible repeat' first
    | (assumption) | (intro) | (apply kept_State_hostWrites) | (apply kept_dramPut) | (apply kept_foldl)
    | (apply kept_foldl_snd) | (apply kept_foldl_fst) | (apply kept_ite) | (dsimp only) | (split)

theorem kept_cmpDone (h_regs : ¬ K .regs) (h_mem : ¬ K .mem) (h_free : ¬ K .free) (h_out : ¬ K .out)
    (h_host : ¬ K .host) (h_err : ¬ K .err) (h_codec : ¬ K .codec) (h_nvm : ¬ K .nvm) (h_staySeq : ¬ K .staySeq)
    (h_dram : ¬ K .dram) (h_net : ¬ K .net)  (h : Kept K a s) :
    Kept K a (cmpDone s) := by
  unfold cmpDone
  with_reducible repeat' first
    | (assumption) | (intro) | (apply kept_cmpSource) | (apply kept_jobRead) | (apply kept_State_p)
    | (apply kept_State_pb) | (apply kept_add64) | (apply kept_jobPut) | (apply kept_complete) | (apply kept_foldl)
    | (apply kept_foldl_snd) | (apply kept_foldl_fst) | (apply kept_ite) | (dsimp only) | (split)
    | (refine kept_mk ?_ (r_host := (absurd · h_host)) (r_err := (absurd · h_err)) (r_codec := (absurd · h_codec))
        (r_nvm := (absurd · h_nvm)) (r_staySeq := (absurd · h_staySeq)) (r_dram := (absurd · h_dram)) (r_net :=
        (absurd · h_net)))

theorem kept_cmpPause (h_regs : ¬ K .regs)  (h : Kept K a s) :
    Kept K a (cmpPause s) := by
  unfold cmpPause
  with_reducible repeat' first
    | (assumption) | (intro) | (apply kept_State_pb) | (apply kept_foldl) | (apply kept_foldl_snd)
    | (apply kept_foldl_fst) | (apply kept_ite) | (dsimp only) | (split)

theorem kept_stayLoad (h_regs : ¬ K .regs)  (h : Kept K a s) :
    Kept K a (stayLoad s) := by
  unfold stayLoad
  with_reducible repeat' first
    | (assumption) | (intro) | (apply kept_State_pb) | (apply kept_State_p) | (apply kept_foldl)
    | (apply kept_foldl_snd) | (apply kept_foldl_fst) | (apply kept_ite) | (dsimp only) | (split)

theorem kept_railLoad (h_regs : ¬ K .regs)  (h : Kept K a s) :
    Kept K a (railLoad s) := by
  unfold railLoad
  with_reducible repeat' first
    | (assumption) | (intro) | (apply kept_overN) | (apply kept_State_p) | (apply kept_foldl)
    | (apply kept_foldl_snd) | (apply kept_foldl_fst) | (apply kept_ite) | (dsimp only) | (split)

theorem kept_stayStart (h_regs : ¬ K .regs) (h_pwr : ¬ K .pwr)  (h : Kept K a s) :
    Kept K a (stayStart s) := by
  unfold stayStart
  with_reducible repeat' first
    | (assumption) | (intro) | (apply kept_stayLoad) | (apply kept_railLoad) | (apply kept_State_resetRegs)
    | (apply kept_foldl) | (apply kept_foldl_snd) | (apply kept_foldl_fst) | (apply kept_ite) | (dsimp only)
    | (split) | (refine kept_mk ?_ (r_pwr := (absurd · h_pwr)))

theorem kept_coldStart (h_regs : ¬ K .regs) (h_latch : ¬ K .latch) (h_mem : ¬ K .mem) (h_time : ¬ K .time)
    (h_free : ¬ K .free) (h_host : ¬ K .host) (h_err : ¬ K .err) (h_psq : ¬ K .psq) (h_ctx : ¬ K .ctx)
    (h_codec : ¬ K .codec) (h_stn : ¬ K .stn) (h_epoch : ¬ K .epoch) (h_staySeq : ¬ K .staySeq) (h_dram : ¬ K .dram)
    (h_clk : ¬ K .clk) (h_mon : ¬ K .mon) (h_rig : ¬ K .rig) (h_mot : ¬ K .mot) (h_pwr : ¬ K .pwr) (h_thm : ¬ K .thm)
    (h_vis : ¬ K .vis) (h_net : ¬ K .net) (h_dma : ¬ K .dma)  (h : Kept K a s) :
    Kept K a (coldStart s) := by
  unfold coldStart
  with_reducible repeat' first
    | (assumption) | (intro) | (apply kept_stayStart) | (apply kept_resetCore) | (apply kept_storeTear)
    | (apply kept_csetTear) | (apply kept_foldl) | (apply kept_foldl_snd) | (apply kept_foldl_fst) | (apply kept_ite)
    | (dsimp only) | (split)

theorem kept_tripWrite (h_thm : ¬ K .thm) (x0 : List Sys2Proof.Byte) (h : Kept K a s) :
    Kept K a (tripWrite x0 s) := by
  unfold tripWrite
  with_reducible repeat' first
    | (assumption) | (intro) | (apply kept_foldl) | (apply kept_foldl_snd) | (apply kept_foldl_fst)
    | (apply kept_ite) | (dsimp only) | (split) | (refine kept_mk ?_ (r_thm := (absurd · h_thm)))

theorem kept_tripPut (h_thm : ¬ K .thm) (x0 : List Sys2Proof.Byte) (h : Kept K a s) :
    Kept K a (tripPut x0 s) := by
  unfold tripPut
  with_reducible repeat' first
    | (assumption) | (intro) | (apply kept_tripWrite) | (apply kept_foldl) | (apply kept_foldl_snd)
    | (apply kept_foldl_fst) | (apply kept_ite) | (dsimp only) | (split)
    | (refine kept_mk ?_ (r_thm := (absurd · h_thm)))

theorem kept_hardwareTrip (h_regs : ¬ K .regs) (h_free : ¬ K .free) (h_out : ¬ K .out) (h_host : ¬ K .host)
    (h_err : ¬ K .err) (h_psq : ¬ K .psq) (h_ctx : ¬ K .ctx) (h_codec : ¬ K .codec) (h_stn : ¬ K .stn)
    (h_nvm : ¬ K .nvm) (h_staySeq : ¬ K .staySeq) (h_mot : ¬ K .mot) (h_pwr : ¬ K .pwr) (h_thm : ¬ K .thm)
    (h_vis : ¬ K .vis) (h_net : ¬ K .net) (x0 : Nat) (x1 : Bool) (h : Kept K a s) :
    Kept K a (hardwareTrip x0 x1 s) := by
  unfold hardwareTrip
  with_reducible repeat' first
    | (assumption) | (intro) | (apply kept_State_pb) | (apply kept_gatesLow) | (apply kept_hardStop)
    | (apply kept_forceOutputs) | (apply kept_raise) | (apply kept_offRequest) | (apply kept_tripPut)
    | (apply kept_foldl) | (apply kept_foldl_snd) | (apply kept_foldl_fst) | (apply kept_ite) | (dsimp only)
    | (split)
    | (refine kept_mk ?_ (r_host := (absurd · h_host)) (r_err := (absurd · h_err)) (r_psq := (absurd · h_psq)) (r_ctx
        := (absurd · h_ctx)) (r_codec := (absurd · h_codec)) (r_stn := (absurd · h_stn)) (r_nvm := (absurd · h_nvm))
        (r_staySeq := (absurd · h_staySeq)) (r_mot := (absurd · h_mot)) (r_pwr := (absurd · h_pwr)) (r_thm :=
        (absurd · h_thm)) (r_vis := (absurd · h_vis)) (r_net := (absurd · h_net)))

theorem kept_stayStep (h_regs : ¬ K .regs) (h_latch : ¬ K .latch) (h_mem : ¬ K .mem) (h_time : ¬ K .time)
    (h_free : ¬ K .free) (h_host : ¬ K .host) (h_err : ¬ K .err) (h_psq : ¬ K .psq) (h_ctx : ¬ K .ctx)
    (h_codec : ¬ K .codec) (h_stn : ¬ K .stn) (h_epoch : ¬ K .epoch) (h_staySeq : ¬ K .staySeq) (h_dram : ¬ K .dram)
    (h_clk : ¬ K .clk) (h_mon : ¬ K .mon) (h_rig : ¬ K .rig) (h_mot : ¬ K .mot) (h_thm : ¬ K .thm) (h_vis : ¬ K .vis)
    (h_net : ¬ K .net) (h_dma : ¬ K .dma) (x0 : State → State) (hf_x0 : ∀  t, Kept K a t → Kept K a (x0  t))
    (h : Kept K a s) :
    Kept K a (stayStep x0 s) := by
  unfold stayStep
  with_reducible repeat' first
    | (assumption) | (intro) | (apply hf_x0) | (apply kept_settleReset) | (apply kept_stayLive) | (apply kept_foldl)
    | (apply kept_foldl_snd) | (apply kept_foldl_fst) | (apply kept_ite) | (dsimp only) | (split)

theorem kept_comparator (h_regs : ¬ K .regs) (h_latch : ¬ K .latch) (h_mem : ¬ K .mem) (h_time : ¬ K .time)
    (h_free : ¬ K .free) (h_out : ¬ K .out) (h_host : ¬ K .host) (h_err : ¬ K .err) (h_psq : ¬ K .psq)
    (h_ctx : ¬ K .ctx) (h_codec : ¬ K .codec) (h_stn : ¬ K .stn) (h_epoch : ¬ K .epoch) (h_nvm : ¬ K .nvm)
    (h_staySeq : ¬ K .staySeq) (h_dram : ¬ K .dram) (h_clk : ¬ K .clk) (h_mon : ¬ K .mon) (h_rig : ¬ K .rig)
    (h_mot : ¬ K .mot) (h_pwr : ¬ K .pwr) (h_thm : ¬ K .thm) (h_vis : ¬ K .vis) (h_net : ¬ K .net) (h_dma : ¬ K .dma)
    (x0 : Nat) (x1 : Bool) (h : Kept K a s) :
    Kept K a (comparator x0 x1 s) := by
  unfold comparator
  with_reducible repeat' first
    | (assumption) | (intro) | (apply kept_settleReset) | (apply kept_hardwareTrip) | (apply kept_stayStep)
    | (apply kept_offRequest) | (apply kept_foldl) | (apply kept_foldl_snd) | (apply kept_foldl_fst)
    | (apply kept_ite) | (dsimp only) | (split)

theorem kept_containTimeout (h_regs : ¬ K .regs) (h_free : ¬ K .free) (h_out : ¬ K .out) (h_host : ¬ K .host)
    (h_err : ¬ K .err) (h_psq : ¬ K .psq) (h_ctx : ¬ K .ctx) (h_codec : ¬ K .codec) (h_stn : ¬ K .stn)
    (h_nvm : ¬ K .nvm) (h_staySeq : ¬ K .staySeq) (h_mot : ¬ K .mot) (h_vis : ¬ K .vis) (h_net : ¬ K .net) (x0 : Nat)
    (x1 : Nat) (h : Kept K a s) :
    Kept K a (containTimeout x0 x1 s) := by
  unfold containTimeout
  with_reducible repeat' first
    | (assumption) | (intro) | (apply kept_raise) | (apply kept_foldl) | (apply kept_foldl_snd)
    | (apply kept_foldl_fst) | (apply kept_ite) | (dsimp only) | (split)
    | (refine kept_mk ?_ (r_host := (absurd · h_host)) (r_err := (absurd · h_err)) (r_psq := (absurd · h_psq)) (r_ctx
        := (absurd · h_ctx)) (r_codec := (absurd · h_codec)) (r_stn := (absurd · h_stn)) (r_nvm := (absurd · h_nvm))
        (r_staySeq := (absurd · h_staySeq)) (r_mot := (absurd · h_mot)) (r_vis := (absurd · h_vis)) (r_net :=
        (absurd · h_net)))

theorem kept_controlResend (h_regs : ¬ K .regs) (h_free : ¬ K .free) (h_out : ¬ K .out) (h_host : ¬ K .host)
    (h_err : ¬ K .err) (h_psq : ¬ K .psq) (h_ctx : ¬ K .ctx) (h_codec : ¬ K .codec) (h_stn : ¬ K .stn)
    (h_nvm : ¬ K .nvm) (h_staySeq : ¬ K .staySeq) (h_mot : ¬ K .mot) (h_vis : ¬ K .vis) (h_net : ¬ K .net) (x0 : Nat)
    (x1 : Nat) (h : Kept K a s) :
    Kept K a (controlResend x0 x1 s) := by
  unfold controlResend
  with_reducible repeat' first
    | (assumption) | (intro) | (apply kept_modLink) | (apply kept_State_emit) | (apply kept_flushSweep)
    | (apply kept_State_pb) | (apply kept_linkFail) | (apply kept_linkLoss) | (apply kept_foldl)
    | (apply kept_foldl_snd) | (apply kept_foldl_fst) | (apply kept_ite) | (dsimp only) | (split)

theorem kept_csetDone (h_regs : ¬ K .regs) (h_rig : ¬ K .rig)  (h : Kept K a s) :
    Kept K a (csetDone s) := by
  unfold csetDone
  with_reducible repeat' first
    | (assumption) | (intro) | (apply kept_csetSync) | (apply kept_State_pb) | (apply kept_otpUse)
    | (apply kept_foldl) | (apply kept_foldl_snd) | (apply kept_foldl_fst) | (apply kept_ite) | (dsimp only)
    | (split)

theorem kept_modRx (h_vis : ¬ K .vis) (x0 : Nat) (x1 : Frame → Frame) (h : Kept K a s) :
    Kept K a (modRx x0 x1 s) := by
  unfold modRx
  with_reducible repeat' first
    | (assumption) | (intro) | (apply kept_modStr) | (apply kept_foldl) | (apply kept_foldl_snd)
    | (apply kept_foldl_fst) | (apply kept_ite) | (dsimp only) | (split)

theorem kept_damagePort (h_vis : ¬ K .vis) (x0 : Nat) (h : Kept K a s) :
    Kept K a (damagePort x0 s) := by
  unfold damagePort
  with_reducible repeat' first
    | (assumption) | (intro) | (apply kept_overN) | (apply kept_modRx) | (apply kept_foldl) | (apply kept_foldl_snd)
    | (apply kept_foldl_fst) | (apply kept_ite) | (dsimp only) | (split)

theorem kept_packetBody (h_regs : ¬ K .regs) (h_vis : ¬ K .vis) (x0 : Nat) (x1 : Nat) (x2 : Nat) (x3 : Bool) (x4 :
    List Nat) (h : Kept K a s) :
    Kept K a (packetBody x0 x1 x2 x3 x4 s) := by
  unfold packetBody
  with_reducible repeat' first
    | (assumption) | (intro) | (apply kept_State_inc) | (apply kept_modRx) | (apply kept_foldl)
    | (apply kept_foldl_snd) | (apply kept_foldl_fst) | (apply kept_ite) | (dsimp only) | (split)

theorem kept_csiPacket (h_regs : ¬ K .regs) (h_vis : ¬ K .vis) (x0 : Nat) (x1 : Nat) (x2 : Nat) (x3 : Nat) (x4 :
    Bool) (x5 : List Nat) (h : Kept K a s) :
    Kept K a (csiPacket x0 x1 x2 x3 x4 x5 s) := by
  unfold csiPacket
  with_reducible repeat' first
    | (assumption) | (intro) | (apply kept_damagePort) | (apply kept_State_inc) | (apply kept_packetBody)
    | (apply kept_foldl) | (apply kept_foldl_snd) | (apply kept_foldl_fst) | (apply kept_ite) | (dsimp only)
    | (split)

theorem kept_mcShow (h_out : ¬ K .out) (x0 : Nat) (x1 : Out) (h : Kept K a s) :
    Kept K a (mcShow x0 x1 s) := by
  unfold mcShow
  with_reducible repeat' first
    | (assumption) | (intro) | (apply kept_State_emit) | (apply kept_foldl) | (apply kept_foldl_snd)
    | (apply kept_foldl_fst) | (apply kept_ite) | (dsimp only) | (split)

theorem kept_currentLoop (h_out : ¬ K .out) (h_mot : ¬ K .mot) (x0 : Nat) (x1 : Sys2Proof.PwmSample) (x2 : Int) (x3 :
    Int) (x4 : Int) (h : Kept K a s) :
    Kept K a (currentLoop x0 x1 x2 x3 x4 s) := by
  unfold currentLoop
  with_reducible repeat' first
    | (assumption) | (intro) | (apply kept_mcShow) | (apply kept_modMc) | (apply kept_foldl) | (apply kept_foldl_snd)
    | (apply kept_foldl_fst) | (apply kept_ite) | (dsimp only) | (split)

theorem kept_damagedSweep (h_regs : ¬ K .regs) (h_free : ¬ K .free) (h_out : ¬ K .out) (h_host : ¬ K .host)
    (h_err : ¬ K .err) (h_psq : ¬ K .psq) (h_ctx : ¬ K .ctx) (h_codec : ¬ K .codec) (h_stn : ¬ K .stn)
    (h_nvm : ¬ K .nvm) (h_staySeq : ¬ K .staySeq) (h_mot : ¬ K .mot) (h_vis : ¬ K .vis) (h_net : ¬ K .net) (x0 : Nat)
    (x1 : Option Nat) (h : Kept K a s) :
    Kept K a (damagedSweep x0 x1 s) := by
  unfold damagedSweep
  with_reducible repeat' first
    | (assumption) | (intro) | (apply kept_State_inc) | (apply kept_State_pb) | (apply kept_spoil)
    | (apply kept_stnFault) | (apply kept_foldl) | (apply kept_foldl_snd) | (apply kept_foldl_fst) | (apply kept_ite)
    | (dsimp only) | (split)

theorem kept_decFree (h_regs : ¬ K .regs) (h_stn : ¬ K .stn) (x0 : Nat) (x1 : Nat) (h : Kept K a s) :
    Kept K a (decFree x0 x1 s) := by
  unfold decFree
  with_reducible repeat' first
    | (assumption) | (intro) | (apply kept_fetchSync) | (apply kept_State_pb) | (apply kept_State_modStn)
    | (apply kept_foldl) | (apply kept_foldl_snd) | (apply kept_foldl_fst) | (apply kept_ite) | (dsimp only)
    | (split)

theorem kept_enterFeeding (h_regs : ¬ K .regs) (h_out : ¬ K .out) (h_psq : ¬ K .psq) (h_ctx : ¬ K .ctx)
    (h_stn : ¬ K .stn) (h_clk : ¬ K .clk) (h_vis : ¬ K .vis) (x0 : Nat) (h : Kept K a s) :
    Kept K a (enterFeeding x0 s) := by
  unfold enterFeeding
  with_reducible repeat' first
    | (assumption) | (intro) | (apply kept_beforeChanges) | (apply kept_State_modCtx) | (apply kept_State_pb)
    | (apply kept_State_p) | (apply kept_State_setEngine) | (apply kept_stnSettleAll) | (apply kept_psqSync)
    | (apply kept_foldl) | (apply kept_foldl_snd) | (apply kept_foldl_fst) | (apply kept_ite) | (dsimp only)
    | (split)
    | (refine kept_mk ?_ (r_psq := (absurd · h_psq)) (r_ctx := (absurd · h_ctx)) (r_stn := (absurd · h_stn)) (r_clk
        := (absurd · h_clk)) (r_vis := (absurd · h_vis)))

theorem kept_rearm (h_regs : ¬ K .regs) (h_psq : ¬ K .psq) (h_ctx : ¬ K .ctx) (x0 : Nat) (h : Kept K a s) :
    Kept K a (rearm x0 s) := by
  unfold rearm
  with_reducible repeat' first
    | (assumption) | (intro) | (apply kept_State_p) | (apply kept_State_modCtx) | (apply kept_foldl)
    | (apply kept_foldl_snd) | (apply kept_foldl_fst) | (apply kept_ite) | (dsimp only) | (split)
    | (refine kept_mk ?_ (r_psq := (absurd · h_psq)) (r_ctx := (absurd · h_ctx)))

theorem kept_lateTrig (h_regs : ¬ K .regs) (x0 : Nat) (h : Kept K a s) :
    Kept K a (lateTrig x0 s) := by
  unfold lateTrig
  with_reducible repeat' first
    | (assumption) | (intro) | (apply kept_State_pb) | (apply kept_foldl) | (apply kept_foldl_snd)
    | (apply kept_foldl_fst) | (apply kept_ite) | (dsimp only) | (split)

theorem kept_lateTrigs (h_regs : ¬ K .regs) (x0 : Nat) (h : Kept K a s) :
    Kept K a (lateTrigs x0 s) := by
  unfold lateTrigs
  with_reducible repeat' first
    | (assumption) | (intro) | (apply kept_lateTrig) | (apply kept_overN) | (apply kept_foldl)
    | (apply kept_foldl_snd) | (apply kept_foldl_fst) | (apply kept_ite) | (dsimp only) | (split)

theorem kept_setOrigin (h_regs : ¬ K .regs) (h_psq : ¬ K .psq) (h_ctx : ¬ K .ctx) (x0 : Nat) (x1 : Nat)
    (h : Kept K a s) :
    Kept K a (setOrigin x0 x1 s) := by
  unfold setOrigin
  with_reducible repeat' first
    | (assumption) | (intro) | (apply kept_State_p) | (apply kept_State_modCtx) | (apply kept_foldl)
    | (apply kept_foldl_snd) | (apply kept_foldl_fst) | (apply kept_ite) | (dsimp only) | (split)
    | (refine kept_mk ?_ (r_psq := (absurd · h_psq)) (r_ctx := (absurd · h_ctx)))

theorem kept_feedAck (h_regs : ¬ K .regs) (h_out : ¬ K .out) (h_psq : ¬ K .psq) (h_ctx : ¬ K .ctx) (h_stn : ¬ K .stn)
    (h_clk : ¬ K .clk) (h_vis : ¬ K .vis)  (h : Kept K a s) :
    Kept K a (feedAck s) := by
  unfold feedAck
  with_reducible repeat' first
    | (assumption) | (intro) | (apply kept_State_pb) | (apply kept_enterFeeding) | (apply kept_rearm)
    | (apply kept_State_modCtx) | (apply kept_lateTrigs) | (apply kept_setOrigin) | (apply kept_feedSync)
    | (apply kept_foldl) | (apply kept_foldl_snd) | (apply kept_foldl_fst) | (apply kept_ite) | (dsimp only)
    | (split)
    | (refine kept_mk ?_ (r_psq := (absurd · h_psq)) (r_ctx := (absurd · h_ctx)) (r_stn := (absurd · h_stn)) (r_clk
        := (absurd · h_clk)) (r_vis := (absurd · h_vis)))

theorem kept_misfeed (h_regs : ¬ K .regs) (h_free : ¬ K .free) (h_out : ¬ K .out) (h_host : ¬ K .host)
    (h_err : ¬ K .err) (h_psq : ¬ K .psq) (h_ctx : ¬ K .ctx) (h_codec : ¬ K .codec) (h_stn : ¬ K .stn)
    (h_nvm : ¬ K .nvm) (h_staySeq : ¬ K .staySeq) (h_mot : ¬ K .mot) (h_vis : ¬ K .vis) (h_net : ¬ K .net)
    (h : Kept K a s) :
    Kept K a (misfeed s) := by
  unfold misfeed
  with_reducible repeat' first
    | (assumption) | (intro) | (apply kept_raise) | (apply kept_State_pb) | (apply kept_foldl)
    | (apply kept_foldl_snd) | (apply kept_foldl_fst) | (apply kept_ite) | (dsimp only) | (split)

theorem kept_feedSense (h_regs : ¬ K .regs) (h_free : ¬ K .free) (h_out : ¬ K .out) (h_host : ¬ K .host)
    (h_err : ¬ K .err) (h_psq : ¬ K .psq) (h_ctx : ¬ K .ctx) (h_codec : ¬ K .codec) (h_stn : ¬ K .stn)
    (h_nvm : ¬ K .nvm) (h_staySeq : ¬ K .staySeq) (h_mot : ¬ K .mot) (h_vis : ¬ K .vis) (h_net : ¬ K .net)
    (h : Kept K a s) :
    Kept K a (feedSense s) := by
  unfold feedSense
  with_reducible repeat' first
    | (assumption) | (intro) | (apply kept_misfeed) | (apply kept_setOrigin) | (apply kept_State_p)
    | (apply kept_lateTrigs) | (apply kept_foldl) | (apply kept_foldl_snd) | (apply kept_foldl_fst)
    | (apply kept_ite) | (dsimp only) | (split)

theorem kept_dmaRun (h_regs : ¬ K .regs) (h_dma : ¬ K .dma) (x0 : Nat) (h : Kept K a s) :
    Kept K a (dmaRun x0 s) := by
  unfold dmaRun
  with_reducible repeat' first
    | (assumption) | (intro) | (apply kept_modDma) | (apply kept_State_p) | (apply kept_foldl)
    | (apply kept_foldl_snd) | (apply kept_foldl_fst) | (apply kept_ite) | (dsimp only) | (split)

theorem kept_dmaPastTrigger (h_regs : ¬ K .regs) (h_dma : ¬ K .dma) (x0 : Nat) (h : Kept K a s) :
    Kept K a (dmaPastTrigger x0 s) := by
  unfold dmaPastTrigger
  with_reducible repeat' first
    | (assumption) | (intro) | (apply kept_modDma) | (apply kept_dmaRun) | (apply kept_foldl)
    | (apply kept_foldl_snd) | (apply kept_foldl_fst) | (apply kept_ite) | (dsimp only) | (split)

theorem kept_dmaTake (h_regs : ¬ K .regs) (h_dma : ¬ K .dma) (x0 : Nat) (h : Kept K a s) :
    Kept K a (dmaTake x0 s) := by
  unfold dmaTake
  with_reducible repeat' first
    | (assumption) | (intro) | (apply kept_dmaPastTrigger) | (apply kept_State_p) | (apply kept_foldl)
    | (apply kept_foldl_snd) | (apply kept_foldl_fst) | (apply kept_ite) | (dsimp only) | (split)

theorem kept_dmaPulse (h_regs : ¬ K .regs) (h_dma : ¬ K .dma) (x0 : Nat) (h : Kept K a s) :
    Kept K a (dmaPulse x0 s) := by
  unfold dmaPulse
  with_reducible repeat' first
    | (assumption) | (intro) | (apply kept_State_pb) | (apply kept_dmaTake) | (apply kept_State_p)
    | (apply kept_foldl) | (apply kept_foldl_snd) | (apply kept_foldl_fst) | (apply kept_ite) | (dsimp only)
    | (split)

theorem kept_dmaInput (h_regs : ¬ K .regs) (h_dma : ¬ K .dma) (x0 : Nat) (h : Kept K a s) :
    Kept K a (dmaInput x0 s) := by
  unfold dmaInput
  with_reducible repeat' first
    | (assumption) | (intro) | (apply kept_dmaPulse) | (apply kept_foldl) | (apply kept_foldl_snd)
    | (apply kept_foldl_fst) | (apply kept_ite) | (dsimp only) | (split)

theorem kept_sinkPulse (h_regs : ¬ K .regs) (h_free : ¬ K .free) (h_out : ¬ K .out) (h_host : ¬ K .host)
    (h_err : ¬ K .err) (h_psq : ¬ K .psq) (h_ctx : ¬ K .ctx) (h_codec : ¬ K .codec) (h_stn : ¬ K .stn)
    (h_nvm : ¬ K .nvm) (h_staySeq : ¬ K .staySeq) (h_clk : ¬ K .clk) (h_mot : ¬ K .mot) (h_pwr : ¬ K .pwr)
    (h_vis : ¬ K .vis) (h_net : ¬ K .net) (h_dma : ¬ K .dma) (x0 : Nat) (x1 : Nat) (h : Kept K a s) :
    Kept K a (sinkPulse x0 x1 s) := by
  unfold sinkPulse
  with_reducible repeat' first
    | (assumption) | (intro) | (apply kept_feedAck) | (apply kept_feedSense) | (apply kept_axPulse)
    | (apply kept_agPulse) | (apply kept_dmaInput) | (apply kept_setPwr) | (apply kept_foldl)
    | (apply kept_foldl_snd) | (apply kept_foldl_fst) | (apply kept_ite) | (dsimp only) | (split)

theorem kept_tracePulse (h_mot : ¬ K .mot) (x0 : Nat) (h : Kept K a s) :
    Kept K a (tracePulse x0 s) := by
  unfold tracePulse
  with_reducible repeat' first
    | (assumption) | (intro) | (apply kept_overN) | (apply kept_modTu) | (apply kept_foldl) | (apply kept_foldl_snd)
    | (apply kept_foldl_fst) | (apply kept_ite) | (dsimp only) | (split)

theorem kept_hear (h_regs : ¬ K .regs) (h_free : ¬ K .free) (h_out : ¬ K .out) (h_host : ¬ K .host)
    (h_err : ¬ K .err) (h_psq : ¬ K .psq) (h_ctx : ¬ K .ctx) (h_codec : ¬ K .codec) (h_stn : ¬ K .stn)
    (h_nvm : ¬ K .nvm) (h_staySeq : ¬ K .staySeq) (h_clk : ¬ K .clk) (h_mot : ¬ K .mot) (h_pwr : ¬ K .pwr)
    (h_vis : ¬ K .vis) (h_net : ¬ K .net) (h_dma : ¬ K .dma) (x0 : Event) (h : Kept K a s) :
    Kept K a (hear x0 s) := by
  unfold hear
  with_reducible repeat' first
    | (assumption) | (intro) | (apply kept_sinkPulse) | (apply kept_tracePulse) | (apply kept_foldl)
    | (apply kept_foldl_snd) | (apply kept_foldl_fst) | (apply kept_ite) | (dsimp only) | (split)

theorem kept_hearOut (h_regs : ¬ K .regs) (h_free : ¬ K .free) (h_out : ¬ K .out) (h_host : ¬ K .host)
    (h_err : ¬ K .err) (h_psq : ¬ K .psq) (h_ctx : ¬ K .ctx) (h_codec : ¬ K .codec) (h_stn : ¬ K .stn)
    (h_nvm : ¬ K .nvm) (h_staySeq : ¬ K .staySeq) (h_clk : ¬ K .clk) (h_mot : ¬ K .mot) (h_pwr : ¬ K .pwr)
    (h_vis : ¬ K .vis) (h_net : ¬ K .net) (h_dma : ¬ K .dma) (x1 : Out) (h : Kept K a s) :
    Kept K a (hearOut s x1) := by
  unfold hearOut
  with_reducible repeat' first
    | (assumption) | (intro) | (apply kept_hear) | (apply kept_foldl) | (apply kept_foldl_snd)
    | (apply kept_foldl_fst) | (apply kept_ite) | (dsimp only) | (split)

theorem kept_deliver (h_regs : ¬ K .regs) (h_free : ¬ K .free) (h_out : ¬ K .out) (h_host : ¬ K .host)
    (h_err : ¬ K .err) (h_psq : ¬ K .psq) (h_ctx : ¬ K .ctx) (h_codec : ¬ K .codec) (h_stn : ¬ K .stn)
    (h_nvm : ¬ K .nvm) (h_staySeq : ¬ K .staySeq) (h_clk : ¬ K .clk) (h_rig : ¬ K .rig) (h_mot : ¬ K .mot)
    (h_pwr : ¬ K .pwr) (h_vis : ¬ K .vis) (h_net : ¬ K .net) (h_dma : ¬ K .dma)  (h : Kept K a s) :
    Kept K a (deliver s) := by
  unfold deliver
  with_reducible repeat' first
    | (assumption) | (intro) | (apply kept_hearOut) | (apply kept_foldl) | (apply kept_foldl_snd)
    | (apply kept_foldl_fst) | (apply kept_ite) | (dsimp only) | (split)
    | (refine kept_mk ?_ (r_host := (absurd · h_host)) (r_err := (absurd · h_err)) (r_psq := (absurd · h_psq)) (r_ctx
        := (absurd · h_ctx)) (r_codec := (absurd · h_codec)) (r_stn := (absurd · h_stn)) (r_nvm := (absurd · h_nvm))
        (r_staySeq := (absurd · h_staySeq)) (r_clk := (absurd · h_clk)) (r_rig := (absurd · h_rig)) (r_mot :=
        (absurd · h_mot)) (r_pwr := (absurd · h_pwr)) (r_vis := (absurd · h_vis)) (r_net := (absurd · h_net)) (r_dma
        := (absurd · h_dma)))

theorem kept_dmaFail (h_regs : ¬ K .regs) (h_out : ¬ K .out) (h_host : ¬ K .host) (h_err : ¬ K .err)
    (h_nvm : ¬ K .nvm) (h_staySeq : ¬ K .staySeq) (h_net : ¬ K .net) (h_dma : ¬ K .dma) (x0 : Nat) (x1 : Nat)
    (h : Kept K a s) :
    Kept K a (dmaFail x0 x1 s) := by
  unfold dmaFail
  with_reducible repeat' first
    | (assumption) | (intro) | (apply kept_State_p) | (apply kept_State_pb) | (apply kept_modDma)
    | (apply kept_contained) | (apply kept_State_msix) | (apply kept_foldl) | (apply kept_foldl_snd)
    | (apply kept_foldl_fst) | (apply kept_ite) | (dsimp only) | (split)

theorem kept_dmaChecked (h_regs : ¬ K .regs) (h_out : ¬ K .out) (h_host : ¬ K .host) (h_err : ¬ K .err)
    (h_nvm : ¬ K .nvm) (h_staySeq : ¬ K .staySeq) (h_net : ¬ K .net) (h_dma : ¬ K .dma) (x0 : Nat) (x1 : Desc)
    (h : Kept K a s) :
    Kept K a (dmaChecked x0 x1 s) := by
  unfold dmaChecked
  with_reducible repeat' first
    | (assumption) | (intro) | (apply kept_State_p) | (apply kept_modDma) | (apply kept_dmaFail)
    | (apply kept_dmaTake) | (apply kept_dmaPastTrigger) | (apply kept_foldl) | (apply kept_foldl_snd)
    | (apply kept_foldl_fst) | (apply kept_ite) | (dsimp only) | (split)

theorem kept_dmaSource (h_regs : ¬ K .regs) (h_dma : ¬ K .dma) (x0 : Nat) (x1 : Nat) (h : Kept K a s) :
    Kept K a (dmaSource x0 x1 s) := by
  unfold dmaSource
  with_reducible repeat' first
    | (assumption) | (intro) | (apply kept_overN) | (apply kept_dmaPulse) | (apply kept_foldl)
    | (apply kept_foldl_snd) | (apply kept_foldl_fst) | (apply kept_ite) | (dsimp only) | (split)

theorem kept_dmaCount (h_regs : ¬ K .regs) (h_out : ¬ K .out) (x0 : Nat) (h : Kept K a s) :
    Kept K a (dmaCount x0 s) := by
  unfold dmaCount
  with_reducible repeat' first
    | (assumption) | (intro) | (apply kept_State_p) | (apply kept_State_msix) | (apply kept_foldl)
    | (apply kept_foldl_snd) | (apply kept_foldl_fst) | (apply kept_ite) | (dsimp only) | (split)

theorem kept_dmaCompleted (h_regs : ¬ K .regs) (h_out : ¬ K .out) (h_dma : ¬ K .dma) (x0 : Nat) (x1 : Desc)
    (h : Kept K a s) :
    Kept K a (dmaCompleted x0 x1 s) := by
  unfold dmaCompleted
  with_reducible repeat' first
    | (assumption) | (intro) | (apply kept_modDma) | (apply kept_State_inc) | (apply kept_dmaSource)
    | (apply kept_State_event) | (apply kept_dmaCount) | (apply kept_State_p) | (apply kept_State_pb)
    | (apply kept_setCur) | (apply kept_foldl) | (apply kept_foldl_snd) | (apply kept_foldl_fst) | (apply kept_ite)
    | (dsimp only) | (split)

theorem kept_dmaComplete (h_regs : ¬ K .regs) (h_mem : ¬ K .mem) (h_free : ¬ K .free) (h_out : ¬ K .out)
    (h_host : ¬ K .host) (h_err : ¬ K .err) (h_stn : ¬ K .stn) (h_nvm : ¬ K .nvm) (h_staySeq : ¬ K .staySeq)
    (h_dram : ¬ K .dram) (h_mot : ¬ K .mot) (h_net : ¬ K .net) (h_dma : ¬ K .dma) (x0 : Nat) (x1 : List
    Sys2Proof.Byte) (h : Kept K a s) :
    Kept K a (dmaComplete x0 x1 s) := by
  unfold dmaComplete
  with_reducible repeat' first
    | (assumption) | (intro) | (apply kept_dmaFail) | (apply kept_ueErr) | (apply kept_dmaMove)
    | (apply kept_wakeRead) | (apply kept_dmaCompleted) | (apply kept_foldl) | (apply kept_foldl_snd)
    | (apply kept_foldl_fst) | (apply kept_ite) | (dsimp only) | (split)

theorem kept_fetchFail (h_regs : ¬ K .regs) (h_out : ¬ K .out) (h_host : ¬ K .host) (h_err : ¬ K .err)
    (h_nvm : ¬ K .nvm) (h_staySeq : ¬ K .staySeq) (h_net : ¬ K .net) (h_dma : ¬ K .dma) (x0 : Nat) (x1 : Nat)
    (h : Kept K a s) :
    Kept K a (fetchFail x0 x1 s) := by
  unfold fetchFail
  with_reducible repeat' first
    | (assumption) | (intro) | (apply kept_dmaFail) | (apply kept_State_p) | (apply kept_foldl)
    | (apply kept_foldl_snd) | (apply kept_foldl_fst) | (apply kept_ite) | (dsimp only) | (split)

theorem kept_hostReadAer (h_free : ¬ K .free) (h_out : ¬ K .out)  (h : Kept K a s) :
    Kept K a (hostReadAer s) := by
  unfold hostReadAer
  with_reducible repeat' first
    | (assumption) | (intro) | (apply kept_State_fresh) | (apply kept_State_emit) | (apply kept_foldl)
    | (apply kept_foldl_snd) | (apply kept_foldl_fst) | (apply kept_ite) | (dsimp only) | (split)

theorem kept_dmaFetch (h_regs : ¬ K .regs) (h_free : ¬ K .free) (h_out : ¬ K .out) (h_host : ¬ K .host)
    (h_err : ¬ K .err) (h_nvm : ¬ K .nvm) (h_staySeq : ¬ K .staySeq) (h_dram : ¬ K .dram) (h_net : ¬ K .net)
    (h_dma : ¬ K .dma) (x0 : Nat) (x1 : Option (List Sys2Proof.Byte)) (h : Kept K a s) :
    Kept K a (dmaFetch x0 x1 s) := by
  unfold dmaFetch
  with_reducible repeat' first
    | (assumption) | (intro) | (apply kept_State_emit) | (apply kept_fetchFail) | (apply kept_hostReadAer)
    | (apply kept_dmaChecked) | (apply kept_dramGet) | (apply kept_foldl) | (apply kept_foldl_snd)
    | (apply kept_foldl_fst) | (apply kept_ite) | (dsimp only) | (split)

theorem kept_dmaHostError (h_regs : ¬ K .regs) (h_mem : ¬ K .mem) (h_free : ¬ K .free) (h_out : ¬ K .out)
    (h_host : ¬ K .host) (h_err : ¬ K .err) (h_stn : ¬ K .stn) (h_nvm : ¬ K .nvm) (h_staySeq : ¬ K .staySeq)
    (h_dram : ¬ K .dram) (h_mot : ¬ K .mot) (h_net : ¬ K .net) (h_dma : ¬ K .dma) (x0 : Nat) (x1 : List
    Sys2Proof.Byte) (h : Kept K a s) :
    Kept K a (dmaHostError x0 x1 s) := by
  unfold dmaHostError
  with_reducible repeat' first
    | (assumption) | (intro) | (apply kept_dmaFail) | (apply kept_hostReadAer) | (apply kept_dmaMove)
    | (apply kept_fetchFail) | (apply kept_State_emit) | (apply kept_foldl) | (apply kept_foldl_snd)
    | (apply kept_foldl_fst) | (apply kept_ite) | (dsimp only) | (split)

theorem kept_dmaLinkReset (h_regs : ¬ K .regs) (h_mem : ¬ K .mem) (h_free : ¬ K .free) (h_out : ¬ K .out)
    (h_host : ¬ K .host) (h_err : ¬ K .err) (h_stn : ¬ K .stn) (h_nvm : ¬ K .nvm) (h_staySeq : ¬ K .staySeq)
    (h_dram : ¬ K .dram) (h_mot : ¬ K .mot) (h_net : ¬ K .net) (h_dma : ¬ K .dma)  (h : Kept K a s) :
    Kept K a (dmaLinkReset s) := by
  unfold dmaLinkReset
  with_reducible repeat' first
    | (assumption) | (intro) | (apply kept_overN) | (apply kept_dmaAbort) | (apply kept_foldl)
    | (apply kept_foldl_snd) | (apply kept_foldl_fst) | (apply kept_ite) | (dsimp only) | (split)

theorem kept_dmaTimer (h_regs : ¬ K .regs) (h_dma : ¬ K .dma) (x0 : Nat) (h : Kept K a s) :
    Kept K a (dmaTimer x0 s) := by
  unfold dmaTimer
  with_reducible repeat' first
    | (assumption) | (intro) | (apply kept_dmaSource) | (apply kept_foldl) | (apply kept_foldl_snd)
    | (apply kept_foldl_fst) | (apply kept_ite) | (dsimp only) | (split)
    | (refine kept_mk ?_ (r_dma := (absurd · h_dma)))

theorem kept_unread (h_dram : ¬ K .dram) (x0 : Nat) (x1 : Nat) (x2 : Bool) (h : Kept K a s) :
    Kept K a (unread x0 x1 x2 s) := by
  unfold unread
  with_reducible repeat' first
    | (assumption) | (intro) | (apply kept_modDdr) | (apply kept_spoilBurst) | (apply kept_foldl)
    | (apply kept_foldl_snd) | (apply kept_foldl_fst) | (apply kept_ite) | (dsimp only) | (split)

theorem kept_lastBurst (h_regs : ¬ K .regs) (h_out : ¬ K .out) (h_host : ¬ K .host) (h_err : ¬ K .err)
    (h_nvm : ¬ K .nvm) (h_staySeq : ¬ K .staySeq) (h_dram : ¬ K .dram) (h_net : ¬ K .net) (x0 : Nat) (x1 : Nat)
    (h : Kept K a s) :
    Kept K a (lastBurst x0 x1 s) := by
  unfold lastBurst
  with_reducible repeat' first
    | (assumption) | (intro) | (apply kept_burstMet) | (apply kept_foldl) | (apply kept_foldl_snd)
    | (apply kept_foldl_fst) | (apply kept_ite) | (dsimp only) | (split)

theorem kept_dramRead (h_regs : ¬ K .regs) (h_free : ¬ K .free) (h_out : ¬ K .out) (h_host : ¬ K .host)
    (h_err : ¬ K .err) (h_nvm : ¬ K .nvm) (h_staySeq : ¬ K .staySeq) (h_dram : ¬ K .dram) (h_net : ¬ K .net) (x0 :
    Nat) (x1 : Nat) (x2 : Nat) (x3 : Bool) (h : Kept K a s) :
    Kept K a (dramRead x0 x1 x2 x3 s) := by
  unfold dramRead
  with_reducible repeat' first
    | (assumption) | (intro) | (apply kept_unread) | (apply kept_State_emit) | (apply kept_wake)
    | (apply kept_burstCheck) | (apply kept_rowSelect) | (apply kept_lastBurst) | (apply kept_readData)
    | (apply kept_foldl) | (apply kept_foldl_snd) | (apply kept_foldl_fst) | (apply kept_ite) | (dsimp only)
    | (split)

theorem kept_refreshAll (h_out : ¬ K .out) (x0 : Nat) (h : Kept K a s) :
    Kept K a (refreshAll x0 s) := by
  unfold refreshAll
  with_reducible repeat' first
    | (assumption) | (intro) | (apply kept_overN) | (apply kept_State_emit) | (apply kept_foldl)
    | (apply kept_foldl_snd) | (apply kept_foldl_fst) | (apply kept_ite) | (dsimp only) | (split)

theorem kept_serveRow (h_regs : ¬ K .regs) (h_out : ¬ K .out) (h_dram : ¬ K .dram) (x0 : Nat) (x1 : Nat) (x2 : Nat)
    (h : Kept K a s) :
    Kept K a (serveRow x0 x1 x2 s) := by
  unfold serveRow
  with_reducible repeat' first
    | (assumption) | (intro) | (apply kept_State_emit) | (apply kept_modDdr) | (apply kept_State_inc)
    | (apply kept_foldl) | (apply kept_foldl_snd) | (apply kept_foldl_fst) | (apply kept_ite) | (dsimp only)
    | (split)

theorem kept_serveAll (h_regs : ¬ K .regs) (h_out : ¬ K .out) (h_dram : ¬ K .dram) (x0 : Nat) (h : Kept K a s) :
    Kept K a (serveAll x0 s) := by
  unfold serveAll
  with_reducible repeat' first
    | (assumption) | (intro) | (apply kept_serveRow) | (apply kept_foldl) | (apply kept_foldl_snd)
    | (apply kept_foldl_fst) | (apply kept_ite) | (dsimp only) | (split)

theorem kept_dramRefresh (h_regs : ¬ K .regs) (h_out : ¬ K .out) (h_dram : ¬ K .dram) (x0 : Nat) (h : Kept K a s) :
    Kept K a (dramRefresh x0 s) := by
  unfold dramRefresh
  with_reducible repeat' first
    | (assumption) | (intro) | (apply kept_refreshAll) | (apply kept_serveAll) | (apply kept_foldl)
    | (apply kept_foldl_snd) | (apply kept_foldl_fst) | (apply kept_ite) | (dsimp only) | (split)

theorem kept_dramWrite (h_regs : ¬ K .regs) (h_mem : ¬ K .mem) (h_dram : ¬ K .dram) (x0 : Nat) (x1 : List
    Sys2Proof.Byte) (x2 : Bool) (h : Kept K a s) :
    Kept K a (dramWrite x0 x1 x2 s) := by
  unfold dramWrite
  with_reducible repeat' first
    | (assumption) | (intro) | (apply kept_dramPut) | (apply kept_rowSelect) | (apply kept_foldl)
    | (apply kept_foldl_snd) | (apply kept_foldl_fst) | (apply kept_ite) | (dsimp only) | (split)

theorem kept_dropCommits (h_regs : ¬ K .regs) (h_out : ¬ K .out) (h_host : ¬ K .host) (h_psq : ¬ K .psq)
    (h_ctx : ¬ K .ctx) (h_codec : ¬ K .codec) (h_stn : ¬ K .stn)  (h : Kept K a s) :
    Kept K a (dropCommits s) := by
  unfold dropCommits
  with_reducible repeat' first
    | (assumption) | (intro) | (apply kept_refuseCommit) | (apply kept_foldl) | (apply kept_foldl_snd)
    | (apply kept_foldl_fst) | (apply kept_ite) | (dsimp only) | (split)

theorem kept_voidBody (h_free : ¬ K .free) (x0 : CamGen) (h : Kept K a s) :
    Kept K a (voidBody x0 s).2 := by
  unfold voidBody
  with_reducible repeat' first
    | (assumption) | (intro) | (apply kept_State_fresh) | (apply kept_foldl) | (apply kept_foldl_snd)
    | (apply kept_foldl_fst) | (apply kept_ite) | (dsimp only) | (split)

theorem kept_measureResult (h_regs : ¬ K .regs) (h_out : ¬ K .out) (h_host : ¬ K .host) (x0 : Nat) (x1 : Nat) (x2 :
    Nat) (h : Kept K a s) :
    Kept K a (measureResult x0 x1 x2 s) := by
  unfold measureResult
  with_reducible repeat' first
    | (assumption) | (intro) | (apply kept_writeCqe) | (apply kept_State_inc) | (apply kept_foldl)
    | (apply kept_foldl_snd) | (apply kept_foldl_fst) | (apply kept_ite) | (dsimp only) | (split)

theorem kept_reportFrame (h_regs : ¬ K .regs) (h_mem : ¬ K .mem) (h_out : ¬ K .out) (h_host : ¬ K .host)
    (h_dram : ¬ K .dram) (x0 : Frame) (x1 : Nat) (x2 : List Sys2Proof.Byte) (x3 : Nat × Nat × Nat) (h : Kept K a s) :
    Kept K a (reportFrame x0 x1 x2 x3 s) := by
  unfold reportFrame
  with_reducible repeat' first
    | (assumption) | (intro) | (apply kept_dramPut) | (apply kept_measureResult) | (apply kept_mbxPut)
    | (apply kept_foldl) | (apply kept_foldl_snd) | (apply kept_foldl_fst) | (apply kept_ite) | (dsimp only)
    | (split) | (apply kept_id)

theorem kept_dropFrame (h_regs : ¬ K .regs) (h_mem : ¬ K .mem) (h_free : ¬ K .free) (h_out : ¬ K .out)
    (h_host : ¬ K .host) (h_dram : ¬ K .dram) (x0 : Frame) (h : Kept K a s) :
    Kept K a (dropFrame x0 s) := by
  unfold dropFrame
  with_reducible repeat' first
    | (assumption) | (intro) | (apply kept_State_setReg) | (apply kept_State_inc) | (apply kept_voidBody)
    | (apply kept_reportFrame) | (apply kept_foldl) | (apply kept_foldl_snd) | (apply kept_foldl_fst)
    | (apply kept_ite) | (dsimp only) | (split)

theorem kept_egressRead (h_latch : ¬ K .latch) (x0 : Nat) (h : Kept K a s) :
    Kept K a (egressRead x0 s) := by
  unfold egressRead
  with_reducible repeat' first
    | (assumption) | (intro) | (apply kept_State_setLatch) | (apply kept_foldl) | (apply kept_foldl_snd)
    | (apply kept_foldl_fst) | (apply kept_ite) | (dsimp only) | (split)

theorem kept_pathReverse (h_regs : ¬ K .regs) (h_free : ¬ K .free) (h_out : ¬ K .out) (h_host : ¬ K .host)
    (h_err : ¬ K .err) (h_psq : ¬ K .psq) (h_ctx : ¬ K .ctx) (h_codec : ¬ K .codec) (h_stn : ¬ K .stn)
    (h_nvm : ¬ K .nvm) (h_staySeq : ¬ K .staySeq) (h_mot : ¬ K .mot) (h_vis : ¬ K .vis) (h_net : ¬ K .net)
    (h : Kept K a s) :
    Kept K a (pathReverse s) := by
  unfold pathReverse
  with_reducible repeat' first
    | (assumption) | (intro) | (apply kept_raise) | (apply kept_State_pb) | (apply kept_spoil) | (apply kept_foldl)
    | (apply kept_foldl_snd) | (apply kept_foldl_fst) | (apply kept_ite) | (dsimp only) | (split)

theorem kept_encoderSample (h_regs : ¬ K .regs) (h_free : ¬ K .free) (h_out : ¬ K .out) (h_host : ¬ K .host)
    (h_err : ¬ K .err) (h_psq : ¬ K .psq) (h_ctx : ¬ K .ctx) (h_codec : ¬ K .codec) (h_stn : ¬ K .stn)
    (h_nvm : ¬ K .nvm) (h_staySeq : ¬ K .staySeq) (h_mot : ¬ K .mot) (h_vis : ¬ K .vis) (h_net : ¬ K .net) (x0 : Nat)
    (h : Kept K a s) :
    Kept K a (encoderSample x0 s) := by
  unfold encoderSample
  with_reducible repeat' first
    | (assumption) | (intro) | (apply kept_State_p) | (apply kept_State_pb) | (apply kept_pathReverse)
    | (apply kept_foldl) | (apply kept_foldl_snd) | (apply kept_foldl_fst) | (apply kept_ite) | (dsimp only)
    | (split)
    | (refine kept_mk ?_ (r_host := (absurd · h_host)) (r_err := (absurd · h_err)) (r_psq := (absurd · h_psq)) (r_ctx
        := (absurd · h_ctx)) (r_codec := (absurd · h_codec)) (r_stn := (absurd · h_stn)) (r_nvm := (absurd · h_nvm))
        (r_staySeq := (absurd · h_staySeq)) (r_mot := (absurd · h_mot)) (r_vis := (absurd · h_vis)) (r_net :=
        (absurd · h_net)))

theorem kept_takeUploads (h_regs : ¬ K .regs) (h_out : ¬ K .out) (h_host : ¬ K .host) (h_codec : ¬ K .codec)
    (h_vis : ¬ K .vis) (x0 : Frame) (h : Kept K a s) :
    Kept K a (takeUploads x0 s) := by
  unfold takeUploads
  with_reducible repeat' first
    | (assumption) | (intro) | (apply kept_startUpload) | (apply kept_foldl) | (apply kept_foldl_snd)
    | (apply kept_foldl_fst) | (apply kept_ite) | (dsimp only) | (split)
    | (refine kept_mk ?_ (r_host := (absurd · h_host)) (r_codec := (absurd · h_codec)) (r_vis := (absurd · h_vis)))

theorem kept_setSlot (h_vis : ¬ K .vis) (x0 : Frame) (x1 : Bool) (h : Kept K a s) :
    Kept K a (setSlot x0 x1 s) := by
  unfold setSlot
  with_reducible repeat' first
    | (assumption) | (intro) | (apply kept_overN) | (apply kept_modStr) | (apply kept_foldl) | (apply kept_foldl_snd)
    | (apply kept_foldl_fst) | (apply kept_ite) | (dsimp only) | (split)

theorem kept_putLines (h_regs : ¬ K .regs) (h_mem : ¬ K .mem) (h_out : ¬ K .out) (h_host : ¬ K .host)
    (h_dram : ¬ K .dram) (x0 : CamGen) (x1 : Nat) (x2 : Nat) (x3 : List (List Nat)) (h : Kept K a s) :
    Kept K a (putLines x0 x1 x2 x3 s) := by
  induction x3 generalizing s x2 with
  | nil => unfold putLines; exact h
  | cons x r ih =>
    unfold putLines
    with_reducible repeat' first
      | (assumption) | (intro) | (apply ih) | (apply kept_dramPut) | (apply kept_take) | (apply kept_foldl)
      | (apply kept_foldl_snd) | (apply kept_foldl_fst) | (apply kept_ite) | (dsimp only) | (split)

theorem kept_storeFrame (h_regs : ¬ K .regs) (h_mem : ¬ K .mem) (h_out : ¬ K .out) (h_host : ¬ K .host)
    (h_dram : ¬ K .dram) (x0 : Frame) (h : Kept K a s) :
    Kept K a (storeFrame x0 s) := by
  unfold storeFrame
  with_reducible repeat' first
    | (assumption) | (intro) | (apply kept_putLines) | (apply kept_dramPut) | (apply kept_foldl)
    | (apply kept_foldl_snd) | (apply kept_foldl_fst) | (apply kept_ite) | (dsimp only) | (split)

theorem kept_endFrame (h_regs : ¬ K .regs) (h_mem : ¬ K .mem) (h_out : ¬ K .out) (h_host : ¬ K .host)
    (h_codec : ¬ K .codec) (h_dram : ¬ K .dram) (h_vis : ¬ K .vis) (x0 : Nat) (h : Kept K a s) :
    Kept K a (endFrame x0 s) := by
  unfold endFrame
  with_reducible repeat' first
    | (assumption) | (intro) | (apply kept_modStr) | (apply kept_State_inc) | (apply kept_takeUploads)
    | (apply kept_setSlot) | (apply kept_storeFrame) | (apply kept_pendSync) | (apply kept_cciReady)
    | (apply kept_foldl) | (apply kept_foldl_snd) | (apply kept_foldl_fst) | (apply kept_ite) | (dsimp only)
    | (split)
    | (refine kept_mk ?_ (r_host := (absurd · h_host)) (r_codec := (absurd · h_codec)) (r_dram := (absurd · h_dram))
        (r_vis := (absurd · h_vis)))

theorem kept_testTrain (h_out : ¬ K .out) (x0 : Nat) (h : Kept K a s) :
    Kept K a (testTrain x0 s) := by
  unfold testTrain
  with_reducible repeat' first
    | (assumption) | (intro) | (apply kept_mcShow) | (apply kept_foldl) | (apply kept_foldl_snd)
    | (apply kept_foldl_fst) | (apply kept_ite) | (dsimp only) | (split)

theorem kept_enterIpd (h_regs : ¬ K .regs) (h_out : ¬ K .out) (h_mot : ¬ K .mot) (x0 : Nat) (h : Kept K a s) :
    Kept K a (enterIpd x0 s) := by
  unfold enterIpd
  with_reducible repeat' first
    | (assumption) | (intro) | (apply kept_testTrain) | (apply kept_modMc) | (apply kept_State_p)
    | (apply kept_foldl) | (apply kept_foldl_snd) | (apply kept_foldl_fst) | (apply kept_ite) | (dsimp only)
    | (split)

theorem kept_excursion (h_clk : ¬ K .clk) (x0 : Nat) (h : Kept K a s) :
    Kept K a (excursion x0 s) := by
  unfold excursion
  with_reducible repeat' first
    | (assumption) | (intro) | (apply kept_foldl) | (apply kept_foldl_snd) | (apply kept_foldl_fst)
    | (apply kept_ite) | (dsimp only) | (split) | (refine kept_mk ?_ (r_clk := (absurd · h_clk)))

theorem kept_holdAccess (h_regs : ¬ K .regs) (h_clk : ¬ K .clk) (x0 : Nat) (x1 : Nat) (x2 : Option Sys2Proof.Word)
    (h : Kept K a s) :
    Kept K a (holdAccess x0 x1 x2 s) := by
  unfold holdAccess
  with_reducible repeat' first
    | (assumption) | (intro) | (apply kept_wake) | (apply kept_foldl) | (apply kept_foldl_snd)
    | (apply kept_foldl_fst) | (apply kept_ite) | (dsimp only) | (split)
    | (refine kept_mk ?_ (r_clk := (absurd · h_clk)))

theorem kept_mbxRead (h_latch : ¬ K .latch) (h_out : ¬ K .out) (x0 : Nat) (x1 : Nat) (h : Kept K a s) :
    Kept K a (mbxRead x0 x1 s) := by
  unfold mbxRead
  with_reducible repeat' first
    | (assumption) | (intro) | (apply kept_State_setLatch) | (apply kept_overN) | (apply kept_State_answer)
    | (apply kept_foldl) | (apply kept_foldl_snd) | (apply kept_foldl_fst) | (apply kept_ite) | (dsimp only)
    | (split)

theorem kept_slotRead (h_latch : ¬ K .latch) (h_out : ¬ K .out) (x0 : Nat) (x1 : Nat) (h : Kept K a s) :
    Kept K a (slotRead x0 x1 s) := by
  unfold slotRead
  with_reducible repeat' first
    | (assumption) | (intro) | (apply kept_State_setLatch) | (apply kept_State_answer) | (apply kept_foldl)
    | (apply kept_foldl_snd) | (apply kept_foldl_fst) | (apply kept_ite) | (dsimp only) | (split)

theorem kept_timeNowRead (h_latch : ¬ K .latch) (h_out : ¬ K .out) (x0 : Nat) (h : Kept K a s) :
    Kept K a (timeNowRead x0 s) := by
  unfold timeNowRead
  with_reducible repeat' first
    | (assumption) | (intro) | (apply kept_State_setLatch) | (apply kept_State_answer) | (apply kept_foldl)
    | (apply kept_foldl_snd) | (apply kept_foldl_fst) | (apply kept_ite) | (dsimp only) | (split)

theorem kept_readEffect (h_regs : ¬ K .regs) (h_latch : ¬ K .latch) (h_free : ¬ K .free) (x0 : Nat) (h : Kept K a s) :
    Kept K a (readEffect x0 s) := by
  unfold readEffect
  with_reducible repeat' first
    | (assumption) | (intro) | (apply kept_State_setLatch) | (apply kept_State_setReg) | (apply kept_egressRead)
    | (apply kept_wake) | (apply kept_vinSample) | (apply kept_foldl) | (apply kept_foldl_snd)
    | (apply kept_foldl_fst) | (apply kept_ite) | (dsimp only) | (split)

theorem kept_readClear (h_regs : ¬ K .regs) (h_stn : ¬ K .stn) (x0 : Nat) (h : Kept K a s) :
    Kept K a (readClear x0 s) := by
  unfold readClear
  with_reducible repeat' first
    | (assumption) | (intro) | (apply kept_State_setReg) | (apply kept_State_modStn) | (apply kept_foldl)
    | (apply kept_foldl_snd) | (apply kept_foldl_fst) | (apply kept_ite) | (dsimp only) | (split)

theorem kept_regRead (h_regs : ¬ K .regs) (h_latch : ¬ K .latch) (h_free : ¬ K .free) (h_out : ¬ K .out)
    (h_stn : ¬ K .stn) (x0 : Nat) (x1 : Nat) (h : Kept K a s) :
    Kept K a (regRead x0 x1 s) := by
  unfold regRead
  with_reducible repeat' first
    | (assumption) | (intro) | (apply kept_mbxRead) | (apply kept_slotRead) | (apply kept_timeNowRead)
    | (apply kept_readEffect) | (apply kept_readWord) | (apply kept_State_answer) | (apply kept_readClear)
    | (apply kept_foldl) | (apply kept_foldl_snd) | (apply kept_foldl_fst) | (apply kept_ite) | (dsimp only)
    | (split)

theorem kept_hostRead (h_regs : ¬ K .regs) (h_latch : ¬ K .latch) (h_free : ¬ K .free) (h_out : ¬ K .out)
    (h_stn : ¬ K .stn) (h_clk : ¬ K .clk) (x0 : Nat) (x1 : Nat) (h : Kept K a s) :
    Kept K a (hostRead x0 x1 s) := by
  unfold hostRead
  with_reducible repeat' first
    | (assumption) | (intro) | (apply kept_holdAccess) | (apply kept_regRead) | (apply kept_State_answer)
    | (apply kept_State_chipErr) | (apply kept_foldl) | (apply kept_foldl_snd) | (apply kept_foldl_fst)
    | (apply kept_ite) | (dsimp only) | (split)

theorem kept_strayAccess (h_regs : ¬ K .regs) (h_latch : ¬ K .latch) (h_free : ¬ K .free) (h_out : ¬ K .out)
    (h_stn : ¬ K .stn) (h_clk : ¬ K .clk) (x0 : AccessClass) (x1 : Nat) (x2 : Nat) (x3 : Bool) (h : Kept K a s) :
    Kept K a (strayAccess x0 x1 x2 x3 s) := by
  unfold strayAccess
  with_reducible repeat' first
    | (assumption) | (intro) | (apply kept_hostAt) | (apply kept_hostRead) | (apply kept_foldl)
    | (apply kept_foldl_snd) | (apply kept_foldl_fst) | (apply kept_ite) | (dsimp only) | (split) | (apply kept_id)

theorem kept_profileTick (h_regs : ¬ K .regs) (h_out : ¬ K .out) (h_host : ¬ K .host) (h_err : ¬ K .err)
    (h_nvm : ¬ K .nvm) (h_staySeq : ¬ K .staySeq) (h_mot : ¬ K .mot) (h_net : ¬ K .net)  (h : Kept K a s) :
    Kept K a (profileTick s) := by
  unfold profileTick
  with_reducible repeat' first
    | (assumption) | (intro) | (apply kept_overN) | (apply kept_agTick) | (apply kept_axTick) | (apply kept_modAg)
    | (apply kept_axTimers) | (apply kept_foldl) | (apply kept_foldl_snd) | (apply kept_foldl_fst) | (apply kept_ite)
    | (dsimp only) | (split)

theorem kept_startHeld (h_regs : ¬ K .regs) (h_mem : ¬ K .mem) (h_free : ¬ K .free) (h_out : ¬ K .out)
    (h_host : ¬ K .host) (h_err : ¬ K .err) (h_psq : ¬ K .psq) (h_ctx : ¬ K .ctx) (h_codec : ¬ K .codec)
    (h_stn : ¬ K .stn) (h_nvm : ¬ K .nvm) (h_staySeq : ¬ K .staySeq) (h_dram : ¬ K .dram) (h_clk : ¬ K .clk)
    (h_mot : ¬ K .mot) (h_pwr : ¬ K .pwr) (h_thm : ¬ K .thm) (h_vis : ¬ K .vis) (h_net : ¬ K .net) (x0 :
    Sys2Proof.Instr) (h : Kept K a s) :
    Kept K a (startHeld x0 s) := by
  unfold startHeld
  with_reducible repeat' first
    | (assumption) | (intro) | (apply kept_cmdHello) | (apply kept_cmdBye) | (apply kept_cmdStatusQuery)
    | (apply kept_cmdLogRead) | (apply kept_cmdTimeEvent) | (apply kept_cmdEngineStart) | (apply kept_cmdEngineStop)
    | (apply kept_cmdSpeedSet) | (apply kept_cmdSheetCommit) | (apply kept_cmdSheetAbort)
    | (apply kept_cmdStationCfg) | (apply kept_cmdEmitterSet) | (apply kept_cmdRegisterAdjust)
    | (apply kept_cmdCameraCfg) | (apply kept_cmdFrameUpload) | (apply kept_cmdCodecJob)
    | (apply kept_cmdUnknownOpcode) | (apply kept_foldl) | (apply kept_foldl_snd) | (apply kept_foldl_fst)
    | (apply kept_ite) | (dsimp only) | (split) | (apply kept_id)

theorem kept_startAll (h_regs : ¬ K .regs) (h_mem : ¬ K .mem) (h_free : ¬ K .free) (h_out : ¬ K .out)
    (h_host : ¬ K .host) (h_err : ¬ K .err) (h_psq : ¬ K .psq) (h_ctx : ¬ K .ctx) (h_codec : ¬ K .codec)
    (h_stn : ¬ K .stn) (h_nvm : ¬ K .nvm) (h_staySeq : ¬ K .staySeq) (h_dram : ¬ K .dram) (h_clk : ¬ K .clk)
    (h_mot : ¬ K .mot) (h_pwr : ¬ K .pwr) (h_thm : ¬ K .thm) (h_vis : ¬ K .vis) (h_net : ¬ K .net) (x0 : Nat)
    (h : Kept K a s) :
    Kept K a (startAll x0 s) := by
  induction x0 generalizing s  with
  | zero => exact h
  | succ k ih =>
    unfold startAll
    with_reducible repeat' first
      | (assumption) | (intro) | (apply ih) | (apply kept_startHeld) | (apply kept_foldl) | (apply kept_foldl_snd)
      | (apply kept_foldl_fst) | (apply kept_ite) | (dsimp only) | (split)

theorem kept_ringFreed (h_regs : ¬ K .regs) (h_mem : ¬ K .mem) (h_free : ¬ K .free) (h_out : ¬ K .out)
    (h_host : ¬ K .host) (h_err : ¬ K .err) (h_psq : ¬ K .psq) (h_ctx : ¬ K .ctx) (h_codec : ¬ K .codec)
    (h_stn : ¬ K .stn) (h_nvm : ¬ K .nvm) (h_staySeq : ¬ K .staySeq) (h_dram : ¬ K .dram) (h_clk : ¬ K .clk)
    (h_mot : ¬ K .mot) (h_pwr : ¬ K .pwr) (h_thm : ¬ K .thm) (h_vis : ¬ K .vis) (h_net : ¬ K .net) (x0 : Nat)
    (h : Kept K a s) :
    Kept K a (ringFreed x0 s) := by
  unfold ringFreed
  with_reducible repeat' first
    | (assumption) | (intro) | (apply kept_startAll) | (apply kept_foldl) | (apply kept_foldl_snd)
    | (apply kept_foldl_fst) | (apply kept_ite) | (dsimp only) | (split)

theorem kept_hvConfirmed (h_regs : ¬ K .regs) (h_mot : ¬ K .mot) (x0 : Nat) (h : Kept K a s) :
    Kept K a (hvConfirmed x0 s) := by
  unfold hvConfirmed
  with_reducible repeat' first
    | (assumption) | (intro) | (apply kept_hvTry) | (apply kept_State_pb) | (apply kept_foldl)
    | (apply kept_foldl_snd) | (apply kept_foldl_fst) | (apply kept_ite) | (dsimp only) | (split)

theorem kept_hvCleat (h_regs : ¬ K .regs) (h_mot : ¬ K .mot) (x0 : Nat) (x1 : Nat) (h : Kept K a s) :
    Kept K a (hvCleat x0 x1 s) := by
  unfold hvCleat
  with_reducible repeat' first
    | (assumption) | (intro) | (apply kept_State_p) | (apply kept_hvGoto) | (apply kept_State_inc)
    | (apply kept_foldl) | (apply kept_foldl_snd) | (apply kept_foldl_fst) | (apply kept_ite) | (dsimp only)
    | (split)

theorem kept_hvDischargeFail (h_regs : ¬ K .regs) (h_free : ¬ K .free) (h_out : ¬ K .out) (h_host : ¬ K .host)
    (h_err : ¬ K .err) (h_psq : ¬ K .psq) (h_ctx : ¬ K .ctx) (h_codec : ¬ K .codec) (h_stn : ¬ K .stn)
    (h_nvm : ¬ K .nvm) (h_staySeq : ¬ K .staySeq) (h_mot : ¬ K .mot) (h_vis : ¬ K .vis) (h_net : ¬ K .net) (x0 : Nat)
    (h : Kept K a s) :
    Kept K a (hvDischargeFail x0 s) := by
  unfold hvDischargeFail
  with_reducible repeat' first
    | (assumption) | (intro) | (apply kept_raise) | (apply kept_modHv) | (apply kept_hvCleat) | (apply kept_foldl)
    | (apply kept_foldl_snd) | (apply kept_foldl_fst) | (apply kept_ite) | (dsimp only) | (split)

theorem kept_mr4Poll (h_regs : ¬ K .regs) (h_out : ¬ K .out) (h_host : ¬ K .host) (h_err : ¬ K .err)
    (h_nvm : ¬ K .nvm) (h_staySeq : ¬ K .staySeq) (h_net : ¬ K .net) (x0 : Nat) (x1 : Bool) (x2 : Bool)
    (h : Kept K a s) :
    Kept K a (mr4Poll x0 x1 x2 s) := by
  unfold mr4Poll
  with_reducible repeat' first
    | (assumption) | (intro) | (apply kept_State_pb) | (apply kept_corrected) | (apply kept_foldl)
    | (apply kept_foldl_snd) | (apply kept_foldl_fst) | (apply kept_ite) | (dsimp only) | (split)

theorem kept_trainNext (h_dram : ¬ K .dram) (x0 : Nat) (h : Kept K a s) :
    Kept K a (trainNext x0 s) := by
  unfold trainNext
  with_reducible repeat' first
    | (assumption) | (intro) | (apply kept_modDdr) | (apply kept_foldl) | (apply kept_foldl_snd)
    | (apply kept_foldl_fst) | (apply kept_ite) | (dsimp only) | (split)

theorem kept_trainMrw (h_out : ¬ K .out) (h_dram : ¬ K .dram) (x0 : Nat) (h : Kept K a s) :
    Kept K a (trainMrw x0 s) := by
  unfold trainMrw
  with_reducible repeat' first
    | (assumption) | (intro) | (apply kept_trainNext) | (apply kept_State_emit) | (apply kept_foldl)
    | (apply kept_foldl_snd) | (apply kept_foldl_fst) | (apply kept_ite) | (dsimp only) | (split)

theorem kept_trainCheck (h_regs : ¬ K .regs) (x0 : Nat) (h : Kept K a s) :
    Kept K a (trainCheck x0 s) := by
  unfold trainCheck
  with_reducible repeat' first
    | (assumption) | (intro) | (apply kept_State_p) | (apply kept_State_setEngine) | (apply kept_scrubSync)
    | (apply kept_foldl) | (apply kept_foldl_snd) | (apply kept_foldl_fst) | (apply kept_ite) | (dsimp only)
    | (split)

theorem kept_savedVerify (h_regs : ¬ K .regs) (h_dram : ¬ K .dram) (x0 : Nat) (x1 : Bool) (x2 : Nat) (h : Kept K a s)
    :
    Kept K a (savedVerify x0 x1 x2 s) := by
  unfold savedVerify
  with_reducible repeat' first
    | (assumption) | (intro) | (apply kept_trainCheck) | (apply kept_modDdr) | (apply kept_State_pb)
    | (apply kept_foldl) | (apply kept_foldl_snd) | (apply kept_foldl_fst) | (apply kept_ite) | (dsimp only)
    | (split) | (refine kept_mk ?_ (r_dram := (absurd · h_dram)))

theorem kept_trainEnd (h_regs : ¬ K .regs) (h_dram : ¬ K .dram) (x0 : Nat) (x1 : Nat) (h : Kept K a s) :
    Kept K a (trainEnd x0 x1 s) := by
  unfold trainEnd
  with_reducible repeat' first
    | (assumption) | (intro) | (apply kept_trainCheck) | (apply kept_modDdr) | (apply kept_State_pb)
    | (apply kept_foldl) | (apply kept_foldl_snd) | (apply kept_foldl_fst) | (apply kept_ite) | (dsimp only)
    | (split)

theorem kept_trainFail (h_regs : ¬ K .regs) (h_free : ¬ K .free) (h_out : ¬ K .out) (h_host : ¬ K .host)
    (h_err : ¬ K .err) (h_psq : ¬ K .psq) (h_ctx : ¬ K .ctx) (h_codec : ¬ K .codec) (h_stn : ¬ K .stn)
    (h_nvm : ¬ K .nvm) (h_staySeq : ¬ K .staySeq) (h_dram : ¬ K .dram) (h_mot : ¬ K .mot) (h_vis : ¬ K .vis)
    (h_net : ¬ K .net) (x0 : Nat) (x1 : Nat) (x2 : Nat) (h : Kept K a s) :
    Kept K a (trainFail x0 x1 x2 s) := by
  unfold trainFail
  with_reducible repeat' first
    | (assumption) | (intro) | (apply kept_modDdr) | (apply kept_State_p) | (apply kept_State_pb)
    | (apply kept_trainCheck) | (apply kept_raise) | (apply kept_foldl) | (apply kept_foldl_snd)
    | (apply kept_foldl_fst) | (apply kept_ite) | (dsimp only) | (split)

theorem kept_trainPhase (h_regs : ¬ K .regs) (h_free : ¬ K .free) (h_out : ¬ K .out) (h_host : ¬ K .host)
    (h_err : ¬ K .err) (h_psq : ¬ K .psq) (h_ctx : ¬ K .ctx) (h_codec : ¬ K .codec) (h_stn : ¬ K .stn)
    (h_nvm : ¬ K .nvm) (h_staySeq : ¬ K .staySeq) (h_dram : ¬ K .dram) (h_mot : ¬ K .mot) (h_vis : ¬ K .vis)
    (h_net : ¬ K .net) (x0 : Nat) (x1 : Nat) (x2 : Nat) (x3 : Nat) (h : Kept K a s) :
    Kept K a (trainPhase x0 x1 x2 x3 s) := by
  unfold trainPhase
  with_reducible repeat' first
    | (assumption) | (intro) | (apply kept_trainFail) | (apply kept_modDdr) | (apply kept_trainNext)
    | (apply kept_foldl) | (apply kept_foldl_snd) | (apply kept_foldl_fst) | (apply kept_ite) | (dsimp only)
    | (split)

theorem kept_trainWait (h_dram : ¬ K .dram) (x0 : Nat) (h : Kept K a s) :
    Kept K a (trainWait x0 s) := by
  unfold trainWait
  with_reducible repeat' first
    | (assumption) | (intro) | (apply kept_trainNext) | (apply kept_foldl) | (apply kept_foldl_snd)
    | (apply kept_foldl_fst) | (apply kept_ite) | (dsimp only) | (split)

theorem kept_trainZqcal (h_out : ¬ K .out) (h_dram : ¬ K .dram) (x0 : Nat) (h : Kept K a s) :
    Kept K a (trainZqcal x0 s) := by
  unfold trainZqcal
  with_reducible repeat' first
    | (assumption) | (intro) | (apply kept_trainNext) | (apply kept_State_emit) | (apply kept_foldl)
    | (apply kept_foldl_snd) | (apply kept_foldl_fst) | (apply kept_ite) | (dsimp only) | (split)

theorem kept_sendFrame (h_out : ¬ K .out) (x0 : Nat) (x1 : List Sys2Proof.Byte) (h : Kept K a s) :
    Kept K a (sendFrame x0 x1 s) := by
  unfold sendFrame
  with_reducible repeat' first
    | (assumption) | (intro) | (apply kept_State_emit) | (apply kept_foldl) | (apply kept_foldl_snd)
    | (apply kept_foldl_fst) | (apply kept_ite) | (dsimp only) | (split)

theorem kept_modRepl (h_host : ¬ K .host) (x0 : Nat) (x1 : Repl → Repl) (h : Kept K a s) :
    Kept K a (modRepl x0 x1 s) := by
  unfold modRepl
  with_reducible repeat' first
    | (assumption) | (intro) | (apply kept_foldl) | (apply kept_foldl_snd) | (apply kept_foldl_fst)
    | (apply kept_ite) | (dsimp only) | (split) | (refine kept_mk ?_ (r_host := (absurd · h_host)))

theorem kept_replHeard (h_host : ¬ K .host) (x0 : Repl) (x1 : Sys2Proof.ReplMsg) (h : Kept K a s) :
    Kept K a (replHeard x0 x1 s) := by
  unfold replHeard
  with_reducible repeat' first
    | (assumption) | (intro) | (apply kept_modRepl) | (apply kept_foldl) | (apply kept_foldl_snd)
    | (apply kept_foldl_fst) | (apply kept_ite) | (dsimp only) | (split)

theorem kept_replAck (h_host : ¬ K .host) (x0 : Sys2Proof.ReplMsg) (h : Kept K a s) :
    Kept K a (replAck x0 s) := by
  unfold replAck
  with_reducible repeat' first
    | (assumption) | (intro) | (apply kept_replHeard) | (apply kept_foldl) | (apply kept_foldl_snd)
    | (apply kept_foldl_fst) | (apply kept_ite) | (dsimp only) | (split)

theorem kept_replReply (h_out : ¬ K .out) (h_host : ¬ K .host) (h_net : ¬ K .net) (x0 : Repl) (x1 : Nat) (x2 : Nat)
    (x3 : Nat) (x4 : Nat) (x5 : List Nat) (h : Kept K a s) :
    Kept K a (replReply x0 x1 x2 x3 x4 x5 s) := by
  unfold replReply
  with_reducible repeat' first
    | (assumption) | (intro) | (apply kept_replSend) | (apply kept_modRepl) | (apply kept_foldl)
    | (apply kept_foldl_snd) | (apply kept_foldl_fst) | (apply kept_ite) | (dsimp only) | (split)

theorem kept_replHello (h_regs : ¬ K .regs) (h_free : ¬ K .free) (h_out : ¬ K .out) (h_host : ¬ K .host)
    (h_net : ¬ K .net) (x0 : Sys2Proof.ReplMsg) (x1 : Nat) (x2 : Nat) (h : Kept K a s) :
    Kept K a (replHello x0 x1 x2 s) := by
  unfold replHello
  with_reducible repeat' first
    | (assumption) | (intro) | (apply kept_State_fresh) | (apply kept_replSend) | (apply kept_replReply)
    | (apply kept_setRepl) | (apply kept_foldl) | (apply kept_foldl_snd) | (apply kept_foldl_fst) | (apply kept_ite)
    | (dsimp only) | (split)

theorem kept_replRequest (h_out : ¬ K .out) (h_host : ¬ K .host) (h_net : ¬ K .net) (x0 : Sys2Proof.ReplMsg) (x1 :
    Nat) (x2 : Repl → State → State) (hf_x2 : ∀ y0 t, Kept K a t → Kept K a (x2 y0 t)) (h : Kept K a s) :
    Kept K a (replRequest x0 x1 x2 s) := by
  unfold replRequest
  with_reducible repeat' first
    | (assumption) | (intro) | (apply hf_x2) | (apply kept_replHeard) | (apply kept_replReply) | (apply kept_foldl)
    | (apply kept_foldl_snd) | (apply kept_foldl_fst) | (apply kept_ite) | (dsimp only) | (split)

end Sys2Proof.Machine
end

