-- ==== Sys2Proof/Laws/KeptOps4.lean ====
section
/-!
SUPPORT. What the operations of the machine leave unchanged, part 4 of 4: one lemma per operation, in the order in which they
use each other. An operation that may write the parts h_x names keeps every other part (Laws/Kept.lean).
-/

set_option linter.all false
set_option Elab.async false

namespace Sys2Proof.Machine

open Reg

variable {K : Piece → Prop} {a s : State}

theorem kept_replBye (h_regs : ¬ K .regs) (h_out : ¬ K .out) (h_host : ¬ K .host) (h_net : ¬ K .net) (x0 :
    Sys2Proof.ReplMsg) (h : Kept K a s) :
    Kept K a (replBye x0 s) := by
  unfold replBye
  with_reducible repeat' first
    | (assumption) | (intro) | (apply kept_replRequest) | (apply kept_replReply) | (apply kept_setRepl)
    | (apply kept_foldl) | (apply kept_foldl_snd) | (apply kept_foldl_fst) | (apply kept_ite) | (dsimp only)
    | (split)

theorem kept_replStatus (h_out : ¬ K .out) (h_host : ¬ K .host) (h_net : ¬ K .net) (x0 : Sys2Proof.ReplMsg) (x1 :
    Nat) (h : Kept K a s) :
    Kept K a (replStatus x0 x1 s) := by
  unfold replStatus
  with_reducible repeat' first
    | (assumption) | (intro) | (apply kept_replRequest) | (apply kept_replReply) | (apply kept_foldl)
    | (apply kept_foldl_snd) | (apply kept_foldl_fst) | (apply kept_ite) | (dsimp only) | (split)

theorem kept_replTime (h_out : ¬ K .out) (h_host : ¬ K .host) (h_net : ¬ K .net) (x0 : Sys2Proof.ReplMsg) (x1 : Nat)
    (h : Kept K a s) :
    Kept K a (replTime x0 x1 s) := by
  unfold replTime
  with_reducible repeat' first
    | (assumption) | (intro) | (apply kept_replRequest) | (apply kept_replReply) | (apply kept_foldl)
    | (apply kept_foldl_snd) | (apply kept_foldl_fst) | (apply kept_ite) | (dsimp only) | (split)

theorem kept_replUnknown (h_out : ¬ K .out) (h_host : ¬ K .host) (h_net : ¬ K .net) (x0 : Sys2Proof.ReplMsg) (x1 :
    Nat) (h : Kept K a s) :
    Kept K a (replUnknown x0 x1 s) := by
  unfold replUnknown
  with_reducible repeat' first
    | (assumption) | (intro) | (apply kept_replReply) | (apply kept_replHeard) | (apply kept_foldl)
    | (apply kept_foldl_snd) | (apply kept_foldl_fst) | (apply kept_ite) | (dsimp only) | (split)

theorem kept_replEntry (h_regs : ¬ K .regs) (h_free : ¬ K .free) (h_out : ¬ K .out) (h_host : ¬ K .host)
    (h_net : ¬ K .net) (x0 : Sys2Proof.ReplMsg) (x1 : List Sys2Proof.Byte) (h : Kept K a s) :
    Kept K a (replEntry x0 x1 s) := by
  unfold replEntry
  with_reducible repeat' first
    | (assumption) | (intro) | (apply kept_replHello) | (apply kept_replBye) | (apply kept_replStatus)
    | (apply kept_replTime) | (apply kept_replUnknown) | (apply kept_foldl) | (apply kept_foldl_snd)
    | (apply kept_foldl_fst) | (apply kept_ite) | (dsimp only) | (split)

theorem kept_replDatagram (h_regs : ¬ K .regs) (h_free : ¬ K .free) (h_out : ¬ K .out) (h_host : ¬ K .host)
    (h_net : ¬ K .net) (x0 : Fin 2) (x1 : List Sys2Proof.Byte) (x2 : Udp) (h : Kept K a s) :
    Kept K a (replDatagram x0 x1 x2 s) := by
  unfold replDatagram
  with_reducible repeat' first
    | (assumption) | (intro) | (apply kept_replAck) | (apply kept_replEntry) | (apply kept_foldl)
    | (apply kept_foldl_snd) | (apply kept_foldl_fst) | (apply kept_ite) | (dsimp only) | (split)

theorem kept_receivePtp (h_regs : ¬ K .regs) (h_free : ¬ K .free) (h_out : ¬ K .out) (h_net : ¬ K .net) (x0 : Nat)
    (x1 : Nat) (x2 : List Sys2Proof.Byte) (h : Kept K a s) :
    Kept K a (receivePtp x0 x1 x2 s) := by
  unfold receivePtp
  with_reducible repeat' first
    | (assumption) | (intro) | (apply kept_State_inc) | (apply kept_State_fresh) | (apply kept_prxSync)
    | (apply kept_modEth) | (apply kept_State_msix) | (apply kept_foldl) | (apply kept_foldl_snd)
    | (apply kept_foldl_fst) | (apply kept_ite) | (dsimp only) | (split)

theorem kept_frameRx (h_regs : ¬ K .regs) (h_free : ¬ K .free) (h_out : ¬ K .out) (h_host : ¬ K .host)
    (h_net : ¬ K .net) (x0 : Fin 2) (x1 : Bool) (x2 : List Sys2Proof.Byte) (h : Kept K a s) :
    Kept K a (frameRx x0 x1 x2 s) := by
  unfold frameRx
  with_reducible repeat' first
    | (assumption) | (intro) | (apply kept_State_inc) | (apply kept_sendFrame) | (apply kept_replDatagram)
    | (apply kept_receivePtp) | (apply kept_foldl) | (apply kept_foldl_snd) | (apply kept_foldl_fst)
    | (apply kept_ite) | (dsimp only) | (split)

theorem kept_linkChange (h_regs : ¬ K .regs) (h_net : ¬ K .net) (x0 : Nat) (x1 : Bool) (x2 : Nat) (h : Kept K a s) :
    Kept K a (linkChange x0 x1 x2 s) := by
  unfold linkChange
  with_reducible repeat' first
    | (assumption) | (intro) | (apply kept_modEth) | (apply kept_State_pb) | (apply kept_State_p)
    | (apply kept_foldl) | (apply kept_foldl_snd) | (apply kept_foldl_fst) | (apply kept_ite) | (dsimp only)
    | (split)

theorem kept_replFlush (h_out : ¬ K .out) (h_net : ¬ K .net) (x0 : Nat) (h : Kept K a s) :
    Kept K a (replFlush x0 s) := by
  unfold replFlush
  with_reducible repeat' first
    | (assumption) | (intro) | (apply kept_State_emit) | (apply kept_modEth) | (apply kept_foldl)
    | (apply kept_foldl_snd) | (apply kept_foldl_fst) | (apply kept_ite) | (dsimp only) | (split)

theorem kept_txStamp (h_regs : ¬ K .regs) (h_out : ¬ K .out) (h_net : ¬ K .net) (x0 : Nat) (x1 : List Sys2Proof.Byte)
    (h : Kept K a s) :
    Kept K a (txStamp x0 x1 s) := by
  unfold txStamp
  with_reducible repeat' first
    | (assumption) | (intro) | (apply kept_State_pb) | (apply kept_prxSync) | (apply kept_modEth)
    | (apply kept_State_msix) | (apply kept_foldl) | (apply kept_foldl_snd) | (apply kept_foldl_fst)
    | (apply kept_ite) | (dsimp only) | (split)

theorem kept_txDone (h_regs : ¬ K .regs) (h_out : ¬ K .out) (h_net : ¬ K .net) (x0 : Nat) (h : Kept K a s) :
    Kept K a (txDone x0 s) := by
  unfold txDone
  with_reducible repeat' first
    | (assumption) | (intro) | (apply kept_State_pb) | (apply kept_modEth) | (apply kept_replFlush)
    | (apply kept_txStamp) | (apply kept_sendFrame) | (apply kept_foldl) | (apply kept_foldl_snd)
    | (apply kept_foldl_fst) | (apply kept_ite) | (dsimp only) | (split)

theorem kept_feedReqRaise (h_regs : ¬ K .regs) (h_out : ¬ K .out) (h_psq : ¬ K .psq)  (h : Kept K a s) :
    Kept K a (feedReqRaise s) := by
  unfold feedReqRaise
  with_reducible repeat' first
    | (assumption) | (intro) | (apply kept_State_event) | (apply kept_State_pb) | (apply kept_feedSync)
    | (apply kept_foldl) | (apply kept_foldl_snd) | (apply kept_foldl_fst) | (apply kept_ite) | (dsimp only)
    | (split)

theorem kept_pipeSync (h_regs : ¬ K .regs)  (h : Kept K a s) :
    Kept K a (pipeSync s) := by
  unfold pipeSync
  with_reducible repeat' first
    | (assumption) | (intro) | (apply kept_State_pb) | (apply kept_foldl) | (apply kept_foldl_snd)
    | (apply kept_foldl_fst) | (apply kept_ite) | (dsimp only) | (split)

theorem kept_feedLoop (h_regs : ¬ K .regs) (h_vis : ¬ K .vis) (x0 : Frame) (x1 : List Dev) (x2 : List (Option Fit))
    (h : Kept K a s) :
    Kept K a (feedLoop x0 x1 x2 s) := by
  unfold feedLoop
  with_reducible repeat' first
    | (assumption) | (intro) | (apply kept_overN) | (apply kept_accumulate) | (apply kept_accumulateTrim)
    | (apply kept_foldl) | (apply kept_foldl_snd) | (apply kept_foldl_fst) | (apply kept_ite) | (dsimp only)
    | (split)

theorem kept_measureFrame (h_regs : ¬ K .regs) (h_mem : ¬ K .mem) (h_free : ¬ K .free) (h_out : ¬ K .out)
    (h_host : ¬ K .host) (h_dram : ¬ K .dram) (h_vis : ¬ K .vis) (x0 : Frame) (h : Kept K a s) :
    Kept K a (measureFrame x0 s) := by
  unfold measureFrame
  with_reducible repeat' first
    | (assumption) | (intro) | (apply kept_State_fresh) | (apply kept_feedLoop) | (apply kept_reportFrame)
    | (apply kept_foldl) | (apply kept_foldl_snd) | (apply kept_foldl_fst) | (apply kept_ite) | (dsimp only)
    | (split)

theorem kept_frameDone (h_regs : ¬ K .regs) (h_mem : ¬ K .mem) (h_free : ¬ K .free) (h_out : ¬ K .out)
    (h_host : ¬ K .host) (h_dram : ¬ K .dram) (h_vis : ¬ K .vis) (x0 : Frame) (x1 : Bool) (h : Kept K a s) :
    Kept K a (frameDone x0 x1 s) := by
  unfold frameDone
  with_reducible repeat' first
    | (assumption) | (intro) | (apply kept_measureFrame) | (apply kept_voidBody) | (apply kept_reportFrame)
    | (apply kept_foldl) | (apply kept_foldl_snd) | (apply kept_foldl_fst) | (apply kept_ite) | (dsimp only)
    | (split)

theorem kept_shotRead (h_regs : ¬ K .regs) (h_out : ¬ K .out) (h_host : ¬ K .host) (h_err : ¬ K .err)
    (h_nvm : ¬ K .nvm) (h_staySeq : ¬ K .staySeq) (h_dram : ¬ K .dram) (h_net : ¬ K .net) (x0 : Frame)
    (h : Kept K a s) :
    Kept K a (shotRead x0 s) := by
  unfold shotRead
  with_reducible repeat' first
    | (assumption) | (intro) | (apply kept_meet) | (apply kept_foldl) | (apply kept_foldl_snd)
    | (apply kept_foldl_fst) | (apply kept_ite) | (dsimp only) | (split)

theorem kept_frameResult (h_regs : ¬ K .regs) (h_mem : ¬ K .mem) (h_free : ¬ K .free) (h_out : ¬ K .out)
    (h_host : ¬ K .host) (h_err : ¬ K .err) (h_nvm : ¬ K .nvm) (h_staySeq : ¬ K .staySeq) (h_dram : ¬ K .dram)
    (h_vis : ¬ K .vis) (h_net : ¬ K .net) (x0 : Bool) (x1 : Bool) (h : Kept K a s) :
    Kept K a (frameResult x0 x1 s) := by
  unfold frameResult
  with_reducible repeat' first
    | (assumption) | (intro) | (apply kept_pipeSync) | (apply kept_frameDone) | (apply kept_shotRead)
    | (apply kept_foldl) | (apply kept_foldl_snd) | (apply kept_foldl_fst) | (apply kept_ite) | (dsimp only)
    | (split)
    | (refine kept_mk ?_ (r_host := (absurd · h_host)) (r_err := (absurd · h_err)) (r_nvm := (absurd · h_nvm))
        (r_staySeq := (absurd · h_staySeq)) (r_dram := (absurd · h_dram)) (r_vis := (absurd · h_vis)) (r_net :=
        (absurd · h_net)))

theorem kept_slip (h_regs : ¬ K .regs) (h_vis : ¬ K .vis) (x0 : Nat) (x1 : Nat) (h : Kept K a s) :
    Kept K a (slip x0 x1 s) := by
  unfold slip
  with_reducible repeat' first
    | (assumption) | (intro) | (apply kept_modStr) | (apply kept_State_pb) | (apply kept_foldl)
    | (apply kept_foldl_snd) | (apply kept_foldl_fst) | (apply kept_ite) | (dsimp only) | (split)

theorem kept_setQueue (h_regs : ¬ K .regs) (h_vis : ¬ K .vis) (x0 : Nat) (x1 : List (Nat × Nat)) (h : Kept K a s) :
    Kept K a (setQueue x0 x1 s) := by
  unfold setQueue
  with_reducible repeat' first
    | (assumption) | (intro) | (apply kept_State_p) | (apply kept_foldl) | (apply kept_foldl_snd)
    | (apply kept_foldl_fst) | (apply kept_ite) | (dsimp only) | (split)
    | (refine kept_mk ?_ (r_vis := (absurd · h_vis)))

theorem kept_takeFrame (h_regs : ¬ K .regs) (h_mem : ¬ K .mem) (h_free : ¬ K .free) (h_out : ¬ K .out)
    (h_host : ¬ K .host) (h_dram : ¬ K .dram) (h_vis : ¬ K .vis) (x0 : Frame) (h : Kept K a s) :
    Kept K a (takeFrame x0 s) := by
  unfold takeFrame
  with_reducible repeat' first
    | (assumption) | (intro) | (apply kept_dropFrame) | (apply kept_modStr) | (apply kept_setQueue)
    | (apply kept_setSlot) | (apply kept_State_pb) | (apply kept_foldl) | (apply kept_foldl_snd)
    | (apply kept_foldl_fst) | (apply kept_ite) | (dsimp only) | (split)

theorem kept_startFrame (h_regs : ¬ K .regs) (h_mem : ¬ K .mem) (h_free : ¬ K .free) (h_out : ¬ K .out)
    (h_host : ¬ K .host) (h_codec : ¬ K .codec) (h_dram : ¬ K .dram) (h_vis : ¬ K .vis) (x0 : Nat) (h : Kept K a s) :
    Kept K a (startFrame x0 s) := by
  unfold startFrame
  with_reducible repeat' first
    | (assumption) | (intro) | (apply kept_endFrame) | (apply kept_modStr) | (apply kept_slip)
    | (apply kept_assocSync) | (apply kept_pendSync) | (apply kept_State_p) | (apply kept_takeFrame)
    | (apply kept_foldl) | (apply kept_foldl_snd) | (apply kept_foldl_fst) | (apply kept_ite) | (dsimp only)
    | (split)

theorem kept_uploadDone (h_regs : ¬ K .regs) (h_free : ¬ K .free) (h_out : ¬ K .out) (h_host : ¬ K .host)
    (h_err : ¬ K .err) (h_nvm : ¬ K .nvm) (h_staySeq : ¬ K .staySeq) (h_dram : ¬ K .dram) (h_vis : ¬ K .vis)
    (h_net : ¬ K .net) (x0 : Nat) (x1 : Nat) (h : Kept K a s) :
    Kept K a (uploadDone x0 x1 s) := by
  unfold uploadDone
  with_reducible repeat' first
    | (assumption) | (intro) | (apply kept_complete) | (apply kept_dramTake) | (apply kept_State_hostWrites)
    | (apply kept_foldl) | (apply kept_foldl_snd) | (apply kept_foldl_fst) | (apply kept_ite) | (dsimp only)
    | (split)
    | (refine kept_mk ?_ (r_host := (absurd · h_host)) (r_err := (absurd · h_err)) (r_nvm := (absurd · h_nvm))
        (r_staySeq := (absurd · h_staySeq)) (r_dram := (absurd · h_dram)) (r_vis := (absurd · h_vis)) (r_net :=
        (absurd · h_net)))

theorem kept_healthRx (h_regs : ¬ K .regs) (h_out : ¬ K .out) (h_host : ¬ K .host) (h_err : ¬ K .err)
    (h_stn : ¬ K .stn) (h_nvm : ¬ K .nvm) (h_staySeq : ¬ K .staySeq) (h_net : ¬ K .net) (x0 : Nat) (x1 : Nat)
    (h : Kept K a s) :
    Kept K a (healthRx x0 x1 s) := by
  unfold healthRx
  with_reducible repeat' first
    | (assumption) | (intro) | (apply kept_State_pb) | (apply kept_corrected) | (apply kept_State_modStn)
    | (apply kept_foldl) | (apply kept_foldl_snd) | (apply kept_foldl_fst) | (apply kept_ite) | (dsimp only)
    | (split)

theorem kept_htFire (h_regs : ¬ K .regs) (h_out : ¬ K .out) (h_mot : ¬ K .mot) (x0 : Nat) (x1 : Nat) (x2 : Option
    (Fin 65536 × Nat)) (h : Kept K a s) :
    Kept K a (htFire x0 x1 x2 s) := by
  unfold htFire
  with_reducible repeat' first
    | (assumption) | (intro) | (apply kept_State_drive) | (apply kept_modHt) | (apply kept_State_pb)
    | (apply kept_foldl) | (apply kept_foldl_snd) | (apply kept_foldl_fst) | (apply kept_ite) | (dsimp only)
    | (split)

theorem kept_htRest (h_regs : ¬ K .regs) (h_out : ¬ K .out) (h_mot : ¬ K .mot) (x0 : Nat) (h : Kept K a s) :
    Kept K a (htRest x0 s) := by
  unfold htRest
  with_reducible repeat' first
    | (assumption) | (intro) | (apply kept_gateLow) | (apply kept_State_pb) | (apply kept_foldl)
    | (apply kept_foldl_snd) | (apply kept_foldl_fst) | (apply kept_ite) | (dsimp only) | (split)

theorem kept_htHalf (h_regs : ¬ K .regs) (h_out : ¬ K .out) (h_mot : ¬ K .mot) (x0 : Nat) (x1 : Bool)
    (h : Kept K a s) :
    Kept K a (htHalf x0 x1 s) := by
  unfold htHalf
  with_reducible repeat' first
    | (assumption) | (intro) | (apply kept_htFire) | (apply kept_modHt) | (apply kept_htRest) | (apply kept_foldl)
    | (apply kept_foldl_snd) | (apply kept_foldl_fst) | (apply kept_ite) | (dsimp only) | (split)

theorem kept_htTrip (h_regs : ¬ K .regs) (h_out : ¬ K .out) (h_host : ¬ K .host) (h_err : ¬ K .err)
    (h_nvm : ¬ K .nvm) (h_staySeq : ¬ K .staySeq) (h_mot : ¬ K .mot) (h_net : ¬ K .net) (x0 : Nat) (x1 : Bool)
    (h : Kept K a s) :
    Kept K a (htTrip x0 x1 s) := by
  unfold htTrip
  with_reducible repeat' first
    | (assumption) | (intro) | (apply kept_modHt) | (apply kept_contained) | (apply kept_gateLow)
    | (apply kept_State_pb) | (apply kept_foldl) | (apply kept_foldl_snd) | (apply kept_foldl_fst) | (apply kept_ite)
    | (dsimp only) | (split)

theorem kept_htSample (h_regs : ¬ K .regs) (h_out : ¬ K .out) (h_host : ¬ K .host) (h_err : ¬ K .err)
    (h_nvm : ¬ K .nvm) (h_staySeq : ¬ K .staySeq) (h_mot : ¬ K .mot) (h_net : ¬ K .net) (x0 : Nat) (x1 : Nat)
    (h : Kept K a s) :
    Kept K a (htSample x0 x1 s) := by
  unfold htSample
  with_reducible repeat' first
    | (assumption) | (intro) | (apply kept_modHt) | (apply kept_State_p) | (apply kept_State_pb)
    | (apply kept_gateLow) | (apply kept_corrected) | (apply kept_foldl) | (apply kept_foldl_snd)
    | (apply kept_foldl_fst) | (apply kept_ite) | (dsimp only) | (split)

theorem kept_hvFeedback (h_regs : ¬ K .regs) (h_out : ¬ K .out) (h_host : ¬ K .host) (h_err : ¬ K .err)
    (h_nvm : ¬ K .nvm) (h_staySeq : ¬ K .staySeq) (h_mot : ¬ K .mot) (h_net : ¬ K .net) (x0 : Nat) (x1 : Nat) (x2 :
    Nat) (h : Kept K a s) :
    Kept K a (hvFeedback x0 x1 x2 s) := by
  unfold hvFeedback
  with_reducible repeat' first
    | (assumption) | (intro) | (apply kept_modHv) | (apply kept_State_p) | (apply kept_contained)
    | (apply kept_hvCleat) | (apply kept_hvTry) | (apply kept_foldl) | (apply kept_foldl_snd)
    | (apply kept_foldl_fst) | (apply kept_ite) | (dsimp only) | (split)

theorem kept_hvGuard (h_regs : ¬ K .regs) (h_out : ¬ K .out) (h_host : ¬ K .host) (h_err : ¬ K .err)
    (h_nvm : ¬ K .nvm) (h_staySeq : ¬ K .staySeq) (h_mot : ¬ K .mot) (h_net : ¬ K .net) (x0 : Nat) (x1 : Nat)
    (h : Kept K a s) :
    Kept K a (hvGuard x0 x1 s) := by
  unfold hvGuard
  with_reducible repeat' first
    | (assumption) | (intro) | (apply kept_hvTry) | (apply kept_modHv) | (apply kept_State_pb) | (apply kept_hvGoto)
    | (apply kept_corrected) | (apply kept_foldl) | (apply kept_foldl_snd) | (apply kept_foldl_fst)
    | (apply kept_ite) | (dsimp only) | (split)

theorem kept_hvRegulate (h_regs : ¬ K .regs) (h_mot : ¬ K .mot) (x0 : Nat) (h : Kept K a s) :
    Kept K a (hvRegulate x0 s) := by
  unfold hvRegulate
  with_reducible repeat' first
    | (assumption) | (intro) | (apply kept_State_pb) | (apply kept_modHv) | (apply kept_foldl)
    | (apply kept_foldl_snd) | (apply kept_foldl_fst) | (apply kept_ite) | (dsimp only) | (split)

theorem kept_hvPeriod (h_regs : ¬ K .regs) (h_out : ¬ K .out) (h_mot : ¬ K .mot) (x0 : Nat) (h : Kept K a s) :
    Kept K a (hvPeriod x0 s) := by
  unfold hvPeriod
  split
  · exact h
  · obtain ⟨x, y, z⟩ := hvDuty s x0
    exact kept_hvRegulate h_regs h_mot _ (kept_State_drive h_out _ _ _ _ (kept_modHv h_mot _ _ (kept_ite
        (kept_State_pb h_regs _ _ h) h)))

theorem kept_startLoad (h_regs : ¬ K .regs) (h_out : ¬ K .out) (h_rig : ¬ K .rig) (x0 : Nat) (h : Kept K a s) :
    Kept K a (startLoad x0 s) := by
  unfold startLoad
  with_reducible repeat' first
    | (assumption) | (intro) | (apply kept_State_p) | (apply kept_State_pb) | (apply kept_State_emit)
    | (apply kept_foldl) | (apply kept_foldl_snd) | (apply kept_foldl_fst) | (apply kept_ite) | (dsimp only)
    | (split) | (refine kept_mk ?_ (r_rig := (absurd · h_rig)))

theorem kept_rejectLoad (h_regs : ¬ K .regs) (h_rig : ¬ K .rig) (x0 : Nat) (h : Kept K a s) :
    Kept K a (rejectLoad x0 s) := by
  unfold rejectLoad
  with_reducible repeat' first
    | (assumption) | (intro) | (apply kept_State_pb) | (apply kept_State_p) | (apply kept_foldl)
    | (apply kept_foldl_snd) | (apply kept_foldl_fst) | (apply kept_ite) | (dsimp only) | (split)
    | (refine kept_mk ?_ (r_rig := (absurd · h_rig)))

theorem kept_reject (h_regs : ¬ K .regs) (h_out : ¬ K .out) (h_rig : ¬ K .rig) (x0 : Nat) (h : Kept K a s) :
    Kept K a (reject x0 s) := by
  unfold reject
  with_reducible repeat' first
    | (assumption) | (intro) | (apply kept_startLoad) | (apply kept_State_p) | (apply kept_rejectLoad)
    | (apply kept_foldl) | (apply kept_foldl_snd) | (apply kept_foldl_fst) | (apply kept_ite) | (dsimp only)
    | (split)

theorem kept_imageVerified (h_regs : ¬ K .regs) (h_mem : ¬ K .mem) (h_free : ¬ K .free) (h_out : ¬ K .out)
    (h_host : ¬ K .host) (h_err : ¬ K .err) (h_psq : ¬ K .psq) (h_ctx : ¬ K .ctx) (h_codec : ¬ K .codec)
    (h_stn : ¬ K .stn) (h_nvm : ¬ K .nvm) (h_staySeq : ¬ K .staySeq) (h_dram : ¬ K .dram) (h_clk : ¬ K .clk)
    (h_mon : ¬ K .mon) (h_rig : ¬ K .rig) (h_mot : ¬ K .mot) (h_pwr : ¬ K .pwr) (h_vis : ¬ K .vis) (h_net : ¬ K .net)
    (h_dma : ¬ K .dma) (x0 : Nat) (h : Kept K a s) :
    Kept K a (imageVerified x0 s) := by
  unfold imageVerified
  with_reducible repeat' first
    | (assumption) | (intro) | (apply kept_reject) | (apply kept_apply) | (apply kept_foldl) | (apply kept_foldl_snd)
    | (apply kept_foldl_fst) | (apply kept_ite) | (dsimp only) | (split)
    | (refine kept_mk ?_ (r_host := (absurd · h_host)) (r_err := (absurd · h_err)) (r_psq := (absurd · h_psq)) (r_ctx
        := (absurd · h_ctx)) (r_codec := (absurd · h_codec)) (r_stn := (absurd · h_stn)) (r_nvm := (absurd · h_nvm))
        (r_staySeq := (absurd · h_staySeq)) (r_dram := (absurd · h_dram)) (r_clk := (absurd · h_clk)) (r_mon :=
        (absurd · h_mon)) (r_rig := (absurd · h_rig)) (r_mot := (absurd · h_mot)) (r_pwr := (absurd · h_pwr)) (r_vis
        := (absurd · h_vis)) (r_net := (absurd · h_net)) (r_dma := (absurd · h_dma)))

theorem kept_jobSource (h_regs : ¬ K .regs) (h_out : ¬ K .out) (h_host : ¬ K .host) (h_err : ¬ K .err)
    (h_nvm : ¬ K .nvm) (h_staySeq : ¬ K .staySeq) (h_dram : ¬ K .dram) (h_net : ¬ K .net) (x0 : Job) (h : Kept K a s)
    :
    Kept K a (jobSource x0 s).2 := by
  unfold jobSource
  with_reducible repeat' first
    | (assumption) | (intro) | (apply kept_dramGet) | (apply kept_foldl) | (apply kept_foldl_snd)
    | (apply kept_foldl_fst) | (apply kept_ite) | (dsimp only) | (split)

theorem kept_vdecFree (h_regs : ¬ K .regs) (h_codec : ¬ K .codec) (x0 : Nat) (h : Kept K a s) :
    Kept K a (vdecFree x0 s) := by
  unfold vdecFree
  with_reducible repeat' first
    | (assumption) | (intro) | (apply kept_State_pb) | (apply kept_foldl) | (apply kept_foldl_snd)
    | (apply kept_foldl_fst) | (apply kept_ite) | (dsimp only) | (split)
    | (refine kept_mk ?_ (r_codec := (absurd · h_codec)))

theorem kept_inflateDone (h_regs : ¬ K .regs) (h_mem : ¬ K .mem) (h_out : ¬ K .out) (h_host : ¬ K .host)
    (h_err : ¬ K .err) (h_codec : ¬ K .codec) (h_nvm : ¬ K .nvm) (h_staySeq : ¬ K .staySeq) (h_dram : ¬ K .dram)
    (h_net : ¬ K .net) (x0 : Nat) (h : Kept K a s) :
    Kept K a (inflateDone x0 s) := by
  unfold inflateDone
  with_reducible repeat' first
    | (assumption) | (intro) | (apply kept_jobSource) | (apply kept_jobRead) | (apply kept_vdecFree)
    | (apply kept_complete) | (apply kept_jobPut) | (apply kept_State_inc) | (apply kept_State_p)
    | (apply kept_foldl) | (apply kept_foldl_snd) | (apply kept_foldl_fst) | (apply kept_ite) | (dsimp only)
    | (split)

theorem kept_ilkCloses (h_regs : ¬ K .regs) (h_out : ¬ K .out) (x0 : Nat) (h : Kept K a s) :
    Kept K a (ilkCloses x0 s) := by
  unfold ilkCloses
  with_reducible repeat' first
    | (assumption) | (intro) | (apply kept_State_event) | (apply kept_State_p) | (apply kept_releaseOutputs)
    | (apply kept_foldl) | (apply kept_foldl_snd) | (apply kept_foldl_fst) | (apply kept_ite) | (dsimp only)
    | (split)

theorem kept_ilkOpens (h_regs : ¬ K .regs) (h_free : ¬ K .free) (h_out : ¬ K .out) (h_host : ¬ K .host)
    (h_err : ¬ K .err) (h_psq : ¬ K .psq) (h_ctx : ¬ K .ctx) (h_codec : ¬ K .codec) (h_stn : ¬ K .stn)
    (h_nvm : ¬ K .nvm) (h_staySeq : ¬ K .staySeq) (h_mot : ¬ K .mot) (h_net : ¬ K .net) (x0 : Nat) (h : Kept K a s) :
    Kept K a (ilkOpens x0 s) := by
  unfold ilkOpens
  with_reducible repeat' first
    | (assumption) | (intro) | (apply kept_State_p) | (apply kept_State_setReg) | (apply kept_overN)
    | (apply kept_gateLow) | (apply kept_hardStop) | (apply kept_hvAllOff) | (apply kept_forceOutputs)
    | (apply kept_corrected) | (apply kept_State_event) | (apply kept_foldl) | (apply kept_foldl_snd)
    | (apply kept_foldl_fst) | (apply kept_ite) | (dsimp only) | (split)

theorem kept_livReq (h_out : ¬ K .out) (h_stn : ¬ K .stn) (x0 : Nat) (h : Kept K a s) :
    Kept K a (livReq x0 s) := by
  unfold livReq
  with_reducible repeat' first
    | (assumption) | (intro) | (apply kept_sendControl) | (apply kept_foldl) | (apply kept_foldl_snd)
    | (apply kept_foldl_fst) | (apply kept_ite) | (dsimp only) | (split)

theorem kept_livRx (h_regs : ¬ K .regs) (x0 : Nat) (x1 : Nat) (x2 : Nat) (x3 : Nat) (h : Kept K a s) :
    Kept K a (livRx x0 x1 x2 x3 s) := by
  unfold livRx
  with_reducible repeat' first
    | (assumption) | (intro) | (apply kept_State_p) | (apply kept_foldl) | (apply kept_foldl_snd)
    | (apply kept_foldl_fst) | (apply kept_ite) | (dsimp only) | (split)

theorem kept_logDone (h_regs : ¬ K .regs) (h_out : ¬ K .out) (h_host : ¬ K .host) (x0 : Nat) (x1 : Nat)
    (h : Kept K a s) :
    Kept K a (logDone x0 x1 s) := by
  unfold logDone
  with_reducible repeat' first
    | (assumption) | (intro) | (apply kept_State_hostWrites) | (apply kept_complete) | (apply kept_foldl)
    | (apply kept_foldl_snd) | (apply kept_foldl_fst) | (apply kept_ite) | (dsimp only) | (split)
    | (refine kept_mk ?_ (r_host := (absurd · h_host)))

theorem kept_mcDriverFault (h_regs : ¬ K .regs) (h_free : ¬ K .free) (h_out : ¬ K .out) (h_host : ¬ K .host)
    (h_err : ¬ K .err) (h_psq : ¬ K .psq) (h_ctx : ¬ K .ctx) (h_codec : ¬ K .codec) (h_stn : ¬ K .stn)
    (h_nvm : ¬ K .nvm) (h_staySeq : ¬ K .staySeq) (h_mot : ¬ K .mot) (h_vis : ¬ K .vis) (h_net : ¬ K .net) (x0 : Nat)
    (x1 : Bool) (h : Kept K a s) :
    Kept K a (mcDriverFault x0 x1 s) := by
  unfold mcDriverFault
  with_reducible repeat' first
    | (assumption) | (intro) | (apply kept_modMc) | (apply kept_mcFault) | (apply kept_foldl)
    | (apply kept_foldl_snd) | (apply kept_foldl_fst) | (apply kept_ite) | (dsimp only) | (split)

theorem kept_ipdAttempts (h_regs : ¬ K .regs) (h_free : ¬ K .free) (h_out : ¬ K .out) (h_host : ¬ K .host)
    (h_err : ¬ K .err) (h_psq : ¬ K .psq) (h_ctx : ¬ K .ctx) (h_codec : ¬ K .codec) (h_stn : ¬ K .stn)
    (h_nvm : ¬ K .nvm) (h_staySeq : ¬ K .staySeq) (h_mot : ¬ K .mot) (h_vis : ¬ K .vis) (h_net : ¬ K .net) (x0 : Nat)
    (x1 : List (List Nat)) (h : Kept K a s) :
    Kept K a (ipdAttempts x0 x1 s) := by
  induction x1 generalizing s  with
  | nil => unfold ipdAttempts; exact h
  | cons x r ih =>
    unfold ipdAttempts
    with_reducible repeat' first
      | (assumption) | (intro) | (apply ih) | (apply kept_mcFault) | (apply kept_modMc) | (apply kept_testTrain)
      | (apply kept_State_p) | (apply kept_foldl) | (apply kept_foldl_snd) | (apply kept_foldl_fst)
      | (apply kept_ite) | (dsimp only) | (split)

theorem kept_mcIpdDone (h_regs : ¬ K .regs) (h_free : ¬ K .free) (h_out : ¬ K .out) (h_host : ¬ K .host)
    (h_err : ¬ K .err) (h_psq : ¬ K .psq) (h_ctx : ¬ K .ctx) (h_codec : ¬ K .codec) (h_stn : ¬ K .stn)
    (h_nvm : ¬ K .nvm) (h_staySeq : ¬ K .staySeq) (h_mot : ¬ K .mot) (h_vis : ¬ K .vis) (h_net : ¬ K .net) (x0 : Nat)
    (x1 : List (List Nat)) (h : Kept K a s) :
    Kept K a (mcIpdDone x0 x1 s) := by
  unfold mcIpdDone
  with_reducible repeat' first
    | (assumption) | (intro) | (apply kept_ipdAttempts) | (apply kept_foldl) | (apply kept_foldl_snd)
    | (apply kept_foldl_fst) | (apply kept_ite) | (dsimp only) | (split)

theorem kept_mcPresent (h_regs : ¬ K .regs) (h_mot : ¬ K .mot) (x0 : Nat) (x1 : Sys2Proof.PwmSample) (h : Kept K a s)
    :
    Kept K a (mcPresent x0 x1 s) := by
  unfold mcPresent
  with_reducible repeat' first
    | (assumption) | (intro) | (apply kept_modMc) | (apply kept_State_pz) | (apply kept_foldl)
    | (apply kept_foldl_snd) | (apply kept_foldl_fst) | (apply kept_ite) | (dsimp only) | (split)

theorem kept_residualRun (h_mot : ¬ K .mot) (x0 : Nat) (x1 : Nat) (h : Kept K a s) :
    Kept K a (residualRun x0 x1 s) := by
  unfold residualRun
  with_reducible repeat' first
    | (assumption) | (intro) | (apply kept_modMc) | (apply kept_foldl) | (apply kept_foldl_snd)
    | (apply kept_foldl_fst) | (apply kept_ite) | (dsimp only) | (split)

theorem kept_observerLoss (h_regs : ¬ K .regs) (h_free : ¬ K .free) (h_out : ¬ K .out) (h_psq : ¬ K .psq)
    (h_ctx : ¬ K .ctx) (h_stn : ¬ K .stn) (h_mot : ¬ K .mot) (x0 : Nat) (h : Kept K a s) :
    Kept K a (observerLoss x0 s) := by
  unfold observerLoss
  with_reducible repeat' first
    | (assumption) | (intro) | (apply kept_State_p) | (apply kept_State_pb) | (apply kept_loseLock)
    | (apply kept_modMc) | (apply kept_foldl) | (apply kept_foldl_snd) | (apply kept_foldl_fst) | (apply kept_ite)
    | (dsimp only) | (split)

theorem kept_shortPeriod (h_mot : ¬ K .mot) (x0 : Nat) (x1 : Sys2Proof.PwmSample) (h : Kept K a s) :
    Kept K a (shortPeriod x0 x1 s) := by
  unfold shortPeriod
  with_reducible repeat' first
    | (assumption) | (intro) | (apply kept_modMc) | (apply kept_foldl) | (apply kept_foldl_snd)
    | (apply kept_foldl_fst) | (apply kept_ite) | (dsimp only) | (split)

theorem kept_mcStatePeriod (h_regs : ¬ K .regs) (h_free : ¬ K .free) (h_out : ¬ K .out) (h_psq : ¬ K .psq)
    (h_ctx : ¬ K .ctx) (h_stn : ¬ K .stn) (h_mot : ¬ K .mot) (x0 : Nat) (x1 : Sys2Proof.PwmSample) (h : Kept K a s) :
    Kept K a (mcStatePeriod x0 x1 s) := by
  unfold mcStatePeriod
  with_reducible repeat' first
    | (assumption) | (intro) | (apply kept_residualRun) | (apply kept_currentLoop) | (apply kept_observerLoss)
    | (apply kept_modMc) | (apply kept_State_p) | (apply kept_shortPeriod) | (apply kept_State_pb)
    | (apply kept_foldl) | (apply kept_foldl_snd) | (apply kept_foldl_fst) | (apply kept_ite) | (dsimp only)
    | (split)

theorem kept_mcPeriod (h_regs : ¬ K .regs) (h_free : ¬ K .free) (h_out : ¬ K .out) (h_host : ¬ K .host)
    (h_err : ¬ K .err) (h_psq : ¬ K .psq) (h_ctx : ¬ K .ctx) (h_codec : ¬ K .codec) (h_stn : ¬ K .stn)
    (h_nvm : ¬ K .nvm) (h_staySeq : ¬ K .staySeq) (h_mot : ¬ K .mot) (h_vis : ¬ K .vis) (h_net : ¬ K .net) (x0 : Nat)
    (x1 : Sys2Proof.PwmSample) (h : Kept K a s) :
    Kept K a (mcPeriod x0 x1 s) := by
  unfold mcPeriod
  with_reducible repeat' first
    | (assumption) | (intro) | (apply kept_mcTake) | (apply kept_modMc) | (apply kept_mcPresent)
    | (apply kept_mcFault) | (apply kept_mcStatePeriod) | (apply kept_State_pb) | (apply kept_foldl)
    | (apply kept_foldl_snd) | (apply kept_foldl_fst) | (apply kept_ite) | (dsimp only) | (split)

theorem kept_mcCatch (h_regs : ¬ K .regs) (h_mot : ¬ K .mot) (x0 : Nat) (x1 : Int) (x2 : BitVec 20) (h : Kept K a s) :
    Kept K a (mcCatch x0 x1 x2 s) := by
  unfold mcCatch
  with_reducible repeat' first
    | (assumption) | (intro) | (apply kept_modMc) | (apply kept_State_pz) | (apply kept_State_p) | (apply kept_foldl)
    | (apply kept_foldl_snd) | (apply kept_foldl_fst) | (apply kept_ite) | (dsimp only) | (split)

theorem kept_mcReacqWindow (h_regs : ¬ K .regs) (h_out : ¬ K .out) (h_host : ¬ K .host) (h_err : ¬ K .err)
    (h_nvm : ¬ K .nvm) (h_staySeq : ¬ K .staySeq) (h_mot : ¬ K .mot) (h_net : ¬ K .net) (x0 : Nat) (x1 : BitVec 16)
    (x2 : BitVec 20) (h : Kept K a s) :
    Kept K a (mcReacqWindow x0 x1 x2 s) := by
  unfold mcReacqWindow
  with_reducible repeat' first
    | (assumption) | (intro) | (apply kept_corrected) | (apply kept_State_inc) | (apply kept_mcCatch)
    | (apply kept_foldl) | (apply kept_foldl_snd) | (apply kept_foldl_fst) | (apply kept_ite) | (dsimp only)
    | (split)

theorem kept_mcSenseDone (h_regs : ¬ K .regs) (h_out : ¬ K .out) (h_mot : ¬ K .mot) (x0 : Nat) (x1 : Bool) (x2 :
    BitVec 16) (x3 : BitVec 20) (h : Kept K a s) :
    Kept K a (mcSenseDone x0 x1 x2 x3 s) := by
  unfold mcSenseDone
  with_reducible repeat' first
    | (assumption) | (intro) | (apply kept_mcCatch) | (apply kept_enterIpd) | (apply kept_modMc)
    | (apply kept_State_p) | (apply kept_foldl) | (apply kept_foldl_snd) | (apply kept_foldl_fst) | (apply kept_ite)
    | (dsimp only) | (split)

theorem kept_mcStartTimeout (h_regs : ¬ K .regs) (h_free : ¬ K .free) (h_out : ¬ K .out) (h_host : ¬ K .host)
    (h_err : ¬ K .err) (h_psq : ¬ K .psq) (h_ctx : ¬ K .ctx) (h_codec : ¬ K .codec) (h_stn : ¬ K .stn)
    (h_nvm : ¬ K .nvm) (h_staySeq : ¬ K .staySeq) (h_mot : ¬ K .mot) (h_vis : ¬ K .vis) (h_net : ¬ K .net) (x0 : Nat)
    (h : Kept K a s) :
    Kept K a (mcStartTimeout x0 s) := by
  unfold mcStartTimeout
  with_reducible repeat' first
    | (assumption) | (intro) | (apply kept_mcFault) | (apply kept_foldl) | (apply kept_foldl_snd)
    | (apply kept_foldl_fst) | (apply kept_ite) | (dsimp only) | (split)

theorem kept_memProcess (h_regs : ¬ K .regs) (h_vis : ¬ K .vis) (x0 : Nat) (h : Kept K a s) :
    Kept K a (memProcess x0 s) := by
  unfold memProcess
  with_reducible repeat' first
    | (assumption) | (intro) | (apply kept_setQueue) | (apply kept_pipeSync) | (apply kept_foldl)
    | (apply kept_foldl_snd) | (apply kept_foldl_fst) | (apply kept_ite) | (dsimp only) | (split)
    | (refine kept_mk ?_ (r_vis := (absurd · h_vis)))

theorem kept_misfeedTimeout (h_regs : ¬ K .regs) (h_free : ¬ K .free) (h_out : ¬ K .out) (h_host : ¬ K .host)
    (h_err : ¬ K .err) (h_psq : ¬ K .psq) (h_ctx : ¬ K .ctx) (h_codec : ¬ K .codec) (h_stn : ¬ K .stn)
    (h_nvm : ¬ K .nvm) (h_staySeq : ¬ K .staySeq) (h_mot : ¬ K .mot) (h_vis : ¬ K .vis) (h_net : ¬ K .net) (x0 : Nat)
    (h : Kept K a s) :
    Kept K a (misfeedTimeout x0 s) := by
  unfold misfeedTimeout
  with_reducible repeat' first
    | (assumption) | (intro) | (apply kept_misfeed) | (apply kept_foldl) | (apply kept_foldl_snd)
    | (apply kept_foldl_fst) | (apply kept_ite) | (dsimp only) | (split)

theorem kept_monAlarm (h_regs : ¬ K .regs) (h_out : ¬ K .out) (x0 : Nat) (h : Kept K a s) :
    Kept K a (monAlarm x0 s) := by
  unfold monAlarm
  with_reducible repeat' first
    | (assumption) | (intro) | (apply kept_State_event) | (apply kept_State_p) | (apply kept_State_pb)
    | (apply kept_State_msix) | (apply kept_foldl) | (apply kept_foldl_snd) | (apply kept_foldl_fst)
    | (apply kept_ite) | (dsimp only) | (split)

theorem kept_monTake (h_regs : ¬ K .regs) (h_out : ¬ K .out) (h_mon : ¬ K .mon) (x0 : Nat) (x1 : Int)
    (h : Kept K a s) :
    Kept K a (monTake x0 x1 s) := by
  unfold monTake
  with_reducible repeat' first
    | (assumption) | (intro) | (apply kept_setMon) | (apply kept_State_pb) | (apply kept_monAlarm)
    | (apply kept_foldl) | (apply kept_foldl_snd) | (apply kept_foldl_fst) | (apply kept_ite) | (dsimp only)
    | (split)

theorem kept_monSample (h_regs : ¬ K .regs) (h_out : ¬ K .out) (h_mon : ¬ K .mon) (x0 : Nat) (x1 : Int)
    (h : Kept K a s) :
    Kept K a (monSample x0 x1 s) := by
  unfold monSample
  with_reducible repeat' first
    | (assumption) | (intro) | (apply kept_setMon) | (apply kept_monTake) | (apply kept_foldl)
    | (apply kept_foldl_snd) | (apply kept_foldl_fst) | (apply kept_ite) | (dsimp only) | (split)

theorem kept_neighbour (h_regs : ¬ K .regs) (h_out : ¬ K .out) (h_dram : ¬ K .dram) (x0 : Nat) (x1 : Nat)
    (h : Kept K a s) :
    Kept K a (neighbour x0 x1 s) := by
  unfold neighbour
  with_reducible repeat' first
    | (assumption) | (intro) | (apply kept_serveRow) | (apply kept_foldl) | (apply kept_foldl_snd)
    | (apply kept_foldl_fst) | (apply kept_ite) | (dsimp only) | (split)

theorem kept_railDeferred (h_pwr : ¬ K .pwr)  (h : Kept K a s) :
    Kept K a (railDeferred s) := by
  unfold railDeferred
  with_reducible repeat' first
    | (assumption) | (intro) | (apply kept_railNvmClr) | (apply kept_setPwr) | (apply kept_railNvm)
    | (apply kept_foldl) | (apply kept_foldl_snd) | (apply kept_foldl_fst) | (apply kept_ite) | (dsimp only)
    | (split)

theorem kept_nvmDeferred (h_regs : ¬ K .regs) (h_err : ¬ K .err) (h_stn : ¬ K .stn) (h_epoch : ¬ K .epoch)
    (h_nvm : ¬ K .nvm) (h_dram : ¬ K .dram) (h_pwr : ¬ K .pwr)  (h : Kept K a s) :
    Kept K a (nvmDeferred s) := by
  unfold nvmDeferred
  with_reducible repeat' first
    | (assumption) | (intro) | (apply kept_railDeferred) | (apply kept_ringPush) | (apply kept_overN)
    | (apply kept_wearSave) | (apply kept_trainErase) | (apply kept_trainStore) | (apply kept_foldl)
    | (apply kept_foldl_snd) | (apply kept_foldl_fst) | (apply kept_ite) | (dsimp only) | (split)
    | (refine kept_epoch h_epoch (Nat.le_max_right _ _) ?_)
    | (refine kept_mk ?_ (r_err := (absurd · h_err)) (r_stn := (absurd · h_stn)) (r_nvm := (absurd · h_nvm)) (r_dram
        := (absurd · h_dram)) (r_pwr := (absurd · h_pwr)))

theorem kept_verify (h_regs : ¬ K .regs) (h_rig : ¬ K .rig) (x0 : List Sys2Proof.Byte) (h : Kept K a s) :
    Kept K a (verify x0 s) := by
  unfold verify
  with_reducible repeat' first
    | (assumption) | (intro) | (apply kept_State_p) | (apply kept_foldl) | (apply kept_foldl_snd)
    | (apply kept_foldl_fst) | (apply kept_ite) | (dsimp only) | (split)
    | (refine kept_mk ?_ (r_rig := (absurd · h_rig)))

theorem kept_nvmImageRead (h_regs : ¬ K .regs) (h_rig : ¬ K .rig)  (h : Kept K a s) :
    Kept K a (nvmImageRead s) := by
  unfold nvmImageRead
  with_reducible repeat' first
    | (assumption) | (intro) | (apply kept_verify) | (apply kept_foldl) | (apply kept_foldl_snd)
    | (apply kept_foldl_fst) | (apply kept_ite) | (dsimp only) | (split)

theorem kept_nvmStoreDone (h_regs : ¬ K .regs) (h_rig : ¬ K .rig)  (h : Kept K a s) :
    Kept K a (nvmStoreDone s) := by
  unfold nvmStoreDone
  with_reducible repeat' first
    | (assumption) | (intro) | (apply kept_State_pb) | (apply kept_loadRestore) | (apply kept_foldl)
    | (apply kept_foldl_snd) | (apply kept_foldl_fst) | (apply kept_ite) | (dsimp only) | (split)
    | (refine kept_mk ?_ (r_rig := (absurd · h_rig)))

theorem kept_onRequestStart (h_regs : ¬ K .regs) (h_pwr : ¬ K .pwr)  (h : Kept K a s) :
    Kept K a (onRequestStart s) := by
  unfold onRequestStart
  with_reducible repeat' first
    | (assumption) | (intro) | (apply kept_startUp) | (apply kept_State_pb) | (apply kept_foldl)
    | (apply kept_foldl_snd) | (apply kept_foldl_fst) | (apply kept_ite) | (dsimp only) | (split)

theorem kept_pcieReset (h_regs : ¬ K .regs) (h_mem : ¬ K .mem) (h_free : ¬ K .free) (h_out : ¬ K .out)
    (h_host : ¬ K .host) (h_err : ¬ K .err) (h_psq : ¬ K .psq) (h_ctx : ¬ K .ctx) (h_codec : ¬ K .codec)
    (h_stn : ¬ K .stn) (h_nvm : ¬ K .nvm) (h_staySeq : ¬ K .staySeq) (h_dram : ¬ K .dram) (h_mot : ¬ K .mot)
    (h_net : ¬ K .net) (h_dma : ¬ K .dma) (x0 : Option (Fin 8)) (h : Kept K a s) :
    Kept K a (pcieReset x0 s) := by
  unfold pcieReset
  with_reducible repeat' first
    | (assumption) | (intro) | (apply kept_overN) | (apply kept_pairDrop) | (apply kept_dropCommits)
    | (apply kept_endTimeEvents) | (apply kept_closeSession) | (apply kept_dmaLinkReset)
    | (apply kept_State_resetRegs) | (apply kept_foldl) | (apply kept_foldl_snd) | (apply kept_foldl_fst)
    | (apply kept_ite) | (dsimp only) | (split)
    | (refine kept_mk ?_ (r_host := (absurd · h_host)) (r_err := (absurd · h_err)) (r_psq := (absurd · h_psq)) (r_ctx
        := (absurd · h_ctx)) (r_codec := (absurd · h_codec)) (r_stn := (absurd · h_stn)) (r_nvm := (absurd · h_nvm))
        (r_staySeq := (absurd · h_staySeq)) (r_dram := (absurd · h_dram)) (r_mot := (absurd · h_mot)) (r_net :=
        (absurd · h_net)) (r_dma := (absurd · h_dma)))

theorem kept_pxLost (h_regs : ¬ K .regs) (h_free : ¬ K .free) (h_out : ¬ K .out) (h_host : ¬ K .host)
    (h_err : ¬ K .err) (h_psq : ¬ K .psq) (h_ctx : ¬ K .ctx) (h_codec : ¬ K .codec) (h_stn : ¬ K .stn)
    (h_nvm : ¬ K .nvm) (h_staySeq : ¬ K .staySeq) (h_clk : ¬ K .clk) (h_mot : ¬ K .mot) (h_vis : ¬ K .vis)
    (h_net : ¬ K .net) (x0 : Nat) (h : Kept K a s) :
    Kept K a (pxLost x0 s) := by
  unfold pxLost
  with_reducible repeat' first
    | (assumption) | (intro) | (apply kept_State_pb) | (apply kept_pxRelock) | (apply kept_raise)
    | (apply kept_spoilAt) | (apply kept_foldl) | (apply kept_foldl_snd) | (apply kept_foldl_fst) | (apply kept_ite)
    | (dsimp only) | (split)

theorem kept_lostEffect (h_regs : ¬ K .regs) (h_free : ¬ K .free) (h_out : ¬ K .out) (h_host : ¬ K .host)
    (h_err : ¬ K .err) (h_psq : ¬ K .psq) (h_ctx : ¬ K .ctx) (h_codec : ¬ K .codec) (h_stn : ¬ K .stn)
    (h_nvm : ¬ K .nvm) (h_staySeq : ¬ K .staySeq) (h_clk : ¬ K .clk) (h_mot : ¬ K .mot) (h_vis : ¬ K .vis)
    (h_net : ¬ K .net) (x0 : Nat) (h : Kept K a s) :
    Kept K a (lostEffect x0 s) := by
  unfold lostEffect
  with_reducible repeat' first
    | (assumption) | (intro) | (apply kept_clockFatal) | (apply kept_raise) | (apply kept_islFollow)
    | (apply kept_pxLost) | (apply kept_corrected) | (apply kept_foldl) | (apply kept_foldl_snd)
    | (apply kept_foldl_fst) | (apply kept_ite) | (dsimp only) | (split)

theorem kept_pllLock (h_regs : ¬ K .regs) (h_free : ¬ K .free) (h_out : ¬ K .out) (h_host : ¬ K .host)
    (h_err : ¬ K .err) (h_psq : ¬ K .psq) (h_ctx : ¬ K .ctx) (h_codec : ¬ K .codec) (h_stn : ¬ K .stn)
    (h_nvm : ¬ K .nvm) (h_staySeq : ¬ K .staySeq) (h_clk : ¬ K .clk) (h_mot : ¬ K .mot) (h_vis : ¬ K .vis)
    (h_net : ¬ K .net) (x0 : Nat) (h : Kept K a s) :
    Kept K a (pllLock x0 s) := by
  unfold pllLock
  with_reducible repeat' first
    | (assumption) | (intro) | (apply kept_setCal) | (apply kept_lostEffect) | (apply kept_State_pb)
    | (apply kept_State_p) | (apply kept_ckoSyncAll) | (apply kept_islFollow) | (apply kept_foldl)
    | (apply kept_foldl_snd) | (apply kept_foldl_fst) | (apply kept_ite) | (dsimp only) | (split)

theorem kept_pllLoss (h_regs : ¬ K .regs) (h_free : ¬ K .free) (h_out : ¬ K .out) (h_host : ¬ K .host)
    (h_err : ¬ K .err) (h_psq : ¬ K .psq) (h_ctx : ¬ K .ctx) (h_codec : ¬ K .codec) (h_stn : ¬ K .stn)
    (h_nvm : ¬ K .nvm) (h_staySeq : ¬ K .staySeq) (h_clk : ¬ K .clk) (h_mot : ¬ K .mot) (h_vis : ¬ K .vis)
    (h_net : ¬ K .net) (x0 : Nat) (h : Kept K a s) :
    Kept K a (pllLoss x0 s) := by
  unfold pllLoss
  with_reducible repeat' first
    | (assumption) | (intro) | (apply kept_State_inc) | (apply kept_State_pb) | (apply kept_lostEffect)
    | (apply kept_calibrate) | (apply kept_foldl) | (apply kept_foldl_snd) | (apply kept_foldl_fst)
    | (apply kept_ite) | (dsimp only) | (split)

theorem kept_powerOn (h_regs : ¬ K .regs) (h_latch : ¬ K .latch) (h_mem : ¬ K .mem) (h_time : ¬ K .time)
    (h_free : ¬ K .free) (h_host : ¬ K .host) (h_err : ¬ K .err) (h_psq : ¬ K .psq) (h_ctx : ¬ K .ctx)
    (h_codec : ¬ K .codec) (h_stn : ¬ K .stn) (h_epoch : ¬ K .epoch) (h_staySeq : ¬ K .staySeq) (h_dram : ¬ K .dram)
    (h_clk : ¬ K .clk) (h_mon : ¬ K .mon) (h_rig : ¬ K .rig) (h_mot : ¬ K .mot) (h_pwr : ¬ K .pwr) (h_thm : ¬ K .thm)
    (h_vis : ¬ K .vis) (h_net : ¬ K .net) (h_dma : ¬ K .dma) (h_pins : ¬ K .pins)  (h : Kept K a s) :
    Kept K a (powerOn s) := by
  unfold powerOn
  with_reducible repeat' first
    | (assumption) | (intro) | (apply kept_State_p) | (apply kept_coldStart) | (apply kept_foldl)
    | (apply kept_foldl_snd) | (apply kept_foldl_fst) | (apply kept_ite) | (dsimp only) | (split)
    | (refine kept_mk ?_ (r_time := (absurd · h_time)) (r_host := (absurd · h_host)) (r_err := (absurd · h_err))
        (r_psq := (absurd · h_psq)) (r_ctx := (absurd · h_ctx)) (r_codec := (absurd · h_codec)) (r_stn :=
        (absurd · h_stn)) (r_staySeq := (absurd · h_staySeq)) (r_dram := (absurd · h_dram)) (r_clk :=
        (absurd · h_clk)) (r_mon := (absurd · h_mon)) (r_rig := (absurd · h_rig)) (r_mot := (absurd · h_mot)) (r_pwr
        := (absurd · h_pwr)) (r_thm := (absurd · h_thm)) (r_vis := (absurd · h_vis)) (r_net := (absurd · h_net))
        (r_dma := (absurd · h_dma)) (r_pins := (absurd · h_pins)))

theorem kept_headerRead (h_regs : ¬ K .regs) (h_out : ¬ K .out) (h_rig : ¬ K .rig) (x0 : List Sys2Proof.Byte)
    (h : Kept K a s) :
    Kept K a (headerRead x0 s) := by
  unfold headerRead
  with_reducible repeat' first
    | (assumption) | (intro) | (apply kept_reject) | (apply kept_State_emit) | (apply kept_foldl)
    | (apply kept_foldl_snd) | (apply kept_foldl_fst) | (apply kept_ite) | (dsimp only) | (split)
    | (refine kept_mk ?_ (r_rig := (absurd · h_rig)))

theorem kept_imageRead (h_regs : ¬ K .regs) (h_out : ¬ K .out) (h_rig : ¬ K .rig) (x0 : List Sys2Proof.Byte)
    (h : Kept K a s) :
    Kept K a (imageRead x0 s) := by
  unfold imageRead
  with_reducible repeat' first
    | (assumption) | (intro) | (apply kept_verify) | (apply kept_State_emit) | (apply kept_foldl)
    | (apply kept_foldl_snd) | (apply kept_foldl_fst) | (apply kept_ite) | (dsimp only) | (split)

theorem kept_stepFail (h_regs : ¬ K .regs) (h_free : ¬ K .free) (h_out : ¬ K .out) (h_host : ¬ K .host)
    (h_err : ¬ K .err) (h_psq : ¬ K .psq) (h_ctx : ¬ K .ctx) (h_codec : ¬ K .codec) (h_stn : ¬ K .stn)
    (h_nvm : ¬ K .nvm) (h_staySeq : ¬ K .staySeq) (h_mot : ¬ K .mot) (h_pwr : ¬ K .pwr) (h_vis : ¬ K .vis)
    (h_net : ¬ K .net) (x0 : Nat) (x1 : Option Nat) (h : Kept K a s) :
    Kept K a (stepFail x0 x1 s) := by
  unfold stepFail
  with_reducible repeat' first
    | (assumption) | (intro) | (apply kept_State_p) | (apply kept_State_pb) | (apply kept_State_inc)
    | (apply kept_beginDown) | (apply kept_setPwr) | (apply kept_foldl) | (apply kept_foldl_snd)
    | (apply kept_foldl_fst) | (apply kept_ite) | (dsimp only) | (split)

theorem kept_railFault (h_regs : ¬ K .regs) (h_free : ¬ K .free) (h_out : ¬ K .out) (h_host : ¬ K .host)
    (h_err : ¬ K .err) (h_psq : ¬ K .psq) (h_ctx : ¬ K .ctx) (h_codec : ¬ K .codec) (h_stn : ¬ K .stn)
    (h_nvm : ¬ K .nvm) (h_staySeq : ¬ K .staySeq) (h_mot : ¬ K .mot) (h_pwr : ¬ K .pwr) (h_vis : ¬ K .vis)
    (h_net : ¬ K .net) (x0 : Nat) (x1 : Nat) (x2 : Nat) (x3 : Nat) (h : Kept K a s) :
    Kept K a (railFault x0 x1 x2 x3 s) := by
  unfold railFault
  with_reducible repeat' first
    | (assumption) | (intro) | (apply kept_State_inc) | (apply kept_stepFail) | (apply kept_State_pb)
    | (apply kept_State_p) | (apply kept_beginDown) | (apply kept_raise) | (apply kept_foldl)
    | (apply kept_foldl_snd) | (apply kept_foldl_fst) | (apply kept_ite) | (dsimp only) | (split)

theorem kept_railDroop (h_regs : ¬ K .regs) (h_free : ¬ K .free) (h_out : ¬ K .out) (h_host : ¬ K .host)
    (h_err : ¬ K .err) (h_psq : ¬ K .psq) (h_ctx : ¬ K .ctx) (h_codec : ¬ K .codec) (h_stn : ¬ K .stn)
    (h_nvm : ¬ K .nvm) (h_staySeq : ¬ K .staySeq) (h_mot : ¬ K .mot) (h_pwr : ¬ K .pwr) (h_vis : ¬ K .vis)
    (h_net : ¬ K .net) (x0 : Nat) (h : Kept K a s) :
    Kept K a (railDroop x0 s) := by
  unfold railDroop
  with_reducible repeat' first
    | (assumption) | (intro) | (apply kept_railFault) | (apply kept_slotQual) | (apply kept_setPwr)
    | (apply kept_foldl) | (apply kept_foldl_snd) | (apply kept_foldl_fst) | (apply kept_ite) | (dsimp only)
    | (split)

theorem kept_pgLevel (h_pwr : ¬ K .pwr) (x0 : Nat) (x1 : Bool) (h : Kept K a s) :
    Kept K a (pgLevel x0 x1 s) := by
  unfold pgLevel
  with_reducible repeat' first
    | (assumption) | (intro) | (apply kept_setPwr) | (apply kept_foldl) | (apply kept_foldl_snd)
    | (apply kept_foldl_fst) | (apply kept_ite) | (dsimp only) | (split)

theorem kept_pgDrop (h_regs : ¬ K .regs) (h_pwr : ¬ K .pwr) (x0 : Nat) (h : Kept K a s) :
    Kept K a (pgDrop x0 s) := by
  unfold pgDrop
  with_reducible repeat' first
    | (assumption) | (intro) | (apply kept_railDrop) | (apply kept_pgLevel) | (apply kept_foldl)
    | (apply kept_foldl_snd) | (apply kept_foldl_fst) | (apply kept_ite) | (dsimp only) | (split)

theorem kept_pgRise (h_regs : ¬ K .regs) (h_pwr : ¬ K .pwr) (x0 : Nat) (h : Kept K a s) :
    Kept K a (pgRise x0 s) := by
  unfold pgRise
  with_reducible repeat' first
    | (assumption) | (intro) | (apply kept_railRise) | (apply kept_pgLevel) | (apply kept_foldl)
    | (apply kept_foldl_snd) | (apply kept_foldl_fst) | (apply kept_ite) | (dsimp only) | (split)

theorem kept_railOv (h_regs : ¬ K .regs) (h_free : ¬ K .free) (h_out : ¬ K .out) (h_host : ¬ K .host)
    (h_err : ¬ K .err) (h_psq : ¬ K .psq) (h_ctx : ¬ K .ctx) (h_codec : ¬ K .codec) (h_stn : ¬ K .stn)
    (h_nvm : ¬ K .nvm) (h_staySeq : ¬ K .staySeq) (h_mot : ¬ K .mot) (h_pwr : ¬ K .pwr) (h_vis : ¬ K .vis)
    (h_net : ¬ K .net) (x0 : Nat) (x1 : Nat) (h : Kept K a s) :
    Kept K a (railOv x0 x1 s) := by
  unfold railOv
  with_reducible repeat' first
    | (assumption) | (intro) | (apply kept_setPwr) | (apply kept_railFault) | (apply kept_foldl)
    | (apply kept_foldl_snd) | (apply kept_foldl_fst) | (apply kept_ite) | (dsimp only) | (split)

theorem kept_railQualified (h_regs : ¬ K .regs) (h_pwr : ¬ K .pwr) (x0 : Nat) (h : Kept K a s) :
    Kept K a (railQualified x0 s) := by
  unfold railQualified
  with_reducible repeat' first
    | (assumption) | (intro) | (apply kept_slotQual) | (apply kept_setPwr) | (apply kept_foldl)
    | (apply kept_foldl_snd) | (apply kept_foldl_fst) | (apply kept_ite) | (dsimp only) | (split)

theorem kept_thermLive  (x0 : State → State) (hf_x0 : ∀  t, Kept K a t → Kept K a (x0  t)) (h : Kept K a s) :
    Kept K a (thermLive x0 s) := by
  unfold thermLive
  with_reducible repeat' first
    | (assumption) | (intro) | (apply hf_x0) | (apply kept_foldl) | (apply kept_foldl_snd) | (apply kept_foldl_fst)
    | (apply kept_ite) | (dsimp only) | (split)

theorem kept_reefLeave (h_regs : ¬ K .regs) (h_out : ¬ K .out) (h_psq : ¬ K .psq) (h_thm : ¬ K .thm) (x0 : Nat)
    (h : Kept K a s) :
    Kept K a (reefLeave x0 s) := by
  unfold reefLeave
  with_reducible repeat' first
    | (assumption) | (intro) | (apply kept_State_p) | (apply kept_live) | (apply kept_noteChange)
    | (apply kept_feedSync) | (apply kept_State_pb) | (apply kept_foldl) | (apply kept_foldl_snd)
    | (apply kept_foldl_fst) | (apply kept_ite) | (dsimp only) | (split)
    | (refine kept_mk ?_ (r_psq := (absurd · h_psq)) (r_thm := (absurd · h_thm)))

theorem kept_refLoss (h_regs : ¬ K .regs) (h_free : ¬ K .free) (h_out : ¬ K .out) (h_host : ¬ K .host)
    (h_err : ¬ K .err) (h_psq : ¬ K .psq) (h_ctx : ¬ K .ctx) (h_codec : ¬ K .codec) (h_stn : ¬ K .stn)
    (h_nvm : ¬ K .nvm) (h_staySeq : ¬ K .staySeq) (h_mot : ¬ K .mot)  (h : Kept K a s) :
    Kept K a (refLoss s) := by
  unfold refLoss
  with_reducible repeat' first
    | (assumption) | (intro) | (apply kept_State_pb) | (apply kept_overN) | (apply kept_State_inc)
    | (apply kept_clockFatal) | (apply kept_foldl) | (apply kept_foldl_snd) | (apply kept_foldl_fst)
    | (apply kept_ite) | (dsimp only) | (split)

theorem kept_regStep (h_regs : ¬ K .regs) (h_out : ¬ K .out) (h_host : ¬ K .host) (h_err : ¬ K .err)
    (h_psq : ¬ K .psq) (h_stn : ¬ K .stn) (h_nvm : ¬ K .nvm) (h_staySeq : ¬ K .staySeq) (h_vis : ¬ K .vis)
    (h_net : ¬ K .net) (x0 : Nat) (h : Kept K a s) :
    Kept K a (regStep x0 s) := by
  unfold regStep
  with_reducible repeat' first
    | (assumption) | (intro) | (apply kept_setAdjust) | (apply kept_corrected) | (apply kept_State_pb)
    | (apply kept_foldl) | (apply kept_foldl_snd) | (apply kept_foldl_fst) | (apply kept_ite) | (dsimp only)
    | (split)
    | (refine kept_mk ?_ (r_host := (absurd · h_host)) (r_err := (absurd · h_err)) (r_psq := (absurd · h_psq)) (r_stn
        := (absurd · h_stn)) (r_nvm := (absurd · h_nvm)) (r_staySeq := (absurd · h_staySeq)) (r_vis :=
        (absurd · h_vis)) (r_net := (absurd · h_net)))

theorem kept_ptrimStep (h_regs : ¬ K .regs) (h_out : ¬ K .out) (h_psq : ¬ K .psq) (h_stn : ¬ K .stn)
    (h_clk : ¬ K .clk) (h_vis : ¬ K .vis)  (h : Kept K a s) :
    Kept K a (ptrimStep s) := by
  unfold ptrimStep
  with_reducible repeat' first
    | (assumption) | (intro) | (apply kept_ptrimWrite) | (apply kept_foldl) | (apply kept_foldl_snd)
    | (apply kept_foldl_fst) | (apply kept_ite) | (dsimp only) | (split)
    | (refine kept_mk ?_ (r_psq := (absurd · h_psq)) (r_stn := (absurd · h_stn)) (r_clk := (absurd · h_clk)) (r_vis
        := (absurd · h_vis)))

theorem kept_regionResetDone (h_regs : ¬ K .regs) (h_free : ¬ K .free) (h_out : ¬ K .out) (h_err : ¬ K .err)
    (h_psq : ¬ K .psq) (h_ctx : ¬ K .ctx) (h_stn : ¬ K .stn) (h_mot : ¬ K .mot) (x0 : Nat) (h : Kept K a s) :
    Kept K a (regionResetDone x0 s) := by
  unfold regionResetDone
  with_reducible repeat' first
    | (assumption) | (intro) | (apply kept_islReset) | (apply kept_furl) | (apply kept_releaseOutputs)
    | (apply kept_foldl) | (apply kept_foldl_snd) | (apply kept_foldl_fst) | (apply kept_ite) | (dsimp only)
    | (split)
    | (refine kept_mk ?_ (r_err := (absurd · h_err)) (r_psq := (absurd · h_psq)) (r_ctx := (absurd · h_ctx)) (r_stn
        := (absurd · h_stn)) (r_mot := (absurd · h_mot)))

theorem kept_resetTimeout (h_regs : ¬ K .regs) (h_free : ¬ K .free) (h_out : ¬ K .out) (h_host : ¬ K .host)
    (h_err : ¬ K .err) (h_psq : ¬ K .psq) (h_ctx : ¬ K .ctx) (h_codec : ¬ K .codec) (h_stn : ¬ K .stn)
    (h_nvm : ¬ K .nvm) (h_staySeq : ¬ K .staySeq) (h_mot : ¬ K .mot) (h_vis : ¬ K .vis) (h_net : ¬ K .net) (x0 : Nat)
    (h : Kept K a s) :
    Kept K a (resetTimeout x0 s) := by
  unfold resetTimeout
  with_reducible repeat' first
    | (assumption) | (intro) | (apply kept_raise) | (apply kept_foldl) | (apply kept_foldl_snd)
    | (apply kept_foldl_fst) | (apply kept_ite) | (dsimp only) | (split)
    | (refine kept_mk ?_ (r_host := (absurd · h_host)) (r_err := (absurd · h_err)) (r_psq := (absurd · h_psq)) (r_ctx
        := (absurd · h_ctx)) (r_codec := (absurd · h_codec)) (r_stn := (absurd · h_stn)) (r_nvm := (absurd · h_nvm))
        (r_staySeq := (absurd · h_staySeq)) (r_mot := (absurd · h_mot)) (r_vis := (absurd · h_vis)) (r_net :=
        (absurd · h_net)))

theorem kept_loadRefused (h_regs : ¬ K .regs)  (h : Kept K a s) :
    Kept K a (loadRefused s) := by
  unfold loadRefused
  with_reducible repeat' first
    | (assumption) | (intro) | (apply kept_State_pb) | (apply kept_foldl) | (apply kept_foldl_snd)
    | (apply kept_foldl_fst) | (apply kept_ite) | (dsimp only) | (split)

theorem kept_loadOpen (h_regs : ¬ K .regs) (h_out : ¬ K .out) (h_rig : ¬ K .rig)  (h : Kept K a s) :
    Kept K a (loadOpen s) := by
  unfold loadOpen
  with_reducible repeat' first
    | (assumption) | (intro) | (apply kept_startLoad) | (apply kept_foldl) | (apply kept_foldl_snd)
    | (apply kept_foldl_fst) | (apply kept_ite) | (dsimp only) | (split)
    | (refine kept_mk ?_ (r_rig := (absurd · h_rig)))

theorem kept_loadCommit (h_regs : ¬ K .regs) (h_rig : ¬ K .rig)  (h : Kept K a s) :
    Kept K a (loadCommit s) := by
  unfold loadCommit
  with_reducible repeat' first
    | (assumption) | (intro) | (apply kept_verify) | (apply kept_foldl) | (apply kept_foldl_snd)
    | (apply kept_foldl_fst) | (apply kept_ite) | (dsimp only) | (split)
    | (refine kept_mk ?_ (r_rig := (absurd · h_rig)))

theorem kept_loadCtrlWrite (h_regs : ¬ K .regs) (h_out : ¬ K .out) (h_rig : ¬ K .rig) (x0 : Sys2Proof.Word)
    (h : Kept K a s) :
    Kept K a (loadCtrlWrite x0 s) := by
  unfold loadCtrlWrite
  with_reducible repeat' first
    | (assumption) | (intro) | (apply kept_State_plainWrite) | (apply kept_loadRefused) | (apply kept_loadOpen)
    | (apply kept_loadCommit) | (apply kept_loadRestore) | (apply kept_foldl) | (apply kept_foldl_snd)
    | (apply kept_foldl_fst) | (apply kept_ite) | (dsimp only) | (split)

theorem kept_hostWord (h_regs : ¬ K .regs) (h_latch : ¬ K .latch) (h_mem : ¬ K .mem) (h_time : ¬ K .time)
    (h_free : ¬ K .free) (h_out : ¬ K .out) (h_host : ¬ K .host) (h_err : ¬ K .err) (h_psq : ¬ K .psq)
    (h_ctx : ¬ K .ctx) (h_codec : ¬ K .codec) (h_stn : ¬ K .stn) (h_epoch : ¬ K .epoch) (h_nvm : ¬ K .nvm)
    (h_staySeq : ¬ K .staySeq) (h_dram : ¬ K .dram) (h_clk : ¬ K .clk) (h_mon : ¬ K .mon) (h_rig : ¬ K .rig)
    (h_mot : ¬ K .mot) (h_pwr : ¬ K .pwr) (h_thm : ¬ K .thm) (h_vis : ¬ K .vis) (h_net : ¬ K .net) (h_dma : ¬ K .dma)
    (x0 : Nat) (x1 : Sys2Proof.Word) (h : Kept K a s) :
    Kept K a (hostWord x0 x1 s) := by
  unfold hostWord
  with_reducible repeat' first
    | (assumption) | (intro) | (apply kept_chipResetWrite) | (apply kept_loadCtrlWrite) | (apply kept_apertureWrite)
    | (apply kept_regWrite) | (apply kept_foldl) | (apply kept_foldl_snd) | (apply kept_foldl_fst) | (apply kept_ite)
    | (dsimp only) | (split)

theorem kept_fullWrite (h_regs : ¬ K .regs) (h_latch : ¬ K .latch) (h_mem : ¬ K .mem) (h_time : ¬ K .time)
    (h_free : ¬ K .free) (h_out : ¬ K .out) (h_host : ¬ K .host) (h_err : ¬ K .err) (h_psq : ¬ K .psq)
    (h_ctx : ¬ K .ctx) (h_codec : ¬ K .codec) (h_stn : ¬ K .stn) (h_epoch : ¬ K .epoch) (h_nvm : ¬ K .nvm)
    (h_staySeq : ¬ K .staySeq) (h_dram : ¬ K .dram) (h_clk : ¬ K .clk) (h_mon : ¬ K .mon) (h_rig : ¬ K .rig)
    (h_mot : ¬ K .mot) (h_pwr : ¬ K .pwr) (h_thm : ¬ K .thm) (h_vis : ¬ K .vis) (h_net : ¬ K .net) (h_dma : ¬ K .dma)
    (x0 : Nat) (x1 : Nat) (x2 : Sys2Proof.Word) (h : Kept K a s) :
    Kept K a (fullWrite x0 x1 x2 s) := by
  unfold fullWrite
  with_reducible repeat' first
    | (assumption) | (intro) | (apply kept_hostWord) | (apply kept_State_chipErr) | (apply kept_foldl)
    | (apply kept_foldl_snd) | (apply kept_foldl_fst) | (apply kept_ite) | (dsimp only) | (split)

theorem kept_hostWrite (h_regs : ¬ K .regs) (h_latch : ¬ K .latch) (h_mem : ¬ K .mem) (h_time : ¬ K .time)
    (h_free : ¬ K .free) (h_out : ¬ K .out) (h_host : ¬ K .host) (h_err : ¬ K .err) (h_psq : ¬ K .psq)
    (h_ctx : ¬ K .ctx) (h_codec : ¬ K .codec) (h_stn : ¬ K .stn) (h_epoch : ¬ K .epoch) (h_nvm : ¬ K .nvm)
    (h_staySeq : ¬ K .staySeq) (h_dram : ¬ K .dram) (h_clk : ¬ K .clk) (h_mon : ¬ K .mon) (h_rig : ¬ K .rig)
    (h_mot : ¬ K .mot) (h_pwr : ¬ K .pwr) (h_thm : ¬ K .thm) (h_vis : ¬ K .vis) (h_net : ¬ K .net) (h_dma : ¬ K .dma)
    (x0 : Nat) (x1 : Nat) (x2 : Sys2Proof.Word) (h : Kept K a s) :
    Kept K a (hostWrite x0 x1 x2 s) := by
  unfold hostWrite
  with_reducible repeat' first
    | (assumption) | (intro) | (apply kept_hostAt) | (apply kept_holdAccess) | (apply kept_fullWrite)
    | (apply kept_foldl) | (apply kept_foldl_snd) | (apply kept_foldl_fst) | (apply kept_ite) | (dsimp only)
    | (split)

theorem kept_loadCells (h_regs : ¬ K .regs) (x0 : Nat) (x1 : List Nat) (h : Kept K a s) :
    Kept K a (loadCells x0 x1 s) := by
  unfold loadCells
  with_reducible repeat' first
    | (assumption) | (intro) | (apply kept_overN) | (apply kept_State_p) | (apply kept_foldl)
    | (apply kept_foldl_snd) | (apply kept_foldl_fst) | (apply kept_ite) | (dsimp only) | (split)

theorem kept_loadBow (h_regs : ¬ K .regs) (x0 : Nat) (x1 : List Sys2Proof.Byte) (h : Kept K a s) :
    Kept K a (loadBow x0 x1 s) := by
  unfold loadBow
  with_reducible repeat' first
    | (assumption) | (intro) | (apply kept_overN) | (apply kept_State_p) | (apply kept_foldl)
    | (apply kept_foldl_snd) | (apply kept_foldl_fst) | (apply kept_ite) | (dsimp only) | (split)

theorem kept_loadScreen (h_stn : ¬ K .stn) (x0 : Nat) (x1 : Nat) (x2 : Nat) (x3 : List Nat) (h : Kept K a s) :
    Kept K a (loadScreen x0 x1 x2 x3 s) := by
  unfold loadScreen
  with_reducible repeat' first
    | (assumption) | (intro) | (apply kept_State_modStn) | (apply kept_foldl) | (apply kept_foldl_snd)
    | (apply kept_foldl_fst) | (apply kept_ite) | (dsimp only) | (split)

theorem kept_loadTables (h_regs : ¬ K .regs) (h_free : ¬ K .free) (h_out : ¬ K .out) (h_host : ¬ K .host)
    (h_err : ¬ K .err) (h_stn : ¬ K .stn) (h_nvm : ¬ K .nvm) (h_staySeq : ¬ K .staySeq) (h_dram : ¬ K .dram)
    (h_net : ¬ K .net) (x0 : Nat) (x1 : Gen) (h : Kept K a s) :
    Kept K a (loadTables x0 x1 s) := by
  unfold loadTables
  with_reducible repeat' first
    | (assumption) | (intro) | (apply kept_dramTake) | (apply kept_loadCells) | (apply kept_loadBow)
    | (apply kept_loadScreen) | (apply kept_foldl) | (apply kept_foldl_snd) | (apply kept_foldl_fst)
    | (apply kept_ite) | (dsimp only) | (split)

theorem kept_reloadDone (h_regs : ¬ K .regs) (h_free : ¬ K .free) (h_out : ¬ K .out) (h_host : ¬ K .host)
    (h_err : ¬ K .err) (h_psq : ¬ K .psq) (h_stn : ¬ K .stn) (h_nvm : ¬ K .nvm) (h_staySeq : ¬ K .staySeq)
    (h_dram : ¬ K .dram) (h_clk : ¬ K .clk) (h_net : ¬ K .net) (x0 : Nat) (x1 : Nat) (h : Kept K a s) :
    Kept K a (reloadDone x0 x1 s) := by
  unfold reloadDone
  with_reducible repeat' first
    | (assumption) | (intro) | (apply kept_State_pb) | (apply kept_State_modStn) | (apply kept_State_p)
    | (apply kept_boostGens) | (apply kept_activateTry) | (apply kept_activate) | (apply kept_loadTables)
    | (apply kept_foldl) | (apply kept_foldl_snd) | (apply kept_foldl_fst) | (apply kept_ite) | (dsimp only)
    | (split)

theorem kept_reloadStart (h_regs : ¬ K .regs) (h_stn : ¬ K .stn) (x0 : Nat) (h : Kept K a s) :
    Kept K a (reloadStart x0 s) := by
  unfold reloadStart
  with_reducible repeat' first
    | (assumption) | (intro) | (apply kept_State_pb) | (apply kept_State_modStn) | (apply kept_foldl)
    | (apply kept_foldl_snd) | (apply kept_foldl_fst) | (apply kept_ite) | (dsimp only) | (split)

theorem kept_replRetry (h_regs : ¬ K .regs) (h_out : ¬ K .out) (h_host : ¬ K .host) (h_err : ¬ K .err)
    (h_nvm : ¬ K .nvm) (h_staySeq : ¬ K .staySeq) (h_net : ¬ K .net) (x0 : Nat) (x1 : Nat) (h : Kept K a s) :
    Kept K a (replRetry x0 x1 s) := by
  unfold replRetry
  with_reducible repeat' first
    | (assumption) | (intro) | (apply kept_replSend) | (apply kept_modRepl) | (apply kept_record)
    | (apply kept_setRepl) | (apply kept_foldl) | (apply kept_foldl_snd) | (apply kept_foldl_fst) | (apply kept_ite)
    | (dsimp only) | (split)

theorem kept_releaseReset (h_regs : ¬ K .regs) (h_pins : ¬ K .pins)  (h : Kept K a s) :
    Kept K a (releaseReset s) := by
  unfold releaseReset
  with_reducible repeat' first
    | (assumption) | (intro) | (apply kept_State_p) | (apply kept_foldl) | (apply kept_foldl_snd)
    | (apply kept_foldl_fst) | (apply kept_ite) | (dsimp only) | (split)
    | (refine kept_mk ?_ (r_pins := (absurd · h_pins)))

theorem kept_holdIslands (h_regs : ¬ K .regs) (h_latch : ¬ K .latch) (h_mem : ¬ K .mem) (h_time : ¬ K .time)
    (h_free : ¬ K .free) (h_host : ¬ K .host) (h_err : ¬ K .err) (h_psq : ¬ K .psq) (h_ctx : ¬ K .ctx)
    (h_codec : ¬ K .codec) (h_stn : ¬ K .stn) (h_epoch : ¬ K .epoch) (h_staySeq : ¬ K .staySeq) (h_dram : ¬ K .dram)
    (h_clk : ¬ K .clk) (h_mon : ¬ K .mon) (h_rig : ¬ K .rig) (h_mot : ¬ K .mot) (h_thm : ¬ K .thm) (h_vis : ¬ K .vis)
    (h_net : ¬ K .net) (h_dma : ¬ K .dma) (h_pins : ¬ K .pins)  (h : Kept K a s) :
    Kept K a (holdIslands s) := by
  unfold holdIslands
  with_reducible repeat' first
    | (assumption) | (intro) | (apply kept_chipReset) | (apply kept_foldl) | (apply kept_foldl_snd)
    | (apply kept_foldl_fst) | (apply kept_ite) | (dsimp only) | (split)
    | (refine kept_mk ?_ (r_time := (absurd · h_time)) (r_host := (absurd · h_host)) (r_err := (absurd · h_err))
        (r_psq := (absurd · h_psq)) (r_ctx := (absurd · h_ctx)) (r_codec := (absurd · h_codec)) (r_stn :=
        (absurd · h_stn)) (r_staySeq := (absurd · h_staySeq)) (r_dram := (absurd · h_dram)) (r_clk :=
        (absurd · h_clk)) (r_mon := (absurd · h_mon)) (r_rig := (absurd · h_rig)) (r_mot := (absurd · h_mot)) (r_thm
        := (absurd · h_thm)) (r_vis := (absurd · h_vis)) (r_net := (absurd · h_net)) (r_dma := (absurd · h_dma))
        (r_pins := (absurd · h_pins)))

theorem kept_holdReset (h_regs : ¬ K .regs) (h_latch : ¬ K .latch) (h_mem : ¬ K .mem) (h_time : ¬ K .time)
    (h_free : ¬ K .free) (h_out : ¬ K .out) (h_host : ¬ K .host) (h_err : ¬ K .err) (h_psq : ¬ K .psq)
    (h_ctx : ¬ K .ctx) (h_codec : ¬ K .codec) (h_stn : ¬ K .stn) (h_epoch : ¬ K .epoch) (h_staySeq : ¬ K .staySeq)
    (h_dram : ¬ K .dram) (h_clk : ¬ K .clk) (h_mon : ¬ K .mon) (h_rig : ¬ K .rig) (h_mot : ¬ K .mot)
    (h_thm : ¬ K .thm) (h_vis : ¬ K .vis) (h_net : ¬ K .net) (h_dma : ¬ K .dma) (h_pins : ¬ K .pins)
    (h : Kept K a s) :
    Kept K a (holdReset s) := by
  unfold holdReset
  with_reducible repeat' first
    | (assumption) | (intro) | (apply kept_holdIslands) | (apply kept_forceOutputs) | (apply kept_foldl)
    | (apply kept_foldl_snd) | (apply kept_foldl_fst) | (apply kept_ite) | (dsimp only) | (split)

theorem kept_resetPin (h_regs : ¬ K .regs) (h_latch : ¬ K .latch) (h_mem : ¬ K .mem) (h_time : ¬ K .time)
    (h_free : ¬ K .free) (h_out : ¬ K .out) (h_host : ¬ K .host) (h_err : ¬ K .err) (h_psq : ¬ K .psq)
    (h_ctx : ¬ K .ctx) (h_codec : ¬ K .codec) (h_stn : ¬ K .stn) (h_epoch : ¬ K .epoch) (h_staySeq : ¬ K .staySeq)
    (h_dram : ¬ K .dram) (h_clk : ¬ K .clk) (h_mon : ¬ K .mon) (h_rig : ¬ K .rig) (h_mot : ¬ K .mot)
    (h_pwr : ¬ K .pwr) (h_thm : ¬ K .thm) (h_vis : ¬ K .vis) (h_net : ¬ K .net) (h_dma : ¬ K .dma)
    (h_pins : ¬ K .pins) (x0 : Bool) (h : Kept K a s) :
    Kept K a (resetPin x0 s) := by
  unfold resetPin
  with_reducible repeat' first
    | (assumption) | (intro) | (apply kept_releaseReset) | (apply kept_forceOutputs) | (apply kept_setPwr)
    | (apply kept_holdReset) | (apply kept_foldl) | (apply kept_foldl_snd) | (apply kept_foldl_fst)
    | (apply kept_ite) | (dsimp only) | (split)
    | (refine kept_mk ?_ (r_time := (absurd · h_time)) (r_host := (absurd · h_host)) (r_err := (absurd · h_err))
        (r_psq := (absurd · h_psq)) (r_ctx := (absurd · h_ctx)) (r_codec := (absurd · h_codec)) (r_stn :=
        (absurd · h_stn)) (r_staySeq := (absurd · h_staySeq)) (r_dram := (absurd · h_dram)) (r_clk :=
        (absurd · h_clk)) (r_mon := (absurd · h_mon)) (r_rig := (absurd · h_rig)) (r_mot := (absurd · h_mot)) (r_pwr
        := (absurd · h_pwr)) (r_thm := (absurd · h_thm)) (r_vis := (absurd · h_vis)) (r_net := (absurd · h_net))
        (r_dma := (absurd · h_dma)) (r_pins := (absurd · h_pins)))

theorem kept_retryEnd (h_regs : ¬ K .regs) (h_free : ¬ K .free) (h_out : ¬ K .out) (h_host : ¬ K .host)
    (h_err : ¬ K .err) (h_nvm : ¬ K .nvm) (h_staySeq : ¬ K .staySeq) (h_pwr : ¬ K .pwr) (h_net : ¬ K .net)
    (h : Kept K a s) :
    Kept K a (retryEnd s) := by
  unfold retryEnd
  with_reducible repeat' first
    | (assumption) | (intro) | (apply kept_State_pb) | (apply kept_State_p) | (apply kept_State_inc)
    | (apply kept_setPwr) | (apply kept_State_fresh) | (apply kept_railNvm) | (apply kept_corrected)
    | (apply kept_foldl) | (apply kept_foldl_snd) | (apply kept_foldl_fst) | (apply kept_ite) | (dsimp only)
    | (split)

theorem kept_sagRearm (h_regs : ¬ K .regs) (x0 : Nat) (h : Kept K a s) :
    Kept K a (sagRearm x0 s) := by
  unfold sagRearm
  with_reducible repeat' first
    | (assumption) | (intro) | (apply kept_State_pb) | (apply kept_State_p) | (apply kept_foldl)
    | (apply kept_foldl_snd) | (apply kept_foldl_fst) | (apply kept_ite) | (dsimp only) | (split)

theorem kept_tripBehind (h_thm : ¬ K .thm)  (h : Kept K a s) :
    Kept K a (tripBehind s) := by
  unfold tripBehind
  with_reducible repeat' first
    | (assumption) | (intro) | (apply kept_foldl) | (apply kept_foldl_snd) | (apply kept_foldl_fst)
    | (apply kept_ite) | (dsimp only) | (split) | (refine kept_mk ?_ (r_thm := (absurd · h_thm)))

theorem kept_sagTrip (h_regs : ¬ K .regs) (h_free : ¬ K .free) (h_out : ¬ K .out) (h_host : ¬ K .host)
    (h_err : ¬ K .err) (h_psq : ¬ K .psq) (h_ctx : ¬ K .ctx) (h_codec : ¬ K .codec) (h_stn : ¬ K .stn)
    (h_nvm : ¬ K .nvm) (h_staySeq : ¬ K .staySeq) (h_rig : ¬ K .rig) (h_mot : ¬ K .mot) (h_pwr : ¬ K .pwr)
    (h_thm : ¬ K .thm) (h_net : ¬ K .net) (x0 : Nat) (x1 : Nat) (h : Kept K a s) :
    Kept K a (sagTrip x0 x1 s) := by
  unfold sagTrip
  with_reducible repeat' first
    | (assumption) | (intro) | (apply kept_State_pb) | (apply kept_State_p) | (apply kept_saveBegin)
    | (apply kept_tripBehind) | (apply kept_hardStop) | (apply kept_forceOutputs) | (apply kept_State_fresh)
    | (apply kept_abortProgramming) | (apply kept_corrected) | (apply kept_foldl) | (apply kept_foldl_snd)
    | (apply kept_foldl_fst) | (apply kept_ite) | (dsimp only) | (split)

theorem kept_scrubRead (h_regs : ¬ K .regs) (h_out : ¬ K .out) (h_host : ¬ K .host) (h_err : ¬ K .err)
    (h_nvm : ¬ K .nvm) (h_staySeq : ¬ K .staySeq) (h_dram : ¬ K .dram) (h_net : ¬ K .net) (x0 : Nat) (x1 : Nat)
    (h : Kept K a s) :
    Kept K a (scrubRead x0 x1 s) := by
  unfold scrubRead
  with_reducible repeat' first
    | (assumption) | (intro) | (apply kept_burstCheck) | (apply kept_setDdr) | (apply kept_State_p)
    | (apply kept_foldl) | (apply kept_foldl_snd) | (apply kept_foldl_fst) | (apply kept_ite) | (dsimp only)
    | (split)

theorem kept_seqAt (h_regs : ¬ K .regs) (h_pwr : ¬ K .pwr) (x0 : Nat) (h : Kept K a s) :
    Kept K a (seqAt x0 s) := by
  unfold seqAt
  with_reducible repeat' first
    | (assumption) | (intro) | (apply kept_setPwr) | (apply kept_State_p) | (apply kept_foldl)
    | (apply kept_foldl_snd) | (apply kept_foldl_fst) | (apply kept_ite) | (dsimp only) | (split)

theorem kept_seqCheck (h_regs : ¬ K .regs) (h_pwr : ¬ K .pwr) (x0 : Nat) (h : Kept K a s) :
    Kept K a (seqCheck x0 s) := by
  unfold seqCheck
  with_reducible repeat' first
    | (assumption) | (intro) | (apply kept_seqAt) | (apply kept_setPwr) | (apply kept_foldl) | (apply kept_foldl_snd)
    | (apply kept_foldl_fst) | (apply kept_ite) | (dsimp only) | (split)

theorem kept_seqDisable (h_regs : ¬ K .regs) (h_pwr : ¬ K .pwr)  (h : Kept K a s) :
    Kept K a (seqDisable s) := by
  unfold seqDisable
  with_reducible repeat' first
    | (assumption) | (intro) | (apply kept_setEnable) | (apply kept_setLedger) | (apply kept_seqAt)
    | (apply kept_setPwr) | (apply kept_foldl) | (apply kept_foldl_snd) | (apply kept_foldl_fst) | (apply kept_ite)
    | (dsimp only) | (split)

theorem kept_seqEnable (h_regs : ¬ K .regs) (h_pwr : ¬ K .pwr)  (h : Kept K a s) :
    Kept K a (seqEnable s) := by
  unfold seqEnable
  with_reducible repeat' first
    | (assumption) | (intro) | (apply kept_seqAt) | (apply kept_setLedger) | (apply kept_setEnable)
    | (apply kept_foldl) | (apply kept_foldl_snd) | (apply kept_foldl_fst) | (apply kept_ite) | (dsimp only)
    | (split)

theorem kept_seqEnd (h_regs : ¬ K .regs) (h_pwr : ¬ K .pwr)  (h : Kept K a s) :
    Kept K a (seqEnd s) := by
  unfold seqEnd
  with_reducible repeat' first
    | (assumption) | (intro) | (apply kept_railNvm) | (apply kept_State_p) | (apply kept_seqAt) | (apply kept_foldl)
    | (apply kept_foldl_snd) | (apply kept_foldl_fst) | (apply kept_ite) | (dsimp only) | (split)

theorem kept_seqJump (h_regs : ¬ K .regs) (h_pwr : ¬ K .pwr)  (h : Kept K a s) :
    Kept K a (seqJump s) := by
  unfold seqJump
  with_reducible repeat' first
    | (assumption) | (intro) | (apply kept_seqAt) | (apply kept_foldl) | (apply kept_foldl_snd)
    | (apply kept_foldl_fst) | (apply kept_ite) | (dsimp only) | (split)

theorem kept_pwsRead (h_pwr : ¬ K .pwr) (x0 : Nat) (x1 : Bool) (h : Kept K a s) :
    Kept K a (pwsRead x0 x1 s) := by
  unfold pwsRead
  with_reducible repeat' first
    | (assumption) | (intro) | (apply kept_setPwr) | (apply kept_foldl) | (apply kept_foldl_snd)
    | (apply kept_foldl_fst) | (apply kept_ite) | (dsimp only) | (split)

theorem kept_seqJumpif (h_regs : ¬ K .regs) (h_free : ¬ K .free) (h_out : ¬ K .out) (h_host : ¬ K .host)
    (h_err : ¬ K .err) (h_psq : ¬ K .psq) (h_ctx : ¬ K .ctx) (h_codec : ¬ K .codec) (h_stn : ¬ K .stn)
    (h_nvm : ¬ K .nvm) (h_staySeq : ¬ K .staySeq) (h_mot : ¬ K .mot) (h_pwr : ¬ K .pwr) (h_vis : ¬ K .vis)
    (h_net : ¬ K .net) (x0 : Bool) (h : Kept K a s) :
    Kept K a (seqJumpif x0 s) := by
  unfold seqJumpif
  with_reducible repeat' first
    | (assumption) | (intro) | (apply kept_pwsRead) | (apply kept_stepFail) | (apply kept_seqAt) | (apply kept_foldl)
    | (apply kept_foldl_snd) | (apply kept_foldl_fst) | (apply kept_ite) | (dsimp only) | (split)

theorem kept_seqMark (h_regs : ¬ K .regs) (h_out : ¬ K .out) (h_pwr : ¬ K .pwr)  (h : Kept K a s) :
    Kept K a (seqMark s) := by
  unfold seqMark
  with_reducible repeat' first
    | (assumption) | (intro) | (apply kept_State_event) | (apply kept_State_p) | (apply kept_seqAt)
    | (apply kept_foldl) | (apply kept_foldl_snd) | (apply kept_foldl_fst) | (apply kept_ite) | (dsimp only)
    | (split)

theorem kept_seqRetry (h_regs : ¬ K .regs) (h_pwr : ¬ K .pwr)  (h : Kept K a s) :
    Kept K a (seqRetry s) := by
  unfold seqRetry
  with_reducible repeat' first
    | (assumption) | (intro) | (apply kept_seqAt) | (apply kept_setPwr) | (apply kept_foldl) | (apply kept_foldl_snd)
    | (apply kept_foldl_fst) | (apply kept_ite) | (dsimp only) | (split)

theorem kept_seqWait (h_regs : ¬ K .regs) (h_pwr : ¬ K .pwr)  (h : Kept K a s) :
    Kept K a (seqWait s) := by
  unfold seqWait
  with_reducible repeat' first
    | (assumption) | (intro) | (apply kept_seqAt) | (apply kept_setPwr) | (apply kept_foldl) | (apply kept_foldl_snd)
    | (apply kept_foldl_fst) | (apply kept_ite) | (dsimp only) | (split)

theorem kept_seqWaitEnd (h_pwr : ¬ K .pwr)  (h : Kept K a s) :
    Kept K a (seqWaitEnd s) := by
  unfold seqWaitEnd
  with_reducible repeat' first
    | (assumption) | (intro) | (apply kept_setPwr) | (apply kept_foldl) | (apply kept_foldl_snd)
    | (apply kept_foldl_fst) | (apply kept_ite) | (dsimp only) | (split)

theorem kept_seqWaitgood (h_regs : ¬ K .regs) (h_pwr : ¬ K .pwr)  (h : Kept K a s) :
    Kept K a (seqWaitgood s) := by
  unfold seqWaitgood
  with_reducible repeat' first
    | (assumption) | (intro) | (apply kept_seqAt) | (apply kept_setPwr) | (apply kept_foldl) | (apply kept_foldl_snd)
    | (apply kept_foldl_fst) | (apply kept_ite) | (dsimp only) | (split)

theorem kept_slotDone (h_regs : ¬ K .regs) (h_free : ¬ K .free) (h_out : ¬ K .out) (h_host : ¬ K .host)
    (h_err : ¬ K .err) (h_psq : ¬ K .psq) (h_ctx : ¬ K .ctx) (h_codec : ¬ K .codec) (h_stn : ¬ K .stn)
    (h_nvm : ¬ K .nvm) (h_staySeq : ¬ K .staySeq) (h_mot : ¬ K .mot) (h_pwr : ¬ K .pwr) (h_vis : ¬ K .vis)
    (h_net : ¬ K .net)  (h : Kept K a s) :
    Kept K a (slotDone s) := by
  unfold slotDone
  with_reducible repeat' first
    | (assumption) | (intro) | (apply kept_setPwr) | (apply kept_shutStep) | (apply kept_setLedger)
    | (apply kept_beginDown) | (apply kept_foldl) | (apply kept_foldl_snd) | (apply kept_foldl_fst)
    | (apply kept_ite) | (dsimp only) | (split)

theorem kept_writeBackOne (h_out : ¬ K .out) (h_dram : ¬ K .dram) (x0 : Nat) (h : Kept K a s) :
    Kept K a (writeBackOne x0 s) := by
  unfold writeBackOne
  with_reducible repeat' first
    | (assumption) | (intro) | (apply kept_modDdr) | (apply kept_State_emit) | (apply kept_foldl)
    | (apply kept_foldl_snd) | (apply kept_foldl_fst) | (apply kept_ite) | (dsimp only) | (split)
    | (refine kept_mk ?_ (r_dram := (absurd · h_dram)))

theorem kept_writeBackAll (h_out : ¬ K .out) (h_dram : ¬ K .dram) (x0 : Nat) (h : Kept K a s) :
    Kept K a (writeBackAll x0 s) := by
  unfold writeBackAll
  with_reducible repeat' first
    | (assumption) | (intro) | (apply kept_writeBackOne) | (apply kept_foldl) | (apply kept_foldl_snd)
    | (apply kept_foldl_fst) | (apply kept_ite) | (dsimp only) | (split)

theorem kept_srEntered (h_regs : ¬ K .regs) (h_out : ¬ K .out) (h_dram : ¬ K .dram)  (h : Kept K a s) :
    Kept K a (srEntered s) := by
  unfold srEntered
  with_reducible repeat' first
    | (assumption) | (intro) | (apply kept_State_pb) | (apply kept_serveAll) | (apply kept_writeBackAll)
    | (apply kept_State_inc) | (apply kept_State_p) | (apply kept_scrubSync) | (apply kept_foldl)
    | (apply kept_foldl_snd) | (apply kept_foldl_fst) | (apply kept_ite) | (dsimp only) | (split)
    | (refine kept_mk ?_ (r_dram := (absurd · h_dram)))

theorem kept_srExitDone (h_regs : ¬ K .regs) (h_out : ¬ K .out) (h_dram : ¬ K .dram)  (h : Kept K a s) :
    Kept K a (srExitDone s) := by
  unfold srExitDone
  with_reducible repeat' first
    | (assumption) | (intro) | (apply kept_State_pb) | (apply kept_refreshAll) | (apply kept_State_p)
    | (apply kept_scrubSync) | (apply kept_foldl) | (apply kept_foldl_snd) | (apply kept_foldl_fst)
    | (apply kept_ite) | (dsimp only) | (split) | (refine kept_mk ?_ (r_dram := (absurd · h_dram)))

theorem kept_serveHeld (h_regs : ¬ K .regs) (h_latch : ¬ K .latch) (h_mem : ¬ K .mem) (h_time : ¬ K .time)
    (h_free : ¬ K .free) (h_out : ¬ K .out) (h_host : ¬ K .host) (h_err : ¬ K .err) (h_psq : ¬ K .psq)
    (h_ctx : ¬ K .ctx) (h_codec : ¬ K .codec) (h_stn : ¬ K .stn) (h_epoch : ¬ K .epoch) (h_nvm : ¬ K .nvm)
    (h_staySeq : ¬ K .staySeq) (h_dram : ¬ K .dram) (h_clk : ¬ K .clk) (h_mon : ¬ K .mon) (h_rig : ¬ K .rig)
    (h_mot : ¬ K .mot) (h_pwr : ¬ K .pwr) (h_thm : ¬ K .thm) (h_vis : ¬ K .vis) (h_net : ¬ K .net) (h_dma : ¬ K .dma)
     (h : Kept K a s) :
    Kept K a (serveHeld s) := by
  unfold serveHeld
  with_reducible repeat' first
    | (assumption) | (intro) | (apply kept_fullWrite) | (apply kept_regRead) | (apply kept_foldl)
    | (apply kept_foldl_snd) | (apply kept_foldl_fst) | (apply kept_ite) | (dsimp only) | (split)
    | (refine kept_mk ?_ (r_time := (absurd · h_time)) (r_host := (absurd · h_host)) (r_err := (absurd · h_err))
        (r_psq := (absurd · h_psq)) (r_ctx := (absurd · h_ctx)) (r_codec := (absurd · h_codec)) (r_stn :=
        (absurd · h_stn)) (r_nvm := (absurd · h_nvm)) (r_staySeq := (absurd · h_staySeq)) (r_dram :=
        (absurd · h_dram)) (r_clk := (absurd · h_clk)) (r_mon := (absurd · h_mon)) (r_rig := (absurd · h_rig)) (r_mot
        := (absurd · h_mot)) (r_pwr := (absurd · h_pwr)) (r_thm := (absurd · h_thm)) (r_vis := (absurd · h_vis))
        (r_net := (absurd · h_net)) (r_dma := (absurd · h_dma)))

theorem kept_srExit (h_regs : ¬ K .regs) (h_latch : ¬ K .latch) (h_mem : ¬ K .mem) (h_time : ¬ K .time)
    (h_free : ¬ K .free) (h_out : ¬ K .out) (h_host : ¬ K .host) (h_err : ¬ K .err) (h_psq : ¬ K .psq)
    (h_ctx : ¬ K .ctx) (h_codec : ¬ K .codec) (h_stn : ¬ K .stn) (h_epoch : ¬ K .epoch) (h_nvm : ¬ K .nvm)
    (h_staySeq : ¬ K .staySeq) (h_dram : ¬ K .dram) (h_clk : ¬ K .clk) (h_mon : ¬ K .mon) (h_rig : ¬ K .rig)
    (h_mot : ¬ K .mot) (h_pwr : ¬ K .pwr) (h_thm : ¬ K .thm) (h_vis : ¬ K .vis) (h_net : ¬ K .net) (h_dma : ¬ K .dma)
     (h : Kept K a s) :
    Kept K a (srExit s) := by
  unfold srExit
  with_reducible repeat' first
    | (assumption) | (intro) | (apply kept_srExitDone) | (apply kept_serveHeld) | (apply kept_foldl)
    | (apply kept_foldl_snd) | (apply kept_foldl_fst) | (apply kept_ite) | (dsimp only) | (split)

theorem kept_stagedApply (h_regs : ¬ K .regs) (h_mot : ¬ K .mot)  (h : Kept K a s) :
    Kept K a (stagedApply s) := by
  unfold stagedApply
  with_reducible repeat' first
    | (assumption) | (intro) | (apply kept_State_p) | (apply kept_State_pb) | (apply kept_setCe) | (apply kept_foldl)
    | (apply kept_foldl_snd) | (apply kept_foldl_fst) | (apply kept_ite) | (dsimp only) | (split)

theorem kept_stationBandDone (h_regs : ¬ K .regs) (h_free : ¬ K .free) (h_out : ¬ K .out) (h_host : ¬ K .host)
    (h_err : ¬ K .err) (h_psq : ¬ K .psq) (h_ctx : ¬ K .ctx) (h_codec : ¬ K .codec) (h_stn : ¬ K .stn)
    (h_nvm : ¬ K .nvm) (h_staySeq : ¬ K .staySeq) (h_dram : ¬ K .dram) (h_mot : ¬ K .mot) (h_vis : ¬ K .vis)
    (h_net : ¬ K .net) (x0 : Nat) (x1 : Nat) (h : Kept K a s) :
    Kept K a (stationBandDone x0 x1 s) := by
  unfold stationBandDone
  with_reducible repeat' first
    | (assumption) | (intro) | (apply kept_decodeIn) | (apply kept_raise) | (apply kept_decFree)
    | (apply kept_State_modStn) | (apply kept_levelSync) | (apply kept_State_p) | (apply kept_spoil)
    | (apply kept_foldl) | (apply kept_foldl_snd) | (apply kept_foldl_fst) | (apply kept_ite) | (dsimp only)
    | (split)

theorem kept_linkAcks (h_regs : ¬ K .regs) (h_out : ¬ K .out) (h_stn : ¬ K .stn) (x0 : Nat) (x1 : Nat)
    (h : Kept K a s) :
    Kept K a (linkAcks x0 x1 s) := by
  unfold linkAcks
  with_reducible repeat' first
    | (assumption) | (intro) | (apply kept_modLink) | (apply kept_State_pb) | (apply kept_State_p)
    | (apply kept_linkLoad) | (apply kept_linkOkSync) | (apply kept_foldl) | (apply kept_foldl_snd)
    | (apply kept_foldl_fst) | (apply kept_ite) | (dsimp only) | (split)

theorem kept_recentPush (h_stn : ¬ K .stn) (x0 : Nat) (x1 : Nat) (x2 : Bool) (h : Kept K a s) :
    Kept K a (recentPush x0 x1 x2 s) := by
  unfold recentPush
  with_reducible repeat' first
    | (assumption) | (intro) | (apply kept_modLink) | (apply kept_foldl) | (apply kept_foldl_snd)
    | (apply kept_foldl_fst) | (apply kept_ite) | (dsimp only) | (split)

theorem kept_recentDamage (h_stn : ¬ K .stn) (x0 : Nat) (x1 : Nat) (h : Kept K a s) :
    Kept K a (recentDamage x0 x1 s) := by
  unfold recentDamage
  with_reducible repeat' first
    | (assumption) | (intro) | (apply kept_modLink) | (apply kept_foldl) | (apply kept_foldl_snd)
    | (apply kept_foldl_fst) | (apply kept_ite) | (dsimp only) | (split)

theorem kept_sweepReport (h_regs : ¬ K .regs) (h_free : ¬ K .free) (h_out : ¬ K .out) (h_host : ¬ K .host)
    (h_err : ¬ K .err) (h_psq : ¬ K .psq) (h_ctx : ¬ K .ctx) (h_codec : ¬ K .codec) (h_stn : ¬ K .stn)
    (h_nvm : ¬ K .nvm) (h_staySeq : ¬ K .staySeq) (h_mot : ¬ K .mot) (h_vis : ¬ K .vis) (h_net : ¬ K .net) (x0 : Nat)
    (x1 : Sys2Proof.LinkStatus) (h : Kept K a s) :
    Kept K a (sweepReport x0 x1 s) := by
  unfold sweepReport
  with_reducible repeat' first
    | (assumption) | (intro) | (apply kept_modLink) | (apply kept_recentPush) | (apply kept_damagedSweep)
    | (apply kept_recentDamage) | (apply kept_foldl) | (apply kept_foldl_snd) | (apply kept_foldl_fst)
    | (apply kept_ite) | (dsimp only) | (split)

theorem kept_headCrit (h_regs : ¬ K .regs) (h_free : ¬ K .free) (h_out : ¬ K .out) (h_host : ¬ K .host)
    (h_err : ¬ K .err) (h_psq : ¬ K .psq) (h_ctx : ¬ K .ctx) (h_codec : ¬ K .codec) (h_stn : ¬ K .stn)
    (h_nvm : ¬ K .nvm) (h_staySeq : ¬ K .staySeq) (h_mot : ¬ K .mot) (h_vis : ¬ K .vis) (h_net : ¬ K .net) (x0 : Nat)
    (h : Kept K a s) :
    Kept K a (headCrit x0 s) := by
  unfold headCrit
  with_reducible repeat' first
    | (assumption) | (intro) | (apply kept_stnFault) | (apply kept_spoilAt) | (apply kept_State_pb)
    | (apply kept_foldl) | (apply kept_foldl_snd) | (apply kept_foldl_fst) | (apply kept_ite) | (dsimp only)
    | (split)

theorem kept_headReport (h_regs : ¬ K .regs) (h_free : ¬ K .free) (h_out : ¬ K .out) (h_host : ¬ K .host)
    (h_err : ¬ K .err) (h_psq : ¬ K .psq) (h_ctx : ¬ K .ctx) (h_codec : ¬ K .codec) (h_stn : ¬ K .stn)
    (h_nvm : ¬ K .nvm) (h_staySeq : ¬ K .staySeq) (h_mot : ¬ K .mot) (h_vis : ¬ K .vis) (h_net : ¬ K .net) (x0 : Nat)
    (x1 : Int) (h : Kept K a s) :
    Kept K a (headReport x0 x1 s) := by
  unfold headReport
  with_reducible repeat' first
    | (assumption) | (intro) | (apply kept_State_pz) | (apply kept_State_modStn) | (apply kept_State_pb)
    | (apply kept_headCrit) | (apply kept_foldl) | (apply kept_foldl_snd) | (apply kept_foldl_fst) | (apply kept_ite)
    | (dsimp only) | (split)

theorem kept_statusRx (h_regs : ¬ K .regs) (h_free : ¬ K .free) (h_out : ¬ K .out) (h_host : ¬ K .host)
    (h_err : ¬ K .err) (h_psq : ¬ K .psq) (h_ctx : ¬ K .ctx) (h_codec : ¬ K .codec) (h_stn : ¬ K .stn)
    (h_nvm : ¬ K .nvm) (h_staySeq : ¬ K .staySeq) (h_mot : ¬ K .mot) (h_vis : ¬ K .vis) (h_net : ¬ K .net) (x0 : Nat)
    (x1 : Sys2Proof.LinkStatus) (h : Kept K a s) :
    Kept K a (statusRx x0 x1 s) := by
  unfold statusRx
  with_reducible repeat' first
    | (assumption) | (intro) | (apply kept_linkAcks) | (apply kept_State_p) | (apply kept_State_pb)
    | (apply kept_sweepReport) | (apply kept_headReport) | (apply kept_linkLoss) | (apply kept_foldl)
    | (apply kept_foldl_snd) | (apply kept_foldl_fst) | (apply kept_ite) | (dsimp only) | (split)

theorem kept_stayFinal (h_pwr : ¬ K .pwr) (x0 : Bool) (h : Kept K a s) :
    Kept K a (stayFinal x0 s) := by
  unfold stayFinal
  with_reducible repeat' first
    | (assumption) | (intro) | (apply kept_setPwr) | (apply kept_foldl) | (apply kept_foldl_snd)
    | (apply kept_foldl_fst) | (apply kept_ite) | (dsimp only) | (split)

theorem kept_stayAlone (h_regs : ¬ K .regs) (h_pwr : ¬ K .pwr)  (h : Kept K a s) :
    Kept K a (stayAlone s) := by
  unfold stayAlone
  with_reducible repeat' first
    | (assumption) | (intro) | (apply kept_setLedger) | (apply kept_overN) | (apply kept_setEnable)
    | (apply kept_State_pb) | (apply kept_State_p) | (apply kept_setPwr) | (apply kept_foldl)
    | (apply kept_foldl_snd) | (apply kept_foldl_fst) | (apply kept_ite) | (dsimp only) | (split)

theorem kept_saveEnd (h_regs : ¬ K .regs) (h_latch : ¬ K .latch) (h_mem : ¬ K .mem) (h_time : ¬ K .time)
    (h_free : ¬ K .free) (h_host : ¬ K .host) (h_err : ¬ K .err) (h_psq : ¬ K .psq) (h_ctx : ¬ K .ctx)
    (h_codec : ¬ K .codec) (h_stn : ¬ K .stn) (h_epoch : ¬ K .epoch) (h_staySeq : ¬ K .staySeq) (h_dram : ¬ K .dram)
    (h_clk : ¬ K .clk) (h_mon : ¬ K .mon) (h_rig : ¬ K .rig) (h_mot : ¬ K .mot) (h_pwr : ¬ K .pwr) (h_thm : ¬ K .thm)
    (h_vis : ¬ K .vis) (h_net : ¬ K .net) (h_dma : ¬ K .dma) (h_pins : ¬ K .pins)  (h : Kept K a s) :
    Kept K a (saveEnd s) := by
  unfold saveEnd
  with_reducible repeat' first
    | (assumption) | (intro) | (apply kept_stayAlone) | (apply kept_holdIslands) | (apply kept_setPwr)
    | (apply kept_releaseReset) | (apply kept_foldl) | (apply kept_foldl_snd) | (apply kept_foldl_fst)
    | (apply kept_ite) | (dsimp only) | (split)

theorem kept_staySlots (h_regs : ¬ K .regs) (h_pwr : ¬ K .pwr) (x0 : Option (List Sys2Proof.Byte)) (x1 : Option (List
    Sys2Proof.Byte)) (x2 : Nat) (x3 : Bool) (x4 : Bool) (h : Kept K a s) :
    Kept K a (staySlots x0 x1 x2 x3 x4 s) := by
  unfold staySlots
  with_reducible repeat' first
    | (assumption) | (intro) | (apply kept_setPwr) | (apply kept_State_pb) | (apply kept_State_p)
    | (apply kept_foldl) | (apply kept_foldl_snd) | (apply kept_foldl_fst) | (apply kept_ite) | (dsimp only)
    | (split)

theorem kept_tripFollow (h_thm : ¬ K .thm) (x0 : Bool) (h : Kept K a s) :
    Kept K a (tripFollow x0 s) := by
  unfold tripFollow
  with_reducible repeat' first
    | (assumption) | (intro) | (apply kept_tripWrite) | (apply kept_foldl) | (apply kept_foldl_snd)
    | (apply kept_foldl_fst) | (apply kept_ite) | (dsimp only) | (split)
    | (refine kept_mk ?_ (r_thm := (absurd · h_thm)))

theorem kept_staySaveAbort (h_regs : ¬ K .regs) (h_pwr : ¬ K .pwr) (h_thm : ¬ K .thm)  (h : Kept K a s) :
    Kept K a (staySaveAbort s) := by
  unfold staySaveAbort
  with_reducible repeat' first
    | (assumption) | (intro) | (apply kept_staySlots) | (apply kept_tripFollow) | (apply kept_setPwr)
    | (apply kept_State_pb) | (apply kept_foldl) | (apply kept_foldl_snd) | (apply kept_foldl_fst) | (apply kept_ite)
    | (dsimp only) | (split)

theorem kept_staySaveDone (h_regs : ¬ K .regs) (h_free : ¬ K .free) (h_out : ¬ K .out) (h_host : ¬ K .host)
    (h_err : ¬ K .err) (h_psq : ¬ K .psq) (h_ctx : ¬ K .ctx) (h_codec : ¬ K .codec) (h_stn : ¬ K .stn)
    (h_nvm : ¬ K .nvm) (h_staySeq : ¬ K .staySeq) (h_mot : ¬ K .mot) (h_pwr : ¬ K .pwr) (h_thm : ¬ K .thm)
    (h_vis : ¬ K .vis) (h_net : ¬ K .net)  (h : Kept K a s) :
    Kept K a (staySaveDone s) := by
  unfold staySaveDone
  with_reducible repeat' first
    | (assumption) | (intro) | (apply kept_staySlots) | (apply kept_setPwr) | (apply kept_State_inc)
    | (apply kept_tripFollow) | (apply kept_offRequest) | (apply kept_foldl) | (apply kept_foldl_snd)
    | (apply kept_foldl_fst) | (apply kept_ite) | (dsimp only) | (split)

theorem kept_shadowRefresh (h_pwr : ¬ K .pwr)  (h : Kept K a s) :
    Kept K a (shadowRefresh s) := by
  unfold shadowRefresh
  with_reducible repeat' first
    | (assumption) | (intro) | (apply kept_setPwr) | (apply kept_foldl) | (apply kept_foldl_snd)
    | (apply kept_foldl_fst) | (apply kept_ite) | (dsimp only) | (split)

theorem kept_supplyFail (h_regs : ¬ K .regs) (h_latch : ¬ K .latch) (h_mem : ¬ K .mem) (h_time : ¬ K .time)
    (h_free : ¬ K .free) (h_out : ¬ K .out) (h_host : ¬ K .host) (h_err : ¬ K .err) (h_psq : ¬ K .psq)
    (h_ctx : ¬ K .ctx) (h_codec : ¬ K .codec) (h_stn : ¬ K .stn) (h_epoch : ¬ K .epoch) (h_staySeq : ¬ K .staySeq)
    (h_dram : ¬ K .dram) (h_clk : ¬ K .clk) (h_mon : ¬ K .mon) (h_rig : ¬ K .rig) (h_mot : ¬ K .mot)
    (h_pwr : ¬ K .pwr) (h_thm : ¬ K .thm) (h_vis : ¬ K .vis) (h_net : ¬ K .net) (h_dma : ¬ K .dma)
    (h_pins : ¬ K .pins)  (h : Kept K a s) :
    Kept K a (supplyFail s) := by
  unfold supplyFail
  with_reducible repeat' first
    | (assumption) | (intro) | (apply kept_setPwr) | (apply kept_forceOutputs) | (apply kept_stayAlone)
    | (apply kept_holdReset) | (apply kept_foldl) | (apply kept_foldl_snd) | (apply kept_foldl_fst)
    | (apply kept_ite) | (dsimp only) | (split)

theorem kept_supplyRecover (h_regs : ¬ K .regs) (h_pwr : ¬ K .pwr) (h_pins : ¬ K .pins)  (h : Kept K a s) :
    Kept K a (supplyRecover s) := by
  unfold supplyRecover
  with_reducible repeat' first
    | (assumption) | (intro) | (apply kept_setPwr) | (apply kept_releaseReset) | (apply kept_foldl)
    | (apply kept_foldl_snd) | (apply kept_foldl_fst) | (apply kept_ite) | (dsimp only) | (split)

theorem kept_sweepUnreported (h_regs : ¬ K .regs) (h_free : ¬ K .free) (h_out : ¬ K .out) (h_host : ¬ K .host)
    (h_err : ¬ K .err) (h_psq : ¬ K .psq) (h_ctx : ¬ K .ctx) (h_codec : ¬ K .codec) (h_stn : ¬ K .stn)
    (h_nvm : ¬ K .nvm) (h_staySeq : ¬ K .staySeq) (h_mot : ¬ K .mot) (h_vis : ¬ K .vis) (h_net : ¬ K .net) (x0 : Nat)
    (h : Kept K a s) :
    Kept K a (sweepUnreported x0 s) := by
  unfold sweepUnreported
  with_reducible repeat' first
    | (assumption) | (intro) | (apply kept_modLink) | (apply kept_State_pb) | (apply kept_recentPush)
    | (apply kept_headCrit) | (apply kept_foldl) | (apply kept_foldl_snd) | (apply kept_foldl_fst) | (apply kept_ite)
    | (dsimp only) | (split)

theorem kept_sysPllLock (h_regs : ¬ K .regs) (h_out : ¬ K .out) (h_rig : ¬ K .rig) (x0 : Bool) (h : Kept K a s) :
    Kept K a (sysPllLock x0 s) := by
  unfold sysPllLock
  with_reducible repeat' first
    | (assumption) | (intro) | (apply kept_State_pb) | (apply kept_State_p) | (apply kept_startLoad)
    | (apply kept_foldl) | (apply kept_foldl_snd) | (apply kept_foldl_fst) | (apply kept_ite) | (dsimp only)
    | (split) | (refine kept_mk ?_ (r_rig := (absurd · h_rig)))

theorem kept_sensorBreak (h_regs : ¬ K .regs) (h_out : ¬ K .out) (h_host : ¬ K .host) (h_err : ¬ K .err)
    (h_nvm : ¬ K .nvm) (h_staySeq : ¬ K .staySeq) (h_net : ¬ K .net) (x0 : Nat) (h : Kept K a s) :
    Kept K a (sensorBreak x0 s) := by
  unfold sensorBreak
  with_reducible repeat' first
    | (assumption) | (intro) | (apply kept_State_p) | (apply kept_State_pb) | (apply kept_corrected)
    | (apply kept_foldl) | (apply kept_foldl_snd) | (apply kept_foldl_fst) | (apply kept_ite) | (dsimp only)
    | (split)

theorem kept_reefShow (h_regs : ¬ K .regs) (h_thm : ¬ K .thm) (x0 : Nat) (h : Kept K a s) :
    Kept K a (reefShow x0 s) := by
  unfold reefShow
  with_reducible repeat' first
    | (assumption) | (intro) | (apply kept_State_p) | (apply kept_foldl) | (apply kept_foldl_snd)
    | (apply kept_foldl_fst) | (apply kept_ite) | (dsimp only) | (split)
    | (refine kept_mk ?_ (r_thm := (absurd · h_thm)))

theorem kept_visPause (h_regs : ¬ K .regs) (h_free : ¬ K .free) (h_vis : ¬ K .vis)  (h : Kept K a s) :
    Kept K a (visPause s) := by
  unfold visPause
  with_reducible repeat' first
    | (assumption) | (intro) | (apply kept_State_pb) | (apply kept_State_fresh) | (apply kept_foldl)
    | (apply kept_foldl_snd) | (apply kept_foldl_fst) | (apply kept_ite) | (dsimp only) | (split)
    | (refine kept_mk ?_ (r_vis := (absurd · h_vis)))

theorem kept_noteMove (h_ctx : ¬ K .ctx) (x0 : Nat) (h : Kept K a s) :
    Kept K a (noteMove x0 s) := by
  unfold noteMove
  with_reducible repeat' first
    | (assumption) | (intro) | (apply kept_State_modCtx) | (apply kept_foldl) | (apply kept_foldl_snd)
    | (apply kept_foldl_fst) | (apply kept_ite) | (dsimp only) | (split)

theorem kept_reef3 (h_regs : ¬ K .regs) (h_free : ¬ K .free) (h_out : ¬ K .out) (h_host : ¬ K .host)
    (h_psq : ¬ K .psq) (h_ctx : ¬ K .ctx) (h_codec : ¬ K .codec) (h_stn : ¬ K .stn) (h_mot : ¬ K .mot)
    (h : Kept K a s) :
    Kept K a (reef3 s) := by
  unfold reef3
  with_reducible repeat' first
    | (assumption) | (intro) | (apply kept_noteMove) | (apply kept_State_pb) | (apply kept_startDrain)
    | (apply kept_furlWarmup) | (apply kept_foldl) | (apply kept_foldl_snd) | (apply kept_foldl_fst)
    | (apply kept_ite) | (dsimp only) | (split)
    | (refine kept_mk ?_ (r_host := (absurd · h_host)) (r_psq := (absurd · h_psq)) (r_ctx := (absurd · h_ctx))
        (r_codec := (absurd · h_codec)) (r_stn := (absurd · h_stn)) (r_mot := (absurd · h_mot)))

theorem kept_reefEnter (h_regs : ¬ K .regs) (h_free : ¬ K .free) (h_out : ¬ K .out) (h_host : ¬ K .host)
    (h_err : ¬ K .err) (h_psq : ¬ K .psq) (h_ctx : ¬ K .ctx) (h_codec : ¬ K .codec) (h_stn : ¬ K .stn)
    (h_nvm : ¬ K .nvm) (h_staySeq : ¬ K .staySeq) (h_mot : ¬ K .mot) (h_thm : ¬ K .thm) (h_vis : ¬ K .vis)
    (h_net : ¬ K .net) (x0 : Nat) (h : Kept K a s) :
    Kept K a (reefEnter x0 s) := by
  unfold reefEnter
  with_reducible repeat' first
    | (assumption) | (intro) | (apply kept_reefShow) | (apply kept_visPause) | (apply kept_noteChange)
    | (apply kept_corrected) | (apply kept_reef3) | (apply kept_State_pb) | (apply kept_foldl)
    | (apply kept_foldl_snd) | (apply kept_foldl_fst) | (apply kept_ite) | (dsimp only) | (split)

theorem kept_reefCheck (h_regs : ¬ K .regs) (h_free : ¬ K .free) (h_out : ¬ K .out) (h_host : ¬ K .host)
    (h_err : ¬ K .err) (h_psq : ¬ K .psq) (h_ctx : ¬ K .ctx) (h_codec : ¬ K .codec) (h_stn : ¬ K .stn)
    (h_nvm : ¬ K .nvm) (h_staySeq : ¬ K .staySeq) (h_mot : ¬ K .mot) (h_thm : ¬ K .thm) (h_vis : ¬ K .vis)
    (h_net : ¬ K .net)  (h : Kept K a s) :
    Kept K a (reefCheck s) := by
  unfold reefCheck
  with_reducible repeat' first
    | (assumption) | (intro) | (apply kept_reefEnter) | (apply kept_foldl) | (apply kept_foldl_snd)
    | (apply kept_foldl_fst) | (apply kept_ite) | (dsimp only) | (split)

theorem kept_thermSync (h_regs : ¬ K .regs) (h_thm : ¬ K .thm)  (h : Kept K a s) :
    Kept K a (thermSync s) := by
  unfold thermSync
  with_reducible repeat' first
    | (assumption) | (intro) | (apply kept_State_p) | (apply kept_State_pz) | (apply kept_overN) | (apply kept_foldl)
    | (apply kept_foldl_snd) | (apply kept_foldl_fst) | (apply kept_ite) | (dsimp only) | (split)
    | (refine kept_mk ?_ (r_thm := (absurd · h_thm)))

theorem kept_thermConvert (h_regs : ¬ K .regs) (h_free : ¬ K .free) (h_out : ¬ K .out) (h_host : ¬ K .host)
    (h_err : ¬ K .err) (h_psq : ¬ K .psq) (h_ctx : ¬ K .ctx) (h_codec : ¬ K .codec) (h_stn : ¬ K .stn)
    (h_nvm : ¬ K .nvm) (h_staySeq : ¬ K .staySeq) (h_mot : ¬ K .mot) (h_thm : ¬ K .thm) (h_vis : ¬ K .vis)
    (h_net : ¬ K .net) (x0 : Nat) (x1 : Int) (x2 : Bool) (h : Kept K a s) :
    Kept K a (thermConvert x0 x1 x2 s) := by
  unfold thermConvert
  with_reducible repeat' first
    | (assumption) | (intro) | (apply kept_sensorBreak) | (apply kept_State_pz) | (apply kept_live)
    | (apply kept_feedSync) | (apply kept_reefCheck) | (apply kept_thermSync) | (apply kept_foldl)
    | (apply kept_foldl_snd) | (apply kept_foldl_fst) | (apply kept_ite) | (dsimp only) | (split)

theorem kept_timeEventDue (h_regs : ¬ K .regs) (h_out : ¬ K .out) (h_host : ¬ K .host) (x0 : Nat) (x1 : Nat)
    (h : Kept K a s) :
    Kept K a (timeEventDue x0 x1 s) := by
  unfold timeEventDue
  with_reducible repeat' first
    | (assumption) | (intro) | (apply kept_complete) | (apply kept_foldl) | (apply kept_foldl_snd)
    | (apply kept_foldl_fst) | (apply kept_ite) | (dsimp only) | (split)
    | (refine kept_mk ?_ (r_host := (absurd · h_host)))

theorem kept_lpCommit (h_regs : ¬ K .regs) (h_mot : ¬ K .mot) (x0 : Nat) (h : Kept K a s) :
    Kept K a (lpCommit x0 s) := by
  unfold lpCommit
  with_reducible repeat' first
    | (assumption) | (intro) | (apply kept_setCe) | (apply kept_State_pz) | (apply kept_foldl)
    | (apply kept_foldl_snd) | (apply kept_foldl_fst) | (apply kept_ite) | (dsimp only) | (split)

theorem kept_tuSample (h_regs : ¬ K .regs) (h_mot : ¬ K .mot) (x0 : Nat) (h : Kept K a s) :
    Kept K a (tuSample x0 s) := by
  unfold tuSample
  with_reducible repeat' first
    | (assumption) | (intro) | (apply kept_State_setReg) | (apply kept_State_p) | (apply kept_modTu)
    | (apply kept_State_pb) | (apply kept_foldl) | (apply kept_foldl_snd) | (apply kept_foldl_fst) | (apply kept_ite)
    | (dsimp only) | (split)

theorem kept_tuTick (h_regs : ¬ K .regs) (h_mot : ¬ K .mot) (x0 : List Nat) (x1 : Nat) (h : Kept K a s) :
    Kept K a (tuTick x0 x1 s) := by
  unfold tuTick
  with_reducible repeat' first
    | (assumption) | (intro) | (apply kept_modTu) | (apply kept_tuSample) | (apply kept_foldl)
    | (apply kept_foldl_snd) | (apply kept_foldl_fst) | (apply kept_ite) | (dsimp only) | (split)

theorem kept_lpExec (h_regs : ¬ K .regs) (h_mot : ¬ K .mot) (x0 : Nat) (h : Kept K a s) :
    Kept K a (lpExec x0 s) := by
  unfold lpExec
  with_reducible repeat' first
    | (assumption) | (intro) | (apply kept_ceRun) | (apply kept_setCe) | (apply kept_foldl) | (apply kept_foldl_snd)
    | (apply kept_foldl_fst) | (apply kept_ite) | (dsimp only) | (split)

theorem kept_tbTick (h_regs : ¬ K .regs) (h_mot : ¬ K .mot) (x0 : Nat) (x1 : List (BitVec 11 × BitVec 20)) (x2 : Nat)
    (x3 : Nat) (x4 : List Nat) (h : Kept K a s) :
    Kept K a (tbTick x0 x1 x2 x3 x4 s) := by
  unfold tbTick
  with_reducible repeat' first
    | (assumption) | (intro) | (apply kept_setCe) | (apply kept_overN) | (apply kept_lpCommit)
    | (apply kept_beltStep) | (apply kept_tuTick) | (apply kept_lpExec) | (apply kept_foldl) | (apply kept_foldl_snd)
    | (apply kept_foldl_fst) | (apply kept_ite) | (dsimp only) | (split)

theorem kept_tpoEdge (h_regs : ¬ K .regs) (h_out : ¬ K .out) (h_net : ¬ K .net) (h_dma : ¬ K .dma) (x0 : Nat)
    (h : Kept K a s) :
    Kept K a (tpoEdge x0 s) := by
  unfold tpoEdge
  with_reducible repeat' first
    | (assumption) | (intro) | (apply kept_modTpo) | (apply kept_State_pb) | (apply kept_dmaSource)
    | (apply kept_State_event) | (apply kept_tpoSet) | (apply kept_foldl) | (apply kept_foldl_snd)
    | (apply kept_foldl_fst) | (apply kept_ite) | (dsimp only) | (split)

theorem kept_tpoFall (h_regs : ¬ K .regs) (h_out : ¬ K .out) (h_net : ¬ K .net) (x0 : Nat) (h : Kept K a s) :
    Kept K a (tpoFall x0 s) := by
  unfold tpoFall
  with_reducible repeat' first
    | (assumption) | (intro) | (apply kept_tpoEnd) | (apply kept_tpoSet) | (apply kept_modTpo) | (apply kept_foldl)
    | (apply kept_foldl_snd) | (apply kept_foldl_fst) | (apply kept_ite) | (dsimp only) | (split)

theorem kept_tuFill (h_regs : ¬ K .regs) (x0 : Nat) (x1 : List Int) (x2 : Nat) (h : Kept K a s) :
    Kept K a (tuFill x0 x1 x2 s) := by
  induction x1 generalizing s x2 with
  | nil => exact h
  | cons x r ih =>
    unfold tuFill
    with_reducible repeat' first
      | (assumption) | (intro) | (apply ih) | (apply kept_State_setReg) | (apply kept_foldl) | (apply kept_foldl_snd)
      | (apply kept_foldl_fst) | (apply kept_ite) | (dsimp only) | (split)

theorem kept_traceDone (h_regs : ¬ K .regs) (x0 : Nat) (h : Kept K a s) :
    Kept K a (traceDone x0 s) := by
  unfold traceDone
  with_reducible repeat' first
    | (assumption) | (intro) | (apply kept_ceSync) | (apply kept_tuFill) | (apply kept_State_p) | (apply kept_foldl)
    | (apply kept_foldl_snd) | (apply kept_foldl_fst) | (apply kept_ite) | (dsimp only) | (split)

theorem kept_trainTimeout (h_regs : ¬ K .regs) (h_stn : ¬ K .stn) (x0 : Nat) (h : Kept K a s) :
    Kept K a (trainTimeout x0 s) := by
  unfold trainTimeout
  with_reducible repeat' first
    | (assumption) | (intro) | (apply kept_linkFail) | (apply kept_foldl) | (apply kept_foldl_snd)
    | (apply kept_foldl_fst) | (apply kept_ite) | (dsimp only) | (split)

theorem kept_trigCamera (h_regs : ¬ K .regs) (h_out : ¬ K .out) (h_ctx : ¬ K .ctx) (h_vis : ¬ K .vis) (x0 : Nat) (x1
    : Nat) (h : Kept K a s) :
    Kept K a (trigCamera x0 x1 s) := by
  unfold trigCamera
  with_reducible repeat' first
    | (assumption) | (intro) | (apply kept_State_event) | (apply kept_State_modCtx) | (apply kept_associate)
    | (apply kept_foldl) | (apply kept_foldl_snd) | (apply kept_foldl_fst) | (apply kept_ite) | (dsimp only)
    | (split)

theorem kept_inTurn  (x0 : Nat) (x1 : State → State) (hf_x1 : ∀  t, Kept K a t → Kept K a (x1  t)) (h : Kept K a s) :
    Kept K a (inTurn x0 x1 s) := by
  unfold inTurn
  with_reducible repeat' first
    | (assumption) | (intro) | (apply hf_x1) | (apply kept_foldl) | (apply kept_foldl_snd) | (apply kept_foldl_fst)
    | (apply kept_ite) | (dsimp only) | (split)

theorem kept_trigDelivery (h_regs : ¬ K .regs) (h_out : ¬ K .out) (h_psq : ¬ K .psq) (h_ctx : ¬ K .ctx) (x0 : Nat)
    (h : Kept K a s) :
    Kept K a (trigDelivery x0 s) := by
  unfold trigDelivery
  with_reducible repeat' first
    | (assumption) | (intro) | (apply kept_State_p) | (apply kept_noteMove) | (apply kept_State_modCtx)
    | (apply kept_psqSync) | (apply kept_State_event) | (apply kept_foldl) | (apply kept_foldl_snd)
    | (apply kept_foldl_fst) | (apply kept_ite) | (dsimp only) | (split)
    | (refine kept_mk ?_ (r_psq := (absurd · h_psq)) (r_ctx := (absurd · h_ctx)))

theorem kept_fetchSheet (h_regs : ¬ K .regs) (h_ctx : ¬ K .ctx) (h_stn : ¬ K .stn) (x0 : Nat) (x1 : Nat)
    (h : Kept K a s) :
    Kept K a (fetchSheet x0 x1 s) := by
  unfold fetchSheet
  with_reducible repeat' first
    | (assumption) | (intro) | (apply kept_State_modCtx) | (apply kept_levelSync) | (apply kept_fetchSync)
    | (apply kept_State_modStn) | (apply kept_foldl) | (apply kept_foldl_snd) | (apply kept_foldl_fst)
    | (apply kept_ite) | (dsimp only) | (split)

theorem kept_occupy (h_regs : ¬ K .regs) (h_ctx : ¬ K .ctx) (h_stn : ¬ K .stn) (x0 : Nat) (x1 : Nat) (h : Kept K a s)
    :
    Kept K a (occupy x0 x1 s) := by
  unfold occupy
  with_reducible repeat' first
    | (assumption) | (intro) | (apply kept_State_p) | (apply kept_State_pb) | (apply kept_State_modStn)
    | (apply kept_levelSync) | (apply kept_winSync) | (apply kept_fetchSheet) | (apply kept_foldl)
    | (apply kept_foldl_snd) | (apply kept_foldl_fst) | (apply kept_ite) | (dsimp only) | (split)

theorem kept_trigStation (h_regs : ¬ K .regs) (h_free : ¬ K .free) (h_out : ¬ K .out) (h_host : ¬ K .host)
    (h_err : ¬ K .err) (h_psq : ¬ K .psq) (h_ctx : ¬ K .ctx) (h_codec : ¬ K .codec) (h_stn : ¬ K .stn)
    (h_nvm : ¬ K .nvm) (h_staySeq : ¬ K .staySeq) (h_mot : ¬ K .mot) (h_vis : ¬ K .vis) (h_net : ¬ K .net) (x0 : Nat)
    (x1 : Nat) (h : Kept K a s) :
    Kept K a (trigStation x0 x1 s) := by
  unfold trigStation
  with_reducible repeat' first
    | (assumption) | (intro) | (apply kept_State_modCtx) | (apply kept_fetchSync) | (apply kept_purge)
    | (apply kept_State_p) | (apply kept_noteMove) | (apply kept_underrun) | (apply kept_stnFault)
    | (apply kept_spoil) | (apply kept_occupy) | (apply kept_foldl) | (apply kept_foldl_snd) | (apply kept_foldl_fst)
    | (apply kept_ite) | (dsimp only) | (split)

theorem kept_release (h_regs : ¬ K .regs) (h_stn : ¬ K .stn) (x0 : Nat) (x1 : Nat) (h : Kept K a s) :
    Kept K a (release x0 x1 s) := by
  unfold release
  with_reducible repeat' first
    | (assumption) | (intro) | (apply kept_State_p) | (apply kept_State_pb) | (apply kept_State_modStn)
    | (apply kept_levelSync) | (apply kept_winSync) | (apply kept_fetchSync) | (apply kept_purge)
    | (apply kept_foldl) | (apply kept_foldl_snd) | (apply kept_foldl_fst) | (apply kept_ite) | (dsimp only)
    | (split)

theorem kept_trigStationDone (h_regs : ¬ K .regs) (h_free : ¬ K .free) (h_out : ¬ K .out) (h_psq : ¬ K .psq)
    (h_ctx : ¬ K .ctx) (h_stn : ¬ K .stn) (h_clk : ¬ K .clk) (x0 : Nat) (x1 : Nat) (h : Kept K a s) :
    Kept K a (trigStationDone x0 x1 s) := by
  unfold trigStationDone
  with_reducible repeat' first
    | (assumption) | (intro) | (apply kept_State_p) | (apply kept_State_modCtx) | (apply kept_State_fresh)
    | (apply kept_stnSettle) | (apply kept_release) | (apply kept_foldl) | (apply kept_foldl_snd)
    | (apply kept_foldl_fst) | (apply kept_ite) | (dsimp only) | (split)

theorem kept_trigWebOrigin (h_regs : ¬ K .regs) (h_out : ¬ K .out) (h_psq : ¬ K .psq) (h_ctx : ¬ K .ctx)
    (h_stn : ¬ K .stn) (h_clk : ¬ K .clk) (h_vis : ¬ K .vis)  (h : Kept K a s) :
    Kept K a (trigWebOrigin s) := by
  unfold trigWebOrigin
  with_reducible repeat' first
    | (assumption) | (intro) | (apply kept_beforeChanges) | (apply kept_holdSync) | (apply kept_lateTrig)
    | (apply kept_lateTrigs) | (apply kept_setOrigin) | (apply kept_enterFeeding) | (apply kept_noteMove)
    | (apply kept_rearm) | (apply kept_State_inc) | (apply kept_foldl) | (apply kept_foldl_snd)
    | (apply kept_foldl_fst) | (apply kept_ite) | (dsimp only) | (split)
    | (refine kept_mk ?_ (r_psq := (absurd · h_psq)) (r_ctx := (absurd · h_ctx)) (r_stn := (absurd · h_stn)) (r_clk
        := (absurd · h_clk)) (r_vis := (absurd · h_vis)))

theorem kept_tripRelease (h_regs : ¬ K .regs)  (h : Kept K a s) :
    Kept K a (tripRelease s) := by
  unfold tripRelease
  with_reducible repeat' first
    | (assumption) | (intro) | (apply kept_State_pb) | (apply kept_foldl) | (apply kept_foldl_snd)
    | (apply kept_foldl_fst) | (apply kept_ite) | (dsimp only) | (split)

theorem kept_verifyFailDone (h_regs : ¬ K .regs) (h_out : ¬ K .out) (h_host : ¬ K .host) (h_psq : ¬ K .psq)
    (h_ctx : ¬ K .ctx) (h_codec : ¬ K .codec) (h_stn : ¬ K .stn) (x0 : Nat) (h : Kept K a s) :
    Kept K a (verifyFailDone x0 s) := by
  unfold verifyFailDone
  with_reducible repeat' first
    | (assumption) | (intro) | (apply kept_refuseCommit) | (apply kept_foldl) | (apply kept_foldl_snd)
    | (apply kept_foldl_fst) | (apply kept_ite) | (dsimp only) | (split)

theorem kept_verifyDone (h_regs : ¬ K .regs) (h_out : ¬ K .out) (h_host : ¬ K .host) (h_err : ¬ K .err)
    (h_psq : ¬ K .psq) (h_ctx : ¬ K .ctx) (h_codec : ¬ K .codec) (h_stn : ¬ K .stn) (h_nvm : ¬ K .nvm)
    (h_staySeq : ¬ K .staySeq) (h_dram : ¬ K .dram) (h_net : ¬ K .net) (x0 : Nat) (h : Kept K a s) :
    Kept K a (verifyDone x0 s) := by
  unfold verifyDone
  with_reducible repeat' first
    | (assumption) | (intro) | (apply kept_decodeBand) | (apply kept_State_modCtx) | (apply kept_vdecFree)
    | (apply kept_verifyFailDone) | (apply kept_State_inc) | (apply kept_State_p) | (apply kept_vQueueSync)
    | (apply kept_foldl) | (apply kept_foldl_snd) | (apply kept_foldl_fst) | (apply kept_ite) | (dsimp only)
    | (split)
    | (refine kept_mk ?_ (r_host := (absurd · h_host)) (r_err := (absurd · h_err)) (r_psq := (absurd · h_psq)) (r_ctx
        := (absurd · h_ctx)) (r_codec := (absurd · h_codec)) (r_stn := (absurd · h_stn)) (r_nvm := (absurd · h_nvm))
        (r_staySeq := (absurd · h_staySeq)) (r_dram := (absurd · h_dram)) (r_net := (absurd · h_net)))

theorem kept_verifyStart (h_regs : ¬ K .regs) (h_out : ¬ K .out) (h_psq : ¬ K .psq) (h_ctx : ¬ K .ctx)
    (h_codec : ¬ K .codec) (x0 : Nat) (h : Kept K a s) :
    Kept K a (verifyStart x0 s) := by
  unfold verifyStart
  with_reducible repeat' first
    | (assumption) | (intro) | (apply kept_vQueueSync) | (apply kept_State_pb) | (apply kept_State_p)
    | (apply kept_State_modCtx) | (apply kept_psqSync) | (apply kept_foldl) | (apply kept_foldl_snd)
    | (apply kept_foldl_fst) | (apply kept_ite) | (dsimp only) | (split)
    | (refine kept_mk ?_ (r_psq := (absurd · h_psq)) (r_ctx := (absurd · h_ctx)) (r_codec := (absurd · h_codec)))

theorem kept_vstayDecay (h_regs : ¬ K .regs) (h_latch : ¬ K .latch) (h_mem : ¬ K .mem) (h_time : ¬ K .time)
    (h_free : ¬ K .free) (h_host : ¬ K .host) (h_err : ¬ K .err) (h_psq : ¬ K .psq) (h_ctx : ¬ K .ctx)
    (h_codec : ¬ K .codec) (h_stn : ¬ K .stn) (h_epoch : ¬ K .epoch) (h_staySeq : ¬ K .staySeq) (h_dram : ¬ K .dram)
    (h_clk : ¬ K .clk) (h_mon : ¬ K .mon) (h_rig : ¬ K .rig) (h_mot : ¬ K .mot) (h_pwr : ¬ K .pwr) (h_thm : ¬ K .thm)
    (h_vis : ¬ K .vis) (h_net : ¬ K .net) (h_dma : ¬ K .dma) (h_pins : ¬ K .pins)  (h : Kept K a s) :
    Kept K a (vstayDecay s) := by
  unfold vstayDecay
  with_reducible repeat' first
    | (assumption) | (intro) | (apply kept_State_p) | (apply kept_saveEnd) | (apply kept_staySaveAbort)
    | (apply kept_setPwr) | (apply kept_foldl) | (apply kept_foldl_snd) | (apply kept_foldl_fst) | (apply kept_ite)
    | (dsimp only) | (split)

theorem kept_waitgoodTimeout (h_regs : ¬ K .regs) (h_free : ¬ K .free) (h_out : ¬ K .out) (h_host : ¬ K .host)
    (h_err : ¬ K .err) (h_psq : ¬ K .psq) (h_ctx : ¬ K .ctx) (h_codec : ¬ K .codec) (h_stn : ¬ K .stn)
    (h_nvm : ¬ K .nvm) (h_staySeq : ¬ K .staySeq) (h_mot : ¬ K .mot) (h_pwr : ¬ K .pwr) (h_vis : ¬ K .vis)
    (h_net : ¬ K .net)  (h : Kept K a s) :
    Kept K a (waitgoodTimeout s) := by
  unfold waitgoodTimeout
  with_reducible repeat' first
    | (assumption) | (intro) | (apply kept_stepFail) | (apply kept_setPwr) | (apply kept_State_inc)
    | (apply kept_foldl) | (apply kept_foldl_snd) | (apply kept_foldl_fst) | (apply kept_ite) | (dsimp only)
    | (split)

theorem kept_webRunStart (h_psq : ¬ K .psq)  (h : Kept K a s) :
    Kept K a (webRunStart s) := by
  unfold webRunStart
  with_reducible repeat' first
    | (assumption) | (intro) | (apply kept_foldl) | (apply kept_foldl_snd) | (apply kept_foldl_fst)
    | (apply kept_ite) | (dsimp only) | (split) | (refine kept_mk ?_ (r_psq := (absurd · h_psq)))

theorem kept_zcLose (h_regs : ¬ K .regs) (h_out : ¬ K .out) (h_host : ¬ K .host) (h_err : ¬ K .err)
    (h_nvm : ¬ K .nvm) (h_staySeq : ¬ K .staySeq) (h_mot : ¬ K .mot) (h_net : ¬ K .net)  (h : Kept K a s) :
    Kept K a (zcLose s) := by
  unfold zcLose
  with_reducible repeat' first
    | (assumption) | (intro) | (apply kept_corrected) | (apply kept_gatesLow) | (apply kept_State_pb)
    | (apply kept_foldl) | (apply kept_foldl_snd) | (apply kept_foldl_fst) | (apply kept_ite) | (dsimp only)
    | (split)
    | (refine kept_mk ?_ (r_host := (absurd · h_host)) (r_err := (absurd · h_err)) (r_nvm := (absurd · h_nvm))
        (r_staySeq := (absurd · h_staySeq)) (r_mot := (absurd · h_mot)) (r_net := (absurd · h_net)))

theorem kept_zcEdge (h_regs : ¬ K .regs) (h_out : ¬ K .out) (h_host : ¬ K .host) (h_err : ¬ K .err)
    (h_nvm : ¬ K .nvm) (h_staySeq : ¬ K .staySeq) (h_mot : ¬ K .mot) (h_net : ¬ K .net)  (h : Kept K a s) :
    Kept K a (zcEdge s) := by
  unfold zcEdge
  with_reducible repeat' first
    | (assumption) | (intro) | (apply kept_State_p) | (apply kept_State_pb) | (apply kept_zcLose)
    | (apply kept_foldl) | (apply kept_foldl_snd) | (apply kept_foldl_fst) | (apply kept_ite) | (dsimp only)
    | (split)
    | (refine kept_mk ?_ (r_host := (absurd · h_host)) (r_err := (absurd · h_err)) (r_nvm := (absurd · h_nvm))
        (r_staySeq := (absurd · h_staySeq)) (r_mot := (absurd · h_mot)) (r_net := (absurd · h_net)))

theorem kept_freeRetired (h_regs : ¬ K .regs) (h_out : ¬ K .out) (h_psq : ¬ K .psq) (h_ctx : ¬ K .ctx)
    (h_stn : ¬ K .stn)  (h : Kept K a s) :
    Kept K a (freeRetired s) := by
  unfold freeRetired
  with_reducible repeat' first
    | (assumption) | (intro) | (apply kept_freeCtx) | (apply kept_foldl) | (apply kept_foldl_snd)
    | (apply kept_foldl_fst) | (apply kept_ite) | (dsimp only) | (split)

theorem kept_retireTick (h_regs : ¬ K .regs) (h_out : ¬ K .out) (h_psq : ¬ K .psq) (h_ctx : ¬ K .ctx)
    (h_stn : ¬ K .stn) (h_clk : ¬ K .clk)  (h : Kept K a s) :
    Kept K a (retireTick s) := by
  unfold retireTick
  with_reducible repeat' first
    | (assumption) | (intro) | (apply kept_stnSettleAll) | (apply kept_freeRetired) | (apply kept_foldl)
    | (apply kept_foldl_snd) | (apply kept_foldl_fst) | (apply kept_ite) | (dsimp only) | (split)

theorem kept_sendDue (h_regs : ¬ K .regs) (h_out : ¬ K .out) (h_stn : ¬ K .stn) (x0 : Nat) (h : Kept K a s) :
    Kept K a (sendDue x0 s) := by
  unfold sendDue
  with_reducible repeat' first
    | (assumption) | (intro) | (apply kept_flushSweep) | (apply kept_foldl) | (apply kept_foldl_snd)
    | (apply kept_foldl_fst) | (apply kept_ite) | (dsimp only) | (split)

theorem kept_stayTick (h_regs : ¬ K .regs) (h_latch : ¬ K .latch) (h_mem : ¬ K .mem) (h_time : ¬ K .time)
    (h_free : ¬ K .free) (h_out : ¬ K .out) (h_host : ¬ K .host) (h_err : ¬ K .err) (h_psq : ¬ K .psq)
    (h_ctx : ¬ K .ctx) (h_codec : ¬ K .codec) (h_stn : ¬ K .stn) (h_epoch : ¬ K .epoch) (h_nvm : ¬ K .nvm)
    (h_staySeq : ¬ K .staySeq) (h_dram : ¬ K .dram) (h_clk : ¬ K .clk) (h_mon : ¬ K .mon) (h_rig : ¬ K .rig)
    (h_mot : ¬ K .mot) (h_pwr : ¬ K .pwr) (h_thm : ¬ K .thm) (h_vis : ¬ K .vis) (h_net : ¬ K .net) (h_dma : ¬ K .dma)
     (h : Kept K a s) :
    Kept K a (stayTick s) := by
  unfold stayTick
  with_reducible repeat' first
    | (assumption) | (intro) | (apply kept_State_fresh) | (apply kept_State_p) | (apply kept_stayStart)
    | (apply kept_settleReset) | (apply kept_endDown) | (apply kept_foldl) | (apply kept_foldl_snd)
    | (apply kept_foldl_fst) | (apply kept_ite) | (dsimp only) | (split)

theorem kept_stepDue (h_regs : ¬ K .regs) (h_time : ¬ K .time) (h_net : ¬ K .net)  (h : Kept K a s) :
    Kept K a (stepDue s) := by
  unfold stepDue
  with_reducible repeat' first
    | (assumption) | (intro) | (apply kept_State_p) | (apply kept_State_pb) | (apply kept_overN)
    | (apply kept_tpoCatch) | (apply kept_foldl) | (apply kept_foldl_snd) | (apply kept_foldl_fst) | (apply kept_ite)
    | (dsimp only) | (split) | (refine kept_mk ?_ (r_time := (absurd · h_time)) (r_net := (absurd · h_net)))

theorem kept_writeBackTick (h_out : ¬ K .out) (h_dram : ¬ K .dram)  (h : Kept K a s) :
    Kept K a (writeBackTick s) := by
  unfold writeBackTick
  with_reducible repeat' first
    | (assumption) | (intro) | (apply kept_overN) | (apply kept_writeBackOne) | (apply kept_foldl)
    | (apply kept_foldl_snd) | (apply kept_foldl_fst) | (apply kept_ite) | (dsimp only) | (split)

end Sys2Proof.Machine
end

