-- ==== Sys2Proof/Laws/KeptExec.lean ====
section
/-!
SUPPORT. What each command leaves unchanged: every command answers a next state, and the parts that its lemma does not
name stand as they were, with the canonical forms, the queue, the part number and the model's clock (Laws/Kept.lean).
-/

set_option linter.all false
set_option Elab.async false

namespace Sys2Proof.Machine

open Reg

variable {K : Piece → Prop} {a s : State}

theorem kept_execAxisClear (h_regs : ¬ K .regs) (h_out : ¬ K .out) (h_mot : ¬ K .mot) (x0 : Fin 48) (x1 :
    Sys2Proof.Word) (h : Kept K a s) :
    ∃ t, execAxisClear x0 x1 s = .next t ∧ Kept K a t := by
  unfold execAxisClear
  refine ⟨_, rfl, ?_⟩
  with_reducible repeat' first
    | (assumption) | (intro) | (apply kept_hostAt) | (apply kept_axCtrlWrite) | (apply kept_foldl)
    | (apply kept_foldl_snd) | (apply kept_foldl_fst) | (apply kept_ite) | (dsimp only) | (split)

theorem kept_execAxisDisable (h_regs : ¬ K .regs) (h_out : ¬ K .out) (h_mot : ¬ K .mot) (x0 : Fin 48) (x1 :
    Sys2Proof.Word) (h : Kept K a s) :
    ∃ t, execAxisDisable x0 x1 s = .next t ∧ Kept K a t := by
  unfold execAxisDisable
  refine ⟨_, rfl, ?_⟩
  with_reducible repeat' first
    | (assumption) | (intro) | (apply kept_hostAt) | (apply kept_axCtrlWrite) | (apply kept_foldl)
    | (apply kept_foldl_snd) | (apply kept_foldl_fst) | (apply kept_ite) | (dsimp only) | (split)

theorem kept_execAxisEnable (h_regs : ¬ K .regs) (h_out : ¬ K .out) (h_mot : ¬ K .mot) (x0 : Fin 48) (x1 :
    Sys2Proof.Word) (h : Kept K a s) :
    ∃ t, execAxisEnable x0 x1 s = .next t ∧ Kept K a t := by
  unfold execAxisEnable
  refine ⟨_, rfl, ?_⟩
  with_reducible repeat' first
    | (assumption) | (intro) | (apply kept_hostAt) | (apply kept_axCtrlWrite) | (apply kept_foldl)
    | (apply kept_foldl_snd) | (apply kept_foldl_fst) | (apply kept_ite) | (dsimp only) | (split)

theorem kept_execAxisEncoderSample (h_regs : ¬ K .regs) (h_mot : ¬ K .mot) (x0 : Fin 48) (x1 : BitVec 32)
    (h : Kept K a s) :
    ∃ t, execAxisEncoderSample x0 x1 s = .next t ∧ Kept K a t := by
  unfold execAxisEncoderSample
  refine ⟨_, rfl, ?_⟩
  with_reducible repeat' first
    | (assumption) | (intro) | (apply kept_live) | (apply kept_axEncoder) | (apply kept_foldl)
    | (apply kept_foldl_snd) | (apply kept_foldl_fst) | (apply kept_ite) | (dsimp only) | (split)

theorem kept_execAxisGo (h_regs : ¬ K .regs) (h_out : ¬ K .out) (h_mot : ¬ K .mot) (x0 : Fin 48) (x1 :
    Sys2Proof.Word) (h : Kept K a s) :
    ∃ t, execAxisGo x0 x1 s = .next t ∧ Kept K a t := by
  unfold execAxisGo
  refine ⟨_, rfl, ?_⟩
  with_reducible repeat' first
    | (assumption) | (intro) | (apply kept_hostAt) | (apply kept_axCtrlWrite) | (apply kept_foldl)
    | (apply kept_foldl_snd) | (apply kept_foldl_fst) | (apply kept_ite) | (dsimp only) | (split)

theorem kept_execAxisMoveEnd (h_regs : ¬ K .regs) (h_out : ¬ K .out) (h_mot : ¬ K .mot) (x0 : Fin 48)
    (h : Kept K a s) :
    ∃ t, execAxisMoveEnd x0 s = .next t ∧ Kept K a t := by
  unfold execAxisMoveEnd
  refine ⟨_, rfl, ?_⟩
  with_reducible repeat' first
    | (assumption) | (intro) | (apply kept_live) | (apply kept_axMoveEnd) | (apply kept_foldl)
    | (apply kept_foldl_snd) | (apply kept_foldl_fst) | (apply kept_ite) | (dsimp only) | (split)

theorem kept_execAxisProfileTick (h_regs : ¬ K .regs) (h_out : ¬ K .out) (h_host : ¬ K .host) (h_err : ¬ K .err)
    (h_nvm : ¬ K .nvm) (h_staySeq : ¬ K .staySeq) (h_mot : ¬ K .mot) (h_net : ¬ K .net)  (h : Kept K a s) :
    ∃ t, execAxisProfileTick s = .next t ∧ Kept K a t := by
  unfold execAxisProfileTick
  refine ⟨_, rfl, ?_⟩
  with_reducible repeat' first
    | (assumption) | (intro) | (apply kept_live) | (apply kept_profileTick) | (apply kept_foldl)
    | (apply kept_foldl_snd) | (apply kept_foldl_fst) | (apply kept_ite) | (dsimp only) | (split)

theorem kept_execAxisProfileWrite (h_regs : ¬ K .regs) (h_out : ¬ K .out) (h_mot : ¬ K .mot) (x0 : Fin 48) (x1 : Fin
    3) (x2 : Sys2Proof.Word) (h : Kept K a s) :
    ∃ t, execAxisProfileWrite x0 x1 x2 s = .next t ∧ Kept K a t := by
  unfold execAxisProfileWrite
  refine ⟨_, rfl, ?_⟩
  with_reducible repeat' first
    | (assumption) | (intro) | (apply kept_hostAt) | (apply kept_axProfileWrite) | (apply kept_foldl)
    | (apply kept_foldl_snd) | (apply kept_foldl_fst) | (apply kept_ite) | (dsimp only) | (split)

theorem kept_execAxisStartInput (h_regs : ¬ K .regs) (h_mot : ¬ K .mot) (x0 : Fin 48) (h : Kept K a s) :
    ∃ t, execAxisStartInput x0 s = .next t ∧ Kept K a t := by
  unfold execAxisStartInput
  refine ⟨_, rfl, ?_⟩
  with_reducible repeat' first
    | (assumption) | (intro) | (apply kept_live) | (apply kept_axPulse) | (apply kept_foldl) | (apply kept_foldl_snd)
    | (apply kept_foldl_fst) | (apply kept_ite) | (dsimp only) | (split)

theorem kept_execAxisStop (h_regs : ¬ K .regs) (h_out : ¬ K .out) (h_mot : ¬ K .mot) (x0 : Fin 48) (x1 :
    Sys2Proof.Word) (h : Kept K a s) :
    ∃ t, execAxisStop x0 x1 s = .next t ∧ Kept K a t := by
  unfold execAxisStop
  refine ⟨_, rfl, ?_⟩
  with_reducible repeat' first
    | (assumption) | (intro) | (apply kept_hostAt) | (apply kept_axCtrlWrite) | (apply kept_foldl)
    | (apply kept_foldl_snd) | (apply kept_foldl_fst) | (apply kept_ite) | (dsimp only) | (split)

theorem kept_execAxisTargetWrite (h_regs : ¬ K .regs) (h_out : ¬ K .out) (h_mot : ¬ K .mot) (x0 : Fin 48) (x1 :
    Sys2Proof.Word) (h : Kept K a s) :
    ∃ t, execAxisTargetWrite x0 x1 s = .next t ∧ Kept K a t := by
  unfold execAxisTargetWrite
  refine ⟨_, rfl, ?_⟩
  with_reducible repeat' first
    | (assumption) | (intro) | (apply kept_hostAt) | (apply kept_axTargetWrite) | (apply kept_foldl)
    | (apply kept_foldl_snd) | (apply kept_foldl_fst) | (apply kept_ite) | (dsimp only) | (split)

theorem kept_execGroupGo (h_regs : ¬ K .regs) (h_out : ¬ K .out) (h_mot : ¬ K .mot) (x0 : Fin 8) (x1 :
    Sys2Proof.Word) (h : Kept K a s) :
    ∃ t, execGroupGo x0 x1 s = .next t ∧ Kept K a t := by
  unfold execGroupGo
  refine ⟨_, rfl, ?_⟩
  with_reducible repeat' first
    | (assumption) | (intro) | (apply kept_hostAt) | (apply kept_agCtrlWrite) | (apply kept_foldl)
    | (apply kept_foldl_snd) | (apply kept_foldl_fst) | (apply kept_ite) | (dsimp only) | (split)

theorem kept_execGroupStartInput (h_regs : ¬ K .regs) (h_mot : ¬ K .mot) (x0 : Fin 8) (h : Kept K a s) :
    ∃ t, execGroupStartInput x0 s = .next t ∧ Kept K a t := by
  unfold execGroupStartInput
  refine ⟨_, rfl, ?_⟩
  with_reducible repeat' first
    | (assumption) | (intro) | (apply kept_live) | (apply kept_agPulse) | (apply kept_foldl) | (apply kept_foldl_snd)
    | (apply kept_foldl_fst) | (apply kept_ite) | (dsimp only) | (split)

theorem kept_execGroupStop (h_regs : ¬ K .regs) (h_out : ¬ K .out) (h_mot : ¬ K .mot) (x0 : Fin 8) (x1 :
    Sys2Proof.Word) (h : Kept K a s) :
    ∃ t, execGroupStop x0 x1 s = .next t ∧ Kept K a t := by
  unfold execGroupStop
  refine ⟨_, rfl, ?_⟩
  with_reducible repeat' first
    | (assumption) | (intro) | (apply kept_hostAt) | (apply kept_agCtrlWrite) | (apply kept_foldl)
    | (apply kept_foldl_snd) | (apply kept_foldl_fst) | (apply kept_ite) | (dsimp only) | (split)

theorem kept_execApertureWrite (h_regs : ¬ K .regs) (h_rig : ¬ K .rig) (x0 : BitVec 26) (x1 : Sys2Proof.Word)
    (h : Kept K a s) :
    ∃ t, execApertureWrite x0 x1 s = .next t ∧ Kept K a t := by
  unfold execApertureWrite
  refine ⟨_, rfl, ?_⟩
  with_reducible repeat' first
    | (assumption) | (intro) | (apply kept_apertureAt) | (apply kept_foldl) | (apply kept_foldl_snd)
    | (apply kept_foldl_fst) | (apply kept_ite) | (dsimp only) | (split)

theorem kept_execImageVerified (h_regs : ¬ K .regs) (h_mem : ¬ K .mem) (h_free : ¬ K .free) (h_out : ¬ K .out)
    (h_host : ¬ K .host) (h_err : ¬ K .err) (h_psq : ¬ K .psq) (h_ctx : ¬ K .ctx) (h_codec : ¬ K .codec)
    (h_stn : ¬ K .stn) (h_nvm : ¬ K .nvm) (h_staySeq : ¬ K .staySeq) (h_dram : ¬ K .dram) (h_clk : ¬ K .clk)
    (h_mon : ¬ K .mon) (h_rig : ¬ K .rig) (h_mot : ¬ K .mot) (h_pwr : ¬ K .pwr) (h_vis : ¬ K .vis) (h_net : ¬ K .net)
    (h_dma : ¬ K .dma) (x0 : BitVec 32) (h : Kept K a s) :
    ∃ t, execImageVerified x0 s = .next t ∧ Kept K a t := by
  unfold execImageVerified
  refine ⟨_, rfl, ?_⟩
  with_reducible repeat' first
    | (assumption) | (intro) | (apply kept_live) | (apply kept_imageVerified) | (apply kept_foldl)
    | (apply kept_foldl_snd) | (apply kept_foldl_fst) | (apply kept_ite) | (dsimp only) | (split)

theorem kept_execNvmImageReadDone (h_regs : ¬ K .regs) (h_rig : ¬ K .rig)  (h : Kept K a s) :
    ∃ t, execNvmImageReadDone s = .next t ∧ Kept K a t := by
  unfold execNvmImageReadDone
  refine ⟨_, rfl, ?_⟩
  with_reducible repeat' first
    | (assumption) | (intro) | (apply kept_live) | (apply kept_nvmImageRead) | (apply kept_foldl)
    | (apply kept_foldl_snd) | (apply kept_foldl_fst) | (apply kept_ite) | (dsimp only) | (split)

theorem kept_execNvmImageStoreDone (h_regs : ¬ K .regs) (h_rig : ¬ K .rig)  (h : Kept K a s) :
    ∃ t, execNvmImageStoreDone s = .next t ∧ Kept K a t := by
  unfold execNvmImageStoreDone
  refine ⟨_, rfl, ?_⟩
  with_reducible repeat' first
    | (assumption) | (intro) | (apply kept_live) | (apply kept_nvmStoreDone) | (apply kept_foldl)
    | (apply kept_foldl_snd) | (apply kept_foldl_fst) | (apply kept_ite) | (dsimp only) | (split)

theorem kept_execQspiHeaderRead (h_regs : ¬ K .regs) (h_out : ¬ K .out) (h_rig : ¬ K .rig) (x0 : List (BitVec 8))
    (h : Kept K a s) :
    ∃ t, execQspiHeaderRead x0 s = .next t ∧ Kept K a t := by
  unfold execQspiHeaderRead
  refine ⟨_, rfl, ?_⟩
  with_reducible repeat' first
    | (assumption) | (intro) | (apply kept_live) | (apply kept_headerRead) | (apply kept_foldl)
    | (apply kept_foldl_snd) | (apply kept_foldl_fst) | (apply kept_ite) | (dsimp only) | (split)

theorem kept_execQspiImageReadDone (h_regs : ¬ K .regs) (h_out : ¬ K .out) (h_rig : ¬ K .rig) (x0 : List (BitVec 8))
    (h : Kept K a s) :
    ∃ t, execQspiImageReadDone x0 s = .next t ∧ Kept K a t := by
  unfold execQspiImageReadDone
  refine ⟨_, rfl, ?_⟩
  with_reducible repeat' first
    | (assumption) | (intro) | (apply kept_live) | (apply kept_imageRead) | (apply kept_foldl)
    | (apply kept_foldl_snd) | (apply kept_foldl_fst) | (apply kept_ite) | (dsimp only) | (split)

theorem kept_execRigAbandon (h_regs : ¬ K .regs) (h_out : ¬ K .out) (h_rig : ¬ K .rig) (x0 : Sys2Proof.Word)
    (h : Kept K a s) :
    ∃ t, execRigAbandon x0 s = .next t ∧ Kept K a t := by
  unfold execRigAbandon
  refine ⟨_, rfl, ?_⟩
  with_reducible repeat' first
    | (assumption) | (intro) | (apply kept_hostAt) | (apply kept_loadCtrlWrite) | (apply kept_foldl)
    | (apply kept_foldl_snd) | (apply kept_foldl_fst) | (apply kept_ite) | (dsimp only) | (split)

theorem kept_execRigCommit (h_regs : ¬ K .regs) (h_out : ¬ K .out) (h_rig : ¬ K .rig) (x0 : Sys2Proof.Word)
    (h : Kept K a s) :
    ∃ t, execRigCommit x0 s = .next t ∧ Kept K a t := by
  unfold execRigCommit
  refine ⟨_, rfl, ?_⟩
  with_reducible repeat' first
    | (assumption) | (intro) | (apply kept_hostAt) | (apply kept_loadCtrlWrite) | (apply kept_foldl)
    | (apply kept_foldl_snd) | (apply kept_foldl_fst) | (apply kept_ite) | (dsimp only) | (split)

theorem kept_execRigOpen (h_regs : ¬ K .regs) (h_out : ¬ K .out) (h_rig : ¬ K .rig) (x0 : Sys2Proof.Word)
    (h : Kept K a s) :
    ∃ t, execRigOpen x0 s = .next t ∧ Kept K a t := by
  unfold execRigOpen
  refine ⟨_, rfl, ?_⟩
  with_reducible repeat' first
    | (assumption) | (intro) | (apply kept_hostAt) | (apply kept_loadCtrlWrite) | (apply kept_foldl)
    | (apply kept_foldl_snd) | (apply kept_foldl_fst) | (apply kept_ite) | (dsimp only) | (split)

theorem kept_execSyspllLock (h_regs : ¬ K .regs) (h_out : ¬ K .out) (h_rig : ¬ K .rig) (x0 : Bool) (h : Kept K a s) :
    ∃ t, execSyspllLock x0 s = .next t ∧ Kept K a t := by
  unfold execSyspllLock
  refine ⟨_, rfl, ?_⟩
  with_reducible repeat' first
    | (assumption) | (intro) | (apply kept_live) | (apply kept_sysPllLock) | (apply kept_foldl)
    | (apply kept_foldl_snd) | (apply kept_foldl_fst) | (apply kept_ite) | (dsimp only) | (split)

theorem kept_execBar2Access (h_regs : ¬ K .regs) (h_mem : ¬ K .mem) (h_free : ¬ K .free) (h_out : ¬ K .out)
    (h_host : ¬ K .host) (h_err : ¬ K .err) (h_nvm : ¬ K .nvm) (h_staySeq : ¬ K .staySeq) (h_dram : ¬ K .dram)
    (h_net : ¬ K .net) (x0 : BitVec 37) (x1 : Fin 4097) (x2 : Option (List (BitVec 8))) (x3 : Bool) (h : Kept K a s)
    :
    ∃ t, execBar2Access x0 x1 x2 x3 s = .next t ∧ Kept K a t := by
  unfold execBar2Access
  refine ⟨_, rfl, ?_⟩
  with_reducible repeat' first
    | (assumption) | (intro) | (apply kept_live) | (apply kept_bar2Access) | (apply kept_foldl)
    | (apply kept_foldl_snd) | (apply kept_foldl_fst) | (apply kept_ite) | (dsimp only) | (split)

theorem kept_execNvmDeferredWrite (h_regs : ¬ K .regs) (h_err : ¬ K .err) (h_stn : ¬ K .stn) (h_epoch : ¬ K .epoch)
    (h_nvm : ¬ K .nvm) (h_dram : ¬ K .dram) (h_pwr : ¬ K .pwr)  (h : Kept K a s) :
    ∃ t, execNvmDeferredWrite s = .next t ∧ Kept K a t := by
  unfold execNvmDeferredWrite
  refine ⟨_, rfl, ?_⟩
  with_reducible repeat' first
    | (assumption) | (intro) | (apply kept_live) | (apply kept_nvmDeferred) | (apply kept_foldl)
    | (apply kept_foldl_snd) | (apply kept_foldl_fst) | (apply kept_ite) | (dsimp only) | (split)

theorem kept_execPcieReset (h_regs : ¬ K .regs) (h_mem : ¬ K .mem) (h_free : ¬ K .free) (h_out : ¬ K .out)
    (h_host : ¬ K .host) (h_err : ¬ K .err) (h_psq : ¬ K .psq) (h_ctx : ¬ K .ctx) (h_codec : ¬ K .codec)
    (h_stn : ¬ K .stn) (h_nvm : ¬ K .nvm) (h_staySeq : ¬ K .staySeq) (h_dram : ¬ K .dram) (h_mot : ¬ K .mot)
    (h_net : ¬ K .net) (h_dma : ¬ K .dma) (x0 : Option (Fin 8)) (h : Kept K a s) :
    ∃ t, execPcieReset x0 s = .next t ∧ Kept K a t := by
  unfold execPcieReset
  refine ⟨_, rfl, ?_⟩
  with_reducible repeat' first
    | (assumption) | (intro) | (apply kept_live) | (apply kept_pcieReset) | (apply kept_foldl)
    | (apply kept_foldl_snd) | (apply kept_foldl_fst) | (apply kept_ite) | (dsimp only) | (split)

theorem kept_execChipReset (h_regs : ¬ K .regs) (h_latch : ¬ K .latch) (h_mem : ¬ K .mem) (h_time : ¬ K .time)
    (h_free : ¬ K .free) (h_out : ¬ K .out) (h_host : ¬ K .host) (h_err : ¬ K .err) (h_psq : ¬ K .psq)
    (h_ctx : ¬ K .ctx) (h_codec : ¬ K .codec) (h_stn : ¬ K .stn) (h_epoch : ¬ K .epoch) (h_nvm : ¬ K .nvm)
    (h_staySeq : ¬ K .staySeq) (h_dram : ¬ K .dram) (h_clk : ¬ K .clk) (h_mon : ¬ K .mon) (h_rig : ¬ K .rig)
    (h_mot : ¬ K .mot) (h_pwr : ¬ K .pwr) (h_thm : ¬ K .thm) (h_vis : ¬ K .vis) (h_net : ¬ K .net) (h_dma : ¬ K .dma)
    (x0 : Sys2Proof.Word) (h : Kept K a s) :
    ∃ t, execChipReset x0 s = .next t ∧ Kept K a t := by
  unfold execChipReset
  refine ⟨_, rfl, ?_⟩
  with_reducible repeat' first
    | (assumption) | (intro) | (apply kept_hostAt) | (apply kept_chipResetWrite) | (apply kept_foldl)
    | (apply kept_foldl_snd) | (apply kept_foldl_fst) | (apply kept_ite) | (dsimp only) | (split)

theorem kept_execPowerOn (h_regs : ¬ K .regs) (h_latch : ¬ K .latch) (h_mem : ¬ K .mem) (h_time : ¬ K .time)
    (h_free : ¬ K .free) (h_host : ¬ K .host) (h_err : ¬ K .err) (h_psq : ¬ K .psq) (h_ctx : ¬ K .ctx)
    (h_codec : ¬ K .codec) (h_stn : ¬ K .stn) (h_epoch : ¬ K .epoch) (h_staySeq : ¬ K .staySeq) (h_dram : ¬ K .dram)
    (h_clk : ¬ K .clk) (h_mon : ¬ K .mon) (h_rig : ¬ K .rig) (h_mot : ¬ K .mot) (h_pwr : ¬ K .pwr) (h_thm : ¬ K .thm)
    (h_vis : ¬ K .vis) (h_net : ¬ K .net) (h_dma : ¬ K .dma) (h_pins : ¬ K .pins)  (h : Kept K a s) :
    ∃ t, execPowerOn s = .next t ∧ Kept K a t := by
  unfold execPowerOn
  refine ⟨_, rfl, ?_⟩
  with_reducible repeat' first
    | (assumption) | (intro) | (apply kept_powerOn) | (apply kept_foldl) | (apply kept_foldl_snd)
    | (apply kept_foldl_fst) | (apply kept_ite) | (dsimp only) | (split)

theorem kept_execResetPin (h_regs : ¬ K .regs) (h_latch : ¬ K .latch) (h_mem : ¬ K .mem) (h_time : ¬ K .time)
    (h_free : ¬ K .free) (h_out : ¬ K .out) (h_host : ¬ K .host) (h_err : ¬ K .err) (h_psq : ¬ K .psq)
    (h_ctx : ¬ K .ctx) (h_codec : ¬ K .codec) (h_stn : ¬ K .stn) (h_epoch : ¬ K .epoch) (h_staySeq : ¬ K .staySeq)
    (h_dram : ¬ K .dram) (h_clk : ¬ K .clk) (h_mon : ¬ K .mon) (h_rig : ¬ K .rig) (h_mot : ¬ K .mot)
    (h_pwr : ¬ K .pwr) (h_thm : ¬ K .thm) (h_vis : ¬ K .vis) (h_net : ¬ K .net) (h_dma : ¬ K .dma)
    (h_pins : ¬ K .pins) (x0 : Bool) (h : Kept K a s) :
    ∃ t, execResetPin x0 s = .next t ∧ Kept K a t := by
  unfold execResetPin
  refine ⟨_, rfl, ?_⟩
  with_reducible repeat' first
    | (assumption) | (intro) | (apply kept_resetPin) | (apply kept_foldl) | (apply kept_foldl_snd)
    | (apply kept_foldl_fst) | (apply kept_ite) | (dsimp only) | (split)

theorem kept_execStaySaveAbort (h_regs : ¬ K .regs) (h_latch : ¬ K .latch) (h_mem : ¬ K .mem) (h_time : ¬ K .time)
    (h_free : ¬ K .free) (h_host : ¬ K .host) (h_err : ¬ K .err) (h_psq : ¬ K .psq) (h_ctx : ¬ K .ctx)
    (h_codec : ¬ K .codec) (h_stn : ¬ K .stn) (h_epoch : ¬ K .epoch) (h_staySeq : ¬ K .staySeq) (h_dram : ¬ K .dram)
    (h_clk : ¬ K .clk) (h_mon : ¬ K .mon) (h_rig : ¬ K .rig) (h_mot : ¬ K .mot) (h_pwr : ¬ K .pwr) (h_thm : ¬ K .thm)
    (h_vis : ¬ K .vis) (h_net : ¬ K .net) (h_dma : ¬ K .dma) (h_pins : ¬ K .pins)  (h : Kept K a s) :
    ∃ t, execStaySaveAbort s = .next t ∧ Kept K a t := by
  unfold execStaySaveAbort
  refine ⟨_, rfl, ?_⟩
  with_reducible repeat' first
    | (assumption) | (intro) | (apply kept_stayStep) | (apply kept_saveEnd) | (apply kept_staySaveAbort)
    | (apply kept_foldl) | (apply kept_foldl_snd) | (apply kept_foldl_fst) | (apply kept_ite) | (dsimp only)
    | (split)

theorem kept_execStaySaveDone (h_regs : ¬ K .regs) (h_latch : ¬ K .latch) (h_mem : ¬ K .mem) (h_time : ¬ K .time)
    (h_free : ¬ K .free) (h_out : ¬ K .out) (h_host : ¬ K .host) (h_err : ¬ K .err) (h_psq : ¬ K .psq)
    (h_ctx : ¬ K .ctx) (h_codec : ¬ K .codec) (h_stn : ¬ K .stn) (h_epoch : ¬ K .epoch) (h_nvm : ¬ K .nvm)
    (h_staySeq : ¬ K .staySeq) (h_dram : ¬ K .dram) (h_clk : ¬ K .clk) (h_mon : ¬ K .mon) (h_rig : ¬ K .rig)
    (h_mot : ¬ K .mot) (h_pwr : ¬ K .pwr) (h_thm : ¬ K .thm) (h_vis : ¬ K .vis) (h_net : ¬ K .net) (h_dma : ¬ K .dma)
    (h_pins : ¬ K .pins)  (h : Kept K a s) :
    ∃ t, execStaySaveDone s = .next t ∧ Kept K a t := by
  unfold execStaySaveDone
  refine ⟨_, rfl, ?_⟩
  with_reducible repeat' first
    | (assumption) | (intro) | (apply kept_stayStep) | (apply kept_saveEnd) | (apply kept_staySaveDone)
    | (apply kept_foldl) | (apply kept_foldl_snd) | (apply kept_foldl_fst) | (apply kept_ite) | (dsimp only)
    | (split)

theorem kept_execSupplyFail (h_regs : ¬ K .regs) (h_latch : ¬ K .latch) (h_mem : ¬ K .mem) (h_time : ¬ K .time)
    (h_free : ¬ K .free) (h_out : ¬ K .out) (h_host : ¬ K .host) (h_err : ¬ K .err) (h_psq : ¬ K .psq)
    (h_ctx : ¬ K .ctx) (h_codec : ¬ K .codec) (h_stn : ¬ K .stn) (h_epoch : ¬ K .epoch) (h_staySeq : ¬ K .staySeq)
    (h_dram : ¬ K .dram) (h_clk : ¬ K .clk) (h_mon : ¬ K .mon) (h_rig : ¬ K .rig) (h_mot : ¬ K .mot)
    (h_pwr : ¬ K .pwr) (h_thm : ¬ K .thm) (h_vis : ¬ K .vis) (h_net : ¬ K .net) (h_dma : ¬ K .dma)
    (h_pins : ¬ K .pins)  (h : Kept K a s) :
    ∃ t, execSupplyFail s = .next t ∧ Kept K a t := by
  unfold execSupplyFail
  refine ⟨_, rfl, ?_⟩
  with_reducible repeat' first
    | (assumption) | (intro) | (apply kept_supplyFail) | (apply kept_foldl) | (apply kept_foldl_snd)
    | (apply kept_foldl_fst) | (apply kept_ite) | (dsimp only) | (split)

theorem kept_execSupplyRecover (h_regs : ¬ K .regs) (h_pwr : ¬ K .pwr) (h_pins : ¬ K .pins)  (h : Kept K a s) :
    ∃ t, execSupplyRecover s = .next t ∧ Kept K a t := by
  unfold execSupplyRecover
  refine ⟨_, rfl, ?_⟩
  with_reducible repeat' first
    | (assumption) | (intro) | (apply kept_supplyRecover) | (apply kept_foldl) | (apply kept_foldl_snd)
    | (apply kept_foldl_fst) | (apply kept_ite) | (dsimp only) | (split)

theorem kept_execVstayDecay (h_regs : ¬ K .regs) (h_latch : ¬ K .latch) (h_mem : ¬ K .mem) (h_time : ¬ K .time)
    (h_free : ¬ K .free) (h_host : ¬ K .host) (h_err : ¬ K .err) (h_psq : ¬ K .psq) (h_ctx : ¬ K .ctx)
    (h_codec : ¬ K .codec) (h_stn : ¬ K .stn) (h_epoch : ¬ K .epoch) (h_staySeq : ¬ K .staySeq) (h_dram : ¬ K .dram)
    (h_clk : ¬ K .clk) (h_mon : ¬ K .mon) (h_rig : ¬ K .rig) (h_mot : ¬ K .mot) (h_pwr : ¬ K .pwr) (h_thm : ¬ K .thm)
    (h_vis : ¬ K .vis) (h_net : ¬ K .net) (h_dma : ¬ K .dma) (h_pins : ¬ K .pins)  (h : Kept K a s) :
    ∃ t, execVstayDecay s = .next t ∧ Kept K a t := by
  unfold execVstayDecay
  refine ⟨_, rfl, ?_⟩
  with_reducible repeat' first
    | (assumption) | (intro) | (apply kept_vstayDecay) | (apply kept_foldl) | (apply kept_foldl_snd)
    | (apply kept_foldl_fst) | (apply kept_ite) | (dsimp only) | (split)

theorem kept_execAbsentUnitAccess (h_regs : ¬ K .regs) (h_latch : ¬ K .latch) (h_free : ¬ K .free) (h_out : ¬ K .out)
    (h_stn : ¬ K .stn) (h_clk : ¬ K .clk) (x0 : BitVec 26) (x1 : Fin 16) (x2 : Bool) (h : Kept K a s) :
    ∃ t, execAbsentUnitAccess x0 x1 x2 s = .next t ∧ Kept K a t := by
  unfold execAbsentUnitAccess
  refine ⟨_, rfl, ?_⟩
  with_reducible repeat' first
    | (assumption) | (intro) | (apply kept_strayAccess) | (apply kept_foldl) | (apply kept_foldl_snd)
    | (apply kept_foldl_fst) | (apply kept_ite) | (dsimp only) | (split)

theorem kept_execFenceRead (h_regs : ¬ K .regs) (h_latch : ¬ K .latch) (h_free : ¬ K .free) (h_out : ¬ K .out)
    (h_stn : ¬ K .stn) (h_clk : ¬ K .clk) (x0 : Fin 16) (h : Kept K a s) :
    ∃ t, execFenceRead x0 s = .next t ∧ Kept K a t := by
  unfold execFenceRead
  refine ⟨_, rfl, ?_⟩
  with_reducible repeat' first
    | (assumption) | (intro) | (apply kept_hostRead) | (apply kept_foldl) | (apply kept_foldl_snd)
    | (apply kept_foldl_fst) | (apply kept_ite) | (dsimp only) | (split)

theorem kept_execLowWordRead (h_regs : ¬ K .regs) (h_latch : ¬ K .latch) (h_free : ¬ K .free) (h_out : ¬ K .out)
    (h_stn : ¬ K .stn) (h_clk : ¬ K .clk) (x0 : BitVec 26) (x1 : Fin 16) (h : Kept K a s) :
    ∃ t, execLowWordRead x0 x1 s = .next t ∧ Kept K a t := by
  unfold execLowWordRead
  refine ⟨_, rfl, ?_⟩
  with_reducible repeat' first
    | (assumption) | (intro) | (apply kept_hostRead) | (apply kept_foldl) | (apply kept_foldl_snd)
    | (apply kept_foldl_fst) | (apply kept_ite) | (dsimp only) | (split)

theorem kept_execReadClear (h_regs : ¬ K .regs) (h_latch : ¬ K .latch) (h_free : ¬ K .free) (h_out : ¬ K .out)
    (h_stn : ¬ K .stn) (h_clk : ¬ K .clk) (x0 : BitVec 26) (x1 : Fin 16) (h : Kept K a s) :
    ∃ t, execReadClear x0 x1 s = .next t ∧ Kept K a t := by
  unfold execReadClear
  refine ⟨_, rfl, ?_⟩
  with_reducible repeat' first
    | (assumption) | (intro) | (apply kept_hostRead) | (apply kept_foldl) | (apply kept_foldl_snd)
    | (apply kept_foldl_fst) | (apply kept_ite) | (dsimp only) | (split)

theorem kept_execSparHostWrite (h_regs : ¬ K .regs) (h_out : ¬ K .out) (h_stn : ¬ K .stn) (h_mot : ¬ K .mot) (x0 :
    Fin 128) (x1 : Sys2Proof.Word) (h : Kept K a s) :
    ∃ t, execSparHostWrite x0 x1 s = .next t ∧ Kept K a t := by
  unfold execSparHostWrite
  refine ⟨_, rfl, ?_⟩
  with_reducible repeat' first
    | (assumption) | (intro) | (apply kept_hostAt) | (apply kept_windowWrite) | (apply kept_foldl)
    | (apply kept_foldl_snd) | (apply kept_foldl_fst) | (apply kept_ite) | (dsimp only) | (split)

theorem kept_execUnmappedAccess (h_regs : ¬ K .regs) (h_latch : ¬ K .latch) (h_free : ¬ K .free) (h_out : ¬ K .out)
    (h_stn : ¬ K .stn) (h_clk : ¬ K .clk) (x0 : BitVec 26) (x1 : Fin 16) (x2 : Bool) (h : Kept K a s) :
    ∃ t, execUnmappedAccess x0 x1 x2 s = .next t ∧ Kept K a t := by
  unfold execUnmappedAccess
  refine ⟨_, rfl, ?_⟩
  with_reducible repeat' first
    | (assumption) | (intro) | (apply kept_strayAccess) | (apply kept_foldl) | (apply kept_foldl_snd)
    | (apply kept_foldl_fst) | (apply kept_ite) | (dsimp only) | (split)

theorem kept_execBandMeasureDone (h_regs : ¬ K .regs) (h_clk : ¬ K .clk) (x0 : BitVec 16) (x1 : BitVec 16)
    (h : Kept K a s) :
    ∃ t, execBandMeasureDone x0 x1 s = .next t ∧ Kept K a t := by
  unfold execBandMeasureDone
  refine ⟨_, rfl, ?_⟩
  with_reducible repeat' first
    | (assumption) | (intro) | (apply kept_live) | (apply kept_bandMeasDone) | (apply kept_foldl)
    | (apply kept_foldl_snd) | (apply kept_foldl_fst) | (apply kept_ite) | (dsimp only) | (split)

theorem kept_execBandMeasureStart (h_regs : ¬ K .regs) (h_clk : ¬ K .clk) (x0 : Sys2Proof.Word) (h : Kept K a s) :
    ∃ t, execBandMeasureStart x0 s = .next t ∧ Kept K a t := by
  unfold execBandMeasureStart
  refine ⟨_, rfl, ?_⟩
  with_reducible repeat' first
    | (assumption) | (intro) | (apply kept_hostAt) | (apply kept_bandMeasWrite) | (apply kept_foldl)
    | (apply kept_foldl_snd) | (apply kept_foldl_fst) | (apply kept_ite) | (dsimp only) | (split)

theorem kept_execPllLock (h_regs : ¬ K .regs) (h_mem : ¬ K .mem) (h_free : ¬ K .free) (h_out : ¬ K .out)
    (h_host : ¬ K .host) (h_err : ¬ K .err) (h_psq : ¬ K .psq) (h_ctx : ¬ K .ctx) (h_codec : ¬ K .codec)
    (h_stn : ¬ K .stn) (h_nvm : ¬ K .nvm) (h_staySeq : ¬ K .staySeq) (h_dram : ¬ K .dram) (h_clk : ¬ K .clk)
    (h_mot : ¬ K .mot) (h_vis : ¬ K .vis) (h_net : ¬ K .net) (x0 : Fin 12) (h : Kept K a s) :
    ∃ t, execPllLock x0 s = .next t ∧ Kept K a t := by
  unfold execPllLock
  refine ⟨_, rfl, ?_⟩
  with_reducible repeat' first
    | (assumption) | (intro) | (apply kept_live) | (apply kept_trainClocked) | (apply kept_pllLock)
    | (apply kept_foldl) | (apply kept_foldl_snd) | (apply kept_foldl_fst) | (apply kept_ite) | (dsimp only)
    | (split)

theorem kept_execPllLoss (h_regs : ¬ K .regs) (h_free : ¬ K .free) (h_out : ¬ K .out) (h_host : ¬ K .host)
    (h_err : ¬ K .err) (h_psq : ¬ K .psq) (h_ctx : ¬ K .ctx) (h_codec : ¬ K .codec) (h_stn : ¬ K .stn)
    (h_nvm : ¬ K .nvm) (h_staySeq : ¬ K .staySeq) (h_clk : ¬ K .clk) (h_mot : ¬ K .mot) (h_vis : ¬ K .vis)
    (h_net : ¬ K .net) (x0 : Fin 12) (h : Kept K a s) :
    ∃ t, execPllLoss x0 s = .next t ∧ Kept K a t := by
  unfold execPllLoss
  refine ⟨_, rfl, ?_⟩
  with_reducible repeat' first
    | (assumption) | (intro) | (apply kept_live) | (apply kept_pllLoss) | (apply kept_foldl) | (apply kept_foldl_snd)
    | (apply kept_foldl_fst) | (apply kept_ite) | (dsimp only) | (split)

theorem kept_execPllPhaseExcursion (h_clk : ¬ K .clk) (x0 : Fin 12) (h : Kept K a s) :
    ∃ t, execPllPhaseExcursion x0 s = .next t ∧ Kept K a t := by
  unfold execPllPhaseExcursion
  refine ⟨_, rfl, ?_⟩
  with_reducible repeat' first
    | (assumption) | (intro) | (apply kept_live) | (apply kept_excursion) | (apply kept_foldl)
    | (apply kept_foldl_snd) | (apply kept_foldl_fst) | (apply kept_ite) | (dsimp only) | (split)

theorem kept_execReferenceLoss (h_regs : ¬ K .regs) (h_free : ¬ K .free) (h_out : ¬ K .out) (h_host : ¬ K .host)
    (h_err : ¬ K .err) (h_psq : ¬ K .psq) (h_ctx : ¬ K .ctx) (h_codec : ¬ K .codec) (h_stn : ¬ K .stn)
    (h_nvm : ¬ K .nvm) (h_staySeq : ¬ K .staySeq) (h_mot : ¬ K .mot)  (h : Kept K a s) :
    ∃ t, execReferenceLoss s = .next t ∧ Kept K a t := by
  unfold execReferenceLoss
  refine ⟨_, rfl, ?_⟩
  with_reducible repeat' first
    | (assumption) | (intro) | (apply kept_refLoss) | (apply kept_foldl) | (apply kept_foldl_snd)
    | (apply kept_foldl_fst) | (apply kept_ite) | (dsimp only) | (split)

theorem kept_execCmpJobDone (h_regs : ¬ K .regs) (h_mem : ¬ K .mem) (h_free : ¬ K .free) (h_out : ¬ K .out)
    (h_host : ¬ K .host) (h_err : ¬ K .err) (h_codec : ¬ K .codec) (h_nvm : ¬ K .nvm) (h_staySeq : ¬ K .staySeq)
    (h_dram : ¬ K .dram) (h_net : ¬ K .net)  (h : Kept K a s) :
    ∃ t, execCmpJobDone s = .next t ∧ Kept K a t := by
  unfold execCmpJobDone
  refine ⟨_, rfl, ?_⟩
  with_reducible repeat' first
    | (assumption) | (intro) | (apply kept_live) | (apply kept_cmpDone) | (apply kept_foldl) | (apply kept_foldl_snd)
    | (apply kept_foldl_fst) | (apply kept_ite) | (dsimp only) | (split)

theorem kept_execCmpJobStart (h_regs : ¬ K .regs) (h_codec : ¬ K .codec)  (h : Kept K a s) :
    ∃ t, execCmpJobStart s = .next t ∧ Kept K a t := by
  unfold execCmpJobStart
  refine ⟨_, rfl, ?_⟩
  with_reducible repeat' first
    | (assumption) | (intro) | (apply kept_live) | (apply kept_cmpStart) | (apply kept_foldl)
    | (apply kept_foldl_snd) | (apply kept_foldl_fst) | (apply kept_ite) | (dsimp only) | (split)

theorem kept_execCmpPause (h_regs : ¬ K .regs)  (h : Kept K a s) :
    ∃ t, execCmpPause s = .next t ∧ Kept K a t := by
  unfold execCmpPause
  refine ⟨_, rfl, ?_⟩
  with_reducible repeat' first
    | (assumption) | (intro) | (apply kept_live) | (apply kept_cmpPause) | (apply kept_foldl)
    | (apply kept_foldl_snd) | (apply kept_foldl_fst) | (apply kept_ite) | (dsimp only) | (split)

theorem kept_execInflateJobDone (h_regs : ¬ K .regs) (h_mem : ¬ K .mem) (h_out : ¬ K .out) (h_host : ¬ K .host)
    (h_err : ¬ K .err) (h_codec : ¬ K .codec) (h_nvm : ¬ K .nvm) (h_staySeq : ¬ K .staySeq) (h_dram : ¬ K .dram)
    (h_net : ¬ K .net) (x0 : Fin 8) (h : Kept K a s) :
    ∃ t, execInflateJobDone x0 s = .next t ∧ Kept K a t := by
  unfold execInflateJobDone
  refine ⟨_, rfl, ?_⟩
  with_reducible repeat' first
    | (assumption) | (intro) | (apply kept_live) | (apply kept_inflateDone) | (apply kept_foldl)
    | (apply kept_foldl_snd) | (apply kept_foldl_fst) | (apply kept_ite) | (dsimp only) | (split)

theorem kept_execVerifyBandDone (h_regs : ¬ K .regs) (h_out : ¬ K .out) (h_host : ¬ K .host) (h_err : ¬ K .err)
    (h_psq : ¬ K .psq) (h_ctx : ¬ K .ctx) (h_codec : ¬ K .codec) (h_stn : ¬ K .stn) (h_nvm : ¬ K .nvm)
    (h_staySeq : ¬ K .staySeq) (h_dram : ¬ K .dram) (h_net : ¬ K .net) (x0 : Fin 8) (h : Kept K a s) :
    ∃ t, execVerifyBandDone x0 s = .next t ∧ Kept K a t := by
  unfold execVerifyBandDone
  refine ⟨_, rfl, ?_⟩
  with_reducible repeat' first
    | (assumption) | (intro) | (apply kept_live) | (apply kept_verifyDone) | (apply kept_foldl)
    | (apply kept_foldl_snd) | (apply kept_foldl_fst) | (apply kept_ite) | (dsimp only) | (split)

theorem kept_execVerifyBandStart (h_regs : ¬ K .regs) (h_out : ¬ K .out) (h_psq : ¬ K .psq) (h_ctx : ¬ K .ctx)
    (h_codec : ¬ K .codec) (x0 : Fin 8) (h : Kept K a s) :
    ∃ t, execVerifyBandStart x0 s = .next t ∧ Kept K a t := by
  unfold execVerifyBandStart
  refine ⟨_, rfl, ?_⟩
  with_reducible repeat' first
    | (assumption) | (intro) | (apply kept_live) | (apply kept_verifyStart) | (apply kept_foldl)
    | (apply kept_foldl_snd) | (apply kept_foldl_fst) | (apply kept_ite) | (dsimp only) | (split)

theorem kept_execCodecJob (h_regs : ¬ K .regs) (h_out : ¬ K .out) (h_host : ¬ K .host) (h_err : ¬ K .err)
    (h_codec : ¬ K .codec) (h_nvm : ¬ K .nvm) (h_staySeq : ¬ K .staySeq) (h_dram : ¬ K .dram) (h_net : ¬ K .net) (x0
    : Sys2Proof.Entry) (x1 : BitVec 8) (x2 : BitVec 8) (x3 : BitVec 64) (x4 : BitVec 32) (x5 : BitVec 32) (x6 :
    BitVec 64) (x7 : List Sys2Proof.Byte) (h : Kept K a s) :
    ∃ t, execCodecJob x0 x1 x2 x3 x4 x5 x6 x7 s = .next t ∧ Kept K a t := by
  unfold execCodecJob
  refine ⟨_, rfl, ?_⟩
  with_reducible repeat' first
    | (assumption) | (intro) | (apply kept_cmdCodecJob) | (apply kept_foldl) | (apply kept_foldl_snd)
    | (apply kept_foldl_fst) | (apply kept_ite) | (dsimp only) | (split)

theorem kept_execEmitterSet (h_regs : ¬ K .regs) (h_out : ¬ K .out) (h_host : ¬ K .host) (h_err : ¬ K .err)
    (h_psq : ¬ K .psq) (h_stn : ¬ K .stn) (h_nvm : ¬ K .nvm) (h_staySeq : ¬ K .staySeq) (h_dram : ¬ K .dram)
    (h_clk : ¬ K .clk) (h_net : ¬ K .net) (x0 : Sys2Proof.Entry) (x1 : BitVec 8) (x2 : BitVec 8) (x3 : BitVec 8) (x4
    : BitVec 8) (x5 : BitVec 32) (h : Kept K a s) :
    ∃ t, execEmitterSet x0 x1 x2 x3 x4 x5 s = .next t ∧ Kept K a t := by
  unfold execEmitterSet
  refine ⟨_, rfl, ?_⟩
  with_reducible repeat' first
    | (assumption) | (intro) | (apply kept_cmdEmitterSet) | (apply kept_foldl) | (apply kept_foldl_snd)
    | (apply kept_foldl_fst) | (apply kept_ite) | (dsimp only) | (split)

theorem kept_execEngineStart (h_regs : ¬ K .regs) (h_free : ¬ K .free) (h_out : ¬ K .out) (h_host : ¬ K .host)
    (h_err : ¬ K .err) (h_psq : ¬ K .psq) (h_stn : ¬ K .stn) (h_nvm : ¬ K .nvm) (h_staySeq : ¬ K .staySeq)
    (h_dram : ¬ K .dram) (h_clk : ¬ K .clk) (h_pwr : ¬ K .pwr) (h_net : ¬ K .net) (x0 : Sys2Proof.Entry)
    (h : Kept K a s) :
    ∃ t, execEngineStart x0 s = .next t ∧ Kept K a t := by
  unfold execEngineStart
  refine ⟨_, rfl, ?_⟩
  with_reducible repeat' first
    | (assumption) | (intro) | (apply kept_cmdEngineStart) | (apply kept_foldl) | (apply kept_foldl_snd)
    | (apply kept_foldl_fst) | (apply kept_ite) | (dsimp only) | (split)

theorem kept_execEngineStop (h_regs : ¬ K .regs) (h_mem : ¬ K .mem) (h_free : ¬ K .free) (h_out : ¬ K .out)
    (h_host : ¬ K .host) (h_err : ¬ K .err) (h_psq : ¬ K .psq) (h_ctx : ¬ K .ctx) (h_codec : ¬ K .codec)
    (h_stn : ¬ K .stn) (h_nvm : ¬ K .nvm) (h_staySeq : ¬ K .staySeq) (h_dram : ¬ K .dram) (h_mot : ¬ K .mot)
    (h_net : ¬ K .net) (x0 : Sys2Proof.Entry) (h : Kept K a s) :
    ∃ t, execEngineStop x0 s = .next t ∧ Kept K a t := by
  unfold execEngineStop
  refine ⟨_, rfl, ?_⟩
  with_reducible repeat' first
    | (assumption) | (intro) | (apply kept_cmdEngineStop) | (apply kept_foldl) | (apply kept_foldl_snd)
    | (apply kept_foldl_fst) | (apply kept_ite) | (dsimp only) | (split)

theorem kept_execRegionResetDone (h_regs : ¬ K .regs) (h_free : ¬ K .free) (h_out : ¬ K .out) (h_err : ¬ K .err)
    (h_psq : ¬ K .psq) (h_ctx : ¬ K .ctx) (h_stn : ¬ K .stn) (h_mot : ¬ K .mot) (x0 : Fin 7) (h : Kept K a s) :
    ∃ t, execRegionResetDone x0 s = .next t ∧ Kept K a t := by
  unfold execRegionResetDone
  refine ⟨_, rfl, ?_⟩
  with_reducible repeat' first
    | (assumption) | (intro) | (apply kept_live) | (apply kept_regionResetDone) | (apply kept_foldl)
    | (apply kept_foldl_snd) | (apply kept_foldl_fst) | (apply kept_ite) | (dsimp only) | (split)

theorem kept_execRegisterAdjust (h_regs : ¬ K .regs) (h_out : ¬ K .out) (h_host : ¬ K .host) (h_err : ¬ K .err)
    (h_psq : ¬ K .psq) (h_stn : ¬ K .stn) (h_nvm : ¬ K .nvm) (h_staySeq : ¬ K .staySeq) (h_dram : ¬ K .dram)
    (h_vis : ¬ K .vis) (h_net : ¬ K .net) (x0 : Sys2Proof.Entry) (x1 : BitVec 8) (x2 : BitVec 8) (x3 : BitVec 32) (x4
    : BitVec 32) (x5 : BitVec 8) (x6 : BitVec 32) (h : Kept K a s) :
    ∃ t, execRegisterAdjust x0 x1 x2 x3 x4 x5 x6 s = .next t ∧ Kept K a t := by
  unfold execRegisterAdjust
  refine ⟨_, rfl, ?_⟩
  with_reducible repeat' first
    | (assumption) | (intro) | (apply kept_cmdRegisterAdjust) | (apply kept_foldl) | (apply kept_foldl_snd)
    | (apply kept_foldl_fst) | (apply kept_ite) | (dsimp only) | (split)

theorem kept_execSheetAbort (h_regs : ¬ K .regs) (h_free : ¬ K .free) (h_out : ¬ K .out) (h_host : ¬ K .host)
    (h_err : ¬ K .err) (h_psq : ¬ K .psq) (h_ctx : ¬ K .ctx) (h_stn : ¬ K .stn) (h_nvm : ¬ K .nvm)
    (h_staySeq : ¬ K .staySeq) (h_dram : ¬ K .dram) (h_clk : ¬ K .clk) (h_net : ¬ K .net) (x0 : Sys2Proof.Entry) (x1
    : BitVec 32) (h : Kept K a s) :
    ∃ t, execSheetAbort x0 x1 s = .next t ∧ Kept K a t := by
  unfold execSheetAbort
  refine ⟨_, rfl, ?_⟩
  with_reducible repeat' first
    | (assumption) | (intro) | (apply kept_cmdSheetAbort) | (apply kept_foldl) | (apply kept_foldl_snd)
    | (apply kept_foldl_fst) | (apply kept_ite) | (dsimp only) | (split) | (apply kept_id)

theorem kept_execSheetCommit (h_regs : ¬ K .regs) (h_out : ¬ K .out) (h_host : ¬ K .host) (h_err : ¬ K .err)
    (h_psq : ¬ K .psq) (h_ctx : ¬ K .ctx) (h_codec : ¬ K .codec) (h_nvm : ¬ K .nvm) (h_staySeq : ¬ K .staySeq)
    (h_dram : ¬ K .dram) (h_net : ¬ K .net) (x0 : Sys2Proof.Entry) (x1 : BitVec 32) (x2 : BitVec 8) (x3 : BitVec 8)
    (x4 : BitVec 64) (x5 : BitVec 32) (x6 : BitVec 32) (x7 : BitVec 64) (h : Kept K a s) :
    ∃ t, execSheetCommit x0 x1 x2 x3 x4 x5 x6 x7 s = .next t ∧ Kept K a t := by
  unfold execSheetCommit
  refine ⟨_, rfl, ?_⟩
  with_reducible repeat' first
    | (assumption) | (intro) | (apply kept_cmdSheetCommit) | (apply kept_foldl) | (apply kept_foldl_snd)
    | (apply kept_foldl_fst) | (apply kept_ite) | (dsimp only) | (split) | (apply kept_id)

theorem kept_execSpeedSet (h_regs : ¬ K .regs) (h_out : ¬ K .out) (h_host : ¬ K .host) (h_err : ¬ K .err)
    (h_psq : ¬ K .psq) (h_ctx : ¬ K .ctx) (h_stn : ¬ K .stn) (h_nvm : ¬ K .nvm) (h_staySeq : ¬ K .staySeq)
    (h_dram : ¬ K .dram) (h_clk : ¬ K .clk) (h_net : ¬ K .net) (x0 : Sys2Proof.Entry) (x1 : BitVec 32) (x2 : BitVec
    8) (h : Kept K a s) :
    ∃ t, execSpeedSet x0 x1 x2 s = .next t ∧ Kept K a t := by
  unfold execSpeedSet
  refine ⟨_, rfl, ?_⟩
  with_reducible repeat' first
    | (assumption) | (intro) | (apply kept_cmdSpeedSet) | (apply kept_foldl) | (apply kept_foldl_snd)
    | (apply kept_foldl_fst) | (apply kept_ite) | (dsimp only) | (split)

theorem kept_execStationCfg (h_regs : ¬ K .regs) (h_out : ¬ K .out) (h_host : ¬ K .host) (h_err : ¬ K .err)
    (h_psq : ¬ K .psq) (h_stn : ¬ K .stn) (h_nvm : ¬ K .nvm) (h_staySeq : ¬ K .staySeq) (h_dram : ¬ K .dram)
    (h_clk : ¬ K .clk) (h_net : ¬ K .net) (x0 : Sys2Proof.Entry) (x1 : BitVec 8) (x2 : BitVec 8) (x3 : BitVec 64)
    (h : Kept K a s) :
    ∃ t, execStationCfg x0 x1 x2 x3 s = .next t ∧ Kept K a t := by
  unfold execStationCfg
  refine ⟨_, rfl, ?_⟩
  with_reducible repeat' first
    | (assumption) | (intro) | (apply kept_cmdStationCfg) | (apply kept_foldl) | (apply kept_foldl_snd)
    | (apply kept_foldl_fst) | (apply kept_ite) | (dsimp only) | (split)

theorem kept_execCeEccError (h_regs : ¬ K .regs) (h_out : ¬ K .out) (h_host : ¬ K .host) (h_err : ¬ K .err)
    (h_nvm : ¬ K .nvm) (h_staySeq : ¬ K .staySeq) (h_mot : ¬ K .mot) (h_net : ¬ K .net) (x0 : Fin 4) (x1 : Fin 4096)
    (x2 : Bool) (h : Kept K a s) :
    ∃ t, execCeEccError x0 x1 x2 s = .next t ∧ Kept K a t := by
  unfold execCeEccError
  refine ⟨_, rfl, ?_⟩
  with_reducible repeat' first
    | (assumption) | (intro) | (apply kept_live) | (apply kept_ceEcc) | (apply kept_foldl) | (apply kept_foldl_snd)
    | (apply kept_foldl_fst) | (apply kept_ite) | (dsimp only) | (split)

theorem kept_execCoefWrite (h_regs : ¬ K .regs) (h_mot : ¬ K .mot) (x0 : Fin 4096) (x1 : Sys2Proof.Word)
    (h : Kept K a s) :
    ∃ t, execCoefWrite x0 x1 s = .next t ∧ Kept K a t := by
  unfold execCoefWrite
  refine ⟨_, rfl, ?_⟩
  with_reducible repeat' first
    | (assumption) | (intro) | (apply kept_hostAt) | (apply kept_coefWrite) | (apply kept_foldl)
    | (apply kept_foldl_snd) | (apply kept_foldl_fst) | (apply kept_ite) | (dsimp only) | (split)

theorem kept_execLoopDisable (h_regs : ¬ K .regs) (h_mot : ¬ K .mot) (x0 : Fin 64) (x1 : Sys2Proof.Word)
    (h : Kept K a s) :
    ∃ t, execLoopDisable x0 x1 s = .next t ∧ Kept K a t := by
  unfold execLoopDisable
  refine ⟨_, rfl, ?_⟩
  with_reducible repeat' first
    | (assumption) | (intro) | (apply kept_hostAt) | (apply kept_lpCfgWrite) | (apply kept_foldl)
    | (apply kept_foldl_snd) | (apply kept_foldl_fst) | (apply kept_ite) | (dsimp only) | (split)

theorem kept_execLoopEnable (h_regs : ¬ K .regs) (h_mot : ¬ K .mot) (x0 : Fin 64) (x1 : Sys2Proof.Word)
    (h : Kept K a s) :
    ∃ t, execLoopEnable x0 x1 s = .next t ∧ Kept K a t := by
  unfold execLoopEnable
  refine ⟨_, rfl, ?_⟩
  with_reducible repeat' first
    | (assumption) | (intro) | (apply kept_hostAt) | (apply kept_lpCfgWrite) | (apply kept_foldl)
    | (apply kept_foldl_snd) | (apply kept_foldl_fst) | (apply kept_ite) | (dsimp only) | (split)

theorem kept_execNodeWrite (h_regs : ¬ K .regs) (x0 : Fin 1024) (x1 : Sys2Proof.Word) (h : Kept K a s) :
    ∃ t, execNodeWrite x0 x1 s = .next t ∧ Kept K a t := by
  unfold execNodeWrite
  refine ⟨_, rfl, ?_⟩
  with_reducible repeat' first
    | (assumption) | (intro) | (apply kept_hostAt) | (apply kept_nodeWrite) | (apply kept_foldl)
    | (apply kept_foldl_snd) | (apply kept_foldl_fst) | (apply kept_ite) | (dsimp only) | (split)

theorem kept_execStagedCoefApply (h_regs : ¬ K .regs) (h_mot : ¬ K .mot)  (h : Kept K a s) :
    ∃ t, execStagedCoefApply s = .next t ∧ Kept K a t := by
  unfold execStagedCoefApply
  refine ⟨_, rfl, ?_⟩
  with_reducible repeat' first
    | (assumption) | (intro) | (apply kept_live) | (apply kept_stagedApply) | (apply kept_foldl)
    | (apply kept_foldl_snd) | (apply kept_foldl_fst) | (apply kept_ite) | (dsimp only) | (split)

theorem kept_execTimebaseTick (h_regs : ¬ K .regs) (h_mot : ¬ K .mot) (x0 : Fin 8) (x1 : List (BitVec 11 × BitVec
    20)) (x2 : BitVec 32) (x3 : BitVec 32) (x4 : List (BitVec 8)) (h : Kept K a s) :
    ∃ t, execTimebaseTick x0 x1 x2 x3 x4 s = .next t ∧ Kept K a t := by
  unfold execTimebaseTick
  refine ⟨_, rfl, ?_⟩
  with_reducible repeat' first
    | (assumption) | (intro) | (apply kept_live) | (apply kept_tbTick) | (apply kept_foldl) | (apply kept_foldl_snd)
    | (apply kept_foldl_fst) | (apply kept_ite) | (dsimp only) | (split)

theorem kept_execTraceAbort (h_regs : ¬ K .regs) (h_mot : ¬ K .mot) (x0 : Fin 4) (x1 : Sys2Proof.Word)
    (h : Kept K a s) :
    ∃ t, execTraceAbort x0 x1 s = .next t ∧ Kept K a t := by
  unfold execTraceAbort
  refine ⟨_, rfl, ?_⟩
  with_reducible repeat' first
    | (assumption) | (intro) | (apply kept_hostAt) | (apply kept_tuCfgWrite) | (apply kept_foldl)
    | (apply kept_foldl_snd) | (apply kept_foldl_fst) | (apply kept_ite) | (dsimp only) | (split)

theorem kept_execTraceArm (h_regs : ¬ K .regs) (h_mot : ¬ K .mot) (x0 : Fin 4) (x1 : Sys2Proof.Word) (h : Kept K a s)
    :
    ∃ t, execTraceArm x0 x1 s = .next t ∧ Kept K a t := by
  unfold execTraceArm
  refine ⟨_, rfl, ?_⟩
  with_reducible repeat' first
    | (assumption) | (intro) | (apply kept_hostAt) | (apply kept_tuCfgWrite) | (apply kept_foldl)
    | (apply kept_foldl_snd) | (apply kept_foldl_fst) | (apply kept_ite) | (dsimp only) | (split)

theorem kept_execTraceDone (h_regs : ¬ K .regs) (x0 : Fin 4) (h : Kept K a s) :
    ∃ t, execTraceDone x0 s = .next t ∧ Kept K a t := by
  unfold execTraceDone
  refine ⟨_, rfl, ?_⟩
  with_reducible repeat' first
    | (assumption) | (intro) | (apply kept_live) | (apply kept_traceDone) | (apply kept_foldl)
    | (apply kept_foldl_snd) | (apply kept_foldl_fst) | (apply kept_ite) | (dsimp only) | (split)

theorem kept_execTraceForce (h_regs : ¬ K .regs) (h_mot : ¬ K .mot) (x0 : Fin 4) (x1 : Sys2Proof.Word)
    (h : Kept K a s) :
    ∃ t, execTraceForce x0 x1 s = .next t ∧ Kept K a t := by
  unfold execTraceForce
  refine ⟨_, rfl, ?_⟩
  with_reducible repeat' first
    | (assumption) | (intro) | (apply kept_hostAt) | (apply kept_tuCfgWrite) | (apply kept_foldl)
    | (apply kept_foldl_snd) | (apply kept_foldl_fst) | (apply kept_ite) | (dsimp only) | (split)

theorem kept_execWideWordWrite (h_regs : ¬ K .regs) (h_mot : ¬ K .mot) (x0 : Bool) (x1 : Fin 4096) (x2 :
    Sys2Proof.Word) (h : Kept K a s) :
    ∃ t, execWideWordWrite x0 x1 x2 s = .next t ∧ Kept K a t := by
  unfold execWideWordWrite
  refine ⟨_, rfl, ?_⟩
  with_reducible repeat' first
    | (assumption) | (intro) | (apply kept_hostAt) | (apply kept_wideWrite) | (apply kept_foldl)
    | (apply kept_foldl_snd) | (apply kept_foldl_fst) | (apply kept_ite) | (dsimp only) | (split)

theorem kept_execDmaAbort (h_regs : ¬ K .regs) (h_mem : ¬ K .mem) (h_free : ¬ K .free) (h_out : ¬ K .out)
    (h_host : ¬ K .host) (h_err : ¬ K .err) (h_stn : ¬ K .stn) (h_nvm : ¬ K .nvm) (h_staySeq : ¬ K .staySeq)
    (h_dram : ¬ K .dram) (h_mot : ¬ K .mot) (h_net : ¬ K .net) (h_dma : ¬ K .dma) (x0 : Fin 64) (x1 : Sys2Proof.Word)
    (h : Kept K a s) :
    ∃ t, execDmaAbort x0 x1 s = .next t ∧ Kept K a t := by
  unfold execDmaAbort
  refine ⟨_, rfl, ?_⟩
  with_reducible repeat' first
    | (assumption) | (intro) | (apply kept_hostAt) | (apply kept_dmaCtrlWrite) | (apply kept_foldl)
    | (apply kept_foldl_snd) | (apply kept_foldl_fst) | (apply kept_ite) | (dsimp only) | (split)

theorem kept_execDmaCountWrite (h_regs : ¬ K .regs) (x0 : Fin 64) (x1 : Sys2Proof.Word) (h : Kept K a s) :
    ∃ t, execDmaCountWrite x0 x1 s = .next t ∧ Kept K a t := by
  unfold execDmaCountWrite
  refine ⟨_, rfl, ?_⟩
  with_reducible repeat' first
    | (assumption) | (intro) | (apply kept_hostAt) | (apply kept_State_plainWrite) | (apply kept_foldl)
    | (apply kept_foldl_snd) | (apply kept_foldl_fst) | (apply kept_ite) | (dsimp only) | (split)

theorem kept_execDmaDescComplete (h_regs : ¬ K .regs) (h_mem : ¬ K .mem) (h_free : ¬ K .free) (h_out : ¬ K .out)
    (h_host : ¬ K .host) (h_err : ¬ K .err) (h_stn : ¬ K .stn) (h_nvm : ¬ K .nvm) (h_staySeq : ¬ K .staySeq)
    (h_dram : ¬ K .dram) (h_mot : ¬ K .mot) (h_net : ¬ K .net) (h_dma : ¬ K .dma) (x0 : Fin 64) (x1 : List
    Sys2Proof.Byte) (h : Kept K a s) :
    ∃ t, execDmaDescComplete x0 x1 s = .next t ∧ Kept K a t := by
  unfold execDmaDescComplete
  refine ⟨_, rfl, ?_⟩
  with_reducible repeat' first
    | (assumption) | (intro) | (apply kept_live) | (apply kept_dmaComplete) | (apply kept_foldl)
    | (apply kept_foldl_snd) | (apply kept_foldl_fst) | (apply kept_ite) | (dsimp only) | (split)

theorem kept_execDmaDescFetch (h_regs : ¬ K .regs) (h_free : ¬ K .free) (h_out : ¬ K .out) (h_host : ¬ K .host)
    (h_err : ¬ K .err) (h_nvm : ¬ K .nvm) (h_staySeq : ¬ K .staySeq) (h_dram : ¬ K .dram) (h_net : ¬ K .net)
    (h_dma : ¬ K .dma) (x0 : Fin 64) (x1 : Option (List Sys2Proof.Byte)) (h : Kept K a s) :
    ∃ t, execDmaDescFetch x0 x1 s = .next t ∧ Kept K a t := by
  unfold execDmaDescFetch
  refine ⟨_, rfl, ?_⟩
  with_reducible repeat' first
    | (assumption) | (intro) | (apply kept_live) | (apply kept_dmaFetch) | (apply kept_foldl)
    | (apply kept_foldl_snd) | (apply kept_foldl_fst) | (apply kept_ite) | (dsimp only) | (split)

theorem kept_execDmaEnable (h_regs : ¬ K .regs) (h_mem : ¬ K .mem) (h_free : ¬ K .free) (h_out : ¬ K .out)
    (h_host : ¬ K .host) (h_err : ¬ K .err) (h_stn : ¬ K .stn) (h_nvm : ¬ K .nvm) (h_staySeq : ¬ K .staySeq)
    (h_dram : ¬ K .dram) (h_mot : ¬ K .mot) (h_net : ¬ K .net) (h_dma : ¬ K .dma) (x0 : Fin 64) (x1 : Sys2Proof.Word)
    (h : Kept K a s) :
    ∃ t, execDmaEnable x0 x1 s = .next t ∧ Kept K a t := by
  unfold execDmaEnable
  refine ⟨_, rfl, ?_⟩
  with_reducible repeat' first
    | (assumption) | (intro) | (apply kept_hostAt) | (apply kept_dmaCtrlWrite) | (apply kept_foldl)
    | (apply kept_foldl_snd) | (apply kept_foldl_fst) | (apply kept_ite) | (dsimp only) | (split)

theorem kept_execDmaFenceClear (h_regs : ¬ K .regs) (h_dma : ¬ K .dma) (x0 : Fin 64) (h : Kept K a s) :
    ∃ t, execDmaFenceClear x0 s = .next t ∧ Kept K a t := by
  unfold execDmaFenceClear
  refine ⟨_, rfl, ?_⟩
  with_reducible repeat' first
    | (assumption) | (intro) | (apply kept_live) | (apply kept_dmaRun) | (apply kept_foldl) | (apply kept_foldl_snd)
    | (apply kept_foldl_fst) | (apply kept_ite) | (dsimp only) | (split)

theorem kept_execDmaHostReadError (h_regs : ¬ K .regs) (h_mem : ¬ K .mem) (h_free : ¬ K .free) (h_out : ¬ K .out)
    (h_host : ¬ K .host) (h_err : ¬ K .err) (h_stn : ¬ K .stn) (h_nvm : ¬ K .nvm) (h_staySeq : ¬ K .staySeq)
    (h_dram : ¬ K .dram) (h_mot : ¬ K .mot) (h_net : ¬ K .net) (h_dma : ¬ K .dma) (x0 : Fin 64) (x1 : List
    Sys2Proof.Byte) (h : Kept K a s) :
    ∃ t, execDmaHostReadError x0 x1 s = .next t ∧ Kept K a t := by
  unfold execDmaHostReadError
  refine ⟨_, rfl, ?_⟩
  with_reducible repeat' first
    | (assumption) | (intro) | (apply kept_live) | (apply kept_dmaHostError) | (apply kept_foldl)
    | (apply kept_foldl_snd) | (apply kept_foldl_fst) | (apply kept_ite) | (dsimp only) | (split)

theorem kept_execDmaTimerPulse (h_regs : ¬ K .regs) (h_dma : ¬ K .dma) (x0 : Fin 8) (h : Kept K a s) :
    ∃ t, execDmaTimerPulse x0 s = .next t ∧ Kept K a t := by
  unfold execDmaTimerPulse
  refine ⟨_, rfl, ?_⟩
  with_reducible repeat' first
    | (assumption) | (intro) | (apply kept_live) | (apply kept_dmaTimer) | (apply kept_foldl)
    | (apply kept_foldl_snd) | (apply kept_foldl_fst) | (apply kept_ite) | (dsimp only) | (split)

theorem kept_execDmaTrigger (h_regs : ¬ K .regs) (h_dma : ¬ K .dma) (x0 : Fin 64) (h : Kept K a s) :
    ∃ t, execDmaTrigger x0 s = .next t ∧ Kept K a t := by
  unfold execDmaTrigger
  refine ⟨_, rfl, ?_⟩
  with_reducible repeat' first
    | (assumption) | (intro) | (apply kept_live) | (apply kept_dmaInput) | (apply kept_foldl)
    | (apply kept_foldl_snd) | (apply kept_foldl_fst) | (apply kept_ite) | (dsimp only) | (split)

theorem kept_execDramMr4Poll (h_regs : ¬ K .regs) (h_out : ¬ K .out) (h_host : ¬ K .host) (h_err : ¬ K .err)
    (h_nvm : ¬ K .nvm) (h_staySeq : ¬ K .staySeq) (h_net : ¬ K .net) (x0 : Fin 2) (x1 : Bool) (x2 : Bool)
    (h : Kept K a s) :
    ∃ t, execDramMr4Poll x0 x1 x2 s = .next t ∧ Kept K a t := by
  unfold execDramMr4Poll
  refine ⟨_, rfl, ?_⟩
  with_reducible repeat' first
    | (assumption) | (intro) | (apply kept_live) | (apply kept_mr4Poll) | (apply kept_foldl) | (apply kept_foldl_snd)
    | (apply kept_foldl_fst) | (apply kept_ite) | (dsimp only) | (split)

theorem kept_execDramMrw (h_out : ¬ K .out) (h_dram : ¬ K .dram) (x0 : Fin 2) (h : Kept K a s) :
    ∃ t, execDramMrw x0 s = .next t ∧ Kept K a t := by
  unfold execDramMrw
  refine ⟨_, rfl, ?_⟩
  with_reducible repeat' first
    | (assumption) | (intro) | (apply kept_live) | (apply kept_trainMrw) | (apply kept_foldl)
    | (apply kept_foldl_snd) | (apply kept_foldl_fst) | (apply kept_ite) | (dsimp only) | (split)

theorem kept_execDramRead (h_regs : ¬ K .regs) (h_free : ¬ K .free) (h_out : ¬ K .out) (h_host : ¬ K .host)
    (h_err : ¬ K .err) (h_nvm : ¬ K .nvm) (h_staySeq : ¬ K .staySeq) (h_dram : ¬ K .dram) (h_net : ¬ K .net) (x0 :
    BitVec 37) (x1 : Fin 65) (x2 : Fin 3) (x3 : Bool) (h : Kept K a s) :
    ∃ t, execDramRead x0 x1 x2 x3 s = .next t ∧ Kept K a t := by
  unfold execDramRead
  refine ⟨_, rfl, ?_⟩
  with_reducible repeat' first
    | (assumption) | (intro) | (apply kept_live) | (apply kept_dramRead) | (apply kept_foldl)
    | (apply kept_foldl_snd) | (apply kept_foldl_fst) | (apply kept_ite) | (dsimp only) | (split)

theorem kept_execDramRefresh (h_regs : ¬ K .regs) (h_out : ¬ K .out) (h_dram : ¬ K .dram) (x0 : Fin 2)
    (h : Kept K a s) :
    ∃ t, execDramRefresh x0 s = .next t ∧ Kept K a t := by
  unfold execDramRefresh
  refine ⟨_, rfl, ?_⟩
  with_reducible repeat' first
    | (assumption) | (intro) | (apply kept_live) | (apply kept_dramRefresh) | (apply kept_foldl)
    | (apply kept_foldl_snd) | (apply kept_foldl_fst) | (apply kept_ite) | (dsimp only) | (split)

theorem kept_execDramSavedVerify (h_regs : ¬ K .regs) (h_dram : ¬ K .dram) (x0 : Fin 2) (x1 : Bool) (x2 : BitVec 16)
    (h : Kept K a s) :
    ∃ t, execDramSavedVerify x0 x1 x2 s = .next t ∧ Kept K a t := by
  unfold execDramSavedVerify
  refine ⟨_, rfl, ?_⟩
  with_reducible repeat' first
    | (assumption) | (intro) | (apply kept_live) | (apply kept_savedVerify) | (apply kept_foldl)
    | (apply kept_foldl_snd) | (apply kept_foldl_fst) | (apply kept_ite) | (dsimp only) | (split)

theorem kept_execDramTrainEnd (h_regs : ¬ K .regs) (h_dram : ¬ K .dram) (x0 : Fin 2) (x1 : BitVec 16)
    (h : Kept K a s) :
    ∃ t, execDramTrainEnd x0 x1 s = .next t ∧ Kept K a t := by
  unfold execDramTrainEnd
  refine ⟨_, rfl, ?_⟩
  with_reducible repeat' first
    | (assumption) | (intro) | (apply kept_live) | (apply kept_trainEnd) | (apply kept_foldl)
    | (apply kept_foldl_snd) | (apply kept_foldl_fst) | (apply kept_ite) | (dsimp only) | (split)

theorem kept_execDramTrainForget (h_regs : ¬ K .regs) (h_dram : ¬ K .dram) (x0 : Sys2Proof.Word) (h : Kept K a s) :
    ∃ t, execDramTrainForget x0 s = .next t ∧ Kept K a t := by
  unfold execDramTrainForget
  refine ⟨_, rfl, ?_⟩
  with_reducible repeat' first
    | (assumption) | (intro) | (apply kept_hostAt) | (apply kept_tctrlWrite) | (apply kept_foldl)
    | (apply kept_foldl_snd) | (apply kept_foldl_fst) | (apply kept_ite) | (dsimp only) | (split)

theorem kept_execDramTrainPhase (h_regs : ¬ K .regs) (h_free : ¬ K .free) (h_out : ¬ K .out) (h_host : ¬ K .host)
    (h_err : ¬ K .err) (h_psq : ¬ K .psq) (h_ctx : ¬ K .ctx) (h_codec : ¬ K .codec) (h_stn : ¬ K .stn)
    (h_nvm : ¬ K .nvm) (h_staySeq : ¬ K .staySeq) (h_dram : ¬ K .dram) (h_mot : ¬ K .mot) (h_vis : ¬ K .vis)
    (h_net : ¬ K .net) (x0 : Fin 2) (x1 : BitVec 8) (x2 : BitVec 32) (x3 : BitVec 16) (h : Kept K a s) :
    ∃ t, execDramTrainPhase x0 x1 x2 x3 s = .next t ∧ Kept K a t := by
  unfold execDramTrainPhase
  refine ⟨_, rfl, ?_⟩
  with_reducible repeat' first
    | (assumption) | (intro) | (apply kept_live) | (apply kept_trainPhase) | (apply kept_foldl)
    | (apply kept_foldl_snd) | (apply kept_foldl_fst) | (apply kept_ite) | (dsimp only) | (split)

theorem kept_execDramTrainSave (h_regs : ¬ K .regs) (h_dram : ¬ K .dram) (x0 : Sys2Proof.Word) (h : Kept K a s) :
    ∃ t, execDramTrainSave x0 s = .next t ∧ Kept K a t := by
  unfold execDramTrainSave
  refine ⟨_, rfl, ?_⟩
  with_reducible repeat' first
    | (assumption) | (intro) | (apply kept_hostAt) | (apply kept_tctrlWrite) | (apply kept_foldl)
    | (apply kept_foldl_snd) | (apply kept_foldl_fst) | (apply kept_ite) | (dsimp only) | (split)

theorem kept_execDramTrainWait (h_dram : ¬ K .dram) (x0 : Fin 2) (h : Kept K a s) :
    ∃ t, execDramTrainWait x0 s = .next t ∧ Kept K a t := by
  unfold execDramTrainWait
  refine ⟨_, rfl, ?_⟩
  with_reducible repeat' first
    | (assumption) | (intro) | (apply kept_live) | (apply kept_trainWait) | (apply kept_foldl)
    | (apply kept_foldl_snd) | (apply kept_foldl_fst) | (apply kept_ite) | (dsimp only) | (split)

theorem kept_execDramWrite (h_regs : ¬ K .regs) (h_mem : ¬ K .mem) (h_dram : ¬ K .dram) (x0 : BitVec 37) (x1 : List
    (BitVec 8)) (x2 : Bool) (h : Kept K a s) :
    ∃ t, execDramWrite x0 x1 x2 s = .next t ∧ Kept K a t := by
  unfold execDramWrite
  refine ⟨_, rfl, ?_⟩
  with_reducible repeat' first
    | (assumption) | (intro) | (apply kept_live) | (apply kept_dramWrite) | (apply kept_foldl)
    | (apply kept_foldl_snd) | (apply kept_foldl_fst) | (apply kept_ite) | (dsimp only) | (split)

theorem kept_execDramZqcal (h_out : ¬ K .out) (h_dram : ¬ K .dram) (x0 : Fin 2) (h : Kept K a s) :
    ∃ t, execDramZqcal x0 s = .next t ∧ Kept K a t := by
  unfold execDramZqcal
  refine ⟨_, rfl, ?_⟩
  with_reducible repeat' first
    | (assumption) | (intro) | (apply kept_live) | (apply kept_trainZqcal) | (apply kept_foldl)
    | (apply kept_foldl_snd) | (apply kept_foldl_fst) | (apply kept_ite) | (dsimp only) | (split)

theorem kept_execNeighbourRefresh (h_regs : ¬ K .regs) (h_out : ¬ K .out) (h_dram : ¬ K .dram) (x0 : Fin 2) (x1 : Fin
    128) (h : Kept K a s) :
    ∃ t, execNeighbourRefresh x0 x1 s = .next t ∧ Kept K a t := by
  unfold execNeighbourRefresh
  refine ⟨_, rfl, ?_⟩
  with_reducible repeat' first
    | (assumption) | (intro) | (apply kept_live) | (apply kept_neighbour) | (apply kept_foldl)
    | (apply kept_foldl_snd) | (apply kept_foldl_fst) | (apply kept_ite) | (dsimp only) | (split)

theorem kept_execScrubRead (h_regs : ¬ K .regs) (h_out : ¬ K .out) (h_host : ¬ K .host) (h_err : ¬ K .err)
    (h_nvm : ¬ K .nvm) (h_staySeq : ¬ K .staySeq) (h_dram : ¬ K .dram) (h_net : ¬ K .net) (x0 : Fin 2) (x1 : Fin 3)
    (h : Kept K a s) :
    ∃ t, execScrubRead x0 x1 s = .next t ∧ Kept K a t := by
  unfold execScrubRead
  refine ⟨_, rfl, ?_⟩
  with_reducible repeat' first
    | (assumption) | (intro) | (apply kept_live) | (apply kept_scrubRead) | (apply kept_foldl)
    | (apply kept_foldl_snd) | (apply kept_foldl_fst) | (apply kept_ite) | (dsimp only) | (split)

theorem kept_execSrEntered (h_regs : ¬ K .regs) (h_out : ¬ K .out) (h_dram : ¬ K .dram)  (h : Kept K a s) :
    ∃ t, execSrEntered s = .next t ∧ Kept K a t := by
  unfold execSrEntered
  refine ⟨_, rfl, ?_⟩
  with_reducible repeat' first
    | (assumption) | (intro) | (apply kept_live) | (apply kept_srEntered) | (apply kept_foldl)
    | (apply kept_foldl_snd) | (apply kept_foldl_fst) | (apply kept_ite) | (dsimp only) | (split)

theorem kept_execSrExit (h_regs : ¬ K .regs) (x0 : Sys2Proof.Word) (h : Kept K a s) :
    ∃ t, execSrExit x0 s = .next t ∧ Kept K a t := by
  unfold execSrExit
  refine ⟨_, rfl, ?_⟩
  with_reducible repeat' first
    | (assumption) | (intro) | (apply kept_hostAt) | (apply kept_srWrite) | (apply kept_foldl)
    | (apply kept_foldl_snd) | (apply kept_foldl_fst) | (apply kept_ite) | (dsimp only) | (split)

theorem kept_execSrRequest (h_regs : ¬ K .regs) (x0 : Sys2Proof.Word) (h : Kept K a s) :
    ∃ t, execSrRequest x0 s = .next t ∧ Kept K a t := by
  unfold execSrRequest
  refine ⟨_, rfl, ?_⟩
  with_reducible repeat' first
    | (assumption) | (intro) | (apply kept_hostAt) | (apply kept_srWrite) | (apply kept_foldl)
    | (apply kept_foldl_snd) | (apply kept_foldl_fst) | (apply kept_ite) | (dsimp only) | (split)

theorem kept_execEthLinkChange (h_regs : ¬ K .regs) (h_net : ¬ K .net) (x0 : Fin 2) (x1 : Bool) (x2 : BitVec 2)
    (h : Kept K a s) :
    ∃ t, execEthLinkChange x0 x1 x2 s = .next t ∧ Kept K a t := by
  unfold execEthLinkChange
  refine ⟨_, rfl, ?_⟩
  with_reducible repeat' first
    | (assumption) | (intro) | (apply kept_live) | (apply kept_linkChange) | (apply kept_foldl)
    | (apply kept_foldl_snd) | (apply kept_foldl_fst) | (apply kept_ite) | (dsimp only) | (split)

theorem kept_execEthRxPop (h_regs : ¬ K .regs) (h_net : ¬ K .net) (x0 : Fin 2) (x1 : Sys2Proof.Word) (h : Kept K a s)
    :
    ∃ t, execEthRxPop x0 x1 s = .next t ∧ Kept K a t := by
  unfold execEthRxPop
  refine ⟨_, rfl, ?_⟩
  with_reducible repeat' first
    | (assumption) | (intro) | (apply kept_hostAt) | (apply kept_prxWrite) | (apply kept_foldl)
    | (apply kept_foldl_snd) | (apply kept_foldl_fst) | (apply kept_ite) | (dsimp only) | (split)

theorem kept_execEthSend (h_regs : ¬ K .regs) (h_net : ¬ K .net) (x0 : Fin 2) (x1 : Sys2Proof.Word) (h : Kept K a s) :
    ∃ t, execEthSend x0 x1 s = .next t ∧ Kept K a t := by
  unfold execEthSend
  refine ⟨_, rfl, ?_⟩
  with_reducible repeat' first
    | (assumption) | (intro) | (apply kept_hostAt) | (apply kept_ptxWrite) | (apply kept_foldl)
    | (apply kept_foldl_snd) | (apply kept_foldl_fst) | (apply kept_ite) | (dsimp only) | (split)

theorem kept_execEthTsPop (h_regs : ¬ K .regs) (h_net : ¬ K .net) (x0 : Fin 2) (x1 : Sys2Proof.Word) (h : Kept K a s)
    :
    ∃ t, execEthTsPop x0 x1 s = .next t ∧ Kept K a t := by
  unfold execEthTsPop
  refine ⟨_, rfl, ?_⟩
  with_reducible repeat' first
    | (assumption) | (intro) | (apply kept_hostAt) | (apply kept_prxWrite) | (apply kept_foldl)
    | (apply kept_foldl_snd) | (apply kept_foldl_fst) | (apply kept_ite) | (dsimp only) | (split)

theorem kept_execEthTxDone (h_regs : ¬ K .regs) (h_out : ¬ K .out) (h_net : ¬ K .net) (x0 : Fin 2) (h : Kept K a s) :
    ∃ t, execEthTxDone x0 s = .next t ∧ Kept K a t := by
  unfold execEthTxDone
  refine ⟨_, rfl, ?_⟩
  with_reducible repeat' first
    | (assumption) | (intro) | (apply kept_live) | (apply kept_txDone) | (apply kept_foldl) | (apply kept_foldl_snd)
    | (apply kept_foldl_fst) | (apply kept_ite) | (dsimp only) | (split)

theorem kept_execSheetAdmission (h_regs : ¬ K .regs) (h_out : ¬ K .out) (h_host : ¬ K .host) (h_psq : ¬ K .psq)
    (h_ctx : ¬ K .ctx) (h_codec : ¬ K .codec) (h_stn : ¬ K .stn) (x0 : Fin 256) (h : Kept K a s) :
    ∃ t, execSheetAdmission x0 s = .next t ∧ Kept K a t := by
  unfold execSheetAdmission
  refine ⟨_, rfl, ?_⟩
  with_reducible repeat' first
    | (assumption) | (intro) | (apply kept_live) | (apply kept_holdSync) | (apply kept_admission)
    | (apply kept_foldl) | (apply kept_foldl_snd) | (apply kept_foldl_fst) | (apply kept_ite) | (dsimp only)
    | (split)

theorem kept_execCqDoorbell (h_regs : ¬ K .regs) (h_mem : ¬ K .mem) (h_free : ¬ K .free) (h_out : ¬ K .out)
    (h_host : ¬ K .host) (h_err : ¬ K .err) (h_psq : ¬ K .psq) (h_ctx : ¬ K .ctx) (h_codec : ¬ K .codec)
    (h_stn : ¬ K .stn) (h_nvm : ¬ K .nvm) (h_staySeq : ¬ K .staySeq) (h_dram : ¬ K .dram) (h_clk : ¬ K .clk)
    (h_mot : ¬ K .mot) (h_pwr : ¬ K .pwr) (h_thm : ¬ K .thm) (h_vis : ¬ K .vis) (h_net : ¬ K .net) (x0 : Fin 16) (x1
    : Sys2Proof.Word) (h : Kept K a s) :
    ∃ t, execCqDoorbell x0 x1 s = .next t ∧ Kept K a t := by
  unfold execCqDoorbell
  refine ⟨_, rfl, ?_⟩
  with_reducible repeat' first
    | (assumption) | (intro) | (apply kept_ringFreed) | (apply kept_hostAt) | (apply kept_cqDoorbell)
    | (apply kept_foldl) | (apply kept_foldl_snd) | (apply kept_foldl_fst) | (apply kept_ite) | (dsimp only)
    | (split)

theorem kept_execRegisterWrite (h_regs : ¬ K .regs) (h_latch : ¬ K .latch) (h_mem : ¬ K .mem) (h_time : ¬ K .time)
    (h_free : ¬ K .free) (h_out : ¬ K .out) (h_host : ¬ K .host) (h_err : ¬ K .err) (h_psq : ¬ K .psq)
    (h_ctx : ¬ K .ctx) (h_codec : ¬ K .codec) (h_stn : ¬ K .stn) (h_epoch : ¬ K .epoch) (h_nvm : ¬ K .nvm)
    (h_staySeq : ¬ K .staySeq) (h_dram : ¬ K .dram) (h_clk : ¬ K .clk) (h_mon : ¬ K .mon) (h_rig : ¬ K .rig)
    (h_mot : ¬ K .mot) (h_pwr : ¬ K .pwr) (h_thm : ¬ K .thm) (h_vis : ¬ K .vis) (h_net : ¬ K .net) (h_dma : ¬ K .dma)
    (x0 : BitVec 26) (x1 : Fin 16) (x2 : Sys2Proof.Word) (h : Kept K a s) :
    ∃ t, execRegisterWrite x0 x1 x2 s = .next t ∧ Kept K a t := by
  unfold execRegisterWrite
  refine ⟨_, rfl, ?_⟩
  with_reducible repeat' first
    | (assumption) | (intro) | (apply kept_ringFreed) | (apply kept_hostWrite) | (apply kept_foldl)
    | (apply kept_foldl_snd) | (apply kept_foldl_fst) | (apply kept_ite) | (dsimp only) | (split)

theorem kept_execSrExitDone (h_regs : ¬ K .regs) (h_latch : ¬ K .latch) (h_mem : ¬ K .mem) (h_time : ¬ K .time)
    (h_free : ¬ K .free) (h_out : ¬ K .out) (h_host : ¬ K .host) (h_err : ¬ K .err) (h_psq : ¬ K .psq)
    (h_ctx : ¬ K .ctx) (h_codec : ¬ K .codec) (h_stn : ¬ K .stn) (h_epoch : ¬ K .epoch) (h_nvm : ¬ K .nvm)
    (h_staySeq : ¬ K .staySeq) (h_dram : ¬ K .dram) (h_clk : ¬ K .clk) (h_mon : ¬ K .mon) (h_rig : ¬ K .rig)
    (h_mot : ¬ K .mot) (h_pwr : ¬ K .pwr) (h_thm : ¬ K .thm) (h_vis : ¬ K .vis) (h_net : ¬ K .net) (h_dma : ¬ K .dma)
     (h : Kept K a s) :
    ∃ t, execSrExitDone s = .next t ∧ Kept K a t := by
  unfold execSrExitDone
  refine ⟨_, rfl, ?_⟩
  with_reducible repeat' first
    | (assumption) | (intro) | (apply kept_live) | (apply kept_srExit) | (apply kept_foldl) | (apply kept_foldl_snd)
    | (apply kept_foldl_fst) | (apply kept_ite) | (dsimp only) | (split)

theorem kept_execDischargeConfirmed (h_regs : ¬ K .regs) (h_mot : ¬ K .mot) (x0 : Fin 32) (h : Kept K a s) :
    ∃ t, execDischargeConfirmed x0 s = .next t ∧ Kept K a t := by
  unfold execDischargeConfirmed
  refine ⟨_, rfl, ?_⟩
  with_reducible repeat' first
    | (assumption) | (intro) | (apply kept_live) | (apply kept_hvConfirmed) | (apply kept_foldl)
    | (apply kept_foldl_snd) | (apply kept_foldl_fst) | (apply kept_ite) | (dsimp only) | (split)

theorem kept_execDischargeTimeout (h_regs : ¬ K .regs) (h_free : ¬ K .free) (h_out : ¬ K .out) (h_host : ¬ K .host)
    (h_err : ¬ K .err) (h_psq : ¬ K .psq) (h_ctx : ¬ K .ctx) (h_codec : ¬ K .codec) (h_stn : ¬ K .stn)
    (h_nvm : ¬ K .nvm) (h_staySeq : ¬ K .staySeq) (h_mot : ¬ K .mot) (h_vis : ¬ K .vis) (h_net : ¬ K .net) (x0 : Fin
    32) (h : Kept K a s) :
    ∃ t, execDischargeTimeout x0 s = .next t ∧ Kept K a t := by
  unfold execDischargeTimeout
  refine ⟨_, rfl, ?_⟩
  with_reducible repeat' first
    | (assumption) | (intro) | (apply kept_live) | (apply kept_hvDischargeFail) | (apply kept_foldl)
    | (apply kept_foldl_snd) | (apply kept_foldl_fst) | (apply kept_ite) | (dsimp only) | (split)

theorem kept_execHeaterClear (h_regs : ¬ K .regs) (h_out : ¬ K .out) (h_mot : ¬ K .mot) (x0 : Fin 8) (x1 :
    Sys2Proof.Word) (h : Kept K a s) :
    ∃ t, execHeaterClear x0 x1 s = .next t ∧ Kept K a t := by
  unfold execHeaterClear
  refine ⟨_, rfl, ?_⟩
  with_reducible repeat' first
    | (assumption) | (intro) | (apply kept_hostAt) | (apply kept_htCtrlWrite) | (apply kept_foldl)
    | (apply kept_foldl_snd) | (apply kept_foldl_fst) | (apply kept_ite) | (dsimp only) | (split)

theorem kept_execHeaterEnable (h_regs : ¬ K .regs) (h_out : ¬ K .out) (h_mot : ¬ K .mot) (x0 : Fin 8) (x1 :
    Sys2Proof.Word) (h : Kept K a s) :
    ∃ t, execHeaterEnable x0 x1 s = .next t ∧ Kept K a t := by
  unfold execHeaterEnable
  refine ⟨_, rfl, ?_⟩
  with_reducible repeat' first
    | (assumption) | (intro) | (apply kept_hostAt) | (apply kept_htCtrlWrite) | (apply kept_foldl)
    | (apply kept_foldl_snd) | (apply kept_foldl_fst) | (apply kept_ite) | (dsimp only) | (split)

theorem kept_execHeaterHalfCycle (h_regs : ¬ K .regs) (h_out : ¬ K .out) (h_mot : ¬ K .mot) (x0 : Fin 8) (x1 : Bool)
    (h : Kept K a s) :
    ∃ t, execHeaterHalfCycle x0 x1 s = .next t ∧ Kept K a t := by
  unfold execHeaterHalfCycle
  refine ⟨_, rfl, ?_⟩
  with_reducible repeat' first
    | (assumption) | (intro) | (apply kept_live) | (apply kept_htHalf) | (apply kept_foldl) | (apply kept_foldl_snd)
    | (apply kept_foldl_fst) | (apply kept_ite) | (dsimp only) | (split)

theorem kept_execHeaterOtsTrip (h_regs : ¬ K .regs) (h_out : ¬ K .out) (h_host : ¬ K .host) (h_err : ¬ K .err)
    (h_nvm : ¬ K .nvm) (h_staySeq : ¬ K .staySeq) (h_mot : ¬ K .mot) (h_net : ¬ K .net) (x0 : Fin 8) (x1 : Bool)
    (h : Kept K a s) :
    ∃ t, execHeaterOtsTrip x0 x1 s = .next t ∧ Kept K a t := by
  unfold execHeaterOtsTrip
  refine ⟨_, rfl, ?_⟩
  with_reducible repeat' first
    | (assumption) | (intro) | (apply kept_live) | (apply kept_htTrip) | (apply kept_foldl) | (apply kept_foldl_snd)
    | (apply kept_foldl_fst) | (apply kept_ite) | (dsimp only) | (split)

theorem kept_execHeaterSample (h_regs : ¬ K .regs) (h_out : ¬ K .out) (h_host : ¬ K .host) (h_err : ¬ K .err)
    (h_nvm : ¬ K .nvm) (h_staySeq : ¬ K .staySeq) (h_mot : ¬ K .mot) (h_net : ¬ K .net) (x0 : Fin 8) (x1 : BitVec 12)
    (h : Kept K a s) :
    ∃ t, execHeaterSample x0 x1 s = .next t ∧ Kept K a t := by
  unfold execHeaterSample
  refine ⟨_, rfl, ?_⟩
  with_reducible repeat' first
    | (assumption) | (intro) | (apply kept_live) | (apply kept_htSample) | (apply kept_foldl)
    | (apply kept_foldl_snd) | (apply kept_foldl_fst) | (apply kept_ite) | (dsimp only) | (split)

theorem kept_execHvClear (h_regs : ¬ K .regs) (h_mot : ¬ K .mot) (x0 : Fin 32) (x1 : Sys2Proof.Word) (h : Kept K a s)
    :
    ∃ t, execHvClear x0 x1 s = .next t ∧ Kept K a t := by
  unfold execHvClear
  refine ⟨_, rfl, ?_⟩
  with_reducible repeat' first
    | (assumption) | (intro) | (apply kept_hostAt) | (apply kept_hvCtrlWrite) | (apply kept_foldl)
    | (apply kept_foldl_snd) | (apply kept_foldl_fst) | (apply kept_ite) | (dsimp only) | (split)

theorem kept_execHvDisable (h_regs : ¬ K .regs) (h_mot : ¬ K .mot) (x0 : Fin 32) (x1 : Sys2Proof.Word)
    (h : Kept K a s) :
    ∃ t, execHvDisable x0 x1 s = .next t ∧ Kept K a t := by
  unfold execHvDisable
  refine ⟨_, rfl, ?_⟩
  with_reducible repeat' first
    | (assumption) | (intro) | (apply kept_hostAt) | (apply kept_hvCtrlWrite) | (apply kept_foldl)
    | (apply kept_foldl_snd) | (apply kept_foldl_fst) | (apply kept_ite) | (dsimp only) | (split)

theorem kept_execHvEnable (h_regs : ¬ K .regs) (h_mot : ¬ K .mot) (x0 : Fin 32) (x1 : Sys2Proof.Word)
    (h : Kept K a s) :
    ∃ t, execHvEnable x0 x1 s = .next t ∧ Kept K a t := by
  unfold execHvEnable
  refine ⟨_, rfl, ?_⟩
  with_reducible repeat' first
    | (assumption) | (intro) | (apply kept_hostAt) | (apply kept_hvCtrlWrite) | (apply kept_foldl)
    | (apply kept_foldl_snd) | (apply kept_foldl_fst) | (apply kept_ite) | (dsimp only) | (split)

theorem kept_execHvFeedbackResult (h_regs : ¬ K .regs) (h_out : ¬ K .out) (h_host : ¬ K .host) (h_err : ¬ K .err)
    (h_nvm : ¬ K .nvm) (h_staySeq : ¬ K .staySeq) (h_mot : ¬ K .mot) (h_net : ¬ K .net) (x0 : Fin 32) (x1 : BitVec
    20) (x2 : BitVec 20) (h : Kept K a s) :
    ∃ t, execHvFeedbackResult x0 x1 x2 s = .next t ∧ Kept K a t := by
  unfold execHvFeedbackResult
  refine ⟨_, rfl, ?_⟩
  with_reducible repeat' first
    | (assumption) | (intro) | (apply kept_live) | (apply kept_hvFeedback) | (apply kept_foldl)
    | (apply kept_foldl_snd) | (apply kept_foldl_fst) | (apply kept_ite) | (dsimp only) | (split)

theorem kept_execHvGuardSample (h_regs : ¬ K .regs) (h_out : ¬ K .out) (h_host : ¬ K .host) (h_err : ¬ K .err)
    (h_nvm : ¬ K .nvm) (h_staySeq : ¬ K .staySeq) (h_mot : ¬ K .mot) (h_net : ¬ K .net) (x0 : Fin 32) (x1 : BitVec
    12) (h : Kept K a s) :
    ∃ t, execHvGuardSample x0 x1 s = .next t ∧ Kept K a t := by
  unfold execHvGuardSample
  refine ⟨_, rfl, ?_⟩
  with_reducible repeat' first
    | (assumption) | (intro) | (apply kept_live) | (apply kept_hvGuard) | (apply kept_foldl) | (apply kept_foldl_snd)
    | (apply kept_foldl_fst) | (apply kept_ite) | (dsimp only) | (split)

theorem kept_execHvHold (h_regs : ¬ K .regs) (h_mot : ¬ K .mot) (x0 : Fin 32) (x1 : Sys2Proof.Word) (h : Kept K a s) :
    ∃ t, execHvHold x0 x1 s = .next t ∧ Kept K a t := by
  unfold execHvHold
  refine ⟨_, rfl, ?_⟩
  with_reducible repeat' first
    | (assumption) | (intro) | (apply kept_hostAt) | (apply kept_hvCtrlWrite) | (apply kept_foldl)
    | (apply kept_foldl_snd) | (apply kept_foldl_fst) | (apply kept_ite) | (dsimp only) | (split)

theorem kept_execHvPwmPeriod (h_regs : ¬ K .regs) (h_out : ¬ K .out) (h_mot : ¬ K .mot) (x0 : Fin 32)
    (h : Kept K a s) :
    ∃ t, execHvPwmPeriod x0 s = .next t ∧ Kept K a t := by
  unfold execHvPwmPeriod
  refine ⟨_, rfl, ?_⟩
  with_reducible repeat' first
    | (assumption) | (intro) | (apply kept_live) | (apply kept_hvPeriod) | (apply kept_foldl)
    | (apply kept_foldl_snd) | (apply kept_foldl_fst) | (apply kept_ite) | (dsimp only) | (split)

theorem kept_execInterlockClose (h_regs : ¬ K .regs) (h_out : ¬ K .out) (x0 : Fin 4) (h : Kept K a s) :
    ∃ t, execInterlockClose x0 s = .next t ∧ Kept K a t := by
  unfold execInterlockClose
  refine ⟨_, rfl, ?_⟩
  with_reducible repeat' first
    | (assumption) | (intro) | (apply kept_live) | (apply kept_ilkCloses) | (apply kept_foldl)
    | (apply kept_foldl_snd) | (apply kept_foldl_fst) | (apply kept_ite) | (dsimp only) | (split)

theorem kept_execInterlockOpen (h_regs : ¬ K .regs) (h_free : ¬ K .free) (h_out : ¬ K .out) (h_host : ¬ K .host)
    (h_err : ¬ K .err) (h_psq : ¬ K .psq) (h_ctx : ¬ K .ctx) (h_codec : ¬ K .codec) (h_stn : ¬ K .stn)
    (h_nvm : ¬ K .nvm) (h_staySeq : ¬ K .staySeq) (h_mot : ¬ K .mot) (h_net : ¬ K .net) (x0 : Fin 4) (h : Kept K a s)
    :
    ∃ t, execInterlockOpen x0 s = .next t ∧ Kept K a t := by
  unfold execInterlockOpen
  refine ⟨_, rfl, ?_⟩
  with_reducible repeat' first
    | (assumption) | (intro) | (apply kept_live) | (apply kept_ilkOpens) | (apply kept_foldl)
    | (apply kept_foldl_snd) | (apply kept_foldl_fst) | (apply kept_ite) | (dsimp only) | (split)

theorem kept_execZcEdge (h_regs : ¬ K .regs) (h_out : ¬ K .out) (h_host : ¬ K .host) (h_err : ¬ K .err)
    (h_nvm : ¬ K .nvm) (h_staySeq : ¬ K .staySeq) (h_mot : ¬ K .mot) (h_net : ¬ K .net)  (h : Kept K a s) :
    ∃ t, execZcEdge s = .next t ∧ Kept K a t := by
  unfold execZcEdge
  refine ⟨_, rfl, ?_⟩
  with_reducible repeat' first
    | (assumption) | (intro) | (apply kept_live) | (apply kept_zcEdge) | (apply kept_foldl) | (apply kept_foldl_snd)
    | (apply kept_foldl_fst) | (apply kept_ite) | (dsimp only) | (split)

theorem kept_execZcLossTimeout (h_regs : ¬ K .regs) (h_out : ¬ K .out) (h_host : ¬ K .host) (h_err : ¬ K .err)
    (h_nvm : ¬ K .nvm) (h_staySeq : ¬ K .staySeq) (h_mot : ¬ K .mot) (h_net : ¬ K .net)  (h : Kept K a s) :
    ∃ t, execZcLossTimeout s = .next t ∧ Kept K a t := by
  unfold execZcLossTimeout
  refine ⟨_, rfl, ?_⟩
  with_reducible repeat' first
    | (assumption) | (intro) | (apply kept_live) | (apply kept_zcLose) | (apply kept_foldl) | (apply kept_foldl_snd)
    | (apply kept_foldl_fst) | (apply kept_ite) | (dsimp only) | (split)
    | (refine kept_mk ?_ (r_host := (absurd · h_host)) (r_err := (absurd · h_err)) (r_nvm := (absurd · h_nvm))
        (r_staySeq := (absurd · h_staySeq)) (r_mot := (absurd · h_mot)) (r_net := (absurd · h_net)))

theorem kept_execBackBlockLock (h_regs : ¬ K .regs) (h_out : ¬ K .out) (h_stn : ¬ K .stn) (x0 : Fin 8)
    (h : Kept K a s) :
    ∃ t, execBackBlockLock x0 s = .next t ∧ Kept K a t := by
  unfold execBackBlockLock
  refine ⟨_, rfl, ?_⟩
  with_reducible repeat' first
    | (assumption) | (intro) | (apply kept_stnLive) | (apply kept_backLock) | (apply kept_foldl)
    | (apply kept_foldl_snd) | (apply kept_foldl_fst) | (apply kept_ite) | (dsimp only) | (split)

theorem kept_execBackLockLoss (h_regs : ¬ K .regs) (h_free : ¬ K .free) (h_out : ¬ K .out) (h_host : ¬ K .host)
    (h_err : ¬ K .err) (h_psq : ¬ K .psq) (h_ctx : ¬ K .ctx) (h_codec : ¬ K .codec) (h_stn : ¬ K .stn)
    (h_nvm : ¬ K .nvm) (h_staySeq : ¬ K .staySeq) (h_mot : ¬ K .mot) (h_vis : ¬ K .vis) (h_net : ¬ K .net) (x0 : Fin
    8) (h : Kept K a s) :
    ∃ t, execBackLockLoss x0 s = .next t ∧ Kept K a t := by
  unfold execBackLockLoss
  refine ⟨_, rfl, ?_⟩
  with_reducible repeat' first
    | (assumption) | (intro) | (apply kept_stnLive) | (apply kept_backLoss) | (apply kept_foldl)
    | (apply kept_foldl_snd) | (apply kept_foldl_fst) | (apply kept_ite) | (dsimp only) | (split)

theorem kept_execBackPacketDiscard (h_regs : ¬ K .regs) (h_free : ¬ K .free) (h_out : ¬ K .out) (h_host : ¬ K .host)
    (h_err : ¬ K .err) (h_psq : ¬ K .psq) (h_ctx : ¬ K .ctx) (h_codec : ¬ K .codec) (h_stn : ¬ K .stn)
    (h_nvm : ¬ K .nvm) (h_staySeq : ¬ K .staySeq) (h_mot : ¬ K .mot) (h_vis : ¬ K .vis) (h_net : ¬ K .net) (x0 : Fin
    8) (h : Kept K a s) :
    ∃ t, execBackPacketDiscard x0 s = .next t ∧ Kept K a t := by
  unfold execBackPacketDiscard
  refine ⟨_, rfl, ?_⟩
  with_reducible repeat' first
    | (assumption) | (intro) | (apply kept_stnLive) | (apply kept_backDiscard) | (apply kept_foldl)
    | (apply kept_foldl_snd) | (apply kept_foldl_fst) | (apply kept_ite) | (dsimp only) | (split)

theorem kept_execBankLoadStart (h_out : ¬ K .out) (h_stn : ¬ K .stn) (x0 : Fin 8) (h : Kept K a s) :
    ∃ t, execBankLoadStart x0 s = .next t ∧ Kept K a t := by
  unfold execBankLoadStart
  refine ⟨_, rfl, ?_⟩
  with_reducible repeat' first
    | (assumption) | (intro) | (apply kept_stnLive) | (apply kept_bankLoad) | (apply kept_foldl)
    | (apply kept_foldl_snd) | (apply kept_foldl_fst) | (apply kept_ite) | (dsimp only) | (split)

theorem kept_execCapsReqSend (h_out : ¬ K .out) (h_stn : ¬ K .stn) (x0 : Fin 8) (h : Kept K a s) :
    ∃ t, execCapsReqSend x0 s = .next t ∧ Kept K a t := by
  unfold execCapsReqSend
  refine ⟨_, rfl, ?_⟩
  with_reducible repeat' first
    | (assumption) | (intro) | (apply kept_stnLive) | (apply kept_capsReq) | (apply kept_foldl)
    | (apply kept_foldl_snd) | (apply kept_foldl_fst) | (apply kept_ite) | (dsimp only) | (split)

theorem kept_execCapsRx (h_regs : ¬ K .regs) (h_out : ¬ K .out) (h_host : ¬ K .host) (h_err : ¬ K .err)
    (h_stn : ¬ K .stn) (h_nvm : ¬ K .nvm) (h_staySeq : ¬ K .staySeq) (h_net : ¬ K .net) (x0 : Fin 8) (x1 :
    Sys2Proof.Caps) (h : Kept K a s) :
    ∃ t, execCapsRx x0 x1 s = .next t ∧ Kept K a t := by
  unfold execCapsRx
  refine ⟨_, rfl, ?_⟩
  with_reducible repeat' first
    | (assumption) | (intro) | (apply kept_stnLive) | (apply kept_capsRx) | (apply kept_foldl)
    | (apply kept_foldl_snd) | (apply kept_foldl_fst) | (apply kept_ite) | (dsimp only) | (split)

theorem kept_execControlResendTimeout (h_regs : ¬ K .regs) (h_free : ¬ K .free) (h_out : ¬ K .out)
    (h_host : ¬ K .host) (h_err : ¬ K .err) (h_psq : ¬ K .psq) (h_ctx : ¬ K .ctx) (h_codec : ¬ K .codec)
    (h_stn : ¬ K .stn) (h_nvm : ¬ K .nvm) (h_staySeq : ¬ K .staySeq) (h_mot : ¬ K .mot) (h_vis : ¬ K .vis)
    (h_net : ¬ K .net) (x0 : Fin 8) (x1 : BitVec 16) (h : Kept K a s) :
    ∃ t, execControlResendTimeout x0 x1 s = .next t ∧ Kept K a t := by
  unfold execControlResendTimeout
  refine ⟨_, rfl, ?_⟩
  with_reducible repeat' first
    | (assumption) | (intro) | (apply kept_stnLive) | (apply kept_controlResend) | (apply kept_foldl)
    | (apply kept_foldl_snd) | (apply kept_foldl_fst) | (apply kept_ite) | (dsimp only) | (split)

theorem kept_execHealthRx (h_regs : ¬ K .regs) (h_out : ¬ K .out) (h_host : ¬ K .host) (h_err : ¬ K .err)
    (h_stn : ¬ K .stn) (h_nvm : ¬ K .nvm) (h_staySeq : ¬ K .staySeq) (h_net : ¬ K .net) (x0 : Fin 8) (x1 : Fin 40)
    (x2 : BitVec 8) (h : Kept K a s) :
    ∃ t, execHealthRx x0 x1 x2 s = .next t ∧ Kept K a t := by
  unfold execHealthRx
  refine ⟨_, rfl, ?_⟩
  with_reducible repeat' first
    | (assumption) | (intro) | (apply kept_stnLive) | (apply kept_healthRx) | (apply kept_foldl)
    | (apply kept_foldl_snd) | (apply kept_foldl_fst) | (apply kept_ite) | (dsimp only) | (split)

theorem kept_execLinkDown (h_regs : ¬ K .regs) (h_free : ¬ K .free) (h_out : ¬ K .out) (h_host : ¬ K .host)
    (h_err : ¬ K .err) (h_psq : ¬ K .psq) (h_ctx : ¬ K .ctx) (h_codec : ¬ K .codec) (h_stn : ¬ K .stn)
    (h_nvm : ¬ K .nvm) (h_staySeq : ¬ K .staySeq) (h_mot : ¬ K .mot) (h_vis : ¬ K .vis) (h_net : ¬ K .net) (x0 : Fin
    8) (x1 : Sys2Proof.Word) (h : Kept K a s) :
    ∃ t, execLinkDown x0 x1 s = .next t ∧ Kept K a t := by
  unfold execLinkDown
  refine ⟨_, rfl, ?_⟩
  with_reducible repeat' first
    | (assumption) | (intro) | (apply kept_hostAt) | (apply kept_lctrlWrite) | (apply kept_foldl)
    | (apply kept_foldl_snd) | (apply kept_foldl_fst) | (apply kept_ite) | (dsimp only) | (split)

theorem kept_execLinkRetrain (h_regs : ¬ K .regs) (h_free : ¬ K .free) (h_out : ¬ K .out) (h_host : ¬ K .host)
    (h_err : ¬ K .err) (h_psq : ¬ K .psq) (h_ctx : ¬ K .ctx) (h_codec : ¬ K .codec) (h_stn : ¬ K .stn)
    (h_nvm : ¬ K .nvm) (h_staySeq : ¬ K .staySeq) (h_mot : ¬ K .mot) (h_vis : ¬ K .vis) (h_net : ¬ K .net) (x0 : Fin
    8) (x1 : Sys2Proof.Word) (h : Kept K a s) :
    ∃ t, execLinkRetrain x0 x1 s = .next t ∧ Kept K a t := by
  unfold execLinkRetrain
  refine ⟨_, rfl, ?_⟩
  with_reducible repeat' first
    | (assumption) | (intro) | (apply kept_hostAt) | (apply kept_lctrlWrite) | (apply kept_foldl)
    | (apply kept_foldl_snd) | (apply kept_foldl_fst) | (apply kept_ite) | (dsimp only) | (split)

theorem kept_execLinkTrainStart (h_regs : ¬ K .regs) (h_out : ¬ K .out) (h_stn : ¬ K .stn) (x0 : Fin 8)
    (h : Kept K a s) :
    ∃ t, execLinkTrainStart x0 s = .next t ∧ Kept K a t := by
  unfold execLinkTrainStart
  refine ⟨_, rfl, ?_⟩
  with_reducible repeat' first
    | (assumption) | (intro) | (apply kept_stnLive) | (apply kept_linkStart) | (apply kept_foldl)
    | (apply kept_foldl_snd) | (apply kept_foldl_fst) | (apply kept_ite) | (dsimp only) | (split)

theorem kept_execLinkUp (h_regs : ¬ K .regs) (h_free : ¬ K .free) (h_out : ¬ K .out) (h_host : ¬ K .host)
    (h_err : ¬ K .err) (h_psq : ¬ K .psq) (h_ctx : ¬ K .ctx) (h_codec : ¬ K .codec) (h_stn : ¬ K .stn)
    (h_nvm : ¬ K .nvm) (h_staySeq : ¬ K .staySeq) (h_mot : ¬ K .mot) (h_vis : ¬ K .vis) (h_net : ¬ K .net) (x0 : Fin
    8) (x1 : Sys2Proof.Word) (h : Kept K a s) :
    ∃ t, execLinkUp x0 x1 s = .next t ∧ Kept K a t := by
  unfold execLinkUp
  refine ⟨_, rfl, ?_⟩
  with_reducible repeat' first
    | (assumption) | (intro) | (apply kept_hostAt) | (apply kept_lctrlWrite) | (apply kept_foldl)
    | (apply kept_foldl_snd) | (apply kept_foldl_fst) | (apply kept_ite) | (dsimp only) | (split)

theorem kept_execLivReqSend (h_out : ¬ K .out) (h_stn : ¬ K .stn) (x0 : Fin 8) (h : Kept K a s) :
    ∃ t, execLivReqSend x0 s = .next t ∧ Kept K a t := by
  unfold execLivReqSend
  refine ⟨_, rfl, ?_⟩
  with_reducible repeat' first
    | (assumption) | (intro) | (apply kept_stnLive) | (apply kept_livReq) | (apply kept_foldl)
    | (apply kept_foldl_snd) | (apply kept_foldl_fst) | (apply kept_ite) | (dsimp only) | (split)

theorem kept_execLivRx (h_regs : ¬ K .regs) (x0 : Fin 8) (x1 : Fin 40) (x2 : BitVec 16) (x3 : BitVec 16)
    (h : Kept K a s) :
    ∃ t, execLivRx x0 x1 x2 x3 s = .next t ∧ Kept K a t := by
  unfold execLivRx
  refine ⟨_, rfl, ?_⟩
  with_reducible repeat' first
    | (assumption) | (intro) | (apply kept_stnLive) | (apply kept_livRx) | (apply kept_foldl)
    | (apply kept_foldl_snd) | (apply kept_foldl_fst) | (apply kept_ite) | (dsimp only) | (split)

theorem kept_execRetrainDelayEnd (h_regs : ¬ K .regs) (h_out : ¬ K .out) (h_stn : ¬ K .stn) (x0 : Fin 8)
    (h : Kept K a s) :
    ∃ t, execRetrainDelayEnd x0 s = .next t ∧ Kept K a t := by
  unfold execRetrainDelayEnd
  refine ⟨_, rfl, ?_⟩
  with_reducible repeat' first
    | (assumption) | (intro) | (apply kept_stnLive) | (apply kept_linkStart) | (apply kept_foldl)
    | (apply kept_foldl_snd) | (apply kept_foldl_fst) | (apply kept_ite) | (dsimp only) | (split)

theorem kept_execStatusRx (h_regs : ¬ K .regs) (h_free : ¬ K .free) (h_out : ¬ K .out) (h_host : ¬ K .host)
    (h_err : ¬ K .err) (h_psq : ¬ K .psq) (h_ctx : ¬ K .ctx) (h_codec : ¬ K .codec) (h_stn : ¬ K .stn)
    (h_nvm : ¬ K .nvm) (h_staySeq : ¬ K .staySeq) (h_mot : ¬ K .mot) (h_vis : ¬ K .vis) (h_net : ¬ K .net) (x0 : Fin
    8) (x1 : Sys2Proof.LinkStatus) (h : Kept K a s) :
    ∃ t, execStatusRx x0 x1 s = .next t ∧ Kept K a t := by
  unfold execStatusRx
  refine ⟨_, rfl, ?_⟩
  with_reducible repeat' first
    | (assumption) | (intro) | (apply kept_stnLive) | (apply kept_statusRx) | (apply kept_foldl)
    | (apply kept_foldl_snd) | (apply kept_foldl_fst) | (apply kept_ite) | (dsimp only) | (split)

theorem kept_execSweepUnreported (h_regs : ¬ K .regs) (h_free : ¬ K .free) (h_out : ¬ K .out) (h_host : ¬ K .host)
    (h_err : ¬ K .err) (h_psq : ¬ K .psq) (h_ctx : ¬ K .ctx) (h_codec : ¬ K .codec) (h_stn : ¬ K .stn)
    (h_nvm : ¬ K .nvm) (h_staySeq : ¬ K .staySeq) (h_mot : ¬ K .mot) (h_vis : ¬ K .vis) (h_net : ¬ K .net) (x0 : Fin
    8) (h : Kept K a s) :
    ∃ t, execSweepUnreported x0 s = .next t ∧ Kept K a t := by
  unfold execSweepUnreported
  refine ⟨_, rfl, ?_⟩
  with_reducible repeat' first
    | (assumption) | (intro) | (apply kept_stnLive) | (apply kept_sweepUnreported) | (apply kept_foldl)
    | (apply kept_foldl_snd) | (apply kept_foldl_fst) | (apply kept_ite) | (dsimp only) | (split)

theorem kept_execTrainTimeout (h_regs : ¬ K .regs) (h_stn : ¬ K .stn) (x0 : Fin 8) (h : Kept K a s) :
    ∃ t, execTrainTimeout x0 s = .next t ∧ Kept K a t := by
  unfold execTrainTimeout
  refine ⟨_, rfl, ?_⟩
  with_reducible repeat' first
    | (assumption) | (intro) | (apply kept_stnLive) | (apply kept_trainTimeout) | (apply kept_foldl)
    | (apply kept_foldl_snd) | (apply kept_foldl_fst) | (apply kept_ite) | (dsimp only) | (split)

theorem kept_execContainmentTimeout (h_regs : ¬ K .regs) (h_free : ¬ K .free) (h_out : ¬ K .out) (h_host : ¬ K .host)
    (h_err : ¬ K .err) (h_psq : ¬ K .psq) (h_ctx : ¬ K .ctx) (h_codec : ¬ K .codec) (h_stn : ¬ K .stn)
    (h_nvm : ¬ K .nvm) (h_staySeq : ¬ K .staySeq) (h_mot : ¬ K .mot) (h_vis : ¬ K .vis) (h_net : ¬ K .net) (x0 :
    BitVec 8) (x1 : BitVec 8) (h : Kept K a s) :
    ∃ t, execContainmentTimeout x0 x1 s = .next t ∧ Kept K a t := by
  unfold execContainmentTimeout
  refine ⟨_, rfl, ?_⟩
  with_reducible repeat' first
    | (assumption) | (intro) | (apply kept_live) | (apply kept_containTimeout) | (apply kept_foldl)
    | (apply kept_foldl_snd) | (apply kept_foldl_fst) | (apply kept_ite) | (dsimp only) | (split)

theorem kept_execErrSlotRead (h_regs : ¬ K .regs) (h_latch : ¬ K .latch) (h_out : ¬ K .out) (x0 : Fin 256) (x1 : Fin
    16) (h : Kept K a s) :
    ∃ t, execErrSlotRead x0 x1 s = .next t ∧ Kept K a t := by
  unfold execErrSlotRead
  refine ⟨_, rfl, ?_⟩
  with_reducible repeat' first
    | (assumption) | (intro) | (apply kept_hostAt) | (apply kept_slotRead) | (apply kept_foldl)
    | (apply kept_foldl_snd) | (apply kept_foldl_fst) | (apply kept_ite) | (dsimp only) | (split)

theorem kept_execIrqMaskWrite (h_regs : ¬ K .regs) (h_out : ¬ K .out) (x0 : Sys2Proof.Word) (h : Kept K a s) :
    ∃ t, execIrqMaskWrite x0 s = .next t ∧ Kept K a t := by
  unfold execIrqMaskWrite
  refine ⟨_, rfl, ?_⟩
  with_reducible repeat' first
    | (assumption) | (intro) | (apply kept_hostAt) | (apply kept_irqMaskWrite) | (apply kept_foldl)
    | (apply kept_foldl_snd) | (apply kept_foldl_fst) | (apply kept_ite) | (dsimp only) | (split)

theorem kept_execMonClear (h_regs : ¬ K .regs) (h_mon : ¬ K .mon) (x0 : Fin 32) (x1 : Sys2Proof.Word)
    (h : Kept K a s) :
    ∃ t, execMonClear x0 x1 s = .next t ∧ Kept K a t := by
  unfold execMonClear
  refine ⟨_, rfl, ?_⟩
  with_reducible repeat' first
    | (assumption) | (intro) | (apply kept_hostAt) | (apply kept_monCfgWrite) | (apply kept_foldl)
    | (apply kept_foldl_snd) | (apply kept_foldl_fst) | (apply kept_ite) | (dsimp only) | (split)

theorem kept_execMonEnable (h_regs : ¬ K .regs) (h_mon : ¬ K .mon) (x0 : Fin 32) (x1 : Sys2Proof.Word)
    (h : Kept K a s) :
    ∃ t, execMonEnable x0 x1 s = .next t ∧ Kept K a t := by
  unfold execMonEnable
  refine ⟨_, rfl, ?_⟩
  with_reducible repeat' first
    | (assumption) | (intro) | (apply kept_hostAt) | (apply kept_monCfgWrite) | (apply kept_foldl)
    | (apply kept_foldl_snd) | (apply kept_foldl_fst) | (apply kept_ite) | (dsimp only) | (split)

theorem kept_execMonSnap (h_regs : ¬ K .regs) (h_mon : ¬ K .mon) (x0 : Fin 32) (x1 : Sys2Proof.Word) (h : Kept K a s)
    :
    ∃ t, execMonSnap x0 x1 s = .next t ∧ Kept K a t := by
  unfold execMonSnap
  refine ⟨_, rfl, ?_⟩
  with_reducible repeat' first
    | (assumption) | (intro) | (apply kept_hostAt) | (apply kept_monCfgWrite) | (apply kept_foldl)
    | (apply kept_foldl_snd) | (apply kept_foldl_fst) | (apply kept_ite) | (dsimp only) | (split)

theorem kept_execRegionResetTimeout (h_regs : ¬ K .regs) (h_free : ¬ K .free) (h_out : ¬ K .out) (h_host : ¬ K .host)
    (h_err : ¬ K .err) (h_psq : ¬ K .psq) (h_ctx : ¬ K .ctx) (h_codec : ¬ K .codec) (h_stn : ¬ K .stn)
    (h_nvm : ¬ K .nvm) (h_staySeq : ¬ K .staySeq) (h_mot : ¬ K .mot) (h_vis : ¬ K .vis) (h_net : ¬ K .net) (x0 : Fin
    7) (h : Kept K a s) :
    ∃ t, execRegionResetTimeout x0 s = .next t ∧ Kept K a t := by
  unfold execRegionResetTimeout
  refine ⟨_, rfl, ?_⟩
  with_reducible repeat' first
    | (assumption) | (intro) | (apply kept_live) | (apply kept_resetTimeout) | (apply kept_foldl)
    | (apply kept_foldl_snd) | (apply kept_foldl_fst) | (apply kept_ite) | (dsimp only) | (split)

theorem kept_execCmdLossTimeout (h_regs : ¬ K .regs) (h_free : ¬ K .free) (h_out : ¬ K .out) (h_host : ¬ K .host)
    (h_err : ¬ K .err) (h_psq : ¬ K .psq) (h_ctx : ¬ K .ctx) (h_stn : ¬ K .stn) (h_nvm : ¬ K .nvm)
    (h_staySeq : ¬ K .staySeq) (h_mot : ¬ K .mot) (h_net : ¬ K .net) (x0 : Fin 8) (h : Kept K a s) :
    ∃ t, execCmdLossTimeout x0 s = .next t ∧ Kept K a t := by
  unfold execCmdLossTimeout
  refine ⟨_, rfl, ?_⟩
  with_reducible repeat' first
    | (assumption) | (intro) | (apply kept_live) | (apply kept_cmdLoss) | (apply kept_foldl) | (apply kept_foldl_snd)
    | (apply kept_foldl_fst) | (apply kept_ite) | (dsimp only) | (split)

theorem kept_execCmdPinPeriod (h_regs : ¬ K .regs) (h_mot : ¬ K .mot) (x0 : Fin 8) (x1 : BitVec 32) (x2 : BitVec 32)
    (h : Kept K a s) :
    ∃ t, execCmdPinPeriod x0 x1 x2 s = .next t ∧ Kept K a t := by
  unfold execCmdPinPeriod
  refine ⟨_, rfl, ?_⟩
  with_reducible repeat' first
    | (assumption) | (intro) | (apply kept_live) | (apply kept_cmdPeriod) | (apply kept_foldl)
    | (apply kept_foldl_snd) | (apply kept_foldl_fst) | (apply kept_ite) | (dsimp only) | (split)

theorem kept_execMcBrakeStill (h_regs : ¬ K .regs) (h_out : ¬ K .out) (h_mot : ¬ K .mot) (x0 : Fin 24)
    (h : Kept K a s) :
    ∃ t, execMcBrakeStill x0 s = .next t ∧ Kept K a t := by
  unfold execMcBrakeStill
  refine ⟨_, rfl, ?_⟩
  with_reducible repeat' first
    | (assumption) | (intro) | (apply kept_live) | (apply kept_enterIpd) | (apply kept_foldl)
    | (apply kept_foldl_snd) | (apply kept_foldl_fst) | (apply kept_ite) | (dsimp only) | (split)

theorem kept_execMcClear (h_regs : ¬ K .regs) (h_free : ¬ K .free) (h_out : ¬ K .out) (h_host : ¬ K .host)
    (h_err : ¬ K .err) (h_psq : ¬ K .psq) (h_ctx : ¬ K .ctx) (h_codec : ¬ K .codec) (h_stn : ¬ K .stn)
    (h_nvm : ¬ K .nvm) (h_staySeq : ¬ K .staySeq) (h_mot : ¬ K .mot) (h_vis : ¬ K .vis) (h_net : ¬ K .net) (x0 : Fin
    24) (x1 : Sys2Proof.Word) (h : Kept K a s) :
    ∃ t, execMcClear x0 x1 s = .next t ∧ Kept K a t := by
  unfold execMcClear
  refine ⟨_, rfl, ?_⟩
  with_reducible repeat' first
    | (assumption) | (intro) | (apply kept_hostAt) | (apply kept_mcCtrlWrite) | (apply kept_foldl)
    | (apply kept_foldl_snd) | (apply kept_foldl_fst) | (apply kept_ite) | (dsimp only) | (split)

theorem kept_execMcDisable (h_regs : ¬ K .regs) (h_free : ¬ K .free) (h_out : ¬ K .out) (h_host : ¬ K .host)
    (h_err : ¬ K .err) (h_psq : ¬ K .psq) (h_ctx : ¬ K .ctx) (h_codec : ¬ K .codec) (h_stn : ¬ K .stn)
    (h_nvm : ¬ K .nvm) (h_staySeq : ¬ K .staySeq) (h_mot : ¬ K .mot) (h_vis : ¬ K .vis) (h_net : ¬ K .net) (x0 : Fin
    24) (x1 : Sys2Proof.Word) (h : Kept K a s) :
    ∃ t, execMcDisable x0 x1 s = .next t ∧ Kept K a t := by
  unfold execMcDisable
  refine ⟨_, rfl, ?_⟩
  with_reducible repeat' first
    | (assumption) | (intro) | (apply kept_hostAt) | (apply kept_mcCtrlWrite) | (apply kept_foldl)
    | (apply kept_foldl_snd) | (apply kept_foldl_fst) | (apply kept_ite) | (dsimp only) | (split)

theorem kept_execMcDriverFault (h_regs : ¬ K .regs) (h_free : ¬ K .free) (h_out : ¬ K .out) (h_host : ¬ K .host)
    (h_err : ¬ K .err) (h_psq : ¬ K .psq) (h_ctx : ¬ K .ctx) (h_codec : ¬ K .codec) (h_stn : ¬ K .stn)
    (h_nvm : ¬ K .nvm) (h_staySeq : ¬ K .staySeq) (h_mot : ¬ K .mot) (h_vis : ¬ K .vis) (h_net : ¬ K .net) (x0 : Fin
    24) (x1 : Bool) (h : Kept K a s) :
    ∃ t, execMcDriverFault x0 x1 s = .next t ∧ Kept K a t := by
  unfold execMcDriverFault
  refine ⟨_, rfl, ?_⟩
  with_reducible repeat' first
    | (assumption) | (intro) | (apply kept_live) | (apply kept_mcDriverFault) | (apply kept_foldl)
    | (apply kept_foldl_snd) | (apply kept_foldl_fst) | (apply kept_ite) | (dsimp only) | (split)

theorem kept_execMcEnable (h_regs : ¬ K .regs) (h_free : ¬ K .free) (h_out : ¬ K .out) (h_host : ¬ K .host)
    (h_err : ¬ K .err) (h_psq : ¬ K .psq) (h_ctx : ¬ K .ctx) (h_codec : ¬ K .codec) (h_stn : ¬ K .stn)
    (h_nvm : ¬ K .nvm) (h_staySeq : ¬ K .staySeq) (h_mot : ¬ K .mot) (h_vis : ¬ K .vis) (h_net : ¬ K .net) (x0 : Fin
    24) (x1 : Sys2Proof.Word) (h : Kept K a s) :
    ∃ t, execMcEnable x0 x1 s = .next t ∧ Kept K a t := by
  unfold execMcEnable
  refine ⟨_, rfl, ?_⟩
  with_reducible repeat' first
    | (assumption) | (intro) | (apply kept_hostAt) | (apply kept_mcCtrlWrite) | (apply kept_foldl)
    | (apply kept_foldl_snd) | (apply kept_foldl_fst) | (apply kept_ite) | (dsimp only) | (split)

theorem kept_execMcIpdDone (h_regs : ¬ K .regs) (h_free : ¬ K .free) (h_out : ¬ K .out) (h_host : ¬ K .host)
    (h_err : ¬ K .err) (h_psq : ¬ K .psq) (h_ctx : ¬ K .ctx) (h_codec : ¬ K .codec) (h_stn : ¬ K .stn)
    (h_nvm : ¬ K .nvm) (h_staySeq : ¬ K .staySeq) (h_mot : ¬ K .mot) (h_vis : ¬ K .vis) (h_net : ¬ K .net) (x0 : Fin
    24) (x1 : List (List Nat)) (h : Kept K a s) :
    ∃ t, execMcIpdDone x0 x1 s = .next t ∧ Kept K a t := by
  unfold execMcIpdDone
  refine ⟨_, rfl, ?_⟩
  with_reducible repeat' first
    | (assumption) | (intro) | (apply kept_live) | (apply kept_mcIpdDone) | (apply kept_foldl)
    | (apply kept_foldl_snd) | (apply kept_foldl_fst) | (apply kept_ite) | (dsimp only) | (split)

theorem kept_execMcPwmPeriod (h_regs : ¬ K .regs) (h_free : ¬ K .free) (h_out : ¬ K .out) (h_host : ¬ K .host)
    (h_err : ¬ K .err) (h_psq : ¬ K .psq) (h_ctx : ¬ K .ctx) (h_codec : ¬ K .codec) (h_stn : ¬ K .stn)
    (h_nvm : ¬ K .nvm) (h_staySeq : ¬ K .staySeq) (h_mot : ¬ K .mot) (h_vis : ¬ K .vis) (h_net : ¬ K .net) (x0 : Fin
    24) (x1 : Sys2Proof.PwmSample) (h : Kept K a s) :
    ∃ t, execMcPwmPeriod x0 x1 s = .next t ∧ Kept K a t := by
  unfold execMcPwmPeriod
  refine ⟨_, rfl, ?_⟩
  with_reducible repeat' first
    | (assumption) | (intro) | (apply kept_live) | (apply kept_mcPeriod) | (apply kept_foldl)
    | (apply kept_foldl_snd) | (apply kept_foldl_fst) | (apply kept_ite) | (dsimp only) | (split)

theorem kept_execMcReacqTimeout (h_regs : ¬ K .regs) (h_free : ¬ K .free) (h_out : ¬ K .out) (h_host : ¬ K .host)
    (h_err : ¬ K .err) (h_psq : ¬ K .psq) (h_ctx : ¬ K .ctx) (h_codec : ¬ K .codec) (h_stn : ¬ K .stn)
    (h_nvm : ¬ K .nvm) (h_staySeq : ¬ K .staySeq) (h_mot : ¬ K .mot) (h_vis : ¬ K .vis) (h_net : ¬ K .net) (x0 : Fin
    24) (h : Kept K a s) :
    ∃ t, execMcReacqTimeout x0 s = .next t ∧ Kept K a t := by
  unfold execMcReacqTimeout
  refine ⟨_, rfl, ?_⟩
  with_reducible repeat' first
    | (assumption) | (intro) | (apply kept_live) | (apply kept_mcFault) | (apply kept_foldl) | (apply kept_foldl_snd)
    | (apply kept_foldl_fst) | (apply kept_ite) | (dsimp only) | (split)

theorem kept_execMcReacqWindow (h_regs : ¬ K .regs) (h_out : ¬ K .out) (h_host : ¬ K .host) (h_err : ¬ K .err)
    (h_nvm : ¬ K .nvm) (h_staySeq : ¬ K .staySeq) (h_mot : ¬ K .mot) (h_net : ¬ K .net) (x0 : Fin 24) (x1 : BitVec
    16) (x2 : BitVec 20) (h : Kept K a s) :
    ∃ t, execMcReacqWindow x0 x1 x2 s = .next t ∧ Kept K a t := by
  unfold execMcReacqWindow
  refine ⟨_, rfl, ?_⟩
  with_reducible repeat' first
    | (assumption) | (intro) | (apply kept_live) | (apply kept_mcReacqWindow) | (apply kept_foldl)
    | (apply kept_foldl_snd) | (apply kept_foldl_fst) | (apply kept_ite) | (dsimp only) | (split)

theorem kept_execMcSenseDone (h_regs : ¬ K .regs) (h_out : ¬ K .out) (h_mot : ¬ K .mot) (x0 : Fin 24) (x1 : Bool) (x2
    : BitVec 16) (x3 : BitVec 20) (h : Kept K a s) :
    ∃ t, execMcSenseDone x0 x1 x2 x3 s = .next t ∧ Kept K a t := by
  unfold execMcSenseDone
  refine ⟨_, rfl, ?_⟩
  with_reducible repeat' first
    | (assumption) | (intro) | (apply kept_live) | (apply kept_mcSenseDone) | (apply kept_foldl)
    | (apply kept_foldl_snd) | (apply kept_foldl_fst) | (apply kept_ite) | (dsimp only) | (split)

theorem kept_execMcStartTimeout (h_regs : ¬ K .regs) (h_free : ¬ K .free) (h_out : ¬ K .out) (h_host : ¬ K .host)
    (h_err : ¬ K .err) (h_psq : ¬ K .psq) (h_ctx : ¬ K .ctx) (h_codec : ¬ K .codec) (h_stn : ¬ K .stn)
    (h_nvm : ¬ K .nvm) (h_staySeq : ¬ K .staySeq) (h_mot : ¬ K .mot) (h_vis : ¬ K .vis) (h_net : ¬ K .net) (x0 : Fin
    24) (h : Kept K a s) :
    ∃ t, execMcStartTimeout x0 s = .next t ∧ Kept K a t := by
  unfold execMcStartTimeout
  refine ⟨_, rfl, ?_⟩
  with_reducible repeat' first
    | (assumption) | (intro) | (apply kept_live) | (apply kept_mcStartTimeout) | (apply kept_foldl)
    | (apply kept_foldl_snd) | (apply kept_foldl_fst) | (apply kept_ite) | (dsimp only) | (split)

theorem kept_execMcStop (h_regs : ¬ K .regs) (h_free : ¬ K .free) (h_out : ¬ K .out) (h_host : ¬ K .host)
    (h_err : ¬ K .err) (h_psq : ¬ K .psq) (h_ctx : ¬ K .ctx) (h_codec : ¬ K .codec) (h_stn : ¬ K .stn)
    (h_nvm : ¬ K .nvm) (h_staySeq : ¬ K .staySeq) (h_mot : ¬ K .mot) (h_vis : ¬ K .vis) (h_net : ¬ K .net) (x0 : Fin
    24) (x1 : Sys2Proof.Word) (h : Kept K a s) :
    ∃ t, execMcStop x0 x1 s = .next t ∧ Kept K a t := by
  unfold execMcStop
  refine ⟨_, rfl, ?_⟩
  with_reducible repeat' first
    | (assumption) | (intro) | (apply kept_hostAt) | (apply kept_mcCtrlWrite) | (apply kept_foldl)
    | (apply kept_foldl_snd) | (apply kept_foldl_fst) | (apply kept_ite) | (dsimp only) | (split)

theorem kept_execMcStopDone (h_regs : ¬ K .regs) (h_free : ¬ K .free) (h_out : ¬ K .out) (h_psq : ¬ K .psq)
    (h_ctx : ¬ K .ctx) (h_stn : ¬ K .stn) (h_mot : ¬ K .mot) (x0 : Fin 24) (h : Kept K a s) :
    ∃ t, execMcStopDone x0 s = .next t ∧ Kept K a t := by
  unfold execMcStopDone
  refine ⟨_, rfl, ?_⟩
  with_reducible repeat' first
    | (assumption) | (intro) | (apply kept_live) | (apply kept_mcOff) | (apply kept_foldl) | (apply kept_foldl_snd)
    | (apply kept_foldl_fst) | (apply kept_ite) | (dsimp only) | (split)

theorem kept_execTimeIncCommit (h_regs : ¬ K .regs) (h_net : ¬ K .net) (x0 : Sys2Proof.Word) (h : Kept K a s) :
    ∃ t, execTimeIncCommit x0 s = .next t ∧ Kept K a t := by
  unfold execTimeIncCommit
  refine ⟨_, rfl, ?_⟩
  with_reducible repeat' first
    | (assumption) | (intro) | (apply kept_hostAt) | (apply kept_timeIncWrite) | (apply kept_foldl)
    | (apply kept_foldl_snd) | (apply kept_foldl_fst) | (apply kept_ite) | (dsimp only) | (split)

theorem kept_execTimeNowRead (h_regs : ¬ K .regs) (h_latch : ¬ K .latch) (h_out : ¬ K .out) (x0 : Fin 16)
    (h : Kept K a s) :
    ∃ t, execTimeNowRead x0 s = .next t ∧ Kept K a t := by
  unfold execTimeNowRead
  refine ⟨_, rfl, ?_⟩
  with_reducible repeat' first
    | (assumption) | (intro) | (apply kept_hostAt) | (apply kept_timeNowRead) | (apply kept_foldl)
    | (apply kept_foldl_snd) | (apply kept_foldl_fst) | (apply kept_ite) | (dsimp only) | (split)

theorem kept_execTimeRearm (h_regs : ¬ K .regs) (h_net : ¬ K .net) (x0 : Sys2Proof.Word) (h : Kept K a s) :
    ∃ t, execTimeRearm x0 s = .next t ∧ Kept K a t := by
  unfold execTimeRearm
  refine ⟨_, rfl, ?_⟩
  with_reducible repeat' first
    | (assumption) | (intro) | (apply kept_hostAt) | (apply kept_timeCtrlWrite) | (apply kept_foldl)
    | (apply kept_foldl_snd) | (apply kept_foldl_fst) | (apply kept_ite) | (dsimp only) | (split)

theorem kept_execTimeStep (h_regs : ¬ K .regs) (h_net : ¬ K .net) (x0 : Sys2Proof.Word) (h : Kept K a s) :
    ∃ t, execTimeStep x0 s = .next t ∧ Kept K a t := by
  unfold execTimeStep
  refine ⟨_, rfl, ?_⟩
  with_reducible repeat' first
    | (assumption) | (intro) | (apply kept_hostAt) | (apply kept_timeCtrlWrite) | (apply kept_foldl)
    | (apply kept_foldl_snd) | (apply kept_foldl_fst) | (apply kept_ite) | (dsimp only) | (split)

theorem kept_execTpoDisable (h_regs : ¬ K .regs) (h_out : ¬ K .out) (h_net : ¬ K .net) (x0 : Fin 8) (x1 :
    Sys2Proof.Word) (h : Kept K a s) :
    ∃ t, execTpoDisable x0 x1 s = .next t ∧ Kept K a t := by
  unfold execTpoDisable
  refine ⟨_, rfl, ?_⟩
  with_reducible repeat' first
    | (assumption) | (intro) | (apply kept_hostAt) | (apply kept_tpoCtrlWrite) | (apply kept_foldl)
    | (apply kept_foldl_snd) | (apply kept_foldl_fst) | (apply kept_ite) | (dsimp only) | (split)

theorem kept_execTpoEdge (h_regs : ¬ K .regs) (h_out : ¬ K .out) (h_net : ¬ K .net) (h_dma : ¬ K .dma) (x0 : Fin 8)
    (h : Kept K a s) :
    ∃ t, execTpoEdge x0 s = .next t ∧ Kept K a t := by
  unfold execTpoEdge
  refine ⟨_, rfl, ?_⟩
  with_reducible repeat' first
    | (assumption) | (intro) | (apply kept_live) | (apply kept_tpoEdge) | (apply kept_foldl) | (apply kept_foldl_snd)
    | (apply kept_foldl_fst) | (apply kept_ite) | (dsimp only) | (split)

theorem kept_execTpoEnable (h_regs : ¬ K .regs) (h_out : ¬ K .out) (h_net : ¬ K .net) (x0 : Fin 8) (x1 :
    Sys2Proof.Word) (h : Kept K a s) :
    ∃ t, execTpoEnable x0 x1 s = .next t ∧ Kept K a t := by
  unfold execTpoEnable
  refine ⟨_, rfl, ?_⟩
  with_reducible repeat' first
    | (assumption) | (intro) | (apply kept_hostAt) | (apply kept_tpoCtrlWrite) | (apply kept_foldl)
    | (apply kept_foldl_snd) | (apply kept_foldl_fst) | (apply kept_ite) | (dsimp only) | (split)

theorem kept_execTpoPulseEnd (h_regs : ¬ K .regs) (h_out : ¬ K .out) (h_net : ¬ K .net) (x0 : Fin 8) (h : Kept K a s)
    :
    ∃ t, execTpoPulseEnd x0 s = .next t ∧ Kept K a t := by
  unfold execTpoPulseEnd
  refine ⟨_, rfl, ?_⟩
  with_reducible repeat' first
    | (assumption) | (intro) | (apply kept_live) | (apply kept_tpoFall) | (apply kept_foldl) | (apply kept_foldl_snd)
    | (apply kept_foldl_fst) | (apply kept_ite) | (dsimp only) | (split)

theorem kept_execCsetConfirm (h_regs : ¬ K .regs) (h_rig : ¬ K .rig) (x0 : Sys2Proof.Word) (h : Kept K a s) :
    ∃ t, execCsetConfirm x0 s = .next t ∧ Kept K a t := by
  unfold execCsetConfirm
  refine ⟨_, rfl, ?_⟩
  with_reducible repeat' first
    | (assumption) | (intro) | (apply kept_hostAt) | (apply kept_csetConfirm) | (apply kept_foldl)
    | (apply kept_foldl_snd) | (apply kept_foldl_fst) | (apply kept_ite) | (dsimp only) | (split)

theorem kept_execCsetProgramDone (h_regs : ¬ K .regs) (h_rig : ¬ K .rig)  (h : Kept K a s) :
    ∃ t, execCsetProgramDone s = .next t ∧ Kept K a t := by
  unfold execCsetProgramDone
  refine ⟨_, rfl, ?_⟩
  with_reducible repeat' first
    | (assumption) | (intro) | (apply kept_live) | (apply kept_csetDone) | (apply kept_foldl)
    | (apply kept_foldl_snd) | (apply kept_foldl_fst) | (apply kept_ite) | (dsimp only) | (split)

theorem kept_execBoundaryLocked (h_regs : ¬ K .regs) (h_psq : ¬ K .psq)  (h : Kept K a s) :
    ∃ t, execBoundaryLocked s = .next t ∧ Kept K a t := by
  unfold execBoundaryLocked
  refine ⟨_, rfl, ?_⟩
  with_reducible repeat' first
    | (assumption) | (intro) | (apply kept_live) | (apply kept_boundaryLocked) | (apply kept_foldl)
    | (apply kept_foldl_snd) | (apply kept_foldl_fst) | (apply kept_ite) | (dsimp only) | (split)

theorem kept_execBoundaryPathClear (h_regs : ¬ K .regs) (h_psq : ¬ K .psq) (h_stn : ¬ K .stn) (h_clk : ¬ K .clk)
    (h : Kept K a s) :
    ∃ t, execBoundaryPathClear s = .next t ∧ Kept K a t := by
  unfold execBoundaryPathClear
  refine ⟨_, rfl, ?_⟩
  with_reducible repeat' first
    | (assumption) | (intro) | (apply kept_live) | (apply kept_boundaryPathClear) | (apply kept_foldl)
    | (apply kept_foldl_snd) | (apply kept_foldl_fst) | (apply kept_ite) | (dsimp only) | (split)

theorem kept_execDrainComplete (h_regs : ¬ K .regs) (h_free : ¬ K .free) (h_out : ¬ K .out) (h_psq : ¬ K .psq)
    (h_ctx : ¬ K .ctx) (h_stn : ¬ K .stn) (h_mot : ¬ K .mot)  (h : Kept K a s) :
    ∃ t, execDrainComplete s = .next t ∧ Kept K a t := by
  unfold execDrainComplete
  refine ⟨_, rfl, ?_⟩
  with_reducible repeat' first
    | (assumption) | (intro) | (apply kept_live) | (apply kept_furl) | (apply kept_foldl) | (apply kept_foldl_snd)
    | (apply kept_foldl_fst) | (apply kept_ite) | (dsimp only) | (split)

theorem kept_execEncoderSample (h_regs : ¬ K .regs) (h_free : ¬ K .free) (h_out : ¬ K .out) (h_host : ¬ K .host)
    (h_err : ¬ K .err) (h_psq : ¬ K .psq) (h_ctx : ¬ K .ctx) (h_codec : ¬ K .codec) (h_stn : ¬ K .stn)
    (h_nvm : ¬ K .nvm) (h_staySeq : ¬ K .staySeq) (h_mot : ¬ K .mot) (h_vis : ¬ K .vis) (h_net : ¬ K .net) (x0 :
    BitVec 32) (h : Kept K a s) :
    ∃ t, execEncoderSample x0 s = .next t ∧ Kept K a t := by
  unfold execEncoderSample
  refine ⟨_, rfl, ?_⟩
  with_reducible repeat' first
    | (assumption) | (intro) | (apply kept_live) | (apply kept_encoderSample) | (apply kept_foldl)
    | (apply kept_foldl_snd) | (apply kept_foldl_fst) | (apply kept_ite) | (dsimp only) | (split)

theorem kept_execFeedAck (h_regs : ¬ K .regs) (h_out : ¬ K .out) (h_psq : ¬ K .psq) (h_ctx : ¬ K .ctx)
    (h_stn : ¬ K .stn) (h_clk : ¬ K .clk) (h_vis : ¬ K .vis)  (h : Kept K a s) :
    ∃ t, execFeedAck s = .next t ∧ Kept K a t := by
  unfold execFeedAck
  refine ⟨_, rfl, ?_⟩
  with_reducible repeat' first
    | (assumption) | (intro) | (apply kept_live) | (apply kept_feedAck) | (apply kept_foldl) | (apply kept_foldl_snd)
    | (apply kept_foldl_fst) | (apply kept_ite) | (dsimp only) | (split)

theorem kept_execFeedReqRaise (h_regs : ¬ K .regs) (h_out : ¬ K .out) (h_psq : ¬ K .psq)  (h : Kept K a s) :
    ∃ t, execFeedReqRaise s = .next t ∧ Kept K a t := by
  unfold execFeedReqRaise
  refine ⟨_, rfl, ?_⟩
  with_reducible repeat' first
    | (assumption) | (intro) | (apply kept_live) | (apply kept_feedReqRaise) | (apply kept_foldl)
    | (apply kept_foldl_snd) | (apply kept_foldl_fst) | (apply kept_ite) | (dsimp only) | (split)

theorem kept_execFeedSense (h_regs : ¬ K .regs) (h_free : ¬ K .free) (h_out : ¬ K .out) (h_host : ¬ K .host)
    (h_err : ¬ K .err) (h_psq : ¬ K .psq) (h_ctx : ¬ K .ctx) (h_codec : ¬ K .codec) (h_stn : ¬ K .stn)
    (h_nvm : ¬ K .nvm) (h_staySeq : ¬ K .staySeq) (h_mot : ¬ K .mot) (h_vis : ¬ K .vis) (h_net : ¬ K .net)
    (h : Kept K a s) :
    ∃ t, execFeedSense s = .next t ∧ Kept K a t := by
  unfold execFeedSense
  refine ⟨_, rfl, ?_⟩
  with_reducible repeat' first
    | (assumption) | (intro) | (apply kept_live) | (apply kept_feedSense) | (apply kept_foldl)
    | (apply kept_foldl_snd) | (apply kept_foldl_fst) | (apply kept_ite) | (dsimp only) | (split)

theorem kept_execMisfeedTimeout (h_regs : ¬ K .regs) (h_free : ¬ K .free) (h_out : ¬ K .out) (h_host : ¬ K .host)
    (h_err : ¬ K .err) (h_psq : ¬ K .psq) (h_ctx : ¬ K .ctx) (h_codec : ¬ K .codec) (h_stn : ¬ K .stn)
    (h_nvm : ¬ K .nvm) (h_staySeq : ¬ K .staySeq) (h_mot : ¬ K .mot) (h_vis : ¬ K .vis) (h_net : ¬ K .net) (x0 : Fin
    256) (h : Kept K a s) :
    ∃ t, execMisfeedTimeout x0 s = .next t ∧ Kept K a t := by
  unfold execMisfeedTimeout
  refine ⟨_, rfl, ?_⟩
  with_reducible repeat' first
    | (assumption) | (intro) | (apply kept_live) | (apply kept_misfeedTimeout) | (apply kept_foldl)
    | (apply kept_foldl_snd) | (apply kept_foldl_fst) | (apply kept_ite) | (dsimp only) | (split)

theorem kept_execPtrimWrite (h_regs : ¬ K .regs) (h_out : ¬ K .out) (h_psq : ¬ K .psq) (h_stn : ¬ K .stn)
    (h_clk : ¬ K .clk) (x0 : Sys2Proof.Word) (h : Kept K a s) :
    ∃ t, execPtrimWrite x0 s = .next t ∧ Kept K a t := by
  unfold execPtrimWrite
  refine ⟨_, rfl, ?_⟩
  with_reducible repeat' first
    | (assumption) | (intro) | (apply kept_hostAt) | (apply kept_ptrimWrite) | (apply kept_foldl)
    | (apply kept_foldl_snd) | (apply kept_foldl_fst) | (apply kept_ite) | (dsimp only) | (split)

theorem kept_execSpeedBoundaryStart (h_regs : ¬ K .regs) (h_out : ¬ K .out) (h_psq : ¬ K .psq)  (h : Kept K a s) :
    ∃ t, execSpeedBoundaryStart s = .next t ∧ Kept K a t := by
  unfold execSpeedBoundaryStart
  refine ⟨_, rfl, ?_⟩
  with_reducible repeat' first
    | (assumption) | (intro) | (apply kept_live) | (apply kept_boundaryStart) | (apply kept_foldl)
    | (apply kept_foldl_snd) | (apply kept_foldl_fst) | (apply kept_ite) | (dsimp only) | (split)

theorem kept_execTrigDelivery (h_regs : ¬ K .regs) (h_out : ¬ K .out) (h_psq : ¬ K .psq) (h_ctx : ¬ K .ctx) (x0 : Fin
    256) (h : Kept K a s) :
    ∃ t, execTrigDelivery x0 s = .next t ∧ Kept K a t := by
  unfold execTrigDelivery
  refine ⟨_, rfl, ?_⟩
  with_reducible repeat' first
    | (assumption) | (intro) | (apply kept_live) | (apply kept_inTurn) | (apply kept_trigDelivery)
    | (apply kept_foldl) | (apply kept_foldl_snd) | (apply kept_foldl_fst) | (apply kept_ite) | (dsimp only)
    | (split)

theorem kept_execTrigFeedpos (h_regs : ¬ K .regs) (h_ctx : ¬ K .ctx) (x0 : Fin 256) (h : Kept K a s) :
    ∃ t, execTrigFeedpos x0 s = .next t ∧ Kept K a t := by
  unfold execTrigFeedpos
  refine ⟨_, rfl, ?_⟩
  with_reducible repeat' first
    | (assumption) | (intro) | (apply kept_live) | (apply kept_inTurn) | (apply kept_State_p) | (apply kept_noteMove)
    | (apply kept_foldl) | (apply kept_foldl_snd) | (apply kept_foldl_fst) | (apply kept_ite) | (dsimp only)
    | (split)

theorem kept_execTrigPrefetch (h_regs : ¬ K .regs) (h_ctx : ¬ K .ctx) (h_stn : ¬ K .stn) (x0 : Fin 256) (x1 : Fin 8)
    (h : Kept K a s) :
    ∃ t, execTrigPrefetch x0 x1 s = .next t ∧ Kept K a t := by
  unfold execTrigPrefetch
  refine ⟨_, rfl, ?_⟩
  with_reducible repeat' first
    | (assumption) | (intro) | (apply kept_stnLive) | (apply kept_inTurn) | (apply kept_fetchSheet)
    | (apply kept_foldl) | (apply kept_foldl_snd) | (apply kept_foldl_fst) | (apply kept_ite) | (dsimp only)
    | (split)

theorem kept_execTrigStation (h_regs : ¬ K .regs) (h_free : ¬ K .free) (h_out : ¬ K .out) (h_host : ¬ K .host)
    (h_err : ¬ K .err) (h_psq : ¬ K .psq) (h_ctx : ¬ K .ctx) (h_codec : ¬ K .codec) (h_stn : ¬ K .stn)
    (h_nvm : ¬ K .nvm) (h_staySeq : ¬ K .staySeq) (h_mot : ¬ K .mot) (h_vis : ¬ K .vis) (h_net : ¬ K .net) (x0 : Fin
    256) (x1 : Fin 8) (h : Kept K a s) :
    ∃ t, execTrigStation x0 x1 s = .next t ∧ Kept K a t := by
  unfold execTrigStation
  refine ⟨_, rfl, ?_⟩
  with_reducible repeat' first
    | (assumption) | (intro) | (apply kept_stnLive) | (apply kept_inTurn) | (apply kept_trigStation)
    | (apply kept_foldl) | (apply kept_foldl_snd) | (apply kept_foldl_fst) | (apply kept_ite) | (dsimp only)
    | (split)

theorem kept_execTrigStationDone (h_regs : ¬ K .regs) (h_free : ¬ K .free) (h_out : ¬ K .out) (h_psq : ¬ K .psq)
    (h_ctx : ¬ K .ctx) (h_stn : ¬ K .stn) (h_clk : ¬ K .clk) (x0 : Fin 256) (x1 : Fin 8) (h : Kept K a s) :
    ∃ t, execTrigStationDone x0 x1 s = .next t ∧ Kept K a t := by
  unfold execTrigStationDone
  refine ⟨_, rfl, ?_⟩
  with_reducible repeat' first
    | (assumption) | (intro) | (apply kept_stnLive) | (apply kept_inTurn) | (apply kept_trigStationDone)
    | (apply kept_foldl) | (apply kept_foldl_snd) | (apply kept_foldl_fst) | (apply kept_ite) | (dsimp only)
    | (split)

theorem kept_execTrigWebOrigin (h_regs : ¬ K .regs) (h_out : ¬ K .out) (h_psq : ¬ K .psq) (h_ctx : ¬ K .ctx)
    (h_stn : ¬ K .stn) (h_clk : ¬ K .clk) (h_vis : ¬ K .vis)  (h : Kept K a s) :
    ∃ t, execTrigWebOrigin s = .next t ∧ Kept K a t := by
  unfold execTrigWebOrigin
  refine ⟨_, rfl, ?_⟩
  with_reducible repeat' first
    | (assumption) | (intro) | (apply kept_live) | (apply kept_trigWebOrigin) | (apply kept_foldl)
    | (apply kept_foldl_snd) | (apply kept_foldl_fst) | (apply kept_ite) | (dsimp only) | (split)

theorem kept_execWarmupComplete (h_regs : ¬ K .regs)  (h : Kept K a s) :
    ∃ t, execWarmupComplete s = .next t ∧ Kept K a t := by
  unfold execWarmupComplete
  refine ⟨_, rfl, ?_⟩
  with_reducible repeat' first
    | (assumption) | (intro) | (apply kept_live) | (apply kept_State_setEngine) | (apply kept_foldl)
    | (apply kept_foldl_snd) | (apply kept_foldl_fst) | (apply kept_ite) | (dsimp only) | (split)

theorem kept_execWebRunStart (h_psq : ¬ K .psq)  (h : Kept K a s) :
    ∃ t, execWebRunStart s = .next t ∧ Kept K a t := by
  unfold execWebRunStart
  refine ⟨_, rfl, ?_⟩
  with_reducible repeat' first
    | (assumption) | (intro) | (apply kept_live) | (apply kept_webRunStart) | (apply kept_foldl)
    | (apply kept_foldl_snd) | (apply kept_foldl_fst) | (apply kept_ite) | (dsimp only) | (split)

theorem kept_execOnRequestStart (h_regs : ¬ K .regs) (h_latch : ¬ K .latch) (h_mem : ¬ K .mem) (h_time : ¬ K .time)
    (h_free : ¬ K .free) (h_host : ¬ K .host) (h_err : ¬ K .err) (h_psq : ¬ K .psq) (h_ctx : ¬ K .ctx)
    (h_codec : ¬ K .codec) (h_stn : ¬ K .stn) (h_epoch : ¬ K .epoch) (h_staySeq : ¬ K .staySeq) (h_dram : ¬ K .dram)
    (h_clk : ¬ K .clk) (h_mon : ¬ K .mon) (h_rig : ¬ K .rig) (h_mot : ¬ K .mot) (h_pwr : ¬ K .pwr) (h_thm : ¬ K .thm)
    (h_vis : ¬ K .vis) (h_net : ¬ K .net) (h_dma : ¬ K .dma)  (h : Kept K a s) :
    ∃ t, execOnRequestStart s = .next t ∧ Kept K a t := by
  unfold execOnRequestStart
  refine ⟨_, rfl, ?_⟩
  with_reducible repeat' first
    | (assumption) | (intro) | (apply kept_stayStep) | (apply kept_onRequestStart) | (apply kept_foldl)
    | (apply kept_foldl_snd) | (apply kept_foldl_fst) | (apply kept_ite) | (dsimp only) | (split)

theorem kept_execPwrCntClr (h_regs : ¬ K .regs) (h_free : ¬ K .free) (h_out : ¬ K .out) (h_host : ¬ K .host)
    (h_err : ¬ K .err) (h_psq : ¬ K .psq) (h_ctx : ¬ K .ctx) (h_codec : ¬ K .codec) (h_stn : ¬ K .stn)
    (h_nvm : ¬ K .nvm) (h_staySeq : ¬ K .staySeq) (h_mot : ¬ K .mot) (h_pwr : ¬ K .pwr) (h_vis : ¬ K .vis)
    (h_net : ¬ K .net) (x0 : Sys2Proof.Word) (h : Kept K a s) :
    ∃ t, execPwrCntClr x0 s = .next t ∧ Kept K a t := by
  unfold execPwrCntClr
  refine ⟨_, rfl, ?_⟩
  with_reducible repeat' first
    | (assumption) | (intro) | (apply kept_hostAt) | (apply kept_pwrCtrlWrite) | (apply kept_foldl)
    | (apply kept_foldl_snd) | (apply kept_foldl_fst) | (apply kept_ite) | (dsimp only) | (split)

theorem kept_execPwrOff (h_regs : ¬ K .regs) (h_free : ¬ K .free) (h_out : ¬ K .out) (h_host : ¬ K .host)
    (h_err : ¬ K .err) (h_psq : ¬ K .psq) (h_ctx : ¬ K .ctx) (h_codec : ¬ K .codec) (h_stn : ¬ K .stn)
    (h_nvm : ¬ K .nvm) (h_staySeq : ¬ K .staySeq) (h_mot : ¬ K .mot) (h_pwr : ¬ K .pwr) (h_vis : ¬ K .vis)
    (h_net : ¬ K .net) (x0 : Sys2Proof.Word) (h : Kept K a s) :
    ∃ t, execPwrOff x0 s = .next t ∧ Kept K a t := by
  unfold execPwrOff
  refine ⟨_, rfl, ?_⟩
  with_reducible repeat' first
    | (assumption) | (intro) | (apply kept_hostAt) | (apply kept_pwrCtrlWrite) | (apply kept_foldl)
    | (apply kept_foldl_snd) | (apply kept_foldl_fst) | (apply kept_ite) | (dsimp only) | (split)

theorem kept_execPwrSave (h_regs : ¬ K .regs) (h_free : ¬ K .free) (h_out : ¬ K .out) (h_host : ¬ K .host)
    (h_err : ¬ K .err) (h_psq : ¬ K .psq) (h_ctx : ¬ K .ctx) (h_codec : ¬ K .codec) (h_stn : ¬ K .stn)
    (h_nvm : ¬ K .nvm) (h_staySeq : ¬ K .staySeq) (h_mot : ¬ K .mot) (h_pwr : ¬ K .pwr) (h_vis : ¬ K .vis)
    (h_net : ¬ K .net) (x0 : Sys2Proof.Word) (h : Kept K a s) :
    ∃ t, execPwrSave x0 s = .next t ∧ Kept K a t := by
  unfold execPwrSave
  refine ⟨_, rfl, ?_⟩
  with_reducible repeat' first
    | (assumption) | (intro) | (apply kept_hostAt) | (apply kept_pwrCtrlWrite) | (apply kept_foldl)
    | (apply kept_foldl_snd) | (apply kept_foldl_fst) | (apply kept_ite) | (dsimp only) | (split)

theorem kept_execPwrUncleat (h_regs : ¬ K .regs) (h_free : ¬ K .free) (h_out : ¬ K .out) (h_host : ¬ K .host)
    (h_err : ¬ K .err) (h_psq : ¬ K .psq) (h_ctx : ¬ K .ctx) (h_codec : ¬ K .codec) (h_stn : ¬ K .stn)
    (h_nvm : ¬ K .nvm) (h_staySeq : ¬ K .staySeq) (h_mot : ¬ K .mot) (h_pwr : ¬ K .pwr) (h_vis : ¬ K .vis)
    (h_net : ¬ K .net) (x0 : Sys2Proof.Word) (h : Kept K a s) :
    ∃ t, execPwrUncleat x0 s = .next t ∧ Kept K a t := by
  unfold execPwrUncleat
  refine ⟨_, rfl, ?_⟩
  with_reducible repeat' first
    | (assumption) | (intro) | (apply kept_hostAt) | (apply kept_pwrCtrlWrite) | (apply kept_foldl)
    | (apply kept_foldl_snd) | (apply kept_foldl_fst) | (apply kept_ite) | (dsimp only) | (split)

theorem kept_execRailDroop (h_regs : ¬ K .regs) (h_latch : ¬ K .latch) (h_mem : ¬ K .mem) (h_time : ¬ K .time)
    (h_free : ¬ K .free) (h_out : ¬ K .out) (h_host : ¬ K .host) (h_err : ¬ K .err) (h_psq : ¬ K .psq)
    (h_ctx : ¬ K .ctx) (h_codec : ¬ K .codec) (h_stn : ¬ K .stn) (h_epoch : ¬ K .epoch) (h_nvm : ¬ K .nvm)
    (h_staySeq : ¬ K .staySeq) (h_dram : ¬ K .dram) (h_clk : ¬ K .clk) (h_mon : ¬ K .mon) (h_rig : ¬ K .rig)
    (h_mot : ¬ K .mot) (h_pwr : ¬ K .pwr) (h_thm : ¬ K .thm) (h_vis : ¬ K .vis) (h_net : ¬ K .net) (h_dma : ¬ K .dma)
    (x0 : Fin 32) (h : Kept K a s) :
    ∃ t, execRailDroop x0 s = .next t ∧ Kept K a t := by
  unfold execRailDroop
  refine ⟨_, rfl, ?_⟩
  with_reducible repeat' first
    | (assumption) | (intro) | (apply kept_stayStep) | (apply kept_railDroop) | (apply kept_foldl)
    | (apply kept_foldl_snd) | (apply kept_foldl_fst) | (apply kept_ite) | (dsimp only) | (split)

theorem kept_execRailGoodDrop (h_regs : ¬ K .regs) (h_latch : ¬ K .latch) (h_mem : ¬ K .mem) (h_time : ¬ K .time)
    (h_free : ¬ K .free) (h_host : ¬ K .host) (h_err : ¬ K .err) (h_psq : ¬ K .psq) (h_ctx : ¬ K .ctx)
    (h_codec : ¬ K .codec) (h_stn : ¬ K .stn) (h_epoch : ¬ K .epoch) (h_staySeq : ¬ K .staySeq) (h_dram : ¬ K .dram)
    (h_clk : ¬ K .clk) (h_mon : ¬ K .mon) (h_rig : ¬ K .rig) (h_mot : ¬ K .mot) (h_pwr : ¬ K .pwr) (h_thm : ¬ K .thm)
    (h_vis : ¬ K .vis) (h_net : ¬ K .net) (h_dma : ¬ K .dma) (x0 : Fin 32) (h : Kept K a s) :
    ∃ t, execRailGoodDrop x0 s = .next t ∧ Kept K a t := by
  unfold execRailGoodDrop
  refine ⟨_, rfl, ?_⟩
  with_reducible repeat' first
    | (assumption) | (intro) | (apply kept_stayStep) | (apply kept_pgDrop) | (apply kept_foldl)
    | (apply kept_foldl_snd) | (apply kept_foldl_fst) | (apply kept_ite) | (dsimp only) | (split)

theorem kept_execRailGoodRise (h_regs : ¬ K .regs) (h_latch : ¬ K .latch) (h_mem : ¬ K .mem) (h_time : ¬ K .time)
    (h_free : ¬ K .free) (h_host : ¬ K .host) (h_err : ¬ K .err) (h_psq : ¬ K .psq) (h_ctx : ¬ K .ctx)
    (h_codec : ¬ K .codec) (h_stn : ¬ K .stn) (h_epoch : ¬ K .epoch) (h_staySeq : ¬ K .staySeq) (h_dram : ¬ K .dram)
    (h_clk : ¬ K .clk) (h_mon : ¬ K .mon) (h_rig : ¬ K .rig) (h_mot : ¬ K .mot) (h_pwr : ¬ K .pwr) (h_thm : ¬ K .thm)
    (h_vis : ¬ K .vis) (h_net : ¬ K .net) (h_dma : ¬ K .dma) (x0 : Fin 32) (h : Kept K a s) :
    ∃ t, execRailGoodRise x0 s = .next t ∧ Kept K a t := by
  unfold execRailGoodRise
  refine ⟨_, rfl, ?_⟩
  with_reducible repeat' first
    | (assumption) | (intro) | (apply kept_stayStep) | (apply kept_pgRise) | (apply kept_foldl)
    | (apply kept_foldl_snd) | (apply kept_foldl_fst) | (apply kept_ite) | (dsimp only) | (split)

theorem kept_execRailOvSample (h_regs : ¬ K .regs) (h_latch : ¬ K .latch) (h_mem : ¬ K .mem) (h_time : ¬ K .time)
    (h_free : ¬ K .free) (h_out : ¬ K .out) (h_host : ¬ K .host) (h_err : ¬ K .err) (h_psq : ¬ K .psq)
    (h_ctx : ¬ K .ctx) (h_codec : ¬ K .codec) (h_stn : ¬ K .stn) (h_epoch : ¬ K .epoch) (h_nvm : ¬ K .nvm)
    (h_staySeq : ¬ K .staySeq) (h_dram : ¬ K .dram) (h_clk : ¬ K .clk) (h_mon : ¬ K .mon) (h_rig : ¬ K .rig)
    (h_mot : ¬ K .mot) (h_pwr : ¬ K .pwr) (h_thm : ¬ K .thm) (h_vis : ¬ K .vis) (h_net : ¬ K .net) (h_dma : ¬ K .dma)
    (x0 : Fin 32) (x1 : BitVec 12) (h : Kept K a s) :
    ∃ t, execRailOvSample x0 x1 s = .next t ∧ Kept K a t := by
  unfold execRailOvSample
  refine ⟨_, rfl, ?_⟩
  with_reducible repeat' first
    | (assumption) | (intro) | (apply kept_stayStep) | (apply kept_railOv) | (apply kept_foldl)
    | (apply kept_foldl_snd) | (apply kept_foldl_fst) | (apply kept_ite) | (dsimp only) | (split)

theorem kept_execRailQualified (h_regs : ¬ K .regs) (h_latch : ¬ K .latch) (h_mem : ¬ K .mem) (h_time : ¬ K .time)
    (h_free : ¬ K .free) (h_host : ¬ K .host) (h_err : ¬ K .err) (h_psq : ¬ K .psq) (h_ctx : ¬ K .ctx)
    (h_codec : ¬ K .codec) (h_stn : ¬ K .stn) (h_epoch : ¬ K .epoch) (h_staySeq : ¬ K .staySeq) (h_dram : ¬ K .dram)
    (h_clk : ¬ K .clk) (h_mon : ¬ K .mon) (h_rig : ¬ K .rig) (h_mot : ¬ K .mot) (h_pwr : ¬ K .pwr) (h_thm : ¬ K .thm)
    (h_vis : ¬ K .vis) (h_net : ¬ K .net) (h_dma : ¬ K .dma) (x0 : Fin 32) (h : Kept K a s) :
    ∃ t, execRailQualified x0 s = .next t ∧ Kept K a t := by
  unfold execRailQualified
  refine ⟨_, rfl, ?_⟩
  with_reducible repeat' first
    | (assumption) | (intro) | (apply kept_stayStep) | (apply kept_railQualified) | (apply kept_foldl)
    | (apply kept_foldl_snd) | (apply kept_foldl_fst) | (apply kept_ite) | (dsimp only) | (split)

theorem kept_execRetryDelayEnd (h_regs : ¬ K .regs) (h_latch : ¬ K .latch) (h_mem : ¬ K .mem) (h_time : ¬ K .time)
    (h_free : ¬ K .free) (h_out : ¬ K .out) (h_host : ¬ K .host) (h_err : ¬ K .err) (h_psq : ¬ K .psq)
    (h_ctx : ¬ K .ctx) (h_codec : ¬ K .codec) (h_stn : ¬ K .stn) (h_epoch : ¬ K .epoch) (h_nvm : ¬ K .nvm)
    (h_staySeq : ¬ K .staySeq) (h_dram : ¬ K .dram) (h_clk : ¬ K .clk) (h_mon : ¬ K .mon) (h_rig : ¬ K .rig)
    (h_mot : ¬ K .mot) (h_pwr : ¬ K .pwr) (h_thm : ¬ K .thm) (h_vis : ¬ K .vis) (h_net : ¬ K .net) (h_dma : ¬ K .dma)
     (h : Kept K a s) :
    ∃ t, execRetryDelayEnd s = .next t ∧ Kept K a t := by
  unfold execRetryDelayEnd
  refine ⟨_, rfl, ?_⟩
  with_reducible repeat' first
    | (assumption) | (intro) | (apply kept_stayStep) | (apply kept_retryEnd) | (apply kept_foldl)
    | (apply kept_foldl_snd) | (apply kept_foldl_fst) | (apply kept_ite) | (dsimp only) | (split)

theorem kept_execSagRearm (h_regs : ¬ K .regs) (h_latch : ¬ K .latch) (h_mem : ¬ K .mem) (h_time : ¬ K .time)
    (h_free : ¬ K .free) (h_host : ¬ K .host) (h_err : ¬ K .err) (h_psq : ¬ K .psq) (h_ctx : ¬ K .ctx)
    (h_codec : ¬ K .codec) (h_stn : ¬ K .stn) (h_epoch : ¬ K .epoch) (h_staySeq : ¬ K .staySeq) (h_dram : ¬ K .dram)
    (h_clk : ¬ K .clk) (h_mon : ¬ K .mon) (h_rig : ¬ K .rig) (h_mot : ¬ K .mot) (h_thm : ¬ K .thm) (h_vis : ¬ K .vis)
    (h_net : ¬ K .net) (h_dma : ¬ K .dma) (x0 : BitVec 16) (h : Kept K a s) :
    ∃ t, execSagRearm x0 s = .next t ∧ Kept K a t := by
  unfold execSagRearm
  refine ⟨_, rfl, ?_⟩
  with_reducible repeat' first
    | (assumption) | (intro) | (apply kept_stayStep) | (apply kept_sagRearm) | (apply kept_foldl)
    | (apply kept_foldl_snd) | (apply kept_foldl_fst) | (apply kept_ite) | (dsimp only) | (split)

theorem kept_execSagTrip (h_regs : ¬ K .regs) (h_latch : ¬ K .latch) (h_mem : ¬ K .mem) (h_time : ¬ K .time)
    (h_free : ¬ K .free) (h_out : ¬ K .out) (h_host : ¬ K .host) (h_err : ¬ K .err) (h_psq : ¬ K .psq)
    (h_ctx : ¬ K .ctx) (h_codec : ¬ K .codec) (h_stn : ¬ K .stn) (h_epoch : ¬ K .epoch) (h_nvm : ¬ K .nvm)
    (h_staySeq : ¬ K .staySeq) (h_dram : ¬ K .dram) (h_clk : ¬ K .clk) (h_mon : ¬ K .mon) (h_rig : ¬ K .rig)
    (h_mot : ¬ K .mot) (h_pwr : ¬ K .pwr) (h_thm : ¬ K .thm) (h_vis : ¬ K .vis) (h_net : ¬ K .net) (h_dma : ¬ K .dma)
    (x0 : BitVec 16) (x1 : BitVec 16) (h : Kept K a s) :
    ∃ t, execSagTrip x0 x1 s = .next t ∧ Kept K a t := by
  unfold execSagTrip
  refine ⟨_, rfl, ?_⟩
  with_reducible repeat' first
    | (assumption) | (intro) | (apply kept_stayStep) | (apply kept_sagTrip) | (apply kept_foldl)
    | (apply kept_foldl_snd) | (apply kept_foldl_fst) | (apply kept_ite) | (dsimp only) | (split)

theorem kept_execSeqCheck (h_regs : ¬ K .regs) (h_latch : ¬ K .latch) (h_mem : ¬ K .mem) (h_time : ¬ K .time)
    (h_free : ¬ K .free) (h_host : ¬ K .host) (h_err : ¬ K .err) (h_psq : ¬ K .psq) (h_ctx : ¬ K .ctx)
    (h_codec : ¬ K .codec) (h_stn : ¬ K .stn) (h_epoch : ¬ K .epoch) (h_staySeq : ¬ K .staySeq) (h_dram : ¬ K .dram)
    (h_clk : ¬ K .clk) (h_mon : ¬ K .mon) (h_rig : ¬ K .rig) (h_mot : ¬ K .mot) (h_pwr : ¬ K .pwr) (h_thm : ¬ K .thm)
    (h_vis : ¬ K .vis) (h_net : ¬ K .net) (h_dma : ¬ K .dma) (x0 : BitVec 12) (h : Kept K a s) :
    ∃ t, execSeqCheck x0 s = .next t ∧ Kept K a t := by
  unfold execSeqCheck
  refine ⟨_, rfl, ?_⟩
  with_reducible repeat' first
    | (assumption) | (intro) | (apply kept_stayStep) | (apply kept_seqCheck) | (apply kept_foldl)
    | (apply kept_foldl_snd) | (apply kept_foldl_fst) | (apply kept_ite) | (dsimp only) | (split)

theorem kept_execSeqDisable (h_regs : ¬ K .regs) (h_latch : ¬ K .latch) (h_mem : ¬ K .mem) (h_time : ¬ K .time)
    (h_free : ¬ K .free) (h_host : ¬ K .host) (h_err : ¬ K .err) (h_psq : ¬ K .psq) (h_ctx : ¬ K .ctx)
    (h_codec : ¬ K .codec) (h_stn : ¬ K .stn) (h_epoch : ¬ K .epoch) (h_staySeq : ¬ K .staySeq) (h_dram : ¬ K .dram)
    (h_clk : ¬ K .clk) (h_mon : ¬ K .mon) (h_rig : ¬ K .rig) (h_mot : ¬ K .mot) (h_pwr : ¬ K .pwr) (h_thm : ¬ K .thm)
    (h_vis : ¬ K .vis) (h_net : ¬ K .net) (h_dma : ¬ K .dma)  (h : Kept K a s) :
    ∃ t, execSeqDisable s = .next t ∧ Kept K a t := by
  unfold execSeqDisable
  refine ⟨_, rfl, ?_⟩
  with_reducible repeat' first
    | (assumption) | (intro) | (apply kept_stayStep) | (apply kept_seqDisable) | (apply kept_foldl)
    | (apply kept_foldl_snd) | (apply kept_foldl_fst) | (apply kept_ite) | (dsimp only) | (split)

theorem kept_execSeqEnable (h_regs : ¬ K .regs) (h_latch : ¬ K .latch) (h_mem : ¬ K .mem) (h_time : ¬ K .time)
    (h_free : ¬ K .free) (h_host : ¬ K .host) (h_err : ¬ K .err) (h_psq : ¬ K .psq) (h_ctx : ¬ K .ctx)
    (h_codec : ¬ K .codec) (h_stn : ¬ K .stn) (h_epoch : ¬ K .epoch) (h_staySeq : ¬ K .staySeq) (h_dram : ¬ K .dram)
    (h_clk : ¬ K .clk) (h_mon : ¬ K .mon) (h_rig : ¬ K .rig) (h_mot : ¬ K .mot) (h_pwr : ¬ K .pwr) (h_thm : ¬ K .thm)
    (h_vis : ¬ K .vis) (h_net : ¬ K .net) (h_dma : ¬ K .dma)  (h : Kept K a s) :
    ∃ t, execSeqEnable s = .next t ∧ Kept K a t := by
  unfold execSeqEnable
  refine ⟨_, rfl, ?_⟩
  with_reducible repeat' first
    | (assumption) | (intro) | (apply kept_stayStep) | (apply kept_seqEnable) | (apply kept_foldl)
    | (apply kept_foldl_snd) | (apply kept_foldl_fst) | (apply kept_ite) | (dsimp only) | (split)

theorem kept_execSeqEnd (h_regs : ¬ K .regs) (h_latch : ¬ K .latch) (h_mem : ¬ K .mem) (h_time : ¬ K .time)
    (h_free : ¬ K .free) (h_host : ¬ K .host) (h_err : ¬ K .err) (h_psq : ¬ K .psq) (h_ctx : ¬ K .ctx)
    (h_codec : ¬ K .codec) (h_stn : ¬ K .stn) (h_epoch : ¬ K .epoch) (h_staySeq : ¬ K .staySeq) (h_dram : ¬ K .dram)
    (h_clk : ¬ K .clk) (h_mon : ¬ K .mon) (h_rig : ¬ K .rig) (h_mot : ¬ K .mot) (h_pwr : ¬ K .pwr) (h_thm : ¬ K .thm)
    (h_vis : ¬ K .vis) (h_net : ¬ K .net) (h_dma : ¬ K .dma)  (h : Kept K a s) :
    ∃ t, execSeqEnd s = .next t ∧ Kept K a t := by
  unfold execSeqEnd
  refine ⟨_, rfl, ?_⟩
  with_reducible repeat' first
    | (assumption) | (intro) | (apply kept_stayStep) | (apply kept_seqEnd) | (apply kept_foldl)
    | (apply kept_foldl_snd) | (apply kept_foldl_fst) | (apply kept_ite) | (dsimp only) | (split)

theorem kept_execSeqJump (h_regs : ¬ K .regs) (h_latch : ¬ K .latch) (h_mem : ¬ K .mem) (h_time : ¬ K .time)
    (h_free : ¬ K .free) (h_host : ¬ K .host) (h_err : ¬ K .err) (h_psq : ¬ K .psq) (h_ctx : ¬ K .ctx)
    (h_codec : ¬ K .codec) (h_stn : ¬ K .stn) (h_epoch : ¬ K .epoch) (h_staySeq : ¬ K .staySeq) (h_dram : ¬ K .dram)
    (h_clk : ¬ K .clk) (h_mon : ¬ K .mon) (h_rig : ¬ K .rig) (h_mot : ¬ K .mot) (h_pwr : ¬ K .pwr) (h_thm : ¬ K .thm)
    (h_vis : ¬ K .vis) (h_net : ¬ K .net) (h_dma : ¬ K .dma)  (h : Kept K a s) :
    ∃ t, execSeqJump s = .next t ∧ Kept K a t := by
  unfold execSeqJump
  refine ⟨_, rfl, ?_⟩
  with_reducible repeat' first
    | (assumption) | (intro) | (apply kept_stayStep) | (apply kept_seqJump) | (apply kept_foldl)
    | (apply kept_foldl_snd) | (apply kept_foldl_fst) | (apply kept_ite) | (dsimp only) | (split)

theorem kept_execSeqJumpif (h_regs : ¬ K .regs) (h_latch : ¬ K .latch) (h_mem : ¬ K .mem) (h_time : ¬ K .time)
    (h_free : ¬ K .free) (h_out : ¬ K .out) (h_host : ¬ K .host) (h_err : ¬ K .err) (h_psq : ¬ K .psq)
    (h_ctx : ¬ K .ctx) (h_codec : ¬ K .codec) (h_stn : ¬ K .stn) (h_epoch : ¬ K .epoch) (h_nvm : ¬ K .nvm)
    (h_staySeq : ¬ K .staySeq) (h_dram : ¬ K .dram) (h_clk : ¬ K .clk) (h_mon : ¬ K .mon) (h_rig : ¬ K .rig)
    (h_mot : ¬ K .mot) (h_pwr : ¬ K .pwr) (h_thm : ¬ K .thm) (h_vis : ¬ K .vis) (h_net : ¬ K .net) (h_dma : ¬ K .dma)
    (x0 : Bool) (h : Kept K a s) :
    ∃ t, execSeqJumpif x0 s = .next t ∧ Kept K a t := by
  unfold execSeqJumpif
  refine ⟨_, rfl, ?_⟩
  with_reducible repeat' first
    | (assumption) | (intro) | (apply kept_stayStep) | (apply kept_seqJumpif) | (apply kept_foldl)
    | (apply kept_foldl_snd) | (apply kept_foldl_fst) | (apply kept_ite) | (dsimp only) | (split)

theorem kept_execSeqMark (h_regs : ¬ K .regs) (h_latch : ¬ K .latch) (h_mem : ¬ K .mem) (h_time : ¬ K .time)
    (h_free : ¬ K .free) (h_out : ¬ K .out) (h_host : ¬ K .host) (h_err : ¬ K .err) (h_psq : ¬ K .psq)
    (h_ctx : ¬ K .ctx) (h_codec : ¬ K .codec) (h_stn : ¬ K .stn) (h_epoch : ¬ K .epoch) (h_staySeq : ¬ K .staySeq)
    (h_dram : ¬ K .dram) (h_clk : ¬ K .clk) (h_mon : ¬ K .mon) (h_rig : ¬ K .rig) (h_mot : ¬ K .mot)
    (h_pwr : ¬ K .pwr) (h_thm : ¬ K .thm) (h_vis : ¬ K .vis) (h_net : ¬ K .net) (h_dma : ¬ K .dma)  (h : Kept K a s)
    :
    ∃ t, execSeqMark s = .next t ∧ Kept K a t := by
  unfold execSeqMark
  refine ⟨_, rfl, ?_⟩
  with_reducible repeat' first
    | (assumption) | (intro) | (apply kept_stayStep) | (apply kept_seqMark) | (apply kept_foldl)
    | (apply kept_foldl_snd) | (apply kept_foldl_fst) | (apply kept_ite) | (dsimp only) | (split)

theorem kept_execSeqRetry (h_regs : ¬ K .regs) (h_latch : ¬ K .latch) (h_mem : ¬ K .mem) (h_time : ¬ K .time)
    (h_free : ¬ K .free) (h_host : ¬ K .host) (h_err : ¬ K .err) (h_psq : ¬ K .psq) (h_ctx : ¬ K .ctx)
    (h_codec : ¬ K .codec) (h_stn : ¬ K .stn) (h_epoch : ¬ K .epoch) (h_staySeq : ¬ K .staySeq) (h_dram : ¬ K .dram)
    (h_clk : ¬ K .clk) (h_mon : ¬ K .mon) (h_rig : ¬ K .rig) (h_mot : ¬ K .mot) (h_pwr : ¬ K .pwr) (h_thm : ¬ K .thm)
    (h_vis : ¬ K .vis) (h_net : ¬ K .net) (h_dma : ¬ K .dma)  (h : Kept K a s) :
    ∃ t, execSeqRetry s = .next t ∧ Kept K a t := by
  unfold execSeqRetry
  refine ⟨_, rfl, ?_⟩
  with_reducible repeat' first
    | (assumption) | (intro) | (apply kept_stayStep) | (apply kept_seqRetry) | (apply kept_foldl)
    | (apply kept_foldl_snd) | (apply kept_foldl_fst) | (apply kept_ite) | (dsimp only) | (split)

theorem kept_execSeqWait (h_regs : ¬ K .regs) (h_latch : ¬ K .latch) (h_mem : ¬ K .mem) (h_time : ¬ K .time)
    (h_free : ¬ K .free) (h_host : ¬ K .host) (h_err : ¬ K .err) (h_psq : ¬ K .psq) (h_ctx : ¬ K .ctx)
    (h_codec : ¬ K .codec) (h_stn : ¬ K .stn) (h_epoch : ¬ K .epoch) (h_staySeq : ¬ K .staySeq) (h_dram : ¬ K .dram)
    (h_clk : ¬ K .clk) (h_mon : ¬ K .mon) (h_rig : ¬ K .rig) (h_mot : ¬ K .mot) (h_pwr : ¬ K .pwr) (h_thm : ¬ K .thm)
    (h_vis : ¬ K .vis) (h_net : ¬ K .net) (h_dma : ¬ K .dma)  (h : Kept K a s) :
    ∃ t, execSeqWait s = .next t ∧ Kept K a t := by
  unfold execSeqWait
  refine ⟨_, rfl, ?_⟩
  with_reducible repeat' first
    | (assumption) | (intro) | (apply kept_stayStep) | (apply kept_seqWait) | (apply kept_foldl)
    | (apply kept_foldl_snd) | (apply kept_foldl_fst) | (apply kept_ite) | (dsimp only) | (split)

theorem kept_execSeqWaitEnd (h_regs : ¬ K .regs) (h_latch : ¬ K .latch) (h_mem : ¬ K .mem) (h_time : ¬ K .time)
    (h_free : ¬ K .free) (h_host : ¬ K .host) (h_err : ¬ K .err) (h_psq : ¬ K .psq) (h_ctx : ¬ K .ctx)
    (h_codec : ¬ K .codec) (h_stn : ¬ K .stn) (h_epoch : ¬ K .epoch) (h_staySeq : ¬ K .staySeq) (h_dram : ¬ K .dram)
    (h_clk : ¬ K .clk) (h_mon : ¬ K .mon) (h_rig : ¬ K .rig) (h_mot : ¬ K .mot) (h_pwr : ¬ K .pwr) (h_thm : ¬ K .thm)
    (h_vis : ¬ K .vis) (h_net : ¬ K .net) (h_dma : ¬ K .dma)  (h : Kept K a s) :
    ∃ t, execSeqWaitEnd s = .next t ∧ Kept K a t := by
  unfold execSeqWaitEnd
  refine ⟨_, rfl, ?_⟩
  with_reducible repeat' first
    | (assumption) | (intro) | (apply kept_stayStep) | (apply kept_seqWaitEnd) | (apply kept_foldl)
    | (apply kept_foldl_snd) | (apply kept_foldl_fst) | (apply kept_ite) | (dsimp only) | (split)

theorem kept_execSeqWaitgood (h_regs : ¬ K .regs) (h_latch : ¬ K .latch) (h_mem : ¬ K .mem) (h_time : ¬ K .time)
    (h_free : ¬ K .free) (h_host : ¬ K .host) (h_err : ¬ K .err) (h_psq : ¬ K .psq) (h_ctx : ¬ K .ctx)
    (h_codec : ¬ K .codec) (h_stn : ¬ K .stn) (h_epoch : ¬ K .epoch) (h_staySeq : ¬ K .staySeq) (h_dram : ¬ K .dram)
    (h_clk : ¬ K .clk) (h_mon : ¬ K .mon) (h_rig : ¬ K .rig) (h_mot : ¬ K .mot) (h_pwr : ¬ K .pwr) (h_thm : ¬ K .thm)
    (h_vis : ¬ K .vis) (h_net : ¬ K .net) (h_dma : ¬ K .dma)  (h : Kept K a s) :
    ∃ t, execSeqWaitgood s = .next t ∧ Kept K a t := by
  unfold execSeqWaitgood
  refine ⟨_, rfl, ?_⟩
  with_reducible repeat' first
    | (assumption) | (intro) | (apply kept_stayStep) | (apply kept_seqWaitgood) | (apply kept_foldl)
    | (apply kept_foldl_snd) | (apply kept_foldl_fst) | (apply kept_ite) | (dsimp only) | (split)

theorem kept_execShutdownSlotDone (h_regs : ¬ K .regs) (h_latch : ¬ K .latch) (h_mem : ¬ K .mem) (h_time : ¬ K .time)
    (h_free : ¬ K .free) (h_out : ¬ K .out) (h_host : ¬ K .host) (h_err : ¬ K .err) (h_psq : ¬ K .psq)
    (h_ctx : ¬ K .ctx) (h_codec : ¬ K .codec) (h_stn : ¬ K .stn) (h_epoch : ¬ K .epoch) (h_nvm : ¬ K .nvm)
    (h_staySeq : ¬ K .staySeq) (h_dram : ¬ K .dram) (h_clk : ¬ K .clk) (h_mon : ¬ K .mon) (h_rig : ¬ K .rig)
    (h_mot : ¬ K .mot) (h_pwr : ¬ K .pwr) (h_thm : ¬ K .thm) (h_vis : ¬ K .vis) (h_net : ¬ K .net) (h_dma : ¬ K .dma)
     (h : Kept K a s) :
    ∃ t, execShutdownSlotDone s = .next t ∧ Kept K a t := by
  unfold execShutdownSlotDone
  refine ⟨_, rfl, ?_⟩
  with_reducible repeat' first
    | (assumption) | (intro) | (apply kept_stayStep) | (apply kept_slotDone) | (apply kept_foldl)
    | (apply kept_foldl_snd) | (apply kept_foldl_fst) | (apply kept_ite) | (dsimp only) | (split)

theorem kept_execStayFinalCopy (h_regs : ¬ K .regs) (h_latch : ¬ K .latch) (h_mem : ¬ K .mem) (h_time : ¬ K .time)
    (h_free : ¬ K .free) (h_host : ¬ K .host) (h_err : ¬ K .err) (h_psq : ¬ K .psq) (h_ctx : ¬ K .ctx)
    (h_codec : ¬ K .codec) (h_stn : ¬ K .stn) (h_epoch : ¬ K .epoch) (h_staySeq : ¬ K .staySeq) (h_dram : ¬ K .dram)
    (h_clk : ¬ K .clk) (h_mon : ¬ K .mon) (h_rig : ¬ K .rig) (h_mot : ¬ K .mot) (h_pwr : ¬ K .pwr) (h_thm : ¬ K .thm)
    (h_vis : ¬ K .vis) (h_net : ¬ K .net) (h_dma : ¬ K .dma) (x0 : Bool) (h : Kept K a s) :
    ∃ t, execStayFinalCopy x0 s = .next t ∧ Kept K a t := by
  unfold execStayFinalCopy
  refine ⟨_, rfl, ?_⟩
  with_reducible repeat' first
    | (assumption) | (intro) | (apply kept_stayStep) | (apply kept_stayFinal) | (apply kept_foldl)
    | (apply kept_foldl_snd) | (apply kept_foldl_fst) | (apply kept_ite) | (dsimp only) | (split)

theorem kept_execStayShadowRefresh (h_pwr : ¬ K .pwr)  (h : Kept K a s) :
    ∃ t, execStayShadowRefresh s = .next t ∧ Kept K a t := by
  unfold execStayShadowRefresh
  refine ⟨_, rfl, ?_⟩
  with_reducible repeat' first
    | (assumption) | (intro) | (apply kept_live) | (apply kept_shadowRefresh) | (apply kept_foldl)
    | (apply kept_foldl_snd) | (apply kept_foldl_fst) | (apply kept_ite) | (dsimp only) | (split)

theorem kept_execWaitgoodTimeout (h_regs : ¬ K .regs) (h_latch : ¬ K .latch) (h_mem : ¬ K .mem) (h_time : ¬ K .time)
    (h_free : ¬ K .free) (h_out : ¬ K .out) (h_host : ¬ K .host) (h_err : ¬ K .err) (h_psq : ¬ K .psq)
    (h_ctx : ¬ K .ctx) (h_codec : ¬ K .codec) (h_stn : ¬ K .stn) (h_epoch : ¬ K .epoch) (h_nvm : ¬ K .nvm)
    (h_staySeq : ¬ K .staySeq) (h_dram : ¬ K .dram) (h_clk : ¬ K .clk) (h_mon : ¬ K .mon) (h_rig : ¬ K .rig)
    (h_mot : ¬ K .mot) (h_pwr : ¬ K .pwr) (h_thm : ¬ K .thm) (h_vis : ¬ K .vis) (h_net : ¬ K .net) (h_dma : ¬ K .dma)
     (h : Kept K a s) :
    ∃ t, execWaitgoodTimeout s = .next t ∧ Kept K a t := by
  unfold execWaitgoodTimeout
  refine ⟨_, rfl, ?_⟩
  with_reducible repeat' first
    | (assumption) | (intro) | (apply kept_stayStep) | (apply kept_waitgoodTimeout) | (apply kept_foldl)
    | (apply kept_foldl_snd) | (apply kept_foldl_fst) | (apply kept_ite) | (dsimp only) | (split)

theorem kept_execMonSample (h_regs : ¬ K .regs) (h_out : ¬ K .out) (h_mon : ¬ K .mon) (x0 : Fin 32) (x1 : BitVec 32)
    (h : Kept K a s) :
    ∃ t, execMonSample x0 x1 s = .next t ∧ Kept K a t := by
  unfold execMonSample
  refine ⟨_, rfl, ?_⟩
  with_reducible repeat' first
    | (assumption) | (intro) | (apply kept_live) | (apply kept_monSample) | (apply kept_foldl)
    | (apply kept_foldl_snd) | (apply kept_foldl_fst) | (apply kept_ite) | (dsimp only) | (split)

theorem kept_execFrameResult (h_regs : ¬ K .regs) (h_mem : ¬ K .mem) (h_free : ¬ K .free) (h_out : ¬ K .out)
    (h_host : ¬ K .host) (h_err : ¬ K .err) (h_nvm : ¬ K .nvm) (h_staySeq : ¬ K .staySeq) (h_dram : ¬ K .dram)
    (h_vis : ¬ K .vis) (h_net : ¬ K .net) (x0 : Bool) (x1 : Bool) (h : Kept K a s) :
    ∃ t, execFrameResult x0 x1 s = .next t ∧ Kept K a t := by
  unfold execFrameResult
  refine ⟨_, rfl, ?_⟩
  with_reducible repeat' first
    | (assumption) | (intro) | (apply kept_live) | (apply kept_frameResult) | (apply kept_foldl)
    | (apply kept_foldl_snd) | (apply kept_foldl_fst) | (apply kept_ite) | (dsimp only) | (split)

theorem kept_execMemFrameProcess (h_regs : ¬ K .regs) (h_vis : ¬ K .vis) (x0 : Fin 4) (h : Kept K a s) :
    ∃ t, execMemFrameProcess x0 s = .next t ∧ Kept K a t := by
  unfold execMemFrameProcess
  refine ⟨_, rfl, ?_⟩
  with_reducible repeat' first
    | (assumption) | (intro) | (apply kept_live) | (apply kept_memProcess) | (apply kept_foldl)
    | (apply kept_foldl_snd) | (apply kept_foldl_fst) | (apply kept_ite) | (dsimp only) | (split)

theorem kept_execRegAutoStep (h_regs : ¬ K .regs) (h_out : ¬ K .out) (h_host : ¬ K .host) (h_err : ¬ K .err)
    (h_psq : ¬ K .psq) (h_stn : ¬ K .stn) (h_nvm : ¬ K .nvm) (h_staySeq : ¬ K .staySeq) (h_vis : ¬ K .vis)
    (h_net : ¬ K .net) (x0 : Fin 8) (h : Kept K a s) :
    ∃ t, execRegAutoStep x0 s = .next t ∧ Kept K a t := by
  unfold execRegAutoStep
  refine ⟨_, rfl, ?_⟩
  with_reducible repeat' first
    | (assumption) | (intro) | (apply kept_live) | (apply kept_regStep) | (apply kept_foldl) | (apply kept_foldl_snd)
    | (apply kept_foldl_fst) | (apply kept_ite) | (dsimp only) | (split)

theorem kept_execRegPtrimStep (h_regs : ¬ K .regs) (h_out : ¬ K .out) (h_psq : ¬ K .psq) (h_stn : ¬ K .stn)
    (h_clk : ¬ K .clk) (h_vis : ¬ K .vis)  (h : Kept K a s) :
    ∃ t, execRegPtrimStep s = .next t ∧ Kept K a t := by
  unfold execRegPtrimStep
  refine ⟨_, rfl, ?_⟩
  with_reducible repeat' first
    | (assumption) | (intro) | (apply kept_live) | (apply kept_ptrimStep) | (apply kept_foldl)
    | (apply kept_foldl_snd) | (apply kept_foldl_fst) | (apply kept_ite) | (dsimp only) | (split)

theorem kept_execBye (h_regs : ¬ K .regs) (h_out : ¬ K .out) (h_host : ¬ K .host) (h_err : ¬ K .err)
    (h_nvm : ¬ K .nvm) (h_staySeq : ¬ K .staySeq) (h_dram : ¬ K .dram) (h_net : ¬ K .net) (x0 : Sys2Proof.Entry)
    (h : Kept K a s) :
    ∃ t, execBye x0 s = .next t ∧ Kept K a t := by
  unfold execBye
  refine ⟨_, rfl, ?_⟩
  with_reducible repeat' first
    | (assumption) | (intro) | (apply kept_cmdBye) | (apply kept_foldl) | (apply kept_foldl_snd)
    | (apply kept_foldl_fst) | (apply kept_ite) | (dsimp only) | (split)

theorem kept_execHello (h_regs : ¬ K .regs) (h_out : ¬ K .out) (h_host : ¬ K .host) (x0 : Sys2Proof.Entry) (x1 :
    BitVec 16) (x2 : BitVec 16) (h : Kept K a s) :
    ∃ t, execHello x0 x1 x2 s = .next t ∧ Kept K a t := by
  unfold execHello
  refine ⟨_, rfl, ?_⟩
  with_reducible repeat' first
    | (assumption) | (intro) | (apply kept_cmdHello) | (apply kept_foldl) | (apply kept_foldl_snd)
    | (apply kept_foldl_fst) | (apply kept_ite) | (dsimp only) | (split)

theorem kept_execMbxHdrRead (h_regs : ¬ K .regs) (h_latch : ¬ K .latch) (h_out : ¬ K .out) (x0 : Fin 64) (x1 : Fin
    16) (h : Kept K a s) :
    ∃ t, execMbxHdrRead x0 x1 s = .next t ∧ Kept K a t := by
  unfold execMbxHdrRead
  refine ⟨_, rfl, ?_⟩
  with_reducible repeat' first
    | (assumption) | (intro) | (apply kept_hostAt) | (apply kept_mbxRead) | (apply kept_foldl)
    | (apply kept_foldl_snd) | (apply kept_foldl_fst) | (apply kept_ite) | (dsimp only) | (split)

theorem kept_execQpDisable (h_regs : ¬ K .regs) (h_out : ¬ K .out) (h_host : ¬ K .host) (h_ctx : ¬ K .ctx) (x0 : Fin
    16) (x1 : Sys2Proof.Word) (h : Kept K a s) :
    ∃ t, execQpDisable x0 x1 s = .next t ∧ Kept K a t := by
  unfold execQpDisable
  refine ⟨_, rfl, ?_⟩
  with_reducible repeat' first
    | (assumption) | (intro) | (apply kept_hostAt) | (apply kept_qcfgWrite) | (apply kept_foldl)
    | (apply kept_foldl_snd) | (apply kept_foldl_fst) | (apply kept_ite) | (dsimp only) | (split)

theorem kept_execQpEnable (h_regs : ¬ K .regs) (h_out : ¬ K .out) (h_host : ¬ K .host) (h_ctx : ¬ K .ctx) (x0 : Fin
    16) (x1 : Sys2Proof.Word) (h : Kept K a s) :
    ∃ t, execQpEnable x0 x1 s = .next t ∧ Kept K a t := by
  unfold execQpEnable
  refine ⟨_, rfl, ?_⟩
  with_reducible repeat' first
    | (assumption) | (intro) | (apply kept_hostAt) | (apply kept_qcfgWrite) | (apply kept_foldl)
    | (apply kept_foldl_snd) | (apply kept_foldl_fst) | (apply kept_ite) | (dsimp only) | (split)

theorem kept_execSessionClose (h_regs : ¬ K .regs) (h_out : ¬ K .out) (h_host : ¬ K .host) (x0 : Sys2Proof.Word)
    (h : Kept K a s) :
    ∃ t, execSessionClose x0 s = .next t ∧ Kept K a t := by
  unfold execSessionClose
  refine ⟨_, rfl, ?_⟩
  with_reducible repeat' first
    | (assumption) | (intro) | (apply kept_hostAt) | (apply kept_sessionClose) | (apply kept_foldl)
    | (apply kept_foldl_snd) | (apply kept_foldl_fst) | (apply kept_ite) | (dsimp only) | (split)

theorem kept_execSheetDoneWrite (h_regs : ¬ K .regs) (h_out : ¬ K .out) (h_host : ¬ K .host) (h_psq : ¬ K .psq)
    (h_stn : ¬ K .stn) (h_clk : ¬ K .clk) (h_net : ¬ K .net) (x0 : Fin 256) (h : Kept K a s) :
    ∃ t, execSheetDoneWrite x0 s = .next t ∧ Kept K a t := by
  unfold execSheetDoneWrite
  refine ⟨_, rfl, ?_⟩
  with_reducible repeat' first
    | (assumption) | (intro) | (apply kept_live) | (apply kept_sheetDone) | (apply kept_foldl)
    | (apply kept_foldl_snd) | (apply kept_foldl_fst) | (apply kept_ite) | (dsimp only) | (split)

theorem kept_execSqDoorbell (h_regs : ¬ K .regs) (h_out : ¬ K .out) (h_host : ¬ K .host) (x0 : Fin 16) (x1 :
    Sys2Proof.Word) (h : Kept K a s) :
    ∃ t, execSqDoorbell x0 x1 s = .next t ∧ Kept K a t := by
  unfold execSqDoorbell
  refine ⟨_, rfl, ?_⟩
  with_reducible repeat' first
    | (assumption) | (intro) | (apply kept_hostAt) | (apply kept_sqDoorbell) | (apply kept_foldl)
    | (apply kept_foldl_snd) | (apply kept_foldl_fst) | (apply kept_ite) | (dsimp only) | (split)

theorem kept_execUnknownOpcode (h_regs : ¬ K .regs) (h_out : ¬ K .out) (h_host : ¬ K .host) (x0 : Sys2Proof.Entry)
    (x1 : BitVec 8) (h : Kept K a s) :
    ∃ t, execUnknownOpcode x0 x1 s = .next t ∧ Kept K a t := by
  unfold execUnknownOpcode
  refine ⟨_, rfl, ?_⟩
  with_reducible repeat' first
    | (assumption) | (intro) | (apply kept_cmdUnknownOpcode) | (apply kept_foldl) | (apply kept_foldl_snd)
    | (apply kept_foldl_fst) | (apply kept_ite) | (dsimp only) | (split)

theorem kept_execReplAck (h_host : ¬ K .host) (x0 : Sys2Proof.ReplMsg) (h : Kept K a s) :
    ∃ t, execReplAck x0 s = .next t ∧ Kept K a t := by
  unfold execReplAck
  refine ⟨_, rfl, ?_⟩
  with_reducible repeat' first
    | (assumption) | (intro) | (apply kept_live) | (apply kept_replAck) | (apply kept_foldl) | (apply kept_foldl_snd)
    | (apply kept_foldl_fst) | (apply kept_ite) | (dsimp only) | (split)

theorem kept_execReplBye (h_regs : ¬ K .regs) (h_out : ¬ K .out) (h_host : ¬ K .host) (h_net : ¬ K .net) (x0 :
    Sys2Proof.ReplMsg) (h : Kept K a s) :
    ∃ t, execReplBye x0 s = .next t ∧ Kept K a t := by
  unfold execReplBye
  refine ⟨_, rfl, ?_⟩
  with_reducible repeat' first
    | (assumption) | (intro) | (apply kept_live) | (apply kept_replBye) | (apply kept_foldl) | (apply kept_foldl_snd)
    | (apply kept_foldl_fst) | (apply kept_ite) | (dsimp only) | (split)

theorem kept_execReplHello (h_regs : ¬ K .regs) (h_free : ¬ K .free) (h_out : ¬ K .out) (h_host : ¬ K .host)
    (h_net : ¬ K .net) (x0 : Sys2Proof.ReplMsg) (x1 : BitVec 16) (x2 : BitVec 16) (h : Kept K a s) :
    ∃ t, execReplHello x0 x1 x2 s = .next t ∧ Kept K a t := by
  unfold execReplHello
  refine ⟨_, rfl, ?_⟩
  with_reducible repeat' first
    | (assumption) | (intro) | (apply kept_live) | (apply kept_replHello) | (apply kept_foldl)
    | (apply kept_foldl_snd) | (apply kept_foldl_fst) | (apply kept_ite) | (dsimp only) | (split)

theorem kept_execReplNotifyRetry (h_regs : ¬ K .regs) (h_out : ¬ K .out) (h_host : ¬ K .host) (h_err : ¬ K .err)
    (h_nvm : ¬ K .nvm) (h_staySeq : ¬ K .staySeq) (h_net : ¬ K .net) (x0 : BitVec 16) (x1 : BitVec 32)
    (h : Kept K a s) :
    ∃ t, execReplNotifyRetry x0 x1 s = .next t ∧ Kept K a t := by
  unfold execReplNotifyRetry
  refine ⟨_, rfl, ?_⟩
  with_reducible repeat' first
    | (assumption) | (intro) | (apply kept_live) | (apply kept_replRetry) | (apply kept_foldl)
    | (apply kept_foldl_snd) | (apply kept_foldl_fst) | (apply kept_ite) | (dsimp only) | (split)

theorem kept_execReplPortDisable (h_regs : ¬ K .regs) (h_host : ¬ K .host) (x0 : Sys2Proof.Word) (h : Kept K a s) :
    ∃ t, execReplPortDisable x0 s = .next t ∧ Kept K a t := by
  unfold execReplPortDisable
  refine ⟨_, rfl, ?_⟩
  with_reducible repeat' first
    | (assumption) | (intro) | (apply kept_hostAt) | (apply kept_replCtrlWrite) | (apply kept_foldl)
    | (apply kept_foldl_snd) | (apply kept_foldl_fst) | (apply kept_ite) | (dsimp only) | (split)

theorem kept_execReplStatusQuery (h_out : ¬ K .out) (h_host : ¬ K .host) (h_net : ¬ K .net) (x0 : Sys2Proof.ReplMsg)
    (x1 : BitVec 8) (h : Kept K a s) :
    ∃ t, execReplStatusQuery x0 x1 s = .next t ∧ Kept K a t := by
  unfold execReplStatusQuery
  refine ⟨_, rfl, ?_⟩
  with_reducible repeat' first
    | (assumption) | (intro) | (apply kept_live) | (apply kept_replStatus) | (apply kept_foldl)
    | (apply kept_foldl_snd) | (apply kept_foldl_fst) | (apply kept_ite) | (dsimp only) | (split)

theorem kept_execReplTimeEvent (h_out : ¬ K .out) (h_host : ¬ K .host) (h_net : ¬ K .net) (x0 : Sys2Proof.ReplMsg)
    (x1 : BitVec 8) (h : Kept K a s) :
    ∃ t, execReplTimeEvent x0 x1 s = .next t ∧ Kept K a t := by
  unfold execReplTimeEvent
  refine ⟨_, rfl, ?_⟩
  with_reducible repeat' first
    | (assumption) | (intro) | (apply kept_live) | (apply kept_replTime) | (apply kept_foldl)
    | (apply kept_foldl_snd) | (apply kept_foldl_fst) | (apply kept_ite) | (dsimp only) | (split)

theorem kept_execReplUnknownOp (h_out : ¬ K .out) (h_host : ¬ K .host) (h_net : ¬ K .net) (x0 : Sys2Proof.ReplMsg)
    (x1 : BitVec 8) (h : Kept K a s) :
    ∃ t, execReplUnknownOp x0 x1 s = .next t ∧ Kept K a t := by
  unfold execReplUnknownOp
  refine ⟨_, rfl, ?_⟩
  with_reducible repeat' first
    | (assumption) | (intro) | (apply kept_live) | (apply kept_replUnknown) | (apply kept_foldl)
    | (apply kept_foldl_snd) | (apply kept_foldl_fst) | (apply kept_ite) | (dsimp only) | (split)

theorem kept_execEthFrameRx (h_regs : ¬ K .regs) (h_free : ¬ K .free) (h_out : ¬ K .out) (h_host : ¬ K .host)
    (h_net : ¬ K .net) (x0 : Fin 2) (x1 : Bool) (x2 : List Sys2Proof.Byte) (h : Kept K a s) :
    ∃ t, execEthFrameRx x0 x1 x2 s = .next t ∧ Kept K a t := by
  unfold execEthFrameRx
  refine ⟨_, rfl, ?_⟩
  with_reducible repeat' first
    | (assumption) | (intro) | (apply kept_live) | (apply kept_frameRx) | (apply kept_foldl) | (apply kept_foldl_snd)
    | (apply kept_foldl_fst) | (apply kept_ite) | (dsimp only) | (split)

theorem kept_execLogRead (h_regs : ¬ K .regs) (h_out : ¬ K .out) (h_host : ¬ K .host) (h_err : ¬ K .err)
    (h_nvm : ¬ K .nvm) (h_staySeq : ¬ K .staySeq) (h_dram : ¬ K .dram) (h_net : ¬ K .net) (x0 : Sys2Proof.Entry) (x1
    : BitVec 8) (x2 : BitVec 32) (x3 : BitVec 64) (x4 : BitVec 32) (x5 : Bool) (h : Kept K a s) :
    ∃ t, execLogRead x0 x1 x2 x3 x4 x5 s = .next t ∧ Kept K a t := by
  unfold execLogRead
  refine ⟨_, rfl, ?_⟩
  with_reducible repeat' first
    | (assumption) | (intro) | (apply kept_cmdLogRead) | (apply kept_foldl) | (apply kept_foldl_snd)
    | (apply kept_foldl_fst) | (apply kept_ite) | (dsimp only) | (split)

theorem kept_execLogReadDone (h_regs : ¬ K .regs) (h_out : ¬ K .out) (h_host : ¬ K .host) (x0 : Fin 16) (x1 : BitVec
    16) (h : Kept K a s) :
    ∃ t, execLogReadDone x0 x1 s = .next t ∧ Kept K a t := by
  unfold execLogReadDone
  refine ⟨_, rfl, ?_⟩
  with_reducible repeat' first
    | (assumption) | (intro) | (apply kept_live) | (apply kept_logDone) | (apply kept_foldl) | (apply kept_foldl_snd)
    | (apply kept_foldl_fst) | (apply kept_ite) | (dsimp only) | (split)

theorem kept_execStatusQuery (h_regs : ¬ K .regs) (h_free : ¬ K .free) (h_out : ¬ K .out) (h_host : ¬ K .host)
    (h_err : ¬ K .err) (h_stn : ¬ K .stn) (h_nvm : ¬ K .nvm) (h_staySeq : ¬ K .staySeq) (h_dram : ¬ K .dram)
    (h_thm : ¬ K .thm) (h_net : ¬ K .net) (x0 : Sys2Proof.Entry) (x1 : BitVec 8) (x2 : BitVec 8) (x3 : BitVec 16)
    (h : Kept K a s) :
    ∃ t, execStatusQuery x0 x1 x2 x3 s = .next t ∧ Kept K a t := by
  unfold execStatusQuery
  refine ⟨_, rfl, ?_⟩
  with_reducible repeat' first
    | (assumption) | (intro) | (apply kept_cmdStatusQuery) | (apply kept_foldl) | (apply kept_foldl_snd)
    | (apply kept_foldl_fst) | (apply kept_ite) | (dsimp only) | (split)

theorem kept_execTimeEvent (h_regs : ¬ K .regs) (h_out : ¬ K .out) (h_host : ¬ K .host) (h_err : ¬ K .err)
    (h_nvm : ¬ K .nvm) (h_staySeq : ¬ K .staySeq) (h_dram : ¬ K .dram) (h_net : ¬ K .net) (x0 : Sys2Proof.Entry) (x1
    : BitVec 8) (x2 : BitVec 64) (x3 : BitVec 32) (h : Kept K a s) :
    ∃ t, execTimeEvent x0 x1 x2 x3 s = .next t ∧ Kept K a t := by
  unfold execTimeEvent
  refine ⟨_, rfl, ?_⟩
  with_reducible repeat' first
    | (assumption) | (intro) | (apply kept_cmdTimeEvent) | (apply kept_foldl) | (apply kept_foldl_snd)
    | (apply kept_foldl_fst) | (apply kept_ite) | (dsimp only) | (split)

theorem kept_execTimeEventDue (h_regs : ¬ K .regs) (h_out : ¬ K .out) (h_host : ¬ K .host) (x0 : Fin 16) (x1 : BitVec
    16) (h : Kept K a s) :
    ∃ t, execTimeEventDue x0 x1 s = .next t ∧ Kept K a t := by
  unfold execTimeEventDue
  refine ⟨_, rfl, ?_⟩
  with_reducible repeat' first
    | (assumption) | (intro) | (apply kept_live) | (apply kept_timeEventDue) | (apply kept_foldl)
    | (apply kept_foldl_snd) | (apply kept_foldl_fst) | (apply kept_ite) | (dsimp only) | (split)

theorem kept_execBoostEnd (h_regs : ¬ K .regs) (h_out : ¬ K .out) (h_host : ¬ K .host) (h_err : ¬ K .err)
    (h_psq : ¬ K .psq) (h_stn : ¬ K .stn) (h_nvm : ¬ K .nvm) (h_staySeq : ¬ K .staySeq) (h_clk : ¬ K .clk)
    (h_net : ¬ K .net) (x0 : Fin 8) (x1 : Fin 40) (h : Kept K a s) :
    ∃ t, execBoostEnd x0 x1 s = .next t ∧ Kept K a t := by
  unfold execBoostEnd
  refine ⟨_, rfl, ?_⟩
  with_reducible repeat' first
    | (assumption) | (intro) | (apply kept_stnLive) | (apply kept_boostEnd) | (apply kept_foldl)
    | (apply kept_foldl_snd) | (apply kept_foldl_fst) | (apply kept_ite) | (dsimp only) | (split)

theorem kept_execReloadDone (h_regs : ¬ K .regs) (h_free : ¬ K .free) (h_out : ¬ K .out) (h_host : ¬ K .host)
    (h_err : ¬ K .err) (h_psq : ¬ K .psq) (h_stn : ¬ K .stn) (h_nvm : ¬ K .nvm) (h_staySeq : ¬ K .staySeq)
    (h_dram : ¬ K .dram) (h_clk : ¬ K .clk) (h_net : ¬ K .net) (x0 : Fin 8) (x1 : Nat) (h : Kept K a s) :
    ∃ t, execReloadDone x0 x1 s = .next t ∧ Kept K a t := by
  unfold execReloadDone
  refine ⟨_, rfl, ?_⟩
  with_reducible repeat' first
    | (assumption) | (intro) | (apply kept_stnLive) | (apply kept_reloadDone) | (apply kept_foldl)
    | (apply kept_foldl_snd) | (apply kept_foldl_fst) | (apply kept_ite) | (dsimp only) | (split)

theorem kept_execReloadStart (h_regs : ¬ K .regs) (h_stn : ¬ K .stn) (x0 : Fin 8) (h : Kept K a s) :
    ∃ t, execReloadStart x0 s = .next t ∧ Kept K a t := by
  unfold execReloadStart
  refine ⟨_, rfl, ?_⟩
  with_reducible repeat' first
    | (assumption) | (intro) | (apply kept_stnLive) | (apply kept_reloadStart) | (apply kept_foldl)
    | (apply kept_foldl_snd) | (apply kept_foldl_fst) | (apply kept_ite) | (dsimp only) | (split)

theorem kept_execTableWrite (h_regs : ¬ K .regs) (h_stn : ¬ K .stn) (x0 : BitVec 26) (x1 : Sys2Proof.Word)
    (h : Kept K a s) :
    ∃ t, execTableWrite x0 x1 s = .next t ∧ Kept K a t := by
  unfold execTableWrite
  refine ⟨_, rfl, ?_⟩
  with_reducible repeat' first
    | (assumption) | (intro) | (apply kept_hostAt) | (apply kept_tableWrite) | (apply kept_foldl)
    | (apply kept_foldl_snd) | (apply kept_foldl_fst) | (apply kept_ite) | (dsimp only) | (split)

theorem kept_execWearNvmWrite (h_stn : ¬ K .stn) (x0 : Fin 8) (h : Kept K a s) :
    ∃ t, execWearNvmWrite x0 s = .next t ∧ Kept K a t := by
  unfold execWearNvmWrite
  refine ⟨_, rfl, ?_⟩
  with_reducible repeat' first
    | (assumption) | (intro) | (apply kept_stnLive) | (apply kept_wearSave) | (apply kept_foldl)
    | (apply kept_foldl_snd) | (apply kept_foldl_fst) | (apply kept_ite) | (dsimp only) | (split)

theorem kept_execBdEdge (h_regs : ¬ K .regs) (h_free : ¬ K .free) (h_out : ¬ K .out) (h_host : ¬ K .host)
    (h_err : ¬ K .err) (h_psq : ¬ K .psq) (h_ctx : ¬ K .ctx) (h_codec : ¬ K .codec) (h_stn : ¬ K .stn)
    (h_nvm : ¬ K .nvm) (h_staySeq : ¬ K .staySeq) (h_dram : ¬ K .dram) (h_mot : ¬ K .mot) (h_vis : ¬ K .vis)
    (h_net : ¬ K .net) (x0 : Fin 8) (x1 : Bool) (x2 : Nat) (h : Kept K a s) :
    ∃ t, execBdEdge x0 x1 x2 s = .next t ∧ Kept K a t := by
  unfold execBdEdge
  refine ⟨_, rfl, ?_⟩
  with_reducible repeat' first
    | (assumption) | (intro) | (apply kept_stnLive) | (apply kept_bdEdge) | (apply kept_foldl)
    | (apply kept_foldl_snd) | (apply kept_foldl_fst) | (apply kept_ite) | (dsimp only) | (split)

theorem kept_execBdMissTimeout (h_regs : ¬ K .regs) (h_free : ¬ K .free) (h_out : ¬ K .out) (h_host : ¬ K .host)
    (h_err : ¬ K .err) (h_psq : ¬ K .psq) (h_ctx : ¬ K .ctx) (h_codec : ¬ K .codec) (h_stn : ¬ K .stn)
    (h_nvm : ¬ K .nvm) (h_staySeq : ¬ K .staySeq) (h_dram : ¬ K .dram) (h_mot : ¬ K .mot) (h_vis : ¬ K .vis)
    (h_net : ¬ K .net) (x0 : Fin 8) (h : Kept K a s) :
    ∃ t, execBdMissTimeout x0 s = .next t ∧ Kept K a t := by
  unfold execBdMissTimeout
  refine ⟨_, rfl, ?_⟩
  with_reducible repeat' first
    | (assumption) | (intro) | (apply kept_stnLive) | (apply kept_bdMiss) | (apply kept_foldl)
    | (apply kept_foldl_snd) | (apply kept_foldl_fst) | (apply kept_ite) | (dsimp only) | (split)

theorem kept_execStationBandDone (h_regs : ¬ K .regs) (h_free : ¬ K .free) (h_out : ¬ K .out) (h_host : ¬ K .host)
    (h_err : ¬ K .err) (h_psq : ¬ K .psq) (h_ctx : ¬ K .ctx) (h_codec : ¬ K .codec) (h_stn : ¬ K .stn)
    (h_nvm : ¬ K .nvm) (h_staySeq : ¬ K .staySeq) (h_dram : ¬ K .dram) (h_mot : ¬ K .mot) (h_vis : ¬ K .vis)
    (h_net : ¬ K .net) (x0 : Fin 8) (x1 : Fin 4) (h : Kept K a s) :
    ∃ t, execStationBandDone x0 x1 s = .next t ∧ Kept K a t := by
  unfold execStationBandDone
  refine ⟨_, rfl, ?_⟩
  with_reducible repeat' first
    | (assumption) | (intro) | (apply kept_stnLive) | (apply kept_stationBandDone) | (apply kept_foldl)
    | (apply kept_foldl_snd) | (apply kept_foldl_fst) | (apply kept_ite) | (dsimp only) | (split)

theorem kept_execStationBandStart (h_regs : ¬ K .regs) (h_stn : ¬ K .stn) (x0 : Fin 8) (x1 : Fin 4) (h : Kept K a s) :
    ∃ t, execStationBandStart x0 x1 s = .next t ∧ Kept K a t := by
  unfold execStationBandStart
  refine ⟨_, rfl, ?_⟩
  with_reducible repeat' first
    | (assumption) | (intro) | (apply kept_stnLive) | (apply kept_State_modStn) | (apply kept_fetchSync)
    | (apply kept_State_p) | (apply kept_State_pb) | (apply kept_foldl) | (apply kept_foldl_snd)
    | (apply kept_foldl_fst) | (apply kept_ite) | (dsimp only) | (split)

theorem kept_execHardwareTrip (h_regs : ¬ K .regs) (h_latch : ¬ K .latch) (h_mem : ¬ K .mem) (h_time : ¬ K .time)
    (h_free : ¬ K .free) (h_out : ¬ K .out) (h_host : ¬ K .host) (h_err : ¬ K .err) (h_psq : ¬ K .psq)
    (h_ctx : ¬ K .ctx) (h_codec : ¬ K .codec) (h_stn : ¬ K .stn) (h_epoch : ¬ K .epoch) (h_nvm : ¬ K .nvm)
    (h_staySeq : ¬ K .staySeq) (h_dram : ¬ K .dram) (h_clk : ¬ K .clk) (h_mon : ¬ K .mon) (h_rig : ¬ K .rig)
    (h_mot : ¬ K .mot) (h_pwr : ¬ K .pwr) (h_thm : ¬ K .thm) (h_vis : ¬ K .vis) (h_net : ¬ K .net) (h_dma : ¬ K .dma)
    (x0 : Fin 48) (x1 : Bool) (h : Kept K a s) :
    ∃ t, execHardwareTrip x0 x1 s = .next t ∧ Kept K a t := by
  unfold execHardwareTrip
  refine ⟨_, rfl, ?_⟩
  with_reducible repeat' first
    | (assumption) | (intro) | (apply kept_comparator) | (apply kept_foldl) | (apply kept_foldl_snd)
    | (apply kept_foldl_fst) | (apply kept_ite) | (dsimp only) | (split)

theorem kept_execReefLeave (h_regs : ¬ K .regs) (h_out : ¬ K .out) (h_psq : ¬ K .psq) (h_thm : ¬ K .thm) (x0 : Fin 4)
    (h : Kept K a s) :
    ∃ t, execReefLeave x0 s = .next t ∧ Kept K a t := by
  unfold execReefLeave
  refine ⟨_, rfl, ?_⟩
  with_reducible repeat' first
    | (assumption) | (intro) | (apply kept_thermLive) | (apply kept_reefLeave) | (apply kept_foldl)
    | (apply kept_foldl_snd) | (apply kept_foldl_fst) | (apply kept_ite) | (dsimp only) | (split)

theorem kept_execThermalConversion (h_regs : ¬ K .regs) (h_free : ¬ K .free) (h_out : ¬ K .out) (h_host : ¬ K .host)
    (h_err : ¬ K .err) (h_psq : ¬ K .psq) (h_ctx : ¬ K .ctx) (h_codec : ¬ K .codec) (h_stn : ¬ K .stn)
    (h_nvm : ¬ K .nvm) (h_staySeq : ¬ K .staySeq) (h_mot : ¬ K .mot) (h_thm : ¬ K .thm) (h_vis : ¬ K .vis)
    (h_net : ¬ K .net) (x0 : Fin 48) (x1 : BitVec 16) (x2 : Bool) (h : Kept K a s) :
    ∃ t, execThermalConversion x0 x1 x2 s = .next t ∧ Kept K a t := by
  unfold execThermalConversion
  refine ⟨_, rfl, ?_⟩
  with_reducible repeat' first
    | (assumption) | (intro) | (apply kept_thermLive) | (apply kept_thermConvert) | (apply kept_foldl)
    | (apply kept_foldl_snd) | (apply kept_foldl_fst) | (apply kept_ite) | (dsimp only) | (split)

theorem kept_execTripRelease (h_regs : ¬ K .regs)  (h : Kept K a s) :
    ∃ t, execTripRelease s = .next t ∧ Kept K a t := by
  unfold execTripRelease
  refine ⟨_, rfl, ?_⟩
  with_reducible repeat' first
    | (assumption) | (intro) | (apply kept_thermLive) | (apply kept_tripRelease) | (apply kept_foldl)
    | (apply kept_foldl_snd) | (apply kept_foldl_fst) | (apply kept_ite) | (dsimp only) | (split)

theorem kept_execCameraCfg (h_regs : ¬ K .regs) (h_out : ¬ K .out) (h_host : ¬ K .host) (h_err : ¬ K .err)
    (h_nvm : ¬ K .nvm) (h_staySeq : ¬ K .staySeq) (h_dram : ¬ K .dram) (h_vis : ¬ K .vis) (h_net : ¬ K .net) (x0 :
    Sys2Proof.Entry) (x1 : BitVec 8) (x2 : BitVec 8) (x3 : BitVec 64) (h : Kept K a s) :
    ∃ t, execCameraCfg x0 x1 x2 x3 s = .next t ∧ Kept K a t := by
  unfold execCameraCfg
  refine ⟨_, rfl, ?_⟩
  with_reducible repeat' first
    | (assumption) | (intro) | (apply kept_cmdCameraCfg) | (apply kept_foldl) | (apply kept_foldl_snd)
    | (apply kept_foldl_fst) | (apply kept_ite) | (dsimp only) | (split)

theorem kept_execCciWritesDone (h_regs : ¬ K .regs) (h_out : ¬ K .out) (h_vis : ¬ K .vis) (x0 : Fin 4)
    (h : Kept K a s) :
    ∃ t, execCciWritesDone x0 s = .next t ∧ Kept K a t := by
  unfold execCciWritesDone
  refine ⟨_, rfl, ?_⟩
  with_reducible repeat' first
    | (assumption) | (intro) | (apply kept_live) | (apply kept_cciDone) | (apply kept_foldl) | (apply kept_foldl_snd)
    | (apply kept_foldl_fst) | (apply kept_ite) | (dsimp only) | (split)

theorem kept_execCsiPacket (h_regs : ¬ K .regs) (h_vis : ¬ K .vis) (x0 : Fin 4) (x1 : Fin 16) (x2 : BitVec 6) (x3 :
    Fin 3) (x4 : Bool) (x5 : List (BitVec 20)) (h : Kept K a s) :
    ∃ t, execCsiPacket x0 x1 x2 x3 x4 x5 s = .next t ∧ Kept K a t := by
  unfold execCsiPacket
  refine ⟨_, rfl, ?_⟩
  with_reducible repeat' first
    | (assumption) | (intro) | (apply kept_live) | (apply kept_csiPacket) | (apply kept_foldl)
    | (apply kept_foldl_snd) | (apply kept_foldl_fst) | (apply kept_ite) | (dsimp only) | (split)

theorem kept_execFrameEnd (h_regs : ¬ K .regs) (h_mem : ¬ K .mem) (h_out : ¬ K .out) (h_host : ¬ K .host)
    (h_codec : ¬ K .codec) (h_dram : ¬ K .dram) (h_vis : ¬ K .vis) (x0 : Fin 4) (x1 : Fin 16) (h : Kept K a s) :
    ∃ t, execFrameEnd x0 x1 s = .next t ∧ Kept K a t := by
  unfold execFrameEnd
  refine ⟨_, rfl, ?_⟩
  with_reducible repeat' first
    | (assumption) | (intro) | (apply kept_live) | (apply kept_endFrame) | (apply kept_foldl)
    | (apply kept_foldl_snd) | (apply kept_foldl_fst) | (apply kept_ite) | (dsimp only) | (split)

theorem kept_execFrameStart (h_regs : ¬ K .regs) (h_mem : ¬ K .mem) (h_free : ¬ K .free) (h_out : ¬ K .out)
    (h_host : ¬ K .host) (h_codec : ¬ K .codec) (h_dram : ¬ K .dram) (h_vis : ¬ K .vis) (x0 : Fin 4) (x1 : Fin 16)
    (h : Kept K a s) :
    ∃ t, execFrameStart x0 x1 s = .next t ∧ Kept K a t := by
  unfold execFrameStart
  refine ⟨_, rfl, ?_⟩
  with_reducible repeat' first
    | (assumption) | (intro) | (apply kept_live) | (apply kept_startFrame) | (apply kept_foldl)
    | (apply kept_foldl_snd) | (apply kept_foldl_fst) | (apply kept_ite) | (dsimp only) | (split)

theorem kept_execFrameUpload (h_regs : ¬ K .regs) (h_out : ¬ K .out) (h_host : ¬ K .host) (h_err : ¬ K .err)
    (h_codec : ¬ K .codec) (h_nvm : ¬ K .nvm) (h_staySeq : ¬ K .staySeq) (h_dram : ¬ K .dram) (h_vis : ¬ K .vis)
    (h_net : ¬ K .net) (x0 : Sys2Proof.Entry) (x1 : BitVec 8) (x2 : BitVec 32) (x3 : BitVec 64) (x4 : BitVec 32) (x5
    : Bool) (x6 : Bool) (h : Kept K a s) :
    ∃ t, execFrameUpload x0 x1 x2 x3 x4 x5 x6 s = .next t ∧ Kept K a t := by
  unfold execFrameUpload
  refine ⟨_, rfl, ?_⟩
  with_reducible repeat' first
    | (assumption) | (intro) | (apply kept_cmdFrameUpload) | (apply kept_foldl) | (apply kept_foldl_snd)
    | (apply kept_foldl_fst) | (apply kept_ite) | (dsimp only) | (split)

theorem kept_execFrameUploadDone (h_regs : ¬ K .regs) (h_free : ¬ K .free) (h_out : ¬ K .out) (h_host : ¬ K .host)
    (h_err : ¬ K .err) (h_nvm : ¬ K .nvm) (h_staySeq : ¬ K .staySeq) (h_dram : ¬ K .dram) (h_vis : ¬ K .vis)
    (h_net : ¬ K .net) (x0 : Fin 16) (x1 : BitVec 16) (h : Kept K a s) :
    ∃ t, execFrameUploadDone x0 x1 s = .next t ∧ Kept K a t := by
  unfold execFrameUploadDone
  refine ⟨_, rfl, ?_⟩
  with_reducible repeat' first
    | (assumption) | (intro) | (apply kept_live) | (apply kept_uploadDone) | (apply kept_foldl)
    | (apply kept_foldl_snd) | (apply kept_foldl_fst) | (apply kept_ite) | (dsimp only) | (split)

theorem kept_execTrigCamera (h_regs : ¬ K .regs) (h_out : ¬ K .out) (h_ctx : ¬ K .ctx) (h_vis : ¬ K .vis) (x0 : Fin
    256) (x1 : Fin 16) (h : Kept K a s) :
    ∃ t, execTrigCamera x0 x1 s = .next t ∧ Kept K a t := by
  unfold execTrigCamera
  refine ⟨_, rfl, ?_⟩
  with_reducible repeat' first
    | (assumption) | (intro) | (apply kept_live) | (apply kept_trigCamera) | (apply kept_foldl)
    | (apply kept_foldl_snd) | (apply kept_foldl_fst) | (apply kept_ite) | (dsimp only) | (split) | (apply kept_id)

end Sys2Proof.Machine
end

