-- ==== Sys2Proof/Laws/Step.lean ====
section
/-!
SUPPORT. What a tick does, said once: the clock and the time counter go on; then, with no end of a shutdown and no start of
the stay island in it, an accepted step, RETIRED contexts, the sweeps' ends, the write-backs, FEED_REQ and the halyard change
the parts that `blockTick_kept` names, and nothing else; in general `blockTick_any` says what is never lost.
-/

namespace Sys2Proof.Machine

@[simp] theorem tick_clock (s : State) : (tick s).clock = s.clock + 4 := by unfold tick; split <;> rfl
@[simp] theorem tick_pending (s : State) : (tick s).pending = s.pending := by unfold tick; split <;> rfl
@[simp] theorem tick_part (s : State) : (tick s).part = s.part := by unfold tick; split <;> rfl
@[simp] theorem tick_rev (s : State) : (tick s).rev = s.rev := by unfold tick; split <;> rfl

theorem tick_time (s : State) : (tick s).time = if s.dead then s.time else s.time.add s.net.inc.1 s.net.inc.2 := by
  unfold tick
  by_cases h : s.dead = true
  · rw [if_pos h, if_pos h]
  · rw [if_neg h, if_neg h]

theorem tick_same (s : State) (p : Piece) (h : p ≠ .time) : p.same s (tick s) := by
  unfold tick
  by_cases hd : s.dead = true
  · rw [if_pos hd]
    cases p <;> first | rfl | exact ⟨rfl, rfl⟩
  · rw [if_neg hd]
    cases p <;> first | rfl | exact ⟨rfl, rfl⟩ | exact absurd rfl h

theorem tick_wf {s : State} (h : banksWf s) : banksWf (tick s) := by
  unfold tick
  split <;> exact h

theorem tick_pwr (s : State) : (tick s).pwr = s.pwr := tick_same s .pwr (by decide)

theorem tick_dead (s : State) : (tick s).dead = s.dead := by
  unfold State.dead
  rw [show (tick s).inReset = s.inReset from (tick_same s .pins (by decide)).1]
  unfold State.on State.g State.reg
  rw [show (tick s).regs = s.regs from tick_same s .regs (by decide), tick_part, tick_rev]

/-- The stay island's cycle changes nothing while the island runs and no shutdown waits for its end. -/
theorem stayTick_id {s : State} (hl : s.pwr.lost = false) (he : s.pwr.endDue = false) : stayTick s = s := by
  unfold stayTick
  rw [hl, he]
  rfl

/-- A tick of a block whose islands stand still, its stay island running, moves the clock alone. -/
theorem blockTick_dead {s : State} (hl : s.pwr.lost = false) (he : s.pwr.endDue = false) (hd : s.dead = true) :
    blockTick s = { s with clock := s.clock + 4 } := by
  unfold blockTick
  rw [stayTick_id (by rw [tick_pwr]; exact hl) (by rw [tick_pwr]; exact he)]
  dsimp only
  rw [tick_dead, if_pos hd]
  unfold tick
  rw [hd]
  rfl

theorem blockTick_kept {K : Piece → Prop} (h_regs : ¬ K .regs) (h_time : ¬ K .time) (h_free : ¬ K .free) (h_out : ¬ K .out)
    (h_host : ¬ K .host) (h_err : ¬ K .err) (h_psq : ¬ K .psq) (h_ctx : ¬ K .ctx) (h_codec : ¬ K .codec) (h_stn : ¬ K .stn)
    (h_nvm : ¬ K .nvm) (h_staySeq : ¬ K .staySeq) (h_dram : ¬ K .dram) (h_clk : ¬ K .clk) (h_rig : ¬ K .rig)
    (h_mot : ¬ K .mot) (h_pwr : ¬ K .pwr) (h_vis : ¬ K .vis) (h_net : ¬ K .net) (h_dma : ¬ K .dma) (s : State)
    (hl : s.pwr.lost = false) (he : s.pwr.endDue = false) : Kept K (tick s) (blockTick s) := by
  unfold blockTick
  rw [stayTick_id (by rw [tick_pwr]; exact hl) (by rw [tick_pwr]; exact he)]
  dsimp only
  split
  · exact Kept.refl _
  · exact kept_deliver h_regs h_free h_out h_host h_err h_psq h_ctx h_codec h_stn h_nvm h_staySeq h_clk h_rig h_mot h_pwr
      h_vis h_net h_dma (kept_feedSync h_regs h_out h_psq (kept_writeBackTick h_out h_dram
        (kept_overN 8 sendDue (fun i _ h => kept_sendDue h_regs h_out h_stn i h)
          (kept_retireTick h_regs h_out h_psq h_ctx h_stn h_clk (kept_stepDue h_regs h_time h_net (Kept.refl _))))))

/-- Whatever a tick does, it takes back nothing shown and no free value, and leaves the banks in canonical form. -/
theorem blockTick_any (s : State) : Kept (fun _ => False) (tick s) (blockTick s) := by
  have k : Kept (fun _ => False) (tick s) (stayTick (tick s)) :=
    kept_stayTick id id id id id id id id id id id id id id id id id id id id id id id id id (Kept.refl _)
  unfold blockTick
  dsimp only
  split
  · exact k
  · exact kept_deliver id id id id id id id id id id id id id id id id id id (kept_feedSync id id id
      (kept_writeBackTick id id (kept_overN 8 sendDue (fun i _ h => kept_sendDue id id id i h) (kept_retireTick id id id id id id (kept_stepDue id id id k)))))

theorem blockTick_wf {s : State} (h : banksWf s) : banksWf (blockTick s) := (blockTick_any s).wf (tick_wf h)

end Sys2Proof.Machine
end

