-- ==== Sys2Proof/WellFormed.lean ====
section
/-!
DEFINITION. Which commands are well formed: the sizes that the spec fixes for what a command carries. Every other operand
has its range in its type.
-/

namespace Sys2Proof

/-- A command carries operands of the sizes the spec gives: a register write names a register (R6), a flash HEADER is
256 bytes (R28), a BAR2 write carries its bytes and a read its length (R54), a DRAM read lies in one burst (R390), a
descriptor is 32 bytes (R396), an attempt of IPD measures 12 vectors (R244), a frame and a CSI packet keep to their
protocols' limits (R205, R374). -/
def WellFormed (i : Instr) : Bool :=
  match i with
  | .powerOn => true
  | .resetPin _ => true
  | .supplyFail => true
  | .supplyRecover => true
  | .chipReset _ => true
  | .registerWrite off _ _ => decide (off.toNat % 4 = 0)
  | .absentUnitAccess _ _ _ => true
  | .unmappedAccess _ _ _ => true
  | .readClear _ _ => true
  | .lowWordRead _ _ => true
  | .fenceRead _ => true
  | .mbxHdrRead _ _ => true
  | .errSlotRead _ _ => true
  | .timeNowRead _ => true
  | .syspllLock _ => true
  | .qspiHeaderRead hdr => decide (hdr.length = 256)
  | .qspiImageReadDone _ => true
  | .nvmImageReadDone => true
  | .imageVerified _ => true
  | .rigOpen _ => true
  | .rigCommit _ => true
  | .rigAbandon _ => true
  | .apertureWrite off _ => decide (off.toNat % 4 = 0 ∧ 0x118000 ≤ off.toNat ∧ off.toNat < 0x120000)
  | .nvmImageStoreDone => true
  | .csetConfirm _ => true
  | .csetProgramDone => true
  | .sparHostWrite _ _ => true
  | .pcieReset _ => true
  | .bar2Access _ len data poisoned => match data with
    | some d => decide (len.val = 0 ∧ 1 ≤ d.length ∧ d.length ≤ 4096)
    | none => decide (1 ≤ len.val) && !poisoned
  | .sqDoorbell _ _ => true
  | .cqDoorbell _ _ => true
  | .qpEnable _ _ => true
  | .qpDisable _ _ => true
  | .sessionClose _ => true
  | .hello _ _ _ => true
  | .bye _ => true
  | .statusQuery _ _ _ _ => true
  | .logRead _ _ _ _ _ _ => true
  | .logReadDone _ _ => true
  | .timeEvent _ _ _ _ => true
  | .timeEventDue _ _ => true
  | .engineStart _ => true
  | .engineStop _ => true
  | .speedSet _ _ _ => true
  | .sheetCommit _ _ _ _ _ _ _ _ => true
  | .sheetAbort _ _ => true
  | .stationCfg _ _ _ _ => true
  | .emitterSet _ _ _ _ _ _ => true
  | .registerAdjust _ _ _ _ _ _ _ => true
  | .cameraCfg _ _ _ _ => true
  | .frameUpload _ _ _ _ _ _ _ => true
  | .frameUploadDone _ _ => true
  | .codecJob _ _ _ _ _ _ _ _ => true
  | .unknownOpcode _ _ => true
  | .sheetDoneWrite _ => true
  | .replHello _ _ _ => true
  | .replBye _ => true
  | .replStatusQuery _ _ => true
  | .replTimeEvent _ _ => true
  | .replUnknownOp _ _ => true
  | .replAck _ => true
  | .replNotifyRetry _ _ => true
  | .replPortDisable _ => true
  | .verifyBandStart _ => true
  | .verifyBandDone _ => true
  | .sheetAdmission _ => true
  | .inflateJobDone _ => true
  | .cmpJobStart => true
  | .cmpJobDone => true
  | .cmpPause => true
  | .stationBandStart _ _ => true
  | .stationBandDone _ _ => true
  | .encoderSample _ => true
  | .feedReqRaise => true
  | .feedAck => true
  | .feedSense => true
  | .misfeedTimeout _ => true
  | .webRunStart => true
  | .trigWebOrigin => true
  | .trigFeedpos _ => true
  | .trigPrefetch _ _ => true
  | .trigStation _ _ => true
  | .trigStationDone _ _ => true
  | .trigDelivery _ => true
  | .trigCamera _ _ => true
  | .speedBoundaryStart => true
  | .boundaryPathClear => true
  | .boundaryLocked => true
  | .ptrimWrite _ => true
  | .warmupComplete => true
  | .drainComplete => true
  | .regionResetDone _ => true
  | .containmentTimeout _ _ => true
  | .regionResetTimeout _ => true
  | .bdEdge _ _ _ => true
  | .bdMissTimeout _ => true
  | .reloadStart _ => true
  | .reloadDone _ _ => true
  | .tableWrite _ _ => true
  | .wearNvmWrite _ => true
  | .boostEnd _ _ => true
  | .linkTrainStart _ => true
  | .backBlockLock _ => true
  | .backLockLoss _ => true
  | .capsReqSend _ => true
  | .capsRx _ _ => true
  | .trainTimeout _ => true
  | .retrainDelayEnd _ => true
  | .statusRx _ _ => true
  | .healthRx _ _ _ => true
  | .livRx _ _ _ _ => true
  | .controlResendTimeout _ _ => true
  | .sweepUnreported _ => true
  | .linkDown _ _ => true
  | .linkUp _ _ => true
  | .linkRetrain _ _ => true
  | .bankLoadStart _ => true
  | .livReqSend _ => true
  | .csiPacket _ _ _ _ _ pix => decide (pix.length ≤ 65535)
  | .frameStart _ _ => true
  | .frameEnd _ _ => true
  | .cciWritesDone _ => true
  | .memFrameProcess _ => true
  | .frameResult _ _ => true
  | .regAutoStep _ => true
  | .regPtrimStep => true
  | .mcEnable _ _ => true
  | .mcDisable _ _ => true
  | .mcStop _ _ => true
  | .mcClear _ _ => true
  | .mcPwmPeriod _ _ => true
  | .mcSenseDone _ _ _ _ => true
  | .mcBrakeStill _ => true
  | .mcStartTimeout _ => true
  | .mcIpdDone _ ts => decide (ts.length = 12)
  | .mcReacqWindow _ _ _ => true
  | .mcReacqTimeout _ => true
  | .mcDriverFault _ _ => true
  | .mcStopDone _ => true
  | .cmdLossTimeout _ => true
  | .axisEnable _ _ => true
  | .axisDisable _ _ => true
  | .axisGo _ _ => true
  | .axisStop _ _ => true
  | .axisClear _ _ => true
  | .axisTargetWrite _ _ => true
  | .axisProfileWrite _ _ _ => true
  | .axisStartInput _ => true
  | .axisProfileTick => true
  | .axisMoveEnd _ => true
  | .axisEncoderSample _ _ => true
  | .groupGo _ _ => true
  | .groupStop _ _ => true
  | .groupStartInput _ => true
  | .timebaseTick _ _ _ _ _ => true
  | .loopEnable _ _ => true
  | .loopDisable _ _ => true
  | .coefWrite _ _ => true
  | .stagedCoefApply => true
  | .nodeWrite _ _ => true
  | .wideWordWrite _ _ _ => true
  | .traceArm _ _ => true
  | .traceForce _ _ => true
  | .traceAbort _ _ => true
  | .traceDone _ => true
  | .ceEccError _ _ _ => true
  | .interlockOpen _ => true
  | .interlockClose _ => true
  | .hvEnable _ _ => true
  | .hvDisable _ _ => true
  | .hvHold _ _ => true
  | .hvClear _ _ => true
  | .hvPwmPeriod _ => true
  | .hvFeedbackResult _ _ _ => true
  | .dischargeConfirmed _ => true
  | .dischargeTimeout _ => true
  | .hvGuardSample _ _ => true
  | .zcEdge => true
  | .zcLossTimeout => true
  | .heaterHalfCycle _ _ => true
  | .heaterSample _ _ => true
  | .heaterOtsTrip _ _ => true
  | .heaterEnable _ _ => true
  | .heaterClear _ _ => true
  | .onRequestStart => true
  | .seqEnd => true
  | .seqEnable => true
  | .seqDisable => true
  | .seqWait => true
  | .seqWaitEnd => true
  | .seqWaitgood => true
  | .waitgoodTimeout => true
  | .seqCheck _ => true
  | .seqJumpif _ => true
  | .seqJump => true
  | .seqRetry => true
  | .seqMark => true
  | .railQualified _ => true
  | .railGoodDrop _ => true
  | .railDroop _ => true
  | .railOvSample _ _ => true
  | .shutdownSlotDone => true
  | .retryDelayEnd => true
  | .pwrOff _ => true
  | .pwrUncleat _ => true
  | .pwrSave _ => true
  | .pwrCntClr _ => true
  | .sagTrip _ _ => true
  | .sagRearm _ => true
  | .stayShadowRefresh => true
  | .stayFinalCopy _ => true
  | .staySaveDone => true
  | .staySaveAbort => true
  | .nvmDeferredWrite => true
  | .thermalConversion _ _ _ => true
  | .reefLeave _ => true
  | .hardwareTrip _ _ => true
  | .tripRelease => true
  | .pllLock _ => true
  | .pllLoss _ => true
  | .referenceLoss => true
  | .bandMeasureStart _ => true
  | .bandMeasureDone _ _ => true
  | .timeIncCommit _ => true
  | .timeStep _ => true
  | .timeRearm _ => true
  | .tpoEnable _ _ => true
  | .tpoDisable _ _ => true
  | .tpoEdge _ => true
  | .tpoPulseEnd _ => true
  | .ethFrameRx _ _ bytes => decide (bytes.length ≤ 1536)
  | .ethRxPop _ _ => true
  | .ethTsPop _ _ => true
  | .ethSend _ _ => true
  | .ethTxDone _ => true
  | .dramTrainEnd _ _ => true
  | .dramMrw _ => true
  | .dramTrainPhase _ _ _ _ => true
  | .dramTrainWait _ => true
  | .dramZqcal _ => true
  | .dramSavedVerify _ _ _ => true
  | .dramTrainSave _ => true
  | .dramTrainForget _ => true
  | .dramRead a len _ _ => decide (1 ≤ len.val ∧ a.toNat % 64 + len.val ≤ 64)
  | .dramWrite _ data _ => decide (1 ≤ data.length ∧ data.length ≤ 4096)
  | .dramRefresh _ => true
  | .dramMr4Poll _ _ _ => true
  | .neighbourRefresh _ _ => true
  | .scrubRead _ _ => true
  | .srRequest _ => true
  | .srEntered => true
  | .srExit _ => true
  | .srExitDone => true
  | .dmaEnable _ _ => true
  | .dmaAbort _ _ => true
  | .dmaDescFetch _ host => match host with
    | some d => decide (d.length = 32)
    | none => true
  | .dmaTrigger _ => true
  | .dmaFenceClear _ => true
  | .dmaDescComplete _ _ => true
  | .dmaCountWrite _ _ => true
  | .dmaTimerPulse _ => true
  | .monEnable _ _ => true
  | .monSample _ _ => true
  | .monSnap _ _ => true
  | .monClear _ _ => true
  | .irqMaskWrite _ => true
  | .cmdPinPeriod _ _ _ => true
  | .railGoodRise _ => true
  | .backPacketDiscard _ => true
  | .dmaHostReadError _ _ => true
  | .ethLinkChange _ _ _ => true
  | .pllPhaseExcursion _ => true
  | .vstayDecay => true

end Sys2Proof
end

