-- ==== Sys2Proof/Tests/Slice0.lean ====
section
/-!
SUPPORT. Small states for tests, values worked out by hand from the spec, ill-formed terms that WellFormed refuses, and for
every statement with hypotheses a state and operands that meet them, clause by clause.
-/

set_option Elab.async false

namespace Sys2Proof.Tests

open Sys2Proof.Machine Sys2Proof.Machine.Reg

/-- `s` with fields at values. -/
def poke (l : List (Fld × Nat)) (s : State) : State := l.foldl (fun s e => s.p e.1 e.2) s

/-- A rigged block with fields at values. -/
def rig (l : List (Fld × Nat)) : State := poke ((CHIP_RIGSTAT_STATE, 3) :: l) State.reset

/-- A block in LOADING from a source. -/
def loading (src : Nat) : State := { State.reset.p CHIP_RIGSTAT_STATE 1 with rig := { load := src } }

/-- A HEADER of 256 bytes for the MLV-9120 that breaks no rule (R28, R32). -/
def sampleHeader : List Byte :=
  leBytes 4 0x47524C4D ++ [0, 2, 0, 1] ++ leBytes 4 480 ++ [0x20, 0x91, 0xA0, 0] ++ leBytes 4 1 ++ List.replicate 12 0
    ++ [7] ++ List.replicate 31 0
    ++ [(1, 0, 256), (2, 256, 0), (3, 256, 0), (5, 256, 8), (8, 272, 0), (9, 272, 0), (0xF, 272, 208)].flatMap
      (fun e => leBytes 4 e.1 ++ leBytes 4 e.2.1 ++ leBytes 4 e.2.2) ++ List.replicate 108 0

/-- A block with an open session, an engine state and pair `q` on with one entry waiting. -/
def host (eng q : Nat) (l : List (Fld × Nat)) : State :=
  rig ([(REP_STAT_ENGINE, eng), (REP_STAT_SESSION, 1), (REP_STAT_VERSION, 0x200), (REP_QCFG_ENABLE q, 1),
    (REP_QCFG_SQ_LOG2 q, 4), (REP_QCFG_CQ_LOG2 q, 4), (REP_QSQT_TAIL q, 1)] ++ l)

/-- A band of one line of four zero bytes: header, a stored DEFLATE block, trailer (R93-R97). -/
def sampleBand : List Byte :=
  [0x42, 0x52, 0, 1, 2, 0, 1, 0, 32, 0, 0, 0, 0, 0, 0, 0] ++ [1, 4, 0, 0xFB, 0xFF, 0, 0, 0, 0]
    ++ leBytes 4 (crc32c [0, 0, 0, 0]).toNat ++ leBytes 4 9

/-! ## Ill-formed commands: every check of WellFormed refuses one -/

theorem test_wf_registerWrite : WellFormed (.registerWrite 0x111013 15 0) = false := by decide
theorem test_wf_qspiHeaderRead : WellFormed (.qspiHeaderRead (List.replicate 255 0)) = false := by decide +kernel
theorem test_wf_apertureWrite : [0x118002#26, 0x117FFC#26, 0x120000#26].all (fun o => !WellFormed (.apertureWrite o 0)) = true := by decide
theorem test_wf_bar2Access : [Instr.bar2Access 0 1 (some [0]) false, .bar2Access 0 0 (some []) false, .bar2Access 0 0 none false,
    .bar2Access 0 1 none true].all (fun i => !WellFormed i) = true := by decide
theorem test_wf_bar2Access_long : WellFormed (.bar2Access 0 0 (some (List.replicate 4097 0)) false) = false := by decide +kernel
theorem test_wf_csiPacket : WellFormed (.csiPacket 0 0 0 0 true (List.replicate 65536 0)) = false := by
  show decide ((List.replicate 65536 (0 : BitVec 20)).length ≤ 65535) = false
  rw [List.length_replicate]
  decide
theorem test_wf_mcIpdDone : WellFormed (.mcIpdDone 0 (List.replicate 11 [])) = false := by decide
theorem test_wf_ethFrameRx : WellFormed (.ethFrameRx 0 true (List.replicate 1537 0)) = false := by decide +kernel
theorem test_wf_dramRead : [Instr.dramRead 0 0 0 false, .dramRead 1 64 0 false].all (fun i => !WellFormed i) = true := by decide
theorem test_wf_dramWrite : WellFormed (.dramWrite 0 [] false) = false := by decide
theorem test_wf_dramWrite_long : WellFormed (.dramWrite 0 (List.replicate 4097 0) false) = false := by decide +kernel
theorem test_wf_dmaDescFetch : WellFormed (.dmaDescFetch 0 (some (List.replicate 31 0))) = false := by decide

/-! ## Values that the spec works out -/

/-- What a command leaves, seen through `f`. -/
def after {α : Type} (c : Instr) (s : State) (f : State → α) : Option α :=
  match exec c s with
  | .next t => some (f t)
  | _ => none

/-- R11's example: -0.5 in SQ2.18 by either word, and +0.75. -/
theorem test_sq_values : sq20 0xE0000 = -131072 ∧ sq20 (0xFFFE0000 % 2 ^ 20) = -131072 ∧ sq20 0x30000 = 196608 := by decide

/-- R97's check value. -/
theorem test_crc32c : crc32c [0x31, 0x32, 0x33, 0x34, 0x35, 0x36, 0x37, 0x38, 0x39] = 0xE3069283 := by decide +kernel

/-- The example of R95: PRED 3, lines 100, 104 and 102, 110. -/
theorem test_predictor : Inflate.unpredict 0 3 2 2 [] [100, 54, 52, 7] = [100, 104, 102, 110] := by decide +kernel

/-- The band of one line of zeros decodes to it (R93-R97). -/
theorem test_band : (Inflate.band (sampleBand.map some) sampleBand.length
    { kind := 2, width := 32, lines := 1, index := 0, stride := 4 }).toOption = some [0, 0, 0, 0] := by decide +kernel

/-- The table of R76's example: the version HELLO agrees on. -/
theorem test_hello_versions : [(0x100, 0x101), (0x100, 0x300), (0x102, 0x109), (0x201, 0x300), (0x008, 0x009)].map
    (fun x => repChoose x.1 x.2) = [some 0x101, some 0x200, none, none, none] := by decide +kernel

/-- R186's example: the link version that a driver's range gives. -/
theorem test_link_versions : [(0x100, 0x101), (0x100, 0x300), (0x201, 0x300)].map
    (fun x => chooseVersion { rig [] with stn := [(7, { newest := { alMin := 0x100, alMax := 0x200 } })] } 7 x.1 x.2) =
    [some 0x101, some 0x200, none] := by decide +kernel

/-- R385's example: two addresses a row apart. -/
theorem test_dram_place : placeOf 1 1 1 (3, 2, 16) 0x35A7C9F40 = ⟨0, 1, 31, 0, 6, 3, 0x35A7⟩ ∧
    (placeOf 1 1 1 (3, 2, 16) 0x35A8C9F40).bg = 1 ∧ (placeOf 1 1 1 (3, 2, 16) 0x35A8C9F40).bank = 2 := by decide +kernel

/-- R426's example: a read of STN6_LEVEL on the MLV-9080, and an unmapped read after it. -/
theorem test_absent_read : after (.absentUnitAccess 0x1600028 15 false) { rig [] with part := .mlv9080 }
    (fun t => (t.reg CHIP_ERR, t.reg CHIP_ERRADDR, t.out)) = some (1#32, 0x81600028#32, [.read 0x1600028 0]) := by decide +kernel
theorem test_unmapped_read : after (.unmappedAccess 0x410030 15 false) { poke [(CHIP_ERR_ABSENT_ACCESS, 1)] (rig []) with part := .mlv9080 }
    (fun t => (t.on CHIP_ERR_UNMAPPED, t.reg CHIP_ERRADDR)) = some (true, 0#32) := by decide +kernel
theorem test_chip_err_write : after (.registerWrite 0x10 15 5) (poke [(CHIP_ERR_ABSENT_ACCESS, 1), (CHIP_ERR_UNMAPPED, 1),
    (CHIP_ERRADDR_VALID, 1)] (rig [])) (fun t => (t.reg CHIP_ERR, t.on CHIP_ERRADDR_VALID)) = some (0#32, false) := by decide +kernel

/-- R256's example: PMAX 200 kHz calls for level 1 above 781.25 full steps/s and for level 2 above 1,562.5. -/
theorem test_step_levels : let s := rig [(AX_MSTEP_PMAX 3, 200), (AX_MSTEP_MAXLEVEL 3, 8), (AX_MSTEP_MINLEVEL 3, 0)]
    [200000, 200001, 400000, 400001, 800001].map (fun v => wantLevel s 3 (v * 1000000)) = [0, 1, 1, 2, 3] := by decide +kernel

/-- R449's example: balls 563, 603 and 1,139. -/
theorem test_fio_balls : [0, 8, 127].map fioBall = [563, 603, 1139] := by decide +kernel


/-- A MINIMAL image for the MLV-9120, laid out by R28-R32, R321, R379 and R380, its digest signed with a tool outside the
model (R35). -/
def sampleImage : List Byte :=
  beBytes 21 0x4d4c524701020001700200002091a0000100000007 ++
  beBytes 11 0 ++
  beBytes 1 0x07 ++
  beBytes 31 0 ++
  beBytes 1 0x01 ++
  beBytes 8 0 ++
  beBytes 48 0x010000020000000001000008000000030000001001000008000000050000002001000008000000080000003001000014 ++
  beBytes 24 0x0000000900000050010000440000000f000000a0010000d0 ++
  beBytes 111 0 ++
  beBytes 5 0xffffff0001 ++
  beBytes 11 0 ++
  beBytes 7 0x0600040020a107 ++
  beBytes 10 0 ++
  beBytes 5 0x0f0101010a ++
  beBytes 10 0 ++
  beBytes 3 0x010001 ++
  beBytes 29 0 ++
  beBytes 37 0x01000100001901011010000028002800280028002800280028002800280028002800280028 ++
  beBytes 43 0 ++
  beBytes 8 0x0100000000000000 ++
  beBytes 1 0x04 ++
  beBytes 48 0x8bc71e1f1aed6402f2409a7666622d48851ddee8e1204d135de0dc8d529f9f6ebf4be662ff40dde9813beca1ff5f2c3a ++
  beBytes 48 0xbe2816d165f6b40ff1c7ddba6ec6b0795a03cee2c5563dff50532547da9453978c5b6f901ec7f28e33f34d950e282e53 ++
  beBytes 7 0 ++
  beBytes 48 0x28d906babcf3399f450b41828cffb426bb747172a4720dbe224ad3efa8bcb6a39424e6a4276e8d001a96c3083becd4e2 ++
  beBytes 48 0x1d2af9e9c346ca03d3e2cc8a1d3d7e9c5194fd2d663ce0e51714fcdff9909d2bfebdca6eb126b2b91c306fb41ca5ebec

/-- The digest of "abc" (FIPS 180-4's example). -/
theorem test_sha384 : beNat (sha384 [0x61, 0x62, 0x63]) = 0xcb00753f45a35e8bb5a03d699ac65007272c32ab0eded1631a8b605a43ff5bed8086072ba1e7cc2358baeca134c825a7 := by
  decide +kernel

/-- The image passes every check of R37 and rigs the block. -/
theorem test_image_rigs :
    (imageVerified 7 (verify sampleImage (loading Rg.flash1))).g CHIP_RIGSTAT_STATE = Rg.rigged := by decide +kernel

/-- With the last byte of its signature changed it does not verify. -/
theorem test_bad_signature : signatureOk (sampleImage.dropLast ++ [0]) = false := by decide +kernel

/-! ## Hypotheses met -/

theorem witness_RegisterWriteByAccessTypes :
    ∃ (s : State) (off : BitVec 26), Reaches s (off.toNat / 4 * 4) ∧ ownRule (off.toNat / 4 * 4) = false :=
  ⟨rig [(HV_STAT_GUARD 31, 1), (HV_STAT_STATE 31, 2)], BitVec.ofNat 26 (HV_STAT 31 + 3), by decide +kernel⟩

theorem witness_ReservedWindow :
    (∃ (s : State) (off : BitVec 26), s.dead = false ∧ 0x2000000 ≤ off.toNat) ∧
    (∃ (s : State) (off : BitVec 26), s.dead = false ∧ 0x2000000 ≤ off.toNat) :=
  ⟨⟨rig [], 0x2000000#26, by decide +kernel⟩,
    ⟨rig [], 0x3FFFFFF#26, by decide +kernel⟩⟩

theorem witness_MonitorCommands :
    (∃ (s : State) (m : Fin 32) (v : Word), Reaches s (MON_CFG m) ∧ s.on (MON_CFG_ENABLE m) = false ∧ fieldOf
      (MON_CFG_ENABLE m) v = 1 ∧ fieldOf (MON_CFG_SNAP m) v = 0 ∧ fieldOf (MON_CFG_CLEAR m) v = 0 ∧ probeOk s
      (fieldOf (MON_CFG_KIND m) v) (fieldOf (MON_CFG_SEL m) v) = true) ∧
    (∃ (s : State) (m : Fin 32) (v : Word), Reaches s (MON_CFG m) ∧ s.on (MON_CFG_ENABLE m) = false ∧ fieldOf
      (MON_CFG_ENABLE m) v = 1 ∧ fieldOf (MON_CFG_SNAP m) v = 0 ∧ fieldOf (MON_CFG_CLEAR m) v = 0 ∧ probeOk s
      (fieldOf (MON_CFG_KIND m) v) (fieldOf (MON_CFG_SEL m) v) = false) ∧
    (∃ (s : State) (m : Fin 32) (v : Word), Reaches s (MON_CFG m) ∧ fieldOf (MON_CFG_SNAP m) v = 1 ∧ fieldOf
      (MON_CFG_CLEAR m) v = 0 ∧ fieldOf (MON_CFG_CLR_ON_SNAP m) v = 0) ∧
    (∃ (s : State) (m : Fin 32) (v : Word), Reaches s (MON_CFG m) ∧ fieldOf (MON_CFG_SNAP m) v = 1 ∧ fieldOf
      (MON_CFG_CLEAR m) v = 0 ∧ fieldOf (MON_CFG_CLR_ON_SNAP m) v = 1) ∧
    (∃ (s : State) (m : Fin 32) (v : Word), Reaches s (MON_CFG m) ∧ fieldOf (MON_CFG_SNAP m) v = 0 ∧ fieldOf
      (MON_CFG_CLEAR m) v = 1) ∧
    (∃ (s : State) (m : Fin 32), s.dead = false ∧ monTakes s m) ∧
    (∃ (s : State) (m : Fin 32) (x : BitVec 32), s.dead = false ∧ monTakes s m ∧ s.gi (MON_ALO_LIMIT m) ≤ probed s
      m x ∧ probed s m x ≤ s.gi (MON_AHI_LIMIT m)) ∧
    (∃ (s : State) (m : Fin 32) (x : BitVec 32), s.dead = false ∧ monTakes s m ∧ (probed s m x < s.gi
      (MON_ALO_LIMIT m) ∨ s.gi (MON_AHI_LIMIT m) < probed s m x)) ∧
    (∃ (s : State) (m : Fin 32), s.dead = false ∧ (s.on (MON_CFG_ENABLE m) = false ∨ probeIdle s (s.g
      (MON_CFG_KIND m)) (s.g (MON_CFG_SEL m)) = true)) :=
  ⟨⟨rig [], 31, 0x80010083#32, by decide +kernel⟩,
    ⟨rig [], 0, 0x80010084#32, by decide +kernel⟩,
    ⟨{ rig [(MON_CFG_ENABLE 4, 1)] with mon := [(4, { lo := -7, hi := 90, count := 12, bins := [(0, 5), (63, 7)] })] },
      4, 0xC0000000#32, by decide +kernel⟩,
    ⟨{ rig [(MON_CFG_ENABLE 4, 1)] with mon := [(4, { lo := -7, hi := 90, count := 12, bins := [(0, 5), (63, 7)] })] },
      4, (BitVec.ofNat 32 (0xC0000000 + 2 ^ (MON_CFG_CLR_ON_SNAP 4).lo)), by decide +kernel⟩,
    ⟨{ rig [(MON_CFG_ENABLE 4, 1), (MON_COUNT_VALUE 4, 9)] with mon := [(4, { lo := -7, hi := 90, count := 12, bins := [(0, 5), (63, 7)] })] },
      4, 0xA0000000#32, by decide +kernel⟩,
    ⟨rig [(MON_CFG_ENABLE 2, 1), (MON_BASE_BASE 2, 10), (MON_SCALE_WIDTH 2, 5), (MON_AHI_LIMIT 2, 20)], 2,
      by decide +kernel⟩,
    ⟨{ rig [(MON_CFG_ENABLE 31, 1), (MON_AHI_LIMIT 31, 50), (MON_ALO_LIMIT 31, 4294967288)] with mon := [(31, { count := 0xFFFFFFFE, bins := [(50, 0xFFFFFFFE)] })] },
      31, 50#32, by decide +kernel⟩,
    ⟨rig [(MON_CFG_ENABLE 0, 1), (MON_AHI_LIMIT 0, 50), (MON_ALO_LIMIT 0, 4294967288)], 0, 51#32,
      by decide +kernel⟩,
    ⟨rig [(MON_CFG_ENABLE 0, 1), (MON_CFG_KIND 0, 2)], 0, by decide +kernel⟩⟩

theorem witness_ErrorLogAndInterrupts :
    (∃ (s : State) (i : Fin 256), Reaches s (ERR_REC i 0)) ∧
    (∃ (s : State), Reaches s TIME_NOW_NS) ∧
    (∃ (s : State) (v : Word), Reaches s CHIP_IRQ_MASK ∧ Nat.land (s.g CHIP_IRQ_STAT_REGION) (fieldOf
      CHIP_IRQ_MASK_REGION v) = 0) ∧
    (∃ (s : State) (v : Word), Reaches s CHIP_IRQ_MASK ∧ Nat.land (s.g CHIP_IRQ_STAT_REGION) (s.g
      CHIP_IRQ_MASK_REGION) = 0 ∧ Nat.land (s.g CHIP_IRQ_STAT_REGION) (fieldOf CHIP_IRQ_MASK_REGION v) ≠ 0 ∧
      bitsOf (s.reg (MSIX_TABLE (s.g CHIP_IRQ_CFG_VECTOR) 3)).toNat 0 1 = 0) :=
  ⟨⟨poke [(ERR_REC_WORD 255 0, 77), (ERR_REC_WORD 255 3, 9)] (rig []), 255, by decide +kernel⟩,
    ⟨{ rig [] with time := { sec := 5 * 2 ^ 32 + 1, ns := 999999999, frac := 7 } }, by decide +kernel⟩,
    ⟨rig [(CHIP_IRQ_STAT_REGION, 2)], 0x7D#32, by decide +kernel⟩,
    ⟨(rig [(CHIP_IRQ_MASK_REGION, 0), (CHIP_IRQ_STAT_REGION, 2), (CHIP_IRQ_CFG_VECTOR, 3)]).setReg (MSIX_TABLE 3
      3) 0, 0x02#32, by decide +kernel⟩⟩

theorem witness_EscalationTimeouts :
    (∃ (s : State) (c : BitVec 8) (i : BitVec 8) (b : Nat) (q : Nat), s.dead = false ∧ s.err.conts.find? (fun x =>
      x.1 == c.toNat * 256 + i.toNat) = some (b, q)) ∧
    (∃ (s : State) (c : BitVec 8) (i : BitVec 8), s.dead = false ∧ s.err.conts.find? (fun x => x.1 == c.toNat *
      256 + i.toNat) = none) ∧
    (∃ (s : State) (r : Fin 7) (b : Nat) (q : Nat), s.dead = false ∧ s.err.regionReset.contains r.val = true ∧
      s.err.fatals.find? (fun x => x.1 == r.val) = some (r.val, b, q)) ∧
    (∃ (s : State) (r : Fin 7), s.dead = false ∧ s.err.regionReset.contains r.val = false) :=
  ⟨⟨{ rig [] with err := { conts := [(258, 9)] } }, 1#8, 2#8, 258, 9, by decide +kernel⟩,
    ⟨{ rig [] with err := { conts := [(258, 9)] } }, 255#8, 0#8, by decide +kernel⟩,
    ⟨{ rig [] with err := { fatals := [(6, 0x5001, 7)], regionReset := [6] } }, 6, 0x5001, 7, by decide +kernel⟩,
    ⟨rig [], 0, by decide +kernel⟩⟩

theorem witness_TimeCounter :
    (∃ (s : State) (v : Word), Reaches s TIME_INC_NS ∧ 3996 * 2 ^ 32 ≤ 1000 * (v.toNat % 16 * 2 ^ 32 + s.g
      TIME_INC_FRAC_VALUE) ∧ 1000 * (v.toNat % 16 * 2 ^ 32 + s.g TIME_INC_FRAC_VALUE) ≤ 4004 * 2 ^ 32) ∧
    (∃ (s : State) (v : Word), Reaches s TIME_INC_NS ∧ (1000 * (v.toNat % 16 * 2 ^ 32 + s.g TIME_INC_FRAC_VALUE) <
      3996 * 2 ^ 32 ∨ 4004 * 2 ^ 32 < 1000 * (v.toNat % 16 * 2 ^ 32 + s.g TIME_INC_FRAC_VALUE))) ∧
    (∃ (s : State) (v : Word), Reaches s TIME_CTRL ∧ fieldOf TIME_CTRL_STEP v = 1 ∧ fieldOf TIME_CTRL_REARM v = 0
      ∧ s.on TIME_STAT_STEP_ARMED = true ∧ s.g TIME_OFS_NS_VALUE ≤ 999999999 ∧ 0 ≤ (s.time.toNs : Int) + stepOfs
      s) ∧
    (∃ (s : State) (v : Word), Reaches s TIME_CTRL ∧ fieldOf TIME_CTRL_STEP v = 1 ∧ fieldOf TIME_CTRL_REARM v = 0
      ∧ s.on TIME_STAT_STEP_ARMED = false) ∧
    (∃ (s : State) (v : Word), Reaches s TIME_CTRL ∧ fieldOf TIME_CTRL_STEP v = 1 ∧ fieldOf TIME_CTRL_REARM v = 0
      ∧ s.on TIME_STAT_STEP_ARMED = true ∧ (999999999 < s.g TIME_OFS_NS_VALUE ∨ (s.time.toNs : Int) + stepOfs s <
      0)) ∧
    (∃ (s : State) (v : Word), Reaches s TIME_CTRL ∧ s.on TIME_STAT_STEP_ARMED = false ∧ fieldOf TIME_CTRL_REARM v
      = 1 ∧ fieldOf TIME_CTRL_STEP v = 0) ∧
    (∃ (s : State) (v : Word), Reaches s TIME_CTRL ∧ s.on TIME_STAT_STEP_ARMED = true ∧ fieldOf TIME_CTRL_REARM v
      = 1 ∧ fieldOf TIME_CTRL_STEP v = 0) ∧
    (∃ (s : State) (o : Int), s.net.step = some o ∧ 0 ≤ (s.time.toNs : Int) + o) :=
  ⟨⟨rig [(TIME_INC_FRAC_VALUE, 17179869)], 4#32, by decide +kernel⟩,
    ⟨rig [(TIME_INC_FRAC_VALUE, 17179870)], 4#32, by decide +kernel⟩,
    ⟨{ rig [(TIME_STAT_STEP_ARMED, 1), (TIME_OFS_NS_VALUE, 999999999), (TIME_OFS_S_LO_VALUE, 0xFFFFFFFF), (TIME_OFS_S_HI_VALUE, 0xFFFF)] with time := { sec := 7, ns := 1 } },
      2#32, by decide +kernel⟩,
    ⟨rig [(TIME_STAT_STEP_ARMED, 0)], 2#32, by decide +kernel⟩,
    ⟨rig [(TIME_STAT_STEP_ARMED, 1), (TIME_OFS_NS_VALUE, 1000000000)], 2#32, by decide +kernel⟩,
    ⟨rig [(TIME_STAT_STEP_ARMED, 0), (TIME_DISC_COUNT, 0xFFFFFFFF)], 4#32, by decide +kernel⟩,
    ⟨rig [(TIME_STAT_STEP_ARMED, 1)], 4#32, by decide +kernel⟩,
    ⟨{ rig [(TIME_STAT_STEP_ARMED, 1)] with time := { sec := 7, ns := 1, frac := 5 }, net := { step := some (-6000000002) } },
      -6000000002, by decide +kernel⟩⟩

theorem witness_TimedPulseOutputs :
    (∃ (s : State) (k : Fin 8) (v : Word), Reaches s (TPO_CTRL k) ∧ s.on (TPO_STAT_SPOIL k) = false ∧ s.on
      (TPO_CTRL_ENABLE k) = false ∧ fieldOf (TPO_CTRL_ENABLE k) v = 1 ∧ 8 ≤ s.g (TPO_PERIOD_VALUE k) ∧ 4 ≤ s.g
      (TPO_WIDTH_VALUE k) ∧ s.g (TPO_WIDTH_VALUE k) + 4 ≤ s.g (TPO_PERIOD_VALUE k) ∧ s.time.toNs ≤ tpoEdgeAt s k
      0) ∧
    (∃ (s : State) (k : Fin 8) (v : Word), Reaches s (TPO_CTRL k) ∧ s.on (TPO_STAT_SPOIL k) = false ∧ s.on
      (TPO_CTRL_ENABLE k) = false ∧ fieldOf (TPO_CTRL_ENABLE k) v = 1 ∧ (s.g (TPO_PERIOD_VALUE k) < 8 ∨ s.g
      (TPO_WIDTH_VALUE k) < 4 ∨ s.g (TPO_PERIOD_VALUE k) < s.g (TPO_WIDTH_VALUE k) + 4)) ∧
    (∃ (s : State) (k : Fin 8) (v : Word), Reaches s (TPO_CTRL k) ∧ s.on (TPO_STAT_SPOIL k) = false ∧ s.on
      (TPO_CTRL_ENABLE k) = true ∧ fieldOf (TPO_CTRL_ENABLE k) v = 0) ∧
    (∃ (s : State) (k : Fin 8) (e : Nat), s.dead = false ∧ s.on (TPO_CTRL_ENABLE k) = true ∧ (s.g (TPO_CTRL_COUNT
      k) = 0 ∨ (tpoU s k).next < s.g (TPO_CTRL_COUNT k)) ∧ e = tpoEdgeAt s k (tpoU s k).next ∧ e ≤ s.time.toNs) ∧
    (∃ (s : State) (k : Fin 8) (e : Nat), s.dead = false ∧ (tpoU s k).fall = some e ∧ e ≤ s.time.toNs ∧ (tpoU s
      k).rose < s.clock) :=
  ⟨⟨rig [(TPO_PERIOD_VALUE 7, 8), (TPO_WIDTH_VALUE 7, 4), (TPO_START_NS_VALUE 7, 100)], 7, 0x80000003#32,
      by decide +kernel⟩,
    ⟨rig [(TPO_PERIOD_VALUE 0, 8), (TPO_WIDTH_VALUE 0, 5)], 0, 0x80000003#32, by decide +kernel⟩,
    ⟨{ rig [(TPO_CTRL_ENABLE 3, 1), (TPO_STAT_HIGH 3, 1)] with rig := { pins := [(0x59, 3, 0)] } }, 3, 0#32,
      by decide +kernel⟩,
    ⟨{ rig [(TPO_CTRL_ENABLE 1, 1), (TPO_PERIOD_VALUE 1, 8), (TPO_WIDTH_VALUE 1, 4)] with time := { ns := 8 }, net := { tpo := [(1, { next := 1 })] }, rig := { pins := [(0x59, 1, 0)] } },
      1, 8, by decide +kernel⟩,
    ⟨{ rig [(TPO_CTRL_ENABLE 1, 1), (TPO_STAT_HIGH 1, 1)] with time := { ns := 12 }, net := { tpo := [(1, { next := 2, fall := some 12, rose := 3 })] }, clock := 4, rig := { pins := [(0x59, 1, 0)] } },
      1, 12, by decide +kernel⟩⟩

theorem witness_PllsAndBands :
    (∃ (s : State) (p : Fin 12) (b : Nat), s.dead = false ∧ 1 ≤ p.val ∧ s.on (CLK_PLL_STAT_RUN p) = true ∧
      pllLocked s p = false ∧ measured s p = false ∧ (bankGet none s.clk.cal p).getD (bandNow s p) = some b ∧ b <
      64) ∧
    (∃ (s : State) (p : Fin 12), s.dead = false ∧ pllLocked s p = true) ∧
    (∃ (s : State), s.dead = false ∧ s.on CLK_REF_OK = true) ∧
    (∃ (s : State) (v : Word), Reaches s CLK_BANDMEAS ∧ fieldOf CLK_BANDMEAS_START v = 1 ∧ s.on CLK_BANDMEAS_BUSY
      = false ∧ measurable s (fieldOf CLK_BANDMEAS_PLL v) = true) ∧
    (∃ (s : State) (v : Word), Reaches s CLK_BANDMEAS ∧ fieldOf CLK_BANDMEAS_START v = 1 ∧ (s.on CLK_BANDMEAS_BUSY
      = true ∨ measurable s (fieldOf CLK_BANDMEAS_PLL v) = false)) ∧
    (∃ (s : State), s.dead = false ∧ s.on CLK_BANDMEAS_BUSY = true) ∧
    (∃ (s : State) (p : Fin 12), s.dead = false ∧ bitsOf (s.g CLK_LOCKA_MASK) p 1 = 1) :=
  ⟨⟨rig [(CLK_PLL_STAT_RUN 11, 1), (CLK_PLL_FREQ_KHZ 11, 800000), (CLK_PLL_STAT_ODIV 11, 2)], 11, 0,
      by decide +kernel⟩,
    ⟨rig [(CLK_PLL_STAT_RUN 11, 1), (CLK_PLL_STAT_LOCK 11, 1)], 11, by decide +kernel⟩,
    ⟨rig [(CLK_REF_OK, 1)], by decide +kernel⟩,
    ⟨rig [], 0x0001000A#32, by decide +kernel⟩,
    ⟨rig [(CLK_BANDMEAS_BUSY, 1)], 0x0001000A#32, by decide +kernel⟩,
    ⟨rig [(CLK_BANDMEAS_BUSY, 1)], by decide +kernel⟩,
    ⟨{ rig [(CLK_LOCKA_MASK, 2048)] with clock := 5 }, 11, by decide +kernel⟩⟩

theorem witness_DmaControlWrites :
    (∃ (s : State) (n : Fin 64) (v : Word), Reaches s (DMA_CTRL n) ∧ s.on (DMA_CTRL_ENABLE n) = false ∧ fieldOf
      (DMA_CTRL_ENABLE n) v = 1 ∧ dmaRefused s n v = false) ∧
    (∃ (s : State) (n : Fin 64) (v : Word), Reaches s (DMA_CTRL n) ∧ s.on (DMA_CTRL_ENABLE n) = false ∧ fieldOf
      (DMA_CTRL_ENABLE n) v = 1 ∧ dmaRefused s n v = true) ∧
    (∃ (s : State) (n : Fin 64) (v : Word), Reaches s (DMA_CTRL n) ∧ s.on (DMA_CTRL_ENABLE n) = true ∧ (fieldOf
      (DMA_CTRL_ENABLE n) v = 0 ∨ fieldOf (DMA_CTRL_ABORT n) v = 1) ∧ (dmaU s n).step ≠ .idle ∧ (dmaU s n).step ≠
      .move) ∧
    (∃ (s : State) (n : Fin 64) (v : Word) (a : Nat), Reaches s (DMA_CTRL n) ∧ s.on (DMA_CTRL_ENABLE n) = true ∧
      (fieldOf (DMA_CTRL_ENABLE n) v = 0 ∨ fieldOf (DMA_CTRL_ABORT n) v = 1) ∧ (dmaU s n).step = .move ∧ (dmaU s
      n).desc.dsp = 1 ∧ (a < (dmaU s n).desc.dst ∨ (dmaU s n).desc.dst + (dmaU s n).desc.len ≤ a)) ∧
    (∃ (s : State) (n : Fin 64) (v : Word), Reaches s (DMA_CTRL n) ∧ s.on (DMA_CTRL_ENABLE n) = true ∧ (fieldOf
      (DMA_CTRL_ENABLE n) v = 0 ∨ fieldOf (DMA_CTRL_ABORT n) v = 1) ∧ (dmaU s n).step = .move ∧ (dmaU s
      n).desc.ssp = 1 ∧ (dmaU s n).desc.dsp = 1 ∧ downward (dmaU s n).desc = false ∧ (dmaU s n).hazard = [] ∧
      cleanLen s (dmaU s n).desc = none ∧ (dmaU s n).desc.len < 2 ^ 32 ∧ (dmaU s n).snap.length = (dmaU s
      n).desc.len) ∧
    (∃ (s : State) (n : Fin 64), Reaches s (DMA_COUNT n)) :=
  ⟨⟨(rig []).setReg (DMA_DESC_LO 63) 0xFFFFFFE1, 63, 0xC0FF3F40#32, by decide +kernel⟩,
    ⟨rig [], 0, 0x80000050#32, by decide +kernel⟩,
    ⟨{ rig [(DMA_CTRL_ENABLE 9, 1)] with dma := { chan := [(9, { step := .fence })] } }, 9, 0xC0000000#32,
      by decide +kernel⟩,
    ⟨{ rig [(DMA_CTRL_ENABLE 9, 1)] with dma := { chan := [(9, { step := .move, desc := { src := 0, dst := 200, len := 100, ctrl := 5 } })] } },
      9, 0xC0000000#32, 300, by decide +kernel⟩,
    ⟨{ rig [(DMA_CTRL_ENABLE 9, 1)] with dma := { chan := [(9, { step := .move, desc := { src := 0, dst := 200, len := 3, ctrl := 5 }, snap := [1, 2, 3] })] } },
      9, 0xC0000000#32, by decide +kernel⟩,
    ⟨rig [], 63, by decide +kernel⟩⟩

theorem witness_DmaTriggersAndDescriptors :
    (∃ (s : State) (n : Fin 64), s.dead = false ∧ (s.fabricFeeds (0x3100 + n.val) 0 = true ∨ s.mapped 0x31 n 0 =
      true) ∧ s.g (DMA_CTRL_TRIG_SRC n) = 4 ∧ s.on (DMA_CTRL_ENABLE n) = true ∧ s.g (DMA_STAT_PEND n) < 15 ∧ (dmaU
      s n).step ≠ .trigger) ∧
    (∃ (s : State) (n : Fin 64), s.dead = false ∧ (s.fabricFeeds (0x3100 + n.val) 0 = true ∨ s.mapped 0x31 n 0 =
      true) ∧ s.g (DMA_CTRL_TRIG_SRC n) = 4 ∧ s.on (DMA_CTRL_ENABLE n) = true ∧ s.g (DMA_STAT_PEND n) = 15) ∧
    (∃ (s : State) (n : Fin 64), s.dead = false ∧ (s.fabricFeeds (0x3100 + n.val) 0 = true ∨ s.mapped 0x31 n 0 =
      true) ∧ s.g (DMA_CTRL_TRIG_SRC n) = 4 ∧ s.on (DMA_CTRL_ENABLE n) = true ∧ s.g (DMA_STAT_PEND n) < 15 ∧ (dmaU
      s n).step = .trigger ∧ (dmaU s n).desc.flag 7 = false) ∧
    (∃ (s : State) (k : Fin 8), s.dead = false ∧ s.on (DMT_CTRL_ENABLE k) = true ∧ bankGet 0 s.dma.timer k +
      timerNs s k ≤ s.clock) ∧
    (∃ (s : State) (n : Fin 64) (k : Fin 8), s.dead = false ∧ s.on (DMT_CTRL_ENABLE k) = true ∧ bankGet 0
      s.dma.timer k + timerNs s k ≤ s.clock ∧ s.g (DMA_CTRL_TRIG_SRC n) = 1 ∧ s.g (DMA_CTRL_TRIG_IDX n) = k.val ∧
      s.on (DMA_CTRL_ENABLE n) = true ∧ s.g (DMA_STAT_PEND n) < 15 ∧ (dmaU s n).step ≠ .trigger) ∧
    (∃ (s : State) (n : Fin 64), s.dead = false ∧ (dmaU s n).step = .fence) ∧
    (∃ (s : State) (n : Fin 64) (b : List (BitVec 8)), s.dead = false ∧ (dmaU s n).step = .fetch ∧ curOf s n % 2 =
      0 ∧ descParam s.part (descOf b) = false ∧ descBeyond s (descOf b) = false ∧ (descOf b).flag 6 = false ∧
      (descOf b).flag 7 = false) ∧
    (∃ (s : State) (n : Fin 64) (b : List (BitVec 8)), s.dead = false ∧ (dmaU s n).step = .fetch ∧ curOf s n % 2 =
      0 ∧ descParam s.part (descOf b) = false ∧ descBeyond s (descOf b) = false ∧ (descOf b).flag 6 = true ∧ s.on
      (DMA_CTRL_TRIG_SRC n) = true ∧ s.g (DMA_STAT_PEND n) = 0) ∧
    (∃ (s : State) (n : Fin 64) (b : List (BitVec 8)), s.dead = false ∧ (dmaU s n).step = .fetch ∧ curOf s n % 2 =
      0 ∧ descParam s.part (descOf b) = false ∧ descBeyond s (descOf b) = false ∧ (descOf b).flag 6 = false ∧
      (descOf b).flag 7 = true) ∧
    (∃ (s : State) (n : Fin 64) (b : List (BitVec 8)), s.dead = false ∧ (dmaU s n).step = .fetch ∧ curOf s n % 2 =
      0 ∧ descParam s.part (descOf b) = true) ∧
    (∃ (s : State) (n : Fin 64) (b : List (BitVec 8)), s.dead = false ∧ (dmaU s n).step = .fetch ∧ curOf s n % 2 =
      0 ∧ descParam s.part (descOf b) = false ∧ descBeyond s (descOf b) = true) ∧
    (∃ (s : State) (n : Fin 64), s.dead = false ∧ (dmaU s n).step = .fetch ∧ curOf s n % 2 = 0) ∧
    (∃ (s : State) (n : Fin 64), s.dead = false ∧ (dmaU s n).step = .fetch ∧ curOf s n % 2 = 1 ∧ s.installed <
      curOf s n / 32 * 32 + 32) ∧
    (∃ (s : State) (n : Fin 64), s.dead = false ∧ (dmaU s n).step = .fetch ∧ curOf s n % 2 = 0) ∧
    (∃ (s : State) (n : Fin 64), s.dead = false ∧ (dmaU s n).step = .move ∧ (dmaU s n).desc.ssp = 0) :=
  ⟨⟨{ poke [(DMA_STAT_PEND 63, 14)] (rig [(DMA_CTRL_ENABLE 63, 1), (DMA_CTRL_TRIG_SRC 63, 4)]) with rig := { pins := [(0x31, 63, 0)] } },
      63, by decide +kernel⟩,
    ⟨{ poke [(DMA_STAT_PEND 0, 15)] (rig [(DMA_CTRL_ENABLE 0, 1), (DMA_CTRL_TRIG_SRC 0, 4)]) with rig := { pins := [(0x31, 0, 0)] } },
      0, by decide +kernel⟩,
    ⟨{ poke [(SPAR_STAT_CONFIGURED, 1)] (rig [(DMA_CTRL_ENABLE 1, 1), (DMA_CTRL_TRIG_SRC 1, 4)]) with dma := { chan := [(1, { step := .trigger, desc := { ctrl := 64 } })] }, rig := { routes := [{ line := 5, src := 0x1900, ev := 3, sink := 0x3101, inp := 0, mode := 0 }] } },
      1, by decide +kernel⟩,
    ⟨{ rig [(DMT_CTRL_ENABLE 7, 1), (DMT_PERIOD_PERIOD 7, 100)] with clock := 1000 }, 7, by decide +kernel⟩,
    ⟨{ rig [(DMT_CTRL_ENABLE 7, 1), (DMT_PERIOD_PERIOD 7, 100), (DMA_CTRL_ENABLE 63, 1), (DMA_CTRL_TRIG_SRC 63, 1), (DMA_CTRL_TRIG_IDX 63, 7)] with clock := 1000 },
      63, 7, by decide +kernel⟩,
    ⟨{ rig [] with dma := { chan := [(63, { step := .fence, desc := { ctrl := 128 } })] } }, 63,
      by decide +kernel⟩,
    ⟨{ rig [] with dma := { chan := [(5, { step := .fetch })] } }, 5, [0, 0, 0, 0, 0, 0, 0, 0, 0, 0, 0, 0, 0, 0,
      0, 0, 8, 0, 0, 0, 3, 4, 0, 0], by decide +kernel⟩,
    ⟨{ rig [(DMA_CTRL_TRIG_SRC 5, 4)] with dma := { chan := [(5, { step := .fetch })] } }, 5, [0, 0, 0, 0, 0, 0,
      0, 0, 0, 0, 0, 0, 0, 0, 0, 0, 8, 0, 0, 0, 67, 4, 0, 0], by decide +kernel⟩,
    ⟨{ rig [] with dma := { chan := [(5, { step := .fetch })] } }, 5, [0, 0, 0, 0, 0, 0, 0, 0, 0, 0, 0, 0, 0, 0,
      0, 0, 8, 0, 0, 0, 131, 4, 0, 0], by decide +kernel⟩,
    ⟨{ rig [] with dma := { chan := [(5, { step := .fetch })] } }, 5, [0, 0, 0, 0, 0, 0, 0, 0, 0, 0, 0, 0, 0, 0,
      0, 0, 8, 0, 0, 0, 12, 4, 0, 0], by decide +kernel⟩,
    ⟨{ rig [] with dma := { chan := [(5, { step := .fetch })] } }, 5, [0, 0, 0, 0, 0, 0, 0, 0, 0, 0, 0, 0, 0, 0,
      0, 0, 8, 0, 0, 0, 5, 4, 0, 0], by decide +kernel⟩,
    ⟨{ rig [] with dma := { chan := [(0, { step := .fetch })] } }, 0, by decide +kernel⟩,
    ⟨{ rig [(DMA_CUR_LO_ADDR 0, 1)] with dma := { chan := [(0, { step := .fetch })] } }, 0, by decide +kernel⟩,
    ⟨{ rig [] with dma := { chan := [(0, { step := .fetch })] } }, 0, by decide +kernel⟩,
    ⟨{ rig [] with dma := { chan := [(7, { step := .move, desc := { src := 64, dst := 128, len := 4, ctrl := 1028 } })] } },
      7, by decide +kernel⟩⟩

theorem witness_DmaCopyIsExact :
    (∃ (s : State) (n : Fin 64), s.dead = false ∧ (dmaU s n).step = .move ∧ (dmaU s n).hazard = [] ∧ (dmaU s
      n).desc.flag 8 = false ∧ (dmaU s n).desc.flag 9 = false ∧ (dmaU s n).desc.flag 10 = true ∧ (dmaU s
      n).desc.ssp = 1 ∧ (dmaU s n).desc.dsp = 1 ∧ cleanLen s (dmaU s n).desc = none ∧ (dmaU s n).snap.length =
      (dmaU s n).desc.len) ∧
    (∃ (s : State) (n : Fin 64) (a : Nat), s.dead = false ∧ (dmaU s n).step = .move ∧ (dmaU s n).hazard = [] ∧
      (dmaU s n).desc.flag 8 = false ∧ (dmaU s n).desc.flag 9 = false ∧ (dmaU s n).desc.flag 10 = true ∧ (dmaU s
      n).desc.dsp = 1 ∧ cleanLen s (dmaU s n).desc = none ∧ (a < (dmaU s n).desc.dst ∨ (dmaU s n).desc.dst + (dmaU
      s n).desc.len ≤ a)) ∧
    (∃ (s : State) (n : Fin 64) (b : List (BitVec 8)), s.dead = false ∧ (dmaU s n).step = .move ∧ (dmaU s
      n).hazard = [] ∧ (dmaU s n).desc.flag 8 = false ∧ (dmaU s n).desc.flag 9 = false ∧ (dmaU s n).desc.flag 10 =
      true ∧ (dmaU s n).desc.ssp = 0 ∧ (dmaU s n).desc.dsp = 1 ∧ b.length = (dmaU s n).desc.len) ∧
    (∃ (s : State) (n : Fin 64) (a : Nat), s.dead = false ∧ (dmaU s n).step = .move ∧ (dmaU s n).hazard = [] ∧
      (dmaU s n).desc.flag 8 = false ∧ (dmaU s n).desc.flag 9 = false ∧ (dmaU s n).desc.flag 10 = true ∧ (dmaU s
      n).desc.ssp = 3 ∧ (dmaU s n).desc.dsp = 1 ∧ (dmaU s n).desc.dst ≤ a ∧ a < (dmaU s n).desc.dst + (dmaU s
      n).desc.len) ∧
    (∃ (s : State) (n : Fin 64), s.dead = false ∧ (dmaU s n).step = .move ∧ (dmaU s n).hazard = [] ∧ (dmaU s
      n).desc.flag 8 = false ∧ (dmaU s n).desc.flag 9 = false ∧ (dmaU s n).desc.flag 10 = true ∧ (dmaU s
      n).desc.ssp = 1 ∧ (dmaU s n).desc.dsp = 0 ∧ (dmaU s n).desc.len ≠ 0 ∧ cleanLen s (dmaU s n).desc = none) ∧
    (∃ (s : State) (n : Fin 64), s.dead = false ∧ (dmaU s n).step = .move ∧ (dmaU s n).hazard = [] ∧ (dmaU s
      n).desc.flag 8 = false ∧ (dmaU s n).desc.flag 9 = false ∧ (dmaU s n).desc.flag 10 = false ∧ cleanLen s (dmaU
      s n).desc = none) ∧
    (∃ (s : State) (n : Fin 64), s.dead = false ∧ (dmaU s n).step = .move ∧ (dmaU s n).hazard = [] ∧ (dmaU s
      n).desc.flag 9 = true ∧ cleanLen s (dmaU s n).desc = none) ∧
    (∃ (s : State) (n : Fin 64), s.dead = false ∧ (dmaU s n).step = .move ∧ (dmaU s n).hazard = [] ∧ (dmaU s
      n).desc.flag 8 = true ∧ s.g (DMA_COUNT_COUNT n) = 1 ∧ bitsOf (s.reg (MSIX_TABLE (s.g (DMA_CTRL_VECTOR n))
      3)).toNat 0 1 = 0 ∧ cleanLen s (dmaU s n).desc = none) :=
  ⟨⟨{ rig [(DMA_CTRL_ENABLE 63, 1)] with mem := [(100, 1), (101, 2), (102, 3), (104, 9)], dma := { chan := [(63, { step := .move, desc := { src := 100, dst := 101, len := 3, ctrl := 1029 }, snap := [1, 2, 3] })] } },
      63, by decide +kernel⟩,
    ⟨{ rig [(DMA_CTRL_ENABLE 63, 1)] with mem := [(100, 1), (101, 2), (102, 3), (104, 9)], dma := { chan := [(63, { step := .move, desc := { src := 100, dst := 101, len := 3, ctrl := 1029 }, snap := [1, 2, 3] })] } },
      63, 104, by decide +kernel⟩,
    ⟨{ rig [(DMA_CTRL_ENABLE 63, 1)] with mem := [(100, 1), (101, 2), (102, 3), (104, 9)], dma := { chan := [(63, { step := .move, desc := { src := 100, dst := 101, len := 3, ctrl := 1028 }, snap := [1, 2, 3] })] } },
      63, [7, 8, 9], by decide +kernel⟩,
    ⟨{ rig [(DMA_CTRL_ENABLE 63, 1)] with mem := [(100, 1), (101, 2), (102, 3), (104, 9)], dma := { chan := [(63, { step := .move, desc := { src := 100, dst := 101, len := 3, ctrl := 1031 }, snap := [1, 2, 3] })] } },
      63, 102, by decide +kernel⟩,
    ⟨{ rig [(DMA_CTRL_ENABLE 63, 1)] with mem := [(100, 1), (101, 2), (102, 3), (104, 9)], dma := { chan := [(63, { step := .move, desc := { src := 100, dst := 101, len := 3, ctrl := 1025 }, snap := [1, 2, 3] })] } },
      63, by decide +kernel⟩,
    ⟨{ rig [(DMA_CTRL_ENABLE 63, 1)] with mem := [(100, 1), (101, 2), (102, 3), (104, 9)], dma := { chan := [(63, { step := .move, desc := { src := 100, dst := 101, len := 3, ctrl := 5 }, snap := [1, 2, 3] })] } },
      63, by decide +kernel⟩,
    ⟨{ rig [(DMA_CTRL_ENABLE 63, 1)] with mem := [(100, 1), (101, 2), (102, 3), (104, 9)], dma := { chan := [(63, { step := .move, desc := { src := 100, dst := 101, len := 3, ctrl := 1541 }, snap := [1, 2, 3] })] } },
      63, by decide +kernel⟩,
    ⟨{ ((rig [(DMA_CTRL_ENABLE 63, 1), (DMA_COUNT_COUNT 63, 1), (DMA_COUNT_RELOAD 63, 9), (DMA_CTRL_VECTOR 63, 3)]).setReg (MSIX_TABLE 3 3) 0) with dma := { chan := [(63, { step := .move, desc := { src := 100, dst := 101, len := 0, ctrl := 1285 } })] } },
      63, by decide +kernel⟩⟩

theorem witness_DramTraining :
    (∃ (s : State) (n : Fin 2) (w : Nat), s.dead = false ∧ trainWord s n 0 = some w) ∧
    (∃ (s : State) (n : Fin 2) (w : Nat), s.dead = false ∧ trainWord s n 1 = some w) ∧
    (∃ (s : State) (n : Fin 2) (w : Nat) (eye : BitVec 8), s.dead = false ∧ trainWord s n 2 = some w ∧ bitsOf w 8
      8 ≤ eye.toNat) ∧
    (∃ (s : State) (n : Fin 2) (w : Nat) (eye : BitVec 8), s.dead = false ∧ trainWord s n 2 = some w ∧ eye.toNat <
      bitsOf w 8 8 ∧ (ddrU s n).runs = 0) ∧
    (∃ (s : State) (n : Fin 2) (w : Nat), s.dead = false ∧ trainWord s n 3 = some w) ∧
    (∃ (s : State) (n : Fin 2) (w : Nat), s.dead = false ∧ trainWord s n 4 = some w) ∧
    (∃ (s : State) (n : Fin 2), s.dead = false ∧ (channels s).contains n.val = true ∧ (ddrU s n).mode = 2) ∧
    (∃ (s : State) (n : Fin 2), s.dead = false ∧ (channels s).contains n.val = true ∧ (ddrU s n).mode = 2) ∧
    (∃ (s : State) (v : Word), Reaches s DRAM_TCTRL ∧ fieldOf DRAM_TCTRL_SAVE v = 1 ∧ fieldOf DRAM_TCTRL_FORGET v
      = 0 ∧ s.g DRAM_TSTAT_STATE = 3 ∧ s.g DRAM_TSTAT_SOURCE = 1 ∧ nvmWindow s = true) ∧
    (∃ (s : State) (v : Word), Reaches s DRAM_TCTRL ∧ fieldOf DRAM_TCTRL_SAVE v = 1 ∧ fieldOf DRAM_TCTRL_FORGET v
      = 0 ∧ s.g DRAM_TSTAT_STATE = 3 ∧ s.g DRAM_TSTAT_SOURCE = 1 ∧ nvmWindow s = false) ∧
    (∃ (s : State) (v : Word), Reaches s DRAM_TCTRL ∧ fieldOf DRAM_TCTRL_FORGET v = 1 ∧ fieldOf DRAM_TCTRL_SAVE v
      = 0 ∧ nvmWindow s = true) :=
  ⟨⟨{ rig [(DRAM_CFG_CHANNELS, 1)] with dram := { prog := [9, 0x00000000], ddr := [(0, { mode := 1, pc := 1, results := [(3, 4)] })] } },
      0, 0, by decide +kernel⟩,
    ⟨{ rig [(DRAM_CFG_CHANNELS, 1)] with dram := { prog := [9, 0x13FFFF00], ddr := [(0, { mode := 1, pc := 1, results := [(3, 4)] })] } },
      0, 0x13FFFF00, by decide +kernel⟩,
    ⟨{ rig [(DRAM_CFG_CHANNELS, 1)] with dram := { prog := [9, 0x25000A00], ddr := [(0, { mode := 1, pc := 1, results := [(3, 4)] })] } },
      0, 0x25000A00, 10#8, by decide +kernel⟩,
    ⟨{ rig [(DRAM_CFG_CHANNELS, 1)] with dram := { prog := [9, 0x25000A00], ddr := [(0, { mode := 1, pc := 1, results := [(3, 4)] })] } },
      0, 0x25000A00, 9#8, by decide +kernel⟩,
    ⟨{ rig [(DRAM_CFG_CHANNELS, 1)] with dram := { prog := [9, 0x30000001], ddr := [(0, { mode := 1, pc := 1, results := [(3, 4)] })] } },
      0, 0x30000001, by decide +kernel⟩,
    ⟨{ rig [(DRAM_CFG_CHANNELS, 1)] with dram := { prog := [9, 0x43000000], ddr := [(0, { mode := 1, pc := 1, results := [(3, 4)] })] } },
      0, 0x43000000, by decide +kernel⟩,
    ⟨{ rig [(DRAM_CFG_CHANNELS, 3)] with dram := { ddr := [(1, { mode := 2 })] } }, 1, by decide +kernel⟩,
    ⟨{ rig [(DRAM_CFG_CHANNELS, 3)] with dram := { ddr := [(1, { mode := 2 })] } }, 1, by decide +kernel⟩,
    ⟨{ rig [(DRAM_TSTAT_STATE, 3), (DRAM_TSTAT_SOURCE, 1)] with dram := { ids := 3, ddr := [(0, { results := [(1, 2)] })] } },
      2#32, by decide +kernel⟩,
    ⟨rig [(DRAM_TSTAT_STATE, 3), (DRAM_TSTAT_SOURCE, 1), (THM_TJ_TJ, 1681)], 2#32, by decide +kernel⟩,
    ⟨{ rig [(DRAM_TSTAT_SAVED_VALID, 1)] with dram := { saved := some (1, 2, []) } }, 4#32, by decide +kernel⟩⟩

theorem witness_DramReadAfterWrite :
    (∃ (s : State) (a : BitVec 37) (d : List (BitVec 8)), s.dead = false ∧ served s a.toNat d.length = true) ∧
    (∃ (s : State) (a : BitVec 37) (d : List (BitVec 8)) (x : Nat), s.dead = false ∧ served s a.toNat d.length =
      true ∧ (x < a.toNat ∨ a.toNat + d.length ≤ x)) ∧
    (∃ (s : State) (a : BitVec 37) (len : Fin 65), s.dead = false ∧ served s a.toNat len = true ∧ 0 < len.val ∧
      reaches s a.toNat len = true ∧ firstUe s a.toNat len = none ∧ isCe s a.toNat = false ∧ isCe s (a.toNat + len
      - 1) = false ∧ s.g DRAM_SR_STATE ≠ 1 ∧ s.g DRAM_SR_STATE ≠ 2) ∧
    (∃ (s : State) (a : BitVec 37) (len : Fin 65) (x : Nat), s.dead = false ∧ served s a.toNat len = true ∧ 0 <
      len.val ∧ touched s a.toNat = true ∧ firstUe s a.toNat len = none ∧ isCe s (a.toNat + len - 1) = false ∧ x =
      (place s a.toNat).chan ∧ x < 2 ∧ s.g DRAM_SR_STATE ≠ 1 ∧ s.g DRAM_SR_STATE ≠ 2) ∧
    (∃ (s : State) (a : BitVec 37) (len : Fin 65) (x : Nat), s.dead = false ∧ served s a.toNat len = true ∧ 0 <
      len.val ∧ touched s a.toNat = true ∧ a.toNat / 64 = (a.toNat + len - 1) / 64 ∧ x = (place s a.toNat).chan ∧
      x < 2 ∧ s.g DRAM_SR_STATE ≠ 1 ∧ s.g DRAM_SR_STATE ≠ 2) ∧
    (∃ (s : State) (a : BitVec 37) (len : Fin 65), s.dead = false ∧ served s a.toNat len = true ∧ reaches s
      a.toNat len = false) :=
  ⟨⟨(rig [(DRAM_TSTAT_STATE, 3), (DRAM_CFG_INSTALLED, 1), (DRAM_CFG_CHANNELS, 1)]), 0x3FFFFFFE#37, [1, 2],
      by decide +kernel⟩,
    ⟨{ (rig [(DRAM_TSTAT_STATE, 3), (DRAM_CFG_INSTALLED, 1), (DRAM_CFG_CHANNELS, 1)]) with mem := [(2, 5)] },
      0#37, [1, 2], 2, by decide +kernel⟩,
    ⟨{ (rig [(DRAM_TSTAT_STATE, 3), (DRAM_CFG_INSTALLED, 1), (DRAM_CFG_CHANNELS, 1)]) with mem := [(63, 5)], dram := { touch := [0] } },
      63#37, 4, by decide +kernel⟩,
    ⟨{ (rig [(DRAM_TSTAT_STATE, 3), (DRAM_CFG_INSTALLED, 1), (DRAM_CFG_CHANNELS, 1)]) with mem := [(63, 5)], dram := { touch := [0] } },
      63#37, 4, 0, by decide +kernel⟩,
    ⟨{ (rig [(DRAM_TSTAT_STATE, 3), (DRAM_CFG_INSTALLED, 1), (DRAM_CFG_CHANNELS, 1)]) with mem := [(63, 5)], dram := { touch := [0] } },
      60#37, 4, 0, by decide +kernel⟩,
    ⟨(rig [(DRAM_TSTAT_STATE, 3), (DRAM_CFG_INSTALLED, 1), (DRAM_CFG_CHANNELS, 1)]), 0x3FFFFFC0#37, 64,
      by decide +kernel⟩⟩

theorem witness_DramUpkeepAndSleep :
    (∃ (s : State) (n : Fin 2), s.dead = false ∧ ddrActive s n = true ∧ (ddrU s n).pend = []) ∧
    (∃ (s : State) (n : Fin 2), s.dead = false ∧ ddrActive s n = true) ∧
    (∃ (s : State) (n : Fin 2), s.dead = false ∧ ddrActive s n = true) ∧
    (∃ (s : State) (n : Fin 2) (bank : Fin 128) (row : Nat), s.dead = false ∧ ddrActive s n = true ∧ (ddrU s
      n).pend.find? (fun e => e.1 == bank.val) = some (bank.val, row)) ∧
    (∃ (s : State) (n : Fin 2) (b : Nat), s.dead = false ∧ ddrActive s n = true ∧ scrubOn s n = true ∧ nextBurst s
      n (ddrU s n).scrub = some b ∧ isUe s (64 * b) = false) ∧
    (∃ (s : State) (v : Word), Reaches s DRAM_SR ∧ fieldOf DRAM_SR_REQ v = 1 ∧ fieldOf DRAM_SR_EXIT v = 0 ∧ s.g
      DRAM_SR_STATE = 0 ∧ (s.engine = Eng.standby ∨ s.engine = Eng.furled ∨ s.engine = Eng.fault)) ∧
    (∃ (s : State) (v : Word), Reaches s DRAM_SR ∧ fieldOf DRAM_SR_REQ v = 1 ∧ fieldOf DRAM_SR_EXIT v = 0 ∧
      s.engine ≠ Eng.standby ∧ s.engine ≠ Eng.furled ∧ s.engine ≠ Eng.fault) ∧
    (∃ (s : State) (v : Word), Reaches s DRAM_SR ∧ fieldOf DRAM_SR_REQ v = 0 ∧ fieldOf DRAM_SR_EXIT v = 1 ∧ s.g
      DRAM_SR_STATE = 2) ∧
    (∃ (s : State), s.dead = false ∧ s.g DRAM_SR_STATE = 1) ∧
    (∃ (s : State), s.dead = false ∧ s.g DRAM_SR_STATE = 3) :=
  ⟨⟨{ rig [(DRAM_CFG_CHANNELS, 2), (DRAM_CFG_INSTALLED, 1), (DDR_SCRUB_HOURS 1, 24)] with dram := { touch := [0], ddr := [(1, { mode := 3 })] } },
      1, by decide +kernel⟩,
    ⟨{ rig [(DRAM_CFG_CHANNELS, 2), (DRAM_CFG_INSTALLED, 1), (DDR_SCRUB_HOURS 1, 24)] with dram := { touch := [0], ddr := [(1, { mode := 3, scrub := 3, pend := [(127, 0)] })] } },
      1, by decide +kernel⟩,
    ⟨{ rig [(DRAM_CFG_CHANNELS, 2), (DRAM_CFG_INSTALLED, 1), (DDR_SCRUB_HOURS 1, 24)] with dram := { touch := [0], ddr := [(1, { mode := 3, scrub := 3, pend := [(127, 0)] })] } },
      1, by decide +kernel⟩,
    ⟨{ rig [(DRAM_CFG_CHANNELS, 2), (DRAM_CFG_INSTALLED, 1), (DDR_SCRUB_HOURS 1, 24)] with dram := { touch := [0], ddr := [(1, { mode := 3, scrub := 3, pend := [(127, 0)] })] } },
      1, 127, 0, by decide +kernel⟩,
    ⟨{ rig [(DRAM_CFG_CHANNELS, 2), (DRAM_CFG_INSTALLED, 1), (DDR_SCRUB_HOURS 1, 24)] with dram := { touch := [0], ddr := [(1, { mode := 3, scrub := 3, pend := [(127, 0)] })] } },
      1, 3, by decide +kernel⟩,
    ⟨rig [(REP_STAT_ENGINE, Eng.furled)], 4#32, by decide +kernel⟩,
    ⟨rig [(REP_STAT_ENGINE, Eng.ready)], 4#32, by decide +kernel⟩,
    ⟨rig [(DRAM_SR_STATE, 2)], 8#32, by decide +kernel⟩,
    ⟨rig [(DRAM_SR_STATE, 1), (DRAM_SR_COUNT, 65535), (DRAM_CFG_CHANNELS, 1)], by decide +kernel⟩,
    ⟨rig [(DRAM_SR_STATE, 3), (DRAM_CFG_CHANNELS, 1)], by decide +kernel⟩⟩

theorem witness_EthernetFrames :
    (∃ (s : State) (p : Fin 2), s.dead = false ∧ portUp s p = true) ∧
    (∃ (s : State) (p : Fin 2) (b : List (BitVec 8)), s.dead = false ∧ portUp s p = true ∧ (b.length < 14 ∨ 1518 <
      b.length ∨ beAt b 12 2 = 0x8808 ∨ accepts s p b = false)) ∧
    (∃ (s : State) (p : Fin 2) (b : List (BitVec 8)), s.dead = false ∧ portUp s p = true ∧ 14 ≤ b.length ∧
      b.length ≤ 1518 ∧ beAt b 12 2 ≠ 0x8808 ∧ accepts s p b = true ∧ classify s p b = .arp) ∧
    (∃ (s : State) (p : Fin 2) (b : List (BitVec 8)), s.dead = false ∧ portUp s p = true ∧ 14 ≤ b.length ∧
      b.length ≤ 1518 ∧ beAt b 12 2 ≠ 0x8808 ∧ accepts s p b = true ∧ classify s p b = .solicit) ∧
    (∃ (s : State) (p : Fin 2) (b : List (BitVec 8)), s.dead = false ∧ portUp s p = true ∧ 14 ≤ b.length ∧
      b.length ≤ 1518 ∧ beAt b 12 2 ≠ 0x8808 ∧ accepts s p b = true ∧ classify s p b = .other) ∧
    (∃ (s : State) (p : Fin 2) (b : List (BitVec 8)) (a : Nat), s.dead = false ∧ portUp s p = true ∧ 14 ≤ b.length
      ∧ b.length ≤ 1518 ∧ beAt b 12 2 ≠ 0x8808 ∧ accepts s p b = true ∧ classify s p b = .ptp a ∧ ptpEvent b a =
      true ∧ (ethU s p).rx.length < 16) ∧
    (∃ (s : State) (p : Fin 2) (b : List (BitVec 8)) (a : Nat), s.dead = false ∧ portUp s p = true ∧ 14 ≤ b.length
      ∧ b.length ≤ 1518 ∧ beAt b 12 2 ≠ 0x8808 ∧ accepts s p b = true ∧ classify s p b = .ptp a ∧ 16 ≤ (ethU s
      p).rx.length) ∧
    (∃ (s : State) (p : Fin 2) (v : Word), Reaches s (ETH_PRX p) ∧ fieldOf (ETH_PRX_POP p) v = 1 ∧ fieldOf
      (ETH_PRX_TS_POP p) v = 0) ∧
    (∃ (s : State) (p : Fin 2) (v : Word), Reaches s (ETH_PRX p) ∧ fieldOf (ETH_PRX_POP p) v = 0 ∧ fieldOf
      (ETH_PRX_TS_POP p) v = 1) ∧
    (∃ (s : State) (p : Fin 2) (v : Word), Reaches s (ETH_PTX p) ∧ fieldOf (ETH_PTX_SEND p) v = 1 ∧ s.on
      (ETH_STAT_TX_BUSY p) = false ∧ 14 ≤ fieldOf (ETH_PTX_LEN p) v ∧ fieldOf (ETH_PTX_LEN p) v ≤ 1518 ∧ portUp s
      p = true) ∧
    (∃ (s : State) (p : Fin 2) (v : Word), Reaches s (ETH_PTX p) ∧ fieldOf (ETH_PTX_SEND p) v = 1 ∧ (fieldOf
      (ETH_PTX_LEN p) v < 14 ∨ 1518 < fieldOf (ETH_PTX_LEN p) v ∨ s.on (ETH_STAT_TX_BUSY p) = true)) ∧
    (∃ (s : State) (p : Fin 2) (b : List (BitVec 8)), s.dead = false ∧ (ethU s p).tx = some b ∧ portUp s p = true
      ∧ ptpAt b = none) ∧
    (∃ (s : State) (p : Fin 2) (b : List (BitVec 8)) (a : Nat), s.dead = false ∧ (ethU s p).tx = some b ∧ portUp s
      p = true ∧ ptpAt b = some a ∧ ptpEvent b a = true ∧ (ethU s p).ts.length < 4) ∧
    (∃ (s : State) (p : Fin 2), s.dead = false ∧ p.val < s.part.eth ∧ s.on (ETH_CFG_MODE p) = true) ∧
    (∃ (s : State) (p : Fin 2), s.dead = false ∧ p.val < s.part.eth ∧ s.on (ETH_CFG_MODE p) = true) :=
  ⟨⟨rig [(ETH_CFG_MODE 1, 1), (ETH_STAT_LINK 1, 1), (ETH_CFG_MODE 0, 1), (ETH_STAT_LINK 0, 1)], 1,
      by decide +kernel⟩,
    ⟨rig [(ETH_CFG_MODE 1, 1), (ETH_STAT_LINK 1, 1), (ETH_CFG_MODE 0, 1), (ETH_STAT_LINK 0, 1)], 1, [1],
      by decide +kernel⟩,
    ⟨rig [(ETH_CFG_MODE 1, 1), (ETH_STAT_LINK 1, 1), (ETH_CFG_MODE 0, 1), (ETH_STAT_LINK 0, 1)], 1,
      [255,255,255,255,255,255, 2,2,2,2,2,2, 8,6, 0,1,8,0,6,4,0,1, 2,2,2,2,2,2, 10,0,0,1, 0,0,0,0,0,0, 0,0,0,0],
      by decide +kernel⟩,
    ⟨rig [(ETH_CFG_MODE 1, 1), (ETH_STAT_LINK 1, 1), (ETH_CFG_MODE 0, 1), (ETH_STAT_LINK 0, 1)], 1, [0,0,0,0,0,0,
      2,2,2,2,2,2, 0x86,0xDD, 0x60,0,0,0,0,24,58,255] ++ List.replicate 16 1 ++ List.replicate 16 2 ++
      [135,0,0x60,0x95] ++ List.replicate 20 0, by decide +kernel⟩,
    ⟨rig [(ETH_CFG_MODE 1, 1), (ETH_STAT_LINK 1, 1), (ETH_CFG_MODE 0, 1), (ETH_STAT_LINK 0, 1)], 0,
      [255,255,255,255,255,255, 2,2,2,2,2,2, 8,7], by decide +kernel⟩,
    ⟨rig [(ETH_CFG_MODE 1, 1), (ETH_STAT_LINK 1, 1), (ETH_CFG_MODE 0, 1), (ETH_STAT_LINK 0, 1)], 1,
      [0x01,0x1B,0x19,0,0,0, 2,2,2,2,2,2, 0x88,0xF7, 0, 2, 0, 44,
      0,0,0,0,0,0,0,0,0,0,0,0,0,0,0,0,0,0,0,0,0,0,0,0,0,0,0x12,0x34,0,0], 14, by decide +kernel⟩,
    ⟨{ rig [(ETH_CFG_MODE 1, 1), (ETH_STAT_LINK 1, 1), (ETH_CFG_MODE 0, 1), (ETH_STAT_LINK 0, 1)] with net := { eth := [(1, { rx := List.replicate 16 [] })] } },
      1, [0x01,0x1B,0x19,0,0,0, 2,2,2,2,2,2, 0x88,0xF7, 0, 2, 0, 44,
      0,0,0,0,0,0,0,0,0,0,0,0,0,0,0,0,0,0,0,0,0,0,0,0,0,0,0x12,0x34,0,0], 14, by decide +kernel⟩,
    ⟨{ rig [] with net := { eth := [(1, { rx := [[1], [2]] })] } }, 1, 0x80000000#32, by decide +kernel⟩,
    ⟨{ rig [] with net := { eth := [(1, { ts := [⟨1, 2, 3, 4⟩] })] } }, 1, 0x40000000#32, by decide +kernel⟩,
    ⟨rig [(ETH_CFG_MODE 1, 1), (ETH_STAT_LINK 1, 1), (ETH_CFG_MODE 0, 1), (ETH_STAT_LINK 0, 1)], 1, 0x800005EE#32,
      by decide +kernel⟩,
    ⟨rig [(ETH_CFG_MODE 1, 1), (ETH_STAT_LINK 1, 1), (ETH_CFG_MODE 0, 1), (ETH_STAT_LINK 0, 1)], 0, 0x8000000D#32,
      by decide +kernel⟩,
    ⟨{ rig [(ETH_CFG_MODE 1, 1), (ETH_STAT_LINK 1, 1), (ETH_CFG_MODE 0, 1), (ETH_STAT_LINK 0, 1)] with net := { eth := [(1, { tx := some [1,1,1,1,1,1,2,2,2,2,2,2,8,0] })] } },
      1, [1,1,1,1,1,1,2,2,2,2,2,2,8,0], by decide +kernel⟩,
    ⟨{ rig [(ETH_CFG_MODE 1, 1), (ETH_STAT_LINK 1, 1), (ETH_CFG_MODE 0, 1), (ETH_STAT_LINK 0, 1)] with net := { eth := [(1, { tx := some [0x01,0x1B,0x19,0,0,0, 2,2,2,2,2,2, 0x88,0xF7, 0, 2, 0, 44, 0,0,0,0,0,0,0,0,0,0,0,0,0,0,0,0,0,0,0,0,0,0,0,0,0,0,0x12,0x34,0,0] })] } },
      1, [0x01,0x1B,0x19,0,0,0, 2,2,2,2,2,2, 0x88,0xF7, 0, 2, 0, 44,
      0,0,0,0,0,0,0,0,0,0,0,0,0,0,0,0,0,0,0,0,0,0,0,0,0,0,0x12,0x34,0,0], 14, by decide +kernel⟩,
    ⟨rig [(ETH_CFG_MODE 1, 1)], 1, by decide +kernel⟩,
    ⟨rig [(ETH_CFG_MODE 1, 1), (ETH_STAT_LINK 1, 1), (ETH_CFG_MODE 0, 1), (ETH_STAT_LINK 0, 1)], 0,
      by decide +kernel⟩⟩

theorem witness_ThermalLevelsAndTrips :
    (∃ (s : State) (i : Fin 48) (raw : BitVec 16), s.dead = false ∧ s.on (CLK_ISL_STOPPED 2) = false ∧
      sensorPresent s.part i = true ∧ s.on (THM_TS_BROKEN i) = false ∧ -880 ≤ sext 16 raw.toNat ∧ sext 16
      raw.toNat ≤ 2400 ∧ ((∀ k : Fin 3, reefLevel s < k.val + 1 → (hottest (s.pz (THM_TS_TEMP i) (sext 16
      raw.toNat))).1 < reefThr s (k + 1)))) ∧
    (∃ (s : State) (i : Fin 48) (raw : BitVec 16) (l : Fin 4), s.dead = false ∧ s.on (CLK_ISL_STOPPED 2) = false ∧
      sensorPresent s.part i = true ∧ s.on (THM_TS_BROKEN i) = false ∧ -880 ≤ sext 16 raw.toNat ∧ sext 16
      raw.toNat ≤ 2400 ∧ reefLevel s < l.val ∧ reefThr s l ≤ (hottest (s.pz (THM_TS_TEMP i) (sext 16
      raw.toNat))).1 ∧ ((∀ k : Fin 3, l.val < k.val + 1 → (hottest (s.pz (THM_TS_TEMP i) (sext 16 raw.toNat))).1 <
      reefThr s (k + 1)))) ∧
    (∃ (s : State) (i : Fin 48), s.dead = false ∧ s.on (CLK_ISL_STOPPED 2) = false ∧ sensorPresent s.part i =
      true) ∧
    (∃ (s : State) (l : Fin 4), s.dead = false ∧ s.on (CLK_ISL_STOPPED 2) = false ∧ 1 ≤ l.val ∧ reefLevel s =
      l.val ∧ s.gi THM_TJ_TJ < reefThr s l - 16 * s.g THM_THR_HYST) ∧
    (∃ (s : State) (i : Fin 48), s.inReset = false ∧ s.rig.resetWait = false ∧ sensorPresent s.part i = true ∧
      s.on THM_TJ_TRIP = false ∧ s.pwr.save.any (fun v => v.cause == 1 && v.begun == s.clock) = false) ∧
    (∃ (s : State) (i : Fin 48), s.inReset = false ∧ s.rig.resetWait = false ∧ sensorPresent s.part i = true ∧
      s.on THM_TJ_TRIP = false ∧ s.pwr.save.any (fun v => v.cause == 1 && v.begun == s.clock) = true) ∧
    (∃ (s : State) (i : Fin 48) (r : Nat), s.inReset = true ∧ s.pwr.supDown = false ∧ s.pwr.lost = false ∧
      s.rig.resetWait = false ∧ sensorPresent s.part i = true ∧ pwState s = Pw.on ∧ s.pwr.ledger.getLast? = some r
      ∧ s.on (PWR_SLOT_STAT_GOOD r) = true ∧ s.g (PWR_SLOT_CFG_TOFF r) ≠ 0 ∧ s.mapped 0x50 r 1 = true) ∧
    (∃ (s : State) (i : Fin 48), s.inReset = false ∧ s.rig.resetWait = false ∧ sensorPresent s.part i = true ∧
      s.on THM_TJ_TRIP = true) ∧
    (∃ (s : State), s.inReset = false ∧ s.on (CLK_ISL_STOPPED 2) = false ∧ s.on THM_TJ_TRIP = true ∧ s.thm.diode =
      false) :=
  ⟨⟨rig [], 47, 400#16, by decide +kernel⟩,
    ⟨rig [], 47, 1600#16, 2, by decide +kernel⟩,
    ⟨rig [], 0, by decide +kernel⟩,
    ⟨poke [(THM_TJ_REEF, 1), (VIS_STAT_PAUSED, 1)] (rig []), 1, by decide +kernel⟩,
    ⟨rig [], 0, by decide +kernel⟩,
    ⟨{ rig [] with clock := 8, pwr := { save := some { begun := 8, cause := 1, power := 4, engine := 3, at_ := {}, vstay := 0, tj := 0, body := [] } } },
      0, by decide +kernel⟩,
    ⟨{ rig [(PWR_STAT_STATE, Pw.on), (PWR_SLOT_STAT_GOOD 3, 1), (PWR_SLOT_CFG_TOFF 3, 9)] with inReset := true, pwr := { ledger := [3] }, rig := { pins := [(0x50, 3, 1)] } },
      0, 3, by decide +kernel⟩,
    ⟨poke [(THM_TJ_TRIP, 1)] (rig []), 47, by decide +kernel⟩,
    ⟨poke [(THM_TJ_TRIP, 1)] (rig []), by decide +kernel⟩⟩

theorem witness_SequencerWords :
    (∃ (s : State) (w : Nat), s.pwr.lost = false ∧ s.rig.resetWait = false ∧ seqWord s 0 = some w) ∧
    (∃ (s : State) (w : Nat), s.pwr.lost = false ∧ s.rig.resetWait = false ∧ seqWord s 3 = some w) ∧
    (∃ (s : State) (w : Nat), s.pwr.lost = false ∧ s.rig.resetWait = false ∧ seqWord s 4 = some w ∧ s.on
      (PWR_SLOT_STAT_QUALIFIED (bitsOf w 20 5)) = true) ∧
    (∃ (s : State) (w : Nat), s.pwr.lost = false ∧ s.rig.resetWait = false ∧ seqWord s 4 = some w ∧ s.on
      (PWR_SLOT_STAT_QUALIFIED (bitsOf w 20 5)) = false) ∧
    (∃ (s : State) (w : Nat), s.pwr.lost = false ∧ s.rig.resetWait = false ∧ seqWord s 5 = some w) ∧
    (∃ (s : State) (w : Nat) (pws : Bool), s.pwr.lost = false ∧ s.rig.resetWait = false ∧ seqWord s 6 = some w ∧
      seqCond s (bitsOf w 24 3) (bitsOf w 16 8) pws = true ∧ bitsOf w 27 1 = 0) ∧
    (∃ (s : State) (w : Nat) (q : Nat) (pws : Bool), s.pwr.lost = false ∧ s.rig.resetWait = false ∧ seqWord s 6 =
      some w ∧ seqCond s (bitsOf w 24 3) (bitsOf w 16 8) pws = true ∧ bitsOf w 27 1 = 1 ∧ s.pwr.ledger.getLast? =
      some q ∧ q < 32 ∧ s.mapped 0x50 q 1 = true ∧ s.on (PWR_SLOT_STAT_GOOD q) = true ∧ s.g (PWR_SLOT_CFG_TOFF q)
      ≠ 0) ∧
    (∃ (s : State) (w : Nat) (pws : Bool), s.pwr.lost = false ∧ s.rig.resetWait = false ∧ seqWord s 6 = some w ∧
      seqCond s (bitsOf w 24 3) (bitsOf w 16 8) pws = false) ∧
    (∃ (s : State) (w : Nat), s.pwr.lost = false ∧ s.rig.resetWait = false ∧ seqWord s 7 = some w) ∧
    (∃ (s : State) (w : Nat), s.pwr.lost = false ∧ s.rig.resetWait = false ∧ seqWord s 8 = some w) ∧
    (∃ (s : State) (w : Nat), s.pwr.lost = false ∧ s.rig.resetWait = false ∧ seqWord s 9 = some w) :=
  ⟨⟨{ rig [(PWR_STAT_STATE, Pw.upSeq), (PWR_PROG_WORD 3, 0)] with pwr := { pc := 3 } }, 0, by decide +kernel⟩,
    ⟨{ rig [(PWR_STAT_STATE, Pw.upSeq), (PWR_PROG_WORD 3, 0x30000005)] with pwr := { pc := 3 } }, 0x30000005,
      by decide +kernel⟩,
    ⟨poke [(PWR_SLOT_STAT_QUALIFIED 31, 1)]
      ({ rig [(PWR_STAT_STATE, Pw.upSeq), (PWR_PROG_WORD 3, 0x41F00000)] with pwr := { pc := 3 } }), 0x41F00000,
      by decide +kernel⟩,
    ⟨{ rig [(PWR_STAT_STATE, Pw.upSeq), (PWR_PROG_WORD 3, 0x41F00000)] with pwr := { pc := 3 } }, 0x41F00000,
      by decide +kernel⟩,
    ⟨{ rig [(PWR_STAT_STATE, Pw.upSeq), (PWR_PROG_WORD 3, 0x50FFF010)] with pwr := { pc := 3 } }, 0x50FFF010,
      by decide +kernel⟩,
    ⟨{ poke [(SPAR_STAT_CONFIGURED, 1)] ({ rig [(PWR_STAT_STATE, Pw.upSeq), (PWR_PROG_WORD 3, 0x640000FF)] with pwr := { pc := 3 } }) with rig := { routes := [{ line := 5, src := 0x1900, ev := 3, sink := 0x5800, inp := 0, mode := 0 }] } },
      0x640000FF, true, by decide +kernel⟩,
    ⟨{ poke [(PWR_SLOT_STAT_GOOD 31, 1), (PWR_SLOT_CFG_TOFF 31, 1)] ({ rig [(PWR_STAT_STATE, Pw.upSeq), (PWR_STAT_ATTEMPT, 3), (PWR_PROG_WORD 3, 0x6D0000FF)] with pwr := { pc := 3, ledger := [7, 31] } }) with rig := { pins := [(0x50, 31, 1)] } },
      0x6D0000FF, 31, false, by decide +kernel⟩,
    ⟨{ rig [(PWR_STAT_STATE, Pw.upSeq), (PWR_PROG_WORD 3, 0x640000FF)] with pwr := { pc := 3 } }, 0x640000FF,
      false, by decide +kernel⟩,
    ⟨{ rig [(PWR_STAT_STATE, Pw.upSeq), (PWR_PROG_WORD 3, 0x70000000)] with pwr := { pc := 3 } }, 0x70000000,
      by decide +kernel⟩,
    ⟨{ rig [(PWR_STAT_STATE, Pw.upSeq), (PWR_PROG_WORD 3, 0x870FFFFF)] with pwr := { pc := 3 } }, 0x870FFFFF,
      by decide +kernel⟩,
    ⟨{ rig [(PWR_STAT_STATE, Pw.upSeq), (PWR_PROG_WORD 3, 0x900000FF)] with pwr := { pc := 3 } }, 0x900000FF,
      by decide +kernel⟩⟩

theorem witness_SequencerLedger :
    (∃ (s : State) (w : Nat), s.pwr.lost = false ∧ s.rig.resetWait = false ∧ seqWord s 1 = some w ∧
      s.pwr.ledger.contains (w % 32) = false) ∧
    (∃ (s : State) (w : Nat), s.pwr.lost = false ∧ s.rig.resetWait = false ∧ seqWord s 1 = some w ∧
      s.pwr.ledger.contains (w % 32) = true) ∧
    (∃ (s : State) (w : Nat), s.pwr.lost = false ∧ s.rig.resetWait = false ∧ seqWord s 2 = some w ∧ s.mapped 0x50
      (w % 32) 1 = true ∧ s.on (PWR_SLOT_STAT_GOOD (w % 32)) = false) ∧
    (∃ (s : State) (w : Nat), s.pwr.lost = false ∧ s.rig.resetWait = false ∧ seqWord s 2 = some w ∧ s.mapped 0x50
      (w % 32) 1 = true ∧ s.on (PWR_SLOT_STAT_GOOD (w % 32)) = true ∧ s.g (PWR_SLOT_CFG_TOFF (w % 32)) ≠ 0) ∧
    (∃ (s : State) (q : Nat) (r : Fin 32), s.pwr.lost = false ∧ s.rig.resetWait = false ∧ s.pwr.wait = .good r ∧
      s.pwr.ledger.getLast? = some q ∧ q < 32 ∧ s.mapped 0x50 q 1 = true ∧ s.on (PWR_SLOT_STAT_GOOD q) = true ∧
      s.g (PWR_SLOT_CFG_TOFF q) ≠ 0) ∧
    (∃ (s : State) (q : Nat) (r : Fin 32), s.pwr.lost = false ∧ s.rig.resetWait = false ∧ (s.pwr.wait = .none ∨
      s.pwr.wait = .drop q) ∧ s.pwr.offWait = some (s.clock, r.val)) ∧
    (∃ (s : State) (w : Nat) (q : Nat) (o : Option Nat), s.pwr.lost = false ∧ s.rig.resetWait = false ∧ s.pwr.wait
      = .drop q ∧ s.pwr.ledger = [q] ∧ pwState s = Pw.downSeq ∧ s.pwr.down = some (.fail w o) ∧ s.g
      PWR_STAT_ATTEMPT < s.pwr.n) ∧
    (∃ (s : State) (w : Nat) (q : Nat) (o : Option Nat), s.pwr.lost = false ∧ s.rig.resetWait = false ∧ s.pwr.wait
      = .drop q ∧ s.pwr.ledger = [q] ∧ pwState s = Pw.downSeq ∧ s.pwr.down = some (.fail w o) ∧ s.pwr.n ≤ s.g
      PWR_STAT_ATTEMPT ∧ s.pwr.failAt ≠ some s.clock) ∧
    (∃ (s : State) (q : Nat), s.pwr.lost = false ∧ s.rig.resetWait = false ∧ s.pwr.wait = .drop q ∧ s.pwr.ledger =
      [q] ∧ pwState s = Pw.downSeq ∧ s.pwr.down = some .off) ∧
    (∃ (s : State), s.pwr.lost = false ∧ s.rig.resetWait = false ∧ s.on PWR_STAT_ON_HELD = true ∧ pwState s =
      Pw.off ∧ toffPassed s = true) ∧
    (∃ (s : State), s.pwr.lost = false ∧ s.rig.resetWait = false ∧ s.pwr.wait = .time) ∧
    (∃ (s : State) (r : Fin 32), s.pwr.lost = false ∧ s.rig.resetWait = false ∧ s.on PWR_STAT_RETRY_WAIT = true ∧
      s.pwr.lastSlot = some r.val) :=
  ⟨⟨{ rig [(PWR_STAT_STATE, Pw.upSeq), (PWR_PROG_WORD 3, 0x1000001F)] with pwr := { pc := 3, ledger := [4, 0] } },
      0x1000001F, by decide +kernel⟩,
    ⟨{ rig [(PWR_STAT_STATE, Pw.upSeq), (PWR_PROG_WORD 3, 0x10000000)] with pwr := { pc := 3, ledger := [4, 0] } },
      0x10000000, by decide +kernel⟩,
    ⟨{ { rig [(PWR_STAT_STATE, Pw.upSeq), (PWR_PROG_WORD 3, 0x20000004)] with pwr := { pc := 3, ledger := [4, 0] } } with rig := { pins := [(0x50, 4, 1)] } },
      0x20000004, by decide +kernel⟩,
    ⟨{ poke [(PWR_SLOT_STAT_GOOD 4, 1), (PWR_SLOT_CFG_TOFF 4, 1)] ({ rig [(PWR_STAT_STATE, Pw.upSeq), (PWR_PROG_WORD 3, 0x20000004)] with pwr := { pc := 3, ledger := [4, 0] } }) with rig := { pins := [(0x50, 4, 1)] } },
      0x20000004, by decide +kernel⟩,
    ⟨{ rig [(PWR_STAT_STATE, Pw.upSeq), (PWR_SLOT_STAT_GOOD 31, 1), (PWR_SLOT_CFG_TOFF 31, 1)] with pwr := { wait := .good 7, ledger := [7, 31] }, rig := { pins := [(0x50, 31, 1)] } },
      31, 7, by decide +kernel⟩,
    ⟨{ rig [(PWR_STAT_STATE, Pw.downSeq)] with clock := 8, pwr := { wait := .drop 7, offWait := some (8, 31), ledger := [7] } },
      7, 31, by decide +kernel⟩,
    ⟨{ rig [(PWR_STAT_STATE, Pw.downSeq)] with pwr := { wait := .drop 0, ledger := [0], down := some (.fail 1 (some 7)), n := 1 } },
      1, 0, some 7, by decide +kernel⟩,
    ⟨{ rig [(PWR_STAT_STATE, Pw.downSeq)] with pwr := { wait := .drop 0, ledger := [0], down := some (.fail 1 (some 7)) } },
      1, 0, some 7, by decide +kernel⟩,
    ⟨{ rig [(PWR_STAT_STATE, Pw.downSeq)] with pwr := { wait := .drop 0, ledger := [0], down := some .off }, clock := 9 },
      0, by decide +kernel⟩,
    ⟨rig [(PWR_STAT_ON_HELD, 1)], by decide +kernel⟩,
    ⟨{ rig [] with pwr := { wait := .time } }, by decide +kernel⟩,
    ⟨{ rig [(PWR_STAT_RETRY_WAIT, 1)] with pwr := { pc := 9, lastSlot := some 2 } }, 2, by decide +kernel⟩⟩

theorem witness_RailSupervision :
    (∃ (s : State) (r : Fin 32), s.pwr.lost = false ∧ s.rig.resetWait = false ∧ s.on (PWR_SLOT_STAT_ACTIVE r) =
      true ∧ s.on (PWR_SLOT_STAT_GOOD r) = true ∧ s.on (PWR_SLOT_STAT_QUALIFIED r) = false) ∧
    (∃ (s : State) (r : Fin 32), s.pwr.lost = false ∧ s.rig.resetWait = false ∧ s.mapped 0x50 r 1 = true) ∧
    (∃ (s : State) (r : Fin 32), s.pwr.lost = false ∧ s.rig.resetWait = false ∧ s.mapped 0x50 r 1 = true ∧ s.on
      (PWR_SLOT_STAT_ACTIVE r) = true ∧ s.on (PWR_SLOT_STAT_GOOD r) = true ∧ s.on (PWR_SLOT_STAT_QUALIFIED r) =
      true) ∧
    (∃ (s : State) (r : Fin 32), s.pwr.lost = false ∧ s.rig.resetWait = false ∧ s.mapped 0x50 r 1 = true ∧ s.on
      (PWR_SLOT_STAT_ACTIVE r) = true ∧ s.on (PWR_SLOT_STAT_GOOD r) = true ∧ s.on (PWR_SLOT_STAT_QUALIFIED r) =
      false) ∧
    (∃ (s : State) (r : Fin 32) (q : Nat), s.pwr.lost = false ∧ s.rig.resetWait = false ∧ s.pwr.glitch.contains
      r.val = true ∧ s.on (PWR_SLOT_STAT_ACTIVE r) = true ∧ s.pwr.ledger.contains r.val = true ∧ pwState s = Pw.on
      ∧ s.pwr.down = none ∧ q ≠ r.val ∧ s.pwr.ledger.getLast? = some q ∧ q < 32 ∧ s.mapped 0x50 q 1 = true ∧ s.on
      (PWR_SLOT_STAT_GOOD q) = true ∧ s.g (PWR_SLOT_CFG_TOFF q) ≠ 0) ∧
    (∃ (s : State) (r : Fin 32), s.pwr.lost = false ∧ s.rig.resetWait = false ∧ s.pwr.glitch.contains r.val = true
      ∧ s.on (PWR_SLOT_STAT_ACTIVE r) = true ∧ s.pwr.ledger.contains r.val = true ∧ pwState s = Pw.on ∧ s.pwr.down
      = none ∧ s.pwr.ledger = [r.val] ∧ s.on (PWR_SLOT_STAT_GOOD r) = false) ∧
    (∃ (s : State) (r : Fin 32) (q : Nat), s.pwr.lost = false ∧ s.rig.resetWait = false ∧ s.pwr.glitch.contains
      r.val = true ∧ s.on (PWR_SLOT_STAT_ACTIVE r) = true ∧ s.pwr.ledger.contains r.val = true ∧ pwState s =
      Pw.upSeq ∧ s.pwr.down = none ∧ q ≠ r.val ∧ s.pwr.ledger.getLast? = some q ∧ q < 32 ∧ s.mapped 0x50 q 1 =
      true ∧ s.on (PWR_SLOT_STAT_GOOD q) = true ∧ s.g (PWR_SLOT_CFG_TOFF q) ≠ 0) ∧
    (∃ (s : State) (r : Fin 32), s.pwr.lost = false ∧ s.rig.resetWait = false ∧ s.pwr.glitch.contains r.val = true
      ∧ s.on (PWR_SLOT_STAT_ACTIVE r) = true ∧ s.pwr.ledger.contains r.val = true ∧ pwState s = Pw.downSeq) ∧
    (∃ (s : State) (r : Fin 32) (code : BitVec 12) (q : Nat), s.pwr.lost = false ∧ s.rig.resetWait = false ∧ s.on
      (PWR_SLOT_CFG_OV_EN r) = true ∧ s.on (PWR_SLOT_STAT_ACTIVE r) = true ∧ s.g (PWR_SLOT_CFG_OV_CODE r) <
      code.toNat ∧ s.pwr.ovHigh.contains r.val = true ∧ s.pwr.ledger.contains r.val = true ∧ pwState s = Pw.on ∧
      s.pwr.down = none ∧ s.pwr.ledger.getLast? = some q ∧ q < 32 ∧ s.mapped 0x50 q 1 = true ∧ s.on
      (PWR_SLOT_STAT_GOOD q) = true ∧ s.g (PWR_SLOT_CFG_TOFF q) ≠ 0) ∧
    (∃ (s : State) (r : Fin 32) (code : BitVec 12) (q : Nat), s.pwr.lost = false ∧ s.rig.resetWait = false ∧ s.on
      (PWR_SLOT_CFG_OV_EN r) = true ∧ s.on (PWR_SLOT_STAT_ACTIVE r) = true ∧ s.g (PWR_SLOT_CFG_OV_CODE r) <
      code.toNat ∧ s.pwr.ovHigh.contains r.val = true ∧ s.pwr.ledger.contains r.val = true ∧ pwState s = Pw.upSeq
      ∧ s.pwr.down = none ∧ s.pwr.ledger.getLast? = some q ∧ q < 32 ∧ s.mapped 0x50 q 1 = true ∧ s.on
      (PWR_SLOT_STAT_GOOD q) = true ∧ s.g (PWR_SLOT_CFG_TOFF q) ≠ 0) ∧
    (∃ (s : State) (r : Fin 32) (code : BitVec 12), s.pwr.lost = false ∧ s.rig.resetWait = false ∧ s.on
      (PWR_SLOT_CFG_OV_EN r) = true ∧ s.on (PWR_SLOT_STAT_ACTIVE r) = true ∧ s.g (PWR_SLOT_CFG_OV_CODE r) <
      code.toNat ∧ s.pwr.ovHigh.contains r.val = true ∧ s.pwr.ledger.contains r.val = true ∧ pwState s =
      Pw.downSeq) ∧
    (∃ (s : State) (r : Fin 32) (code : BitVec 12), s.pwr.lost = false ∧ s.rig.resetWait = false ∧ s.on
      (PWR_SLOT_CFG_OV_EN r) = true ∧ s.on (PWR_SLOT_STAT_ACTIVE r) = true ∧ s.g (PWR_SLOT_CFG_OV_CODE r) <
      code.toNat ∧ s.pwr.ovHigh.contains r.val = false) ∧
    (∃ (s : State) (r : Fin 32) (code : BitVec 12), s.pwr.lost = false ∧ s.rig.resetWait = false ∧ s.on
      (PWR_SLOT_CFG_OV_EN r) = true ∧ s.on (PWR_SLOT_STAT_ACTIVE r) = true ∧ code.toNat ≤ s.g
      (PWR_SLOT_CFG_OV_CODE r)) :=
  ⟨⟨rig [(PWR_SLOT_STAT_ACTIVE 31, 1), (PWR_SLOT_STAT_GOOD 31, 1)], 31, by decide +kernel⟩,
    ⟨{ rig [] with rig := { pins := [(0x50, 0, 1)] } }, 0, by decide +kernel⟩,
    ⟨{ rig [(PWR_SLOT_STAT_ACTIVE 31, 1), (PWR_SLOT_STAT_GOOD 31, 1), (PWR_SLOT_STAT_QUALIFIED 31, 1)] with rig := { pins := [(0x50, 31, 1)] } },
      31, by decide +kernel⟩,
    ⟨{ rig [(PWR_SLOT_STAT_ACTIVE 0, 1), (PWR_SLOT_STAT_GOOD 0, 1)] with rig := { pins := [(0x50, 0, 1)] } }, 0,
      by decide +kernel⟩,
    ⟨{ rig [(PWR_STAT_STATE, Pw.on), (PWR_SLOT_STAT_ACTIVE 7, 1), (PWR_SLOT_STAT_ACTIVE 31, 1), (PWR_SLOT_STAT_GOOD 31, 1), (PWR_SLOT_CFG_TOFF 31, 1), (PWR_SLOT_CFG_OV_EN 7, 1), (PWR_STAT_ATTEMPT, 2)] with pwr := { glitch := [7], ledger := [7, 31] }, rig := { pins := [(0x50, 31, 1)] } },
      7, 31, by decide +kernel⟩,
    ⟨{ rig [(PWR_STAT_STATE, Pw.on), (PWR_SLOT_STAT_ACTIVE 7, 1), (PWR_SLOT_STAT_ACTIVE 31, 1), (PWR_SLOT_STAT_GOOD 31, 1), (PWR_SLOT_CFG_TOFF 31, 1), (PWR_SLOT_CFG_OV_EN 7, 1), (PWR_STAT_ATTEMPT, 2)] with pwr := { glitch := [7], ledger := [7] }, rig := { pins := [(0x50, 31, 1)] } },
      7, by decide +kernel⟩,
    ⟨{ rig [(PWR_STAT_STATE, Pw.upSeq), (PWR_SLOT_STAT_ACTIVE 7, 1), (PWR_SLOT_STAT_ACTIVE 31, 1), (PWR_SLOT_STAT_GOOD 31, 1), (PWR_SLOT_CFG_TOFF 31, 1), (PWR_SLOT_CFG_OV_EN 7, 1), (PWR_STAT_ATTEMPT, 2)] with pwr := { glitch := [7], ledger := [7, 31] }, rig := { pins := [(0x50, 31, 1)] } },
      7, 31, by decide +kernel⟩,
    ⟨{ rig [(PWR_STAT_STATE, Pw.downSeq), (PWR_SLOT_STAT_ACTIVE 7, 1), (PWR_SLOT_STAT_ACTIVE 31, 1), (PWR_SLOT_STAT_GOOD 31, 1), (PWR_SLOT_CFG_TOFF 31, 1), (PWR_SLOT_CFG_OV_EN 7, 1), (PWR_STAT_ATTEMPT, 2)] with pwr := { glitch := [7], ledger := [7, 31] }, rig := { pins := [(0x50, 31, 1)] } },
      7, by decide +kernel⟩,
    ⟨{ rig [(PWR_STAT_STATE, Pw.on), (PWR_SLOT_STAT_ACTIVE 7, 1), (PWR_SLOT_STAT_ACTIVE 31, 1), (PWR_SLOT_STAT_GOOD 31, 1), (PWR_SLOT_CFG_TOFF 31, 1), (PWR_SLOT_CFG_OV_EN 7, 1), (PWR_STAT_ATTEMPT, 2)] with pwr := { ovHigh := [7], ledger := [7, 31] }, rig := { pins := [(0x50, 31, 1)] } },
      7, 1#12, 31, by decide +kernel⟩,
    ⟨{ rig [(PWR_STAT_STATE, Pw.upSeq), (PWR_SLOT_STAT_ACTIVE 7, 1), (PWR_SLOT_STAT_ACTIVE 31, 1), (PWR_SLOT_STAT_GOOD 31, 1), (PWR_SLOT_CFG_TOFF 31, 1), (PWR_SLOT_CFG_OV_EN 7, 1), (PWR_STAT_ATTEMPT, 2)] with pwr := { ovHigh := [7], ledger := [7, 31] }, rig := { pins := [(0x50, 31, 1)] } },
      7, 1#12, 31, by decide +kernel⟩,
    ⟨{ rig [(PWR_STAT_STATE, Pw.downSeq), (PWR_SLOT_STAT_ACTIVE 7, 1), (PWR_SLOT_STAT_ACTIVE 31, 1), (PWR_SLOT_STAT_GOOD 31, 1), (PWR_SLOT_CFG_TOFF 31, 1), (PWR_SLOT_CFG_OV_EN 7, 1), (PWR_STAT_ATTEMPT, 2)] with pwr := { ovHigh := [7], ledger := [7, 31] }, rig := { pins := [(0x50, 31, 1)] } },
      7, 1#12, by decide +kernel⟩,
    ⟨rig [(PWR_SLOT_STAT_ACTIVE 0, 1), (PWR_SLOT_CFG_OV_EN 0, 1)], 0, 1#12, by decide +kernel⟩,
    ⟨{ rig [(PWR_SLOT_STAT_ACTIVE 0, 1), (PWR_SLOT_CFG_OV_EN 0, 1)] with pwr := { ovHigh := [0] } }, 0, 0#12,
      by decide +kernel⟩⟩

theorem witness_SagAndStaySave :
    (∃ (s : State), s.pwr.lost = false ∧ s.rig.resetWait = false ∧ s.on PWR_STAT_SAG_ARMED = true) ∧
    (∃ (s : State), s.pwr.lost = false ∧ s.rig.resetWait = false) ∧
    (∃ (s : State), s.pwr.lost = false ∧ s.rig.resetWait = false ∧ s.dead = false ∧ s.pwr.save = none) ∧
    (∃ (s : State) (v : Save), s.pwr.lost = false ∧ s.rig.resetWait = false ∧ s.dead = false ∧ s.pwr.save = some
      v) ∧
    (∃ (s : State) (v : Save), s.pwr.lost = false ∧ s.rig.resetWait = false ∧ s.dead = false ∧ s.pwr.save = some
      v) ∧
    (∃ (s : State) (v : Save), s.pwr.lost = false ∧ s.rig.resetWait = false ∧ s.pwr.failWait = false ∧
      s.pwr.pinWait = false ∧ s.pwr.save = some v ∧ v.cause = 2) ∧
    (∃ (s : State) (v : Save) (q : Nat), s.pwr.lost = false ∧ s.rig.resetWait = false ∧ s.pwr.failWait = false ∧
      s.pwr.pinWait = false ∧ s.pwr.save = some v ∧ v.cause = 1 ∧ pwState s = Pw.on ∧ s.pwr.ledger.getLast? = some
      q ∧ q < 32 ∧ s.mapped 0x50 q 1 = true ∧ s.on (PWR_SLOT_STAT_GOOD q) = true ∧ s.g (PWR_SLOT_CFG_TOFF q) ≠ 0)
      ∧
    (∃ (s : State) (v : Save), s.pwr.lost = false ∧ s.rig.resetWait = false ∧ s.pwr.failWait = false ∧
      s.pwr.pinWait = false ∧ s.pwr.save = some v) :=
  ⟨⟨rig [(PWR_STAT_SAG_ARMED, 1), (REP_STAT_ENGINE, Eng.ready)], by decide +kernel⟩,
    ⟨rig [(PWR_STAT_VIN_LOW, 1)], by decide +kernel⟩,
    ⟨rig [], by decide +kernel⟩,
    ⟨{ rig [] with pwr := { save := some { begun := 0, cause := 1, power := 0, engine := 0, at_ := {}, vstay := 0, tj := 0, body := [] } } },
      { begun := 0, cause := 1, power := 0, engine := 0, at_ := {}, vstay := 0, tj := 0, body := [] },
      by decide +kernel⟩,
    ⟨{ rig [] with pwr := { save := some { begun := 0, cause := 1, power := 0, engine := 0, at_ := {}, vstay := 0, tj := 0, body := [] } } },
      { begun := 0, cause := 1, power := 0, engine := 0, at_ := {}, vstay := 0, tj := 0, body := [] },
      by decide +kernel⟩,
    ⟨{ rig [(PWR_STAYSTAT_B_VALID, 1), (PWR_STAYSTAT_NEWEST_B, 1), (PWR_STAY_SEQ, 0xFFFFFFFF)] with pwr := { save := some { begun := 0, cause := 2, power := 0, engine := 0, at_ := {}, vstay := 0, tj := 0, body := [] }, slotB := some [1] } },
      { begun := 0, cause := 2, power := 0, engine := 0, at_ := {}, vstay := 0, tj := 0, body := [] },
      by decide +kernel⟩,
    ⟨{ rig [(PWR_STAT_STATE, Pw.on), (PWR_SLOT_STAT_GOOD 31, 1), (PWR_SLOT_CFG_TOFF 31, 1)] with pwr := { save := some { begun := 0, cause := 1, power := 0, engine := 0, at_ := {}, vstay := 0, tj := 0, body := [] }, ledger := [7, 31] }, rig := { pins := [(0x50, 31, 1)] } },
      { begun := 0, cause := 1, power := 0, engine := 0, at_ := {}, vstay := 0, tj := 0, body := [] }, 31,
      by decide +kernel⟩,
    ⟨{ rig [] with pwr := { save := some { begun := 0, cause := 1, power := 0, engine := 0, at_ := {}, vstay := 0, tj := 0, body := [] }, slotA := some [1], slotB := some [2] } },
      { begun := 0, cause := 1, power := 0, engine := 0, at_ := {}, vstay := 0, tj := 0, body := [] },
      by decide +kernel⟩⟩

theorem witness_PowerControlWrites :
    (∃ (s : State) (v : Word) (q : Nat), Reaches s PWR_CTRL ∧ fieldOf PWR_CTRL_CNT_CLR v = 0 ∧ fieldOf
      PWR_CTRL_SAVE v = 0 ∧ fieldOf PWR_CTRL_UNCLEAT v = 0 ∧ fieldOf PWR_CTRL_OFF v = 1 ∧ s.engine = Eng.standby ∧
      pwState s = Pw.on ∧ s.pwr.ledger.getLast? = some q ∧ q < 32 ∧ s.mapped 0x50 q 1 = true ∧ s.on
      (PWR_SLOT_STAT_GOOD q) = true ∧ s.g (PWR_SLOT_CFG_TOFF q) ≠ 0) ∧
    (∃ (s : State) (v : Word), Reaches s PWR_CTRL ∧ fieldOf PWR_CTRL_CNT_CLR v = 0 ∧ fieldOf PWR_CTRL_SAVE v = 0 ∧
      fieldOf PWR_CTRL_UNCLEAT v = 0 ∧ fieldOf PWR_CTRL_OFF v = 1 ∧ (s.engine = Eng.ready ∨ s.engine =
      Eng.printing ∨ s.engine = Eng.draining ∨ s.engine = Eng.hardstop)) ∧
    (∃ (s : State) (v : Word), Reaches s PWR_CTRL ∧ fieldOf PWR_CTRL_CNT_CLR v = 0 ∧ fieldOf PWR_CTRL_SAVE v = 0 ∧
      fieldOf PWR_CTRL_UNCLEAT v = 1 ∧ fieldOf PWR_CTRL_OFF v = 0 ∧ pwState s = Pw.cleated) ∧
    (∃ (s : State) (v : Word), Reaches s PWR_CTRL ∧ fieldOf PWR_CTRL_CNT_CLR v = 0 ∧ fieldOf PWR_CTRL_SAVE v = 0 ∧
      fieldOf PWR_CTRL_UNCLEAT v = 1 ∧ fieldOf PWR_CTRL_OFF v = 0 ∧ pwState s ≠ Pw.cleated) ∧
    (∃ (s : State) (v : Word), Reaches s PWR_CTRL ∧ fieldOf PWR_CTRL_CNT_CLR v = 0 ∧ fieldOf PWR_CTRL_SAVE v = 1 ∧
      fieldOf PWR_CTRL_UNCLEAT v = 0 ∧ fieldOf PWR_CTRL_OFF v = 0 ∧ s.on PWR_STAT_SAVING = false ∧ s.on
      PWR_STAT_SAG_ARMED = true) ∧
    (∃ (s : State) (v : Word), Reaches s PWR_CTRL ∧ fieldOf PWR_CTRL_CNT_CLR v = 0 ∧ fieldOf PWR_CTRL_SAVE v = 1 ∧
      fieldOf PWR_CTRL_UNCLEAT v = 0 ∧ fieldOf PWR_CTRL_OFF v = 0 ∧ (s.on PWR_STAT_SAVING = true ∨ s.on
      PWR_STAT_SAG_ARMED = false)) ∧
    (∃ (s : State) (v : Word), Reaches s PWR_CTRL ∧ fieldOf PWR_CTRL_CNT_CLR v = 1 ∧ fieldOf PWR_CTRL_SAVE v = 0 ∧
      fieldOf PWR_CTRL_UNCLEAT v = 0 ∧ fieldOf PWR_CTRL_OFF v = 0) :=
  ⟨⟨{ rig [(REP_STAT_ENGINE, Eng.standby), (PWR_STAT_STATE, Pw.on), (PWR_SLOT_STAT_GOOD 31, 1), (PWR_SLOT_CFG_TOFF 31, 1)] with pwr := { ledger := [7, 31] }, rig := { pins := [(0x50, 31, 1)] } },
      1#32, 31, by decide +kernel⟩,
    ⟨rig [(REP_STAT_ENGINE, Eng.printing)], 1#32, by decide +kernel⟩,
    ⟨rig [(PWR_STAT_STATE, Pw.cleated)], 2#32, by decide +kernel⟩,
    ⟨rig [], 2#32, by decide +kernel⟩,
    ⟨rig [(PWR_STAT_SAG_ARMED, 1)], 4#32, by decide +kernel⟩,
    ⟨rig [], 4#32, by decide +kernel⟩,
    ⟨rig [(PWR_SLOT_CNT0_CHATTER 31, 9)], 0x1F08#32, by decide +kernel⟩⟩

theorem witness_BootAndHostLoad :
    (∃ (s : State), s.dead = false ∧ s.rig.booted = false ∧ s.g CHIP_RIGSTAT_STATE = 0 ∧ (bootSrc s = 0 ∨ bootSrc
      s = 3)) ∧
    (∃ (s : State), s.dead = false ∧ s.rig.booted = false ∧ s.g CHIP_RIGSTAT_STATE = 0 ∧ (bootSrc s = 1 ∨ bootSrc
      s = 2)) ∧
    (∃ (s : State) (h : List (BitVec 8)), s.dead = false ∧ flashLoading s = true ∧ s.rig.hdr = none ∧ h.length =
      256 ∧ headerCause s h = 0) ∧
    (∃ (s : State) (h : List (BitVec 8)), s.dead = false ∧ flashLoading s = true ∧ s.rig.hdr = none ∧ h.length =
      256 ∧ headerCause s h ≠ 0 ∧ s.rig.load = 1) ∧
    (∃ (s : State) (h : List (BitVec 8)) (b : List (BitVec 8)), s.dead = false ∧ flashLoading s = true ∧ s.rig.hdr
      = some h ∧ h.length + b.length = imgLen h) ∧
    (∃ (s : State), s.dead = false ∧ s.g CHIP_RIGSTAT_STATE = 1 ∧ s.rig.load = 4) ∧
    (∃ (s : State) (v : BitVec 32), Reaches s RIG_LOADCTRL ∧ fieldOf RIG_LOADCTRL_OPEN v = 1 ∧ fieldOf
      RIG_LOADCTRL_COMMIT v = 0 ∧ fieldOf RIG_LOADCTRL_ABANDON v = 0 ∧ (s.g CHIP_RIGSTAT_STATE = 0 ∨ s.g
      CHIP_RIGSTAT_STATE = 4) ∧ s.rig.load = 0 ∧ s.rig.booted = true) ∧
    (∃ (s : State) (v : BitVec 32), Reaches s RIG_LOADCTRL ∧ fieldOf RIG_LOADCTRL_OPEN v = 1 ∧ fieldOf
      RIG_LOADCTRL_COMMIT v = 0 ∧ fieldOf RIG_LOADCTRL_ABANDON v = 0 ∧ s.rig.load ≠ 0) ∧
    (∃ (s : State) (off : BitVec 26), Reaches s (off.toNat / 4 * 4) ∧ inAperture (off.toNat / 4 * 4) = true ∧
      hostLoading s = true) ∧
    (∃ (s : State) (v : BitVec 32), Reaches s RIG_LOADCTRL ∧ fieldOf RIG_LOADCTRL_OPEN v = 0 ∧ fieldOf
      RIG_LOADCTRL_COMMIT v = 1 ∧ fieldOf RIG_LOADCTRL_ABANDON v = 0 ∧ fieldOf RIG_LOADCTRL_DEST v = 0 ∧
      hostLoading s = true) ∧
    (∃ (s : State) (v : BitVec 32), Reaches s RIG_LOADCTRL ∧ fieldOf RIG_LOADCTRL_OPEN v = 0 ∧ fieldOf
      RIG_LOADCTRL_COMMIT v = 0 ∧ fieldOf RIG_LOADCTRL_ABANDON v = 1 ∧ (s.rig.prior.1 = 0 ∨ s.rig.prior.1 = 4) ∧
      hostLoading s = true) :=
  ⟨⟨State.reset, by decide +kernel⟩,
    ⟨{ State.reset with rig := { otp := [(5, [⟨[2], true⟩])] } }, by decide +kernel⟩,
    ⟨loading 1, sampleHeader, by decide +kernel⟩,
    ⟨loading 1, List.replicate 256 0, by decide +kernel⟩,
    ⟨{ loading 2 with rig := { load := 2, hdr := some sampleHeader } }, sampleHeader, List.replicate 224 1,
      by decide +kernel⟩,
    ⟨loading 4, by decide +kernel⟩,
    ⟨{ State.reset with rig := { booted := true } }, 1#32, by decide +kernel⟩,
    ⟨loading 1, 1#32, by decide +kernel⟩,
    ⟨loading 3, 0x11FFFF#26, by decide +kernel⟩,
    ⟨loading 3, 2#32, by decide +kernel⟩,
    ⟨{ loading 3 with rig := { load := 3, prior := (4, 9) } }, 4#32, by decide +kernel⟩⟩

theorem witness_ImagesAndSettings :
    (∃ (s : State), s.dead = false ∧ s.g CHIP_RIGSTAT_STATE = 2 ∧ s.rig.storing = none ∧ s.rig.load = 3 ∧
      s.rig.dest = false) ∧
    (∃ (s : State), s.dead = false ∧ s.g CHIP_RIGSTAT_STATE = 2 ∧ s.rig.storing = none ∧ s.rig.load = 3 ∧
      s.rig.dest = true) ∧
    (∃ (s : State), s.dead = false ∧ s.g CHIP_RIGSTAT_STATE = 2 ∧ s.rig.storing = none ∧ s.rig.load = 1) ∧
    (∃ (s : State) (b : List (BitVec 8)), s.dead = false ∧ s.rig.storing = some b) ∧
    (∃ (s : State) (v : BitVec 32), Reaches s CSET_CMD ∧ fieldOf CSET_CMD_CONFIRM v = 0x5A17 ∧ s.on CSET_STAT_BUSY
      = false ∧ csetValueOk s (s.g CSET_SEL_INDEX) = true ∧ (otpSlots s (s.g CSET_SEL_INDEX)).length < 8 ∧ 160 ≤
      s.gi THM_TJ_TJ ∧ s.gi THM_TJ_TJ ≤ 1360) ∧
    (∃ (s : State) (v : BitVec 32), Reaches s CSET_CMD ∧ fieldOf CSET_CMD_CONFIRM v = 0x5A17 ∧ s.on CSET_STAT_BUSY
      = false ∧ csetValueOk s (s.g CSET_SEL_INDEX) = false) ∧
    (∃ (s : State) (i : Nat) (w : List Nat), s.dead = false ∧ s.rig.prog = some (i, w)) :=
  ⟨⟨poke [(CHIP_RIGSTAT_STATE, 2)] { State.reset with rig := { load := 3, image := sampleHeader } },
      by decide +kernel⟩,
    ⟨poke [(CHIP_RIGSTAT_STATE, 2)]
      { State.reset with rig := { load := 3, dest := true, image := sampleHeader } }, by decide +kernel⟩,
    ⟨poke [(CHIP_RIGSTAT_STATE, 2)] { State.reset with rig := { load := 1, image := sampleHeader } },
      by decide +kernel⟩,
    ⟨{ State.reset with rig := { load := 3, storing := some [1, 2] } }, [1, 2], by decide +kernel⟩,
    ⟨rig [(CSET_SEL_INDEX, 7), (THM_TJ_TJ, 1360)], 0x5A17#32, by decide +kernel⟩,
    ⟨poke [(⟨CSET_DATA 0, 0, 8⟩, 17)] (rig [(CSET_SEL_INDEX, 9)]), 0x5A17#32, by decide +kernel⟩,
    ⟨{ rig [] with rig := { prog := some (9, [16]) } }, 9, [16], by decide +kernel⟩⟩

theorem witness_SuppliesAndReset :
    (∃ (s : State), s.pwr.lost = true) ∧
    (∃ (s : State), pwState s = Pw.stayOnly ∧ s.pwr.lost = false) ∧
    (∃ (s : State), s.inReset = false ∧ s.pwr.save = none) ∧
    (∃ (s : State), s.inReset = false ∧ s.pwr.save.isSome = true) ∧
    (∃ (s : State), s.pwr.supDown = false ∧ s.pwr.lost = false) ∧
    (∃ (s : State), (s.pwr.supDown = true ∨ s.pwr.lost = true)) ∧
    (∃ (s : State), s.pwr.supDown = false ∧ s.pwr.lost = false ∧ (s.pwr.save = none ∨ s.inReset = true)) ∧
    (∃ (s : State), s.pwr.supDown = false ∧ s.pwr.lost = false ∧ s.pwr.save.isSome = true ∧ s.inReset = false) ∧
    (∃ (s : State), s.pwr.supDown = true ∧ s.pwr.lost = false ∧ s.pwr.failWait = false ∧ s.pinLow = false) ∧
    (∃ (s : State), s.pwr.supDown = true ∧ s.pwr.lost = false ∧ s.pinLow = true) ∧
    (∃ (s : State), s.pwr.supDown = true ∧ s.pwr.lost = false) ∧
    (∃ (s : State) (v : BitVec 32), Reaches s CHIP_RESET ∧ fieldOf CHIP_RESET_KEY v = 0xC1EA ∧ fieldOf
      CHIP_RESET_GO v = 1 ∧ resetLegal s = true ∧ pwState s = Pw.off ∧ s.pwr.lost = false) ∧
    (∃ (s : State) (v : BitVec 32), Reaches s CHIP_RESET ∧ fieldOf CHIP_RESET_KEY v = 0xC1EA ∧ fieldOf
      CHIP_RESET_GO v = 1 ∧ resetLegal s = false) :=
  ⟨⟨{ rig [] with pwr := { lost := true }, inReset := true }, by decide +kernel⟩,
    ⟨poke [(PWR_STAT_STATE, Pw.stayOnly)] State.reset, by decide +kernel⟩,
    ⟨rig [], by decide +kernel⟩,
    ⟨{ rig [] with pwr := { save := some { begun := 0, cause := 1, power := 0, engine := 0, at_ := {}, vstay := 0, tj := 0, body := [] } } },
      by decide +kernel⟩,
    ⟨{ poke [(PWR_STAT_STATE, Pw.stayOnly)] State.reset with inReset := true, pinLow := true }, by decide +kernel⟩,
    ⟨{ rig [] with inReset := true, pinLow := true, pwr := { supDown := true } }, by decide +kernel⟩,
    ⟨{ rig [(PWR_STAT_STATE, Pw.on)] with pwr := { ledger := [0, 31] } }, by decide +kernel⟩,
    ⟨{ rig [] with pwr := { save := some { begun := 0, cause := 1, power := 0, engine := 0, at_ := {}, vstay := 0, tj := 0, body := [] } } },
      by decide +kernel⟩,
    ⟨{ poke [(PWR_STAT_STATE, Pw.stayOnly)] State.reset with inReset := true, pwr := { supDown := true } },
      by decide +kernel⟩,
    ⟨{ poke [(PWR_STAT_STATE, Pw.stayOnly)] State.reset with inReset := true, pinLow := true, pwr := { supDown := true } },
      by decide +kernel⟩,
    ⟨{ poke [(PWR_STAT_STATE, Pw.stayOnly)] State.reset with inReset := true, pwr := { supDown := true } },
      by decide +kernel⟩,
    ⟨poke [(CHIP_RSTCAUSE_COUNT, 65535)] State.reset, 0xC1EA0001#32, by decide +kernel⟩,
    ⟨rig [(REP_STAT_ENGINE, Eng.printing)], 0xC1EA0001#32, by decide +kernel⟩⟩

theorem witness_HostAccesses :
    (∃ (s : State) (off : BitVec 26), s.dead = false ∧ s.access (off.toNat / 4 * 4) = .absent) ∧
    (∃ (s : State) (off : BitVec 26), s.dead = false ∧ s.access (off.toNat / 4 * 4) = .absent) ∧
    (∃ (s : State) (off : BitVec 26), s.dead = false ∧ s.access (off.toNat / 4 * 4) = .unmapped) ∧
    (∃ (s : State) (off : BitVec 26), s.dead = false ∧ s.access (off.toNat / 4 * 4) = .unmapped) ∧
    (∃ (s : State) (off : BitVec 26) (be : Fin 16), s.dead = false ∧ Reaches s (off.toNat / 4 * 4) ∧ be ≠ 15) ∧
    (∃ (s : State) (off : BitVec 26), s.dead = false ∧ Reaches s (off.toNat / 4 * 4) ∧ plainRead (off.toNat / 4 *
      4) = true) ∧
    (∃ (s : State) (off : BitVec 26) (hi : Nat), s.dead = false ∧ Reaches s (off.toNat / 4 * 4) ∧ highOf
      (off.toNat / 4 * 4) = some hi ∧ ¬(0x201000 ≤ off.toNat / 4 * 4 ∧ off.toNat / 4 * 4 < 0x203000)) ∧
    (∃ (s : State), s.dead = false ∧ Reaches s CHIP_FENCE) ∧
    (∃ (s : State) (n : Fin 128), s.dead = false ∧ Reaches s (SPAR_HOST n)) :=
  ⟨⟨{ rig [] with part := .mlv9040 }, 0xC00000#26, by decide +kernel⟩,
    ⟨{ rig [] with part := .mlv9040 }, 0xC00001#26, by decide +kernel⟩,
    ⟨rig [], 0x1FFFFFC#26, by decide +kernel⟩,
    ⟨rig [], 0x1FFFFFD#26, by decide +kernel⟩,
    ⟨rig [], 0x111013#26, 14, by decide +kernel⟩,
    ⟨rig [(ERR_SUPPR_COUNT, 65535)], (BitVec.ofNat 26 ERR_SUPPR), by decide +kernel⟩,
    ⟨rig [], (BitVec.ofNat 26 CMP_IN_LO), CMP_IN_HI, by decide +kernel⟩,
    ⟨rig [], by decide +kernel⟩,
    ⟨rig [], 127, by decide +kernel⟩⟩

theorem witness_LinkResetWindowAndMailboxes :
    (∃ (s : State), s.dead = false) ∧
    (∃ (s : State) (n : Fin 64), s.dead = false ∧ (dmaU s n).step ≠ .idle) ∧
    (∃ (s : State) (a : BitVec 37), s.dead = false ∧ s.host.bar2 ≤ a.toNat) ∧
    (∃ (s : State) (a : BitVec 37), s.dead = false ∧ a.toNat < s.host.bar2 ∧ bar2Open s = false) ∧
    (∃ (s : State) (a : BitVec 37), s.dead = false ∧ a.toNat < s.host.bar2 ∧ bar2Open s = false) ∧
    (∃ (s : State) (a : BitVec 37) (d : List (BitVec 8)), s.dead = false ∧ a.toNat < s.host.bar2 ∧ bar2Open s =
      true ∧ bar2Addr s a.toNat + d.length ≤ s.installed) ∧
    (∃ (s : State) (a : BitVec 37), s.dead = false ∧ a.toNat < s.host.bar2 ∧ bar2Open s = true) ∧
    (∃ (s : State) (a : BitVec 37) (d : List (BitVec 8)), s.dead = false ∧ a.toNat < s.host.bar2 ∧ bar2Open s =
      true ∧ s.installed < bar2Addr s a.toNat + d.length) ∧
    (∃ (s : State) (a : BitVec 37) (len : Fin 4097), s.dead = false ∧ a.toNat < s.host.bar2 ∧ bar2Open s = true ∧
      bar2Addr s a.toNat + len ≤ s.installed ∧ s.g DRAM_SR_STATE = 0 ∧ s.dram.ue = [] ∧ s.dram.weak = []) ∧
    (∃ (s : State), s.dead = false ∧ nvmWindow s = true ∧ s.nvmNext < 32 ∧ s.err.nvmWait.length ≤ 32) ∧
    (∃ (s : State) (n : Fin 64), Reaches s (MBX_HDR n)) ∧
    (∃ (s : State) (c : Fin 256) (q2 : Nat), s.dead = false ∧ doneDue s c = true ∧ doneRing s c = some q2) ∧
    (∃ (s : State) (c : Fin 256), s.dead = false ∧ doneDue s c = true ∧ doneRing s c = none) ∧
    (∃ (s : State) (c : Fin 256), ctxState s c = Px.retired ∧ c.val ∈ ctxKeys s) :=
  ⟨⟨(rig [(REP_STAT_SESSION, 1), (REP_QCFG_ENABLE 15, 1)]).setReg (MSIX_TABLE 5 3) 0, by decide +kernel⟩,
    ⟨{ rig [(DMA_CTRL_ENABLE 63, 1)] with dma := { chan := [(63, { step := .fetch })] } }, 63, by decide +kernel⟩,
    ⟨{ rig [(DRAM_TSTAT_STATE, 3), (DRAM_CFG_INSTALLED, 1), (DRAM_CFG_CHANNELS, 1)] with host := { bar2 := 2 ^ 28 } },
      0x10000000#37, by decide +kernel⟩,
    ⟨{ rig [] with host := { bar2 := 2 ^ 28 } }, 0, by decide +kernel⟩,
    ⟨{ rig [] with host := { bar2 := 2 ^ 28 } }, 0, by decide +kernel⟩,
    ⟨{ rig [(DRAM_TSTAT_STATE, 3), (DRAM_CFG_INSTALLED, 1), (DRAM_CFG_CHANNELS, 1)] with host := { bar2 := 2 ^ 28 } },
      0xFFFFFFF#37, [7], by decide +kernel⟩,
    ⟨{ rig [(DRAM_TSTAT_STATE, 3), (DRAM_CFG_INSTALLED, 1), (DRAM_CFG_CHANNELS, 1)] with host := { bar2 := 2 ^ 28 } },
      0xFFFFFFF#37, by decide +kernel⟩,
    ⟨poke [(HNT_BAR2_CTRL_BASE, 4)]
      { rig [(DRAM_TSTAT_STATE, 3), (DRAM_CFG_INSTALLED, 1), (DRAM_CFG_CHANNELS, 1)] with
          host := { bar2 := 2 ^ 28 } }, 0xFFFFFFF#37, [7], by decide +kernel⟩,
    ⟨{ rig [(DRAM_TSTAT_STATE, 3), (DRAM_CFG_INSTALLED, 1), (DRAM_CFG_CHANNELS, 1)] with host := { bar2 := 2 ^ 28 }, mem := [(5, 9)] },
      5#37, 4, by decide +kernel⟩,
    ⟨{ rig [] with err := { nvmWait := [[1], [2]] }, nvmNext := 31, nvmRing := [(5, [9])] }, by decide +kernel⟩,
    ⟨{ rig [] with host := { mbx := [(63, { tag := 1, gen := 2, data := [3] })] } }, 63, by decide +kernel⟩,
    ⟨(host 4 15 [(PCTX_STATE_STATE 255, Px.delivered)]).setCtx 255 { pair := 15 }, 255, 15, by decide +kernel⟩,
    ⟨(rig [(PCTX_STATE_STATE 255, Px.delivered)]).setCtx 255 { pair := 15 }, 255, by decide +kernel⟩,
    ⟨(rig [(PCTX_STATE_STATE 255, Px.retired)]).setCtx 255 { pair := 15 }, 255, by decide +kernel⟩⟩

theorem witness_QueuePairs :
    (∃ (s : State) (q : Fin 16) (v : BitVec 32), Reaches s (REP_QSQT q) ∧ s.pairOn q = true ∧ fieldOf
      (REP_QSQT_TAIL q) v < s.sqSize q) ∧
    (∃ (s : State) (q : Fin 16) (v : BitVec 32), Reaches s (REP_QSQT q) ∧ s.pairOn q = true ∧ s.sqSize q ≤ fieldOf
      (REP_QSQT_TAIL q) v) ∧
    (∃ (s : State) (q : Fin 16) (v : BitVec 32), Reaches s (REP_QCQH q) ∧ s.pairOn q = true ∧ s.cqSize q ≤ fieldOf
      (REP_QCQH_HEAD q) v) ∧
    (∃ (s : State) (q : Fin 16) (v : BitVec 32), Reaches s (REP_QCQH q) ∧ s.pairOn q = true ∧ fieldOf
      (REP_QCQH_HEAD q) v < s.cqSize q ∧ (s.qpU q).held = []) ∧
    (∃ (s : State) (q : Fin 16) (v : BitVec 32) (p : Post), Reaches s (REP_QCQH q) ∧ s.pairOn q = true ∧ fieldOf
      (REP_QCQH_HEAD q) v < s.cqSize q ∧ (s.qpU q).held = [p] ∧ (s.g (REP_QSTAT_CQ_TAIL q) + 1) % s.cqSize q ≠
      fieldOf (REP_QCQH_HEAD q) v) ∧
    (∃ (s : State) (q : Fin 16) (v : BitVec 32), Reaches s (REP_QCFG q) ∧ s.pairOn q = false ∧ fieldOf
      (REP_QCFG_ENABLE q) v = 1 ∧ 4 ≤ fieldOf (REP_QCFG_CQ_LOG2 q) v ∧ fieldOf (REP_QCFG_CQ_LOG2 q) v ≤ 12 ∧ 4 ≤
      fieldOf (REP_QCFG_SQ_LOG2 q) v ∧ fieldOf (REP_QCFG_SQ_LOG2 q) v ≤ 12) ∧
    (∃ (s : State) (q : Fin 16) (v : BitVec 32), Reaches s (REP_QCFG q) ∧ s.pairOn q = false ∧ fieldOf
      (REP_QCFG_ENABLE q) v = 1 ∧ (fieldOf (REP_QCFG_CQ_LOG2 q) v < 4 ∨ 12 < fieldOf (REP_QCFG_CQ_LOG2 q) v ∨
      fieldOf (REP_QCFG_SQ_LOG2 q) v < 4 ∨ 12 < fieldOf (REP_QCFG_SQ_LOG2 q) v)) ∧
    (∃ (s : State) (q : Fin 16) (v : BitVec 32), Reaches s (REP_QCFG q) ∧ s.pairOn q = true ∧ fieldOf
      (REP_QCFG_ENABLE q) v = 0 ∧ fieldOf (REP_QCFG_VECTOR q) v = s.g (REP_QCFG_VECTOR q) ∧ fieldOf
      (REP_QCFG_CQ_LOG2 q) v = s.g (REP_QCFG_CQ_LOG2 q) ∧ fieldOf (REP_QCFG_SQ_LOG2 q) v = s.g (REP_QCFG_SQ_LOG2
      q) ∧ 4 ≤ s.g (REP_QCFG_CQ_LOG2 q) ∧ s.g (REP_QCFG_CQ_LOG2 q) ≤ 12 ∧ 4 ≤ s.g (REP_QCFG_SQ_LOG2 q) ∧ s.g
      (REP_QCFG_SQ_LOG2 q) ≤ 12 ∧ s.host.inProg.any (fun c => c.q == q.val) = false ∧ s.host.closing.any (fun b =>
      b.any (fun p => p.1 == q.val)) = false ∧ (q.val ≠ 0 ∨ s.session = false)) ∧
    (∃ (s : State) (q : Fin 16) (v : BitVec 32), Reaches s (REP_QCFG q) ∧ s.pairOn q = true ∧ fieldOf
      (REP_QCFG_ENABLE q) v = 0 ∧ (s.host.inProg.any (fun c => c.q == q.val) = true ∨ s.host.closing.any (fun b =>
      b.any (fun p => p.1 == q.val)) = true ∨ q.val = 0 ∧ s.session = true)) :=
  ⟨⟨(host 1 15 []), 15, 15#32, by decide +kernel⟩,
    ⟨(host 1 15 []), 15, 16#32, by decide +kernel⟩,
    ⟨(host 1 15 []), 15, 16#32, by decide +kernel⟩,
    ⟨(host 1 15 []), 15, 15#32, by decide +kernel⟩,
    ⟨(host 1 15 []).setQp 15 { held := [⟨1, 2, 3, 4, none, none⟩] }, 15, 15#32, ⟨1, 2, 3, 4, none, none⟩,
      by decide +kernel⟩,
    ⟨rig [], 0, (BitVec.ofNat 32 (2 ^ 31 + 12 * 2 ^ (REP_QCFG_CQ_LOG2 0).lo + 4 * 2 ^ (REP_QCFG_SQ_LOG2 0).lo)),
      by decide +kernel⟩,
    ⟨rig [], 0, (BitVec.ofNat 32 (2 ^ 31 + 13 * 2 ^ (REP_QCFG_CQ_LOG2 0).lo + 4 * 2 ^ (REP_QCFG_SQ_LOG2 0).lo)),
      by decide +kernel⟩,
    ⟨(host 1 15 []), 15, (BitVec.ofNat 32 ((host 1 15 []).g (REP_QCFG_VECTOR 15) * 2 ^ 16 + 4 * 2 ^
      (REP_QCFG_CQ_LOG2 0).lo + 4 * 2 ^ (REP_QCFG_SQ_LOG2 0).lo)), by decide +kernel⟩,
    ⟨{ (host 1 15 []) with host := { inProg := [⟨15, 9, 4⟩] } }, 15, (BitVec.ofNat 32 ((host 1 15 []).g
      (REP_QCFG_VECTOR 15) * 2 ^ 16 + 4 * 2 ^ (REP_QCFG_CQ_LOG2 0).lo + 4 * 2 ^ (REP_QCFG_SQ_LOG2 0).lo)),
      by decide +kernel⟩⟩

theorem witness_SessionsOpenAndClose :
    (∃ (s : State) (e : Entry) (lo : BitVec 16) (hi : BitVec 16) (x : Nat), turn s e.q = true ∧ e.q = 0 ∧ e.clean
      = true ∧ e.cid ≠ 0xFFFF#16 ∧ s.session = false ∧ repChoose lo.toNat hi.toNat = some x) ∧
    (∃ (s : State) (e : Entry) (lo : BitVec 16) (hi : BitVec 16), turn s e.q = true ∧ e.q = 0 ∧ e.clean = true ∧
      e.cid ≠ 0xFFFF#16 ∧ s.session = false ∧ repChoose lo.toNat hi.toNat = none) ∧
    (∃ (s : State) (e : Entry), turn s e.q = true ∧ e.q = 0 ∧ e.clean = true ∧ e.cid ≠ 0xFFFF#16 ∧ s.session =
      true) ∧
    (∃ (s : State) (e : Entry), accepted s e 0x02 noUnit anyParam = true ∧ s.host.inProg = [] ∧ s.host.tev = [] ∧
      ((∀ k : Fin 16, (s.qpU k).doomed = 0 ∧ queuedIn (fetchEntry e.q s) k = 0))) ∧
    (∃ (s : State) (v : BitVec 32), Reaches s REP_CTRL ∧ fieldOf REP_CTRL_SESSION_CLOSE v = 1 ∧ s.session = true ∧
      s.host.closing = none ∧ s.host.heldCmds = [] ∧ s.host.inProg = [] ∧ s.host.tev = [] ∧ ((∀ k : Fin 16, (s.qpU
      k).doomed = 0 ∧ queuedIn (s) k = 0))) ∧
    (∃ (s : State) (e : Entry) (op : BitVec 8), turn s e.q = true ∧ sessionTakes s = true ∧ knownOp s op.toNat =
      false ∧ op ≠ 1#8) ∧
    (∃ (s : State) (e : Entry) (op : BitVec 8), turn s e.q = true ∧ s.session = false ∧ op ≠ 1#8) :=
  ⟨⟨poke [(REP_STAT_SESSION, 0)] (host 1 0 []), ⟨0, 7#16, true⟩, 0x0100#16, 0xFFFF#16, 0x0200, by decide +kernel⟩,
    ⟨poke [(REP_STAT_SESSION, 0)] (host 1 0 []), ⟨0, 7#16, true⟩, 0x0201#16, 0xFFFF#16, by decide +kernel⟩,
    ⟨host 1 0 [], ⟨0, 7#16, true⟩, by decide +kernel⟩,
    ⟨host 1 15 [], ⟨15, 7#16, true⟩, by decide +kernel⟩,
    ⟨poke [(REP_QSQT_TAIL 15, 0)] (host 1 15 []), 1#32, by decide +kernel⟩,
    ⟨host 1 15 [], ⟨15, 7#16, true⟩, 0xFF#8, by decide +kernel⟩,
    ⟨poke [(REP_STAT_SESSION, 0)] (host 1 15 []), ⟨15, 7#16, true⟩, 0x50#8, by decide +kernel⟩⟩

theorem witness_ReportsAndTimeEvents :
    (∃ (s : State) (e : Entry) (cls : BitVec 8) (mbx : BitVec 8) (inst : BitVec 16), accepted s e 0x03 (fun s =>
      cls.toNat == 3 && decide (s.part.stations ≤ inst.toNat ∧ inst.toNat < 8)) (fun _ => queryOk cls.toNat
      mbx.toNat inst.toNat) = true) ∧
    (∃ (s : State) (e : Entry) (cls : BitVec 8) (inst : BitVec 16), turn s e.q = true ∧ sessionTakes s = true ∧
      0x0100 ≤ s.repVersion ∧ cls = 3#8 ∧ s.part.stations ≤ inst.toNat ∧ inst.toNat < 8) ∧
    (∃ (s : State) (e : Entry) (log : BitVec 8), accepted s e 0x04 noUnit (fun _ => decide (log.toNat ≤ 4)) =
      true) ∧
    (∃ (s : State) (e : Entry) (l : LogCopy), s.dead = false ∧ s.host.logs = [l] ∧ l.q = e.q ∧ l.cid = e.cid.toNat
      ∧ l.bytes ≠ [] ∧ s.pairOn e.q = true ∧ s.cqFull e.q = false ∧ (s.qpU e.q).held = []) ∧
    (∃ (s : State) (e : Entry) (kind : BitVec 8) (ns : BitVec 32) (sec : BitVec 64), accepted s e 0x05 noUnit (fun
      _ => timeEventOk kind.toNat sec.toNat ns.toNat) = true ∧ (kind.toNat = 1 ∨ timeReached s sec.toNat ns.toNat
      = true)) ∧
    (∃ (s : State) (e : Entry) (kind : BitVec 8) (ns : BitVec 32) (sec : BitVec 64), accepted s e 0x05 noUnit (fun
      _ => timeEventOk kind.toNat sec.toNat ns.toNat) = true ∧ kind = 0#8 ∧ timeReached s sec.toNat ns.toNat =
      false ∧ s.host.tev.length < 16) ∧
    (∃ (s : State) (e : Entry) (kind : BitVec 8) (ns : BitVec 32) (sec : BitVec 64), accepted s e 0x05 noUnit (fun
      _ => timeEventOk kind.toNat sec.toNat ns.toNat) = true ∧ kind = 0#8 ∧ timeReached s sec.toNat ns.toNat =
      false ∧ 16 ≤ s.host.tev.length) ∧
    (∃ (s : State) (e : Entry) (x : TimeEv), s.dead = false ∧ s.host.tev = [x] ∧ x.q = e.q ∧ x.cid = e.cid.toNat ∧
      timeReached s x.sec x.ns = true ∧ s.pairOn e.q = true ∧ s.cqFull e.q = false ∧ (s.qpU e.q).held = []) :=
  ⟨⟨host 1 15 [(MBX_HDR_SEQ 63, 2 ^ 28 - 1)], ⟨15, 7#16, true⟩, 0#8, 63#8, 0, by decide +kernel⟩,
    ⟨{ host 1 15 [] with part := .mlv9040 }, ⟨15, 7#16, true⟩, 3#8, 2#16, by decide +kernel⟩,
    ⟨host 1 15 [], ⟨15, 7#16, true⟩, 3#8, by decide +kernel⟩,
    ⟨{ host 1 15 [] with host := { logs := [⟨15, 7, 64, [9], 32, true⟩] } }, ⟨15, 7#16, true⟩, ⟨15, 7, 64, [9],
      32, true⟩, by decide +kernel⟩,
    ⟨host 1 15 [], ⟨15, 7#16, true⟩, 1#8, 0, 0, by decide +kernel⟩,
    ⟨host 1 15 [], ⟨15, 7#16, true⟩, 0, 0, 5#64, by decide +kernel⟩,
    ⟨{ host 1 15 [] with host := { tev := List.replicate 16 ⟨15, 8, 9, 0⟩ } }, ⟨15, 7#16, true⟩, 0, 0, 5#64,
      by decide +kernel⟩,
    ⟨{ host 1 15 [] with host := { tev := [⟨15, 7, 0, 0⟩] } }, ⟨15, 7#16, true⟩, ⟨15, 7, 0, 0⟩, by decide +kernel⟩⟩

theorem witness_EngineCommands :
    (∃ (s : State) (e : Entry), accepted s e 0x10 noUnit anyParam = true ∧ reefLevel s < 3 ∧ s.on THM_TJ_TRIP =
      false) ∧
    (∃ (s : State) (e : Entry), accepted s e 0x10 noUnit anyParam = true ∧ (3 ≤ reefLevel s ∨ s.on THM_TJ_TRIP =
      true)) ∧
    (∃ (s : State) (e : Entry), accepted s e 0x11 noUnit anyParam = true ∧ (s.engine = Eng.ready ∨ s.engine =
      Eng.printing)) ∧
    (∃ (s : State) (e : Entry), accepted s e 0x11 noUnit anyParam = true ∧ (s.engine = Eng.draining ∨ s.engine =
      Eng.furled)) ∧
    (∃ (s : State) (r : Fin 7), s.dead = false ∧ s.err.regionReset.contains r.val = true ∧ (r.val ≠ 3 ∨ s.g
      DRAM_TSTAT_STATE = 3) ∧ (s.err.regionReset.filter (· != r.val)) ≠ []) ∧
    (∃ (s : State) (r : Fin 7), s.dead = false ∧ s.err.regionReset.contains r.val = true ∧ (r.val ≠ 3 ∨ s.g
      DRAM_TSTAT_STATE = 3) ∧ (s.err.regionReset.filter (· != r.val)) = [] ∧ (s.engine = Eng.fault ∨ s.engine =
      Eng.hardstop) ∧ s.psq.chipFatal = false) ∧
    (∃ (s : State) (e : Entry) (rate : BitVec 32) (passes : BitVec 8), accepted s e 0x12 noUnit (fun s => speedOk
      s rate.toNat passes.toNat) = true ∧ recostFail (fetchEntry e.q s) rate.toNat (armedInOrder (fetchEntry e.q
      s)) (standing (fetchEntry e.q s)) = none) ∧
    (∃ (s : State) (e : Entry) (rate : BitVec 32) (passes : BitVec 8) (b : Nat) (d : Nat), accepted s e 0x12
      noUnit (fun s => speedOk s rate.toNat passes.toNat) = true ∧ recostFail (fetchEntry e.q s) rate.toNat
      (armedInOrder (fetchEntry e.q s)) (standing (fetchEntry e.q s)) = some (b, d)) :=
  ⟨⟨host Eng.standby 15 [], ⟨15, 7#16, true⟩, by decide +kernel⟩,
    ⟨host Eng.standby 15 [(THM_TJ_TRIP, 1)], ⟨15, 7#16, true⟩, by decide +kernel⟩,
    ⟨host Eng.printing 15 [], ⟨15, 7#16, true⟩, by decide +kernel⟩,
    ⟨host Eng.furled 15 [], ⟨15, 7#16, true⟩, by decide +kernel⟩,
    ⟨{ rig [] with err := { regionReset := [0, 6], faulted := [0, 6] } }, 6, by decide +kernel⟩,
    ⟨{ rig [(REP_STAT_ENGINE, Eng.fault), (DRAM_TSTAT_STATE, 3)] with err := { regionReset := [3], faulted := [3] } },
      3, by decide +kernel⟩,
    ⟨host Eng.ready 15 [], ⟨15, 7#16, true⟩, 160000#32, 1#8, by decide +kernel⟩,
    ⟨(host Eng.ready 15 [(PCTX_STATE_STATE 3, Px.armed), (PSQ_BUDGET_DRAM, 0), (PSQ_CPL_CPL, 262144)]).setCtx 3
      { demand := 5, seq := 1, bytes := 2000000, lines := 1 }, ⟨15, 7#16, true⟩, 1000#32, 1#8, 0, 6000,
      by decide +kernel⟩⟩

theorem witness_SheetCommands :
    (∃ (s : State) (e : Entry) (sid : BitVec 32) (lines : BitVec 32) (rep : BitVec 32) (mode : BitVec 8) (mask :
      BitVec 8) (pdt : BitVec 64) (ofs : BitVec 64) (c : Nat), accepted s e 0x20 (fun s => decide (2 ^
      s.part.stations ≤ mask.toNat)) (fun s => commitOk s ⟨sid.toNat, mode.toNat, mask.toNat, pdt.toNat,
      lines.toNat, rep.toNat, ofs.toNat⟩) = true ∧ anyCtx (fetchEntry e.q s) (fun c => armedLater (ctxState
      (fetchEntry e.q s) c) && (fetchEntry e.q s).g (PCTX_STATE_MODE c) != mode.toNat) = false ∧ freeContext s =
      some c) ∧
    (∃ (s : State) (e : Entry) (sid : BitVec 32) (lines : BitVec 32) (rep : BitVec 32) (mode : BitVec 8) (mask :
      BitVec 8) (pdt : BitVec 64) (ofs : BitVec 64), accepted s e 0x20 (fun s => decide (2 ^ s.part.stations ≤
      mask.toNat)) (fun s => commitOk s ⟨sid.toNat, mode.toNat, mask.toNat, pdt.toNat, lines.toNat, rep.toNat,
      ofs.toNat⟩) = true ∧ anyCtx (fetchEntry e.q s) (fun c => armedLater (ctxState (fetchEntry e.q s) c) &&
      (fetchEntry e.q s).g (PCTX_STATE_MODE c) != mode.toNat) = false ∧ freeContext s = none) ∧
    (∃ (s : State) (e : Entry) (sid : BitVec 32) (lines : BitVec 32) (rep : BitVec 32) (mode : BitVec 8) (mask :
      BitVec 8) (pdt : BitVec 64) (ofs : BitVec 64), accepted s e 0x20 (fun s => decide (2 ^ s.part.stations ≤
      mask.toNat)) (fun s => commitOk s ⟨sid.toNat, mode.toNat, mask.toNat, pdt.toNat, lines.toNat, rep.toNat,
      ofs.toNat⟩) = true ∧ anyCtx (fetchEntry e.q s) (fun c => armedLater (ctxState (fetchEntry e.q s) c) &&
      (fetchEntry e.q s).g (PCTX_STATE_MODE c) != mode.toNat) = true) ∧
    (∃ (s : State) (e : Entry) (sid : BitVec 32) (c : Nat), accepted s e 0x21 noUnit anyParam = true ∧ ctxOf s
      sid.toNat = some c ∧ ctxState s c = Px.armed ∧ c < 256) ∧
    (∃ (s : State) (e : Entry) (sid : BitVec 32) (c : Nat), accepted s e 0x21 noUnit anyParam = true ∧ ctxOf s
      sid.toNat = some c ∧ (ctxState s c = Px.loaded ∨ ctxState s c = Px.verifying) ∧ c < 256) ∧
    (∃ (s : State) (e : Entry) (sid : BitVec 32) (c : Nat), accepted s e 0x21 noUnit anyParam = true ∧ ctxOf s
      sid.toNat = some c ∧ (ctxState s c = Px.delivered ∧ deliveredNow s c = false ∨ ctxState s c = Px.spoiled) ∧
      c < 256) ∧
    (∃ (s : State) (e : Entry) (sid : BitVec 32) (c : Nat), accepted s e 0x21 noUnit anyParam = true ∧ ctxOf s
      sid.toNat = some c ∧ (ctxState s c = Px.feeding ∨ ctxState s c = Px.inPath ∨ ctxState s c = Px.imaging) ∧ c
      < 256) ∧
    (∃ (s : State) (e : Entry) (sid : BitVec 32) (c : Nat) (x : Nat), accepted s e 0x21 noUnit anyParam = true ∧
      ctxOf s sid.toNat = some c ∧ ctxState s c = Px.jammed ∧ c < 256 ∧ doneRing (fetchEntry e.q s) c = some x) ∧
    (∃ (s : State) (e : Entry) (sid : BitVec 32) (c : Nat), accepted s e 0x21 noUnit anyParam = true ∧ ctxOf s
      sid.toNat = some c ∧ ctxState s c = Px.jammed ∧ c < 256 ∧ doneRing (fetchEntry e.q s) c = none) ∧
    (∃ (s : State) (e : Entry) (sid : BitVec 32), accepted s e 0x21 noUnit anyParam = true ∧ ctxOf s sid.toNat =
      none) :=
  ⟨⟨host Eng.ready 15 [(PSQ_CPL_CPL, 262144)], ⟨15, 7#16, true⟩, 0, 262144#32, 0, 0, 0, 0, 0, 0,
      by decide +kernel⟩,
    ⟨{ host Eng.ready 15 [(PSQ_CPL_CPL, 262144)] with ctx := (List.range 256).map fun c => (c, { seq := c + 1 }) },
      ⟨15, 7#16, true⟩, 9#32, 1#32, 0, 0, 0, 0, 0, by decide +kernel⟩,
    ⟨(host Eng.ready 15 [(PSQ_CPL_CPL, 262144), (PCTX_STATE_STATE 3, Px.armed), (PCTX_STATE_MODE 3, 1),
      (PCTX_SHEET_SHEET_ID 3, 1)]).setCtx 3 { seq := 1 }, ⟨15, 7#16, true⟩, 9#32, 1#32, 0, 0, 0, 0, 0,
      by decide +kernel⟩,
    ⟨(host Eng.ready 15 [(PCTX_STATE_STATE 255, Px.armed), (PCTX_SHEET_SHEET_ID 255, 9)]).setCtx 255
      { demand := 7, seq := 1 }, ⟨15, 7#16, true⟩, 9#32, 255, by decide +kernel⟩,
    ⟨(host Eng.ready 15 [(PCTX_STATE_STATE 255, Px.verifying), (PCTX_SHEET_SHEET_ID 255, 9)]).setCtx 255
      { seq := 1 }, ⟨15, 7#16, true⟩, 9#32, 255, by decide +kernel⟩,
    ⟨(host Eng.ready 15 [(PCTX_STATE_STATE 255, Px.spoiled), (PCTX_SHEET_SHEET_ID 255, 9)]).setCtx 255
      { demand := 7, seq := 1 }, ⟨15, 7#16, true⟩, 9#32, 255, by decide +kernel⟩,
    ⟨(host Eng.printing 15 [(PCTX_STATE_STATE 255, Px.feeding), (PCTX_SHEET_SHEET_ID 255, 9)]).setCtx 255
      { demand := 7, seq := 1 }, ⟨15, 7#16, true⟩, 9#32, 255, by decide +kernel⟩,
    ⟨(host Eng.hardstop 15 [(PCTX_STATE_STATE 255, Px.jammed), (PCTX_STATE_CAUSE 255, Cause.interlock),
      (PCTX_SHEET_SHEET_ID 255, 9)]).setCtx 255 { pair := 15, seq := 1 }, ⟨15, 7#16, true⟩, 9#32, 255, 15,
      by decide +kernel⟩,
    ⟨(host Eng.hardstop 15 [(PCTX_STATE_STATE 255, Px.jammed), (PCTX_SHEET_SHEET_ID 255, 9)]).setCtx 255
      { pair := 14, seq := 1 }, ⟨15, 7#16, true⟩, 9#32, 255, by decide +kernel⟩,
    ⟨host Eng.ready 15 [], ⟨15, 7#16, true⟩, 9#32, by decide +kernel⟩⟩

theorem witness_StationCommands :
    (∃ (s : State) (e : Entry) (n : BitVec 8) (en : BitVec 8) (addr : BitVec 64) (g : Gen), accepted s e 0x30
      (stnAbsent n.toNat) (fun s => (stationGen s n.toNat en.toNat addr.toNat).isSome) = true ∧ stationGen
      (fetchEntry e.q s) n.toNat en.toNat addr.toNat = some g ∧ cfgBusy (fetchEntry e.q s) n.toNat en.toNat g =
      false ∧ (s.stnU n.toNat).held.length < 16) ∧
    (∃ (s : State) (e : Entry) (n : BitVec 8) (en : BitVec 8) (addr : BitVec 64) (g : Gen), accepted s e 0x30
      (stnAbsent n.toNat) (fun s => (stationGen s n.toNat en.toNat addr.toNat).isSome) = true ∧ stationGen
      (fetchEntry e.q s) n.toNat en.toNat addr.toNat = some g ∧ 16 ≤ (s.stnU n.toNat).held.length) ∧
    (∃ (s : State) (e : Entry) (n : BitVec 8) (em : BitVec 8) (st : BitVec 8) (hand : BitVec 8) (boost : BitVec
      32), accepted s e 0x31 (stnAbsent n.toNat) (fun s => emitterOk s n.toNat em.toNat st.toNat hand.toNat
      boost.toNat) = true ∧ emitterRules (fetchEntry e.q s) n.toNat em.toNat st.toNat hand.toNat boost.toNat =
      true ∧ (s.stnU n.toNat).held.length < 16 ∧ boost = 0#32) ∧
    (∃ (s : State) (e : Entry) (n : BitVec 8) (em : BitVec 8) (st : BitVec 8) (hand : BitVec 8) (boost : BitVec
      32), accepted s e 0x31 (stnAbsent n.toNat) (fun s => emitterOk s n.toNat em.toNat st.toNat hand.toNat
      boost.toNat) = true ∧ emitterRules (fetchEntry e.q s) n.toNat em.toNat st.toNat hand.toNat boost.toNat =
      false) ∧
    (∃ (s : State) (e : Entry) (n : BitVec 8) (mode : BitVec 8) (phase : BitVec 8) (line : BitVec 32) (pixel :
      BitVec 32) (mag : BitVec 32), accepted s e 0x32 (stnAbsent n.toNat) (fun s => adjustOk s n.toNat mode.toNat
      line.toInt pixel.toInt phase.toInt mag.toInt) = true) ∧
    (∃ (s : State) (e : Entry) (op : BitVec 8) (fl : BitVec 8) (src : BitVec 64) (dst : BitVec 64) (sl : BitVec
      32) (dl : BitVec 32) (j : Job) (data : List (BitVec 8)), accepted s e 0x50 (fun s => decide (op.toNat ≤ 1)
      && decide (s.part = .mlv9040)) (fun s => jobOk s j) = true ∧ j =
      { q := e.q, cid := e.cid.toNat, op := 0x50, mode := op.toNat, flags := fl.toNat, src := src.toNat,
        srcLen := sl.toNat, dst := dst.toNat, dstLen := dl.toNat,
        data := if bitsOf fl.toNat 0 1 = 1 then some (hostBytes data sl.toNat) else none } ∧ op = 2#8) ∧
    (∃ (s : State) (e : Entry) (op : BitVec 8) (fl : BitVec 8) (src : BitVec 64) (dst : BitVec 64) (sl : BitVec
      32) (dl : BitVec 32) (j : Job) (data : List (BitVec 8)), accepted s e 0x50 (fun s => decide (op.toNat ≤ 1)
      && decide (s.part = .mlv9040)) (fun s => jobOk s j) = true ∧ j =
      { q := e.q, cid := e.cid.toNat, op := 0x50, mode := op.toNat, flags := fl.toNat, src := src.toNat,
        srcLen := sl.toNat, dst := dst.toNat, dstLen := dl.toNat,
        data := if bitsOf fl.toNat 0 1 = 1 then some (hostBytes data sl.toNat) else none } ∧ (op = 0#8 ∨ op = 1#8
      ∧ [Eng.standby, Eng.warmup, Eng.hardstop, Eng.furled, Eng.fault].contains s.engine = true) ∧ cmpFull s =
      false) ∧
    (∃ (s : State) (e : Entry) (op : BitVec 8) (fl : BitVec 8) (src : BitVec 64) (dst : BitVec 64) (sl : BitVec
      32) (dl : BitVec 32) (j : Job) (data : List (BitVec 8)), accepted s e 0x50 (fun s => decide (op.toNat ≤ 1)
      && decide (s.part = .mlv9040)) (fun s => jobOk s j) = true ∧ j =
      { q := e.q, cid := e.cid.toNat, op := 0x50, mode := op.toNat, flags := fl.toNat, src := src.toNat,
        srcLen := sl.toNat, dst := dst.toNat, dstLen := dl.toNat,
        data := if bitsOf fl.toNat 0 1 = 1 then some (hostBytes data sl.toNat) else none } ∧ op = 1#8 ∧
      [Eng.standby, Eng.warmup, Eng.hardstop, Eng.furled, Eng.fault].contains s.engine = false) :=
  ⟨⟨host Eng.standby 15 [], ⟨15, 7#16, true⟩, 7#8, 0#8, 0, {}, by decide +kernel⟩,
    ⟨(host Eng.standby 15 []).setStn 7 { held := List.replicate 16 {} }, ⟨15, 7#16, true⟩, 7#8, 0#8, 0, {},
      by decide +kernel⟩,
    ⟨(host Eng.standby 15 []).setStn 7 { newest := { num := 1 } }, ⟨15, 7#16, true⟩, 7#8, 39#8, 1#8, 0, 0,
      by decide +kernel⟩,
    ⟨poke [(REP_STAT_VERSION, 0x100)] ((host Eng.standby 15 []).setStn 7 { newest := { num := 1 } }), ⟨15, 7#16,
      true⟩, 7#8, 39#8, 1#8, 0, 0x40000#32, by decide +kernel⟩,
    ⟨host Eng.standby 15 [], ⟨15, 7#16, true⟩, 7#8, 1#8, 63#8, 255#32, 0xFFFFF000#32, 0, by decide +kernel⟩,
    ⟨{ host Eng.standby 15 [] with part := .mlv9040 }, ⟨15, 7#16, true⟩, 2#8, 3#8, 0, 0, 1#32, 1#32,
      { q := 15, cid := 7, op := 0x50, mode := 2, flags := 3, src := 0, srcLen := 1, dst := 0, dstLen := 1,
        data := some [1] }, [1], by decide +kernel⟩,
    ⟨host Eng.printing 15 [], ⟨15, 7#16, true⟩, 0#8, 3#8, 0, 0, 1#32, 1#32,
      { q := 15, cid := 7, op := 0x50, mode := 0, flags := 3, src := 0, srcLen := 1, dst := 0, dstLen := 1,
        data := some [1] }, [1], by decide +kernel⟩,
    ⟨host Eng.printing 15 [], ⟨15, 7#16, true⟩, 1#8, 3#8, 0, 0, 1#32, 1#32,
      { q := 15, cid := 7, op := 0x50, mode := 1, flags := 3, src := 0, srcLen := 1, dst := 0, dstLen := 1,
        data := some [1] }, [1], by decide +kernel⟩⟩

theorem witness_LinePartners :
    (∃ (s : State) (m : ReplMsg) (lo : BitVec 16) (hi : BitVec 16) (x : Nat), s.dead = false ∧ replPort s m = true
      ∧ m.clean = true ∧ m.cid ≠ 0xFFFF#16 ∧ s.host.repl.length < 8 ∧ repChoose lo.toNat hi.toNat = some x) ∧
    (∃ (s : State) (m : ReplMsg) (r : Repl), s.dead = false ∧ replPort s m = true ∧ m.clean = true ∧ m.cid ≠
      0xFFFF#16 ∧ 0x0100 ≤ r.version ∧ replOf s m = some r ∧ s.host.repl.find? (fun x => x.num == r.num) = some r)
      ∧
    (∃ (s : State) (m : ReplMsg) (r : Repl) (cls : BitVec 8), s.dead = false ∧ replPort s m = true ∧ m.clean =
      true ∧ m.cid ≠ 0xFFFF#16 ∧ 0x0100 ≤ r.version ∧ cls = 1#8 ∧ replOf s m = some r ∧ s.host.repl.find? (fun x
      => x.num == r.num) = some r) ∧
    (∃ (s : State) (m : ReplMsg) (r : Repl) (kind : BitVec 8), s.dead = false ∧ replPort s m = true ∧ m.clean =
      true ∧ m.cid ≠ 0xFFFF#16 ∧ 0x0200 ≤ r.version ∧ kind = 1#8 ∧ replOf s m = some r ∧ s.host.repl.find? (fun x
      => x.num == r.num) = some r) ∧
    (∃ (s : State) (m : ReplMsg) (r : Repl) (op : BitVec 8), s.dead = false ∧ replPort s m = true ∧ [0x01, 0x02,
      0x03, 0x05].contains op.toNat = false ∧ replOf s m = some r ∧ s.host.repl.find? (fun x => x.num == r.num) =
      some r) ∧
    (∃ (s : State) (m : ReplMsg) (r : Repl), s.dead = false ∧ replPort s m = true ∧ replOf s m = some r ∧
      s.host.repl.find? (fun x => x.num == r.num) = some r) ∧
    (∃ (s : State) (r : Repl) (num : BitVec 16) (seq : BitVec 32) (w : Notif), s.dead = false ∧ s.host.repl.find?
      (fun r => r.num == num.toNat) = some r ∧ r.waiting.find? (fun w => w.seq == seq.toNat) = some w ∧ w.sent ≤ 8
      ∧ portUp s r.port = true) ∧
    (∃ (s : State) (r : Repl) (num : BitVec 16) (seq : BitVec 32) (w : Notif), s.dead = false ∧ s.host.repl.find?
      (fun r => r.num == num.toNat) = some r ∧ r.waiting.find? (fun w => w.seq == seq.toNat) = some w ∧ 8 <
      w.sent) ∧
    (∃ (s : State), Reaches s REPL_CTRL ∧ s.part.eth = 2) :=
  ⟨⟨{ rig [(ETH_CFG_MODE 1, 1), (ETH_STAT_LINK 1, 1), (REPL_CTRL_EN_ETH1, 1)] with host := { repl := [{ num := 8, port := 1, mac := 2, ip := 3, version := 0x200, seq := 4, rx := 5, waiting := [⟨1, [], 1⟩, ⟨2, [], 1⟩] }] } },
      ⟨1, 2, 3, 8, 6, 1, 7, true, false⟩, 0, 0xFFFF#16, 0x200, by decide +kernel⟩,
    ⟨{ rig [(ETH_CFG_MODE 1, 1), (ETH_STAT_LINK 1, 1), (REPL_CTRL_EN_ETH1, 1)] with host := { repl := [{ num := 8, port := 1, mac := 2, ip := 3, version := 0x200, seq := 4, rx := 5, waiting := [⟨1, [], 1⟩, ⟨2, [], 1⟩] }] } },
      ⟨1, 2, 3, 8, 6, 1, 7, true, false⟩,
      { num := 8, port := 1, mac := 2, ip := 3, version := 0x200, seq := 4, rx := 5,
        waiting := [⟨1, [], 1⟩, ⟨2, [], 1⟩] }, by decide +kernel⟩,
    ⟨{ rig [(ETH_CFG_MODE 1, 1), (ETH_STAT_LINK 1, 1), (REPL_CTRL_EN_ETH1, 1)] with host := { repl := [{ num := 8, port := 1, mac := 2, ip := 3, version := 0x200, seq := 4, rx := 5, waiting := [⟨1, [], 1⟩, ⟨2, [], 1⟩] }] } },
      ⟨1, 2, 3, 8, 6, 1, 7, true, false⟩,
      { num := 8, port := 1, mac := 2, ip := 3, version := 0x200, seq := 4, rx := 5,
        waiting := [⟨1, [], 1⟩, ⟨2, [], 1⟩] }, 1#8, by decide +kernel⟩,
    ⟨{ rig [(ETH_CFG_MODE 1, 1), (ETH_STAT_LINK 1, 1), (REPL_CTRL_EN_ETH1, 1)] with host := { repl := [{ num := 8, port := 1, mac := 2, ip := 3, version := 0x200, seq := 4, rx := 5, waiting := [⟨1, [], 1⟩, ⟨2, [], 1⟩] }] } },
      ⟨1, 2, 3, 8, 6, 1, 7, true, false⟩,
      { num := 8, port := 1, mac := 2, ip := 3, version := 0x200, seq := 4, rx := 5,
        waiting := [⟨1, [], 1⟩, ⟨2, [], 1⟩] }, 1#8, by decide +kernel⟩,
    ⟨{ rig [(ETH_CFG_MODE 1, 1), (ETH_STAT_LINK 1, 1), (REPL_CTRL_EN_ETH1, 1)] with host := { repl := [{ num := 8, port := 1, mac := 2, ip := 3, version := 0x200, seq := 4, rx := 5, waiting := [⟨1, [], 1⟩, ⟨2, [], 1⟩] }] } },
      ⟨1, 2, 3, 8, 6, 1, 7, true, false⟩,
      { num := 8, port := 1, mac := 2, ip := 3, version := 0x200, seq := 4, rx := 5,
        waiting := [⟨1, [], 1⟩, ⟨2, [], 1⟩] }, 0x20#8, by decide +kernel⟩,
    ⟨{ rig [(ETH_CFG_MODE 1, 1), (ETH_STAT_LINK 1, 1), (REPL_CTRL_EN_ETH1, 1)] with host := { repl := [{ num := 8, port := 1, mac := 2, ip := 3, version := 0x200, seq := 4, rx := 5, waiting := [⟨1, [], 1⟩, ⟨2, [], 1⟩] }] } },
      ⟨1, 2, 3, 8, 6, 1, 7, true, false⟩,
      { num := 8, port := 1, mac := 2, ip := 3, version := 0x200, seq := 4, rx := 5,
        waiting := [⟨1, [], 1⟩, ⟨2, [], 1⟩] }, by decide +kernel⟩,
    ⟨{ rig [(ETH_CFG_MODE 1, 1), (ETH_STAT_LINK 1, 1), (REPL_CTRL_EN_ETH1, 1)] with host := { repl := [{ num := 8, port := 1, mac := 2, ip := 3, version := 0x200, seq := 4, rx := 5, waiting := [⟨1, [], 1⟩, ⟨2, [], 1⟩] }] } },
      { num := 8, port := 1, mac := 2, ip := 3, version := 0x200, seq := 4, rx := 5,
        waiting := [⟨1, [], 1⟩, ⟨2, [], 1⟩] }, 8#16, 2#32, ⟨2, [], 1⟩, by decide +kernel⟩,
    ⟨{ rig [] with host := { repl := [{ num := 8, port := 1, mac := 2, ip := 3, version := 0x200, waiting := [⟨2, [], 9⟩] }] } },
      { num := 8, port := 1, mac := 2, ip := 3, version := 0x200, waiting := [⟨2, [], 9⟩] }, 8#16, 2#32, ⟨2, [],
      9⟩, by decide +kernel⟩,
    ⟨{ rig [(ETH_CFG_MODE 1, 1), (ETH_STAT_LINK 1, 1), (REPL_CTRL_EN_ETH1, 1)] with host := { repl := [{ num := 8, port := 1, mac := 2, ip := 3, version := 0x200, seq := 4, rx := 5, waiting := [⟨1, [], 1⟩, ⟨2, [], 1⟩] }] } },
      by decide +kernel⟩⟩

theorem witness_VerifyPassAndCodecJobs :
    (∃ (s : State) (n : Fin 8) (i : VItem) (r : List VItem), s.dead = false ∧ bankGet none s.codec.vdec n = none ∧
      s.codec.queue = i :: r) ∧
    (∃ (s : State) (n : Fin 8) (b : BandId) (x : List (BitVec 8)), s.dead = false ∧ bankGet none s.codec.vdec n =
      some (.band b) ∧ (decodeBand b s).1.toOption = some x ∧ (s.ctxU b.ctx).failed = none ∧ (decodeBand b s).2 =
      s) ∧
    (∃ (s : State) (c : Fin 256), s.dead = false ∧ ctxState s c = Px.verifying ∧ (s.ctxU c).unverified = 0 ∧
      (s.ctxU c).failed = none ∧ (anyCtx s fun x => decide ((s.ctxU x).seq < (s.ctxU c).seq) && (ctxState s x ==
      Px.loaded || ctxState s x == Px.verifying)) = false ∧ admitFail s (stnDemands s c (s.g PSQ_SPEED_RATE))
      (demandOf s (s.ctxU c) (s.g PSQ_SPEED_RATE)) (s.g PSQ_DEMAND_MBS) = none) ∧
    (∃ (s : State) (c : Fin 256) (bud : Nat) (dem : Nat), s.dead = false ∧ ctxState s c = Px.verifying ∧ (s.ctxU
      c).unverified = 0 ∧ (s.ctxU c).failed = none ∧ (anyCtx s fun x => decide ((s.ctxU x).seq < (s.ctxU c).seq)
      && (ctxState s x == Px.loaded || ctxState s x == Px.verifying)) = false ∧ (admitFail s (stnDemands s c (s.g
      PSQ_SPEED_RATE)) (demandOf s (s.ctxU c) (s.g PSQ_SPEED_RATE)) (s.g PSQ_DEMAND_MBS)) = some (bud, dem)) ∧
    (∃ (s : State) (n : Fin 8) (j : Job), s.dead = false ∧ bankGet none s.codec.vdec n = some (.job j)) ∧
    (∃ (s : State) (n : Fin 8) (x : List (BitVec 8)) (j : Job), s.dead = false ∧ bankGet none s.codec.vdec n =
      some (.job j) ∧ Inflate.job (jobSource j (jobRead j s)).1 j.srcLen j.dstLen = .ok x ∧ x.length < 2 ^ 64 ∧
      (j.data.isSome = true ∨ s.dram.ue = [] ∧ s.dram.weak = []) ∧ s.pairOn j.q = true ∧ s.cqFull j.q = false ∧
      (s.qpU j.q).held = []) ∧
    (∃ (s : State) (j : Job) (r2 : List Job), s.dead = false ∧ s.codec.cmpRun = none ∧ s.codec.cmpWait = j :: r2 ∧
      reef1 s = false) ∧
    (∃ (s : State), s.dead = false ∧ reef1 s = true ∧ s.codec.cmpRun.isSome = true) ∧
    (∃ (s : State) (j : Job), s.dead = false ∧ s.codec.cmpRun = some j ∧ s.on CMP_STAT_PAUSED = false ∧ (j.op =
      0x41 ∨ j.op = 0x50)) ∧
    (∃ (s : State) (j : Job), s.dead = false ∧ s.codec.cmpRun = some j ∧ s.on CMP_STAT_PAUSED = false ∧ j.op =
      0x50 ∧ (j.data.isSome = true ∨ s.dram.ue = [] ∧ s.dram.weak = []) ∧ s.pairOn j.q = true ∧ s.cqFull j.q =
      false ∧ (s.qpU j.q).held = []) :=
  ⟨⟨{ rig [] with codec := { queue := [.band ⟨255, 7, 1, 2⟩] } }, 7, .band ⟨255, 7, 1, 2⟩, [], by decide +kernel⟩,
    ⟨{ rig [(PCTX_STATE_STATE 255, Px.verifying), (PSQ_BUDGET_DEC, 3000), (PSQ_BUDGET_DRAM, 100)] with ctx := [(255, { cid := 3, lines := 1, unverified := 1, inDec := 1, planes := [{ kind := 2, width := 32, tg := [(0, 33)] }] })], mem := memWrite [] 0 sampleBand, codec := { vdec := [(7, some (.band ⟨255, 0, 1, 0⟩))] } },
      7, ⟨255, 0, 1, 0⟩, [0, 0, 0, 0], by decide +kernel⟩,
    ⟨(poke [(PCTX_STATE_STATE 255, Px.verifying), (PSQ_BUDGET_DEC, 3000), (PSQ_BUDGET_DRAM, 100)] (host 1 15
      [])).setCtx 255 { open_ := true, pair := 15, seq := 1 }, 255, by decide +kernel⟩,
    ⟨(poke [(PCTX_STATE_STATE 255, Px.verifying), (PSQ_BUDGET_DEC, 3000), (PSQ_BUDGET_DRAM, 0), (PSQ_DEMAND_MBS,
      1)] (host 1 15 [])).setCtx 255 { open_ := true, pair := 15, seq := 1 }, 255, 0, 1, by decide +kernel⟩,
    ⟨{ host 1 15 [] with codec := { vdec := [(7, some (.job { q := 15, cid := 7, op := 0x50, mode := 2, flags := 3, src := 0, srcLen := 17, dst := 64, dstLen := 4, data := some (sampleBand.drop 16) }))] } },
      7,
      { q := 15, cid := 7, op := 0x50, mode := 2, flags := 3, src := 0, srcLen := 17, dst := 64, dstLen := 4,
        data := some (sampleBand.drop 16) }, by decide +kernel⟩,
    ⟨{ host 1 15 [] with codec := { vdec := [(7, some (.job { q := 15, cid := 7, op := 0x50, mode := 2, flags := 3, src := 0, srcLen := 17, dst := 64, dstLen := 4, data := some ([1, 4, 0, 0xFB, 0xFF, 0, 0, 0, 0] ++ leBytes 4 (crc32c [0, 0, 0, 0]).toNat ++ leBytes 4 4) }))] } },
      7, [0, 0, 0, 0],
      { q := 15, cid := 7, op := 0x50, mode := 2, flags := 3, src := 0, srcLen := 17, dst := 64, dstLen := 4,
        data := some ([1, 4, 0, 0xFB, 0xFF, 0, 0, 0, 0] ++ leBytes 4 (crc32c [0, 0, 0, 0]).toNat ++ leBytes 4 4) },
      by decide +kernel⟩,
    ⟨{ host 1 15 [] with codec := { cmpWait := [{ q := 15, cid := 7, op := 0x50, mode := 0, flags := 3, src := 0, srcLen := 1, dst := 64, dstLen := 4, data := some [9] }] } },
      { q := 15, cid := 7, op := 0x50, mode := 0, flags := 3, src := 0, srcLen := 1, dst := 64, dstLen := 4,
        data := some [9] }, [], by decide +kernel⟩,
    ⟨{ rig [(THM_TJ_REEF, 1)] with codec := { cmpRun := some { q := 15, cid := 7, op := 0x50, mode := 0, flags := 3, src := 0, srcLen := 1, dst := 64, dstLen := 4, data := some [9] } } },
      by decide +kernel⟩,
    ⟨{ host 1 15 [] with codec := { cmpRun := some { q := 15, cid := 7, op := 0x50, mode := 0, flags := 3, src := 0, srcLen := 1, dst := 64, dstLen := 4, data := some [9] } } },
      { q := 15, cid := 7, op := 0x50, mode := 0, flags := 3, src := 0, srcLen := 1, dst := 64, dstLen := 4,
        data := some [9] }, by decide +kernel⟩,
    ⟨{ host 1 15 [] with codec := { cmpRun := some { q := 15, cid := 7, op := 0x50, mode := 0, flags := 3, src := 0, srcLen := 1, dst := 64, dstLen := 4, data := some [9] } } },
      { q := 15, cid := 7, op := 0x50, mode := 0, flags := 3, src := 0, srcLen := 1, dst := 64, dstLen := 4,
        data := some [9] }, by decide +kernel⟩⟩

theorem witness_CameraStreams :
    (∃ (s : State) (e : Entry) (k : BitVec 8) (mbx : BitVec 8) (addr : BitVec 64), accepted s e 0x40 (cameraAbsent
      addr.toNat) (fun s => cameraOk s k.toNat mbx.toNat addr.toNat) = true ∧ (rebinds (newestGen (strU s
      k.toNat)) (blockGen (memTaken (fetchEntry e.q s)) (settingsAt (fetchEntry e.q s) addr.toNat) (genNext
      (newestGen (strU s k.toNat)).num) e.q mbx.toNat) = false ∨ streamBusy s k.toNat = false)) ∧
    (∃ (s : State) (e : Entry) (k : BitVec 8) (mbx : BitVec 8) (addr : BitVec 64), accepted s e 0x40 (cameraAbsent
      addr.toNat) (fun s => cameraOk s k.toNat mbx.toNat addr.toNat) = true ∧ streamBusy s k.toNat = false ∧
      rebinds (newestGen (strU s k.toNat)) (blockGen (memTaken (fetchEntry e.q s)) (settingsAt (fetchEntry e.q s)
      addr.toNat) (genNext (newestGen (strU s k.toNat)).num) e.q mbx.toNat) = true) ∧
    (∃ (s : State) (e : Entry) (k : BitVec 8) (mbx : BitVec 8) (addr : BitVec 64), accepted s e 0x40 (cameraAbsent
      addr.toNat) (fun s => cameraOk s k.toNat mbx.toNat addr.toNat) = true ∧ streamBusy s k.toNat = true ∧
      rebinds (newestGen (strU s k.toNat)) (blockGen (memTaken (fetchEntry e.q s)) (settingsAt (fetchEntry e.q s)
      addr.toNat) (genNext (newestGen (strU s k.toNat)).num) e.q mbx.toNat) = true) ∧
    (∃ (s : State) (bus : Fin 4) (j : CciJob), s.dead = false ∧ s.vis.cci.find? (fun j => j.gen.bus == bus.val &&
      j.started) = some j) ∧
    (∃ (s : State) (p : Fin 4) (vc : Fin 16) (st : Fin 16), s.dead = false ∧ portOn s p = true ∧ streamsOn s p vc
      = [st.val]) ∧
    (∃ (s : State) (p : Fin 4) (vc : Fin 16) (st : Fin 16) (pg : PendGen), s.dead = false ∧ portOn s p = true ∧
      streamsOn s p vc = [st.val] ∧ (strU s st).rx = none ∧ (strU s st).pend = [pg] ∧ pg.sent = true ∧ pg.written
      + 1 + pg.gen.latency ≤ (strU s st).count + 1) ∧
    (∃ (s : State) (p : Fin 4) (vc : Fin 16) (st : Fin 16) (pg : PendGen), s.dead = false ∧ portOn s p = true ∧
      streamsOn s p vc = [st.val] ∧ (strU s st).rx = none ∧ (strU s st).pend = [pg] ∧ (strU s st).count + 1 <
      pg.written + 1 + pg.gen.latency ∧ (pg.sent = true ∨ (strU s st).count < pg.written)) ∧
    (∃ (s : State) (p : Fin 4) (vc : Fin 16) (st : Fin 16) (pg : PendGen), s.dead = false ∧ portOn s p = true ∧
      streamsOn s p vc = [st.val] ∧ (strU s st).rx = none ∧ (strU s st).pend = [pg] ∧ pg.sent = false ∧ pg.written
      ≤ (strU s st).count) ∧
    (∃ (s : State) (p : Fin 4) (vc : Fin 16) (st : Fin 16) (f : Frame) (dt : BitVec 6), s.dead = false ∧ portOn s
      p = true ∧ streamsOn s p vc = [st.val] ∧ (newestGen (strU s st)).dt = dt.toNat ∧ streamDt dt.toNat = true ∧
      (strU s st).rx = some f) ∧
    (∃ (s : State) (p : Fin 4), s.dead = false ∧ portOn s p = true) ∧
    (∃ (s : State) (p : Fin 4) (vc : Fin 16) (st : Fin 16) (j : CciJob) (pg : PendGen) (f : Frame), s.dead = false
      ∧ portOn s p = true ∧ streamsOn s p vc = [st.val] ∧ (strU s st).rx = some f ∧ (strU s st).pend = [pg] ∧
      pg.written ≤ (strU s st).count ∧ s.vis.cci = [j] ∧ j.stream = st.val ∧ j.gen = pg.gen ∧ j.gen.cci ≠ [] ∧
      j.started = false ∧ j.gen.bus < 4) ∧
    (∃ (s : State) (p : Fin 4) (vc : Fin 16) (st : Fin 16) (f : Frame), s.dead = false ∧ portOn s p = true ∧
      streamsOn s p vc = [st.val] ∧ (strU s st).rx = some f) :=
  ⟨⟨{ host 1 15 [(DRAM_CFG_INSTALLED, 1)] with mem := [(2, 0x2A), (4, 16), (6, 16), (0x58, 1)], vis := { streams := [(15, { cur := { num := 7, dt := 0x2A } })] } },
      ⟨15, 7#16, true⟩, 15#8, 255#8, 0, by decide +kernel⟩,
    ⟨{ host 1 15 [(DRAM_CFG_INSTALLED, 1)] with mem := [(2, 0x2A), (4, 16), (6, 16), (0x58, 1)] }, ⟨15, 7#16,
      true⟩, 15#8, 255#8, 0, by decide +kernel⟩,
    ⟨{ host 1 15 [(DRAM_CFG_INSTALLED, 1)] with mem := [(2, 0x2A), (4, 16), (6, 16), (0x58, 1)], vis := { queue := [(3, [(15, 1)])] } },
      ⟨15, 7#16, true⟩, 15#8, 255#8, 0, by decide +kernel⟩,
    ⟨{ rig [] with vis := { streams := [(0, { pend := [{ gen := { num := 5, bus := 3 }, written := 0 }] })], cci := [⟨0, { num := 5, bus := 3 }, true, true⟩] } },
      3, ⟨0, { num := 5, bus := 3 }, true, true⟩, by decide +kernel⟩,
    ⟨{ rig [(VIS_CSI_CFG_LANES 3, 1)] with rig := { pins := [(0x20, 3, 0), (0x20, 3, 1), (0x20, 3, 2), (0x20, 3, 3)] }, vis := { streams := [(15, { cur := { num := 1, port := 3, vc := 15, dt := 0x2A, path := 2, width := 16, height := 16 } })] } },
      3, 15, 15, by decide +kernel⟩,
    ⟨{ rig [(VIS_CSI_CFG_LANES 3, 1)] with rig := { pins := [(0x20, 3, 0), (0x20, 3, 1), (0x20, 3, 2), (0x20, 3, 3)] }, vis := { streams := [(15, { cur := { num := 1, port := 3, vc := 15, dt := 0x2A, path := 2, width := 16, height := 16 }, count := 3, pend := [{ gen := { num := 2, port := 3, vc := 15, dt := 0x2A, path := 2, width := 16, height := 16, latency := 0, cci := [(5, 1, 6)] }, written := 2, sent := true }] })] } },
      3, 15, 15,
      { gen := { num := 2, port := 3, vc := 15, dt := 0x2A, path := 2, width := 16, height := 16, latency := 0, cci := [(5, 1, 6)] },
        written := 2, sent := true }, by decide +kernel⟩,
    ⟨{ rig [(VIS_CSI_CFG_LANES 3, 1)] with rig := { pins := [(0x20, 3, 0), (0x20, 3, 1), (0x20, 3, 2), (0x20, 3, 3)] }, vis := { streams := [(15, { cur := { num := 1, port := 3, vc := 15, dt := 0x2A, path := 2, width := 16, height := 16 }, count := 1, pend := [{ gen := { num := 2, port := 3, vc := 15, dt := 0x2A, path := 2, width := 16, height := 16, latency := 0, cci := [(5, 1, 6)] }, written := 2, sent := true }] })] } },
      3, 15, 15,
      { gen := { num := 2, port := 3, vc := 15, dt := 0x2A, path := 2, width := 16, height := 16, latency := 0, cci := [(5, 1, 6)] },
        written := 2, sent := true }, by decide +kernel⟩,
    ⟨{ rig [(VIS_CSI_CFG_LANES 3, 1)] with rig := { pins := [(0x20, 3, 0), (0x20, 3, 1), (0x20, 3, 2), (0x20, 3, 3)] }, vis := { streams := [(15, { cur := { num := 1, port := 3, vc := 15, dt := 0x2A, path := 2, width := 16, height := 16 }, count := 3, pend := [{ gen := { num := 2, port := 3, vc := 15, dt := 0x2A, path := 2, width := 16, height := 16, latency := 0, cci := [(5, 1, 6)] }, written := 2, sent := false }] })] } },
      3, 15, 15,
      { gen := { num := 2, port := 3, vc := 15, dt := 0x2A, path := 2, width := 16, height := 16, latency := 0, cci := [(5, 1, 6)] },
        written := 2, sent := false }, by decide +kernel⟩,
    ⟨{ rig [(VIS_CSI_CFG_LANES 3, 1)] with rig := { pins := [(0x20, 3, 0), (0x20, 3, 1), (0x20, 3, 2), (0x20, 3, 3)] }, vis := { streams := [(15, { cur := { num := 1, port := 3, vc := 15, dt := 0x2A, path := 2, width := 16, height := 16 }, rx := some { stream := 15, count := 1, gen := { num := 1, port := 3, vc := 15, dt := 0x2A, path := 2, width := 16, height := 16 }, start := {} } })] } },
      3, 15, 15,
      { stream := 15, count := 1,
        gen := { num := 1, port := 3, vc := 15, dt := 0x2A, path := 2, width := 16, height := 16 },
        start := {} }, 0x2A#6, by decide +kernel⟩,
    ⟨{ rig [(VIS_CSI_CFG_LANES 3, 1)] with rig := { pins := [(0x20, 3, 0), (0x20, 3, 1), (0x20, 3, 2), (0x20, 3, 3)] }, vis := {} },
      3, by decide +kernel⟩,
    ⟨{ rig [(VIS_CSI_CFG_LANES 3, 1)] with rig := { pins := [(0x20, 3, 0), (0x20, 3, 1), (0x20, 3, 2), (0x20, 3, 3)] }, vis := { streams := [(15, { cur := { num := 1, port := 3, vc := 15, dt := 0x2A, path := 2, width := 16, height := 16 }, count := 3, pend := [{ gen := { num := 2, port := 3, vc := 15, dt := 0x2A, path := 2, width := 16, height := 16, latency := 0, cci := [(5, 1, 6)] }, written := 2, sent := false }], rx := some { stream := 15, count := 1, gen := { num := 1, port := 3, vc := 15, dt := 0x2A, path := 2, width := 16, height := 16 }, start := {} } })], cci := [⟨15, { num := 2, port := 3, vc := 15, dt := 0x2A, path := 2, width := 16, height := 16, latency := 0, cci := [(5, 1, 6)] }, false, false⟩] } },
      3, 15, 15, ⟨15,
      { num := 2, port := 3, vc := 15, dt := 0x2A, path := 2, width := 16, height := 16, latency := 0,
        cci := [(5, 1, 6)] }, false, false⟩,
      { gen := { num := 2, port := 3, vc := 15, dt := 0x2A, path := 2, width := 16, height := 16, latency := 0, cci := [(5, 1, 6)] },
        written := 2, sent := false },
      { stream := 15, count := 1,
        gen := { num := 1, port := 3, vc := 15, dt := 0x2A, path := 2, width := 16, height := 16 },
        start := {} }, by decide +kernel⟩,
    ⟨{ rig [(VIS_CSI_CFG_LANES 3, 1)] with rig := { pins := [(0x20, 3, 0), (0x20, 3, 1), (0x20, 3, 2), (0x20, 3, 3)] }, vis := { streams := [(15, { cur := { num := 1, port := 3, vc := 15, dt := 0x2A, path := 2, width := 16, height := 16 }, rx := some { stream := 15, count := 1, gen := { num := 1, port := 3, vc := 15, dt := 0x2A, path := 2, width := 16, height := 16 }, start := {} } })] } },
      3, 15, 15,
      { stream := 15, count := 1,
        gen := { num := 1, port := 3, vc := 15, dt := 0x2A, path := 2, width := 16, height := 16 },
        start := {} }, by decide +kernel⟩⟩

theorem witness_FramesAndRegistration :
    (∃ (s : State) (e : Entry) (k : BitVec 8) (tag : BitVec 32) (cb : Bool), accepted s e 0x41 (fun s => s.part ==
      .mlv9040) (fun s => uploadOk s k.toNat tag.toNat) = true ∧ tag = 0#32 ∧ (cb = false ∨ cmpFull s = false)) ∧
    (∃ (s : State) (e : Entry) (k : BitVec 8) (tag : BitVec 32) (cb : Bool), accepted s e 0x41 (fun s => s.part ==
      .mlv9040) (fun s => uploadOk s k.toNat tag.toNat) = true ∧ tag ≠ 0#32 ∧ cb = false) ∧
    (∃ (s : State) (e : Entry) (k : BitVec 8) (tag : BitVec 32) (cb : Bool), accepted s e 0x41 (fun s => s.part ==
      .mlv9040) (fun s => uploadOk s k.toNat tag.toNat) = true ∧ cb = true ∧ cmpFull s = true) ∧
    (∃ (s : State) (e : Entry) (j : Job), s.dead = false ∧ s.vis.ups.find? (fun j => j.q == e.q.val && j.cid ==
      e.cid.toNat) = some j ∧ j.srcLen ≤ j.dstLen ∧ s.dram.ue = [] ∧ s.dram.weak = [] ∧ s.pairOn e.q = true ∧
      s.cqFull e.q = false ∧ (s.qpU e.q).held = []) ∧
    (∃ (s : State) (c : Fin 256) (st : Fin 16), s.dead = false ∧ s.part ≠ .mlv9040 ∧ camTracked s c = true ∧
      camPos s st ≠ 0 ∧ bitsOf (s.ctxU c).camd st 1 = 0 ∧ crossed s (originOf s c + camPos s st) = true) ∧
    (∃ (s : State) (p : Fin 4) (x : Nat × Nat) (r : List (Nat × Nat)) (f : Frame), s.dead = false ∧ bankGet []
      s.vis.queue p = x :: r ∧ s.vis.held.find? (fun f => f.stream == x.1 && f.count == x.2) = some f ∧ s.vis.run
      = none ∧ inlineBusy s = false ∧ s.on VIS_STAT_PAUSED = false) ∧
    (∃ (s : State) (f : Frame), s.dead = false ∧ s.vis.run = some f ∧ (s.on VIS_STAT_PAUSED = false ∨
      s.vis.lastTile = true) ∧ f.gen.resCount ≠ 0 ∧ f.stream < 16 ∧ s.dram.ue = [] ∧ s.dram.weak = []) ∧
    (∃ (s : State), s.dead = false ∧ s.on VIS_STAT_PAUSED = true ∧ s.vis.lastTile = false) ∧
    (∃ (s : State) (f : Frame), s.dead = false ∧ s.vis.held.find? (fun f => f.gen.path == 2) = some f ∧
      f.gen.resCount ≠ 0 ∧ f.stream < 16 ∧ s.dram.ue = [] ∧ s.dram.weak = []) ∧
    (∃ (s : State) (n : Fin 8), s.dead = false ∧ s.vis.stopped = false ∧ bitsOf (s.g VIS_REG_CTRL_AUTO) n 1 = 1 ∧
      navg s ≤ (bankGet [] s.vis.acc n).length) ∧
    (∃ (s : State) (num : Int) (den : Int), s.dead = false ∧ slopeOf (((trimFrames s).take (navg s)).foldr (· ++
      ·) []) = (num, den) ∧ s.vis.stopped = false ∧ s.on VIS_REG_CTRL_PTRIM_EN = true ∧ ptrimWaiting s = false ∧
      navg s ≤ (trimFrames s).length) :=
  ⟨⟨host 2 15 [], ⟨15, 7#16, true⟩, 15#8, 0, false, by decide +kernel⟩,
    ⟨{ host 2 15 [] with vis := { streams := [(15, { slots := [(1, {}, true)] })] } }, ⟨15, 7#16, true⟩, 15#8,
      0xF0000001#32, false, by decide +kernel⟩,
    ⟨{ host 2 15 [] with codec := { cmpRun := some { q := 15, cid := 7, op := 0x41, mode := 0, flags := 2, src := 0, srcLen := 1, dst := 64, dstLen := 4 }, cmpWait := List.replicate 8 { q := 15, cid := 7, op := 0x41, mode := 0, flags := 2, src := 0, srcLen := 1, dst := 64, dstLen := 4 } } },
      ⟨15, 7#16, true⟩, 15#8, 0, true, by decide +kernel⟩,
    ⟨{ host 1 15 [] with vis := { ups := [{ q := 15, cid := 7, op := 0x41, mode := 0, flags := 2, src := 0, srcLen := 1, dst := 64, dstLen := 4 }] } },
      ⟨15, 7#16, true⟩,
      { q := 15, cid := 7, op := 0x41, mode := 0, flags := 2, src := 0, srcLen := 1, dst := 64, dstLen := 4 },
      by decide +kernel⟩,
    ⟨{ rig [(PCTX_STATE_STATE 255, Px.imaging)] with ctx := [(255, { fed := true, hasOrigin := true, seq := 1 })], psq := { front := 9 }, vis := { streams := [(15, { cur := { num := 1, camPos := 9 } })] } },
      255, 15, by decide +kernel⟩,
    ⟨{ rig [] with vis := { queue := [(3, [(15, 1)])], held := [{ stream := 15, count := 1, gen := { num := 1, port := 3, vc := 15, dt := 0x2A, path := 1, width := 16, height := 16 }, start := {} }] } },
      3, (15, 1), [],
      { stream := 15, count := 1,
        gen := { num := 1, port := 3, vc := 15, dt := 0x2A, path := 1, width := 16, height := 16 },
        start := {} }, by decide +kernel⟩,
    ⟨{ host 1 15 [] with vis := { run := some { stream := 15, count := 1, gen := { num := 1, port := 3, vc := 15, dt := 0x2A, path := 1, width := 16, height := 16, resCount := 2, resAddr := 64, mbx := 63, pair := 15 }, damaged := true, start := {} } } },
      { stream := 15, count := 1,
        gen := { num := 1, port := 3, vc := 15, dt := 0x2A, path := 1, width := 16, height := 16, resCount := 2, resAddr := 64, mbx := 63, pair := 15 },
        damaged := true, start := {} }, by decide +kernel⟩,
    ⟨{ rig [(VIS_STAT_PAUSED, 1)] with vis := { run := some { stream := 15, count := 1, gen := { num := 1, port := 3, vc := 15, dt := 0x2A, path := 1, width := 16, height := 16 }, start := {} } } },
      by decide +kernel⟩,
    ⟨{ host 1 15 [] with vis := { held := [{ stream := 15, count := 1, gen := { num := 1, port := 3, vc := 15, dt := 0x2A, path := 2, width := 16, height := 16, resCount := 2, resAddr := 64, mbx := 63, pair := 15 }, damaged := true, start := {} }] } },
      { stream := 15, count := 1,
        gen := { num := 1, port := 3, vc := 15, dt := 0x2A, path := 2, width := 16, height := 16, resCount := 2, resAddr := 64, mbx := 63, pair := 15 },
        damaged := true, start := {} }, by decide +kernel⟩,
    ⟨{ rig [(VIS_REG_CTRL_AUTO, 255)] with vis := { acc := [(7, [(1, 2, 3)])] } }, 7, by decide +kernel⟩,
    ⟨{ rig [(VIS_REG_CTRL_PTRIM_EN, 1)] with vis := { pacc := [(0, 0, [(1, 2), (3, 4)])] } }, 4000000000, 4,
      by decide +kernel⟩⟩

theorem witness_StationDecodersAndEdges :
    (∃ (s : State) (n : Fin 8) (k : Fin 4) (f : Fetch) (b : BandId) (r : List BandId), s.dead = false ∧ n.val <
      s.part.stations ∧ bankGet none (s.stnU n).dec k = none ∧ (s.stnU n).fetch.find? (fun f => !f.todo.isEmpty) =
      some f ∧ f.todo = b :: r) ∧
    (∃ (s : State) (n : Fin 8) (k : Fin 4) (d : DecBand) (x : List (BitVec 8)), s.dead = false ∧ n.val <
      s.part.stations ∧ bankGet none (s.stnU n).dec k = some d ∧ (decodeIn (ringRoom s n d.b) d.b s).1.toOption =
      some x ∧ (decodeIn (ringRoom s n d.b) d.b s).2 = s ∧ x ≠ [] ∧ (s.stnU n).fetch.any (fun f => f.ctx ==
      d.b.ctx) = true) ∧
    (∃ (s : State) (n : Fin 8) (k : Fin 4) (d : DecBand), s.dead = false ∧ n.val < s.part.stations ∧ bankGet none
      (s.stnU n).dec k = some d ∧ waits (decodeIn (ringRoom s n d.b) d.b s).1 (ringRoom s n d.b) (bandLines
      ((s.ctxU d.b.ctx).planes.getD d.b.stn {}) (s.ctxU d.b.ctx).lines d.b.tbl d.b.idx) = true) ∧
    (∃ (s : State) (n : Fin 8) (k : Fin 4) (d : DecBand) (e : Nat × List (BitVec 8)), s.dead = false ∧ n.val <
      s.part.stations ∧ bankGet none (s.stnU n).dec k = some d ∧ metBy (decodeIn (ringRoom s n d.b) d.b s).1 =
      some e ∧ (decodeIn (ringRoom s n d.b) d.b s).2 = s ∧ waits (decodeIn (ringRoom s n d.b) d.b s).1 (ringRoom s
      n d.b) (bandLines ((s.ctxU d.b.ctx).planes.getD d.b.stn {}) (s.ctxU d.b.ctx).lines d.b.tbl d.b.idx) = false
      ∧ spoilable s d.b.ctx = true ∧ cycleState s d.b.ctx ≠ Px.armed) ∧
    (∃ (s : State) (n : Fin 8), s.dead = false ∧ n.val < s.part.stations ∧ s.on (STN_STAT_OCCUPIED n) = false ∧
      (s.stnU n).active.enable = false ∧ (s.stnU n).marked = false ∧ polyOf s n = none) ∧
    (∃ (s : State) (n : Fin 8) (mark : Bool), s.dead = false ∧ n.val < s.part.stations ∧ s.on (STN_STAT_OCCUPIED
      n) = false ∧ (s.stnU n).active.enable = false ∧ (s.stnU n).marked = true ∧ mark = decide ((s.g
      (STN_SWEEPNO_FACET n) + 1) % max 1 (s.stnU n).active.facets = 0) ∧ (s.stnU n).active.facets ≤ 16 ∧ polyOf s
      n = none) ∧
    (∃ (s : State) (n : Fin 8) (mark : Bool), s.dead = false ∧ n.val < s.part.stations ∧ s.on (STN_STAT_OCCUPIED
      n) = false ∧ (s.stnU n).active.enable = false ∧ (s.stnU n).marked = true ∧ mark ≠ decide ((s.g
      (STN_SWEEPNO_FACET n) + 1) % max 1 (s.stnU n).active.facets = 0)) ∧
    (∃ (s : State) (n : Fin 8) (mark : Bool) (c : Nat) (base : Int), s.dead = false ∧ n.val < s.part.stations ∧
      s.on (STN_STAT_OCCUPIED n) = true ∧ s.g (STN_STAT_CONTEXT n) = c ∧ ((s.stnU n).marked = false ∨ mark =
      decide ((s.g (STN_SWEEPNO_FACET n) + 1) % max 1 (s.stnU n).active.facets = 0)) ∧ (nextBase s n c).map (·.1)
      = some base) ∧
    (∃ (s : State) (n : Fin 8) (mark : Bool) (c : Nat), s.dead = false ∧ n.val < s.part.stations ∧ s.on
      (STN_STAT_OCCUPIED n) = true ∧ s.g (STN_STAT_CONTEXT n) = c ∧ (s.stnU n).marked = true ∧ mark ≠ decide ((s.g
      (STN_SWEEPNO_FACET n) + 1) % max 1 (s.stnU n).active.facets = 0) ∧ ctxState s c = Px.imaging) ∧
    (∃ (s : State) (n : Fin 8), s.dead = false ∧ n.val < s.part.stations ∧ s.on (STN_STAT_OCCUPIED n) = false ∧
      (s.stnU n).active.enable = false ∧ (bankGet (0, 0) s.psq.sweeps n).1 ≠ 0 ∧ (bankGet (0, 0) s.psq.sweeps n).2
      ≠ 0) :=
  ⟨⟨{ rig [] with stn := [(7, { fetch := [{ ctx := 255, todo := [⟨255, 7, 1, 0⟩] }] })] }, 7, 3,
      { ctx := 255, todo := [⟨255, 7, 1, 0⟩] }, ⟨255, 7, 1, 0⟩, [], by decide +kernel⟩,
    ⟨{ rig [(STN_LBBYTES_BYTES 7, 6291456)] with ctx := [(255, { cid := 3, lines := 1, planes := List.replicate 7 {} ++ [{ kind := 2, width := 32, tg := [(0, 33)] }] })], mem := memWrite [] 0 sampleBand, stn := [(7, { active := { num := 1, width := 32 }, newest := { num := 1, width := 32 }, fetch := [{ ctx := 255, todo := [] }], dec := [(3, some { b := ⟨255, 7, 1, 0⟩ })] })] },
      7, 3, { b := ⟨255, 7, 1, 0⟩ }, [0, 0, 0, 0], by decide +kernel⟩,
    ⟨{ rig [(STN_LBBYTES_BYTES 7, 0)] with ctx := [(255, { cid := 3, lines := 1, planes := List.replicate 7 {} ++ [{ kind := 2, width := 32, tg := [(0, 33)] }] })], mem := memWrite [] 0 sampleBand, stn := [(7, { active := { num := 1, width := 32 }, newest := { num := 1, width := 32 }, fetch := [{ ctx := 255, todo := [] }], dec := [(3, some { b := ⟨255, 7, 1, 0⟩ })] })] },
      7, 3, { b := ⟨255, 7, 1, 0⟩ }, by decide +kernel⟩,
    ⟨{ rig [(PCTX_STATE_STATE 255, Px.inPath), (PCTX_STATE_STN_MASK 255, 128), (STN_LBBYTES_BYTES 7, 6291456)] with ctx := [(255, { cid := 3, lines := 1, planes := List.replicate 7 {} ++ [{ kind := 2, width := 32, tg := [(0, 33)] }] })], mem := [(0, 7)], stn := [(7, { active := { num := 1, width := 32 }, newest := { num := 1, width := 32 }, fetch := [{ ctx := 255, todo := [] }], dec := [(3, some { b := ⟨255, 7, 1, 0⟩ })] })] },
      7, 3, { b := ⟨255, 7, 1, 0⟩ }, (1, []), by decide +kernel⟩,
    ⟨rig [(STN_SWEEPNO_COUNT 7, 2 ^ 28 - 1), (STN_SWEEPNO_FACET 7, 3)], 7, by decide +kernel⟩,
    ⟨{ rig [(STN_SWEEPNO_COUNT 7, 2 ^ 28 - 1), (STN_SWEEPNO_FACET 7, 7)] with stn := [(7, { marked := true, active := { facets := 8 } })] },
      7, true, by decide +kernel⟩,
    ⟨{ rig [(STN_SWEEPNO_COUNT 7, 2 ^ 28 - 1), (STN_SWEEPNO_FACET 7, 7)] with stn := [(7, { marked := true, active := { facets := 8 } })] },
      7, false, by decide +kernel⟩,
    ⟨{ rig [(STN_STAT_OCCUPIED 7, 1), (STN_STAT_CONTEXT 7, 9), (PCTX_STATE_STATE 9, Px.imaging), (STN_SWEEPNO_FACET 7, 7)] with ctx := [(9, { lines := 1000, passes := 1 })], stn := [(7, { marked := true, started := true, base := 4, dark := false, active := { num := 1, width := 32, eCount := 4, pitch := 1, facets := 8, enable := true, win := [(0, 2)] } })] },
      7, true, 9, 6, by decide +kernel⟩,
    ⟨{ rig [(STN_STAT_OCCUPIED 7, 1), (STN_STAT_CONTEXT 7, 9), (PCTX_STATE_STATE 9, Px.imaging), (STN_SWEEPNO_FACET 7, 2)] with ctx := [(9, { lines := 1000, passes := 1 })], stn := [(7, { marked := true, started := true, base := 4, dark := false, active := { num := 1, width := 32, eCount := 4, pitch := 1, facets := 8, enable := true, win := [(0, 2)] } })] },
      7, true, 9, by decide +kernel⟩,
    ⟨{ rig [] with psq := { sweeps := [(7, (1000, 4))] } }, 7, by decide +kernel⟩⟩

theorem witness_StationGenerationsAndTables :
    (∃ (s : State) (n : Fin 8) (g : Gen), s.dead = false ∧ n.val < s.part.stations ∧ s.on (STN_STAT_OCCUPIED n) =
      false ∧ (s.stnU n).reloadFor = none ∧ targetNum s n ≠ (s.stnU n).active.num ∧ nextGen (s.stnU n) = some g) ∧
    (∃ (s : State) (n : Fin 8) (num : Nat), s.dead = false ∧ n.val < s.part.stations ∧ (s.stnU n).reloadFor = some
      num ∧ (s.stnU n).held.find? (fun g => g.num == num) = none) ∧
    (∃ (s : State) (n : Fin 8) (g : Gen) (num : Nat), s.dead = false ∧ n.val < s.part.stations ∧ (s.stnU
      n).reloadFor = some num ∧ (s.stnU n).held.find? (fun g => g.num == num) = some g ∧ (s.stnU n).newest.num =
      num ∧ (s.stnU n).boostEnd = [] ∧ dueCtx s n = none) ∧
    (∃ (s : State) (n : Fin 8) (i : Fin 4096) (e : Fin 40), Reaches s (STN_CELL n i e) ∧ s.on (STN_PCFG_ENABLED n)
      = false ∧ (s.stnU n).reloadFor = none) ∧
    (∃ (s : State) (n : Fin 8) (i : Fin 4096), Reaches s (STN_BOW n i) ∧ s.on (STN_PCFG_ENABLED n) = false ∧
      (s.stnU n).reloadFor = none) ∧
    (∃ (s : State) (n : Fin 8) (y : Fin 256) (z : Fin 256), Reaches s (STN_SCR n y z) ∧ s.on (STN_PCFG_ENABLED n)
      = false ∧ (s.stnU n).reloadFor = none) ∧
    (∃ (s : State) (n : Fin 8) (i : Fin 4096) (e : Fin 40), Reaches s (STN_CELL n i e) ∧ (s.on (STN_PCFG_ENABLED
      n) = true ∨ (s.stnU n).reloadFor ≠ none)) ∧
    (∃ (s : State) (n : Fin 8) (i : Fin 4096), Reaches s (STN_BOW n i) ∧ (s.on (STN_PCFG_ENABLED n) = true ∨
      (s.stnU n).reloadFor ≠ none)) ∧
    (∃ (s : State) (n : Fin 8) (y : Fin 256) (z : Fin 256), Reaches s (STN_SCR n y z) ∧ (s.on (STN_PCFG_ENABLED n)
      = true ∨ (s.stnU n).reloadFor ≠ none)) ∧
    (∃ (s : State) (n : Fin 8), s.dead = false ∧ n.val < s.part.stations ∧ nvmWindow s = true) ∧
    (∃ (s : State) (n : Fin 8), s.dead = false ∧ n.val < s.part.stations ∧ nvmWindow s = false) ∧
    (∃ (s : State) (n : Fin 8) (e : Fin 40), s.dead = false ∧ n.val < s.part.stations ∧ ((s.stnU n).newest.em
      e).boost ≠ 0 ∧ wearRem (s.stnU n) e = 0 ∧ (s.stnU n).boostEnd.contains e.val = false ∧ 16 ≤ (s.stnU
      n).held.length) ∧
    (∃ (s : State) (n : Fin 8) (e : Fin 40), s.dead = false ∧ n.val < s.part.stations ∧ ((s.stnU n).newest.em
      e).boost ≠ 0 ∧ wearRem (s.stnU n) e = 0 ∧ (s.stnU n).boostEnd = [] ∧ (s.stnU n).held.length < 16) :=
  ⟨⟨{ rig [] with stn := [(7, { newest := { num := 2 }, held := [{ num := 2 }] })] }, 7, { num := 2 },
      by decide +kernel⟩,
    ⟨{ rig [] with stn := [(7, { reloadFor := some 2 })] }, 7, 2, by decide +kernel⟩,
    ⟨{ rig [] with stn := [(7, { newest := { num := 2 }, reloadFor := some 2, held := [{ num := 2 }] })] }, 7,
      { num := 2 }, 2, by decide +kernel⟩,
    ⟨rig [], 7, 4095, 39, by decide +kernel⟩,
    ⟨rig [], 7, 4095, by decide +kernel⟩,
    ⟨rig [(STN_SCRSEL_ARRAY 7, 3)], 7, 255, 255, by decide +kernel⟩,
    ⟨rig [(STN_PCFG_ENABLED 7, 1)], 7, 4095, 39, by decide +kernel⟩,
    ⟨{ rig [] with stn := [(7, { reloadFor := some 2 })] }, 7, 0, by decide +kernel⟩,
    ⟨rig [(STN_PCFG_ENABLED 7, 1)], 7, 255, 255, by decide +kernel⟩,
    ⟨rig [], 7, by decide +kernel⟩,
    ⟨rig [(THM_TJ_TJ, 1681)], 7, by decide +kernel⟩,
    ⟨{ rig [] with stn := [(7, { newest := { emit := List.replicate 40 ⟨1, 0, 5⟩ }, held := List.replicate 16 {} })] },
      7, 39, by decide +kernel⟩,
    ⟨{ rig [] with stn := [(7, { newest := { emit := List.replicate 40 ⟨1, 0, 5⟩ } })] }, 7, 39,
      by decide +kernel⟩⟩

theorem witness_EncoderAndFeeding :
    (∃ (s : State) (raw : BitVec 32), s.dead = false ∧ 0 < aheadOf (posAdd s.psq.pos (if s.on PSQ_CTRL_ENC_INVERT
      then -(sext 32 ((raw.toNat + 2 ^ 32 - s.psq.lastRaw) % 2 ^ 32)) else sext 32 ((raw.toNat + 2 ^ 32 -
      s.psq.lastRaw) % 2 ^ 32))) s.psq.front) ∧
    (∃ (s : State) (raw : BitVec 32), s.dead = false ∧ aheadOf (posAdd s.psq.pos (if s.on PSQ_CTRL_ENC_INVERT then
      -(sext 32 ((raw.toNat + 2 ^ 32 - s.psq.lastRaw) % 2 ^ 32)) else sext 32 ((raw.toNat + 2 ^ 32 -
      s.psq.lastRaw) % 2 ^ 32))) s.psq.front ≤ 0 ∧ aheadOf s.psq.front (posAdd s.psq.pos (if s.on
      PSQ_CTRL_ENC_INVERT then -(sext 32 ((raw.toNat + 2 ^ 32 - s.psq.lastRaw) % 2 ^ 32)) else sext 32 ((raw.toNat
      + 2 ^ 32 - s.psq.lastRaw) % 2 ^ 32))) ≤ s.g PSQ_CTRL_BACKLASH) ∧
    (∃ (s : State) (raw : BitVec 32), s.dead = false ∧ aheadOf (posAdd s.psq.pos (if s.on PSQ_CTRL_ENC_INVERT then
      -(sext 32 ((raw.toNat + 2 ^ 32 - s.psq.lastRaw) % 2 ^ 32)) else sext 32 ((raw.toNat + 2 ^ 32 -
      s.psq.lastRaw) % 2 ^ 32))) s.psq.front ≤ 0 ∧ s.g PSQ_CTRL_BACKLASH < aheadOf s.psq.front (posAdd s.psq.pos
      (if s.on PSQ_CTRL_ENC_INVERT then -(sext 32 ((raw.toNat + 2 ^ 32 - s.psq.lastRaw) % 2 ^ 32)) else sext 32
      ((raw.toNat + 2 ^ 32 - s.psq.lastRaw) % 2 ^ 32))) ∧ s.on PSQ_STAT_REVERSED = false) ∧
    (∃ (s : State), s.dead = false ∧ s.on PSQ_STAT_FEED_REQ = false ∧ (feedable s false).isSome = true) ∧
    (∃ (s : State), s.dead = false ∧ s.fabricFeeds 0x0200 0 = true ∧ s.on PSQ_STAT_FEED_REQ = false ∧
      s.psq.reqFell ≠ some s.clock) ∧
    (∃ (s : State) (c : Fin 256), s.dead = false ∧ s.fabricFeeds 0x0200 0 = true ∧ (s.on PSQ_STAT_FEED_REQ = true
      ∨ s.psq.reqFell = some s.clock) ∧ feedTaker s = some c.val ∧ (s.ctxU c).awaiting = false) ∧
    (∃ (s : State) (c : Fin 256), s.dead = false ∧ s.fabricFeeds 0x0200 1 = true ∧ s.on PSQ_CTRL_SENSE_EN = true ∧
      oldest s (fun c => (s.ctxU c).awaiting) = some c.val ∧ s.psq.lastTrail.all (fun t => decide (0 ≤ aheadOf
      (posAdd s.psq.front (-(s.g (PSQ_POS_COUNTS 0) : Int))) (t + s.g (PSQ_POS_COUNTS 2)))) = true) ∧
    (∃ (s : State) (c : Fin 256), s.dead = false ∧ s.fabricFeeds 0x0200 1 = true ∧ s.on PSQ_CTRL_SENSE_EN = true ∧
      oldest s (fun c => (s.ctxU c).awaiting) = some c.val ∧ s.psq.lastTrail.all (fun t => decide (0 ≤ aheadOf
      (posAdd s.psq.front (-(s.g (PSQ_POS_COUNTS 0) : Int))) (t + s.g (PSQ_POS_COUNTS 2)))) = false) ∧
    (∃ (s : State), s.dead = false ∧ s.fabricFeeds 0x0200 1 = true ∧ s.on PSQ_CTRL_SENSE_EN = true ∧ ((oldest s
      fun c => (s.ctxU c).awaiting) = none ∨ s.psq.lastTrail.all (fun t => decide (0 ≤ aheadOf (posAdd s.psq.front
      (-(s.g (PSQ_POS_COUNTS 0) : Int))) (t + s.g (PSQ_POS_COUNTS 2)))) = false) ∧ s.rigged = true ∧
      s.err.regionReset.contains 0 = false) ∧
    (∃ (s : State) (c : Fin 256), s.dead = false ∧ s.rigged = true ∧ s.err.regionReset.contains 0 = false ∧
      (s.ctxU c).awaiting = true ∧ 0 < aheadOf s.psq.front ((s.ctxU c).ackFront + s.g (PSQ_POS_COUNTS 4))) :=
  ⟨⟨{ rig [] with psq := { pos := 2 ^ 48 - 1, front := 2 ^ 48 - 1, lastRaw := 2 ^ 32 - 1 } }, 1#32,
      by decide +kernel⟩,
    ⟨{ rig [(PSQ_CTRL_BACKLASH, 3)] with psq := { pos := 5, front := 5, lastRaw := 5 } }, 2#32, by decide +kernel⟩,
    ⟨{ rig [(PSQ_CTRL_BACKLASH, 3), (PSQ_CTRL_ENC_INVERT, 1)] with psq := { pos := 5, front := 5, lastRaw := 5 } },
      9#32, by decide +kernel⟩,
    ⟨{ rig [(PCTX_STATE_STATE 255, Px.armed), (REP_STAT_ENGINE, Eng.ready)] with ctx := [(255, { seq := 1 })], psq := { lastPasses := 1 } },
      by decide +kernel⟩,
    ⟨{ poke [(SPAR_STAT_CONFIGURED, 1)] (rig []) with rig := { routes := [{ line := 5, src := 0x1900, ev := 3, sink := 0x0200, inp := 0, mode := 0 }] } },
      by decide +kernel⟩,
    ⟨{ poke [(SPAR_STAT_CONFIGURED, 1)] ({ rig [(PCTX_STATE_STATE 255, Px.armed), (REP_STAT_ENGINE, Eng.ready), (PSQ_STAT_FEED_REQ, 1)] with ctx := [(255, { seq := 1 })], psq := {} }) with rig := { routes := [{ line := 5, src := 0x1900, ev := 3, sink := 0x0200, inp := 0, mode := 0 }] } },
      255, by decide +kernel⟩,
    ⟨{ poke [(SPAR_STAT_CONFIGURED, 1)] ({ rig [(PCTX_STATE_STATE 255, Px.feeding), (PSQ_CTRL_SENSE_EN, 1), (PSQ_POS_COUNTS 0, 1)] with ctx := [(255, { awaiting := true, seq := 1 })], psq := {} }) with rig := { routes := [{ line := 5, src := 0x1900, ev := 3, sink := 0x0200, inp := 1, mode := 0 }] } },
      255, by decide +kernel⟩,
    ⟨{ poke [(SPAR_STAT_CONFIGURED, 1)] ({ rig [(PCTX_STATE_STATE 255, Px.feeding), (PSQ_CTRL_SENSE_EN, 1), (PSQ_POS_COUNTS 0, 1), (PSQ_POS_COUNTS 2, 9)] with ctx := [(255, { awaiting := true, seq := 1 })], psq := { lastTrail := some 0 } }) with rig := { routes := [{ line := 5, src := 0x1900, ev := 3, sink := 0x0200, inp := 1, mode := 0 }] } },
      255, by decide +kernel⟩,
    ⟨{ poke [(SPAR_STAT_CONFIGURED, 1)] (rig [(PSQ_CTRL_SENSE_EN, 1)]) with rig := { routes := [{ line := 5, src := 0x1900, ev := 3, sink := 0x0200, inp := 1, mode := 0 }] } },
      by decide +kernel⟩,
    ⟨{ rig [(PCTX_STATE_STATE 255, Px.feeding)] with ctx := [(255, { awaiting := true, seq := 1 })], psq := { front := 1 } },
      255, by decide +kernel⟩⟩

theorem witness_WebRunsAndTriggers :
    (∃ (s : State), s.dead = false ∧ s.psq.web = false ∧ (feedable s true).isSome = true) ∧
    (∃ (s : State), s.dead = false ∧ (beforeChanges s).psq.web = true ∧ anyCtx s (crossingDue s) = false ∧ crossed
      s s.psq.webOrigin = true ∧ webTaker (beforeChanges s) = none ∧ s.psq.webRepeat ≠ 0) ∧
    (∃ (s : State) (c : Fin 256), s.dead = false ∧ (beforeChanges s).psq.web = true ∧ anyCtx s (crossingDue s) =
      false ∧ crossed s s.psq.webOrigin = true ∧ webTaker (beforeChanges s) = some c.val) ∧
    (∃ (s : State) (c : Fin 256), s.dead = false ∧ anyCtx s (fun d => decide ((s.ctxU d).seq < (s.ctxU c).seq) &&
      crossingDue s d) = false ∧ ctxState s c = Px.feeding ∧ tracked s c = true ∧ crossed s (originOf s c + s.g
      (PSQ_POS_COUNTS 0)) = true) ∧
    (∃ (s : State) (c : Fin 256) (n : Fin 8), s.dead = false ∧ anyCtx s (fun d => decide ((s.ctxU d).seq < (s.ctxU
      c).seq) && crossingDue s d) = false ∧ n.val < s.part.stations ∧ tracked s c = true ∧ ctxState s c ≠
      Px.spoiled ∧ inMask s c n = true ∧ crossed s (posAdd (trigAt s c n) (-(s.g (PSQ_STN_PREF_COUNTS n) : Int)))
      = true ∧ bitsOf (s.ctxU c).fetched n 1 = 0) ∧
    (∃ (s : State) (c : Fin 256) (n : Fin 8), s.dead = false ∧ anyCtx s (fun d => decide ((s.ctxU d).seq < (s.ctxU
      c).seq) && crossingDue s d) = false ∧ n.val < s.part.stations ∧ tracked s c = true ∧ (ctxState s c =
      Px.inPath ∨ ctxState s c = Px.imaging) ∧ inMask s c n = true ∧ bitsOf (s.ctxU c).trigd n 1 = 0 ∧ crossed s
      (trigAt s c n) = true ∧ armFail s c n = none) ∧
    (∃ (s : State) (c : Fin 256) (n : Fin 8) (cause : Nat) (kind : Option Nat), s.dead = false ∧ anyCtx s (fun d
      => decide ((s.ctxU d).seq < (s.ctxU c).seq) && crossingDue s d) = false ∧ n.val < s.part.stations ∧ tracked
      s c = true ∧ (ctxState s c = Px.inPath ∨ ctxState s c = Px.imaging) ∧ inMask s c n = true ∧ bitsOf (s.ctxU
      c).trigd n 1 = 0 ∧ crossed s (trigAt s c n) = true ∧ armFail s c n = some (cause, kind)) ∧
    (∃ (s : State) (c : Fin 256) (n : Fin 8), s.dead = false ∧ anyCtx s (fun d => decide ((s.ctxU d).seq < (s.ctxU
      c).seq) && crossingDue s d) = false ∧ n.val < s.part.stations ∧ tracked s c = true ∧ ctxState s c =
      Px.spoiled ∧ inMask s c n = true ∧ bitsOf (s.ctxU c).trigd n 1 = 0 ∧ crossed s (trigAt s c n) = true) ∧
    (∃ (s : State) (c : Fin 256) (n : Fin 8), s.dead = false ∧ anyCtx s (fun d => decide ((s.ctxU d).seq < (s.ctxU
      c).seq) && crossingDue s d) = false ∧ n.val < s.part.stations ∧ tracked s c = true ∧ inMask s c n = true ∧
      bitsOf (s.ctxU c).trigd n 1 = 1 ∧ bitsOf (s.g (PCTX_STATE_STN_DONE c)) n 1 = 0 ∧ crossed s (endAt s c n) =
      true) ∧
    (∃ (s : State) (c : Fin 256), s.dead = false ∧ anyCtx s (fun d => decide ((s.ctxU d).seq < (s.ctxU c).seq) &&
      crossingDue s d) = false ∧ tracked s c = true ∧ crossed s (originOf s c + s.g (PSQ_POS_COUNTS 1)) = true ∧
      (ctxState s c = Px.imaging ∨ ctxState s c = Px.inPath ∧ s.g (PCTX_STATE_STN_MASK c) = 0)) ∧
    (∃ (s : State) (c : Fin 256), s.dead = false ∧ anyCtx s (fun d => decide ((s.ctxU d).seq < (s.ctxU c).seq) &&
      crossingDue s d) = false ∧ tracked s c = true ∧ crossed s (originOf s c + s.g (PSQ_POS_COUNTS 1)) = true ∧
      ctxState s c = Px.spoiled) :=
  ⟨⟨{ rig [(PCTX_STATE_STATE 255, Px.armed), (REP_STAT_ENGINE, Eng.ready), (PCTX_STATE_MODE 255, 1)] with ctx := [(255, { seq := 1 })], psq := { front := 2 ^ 48 - 1, lastPasses := 1 } },
      by decide +kernel⟩,
    ⟨{ rig [] with psq := { web := true, webOrigin := 9, front := 9, webRepeat := 5 } }, by decide +kernel⟩,
    ⟨{ rig [(PCTX_STATE_STATE 255, Px.armed), (REP_STAT_ENGINE, Eng.ready), (PCTX_STATE_MODE 255, 1)] with ctx := [(255, { seq := 1, repeat_ := 7 })], psq := { web := true, lastRate := 0, lastPasses := 1 } },
      255, by decide +kernel⟩,
    ⟨{ rig [(PCTX_STATE_STATE 255, Px.feeding)] with ctx := [(255, { fed := true, hasOrigin := true })], psq := {} },
      255, by decide +kernel⟩,
    ⟨{ rig [(PCTX_STATE_STATE 255, Px.feeding), (PCTX_STATE_STN_MASK 255, 128)] with ctx := [(255, { fed := true, hasOrigin := true, lines := 1 })], psq := {} },
      255, 7, by decide +kernel⟩,
    ⟨{ rig [(PCTX_STATE_STATE 255, Px.inPath), (PCTX_STATE_STN_MASK 255, 128), (STN_LSTAT_STATE 7, Lk.up), (STN_LSTAT_LIT 7, 1), (STN_GEOM_GEOM_OK 7, 1), (STN_LSTAT_BUF_OK 7, 1), (STN_LSTAT_RATE_OK 7, 1), (STN_PXCTL_LOCK 7, 1), (MC_POLY_BOUND 2, 1), (MC_POLY_STATION 2, 7), (MC_STAT_LOCKED 2, 1)] with ctx := [(255, { fed := true, hasOrigin := true })], stn := [(7, { link := { bankGen := [some 0, none] } })] },
      255, 7, by decide +kernel⟩,
    ⟨{ rig [(PCTX_STATE_STATE 255, Px.inPath), (PCTX_STATE_STN_MASK 255, 128), (STN_STAT_OCCUPIED 7, 1)] with ctx := [(255, { fed := true, hasOrigin := true })], psq := {} },
      255, 7, Cause.underrun, some 2, by decide +kernel⟩,
    ⟨{ rig [(PCTX_STATE_STATE 255, Px.spoiled), (PCTX_STATE_STN_MASK 255, 128)] with ctx := [(255, { fed := true, hasOrigin := true })], psq := {}, stn := [(7, { fetch := [{ ctx := 255, todo := [] }] })] },
      255, 7, by decide +kernel⟩,
    ⟨{ rig [(PCTX_STATE_STATE 255, Px.imaging), (PCTX_STATE_STN_MASK 255, 128), (STN_STAT_OCCUPIED 7, 1), (STN_STAT_CONTEXT 7, 255)] with ctx := [(255, { fed := true, hasOrigin := true, trigd := 128, imagingAt := 128 })], psq := {} },
      255, 7, by decide +kernel⟩,
    ⟨{ rig [(PCTX_STATE_STATE 255, Px.imaging)] with ctx := [(255, { fed := true, hasOrigin := true })], psq := {} },
      255, by decide +kernel⟩,
    ⟨{ rig [(PCTX_STATE_STATE 255, Px.spoiled)] with ctx := [(255, { fed := true, hasOrigin := true })], psq := {} },
      255, by decide +kernel⟩⟩

theorem witness_SpeedsAndEngineStates :
    (∃ (s : State), s.dead = false ∧ boundaryPending s = true ∧ engineFeeds s = true ∧ s.on PSQ_STAT_BOUNDARY =
      false) ∧
    (∃ (s : State), s.dead = false ∧ s.on PSQ_STAT_BOUNDARY = true ∧ s.psq.bstep = 1 ∧ boundaryClear s = true) ∧
    (∃ (s : State), s.dead = false ∧ s.on PSQ_STAT_BOUNDARY = true ∧ s.psq.bstep = 2 ∧ speedsHold s = true) ∧
    (∃ (s : State) (v : Word), Reaches s PSQ_PTRIM ∧ -2000000 ≤ sext 32 v.toNat ∧ sext 32 v.toNat ≤ 2000000) ∧
    (∃ (s : State) (v : Word), Reaches s PSQ_PTRIM ∧ (2000000 < sext 32 v.toNat ∨ sext 32 v.toNat < -2000000)) ∧
    (∃ (s : State), s.dead = false ∧ s.engine = Eng.warmup ∧ warm s = true) ∧
    (∃ (s : State), s.dead = false ∧ s.engine = Eng.draining ∧ pathEmpty s = true) :=
  ⟨⟨rig [(REP_STAT_ENGINE, Eng.ready), (PSQ_PTRIM_TRIM, 5)], by decide +kernel⟩,
    ⟨{ rig [(PSQ_STAT_BOUNDARY, 1), (PSQ_PTRIM_TRIM, 5), (STN_PCFG_ENABLED 7, 1)] with psq := { bstep := 1, brate := 160000, bpasses := 1 }, stn := [(7, { newest := { num := 1, enable := true, win := [(0, 40)] } })] },
      by decide +kernel⟩,
    ⟨{ rig [(PSQ_STAT_BOUNDARY, 1)] with psq := { bstep := 2, brate := 7 } }, by decide +kernel⟩,
    ⟨rig [], 0xFFE17B80#32, by decide +kernel⟩,
    ⟨rig [], 2000001#32, by decide +kernel⟩,
    ⟨rig [(REP_STAT_ENGINE, Eng.warmup), (ILK_STAT_CLOSED, 15), (PSQ_SPEED_RATE, 1), (PWR_STAT_STATE, Pw.on)],
      by decide +kernel⟩,
    ⟨rig [(REP_STAT_ENGINE, Eng.draining)], by decide +kernel⟩⟩

theorem witness_LinkTraining :
    (∃ (s : State) (n : Fin 8), s.dead = false ∧ n.val < s.part.stations ∧ linkState s n = Lk.down ∧ linkMapped s
      n = true ∧ s.on (STN_LCTRL_DOWN n) = false ∧ (linkU s n).noRetry = false) ∧
    (∃ (s : State) (n : Fin 8), s.dead = false ∧ n.val < s.part.stations ∧ (linkU s n).step = 1) ∧
    (∃ (s : State) (n : Fin 8), s.dead = false ∧ n.val < s.part.stations ∧ (linkU s n).step = 4) ∧
    (∃ (s : State) (n : Fin 8), s.dead = false ∧ n.val < s.part.stations ∧ ((linkU s n).step = 2 ∨ (linkU s
      n).step = 3 ∨ (linkU s n).step = 5)) ∧
    (∃ (s : State) (n : Fin 8), s.dead = false ∧ n.val < s.part.stations ∧ (linkU s n).step = 6 ∧ linkState s n =
      Lk.up) ∧
    (∃ (s : State) (n : Fin 8), s.dead = false ∧ n.val < s.part.stations ∧ (linkU s n).step = 2 ∧ (linkU s
      n).sending = []) ∧
    (∃ (s : State) (n : Fin 8) (c : Caps) (x : Nat), s.dead = false ∧ n.val < s.part.stations ∧ (linkU s n).step =
      2 ∧ 1 ≤ c.e.toNat ∧ c.e.toNat ≤ 40 ∧ 1 ≤ c.pitch.toNat ∧ c.pitch.toNat ≤ 15 ∧ c.sos.toNat ≤ 16384 ∧ c.ok =
      true ∧ chooseVersion s n c.drvMin.toNat c.drvMax.toNat = some x) ∧
    (∃ (s : State) (n : Fin 8) (c : Caps), s.dead = false ∧ n.val < s.part.stations ∧ (linkU s n).step = 2 ∧ 1 ≤
      c.e.toNat ∧ c.e.toNat ≤ 40 ∧ 1 ≤ c.pitch.toNat ∧ c.pitch.toNat ≤ 15 ∧ c.sos.toNat ≤ 16384 ∧ c.ok = true ∧
      chooseVersion s n c.drvMin.toNat c.drvMax.toNat = none) ∧
    (∃ (s : State) (n : Fin 8) (c : Caps), s.dead = false ∧ n.val < s.part.stations ∧ (linkU s n).step = 2 ∧
      (linkU s n).sending = [] ∧ (c.e.toNat = 0 ∨ 40 < c.e.toNat ∨ c.pitch.toNat = 0 ∨ 15 < c.pitch.toNat ∨ 16384
      < c.sos.toNat ∨ c.ok = false)) ∧
    (∃ (s : State) (n : Fin 8), s.dead = false ∧ n.val < s.part.stations ∧ ((linkU s n).step = 1 ∨ (linkU s
      n).step = 2 ∨ (linkU s n).step = 4)) ∧
    (∃ (s : State) (n : Fin 8), s.dead = false ∧ n.val < s.part.stations ∧ linkState s n = Lk.wait) ∧
    (∃ (s : State) (n : Fin 8) (v : Word), Reaches s (STN_LCTRL n) ∧ fieldOf (STN_LCTRL_DOWN n) v = 1 ∧ s.on
      (STN_LCTRL_DOWN n) = false) ∧
    (∃ (s : State) (n : Fin 8) (v : Word), Reaches s (STN_LCTRL n) ∧ fieldOf (STN_LCTRL_DOWN n) v = 0 ∧ fieldOf
      (STN_LCTRL_RETRAIN n) v = 0 ∧ s.on (STN_LCTRL_DOWN n) = true ∧ linkMapped s n = true) ∧
    (∃ (s : State) (n : Fin 8) (v : Word), Reaches s (STN_LCTRL n) ∧ fieldOf (STN_LCTRL_DOWN n) v = 0 ∧ fieldOf
      (STN_LCTRL_RETRAIN n) v = 1 ∧ (linkState s n = Lk.up ∨ linkMapped s n = true)) :=
  ⟨⟨{ rig [] with stn := [(7, { link := {} })], rig := { pins := [(1, 7, 0), (1, 7, 1), (1, 7, 4), (1, 7, 5)] } },
      7, by decide +kernel⟩,
    ⟨{ rig [] with stn := [(7, { link := { step := 1 } })] }, 7, by decide +kernel⟩,
    ⟨{ rig [] with stn := [(7, { link := { step := 4 } })] }, 7, by decide +kernel⟩,
    ⟨{ rig [] with stn := [(7, { link := { step := 5 } })] }, 7, by decide +kernel⟩,
    ⟨{ rig [(STN_LSTAT_STATE 7, Lk.up)] with stn := [(7, { link := { step := 6 } })] }, 7, by decide +kernel⟩,
    ⟨{ rig [] with stn := [(7, { link := { step := 2 } })] }, 7, by decide +kernel⟩,
    ⟨{ rig [] with stn := [(7, { link := { step := 2 } })] }, 7, (⟨0x0100, 0x0200, 40, 15, 16384, 0, 9, true,
      true⟩ : Caps), 0x0200, by decide +kernel⟩,
    ⟨{ rig [] with stn := [(7, { link := { step := 2 } })] }, 7,
      { (⟨0x0100, 0x0200, 40, 15, 16384, 0, 9, true, true⟩ : Caps) with drvMin := 0x0201 }, by decide +kernel⟩,
    ⟨{ rig [] with stn := [(7, { link := { step := 2 } })] }, 7,
      { (⟨0x0100, 0x0200, 40, 15, 16384, 0, 9, true, true⟩ : Caps) with e := 41 }, by decide +kernel⟩,
    ⟨{ rig [] with stn := [(7, { link := { step := 4 } })] }, 7, by decide +kernel⟩,
    ⟨{ rig [(STN_LSTAT_STATE 7, Lk.wait)] with stn := [(7, { link := {} })] }, 7, by decide +kernel⟩,
    ⟨{ rig [(STN_LSTAT_STATE 7, Lk.up)] with stn := [(7, { link := { step := 6 } })] }, 7, 2#32,
      by decide +kernel⟩,
    ⟨{ rig [(STN_LCTRL_DOWN 7, 1)] with stn := [(7, { link := {} })], rig := { pins := [(1, 7, 0), (1, 7, 1), (1, 7, 4), (1, 7, 5)] } },
      7, 0#32, by decide +kernel⟩,
    ⟨{ rig [] with stn := [(7, { link := {} })], rig := { pins := [(1, 7, 0), (1, 7, 1), (1, 7, 4), (1, 7, 5)] } },
      7, 1#32, by decide +kernel⟩⟩

theorem witness_LinkTraffic :
    (∃ (s : State) (n : Fin 8) (st : LinkStatus), s.dead = false ∧ n.val < s.part.stations ∧ (linkU s n).step = 6
      ∧ st.sweep = 0xFFFFFFFF#32 ∧ st.sensorFault = false ∧ st.lock = true ∧ st.late = false ∧ st.dark = false ∧
      ((s.stnU n).active.num = 0 ∨ sext 16 st.headT.toNat < (s.stnU n).active.htCrit) ∧ burst s n = false) ∧
    (∃ (s : State) (n : Fin 8) (st : LinkStatus) (k : Nat), s.dead = false ∧ n.val < s.part.stations ∧ (linkU s
      n).step = 6 ∧ st.sweep ≠ 0xFFFFFFFF#32 ∧ st.damaged = true ∧ st.sensorFault = false ∧ ((s.stnU n).active.num
      = 0 ∨ sext 16 st.headT.toNat < (s.stnU n).active.htCrit) ∧ (linkU s n).unreported.find? (fun x => x.1 ==
      st.sweep.toNat) = some (st.sweep.toNat, some k) ∧ spoilable s k = true ∧ cycleState s k ≠ Px.armed) ∧
    (∃ (s : State) (n : Fin 8) (st : LinkStatus), s.dead = false ∧ n.val < s.part.stations ∧ (linkU s n).step = 6
      ∧ linkState s n = Lk.up ∧ st.sweep = 0xFFFFFFFF#32 ∧ st.sensorFault = false ∧ st.lock = false ∧ ((s.stnU
      n).active.num = 0 ∨ sext 16 st.headT.toNat < (s.stnU n).active.htCrit)) ∧
    (∃ (s : State) (n : Fin 8) (st : LinkStatus), s.dead = false ∧ n.val < s.part.stations ∧ (linkU s n).step = 5
      ∧ st.sweep = 0xFFFFFFFF#32 ∧ st.sensorFault = false ∧ ((s.stnU n).active.num = 0 ∨ sext 16 st.headT.toNat <
      (s.stnU n).active.htCrit) ∧ (linkU s n).waiting.all (fun c => acked st.ackSeq.toNat c.seq) = true) ∧
    (∃ (s : State) (n : Fin 8) (st : LinkStatus), s.dead = false ∧ n.val < s.part.stations ∧ (linkU s n).step = 6
      ∧ st.damaged = false ∧ st.sensorFault = false ∧ st.lock = true ∧ st.late = false ∧ st.dark = false ∧
      ((s.stnU n).active.num = 0 ∨ sext 16 st.headT.toNat < (s.stnU n).active.htCrit) ∧ burst s n = false ∧ (linkU
      s n).unreported.find? (fun x => x.1 == st.sweep.toNat) = none) ∧
    (∃ (s : State) (n : Fin 8), s.dead = false ∧ n.val < s.part.stations ∧ 2 ≤ (linkU s n).step) ∧
    (∃ (s : State) (n : Fin 8), s.dead = false ∧ n.val < s.part.stations ∧ (linkU s n).version = 0x0200 ∧ (linkU s
      n).agreed = true) ∧
    (∃ (s : State) (n : Fin 8) (seq : BitVec 16) (c : Ctl), s.dead = false ∧ n.val < s.part.stations ∧ (linkU s
      n).waiting.find? (fun c => c.seq == seq.toNat) = some c ∧ c.resends < 3 ∧ (linkU s n).sending = []) ∧
    (∃ (s : State) (n : Fin 8) (seq : BitVec 16) (c : Ctl), s.dead = false ∧ n.val < s.part.stations ∧ (linkU s
      n).waiting.find? (fun c => c.seq == seq.toNat) = some c ∧ 3 ≤ c.resends ∧ (c.ty = 0x11 ∨ (linkU s n).step =
      5)) ∧
    (∃ (s : State) (n : Fin 8) (seq : BitVec 16) (c : Ctl), s.dead = false ∧ n.val < s.part.stations ∧ (linkU s
      n).waiting.find? (fun c => c.seq == seq.toNat) = some c ∧ 3 ≤ c.resends ∧ c.ty ≠ 0x11 ∧ (linkU s n).step = 6
      ∧ linkState s n = Lk.up) ∧
    (∃ (s : State) (n : Fin 8) (x : Nat × Option Nat) (r : List (Nat × Option Nat)), s.dead = false ∧ n.val <
      s.part.stations ∧ (linkU s n).unreported = x :: r ∧ 2 ≤ sext 28 ((s.g (STN_SWEEPNO_COUNT n) + 2 ^ 28 - x.1 %
      2 ^ 28) % 2 ^ 28) ∧ (linkU s n).unrep < 7) ∧
    (∃ (s : State) (n : Fin 8) (x : Nat × Option Nat) (r : List (Nat × Option Nat)), s.dead = false ∧ n.val <
      s.part.stations ∧ (linkU s n).unreported = x :: r ∧ 2 ≤ sext 28 ((s.g (STN_SWEEPNO_COUNT n) + 2 ^ 28 - x.1 %
      2 ^ 28) % 2 ^ 28) ∧ 7 ≤ (linkU s n).unrep ∧ linkState s n = Lk.up) ∧
    (∃ (s : State) (n : Fin 8) (k : Nat) (g : Gen), s.dead = false ∧ n.val < s.part.stations ∧ dueCtx s n = some k
      ∧ carriedGen s n k = some g ∧ linkState s n = Lk.up ∧ (linkU s n).loading = none ∧ s.on (STN_STAT_OCCUPIED
      n) = false ∧ bankOf s n g.id = none ∧ (linkU s n).lastSweep = none ∧ (linkU s n).sending = []) ∧
    (∃ (s : State) (n : Fin 8), s.dead = false ∧ n.val < s.part.stations ∧ linkState s n = Lk.up ∧ (linkU s
      n).version = 0x0200 ∧ (s.stnU n).active.liv = true ∧ s.on (STN_DCAP1_LIV n) = true ∧ s.on (STN_STAT_OCCUPIED
      n) = false ∧ (linkU s n).sending = []) ∧
    (∃ (s : State) (n : Fin 8), s.dead = false ∧ n.val < s.part.stations ∧ 2 ≤ (linkU s n).step ∧ burst (modLink n
      (fun l =>
      { l with

          recent := if l.recent = [] then [(s.g (STN_SWEEPNO_COUNT n), false, 1)] else l.recent.modifyHead (fun e => (e.1, e.2.1, e.2.2 + 1)) })
      s) n = false) :=
  ⟨⟨{ rig [] with stn := [(7, { active := { num := 1, htWarn := 2000, htCrit := 3000 }, link := { step := 6, waiting := [{ ty := 0x13, seq := 5, bytes := [] }] } })] },
      7, (⟨true, false, false, false, false, false, 5, 0xFFFFFFFF, 0x0140, 0, 9⟩ : LinkStatus), by decide +kernel⟩,
    ⟨{ rig [(PCTX_STATE_STATE 255, Px.imaging)] with stn := [(7, { link := { step := 6, unreported := [(4, some 255)] } })] },
      7,
      { (⟨true, false, false, false, false, false, 5, 0xFFFFFFFF, 0x0140, 0, 9⟩ : LinkStatus) with
          damaged := true, sweep := 4 }, 255, by decide +kernel⟩,
    ⟨{ rig [(STN_LSTAT_STATE 7, Lk.up)] with stn := [(7, { link := { step := 6 } })] }, 7,
      { (⟨true, false, false, false, false, false, 5, 0xFFFFFFFF, 0x0140, 0, 9⟩ : LinkStatus) with lock := false },
      by decide +kernel⟩,
    ⟨{ rig [] with stn := [(7, { link := { step := 5, version := 0x0200, waiting := [{ ty := 0x14, seq := 5, bytes := [] }] } })] },
      7, (⟨true, false, false, false, false, false, 5, 0xFFFFFFFF, 0x0140, 0, 9⟩ : LinkStatus), by decide +kernel⟩,
    ⟨{ rig [] with stn := [(7, { link := { step := 6, unrep := 7, missed := [(4, 255)] } })] }, 7,
      { (⟨true, false, false, false, false, false, 5, 0xFFFFFFFF, 0x0140, 0, 9⟩ : LinkStatus) with sweep := 4 },
      by decide +kernel⟩,
    ⟨{ rig [] with stn := [(7, { link := { step := 6 } })] }, 7, by decide +kernel⟩,
    ⟨{ rig [] with stn := [(7, { link := { version := 0x0200, agreed := true } })] }, 7, by decide +kernel⟩,
    ⟨{ rig [] with stn := [(7, { link := { waiting := [{ ty := 0x14, seq := 5, resends := 2, bytes := [1] }] } })] },
      7, 5#16, { ty := 0x14, seq := 5, resends := 2, bytes := [1] }, by decide +kernel⟩,
    ⟨{ rig [] with stn := [(7, { link := { waiting := [{ ty := 0x11, seq := 5, resends := 3, bytes := [1] }] } })] },
      7, 5#16, { ty := 0x11, seq := 5, resends := 3, bytes := [1] }, by decide +kernel⟩,
    ⟨{ rig [(STN_LSTAT_STATE 7, Lk.up)] with stn := [(7, { link := { step := 6, waiting := [{ ty := 0x12, seq := 5, resends := 3, bytes := [1] }] } })] },
      7, 5#16, { ty := 0x12, seq := 5, resends := 3, bytes := [1] }, by decide +kernel⟩,
    ⟨{ rig [(STN_SWEEPNO_COUNT 7, 1)] with stn := [(7, { link := { unreported := [(2 ^ 28 - 1, none)], unrep := 6 } })] },
      7, (2 ^ 28 - 1, none), [], by decide +kernel⟩,
    ⟨{ rig [(STN_SWEEPNO_COUNT 7, 1), (STN_LSTAT_STATE 7, Lk.up)] with stn := [(7, { link := { unreported := [(2 ^ 28 - 1, none)], unrep := 7 } })] },
      7, (2 ^ 28 - 1, none), [], by decide +kernel⟩,
    ⟨{ rig [(STN_LSTAT_STATE 7, Lk.up), (PCTX_STATE_STATE 255, Px.feeding), (PCTX_STATE_STN_MASK 255, 128)] with ctx := [(255, { fed := true, gen := List.replicate 8 1 })], stn := [(7, { held := [{ num := 1 }], link := { bankGen := [none, none] } })] },
      7, 255, { num := 1 }, by decide +kernel⟩,
    ⟨{ rig [(STN_LSTAT_STATE 7, Lk.up), (STN_DCAP1_LIV 7, 1)] with stn := [(7, { active := { liv := true }, link := { version := 0x0200 } })] },
      7, by decide +kernel⟩,
    ⟨{ rig [] with stn := [(7, { link := { step := 6 } })] }, 7, by decide +kernel⟩⟩

theorem witness_MotorControl :
    (∃ (s : State) (n : Fin 24) (v : Word), Reaches s (MC_CTRL n) ∧ fieldOf (MC_CTRL_ENABLE n) v = 1 ∧ fieldOf
      (MC_CTRL_STOP n) v = 0 ∧ mcState s n = Mcs.off ∧ mcEnableOk s n = true) ∧
    (∃ (s : State) (n : Fin 24) (v : Word), Reaches s (MC_CTRL n) ∧ fieldOf (MC_CTRL_ENABLE n) v = 1 ∧ mcState s n
      = Mcs.off ∧ mcEnableOk s n = false) ∧
    (∃ (s : State) (n : Fin 24) (v : Word), Reaches s (MC_CTRL n) ∧ fieldOf (MC_CTRL_ENABLE n) v = 0 ∧ fieldOf
      (MC_CTRL_STOP n) v = 0 ∧ s.on (MC_CTRL_ENABLE n) = true ∧ mcState s n = Mcs.run) ∧
    (∃ (s : State) (n : Fin 24) (v : Word), Reaches s (MC_CTRL n) ∧ fieldOf (MC_CTRL_ENABLE n) v = 0 ∧ fieldOf
      (MC_CTRL_STOP n) v = 0 ∧ s.on (MC_CTRL_ENABLE n) = true ∧ (1 ≤ mcState s n ∧ mcState s n ≤ Mcs.open_ ∨
      mcState s n = Mcs.reacq)) ∧
    (∃ (s : State) (n : Fin 24) (v : Word), Reaches s (MC_CTRL n) ∧ fieldOf (MC_CTRL_ENABLE n) v = 1 ∧ s.on
      (MC_CTRL_ENABLE n) = true ∧ fieldOf (MC_CTRL_STOP n) v = 1 ∧ (mcState s n = Mcs.run ∨ mcState s n =
      Mcs.reacq)) ∧
    (∃ (s : State) (n : Fin 24) (v : Word), Reaches s (MC_CTRL n) ∧ fieldOf (MC_CTRL_ENABLE n) v = 1 ∧ s.on
      (MC_CTRL_ENABLE n) = true ∧ fieldOf (MC_CTRL_STOP n) v = 1 ∧ 1 ≤ mcState s n ∧ mcState s n ≤ Mcs.open_) ∧
    (∃ (s : State) (n : Fin 24) (v : Word), Reaches s (MC_CTRL n) ∧ fieldOf (MC_CTRL_CLEAR n) v = 1 ∧ mcState s n
      = Mcs.fault ∧ (mcU s n).drvLow = false ∧ ((mcU s n).why ≠ 2 ∨ (mcU s n).overCur = false)) ∧
    (∃ (s : State) (n : Fin 24) (v : Word), Reaches s (MC_CTRL n) ∧ fieldOf (MC_CTRL_CLEAR n) v = 1 ∧ mcState s n
      = Mcs.fault ∧ ((mcU s n).why = 1 ∧ (mcU s n).drvLow = true ∨ (mcU s n).why = 2 ∧ (mcU s n).overCur = true))
      ∧
    (∃ (s : State) (n : Fin 24), s.dead = false ∧ mcState s n = Mcs.stopping ∧ (mcU s n).short = true) ∧
    (∃ (s : State) (k : Fin 8), s.dead = false ∧ s.g (CMD_CFG_MODE k) = 1) ∧
    (∃ (s : State) (k : Fin 8) (b : BitVec 32), s.dead = false ∧ s.g (CMD_CFG_MODE k) = 2 ∧ b ≠ 0#32) ∧
    (∃ (s : State) (k : Fin 8), s.dead = false ∧ s.g (CMD_CFG_MODE k) = 3) ∧
    (∃ (s : State) (k : Fin 8), s.dead = false ∧ s.g (CMD_CFG_MODE k) = 2 ∧ (cmdU s k).lost = false ∧ selecting s
      k = []) ∧
    (∃ (s : State) (n : Fin 24) (k : Fin 8), s.dead = false ∧ s.g (CMD_CFG_MODE k) = 2 ∧ (cmdU s k).lost = false ∧
      (s.g (CMD_CFG_LOSS_ACT k) ≠ 2 ∨ mcState s n = Mcs.run) ∧ selecting s k = [n.val]) :=
  ⟨⟨{ rig [(MC_STAT_STATE 7, 0), (MC_PWM_FREQ 7, 200), (MC_MOTOR_POLE_PAIRS 7, 4), (MC_OCTRIP_OCTRIP 7, 1000), (MC_FREQ_F_STILL 7, 5), (MC_FREQ_F_CATCH 7, 20), (MC_FREQ_F_HAND 7, 60), (MC_SENSE_INU 7, 0), (MC_SENSE_INV 7, 1)] with mot := { mc := [(7, { drvLow := true })] } },
      7, 1#32, by decide +kernel⟩,
    ⟨{ rig [(MC_STAT_STATE 7, 0)] with mot := { mc := [(7, {  })] } }, 7, 1#32, by decide +kernel⟩,
    ⟨{ rig [(MC_STAT_STATE 7, 5), (MC_CTRL_ENABLE 7, 1), (MC_SPEED_RPM 7, 0xFFFFF)] with mot := { mc := [(7, {  })] } },
      7, 0#32, by decide +kernel⟩,
    ⟨{ rig [(MC_STAT_STATE 7, 6), (MC_CTRL_ENABLE 7, 1)] with mot := { mc := [(7, {  })] } }, 7, 0#32,
      by decide +kernel⟩,
    ⟨{ rig [(MC_STAT_STATE 7, 6), (MC_CTRL_ENABLE 7, 1)] with mot := { mc := [(7, { stopN := 5 })] } }, 7, 3#32,
      by decide +kernel⟩,
    ⟨{ rig [(MC_STAT_STATE 7, 4), (MC_CTRL_ENABLE 7, 1)] with mot := { mc := [(7, {  })] } }, 7, 3#32,
      by decide +kernel⟩,
    ⟨{ rig [(MC_STAT_STATE 7, 8), (MC_STAT_CAUSE 7, 2)] with mot := { mc := [(7, {  })] } }, 7, 5#32,
      by decide +kernel⟩,
    ⟨{ rig [(MC_STAT_STATE 7, 8), (MC_STAT_CAUSE 7, 1)] with mot := { mc := [(7, { drvLow := true, why := 1 })] } },
      7, 4#32, by decide +kernel⟩,
    ⟨{ rig [(MC_STAT_STATE 7, 7), (MC_CTRL_STOP 7, 1)] with mot := { mc := [(7, { short := true })] } }, 7,
      by decide +kernel⟩,
    ⟨{ rig [(CMD_CFG_MODE 7, 1)] with mot := { cmd := [(7, ⟨true, 5⟩)] } }, 7, by decide +kernel⟩,
    ⟨rig [(CMD_CFG_MODE 7, 2)], 7, 3, by decide +kernel⟩,
    ⟨rig [(CMD_CFG_MODE 7, 3), (CMD_CFG_FS_HZ 7, 1000)], 7, by decide +kernel⟩,
    ⟨rig [(CMD_CFG_MODE 7, 2), (CMD_STAT_X 7, 262144), (CMD_GAIN_GAIN 7, 77)], 7, by decide +kernel⟩,
    ⟨rig [(CMD_CFG_MODE 7, 2), (CMD_CFG_LOSS_ACT 7, 2), (MC_CTRL_SRC 1, 1), (MC_CTRL_CMD_SEL 1, 7), (MC_STAT_STATE
      1, 5)], 1, 7, by decide +kernel⟩⟩

theorem witness_MotorRunning :
    (∃ (s : State) (n : Fin 24) (emf : Bool) (hz : BitVec 16), s.dead = false ∧ mcState s n = Mcs.sense ∧ emf =
      true ∧ (mcIn s n (MC_FREQ_F_CATCH n) : Int) ≤ sext 16 hz.toNat) ∧
    (∃ (s : State) (n : Fin 24) (emf : Bool) (hz : BitVec 16), s.dead = false ∧ mcState s n = Mcs.sense ∧ (emf =
      false ∨ ((sext 16 hz.toNat).natAbs < mcIn s n (MC_FREQ_F_STILL n) ∧ mcIn s n (MC_FREQ_F_STILL n) ≤ mcIn s n
      (MC_FREQ_F_CATCH n)))) ∧
    (∃ (s : State) (n : Fin 24) (emf : Bool) (hz : BitVec 16), s.dead = false ∧ mcState s n = Mcs.sense ∧ emf =
      true ∧ sext 16 hz.toNat < (mcIn s n (MC_FREQ_F_CATCH n) : Int) ∧ mcIn s n (MC_FREQ_F_STILL n) ≤ (sext 16
      hz.toNat).natAbs) ∧
    (∃ (s : State) (n : Fin 24), s.dead = false ∧ mcState s n = Mcs.brake) ∧
    (∃ (s : State) (n : Fin 24) (a : List Nat), s.dead = false ∧ mcState s n = Mcs.ipd ∧ contrastOk s n
      (pulseTimes s n a) = true) ∧
    (∃ (s : State) (n : Fin 24) (a : List Nat), s.dead = false ∧ mcState s n = Mcs.ipd ∧ contrastOk s n
      (pulseTimes s n a) = false ∧ (mcU s n).tries < mcIn s n (MC_START_RETRY n)) ∧
    (∃ (s : State) (n : Fin 24) (a : List Nat), s.dead = false ∧ mcState s n = Mcs.ipd ∧ contrastOk s n
      (pulseTimes s n a) = false ∧ mcIn s n (MC_START_RETRY n) ≤ (mcU s n).tries) ∧
    (∃ (s : State) (n : Fin 24), s.dead = false ∧ (mcState s n = Mcs.brake ∨ mcState s n = Mcs.open_)) ∧
    (∃ (s : State) (n : Fin 24), s.dead = false ∧ mcState s n = Mcs.reacq) ∧
    (∃ (s : State) (n : Fin 24) (hz : BitVec 16), s.dead = false ∧ mcState s n = Mcs.reacq ∧ (mcIn s n
      (MC_FREQ_F_CATCH n) : Int) ≤ sext 16 hz.toNat) ∧
    (∃ (s : State) (n : Fin 24) (hz : BitVec 16), s.dead = false ∧ mcState s n = Mcs.reacq ∧ sext 16 hz.toNat <
      (mcIn s n (MC_FREQ_F_CATCH n) : Int)) ∧
    (∃ (s : State) (n : Fin 24), s.dead = false ∧ n.val < s.part.foc ∧ s.mapped 0x10 n 6 = true ∧ mcState s n ≠
      Mcs.fault) ∧
    (∃ (s : State) (n : Fin 24), s.dead = false ∧ n.val < s.part.foc ∧ s.mapped 0x10 n 6 = true) ∧
    (∃ (s : State) (n : Fin 24) (x : PwmSample), s.dead = false ∧ (sext 20 x.iu.toNat).natAbs ≤ s.g
      (MC_OCTRIP_OCTRIP n) ∧ (sext 20 x.iv.toNat).natAbs ≤ s.g (MC_OCTRIP_OCTRIP n) ∧ ((if s.on (MC_SENSE_W_EN n)
      then sext 20 x.iw.toNat else -(sext 20 x.iu.toNat) - sext 20 x.iv.toNat)).natAbs ≤ s.g (MC_OCTRIP_OCTRIP n)
      ∧ (mcState s n = Mcs.sense ∨ mcState s n = Mcs.brake ∨ mcState s n = Mcs.ipd ∨ mcState s n = Mcs.reacq)) ∧
    (∃ (s : State) (n : Fin 24) (x : PwmSample), s.dead = false ∧ (sext 20 x.iu.toNat).natAbs ≤ s.g
      (MC_OCTRIP_OCTRIP n) ∧ (sext 20 x.iv.toNat).natAbs ≤ s.g (MC_OCTRIP_OCTRIP n) ∧ ((if s.on (MC_SENSE_W_EN n)
      then sext 20 x.iw.toNat else -(sext 20 x.iu.toNat) - sext 20 x.iv.toNat)).natAbs ≤ s.g (MC_OCTRIP_OCTRIP n)
      ∧ mcState s n = Mcs.run ∧ x.residual.toNat ≤ s.g (MC_OBS_RES_LIMIT n) ∧ slower s n (sext 20 x.rpm.toNat)
      (s.g (MC_FREQ_F_CATCH n)) = false) ∧
    (∃ (s : State) (n : Fin 24) (x : PwmSample), s.dead = false ∧ (sext 20 x.iu.toNat).natAbs ≤ s.g
      (MC_OCTRIP_OCTRIP n) ∧ (sext 20 x.iv.toNat).natAbs ≤ s.g (MC_OCTRIP_OCTRIP n) ∧ ((if s.on (MC_SENSE_W_EN n)
      then sext 20 x.iw.toNat else -(sext 20 x.iu.toNat) - sext 20 x.iv.toNat)).natAbs ≤ s.g (MC_OCTRIP_OCTRIP n)
      ∧ mcState s n = Mcs.run ∧ slower s n (sext 20 x.rpm.toNat) (s.g (MC_FREQ_F_CATCH n)) = true) ∧
    (∃ (s : State) (n : Fin 24) (x : PwmSample), s.dead = false ∧ (sext 20 x.iu.toNat).natAbs ≤ s.g
      (MC_OCTRIP_OCTRIP n) ∧ (sext 20 x.iv.toNat).natAbs ≤ s.g (MC_OCTRIP_OCTRIP n) ∧ ((if s.on (MC_SENSE_W_EN n)
      then sext 20 x.iw.toNat else -(sext 20 x.iu.toNat) - sext 20 x.iv.toNat)).natAbs ≤ s.g (MC_OCTRIP_OCTRIP n)
      ∧ mcState s n = Mcs.open_ ∧ ¬ (s.g (MC_FREQ_F_HAND n) * (s.g (MC_PWM_FREQ n) * 100) ≤ s.g (MC_RAMP_ACCEL n)
      * 10 * ((mcU s n).openN + 1) ∧ 64 ≤ (if x.residual.toNat < s.g (MC_OBS_RES_LIMIT n) then (mcU s n).good + 1
      else 0))) ∧
    (∃ (s : State) (n : Fin 24) (x : PwmSample), s.dead = false ∧ (sext 20 x.iu.toNat).natAbs ≤ s.g
      (MC_OCTRIP_OCTRIP n) ∧ (sext 20 x.iv.toNat).natAbs ≤ s.g (MC_OCTRIP_OCTRIP n) ∧ ((if s.on (MC_SENSE_W_EN n)
      then sext 20 x.iw.toNat else -(sext 20 x.iu.toNat) - sext 20 x.iv.toNat)).natAbs ≤ s.g (MC_OCTRIP_OCTRIP n)
      ∧ mcState s n = Mcs.open_ ∧ s.g (MC_FREQ_F_HAND n) * (s.g (MC_PWM_FREQ n) * 100) ≤ s.g (MC_RAMP_ACCEL n) *
      10 * ((mcU s n).openN + 1) ∧ 64 ≤ (if x.residual.toNat < s.g (MC_OBS_RES_LIMIT n) then (mcU s n).good + 1
      else 0)) ∧
    (∃ (s : State) (n : Fin 24) (x : PwmSample), s.dead = false ∧ (sext 20 x.iu.toNat).natAbs ≤ s.g
      (MC_OCTRIP_OCTRIP n) ∧ (sext 20 x.iv.toNat).natAbs ≤ s.g (MC_OCTRIP_OCTRIP n) ∧ ((if s.on (MC_SENSE_W_EN n)
      then sext 20 x.iw.toNat else -(sext 20 x.iu.toNat) - sext 20 x.iv.toNat)).natAbs ≤ s.g (MC_OCTRIP_OCTRIP n)
      ∧ mcState s n = Mcs.stopping ∧ (mcU s n).short = false ∧ slower s n (sext 20 x.rpm.toNat) (s.g
      (MC_FREQ_F_CATCH n)) = true) ∧
    (∃ (s : State) (n : Fin 24) (x : PwmSample), s.dead = false ∧ (s.g (MC_OCTRIP_OCTRIP n) < (sext 20
      x.iu.toNat).natAbs ∨ s.g (MC_OCTRIP_OCTRIP n) < (sext 20 x.iv.toNat).natAbs ∨ s.g (MC_OCTRIP_OCTRIP n) <
      ((if s.on (MC_SENSE_W_EN n) then sext 20 x.iw.toNat else -(sext 20 x.iu.toNat) - sext 20
      x.iv.toNat)).natAbs) ∧ mcState s n ≠ Mcs.off ∧ mcState s n ≠ Mcs.fault) :=
  ⟨⟨{ rig [(MC_STAT_STATE 7, 1), (MC_PWM_FREQ 7, 200), (MC_MOTOR_POLE_PAIRS 7, 4), (MC_OCTRIP_OCTRIP 7, 1000), (MC_FREQ_F_STILL 7, 5), (MC_FREQ_F_CATCH 7, 20), (MC_FREQ_F_HAND 7, 60), (MC_SENSE_INU 7, 0), (MC_SENSE_INV 7, 1)] with mot := { mc := [(7, {  })] } },
      7, true, 20#16, by decide +kernel⟩,
    ⟨{ rig [(MC_STAT_STATE 7, 1), (MC_PWM_FREQ 7, 200), (MC_MOTOR_POLE_PAIRS 7, 4), (MC_OCTRIP_OCTRIP 7, 1000), (MC_FREQ_F_STILL 7, 5), (MC_FREQ_F_CATCH 7, 20), (MC_FREQ_F_HAND 7, 60), (MC_SENSE_INU 7, 0), (MC_SENSE_INV 7, 1)] with mot := { mc := [(7, {  })] } },
      7, true, 0xFFFC#16, by decide +kernel⟩,
    ⟨{ rig [(MC_STAT_STATE 7, 1), (MC_PWM_FREQ 7, 200), (MC_MOTOR_POLE_PAIRS 7, 4), (MC_OCTRIP_OCTRIP 7, 1000), (MC_FREQ_F_STILL 7, 5), (MC_FREQ_F_CATCH 7, 20), (MC_FREQ_F_HAND 7, 60), (MC_SENSE_INU 7, 0), (MC_SENSE_INV 7, 1)] with mot := { mc := [(7, {  })] } },
      7, true, 0xFFE0#16, by decide +kernel⟩,
    ⟨{ rig [(MC_STAT_STATE 7, 2)] with mot := { mc := [(7, {  })] } }, 7, by decide +kernel⟩,
    ⟨{ rig [(MC_STAT_STATE 7, 3), (MC_START_CONTRAST 7, 40), (MC_START_TPULSE 7, 100)] with mot := { mc := [(7, {  })] } },
      7, [100, 90, 80, 95, 96, 97, 98, 99, 60, 96, 97, 98], by decide +kernel⟩,
    ⟨{ rig [(MC_STAT_STATE 7, 3), (MC_START_CONTRAST 7, 41), (MC_START_TPULSE 7, 100), (MC_START_RETRY 7, 3)] with mot := { mc := [(7, { tries := 2 })] } },
      7, [100, 90, 80, 95, 96, 97, 98, 99, 60, 96, 97, 98], by decide +kernel⟩,
    ⟨{ rig [(MC_STAT_STATE 7, 3), (MC_START_CONTRAST 7, 41), (MC_START_TPULSE 7, 100)] with mot := { mc := [(7, {  })] } },
      7, [100, 90, 80, 95, 96, 97, 98, 99, 60, 96, 97, 98], by decide +kernel⟩,
    ⟨{ rig [(MC_STAT_STATE 7, 4)] with mot := { mc := [(7, {  })] } }, 7, by decide +kernel⟩,
    ⟨{ rig [(MC_STAT_STATE 7, 6)] with mot := { mc := [(7, {  })] } }, 7, by decide +kernel⟩,
    ⟨{ rig [(MC_STAT_STATE 7, 6), (MC_PWM_FREQ 7, 200), (MC_MOTOR_POLE_PAIRS 7, 4), (MC_OCTRIP_OCTRIP 7, 1000), (MC_FREQ_F_STILL 7, 5), (MC_FREQ_F_CATCH 7, 20), (MC_FREQ_F_HAND 7, 60), (MC_SENSE_INU 7, 0), (MC_SENSE_INV 7, 1)] with mot := { mc := [(7, { bad := 3 })] } },
      7, 0x7FFF#16, by decide +kernel⟩,
    ⟨{ rig [(MC_STAT_STATE 7, 6), (MC_PWM_FREQ 7, 200), (MC_MOTOR_POLE_PAIRS 7, 4), (MC_OCTRIP_OCTRIP 7, 1000), (MC_FREQ_F_STILL 7, 5), (MC_FREQ_F_CATCH 7, 20), (MC_FREQ_F_HAND 7, 60), (MC_SENSE_INU 7, 0), (MC_SENSE_INV 7, 1)] with mot := { mc := [(7, {  })] } },
      7, 0x8000#16, by decide +kernel⟩,
    ⟨{ rig [(MC_STAT_STATE 7, 5)] with mot := { mc := [(7, {  })] } , rig := { pins := [(0x10, 7, 6)] } }, 7,
      by decide +kernel⟩,
    ⟨{ rig [(MC_STAT_STATE 7, 8)] with mot := { mc := [(7, { drvLow := true })] } , rig := { pins := [(0x10, 7, 6)] } },
      7, by decide +kernel⟩,
    ⟨{ rig [(MC_STAT_STATE 7, 2), (MC_PWM_FREQ 7, 200), (MC_MOTOR_POLE_PAIRS 7, 4), (MC_OCTRIP_OCTRIP 7, 1000), (MC_FREQ_F_STILL 7, 5), (MC_FREQ_F_CATCH 7, 20), (MC_FREQ_F_HAND 7, 60), (MC_SENSE_INU 7, 0), (MC_SENSE_INV 7, 1)] with mot := { mc := [(7, {  })] } },
      7, ⟨1000, 0xFFC18, 0, 0, 0x80000, 0xFFFFF, 0⟩, by decide +kernel⟩,
    ⟨{ rig [(MC_STAT_STATE 7, 5), (MC_PWM_FREQ 7, 200), (MC_MOTOR_POLE_PAIRS 7, 4), (MC_OCTRIP_OCTRIP 7, 1000), (MC_FREQ_F_STILL 7, 5), (MC_FREQ_F_CATCH 7, 20), (MC_FREQ_F_HAND 7, 60), (MC_SENSE_INU 7, 0), (MC_SENSE_INV 7, 1)] with mot := { mc := [(7, { duty := some (1, 2, 3) })] } },
      7, ⟨1000, 0xFFC18, 0, 0, 2400, 1, 0⟩, by decide +kernel⟩,
    ⟨{ rig [(MC_STAT_STATE 7, 5), (MC_PWM_FREQ 7, 200), (MC_MOTOR_POLE_PAIRS 7, 4), (MC_OCTRIP_OCTRIP 7, 1000), (MC_FREQ_F_STILL 7, 5), (MC_FREQ_F_CATCH 7, 20), (MC_FREQ_F_HAND 7, 60), (MC_SENSE_INU 7, 0), (MC_SENSE_INV 7, 1)] with mot := { mc := [(7, {  })] } },
      7, ⟨0, 0, 0, 0, 2399, 1, 0⟩, by decide +kernel⟩,
    ⟨{ rig [(MC_STAT_STATE 7, 4), (MC_PWM_FREQ 7, 200), (MC_MOTOR_POLE_PAIRS 7, 4), (MC_OCTRIP_OCTRIP 7, 1000), (MC_FREQ_F_STILL 7, 5), (MC_FREQ_F_CATCH 7, 20), (MC_FREQ_F_HAND 7, 60), (MC_SENSE_INU 7, 0), (MC_SENSE_INV 7, 1)] with mot := { mc := [(7, { duty := some (1, 2, 3) })] } },
      7, ⟨1000, 0xFFC18, 0, 0, 2400, 1, 0⟩, by decide +kernel⟩,
    ⟨{ rig [(MC_STAT_STATE 7, 4), (MC_PWM_FREQ 7, 200), (MC_MOTOR_POLE_PAIRS 7, 4), (MC_OCTRIP_OCTRIP 7, 1000), (MC_FREQ_F_STILL 7, 5), (MC_FREQ_F_CATCH 7, 20), (MC_FREQ_F_HAND 7, 60), (MC_SENSE_INU 7, 0), (MC_SENSE_INV 7, 1), (MC_RAMP_ACCEL 7, 1000), (MC_OBS_RES_LIMIT 7, 1)] with mot := { mc := [(7, { good := 63, openN := 200, duty := some (1, 2, 3) })] } },
      7, ⟨1000, 0xFFC18, 0, 0, 2400, 1, 0⟩, by decide +kernel⟩,
    ⟨{ rig [(MC_STAT_STATE 7, 7), (MC_PWM_FREQ 7, 200), (MC_MOTOR_POLE_PAIRS 7, 4), (MC_OCTRIP_OCTRIP 7, 1000), (MC_FREQ_F_STILL 7, 5), (MC_FREQ_F_CATCH 7, 20), (MC_FREQ_F_HAND 7, 60), (MC_SENSE_INU 7, 0), (MC_SENSE_INV 7, 1)] with mot := { mc := [(7, { duty := some (1, 2, 3) })] } },
      7, ⟨1000, 0xFFC18, 0, 0, 2399, 1, 0⟩, by decide +kernel⟩,
    ⟨{ rig [(MC_STAT_STATE 7, 7), (MC_PWM_FREQ 7, 200), (MC_MOTOR_POLE_PAIRS 7, 4), (MC_OCTRIP_OCTRIP 7, 1000), (MC_FREQ_F_STILL 7, 5), (MC_FREQ_F_CATCH 7, 20), (MC_FREQ_F_HAND 7, 60), (MC_SENSE_INU 7, 0), (MC_SENSE_INV 7, 1)] with mot := { mc := [(7, {  })] } },
      7, ⟨600, 500, 0, 0, 0, 0, 0⟩, by decide +kernel⟩⟩

theorem witness_AxisControl :
    (∃ (s : State) (n : Fin 48) (v : Word), Reaches s (AX_CTRL n) ∧ joinOk s n v = true ∧ fieldOf (AX_CTRL_ENABLE
      n) v = 1 ∧ fieldOf (AX_CTRL_STOP n) v = 0 ∧ fieldOf (AX_CTRL_GO n) v = 0 ∧ axState s n = Axs.off ∧ s.mapped
      0x12 n 0 = true ∧ s.g (AX_MSTEP_PMAX n) ≠ 0 ∧ 10 ≤ s.g (AX_TIMING_TH n)) ∧
    (∃ (s : State) (n : Fin 48) (v : Word), Reaches s (AX_CTRL n) ∧ joinOk s n v = true ∧ fieldOf (AX_CTRL_ENABLE
      n) v = 1 ∧ fieldOf (AX_CTRL_STOP n) v = 0 ∧ fieldOf (AX_CTRL_GO n) v = 0 ∧ axState s n = Axs.off ∧ s.on
      (AX_CTRL_ENABLE n) = false ∧ (s.mapped 0x12 n 0 = false ∨ s.g (AX_MSTEP_PMAX n) = 0 ∨ s.g (AX_TIMING_TH n) <
      10)) ∧
    (∃ (s : State) (n : Fin 48) (v : Word), Reaches s (AX_CTRL n) ∧ joinOk s n v = true ∧ fieldOf (AX_CTRL_ENABLE
      n) v = 0 ∧ fieldOf (AX_CTRL_CLEAR n) v = 0 ∧ fieldOf (AX_CTRL_STOP n) v = 0 ∧ fieldOf (AX_CTRL_GO n) v = 0 ∧
      axState s n = Axs.idle) ∧
    (∃ (s : State) (n : Fin 48) (v : Word), Reaches s (AX_CTRL n) ∧ joinOk s n v = true ∧ fieldOf (AX_CTRL_ENABLE
      n) v = 0 ∧ fieldOf (AX_CTRL_CLEAR n) v = 0 ∧ fieldOf (AX_CTRL_STOP n) v = 0 ∧ fieldOf (AX_CTRL_GO n) v = 0 ∧
      axState s n = Axs.moving ∧ atTarget s n = false ∧ (axU s n).byGroup = false ∧ (axU s n).goTick = false ∧
      (axU s n).calls = [] ∧ (axU s n).ended = none ∧ (agU s (s.g (AX_CTRL_GROUP n))).ended = none) ∧
    (∃ (s : State) (n : Fin 48) (v : Word), Reaches s (AX_CTRL n) ∧ joinOk s n v = true ∧ fieldOf (AX_CTRL_ENABLE
      n) v = 1 ∧ fieldOf (AX_CTRL_CLEAR n) v = 0 ∧ fieldOf (AX_CTRL_STOP n) v = 0 ∧ fieldOf (AX_CTRL_GO n) v = 1 ∧
      fieldOf (AX_CTRL_MODE n) v = 1 ∧ fieldOf (AX_CTRL_WAIT_EV n) v = 0 ∧ fieldOf (AX_CTRL_IN_GROUP n) v = 0 ∧
      axState s n = Axs.idle ∧ (axU s n).stopTick = false ∧ s.psq.stopInForce = false ∧ goParam s n (s.g
      (AX_VMAX_VMAX n)) (s.g (AX_ACCEL_ACCEL n)) (s.g (AX_DECEL_DECEL n)) 1 1 false = false) ∧
    (∃ (s : State) (n : Fin 48) (v : Word), Reaches s (AX_CTRL n) ∧ joinOk s n v = true ∧ fieldOf (AX_CTRL_ENABLE
      n) v = 1 ∧ fieldOf (AX_CTRL_CLEAR n) v = 0 ∧ fieldOf (AX_CTRL_STOP n) v = 0 ∧ fieldOf (AX_CTRL_GO n) v = 1 ∧
      fieldOf (AX_CTRL_MODE n) v = 0 ∧ fieldOf (AX_CTRL_REL n) v = s.g (AX_CTRL_REL n) ∧ fieldOf (AX_CTRL_WAIT_EV
      n) v = 0 ∧ fieldOf (AX_CTRL_IN_GROUP n) v = 0 ∧ axState s n = Axs.idle ∧ (axU s n).stopTick = false ∧
      s.psq.stopInForce = false ∧ goParam s n (s.g (AX_VMAX_VMAX n)) (s.g (AX_ACCEL_ACCEL n)) (s.g (AX_DECEL_DECEL
      n)) 1 1 true = false) ∧
    (∃ (s : State) (n : Fin 48) (v : Word), Reaches s (AX_CTRL n) ∧ joinOk s n v = true ∧ fieldOf (AX_CTRL_ENABLE
      n) v = 1 ∧ fieldOf (AX_CTRL_CLEAR n) v = 0 ∧ fieldOf (AX_CTRL_STOP n) v = 0 ∧ fieldOf (AX_CTRL_GO n) v = 1 ∧
      fieldOf (AX_CTRL_MODE n) v = 1 ∧ fieldOf (AX_CTRL_WAIT_EV n) v = 1 ∧ fieldOf (AX_CTRL_IN_GROUP n) v = 0 ∧
      axState s n = Axs.idle ∧ (axU s n).stopTick = false ∧ s.psq.stopInForce = false ∧ goParam s n (s.g
      (AX_VMAX_VMAX n)) (s.g (AX_ACCEL_ACCEL n)) (s.g (AX_DECEL_DECEL n)) 1 1 false = false) ∧
    (∃ (s : State) (n : Fin 48) (v : Word), Reaches s (AX_CTRL n) ∧ joinOk s n v = true ∧ fieldOf (AX_CTRL_ENABLE
      n) v = 1 ∧ fieldOf (AX_CTRL_CLEAR n) v = 0 ∧ fieldOf (AX_CTRL_STOP n) v = 0 ∧ fieldOf (AX_CTRL_GO n) v = 1 ∧
      fieldOf (AX_CTRL_MODE n) v = 1 ∧ fieldOf (AX_CTRL_IN_GROUP n) v = 0 ∧ axState s n = Axs.idle ∧ (axU s
      n).stopTick = false ∧ s.psq.stopInForce = false ∧ goParam s n (s.g (AX_VMAX_VMAX n)) (s.g (AX_ACCEL_ACCEL
      n)) (s.g (AX_DECEL_DECEL n)) 1 1 false = true) ∧
    (∃ (s : State) (n : Fin 48) (v : Word), Reaches s (AX_CTRL n) ∧ joinOk s n v = true ∧ fieldOf (AX_CTRL_ENABLE
      n) v = 1 ∧ fieldOf (AX_CTRL_CLEAR n) v = 0 ∧ fieldOf (AX_CTRL_STOP n) v = 0 ∧ fieldOf (AX_CTRL_GO n) v = 1 ∧
      fieldOf (AX_CTRL_IN_GROUP n) v = 1 ∧ fieldOf (AX_CTRL_GROUP n) v = s.g (AX_CTRL_GROUP n) ∧ s.on
      (AX_CTRL_IN_GROUP n) = true ∧ axState s n = Axs.idle ∧ agState s (s.g (AX_CTRL_GROUP n)) = 0) ∧
    (∃ (s : State) (n : Fin 48) (v : Word), Reaches s (AX_CTRL n) ∧ joinOk s n v = true ∧ fieldOf (AX_CTRL_ENABLE
      n) v = 1 ∧ fieldOf (AX_CTRL_CLEAR n) v = 0 ∧ fieldOf (AX_CTRL_STOP n) v = 1 ∧ fieldOf (AX_CTRL_GO n) v = 0 ∧
      axState s n = Axs.moving ∧ (axU s n).byGroup = false ∧ (axU s n).goTick = false ∧ (axU s n).calls = [] ∧
      (axU s n).ended = none ∧ (agU s (s.g (AX_CTRL_GROUP n))).ended = none) ∧
    (∃ (s : State) (n : Fin 48) (v : Word), Reaches s (AX_CTRL n) ∧ joinOk s n v = true ∧ fieldOf (AX_CTRL_ENABLE
      n) v = 1 ∧ fieldOf (AX_CTRL_CLEAR n) v = 0 ∧ fieldOf (AX_CTRL_STOP n) v = 1 ∧ fieldOf (AX_CTRL_GO n) v = 0 ∧
      axState s n = Axs.waiting ∧ (axU s n).disable = false ∧ (axU s n).byGroup = false ∧ (axU s n).goTick = false
      ∧ (axU s n).calls = [] ∧ (axU s n).ended = none ∧ (agU s (s.g (AX_CTRL_GROUP n))).ended = none) ∧
    (∃ (s : State) (n : Fin 48) (v : Word) (w : Word), Reaches s (AX_CTRL n) ∧ joinOk s n v = true ∧ fieldOf
      (AX_CTRL_ENABLE n) v = 1 ∧ fieldOf (AX_CTRL_CLEAR n) v = 0 ∧ fieldOf (AX_CTRL_STOP n) v = 1 ∧ fieldOf
      (AX_CTRL_GO n) v = 0 ∧ axState s n = Axs.waiting ∧ (axU s n).disable = false ∧ (axU s n).byGroup = false ∧
      s.on (AX_CTRL_IN_GROUP n) = false ∧ (axU s n).goTick = false ∧ (axU s n).calls = [some w] ∧ (axU s n).ended
      = none) ∧
    (∃ (s : State) (n : Fin 48) (v : Word), Reaches s (AX_CTRL n) ∧ joinOk s n v = true ∧ fieldOf (AX_CTRL_ENABLE
      n) v = 1 ∧ fieldOf (AX_CTRL_CLEAR n) v = 0 ∧ fieldOf (AX_CTRL_STOP n) v = 1 ∧ fieldOf (AX_CTRL_GO n) v = 1 ∧
      fieldOf (AX_CTRL_IN_GROUP n) v = 0 ∧ axState s n = Axs.moving ∧ (axU s n).byGroup = false ∧ (axU s n).goTick
      = false ∧ (axU s n).calls = [] ∧ (axU s n).ended = none ∧ (agU s (s.g (AX_CTRL_GROUP n))).ended = none) ∧
    (∃ (s : State) (n : Fin 48) (v : Word), Reaches s (AX_CTRL n) ∧ joinOk s n v = true ∧ fieldOf (AX_CTRL_ENABLE
      n) v = 1 ∧ fieldOf (AX_CTRL_CLEAR n) v = 0 ∧ fieldOf (AX_CTRL_STOP n) v = 1 ∧ fieldOf (AX_CTRL_GO n) v = 0 ∧
      fieldOf (AX_CTRL_GROUP n) v = s.g (AX_CTRL_GROUP n) ∧ axState s n = Axs.moving ∧ (axU s n).byGroup = true ∧
      agState s (s.g (AX_CTRL_GROUP n)) = Axs.moving ∧ (agU s (s.g (AX_CTRL_GROUP n))).goTick = false ∧ (agU s
      (s.g (AX_CTRL_GROUP n))).ended = none ∧ (membersOf s (s.g (AX_CTRL_GROUP n))).all (fun m => (axU s
      m).ended.isNone) = true) ∧
    (∃ (s : State) (n : Fin 48) (v : Word), Reaches s (AX_CTRL n) ∧ joinOk s n v = true ∧ fieldOf (AX_CTRL_ENABLE
      n) v = 1 ∧ fieldOf (AX_CTRL_CLEAR n) v = 1 ∧ fieldOf (AX_CTRL_STOP n) v = 0 ∧ fieldOf (AX_CTRL_GO n) v = 0 ∧
      axState s n = Axs.fault) ∧
    (∃ (s : State) (n : Fin 48), Reaches s (AX_TARGET n) ∧ axBusy s n = false) ∧
    (∃ (s : State) (n : Fin 48), Reaches s (AX_TARGET n) ∧ axSettle n s = s ∧ axBusy s n = true) ∧
    (∃ (s : State) (n : Fin 48) (k : Fin 3), Reaches s (axProfileReg n k) ∧ axMoving (axState s n) = false) ∧
    (∃ (s : State) (n : Fin 48) (k : Fin 3) (v : Word), Reaches s (axProfileReg n k) ∧ axSettle n s = s ∧ axMoving
      (axState s n) = true ∧ (axU s n).byGroup = false ∧ profileRefused s n k v.toNat 1 1 = false) ∧
    (∃ (s : State) (n : Fin 48) (k : Fin 3) (v : Word), Reaches s (axProfileReg n k) ∧ axSettle n s = s ∧ axMoving
      (axState s n) = true ∧ (axU s n).byGroup = false ∧ profileRefused s n k v.toNat 1 1 = true) :=
  ⟨⟨{ rig [(AX_TIMING_TH 3, 10), (AX_TIMING_TEN 3, 2), (AX_MSTEP_PMAX 3, 500), (AX_MSTEP_MINLEVEL 3, 1)] with rig := { pins := [(0x12, 3, 0), (0x12, 3, 1), (0x12, 3, 2)] } },
      3, 1#32, by decide +kernel⟩,
    ⟨{ rig [(AX_STAT_STATE 3, 0)] with mot := { ax := [(3, {  })] } }, 3, 1#32, by decide +kernel⟩,
    ⟨{ rig [(AX_STAT_STATE 3, 1), (AX_CTRL_ENABLE 3, 1)] with mot := { ax := [(3, {  })] } }, 3, 0#32,
      by decide +kernel⟩,
    ⟨{ rig [(AX_STAT_STATE 3, 3), (AX_VMAX_VMAX 3, 1000), (AX_ACCEL_ACCEL 3, 100), (AX_DECEL_DECEL 3, 100), (AX_TIMING_TH 3, 10), (AX_MSTEP_PMAX 3, 500), (AX_MSTEP_MAXLEVEL 3, 8), (AX_CTRL_ENABLE 3, 1)] with mot := { ax := [(3, { vel := 7, velMode := true })] } },
      3, 0#32, by decide +kernel⟩,
    ⟨{ rig [(AX_STAT_STATE 3, 1), (AX_VMAX_VMAX 3, 1000), (AX_ACCEL_ACCEL 3, 100), (AX_DECEL_DECEL 3, 100), (AX_TIMING_TH 3, 10), (AX_MSTEP_PMAX 3, 500), (AX_MSTEP_MAXLEVEL 3, 8), (AX_CTRL_ENABLE 3, 1)] with mot := { ax := [(3, {  })] } },
      3, 0x5005#32, by decide +kernel⟩,
    ⟨{ rig [(AX_STAT_STATE 3, 1), (AX_VMAX_VMAX 3, 1000), (AX_ACCEL_ACCEL 3, 100), (AX_DECEL_DECEL 3, 100), (AX_TIMING_TH 3, 10), (AX_MSTEP_PMAX 3, 500), (AX_MSTEP_MAXLEVEL 3, 8), (AX_CTRL_ENABLE 3, 1), (AX_TARGET_TARGET 3, 100), (AX_POS_POS 3, 500)] with mot := { ax := [(3, {  })] } },
      3, 0x5#32, by decide +kernel⟩,
    ⟨{ rig [(AX_STAT_STATE 3, 1), (AX_VMAX_VMAX 3, 1000), (AX_ACCEL_ACCEL 3, 100), (AX_DECEL_DECEL 3, 100), (AX_TIMING_TH 3, 10), (AX_MSTEP_PMAX 3, 500), (AX_MSTEP_MAXLEVEL 3, 8), (AX_CTRL_ENABLE 3, 1)] with mot := { ax := [(3, {  })] } },
      3, 0x9005#32, by decide +kernel⟩,
    ⟨{ rig [(AX_STAT_STATE 3, 1)] with mot := { ax := [(3, {  })] } }, 3, 0x1005#32, by decide +kernel⟩,
    ⟨{ rig [(AX_STAT_STATE 3, 1), (AX_CTRL_IN_GROUP 3, 1), (AX_CTRL_ENABLE 3, 1)] with mot := { ax := [(3, {  })] } },
      3, 0x800005#32, by decide +kernel⟩,
    ⟨{ rig [(AX_STAT_STATE 3, 3), (AX_VMAX_VMAX 3, 1000), (AX_ACCEL_ACCEL 3, 100), (AX_DECEL_DECEL 3, 100), (AX_TIMING_TH 3, 10), (AX_MSTEP_PMAX 3, 500), (AX_MSTEP_MAXLEVEL 3, 8), (AX_CTRL_ENABLE 3, 1)] with mot := { ax := [(3, { velMode := true })] } },
      3, 0x9#32, by decide +kernel⟩,
    ⟨{ rig [(AX_STAT_STATE 3, 2), (AX_VMAX_VMAX 3, 1000), (AX_ACCEL_ACCEL 3, 100), (AX_DECEL_DECEL 3, 100), (AX_TIMING_TH 3, 10), (AX_MSTEP_PMAX 3, 500), (AX_MSTEP_MAXLEVEL 3, 8), (AX_CTRL_ENABLE 3, 1)] with mot := { ax := [(3, { dist := 4 })] } },
      3, 0x9#32, by decide +kernel⟩,
    ⟨{ rig [(AX_STAT_STATE 3, 2), (AX_VMAX_VMAX 3, 1000), (AX_ACCEL_ACCEL 3, 100), (AX_DECEL_DECEL 3, 100), (AX_TIMING_TH 3, 10), (AX_MSTEP_PMAX 3, 500), (AX_MSTEP_MAXLEVEL 3, 8), (AX_CTRL_ENABLE 3, 1)] with mot := { ax := [(3, { calls := [some 9] })] } },
      3, 0x9#32, 9#32, by decide +kernel⟩,
    ⟨{ rig [(AX_STAT_STATE 3, 3), (AX_VMAX_VMAX 3, 1000), (AX_ACCEL_ACCEL 3, 100), (AX_DECEL_DECEL 3, 100), (AX_TIMING_TH 3, 10), (AX_MSTEP_PMAX 3, 500), (AX_MSTEP_MAXLEVEL 3, 8), (AX_CTRL_ENABLE 3, 1)] with mot := { ax := [(3, { velMode := true })] } },
      3, 0xD#32, by decide +kernel⟩,
    ⟨{ rig [(AX_STAT_STATE 3, 3), (AX_VMAX_VMAX 3, 1000), (AX_ACCEL_ACCEL 3, 100), (AX_DECEL_DECEL 3, 100), (AX_TIMING_TH 3, 10), (AX_MSTEP_PMAX 3, 500), (AX_MSTEP_MAXLEVEL 3, 8), (AX_CTRL_ENABLE 3, 1), (AX_CTRL_IN_GROUP 3, 1), (AX_CTRL_GROUP 3, 7), (AG_STAT_STATE 7, 3)] with mot := { ax := [(3, { byGroup := true })], ag := [(7, { members := [(3, 5)] })] } },
      3, 0xF00009#32, by decide +kernel⟩,
    ⟨{ rig [(AX_STAT_STATE 3, 5), (AX_VMAX_VMAX 3, 1000), (AX_ACCEL_ACCEL 3, 100), (AX_DECEL_DECEL 3, 100), (AX_TIMING_TH 3, 10), (AX_MSTEP_PMAX 3, 500), (AX_MSTEP_MAXLEVEL 3, 8), (AX_CTRL_ENABLE 3, 1)] with mot := { ax := [(3, {  })] } },
      3, 0x11#32, by decide +kernel⟩,
    ⟨{ rig [(AX_STAT_STATE 3, 1)] with mot := { ax := [(3, {  })] } }, 3, by decide +kernel⟩,
    ⟨{ rig [(AX_STAT_STATE 3, 2)] with mot := { ax := [(3, {  })] } }, 3, by decide +kernel⟩,
    ⟨{ rig [(AX_STAT_STATE 3, 1)] with mot := { ax := [(3, {  })] } }, 3, 2, by decide +kernel⟩,
    ⟨{ rig [(AX_STAT_STATE 3, 3), (AX_VMAX_VMAX 3, 1000), (AX_ACCEL_ACCEL 3, 100), (AX_DECEL_DECEL 3, 100), (AX_TIMING_TH 3, 10), (AX_MSTEP_PMAX 3, 500), (AX_MSTEP_MAXLEVEL 3, 8), (AX_CTRL_ENABLE 3, 1)] with mot := { ax := [(3, { velMode := true })] } },
      3, 1, 7#32, by decide +kernel⟩,
    ⟨{ rig [(AX_STAT_STATE 3, 3)] with mot := { ax := [(3, { velMode := true })] } }, 3, 1, 0#32,
      by decide +kernel⟩⟩

theorem witness_AxisMotion :
    (∃ (s : State) (n : Fin 48), s.dead = false ∧ (s.fabricFeeds (0x1200 + n) 0 = true ∨ s.mapped 0x12 n 6 = true)
      ∧ axState s n = Axs.waiting ∧ (s.psq.stopInForce = false ∨ s.on (AX_CTRL_KEEP n) = true)) ∧
    (∃ (s : State) (n : Fin 48), s.dead = false ∧ n.val < s.part.axes ∧ axState s n = Axs.moving ∧ (axU s
      n).byGroup = false ∧ ((∀ m : Fin 48, s.on (AX_ENC_EN m) = false)) ∧ ((∀ m : Fin 48, m ≠ n → axMoving
      (axState s m) = false)) ∧ ((∀ h : Fin 8, axMoving (agState s h) = false ∧ (agU s h).members = [])) ∧ (axU s
      n).velMode = true) ∧
    (∃ (s : State) (n : Fin 48), s.dead = false ∧ n.val < s.part.axes ∧ axState s n = Axs.moving ∧ (axU s
      n).byGroup = false ∧ ((∀ m : Fin 48, s.on (AX_ENC_EN m) = false)) ∧ ((∀ m : Fin 48, m ≠ n → axMoving
      (axState s m) = false)) ∧ ((∀ h : Fin 8, axMoving (agState s h) = false ∧ (agU s h).members = [])) ∧ (axU s
      n).velMode = false) ∧
    (∃ (s : State) (n : Fin 48), s.dead = false ∧ atTarget s n = true ∧ (axU s n).byGroup = false ∧ (axU s
      n).disable = false) ∧
    (∃ (s : State) (n : Fin 48), s.dead = false ∧ (axU s n).byGroup = true ∧ (agU s (s.g (AX_CTRL_GROUP
      n))).members.all (fun m => atTarget s m.1) = true) ∧
    (∃ (s : State) (n : Fin 48) (raw : BitVec 32), s.dead = false ∧ sharers s n = [n.val] ∧ s.on (AX_ENC_EN n) =
      true ∧ axState s n ≠ Axs.off ∧ (axU s n).extFwd = true ∧ (axU s n).ext < ((axU s n).encRaw + sext 32 (unsext
      32 ((raw.toNat : Int) - (axU s n).encRaw)))) ∧
    (∃ (s : State) (n : Fin 48) (raw : BitVec 32), s.dead = false ∧ sharers s n = [n.val] ∧ s.on (AX_ENC_EN n) =
      true ∧ axState s n ≠ Axs.off ∧ (axU s n).extFwd = true ∧ ((axU s n).encRaw + sext 32 (unsext 32 ((raw.toNat
      : Int) - (axU s n).encRaw))) ≤ (axU s n).ext ∧ (axU s n).ext - ((axU s n).encRaw + sext 32 (unsext 32
      ((raw.toNat : Int) - (axU s n).encRaw))) ≤ s.g (AX_ENC_W n)) ∧
    (∃ (s : State) (g : Fin 8) (v : Word), Reaches s (AG_CTRL g) ∧ fieldOf (AG_CTRL_GO g) v = 1 ∧ fieldOf
      (AG_CTRL_STOP g) v = 0 ∧ fieldOf (AG_CTRL_WAIT_EV g) v = 0 ∧ agState s g = 0 ∧ (agU s g).stopTick = false ∧
      s.psq.stopInForce = false ∧ (deltasOf s g).all (fun d => axState s d.1 == Axs.idle) = true ∧ s.g
      (AG_VMAX_VALUE g) ≠ 0 ∧ s.g (AG_ACCEL_VALUE g) ≠ 0 ∧ s.g (AG_DECEL_VALUE g) ≠ 0 ∧ (deltasOf s g).any
      (memberParam s g (leaderOf (deltasOf s g)).2.natAbs) = false ∧ (leaderOf (deltasOf s g)).2.natAbs ≠ 0) ∧
    (∃ (s : State) (g : Fin 8) (v : Word), Reaches s (AG_CTRL g) ∧ fieldOf (AG_CTRL_GO g) v = 1 ∧ fieldOf
      (AG_CTRL_STOP g) v = 0 ∧ fieldOf (AG_CTRL_WAIT_EV g) v = 1 ∧ agState s g = 0 ∧ (agU s g).stopTick = false ∧
      s.psq.stopInForce = false ∧ (deltasOf s g).all (fun d => axState s d.1 == Axs.idle) = true ∧ s.g
      (AG_VMAX_VALUE g) ≠ 0 ∧ s.g (AG_ACCEL_VALUE g) ≠ 0 ∧ s.g (AG_DECEL_VALUE g) ≠ 0 ∧ (deltasOf s g).any
      (memberParam s g (leaderOf (deltasOf s g)).2.natAbs) = false ∧ (leaderOf (deltasOf s g)).2.natAbs ≠ 0) ∧
    (∃ (s : State) (g : Fin 8) (v : Word), Reaches s (AG_CTRL g) ∧ fieldOf (AG_CTRL_GO g) v = 1 ∧ fieldOf
      (AG_CTRL_STOP g) v = 0 ∧ agState s g ≠ 0 ∧ agSettle g s = s) ∧
    (∃ (s : State) (g : Fin 8) (v : Word), Reaches s (AG_CTRL g) ∧ fieldOf (AG_CTRL_GO g) v = 0 ∧ fieldOf
      (AG_CTRL_STOP g) v = 1 ∧ agState s g = Axs.moving ∧ (agU s g).goTick = false ∧ (agU s g).ended = none ∧
      (membersOf s g).all (fun m => (axU s m).ended.isNone) = true ∧ (agU s g).members.all (fun m => decide (m.1 <
      48)) = true) ∧
    (∃ (s : State) (g : Fin 8) (v : Word), Reaches s (AG_CTRL g) ∧ fieldOf (AG_CTRL_GO g) v = 0 ∧ fieldOf
      (AG_CTRL_STOP g) v = 1 ∧ agState s g = Axs.waiting ∧ (agU s g).goTick = false ∧ (agU s g).ended = none ∧
      (membersOf s g).all (fun m => (axU s m).ended.isNone) = true) ∧
    (∃ (s : State) (g : Fin 8), s.dead = false ∧ s.fabricFeeds (0x1300 + g) 0 = true ∧ agState s g = Axs.waiting ∧
      (s.psq.stopInForce = false ∨ s.on (AG_CTRL_KEEP g) = true) ∧ (agU s g).members.all (fun m => decide (m.1 <
      48) && axState s m.1 == Axs.idle) = true) ∧
    (∃ (s : State) (g : Fin 8), s.dead = false ∧ s.fabricFeeds (0x1300 + g) 0 = true ∧ agState s g = Axs.waiting ∧
      (s.psq.stopInForce = false ∨ s.on (AG_CTRL_KEEP g) = true) ∧ (agU s g).members.any (fun m => axState s m.1
      != Axs.idle) = true) :=
  ⟨⟨{ rig [(AX_STAT_STATE 3, 2)] with mot := { ax := [(3, { latch := (true, -1) })] } , rig := { pins := [(0x12, 3, 6)] } },
      3, by decide +kernel⟩,
    ⟨{ rig [(AX_STAT_STATE 3, 3), (AX_VMAX_VMAX 3, 1000), (AX_ACCEL_ACCEL 3, 100), (AX_DECEL_DECEL 3, 100), (AX_TIMING_TH 3, 10), (AX_MSTEP_PMAX 3, 500), (AX_MSTEP_MAXLEVEL 3, 8), (AX_CTRL_ENABLE 3, 1)] with mot := { ax := [(3, { velMode := true, vel := 5, prog := 9 })] } },
      3, by decide +kernel⟩,
    ⟨{ rig [(AX_STAT_STATE 3, 3), (AX_VMAX_VMAX 3, 1000), (AX_ACCEL_ACCEL 3, 100), (AX_DECEL_DECEL 3, 100), (AX_TIMING_TH 3, 10), (AX_MSTEP_PMAX 3, 500), (AX_MSTEP_MAXLEVEL 3, 8), (AX_CTRL_ENABLE 3, 1)] with mot := { ax := [(3, { dist := 500, vel := 5, prog := 9 })] } },
      3, by decide +kernel⟩,
    ⟨{ rig [(AX_STAT_STATE 3, 3), (AX_VMAX_VMAX 3, 1000), (AX_ACCEL_ACCEL 3, 100), (AX_DECEL_DECEL 3, 100), (AX_TIMING_TH 3, 10), (AX_MSTEP_PMAX 3, 500), (AX_MSTEP_MAXLEVEL 3, 8), (AX_CTRL_ENABLE 3, 1)] with mot := { ax := [(3, { dist := 20, prog := 20 * 2000000000000, emitted := 20 })] } },
      3, by decide +kernel⟩,
    ⟨{ rig [(AX_STAT_STATE 3, 3), (AX_CTRL_GROUP 3, 7), (AX_CTRL_IN_GROUP 3, 1), (AG_STAT_STATE 7, 3)] with mot := { ax := [(3, { byGroup := true, dist := 5, prog := 5 * 2000000000000, emitted := 5 })], ag := [(7, { members := [(3, 5)] })] } },
      3, by decide +kernel⟩,
    ⟨{ rig [(AX_STAT_STATE 3, 1), (AX_ENC_EN 3, 1), (AX_CPF_CPF 3, 65536)] with mot := { ax := [(3, { ext := -3 })] } },
      3, 0xFFFFFFFE#32, by decide +kernel⟩,
    ⟨{ rig [(AX_STAT_STATE 3, 1), (AX_ENC_EN 3, 1), (AX_ENC_W 3, 2)] with mot := { ax := [(3, { ext := 2 })] } },
      3, 0#32, by decide +kernel⟩,
    ⟨{ rig [(AX_STAT_STATE 3, 1), (AX_CTRL_IN_GROUP 3, 1), (AX_CTRL_GROUP 3, 7), (AX_VMAX_VMAX 3, 1000), (AX_ACCEL_ACCEL 3, 100), (AX_DECEL_DECEL 3, 100), (AX_TIMING_TH 3, 10), (AX_MSTEP_PMAX 3, 500), (AX_TARGET_TARGET 3, 256), (AG_VMAX_VALUE 7, 1000), (AG_ACCEL_VALUE 7, 100), (AG_DECEL_VALUE 7, 100), (AG_STAT_STATE 7, 0)] with mot := { ag := [(7, { members := [] })] } },
      7, 2#32, by decide +kernel⟩,
    ⟨{ rig [(AX_STAT_STATE 3, 1), (AX_CTRL_IN_GROUP 3, 1), (AX_CTRL_GROUP 3, 7), (AX_VMAX_VMAX 3, 1000), (AX_ACCEL_ACCEL 3, 100), (AX_DECEL_DECEL 3, 100), (AX_TIMING_TH 3, 10), (AX_MSTEP_PMAX 3, 500), (AX_TARGET_TARGET 3, 256), (AG_VMAX_VALUE 7, 1000), (AG_ACCEL_VALUE 7, 100), (AG_DECEL_VALUE 7, 100), (AG_STAT_STATE 7, 0)] with mot := { ag := [(7, { members := [] })] } },
      7, 0x12#32, by decide +kernel⟩,
    ⟨{ rig [(AX_STAT_STATE 3, 4), (AX_CTRL_IN_GROUP 3, 1), (AX_CTRL_GROUP 3, 7), (AX_VMAX_VMAX 3, 1000), (AX_ACCEL_ACCEL 3, 100), (AX_DECEL_DECEL 3, 100), (AX_TIMING_TH 3, 10), (AX_MSTEP_PMAX 3, 500), (AX_TARGET_TARGET 3, 256), (AG_VMAX_VALUE 7, 1000), (AG_ACCEL_VALUE 7, 100), (AG_DECEL_VALUE 7, 100), (AG_STAT_STATE 7, 4)] with mot := { ag := [(7, { members := [(3, 256)] })] } },
      7, 2#32, by decide +kernel⟩,
    ⟨{ rig [(AX_STAT_STATE 3, 3), (AX_CTRL_IN_GROUP 3, 1), (AX_CTRL_GROUP 3, 7), (AX_VMAX_VMAX 3, 1000), (AX_ACCEL_ACCEL 3, 100), (AX_DECEL_DECEL 3, 100), (AX_TIMING_TH 3, 10), (AX_MSTEP_PMAX 3, 500), (AX_TARGET_TARGET 3, 256), (AG_VMAX_VALUE 7, 1000), (AG_ACCEL_VALUE 7, 100), (AG_DECEL_VALUE 7, 100), (AG_STAT_STATE 7, 3)] with mot := { ag := [(7, { members := [(3, 256)] })] } },
      7, 4#32, by decide +kernel⟩,
    ⟨{ rig [(AX_STAT_STATE 3, 1), (AX_CTRL_IN_GROUP 3, 1), (AX_CTRL_GROUP 3, 7), (AX_VMAX_VMAX 3, 1000), (AX_ACCEL_ACCEL 3, 100), (AX_DECEL_DECEL 3, 100), (AX_TIMING_TH 3, 10), (AX_MSTEP_PMAX 3, 500), (AX_TARGET_TARGET 3, 256), (AG_VMAX_VALUE 7, 1000), (AG_ACCEL_VALUE 7, 100), (AG_DECEL_VALUE 7, 100), (AG_STAT_STATE 7, 2)] with mot := { ag := [(7, { members := [] })] } },
      7, 4#32, by decide +kernel⟩,
    ⟨poke [(SPAR_STAT_CONFIGURED, 1)]
      ({ rig [(AX_STAT_STATE 3, 1), (AX_CTRL_IN_GROUP 3, 1), (AX_CTRL_GROUP 3, 7), (AX_VMAX_VMAX 3, 1000), (AX_ACCEL_ACCEL 3, 100), (AX_DECEL_DECEL 3, 100), (AX_TIMING_TH 3, 10), (AX_MSTEP_PMAX 3, 500), (AX_TARGET_TARGET 3, 256), (AG_VMAX_VALUE 7, 1000), (AG_ACCEL_VALUE 7, 100), (AG_DECEL_VALUE 7, 100), (AG_STAT_STATE 7, 2)] with
          mot := { ag := [(7, { members := [(3, 256)] })] } ,
          rig := { routes := [{ line := 5, src := 0x1900, ev := 3, sink := 0x1307, inp := 0, mode := 0 }] } }), 7,
      by decide +kernel⟩,
    ⟨poke [(SPAR_STAT_CONFIGURED, 1)]
      ({ rig [(AX_STAT_STATE 3, 0), (AX_CTRL_IN_GROUP 3, 1), (AX_CTRL_GROUP 3, 7), (AX_VMAX_VMAX 3, 1000), (AX_ACCEL_ACCEL 3, 100), (AX_DECEL_DECEL 3, 100), (AX_TIMING_TH 3, 10), (AX_MSTEP_PMAX 3, 500), (AX_TARGET_TARGET 3, 256), (AG_VMAX_VALUE 7, 1000), (AG_ACCEL_VALUE 7, 100), (AG_DECEL_VALUE 7, 100), (AG_STAT_STATE 7, 2)] with
          mot := { ag := [(7, { members := [(3, 256)] })] } ,
          rig := { routes := [{ line := 5, src := 0x1900, ev := 3, sink := 0x1307, inp := 0, mode := 0 }] } }), 7,
      by decide +kernel⟩⟩

theorem witness_LoopsAndTicks :
    (∃ (s : State) (n : Fin 64) (v : Word), Reaches s (LP_CFG n) ∧ lpOn s n = false ∧ fieldOf (LP_CFG_ENABLE n) v
      = 1 ∧ lpCheck (((s.p (LP_CFG_LEN n) (fieldOf (LP_CFG_LEN n) v)).p (LP_CFG_TB n) (fieldOf (LP_CFG_TB n) v)).p
      (LP_CFG_START n) (fieldOf (LP_CFG_START n) v)) n = none) ∧
    (∃ (s : State) (n : Fin 64) (v : Word) (e : Nat) (w : Nat), Reaches s (LP_CFG n) ∧ lpOn s n = false ∧ fieldOf
      (LP_CFG_ENABLE n) v = 1 ∧ lpCheck (((s.p (LP_CFG_LEN n) (fieldOf (LP_CFG_LEN n) v)).p (LP_CFG_TB n) (fieldOf
      (LP_CFG_TB n) v)).p (LP_CFG_START n) (fieldOf (LP_CFG_START n) v)) n = some (e, w)) ∧
    (∃ (s : State) (n : Fin 64) (v : Word), Reaches s (LP_CFG n) ∧ lpOn s n = true ∧ fieldOf (LP_CFG_ENABLE n) v =
      0) ∧
    (∃ (s : State) (n : Fin 64) (b : Fin 8) (i : CeInstr) (d : Nat), s.dead = false ∧ (s.on (TB_CFG_SRC b) = false
      ∨ s.on (MC_CTRL_ENABLE (s.g (TB_CFG_MC b))) = true) ∧ s.g CE_BELT_TB ≠ b.val ∧ ((∀ u : Fin 4, tuArmed s u =
      false)) ∧ ((∀ m : Fin 64, m ≠ n → s.g (LP_CFG_TB m) ≠ b.val)) ∧ s.g (LP_CFG_TB n) = b.val ∧ lpOn s n = true
      ∧ (ceU s).commits = [] ∧ lpCode s n = [i] ∧ ceDest i = some d ∧ ceStates i = 0) ∧
    (∃ (s : State) (n : Fin 64) (b : Fin 8) (a : Nat) (x : Int), s.dead = false ∧ (s.on (TB_CFG_SRC b) = false ∨
      s.on (MC_CTRL_ENABLE (s.g (TB_CFG_MC b))) = true) ∧ s.g CE_BELT_TB ≠ b.val ∧ ((∀ u : Fin 4, tuArmed s u =
      false)) ∧ ((∀ m : Fin 64, m ≠ n → s.g (LP_CFG_TB m) ≠ b.val)) ∧ s.g (LP_CFG_TB n) = b.val ∧ (lpOn s n = true
      ∨ (enabledLoops s).any (fun k => lpWrites s k a) = false) ∧ bankGet [] (ceU s).commits n = [(a, x)] ∧ 0x400
      ≤ a) ∧
    (∃ (s : State) (n : Fin 64) (b : Fin 8) (a : Nat) (x : Int), s.dead = false ∧ (s.on (TB_CFG_SRC b) = false ∨
      s.on (MC_CTRL_ENABLE (s.g (TB_CFG_MC b))) = true) ∧ s.g CE_BELT_TB ≠ b.val ∧ ((∀ u : Fin 4, tuArmed s u =
      false)) ∧ ((∀ m : Fin 64, m ≠ n → s.g (LP_CFG_TB m) ≠ b.val)) ∧ s.g (LP_CFG_TB n) = b.val ∧ (lpOn s n = true
      ∨ (enabledLoops s).any (fun k => lpWrites s k a) = false) ∧ bankGet [] (ceU s).commits n = [(a, x)] ∧ 1 ≤ a
      ∧ a < 0x400) ∧
    (∃ (s : State) (b : Fin 8), s.dead = false ∧ s.on (TB_CFG_SRC b) = true ∧ s.on (MC_CTRL_ENABLE (s.g (TB_CFG_MC
      b))) = false) :=
  ⟨⟨rig [(CE_PROG_HI_WORD 0, 0x100500D9), (CE_PROG_LO_WORD 0, 0x0), (TB_PERIOD_PERIOD 7, 100000), (CE_CAPS_MHZ,
      200)], 63, 0x80017000#32, by decide +kernel⟩,
    ⟨rig [(CE_PROG_HI_WORD 9, 0xF8000000), (TB_PERIOD_PERIOD 7, 100000)], 63, 0x80017009#32, 2, 9,
      by decide +kernel⟩,
    ⟨rig [(LP_CFG_ENABLE 63, 1), (LP_CFG_LEN 63, 1), (LP_CFG_TB 63, 7), (CE_NODE_NODE 5, 3), (CE_NODE_NODE 6,
      0xFFFFF), (CE_PROG_HI_WORD 0, 0x100500D9), (CE_PROG_LO_WORD 0, 0x0)], 63, 0x00017000#32, by decide +kernel⟩,
    ⟨rig [(LP_CFG_ENABLE 63, 1), (LP_CFG_LEN 63, 1), (LP_CFG_TB 63, 7), (CE_NODE_NODE 5, 3), (CE_NODE_NODE 6,
      0xFFFFF), (CE_PROG_HI_WORD 0, 0x100500D9), (CE_PROG_LO_WORD 0, 0x0)], 63, 7, ⟨2, 5, 6, 0x640, 0, 0, 0⟩,
      0x640, by decide +kernel⟩,
    ⟨{ rig [(LP_CFG_TB 63, 7)] with mot := { ce := { commits := [(63, [(0x640, -1)])] } } }, 63, 7, 0x640, -1,
      by decide +kernel⟩,
    ⟨{ rig [(LP_CFG_TB 63, 7)] with mot := { ce := { commits := [(63, [(1023, -5)])] } } }, 63, 7, 1023, -5,
      by decide +kernel⟩,
    ⟨rig [(TB_CFG_SRC 7, 1), (TB_CFG_MC 7, 3)], 7, by decide +kernel⟩⟩

theorem witness_ControlMemories :
    (∃ (s : State) (c : Fin 4096), Reaches s (CE_COEF c) ∧ s.on CE_CTRL_STAGE = false) ∧
    (∃ (s : State) (c : Fin 4096), Reaches s (CE_COEF c) ∧ s.on CE_CTRL_STAGE = true ∧ (ceU s).staged.length < 64)
      ∧
    (∃ (s : State) (c : Fin 4096), Reaches s (CE_COEF c) ∧ s.on CE_CTRL_STAGE = true ∧ 64 ≤ (ceU s).staged.length)
      ∧
    (∃ (s : State), s.dead = false ∧ s.on CE_STAT_STAGE_PEND = true) ∧
    (∃ (s : State) (i : Fin 1024), Reaches s (CE_NODE i) ∧ i ≠ 0 ∧ (enabledLoops s).any (fun n => lpWrites s n i)
      = false) ∧
    (∃ (s : State) (i : Fin 1024), Reaches s (CE_NODE i) ∧ i = 0) ∧
    (∃ (s : State) (i : Fin 1024), Reaches s (CE_NODE i) ∧ i ≠ 0 ∧ (enabledLoops s).any (fun n => lpWrites s n i)
      = true) ∧
    (∃ (s : State) (w : Fin 4096) (n : Fin 64), Reaches s (CE_PROG_HI w) ∧ (enabledLoops s).filter (fun n =>
      (lpWords s n).contains w.val) = [n.val]) ∧
    (∃ (s : State) (u : Fin 4) (v : Word), Reaches s (TU_CFG u) ∧ tuArmed s u = false ∧ fieldOf (TU_CFG_ARM u) v =
      1 ∧ fieldOf (TU_CFG_ABORT u) v = 0 ∧ fieldOf (TU_CFG_FORCE u) v = 0) ∧
    (∃ (s : State) (u : Fin 4) (v : Word), Reaches s (TU_CFG u) ∧ tuState s u = 1 ∧ fieldOf (TU_CFG_ARM u) v = 0 ∧
      fieldOf (TU_CFG_ABORT u) v = 0 ∧ fieldOf (TU_CFG_FORCE u) v = 1) ∧
    (∃ (s : State) (u : Fin 4) (v : Word), Reaches s (TU_CFG u) ∧ fieldOf (TU_CFG_ARM u) v = 0 ∧ fieldOf
      (TU_CFG_ABORT u) v = 1 ∧ fieldOf (TU_CFG_FORCE u) v = 0) ∧
    (∃ (s : State) (u : Fin 4) (y : Int) (q : List Int) (r : List Int), s.dead = false ∧ tuState s u = 2 ∧ (tuU s
      u).post = 0 ∧ (tuU s u).samples.reverse.flatten = q ++ y :: r ∧ (q ++ y :: r).length ≤ 16384) ∧
    (∃ (s : State), s.dead = false) ∧
    (∃ (s : State) (w : Fin 4096) (n : Fin 64) (mem : Fin 4), s.dead = false ∧ (enabledLoops s).filter (lpUses s
      mem w) = [n.val]) :=
  ⟨⟨rig [], 4095, by decide +kernel⟩,
    ⟨{ rig [(CE_CTRL_STAGE, 1)] with mot := { ce := { staged := List.replicate 63 (1, 2) } } }, 4095,
      by decide +kernel⟩,
    ⟨{ rig [(CE_CTRL_STAGE, 1)] with mot := { ce := { staged := List.replicate 64 (1, 2) } } }, 0,
      by decide +kernel⟩,
    ⟨{ rig [(CE_STAT_STAGE_PEND, 1)] with mot := { ce := { staged := [(4095, 2), (4095, 7), (4095, 9)], due := 2 } } },
      by decide +kernel⟩,
    ⟨rig [], 1023, by decide +kernel⟩,
    ⟨rig [], 0, by decide +kernel⟩,
    ⟨rig [(LP_CFG_ENABLE 63, 1), (LP_CFG_LEN 63, 1), (CE_PROG_HI_WORD 0, 0x805000F), (CE_PROG_LO_WORD 0,
      0xFC000000)], 1023, by decide +kernel⟩,
    ⟨rig [(LP_CFG_ENABLE 63, 1), (LP_CFG_LEN 63, 1)], 0, 63, by decide +kernel⟩,
    ⟨{ rig [(TU_STAT_STATE 3, 3), (TU_PRE_PRE 3, 9)] with mot := { ce := { tu := [(3, { samples := [[1]] })] } } },
      3, 1#32, by decide +kernel⟩,
    ⟨{ rig [(TU_STAT_STATE 3, 1)] with mot := { ce := { tu := [(3, { samples := [[1]] })] } } }, 3, 2#32,
      by decide +kernel⟩,
    ⟨{ rig [(TU_STAT_STATE 3, 2)] with mot := { ce := { tu := [(3, { samples := [[1]] })] } } }, 3, 4#32,
      by decide +kernel⟩,
    ⟨{ rig [(TU_STAT_STATE 3, 2)] with mot := { ce := { tu := [(3, { samples := [[3, 4], [-1, -2]] })] } } }, 3,
      -2, [-1], [3, 4], by decide +kernel⟩,
    ⟨rig [], by decide +kernel⟩,
    ⟨rig [(LP_CFG_ENABLE 63, 1), (LP_CFG_LEN 63, 1)], 0, 63, 0, by decide +kernel⟩⟩

theorem witness_HighVoltage :
    (∃ (s : State) (j : Fin 32) (v : Word), Reaches s (HV_CTRL j) ∧ fieldOf (HV_CTRL_ENABLE j) v = 1 ∧ fieldOf
      (HV_CTRL_HOLD j) v = 0 ∧ hvState s j = Hvs.off ∧ s.on (HV_CTRL_ENABLE j) = false ∧ s.on (HV_STAT_DSC_PEND j)
      = false ∧ hvEnableOk s j = true ∧ outForced s = false ∧ (s.on (HV_GUARD_EN j) = false ∨ ((hvU s j).guardIn =
      true ∧ (hvU s j).guardOut = false))) ∧
    (∃ (s : State) (j : Fin 32) (v : Word), Reaches s (HV_CTRL j) ∧ fieldOf (HV_CTRL_ENABLE j) v = 1 ∧ hvState s j
      = Hvs.off ∧ s.on (HV_CTRL_ENABLE j) = false ∧ (s.on (HV_STAT_DSC_PEND j) = true ∨ outForced s = true ∨ s.on
      (HV_GUARD_EN j) = true ∧ ((hvU s j).guardIn = false ∨ (hvU s j).guardOut = true)) ∧ hvEnableOk s j = true) ∧
    (∃ (s : State) (j : Fin 32) (v : Word), Reaches s (HV_CTRL j) ∧ fieldOf (HV_CTRL_ENABLE j) v = 1 ∧ hvState s j
      = Hvs.off ∧ s.on (HV_CTRL_ENABLE j) = false ∧ hvEnableOk s j = false) ∧
    (∃ (s : State) (j : Fin 32) (v : Word), Reaches s (HV_CTRL j) ∧ fieldOf (HV_CTRL_ENABLE j) v = 0 ∧ fieldOf
      (HV_CTRL_HOLD j) v = 0 ∧ fieldOf (HV_CTRL_MODE j) v = s.g (HV_CTRL_MODE j) ∧ hvState s j = Hvs.on ∧ s.on
      (HV_CTRL_ENABLE j) = true) ∧
    (∃ (s : State) (j : Fin 32) (v : Word), Reaches s (HV_CTRL j) ∧ fieldOf (HV_CTRL_ENABLE j) v = 1 ∧ fieldOf
      (HV_CTRL_HOLD j) v = 1 ∧ fieldOf (HV_CTRL_MODE j) v = s.g (HV_CTRL_MODE j) ∧ hvState s j = Hvs.on ∧ s.on
      (HV_CTRL_ENABLE j) = true) ∧
    (∃ (s : State) (j : Fin 32), s.dead = false ∧ hvState s j = Hvs.on ∧ (s.g (HV_BAND_TOL j) = 0 ∨ (63 ≤ (hvU s
      j).inBand ∧ inWindow (if s.on (HV_CTRL_MODE j) then (hvU s j).ix else (hvU s j).vx) (s.g (HV_BAND_TARGET j))
      (s.g (HV_BAND_TOL j)) = true))) ∧
    (∃ (s : State) (j : Fin 32) (x : BitVec 20) (y : BitVec 20), s.dead = false ∧ (hvState s j = Hvs.on ∧ hvEnergy
      (modHv j (fun _ => hvRelease s j ((max 0 (sext 20 x.toNat)).toNat * s.g (HV_SCALE_VFS j)) ((max 0 (sext 20
      y.toNat)).toNat * s.g (HV_SCALE_IFS j))) s) j ≤ s.g (HV_SHROUD_CEIL j) * tenMicro ∨ hvState s j =
      Hvs.cleated ∨ s.on (HV_CTRL_ENABLE j) = false ∧ hvState s j ≠ Hvs.on)) ∧
    (∃ (s : State) (j : Fin 32), s.dead = false ∧ s.on (HV_CTRL_ENABLE j) = true ∧ (hvState s j = Hvs.off ∨
      hvState s j = Hvs.held) ∧ s.on (HV_CTRL_HOLD j) = false ∧ s.on (HV_STAT_DSC_PEND j) = false ∧ s.running =
      true ∧ outForced s = false ∧ (s.on (HV_GUARD_EN j) = false ∨ ((hvU s j).guardIn = true ∧ (hvU s j).guardOut
      = false))) ∧
    (∃ (s : State) (j : Fin 32) (x : BitVec 20) (y : BitVec 20), s.dead = false ∧ hvState s j = Hvs.on ∧ s.g
      (HV_SHROUD_CEIL j) * tenMicro < hvEnergy (modHv j (fun _ => hvRelease s j ((max 0 (sext 20 x.toNat)).toNat *
      s.g (HV_SCALE_VFS j)) ((max 0 (sext 20 y.toNat)).toNat * s.g (HV_SCALE_IFS j))) s) j) ∧
    (∃ (s : State) (j : Fin 32), s.dead = false ∧ s.on (HV_STAT_DSC_PEND j) = true ∧ (hvU s j).vx < s.g
      (HV_SAFE_VOLTS j) * 524288 ∧ max (hvU s j).dscAt (hvU s j).unsafeAt + 1000000 ≤ s.clock ∧ s.on
      (HV_CTRL_ENABLE j) = false) ∧
    (∃ (s : State) (j : Fin 32), s.dead = false ∧ (s.g (HV_SAFE_VOLTS j) * 524288 ≤ (hvU s j).vx ∨ s.clock < max
      (hvU s j).dscAt (hvU s j).unsafeAt + 1000000)) ∧
    (∃ (s : State) (j : Fin 32), s.dead = false ∧ s.on (HV_STAT_DSC_PEND j) = true ∧ (hvU s j).vx < s.g
      (HV_SAFE_VOLTS j) * 524288 ∧ max (hvU s j).dscAt (hvU s j).unsafeAt + 1000000 ≤ s.clock ∧ s.on
      (HV_CTRL_ENABLE j) = true ∧ (hvState s j = Hvs.off ∨ hvState s j = Hvs.held) ∧ s.on (HV_CTRL_HOLD j) = false
      ∧ s.running = true ∧ outForced s = false ∧ (s.on (HV_GUARD_EN j) = false ∨ ((hvU s j).guardIn = true ∧ (hvU
      s j).guardOut = false))) ∧
    (∃ (s : State) (j : Fin 32), s.dead = false ∧ s.on (HV_STAT_DSC_PEND j) = true ∧ (hvU s j).failed = false ∧
      s.rigged = true ∧ s.engine ≠ Eng.unrigged ∧ s.err.regionReset = []) ∧
    (∃ (s : State) (j : Fin 32) (code : BitVec 12), s.dead = false ∧ s.on (HV_GUARD_EN j) = true ∧ (code.toNat <
      s.g (HV_GUARD_LO j) ∨ s.g (HV_GUARD_HI j) < code.toNat) ∧ hvState s j = Hvs.on) ∧
    (∃ (s : State) (j : Fin 32) (code : BitVec 12), s.dead = false ∧ s.on (HV_GUARD_EN j) = true ∧ s.g
      (HV_GUARD_LO j) ≤ code.toNat ∧ code.toNat ≤ s.g (HV_GUARD_HI j) ∧ s.on (HV_CTRL_ENABLE j) = false) ∧
    (∃ (s : State) (j : Fin 32) (code : BitVec 12), s.dead = false ∧ s.on (HV_GUARD_EN j) = true ∧ s.g
      (HV_GUARD_LO j) ≤ code.toNat ∧ code.toNat ≤ s.g (HV_GUARD_HI j) ∧ s.on (HV_CTRL_ENABLE j) = true ∧ 99 ≤ (hvU
      s j).inside ∧ hvState s j = Hvs.held ∧ s.on (HV_CTRL_HOLD j) = false ∧ s.on (HV_STAT_DSC_PEND j) = false ∧
      s.running = true ∧ outForced s = false) :=
  ⟨⟨{ rig [(REP_STAT_ENGINE, 3), (ILK_STAT_CLOSED, 15), (HV_CAP_CAP 31, 1), (HV_SHROUD_CEIL 31, 5), (HV_PWM_FREQ 31, 100), (HV_FB_VIN 31, 0), (HV_FB_IIN 31, 1)] with mot := { hv := [(31, {  })] }, rig := { hvCeil := 10 } },
      31, 1#32, by decide +kernel⟩,
    ⟨{ rig [(REP_STAT_ENGINE, 3), (HV_STAT_DSC_PEND 31, 1), (HV_CAP_CAP 31, 1), (HV_SHROUD_CEIL 31, 5), (HV_PWM_FREQ 31, 100), (HV_FB_VIN 31, 0), (HV_FB_IIN 31, 1)] with mot := { hv := [(31, {  })] }, rig := { hvCeil := 10 } },
      31, 1#32, by decide +kernel⟩,
    ⟨{ rig [(HV_CAP_CAP 31, 1)] with mot := { hv := [(31, {  })] } }, 31, 1#32, by decide +kernel⟩,
    ⟨{ rig [(HV_CTRL_ENABLE 31, 1), (HV_STAT_STATE 31, 1)] with mot := { hv := [(31, { erel := 9 })] } }, 31,
      0#32, by decide +kernel⟩,
    ⟨{ rig [(HV_CTRL_ENABLE 31, 1), (HV_STAT_STATE 31, 1), (HV_STAT_REGULATING 31, 1)] with mot := { hv := [(31, {  })] } },
      31, 5#32, by decide +kernel⟩,
    ⟨{ rig [(HV_STAT_STATE 31, 1), (HV_BAND_TOL 31, 1), (HV_BAND_TARGET 31, 5)] with mot := { hv := [(31, { inBand := 63, vx := 4 * 524288 })] } },
      31, by decide +kernel⟩,
    ⟨{ rig [(HV_SCALE_VFS 31, 1000), (HV_SCALE_IFS 31, 10), (HV_CAP_CAP 31, 1000)] with mot := { hv := [(31, {  })] } },
      31, 0x40000#20, 0x80000#20, by decide +kernel⟩,
    ⟨{ rig [(REP_STAT_ENGINE, 3), (ILK_STAT_CLOSED, 15), (HV_CTRL_ENABLE 31, 1)] with mot := { hv := [(31, {  })] } },
      31, by decide +kernel⟩,
    ⟨{ rig [(HV_STAT_STATE 31, 1), (HV_SCALE_VFS 31, 1000), (HV_SCALE_IFS 31, 10), (HV_CAP_CAP 31, 1000000)] with mot := { hv := [(31, {  })] } },
      31, 0x7FFFF#20, 0#20, by decide +kernel⟩,
    ⟨{ rig [(HV_STAT_DSC_PEND 31, 1), (HV_SAFE_VOLTS 31, 50)] with clock := 2000000, mot := { hv := [(31, {  })] } },
      31, by decide +kernel⟩,
    ⟨{ rig [(HV_STAT_DSC_PEND 31, 1)] with mot := { hv := [(31, {  })] } }, 31, by decide +kernel⟩,
    ⟨{ rig [(REP_STAT_ENGINE, 3), (ILK_STAT_CLOSED, 15), (HV_STAT_DSC_PEND 31, 1), (HV_CTRL_ENABLE 31, 1), (HV_SAFE_VOLTS 31, 50)] with clock := 2000000, mot := { hv := [(31, {  })] } },
      31, by decide +kernel⟩,
    ⟨{ rig [(REP_STAT_ENGINE, 1), (HV_STAT_DSC_PEND 31, 1)] with mot := { hv := [(31, {  })] } }, 31,
      by decide +kernel⟩,
    ⟨{ rig [(HV_STAT_STATE 31, 1), (HV_GUARD_EN 31, 1), (HV_GUARD_LO 31, 5), (HV_GUARD_HI 31, 9)] with mot := { hv := [(31, {  })] } },
      31, 10#12, by decide +kernel⟩,
    ⟨{ rig [(HV_GUARD_EN 31, 1), (HV_GUARD_LO 31, 5), (HV_GUARD_HI 31, 9)] with mot := { hv := [(31, { inside := 7 })] } },
      31, 9#12, by decide +kernel⟩,
    ⟨{ rig [(REP_STAT_ENGINE, 3), (ILK_STAT_CLOSED, 15), (HV_CTRL_ENABLE 31, 1), (HV_STAT_STATE 31, 2), (HV_GUARD_EN 31, 1), (HV_GUARD_LO 31, 5), (HV_GUARD_HI 31, 9)] with mot := { hv := [(31, { inside := 99, guardOut := true })] } },
      31, 5#12, by decide +kernel⟩⟩

theorem witness_InterlocksAndHeaters :
    (∃ (s : State) (k : Fin 4), s.dead = false ∧ ilkOpen s k = false ∧ s.running = false ∧ s.psq.stopInForce =
      true) ∧
    (∃ (s : State) (k : Fin 4), s.dead = false ∧ ilkOpen s k = false ∧ s.running = false ∧ s.psq.stopInForce =
      false) ∧
    (∃ (s : State) (k : Fin 4), s.dead = false ∧ ilkOpen s k = false ∧ s.running = true) ∧
    (∃ (s : State) (k : Fin 4), s.dead = false ∧ ilkOpen s k = true) ∧
    (∃ (s : State), s.dead = false ∧ s.mot.zcAt = none) ∧
    (∃ (s : State) (x : Nat), s.dead = false ∧ s.mot.zcAt = some x ∧ 1000000000 ≤ 65 * (s.clock - x) ∧ 45 *
      (s.clock - x) ≤ 1000000000 ∧ 7 ≤ s.mot.zcGood) ∧
    (∃ (s : State), s.dead = false ∧ s.on HT_ZC_LOSS = false) ∧
    (∃ (s : State) (h : Fin 8) (pos : Bool), s.dead = false ∧ htOk s h = true ∧ s.g (HT_CTRL_MODE h) = 1 ∧ 262144
      ≤ (htU s h).acc + (clampI 0 262144 (portVal s (0x640 + h))).toNat ∧ ((htU s h).net + (if pos then 1 else
      -1)).natAbs ≤ 1) ∧
    (∃ (s : State) (h : Fin 8) (pos : Bool), s.dead = false ∧ s.g (HT_CTRL_MODE h) = 1 ∧ (htOk s h = false ∨ (htU
      s h).acc + (clampI 0 262144 (portVal s (0x640 + h))).toNat < 262144 ∨ 1 < ((htU s h).net + (if pos then 1
      else -1)).natAbs)) ∧
    (∃ (s : State) (h : Fin 8), s.dead = false ∧ htOk s h = true ∧ s.g (HT_CTRL_MODE h) = 2 ∧ 0 < portVal s (0x640
      + h)) ∧
    (∃ (s : State) (h : Fin 8), s.dead = false ∧ (htOk s h = false ∨ s.g (HT_CTRL_MODE h) = 0)) ∧
    (∃ (s : State) (h : Fin 8) (code : BitVec 12), s.dead = false ∧ s.g (HT_TH_VMIN h) ≤ code.toNat ∧ code.toNat ≤
      s.g (HT_TH_VMAX h) ∧ (htHot s h code.toNat = true ∨ htCool s h code.toNat = true)) ∧
    (∃ (s : State) (h : Fin 8) (code : BitVec 12), s.dead = false ∧ (code.toNat < s.g (HT_TH_VMIN h) ∨ s.g
      (HT_TH_VMAX h) < code.toNat) ∧ (htU s h).broken = false) ∧
    (∃ (s : State) (h : Fin 8), s.dead = false ∧ s.on (HT_OTC_ENABLE h) = true ∧ s.on (HT_STAT_CLEATED h) = false)
      ∧
    (∃ (s : State), s.dead = false) ∧
    (∃ (s : State) (h : Fin 8) (v : Word), Reaches s (HT_CTRL h) ∧ fieldOf (HT_CTRL_ENABLE h) v = 1 ∧ fieldOf
      (HT_CTRL_CLEAR h) v = 0 ∧ s.on (HT_OTC_ENABLE h) = true) ∧
    (∃ (s : State) (h : Fin 8) (v : Word), Reaches s (HT_CTRL h) ∧ fieldOf (HT_CTRL_ENABLE h) v = 1 ∧ fieldOf
      (HT_CTRL_CLEAR h) v = 0 ∧ s.on (HT_OTC_ENABLE h) = false) ∧
    (∃ (s : State) (h : Fin 8) (v : Word), Reaches s (HT_CTRL h) ∧ fieldOf (HT_CTRL_CLEAR h) v = 1 ∧ ((htU s
      h).trips = false ∨ s.on (HT_OTC_ENABLE h) = false)) ∧
    (∃ (s : State) (h : Fin 8) (v : Word), Reaches s (HT_CTRL h) ∧ fieldOf (HT_CTRL_CLEAR h) v = 1 ∧ (htU s
      h).trips = true ∧ s.on (HT_OTC_ENABLE h) = true) :=
  ⟨⟨{ rig [(ILK_STAT_CLOSED, 15)] with psq := { stopInForce := true } }, 3, by decide +kernel⟩,
    ⟨rig [(ILK_STAT_CLOSED, 15), (HV_CTRL_ENABLE 5, 1)], 3, by decide +kernel⟩,
    ⟨rig [(ILK_STAT_CLOSED, 15), (REP_STAT_ENGINE, 4)], 0, by decide +kernel⟩,
    ⟨rig [(ILK_STAT_CLOSED, 7)], 3, by decide +kernel⟩,
    ⟨rig [], by decide +kernel⟩,
    ⟨{ rig [(HT_ZC_LOSS, 1)] with clock := 20000005, mot := { zcAt := some 5, zcGood := 7 } }, 5,
      by decide +kernel⟩,
    ⟨{ rig [] with mot := { ht := [(7, { gate := true })] } }, by decide +kernel⟩,
    ⟨{ rig [(HT_CTRL_ENABLE 7, 1), (HT_CTRL_MODE 7, 1), (HT_CTRL_GATE_US 7, 50)] with mot := { ht := [(7, { acc := 200000, net := 1 })], ce := { ports := [(0x647, 100000)] } } },
      7, false, by decide +kernel⟩,
    ⟨{ rig [(HT_CTRL_ENABLE 7, 1), (HT_CTRL_MODE 7, 1), (HT_CTRL_GATE_US 7, 50)] with mot := { ht := [(7, { acc := 2, net := 1 })], ce := { ports := [(0x647, 100000)] } } },
      7, false, by decide +kernel⟩,
    ⟨{ rig [(HT_CTRL_ENABLE 7, 1), (HT_CTRL_MODE 7, 2)] with mot := { ht := [(7, {  })], ce := { ports := [(0x647, 1)] } } },
      7, by decide +kernel⟩,
    ⟨{ rig [(HT_STAT_FIRING 7, 1)] with mot := { ht := [(7, { gate := true })] } }, 7, by decide +kernel⟩,
    ⟨{ rig [(HT_STAT_OVER 7, 1), (HT_TH_POL 7, 1), (HT_TH_VMAX 7, 4000), (HT_OT_OT_CODE 7, 3000), (HT_OT_HYST 7, 10)] with mot := { ht := [(7, { broken := true })] } },
      7, 2990#12, by decide +kernel⟩,
    ⟨{ rig [(HT_TH_VMIN 7, 100), (HT_TH_VMAX 7, 4000)] with mot := { ht := [(7, { gate := true })] } }, 7, 99#12,
      by decide +kernel⟩,
    ⟨{ rig [(HT_OTC_ENABLE 7, 1)] with mot := { ht := [(7, { gate := true })] } }, 7, by decide +kernel⟩,
    ⟨{ rig [] with mot := { ht := [(7, { trips := true })] } }, by decide +kernel⟩,
    ⟨{ rig [(HT_OTC_ENABLE 7, 1)] with mot := { ht := [(7, {  })] } }, 7, 1#32, by decide +kernel⟩,
    ⟨{ rig [] with mot := { ht := [(7, {  })] } }, 7, 1#32, by decide +kernel⟩,
    ⟨{ rig [(HT_STAT_CLEATED 7, 1), (HT_OTC_ENABLE 7, 1)] with mot := { ht := [(7, {  })] } }, 7, 4#32,
      by decide +kernel⟩,
    ⟨{ rig [(HT_STAT_CLEATED 7, 1), (HT_OTC_ENABLE 7, 1)] with mot := { ht := [(7, { trips := true })] } }, 7,
      4#32, by decide +kernel⟩⟩

theorem witness_WideWordsInTwoHalves :
    (∃ (s : State) (w : Fin 4096), Reaches s (CE_PROG_LO w) ∧ (enabledLoops s).all (fun n => !(lpWords s
      n).contains w.val) = true) ∧
    (∃ (s : State) (k : Fin 1024), Reaches s (CE_STATE_LO k) ∧ (enabledLoops s).any (fun n => lpUsesState s n k) =
      false) ∧
    (∃ (s : State) (w : Fin 4096), Reaches s (CE_PROG_HI w) ∧ (enabledLoops s).all (fun n => !(lpWords s
      n).contains w.val) = true) ∧
    (∃ (s : State) (w : Fin 4096), Reaches s (CE_STATE_HI (w.val % 1024)) ∧ (enabledLoops s).any (fun n =>
      lpUsesState s n (w.val % 1024)) = false) ∧
    (∃ (s : State) (w : Fin 4096), Reaches s (CE_PROG_LO w)) ∧
    (∃ (s : State) (k : Fin 1024), Reaches s (CE_STATE_LO k)) :=
  ⟨⟨rig [], 4095, by decide +kernel⟩,
    ⟨rig [], 1023, by decide +kernel⟩,
    ⟨{ rig [] with mot := { ce := { loHalf := [(CE_PROG_LO 4095, 8)] } } }, 4095, by decide +kernel⟩,
    ⟨{ rig [] with mot := { ce := { loHalf := [(CE_STATE_LO 1023, 8)] } } }, 1023, by decide +kernel⟩,
    ⟨rig [(CE_PROG_HI_WORD 4095, 7)], 4095, by decide +kernel⟩,
    ⟨rig [(CE_STATE_HI_STATE 1023, 7)], 1023, by decide +kernel⟩⟩

theorem witness_ClearOfACleatedChannel :
    (∃ (s : State) (j : Fin 32) (v : Word), Reaches s (HV_CTRL j) ∧ fieldOf (HV_CTRL_CLEAR j) v = 1 ∧ hvState s j
      = Hvs.cleated ∧ s.on (HV_STAT_DSC_PEND j) = false ∧ anyOpen s = false) ∧
    (∃ (s : State) (j : Fin 32) (v : Word), Reaches s (HV_CTRL j) ∧ fieldOf (HV_CTRL_CLEAR j) v = 1 ∧ hvState s j
      = Hvs.cleated ∧ (s.on (HV_STAT_DSC_PEND j) = true ∨ anyOpen s = true)) :=
  ⟨⟨rig [(HV_STAT_STATE 31, 3), (HV_STAT_CAUSE 31, 1), (ILK_STAT_CLOSED, 15)], 31, 8#32, by decide +kernel⟩,
    ⟨rig [(HV_STAT_STATE 31, 3), (HV_STAT_CAUSE 31, 1), (ILK_STAT_CLOSED, 7)], 31, 8#32, by decide +kernel⟩⟩

theorem witness_FioBalls :
    (∃ (s : State) (i : Fin 128) (pad : Nat) (cls : Nat) (inst : Nat) (sig : Nat), s.rigged = true ∧
      s.rig.pads.find? (fun p => p.1 == fioBall i) = some (fioBall i, pad, cls, inst, sig)) ∧
    (∃ (s : State) (i : Fin 128), s.rigged = true ∧ s.rig.pads.find? (fun p => p.1 == fioBall i) = none ∧
      fabricUses s i = true ∧ s.on SPAR_STAT_CONFIGURED = true ∧ s.on SPAR_CTRL_HOLD = false) ∧
    (∃ (s : State) (i : Fin 128), s.rigged = true ∧ s.rig.pads.find? (fun p => p.1 == fioBall i) = none ∧
      fabricUses s i = true ∧ (s.on SPAR_STAT_CONFIGURED = false ∨ s.on SPAR_CTRL_HOLD = true)) ∧
    (∃ (s : State) (i : Fin 128), s.rigged = true ∧ s.rig.pads.find? (fun p => p.1 == fioBall i) = none ∧
      fabricUses s i = false) ∧
    (∃ (s : State) (ball : Nat) (pad : Nat) (inst : Nat) (sig : Nat), s.rigged = true ∧ s.rig.pads.find? (fun p =>
      p.1 == ball) = some (ball, pad, 0x10, inst, sig) ∧ sig < 6 ∧ (mcState s inst = Mcs.off ∨ mcState s inst =
      Mcs.fault)) :=
  ⟨⟨{ rig [(SPAR_CTRL_HOLD, 1)] with rig := { pads := [(fioBall 127, 0, 0x12, 47, 2)] } }, 127, 0, 0x12, 47, 2,
      by decide +kernel⟩,
    ⟨{ rig [(SPAR_STAT_CONFIGURED, 1)] with rig := { spar := List.replicate 64 0xFF } }, 0, by decide +kernel⟩,
    ⟨{ rig [(SPAR_STAT_CONFIGURED, 1), (SPAR_CTRL_HOLD, 1)] with rig := { spar := List.replicate 64 0xFF } }, 127,
      by decide +kernel⟩,
    ⟨rig [(SPAR_STAT_CONFIGURED, 1)], 64, by decide +kernel⟩,
    ⟨{ rig [] with rig := { pads := [(fioBall 1, 0, 0x10, 23, 5)] } }, fioBall 1, 0, 23, 5, by decide +kernel⟩⟩

end Sys2Proof.Tests
end

section
/-!
PROOFS. The reserved end of the BAR0 window (spec/00_scope.md R7): an access there is of the silent class, and a silent
access reads as 0 and writes nothing.
-/

namespace Sys2Proof.Machine

open Reg

/-! ## Accesses of the silent class -/

theorem hostAt_silent {off : Nat} {f : State → State} {s : State} (hd : s.dead = false) (ha : s.access off = .silent) :
    hostAt off f s = s := by
  unfold hostAt
  rw [hd, ha]
  rfl

theorem bitsOf_zero_left (lo w : Nat) : bitsOf 0 lo w = 0 := by simp [bitsOf]

/-- No byte of a zero word shows, whichever the byte enables address. -/
@[simp] theorem lanes_zero (be : Nat) : lanes be 0 = 0 := by
  have hbytes : ∀ l : List Nat,
      l.foldl (fun a i => if bitsOf be i 1 = 1 then a + bitsOf 0 (8 * i) 8 * 2 ^ (8 * i) else a) 0 = 0 := by
    intro l
    induction l with
    | nil => rfl
    | cons i r ih =>
      rw [List.foldl_cons, bitsOf_zero_left, Nat.zero_mul, ite_self]
      exact ih
  exact congrArg (BitVec.ofNat 32) (hbytes (List.range 4))

theorem hostRead_silent {off be : Nat} {s : State} (hd : s.dead = false) (ha : s.access (off / 4 * 4) = .silent) :
    hostRead off be s = s.emit (.read (off / 4 * 4) 0) := by
  unfold hostRead
  simp only [hd, ha, Bool.false_eq_true, if_false, State.answer, lanes_zero]

theorem hostWrite_silent {off be : Nat} {v : Word} {s : State} (hd : s.dead = false)
    (ha : s.access (off / 4 * 4) = .silent) : hostWrite off be v s = s := by
  unfold hostWrite
  exact hostAt_silent hd ha

/-! ## Offsets of the reserved range -/

theorem access_reserved (s : State) {off : Nat} (h : 0x2000000 ≤ off) : s.access (off / 4 * 4) = .silent := by
  have hword : 0x2000000 ≤ off / 4 * 4 / 4 * 4 := by omega
  exact if_pos hword

/-- No completion ring's head lies in the reserved range, so an access there frees no space. -/
theorem ringFreed_reserved (s : State) {off : Nat} (h : 0x2000000 ≤ off) : ringFreed off s = s := by
  have hhead : ∀ q < 16, off / 4 * 4 ≠ REP_QCQH q := by
    intro q hq
    unfold REP_QCQH
    omega
  have hnone : ((List.range 16).any fun q => off / 4 * 4 == REP_QCQH q) = false := by
    simpa using hhead
  unfold ringFreed
  rw [hnone]
  rfl

/-- Settles O8: the reserved range is of the silent class and holds no ring head. -/
theorem reservedWindow : Obligations.ReservedWindow := by
  intro s off be v hd hoff
  have ha := access_reserved s hoff
  constructor
  · refine ⟨ringFreed off.toNat (hostWrite off.toNat be.val v s), rfl, ?_⟩
    rw [hostWrite_silent hd ha, ringFreed_reserved s hoff]
  · refine ⟨hostRead off.toNat be s, rfl, ?_⟩
    rw [hostRead_silent hd ha]
    exact ⟨rfl, rfl⟩

end Sys2Proof.Machine
end

section
/-!
PROOFS. The wide words of the control engine (spec/12_control_engine.md R283): a low word is held until its high word
commits both halves, and a read of the low word latches the high word (spec/03_host_rep.md R80).
-/

namespace Sys2Proof.Machine

open Reg

/-! ## Which of a unit's registers an offset names -/

theorem instOf_self {base stride count k : Nat} (hs : 0 < stride) (hk : k < count) :
    instOf (base + stride * k) base stride count = some k := by
  unfold instOf
  rw [Nat.add_sub_cancel_left, Nat.mul_mod_right, Nat.mul_div_cancel_left k hs]
  exact if_pos ⟨Nat.le_add_right _ _, rfl, hk⟩

theorem instOf_below {off base stride count : Nat} (h : off < base) : instOf off base stride count = none :=
  if_neg fun hin => absurd hin.1 (Nat.not_le.mpr h)

theorem instOf_past {off base stride count : Nat} (hs : 0 < stride) (h : base + stride * count ≤ off) :
    instOf off base stride count = none := by
  refine if_neg fun ⟨_, _, hlt⟩ => ?_
  have hmul := (Nat.div_lt_iff_lt_mul hs).mp hlt
  rw [Nat.mul_comm] at hmul
  omega

theorem instOf_unaligned {off base stride count : Nat} (h : base ≤ off → (off - base) % stride ≠ 0) :
    instOf off base stride count = none :=
  if_neg fun hin => h hin.1 hin.2.1

/-! ## Entries of the table of writes that an offset passes by -/

theorem one_below {B off a : Nat} {f : State → State} (hoff : B ≤ off) (h : a < B) : one a off f = none :=
  if_neg (by omega)

theorem many_below {B off a stride count : Nat} {f : Nat → State → State} (hoff : B ≤ off)
    (h : 0 < stride ∧ a + stride * count ≤ B) : many a stride count off f = none := by
  unfold many
  rw [instOf_past h.1 (h.2.trans hoff)]
  rfl

theorem many_above {T off a stride count : Nat} {f : Nat → State → State} (hoff : off < T) (h : T ≤ a) :
    many a stride count off f = none := by
  unfold many
  rw [instOf_below (hoff.trans_le h)]
  rfl

theorem many_self {a stride count k : Nat} {f : Nat → State → State} (hs : 0 < stride) (hk : k < count) :
    many a stride count (a + stride * k) f = some (f k) := by
  unfold many
  rw [instOf_self hs hk]
  rfl

theorem infWrites_none {off : Nat} (v : Word) (h : 0x400000 ≤ off) : infWrites off v = none := by
  have htpo : ¬ (0x104100 ≤ off ∧ off < 0x104200) := by omega
  simp (disch := decide) only [infWrites, one_below h, many_below h, if_neg htpo, first]

theorem memWrites_none {off : Nat} (v : Word) (h : 0x400000 ≤ off) : memWrites off v = none := by
  have hddr : ¬ (0x201000 ≤ off ∧ off < 0x203000) := by omega
  simp (disch := decide) only [memWrites, one_below h, many_below h, if_neg hddr, first]

theorem hntWrites_none {off : Nat} (v : Word) (h : 0x400000 ≤ off) : hntWrites off v = none := by
  have heth0 : ¬ (off / 0x2000 = 0x181 ∧ 8 ≤ off % 0x2000 ∧ off % 0x2000 < 0x24) := by omega
  have heth1 : ¬ (off / 0x2000 = 0x182 ∧ 8 ≤ off % 0x2000 ∧ off % 0x2000 < 0x24) := by omega
  simp (disch := decide) only [hntWrites, one_below h, many_below h, if_neg heth0, if_neg heth1, first]

theorem imgWrites_none {off : Nat} (v : Word) (h : 0x800000 ≤ off) (ht : off < 0x1000000) :
    imgWrites off v = none := by
  have htable : ¬ (0x1000000 ≤ off ∧ off < 0x1800000 ∧ ((0x4000 ≤ stnOff off ∧ stnOff off < 0x8000)
      ∨ (0x10000 ≤ stnOff off ∧ stnOff off < 0xB0000) ∨ 0xC0000 ≤ stnOff off)) := by omega
  simp (disch := decide) only [imgWrites, one_below h, many_below h, many_above ht, if_neg htable, first]

/-- A register of the motion region is written by the motion region's rules. -/
theorem regWrite_mot {off : Nat} {v : Word} {f : State → State} (s : State) (h : 0x800000 ≤ off)
    (ht : off < 0x1000000) (hf : motWrites off v = some f) : regWrite off v s = f s := by
  have h4 : 0x400000 ≤ off := by omega
  unfold regWrite
  rw [infWrites_none v h4, memWrites_none v h4, hntWrites_none v h4, imgWrites_none v h ht, hf]
  rfl

theorem hostWord_mot {off : Nat} {v : Word} {f : State → State} (s : State) (h : 0x800000 ≤ off)
    (ht : off < 0x1000000) (hf : motWrites off v = some f) : hostWord off v s = f s := by
  have hreset : off ≠ CHIP_RESET := by unfold CHIP_RESET; omega
  have hload : off ≠ RIG_LOADCTRL := by unfold RIG_LOADCTRL; omega
  have hap : ¬ inAperture off = true := by simp only [inAperture, decide_eq_true_eq]; omega
  unfold hostWord
  rw [if_neg hreset, if_neg hload, if_neg hap, regWrite_mot s h ht hf]

theorem accessWaits_none {off : Nat} (read : Bool) (s : State) (h : 0x400000 ≤ off) :
    accessWaits off read s = false := by
  have hddr : ¬ (0x201000 ≤ off ∧ off < 0x203000) := by omega
  have hfence : off ≠ CHIP_FENCE := by unfold CHIP_FENCE; omega
  simp [accessWaits, hddr, hfence]

/-- No completion ring's head lies above the host region, so a write there frees no space. -/
theorem ringFreed_aboveHost {off : Nat} (s : State) (h : 0x400000 ≤ off) : ringFreed off s = s := by
  have hnone : ((List.range 16).any fun q => off / 4 * 4 == REP_QCQH q) = false := by
    simp only [List.any_eq_false, List.mem_range, beq_iff_eq]
    intro q hq
    unfold REP_QCQH
    omega
  unfold ringFreed
  rw [hnone]
  rfl

/-- A full host write of a register of the motion region has that register's own effect and no other. -/
theorem exec_registerWrite_mot {s : State} {off : BitVec 26} {v : Word} {f : State → State} (hr : Reaches s off.toNat)
    (hal : off.toNat % 4 = 0) (h : 0x800000 ≤ off.toNat) (ht : off.toNat < 0x1000000)
    (hf : motWrites off.toNat v = some f) : exec (.registerWrite off 15 v) s = .next (f s) := by
  have hoff : off.toNat / 4 * 4 = off.toNat := by omega
  have hwrite : hostWrite off.toNat 15 v s = f s := by
    unfold hostWrite
    rw [hoff, hostAt_reaches hr, accessWaits_none false s (by omega)]
    exact hostWord_mot s h ht hf
  show Host.Outcome.next (ringFreed off.toNat (hostWrite off.toNat 15 v s)) = _
  rw [hwrite, ringFreed_aboveHost _ (by omega)]

/-! ## The wide words -/

/-- `lo` is the offset of a low word of the program or state memory, and `hi` that of its high word. -/
inductive WideWord : Nat → Nat → Prop
  | prog {w : Nat} (hw : w < 4096) : WideWord (CE_PROG_LO w) (CE_PROG_HI w)
  | state {k : Nat} (hk : k < 1024) : WideWord (CE_STATE_LO k) (CE_STATE_HI k)

theorem WideWord.place {lo hi : Nat} (h : WideWord lo hi) :
    0x808000 ≤ lo ∧ lo < 0x81A000 ∧ lo % 8 = 0 ∧ hi = lo + 4 := by
  cases h with
  | prog hw => unfold CE_PROG_LO CE_PROG_HI; omega
  | state hk => unfold CE_STATE_LO CE_STATE_HI; omega

theorem WideWord.toNat_ofNat {lo hi : Nat} (h : WideWord lo hi) : (BitVec.ofNat 26 lo).toNat = lo := by
  obtain ⟨_, hlt, _, _⟩ := h.place
  rw [BitVec.toNat_ofNat, Nat.mod_eq_of_lt (by omega)]

theorem motWrites_progLow {w : Nat} (v : Word) (hw : w < 4096) :
    motWrites (CE_PROG_LO w) v = some (progLowWrite w v) := by
  have hB : 0x808000 ≤ CE_PROG_LO w := Nat.le_add_right _ _
  have htu : ¬ (0x804800 ≤ CE_PROG_LO w ∧ CE_PROG_LO w < 0x804900 ∧ 4 ≤ CE_PROG_LO w % 0x40 ∧
      CE_PROG_LO w % 0x40 < 0x18) := by omega
  have hself : many (CE_PROG_LO 0) 8 4096 (CE_PROG_LO w) (progLowWrite · v) = some (progLowWrite w v) :=
    many_self (by decide) hw
  simp (disch := decide) only [motWrites, one_below hB, many_below hB, if_neg htu, hself, first]

theorem motWrites_stateLow {k : Nat} (v : Word) (hk : k < 1024) :
    motWrites (CE_STATE_LO k) v = some (stateLowWrite k v) := by
  have hB : 0x818000 ≤ CE_STATE_LO k := Nat.le_add_right _ _
  have htu : ¬ (0x804800 ≤ CE_STATE_LO k ∧ CE_STATE_LO k < 0x804900 ∧ 4 ≤ CE_STATE_LO k % 0x40 ∧
      CE_STATE_LO k % 0x40 < 0x18) := by omega
  have hself : many (CE_STATE_LO 0) 8 1024 (CE_STATE_LO k) (stateLowWrite · v) = some (stateLowWrite k v) :=
    many_self (by decide) hk
  simp (disch := decide) only [motWrites, one_below hB, many_below hB, if_neg htu, hself, first]

/-- A full host write of a low word is handled by the rule of its memory. -/
theorem WideWord.exec_lowWrite {s : State} {lo hi : Nat} {v : Word} {f : State → State} (h : WideWord lo hi)
    (hr : Reaches s lo) (hf : motWrites lo v = some f) :
    exec (.registerWrite (BitVec.ofNat 26 lo) 15 v) s = .next (f s) := by
  obtain ⟨hge, hlt, hal, _⟩ := h.place
  have hn := h.toNat_ofNat
  exact exec_registerWrite_mot (hn.symm ▸ hr) (by omega) (by omega) (by omega) (hn.symm ▸ hf)

/-! ## The held low half -/

theorem heldLow_lowHalf (off : Nat) (v : Word) (s : State) : heldLow (lowHalf off v s) off = v := by
  have hget : bankGet 0 (ceU (lowHalf off v s)).loHalf off = v.toNat + 1 :=
    bankGet_put_self 0 off (v.toNat + 1) (ceU s).loHalf
  unfold heldLow
  rw [hget]
  exact BitVec.ofNat_toNat 32 v

@[simp] theorem lowHalf_regs (off : Nat) (v : Word) (s : State) : (lowHalf off v s).regs = s.regs := rfl
@[simp] theorem lowHalf_out (off : Nat) (v : Word) (s : State) : (lowHalf off v s).out = s.out := rfl
@[simp] theorem reg_lowTaken (off : Nat) (s : State) (j : Nat) : (lowTaken off s).reg j = s.reg j := rfl
@[simp] theorem stateVal_lowTaken (off : Nat) (s : State) (k : Nat) : stateVal (lowTaken off s) k = stateVal s k := rfl

/-- No enabled loop uses the program word: the write is taken (R280). -/
theorem progGuard_free {s : State} {w : Nat} {write : State → State}
    (h : (enabledLoops s).all (fun n => !(lpWords s n).contains w) = true) : progGuard w write s = write s := by
  have hnone : (enabledLoops s).filter (fun n => (lpWords s n).contains w) = [] := by
    rw [List.filter_eq_nil_iff]
    intro n hn
    simpa using List.all_eq_true.mp h n hn
  unfold progGuard
  rw [hnone]
  rfl

/-- No enabled loop uses the state word: the write is taken (R277). -/
theorem stateGuard_free {s : State} {k : Nat} {write : State → State}
    (h : (enabledLoops s).any (fun n => lpUsesState s n k) = false) : stateGuard k write s = write s := by
  unfold stateGuard
  rw [h]
  rfl

/-! ## The commit of both halves -/

theorem onlyRegs_progCommit (w : Nat) (lo hi : Word) (s : State) :
    OnlyRegs [CE_PROG_HI w, CE_PROG_LO w] s ((s.setReg (CE_PROG_LO w) lo).setReg (CE_PROG_HI w) hi) :=
  ((onlyRegs_refl _ s).setReg lo (by simp)).setReg hi (by simp)

theorem onlyRegs_putState (k : Nat) (x : Int) (s : State) :
    OnlyRegs [CE_STATE_HI k, CE_STATE_LO k] s (putState k x s) :=
  ((onlyRegs_refl _ s).setReg _ (by simp)).setReg _ (by simp)

theorem onlyRegs_lowTaken {l : List Nat} {s t : State} (off : Nat) (h : OnlyRegs l s t) :
    OnlyRegs l s (lowTaken off t) := h

/-- A code taken as a signed number and coded again is its low bits. -/
theorem unsext_sext (w n : Nat) : unsext w (sext w n) = n % 2 ^ w := by
  have hlt : n % 2 ^ w < 2 ^ w := Nat.mod_lt _ (Nat.two_pow_pos w)
  have hmod : ((n % 2 ^ w : Nat) : Int) % (2 : Int) ^ w = (n % 2 ^ w : Nat) :=
    Int.emod_eq_of_lt (Int.natCast_nonneg _) (by exact_mod_cast hlt)
  unfold unsext sext
  dsimp only
  split
  · rw [hmod, Int.toNat_natCast]
  · rw [Int.sub_emod_right, hmod, Int.toNat_natCast]

theorem sext_mod (w n : Nat) : sext w (n % 2 ^ w) = sext w n := by
  unfold sext
  rw [Nat.mod_mod]

/-- The high register holds the upper 16 bits under their sign extension. -/
theorem ofInt_sext_low (n : Nat) : (BitVec.ofInt 32 (sext 16 n)).toNat % 65536 = n % 65536 := by
  rw [BitVec.toNat_ofInt]
  unfold sext
  dsimp only
  split <;> omega

/-- A state word stored reads back. -/
theorem stateVal_putState (k n : Nat) (s : State) : stateVal (putState k (sext 48 n) s) k = sext 48 n := by
  have hne : CE_STATE_LO k ≠ CE_STATE_HI k := by unfold CE_STATE_LO CE_STATE_HI; omega
  have hjoin : n % 2 ^ 48 / 2 ^ 32 % 65536 * 2 ^ 32 + n % 2 ^ 48 % 2 ^ 32 = n % 2 ^ 48 := by omega
  unfold stateVal putState
  dsimp only
  rw [reg_setReg_self, reg_setReg_other _ _ _ _ hne, reg_setReg_self, unsext_sext, ofInt_sext_low,
    BitVec.toNat_ofNat, hjoin, sext_mod]

/-! ## The registers of the wide words in the table -/

/-- Every place of a register lies before the offset. -/
def RegTable.Desc.ended (d : RegTable.Desc) (off : Nat) : Bool :=
  match d.dims with
  | [] => decide (d.base < off)
  | (stride, count) :: _ => decide (0 < stride ∧ d.base + stride * count ≤ off)

theorem inst?_ended {d : RegTable.Desc} {B off : Nat} (h : d.ended B = true) (hoff : B ≤ off) : d.inst? off = none := by
  obtain ⟨_, base, dims, _, _⟩ := d
  unfold RegTable.Desc.inst?
  cases dims with
  | nil =>
    have hlt : base < B := of_decide_eq_true h
    have hne : ¬ off - base = 0 := by omega
    exact (if_neg (by dsimp only; omega)).trans (if_neg hne)
  | cons x _ =>
    obtain ⟨stride, count⟩ := x
    obtain ⟨hpos, hpast⟩ : 0 < stride ∧ base + stride * count ≤ B := of_decide_eq_true h
    have hcount : ¬ (off - base) / stride < count := by
      rw [Nat.div_lt_iff_lt_mul hpos, Nat.mul_comm]
      omega
    exact (if_neg (by dsimp only; omega)).trans (if_neg hcount)

/-- The table finds the first register that has the offset, in the first group that ends above it. -/
theorem find_eq {off bound : Nat} {d : RegTable.Desc} {is : List Nat}
    {before after : List (Nat × List RegTable.Desc)} {pre post : List RegTable.Desc}
    (hg : RegTable.groups = before ++ (bound, pre ++ d :: post) :: after)
    (hbefore : ∀ g ∈ before, g.1 ≤ off) (hbound : off < bound) (hpre : ∀ e ∈ pre, e.inst? off = none)
    (hd : d.inst? off = some is) : RegTable.find off = some (d, is) := by
  have hgroup : RegTable.groups.find? (fun g => Nat.blt off g.1) = some (bound, pre ++ d :: post) := by
    rw [List.find?_eq_some_iff_append]
    refine ⟨by simpa using hbound, before, after, hg, fun g hgm => ?_⟩
    have hnlt : ¬ Nat.blt off g.1 = true := by
      rw [Nat.blt_eq]
      exact Nat.not_lt.mpr (hbefore g hgm)
    rw [Bool.not_eq_true']
    exact Bool.eq_false_of_not_eq_true hnlt
  have hskip : pre.findSome? (fun e => (e.inst? off).map fun is => (e, is)) = none :=
    List.findSome?_eq_none_iff.mpr fun e he => by rw [hpre e he]; rfl
  unfold RegTable.find
  rw [hgroup]
  simp only [List.findSome?_append, hskip, List.findSome?_cons, hd, Option.map_some, Option.none_or]

/-- A register of one dimension has a place at every stride. -/
theorem inst?_self {d : RegTable.Desc} {stride count k : Nat} (hdims : d.dims = [(stride, count)]) (hs : 0 < stride)
    (hk : k < count) : d.inst? (d.base + stride * k) = some [k] := by
  unfold RegTable.Desc.inst?
  rw [if_neg (by omega), hdims, Nat.add_sub_cancel_left]
  unfold RegTable.inst
  rw [Nat.mul_div_cancel_left k hs, if_pos hk, Nat.mul_mod_right]
  rfl

/-- Between its strides a register of one dimension has no place. -/
theorem inst?_unaligned {d : RegTable.Desc} {stride count off : Nat} (hdims : d.dims = [(stride, count)])
    (h : (off - d.base) % stride ≠ 0) : d.inst? off = none := by
  unfold RegTable.Desc.inst?
  rw [hdims]
  unfold RegTable.inst
  split
  · rfl
  · split
    · rw [RegTable.inst, if_neg h]; rfl
    · rfl

/-- The register at the offset is one run of access type RW. -/
def PlainRW (off : Nat) : Prop := runsAt off = some [⟨0, 32, .rw⟩]

theorem PlainRW.find {off : Nat} (h : PlainRW off) :
    ∃ d is, RegTable.find off = some (d, is) ∧ d.bits = [⟨0, 32, .rw⟩] := by
  obtain ⟨⟨d, is⟩, hfind, hbits⟩ := Option.map_eq_some_iff.mp h
  exact ⟨d, is, hfind, hbits⟩

theorem plainRW_of_find {off : Nat} {d : RegTable.Desc} {is : List Nat} (hf : RegTable.find off = some (d, is))
    (hb : d.bits = [⟨0, 32, .rw⟩]) : PlainRW off := by
  unfold PlainRW runsAt
  rw [hf, ← hb]
  rfl

/-- A low and a high register interleaved at stride 8, each one run of type RW: both halves are, at every stride. -/
theorem plainRW_halves {before after : List (Nat × List RegTable.Desc)} {bound base count k : Nat}
    {pre post : List RegTable.Desc} {nlo nhi : String}
    (hg : RegTable.groups = before ++ (bound, pre ++ ⟨nlo, base, [(8, count)], 0, [⟨0, 32, .rw⟩]⟩ ::
      ⟨nhi, base + 4, [(8, count)], 0, [⟨0, 32, .rw⟩]⟩ :: post) :: after)
    (hbefore : ∀ g ∈ before, g.1 ≤ base) (hbound : base + 8 * count ≤ bound) (hpre : ∀ e ∈ pre, e.ended base = true)
    (hk : k < count) : PlainRW (base + 8 * k) ∧ PlainRW (base + 4 + 8 * k) := by
  constructor
  · refine plainRW_of_find (find_eq hg (fun g hm => (hbefore g hm).trans (by omega)) (by omega) ?_
      (inst?_self rfl (by decide) hk)) rfl
    exact fun e he => inst?_ended (hpre e he) (by omega)
  · rw [List.append_cons pre] at hg
    have hself := inst?_self (d := ⟨nhi, base + 4, [(8, count)], 0, [⟨0, 32, .rw⟩]⟩) rfl (by decide) hk
    refine plainRW_of_find (find_eq hg (fun g hm => (hbefore g hm).trans (by omega)) (by omega) ?_ hself) rfl
    refine List.forall_mem_append.mpr ⟨fun e he => inst?_ended (hpre e he) (by omega), ?_⟩
    exact List.forall_mem_singleton.mpr (inst?_unaligned rfl (by dsimp only; omega))

theorem WideWord.plainRW {lo hi : Nat} (h : WideWord lo hi) : PlainRW lo ∧ PlainRW hi := by
  cases h with
  | prog hw =>
    exact plainRW_halves (before := RegTable.groups.take 20) (after := RegTable.groups.drop 21)
      (pre := RegTable.group20.take 11) (post := RegTable.group20.drop 13) rfl (by decide) (by decide) (by decide) hw
  | state hk =>
    exact plainRW_halves (before := RegTable.groups.take 21) (after := RegTable.groups.drop 22)
      (pre := []) (post := RegTable.group21.drop 2) rfl (by decide) (by decide) (by decide) hk

/-! ## The read of a low word -/

theorem wordRead_plainRW {x : Nat} (h : x < 2 ^ 32) : wordRead [⟨0, 32, .rw⟩] x = x := by
  simpa [wordRead, runRead, bitsOf] using h

theorem wordCleared_plainRW {x : Nat} (h : x < 2 ^ 32) : wordCleared [⟨0, 32, .rw⟩] x = x := by
  simpa [wordCleared, bitsOf] using h

/-- Past ILK_TIME_LO only the wide memories have low words. -/
theorem highOf_past {off : Nat} (h : 0x807800 ≤ off) :
    highOf off = ((instOf off (CE_PROG_LO 0) 8 4096).map CE_PROG_HI).or
      ((instOf off (CE_STATE_LO 0) 8 1024).map CE_STATE_HI) := by
  have hne : ∀ a, a < 0x807800 → off ≠ a := fun a ha => by omega
  have hpast : ∀ {base stride count : Nat}, 0 < stride ∧ base + stride * count ≤ 0x807800 →
      instOf off base stride count = none := fun hb => instOf_past hb.1 (hb.2.trans h)
  unfold highOf
  simp (disch := decide) only [if_neg (hne _ _), hpast]
  rcases instOf off (CE_PROG_LO 0) 8 4096 with _ | w
  · rcases instOf off (CE_STATE_LO 0) 8 1024 with _ | k <;> rfl
  · rfl

theorem WideWord.highOf_lo {lo hi : Nat} (h : WideWord lo hi) : highOf lo = some hi := by
  have hge := h.place.1
  rw [highOf_past (by omega)]
  cases h with
  | @prog w hw =>
    have hself : instOf (CE_PROG_LO w) (CE_PROG_LO 0) 8 4096 = some w := instOf_self (by decide) hw
    rw [hself]
    rfl
  | @state k hk =>
    have hself : instOf (CE_STATE_LO k) (CE_STATE_LO 0) 8 1024 = some k := instOf_self (by decide) hk
    have hprog : instOf (CE_STATE_LO k) (CE_PROG_LO 0) 8 4096 = none :=
      instOf_past (by decide) (Nat.le_trans (by decide) (Nat.le_add_right 0x818000 _))
    rw [hself, hprog]
    rfl

theorem isLatch_mot {off : Nat} (h : 0x800000 ≤ off) (hprev : highOf (off - 4) ≠ some off) : isLatch off = false := by
  have hne : ∀ a, a < 0x800000 → off ≠ a := fun a ha => by omega
  have hmbx : ¬ (0x320000 ≤ off ∧ off < 0x321000) := by omega
  have herr : ¬ (0x109000 ≤ off ∧ off < 0x10B000) := by omega
  simp (disch := decide) [isLatch, hprev, hne, hmbx, herr, List.range_succ]

/-- A register of the motion region that is no latch shows its own fields. -/
theorem windowOf_mot {off : Nat} (h : 0x800000 ≤ off) (ht : off < 0x1000000) (hl : isLatch off = false) :
    windowOf off = .plain := by
  have hne : ∀ a, a < 0x800000 → off ≠ a := fun a ha => by omega
  have hscreen : ¬ (0x1000000 ≤ off ∧ off < 0x1800000 ∧ 0xC0000 ≤ stnOff off) := by omega
  have hrx0 : ¬ (0x303000 ≤ off ∧ off < 0x304000) := by omega
  have hrx1 : ¬ (0x305000 ≤ off ∧ off < 0x306000) := by omega
  have hspar : ¬ (0x1801200 ≤ off ∧ off < 0x1801400) := by omega
  have hap : ¬ (0x118000 ≤ off ∧ off < 0x120000) := by omega
  unfold windowOf
  simp (disch := decide) only [hl, Bool.false_eq_true, if_false, if_neg (hne _ _), if_neg hscreen, if_neg hrx0,
    if_neg hrx1, if_neg hspar, if_neg hap]

/-- A low word is read from its register, not from a latch or a unit. -/
theorem WideWord.windowOf_lo {lo hi : Nat} (h : WideWord lo hi) : windowOf lo = .plain := by
  obtain ⟨hge, hlt, hal, _⟩ := h.place
  have hprog : CE_PROG_LO 0 ≤ lo - 4 → (lo - 4 - CE_PROG_LO 0) % 8 ≠ 0 := by unfold CE_PROG_LO; omega
  have hstate : CE_STATE_LO 0 ≤ lo - 4 → (lo - 4 - CE_STATE_LO 0) % 8 ≠ 0 := by unfold CE_STATE_LO; omega
  refine windowOf_mot (by omega) (by omega) (isLatch_mot (by omega) ?_)
  rw [highOf_past (by omega), instOf_unaligned hprog, instOf_unaligned hstate]
  exact nofun

/-- A read in the motion region latches the high word of a low word and has no other effect before its answer. -/
theorem readEffect_mot {off hi : Nat} (s : State) (h : 0x800000 ≤ off) (hh : highOf off = some hi) (hp : PlainRW hi) :
    readEffect off s = s.setLatch hi (s.reg hi) := by
  have hne : ∀ a, a < 0x800000 → off ≠ a := fun a ha => by omega
  have hddr : ¬ (0x201000 ≤ off ∧ off < 0x203000) := by omega
  have hpwr : ¬ (off = PWR_STAT ∨ off = PWR_VIN) := not_or.mpr ⟨hne _ (by decide), hne _ (by decide)⟩
  obtain ⟨d, is, hfind, hbits⟩ := hp.find
  unfold readEffect
  simp (disch := decide) only [hh, hfind, hbits, wordRead_plainRW (s.reg hi).isLt, BitVec.ofNat_toNat,
    BitVec.setWidth_eq, if_neg (hne _ _), if_neg hddr, if_neg hpwr]

theorem readWord_plain {off : Nat} (s : State) (hw : windowOf off = .plain) : ∃ v, readWord off s = (v, s) := by
  unfold readWord
  rw [hw]
  dsimp only
  split <;> exact ⟨_, rfl⟩

/-- A read leaves a register of type RW as it is. -/
theorem readClear_mot {off : Nat} (s : State) (ht : off < 0x1000000) (hw : windowOf off = .plain) (hp : PlainRW off) :
    readClear off s = s := by
  obtain ⟨d, is, hfind, hbits⟩ := hp.find
  have hmargin : instOf off (STN_LMARGIN 0) 0x100000 8 = none := instOf_below (ht.trans_le (by decide))
  have hlevel : instOf off (STN_LEVEL 0) 0x100000 8 = none := instOf_below (ht.trans_le (by decide))
  unfold readClear
  simp only [hw, hfind, hmargin, hlevel, hbits, wordCleared_plainRW (s.reg off).isLt, BitVec.ofNat_toNat,
    BitVec.setWidth_eq, if_true]

theorem WideWord.regRead_lo {lo hi : Nat} (h : WideWord lo hi) (be : Nat) (s : State) :
    ∃ v, regRead lo be s = (s.setLatch hi (s.reg hi)).answer lo be v := by
  obtain ⟨hge, hlt, _, _⟩ := h.place
  have hmbx : instOf lo (MBX_HDR 0) 0x40 64 = none := instOf_past (by decide) (Nat.le_trans (by decide) hge)
  have herr : instOf lo (ERR_REC 0 0) 0x20 256 = none := instOf_past (by decide) (Nat.le_trans (by decide) hge)
  have htime : lo ≠ TIME_NOW_NS := by unfold TIME_NOW_NS; omega
  obtain ⟨hplo, hphi⟩ := h.plainRW
  obtain ⟨v, hv⟩ := readWord_plain (s.setLatch hi (s.reg hi)) h.windowOf_lo
  refine ⟨v, ?_⟩
  unfold regRead
  simp only [hmbx, herr, if_neg htime, readEffect_mot s (by omega : 0x800000 ≤ lo) h.highOf_lo hphi, hv,
    readClear_mot _ (by omega : lo < 0x1000000) h.windowOf_lo hplo]

/-- A read of a low word latches the high word and changes no register. -/
theorem WideWord.exec_lowRead {s : State} {lo hi : Nat} (h : WideWord lo hi) (hr : Reaches s lo) (be : Fin 16) :
    Does (.lowWordRead (BitVec.ofNat 26 lo) be) s fun t => t.latched hi = s.reg hi ∧ t.regs = s.regs := by
  obtain ⟨hge, _, hal, _⟩ := h.place
  obtain ⟨hd, ha⟩ := hr
  obtain ⟨v, hread⟩ := h.regRead_lo be.val s
  refine ⟨hostRead (BitVec.ofNat 26 lo).toNat be.val s, rfl, ?_⟩
  have hown : hostRead lo be.val s = (s.setLatch hi (s.reg hi)).answer lo be.val v := by
    have hlo : lo / 4 * 4 = lo := by omega
    unfold hostRead
    simp only [hlo, hd, ha, accessWaits_none true s (by omega : 0x400000 ≤ lo), Bool.false_eq_true, if_false, hread]
  rw [h.toNat_ofNat, hown]
  exact ⟨bankGet_put_self _ _ _ _, rfl⟩

/-! ## The writes of either half -/

theorem does_progLowWrite {s : State} {w : Nat} (v : Word) (hw : w < 4096) (hr : Reaches s (CE_PROG_LO w))
    (hfree : (enabledLoops s).all (fun n => !(lpWords s n).contains w) = true) :
    Does (.registerWrite (BitVec.ofNat 26 (CE_PROG_LO w)) 15 v) s fun t =>
      heldLow t (CE_PROG_LO w) = v ∧ t.regs = s.regs ∧ t.out = s.out := by
  refine ⟨_, (WideWord.prog hw).exec_lowWrite hr (motWrites_progLow v hw), ?_⟩
  rw [progLowWrite, progGuard_free hfree]
  exact ⟨heldLow_lowHalf _ v s, lowHalf_regs _ v s, lowHalf_out _ v s⟩

theorem does_stateLowWrite {s : State} {k : Nat} (v : Word) (hk : k < 1024) (hr : Reaches s (CE_STATE_LO k))
    (hfree : (enabledLoops s).any (fun n => lpUsesState s n k) = false) :
    Does (.registerWrite (BitVec.ofNat 26 (CE_STATE_LO k)) 15 v) s fun t =>
      heldLow t (CE_STATE_LO k) = v ∧ t.regs = s.regs ∧ t.out = s.out := by
  refine ⟨_, (WideWord.state hk).exec_lowWrite hr (motWrites_stateLow v hk), ?_⟩
  rw [stateLowWrite, stateGuard_free hfree]
  exact ⟨heldLow_lowHalf _ v s, lowHalf_regs _ v s, lowHalf_out _ v s⟩

theorem does_progHighWrite {s : State} {w : Fin 4096} (v : Word) (hr : Reaches s (CE_PROG_HI w))
    (hfree : (enabledLoops s).all (fun n => !(lpWords s n).contains w.val) = true) :
    Does (.wideWordWrite true w v) s fun t => t.reg (CE_PROG_HI w) = v ∧
      t.reg (CE_PROG_LO w) = heldLow s (CE_PROG_LO w) ∧ OnlyRegs [CE_PROG_HI w, CE_PROG_LO w] s t := by
  refine ⟨hostAt (CE_PROG_HI w) (progWrite w v) s, rfl, ?_⟩
  have hne : CE_PROG_LO w ≠ CE_PROG_HI w := by unfold CE_PROG_LO CE_PROG_HI; omega
  rw [hostAt_reaches hr, progWrite, progGuard_free hfree]
  refine ⟨(reg_lowTaken _ _ _).trans (reg_setReg_self _ _ _), ?_, onlyRegs_lowTaken _ (onlyRegs_progCommit _ _ _ _)⟩
  rw [reg_lowTaken, reg_setReg_other _ _ _ _ hne, reg_setReg_self]

theorem does_stateHighWrite {s : State} {w : Fin 4096} (v : Word) (hr : Reaches s (CE_STATE_HI (w.val % 1024)))
    (hfree : (enabledLoops s).any (fun n => lpUsesState s n (w.val % 1024)) = false) :
    Does (.wideWordWrite false w v) s fun t =>
      stateVal t (w.val % 1024) =
        sext 48 (v.toNat % 65536 * 2 ^ 32 + (heldLow s (CE_STATE_LO (w.val % 1024))).toNat) ∧
      OnlyRegs [CE_STATE_HI (w.val % 1024), CE_STATE_LO (w.val % 1024)] s t := by
  refine ⟨hostAt (CE_STATE_HI (w.val % 1024)) (stateWrite (w.val % 1024) v) s, rfl, ?_⟩
  rw [hostAt_reaches hr, stateWrite, stateGuard_free hfree]
  exact ⟨(stateVal_lowTaken _ _ _).trans (stateVal_putState _ _ s), onlyRegs_lowTaken _ (onlyRegs_putState _ _ s)⟩

/-- Settles O58, each memory by the lemmas on the held low half, the commit of both halves and the latch. -/
theorem wideWordsInTwoHalves : Obligations.WideWordsInTwoHalves := by
  intro s w k be v
  exact ⟨does_progLowWrite v w.isLt, does_stateLowWrite v k.isLt, does_progHighWrite v, does_stateHighWrite v,
    fun hr => (WideWord.prog w.isLt).exec_lowRead hr be, fun hr => (WideWord.state k.isLt).exec_lowRead hr be⟩

end Sys2Proof.Machine
end

section
/-!
PROOFS. The CLEAR of a CLEATED HV channel (spec/13_hv_fuser.md R298): the rules of MODE and HOLD that come before it in
a write of HVj_CTRL leave a CLEATED channel's latch as it is, and CLEAR then releases or refuses it.
-/

namespace Sys2Proof.Machine

open Reg

/-! ## Fields that lie apart -/

/-- Two fields share no bit. -/
def Apart (k f : Fld) : Prop := k.off ≠ f.off ∨ k.lo + k.w ≤ f.lo ∨ f.lo + f.w ≤ k.lo

theorem on_eq_of_g {s t : State} {f : Fld} (h : t.g f = s.g f) : t.on f = s.on f := by
  unfold State.on
  rw [h]

theorem HV_CTRL_ne_HV_STAT (i j : Nat) : HV_CTRL i ≠ HV_STAT j := by
  unfold HV_CTRL HV_STAT
  omega

theorem ILK_STAT_ne_HV_CTRL (j : Nat) : ILK_STAT ≠ HV_CTRL j := by
  unfold ILK_STAT HV_CTRL
  omega

theorem ILK_STAT_ne_HV_STAT (j : Nat) : ILK_STAT ≠ HV_STAT j := by
  unfold ILK_STAT HV_STAT
  omega

/-! ## The latch of a channel -/

/-- The fields that a CLEAR is decided on, and those that it releases. -/
def latchFields (j : Nat) : List Fld :=
  [HV_STAT_STATE j, HV_STAT_CAUSE j, HV_STAT_DSC_PEND j, HV_CTRL_ENABLE j, ILK_STAT_CLOSED]

/-- From `s` to `t` channel `j`'s latch stays as it is, and only the channel's CTRL and STAT registers change. -/
structure LatchKept (j : Nat) (s t : State) : Prop where
  fields : ∀ k ∈ latchFields j, t.g k = s.g k
  mot : t.mot = s.mot
  out : t.out = s.out
  regs : OnlyRegs [HV_CTRL j, HV_STAT j] s t

namespace LatchKept

variable {j : Nat} {s t : State}

theorem refl (j : Nat) (s : State) : LatchKept j s s := ⟨fun _ _ => rfl, rfl, rfl, onlyRegs_refl _ s⟩

/-- A field of the channel's CTRL or STAT register apart from the latch may be written. -/
theorem p (h : LatchKept j s t) {f : Fld} (v : Nat) (hw : f.lo + f.w ≤ 32) (hoff : f.off ∈ [HV_CTRL j, HV_STAT j])
    (hapart : ∀ k ∈ latchFields j, Apart k f) : LatchKept j s (t.p f v) where
  fields k hk := (g_p_other t f k v hw (hapart k hk)).trans (h.fields k hk)
  mot := h.mot
  out := h.out
  regs := h.regs.p f v hoff

theorem hold (h : LatchKept j s t) (v : Nat) : LatchKept j s (t.p (HV_CTRL_HOLD j) v) := by
  refine h.p v (by decide : 2 + 1 ≤ 32) List.mem_cons_self ?_
  have hstat : HV_STAT j ≠ HV_CTRL j := (HV_CTRL_ne_HV_STAT j j).symm
  simp [latchFields, Apart, HV_STAT_STATE, HV_STAT_CAUSE, HV_STAT_DSC_PEND, HV_CTRL_ENABLE, ILK_STAT_CLOSED,
    HV_CTRL_HOLD, hstat, ILK_STAT_ne_HV_CTRL]

theorem cfgErr (h : LatchKept j s t) : LatchKept j s (t.pb (HV_STAT_CFG_ERR j) true) := by
  refine h.p _ (by decide : 3 + 1 ≤ 32) (List.mem_cons_of_mem _ List.mem_cons_self) ?_
  simp [latchFields, Apart, HV_STAT_STATE, HV_STAT_CAUSE, HV_STAT_DSC_PEND, HV_CTRL_ENABLE, ILK_STAT_CLOSED,
    HV_STAT_CFG_ERR, HV_CTRL_ne_HV_STAT, ILK_STAT_ne_HV_STAT]

section
variable (h : LatchKept j s t)
include h

theorem state : hvState t j = hvState s j := h.fields _ (by simp [latchFields])

theorem cause : t.g (HV_STAT_CAUSE j) = s.g (HV_STAT_CAUSE j) := h.fields _ (by simp [latchFields])

theorem pending : t.on (HV_STAT_DSC_PEND j) = s.on (HV_STAT_DSC_PEND j) :=
  on_eq_of_g (h.fields _ (by simp [latchFields]))

theorem enable : t.on (HV_CTRL_ENABLE j) = s.on (HV_CTRL_ENABLE j) :=
  on_eq_of_g (h.fields _ (by simp [latchFields]))

theorem interlocks : anyOpen t = anyOpen s := by
  have hclosed : t.g ILK_STAT_CLOSED = s.g ILK_STAT_CLOSED := h.fields _ (by simp [latchFields])
  unfold anyOpen
  rw [hclosed]

end

end LatchKept

/-! ## The rules of MODE and HOLD at a CLEATED channel -/

section
variable {j : Nat} {s : State}

/-- A channel that is neither OFF nor HELD enters no state (R295). -/
theorem hvTry_cleated (hc : hvState s j = Hvs.cleated) : hvTry j s = s := by
  have hno : ¬ (hvState s j = Hvs.off ∨ hvState s j = Hvs.held) := by
    rw [hc]
    decide
  unfold hvTry
  exact if_neg fun h => hno h.2.1

/-- MODE of a channel that is not OFF is never written (spec/13_hv_fuser.md, HVj_CTRL). -/
theorem hvMode_latchKept (v : Word) (hc : hvState s j = Hvs.cleated) : LatchKept j s (hvMode j v s) := by
  have hoff : ¬ hvState s j = Hvs.off := by
    rw [hc]
    decide
  unfold hvMode
  dsimp only
  rw [if_neg hoff]
  split
  · exact .refl j s
  · exact (LatchKept.refl j s).cfgErr

theorem LatchKept.hvHold {t : State} (h : LatchKept j s t) (v : Word) (hc : hvState s j = Hvs.cleated) :
    LatchKept j s (hvHold j v t) := by
  have hk := h.hold (fieldOf (HV_CTRL_HOLD j) v)
  have hst := hk.state.trans hc
  have hon : ¬ hvState (t.p (HV_CTRL_HOLD j) (fieldOf (HV_CTRL_HOLD j) v)) j = Hvs.on := by
    rw [hst]
    decide
  unfold Machine.hvHold
  dsimp only
  rw [if_neg fun hheld => hon hheld.2, hvTry_cleated hst]
  exact hk

/-- A write of CLEAR at a CLEATED channel comes to the rule of CLEAR, the latch as it was (R298). -/
theorem hvCtrlWrite_clear {v : Word} (hv : fieldOf (HV_CTRL_CLEAR j) v = 1) (hc : hvState s j = Hvs.cleated) :
    ∃ t, LatchKept j s t ∧ hvCtrlWrite j v s = hvClear j t := by
  refine ⟨hvHold j v (hvMode j v s), (hvMode_latchKept v hc).hvHold v hc, ?_⟩
  unfold hvCtrlWrite
  exact if_pos ⟨hv, hc⟩

/-! ## The two answers of CLEAR -/

/-- The channel's latch released: OFF, no cause, not enabled. -/
def unlatched (j : Nat) (s : State) : State :=
  ((s.p (HV_STAT_STATE j) Hvs.off).p (HV_STAT_CAUSE j) 0).pb (HV_CTRL_ENABLE j) false

theorem hvClear_released (hc : hvState s j = Hvs.cleated) (hp : s.on (HV_STAT_DSC_PEND j) = false)
    (ho : anyOpen s = false) : hvClear j s = unlatched j s := by
  have hfree : ¬ (s.on (HV_STAT_DSC_PEND j) || anyOpen s) = true := by simp [hp, ho]
  unfold hvClear
  rw [if_neg (not_not.mpr hc), if_neg hfree]
  rfl

theorem hvClear_refused (hc : hvState s j = Hvs.cleated) (h : s.on (HV_STAT_DSC_PEND j) = true ∨ anyOpen s = true) :
    hvClear j s = s.pb (HV_STAT_CFG_ERR j) true := by
  unfold hvClear
  rw [if_neg (not_not.mpr hc), if_pos ((Bool.or_eq_true _ _).mpr h)]

end

theorem unlatched_mot (j : Nat) (s : State) : (unlatched j s).mot = s.mot := by
  rw [unlatched, State.pb_mot, State.p_mot, State.p_mot]

theorem unlatched_out (j : Nat) (s : State) : (unlatched j s).out = s.out := by
  rw [unlatched, State.pb_out, State.p_out, State.p_out]

theorem hvState_unlatched (j : Nat) (s : State) : hvState (unlatched j s) j = Hvs.off := by
  have henable : Apart (HV_STAT_STATE j) (HV_CTRL_ENABLE j) := .inl (HV_CTRL_ne_HV_STAT j j).symm
  have hcause : Apart (HV_STAT_STATE j) (HV_STAT_CAUSE j) := .inr (.inl (by decide : 0 + 2 ≤ 8))
  calc hvState (unlatched j s) j
      = ((s.p (HV_STAT_STATE j) Hvs.off).p (HV_STAT_CAUSE j) 0).g (HV_STAT_STATE j) :=
        g_p_other _ _ _ _ (by decide : 0 + 1 ≤ 32) henable
    _ = (s.p (HV_STAT_STATE j) Hvs.off).g (HV_STAT_STATE j) := g_p_other _ _ _ _ (by decide : 8 + 2 ≤ 32) hcause
    _ = Hvs.off := g_p_self s _ _ (by decide : 0 + 2 ≤ 32)

theorem cause_unlatched (j : Nat) (s : State) : (unlatched j s).g (HV_STAT_CAUSE j) = 0 := by
  have henable : Apart (HV_STAT_CAUSE j) (HV_CTRL_ENABLE j) := .inl (HV_CTRL_ne_HV_STAT j j).symm
  exact (g_p_other _ _ _ _ (by decide : 0 + 1 ≤ 32) henable).trans (g_p_self _ _ _ (by decide : 8 + 2 ≤ 32))

theorem enable_unlatched (j : Nat) (s : State) : (unlatched j s).on (HV_CTRL_ENABLE j) = false :=
  on_pb_self _ _ _ (by decide : 0 + 1 ≤ 32) rfl

theorem onlyRegs_unlatched {l : List Nat} {j : Nat} {s t : State} (h : OnlyRegs l s t) (hctrl : HV_CTRL j ∈ l)
    (hstat : HV_STAT j ∈ l) : OnlyRegs l s (unlatched j t) :=
  ((h.p (HV_STAT_STATE j) _ hstat).p (HV_STAT_CAUSE j) _ hstat).pb (HV_CTRL_ENABLE j) _ hctrl

/-- A CLEAR that reaches a CLEATED channel leaves what the rule of CLEAR leaves, the latch before it as it was. -/
theorem exec_hvClear {s : State} {j : Fin 32} {v : Word} (hr : Reaches s (HV_CTRL j))
    (hv : fieldOf (HV_CTRL_CLEAR j) v = 1) (hc : hvState s j = Hvs.cleated) :
    ∃ t, LatchKept j s t ∧ exec (.hvClear j v) s = .next (hvClear j t) := by
  obtain ⟨t, hkept, hwrite⟩ := hvCtrlWrite_clear hv hc
  refine ⟨t, hkept, ?_⟩
  show Host.Outcome.next (hostAt (HV_CTRL j) (hvCtrlWrite j v) s) = _
  rw [hostAt_reaches hr, hwrite]

/-- Settles O59: the latch comes to CLEAR as it was, and CLEAR releases it or sets CFG_ERR. -/
theorem clearOfACleatedChannel : Obligations.ClearOfACleatedChannel := by
  intro s j v hr hv hc
  obtain ⟨t, hkept, hexec⟩ := exec_hvClear hr hv hc
  have hct : hvState t j = Hvs.cleated := hkept.state.trans hc
  constructor
  · intro hp ho
    rw [hvClear_released hct (hkept.pending.trans hp) (hkept.interlocks.trans ho)] at hexec
    exact ⟨_, hexec, hvState_unlatched j t, enable_unlatched j t, cause_unlatched j t,
      (unlatched_mot j t).trans hkept.mot, (unlatched_out j t).trans hkept.out,
      onlyRegs_unlatched hkept.regs (by simp) (by simp)⟩
  · intro hbar
    rw [← hkept.pending, ← hkept.interlocks] at hbar
    rw [hvClear_refused hct hbar] at hexec
    have hend := hkept.cfgErr
    have herr := on_pb_self t (HV_STAT_CFG_ERR j) true (by decide : 3 + 1 ≤ 32) rfl
    exact ⟨_, hexec, herr, hend.state.trans hc, hend.enable, hend.cause, hend.mot, hend.out, hend.regs⟩

end Sys2Proof.Machine
end

section
/-!
SUPPORT. The frame of every command, and with it what a step keeps.
-/

namespace Sys2Proof.Machine

/-! ## Every command -/

theorem mayChange {c : Instr} {p : Piece} (h : (Instr.parts c).contains p = true) : ¬ p ∉ Instr.parts c :=
  not_not_intro (List.contains_iff_mem.mp h)

/-- Every command answers a next state, and the parts that its list does not name stand: each command's own lemma, whose
parts are found in the list. What is left besides is the last operand of healthRx, which its meaning does not use. -/
theorem exec_kept (c : Instr) (s : State) : ∃ t, exec c s = .next t ∧ Kept (· ∉ Instr.parts c) s t := by
  cases c <;>
    [apply kept_execPowerOn; apply kept_execResetPin; apply kept_execSupplyFail; apply kept_execSupplyRecover;
      apply kept_execChipReset; apply kept_execRegisterWrite; apply kept_execAbsentUnitAccess;
      apply kept_execUnmappedAccess; apply kept_execReadClear; apply kept_execLowWordRead; apply kept_execFenceRead;
      apply kept_execMbxHdrRead; apply kept_execErrSlotRead; apply kept_execTimeNowRead; apply kept_execSyspllLock;
      apply kept_execQspiHeaderRead; apply kept_execQspiImageReadDone; apply kept_execNvmImageReadDone;
      apply kept_execImageVerified; apply kept_execRigOpen; apply kept_execRigCommit; apply kept_execRigAbandon;
      apply kept_execApertureWrite; apply kept_execNvmImageStoreDone; apply kept_execCsetConfirm;
      apply kept_execCsetProgramDone; apply kept_execSparHostWrite; apply kept_execPcieReset;
      apply kept_execBar2Access; apply kept_execSqDoorbell; apply kept_execCqDoorbell; apply kept_execQpEnable;
      apply kept_execQpDisable; apply kept_execSessionClose; apply kept_execHello; apply kept_execBye;
      apply kept_execStatusQuery; apply kept_execLogRead; apply kept_execLogReadDone; apply kept_execTimeEvent;
      apply kept_execTimeEventDue; apply kept_execEngineStart; apply kept_execEngineStop; apply kept_execSpeedSet;
      apply kept_execSheetCommit; apply kept_execSheetAbort; apply kept_execStationCfg; apply kept_execEmitterSet;
      apply kept_execRegisterAdjust; apply kept_execCameraCfg; apply kept_execFrameUpload;
      apply kept_execFrameUploadDone; apply kept_execCodecJob; apply kept_execUnknownOpcode;
      apply kept_execSheetDoneWrite; apply kept_execReplHello; apply kept_execReplBye; apply kept_execReplStatusQuery;
      apply kept_execReplTimeEvent; apply kept_execReplUnknownOp; apply kept_execReplAck;
      apply kept_execReplNotifyRetry; apply kept_execReplPortDisable; apply kept_execVerifyBandStart;
      apply kept_execVerifyBandDone; apply kept_execSheetAdmission; apply kept_execInflateJobDone;
      apply kept_execCmpJobStart; apply kept_execCmpJobDone; apply kept_execCmpPause; apply kept_execStationBandStart;
      apply kept_execStationBandDone; apply kept_execEncoderSample; apply kept_execFeedReqRaise;
      apply kept_execFeedAck; apply kept_execFeedSense; apply kept_execMisfeedTimeout; apply kept_execWebRunStart;
      apply kept_execTrigWebOrigin; apply kept_execTrigFeedpos; apply kept_execTrigPrefetch;
      apply kept_execTrigStation; apply kept_execTrigStationDone; apply kept_execTrigDelivery;
      apply kept_execTrigCamera; apply kept_execSpeedBoundaryStart; apply kept_execBoundaryPathClear;
      apply kept_execBoundaryLocked; apply kept_execPtrimWrite; apply kept_execWarmupComplete;
      apply kept_execDrainComplete; apply kept_execRegionResetDone; apply kept_execContainmentTimeout;
      apply kept_execRegionResetTimeout; apply kept_execBdEdge; apply kept_execBdMissTimeout;
      apply kept_execReloadStart; apply kept_execReloadDone; apply kept_execTableWrite; apply kept_execWearNvmWrite;
      apply kept_execBoostEnd; apply kept_execLinkTrainStart; apply kept_execBackBlockLock;
      apply kept_execBackLockLoss; apply kept_execCapsReqSend; apply kept_execCapsRx; apply kept_execTrainTimeout;
      apply kept_execRetrainDelayEnd; apply kept_execStatusRx; apply kept_execHealthRx; apply kept_execLivRx;
      apply kept_execControlResendTimeout; apply kept_execSweepUnreported; apply kept_execLinkDown;
      apply kept_execLinkUp; apply kept_execLinkRetrain; apply kept_execBankLoadStart; apply kept_execLivReqSend;
      apply kept_execCsiPacket; apply kept_execFrameStart; apply kept_execFrameEnd; apply kept_execCciWritesDone;
      apply kept_execMemFrameProcess; apply kept_execFrameResult; apply kept_execRegAutoStep;
      apply kept_execRegPtrimStep; apply kept_execMcEnable; apply kept_execMcDisable; apply kept_execMcStop;
      apply kept_execMcClear; apply kept_execMcPwmPeriod; apply kept_execMcSenseDone; apply kept_execMcBrakeStill;
      apply kept_execMcStartTimeout; apply kept_execMcIpdDone; apply kept_execMcReacqWindow;
      apply kept_execMcReacqTimeout; apply kept_execMcDriverFault; apply kept_execMcStopDone;
      apply kept_execCmdLossTimeout; apply kept_execAxisEnable; apply kept_execAxisDisable; apply kept_execAxisGo;
      apply kept_execAxisStop; apply kept_execAxisClear; apply kept_execAxisTargetWrite;
      apply kept_execAxisProfileWrite; apply kept_execAxisStartInput; apply kept_execAxisProfileTick;
      apply kept_execAxisMoveEnd; apply kept_execAxisEncoderSample; apply kept_execGroupGo; apply kept_execGroupStop;
      apply kept_execGroupStartInput; apply kept_execTimebaseTick; apply kept_execLoopEnable;
      apply kept_execLoopDisable; apply kept_execCoefWrite; apply kept_execStagedCoefApply; apply kept_execNodeWrite;
      apply kept_execWideWordWrite; apply kept_execTraceArm; apply kept_execTraceForce; apply kept_execTraceAbort;
      apply kept_execTraceDone; apply kept_execCeEccError; apply kept_execInterlockOpen;
      apply kept_execInterlockClose; apply kept_execHvEnable; apply kept_execHvDisable; apply kept_execHvHold;
      apply kept_execHvClear; apply kept_execHvPwmPeriod; apply kept_execHvFeedbackResult;
      apply kept_execDischargeConfirmed; apply kept_execDischargeTimeout; apply kept_execHvGuardSample;
      apply kept_execZcEdge; apply kept_execZcLossTimeout; apply kept_execHeaterHalfCycle;
      apply kept_execHeaterSample; apply kept_execHeaterOtsTrip; apply kept_execHeaterEnable;
      apply kept_execHeaterClear; apply kept_execOnRequestStart; apply kept_execSeqEnd; apply kept_execSeqEnable;
      apply kept_execSeqDisable; apply kept_execSeqWait; apply kept_execSeqWaitEnd; apply kept_execSeqWaitgood;
      apply kept_execWaitgoodTimeout; apply kept_execSeqCheck; apply kept_execSeqJumpif; apply kept_execSeqJump;
      apply kept_execSeqRetry; apply kept_execSeqMark; apply kept_execRailQualified; apply kept_execRailGoodDrop;
      apply kept_execRailDroop; apply kept_execRailOvSample; apply kept_execShutdownSlotDone;
      apply kept_execRetryDelayEnd; apply kept_execPwrOff; apply kept_execPwrUncleat; apply kept_execPwrSave;
      apply kept_execPwrCntClr; apply kept_execSagTrip; apply kept_execSagRearm; apply kept_execStayShadowRefresh;
      apply kept_execStayFinalCopy; apply kept_execStaySaveDone; apply kept_execStaySaveAbort;
      apply kept_execNvmDeferredWrite; apply kept_execThermalConversion; apply kept_execReefLeave;
      apply kept_execHardwareTrip; apply kept_execTripRelease; apply kept_execPllLock; apply kept_execPllLoss;
      apply kept_execReferenceLoss; apply kept_execBandMeasureStart; apply kept_execBandMeasureDone;
      apply kept_execTimeIncCommit; apply kept_execTimeStep; apply kept_execTimeRearm; apply kept_execTpoEnable;
      apply kept_execTpoDisable; apply kept_execTpoEdge; apply kept_execTpoPulseEnd; apply kept_execEthFrameRx;
      apply kept_execEthRxPop; apply kept_execEthTsPop; apply kept_execEthSend; apply kept_execEthTxDone;
      apply kept_execDramTrainEnd; apply kept_execDramMrw; apply kept_execDramTrainPhase;
      apply kept_execDramTrainWait; apply kept_execDramZqcal; apply kept_execDramSavedVerify;
      apply kept_execDramTrainSave; apply kept_execDramTrainForget; apply kept_execDramRead; apply kept_execDramWrite;
      apply kept_execDramRefresh; apply kept_execDramMr4Poll; apply kept_execNeighbourRefresh;
      apply kept_execScrubRead; apply kept_execSrRequest; apply kept_execSrEntered; apply kept_execSrExit;
      apply kept_execSrExitDone; apply kept_execDmaEnable; apply kept_execDmaAbort; apply kept_execDmaDescFetch;
      apply kept_execDmaTrigger; apply kept_execDmaFenceClear; apply kept_execDmaDescComplete;
      apply kept_execDmaCountWrite; apply kept_execDmaTimerPulse; apply kept_execMonEnable; apply kept_execMonSample;
      apply kept_execMonSnap; apply kept_execMonClear; apply kept_execIrqMaskWrite; apply kept_execCmdPinPeriod;
      apply kept_execRailGoodRise; apply kept_execBackPacketDiscard; apply kept_execDmaHostReadError;
      apply kept_execEthLinkChange; apply kept_execPllPhaseExcursion; apply kept_execVstayDecay]
  all_goals first | exact mayChange rfl | exact Kept.refl s | assumption

theorem kept_of_exec {c : Instr} {s t : State} (h : exec c s = .next t) : Kept (· ∉ Instr.parts c) s t := by
  obtain ⟨u, hu, hk⟩ := exec_kept c s
  rw [h] at hu
  injection hu with e
  exact e ▸ hk

/-- Settles O4, by the frame of every command. -/
theorem everyCommandAnswersAndAppends : Obligations.EveryCommandAnswersAndAppends := by
  intro c s
  obtain ⟨t, ht, hk⟩ := exec_kept c s
  exact ⟨t, ht, hk.part, hk.rev, hk.pending, hk.clock, hk.shown, hk.spent, hk.later⟩

/-- Settles O5, by the frame of every command. -/
theorem commandFrame : Obligations.CommandFrame :=
  fun _ _ _ p h hp => (kept_of_exec h).same p hp

/-! ## Steps -/

theorem step_front {c : Instr} {s : State} {q : List Instr} (h : s.pending = c :: q) :
    step s = exec c { s with pending := q } := by
  unfold step
  rw [h]

theorem step_held {c : Instr} {s : State} (hp : s.pending = []) (hs : startable s = some c) : step s = exec c s := by
  unfold step
  rw [hp]
  dsimp only
  rw [hs]

theorem step_tick {s : State} (hp : s.pending = []) (hs : startable s = none) : step s = .next (blockTick s) := by
  unfold step
  rw [hp]
  dsimp only
  rw [hs]

/-- Settles O2: a bank that lists nothing is in canonical form. -/
theorem resetIsCanonical : Obligations.ResetIsCanonical := ⟨⟨rfl, rfl, rfl⟩, rfl, rfl⟩

/-- Settles O3: a command keeps the forms by its frame, whether from the queue or held, and so does a tick. -/
theorem everyStepKeepsTheBanksCanonical : Obligations.EveryStepKeepsTheBanksCanonical := by
  intro s t hw ht
  cases hp : s.pending with
  | cons c q => exact (kept_of_exec ((step_front hp).symm.trans ht)).wf hw
  | nil =>
    cases hs : startable s with
    | some c => exact (kept_of_exec ((step_held hp hs).symm.trans ht)).wf hw
    | none =>
      have e : blockTick s = t := Host.Outcome.next.inj ((step_tick hp hs).symm.trans ht)
      rw [← e]
      exact blockTick_wf hw

/-! ## The tick -/

/-- After the step that waits for the tick, nothing in it moves the time counter. -/
theorem blockTick_time {s : State} (hl : s.pwr.lost = false) (he : s.pwr.endDue = false) (hd : s.dead = false) :
    (blockTick s).time = (stepDue (tick s)).time := by
  have hk : Kept (· = .time) (stepDue (tick s)) (blockTick s) := by
    unfold blockTick
    rw [stayTick_id (by rw [tick_pwr]; exact hl) (by rw [tick_pwr]; exact he)]
    dsimp only
    rw [if_neg (by rw [tick_dead, hd]; decide)]
    refine kept_deliver ?_ ?_ ?_ ?_ ?_ ?_ ?_ ?_ ?_ ?_ ?_ ?_ ?_ ?_ ?_ ?_ ?_ ?_ (kept_feedSync ?_ ?_ ?_
      (kept_writeBackTick ?_ ?_ (kept_overN 8 sendDue (fun i _ h => kept_sendDue ?_ ?_ ?_ i h)
        (kept_retireTick ?_ ?_ ?_ ?_ ?_ ?_ (.refl _)))))
    all_goals decide
  exact hk.same .time rfl

/-- Settles O1. -/
theorem stepRunsTheFront : Obligations.StepRunsTheFront := by
  refine ⟨fun c s q h => step_front h, fun c s hp hs => step_held hp hs, fun s hp hs => ?_⟩
  have hany := blockTick_any s
  refine ⟨blockTick s, step_tick hp hs, hany.clock.trans (tick_clock s),
    (hany.pending.trans (tick_pending s)).trans hp, (tick_same s .out (by decide)) ▸ hany.shown, fun hl he => ⟨?_, ?_, ?_⟩⟩
  · exact blockTick_dead hl he
  · intro p hp
    have hk : Kept (· ∈ [Piece.latch, .mem, .epoch, .mon, .thm, .pins]) (tick s) (blockTick s) := by
      apply blockTick_kept
      any_goals decide
      · exact hl
      · exact he
    have ht : p ≠ .time := by
      rintro rfl
      revert hp
      decide
    exact (tick_same s p ht).trans (hk.same p hp)
  · intro hd
    rw [tick_time, hd]
    exact ⟨blockTick_time hl he hd, rfl⟩

end Sys2Proof.Machine
end

section
/-!
PROOFS. Host writes of registers without rules of their own (spec/00_scope.md R8-R11): the write comes to the register's
access types, and each run of its bits is left as its access type says.
-/

namespace Sys2Proof.Machine

open Reg

/-! ## Which offsets have a rule -/

theorem first_isSome (l : List (Option (State → State))) : (first l).isSome = l.any Option.isSome := by
  induction l with
  | nil => rfl
  | cons o r ih =>
    cases o with
    | none => exact ih
    | some f => rfl

theorem one_isSome (a off : Nat) (f : State → State) : (one a off f).isSome = decide (off = a) := by
  unfold one
  split <;> simp [*]

theorem many_isSome (a stride count off : Nat) (f : Nat → State → State) :
    (many a stride count off f).isSome = (instOf off a stride count).isSome :=
  Option.isSome_map

theorem ite_some_isSome {c : Prop} [Decidable c] (f : State → State) :
    (if c then some f else none).isSome = decide c := by
  split <;> simp [*]

/-- Whether a rule is found for a write does not depend on the word written. -/
theorem writes_isSome (off : Nat) (v w : Word) :
    (first [infWrites off v, memWrites off v, hntWrites off v, imgWrites off v, motWrites off v]).isSome =
      (first [infWrites off w, memWrites off w, hntWrites off w, imgWrites off w, motWrites off w]).isSome := by
  simp only [infWrites, memWrites, hntWrites, imgWrites, motWrites, first_isSome, List.any_cons, List.any_nil, one_isSome,
    many_isSome, ite_some_isSome]

/-! ## The write of a register with no rule -/

section
variable {off : Nat} (h : ownRule off = false)
include h

theorem no_writes (v : Word) :
    first [infWrites off v, memWrites off v, hntWrites off v, imgWrites off v, motWrites off v] = none := by
  have h0 := (Bool.or_eq_false_iff.mp h).2
  rw [writes_isSome off 0 v] at h0
  exact Option.not_isSome_iff_eq_none.mp (Bool.not_eq_true _ ▸ h0)

theorem regWrite_plain (v : Word) (s : State) : regWrite off v s = s.plainWrite off v := by
  unfold regWrite
  rw [no_writes h v]

theorem hostWord_plain (v : Word) (s : State) : hostWord off v s = s.plainWrite off v := by
  have hparts := h
  simp only [ownRule, Bool.or_eq_false_iff, beq_eq_false_iff_ne] at hparts
  obtain ⟨⟨⟨hreset, hload⟩, hap⟩, _⟩ := hparts
  unfold hostWord
  rw [if_neg hreset, if_neg hload, if_neg (ne_true_of_eq_false hap), regWrite_plain h]

/-- The DRAM controllers' registers have a rule, so a write without one waits for no exit from self-refresh. -/
theorem accessWaits_plain (s : State) : accessWaits off false s = false := by
  have hddr : ¬ (0x201000 ≤ off ∧ off < 0x203000) := by
    intro hin
    have hmem := no_writes h 0
    simp [← Option.not_isSome_iff_eq_none, first_isSome, memWrites, hin] at hmem
  simp [accessWaits, hddr]

/-- The heads of the completion rings have a rule, so a write without one frees no space. -/
theorem ringFreed_plain (s : State) (hal : off % 4 = 0) : ringFreed off s = s := by
  have hnone : ¬ ((List.range 16).any fun q => off / 4 * 4 == REP_QCQH q) = true := by
    intro hany
    obtain ⟨q, hq, he⟩ := List.any_eq_true.mp hany
    have hoff : off = REP_QCQH 0 + 0x20 * q := by
      have := beq_iff_eq.mp he
      unfold REP_QCQH at *
      omega
    have hself := instOf_self (base := REP_QCQH 0) (by decide : 0 < 0x20) (List.mem_range.mp hq)
    have hhnt := no_writes h 0
    simp [← Option.not_isSome_iff_eq_none, first_isSome, hntWrites, many_isSome, hoff, hself] at hhnt
  exact if_neg hnone

end

theorem exec_registerWrite_plain {s : State} {off : BitVec 26} {v : Word} (hr : Reaches s (off.toNat / 4 * 4))
    (h : ownRule (off.toNat / 4 * 4) = false) :
    exec (.registerWrite off 15 v) s = .next (s.plainWrite (off.toNat / 4 * 4) v) := by
  have hwrite : hostWrite off.toNat 15 v s = s.plainWrite (off.toNat / 4 * 4) v := by
    unfold hostWrite
    dsimp only
    rw [hostAt_reaches hr, accessWaits_plain h]
    exact hostWord_plain h v s
  have hring : ∀ t, ringFreed off.toNat t = ringFreed (off.toNat / 4 * 4) t := fun t => by
    unfold ringFreed
    rw [Nat.mul_div_cancel _ (by decide : 0 < 4)]
  show Host.Outcome.next (ringFreed off.toNat (hostWrite off.toNat 15 v s)) = _
  rw [hwrite, hring, ringFreed_plain h _ (Nat.mul_mod_left _ _)]

/-! ## What the access types leave -/

/-- A run of the table holds what its access type leaves of the word written. -/
theorem plainWrite_runAt {s : State} {off : Nat} {v : Word} {b : RegTable.Bits} (hb : b ∈ regBits off) :
    bitsOf ((s.plainWrite off v).reg off).toNat b.lo b.w =
      runWrite s.rigged b.acc (bitsOf (s.reg off).toNat b.lo b.w) (bitsOf v.toNat b.lo b.w) % 2 ^ b.w := by
  unfold regBits at hb
  split at hb
  · exact plainWrite_run (by assumption) hb
  · exact absurd hb List.not_mem_nil

theorem plainWrite_regs (s : State) (off : Nat) (v : Word) :
    s.plainWrite off v = { s with regs := (s.plainWrite off v).regs } := by
  unfold State.plainWrite
  split <;> rfl

/-- Settles O7: the write comes to the access types alone, and each run keeps its bound. -/
theorem registerWriteByAccessTypes : Obligations.RegisterWriteByAccessTypes := by
  intro s off v hr hown
  refine ⟨_, exec_registerWrite_plain hr hown, ?_, ?_, ?_, ?_, ?_, ?_,
    (onlyRegs_refl _ s).plainWrite _ v List.mem_cons_self, plainWrite_regs s _ v⟩
  all_goals
    intro b hb hacc
    rw [plainWrite_runAt hb, hacc]
    dsimp only [runWrite]
  · exact bitsOf_mod _ _ _
  · split <;> exact bitsOf_mod _ _ _
  · exact Nat.mod_eq_of_lt ((Nat.sub_le _ _).trans_lt (bitsOf_lt _ _ _))
  · exact Nat.mod_eq_of_lt (Nat.or_lt_two_pow (bitsOf_lt _ _ _) (bitsOf_lt _ _ _))
  · exact bitsOf_mod _ _ _
  · exact bitsOf_mod _ _ _

end Sys2Proof.Machine
end

section
/-!
PROOFS. Reading fields after writes: a field that shares no bit with the one written reads as before. Where two fields lie
is found by reflexivity, from the offsets that the register map gives them.
-/

namespace Sys2Proof.Machine

open Reg

/-- A write of `f` within its word leaves field `k`. -/
def Clear (k f : Fld) : Prop := f.lo + f.w ≤ 32 ∧ Apart k f

/-- Fields of registers of one unit: from different bases, or runs of bits side by side. -/
theorem clear_inst {a b x l w l' w' : Nat}
    (h : (Nat.ble (l' + w') 32 && (!Nat.beq a b || Nat.ble (l + w) l' || Nat.ble (l' + w') l)) = true) :
    Clear ⟨a + x, l, w⟩ ⟨b + x, l', w'⟩ := by
  simp only [Bool.and_eq_true, Bool.or_eq_true, Nat.ble_eq, Bool.not_eq_true', or_assoc] at h
  exact ⟨h.1, h.2.imp_left fun hne e => Nat.ne_of_beq_eq_false hne (Nat.add_right_cancel e)⟩

/-- Fields of registers without instances. -/
theorem clear_const {a b l w l' w' : Nat}
    (h : (Nat.ble (l' + w') 32 && (!Nat.beq a b || Nat.ble (l + w) l' || Nat.ble (l' + w') l)) = true) :
    Clear ⟨a, l, w⟩ ⟨b, l', w'⟩ := clear_inst (x := 0) h

/-- A register before all the places of another. -/
theorem clear_below {a b x l w l' w' : Nat} (h : (Nat.ble (l' + w') 32 && Nat.blt a b) = true) :
    Clear ⟨a, l, w⟩ ⟨b + x, l', w'⟩ := by
  simp only [Bool.and_eq_true, Nat.ble_eq, Nat.blt_eq] at h
  exact ⟨h.1, .inl (by dsimp only; omega)⟩

/-- One place of a repeated register that lies after another. -/
theorem clear_above {a b x l w l' w' : Nat} (h : (Nat.ble (l' + w') 32 && Nat.blt b a) = true) :
    Clear ⟨a + x, l, w⟩ ⟨b, l', w'⟩ := by
  simp only [Bool.and_eq_true, Nat.ble_eq, Nat.blt_eq] at h
  exact ⟨h.1, .inl (by dsimp only; omega)⟩

section
variable (s : State) {f k : Fld}

@[simp] theorem g_p_clear (v : Nat) (h : Clear k f) : (s.p f v).g k = s.g k := g_p_other s f k v h.1 h.2

@[simp] theorem g_pb_clear (v : Bool) (h : Clear k f) : (s.pb f v).g k = s.g k := g_p_clear s _ h

@[simp] theorem g_pz_clear (v : Int) (h : Clear k f) : (s.pz f v).g k = s.g k := g_p_clear s _ h

@[simp] theorem g_inc_clear (h : Clear k f) : (s.inc f).g k = s.g k := g_p_clear s _ h

@[simp] theorem on_p_clear (v : Nat) (h : Clear k f) : (s.p f v).on k = s.on k := on_eq_of_g (g_p_clear s v h)

@[simp] theorem on_pb_clear (v : Bool) (h : Clear k f) : (s.pb f v).on k = s.on k := on_eq_of_g (g_pb_clear s v h)

@[simp] theorem on_pz_clear (v : Int) (h : Clear k f) : (s.pz f v).on k = s.on k := on_eq_of_g (g_pz_clear s v h)

@[simp] theorem on_inc_clear (h : Clear k f) : (s.inc f).on k = s.on k := on_eq_of_g (g_inc_clear s h)

@[simp] theorem on_pb_same (v : Bool) (h : (Nat.ble (f.lo + f.w) 32 && Nat.beq f.w 1) = true) : (s.pb f v).on f = v := by
  simp only [Bool.and_eq_true, Nat.ble_eq, Nat.beq_eq] at h
  exact on_pb_self s f v h.1 h.2

/-- Other things shown, another unit: registers read as before. -/
theorem g_eq_of_regs {s t : State} (f : Fld) (h : t.part = s.part ∧ t.rev = s.rev ∧ t.regs = s.regs) : t.g f = s.g f :=
  g_congr h.1 h.2.1 h.2.2 f

end

/-! ## A register written by its access types -/

/-- The access type of a field that is one run of its register. -/
def accOf (f : Fld) : Option RegTable.Access :=
  (((runsAt f.off).getD []).find? fun b => b.lo == f.lo && b.w == f.w).map (·.acc)

theorem runsAt_of_accOf {f : Fld} {a : RegTable.Access} (h : accOf f = some a) :
    ∃ l, runsAt f.off = some l ∧ ⟨f.lo, f.w, a⟩ ∈ l := by
  obtain ⟨b, hb, ha⟩ := Option.map_eq_some_iff.mp h
  have hm := List.mem_of_find?_eq_some hb
  have he := List.find?_some hb
  simp only [Bool.and_eq_true, beq_iff_eq] at he
  cases hl : runsAt f.off with
  | none => rw [hl] at hm; exact absurd hm List.not_mem_nil
  | some l =>
    rw [hl] at hm
    refine ⟨l, rfl, ?_⟩
    rw [← he.1, ← he.2, ← ha]
    exact hm

section
variable {s : State} {f : Fld} {v : Word} {off : Nat}

theorem g_plainWrite_of_rw (h : accOf f = some .rw) (ho : f.off = off) : (s.plainWrite off v).g f = fieldOf f v := by
  obtain ⟨l, hl, hm⟩ := runsAt_of_accOf h
  exact ho ▸ g_plainWrite_rw hl hm

theorem g_plainWrite_of_ro (h : accOf f = some .ro) (ho : f.off = off) : (s.plainWrite off v).g f = s.g f := by
  obtain ⟨l, hl, hm⟩ := runsAt_of_accOf h
  exact ho ▸ g_plainWrite_ro hl (.inl hm)

theorem g_plainWrite_of_off (h : f.off ≠ off) : (s.plainWrite off v).g f = s.g f := g_plainWrite_off s off v f h

end

@[simp] theorem plainWrite_part (s : State) (off : Nat) (v : Word) : (s.plainWrite off v).part = s.part := by
  rw [plainWrite_regs]
@[simp] theorem plainWrite_rev (s : State) (off : Nat) (v : Word) : (s.plainWrite off v).rev = s.rev := by
  rw [plainWrite_regs]
@[simp] theorem plainWrite_inReset (s : State) (off : Nat) (v : Word) : (s.plainWrite off v).inReset = s.inReset := by
  rw [plainWrite_regs]
@[simp] theorem plainWrite_pinLow (s : State) (off : Nat) (v : Word) : (s.plainWrite off v).pinLow = s.pinLow := by
  rw [plainWrite_regs]
@[simp] theorem plainWrite_latch (s : State) (off : Nat) (v : Word) : (s.plainWrite off v).latch = s.latch := by
  rw [plainWrite_regs]
@[simp] theorem plainWrite_mem (s : State) (off : Nat) (v : Word) : (s.plainWrite off v).mem = s.mem := by
  rw [plainWrite_regs]
@[simp] theorem plainWrite_time (s : State) (off : Nat) (v : Word) : (s.plainWrite off v).time = s.time := by
  rw [plainWrite_regs]
@[simp] theorem plainWrite_clock (s : State) (off : Nat) (v : Word) : (s.plainWrite off v).clock = s.clock := by
  rw [plainWrite_regs]
@[simp] theorem plainWrite_free (s : State) (off : Nat) (v : Word) : (s.plainWrite off v).free = s.free := by
  rw [plainWrite_regs]
@[simp] theorem plainWrite_out (s : State) (off : Nat) (v : Word) : (s.plainWrite off v).out = s.out := by
  rw [plainWrite_regs]
@[simp] theorem plainWrite_host (s : State) (off : Nat) (v : Word) : (s.plainWrite off v).host = s.host := by
  rw [plainWrite_regs]
@[simp] theorem plainWrite_err (s : State) (off : Nat) (v : Word) : (s.plainWrite off v).err = s.err := by
  rw [plainWrite_regs]
@[simp] theorem plainWrite_psq (s : State) (off : Nat) (v : Word) : (s.plainWrite off v).psq = s.psq := by
  rw [plainWrite_regs]
@[simp] theorem plainWrite_ctx (s : State) (off : Nat) (v : Word) : (s.plainWrite off v).ctx = s.ctx := by
  rw [plainWrite_regs]
@[simp] theorem plainWrite_codec (s : State) (off : Nat) (v : Word) : (s.plainWrite off v).codec = s.codec := by
  rw [plainWrite_regs]
@[simp] theorem plainWrite_stn (s : State) (off : Nat) (v : Word) : (s.plainWrite off v).stn = s.stn := by
  rw [plainWrite_regs]
@[simp] theorem plainWrite_dram (s : State) (off : Nat) (v : Word) : (s.plainWrite off v).dram = s.dram := by
  rw [plainWrite_regs]
@[simp] theorem plainWrite_clk (s : State) (off : Nat) (v : Word) : (s.plainWrite off v).clk = s.clk := by
  rw [plainWrite_regs]
@[simp] theorem plainWrite_mon (s : State) (off : Nat) (v : Word) : (s.plainWrite off v).mon = s.mon := by
  rw [plainWrite_regs]
@[simp] theorem plainWrite_rig (s : State) (off : Nat) (v : Word) : (s.plainWrite off v).rig = s.rig := by
  rw [plainWrite_regs]
@[simp] theorem plainWrite_mot (s : State) (off : Nat) (v : Word) : (s.plainWrite off v).mot = s.mot := by
  rw [plainWrite_regs]
@[simp] theorem plainWrite_pwr (s : State) (off : Nat) (v : Word) : (s.plainWrite off v).pwr = s.pwr := by
  rw [plainWrite_regs]
@[simp] theorem plainWrite_thm (s : State) (off : Nat) (v : Word) : (s.plainWrite off v).thm = s.thm := by
  rw [plainWrite_regs]
@[simp] theorem plainWrite_vis (s : State) (off : Nat) (v : Word) : (s.plainWrite off v).vis = s.vis := by
  rw [plainWrite_regs]
@[simp] theorem plainWrite_net (s : State) (off : Nat) (v : Word) : (s.plainWrite off v).net = s.net := by
  rw [plainWrite_regs]
@[simp] theorem plainWrite_dma (s : State) (off : Nat) (v : Word) : (s.plainWrite off v).dma = s.dma := by
  rw [plainWrite_regs]

theorem OnlyRegs.of_reg {l : List Nat} {s t u : State} (h : OnlyRegs l s t) (e : ∀ off, u.reg off = t.reg off) :
    OnlyRegs l s u := fun off ho => (e off).trans (h off ho)

/-! ## What is shown -/

theorem shown_of_append {s t : State} {l : List Out} (h : t.out = s.out ++ l) : shown s t = l := by
  unfold shown
  rw [h, List.drop_left]

/-- Something shown before other things stands in what has been shown. -/
theorem mem_shown {s t : State} {l : List Out} {o : Out} (h : s.out ++ l <+: t.out) (ho : o ∈ l) : o ∈ shown s t := by
  obtain ⟨r, hr⟩ := h
  rw [shown_of_append (hr.symm.trans (List.append_assoc _ _ _))]
  exact List.mem_append_left _ ho

/-! ## A vector raised -/

theorem reg_msix (s : State) (v : Nat) {off : Nat} (h : off < 0x309000) : (s.msix v).reg off = s.reg off := by
  unfold State.msix
  split
  · exact reg_setReg_other _ _ _ _ (by unfold MSIX_PBA; omega)
  · exact reg_emit _ _ _

theorem g_msix (s : State) (v : Nat) {f : Fld} (h : f.off < 0x309000) : (s.msix v).g f = s.g f := by
  unfold State.g
  rw [reg_msix s v h]

theorem on_msix (s : State) (v : Nat) {f : Fld} (h : f.off < 0x309000) : (s.msix v).on f = s.on f :=
  on_eq_of_g (g_msix s v h)

theorem prefix_msix {s : State} {l : List Out} (v : Nat) (h : s.out = l) : l <+: (s.msix v).out :=
  h ▸ (kept_State_msix (K := fun _ => False) id id v (.refl s)).shown

end Sys2Proof.Machine
end

section
/-!
PROOFS. The crow's nest monitors (spec/20_monitors_errors.md R411-R414): control writes, snapshots, samples and alarms.
-/
namespace Sys2Proof.Machine
open Reg

set_option Elab.async false

/-! ## A monitor's unit and its registers -/

section
variable (m : Nat) (u : Mon) (s : State)

@[simp] theorem monU_setMon : monU (setMon m u s) m = u := bankGet_put_self _ _ _ _
@[simp] theorem setMon_out : (setMon m u s).out = s.out := rfl
@[simp] theorem reg_setMon (off : Nat) : (setMon m u s).reg off = s.reg off := rfl
@[simp] theorem g_setMon (f : Fld) : (setMon m u s).g f = s.g f := rfl
@[simp] theorem on_setMon (f : Fld) : (setMon m u s).on f = s.on f := rfl
@[simp] theorem gi_setMon (f : Fld) : (setMon m u s).gi f = s.gi f := rfl

end

theorem monU_congr {s t : State} (m : Nat) (h : t.mon = s.mon) : monU t m = monU s m := by
  unfold monU
  rw [h]

theorem accOf_MON_CFG (m : Fin 32) : ∀ f ∈ [MON_CFG_ENABLE m, MON_CFG_CLR_ON_SNAP m, MON_CFG_SUB m, MON_CFG_KIND m,
    MON_CFG_SEL m], accOf f = some .rw := by
  revert m
  decide +kernel

theorem g_monCfg {s : State} {m : Fin 32} {v : Word} {f : Fld} (hf : f ∈ [MON_CFG_ENABLE m, MON_CFG_CLR_ON_SNAP m,
    MON_CFG_SUB m, MON_CFG_KIND m, MON_CFG_SEL m]) : (s.plainWrite (MON_CFG m) v).g f = fieldOf f v := by
  refine g_plainWrite_of_rw (accOf_MON_CFG m f hf) ?_
  simp only [List.mem_cons, List.not_mem_nil, or_false] at hf
  rcases hf with rfl | rfl | rfl | rfl | rfl <;> rfl

/-! ## A control write -/

/-- Live statistics with the count of divided events started afresh. -/
def Mon.restarted (u : Mon) : Mon := { u with seen := 0 }

/-- A control write up to its rule of the probe: taken, or refused with CFG_ERR (R411, R414). -/
def monTaken (m : Nat) (v : Word) (s : State) : State :=
  let s1 := s.plainWrite (MON_CFG m) v
  let same := s1.g (MON_CFG_KIND m) == s.g (MON_CFG_KIND m) && s1.g (MON_CFG_SEL m) == s.g (MON_CFG_SEL m)
    && s1.g (MON_CFG_SUB m) == s.g (MON_CFG_SUB m)
  if s.on (MON_CFG_ENABLE m) then
    if same then s1
    else (((s1.p (MON_CFG_KIND m) (s.g (MON_CFG_KIND m))).p (MON_CFG_SEL m) (s.g (MON_CFG_SEL m))).p
      (MON_CFG_SUB m) (s.g (MON_CFG_SUB m))).pb (MON_STAT_CFG_ERR m) true
  else if s1.on (MON_CFG_ENABLE m) && !probeOk s (s1.g (MON_CFG_KIND m)) (s1.g (MON_CFG_SEL m)) then
    (s1.pb (MON_CFG_ENABLE m) false).pb (MON_STAT_CFG_ERR m) true
  else if s1.on (MON_CFG_ENABLE m) then setMon m { monU s1 m with seen := 0 } s1
  else s1

/-- A control write before its SNAP and CLEAR. -/
def monProbe (m : Nat) (v : Word) (s : State) : State :=
  (monTaken m v s).pb (MON_STAT_RUNNING m) ((monTaken m v s).on (MON_CFG_ENABLE m))

theorem monCfgWrite_eq (m : Nat) (v : Word) (s : State) : monCfgWrite m v s =
    if fieldOf (MON_CFG_CLEAR m) v = 1 then
      monClear m (if fieldOf (MON_CFG_SNAP m) v = 1 then monSnap m (monProbe m v s) else monProbe m v s)
    else if fieldOf (MON_CFG_SNAP m) v = 1 then monSnap m (monProbe m v s) else monProbe m v s := rfl

section
variable {m : Nat} {v : Word} {s : State} 

theorem monCfgWrite_plain (hs : fieldOf (MON_CFG_SNAP m) v = 0) (hc : fieldOf (MON_CFG_CLEAR m) v = 0) :
    monCfgWrite m v s = monProbe m v s := by
  rw [monCfgWrite_eq, if_neg (by omega), if_neg (by omega)]

theorem monCfgWrite_snap (hs : fieldOf (MON_CFG_SNAP m) v = 1) (hc : fieldOf (MON_CFG_CLEAR m) v = 0) :
    monCfgWrite m v s = monSnap m (monProbe m v s) := by
  rw [monCfgWrite_eq, if_neg (by omega), if_pos hs]

theorem monCfgWrite_clear (hs : fieldOf (MON_CFG_SNAP m) v = 0) (hc : fieldOf (MON_CFG_CLEAR m) v = 1) :
    monCfgWrite m v s = monClear m (monProbe m v s) := by
  rw [monCfgWrite_eq, if_pos hc, if_neg (by omega)]

end

section
variable (m : Fin 32) (v : Word) (s : State)

/-- What a control write may come to before SNAP and CLEAR, said once. -/
theorem monTaken_cases {P : State → Prop} {t : State} (ht : s.plainWrite (MON_CFG m) v = t) (hplain : P t)
    (hkept : P ((((t.p (MON_CFG_KIND m) (s.g (MON_CFG_KIND m))).p (MON_CFG_SEL m) (s.g (MON_CFG_SEL m))).p
      (MON_CFG_SUB m) (s.g (MON_CFG_SUB m))).pb (MON_STAT_CFG_ERR m) true))
    (hrefused : P ((t.pb (MON_CFG_ENABLE m) false).pb (MON_STAT_CFG_ERR m) true))
    (hstart : P (setMon m (monU s m).restarted t)) : P (monTaken m v s) := by
  have hs1 : monU t m = monU s m := monU_congr m (ht ▸ plainWrite_mon _ _ _)
  unfold monTaken
  rw [ht]
  dsimp only
  rw [hs1]
  repeat' split
  · exact hplain
  · exact hkept
  · exact hrefused
  · exact hstart
  · exact hplain

theorem monProbe_out : (monProbe m v s).out = s.out := by
  have hout := plainWrite_out s (MON_CFG m) v
  generalize ht : s.plainWrite (MON_CFG m) v = t at hout
  rw [monProbe, State.pb_out]
  refine monTaken_cases m v s (P := fun t => t.out = s.out) ht hout ?_ ?_ ?_ <;>
    simp -implicitDefEqProofs only [State.pb_out, State.p_out, setMon_out, hout]

theorem monProbe_regs : OnlyRegs [MON_CFG m, MON_STAT m] s (monProbe m v s) := by
  have h1 : OnlyRegs [MON_CFG m, MON_STAT m] s (s.plainWrite (MON_CFG m) v) :=
    (onlyRegs_refl _ s).plainWrite _ _ (by simp)
  have hcfg : MON_CFG m ∈ [MON_CFG m, MON_STAT m] := by simp
  have hstat : MON_STAT m ∈ [MON_CFG m, MON_STAT m] := by simp
  generalize ht : s.plainWrite (MON_CFG m) v = t at h1
  unfold monProbe
  exact .pb (monTaken_cases m v s (P := OnlyRegs _ s) ht h1 ((((h1.p _ _ hcfg).p _ _ hcfg).p _ _ hcfg).pb _ _ hstat)
    ((h1.pb _ _ hcfg).pb _ _ hstat) (h1.of_reg fun _ => reg_setMon _ _ _ _)) _ _ hstat

/-- The live statistics stay; only the count of events by which SUB divides may start afresh. -/
theorem monProbe_mon : (monU (monProbe m v s) m).restarted = (monU s m).restarted := by
  have hmon := plainWrite_mon s (MON_CFG m) v
  generalize ht : s.plainWrite (MON_CFG m) v = t at hmon
  have hsame : ∀ u : State, u.mon = s.mon → (monU u m).restarted = (monU s m).restarted :=
    fun u h => by rw [monU_congr m h]
  rw [monProbe, monU_congr m (State.pb_mon _ _ _)]
  refine monTaken_cases m v s (P := fun u => (monU u m).restarted = (monU s m).restarted) ht
    (hsame _ hmon) (hsame _ ?_) (hsame _ ?_) ?_
  · simp -implicitDefEqProofs only [State.pb_mon, State.p_mon, hmon]
  · simp -implicitDefEqProofs only [State.pb_mon, hmon]
  · rw [monU_setMon]
    rfl

theorem monProbe_clrOnSnap : (monProbe m v s).g (MON_CFG_CLR_ON_SNAP m) = fieldOf (MON_CFG_CLR_ON_SNAP m) v := by
  have h1 : (s.plainWrite (MON_CFG m) v).g (MON_CFG_CLR_ON_SNAP m) = fieldOf (MON_CFG_CLR_ON_SNAP m) v :=
    g_monCfg (by simp)
  generalize ht : s.plainWrite (MON_CFG m) v = t at h1
  have hstat : Clear (MON_CFG_CLR_ON_SNAP m) (MON_STAT_RUNNING m) := clear_inst rfl
  rw [monProbe, g_pb_clear _ _ hstat]
  refine monTaken_cases m v s (P := fun t => t.g (MON_CFG_CLR_ON_SNAP m) = fieldOf (MON_CFG_CLR_ON_SNAP m) v) ht h1 ?_ ?_ ?_
  all_goals simp (disch := refine id ?_; with_unfolding_all exact clear_inst rfl) only
    [g_pb_clear, g_p_clear, g_setMon, h1]

/-- A stopped monitor that is given a probe point of the part starts; one that is not stays stopped. -/
theorem monTaken_enable (hoff : s.on (MON_CFG_ENABLE m) = false) (hen : fieldOf (MON_CFG_ENABLE m) v = 1) :
    monTaken m v s =
      if probeOk s (fieldOf (MON_CFG_KIND m) v) (fieldOf (MON_CFG_SEL m) v) then
        setMon m (monU s m).restarted (s.plainWrite (MON_CFG m) v)
      else ((s.plainWrite (MON_CFG m) v).pb (MON_CFG_ENABLE m) false).pb (MON_STAT_CFG_ERR m) true := by
  have hs1 : monU (s.plainWrite (MON_CFG m) v) m = monU s m := monU_congr m (plainWrite_mon _ _ _)
  have henable : (s.plainWrite (MON_CFG m) v).on (MON_CFG_ENABLE m) = true := by
    unfold State.on
    rw [g_monCfg (by simp), hen]
    rfl
  have hkind : (s.plainWrite (MON_CFG m) v).g (MON_CFG_KIND m) = fieldOf (MON_CFG_KIND m) v := g_monCfg (by simp)
  have hsel : (s.plainWrite (MON_CFG m) v).g (MON_CFG_SEL m) = fieldOf (MON_CFG_SEL m) v := g_monCfg (by simp)
  unfold monTaken
  dsimp only
  rw [if_neg (ne_true_of_eq_false hoff), henable, hkind, hsel, hs1]
  cases probeOk s (fieldOf (MON_CFG_KIND m) v) (fieldOf (MON_CFG_SEL m) v) <;> simp [Mon.restarted]

theorem does_monEnable (hr : Reaches s (MON_CFG m)) (hoff : s.on (MON_CFG_ENABLE m) = false)
    (hen : fieldOf (MON_CFG_ENABLE m) v = 1) (hs : fieldOf (MON_CFG_SNAP m) v = 0) (hc : fieldOf (MON_CFG_CLEAR m) v = 0)
    (hok : probeOk s (fieldOf (MON_CFG_KIND m) v) (fieldOf (MON_CFG_SEL m) v) = true) :
    Does (.monEnable m v) s fun t => t.on (MON_CFG_ENABLE m) = true ∧ t.on (MON_STAT_RUNNING m) = true ∧
      (monU t m).restarted = (monU s m).restarted ∧ t.out = s.out ∧ OnlyRegs [MON_CFG m, MON_STAT m] s t := by
  have hstat : Clear (MON_CFG_ENABLE m) (MON_STAT_RUNNING m) := clear_inst rfl
  have hon : (monTaken m v s).on (MON_CFG_ENABLE m) = true := by
    rw [monTaken_enable m v s hoff hen, if_pos hok, on_setMon]
    unfold State.on
    rw [g_monCfg (by simp), hen]
    rfl
  refine ⟨monProbe m v s, ?_, ?_, ?_, monProbe_mon m v s, monProbe_out m v s, monProbe_regs m v s⟩
  · exact congrArg Host.Outcome.next ((hostAt_reaches hr).trans (monCfgWrite_plain hs hc))
  · rw [monProbe, on_pb_clear _ _ hstat, hon]
  · rw [monProbe, on_pb_self _ _ _ (by decide : 0 + 1 ≤ 32) rfl, hon]

theorem does_monEnable_refused (hr : Reaches s (MON_CFG m)) (hoff : s.on (MON_CFG_ENABLE m) = false)
    (hen : fieldOf (MON_CFG_ENABLE m) v = 1) (hs : fieldOf (MON_CFG_SNAP m) v = 0) (hc : fieldOf (MON_CFG_CLEAR m) v = 0)
    (hok : probeOk s (fieldOf (MON_CFG_KIND m) v) (fieldOf (MON_CFG_SEL m) v) = false) :
    Does (.monEnable m v) s fun t => t.on (MON_CFG_ENABLE m) = false ∧ t.on (MON_STAT_CFG_ERR m) = true ∧
      t.mon = s.mon ∧ t.out = s.out ∧ OnlyRegs [MON_CFG m, MON_STAT m] s t := by
  have htaken := monTaken_enable m v s hoff hen
  rw [if_neg (ne_true_of_eq_false hok)] at htaken
  have hmon := plainWrite_mon s (MON_CFG m) v
  generalize s.plainWrite (MON_CFG m) v = t at htaken hmon
  refine ⟨monProbe m v s, ?_, ?_, ?_, ?_, monProbe_out m v s, monProbe_regs m v s⟩
  · exact congrArg Host.Outcome.next ((hostAt_reaches hr).trans (monCfgWrite_plain hs hc))
  · simp (disch := refine id ?_; with_unfolding_all first | exact clear_inst rfl | exact rfl) only
      [monProbe, htaken, on_pb_clear, on_pb_same]
  · simp (disch := refine id ?_; with_unfolding_all first | exact clear_inst rfl | exact rfl) only
      [monProbe, htaken, on_pb_clear, on_pb_same]
  · rw [monProbe, State.pb_mon, htaken, State.pb_mon, State.pb_mon, hmon]

end

/-! ## Snapshots -/

/-- Every bin of the snapshot written, each with its own value. -/
def putBins (m : Nat) (x : Nat → Nat) (s : State) : State := overN 64 (fun k s => s.p (MON_BIN_COUNT m k) (x k)) s

section
variable (m : Nat) (x : Nat → Nat) (s : State)

theorem overBins_keeps {P : State → Prop} (h : ∀ k t, P t → P (t.p (MON_BIN_COUNT m k) (x k))) (hs : P s) :
    P (putBins m x s) := overN_keeps 64 _ (fun k t _ ht => h k t ht) s hs

theorem putBins_out : (putBins m x s).out = s.out :=
  overBins_keeps m x s (P := fun t => t.out = s.out) (fun _ t h => (State.p_out t _ _).trans h) rfl

theorem putBins_mon : (putBins m x s).mon = s.mon :=
  overBins_keeps m x s (P := fun t => t.mon = s.mon) (fun _ t h => (State.p_mon t _ _).trans h) rfl

theorem putBins_regs : OnlyRegs ((List.range 64).map (MON_BIN m)) s (putBins m x s) :=
  overN_keeps 64 _ (fun k _ hk h => h.p (MON_BIN_COUNT m k) _ (List.mem_map.mpr ⟨k, List.mem_range.mpr hk, rfl⟩)) s
    (onlyRegs_refl _ s)

theorem g_putBins_same {k : Nat} (hk : k < 64) : (putBins m x s).g (MON_BIN_COUNT m k) = x k % 2 ^ 32 := by
  have key : ∀ n, k < n → (overN n (fun k s => s.p (MON_BIN_COUNT m k) (x k)) s).g (MON_BIN_COUNT m k) = x k % 2 ^ 32 := by
    intro n
    induction n with
    | zero => intro h; exact absurd h (Nat.not_lt_zero k)
    | succ n ih =>
      intro h
      rw [overN_succ]
      by_cases hn : n = k
      · rw [hn]
        exact g_p_self _ (MON_BIN_COUNT m k) _ (by decide : 0 + 32 ≤ 32)
      · have hoff : (MON_BIN_COUNT m k).off ≠ (MON_BIN_COUNT m n).off := by
          simp only [MON_BIN_COUNT, MON_BIN]
          omega
        rw [g_p_off _ _ _ _ hoff]
        exact ih (by omega)
  exact key 64 hk

theorem g_putBins_other {f : Fld} (h : f.off ∉ (List.range 64).map (MON_BIN m)) : (putBins m x s).g f = s.g f := by
  unfold State.g
  rw [putBins_regs m x s f.off h]

end

/-! ## Snapshots and the clearing of statistics -/

theorem MON_MIN_not_bin (m : Fin 32) : ∀ off ∈ [MON_CFG m, MON_STAT m, MON_MIN m, MON_MAX m, MON_COUNT m],
    off ∉ (List.range 64).map (MON_BIN m) := by
  intro off hoff hbin
  obtain ⟨k, hk, rfl⟩ := List.mem_map.mp hbin
  simp only [List.mem_cons, List.not_mem_nil, or_false, MON_BIN, MON_CFG, MON_STAT, MON_MIN, MON_MAX, MON_COUNT] at hoff
  omega

/-- The snapshot registers of monitor `m` at given statistics. -/
def putSnap (m : Nat) (lo hi : Int) (count : Nat) (bins : Nat → Nat) (s : State) : State :=
  putBins m bins (((s.pz (MON_MIN_VALUE m) lo).pz (MON_MAX_VALUE m) hi).p (MON_COUNT_VALUE m) count)

theorem monSnap_eq (m : Nat) (s : State) : monSnap m s =
    if (putSnap m (monU s m).lo (monU s m).hi (monU s m).count (bankGet 0 (monU s m).bins) s).on (MON_CFG_CLR_ON_SNAP m)
    then setMon m { seen := (monU s m).seen }
      (putSnap m (monU s m).lo (monU s m).hi (monU s m).count (bankGet 0 (monU s m).bins) s)
    else putSnap m (monU s m).lo (monU s m).hi (monU s m).count (bankGet 0 (monU s m).bins) s := rfl

theorem monClear_eq (m : Nat) (s : State) : monClear m s =
    putSnap m 2147483647 (-2147483648) 0 (fun _ => 0) (setMon m { seen := (monU s m).seen } s) := rfl

section
variable (m : Fin 32) (lo hi : Int) (count : Nat) (bins : Nat → Nat) (s : State)

theorem putSnap_out : (putSnap m lo hi count bins s).out = s.out := by
  rw [putSnap, putBins_out, State.p_out, State.pz_out, State.pz_out]

theorem putSnap_mon : (putSnap m lo hi count bins s).mon = s.mon := by
  rw [putSnap, putBins_mon, State.p_mon, State.pz_mon, State.pz_mon]

theorem putSnap_regs {t : State} (h : OnlyRegs [MON_CFG m, MON_STAT m] s t) : OnlyRegs ([MON_CFG m, MON_STAT m,
    MON_MIN m, MON_MAX m, MON_COUNT m] ++ (List.range 64).map (MON_BIN m)) s (putSnap m lo hi count bins t) := by
  have hmore : ∀ {l r : List Nat} {a b : State}, OnlyRegs l a b → (∀ x ∈ l, x ∈ r) → OnlyRegs r a b :=
    fun hab hl off hoff => hab off fun hin => hoff (hl off hin)
  have h5 := hmore h (r := [MON_CFG m, MON_STAT m, MON_MIN m, MON_MAX m, MON_COUNT m] ++ (List.range 64).map (MON_BIN m))
    (by simp)
  unfold putSnap
  exact (((h5.pz (MON_MIN_VALUE m) lo (by simp [MON_MIN_VALUE])).pz (MON_MAX_VALUE m) hi (by simp [MON_MAX_VALUE])).p
    (MON_COUNT_VALUE m) count (by simp [MON_COUNT_VALUE])).trans (hmore (putBins_regs m bins _) fun _ => List.mem_append_right _)

theorem putSnap_count : (putSnap m lo hi count bins s).g (MON_COUNT_VALUE m) = count % 2 ^ 32 := by
  rw [putSnap, g_putBins_other _ _ _ (MON_MIN_not_bin m _ (by simp [MON_COUNT_VALUE]))]
  exact g_p_self _ _ _ (by decide : 0 + 32 ≤ 32)

theorem putSnap_min : (putSnap m lo hi count bins s).g (MON_MIN_VALUE m) = unsext 32 lo % 2 ^ 32 := by
  rw [putSnap, g_putBins_other _ _ _ (MON_MIN_not_bin m _ (by simp [MON_MIN_VALUE]))]
  simp (disch := refine id ?_; with_unfolding_all exact clear_inst rfl) only [g_p_clear, g_pz_clear]
  exact g_p_self _ _ _ (by decide : 0 + 32 ≤ 32)

theorem putSnap_max : (putSnap m lo hi count bins s).g (MON_MAX_VALUE m) = unsext 32 hi % 2 ^ 32 := by
  rw [putSnap, g_putBins_other _ _ _ (MON_MIN_not_bin m _ (by simp [MON_MAX_VALUE]))]
  simp (disch := refine id ?_; with_unfolding_all exact clear_inst rfl) only [g_p_clear]
  exact g_p_self _ _ _ (by decide : 0 + 32 ≤ 32)

theorem putSnap_bin (k : Fin 64) : (putSnap m lo hi count bins s).g (MON_BIN_COUNT m k) = bins k % 2 ^ 32 :=
  g_putBins_same m bins _ k.isLt

theorem putSnap_clrOnSnap : (putSnap m lo hi count bins s).g (MON_CFG_CLR_ON_SNAP m) = s.g (MON_CFG_CLR_ON_SNAP m) := by
  rw [putSnap, g_putBins_other _ _ _ (MON_MIN_not_bin m _ (by simp [MON_CFG_CLR_ON_SNAP]))]
  simp (disch := refine id ?_; with_unfolding_all exact clear_inst rfl) only [g_p_clear, g_pz_clear]

end

section
variable {m : Fin 32} {v : Word} {s : State}

/-- SNAP with CLEAR 0: the snapshot registers take the live statistics, which CLR_ON_SNAP then clears. -/
theorem does_monSnap (hr : Reaches s (MON_CFG m)) (hs : fieldOf (MON_CFG_SNAP m) v = 1)
    (hc : fieldOf (MON_CFG_CLEAR m) v = 0) :
    Does (.monSnap m v) s fun t => t.g (MON_COUNT_VALUE m) = (monU s m).count % 2 ^ 32 ∧
      t.g (MON_MIN_VALUE m) = unsext 32 (monU s m).lo % 2 ^ 32 ∧ t.g (MON_MAX_VALUE m) = unsext 32 (monU s m).hi % 2 ^ 32 ∧
      (∀ k : Fin 64, t.g (MON_BIN_COUNT m k) = bankGet 0 (monU s m).bins k % 2 ^ 32) ∧ t.out = s.out ∧
      OnlyRegs ([MON_CFG m, MON_STAT m, MON_MIN m, MON_MAX m, MON_COUNT m] ++ (List.range 64).map (MON_BIN m)) s t ∧
      (monU t m).restarted = if fieldOf (MON_CFG_CLR_ON_SNAP m) v = 0 then (monU s m).restarted else {} := by
  have hmon := monProbe_mon m v s
  have hout := monProbe_out m v s
  have hregs := monProbe_regs m v s
  have hclr := monProbe_clrOnSnap m v s
  have hexec : exec (.monSnap m v) s = .next (monSnap m (monProbe m v s)) :=
    congrArg Host.Outcome.next ((hostAt_reaches hr).trans (monCfgWrite_snap hs hc))
  generalize monProbe m v s = p at *
  obtain ⟨hlo, hhi, hcount, hbins⟩ : (monU p m).lo = (monU s m).lo ∧ (monU p m).hi = (monU s m).hi ∧
      (monU p m).count = (monU s m).count ∧ (monU p m).bins = (monU s m).bins := by
    simpa [Mon.restarted] using hmon
  rw [monSnap_eq, hlo, hhi, hcount, hbins] at hexec
  generalize hq : putSnap m (monU s m).lo (monU s m).hi (monU s m).count (bankGet 0 (monU s m).bins) p = q at hexec
  have hqon : q.on (MON_CFG_CLR_ON_SNAP m) = (fieldOf (MON_CFG_CLR_ON_SNAP m) v != 0) := by
    unfold State.on
    rw [← hq, putSnap_clrOnSnap, hclr]
  have hfacts : q.g (MON_COUNT_VALUE m) = (monU s m).count % 2 ^ 32 ∧
      q.g (MON_MIN_VALUE m) = unsext 32 (monU s m).lo % 2 ^ 32 ∧ q.g (MON_MAX_VALUE m) = unsext 32 (monU s m).hi % 2 ^ 32 ∧
      (∀ k : Fin 64, q.g (MON_BIN_COUNT m k) = bankGet 0 (monU s m).bins k % 2 ^ 32) ∧ q.out = s.out ∧
      OnlyRegs ([MON_CFG m, MON_STAT m, MON_MIN m, MON_MAX m, MON_COUNT m] ++ (List.range 64).map (MON_BIN m)) s q := by
    rw [← hq]
    exact ⟨putSnap_count _ _ _ _ _ _, putSnap_min _ _ _ _ _ _, putSnap_max _ _ _ _ _ _, putSnap_bin _ _ _ _ _ _,
      (putSnap_out _ _ _ _ _ _).trans hout, putSnap_regs _ _ _ _ _ _ hregs⟩
  obtain ⟨h1, h2, h3, h4, h5, h6⟩ := hfacts
  by_cases hz : fieldOf (MON_CFG_CLR_ON_SNAP m) v = 0
  · rw [hqon, if_neg (by simp [hz])] at hexec
    have hqmon : q.mon = p.mon := hq ▸ putSnap_mon m _ _ _ _ p
    refine ⟨q, hexec, h1, h2, h3, h4, h5, h6, ?_⟩
    rw [if_pos hz, monU_congr m hqmon, hmon]
  · rw [hqon, if_pos (by simp [hz])] at hexec
    refine ⟨_, hexec, (g_setMon _ _ _ _).trans h1, (g_setMon _ _ _ _).trans h2, (g_setMon _ _ _ _).trans h3,
      fun k => (g_setMon _ _ _ _).trans (h4 k), (setMon_out _ _ _).trans h5, h6.of_reg fun _ => reg_setMon _ _ _ _, ?_⟩
    rw [if_neg hz, monU_setMon]
    rfl

theorem does_monClear (hr : Reaches s (MON_CFG m)) (hs : fieldOf (MON_CFG_SNAP m) v = 0)
    (hc : fieldOf (MON_CFG_CLEAR m) v = 1) :
    Does (.monClear m v) s fun t => (monU t m).restarted = {} ∧ t.g (MON_COUNT_VALUE m) = 0 ∧
      t.g (MON_MIN_VALUE m) = 0x7FFFFFFF ∧ t.g (MON_MAX_VALUE m) = 0x80000000 ∧
      (∀ k : Fin 64, t.g (MON_BIN_COUNT m k) = 0) ∧ t.out = s.out ∧
      OnlyRegs ([MON_CFG m, MON_STAT m, MON_MIN m, MON_MAX m, MON_COUNT m] ++ (List.range 64).map (MON_BIN m)) s t := by
  have hout := monProbe_out m v s
  have hregs := monProbe_regs m v s
  have hexec : exec (.monClear m v) s = .next (monClear m (monProbe m v s)) :=
    congrArg Host.Outcome.next ((hostAt_reaches hr).trans (monCfgWrite_clear hs hc))
  generalize monProbe m v s = p at *
  rw [monClear_eq] at hexec
  refine ⟨_, hexec, ?_, putSnap_count _ _ _ _ _ _, putSnap_min _ _ _ _ _ _, putSnap_max _ _ _ _ _ _,
    putSnap_bin _ _ _ _ _ _, ?_, putSnap_regs _ _ _ _ _ _ (hregs.of_reg fun _ => reg_setMon _ _ _ _)⟩
  · rw [monU_congr m (putSnap_mon m _ _ _ _ _), monU_setMon]
    rfl
  · rw [putSnap_out, setMon_out, hout]

/-! ## Samples -/

/-- The live statistics after a sample (R412). -/
def Mon.sampled (u : Mon) (x : Int) (k : Nat) : Mon :=
  { seen := u.seen, lo := min u.lo x, hi := max u.hi x, count := min 0xFFFFFFFF (u.count + 1),
    bins := bankPut 0 k (min 0xFFFFFFFF (bankGet 0 u.bins k + 1)) u.bins }

/-- The state after the statistics of a sample and before its alarm. -/
def monCounted (m : Nat) (x : Int) (s : State) : State :=
  if (monU s m).count + 1 = 0xFFFFFFFF ∨ bankGet 0 (monU s m).bins (binOf s m x) + 1 = 0xFFFFFFFF then
    (setMon m ((monU s m).sampled x (binOf s m x)) s).pb (MON_STAT_SAT m) true
  else setMon m ((monU s m).sampled x (binOf s m x)) s

theorem monTake_eq (m : Nat) (x : Int) (s : State) : monTake m x s =
    if x < s.gi (MON_ALO_LIMIT m) ∨ s.gi (MON_AHI_LIMIT m) < x then monAlarm m (monCounted m x s)
    else monCounted m x s := rfl

theorem monCounted_mon (m : Nat) (x : Int) (s : State) : monU (monCounted m x s) m = (monU s m).sampled x (binOf s m x) := by
  unfold monCounted
  split
  · rw [monU_congr m (State.pb_mon _ _ _), monU_setMon]
  · exact monU_setMon _ _ _

theorem monCounted_out (m : Nat) (x : Int) (s : State) : (monCounted m x s).out = s.out := by
  unfold monCounted
  split
  · rw [State.pb_out, setMon_out]
  · exact setMon_out _ _ _

theorem monCounted_regs (m : Nat) (x : Int) (s : State) : OnlyRegs [MON_STAT m] s (monCounted m x s) := by
  have h : OnlyRegs [MON_STAT m] s (setMon m ((monU s m).sampled x (binOf s m x)) s) :=
    (onlyRegs_refl _ s).of_reg fun _ => reg_setMon _ _ _ _
  unfold monCounted
  split
  · exact h.pb (MON_STAT_SAT m) _ (by simp [MON_STAT_SAT])
  · exact h

theorem monCounted_alarm (m : Nat) (x : Int) (s : State) :
    (monCounted m x s).g (MON_STAT_ALARM m) = s.g (MON_STAT_ALARM m) := by
  unfold monCounted
  split
  · have hclear : Clear (MON_STAT_ALARM m) (MON_STAT_SAT m) := clear_inst rfl
    rw [g_pb_clear _ _ hclear, g_setMon]
  · exact g_setMon _ _ _ _

/-- The state whose probe event counts toward SUB. -/
def monHeard (m : Nat) (s : State) : State :=
  setMon m { monU s m with seen := ((monU s m).seen + 1) % 2 ^ s.g (MON_CFG_SUB m) } s

theorem exec_monSample {x : BitVec 32} (hd : s.dead = false) (ht : monTakes s m) :
    exec (.monSample m x) s = .next (monTake m (probed s m x) (monHeard m s)) := by
  obtain ⟨hen, hidle, hsub⟩ := ht
  show Host.Outcome.next (live (monSample m x.toInt) s) = _
  have hgate : ¬ (!s.on (MON_CFG_ENABLE m) || probeIdle s (s.g (MON_CFG_KIND m)) (s.g (MON_CFG_SEL m))) = true := by
    simp [hen, hidle]
  have hfirst : ¬ (eventKind (s.g (MON_CFG_KIND m)) && (monU s m).seen != 0) = true := by
    rcases hsub with h | h <;> simp [h]
  rw [live_of hd, monSample]
  dsimp only
  rw [if_neg hgate, if_neg hfirst]
  rfl

theorem binOf_monHeard (x : Int) : binOf (monHeard m s) m x = binOf s m x := by
  unfold binOf monHeard
  rw [gi_setMon, g_setMon]

theorem monHeard_regs : OnlyRegs [MON_STAT m] s (monHeard m s) :=
  (onlyRegs_refl _ s).of_reg fun _ => reg_setMon _ _ _ _

theorem monAlarm_mon (m : Nat) (s : State) : (monAlarm m s).mon = s.mon :=
  (kept_monAlarm (K := (· = .mon)) (by decide) (by decide) m (.refl s)).same .mon rfl

theorem bitsOf_lor_pow (a : Nat) {k w : Nat} (h : k < w) : bitsOf (Nat.lor a (2 ^ k) % 2 ^ w) k 1 = 1 := by
  have hbit : (Nat.lor a (2 ^ k) % 2 ^ w).testBit k = true := by
    rw [Nat.testBit_mod_two_pow]
    simp [h, Nat.testBit_or, Nat.testBit_two_pow_self]
  rw [bitsOf, ← Nat.shiftRight_eq_div_pow]
  simpa [Nat.testBit_eq_decide_div_mod_eq, Nat.shiftRight_eq_div_pow] using hbit

/-- An alarm sets both bits and shows its event, whatever becomes of its vector. -/
theorem monAlarm_sets (m : Fin 32) (s : State) : (monAlarm m s).on (MON_STAT_ALARM m) = true ∧
    bitsOf ((monAlarm m s).g MON_ALARM_ALARM) m 1 = 1 ∧ s.out ++ [.event (.monAlarm m)] <+: (monAlarm m s).out := by
  have halarm : Clear (MON_STAT_ALARM m) MON_ALARM_ALARM := clear_above rfl
  have hset : ((s.pb (MON_STAT_ALARM m) true).p MON_ALARM_ALARM (Nat.lor (s.g MON_ALARM_ALARM) (2 ^ m.val))).on
      (MON_STAT_ALARM m) = true := by
    rw [on_p_clear _ _ halarm]
    exact on_pb_self _ _ _ (by decide : 1 + 1 ≤ 32) rfl
  have hbit : bitsOf (((s.pb (MON_STAT_ALARM m) true).p MON_ALARM_ALARM (Nat.lor (s.g MON_ALARM_ALARM) (2 ^ m.val))).g
      MON_ALARM_ALARM) m 1 = 1 := by
    rw [g_p_self _ _ _ (by decide)]
    exact bitsOf_lor_pow _ m.isLt
  have hlow : (MON_STAT_ALARM m).off < 0x309000 := by
    simp only [MON_STAT_ALARM, MON_STAT]
    omega
  unfold monAlarm
  dsimp only
  split
  · refine ⟨?_, ?_, prefix_msix _ rfl⟩
    · rw [on_msix _ _ hlow]
      exact hset
    · rw [g_msix _ _ (by decide)]
      exact hbit
  · exact ⟨hset, hbit, List.prefix_refl _⟩

/-- The live statistics after an event that the monitor takes. -/
theorem does_monSample {x : BitVec 32} (hd : s.dead = false) (ht : monTakes s m) :
    Does (.monSample m x) s fun t => (monU t m).count = min 0xFFFFFFFF ((monU s m).count + 1) ∧
      (monU t m).lo = min (monU s m).lo (probed s m x) ∧ (monU t m).hi = max (monU s m).hi (probed s m x) ∧
      ∀ k : Fin 64, bankGet 0 (monU t m).bins k = if k.val = binOf s m (probed s m x)
        then min 0xFFFFFFFF (bankGet 0 (monU s m).bins k + 1) else bankGet 0 (monU s m).bins k := by
  refine ⟨_, exec_monSample hd ht, ?_⟩
  generalize hx : probed s m x = y
  have hmon : monU (monTake m y (monHeard m s)) m = (monU (monHeard m s) m).sampled y (binOf s m y) := by
    rw [monTake_eq, ← binOf_monHeard, ← monCounted_mon]
    split
    · exact monU_congr m (monAlarm_mon _ _)
    · rfl
  rw [hmon, monHeard, monU_setMon]
  refine ⟨rfl, rfl, rfl, fun k => ?_⟩
  split
  · next h => 
    rw [h]
    exact bankGet_put_self _ _ _ _
  · next h => exact bankGet_put_other _ _ _ _ _ _ h

theorem does_monSample_within {x : BitVec 32} (hd : s.dead = false) (ht : monTakes s m)
    (hlo : s.gi (MON_ALO_LIMIT m) ≤ probed s m x) (hhi : probed s m x ≤ s.gi (MON_AHI_LIMIT m)) :
    Does (.monSample m x) s fun t => t.out = s.out ∧ t.g (MON_STAT_ALARM m) = s.g (MON_STAT_ALARM m) ∧
      OnlyRegs [MON_STAT m] s t := by
  have hin : ¬ (probed s m x < (monHeard m s).gi (MON_ALO_LIMIT m) ∨ (monHeard m s).gi (MON_AHI_LIMIT m) < probed s m x) := by
    rw [monHeard, gi_setMon, gi_setMon]
    omega
  refine ⟨_, exec_monSample hd ht, ?_⟩
  rw [monTake_eq, if_neg hin]
  exact ⟨monCounted_out _ _ _, (monCounted_alarm _ _ _).trans (g_setMon _ _ _ _),
    (monHeard_regs).trans (monCounted_regs _ _ _)⟩

theorem does_monSample_beyond {x : BitVec 32} (hd : s.dead = false) (ht : monTakes s m)
    (hout : probed s m x < s.gi (MON_ALO_LIMIT m) ∨ s.gi (MON_AHI_LIMIT m) < probed s m x) :
    Does (.monSample m x) s fun t => t.on (MON_STAT_ALARM m) = true ∧ bitsOf (t.g MON_ALARM_ALARM) m 1 = 1 ∧
      Out.event (.monAlarm m) ∈ shown s t := by
  have hbeyond : probed s m x < (monHeard m s).gi (MON_ALO_LIMIT m) ∨ (monHeard m s).gi (MON_AHI_LIMIT m) < probed s m x := by
    rw [monHeard, gi_setMon, gi_setMon]
    exact hout
  refine ⟨_, exec_monSample hd ht, ?_⟩
  rw [monTake_eq, if_pos hbeyond]
  obtain ⟨hon, hbit, hev⟩ := monAlarm_sets m (monCounted m (probed s m x) (monHeard m s))
  rw [monCounted_out] at hev
  exact ⟨hon, hbit, mem_shown (s := s) hev (by simp)⟩

theorem does_monSample_idle {x : BitVec 32} (hd : s.dead = false) (hidle : s.on (MON_CFG_ENABLE m) = false ∨
    probeIdle s (s.g (MON_CFG_KIND m)) (s.g (MON_CFG_SEL m)) = true) : Does (.monSample m x) s fun t => t = s := by
  have hgate : (!s.on (MON_CFG_ENABLE m) || probeIdle s (s.g (MON_CFG_KIND m)) (s.g (MON_CFG_SEL m))) = true := by
    rcases hidle with h | h <;> simp [h]
  refine ⟨s, congrArg Host.Outcome.next ((live_of hd).trans ?_), rfl⟩
  exact if_pos hgate

end

/-- Settles O9, each form of control write and each answer to a sample by its lemma above. -/
theorem monitorCommands : Obligations.MonitorCommands := by
  intro s m v x
  refine ⟨does_monEnable m v s, does_monEnable_refused m v s, fun hr hs hc hz => ?_, fun hr hs hc hz => ?_,
    fun hr hs hc => does_monClear hr hs hc, does_monSample, does_monSample_within, does_monSample_beyond,
    does_monSample_idle⟩
  · obtain ⟨t, ht, h1, h2, h3, h4, h5, h6, h7⟩ := does_monSnap hr hs hc
    exact ⟨t, ht, h1, h2, h3, h4, h5, h6, h7.trans (if_pos hz)⟩
  · obtain ⟨t, ht, h1, h2, h3, h4, h5, h6, h7⟩ := does_monSnap hr hs hc
    exact ⟨t, ht, h1, h2, h3, h4, h5, h6, h7.trans (if_neg (by omega))⟩

end Sys2Proof.Machine
end

section
/-!
PROOFS. The error log, the interrupt mask and escalation (spec/20_monitors_errors.md R417, R420, spec/21_register_index.md
R428), and the read of the time counter (spec/17_network_time.md R361).
-/
namespace Sys2Proof.Machine
open Reg

set_option Elab.async false

/-! ## Reads that latch -/

/-- The latching of the first `n` words of an error slot after word 0. -/
def slotLatched (i n : Nat) (s : State) : State :=
  (List.range n).foldl (fun s w => s.setLatch (ERR_REC i (w + 1)) (s.reg (ERR_REC i (w + 1)))) s

theorem slotLatched_succ (i n : Nat) (s : State) : slotLatched i (n + 1) s =
    (slotLatched i n s).setLatch (ERR_REC i (n + 1)) ((slotLatched i n s).reg (ERR_REC i (n + 1))) := by
  unfold slotLatched
  rw [List.range_succ, List.foldl_append]
  rfl

theorem slotLatched_kept (i n : Nat) (s : State) : Kept (· ≠ .latch) s (slotLatched i n s) := by
  induction n with
  | zero => exact .refl s
  | succ n ih =>
    rw [slotLatched_succ]
    exact kept_State_setLatch (by decide) _ _ ih

theorem slotLatched_reg (i n : Nat) (s : State) (off : Nat) : (slotLatched i n s).reg off = s.reg off :=
  have hk := slotLatched_kept i n s
  reg_congr hk.part hk.rev (hk.same .regs (by decide)) off

theorem slotLatched_latched (i : Nat) (s : State) {n w : Nat} (hw : w < n) :
    (slotLatched i n s).latched (ERR_REC i (w + 1)) = s.reg (ERR_REC i (w + 1)) := by
  induction n with
  | zero => exact absurd hw (Nat.not_lt_zero w)
  | succ n ih =>
    rw [slotLatched_succ]
    by_cases he : w = n
    · rw [he, latched_setLatch_self, slotLatched_reg]
    · have hne : ERR_REC i (w + 1) ≠ ERR_REC i (n + 1) := by
        unfold ERR_REC
        omega
      rw [latched_setLatch_other _ _ _ _ hne]
      exact ih (by omega)

theorem latched_answer (s : State) (off be : Nat) (v : Word) (k : Nat) : (s.answer off be v).latched k = s.latched k := rfl

theorem answer_out (s : State) (off be : Nat) (v : Word) : (s.answer off be v).out = s.out ++ [.read off (lanes be v)] := rfl

theorem answer_regs (s : State) (off be : Nat) (v : Word) : (s.answer off be v).regs = s.regs := rfl

theorem slotRead_eq (i be : Nat) (s : State) :
    slotRead i be s = (slotLatched i 7 s).answer (ERR_REC i 0) be (s.reg (ERR_REC i 0)) := rfl

theorem does_errSlotRead {s : State} {i : Fin 256} {be : Fin 16} (hr : Reaches s (ERR_REC i 0)) :
    Does (.errSlotRead i be) s fun t => (∀ w : Fin 7, t.latched (ERR_REC i (w + 1)) = s.reg (ERR_REC i (w + 1))) ∧
      t.out = s.out ++ [.read (ERR_REC i 0) (lanes be (s.reg (ERR_REC i 0)))] ∧ t.regs = s.regs := by
  have hk := slotLatched_kept i 7 s
  refine ⟨_, congrArg Host.Outcome.next ((hostAt_reaches hr).trans (slotRead_eq _ _ _)), fun w => ?_, ?_, ?_⟩
  · rw [latched_answer, slotLatched_latched i s w.isLt]
  · rw [answer_out, show _ = _ from hk.same .out (by decide)]
  · rw [answer_regs, show _ = _ from hk.same .regs (by decide)]

theorem does_timeNowRead {s : State} {be : Fin 16} (hr : Reaches s TIME_NOW_NS) :
    Does (.timeNowRead be) s fun t => t.latched TIME_NOW_FRAC = BitVec.ofNat 32 s.time.frac ∧
      t.latched TIME_NOW_S_LO = BitVec.ofNat 32 s.time.sec ∧
      t.latched TIME_NOW_S_HI = BitVec.ofNat 32 (s.time.sec / 2 ^ 32) ∧
      t.out = s.out ++ [.read TIME_NOW_NS (lanes be (BitVec.ofNat 32 s.time.ns))] ∧ t.regs = s.regs := by
  refine ⟨_, congrArg Host.Outcome.next (hostAt_reaches hr), ?_, ?_, ?_, rfl, rfl⟩
  all_goals
    unfold timeNowRead
    dsimp only
    rw [latched_answer]
  · rw [latched_setLatch_other _ _ _ _ (by decide), latched_setLatch_other _ _ _ _ (by decide), latched_setLatch_self]
  · rw [latched_setLatch_other _ _ _ _ (by decide), latched_setLatch_self]
  · rw [latched_setLatch_self]

/-! ## The interrupt mask -/

theorem accOf_CHIP_IRQ_MASK : accOf CHIP_IRQ_MASK_REGION = some .rw := by decide +kernel

section
variable {s : State} {v : Word}

theorem irqMask_region : (s.plainWrite CHIP_IRQ_MASK v).g CHIP_IRQ_MASK_REGION = fieldOf CHIP_IRQ_MASK_REGION v :=
  g_plainWrite_of_rw accOf_CHIP_IRQ_MASK rfl

theorem irqMask_stat : (s.plainWrite CHIP_IRQ_MASK v).g CHIP_IRQ_STAT_REGION = s.g CHIP_IRQ_STAT_REGION :=
  g_plainWrite_of_off (by decide)

theorem irqMask_regs : OnlyRegs [CHIP_IRQ_MASK] s (s.plainWrite CHIP_IRQ_MASK v) :=
  (onlyRegs_refl _ s).plainWrite _ _ List.mem_cons_self

theorem does_irqMask_quiet (hr : Reaches s CHIP_IRQ_MASK)
    (hnone : Nat.land (s.g CHIP_IRQ_STAT_REGION) (fieldOf CHIP_IRQ_MASK_REGION v) = 0) :
    Does (.irqMaskWrite v) s fun t => t.g CHIP_IRQ_MASK_REGION = fieldOf CHIP_IRQ_MASK_REGION v ∧ t.out = s.out ∧
      OnlyRegs [CHIP_IRQ_MASK] s t := by
  have hwrite : irqMaskWrite v s = s.plainWrite CHIP_IRQ_MASK v := by
    unfold irqMaskWrite
    dsimp only
    rw [irqMask_region, irqMask_stat, hnone, Nat.zero_sub, if_neg (by simp)]
  exact ⟨_, congrArg Host.Outcome.next ((hostAt_reaches hr).trans hwrite), irqMask_region, plainWrite_out _ _ _,
    irqMask_regs⟩

theorem does_irqMask_raise (hr : Reaches s CHIP_IRQ_MASK)
    (hold : Nat.land (s.g CHIP_IRQ_STAT_REGION) (s.g CHIP_IRQ_MASK_REGION) = 0)
    (hnew : Nat.land (s.g CHIP_IRQ_STAT_REGION) (fieldOf CHIP_IRQ_MASK_REGION v) ≠ 0)
    (hvec : bitsOf (s.reg (MSIX_TABLE (s.g CHIP_IRQ_CFG_VECTOR) 3)).toNat 0 1 = 0) :
    Does (.irqMaskWrite v) s fun t => t.g CHIP_IRQ_MASK_REGION = fieldOf CHIP_IRQ_MASK_REGION v ∧
      t.out = s.out ++ [.msix (s.g CHIP_IRQ_CFG_VECTOR)] ∧ OnlyRegs [CHIP_IRQ_MASK] s t := by
  have hcfg : (s.plainWrite CHIP_IRQ_MASK v).g CHIP_IRQ_CFG_VECTOR = s.g CHIP_IRQ_CFG_VECTOR :=
    g_plainWrite_of_off (by decide)
  have htable : (s.plainWrite CHIP_IRQ_MASK v).reg (MSIX_TABLE (s.g CHIP_IRQ_CFG_VECTOR) 3) =
      s.reg (MSIX_TABLE (s.g CHIP_IRQ_CFG_VECTOR) 3) :=
    reg_plainWrite_other _ _ _ _ (by unfold MSIX_TABLE CHIP_IRQ_MASK; omega)
  have hwrite : irqMaskWrite v s =
      (s.plainWrite CHIP_IRQ_MASK v).emit (.msix (s.g CHIP_IRQ_CFG_VECTOR)) := by
    unfold irqMaskWrite
    dsimp only
    rw [irqMask_region, irqMask_stat, hold, hcfg]
    have hland : ∀ a, Nat.land a 0 = 0 := Nat.and_zero
    rw [hland, Nat.sub_zero, if_pos hnew, State.msix, htable, hvec, if_neg (by decide)]
  refine ⟨_, congrArg Host.Outcome.next ((hostAt_reaches hr).trans hwrite), ?_, ?_, ?_⟩
  · rw [g_emit, irqMask_region]
  · exact congrArg (· ++ _) (plainWrite_out s CHIP_IRQ_MASK v)
  · exact irqMask_regs.of_reg fun _ => reg_emit _ _ _

end

/-- Settles O10. -/
theorem errorLogAndInterrupts : Obligations.ErrorLogAndInterrupts :=
  fun _ _ _ _ => ⟨does_errSlotRead, does_timeNowRead, does_irqMask_quiet, does_irqMask_raise⟩

/-! ## Escalation -/

/-- Settles O11: the timeouts look up the record that they escalate, or find none. -/
theorem escalationTimeouts : Obligations.EscalationTimeouts := by
  intro s c i r b q hd
  refine ⟨fun h => ⟨_, rfl, ?_⟩, fun h => ⟨_, rfl, ?_⟩, fun h hf => ⟨_, rfl, ?_⟩, fun h => ⟨_, rfl, ?_⟩⟩
  all_goals rw [live_of hd]
  · unfold containTimeout
    dsimp only
    rw [h]
  · unfold containTimeout
    dsimp only
    rw [h]
  · unfold resetTimeout
    rw [if_neg (by rw [h]; decide), hf]
    rfl
  · unfold resetTimeout
    rw [if_pos (by rw [h]; decide)]

end Sys2Proof.Machine
end

section
/-!
PROOFS. Statements about the memory that some state refutes: a read of no bytes (R386, assumption log 91) shows nothing,
and a copy downward whose kept source is longer than its descriptor writes beyond the descriptor's destination.
-/

namespace Sys2Proof.Machine

open Reg

set_option Elab.async false

/-- What a command does it does to the state it answers. -/
theorem Does.of_next {c : Instr} {s t : State} {P : State → Prop} (h : Does c s P) (e : exec c s = .next t) : P t := by
  obtain ⟨u, hu, hp⟩ := h
  injection e.symm.trans hu with htu
  exact htu ▸ hp

/-- A block whose DRAM is trained, with no MiB touched. -/
def trainedUntouched : State := State.reset.p DRAM_TSTAT_STATE 3

theorem out_emptyRead : (live (dramRead 0 0 0 false) trainedUntouched).out = [] := by decide +kernel

/-- Refutes O19: a DRAM_READ of no bytes only says what symbols have gone wrong (`unread`), so it shows no data, not even an
empty list of zeros. -/
theorem not_dramReadAfterWrite : ¬ Obligations.DramReadAfterWrite := by
  unfold Obligations.DramReadAfterWrite
  intro h
  obtain ⟨_, _, _, _, _, hzero⟩ := h trainedUntouched 0 0 [] 0 false (by decide +kernel)
  obtain ⟨hout, _⟩ := (hzero (by decide +kernel) (by decide +kernel)).of_next rfl
  exact absurd (out_emptyRead.symm.trans hout) (by decide +kernel)

/-- A copy of two bytes one address up, that keeps four bytes as its source: channel 0 moves it as the last of its chain. -/
def overlongCopy : State :=
  { State.reset with dma.chan := [(0, { step := .move, desc := { src := 0, dst := 1, len := 2, ctrl := 0x405 },
                                         snap := [1, 2, 3, 4] })] }

theorem byte_overlongCopy : memByte (live (dmaComplete 0 []) overlongCopy).mem 3 = 3 := by decide +kernel

/-- Refutes O17: the second clause does not ask that the kept source be as long as the descriptor, and a copy downward
writes all of it. -/
theorem not_dmaCopyIsExact : ¬ Obligations.DmaCopyIsExact := by
  unfold Obligations.DmaCopyIsExact
  intro h
  obtain ⟨_, houtside, _⟩ := h overlongCopy 0 3 []
  have hbyte := (houtside (by decide +kernel) (by decide +kernel) (by decide +kernel) (by decide +kernel)
    (by decide +kernel) (by decide +kernel) (by decide +kernel) (by decide +kernel) (by decide +kernel)).of_next rfl
  exact absurd (byte_overlongCopy.symm.trans hbyte) (by decide +kernel)

end Sys2Proof.Machine
end

section
/-!
PROOFS. The reset values: an empty register bank reads as `resetWord`, which depends on part and revision alone.
-/

namespace Sys2Proof.Machine

open Reg

set_option Elab.async false

theorem reg_of_empty {s : State} (h : s.regs = []) (off : Nat) : s.reg off = resetWord s.part s.rev off := by
  unfold State.reg
  rw [h]
  rfl

section
variable (p : Part) (r : Rev)

theorem resetWord_ident : resetWord p r CHIP_CAPS = BitVec.ofNat 32 (match p with
      | .mlv9120 => 0x3863FFFF
      | .mlv9080 => 0x3043F30F
      | .mlv9040 => 0x0C314003) ∧
    resetWord p r PSQ_BUDGET = (if p = .mlv9040 then 0x01C00A8C else 0x03800A8C) := by
  cases p <;> cases r <;> decide +kernel

theorem resetWord_formulas : (∀ n : Fin 16, resetWord p r (REP_QCFG n) = BitVec.ofNat 32 ((n + 1) * 65536)) ∧
    (∀ n : Fin 64, resetWord p r (DMA_CTRL n) = BitVec.ofNat 32 ((32 + n) * 65536)) ∧
    (∀ b : Fin 64, resetWord p r (CLK_BAND b) = BitVec.ofNat 32 ((3260 + 64 * b) * 65536 + 3100 + 64 * b)) := by
  cases p <;> cases r <;> decide +kernel

theorem resetWord_station (n : Fin 8) : resetWord p r (STN_CELL n 4095 39) = 0x40000 ∧
    resetWord p r (STN_SCR n 255 255) = 0x80000 ∧ resetWord p r (STN_SCRSIZE n) = 0x88888888 ∧
    resetWord p r (STN_TAGLVL n) = 0x40000 ∧ resetWord p r (STN_LMARGIN n) = 0x7FFFFFFF := by
  cases p <;> cases r <;> revert n <;> decide +kernel

theorem resetWord_axis (n : Fin 48) : resetWord p r (AX_ESTOP n) = 0xFFFFFFFF ∧ resetWord p r (AX_MSTEP n) = 0x8000 ∧
    resetWord p r (AX_TIMING n) = 0x0A0A0A0A := by
  cases p <;> cases r <;> revert n <;> decide +kernel

theorem resetWord_monitor (m : Fin 32) : resetWord p r (MON_ALO m) = 0x80000000 ∧ resetWord p r (MON_AHI m) = 0x7FFFFFFF := by
  cases p <;> cases r <;> revert m <;> decide +kernel

theorem resetWord_errMask (i : Fin 7) : resetWord p r (ERR_MASK i) = 0xE := by
  cases p <;> cases r <;> revert i <;> decide +kernel

theorem resetWord_chip : resetWord p r PWR_SAG = 5 ∧ resetWord p r THM_THR = 0x0369645F ∧ resetWord p r TIME_STAT = 1 ∧
    resetWord p r TIME_INC_NS = 4 ∧ resetWord p r CLK_LOCKA = 0x00320003 ∧ resetWord p r CHIP_IRQ_MASK = 0x7F ∧
    resetWord p r ILK_HEAT = 0 ∧ resetWord p r REP_STAT = 0 := by
  cases p <;> cases r <;> decide +kernel

end

/-- Settles O6: by evaluation of `resetWord` for each part and revision. -/
theorem resetValues : Obligations.ResetValues := by
  refine ⟨fun s hs => ?_, by decide +kernel, by decide +kernel, by decide +kernel, rfl, fun _ => rfl⟩
  simp only [reg_of_empty hs]
  obtain ⟨hcaps, hbudget⟩ := resetWord_ident s.part s.rev
  obtain ⟨hqcfg, hdma, hband⟩ := resetWord_formulas s.part s.rev
  exact ⟨hcaps, hbudget, hqcfg, hdma, hband, resetWord_station _ _, resetWord_axis _ _, resetWord_monitor _ _,
    resetWord_errMask _ _, resetWord_chip _ _⟩

end Sys2Proof.Machine
end

section
/-!
PROOFS. What a ball of an FIO bank does in a rigged chip.
-/

namespace Sys2Proof.Machine

open Reg

set_option Elab.async false

theorem fioOf_fioBall (i : Fin 128) : fioOf (fioBall i) = some i.val := by
  revert i; decide +kernel

section
variable {s : State} (hr : s.rigged = true)
include hr

theorem ballDrive_placed {ball pad cls inst sig : Nat}
    (h : s.rig.pads.find? (fun p => p.1 == ball) = some (ball, pad, cls, inst, sig)) :
    ballDrive s ball = unitDrive s cls inst sig := by
  unfold ballDrive
  rw [hr, h]
  rfl

theorem ballDrive_unplaced {i : Fin 128} (h : s.rig.pads.find? (fun p => p.1 == fioBall i) = none) :
    ballDrive s (fioBall i) = if (fabricUses s i && s.fabricRuns) = true then .fabric else .highZ false := by
  unfold ballDrive
  rw [hr, h, fioOf_fioBall]
  rfl

end

theorem mcDrive_low {s : State} {n sig : Nat} (hsig : sig < 6) (h : mcState s n = Mcs.off ∨ mcState s n = Mcs.fault) :
    mcDrive s n sig = .level false := by
  unfold mcDrive
  rw [if_neg (by omega), if_pos h]

/-- Settles O60: the ball is looked up in PINMAP, then in the fabric's use of the banks. -/
theorem fioBalls : Obligations.FioBalls := by
  intro s i ball pad cls inst sig hr
  refine ⟨ballDrive_placed hr, fun hn hu hc hh => ?_, fun hn hu hstop => ?_, fun hn hu => ?_, fun hp hsig hst => ?_⟩
  · simp [ballDrive_unplaced hr hn, hu, State.fabricRuns, hc, hh]
  · have hruns : s.fabricRuns = false := by
      unfold State.fabricRuns
      rcases hstop with hc | hh
      · rw [hc]; rfl
      · rw [hh]; exact Bool.and_false _
    simp [ballDrive_unplaced hr hn, hruns]
  · simp [ballDrive_unplaced hr hn, hu]
  · exact (ballDrive_placed hr hp).trans (mcDrive_low hsig hst)

end Sys2Proof.Machine
end

section
/-!
PROOFS. Statements that a corner of the state refutes: a copy whose kept source is longer than its descriptor, a scrubbed
burst with a weak symbol, a threshold reached without a pause asked for, a time counter beyond one second, and an access
held while DRAM sleeps.
-/

namespace Sys2Proof.Machine

open Reg

-- Each proof that evaluates a state waits for the kernel: one at a time keeps the waiting threads few.
set_option Elab.async false

/-- `overlongCopy` in a rigged chip, its channel enabled. -/
def overlongRigged : State := (overlongCopy.p CHIP_RIGSTAT_STATE 3).p (DMA_CTRL_ENABLE 0) 1

/-- However far the copy had come, it is stopped at its end. -/
theorem abortAt_overlongRigged (x : Nat) : abortAt overlongRigged (dmaU overlongRigged 0).desc x = 2 := by
  have hlast : ∀ p : Fin 3, abortAt overlongRigged (dmaU overlongRigged 0).desc p = 2 := by decide +kernel
  have hmod : abortAt overlongRigged (dmaU overlongRigged 0).desc (x % 3)
      = abortAt overlongRigged (dmaU overlongRigged 0).desc x := by
    have hlen : (dmaU overlongRigged 0).desc.len = 2 := by decide +kernel
    simp only [abortAt, hlen, Nat.mod_mod]
  exact hmod.symm.trans (hlast ⟨x % 3, Nat.mod_lt _ (by decide)⟩)

@[simp] theorem mem_modDma (n : Nat) (f : Dma → Dma) (s : State) : (modDma n f s).mem = s.mem := rfl

/-- ABORT of a channel that moves leaves the memory that its last bytes leave. -/
theorem mem_dmaAbort_move {n err : Nat} {s : State} (h : (dmaU s n).step = .move) :
    (dmaAbort n err s).mem = (dmaMove n (abortAt s (dmaU s n).desc s.fresh.1) (abortAt s (dmaU s n).desc s.fresh.1)
      (leBytes (dmaU s n).desc.len s.fresh.2.fresh.1) s.fresh.2.fresh.2).mem := by
  unfold dmaAbort
  simp -implicitDefEqProofs only [if_neg (show (dmaU s n).step ≠ .idle by simp [h]), if_pos h, State.p_mem, State.pb_mem, mem_modDma]

theorem byte_overlongAbort : memByte (dmaAbort 0 0 overlongRigged).mem 3 = 3 := by
  rw [mem_dmaAbort_move (by decide +kernel), abortAt_overlongRigged]
  decide +kernel

theorem hostAt_overlongAbort : hostAt (DMA_CTRL 0) (dmaCtrlWrite 0 0x200000) overlongRigged = dmaAbort 0 0 overlongRigged := by
  rw [hostAt_reaches (by decide +kernel)]
  unfold dmaCtrlWrite
  rw [if_pos (by decide +kernel), if_pos (by decide +kernel), if_pos (by decide +kernel)]
  congr 1

/-- Refutes O15: its fourth clause does not ask that the kept source be as long as the descriptor. -/
theorem not_dmaControlWrites : ¬ Obligations.DmaControlWrites := by
  unfold Obligations.DmaControlWrites
  intro h
  obtain ⟨_, _, _, habort, _, _⟩ := h overlongRigged 0 0x200000 3
  obtain ⟨_, _, _, _, _, hbyte⟩ := (habort (by decide +kernel) (by decide +kernel) (.inl (by decide +kernel))
    (by decide +kernel) (by decide +kernel) (.inr (by decide +kernel))).of_next (congrArg Host.Outcome.next hostAt_overlongAbort)
  exact absurd (byte_overlongAbort.symm.trans hbyte) (by decide +kernel)

/-- A block whose first DRAM channel is trained, with MiB 0 touched and one symbol of its first burst wrong. -/
def weakBurst : State :=
  { (State.reset.p DRAM_CFG_CHANNELS 1).p (DDR_SCRUB_HOURS 0) 24 with
    dram.touch := [0], dram.weak := [0], dram.ddr := [(0, { mode := 3 })] }

theorem count_weakBurst : (live (scrubRead 0 0) weakBurst).g (DDR_ECC_CE 0) = 1 := by decide +kernel

/-- Refutes O20: the clause of the scrub excludes an uncorrectable burst only, and a burst with one wrong symbol is
corrected and counted. -/
theorem not_dramUpkeepAndSleep : ¬ Obligations.DramUpkeepAndSleep := by
  unfold Obligations.DramUpkeepAndSleep
  intro h
  obtain ⟨_, _, _, _, hscrub, _⟩ := h weakBurst 0 false 0 0 0 0
  obtain ⟨_, hregs, _⟩ := (hscrub (by decide +kernel) (by decide +kernel) (by decide +kernel) (by decide +kernel)
    (by decide +kernel)).of_next rfl
  exact absurd (count_weakBurst.symm.trans (g_eq_of_regs _ ⟨by decide +kernel, by decide +kernel, hregs⟩)) (by decide +kernel)

/-- A block at level 1 whose vision pipeline does not stand paused. -/
def unpausedReef : State := State.reset.p THM_TJ_REEF 1

theorem unpaused_conversion : (thermLive (thermConvert 0 1632 false) unpausedReef).on VIS_STAT_PAUSED = false := by
  decide +kernel

/-- Refutes O22: only level 1 pauses the vision pipeline, and the second clause also speaks of a step from level 1 to level
2 with the pipeline not paused before. -/
theorem not_thermalLevelsAndTrips : ¬ Obligations.ThermalLevelsAndTrips := by
  unfold Obligations.ThermalLevelsAndTrips
  intro h
  obtain ⟨_, henter, _⟩ := h unpausedReef 0 1632 2 false 0
  obtain ⟨_, _, _, hpaused⟩ := (henter (by decide +kernel) (by decide +kernel) (by decide +kernel) (by decide +kernel)
    (by decide +kernel) (by decide +kernel) (by decide +kernel) (by decide +kernel) (by decide +kernel)).of_next rfl
  exact absurd (unpaused_conversion.symm.trans hpaused) (by decide)

/-- A block in UP_SEQ before a MARK word, with nanoseconds of its counter that the 24 bits of PWR_MARK_NS do not hold. -/
def lateMark : State :=
  { (State.reset.p PWR_STAT_STATE 2).p (PWR_PROG_WORD 0) 0x90000000 with time.ns := 2 ^ 30 }

theorem ns_lateMark : (stayStep seqMark lateMark).g PWR_MARK_NS = 0 := by decide +kernel

/-- Refutes O23: the nanoseconds of the counter are not bounded by a second in every state. -/
theorem not_sequencerWords : ¬ Obligations.SequencerWords := by
  unfold Obligations.SequencerWords
  intro h
  obtain ⟨_, _, _, _, _, _, _, _, _, _, hmark⟩ := h lateMark 0x90000000 0 0 false (by decide +kernel) (by decide +kernel)
  obtain ⟨_, _, hns, _⟩ := (hmark (by decide +kernel)).of_next rfl
  exact absurd (ns_lateMark.symm.trans hns) (by decide +kernel)

/-- A rigged block whose DRAM is in self-refresh. -/
def asleepDram : State := ((State.reset.p CHIP_RIGSTAT_STATE 3).p DRAM_CFG_CHANNELS 1).p DRAM_SR_STATE 2

theorem held_partialWrite : (ringFreed 0x201000 (hostWrite 0x201000 0 0 asleepDram)).on CHIP_ERR_PARTIAL_WRITE = false := by
  decide +kernel

/-- Refutes O31: a write of a DRAM controller's register that comes in self-refresh waits, with whatever byte enables. -/
theorem not_hostAccesses : ¬ Obligations.HostAccesses := by
  unfold Obligations.HostAccesses
  intro h
  obtain ⟨_, _, _, _, hpartial, _⟩ := h asleepDram 0x201000 0 0 0 0 (by decide +kernel)
  obtain ⟨hset, _⟩ := (hpartial (by decide +kernel) (by decide)).of_next rfl
  exact absurd (held_partialWrite.symm.trans hset) (by decide)

end Sys2Proof.Machine
end

section
/-!
PROOFS. Statements about the host interface that a corner of the state refutes: a command of another pair that starts as
a completion ring's head is written, a LOG_READ of more bytes than one write request carries, and a context whose number
does not fit the RESULT of a completion.
-/

namespace Sys2Proof.Machine

open Reg

-- Each proof that evaluates a state waits for the kernel: one at a time keeps the waiting threads few.
set_option Elab.async false

/-- A rigged block in STANDBY with a session of REP 2.0 open and one entry queued on pair 0, of 16 entries. -/
def oneQueued : State :=
  (((((((State.reset.p CHIP_RIGSTAT_STATE 3).p REP_STAT_ENGINE Eng.standby).p REP_STAT_SESSION 1).p REP_STAT_VERSION
    0x0200).p (REP_QCFG_ENABLE 0) 1).p (REP_QCFG_CQ_LOG2 0) 4).p (REP_QCFG_SQ_LOG2 0) 4).p (REP_QSQT_TAIL 0) 1

/-- The tag of the entry queued on pair 0. -/
def firstEntry : Entry := { q := 0, cid := 0, clean := true }

/-- As `oneQueued`, the queued command held for want of completion space, which there is. -/
def oneHeld : State :=
  { oneQueued with host.heldCmds := [⟨0, 0, 2, .bye firstEntry⟩] }

theorem shown_oneHeld : (ringFreed (REP_QCQH 0) (hostAt (REP_QCQH 0) (cqDoorbell 0 0) oneHeld)).out ≠ [] := by
  decide +kernel

/-- Refutes O33: a head that leaves a free slot also starts the commands that were held for want of one (R65). -/
theorem not_queuePairs : ¬ Obligations.QueuePairs := by
  unfold Obligations.QueuePairs
  intro h
  obtain ⟨_, _, _, hhead, _⟩ := h oneHeld 0 0 ⟨0, 0, 0, 0, none, none⟩
  obtain ⟨_, hout, _⟩ := (hhead (by decide +kernel) (by decide +kernel) (by decide +kernel) (by decide +kernel)).of_next rfl
  exact shown_oneHeld (hout.trans (by decide +kernel))

/-- A LOG_READ of 256 bytes in progress, the payload being 128 bytes. -/
def longLog : LogCopy := { q := 0, cid := 0, dst := 0, bytes := List.replicate 256 0, size := 256 }

def longLogRead : State := { oneQueued with host.logs := [longLog] }

theorem out_longLogRead : Out.host 0 (List.replicate 256 0) true ∉ (live (logDone 0 0) longLogRead).out := by decide +kernel

/-- Refutes O35: the bytes of a LOG_READ leave in write requests of at most the negotiated payload (R51). -/
theorem not_reportsAndTimeEvents : ¬ Obligations.ReportsAndTimeEvents := by
  unfold Obligations.ReportsAndTimeEvents
  intro h
  obtain ⟨_, _, _, hdone, _⟩ := h longLogRead firstEntry 0 0 0 0 0 0 0 0 0 0 false longLog ⟨0, 0, 0, 0⟩
  obtain ⟨_, _, hshown⟩ := (hdone (by decide +kernel) rfl (by decide +kernel) (by decide +kernel) (by decide +kernel)
    (by decide +kernel) (by decide +kernel) (by decide +kernel)).of_next rfl
  exact absurd (List.mem_of_mem_drop hshown) out_longLogRead

/-- A context ARMED whose number is 2^64. -/
def vastContext : State := { oneQueued.p (PCTX_STATE_STATE (2 ^ 64)) Px.armed with ctx := [(2 ^ 64, {})] }

theorem completes_vastContext :
    completes 0 0 0x30 0 (2 ^ 64) vastContext (cmdStationCfg firstEntry 0 0 0 vastContext) = false := by decide +kernel

/-- Refutes O38: RESULT holds 64 bits of the first context to carry a change. -/
theorem not_stationCommands : ¬ Obligations.StationCommands := by
  unfold Obligations.StationCommands
  intro h
  obtain ⟨hcfg, _⟩ := h vastContext firstEntry 0 0 0 0 0 0 0 0 0 0 0 0 0 0 0 0 0 0
    (offGen (fetchEntry 0 vastContext) 0) ⟨0, 0, 0, 0, 0, 0, 0, 0, 0, none, 0⟩ []
  obtain ⟨_, _, hdone⟩ := (hcfg (by decide +kernel) (by decide +kernel) (by decide +kernel) (by decide +kernel)).of_next rfl
  have hfirst : firstCarrier (fetchEntry 0 vastContext) = 2 ^ 64 := by decide +kernel
  exact absurd (completes_vastContext.symm.trans (hfirst ▸ hdone)) (by decide)

end Sys2Proof.Machine
end

section
/-!
PROOFS. Statements about the passage, the stations, the links and the motion units that a corner of the state refutes:
context numbers beyond the table of contexts, whose words are other units' registers, a spoil flag that lags the contexts,
a wait of an axis that outlasts its enable delay, and a speed error wider than
an operand.
-/

namespace Sys2Proof.Machine

open Reg

-- Each proof that evaluates a state waits for the kernel: one at a time keeps the waiting threads few.
set_option Elab.async false

/-- Station 0 has lost the jammed sheet of a context whose state word is STN0_SWEEPNO. -/
def slipping : State :=
  let s := (State.reset.p (STN_SWEEPNO_FACET 0) 8).p (STN_SWEEPNO_COUNT 0) 0xE
  { s with
    ctx := [(0xC0001, { fed := true, ended := true, endAt := s.time })]
    stn := [(0, { jammed := some (0xC0001, s.time), marked := true, active.facets := 12 })] }

theorem count_slipping : (stnLive 0 (bdEdge 0 true false 0) slipping).g (STN_SWEEPNO_COUNT 0) ≠ 0xF := by decide +kernel

/-- Refutes O43: the fault of a facet slip strikes the sheet that the station lost, and its state word is any register. -/
theorem not_stationDecodersAndEdges : ¬ Obligations.StationDecodersAndEdges := by
  unfold Obligations.StationDecodersAndEdges
  intro h
  obtain ⟨_, _, _, _, _, _, hslip, _⟩ := h slipping 0 0 ⟨0, [], 0, false⟩ ⟨0, 0, 0, 0⟩ [] ⟨⟨0, 0, 0, 0⟩, 0, []⟩ [] true 0 0 0
    (0, []) (by decide +kernel) (by decide +kernel)
  obtain ⟨hcount, _⟩ := (hslip (by decide +kernel) (by decide +kernel) (by decide +kernel) (by decide +kernel)).of_next rfl
  exact count_slipping (hcount.trans (by decide +kernel))

/-- The running fabric feeds FEED_SENSE, context 1 awaits its origin near the trail before it, the spoil flag is out with
no sheet spoiled, and its timed pulse output is the one whose status is PCTX1_ORG_LO. -/
def lateSheet : State :=
  let s := ((((State.reset.p CHIP_RIGSTAT_STATE 3).p REP_STAT_ENGINE Eng.printing).p SPAR_STAT_CONFIGURED 1).p
    PSQ_CTRL_SENSE_EN 1).p (PSQ_POS_COUNTS 2) 8
  { s with
    rig.routes := [⟨0, 0x1900, 0, 0x0200, 1, 0⟩]
    rig.spoilTpo := some 0x17E78
    ctx := [(1, { awaiting := true })]
    psq.front := 3
    psq.lastTrail := some 0
    psq.spoilOut := true }

theorem origin_lateSheet :
    originOf (live (fun s => if s.fabricFeeds 0x0200 1 then feedSense s else s) lateSheet) 1 ≠ 3 := by decide +kernel

/-- Refutes O45: the hard stop of a misfeed shows the spoil flag, and its timed pulse output's word may be the origin's. -/
theorem not_encoderAndFeeding : ¬ Obligations.EncoderAndFeeding := by
  unfold Obligations.EncoderAndFeeding
  intro h
  obtain ⟨_, _, _, _, _, _, _, hnear, _⟩ := h lateSheet 0 1 (by decide +kernel)
  obtain ⟨_, horg, _⟩ := (hnear (by decide +kernel) (by decide +kernel) (by decide +kernel) (by decide +kernel)).of_next rfl
  exact origin_lateSheet (horg.trans (by decide +kernel))

/-- Context 1, IMAGING, has reached delivery; the spoil flag is out with no sheet spoiled. -/
def deliveryDue : State :=
  { State.reset.p (PCTX_STATE_STATE 1) Px.imaging with
    ctx := [(1, { fed := true, hasOrigin := true })]
    psq.spoilOut := true }

theorem out_deliveryDue : (live (inTurn 1 (trigDelivery 1)) deliveryDue).out ≠ [] := by decide +kernel

/-- Refutes O46: a delivery puts the spoil flag to what the contexts say, and shows it where it stood otherwise. -/
theorem not_webRunsAndTriggers : ¬ Obligations.WebRunsAndTriggers := by
  unfold Obligations.WebRunsAndTriggers
  intro h
  obtain ⟨_, _, _, _, _, _, _, _, _, hdeliver, _⟩ := h deliveryDue 1 0 0 none (by decide +kernel)
  obtain ⟨_, _, _, _, hout⟩ := (hdeliver (by decide +kernel) (by decide +kernel) (by decide +kernel)
    (.inl (by decide +kernel))).of_next rfl
  exact out_deliveryDue (hout.trans (by decide +kernel))

/-- A STATUS that reports sweep 0 damaged. -/
def damagedStatus : LinkStatus := ⟨true, false, true, false, false, false, 0, 0, 0, 0, 0⟩

/-- Link 0 is UP with sweep 0 outstanding, of a context whose state word is STN0_BDTS. -/
def damagedSheet : State :=
  { State.reset.p (PCTX_STATE_STATE 0xC0703) Px.imaging with
    stn := [(0, { link.step := 6, link.unreported := [(0, some 0xC0703)] })] }

theorem state_damagedSheet : ctxState (stnLive 0 (statusRx 0 damagedStatus) damagedSheet) 0xC0703 ≠ Px.spoiled := by
  decide +kernel

/-- Refutes O49: a STATUS shows its beam-detect time before it spoils, and a sheet's state word may be that register. -/
theorem not_linkTraffic : ¬ Obligations.LinkTraffic := by
  unfold Obligations.LinkTraffic
  intro h
  obtain ⟨_, hdamaged, _⟩ := h damagedSheet 0 damagedStatus 0 0 0 0 0 ⟨0, 0, 0, []⟩ (0, none) [] 0xC0703 {}
    (by decide +kernel) (by decide +kernel)
  obtain ⟨_, hspoiled⟩ := (hdamaged (by decide +kernel) (by decide +kernel) rfl rfl (.inl (by decide +kernel))
    (by decide +kernel) (by decide +kernel) (by decide +kernel)).of_next rfl
  exact state_damagedSheet hspoiled

/-- Axis 0 OFF with a configuration that may be enabled and TEN 0, still waiting from before. -/
def waitingAxis : State :=
  { (((State.reset.p CHIP_RIGSTAT_STATE 3).p (AX_MSTEP_PMAX 0) 1).p (AX_TIMING_TH 0) 10).p (AX_TIMING_TEN 0) 0 with
    rig.pins := [(0x12, 0, 0)]
    mot.ax := [(0, { wait := 5 })] }

def axisEnabling : Word := BitVec.ofNat 32 (2 ^ (AX_CTRL_ENABLE 0).lo)

theorem wait_waitingAxis : (axU (hostAt (AX_CTRL 0) (axCtrlWrite 0 axisEnabling) waitingAxis) 0).wait = 5 := by decide +kernel

/-- Refutes O52: TEN holds off the first edge no less than what already holds it off. -/
theorem not_axisControl : ¬ Obligations.AxisControl := by
  unfold Obligations.AxisControl
  intro h
  obtain ⟨henable, _⟩ := h waitingAxis 0 0 axisEnabling 0
  obtain ⟨_, _, _, hwait, _⟩ := (henable ⟨by decide +kernel, by decide +kernel⟩ (by decide +kernel) (by decide +kernel)
    (by decide +kernel) (by decide +kernel) (by decide +kernel) (by decide +kernel) (by decide +kernel)
    (by decide +kernel)).of_next rfl
  exact absurd (wait_waitingAxis.symm.trans hwait) (by decide +kernel)

/-- HV channel 0 awaits the confirmation of its discharge while the engine prints, and the origin of a context LOADED is
HV0_STAT. -/
def lateDischarge : State :=
  { (((State.reset.p CHIP_RIGSTAT_STATE 3).p REP_STAT_ENGINE Eng.printing).p (PCTX_STATE_STATE 0x40402) Px.loaded).p
      (HV_STAT_DSC_PEND 0) 1 with
    ctx := [(0x40402, {})] }

theorem state_lateDischarge : hvState (live (hvDischargeFail 0) lateDischarge) 0 ≠ Hvs.cleated := by decide +kernel

/-- Refutes O56: the hard stop of a discharge that times out frees the contexts LOADED, whose words are any registers. -/
theorem not_highVoltage : ¬ Obligations.HighVoltage := by
  unfold Obligations.HighVoltage
  intro h
  obtain ⟨_, _, _, _, _, _, _, _, _, _, _, _, htimeout, _⟩ := h lateDischarge 0 0 0 0 0
  obtain ⟨hcleated, _⟩ := (htimeout (by decide +kernel) (by decide +kernel) (by decide +kernel) (by decide +kernel)
    (by decide +kernel) (by decide +kernel)).of_next rfl
  exact state_lateDischarge hcleated

/-- Loop 0 runs one MOV of the PSQ speed error to N1 on timebase 1, and the error kept is wider than 20 bits. -/
def wideError : State :=
  let s := ((((State.reset.p (LP_CFG_ENABLE 0) 1).p (LP_CFG_TB 0) 1).p (LP_CFG_LEN 0) 1).setReg (CE_PROG_HI 0)
    0x0D310000#32).setReg (CE_PROG_LO 0) 0x04000000#32
  { s with mot.ce.psqErr := 2 ^ 20 }

/-- The instruction of `wideError`: N1 := the PSQ speed error. -/
def movError : CeInstr := ⟨1, 0x531, 0, 1, 0, 0, 0⟩

theorem commits_wideError : bankGet [] (ceU (live (tbTick 1 [] 0 0 []) wideError)).commits 0 = [(1, 2 ^ 20)] := by
  decide +kernel

/-- Refutes O54: a loop's operand is read as the state keeps it, and not every value kept fits 20 bits. -/
theorem not_loopsAndTicks : ¬ Obligations.LoopsAndTicks := by
  unfold Obligations.LoopsAndTicks
  intro h
  obtain ⟨_, _, _, hrun, _⟩ := h wideError 0 1 0 0 0 0 0 movError 1 0 0 [] []
  obtain ⟨hcommits, _⟩ := (hrun (by decide +kernel) (.inl (by decide +kernel)) (by decide +kernel) (by decide +kernel)
    (by decide +kernel) (by decide +kernel) (by decide +kernel) (by decide +kernel) (by decide +kernel)
    (by decide +kernel) (by decide +kernel)).of_next rfl
  exact absurd (commits_wideError.symm.trans hcommits) (by decide +kernel)

end Sys2Proof.Machine
end

section
/-!
PROOFS. Registers that an operation leaves alone: a zone of the register map reads as before. What a record of an error
may write lies in the error log, the interrupt root and the host interface.
-/

namespace Sys2Proof.Machine

open Reg

set_option Elab.async false

/-- The registers of a zone read as before. -/
def Alike (Z : Nat → Prop) (s t : State) : Prop := ∀ off, Z off → t.reg off = s.reg off

namespace Alike

variable {Z : Nat → Prop} {s t u : State}

theorem refl (s : State) : Alike Z s s := fun _ _ => rfl

theorem trans (h : Alike Z s t) (k : Alike Z t u) : Alike Z s u := fun off hz => (k off hz).trans (h off hz)

theorem mono {Y : Nat → Prop} (h : Alike Z s t) (hy : ∀ off, Y off → Z off) : Alike Y s t := fun off hz => h off (hy off hz)

theorem setReg (h : Alike Z s t) {off : Nat} (v : Word) (ho : ¬ Z off) : Alike Z s (t.setReg off v) := fun j hj =>
  (reg_setReg_other t off v j fun e => ho (e ▸ hj)).trans (h j hj)

theorem p (h : Alike Z s t) {f : Fld} (v : Nat) (ho : ¬ Z f.off) : Alike Z s (t.p f v) := h.setReg _ ho
theorem pb (h : Alike Z s t) {f : Fld} (v : Bool) (ho : ¬ Z f.off) : Alike Z s (t.pb f v) := h.setReg _ ho
theorem pz (h : Alike Z s t) {f : Fld} (v : Int) (ho : ¬ Z f.off) : Alike Z s (t.pz f v) := h.setReg _ ho
theorem inc (h : Alike Z s t) {f : Fld} (ho : ¬ Z f.off) : Alike Z s (t.inc f) := h.setReg _ ho

theorem ite {c : Prop} [Decidable c] (h : Alike Z s t) (k : Alike Z s u) : Alike Z s (if c then t else u) := by
  split
  · exact h
  · exact k

/-- A change of other parts. -/
theorem of_regs (h : Alike Z s t) (e : u.part = t.part ∧ u.rev = t.rev ∧ u.regs = t.regs) : Alike Z s u := fun off hz =>
  (reg_congr e.1 e.2.1 e.2.2 off).trans (h off hz)

theorem of_kept (h : Alike Z s t) (k : Kept (· = .regs) t u) : Alike Z s u := h.of_regs ⟨k.part, k.rev, k.same .regs rfl⟩

theorem err (e : ErrU) (h : Alike Z s t) : Alike Z s { t with err := e } := h

theorem staySeq (n : Nat) (h : Alike Z s t) : Alike Z s { t with staySeq := n } := h

theorem foldl {β : Type} {l : List β} {f : State → β → State} (h : Alike Z s t)
    (hf : ∀ u x, x ∈ l → Alike Z s u → Alike Z s (f u x)) : Alike Z s (l.foldl f t) := by
  induction l generalizing t with
  | nil => exact h
  | cons x r ih =>
    exact ih (hf t x List.mem_cons_self h) fun u y hy => hf u y (List.mem_cons_of_mem x hy)

theorem overN {n : Nat} {f : Nat → State → State} (h : Alike Z s t) (hf : ∀ i u, i < n → Alike Z s u → Alike Z s (f i u)) :
    Alike Z s (overN n f t) := overN_keeps n f hf t h

theorem g (h : Alike Z s t) {f : Fld} (hz : Z f.off) : t.g f = s.g f := by
  unfold State.g
  rw [h _ hz]

theorem on (h : Alike Z s t) {f : Fld} (hz : Z f.off) : t.on f = s.on f := on_eq_of_g (h.g hz)

theorem msix (h : Alike Z s t) {v : Nat} (ho : ¬ Z (MSIX_PBA (v / 32))) : Alike Z s (t.msix v) := by
  unfold State.msix
  split
  · exact h.setReg _ ho
  · exact h.of_regs ⟨rfl, rfl, rfl⟩

theorem onlyRegs {l : List Nat} (h : Alike (· ∉ l) s t) : OnlyRegs l s t := h

end Alike

theorem OnlyRegs.alike {l : List Nat} {s t : State} (h : OnlyRegs l s t) : Alike (· ∉ l) s t := h

theorem g_lt (s : State) (f : Fld) : s.g f < 2 ^ f.w := bitsOf_lt _ _ _

/-! ## What a record leaves alone -/

/-- Outside the error log, CHIP_IRQ_STAT, the MSI-X pending bits and the host interface's registers but REP_STAT. -/
def Aside (off : Nat) : Prop :=
  off ≠ 0x30 ∧ (off < 0x108000 ∨ 0x110000 ≤ off) ∧ (off < 0x309000 ∨ off = REP_STAT ∨ 0x400000 ≤ off)

theorem not_aside_err {off : Nat} (h : 0x108000 ≤ off) (h' : off < 0x110000) : ¬ Aside off := fun ha => by
  unfold Aside at ha
  omega

theorem not_aside_host {off : Nat} (h : 0x309000 ≤ off) (h' : off < 0x400000) (hne : off ≠ REP_STAT) : ¬ Aside off := fun ha => by
  unfold Aside at ha
  omega

section
variable {s t : State}

theorem aside_msix {v : Nat} (h : Alike Aside s t) (hv : v < 256) : Alike Aside s (t.msix v) :=
  h.msix (not_aside_host (by unfold MSIX_PBA; omega) (by unfold MSIX_PBA; omega) (by unfold MSIX_PBA REP_STAT; omega))

theorem aside_writeCqe {q : Nat} (p : Post) (h : Alike Aside s t) (hq : q < 32) : Alike Aside s (writeCqe q p t) := by
  have hstat : ¬ Aside (REP_QSTAT q) := 
    not_aside_host (by unfold REP_QSTAT; omega) (by unfold REP_QSTAT; omega) (by unfold REP_QSTAT REP_STAT; omega)
  unfold writeCqe syncFull
  refine aside_msix (.pb (.p ?_ _ hstat) _ hstat) (g_lt _ _)
  exact .ite (h.of_regs ⟨rfl, rfl, rfl⟩) (h.of_regs ⟨rfl, rfl, rfl⟩)

theorem aside_postFault (slot : Nat) (e : ErrIn) (h : Alike Aside s t) : Alike Aside s (postFault slot e t).1 := by
  unfold postFault
  split
  · exact h
  · split
    · exact h.inc (not_aside_host (by decide) (by decide) (by decide))
    · exact aside_writeCqe _ h (by decide)

theorem aside_putWords {off : Nat} {l : List Nat} (h : Alike Aside s t) (ho : 0x108000 ≤ off)
    (hl : off + 4 * l.length ≤ 0x110000) : Alike Aside s (putWords off l t) := by
  induction l generalizing off t with
  | nil => exact h
  | cons w r ih =>
    rw [List.length_cons] at hl
    exact ih (h.setReg _ (not_aside_err ho (by omega))) (by omega) (by omega)

theorem aside_irqSync (h : Alike Aside s t) : Alike Aside s (irqSync t) := by
  have hp : Alike Aside s (t.p CHIP_IRQ_STAT_REGION (irqLines t)) := h.p _ (by unfold Aside; decide)
  unfold irqSync
  exact .ite (aside_msix (hp.of_regs ⟨rfl, rfl, rfl⟩) (g_lt _ _)) hp

theorem aside_pendSet {r : Nat} (sev : Nat) (h : Alike Aside s t) (hr : r < 7) : Alike Aside s (pendSet r sev t) :=
  aside_irqSync (h.p _ (not_aside_err (by unfold ERR_PEND_SEV ERR_PEND; dsimp only; omega)
    (by unfold ERR_PEND_SEV ERR_PEND; dsimp only; omega)))

theorem cntFld_off (r sev : Nat) : (cntFld r sev).off = ERR_CNT r := by
  unfold cntFld
  split
  · rfl
  · split
    · rfl
    · split <;> rfl

theorem not_aside_cntFld {r : Nat} (sev : Nat) (hr : r < 7) : ¬ Aside (cntFld r sev).off := by
  rw [cntFld_off]
  exact not_aside_err (by unfold ERR_CNT; omega) (by unfold ERR_CNT; omega)

theorem aside_coalesce {e : ErrIn} (l : Latest) (h : Alike Aside s t) (he : e.reg < 7) : Alike Aside s (coalesce e l t) := by
  have hrec (w : Nat) (hw : w < 8) : ¬ Aside (ERR_REC l.slot w) :=
    not_aside_err (by unfold ERR_REC; omega) (by unfold ERR_REC; omega)
  exact ((h.p _ (hrec 7 (by decide))).setReg _ (hrec 1 (by decide))).inc (not_aside_cntFld _ he)

theorem aside_notifyAll (entry : List Byte) (h : Alike Aside s t) : Alike Aside s (notifyAll entry t) :=
  h.of_kept (kept_notifyAll (by decide) (by decide) (by decide) _ (.refl t))

theorem aside_nvmRecord (words : List Nat) (h : Alike Aside s t) : Alike Aside s (nvmRecord words t) :=
  h.of_kept (kept_nvmRecord (by decide) (by decide) _ (.refl t))

theorem aside_recordWords {slot : Nat} {words : List Nat} (h : Alike Aside s t) (hs : slot < 256)
    (hw : words.length = 8) : Alike Aside s (putWords (ERR_REC slot 0) words t) :=
  aside_putWords h (by unfold ERR_REC; omega) (by unfold ERR_REC; omega)

/-- The slot a new record takes, and its counts. -/
theorem aside_recordSlot {e : ErrIn} (n : Nat) (h : Alike Aside s t) (he : e.reg < 7) :
    Alike Aside s { (((if t.g (ERR_REC_WORD (t.g ERR_HEAD_NEXT) 0) ≠ 0 then t.p ERR_HEAD_WRAPPED 1 else t).p ERR_HEAD_NEXT
      ((t.g ERR_HEAD_NEXT + 1) % 256)).p ERR_SEQ_SEQ n).inc (cntFld e.reg e.sev) with staySeq := n } := by
  have hhead : ¬ Aside ERR_HEAD := not_aside_err (by decide) (by decide)
  refine .staySeq _ (((Alike.ite (h.p _ hhead) h).p _ hhead).p _ (not_aside_err (by decide) (by decide)) |>.inc
    (not_aside_cntFld _ he))

theorem aside_newRecord {e : ErrIn} (h : Alike Aside s t) (he : e.reg < 7) : Alike Aside s (newRecord e t) := by
  have hslot := aside_recordSlot ((t.g ERR_SEQ_SEQ + 1) % 2 ^ 32) h he
  have hlt : t.g ERR_HEAD_NEXT < 256 := g_lt _ _
  unfold newRecord
  have hpost : Alike Aside s (if e.quiet then ({ (((if t.g (ERR_REC_WORD (t.g ERR_HEAD_NEXT) 0) ≠ 0
      then t.p ERR_HEAD_WRAPPED 1 else t).p ERR_HEAD_NEXT ((t.g ERR_HEAD_NEXT + 1) % 256)).p ERR_SEQ_SEQ
        ((t.g ERR_SEQ_SEQ + 1) % 2 ^ 32)).inc (cntFld e.reg e.sev) with
        staySeq := (t.g ERR_SEQ_SEQ + 1) % 2 ^ 32 }, false)
    else postFault (t.g ERR_HEAD_NEXT) e { (((if t.g (ERR_REC_WORD (t.g ERR_HEAD_NEXT) 0) ≠ 0
      then t.p ERR_HEAD_WRAPPED 1 else t).p ERR_HEAD_NEXT ((t.g ERR_HEAD_NEXT + 1) % 256)).p ERR_SEQ_SEQ
        ((t.g ERR_SEQ_SEQ + 1) % 2 ^ 32)).inc (cntFld e.reg e.sev) with
        staySeq := (t.g ERR_SEQ_SEQ + 1) % 2 ^ 32 }).1 := by
    split
    · exact hslot
    · exact aside_postFault _ _ hslot
  dsimp only
  revert hpost
  generalize (if e.quiet then _ else _ : State × Bool) = pr
  obtain ⟨s4, posted⟩ := pr
  intro hpost
  have hwords := fun n f => aside_recordWords (words := recWords n e f t.time) hpost hlt rfl
  refine aside_pendSet _ (.ite (aside_nvmRecord _ (aside_notifyAll _ (.err _ (hwords _ _)))) (.err _ (hwords _ _))) he

theorem aside_record {e : ErrIn} (h : Alike Aside s t) (he : e.reg < 7) : Alike Aside s (record e t) := by
  unfold record
  refine .ite h (.ite (h.inc (not_aside_err (by decide) (by decide))) ?_)
  split
  · exact .ite (aside_coalesce _ h he) (aside_newRecord h he)
  · exact aside_newRecord h he

theorem classRegion_lt (cls : Nat) : classRegion cls < 7 := by
  unfold classRegion
  repeat' split
  all_goals decide

theorem aside_contained (cls inst code cell : Nat) (h : Alike Aside s t) : Alike Aside s (contained cls inst code cell t) :=
  aside_record h (classRegion_lt _)

theorem aside_corrected (cls inst code cell : Nat) (h : Alike Aside s t) : Alike Aside s (corrected cls inst code cell t) :=
  aside_record h (classRegion_lt _)

/-- An error that ends no engine. -/
theorem aside_raise {e : ErrIn} (h : Alike Aside s t) (he : e.reg < 7) (hsev : e.sev < 2) : Alike Aside s (raise e t) := by
  have hr := aside_record h he
  unfold raise
  refine .ite hr ?_
  unfold fatalEffect
  rw [if_neg (by unfold Sev.chipFatal; omega), if_neg (by unfold Sev.regionFatal; omega)]
  exact hr

end

end Sys2Proof.Machine
end

section
/-!
PROOFS. The time counter (spec/17_network_time.md R360-R364): its increment, its single step and its rearming.
-/

namespace Sys2Proof.Machine

open Reg

set_option Elab.async false

/-! ## A command that is one operation of the machine -/

theorem Does.of_hostAt {c : Instr} {s : State} {P : State → Prop} {off : Nat} {f : State → State}
    (e : exec c s = .next (hostAt off f s)) (hr : Reaches s off) (h : P (f s)) : Does c s P :=
  ⟨f s, e.trans (congrArg _ (hostAt_reaches hr)), h⟩

theorem Does.of_live {c : Instr} {s : State} {P : State → Prop} {f : State → State}
    (e : exec c s = .next (live f s)) (hd : s.dead = false) (h : P (f s)) : Does c s P :=
  ⟨f s, e.trans (congrArg _ (live_of hd)), h⟩

section
variable {s : State} {v : Word}

/-! ## The increment -/

/-- The nanoseconds written and the fraction held make an increment within 0.1 percent of 4 ns. -/
def incOk (s : State) (v : Word) : Prop :=
  3996 * 2 ^ 32 ≤ 1000 * (v.toNat % 16 * 2 ^ 32 + s.g TIME_INC_FRAC_VALUE) ∧
    1000 * (v.toNat % 16 * 2 ^ 32 + s.g TIME_INC_FRAC_VALUE) ≤ 4004 * 2 ^ 32

/-- The increment in force. -/
def withInc (inc : Nat × Nat) (s : State) : State := { s with net := { s.net with inc := inc } }

theorem timeIncWrite_ok (h : incOk s v) :
    timeIncWrite v s = withInc (v.toNat % 16, s.g TIME_INC_FRAC_VALUE) (s.p TIME_INC_NS_VALUE (v.toNat % 16)) := by
  unfold timeIncWrite
  exact if_pos h

theorem timeIncWrite_refused (h : ¬ incOk s v) : timeIncWrite v s = s.pb TIME_STAT_CFG_ERR true := by
  unfold timeIncWrite
  exact if_neg h

/-! ## The step and its arming -/

theorem timeCtrlWrite_step (hs : fieldOf TIME_CTRL_STEP v = 1) (hr : fieldOf TIME_CTRL_REARM v = 0) :
    timeCtrlWrite v s = timeStep s := by
  unfold timeCtrlWrite
  rw [if_neg (show ¬ fieldOf TIME_CTRL_REARM v = 1 by omega), if_pos hs]

theorem timeCtrlWrite_rearm (hs : fieldOf TIME_CTRL_STEP v = 0) (hr : fieldOf TIME_CTRL_REARM v = 1) :
    timeCtrlWrite v s = timeRearm s := by
  unfold timeCtrlWrite
  rw [if_pos hr, if_neg (show ¬ fieldOf TIME_CTRL_STEP v = 1 by omega)]

theorem timeStep_unarmed (h : s.on TIME_STAT_STEP_ARMED = false) : timeStep s = s.p TIME_STAT_STEP_RESULT 1 := by
  unfold timeStep
  rw [if_pos (by simp [h])]

theorem timeStep_refused (h : s.on TIME_STAT_STEP_ARMED = true)
    (hbad : 999999999 < s.g TIME_OFS_NS_VALUE ∨ (s.time.toNs : Int) + stepOfs s < 0) :
    timeStep s = s.p TIME_STAT_STEP_RESULT 2 := by
  unfold timeStep
  rw [if_neg (by simp [h]), if_pos hbad]

theorem timeStep_waits (h : s.on TIME_STAT_STEP_ARMED = true) (hns : s.g TIME_OFS_NS_VALUE ≤ 999999999)
    (hsum : 0 ≤ (s.time.toNs : Int) + stepOfs s) :
    timeStep s = { s with net := { s.net with step := some (stepOfs s) } } := by
  unfold timeStep
  rw [if_neg (by simp [h]), if_neg (by omega)]

theorem timeRearm_armed (h : s.on TIME_STAT_STEP_ARMED = true) : timeRearm s = s := if_pos h

theorem timeRearm_unarmed (h : s.on TIME_STAT_STEP_ARMED = false) : timeRearm s =
    (s.pb TIME_STAT_STEP_ARMED true).p TIME_DISC_COUNT ((s.g TIME_DISC_COUNT + 1) % 2 ^ 32) := by
  unfold timeRearm
  rw [if_neg (by simp [h])]

/-! ## An accepted step -/

/-- The counter moved by `o` nanoseconds, and the flags of a step taken. -/
def stepped (o : Int) (s : State) : State :=
  let n := ((s.time.toNs : Int) + o).toNat
  let s1 := { s with time := { s.time with sec := n / 1000000000 % 2 ^ 48, ns := n % 1000000000 }, net.step := none }
  ((s1.pb TIME_STAT_STEP_ARMED false).pb TIME_STAT_STEPPED true).p TIME_STAT_STEP_RESULT 0

theorem stepped_time (o : Int) (s : State) : (stepped o s).time =
    { s.time with sec := ((s.time.toNs : Int) + o).toNat / 1000000000 % 2 ^ 48, ns := ((s.time.toNs : Int) + o).toNat % 1000000000 } :=
  rfl

theorem stepped_toNs (o : Int) (s : State) :
    (stepped o s).time.toNs = ((s.time.toNs : Int) + o).toNat % (2 ^ 48 * 1000000000) := by
  rw [stepped_time]
  simp only [Time.toNs]
  generalize ((s.time.toNs : Int) + o).toNat = n
  rw [Nat.mul_comm (2 ^ 48), Nat.mod_mul]
  omega

theorem stepDue_eq {o : Int} (h : s.net.step = some o) : stepDue s =
    if o ≤ 0 then stepped o s else overN 8 (fun k s => if s.on (TPO_CTRL_ENABLE k) then tpoCatch k s else s) (stepped o s) := by
  unfold stepDue stepped
  rw [h]

end

/-! ## Outputs whose edges have passed -/

section
variable {s t : State} {k : Nat}

/-- What an output's catching up leaves: the counter, the step that waits, what is shown, and every register but the
output's own. -/
def CaughtUp (s t : State) : Prop :=
  t.time = s.time ∧ t.net.step = s.net.step ∧ t.out = s.out ∧ Alike (· < 0x104100) s t

theorem CaughtUp.refl (s : State) : CaughtUp s s := ⟨rfl, rfl, rfl, .refl s⟩

theorem CaughtUp.tpoEnd (h : CaughtUp s t) : CaughtUp s (tpoEnd k t) := by
  obtain ⟨htime, hstep, hout, hregs⟩ := h
  unfold Machine.tpoEnd
  dsimp only
  split
  · exact ⟨htime, hstep, hout, (hregs.pb _ (by unfold TPO_CTRL_ENABLE TPO_CTRL; dsimp only; omega)).pb _
      (by unfold TPO_STAT_DONE TPO_STAT; dsimp only; omega)⟩
  · exact ⟨htime, hstep, hout, hregs⟩

theorem CaughtUp.modTpo (f : Tpo → Tpo) (h : CaughtUp s t) : CaughtUp s (modTpo k f t) := h

theorem CaughtUp.missed (n : Nat) (h : CaughtUp s t) :
    CaughtUp s ((t.p (TPO_STAT_MISSED k) n).pb (TPO_STAT_LATE k) true) := by
  obtain ⟨htime, hstep, hout, hregs⟩ := h
  exact ⟨htime, hstep, hout, (hregs.p _ (by unfold TPO_STAT_MISSED TPO_STAT; dsimp only; omega)).pb _
    (by unfold TPO_STAT_LATE TPO_STAT; dsimp only; omega)⟩

theorem CaughtUp.tpoCatch (h : CaughtUp s t) : CaughtUp s (tpoCatch k t) := by
  unfold Machine.tpoCatch
  dsimp only
  split
  · split
    · exact h.modTpo _
    · exact h
  · generalize (if t.g (TPO_CTRL_COUNT k) ≠ 0 then _ else _ : Nat) = j
    split
    · exact h
    · exact ((h.missed _).modTpo _).tpoEnd

theorem caughtUp_stepDue {o : Int} (h : s.net.step = some o) : CaughtUp (stepped o s) (stepDue s) := by
  rw [stepDue_eq h]
  split
  · exact .refl _
  · refine overN_keeps (P := CaughtUp (stepped o s)) 8 _ (fun k t _ ht => ?_) _ (.refl _)
    split
    · exact ht.tpoCatch
    · exact ht

end

theorem stepDue_spec {s : State} {o : Int} (h : s.net.step = some o) :
    (stepDue s).time.toNs = ((s.time.toNs : Int) + o).toNat % (2 ^ 48 * 1000000000) ∧ (stepDue s).time.frac = s.time.frac ∧
      (stepDue s).on TIME_STAT_STEP_ARMED = false ∧ (stepDue s).on TIME_STAT_STEPPED = true ∧
      (stepDue s).g TIME_STAT_STEP_RESULT = 0 ∧ (stepDue s).net.step = none ∧ (stepDue s).out = s.out := by
  obtain ⟨htime, hstep, hout, hregs⟩ := caughtUp_stepDue h
  have hlow : TIME_STAT < 0x104100 := by decide
  refine ⟨by rw [htime, stepped_toNs], by rw [htime, stepped_time], ?_, ?_, ?_, hstep, hout⟩
  · rw [hregs.on hlow]
    unfold stepped
    simp (disch := exact clear_const rfl) only [on_p_clear, on_pb_clear]
    exact on_pb_same _ _ rfl
  · rw [hregs.on hlow]
    unfold stepped
    simp (disch := exact clear_const rfl) only [on_p_clear]
    exact on_pb_same _ _ rfl
  · rw [hregs.g hlow]
    exact g_p_self _ _ _ (by decide)

/-- Settles O12: what each write and the step's tick do. -/
theorem timeCounter : Obligations.TimeCounter := by
  unfold Obligations.TimeCounter
  intro s v o
  refine ⟨fun hr hlo hhi => .of_hostAt rfl hr ?_, fun hr hbad => .of_hostAt rfl hr ?_, fun hr hs hre ha hns hsum => .of_hostAt rfl hr ?_,
    fun hr hs hre ha => .of_hostAt rfl hr ?_, fun hr hs hre ha hbad => .of_hostAt rfl hr ?_, fun hr ha hre hs => .of_hostAt rfl hr ?_,
    fun hr ha hre hs => .of_hostAt rfl hr ?_, fun h _ => stepDue_spec h⟩
  · rw [timeIncWrite_ok ⟨hlo, hhi⟩]
    refine ⟨rfl, ?_, (onlyRegs_refl _ s).p _ _ (by decide), rfl, rfl⟩
    exact (g_p_self s TIME_INC_NS_VALUE _ (by decide)).trans (Nat.mod_eq_of_lt (by unfold TIME_INC_NS_VALUE; dsimp only; omega))
  · rw [timeIncWrite_refused (by unfold incOk; omega)]
    exact ⟨rfl, on_pb_same _ _ rfl, (onlyRegs_refl _ s).pb _ _ (by decide), rfl, rfl⟩
  · rw [timeCtrlWrite_step hs hre, timeStep_waits ha hns hsum]
  · rw [timeCtrlWrite_step hs hre, timeStep_unarmed ha]
    exact ⟨rfl, rfl, g_p_self _ _ _ (by decide), (onlyRegs_refl _ s).p _ _ (by decide)⟩
  · rw [timeCtrlWrite_step hs hre, timeStep_refused ha hbad]
    exact ⟨rfl, rfl, g_p_self _ _ _ (by decide), (onlyRegs_refl _ s).p _ _ (by decide)⟩
  · rw [timeCtrlWrite_rearm hs hre, timeRearm_unarmed ha]
    refine ⟨?_, ?_, rfl, ((onlyRegs_refl _ s).pb _ _ (by decide)).p _ _ (by decide)⟩
    · rw [on_p_clear _ _ (clear_const rfl)]
      exact on_pb_same _ _ rfl
    · exact (g_p_self _ TIME_DISC_COUNT _ (by decide)).trans (Nat.mod_mod _ _)
  · rw [timeCtrlWrite_rearm hs hre, timeRearm_armed ha]

end Sys2Proof.Machine
end

section
/-!
PROOFS. The timed pulse outputs (spec/17_network_time.md R368-R370): an output starts, rises, falls and stops.
-/

namespace Sys2Proof.Machine

open Reg

set_option Elab.async false

section
variable (s : State) (f : Fld)

/-- A ball driven, no register written. -/
theorem drive_regs (cls inst sig : Nat) (o : Out) :
    (s.drive cls inst sig o).part = s.part ∧ (s.drive cls inst sig o).rev = s.rev ∧ (s.drive cls inst sig o).regs = s.regs := by
  have hk := kept_State_drive (K := (· = .regs)) (by decide) cls inst sig o (.refl s)
  exact ⟨hk.part, hk.rev, hk.same .regs rfl⟩

theorem g_drive (cls inst sig : Nat) (o : Out) : (s.drive cls inst sig o).g f = s.g f :=
  g_eq_of_regs f (drive_regs s cls inst sig o)

theorem on_drive (cls inst sig : Nat) (o : Out) : (s.drive cls inst sig o).on f = s.on f :=
  on_eq_of_g (g_drive s f cls inst sig o)

end

/-- A ball that PINMAP places shows what is driven on it. -/
theorem drive_out {s : State} {cls inst sig : Nat} (h : s.mapped cls inst sig = true) (o : Out) :
    (s.drive cls inst sig o).out = s.out ++ [o] := by
  unfold State.drive
  rw [if_pos h]
  rfl

/-! ## An output's level -/

section
variable (s : State) (k : Nat) (level : Bool)

@[simp] theorem tpoU_modTpo (f : Tpo → Tpo) : tpoU (modTpo k f s) k = f (tpoU s k) := bankGet_put_self _ _ _ _

theorem g_modTpo (g : Fld) (f : Tpo → Tpo) : (modTpo k f s).g g = s.g g := rfl

theorem on_modTpo (g : Fld) (f : Tpo → Tpo) : (modTpo k f s).on g = s.on g := rfl

theorem tpoSet_net : (tpoSet k level s).net = s.net :=
  (kept_State_drive (K := (· = .net)) (by decide) _ _ _ _ (kept_State_pb (by decide) _ _ (.refl s))).same .net rfl

@[simp] theorem tpoU_tpoSet (j : Nat) : tpoU (tpoSet k level s) j = tpoU s j := by
  unfold tpoU
  rw [tpoSet_net]

theorem tpoSet_high : (tpoSet k level s).on (TPO_STAT_HIGH k) = level := by
  unfold tpoSet
  rw [on_drive]
  exact on_pb_same _ _ rfl

theorem tpoSet_g {f : Fld} (h : Clear f (TPO_STAT_HIGH k)) : (tpoSet k level s).g f = s.g f := by
  unfold tpoSet
  rw [g_drive]
  exact g_pb_clear _ _ h

theorem tpoSet_on {f : Fld} (h : Clear f (TPO_STAT_HIGH k)) : (tpoSet k level s).on f = s.on f :=
  on_eq_of_g (tpoSet_g s k level h)

theorem tpoSet_out (h : s.mapped 0x59 k 0 = true) :
    (tpoSet k level s).out = s.out ++ [.tpoPin k (level != s.on (TPO_CTRL_POL k))] := by
  unfold tpoSet
  exact drive_out (s := s.pb (TPO_STAT_HIGH k) level) h _

theorem tpoSet_alike {Z : Nat → Prop} {r : State} (h : Alike Z r s) (hz : ¬ Z (TPO_STAT k)) : Alike Z r (tpoSet k level s) :=
  Alike.of_regs (h.pb level hz) (drive_regs _ _ _ _ _)

end

/-! ## The control register -/

section
variable {s : State} {k : Nat} {v : Word}

/-- COUNT and POL as written. -/
def tpoTaken (k : Nat) (v : Word) (s : State) : State :=
  (s.p (TPO_CTRL_COUNT k) (fieldOf (TPO_CTRL_COUNT k) v)).p (TPO_CTRL_POL k) (fieldOf (TPO_CTRL_POL k) v)

theorem tpoTaken_g {f : Fld} (hc : Clear f (TPO_CTRL_COUNT k)) (hp : Clear f (TPO_CTRL_POL k)) :
    (tpoTaken k v s).g f = s.g f := (g_p_clear _ _ hp).trans (g_p_clear _ _ hc)

theorem fieldOf_mod (f : Fld) (v : Word) : fieldOf f v % 2 ^ f.w = fieldOf f v := bitsOf_mod _ _ _

theorem tpoTaken_count : (tpoTaken k v s).g (TPO_CTRL_COUNT k) = fieldOf (TPO_CTRL_COUNT k) v := by
  have hpol : Clear (TPO_CTRL_COUNT k) (TPO_CTRL_POL k) := clear_inst rfl
  unfold tpoTaken
  rw [g_p_clear _ _ hpol, g_p_self _ _ _ (show 16 + 16 ≤ 32 by decide), fieldOf_mod]

theorem tpoTaken_pol : (tpoTaken k v s).g (TPO_CTRL_POL k) = fieldOf (TPO_CTRL_POL k) v :=
  (g_p_self _ _ _ (show 1 + 1 ≤ 32 by decide)).trans (fieldOf_mod _ _)

theorem tpoCtrlWrite_start (hspoil : s.on (TPO_STAT_SPOIL k) = false) (hoff : s.on (TPO_CTRL_ENABLE k) = false)
    (hen : fieldOf (TPO_CTRL_ENABLE k) v = 1) : tpoCtrlWrite k v s = tpoStart k (tpoTaken k v s) := by
  unfold tpoCtrlWrite
  simp only [hspoil, hoff, hen, Bool.false_eq_true, if_false, beq_self_eq_true, if_true]
  rfl

/-- A running output takes no other COUNT or POL. -/
def tpoKept (k : Nat) (v : Word) (s : State) : State :=
  if [TPO_CTRL_COUNT k, TPO_CTRL_POL k].all fun f => fieldOf f v == s.g f then s else s.pb (TPO_STAT_CFG_ERR k) true

theorem tpoCtrlWrite_stop (hspoil : s.on (TPO_STAT_SPOIL k) = false) (hon : s.on (TPO_CTRL_ENABLE k) = true)
    (hen : fieldOf (TPO_CTRL_ENABLE k) v = 0) : tpoCtrlWrite k v s = tpoStop k (tpoKept k v s) := by
  unfold tpoCtrlWrite
  simp only [hspoil, hon, hen, Bool.false_eq_true, if_false, if_true, beq_iff_eq, Nat.zero_ne_one]
  rfl

theorem tpoEdgeAt_congr {t : State} (hs : t.g (TPO_START_S_LO_VALUE k) = s.g (TPO_START_S_LO_VALUE k))
    (hh : t.g (TPO_START_S_HI_VALUE k) = s.g (TPO_START_S_HI_VALUE k)) (hn : t.g (TPO_START_NS_VALUE k) = s.g (TPO_START_NS_VALUE k))
    (hp : t.g (TPO_PERIOD_VALUE k) = s.g (TPO_PERIOD_VALUE k)) (j : Nat) : tpoEdgeAt t k j = tpoEdgeAt s k j := by
  unfold tpoEdgeAt
  rw [hs, hh, hn, hp]

/-- A run whose next edge is not behind the counter catches up with nothing. -/
theorem tpoCatch_fresh (hu : tpoU s k = {}) (h : s.time.toNs ≤ tpoEdgeAt s k 0) : tpoCatch k s = s := by
  have hnext : (tpoU s k).next = 0 := by rw [hu]
  have hfirst : tpoFirst s k 0 s.time.toNs = 0 := if_pos h
  unfold tpoCatch
  dsimp only
  rw [hnext, hfirst]
  split
  · rw [if_neg (by omega)]
  · rw [Nat.min_zero, ite_self]
    exact if_pos rfl

/-- The run as ENABLE starts it. -/
def tpoBegun (k : Nat) (s : State) : State := modTpo k (fun _ => {}) (s.pb (TPO_CTRL_ENABLE k) true)

theorem tpoStart_begun (hp : 8 ≤ s.g (TPO_PERIOD_VALUE k)) (hw : 4 ≤ s.g (TPO_WIDTH_VALUE k))
    (hwp : s.g (TPO_WIDTH_VALUE k) + 4 ≤ s.g (TPO_PERIOD_VALUE k)) (h : s.time.toNs ≤ tpoEdgeAt s k 0) :
    tpoStart k s = tpoBegun k s := by
  unfold tpoStart
  dsimp only
  rw [if_pos ⟨hp, hw, hwp⟩]
  refine tpoCatch_fresh (tpoU_modTpo _ _ _) (h.trans_eq ?_)
  exact (tpoEdgeAt_congr (g_pb_clear _ _ (clear_inst rfl)) (g_pb_clear _ _ (clear_inst rfl)) (g_pb_clear _ _ (clear_inst rfl))
    (g_pb_clear _ _ (clear_inst rfl)) 0).symm

theorem tpoStart_refused (h : s.g (TPO_PERIOD_VALUE k) < 8 ∨ s.g (TPO_WIDTH_VALUE k) < 4 ∨
    s.g (TPO_PERIOD_VALUE k) < s.g (TPO_WIDTH_VALUE k) + 4) : tpoStart k s = s.pb (TPO_STAT_CFG_ERR k) true := by
  unfold tpoStart
  dsimp only
  rw [if_neg (by omega)]

/-! ## The end of a pulse, and of a run -/

/-- The run's last edge is past and no pulse is in progress. -/
def tpoDone (s : State) (k : Nat) : Prop :=
  s.g (TPO_CTRL_COUNT k) ≠ 0 ∧ s.g (TPO_CTRL_COUNT k) ≤ (tpoU s k).next ∧ (tpoU s k).fall = none

theorem tpoEnd_done (h : tpoDone s k) : tpoEnd k s = (s.pb (TPO_CTRL_ENABLE k) false).pb (TPO_STAT_DONE k) true := if_pos h

theorem tpoEnd_open (h : ¬ tpoDone s k) : tpoEnd k s = s := if_neg h

/-- The pulse in progress ended. -/
def tpoLow (k : Nat) (s : State) : State := tpoSet k false (modTpo k (fun u => { u with fall := none }) s)

theorem tpoFall_eq {e : Nat} (hf : (tpoU s k).fall = some e) (he : e ≤ s.time.toNs) (hrose : (tpoU s k).rose < s.clock) :
    tpoFall k s = tpoEnd k (tpoLow k s) := by
  unfold tpoFall
  rw [hf]
  exact if_pos ⟨he, hrose⟩

theorem tpoLow_count : (tpoLow k s).g (TPO_CTRL_COUNT k) = s.g (TPO_CTRL_COUNT k) := tpoSet_g _ _ _ (clear_inst rfl)

theorem tpoLow_enable : (tpoLow k s).on (TPO_CTRL_ENABLE k) = s.on (TPO_CTRL_ENABLE k) := tpoSet_on _ _ _ (clear_inst rfl)

theorem tpoLow_unit : tpoU (tpoLow k s) k = { tpoU s k with fall := none } :=
  (tpoU_tpoSet _ _ _ _).trans (tpoU_modTpo _ _ _)

/-- The output is low, with its pulse at an end and its edges as they were. -/
def PulseEnded (k : Nat) (s t : State) : Prop :=
  t.on (TPO_STAT_HIGH k) = false ∧ (tpoU t k).fall = none ∧ (tpoU t k).next = (tpoU s k).next ∧ t.out = (tpoLow k s).out ∧
    OnlyRegs [TPO_CTRL k, TPO_STAT k] s t

theorem pulseEnded_low : PulseEnded k s (tpoLow k s) := by
  refine ⟨tpoSet_high _ _ _, by rw [tpoLow_unit], by rw [tpoLow_unit], rfl, ?_⟩
  exact tpoSet_alike _ _ _ (Z := (· ∉ [TPO_CTRL k, TPO_STAT k])) (.refl s) (by simp)

theorem pulseEnded_end : PulseEnded k s (tpoEnd k (tpoLow k s)) := by
  obtain ⟨hhigh, hfall, hnext, hout, hregs⟩ := pulseEnded_low (s := s) (k := k)
  by_cases hd : tpoDone (tpoLow k s) k
  · rw [tpoEnd_done hd]
    have hdone : Clear (TPO_STAT_HIGH k) (TPO_STAT_DONE k) := clear_inst rfl
    have hen : Clear (TPO_STAT_HIGH k) (TPO_CTRL_ENABLE k) := clear_inst rfl
    refine ⟨?_, hfall, hnext, hout, (hregs.pb _ _ (by simp [TPO_CTRL_ENABLE])).pb _ _ (by simp [TPO_STAT_DONE])⟩
    rw [on_pb_clear _ _ hdone, on_pb_clear _ _ hen, hhigh]
  · rw [tpoEnd_open hd]
    exact ⟨hhigh, hfall, hnext, hout, hregs⟩

theorem enable_tpoEnd : (tpoEnd k (tpoLow k s)).on (TPO_CTRL_ENABLE k) = (s.on (TPO_CTRL_ENABLE k) &&
    !(s.g (TPO_CTRL_COUNT k) != 0 && decide (s.g (TPO_CTRL_COUNT k) ≤ (tpoU s k).next))) := by
  have hiff : tpoDone (tpoLow k s) k ↔ (s.g (TPO_CTRL_COUNT k) != 0 && decide (s.g (TPO_CTRL_COUNT k) ≤ (tpoU s k).next)) = true := by
    unfold tpoDone
    rw [tpoLow_count, tpoLow_unit]
    simp
  by_cases hd : tpoDone (tpoLow k s) k
  · have hdone : Clear (TPO_CTRL_ENABLE k) (TPO_STAT_DONE k) := clear_inst rfl
    rw [tpoEnd_done hd, hiff.mp hd, on_pb_clear _ _ hdone, on_pb_same _ _ rfl, Bool.not_true, Bool.and_false]
  · have hopen := mt hiff.mpr hd
    rw [Bool.not_eq_true] at hopen
    rw [tpoEnd_open hd, tpoLow_enable, hopen, Bool.not_false, Bool.and_true]

theorem tpoLow_out (h : s.mapped 0x59 k 0 = true) : (tpoLow k s).out = s.out ++ [.tpoPin k (s.on (TPO_CTRL_POL k))] := by
  have hset := tpoSet_out (modTpo k (fun u => { u with fall := none }) s) k false h
  rw [Bool.false_bne] at hset
  exact hset

/-! ## A rising edge -/

/-- The pulse of the next edge begun. -/
def tpoBegin (k : Nat) (s : State) : State :=
  modTpo k (fun u => ⟨u.next + 1, some (tpoEdgeAt s k (tpoU s k).next + s.g (TPO_WIDTH_VALUE k)), false, s.clock⟩) s

/-- The output risen for its next edge. -/
def tpoRisen (k : Nat) (s : State) : State :=
  tpoSet k true (if (tpoU s k).late then (tpoBegin k s).pb (TPO_STAT_LATE k) true else tpoBegin k s)

theorem tpoEdge_eq (hen : s.on (TPO_CTRL_ENABLE k) = true) (hn : s.g (TPO_CTRL_COUNT k) = 0 ∨ (tpoU s k).next < s.g (TPO_CTRL_COUNT k))
    (he : tpoEdgeAt s k (tpoU s k).next ≤ s.time.toNs) :
    tpoEdge k s = dmaSource 2 k ((tpoRisen k s).event (.tpo k)) := by
  unfold tpoEdge
  dsimp only
  rw [if_pos ⟨hen, hn, he⟩]
  rfl

theorem tpoRisen_high : (tpoRisen k s).on (TPO_STAT_HIGH k) = true := tpoSet_high _ _ _

theorem tpoRisen_unit : tpoU (tpoRisen k s) k =
    ⟨(tpoU s k).next + 1, some (tpoEdgeAt s k (tpoU s k).next + s.g (TPO_WIDTH_VALUE k)), false, s.clock⟩ := by
  unfold tpoRisen
  rw [tpoU_tpoSet]
  have hlate (t : State) : tpoU (t.pb (TPO_STAT_LATE k) true) k = tpoU t k := rfl
  split
  · rw [hlate]
    exact tpoU_modTpo _ _ _
  · exact tpoU_modTpo _ _ _

theorem tpoRisen_out (h : s.mapped 0x59 k 0 = true) : (tpoRisen k s).out = s.out ++ [.tpoPin k (!s.on (TPO_CTRL_POL k))] := by
  have hlate : ((tpoBegin k s).pb (TPO_STAT_LATE k) true).on (TPO_CTRL_POL k) = s.on (TPO_CTRL_POL k) :=
    on_pb_clear _ _ (clear_inst rfl)
  unfold tpoRisen
  split
  · rw [tpoSet_out _ _ _ (by exact h), hlate, Bool.true_bne]
    rfl
  · rw [tpoSet_out _ _ _ (by exact h), Bool.true_bne]
    rfl

theorem tpoRisen_prefix : s.out <+: (tpoRisen k s).out := by
  unfold tpoRisen
  refine List.IsPrefix.trans ?_ (kept_State_drive (K := fun _ => False) id _ _ _ _ (.refl _)).shown
  split <;> exact List.prefix_refl _

end

/-! ## DMA channels that wait for the pulse -/

theorem stat_dma {n : Nat} (hn : n < 64) : ¬ DMA_STAT n < 0x208000 := by unfold DMA_STAT; omega

theorem dmaRun_alike {s t : State} {n : Nat} (h : Alike (· < 0x208000) s t) (hn : n < 64) : Alike (· < 0x208000) s (dmaRun n t) := by
  have hfold (l : List Nat) (f : Dma → Dma) : Alike (· < 0x208000) s (l.foldl (fun s m => modDma m f s) t) :=
    h.of_kept (kept_foldl (fun _ _ hk => kept_modDma (by decide) _ _ hk) (.refl t))
  unfold dmaRun
  exact Alike.p (Alike.of_kept (hfold _ _) (kept_modDma (by decide) _ _ (.refl _))) _ (stat_dma hn)

theorem dmaPulse_alike {s t : State} {n : Nat} (h : Alike (· < 0x208000) s t) (hn : n < 64) : Alike (· < 0x208000) s (dmaPulse n t) := by
  unfold dmaPulse
  refine .ite h (.ite (h.pb _ (stat_dma hn)) ?_)
  unfold dmaTake
  refine .ite ?_ (h.p _ (stat_dma hn))
  unfold dmaPastTrigger
  have hpend := (h.p (f := DMA_STAT_PEND n) (t.g (DMA_STAT_PEND n) + 1) (stat_dma hn))
  refine .ite (Alike.of_kept (hpend.p _ (stat_dma hn)) (kept_modDma (by decide) _ _ (.refl _))) ?_
  exact dmaRun_alike (hpend.p _ (stat_dma hn)) hn

theorem dmaSource_alike {s t : State} (src idx : Nat) (h : Alike (· < 0x208000) s t) :
    Alike (· < 0x208000) s (dmaSource src idx t) :=
  h.overN fun _ _ hn hu => .ite (dmaPulse_alike hu hn) hu

/-! ## The obligation -/

section
variable {s : State} {k : Nat} {v : Word}

theorem spec_tpoBegun : (tpoBegun k (tpoTaken k v s)).on (TPO_CTRL_ENABLE k) = true ∧
    tpoU (tpoBegun k (tpoTaken k v s)) k = {} ∧
    (tpoBegun k (tpoTaken k v s)).g (TPO_CTRL_COUNT k) = fieldOf (TPO_CTRL_COUNT k) v ∧
    (tpoBegun k (tpoTaken k v s)).g (TPO_CTRL_POL k) = fieldOf (TPO_CTRL_POL k) v ∧
    (tpoBegun k (tpoTaken k v s)).out = s.out ∧ OnlyRegs [TPO_CTRL k] s (tpoBegun k (tpoTaken k v s)) := by
  have hcount : Clear (TPO_CTRL_COUNT k) (TPO_CTRL_ENABLE k) := clear_inst rfl
  have hpol : Clear (TPO_CTRL_POL k) (TPO_CTRL_ENABLE k) := clear_inst rfl
  unfold tpoBegun
  refine ⟨?_, tpoU_modTpo _ _ _, ?_, ?_, rfl, ?_⟩
  · rw [on_modTpo]
    exact on_pb_same _ _ rfl
  · rw [g_modTpo, g_pb_clear _ _ hcount, tpoTaken_count]
  · rw [g_modTpo, g_pb_clear _ _ hpol, tpoTaken_pol]
  · have htaken : OnlyRegs [TPO_CTRL k] s (tpoTaken k v s) :=
      ((onlyRegs_refl _ s).p _ _ (by simp [TPO_CTRL_COUNT])).p _ _ (by simp [TPO_CTRL_POL])
    exact (htaken.pb (TPO_CTRL_ENABLE k) true (by simp [TPO_CTRL_ENABLE])).of_reg fun _ => rfl

theorem tpoTaken_only : OnlyRegs [TPO_CTRL k, TPO_STAT k] s (tpoTaken k v s) :=
  ((onlyRegs_refl _ s).p _ _ (by simp [TPO_CTRL_COUNT])).p _ _ (by simp [TPO_CTRL_POL])

theorem tpoTaken_on {f : Fld} (hc : Clear f (TPO_CTRL_COUNT k)) (hp : Clear f (TPO_CTRL_POL k)) :
    (tpoTaken k v s).on f = s.on f := on_eq_of_g (tpoTaken_g hc hp)

/-- The output stopped. -/
theorem spec_tpoStop : (tpoStop k s).on (TPO_CTRL_ENABLE k) = false ∧ (tpoStop k s).on (TPO_STAT_HIGH k) = false ∧
    tpoU (tpoStop k s) k = {} ∧
    (s.mapped 0x59 k 0 = true → (tpoStop k s).out = s.out ++ [.tpoPin k (s.on (TPO_CTRL_POL k))]) ∧
    OnlyRegs [TPO_CTRL k, TPO_STAT k] s (tpoStop k s) := by
  have hpol : Clear (TPO_CTRL_POL k) (TPO_CTRL_ENABLE k) := clear_inst rfl
  unfold tpoStop
  refine ⟨?_, tpoSet_high _ _ _, (tpoU_tpoSet _ _ _ _).trans (tpoU_modTpo _ _ _), fun hm => ?_, ?_⟩
  · refine (tpoSet_on _ _ _ (clear_inst rfl)).trans ?_
    rw [on_modTpo]
    exact on_pb_same _ _ rfl
  · rw [tpoSet_out _ _ _ (by exact hm), on_modTpo, on_pb_clear _ _ hpol, Bool.false_bne]
    rfl
  · refine tpoSet_alike _ _ _ (Z := (· ∉ [TPO_CTRL k, TPO_STAT k])) (Alike.of_regs (t := s.pb (TPO_CTRL_ENABLE k) false)
      (Alike.pb (.refl s) _ (by simp [TPO_CTRL_ENABLE])) ⟨rfl, rfl, rfl⟩) (by simp)

theorem tpoKept_on {f : Fld} (h : Clear f (TPO_STAT_CFG_ERR k)) : (tpoKept k v s).on f = s.on f := by
  unfold tpoKept
  split
  · rfl
  · exact on_pb_clear _ _ h

theorem tpoKept_kept : Kept (fun p => p = .out ∨ p = .rig) s (tpoKept k v s) :=
  kept_ite (.refl s) (kept_State_pb (by decide) _ _ (.refl s))

theorem tpoKept_only : OnlyRegs [TPO_CTRL k, TPO_STAT k] s (tpoKept k v s) :=
  (onlyRegs_refl _ s).ite ((onlyRegs_refl _ s).pb _ _ (by simp [TPO_STAT_CFG_ERR]))

/-- What the pulse of a rising edge does after the output has risen. -/
theorem tpoEdge_kept (hen : s.on (TPO_CTRL_ENABLE k) = true)
    (hn : s.g (TPO_CTRL_COUNT k) = 0 ∨ (tpoU s k).next < s.g (TPO_CTRL_COUNT k))
    (he : tpoEdgeAt s k (tpoU s k).next ≤ s.time.toNs) :
    Kept (fun p => p = .out ∨ p = .net) ((tpoRisen k s).event (.tpo k)) (tpoEdge k s) ∧
      Alike (· < 0x208000) ((tpoRisen k s).event (.tpo k)) (tpoEdge k s) := by
  rw [tpoEdge_eq hen hn he]
  exact ⟨kept_dmaSource (by decide) (by decide) _ _ (.refl _), dmaSource_alike _ _ (.refl _)⟩

theorem high_below (hk : k < 8) : (TPO_STAT_HIGH k).off < 0x208000 := by
  unfold TPO_STAT_HIGH TPO_STAT
  dsimp only
  omega

end

/-- Settles O13: ENABLE, a rising edge, the end of a pulse and the end of a run. -/
theorem timedPulseOutputs : Obligations.TimedPulseOutputs := by
  unfold Obligations.TimedPulseOutputs
  intro s k v e
  have hcfg : Clear (TPO_CTRL_ENABLE k) (TPO_STAT_CFG_ERR k) := clear_inst rfl
  refine ⟨fun hr hspoil hoff hen hp hw hwp hedge => .of_hostAt rfl hr ?_, fun hr hspoil hoff hen hbad => .of_hostAt rfl hr ?_,
    fun hr hspoil hon hen => .of_hostAt rfl hr ?_, fun hd hon hn he hle => .of_live rfl hd ?_,
    fun hd hfall hle hrose => .of_live rfl hd ?_⟩
  · have hg (f : Fld) (hc : Clear f (TPO_CTRL_COUNT k)) (hp : Clear f (TPO_CTRL_POL k)) := tpoTaken_g (v := v) (s := s) hc hp
    rw [tpoCtrlWrite_start hspoil hoff hen, tpoStart_begun]
    · exact spec_tpoBegun
    · exact hp.trans_eq (hg _ (clear_inst rfl) (clear_inst rfl)).symm
    · exact hw.trans_eq (hg _ (clear_inst rfl) (clear_inst rfl)).symm
    · rw [hg (TPO_WIDTH_VALUE k) (clear_inst rfl) (clear_inst rfl), hg (TPO_PERIOD_VALUE k) (clear_inst rfl) (clear_inst rfl)]
      exact hwp
    · exact hedge.trans_eq (tpoEdgeAt_congr (hg _ (clear_inst rfl) (clear_inst rfl)) (hg _ (clear_inst rfl) (clear_inst rfl))
        (hg _ (clear_inst rfl) (clear_inst rfl)) (hg _ (clear_inst rfl) (clear_inst rfl)) 0).symm
  · have hperiod := tpoTaken_g (v := v) (s := s) (k := k) (f := TPO_PERIOD_VALUE k) (clear_inst rfl) (clear_inst rfl)
    have hwidth := tpoTaken_g (v := v) (s := s) (k := k) (f := TPO_WIDTH_VALUE k) (clear_inst rfl) (clear_inst rfl)
    rw [tpoCtrlWrite_start hspoil hoff hen, tpoStart_refused (by rw [hperiod, hwidth]; exact hbad)]
    refine ⟨?_, on_pb_same _ _ rfl, rfl, rfl, tpoTaken_only.pb _ _ (by simp [TPO_STAT_CFG_ERR])⟩
    rw [on_pb_clear _ _ hcfg]
    exact (tpoTaken_on (clear_inst rfl) (clear_inst rfl)).trans hoff
  · obtain ⟨hoff, hlow, hunit, hout, hregs⟩ := spec_tpoStop (s := tpoKept k v s) (k := k)
    have hkept := tpoKept_kept (k := k) (v := v) (s := s)
    rw [tpoCtrlWrite_stop hspoil hon hen]
    refine ⟨hoff, hlow, hunit, fun hm => ?_, tpoKept_only.trans hregs⟩
    have hpin := hout (by unfold State.mapped; rw [hkept.same .rig (.inr rfl)]; exact hm)
    rw [tpoKept_on (f := TPO_CTRL_POL k) (clear_inst rfl), hkept.same .out (.inl rfl)] at hpin
    rw [shown_of_append hpin]
    exact List.mem_singleton_self _
  · obtain ⟨hkept, hregs⟩ := tpoEdge_kept hon hn (he ▸ hle)
    have hnet : (tpoEdge k s).net = ((tpoRisen k s).event (.tpo k)).net := hkept.same .net (.inr rfl)
    have hout : (tpoEdge k s).out = ((tpoRisen k s).event (.tpo k)).out := hkept.same .out (.inl rfl)
    have hunit : tpoU (tpoEdge k s) k = tpoU (tpoRisen k s) k := by
      unfold tpoU
      rw [hnet]
      rfl
    have hev : (tpoEdge k s).out = (tpoRisen k s).out ++ [.event (.tpo k)] := hout
    obtain ⟨l, hl⟩ := tpoRisen_prefix (s := s) (k := k)
    refine ⟨(hregs.on (high_below k.isLt)).trans tpoRisen_high, ?_, ?_, ?_, ?_, fun hm => ?_⟩
    · rw [hunit, tpoRisen_unit]
    · rw [hunit, tpoRisen_unit, he]
    · rw [hunit, tpoRisen_unit]
    · rw [← hl, List.append_assoc] at hev
      rw [shown_of_append hev]
      simp
    · rw [tpoRisen_out hm, List.append_assoc] at hev
      rw [shown_of_append hev]
      simp
  · obtain ⟨hlow, hnone, hnext, hout, hregs⟩ := pulseEnded_end (s := s) (k := k)
    rw [tpoFall_eq hfall hle hrose]
    refine ⟨hlow, hnone, hnext, enable_tpoEnd, fun hm => ?_, hregs⟩
    rw [shown_of_append (hout.trans (tpoLow_out hm))]
    exact List.mem_singleton_self _

end Sys2Proof.Machine
end

section
/-!
PROOFS. DRAM training (spec/18_dram.md R379-R383): each word of the program, the end of a channel's training, and the saving
of its results.
-/

namespace Sys2Proof.Machine

open Reg

set_option Elab.async false

/-! ## The end of a channel's training -/

section
variable {s t : State} {n : Nat}

theorem ddrU_modDdr (f : Ddr → Ddr) (s : State) : ddrU (modDdr n f s) n = f (ddrU s n) := bankGet_put_self _ _ _ _

theorem ddrU_modDdr_other {m : Nat} (h : m ≠ n) (f : Ddr → Ddr) (s : State) : ddrU (modDdr n f s) m = ddrU s m :=
  bankGet_put_other _ _ _ _ _ _ h

/-- What is common to every check for the end of training: the DRAM units, memory and what is shown stand, and so does the
TRAINED bit of each channel. -/
def Checked (s t : State) : Prop :=
  t.dram = s.dram ∧ t.mem = s.mem ∧ t.out = s.out ∧ ∀ m, t.on (DDR_STAT_TRAINED m) = s.on (DDR_STAT_TRAINED m)

theorem Checked.refl (s : State) : Checked s s := ⟨rfl, rfl, rfl, fun _ => rfl⟩

theorem Checked.p (h : Checked s t) {f : Fld} (v : Nat) (hf : ∀ m, Clear (DDR_STAT_TRAINED m) f) : Checked s (t.p f v) := by
  obtain ⟨hdram, hmem, hout, hon⟩ := h
  exact ⟨hdram, hmem, hout, fun m => (on_p_clear _ _ (hf m)).trans (hon m)⟩

theorem Checked.ite {c : Prop} [Decidable c] {u : State} (h : Checked s t) (k : Checked s u) : Checked s (if c then t else u) := by
  split
  · exact h
  · exact k

theorem clear_trained_scrubbing (m n : Nat) : Clear (DDR_STAT_TRAINED m) (DDR_STAT_SCRUBBING n) :=
  ⟨by unfold DDR_STAT_SCRUBBING; dsimp only; omega, .inr (.inl (by unfold DDR_STAT_TRAINED DDR_STAT_SCRUBBING; dsimp only; omega))⟩

theorem Checked.scrubSync (h : Checked s t) : Checked s (scrubSync t) := by
  unfold Machine.scrubSync
  generalize channels t = l
  induction l generalizing t with
  | nil => exact h
  | cons m r ih => exact ih (h.p _ fun _ => clear_trained_scrubbing _ _)

theorem clear_trained_tstat (m l w : Nat) (h : l + w ≤ 32) : Clear (DDR_STAT_TRAINED m) ⟨DRAM_TSTAT, l, w⟩ :=
  ⟨h, .inl (by unfold DDR_STAT_TRAINED DDR_STAT DRAM_TSTAT; dsimp only; omega)⟩

theorem clear_trained_engine (m : Nat) : Clear (DDR_STAT_TRAINED m) REP_STAT_ENGINE :=
  ⟨by decide, .inl (by unfold DDR_STAT_TRAINED DDR_STAT REP_STAT_ENGINE REP_STAT; dsimp only; omega)⟩

theorem Checked.trainCheck (ms : Nat) (h : Checked s t) : Checked s (trainCheck ms t) := by
  have htstat (l w : Nat) (hw : l + w ≤ 32) := fun m => clear_trained_tstat m l w hw
  have hms : Checked s (t.p DRAM_TSTAT_MS ms) := h.p _ (htstat _ _ (by decide))
  unfold Machine.trainCheck State.setEngine
  refine .ite (h.p _ (htstat _ _ (by decide))) (.ite ?_ (Checked.scrubSync ?_))
  · have hfailed := hms.p (f := DRAM_TSTAT_STATE) 4 (htstat _ _ (by decide))
    exact .ite (hfailed.p _ clear_trained_engine) hfailed
  · have hdone := fun v => (hms.p (f := DRAM_TSTAT_STATE) 3 (htstat _ _ (by decide))).p (f := DRAM_TSTAT_SOURCE) v
      (htstat _ _ (by decide))
    exact .ite ((hdone _).p _ clear_trained_engine) (hdone _)

/-- The flags of a training at its end. -/
def trainedFlags (ms src : Nat) (s : State) : State := ((s.p DRAM_TSTAT_MS ms).p DRAM_TSTAT_STATE 3).p DRAM_TSTAT_SOURCE src

/-- STANDBY entered from bring-up, the flags shown. -/
theorem g_trainedFlags (ms src : Nat) (s : State) {f : Fld} (h : Clear f REP_STAT_ENGINE) :
    (if (trainedFlags ms src s).engine = Eng.unrigged then (trainedFlags ms src s).setEngine Eng.standby
      else trainedFlags ms src s).g f = (trainedFlags ms src s).g f := by
  split
  · exact g_p_clear _ _ h
  · rfl

theorem trainedFlags_state (ms src : Nat) (s : State) :
    (if (trainedFlags ms src s).engine = Eng.unrigged then (trainedFlags ms src s).setEngine Eng.standby
      else trainedFlags ms src s).g DRAM_TSTAT_STATE = 3 := by
  have hsrc : Clear DRAM_TSTAT_STATE DRAM_TSTAT_SOURCE := clear_const rfl
  rw [g_trainedFlags _ _ _ (clear_const rfl)]
  unfold trainedFlags
  rw [g_p_clear _ _ hsrc]
  exact g_p_self _ _ _ (by decide)

theorem trainedFlags_ms (ms src : Nat) (s : State) :
    (if (trainedFlags ms src s).engine = Eng.unrigged then (trainedFlags ms src s).setEngine Eng.standby
      else trainedFlags ms src s).g DRAM_TSTAT_MS = ms % 2 ^ 16 := by
  have hsrc : Clear DRAM_TSTAT_MS DRAM_TSTAT_SOURCE := clear_const rfl
  have hstate : Clear DRAM_TSTAT_MS DRAM_TSTAT_STATE := clear_const rfl
  rw [g_trainedFlags _ _ _ (clear_const rfl)]
  unfold trainedFlags
  rw [g_p_clear _ _ hsrc, g_p_clear _ _ hstate]
  exact g_p_self _ _ _ (by decide)

/-- With every channel in use trained the training is over. -/
theorem trainCheck_over {ms : Nat} (h : ∀ m ∈ channels s, (ddrU s m).mode = 3) :
    (trainCheck ms s).g DRAM_TSTAT_STATE = 3 ∧ (trainCheck ms s).g DRAM_TSTAT_MS = ms % 2 ^ 16 := by
  have hall : ((channels s).map fun m => (ddrU s m).mode).all (fun m => m == 3 || m == 4) = true := by
    simp only [List.all_map, List.all_eq_true, Function.comp_apply]
    intro m hm
    rw [h m hm]
    rfl
  have hnone : ((channels s).map fun m => (ddrU s m).mode).contains 4 = false := by
    rw [List.contains_eq_any_beq, List.any_map, List.any_eq_false]
    intro m hm
    simp [h m hm]
  have hscrub (f : Fld) (hf : ∀ m, Clear f (DDR_STAT_SCRUBBING m)) (t : State) : (scrubSync t).g f = t.g f := by
    unfold scrubSync
    generalize channels t = l
    induction l generalizing t with
    | nil => rfl
    | cons m r ih => exact (ih _).trans (g_pb_clear _ _ (hf m))
  have htstat (l w m : Nat) : Clear ⟨DRAM_TSTAT, l, w⟩ (DDR_STAT_SCRUBBING m) :=
    ⟨by unfold DDR_STAT_SCRUBBING; dsimp only; omega, .inl (by unfold DDR_STAT_SCRUBBING DDR_STAT DRAM_TSTAT; dsimp only; omega)⟩
  unfold trainCheck
  dsimp only
  rw [hall, hnone, if_neg (by decide), if_neg (by decide)]
  exact ⟨(hscrub _ (htstat _ _) _).trans (trainedFlags_state _ _ _), (hscrub _ (htstat _ _) _).trans (trainedFlags_ms _ _ _)⟩

end

/-! ## Words of the program -/

section
variable {s : State} {n w : Nat}

/-- The channel trained. -/
def channelTrained (n : Nat) (s : State) : State := modDdr n (fun d => { d with mode := 3 }) (s.pb (DDR_STAT_TRAINED n) true)

theorem trainEnd_eq {ms : Nat} (h : trainWord s n 0 = some w) : trainEnd n ms s = trainCheck ms (channelTrained n s) := by
  unfold trainEnd
  rw [h]
  rfl

theorem trainMrw_eq (h : trainWord s n 1 = some w) : trainMrw n s =
    trainNext n (s.emit (.dram n 1 (bitsOf w 24 2 * 256 + bitsOf w 16 8) (bitsOf w 8 8))) := by
  unfold trainMrw
  rw [h]

theorem trainWait_eq (h : trainWord s n 3 = some w) : trainWait n s = trainNext n s := by
  unfold trainWait
  rw [h]

theorem trainZqcal_eq (h : trainWord s n 4 = some w) : trainZqcal n s = trainNext n (s.emit (.dram n 4 (bitsOf w 24 2) 0)) := by
  unfold trainZqcal
  rw [h]

theorem trainPhase_wide {eye res ms : Nat} (h : trainWord s n 2 = some w) (he : bitsOf w 8 8 ≤ eye) :
    trainPhase n eye res ms s = modDdr n (fun d => { d with results := d.results ++ [(bitsOf w 24 4, res)] }) (trainNext n s) := by
  unfold trainPhase
  rw [h]
  exact if_neg (by omega)

theorem trainPhase_narrow {eye res ms : Nat} (h : trainWord s n 2 = some w) (he : eye < bitsOf w 8 8)
    (hr : (ddrU s n).runs = 0) :
    trainPhase n eye res ms s = modDdr n (fun d => { d with runs := 1, pc := 0, results := [] }) s := by
  unfold trainPhase
  rw [h]
  exact (if_pos he).trans (if_pos hr)

theorem ddrU_trainNext (s : State) : ddrU (trainNext n s) n = { ddrU s n with pc := (ddrU s n).pc + 1 } := ddrU_modDdr _ _

theorem checked_trained (ms : Nat) (s : State) : Checked (channelTrained n s) (trainCheck ms (channelTrained n s)) :=
  (Checked.refl _).trainCheck ms

theorem ddrU_of_dram {s t : State} (h : t.dram = s.dram) (m : Nat) : ddrU t m = ddrU s m := by
  unfold ddrU
  rw [h]

theorem ddrU_channelTrained (s : State) : ddrU (channelTrained n s) n = { ddrU s n with mode := 3 } := ddrU_modDdr _ _

theorem channels_channelTrained (s : State) : channels (channelTrained n s) = channels s := by
  have hcfg : (channelTrained n s).g DRAM_CFG_CHANNELS = s.g DRAM_CFG_CHANNELS := g_pb_clear s true (clear_below rfl)
  unfold channels
  rw [hcfg]

theorem mode_channelTrained {m : Nat} (h : m = n ∨ (ddrU s m).mode = 3) : (ddrU (channelTrained n s) m).mode = 3 := by
  by_cases he : m = n
  · rw [he, ddrU_channelTrained]
  · have hother : ddrU (channelTrained n s) m = ddrU s m := ddrU_modDdr_other he _ _
    rw [hother]
    exact h.resolve_left he

theorem spec_trainEnd {ms : Nat} (h : trainWord s n 0 = some w) : (ddrU (trainEnd n ms s) n).mode = 3 ∧
    (ddrU (trainEnd n ms s) n).results = (ddrU s n).results ∧ (trainEnd n ms s).on (DDR_STAT_TRAINED n) = true ∧
    ((channels s).all (fun m => m == n || (ddrU s m).mode == 3) = true →
      (trainEnd n ms s).g DRAM_TSTAT_STATE = 3 ∧ (trainEnd n ms s).g DRAM_TSTAT_MS = ms % 2 ^ 16) ∧
    (trainEnd n ms s).mem = s.mem ∧ (trainEnd n ms s).out = s.out := by
  obtain ⟨hdram, hmem, hout, hon⟩ := checked_trained (n := n) ms s
  have htrained : (channelTrained n s).on (DDR_STAT_TRAINED n) = true := on_pb_same s true rfl
  rw [trainEnd_eq h, ddrU_of_dram hdram, ddrU_channelTrained]
  refine ⟨rfl, rfl, (hon n).trans htrained, fun hall => trainCheck_over fun m hm => ?_, hmem, hout⟩
  rw [channels_channelTrained] at hm
  have hm' := List.all_eq_true.mp hall m hm
  simp only [Bool.or_eq_true, beq_iff_eq] at hm'
  exact mode_channelTrained hm'

/-! ## Saved results -/

/-- The channel trained by results that verify. -/
def savedTrained (n : Nat) (r : List (Nat × Nat)) (s : State) : State :=
  modDdr n (fun d => { d with mode := 3, results := r }) (s.pb (DDR_STAT_TRAINED n) true)

theorem savedVerify_pass {ms : Nat} (hc : (channels s).contains n = true) (hm : (ddrU s n).mode = 2) :
    ∃ r, savedVerify n true ms s = trainCheck ms (savedTrained n r s) := by
  unfold savedVerify
  rw [if_pos ⟨hc, hm⟩]
  exact ⟨_, rfl⟩

/-- The channel that runs the program after all. -/
def programAfterAll (n : Nat) (s : State) : State :=
  let s1 := modDdr n (fun d => { d with mode := 1 }) s
  { s1 with dram := { s1.dram with full := true } }

theorem savedVerify_fail {ms : Nat} (hc : (channels s).contains n = true) (hm : (ddrU s n).mode = 2) :
    savedVerify n false ms s = trainCheck ms (programAfterAll n s) := by
  unfold savedVerify
  rw [if_pos ⟨hc, hm⟩]
  rfl

theorem ddrU_programAfterAll (s : State) : ddrU (programAfterAll n s) n = { ddrU s n with mode := 1 } :=
  ddrU_modDdr (n := n) (fun d => { d with mode := 1 }) s

/-! ## DRAM_TCTRL -/

variable {v : Word}

/-- The write of TCTRL before its commands. -/
def tctrlTaken (v : Word) (s : State) : State := s.plainWrite DRAM_TCTRL v

theorem tctrlTaken_g {f : Fld} (h : f.off ≠ DRAM_TCTRL) : (tctrlTaken v s).g f = s.g f := g_plainWrite_of_off h

theorem tctrlTaken_dram : (tctrlTaken v s).dram = s.dram := plainWrite_dram _ _ _

theorem nvmWindow_congr {s t : State} (h : t.g THM_TJ_TJ = s.g THM_TJ_TJ) : nvmWindow t = nvmWindow s := by
  unfold nvmWindow State.gi
  rw [h]

theorem nvmWindow_tctrlTaken : nvmWindow (tctrlTaken v s) = nvmWindow s := nvmWindow_congr (tctrlTaken_g (by decide))

/-- The DRAM units at a new value. -/
def withDram (d : DramU) (s : State) : State := { s with dram := d }

theorem on_withDram (d : DramU) (s : State) (f : Fld) : (withDram d s).on f = s.on f := rfl

theorem reg_withDram (d : DramU) (s : State) (off : Nat) : (withDram d s).reg off = s.reg off := rfl

theorem dram_withDram (d : DramU) (s : State) : (withDram d s).dram = d := rfl

/-- SAVE waits for the window. -/
def savePending (s : State) : State := withDram { s.dram with saveWait := true } (s.pb DRAM_TSTAT_SAVE_PEND true)

theorem tctrlWrite_save (hs : fieldOf DRAM_TCTRL_SAVE v = 1) (hf : fieldOf DRAM_TCTRL_FORGET v = 0)
    (hst : s.g DRAM_TSTAT_STATE = 3) (hsrc : s.g DRAM_TSTAT_SOURCE = 1) : tctrlWrite v s =
      if nvmWindow s then trainStore (tctrlTaken v s) else savePending (tctrlTaken v s) := by
  have hst' : (tctrlTaken v s).g DRAM_TSTAT_STATE = 3 := (tctrlTaken_g (by decide)).trans hst
  have hsrc' : (tctrlTaken v s).g DRAM_TSTAT_SOURCE = 1 := (tctrlTaken_g (by decide)).trans hsrc
  have hwin : nvmWindow (tctrlTaken v s) = nvmWindow s := nvmWindow_tctrlTaken
  unfold tctrlTaken at *
  unfold tctrlWrite
  dsimp only
  rw [if_pos hf, if_pos ⟨hs, hst', hsrc'⟩, hwin]
  rfl

theorem tctrlWrite_forget (hf : fieldOf DRAM_TCTRL_FORGET v = 1) (hs : fieldOf DRAM_TCTRL_SAVE v = 0)
    (hw : nvmWindow s = true) : tctrlWrite v s = trainErase (tctrlTaken v s) := by
  have hwin : nvmWindow (tctrlTaken v s) = true := nvmWindow_tctrlTaken.trans hw
  unfold tctrlTaken at *
  unfold tctrlWrite
  dsimp only
  rw [if_neg (show ¬ fieldOf DRAM_TCTRL_FORGET v = 0 by omega), if_pos hwin,
    if_neg (fun h => absurd h.1 (show ¬ fieldOf DRAM_TCTRL_SAVE v = 1 by omega))]

theorem tctrlTaken_only : OnlyRegs [DRAM_TCTRL, DRAM_TSTAT] s (tctrlTaken v s) := (onlyRegs_refl _ s).plainWrite _ _ (by simp)

theorem savePending_spec (s : State) : (savePending s).dram.saved = s.dram.saved ∧
    (savePending s).on DRAM_TSTAT_SAVE_PEND = true ∧ OnlyRegs [DRAM_TCTRL, DRAM_TSTAT] s (savePending s) := by
  unfold savePending
  rw [dram_withDram, on_withDram]
  exact ⟨rfl, on_pb_same s true rfl, ((onlyRegs_refl _ s).pb _ _ (by decide)).of_reg (reg_withDram _ _)⟩

theorem trainErase_spec (s : State) : (trainErase s).dram.saved = none ∧
    (trainErase s).on DRAM_TSTAT_SAVED_VALID = false ∧ OnlyRegs [DRAM_TCTRL, DRAM_TSTAT] s (trainErase s) :=
  ⟨rfl, on_pb_same s false rfl, (onlyRegs_refl _ s).pb DRAM_TSTAT_SAVED_VALID false (by decide)⟩

theorem trainStore_saved (s : State) : (trainStore s).dram.saved =
    some ((trainTag s).1, (trainTag s).2, (List.range 2).map fun n => (ddrU s n).results) := rfl

theorem trainStore_only (s : State) : OnlyRegs [DRAM_TCTRL, DRAM_TSTAT] s (trainStore s) :=
  OnlyRegs.pb (OnlyRegs.pb (t := { s with dram := { s.dram with
      saved := some ((trainTag s).1, (trainTag s).2, (List.range 2).map fun n => (ddrU s n).results), saveWait := false } })
    (fun _ _ => rfl) _ _ (by decide)) _ _ (by decide)

theorem trainStore_flags (s : State) :
    (trainStore s).on DRAM_TSTAT_SAVED_VALID = true ∧ (trainStore s).on DRAM_TSTAT_SAVE_PEND = false := by
  have hclear : Clear DRAM_TSTAT_SAVE_PEND DRAM_TSTAT_SAVED_VALID := clear_const rfl
  unfold trainStore
  dsimp only
  refine ⟨on_pb_same _ _ rfl, ?_⟩
  rw [on_pb_clear _ _ hclear]
  exact on_pb_same _ _ rfl

end

/-- Settles O18: a channel's program word by word, its saved results, and the writes of DRAM_TCTRL. -/
theorem dramTraining : Obligations.DramTraining := by
  unfold Obligations.DramTraining
  intro s n w ms eye res v
  refine ⟨fun hd hw => .of_live rfl hd ?_, fun hd hw => .of_live rfl hd ?_, fun hd hw he => .of_live rfl hd ?_,
    fun hd hw he hr => .of_live rfl hd ?_, fun hd hw => .of_live rfl hd ?_, fun hd hw => .of_live rfl hd ?_,
    fun hd hc hm => .of_live rfl hd ?_, fun hd hc hm => .of_live rfl hd ?_, fun hr hs hf hst hsrc hwin => .of_hostAt rfl hr ?_,
    fun hr hs hf hst hsrc hwin => .of_hostAt rfl hr ?_, fun hr hf hs hwin => .of_hostAt rfl hr ?_⟩
  · have hspec := spec_trainEnd (ms := ms.toNat) hw
    rw [Nat.mod_eq_of_lt ms.isLt] at hspec
    exact hspec
  · rw [trainMrw_eq hw]
    exact ⟨congrArg Ddr.pc (ddrU_trainNext _), rfl, rfl⟩
  · rw [trainPhase_wide hw he, ddrU_modDdr, ddrU_trainNext]
    exact ⟨rfl, rfl, rfl, rfl⟩
  · rw [trainPhase_narrow hw he hr, ddrU_modDdr]
    exact ⟨rfl, rfl, rfl, rfl, rfl⟩
  · rw [trainWait_eq hw, ddrU_trainNext]
    exact ⟨rfl, rfl, rfl⟩
  · rw [trainZqcal_eq hw]
    exact ⟨congrArg Ddr.pc (ddrU_trainNext _), rfl, rfl⟩
  · obtain ⟨r, hr⟩ := savedVerify_pass (ms := ms.toNat) hc hm
    obtain ⟨hdram, hmem, hout, hon⟩ := (Checked.refl (savedTrained n r s)).trainCheck ms.toNat
    have htrained : (savedTrained n r s).on (DDR_STAT_TRAINED n) = true := on_pb_same s true rfl
    rw [hr, ddrU_of_dram hdram]
    exact ⟨congrArg Ddr.mode (ddrU_modDdr _ _), (hon n).trans htrained, hmem, hout⟩
  · obtain ⟨hdram, hmem, hout, -⟩ := (Checked.refl (programAfterAll n s)).trainCheck ms.toNat
    rw [savedVerify_fail hc hm, ddrU_of_dram hdram, ddrU_programAfterAll, hdram]
    exact ⟨rfl, rfl, hmem, hout⟩
  · rw [tctrlWrite_save hs hf hst hsrc, if_pos hwin, trainStore_saved]
    obtain ⟨hvalid, hpend⟩ := trainStore_flags (tctrlTaken v s)
    refine ⟨?_, hvalid, hpend, tctrlTaken_only.trans (trainStore_only _)⟩
    unfold trainTag ddrU
    rw [tctrlTaken_dram]
  · rw [tctrlWrite_save hs hf hst hsrc, if_neg (by rw [hwin]; decide)]
    obtain ⟨hsaved, hpend, honly⟩ := savePending_spec (tctrlTaken v s)
    exact ⟨hsaved.trans (congrArg DramU.saved tctrlTaken_dram), hpend, tctrlTaken_only.trans honly⟩
  · rw [tctrlWrite_forget hf hs hwin]
    obtain ⟨hsaved, hvalid, honly⟩ := trainErase_spec (tctrlTaken v s)
    exact ⟨hsaved, hvalid, tctrlTaken_only.trans honly⟩

end Sys2Proof.Machine
end

section
/-!
PROOFS. The rules of the power sequencer (spec/14_power_supervision.md R308-R322): what its shared operations do to a slot,
to the ledger and to the power state, and what they leave alone.
-/

namespace Sys2Proof.Machine

open Reg

set_option Elab.async false

/-! ## The sequencer's part of the state -/

section
variable (u : PwrU) (s : State)

@[simp] theorem setPwr_pwr : (setPwr u s).pwr = u := rfl
@[simp] theorem setPwr_reg (off : Nat) : (setPwr u s).reg off = s.reg off := rfl
@[simp] theorem setPwr_g (f : Fld) : (setPwr u s).g f = s.g f := rfl
@[simp] theorem setPwr_on (f : Fld) : (setPwr u s).on f = s.on f := rfl
@[simp] theorem setPwr_out : (setPwr u s).out = s.out := rfl
@[simp] theorem setPwr_clock : (setPwr u s).clock = s.clock := rfl
@[simp] theorem setPwr_mapped (c i k : Nat) : (setPwr u s).mapped c i k = s.mapped c i k := rfl

theorem Alike.setPwr {Z : Nat → Prop} {r t : State} (h : Alike Z r t) (u : PwrU) : Alike Z r (setPwr u t) := h

end

/-! ## A slot's enable -/

/-- The registers that a slot's enable level writes. -/
def enableRegs (r : Nat) : List Nat := [PWR_SLOT_STAT r, PWR_EN, PWR_GOOD]

section
variable {s : State} {r : Nat} {b : Bool}

theorem slotQual_alike {Z : Nat → Prop} {a : State} (h : Alike Z a s) (hz : ∀ off ∈ enableRegs r, ¬ Z off) :
    Alike Z a (slotQual r b s) := by
  unfold slotQual
  exact (h.pb _ (hz _ (by simp [enableRegs, PWR_SLOT_STAT_QUALIFIED]))).p _ (hz _ (by simp [enableRegs, PWR_GOOD_QUAL]))

theorem setEnable_alike {Z : Nat → Prop} {a : State} (h : Alike Z a s) (hz : ∀ off ∈ enableRegs r, ¬ Z off) :
    Alike Z a (setEnable r b s) := by
  have hstat : ¬ Z (PWR_SLOT_STAT r) := hz _ (by simp [enableRegs])
  have hactive := (h.pb (f := PWR_SLOT_STAT_ACTIVE r) b hstat).p (f := PWR_EN_ACTIVE) (setBit (s.g PWR_EN_ACTIVE) r b)
    (hz _ (by simp [enableRegs, PWR_EN_ACTIVE]))
  have hall (u : PwrU) : Alike Z a (setPwr u (if s.mapped 0x50 r 1 then
      (s.pb (PWR_SLOT_STAT_ACTIVE r) b).p PWR_EN_ACTIVE (setBit (s.g PWR_EN_ACTIVE) r b)
      else ((s.pb (PWR_SLOT_STAT_ACTIVE r) b).p PWR_EN_ACTIVE (setBit (s.g PWR_EN_ACTIVE) r b)).pb (PWR_SLOT_STAT_GOOD r) b)) :=
    (Alike.ite hactive (hactive.pb _ hstat)).setPwr u
  unfold setEnable
  exact .ite (hall _) (slotQual_alike (hall _) hz)

theorem setEnable_kept : Kept (fun p => p ≠ .regs ∧ p ≠ .pwr) s (setEnable r b s) :=
  kept_setEnable (by simp) (by simp) r b (.refl s)

/-- The level shown, before what follows it. -/
def enableShown (r : Nat) (b : Bool) (s : State) : State :=
  (s.pb (PWR_SLOT_STAT_ACTIVE r) b).p PWR_EN_ACTIVE (setBit (s.g PWR_EN_ACTIVE) r b)

theorem setEnable_mapped (hm : s.mapped 0x50 r 1 = true) : setEnable r b s =
    if b then setPwr { s.pwr with glitch := s.pwr.glitch.filter (· != r), ovHigh := s.pwr.ovHigh.filter (· != r) } (enableShown r b s)
    else slotQual r false
      (setPwr { s.pwr with glitch := s.pwr.glitch.filter (· != r), ovHigh := s.pwr.ovHigh.filter (· != r) } (enableShown r b s)) := by
  unfold setEnable
  dsimp only
  rw [if_pos hm]
  rfl

theorem slotQual_stat {f : Fld} (hq : Clear f (PWR_SLOT_STAT_QUALIFIED r)) (hg : f.off ≠ PWR_GOOD) : (slotQual r b s).g f = s.g f :=
  (g_p_clear _ _ ⟨by decide, .inl hg⟩).trans (g_pb_clear _ _ hq)

theorem slotQual_pwr : (slotQual r b s).pwr = s.pwr := rfl

theorem enableShown_stat {f : Fld} (ha : Clear f (PWR_SLOT_STAT_ACTIVE r)) (he : f.off ≠ PWR_EN) : (enableShown r b s).g f = s.g f :=
  (g_p_clear _ _ ⟨by decide, .inl he⟩).trans (g_pb_clear _ _ ha)

theorem stat_ne_en (f : Fld) (h : f.off = PWR_SLOT_STAT r) : f.off ≠ PWR_EN ∧ f.off ≠ PWR_GOOD := by
  rw [h]
  constructor <;> (unfold PWR_SLOT_STAT; first | (unfold PWR_EN; omega) | (unfold PWR_GOOD; omega))

theorem enableShown_active : (enableShown r b s).on (PWR_SLOT_STAT_ACTIVE r) = b := by
  have hen : Clear (PWR_SLOT_STAT_ACTIVE r) PWR_EN_ACTIVE := clear_above rfl
  unfold enableShown
  rw [on_p_clear _ _ hen]
  exact on_pb_same _ _ rfl

/-- A slot's level read back, and the good input of one whose PG ball is placed left as it was. -/
theorem setEnable_flags (hm : s.mapped 0x50 r 1 = true) : (setEnable r b s).on (PWR_SLOT_STAT_ACTIVE r) = b ∧
    (setEnable r b s).on (PWR_SLOT_STAT_GOOD r) = s.on (PWR_SLOT_STAT_GOOD r) := by
  have hgood : (enableShown r b s).on (PWR_SLOT_STAT_GOOD r) = s.on (PWR_SLOT_STAT_GOOD r) :=
    on_eq_of_g (enableShown_stat (clear_inst rfl) (stat_ne_en (r := r) _ rfl).1)
  have hactive : (enableShown r b s).on (PWR_SLOT_STAT_ACTIVE r) = b := enableShown_active
  have hqual (t : State) : (slotQual r false t).on (PWR_SLOT_STAT_ACTIVE r) = t.on (PWR_SLOT_STAT_ACTIVE r) ∧
      (slotQual r false t).on (PWR_SLOT_STAT_GOOD r) = t.on (PWR_SLOT_STAT_GOOD r) :=
    ⟨on_eq_of_g (slotQual_stat (clear_inst rfl) (stat_ne_en (r := r) _ rfl).2),
      on_eq_of_g (slotQual_stat (clear_inst rfl) (stat_ne_en (r := r) _ rfl).2)⟩
  rw [setEnable_mapped hm]
  cases b with
  | true => exact ⟨hactive, hgood⟩
  | false =>
    rw [if_neg (by decide), (hqual _).1, (hqual _).2]
    exact ⟨hactive, hgood⟩

theorem setEnable_pwr (hm : s.mapped 0x50 r 1 = true) : (setEnable r b s).pwr =
    { s.pwr with glitch := s.pwr.glitch.filter (· != r), ovHigh := s.pwr.ovHigh.filter (· != r) } := by
  rw [setEnable_mapped hm]
  cases b <;> rfl

/-- What an enable level leaves: a register that is neither the slot's status nor PWR_EN or PWR_GOOD. -/
theorem setEnable_g {f : Fld} (hf : f.off ∉ enableRegs r) : (setEnable r b s).g f = s.g f :=
  (setEnable_alike (Z := (· ∉ enableRegs r)) (.refl s) fun _ ho hn => hn ho).g hf

end

/-! ## The counters in NVM -/

section
variable (s : State)

theorem railNvm_kept : Kept (fun p => p ≠ .pwr) s (railNvm s) := kept_railNvm (by simp) (.refl s)

theorem railNvm_g (f : Fld) : (railNvm s).g f = s.g f :=
  have hk := railNvm_kept s
  g_eq_of_regs f ⟨hk.part, hk.rev, hk.same .regs (by decide)⟩

theorem railNvm_on (f : Fld) : (railNvm s).on f = s.on f := on_eq_of_g (railNvm_g s f)

theorem railNvm_reg (off : Nat) : (railNvm s).reg off = s.reg off :=
  have hk := railNvm_kept s
  reg_congr hk.part hk.rev (hk.same .regs (by decide)) off

theorem railNvm_pwr : ∃ cnt wait clr, (railNvm s).pwr = { s.pwr with nvmCnt := cnt, nvmWait := wait, clrWait := clr } := by
  unfold railNvm
  split
  · exact ⟨_, _, _, rfl⟩
  · exact ⟨_, _, _, rfl⟩

theorem railNvm_down : (railNvm s).pwr.down = s.pwr.down := by
  obtain ⟨_, _, _, hp⟩ := railNvm_pwr s
  rw [hp]

theorem railNvm_ledger : (railNvm s).pwr.ledger = s.pwr.ledger := by
  obtain ⟨_, _, _, hp⟩ := railNvm_pwr s
  rw [hp]

theorem railNvm_ovHigh : (railNvm s).pwr.ovHigh = s.pwr.ovHigh := by
  obtain ⟨_, _, _, hp⟩ := railNvm_pwr s
  rw [hp]

theorem railNvm_slotA : (railNvm s).pwr.slotA = s.pwr.slotA := by
  obtain ⟨_, _, _, hp⟩ := railNvm_pwr s
  rw [hp]

theorem railNvm_slotB : (railNvm s).pwr.slotB = s.pwr.slotB := by
  obtain ⟨_, _, _, hp⟩ := railNvm_pwr s
  rw [hp]

theorem railNvm_save : (railNvm s).pwr.save = s.pwr.save := by
  obtain ⟨_, _, _, hp⟩ := railNvm_pwr s
  rw [hp]

theorem railNvm_mapped (c i k : Nat) : (railNvm s).mapped c i k = s.mapped c i k := by
  unfold State.mapped
  rw [(railNvm_kept s).same .rig (by decide)]

end

/-! ## Shutdown -/

section
variable {s : State} {q : Nat}

/-- A slot of the ledger whose good input still stands, and has a TOFF to drop in. -/
structure Drops (s : State) (q : Nat) : Prop where
  last : s.pwr.ledger.getLast? = some q
  mapped : s.mapped 0x50 q 1 = true
  good : s.on (PWR_SLOT_STAT_GOOD q) = true
  toff : s.g (PWR_SLOT_CFG_TOFF q) ≠ 0

/-- The slot shut down, its good awaited. -/
def shutLast (q : Nat) (s : State) : State := setPwr { (setEnable q false s).pwr with wait := .drop q } (setEnable q false s)

theorem cfg_notMem_enableRegs (q : Nat) : (PWR_SLOT_CFG_TOFF q).off ∉ enableRegs q := by
  simp only [enableRegs, List.mem_cons, List.not_mem_nil, or_false, PWR_SLOT_CFG_TOFF, PWR_SLOT_CFG, PWR_SLOT_STAT, PWR_EN, PWR_GOOD]
  omega

theorem shutStep_drops (k : Nat) (h : Drops s q) : shutStep (k + 1) s = shutLast q s := by
  have hgood := (setEnable_flags (b := false) h.mapped).2.trans h.good
  have htoff : (setEnable q false s).g (PWR_SLOT_CFG_TOFF q) ≠ 0 := by
    rw [setEnable_g (cfg_notMem_enableRegs q)]
    exact h.toff
  unfold shutStep
  rw [h.last]
  exact if_pos ⟨hgood, htoff⟩

/-- A shutdown begun, its first slot not yet chosen. -/
def downBegun (d : Down) (s : State) : State :=
  setPwr { s.pwr with wait := .none, down := if s.pwr.down = some .off then some .off else some d }
    ((s.p PWR_STAT_STATE Pw.downSeq).pb PWR_STAT_RETRY_WAIT false)

theorem beginDown_eq (d : Down) (s : State) :
    beginDown d s = shutStep 32 (downBegun d (if pwState s = Pw.upSeq then railNvm s else s)) := rfl

theorem downBegun_g (d : Down) {f : Fld} (hs : Clear f PWR_STAT_STATE) (hr : Clear f PWR_STAT_RETRY_WAIT) :
    (downBegun d s).g f = s.g f := by
  unfold downBegun
  rw [setPwr_g, g_pb_clear _ _ hr, g_p_clear _ _ hs]

theorem downBegun_state (d : Down) : pwState (downBegun d s) = Pw.downSeq := by
  have hretry : Clear PWR_STAT_STATE PWR_STAT_RETRY_WAIT := clear_const rfl
  unfold pwState downBegun
  rw [setPwr_g, g_pb_clear _ _ hretry]
  exact g_p_self _ _ _ (by decide)

theorem Drops.downBegun (h : Drops s q) (d : Down) : Drops (downBegun d s) q :=
  ⟨h.last, h.mapped, (on_eq_of_g (downBegun_g d (clear_above rfl) (clear_above rfl))).trans h.good, by
    rw [downBegun_g (f := PWR_SLOT_CFG_TOFF q) d (clear_above rfl) (clear_above rfl)]
    exact h.toff⟩

theorem Drops.railNvm (h : Drops s q) : Drops (railNvm s) q := by
  obtain ⟨_, _, _, hp⟩ := railNvm_pwr s
  exact ⟨by rw [hp]; exact h.last, (railNvm_mapped s _ _ _).trans h.mapped, (railNvm_on s _).trans h.good, by
    rw [railNvm_g]; exact h.toff⟩

theorem beginDown_drops (d : Down) (h : Drops s q) :
    beginDown d s = shutLast q (downBegun d (if pwState s = Pw.upSeq then railNvm s else s)) := by
  rw [beginDown_eq]
  refine shutStep_drops 31 (Drops.downBegun ?_ d)
  split
  · exact h.railNvm
  · exact h

end

/-- A shutdown that waits for the drop of slot `q`, what the slot's enable writes apart. -/
structure Dropping (d : Option Down) (q : Nat) (s t : State) : Prop where
  state : pwState t = Pw.downSeq
  wait : t.pwr.wait = .drop q
  down : t.pwr.down = d
  active : t.on (PWR_SLOT_STAT_ACTIVE q) = false
  ledger : t.pwr.ledger = s.pwr.ledger
  ovHigh : t.pwr.ovHigh = s.pwr.ovHigh.filter (· != q)
  slotA : t.pwr.slotA = s.pwr.slotA
  slotB : t.pwr.slotB = s.pwr.slotB
  save : t.pwr.save = s.pwr.save
  out : t.out = s.out
  g : ∀ f : Fld, f.off ∉ enableRegs q → Clear f PWR_STAT_STATE → Clear f PWR_STAT_RETRY_WAIT → t.g f = s.g f

theorem dropping_shutLast {s : State} {q : Nat} {d : Down} (hm : s.mapped 0x50 q 1 = true) :
    Dropping (if s.pwr.down = some .off then some .off else some d) q s (shutLast q (downBegun d s)) where
  state := by
    have hstat : PWR_STAT_STATE.off ∉ enableRegs q := by
      simp only [enableRegs, List.mem_cons, List.not_mem_nil, or_false, PWR_STAT_STATE, PWR_STAT, PWR_SLOT_STAT, PWR_EN, PWR_GOOD]
      omega
    unfold pwState shutLast
    rw [setPwr_g, setEnable_g hstat]
    exact downBegun_state d
  wait := rfl
  down := by
    unfold shutLast
    rw [setPwr_pwr, setEnable_pwr (s := downBegun d s) hm]
    rfl
  active := (setEnable_flags (s := downBegun d s) (b := false) hm).1
  ledger := by
    unfold shutLast
    rw [setPwr_pwr, setEnable_pwr (s := downBegun d s) hm]
    rfl
  ovHigh := by
    unfold shutLast
    rw [setPwr_pwr, setEnable_pwr (s := downBegun d s) hm]
    rfl
  slotA := by
    unfold shutLast
    rw [setPwr_pwr, setEnable_pwr (s := downBegun d s) hm]
    rfl
  slotB := by
    unfold shutLast
    rw [setPwr_pwr, setEnable_pwr (s := downBegun d s) hm]
    rfl
  save := by
    unfold shutLast
    rw [setPwr_pwr, setEnable_pwr (s := downBegun d s) hm]
    rfl
  out := (setEnable_kept (s := downBegun d s) (r := q) (b := false)).same .out (by decide)
  g f hf hs hr := by
    unfold shutLast
    rw [setPwr_g, setEnable_g hf]
    exact downBegun_g d hs hr

/-- A shutdown begun where the last slot of the ledger has yet to drop. -/
theorem dropping_beginDown {s : State} {q : Nat} (d : Down) (h : Drops s q) :
    Dropping (if s.pwr.down = some .off then some .off else some d) q s (beginDown d s) := by
  rw [beginDown_drops d h]
  by_cases hu : pwState s = Pw.upSeq
  · rw [if_pos hu, ← railNvm_down]
    have hn := dropping_shutLast (d := d) h.railNvm.mapped
    exact ⟨hn.state, hn.wait, hn.down, hn.active, hn.ledger.trans (railNvm_ledger s),
      hn.ovHigh.trans (congrArg _ (railNvm_ovHigh s)), hn.slotA.trans (railNvm_slotA s), hn.slotB.trans (railNvm_slotB s),
      hn.save.trans (railNvm_save s), hn.out.trans ((railNvm_kept s).same .out (by decide)),
      fun f hf hs hr => (hn.g f hf hs hr).trans (railNvm_g s f)⟩
  · rw [if_neg hu]
    exact dropping_shutLast h.mapped

end Sys2Proof.Machine
end

section
/-!
PROOFS. PWR_CTRL (spec/14_power_supervision.md R310, R320, R322, R330): each of its commands written alone.
-/

namespace Sys2Proof.Machine

open Reg

set_option Elab.async false

section
variable {s : State} {v : Word}

/-! ## Each command alone -/

theorem pwrCtrlWrite_off (hclr : fieldOf PWR_CTRL_CNT_CLR v = 0) (hsave : fieldOf PWR_CTRL_SAVE v = 0)
    (hun : fieldOf PWR_CTRL_UNCLEAT v = 0) (hoff : fieldOf PWR_CTRL_OFF v = 1) : pwrCtrlWrite v s = pwrOff s := by
  unfold pwrCtrlWrite
  simp only [hclr, hsave, hun, hoff, Nat.zero_ne_one, if_false, if_true]

theorem pwrCtrlWrite_uncleat (hclr : fieldOf PWR_CTRL_CNT_CLR v = 0) (hsave : fieldOf PWR_CTRL_SAVE v = 0)
    (hun : fieldOf PWR_CTRL_UNCLEAT v = 1) (hoff : fieldOf PWR_CTRL_OFF v = 0) : pwrCtrlWrite v s = pwrUncleat s := by
  unfold pwrCtrlWrite
  simp only [hclr, hsave, hun, hoff, Nat.zero_ne_one, if_false, if_true]

theorem pwrCtrlWrite_save (hclr : fieldOf PWR_CTRL_CNT_CLR v = 0) (hsave : fieldOf PWR_CTRL_SAVE v = 1)
    (hun : fieldOf PWR_CTRL_UNCLEAT v = 0) (hoff : fieldOf PWR_CTRL_OFF v = 0) : pwrCtrlWrite v s = pwrSave s := by
  unfold pwrCtrlWrite
  simp only [hclr, hsave, hun, hoff, Nat.zero_ne_one, if_false, if_true]

theorem pwrCtrlWrite_clear (hclr : fieldOf PWR_CTRL_CNT_CLR v = 1) (hsave : fieldOf PWR_CTRL_SAVE v = 0)
    (hun : fieldOf PWR_CTRL_UNCLEAT v = 0) (hoff : fieldOf PWR_CTRL_OFF v = 0) :
    pwrCtrlWrite v s = pwrCntClr (fieldOf PWR_CTRL_CNT_SLOT v) s := by
  unfold pwrCtrlWrite
  simp only [hclr, hsave, hun, hoff, Nat.zero_ne_one, if_false, if_true]

/-! ## OFF -/

theorem offRequest_on (h : pwState s = Pw.on) : offRequest s = beginDown .off (s.pb PWR_STAT_ON_HELD false) := by
  have hst : pwState (s.pb PWR_STAT_ON_HELD false) = Pw.on := (g_pb_clear _ _ (clear_const rfl)).trans h
  unfold offRequest
  dsimp only
  rw [hst, if_neg (by decide), if_pos rfl]

theorem pwrOff_standby (h : s.engine = Eng.standby) : pwrOff s = offRequest s := by
  unfold pwrOff
  dsimp only
  rw [h, if_neg (by decide), if_pos (.inl rfl)]

theorem pwrOff_refused (h : s.engine = Eng.ready ∨ s.engine = Eng.printing ∨ s.engine = Eng.draining ∨ s.engine = Eng.hardstop) :
    pwrOff s = pwrRefuse s := by
  unfold pwrOff
  dsimp only
  rcases h with h | h | h | h <;> rw [h, if_neg (by decide), if_neg (by decide)]

theorem Drops.onHeld {q : Nat} (h : Drops s q) (b : Bool) : Drops (s.pb PWR_STAT_ON_HELD b) q :=
  ⟨h.last, h.mapped, (on_pb_clear _ _ (clear_above rfl)).trans h.good, by
    rw [g_pb_clear (f := PWR_STAT_ON_HELD) (k := PWR_SLOT_CFG_TOFF q) _ _ (clear_above rfl)]
    exact h.toff⟩

/-- An off request with the power ON shuts the last slot of the ledger down. -/
theorem dropping_offRequest {q : Nat} (hst : pwState s = Pw.on) (h : Drops s q) :
    Dropping (some .off) q (s.pb PWR_STAT_ON_HELD false) (offRequest s) := by
  have hd := dropping_beginDown .off (h.onHeld false)
  rw [ite_self] at hd
  rw [offRequest_on hst]
  exact hd

/-! ## UNCLEAT -/

theorem reachOff_state (s : State) : pwState (reachOff s) = Pw.off := by
  have heng : Clear PWR_STAT_STATE REP_STAT_ENGINE := clear_const rfl
  unfold pwState reachOff State.setEngine
  dsimp only
  split
  · rw [g_p_clear _ _ heng]
    exact g_p_self _ _ _ (by decide)
  · exact g_p_self _ _ _ (by decide)

theorem reachOff_engine (s : State) :
    (reachOff s).engine = if s.engine = Eng.furled then Eng.standby else s.engine := by
  have heng : (s.p PWR_STAT_STATE Pw.off).engine = s.engine := g_p_clear _ _ (clear_const rfl)
  unfold reachOff
  dsimp only
  rw [heng]
  split
  · exact g_p_self _ _ _ (by decide)
  · exact heng

theorem reachOff_pwr (s : State) : (reachOff s).pwr = s.pwr :=
  (kept_reachOff (K := (· = .pwr)) (by decide) (.refl s)).same .pwr rfl

/-! ## SAVE -/

/-- The input as it is now. -/
def vinNow (x y z : Nat) (s : State) : State :=
  ((s.p PWR_VIN_VIN (x % 65536)).p PWR_VIN_VSTAY (y % 65536)).pb PWR_STAT_VIN_LOW (decide (x % 65536 < 1170) || z % 2 == 1)

theorem vinSample_kept (s : State) : Kept (fun p => p = .pwr ∨ p = .out) s (vinSample s) :=
  kept_vinSample (by decide) (by decide) (.refl s)

theorem fresh_reg (s : State) (off : Nat) : s.fresh.2.reg off = s.reg off := rfl

theorem vinSample_eq (s : State) : vinSample s = vinNow s.fresh.1 s.fresh.2.fresh.1 s.fresh.2.fresh.2.fresh.1
    s.fresh.2.fresh.2.fresh.2 := by
  delta vinSample vinNow
  generalize s.fresh = a
  obtain ⟨x, s1⟩ := a
  dsimp only

theorem vinNow_only (x y z : Nat) (s : State) : OnlyRegs [PWR_STAT, PWR_VIN] s (vinNow x y z s) :=
  (((onlyRegs_refl _ s).p _ _ (by decide)).p _ _ (by decide)).pb _ _ (by decide)

theorem vinSample_only (s : State) : OnlyRegs [PWR_STAT, PWR_VIN] s (vinSample s) := by
  rw [vinSample_eq]
  refine OnlyRegs.trans (t := s.fresh.2.fresh.2.fresh.2) (fun off _ => ?_) (vinNow_only _ _ _ _)
  rw [fresh_reg, fresh_reg, fresh_reg]

/-- What a save that begins now says of itself. -/
def saveOf (cause : Nat) (s : State) : Save :=
  { begun := s.clock, cause := cause, power := pwState s, engine := s.engine, at_ := s.time, vstay := s.g PWR_VIN_VSTAY,
    tj := s.g THM_TJ_TJ, body := stayBody s }

section
variable (cause : Nat) (s : State)

theorem saveBegin_eq :
    saveBegin cause s = setPwr { s.pwr with save := some (saveOf cause s) } (s.pb PWR_STAT_SAVING true) := rfl

theorem saveBegin_saving : (saveBegin cause s).on PWR_STAT_SAVING = true := by
  rw [saveBegin_eq, setPwr_on]
  exact on_pb_same _ _ rfl

theorem saveBegin_pwr : (saveBegin cause s).pwr = { s.pwr with save := some (saveOf cause s) } := by
  rw [saveBegin_eq, setPwr_pwr]

theorem saveBegin_g {f : Fld} (h : Clear f PWR_STAT_SAVING) : (saveBegin cause s).g f = s.g f := by
  rw [saveBegin_eq, setPwr_g, g_pb_clear _ _ h]

theorem saveBegin_out : (saveBegin cause s).out = s.out := by
  rw [saveBegin_eq, setPwr_out, State.pb_out]

theorem saveBegin_only : OnlyRegs [PWR_STAT, PWR_VIN] s (saveBegin cause s) := by
  rw [saveBegin_eq]
  exact ((onlyRegs_refl _ s).pb _ _ (by decide)).of_reg (setPwr_reg _ _)

end

theorem pwrSave_begins (hs : s.on PWR_STAT_SAVING = false) (ha : s.on PWR_STAT_SAG_ARMED = true) :
    pwrSave s = saveBegin 2 (vinSample s) := by
  unfold pwrSave
  rw [if_neg (by simp [hs, ha])]

theorem pwrSave_refused (h : s.on PWR_STAT_SAVING = true ∨ s.on PWR_STAT_SAG_ARMED = false) : pwrSave s = pwrRefuse s := by
  unfold pwrSave
  rw [if_pos (by rcases h with h | h <;> simp [h])]

theorem pwrRefuse_eq (s : State) : pwrRefuse s = s.pb PWR_STAT_REFUSED true := rfl

theorem pwrRefuse_spec (s : State) : (pwrRefuse s).on PWR_STAT_REFUSED = true ∧ (pwrRefuse s).pwr = s.pwr ∧
    (pwrRefuse s).out = s.out ∧ OnlyRegs [PWR_STAT] s (pwrRefuse s) := by
  rw [pwrRefuse_eq]
  exact ⟨on_pb_same _ _ rfl, State.pb_pwr _ _ _, State.pb_out _ _ _, (onlyRegs_refl _ s).pb _ _ (by decide)⟩

/-! ## CNT_CLR -/

section
variable {r : Nat}

theorem railCnt_clear (j k : Fin 5) (h : j ≠ k) : Clear (railCnt r j) (railCnt r k) := by
  revert h
  fin_cases j <;> fin_cases k <;> intro h
  all_goals first
    | exact absurd rfl h
    | exact clear_inst rfl

theorem railCnt_width (k : Fin 5) : (railCnt r k).lo + (railCnt r k).w ≤ 32 := by
  fin_cases k <;> exact Nat.le_of_ble_eq_true rfl

/-- The registers of a slot's counters. -/
def cntRegs (r : Nat) : List Nat := [PWR_SLOT_CNT0 r, PWR_SLOT_CNT1 r, PWR_SLOT_CNT2 r]

theorem railCnt_off (k : Fin 5) : (railCnt r k).off ∈ cntRegs r := by
  fin_cases k <;> simp [railCnt, cntRegs, PWR_SLOT_CNT0_RISE_FAIL, PWR_SLOT_CNT0_CHATTER, PWR_SLOT_CNT1_DROOP,
    PWR_SLOT_CNT1_OVERV, PWR_SLOT_CNT2_RETRY]

theorem railCnt_zeroed (j k : Fin 5) {s : State} (h : j = k ∨ s.g (railCnt r j) = 0) :
    (s.p (railCnt r k) 0).g (railCnt r j) = 0 := by
  by_cases e : j = k
  · rw [e, g_p_self _ _ _ (railCnt_width k), Nat.zero_mod]
  · rw [g_p_clear _ _ (railCnt_clear j k e)]
    exact h.resolve_left e

/-- The five counters of a slot at 0. -/
def railZero (r : Nat) (s : State) : State :=
  ((((s.p (railCnt r 0) 0).p (railCnt r 1) 0).p (railCnt r 2) 0).p (railCnt r 3) 0).p (railCnt r 4) 0

theorem railZero_g (j : Fin 5) (s : State) : (railZero r s).g (railCnt r j) = 0 := by
  refine railCnt_zeroed j 4 (or_iff_not_imp_left.mpr fun h4 => railCnt_zeroed j 3 (or_iff_not_imp_left.mpr fun h3 =>
    railCnt_zeroed j 2 (or_iff_not_imp_left.mpr fun h2 => railCnt_zeroed j 1 (or_iff_not_imp_left.mpr fun h1 =>
      railCnt_zeroed j 0 (.inl ?_)))))
  omega

theorem railZero_alike {Z : Nat → Prop} (s : State) (hz : ∀ off ∈ cntRegs r, ¬ Z off) : Alike Z s (railZero r s) := by
  have h (k : Fin 5) : ¬ Z (railCnt r k).off := hz _ (railCnt_off k)
  exact (((((Alike.refl s).p _ (h 0)).p _ (h 1)).p _ (h 2)).p _ (h 3)).p _ (h 4)

theorem railZero_out (s : State) : (railZero r s).out = s.out := by
  unfold railZero
  rw [State.p_out, State.p_out, State.p_out, State.p_out, State.p_out]

theorem railZero_pwr (s : State) : (railZero r s).pwr = s.pwr := by
  unfold railZero
  rw [State.p_pwr, State.p_pwr, State.p_pwr, State.p_pwr, State.p_pwr]

theorem railZero_window (s : State) : nvmWindow (railZero r s) = nvmWindow s :=
  nvmWindow_congr ((railZero_alike (Z := (· ∉ cntRegs r)) s fun _ ho hn => hn ho).g (by
    simp only [cntRegs, List.mem_cons, List.not_mem_nil, or_false, THM_TJ_TJ, THM_TJ, PWR_SLOT_CNT0, PWR_SLOT_CNT1, PWR_SLOT_CNT2]
    omega))

theorem pwrCntClr_eq (s : State) : pwrCntClr r s = if nvmWindow s then railNvmClr r (railZero r s)
    else setPwr { s.pwr with clrWait := r :: s.pwr.clrWait.filter (· != r) } (railZero r s) := by
  have hz : (List.range 5).foldl (fun s k => s.p (railCnt r k) 0) s = railZero r s := rfl
  unfold pwrCntClr
  dsimp only
  rw [hz, railZero_window, railZero_pwr]

theorem bankGet_zeroed {b : Bank Nat} (i j : Nat) (h : j = i ∨ bankGet 0 b j = 0) : bankGet 0 (bankPut 0 i 0 b) j = 0 := by
  by_cases e : j = i
  · rw [e, bankGet_put_self]
  · rw [bankGet_put_other _ _ _ _ _ _ e]
    exact h.resolve_left e

/-- Five NVM counters of a slot at 0. -/
def bankZero (r : Nat) (b : Bank Nat) : Bank Nat := (List.range 5).foldl (fun b k => bankPut 0 (8 * r + k) 0 b) b

theorem bankZero_get (j : Fin 5) (b : Bank Nat) : bankGet 0 (bankZero r b) (8 * r + j) = 0 := by
  refine bankGet_zeroed (8 * r + 4) _ (or_iff_not_imp_left.mpr fun h4 => bankGet_zeroed (8 * r + 3) _ (or_iff_not_imp_left.mpr fun h3 =>
    bankGet_zeroed (8 * r + 2) _ (or_iff_not_imp_left.mpr fun h2 => bankGet_zeroed (8 * r + 1) _ (or_iff_not_imp_left.mpr fun h1 =>
      bankGet_zeroed (8 * r + 0) _ (.inl ?_)))))
  have hj := j.isLt
  omega

/-- What CNT_CLR writes of the sequencer's part. -/
theorem pwrCntClr_cases (s : State) : ∃ u : PwrU, pwrCntClr r s = setPwr u (railZero r s) ∧ u.nvmWait = s.pwr.nvmWait ∧
    u.ledger = s.pwr.ledger ∧ (if nvmWindow s then ∀ k : Fin 5, bankGet 0 u.nvmCnt (8 * r + k) = 0
      else u.nvmCnt = s.pwr.nvmCnt ∧ r ∈ u.clrWait) := by
  rw [pwrCntClr_eq]
  split
  · refine ⟨{ s.pwr with nvmCnt := bankZero r s.pwr.nvmCnt }, ?_, rfl, rfl,
      fun k => bankZero_get k _⟩
    unfold railNvmClr
    rw [railZero_pwr]
    rfl
  · exact ⟨_, rfl, rfl, rfl, rfl, List.mem_cons_self⟩

end
end

/-- Settles O27: each command bit alone is one operation of the sequencer. -/
theorem powerControlWrites : Obligations.PowerControlWrites := by
  unfold Obligations.PowerControlWrites
  intro s v q hr
  refine ⟨?off, ?offRefused, ?uncleat, ?uncleatRefused, ?save, ?saveRefused, ?clear⟩
  case off =>
    intro hc hs hu ho hst hon hl hq hm hg ht
    refine .of_hostAt rfl hr ?_
    have hd := dropping_offRequest hon ⟨hl, hm, hg, ht⟩
    rw [pwrCtrlWrite_off hc hs hu ho, pwrOff_standby hst]
    exact ⟨hd.state, hd.wait, hd.down, hd.active⟩
  case offRefused =>
    intro hc hs hu ho heng
    refine .of_hostAt rfl hr ?_
    rw [pwrCtrlWrite_off hc hs hu ho, pwrOff_refused heng]
    exact pwrRefuse_spec s
  case uncleat =>
    intro hc hs hu ho hst
    refine .of_hostAt rfl hr ?_
    rw [pwrCtrlWrite_uncleat hc hs hu ho, pwrUncleat, if_pos hst]
    exact ⟨reachOff_state s, reachOff_engine s, reachOff_pwr s⟩
  case uncleatRefused =>
    intro hc hs hu ho hst
    refine .of_hostAt rfl hr ?_
    rw [pwrCtrlWrite_uncleat hc hs hu ho, pwrUncleat, if_neg hst]
    exact pwrRefuse_spec s
  case save =>
    intro hc hs hu hoff hsav harm
    refine .of_hostAt rfl hr ?_
    have hp : (vinSample s).pwr = s.pwr := (vinSample_kept s).same .pwr (.inl rfl)
    have ho : (vinSample s).out = s.out := (vinSample_kept s).same .out (.inr rfl)
    rw [pwrCtrlWrite_save hc hs hu hoff, pwrSave_begins hsav harm, saveBegin_pwr, saveBegin_out, saveBegin_g _ _ (clear_const rfl), ho, hp]
    exact ⟨saveBegin_saving _ _, rfl, rfl, rfl, rfl, rfl, (vinSample_only s).trans (saveBegin_only _ _)⟩
  case saveRefused =>
    intro hc hs hu ho h
    refine .of_hostAt rfl hr ?_
    rw [pwrCtrlWrite_save hc hs hu ho, pwrSave_refused h]
    exact pwrRefuse_spec s
  case clear =>
    intro hc hs hu ho
    refine .of_hostAt rfl hr ?_
    obtain ⟨u, he, hw, hl, hn⟩ := pwrCntClr_cases (r := fieldOf PWR_CTRL_CNT_SLOT v) s
    rw [pwrCtrlWrite_clear hc hs hu ho, he]
    rw [setPwr_pwr, setPwr_out]
    exact ⟨fun k => (setPwr_g u _ _).trans (railZero_g k s), hw, hn, hl, railZero_out s, (railZero_alike s fun _ ho hn => hn ho).onlyRegs.of_reg (setPwr_reg _ _)⟩

end Sys2Proof.Machine
end

section
/-!
PROOFS. The control engine's memories (spec/12_control_engine.md R277, R282, R283, R285-R288): coefficients and nodes, the
guard of a program word, trace units, and a memory error.
-/

namespace Sys2Proof.Machine

open Reg

set_option Elab.async false

/-! ## The engine's part of the state -/

section
variable (u : CeU) (s : State)

@[simp] theorem setCe_reg (off : Nat) : (setCe u s).reg off = s.reg off := rfl
@[simp] theorem setCe_g (f : Fld) : (setCe u s).g f = s.g f := rfl
@[simp] theorem setCe_on (f : Fld) : (setCe u s).on f = s.on f := rfl
@[simp] theorem setCe_out : (setCe u s).out = s.out := rfl
@[simp] theorem ceU_setCe : ceU (setCe u s) = u := rfl

theorem ceU_of_mot {s t : State} (h : t.mot = s.mot) : ceU t = ceU s := congrArg MotU.ce h

theorem tuU_of_mot {s t : State} (h : t.mot = s.mot) (k : Nat) : tuU t k = tuU s k := by
  unfold tuU
  rw [ceU_of_mot h]

end

/-- What the engine's summary writes. -/
def EngineSummary (off : Nat) : Prop := off = CE_STAT ∨ TB_CFG 0 ≤ off ∧ off < TB_CFG 8

section
variable {s : State}

theorem ceSync_alike : Alike (fun off => ¬ EngineSummary off) s (ceSync s) := by
  unfold ceSync
  refine ((Alike.refl s).p _ fun h => h (.inl rfl)).overN fun t r ht ha => ha.pb _ fun h => h (.inr ?_)
  unfold TB_CFG_USED TB_CFG
  dsimp only
  omega

theorem ceSync_mot : (ceSync s).mot = s.mot := (kept_ceSync (K := (· = .mot)) (by decide) (.refl s)).same .mot rfl

theorem ceSync_out : (ceSync s).out = s.out := (kept_ceSync (K := (· = .out)) (by decide) (.refl s)).same .out rfl

theorem not_summary {off : Nat} (h : TB_CFG 8 ≤ off) : ¬ EngineSummary off := by
  unfold EngineSummary
  have hs : CE_STAT < TB_CFG 8 := by decide
  omega

theorem ceSync_g {f : Fld} (h : TB_CFG 8 ≤ f.off) : (ceSync s).g f = s.g f := ceSync_alike.g (not_summary h)

end

/-! ## Coefficients and nodes -/

section
variable {s : State} {v : Word}

theorem coefWrite_now (c : Nat) (h : s.on CE_CTRL_STAGE = false) : coefWrite c v s = s.p (CE_COEF_COEF c) v.toNat := by
  unfold coefWrite
  rw [if_neg (by simp [h])]

/-- A coefficient held. -/
def coefStaged (c x : Nat) (s : State) : State :=
  (setCe { ceU s with staged := (ceU s).staged ++ [(c, x)] } s).p CE_STAT_STAGED ((ceU s).staged.length + 1)

theorem coefWrite_staged (c : Nat) (h : s.on CE_CTRL_STAGE = true) (hl : (ceU s).staged.length < 64) :
    coefWrite c v s = coefStaged c (v.toNat % 2 ^ 20) s := by
  unfold coefWrite coefStaged
  rw [if_pos h]
  dsimp only
  rw [if_neg (Nat.not_le.mpr hl)]

theorem coefWrite_full (c : Nat) (h : s.on CE_CTRL_STAGE = true) (hl : 64 ≤ (ceU s).staged.length) :
    coefWrite c v s = s.pb CE_STAT_WR_IGN true := by
  unfold coefWrite
  rw [if_pos h]
  dsimp only
  rw [if_pos hl]

theorem coef_off_ne {c d : Nat} (h : c ≠ d) : Clear (CE_COEF_COEF d) (CE_COEF_COEF c) :=
  ⟨Nat.le_of_ble_eq_true rfl, .inl (by unfold CE_COEF_COEF CE_COEF; dsimp only; omega)⟩

/-- Coefficients written in order: the last of each is what it holds. -/
theorem coefs_g (l : List (Nat × Nat)) (d : Nat) (s : State) :
    (l.foldl (fun s c => s.p (CE_COEF_COEF c.1) c.2) s).g (CE_COEF_COEF d) =
      ((l.reverse.find? (fun e => e.1 == d)).map (fun e => e.2 % 2 ^ 20)).getD (s.g (CE_COEF_COEF d)) := by
  induction l generalizing s with
  | nil => rfl
  | cons c r ih =>
    rw [List.foldl_cons, ih, List.reverse_cons, List.find?_append]
    cases hr : r.reverse.find? (fun e => e.1 == d) with
    | some e => rfl
    | none =>
      rw [Option.none_or, Option.map_none, Option.getD_none]
      by_cases hc : c.1 = d
      · rw [List.find?_cons_of_pos (by simp [hc]), ← hc, g_p_self _ _ _ (by decide : 0 + 20 ≤ 32)]
        rfl
      · rw [List.find?_cons_of_neg (by simp [hc]), g_p_clear _ _ (coef_off_ne hc)]
        rfl

theorem coefs_out (l : List (Nat × Nat)) (s : State) :
    (l.foldl (fun s c => s.p (CE_COEF_COEF c.1) c.2) s).out = s.out := by
  induction l generalizing s with
  | nil => rfl
  | cons c r ih => rw [List.foldl_cons, ih, State.p_out]

/-- The staged coefficients applied, those left held. -/
def stagedLeft (rest : List (Nat × Nat)) (s : State) : State :=
  ((setCe { ceU s with staged := rest, due := 0 } s).p CE_STAT_STAGED rest.length).pb CE_STAT_STAGE_PEND false

theorem stagedApply_pending (h : s.on CE_STAT_STAGE_PEND = true) : stagedApply s =
    stagedLeft ((ceU s).staged.drop (ceU s).due)
      (((ceU s).staged.take (ceU s).due).foldl (fun s c => s.p (CE_COEF_COEF c.1) c.2) s) := by
  unfold stagedApply stagedLeft
  rw [if_pos h]

theorem stagedLeft_spec (rest : List (Nat × Nat)) (s : State) :
    (ceU (stagedLeft rest s)).staged = rest ∧ (stagedLeft rest s).g CE_STAT_STAGED = rest.length % 2 ^ CE_STAT_STAGED.w ∧
      (stagedLeft rest s).on CE_STAT_STAGE_PEND = false ∧ (stagedLeft rest s).out = s.out := by
  have hpend : Clear CE_STAT_STAGED CE_STAT_STAGE_PEND := clear_const rfl
  unfold stagedLeft
  refine ⟨rfl, ?_, on_pb_same _ _ rfl, ?_⟩
  · rw [g_pb_clear _ _ hpend]
    exact g_p_self _ _ _ (by decide)
  · rw [State.pb_out, State.p_out, setCe_out]

theorem stagedLeft_coef (rest : List (Nat × Nat)) (d : Nat) (s : State) :
    (stagedLeft rest s).g (CE_COEF_COEF d) = s.g (CE_COEF_COEF d) := by
  have hpend : Clear (CE_COEF_COEF d) CE_STAT_STAGE_PEND := clear_above rfl
  have hstaged : Clear (CE_COEF_COEF d) CE_STAT_STAGED := clear_above rfl
  unfold stagedLeft
  rw [g_pb_clear _ _ hpend, g_p_clear _ _ hstaged, setCe_g]

theorem nodeWrite_free {i : Nat} (hi : i ≠ 0) (h : (enabledLoops s).any (fun n => lpWrites s n i) = false) :
    nodeWrite i v s = s.p (CE_NODE_NODE i) v.toNat := by
  unfold nodeWrite
  rw [if_neg hi, if_neg (by simp [h])]

theorem nodeWrite_taken {i : Nat} (hi : i ≠ 0) (h : (enabledLoops s).any (fun n => lpWrites s n i) = true) :
    nodeWrite i v s = s.pb CE_STAT_WR_IGN true := by
  unfold nodeWrite
  rw [if_neg hi, if_pos h]

theorem progWrite_used {w n : Nat} (h : (enabledLoops s).filter (fun n => (lpWords s n).contains w) = [n]) :
    progWrite w v s = s.pb (LP_STAT_CFG_ERR n) true := by
  unfold progWrite progGuard
  rw [h]
  rfl

end

/-! ## Trace units -/

section
variable {s : State} {v : Word} {u : Nat}

section
variable (f : Tu → Tu)

theorem modTu_reg (off : Nat) : (modTu u f s).reg off = s.reg off := rfl
theorem modTu_g (k : Fld) : (modTu u f s).g k = s.g k := rfl
theorem modTu_on (k : Fld) : (modTu u f s).on k = s.on k := rfl
theorem modTu_out : (modTu u f s).out = s.out := rfl
theorem tuU_modTu : tuU (modTu u f s) u = f (tuU s u) := bankGet_put_self _ _ _ _
end

theorem tuClearBuf_g {f : Fld} (h : f.off < TU_BUF u 0) : (tuClearBuf u s).g f = s.g f := by
  unfold State.g tuClearBuf
  rw [reg_resetRegs_other _ _ _ (by simp only [decide_eq_false_iff_not]; omega)]

theorem tuClearBuf_out : (tuClearBuf u s).out = s.out := rfl

theorem tuClearBuf_mot : (tuClearBuf u s).mot = s.mot := rfl

/-- A trace unit put to state `st`, with nothing sampled. -/
def tuFresh (u st : Nat) (pre : Bool) (s : State) : State :=
  tuClearBuf u (modTu u (fun _ => {}) (((s.p (TU_STAT_STATE u) st).p (TU_STAT_COUNT u) 0).pb (TU_STAT_PREFILL u) pre))

/-- The fields that a write of TUu_CFG finds open. -/
def tuFields (u : Nat) (v : Word) (s : State) : State :=
  if tuArmed s u then (if fieldOf (TU_CFG_DEC u) v == s.g (TU_CFG_DEC u) && fieldOf (TU_CFG_TB u) v == s.g (TU_CFG_TB u)
      && fieldOf (TU_CFG_CHANS u) v == s.g (TU_CFG_CHANS u) then s else s.pb (TU_STAT_CFG_ERR u) true)
    else ((s.p (TU_CFG_DEC u) (fieldOf (TU_CFG_DEC u) v)).p (TU_CFG_TB u) (fieldOf (TU_CFG_TB u) v)).p (TU_CFG_CHANS u) (fieldOf (TU_CFG_CHANS u) v)

theorem tuFields_out : (tuFields u v s).out = s.out := by
  unfold tuFields
  split
  · split
    · rfl
    · rw [State.pb_out]
  · rw [State.p_out, State.p_out, State.p_out]

theorem tuFields_mot : (tuFields u v s).mot = s.mot := by
  unfold tuFields
  split
  · split
    · rfl
    · rw [State.pb_mot]
  · rw [State.p_mot, State.p_mot, State.p_mot]

theorem tuFields_state : tuState (tuFields u v s) u = tuState s u := by
  have hdec : Clear (TU_STAT_STATE u) (TU_CFG_DEC u) := clear_inst rfl
  have htb : Clear (TU_STAT_STATE u) (TU_CFG_TB u) := clear_inst rfl
  have hch : Clear (TU_STAT_STATE u) (TU_CFG_CHANS u) := clear_inst rfl
  have herr : Clear (TU_STAT_STATE u) (TU_STAT_CFG_ERR u) := clear_inst rfl
  unfold tuState tuFields
  split
  · split
    · rfl
    · rw [g_pb_clear _ _ herr]
  · rw [g_p_clear _ _ hch, g_p_clear _ _ htb, g_p_clear _ _ hdec]

theorem tuCfgWrite_arm (ha : fieldOf (TU_CFG_ARM u) v = 1) (hb : fieldOf (TU_CFG_ABORT u) v = 0)
    (hf : fieldOf (TU_CFG_FORCE u) v = 0) :
    tuCfgWrite u v s = ceSync (tuFresh u 1 (tuPre (tuFields u v s) u == 0) (tuFields u v s)) := by
  unfold tuCfgWrite
  dsimp only
  rw [if_pos ha, if_neg (show ¬ fieldOf (TU_CFG_ABORT u) v = 1 by omega), if_neg (by omega)]
  rfl

theorem tuCfgWrite_abort (ha : fieldOf (TU_CFG_ARM u) v = 0) (hb : fieldOf (TU_CFG_ABORT u) v = 1)
    (hf : fieldOf (TU_CFG_FORCE u) v = 0) : tuCfgWrite u v s = ceSync (tuFresh u 0 false (tuFields u v s)) := by
  unfold tuCfgWrite
  dsimp only
  rw [if_pos hb, if_neg (show ¬ fieldOf (TU_CFG_ARM u) v = 1 by omega), if_neg (by omega)]
  rfl

theorem tuCfgWrite_force (ha : fieldOf (TU_CFG_ARM u) v = 0) (hb : fieldOf (TU_CFG_ABORT u) v = 0)
    (hf : fieldOf (TU_CFG_FORCE u) v = 1) (hst : tuState s u = 1) :
    tuCfgWrite u v s = ceSync (modTu u (fun t => { t with force := true }) (tuFields u v s)) := by
  have hopen : tuState (tuFields u v s) u = 1 := tuFields_state.trans hst
  unfold tuCfgWrite
  dsimp only
  rw [if_neg (show ¬ fieldOf (TU_CFG_ARM u) v = 1 by omega), if_neg (show ¬ fieldOf (TU_CFG_ABORT u) v = 1 by omega)]
  exact congrArg ceSync (if_pos ⟨hf, hopen⟩)

theorem stat_lt_buf : TU_STAT u < TU_BUF u 0 := by
  unfold TU_STAT TU_BUF
  omega

theorem tuFresh_g {st : Nat} {pre : Bool} {f : Fld} (h : f.off < TU_BUF u 0) (hs : Clear f (TU_STAT_STATE u))
    (hc : Clear f (TU_STAT_COUNT u)) (hp : Clear f (TU_STAT_PREFILL u)) : (tuFresh u st pre s).g f = s.g f := by
  unfold tuFresh
  rw [tuClearBuf_g h, modTu_g, g_pb_clear _ _ hp, g_p_clear _ _ hc, g_p_clear _ _ hs]

theorem tuFresh_state {st : Nat} {pre : Bool} (h : st < 8) : tuState (tuFresh u st pre s) u = st := by
  have hc : Clear (TU_STAT_STATE u) (TU_STAT_COUNT u) := clear_inst rfl
  have hp : Clear (TU_STAT_STATE u) (TU_STAT_PREFILL u) := clear_inst rfl
  unfold tuState tuFresh
  rw [tuClearBuf_g stat_lt_buf, modTu_g, g_pb_clear _ _ hp, g_p_clear _ _ hc, g_p_self _ _ _ (Nat.le_of_ble_eq_true rfl)]
  exact Nat.mod_eq_of_lt h

theorem tuFresh_count {st : Nat} {pre : Bool} : (tuFresh u st pre s).g (TU_STAT_COUNT u) = 0 := by
  have hp : Clear (TU_STAT_COUNT u) (TU_STAT_PREFILL u) := clear_inst rfl
  unfold tuFresh
  rw [tuClearBuf_g stat_lt_buf, modTu_g, g_pb_clear _ _ hp, g_p_self _ _ _ (Nat.le_of_ble_eq_true rfl), Nat.zero_mod]

theorem tuFresh_prefill {st : Nat} {pre : Bool} : (tuFresh u st pre s).on (TU_STAT_PREFILL u) = pre := by
  unfold tuFresh
  rw [on_eq_of_g (tuClearBuf_g stat_lt_buf), modTu_on, on_pb_same _ _ rfl]

theorem tuFresh_out {st : Nat} {pre : Bool} : (tuFresh u st pre s).out = s.out := by
  unfold tuFresh
  rw [tuClearBuf_out, modTu_out, State.pb_out, State.p_out, State.p_out]

theorem tuFresh_tu {st : Nat} {pre : Bool} : tuU (tuFresh u st pre s) u = {} := by
  unfold tuFresh
  rw [tuU_of_mot tuClearBuf_mot, tuU_modTu]

theorem tuPre_congr {t : State} (hc : t.g (TU_CFG_CHANS u) = s.g (TU_CFG_CHANS u)) (hp : t.g (TU_PRE_PRE u) = s.g (TU_PRE_PRE u)) :
    tuPre t u = tuPre s u := by
  unfold tuPre tuDepth tuChans
  rw [hc, hp]

theorem tuFresh_pre {st : Nat} {pre : Bool} : tuPre (tuFresh u st pre s) u = tuPre s u :=
  tuPre_congr (tuFresh_g (by unfold TU_CFG_CHANS TU_CFG TU_BUF; dsimp only; omega) (clear_inst rfl) (clear_inst rfl) (clear_inst rfl))
    (tuFresh_g (by unfold TU_PRE_PRE TU_PRE TU_BUF; dsimp only; omega) (clear_inst rfl) (clear_inst rfl) (clear_inst rfl))

theorem above_summary_cfg : TB_CFG 8 ≤ TU_CFG u := by
  unfold TB_CFG TU_CFG
  omega

theorem above_summary_stat : TB_CFG 8 ≤ TU_STAT u := by
  unfold TB_CFG TU_STAT
  omega

theorem above_summary_pre : TB_CFG 8 ≤ TU_PRE u := by
  unfold TB_CFG TU_PRE
  omega

theorem ceSync_tuState : tuState (ceSync s) u = tuState s u := ceSync_g above_summary_stat

theorem ceSync_tuU : tuU (ceSync s) u = tuU s u := tuU_of_mot ceSync_mot u

theorem ceSync_tuPre : tuPre (ceSync s) u = tuPre s u :=
  tuPre_congr (ceSync_g above_summary_cfg) (ceSync_g above_summary_pre)

/-! ### A finished trace -/

theorem tuFill_alike {Z : Nat → Prop} (l : List Int) {i : Nat} {s : State} (h : ∀ j, i ≤ j → j < i + l.length → ¬ Z (TU_BUF u j)) :
    Alike Z s (tuFill u l i s) := by
  induction l generalizing i s with
  | nil => exact .refl s
  | cons x r ih =>
    rw [List.length_cons] at h
    exact ((Alike.refl s).setReg _ (h i (Nat.le_refl i) (by omega))).trans (ih fun j hj hl => h j (by omega) (by omega))

theorem tuFill_kept (l : List Int) (i : Nat) (s : State) : Kept (· ≠ .regs) s (tuFill u l i s) := by
  induction l generalizing i s with
  | nil => exact .refl s
  | cons x r ih => exact (kept_State_setReg (by simp) _ _ (.refl s)).trans (ih _ _)

theorem tuFill_word (q r : List Int) (y : Int) (i : Nat) (s : State) :
    (tuFill u (q ++ y :: r) i s).reg (TU_BUF u (i + q.length)) = BitVec.ofInt 32 y := by
  induction q generalizing i s with
  | nil =>
    have hleft := tuFill_alike (u := u) (Z := (· = TU_BUF u i)) r (i := i + 1) (s := s.setReg (TU_BUF u i) (BitVec.ofInt 32 y))
      fun j hj hl => by
        unfold TU_BUF
        omega
    exact (hleft _ rfl).trans (reg_setReg_self _ _ _)
  | cons x q ih =>
    rw [List.length_cons, show i + (q.length + 1) = i + 1 + q.length by omega]
    exact ih _ _

theorem traceDone_due (hst : tuState s u = 2) (hp : (tuU s u).post = 0) :
    traceDone u s = ceSync (tuFill u (tuU s u).samples.reverse.flatten 0 (s.p (TU_STAT_STATE u) 3)) :=
  if_pos ⟨hst, hp⟩

end

/-! ## A memory error -/

section
variable {s : State} {n : Nat}

/-- A loop disabled over an uncorrectable word. -/
def lpEcc (n : Nat) (s : State) : State := contained 0x14 n 1 0xFFFF ((lpDisable n s).pb (LP_STAT_ECC n) true)

theorem ceEcc_uncorrectable {mem w : Nat} (h : (enabledLoops s).filter (lpUses s mem w) = [n]) :
    ceEcc mem w false s = lpEcc n s := by
  unfold ceEcc
  rw [if_neg (by decide), h, List.foldl_cons, List.foldl_nil, lpEcc]

theorem aside_engine {off : Nat} (h : 0x804000 ≤ off) : Aside off := by
  unfold Aside
  omega

theorem lpDisable_off : lpOn (lpDisable n s) n = false := by
  unfold lpOn lpDisable
  refine (on_eq_of_g (ceSync_g (by unfold LP_CFG_ENABLE LP_CFG TB_CFG; dsimp only; omega))).trans ?_
  rw [setCe_on, on_pb_same _ _ rfl]

theorem lpEcc_spec : lpOn (lpEcc n s) n = false ∧ (lpEcc n s).on (LP_STAT_ECC n) = true := by
  have hrec : Alike Aside ((lpDisable n s).pb (LP_STAT_ECC n) true) (lpEcc n s) := aside_contained _ _ _ _ (.refl _)
  have hclear : Clear (LP_CFG_ENABLE n) (LP_STAT_ECC n) := clear_inst rfl
  constructor
  · refine (hrec.on (aside_engine ?_)).trans ((on_pb_clear _ _ hclear).trans lpDisable_off)
    unfold LP_CFG_ENABLE LP_CFG
    dsimp only
    omega
  · refine (hrec.on (aside_engine ?_)).trans (on_pb_same _ _ rfl)
    unfold LP_STAT_ECC LP_STAT
    dsimp only
    omega

/-- The record of a corrected word. -/
def eccNote (w : Nat) : ErrIn := { sev := 0, cls := 0x14, inst := 0, code := (Config.errCode 1).toNat, cell := w, level := 0 }

theorem ceEcc_noted {mem w : Nat} : ceEcc mem w true s = record (eccNote w) (s.pb CE_STAT_ECC_CORR true) := if_pos rfl

theorem ceEcc_corrected {mem w : Nat} : (ceEcc mem w true s).on CE_STAT_ECC_CORR = true ∧ (ceEcc mem w true s).mot = s.mot := by
  have hrec : Alike Aside (s.pb CE_STAT_ECC_CORR true) (record (eccNote w) (s.pb CE_STAT_ECC_CORR true)) :=
    aside_record (e := eccNote w) (.refl _) (classRegion_lt 0x14)
  have hmot : Kept (· = .mot) (s.pb CE_STAT_ECC_CORR true) (record (eccNote w) (s.pb CE_STAT_ECC_CORR true)) :=
    kept_record (by decide) (by decide) (by decide) (by decide) (by decide) (by decide) (by decide) _ (.refl _)
  rw [ceEcc_noted, hmot.same .mot rfl, State.pb_mot]
  exact ⟨(hrec.on (aside_engine (by decide))).trans (on_pb_same _ _ rfl), rfl⟩

end

/-- Settles O55: each write is one write of its memory, or one flag. -/
theorem controlMemories : Obligations.ControlMemories := by
  unfold Obligations.ControlMemories
  intro s c i w u n y q r mem v
  refine ⟨?now, ?staged, ?full, ?apply, ?node, ?zero, ?taken, ?prog, ?arm, ?force, ?abort, ?done, ?corrected, ?ecc⟩
  case now =>
    intro hr hst
    refine .of_hostAt rfl hr ?_
    rw [coefWrite_now c hst, State.p_mot, State.p_out]
    exact ⟨g_p_self _ _ _ (Nat.le_of_ble_eq_true rfl), rfl, rfl, (onlyRegs_refl _ s).p _ _ (by simp [CE_COEF_COEF])⟩
  case staged =>
    intro hr hst hl
    refine .of_hostAt rfl hr ?_
    rw [coefWrite_staged c hst hl]
    refine ⟨rfl, (g_p_self _ _ _ (by decide)).trans (Nat.mod_eq_of_lt ?_), ?_⟩
    · unfold CE_STAT_STAGED
      dsimp only
      omega
    · exact OnlyRegs.p ((onlyRegs_refl _ s).of_reg (setCe_reg _ _)) _ _ (by decide)
  case full =>
    intro hr hst hl
    refine .of_hostAt rfl hr ?_
    rw [coefWrite_full c hst hl, State.pb_mot]
    exact ⟨on_pb_same _ _ rfl, rfl, (onlyRegs_refl _ s).pb _ _ (by decide)⟩
  case apply =>
    intro hd hp
    refine .of_live rfl hd ?_
    obtain ⟨hheld, hcount, hpend, hout⟩ := stagedLeft_spec ((ceU s).staged.drop (ceU s).due)
      (((ceU s).staged.take (ceU s).due).foldl (fun s c => s.p (CE_COEF_COEF c.1) c.2) s)
    rw [stagedApply_pending hp, stagedLeft_coef, coefs_g]
    exact ⟨rfl, hheld, hcount, hpend, hout.trans (coefs_out _ s)⟩
  case node =>
    intro hr hi hw
    refine .of_hostAt rfl hr ?_
    rw [nodeWrite_free (fun h => hi (Fin.ext h)) hw]
    exact ⟨g_p_self _ _ _ (Nat.le_of_ble_eq_true rfl), (onlyRegs_refl _ s).p _ _ (by simp [CE_NODE_NODE])⟩
  case zero =>
    intro hr hi
    exact .of_hostAt rfl hr (if_pos (congrArg Fin.val hi))
  case taken =>
    intro hr hi hw
    refine .of_hostAt rfl hr ?_
    rw [nodeWrite_taken (fun h => hi (Fin.ext h)) hw]
    exact ⟨on_pb_same _ _ rfl, (onlyRegs_refl _ s).pb _ _ (by decide)⟩
  case prog =>
    intro hr hu
    have honly : OnlyRegs [LP_STAT n] s (s.pb (LP_STAT_CFG_ERR n) true) := (onlyRegs_refl _ s).pb _ _ (by simp [LP_STAT_CFG_ERR])
    refine .of_hostAt rfl hr ?_
    rw [show wideWrite true w v s = progWrite w v s from rfl, progWrite_used hu]
    refine ⟨on_pb_same _ _ rfl, honly _ ?_, honly⟩
    simp only [List.mem_singleton, CE_PROG_HI, LP_STAT]
    omega
  case arm =>
    intro hr _ ha hb hf
    refine .of_hostAt rfl hr ?_
    rw [tuCfgWrite_arm ha hb hf, ceSync_tuState, ceSync_tuU, ceSync_tuPre, ceSync_out, tuFresh_out, tuFields_out, tuFresh_pre]
    refine ⟨tuFresh_state (by decide), (ceSync_g above_summary_stat).trans tuFresh_count, tuFresh_tu,
      (on_eq_of_g (ceSync_g above_summary_stat)).trans ?_, rfl⟩
    exact tuFresh_prefill
  case force =>
    intro hr hst ha hb hf
    refine .of_hostAt rfl hr ?_
    rw [tuCfgWrite_force ha hb hf hst, ceSync_tuU, ceSync_tuState, tuU_modTu, tuU_of_mot tuFields_mot]
    exact ⟨rfl, tuFields_state.trans hst, rfl⟩
  case abort =>
    intro hr ha hb hf
    refine .of_hostAt rfl hr ?_
    rw [tuCfgWrite_abort ha hb hf, ceSync_tuState, ceSync_tuU, ceSync_out, tuFresh_out, tuFields_out]
    exact ⟨tuFresh_state (by decide), (ceSync_g above_summary_stat).trans tuFresh_count, tuFresh_tu, rfl⟩
  case done =>
    intro hd hst hp hs hl
    refine .of_live rfl hd ?_
    have hk := tuFill_kept (u := u) (q ++ y :: r) 0 (s.p (TU_STAT_STATE u) 3)
    have hfill := tuFill_alike (u := u) (Z := (· < 0x840000)) (q ++ y :: r) (i := 0) (s := s.p (TU_STAT_STATE u) 3)
      fun j _ _ => by
        unfold TU_BUF
        omega
    have hbuf : TB_CFG 8 ≤ TU_BUF u q.length := by
      unfold TB_CFG TU_BUF
      omega
    rw [traceDone_due hst hp, hs, ceSync_tuState, ceSync_mot, ceSync_out, hk.same .mot (by decide), hk.same .out (by decide),
      State.p_mot, State.p_out]
    refine ⟨(hfill.g ?_).trans (g_p_self _ _ _ (Nat.le_of_ble_eq_true rfl)), (ceSync_alike _ (not_summary hbuf)).trans ?_, rfl, rfl⟩
    · unfold TU_STAT_STATE TU_STAT
      dsimp only
      omega
    · have hw := tuFill_word (u := u) q r y 0 (s.p (TU_STAT_STATE u) 3)
      rwa [Nat.zero_add] at hw
  case corrected =>
    intro hd
    exact .of_live rfl hd ceEcc_corrected
  case ecc =>
    intro hd hu
    refine .of_live rfl hd ?_
    rw [ceEcc_uncorrectable hu]
    exact lpEcc_spec

end Sys2Proof.Machine
end

section
/-!
PROOFS. Queue pairs (spec/03_host_rep.md R61-R66): what a completion writes and shows, what it leaves to the other pairs, and
how a command in its turn is judged.
-/

namespace Sys2Proof.Machine

open Reg

set_option Elab.async false

/-! ## A pair as it was -/

/-- The registers of pair `k`. -/
def PairZone (k off : Nat) : Prop := 0x311000 + 0x20 * k ≤ off ∧ off < 0x311020 + 0x20 * k

/-- Pair `k`, its registers and what the device holds of it, as before. -/
structure PairSame (k : Nat) (s t : State) : Prop where
  regs : Alike (PairZone k) s t
  qp : t.qpU k = s.qpU k

namespace PairSame

variable {k : Nat} {s t u : State}

theorem refl (s : State) : PairSame k s s := ⟨.refl s, rfl⟩

theorem trans (h : PairSame k s t) (h' : PairSame k t u) : PairSame k s u := ⟨h.regs.trans h'.regs, h'.qp.trans h.qp⟩

theorem pairOn (h : PairSame k s t) : t.pairOn k = s.pairOn k :=
  h.regs.on (by unfold PairZone REP_QCFG_ENABLE REP_QCFG; dsimp only; omega)

theorem cqTail (h : PairSame k s t) : t.g (REP_QSTAT_CQ_TAIL k) = s.g (REP_QSTAT_CQ_TAIL k) :=
  h.regs.g (by unfold PairZone REP_QSTAT_CQ_TAIL REP_QSTAT; dsimp only; omega)

theorem sqHead (h : PairSame k s t) : t.g (REP_QSTAT_SQ_HEAD k) = s.g (REP_QSTAT_SQ_HEAD k) :=
  h.regs.g (by unfold PairZone REP_QSTAT_SQ_HEAD REP_QSTAT; dsimp only; omega)

theorem sqTail (h : PairSame k s t) : t.g (REP_QSQT_TAIL k) = s.g (REP_QSQT_TAIL k) :=
  h.regs.g (by unfold PairZone REP_QSQT_TAIL REP_QSQT; dsimp only; omega)

theorem cqHead (h : PairSame k s t) : t.g (REP_QCQH_HEAD k) = s.g (REP_QCQH_HEAD k) :=
  h.regs.g (by unfold PairZone REP_QCQH_HEAD REP_QCQH; dsimp only; omega)

theorem cqSize (h : PairSame k s t) : t.cqSize k = s.cqSize k :=
  congrArg (2 ^ ·) (h.regs.g (by unfold PairZone REP_QCFG_CQ_LOG2 REP_QCFG; dsimp only; omega))

theorem sqSize (h : PairSame k s t) : t.sqSize k = s.sqSize k :=
  congrArg (2 ^ ·) (h.regs.g (by unfold PairZone REP_QCFG_SQ_LOG2 REP_QCFG; dsimp only; omega))

theorem cqFull (h : PairSame k s t) : t.cqFull k = s.cqFull k := by
  unfold State.cqFull
  rw [h.cqTail, h.cqSize, h.cqHead]

theorem queuedIn (h : PairSame k s t) : queuedIn t k = queuedIn s k := by
  unfold Machine.queuedIn
  rw [h.sqTail, h.sqSize, h.sqHead]

end PairSame

/-! ## What a pair's operations leave -/

/-- Nothing that the device holds for the host changes but what it holds of its pairs. -/
def OnlyQp (s t : State) : Prop := ∃ b, t.host = { s.host with qp := b }

namespace OnlyQp

variable {s t u : State}

theorem refl (s : State) : OnlyQp s s := ⟨s.host.qp, rfl⟩

theorem trans (h : OnlyQp s t) (h' : OnlyQp t u) : OnlyQp s u := by
  obtain ⟨_, h⟩ := h
  obtain ⟨_, h'⟩ := h'
  exact ⟨_, by rw [h', h]⟩

theorem of_host (h : t.host = s.host) : OnlyQp s t := ⟨s.host.qp, h⟩

theorem inProg (h : OnlyQp s t) : t.host.inProg = s.host.inProg := by
  obtain ⟨_, h⟩ := h
  rw [h]

theorem heldCmds (h : OnlyQp s t) : t.host.heldCmds = s.host.heldCmds := by
  obtain ⟨_, h⟩ := h
  rw [h]

theorem closing (h : OnlyQp s t) : t.host.closing = s.host.closing := by
  obtain ⟨_, h⟩ := h
  rw [h]

theorem tev (h : OnlyQp s t) : t.host.tev = s.host.tev := by
  obtain ⟨_, h⟩ := h
  rw [h]

end OnlyQp

section
variable {s : State} {q k : Nat}

theorem onlyQp_setQp (u : Qp) : OnlyQp s (s.setQp q u) := ⟨_, rfl⟩

theorem pairSame_setQp (u : Qp) (h : k ≠ q) : PairSame k s (s.setQp q u) := ⟨.refl s, qpU_setQp_other s _ _ u h⟩

theorem not_pairZone (h : k ≠ q) {off : Nat} (hl : 0x311000 + 0x20 * q ≤ off) (hh : off < 0x311020 + 0x20 * q) :
    ¬ PairZone k off := by
  unfold PairZone
  omega

theorem not_pairZone_stat (h : k ≠ q) : ¬ PairZone k (REP_QSTAT q) :=
  not_pairZone h (by unfold REP_QSTAT; omega) (by unfold REP_QSTAT; omega)

theorem pairSame_fetchEntry (h : k ≠ q) : PairSame k s (fetchEntry q s) := by
  unfold fetchEntry
  exact ⟨Alike.p (.of_regs (.refl s) ⟨rfl, rfl, rfl⟩) _ (not_pairZone_stat h), rfl⟩

theorem fetchEntry_host : (fetchEntry q s).host = s.host := rfl

theorem fetchEntry_qpU : (fetchEntry q s).qpU k = s.qpU k := rfl

theorem fetchEntry_kept : Kept (fun p => p ≠ .regs ∧ p ≠ .out) s (fetchEntry q s) := kept_fetchEntry (by simp) (by simp) q (.refl s)

/-- A fetch moves the head and no other field of the pair. -/
theorem fetchEntry_g {f : Fld} (h : Clear f (REP_QSTAT_SQ_HEAD q)) : (fetchEntry q s).g f = s.g f := by
  unfold fetchEntry
  rw [g_p_clear _ _ h]
  exact g_eq_of_regs f ⟨rfl, rfl, rfl⟩

theorem fetchEntry_pairOn : (fetchEntry q s).pairOn k = s.pairOn k :=
  on_eq_of_g (fetchEntry_g ⟨Nat.le_of_ble_eq_true rfl, .inl (by
    unfold REP_QCFG_ENABLE REP_QCFG REP_QSTAT_SQ_HEAD REP_QSTAT; dsimp only; omega)⟩)

theorem fetchEntry_cqFull : (fetchEntry q s).cqFull q = s.cqFull q := by
  unfold State.cqFull State.cqSize
  rw [fetchEntry_g (f := REP_QSTAT_CQ_TAIL q) (clear_inst rfl), fetchEntry_g (f := REP_QCFG_CQ_LOG2 q) (clear_inst rfl),
    fetchEntry_g (f := REP_QCQH_HEAD q) (clear_inst rfl)]

/-! ## A completion written -/

/-- The ring's tail moved on after a completion, its vector not yet raised. -/
def cqeWritten (q : Nat) (p : Post) (s : State) : State :=
  syncFull q (State.p (if (s.g (REP_QSTAT_CQ_TAIL q) + 1) % s.cqSize q = 0 then
    (s.emit (.cqe q (s.g (REP_QSTAT_CQ_TAIL q)) (cqeOf s q p))).setQp q { s.qpU q with wraps := (s.qpU q).wraps + 1 }
    else s.emit (.cqe q (s.g (REP_QSTAT_CQ_TAIL q)) (cqeOf s q p))) (REP_QSTAT_CQ_TAIL q)
      ((s.g (REP_QSTAT_CQ_TAIL q) + 1) % s.cqSize q))

theorem writeCqe_eq (p : Post) :
    writeCqe q p s = (cqeWritten q p s).msix ((cqeWritten q p s).g (REP_QCFG_VECTOR q)) := rfl

theorem cqeWritten_out (p : Post) :
    (cqeWritten q p s).out = s.out ++ [.cqe q (s.g (REP_QSTAT_CQ_TAIL q)) (cqeOf s q p)] := by
  unfold cqeWritten syncFull
  rw [State.pb_out, State.p_out]
  split <;> rfl

/-- The entry stands in what has been shown. -/
theorem writeCqe_shows (p : Post) :
    s.out ++ [.cqe q (s.g (REP_QSTAT_CQ_TAIL q)) (cqeOf s q p)] <+: (writeCqe q p s).out := by
  rw [writeCqe_eq]
  exact prefix_msix _ (cqeWritten_out p)

theorem cqeWritten_onlyQp (p : Post) : OnlyQp s (cqeWritten q p s) := by
  unfold cqeWritten syncFull
  refine .trans ?_ (.of_host (State.pb_host _ _ _))
  refine .trans ?_ (.of_host (State.p_host _ _ _))
  split
  · exact onlyQp_setQp _
  · exact .of_host rfl

theorem msix_host (v : Nat) : (s.msix v).host = s.host :=
  (kept_State_msix (K := (· = .host)) (by decide) (by decide) v (.refl s)).same .host rfl

theorem writeCqe_onlyQp (p : Post) : OnlyQp s (writeCqe q p s) := by
  rw [writeCqe_eq]
  exact (cqeWritten_onlyQp p).trans (.of_host (msix_host _))

theorem cqeWritten_alike {Z : Nat → Prop} (p : Post) (hs : ¬ Z (REP_QSTAT q)) : Alike Z s (cqeWritten q p s) := by
  unfold cqeWritten syncFull
  refine .pb (.p ?_ _ hs) _ hs
  exact .ite (.of_regs (.refl s) ⟨rfl, rfl, rfl⟩) (.of_regs (.refl s) ⟨rfl, rfl, rfl⟩)

/-- A completion writes its pair's status and the pending bits of the vectors. -/
theorem writeCqe_alike {Z : Nat → Prop} (p : Post) (hs : ¬ Z (REP_QSTAT q)) (hp : ∀ off, 0x309000 ≤ off → off < 0x309020 → ¬ Z off) :
    Alike Z s (writeCqe q p s) := by
  have hmsix (t : State) (h : Alike Z s t) : Alike Z s (t.msix (t.g (REP_QCFG_VECTOR q))) := by
    have hlt : t.g (REP_QCFG_VECTOR q) < 256 := g_lt _ _
    exact h.msix (hp _ (by unfold MSIX_PBA; omega) (by unfold MSIX_PBA; omega))
  rw [writeCqe_eq]
  exact hmsix _ (cqeWritten_alike p hs)

theorem qpU_of_host {t : State} (h : t.host = s.host) (k : Nat) : t.qpU k = s.qpU k := by
  unfold State.qpU
  rw [h]

theorem cqeWritten_qpU (p : Post) : ∃ w, (cqeWritten q p s).qpU q = { s.qpU q with wraps := w } := by
  unfold cqeWritten syncFull
  rw [qpU_of_host (State.pb_host _ _ _), qpU_of_host (State.p_host _ _ _)]
  split
  · exact ⟨_, qpU_setQp_self _ _ _⟩
  · exact ⟨(s.qpU q).wraps, rfl⟩

theorem writeCqe_qpU (p : Post) : ∃ w, (writeCqe q p s).qpU q = { s.qpU q with wraps := w } := by
  obtain ⟨w, h⟩ := cqeWritten_qpU (s := s) (q := q) p
  refine ⟨w, ?_⟩
  rw [← h, writeCqe_eq, qpU_of_host (msix_host _)]

theorem cqeWritten_qpU_other (p : Post) (h : k ≠ q) : (cqeWritten q p s).qpU k = s.qpU k := by
  unfold cqeWritten syncFull
  rw [qpU_of_host (State.pb_host _ _ _), qpU_of_host (State.p_host _ _ _)]
  split
  · exact qpU_setQp_other _ _ _ _ h
  · rfl

theorem pairSame_writeCqe (p : Post) (h : k ≠ q) : PairSame k s (writeCqe q p s) where
  regs := writeCqe_alike p (not_pairZone_stat h) fun off hl hh hz => by
    unfold PairZone at hz
    omega
  qp := by
    rw [← cqeWritten_qpU_other (s := s) p h, writeCqe_eq, qpU_of_host (msix_host _)]

/-! ## A completion posted -/

theorem post_onlyQp (p : Post) : OnlyQp s (post q p s) := by
  unfold post
  split
  · exact .refl s
  · split
    · exact onlyQp_setQp _
    · exact writeCqe_onlyQp p

theorem pairSame_post (p : Post) (h : k ≠ q) : PairSame k s (post q p s) := by
  unfold post
  split
  · exact .refl s
  · split
    · exact pairSame_setQp _ h
    · exact pairSame_writeCqe p h

theorem post_doomed (p : Post) : ((post q p s).qpU q).doomed = (s.qpU q).doomed := by
  unfold post
  split
  · rfl
  · split
    · rw [qpU_setQp_self]
    · obtain ⟨w, hw⟩ := writeCqe_qpU (s := s) (q := q) p
      rw [hw]

/-- A pair that takes a completion at once. -/
structure Writable (s : State) (q : Nat) : Prop where
  on : s.pairOn q = true
  space : s.cqFull q = false
  held : (s.qpU q).held = []

theorem post_writes (p : Post) (h : Writable s q) : post q p s = writeCqe q p s := by
  unfold post
  rw [if_neg (by simp [h.on]), if_neg (by simp [h.space, h.held])]

theorem PairSame.writable {t : State} (h : PairSame q s t) (hw : Writable s q) : Writable t q :=
  ⟨h.pairOn.trans hw.on, h.cqFull.trans hw.space, (congrArg Qp.held h.qp).trans hw.held⟩

theorem Writable.fetchEntry (h : Writable s q) : Writable (fetchEntry q s) q :=
  ⟨fetchEntry_pairOn.trans h.on, fetchEntry_cqFull.trans h.space, h.held⟩

/-- A completion written shows its entry, whatever is shown before and after it. -/
theorem completes_writeCqe {t r : State} {cid op st res : Nat} {a : Option Nat} {en : Option Nat} (ht : s.out <+: t.out)
    (hr : (writeCqe q ⟨cid, op, st, res, a, en⟩ t).out <+: r.out) (hres : res < 2 ^ 64) :
    completes q cid op st res s r = true := by
  obtain ⟨l, hl⟩ := ht
  have hshown := (writeCqe_shows (s := t) (q := q) ⟨cid, op, st, res, a, en⟩).trans hr
  rw [← hl, List.append_assoc] at hshown
  unfold completes
  rw [List.any_eq_true]
  refine ⟨_, mem_shown hshown (List.mem_append_right _ List.mem_cons_self), ?_⟩
  simpa [cqeOf] using hres

end

/-! ## A command in its turn -/

section
variable {s : State} {e : Entry} {op : Nat}

/-- Pair `q` starts its next command now, and holds none. -/
structure Turn (s : State) (q : Nat) : Prop where
  live : s.dead = false
  waits : entryWaits s q = true
  writable : Writable s q
  doomed : (s.qpU q).doomed = 0
  free : ∀ h ∈ s.host.heldCmds, h.q ≠ q

theorem turn_spec {q : Nat} (h : turn s q = true) : Turn s q := by
  simp only [turn, canStart, Bool.and_eq_true, Bool.not_eq_true', List.isEmpty_iff, beq_iff_eq, List.all_eq_true, bne_iff_ne] at h
  obtain ⟨⟨⟨hdead, ⟨hwaits, hfull⟩, hheld⟩, hdoomed⟩, hfree⟩ := h
  refine ⟨hdead, hwaits, ⟨?_, hfull, hheld⟩, hdoomed, hfree⟩
  simp only [entryWaits, Bool.and_eq_true] at hwaits
  exact hwaits.1.1.2

theorem Turn.mine {q : Nat} (h : Turn s q) : (s.host.heldCmds.filter fun x => x.q == q) = [] :=
  List.filter_eq_nil_iff.mpr fun x hx => by
    rw [beq_iff_eq]
    exact h.free x hx

theorem take_turn (c : Instr) (run : State → State) (h : Turn s e.q) : take c e op run s = run (fetchEntry e.q s) := by
  have hstart : canStart s e.q = true := by
    unfold canStart
    rw [h.waits, h.writable.space, h.writable.held]
    rfl
  unfold take
  dsimp only
  rw [h.mine, if_neg (by simp [h.waits]), if_neg (by simp [h.doomed])]
  dsimp only [List.head?_nil]
  rw [if_pos hstart]

theorem accepted_spec {absent ok : State → Bool} (h : accepted s e op absent ok = true) : Turn s e.q ∧
    firstFail (fetchEntry e.q s) e op (absent (fetchEntry e.q s)) (ok (fetchEntry e.q s))
      (legalIn op (fetchEntry e.q s).engine) = none := by
  simp only [accepted, Bool.and_eq_true, Option.isNone_iff_eq_none] at h
  exact ⟨turn_spec h.1, h.2⟩

theorem judge_noReads {absent ok : State → Bool} (run : State → State)
    (h : firstFail s e op (absent s) (ok s) (legalIn op s.engine) = none) : judge e op absent ok run noReads s = run s := by
  unfold judge noReads meetAll
  dsimp only [List.foldl_nil]
  rw [ite_self, h]

/-- A command that nothing refuses runs on what its fetch leaves. -/
theorem command_accepted (c : Instr) {absent ok : State → Bool} (run : State → State) (h : accepted s e op absent ok = true) :
    command c e op absent ok run noReads s = run (fetchEntry e.q s) := by
  obtain ⟨hturn, hpass⟩ := accepted_spec h
  unfold command
  rw [take_turn c _ hturn, judge_noReads run hpass]

theorem sessionTakes_of_pass {absent ok legal : Bool} (h : firstFail s e op absent ok legal = none) : sessionTakes s = true := by
  unfold firstFail at h
  by_contra hc
  rw [if_pos (by simpa using hc)] at h
  exact absurd h (by simp)

theorem fetchEntry_session {q : Nat} : (fetchEntry q s).session = s.session :=
  on_eq_of_g (fetchEntry_g (f := REP_STAT_SESSION) ⟨Nat.le_of_ble_eq_true rfl, .inl (by
    unfold REP_STAT_SESSION REP_STAT REP_QSTAT_SQ_HEAD REP_QSTAT; dsimp only; omega)⟩)

theorem fetchEntry_version {q : Nat} : (fetchEntry q s).repVersion = s.repVersion :=
  fetchEntry_g (f := REP_STAT_VERSION) ⟨Nat.le_of_ble_eq_true rfl, .inl (by
    unfold REP_STAT_VERSION REP_STAT REP_QSTAT_SQ_HEAD REP_QSTAT; dsimp only; omega)⟩

theorem fetchEntry_sessionTakes {q : Nat} : sessionTakes (fetchEntry q s) = sessionTakes s := by
  unfold sessionTakes
  rw [fetchEntry_session, fetchEntry_host]

theorem fetchEntry_shown {q : Nat} : s.out <+: (fetchEntry q s).out := fetchEntry_kept.shown

/-- A command completed at once after its fetch: its entry is shown. -/
theorem completes_done {r : State} {q st res : Nat} (hw : Writable r e.q) (hr : s.out <+: r.out) (hq : q = e.q.val)
    (hres : res < 2 ^ 64) : completes q e.cid.toNat op st res s (done e op st res r) = true := by
  unfold done
  rw [post_writes _ hw, hq]
  exact completes_writeCqe hr (List.prefix_refl _) hres

theorem post_alike {Z : Nat → Prop} {q : Nat} (p : Post) (hs : ¬ Z (REP_QSTAT q)) (hp : ∀ off, 0x309000 ≤ off → off < 0x309020 → ¬ Z off) :
    Alike Z s (post q p s) := by
  unfold post
  split
  · exact .refl s
  · split
    · exact .refl s
    · exact writeCqe_alike p hs hp

/-- The session's register stands apart from those of the pairs. -/
theorem post_stat (q : Nat) (p : Post) : Alike (· = REP_STAT) s (post q p s) :=
  post_alike p (by unfold REP_QSTAT REP_STAT; omega) fun off hl hh he => by
    unfold REP_STAT at he
    omega

end

end Sys2Proof.Machine
end

section
/-!
PROOFS. Sessions (spec/03_host_rep.md R67, R76, R77): HELLO opens one, BYE and SESSION_CLOSE close one with nothing in
progress, and an opcode that the session does not know is refused.
-/

namespace Sys2Proof.Machine

open Reg

set_option Elab.async false

/-! ## HELLO -/

section
variable {s : State} {e : Entry} {x lo hi : Nat}

/-- A session opened at version `x`. -/
def opened (x : Nat) (s : State) : State := (s.pb REP_STAT_SESSION true).p REP_STAT_VERSION x

theorem opened_session : (opened x s).session = true := by
  have h : Clear REP_STAT_SESSION REP_STAT_VERSION := clear_const rfl
  unfold opened State.session
  rw [on_p_clear _ _ h]
  exact on_pb_same _ _ rfl

theorem opened_version (h : x < 65536) : (opened x s).repVersion = x :=
  (g_p_self _ _ _ (by decide)).trans (Nat.mod_eq_of_lt h)

theorem opened_pairSame (q : Nat) : PairSame q s (opened x s) where
  regs := ((Alike.refl s).pb _ (by unfold PairZone REP_STAT_SESSION REP_STAT; dsimp only; omega)).p _
    (by unfold PairZone REP_STAT_VERSION REP_STAT; dsimp only; omega)
  qp := by
    unfold opened
    rw [qpU_of_host (State.p_host _ _ _), qpU_of_host (State.pb_host _ _ _)]

theorem opened_out : (opened x s).out = s.out := by
  unfold opened
  rw [State.p_out, State.pb_out]

theorem repChoose_lt (h : repChoose lo hi = some x) : x ≤ 0x0200 := by
  unfold repChoose at h
  split at h
  · exact absurd h (by simp)
  · have hm := List.mem_of_find?_eq_some h
    simp only [List.mem_cons, List.not_mem_nil, or_false] at hm
    omega

theorem helloResult_lt (h : x ≤ 0x0200) : helloResult x < 2 ^ 64 := by
  unfold helloResult
  omega

theorem hello_open (hq : e.q = 0) (hc : e.clean = true) (hcid : e.cid ≠ 0xFFFF#16) (hs : s.session = false)
    (hx : repChoose lo hi = some x) : hello e lo hi s = done e 0x01 Sts.ok (helloResult x) (opened x s) := by
  unfold hello
  rw [if_neg (by simp [hq, hc, hcid]), if_neg (by simp [hs]), hx]
  rfl

theorem hello_version (hq : e.q = 0) (hc : e.clean = true) (hcid : e.cid ≠ 0xFFFF#16) (hs : s.session = false)
    (hx : repChoose lo hi = none) : hello e lo hi s = done e 0x01 Sts.version (helloResult 0) s := by
  unfold hello
  rw [if_neg (by simp [hq, hc, hcid]), if_neg (by simp [hs]), hx]

theorem hello_again (hq : e.q = 0) (hc : e.clean = true) (hcid : e.cid ≠ 0xFFFF#16) (hs : s.session = true) :
    hello e lo hi s = done e 0x01 Sts.badState 0 s := by
  unfold hello
  rw [if_neg (by simp [hq, hc, hcid]), if_pos hs]

theorem done_session (op st res : Nat) : (done e op st res s).session = s.session :=
  (post_stat _ _).on rfl

theorem done_version (op st res : Nat) : (done e op st res s).repVersion = s.repVersion :=
  (post_stat _ _).g rfl

theorem done_kept (op st res : Nat) : Kept (fun p => p ≠ .regs ∧ p ≠ .out ∧ p ≠ .host) s (done e op st res s) :=
  kept_post (by simp) (by simp) (by simp) _ _ (.refl s)

end

/-! ## Closing -/

section
variable {s t : State} {j n : Nat}

/-- The queued command counted off, its completion not yet posted. -/
def doomCounted (q : Nat) (s : State) : State :=
  (fetchEntry q s).setQp q { (fetchEntry q s).qpU q with doomed := ((fetchEntry q s).qpU q).doomed - 1 }

theorem doomCounted_onlyQp (q : Nat) : OnlyQp s (doomCounted q s) := (OnlyQp.of_host fetchEntry_host).trans (onlyQp_setQp _)

theorem tryClose_open (h : s.host.closing = none) : tryClose s = s := by
  unfold tryClose
  rw [h]

theorem doom_eq (q cid op : Nat) (h : s.host.closing = none) :
    doom q cid op s = post q { cid := cid, op := op, status := Sts.version, result := 0 } (doomCounted q s) :=
  tryClose_open (((doomCounted_onlyQp q).trans (post_onlyQp _)).closing.trans h)

theorem pairSame_doom {k q : Nat} (cid op : Nat) (h : s.host.closing = none) (hk : k ≠ q) : PairSame k s (doom q cid op s) := by
  rw [doom_eq q cid op h]
  exact ((pairSame_fetchEntry hk).trans (pairSame_setQp _ hk)).trans (pairSame_post _ hk)

theorem doom_doomed (q cid op : Nat) (h : s.host.closing = none) (hz : (s.qpU q).doomed = 0) :
    ((doom q cid op s).qpU q).doomed = 0 := by
  rw [doom_eq q cid op h, post_doomed, doomCounted, qpU_setQp_self, fetchEntry_qpU]
  dsimp only
  rw [hz]

theorem doom_onlyQp (q cid op : Nat) (h : s.host.closing = none) : OnlyQp s (doom q cid op s) := by
  rw [doom_eq q cid op h]
  exact (doomCounted_onlyQp q).trans (post_onlyQp _)

/-- The commands of one pair completed: only that pair changes, and none of its own remains to be completed. -/
structure Doomed (q : Nat) (s t : State) : Prop where
  host : OnlyQp s t
  doomed : (t.qpU q).doomed = 0
  other : ∀ k, k ≠ q → PairSame k s t

theorem doomed_foldl (q : Nat) (l : List HeldCmd) (h : s.host.closing = none) (hz : (s.qpU q).doomed = 0) :
    Doomed q s (l.foldl (fun s h => doom q h.cid h.op s) s) := by
  induction l generalizing s with
  | nil => exact ⟨.refl s, hz, fun k _ => .refl s⟩
  | cons c r ih =>
    have hone := doom_onlyQp q c.cid c.op h
    obtain ⟨hhost, hdoomed, hother⟩ := ih (hone.closing.trans h) (doom_doomed q c.cid c.op h hz)
    exact ⟨hone.trans hhost, hdoomed, fun k hk => (pairSame_doom c.cid c.op h hk).trans (hother k hk)⟩

/-- What closing has done with the pairs below `n`: none of their queued commands is left to complete; pair `j`, that holds
no command, and the pairs from `n` on are as they were. -/
structure Closing (j n : Nat) (s t : State) : Prop where
  inProg : t.host.inProg = s.host.inProg
  closing : t.host.closing = none
  tev : t.host.tev = s.host.tev
  held : ∀ h ∈ t.host.heldCmds, h ∈ s.host.heldCmds
  later : ∀ k, n ≤ k → PairSame k s t
  own : PairSame j s t
  idle : ∀ k, k < n → (t.qpU k).doomed = 0

/-- A pair with nothing queued marked, its held commands no longer held. -/
def doomMarked (q : Nat) (s : State) : State := dropHeldCmds q (s.setQp q { s.qpU q with doomed := 0 })

theorem doomMarked_pairSame (q : Nat) {k : Nat} (h : k ≠ q ∨ (s.qpU q).doomed = 0) : PairSame k s (doomMarked q s) where
  regs := .refl s
  qp := by
    have hdrop : (doomMarked q s).qpU k = (s.setQp q { s.qpU q with doomed := 0 }).qpU k := rfl
    rw [hdrop]
    by_cases hk : k = q
    · obtain hne | hz := h
      · exact absurd hk hne
      · rw [hk, qpU_setQp_self, ← hz]
    · exact qpU_setQp_other _ _ _ _ hk

theorem doomPair_marked (q : Nat) (hq : queuedIn s q = 0) (hrun : (s.pairOn q && !(s.qpU q).stopped) = true) :
    doomPair q s = (s.host.heldCmds.filter fun h => h.q == q).foldl (fun s h => doom q h.cid h.op s) (doomMarked q s) := by
  unfold doomPair doomMarked
  rw [if_pos hrun, hq]

theorem doomPair_still (q : Nat) (hrun : ¬ (s.pairOn q && !(s.qpU q).stopped) = true) : doomPair q s = s := by
  unfold doomPair
  rw [if_neg hrun]

theorem doomMarked_held (q : Nat) : ∀ h ∈ (doomMarked q s).host.heldCmds, h ∈ s.host.heldCmds :=
  fun _ hm => (List.mem_filter.mp hm).1

theorem doomMarked_doomed (q : Nat) : ((doomMarked q s).qpU q).doomed = 0 := by
  have hdrop : (doomMarked q s).qpU q = (s.setQp q { s.qpU q with doomed := 0 }).qpU q := rfl
  rw [hdrop, qpU_setQp_self]

theorem closing_step (h : Closing j n s t) (hz : ∀ k, k < 16 → (s.qpU k).doomed = 0 ∧ queuedIn s k = 0)
    (hj : ∀ x ∈ s.host.heldCmds, x.q ≠ j) (hn : n < 16) : Closing j (n + 1) s (doomPair n t) := by
  obtain ⟨hdoomed, hqueued⟩ := hz n hn
  have hsame := h.later n (Nat.le_refl n)
  have hdt : (t.qpU n).doomed = 0 := (congrArg Qp.doomed hsame.qp).trans hdoomed
  by_cases hrun : (t.pairOn n && !(t.qpU n).stopped) = true
  · rw [doomPair_marked n (hsame.queuedIn.trans hqueued) hrun]
    have hf := doomed_foldl (s := doomMarked n t) n (t.host.heldCmds.filter fun x => x.q == n) h.closing (doomMarked_doomed n)
    refine ⟨hf.host.inProg.trans h.inProg, hf.host.closing.trans h.closing, hf.host.tev.trans h.tev,
      fun x hx => h.held x (doomMarked_held n x (hf.host.heldCmds ▸ hx)), fun k hk => ?_, ?_, fun k hk => ?_⟩
    · exact ((h.later k (by omega)).trans (doomMarked_pairSame n (.inl (by omega)))).trans (hf.other k (by omega))
    · by_cases hjn : j = n
      · have hmine : (t.host.heldCmds.filter fun x => x.q == n) = [] :=
          List.filter_eq_nil_iff.mpr fun x hx => by
            rw [beq_iff_eq, ← hjn]
            exact hj x (h.held x hx)
        rw [hmine]
        exact h.own.trans (doomMarked_pairSame n (.inr hdt))
      · exact (h.own.trans (doomMarked_pairSame n (.inl hjn))).trans (hf.other j hjn)
    · by_cases hkn : k = n
      · rw [hkn]
        exact hf.doomed
      · rw [(hf.other k hkn).qp, (doomMarked_pairSame n (.inl hkn)).qp]
        exact h.idle k (by omega)
  · rw [doomPair_still n hrun]
    refine ⟨h.inProg, h.closing, h.tev, h.held, fun k hk => h.later k (by omega), h.own, fun k hk => ?_⟩
    by_cases hkn : k = n
    · rw [hkn]
      exact hdt
    · exact h.idle k (by omega)

theorem closing_overN (hc : s.host.closing = none) (hz : ∀ k, k < 16 → (s.qpU k).doomed = 0 ∧ queuedIn s k = 0)
    (hj : ∀ x ∈ s.host.heldCmds, x.q ≠ j) : ∀ n, n ≤ 16 → Closing j n s (overN n doomPair s)
  | 0, _ => ⟨rfl, hc, rfl, fun _ h => h, fun k _ => .refl s, .refl s, fun _ h => absurd h (Nat.not_lt_zero _)⟩
  | n + 1, hn => by
    rw [overN_succ]
    exact closing_step (closing_overN hc hz hj n (by omega)) hz hj (by omega)

/-- The session marked as closing, or as no longer closing. -/
def withClosing (c : Option (Option (Nat × Nat))) (s : State) : State := { s with host.closing := c }

theorem endTimeEvents_none (h : s.host.tev = []) : endTimeEvents s = { s with host.tev := [] } := by
  unfold endTimeEvents
  rw [h]
  rfl

theorem withTev_nil (h : s.host.tev = []) : ({ s with host.tev := [] } : State) = s := by
  rw [← h]

theorem startClose_noTev (bye : Option (Nat × Nat)) (h : (overN 16 doomPair s).host.tev = []) :
    startClose bye s = tryClose (withClosing (some bye) (overN 16 doomPair s)) := by
  unfold startClose
  rw [endTimeEvents_none h, withTev_nil h]
  rfl

/-- A session that nothing keeps open closes. -/
theorem tryClose_idle {bye : Option (Nat × Nat)} (hc : t.host.closing = some bye) (hp : t.host.inProg = [])
    (hd : ∀ k, k < 16 → (t.qpU k).doomed = 0) : tryClose t = match bye with
      | some (q, cid) => post q { cid := cid, op := 0x02, status := Sts.ok, result := 0 } (closeSession (withClosing none t))
      | none => closeSession (withClosing none t) := by
  have hall : (t.host.inProg.isEmpty && (List.range 16).all fun q => (t.qpU q).doomed == 0) = true := by
    rw [Bool.and_eq_true, List.all_eq_true]
    exact ⟨List.isEmpty_iff.mpr hp, fun k hk => beq_iff_eq.mpr (hd k (List.mem_range.mp hk))⟩
  unfold tryClose
  rw [hc]
  exact if_pos hall

/-- The session closed, where the close of no session waited. -/
def closed (s : State) : State := closeSession (withClosing none s)

theorem startClose_idle (bye : Option (Nat × Nat)) (hp : s.host.inProg = []) (ht : s.host.tev = [])
    (h : Closing j 16 s t) (he : t = overN 16 doomPair s) : startClose bye s = match bye with
      | some (q, cid) => post q { cid := cid, op := 0x02, status := Sts.ok, result := 0 } (closed t)
      | none => closed t := by
  have htev : t.host.tev = [] := h.tev.trans ht
  rw [he] at htev
  rw [startClose_noTev bye htev, ← he]
  exact tryClose_idle (t := withClosing (some bye) t) rfl (h.inProg.trans hp) h.idle

theorem closeSession_session : (closeSession s).session = false := by
  have h : Clear REP_STAT_SESSION REP_STAT_VERSION := clear_const rfl
  unfold closeSession State.session
  rw [on_p_clear _ _ h]
  exact on_pb_same _ _ rfl

theorem closeSession_version : (closeSession s).repVersion = 0 := (g_p_self _ _ _ (by decide)).trans (Nat.zero_mod _)

theorem closeSession_out : (closeSession s).out = s.out := by
  unfold closeSession
  rw [State.p_out, State.pb_out]

theorem closeSession_host : (closeSession s).host = s.host := by
  unfold closeSession
  rw [State.p_host, State.pb_host]

theorem closeSession_pairSame (q : Nat) : PairSame q s (closeSession s) where
  regs := ((Alike.refl s).pb _ (by unfold PairZone REP_STAT_SESSION REP_STAT; dsimp only; omega)).p _
    (by unfold PairZone REP_STAT_VERSION REP_STAT; dsimp only; omega)
  qp := qpU_of_host closeSession_host q

theorem closeSession_only : OnlyRegs [REP_STAT] s (closeSession s) :=
  ((onlyRegs_refl _ s).pb _ _ (by decide)).p _ _ (by decide)

theorem withClosing_pairSame (q : Nat) (c : Option (Option (Nat × Nat))) : PairSame q s (withClosing c s) := ⟨.refl s, rfl⟩

theorem closed_pairSame (q : Nat) : PairSame q s (closed s) := (withClosing_pairSame q none).trans (closeSession_pairSame q)

theorem closed_closing : (closed s).host.closing = none := by
  unfold closed
  rw [closeSession_host]
  rfl

theorem closed_out : (closed s).out = s.out := closeSession_out

theorem closed_kept : Kept (fun p => p ≠ .regs ∧ p ≠ .host) s (closed s) :=
  kept_closeSession (by simp) ⟨rfl, rfl, rfl, rfl, List.prefix_refl _, Nat.le_refl _, Nat.le_refl _, id, fun p hp => by
    cases p
    case host => exact absurd rfl hp.2
    all_goals first | rfl | exact ⟨rfl, rfl⟩⟩

/-! ### With no command held -/

theorem doomPair_quiet (q : Nat) (h : t.host.heldCmds = []) : Kept (· ≠ .host) t (doomPair q t) ∧
    (doomPair q t).host.heldCmds = [] := by
  unfold doomPair
  split
  · rw [h]
    exact ⟨kept_dropHeldCmds (by simp) _ (kept_State_setQp (by simp) _ _ (.refl t)), congrArg (List.filter _) h⟩
  · exact ⟨.refl t, h⟩

theorem doomPairs_quiet (h : s.host.heldCmds = []) : ∀ n, Kept (· ≠ .host) s (overN n doomPair s) ∧
    (overN n doomPair s).host.heldCmds = []
  | 0 => ⟨.refl s, h⟩
  | n + 1 => by
    obtain ⟨hk, hh⟩ := doomPairs_quiet h n
    rw [overN_succ]
    exact ⟨hk.trans (doomPair_quiet n hh).1, (doomPair_quiet n hh).2⟩

end

/-! ## Settling the obligation -/

section
variable {s : State} {e : Entry} {op : Nat}

theorem cmdUnknownOpcode_turn {o : BitVec 8} (h : Turn s e.q) (ho : o ≠ 1#8) (hk : (sessionTakes s && knownOp s o.toNat) = false) :
    cmdUnknownOpcode e o s = unknownOpcode e o.toNat (fetchEntry e.q s) := by
  have hne : ¬ (o.toNat = 0x01 ∨ (sessionTakes s && knownOp s o.toNat) = true) := by
    rw [hk]
    rintro (h1 | h1)
    · exact ho (BitVec.eq_of_toNat_eq h1)
    · exact absurd h1 (by decide)
  unfold cmdUnknownOpcode
  rw [live_of h.live, if_neg hne, take_turn _ _ h]

theorem refused_unknown {o : BitVec 8} {st : Nat} (h : Turn s e.q) (ho : o ≠ 1#8)
    (hk : (sessionTakes s && knownOp s o.toNat) = false) (hst : (if sessionTakes s then Sts.unknownOp else Sts.version) = st) :
    Does (.unknownOpcode e o) s fun t => completes e.q e.cid.toNat o.toNat st 0 s t = true ∧ t.ctx = s.ctx ∧ t.psq = s.psq := by
  have hd := done_kept (s := fetchEntry e.q s) (e := e) o.toNat st 0
  have hf := fetchEntry_kept (s := s) (q := e.q)
  refine ⟨done e o.toNat st 0 (fetchEntry e.q s), ?_, completes_done h.writable.fetchEntry fetchEntry_shown rfl (by decide),
    Eq.trans (hd.same .ctx (by simp)) (hf.same .ctx (by simp)), Eq.trans (hd.same .psq (by simp)) (hf.same .psq (by simp))⟩
  refine congrArg Host.Outcome.next ((cmdUnknownOpcode_turn h ho hk).trans ?_)
  unfold unknownOpcode
  rw [fetchEntry_sessionTakes, hst]

end

/-- Settles O34: a command in its turn runs on what its fetch leaves; closing leaves the pair of the BYE as it was. -/
theorem sessionsOpenAndClose : Obligations.SessionsOpenAndClose := by
  unfold Obligations.SessionsOpenAndClose
  intro s e lo hi x v op
  have hello_does {P : State → Prop} (ht : Turn s e.q) (h : P (hello e lo.toNat hi.toNat (fetchEntry e.q s))) :
      Does (.hello e lo hi) s P := ⟨_, congrArg Host.Outcome.next ((live_of ht.live).trans (take_turn _ _ ht)), h⟩
  refine ⟨?opens, ?version, ?again, ?bye, ?close, ?unknown, ?noSession⟩
  case opens =>
    intro hturn hq hc hcid hs hx
    have ht := turn_spec hturn
    have hle := repChoose_lt hx
    refine hello_does ht ?_
    rw [hello_open hq hc hcid (fetchEntry_session.trans hs) hx, done_session, done_version]
    refine ⟨opened_session, opened_version (by omega), completes_done ((opened_pairSame _).writable ht.writable.fetchEntry) ?_ rfl
      (helloResult_lt hle)⟩
    rw [opened_out]
    exact fetchEntry_shown
  case version =>
    intro hturn hq hc hcid hs hx
    have ht := turn_spec hturn
    refine hello_does ht ?_
    rw [hello_version hq hc hcid (fetchEntry_session.trans hs) hx, done_session, fetchEntry_session]
    exact ⟨hs, completes_done ht.writable.fetchEntry fetchEntry_shown rfl (helloResult_lt (by decide))⟩
  case again =>
    intro hturn hq hc hcid hs
    have ht := turn_spec hturn
    refine hello_does ht ?_
    rw [hello_again hq hc hcid (fetchEntry_session.trans hs), done_session, done_version, fetchEntry_session, fetchEntry_version]
    exact ⟨hs, rfl, completes_done ht.writable.fetchEntry fetchEntry_shown rfl (by decide)⟩
  case bye =>
    intro hacc hp htev hz
    obtain ⟨ht, hpass⟩ := accepted_spec hacc
    have htakes := sessionTakes_of_pass hpass
    have hnone : (fetchEntry e.q s).host.closing = none := by
      simp only [sessionTakes, Bool.and_eq_true, Option.isNone_iff_eq_none] at htakes
      exact htakes.2
    have hc := closing_overN (j := e.q) hnone (fun k hk => hz ⟨k, hk⟩) ht.free 16 (Nat.le_refl _)
    have hw : Writable (closed (overN 16 doomPair (fetchEntry e.q s))) e.q :=
      (hc.own.trans (closed_pairSame _)).writable ht.writable.fetchEntry
    have hk : Kept (fun p => p ≠ .regs ∧ p ≠ .out ∧ p ≠ .host) (fetchEntry e.q s) (overN 16 doomPair (fetchEntry e.q s)) :=
      kept_overN _ _ (fun i u hu => kept_doomPair (by simp) (by simp) (by simp) i hu) (.refl _)
    have hout : s.out <+: (closed (overN 16 doomPair (fetchEntry e.q s))).out := by
      rw [closed_out]
      exact fetchEntry_shown.trans hk.shown
    have hrun : cmdBye e s = done e 0x02 Sts.ok 0 (closed (overN 16 doomPair (fetchEntry e.q s))) :=
      (live_of ht.live).trans ((command_accepted _ _ hacc).trans (startClose_idle (some (e.q, e.cid.toNat)) hp htev hc rfl))
    refine ⟨_, congrArg Host.Outcome.next hrun, ?_⟩
    dsimp only
    rw [done_session, done_version]
    refine ⟨closeSession_session, closeSession_version, (post_onlyQp _).closing.trans closed_closing, ?_,
      completes_done hw hout rfl (by decide)⟩
    exact Eq.trans ((done_kept _ _ _).same .ctx (by simp)) (Eq.trans (closed_kept.same .ctx (by simp))
      (Eq.trans (hk.same .ctx (by simp)) (fetchEntry_kept.same .ctx (by simp))))
  case close =>
    intro hr hv hs hnone hheld hp htev hz
    refine .of_hostAt rfl hr ?_
    have hc := closing_overN (j := 0) hnone (fun k hk => hz ⟨k, hk⟩) (by simp [hheld]) 16 (Nat.le_refl _)
    obtain ⟨hk, -⟩ := doomPairs_quiet hheld 16
    have hrun : sessionClose v s = closed (overN 16 doomPair s) := by
      unfold sessionClose
      rw [if_pos (by simp [hv, hs, hnone])]
      exact startClose_idle none hp htev hc rfl
    rw [hrun]
    refine ⟨closeSession_session, closeSession_version, closed_closing, Eq.trans (closed_kept.same .ctx (by simp)) (hk.same .ctx (by simp)),
      closed_out.trans (hk.same .out (by simp)), ?_⟩
    exact OnlyRegs.trans (fun off _ => reg_congr hk.part hk.rev (hk.same .regs (by simp)) off) closeSession_only
  case unknown =>
    intro hturn htakes hknown ho
    exact refused_unknown (turn_spec hturn) ho (by simp [hknown]) (if_pos htakes)
  case noSession =>
    intro hturn hs ho
    have hno : sessionTakes s = false := by simp [sessionTakes, hs]
    exact refused_unknown (turn_spec hturn) ho (by simp [hno]) (if_neg (by simp [hno]))

end Sys2Proof.Machine
end

section
/-!
PROOFS. Loads of an image (spec/02_rigging.md R37-R42; spec/01_architecture.md R25): from flash and NVM as the boot source
says, and from the host.
-/

namespace Sys2Proof.Machine

open Reg

set_option Elab.async false

/-! ## The rigging unit's part of the state -/

/-- The rigging unit at a new value. -/
def withRig (r : RigU) (s : State) : State := { s with rig := r }

section
variable (r : RigU) (s : State)

@[simp] theorem withRig_rig : (withRig r s).rig = r := rfl
@[simp] theorem withRig_reg (off : Nat) : (withRig r s).reg off = s.reg off := rfl
@[simp] theorem withRig_g (f : Fld) : (withRig r s).g f = s.g f := rfl
@[simp] theorem withRig_on (f : Fld) : (withRig r s).on f = s.on f := rfl
@[simp] theorem withRig_out : (withRig r s).out = s.out := rfl

end

/-! ## A load begins -/

section
variable {s : State} {src : Nat}

/-- A load under way, its read not yet sent. -/
def loadBegun (src : Nat) (s : State) : State :=
  withRig { s.rig with load := src, hdr := none, stage := [], image := [] }
    (((s.p CHIP_RIGSTAT_STATE Rg.loading).p CHIP_RIGSTAT_CAUSE 0).pb CHIP_RIGSTAT_SLOT (src == Rg.flash2))

/-- The flash read that a load sends. -/
def loadRead (src : Nat) : List Out :=
  if src = Rg.flash1 then [.qspi 0x6B 0] else if src = Rg.flash2 then [.qspi 0x6B 0x800000] else []

theorem startLoad_eq (src : Nat) (s : State) : startLoad src s = if src = Rg.flash1 then (loadBegun src s).emit (.qspi 0x6B 0)
    else if src = Rg.flash2 then (loadBegun src s).emit (.qspi 0x6B 0x800000) else loadBegun src s := rfl

theorem startLoad_reg (off : Nat) : (startLoad src s).reg off = (loadBegun src s).reg off := by
  rw [startLoad_eq]
  split
  · exact reg_emit _ _ _
  · split
    · exact reg_emit _ _ _
    · rfl

theorem startLoad_rig : (startLoad src s).rig = { s.rig with load := src, hdr := none, stage := [], image := [] } := by
  rw [startLoad_eq]
  split
  · rfl
  · split <;> rfl

theorem loadBegun_out : (loadBegun src s).out = s.out := by
  unfold loadBegun
  rw [withRig_out, State.pb_out, State.p_out, State.p_out]

theorem startLoad_out : (startLoad src s).out = s.out ++ loadRead src := by
  rw [startLoad_eq, loadRead]
  split
  · exact congrArg (· ++ [_]) loadBegun_out
  · split
    · exact congrArg (· ++ [_]) loadBegun_out
    · rw [List.append_nil]
      exact loadBegun_out

theorem startLoad_only : OnlyRegs [CHIP_RIGSTAT] s (startLoad src s) := by
  have h : OnlyRegs [CHIP_RIGSTAT] s (loadBegun src s) :=
    ((((onlyRegs_refl _ s).p _ _ (by decide)).p _ _ (by decide)).pb _ _ (by decide)).of_reg (withRig_reg _ _)
  exact h.of_reg fun off => startLoad_reg off

theorem startLoad_g (f : Fld) : (startLoad src s).g f = (loadBegun src s).g f := by
  unfold State.g
  rw [startLoad_reg]

theorem startLoad_state : (startLoad src s).g CHIP_RIGSTAT_STATE = 1 := by
  have hslot : Clear CHIP_RIGSTAT_STATE CHIP_RIGSTAT_SLOT := clear_const rfl
  have hcause : Clear CHIP_RIGSTAT_STATE CHIP_RIGSTAT_CAUSE := clear_const rfl
  rw [startLoad_g, loadBegun, withRig_g, g_pb_clear _ _ hslot, g_p_clear _ _ hcause]
  exact g_p_self _ _ _ (by decide)

theorem startLoad_slot : (startLoad src s).on CHIP_RIGSTAT_SLOT = (src == Rg.flash2) := by
  rw [on_eq_of_g (startLoad_g CHIP_RIGSTAT_SLOT), loadBegun, withRig_on]
  exact on_pb_same _ _ rfl

end

/-! ## The boot source -/

section
variable {s : State} {ref : Bool}

theorem otpWord_of_rig {t : State} (h : t.rig.otp = s.rig.otp) (i : Nat) : otpWord t i = otpWord s i := by
  unfold otpWord otpValue otpSlots
  rw [h]

theorem bootSrc_of_rig {t : State} (h : t.rig.otp = s.rig.otp) : bootSrc t = bootSrc s := by
  unfold bootSrc
  rw [otpWord_of_rig h]

/-- SYSPLL shown locked. -/
def sysLocked (ref : Bool) (s : State) : State :=
  ((s.pb CLK_REF_INPUT ref).pb (CLK_PLL_STAT_LOCK 0) true).p (CLK_PLL_STAT_BAND 0)
    ((bandFor ((s.pb CLK_REF_INPUT ref).pb (CLK_PLL_STAT_LOCK 0) true) 4000000000 1).getD 0)

/-- The boot source read. -/
def bootRead (ref : Bool) (s : State) : State := withRig { s.rig with booted := true, bootSrc := bootSrc s } (sysLocked ref s)

theorem sysLocked_rig : (sysLocked ref s).rig = s.rig := by
  unfold sysLocked
  rw [State.p_rig, State.pb_rig, State.pb_rig]

theorem bootRead_rig : (bootRead ref s).rig = { s.rig with booted := true, bootSrc := bootSrc s } := rfl

theorem bootRead_out : (bootRead ref s).out = s.out := by
  unfold bootRead sysLocked
  rw [withRig_out, State.p_out, State.pb_out, State.pb_out]

theorem bootRead_flags : (bootRead ref s).on (CLK_PLL_STAT_LOCK 0) = true ∧ (bootRead ref s).on CLK_REF_INPUT = ref := by
  have hband : Clear (CLK_PLL_STAT_LOCK 0) (CLK_PLL_STAT_BAND 0) := clear_inst rfl
  have hbandRef : Clear CLK_REF_INPUT (CLK_PLL_STAT_BAND 0) := clear_below rfl
  have hlockRef : Clear CLK_REF_INPUT (CLK_PLL_STAT_LOCK 0) := clear_below rfl
  unfold bootRead sysLocked
  rw [withRig_on, withRig_on, on_p_clear _ _ hband, on_p_clear _ _ hbandRef, on_pb_clear _ _ hlockRef]
  exact ⟨on_pb_same _ _ rfl, on_pb_same _ _ rfl⟩

theorem bootRead_state : (bootRead ref s).g CHIP_RIGSTAT_STATE = s.g CHIP_RIGSTAT_STATE := by
  have hband : Clear CHIP_RIGSTAT_STATE (CLK_PLL_STAT_BAND 0) := clear_below rfl
  have hlock : Clear CHIP_RIGSTAT_STATE (CLK_PLL_STAT_LOCK 0) := clear_below rfl
  have href : Clear CHIP_RIGSTAT_STATE CLK_REF_INPUT := clear_const rfl
  unfold bootRead sysLocked
  rw [withRig_g, g_p_clear _ _ hband, g_pb_clear _ _ hlock, g_pb_clear _ _ href]

theorem sysPllLock_first (hb : s.rig.booted = false) : sysPllLock ref s =
    if rigState s ≠ Rg.unrigged ∨ bootSrc s = 1 then bootRead ref s
    else startLoad (if bootSrc s = 2 then Rg.nvm else Rg.flash1) (bootRead ref s) := by
  have hsrc : bootSrc (sysLocked ref s) = bootSrc s := bootSrc_of_rig (congrArg RigU.otp sysLocked_rig)
  have hread : withRig { (sysLocked ref s).rig with booted := true, bootSrc := bootSrc (sysLocked ref s) } (sysLocked ref s) =
      bootRead ref s := by rw [hsrc, sysLocked_rig, bootRead]
  have hgo : sysPllLock ref s =
      if rigState s ≠ Rg.unrigged ∨ bootSrc (sysLocked ref s) = 1 then
        withRig { (sysLocked ref s).rig with booted := true, bootSrc := bootSrc (sysLocked ref s) } (sysLocked ref s)
      else startLoad (if bootSrc (sysLocked ref s) = 2 then Rg.nvm else Rg.flash1)
        (withRig { (sysLocked ref s).rig with booted := true, bootSrc := bootSrc (sysLocked ref s) } (sysLocked ref s)) := by
    unfold sysPllLock
    rw [if_neg (by simp [hb])]
    rfl
  rw [hgo, hread, hsrc]

theorem startLoad_clk {src : Nat} {f : Fld} (h : f.off ∉ [CHIP_RIGSTAT]) : (startLoad src s).g f = s.g f :=
  startLoad_only.alike.g h

/-- The boot load begun. -/
theorem bootLoad_flags {src : Nat} : (startLoad src (bootRead ref s)).on (CLK_PLL_STAT_LOCK 0) = true ∧
    (startLoad src (bootRead ref s)).on CLK_REF_INPUT = ref :=
  ⟨(on_eq_of_g (startLoad_clk (by decide))).trans bootRead_flags.1, (on_eq_of_g (startLoad_clk (by decide))).trans bootRead_flags.2⟩

end

/-! ## Headers, images and their verification -/

section
variable {s : State} {h b : List Byte}

theorem headerRead_checked (hf : flashLoading s = true) (hn : s.rig.hdr = none) (hl : h.length = 256) : headerRead h s =
    if headerCause s h ≠ 0 then reject (headerCause s h) (s.emit (.qspiEnd 256)) else withRig { s.rig with hdr := some h } s := by
  unfold headerRead
  rw [if_neg (by simp [hf, hn, hl])]
  rfl

theorem reject_flash1 (c : Nat) (h1 : s.rig.load = 1) : reject c s = startLoad Rg.flash2 (s.p RIG_LOADSTAT_CAUSE_PRI c) := by
  unfold reject
  exact if_pos h1

/-- An image under verification. -/
theorem verify_eq (b : List Byte) (s : State) : verify b s = withRig { s.rig with image := b } (s.p CHIP_RIGSTAT_STATE Rg.verifying) := rfl

theorem verify_spec (b : List Byte) (s : State) : (verify b s).rig = { s.rig with image := b } ∧
    (verify b s).g CHIP_RIGSTAT_STATE = 2 ∧ (verify b s).out = s.out ∧ OnlyRegs [CHIP_RIGSTAT] s (verify b s) := by
  rw [verify_eq, withRig_g, withRig_out, State.p_out]
  exact ⟨rfl, g_p_self _ _ _ (by decide), rfl, ((onlyRegs_refl _ s).p _ _ (by decide)).of_reg (withRig_reg _ _)⟩

theorem imageRead_whole (hf : flashLoading s = true) (hh : s.rig.hdr = some h) (hl : h.length + b.length = imgLen h) :
    imageRead b s = verify (h ++ b) (s.emit (.qspiEnd (imgLen h))) := by
  unfold imageRead
  rw [hh]
  exact if_pos ⟨hf, hl⟩

end

/-! ## The host load -/

section
variable {s : State} {v : Word}

theorem loadCtrlWrite_open (ho : fieldOf RIG_LOADCTRL_OPEN v = 1) (hc : fieldOf RIG_LOADCTRL_COMMIT v = 0)
    (ha : fieldOf RIG_LOADCTRL_ABANDON v = 0) :
    loadCtrlWrite v s = if openOk s then loadOpen (s.plainWrite RIG_LOADCTRL v) else loadRefused s := by
  unfold loadCtrlWrite
  simp only [ho, hc, ha, Nat.lt_irrefl, if_false, if_true]

theorem loadCtrlWrite_commit (ho : fieldOf RIG_LOADCTRL_OPEN v = 0) (hc : fieldOf RIG_LOADCTRL_COMMIT v = 1)
    (ha : fieldOf RIG_LOADCTRL_ABANDON v = 0) : loadCtrlWrite v s =
      if commitTaken s (fieldOf RIG_LOADCTRL_DEST v == 1) then loadCommit (s.plainWrite RIG_LOADCTRL v) else loadRefused s := by
  unfold loadCtrlWrite
  simp only [ho, hc, ha, Nat.zero_ne_one, Nat.lt_irrefl, if_false, if_true]

theorem loadCtrlWrite_abandon (ho : fieldOf RIG_LOADCTRL_OPEN v = 0) (hc : fieldOf RIG_LOADCTRL_COMMIT v = 0)
    (ha : fieldOf RIG_LOADCTRL_ABANDON v = 1) :
    loadCtrlWrite v s = if hostLoading s then loadRestore (s.plainWrite RIG_LOADCTRL v) else loadRefused s := by
  unfold loadCtrlWrite
  simp only [ho, hc, ha, Nat.zero_ne_one, Nat.lt_irrefl, if_false, if_true]

theorem loadRefused_spec (s : State) : (loadRefused s).on RIG_LOADSTAT_REFUSED = true ∧ (loadRefused s).rig = s.rig ∧
    (loadRefused s).out = s.out ∧ OnlyRegs [RIG_LOADSTAT] s (loadRefused s) := by
  unfold loadRefused
  rw [State.pb_rig, State.pb_out]
  exact ⟨on_pb_same _ _ rfl, rfl, rfl, (onlyRegs_refl _ s).pb _ _ (by decide)⟩

/-- What a host load goes back to. -/
def withPrior (s : State) : State := withRig { s.rig with prior := (rigState s, s.g CHIP_RIGSTAT_CAUSE) } s

theorem loadOpen_eq (s : State) : loadOpen s = startLoad Rg.host (withPrior s) := rfl

/-- DEST and RIG_LOADLEN as COMMIT takes them. -/
def withCommit (s : State) : State := withRig { s.rig with dest := s.on RIG_LOADCTRL_DEST, loadLen := s.g RIG_LOADLEN_LENGTH } s

theorem loadCommit_eq (s : State) : loadCommit s = verify (stagedImage s) (withCommit s) := rfl

theorem stagedImage_of_rig {t : State} (h : t.rig = s.rig) : stagedImage t = stagedImage s := by
  unfold stagedImage staged
  rw [h]

theorem loadRestore_eq (s : State) : loadRestore s = withRig { s.rig with load := 0, stage := [], image := [], storing := none }
    ((s.p CHIP_RIGSTAT_STATE s.rig.prior.1).p CHIP_RIGSTAT_CAUSE s.rig.prior.2) := rfl

theorem loadRestore_rig (s : State) : (loadRestore s).rig = { s.rig with load := 0, stage := [], image := [], storing := none } := rfl

theorem loadRestore_out (s : State) : (loadRestore s).out = s.out := by
  rw [loadRestore_eq, withRig_out, State.p_out, State.p_out]

theorem loadRestore_only (s : State) : OnlyRegs [CHIP_RIGSTAT] s (loadRestore s) := by
  rw [loadRestore_eq]
  exact (((onlyRegs_refl _ s).p _ _ (by decide)).p _ _ (by decide)).of_reg (withRig_reg _ _)

theorem loadRestore_state (s : State) : (loadRestore s).g CHIP_RIGSTAT_STATE = s.rig.prior.1 % 8 := by
  have hcause : Clear CHIP_RIGSTAT_STATE CHIP_RIGSTAT_CAUSE := clear_const rfl
  rw [loadRestore_eq, withRig_g, g_p_clear _ _ hcause]
  exact g_p_self _ _ _ (by decide)

/-- The staging SRAM with four bytes written. -/
def stagePut (a : Nat) (l : List Byte) (m : Bank Byte) : Bank Byte :=
  (List.range 4).foldl (fun m i => bankPut 0 (a + i) (l.getD i 0) m) m

theorem stagePut_get (a : Nat) (l : List Byte) (m : Bank Byte) (i : Fin 4) : bankGet 0 (stagePut a l m) (a + i) = l.getD i 0 := by
  have other (j k : Nat) (x : Byte) (b : Bank Byte) (h : j ≠ k) : bankGet 0 (bankPut 0 (a + k) x b) (a + j) = bankGet 0 b (a + j) :=
    bankGet_put_other _ _ _ _ _ _ (by omega)
  have hput : stagePut a l m = bankPut 0 (a + 3) (l.getD 3 0) (bankPut 0 (a + 2) (l.getD 2 0)
      (bankPut 0 (a + 1) (l.getD 1 0) (bankPut 0 (a + 0) (l.getD 0 0) m))) := rfl
  rw [hput]
  match i with
  | 0 => exact ((other 0 3 _ _ (by decide)).trans ((other 0 2 _ _ (by decide)).trans (other 0 1 _ _ (by decide)))).trans (bankGet_put_self _ _ _ _)
  | 1 => exact ((other 1 3 _ _ (by decide)).trans (other 1 2 _ _ (by decide))).trans (bankGet_put_self _ _ _ _)
  | 2 => exact (other 2 3 _ _ (by decide)).trans (bankGet_put_self _ _ _ _)
  | 3 => exact bankGet_put_self _ _ _ _

theorem apertureWrite_loading {off : Nat} (hl : hostLoading s = true) (ha : inAperture off = true) : apertureWrite off v s =
    withRig { s.rig with stage := stagePut (stageAt s off) (leBytes 4 v.toNat) s.rig.stage } s := by
  unfold apertureWrite
  rw [if_pos (by rw [hl, ha]; rfl)]
  rfl

end

/-- Settles O28: each load is one beginning, one verification or one restoring of CHIP_RIGSTAT. -/
theorem bootAndHostLoad : Obligations.BootAndHostLoad := by
  unfold Obligations.BootAndHostLoad
  intro s ref h b v off i
  refine ⟨?flash, ?other, ?header, ?headerBad, ?image, ?nvm, ?open_, ?refused, ?aperture, ?commit, ?abandon⟩
  case flash =>
    intro hd hb hst hsrc
    refine .of_live rfl hd ?_
    rw [sysPllLock_first hb, if_neg (by rw [not_or, not_not]; exact ⟨hst, by omega⟩), if_neg (show ¬ bootSrc s = 2 by omega),
      startLoad_rig, startLoad_out, bootRead_out]
    exact ⟨rfl, rfl, startLoad_state, bootLoad_flags.1, bootLoad_flags.2, rfl⟩
  case other =>
    intro hd hb hst hsrc
    refine .of_live rfl hd ?_
    rw [sysPllLock_first hb]
    by_cases h2 : bootSrc s = 2
    · rw [if_neg (by rw [not_or, not_not]; exact ⟨hst, by omega⟩), if_pos h2, if_pos h2, if_pos h2, startLoad_rig, startLoad_out,
        bootRead_out]
      exact ⟨rfl, rfl, startLoad_state, bootLoad_flags.1, bootLoad_flags.2, List.append_nil _⟩
    · rw [if_pos (.inr (by omega)), if_neg h2, if_neg h2, bootRead_state, bootRead_out]
      exact ⟨rfl, rfl, hst, bootRead_flags.1, bootRead_flags.2, rfl⟩
  case header =>
    intro hd hf hn hl hc
    refine .of_live rfl hd ?_
    rw [headerRead_checked hf hn hl, if_neg (by simp [hc])]
    exact ⟨rfl, rfl, rfl⟩
  case headerBad =>
    intro hd hf hn hl hc h1
    have honly : OnlyRegs [CHIP_RIGSTAT, RIG_LOADSTAT] s
        (startLoad Rg.flash2 ((s.emit (.qspiEnd 256)).p RIG_LOADSTAT_CAUSE_PRI (headerCause s h))) :=
      OnlyRegs.trans ((OnlyRegs.of_reg (onlyRegs_refl _ s) (reg_emit s _)).p _ _ (by decide)) fun off ho =>
        startLoad_only off fun hm => ho (List.mem_cons.mpr (.inl (List.mem_singleton.mp hm)))
    refine .of_live rfl hd ?_
    rw [headerRead_checked hf hn hl, if_pos hc, reject_flash1 (s := s.emit (.qspiEnd 256)) _ h1, startLoad_rig, startLoad_out, State.p_out]
    refine ⟨rfl, startLoad_state, startLoad_slot, (startLoad_clk (by decide)).trans (g_p_self _ _ _ (by decide)), ?_, honly⟩
    exact List.append_assoc _ _ _
  case image =>
    intro hd hf hh hl
    obtain ⟨hrig, hst, hout, honly⟩ := verify_spec (h ++ b) (s.emit (.qspiEnd (imgLen h)))
    refine .of_live rfl hd ?_
    rw [imageRead_whole hf hh hl]
    exact ⟨hrig, hst, hout, OnlyRegs.trans (OnlyRegs.of_reg (onlyRegs_refl _ s) (reg_emit s _)) honly⟩
  case nvm =>
    intro hd hst hl
    refine .of_live rfl hd ?_
    rw [show nvmImageRead s = verify s.rig.nvmImage s from if_pos ⟨hst, hl⟩]
    exact verify_spec s.rig.nvmImage s
  case open_ =>
    intro hr ho hc ha hst hl hb
    have hok : openOk s = true := by
      unfold openOk rigState
      rw [hb, hl]
      rcases hst with hst | hst <;> rw [hst] <;> rfl
    have hg (f : Fld) (hf : f.off ≠ RIG_LOADCTRL) : (s.plainWrite RIG_LOADCTRL v).g f = s.g f := g_plainWrite_off _ _ _ _ hf
    have honly : OnlyRegs [RIG_LOADCTRL, CHIP_RIGSTAT] s (startLoad Rg.host (withPrior (s.plainWrite RIG_LOADCTRL v))) :=
      OnlyRegs.trans (((onlyRegs_refl _ s).plainWrite _ _ (by decide)).of_reg (withRig_reg _ _)) fun off ho =>
        startLoad_only off fun hm => ho (List.mem_cons.mpr (.inr hm))
    refine .of_hostAt rfl hr ?_
    rw [loadCtrlWrite_open ho hc ha, if_pos hok, loadOpen_eq, startLoad_rig, startLoad_out]
    refine ⟨rfl, startLoad_state, ?_, rfl, ?_, honly⟩
    · exact Prod.ext (hg _ (by decide)) (hg _ (by decide))
    · exact (List.append_nil _).trans (plainWrite_out _ _ _)
  case refused =>
    intro hr ho hc ha hl
    refine .of_hostAt rfl hr ?_
    rw [loadCtrlWrite_open ho hc ha, if_neg (by simp [openOk, hl])]
    exact loadRefused_spec s
  case aperture =>
    intro hr ha hl
    have hrun : exec (.apertureWrite off v) s = .next (hostAt (off.toNat / 4 * 4) (apertureWrite (off.toNat / 4 * 4) v) s) :=
      congrArg Host.Outcome.next (if_pos ha)
    refine .of_hostAt hrun hr ?_
    rw [apertureWrite_loading hl ha]
    exact ⟨stagePut_get _ _ _ i, rfl, rfl, rfl⟩
  case commit =>
    intro hr ho hc ha hdest hl
    have hrig : (s.plainWrite RIG_LOADCTRL v).rig = s.rig := plainWrite_rig _ _ _
    have hd : (s.plainWrite RIG_LOADCTRL v).on RIG_LOADCTRL_DEST = false := by
      have hg : (s.plainWrite RIG_LOADCTRL v).g RIG_LOADCTRL_DEST = fieldOf RIG_LOADCTRL_DEST v := g_plainWrite_of_rw (by decide) rfl
      unfold State.on
      rw [hg, hdest]
      rfl
    have hlen : (s.plainWrite RIG_LOADCTRL v).g RIG_LOADLEN_LENGTH = s.g RIG_LOADLEN_LENGTH := g_plainWrite_off _ _ _ _ (by decide)
    have htaken : commitTaken s (fieldOf RIG_LOADCTRL_DEST v == 1) = true := by
      rw [hdest]
      unfold commitTaken
      rw [hl]
      rfl
    obtain ⟨hrigv, hst, hout, honly⟩ := verify_spec (stagedImage (s.plainWrite RIG_LOADCTRL v)) (withCommit (s.plainWrite RIG_LOADCTRL v))
    refine .of_hostAt rfl hr ?_
    rw [loadCtrlWrite_commit ho hc ha, if_pos htaken, loadCommit_eq, hrigv]
    refine ⟨?_, hst, hout.trans (plainWrite_out _ _ _), OnlyRegs.trans (((onlyRegs_refl _ s).plainWrite _ _ (by decide)).of_reg (withRig_reg _ _))
      fun off ho => honly off fun hm => ho (List.mem_cons.mpr (.inr hm))⟩
    unfold withCommit
    rw [withRig_rig, hd, hlen, hrig, stagedImage_of_rig hrig]
  case abandon =>
    intro hr ho hc ha hp hl
    have hrig : (s.plainWrite RIG_LOADCTRL v).rig = s.rig := plainWrite_rig _ _ _
    refine .of_hostAt rfl hr ?_
    rw [loadCtrlWrite_abandon ho hc ha, if_pos hl, loadRestore_state, loadRestore_out, loadRestore_rig, hrig]
    refine ⟨rfl, by omega, rfl, ?_, plainWrite_out _ _ _⟩
    exact (((loadRestore_only _).alike.on (by decide)).trans (on_eq_of_g (g_plainWrite_off _ _ _ _ (by decide))))

end Sys2Proof.Machine
end

section
/-!
PROOFS. An image's verification and the counted settings (spec/02_rigging.md R35-R37, R40, R43-R45).
-/

namespace Sys2Proof.Machine

open Reg

set_option Elab.async false

/-! ## The image is applied -/

section
variable {s t : State}

/-- Outside the DRAM registers. -/
def OutsideDram (off : Nat) : Prop := off < 0x200000 ∨ 0x300000 ≤ off

theorem channels_lt {s : State} {n : Nat} (h : n ∈ channels s) : n < 2 := List.mem_range.mp (List.mem_filter.mp h).1

theorem not_outside_ddrStat {f : Nat → Fld} {n : Nat} (hn : n < 2) (h : (f n).off = DDR_STAT n) : ¬ OutsideDram (f n).off := by
  rw [h]
  unfold OutsideDram DDR_STAT
  omega

theorem scrubSync_outside (h : Alike OutsideDram s t) : Alike OutsideDram s (scrubSync t) := by
  unfold scrubSync
  exact h.foldl fun u n hn hu => hu.pb _ (not_outside_ddrStat (f := DDR_STAT_SCRUBBING) (channels_lt hn) rfl)

/-- The memory and the DRAM units as training begins. -/
def trainCleared (use : Bool) (s : State) : State :=
  { s with mem := [], dram := { s.dram with await := false, ue := [], weak := [], touch := [], full := !use } }

theorem startTraining_outside (s : State) : Alike OutsideDram s (startTraining s) := by
  have hclear (use : Bool) : Alike OutsideDram s (trainCleared use s) := .of_regs (.refl s) ⟨rfl, rfl, rfl⟩
  unfold startTraining
  dsimp only
  refine scrubSync_outside (.p (.pb (.foldl (((hclear _).p _ (by unfold OutsideDram; decide)).p _ (by unfold OutsideDram; decide)
    |>.p _ (by unfold OutsideDram; decide)) fun u n hn hu => ?_) _ (by unfold OutsideDram; decide)) _ (by unfold OutsideDram; decide))
  exact .of_kept ((hu.pb _ (not_outside_ddrStat (f := DDR_STAT_TRAINED) (channels_lt hn) rfl)).pb _ (not_outside_ddrStat (f := DDR_STAT_FAILED) (channels_lt hn) rfl))
    (kept_setDdr (by decide) _ _ (.refl _))

theorem trainClocked_outside (s : State) : Alike OutsideDram s (trainClocked s) := by
  unfold trainClocked
  exact .ite (startTraining_outside s) (.refl s)

/-- An image applied is in force. -/
theorem apply_state (b : List Byte) (ids : Nat) (s : State) : (apply b ids s).g CHIP_RIGSTAT_STATE = 3 := by
  unfold apply
  extract_lets s1 s2 s3 s4 s5 s6
  clear_value s6
  have hset : (s6.p CHIP_RIGSTAT_STATE Rg.rigged).g CHIP_RIGSTAT_STATE = 3 := g_p_self s6 _ _ (by decide)
  exact ((trainClocked_outside _).g (by unfold OutsideDram; decide)).trans ((g_eq_of_regs _ ⟨rfl, rfl, rfl⟩).trans hset)

end

/-! ## Verification ends -/

section
variable {s : State} {ids : Nat}

theorem imageVerified_ends (hst : s.g CHIP_RIGSTAT_STATE = 2) (hs : s.rig.storing = none) : imageVerified ids s =
    if imageCause s s.rig.image ≠ 0 then reject (imageCause s s.rig.image) s
    else if s.rig.load = Rg.host ∧ s.rig.dest = true then withRig { s.rig with storing := some s.rig.image } s
    else apply s.rig.image ids s := by
  unfold imageVerified
  dsimp only
  rw [if_neg (by rw [not_or, not_not]; exact ⟨hst, by simp [hs]⟩)]
  rfl

/-- The load ended with a cause shown. -/
def loadRejected (cause : Nat) (s : State) : State :=
  ((s.p CHIP_RIGSTAT_STATE Rg.rejected).p CHIP_RIGSTAT_CAUSE cause).pb CHIP_RIGSTAT_SLOT false

theorem loadRejected_rig (c : Nat) : (loadRejected c s).rig = s.rig := by
  unfold loadRejected
  rw [State.pb_rig, State.p_rig, State.p_rig]

theorem rejectLoad_eq (c : Nat) (s : State) : rejectLoad c s =
    withRig { (loadRejected c s).rig with load := 0, hdr := none, stage := [], image := [] } (loadRejected c s) := rfl

theorem rejectLoad_rig (c : Nat) : (rejectLoad c s).rig = { s.rig with load := 0, hdr := none, stage := [], image := [] } := by
  rw [rejectLoad_eq, withRig_rig, loadRejected_rig]

theorem rejectLoad_shown (c : Nat) : (rejectLoad c s).g CHIP_RIGSTAT_STATE = 4 ∧ (rejectLoad c s).g CHIP_RIGSTAT_CAUSE = c % 16 := by
  have hst : Clear CHIP_RIGSTAT_STATE CHIP_RIGSTAT_SLOT := clear_const rfl
  have hcause : Clear CHIP_RIGSTAT_CAUSE CHIP_RIGSTAT_SLOT := clear_const rfl
  have hboth : Clear CHIP_RIGSTAT_STATE CHIP_RIGSTAT_CAUSE := clear_const rfl
  rw [rejectLoad_eq, withRig_g, withRig_g, loadRejected, g_pb_clear _ _ hst, g_pb_clear _ _ hcause, g_p_clear _ _ hboth]
  exact ⟨g_p_self _ _ _ (by decide), g_p_self _ _ _ (by decide)⟩

theorem reject_host (c : Nat) (h : s.rig.load = 3) : reject c s = rejectLoad c s := by
  unfold reject
  rw [h, if_neg (by decide), if_neg (by decide)]

/-- The copy to the NVM rigging area stored. -/
def imageStored (b : List Byte) (s : State) : State := withRig { s.rig with nvmImage := b } (s.pb RIG_LOADSTAT_NVM_DONE true)

theorem nvmStoreDone_stored {b : List Byte} (h : s.rig.storing = some b) : nvmStoreDone s = loadRestore (imageStored b s) := by
  unfold nvmStoreDone
  rw [h]
  rfl

theorem imageStored_done {b : List Byte} : (imageStored b s).on RIG_LOADSTAT_NVM_DONE = true := by
  rw [imageStored, withRig_on]
  exact on_pb_same _ _ rfl

theorem imageStored_out {b : List Byte} : (imageStored b s).out = s.out := by
  rw [imageStored, withRig_out, State.pb_out]

end

/-! ## Counted settings -/

section
variable {s : State} {v : Word}

/-- Programming under way. -/
def csetBegun (s : State) : State := withRig { s.rig with prog := some (s.g CSET_SEL_INDEX, csetStaged s (s.g CSET_SEL_INDEX)) }
  ((s.p CSET_STAT_RESULT 0).pb CSET_STAT_BUSY true)

theorem csetConfirm_begins (hv : fieldOf CSET_CMD_CONFIRM v = 0x5A17) (hb : s.on CSET_STAT_BUSY = false)
    (hok : csetValueOk s (s.g CSET_SEL_INDEX) = true) (hslots : (otpSlots s (s.g CSET_SEL_INDEX)).length < 8)
    (hlo : 160 ≤ s.gi THM_TJ_TJ) (hhi : s.gi THM_TJ_TJ ≤ 1360) : csetConfirm v s = csetBegun s := by
  unfold csetConfirm
  dsimp only
  rw [if_neg (by simp [hv]), if_neg (by simp [hb]), if_neg (by simp [hok]), if_neg (show ¬ 8 ≤ (otpSlots s _).length by omega),
    if_neg (by omega)]
  rfl

theorem csetBegun_shown : (csetBegun s).on CSET_STAT_BUSY = true ∧ (csetBegun s).g CSET_STAT_RESULT = 0 := by
  have h : Clear CSET_STAT_RESULT CSET_STAT_BUSY := clear_const rfl
  rw [csetBegun, withRig_on, withRig_g, g_pb_clear _ _ h]
  exact ⟨on_pb_same _ _ rfl, g_p_self _ _ _ (by decide)⟩

theorem csetBegun_out : (csetBegun s).out = s.out := by
  rw [csetBegun, withRig_out, State.pb_out, State.p_out]

theorem csetBegun_only : OnlyRegs [CSET_STAT] s (csetBegun s) :=
  (((onlyRegs_refl _ s).p _ _ (by decide)).pb _ _ (by decide)).of_reg (withRig_reg _ _)

theorem csetConfirm_forbidden (hv : fieldOf CSET_CMD_CONFIRM v = 0x5A17) (hb : s.on CSET_STAT_BUSY = false)
    (hok : csetValueOk s (s.g CSET_SEL_INDEX) = false) : csetConfirm v s = s.p CSET_STAT_RESULT 1 := by
  unfold csetConfirm
  dsimp only
  rw [if_neg (by simp [hv]), if_neg (by simp [hb]), if_pos (by simp [hok])]

theorem csetSync_kept : Kept (· ≠ .regs) s (csetSync s) := kept_csetSync (by simp) (.refl s)

theorem csetSync_busy : (csetSync s).on CSET_STAT_BUSY = s.on CSET_STAT_BUSY := by
  have hw : Clear CSET_STAT_BUSY CSET_STAT_WRITTEN := clear_const rfl
  have ht : Clear CSET_STAT_BUSY CSET_STAT_TORN := clear_const rfl
  have hr : Clear CSET_STAT_BUSY CSET_STAT_REMAIN := clear_const rfl
  have hvals (t : State) (f : State → Nat → Word) : Alike (· = CSET_STAT) t (overN 12 (fun n s => s.setReg (CSET_VAL n) (f s n)) t) :=
    (Alike.refl t).overN fun n u _ hu => hu.setReg _ (by unfold CSET_VAL CSET_STAT; omega)
  unfold csetSync
  dsimp only
  rw [(hvals _ fun s' n => BitVec.ofNat 32 (((otpValue s' (s.g CSET_SEL_INDEX)).getD []).getD n 0)).on rfl, on_p_clear _ _ hr, on_p_clear _ _ ht, on_pb_clear _ _ hw]

theorem otpUse_rig (i : Nat) (w : List Nat) : (otpUse i w true s).rig =
    { s.rig with otp := bankPut [] i (otpSlots s i ++ [⟨w, true⟩]) s.rig.otp, prog := none } := rfl

/-- The programmed setting used and shown. -/
theorem csetDone_used {i : Nat} {w : List Nat} (h : s.rig.prog = some (i, w)) :
    csetDone s = csetSync ((otpUse i w true s).pb CSET_STAT_BUSY false) := by
  unfold csetDone
  rw [h]

theorem csetDone_rig {i : Nat} {w : List Nat} (h : s.rig.prog = some (i, w)) : (csetDone s).rig =
    { s.rig with otp := bankPut [] i (otpSlots s i ++ [⟨w, true⟩]) s.rig.otp, prog := none } := by
  rw [csetDone_used h, csetSync_kept.same .rig (by simp), State.pb_rig, otpUse_rig]

end

/-- Settles O29: by the first check that the image fails, and by the value rule of the setting. -/
theorem imagesAndSettings : Obligations.ImagesAndSettings := by
  unfold Obligations.ImagesAndSettings
  intro s ids b v i w
  refine ⟨?applied, ?copied, ?slot1, ?stored, ?confirm, ?forbidden, ?programmed⟩
  case applied =>
    intro hd hst hs hl hdest
    refine .of_live rfl hd ?_
    rw [imageVerified_ends hst hs]
    by_cases hc : imageCause s s.rig.image = 0
    · rw [if_pos hc, if_neg (by simp [hc]), if_neg (by simp [hdest])]
      exact apply_state _ _ _
    · rw [if_neg hc, if_pos hc, reject_host _ hl, rejectLoad_rig]
      exact ⟨(rejectLoad_shown _).1, (rejectLoad_shown _).2, rfl, rfl⟩
  case copied =>
    intro hd hst hs hl hdest
    refine .of_live rfl hd ?_
    rw [imageVerified_ends hst hs]
    by_cases hc : imageCause s s.rig.image = 0
    · rw [if_pos hc, if_neg (by simp [hc]), if_pos ⟨hl, hdest⟩]
      exact ⟨rfl, rfl⟩
    · rw [if_neg hc, if_pos hc, reject_host _ hl, rejectLoad_rig]
      exact ⟨hs, (rejectLoad_shown _).1⟩
  case slot1 =>
    intro hd hst hs hl
    refine .of_live rfl hd ?_
    rw [imageVerified_ends hst hs]
    by_cases hc : imageCause s s.rig.image = 0
    · rw [if_pos hc, if_neg (by simp [hc]), if_neg (by rw [hl]; exact fun h => absurd h.1 (by decide))]
      exact apply_state _ _ _
    · rw [if_neg hc, if_pos hc, reject_flash1 _ hl, startLoad_rig]
      exact ⟨startLoad_state, rfl, (startLoad_clk (by decide)).trans (g_p_self _ _ _ (by decide))⟩
  case stored =>
    intro hd hs
    have honly : OnlyRegs [RIG_LOADSTAT, CHIP_RIGSTAT] s (loadRestore (imageStored b s)) :=
      OnlyRegs.trans (((onlyRegs_refl _ s).pb _ _ (by decide)).of_reg (withRig_reg _ _)) fun off ho =>
        loadRestore_only _ off fun hm => ho (List.mem_cons.mpr (.inr hm))
    refine .of_live rfl hd ?_
    rw [nvmStoreDone_stored hs, loadRestore_rig, loadRestore_out, imageStored_out]
    exact ⟨rfl, rfl, rfl, ((loadRestore_only _).alike.on (by decide)).trans imageStored_done, rfl, honly⟩
  case confirm =>
    intro hr hv hb hok hslots hlo hhi
    refine .of_hostAt rfl hr ?_
    rw [csetConfirm_begins hv hb hok hslots hlo hhi]
    exact ⟨rfl, csetBegun_shown.1, csetBegun_shown.2, csetBegun_out, csetBegun_only⟩
  case forbidden =>
    intro hr hv hb hok
    refine .of_hostAt rfl hr ?_
    rw [csetConfirm_forbidden hv hb hok, State.p_rig, State.p_out]
    exact ⟨rfl, g_p_self _ _ _ (by decide), rfl, (onlyRegs_refl _ s).p _ _ (by decide)⟩
  case programmed =>
    intro hd hp
    refine .of_live rfl hd ?_
    have hout : (csetDone s).out = s.out := by
      rw [csetDone_used hp, csetSync_kept.same .out (by simp), State.pb_out]
      rfl
    have hbusy : (csetDone s).on CSET_STAT_BUSY = false := by
      rw [csetDone_used hp, csetSync_busy]
      exact on_pb_same _ _ rfl
    have hslots : otpSlots (csetDone s) i = otpSlots s i ++ [⟨w, true⟩] := by
      rw [otpSlots, csetDone_rig hp]
      exact bankGet_put_self _ _ _ _
    rw [csetDone_rig hp]
    exact ⟨hslots, rfl, hbusy, hout⟩

end Sys2Proof.Machine
end

section
/-!
PROOFS. The Ethernet ports (spec/17_network_time.md R371-R376): a frame received by its class, the FIFOs, a frame sent.
-/

namespace Sys2Proof.Machine

open Reg

set_option Elab.async false

/-! ## Little-endian bytes read back -/

theorem leNat_leBytes (n v : Nat) : leNat (leBytes n v) = v % 256 ^ n := by
  induction n generalizing v with
  | zero => rw [pow_zero, Nat.mod_one]; rfl
  | succ n ih =>
    have hcons : leNat (leBytes (n + 1) v) = v % 256 + 256 * leNat (leBytes n (v / 256)) :=
      congrArg (· + _) (BitVec.toNat_ofNat v 8)
    rw [hcons, ih, pow_succ, mul_comm (256 ^ n), Nat.mod_mul]

theorem leBytes_length (n v : Nat) : (leBytes n v).length = n := by
  induction n generalizing v with
  | zero => rfl
  | succ n ih => exact congrArg (· + 1) (ih _)

/-- A number stored within a byte string. -/
theorem bytesAt_append (a c : List Byte) (n v : Nat) : bytesAt (a ++ leBytes n v ++ c) a.length n = v % 256 ^ n := by
  unfold bytesAt
  rw [List.append_assoc, List.drop_left, List.take_append_of_le_length (by rw [leBytes_length]),
    List.take_of_length_le (by rw [leBytes_length]), leNat_leBytes]

/-- A saturating count goes on by one. -/
theorem g_inc_self {s : State} {f : Fld} (h : f.lo + f.w ≤ 32) : (s.inc f).g f = min (2 ^ f.w - 1) (s.g f + 1) := by
  unfold State.inc
  rw [g_p_self _ _ _ h]
  have hpos : 0 < 2 ^ f.w := Nat.two_pow_pos _
  exact Nat.mod_eq_of_lt (by omega)

/-! ## The port's part of the state -/

section
variable {s t : State} {p : Nat}

section
variable (f : Eth → Eth)

theorem modEth_g (k : Fld) : (modEth p f s).g k = s.g k := rfl
theorem modEth_on (k : Fld) : (modEth p f s).on k = s.on k := rfl
theorem modEth_reg (off : Nat) : (modEth p f s).reg off = s.reg off := rfl
theorem modEth_out : (modEth p f s).out = s.out := rfl
theorem modEth_inc : (modEth p f s).net.inc = s.net.inc := rfl
theorem ethU_modEth : ethU (modEth p f s) p = f (ethU s p) := bankGet_put_self _ _ _ _
end

theorem ethU_of_net (h : t.net = s.net) (p : Nat) : ethU t p = ethU s p := by
  unfold ethU
  rw [h]

theorem msix_net (v : Nat) : (s.msix v).net = s.net :=
  (kept_State_msix (K := (· = .net)) (by decide) (by decide) v (.refl s)).same .net rfl

theorem prxSync_net : (prxSync p s).net = s.net := by
  unfold prxSync
  rw [State.p_net, State.p_net]

theorem prxSync_out : (prxSync p s).out = s.out := by
  unfold prxSync
  rw [State.p_out, State.p_out]

theorem prxSync_only : OnlyRegs [ETH_PRX p] s (prxSync p s) :=
  ((onlyRegs_refl _ s).p _ _ (by simp [ETH_PRX_COUNT])).p _ _ (by simp [ETH_PRX_TS_COUNT])

/-! ## Reception -/

section
variable {q : Fin 2} {b : List Byte}

theorem frameRx_bad (hup : portUp s q = true) : frameRx q false b s = s.inc (ETH_STAT_FCS_ERR q) := by
  unfold frameRx
  rw [if_neg (by simp [hup]), if_pos (by decide)]

theorem frameRx_dropped (hup : portUp s q = true)
    (h : b.length < 14 ∨ 1518 < b.length ∨ beAt b 12 2 = 0x8808 ∨ accepts s q b = false) : frameRx q true b s = s := by
  unfold frameRx
  rw [if_neg (by simp [hup]), if_neg (by decide), if_pos (by simpa using h)]

/-- A frame that a port takes, to be sorted. -/
structure Taken (s : State) (q : Fin 2) (b : List Byte) : Prop where
  up : portUp s q = true
  long : 14 ≤ b.length
  short : b.length ≤ 1518
  noPause : beAt b 12 2 ≠ 0x8808
  accepted : accepts s q b = true

theorem frameRx_taken (h : Taken s q b) : frameRx q true b s = match classify s q b with
    | .arp => sendFrame q (arpReply s q b) s
    | .solicit => sendFrame q (advertisement s q b) s
    | .repl => match udpOf b with
      | some u => replDatagram q b u s
      | none => s
    | .ptp a => receivePtp q a b s
    | .other => s.inc (ETH_STAT_OTHER q) := by
  have hlong := h.long
  have hshort := h.short
  have hpass : ¬ (b.length < 14 ∨ 1518 < b.length ∨ beAt b 12 2 = 0x8808 ∨ (!accepts s q b) = true) := by
    rw [h.accepted]
    rintro (h1 | h1 | h1 | h1)
    · omega
    · omega
    · exact h.noPause h1
    · exact absurd h1 (by decide)
  unfold frameRx
  rw [if_neg (by simp [h.up]), if_neg (by decide), if_neg hpass] <;> rfl

/-- The entry of a PTP event message in the receive FIFO. -/
def ptpEntry (s : State) (p : Nat) (b : List Byte) : List Byte :=
  leBytes 2 b.length ++ leBytes 2 (1 + 2 * (tagged b).toNat) ++ leBytes 4 (stamp s p b.length (s.gi (ETH_TSLAT_RX p))).1 ++
    leBytes 8 ((stamp s p b.length (s.gi (ETH_TSLAT_RX p))).2 % 2 ^ 48) ++ b

theorem stamp_fst_lt (s : State) (p len : Nat) (ofs : Int) : (stamp s p len ofs).1 < 1000000000 := by
  have h (x : Int) : (x % 1000000000).toNat < 1000000000 := by omega
  exact h _

theorem stamp_snd_lt (s : State) (p len : Nat) (ofs : Int) : (stamp s p len ofs).2 < 2 ^ 48 := by
  have h (x : Int) : (x % 2 ^ 48).toNat < 2 ^ 48 := by omega
  exact h _

theorem ptpEntry_ns (p : Nat) (b : List Byte) :
    bytesAt (ptpEntry s p b) 4 4 = (stamp s p b.length (s.gi (ETH_TSLAT_RX p))).1 := by
  have hlt := stamp_fst_lt s p b.length (s.gi (ETH_TSLAT_RX p))
  unfold ptpEntry
  rw [List.append_assoc (_ ++ leBytes 4 _)]
  refine (bytesAt_append (leBytes 2 b.length ++ leBytes 2 (1 + 2 * (tagged b).toNat)) _ 4 _).trans (Nat.mod_eq_of_lt ?_)
  exact Nat.lt_of_lt_of_le hlt (by decide)

/-- The low six of eight bytes. -/
theorem leBytes_eight (v : Nat) : leBytes 8 v = leBytes 6 v ++ leBytes 2 (v / 256 ^ 6) := by
  simp [leBytes, Nat.div_div_eq_div_mul]

theorem ptpEntry_sec (p : Nat) (b : List Byte) :
    bytesAt (ptpEntry s p b) 8 6 = (stamp s p b.length (s.gi (ETH_TSLAT_RX p))).2 := by
  have hlt := stamp_snd_lt s p b.length (s.gi (ETH_TSLAT_RX p))
  unfold ptpEntry
  rw [Nat.mod_eq_of_lt hlt, leBytes_eight, ← List.append_assoc, List.append_assoc _ (leBytes 2 _) b]
  refine (bytesAt_append (leBytes 2 b.length ++ leBytes 2 (1 + 2 * (tagged b).toNat) ++
    leBytes 4 (stamp s p b.length (s.gi (ETH_TSLAT_RX p))).1) _ 6 _).trans (Nat.mod_eq_of_lt ?_)
  exact Nat.lt_of_lt_of_le hlt (by decide)

theorem ptpEntry_frame (p : Nat) (b : List Byte) : (ptpEntry s p b).drop 16 = b :=
  List.drop_left' (by simp [leBytes_length])

theorem receivePtp_full (a : Nat) (h : 16 ≤ (ethU s p).rx.length) : receivePtp p a b s = s.inc (ETH_STAT_RX_DROP p) := by
  unfold receivePtp
  rw [if_pos h]

theorem receivePtp_rx (a : Nat) (he : ptpEvent b a = true) (h : (ethU s p).rx.length < 16) :
    (ethU (receivePtp p a b s) p).rx = (ethU s p).rx ++ [ptpEntry s p b] := by
  unfold receivePtp
  rw [if_neg (by omega)]
  dsimp only
  rw [ethU_of_net (msix_net _), ethU_of_net prxSync_net, ethU_modEth, he]
  rfl

end

/-! ## The FIFOs -/

section
variable {v : Word}

theorem prxWrite_pop (hp : fieldOf (ETH_PRX_POP p) v = 1) (ht : fieldOf (ETH_PRX_TS_POP p) v = 0) :
    prxWrite p v s = prxSync p (modEth p (fun u => { u with rx := u.rx.drop 1 }) s) := by
  unfold prxWrite
  dsimp only
  rw [if_pos hp, if_neg (show ¬ fieldOf (ETH_PRX_TS_POP p) v = 1 by omega)]

theorem prxWrite_tsPop (hp : fieldOf (ETH_PRX_POP p) v = 0) (ht : fieldOf (ETH_PRX_TS_POP p) v = 1) :
    prxWrite p v s = prxSync p (modEth p (fun u => { u with ts := u.ts.drop 1 }) s) := by
  unfold prxWrite
  dsimp only
  rw [if_neg (show ¬ fieldOf (ETH_PRX_POP p) v = 1 by omega), if_pos ht]

/-- The FIFOs after a write of ETHp_PRX. -/
theorem prxSync_modEth (f : Eth → Eth) : ethU (prxSync p (modEth p f s)) p = f (ethU s p) ∧
    (prxSync p (modEth p f s)).out = s.out ∧ OnlyRegs [ETH_PRX p] s (prxSync p (modEth p f s)) :=
  ⟨(ethU_of_net prxSync_net p).trans (ethU_modEth f), prxSync_out, fun off ho => prxSync_only off ho⟩

/-! ## Transmission -/

theorem ptxWrite_taken (hs : fieldOf (ETH_PTX_SEND p) v = 1) (hb : s.on (ETH_STAT_TX_BUSY p) = false)
    (hlo : 14 ≤ fieldOf (ETH_PTX_LEN p) v) (hhi : fieldOf (ETH_PTX_LEN p) v ≤ 1518) (hup : portUp s p = true) :
    ptxWrite p v s = (modEth p (fun u => { u with tx := some (windowBytes s p (fieldOf (ETH_PTX_LEN p) v)) })
      (s.plainWrite (ETH_PTX p) v)).pb (ETH_STAT_TX_BUSY p) true := by
  have hpass : ¬ (s.on (ETH_STAT_TX_BUSY p) = true ∨ fieldOf (ETH_PTX_LEN p) v < 14 ∨ 1518 < fieldOf (ETH_PTX_LEN p) v) := by
    rw [hb]
    rintro (h | h | h)
    · exact absurd h (by decide)
    · omega
    · omega
  unfold ptxWrite
  dsimp only
  rw [if_neg (by omega), if_neg hpass, if_neg (by simp [hup])]

theorem ptxWrite_error (hs : fieldOf (ETH_PTX_SEND p) v = 1)
    (h : fieldOf (ETH_PTX_LEN p) v < 14 ∨ 1518 < fieldOf (ETH_PTX_LEN p) v ∨ s.on (ETH_STAT_TX_BUSY p) = true) :
    ptxWrite p v s = s.pb (ETH_STAT_TX_ERR p) true := by
  unfold ptxWrite
  dsimp only
  rw [if_neg (by omega), if_pos (by tauto)]

end

/-- The window's frame taken out, no longer being sent. -/
def txTaken (p : Nat) (s : State) : State := (modEth p (fun u => { u with tx := none }) s).pb (ETH_STAT_TX_BUSY p) false

theorem txDone_up {b : List Byte} (ht : (ethU s p).tx = some b) (hup : portUp s p = true) :
    txDone p s = replFlush p (txStamp p b (sendFrame p b (txTaken p s))) := by
  unfold txDone
  rw [ht]
  exact if_neg (by simp [hup])

theorem txTaken_ethU : ethU (txTaken p s) p = { ethU s p with tx := none } :=
  (ethU_of_net (State.pb_net _ _ _) p).trans (ethU_modEth _)

theorem txTaken_busy : (txTaken p s).on (ETH_STAT_TX_BUSY p) = false := on_pb_same _ _ rfl

theorem txTaken_out : (txTaken p s).out = s.out := by
  rw [txTaken, State.pb_out, modEth_out]

theorem sendFrame_ethU (b : List Byte) : ethU (sendFrame p b s) p = ethU s p := rfl

theorem sendFrame_g (b : List Byte) (f : Fld) : (sendFrame p b s).g f = s.g f := g_eq_of_regs f ⟨rfl, rfl, rfl⟩

theorem sendFrame_out (b : List Byte) : (sendFrame p b s).out = s.out ++ [.frame p (padded b) (fcs (padded b))] := rfl

theorem sendFrame_time (b : List Byte) : (sendFrame p b s).time = s.time := rfl

theorem sendFrame_net (b : List Byte) : (sendFrame p b s).net = s.net := rfl

theorem txTaken_time : (txTaken p s).time = s.time := by
  rw [txTaken, State.pb_time]
  rfl

theorem txTaken_inc : (txTaken p s).net.inc = s.net.inc := by
  rw [txTaken, State.pb_net, modEth_inc]

/-- Datagrams that waited, sent in their order. -/
theorem emitAll_out (l : List (UdpHead × List Byte)) (t : State) :
    (l.foldl (fun s w => s.emit (.repl p w.1 w.2)) t).out = t.out ++ l.map (fun w => .repl p w.1 w.2) := by
  induction l generalizing t with
  | nil => exact (List.append_nil _).symm
  | cons w r ih =>
    rw [List.foldl_cons, ih]
    exact List.append_assoc _ _ _

theorem emitAll_rest (l : List (UdpHead × List Byte)) (t : State) :
    Kept (· ≠ .out) t (l.foldl (fun s w => s.emit (.repl p w.1 w.2)) t) :=
  kept_foldl (fun u w hu => kept_State_emit (by simp) _ hu) (.refl t)

theorem replFlush_kept : Kept (fun q => q ≠ .out ∧ q ≠ .net) s (replFlush p s) := kept_replFlush (by simp) (by simp) p (.refl s)

theorem replFlush_ethU : ethU (replFlush p s) p = { ethU s p with wait := [] } := by
  have hk := emitAll_rest (p := p) (ethU s p).wait (modEth p (fun u => { u with wait := [] }) s)
  exact (ethU_of_net (hk.same .net (by simp)) p).trans (ethU_modEth _)

theorem replFlush_out : (replFlush p s).out = s.out ++ (ethU s p).wait.map (fun w => .repl p w.1 w.2) :=
  emitAll_out (ethU s p).wait (modEth p (fun u => { u with wait := [] }) s)

theorem replFlush_on (f : Fld) : (replFlush p s).on f = s.on f :=
  on_eq_of_g (g_eq_of_regs f ⟨replFlush_kept.part, replFlush_kept.rev, replFlush_kept.same .regs (by simp)⟩)

theorem txStamp_none {b : List Byte} (h : ptpAt b = none) : txStamp p b s = s := by
  unfold txStamp
  rw [h]

/-- The egress timestamp of a frame. -/
def egress (s : State) (p : Nat) (b : List Byte) (a : Nat) : TxTs :=
  ⟨beAt b (a + 30) 2, beAt b a 1 % 16, (stamp s p (padded b).length (s.gi (ETH_TSLAT_TX p))).1,
    (stamp s p (padded b).length (s.gi (ETH_TSLAT_TX p))).2⟩

/-- The timestamp FIFO shown with one entry more. -/
def stamped (p : Nat) (x : TxTs) (s : State) : State := prxSync p (modEth p (fun u => { u with ts := u.ts ++ [x] }) s)

theorem txStamp_event {b : List Byte} {a : Nat} (h : ptpAt b = some a) (he : ptpEvent b a = true) (hl : (ethU s p).ts.length < 4) :
    txStamp p b s = (stamped p (egress s p b a) s).msix ((stamped p (egress s p b a) s).g (ETH_CFG_VECTOR p)) := by
  unfold txStamp
  rw [h]
  dsimp only
  rw [if_neg (by simp [he]), if_neg (by omega)]
  rfl

theorem gi_of_g {f : Fld} (h : t.g f = s.g f) : t.gi f = s.gi f := by
  unfold State.gi
  rw [h]

theorem stamp_congr (len : Nat) (ofs : Int) (ht : t.time = s.time) (hi : t.net.inc = s.net.inc)
    (hg : t.g (ETH_STAT_SPEED p) = s.g (ETH_STAT_SPEED p)) : stamp t p len ofs = stamp s p len ofs := by
  unfold stamp sinceSfd byteTenths
  rw [ht, hi, hg]

/-- The frame sent takes the timestamp of its own port and time. -/
theorem egress_sent (b : List Byte) (a : Nat) : egress (sendFrame p b (txTaken p s)) p b a = egress s p b a := by
  have hlat : Clear (ETH_TSLAT_TX p) (ETH_STAT_TX_BUSY p) := clear_inst rfl
  have hspeed : Clear (ETH_STAT_SPEED p) (ETH_STAT_TX_BUSY p) := clear_inst rfl
  have hg (f : Fld) (h : Clear f (ETH_STAT_TX_BUSY p)) : (sendFrame p b (txTaken p s)).g f = s.g f := by
    rw [sendFrame_g, txTaken, g_pb_clear _ _ h, modEth_g]
  have hst := stamp_congr (t := sendFrame p b (txTaken p s)) (s := s) (p := p) (padded b).length (s.gi (ETH_TSLAT_TX p))
    ((sendFrame_time b).trans txTaken_time) ((congrArg NetU.inc (sendFrame_net b)).trans txTaken_inc) (hg _ hspeed)
  unfold egress
  rw [gi_of_g (hg _ hlat), hst]

theorem stamped_ethU (x : TxTs) : ethU (stamped p x s) p = { ethU s p with ts := (ethU s p).ts ++ [x] } :=
  (ethU_of_net prxSync_net p).trans (ethU_modEth _)

theorem stamped_busy (x : TxTs) : (stamped p x s).on (ETH_STAT_TX_BUSY p) = s.on (ETH_STAT_TX_BUSY p) :=
  (prxSync_only (s := modEth p (fun u => { u with ts := u.ts ++ [x] }) s)).alike.on (by
    simp only [List.mem_singleton, ETH_STAT_TX_BUSY, ETH_STAT, ETH_PRX]
    omega)

theorem stamped_out (x : TxTs) : (stamped p x s).out = s.out := prxSync_out

/-! ## The link -/

theorem linkChange_up (speed : Nat) (hp : p < s.part.eth) (hm : s.on (ETH_CFG_MODE p) = true) : linkChange p true speed s =
    (modEth p (fun u => { u with wait := u.wait }) (s.pb (ETH_STAT_LINK p) true)).p (ETH_STAT_SPEED p)
      (linkSpeed (s.g (ETH_CFG_MODE p)) speed) := by
  unfold linkChange
  rw [if_pos (by simp [hp, hm])]
  rfl

theorem linkChange_down (speed : Nat) (hp : p < s.part.eth) (hm : s.on (ETH_CFG_MODE p) = true) : linkChange p false speed s =
    modEth p (fun u => { u with wait := [] }) (s.pb (ETH_STAT_LINK p) false) := by
  unfold linkChange
  rw [if_pos (by simp [hp, hm])]
  rfl

theorem linkSpeed_lt (m x : Nat) : linkSpeed m x < 4 := by
  unfold linkSpeed
  split
  · decide
  · split
    · decide
    · omega

theorem ethPort_lt (q : Fin 2) (h : portUp s q = true) : (q : Nat) < s.part.eth := by
  simp only [portUp, Bool.and_eq_true, decide_eq_true_eq] at h
  exact h.1.1

end

/-- Settles O21: by the class of the frame, and by the state of the port. -/
theorem ethernetFrames : Obligations.EthernetFrames := by
  unfold Obligations.EthernetFrames
  intro s p b a v sp
  have hwidth {f : Fld} (h : Nat.ble (f.lo + f.w) 32 = true) : f.lo + f.w ≤ 32 := Nat.le_of_ble_eq_true h
  refine ⟨?bad, ?dropped, ?arp, ?solicit, ?other, ?ptp, ?ptpFull, ?pop, ?tsPop, ?send, ?sendError, ?sent, ?sentPtp, ?linkUp, ?linkDown⟩
  case bad =>
    intro hd hup
    refine .of_live rfl hd ?_
    rw [frameRx_bad hup, State.inc_net, State.inc_out]
    exact ⟨g_inc_self (hwidth rfl), rfl, rfl, (onlyRegs_refl _ s).inc _ (by simp [ETH_STAT_FCS_ERR])⟩
  case dropped =>
    intro hd hup h
    exact .of_live rfl hd (frameRx_dropped hup h)
  case arp =>
    intro hd hup hlo hhi hpause hacc hcls
    refine .of_live rfl hd ?_
    rw [frameRx_taken ⟨hup, hlo, hhi, hpause, hacc⟩, hcls]
    exact ⟨rfl, rfl, rfl⟩
  case solicit =>
    intro hd hup hlo hhi hpause hacc hcls
    refine .of_live rfl hd ?_
    rw [frameRx_taken ⟨hup, hlo, hhi, hpause, hacc⟩, hcls]
    exact ⟨rfl, rfl, rfl⟩
  case other =>
    intro hd hup hlo hhi hpause hacc hcls
    refine .of_live rfl hd ?_
    rw [frameRx_taken ⟨hup, hlo, hhi, hpause, hacc⟩, hcls]
    dsimp only
    rw [State.inc_net, State.inc_out]
    exact ⟨g_inc_self (hwidth rfl), rfl, rfl, (onlyRegs_refl _ s).inc _ (by simp [ETH_STAT_OTHER])⟩
  case ptp =>
    intro hd hup hlo hhi hpause hacc hcls he hl
    refine .of_live rfl hd ?_
    rw [frameRx_taken ⟨hup, hlo, hhi, hpause, hacc⟩, hcls]
    dsimp only
    rw [receivePtp_rx a he hl, List.length_append, List.getLastD_concat]
    exact ⟨rfl, ptpEntry_frame _ _, ptpEntry_ns _ _, ptpEntry_sec _ _⟩
  case ptpFull =>
    intro hd hup hlo hhi hpause hacc hcls hl
    refine .of_live rfl hd ?_
    rw [frameRx_taken ⟨hup, hlo, hhi, hpause, hacc⟩, hcls]
    dsimp only
    rw [receivePtp_full a hl, State.inc_net, State.inc_out]
    exact ⟨g_inc_self (hwidth rfl), rfl, rfl⟩
  case pop =>
    intro hr hp ht
    refine .of_hostAt rfl hr ?_
    obtain ⟨hu, ho, honly⟩ := prxSync_modEth (s := s) (p := p) fun u => { u with rx := u.rx.drop 1 }
    rw [prxWrite_pop hp ht, hu]
    exact ⟨rfl, rfl, ho, honly⟩
  case tsPop =>
    intro hr hp ht
    refine .of_hostAt rfl hr ?_
    obtain ⟨hu, ho, honly⟩ := prxSync_modEth (s := s) (p := p) fun u => { u with ts := u.ts.drop 1 }
    rw [prxWrite_tsPop hp ht, hu]
    exact ⟨rfl, rfl, ho, honly⟩
  case send =>
    intro hr hs hb hlo hhi hup
    refine .of_hostAt rfl hr ?_
    rw [ptxWrite_taken hs hb hlo hhi hup, State.pb_out, modEth_out, ethU_of_net (State.pb_net _ _ _), ethU_modEth]
    exact ⟨on_pb_same _ _ rfl, rfl, plainWrite_out _ _ _⟩
  case sendError =>
    intro hr hs h
    refine .of_hostAt rfl hr ?_
    rw [ptxWrite_error hs h, State.pb_net, State.pb_out]
    exact ⟨on_pb_same _ _ rfl, rfl, rfl, (onlyRegs_refl _ s).pb _ _ (by simp [ETH_STAT_TX_ERR])⟩
  case sent =>
    intro hd ht hup hn
    refine .of_live rfl hd ?_
    rw [txDone_up ht hup, txStamp_none hn, replFlush_out, replFlush_ethU, replFlush_on, sendFrame_ethU, txTaken_ethU, sendFrame_out,
      txTaken_out]
    exact ⟨(on_eq_of_g (sendFrame_g _ _)).trans txTaken_busy, rfl, rfl, List.append_assoc _ _ _⟩
  case sentPtp =>
    intro hd ht hup ha he hl
    refine .of_live rfl hd ?_
    have hl' : (ethU (sendFrame p b (txTaken p s)) p).ts.length < 4 := by
      rw [sendFrame_ethU, txTaken_ethU]
      exact hl
    have hout : s.out ++ [.frame p (padded b) (fcs (padded b))] <+: (stamped p (egress s p b a) (sendFrame p b (txTaken p s))).out := by
      rw [stamped_out, sendFrame_out, txTaken_out]
    rw [txDone_up ht hup, txStamp_event ha he hl', egress_sent, replFlush_ethU, replFlush_on, ethU_of_net (msix_net _), stamped_ethU,
      sendFrame_ethU, txTaken_ethU]
    have hbusy : (stamped p (egress s p b a) (sendFrame p b (txTaken p s))).on (ETH_STAT_TX_BUSY p) = false :=
      (stamped_busy _).trans ((on_eq_of_g (sendFrame_g _ _)).trans txTaken_busy)
    refine ⟨(on_msix _ _ ?_).trans hbusy, rfl, mem_shown ((hout.trans (prefix_msix _ rfl)).trans replFlush_kept.shown) List.mem_cons_self, rfl⟩
    have hp := p.isLt
    unfold ETH_STAT_TX_BUSY ETH_STAT
    dsimp only
    omega
  case linkUp =>
    intro hd hp hm
    have hspeed : Clear (ETH_STAT_LINK p) (ETH_STAT_SPEED p) := clear_inst rfl
    refine .of_live rfl hd ?_
    rw [linkChange_up _ hp hm, on_p_clear _ _ hspeed, modEth_on, State.p_out, modEth_out, State.pb_out]
    refine ⟨on_pb_same _ _ rfl, (g_p_self _ _ _ (hwidth rfl)).trans (Nat.mod_eq_of_lt (linkSpeed_lt _ _)), rfl, ?_⟩
    exact OnlyRegs.p (OnlyRegs.of_reg ((onlyRegs_refl _ s).pb _ _ (by simp [ETH_STAT_LINK])) (modEth_reg _)) _ _ (by simp [ETH_STAT_SPEED])
  case linkDown =>
    intro hd hp hm
    have hspeed : Clear (ETH_STAT_SPEED p) (ETH_STAT_LINK p) := clear_inst rfl
    refine .of_live rfl hd ?_
    rw [linkChange_down _ hp hm, modEth_on, modEth_g, g_pb_clear _ _ hspeed, modEth_out, State.pb_out]
    exact ⟨on_pb_same _ _ rfl, rfl, rfl, OnlyRegs.of_reg ((onlyRegs_refl _ s).pb _ _ (by simp [ETH_STAT_LINK])) (modEth_reg _)⟩

end Sys2Proof.Machine
end

section
/-!
PROOFS. DMA channels (spec/19_dma.md R396-R406): triggers, timers and fences, a descriptor fetched, a channel stopped by an
error.
-/

namespace Sys2Proof.Machine

open Reg

set_option Elab.async false

/-! ## The channel's part of the state -/

section
variable {s t : State} {n m : Nat}

section
variable (f : Dma → Dma)

theorem modDma_g (k : Fld) : (modDma n f s).g k = s.g k := rfl
theorem modDma_on (k : Fld) : (modDma n f s).on k = s.on k := rfl
theorem modDma_reg (off : Nat) : (modDma n f s).reg off = s.reg off := rfl
theorem modDma_out : (modDma n f s).out = s.out := rfl
theorem modDma_mem : (modDma n f s).mem = s.mem := rfl
theorem modDma_timer : (modDma n f s).dma.timer = s.dma.timer := rfl
theorem dmaU_modDma : dmaU (modDma n f s) n = f (dmaU s n) := bankGet_put_self _ _ _ _
theorem dmaU_modDma_other (h : m ≠ n) : dmaU (modDma n f s) m = dmaU s m := bankGet_put_other _ _ _ _ _ _ h

end

theorem dmaU_of_dma (h : t.dma = s.dma) (n : Nat) : dmaU t n = dmaU s n := by
  unfold dmaU
  rw [h]

/-! ## A move begins -/

/-- The transfers in flight note the spans of a new one. -/
def noted (l : List Nat) (mine : List Span) (s : State) : State :=
  l.foldl (fun s m => modDma m (fun u => { u with hazard := u.hazard ++ mine }) s) s

/-- What noting a span leaves. -/
structure Noted (s t : State) : Prop where
  reg : ∀ off, t.reg off = s.reg off
  out : t.out = s.out
  mem : t.mem = s.mem
  timer : t.dma.timer = s.dma.timer
  step : ∀ k, (dmaU t k).step = (dmaU s k).step
  desc : ∀ k, (dmaU t k).desc = (dmaU s k).desc

theorem noted_spec (l : List Nat) (mine : List Span) (s : State) : Noted s (noted l mine s) := by
  induction l generalizing s with
  | nil => exact ⟨fun _ => rfl, rfl, rfl, rfl, fun _ => rfl, fun _ => rfl⟩
  | cons m r ih =>
    have hone (k : Nat) : (dmaU (modDma m (fun u => { u with hazard := u.hazard ++ mine }) s) k).step = (dmaU s k).step ∧
        (dmaU (modDma m (fun u => { u with hazard := u.hazard ++ mine }) s) k).desc = (dmaU s k).desc := by
      by_cases hk : k = m
      · rw [hk, dmaU_modDma]
        exact ⟨rfl, rfl⟩
      · rw [dmaU_modDma_other _ hk]
        exact ⟨rfl, rfl⟩
    obtain ⟨hreg, hout, hmem, htimer, hstep, hdesc⟩ := ih (modDma m (fun u => { u with hazard := u.hazard ++ mine }) s)
    exact ⟨hreg, hout, hmem, htimer, fun k => (hstep k).trans (hone k).1, fun k => (hdesc k).trans (hone k).2⟩

theorem dmaRun_eq (n : Nat) (s : State) : ∃ l mine hz, dmaRun n s =
    (modDma n (fun u => { u with step := .move, hazard := hz, snap := snapOf s (dmaU s n).desc }) (noted l mine s)).p
      (DMA_STAT_STATE n) Dst.running := ⟨_, _, _, rfl⟩

theorem dmaRun_reg (n : Nat) (s : State) (off : Nat) (h : off ≠ DMA_STAT n) : (dmaRun n s).reg off = s.reg off := by
  obtain ⟨l, mine, hz, he⟩ := dmaRun_eq n s
  rw [he]
  exact (reg_setReg_other _ _ _ _ h).trans ((noted_spec l mine s).reg off)

theorem dmaRun_g {f : Fld} (h : Clear f (DMA_STAT_STATE n)) : (dmaRun n s).g f = s.g f := by
  obtain ⟨l, mine, hz, he⟩ := dmaRun_eq n s
  rw [he, g_p_clear _ _ h, modDma_g]
  unfold State.g
  rw [(noted_spec l mine s).reg]

theorem dmaRun_state : (dmaRun n s).g (DMA_STAT_STATE n) = 2 := by
  obtain ⟨l, mine, hz, he⟩ := dmaRun_eq n s
  rw [he]
  exact g_p_self _ _ _ (Nat.le_of_ble_eq_true rfl)

theorem dmaRun_only (n : Nat) (s : State) : OnlyRegs [DMA_STAT n] s (dmaRun n s) := fun off ho =>
  dmaRun_reg n s off fun h => ho (List.mem_singleton.mpr h)

/-- The channel as its move begins. -/
theorem dmaRun_own (n : Nat) (s : State) : (dmaU (dmaRun n s) n).step = .move ∧ (dmaU (dmaRun n s) n).desc = (dmaU s n).desc ∧
    (dmaU (dmaRun n s) n).snap = snapOf s (dmaU s n).desc := by
  obtain ⟨l, mine, hz, he⟩ := dmaRun_eq n s
  rw [he, dmaU_of_dma (State.p_dma _ _ _), dmaU_modDma]
  exact ⟨rfl, (noted_spec l mine s).desc n, rfl⟩

theorem dmaRun_rest (n : Nat) (s : State) : (dmaRun n s).out = s.out ∧ (dmaRun n s).mem = s.mem ∧
    (dmaRun n s).dma.timer = s.dma.timer := by
  obtain ⟨l, mine, hz, he⟩ := dmaRun_eq n s
  obtain ⟨-, hout, hmem, htimer, -, -⟩ := noted_spec l mine s
  rw [he, State.p_out, State.p_mem, State.p_dma, modDma_out, modDma_mem, modDma_timer]
  exact ⟨hout, hmem, htimer⟩

theorem dmaRun_other (s : State) (h : m ≠ n) : (dmaU (dmaRun n s) m).step = (dmaU s m).step := by
  obtain ⟨l, mine, hz, he⟩ := dmaRun_eq n s
  rw [he, dmaU_of_dma (State.p_dma _ _ _), dmaU_modDma_other _ h]
  exact (noted_spec l mine s).step m

/-! ## A trigger -/

/-- What a trigger's pulse for channel `n` leaves. -/
structure Pulsed (n : Nat) (s t : State) : Prop where
  only : OnlyRegs [DMA_STAT n] s t
  out : t.out = s.out
  mem : t.mem = s.mem
  timer : t.dma.timer = s.dma.timer
  other : ∀ m, m ≠ n → (dmaU t m).step = (dmaU s m).step

namespace Pulsed

theorem refl (n : Nat) (s : State) : Pulsed n s s := ⟨onlyRegs_refl _ s, rfl, rfl, rfl, fun _ _ => rfl⟩

theorem trans {u : State} (h : Pulsed n s t) (k : Pulsed n t u) : Pulsed n s u :=
  ⟨h.only.trans k.only, k.out.trans h.out, k.mem.trans h.mem, k.timer.trans h.timer,
    fun m hm => (k.other m hm).trans (h.other m hm)⟩

theorem p (h : Pulsed n s t) {f : Fld} (v : Nat) (hf : f.off = DMA_STAT n) : Pulsed n s (t.p f v) where
  only := h.only.p _ _ (by rw [hf]; exact List.mem_singleton_self _)
  out := (State.p_out _ _ _).trans h.out
  mem := (State.p_mem _ _ _).trans h.mem
  timer := (congrArg DmaU.timer (State.p_dma _ _ _)).trans h.timer
  other m hm := (congrArg Dma.step (dmaU_of_dma (State.p_dma _ _ _) m)).trans (h.other m hm)

theorem pb (h : Pulsed n s t) {f : Fld} (v : Bool) (hf : f.off = DMA_STAT n) : Pulsed n s (t.pb f v) := h.p v.toNat hf

theorem modDma (h : Pulsed n s t) (f : Dma → Dma) : Pulsed n s (modDma n f t) :=
  ⟨h.only, h.out, h.mem, h.timer, fun m hm => (congrArg Dma.step (dmaU_modDma_other f hm)).trans (h.other m hm)⟩

theorem run (n : Nat) (s : State) : Pulsed n s (dmaRun n s) :=
  ⟨dmaRun_only n s, (dmaRun_rest n s).1, (dmaRun_rest n s).2.1, (dmaRun_rest n s).2.2, fun _ hm => dmaRun_other s hm⟩

end Pulsed

theorem pulsed_dmaTake (n : Nat) (s : State) : Pulsed n s (dmaTake n s) := by
  unfold dmaTake dmaPastTrigger
  split
  · have hp := (Pulsed.refl n s).p (f := DMA_STAT_PEND n) (s.g (DMA_STAT_PEND n) - 1) rfl
    split
    · exact hp.modDma _
    · exact hp.trans (.run n _)
  · exact .refl n s

theorem pulsed_dmaPulse (n : Nat) (s : State) : Pulsed n s (dmaPulse n s) := by
  unfold dmaPulse
  split
  · exact .refl n s
  · split
    · exact (Pulsed.refl n s).pb _ rfl
    · exact ((Pulsed.refl n s).p _ rfl).trans (pulsed_dmaTake n _)

theorem dmaTake_idle (h : (dmaU s n).step ≠ .trigger) : dmaTake n s = s := by
  unfold dmaTake
  rw [if_neg fun hc => h hc.1]

/-- One more pending trigger. -/
def pended (n : Nat) (s : State) : State := s.p (DMA_STAT_PEND n) (s.g (DMA_STAT_PEND n) + 1)

theorem pended_pend (h : s.g (DMA_STAT_PEND n) < 15) : (pended n s).g (DMA_STAT_PEND n) = s.g (DMA_STAT_PEND n) + 1 := by
  unfold pended
  rw [g_p_self _ _ _ (Nat.le_of_ble_eq_true rfl)]
  have hw : (DMA_STAT_PEND n).w = 4 := rfl
  rw [hw]
  omega

theorem pended_dma : (pended n s).dma = s.dma := State.p_dma _ _ _

theorem dmaPulse_open (he : s.on (DMA_CTRL_ENABLE n) = true) (hp : s.g (DMA_STAT_PEND n) < 15) :
    dmaPulse n s = dmaTake n (pended n s) := by
  unfold dmaPulse
  rw [if_neg (by simp [he]), if_neg (by omega)]
  rfl

theorem dmaPulse_kept (he : s.on (DMA_CTRL_ENABLE n) = true) (hp : s.g (DMA_STAT_PEND n) < 15)
    (hs : (dmaU s n).step ≠ .trigger) : dmaPulse n s = pended n s := by
  rw [dmaPulse_open he hp]
  refine dmaTake_idle ?_
  rw [dmaU_of_dma pended_dma]
  exact hs

theorem dmaPulse_lost (he : s.on (DMA_CTRL_ENABLE n) = true) (hp : s.g (DMA_STAT_PEND n) = 15) :
    dmaPulse n s = s.pb (DMA_STAT_TRIG_LOST n) true := by
  unfold dmaPulse
  rw [if_neg (by simp [he]), if_pos hp]

/-- A pending trigger taken again at once. -/
def taken (n : Nat) (s : State) : State := (pended n s).p (DMA_STAT_PEND n) ((pended n s).g (DMA_STAT_PEND n) - 1)

theorem taken_dma : (taken n s).dma = s.dma := (State.p_dma _ _ _).trans pended_dma

theorem dmaPulse_taken (he : s.on (DMA_CTRL_ENABLE n) = true) (hp : s.g (DMA_STAT_PEND n) < 15)
    (hs : (dmaU s n).step = .trigger) (hf : (dmaU s n).desc.flag 7 = false) : dmaPulse n s = dmaRun n (taken n s) := by
  have hon : (pended n s).on (DMA_STAT_PEND n) = true := by
    unfold State.on
    rw [pended_pend hp]
    rfl
  rw [dmaPulse_open he hp]
  unfold dmaTake
  rw [if_pos ⟨(congrArg Dma.step (dmaU_of_dma pended_dma n)).trans hs, hon⟩]
  have hflag : ¬ (dmaU (taken n s) n).desc.flag 7 = true := by
    rw [dmaU_of_dma taken_dma, hf]
    exact Bool.false_ne_true
  exact if_neg hflag

theorem taken_pend (hp : s.g (DMA_STAT_PEND n) < 15) : (taken n s).g (DMA_STAT_PEND n) = s.g (DMA_STAT_PEND n) := by
  unfold taken
  rw [g_p_self _ _ _ (Nat.le_of_ble_eq_true rfl), pended_pend hp, Nat.add_sub_cancel]
  have hw : (DMA_STAT_PEND n).w = 4 := rfl
  rw [hw]
  omega

theorem taken_only (n : Nat) (s : State) : OnlyRegs [DMA_STAT n] s (taken n s) :=
  ((onlyRegs_refl _ s).p _ _ (by simp [DMA_STAT_PEND])).p _ _ (by simp [DMA_STAT_PEND])

theorem taken_out : (taken n s).out = s.out := by
  unfold taken pended
  rw [State.p_out, State.p_out]

/-! ## Timers -/

theorem dmaTimer_due (k : Nat) (he : s.on (DMT_CTRL_ENABLE k) = true) (hc : bankGet 0 s.dma.timer k + timerNs s k ≤ s.clock) :
    dmaTimer k s = dmaSource 1 k
      { s with dma := { s.dma with timer := bankPut 0 k (bankGet 0 s.dma.timer k + timerNs s k) s.dma.timer } } := by
  unfold dmaTimer
  exact if_pos ⟨he, hc⟩

/-- The timer's reference moved on. -/
def timerMoved (k : Nat) (s : State) : State :=
  { s with dma := { s.dma with timer := bankPut 0 k (bankGet 0 s.dma.timer k + timerNs s k) s.dma.timer } }

theorem timerMoved_timer (k : Nat) : bankGet 0 (timerMoved k s).dma.timer k = bankGet 0 s.dma.timer k + timerNs s k :=
  bankGet_put_self _ _ _ _

/-- What the pulses of a source leave. -/
structure Sourced (s t : State) : Prop where
  only : OnlyRegs ((List.range 64).map DMA_STAT) s t
  out : t.out = s.out
  mem : t.mem = s.mem
  timer : t.dma.timer = s.dma.timer

theorem sourced_dmaSource (src idx : Nat) (s : State) : Sourced s (dmaSource src idx s) := by
  unfold dmaSource
  refine overN_keeps (P := Sourced s) 64 _ (fun i u hi hu => ?_) s ⟨onlyRegs_refl _ s, rfl, rfl, rfl⟩
  split
  · have hp := pulsed_dmaPulse i u
    refine ⟨hu.only.trans fun off ho => hp.only off fun hm => ho ?_, hp.out.trans hu.out, hp.mem.trans hu.mem,
      hp.timer.trans hu.timer⟩
    rw [List.mem_singleton.mp hm]
    exact List.mem_map.mpr ⟨i, List.mem_range.mpr hi, rfl⟩
  · exact hu

/-- Channel `n` while the channels below `i` have had a pulse that it takes too. -/
structure Pulsing (n i : Nat) (s t : State) : Prop where
  ctrl : t.reg (DMA_CTRL n) = s.reg (DMA_CTRL n)
  pend : t.g (DMA_STAT_PEND n) = s.g (DMA_STAT_PEND n) + (if n < i then 1 else 0)
  step : (dmaU t n).step = (dmaU s n).step

theorem Pulsing.field {i : Nat} (h : Pulsing n i s t) {f : Fld} (hf : f.off = DMA_CTRL n) : t.g f = s.g f := by
  unfold State.g
  rw [hf, h.ctrl]

theorem stat_ne_stat {i : Nat} (h : n ≠ i) : DMA_STAT n ≠ DMA_STAT i := by
  unfold DMA_STAT
  omega

theorem ctrl_ne_stat (n i : Nat) : DMA_CTRL n ≠ DMA_STAT i := by
  unfold DMA_CTRL DMA_STAT
  omega

/-- One channel's pulse, seen from channel `n`. -/
theorem Pulsing.other {i : Nat} (h : Pulsing n i s t) (hi : n ≠ i) {u : State} (hu : Pulsed i t u) : Pulsing n (i + 1) s u where
  ctrl := (hu.only _ (by simp [ctrl_ne_stat])).trans h.ctrl
  pend := by
    rw [hu.only.alike.g (f := DMA_STAT_PEND n) fun hm => stat_ne_stat hi (List.mem_singleton.mp hm), h.pend]
    congr 1
    split <;> split <;> omega
  step := (hu.other n hi).trans h.step

theorem pulsing_step {i src idx : Nat} (h : Pulsing n i s t) (hsrc : s.g (DMA_CTRL_TRIG_SRC n) = src)
    (hidx : s.g (DMA_CTRL_TRIG_IDX n) = idx) (he : s.on (DMA_CTRL_ENABLE n) = true) (hp : s.g (DMA_STAT_PEND n) < 15)
    (hs : (dmaU s n).step ≠ .trigger) : Pulsing n (i + 1) s
      (if t.g (DMA_CTRL_TRIG_SRC i) = src ∧ t.g (DMA_CTRL_TRIG_IDX i) = idx then dmaPulse i t else t) := by
  by_cases hi : n = i
  · subst hi
    have hpend : t.g (DMA_STAT_PEND n) = s.g (DMA_STAT_PEND n) := by
      rw [h.pend, if_neg (Nat.lt_irrefl n), Nat.add_zero]
    have hlt : t.g (DMA_STAT_PEND n) < 15 := by
      rw [hpend]
      exact hp
    rw [if_pos ⟨(h.field rfl).trans hsrc, (h.field rfl).trans hidx⟩,
      dmaPulse_kept ((on_eq_of_g (h.field rfl)).trans he) hlt (by rw [h.step]; exact hs)]
    refine ⟨(reg_setReg_other _ _ _ _ (ctrl_ne_stat n n)).trans h.ctrl, ?_, (congrArg Dma.step (dmaU_of_dma pended_dma n)).trans h.step⟩
    rw [pended_pend hlt, hpend, if_pos (Nat.lt_succ_self n)]
  · split
    · exact h.other hi (pulsed_dmaPulse i t)
    · exact h.other hi (.refl i t)

theorem dmaSource_pulses {src idx : Nat} (hn : n < 64) (hsrc : s.g (DMA_CTRL_TRIG_SRC n) = src)
    (hidx : s.g (DMA_CTRL_TRIG_IDX n) = idx) (he : s.on (DMA_CTRL_ENABLE n) = true) (hp : s.g (DMA_STAT_PEND n) < 15)
    (hs : (dmaU s n).step ≠ .trigger) : (dmaSource src idx s).g (DMA_STAT_PEND n) = s.g (DMA_STAT_PEND n) + 1 ∧
      (dmaU (dmaSource src idx s) n).step = (dmaU s n).step := by
  have hall : ∀ i, Pulsing n i s (overN i (fun n s =>
      if s.g (DMA_CTRL_TRIG_SRC n) = src ∧ s.g (DMA_CTRL_TRIG_IDX n) = idx then dmaPulse n s else s) s) := by
    intro i
    induction i with
    | zero => exact ⟨rfl, (Nat.add_zero _).symm, rfl⟩
    | succ i ih =>
      rw [overN_succ]
      exact pulsing_step ih hsrc hidx he hp hs
  have h := hall 64
  refine ⟨?_, h.step⟩
  have hpend := h.pend
  rwa [if_pos hn] at hpend

/-! ## A channel stopped by an error -/

/-- The channel at rest, its vector not yet raised. -/
def dmaStopped (n err : Nat) (s : State) : State :=
  modDma n (fun u => { u with step := .idle, hazard := [], last := [] })
    (((s.p (DMA_STAT_ERR n) err).pb (DMA_CTRL_ENABLE n) false).p (DMA_STAT_STATE n) Dst.error)

theorem dmaStopped_step (n err : Nat) (s : State) : (dmaU (dmaStopped n err s) n).step = .idle :=
  congrArg Dma.step (dmaU_modDma _)

theorem dmaFail_eq (n err : Nat) (s : State) : dmaFail n err s =
    contained 0x31 n err 0xFFFF ((dmaStopped n err s).msix ((dmaStopped n err s).g (DMA_CTRL_VECTOR n))) := rfl

/-- What an error leaves of the channel. -/
structure Failed (n err : Nat) (s t : State) : Prop where
  step : (dmaU t n).step = .idle
  enable : t.on (DMA_CTRL_ENABLE n) = false
  err : t.g (DMA_STAT_ERR n) = err
  state : t.g (DMA_STAT_STATE n) = Dst.error
  mem : t.mem = s.mem

theorem failed_dmaFail {err : Nat} (hn : n < 64) (herr : err < 16) : Failed n err s (dmaFail n err s) := by
  have haside : Alike Aside (dmaStopped n err s) (dmaFail n err s) := by
    rw [dmaFail_eq]
    exact aside_contained _ _ _ _ (aside_msix (.refl _) (g_lt _ _))
  have hkept : Kept (fun p => p = .dma ∨ p = .mem) (dmaStopped n err s) (dmaFail n err s) := by
    rw [dmaFail_eq]
    exact kept_contained (by simp) (by simp) (by simp) (by simp) (by simp) (by simp) (by simp) _ _ _ _
      (kept_State_msix (by simp) (by simp) _ (.refl _))
  have hzone {off : Nat} (h : DMA_CTRL n ≤ off) (h' : off < DMA_CTRL n + 64) : Aside off := by
    unfold DMA_CTRL at h h'
    unfold Aside
    omega
  have hmem : (dmaFail n err s).mem = (dmaStopped n err s).mem := hkept.same .mem (.inr rfl)
  have henable : Clear (DMA_CTRL_ENABLE n) (DMA_STAT_STATE n) := clear_inst rfl
  have herrState : Clear (DMA_STAT_ERR n) (DMA_STAT_STATE n) := clear_inst rfl
  have herrEnable : Clear (DMA_STAT_ERR n) (DMA_CTRL_ENABLE n) := clear_inst rfl
  refine ⟨?_, (haside.on (hzone ?_ ?_)).trans ?_, (haside.g (hzone ?_ ?_)).trans ?_, (haside.g (hzone ?_ ?_)).trans ?_,
    hmem.trans ?_⟩
  · exact (congrArg Dma.step (dmaU_of_dma (hkept.same .dma (.inl rfl)) n)).trans (dmaStopped_step n err s)
  · exact Nat.le_refl _
  · exact Nat.lt_add_of_pos_right (by decide)
  · rw [dmaStopped, modDma_on, on_p_clear _ _ henable]
    exact on_pb_same _ _ rfl
  · unfold DMA_STAT_ERR DMA_STAT DMA_CTRL
    dsimp only
    omega
  · unfold DMA_STAT_ERR DMA_STAT DMA_CTRL
    dsimp only
    omega
  · rw [dmaStopped, modDma_g, g_p_clear _ _ herrState, g_pb_clear _ _ herrEnable, g_p_self _ _ _ (Nat.le_of_ble_eq_true rfl)]
    exact Nat.mod_eq_of_lt herr
  · unfold DMA_STAT_STATE DMA_STAT DMA_CTRL
    dsimp only
    omega
  · unfold DMA_STAT_STATE DMA_STAT DMA_CTRL
    dsimp only
    omega
  · rw [dmaStopped, modDma_g, g_p_self _ _ _ (Nat.le_of_ble_eq_true rfl)]
    exact Nat.mod_eq_of_lt (by decide : Dst.error < 8)
  · rw [dmaStopped, modDma_mem, State.p_mem, State.pb_mem, State.p_mem]

theorem dmaFail_shown (n err : Nat) (s : State) : s.out <+: (dmaFail n err s).out :=
  (kept_dmaFail (K := fun _ => False) id id id id id id id id n err (.refl s)).shown

theorem fetchFail_failed {err : Nat} (hn : n < 64) (herr : err < 16) : Failed n err s (fetchFail n err s) := by
  have h := failed_dmaFail (s := s.p (DMA_BYTES_BYTES n) 0) hn herr
  exact ⟨h.step, h.enable, h.err, h.state, h.mem.trans (State.p_mem _ _ _)⟩

theorem fetchFail_shown (n err : Nat) (s : State) : s.out <+: (fetchFail n err s).out := by
  have h := dmaFail_shown n err (s.p (DMA_BYTES_BYTES n) 0)
  rwa [State.p_out] at h

theorem hostReadAer_out (s : State) : (hostReadAer s).out = s.out ++ [.aerHostRead (s.fresh.1 % 3)] := rfl

/-- A host read reported through AER is shown, whatever follows. -/
theorem shown_aer {u : State} (h : s.out <+: t.out) (hu : (hostReadAer t).out <+: u.out) :
    (shown s u).any (fun o => match o with | .aerHostRead _ => true | _ => false) = true := by
  obtain ⟨l, hl⟩ := h
  rw [hostReadAer_out, ← hl, List.append_assoc] at hu
  rw [List.any_eq_true]
  exact ⟨_, mem_shown hu (List.mem_append_right _ List.mem_cons_self), rfl⟩

/-! ## A descriptor fetched -/

/-- A descriptor as fetched, no byte of it moved. -/
def descTaken (n : Nat) (d : Desc) (s : State) : State := (modDma n (fun u => { u with desc := d }) s).p (DMA_BYTES_BYTES n) 0

theorem descTaken_dmaU (d : Desc) : dmaU (descTaken n d s) n = { dmaU s n with desc := d } :=
  (dmaU_of_dma (State.p_dma _ _ _) n).trans (dmaU_modDma _)

theorem descTaken_only (d : Desc) : OnlyRegs [DMA_BYTES n] s (descTaken n d s) :=
  OnlyRegs.p ((onlyRegs_refl _ s).of_reg (modDma_reg _)) _ _ (by simp [DMA_BYTES_BYTES])

theorem descTaken_out (d : Desc) : (descTaken n d s).out = s.out := by
  rw [descTaken, State.p_out, modDma_out]

theorem descTaken_mem (d : Desc) : (descTaken n d s).mem = s.mem := by
  rw [descTaken, State.p_mem, modDma_mem]

theorem descTaken_bytes (d : Desc) : (descTaken n d s).g (DMA_BYTES_BYTES n) = 0 :=
  (g_p_self _ _ _ (Nat.le_of_ble_eq_true rfl)).trans (Nat.zero_mod _)

section
variable {d : Desc}

theorem dmaChecked_param (h : descParam s.part d = true) : dmaChecked n d s = dmaFail n 1 (descTaken n d s) := if_pos h

theorem dmaChecked_beyond (h : descParam s.part d = false) (hb : descBeyond s d = true) :
    dmaChecked n d s = dmaFail n 2 (descTaken n d s) := by
  unfold dmaChecked
  dsimp only
  rw [if_neg (by simp [h]), if_pos hb]
  rfl

theorem dmaChecked_go (h : descParam s.part d = false) (hb : descBeyond s d = false) (h6 : d.flag 6 = false) :
    dmaChecked n d s = dmaPastTrigger n (descTaken n d s) := by
  unfold dmaChecked
  dsimp only
  rw [if_neg (by simp [h]), if_neg (by simp [hb]), if_neg (by simp [h6])]
  rfl

/-- A channel that waits for its trigger. -/
def triggerAwaited (n : Nat) (s : State) : State := (modDma n (fun u => { u with step := .trigger }) s).p (DMA_STAT_STATE n) Dst.waiting

theorem dmaChecked_wait (h : descParam s.part d = false) (hb : descBeyond s d = false) (h6 : d.flag 6 = true)
    (hsrc : s.on (DMA_CTRL_TRIG_SRC n) = true) (hp : s.g (DMA_STAT_PEND n) = 0) :
    dmaChecked n d s = triggerAwaited n (descTaken n d s) := by
  have hpend : ¬ ((dmaU (triggerAwaited n (descTaken n d s)) n).step = .trigger ∧
      (triggerAwaited n (descTaken n d s)).on (DMA_STAT_PEND n) = true) := by
    have hst : Clear (DMA_STAT_PEND n) (DMA_STAT_STATE n) := clear_inst rfl
    have hby : Clear (DMA_STAT_PEND n) (DMA_BYTES_BYTES n) := clear_inst rfl
    have hg : (triggerAwaited n (descTaken n d s)).g (DMA_STAT_PEND n) = 0 := by
      rw [triggerAwaited, g_p_clear _ _ hst, modDma_g, descTaken, g_p_clear _ _ hby, modDma_g, hp]
    rintro ⟨-, ho⟩
    unfold State.on at ho
    rw [hg] at ho
    exact absurd ho (by decide)
  have htake : dmaTake n (triggerAwaited n (descTaken n d s)) = triggerAwaited n (descTaken n d s) := if_neg hpend
  have hboth : (d.flag 6 && s.on (DMA_CTRL_TRIG_SRC n)) = true := by
    rw [h6, hsrc]
    rfl
  unfold dmaChecked
  dsimp only
  rw [if_neg (by simp [h]), if_neg (by simp [hb]), if_pos hboth]
  exact htake

end

/-- The read of a descriptor in host memory. -/
def descRead (n : Nat) (s : State) : State := s.emit (.hostRead (curOf s n / 32 * 32) 32 true)

theorem descRead_out : (descRead n s).out = s.out ++ [.hostRead (curOf s n / 32 * 32) 32 true] := rfl

theorem dmaFetch_host {b : List Byte} (hs : (dmaU s n).step = .fetch) (hc : curOf s n % 2 = 0) :
    dmaFetch n (some b) s = dmaChecked n (descOf b) (descRead n s) := by
  unfold dmaFetch
  dsimp only
  rw [if_neg (by simp [hs]), if_pos hc]
  rfl

theorem dmaFetch_failed (hs : (dmaU s n).step = .fetch) (hc : curOf s n % 2 = 0) :
    dmaFetch n none s = fetchFail n 4 (hostReadAer (descRead n s)) := by
  unfold dmaFetch
  dsimp only
  rw [if_neg (by simp [hs]), if_pos hc]
  rfl

theorem dmaFetch_beyond {o : Option (List Byte)} (hs : (dmaU s n).step = .fetch) (hc : curOf s n % 2 = 1)
    (hb : s.installed < curOf s n / 32 * 32 + 32) : dmaFetch n o s = fetchFail n 2 s := by
  unfold dmaFetch
  dsimp only
  rw [if_neg (by simp [hs]), if_neg (by omega), if_pos hb]

theorem descBeyond_read (d : Desc) : descBeyond (descRead n s) d = descBeyond s d := rfl

theorem dmaHostError_fetch {b : List Byte} (hs : (dmaU s n).step = .fetch) (hc : curOf s n % 2 = 0) :
    dmaHostError n b s = fetchFail n 4 (hostReadAer (descRead n s)) := by
  unfold dmaHostError
  dsimp only
  rw [if_neg (by simp [hs]), if_pos ⟨hs, hc⟩]
  rfl

theorem dmaHostError_move {b : List Byte} (hs : (dmaU s n).step = .move) (hc : (dmaU s n).desc.ssp = 0) :
    ∃ k r, dmaHostError n b s = dmaFail n 4 (hostReadAer (dmaMove n k r b s)) := by
  unfold dmaHostError
  exact ⟨_, _, if_pos ⟨hs, hc⟩⟩

end

/-- Settles O16: by the step the channel is at. -/
theorem dmaTriggersAndDescriptors : Obligations.DmaTriggersAndDescriptors := by
  unfold Obligations.DmaTriggersAndDescriptors
  intro s n k b o hd
  have trigger_does {P : State → Prop} (hin : s.fabricFeeds (0x3100 + n.val) 0 = true ∨ s.mapped 0x31 n 0 = true)
      (hsrc : s.g (DMA_CTRL_TRIG_SRC n) = 4) (h : P (dmaPulse n s)) : Does (.dmaTrigger n) s P := by
    refine .of_live rfl hd ?_
    rw [if_pos hin, dmaInput, if_pos hsrc]
    exact h
  have hread_only {t : State} (h : OnlyRegs [DMA_BYTES n] (descRead n s) t) : OnlyRegs [DMA_BYTES n] s t :=
    OnlyRegs.trans (OnlyRegs.of_reg (onlyRegs_refl _ s) (reg_emit s _)) h
  refine ⟨?pended, ?lost, ?taken, ?timer, ?timed, ?fence, ?fetched, ?awaited, ?fenced, ?param, ?beyond, ?fetchError, ?fetchBeyond,
    ?readError, ?moveError⟩
  case pended =>
    intro hin hsrc he hp hs
    refine trigger_does hin hsrc ?_
    rw [dmaPulse_kept he hp hs]
    exact ⟨pended_pend hp, pended_dma, State.p_out _ _ _, (onlyRegs_refl _ s).p _ _ (by simp [DMA_STAT_PEND])⟩
  case lost =>
    intro hin hsrc he hp
    have hpend : Clear (DMA_STAT_PEND n) (DMA_STAT_TRIG_LOST n) := clear_inst rfl
    refine trigger_does hin hsrc ?_
    rw [dmaPulse_lost he hp, g_pb_clear _ _ hpend]
    exact ⟨on_pb_same _ _ rfl, hp, State.pb_dma _ _ _, State.pb_out _ _ _, (onlyRegs_refl _ s).pb _ _ (by simp [DMA_STAT_TRIG_LOST])⟩
  case taken =>
    intro hin hsrc he hp hs hf
    have hpend : Clear (DMA_STAT_PEND n) (DMA_STAT_STATE n) := clear_inst rfl
    refine trigger_does hin hsrc ?_
    rw [dmaPulse_taken he hp hs hf, dmaRun_g hpend, (dmaRun_rest _ _).1]
    exact ⟨(dmaRun_own _ _).1, dmaRun_state, taken_pend hp, taken_out, (taken_only _ s).trans (dmaRun_only _ _)⟩
  case timer =>
    intro he hc
    have hsrc := sourced_dmaSource 1 k (timerMoved k s)
    refine .of_live rfl hd ?_
    rw [dmaTimer_due k he hc]
    exact ⟨(congrArg (bankGet 0 · k) hsrc.timer).trans (timerMoved_timer _), hsrc.out, hsrc.mem, hsrc.only⟩
  case timed =>
    intro he hc hsrc hidx hen hp hs
    refine .of_live rfl hd ?_
    rw [dmaTimer_due k he hc]
    exact dmaSource_pulses (s := timerMoved k s) n.isLt hsrc hidx hen hp hs
  case fence =>
    intro hs
    refine .of_live rfl hd ?_
    rw [if_pos hs]
    exact ⟨(dmaRun_own _ _).1, dmaRun_state, dmaRun_only _ _, (dmaRun_rest _ _).2.1, (dmaRun_rest _ _).1⟩
  case fetched =>
    intro hs hc hparam hbeyond h6 h7
    have hbytes : Clear (DMA_BYTES_BYTES n) (DMA_STAT_STATE n) := clear_inst rfl
    have hrun : dmaPastTrigger n (descTaken n (descOf b) (descRead n s)) = dmaRun n (descTaken n (descOf b) (descRead n s)) := by
      unfold dmaPastTrigger
      rw [descTaken_dmaU, if_neg (by simp [h7])]
    refine .of_live rfl hd ?_
    rw [dmaFetch_host hs hc, dmaChecked_go (s := descRead n s) hparam hbeyond h6, hrun, dmaRun_g hbytes, (dmaRun_rest _ _).1,
      (dmaRun_rest _ _).2.1, (dmaRun_own _ _).2.1, (dmaRun_own _ _).2.2, descTaken_dmaU, descTaken_out, descTaken_mem]
    refine ⟨(dmaRun_own _ _).1, rfl, fun hss hds => ?_, dmaRun_state, descTaken_bytes _, rfl, rfl, ?_⟩
    · unfold snapOf
      rw [if_pos ⟨hss, hds⟩, descTaken_mem]
      rfl
    · refine OnlyRegs.trans (fun off ho => hread_only (descTaken_only _) off fun hm => ho (List.mem_cons.mpr (.inr hm))) fun off ho =>
        dmaRun_only _ _ off fun hm => ho ?_
      rw [List.mem_singleton.mp hm]
      exact List.mem_cons_self
  case awaited =>
    intro hs hc hparam hbeyond h6 hsrc hp
    refine .of_live rfl hd ?_
    rw [dmaFetch_host hs hc, dmaChecked_wait (s := descRead n s) hparam hbeyond h6 hsrc hp]
    unfold triggerAwaited
    rw [dmaU_of_dma (State.p_dma _ _ _), dmaU_modDma, descTaken_dmaU, State.p_out, modDma_out, descTaken_out, State.p_mem, modDma_mem,
      descTaken_mem]
    refine ⟨rfl, rfl, g_p_self _ _ _ (Nat.le_of_ble_eq_true rfl), rfl, rfl, ?_⟩
    exact OnlyRegs.p (OnlyRegs.of_reg (fun off ho => hread_only (descTaken_only _) off fun hm => ho (List.mem_cons.mpr (.inr hm)))
      (modDma_reg _)) _ _ (by simp [DMA_STAT_STATE])
  case fenced =>
    intro hs hc hparam hbeyond h6 h7
    have hwait : dmaPastTrigger n (descTaken n (descOf b) (descRead n s)) =
        modDma n (fun u => { u with step := .fence }) (descTaken n (descOf b) (descRead n s)) := by
      unfold dmaPastTrigger
      rw [descTaken_dmaU, if_pos h7]
    refine .of_live rfl hd ?_
    rw [dmaFetch_host hs hc, dmaChecked_go (s := descRead n s) hparam hbeyond h6, hwait, dmaU_modDma, descTaken_dmaU, modDma_out,
      descTaken_out, modDma_mem, descTaken_mem]
    exact ⟨rfl, rfl, rfl, rfl, OnlyRegs.of_reg (hread_only (descTaken_only _)) (modDma_reg _)⟩
  case param =>
    intro hs hc hparam
    have hf := failed_dmaFail (s := descTaken n (descOf b) (descRead n s)) (err := 1) n.isLt (by decide)
    refine .of_live rfl hd ?_
    rw [dmaFetch_host hs hc, dmaChecked_param (s := descRead n s) hparam]
    exact ⟨hf.step, hf.enable, hf.err, hf.state, hf.mem.trans (descTaken_mem _)⟩
  case beyond =>
    intro hs hc hparam hbeyond
    have hf := failed_dmaFail (s := descTaken n (descOf b) (descRead n s)) (err := 2) n.isLt (by decide)
    refine .of_live rfl hd ?_
    rw [dmaFetch_host hs hc, dmaChecked_beyond (s := descRead n s) hparam hbeyond]
    exact ⟨hf.step, hf.enable, hf.err, hf.state, hf.mem.trans (descTaken_mem _)⟩
  case fetchError =>
    intro hs hc
    have hf := fetchFail_failed (s := hostReadAer (descRead n s)) (err := 4) n.isLt (by decide)
    refine .of_live rfl hd ?_
    rw [dmaFetch_failed hs hc]
    exact ⟨hf.step, hf.enable, hf.err, hf.state, hf.mem, shown_aer (List.prefix_append _ _) (fetchFail_shown _ _ _)⟩
  case fetchBeyond =>
    intro hs hc hbeyond
    have hf := fetchFail_failed (s := s) (err := 2) n.isLt (by decide)
    refine .of_live rfl hd ?_
    rw [dmaFetch_beyond hs hc hbeyond]
    exact ⟨hf.step, hf.enable, hf.err, hf.state, hf.mem⟩
  case readError =>
    intro hs hc
    have hf := fetchFail_failed (s := hostReadAer (descRead n s)) (err := 4) n.isLt (by decide)
    refine .of_live rfl hd ?_
    rw [dmaHostError_fetch hs hc]
    exact ⟨hf.step, hf.enable, hf.err, hf.state, hf.mem, shown_aer (List.prefix_append _ _) (fetchFail_shown _ _ _)⟩
  case moveError =>
    intro hs hc
    obtain ⟨j, r, hrun⟩ := dmaHostError_move (b := b) hs hc
    have hf := failed_dmaFail (s := hostReadAer (dmaMove n j r b s)) (err := 4) n.isLt (by decide)
    have hmove : Kept (fun _ => False) s (dmaMove n j r b s) := kept_dmaMove id id id id id id id id id id id id _ _ _ _ (.refl s)
    refine .of_live rfl hd ?_
    rw [hrun]
    exact ⟨hf.step, hf.enable, hf.err, hf.state, shown_aer hmove.shown (dmaFail_shown _ _ _)⟩

end Sys2Proof.Machine
end

section
/-!
PROOFS. What a fault that strikes a sheet leaves alone (spec/05_passage.md R21-R23): registers of the engine's units, and of
the stations but STNn_STAT.
-/

namespace Sys2Proof.Machine

open Reg

set_option Elab.async false

/-- Registers that spoiling a context leaves alone: past the codec's, not STNn_STAT, and at no place where a timed pulse
output of any number would have its status. -/
def Unspoiled (off : Nat) : Prop := 0x420000 ≤ off ∧ off % 0x20 ≠ 0x18 ∧ off % 0x100000 ≠ 0x2C

section
variable {s t : State} {off : Nat}

theorem not_unspoiled_low (h : off < 0x420000) : ¬ Unspoiled off := fun hu => by
  unfold Unspoiled at hu
  omega

theorem not_unspoiled_ctx {c : Nat} (h : c < 256) : ¬ Unspoiled (PCTX_STATE c) :=
  not_unspoiled_low (by unfold PCTX_STATE; omega)

theorem not_unspoiled_tpo (k : Nat) : ¬ Unspoiled (TPO_STAT k) := fun hu => by
  unfold Unspoiled TPO_STAT at hu
  omega

theorem not_unspoiled_stat (n : Nat) : ¬ Unspoiled (STN_STAT n) := fun hu => by
  unfold Unspoiled STN_STAT at hu
  omega

theorem unspoiled_psqSync (h : Alike Unspoiled s t) : Alike Unspoiled s (psqSync t) := by
  have hsync : Alike Unspoiled s (((t.p PSQ_STAT_ARMED ((ctxKeys t).filter fun c => ctxState t c == Px.armed).length).p
      PSQ_DEMAND_MBS (sumN (((ctxKeys t).filter (demands t)).map fun c => (t.ctxU c).demand))).p CODEC_VSTAT_SHEETS
      ((ctxKeys t).filter fun c => ctxState t c == Px.verifying).length) :=
    ((h.p _ (not_unspoiled_low (by decide))).p _ (not_unspoiled_low (by decide))).p _ (not_unspoiled_low (by decide))
  unfold psqSync
  dsimp only
  generalize ((t.p PSQ_STAT_ARMED _).p PSQ_DEMAND_MBS _).p CODEC_VSTAT_SHEETS _ = u at hsync ⊢
  refine .ite hsync ?_
  unfold spoilShow
  dsimp only
  split
  · exact Alike.of_regs ((hsync.of_regs (u := { u with psq := { u.psq with spoilOut := _ } }.event (.spoil _)) ⟨rfl, rfl, rfl⟩).pb
      _ (not_unspoiled_tpo _)) (drive_regs _ _ _ _ _)
  · exact hsync.of_regs ⟨rfl, rfl, rfl⟩

theorem unspoiled_stopFetch (c n : Nat) (h : Alike Unspoiled s t) : Alike Unspoiled s (stopFetch c n t) := by
  unfold stopFetch fetchSync
  exact Alike.pb (h.of_regs ⟨rfl, rfl, rfl⟩) _ (not_unspoiled_stat n)

theorem unspoiled_darkFor (c n : Nat) (h : Alike Unspoiled s t) : Alike Unspoiled s (darkFor c n t) :=
  h.of_kept (kept_darkFor (by decide) (by decide) (by decide) c n (.refl t))

theorem unspoiled_modCtx (c : Nat) (f : Ctx → Ctx) (h : Alike Unspoiled s t) : Alike Unspoiled s (t.modCtx c f) :=
  h.of_regs ⟨rfl, rfl, rfl⟩

theorem unspoiled_withPsq (q : PsqU) (h : Alike Unspoiled s t) : Alike Unspoiled s { t with psq := q } :=
  h.of_regs ⟨rfl, rfl, rfl⟩

theorem unspoiled_event (e : Event) (h : Alike Unspoiled s t) : Alike Unspoiled s (t.event e) :=
  h.of_regs ⟨rfl, rfl, rfl⟩

theorem unspoiled_spoil {c : Nat} (cause : Nat) (hc : c < 256) (h : Alike Unspoiled s t) :
    Alike Unspoiled s (spoil cause c t) := by
  have hctx := not_unspoiled_ctx hc
  have hstruck : Alike Unspoiled s ((t.p (PCTX_STATE_STATE c) Px.spoiled).p (PCTX_STATE_CAUSE c) cause) :=
    (h.p _ hctx).p _ hctx
  have hdark (u : State) (hu : Alike Unspoiled s u) :
      Alike Unspoiled s (overN 8 (fun n s => darkFor c n (stopFetch c n s)) u) :=
    hu.overN fun n r _ hr => unspoiled_darkFor c n (unspoiled_stopFetch c n hr)
  unfold spoil
  dsimp only
  refine .ite (unspoiled_psqSync (unspoiled_event _ (unspoiled_withPsq _ (unspoiled_modCtx _ _ hstruck))))
    (.ite h (.ite (unspoiled_psqSync (unspoiled_withPsq _ (hdark _ (unspoiled_modCtx _ _ hstruck)))) (.ite (h.p _ hctx) h)))

/-- A sheet that a hard stop has jammed can only change its cause. -/
theorem spoil_jammed {c : Nat} (cause : Nat) (h : ctxState s c = Px.jammed) :
    spoil cause c s = s ∨ spoil cause c s = s.p (PCTX_STATE_CAUSE c) cause := by
  have hnow : deliveredNow s c = false := by
    unfold deliveredNow
    rw [h]
    rfl
  unfold spoil
  dsimp only
  rw [hnow, h, if_neg (by decide), if_neg (by simp [Px.jammed, Px.feeding]), if_neg (by decide)]
  split
  · exact .inr rfl
  · exact .inl rfl

/-- Where a context of any number has its state. -/
theorem ctx_aligned (c : Nat) : PCTX_STATE c % 16 = 0 := by
  unfold PCTX_STATE
  omega

/-- A fault at a station leaves the registers of other units alone. -/
theorem spoilAt_alike (cause n : Nat) : Alike (fun off => Unspoiled off ∧ off % 16 ≠ 0) s (spoilAt cause n s) := by
  unfold spoilAt
  split
  · exact (unspoiled_spoil cause (g_lt _ _) (.refl s)).mono fun _ h => h.1
  · split
    · split
      next c t _ hjam =>
        rcases spoil_jammed (s := s) cause hjam.2 with e | e
        · rw [e]
          exact .refl s
        · rw [e]
          exact (Alike.refl s).p _ fun h => h.2 (ctx_aligned c)
      · exact .refl s
    · exact .refl s

/-- A field that a fault at a station leaves alone: in another register, or below a context's cause. -/
def FieldUnspoiled (f : Fld) : Prop := Unspoiled f.off ∧ (f.off % 16 ≠ 0 ∨ f.lo + f.w ≤ 4)

theorem spoilAt_g {f : Fld} (cause n : Nat) (h : FieldUnspoiled f) : (spoilAt cause n s).g f = s.g f := by
  obtain ⟨hu, hf⟩ := h
  by_cases ha : f.off % 16 ≠ 0
  · exact (spoilAt_alike cause n).g ⟨hu, ha⟩
  · have hlo := hf.resolve_left ha
    unfold spoilAt
    split
    · exact (unspoiled_spoil cause (g_lt _ _) (.refl s)).g hu
    · split
      · split
        next c t _ hjam =>
          rcases spoil_jammed (s := s) cause hjam.2 with e | e
          · rw [e]
          · rw [e]
            exact g_p_clear _ _ ⟨Nat.le_of_ble_eq_true rfl, .inr (.inl hlo)⟩
        · rfl
      · rfl

theorem spoilAt_kept (cause n : Nat) :
    Kept (fun p => p ≠ .regs ∧ p ≠ .free ∧ p ≠ .out ∧ p ≠ .psq ∧ p ≠ .ctx ∧ p ≠ .stn) s (spoilAt cause n s) :=
  kept_spoilAt (by simp) (by simp) (by simp) (by simp) (by simp) (by simp) cause n (.refl s)

end

end Sys2Proof.Machine
end

section
/-!
PROOFS. Control of FOC channels and command pins (spec/10_motors_foc.md R233-R252): the rules of a channel's part of the
state, the loss of a polygon's lock, the controlled stop, MCn_CTRL writes, and command pins.
-/

namespace Sys2Proof.Machine

open Reg

set_option Elab.async false

/-! ## A channel's part of the state -/

section
variable (n : Nat) (f : Mc → Mc) (s : State)

@[simp] theorem modMc_reg (off : Nat) : (modMc n f s).reg off = s.reg off := rfl
@[simp] theorem modMc_g (k : Fld) : (modMc n f s).g k = s.g k := rfl
@[simp] theorem modMc_gi (k : Fld) : (modMc n f s).gi k = s.gi k := rfl
@[simp] theorem modMc_on (k : Fld) : (modMc n f s).on k = s.on k := rfl
@[simp] theorem mcState_modMc (m : Nat) : mcState (modMc n f s) m = mcState s m := rfl
@[simp] theorem modMc_out : (modMc n f s).out = s.out := rfl
@[simp] theorem modMc_rig : (modMc n f s).rig = s.rig := rfl
@[simp] theorem modMc_cmd : (modMc n f s).mot.cmd = s.mot.cmd := rfl
@[simp] theorem modMc_ports : (modMc n f s).mot.ce = s.mot.ce := rfl

@[simp] theorem mcU_modMc : mcU (modMc n f s) n = f (mcU s n) := bankGet_put_self _ _ _ _

theorem mcU_of_mot {s t : State} (h : t.mot = s.mot) (n : Nat) : mcU t n = mcU s n := by
  unfold mcU
  rw [h]

theorem modMc_mot {s t : State} (h : t.mot = s.mot) : (modMc n f t).mot = (modMc n f s).mot := by
  unfold modMc mcU
  dsimp only
  rw [h]

theorem Alike.modMc {Z : Nat → Prop} {s t : State} (h : Alike Z s t) (n : Nat) (f : Mc → Mc) : Alike Z s (modMc n f t) :=
  h.of_regs ⟨rfl, rfl, rfl⟩

end

/-! ## The loss of a polygon's lock (R247) -/

section
variable {s : State} {n : Nat}

/-- A channel's counts of edges inside and outside the window start again. -/
def windowsReset (n : Nat) (s : State) : State := modMc n (fun u => { u with inWin := 0, outWin := 0 }) s

theorem loseLock_unlocked (h : s.on (MC_STAT_LOCKED n) = false) : loseLock n s = windowsReset n s := by
  unfold loseLock windowsReset
  dsimp only
  rw [if_neg (by simp [h])]

theorem spoilAt_mot (cause k : Nat) (t : State) : (spoilAt cause k t).mot = t.mot :=
  (spoilAt_kept (s := t) cause k).same .mot (by simp)

theorem event_mot (e : Event) (t : State) : (t.event e).mot = t.mot := rfl

theorem loseLock_mot : (loseLock n s).mot = (windowsReset n s).mot := by
  unfold loseLock windowsReset
  dsimp only
  split
  · rw [spoilAt_mot, event_mot, State.pb_mot]
  · rfl

theorem mcU_loseLock : mcU (loseLock n s) n = { mcU s n with inWin := 0, outWin := 0 } :=
  (mcU_of_mot loseLock_mot n).trans (mcU_modMc _ _ _)

/-- A field that the loss of a channel's lock leaves alone. -/
theorem loseLock_g {f : Fld} (h : FieldUnspoiled f) (hl : Clear f (MC_STAT_LOCKED n)) : (loseLock n s).g f = s.g f := by
  unfold loseLock
  dsimp only
  split
  · rw [spoilAt_g _ _ h]
    exact g_pb_clear (windowsReset n s) false hl
  · rfl

theorem loseLock_on {f : Fld} (h : FieldUnspoiled f) (hl : Clear f (MC_STAT_LOCKED n)) : (loseLock n s).on f = s.on f :=
  on_eq_of_g (loseLock_g h hl)

theorem loseLock_shown : s.out <+: (loseLock n s).out :=
  (kept_loseLock (K := fun _ => False) id id id id id id id n (.refl s)).shown

end

/-- The fields of a channel's control and status that no loss of a lock changes. -/
theorem ctrl_unspoiled (n : Fin 24) {lo w : Nat} (h : lo + w ≤ 4) : FieldUnspoiled ⟨MC_CTRL n, lo, w⟩ := by
  have hn := n.isLt
  unfold FieldUnspoiled Unspoiled MC_CTRL
  dsimp only
  exact ⟨by omega, .inr h⟩

theorem stat_unspoiled (n : Fin 24) (lo w : Nat) : FieldUnspoiled ⟨MC_STAT n, lo, w⟩ := by
  have hn := n.isLt
  unfold FieldUnspoiled Unspoiled MC_STAT
  dsimp only
  omega

/-! ## OFF and the controlled stop (R242, R251) -/

section
variable {s : State} {n : Fin 24}

theorem loseLock_state : mcState (loseLock n s) n = mcState s n := loseLock_g (stat_unspoiled n _ _) (clear_inst rfl)

theorem mcState_p (k : Nat) (v : Nat) (hv : v < 16) : mcState (s.p (MC_STAT_STATE k) v) k = v :=
  (g_p_self _ _ _ (show 0 + 4 ≤ 32 by decide)).trans (Nat.mod_eq_of_lt hv)

theorem mcState_pb {f : Fld} (v : Bool) (h : Clear (MC_STAT_STATE n) f) : mcState (s.pb f v) n = mcState s n :=
  g_pb_clear _ _ h

theorem mcState_of_alike {k : Nat} {t : State} (h : Alike (· = MC_STAT k) s t) : mcState t k = mcState s k := h.g rfl

/-- A channel put OFF, its lock not yet lost. -/
def offBegun (n : Nat) (s : State) : State := (s.p (MC_STAT_STATE n) Mcs.off).pb (MC_CTRL_STOP n) false

theorem mcOff_g {f : Fld} (h : FieldUnspoiled f) (hl : Clear f (MC_STAT_LOCKED n)) : (mcOff n s).g f = (offBegun n s).g f := by
  unfold mcOff
  rw [modMc_g]
  exact loseLock_g (s := offBegun n s) h hl

theorem mcOff_state : mcState (mcOff n s) n = Mcs.off := by
  have hlocked : Clear (MC_STAT_STATE n) (MC_STAT_LOCKED n) := clear_inst rfl
  exact (mcOff_g (stat_unspoiled n _ _) hlocked).trans ((mcState_pb _ (clear_inst rfl)).trans (mcState_p _ _ (by decide)))

theorem mcOff_enable : (mcOff n s).on (MC_CTRL_ENABLE n) = s.on (MC_CTRL_ENABLE n) := by
  have hlocked : Clear (MC_CTRL_ENABLE n) (MC_STAT_LOCKED n) := clear_inst rfl
  have hstop : Clear (MC_CTRL_ENABLE n) (MC_CTRL_STOP n) := clear_inst rfl
  have hstate : Clear (MC_CTRL_ENABLE n) (MC_STAT_STATE n) := clear_inst rfl
  refine on_eq_of_g ((mcOff_g (ctrl_unspoiled n (by decide)) hlocked).trans ?_)
  exact (g_pb_clear _ _ hstop).trans (g_p_clear _ _ hstate)

theorem mcOff_stop : (mcOff n s).on (MC_CTRL_STOP n) = false := by
  have hlocked : Clear (MC_CTRL_STOP n) (MC_STAT_LOCKED n) := clear_inst rfl
  exact (on_eq_of_g (mcOff_g (ctrl_unspoiled n (by decide)) hlocked)).trans (on_pb_same _ _ rfl)

theorem mcU_mcOff : mcU (mcOff n s) n =
    { mcU s n with inWin := 0, outWin := 0, short := false, released := false, bad := 0, good := 0, duty := none } := by
  have hmot : mcU (offBegun n s) n = mcU s n := rfl
  unfold mcOff
  rw [mcU_modMc]
  exact congrArg (fun u : Mc => { u with short := false, released := false, bad := 0, good := 0, duty := none })
    (mcU_loseLock.trans (by rw [show mcU ((s.p (MC_STAT_STATE n) Mcs.off).pb (MC_CTRL_STOP n) false) n = mcU s n from hmot]))

/-- The registers of a channel's control and status. -/
def OnlyCtrl (n : Nat) (s t : State) : Prop := t.out = s.out ∧ OnlyRegs [MC_CTRL n, MC_STAT n] s t

namespace OnlyCtrl

variable {a b c : State} {k : Nat}

theorem refl (a : State) : OnlyCtrl k a a := ⟨rfl, onlyRegs_refl _ _⟩

theorem trans (h : OnlyCtrl k a b) (h' : OnlyCtrl k b c) : OnlyCtrl k a c := ⟨h'.1.trans h.1, h.2.trans h'.2⟩

theorem p (h : OnlyCtrl k a b) {f : Fld} (v : Nat) (hf : f.off = MC_CTRL k ∨ f.off = MC_STAT k) : OnlyCtrl k a (b.p f v) :=
  ⟨h.1, h.2.p _ _ (by simpa using hf)⟩

theorem pb (h : OnlyCtrl k a b) {f : Fld} (v : Bool) (hf : f.off = MC_CTRL k ∨ f.off = MC_STAT k) :
    OnlyCtrl k a (b.pb f v) := h.p _ hf

theorem modMc (h : OnlyCtrl k a b) (f : Mc → Mc) : OnlyCtrl k a (modMc k f b) := ⟨h.1, h.2⟩

end OnlyCtrl

theorem onlyCtrl_loseLock {a : State} {k : Nat} (h : a.on (MC_STAT_LOCKED k) = false) : OnlyCtrl k a (loseLock k a) := by
  rw [loseLock_unlocked h]
  exact (OnlyCtrl.refl a).modMc _

theorem mcOff_only (h : s.on (MC_STAT_LOCKED n) = false) : OnlyCtrl n s (mcOff n s) := by
  have hstop : Clear (MC_STAT_LOCKED n) (MC_CTRL_STOP n) := clear_inst rfl
  have hstate : Clear (MC_STAT_LOCKED n) (MC_STAT_STATE n) := clear_inst rfl
  have hbegun : OnlyCtrl n s (offBegun n s) := ((OnlyCtrl.refl s).p _ (.inr rfl)).pb _ (.inl rfl)
  unfold mcOff
  refine (hbegun.trans (onlyCtrl_loseLock ?_)).modMc _
  unfold offBegun
  rw [on_pb_clear _ _ hstop, on_p_clear _ _ hstate, h]

/-- A channel that turns begins its controlled stop. -/
theorem mcStop_turning (h : mcState s n = Mcs.run ∨ mcState s n = Mcs.reacq) : mcStop n s =
    modMc n (fun u => { u with stopN := 0, stopFrom := s.gi (MC_SPEED_RPM n), short := false })
      (loseLock n (s.p (MC_STAT_STATE n) Mcs.stopping)) := by
  unfold mcStop
  dsimp only
  rw [if_pos h]

/-- One that starts turns OFF at once. -/
theorem mcStop_starting (h : 1 ≤ mcState s n) (h' : mcState s n ≤ Mcs.open_) : mcStop n s = mcOff n s := by
  unfold mcStop
  dsimp only
  unfold Mcs.open_ at *
  unfold Mcs.run Mcs.reacq Mcs.sense Mcs.brake Mcs.ipd
  rw [if_neg (by omega), if_pos (by omega)]

/-- What the controlled stop of a channel that turns leaves. -/
structure Stopping (n : Nat) (s t : State) : Prop where
  state : mcState t n = Mcs.stopping
  unit : mcU t n = { mcU s n with inWin := 0, outWin := 0, stopN := 0, stopFrom := s.gi (MC_SPEED_RPM n), short := false }
  enable : t.on (MC_CTRL_ENABLE n) = s.on (MC_CTRL_ENABLE n)
  stop : t.on (MC_CTRL_STOP n) = s.on (MC_CTRL_STOP n)
  cmd : t.mot.cmd = s.mot.cmd
  only : s.on (MC_STAT_LOCKED n) = false → OnlyCtrl n s t

theorem mcStop_stopping (h : mcState s n = Mcs.run ∨ mcState s n = Mcs.reacq) : Stopping n s (mcStop n s) := by
  have hlocked : Clear (MC_STAT_LOCKED n) (MC_STAT_STATE n) := clear_inst rfl
  have henable : Clear (MC_CTRL_ENABLE n) (MC_STAT_STATE n) := clear_inst rfl
  have hstop : Clear (MC_CTRL_STOP n) (MC_STAT_STATE n) := clear_inst rfl
  rw [mcStop_turning h]
  refine ⟨?_, ?_, ?_, ?_, ?_, fun hunlocked => ?_⟩
  · exact loseLock_state.trans (mcState_p _ _ (by decide))
  · rw [mcU_modMc, mcU_loseLock]
    rfl
  · rw [modMc_on, loseLock_on (f := MC_CTRL_ENABLE n) (ctrl_unspoiled n (by decide)) (clear_inst rfl), on_p_clear _ _ henable]
  · rw [modMc_on, loseLock_on (f := MC_CTRL_STOP n) (ctrl_unspoiled n (by decide)) (clear_inst rfl), on_p_clear _ _ hstop]
  · rw [modMc_cmd, loseLock_mot, windowsReset, modMc_cmd, State.p_mot]
  · exact (((OnlyCtrl.refl s).p _ (.inr rfl)).trans (onlyCtrl_loseLock ((on_p_clear _ _ hlocked).trans hunlocked))).modMc _

end

/-! ## MCn_CTRL -/

section
variable {s : State} {n : Fin 24} {v : Word}

theorem mcFields_only : OnlyCtrl n s (mcFields n v s) := by
  unfold mcFields
  dsimp only
  exact (((((OnlyCtrl.refl s).p _ (.inl rfl)).p _ (.inl rfl)).p _ (.inl rfl)).p _ (.inl rfl)).p _ (.inl rfl)

theorem mcFields_mot : (mcFields n v s).mot = s.mot := by
  unfold mcFields
  dsimp only
  rw [State.p_mot, State.p_mot, State.p_mot, State.p_mot, State.p_mot]

theorem mcFields_g {f : Fld} (h : ∀ lo w, 4 ≤ lo → lo + w ≤ 32 → Clear f ⟨MC_CTRL n, lo, w⟩) : (mcFields n v s).g f = s.g f := by
  unfold mcFields
  dsimp only
  have h1 : Clear f (MC_CTRL_MODE n) := h _ _ (by decide) (by decide)
  have h2 : Clear f (MC_CTRL_SRC n) := h _ _ (by decide) (by decide)
  have h3 : Clear f (MC_CTRL_DIR n) := h _ _ (by decide) (by decide)
  have h4 : Clear f (MC_CTRL_KEEP n) := h _ _ (by decide) (by decide)
  have h5 : Clear f (MC_CTRL_CMD_SEL n) := h _ _ (by decide) (by decide)
  rw [g_p_clear _ _ h1, g_p_clear _ _ h2, g_p_clear _ _ h3, g_p_clear _ _ h4, g_p_clear _ _ h5]

theorem mcFields_stat (lo w : Nat) : (mcFields n v s).g ⟨MC_STAT n, lo, w⟩ = s.g ⟨MC_STAT n, lo, w⟩ :=
  mcFields_g fun _ _ _ hw => ⟨hw, .inl (by unfold MC_STAT MC_CTRL; dsimp only; omega)⟩

theorem mcFields_state : mcState (mcFields n v s) n = mcState s n := mcFields_stat _ _

theorem mcFields_locked : (mcFields n v s).on (MC_STAT_LOCKED n) = s.on (MC_STAT_LOCKED n) := on_eq_of_g (mcFields_stat _ _)

theorem mcFields_speed : (mcFields n v s).gi (MC_SPEED_RPM n) = s.gi (MC_SPEED_RPM n) :=
  gi_of_g (mcFields_g fun _ _ _ hw => ⟨hw, .inl (by unfold MC_SPEED_RPM MC_SPEED MC_CTRL; dsimp only; omega)⟩)

/-- The fields taken, ENABLE as written. -/
def ctrlTaken (n : Nat) (v : Word) (en : Bool) (s : State) : State := (mcFields n v s).pb (MC_CTRL_ENABLE n) en

variable {en : Bool}

theorem ctrlTaken_only : OnlyCtrl n s (ctrlTaken n v en s) := mcFields_only.pb _ (.inl rfl)

theorem ctrlTaken_enable : (ctrlTaken n v en s).on (MC_CTRL_ENABLE n) = en := on_pb_same _ _ rfl

theorem ctrlTaken_state : mcState (ctrlTaken n v en s) n = mcState s n :=
  (mcState_pb _ (clear_inst rfl)).trans mcFields_state

theorem ctrlTaken_locked : (ctrlTaken n v en s).on (MC_STAT_LOCKED n) = s.on (MC_STAT_LOCKED n) := by
  have h : Clear (MC_STAT_LOCKED n) (MC_CTRL_ENABLE n) := clear_inst rfl
  exact (on_pb_clear _ _ h).trans mcFields_locked

theorem ctrlTaken_speed : (ctrlTaken n v en s).gi (MC_SPEED_RPM n) = s.gi (MC_SPEED_RPM n) := by
  have h : Clear (MC_SPEED_RPM n) (MC_CTRL_ENABLE n) := clear_inst rfl
  exact (gi_of_g (g_pb_clear _ _ h)).trans mcFields_speed

theorem ctrlTaken_mot : (ctrlTaken n v en s).mot = s.mot := (State.pb_mot _ _ _).trans mcFields_mot

theorem ctrlTaken_unit : mcU (ctrlTaken n v en s) n = mcU s n := mcU_of_mot ctrlTaken_mot n

theorem ctrlWrite_start (hen : fieldOf (MC_CTRL_ENABLE n) v = 1) (hstop : fieldOf (MC_CTRL_STOP n) v = 0)
    (hoff : mcState s n = Mcs.off) (hok : mcEnableOk s n = true) :
    mcCtrlWrite n v s = mcStart n (ctrlTaken n v true s) := by
  unfold mcCtrlWrite
  dsimp only
  rw [if_neg (by simp [hoff, Mcs.off, Mcs.fault]), if_neg (by simp [hok]), if_pos (by simp [hen, hoff]),
    if_neg (by simp [hstop])]
  rfl

theorem ctrlWrite_illegal (hen : fieldOf (MC_CTRL_ENABLE n) v = 1) (hoff : mcState s n = Mcs.off)
    (hok : mcEnableOk s n = false) : mcCtrlWrite n v s = s.pb (MC_STAT_CFG_ERR n) true := by
  unfold mcCtrlWrite
  dsimp only
  rw [if_neg (by simp [hoff, Mcs.off, Mcs.fault]), if_pos (by simp [hen, hoff, hok])]

theorem ctrlWrite_disable (hen : fieldOf (MC_CTRL_ENABLE n) v = 0) (hstop : fieldOf (MC_CTRL_STOP n) v = 0)
    (hon : s.on (MC_CTRL_ENABLE n) = true) (hst : mcState s n ≠ Mcs.fault) :
    mcCtrlWrite n v s = if mcState s n = Mcs.reacq then mcOff n (ctrlTaken n v false s) else mcStop n (ctrlTaken n v false s) := by
  have hstate : mcState (ctrlTaken n v false s) n = mcState s n := ctrlTaken_state
  unfold mcCtrlWrite
  dsimp only
  rw [if_neg (by simp [hst]), if_neg (by simp [hen]), if_neg (by simp [hen])]
  unfold ctrlTaken at hstate ⊢
  simp only [hen, hstop, show ((0 : Nat) == 1) = false from rfl, Bool.false_eq_true, if_false, Bool.not_false, true_and, hon,
    if_true, hstate]

theorem ctrlWrite_stop (hen : fieldOf (MC_CTRL_ENABLE n) v = 1) (hon : s.on (MC_CTRL_ENABLE n) = true)
    (hstop : fieldOf (MC_CTRL_STOP n) v = 1) (hst : mcState s n ≠ Mcs.fault) (hoff : mcState s n ≠ Mcs.off) :
    mcCtrlWrite n v s = mcStop n ((ctrlTaken n v true s).pb (MC_CTRL_STOP n) true) := by
  unfold mcCtrlWrite
  dsimp only
  rw [if_neg (by simp [hst]), if_neg (by simp [hon, hoff]), if_neg (by simp [hoff]), hen, hstop, if_neg (by simp)]
  rfl

/-- The fields that a CLEAR takes, with STOP where it is written. -/
def clearTaken (n : Nat) (v : Word) (s : State) : State :=
  if (fieldOf (MC_CTRL_STOP n) v == 1) = true then (mcFields n v s).pb (MC_CTRL_STOP n) true else mcFields n v s

theorem ctrlWrite_clear (hclear : fieldOf (MC_CTRL_CLEAR n) v = 1) (hst : mcState s n = Mcs.fault) :
    mcCtrlWrite n v s = mcClear n (clearTaken n v s) := by
  unfold mcCtrlWrite
  dsimp only
  rw [if_pos ⟨hclear, hst⟩]
  rfl

theorem clearTaken_only : OnlyCtrl n s (clearTaken n v s) := by
  unfold clearTaken
  split
  · exact mcFields_only.pb _ (.inl rfl)
  · exact mcFields_only

theorem clearTaken_mot : (clearTaken n v s).mot = s.mot := by
  unfold clearTaken
  split
  · rw [State.pb_mot, mcFields_mot]
  · exact mcFields_mot

theorem clearTaken_stat (lo w : Nat) : (clearTaken n v s).g ⟨MC_STAT n, lo, w⟩ = s.g ⟨MC_STAT n, lo, w⟩ := by
  have h : Clear ⟨MC_STAT n, lo, w⟩ (MC_CTRL_STOP n) :=
    ⟨Nat.le_of_ble_eq_true rfl, .inl (by unfold MC_STAT MC_CTRL_STOP MC_CTRL; dsimp only; omega)⟩
  unfold clearTaken
  split
  · rw [g_pb_clear _ _ h, mcFields_stat]
  · exact mcFields_stat _ _

theorem mcClear_held (h : ((mcU s n).why = 1 ∧ (mcU s n).drvLow = true) ∨ ((mcU s n).why = 2 ∧ (mcU s n).overCur = true)) :
    mcClear n s = s.pb (MC_STAT_CFG_ERR n) true := by
  unfold mcClear
  dsimp only
  rw [if_pos h]

theorem mcClear_gone (hdrv : (mcU s n).drvLow = false) (h : (mcU s n).why ≠ 2 ∨ (mcU s n).overCur = false) :
    mcClear n s = mcOff n (s.pb (MC_CTRL_ENABLE n) false) := by
  unfold mcClear
  dsimp only
  have hgone : ¬ (((mcU s n).why = 1 ∧ (mcU s n).drvLow = true) ∨ ((mcU s n).why = 2 ∧ (mcU s n).overCur = true)) := by
    rw [hdrv]
    rintro (⟨_, hx⟩ | ⟨hw, ho⟩)
    · exact absurd hx (by decide)
    · exact h.elim (fun hn => hn hw) fun hn => absurd (hn.symm.trans ho) (by decide)
  rw [if_neg hgone, if_neg (by simp [hdrv])]

/-- ENABLE of a legal configuration: SENSE, from a loop at rest. -/
theorem mcStart_spec : mcState (mcStart n s) n = Mcs.sense ∧ (mcStart n s).on (MC_CTRL_ENABLE n) = s.on (MC_CTRL_ENABLE n) ∧
    mcU (mcStart n s) n =
      { drvLow := (mcU s n).drvLow, setp := (mcU s n).setp, why := (mcU s n).why
        taken := (mcTakenRegs n).map fun r => (r, (mcStart n s).reg r) } ∧ OnlyCtrl n s (mcStart n s) := by
  have henable : Clear (MC_CTRL_ENABLE n) (MC_STAT_STATE n) := clear_inst rfl
  unfold mcStart mcTake
  refine ⟨?_, ?_, ?_, ?_⟩
  · rw [mcState_modMc, mcState_modMc, mcState_p _ _ (by decide)]
  · rw [modMc_on, modMc_on, on_p_clear _ _ henable]
  · rw [mcU_modMc, mcU_modMc, mcU_of_mot (State.p_mot s (MC_STAT_STATE n) Mcs.sense)]
    simp only [modMc_reg]
  · exact (((OnlyCtrl.refl s).p _ (.inr rfl)).modMc _).modMc _

end

/-! ## Command pins (R240, R241) -/

section
variable {s : State} {k : Nat}

@[simp] theorem setCmd_out (u : CmdU) : (setCmd k u s).out = s.out := rfl
@[simp] theorem setCmd_reg (u : CmdU) (off : Nat) : (setCmd k u s).reg off = s.reg off := rfl
@[simp] theorem setCmd_g (u : CmdU) (f : Fld) : (setCmd k u s).g f = s.g f := rfl
@[simp] theorem setCmd_gi (u : CmdU) (f : Fld) : (setCmd k u s).gi f = s.gi f := rfl
@[simp] theorem setCmd_on (u : CmdU) (f : Fld) : (setCmd k u s).on f = s.on f := rfl

@[simp] theorem cmdU_setCmd (u : CmdU) : cmdU (setCmd k u s) k = u := bankGet_put_self _ _ _ _

theorem cmdU_of_cmd {s t : State} (h : t.mot.cmd = s.mot.cmd) (k : Nat) : cmdU t k = cmdU s k := by
  unfold cmdU
  rw [h]

/-- A pin takes a value of x. -/
theorem cmdPeriod_spec {a b x : Nat} (h : cmdX s k a b = x) (hx : x < 2 ^ 20) :
    (cmdPeriod k a b s).g (CMD_STAT_X k) = x ∧ cmdU (cmdPeriod k a b s) k = {} ∧ (cmdPeriod k a b s).out = s.out ∧
      OnlyRegs [CMD_STAT k] s (cmdPeriod k a b s) := by
  unfold cmdPeriod
  rw [h]
  refine ⟨?_, cmdU_setCmd _, ?_, ?_⟩
  · rw [setCmd_g]
    exact (g_p_self _ _ _ (show 0 + 20 ≤ 32 by decide)).trans (Nat.mod_eq_of_lt hx)
  · rw [setCmd_out, State.p_out]
  · exact OnlyRegs.of_reg ((onlyRegs_refl _ s).p (CMD_STAT_X k) x (by simp [CMD_STAT_X])) (setCmd_reg _)

/-- A frequency below the full scale gives x within its range. -/
theorem roundDiv_le {a fs : Nat} (h : a < fs) : (roundDiv ((a * 262144 : Nat) : Int) ((fs : Nat) : Int)).toNat ≤ 262144 := by
  unfold roundDiv
  have hpos : (0 : Int) < 2 * (fs : Int) := by omega
  have hlt : (2 * ((a * 262144 : Nat) : Int) + (fs : Int)) / (2 * (fs : Int)) < 262144 + 1 := by
    refine Int.ediv_lt_of_lt_mul hpos ?_
    push_cast
    omega
  omega

/-- A pin whose loss has begun. -/
def lossBegun (k : Nat) (s : State) : State :=
  setCmd k { lost := true, held := cmdYof s k } (s.pb (CMD_STAT_LOSS k) true)

theorem lossBegun_spec : cmdU (lossBegun k s) k = ⟨true, cmdYof s k⟩ ∧ (lossBegun k s).on (CMD_STAT_LOSS k) = true ∧
    (lossBegun k s).out = s.out ∧ OnlyRegs [CMD_STAT k] s (lossBegun k s) := by
  unfold lossBegun
  refine ⟨cmdU_setCmd _, ?_, ?_, ?_⟩
  · rw [setCmd_on]
    exact on_pb_same _ _ rfl
  · rw [setCmd_out, State.pb_out]
  · exact OnlyRegs.of_reg ((onlyRegs_refl _ s).pb (CMD_STAT_LOSS k) true (by simp [CMD_STAT_LOSS])) (setCmd_reg _)

theorem cmdLoss_eq (hm : s.g (CMD_CFG_MODE k) = 2) (hl : (cmdU s k).lost = false) :
    cmdLoss k s = (selecting s k).foldl (fun s n =>
      corrected 0x10 n 7 0xFFFF (((if s.g (CMD_CFG_LOSS_ACT k) = 2 then mcStop n s else s).pb (MC_STAT_CMD_LOSS n) true).p
        (MC_STAT_CAUSE n) 7)) (lossBegun k s) := by
  unfold cmdLoss
  rw [if_neg (by simp [hm, hl])]
  rfl

end

section
variable {s : State} {n : Fin 24} {k : Fin 8}

theorem motor_aside (n : Fin 24) (lo w : Nat) : Aside (⟨MC_STAT n, lo, w⟩ : Fld).off := by
  unfold Aside MC_STAT
  dsimp only
  omega

/-- The loss of a pin's signal marks a channel that selects it. -/
def lossMarked (n : Nat) (s : State) : State :=
  corrected 0x10 n 7 0xFFFF ((s.pb (MC_STAT_CMD_LOSS n) true).p (MC_STAT_CAUSE n) 7)

theorem corrected_mot (cls inst code cell : Nat) (t : State) : (corrected cls inst code cell t).mot = t.mot :=
  (kept_corrected (K := (· = .mot)) (by decide) (by decide) (by decide) (by decide) (by decide) (by decide) (by decide) cls inst
    code cell (.refl t)).same .mot rfl

theorem lossMarked_spec : (lossMarked n s).on (MC_STAT_CMD_LOSS n) = true ∧ (lossMarked n s).g (MC_STAT_CAUSE n) = 7 ∧
    mcState (lossMarked n s) n = mcState s n ∧ (lossMarked n s).mot = s.mot := by
  have hcause : Clear (MC_STAT_CMD_LOSS n) (MC_STAT_CAUSE n) := clear_inst rfl
  have hstate : Clear (MC_STAT_STATE n) (MC_STAT_CAUSE n) := clear_inst rfl
  have hal := aside_corrected 0x10 n 7 0xFFFF (.refl ((s.pb (MC_STAT_CMD_LOSS n) true).p (MC_STAT_CAUSE n) 7))
  unfold lossMarked
  refine ⟨?_, ?_, ?_, ?_⟩
  · rw [hal.on (f := MC_STAT_CMD_LOSS n) (motor_aside n _ _), on_p_clear _ _ hcause]
    exact on_pb_same _ _ rfl
  · rw [hal.g (f := MC_STAT_CAUSE n) (motor_aside n _ _)]
    exact g_p_self _ _ _ (show 12 + 4 ≤ 32 by decide)
  · exact (hal.g (motor_aside n _ _)).trans ((g_p_clear _ _ hstate).trans (mcState_pb _ (clear_inst rfl)))
  · rw [corrected_mot, State.p_mot, State.pb_mot]

theorem lossBegun_state : mcState (lossBegun k s) n = mcState s n := by
  unfold lossBegun mcState
  rw [setCmd_g]
  exact g_pb_clear _ _ ⟨Nat.le_of_ble_eq_true rfl, .inl (by unfold MC_STAT_STATE MC_STAT CMD_STAT_LOSS CMD_STAT; dsimp only; omega)⟩

theorem lossBegun_g {f : Fld} (h : f.off ≠ CMD_STAT k) : (lossBegun k s).g f = s.g f :=
  Alike.g lossBegun_spec.2.2.2.alike (by simpa using h)

end

/-- Settles O50: each write of MCn_CTRL by the state it finds, the controlled stop, and each mode of a command pin. -/
theorem motorControl : Obligations.MotorControl := by
  intro s n k a b v
  refine ⟨?_, ?_, ?_, ?_, ?_, ?_, ?_, ?_, ?_, ?_, ?_, ?_, ?_, ?_⟩
  · intro hr hen hstop hoff hok
    obtain ⟨hstate, henable, hunit, honly⟩ := mcStart_spec (s := ctrlTaken n v true s) (n := n)
    rw [ctrlTaken_unit] at hunit
    have hall := ctrlTaken_only.trans honly
    refine Does.of_hostAt rfl hr ?_
    rw [ctrlWrite_start hen hstop hoff hok]
    exact ⟨hstate, henable.trans ctrlTaken_enable, hunit, hall.1, hall.2⟩
  · intro hr hen hoff hok
    refine Does.of_hostAt rfl hr ?_
    rw [ctrlWrite_illegal hen hoff hok]
    exact ⟨on_pb_same _ _ rfl, (mcState_pb _ (clear_inst rfl)).trans hoff, State.pb_mot _ _ _, State.pb_out _ _ _,
      (onlyRegs_refl _ s).pb _ _ (by simp [MC_STAT_CFG_ERR])⟩
  · intro hr hen hstop hon hrun
    have hst := mcStop_stopping (s := ctrlTaken n v false s) (n := n) (.inl (ctrlTaken_state.trans hrun))
    have hunit := hst.unit
    rw [ctrlTaken_unit, ctrlTaken_speed] at hunit
    refine Does.of_hostAt rfl hr ?_
    rw [ctrlWrite_disable hen hstop hon (by rw [hrun]; decide), if_neg (by rw [hrun]; decide)]
    exact ⟨hst.state, hst.enable.trans ctrlTaken_enable, by rw [hunit], by rw [hunit], fun hl =>
      ctrlTaken_only.trans (hst.only (ctrlTaken_locked.trans hl))⟩
  · intro hr hen hstop hon hst
    have hoff : mcCtrlWrite n v s = mcOff n (ctrlTaken n v false s) := by
      rcases hst with ⟨h1, h2⟩ | h
      · have hne : mcState s n ≠ Mcs.reacq ∧ mcState s n ≠ Mcs.fault := by
          unfold Mcs.open_ Mcs.reacq Mcs.fault at *
          omega
        rw [ctrlWrite_disable hen hstop hon hne.2, if_neg hne.1]
        exact mcStop_starting (ctrlTaken_state.symm ▸ h1) (ctrlTaken_state.symm ▸ h2)
      · rw [ctrlWrite_disable hen hstop hon (by rw [h]; decide), if_pos h]
    refine Does.of_hostAt rfl hr ?_
    rw [hoff, mcU_mcOff]
    exact ⟨mcOff_state, mcOff_enable.trans ctrlTaken_enable, rfl⟩
  · intro hr hen hon hstop hrun
    have hstate : mcState ((ctrlTaken n v true s).pb (MC_CTRL_STOP n) true) n = mcState s n :=
      (mcState_pb _ (clear_inst rfl)).trans ctrlTaken_state
    have hlocked : Clear (MC_STAT_LOCKED n) (MC_CTRL_STOP n) := clear_inst rfl
    have hspeed : Clear (MC_SPEED_RPM n) (MC_CTRL_STOP n) := clear_inst rfl
    have hst := mcStop_stopping (s := (ctrlTaken n v true s).pb (MC_CTRL_STOP n) true) (n := n) (by rwa [hstate])
    have hunit := hst.unit
    rw [mcU_of_mot (State.pb_mot _ _ _), ctrlTaken_unit, gi_of_g (g_pb_clear _ _ hspeed), ctrlTaken_speed] at hunit
    have hne : mcState s n ≠ Mcs.fault ∧ mcState s n ≠ Mcs.off := by
      unfold Mcs.run Mcs.reacq Mcs.fault Mcs.off at *
      omega
    refine Does.of_hostAt rfl hr ?_
    rw [ctrlWrite_stop hen hon hstop hne.1 hne.2]
    exact ⟨hst.state, hst.stop.trans (on_pb_same _ _ rfl), by rw [hunit], by rw [hunit], fun hl =>
      (ctrlTaken_only.pb _ (.inl rfl)).trans (hst.only ((on_pb_clear _ _ hlocked).trans (ctrlTaken_locked.trans hl)))⟩
  · intro hr hen hon hstop h1 h2
    have hstate : mcState ((ctrlTaken n v true s).pb (MC_CTRL_STOP n) true) n = mcState s n :=
      (mcState_pb _ (clear_inst rfl)).trans ctrlTaken_state
    have hne : mcState s n ≠ Mcs.fault ∧ mcState s n ≠ Mcs.off := by
      unfold Mcs.open_ Mcs.fault Mcs.off at *
      omega
    refine Does.of_hostAt rfl hr ?_
    rw [ctrlWrite_stop hen hon hstop hne.1 hne.2, mcStop_starting (hstate.symm ▸ h1) (hstate.symm ▸ h2), mcU_mcOff]
    exact ⟨mcOff_state, mcOff_stop, rfl⟩
  · intro hr hclear hfault hdrv hwhy
    have hunit : mcU (clearTaken n v s) n = mcU s n := mcU_of_mot clearTaken_mot n
    have hlocked : Clear (MC_STAT_LOCKED n) (MC_CTRL_ENABLE n) := clear_inst rfl
    refine Does.of_hostAt rfl hr ?_
    rw [ctrlWrite_clear hclear hfault, mcClear_gone (by rwa [hunit]) (by rwa [hunit])]
    refine ⟨mcOff_state, mcOff_enable.trans (on_pb_same _ _ rfl), fun hl => (clearTaken_only.pb _ (.inl rfl)).trans (mcOff_only ?_)⟩
    exact (on_pb_clear _ _ hlocked).trans ((on_eq_of_g (clearTaken_stat _ _)).trans hl)
  · intro hr hclear hfault hwhy
    have hunit : mcU (clearTaken n v s) n = mcU s n := mcU_of_mot clearTaken_mot n
    have hall := (clearTaken_only (n := n) (v := v) (s := s)).pb (f := MC_STAT_CFG_ERR n) true (.inr rfl)
    refine Does.of_hostAt rfl hr ?_
    rw [ctrlWrite_clear hclear hfault, mcClear_held (by rwa [hunit])]
    exact ⟨(mcState_pb _ (clear_inst rfl)).trans ((clearTaken_stat _ _).trans hfault), on_pb_same _ _ rfl,
      (State.pb_mot _ _ _).trans clearTaken_mot, hall.1, hall.2⟩
  · intro hd hst hshort
    refine Does.of_live rfl hd ?_
    rw [if_pos ⟨hst, hshort⟩, mcU_mcOff]
    exact ⟨mcOff_state, mcOff_stop, rfl, rfl, mcOff_only⟩
  · intro hd hm
    have hx : cmdX s k a.toNat b.toNat = a.toNat % 4096 * 64 := by
      unfold cmdX
      dsimp only
      rw [hm, if_pos rfl]
      omega
    exact Does.of_live rfl hd (cmdPeriod_spec hx (by omega))
  · intro hd hm hb
    have hb' : b.toNat ≠ 0 := fun h => hb (BitVec.eq_of_toNat_eq h)
    have hx : cmdX s k a.toNat b.toNat = min 262144 (roundDiv ((a.toNat * 262144 : Nat) : Int) b.toNat).toNat := by
      unfold cmdX
      dsimp only
      rw [hm, if_neg (by decide), if_pos rfl, if_neg hb']
    exact Does.of_live rfl hd (cmdPeriod_spec hx (by omega))
  · intro hd hm
    have hx : cmdX s k a.toNat b.toNat = (if a.toNat < 500 then 0 else if 10 * s.g (CMD_CFG_FS_HZ k) ≤ a.toNat then 262144
        else (roundDiv ((a.toNat * 262144 : Nat) : Int) ((10 * s.g (CMD_CFG_FS_HZ k) : Nat) : Int)).toNat) := by
      unfold cmdX
      dsimp only
      rw [hm, if_neg (by decide), if_neg (by decide), if_pos rfl]
    have hlt : cmdX s k a.toNat b.toNat < 2 ^ 20 := by
      rw [hx]
      split
      · decide
      · split
        · decide
        next h => exact Nat.lt_of_le_of_lt (roundDiv_le (Nat.lt_of_not_le h)) (by decide)
    obtain ⟨hg, _, hout, hregs⟩ := cmdPeriod_spec (s := s) (k := k) hx (hx ▸ hlt)
    exact Does.of_live rfl hd ⟨hg, hout, hregs⟩
  · intro hd hm hl hsel
    obtain ⟨hu, hloss, hout, hregs⟩ := lossBegun_spec (s := s) (k := k)
    refine Does.of_live rfl hd ?_
    rw [cmdLoss_eq hm hl, hsel, List.foldl_nil]
    refine ⟨hu, hloss, ?_, hout, hregs⟩
    unfold cmdY
    dsimp only
    have hact : (lossBegun k s).g (CMD_CFG_LOSS_ACT k) = s.g (CMD_CFG_LOSS_ACT k) :=
      lossBegun_g (by unfold CMD_CFG_LOSS_ACT CMD_CFG CMD_STAT; dsimp only; omega)
    have hoff : (lossBegun k s).g (CMD_OFFSET_OFFSET k) = s.g (CMD_OFFSET_OFFSET k) :=
      lossBegun_g (by unfold CMD_OFFSET_OFFSET CMD_OFFSET CMD_STAT; dsimp only; omega)
    rw [hu, if_pos rfl, hact, gi_of_g hoff]
  · intro hd hm hl hact hsel
    have hcfg : (lossBegun k s).g (CMD_CFG_LOSS_ACT k) = s.g (CMD_CFG_LOSS_ACT k) :=
      lossBegun_g (by unfold CMD_CFG_LOSS_ACT CMD_CFG CMD_STAT; dsimp only; omega)
    have hstate : mcState (lossBegun k s) n = mcState s n := lossBegun_state
    have hu : cmdU (lossBegun k s) k = ⟨true, cmdYof s k⟩ := lossBegun_spec.1
    refine Does.of_live rfl hd ?_
    rw [cmdLoss_eq hm hl, hsel, List.foldl_cons, List.foldl_nil]
    by_cases h2 : s.g (CMD_CFG_LOSS_ACT k) = 2
    · have hrun := hact.resolve_left fun h => h h2
      have hst := mcStop_stopping (s := lossBegun k s) (n := n) (.inl (hstate.trans hrun))
      obtain ⟨hloss, hcause, hmark, hmot⟩ := lossMarked_spec (s := mcStop n (lossBegun k s)) (n := n)
      rw [hcfg, if_pos h2, if_pos ⟨h2, hrun⟩]
      exact ⟨hloss, hcause, hmark.trans hst.state, (cmdU_of_cmd ((congrArg MotU.cmd hmot).trans hst.cmd) k).trans hu⟩
    · obtain ⟨hloss, hcause, hmark, hmot⟩ := lossMarked_spec (s := lossBegun k s) (n := n)
      rw [hcfg, if_neg h2, if_neg fun h => h2 h.1]
      exact ⟨hloss, hcause, hmark.trans hstate, (cmdU_of_cmd (congrArg MotU.cmd hmot) k).trans hu⟩

end Sys2Proof.Machine
end

section
/-!
PROOFS. Starting and running an FOC channel (spec/10_motors_foc.md R233-R245, R250, R251): faults, the ways a channel starts,
and a PWM period by the state it finds.
-/

namespace Sys2Proof.Machine

open Reg

set_option Elab.async false

/-! ## Faults -/

section
variable {s : State} {n : Fin 24} {cause : Nat}

/-- A channel's outputs turned off for a fault of `cause`. -/
def faultOff (cause n : Nat) (s : State) : State :=
  modMc n (fun u => { u with short := false, released := false, duty := none, why := cause }) s

/-- A channel in FAULT, its lock not yet lost. -/
def faultShown (cause n : Nat) (s : State) : State :=
  (((faultOff cause n s).p (MC_STAT_STATE n) Mcs.fault).p (MC_STAT_CAUSE n) cause).inc (MC_FAULTS_FAULTS n)

/-- A channel in FAULT, its record not yet made. -/
def faulted (cause n : Nat) (s : State) : State := (loseLock n (faultShown cause n s)).event (.mcFault n)

/-- What the record of a fault says of the sheet it spoils. -/
def faultHit (n : Nat) (s : State) : Option (Nat × Nat) :=
  if s.on (MC_STAT_LOCKED n) then spoiledBy Cause.polygonLoss (s.g (MC_POLY_STATION n)) s else none

/-- The record of a channel's fault. -/
def faultRecord (cause n : Nat) (s : State) : ErrIn :=
  { sev := Sev.contained, cls := 0x10, inst := n, code := cause, spoiled := faultHit n (faultOff cause n s) }

theorem faultRecord_sev (cause n : Nat) (s : State) : (faultRecord cause n s).sev < 2 := show Sev.contained < 2 by decide

theorem faultRecord_reg (cause n : Nat) (s : State) : (faultRecord cause n s).reg < 7 := show classRegion 0x10 < 7 by decide

theorem mcFault_eq (cause n : Nat) (s : State) : mcFault cause n s = raise (faultRecord cause n s) (faulted cause n s) := rfl

theorem faulted_g (lo w : Nat) (h : lo + w ≤ 4 ∨ 5 ≤ lo) :
    (faulted cause n s).g ⟨MC_STAT n, lo, w⟩ = (faultShown cause n s).g ⟨MC_STAT n, lo, w⟩ :=
  loseLock_g (s := faultShown cause n s) (stat_unspoiled n lo w) ⟨Nat.le_of_ble_eq_true rfl, .inr h⟩

theorem faultShown_mot (t : State) : (faultShown cause n t).mot = (faultOff cause n t).mot := by
  unfold faultShown
  rw [State.inc_mot, State.p_mot, State.p_mot]

theorem faulted_unit : mcU (faulted cause n s) n =
    { mcU s n with inWin := 0, outWin := 0, short := false, released := false, duty := none, why := cause } := by
  unfold faulted
  rw [mcU_of_mot (event_mot _ _), mcU_loseLock, mcU_of_mot (faultShown_mot s)]
  unfold faultOff
  rw [mcU_modMc]

theorem faultShown_state : mcState (faultShown cause n s) n = Mcs.fault := by
  have hcount : Clear (MC_STAT_STATE n) (MC_FAULTS_FAULTS n) := clear_inst rfl
  have hcause : Clear (MC_STAT_STATE n) (MC_STAT_CAUSE n) := clear_inst rfl
  unfold faultShown mcState
  rw [g_inc_clear _ hcount, g_p_clear _ _ hcause]
  exact mcState_p _ _ (by decide)

theorem faultShown_cause (h : cause < 16) : (faultShown cause n s).g (MC_STAT_CAUSE n) = cause := by
  have hcount : Clear (MC_STAT_CAUSE n) (MC_FAULTS_FAULTS n) := clear_inst rfl
  unfold faultShown
  rw [g_inc_clear _ hcount]
  exact (g_p_self _ _ _ (show 12 + 4 ≤ 32 by decide)).trans (Nat.mod_eq_of_lt h)

/-- What a fault leaves: the channel in FAULT with its cause, its outputs off, and the fault's event shown. -/
structure Faulted (cause n : Nat) (s t : State) : Prop where
  state : mcState t n = Mcs.fault
  shows : t.g (MC_STAT_CAUSE n) = cause
  unit : mcU t n = { mcU s n with inWin := 0, outWin := 0, short := false, released := false, duty := none, why := cause }
  event : Out.event (.mcFault n) ∈ shown s t

theorem raise_mot (e : ErrIn) (hsev : e.sev < 2) (t : State) : (raise e t).mot = t.mot := by
  have hr : (record e t).mot = t.mot := (kept_record (K := (· = .mot)) (by decide) (by decide) (by decide) (by decide)
    (by decide) (by decide) (by decide) e (.refl t)).same .mot rfl
  unfold raise
  split
  · exact hr
  · unfold fatalEffect
    rw [if_neg (by unfold Sev.chipFatal; omega), if_neg (by unfold Sev.regionFatal; omega)]
    exact hr

theorem raise_shown (e : ErrIn) (t : State) : t.out <+: (raise e t).out :=
  (kept_raise (K := fun _ => False) id id id id id id id id id id id id id id e (.refl t)).shown

theorem mcFault_faulted (h : cause < 16) : Faulted cause n s (mcFault cause n s) := by
  have hal := aside_raise (.refl (faulted cause n s)) (faultRecord_reg cause n s) (faultRecord_sev cause n s)
  rw [mcFault_eq]
  refine ⟨?_, ?_, ?_, ?_⟩
  · exact (hal.g (motor_aside n _ _)).trans ((faulted_g _ _ (by decide)).trans faultShown_state)
  · exact (hal.g (motor_aside n _ _)).trans
      ((faulted_g _ _ (by decide)).trans (faultShown_cause h))
  · exact (mcU_of_mot (raise_mot _ (faultRecord_sev cause n s) _) n).trans faulted_unit
  · refine mem_shown (l := (loseLock n (faultShown cause n s)).out.drop s.out.length ++ [.event (.mcFault n)]) ?_ (by simp)
    have hout : (faultShown cause n s).out = s.out := by
      unfold faultShown faultOff
      rw [State.inc_out, State.p_out, State.p_out, modMc_out]
    have hlose : s.out <+: (loseLock n (faultShown cause n s)).out := hout ▸ loseLock_shown
    have hall : (faulted cause n s).out = s.out ++ ((loseLock n (faultShown cause n s)).out.drop s.out.length ++
        [.event (.mcFault n)]) := by
      rw [← List.append_assoc, List.prefix_iff_eq_append.mp hlose]
      rfl
    rw [← hall]
    exact raise_shown _ _

end

/-! ## Signed 20-bit values -/

/-- A value that 20 bits hold. -/
def Fits20 (i : Int) : Prop := -524288 ≤ i ∧ i ≤ 524287

theorem fits20_sext (m : Nat) : Fits20 (sext 20 m) := by
  unfold Fits20 sext
  dsimp only
  split <;> omega

theorem fits20_sat (i : Int) : Fits20 (sat20 i) := by
  unfold Fits20 sat20 clampI
  split
  · omega
  · split <;> omega

theorem sext_unsext20 {i : Int} (h : Fits20 i) : sext 20 (unsext 20 i) = i := by
  unfold Fits20 at h
  unfold sext unsext
  dsimp only
  split <;> omega

theorem gi_pz (s : State) {off : Nat} {i : Int} (h : Fits20 i) : (s.pz ⟨off, 0, 20⟩ i).gi ⟨off, 0, 20⟩ = i := by
  unfold State.gi State.pz
  rw [g_p_self _ _ _ (show 0 + 20 ≤ 32 by decide), sext_mod, sext_unsext20 h]

/-! ## Starting (R243-R245) -/

section
variable {s t : State} {n : Fin 24}

/-- A channel's outputs, where PINMAP places any of them. -/
def mcPlaced (s : State) (n : Nat) : Bool := (List.range 6).any fun k => s.mapped 0x10 n k

theorem mcShow_out (o : Out) : (mcShow n o s).out = s.out ++ (if mcPlaced s n then [o] else []) := by
  unfold mcShow mcPlaced
  split
  · rfl
  · rw [List.append_nil]

theorem mcShow_kept (o : Out) : Kept (· ≠ .out) s (mcShow n o s) := kept_mcShow (by simp) n o (.refl s)

theorem mcShow_reg (o : Out) (off : Nat) : (mcShow n o s).reg off = s.reg off :=
  reg_congr (mcShow_kept o).part (mcShow_kept o).rev ((mcShow_kept o).same .regs (by simp)) off

theorem mcShow_mot (o : Out) : (mcShow n o s).mot = s.mot := (mcShow_kept o).same .mot (by simp)

/-- The field in force of a channel that keeps what it took, and whether it runs. -/
theorem mcIn_congr {f : Fld} (hrun : (mcState t n = Mcs.off ∨ mcState t n = Mcs.fault) ↔ (mcState s n = Mcs.off ∨ mcState s n = Mcs.fault))
    (htaken : (mcU t n).taken = (mcU s n).taken) (hreg : t.reg f.off = s.reg f.off) : mcIn t n f = mcIn s n f := by
  unfold mcIn State.g
  simp only [hrun, htaken, hreg]

/-- The test vectors of an attempt, as a state gives them. -/
def vectors (s : State) (n : Nat) : List Out :=
  if mcPlaced s n then [.testVectors n testAngles (3 * mcIn s n (MC_OCTRIP_OCTRIP n)) (mcIn s n (MC_START_TPULSE n))] else []

theorem vectors_congr (hrun : (mcState t n = Mcs.off ∨ mcState t n = Mcs.fault) ↔ (mcState s n = Mcs.off ∨ mcState s n = Mcs.fault))
    (htaken : (mcU t n).taken = (mcU s n).taken) (hregs : OnlyRegs [MC_STAT n] s t) (hrig : t.rig = s.rig) :
    vectors t n = vectors s n := by
  have hne : (MC_OCTRIP_OCTRIP n).off ≠ MC_STAT n ∧ (MC_START_TPULSE n).off ≠ MC_STAT n := by
    unfold MC_OCTRIP_OCTRIP MC_START_TPULSE MC_OCTRIP MC_START MC_STAT
    dsimp only
    omega
  unfold vectors mcPlaced State.mapped
  rw [hrig, mcIn_congr hrun htaken (hregs _ (by simpa using hne.1)), mcIn_congr hrun htaken (hregs _ (by simpa using hne.2))]

theorem testTrain_out : (testTrain n s).out = s.out ++ vectors s n := mcShow_out _

theorem testTrain_reg (off : Nat) : (testTrain n s).reg off = s.reg off := mcShow_reg _ off

theorem testTrain_unit : mcU (testTrain n s) n = mcU s n := mcU_of_mot (mcShow_mot _) n

theorem testTrain_state : mcState (testTrain n s) n = mcState s n := Alike.g (Z := fun _ => True) (fun off _ => testTrain_reg off) trivial

/-- A channel in IPD, its test vectors not yet sent. -/
def ipdBegun (n : Nat) (s : State) : State :=
  modMc n (fun u => { u with tries := 0, released := false, duty := none }) (s.p (MC_STAT_STATE n) Mcs.ipd)

theorem ipdBegun_unit : mcU (ipdBegun n s) n = { mcU s n with tries := 0, released := false, duty := none } := by
  unfold ipdBegun
  rw [mcU_modMc, mcU_of_mot (State.p_mot s (MC_STAT_STATE n) Mcs.ipd)]

theorem ipdBegun_state : mcState (ipdBegun n s) n = Mcs.ipd := by
  unfold ipdBegun
  rw [mcState_modMc, mcState_p _ _ (by decide)]

theorem ipdBegun_only : OnlyRegs [MC_STAT n] s (ipdBegun n s) :=
  OnlyRegs.of_reg ((onlyRegs_refl _ s).p (MC_STAT_STATE n) Mcs.ipd (by simp [MC_STAT_STATE])) (modMc_reg _ _ _)

/-- A running channel that enters IPD sends its test vectors. -/
theorem enterIpd_spec (h : ¬ (mcState s n = Mcs.off ∨ mcState s n = Mcs.fault)) : mcState (enterIpd n s) n = Mcs.ipd ∧
    (mcU (enterIpd n s) n).tries = 0 ∧ (enterIpd n s).out = s.out ++ vectors s n ∧ OnlyRegs [MC_STAT n] s (enterIpd n s) := by
  have hrig : (ipdBegun n s).rig = s.rig := (modMc_rig _ _ _).trans (State.p_rig _ _ _)
  have hvec : vectors (ipdBegun n s) n = vectors s n := by
    refine vectors_congr ⟨fun hx => absurd hx ?_, fun hx => absurd hx h⟩ (by rw [ipdBegun_unit]) ipdBegun_only hrig
    rw [ipdBegun_state]
    decide
  have hout : (ipdBegun n s).out = s.out := (modMc_out _ _ _).trans (State.p_out _ _ _)
  unfold enterIpd
  exact ⟨testTrain_state.trans ipdBegun_state, (congrArg Mc.tries testTrain_unit).trans (congrArg Mc.tries ipdBegun_unit),
    testTrain_out.trans (by rw [show (modMc n (fun u => { u with tries := 0, released := false, duty := none })
      (s.p (MC_STAT_STATE n) Mcs.ipd)) = ipdBegun n s from rfl, hvec, hout]), ipdBegun_only.of_reg testTrain_reg⟩

/-- A channel that loads the observer runs. -/
theorem mcCatch_spec (hz : Int) (th : BitVec 20) : mcState (mcCatch n hz th s) n = Mcs.run ∧
    (mcCatch n hz th s).gi (MC_SPEED_RPM n) = rpmOf s n hz ∧
    mcU (mcCatch n hz th s) n = { mcU s n with bad := 0, good := 0, theta := sext 20 th.toNat } ∧
    (mcCatch n hz th s).out = s.out ∧ OnlyRegs [MC_STAT n, MC_SPEED n] s (mcCatch n hz th s) := by
  have hspeed : Clear (MC_STAT_STATE n) (MC_SPEED_RPM n) := clear_inst rfl
  unfold mcCatch
  refine ⟨?_, ?_, ?_, ?_, ?_⟩
  · rw [mcState_modMc]
    exact (g_pz_clear _ _ hspeed).trans (mcState_p _ _ (by decide))
  · rw [modMc_gi]
    exact gi_pz _ (fits20_sat _)
  · rw [mcU_modMc, mcU_of_mot ((State.pz_mot _ _ _).trans (State.p_mot s (MC_STAT_STATE n) Mcs.run))]
  · rw [modMc_out, State.pz_out, State.p_out]
  · exact OnlyRegs.of_reg (((onlyRegs_refl _ s).p (MC_STAT_STATE n) Mcs.run (by simp [MC_STAT_STATE])).pz (MC_SPEED_RPM n)
      (rpmOf s n hz) (by simp [MC_SPEED_RPM])) (modMc_reg _ _ _)

end

/-! ## A PWM period (R235, R237, R245) -/

section
variable {s t : State} {n : Fin 24} {x : PwmSample}

/-- The registers that a period shows. -/
def periodRegs (n : Nat) : List Nat := [MC_SPEED n, MC_ID n, MC_IQ n, MC_STAT n]

/-- The angle that a period's currents are shown at. -/
def shownAngle (s : State) (n : Nat) (x : PwmSample) : Int :=
  if mcState s n = Mcs.open_ then openAngle s n else sext 20 x.theta.toNat

/-- What a period has taken and shown, before what its state does. -/
structure Presented (n : Nat) (x : PwmSample) (big : Bool) (s t : State) : Prop where
  state : mcState t n = mcState s n
  speed : t.gi (MC_SPEED_RPM n) = sext 20 x.rpm.toNat
  idq : t.gi (MC_ID_ID n) = (dqOf s n x (shownAngle s n x)).1 ∧ t.gi (MC_IQ_IQ n) = (dqOf s n x (shownAngle s n x)).2
  unit : ∃ setp taken, mcU t n =
    { mcU s n with setp := setp, taken := taken, theta := sext 20 x.theta.toNat, overCur := big }
  out : t.out = s.out
  rig : t.rig = s.rig
  only : OnlyRegs (periodRegs n) s t

theorem dqOf_congr (h : ∀ off, t.reg off = s.reg off) (th : Int) : dqOf t n x th = dqOf s n x th := by
  unfold dqOf phases State.on State.g
  simp only [h]

/-- The registers as written and the setpoint, taken. -/
def periodTaken (n : Nat) (s : State) : State := mcTake n (modMc n (fun u => { u with setp := mcSetp s n }) s)

theorem periodTaken_unit : ∃ l, mcU (periodTaken n s) n = { mcU s n with setp := mcSetp s n, taken := l } := by
  unfold periodTaken mcTake
  rw [mcU_modMc, mcU_modMc]
  exact ⟨_, rfl⟩

theorem periodTaken_reg (off : Nat) : (periodTaken n s).reg off = s.reg off := rfl
theorem periodTaken_g (f : Fld) : (periodTaken n s).g f = s.g f := rfl
theorem periodTaken_on (f : Fld) : (periodTaken n s).on f = s.on f := rfl
theorem periodTaken_out : (periodTaken n s).out = s.out := rfl
theorem periodTaken_rig : (periodTaken n s).rig = s.rig := rfl
theorem periodTaken_state : mcState (periodTaken n s) n = mcState s n := rfl

theorem periodTaken_angle : openAngle (periodTaken n s) n = openAngle s n := by
  obtain ⟨l, hl⟩ := periodTaken_unit (n := n) (s := s)
  unfold openAngle
  dsimp only
  rw [hl, periodTaken_g, periodTaken_g]

/-- The nodes presented. -/
def nodesShown (n : Nat) (x : PwmSample) (d q : Int) (s : State) : State :=
  ((s.pz (MC_SPEED_RPM n) (sext 20 x.rpm.toNat)).pz (MC_ID_ID n) d).pz (MC_IQ_IQ n) q

theorem mcPresent_eq : mcPresent n x s = modMc n (fun u => { u with theta := sext 20 x.theta.toNat })
    (nodesShown n x (dqOf s n x (shownAngle s n x)).1 (dqOf s n x (shownAngle s n x)).2 s) := rfl

theorem dqOf_fits (th : Int) : Fits20 (dqOf s n x th).1 ∧ Fits20 (dqOf s n x th).2 := by
  unfold dqOf
  exact ⟨fits20_sat _, fits20_sat _⟩

theorem nodesShown_spec {d q : Int} (hd : Fits20 d) (hq : Fits20 q) : mcState (nodesShown n x d q s) n = mcState s n ∧
    (nodesShown n x d q s).gi (MC_SPEED_RPM n) = sext 20 x.rpm.toNat ∧ (nodesShown n x d q s).gi (MC_ID_ID n) = d ∧
    (nodesShown n x d q s).gi (MC_IQ_IQ n) = q := by
  have h1 : Clear (MC_STAT_STATE n) (MC_SPEED_RPM n) := clear_inst rfl
  have h2 : Clear (MC_STAT_STATE n) (MC_ID_ID n) := clear_inst rfl
  have h3 : Clear (MC_STAT_STATE n) (MC_IQ_IQ n) := clear_inst rfl
  have h4 : Clear (MC_SPEED_RPM n) (MC_ID_ID n) := clear_inst rfl
  have h5 : Clear (MC_SPEED_RPM n) (MC_IQ_IQ n) := clear_inst rfl
  have h6 : Clear (MC_ID_ID n) (MC_IQ_IQ n) := clear_inst rfl
  unfold nodesShown mcState
  refine ⟨?_, ?_, ?_, gi_pz _ hq⟩
  · rw [g_pz_clear _ _ h3, g_pz_clear _ _ h2, g_pz_clear _ _ h1]
  · rw [gi_of_g (g_pz_clear _ _ h5), gi_of_g (g_pz_clear _ _ h4)]
    exact gi_pz _ (fits20_sext _)
  · rw [gi_of_g (g_pz_clear _ _ h6)]
    exact gi_pz _ hd

theorem nodesShown_rest (d q : Int) : (nodesShown n x d q s).mot = s.mot ∧ (nodesShown n x d q s).out = s.out ∧
    (nodesShown n x d q s).rig = s.rig ∧ OnlyRegs (periodRegs n) s (nodesShown n x d q s) := by
  unfold nodesShown
  refine ⟨?_, ?_, ?_, ?_⟩
  · rw [State.pz_mot, State.pz_mot, State.pz_mot]
  · rw [State.pz_out, State.pz_out, State.pz_out]
  · rw [State.pz_rig, State.pz_rig, State.pz_rig]
  · exact (((onlyRegs_refl _ s).pz _ _ (by simp [MC_SPEED_RPM, periodRegs])).pz _ _ (by simp [MC_ID_ID, periodRegs])).pz _ _
      (by simp [MC_IQ_IQ, periodRegs])

/-- A period's samples taken and shown. -/
def presented (n : Nat) (x : PwmSample) (big : Bool) (s : State) : State :=
  modMc n (fun u => { u with overCur := big }) (mcPresent n x (periodTaken n s))

theorem presented_spec (big : Bool) : Presented n x big s (presented n x big s) := by
  obtain ⟨l, hl⟩ := periodTaken_unit (n := n) (s := s)
  have hdq : dqOf (periodTaken n s) n x (shownAngle (periodTaken n s) n x) = dqOf s n x (shownAngle s n x) := by
    rw [dqOf_congr periodTaken_reg, shownAngle, shownAngle, periodTaken_state, periodTaken_angle]
  have hfit := dqOf_fits (s := s) (n := n) (x := x) (shownAngle s n x)
  obtain ⟨hst, hsp, hid, hiq⟩ := nodesShown_spec (s := periodTaken n s) (n := n) (x := x) hfit.1 hfit.2
  obtain ⟨hmot, hout, hrig, honly⟩ := nodesShown_rest (s := periodTaken n s) (n := n) (x := x)
    (dqOf s n x (shownAngle s n x)).1 (dqOf s n x (shownAngle s n x)).2
  unfold presented
  rw [mcPresent_eq, hdq]
  refine ⟨?_, ?_, ⟨?_, ?_⟩, ⟨mcSetp s n, l, ?_⟩, ?_, ?_, ?_⟩
  · rw [mcState_modMc, mcState_modMc, hst, periodTaken_state]
  · rw [modMc_gi, modMc_gi, hsp]
  · rw [modMc_gi, modMc_gi, hid]
  · rw [modMc_gi, modMc_gi, hiq]
  · rw [mcU_modMc, mcU_modMc, mcU_of_mot hmot, hl]
  · rw [modMc_out, modMc_out, hout, periodTaken_out]
  · rw [modMc_rig, modMc_rig, hrig, periodTaken_rig]
  · exact (honly.of_reg (modMc_reg _ _ _)).of_reg (modMc_reg _ _ _)

theorem Presented.clamped {big : Bool} (h : Presented n x big s t) : Presented n x big s (t.pb (MC_STAT_CLAMPED n) true) := by
  have h1 : Clear (MC_SPEED_RPM n) (MC_STAT_CLAMPED n) := clear_inst rfl
  have h2 : Clear (MC_ID_ID n) (MC_STAT_CLAMPED n) := clear_inst rfl
  have h3 : Clear (MC_IQ_IQ n) (MC_STAT_CLAMPED n) := clear_inst rfl
  obtain ⟨a, b, hu⟩ := h.unit
  refine ⟨(mcState_pb _ (clear_inst rfl)).trans h.state, ?_, ⟨?_, ?_⟩, ⟨a, b, ?_⟩, ?_, ?_, ?_⟩
  · rw [gi_of_g (g_pb_clear _ _ h1), h.speed]
  · rw [gi_of_g (g_pb_clear _ _ h2), h.idq.1]
  · rw [gi_of_g (g_pb_clear _ _ h3), h.idq.2]
  · rw [mcU_of_mot (State.pb_mot _ _ _), hu]
  · rw [State.pb_out, h.out]
  · rw [State.pb_rig, h.rig]
  · exact h.only.pb _ _ (by simp [MC_STAT_CLAMPED, periodRegs])

theorem phases_taken : phases (periodTaken n s) n x = phases s n x := by
  unfold phases
  rw [periodTaken_on]

/-- A phase current of a period exceeds OCTRIP. -/
def periodBig (s : State) (n : Nat) (x : PwmSample) : Bool := beyond (s.g (MC_OCTRIP_OCTRIP n)) (phases s n x)

theorem periodBig_taken : periodBig (periodTaken n s) n x = periodBig s n x := by
  unfold periodBig
  rw [phases_taken, periodTaken_g]

theorem mcPeriod_eq (n : Nat) (x : PwmSample) (s : State) : mcPeriod n x s =
    if mcState (periodTaken n s) n = Mcs.off then periodTaken n s
    else if mcState (periodTaken n s) n = Mcs.fault then presented n x (periodBig (periodTaken n s) n x) s
    else if periodBig (periodTaken n s) n x then mcFault 2 n (presented n x (periodBig (periodTaken n s) n x) s)
    else mcStatePeriod n x
      (if mcMode (presented n x (periodBig (periodTaken n s) n x) s) n = 1 ∧ mcState (periodTaken n s) n ≠ Mcs.stopping ∧
          mcSetp (presented n x (periodBig (periodTaken n s) n x) s) n ≠ mcSource (presented n x (periodBig (periodTaken n s) n x) s) n
        then (presented n x (periodBig (periodTaken n s) n x) s).pb (MC_STAT_CLAMPED n) true
        else presented n x (periodBig (periodTaken n s) n x) s) := rfl

/-- A period of a channel that is neither OFF nor in FAULT: beyond OCTRIP a FAULT, else what its state does. -/
theorem mcPeriod_beyond (hoff : mcState s n ≠ Mcs.off) (hf : mcState s n ≠ Mcs.fault) (h : periodBig s n x = true) :
    mcPeriod n x s = mcFault 2 n (presented n x true s) := by
  rw [mcPeriod_eq, periodTaken_state, periodBig_taken, if_neg hoff, if_neg hf, h, if_pos rfl]

theorem mcPeriod_within (hoff : mcState s n ≠ Mcs.off) (hf : mcState s n ≠ Mcs.fault) (h : periodBig s n x = false) :
    ∃ t, Presented n x false s t ∧ mcPeriod n x s = mcStatePeriod n x t := by
  have hp := presented_spec (s := s) (n := n) (x := x) false
  rw [mcPeriod_eq, periodTaken_state, periodBig_taken, if_neg hoff, if_neg hf, h, if_neg (by decide)]
  refine ⟨_, ?_, rfl⟩
  split
  · exact hp.clamped
  · exact hp

end

/-! ## The current loop and what a state does in a period -/

section
variable {s t : State} {n : Fin 24} {x : PwmSample}

/-- The high times found in the period before, where PINMAP places an output. -/
def dutyOuts (s : State) (n : Nat) : List Out :=
  if mcPlaced s n then ((mcU s n).duty.map fun h => Out.duty n h.1 h.2.1 h.2.2).toList else []

/-- The high times found in the period before, applied. -/
def dutyApplied (n : Nat) (s : State) : State :=
  (mcU s n).duty.elim s fun h => mcShow n (.duty n h.1 h.2.1 h.2.2) s

theorem dutyApplied_spec : (dutyApplied n s).mot = s.mot ∧ (dutyApplied n s).out = s.out ++ dutyOuts s n ∧
    ∀ off, (dutyApplied n s).reg off = s.reg off := by
  unfold dutyApplied dutyOuts
  cases (mcU s n).duty with
  | none =>
    refine ⟨rfl, ?_, fun _ => rfl⟩
    rw [Option.map_none, Option.toList_none, ite_self, List.append_nil, Option.elim_none]
  | some h => exact ⟨mcShow_mot _, mcShow_out _, mcShow_reg _⟩

/-- What the current loop does to a channel's part: its integrators and the next period's high times. -/
def IsLoop (f : Mc → Mc) : Prop := ∀ u, ∃ a b d, f u = { u with integD := a, integQ := b, duty := some d }

theorem currentLoop_eq (th rd rq : Int) (s : State) : ∃ f, currentLoop n x th rd rq s = modMc n f (dutyApplied n s) ∧ IsLoop f := by
  unfold currentLoop dutyApplied
  obtain ⟨d, q⟩ := dqOf s n x th
  dsimp only
  refine ⟨_, congrArg (modMc n _) ?_, fun u => ⟨_, _, _, rfl⟩⟩
  cases (mcU s n).duty with
  | none => rfl
  | some h => rfl

/-- What a period of the loop leaves. -/
structure Looped (n : Nat) (s t : State) : Prop where
  unit : ∃ a b d, mcU t n = { mcU s n with integD := a, integQ := b, duty := some d }
  out : t.out = s.out ++ dutyOuts s n
  reg : ∀ off, t.reg off = s.reg off

theorem currentLoop_looped (th rd rq : Int) : Looped n s (currentLoop n x th rd rq s) := by
  obtain ⟨f, he, hf⟩ := currentLoop_eq (x := x) (n := n) th rd rq s
  obtain ⟨hmot, hout, hreg⟩ := dutyApplied_spec (s := s) (n := n)
  obtain ⟨a, b, d, hu⟩ := hf (mcU s n)
  rw [he]
  refine ⟨⟨a, b, d, ?_⟩, ?_, fun off => ?_⟩
  · rw [mcU_modMc, mcU_of_mot hmot, hu]
  · rw [modMc_out, hout]
  · rw [modMc_reg, hreg]

/-- The runs of the residual after a period. -/
def residualRuns (lim res : Nat) (u : Mc) : Mc :=
  { u with bad := if res > lim then u.bad + 1 else 0, good := if res < lim then u.good + 1 else 0 }

theorem residualRun_eq (res : Nat) : residualRun n res s = modMc n (residualRuns (s.g (MC_OBS_RES_LIMIT n)) res) s := rfl

/-- A period of the loop with the residual counted. -/
structure Watched (n : Nat) (lim res : Nat) (s t : State) : Prop where
  unit : ∃ a b d, mcU t n = residualRuns lim res { mcU s n with integD := a, integQ := b, duty := some d }
  out : t.out = s.out ++ dutyOuts s n
  reg : ∀ off, t.reg off = s.reg off

theorem g_of_reg {f : Fld} (h : ∀ off, t.reg off = s.reg off) : t.g f = s.g f := Alike.g (Z := fun _ => True) (fun off _ => h off) trivial

theorem watched (res : Nat) (th rd rq : Int) :
    Watched n (s.g (MC_OBS_RES_LIMIT n)) res s (residualRun n res (currentLoop n x th rd rq s)) := by
  obtain ⟨⟨a, b, d, hu⟩, hout, hreg⟩ := currentLoop_looped (s := s) (n := n) (x := x) th rd rq
  rw [residualRun_eq, g_of_reg hreg]
  refine ⟨⟨a, b, d, ?_⟩, ?_, fun off => ?_⟩
  · rw [mcU_modMc, hu]
  · rw [modMc_out, hout]
  · rw [modMc_reg, hreg]

theorem slower_congr (h : ∀ off, t.reg off = s.reg off) (rpm : Int) : slower t n rpm (t.g (MC_FREQ_F_CATCH n)) =
    slower s n rpm (s.g (MC_FREQ_F_CATCH n)) := by
  unfold slower
  rw [g_of_reg h, g_of_reg h]

theorem residualLost_zero (h : (mcU s n).bad = 0) : residualLost s n = false := by
  unfold residualLost
  rw [h]
  exact decide_eq_false (by omega)

/-- A channel that runs on. -/
theorem statePeriod_run (hst : mcState s n = Mcs.run) (hres : x.residual.toNat ≤ s.g (MC_OBS_RES_LIMIT n))
    (hslow : slower s n (sext 20 x.rpm.toNat) (s.g (MC_FREQ_F_CATCH n)) = false) :
    Watched n (s.g (MC_OBS_RES_LIMIT n)) x.residual.toNat s (mcStatePeriod n x s) := by
  have hw := watched (s := s) (n := n) (x := x) x.residual.toNat (sext 20 x.theta.toNat) 0 (iqRef s n)
  obtain ⟨a, b, d, hu⟩ := hw.unit
  have hbad : (mcU (residualRun n x.residual.toNat (currentLoop n x (sext 20 x.theta.toNat) 0 (iqRef s n) s)) n).bad = 0 := by
    rw [hu]
    exact if_neg (Nat.not_lt.mpr hres)
  unfold mcStatePeriod
  dsimp only
  rw [if_pos hst, residualLost_zero hbad, slower_congr hw.reg, hslow, if_neg (by decide)]
  exact hw

/-- An observer lost: REACQ. -/
theorem statePeriod_lost (hst : mcState s n = Mcs.run)
    (hslow : slower s n (sext 20 x.rpm.toNat) (s.g (MC_FREQ_F_CATCH n)) = true) :
    ∃ t, mcStatePeriod n x s = observerLoss n t := by
  have hw := watched (s := s) (n := n) (x := x) x.residual.toNat (sext 20 x.theta.toNat) 0 (iqRef s n)
  unfold mcStatePeriod
  dsimp only
  rw [if_pos hst, slower_congr hw.reg, hslow, Bool.or_true, if_pos rfl]
  exact ⟨_, rfl⟩

theorem observerLoss_spec : mcState (observerLoss n s) n = Mcs.reacq ∧ (observerLoss n s).g (MC_STAT_CAUSE n) = 5 ∧
    (observerLoss n s).on (MC_STAT_OBS_LOSS n) = true ∧ (mcU (observerLoss n s) n).bad = 0 := by
  have h1 : Clear (MC_STAT_STATE n) (MC_STAT_CAUSE n) := clear_inst rfl
  have h2 : Clear (MC_STAT_STATE n) (MC_STAT_OBS_LOSS n) := clear_inst rfl
  have h3 : Clear (MC_STAT_OBS_LOSS n) (MC_STAT_CAUSE n) := clear_inst rfl
  unfold observerLoss
  dsimp only
  refine ⟨?_, ?_, ?_, ?_⟩
  · rw [loseLock_state, mcState_modMc]
    exact (g_p_clear _ _ h1).trans ((g_pb_clear _ _ h2).trans (mcState_p _ _ (by decide)))
  · rw [loseLock_g (f := MC_STAT_CAUSE n) (stat_unspoiled n _ _) (clear_inst rfl), modMc_g]
    exact g_p_self _ _ _ (show 12 + 4 ≤ 32 by decide)
  · rw [loseLock_on (f := MC_STAT_OBS_LOSS n) (stat_unspoiled n _ _) (clear_inst rfl), modMc_on, on_p_clear _ _ h3]
    exact on_pb_same _ _ rfl
  · rw [mcU_loseLock, mcU_modMc]

/-- The open loop has reached its hand-over frequency with the observer locked (R243). -/
def handsOver (s : State) (n : Nat) (x : PwmSample) : Prop :=
  s.g (MC_FREQ_F_HAND n) * (s.g (MC_PWM_FREQ n) * 100) ≤ s.g (MC_RAMP_ACCEL n) * 10 * ((mcU s n).openN + 1) ∧
    64 ≤ (if x.residual.toNat < s.g (MC_OBS_RES_LIMIT n) then (mcU s n).good + 1 else 0)

/-- A period of the open loop counted. -/
def openCounted (n : Nat) (x : PwmSample) (s : State) : State :=
  modMc n (fun u => { u with openN := u.openN + 1 })
    (residualRun n x.residual.toNat (currentLoop n x (openAngle s n) (s.g (MC_ILIM_ILIM n)) 0 s))

theorem openCounted_spec : (∃ a b d, mcU (openCounted n x s) n =
      { residualRuns (s.g (MC_OBS_RES_LIMIT n)) x.residual.toNat { mcU s n with integD := a, integQ := b, duty := some d } with
        openN := (mcU s n).openN + 1 }) ∧
    (openCounted n x s).out = s.out ++ dutyOuts s n ∧ ∀ off, (openCounted n x s).reg off = s.reg off := by
  have hw := watched (s := s) (n := n) (x := x) x.residual.toNat (openAngle s n) (s.g (MC_ILIM_ILIM n)) 0
  obtain ⟨a, b, d, hu⟩ := hw.unit
  unfold openCounted
  refine ⟨⟨a, b, d, ?_⟩, ?_, fun off => ?_⟩
  · rw [mcU_modMc, hu]
    rfl
  · rw [modMc_out, hw.out]
  · rw [modMc_reg, hw.reg]

/-- The open loop handed over to the observer. -/
def openHanded (n : Nat) (s : State) : State := modMc n (fun u => { u with bad := 0 }) (s.p (MC_STAT_STATE n) Mcs.run)

theorem statePeriod_open (hst : mcState s n = Mcs.open_) : (handsOver s n x → mcStatePeriod n x s = openHanded n (openCounted n x s)) ∧
    (¬ handsOver s n x → mcStatePeriod n x s = openCounted n x s) := by
  obtain ⟨⟨a, b, d, hu⟩, _, hreg⟩ := openCounted_spec (s := s) (n := n) (x := x)
  have hiff : ((openCounted n x s).g (MC_RAMP_ACCEL n) * 10 * (mcU (openCounted n x s) n).openN ≥
      (openCounted n x s).g (MC_FREQ_F_HAND n) * ((openCounted n x s).g (MC_PWM_FREQ n) * 100) ∧
      64 ≤ (mcU (openCounted n x s) n).good) ↔ handsOver s n x := by
    rw [g_of_reg hreg, g_of_reg hreg, g_of_reg hreg, hu]
    exact Iff.rfl
  have hp : mcStatePeriod n x s = if ((openCounted n x s).g (MC_RAMP_ACCEL n) * 10 * (mcU (openCounted n x s) n).openN ≥
      (openCounted n x s).g (MC_FREQ_F_HAND n) * ((openCounted n x s).g (MC_PWM_FREQ n) * 100) ∧
      64 ≤ (mcU (openCounted n x s) n).good) then openHanded n (openCounted n x s) else openCounted n x s := by
    unfold mcStatePeriod
    dsimp only
    rw [if_neg (by rw [hst]; decide), if_pos hst]
    rfl
  rw [hp]
  exact ⟨fun h => if_pos (hiff.mpr h), fun h => if_neg fun hx => h (hiff.mp hx)⟩

/-- The active short of a stop begun for a rotor too slow. -/
theorem statePeriod_short (hst : mcState s n = Mcs.stopping) (hs : (mcU s n).short = false)
    (hslow : slower s n (sext 20 x.rpm.toNat) (s.g (MC_FREQ_F_CATCH n)) = true) :
    mcState (mcStatePeriod n x s) n = Mcs.stopping ∧ (mcU (mcStatePeriod n x s) n).short = true ∧
      (mcU (mcStatePeriod n x s) n).duty = none ∧ (mcStatePeriod n x s).out = s.out ++ dutyOuts s n ∧
      OnlyRegs [MC_STAT n] s (mcStatePeriod n x s) := by
  have hw := watched (s := s) (n := n) (x := x) x.residual.toNat (sext 20 x.theta.toNat) 0 (iqRef s n)
  have h1 : Clear (MC_STAT_STATE n) (MC_STAT_CAUSE n) := clear_inst rfl
  have h2 : Clear (MC_STAT_STATE n) (MC_STAT_OBS_LOSS n) := clear_inst rfl
  have hslow' : slower (residualRun n x.residual.toNat (currentLoop n x (sext 20 x.theta.toNat) 0 (iqRef s n) s)) n (sext 20 x.rpm.toNat)
      ((residualRun n x.residual.toNat (currentLoop n x (sext 20 x.theta.toNat) 0 (iqRef s n) s)).g (MC_FREQ_F_CATCH n)) = true :=
    (slower_congr hw.reg _).trans hslow
  have hstate := g_of_reg (f := MC_STAT_STATE n) hw.reg
  have honly : OnlyRegs [MC_STAT n] s (residualRun n x.residual.toNat (currentLoop n x (sext 20 x.theta.toNat) 0 (iqRef s n) s)) :=
    fun off _ => hw.reg off
  have hout := hw.out
  unfold mcStatePeriod
  dsimp only
  rw [if_neg (by rw [hst]; decide), if_neg (by rw [hst]; decide), if_pos hst, if_neg (by simp [hs])]
  generalize residualRun n x.residual.toNat _ = r at hslow' hstate honly hout
  rw [modMc_g, show slower (modMc n (fun u => { u with stopN := u.stopN + 1 }) r) n (sext 20 x.rpm.toNat)
    (r.g (MC_FREQ_F_CATCH n)) = true from hslow', Bool.or_true, if_pos rfl]
  unfold shortPeriod
  rw [mcState_modMc, mcState_modMc, mcU_modMc, mcU_modMc, modMc_out, modMc_out]
  refine ⟨?_, rfl, rfl, ?_, ?_⟩
  · split
    · exact (g_p_clear _ _ h1).trans ((g_pb_clear _ _ h2).trans (hstate.trans hst))
    · exact hstate.trans hst
  · split
    · rw [State.p_out, State.pb_out, modMc_out, hout]
    · rw [modMc_out, hout]
  · refine OnlyRegs.of_reg (OnlyRegs.of_reg ?_ (modMc_reg _ _ _)) (modMc_reg _ _ _)
    split
    · exact ((honly.of_reg (modMc_reg _ _ _)).pb _ _ (by simp [MC_STAT_OBS_LOSS])).p _ _ (by simp [MC_STAT_CAUSE])
    · exact honly.of_reg (modMc_reg _ _ _)

/-- A channel that starts or looks for its rotor stays in its state. -/
theorem statePeriod_starting (hst : mcState s n = Mcs.sense ∨ mcState s n = Mcs.brake ∨ mcState s n = Mcs.ipd ∨ mcState s n = Mcs.reacq) :
    (∀ off, (mcStatePeriod n x s).reg off = s.reg off) ∧ (mcU (mcStatePeriod n x s) n).theta = (mcU s n).theta ∧
      (mcU (mcStatePeriod n x s) n).overCur = (mcU s n).overCur := by
  have hloop := currentLoop_looped (s := s) (n := n) (x := x) (sext 20 x.theta.toNat) 0 0
  obtain ⟨a, b, d, hu⟩ := hloop.unit
  unfold mcStatePeriod
  dsimp only
  rcases hst with h | h | h | h
  · rw [if_neg (by rw [h]; decide), if_neg (by rw [h]; decide), if_neg (by rw [h]; decide), if_neg (by rw [h]; decide),
      if_pos (.inl h)]
    exact ⟨hloop.reg, by rw [hu], by rw [hu]⟩
  · rw [if_neg (by rw [h]; decide), if_neg (by rw [h]; decide), if_neg (by rw [h]; decide), if_pos h]
    exact ⟨fun _ => rfl, by rw [shortPeriod, mcU_modMc], by rw [shortPeriod, mcU_modMc]⟩
  · rw [if_neg (by rw [h]; decide), if_neg (by rw [h]; decide), if_neg (by rw [h]; decide), if_neg (by rw [h]; decide),
      if_neg (by rw [h]; decide)]
    exact ⟨fun _ => rfl, rfl, rfl⟩
  · rw [if_neg (by rw [h]; decide), if_neg (by rw [h]; decide), if_neg (by rw [h]; decide), if_neg (by rw [h]; decide),
      if_pos (.inr h)]
    exact ⟨hloop.reg, by rw [hu], by rw [hu]⟩

end

/-! ## What a period within OCTRIP shows -/

section
variable {s t u : State} {n : Fin 24} {x : PwmSample}

/-- The current of phase W: sensed, or found from the others. -/
def phaseW (s : State) (n : Nat) (x : PwmSample) : Int :=
  if s.on (MC_SENSE_W_EN n) then sext 20 x.iw.toNat else -(sext 20 x.iu.toNat) - sext 20 x.iv.toNat

theorem periodBig_iff : periodBig s n x = true ↔ s.g (MC_OCTRIP_OCTRIP n) < (sext 20 x.iu.toNat).natAbs ∨
    s.g (MC_OCTRIP_OCTRIP n) < (sext 20 x.iv.toNat).natAbs ∨ s.g (MC_OCTRIP_OCTRIP n) < (phaseW s n x).natAbs :=
  decide_eq_true_iff

theorem periodBig_within (hu : (sext 20 x.iu.toNat).natAbs ≤ s.g (MC_OCTRIP_OCTRIP n))
    (hv : (sext 20 x.iv.toNat).natAbs ≤ s.g (MC_OCTRIP_OCTRIP n)) (hw : (phaseW s n x).natAbs ≤ s.g (MC_OCTRIP_OCTRIP n)) :
    periodBig s n x = false := Bool.eq_false_iff.mpr fun h => by
  have := periodBig_iff.mp h
  omega

theorem Presented.g_out {big : Bool} (h : Presented n x big s t) {f : Fld} (hf : f.off ∉ periodRegs n) : t.g f = s.g f :=
  Alike.g h.only.alike hf

/-- A register of a channel outside those that a period shows. -/
theorem not_periodRegs {off : Nat} (h : off < MC_STAT n ∨ MC_ID n < off) : off ∉ periodRegs n := by
  unfold periodRegs MC_SPEED MC_ID MC_IQ MC_STAT at *
  simp only [List.mem_cons, List.not_mem_nil, or_false, not_or]
  omega

theorem Presented.g_below {big : Bool} (h : Presented n x big s t) {a lo w : Nat} (ha : a + 0x80 * n.val < MC_STAT n) :
    t.g ⟨a + 0x80 * n, lo, w⟩ = s.g ⟨a + 0x80 * n, lo, w⟩ := h.g_out (not_periodRegs (.inl ha))

theorem below_stat {a : Nat} (h : Nat.blt a 0x800034 = true) : a + 0x80 * n.val < MC_STAT n := by
  rw [Nat.blt_eq] at h
  unfold MC_STAT
  omega

theorem Presented.slower {big : Bool} (h : Presented n x big s t) (rpm : Int) :
    slower t n rpm (t.g (MC_FREQ_F_CATCH n)) = slower s n rpm (s.g (MC_FREQ_F_CATCH n)) := by
  have h1 : t.g (MC_FREQ_F_CATCH n) = s.g (MC_FREQ_F_CATCH n) := h.g_below (below_stat rfl)
  have h2 : t.g (MC_MOTOR_POLE_PAIRS n) = s.g (MC_MOTOR_POLE_PAIRS n) := h.g_below (below_stat rfl)
  unfold Sys2Proof.Machine.slower
  rw [h1, h2]

theorem Presented.resLimit {big : Bool} (h : Presented n x big s t) : t.g (MC_OBS_RES_LIMIT n) = s.g (MC_OBS_RES_LIMIT n) :=
  h.g_below (below_stat rfl)

theorem Presented.handsOver {big : Bool} (h : Presented n x big s t) : handsOver t n x ↔ handsOver s n x := by
  obtain ⟨a, b, hu⟩ := h.unit
  have h1 : t.g (MC_FREQ_F_HAND n) = s.g (MC_FREQ_F_HAND n) := h.g_below (below_stat rfl)
  have h2 : t.g (MC_PWM_FREQ n) = s.g (MC_PWM_FREQ n) := h.g_below (below_stat rfl)
  have h3 : t.g (MC_RAMP_ACCEL n) = s.g (MC_RAMP_ACCEL n) := h.g_below (below_stat rfl)
  unfold Sys2Proof.Machine.handsOver
  rw [h1, h2, h3, h.resLimit, hu]

theorem Presented.dutyOuts {big : Bool} (h : Presented n x big s t) : t.out ++ dutyOuts t n = s.out ++ dutyOuts s n := by
  obtain ⟨a, b, hu⟩ := h.unit
  unfold Sys2Proof.Machine.dutyOuts mcPlaced State.mapped
  rw [h.out, h.rig, hu]

/-- A later state of the period with the same registers shows the same speed and currents. -/
theorem Presented.shows {big : Bool} (h : Presented n x big s t) (ho : OnlyRegs [MC_STAT n] t u) :
    u.gi (MC_SPEED_RPM n) = sext 20 x.rpm.toNat ∧ u.gi (MC_ID_ID n) = (dqOf s n x (shownAngle s n x)).1 ∧
      u.gi (MC_IQ_IQ n) = (dqOf s n x (shownAngle s n x)).2 ∧ OnlyRegs (periodRegs n) s u := by
  have hne (f : Fld) (hf : f.off ≠ MC_STAT n) : u.gi f = t.gi f := gi_of_g (Alike.g ho.alike (by simpa using hf))
  refine ⟨(hne _ ?_).trans h.speed, (hne _ ?_).trans h.idq.1, (hne _ ?_).trans h.idq.2,
    h.only.trans fun off hoff => ho off fun hx => hoff ?_⟩
  · unfold MC_SPEED_RPM MC_SPEED MC_STAT
    dsimp only
    omega
  · unfold MC_ID_ID MC_ID MC_STAT
    dsimp only
    omega
  · unfold MC_IQ_IQ MC_IQ MC_STAT
    dsimp only
    omega
  · rw [List.mem_singleton.mp hx]
    simp [periodRegs]

theorem onlyStat_of_reg (h : ∀ off, t.reg off = s.reg off) : OnlyRegs [MC_STAT n] s t := fun off _ => h off

theorem openHanded_spec : mcState (openHanded n s) n = Mcs.run ∧ (mcU (openHanded n s) n).bad = 0 ∧
    (mcU (openHanded n s) n).theta = (mcU s n).theta ∧ (openHanded n s).out = s.out ∧ OnlyRegs [MC_STAT n] s (openHanded n s) := by
  unfold openHanded
  refine ⟨?_, ?_, ?_, ?_, ?_⟩
  · rw [mcState_modMc, mcState_p _ _ (by decide)]
  · rw [mcU_modMc]
  · rw [mcU_modMc, mcU_of_mot (State.p_mot s (MC_STAT_STATE n) Mcs.run)]
  · rw [modMc_out, State.p_out]
  · exact OnlyRegs.of_reg ((onlyRegs_refl _ s).p (MC_STAT_STATE n) Mcs.run (by simp [MC_STAT_STATE])) (modMc_reg _ _ _)

theorem shownAngle_closed (h : mcState s n ≠ Mcs.open_) : shownAngle s n x = sext 20 x.theta.toNat := if_neg h

theorem shownAngle_open (h : mcState s n = Mcs.open_) : shownAngle s n x = openAngle s n := if_pos h

end

/-! ## The attempts of IPD, and a driver's fault line -/

section
variable {s : State} {n : Fin 24} {a : List Nat} {ts : List (List Nat)}

/-- The rotor's position found by an attempt. -/
def ipdFound (n : Nat) (l : List Nat) (s : State) : State :=
  modMc n (fun u => { u with openN := 0, good := 0, bad := 0, pos := posOf l }) (s.p (MC_STAT_STATE n) Mcs.open_)

theorem ipdDone_found (hst : mcState s n = Mcs.ipd) (h : contrastOk s n (pulseTimes s n a) = true) :
    mcIpdDone n (a :: ts) s = ipdFound n (pulseTimes s n a) s := by
  unfold mcIpdDone ipdAttempts
  rw [if_neg (by simp [hst])]
  dsimp only
  rw [if_pos h]
  rfl

theorem ipdFound_spec (l : List Nat) : mcState (ipdFound n l s) n = Mcs.open_ ∧ (mcU (ipdFound n l s) n).pos = posOf l ∧
    (mcU (ipdFound n l s) n).openN = 0 ∧ (ipdFound n l s).out = s.out ∧ OnlyRegs [MC_STAT n] s (ipdFound n l s) := by
  unfold ipdFound
  refine ⟨?_, ?_, ?_, ?_, ?_⟩
  · rw [mcState_modMc, mcState_p _ _ (by decide)]
  · rw [mcU_modMc]
  · rw [mcU_modMc]
  · rw [modMc_out, State.p_out]
  · exact OnlyRegs.of_reg ((onlyRegs_refl _ s).p (MC_STAT_STATE n) Mcs.open_ (by simp [MC_STAT_STATE])) (modMc_reg _ _ _)

/-- One more attempt begun. -/
def ipdTried (n : Nat) (s : State) : State := modMc n (fun u => { u with tries := u.tries + 1 }) s

theorem ipdDone_again (hst : mcState s n = Mcs.ipd) (h : contrastOk s n (pulseTimes s n a) = false)
    (ht : (mcU s n).tries < mcIn s n (MC_START_RETRY n)) : mcIpdDone n [a] s = testTrain n (ipdTried n s) := by
  unfold mcIpdDone ipdAttempts
  rw [if_neg (by simp [hst])]
  dsimp only
  rw [if_neg (by simp [h]), if_pos ht]
  rfl

theorem ipdDone_fails (hst : mcState s n = Mcs.ipd) (h : contrastOk s n (pulseTimes s n a) = false)
    (ht : mcIn s n (MC_START_RETRY n) ≤ (mcU s n).tries) : mcIpdDone n (a :: ts) s = mcFault 3 n s := by
  unfold mcIpdDone ipdAttempts
  rw [if_neg (by simp [hst])]
  dsimp only
  rw [if_neg (by simp [h]), if_neg (Nat.not_lt.mpr ht)]

theorem ipdTried_vectors : vectors (ipdTried n s) n = vectors s n := by
  have hu : mcU (ipdTried n s) n = { mcU s n with tries := (mcU s n).tries + 1 } := mcU_modMc _ _ _
  exact vectors_congr Iff.rfl (by rw [hu]) (fun _ _ => rfl) rfl

theorem mcDriverFault_eq {low : Bool} (hn : n.val < s.part.foc) (hm : s.mapped 0x10 n 6 = true) : mcDriverFault n low s =
    if low = true ∧ mcState s n ≠ Mcs.fault then mcFault 1 n (modMc n (fun u => { u with drvLow := low }) s)
    else modMc n (fun u => { u with drvLow := low }) s := by
  unfold mcDriverFault
  rw [if_neg (by simp [hm]; omega)]

end

/-- Settles O51: each way a channel starts, and a period by the state it finds. -/
theorem motorRunning : Obligations.MotorRunning := by
  intro s n x emf hz a ts th hd
  have hfaulted (cause : Nat) (hc : cause < 16) : mcState (mcFault cause n s) n = Mcs.fault ∧
      (mcFault cause n s).g (MC_STAT_CAUSE n) = cause ∧ (mcU (mcFault cause n s) n).duty = none ∧
      Out.event (.mcFault n) ∈ shown s (mcFault cause n s) :=
    have h := mcFault_faulted (s := s) (n := n) hc
    ⟨h.state, h.shows, by rw [h.unit], h.event⟩
  refine ⟨?_, ?_, ?_, ?_, ?_, ?_, ?_, ?_, ?_, ?_, ?_, ?_, ?_, ?_, ?_, ?_, ?_, ?_, ?_, ?_⟩
  · intro hst hemf hfast
    obtain ⟨hrun, hspeed, hu, hout, honly⟩ := mcCatch_spec (s := s) (n := n) (sext 16 hz.toNat) th
    refine Does.of_live rfl hd ?_
    unfold mcSenseDone
    rw [if_neg (by simp [hst])]
    dsimp only
    rw [if_pos ⟨hemf, hfast⟩]
    exact ⟨hrun, hspeed, by rw [hu], hout, honly⟩
  · intro hst hstill
    have hslow : ¬ (emf = true ∧ (mcIn s n (MC_FREQ_F_CATCH n) : Int) ≤ sext 16 hz.toNat) := by
      rintro ⟨he, hf⟩
      rcases hstill with h | ⟨h1, h2⟩
      · exact absurd (h.symm.trans he) (by decide)
      · omega
    refine Does.of_live rfl hd ?_
    unfold mcSenseDone
    rw [if_neg (by simp [hst])]
    dsimp only
    rw [if_neg hslow, if_pos (by rcases hstill with h | h <;> simp [h])]
    exact enterIpd_spec (by rw [hst]; decide)
  · intro hst hemf hslow hturns
    refine Does.of_live rfl hd ?_
    unfold mcSenseDone
    rw [if_neg (by simp [hst])]
    dsimp only
    rw [if_neg (by omega), if_neg (by rw [hemf]; simpa using hturns), mcU_modMc, mcState_modMc, modMc_out, mcState_p _ _ (by decide)]
    exact ⟨rfl, rfl, State.p_out _ _ _,
      OnlyRegs.of_reg ((onlyRegs_refl _ s).p (MC_STAT_STATE n) Mcs.brake (by simp [MC_STAT_STATE])) (modMc_reg _ _ _)⟩
  · intro hst
    refine Does.of_live rfl hd ?_
    rw [if_pos hst]
    exact enterIpd_spec (by rw [hst]; decide)
  · intro hst hc
    refine Does.of_live rfl hd ?_
    rw [ipdDone_found hst hc]
    exact ipdFound_spec _
  · intro hst hc ht
    refine Does.of_live rfl hd ?_
    rw [ipdDone_again hst hc ht]
    refine ⟨testTrain_state.trans hst, ?_, testTrain_out.trans (by rw [ipdTried_vectors]; rfl), (mcShow_kept _).same .regs (by simp)⟩
    rw [testTrain_unit, ipdTried, mcU_modMc]
  · intro hst hc ht
    refine Does.of_live rfl hd ?_
    rw [ipdDone_fails hst hc ht]
    exact hfaulted 3 (by decide)
  · intro hst
    refine Does.of_live rfl hd ?_
    unfold mcStartTimeout
    rcases hst with h | h
    · rw [if_pos h, if_pos h]
      exact hfaulted 6 (by decide)
    · rw [if_neg (by rw [h]; decide), if_pos h, if_neg (by rw [h]; decide)]
      exact hfaulted 4 (by decide)
  · intro hst
    refine Does.of_live rfl hd ?_
    rw [if_pos hst]
    exact hfaulted 5 (by decide)
  · intro hst hfast
    obtain ⟨hrun, hspeed, hu, _, _⟩ := mcCatch_spec (s := s) (n := n) (sext 16 hz.toNat) th
    have hcount : Clear (MC_STAT_STATE n) (MC_FAULTS_REACQ n) := clear_inst rfl
    have hcount' : Clear (MC_SPEED_RPM n) (MC_FAULTS_REACQ n) := clear_inst rfl
    have hal := aside_corrected 0x10 n 5 0xFFFF (.refl ((mcCatch n (sext 16 hz.toNat) th s).inc (MC_FAULTS_REACQ n)))
    have hasp : Aside (MC_SPEED_RPM n).off := by
      unfold Aside MC_SPEED_RPM MC_SPEED
      dsimp only
      omega
    have hmot : mcU (corrected 0x10 n 5 0xFFFF ((mcCatch n (sext 16 hz.toNat) th s).inc (MC_FAULTS_REACQ n))) n =
        mcU (mcCatch n (sext 16 hz.toNat) th s) n := mcU_of_mot ((corrected_mot _ _ _ _ _).trans (State.inc_mot _ _)) n
    refine Does.of_live rfl hd ?_
    unfold mcReacqWindow
    dsimp only
    rw [if_pos ⟨hst, hfast⟩, hmot, hu]
    exact ⟨(hal.g (motor_aside n _ _)).trans ((g_inc_clear _ hcount).trans hrun),
      (gi_of_g (hal.g hasp)).trans ((gi_of_g (g_inc_clear _ hcount')).trans hspeed), rfl, rfl⟩
  · intro hst hslow
    refine Does.of_live rfl hd ?_
    unfold mcReacqWindow
    dsimp only
    rw [if_neg (by omega)]
  · intro hn hm hst
    have h := mcFault_faulted (s := modMc n (fun u => { u with drvLow := true }) s) (n := n) (cause := 1) (by decide)
    have hu := h.unit
    rw [mcU_modMc] at hu
    refine Does.of_live rfl hd ?_
    rw [mcDriverFault_eq hn hm, if_pos ⟨rfl, hst⟩, hu]
    exact ⟨h.state, h.shows, rfl, h.event, rfl⟩
  · intro hn hm
    refine Does.of_live rfl hd ?_
    rw [mcDriverFault_eq hn hm, if_neg (by simp), mcU_modMc]
    exact ⟨rfl, rfl, rfl⟩
  · intro hu hv hw hst
    have hrun : mcState s n ≠ Mcs.off ∧ mcState s n ≠ Mcs.fault ∧ mcState s n ≠ Mcs.open_ := by
      unfold Mcs.sense Mcs.brake Mcs.ipd Mcs.reacq Mcs.off Mcs.fault Mcs.open_ at *
      omega
    obtain ⟨p, hp, he⟩ := mcPeriod_within hrun.1 hrun.2.1 (periodBig_within hu hv hw)
    obtain ⟨hreg, hth, hover⟩ := statePeriod_starting (s := p) (n := n) (x := x) (by rwa [hp.state])
    obtain ⟨hspeed, hid, hiq, honly⟩ := hp.shows (onlyStat_of_reg hreg)
    obtain ⟨b, c, hunit⟩ := hp.unit
    rw [shownAngle_closed hrun.2.2] at hid hiq
    rw [hunit] at hth hover
    refine Does.of_live rfl hd ?_
    rw [he]
    exact ⟨(g_of_reg hreg).trans hp.state, hspeed, hth, hover, hid, hiq, honly⟩
  · intro hu hv hw hst hres hslow
    obtain ⟨p, hp, he⟩ := mcPeriod_within (by rw [hst]; decide) (by rw [hst]; decide) (periodBig_within hu hv hw)
    obtain ⟨⟨b, c, d, hun⟩, hout, hreg⟩ := statePeriod_run (s := p) (n := n) (x := x) (hp.state.trans hst) (by rwa [hp.resLimit])
      (by rw [hp.slower, hslow])
    obtain ⟨hspeed, _, _, honly⟩ := hp.shows (onlyStat_of_reg hreg)
    obtain ⟨b', c', hunit⟩ := hp.unit
    rw [hunit] at hun
    refine Does.of_live rfl hd ?_
    rw [he, hun]
    exact ⟨(g_of_reg hreg).trans (hp.state.trans hst), hspeed, rfl, rfl, hout.trans hp.dutyOuts, honly⟩
  · intro hu hv hw hst hslow
    obtain ⟨p, hp, he⟩ := mcPeriod_within (by rw [hst]; decide) (by rw [hst]; decide) (periodBig_within hu hv hw)
    obtain ⟨q, hq⟩ := statePeriod_lost (s := p) (n := n) (x := x) (hp.state.trans hst) (by rw [hp.slower, hslow])
    refine Does.of_live rfl hd ?_
    rw [he, hq]
    exact observerLoss_spec
  · intro hu hv hw hst hhand
    obtain ⟨p, hp, he⟩ := mcPeriod_within (by rw [hst]; decide) (by rw [hst]; decide) (periodBig_within hu hv hw)
    obtain ⟨⟨b, c, d, hun⟩, hout, hreg⟩ := openCounted_spec (s := p) (n := n) (x := x)
    obtain ⟨hspeed, hid, hiq, honly⟩ := hp.shows (onlyStat_of_reg hreg)
    obtain ⟨b', c', hunit⟩ := hp.unit
    rw [shownAngle_open hst] at hid hiq
    rw [hunit] at hun
    refine Does.of_live rfl hd ?_
    rw [he, (statePeriod_open (hp.state.trans hst)).2 fun h => hhand (hp.handsOver.mp h), hun]
    exact ⟨(g_of_reg hreg).trans (hp.state.trans hst), rfl, hspeed, rfl, rfl, hid, hiq, hout.trans hp.dutyOuts, honly⟩
  · intro hu hv hw hst hfast hlock
    obtain ⟨p, hp, he⟩ := mcPeriod_within (by rw [hst]; decide) (by rw [hst]; decide) (periodBig_within hu hv hw)
    obtain ⟨⟨b, c, d, hun⟩, hout, hreg⟩ := openCounted_spec (s := p) (n := n) (x := x)
    obtain ⟨hrun, hbad, hth, hout', honly'⟩ := openHanded_spec (s := openCounted n x p) (n := n)
    obtain ⟨hspeed, _, _, honly⟩ := hp.shows ((onlyStat_of_reg hreg).trans honly')
    obtain ⟨b', c', hunit⟩ := hp.unit
    rw [hunit] at hun
    rw [hun] at hth
    refine Does.of_live rfl hd ?_
    rw [he, (statePeriod_open (hp.state.trans hst)).1 (hp.handsOver.mpr ⟨hfast, hlock⟩)]
    exact ⟨hrun, hspeed, hth, hbad, hout'.trans (hout.trans hp.dutyOuts), honly⟩
  · intro hu hv hw hst hshort hslow
    obtain ⟨p, hp, he⟩ := mcPeriod_within (by rw [hst]; decide) (by rw [hst]; decide) (periodBig_within hu hv hw)
    obtain ⟨b', c', hunit⟩ := hp.unit
    obtain ⟨hstate, hsh, hdu, hout, honly'⟩ := statePeriod_short (s := p) (n := n) (x := x) (hp.state.trans hst)
      (by rw [hunit]; exact hshort) (by rw [hp.slower, hslow])
    obtain ⟨_, hid, hiq, honly⟩ := hp.shows honly'
    rw [shownAngle_closed (by rw [hst]; decide)] at hid hiq
    refine Does.of_live rfl hd ?_
    rw [he]
    exact ⟨hstate, hsh, hdu, hid, hiq, hout.trans hp.dutyOuts, honly⟩
  · intro hbig hoff hf
    have hp := presented_spec (s := s) (n := n) (x := x) true
    have h := mcFault_faulted (s := presented n x true s) (n := n) (cause := 2) (by decide)
    obtain ⟨b, c, hunit⟩ := hp.unit
    have hu := h.unit
    have hev := h.event
    rw [hunit] at hu
    unfold shown at hev
    rw [hp.out] at hev
    refine Does.of_live rfl hd ?_
    rw [mcPeriod_beyond hoff hf (periodBig_iff.mpr hbig), hu]
    exact ⟨h.state, h.shows, rfl, hev, rfl⟩

end Sys2Proof.Machine
end

section
/-!
PROOFS. Training of the Amonone link (spec/08_amonone_link.md R185-R187, R197, R202, R203): a link's part of the state, the
packets it sends, and each way an attempt begins, goes on and ends.
-/

namespace Sys2Proof.Machine

open Reg

set_option Elab.async false

/-- A command of a station that the part has, in a running block. -/
theorem Does.of_stnLive {c : Instr} {s : State} {P : State → Prop} {n : Nat} {f : State → State}
    (e : exec c s = .next (stnLive n f s)) (hd : s.dead = false) (hn : n < s.part.stations) (h : P (f s)) : Does c s P :=
  ⟨f s, e.trans (congrArg _ ((if_pos hn).trans (live_of hd))), h⟩

/-! ## A link's part of the state -/

section
variable {s t : State} {n : Nat}

theorem linkU_modStn (f : Stn → Stn) : linkU (s.modStn n f) n = (f (s.stnU n)).link :=
  congrArg Stn.link (bankGet_put_self _ _ _ _)

@[simp] theorem linkU_modLink (f : LinkU → LinkU) : linkU (modLink n f s) n = f (linkU s n) := linkU_modStn _

@[simp] theorem modLink_reg (f : LinkU → LinkU) (off : Nat) : (modLink n f s).reg off = s.reg off := rfl
@[simp] theorem modLink_g (f : LinkU → LinkU) (k : Fld) : (modLink n f s).g k = s.g k := rfl
@[simp] theorem modLink_on (f : LinkU → LinkU) (k : Fld) : (modLink n f s).on k = s.on k := rfl
@[simp] theorem modLink_state (f : LinkU → LinkU) (m : Nat) : linkState (modLink n f s) m = linkState s m := rfl
@[simp] theorem modLink_out (f : LinkU → LinkU) : (modLink n f s).out = s.out := rfl
@[simp] theorem modLink_ctx (f : LinkU → LinkU) : (modLink n f s).ctx = s.ctx := rfl

theorem stnU_of_stn (h : t.stn = s.stn) (m : Nat) : t.stnU m = s.stnU m := by
  unfold State.stnU
  rw [h]

theorem linkU_of_stn (h : t.stn = s.stn) (m : Nat) : linkU t m = linkU s m := congrArg Stn.link (stnU_of_stn h m)

/-- What a link's training leaves: which registers, and the contexts and what was shown. -/
structure Quiet (l : List Nat) (s t : State) : Prop where
  only : OnlyRegs l s t
  ctx : t.ctx = s.ctx
  out : t.out = s.out

namespace Quiet

variable {l : List Nat}

theorem refl (l : List Nat) (s : State) : Quiet l s s := ⟨onlyRegs_refl _ _, rfl, rfl⟩

theorem p (h : Quiet l s t) {f : Fld} (v : Nat) (hf : f.off ∈ l) : Quiet l s (t.p f v) :=
  ⟨h.only.p _ _ hf, (State.p_ctx _ _ _).trans h.ctx, (State.p_out _ _ _).trans h.out⟩

theorem pb (h : Quiet l s t) {f : Fld} (v : Bool) (hf : f.off ∈ l) : Quiet l s (t.pb f v) := h.p _ hf

theorem modLink (h : Quiet l s t) (f : LinkU → LinkU) : Quiet l s (modLink n f t) :=
  ⟨h.only.of_reg (modLink_reg f), h.ctx, h.out⟩

theorem mono {k : List Nat} (h : Quiet l s t) (hk : ∀ x ∈ l, x ∈ k) : Quiet k s t :=
  ⟨fun off ho => h.only off fun hx => ho (hk _ hx), h.ctx, h.out⟩

end Quiet

/-- The registers of a link's flags. -/
def flagRegs (n : Nat) : List Nat := [STN_LSTAT n, STN_GEOM n]

theorem Quiet.linkOkSync (h : Quiet (flagRegs n) s t) : Quiet (flagRegs n) s (linkOkSync n t) := by
  unfold Sys2Proof.Machine.linkOkSync
  exact ((h.pb _ (by simp [flagRegs, STN_GEOM_GEOM_OK])).pb _ (by simp [flagRegs, STN_LSTAT_BUF_OK])).pb _
    (by simp [flagRegs, STN_LSTAT_RATE_OK])

theorem linkOkSync_stn : (linkOkSync n s).stn = s.stn := by
  unfold linkOkSync
  rw [State.pb_stn, State.pb_stn, State.pb_stn]

theorem linkOkSync_link : linkU (linkOkSync n s) n = linkU s n := linkU_of_stn linkOkSync_stn n

/-- The flags leave other fields alone. -/
theorem linkOkSync_g {f : Fld} (h1 : Clear f (STN_GEOM_GEOM_OK n)) (h2 : Clear f (STN_LSTAT_BUF_OK n))
    (h3 : Clear f (STN_LSTAT_RATE_OK n)) : (linkOkSync n s).g f = s.g f := by
  unfold linkOkSync
  dsimp only
  rw [g_pb_clear _ _ h3, g_pb_clear _ _ h2, g_pb_clear _ _ h1]

theorem linkOkSync_state : linkState (linkOkSync n s) n = linkState s n :=
  linkOkSync_g (clear_inst rfl) (clear_inst rfl) (clear_inst rfl)

theorem linkOkSync_cause : (linkOkSync n s).g (STN_LSTAT_CAUSE n) = s.g (STN_LSTAT_CAUSE n) :=
  linkOkSync_g (clear_inst rfl) (clear_inst rfl) (clear_inst rfl)

theorem linkState_p {v : Nat} (h : v < 8) : linkState (s.p (STN_LSTAT_STATE n) v) n = v :=
  (g_p_self _ _ _ (show 0 + 3 ≤ 32 by decide)).trans (Nat.mod_eq_of_lt h)

theorem linkCause_p {v : Nat} (h : v < 16) : (s.p (STN_LSTAT_CAUSE n) v).g (STN_LSTAT_CAUSE n) = v :=
  (g_p_self _ _ _ (show 12 + 4 ≤ 32 by decide)).trans (Nat.mod_eq_of_lt h)

/-! ## DARK, and training begun or ended -/

/-- A link on whose lanes no block runs. -/
def lanesIdle (s : State) (n : Nat) : Prop := linkState s n ≠ Lk.caps ∧ linkState s n ≠ Lk.load ∧ linkState s n ≠ Lk.up

/-- DARK sent where blocks run. -/
def darkShown (n reason : Nat) (s : State) : State :=
  if linkState s n = Lk.caps ∨ linkState s n = Lk.load ∨ linkState s n = Lk.up then s.emit (.dark n reason) else s

theorem darkShown_kept (reason : Nat) : Kept (· ≠ .out) s (darkShown n reason s) := by
  unfold darkShown
  split
  · exact kept_State_emit (by simp) _ (.refl s)
  · exact .refl s

theorem sendDark_eq (reason : Nat) : sendDark n reason s =
    ((darkShown n reason s).modStn n fun v => { v with link := { v.link with waiting := v.link.waiting.filter fun c => c.ty != 0x14 } }).pb
      (STN_LSTAT_LIT n) false := rfl

theorem sendDark_kept (reason : Nat) : Kept (fun p => p ≠ .regs ∧ p ≠ .out ∧ p ≠ .stn) s (sendDark n reason s) :=
  kept_sendDark (by simp) (by simp) (by simp) n reason (.refl s)

theorem darkShown_g (reason : Nat) (f : Fld) : (darkShown n reason s).g f = s.g f :=
  g_eq_of_regs f ⟨(darkShown_kept reason).part, (darkShown_kept reason).rev, (darkShown_kept reason).same .regs (by simp)⟩

theorem sendDark_g {f : Fld} (reason : Nat) (h : Clear f (STN_LSTAT_LIT n)) : (sendDark n reason s).g f = s.g f := by
  rw [sendDark_eq, g_pb_clear _ _ h]
  exact darkShown_g reason f

theorem sendDark_link (reason : Nat) : ∃ w, linkU (sendDark n reason s) n = { linkU s n with waiting := w } := by
  have hstn : (darkShown n reason s).stn = s.stn := (darkShown_kept reason).same .stn (by simp)
  rw [sendDark_eq, linkU_of_stn (State.pb_stn _ _ _), linkU_modStn, stnU_of_stn hstn]
  exact ⟨_, rfl⟩

theorem quiet_modStn {l : List Nat} (f : Stn → Stn) : Quiet l s (s.modStn n f) := ⟨fun _ _ => rfl, rfl, rfl⟩

theorem sendDark_quiet (reason : Nat) (h : lanesIdle s n) : Quiet (flagRegs n) s (sendDark n reason s) := by
  have hshown : darkShown n reason s = s := if_neg fun hx => hx.elim h.1 fun hx => hx.elim h.2.1 h.2.2
  rw [sendDark_eq, hshown]
  exact Quiet.pb (quiet_modStn _) _ (by simp [flagRegs, STN_LSTAT_LIT])

/-- What training forgets as it begins. -/
def forgotten (l : LinkU) : LinkU :=
  { l with step := 1, agreed := false, version := 0, waiting := [], bankGen := [none, none], loading := none,
           noRetry := false, recent := [], unrep := 0, unreported := [], missed := [], lastSweep := none, sending := [] }

/-- Training begun, the flags not yet computed. -/
def linkBegun (n : Nat) (s : State) : State :=
  (modLink n forgotten ((sendDark n 2 s).p (STN_LSTAT_STATE n) Lk.prbs)).p (STN_LSTAT_VERSION n) 0

theorem linkStart_eq : linkStart n s = linkOkSync n (linkBegun n s) := rfl

theorem linkBegun_ctx : (linkBegun n s).ctx = s.ctx := by
  unfold linkBegun
  rw [State.p_ctx, modLink_ctx, State.p_ctx]
  exact (sendDark_kept 2).same .ctx (by simp)

theorem linkStart_link : (linkU (linkStart n s) n).step = 1 ∧ (linkU (linkStart n s) n).version = 0 := by
  have h : linkU (linkStart n s) n = forgotten (linkU ((sendDark n 2 s).p (STN_LSTAT_STATE n) Lk.prbs) n) := by
    rw [linkStart_eq, linkOkSync_link, linkBegun, linkU_of_stn (State.p_stn _ _ _), linkU_modLink]
  rw [h]
  exact ⟨rfl, rfl⟩

theorem linkStart_state : linkState (linkStart n s) n = Lk.prbs := by
  have h : Clear (STN_LSTAT_STATE n) (STN_LSTAT_VERSION n) := clear_inst rfl
  rw [linkStart_eq, linkOkSync_state, linkBegun, linkState, g_p_clear _ _ h, modLink_g]
  exact linkState_p (by decide)

theorem linkStart_ctx : (linkStart n s).ctx = s.ctx := by
  have h : (linkOkSync n (linkBegun n s)).ctx = (linkBegun n s).ctx :=
    (kept_linkOkSync (K := (· = .ctx)) (by decide) n (.refl (linkBegun n s))).same .ctx rfl
  rw [linkStart_eq, h, linkBegun_ctx]

/-- A field that the beginning of training leaves alone. -/
structure Untrained (n : Nat) (f : Fld) : Prop where
  version : Clear f (STN_LSTAT_VERSION n)
  state : Clear f (STN_LSTAT_STATE n)
  lit : Clear f (STN_LSTAT_LIT n)
  bufOk : Clear f (STN_LSTAT_BUF_OK n)
  rateOk : Clear f (STN_LSTAT_RATE_OK n)
  geomOk : Clear f (STN_GEOM_GEOM_OK n)

theorem linkStart_g {f : Fld} (h : Untrained n f) : (linkStart n s).g f = s.g f := by
  rw [linkStart_eq, linkOkSync_g h.geomOk h.bufOk h.rateOk, linkBegun, g_p_clear _ _ h.version, modLink_g,
    g_p_clear _ _ h.state, sendDark_g _ h.lit]

theorem linkStart_out (h : lanesIdle s n) : (linkStart n s).out = s.out := by
  have hq := (sendDark_quiet 2 h).out
  rw [linkStart_eq, (kept_linkOkSync (K := (· = .out)) (by decide) n (.refl (linkBegun n s))).same .out rfl, linkBegun,
    State.p_out, modLink_out, State.p_out, hq]

/-- Training begins anew, whatever the state. -/
theorem linkStart_spec (h : lanesIdle s n) : linkState (linkStart n s) n = Lk.prbs ∧ (linkU (linkStart n s) n).step = 1 ∧
    (linkU (linkStart n s) n).version = 0 ∧ (linkStart n s).ctx = s.ctx ∧ (linkStart n s).out = s.out :=
  ⟨linkStart_state, linkStart_link.1, linkStart_link.2, linkStart_ctx, linkStart_out h⟩

/-- What is left of an attempt that ends with a cause. -/
def attemptEnded (cause : Nat) (l : LinkU) : LinkU :=
  { l with step := 0, version := 0, waiting := [], fails := l.fails + 1, noRetry := cause == 2 }

theorem linkFail_eq (cause : Nat) : linkFail n cause s = linkOkSync n (modLink n (attemptEnded cause)
    ((s.p (STN_LSTAT_CAUSE n) cause).p (STN_LSTAT_STATE n) (if cause = 2 then Lk.down else Lk.wait))) := rfl

theorem linkFail_spec {cause : Nat} (hc : cause < 16) :
    linkState (linkFail n cause s) n = (if cause = 2 then Lk.down else Lk.wait) ∧ (linkFail n cause s).g (STN_LSTAT_CAUSE n) = cause ∧
      linkU (linkFail n cause s) n = attemptEnded cause (linkU s n) ∧ Quiet (flagRegs n) s (linkFail n cause s) := by
  have h : Clear (STN_LSTAT_CAUSE n) (STN_LSTAT_STATE n) := clear_inst rfl
  rw [linkFail_eq]
  refine ⟨?_, ?_, ?_, ?_⟩
  · rw [linkOkSync_state, modLink_state]
    exact linkState_p (by split <;> decide)
  · rw [linkOkSync_cause, modLink_g, g_p_clear _ _ h]
    exact linkCause_p hc
  · rw [linkOkSync_link, linkU_modLink, linkU_of_stn (State.p_stn _ _ _), linkU_of_stn (State.p_stn _ _ _)]
  · exact ((((Quiet.refl (flagRegs n) s).p _ (by simp [flagRegs, STN_LSTAT_CAUSE])).p _
      (by simp [flagRegs, STN_LSTAT_STATE])).modLink _).linkOkSync

end

/-! ## A link loss (R202) -/

section
variable {s t : State} {n : Fin 8} {cause : Nat}

theorem stat_linkUnspoiled (n : Fin 8) (lo w : Nat) : FieldUnspoiled ⟨STN_LSTAT n, lo, w⟩ := by
  have hn := n.isLt
  unfold FieldUnspoiled Unspoiled STN_LSTAT
  dsimp only
  omega

theorem err_linkUnspoiled (n : Fin 8) (lo w : Nat) : FieldUnspoiled ⟨STN_LERR n, lo, w⟩ := by
  have hn := n.isLt
  unfold FieldUnspoiled Unspoiled STN_LERR
  dsimp only
  omega

theorem station_aside {off : Nat} (h : 0x1000000 ≤ off) : Aside off := by
  unfold Aside
  omega

/-- The record of a link loss. -/
def lossRecord (cause n : Nat) (s : State) : ErrIn :=
  { sev := 1, cls := 1, inst := n, code := 2, cell := cause, spoiled := spoiledBy Cause.linkLoss n s }

/-- A link loss shown, its sheet not yet spoiled. -/
def lossShown (cause n : Nat) (s : State) : State :=
  raise (lossRecord cause n s) (((s.p (STN_LSTAT_CAUSE n) cause).pb (STN_LERR_LOSS n) true).inc (STN_LCOUNT_LOSSES n))

theorem linkLoss_up (h : linkState s n = Lk.up) : linkLoss n cause s =
    linkStart n (modLink n (fun l => { l with fails := 0 }) (spoilAt Cause.linkLoss n (lossShown cause n s))) := by
  unfold linkLoss
  rw [if_neg (by simp [h])]
  rfl

theorem lossShown_alike : Alike Aside (((s.p (STN_LSTAT_CAUSE n) cause).pb (STN_LERR_LOSS n) true).inc (STN_LCOUNT_LOSSES n))
    (lossShown cause n s) := aside_raise (.refl _) (show classRegion 1 < 7 by decide) (show 1 < 2 by decide)

/-- A link loss retrains the link with its cause. -/
theorem linkLoss_spec (h : linkState s n = Lk.up) (hc : cause < 16) : linkState (linkLoss n cause s) n = Lk.prbs ∧
    (linkLoss n cause s).g (STN_LSTAT_CAUSE n) = cause ∧ (linkLoss n cause s).on (STN_LERR_LOSS n) = true ∧
    (linkU (linkLoss n cause s) n).step = 1 ∧ (linkU (linkLoss n cause s) n).version = 0 := by
  have h1 : Clear (STN_LSTAT_CAUSE n) (STN_LERR_LOSS n) := clear_inst rfl
  have h2 : Clear (STN_LSTAT_CAUSE n) (STN_LCOUNT_LOSSES n) := clear_inst rfl
  have h3 : Clear (STN_LERR_LOSS n) (STN_LCOUNT_LOSSES n) := clear_inst rfl
  have hle : 0x1000000 ≤ STN_LSTAT n ∧ 0x1000000 ≤ STN_LERR n := by
    unfold STN_LSTAT STN_LERR
    omega
  have hcause : Untrained n (STN_LSTAT_CAUSE n) :=
    ⟨clear_inst rfl, clear_inst rfl, clear_inst rfl, clear_inst rfl, clear_inst rfl, clear_inst rfl⟩
  have hloss : Untrained n (STN_LERR_LOSS n) :=
    ⟨clear_inst rfl, clear_inst rfl, clear_inst rfl, clear_inst rfl, clear_inst rfl, clear_inst rfl⟩
  rw [linkLoss_up h]
  refine ⟨linkStart_state, ?_, ?_, linkStart_link.1, linkStart_link.2⟩
  · rw [linkStart_g hcause, modLink_g, spoilAt_g (f := STN_LSTAT_CAUSE n) _ _ (stat_linkUnspoiled n _ _),
      lossShown_alike.g (f := STN_LSTAT_CAUSE n) (station_aside hle.1), g_inc_clear _ h2, g_pb_clear _ _ h1]
    exact linkCause_p hc
  · refine (on_eq_of_g ?_).trans (on_pb_same (s.p (STN_LSTAT_CAUSE n) cause) true rfl)
    rw [linkStart_g hloss, modLink_g, spoilAt_g (f := STN_LERR_LOSS n) _ _ (err_linkUnspoiled n _ _),
      lossShown_alike.g (f := STN_LERR_LOSS n) (station_aside hle.2), g_inc_clear _ h3]

end

/-! ## Packets sent (R183, R191, R195) -/

section
variable {s t u : State} {n : Nat}

/-- Packets have been sent: the link's SEQ, the sweep being sent and what awaits an acknowledgement have moved on. -/
structure Sends (n : Nat) (s t : State) : Prop where
  link : ∃ q ps w, linkU t n = { linkU s n with seq := q, sending := ps, waiting := w }
  kept : Kept (fun p => p ≠ .out ∧ p ≠ .stn) s t

namespace Sends

theorem trans (h : Sends n s t) (k : Sends n t u) : Sends n s u := by
  obtain ⟨q, ps, w, hl⟩ := k.link
  obtain ⟨q', ps', w', hl'⟩ := h.link
  exact ⟨⟨q, ps, w, by rw [hl, hl']⟩, h.kept.trans k.kept⟩

theorem refl (s : State) : Sends n s s := ⟨⟨_, _, _, rfl⟩, .refl s⟩

theorem reg (h : Sends n s t) (off : Nat) : t.reg off = s.reg off :=
  reg_congr h.kept.part h.kept.rev (h.kept.same .regs (by simp)) off

theorem g (h : Sends n s t) (f : Fld) : t.g f = s.g f :=
  g_eq_of_regs f ⟨h.kept.part, h.kept.rev, h.kept.same .regs (by simp)⟩

theorem step (h : Sends n s t) : (linkU t n).step = (linkU s n).step := by
  obtain ⟨q, ps, w, hl⟩ := h.link
  rw [hl]

theorem version (h : Sends n s t) : (linkU t n).version = (linkU s n).version := by
  obtain ⟨q, ps, w, hl⟩ := h.link
  rw [hl]

theorem bankGen (h : Sends n s t) : (linkU t n).bankGen = (linkU s n).bankGen := by
  obtain ⟨q, ps, w, hl⟩ := h.link
  rw [hl]

end Sends

theorem rawPacket_link (ty flags b67 : Nat) (body : List Byte) : linkU (rawPacket n ty flags b67 body s) n =
    { linkU s n with seq := ((linkU s n).seq + 1) % 65536 } := congrArg Stn.link (bankGet_put_self _ _ _ _)

theorem rawPacket_out (ty flags b67 : Nat) (body : List Byte) : (rawPacket n ty flags b67 body s).out =
    s.out ++ [.packet n (packetBytes (linkU s n) ty flags b67 body)] := rfl

theorem sends_rawPacket (ty flags b67 : Nat) (body : List Byte) : Sends n s (rawPacket n ty flags b67 body s) :=
  ⟨⟨_, _, _, rawPacket_link _ _ _ _⟩, kept_rawPacket (by simp) (by simp) n ty flags b67 body (.refl s)⟩

theorem sends_sendData (ps : List DataPkt) : Sends n s (sendData n ps s) := by
  induction ps generalizing s with
  | nil => exact .refl s
  | cons p r ih => exact (sends_rawPacket _ _ _ _).trans ih

theorem setSending_link (ps : List DataPkt) : linkU (setSending n ps s) n = { linkU s n with sending := ps } := linkU_modStn _

theorem sends_setSending (ps : List DataPkt) : Sends n s (setSending n ps s) :=
  ⟨⟨_, _, _, setSending_link ps⟩, kept_State_modStn (K := fun p => p ≠ .out ∧ p ≠ .stn) (by simp) _ _ (.refl s)⟩

theorem sends_flushSweep : Sends n s (flushSweep n s) := (sends_setSending []).trans (sends_sendData _)

theorem sends_awaits (l : List Ctl) :
    Sends n s (s.modStn n fun v => { v with link := { v.link with waiting := v.link.waiting ++ l } }) :=
  ⟨⟨_, _, _, linkU_modStn _⟩, kept_State_modStn (K := fun p => p ≠ .out ∧ p ≠ .stn) (by simp) n
    (fun v => { v with link := { v.link with waiting := v.link.waiting ++ l } }) (.refl s)⟩

theorem sends_sendControl (ty b67 : Nat) (body : List Byte) : Sends n s (sendControl n ty b67 body s) := by
  unfold sendControl
  exact (sends_flushSweep.trans (sends_rawPacket ty 0 b67 body)).trans (sends_awaits _)

theorem sends_sendBank (bank : Nat) (g : Gen) : Sends n s (sendBank n bank g s) :=
  (sends_sendControl _ _ _).trans (sends_sendControl _ _ _)

/-- With no sweep being sent, nothing is flushed. -/
theorem flushSweep_idle (h : (linkU s n).sending = []) : (flushSweep n s).out = s.out ∧ linkU (flushSweep n s) n = linkU s n ∧
    (flushSweep n s).regs = s.regs := by
  have hf : flushSweep n s = setSending n [] s := by
    unfold flushSweep
    rw [show (s.stnU n).link.sending = [] from h]
    rfl
  have hl : linkU (setSending n [] s) n = linkU s n := by
    rw [setSending_link, ← h]
  rw [hf]
  exact ⟨rfl, hl, rfl⟩

/-- A packet sent with no sweep being sent. -/
theorem sendPacket_idle (ty flags b67 : Nat) (body : List Byte) (h : (linkU s n).sending = []) :
    (sendPacket n ty flags b67 body s).out = s.out ++ [.packet n (packetBytes (linkU s n) ty flags b67 body)] ∧
      linkU (sendPacket n ty flags b67 body s) n = { linkU s n with seq := ((linkU s n).seq + 1) % 65536 } ∧
      (sendPacket n ty flags b67 body s).regs = s.regs := by
  obtain ⟨hout, hl, hregs⟩ := flushSweep_idle h
  unfold sendPacket
  refine ⟨?_, ?_, ?_⟩
  · rw [rawPacket_out, hout, hl]
  · rw [rawPacket_link, hl]
  · have hraw := sends_rawPacket (s := flushSweep n s) (n := n) ty flags b67 body
    exact Eq.trans (hraw.kept.same .regs (by simp)) hregs

end

/-! ## Block lock, CAPS -/

section
variable {s : State} {n : Nat}

/-- LOAD begun, its banks not yet sent. -/
def banksBegun (n : Nat) (g : Gen) (s : State) : State :=
  modLink n (fun l => { l with step := 5, bankGen := [some g.id, some g.id] }) (s.p (STN_LSTAT_STATE n) Lk.load)

theorem linkLoad_sends : Sends n (banksBegun n (loadGen s n) s) (linkLoad n s) := by
  unfold linkLoad
  dsimp only
  split
  · exact ((sends_sendBank 0 _).trans (sends_sendBank 1 _)).trans (sends_sendControl _ _ _)
  · exact (sends_sendBank 0 _).trans (sends_sendBank 1 _)

theorem linkLoad_spec : linkState (linkLoad n s) n = Lk.load ∧ (linkU (linkLoad n s) n).step = 5 ∧
    (linkU (linkLoad n s) n).bankGen = [some (loadGen s n).id, some (loadGen s n).id] ∧ OnlyRegs [STN_LSTAT n] s (linkLoad n s) := by
  have h := linkLoad_sends (s := s) (n := n)
  have hl : linkU (banksBegun n (loadGen s n) s) n =
      { linkU s n with step := 5, bankGen := [some (loadGen s n).id, some (loadGen s n).id] } := by
    rw [banksBegun, linkU_modLink, linkU_of_stn (State.p_stn _ _ _)]
  refine ⟨(h.g _).trans ?_, ?_, ?_, ?_⟩
  · rw [banksBegun, modLink_g]
    exact linkState_p (by decide)
  · rw [h.step, hl]
  · rw [h.bankGen, hl]
  · exact (((onlyRegs_refl _ s).p (STN_LSTAT_STATE n) Lk.load (by simp [STN_LSTAT_STATE])).of_reg (modLink_reg _)).of_reg h.reg

/-- A scan unit's capabilities shown. -/
def capsShown (n : Nat) (c : Caps) (s : State) : State :=
  ((((((s.p (STN_DCAP0_DRV_MIN n) c.drvMin.toNat).p (STN_DCAP0_DRV_MAX n) c.drvMax.toNat).p (STN_DCAP1_SOS n) c.sos.toNat).pb
    (STN_DCAP1_LIV n) c.liv).p (STN_DCAP1_PITCH n) c.pitch.toNat).p (STN_DCAP1_E n) c.e.toNat).p (STN_DCAP2_BUF_BYTES n)
    c.bufBytes.toNat

/-- The registers of the scan unit's capabilities, its serial among them. -/
def CapsRegs (n : Nat) (off : Nat) : Prop := STN_DCAP0 n ≤ off ∧ off ≤ STN_DSERIAL n

theorem not_caps_below {n off : Nat} (h : off < 0x1008020 + 0x100000 * n) : ¬ CapsRegs n off := fun hc => by
  unfold CapsRegs STN_DCAP0 at hc
  omega

theorem caps_linkOkSync {a : State} (h : Alike (CapsRegs n) a s) : Alike (CapsRegs n) a (linkOkSync n s) := by
  have hg : ¬ CapsRegs n (STN_GEOM n) := not_caps_below (by unfold STN_GEOM; omega)
  have hl : ¬ CapsRegs n (STN_LSTAT n) := not_caps_below (by unfold STN_LSTAT; omega)
  unfold linkOkSync
  exact ((h.pb _ hg).pb _ hl).pb _ hl

theorem caps_genRegs {a : State} (h : Alike (CapsRegs n) a s) : Alike (CapsRegs n) a (genRegs n s) := by
  have low {off : Nat} (ho : off < 0x1002000 + 0x100000 * n) : ¬ CapsRegs n off := not_caps_below (by omega)
  have hpcfg : ¬ CapsRegs n (STN_PCFG n) := low (by unfold STN_PCFG; omega)
  have hseg : ¬ CapsRegs n (STN_SEG n) := low (by unfold STN_SEG; omega)
  have hlbcap : ¬ CapsRegs n (STN_LBCAP n) := low (by unfold STN_LBCAP; omega)
  have hgeom : ¬ CapsRegs n (STN_GEOM n) := low (by unfold STN_GEOM; omega)
  have hwin : ¬ CapsRegs n (STN_WIN n) := low (by unfold STN_WIN; omega)
  have hwinSync {t : State} (ht : Alike (CapsRegs n) a t) : Alike (CapsRegs n) a (winSync n t) := by
    unfold winSync
    refine Alike.overN (((((ht.pb _ hwin).p _ hwin).p _ hwin).p _ hwin).p _ hwin) fun e r he hr => ?_
    have hem : ¬ CapsRegs n (STN_EM n e) := low (by unfold STN_EM; omega)
    exact (hr.pb _ hem).p _ hem
  have hemSync {t : State} (ht : Alike (CapsRegs n) a t) : Alike (CapsRegs n) a (emSync n t) := by
    unfold emSync
    refine ht.overN fun e r he hr => ?_
    have hem : ¬ CapsRegs n (STN_EM n e) := low (by unfold STN_EM; omega)
    exact ((hr.p _ hem).p _ hem).p _ hem
  have hwear {t : State} (ht : Alike (CapsRegs n) a t) : Alike (CapsRegs n) a (wearSync n t) := by
    unfold wearSync
    refine ht.overN fun e r he hr => ?_
    exact (hr.p _ (low (by unfold STN_WUSED_SECONDS STN_WUSED; dsimp only; omega))).p _
      (low (by unfold STN_WREM_SECONDS STN_WREM; dsimp only; omega))
  unfold genRegs
  refine caps_linkOkSync (hwear (hemSync (hwinSync ?_)))
  refine Alike.p (Alike.p (Alike.p (Alike.p ?_ _ hgeom) _ hgeom) _ hgeom) _ hgeom
  refine Alike.p (Alike.p ?_ _ hlbcap) _ hlbcap
  refine Alike.setReg ?_ _ (low (by unfold STN_SCRSIZE; omega))
  refine Alike.p ?_ _ (low (by unfold STN_TAGLVL_TAGLVL STN_TAGLVL; dsimp only; omega))
  exact (((((((h.pb _ hpcfg).p _ hpcfg).pb _ hpcfg).p _ hpcfg).p _ hpcfg).p _ hpcfg).p _ hseg).p _ hseg

/-- A station keeps its link and the version range of its newest generation. -/
structure SameRange (n : Nat) (s t : State) : Prop where
  link : linkU t n = linkU s n
  alMin : (t.stnU n).newest.alMin = (s.stnU n).newest.alMin
  alMax : (t.stnU n).newest.alMax = (s.stnU n).newest.alMax

theorem SameRange.trans {t u : State} (h : SameRange n s t) (k : SameRange n t u) : SameRange n s u :=
  ⟨k.link.trans h.link, k.alMin.trans h.alMin, k.alMax.trans h.alMax⟩

theorem SameRange.of_stn {t : State} (h : t.stn = s.stn) : SameRange n s t :=
  ⟨linkU_of_stn h n, by rw [stnU_of_stn h], by rw [stnU_of_stn h]⟩

theorem SameRange.of_modStn (f : Stn → Stn) (h : (f (s.stnU n)).link = (s.stnU n).link ∧
    (f (s.stnU n)).newest.alMin = (s.stnU n).newest.alMin ∧ (f (s.stnU n)).newest.alMax = (s.stnU n).newest.alMax) :
    SameRange n s (s.modStn n f) := by
  have hu : (s.modStn n f).stnU n = f (s.stnU n) := bankGet_put_self _ _ _ _
  exact ⟨(linkU_modStn f).trans h.1, by rw [hu, h.2.1], by rw [hu, h.2.2]⟩

theorem wearSave_range : SameRange n s (wearSave n s) := by
  unfold wearSave
  split
  · exact .of_modStn _ ⟨rfl, rfl, rfl⟩
  · exact .of_modStn _ ⟨rfl, rfl, rfl⟩

theorem genRegs_range : SameRange n s (genRegs n s) :=
  .of_stn ((kept_genRegs (K := (· = .stn)) (by decide) n (.refl s)).same .stn rfl)

theorem corrected_range (cls inst code cell : Nat) : SameRange n s (corrected cls inst code cell s) :=
  .of_stn ((kept_corrected (K := (· = .stn)) (by decide) (by decide) (by decide) (by decide) (by decide) (by decide) (by decide)
    cls inst code cell (.refl s)).same .stn rfl)

/-- The accounts of another scan unit forgotten. -/
def serialTaken (serial : Nat) (v : Stn) : Stn :=
  { v with
    serial := serial, health := 0, wear := [], boostEnd := [], active := { v.active with emit := [] }
    newest := { v.newest with emit := [] }, held := v.held.map fun g => { g with emit := [] } }

theorem serialSeen_eq (serial : Nat) : serialSeen n serial s =
    if (s.stnU n).serial = serial then s.p (STN_DSERIAL_SERIAL n) serial
    else if (s.stnU n).serial = 0 then wearSave n ((s.p (STN_DSERIAL_SERIAL n) serial).modStn n fun v => { v with serial := serial })
    else corrected 1 n 3 0xFFFF ((wearSave n (genRegs n ((s.p (STN_DSERIAL_SERIAL n) serial).modStn n (serialTaken serial)))).pb
      (STN_ESTAT_WEAR_RESET n) true) := rfl

theorem p_range (f : Fld) (v : Nat) : SameRange n s (s.p f v) := .of_stn (State.p_stn _ _ _)

theorem serialSeen_range (serial : Nat) : SameRange n s (serialSeen n serial s) := by
  rw [serialSeen_eq]
  split
  · exact p_range _ _
  · split
    · exact ((p_range _ _).trans (.of_modStn _ ⟨rfl, rfl, rfl⟩)).trans wearSave_range
    · have htaken : SameRange n s ((s.p (STN_DSERIAL_SERIAL n) serial).modStn n (serialTaken serial)) :=
        (p_range _ _).trans (.of_modStn _ ⟨rfl, rfl, rfl⟩)
      exact (((htaken.trans genRegs_range).trans wearSave_range).trans (p_range _ _)).trans (corrected_range _ _ _ _)

theorem caps_modStn {a : State} (f : Stn → Stn) (h : Alike (CapsRegs n) a s) : Alike (CapsRegs n) a (s.modStn n f) :=
  h.of_regs ⟨rfl, rfl, rfl⟩

theorem caps_wearSave {a : State} (h : Alike (CapsRegs n) a s) : Alike (CapsRegs n) a (wearSave n s) :=
  h.of_kept (kept_wearSave (by decide) n (.refl s))

theorem caps_corrected {a : State} (cls inst code cell : Nat) (h : Alike (CapsRegs n) a s) :
    Alike (CapsRegs n) a (corrected cls inst code cell s) :=
  h.trans ((aside_corrected cls inst code cell (.refl s)).mono fun off ho => station_aside (by unfold CapsRegs STN_DCAP0 at ho; omega))

theorem serialSeen_alike (serial : Nat) : Alike (CapsRegs n) (s.p (STN_DSERIAL_SERIAL n) serial) (serialSeen n serial s) := by
  have hestat : ¬ CapsRegs n (STN_ESTAT n) := not_caps_below (by unfold STN_ESTAT; omega)
  rw [serialSeen_eq]
  split
  · exact .refl _
  · split
    · exact caps_wearSave (caps_modStn _ (.refl _))
    · exact caps_corrected _ _ _ _ ((caps_wearSave (caps_genRegs (caps_modStn _ (.refl _)))).pb _ hestat)

/-- CAPS taken, the scan unit's serial among them. -/
def capsTaken (n : Nat) (c : Caps) (s : State) : State := serialSeen n c.serial.toNat (capsShown n c s)

theorem capsShown_stn (c : Caps) : (capsShown n c s).stn = s.stn := by
  unfold capsShown
  rw [State.p_stn, State.p_stn, State.p_stn, State.pb_stn, State.p_stn, State.p_stn, State.p_stn]

theorem capsTaken_range (c : Caps) : SameRange n s (capsTaken n c s) :=
  (SameRange.of_stn (capsShown_stn c)).trans (serialSeen_range _)

theorem chooseVersion_range {t : State} (h : SameRange n s t) (lo hi : Nat) : chooseVersion t n lo hi = chooseVersion s n lo hi := by
  unfold chooseVersion devMin devMax
  rw [h.alMin, h.alMax]

/-- A later state with the same capabilities shows them. -/
theorem capsTaken_shows {c : Caps} {t : State} (h : Alike (CapsRegs n) (capsTaken n c s) t) (he : c.e.toNat ≤ 40)
    (hp : c.pitch.toNat ≤ 15) : t.g (STN_DCAP1_E n) = c.e.toNat ∧ t.g (STN_DCAP1_PITCH n) = c.pitch.toNat ∧
      t.g (STN_DSERIAL_SERIAL n) = c.serial.toNat := by
  have hall := (serialSeen_alike (s := capsShown n c s) (n := n) c.serial.toNat).trans h
  have h1 : Clear (STN_DCAP1_E n) (STN_DSERIAL_SERIAL n) := clear_inst rfl
  have h2 : Clear (STN_DCAP1_E n) (STN_DCAP2_BUF_BYTES n) := clear_inst rfl
  have h3 : Clear (STN_DCAP1_PITCH n) (STN_DSERIAL_SERIAL n) := clear_inst rfl
  have h4 : Clear (STN_DCAP1_PITCH n) (STN_DCAP2_BUF_BYTES n) := clear_inst rfl
  have h5 : Clear (STN_DCAP1_PITCH n) (STN_DCAP1_E n) := clear_inst rfl
  have hc1 : CapsRegs n (STN_DCAP1 n) := by
    unfold CapsRegs STN_DCAP0 STN_DCAP1 STN_DSERIAL
    omega
  have hc2 : CapsRegs n (STN_DSERIAL n) := by
    unfold CapsRegs STN_DCAP0 STN_DSERIAL
    omega
  refine ⟨?_, ?_, ?_⟩
  · rw [hall.g (f := STN_DCAP1_E n) hc1, g_p_clear _ _ h1, capsShown, g_p_clear _ _ h2]
    exact (g_p_self _ _ _ (show 0 + 6 ≤ 32 by decide)).trans (Nat.mod_eq_of_lt (Nat.lt_of_le_of_lt he (show 40 < 2 ^ 6 by decide)))
  · rw [hall.g (f := STN_DCAP1_PITCH n) hc1, g_p_clear _ _ h3, capsShown, g_p_clear _ _ h4, g_p_clear _ _ h5]
    exact (g_p_self _ _ _ (show 8 + 4 ≤ 32 by decide)).trans (Nat.mod_eq_of_lt (Nat.lt_of_le_of_lt hp (show 15 < 2 ^ 4 by decide)))
  · rw [hall.g (f := STN_DSERIAL_SERIAL n) hc2]
    exact (g_p_self _ _ _ (show 0 + 32 ≤ 32 by decide)).trans (Nat.mod_eq_of_lt c.serial.isLt)

/-- Sound capabilities: a version chosen, or the attempt at an end. -/
def capsSound (c : Caps) : Prop :=
  1 ≤ c.e.toNat ∧ c.e.toNat ≤ 40 ∧ 1 ≤ c.pitch.toNat ∧ c.pitch.toNat ≤ 15 ∧ c.sos.toNat ≤ 16384 ∧ c.ok = true

/-- A version agreed on, the scan unit not yet told. -/
def versionTaken (n v : Nat) (s : State) : State := linkOkSync n (modLink n (fun l => { l with version := v, step := 3 }) s)

theorem capsRx_sound {c : Caps} {v : Nat} (hs : (linkU s n).step = 2) (hc : capsSound c)
    (hv : chooseVersion s n c.drvMin.toNat c.drvMax.toNat = some v) : capsRx n c s =
      sendControl n 0x11 0 (leBytes 2 v ++ leBytes 6 0) (versionTaken n v (capsTaken n c s)) := by
  obtain ⟨h1, h2, h3, h4, h5, h6⟩ := hc
  have hch : chooseVersion (serialSeen n c.serial.toNat (capsShown n c s)) n c.drvMin.toNat c.drvMax.toNat = some v :=
    (chooseVersion_range (capsTaken_range c) _ _).trans hv
  unfold capsRx
  rw [if_neg (by simp [hs]), if_neg (by simp [h6]; omega)]
  unfold capsShown at hch
  dsimp only
  rw [hch]
  rfl

theorem capsRx_noVersion {c : Caps} (hs : (linkU s n).step = 2) (hc : capsSound c)
    (hv : chooseVersion s n c.drvMin.toNat c.drvMax.toNat = none) : capsRx n c s = linkFail n 2 (capsTaken n c s) := by
  obtain ⟨h1, h2, h3, h4, h5, h6⟩ := hc
  have hch : chooseVersion (serialSeen n c.serial.toNat (capsShown n c s)) n c.drvMin.toNat c.drvMax.toNat = none :=
    (chooseVersion_range (capsTaken_range c) _ _).trans hv
  unfold capsRx
  rw [if_neg (by simp [hs]), if_neg (by simp [h6]; omega)]
  unfold capsShown at hch
  dsimp only
  rw [hch]
  rfl

theorem versionTaken_spec (v : Nat) : linkU (versionTaken n v s) n = { linkU s n with version := v, step := 3 } ∧
    Alike (CapsRegs n) s (versionTaken n v s) := by
  refine ⟨?_, caps_linkOkSync ((Alike.refl s).of_regs ⟨rfl, rfl, rfl⟩)⟩
  rw [versionTaken, linkOkSync_link, linkU_modLink]

end

/-! ## STNn_LCTRL -/

section
variable {s : State} {n : Fin 8} {v : Word}

/-- DOWN taken, training not yet begun. -/
def downTaken (n : Nat) (down : Bool) (s : State) : State := s.pb (STN_LCTRL_DOWN n) down

theorem downTaken_state (down : Bool) : linkState (downTaken n down s) n = linkState s n := by
  have h : Clear (STN_LSTAT_STATE n) (STN_LCTRL_DOWN n) := clear_inst rfl
  exact g_pb_clear _ _ h

theorem downTaken_mapped (down : Bool) : linkMapped (downTaken n down s) n = linkMapped s n := by
  have h : Clear CHIP_RIGSTAT_STATE (STN_LCTRL_DOWN n) := clear_below rfl
  unfold linkMapped State.rigged State.mapped downTaken
  rw [State.pb_rig, g_pb_clear _ _ h]

/-- What DOWN forgets. -/
def heldDown (l : LinkU) : LinkU :=
  { l with step := 0, version := 0, waiting := [], loading := none, unreported := [], missed := [], lastSweep := none, sending := [] }

/-- A link held down, its sheet spoiled before. -/
def linkHeld (n : Nat) (s : State) : State :=
  modLink n heldDown (((sendDark n 2 s).p (STN_LSTAT_STATE n) Lk.down).p (STN_LSTAT_VERSION n) 0)

theorem lctrlWrite_down (hd : fieldOf (STN_LCTRL_DOWN n) v = 1) (hwas : s.on (STN_LCTRL_DOWN n) = false) :
    lctrlWrite n v s = linkOkSync n (linkHeld n (spoilAt Cause.linkLoss n (downTaken n true s))) := by
  unfold lctrlWrite
  dsimp only
  rw [if_pos hd, if_neg (by simp [hwas]), hd]
  rfl

theorem lctrlWrite_up (hd : fieldOf (STN_LCTRL_DOWN n) v = 0) (hr : fieldOf (STN_LCTRL_RETRAIN n) v = 0)
    (hwas : s.on (STN_LCTRL_DOWN n) = true) (hm : linkMapped s n = true) : lctrlWrite n v s = linkStart n (downTaken n false s) := by
  unfold lctrlWrite
  dsimp only
  rw [hd, hr, if_neg (by decide), if_neg (by decide)]
  exact if_pos ⟨hwas, (downTaken_mapped false).trans hm⟩

theorem lctrlWrite_retrain (hd : fieldOf (STN_LCTRL_DOWN n) v = 0) (hr : fieldOf (STN_LCTRL_RETRAIN n) v = 1) :
    lctrlWrite n v s = if linkState s n = Lk.up then linkLoss n 10 (downTaken n false s)
      else if linkMapped s n then linkStart n (downTaken n false s) else downTaken n false s := by
  have hst : linkState (downTaken n false s) n = linkState s n := downTaken_state false
  unfold lctrlWrite
  dsimp only
  rw [hd, hr, if_neg (by decide), if_pos rfl]
  have hm := downTaken_mapped (s := s) (n := n) false
  unfold downTaken at hst hm ⊢
  rw [show decide ((0 : Nat) = 1) = false from rfl, hst, hm]

theorem linkHeld_spec : linkState (linkOkSync n (linkHeld n s)) n = Lk.down ∧
    (linkOkSync n (linkHeld n s)).on (STN_LCTRL_DOWN n) = s.on (STN_LCTRL_DOWN n) ∧
    (linkOkSync n (linkHeld n s)).on (STN_LSTAT_LIT n) = false ∧ (linkU (linkOkSync n (linkHeld n s)) n).step = 0 ∧
    (linkU (linkOkSync n (linkHeld n s)) n).version = 0 := by
  have h1 : Clear (STN_LSTAT_STATE n) (STN_LSTAT_VERSION n) := clear_inst rfl
  have h2 : Clear (STN_LCTRL_DOWN n) (STN_LSTAT_VERSION n) := clear_inst rfl
  have h3 : Clear (STN_LCTRL_DOWN n) (STN_LSTAT_STATE n) := clear_inst rfl
  have h4 : Clear (STN_LCTRL_DOWN n) (STN_LSTAT_LIT n) := clear_inst rfl
  have h5 : Clear (STN_LSTAT_LIT n) (STN_LSTAT_VERSION n) := clear_inst rfl
  have h6 : Clear (STN_LSTAT_LIT n) (STN_LSTAT_STATE n) := clear_inst rfl
  have hlink : linkU (linkOkSync n (linkHeld n s)) n =
      heldDown (linkU (((sendDark n 2 s).p (STN_LSTAT_STATE n) Lk.down).p (STN_LSTAT_VERSION n) 0) n) := by
    rw [linkOkSync_link, linkHeld, linkU_modLink]
  refine ⟨?_, on_eq_of_g ?_, ?_, ?_, ?_⟩
  · rw [linkOkSync_state, linkHeld, modLink_state, linkState, g_p_clear _ _ h1]
    exact linkState_p (by decide)
  · rw [linkOkSync_g (f := STN_LCTRL_DOWN n) (clear_inst rfl) (clear_inst rfl) (clear_inst rfl), linkHeld, modLink_g,
      g_p_clear _ _ h2, g_p_clear _ _ h3, sendDark_g _ h4]
  · rw [on_eq_of_g (linkOkSync_g (f := STN_LSTAT_LIT n) (clear_inst rfl) (clear_inst rfl) (clear_inst rfl)), linkHeld, modLink_on,
      on_p_clear _ _ h5, on_p_clear _ _ h6, sendDark_eq]
    exact on_pb_same _ _ rfl
  · rw [hlink]
    rfl
  · rw [hlink]
    rfl

theorem down_unspoiled (n : Fin 8) : FieldUnspoiled (STN_LCTRL_DOWN n) := by
  have hn := n.isLt
  unfold FieldUnspoiled Unspoiled STN_LCTRL_DOWN STN_LCTRL
  dsimp only
  omega

end

/-- Settles O48: each step of training, its failures, and the writes of STNn_LCTRL. -/
theorem linkTraining : Obligations.LinkTraining := by
  intro s n c x v
  have hfail {cause : Nat} (hc : cause < 16) (hne : cause ≠ 2) : linkState (linkFail n cause s) n = Lk.wait ∧
      (linkFail n cause s).g (STN_LSTAT_CAUSE n) = cause ∧ (linkU (linkFail n cause s) n).step = 0 ∧
      (linkU (linkFail n cause s) n).waiting = [] ∧ (linkFail n cause s).ctx = s.ctx ∧ (linkFail n cause s).out = s.out ∧
      OnlyRegs (flagRegs n) s (linkFail n cause s) := by
    obtain ⟨hst, hca, hl, hq⟩ := linkFail_spec (s := s) (n := n) hc
    rw [hl]
    exact ⟨hst.trans (if_neg hne), hca, rfl, rfl, hq.ctx, hq.out, hq.only⟩
  refine ⟨?_, ?_, ?_, ?_, ?_, ?_, ?_, ?_, ?_, ?_, ?_, ?_, ?_, ?_⟩
  · intro hd hn hst hm hdown hretry
    refine Does.of_stnLive rfl hd hn ?_
    rw [if_pos (by simp [hst, hm, hdown, hretry])]
    exact linkStart_spec (by unfold lanesIdle; rw [hst]; decide)
  · intro hd hn hs
    have hl : linkU (modLink n (fun l => { l with step := 2 }) (s.p (STN_LSTAT_STATE n) Lk.caps)) n =
        { linkU s n with step := 2 } := by
      rw [linkU_modLink, linkU_of_stn (State.p_stn _ _ _)]
    have hq := ((Quiet.refl [STN_LSTAT n] s).p (f := STN_LSTAT_STATE n) Lk.caps (by simp [STN_LSTAT_STATE])).modLink (n := n)
      fun l => { l with step := 2 }
    refine Does.of_stnLive rfl hd hn ?_
    unfold backLock
    dsimp only
    rw [if_pos hs, hl, modLink_state]
    exact ⟨linkState_p (by decide), rfl, hq.ctx, hq.out, hq.only⟩
  · intro hd hn hs
    refine Does.of_stnLive rfl hd hn ?_
    unfold backLock
    dsimp only
    rw [if_neg (by omega), if_pos hs]
    exact linkLoad_spec
  · intro hd hn hs
    refine Does.of_stnLive rfl hd hn ?_
    unfold backLoss
    dsimp only
    rw [if_neg (by omega), if_pos hs]
    exact hfail (by decide) (by decide)
  · intro hd hn hs hup
    refine Does.of_stnLive rfl hd hn ?_
    unfold backLoss
    dsimp only
    rw [if_pos hs]
    exact linkLoss_spec hup (by decide)
  · intro hd hn hs hidle
    obtain ⟨hout, hl, hregs⟩ := sendPacket_idle (s := s) (n := n) 0x10 0 0
      (leBytes 2 (devMin s n) ++ leBytes 2 (devMax s n) ++ leBytes 1 n ++ leBytes 3 0) hidle
    refine Does.of_stnLive rfl hd hn ?_
    rw [if_pos hs]
    unfold capsReq
    exact ⟨hout, by rw [hl], hregs⟩
  · intro hd hn hs h1 h2 h3 h4 h5 h6 hv
    obtain ⟨hl, hal⟩ := versionTaken_spec (s := capsTaken n c s) (n := n) x
    have hsend := sends_sendControl (s := versionTaken n x (capsTaken n c s)) (n := n) 0x11 0 (leBytes 2 x ++ leBytes 6 0)
    refine Does.of_stnLive rfl hd hn ?_
    rw [capsRx_sound hs ⟨h1, h2, h3, h4, h5, h6⟩ hv]
    exact ⟨hsend.step.trans (by rw [hl]), hsend.version.trans (by rw [hl]), capsTaken_shows (hal.trans fun off _ => hsend.reg off) h2 h4⟩
  · intro hd hn hs h1 h2 h3 h4 h5 h6 hv
    obtain ⟨hst, hca, hl, _⟩ := linkFail_spec (s := capsTaken n c s) (n := n) (cause := 2) (by decide)
    refine Does.of_stnLive rfl hd hn ?_
    rw [capsRx_noVersion hs ⟨h1, h2, h3, h4, h5, h6⟩ hv, hl]
    exact ⟨hst, hca, rfl, rfl⟩
  · intro hd hn hs hidle hbad
    obtain ⟨hout, hl, hregs⟩ := sendPacket_idle (s := s) (n := n) 0x10 0 0
      (leBytes 2 (devMin s n) ++ leBytes 2 (devMax s n) ++ leBytes 1 n ++ leBytes 3 0) hidle
    refine Does.of_stnLive rfl hd hn ?_
    unfold capsRx
    rw [if_neg (by simp [hs]), if_pos hbad]
    unfold capsReq
    exact ⟨hout, by rw [hl]; exact hs, hregs⟩
  · intro hd hn hs
    refine Does.of_stnLive rfl hd hn ?_
    unfold trainTimeout
    dsimp only
    by_cases h2 : (linkU s n).step = 2
    · obtain ⟨hst, hca, hstep, _, hrest⟩ := hfail (cause := 3) (by decide) (by decide)
      rw [if_neg (by omega), if_pos h2, if_pos h2]
      exact ⟨hst, hca, hstep, hrest⟩
    · obtain ⟨hst, hca, hstep, _, hrest⟩ := hfail (cause := 1) (by decide) (by decide)
      rw [if_pos (by omega), if_neg h2]
      exact ⟨hst, hca, hstep, hrest⟩
  · intro hd hn hst
    obtain ⟨h1, h2, _, h3, h4⟩ := linkStart_spec (s := s) (n := n) (by unfold lanesIdle; rw [hst]; decide)
    refine Does.of_stnLive rfl hd hn ?_
    rw [if_pos hst]
    exact ⟨h1, h2, h3, h4⟩
  · intro hr hdown hwas
    obtain ⟨hst, hon, hrest⟩ := linkHeld_spec (s := spoilAt Cause.linkLoss n (downTaken n true s)) (n := n)
    refine Does.of_hostAt rfl hr ?_
    rw [lctrlWrite_down hdown hwas]
    exact ⟨hst, hon.trans ((on_eq_of_g (spoilAt_g _ _ (down_unspoiled n))).trans (on_pb_same _ _ rfl)), hrest⟩
  · intro hr hdown hretrain hwas hm
    have hun : Untrained n (STN_LCTRL_DOWN n) :=
      ⟨clear_inst rfl, clear_inst rfl, clear_inst rfl, clear_inst rfl, clear_inst rfl, clear_inst rfl⟩
    refine Does.of_hostAt rfl hr ?_
    rw [lctrlWrite_up hdown hretrain hwas hm]
    exact ⟨linkStart_state, linkStart_link.1, (on_eq_of_g (linkStart_g hun)).trans (on_pb_same _ _ rfl),
      linkStart_ctx.trans (State.pb_ctx _ _ _)⟩
  · intro hr hdown hretrain hst
    refine Does.of_hostAt rfl hr ?_
    rw [lctrlWrite_retrain hdown hretrain]
    by_cases hup : linkState s n = Lk.up
    · obtain ⟨h1, h2, _, h3, _⟩ := linkLoss_spec (s := downTaken n false s) (n := n) (cause := 10) ((downTaken_state false).trans hup)
        (by decide)
      rw [if_pos hup]
      exact ⟨h1, h3, fun _ => h2⟩
    · rw [if_neg hup, if_pos (hst.resolve_left hup)]
      exact ⟨linkStart_state, linkStart_link.1, fun h => absurd h hup⟩

end Sys2Proof.Machine
end

section
/-!
PROOFS. The registers below the time counter, those of the chip, the power sequencer, the sensors and the clocks, that no
operation on sheets, links, machinery or the engine writes: what an error of any severity leaves there.
-/

namespace Sys2Proof.Machine

open Reg

set_option Elab.async false

/-- Below the time counter; not CHIP_IRQ_STAT, which a record may write, nor THM_TJ, whose HOLD and DRAIN follow the engine. -/
def Low (off : Nat) : Prop := off < 0x104000 ∧ off ≠ 0x30 ∧ off ≠ THM_TJ

theorem not_low {off : Nat} (h : 0x104000 ≤ off) : ¬ Low off := fun hl => Nat.not_lt.mpr h hl.1

theorem not_low_inst {a x l w : Nat} (h : Nat.ble 0x104000 a = true) : ¬ Low (⟨a + x, l, w⟩ : Fld).off :=
  not_low ((Nat.ble_eq ▸ h : 0x104000 ≤ a).trans (Nat.le_add_right a x))

theorem not_low_const {a l w : Nat} (h : Nat.ble 0x104000 a = true) : ¬ Low (⟨a, l, w⟩ : Fld).off := not_low (Nat.ble_eq ▸ h)

theorem not_low_tj {l w : Nat} : ¬ Low (⟨THM_TJ, l, w⟩ : Fld).off := fun hl => hl.2.2 rfl

theorem low_aside {off : Nat} (h : Low off) : Aside off := by
  unfold Low at h
  unfold Aside
  omega

section
variable {Z : Nat → Prop} {a s : State}

/-! ## What writes no register -/

theorem alike_event (e : Event) (h : Alike Z a s) : Alike Z a (s.event e) := h.of_regs ⟨rfl, rfl, rfl⟩
theorem alike_unEvent (e : Event) (h : Alike Z a s) : Alike Z a (s.unEvent e) :=
  h.of_kept (kept_State_unEvent (by decide) e (.refl s))
theorem alike_modCtx (c : Nat) (f : Ctx → Ctx) (h : Alike Z a s) : Alike Z a (s.modCtx c f) := h.of_regs ⟨rfl, rfl, rfl⟩
theorem alike_setCtx (c : Nat) (u : Ctx) (h : Alike Z a s) : Alike Z a (s.setCtx c u) := h.of_regs ⟨rfl, rfl, rfl⟩
theorem alike_modStn (n : Nat) (f : Stn → Stn) (h : Alike Z a s) : Alike Z a (s.modStn n f) := h.of_regs ⟨rfl, rfl, rfl⟩
theorem alike_withPsq (q : PsqU) (h : Alike Z a s) : Alike Z a { s with psq := q } := h.of_regs ⟨rfl, rfl, rfl⟩
theorem alike_withCodec (u : CodecU) (h : Alike Z a s) : Alike Z a { s with codec := u } := h.of_regs ⟨rfl, rfl, rfl⟩
theorem alike_withHost (u : HostU) (h : Alike Z a s) : Alike Z a { s with host := u } := h.of_regs ⟨rfl, rfl, rfl⟩
theorem alike_withVis (u : VisU) (h : Alike Z a s) : Alike Z a { s with vis := u } := h.of_regs ⟨rfl, rfl, rfl⟩
theorem alike_modAx (n : Nat) (f : Ax → Ax) (h : Alike Z a s) : Alike Z a (modAx n f s) := h.of_regs ⟨rfl, rfl, rfl⟩
theorem alike_modAg (g : Nat) (f : Ag → Ag) (h : Alike Z a s) : Alike Z a (modAg g f s) := h.of_regs ⟨rfl, rfl, rfl⟩
theorem alike_modHv (j : Nat) (f : Hv → Hv) (h : Alike Z a s) : Alike Z a (modHv j f s) := h.of_regs ⟨rfl, rfl, rfl⟩

theorem alike_gateLow (k : Nat) (h : Alike Z a s) : Alike Z a (gateLow k s) :=
  h.of_kept (kept_gateLow (by decide) (by decide) k (.refl s))

end

section
variable {a s : State}

/-! ## Sheets -/

theorem low_setEngine (e : Nat) (h : Alike Low a s) : Alike Low a (s.setEngine e) := h.p _ (not_low_const rfl)

theorem low_stopFeeding (h : Alike Low a s) : Alike Low a (stopFeeding s) := by
  unfold stopFeeding
  exact alike_withPsq _ (.ite (alike_event _ (h.pb _ (not_low_const rfl))) h)

theorem low_undoMove (c : Nat) (h : Alike Low a s) : Alike Low a (undoMove c s) := by
  unfold undoMove
  exact .ite (alike_withPsq _ (alike_modCtx _ _ ((h.p _ (not_low_inst rfl)).p _ (not_low_inst rfl))))
    (.ite (h.p _ (not_low_inst rfl)) (.ite (alike_modCtx _ _ (h.p _ (not_low_inst rfl))) h))

theorem low_spoilShow (flag : Bool) (h : Alike Low a s) : Alike Low a (spoilShow flag s) := by
  have hshown : Alike Low a ({ s with psq := { s.psq with spoilOut := flag } }.event (.spoil flag)) := alike_event _ (alike_withPsq _ h)
  unfold spoilShow
  dsimp only
  split
  · exact (hshown.pb _ (not_low_inst rfl)).of_regs (drive_regs _ _ _ _ _)
  · exact hshown

theorem low_psqSync (h : Alike Low a s) : Alike Low a (psqSync s) := by
  have hsync := fun x y z => ((h.p (f := PSQ_STAT_ARMED) x (not_low_const rfl)).p (f := PSQ_DEMAND_MBS) y (not_low_const rfl)).p
    (f := CODEC_VSTAT_SHEETS) z (not_low_const rfl)
  unfold psqSync
  exact .ite (hsync _ _ _) (low_spoilShow _ (hsync _ _ _))

theorem low_printSync (h : Alike Low a s) : Alike Low a (printSync s) := by
  unfold printSync
  exact .ite (low_setEngine _ h) h

theorem low_purge (c n : Nat) (h : Alike Low a s) : Alike Low a (purge c n s) := by
  unfold purge
  refine alike_modStn _ _ (h.overN fun k t _ ht => ?_)
  split
  · exact .ite ((alike_modStn _ _ ht).pb _ (not_low (by unfold STN_DEC_BUSY STN_DEC; dsimp only; omega))) ht
  · exact ht

theorem low_forgetSweeps (c n : Nat) (h : Alike Low a s) : Alike Low a (forgetSweeps c n s) := alike_modStn _ _ h

theorem low_freeCtx (c : Nat) (h : Alike Low a s) : Alike Low a (freeCtx c s) := by
  have hoff {x : Nat} (hx : 0x401000 ≤ x) : ¬ Low x := not_low (by omega)
  have hpurged := (alike_setCtx c {} h).overN (n := 8) (f := fun n s => forgetSweeps c n (purge c n s)) fun n t _ ht =>
    low_forgetSweeps c n (low_purge c n ht)
  unfold freeCtx
  refine low_printSync (low_psqSync ?_)
  exact (((hpurged.setReg _ (hoff (by unfold PCTX_STATE; omega))).setReg _ (hoff (by unfold PCTX_SHEET; omega))).setReg _
    (hoff (by unfold PCTX_ORG_LO; omega))).setReg _ (hoff (by unfold PCTX_ORG_HI; omega))

theorem low_dropDec (c n : Nat) (h : Alike Low a s) : Alike Low a (dropDec c n s) := by
  unfold dropDec
  split
  · exact .ite ((alike_withCodec _ h).pb _ (not_low_inst rfl)) h
  · exact h

theorem low_dropVerify (c : Nat) (h : Alike Low a s) : Alike Low a (dropVerify c s) := by
  unfold dropVerify
  exact (alike_withCodec _ (h.overN fun n t _ ht => low_dropDec c n ht)).p _ (not_low_const rfl)

theorem low_post (q : Nat) (p : Post) (h : Alike Low a s) : Alike Low a (post q p s) :=
  h.trans (post_alike p (not_low (by unfold REP_QSTAT; omega)) fun off ho _ => not_low (by omega))

theorem low_tryClose (h : Alike Low a s) : Alike Low a (tryClose s) := by
  have hclosed : Alike Low a (closeSession { s with host.closing := none }) :=
    ((alike_withHost _ h).pb _ (not_low_const rfl)).p _ (not_low_const rfl)
  unfold tryClose
  split
  · exact h
  · refine .ite ?_ h
    split
    · exact low_post _ _ hclosed
    · exact hclosed

theorem low_complete (q cid op status result : Nat) (h : Alike Low a s) : Alike Low a (complete q cid op status result s) :=
  low_tryClose (low_post _ _ (alike_withHost _ h))

theorem low_completeIn (e q cid op status result : Nat) (h : Alike Low a s) :
    Alike Low a (completeIn e q cid op status result s) := low_tryClose (low_post _ _ (alike_withHost _ h))

theorem low_refuseCommit (c status result : Nat) (eng : Option Nat) (h : Alike Low a s) :
    Alike Low a (refuseCommit c status result eng s) := by
  have hd := low_dropVerify c h
  unfold refuseCommit
  refine low_freeCtx c (.ite ?_ hd)
  split
  · exact low_completeIn _ _ _ _ _ _ hd
  · exact low_complete _ _ _ _ _ hd

theorem low_releaseArmed (cause c : Nat) (h : Alike Low a s) : Alike Low a (releaseArmed cause c s) := by
  unfold releaseArmed
  exact low_psqSync (alike_withPsq _ (alike_modCtx _ _ (((h.p _ (not_low_inst rfl)).p _ (not_low_inst rfl)).p _ (not_low_inst rfl))))

theorem low_clearWaiting (eng cause : Nat) (h : Alike Low a s) : Alike Low a (clearWaiting eng cause s) := by
  unfold clearWaiting
  refine Alike.pb ?_ _ not_low_tj
  refine Alike.foldl (h.foldl fun t c _ ht => .ite (low_refuseCommit _ _ _ _ ht) ht) fun t c _ ht => .ite (low_releaseArmed _ _ ht) ht

theorem low_fetchSync (n : Nat) (h : Alike Low a s) : Alike Low a (fetchSync n s) := h.pb _ (not_low_inst rfl)

theorem low_darkFor (c n : Nat) (h : Alike Low a s) : Alike Low a (darkFor c n s) :=
  h.of_kept (kept_darkFor (by decide) (by decide) (by decide) c n (.refl s))

theorem low_vacate (c n : Nat) (h : Alike Low a s) : Alike Low a (vacate c n s) := by
  unfold vacate
  exact .ite (alike_modStn _ _ ((h.pb _ (not_low_inst rfl)).p _ (not_low_inst rfl))) h

theorem low_jam (cause c : Nat) (h : Alike Low a s) : Alike Low a (jam cause c s) := by
  have hjam := h.p (f := PCTX_STATE_STATE c) Px.jammed (not_low_inst rfl)
  unfold jam
  refine .ite (Alike.overN (alike_withPsq _ (alike_modCtx _ _ (.ite (hjam.p _ (not_low_inst rfl)) hjam))) fun n t _ ht => ?_) h
  exact low_vacate c n (low_fetchSync n (alike_modStn _ _ (low_darkFor c n ht)))

theorem low_spoil (cause c : Nat) (h : Alike Low a s) : Alike Low a (spoil cause c s) := by
  have hstruck : Alike Low a ((s.p (PCTX_STATE_STATE c) Px.spoiled).p (PCTX_STATE_CAUSE c) cause) :=
    (h.p _ (not_low_inst rfl)).p _ (not_low_inst rfl)
  have hdark (u : State) (hu : Alike Low a u) : Alike Low a (overN 8 (fun n s => darkFor c n (stopFetch c n s)) u) :=
    hu.overN fun n r _ hr => low_darkFor c n (low_fetchSync n (alike_modStn _ _ hr))
  unfold spoil
  dsimp only
  exact .ite (low_psqSync (alike_event _ (alike_withPsq _ (alike_modCtx _ _ hstruck))))
    (.ite h (.ite (low_psqSync (alike_withPsq _ (hdark _ (alike_modCtx _ _ hstruck)))) (.ite (h.p _ (not_low_inst rfl)) h)))

theorem low_spoilAt (cause n : Nat) (h : Alike Low a s) : Alike Low a (spoilAt cause n s) := by
  unfold spoilAt
  refine .ite (low_spoil _ _ h) ?_
  split
  · exact .ite (low_spoil _ _ h) h
  · exact h

end

/-! ## Machinery -/

/-- A zone with none of the registers that a stop of the machinery writes, nor of those that spoiling a sheet writes. -/
structure Idle (Z : Nat → Prop) : Prop where
  inst : ∀ {x c n l w : Nat}, (Nat.ble 0x800000 x && (Nat.blt 0x807004 x || !Nat.beq ((0x807004 - x) % c) 0)) = true →
    ¬ Z (⟨x + c * n, l, w⟩ : Fld).off
  vel : ∀ {n}, ¬ Z (AX_VEL n)
  target : ∀ {n}, n < 64 → ¬ Z (AX_TARGET n)
  spoilAt : ∀ {a s : State} (cause n : Nat), Alike Z a s → Alike Z a (spoilAt cause n s)

theorem axis_lt {p : Part} {n : Nat} (h : n < p.axes) : n < 64 := by
  cases p <;> exact lt_of_lt_of_le h (by decide)

theorem membersOf_lt {s : State} {g n : Nat} (h : n ∈ membersOf s g) : n < 64 :=
  axis_lt (List.mem_range.mp (List.mem_filter.mp h).1)

section
variable {Z : Nat → Prop} {a s : State} (hz : Idle Z)
include hz

theorem idle_loseLock (n : Nat) (h : Alike Z a s) : Alike Z a (loseLock n s) := by
  have hm := h.modMc n fun u => { u with inWin := 0, outWin := 0 }
  unfold loseLock
  exact .ite (hz.spoilAt _ _ (alike_event _ (hm.pb _ (hz.inst rfl)))) hm

theorem idle_mcOff (n : Nat) (h : Alike Z a s) : Alike Z a (mcOff n s) :=
  Alike.modMc (idle_loseLock hz _ ((h.p _ (hz.inst rfl)).pb _ (hz.inst rfl))) _ _

theorem idle_mcStop (n : Nat) (h : Alike Z a s) : Alike Z a (mcStop n s) := by
  unfold mcStop
  exact .ite (Alike.modMc (idle_loseLock hz _ (h.p _ (hz.inst rfl))) _ _) (.ite (idle_mcOff hz n h) h)

theorem idle_mcStopAll (h : Alike Z a s) : Alike Z a (mcStopAll s) := by
  unfold mcStopAll
  exact h.overN fun n t _ ht => .ite ((idle_mcStop hz n ht).pb _ (hz.inst rfl)) ht

theorem idle_axEndMove (n : Nat) (h : Alike Z a s) : Alike Z a (axEndMove n s) := by
  have hm := (((h.setReg (off := AX_VEL n) 0 hz.vel).pb (f := AX_CTRL_STOP n) false (hz.inst rfl)).pb (f := AX_STAT_PEND n) false (hz.inst rfl))
    |> alike_modAx n fun u => { u with
      vel := 0, prog := 0, dist := 0, emitted := 0, estop := false, disable := false, byGroup := false, goTick := false }
  unfold axEndMove
  exact .ite ((hm.p _ (hz.inst rfl)).pb _ (hz.inst rfl)) (hm.p _ (hz.inst rfl))

theorem idle_velSync (n v : Nat) (h : Alike Z a s) : Alike Z a (velSync n v s) := h.setReg _ hz.vel

theorem idle_axTargetPut {n : Nat} (hn : n < 64) (v : Word) (h : Alike Z a s) : Alike Z a (axTargetPut n v s) := by
  unfold axTargetPut axResult
  exact .ite (h.p _ (hz.inst rfl)) ((h.setReg _ (hz.target hn)).p _ (hz.inst rfl))

theorem idle_axUnwind {n : Nat} (hn : n < 64) (h : Alike Z a s) : Alike Z a (axUnwind n s) := by
  have h1 : Alike Z a (if (axU s n).calls.any Option.isSome then s.setReg (AX_TARGET n) (axU s n).tgt0 else s) :=
    .ite (h.setReg _ (hz.target hn)) h
  have h2 : Alike Z a (if (axU s n).goTick then axEndMove n (if (axU s n).calls.any Option.isSome then
      s.setReg (AX_TARGET n) (axU s n).tgt0 else s) else (if (axU s n).calls.any Option.isSome then
      s.setReg (AX_TARGET n) (axU s n).tgt0 else s)) := .ite (idle_axEndMove hz n h1) h1
  unfold axUnwind
  dsimp only
  split
  · exact idle_velSync hz _ _ (alike_modAx _ _ ((alike_unEvent _ h2).p _ (hz.inst rfl)))
  · exact h2

theorem idle_axReplay {n : Nat} (hn : n < 64) (h : Alike Z a s) : Alike Z a (axReplay n s) := by
  unfold axReplay
  refine h.foldl fun t c _ ht => ?_
  split
  · exact idle_axTargetPut hz hn _ ht
  · exact ht.p _ (hz.inst rfl)

theorem idle_axEstop (n : Nat) (h : Alike Z a s) : Alike Z a (axEstop n s) := by
  unfold axEstop
  exact .ite (alike_modAx _ _ (h.p _ (hz.inst rfl))) h

theorem idle_agEndMove (g : Nat) (h : Alike Z a s) : Alike Z a (agEndMove g s) := by
  unfold agEndMove
  exact alike_modAg _ _ (((h.p _ (hz.inst rfl)).pb _ (hz.inst rfl)).foldl fun t m _ ht => .ite (idle_axEndMove hz _ ht) ht)

theorem idle_agUnwind (g : Nat) (h : Alike Z a s) : Alike Z a (agUnwind g s) := by
  have h1 : Alike Z a ((membersOf s g).foldl (fun s n => axUnwind n s) (if (agU s g).goTick then agEndMove g s else s)) :=
    Alike.foldl (.ite (idle_agEndMove hz g h) h) fun t n hn ht => idle_axUnwind hz (membersOf_lt hn) ht
  unfold agUnwind
  dsimp only
  split
  · refine Alike.foldl (alike_modAg _ _ ((alike_unEvent _ h1).p _ (hz.inst rfl))) fun t m _ ht => ?_
    exact idle_velSync hz _ _ (alike_modAx _ _ ((alike_unEvent _ ht).p _ (hz.inst rfl)))
  · exact h1

theorem idle_agReplay (g : Nat) (h : Alike Z a s) : Alike Z a (agReplay g s) := by
  have h1 := h.foldl (l := membersOf s g) (f := fun s n => axReplay n s) fun t n hn ht => idle_axReplay hz (membersOf_lt hn) ht
  unfold agReplay
  exact .ite (h1.p _ (hz.inst rfl)) h1

theorem idle_agEstop (g : Nat) (h : Alike Z a s) : Alike Z a (agEstop g s) := by
  unfold agEstop
  exact .ite (Alike.foldl (alike_modAg _ _ (h.p _ (hz.inst rfl))) fun t m _ ht => alike_modAx _ _ (ht.p _ (hz.inst rfl))) h

theorem idle_axStopAll (hard : Bool) (h : Alike Z a s) : Alike Z a (axStopAll hard s) := by
  unfold axStopAll
  refine Alike.overN (h.overN fun n t hn ht => ?_) fun g t _ ht => ?_
  · exact .ite ht (.ite ht (idle_axReplay hz (axis_lt hn) (idle_axEstop hz _ (idle_axUnwind hz (axis_lt hn) ht))))
  · exact .ite ht (.ite ht (idle_agReplay hz _ (idle_agEstop hz _ (idle_agUnwind hz _ ht))))

theorem idle_hvConfirmStart (j : Nat) (h : Alike Z a s) : Alike Z a (hvConfirmStart j s) :=
  alike_modHv _ _ (h.pb _ (hz.inst rfl))

theorem idle_hvGoto (st j : Nat) (h : Alike Z a s) : Alike Z a (hvGoto st j s) := by
  have hst := h.p (f := HV_STAT_STATE j) st (hz.inst rfl)
  unfold hvGoto
  exact .ite (alike_modHv _ _ ((idle_hvConfirmStart hz j hst).pb _ (hz.inst rfl))) hst

theorem idle_hvOff (j : Nat) (h : Alike Z a s) : Alike Z a (hvOff j s) := by
  have hoff := h.pb (f := HV_CTRL_ENABLE j) false (hz.inst rfl)
  unfold hvOff
  exact .ite hoff (idle_hvGoto hz _ _ hoff)

theorem idle_hvAllOff (h : Alike Z a s) : Alike Z a (hvAllOff s) := h.overN fun j _ _ ht => idle_hvOff hz j ht

theorem idle_htFurl (h : Alike Z a s) : Alike Z a (htFurl s) := by
  unfold htFurl
  exact h.overN fun k t _ ht => .ite (alike_gateLow k (ht.pb _ (hz.inst rfl))) ht

theorem idle_sendDark (n reason : Nat) (h : Alike Z a s) : Alike Z a (sendDark n reason s) := by
  have hk : Kept (· ≠ .out) s (darkShown n reason s) := darkShown_kept reason
  rw [sendDark_eq]
  exact (alike_modStn _ _ (h.of_regs ⟨hk.part, hk.rev, hk.same .regs (by simp)⟩)).pb _ (hz.inst rfl)

end

theorem low_idle : Idle Low where
  inst h := by
    simp only [Bool.and_eq_true, Nat.ble_eq] at h
    exact not_low (by dsimp only; omega)
  vel := not_low (by unfold AX_VEL; omega)
  target _ := not_low (by unfold AX_TARGET; omega)
  spoilAt cause n h := low_spoilAt cause n h

section
variable {a s : State}

theorem low_forceOutputs (h : Alike Low a s) : Alike Low a (forceOutputs s) := by
  unfold forceOutputs
  refine Alike.overN (Alike.overN (Alike.overN (h.pb _ (not_low_const rfl)) fun j _ _ ht => idle_hvConfirmStart low_idle j ht) fun k t _ ht =>
    .ite (alike_gateLow k ht) ht) fun n _ _ ht => idle_sendDark low_idle n 1 ht

theorem low_stopMachinery (h : Alike Low a s) : Alike Low a (stopMachinery s) := idle_hvAllOff low_idle (idle_axStopAll low_idle _ (idle_mcStopAll low_idle h))

theorem low_furlMachinery (h : Alike Low a s) : Alike Low a (furlMachinery s) :=
  idle_htFurl low_idle (idle_hvAllOff low_idle (idle_axStopAll low_idle _ (idle_mcStopAll low_idle h)))

/-! ## The engine -/

theorem low_endBoundary (h : Alike Low a s) : Alike Low a (endBoundary s) := alike_withPsq _ (h.pb _ (not_low_const rfl))

theorem low_hardStop (cause : Nat) (h : Alike Low a s) : Alike Low a (hardStop cause s) := by
  unfold hardStop
  refine alike_withPsq _ (Alike.pb (low_setEngine _ (low_endBoundary (low_stopMachinery (low_forceOutputs (low_psqSync ?_))))) _ not_low_tj)
  refine Alike.foldl (low_clearWaiting _ _ ((low_stopFeeding h).foldl fun t c _ ht => low_undoMove c ht)) fun t c _ ht => low_jam _ _ ht

theorem low_startDrain (cause : Nat) (h : Alike Low a s) : Alike Low a (startDrain cause s) :=
  low_setEngine _ (low_clearWaiting _ _ (low_stopFeeding h))

theorem low_wearSave (n : Nat) (h : Alike Low a s) : Alike Low a (wearSave n s) :=
  h.of_kept (kept_wearSave (by decide) n (.refl s))

theorem low_polySync (h : Alike Low a s) : Alike Low a (polySync s) := by
  unfold polySync
  exact h.overN fun n t _ ht => .ite (ht.pz _ (not_low_inst rfl)) ht

theorem low_furl (h : Alike Low a s) : Alike Low a (furl s) := by
  unfold furl
  refine low_polySync (Alike.pb (Alike.overN (alike_withPsq _ (low_setEngine _ (low_endBoundary (low_furlMachinery ?_)))) fun n t _ ht =>
    ht.p _ (not_low_inst rfl)) _ not_low_tj)
  exact (low_stopFeeding h).overN fun n t _ ht => low_wearSave n (idle_sendDark low_idle n 3 ht)

theorem low_fatalStop (h : Alike Low a s) : Alike Low a (fatalStop s) := by
  unfold fatalStop
  exact .ite (low_setEngine _ (low_hardStop _ h)) (.ite h (.ite h (low_setEngine _ (idle_hvAllOff low_idle (low_forceOutputs h)))))

theorem low_fatalHost (h : Alike Low a s) : Alike Low a (fatalHost s) := by
  unfold fatalHost
  refine .ite (alike_withPsq _ (low_startDrain _ h)) (.ite (alike_withPsq _ h) (.ite (low_furl (alike_withPsq _ (low_clearWaiting _ _ h)))
    (.ite h (low_setEngine _ h))))

theorem low_gatesLow (h : Alike Low a s) : Alike Low a (gatesLow s) := h.overN fun k _ _ ht => alike_gateLow k ht

theorem low_fatalChip (h : Alike Low a s) : Alike Low a (fatalChip s) := by
  unfold fatalChip
  exact alike_withPsq _ (low_setEngine _ (low_gatesLow (.ite (low_hardStop _ h) (low_stopMachinery (low_forceOutputs h)))))

theorem low_fatalEffect (sev region : Nat) (h : Alike Low a s) : Alike Low a (fatalEffect sev region s) := by
  have hf (l : List Nat) : Alike Low a { s with err.faulted := l } := h.of_regs ⟨rfl, rfl, rfl⟩
  unfold fatalEffect
  refine .ite (low_fatalChip h) (.ite (.ite ?_ (.ite (low_fatalHost (hf _)) (low_fatalStop (hf _)))) h)
  exact alike_withVis _ ((hf _).setReg (off := VIS_REG_CTRL) 0 (not_low (by decide)))

/-- An error of any severity leaves the low registers alone. -/
theorem low_raise {e : ErrIn} (h : Alike Low a s) (he : e.reg < 7) : Alike Low a (raise e s) := by
  have hr : Alike Low a (record e s) := h.trans ((aside_record (.refl s) he).mono fun _ hl => low_aside hl)
  unfold raise
  exact .ite hr (low_fatalEffect _ _ hr)

theorem low_corrected (cls inst code cell : Nat) (h : Alike Low a s) : Alike Low a (corrected cls inst code cell s) :=
  h.trans ((aside_corrected cls inst code cell (.refl s)).mono fun _ hl => low_aside hl)

end

/-! ## The forced outputs -/

theorem forced_idle : Idle (· = ILK_STAT) where
  inst := by
    intro x c n l w h e
    simp only [Bool.and_eq_true, Bool.or_eq_true, Nat.ble_eq, Nat.blt_eq, Bool.not_eq_true'] at h
    dsimp only [ILK_STAT] at e
    obtain ⟨-, hgt | hmod⟩ := h
    · omega
    · have hx : 0x807004 - x = c * n := by omega
      rw [hx, Nat.mul_mod_right] at hmod
      exact absurd hmod (by decide)
  vel e := by
    unfold AX_VEL ILK_STAT at e
    omega
  target hn e := by
    unfold AX_TARGET ILK_STAT at e
    omega
  spoilAt cause n h := h.trans ((spoilAt_alike cause n).mono fun _ e => by
    rw [e]
    exact ⟨⟨by decide, by decide, by decide⟩, by decide⟩)

section
variable (s : State)

theorem forceOutputs_forced : (forceOutputs s).on ILK_STAT_FORCED = true := by
  have hs : Alike (· = ILK_STAT) (s.pb ILK_STAT_FORCED true) (forceOutputs s) := by
    unfold forceOutputs
    exact Alike.overN (Alike.overN (Alike.overN (.refl _) fun j _ _ ht => idle_hvConfirmStart forced_idle j ht) fun k t _ ht =>
      .ite (alike_gateLow k ht) ht) fun n _ _ ht => idle_sendDark forced_idle n 1 ht
  exact (hs.on (f := ILK_STAT_FORCED) rfl).trans (on_pb_same _ _ rfl)

theorem withPsq_g (q : PsqU) (f : Fld) : State.g { s with psq := q } f = s.g f := rfl

/-- A hard stop forces the outputs, and is the engine state. -/
theorem hardStop_shows (cause : Nat) : (hardStop cause s).on ILK_STAT_FORCED = true ∧ (hardStop cause s).engine = Eng.hardstop := by
  unfold hardStop
  dsimp only
  generalize psqSync _ = u
  have hstop : (stopMachinery (forceOutputs u)).on ILK_STAT_FORCED = true :=
    (Alike.on (f := ILK_STAT_FORCED) (idle_hvAllOff forced_idle (idle_axStopAll forced_idle true (idle_mcStopAll forced_idle (.refl _)))) rfl).trans (forceOutputs_forced u)
  generalize stopMachinery (forceOutputs u) = v at hstop
  have hend : (endBoundary v).g ILK_STAT_FORCED = v.g ILK_STAT_FORCED := (withPsq_g _ _ _).trans (g_pb_clear _ _ (clear_const rfl))
  have hdrain : Clear REP_STAT_ENGINE THM_TJ_DRAIN := clear_const rfl
  have hforced : Clear ILK_STAT_FORCED THM_TJ_DRAIN := clear_const rfl
  have heng : Clear ILK_STAT_FORCED REP_STAT_ENGINE := clear_const rfl
  refine ⟨(on_eq_of_g ?_).trans hstop, ?_⟩
  · refine (withPsq_g _ _ _).trans ?_
    rw [g_pb_clear _ _ hforced]
    unfold State.setEngine
    rw [g_p_clear _ _ heng, hend]
  · unfold State.engine State.setEngine
    refine (withPsq_g _ _ _).trans ?_
    rw [g_pb_clear _ _ hdrain]
    exact g_p_self _ _ _ (by decide)

end

end Sys2Proof.Machine
end

section
/-!
PROOFS. The power program and the ledger (spec/14_power_supervision.md R309-R321): rails entering and leaving, a wait that
ends or times out, the end of a shutdown and of a retry delay.
-/

namespace Sys2Proof.Machine

open Reg

set_option Elab.async false

/-- A happening in a stay island that runs, with no CHIP_RESET waiting for the power. -/
theorem Does.of_stayStep {c : Instr} {s : State} {P : State → Prop} {f : State → State} (e : exec c s = .next (stayStep f s))
    (hl : s.pwr.lost = false) (hw : (f s).rig.resetWait = false) (h : P (f s)) : Does c s P := by
  refine ⟨f s, e.trans (congrArg _ ?_), h⟩
  have hs : stayLive f s = f s := if_neg (by simp [hl])
  unfold stayStep settleReset
  rw [hs, hw, Bool.false_and, if_neg (by decide)]

/-- The same of a happening that leaves the rigging unit. -/
theorem Does.of_stay {c : Instr} {s : State} {P : State → Prop} {f : State → State} (e : exec c s = .next (stayStep f s))
    (hl : s.pwr.lost = false) (hw : s.rig.resetWait = false) (hk : Kept (· = .rig) s (f s)) (h : P (f s)) : Does c s P :=
  .of_stayStep e hl ((congrArg RigU.resetWait (hk.same .rig rfl)).trans hw) h

theorem Kept.outs {K : Piece → Prop} {s t : State} (h : Kept K s t) (hk : K .out) : t.out = s.out := h.same .out hk
theorem Kept.pwrs {K : Piece → Prop} {s t : State} (h : Kept K s t) (hk : K .pwr) : t.pwr = s.pwr := h.same .pwr hk

theorem setPwr_rig (u : PwrU) (s : State) : (setPwr u s).rig = s.rig := rfl

/-! ## The ledger -/

section
variable {s : State} {l : List Nat}

theorem setLedger_pwr : (setLedger l s).pwr = { s.pwr with ledger := l } :=
  (kept_ledgerSync (K := (· = .pwr)) (by decide) (.refl (setPwr { s.pwr with ledger := l } s))).same .pwr rfl

theorem setLedger_kept : Kept (fun p => p ≠ .regs ∧ p ≠ .pwr) s (setLedger l s) :=
  kept_setLedger (by decide) (by decide) l (.refl s)

theorem setLedger_mapped (c i k : Nat) : (setLedger l s).mapped c i k = s.mapped c i k := by
  unfold State.mapped
  rw [setLedger_kept.same .rig (by decide)]

theorem inLedger_width (r : Nat) : (PWR_SLOT_STAT_IN_LEDGER r).lo + (PWR_SLOT_STAT_IN_LEDGER r).w ≤ 32 :=
  Nat.le_of_ble_eq_true rfl

/-- What a change of the ledger leaves: a field that is none of PWR_LEDGERi and none of the bits IN_LEDGER. -/
theorem setLedger_g {f : Fld} (hin : ∀ r, Clear f (PWR_SLOT_STAT_IN_LEDGER r)) (hled : ∀ i < 8, f.off ≠ PWR_LEDGER i) :
    (setLedger l s).g f = s.g f := by
  unfold setLedger ledgerSync
  refine overN_keeps (P := fun t => t.g f = s.g f) 32 _ (fun r t _ ht => (g_pb_clear _ _ (hin r)).trans ht) _ ?_
  refine overN_keeps (P := fun t => t.g f = s.g f) 8 _ (fun i t hi ht => ?_) _ rfl
  refine Eq.trans ?_ ht
  unfold State.g
  rw [reg_setReg_other _ _ _ _ (hled i hi)]

/-- A bit of a slot's status below IN_LEDGER, or a field of a register below PWR_LEDGER0. -/
theorem setLedger_g_stat {x lo w : Nat} (h : lo + w ≤ 3) :
    (setLedger l s).g ⟨PWR_SLOT_STAT x, lo, w⟩ = s.g ⟨PWR_SLOT_STAT x, lo, w⟩ :=
  setLedger_g (fun _ => ⟨inLedger_width _, .inr (.inl h)⟩) fun i hi => by unfold PWR_SLOT_STAT PWR_LEDGER; dsimp only; omega

theorem setLedger_g_below {f : Fld} (h : f.off < 0x100040) : (setLedger l s).g f = s.g f :=
  setLedger_g (fun r => ⟨inLedger_width _, .inl (by unfold PWR_SLOT_STAT_IN_LEDGER PWR_SLOT_STAT; dsimp only; omega)⟩)
    fun i _ => by unfold PWR_LEDGER; omega

theorem setLedger_g_cfg {x lo w : Nat} : (setLedger l s).g ⟨PWR_SLOT_CFG x, lo, w⟩ = s.g ⟨PWR_SLOT_CFG x, lo, w⟩ :=
  setLedger_g (fun r => ⟨inLedger_width _, .inl (by unfold PWR_SLOT_STAT_IN_LEDGER PWR_SLOT_STAT PWR_SLOT_CFG; dsimp only; omega)⟩)
    fun i _ => by unfold PWR_LEDGER PWR_SLOT_CFG; dsimp only; omega

theorem overN_inLedger (t : State) {n r : Nat} (h : r < n) :
    (overN n (fun r s => s.pb (PWR_SLOT_STAT_IN_LEDGER r) (l.contains r)) t).on (PWR_SLOT_STAT_IN_LEDGER r) = l.contains r := by
  induction n with
  | zero => exact absurd h (Nat.not_lt_zero r)
  | succ n ih =>
    rw [overN_succ]
    by_cases e : r = n
    · subst e
      exact on_pb_same _ _ rfl
    · have hclear : Clear (PWR_SLOT_STAT_IN_LEDGER r) (PWR_SLOT_STAT_IN_LEDGER n) :=
        ⟨inLedger_width _, .inl (by unfold PWR_SLOT_STAT_IN_LEDGER PWR_SLOT_STAT; dsimp only; omega)⟩
      rw [on_pb_clear _ _ hclear]
      exact ih (by omega)

theorem setLedger_in {r : Nat} (h : r < 32) : (setLedger l s).on (PWR_SLOT_STAT_IN_LEDGER r) = l.contains r := overN_inLedger _ h

end

/-! ## A slot's enable, mapped or not -/

section
variable {s : State} {r : Nat}

/-- The level shown, and the good input of a slot without a PG ball. -/
def enableGood (r : Nat) (b : Bool) (s : State) : State :=
  if s.mapped 0x50 r 1 then enableShown r b s else (enableShown r b s).pb (PWR_SLOT_STAT_GOOD r) b

theorem setEnable_true : setEnable r true s = setPwr { s.pwr with
    glitch := s.pwr.glitch.filter (· != r), ovHigh := s.pwr.ovHigh.filter (· != r) } (enableGood r true s) := by
  have hp : (enableGood r true s).pwr = s.pwr := by
    unfold enableGood enableShown
    split <;> rfl
  rw [← hp]
  rfl

theorem setEnable_true_active : (setEnable r true s).on (PWR_SLOT_STAT_ACTIVE r) = true := by
  have hgood : Clear (PWR_SLOT_STAT_ACTIVE r) (PWR_SLOT_STAT_GOOD r) := clear_inst rfl
  rw [setEnable_true, setPwr_on]
  unfold enableGood
  split
  · exact enableShown_active
  · rw [on_pb_clear _ _ hgood]
    exact enableShown_active

end

/-! ## The program -/

section
variable {s : State} {op w next : Nat}

/-- A word about to execute finds the program waiting for nothing. -/
theorem seqWord_wait (h : seqWord s op = some w) : s.pwr.wait = .none := by
  unfold seqWord at h
  dsimp only at h
  split at h
  · rename_i hc
    exact hc.2.2.1
  · exact absurd h nofun

theorem seqAt_pwr : (seqAt next s).pwr = { s.pwr with pc := next } := rfl

theorem seqAt_g {f : Fld} (h : Clear f PWR_STAT_STEP) : (seqAt next s).g f = s.g f := by
  unfold seqAt
  rw [setPwr_g, g_p_clear _ _ h]

theorem seqAt_only : OnlyRegs [PWR_STAT] s (seqAt next s) := by
  unfold seqAt
  exact ((onlyRegs_refl _ s).p _ _ (by decide)).of_reg (setPwr_reg _ _)

theorem seqAt_kept : Kept (fun p => p ≠ .regs ∧ p ≠ .pwr) s (seqAt next s) := kept_seqAt (by decide) (by decide) next (.refl s)

theorem seqAt_mapped (c i k : Nat) : (seqAt next s).mapped c i k = s.mapped c i k := by
  unfold State.mapped
  rw [seqAt_kept.same .rig (by decide)]

theorem seqEnable_new (h : seqWord s 1 = some w) (hl : s.pwr.ledger.contains (w % 32) = false) :
    seqEnable s = setLedger (s.pwr.ledger ++ [w % 32]) (setEnable (w % 32) true (seqAt (s.pwr.pc + 1) s)) := by
  unfold seqEnable
  rw [h]
  dsimp only
  rw [hl, seqAt_pwr]
  rfl

theorem seqEnable_known (h : seqWord s 1 = some w) (hl : s.pwr.ledger.contains (w % 32) = true) :
    seqEnable s = seqAt (s.pwr.pc + 1) s := by
  unfold seqEnable
  rw [h]
  dsimp only
  rw [hl, if_pos rfl]

/-- The slot of a DISABLE taken out of the ledger, and inactive. -/
def seqTaken (w : Nat) (s : State) : State :=
  setEnable (w % 32) false (setLedger (s.pwr.ledger.filter (· != w % 32)) (seqAt (s.pwr.pc + 1) s))

theorem seqDisable_eq (h : seqWord s 2 = some w) : seqDisable s =
    if (seqTaken w s).on (PWR_SLOT_STAT_GOOD (w % 32)) ∧ (seqTaken w s).g (PWR_SLOT_CFG_TOFF (w % 32)) ≠ 0 then
      setPwr { (seqTaken w s).pwr with wait := .drop (w % 32) } (seqTaken w s) else seqTaken w s := by
  unfold seqDisable
  rw [h]
  rfl

theorem seqTaken_spec (hm : s.mapped 0x50 (w % 32) 1 = true) :
    (seqTaken w s).on (PWR_SLOT_STAT_GOOD (w % 32)) = s.on (PWR_SLOT_STAT_GOOD (w % 32)) ∧
    (seqTaken w s).g (PWR_SLOT_CFG_TOFF (w % 32)) = s.g (PWR_SLOT_CFG_TOFF (w % 32)) ∧
    (seqTaken w s).on (PWR_SLOT_STAT_ACTIVE (w % 32)) = false ∧
    (seqTaken w s).pwr.ledger = s.pwr.ledger.filter (· != w % 32) ∧ (seqTaken w s).pwr.pc = s.pwr.pc + 1 ∧
    (seqTaken w s).pwr.wait = s.pwr.wait ∧ (seqTaken w s).out = s.out := by
  have hmap : (setLedger (s.pwr.ledger.filter (· != w % 32)) (seqAt (s.pwr.pc + 1) s)).mapped 0x50 (w % 32) 1 = true :=
    (setLedger_mapped _ _ _).trans ((seqAt_mapped _ _ _).trans hm)
  have hstep {f : Fld} (h : Clear f PWR_STAT_STEP) : (seqAt (s.pwr.pc + 1) s).g f = s.g f := seqAt_g h
  unfold seqTaken
  obtain ⟨hactive, hgood⟩ := setEnable_flags (b := false) hmap
  refine ⟨hgood.trans (on_eq_of_g ?_), ?_, hactive, ?_, ?_, ?_, ?_⟩
  · exact (setLedger_g_stat (by decide)).trans (hstep (clear_above rfl))
  · rw [setEnable_g (cfg_notMem_enableRegs _)]
    exact setLedger_g_cfg.trans (hstep (clear_above rfl))
  · rw [setEnable_pwr hmap, setLedger_pwr]
  · rw [setEnable_pwr hmap, setLedger_pwr, seqAt_pwr]
  · rw [setEnable_pwr hmap, setLedger_pwr, seqAt_pwr]
  · rw [setEnable_kept.outs (by decide), setLedger_kept.outs (by decide), seqAt_kept.outs (by decide)]

end

/-! ## A step that fails -/

section
variable {s : State} {r q : Nat}

/-- A failure of a slot: its cause and its slot. -/
def railFailed (cause r : Nat) (s : State) : State :=
  ((s.p PWR_STAT_FAIL_CAUSE cause).p PWR_STAT_FAIL_SLOT r).pb PWR_STAT_NO_SLOT false

/-- A failure at this moment begins the shutdown. -/
def failDown (d : Down) (s : State) : State := beginDown d (setPwr { s.pwr with failAt := some s.clock } s)

theorem stepFail_rise : stepFail 1 (some r) s =
    failDown (.fail 1 (some r)) ((railFailed 1 r s).inc (PWR_SLOT_CNT0_RISE_FAIL r)) := by
  unfold stepFail
  dsimp only
  rw [if_pos (show (1 : Nat) = 1 from rfl)]
  rfl

theorem stepFail_rail {cause : Nat} (h : cause ≠ 1) : stepFail cause (some r) s =
    failDown (.fail cause (some r)) (railFailed cause r s) := by
  unfold stepFail
  dsimp only
  rw [if_neg h]
  rfl

theorem railFailed_kept (cause : Nat) : Kept (fun p => p ≠ .regs) s (railFailed cause r s) :=
  kept_State_pb (by decide) _ _ (kept_State_p (by decide) _ _ (kept_State_p (by decide) _ _ (.refl s)))

theorem railFailed_g {cause : Nat} {f : Fld} (h : f.off ≠ PWR_STAT) : (railFailed cause r s).g f = s.g f :=
  (g_pb_clear _ _ ⟨by decide, .inl h⟩).trans ((g_p_clear _ _ ⟨by decide, .inl h⟩).trans (g_p_clear _ _ ⟨by decide, .inl h⟩))

/-- The failure as PWR_STAT shows it. -/
theorem railFailed_shown {cause : Nat} (hr : r < 32) (hc : cause < 16) : (railFailed cause r s).g PWR_STAT_FAIL_CAUSE = cause ∧
    (railFailed cause r s).g PWR_STAT_FAIL_SLOT = r ∧ (railFailed cause r s).on PWR_STAT_NO_SLOT = false := by
  have hcs : Clear PWR_STAT_FAIL_CAUSE PWR_STAT_FAIL_SLOT := clear_const rfl
  have hcn : Clear PWR_STAT_FAIL_CAUSE PWR_STAT_NO_SLOT := clear_const rfl
  have hsn : Clear PWR_STAT_FAIL_SLOT PWR_STAT_NO_SLOT := clear_const rfl
  unfold railFailed
  refine ⟨?_, ?_, on_pb_same _ _ rfl⟩
  · rw [g_pb_clear _ _ hcn, g_p_clear _ _ hcs]
    exact (g_p_self _ _ _ (by decide)).trans (Nat.mod_eq_of_lt hc)
  · rw [g_pb_clear _ _ hsn]
    exact (g_p_self _ _ _ (by decide)).trans (Nat.mod_eq_of_lt hr)

theorem stat_clear_cnt {lo w x : Nat} : Clear ⟨PWR_STAT, lo, w⟩ (PWR_SLOT_CNT0_RISE_FAIL x) :=
  ⟨Nat.le_of_ble_eq_true rfl, .inl (by unfold PWR_STAT PWR_SLOT_CNT0_RISE_FAIL PWR_SLOT_CNT0; dsimp only; omega)⟩

/-- What an error of a rail leaves of the slot that is to drop. -/
theorem Drops.of_same {t : State} (h : Drops s q) (hl : t.pwr.ledger = s.pwr.ledger) (hr : t.rig = s.rig)
    (hg : t.g (PWR_SLOT_STAT_GOOD q) = s.g (PWR_SLOT_STAT_GOOD q)) (ht : t.g (PWR_SLOT_CFG_TOFF q) = s.g (PWR_SLOT_CFG_TOFF q)) :
    Drops t q :=
  ⟨by rw [hl]; exact h.last, by unfold State.mapped; rw [hr]; exact h.mapped, (on_eq_of_g hg).trans h.good, by rw [ht]; exact h.toff⟩

/-- The fields of PWR_STAT that a shutdown leaves. -/
theorem Dropping.stat {d : Option Down} {t : State} (h : Dropping d q s t) {lo w : Nat} (hlo : 4 ≤ lo) :
    t.g ⟨PWR_STAT, lo, w⟩ = s.g ⟨PWR_STAT, lo, w⟩ := by
  have hs : Clear ⟨PWR_STAT, lo, w⟩ PWR_STAT_STATE := ⟨by decide, .inr (.inr ((show 3 ≤ 4 by decide).trans hlo))⟩
  have hr : Clear ⟨PWR_STAT, lo, w⟩ PWR_STAT_RETRY_WAIT := ⟨by decide, .inr (.inr hlo)⟩
  refine h.g _ ?_ hs hr
  simp only [enableRegs, List.mem_cons, List.not_mem_nil, or_false, PWR_STAT, PWR_SLOT_STAT, PWR_EN, PWR_GOOD]
  omega

/-- The counters of slots, which a shutdown leaves. -/
theorem Dropping.cnt {d : Option Down} {t : State} (h : Dropping d q s t) (k : Fin 5) : t.g (railCnt r k) = s.g (railCnt r k) := by
  have hoff := railCnt_off (r := r) k
  simp only [cntRegs, List.mem_cons, List.not_mem_nil, or_false, PWR_SLOT_CNT0, PWR_SLOT_CNT1, PWR_SLOT_CNT2] at hoff
  refine h.g _ ?_ ⟨by decide, .inl ?_⟩ ⟨by decide, .inl ?_⟩
  · simp only [enableRegs, List.mem_cons, List.not_mem_nil, or_false, PWR_SLOT_STAT, PWR_EN, PWR_GOOD]
    omega
  · unfold PWR_STAT_STATE PWR_STAT
    dsimp only
    omega
  · unfold PWR_STAT_RETRY_WAIT PWR_STAT
    dsimp only
    omega

theorem waitgoodTimeout_fails (h : s.pwr.wait = .good r) : waitgoodTimeout s = stepFail 1 (some r) s := by
  unfold waitgoodTimeout
  rw [h]

theorem waitgoodTimeout_behind (hw : s.pwr.wait = .none ∨ s.pwr.wait = .drop q) (ho : s.pwr.offWait = some (s.clock, r)) :
    waitgoodTimeout s = setPwr { s.pwr with offWait := none } (s.inc (PWR_SLOT_CNT0_RISE_FAIL r)) := by
  unfold waitgoodTimeout
  rcases hw with hw | hw <;> rw [hw, ho] <;> exact if_pos rfl

/-- A failure shuts the last slot of the ledger down. -/
theorem dropping_failDown (d : Down) (h : Drops s q) :
    Dropping (if s.pwr.down = some .off then some .off else some d) q s (failDown d s) :=
  have hd := dropping_beginDown d (h.of_same (t := setPwr { s.pwr with failAt := some s.clock } s) rfl rfl rfl rfl)
  ⟨hd.state, hd.wait, hd.down, hd.active, hd.ledger, hd.ovHigh, hd.slotA, hd.slotB, hd.save, hd.out, hd.g⟩

/-- What a WAITGOOD of slot `r` that times out comes to: the slot's count, the failure shown, and slot `q` shutting down. -/
def RiseLost (q r : Nat) (s t : State) : Prop :=
  pwState t = Pw.downSeq ∧ t.pwr.wait = .drop q ∧ t.g PWR_STAT_FAIL_CAUSE = 1 ∧ t.g PWR_STAT_FAIL_SLOT = r ∧
  t.on PWR_STAT_NO_SLOT = false ∧ t.on (PWR_SLOT_STAT_ACTIVE q) = false ∧
  t.g (PWR_SLOT_CNT0_RISE_FAIL r) = min 65535 (s.g (PWR_SLOT_CNT0_RISE_FAIL r) + 1)

theorem failDown_rise (h : Drops s q) (hr : r < 32) :
    RiseLost q r s (failDown (.fail 1 (some r)) ((railFailed 1 r s).inc (PWR_SLOT_CNT0_RISE_FAIL r))) := by
  obtain ⟨hcause, hslot, hno⟩ := railFailed_shown (s := s) (cause := 1) hr (by decide)
  generalize hu : (railFailed 1 r s).inc (PWR_SLOT_CNT0_RISE_FAIL r) = u
  have hpwr : u.pwr = s.pwr := by
    rw [← hu, State.inc_pwr]
    exact (railFailed_kept 1).pwrs (by decide)
  have hrig : u.rig = s.rig := by
    rw [← hu, State.inc_rig]
    exact (railFailed_kept 1).same .rig (by decide)
  have hstat {lo w : Nat} : u.g ⟨PWR_STAT, lo, w⟩ = (railFailed 1 r s).g ⟨PWR_STAT, lo, w⟩ := by
    rw [← hu]
    exact g_inc_clear _ stat_clear_cnt
  have hdrops : Drops u q := by
    refine h.of_same (by rw [hpwr]) hrig ?_ ?_
    · rw [← hu]
      refine (g_inc_clear _ ⟨Nat.le_of_ble_eq_true rfl, .inl ?_⟩).trans (railFailed_g ?_)
      · unfold PWR_SLOT_STAT_GOOD PWR_SLOT_STAT PWR_SLOT_CNT0_RISE_FAIL PWR_SLOT_CNT0
        dsimp only
        omega
      · unfold PWR_SLOT_STAT_GOOD PWR_SLOT_STAT PWR_STAT
        dsimp only
        omega
    · rw [← hu]
      refine (g_inc_clear _ ⟨Nat.le_of_ble_eq_true rfl, .inl ?_⟩).trans (railFailed_g ?_)
      · unfold PWR_SLOT_CFG_TOFF PWR_SLOT_CFG PWR_SLOT_CNT0_RISE_FAIL PWR_SLOT_CNT0
        dsimp only
        omega
      · unfold PWR_SLOT_CFG_TOFF PWR_SLOT_CFG PWR_STAT
        dsimp only
        omega
  have hd := dropping_failDown (.fail 1 (some r)) hdrops
  refine ⟨hd.state, hd.wait, ?_, ?_, ?_, hd.active, ?_⟩
  · exact (hd.stat (by decide)).trans (hstat.trans hcause)
  · exact (hd.stat (by decide)).trans (hstat.trans hslot)
  · exact (on_eq_of_g (hd.stat (by decide))).trans ((on_eq_of_g hstat).trans hno)
  · refine (hd.cnt (r := r) 0).trans ?_
    rw [← hu]
    refine (g_inc_self (f := PWR_SLOT_CNT0_RISE_FAIL r) (Nat.le_of_ble_eq_true rfl)).trans ?_
    rw [railFailed_g (f := PWR_SLOT_CNT0_RISE_FAIL r) (by unfold PWR_SLOT_CNT0_RISE_FAIL PWR_SLOT_CNT0 PWR_STAT; dsimp only; omega)]
    rfl

end

/-! ## The end of a shutdown -/

section
variable {s : State} {q w : Nat} {o : Option Nat}

/-- The ledger emptied of its last slot. -/
def lastGone (s : State) : State := setLedger [] (setPwr { s.pwr with wait := .none } s)

theorem lastGone_pwr : (lastGone s).pwr = { s.pwr with wait := .none, ledger := [] } := setLedger_pwr

theorem lastGone_g {f : Fld} (h : f.off < 0x100040) : (lastGone s).g f = s.g f := setLedger_g_below h

theorem lastGone_engine : (lastGone s).engine = s.engine :=
  
  setLedger_g (fun r => ⟨inLedger_width r, .inl (by
    unfold PWR_SLOT_STAT_IN_LEDGER PWR_SLOT_STAT REP_STAT_ENGINE REP_STAT; dsimp only; omega)⟩)
    fun i hi => by unfold PWR_LEDGER REP_STAT_ENGINE REP_STAT; dsimp only; omega

theorem lastGone_kept : Kept (fun p => p ≠ .regs ∧ p ≠ .pwr) s (lastGone s) :=
  kept_setLedger (by decide) (by decide) [] (kept_setPwr (by decide) _ (.refl s))

theorem slotDone_last (hw : s.pwr.wait = .drop q) (hl : s.pwr.ledger = [q]) (hd : pwState s = Pw.downSeq) :
    slotDone s = downEnds (lastGone s) := by
  have hempty : (lastGone s).pwr.ledger = [] := congrArg PwrU.ledger lastGone_pwr
  have hstep : shutStep 32 (lastGone s) = downEnds (lastGone s) := by
    unfold shutStep
    rw [hempty]
    rfl
  rw [← hstep]
  unfold slotDone
  rw [hw]
  dsimp only
  rw [if_pos hd, setPwr_pwr, hl]
  rfl

/-- A shutdown's end, its power state not yet chosen. -/
def downEnded (s : State) : State :=
  setPwr { s.pwr with wait := .none, down := none, downAt := some s.clock, endDue := false } s

theorem endDown_retry (hd : s.pwr.down = some (.fail w o)) (hn : s.g PWR_STAT_ATTEMPT < s.pwr.n) :
    endDown s = railNvm (setPwr { (downEnded s).pwr with lastSlot := o }
      (((downEnded s).p PWR_STAT_STATE Pw.upSeq).pb PWR_STAT_RETRY_WAIT true)) := by
  unfold endDown
  dsimp only
  rw [hd]
  dsimp only
  rw [if_pos hn]
  rfl

theorem endDown_cleat (hd : s.pwr.down = some (.fail w o)) (hn : s.pwr.n ≤ s.g PWR_STAT_ATTEMPT) :
    endDown s = raise { sev := Sev.regionFatal, cls := 0x50, inst := o.getD ((downEnded s).fresh.1 % 256), code := 2 }
      (railNvm ((downEnded s).fresh.2.p PWR_STAT_STATE Pw.cleated)) := by
  unfold endDown
  dsimp only
  rw [hd]
  dsimp only
  rw [if_neg (Nat.not_lt.mpr hn)]
  rfl

theorem endDown_off (hd : s.pwr.down = some .off) : endDown s = railNvm (reachOff (downEnded s)) := by
  unfold endDown
  dsimp only
  rw [hd]
  rfl

theorem lastFailNow_off (hd : s.pwr.down = some .off) : lastFailNow s = false := by
  unfold lastFailNow
  rw [hd]

theorem lastFailNow_fail (hd : s.pwr.down = some (.fail w o)) (h : s.pwr.failAt ≠ some s.clock ∨ s.g PWR_STAT_ATTEMPT < s.pwr.n) :
    lastFailNow s = false := by
  unfold lastFailNow
  rw [hd]
  simp only [Bool.and_eq_false_iff, beq_eq_false_iff_ne, decide_eq_false_iff_not, Nat.not_le]
  exact h

theorem downEnds_now (h : lastFailNow s = false) : downEnds s = endDown s := by
  unfold downEnds
  rw [h]
  rfl

/-- The retry that a shutdown's end begins. -/
theorem endDown_retry_spec (hd : s.pwr.down = some (.fail w o)) (hn : s.g PWR_STAT_ATTEMPT < s.pwr.n) :
    pwState (endDown s) = Pw.upSeq ∧ (endDown s).on PWR_STAT_RETRY_WAIT = true ∧ (endDown s).pwr.ledger = s.pwr.ledger ∧
    (endDown s).pwr.lastSlot = o ∧ (endDown s).g PWR_STAT_ATTEMPT = s.g PWR_STAT_ATTEMPT ∧ (endDown s).out = s.out := by
  have hsr : Clear PWR_STAT_STATE PWR_STAT_RETRY_WAIT := clear_const rfl
  have har : Clear PWR_STAT_ATTEMPT PWR_STAT_RETRY_WAIT := clear_const rfl
  have has : Clear PWR_STAT_ATTEMPT PWR_STAT_STATE := clear_const rfl
  rw [endDown_retry hd hn]
  generalize hu : setPwr { (downEnded s).pwr with lastSlot := o } _ = t
  obtain ⟨_, _, _, hp⟩ := railNvm_pwr t
  rw [hp, railNvm_on, railNvm_g, (railNvm_kept t).outs (by decide)]
  unfold pwState
  rw [railNvm_g, ← hu, setPwr_g, setPwr_on, setPwr_g, g_pb_clear _ _ hsr, g_pb_clear _ _ har, g_p_clear _ _ has]
  exact ⟨g_p_self _ _ _ (by decide), on_pb_same _ _ rfl, rfl, rfl, rfl, rfl⟩

theorem endDown_cleat_spec (hd : s.pwr.down = some (.fail w o)) (hn : s.pwr.n ≤ s.g PWR_STAT_ATTEMPT) :
    pwState (endDown s) = Pw.cleated ∧ (endDown s).pwr.ledger = s.pwr.ledger ∧ (endDown s).pwr.downAt = some s.clock := by
  rw [endDown_cleat hd hn]
  generalize hu : (downEnded s).fresh.2.p PWR_STAT_STATE Pw.cleated = t
  generalize he : ({ sev := Sev.regionFatal, cls := 0x50, inst := o.getD ((downEnded s).fresh.1 % 256), code := 2 } : ErrIn) = e
  have hreg : e.reg < 7 := by rw [← he]; exact classRegion_lt 0x50
  have hraised : Alike Low (railNvm t) (raise e (railNvm t)) := low_raise (.refl _) hreg
  have hpwr : (raise e (railNvm t)).pwr = (railNvm t).pwr :=
    (kept_raise (K := (· = .pwr)) (by decide) (by decide) (by decide) (by decide) (by decide) (by decide) (by decide) (by decide)
      (by decide) (by decide) (by decide) (by decide) (by decide) (by decide) e (.refl _)).pwrs rfl
  obtain ⟨_, _, _, hp⟩ := railNvm_pwr t
  unfold pwState
  rw [hpwr, hp, hraised.g (f := PWR_STAT_STATE) (by unfold Low; decide), railNvm_g, ← hu]
  exact ⟨g_p_self _ _ _ (by decide), rfl, rfl⟩

theorem endDown_off_spec (hd : s.pwr.down = some .off) : pwState (endDown s) = Pw.off ∧ (endDown s).pwr.ledger = s.pwr.ledger ∧
    (endDown s).pwr.wait = .none ∧ (endDown s).pwr.downAt = some s.clock ∧
    (endDown s).engine = if s.engine = Eng.furled then Eng.standby else s.engine := by
  obtain ⟨_, _, _, hp⟩ := railNvm_pwr (reachOff (downEnded s))
  rw [endDown_off hd, hp, reachOff_pwr]
  unfold pwState State.engine
  rw [railNvm_g, railNvm_g]
  exact ⟨reachOff_state _, rfl, rfl, rfl, reachOff_engine _⟩

end

theorem slotDone_kept (s : State) : Kept (· = .rig) s (slotDone s) :=
  kept_slotDone (by decide) (by decide) (by decide) (by decide) (by decide) (by decide) (by decide) (by decide) (by decide)
    (by decide) (by decide) (by decide) (by decide) (by decide) (by decide) (.refl s)

/-! ## Requests, waits and retries -/

section
variable {s : State} {r : Nat}

theorem startUp_spec : pwState (startUp s) = Pw.upSeq ∧ (startUp s).pwr.pc = 0 ∧ (startUp s).g PWR_STAT_ATTEMPT = 0 ∧
    (startUp s).on PWR_STAT_ON_HELD = false ∧ (startUp s).out = s.out ∧ OnlyRegs [PWR_STAT] s (startUp s) := by
  have hsa : Clear PWR_STAT_STATE PWR_STAT_ATTEMPT := clear_const rfl
  have hss : Clear PWR_STAT_STATE PWR_STAT_STEP := clear_const rfl
  have hsh : Clear PWR_STAT_STATE PWR_STAT_ON_HELD := clear_const rfl
  have hsr : Clear PWR_STAT_STATE PWR_STAT_RETRY_WAIT := clear_const rfl
  have has : Clear PWR_STAT_ATTEMPT PWR_STAT_STEP := clear_const rfl
  have hah : Clear PWR_STAT_ATTEMPT PWR_STAT_ON_HELD := clear_const rfl
  have har : Clear PWR_STAT_ATTEMPT PWR_STAT_RETRY_WAIT := clear_const rfl
  have hhr : Clear PWR_STAT_ON_HELD PWR_STAT_RETRY_WAIT := clear_const rfl
  unfold pwState startUp
  dsimp only
  rw [setPwr_g, setPwr_g, setPwr_on, setPwr_pwr, setPwr_out, g_pb_clear _ _ hsr, g_pb_clear _ _ hsh, g_p_clear _ _ hss,
    g_p_clear _ _ hsa, g_pb_clear _ _ har, g_pb_clear _ _ hah, g_p_clear _ _ has, on_pb_clear _ _ hhr]
  rw [State.pb_out, State.pb_out, State.p_out, State.p_out, State.p_out]
  refine ⟨g_p_self _ _ _ (by decide), rfl, g_p_self _ _ _ (by decide), on_pb_same _ _ rfl, rfl, ?_⟩
  exact ((((((onlyRegs_refl _ s).p _ _ (by decide)).p _ _ (by decide)).p _ _ (by decide)).pb _ _ (by decide)).pb _ _ (by decide)).of_reg
    (setPwr_reg _ _)

theorem onRequestStart_starts (hh : s.on PWR_STAT_ON_HELD = true) (ho : pwState s = Pw.off) (ht : toffPassed s = true) :
    onRequestStart s = startUp (s.pb PWR_STAT_VIN_LOW false) := by
  unfold onRequestStart
  rw [if_pos ⟨hh, ho, ht⟩]

/-- The next attempt, before its counters go to NVM. -/
def retried (r : Nat) (s : State) : State :=
  setPwr { s.pwr with pc := 0, wait := .none, checkIn := true }
    ((((s.p PWR_STAT_ATTEMPT (s.g PWR_STAT_ATTEMPT + 1)).pb PWR_STAT_RETRY_WAIT false).inc (PWR_SLOT_CNT2_RETRY r)).p PWR_STAT_STEP 0)

theorem retryEnd_eq (hr : s.on PWR_STAT_RETRY_WAIT = true) (hl : s.pwr.lastSlot = some r) : retryEnd s =
    corrected 0x50 ((some r).getD ((railNvm (retried r s)).fresh.1 % 256)) 5 0xFFFF (railNvm (retried r s)).fresh.2 := by
  have hp : (((s.p PWR_STAT_ATTEMPT (s.g PWR_STAT_ATTEMPT + 1)).pb PWR_STAT_RETRY_WAIT false).inc (PWR_SLOT_CNT2_RETRY r)).pwr = s.pwr := by
    rw [State.inc_pwr, State.pb_pwr, State.p_pwr]
  unfold retryEnd
  rw [if_neg (by simp [hr])]
  dsimp only
  rw [hl]
  dsimp only
  unfold retried
  rw [← hp]
  rfl

theorem retried_spec : (retried r s).g PWR_STAT_ATTEMPT = (s.g PWR_STAT_ATTEMPT + 1) % 8 ∧
    (retried r s).on PWR_STAT_RETRY_WAIT = false ∧
    (retried r s).g (PWR_SLOT_CNT2_RETRY r) = min 65535 (s.g (PWR_SLOT_CNT2_RETRY r) + 1) := by
  have has : Clear PWR_STAT_ATTEMPT PWR_STAT_STEP := clear_const rfl
  have har : Clear PWR_STAT_ATTEMPT PWR_STAT_RETRY_WAIT := clear_const rfl
  have hrs : Clear PWR_STAT_RETRY_WAIT PWR_STAT_STEP := clear_const rfl
  have hac : Clear PWR_STAT_ATTEMPT (PWR_SLOT_CNT2_RETRY r) := clear_below rfl
  have hrc : Clear PWR_STAT_RETRY_WAIT (PWR_SLOT_CNT2_RETRY r) := clear_below rfl
  have hcs : Clear (PWR_SLOT_CNT2_RETRY r) PWR_STAT_STEP := clear_above rfl
  have hca : Clear (PWR_SLOT_CNT2_RETRY r) PWR_STAT_ATTEMPT := clear_above rfl
  have hcr : Clear (PWR_SLOT_CNT2_RETRY r) PWR_STAT_RETRY_WAIT := clear_above rfl
  unfold retried
  rw [setPwr_g, setPwr_on, setPwr_g, g_p_clear _ _ has, g_inc_clear _ hac, g_pb_clear _ _ har, on_p_clear _ _ hrs,
    on_inc_clear _ hrc, g_p_clear _ _ hcs]
  refine ⟨g_p_self _ _ _ (by decide), on_pb_same _ _ rfl, (g_inc_self (Nat.le_of_ble_eq_true rfl)).trans ?_⟩
  rw [g_pb_clear _ _ hcr, g_p_clear _ _ hca]
  rfl

/-- What the end of a retry delay comes to. -/
def Retried (r : Nat) (s t : State) : Prop :=
  t.pwr.pc = 0 ∧ t.pwr.wait = .none ∧ t.pwr.checkIn = true ∧ t.pwr.ledger = s.pwr.ledger ∧
  t.g PWR_STAT_ATTEMPT = (s.g PWR_STAT_ATTEMPT + 1) % 8 ∧ t.on PWR_STAT_RETRY_WAIT = false ∧
  t.g (PWR_SLOT_CNT2_RETRY r) = min 65535 (s.g (PWR_SLOT_CNT2_RETRY r) + 1)

theorem corrected_retried (hr : r < 32) (inst : Nat) : Retried r s (corrected 0x50 inst 5 0xFFFF (railNvm (retried r s)).fresh.2) := by
  obtain ⟨hatt, hwait, hcnt⟩ := retried_spec (r := r) (s := s)
  have hp : (retried r s).pwr = { s.pwr with pc := 0, wait := .none, checkIn := true } := rfl
  generalize retried r s = u at hatt hwait hcnt hp ⊢
  have hk : Kept (· = .pwr) (railNvm u) (corrected 0x50 inst 5 0xFFFF (railNvm u).fresh.2) :=
    kept_corrected (by decide) (by decide) (by decide) (by decide) (by decide) (by decide) (by decide) _ _ _ _
      (kept_State_fresh (by decide) (.refl _))
  have hlow : Alike Low (railNvm u) (corrected 0x50 inst 5 0xFFFF (railNvm u).fresh.2) :=
    low_corrected _ _ _ _ (Alike.of_regs (.refl _) ⟨rfl, rfl, rfl⟩)
  obtain ⟨_, _, _, hn⟩ := railNvm_pwr u
  unfold Retried
  rw [hk.pwrs rfl, hn, hp, hlow.g (f := PWR_STAT_ATTEMPT) (by unfold Low; decide), hlow.on (f := PWR_STAT_RETRY_WAIT) (by unfold Low; decide),
    railNvm_g, railNvm_on]
  have hr' : Low (PWR_SLOT_CNT2 r) := by
    unfold Low PWR_SLOT_CNT2 THM_TJ
    omega
  refine ⟨rfl, rfl, rfl, rfl, hatt, hwait, ?_⟩
  exact (hlow.g (f := PWR_SLOT_CNT2_RETRY r) hr').trans ((railNvm_g u _).trans hcnt)

end

/-- Settles O24: each happening is one operation of the sequencer, whose shutdowns wait for the last slot of the ledger. -/
theorem sequencerLedger : Obligations.SequencerLedger := by
  unfold Obligations.SequencerLedger
  intro s w q r o hlost hwait
  refine ⟨?enable, ?known, ?disable, ?drop, ?timeout, ?behind, ?retry, ?cleat, ?off, ?start, ?waitEnd, ?delayEnd⟩
  case enable =>
    intro hw hl
    refine .of_stay rfl hlost hwait (kept_seqEnable (by decide) (by decide) (.refl s)) ?_
    rw [seqEnable_new hw hl]
    have hin := setLedger_in (s := setEnable (w % 32) true (seqAt (s.pwr.pc + 1) s)) (l := s.pwr.ledger ++ [w % 32])
      (r := w % 32) (Nat.mod_lt _ (by decide))
    refine ⟨by rw [setLedger_pwr], ?_, hin.trans (by simp), by rw [setLedger_pwr, setEnable_true, setPwr_pwr, seqAt_pwr], ?_⟩
    · exact (on_eq_of_g (setLedger_g_stat (by decide))).trans setEnable_true_active
    · rw [setLedger_kept.outs (by decide), setEnable_kept.outs (by decide), seqAt_kept.outs (by decide)]
  case known =>
    intro hw hl
    refine .of_stay rfl hlost hwait (kept_seqEnable (by decide) (by decide) (.refl s)) ?_
    rw [seqEnable_known hw hl, seqAt_pwr]
    exact ⟨rfl, rfl, seqAt_only, seqAt_kept.outs (by decide)⟩
  case disable =>
    intro hw hm hg
    refine .of_stay rfl hlost hwait (kept_seqDisable (by decide) (by decide) (.refl s)) ?_
    obtain ⟨hgood, -, hactive, hledger, hpc, hwt, hout⟩ := seqTaken_spec hm
    rw [seqDisable_eq hw, hgood, hg, if_neg (by simp)]
    exact ⟨hledger, hactive, hpc, hwt.trans (seqWord_wait hw), hout⟩
  case drop =>
    intro hw hm hg ht
    refine .of_stay rfl hlost hwait (kept_seqDisable (by decide) (by decide) (.refl s)) ?_
    obtain ⟨hgood, htoff, hactive, hledger, hpc, -, hout⟩ := seqTaken_spec hm
    rw [seqDisable_eq hw, hgood, htoff, hg, if_pos ⟨rfl, ht⟩, setPwr_pwr, setPwr_on, setPwr_out]
    exact ⟨hledger, hactive, hpc, rfl, hout⟩
  case timeout =>
    intro hw hl hq hm hg ht
    refine .of_stay rfl hlost hwait (kept_waitgoodTimeout (by decide) (by decide) (by decide) (by decide) (by decide) (by decide)
      (by decide) (by decide) (by decide) (by decide) (by decide) (by decide) (by decide) (by decide) (by decide) (.refl s)) ?_
    rw [waitgoodTimeout_fails hw, stepFail_rise]
    exact failDown_rise ⟨hl, hm, hg, ht⟩ r.isLt
  case behind =>
    intro hw ho
    refine .of_stay rfl hlost hwait (kept_waitgoodTimeout (by decide) (by decide) (by decide) (by decide) (by decide) (by decide)
      (by decide) (by decide) (by decide) (by decide) (by decide) (by decide) (by decide) (by decide) (by decide) (.refl s)) ?_
    rw [waitgoodTimeout_behind hw ho, setPwr_g, setPwr_pwr, setPwr_out, State.inc_out]
    exact ⟨g_inc_self (Nat.le_of_ble_eq_true rfl), rfl, rfl, rfl,
      ((onlyRegs_refl _ s).inc (f := PWR_SLOT_CNT0_RISE_FAIL r) List.mem_cons_self).of_reg (setPwr_reg _ _)⟩
  case retry =>
    intro hw hl hst hd hn
    refine .of_stay rfl hlost hwait (slotDone_kept s) ?_
    have hn' : (lastGone s).g PWR_STAT_ATTEMPT < (lastGone s).pwr.n := by
      rw [lastGone_g (by decide), lastGone_pwr]
      exact hn
    have hd' : (lastGone s).pwr.down = some (.fail w o) := by rw [lastGone_pwr]; exact hd
    obtain ⟨hstate, hretry, hledger, hlast, hatt, hout⟩ := endDown_retry_spec hd' hn'
    rw [slotDone_last hw hl hst, downEnds_now (lastFailNow_fail hd' (.inr hn'))]
    exact ⟨hstate, hretry, hledger.trans (by rw [lastGone_pwr]), hlast, hatt.trans (lastGone_g (by decide)),
      hout.trans (lastGone_kept.outs (by decide))⟩
  case cleat =>
    intro hw hl hst hd hn hf
    refine .of_stay rfl hlost hwait (slotDone_kept s) ?_
    have hn' : (lastGone s).pwr.n ≤ (lastGone s).g PWR_STAT_ATTEMPT := by
      rw [lastGone_g (by decide), lastGone_pwr]
      exact hn
    have hd' : (lastGone s).pwr.down = some (.fail w o) := by rw [lastGone_pwr]; exact hd
    have hf' : (lastGone s).pwr.failAt ≠ some (lastGone s).clock := by
      rw [lastGone_pwr, lastGone_kept.clock]
      exact hf
    obtain ⟨hstate, hledger, hat⟩ := endDown_cleat_spec hd' hn'
    rw [slotDone_last hw hl hst, downEnds_now (lastFailNow_fail hd' (.inl hf'))]
    exact ⟨hstate, hledger.trans (by rw [lastGone_pwr]), hat.trans (by rw [lastGone_kept.clock])⟩
  case off =>
    intro hw hl hst hd
    refine .of_stay rfl hlost hwait (slotDone_kept s) ?_
    have hd' : (lastGone s).pwr.down = some .off := by rw [lastGone_pwr]; exact hd
    obtain ⟨hstate, hledger, hwt, hat, heng⟩ := endDown_off_spec hd'
    rw [slotDone_last hw hl hst, downEnds_now (lastFailNow_off hd')]
    rw [lastGone_engine] at heng
    exact ⟨hstate, hledger.trans (by rw [lastGone_pwr]), hwt, hat.trans (by rw [lastGone_kept.clock]), heng⟩
  case start =>
    intro hh ho ht
    refine .of_stay rfl hlost hwait (kept_onRequestStart (by decide) (by decide) (.refl s)) ?_
    rw [onRequestStart_starts hh ho ht]
    obtain ⟨hstate, hpc, hatt, hheld, hout, honly⟩ := startUp_spec (s := s.pb PWR_STAT_VIN_LOW false)
    rw [State.pb_out] at hout
    exact ⟨hstate, hpc, hatt, hheld, hout, ((onlyRegs_refl _ s).pb _ _ (by decide)).trans honly⟩
  case waitEnd =>
    intro hw
    refine .of_stay rfl hlost hwait (kept_seqWaitEnd (by decide) (.refl s)) ?_
    rw [seqWaitEnd, if_pos hw, setPwr_pwr, setPwr_out]
    exact ⟨rfl, rfl, rfl, rfl⟩
  case delayEnd =>
    intro hr hl
    refine .of_stay rfl hlost hwait (kept_retryEnd (by decide) (by decide) (by decide) (by decide) (by decide) (by decide)
      (by decide) (by decide) (by decide) (.refl s)) ?_
    rw [retryEnd_eq hr hl]
    exact corrected_retried r.isLt _

end Sys2Proof.Machine
end

section
/-!
PROOFS. Rail supervision (spec/14_power_supervision.md R313-R315, R322): good inputs, and what a droop or an overvoltage of a
rail comes to by the power state.
-/

namespace Sys2Proof.Machine

open Reg

set_option Elab.async false

/-! ## A rail that fails -/

section
variable {s : State} {cause code r q : Nat} {k : Fin 5}

/-- The rail's count and the failure shown. -/
def railStruck (cause : Nat) (k : Fin 5) (r : Nat) (s : State) : State := railFailed cause r (s.inc (railCnt r k))

theorem clear_cnt {f : Fld} (h : f.off ∉ cntRegs r) : Clear f (railCnt r k) :=
  ⟨railCnt_width k, .inl fun e => h (e ▸ railCnt_off k)⟩

theorem slotStat_notMem_cntRegs (x : Nat) : PWR_SLOT_STAT x ∉ cntRegs r := by
  simp only [cntRegs, List.mem_cons, List.not_mem_nil, or_false, PWR_SLOT_STAT, PWR_SLOT_CNT0, PWR_SLOT_CNT1, PWR_SLOT_CNT2]
  omega

theorem slotCfg_notMem_cntRegs (x : Nat) : PWR_SLOT_CFG x ∉ cntRegs r := by
  simp only [cntRegs, List.mem_cons, List.not_mem_nil, or_false, PWR_SLOT_CFG, PWR_SLOT_CNT0, PWR_SLOT_CNT1, PWR_SLOT_CNT2]
  omega

theorem below_notMem_cntRegs {off : Nat} (h : off < 0x100800) : off ∉ cntRegs r := by
  simp only [cntRegs, List.mem_cons, List.not_mem_nil, or_false, PWR_SLOT_CNT0, PWR_SLOT_CNT1, PWR_SLOT_CNT2]
  omega

theorem railStruck_kept : Kept (fun p => p ≠ .regs) s (railStruck cause k r s) :=
  (kept_State_inc (by decide) _ (.refl s)).trans (railFailed_kept cause)

theorem railStruck_g {f : Fld} (h : f.off ≠ PWR_STAT) (hc : f.off ∉ cntRegs r) : (railStruck cause k r s).g f = s.g f :=
  (railFailed_g h).trans (g_inc_clear _ (clear_cnt hc))

theorem railStruck_cnt : (railStruck cause k r s).g (railCnt r k) = min 65535 (s.g (railCnt r k) + 1) := by
  have hoff := railCnt_off (r := r) k
  refine (railFailed_g ?_).trans ((g_inc_self (railCnt_width k)).trans ?_)
  · simp only [cntRegs, List.mem_cons, List.not_mem_nil, or_false, PWR_SLOT_CNT0, PWR_SLOT_CNT1, PWR_SLOT_CNT2] at hoff
    unfold PWR_STAT
    omega
  · fin_cases k <;> rfl

theorem slotStat_ne_stat (x : Nat) : PWR_SLOT_STAT x ≠ PWR_STAT := by
  unfold PWR_SLOT_STAT PWR_STAT
  omega

theorem slotCfg_ne_stat (x : Nat) : PWR_SLOT_CFG x ≠ PWR_STAT := by
  unfold PWR_SLOT_CFG PWR_STAT
  omega

theorem Drops.struck (h : Drops s q) : Drops (railStruck cause k r s) q :=
  h.of_same (by rw [railStruck_kept.pwrs (by decide)]) (railStruck_kept.same .rig (by decide))
    (railStruck_g (slotStat_ne_stat q) (slotStat_notMem_cntRegs q)) (railStruck_g (slotCfg_ne_stat q) (slotCfg_notMem_cntRegs q))

/-- A rail's failure raised as an error of its slot. -/
def railRaised (cause code : Nat) (k : Fin 5) (r : Nat) (s : State) : State :=
  raise { sev := Sev.regionFatal, cls := 0x50, inst := r, code := code } (railStruck cause k r s)

theorem raise_power (e : ErrIn) (s : State) : Kept (fun p => p = .pwr ∨ p = .rig) s (raise e s) :=
  kept_raise (by decide) (by decide) (by decide) (by decide) (by decide) (by decide) (by decide) (by decide) (by decide) (by decide)
    (by decide) (by decide) (by decide) (by decide) e (.refl s)

theorem railRaised_low : Alike Low (railStruck cause k r s) (railRaised cause code k r s) := low_raise (.refl _) (classRegion_lt 0x50)

theorem railRaised_power : Kept (fun p => p = .pwr ∨ p = .rig) s (railRaised cause code k r s) :=
  have hs : Kept (fun p => p = .pwr ∨ p = .rig) s (railStruck cause k r s) :=
    { railStruck_kept (s := s) with same := fun p hp => railStruck_kept.same p (by rcases hp with rfl | rfl <;> decide) }
  hs.trans (raise_power _ _)

theorem low_slotStat (h : r < 32) : Low (PWR_SLOT_STAT r) := by
  unfold Low PWR_SLOT_STAT THM_TJ
  omega

theorem low_slotCfg (h : r < 32) : Low (PWR_SLOT_CFG r) := by
  unfold Low PWR_SLOT_CFG THM_TJ
  omega

theorem low_cnt (h : r < 32) (k : Fin 5) : Low (railCnt r k).off := by
  have hoff := railCnt_off (r := r) k
  simp only [cntRegs, List.mem_cons, List.not_mem_nil, or_false, PWR_SLOT_CNT0, PWR_SLOT_CNT1, PWR_SLOT_CNT2] at hoff
  unfold Low THM_TJ
  omega

theorem Drops.raised (h : Drops s q) (hq : q < 32) : Drops (railRaised cause code k r s) q :=
  have hs := h.struck (cause := cause) (k := k) (r := r)
  have hk : Kept (fun p => p = .pwr ∨ p = .rig) (railStruck cause k r s) (railRaised cause code k r s) := raise_power _ _
  hs.of_same (by rw [hk.pwrs (.inl rfl)]) (hk.same .rig (.inr rfl)) (railRaised_low.g (low_slotStat hq)) (railRaised_low.g (low_slotCfg hq))

/-- What the failure of rail `r` comes to where slot `q` is the last of the ledger: the count and the failure shown, and
slot `q` shutting down. -/
structure RailLost (cause : Nat) (k : Fin 5) (r q : Nat) (d : Option Down) (s t : State) : Prop where
  cnt : t.g (railCnt r k) = min 65535 (s.g (railCnt r k) + 1)
  cause : t.g PWR_STAT_FAIL_CAUSE = cause
  slot : t.g PWR_STAT_FAIL_SLOT = r
  named : t.on PWR_STAT_NO_SLOT = false
  state : pwState t = Pw.downSeq
  wait : t.pwr.wait = .drop q
  active : t.on (PWR_SLOT_STAT_ACTIVE q) = false
  down : t.pwr.down = d
  ovHigh : t.pwr.ovHigh = s.pwr.ovHigh.filter (· != q)
  qualified : r ≠ q → t.on (PWR_SLOT_STAT_QUALIFIED r) = s.on (PWR_SLOT_STAT_QUALIFIED r)

theorem slotStat_notMem_enableRegs (h : r ≠ q) : PWR_SLOT_STAT r ∉ enableRegs q := by
  simp only [enableRegs, List.mem_cons, List.not_mem_nil, or_false, PWR_SLOT_STAT, PWR_EN, PWR_GOOD]
  omega

/-- A shutdown from a state that shows the failure. -/
theorem railLost_of {u t : State} {d : Option Down} (hd : Dropping d q u t) (hr : r < 32) (hc : cause < 16)
    (hlow : Alike Low (railStruck cause k r s) u) (hov : u.pwr.ovHigh = s.pwr.ovHigh) : RailLost cause k r q d s t := by
  obtain ⟨hcause, hslot, hno⟩ := railFailed_shown (s := s.inc (railCnt r k)) hr hc
  have hstat : Low PWR_STAT := by unfold Low; decide
  refine ⟨?_, ?_, ?_, ?_, hd.state, hd.wait, hd.active, hd.down, hd.ovHigh.trans (congrArg _ hov), fun hne => ?_⟩
  · exact (hd.cnt k).trans ((hlow.g (low_cnt hr k)).trans railStruck_cnt)
  · exact (hd.stat (by decide)).trans ((hlow.g (f := PWR_STAT_FAIL_CAUSE) hstat).trans hcause)
  · exact (hd.stat (by decide)).trans ((hlow.g (f := PWR_STAT_FAIL_SLOT) hstat).trans hslot)
  · exact (on_eq_of_g (hd.stat (by decide))).trans ((hlow.on (f := PWR_STAT_NO_SLOT) hstat).trans hno)
  · have hkeep : t.g (PWR_SLOT_STAT_QUALIFIED r) = u.g (PWR_SLOT_STAT_QUALIFIED r) :=
      hd.g _ (slotStat_notMem_enableRegs hne) (clear_above rfl) (clear_above rfl)
    refine on_eq_of_g (hkeep.trans ((hlow.g (f := PWR_SLOT_STAT_QUALIFIED r) (low_slotStat hr)).trans ?_))
    exact railStruck_g (slotStat_ne_stat r) (slotStat_notMem_cntRegs r)

theorem inc_state : pwState (s.inc (railCnt r k)) = pwState s := g_inc_clear _ (clear_cnt (below_notMem_cntRegs (by decide)))

theorem railStruck_state : pwState (railStruck cause k r s) = pwState s := by
  have hc : Clear PWR_STAT_STATE PWR_STAT_FAIL_CAUSE := clear_const rfl
  have hsl : Clear PWR_STAT_STATE PWR_STAT_FAIL_SLOT := clear_const rfl
  have hn : Clear PWR_STAT_STATE PWR_STAT_NO_SLOT := clear_const rfl
  unfold railStruck railFailed pwState
  rw [g_pb_clear _ _ hn, g_p_clear _ _ hsl, g_p_clear _ _ hc]
  exact inc_state

/-- With the power ON the rail's error is an off request's shutdown. -/
theorem railFault_on_eq (hl : s.pwr.ledger.contains r = true) (hst : pwState s = Pw.on) :
    railFault cause code k r s = beginDown .off (railRaised cause code k r s) := by
  unfold railFault
  dsimp only
  rw [State.inc_pwr, hl, if_neg (by decide), inc_state, hst, if_neg (by decide), if_pos rfl]
  rfl

theorem railFault_on (h : Drops s q) (hq : q < 32) (hr : r < 32) (hc : cause < 16) (hl : s.pwr.ledger.contains r = true)
    (hst : pwState s = Pw.on) : RailLost cause k r q (some .off) s (railFault cause code k r s) := by
  have hd := dropping_beginDown .off (h.raised (cause := cause) (code := code) (k := k) (r := r) hq)
  rw [ite_self] at hd
  rw [railFault_on_eq hl hst]
  exact railLost_of hd hr hc railRaised_low (by rw [railRaised_power.pwrs (.inl rfl)])

/-- In UP_SEQ it is a step failure. -/
theorem railFault_up (h : Drops s q) (hr : r < 32) (hc : cause < 16) (hc1 : cause ≠ 1) (hl : s.pwr.ledger.contains r = true)
    (hst : pwState s = Pw.upSeq) (hdown : s.pwr.down = none) :
    RailLost cause k r q (some (.fail cause (some r))) s (railFault cause code k r s) ∧ (railFault cause code k r s).out = s.out := by
  have hd := dropping_failDown (.fail cause (some r)) (h.struck (cause := cause) (k := k) (r := r))
  have hpwr : (railStruck cause k r s).pwr = s.pwr := railStruck_kept.pwrs (by decide)
  have he : railFault cause code k r s = failDown (.fail cause (some r)) (railStruck cause k r s) := by
    unfold railFault
    dsimp only
    rw [State.inc_pwr, hl, if_neg (by decide), inc_state, hst, if_pos rfl, stepFail_rail hc1]
    rfl
  rw [hpwr, hdown, if_neg nofun] at hd
  rw [he]
  exact ⟨railLost_of hd hr hc (.refl _) (by rw [hpwr]), hd.out.trans (railStruck_kept.outs (by decide))⟩

/-- In DOWN_SEQ it is counted only. -/
theorem railFault_counted (hst : pwState s = Pw.downSeq) : railFault cause code k r s = s.inc (railCnt r k) := by
  unfold railFault
  dsimp only
  split
  · rfl
  · rw [inc_state, hst, if_neg (by decide), if_neg (by decide)]

theorem inc_cnt (k : Fin 5) : (s.inc (railCnt r k)).g (railCnt r k) = min 65535 (s.g (railCnt r k) + 1) := by
  refine (g_inc_self (railCnt_width k)).trans ?_
  fin_cases k <;> rfl

/-! ## The only rail of the ledger -/

/-- The shutdown of a ledger of one slot whose good input is low already. -/
def soleGone (r : Nat) (s : State) : State := setLedger [] (setEnable r false (downBegun .off s))

theorem setEnable_false : setEnable r false s = slotQual r false (setPwr { s.pwr with
    glitch := s.pwr.glitch.filter (· != r), ovHigh := s.pwr.ovHigh.filter (· != r) } (enableGood r false s)) := by
  have hp : (enableGood r false s).pwr = s.pwr := by
    unfold enableGood enableShown
    split <;> rfl
  rw [← hp]
  rfl

theorem setEnable_low (hg : s.on (PWR_SLOT_STAT_GOOD r) = false) : (setEnable r false s).on (PWR_SLOT_STAT_GOOD r) = false ∧
    (setEnable r false s).on (PWR_SLOT_STAT_ACTIVE r) = false := by
  have hga : Clear (PWR_SLOT_STAT_GOOD r) (PWR_SLOT_STAT_ACTIVE r) := clear_inst rfl
  have hag : Clear (PWR_SLOT_STAT_ACTIVE r) (PWR_SLOT_STAT_GOOD r) := clear_inst rfl
  have hqual {f : Fld} (t : State) (hq : Clear f (PWR_SLOT_STAT_QUALIFIED r)) (ho : f.off = PWR_SLOT_STAT r) :
      (slotQual r false t).on f = t.on f := on_eq_of_g (slotQual_stat hq (stat_ne_en f ho).2)
  have hgood : (enableGood r false s).on (PWR_SLOT_STAT_GOOD r) = false := by
    unfold enableGood
    split
    · exact (on_eq_of_g (enableShown_stat hga (stat_ne_en (r := r) _ rfl).1)).trans hg
    · exact on_pb_same _ _ rfl
  have hactive : (enableGood r false s).on (PWR_SLOT_STAT_ACTIVE r) = false := by
    unfold enableGood
    split
    · exact enableShown_active
    · exact (on_pb_clear _ _ hag).trans enableShown_active
  rw [setEnable_false]
  exact ⟨(hqual _ (clear_inst rfl) rfl).trans hgood, (hqual _ (clear_inst rfl) rfl).trans hactive⟩

theorem setEnable_power (b : Bool) : (setEnable r b s).pwr =
    { s.pwr with glitch := s.pwr.glitch.filter (· != r), ovHigh := s.pwr.ovHigh.filter (· != r) } := by
  cases b with
  | false => rw [setEnable_false, slotQual_pwr, setPwr_pwr]
  | true => rw [setEnable_true, setPwr_pwr]

theorem shutStep_empty (n : Nat) (h : s.pwr.ledger = []) : shutStep n s = downEnds s := by
  cases n with
  | zero => rfl
  | succ n =>
    unfold shutStep
    rw [h]
    rfl

theorem shutStep_sole (n : Nat) (hl : s.pwr.ledger = [r]) (hg : s.on (PWR_SLOT_STAT_GOOD r) = false) :
    shutStep (n + 1) s = downEnds (setLedger [] (setEnable r false s)) := by
  have hledger : (setEnable r false s).pwr.ledger.dropLast = [] := by rw [setEnable_power, hl, List.dropLast_singleton]
  unfold shutStep
  rw [hl, List.getLast?_singleton]
  dsimp only
  rw [(setEnable_low hg).1, if_neg (by simp), hledger]
  exact shutStep_empty n (by rw [setLedger_pwr])

theorem beginDown_sole (hst : pwState s = Pw.on) (hl : s.pwr.ledger = [r]) (hg : s.on (PWR_SLOT_STAT_GOOD r) = false) :
    beginDown .off s = endDown (soleGone r s) := by
  have hgood : (downBegun .off s).on (PWR_SLOT_STAT_GOOD r) = false :=
    (on_eq_of_g (downBegun_g .off (clear_above rfl) (clear_above rfl))).trans hg
  have hdown : (soleGone r s).pwr.down = some .off := by
    unfold soleGone
    rw [setLedger_pwr, setEnable_power]
    exact ite_self _
  rw [beginDown_eq, hst, if_neg (by decide), shutStep_sole (s := downBegun .off s) 31 hl hgood]
  exact downEnds_now (lastFailNow_off hdown)

theorem soleGone_off : pwState (endDown (soleGone r s)) = Pw.off ∧ (endDown (soleGone r s)).pwr.ledger = [] ∧
    (endDown (soleGone r s)).pwr.downAt = some s.clock := by
  have hdown : (soleGone r s).pwr.down = some .off := by
    unfold soleGone
    rw [setLedger_pwr, setEnable_power]
    exact ite_self _
  have hclock : (soleGone r s).clock = s.clock := (setLedger_kept.clock).trans (setEnable_kept.clock)
  obtain ⟨hstate, hledger, -, hat, -⟩ := endDown_off_spec hdown
  refine ⟨hstate, hledger.trans ?_, hat.trans (by rw [hclock])⟩
  unfold soleGone
  rw [setLedger_pwr]

theorem endDown_off_g {f : Fld} (hd : s.pwr.down = some .off) (hs : Clear f PWR_STAT_STATE) (he : Clear f REP_STAT_ENGINE) :
    (endDown s).g f = s.g f := by
  rw [endDown_off hd, railNvm_g]
  unfold reachOff State.setEngine
  dsimp only
  split
  · rw [g_p_clear _ _ he, g_p_clear _ _ hs]
    rfl
  · rw [g_p_clear _ _ hs]
    rfl

theorem soleGone_down : (soleGone r s).pwr.down = some .off := by
  unfold soleGone
  rw [setLedger_pwr, setEnable_power]
  exact ite_self _

theorem soleGone_g {f : Fld} (hf : f.off ∉ enableRegs r) (hs : Clear f PWR_STAT_STATE) (hr : Clear f PWR_STAT_RETRY_WAIT)
    (hl : ∀ t : State, (setLedger [] t).g f = t.g f) : (soleGone r s).g f = s.g f :=
  (hl _).trans ((setEnable_g hf).trans (downBegun_g .off hs hr))

/-- The fields of PWR_STAT above the power state. -/
theorem soleGone_stat {lo w : Nat} (hlo : 4 ≤ lo) : (endDown (soleGone r s)).g ⟨PWR_STAT, lo, w⟩ = s.g ⟨PWR_STAT, lo, w⟩ := by
  have hs : Clear ⟨PWR_STAT, lo, w⟩ PWR_STAT_STATE := ⟨by decide, .inr (.inr ((show 3 ≤ 4 by decide).trans hlo))⟩
  have hr : Clear ⟨PWR_STAT, lo, w⟩ PWR_STAT_RETRY_WAIT := ⟨by decide, .inr (.inr hlo)⟩
  have he : Clear ⟨PWR_STAT, lo, w⟩ REP_STAT_ENGINE := ⟨by decide, .inl (by dsimp only; decide)⟩
  refine (endDown_off_g soleGone_down hs he).trans (soleGone_g ?_ hs hr fun t => setLedger_g_below (by dsimp only; decide))
  simp only [enableRegs, List.mem_cons, List.not_mem_nil, or_false, PWR_STAT, PWR_SLOT_STAT, PWR_EN, PWR_GOOD]
  omega

theorem soleGone_cnt {x : Nat} (hx : x < 32) (k : Fin 5) : (endDown (soleGone r s)).g (railCnt x k) = s.g (railCnt x k) := by
  have hoff := railCnt_off (r := x) k
  simp only [cntRegs, List.mem_cons, List.not_mem_nil, or_false, PWR_SLOT_CNT0, PWR_SLOT_CNT1, PWR_SLOT_CNT2] at hoff
  have hne (y : Nat) : (railCnt x k).off ≠ PWR_SLOT_STAT y := by
    unfold PWR_SLOT_STAT
    omega
  have hlow {off : Nat} (h : off < 0x100808 ∨ 0x101000 ≤ off) : (railCnt x k).off ≠ off := by omega
  have hs : Clear (railCnt x k) PWR_STAT_STATE := ⟨by decide, .inl (hlow (.inl (by decide)))⟩
  have hr : Clear (railCnt x k) PWR_STAT_RETRY_WAIT := ⟨by decide, .inl (hlow (.inl (by decide)))⟩
  have he : Clear (railCnt x k) REP_STAT_ENGINE := ⟨by decide, .inl (hlow (.inr (by decide)))⟩
  refine (endDown_off_g soleGone_down hs he).trans (soleGone_g ?_ hs hr fun t => setLedger_g (fun y => ⟨inLedger_width y, .inl (hne y)⟩) ?_)
  · simp only [enableRegs, List.mem_cons, List.not_mem_nil, or_false, not_or]
    exact ⟨hne r, hlow (.inl (by decide)), hlow (.inl (by decide))⟩
  · intro i hi
    exact hlow (.inl (by unfold PWR_LEDGER; omega))

theorem soleGone_active (hg : s.on (PWR_SLOT_STAT_GOOD r) = false) :
    (endDown (soleGone r s)).on (PWR_SLOT_STAT_ACTIVE r) = false := by
  have hgood : (downBegun .off s).on (PWR_SLOT_STAT_GOOD r) = false :=
    (on_eq_of_g (downBegun_g .off (clear_above rfl) (clear_above rfl))).trans hg
  have hs : Clear (PWR_SLOT_STAT_ACTIVE r) PWR_STAT_STATE := clear_above rfl
  have hact : (setEnable r false (downBegun .off s)).on (PWR_SLOT_STAT_ACTIVE r) = false := (setEnable_low hgood).2
  have he : Clear (PWR_SLOT_STAT_ACTIVE r) REP_STAT_ENGINE := ⟨by decide, .inl (by
    unfold PWR_SLOT_STAT_ACTIVE PWR_SLOT_STAT REP_STAT_ENGINE REP_STAT
    dsimp only
    omega)⟩
  exact (on_eq_of_g ((endDown_off_g soleGone_down hs he).trans (setLedger_g_stat (by decide)))).trans hact

end

/-! ## A droop -/

section
variable {s : State} {r q : Nat} {b : Bool}

/-- The rail no longer qualified, its glitch filter ended. -/
def drooped (r : Nat) (s : State) : State :=
  slotQual r false (setPwr { s.pwr with glitch := s.pwr.glitch.filter (· != r) } s)

theorem railDroop_eq (hg : s.pwr.glitch.contains r = true) (ha : s.on (PWR_SLOT_STAT_ACTIVE r) = true) :
    railDroop r s = railFault 3 1 2 r (drooped r s) := if_pos ⟨hg, ha⟩

theorem drooped_pwr : (drooped r s).pwr = { s.pwr with glitch := s.pwr.glitch.filter (· != r) } := by
  unfold drooped
  rw [slotQual_pwr, setPwr_pwr]

theorem drooped_g {f : Fld} (hq : Clear f (PWR_SLOT_STAT_QUALIFIED r)) (hg : f.off ≠ PWR_GOOD) : (drooped r s).g f = s.g f :=
  (slotQual_stat hq hg).trans (setPwr_g _ _ _)

theorem slotQual_on : (slotQual r b s).on (PWR_SLOT_STAT_QUALIFIED r) = b := by
  have hgood : Clear (PWR_SLOT_STAT_QUALIFIED r) PWR_GOOD_QUAL := clear_above rfl
  unfold slotQual
  rw [on_p_clear _ _ hgood]
  exact on_pb_same _ _ rfl

theorem slotQual_only : OnlyRegs [PWR_SLOT_STAT r, PWR_GOOD] s (slotQual r b s) :=
  ((onlyRegs_refl _ s).pb _ _ (by simp [PWR_SLOT_STAT_QUALIFIED])).p _ _ (by simp [PWR_GOOD_QUAL])

theorem slotQual_kept : Kept (fun p => p ≠ .regs) s (slotQual r b s) := kept_slotQual (by decide) r b (.refl s)

theorem drooped_kept : Kept (fun p => p ≠ .regs ∧ p ≠ .pwr) s (drooped r s) :=
  kept_slotQual (by decide) r false (kept_setPwr (by decide) _ (.refl s))

theorem drooped_state : pwState (drooped r s) = pwState s := drooped_g (clear_below rfl) (by decide)

theorem Drops.drooped (h : Drops s q) : Drops (drooped r s) q := by
  refine h.of_same (by rw [drooped_pwr]) (drooped_kept.same .rig (by decide)) (drooped_g ?_ ?_) (drooped_g ?_ ?_)
  · exact ⟨Nat.le_of_ble_eq_true rfl, .inr (.inl (Nat.le_of_ble_eq_true rfl))⟩
  · unfold PWR_SLOT_STAT_GOOD PWR_SLOT_STAT PWR_GOOD
    dsimp only
    omega
  · refine ⟨Nat.le_of_ble_eq_true rfl, .inl ?_⟩
    unfold PWR_SLOT_CFG_TOFF PWR_SLOT_CFG PWR_SLOT_STAT_QUALIFIED PWR_SLOT_STAT
    dsimp only
    omega
  · unfold PWR_SLOT_CFG_TOFF PWR_SLOT_CFG PWR_GOOD
    dsimp only
    omega

theorem railDroop_down (hg : s.pwr.glitch.contains r = true) (ha : s.on (PWR_SLOT_STAT_ACTIVE r) = true)
    (hst : pwState s = Pw.downSeq) : railDroop r s = (drooped r s).inc (PWR_SLOT_CNT1_DROOP r) :=
  (railDroop_eq hg ha).trans (railFault_counted (k := 2) (drooped_state.trans hst))

theorem drooped_cnt (k : Fin 5) : (drooped r s).g (railCnt r k) = s.g (railCnt r k) := by
  have hoff := railCnt_off (r := r) k
  simp only [cntRegs, List.mem_cons, List.not_mem_nil, or_false, PWR_SLOT_CNT0, PWR_SLOT_CNT1, PWR_SLOT_CNT2] at hoff
  refine drooped_g ⟨Nat.le_of_ble_eq_true rfl, .inl ?_⟩ ?_
  · unfold PWR_SLOT_STAT_QUALIFIED PWR_SLOT_STAT
    dsimp only
    omega
  · unfold PWR_GOOD
    omega

/-! ## Good inputs -/

theorem railQualified_cases (ha : s.on (PWR_SLOT_STAT_ACTIVE r) = true) (hg : s.on (PWR_SLOT_STAT_GOOD r) = true)
    (hq : s.on (PWR_SLOT_STAT_QUALIFIED r) = false) : ∃ u, railQualified r s = setPwr u (slotQual r true s) := by
  unfold railQualified
  rw [if_pos ⟨ha, hg, by simp [hq]⟩]
  dsimp only
  split
  · exact ⟨_, rfl⟩
  · exact ⟨(slotQual r true s).pwr, rfl⟩

theorem slotQual_bit (hr : r < 32) : bitsOf ((slotQual r true s).g PWR_GOOD_QUAL) r 1 = 1 := by
  have hlt : bitsPut (s.g PWR_GOOD_QUAL) r 1 1 < 2 ^ 32 := bitsPut_lt _ _ _ _ _ (g_lt s PWR_GOOD_QUAL) (by omega)
  have hq : (slotQual r true s).g PWR_GOOD_QUAL = bitsPut (s.g PWR_GOOD_QUAL) r 1 1 :=
    (g_p_self _ _ _ (by decide)).trans (Nat.mod_eq_of_lt hlt)
  rw [hq]
  exact bitsOf_bitsPut_self _ _ _ _

/-- The level of RSr_PG as it was last seen. -/
theorem pgLevel_eq : pgLevel r b s = setPwr { s.pwr with pg := (r, b) :: s.pwr.pg.filter fun p => p.1 != r } s := rfl

theorem pgRise_eq (hm : s.mapped 0x50 r 1 = true) : pgRise r s =
    setPwr { (pgLevel r (s.on (PWR_SLOT_CFG_PG_POL r)) s).pwr with glitch := s.pwr.glitch.filter (· != r) }
      ((pgLevel r (s.on (PWR_SLOT_CFG_PG_POL r)) s).pb (PWR_SLOT_STAT_GOOD r) true) := by
  unfold pgRise
  rw [if_pos hm]
  rfl

/-- The good input low, the level of the ball seen. -/
def goodLow (r : Nat) (s : State) : State := (pgLevel r (!s.on (PWR_SLOT_CFG_PG_POL r)) s).pb (PWR_SLOT_STAT_GOOD r) false

theorem goodLow_g {f : Fld} (h : Clear f (PWR_SLOT_STAT_GOOD r)) : (goodLow r s).g f = s.g f := by
  unfold goodLow
  rw [g_pb_clear _ _ h, pgLevel_eq, setPwr_g]

theorem goodLow_good : (goodLow r s).on (PWR_SLOT_STAT_GOOD r) = false := on_pb_same _ _ rfl

theorem goodLow_only : OnlyRegs [PWR_SLOT_STAT r] s (goodLow r s) := by
  have hp : OnlyRegs [PWR_SLOT_STAT r] s (pgLevel r (!s.on (PWR_SLOT_CFG_PG_POL r)) s) := onlyRegs_refl _ s
  exact hp.pb _ _ (by simp [PWR_SLOT_STAT_GOOD])

theorem goodLow_pwr : ∃ l, (goodLow r s).pwr = { s.pwr with pg := l } := ⟨_, rfl⟩

theorem goodLow_out : (goodLow r s).out = s.out := rfl

theorem pgDrop_eq (hm : s.mapped 0x50 r 1 = true) (ha : s.on (PWR_SLOT_STAT_ACTIVE r) = true)
    (hg : s.on (PWR_SLOT_STAT_GOOD r) = true) : pgDrop r s = if s.on (PWR_SLOT_STAT_QUALIFIED r) then
      setPwr { (goodLow r s).pwr with glitch := (goodLow r s).pwr.glitch ++ [r] } (goodLow r s) else (goodLow r s).inc (railCnt r 1) := by
  have hact : (goodLow r s).on (PWR_SLOT_STAT_ACTIVE r) = true := (on_eq_of_g (goodLow_g (clear_inst rfl))).trans ha
  have hqual : (goodLow r s).on (PWR_SLOT_STAT_QUALIFIED r) = s.on (PWR_SLOT_STAT_QUALIFIED r) :=
    on_eq_of_g (goodLow_g (clear_inst rfl))
  have hlevel : (pgLevel r (!s.on (PWR_SLOT_CFG_PG_POL r)) s).on (PWR_SLOT_STAT_GOOD r) = true := by rw [pgLevel_eq, setPwr_on, hg]
  unfold pgDrop railDrop
  rw [if_pos hm, hlevel, if_neg (by decide)]
  dsimp only
  rw [show (pgLevel r (!s.on (PWR_SLOT_CFG_PG_POL r)) s).pb (PWR_SLOT_STAT_GOOD r) false = goodLow r s from rfl, hact, hqual,
    if_neg (by decide)]

/-! ## Overvoltage samples -/

/-- What the samples before said of a rail, forgotten. -/
def ovForgot (r : Nat) (s : State) : State := setPwr { s.pwr with ovHigh := s.pwr.ovHigh.filter (· != r) } s

theorem filter_ne_contains (l : List Nat) : (l.filter (· != r)).contains r = false := by
  simp

theorem filter_filter_contains (l : List Nat) (q : Nat) : ((l.filter (· != r)).filter (· != q)).contains r = false := by
  simp

section
variable {code : Nat} (hov : s.on (PWR_SLOT_CFG_OV_EN r) = true) (hact : s.on (PWR_SLOT_STAT_ACTIVE r) = true)
include hov hact

theorem railOv_low (hc : code ≤ s.g (PWR_SLOT_CFG_OV_CODE r)) : railOv r code s = ovForgot r s := by
  unfold railOv
  rw [if_neg (by simp [hov, hact])]
  exact if_pos hc

theorem railOv_first (hc : s.g (PWR_SLOT_CFG_OV_CODE r) < code) (hw : s.pwr.ovHigh.contains r = false) : railOv r code s =
    setPwr { (ovForgot r s).pwr with ovHigh := (ovForgot r s).pwr.ovHigh ++ [r] } (ovForgot r s) := by
  unfold railOv
  rw [if_neg (by simp [hov, hact])]
  dsimp only
  rw [if_neg (Nat.not_le.mpr hc), hw, if_neg (by decide)]
  rfl

theorem railOv_again (hc : s.g (PWR_SLOT_CFG_OV_CODE r) < code) (hw : s.pwr.ovHigh.contains r = true) :
    railOv r code s = railFault 4 3 3 r (ovForgot r s) := by
  unfold railOv
  rw [if_neg (by simp [hov, hact])]
  dsimp only
  rw [if_neg (Nat.not_le.mpr hc), hw, if_pos rfl]
  rfl

theorem railOv_down (hc : s.g (PWR_SLOT_CFG_OV_CODE r) < code) (hw : s.pwr.ovHigh.contains r = true) (hst : pwState s = Pw.downSeq) :
    railOv r code s = (ovForgot r s).inc (PWR_SLOT_CNT1_OVERV r) :=
  (railOv_again hov hact hc hw).trans (railFault_counted (s := ovForgot r s) (k := 3) hst)

end

theorem Drops.ovForgot (h : Drops s q) : Drops (ovForgot r s) q := h.of_same rfl rfl rfl rfl

end

/-- Settles O25: a good input's two turns, and a failure of a rail of the ledger by the power state. -/
theorem railSupervision : Obligations.RailSupervision := by
  unfold Obligations.RailSupervision
  intro s r code q hlost hwait
  have droops {P : State → Prop} (h : P (railDroop r s)) : Does (.railDroop r) s P :=
    .of_stay rfl hlost hwait (kept_railDroop (by decide) (by decide) (by decide) (by decide) (by decide) (by decide) (by decide)
      (by decide) (by decide) (by decide) (by decide) (by decide) (by decide) (by decide) (by decide) _ (.refl s)) h
  have samples {P : State → Prop} (h : P (railOv r code.toNat s)) : Does (.railOvSample r code) s P :=
    .of_stay rfl hlost hwait (kept_railOv (by decide) (by decide) (by decide) (by decide) (by decide) (by decide) (by decide)
      (by decide) (by decide) (by decide) (by decide) (by decide) (by decide) (by decide) (by decide) _ _ (.refl s)) h
  refine ⟨?qualified, ?rise, ?drop, ?chatter, ?droopOn, ?droopSole, ?droopUp, ?droopDown, ?ovOn, ?ovUp, ?ovDown, ?ovFirst, ?ovLow⟩
  case qualified =>
    intro ha hg hq
    refine .of_stay rfl hlost hwait (kept_railQualified (by decide) (by decide) _ (.refl s)) ?_
    obtain ⟨u, he⟩ := railQualified_cases ha hg hq
    rw [he, setPwr_on, setPwr_g]
    exact ⟨slotQual_on, slotQual_bit r.isLt, slotQual_only.of_reg (setPwr_reg _ _)⟩
  case rise =>
    intro hm
    refine .of_stay rfl hlost hwait (kept_pgRise (by decide) (by decide) _ (.refl s)) ?_
    rw [pgRise_eq hm, setPwr_on, setPwr_pwr, setPwr_out, State.pb_out]
    refine ⟨on_pb_same _ _ rfl, rfl, rfl, rfl, ?_⟩
    have hp : OnlyRegs [PWR_SLOT_STAT r] s (pgLevel r (s.on (PWR_SLOT_CFG_PG_POL r)) s) := onlyRegs_refl _ s
    exact (hp.pb _ _ (by simp [PWR_SLOT_STAT_GOOD])).of_reg (setPwr_reg _ _)
  case drop =>
    intro hm ha hg hq
    refine .of_stay rfl hlost hwait (kept_pgDrop (by decide) (by decide) _ (.refl s)) ?_
    obtain ⟨_, hp⟩ := goodLow_pwr (r := r.val) (s := s)
    rw [pgDrop_eq hm ha hg, hq, if_pos rfl, setPwr_on, setPwr_pwr, setPwr_out, hp]
    exact ⟨goodLow_good, rfl, goodLow_out, goodLow_only.of_reg (setPwr_reg _ _)⟩
  case chatter =>
    intro hm ha hg hq
    refine .of_stay rfl hlost hwait (kept_pgDrop (by decide) (by decide) _ (.refl s)) ?_
    have hclear : Clear (PWR_SLOT_STAT_GOOD r) (railCnt r 1) := clear_inst rfl
    obtain ⟨_, hp⟩ := goodLow_pwr (r := r.val) (s := s)
    rw [pgDrop_eq hm ha hg, hq, if_neg (by decide), on_inc_clear _ hclear, State.inc_pwr, State.inc_out, hp]
    have hcnt : (goodLow r s).g (PWR_SLOT_CNT0_CHATTER r) = s.g (PWR_SLOT_CNT0_CHATTER r) := goodLow_g (clear_inst rfl)
    refine ⟨goodLow_good, (inc_cnt 1).trans ?_, rfl, goodLow_out, ?_⟩
    · exact congrArg (fun n => min 65535 (n + 1)) hcnt
    · have hmono : OnlyRegs [PWR_SLOT_STAT r, PWR_SLOT_CNT0 r] s (goodLow r s) := fun off ho =>
        goodLow_only off (List.not_mem_cons_of_ne_of_not_mem (List.ne_of_not_mem_cons ho) List.not_mem_nil)
      exact hmono.inc (f := PWR_SLOT_CNT0_CHATTER r) (by simp [PWR_SLOT_CNT0_CHATTER])
  case droopOn =>
    intro hgl ha hl hst hdown hne hlast hq hm hg ht
    refine droops ?_
    have hd := (Drops.drooped (r := r.val) ⟨hlast, hm, hg, ht⟩)
    have hlost := railFault_on (cause := 3) (code := 1) (k := 2) hd hq r.isLt (by decide) (by rw [drooped_pwr]; exact hl)
      (drooped_state.trans hst)
    rw [railDroop_eq hgl ha]
    exact ⟨hlost.cnt.trans (by rw [drooped_cnt]; rfl), hlost.cause, hlost.slot, hlost.named, hlost.state, hlost.wait, hlost.active,
      hlost.down, (hlost.qualified (Ne.symm hne)).trans slotQual_on⟩
  case droopSole =>
    intro hgl ha hl hst _ hsole hgood
    refine droops ?_
    have hlow : Alike Low (railStruck 3 2 r (drooped r s)) (railRaised 3 1 2 r (drooped r s)) := railRaised_low
    have hpwr : (railRaised 3 1 2 r (drooped r s)).pwr = (drooped r s).pwr := railRaised_power.pwrs (.inl rfl)
    have hstat : Low PWR_STAT := by unfold Low; decide
    have hgood' : (railRaised 3 1 2 r (drooped r s)).on (PWR_SLOT_STAT_GOOD r) = false := by
      refine (hlow.on (f := PWR_SLOT_STAT_GOOD r) (low_slotStat r.isLt)).trans ?_
      rw [on_eq_of_g (railStruck_g (f := PWR_SLOT_STAT_GOOD r) (slotStat_ne_stat r) (slotStat_notMem_cntRegs r))]
      exact (on_eq_of_g (drooped_g (clear_inst rfl) (stat_ne_en (r := r) _ rfl).2)).trans hgood
    have hon : pwState (railRaised 3 1 2 r (drooped r s)) = Pw.on :=
      (hlow.g (f := PWR_STAT_STATE) hstat).trans (railStruck_state.trans (drooped_state.trans hst))
    have he : railDroop r s = endDown (soleGone r (railRaised 3 1 2 r (drooped r s))) := by
      rw [railDroop_eq hgl ha, ← beginDown_sole hon (by rw [hpwr, drooped_pwr, hsole]) hgood']
      exact railFault_on_eq (k := 2) (by rw [drooped_pwr]; exact hl) (drooped_state.trans hst)
    obtain ⟨hstate, hledger, hat⟩ := soleGone_off (r := r) (s := railRaised 3 1 2 r (drooped r s))
    obtain ⟨hcause, hslot, -⟩ := railFailed_shown (s := (drooped r s).inc (railCnt r (2 : Fin 5))) r.isLt (show 3 < 16 by decide)
    rw [he]
    refine ⟨?_, ?_, ?_, hstate, hledger, hat.trans ?_, soleGone_active hgood'⟩
    · refine (soleGone_cnt r.isLt 2).trans ((hlow.g (low_cnt r.isLt 2)).trans (railStruck_cnt.trans ?_))
      rw [drooped_cnt]
      rfl
    · exact (soleGone_stat (by decide)).trans ((hlow.g (f := PWR_STAT_FAIL_CAUSE) hstat).trans hcause)
    · exact (soleGone_stat (by decide)).trans ((hlow.g (f := PWR_STAT_FAIL_SLOT) hstat).trans hslot)
    · rw [railRaised_power.clock, drooped_kept.clock]
  case droopUp =>
    intro hgl ha hl hst hdown hne hlast hq hm hg ht
    refine droops ?_
    have hd := (Drops.drooped (r := r.val) ⟨hlast, hm, hg, ht⟩)
    obtain ⟨hlost, hout⟩ := railFault_up (cause := 3) (code := 1) (k := 2) hd r.isLt (by decide) (by decide)
      (by rw [drooped_pwr]; exact hl) (drooped_state.trans hst) (by rw [drooped_pwr]; exact hdown)
    rw [railDroop_eq hgl ha]
    exact ⟨hlost.cnt.trans (by rw [drooped_cnt]; rfl), hlost.cause, hlost.slot, hlost.named, hlost.state, hlost.wait, hlost.active,
      hlost.down, (hlost.qualified (Ne.symm hne)).trans slotQual_on, hout.trans (drooped_kept.outs (by decide))⟩
  case droopDown =>
    intro hgl ha hl hst
    refine droops ?_
    have hclear : Clear (PWR_SLOT_STAT_QUALIFIED r) (PWR_SLOT_CNT1_DROOP r) := clear_inst rfl
    rw [railDroop_down hgl ha hst, State.inc_pwr, State.inc_out, drooped_pwr, on_inc_clear _ hclear]
    refine ⟨(inc_cnt 2).trans (by rw [drooped_cnt]; rfl), rfl, rfl, rfl, drooped_kept.outs (by decide), ?_, slotQual_on⟩
    have hbase : OnlyRegs [PWR_SLOT_STAT r, PWR_GOOD, PWR_SLOT_CNT1 r] s (drooped r s) := fun off ho =>
      (slotQual_only off fun hm => ho (List.mem_append_left [PWR_SLOT_CNT1 r] hm)).trans (setPwr_reg _ _ _)
    exact hbase.inc (f := PWR_SLOT_CNT1_DROOP r) (by simp [PWR_SLOT_CNT1_DROOP])
  case ovOn =>
    intro hov ha hc hw hl hst hdown hlast hq hm hg ht
    refine samples ?_
    have hd := (Drops.ovForgot (r := r.val) ⟨hlast, hm, hg, ht⟩)
    have hlost := railFault_on (cause := 4) (code := 3) (k := 3) hd hq r.isLt (by decide) hl hst
    rw [railOv_again hov ha hc hw]
    refine ⟨hlost.cnt, hlost.cause, hlost.slot, hlost.named, hlost.state, hlost.wait, hlost.active, hlost.down,
      (congrArg (fun l => l.contains r.val) hlost.ovHigh).trans (filter_filter_contains _ q)⟩
  case ovUp =>
    intro hov ha hc hw hl hst hdown hlast hq hm hg ht
    refine samples ?_
    have hd := (Drops.ovForgot (r := r.val) ⟨hlast, hm, hg, ht⟩)
    obtain ⟨hlost, hout⟩ := railFault_up (cause := 4) (code := 3) (k := 3) hd r.isLt (by decide) (by decide) hl hst hdown
    rw [railOv_again hov ha hc hw]
    refine ⟨hlost.cnt, hlost.cause, hlost.slot, hlost.named, hlost.state, hlost.wait, hlost.active, hlost.down,
      (congrArg (fun l => l.contains r.val) hlost.ovHigh).trans (filter_filter_contains _ q), hout⟩
  case ovDown =>
    intro hov ha hc hw hl hst
    refine samples ?_
    have hbase : OnlyRegs [PWR_SLOT_CNT1 r] s (ovForgot r s) := fun off _ => setPwr_reg _ _ off
    rw [railOv_down hov ha hc hw hst, State.inc_pwr, State.inc_out]
    exact ⟨inc_cnt 3, rfl, rfl, rfl, rfl, hbase.inc (f := PWR_SLOT_CNT1_OVERV r) List.mem_cons_self, filter_ne_contains _⟩
  case ovFirst =>
    intro hov ha hc hw
    refine samples ?_
    rw [railOv_first hov ha hc hw, setPwr_pwr]
    exact ⟨by simp, rfl⟩
  case ovLow =>
    intro hov ha hc
    refine samples ?_
    rw [railOv_low hov ha hc]
    exact ⟨filter_ne_contains _, rfl⟩

end Sys2Proof.Machine
end

section
/-!
PROOFS. Sag and the stay save (spec/14_power_supervision.md R324-R328): what a trip saves and stops, the shadow, and the end of a
save.
-/

namespace Sys2Proof.Machine

open Reg

set_option Elab.async false

theorem Kept.rigs {K : Piece → Prop} {s t : State} (h : Kept K s t) (hk : K .rig) : t.rig = s.rig := h.same .rig hk

/-! ## The record body -/

/-- The registers from the time counter up. -/
def Above (off : Nat) : Prop := 0x104000 ≤ off

section
variable {s t : State}

theorem stayCtx_congr (hp : t.psq = s.psq) (hc : t.ctx = s.ctx) (h : Alike Above s t) (c : Nat) : stayCtx t c = stayCtx s c := by
  have hz {off : Nat} (ho : 0x401000 ≤ off) : Above off := by unfold Above; omega
  have hreg {off : Nat} (ho : 0x401000 ≤ off) : t.reg off = s.reg off := h off (hz ho)
  have hstate : ∀ lo w, t.g ⟨PCTX_STATE c, lo, w⟩ = s.g ⟨PCTX_STATE c, lo, w⟩ := fun lo w =>
    h.g (hz (by unfold PCTX_STATE; dsimp only; omega))
  unfold stayCtx ctxState State.ctxU
  rw [hp, hc, hreg (off := PCTX_ORG_LO c) (by unfold PCTX_ORG_LO; omega), hreg (off := PCTX_ORG_HI c) (by unfold PCTX_ORG_HI; omega),
    hreg (off := PCTX_SHEET c) (by unfold PCTX_SHEET; omega), PCTX_STATE_STATE, hstate, PCTX_STATE_CAUSE, hstate,
    PCTX_STATE_STN_MASK, hstate, PCTX_STATE_STN_DONE, hstate, PCTX_STATE_MODE, hstate, PCTX_STATE_AT_DELIV, hstate]

theorem stayStn_congr (hn : t.stn = s.stn) (h : Alike Above s t) (n : Nat) : stayStn t n = stayStn s n := by
  have hg {f : Fld} (ho : 0x1000000 ≤ f.off) : t.g f = s.g f := h.g (by unfold Above; omega)
  unfold stayStn State.stnU
  rw [hn, hg (f := STN_STAT_CONTEXT n) (by unfold STN_STAT_CONTEXT STN_STAT; dsimp only; omega),
    hg (f := STN_STAT_OCCUPIED n) (by unfold STN_STAT_OCCUPIED STN_STAT; dsimp only; omega),
    hg (f := STN_HEAD_DARK n) (by unfold STN_HEAD_DARK STN_HEAD; dsimp only; omega),
    hg (f := STN_BASE_BASE n) (by unfold STN_BASE_BASE STN_BASE; dsimp only; omega)]

/-- The record body says nothing of the chip's, the power's, the sensors' and the clocks' registers. -/
theorem stayBody_congr (hp : t.psq = s.psq) (hc : t.ctx = s.ctx) (hn : t.stn = s.stn) (hl : t.pwr.ledger = s.pwr.ledger)
    (h : Alike Above s t) : stayBody t = stayBody s := by
  have hg {f : Fld} (ho : 0x104000 ≤ f.off) : t.g f = s.g f := h.g ho
  unfold stayBody cmdRate cmdPasses
  rw [hp, hl, hg (f := PSQ_SPEED_RATE) (by decide), hg (f := PSQ_SPEED_PASSES) (by decide), hg (f := TIME_DISC_COUNT) (by decide),
    funext (stayStn_congr hn h), funext (stayCtx_congr hp hc h)]

end

/-! ## Programming that a sag aborts -/

section
variable {s : State}

/-- The registers that the abort of programming may write. -/
def Programmed (off : Nat) : Prop := off = CHIP_RIGSTAT ∨ 0x111000 ≤ off ∧ off < 0x112000

/-- Every register but those, and the reset that waits, stand. -/
structure Aborts (s t : State) : Prop where
  regs : Alike (¬ Programmed ·) s t
  wait : t.rig.resetWait = s.rig.resetWait

theorem Aborts.trans {t u : State} (h : Aborts s t) (k : Aborts t u) : Aborts s u := ⟨h.regs.trans k.regs, k.wait.trans h.wait⟩

theorem Aborts.refl (s : State) : Aborts s s := ⟨.refl s, rfl⟩

theorem aborts_otpUse (i : Nat) (w : List Nat) (b : Bool) : Aborts s (otpUse i w b s) := ⟨Alike.of_regs (.refl s) ⟨rfl, rfl, rfl⟩, rfl⟩

theorem aborts_p {f : Fld} (v : Nat) (h : Programmed f.off) : Aborts s (s.p f v) :=
  ⟨(Alike.refl s).p v (not_not.mpr h), congrArg RigU.resetWait (State.p_rig _ _ _)⟩

theorem aborts_csetSync : Aborts s (csetSync s) where
  regs := by
    have hno {off : Nat} (h : 0x111000 ≤ off) (h' : off < 0x112000) : ¬ ¬ Programmed off := not_not.mpr (.inr ⟨h, h'⟩)
    unfold csetSync
    refine Alike.overN (((Alike.pb (.refl s) _ (hno (by decide) (by decide))).p _ (hno (by decide) (by decide))).p _
      (hno (by decide) (by decide))) fun n t hn ht => ht.setReg _ (hno ?_ ?_)
    · unfold CSET_VAL
      omega
    · unfold CSET_VAL
      omega
  wait := congrArg RigU.resetWait (csetSync_kept.rigs (by simp))

theorem aborts_csetTear : Aborts s (csetTear s) := by
  unfold csetTear
  split
  · exact (aborts_otpUse _ _ _).trans ((aborts_p _ (.inr ⟨by decide, by decide⟩)).trans aborts_csetSync)
  · exact .refl s

theorem aborts_storeTear : Aborts s (storeTear s) := by
  unfold storeTear
  split
  · exact ⟨Alike.of_regs (.refl s) ⟨rfl, rfl, rfl⟩, rfl⟩
  · exact .refl s

theorem aborts_loadRestore : Aborts s (loadRestore s) :=
  ⟨(loadRestore_only s).alike.mono fun off hn hm => hn (.inl (List.mem_singleton.mp hm)), by rw [loadRestore_rig]⟩

/-- A setting under way torn. -/
def progTorn (s : State) : State := match s.rig.prog with | some _ => (csetTear s).p CSET_STAT_RESULT 4 | none => s

theorem aborts_progTorn : Aborts s (progTorn s) := by
  unfold progTorn
  split
  · exact aborts_csetTear.trans (aborts_p _ (.inr ⟨by decide, by decide⟩))
  · exact .refl s

theorem abortProgramming_eq : abortProgramming s =
    match (progTorn s).rig.storing with | some _ => loadRestore (storeTear (progTorn s)) | none => progTorn s := rfl

/-- The abort of programming leaves every other register, and the reset that waits. -/
theorem aborts_abortProgramming : Aborts s (abortProgramming s) := by
  rw [abortProgramming_eq]
  split
  · exact aborts_progTorn.trans (aborts_storeTear.trans aborts_loadRestore)
  · exact aborts_progTorn

end

/-! ## A sag -/

section
variable {s : State} {vin vstay : Nat}

/-- The inputs at the trip, and the trip no longer armed. -/
def sagShown (vin vstay : Nat) (s : State) : State :=
  (((s.p PWR_VIN_VIN vin).p PWR_VIN_VSTAY vstay).pb PWR_STAT_VIN_LOW true).pb PWR_STAT_SAG_ARMED false

/-- The save of a trip begun. -/
def sagSaved (vin vstay : Nat) (s : State) : State := saveBegin 1 (tripBehind (sagShown vin vstay s))

/-- The engine stopped where it runs, the outputs forced where it does not. -/
def sagStopped (s : State) : State := if s.running then hardStop Cause.reef s else forceOutputs s

/-- What is left of a trip once the engine has stopped. -/
def sagEnded (s : State) : State := corrected 0x50 ((abortProgramming s).fresh.1 % 256) 6 0xFFFF (abortProgramming s).fresh.2

theorem sagTrip_eq (h : s.on PWR_STAT_SAG_ARMED = true) : sagTrip vin vstay s = sagEnded (sagStopped (sagSaved vin vstay s)) := by
  unfold sagTrip
  rw [if_neg (by simp [h])]
  rfl

theorem sagShown_kept : Kept (· ≠ .regs) s (sagShown vin vstay s) :=
  kept_State_pb (by decide) _ _ (kept_State_pb (by decide) _ _ (kept_State_p (by decide) _ _ (kept_State_p (by decide) _ _ (.refl s))))

theorem sagShown_only : OnlyRegs [PWR_STAT, PWR_VIN] s (sagShown vin vstay s) :=
  ((((onlyRegs_refl _ s).p _ _ (by decide)).p _ _ (by decide)).pb _ _ (by decide)).pb _ _ (by decide)

theorem sagShown_spec : (sagShown vin vstay s).on PWR_STAT_VIN_LOW = true ∧ (sagShown vin vstay s).on PWR_STAT_SAG_ARMED = false ∧
    (sagShown vin vstay s).g PWR_VIN_VIN = vin % 2 ^ 16 ∧ (sagShown vin vstay s).g PWR_VIN_VSTAY = vstay % 2 ^ 16 := by
  have hla : Clear PWR_STAT_VIN_LOW PWR_STAT_SAG_ARMED := clear_const rfl
  have hva : Clear PWR_VIN_VIN PWR_STAT_SAG_ARMED := clear_const rfl
  have hvl : Clear PWR_VIN_VIN PWR_STAT_VIN_LOW := clear_const rfl
  have hvs : Clear PWR_VIN_VIN PWR_VIN_VSTAY := clear_const rfl
  have hsa : Clear PWR_VIN_VSTAY PWR_STAT_SAG_ARMED := clear_const rfl
  have hsl : Clear PWR_VIN_VSTAY PWR_STAT_VIN_LOW := clear_const rfl
  unfold sagShown
  rw [on_pb_clear _ _ hla, g_pb_clear _ _ hva, g_pb_clear _ _ hvl, g_p_clear _ _ hvs, g_pb_clear _ _ hsa, g_pb_clear _ _ hsl]
  exact ⟨on_pb_same _ _ rfl, on_pb_same _ _ rfl, g_p_self _ _ _ (by decide), g_p_self _ _ _ (by decide)⟩

theorem tripBehind_kept : Kept (· ≠ .thm) s (tripBehind s) := kept_tripBehind (by decide) (.refl s)

/-- The save of a trip: of cause 1, of the body as it stood, its registers shown. -/
theorem sagSaved_spec : (∃ v : Save, (sagSaved vin vstay s).pwr = { s.pwr with save := some v } ∧ v.cause = 1 ∧ v.body = stayBody s) ∧
    (sagSaved vin vstay s).on PWR_STAT_VIN_LOW = true ∧ (sagSaved vin vstay s).on PWR_STAT_SAG_ARMED = false ∧
    (sagSaved vin vstay s).on PWR_STAT_SAVING = true ∧ (sagSaved vin vstay s).g PWR_VIN_VIN = vin % 2 ^ 16 ∧
    (sagSaved vin vstay s).g PWR_VIN_VSTAY = vstay % 2 ^ 16 ∧ (sagSaved vin vstay s).engine = s.engine ∧
    (sagSaved vin vstay s).rig = s.rig := by
  have hk : Kept (fun p => p ≠ .regs ∧ p ≠ .thm) s (tripBehind (sagShown vin vstay s)) :=
    kept_tripBehind (by decide) (kept_State_pb (by decide) _ _ (kept_State_pb (by decide) _ _
      (kept_State_p (by decide) _ _ (kept_State_p (by decide) _ _ (.refl s)))))
  have hb : Kept (· ≠ .thm) (sagShown vin vstay s) (tripBehind (sagShown vin vstay s)) := tripBehind_kept
  have hg (f : Fld) : (tripBehind (sagShown vin vstay s)).g f = (sagShown vin vstay s).g f :=
    g_eq_of_regs f ⟨hb.part, hb.rev, hb.same .regs (by decide)⟩
  obtain ⟨hlow, harmed, hvin, hvstay⟩ := sagShown_spec (s := s) (vin := vin) (vstay := vstay)
  have hengine : (tripBehind (sagShown vin vstay s)).engine = s.engine :=
    (hg _).trans (sagShown_only.alike.g (f := REP_STAT_ENGINE) (by decide))
  have habove : Alike Above s (tripBehind (sagShown vin vstay s)) := fun off ho =>
    (reg_congr hb.part hb.rev (hb.same .regs (by decide)) off).trans (sagShown_only off (by
      simp only [List.mem_cons, List.not_mem_nil, or_false, PWR_STAT, PWR_VIN]
      unfold Above at ho
      omega))
  have hbody : stayBody (tripBehind (sagShown vin vstay s)) = stayBody s :=
    stayBody_congr (hk.same .psq (by decide)) (hk.same .ctx (by decide)) (hk.same .stn (by decide)) (by rw [hk.pwrs (by decide)]) habove
  unfold sagSaved
  have hsl : Clear PWR_STAT_VIN_LOW PWR_STAT_SAVING := clear_const rfl
  have hsa : Clear PWR_STAT_SAG_ARMED PWR_STAT_SAVING := clear_const rfl
  refine ⟨⟨saveOf 1 (tripBehind (sagShown vin vstay s)), ?_, rfl, hbody⟩, ?_, ?_, saveBegin_saving _ _, ?_, ?_, ?_, ?_⟩
  · rw [saveBegin_pwr, hk.pwrs (by decide)]
  · exact (on_eq_of_g (saveBegin_g _ _ hsl)).trans ((on_eq_of_g (hg _)).trans hlow)
  · exact (on_eq_of_g (saveBegin_g _ _ hsa)).trans ((on_eq_of_g (hg _)).trans harmed)
  · exact (saveBegin_g _ _ (clear_const rfl)).trans ((hg _).trans hvin)
  · exact (saveBegin_g _ _ (clear_const rfl)).trans ((hg _).trans hvstay)
  · exact (saveBegin_g _ _ (clear_const rfl)).trans hengine
  · rw [saveBegin_eq, setPwr_rig, State.pb_rig, hk.rigs (by decide)]

end

/-- A register that neither an error's record nor the abort of programming may write. -/
def Told (off : Nat) : Prop := Aside off ∧ ¬ Programmed off

theorem told_power {off : Nat} (h : 0x100000 ≤ off) (h' : off < 0x102000) : Told off ∧ Low off := by
  unfold Told Aside Programmed Low THM_TJ CHIP_RIGSTAT
  omega

section
variable (s : State)

theorem sagEnded_told : Alike Told s (sagEnded s) := by
  have ha : Alike Told s (abortProgramming s).fresh.2 := Alike.of_regs (aborts_abortProgramming.regs.mono fun _ h => h.2) ⟨rfl, rfl, rfl⟩
  exact ha.trans ((aside_corrected _ _ _ _ (.refl _)).mono fun _ h => h.1)

theorem corrected_power (cls inst code cell : Nat) : Kept (fun p => p = .pwr ∨ p = .rig) s (corrected cls inst code cell s) :=
  kept_corrected (by decide) (by decide) (by decide) (by decide) (by decide) (by decide) (by decide) _ _ _ _ (.refl s)

theorem sagEnded_pwr : (sagEnded s).pwr = s.pwr := by
  have hk : Kept (· = .pwr) s (abortProgramming s).fresh.2 :=
    kept_State_fresh (by decide) (kept_abortProgramming (by decide) (by decide) (by decide) (.refl s))
  exact ((corrected_power _ _ _ _ _).pwrs (.inl rfl)).trans (hk.pwrs rfl)

theorem sagEnded_wait : (sagEnded s).rig.resetWait = s.rig.resetWait := by
  have hk : Kept (· = .rig) (abortProgramming s) (abortProgramming s).fresh.2 := kept_State_fresh (by decide) (.refl _)
  have hr : (sagEnded s).rig = (abortProgramming s).rig := ((corrected_power _ _ _ _ _).rigs (.inr rfl)).trans (hk.rigs rfl)
  rw [hr, aborts_abortProgramming.wait]

theorem modHv_g (j : Nat) (f : Hv → Hv) (k : Fld) : (modHv j f s).g k = s.g k := rfl

theorem hvConfirmStart_engine (j : Nat) : (hvConfirmStart j s).engine = s.engine := by
  have hclear : Clear REP_STAT_ENGINE (HV_STAT_DSC_PEND j) := clear_below rfl
  exact (modHv_g _ _ _ _).trans (g_pb_clear _ _ hclear)

theorem forceOutputs_engine : (forceOutputs s).engine = s.engine := by
  have hforced : Clear REP_STAT_ENGINE ILK_STAT_FORCED := clear_const rfl
  unfold forceOutputs
  refine overN_keeps (P := fun t => t.engine = s.engine) 8 _ (fun n t _ ht => ?_) _ ?_
  · exact (sendDark_g (n := n) 1 (clear_below rfl)).trans ht
  · refine overN_keeps (P := fun t => t.engine = s.engine) 8 _ (fun k t _ ht => ?_) _ ?_
    · split
      · have hk := kept_gateLow (K := (· = .regs)) (by decide) (by decide) k (.refl t)
        exact (g_eq_of_regs _ ⟨hk.part, hk.rev, hk.same .regs rfl⟩).trans ht
      · exact ht
    · exact overN_keeps (P := fun t => t.engine = s.engine) 32 _ (fun j t _ ht => (hvConfirmStart_engine t j).trans ht) _
        (g_pb_clear _ _ hforced)

theorem sagStopped_power : Kept (fun p => p = .pwr ∨ p = .rig) s (sagStopped s) := by
  unfold sagStopped
  split
  · exact kept_hardStop (by decide) (by decide) (by decide) (by decide) (by decide) (by decide) (by decide) (by decide) (by decide) _
      (.refl s)
  · exact kept_forceOutputs (by decide) (by decide) (by decide) (by decide) (.refl s)

theorem sagStopped_low : Alike Low s (sagStopped s) := by
  unfold sagStopped
  exact .ite (low_hardStop _ (.refl s)) (low_forceOutputs (.refl s))

theorem sagStopped_shows : (sagStopped s).on ILK_STAT_FORCED = true ∧
    (sagStopped s).engine = if s.running then Eng.hardstop else s.engine := by
  unfold sagStopped
  split
  · exact hardStop_shows s _
  · exact ⟨forceOutputs_forced s, forceOutputs_engine s⟩

end

/-- What a sag trip comes to. -/
def SagTripped (vin vstay : Nat) (s t : State) : Prop :=
  t.pwr.save.map (·.cause) = some 1 ∧ t.pwr.slotA = s.pwr.slotA ∧ t.pwr.slotB = s.pwr.slotB ∧ t.on PWR_STAT_VIN_LOW = true ∧
  t.on PWR_STAT_SAG_ARMED = false ∧ t.on PWR_STAT_SAVING = true ∧ t.g PWR_VIN_VIN = vin ∧ t.g PWR_VIN_VSTAY = vstay ∧
  t.pwr.save.map (·.body) = some (stayBody s) ∧ t.engine = (if s.running then Eng.hardstop else s.engine) ∧ t.on ILK_STAT_FORCED = true

theorem sagTripped {s : State} {vin vstay : Nat} (hv : vin < 2 ^ 16) (hs : vstay < 2 ^ 16) (h : s.on PWR_STAT_SAG_ARMED = true) :
    SagTripped vin vstay s (sagTrip vin vstay s) := by
  obtain ⟨⟨v, hpwr, hcause, hbody⟩, hlow, harmed, hsaving, hvin, hvstay, hengine, -⟩ := sagSaved_spec (s := s) (vin := vin) (vstay := vstay)
  have hrun : (sagSaved vin vstay s).running = s.running := by
    unfold State.running
    rw [hengine]
  rw [sagTrip_eq h]
  generalize sagSaved vin vstay s = u at hpwr hlow harmed hsaving hvin hvstay hengine hrun ⊢
  obtain ⟨hforced, heng⟩ := sagStopped_shows u
  have hp : (sagEnded (sagStopped u)).pwr = { s.pwr with save := some v } := by
    rw [sagEnded_pwr, (sagStopped_power u).pwrs (.inl rfl), hpwr]
  have hstat {lo w : Nat} : (sagEnded (sagStopped u)).g ⟨PWR_STAT, lo, w⟩ = u.g ⟨PWR_STAT, lo, w⟩ :=
    ((sagEnded_told _).g (told_power (off := PWR_STAT) (by decide) (by decide)).1).trans
      ((sagStopped_low u).g (told_power (off := PWR_STAT) (by decide) (by decide)).2)
  have hin {lo w : Nat} : (sagEnded (sagStopped u)).g ⟨PWR_VIN, lo, w⟩ = u.g ⟨PWR_VIN, lo, w⟩ :=
    ((sagEnded_told _).g (told_power (off := PWR_VIN) (by decide) (by decide)).1).trans
      ((sagStopped_low u).g (told_power (off := PWR_VIN) (by decide) (by decide)).2)
  have htold (f : Fld) (hf : Told f.off) : (sagEnded (sagStopped u)).g f = (sagStopped u).g f := (sagEnded_told _).g hf
  unfold SagTripped
  rw [hp]
  refine ⟨congrArg some hcause, rfl, rfl, (on_eq_of_g hstat).trans hlow, (on_eq_of_g hstat).trans harmed,
    (on_eq_of_g hstat).trans hsaving, hin.trans (hvin.trans (Nat.mod_eq_of_lt hv)), hin.trans (hvstay.trans (Nat.mod_eq_of_lt hs)),
    congrArg some hbody, ?_, ?_⟩
  · rw [← hrun, ← hengine]
    exact (htold REP_STAT_ENGINE ⟨by unfold Aside; decide, by unfold Programmed; decide⟩).trans heng
  · exact (on_eq_of_g (htold ILK_STAT_FORCED ⟨by unfold Aside; decide, by unfold Programmed; decide⟩)).trans hforced

theorem sagTrip_wait {s : State} {vin vstay : Nat} (h : s.on PWR_STAT_SAG_ARMED = true) :
    (sagTrip vin vstay s).rig.resetWait = s.rig.resetWait := by
  obtain ⟨-, -, -, -, -, -, -, hrig⟩ := sagSaved_spec (s := s) (vin := vin) (vstay := vstay)
  rw [sagTrip_eq h, sagEnded_wait, (sagStopped_power _).rigs (.inr rfl), hrig]

/-! ## The end of a save -/

section
variable {s : State} {v : Save} {q : Nat}

section
variable (a b : Option (List Byte)) (seq : Nat) (newest tj : Bool) (s : State)

theorem staySlots_pwr : (staySlots a b seq newest tj s).pwr = { s.pwr with slotA := a, slotB := b, save := none } := by
  unfold staySlots
  rw [State.pb_pwr, State.pb_pwr, State.p_pwr, State.pb_pwr, State.pb_pwr, setPwr_pwr]

theorem staySlots_only : OnlyRegs [PWR_STAT, PWR_STAY, PWR_STAYSTAT] s (staySlots a b seq newest tj s) := by
  have hsave : OnlyRegs [PWR_STAT, PWR_STAY, PWR_STAYSTAT] s
      (setPwr { s.pwr with slotA := a, slotB := b, save := none } (s.pb PWR_STAT_SAVING false)) :=
    ((onlyRegs_refl _ s).pb _ _ (by decide)).of_reg (setPwr_reg _ _)
  unfold staySlots
  exact (((((hsave.pb _ _ (by decide)).pb _ _ (by decide)).p _ _ (by decide)).pb _ _ (by decide)).pb _ _ (by decide))

theorem staySlots_out : (staySlots a b seq newest tj s).out = s.out := by
  unfold staySlots
  rw [State.pb_out, State.pb_out, State.p_out, State.pb_out, State.pb_out, setPwr_out, State.pb_out]

theorem staySlots_seq : (staySlots a b seq newest tj s).g PWR_STAY_SEQ = seq % 2 ^ 32 := by
  have hn : Clear PWR_STAY_SEQ PWR_STAYSTAT_NEWEST_B := clear_const rfl
  have ht : Clear PWR_STAY_SEQ PWR_STAYSTAT_TJ_OUT := clear_const rfl
  unfold staySlots
  rw [g_pb_clear _ _ ht, g_pb_clear _ _ hn]
  exact g_p_self _ _ _ (by decide)

theorem staySlots_newest : (staySlots a b seq newest tj s).on PWR_STAYSTAT_NEWEST_B = newest := by
  have ht : Clear PWR_STAYSTAT_NEWEST_B PWR_STAYSTAT_TJ_OUT := clear_const rfl
  unfold staySlots
  rw [on_pb_clear _ _ ht]
  exact on_pb_same _ _ rfl

theorem staySlots_saving : (staySlots a b seq newest tj s).on PWR_STAT_SAVING = false := by
  have ha : Clear PWR_STAT_SAVING PWR_STAYSTAT_A_VALID := clear_const rfl
  have hb : Clear PWR_STAT_SAVING PWR_STAYSTAT_B_VALID := clear_const rfl
  have hs : Clear PWR_STAT_SAVING PWR_STAY_SEQ := clear_const rfl
  have hn : Clear PWR_STAT_SAVING PWR_STAYSTAT_NEWEST_B := clear_const rfl
  have ht : Clear PWR_STAT_SAVING PWR_STAYSTAT_TJ_OUT := clear_const rfl
  unfold staySlots
  rw [on_pb_clear _ _ ht, on_pb_clear _ _ hn, on_p_clear _ _ hs, on_pb_clear _ _ hb, on_pb_clear _ _ ha, setPwr_on]
  exact on_pb_same _ _ rfl

end

/-- What ended a save changes of the record that waited for it. -/
theorem tripFollow_kept (power : Bool) (s : State) : Kept (· ≠ .thm) s (tripFollow power s) := kept_tripFollow (by decide) _ (.refl s)

theorem tripFollow_g (power : Bool) (s : State) (f : Fld) : (tripFollow power s).g f = s.g f :=
  have hk := tripFollow_kept power s
  g_eq_of_regs f ⟨hk.part, hk.rev, hk.same .regs (by decide)⟩

theorem reg_tripFollow (power : Bool) (s : State) (off : Nat) : (tripFollow power s).reg off = s.reg off :=
  have hk := tripFollow_kept power s
  reg_congr hk.part hk.rev (hk.same .regs (by decide)) off

/-- The record in its slot. -/
def slotWritten (v : Save) (s : State) : State :=
  staySlots (if saveToA s then some (stayRecord s v ((s.g PWR_STAY_SEQ + 1) % 2 ^ 32)) else s.pwr.slotA)
    (if saveToA s then s.pwr.slotB else some (stayRecord s v ((s.g PWR_STAY_SEQ + 1) % 2 ^ 32)))
    ((s.g PWR_STAY_SEQ + 1) % 2 ^ 32) (!saveToA s) (saveTjOut v) s

/-- The save counted, and a trip's record that waited put behind it. -/
def saveCounted (s : State) : State :=
  tripFollow true (setPwr { s.pwr with saves := s.pwr.saves + 1, lastAborted := false } (s.inc PWR_SAG_SAVES))

theorem staySaveDone_eq (h : s.pwr.save = some v) : staySaveDone s =
    if v.cause = 1 then offRequest (saveCounted (slotWritten v s)) else saveCounted (slotWritten v s) := by
  unfold staySaveDone
  rw [h]
  rfl

theorem saveCounted_pwr (s : State) : (saveCounted s).pwr = { s.pwr with saves := s.pwr.saves + 1, lastAborted := false } := by
  unfold saveCounted
  rw [(tripFollow_kept _ _).pwrs (by decide), setPwr_pwr]

theorem saveCounted_g {f : Fld} (s : State) (h : Clear f PWR_SAG_SAVES) : (saveCounted s).g f = s.g f := by
  unfold saveCounted
  rw [tripFollow_g, setPwr_g, g_inc_clear _ h]

theorem saveCounted_saves (s : State) : (saveCounted s).g PWR_SAG_SAVES = min (2 ^ PWR_SAG_SAVES.w - 1) (s.g PWR_SAG_SAVES + 1) := by
  unfold saveCounted
  rw [tripFollow_g, setPwr_g]
  exact g_inc_self (by decide)

theorem staySlots_state (a b : Option (List Byte)) (seq : Nat) (newest tj : Bool) (s : State) :
    pwState (staySlots a b seq newest tj s) = pwState s := by
  have hs : Clear PWR_STAT_STATE PWR_STAT_SAVING := clear_const rfl
  have ha : Clear PWR_STAT_STATE PWR_STAYSTAT_A_VALID := clear_const rfl
  have hb : Clear PWR_STAT_STATE PWR_STAYSTAT_B_VALID := clear_const rfl
  have hq : Clear PWR_STAT_STATE PWR_STAY_SEQ := clear_const rfl
  have hn : Clear PWR_STAT_STATE PWR_STAYSTAT_NEWEST_B := clear_const rfl
  have ht : Clear PWR_STAT_STATE PWR_STAYSTAT_TJ_OUT := clear_const rfl
  unfold pwState staySlots
  rw [g_pb_clear _ _ ht, g_pb_clear _ _ hn, g_p_clear _ _ hq, g_pb_clear _ _ hb, g_pb_clear _ _ ha, setPwr_g, g_pb_clear _ _ hs]

/-- A save that is written and counted leaves the power state and the slot that is to drop. -/
theorem drops_saved (hst : pwState s = Pw.on) (h : Drops s q) :
    pwState (saveCounted (slotWritten v s)) = Pw.on ∧ Drops (saveCounted (slotWritten v s)) q := by
  have hk : Kept (· = .rig) s (saveCounted (slotWritten v s)) :=
    kept_tripFollow (by decide) _ (kept_setPwr (by decide) _ (kept_State_inc (by decide) _
      (kept_staySlots (by decide) (by decide) _ _ _ _ _ (.refl s))))
  have hsame (f : Fld) (ho : 0x100800 ≤ f.off) : (saveCounted (slotWritten v s)).g f = s.g f := by
    refine (saveCounted_g _ ⟨by decide, .inl (by unfold PWR_SAG_SAVES PWR_SAG; dsimp only; omega)⟩).trans
      ((staySlots_only _ _ _ _ _ s).alike.g ?_)
    simp only [List.mem_cons, List.not_mem_nil, or_false, PWR_STAT, PWR_STAY, PWR_STAYSTAT]
    omega
  refine ⟨((saveCounted_g _ (clear_const rfl)).trans (staySlots_state _ _ _ _ _ s)).trans hst, h.of_same ?_ (hk.rigs rfl) ?_ ?_⟩
  · rw [saveCounted_pwr]
    unfold slotWritten
    rw [staySlots_pwr]
  · exact hsame _ (by unfold PWR_SLOT_STAT_GOOD PWR_SLOT_STAT; dsimp only; omega)
  · exact hsame _ (by unfold PWR_SLOT_CFG_TOFF PWR_SLOT_CFG; dsimp only; omega)

/-- A save that no reset waits for ends as it is. -/
theorem saveEnd_idle (hf : s.pwr.failWait = false) (hp : s.pwr.pinWait = false) : saveEnd s = s := by
  unfold saveEnd
  simp only [hf, hp, Bool.or_self, Bool.false_eq_true, if_false, ite_self]

theorem offRequest_waits (hst : pwState s = Pw.on) (h : Drops s q) :
    (offRequest s).pwr.failWait = s.pwr.failWait ∧ (offRequest s).pwr.pinWait = s.pwr.pinWait := by
  have hst' : pwState (s.pb PWR_STAT_ON_HELD false) = Pw.on := (g_pb_clear _ _ (clear_const rfl)).trans hst
  have hm : (downBegun .off (s.pb PWR_STAT_ON_HELD false)).mapped 0x50 q 1 = true := h.mapped
  have hp : (downBegun .off (s.pb PWR_STAT_ON_HELD false)).pwr.failWait = s.pwr.failWait ∧
      (downBegun .off (s.pb PWR_STAT_ON_HELD false)).pwr.pinWait = s.pwr.pinWait := ⟨rfl, rfl⟩
  rw [offRequest_on hst, beginDown_drops .off (h.onHeld false), hst', if_neg (by decide)]
  unfold shutLast
  rw [setPwr_pwr, setEnable_pwr hm]
  exact hp

end

/-- A save cut off: its slot invalid. -/
def slotCut (s : State) : State :=
  staySlots (if saveToA s then none else s.pwr.slotA) (if saveToA s then s.pwr.slotB else none) (s.g PWR_STAY_SEQ)
    (s.on PWR_STAYSTAT_NEWEST_B) (s.on PWR_STAYSTAT_TJ_OUT) s

theorem staySaveAbort_eq {s : State} {v : Save} (h : s.pwr.save = some v) : staySaveAbort s =
    tripFollow false (setPwr { (slotCut s).pwr with lastAborted := true } ((slotCut s).pb PWR_STAYSTAT_ABORTED true)) := by
  unfold staySaveAbort
  rw [h]
  rfl

theorem staySaveDone_kept (s : State) : Kept (· = .rig) s (staySaveDone s) :=
  kept_staySaveDone (by decide) (by decide) (by decide) (by decide) (by decide) (by decide) (by decide) (by decide) (by decide)
    (by decide) (by decide) (by decide) (by decide) (by decide) (by decide) (by decide) (.refl s)

/-- Settles O26: a trip is one chain of the save, the stop and the record; a save's end is one write of its slots. -/
theorem sagAndStaySave : Obligations.SagAndStaySave := by
  unfold Obligations.SagAndStaySave
  intro s v vin vstay q hlost hwait
  refine ⟨?sag, ?rearm, ?refresh, ?saving, ?final, ?done, ?doneSag, ?abort⟩
  case sag =>
    intro harm
    exact .of_stayStep rfl hlost ((sagTrip_wait harm).trans hwait) (sagTripped vin.isLt vstay.isLt harm)
  case rearm =>
    refine .of_stay rfl hlost hwait (kept_sagRearm (by decide) _ (.refl s)) ?_
    have hla : Clear PWR_STAT_VIN_LOW PWR_STAT_SAG_ARMED := clear_const rfl
    have hva : Clear PWR_VIN_VIN PWR_STAT_SAG_ARMED := clear_const rfl
    have hvl : Clear PWR_VIN_VIN PWR_STAT_VIN_LOW := clear_const rfl
    unfold sagRearm
    rw [on_pb_clear _ _ hla, g_pb_clear _ _ hva, g_pb_clear _ _ hvl, State.pb_pwr, State.pb_pwr, State.p_pwr]
    exact ⟨on_pb_same _ _ rfl, on_pb_same _ _ rfl, (g_p_self _ _ _ (by decide)).trans (Nat.mod_eq_of_lt vin.isLt), rfl,
      (((onlyRegs_refl _ s).p _ _ (by decide)).pb _ _ (by decide)).pb _ _ (by decide)⟩
  case refresh =>
    intro hd hs
    refine .of_live rfl hd ?_
    unfold shadowRefresh
    rw [hs]
    exact ⟨rfl, rfl, rfl⟩
  case saving =>
    intro hd hs
    refine .of_live rfl hd ?_
    unfold shadowRefresh
    rw [hs]
    exact ⟨rfl, rfl⟩
  case final =>
    intro hd hs
    refine .of_stay rfl hlost hwait (kept_stayFinal (by decide) _ (.refl s)) ?_
    unfold stayFinal
    rw [hs, hd]
    exact ⟨rfl, rfl⟩
  case done =>
    intro hf hp hs hc
    have he : staySaveDone s = saveCounted (slotWritten v s) := by
      rw [staySaveDone_eq hs, if_neg (by rw [hc]; decide)]
    have hpwr : (staySaveDone s).pwr = { (slotWritten v s).pwr with saves := (slotWritten v s).pwr.saves + 1, lastAborted := false } := by
      rw [he, saveCounted_pwr]
    have hidle : saveEnd (staySaveDone s) = staySaveDone s :=
      saveEnd_idle (by rw [hpwr, slotWritten, staySlots_pwr]; exact hf) (by rw [hpwr, slotWritten, staySlots_pwr]; exact hp)
    refine .of_stayStep rfl hlost ?_ ?_
    · rw [hidle, (staySaveDone_kept s).rigs rfl, hwait]
    · rw [hidle, hpwr, he]
      unfold slotWritten
      rw [staySlots_pwr, saveCounted_g _ (clear_const rfl), staySlots_seq, on_eq_of_g (saveCounted_g _ (clear_const rfl)),
        staySlots_saving, on_eq_of_g (saveCounted_g _ (clear_const rfl)), staySlots_newest, saveCounted_saves,
        (staySlots_only _ _ _ _ _ s).alike.g (f := PWR_SAG_SAVES) (by decide)]
      exact ⟨by split <;> rfl, by split <;> rfl, Nat.mod_mod _ _, rfl, rfl, rfl, rfl, rfl⟩
  case doneSag =>
    intro hf hp hs hc hst hlast hq hm hg ht
    have he : staySaveDone s = offRequest (saveCounted (slotWritten v s)) := by
      rw [staySaveDone_eq hs, if_pos hc]
    obtain ⟨hstate, hdrops⟩ := drops_saved (v := v) hst ⟨hlast, hm, hg, ht⟩
    have hd := dropping_offRequest hstate hdrops
    obtain ⟨hfw, hpw⟩ := offRequest_waits hstate hdrops
    have hpwr : (saveCounted (slotWritten v s)).pwr =
        { (slotWritten v s).pwr with saves := (slotWritten v s).pwr.saves + 1, lastAborted := false } := saveCounted_pwr _
    have hidle : saveEnd (staySaveDone s) = staySaveDone s := by
      rw [he]
      exact saveEnd_idle (by rw [hfw, hpwr, slotWritten, staySlots_pwr]; exact hf)
        (by rw [hpw, hpwr, slotWritten, staySlots_pwr]; exact hp)
    refine .of_stayStep rfl hlost ?_ ?_
    · rw [hidle, (staySaveDone_kept s).rigs rfl, hwait]
    · rw [hidle, he, hd.slotA, hd.slotB, hd.save, State.pb_pwr, hpwr]
      unfold slotWritten
      rw [staySlots_pwr]
      exact ⟨by split <;> rfl, rfl, hd.state, hd.wait⟩
  case abort =>
    intro hf hp hs
    have hpwr : (staySaveAbort s).pwr = { (slotCut s).pwr with lastAborted := true } := by
      rw [staySaveAbort_eq hs, (tripFollow_kept _ _).pwrs (by decide), setPwr_pwr]
    have hidle : saveEnd (staySaveAbort s) = staySaveAbort s :=
      saveEnd_idle (by rw [hpwr, slotCut, staySlots_pwr]; exact hf) (by rw [hpwr, slotCut, staySlots_pwr]; exact hp)
    have hrig : (staySaveAbort s).rig = s.rig :=
      (kept_staySaveAbort (K := (· = .rig)) (by decide) (by decide) (by decide) (.refl s)).rigs rfl
    have hseq : Clear PWR_STAY_SEQ PWR_STAYSTAT_ABORTED := clear_const rfl
    have hsav : Clear PWR_STAT_SAVING PWR_STAYSTAT_ABORTED := clear_const rfl
    refine .of_stayStep rfl hlost ?_ ?_
    · rw [hidle, hrig, hwait]
    · rw [hidle, hpwr, staySaveAbort_eq hs, tripFollow_g, on_eq_of_g (tripFollow_g _ _ _), on_eq_of_g (tripFollow_g _ _ _), setPwr_g,
        setPwr_on, setPwr_on, (tripFollow_kept _ _).outs (by decide), setPwr_out, State.pb_out, g_pb_clear _ _ hseq,
        on_pb_clear _ _ hsav]
      unfold slotCut
      rw [staySlots_pwr, staySlots_seq, staySlots_saving, staySlots_out]
      refine ⟨by split <;> rfl, by split <;> rfl, Nat.mod_eq_of_lt (g_lt s PWR_STAY_SEQ), on_pb_same _ _ rfl, rfl, rfl, rfl, fun off ho => ?_⟩
      refine (reg_tripFollow _ _ off).trans ((setPwr_reg _ _ _).trans ?_)
      exact ((staySlots_only _ _ _ _ _ s).pb (f := PWR_STAYSTAT_ABORTED) true (by decide)) off ho

end Sys2Proof.Machine
end

section
/-!
PROOFS. Clocks (spec/16_clocks_islands.md R345-R357): a lock and its loss, the loss of the reference, band measurements, LOCK_A.
-/

namespace Sys2Proof.Machine

open Reg

set_option Elab.async false

/-- The status registers of the PLLs, and what lies past the DRAM registers. -/
def PllRegs (off : Nat) : Prop := (0x103200 ≤ off ∧ off < 0x103300) ∨ 0x300000 ≤ off

theorem outside_of_pll {off : Nat} (h : PllRegs off) : OutsideDram off := by
  unfold PllRegs at h
  unfold OutsideDram
  omega

section
variable {a s : State}

/-! ## What follows a PLL -/

theorem not_pll_isl {i : Nat} (h : i < 48) : ¬ PllRegs (CLK_ISL i) := by
  unfold PllRegs CLK_ISL
  omega

theorem islOn_pll {i : Nat} (src khz : Nat) (hi : i < 48) (h : Alike PllRegs a s) : Alike PllRegs a (islOn i src khz s) :=
  (h.p _ (not_pll_isl hi)).p _ (not_pll_isl hi)

theorem islFollow_pll (p : Nat) (h : Alike PllRegs a s) : Alike PllRegs a (islFollow p s) := by
  unfold islFollow
  refine .ite h (h.foldl fun t r _ ht => ?_)
  split
  · next hr => exact .ite (islOn_pll _ _ hr.2 ht) (.ite (islOn_pll _ _ hr.2 ht) ht)
  · exact ht

theorem ckoSyncAll_pll (h : Alike PllRegs a s) : Alike PllRegs a (ckoSyncAll s) := by
  refine h.overN fun k t hk ht => ?_
  unfold ckoSync
  refine .ite (ht.pb _ ?_) ht
  unfold PllRegs CLK_CKO_RANGE CLK_CKO
  dsimp only
  omega

/-! ## A lock -/

/-- The lock shown, at its station too. -/
def lockShown (p b : Nat) (s : State) : State :=
  if 2 ≤ p ∧ p ≤ 9 then (((setCal p none s).p (CLK_PLL_STAT_BAND p) b).pb (CLK_PLL_STAT_LOCK p) true).pb (STN_PXCTL_LOCK (p - 2)) true
  else ((setCal p none s).p (CLK_PLL_STAT_BAND p) b).pb (CLK_PLL_STAT_LOCK p) true

theorem pllLock_eq {p b : Nat} (hp : 1 ≤ p) (hr : s.on (CLK_PLL_STAT_RUN p) = true) (hl : pllLocked s p = false)
    (hm : measured s p = false) (hb : (bankGet none s.clk.cal p).getD (bandNow s p) = some b) :
    pllLock p s = ckoSyncAll (islFollow p (lockShown p b s)) := by
  unfold pllLock
  rw [if_neg (by simp [hr, hl, hm]; omega)]
  dsimp only
  rw [hb]
  rfl

theorem lockShown_spec {p b : Nat} (hb : b < 64) : (lockShown p b s).on (CLK_PLL_STAT_LOCK p) = true ∧
    (lockShown p b s).g (CLK_PLL_STAT_BAND p) = b ∧ (2 ≤ p ∧ p ≤ 9 → (lockShown p b s).on (STN_PXCTL_LOCK (p - 2)) = true) ∧
    (lockShown p b s).out = s.out := by
  have hbl : Clear (CLK_PLL_STAT_BAND p) (CLK_PLL_STAT_LOCK p) := clear_inst rfl
  have hfar {lo w : Nat} : Clear ⟨CLK_PLL_STAT p, lo, w⟩ (STN_PXCTL_LOCK (p - 2)) := ⟨Nat.le_of_ble_eq_true rfl, .inl (by
    unfold CLK_PLL_STAT STN_PXCTL_LOCK STN_PXCTL
    dsimp only
    omega)⟩
  have hband (t : State) : (t.p (CLK_PLL_STAT_BAND p) b).g (CLK_PLL_STAT_BAND p) = b :=
    (g_p_self _ _ _ (Nat.le_of_ble_eq_true rfl)).trans (Nat.mod_eq_of_lt hb)
  unfold lockShown
  split
  · refine ⟨(on_pb_clear _ _ hfar).trans (on_pb_same _ _ rfl), ?_, fun _ => on_pb_same _ _ rfl, ?_⟩
    · rw [CLK_PLL_STAT_BAND, g_pb_clear _ _ hfar]
      exact (g_pb_clear _ _ hbl).trans (hband _)
    · rw [State.pb_out, State.pb_out, State.p_out]
      rfl
  · next hn =>
    refine ⟨on_pb_same _ _ rfl, (g_pb_clear _ _ hbl).trans (hband _), fun h => absurd h hn, ?_⟩
    rw [State.pb_out, State.p_out]
    rfl

/-! ## A loss -/

theorem low_of_stat {p : Nat} (h : p < 12) : Low (CLK_PLL_STAT p) := by
  unfold Low CLK_PLL_STAT THM_TJ
  omega

/-- The loss shown and counted. -/
def pllLost (p : Nat) (s : State) : State :=
  ((s.pb (CLK_PLL_STAT_LOCK p) false).pb (CLK_PLL_STAT_LOST p) true).inc (CLK_PLL_STAT_LOSSES p)

theorem pllLost_spec (p : Nat) : (pllLost p s).on (CLK_PLL_STAT_LOCK p) = false ∧ (pllLost p s).on (CLK_PLL_STAT_LOST p) = true ∧
    (pllLost p s).g (CLK_PLL_STAT_LOSSES p) = min 255 (s.g (CLK_PLL_STAT_LOSSES p) + 1) := by
  have hkl : Clear (CLK_PLL_STAT_LOCK p) (CLK_PLL_STAT_LOSSES p) := clear_inst rfl
  have hkt : Clear (CLK_PLL_STAT_LOCK p) (CLK_PLL_STAT_LOST p) := clear_inst rfl
  have htl : Clear (CLK_PLL_STAT_LOST p) (CLK_PLL_STAT_LOSSES p) := clear_inst rfl
  have hlk : Clear (CLK_PLL_STAT_LOSSES p) (CLK_PLL_STAT_LOCK p) := clear_inst rfl
  have hlt : Clear (CLK_PLL_STAT_LOSSES p) (CLK_PLL_STAT_LOST p) := clear_inst rfl
  unfold pllLost
  rw [on_inc_clear _ hkl, on_pb_clear _ _ hkt, on_inc_clear _ htl]
  refine ⟨on_pb_same _ _ rfl, on_pb_same _ _ rfl, (g_inc_self (Nat.le_of_ble_eq_true rfl)).trans ?_⟩
  rw [g_pb_clear _ _ hlt, g_pb_clear _ _ hlk]
  rfl

/-- A field of a PLL's status that no relock writes. -/
structure LossField (p : Nat) (f : Fld) : Prop where
  off : f.off = CLK_PLL_STAT p
  mode : Clear f (CLK_PLL_STAT_REFMODE p)
  near : Clear f (CLK_PLL_STAT_SPUR_NEAR p)

theorem calibrate_regs (p : Nat) (s : State) (off : Nat) : (calibrate p s).reg off = s.reg off := rfl

theorem calibrate_g (p : Nat) (s : State) (f : Fld) : (calibrate p s).g f = s.g f := rfl

theorem pxRegs_g {n : Nat} {f : Fld} (x : Nat × Nat) (k m : Nat) (hf : LossField (2 + n) f) : (pxRegs n x k m s).g f = s.g f := by
  have hclear {g : Fld} (hw : g.lo + g.w ≤ 32) (h : g.off ≠ CLK_PLL_STAT (2 + n)) : Clear f g := ⟨hw, .inl fun e => h (e ▸ hf.off)⟩
  have hctl : STN_PXCTL n ≠ CLK_PLL_STAT (2 + n) := by
    unfold STN_PXCTL CLK_PLL_STAT
    omega
  have hfrac : STN_PXFRAC n ≠ CLK_PLL_STAT (2 + n) := by
    unfold STN_PXFRAC CLK_PLL_STAT
    omega
  have hfreq : CLK_PLL_FREQ (2 + n) ≠ CLK_PLL_STAT (2 + n) := by
    unfold CLK_PLL_FREQ CLK_PLL_STAT
    omega
  have hdiv : Clear f (STN_PXCTL_PXDIV n) := hclear (Nat.le_of_ble_eq_true rfl) hctl
  have hnint : Clear f (STN_PXCTL_NINT n) := hclear (Nat.le_of_ble_eq_true rfl) hctl
  have hfr : Clear f (STN_PXFRAC_FRAC n) := hclear (Nat.le_of_ble_eq_true rfl) hfrac
  have hkhz : Clear f (CLK_PLL_FREQ_KHZ (2 + n)) := hclear (Nat.le_of_ble_eq_true rfl) hfreq
  unfold pxRegs
  rw [g_p_clear _ _ hkhz, g_p_clear _ _ hfr, g_p_clear _ _ hnint, g_p_clear _ _ hdiv]

/-- A relock leaves the lock, its losses and their count. -/
theorem pxRelock_g {n : Nat} {f : Fld} (hf : LossField (2 + n) f) : (pxRelock n s).g f = s.g f := by
  unfold pxRelock
  dsimp only
  rw [calibrate_g]
  split
  · rw [g_pb_clear _ _ hf.near, g_p_clear _ _ hf.mode, pxRegs_g _ _ _ hf]
  · rw [g_p_clear _ _ hf.mode, pxRegs_g _ _ _ hf]

theorem pxLost_g {n : Nat} {f : Fld} (hn : n < 10) (hf : LossField (2 + n) f) : (pxLost n s).g f = s.g f := by
  have hlow : Low f.off := by
    rw [hf.off]
    exact low_of_stat (by omega)
  have hrest : Alike Low (pxRelock n s) (pxLost n s) :=
    low_spoilAt _ _ (low_raise (Alike.pb (.refl _) _ (not_low_inst rfl)) (classRegion_lt 1))
  exact (hrest.g hlow).trans (pxRelock_g hf)

/-- The islands that a lost clock stops. -/
theorem stopIslands_alike {Z : Nat → Prop} (reference : Bool) (hz : ∀ i < 48, ¬ Z (CLK_ISL i)) (h : Alike Z a s) :
    Alike Z a (stopIslands reference s) := by
  refine h.overN fun i t hi ht => ?_
  dsimp only
  split
  · exact .ite ((ht.p _ (hz _ (by decide))).p _ (hz _ (by decide))) ht
  · exact .ite (ht.pb _ (hz i hi)) ht

theorem low_stayFatal (block code : Nat) (h : Alike Low a s) : Alike Low a (stayFatal block code s) :=
  low_fatalChip (Alike.staySeq _ (h.of_kept (kept_nvmRecord (by decide) (by decide) _ (.refl s))))

/-- What the loss of any PLL leaves of the loss shown. -/
theorem lostEffect_g {p : Nat} {f : Fld} (hp : p < 12) (hf : LossField p f) : (lostEffect p s).g f = s.g f := by
  have hlow : Low f.off := by
    rw [hf.off]
    exact low_of_stat hp
  have hpll : PllRegs f.off := by
    rw [hf.off]
    unfold PllRegs CLK_PLL_STAT
    omega
  unfold lostEffect
  split
  · exact ((stopIslands_alike false (fun i hi => not_pll_isl hi) (.refl _)).g hpll).trans ((low_stayFatal _ _ (.refl s)).g hlow)
  · split
    · refine Alike.g (low_raise (.refl s) ?_) hlow
      exact (by decide : 3 < 7)
    · split
      · next h0 h1 h9 =>
        have he : 2 + (p - 2) = p := by omega
        exact ((islFollow_pll p (.refl _)).g hpll).trans (pxLost_g (by omega) (he.symm ▸ hf))
      · split
        · exact (low_corrected _ _ _ _ (.refl s)).g hlow
        · have hr (r : Nat) (h : r ∈ regionsOn s p) : r < 7 := List.mem_range.mp (List.mem_filter.mp h).1
          refine Alike.g (Alike.foldl (.refl s) fun t r h ht => low_raise ht ?_) hlow
          exact hr r h

theorem pllLoss_eq {p : Nat} (h : pllLocked s p = true) : pllLoss p s = lostEffect p (calibrate p (pllLost p s)) := by
  unfold pllLoss
  rw [h]
  rfl

/-! ## The reference -/

/-- A PLL lost with the reference. -/
def refStep (p : Nat) (s : State) : State := if pllLocked s p then pllLost p s else s

theorem overN_unlocked {n q : Nat} (h : q < n) (s : State) : (overN n refStep s).on (CLK_PLL_STAT_LOCK q) = false := by
  induction n with
  | zero => exact absurd h (Nat.not_lt_zero q)
  | succ n ih =>
    rw [overN_succ]
    unfold refStep
    by_cases e : q = n
    · subst e
      split
      · exact (pllLost_spec q).1
      · next hl => exact Bool.eq_false_of_not_eq_true hl
    · have hne : CLK_PLL_STAT q ≠ CLK_PLL_STAT n := by
        unfold CLK_PLL_STAT
        omega
      have hkeep : ∀ g : Fld, g.off = CLK_PLL_STAT n → g.lo + g.w ≤ 32 → Clear (CLK_PLL_STAT_LOCK q) g :=
        fun g ho hw => ⟨hw, .inl fun e' => hne (e'.trans ho)⟩
      have hih := ih (by omega)
      split
      · unfold pllLost
        rw [on_inc_clear _ (hkeep _ rfl (Nat.le_of_ble_eq_true rfl)), on_pb_clear _ _ (hkeep (CLK_PLL_STAT_LOST n) rfl (Nat.le_of_ble_eq_true rfl)),
          on_pb_clear _ _ (hkeep (CLK_PLL_STAT_LOCK n) rfl (Nat.le_of_ble_eq_true rfl))]
        exact hih
      · exact hih

/-- The PLLs and the stations' clocks once the reference is gone, before the islands stop. -/
def refGone (s : State) : State :=
  overN 8 (fun n s => s.pb (STN_PXCTL_LOCK n) false) (overN 12 refStep ((s.pb CLK_REF_OK false).pb CLK_REF_LOSS true))

theorem refLoss_eq (h : s.on CLK_REF_OK = true) : refLoss s = clockFatal true (refGone s) := by
  unfold refLoss
  rw [h]
  rfl

theorem low_ref : Low CLK_REF := by unfold Low; decide

theorem refGone_spec : (refGone s).on CLK_REF_OK = false ∧ (refGone s).on CLK_REF_LOSS = true ∧
    ∀ q : Fin 12, (refGone s).on (CLK_PLL_STAT_LOCK q) = false := by
  have hstn (u : State) : Alike Low u (overN 8 (fun n s => s.pb (STN_PXCTL_LOCK n) false) u) :=
    Alike.overN (.refl u) fun n t _ ht => ht.pb _ (not_low_inst rfl)
  have hpll (u : State) : Alike (· = CLK_REF) u (overN 12 refStep u) := Alike.overN (.refl u) fun p t _ ht => by
    have hne {lo w : Nat} : (⟨CLK_PLL_STAT p, lo, w⟩ : Fld).off ≠ CLK_REF := by
      unfold CLK_PLL_STAT CLK_REF
      dsimp only
      omega
    unfold refStep pllLost
    exact .ite (((ht.pb _ hne).pb _ hne).inc hne) ht
  have hol : Clear CLK_REF_OK CLK_REF_LOSS := clear_const rfl
  refine ⟨?_, ?_, fun q => ?_⟩
  · refine ((hstn _).on (f := CLK_REF_OK) low_ref).trans (((hpll _).on (f := CLK_REF_OK) rfl).trans ?_)
    rw [on_pb_clear _ _ hol]
    exact on_pb_same _ _ rfl
  · exact ((hstn _).on (f := CLK_REF_LOSS) low_ref).trans (((hpll _).on (f := CLK_REF_LOSS) rfl).trans (on_pb_same _ _ rfl))
  · exact ((hstn _).on (f := CLK_PLL_STAT_LOCK q) (low_of_stat q.isLt)).trans (overN_unlocked q.isLt _)

/-- An island as its clock is lost. -/
def islStop (reference : Bool) (i : Nat) (s : State) : State :=
  if i = 1 then (if reference then islOn 1 14 40000 s else s)
  else if reference || s.g (CLK_ISL_SRC i) == 0 || s.g (CLK_ISL_SRC i) == 13 then s.pb (CLK_ISL_STOPPED i) true
  else s

theorem stopIslands_eq (reference : Bool) : stopIslands reference s = overN 48 (islStop reference) s := rfl

/-- With the reference gone the CLK island stands, and stays so. -/
theorem overN_clkStopped (n : Nat) : (overN (n + 1) (islStop true) s).on (CLK_ISL_STOPPED 0) = true := by
  induction n with
  | zero => exact on_pb_same _ _ rfl
  | succ n ih =>
    have hclear {lo w : Nat} (i : Nat) (hi : i ≠ 0) (hw : lo + w ≤ 32) : Clear (CLK_ISL_STOPPED 0) ⟨CLK_ISL i, lo, w⟩ :=
      ⟨hw, .inl (by unfold CLK_ISL_STOPPED CLK_ISL; dsimp only; omega)⟩
    have hsrc : Clear (CLK_ISL_STOPPED 0) (CLK_ISL_SRC 1) := hclear 1 (by decide) (by decide)
    have hkhz : Clear (CLK_ISL_STOPPED 0) (CLK_ISL_KHZ 1) := hclear 1 (by decide) (by decide)
    have hstop : Clear (CLK_ISL_STOPPED 0) (CLK_ISL_STOPPED (n + 1)) := hclear (n + 1) (Nat.succ_ne_zero n) (by decide)
    rw [overN_succ]
    unfold islStop islOn
    rw [if_pos rfl, Bool.true_or, Bool.true_or, if_pos rfl]
    split
    · exact (on_p_clear _ _ hkhz).trans ((on_p_clear _ _ hsrc).trans ih)
    · exact (on_pb_clear _ _ hstop).trans ih

/-! ## Band measurements -/

theorem measurable_write (v : Word) (p : Nat) : measurable (s.plainWrite CLK_BANDMEAS v) p = measurable s p := by
  have hoff {f : Fld} (h : f.off ≠ CLK_BANDMEAS) : (s.plainWrite CLK_BANDMEAS v).on f = s.on f := on_eq_of_g (g_plainWrite_of_off h)
  unfold measurable pllLocked
  rw [plainWrite_part, hoff (f := CLK_PLL_STAT_LOCK p) (by unfold CLK_PLL_STAT_LOCK CLK_PLL_STAT CLK_BANDMEAS; dsimp only; omega),
    hoff (f := CLK_PLL_STAT_RUN p) (by unfold CLK_PLL_STAT_RUN CLK_PLL_STAT CLK_BANDMEAS; dsimp only; omega),
    hoff (f := STN_PCFG_ENABLED (p - 2)) (by unfold STN_PCFG_ENABLED STN_PCFG CLK_BANDMEAS; dsimp only; omega)]

theorem measPll (v : Word) : (s.plainWrite CLK_BANDMEAS v).g CLK_BANDMEAS_PLL = fieldOf CLK_BANDMEAS_PLL v := g_plainWrite_of_rw rfl rfl

/-- Another clock unit. -/
def withClk (c : ClkU) (s : State) : State := { s with clk := c }

theorem withClk_on (c : ClkU) (s : State) (f : Fld) : (withClk c s).on f = s.on f := rfl

theorem withClk_clk (c : ClkU) (s : State) : (withClk c s).clk = c := rfl

theorem withClk_reg (c : ClkU) (s : State) (off : Nat) : (withClk c s).reg off = s.reg off := rfl

/-- A measurement begun. -/
def measBegun (p : Nat) (s : State) : State := withClk { s.clk with meas := p } (s.pb CLK_BANDMEAS_BUSY true)

section
variable {v : Word} (hs : fieldOf CLK_BANDMEAS_START v = 1)
include hs

theorem bandMeasWrite_begins (hb : s.on CLK_BANDMEAS_BUSY = false) (hm : measurable s (fieldOf CLK_BANDMEAS_PLL v) = true) :
    bandMeasWrite v s = measBegun (fieldOf CLK_BANDMEAS_PLL v) (s.plainWrite CLK_BANDMEAS v) := by
  unfold bandMeasWrite
  dsimp only
  rw [measPll, measurable_write, hs, if_neg (by decide), if_neg (by simp [hb, hm])]
  rfl

theorem bandMeasWrite_refused (h : s.on CLK_BANDMEAS_BUSY = true ∨ measurable s (fieldOf CLK_BANDMEAS_PLL v) = false) :
    bandMeasWrite v s = (s.plainWrite CLK_BANDMEAS v).pb CLK_BANDMEAS_REFUSED true := by
  unfold bandMeasWrite
  dsimp only
  rw [measPll, measurable_write, hs, if_neg (by decide), if_pos (by rcases h with h | h <;> simp [h])]

end

/-- A measurement's end, before the PLL calibrates. -/
def measEnded (fmin fmax : Nat) (s : State) : State :=
  ((s.pb CLK_BANDMEAS_BUSY false).p CLK_BANDRES_FMIN fmin).p CLK_BANDRES_FMAX fmax

theorem bandMeasDone_eq {fmin fmax : Nat} (h : s.on CLK_BANDMEAS_BUSY = true) :
    bandMeasDone fmin fmax s = calibrate s.clk.meas (measEnded fmin fmax s) := by
  unfold bandMeasDone
  rw [if_neg (by simp [h])]
  rfl

theorem measEnded_spec {fmin fmax : Nat} (hmin : fmin < 2 ^ 16) (hmax : fmax < 2 ^ 16) :
    (measEnded fmin fmax s).on CLK_BANDMEAS_BUSY = false ∧ (measEnded fmin fmax s).g CLK_BANDRES_FMIN = fmin ∧
    (measEnded fmin fmax s).g CLK_BANDRES_FMAX = fmax ∧ OnlyRegs [CLK_BANDMEAS, CLK_BANDRES] s (measEnded fmin fmax s) := by
  have hbn : Clear CLK_BANDMEAS_BUSY CLK_BANDRES_FMIN := clear_const rfl
  have hbx : Clear CLK_BANDMEAS_BUSY CLK_BANDRES_FMAX := clear_const rfl
  have hnx : Clear CLK_BANDRES_FMIN CLK_BANDRES_FMAX := clear_const rfl
  unfold measEnded
  rw [on_p_clear _ _ hbx, on_p_clear _ _ hbn, g_p_clear _ _ hnx]
  exact ⟨on_pb_same _ _ rfl, (g_p_self _ _ _ (by decide)).trans (Nat.mod_eq_of_lt hmin),
    (g_p_self _ _ _ (by decide)).trans (Nat.mod_eq_of_lt hmax),
    (((onlyRegs_refl _ s).pb _ _ (by decide)).p _ _ (by decide)).p _ _ (by decide)⟩

end

/-- Settles O14: a lock, a loss of each kind of PLL, the reference, and a measurement's two ends. -/
theorem pllsAndBands : Obligations.PllsAndBands := by
  unfold Obligations.PllsAndBands
  intro s p b v x y
  refine ⟨?lock, ?loss, ?reference, ?start, ?refused, ?done, ?excursion⟩
  case lock =>
    intro hd hp hr hl hm hb hlt
    refine .of_live rfl hd ?_
    obtain ⟨hlock, hband, hstn, hout⟩ := lockShown_spec (s := s) (p := p) hlt
    have hframe : Alike PllRegs (lockShown p b s) (trainClocked (pllLock p s)) := by
      rw [pllLock_eq hp hr hl hm hb]
      exact (ckoSyncAll_pll (islFollow_pll p (.refl _))).trans ((trainClocked_outside _).mono fun _ h => outside_of_pll h)
    have hk : Kept (· = .out) (lockShown p b s) (trainClocked (pllLock p s)) := by
      rw [pllLock_eq hp hr hl hm hb]
      exact kept_trainClocked (by decide) (by decide) (by decide) (kept_ckoSyncAll (by decide) (kept_islFollow (by decide) _ (.refl _)))
    have hpll : PllRegs (CLK_PLL_STAT p) := by
      unfold PllRegs CLK_PLL_STAT
      omega
    refine ⟨(hframe.on (f := CLK_PLL_STAT_LOCK p) hpll).trans hlock, (hframe.g (f := CLK_PLL_STAT_BAND p) hpll).trans hband,
      fun h => (hframe.on (f := STN_PXCTL_LOCK (p - 2)) ?_).trans (hstn h), (hk.outs rfl).trans hout⟩
    unfold PllRegs STN_PXCTL_LOCK STN_PXCTL
    dsimp only
    omega
  case loss =>
    intro hd hl
    refine .of_live rfl hd ?_
    obtain ⟨hlock, hlost, hcount⟩ := pllLost_spec (s := s) p.val
    have hkeep {f : Fld} (hf : LossField p f) : (lostEffect p (calibrate p (pllLost p s))).g f = (pllLost p s).g f :=
      (lostEffect_g p.isLt hf).trans (calibrate_g _ _ _)
    rw [pllLoss_eq hl]
    exact ⟨(on_eq_of_g (hkeep (f := CLK_PLL_STAT_LOCK p) ⟨rfl, clear_inst rfl, clear_inst rfl⟩)).trans hlock,
      (on_eq_of_g (hkeep (f := CLK_PLL_STAT_LOST p) ⟨rfl, clear_inst rfl, clear_inst rfl⟩)).trans hlost,
      (hkeep (f := CLK_PLL_STAT_LOSSES p) ⟨rfl, clear_inst rfl, clear_inst rfl⟩).trans hcount⟩
  case reference =>
    intro hd hok
    have hrst : s.inReset = false := (Bool.or_eq_false_iff.mp hd).1
    refine ⟨refLoss s, congrArg _ (if_neg (by simp [hrst])), ?_⟩
    obtain ⟨hrok, hloss, hlocks⟩ := refGone_spec (s := s)
    have hkeep {f : Fld} (hl : Low f.off) (hf : f.off < 0x103400) : (clockFatal true (refGone s)).g f = (refGone s).g f :=
      Eq.trans ((stopIslands_alike (Z := (· < 0x103400)) true (fun i _ => by unfold CLK_ISL; omega) (.refl _)).g hf)
        ((low_stayFatal _ _ (.refl (refGone s))).g hl)
    have hclk : (clockFatal true (refGone s)).on (CLK_ISL_STOPPED 0) = true := by
      unfold clockFatal
      rw [stopIslands_eq]
      exact overN_clkStopped 47
    rw [refLoss_eq hok]
    refine ⟨(on_eq_of_g (hkeep low_ref (by decide))).trans hrok, (on_eq_of_g (hkeep low_ref (by decide))).trans hloss, fun q => ?_,
      hclk, by unfold State.dead; rw [hclk, Bool.or_true]⟩
    refine (on_eq_of_g (hkeep (low_of_stat q.isLt) ?_)).trans (hlocks q)
    unfold CLK_PLL_STAT_LOCK CLK_PLL_STAT
    dsimp only
    omega
  case start =>
    intro hr hs hb hm
    refine .of_hostAt rfl hr ?_
    rw [bandMeasWrite_begins hs hb hm, measBegun, withClk_on, withClk_clk]
    exact ⟨on_pb_same _ _ rfl, rfl, (((onlyRegs_refl _ s).plainWrite _ v (by decide)).pb _ _ (by decide)).of_reg (withClk_reg _ _)⟩
  case refused =>
    intro hr hs h
    refine .of_hostAt rfl hr ?_
    have hbr : Clear CLK_BANDMEAS_BUSY CLK_BANDMEAS_REFUSED := clear_const rfl
    have hbusy : (s.plainWrite CLK_BANDMEAS v).on CLK_BANDMEAS_BUSY = s.on CLK_BANDMEAS_BUSY :=
      on_eq_of_g (g_plainWrite_of_ro rfl rfl)
    rw [bandMeasWrite_refused hs h, on_pb_clear _ _ hbr, hbusy, State.pb_clk, plainWrite_clk]
    exact ⟨on_pb_same _ _ rfl, rfl, rfl, ((onlyRegs_refl _ s).plainWrite _ v (by decide)).pb _ _ (by decide)⟩
  case done =>
    intro hd hb
    refine .of_live rfl hd ?_
    obtain ⟨hbusy, hmin, hmax, honly⟩ := measEnded_spec (s := s) x.isLt y.isLt
    rw [bandMeasDone_eq hb, calibrate_g, calibrate_g]
    exact ⟨(on_eq_of_g (calibrate_g _ _ _)).trans hbusy, hmin, hmax, honly.of_reg (calibrate_regs _ _)⟩
  case excursion =>
    intro hd hm
    refine .of_live rfl hd ?_
    unfold excursion
    rw [if_neg (by rw [hm]; decide)]
    exact ⟨rfl, rfl, rfl⟩

end Sys2Proof.Machine
end

section
/-!
PROOFS. Supplies, the reset pin and CHIP_RESET (spec/14_power_supervision.md R308, R328; spec/21_register_index.md R427;
spec/22_electrical_package.md R432, R433).
-/

namespace Sys2Proof.Machine

open Reg

set_option Elab.async false

/-! ## A reset of the islands -/

/-- Registers of a bank cut down to those a test names. -/
theorem bankGet_filter {α : Type} (d : α) (p : Nat → Bool) (b : Bank α) {k : Nat} (h : p k = true) :
    bankGet d (b.filter fun e => p e.1) k = bankGet d b k := by
  induction b with
  | nil => rfl
  | cons e r ih =>
    by_cases he : p e.1 = true
    · rw [List.filter_cons_of_pos (p := fun e : Nat × α => p e.1) he]
      unfold bankGet
      rw [ih]
    · have hk : e.1 ≠ k := fun e' => he (e' ▸ h)
      rw [List.filter_cons_of_neg (p := fun e : Nat × α => p e.1) he, ih]
      exact (if_neg hk).symm

/-- Below the end of the power sequencer's registers, but CHIP_RIGSTAT. -/
def Early (off : Nat) : Prop := off < 0x100C00 ∧ off ≠ CHIP_RIGSTAT

section
variable {s t u : State}

/-- A block whose islands but STAY were reset: the stay island's registers, the sequencer and NVM's fatal records stand. -/
structure Afresh (s t : State) : Prop where
  mem : t.mem = []
  psq : t.psq = {}
  ctx : t.ctx = []
  pwr : t.pwr = s.pwr
  nvmRing : t.nvmRing = s.nvmRing
  epoch : t.epoch = s.epochNvm + 1
  out : t.out = s.out
  inReset : t.inReset = s.inReset
  pinLow : t.pinLow = s.pinLow
  stay : ∀ off, stayReg off = true → t.reg off = s.reg off

/-- The block as a reset leaves it before the registers that NVM and OTP give values. -/
def resetBase (s : State) : State :=
  { part := s.part, rev := s.rev, inReset := s.inReset, pinLow := s.pinLow, clock := s.clock, free := s.free,
    out := s.out, pending := s.pending, regs := s.regs.filter fun e => stayReg e.1,
    epoch := s.epochNvm + 1, epochNvm := if nvmWindow s then s.epochNvm + 1 else s.epochNvm, nvmRing := s.nvmRing,
    nvmNext := s.nvmNext, dram := { saved := s.dram.saved },
    stn := (List.range 8).foldl (fun b n => bankPut {} n (stnReset (s.stnU n)) b) [],
    rig := { otp := s.rig.otp, nvmImage := s.rig.nvmImage, hvCeil := otpWord s 8, serial := otpWord s 7, heard := s.out.length },
    pwr := s.pwr, thm := { ring := s.thm.ring, tripSeq := s.thm.tripSeq }, err := { nvmWait := s.err.nvmWait } }

theorem resetBase_reg {off : Nat} (h : stayReg off = true) : (resetBase s).reg off = s.reg off :=
  bankGet_filter (resetWord s.part s.rev off) stayReg s.regs h

/-- What NVM and OTP give values after a reset. -/
def resetFilled (s t : State) : State :=
  csetSync ((((overN 8 stnNvmRegs t).pz THM_TRIP_TRIM (sext 8 (otpWord s 9))).pz THM_TRIP_LEVEL (480 + sext 8 (otpWord s 9))).pb
    SPAR_STAT_READBACK_LOCKED (otpWord s 6 != 0))

theorem resetCore_eq (cause count : Nat) : resetCore cause count s =
    resetFilled s (((resetBase s).p CHIP_RSTCAUSE_CAUSE cause).p CHIP_RSTCAUSE_COUNT count) := rfl

theorem resetFilled_kept : Kept (· ≠ .regs) t (resetFilled s t) := by
  unfold resetFilled
  exact kept_csetSync (by decide) (kept_State_pb (by decide) _ _ (kept_State_pz (by decide) _ _ (kept_State_pz (by decide) _ _
    (kept_overN 8 _ (fun n u hu => kept_stnNvmRegs (by decide) n hu) (.refl t)))))

theorem resetFilled_early : Alike Early t (resetFilled s t) := by
  have hcset {v : State} (h : Alike Early t v) : Alike Early t (csetSync v) :=
    h.trans (aborts_csetSync.regs.mono fun off ho hp => by
      unfold Early at ho
      unfold Programmed at hp
      omega)
  unfold resetFilled
  refine hcset (.pb (.pz (.pz (Alike.overN (.refl t) fun n u _ hu => ?_) _ (by unfold Early; decide)) _ (by unfold Early; decide)) _
    (by unfold Early; decide))
  unfold stnNvmRegs
  refine hu.overN fun e v _ hv => ((hv.p _ ?_).p _ ?_).p _ ?_
  · unfold Early STN_EM_HANDLING STN_EM
    dsimp only
    omega
  · unfold Early STN_EM_STATE STN_EM
    dsimp only
    omega
  · unfold Early STN_WUSED_SECONDS STN_WUSED
    dsimp only
    omega

theorem early_stay {off : Nat} (h : stayReg off = true) : Early off := by
  have hoff := of_decide_eq_true h
  unfold Early CHIP_RIGSTAT
  omega

/-- The reset block, with the cause and the count shown. -/
theorem afresh_resetCore (cause count : Nat) : Afresh s (resetCore cause count s) := by
  have hk : Kept (· ≠ .regs) (resetBase s) (resetCore cause count s) := by
    rw [resetCore_eq]
    exact (kept_State_p (by decide) _ _ (kept_State_p (by decide) _ _ (.refl _))).trans resetFilled_kept
  have hpins := hk.same .pins (by decide)
  refine ⟨hk.same .mem (by decide), hk.same .psq (by decide), hk.same .ctx (by decide), hk.same .pwr (by decide),
    (hk.same .nvm (by decide)).1, (hk.same .epoch (by decide)).1, hk.same .out (by decide), hpins.1, hpins.2, fun off ho => ?_⟩
  have hne : off ≠ CHIP_RSTCAUSE := by
    rintro rfl
    exact absurd ho (by decide)
  rw [resetCore_eq]
  refine (resetFilled_early off (early_stay ho)).trans (Eq.trans ?_ (resetBase_reg ho))
  exact ((reg_setReg_other _ _ _ off hne)).trans (reg_setReg_other _ _ _ off hne)

theorem resetCore_shown {cause count : Nat} (hc : cause < 4) (hn : count < 2 ^ 16) :
    (resetCore cause count s).g CHIP_RSTCAUSE_CAUSE = cause ∧ (resetCore cause count s).g CHIP_RSTCAUSE_COUNT = count := by
  have hearly : Early CHIP_RSTCAUSE := by unfold Early; decide
  have hclear : Clear CHIP_RSTCAUSE_CAUSE CHIP_RSTCAUSE_COUNT := clear_const rfl
  rw [resetCore_eq, resetFilled_early.g (f := CHIP_RSTCAUSE_CAUSE) hearly, resetFilled_early.g (f := CHIP_RSTCAUSE_COUNT) hearly,
    g_p_clear _ _ hclear]
  exact ⟨(g_p_self _ _ _ (by decide)).trans (Nat.mod_eq_of_lt hc), (g_p_self _ _ _ (by decide)).trans (Nat.mod_eq_of_lt hn)⟩

/-- Programming torn by a reset. -/
def resetTorn (s : State) : State := storeTear (csetTear s)

theorem resetTorn_kept : Kept (fun p => p ≠ .regs ∧ p ≠ .rig ∧ p ≠ .free) s (resetTorn s) :=
  kept_storeTear (by decide) (by decide) (kept_csetTear (by decide) (by decide) (.refl s))

theorem afresh_torn (h : Afresh (resetTorn s) t) : Afresh s t := by
  have hk : Kept (fun p => p ≠ .regs ∧ p ≠ .rig ∧ p ≠ .free) s (resetTorn s) := resetTorn_kept
  have hregs : Alike (¬ Programmed ·) s (resetTorn s) := (aborts_csetTear.trans aborts_storeTear).regs
  have hpins := hk.same .pins (by decide)
  refine ⟨h.mem, h.psq, h.ctx, h.pwr.trans (hk.pwrs (by decide)), h.nvmRing.trans (hk.same .nvm (by decide)).1, ?_,
    h.out.trans (hk.outs (by decide)), h.inReset.trans hpins.1, h.pinLow.trans hpins.2, fun off ho => (h.stay off ho).trans (hregs off ?_)⟩
  · rw [h.epoch, (hk.same .epoch (by decide)).2]
  · have hoff := of_decide_eq_true ho
    unfold Programmed CHIP_RIGSTAT
    omega

theorem afresh_chipReset (byCommand : Bool) : Afresh s (chipReset byCommand s) := afresh_torn (afresh_resetCore _ _)

theorem chipReset_shown : (chipReset true s).g CHIP_RSTCAUSE_CAUSE = 1 ∧
    (chipReset true s).g CHIP_RSTCAUSE_COUNT = min 65535 (s.g CHIP_RSTCAUSE_COUNT + 1) :=
  resetCore_shown (s := resetTorn s) (by decide) (Nat.lt_of_le_of_lt (Nat.min_le_left _ _) (by decide))

theorem Afresh.g (h : Afresh s t) {f : Fld} (hf : stayReg f.off = true) : t.g f = s.g f := by
  unfold State.g
  rw [h.stay _ hf]

/-! ## The stay island -/

theorem stayStart_kept : Kept (fun p => p ≠ .regs ∧ p ≠ .pwr) s (stayStart s) := kept_stayStart (by decide) (by decide) (.refl s)

/-- The stay island as it starts. -/
def stayFresh (s : State) : State := { s.resetRegs stayReg with pwr := { nvmCnt := s.pwr.nvmCnt, slotA := s.pwr.slotA, slotB := s.pwr.slotB, supDown := s.pwr.supDown } }

theorem stayFresh_pwr : (stayFresh s).pwr = { nvmCnt := s.pwr.nvmCnt, slotA := s.pwr.slotA, slotB := s.pwr.slotB, supDown := s.pwr.supDown } := rfl

theorem stayStart_pwr : (stayStart s).pwr = { nvmCnt := s.pwr.nvmCnt, slotA := s.pwr.slotA, slotB := s.pwr.slotB, supDown := s.pwr.supDown } := by
  have he : stayStart s = stayLoad (railLoad (stayFresh s)) := rfl
  have hk : Kept (· = .pwr) (stayFresh s) (stayLoad (railLoad (stayFresh s))) :=
    kept_stayLoad (by decide) (kept_railLoad (by decide) (.refl _))
  rw [he, hk.pwrs rfl, stayFresh_pwr]

/-- The supplies up, the pin high and every island running. -/
def released (u : PwrU) (s : State) : State := { s with inReset := false, pinLow := false, pwr := u }

theorem released_spec (u : PwrU) (s : State) : (released u s).inReset = false ∧ (released u s).pinLow = false ∧
    (released u s).pwr = u ∧ (released u s).mem = s.mem ∧ (released u s).psq = s.psq ∧ (released u s).ctx = s.ctx ∧
    (released u s).nvmRing = s.nvmRing ∧ (released u s).epoch = s.epoch ∧ (released u s).out = s.out ∧
    (∀ off, (released u s).reg off = s.reg off) := ⟨rfl, rfl, rfl, rfl, rfl, rfl, rfl, rfl, rfl, fun _ => rfl⟩

theorem powerOn_cold (h : s.pwr.lost = true) : powerOn s = released { (coldStart s).pwr with supDown := false } (coldStart s) := by
  unfold powerOn
  rw [if_neg (by simp [h])]
  rfl

theorem powerOn_warm (hs : pwState s = Pw.stayOnly) (hl : s.pwr.lost = false) :
    powerOn s = released { s.pwr with supDown := false } (s.p PWR_STAT_STATE Pw.off) := by
  unfold powerOn
  rw [if_pos ⟨hs, by simp [hl]⟩]
  rfl

theorem stayStart_afresh (ha : Afresh s u) : (stayStart u).mem = [] ∧ (stayStart u).psq = {} ∧ (stayStart u).ctx = [] ∧
    (stayStart u).nvmRing = s.nvmRing ∧ (stayStart u).epoch = s.epochNvm + 1 := by
  have hk : Kept (fun p => p ≠ .regs ∧ p ≠ .pwr) u (stayStart u) := stayStart_kept
  generalize stayStart u = t at hk ⊢
  have hmem : t.mem = u.mem := hk.same .mem (by decide)
  have hpsq : t.psq = u.psq := hk.same .psq (by decide)
  have hctx : t.ctx = u.ctx := hk.same .ctx (by decide)
  have hnvm : t.nvmRing = u.nvmRing := (hk.same .nvm (by decide)).1
  have hepoch : t.epoch = u.epoch := (hk.same .epoch (by decide)).1
  exact ⟨hmem.trans ha.mem, hpsq.trans ha.psq, hctx.trans ha.ctx, hnvm.trans ha.nvmRing, hepoch.trans ha.epoch⟩

theorem coldStart_eq : coldStart s = stayStart (resetCore 0 0 (resetTorn s)) := rfl

theorem coldStart_spec : (coldStart s).mem = [] ∧ (coldStart s).psq = {} ∧ (coldStart s).ctx = [] ∧ (coldStart s).nvmRing = s.nvmRing ∧
    (coldStart s).epoch = s.epochNvm + 1 := by
  rw [coldStart_eq]
  exact stayStart_afresh (afresh_torn (afresh_resetCore 0 0))

theorem stayStart_lost : (stayStart u).pwr.lost = false := congrArg PwrU.lost stayStart_pwr

theorem coldStart_lost : (coldStart s).pwr.lost = false := by
  rw [coldStart_eq]
  exact stayStart_lost

/-! ## Holding and releasing the reset -/

/-- Every island but STAY held in reset. -/
def withReset (b : Bool) (s : State) : State := { s with inReset := b }

/-- RESET_N low or high. -/
def withPin (b : Bool) (s : State) : State := { s with pinLow := b }

section
variable (b : Bool) (s : State)

theorem withReset_g (f : Fld) : (withReset b s).g f = s.g f := rfl
theorem withReset_reg (off : Nat) : (withReset b s).reg off = s.reg off := rfl
theorem withReset_pwr : (withReset b s).pwr = s.pwr := rfl
theorem withReset_out : (withReset b s).out = s.out := rfl
theorem withReset_pinLow : (withReset b s).pinLow = s.pinLow := rfl
theorem withReset_inReset : (withReset b s).inReset = b := rfl
theorem withReset_mem : (withReset b s).mem = s.mem := rfl
theorem withReset_psq : (withReset b s).psq = s.psq := rfl
theorem withReset_ctx : (withReset b s).ctx = s.ctx := rfl
theorem withPin_eq : { s with pinLow := b } = withPin b s := rfl
theorem withPin_g (f : Fld) : (withPin b s).g f = s.g f := rfl
theorem withPin_reg (off : Nat) : (withPin b s).reg off = s.reg off := rfl
theorem withPin_pwr : (withPin b s).pwr = s.pwr := rfl
theorem withPin_out : (withPin b s).out = s.out := rfl
theorem withPin_pinLow : (withPin b s).pinLow = b := rfl
theorem withPin_inReset : (withPin b s).inReset = s.inReset := rfl
theorem withPin_mem : (withPin b s).mem = s.mem := rfl
theorem withPin_psq : (withPin b s).psq = s.psq := rfl
theorem withPin_ctx : (withPin b s).ctx = s.ctx := rfl

end

theorem holdIslands_eq : holdIslands s = withReset true (if s.inReset then s else chipReset false s) := rfl

theorem holdReset_running (h : s.inReset = false) : holdReset s = withReset true (chipReset false (forceOutputs s)) := by
  have hk := kept_forceOutputs (K := (· = .pins)) (by decide) (by decide) (by decide) (by decide) (.refl s)
  have hf : (forceOutputs s).inReset = false := (hk.same .pins rfl).1.trans h
  have he : (if s.inReset = true then s else forceOutputs s) = forceOutputs s := if_neg (by simp [h])
  unfold holdReset
  rw [he, holdIslands_eq, hf, if_neg (by decide)]

theorem holdReset_held (h : s.inReset = true) : holdReset s = withReset true s := by
  unfold holdReset
  rw [if_pos h, holdIslands_eq, if_pos h]

theorem holdReset_inReset : (holdReset s).inReset = true := rfl

theorem holdIslands_kept : Kept (fun p => p = .pwr ∨ p = .out) s (holdIslands s) :=
  kept_holdIslands (by decide) (by decide) (by decide) (by decide) (by decide) (by decide) (by decide) (by decide) (by decide)
    (by decide) (by decide) (by decide) (by decide) (by decide) (by decide) (by decide) (by decide) (by decide) (by decide) (by decide)
    (by decide) (by decide) (by decide) (.refl s)

theorem holdReset_pwr : (holdReset s).pwr = s.pwr := by
  unfold holdReset
  refine (holdIslands_kept.pwrs (.inl rfl)).trans ?_
  split
  · rfl
  · exact (kept_forceOutputs (K := (· = .pwr)) (by decide) (by decide) (by decide) (by decide) (.refl s)).pwrs rfl

theorem releaseReset_held (h : s.pinLow = true ∨ s.pwr.supDown = true ∨ s.pwr.lost = true) : releaseReset s = s := if_pos h

/-- The reset released: STAY_ONLY ends in OFF. -/
theorem releaseReset_spec (hp : s.pinLow = false) (hs : s.pwr.supDown = false) (hl : s.pwr.lost = false) :
    (releaseReset s).pinLow = false ∧ (releaseReset s).inReset = false ∧
    pwState (releaseReset s) = (if pwState s = Pw.stayOnly then Pw.off else pwState s) ∧ (releaseReset s).out = s.out ∧
    (releaseReset s).pwr = s.pwr ∧ OnlyRegs [PWR_STAT] s (releaseReset s) := by
  have he : releaseReset s = withReset false (if pwState s = Pw.stayOnly then s.p PWR_STAT_STATE Pw.off else s) :=
    if_neg (by simp [hp, hs, hl])
  rw [he, withReset_pinLow, withReset_inReset, withReset_out, withReset_pwr]
  unfold pwState
  rw [withReset_g]
  split
  · exact ⟨hp, rfl, g_p_self _ _ _ (by decide), rfl, rfl, ((onlyRegs_refl _ s).p _ _ (by decide)).of_reg (withReset_reg _ _)⟩
  · exact ⟨hp, rfl, rfl, rfl, rfl, (onlyRegs_refl _ s).of_reg (withReset_reg _ _)⟩

/-! ## Supplies that fail -/

/-- Every slot disabled. -/
def allDisabled (s : State) : State := overN 32 (fun r s => setEnable r false s) s

theorem allDisabled_pwr : ∃ g o, (allDisabled s).pwr = { s.pwr with glitch := g, ovHigh := o } :=
  overN_keeps (P := fun t => ∃ g o, t.pwr = { s.pwr with glitch := g, ovHigh := o }) 32 _ (fun r t _ ⟨g, o, ht⟩ => by
    rw [setEnable_power, ht]
    exact ⟨_, _, rfl⟩) s ⟨_, _, rfl⟩

theorem stayAlone_pwr : ∃ g o, (stayAlone s).pwr =
    { s.pwr with glitch := g, ovHigh := o, ledger := [], wait := .none, down := none, endDue := false } := by
  obtain ⟨g, o, h⟩ := allDisabled_pwr (s := s)
  refine ⟨g, o, ?_⟩
  have hs : (setLedger [] (allDisabled s)).pwr = { s.pwr with glitch := g, ovHigh := o, ledger := [] } := by rw [setLedger_pwr, h]
  unfold stayAlone
  rw [setPwr_pwr, State.pb_pwr, State.p_pwr]
  rw [show setLedger [] (overN 32 (fun r s => setEnable r false s) s) = setLedger [] (allDisabled s) from rfl, hs]

theorem stayAlone_kept : Kept (fun p => p ≠ .regs ∧ p ≠ .pwr) s (stayAlone s) := kept_stayAlone (by decide) (by decide) (.refl s)

theorem stayAlone_shown : pwState (stayAlone s) = Pw.stayOnly ∧ (stayAlone s).on PWR_STAT_ON_HELD = false := by
  have hsh : Clear PWR_STAT_STATE PWR_STAT_ON_HELD := clear_const rfl
  have hsr : Clear PWR_STAT_STATE PWR_STAT_RETRY_WAIT := clear_const rfl
  unfold pwState stayAlone
  rw [setPwr_g, setPwr_on, g_pb_clear _ _ hsh, g_pb_clear _ _ hsr]
  exact ⟨g_p_self _ _ _ (by decide), on_pb_same _ _ rfl⟩

theorem saveEnd_save (h : s.pwr.save = none) : (saveEnd s).pwr.save = none := by
  have halone (t : State) : (stayAlone t).pwr.save = t.pwr.save := by
    obtain ⟨_, _, ht⟩ := stayAlone_pwr (s := t)
    rw [ht]
  have hrelease (t : State) : (releaseReset t).pwr = t.pwr :=
    (kept_releaseReset (K := (· = .pwr)) (by decide) (by decide) (.refl t)).pwrs rfl
  have hfail (t : State) (u : PwrU) (ht : u.save = none) : (stayAlone (holdIslands (setPwr u t))).pwr.save = none := by
    rw [halone, holdIslands_kept.pwrs (.inl rfl), setPwr_pwr, ht]
  have hpin (t : State) (u : PwrU) (ht : u.save = none) : (holdIslands (setPwr u t)).pwr.save = none := by
    rw [holdIslands_kept.pwrs (.inl rfl), setPwr_pwr, ht]
  have h1 : (if s.pwr.failWait then stayAlone (holdIslands (setPwr { s.pwr with failWait := false } s)) else s).pwr.save = none := by
    split
    · exact hfail _ _ h
    · exact h
  unfold saveEnd
  rw [if_neg (by simp [h])]
  dsimp only
  generalize (if s.pwr.failWait then stayAlone (holdIslands (setPwr { s.pwr with failWait := false } s)) else s) = s1 at h1 ⊢
  have h2 : (if s1.pwr.pinWait then holdIslands (setPwr { s1.pwr with pinWait := false } s1) else s1).pwr.save = none := by
    split
    · exact hpin _ _ h1
    · exact h1
  generalize (if s1.pwr.pinWait then holdIslands (setPwr { s1.pwr with pinWait := false } s1) else s1) = s2 at h2 ⊢
  split
  · rw [hrelease]
    exact h2
  · exact h2

/-! ## The happenings -/

theorem powerOn_afresh (h : s.pwr.lost = true) : (powerOn s).inReset = false ∧ (powerOn s).pinLow = false ∧ (powerOn s).pwr.lost = false ∧
    (powerOn s).mem = [] ∧ (powerOn s).psq = {} ∧ (powerOn s).ctx = [] ∧ (powerOn s).nvmRing = s.nvmRing ∧
    (powerOn s).epoch = s.epochNvm + 1 ∧ (powerOn s).pwr.supDown = false := by
  obtain ⟨hmem, hpsq, hctx, hnvm, hepoch⟩ := coldStart_spec (s := s)
  have hlost : (coldStart s).pwr.lost = false := coldStart_lost
  rw [powerOn_cold h]
  generalize coldStart s = u at hmem hpsq hctx hnvm hepoch hlost ⊢
  obtain ⟨hr, hpin, hp, hm, hq, hc, hn, he, -, -⟩ := released_spec { u.pwr with supDown := false } u
  rw [hp, hm, hq, hc, hn, he]
  exact ⟨hr, hpin, hlost, hmem, hpsq, hctx, hnvm, hepoch, rfl⟩

theorem powerOn_stay (hs : pwState s = Pw.stayOnly) (hl : s.pwr.lost = false) : pwState (powerOn s) = Pw.off ∧
    (powerOn s).inReset = false ∧ (powerOn s).pinLow = false ∧ (powerOn s).pwr = { s.pwr with supDown := false } ∧
    (powerOn s).out = s.out ∧ OnlyRegs [PWR_STAT] s (powerOn s) := by
  rw [powerOn_warm hs hl]
  have hoff : (s.p PWR_STAT_STATE Pw.off).g PWR_STAT_STATE = Pw.off := g_p_self _ _ _ (by decide)
  exact ⟨hoff, rfl, rfl, rfl, rfl, ((onlyRegs_refl _ s).p PWR_STAT_STATE Pw.off (by decide)).of_reg fun _ => rfl⟩

/-- RESET_N low with no save under way. -/
theorem resetPin_low (hr : s.inReset = false) (hs : s.pwr.save = none) : (resetPin true s).inReset = true ∧
    (resetPin true s).pinLow = true ∧ (resetPin true s).mem = [] ∧ (resetPin true s).psq = {} ∧ (resetPin true s).ctx = [] ∧
    (resetPin true s).pwr = s.pwr := by
  have he : resetPin true s = withPin true (holdReset s) := by
    unfold resetPin
    rw [if_neg (by decide), if_neg (by simp [hs])]
    exact withPin_eq true (holdReset s)
  have hf : (forceOutputs s).pwr = s.pwr :=
    (kept_forceOutputs (K := (· = .pwr)) (by decide) (by decide) (by decide) (by decide) (.refl s)).pwrs rfl
  have ha : Afresh (forceOutputs s) (chipReset false (forceOutputs s)) := afresh_chipReset false
  rw [he, holdReset_running hr]
  generalize chipReset false (forceOutputs s) = u at ha ⊢
  rw [withPin_inReset, withPin_pinLow, withPin_mem, withPin_psq, withPin_ctx, withPin_pwr, withReset_inReset, withReset_mem,
    withReset_psq, withReset_ctx, withReset_pwr]
  exact ⟨rfl, rfl, ha.mem, ha.psq, ha.ctx, ha.pwr.trans hf⟩

theorem forceOutputs_save : (forceOutputs s).pwr = s.pwr ∧ (forceOutputs s).mem = s.mem ∧ (forceOutputs s).inReset = s.inReset ∧
    (forceOutputs s).pinLow = s.pinLow := by
  have hk : Kept (fun p => p = .pwr ∨ p = .mem ∨ p = .pins) s (forceOutputs s) :=
    kept_forceOutputs (by decide) (by decide) (by decide) (by decide) (.refl s)
  have hpins := hk.same .pins (.inr (.inr rfl))
  exact ⟨hk.pwrs (.inl rfl), hk.same .mem (.inr (.inl rfl)), hpins.1, hpins.2⟩

/-- RESET_N low during a stay save. -/
theorem resetPin_saving (hr : s.inReset = false) (hs : s.pwr.save.isSome = true) : (resetPin true s).inReset = false ∧
    (resetPin true s).pinLow = true ∧ (resetPin true s).mem = s.mem ∧ (resetPin true s).pwr = { s.pwr with pinWait := true } ∧
    (resetPin true s).on ILK_STAT_FORCED = true := by
  have he : resetPin true s = setPwr { (forceOutputs (withPin true s)).pwr with pinWait := true } (forceOutputs (withPin true s)) := by
    unfold resetPin
    rw [if_neg (by decide), if_pos ⟨hs, by simp [hr]⟩]
    rfl
  obtain ⟨hpwr, hmem, hres, hpin⟩ := forceOutputs_save (s := withPin true s)
  have hforced : (forceOutputs (withPin true s)).on ILK_STAT_FORCED = true := forceOutputs_forced _
  rw [he]
  generalize forceOutputs (withPin true s) = u at hpwr hmem hres hpin hforced ⊢
  rw [setPwr_on, setPwr_pwr, hpwr, withPin_pwr]
  exact ⟨hres.trans hr, hpin, hmem, rfl, hforced⟩

/-- RESET_N high again. -/
theorem resetPin_high : resetPin false s = releaseReset (withPin false s) := rfl

theorem supplyFail_eq (hd : s.pwr.supDown = false) (hl : s.pwr.lost = false) (hs : s.pwr.save = none ∨ s.inReset = true) :
    supplyFail s = stayAlone (holdReset (setPwr { s.pwr with supDown := true } s)) := by
  have hn : ¬(s.pwr.save.isSome ∧ !s.inReset) := by
    rcases hs with h | h <;> simp [h]
  unfold supplyFail
  rw [if_neg (by simp [hd, hl])]
  dsimp only
  rw [if_neg hn]

/-- A supply that fails with no save to wait for. -/
theorem supplyFail_alone (hd : s.pwr.supDown = false) (hl : s.pwr.lost = false) (hs : s.pwr.save = none ∨ s.inReset = true) :
    pwState (supplyFail s) = Pw.stayOnly ∧ (supplyFail s).inReset = true ∧ (supplyFail s).pwr.ledger = [] ∧
    (supplyFail s).pwr.wait = .none ∧ (supplyFail s).on PWR_STAT_ON_HELD = false ∧ (supplyFail s).pwr.supDown = true := by
  have hh : (holdReset (setPwr { s.pwr with supDown := true } s)).pwr = { s.pwr with supDown := true } := by
    rw [holdReset_pwr, setPwr_pwr]
  have hr : (holdReset (setPwr { s.pwr with supDown := true } s)).inReset = true := holdReset_inReset
  rw [supplyFail_eq hd hl hs]
  generalize holdReset (setPwr { s.pwr with supDown := true } s) = u at hh hr ⊢
  obtain ⟨_, _, hp⟩ := stayAlone_pwr (s := u)
  have hpins : (stayAlone u).inReset = u.inReset := ((stayAlone_kept (s := u)).same .pins (by decide)).1
  obtain ⟨hst, hon⟩ := stayAlone_shown (s := u)
  rw [hp, hh]
  exact ⟨hst, hpins.trans hr, rfl, rfl, hon, rfl⟩

/-- A supply that fails during a stay save. -/
theorem supplyFail_saving (hd : s.pwr.supDown = false) (hl : s.pwr.lost = false) (hs : s.pwr.save.isSome = true)
    (hr : s.inReset = false) : (supplyFail s).inReset = false ∧ (supplyFail s).mem = s.mem ∧
    (supplyFail s).pwr = { s.pwr with supDown := true, failWait := true } ∧ (supplyFail s).on ILK_STAT_FORCED = true := by
  have he : supplyFail s = setPwr { (forceOutputs (setPwr { s.pwr with supDown := true } s)).pwr with failWait := true }
      (forceOutputs (setPwr { s.pwr with supDown := true } s)) := by
    unfold supplyFail
    rw [if_neg (by simp [hd, hl])]
    dsimp only
    rw [if_pos ⟨hs, by simp [hr]⟩]
  obtain ⟨hpwr, hmem, hres, -⟩ := forceOutputs_save (s := setPwr { s.pwr with supDown := true } s)
  have hforced : (forceOutputs (setPwr { s.pwr with supDown := true } s)).on ILK_STAT_FORCED = true := forceOutputs_forced _
  rw [he]
  generalize forceOutputs (setPwr { s.pwr with supDown := true } s) = u at hpwr hmem hres hforced ⊢
  rw [setPwr_on, setPwr_pwr, hpwr, setPwr_pwr]
  exact ⟨hres.trans hr, hmem, rfl, hforced⟩

/-- The supplies back, with nothing else holding the reset. -/
theorem supplyRecover_spec (hd : s.pwr.supDown = true) (hl : s.pwr.lost = false) (hf : s.pwr.failWait = false) (hp : s.pinLow = false) :
    pwState (supplyRecover s) = (if pwState s = Pw.stayOnly then Pw.off else pwState s) ∧ (supplyRecover s).inReset = false ∧
    (supplyRecover s).pwr = { s.pwr with supDown := false } ∧ (supplyRecover s).out = s.out ∧
    OnlyRegs [PWR_STAT] s (supplyRecover s) := by
  have he : supplyRecover s = releaseReset (setPwr { s.pwr with supDown := false } s) := by
    unfold supplyRecover
    rw [if_pos ⟨hd, by simp [hl]⟩]
    dsimp only
    rw [if_neg (by simp [hf])]
  obtain ⟨-, hr, hst, hout, hpwr, hregs⟩ := releaseReset_spec (s := setPwr { s.pwr with supDown := false } s) hp rfl hl
  rw [he, hst, hout, hpwr, setPwr_pwr, setPwr_out]
  exact ⟨rfl, hr, rfl, rfl, hregs⟩

theorem supplyRecover_pin (hd : s.pwr.supDown = true) (hl : s.pwr.lost = false) (hp : s.pinLow = true) :
    supplyRecover s = setPwr { s.pwr with supDown := false } s := by
  unfold supplyRecover
  rw [if_pos ⟨hd, by simp [hl]⟩]
  dsimp only
  split
  · rfl
  · exact releaseReset_held (.inl hp)

theorem staySaveAbort_save : (staySaveAbort s).pwr.save = none := by
  cases h : s.pwr.save with
  | none =>
    unfold staySaveAbort
    rw [h]
    exact h
  | some v =>
    have hc : (slotCut s).pwr.save = none := by
      unfold slotCut
      rw [staySlots_pwr]
    rw [staySaveAbort_eq h, (tripFollow_kept false _).pwrs (by decide), setPwr_pwr]
    exact hc

/-- The decay of VSTAY with the supplies down. -/
theorem vstayDecay_spec (hd : s.pwr.supDown = true) (hl : s.pwr.lost = false) : (vstayDecay s).pwr.lost = true ∧
    (vstayDecay s).pwr.save = none ∧ pwState (vstayDecay s) = Pw.off ∧ (vstayDecay s).out = s.out := by
  have he : vstayDecay s = setPwr { ((saveEnd (staySaveAbort s)).p PWR_STAT_STATE Pw.off).pwr with lost := true }
      ((saveEnd (staySaveAbort s)).p PWR_STAT_STATE Pw.off) := by
    unfold vstayDecay
    rw [if_pos ⟨hd, by simp [hl]⟩]
  have hout : (saveEnd (staySaveAbort s)).out = s.out :=
    (kept_saveEnd (K := (· = .out)) (by decide) (by decide) (by decide) (by decide) (by decide) (by decide) (by decide) (by decide) (by decide)
      (by decide) (by decide) (by decide) (by decide) (by decide) (by decide) (by decide) (by decide) (by decide) (by decide) (by decide)
      (by decide) (by decide) (by decide) (by decide) (kept_staySaveAbort (by decide) (by decide) (by decide) (.refl s))).outs rfl
  have hsave : (saveEnd (staySaveAbort s)).pwr.save = none := saveEnd_save staySaveAbort_save
  rw [he]
  unfold pwState
  rw [setPwr_pwr, setPwr_g, setPwr_out]
  generalize saveEnd (staySaveAbort s) = u at hout hsave ⊢
  exact ⟨rfl, hsave, g_p_self _ _ _ (by decide), hout⟩

/-! ## CHIP_RESET -/

theorem offRequest_off (h : pwState s = Pw.off) : offRequest s = s.pb PWR_STAT_ON_HELD false := by
  have hst : pwState (s.pb PWR_STAT_ON_HELD false) = Pw.off := (g_pb_clear _ _ (clear_const rfl)).trans h
  unfold offRequest
  dsimp only
  rw [hst, if_neg (by decide), if_neg (by decide), if_neg (by decide)]

/-- A reset asked for, to be taken once the power is off. -/
def resetAsked (s : State) : State := { s with rig := { s.rig with resetWait := true } }

section
variable (s : State)

theorem resetAsked_waits : (resetAsked s).rig.resetWait = true := rfl
theorem resetAsked_g (f : Fld) : (resetAsked s).g f = s.g f := rfl
theorem resetAsked_epochNvm : (resetAsked s).epochNvm = s.epochNvm := rfl

end

theorem settleReset_due (hw : s.rig.resetWait = true) (hp : pwState s = Pw.off) : settleReset s = chipReset true s := by
  unfold settleReset
  rw [hw, hp]
  rfl

/-- CHIP_RESET in a state that allows it, with the power off. -/
theorem chipResetWrite_legal {v : Word} (hkey : fieldOf CHIP_RESET_KEY v = 0xC1EA) (hgo : fieldOf CHIP_RESET_GO v = 1)
    (hl : resetLegal s = true) (hp : pwState s = Pw.off) : (chipResetWrite v s).g CHIP_RSTCAUSE_CAUSE = 1 ∧
    (chipResetWrite v s).g CHIP_RSTCAUSE_COUNT = min 65535 (s.g CHIP_RSTCAUSE_COUNT + 1) ∧ (chipResetWrite v s).epoch = s.epochNvm + 1 ∧
    (chipResetWrite v s).mem = [] ∧ (chipResetWrite v s).psq = {} ∧ pwState (chipResetWrite v s) = Pw.off := by
  have hlow : Alike Low s (forceOutputs s) := low_forceOutputs (.refl s)
  have hst : pwState (forceOutputs s) = Pw.off := (hlow.g (f := PWR_STAT_STATE) (by unfold Low; decide)).trans hp
  have hcount : (forceOutputs s).g CHIP_RSTCAUSE_COUNT = s.g CHIP_RSTCAUSE_COUNT := hlow.g (by unfold Low; decide)
  have hepoch : (forceOutputs s).epochNvm = s.epochNvm :=
    ((kept_forceOutputs (K := (· = .epoch)) (by decide) (by decide) (by decide) (by decide) (.refl s)).same .epoch rfl).2
  have he : chipResetWrite v s = settleReset (resetAsked (offRequest (forceOutputs s))) := by
    unfold chipResetWrite
    rw [hkey, hgo, if_neg (by decide), if_pos hl]
    rfl
  rw [he, offRequest_off hst]
  generalize forceOutputs s = u at hst hcount hepoch ⊢
  have hau : pwState (resetAsked (u.pb PWR_STAT_ON_HELD false)) = Pw.off :=
    (resetAsked_g _ _).trans ((g_pb_clear _ _ (clear_const rfl)).trans hst)
  have hac : (resetAsked (u.pb PWR_STAT_ON_HELD false)).g CHIP_RSTCAUSE_COUNT = s.g CHIP_RSTCAUSE_COUNT :=
    (resetAsked_g _ _).trans ((g_pb_clear _ _ (clear_const rfl)).trans hcount)
  have hae : (resetAsked (u.pb PWR_STAT_ON_HELD false)).epochNvm = s.epochNvm := by
    rw [resetAsked_epochNvm, State.pb_epochNvm, hepoch]
  rw [settleReset_due (resetAsked_waits _) hau]
  generalize resetAsked (u.pb PWR_STAT_ON_HELD false) = w at hau hac hae ⊢
  have ha : Afresh w (chipReset true w) := afresh_chipReset true
  obtain ⟨hcause, hn⟩ := chipReset_shown (s := w)
  rw [hac] at hn
  have hps : pwState (chipReset true w) = Pw.off := (ha.g (f := PWR_STAT_STATE) rfl).trans hau
  generalize chipReset true w = t at ha hcause hn hps ⊢
  exact ⟨hcause, hn, ha.epoch.trans (congrArg (· + 1) hae), ha.mem, ha.psq, hps⟩

/-- CHIP_RESET in an engine state that does not allow it. -/
theorem chipResetWrite_refused {v : Word} (hkey : fieldOf CHIP_RESET_KEY v = 0xC1EA) (hgo : fieldOf CHIP_RESET_GO v = 1)
    (hl : resetLegal s = false) : chipResetWrite v s = s.chipErr CHIP_ERR_RESET_REFUSED CHIP_RESET := by
  unfold chipResetWrite
  rw [hkey, hgo, if_neg (by decide), if_neg (by simp [hl])]

/-- An access noted in CHIP_ERR, its address kept where CHIP_ERR read 0. -/
theorem chipErr_spec {f : Fld} {off : Nat} (hf : f.off = CHIP_ERR) (hw : 0 < f.w) (hlo : f.lo + f.w ≤ 32) (hoff : off < 2 ^ 26) :
    (s.chipErr f off).on f = true ∧ (s.reg CHIP_ERR = 0 → (s.chipErr f off).reg CHIP_ERRADDR = BitVec.ofNat 32 (2 ^ 31 + off)) ∧
    (s.chipErr f off).rig = s.rig ∧ (s.chipErr f off).mem = s.mem ∧ (s.chipErr f off).out = s.out ∧
    OnlyRegs [CHIP_ERR, CHIP_ERRADDR] s (s.chipErr f off) := by
  have hone : 1 % 2 ^ f.w = 1 := Nat.mod_eq_of_lt (Nat.one_lt_two_pow hw.ne')
  have hne : CHIP_ERRADDR ≠ f.off := by
    rw [hf]
    decide
  unfold State.chipErr
  dsimp only
  refine ⟨?_, fun h0 => ?_, ?_, ?_, ?_, ?_⟩
  · rw [State.on, (g_p_self _ _ _ hlo).trans hone]
    rfl
  · rw [if_pos h0, Nat.mod_eq_of_lt hoff]
    exact (reg_setReg_other _ _ _ _ hne).trans (reg_setReg_self _ _ _)
  · rw [State.p_rig]
    split <;> rfl
  · rw [State.p_mem]
    split <;> rfl
  · rw [State.p_out]
    split <;> rfl
  · refine OnlyRegs.p ?_ _ _ (by simp [hf])
    split
    · exact (onlyRegs_refl _ s).setReg _ (by decide)
    · exact onlyRegs_refl _ s

end

/-- Settles O30: a reset of the islands keeps the stay island's registers and the sequencer, and the stay island's own start,
release and stop each change the power state alone. -/
theorem suppliesAndReset : Obligations.SuppliesAndReset := by
  unfold Obligations.SuppliesAndReset
  intro s v
  refine ⟨fun h => ⟨_, rfl, powerOn_afresh h⟩, fun hs hl => ⟨_, rfl, powerOn_stay hs hl⟩, fun hr hs => ⟨_, rfl, resetPin_low hr hs⟩,
    fun hr hs => ⟨_, rfl, resetPin_saving hr hs⟩, fun hd hl => ⟨_, rfl, ?_⟩, fun h => ⟨_, rfl, ?_⟩,
    fun hd hl hs => ⟨_, rfl, supplyFail_alone hd hl hs⟩, fun hd hl hs hr => ⟨_, rfl, supplyFail_saving hd hl hs hr⟩,
    fun hd hl hf hp => ⟨_, rfl, supplyRecover_spec hd hl hf hp⟩, fun hd hl hp => ⟨_, rfl, supplyRecover_pin hd hl hp⟩,
    fun hd hl => ⟨_, rfl, vstayDecay_spec hd hl⟩, fun hr hkey hgo hl hp _ => .of_hostAt rfl hr (chipResetWrite_legal hkey hgo hl hp),
    fun hr hkey hgo hl => .of_hostAt rfl hr ?_⟩
  · obtain ⟨hpin, hr, hst, hout, -, hregs⟩ := releaseReset_spec (s := withPin false s) rfl hd hl
    exact ⟨hpin, hr, hst, hout, hregs⟩
  · exact releaseReset_held (s := withPin false s) (.inr h)
  · rw [chipResetWrite_refused hkey hgo hl]
    exact chipErr_spec (f := CHIP_ERR_RESET_REFUSED) rfl (by decide) (by decide) (by decide)

end Sys2Proof.Machine
end

section
/-!
PROOFS. The profile of an axis (spec/11_step_motion.md R254-R264, R268): moves begin, tick and end, and the encoder's count.
-/

namespace Sys2Proof.Machine

open Reg

set_option Elab.async false

/-! ## Axis and group state -/

section
variable (s : State) (n g : Nat) (f : Ax → Ax) (e : Ag → Ag)

theorem axU_modAx_self : axU (modAx n f s) n = f (axU s n) := bankGet_put_self _ _ _ _
theorem axU_modAx_other {m : Nat} (h : m ≠ n) : axU (modAx n f s) m = axU s m := bankGet_put_other _ _ _ _ _ _ h
theorem agU_modAg_self : agU (modAg g e s) g = e (agU s g) := bankGet_put_self _ _ _ _
theorem axU_modAg (m : Nat) : axU (modAg g e s) m = axU s m := rfl
theorem modAx_g (k : Fld) : (modAx n f s).g k = s.g k := rfl
theorem modAx_on (k : Fld) : (modAx n f s).on k = s.on k := rfl
theorem modAx_reg (off : Nat) : (modAx n f s).reg off = s.reg off := rfl
theorem modAx_out : (modAx n f s).out = s.out := rfl
theorem modAx_ag : (modAx n f s).mot.ag = s.mot.ag := rfl
theorem modAg_g (k : Fld) : (modAg g e s).g k = s.g k := rfl
theorem modAg_on (k : Fld) : (modAg g e s).on k = s.on k := rfl
theorem modAg_reg (off : Nat) : (modAg g e s).reg off = s.reg off := rfl
theorem modAg_out : (modAg g e s).out = s.out := rfl
theorem axU_p (k : Fld) (v : Nat) : axU (s.p k v) n = axU s n := rfl
theorem axU_pb (k : Fld) (v : Bool) : axU (s.pb k v) n = axU s n := rfl
theorem axU_setReg (off : Nat) (v : Word) : axU (s.setReg off v) n = axU s n := rfl
theorem agU_p (k : Fld) (v : Nat) : agU (s.p k v) g = agU s g := rfl
theorem agU_pb (k : Fld) (v : Bool) : agU (s.pb k v) g = agU s g := rfl

end

theorem axU_congr {s t : State} {n : Nat} (h : t.mot.ax = s.mot.ax) : axU t n = axU s n := by
  unfold axU
  rw [h]
theorem agU_congr {s t : State} {g : Nat} (h : t.mot.ag = s.mot.ag) : agU t g = agU s g := by
  unfold agU
  rw [h]

/-! ## Changes within a move -/

/-- What a profile moves. -/
def profileOf (u : Ax) : Nat × Nat × Nat × Bool := (u.vel, u.prog, u.dist, u.velMode)

section
variable {l : List Nat} {n : Nat} {s t u : State}

/-- A change of axis `n`, of the registers `l` at most, which leaves its state and its profile. -/
structure Turns (l : List Nat) (n : Nat) (s t : State) : Prop where
  regs : OnlyRegs l s t
  state : axState t n = axState s n
  groups : t.mot.ag = s.mot.ag
  others : ∀ m, m ≠ n → axU t m = axU s m
  profile : profileOf (axU t n) = profileOf (axU s n)

namespace Turns

theorem refl (l : List Nat) (n : Nat) (s : State) : Turns l n s s := ⟨onlyRegs_refl _ s, rfl, rfl, fun _ _ => rfl, rfl⟩

theorem trans (h : Turns l n s t) (k : Turns l n t u) : Turns l n s u :=
  ⟨h.regs.trans k.regs, k.state.trans h.state, k.groups.trans h.groups, fun m hm => (k.others m hm).trans (h.others m hm),
    k.profile.trans h.profile⟩

theorem mono {l' : List Nat} (h : Turns l n s t) (hl : ∀ off ∈ l, off ∈ l') : Turns l' n s t :=
  ⟨fun off ho => h.regs off fun hm => ho (hl off hm), h.state, h.groups, h.others, h.profile⟩

theorem pb {f : Fld} (v : Bool) (ho : f.off ∈ l) (hc : Clear (AX_STAT_STATE n) f) : Turns l n s (s.pb f v) :=
  ⟨(onlyRegs_refl _ s).pb _ _ ho, g_pb_clear _ _ hc, rfl, fun _ _ => rfl, rfl⟩

theorem p {f : Fld} (v : Nat) (ho : f.off ∈ l) (hc : Clear (AX_STAT_STATE n) f) : Turns l n s (s.p f v) :=
  ⟨(onlyRegs_refl _ s).p _ _ ho, g_p_clear _ _ hc, rfl, fun _ _ => rfl, rfl⟩

theorem setReg {off : Nat} (v : Word) (ho : off ∈ l) (hc : AX_STAT n ≠ off) : Turns l n s (s.setReg off v) := by
  refine ⟨(onlyRegs_refl _ s).setReg _ ho, ?_, rfl, fun _ _ => rfl, rfl⟩
  exact ((onlyRegs_refl [off] s).setReg v List.mem_cons_self).alike.g fun hm => hc (List.mem_singleton.mp hm)

theorem modAx {f : Ax → Ax} (h : Turns l n s t) (hf : ∀ u, profileOf (f u) = profileOf u) : Turns l n s (modAx n f t) :=
  h.trans ⟨onlyRegs_of_regs rfl rfl rfl, modAx_g _ _ _ _, modAx_ag _ _ _, fun _ hm => axU_modAx_other _ _ _ hm,
    (congrArg profileOf (axU_modAx_self _ _ _)).trans (hf _)⟩

theorem ite {c : Prop} [Decidable c] (h : Turns l n s t) (k : Turns l n s u) : Turns l n s (if c then t else u) := by
  split
  · exact h
  · exact k

theorem drive (cls inst sig : Nat) (o : Out) : Turns l n s (s.drive cls inst sig o) := by
  obtain ⟨hp, hr, hb⟩ := drive_regs (s := s) cls inst sig o
  have hm : (s.drive cls inst sig o).mot = s.mot :=
    (kept_State_drive (K := (· = .mot)) (by decide) cls inst sig o (.refl s)).same .mot rfl
  refine ⟨onlyRegs_of_regs hp hr hb, g_eq_of_regs _ ⟨hp, hr, hb⟩, congrArg (·.ag) hm, fun m _ => axU_congr (congrArg (·.ax) hm), ?_⟩
  rw [axU_congr (congrArg (·.ax) hm)]

theorem axU_eq (h : Turns l n s t) : (axU t n).vel = (axU s n).vel ∧ (axU t n).prog = (axU s n).prog ∧
    (axU t n).dist = (axU s n).dist ∧ (axU t n).velMode = (axU s n).velMode := by
  have hp := h.profile
  unfold profileOf at hp
  simpa using hp

end Turns

/-! ## Levels -/

theorem setLevel_turns (k : Nat) : Turns [AX_STAT n] n s (setLevel n k s) := by
  have hl : Turns [AX_STAT n] n s (s.p (AX_STAT_LEVEL n) k) := .p _ List.mem_cons_self (clear_inst rfl)
  have hp {t : State} : Turns [AX_STAT n] n t (t.pb (AX_STAT_PEND n) false) := .pb _ List.mem_cons_self (clear_inst rfl)
  unfold setLevel
  split
  · exact hp
  · exact (hl.trans hp).modAx fun _ => rfl

theorem setLevel_kept (k : Nat) : (setLevel n k s).out = s.out ∧ (axU (setLevel n k s) n).emitted = (axU s n).emitted := by
  unfold setLevel
  split
  · exact ⟨State.pb_out _ _ _, by rw [axU_pb]⟩
  · rw [axU_modAx_self, modAx_out, State.pb_out, State.p_out, axU_pb, axU_p]
    exact ⟨rfl, rfl⟩

theorem atBoundary_turns (rest : Nat) (toTarget : Bool) : Turns [AX_STAT n] n s (atBoundary n rest toTarget s) := by
  unfold atBoundary
  split
  · exact setLevel_turns _
  · split
    · exact setLevel_turns _
    · exact .refl _ _ _

theorem atBoundary_kept (rest : Nat) (toTarget : Bool) : (atBoundary n rest toTarget s).out = s.out ∧
    (axU (atBoundary n rest toTarget s) n).emitted = (axU s n).emitted := by
  unfold atBoundary
  split
  · exact setLevel_kept _
  · split
    · exact setLevel_kept _
    · exact ⟨rfl, rfl⟩

/-! ## A move begins -/

/-- The axis as its move begins, its level aside. -/
def axBegun (n : Nat) (velMode byGroup : Bool) (delta : Int) (s : State) : State :=
  modAx n (fun u => { u with
    prog := 0, vel := 0, emitted := 0, dist := delta.natAbs, fwd := decide (0 ≤ delta),
    velMode := velMode, byGroup := byGroup, estop := false, disable := false,
    dirOut := if u.hold = 0 then decide (0 ≤ delta) else u.dirOut,
    wait := if decide (0 ≤ delta) = u.dirOut then u.wait else max u.wait (u.hold + s.g (AX_TIMING_TDS n)) })
    (s.p (AX_STAT_STATE n) Axs.moving)

theorem axBegin_eq (velMode byGroup : Bool) (delta : Int) : axBegin n velMode byGroup delta s =
    if boundaryAt (axBegun n velMode byGroup delta s) n (s32 (s.reg (AX_POS n))) && !velMode then
      atBoundary n delta.natAbs true (axBegun n velMode byGroup delta s)
    else axBegun n velMode byGroup delta s := rfl

/-- A move that began: the axis moves over its distance. -/
structure Begun (n : Nat) (velMode : Bool) (delta : Int) (s t : State) : Prop where
  regs : OnlyRegs [AX_STAT n] s t
  state : axState t n = Axs.moving
  mode : (axU t n).velMode = velMode
  dist : (axU t n).dist = delta.natAbs
  emitted : (axU t n).emitted = 0
  out : t.out = s.out
  groups : t.mot.ag = s.mot.ag
  others : ∀ m, m ≠ n → axU t m = axU s m

theorem begun_axBegin (velMode byGroup : Bool) (delta : Int) : Begun n velMode delta s (axBegin n velMode byGroup delta s) := by
  have hb : Begun n velMode delta s (axBegun n velMode byGroup delta s) := by
    unfold axBegun
    refine ⟨((onlyRegs_refl _ s).p (AX_STAT_STATE n) Axs.moving List.mem_cons_self).of_reg (modAx_reg _ _ _), ?_, ?_, ?_, ?_,
      rfl, rfl, fun m hm => axU_modAx_other _ _ _ hm⟩
    · exact (modAx_g _ _ _ _).trans (g_p_self _ _ _ (Nat.le_of_ble_eq_true rfl))
    · rw [axU_modAx_self]
    · rw [axU_modAx_self]
    · rw [axU_modAx_self]
  rw [axBegin_eq]
  generalize axBegun n velMode byGroup delta s = t at hb ⊢
  split
  · have ht : Turns [AX_STAT n] n t (atBoundary n delta.natAbs true t) := atBoundary_turns _ _
    obtain ⟨hout, hem⟩ := atBoundary_kept (n := n) (s := t) delta.natAbs true
    obtain ⟨-, -, hdist, hmode⟩ := ht.axU_eq
    exact ⟨hb.regs.trans ht.regs, ht.state.trans hb.state, hmode.trans hb.mode, hdist.trans hb.dist, hem.trans hb.emitted,
      hout.trans hb.out, ht.groups.trans hb.groups, fun m hm => (ht.others m hm).trans (hb.others m hm)⟩
  · exact hb

/-- A pulse of the start input of a waiting axis. -/
theorem axPulse_waiting (hw : axState s n = Axs.waiting) (hk : s.psq.stopInForce = false ∨ s.on (AX_CTRL_KEEP n) = true) :
    axPulse n s = axBegin n (axU s n).latch.1 false (axU s n).latch.2 s := by
  have hs : (!stopped s (AX_CTRL_KEEP n)) = true := by
    unfold stopped
    rcases hk with h | h <;> simp [h]
  unfold axPulse
  rw [if_pos ⟨hw, hs⟩]
  rfl

/-! ## Step edges -/

/-- The registers that a tick of axis `n` moves. -/
def tickRegs (n : Nat) : List Nat := [AX_STAT n, AX_POS n, AX_VEL n]

theorem turns_stat {l : List Nat} (h : Turns [AX_STAT n] n s t) (hl : AX_STAT n ∈ l) : Turns l n s t :=
  h.mono fun off ho => by
    rw [List.mem_singleton.mp ho]
    exact hl

theorem stat_mem_tickRegs : AX_STAT n ∈ tickRegs n := List.mem_cons_self

theorem pend_turns (b : Bool) : Turns (tickRegs n) n s (s.pb (AX_STAT_PEND n) b) := .pb b stat_mem_tickRegs (clear_inst rfl)

theorem held_turns (b : Bool) : Turns (tickRegs n) n s (s.pb (AX_STAT_HELD n) b) := .pb b stat_mem_tickRegs (clear_inst rfl)

theorem pendTo_turns (j : Nat) : Turns (tickRegs n) n s (modAx n (fun u => { u with pendTo := j }) s) := (Turns.refl _ _ _).modAx fun _ => rfl

theorem levelPend_turns (v : Nat) : Turns (tickRegs n) n s (levelPend n v s) :=
  (pend_turns (wantLevel s n v != s.g (AX_STAT_LEVEL n))).trans (pendTo_turns (wantLevel s n v))

/-- The signed way of a pulse. -/
def edgeSign (n : Nat) (s : State) : Int := if (axU s n).fwd then 1 else -1

/-- The position that a pulse reaches. -/
def edgePos (n : Nat) (s : State) : Int := s32 (s.reg (AX_POS n)) + edgeSign n s * ((2 ^ s.g (AX_STAT_LEVEL n) : Nat) : Int)

/-- The output timing after a pulse. -/
def edgeTimed (n e : Nat) (s : State) (u : Ax) : Ax :=
  { u with
    emitted := u.emitted + 2 ^ s.g (AX_STAT_LEVEL n), wait := e + 2 * s.g (AX_TIMING_TH n), high := e + s.g (AX_TIMING_TH n),
    hold := e + s.g (AX_TIMING_TDS n) }

/-- The axis after a pulse, its level aside. -/
def edgeTaken (n e : Nat) (s : State) : State :=
  (modAx n (edgeTimed n e s) (s.setReg (AX_POS n) (BitVec.ofInt 32 (edgePos n s)))).drive 0x12 n 0 (.steps n (edgeSign n s))

theorem takeEdge_eq (e : Nat) (toTarget : Bool) : takeEdge n e toTarget s =
    if boundaryAt (edgeTaken n e s) n (edgePos n s) then
      atBoundary n ((axU s n).dist - ((axU s n).emitted + 2 ^ s.g (AX_STAT_LEVEL n))) toTarget (edgeTaken n e s)
    else edgeTaken n e s := rfl

theorem takeEdge_turns (e : Nat) (toTarget : Bool) : Turns (tickRegs n) n s (takeEdge n e toTarget s) := by
  have hpos : AX_STAT n ≠ AX_POS n := by
    unfold AX_STAT AX_POS
    omega
  have hset : Turns (tickRegs n) n s (s.setReg (AX_POS n) (BitVec.ofInt 32 (edgePos n s))) :=
    .setReg _ (List.mem_cons_of_mem _ List.mem_cons_self) hpos
  have hprof (u : Ax) : profileOf (edgeTimed n e s u) = profileOf u := rfl
  have hedge : Turns (tickRegs n) n s (edgeTaken n e s) := (hset.modAx hprof).trans (.drive _ _ _ _)
  rw [takeEdge_eq]
  exact .ite (hedge.trans (turns_stat (atBoundary_turns _ _) List.mem_cons_self)) hedge

theorem stepEdges_turns (p0 p1 : Nat) (toTarget : Bool) (k : Nat) : Turns (tickRegs n) n s (stepEdges n p0 p1 toTarget k s) := by
  induction k generalizing s with
  | zero => exact .refl _ _ _
  | succ k ih =>
    unfold stepEdges
    exact .ite (.refl _ _ _) ((takeEdge_turns _ _).trans ih)

theorem velSync_turns (v : Nat) : Turns (tickRegs n) n s (velSync n v s) :=
  .setReg _ (List.mem_cons_of_mem _ (List.mem_cons_of_mem _ List.mem_cons_self)) (by unfold AX_STAT AX_VEL; omega)

/-! ## A profile tick -/

theorem followCheck_off (h : s.on (AX_ENC_EN n) = false) : followCheck n s = s := by
  unfold followCheck
  exact if_neg (by simp [h])

theorem axTick_still (he : s.on (AX_ENC_EN n) = false) (hm : axMoving (axState s n) = false) : axTick n s = s := by
  unfold axTick
  rw [followCheck_off he]
  dsimp only
  rw [if_pos (.inr (by simp [hm]))]

/-- The next speed of an axis that moves by itself. -/
def tickVel (n : Nat) (s : State) : Nat :=
  nextVel (axU s n).vel (s.g (AX_VMAX_VMAX n)) (s.g (AX_ACCEL_ACCEL n)) (s.g (AX_DECEL_DECEL n))
    (if (axU s n).velMode then none else some ((axU s n).dist * 2000000000000 - (axU s n).prog)) (axHeld s n (axU s n).vel)

/-- Its next progress: on by the mean of the two speeds, a position move's no further than its target. -/
def tickProg (n : Nat) (s : State) : Nat :=
  if (axU s n).velMode then (axU s n).prog + (axU s n).vel + tickVel n s
  else min ((axU s n).dist * 2000000000000) ((axU s n).prog + (axU s n).vel + tickVel n s)

/-- The axis with its next speed and progress. -/
def axTicked (n : Nat) (s : State) : State := modAx n (fun u => { u with vel := tickVel n s, prog := tickProg n s }) s

/-- What a tick does after the profile has moved: the level that is wanted, and the edges. -/
theorem tickEdges_turns (w : State) (v p0 p : Nat) (held toTarget : Bool) (k : Nat) : Turns (tickRegs n) n w
    (stepEdges n p0 p toTarget k (levelPend n v (if held then (velSync n v w).pb (AX_STAT_HELD n) true else velSync n v w))) := by
  refine Turns.trans ?_ ((levelPend_turns v).trans (stepEdges_turns p0 p toTarget k))
  exact .ite ((velSync_turns v).trans (held_turns true)) (velSync_turns v)

/-- The tick of an axis that moves by itself. -/
theorem axTick_moving (he : s.on (AX_ENC_EN n) = false) (hm : axState s n = Axs.moving) (hb : (axU s n).byGroup = false) :
    Turns (tickRegs n) n (axTicked n s) (axTick n s) := by
  have hmove : ¬((axU s n).byGroup = true ∨ (!axMoving Axs.moving) = true) := by
    rw [hb]
    decide
  have hstop : ¬ Axs.moving = Axs.stopping := by decide
  unfold axTick axTicked tickProg tickVel
  rw [followCheck_off he]
  dsimp only
  rw [hm, if_neg hmove, if_neg hstop]
  cases hmode : (axU s n).velMode with
  | true =>
    simp only [if_true]
    exact tickEdges_turns _ _ _ _ _ _ _
  | false =>
    simp only [Bool.false_eq_true, if_false]
    exact tickEdges_turns _ _ _ _ _ _ _

theorem overN_single {f : Nat → State → State} {k : Nat} (hn : n < k) (hlo : ∀ m, m < n → f m s = s)
    (hhi : ∀ m, n < m → m < k → f m (f n s) = f n s) : overN k f s = f n s := by
  have hless : ∀ j, j ≤ n → overN j f s = s := by
    intro j
    induction j with
    | zero => exact fun _ => rfl
    | succ j ih =>
      intro hj
      rw [overN_succ, ih (Nat.le_of_succ_le hj), hlo j hj]
  induction k with
  | zero => exact absurd hn (Nat.not_lt_zero n)
  | succ k ih =>
    rw [overN_succ]
    rcases Nat.lt_succ_iff_lt_or_eq.mp hn with hlt | rfl
    · rw [ih hlt fun m hm hk => hhi m hm (Nat.lt_succ_of_lt hk), hhi k hlt (Nat.lt_succ_self k)]
    · rw [hless n le_rfl]

theorem overN_still {f : Nat → State → State} {k : Nat} (h : ∀ m, m < k → f m s = s) : overN k f s = s := by
  induction k with
  | zero => rfl
  | succ k ih => rw [overN_succ, ih fun m hm => h m (Nat.lt_succ_of_lt hm), h k (Nat.lt_succ_self k)]

theorem agTick_still {g : Nat} (hm : (agU s g).members = []) (hs : axMoving (agState s g) = false) : agTick g s = s := by
  have hf : groupFault g s = s := by
    unfold groupFault
    dsimp only
    rw [hm]
    rfl
  unfold agTick
  rw [hf]
  dsimp only
  rw [if_pos (by simp [hs])]

/-- A register of another axis, or of a group. -/
theorem not_tickRegs {off : Nat} (h : ∀ k, k < 0x40 → off ≠ 0x802000 + 0x40 * n + k) : off ∉ tickRegs n := by
  unfold tickRegs AX_STAT AX_POS AX_VEL
  simp only [List.mem_cons, List.not_mem_nil, or_false, not_or]
  exact ⟨fun e => h 0x38 (by decide) (by omega), fun e => h 0x30 (by decide) (by omega), fun e => h 0x3C (by decide) (by omega)⟩

theorem Turns.others_still (h : Turns (tickRegs n) n s t) {m : Nat} (hm : m ≠ n) : t.on (AX_ENC_EN m) = s.on (AX_ENC_EN m) ∧
    axState t m = axState s m := by
  constructor
  · refine h.regs.alike.on (not_tickRegs fun k hk e => ?_)
    unfold AX_ENC_EN AX_ENC at e
    dsimp only at e
    omega
  · refine h.regs.alike.g (not_tickRegs fun k hk e => ?_)
    unfold AX_STAT_STATE AX_STAT at e
    dsimp only at e
    omega

theorem Turns.group_still (h : Turns (tickRegs n) n s t) (hn : n < 48) (g : Nat) : agState t g = agState s g ∧ agU t g = agU s g := by
  refine ⟨h.regs.alike.g (not_tickRegs fun k hk e => ?_), agU_congr h.groups⟩
  unfold AG_STAT_STATE AG_STAT at e
  dsimp only at e
  omega

theorem part_axes (p : Part) : p.axes ≤ 48 := by
  cases p <;> decide

/-- A moving axis with its speed and its progress. -/
def AtTick (n v p : Nat) (t : State) : Prop := axState t n = Axs.moving ∧ (axU t n).vel = v ∧ (axU t n).prog = p

theorem AtTick.modAg {v p : Nat} (h : AtTick n v p t) (g : Nat) (f : Ag → Ag) : AtTick n v p (modAg g f t) := h

theorem AtTick.axTimers {v p : Nat} (h : AtTick n v p t) (m : Nat) : AtTick n v p (axTimers m t) := by
  obtain ⟨hst, hv, hp⟩ := h
  unfold Machine.axTimers
  refine ⟨(modAx_g _ _ _ _).trans hst, ?_⟩
  by_cases hmn : n = m
  · subst hmn
    rw [axU_modAx_self]
    exact ⟨hv, hp⟩
  · rw [axU_modAx_other _ _ _ hmn]
    exact ⟨hv, hp⟩

/-- A tick with one axis moving, by itself. -/
theorem profileTick_one (hn : n < s.part.axes) (hm : axState s n = Axs.moving) (hb : (axU s n).byGroup = false)
    (he : ∀ m : Fin 48, s.on (AX_ENC_EN m) = false) (ho : ∀ m : Fin 48, m.val ≠ n → axMoving (axState s m) = false)
    (hg : ∀ h : Fin 8, axMoving (agState s h) = false ∧ (agU s h).members = []) :
    AtTick n (tickVel n s) (tickProg n s) (profileTick s) := by
  have hn48 : n < 48 := lt_of_lt_of_le hn (part_axes _)
  have hother (m : Nat) (hm48 : m < 48) (hne : m ≠ n) {t : State} (ht : Turns (tickRegs n) n (axTicked n s) t) : axTick m t = t := by
    obtain ⟨henc, hst⟩ := ht.others_still hne
    exact axTick_still (henc.trans (he ⟨m, hm48⟩)) ((congrArg axMoving hst).trans (ho ⟨m, hm48⟩ hne))
  have ht : Turns (tickRegs n) n (axTicked n s) (axTick n s) := axTick_moving (he ⟨n, hn48⟩) hm hb
  have haxes : overN s.part.axes axTick s = axTick n s :=
    overN_single hn (fun m hmn => axTick_still (he ⟨m, hmn.trans hn48⟩) (ho ⟨m, hmn.trans hn48⟩ hmn.ne))
      fun m hmn hmk => hother m (lt_of_lt_of_le hmk (part_axes _)) hmn.ne' ht
  have hgroups : overN 8 agTick (axTick n s) = axTick n s := overN_still fun g hg8 => by
    obtain ⟨hst, hu⟩ := ht.group_still hn48 g
    obtain ⟨hgm, hgl⟩ := hg ⟨g, hg8⟩
    exact agTick_still ((congrArg Ag.members hu).trans hgl) ((congrArg axMoving hst).trans hgm)
  have hstep : AtTick n (tickVel n s) (tickProg n s) (axTick n s) := by
    obtain ⟨hv, hp, -, -⟩ := ht.axU_eq
    have hself : (axU (axTicked n s) n).vel = tickVel n s ∧ (axU (axTicked n s) n).prog = tickProg n s := by
      unfold axTicked
      rw [axU_modAx_self]
      exact ⟨rfl, rfl⟩
    exact ⟨ht.state.trans hm, hv.trans hself.1, hp.trans hself.2⟩
  unfold profileTick
  dsimp only
  rw [haxes, hgroups]
  generalize axTick n s = w at hstep ⊢
  exact overN_keeps (P := AtTick n (tickVel n s) (tickProg n s)) _ _ (fun g t _ h => h.modAg g _) _
    (overN_keeps (P := AtTick n (tickVel n s) (tickProg n s)) _ _ (fun m t _ h => h.axTimers m) _ hstep)

end

end Sys2Proof.Machine
end

section
/-!
PROOFS. How a move ends, and the encoder's count (spec/11_step_motion.md R260, R263, R266, R268).
-/

namespace Sys2Proof.Machine

open Reg

set_option Elab.async false

section
variable {n g : Nat} {s t : State}

/-! ## An axis comes to rest -/

/-- An axis with no move, its state aside. -/
def axRested (n : Nat) (s : State) : State :=
  modAx n (fun u => { u with
    vel := 0, prog := 0, dist := 0, emitted := 0, estop := false, disable := false, byGroup := false, goTick := false })
    (((s.setReg (AX_VEL n) 0).pb (AX_CTRL_STOP n) false).pb (AX_STAT_PEND n) false)

theorem axEndMove_eq : axEndMove n s = if (axU s n).disable then ((axRested n s).p (AX_STAT_STATE n) Axs.off).pb (AX_CTRL_ENABLE n) false
    else (axRested n s).p (AX_STAT_STATE n) Axs.idle := rfl

/-- The registers that the end of a move writes. -/
def restRegs (n : Nat) : List Nat := [AX_CTRL n, AX_STAT n, AX_VEL n]

theorem ctrl_mem_rest : AX_CTRL n ∈ restRegs n := List.mem_cons_self
theorem stat_mem_rest : AX_STAT n ∈ restRegs n := List.mem_cons_of_mem _ List.mem_cons_self
theorem vel_mem_rest : AX_VEL n ∈ restRegs n := List.mem_cons_of_mem _ (List.mem_cons_of_mem _ List.mem_cons_self)

theorem not_restRegs {off : Nat} (h : ∀ k, k = 0 ∨ k = 0x38 ∨ k = 0x3C → off ≠ 0x802000 + 0x40 * n + k) : off ∉ restRegs n := by
  unfold restRegs AX_CTRL AX_STAT AX_VEL
  simp only [List.mem_cons, List.not_mem_nil, or_false, not_or]
  exact ⟨h 0 (.inl rfl), fun e => h 0x38 (.inr (.inl rfl)) (by omega), fun e => h 0x3C (.inr (.inr rfl)) (by omega)⟩

theorem axRested_after : OnlyRegs [AX_CTRL n, AX_STAT n] (s.setReg (AX_VEL n) 0) (axRested n s) := by
  unfold axRested
  exact (((onlyRegs_refl _ _).pb (AX_CTRL_STOP n) false List.mem_cons_self).pb (AX_STAT_PEND n) false
    (List.mem_cons_of_mem _ List.mem_cons_self)).of_reg (modAx_reg _ _ _)

theorem axRested_regs : OnlyRegs (restRegs n) s (axRested n s) := by
  have hvel : OnlyRegs (restRegs n) s (s.setReg (AX_VEL n) 0) := (onlyRegs_refl _ s).setReg 0 vel_mem_rest
  refine hvel.trans fun off ho => axRested_after off fun hm => ho ?_
  rcases List.mem_cons.mp hm with h | h
  · exact h ▸ ctrl_mem_rest
  · exact List.mem_singleton.mp h ▸ stat_mem_rest

theorem axEndMove_regs : OnlyRegs (restRegs n) s (axEndMove n s) := by
  rw [axEndMove_eq]
  exact .ite ((axRested_regs.p _ _ stat_mem_rest).pb _ _ ctrl_mem_rest) (axRested_regs.p _ _ stat_mem_rest)

theorem axRested_ag : (axRested n s).mot.ag = s.mot.ag := rfl

theorem axEndMove_ag : (axEndMove n s).mot.ag = s.mot.ag := by
  have hp (f : Fld) (v : Nat) (u : State) : (u.p f v).mot.ag = u.mot.ag := rfl
  have hpb (f : Fld) (v : Bool) (u : State) : (u.pb f v).mot.ag = u.mot.ag := rfl
  rw [axEndMove_eq]
  split
  · rw [hpb, hp, axRested_ag]
  · rw [hp, axRested_ag]

theorem axEndMove_kept : Kept (fun p => p = .out ∨ p = .mem) s (axEndMove n s) := kept_axEndMove (by decide) (by decide) n (.refl s)

/-- Of an axis, what a write of registers does not touch. -/
theorem axEndMove_axU {m : Nat} : axU (axEndMove n s) m = axU (axRested n s) m := by
  rw [axEndMove_eq]
  split
  · rw [axU_pb, axU_p]
  · rw [axU_p]

theorem axRested_self : axU (axRested n s) n = { axU s n with
    vel := 0, prog := 0, dist := 0, emitted := 0, estop := false, disable := false, byGroup := false, goTick := false } := by
  unfold axRested
  rw [axU_modAx_self, axU_pb, axU_pb, axU_setReg]

theorem axRested_other {m : Nat} (h : m ≠ n) : axU (axRested n s) m = axU s m := by
  unfold axRested
  rw [axU_modAx_other _ _ _ h, axU_pb, axU_pb, axU_setReg]

theorem axEndMove_ended {m : Nat} : (axU (axEndMove n s) m).ended = (axU s m).ended := by
  rw [axEndMove_axU]
  by_cases h : m = n
  · subst h
    rw [axRested_self]
  · rw [axRested_other h]

/-- The end of a move of an axis that is not being disabled. -/
theorem axEndMove_idle (hd : (axU s n).disable = false) : axState (axEndMove n s) n = Axs.idle ∧ (axEndMove n s).reg (AX_VEL n) = 0 ∧
    (axU (axEndMove n s) n).dist = 0 := by
  have he : axEndMove n s = (axRested n s).p (AX_STAT_STATE n) Axs.idle := by
    rw [axEndMove_eq, if_neg (by simp [hd])]
  have hafter : OnlyRegs [AX_CTRL n, AX_STAT n] (s.setReg (AX_VEL n) 0) (axEndMove n s) := by
    rw [he]
    exact axRested_after.p (AX_STAT_STATE n) Axs.idle (List.mem_cons_of_mem _ List.mem_cons_self)
  refine ⟨?_, (hafter (AX_VEL n) ?_).trans (reg_setReg_self _ _ _), ?_⟩
  · rw [he]
    exact g_p_self _ _ _ (Nat.le_of_ble_eq_true rfl)
  · unfold AX_VEL AX_CTRL AX_STAT
    simp only [List.mem_cons, List.not_mem_nil, or_false, not_or]
    omega
  · rw [axEndMove_axU, axRested_self]

/-- A position move of an axis by itself ends at its target. -/
theorem axMoveEnd_target (ht : atTarget s n = true) (hb : (axU s n).byGroup = false) :
    axMoveEnd n s = (modAx n (fun u => { u with ended := some (axU s n).vel }) (axEndMove n s)).event (.axDone n) := by
  unfold axMoveEnd
  rw [if_neg (by simp [hb]), if_pos ht]

theorem event_out (e : Event) (w : State) : (w.event e).out = w.out ++ [.event e] := rfl
theorem event_g (e : Event) (w : State) (f : Fld) : (w.event e).g f = w.g f := rfl
theorem event_reg (e : Event) (w : State) (off : Nat) : (w.event e).reg off = w.reg off := rfl
theorem event_mem (e : Event) (w : State) : (w.event e).mem = w.mem := rfl

theorem axMoveEnd_idle (ht : atTarget s n = true) (hb : (axU s n).byGroup = false) (hd : (axU s n).disable = false) :
    axState (axMoveEnd n s) n = Axs.idle ∧ (axMoveEnd n s).reg (AX_POS n) = s.reg (AX_POS n) ∧ (axMoveEnd n s).reg (AX_VEL n) = 0 ∧
    (axU (axMoveEnd n s) n).dist = 0 ∧ (axMoveEnd n s).out = s.out ++ [.event (.axDone n)] ∧ OnlyRegs (restRegs n) s (axMoveEnd n s) := by
  have hpos : AX_POS n ∉ restRegs n := not_restRegs fun k hk => by
    unfold AX_POS
    omega
  have hregs : OnlyRegs (restRegs n) s (axEndMove n s) := axEndMove_regs
  have hout : (axEndMove n s).out = s.out := axEndMove_kept.outs (.inl rfl)
  obtain ⟨hst, hvel, hdist⟩ := axEndMove_idle hd
  rw [axMoveEnd_target ht hb]
  unfold axState at hst ⊢
  generalize axEndMove n s = w at hregs hout hst hvel hdist ⊢
  rw [event_g, event_reg, event_reg, event_out, modAx_g, modAx_reg, modAx_reg, modAx_out, hout, axU_congr (congrArg (·.ax) (event_mot _ _)),
    axU_modAx_self]
  exact ⟨hst, hregs _ hpos, hvel, hdist, rfl, hregs.of_reg fun off => (event_reg _ _ _).trans (modAx_reg _ _ _ _)⟩

/-! ## The encoder's count -/

/-- The count that a sample of the encoder's 32-bit counter stands for. -/
def followed (s : State) (n raw : Nat) : Int := (axU s n).encRaw + sext 32 (unsext 32 ((raw : Int) - (axU s n).encRaw))

/-- The count with the extreme that it leaves. -/
def encCounted (w raw : Int) (u : Ax) : Ax :=
  if (raw - u.ext) * (if u.extFwd then 1 else -1) > 0 then { u with ext := raw }
  else if (u.ext - raw) * (if u.extFwd then 1 else -1) > w then { u with ext := raw, extFwd := !u.extFwd }
  else u

theorem axEncoder_on {raw : Nat} (he : s.on (AX_ENC_EN n) = true) (ho : axState s n ≠ Axs.off) : axEncoder n raw s =
    eposSync n (modAx n (encCounted (s.g (AX_ENC_W n) : Int) (followed s n raw)) (modAx n (fun u => { u with encRaw := followed s n raw }) s)) := by
  have hn : ¬((!(modAx n (fun u => { u with encRaw := followed s n raw }) s).on (AX_ENC_EN n)) = true ∨
      axState (modAx n (fun u => { u with encRaw := followed s n raw }) s) n = Axs.off) := by
    rw [modAx_on, he]
    exact fun h => h.elim (by decide) ho
  unfold axEncoder
  exact if_neg hn

theorem eposSync_axU (w : State) (m : Nat) : axU (eposSync n w) m = axU w m := axU_setReg _ _ _ _

/-- A sample, taken into the count of an axis whose encoder is enabled. -/
theorem axEncoder_counted {raw : Nat} (he : s.on (AX_ENC_EN n) = true) (ho : axState s n ≠ Axs.off) :
    axU (axEncoder n raw s) n = encCounted (s.g (AX_ENC_W n) : Int) (followed s n raw) { axU s n with encRaw := followed s n raw } ∧
    (axEncoder n raw s).reg (AX_EPOS n) = BitVec.ofInt 32 ((axU (axEncoder n raw s) n).encPos +
      encScale s n ((axU (axEncoder n raw s) n).ext - (axU (axEncoder n raw s) n).encBase)) ∧
    (axEncoder n raw s).out = s.out ∧ OnlyRegs [AX_EPOS n] s (axEncoder n raw s) := by
  rw [axEncoder_on he ho]
  have hself : axU (modAx n (encCounted (s.g (AX_ENC_W n) : Int) (followed s n raw)) (modAx n (fun u => { u with encRaw := followed s n raw }) s)) n =
      encCounted (s.g (AX_ENC_W n) : Int) (followed s n raw) { axU s n with encRaw := followed s n raw } := by
    rw [axU_modAx_self, axU_modAx_self]
  have hout : (modAx n (encCounted (s.g (AX_ENC_W n) : Int) (followed s n raw)) (modAx n (fun u => { u with encRaw := followed s n raw }) s)).out =
      s.out := by rw [modAx_out, modAx_out]
  have hreg (off : Nat) : (modAx n (encCounted (s.g (AX_ENC_W n) : Int) (followed s n raw))
      (modAx n (fun u => { u with encRaw := followed s n raw }) s)).reg off = s.reg off := by rw [modAx_reg, modAx_reg]
  generalize modAx n (encCounted (s.g (AX_ENC_W n) : Int) (followed s n raw)) (modAx n (fun u => { u with encRaw := followed s n raw }) s) = w
    at hself hout hreg ⊢
  have hscale (c : Int) : encScale w n c = encScale s n c := by
    unfold encScale State.g
    rw [hreg]
  refine ⟨(eposSync_axU w n).trans hself, ?_, hout, ?_⟩
  · rw [eposSync_axU, ← hscale]
    exact reg_setReg_self _ _ _
  · exact ((onlyRegs_refl _ s).of_reg hreg).setReg _ List.mem_cons_self

theorem encCounted_on {w raw : Int} {u : Ax} (hf : u.extFwd = true) (h : u.ext < raw) : encCounted w raw u = { u with ext := raw } := by
  unfold encCounted
  rw [hf]
  exact if_pos (by simp only [if_true]; omega)

theorem encCounted_back {w raw : Int} {u : Ax} (hf : u.extFwd = true) (hle : raw ≤ u.ext) (hw : u.ext - raw ≤ w) : encCounted w raw u = u := by
  unfold encCounted
  rw [hf, if_neg (by simp only [if_true]; omega), if_neg (by simp only [if_true]; omega)]

/-- A sample that moves past the extreme. -/
theorem axEncoder_past {raw : Nat} (he : s.on (AX_ENC_EN n) = true) (ho : axState s n ≠ Axs.off) (hf : (axU s n).extFwd = true)
    (hx : (axU s n).ext < followed s n raw) :
    (axEncoder n raw s).reg (AX_EPOS n) = BitVec.ofInt 32 ((axU s n).encPos + encScale s n (followed s n raw - (axU s n).encBase)) ∧
    (axU (axEncoder n raw s) n).ext = followed s n raw ∧ (axU (axEncoder n raw s) n).encRaw = followed s n raw ∧
    (axEncoder n raw s).out = s.out ∧ OnlyRegs [AX_EPOS n] s (axEncoder n raw s) := by
  obtain ⟨hu, hpos, hout, hregs⟩ := axEncoder_counted (raw := raw) he ho
  rw [encCounted_on (u := { axU s n with encRaw := followed s n raw }) hf hx] at hu
  rw [hu] at hpos ⊢
  exact ⟨hpos, rfl, rfl, hout, hregs⟩

/-- A reversal within the backlash window. -/
theorem axEncoder_backlash {raw : Nat} (he : s.on (AX_ENC_EN n) = true) (ho : axState s n ≠ Axs.off) (hf : (axU s n).extFwd = true)
    (hle : followed s n raw ≤ (axU s n).ext) (hw : (axU s n).ext - followed s n raw ≤ s.g (AX_ENC_W n)) :
    (axU (axEncoder n raw s) n).ext = (axU s n).ext ∧ (axU (axEncoder n raw s) n).extFwd = (axU s n).extFwd ∧
    (axU (axEncoder n raw s) n).encRaw = followed s n raw ∧ (axEncoder n raw s).out = s.out ∧ OnlyRegs [AX_EPOS n] s (axEncoder n raw s) := by
  obtain ⟨hu, -, hout, hregs⟩ := axEncoder_counted (raw := raw) he ho
  rw [encCounted_back (u := { axU s n with encRaw := followed s n raw }) hf hle hw] at hu
  rw [hu]
  exact ⟨rfl, rfl, rfl, hout, hregs⟩

end

end Sys2Proof.Machine
end

section
/-!
PROOFS. Axis groups: GO, STOP, the start input and the common end (spec/11_step_motion.md R264-R267).
-/

namespace Sys2Proof.Machine

open Reg

set_option Elab.async false

section
variable {n g : Nat} {s t : State}

theorem foldl_keeps {β : Type} {P : State → Prop} {l : List β} {f : State → β → State} (hf : ∀ u x, x ∈ l → P u → P (f u x))
    (h : P s) : P (l.foldl f s) := by
  induction l generalizing s with
  | nil => exact h
  | cons x r ih => exact ih (fun u y hy => hf u y (List.mem_cons_of_mem x hy)) (hf s x List.mem_cons_self h)

/-! ## The registers of axes and of groups -/

/-- The status of a group. -/
def GroupStat (off : Nat) : Prop := ∃ h, off = AG_STAT h

/-- The registers of the axes. -/
def AxisPage (off : Nat) : Prop := off < 0x803000

theorem restRegs_groupStat {off : Nat} (h : GroupStat off) : off ∉ restRegs n := by
  obtain ⟨h, rfl⟩ := h
  exact not_restRegs fun k hk => by
    unfold AG_STAT
    omega

theorem stat_groupStat : ¬ GroupStat (AX_STAT n) := by
  rintro ⟨h, e⟩
  unfold AX_STAT AG_STAT at e
  omega

theorem groupCtrl_ne_stat : AG_CTRL g ≠ AX_STAT n := by
  unfold AG_CTRL AX_STAT
  omega

theorem axisPage_stat (hn : n < 64) : AxisPage (AX_STAT n) := by
  unfold AxisPage AX_STAT
  omega

theorem not_axisPage_ctrl : ¬ AxisPage (AG_CTRL g) := by
  unfold AxisPage AG_CTRL
  omega

theorem not_axisPage_stat : ¬ AxisPage (AG_STAT g) := by
  unfold AxisPage AG_STAT
  omega

/-! ## The end of a group's move -/

/-- The members that move with their group come to rest. -/
def membersRest (ms : List (Nat × Int)) (s : State) : State :=
  ms.foldl (fun s m => if (axU s m.1).byGroup ∧ axState s m.1 ≠ Axs.fault then axEndMove m.1 s else s) s

theorem agEndMove_eq : agEndMove g s = modAg g (fun u => { stopTick := u.stopTick, went := u.went })
    (membersRest (agU s g).members ((s.p (AG_STAT_STATE g) 0).pb (AG_CTRL_STOP g) false)) := rfl

theorem membersRest_groupStat (ms : List (Nat × Int)) : Alike GroupStat s (membersRest ms s) :=
  (Alike.refl s).foldl fun _ _ _ hu => .ite (hu.trans fun _ ho => axEndMove_regs _ (restRegs_groupStat ho)) hu

/-- STOP of a group stands apart from what the end of a move clears in a register at the same place. -/
theorem axEndMove_groupStop : (axEndMove n s).on (AG_CTRL_STOP g) = s.on (AG_CTRL_STOP g) := by
  have hstop : Clear (AG_CTRL_STOP g) (AX_CTRL_STOP n) := ⟨Nat.le_of_ble_eq_true rfl, .inr (.inl (Nat.le_of_ble_eq_true rfl))⟩
  have henable : Clear (AG_CTRL_STOP g) (AX_CTRL_ENABLE n) := ⟨Nat.le_of_ble_eq_true rfl, .inr (.inr (Nat.le_of_ble_eq_true rfl))⟩
  have hstate : Clear (AG_CTRL_STOP g) (AX_STAT_STATE n) := ⟨Nat.le_of_ble_eq_true rfl, .inl groupCtrl_ne_stat⟩
  have hpend : Clear (AG_CTRL_STOP g) (AX_STAT_PEND n) := ⟨Nat.le_of_ble_eq_true rfl, .inl groupCtrl_ne_stat⟩
  have hvel : (s.setReg (AX_VEL n) 0).on (AG_CTRL_STOP g) = s.on (AG_CTRL_STOP g) :=
    ((onlyRegs_refl [AX_VEL n] s).setReg 0 List.mem_cons_self).alike.on fun hm => by
      have he : AG_CTRL g = AX_VEL n := List.mem_singleton.mp hm
      unfold AG_CTRL AX_VEL at he
      omega
  have hrested : (axRested n s).on (AG_CTRL_STOP g) = s.on (AG_CTRL_STOP g) := by
    unfold axRested
    rw [modAx_on, on_pb_clear _ _ hpend, on_pb_clear _ _ hstop, hvel]
  rw [axEndMove_eq]
  split
  · rw [on_pb_clear _ _ henable, on_p_clear _ _ hstate, hrested]
  · rw [on_p_clear _ _ hstate, hrested]

theorem membersRest_stop (ms : List (Nat × Int)) : (membersRest ms s).on (AG_CTRL_STOP g) = s.on (AG_CTRL_STOP g) :=
  foldl_keeps (P := fun t => t.on (AG_CTRL_STOP g) = s.on (AG_CTRL_STOP g)) (fun u m _ hu => by
    split
    · exact axEndMove_groupStop.trans hu
    · exact hu) rfl

theorem agEndMove_kept : Kept (fun p => p = .out ∨ p = .mem) s (agEndMove g s) := kept_agEndMove (by decide) (by decide) g (.refl s)

/-- A group at rest, with no member. -/
theorem agEndMove_spec : agState (agEndMove g s) g = 0 ∧ (agU (agEndMove g s) g).members = [] ∧
    (agEndMove g s).on (AG_CTRL_STOP g) = false ∧ (agEndMove g s).out = s.out ∧ (agEndMove g s).mem = s.mem := by
  have hclear : Clear (AG_STAT_STATE g) (AG_CTRL_STOP g) := clear_inst rfl
  have hst : ((s.p (AG_STAT_STATE g) 0).pb (AG_CTRL_STOP g) false).g (AG_STAT_STATE g) = 0 :=
    (g_pb_clear _ _ hclear).trans (g_p_self _ _ _ (Nat.le_of_ble_eq_true rfl))
  have hstop : ((s.p (AG_STAT_STATE g) 0).pb (AG_CTRL_STOP g) false).on (AG_CTRL_STOP g) = false := on_pb_same _ _ rfl
  have hkept := agEndMove_kept (g := g) (s := s)
  refine ⟨?_, ?_, ?_, hkept.outs (.inl rfl), hkept.same .mem (.inr rfl)⟩
  · rw [agEndMove_eq]
    unfold agState
    rw [modAg_g]
    exact ((membersRest_groupStat _).g ⟨g, rfl⟩).trans hst
  · rw [agEndMove_eq, agU_modAg_self]
  · rw [agEndMove_eq, modAg_on, membersRest_stop, hstop]

/-- The common end of a group's move, before what it shows. -/
def groupEnded (g : Nat) (s : State) : State :=
  modAg g (fun u => { u with ended := some ((agU s g).vel, (agU s g).dist, (agU s g).members) }) (agEndMove g s)

/-- The members' ends, shown. -/
def membersDone (ms : List (Nat × Int)) (s : State) : State := ms.foldl (fun s m => s.event (.axDone m.1)) s

theorem axMoveEnd_group (hb : (axU s n).byGroup = true)
    (ht : (agU s (s.g (AX_CTRL_GROUP n))).members.all (fun m => atTarget s m.1) = true) :
    axMoveEnd n s = (membersDone (agU s (s.g (AX_CTRL_GROUP n))).members (groupEnded (s.g (AX_CTRL_GROUP n)) s)).event
      (.agDone (s.g (AX_CTRL_GROUP n))) := by
  unfold axMoveEnd
  rw [if_pos hb]
  exact if_pos ht

theorem membersDone_spec (ms : List (Nat × Int)) : agState (membersDone ms s) g = agState s g ∧ (membersDone ms s).mot = s.mot ∧
    (membersDone ms s).mem = s.mem ∧ s.out <+: (membersDone ms s).out :=
  foldl_keeps (P := fun t => agState t g = agState s g ∧ t.mot = s.mot ∧ t.mem = s.mem ∧ s.out <+: t.out)
    (fun u m _ ⟨hst, hmot, hmem, hout⟩ => ⟨hst, hmot, hmem, hout.trans (by rw [event_out]; exact List.prefix_append _ _)⟩)
    ⟨rfl, rfl, rfl, List.prefix_refl _⟩

theorem axMoveEnd_groupEnds (hb : (axU s n).byGroup = true) (hg : s.g (AX_CTRL_GROUP n) = g)
    (ht : (agU s g).members.all (fun m => atTarget s m.1) = true) : agState (axMoveEnd n s) g = 0 ∧
    (agU (axMoveEnd n s) g).members = [] ∧ Out.event (.agDone g) ∈ shown s (axMoveEnd n s) ∧ (axMoveEnd n s).mem = s.mem := by
  subst hg
  generalize hg : s.g (AX_CTRL_GROUP n) = g at ht ⊢
  have he := axMoveEnd_group hb (by rw [hg]; exact ht)
  rw [hg] at he
  obtain ⟨hst, hmem, -, hout, hm⟩ := agEndMove_spec (g := g) (s := s)
  have hended : agState (groupEnded g s) g = 0 ∧ (agU (groupEnded g s) g).members = [] ∧ (groupEnded g s).out = s.out ∧
      (groupEnded g s).mem = s.mem := by
    unfold groupEnded
    refine ⟨(modAg_g _ _ _ _).trans hst, ?_, hout, hm⟩
    rw [agU_modAg_self]
    exact hmem
  obtain ⟨hst', hms', hout', hm'⟩ := hended
  obtain ⟨hdst, hdmot, hdmem, hdout⟩ := membersDone_spec (g := g) (s := groupEnded g s) (agU s g).members
  rw [he]
  generalize groupEnded g s = w at hst' hms' hout' hm' hdst hdmot hdmem hdout ⊢
  generalize membersDone (agU s g).members w = x at hdst hdmot hdmem hdout ⊢
  obtain ⟨r, hr⟩ := hdout
  refine ⟨hdst.trans hst', ?_, ?_, hdmem.trans hm'⟩
  · rw [agU_congr (congrArg (·.ag) ((event_mot _ _).trans hdmot))]
    exact hms'
  · rw [shown_of_append (l := r ++ [.event (.agDone g)]) (by rw [event_out, ← hr, hout', List.append_assoc])]
    exact List.mem_append_right _ List.mem_cons_self

/-! ## A group's members begin -/

/-- Every member's move begins. -/
def membersBegin (ds : List (Nat × Int)) (s : State) : State := ds.foldl (fun s d => axBegin d.1 false true d.2 s) s

theorem stat_injective {m : Nat} (h : m ≠ n) : AX_STAT m ∉ [AX_STAT n] := fun hm => h (by
  have he := List.mem_singleton.mp hm
  unfold AX_STAT at he
  omega)

theorem membersBegin_kept (ds : List (Nat × Int)) : Alike GroupStat s (membersBegin ds s) ∧ (membersBegin ds s).out = s.out ∧
    (membersBegin ds s).mot.ag = s.mot.ag :=
  foldl_keeps (P := fun t => Alike GroupStat s t ∧ t.out = s.out ∧ t.mot.ag = s.mot.ag) (fun u d _ ⟨hreg, hout, hag⟩ => by
    have hb := begun_axBegin (n := d.1) (s := u) false true d.2
    refine ⟨hreg.trans fun off ho => hb.regs off fun hm => ?_, hb.out.trans hout, hb.groups.trans hag⟩
    rw [List.mem_singleton.mp hm] at ho
    exact stat_groupStat ho) ⟨.refl s, rfl, rfl⟩

theorem membersBegin_moving {m : Nat} (ds : List (Nat × Int)) (h : axState s m = Axs.moving ∨ m ∈ ds.map Prod.fst) :
    axState (membersBegin ds s) m = Axs.moving := by
  induction ds generalizing s with
  | nil => exact h.resolve_right List.not_mem_nil
  | cons d r ih =>
    have hb := begun_axBegin (n := d.1) (s := s) false true d.2
    refine ih (s := axBegin d.1 false true d.2 s) ?_
    by_cases hm : m = d.1
    · exact .inl (hm ▸ hb.state)
    · exact h.imp (fun hs => (hb.regs.alike.g (f := AX_STAT_STATE m) (stat_injective hm)).trans hs)
        fun hmem => (List.mem_cons.mp hmem).resolve_left hm

theorem membersBegin_other {m : Nat} (ds : List (Nat × Int)) (h : m ∉ ds.map Prod.fst) : axU (membersBegin ds s) m = axU s m := by
  induction ds generalizing s with
  | nil => rfl
  | cons d r ih =>
    have hb := begun_axBegin (n := d.1) (s := s) false true d.2
    exact (ih (s := axBegin d.1 false true d.2 s) fun hm => h (List.mem_cons_of_mem _ hm)).trans
      (hb.others m fun hm => h (hm ▸ List.mem_cons_self))

theorem membersBegin_dist (ds : List (Nat × Int)) (hd : (ds.map Prod.fst).Nodup) {d : Nat × Int} (h : d ∈ ds) :
    (axU (membersBegin ds s) d.1).dist = d.2.natAbs := by
  induction ds generalizing s with
  | nil => exact absurd h List.not_mem_nil
  | cons e r ih =>
    rw [List.map_cons, List.nodup_cons] at hd
    rcases List.mem_cons.mp h with rfl | hr
    · have hb := begun_axBegin (n := d.1) (s := s) false true d.2
      exact (congrArg Ax.dist (membersBegin_other (s := axBegin d.1 false true d.2 s) r hd.1)).trans hb.dist
    · exact ih (s := axBegin e.1 false true e.2 s) hd.2 hr

theorem agStart_eq : agStart g s = if (agU s g).members.any (fun d => axState s d.1 != Axs.idle) then
      agResult g Sts.badState (agEndMove g s)
    else membersBegin (agU s g).members (s.p (AG_STAT_STATE g) Axs.moving) := rfl

/-- A group whose members are idle starts. -/
theorem agStart_idle (h : (agU s g).members.all (fun d => axState s d.1 == Axs.idle) = true) : agStart g s =
    membersBegin (agU s g).members (s.p (AG_STAT_STATE g) Axs.moving) := by
  have hn : ¬ (agU s g).members.any (fun d => axState s d.1 != Axs.idle) = true := by
    rw [List.any_eq_true]
    rintro ⟨d, hd, hne⟩
    have := List.all_eq_true.mp h d hd
    simp_all
  rw [agStart_eq, if_neg hn]

theorem agStart_moves (h : (agU s g).members.all (fun d => axState s d.1 == Axs.idle) = true) : agState (agStart g s) g = Axs.moving ∧
    agU (agStart g s) g = agU s g ∧ (agU s g).members.all (fun m => axState (agStart g s) m.1 == Axs.moving) = true ∧
    (agStart g s).out = s.out := by
  obtain ⟨hstat, hout, hag⟩ := membersBegin_kept (s := s.p (AG_STAT_STATE g) Axs.moving) (agU s g).members
  rw [agStart_idle h]
  refine ⟨(hstat.g (f := AG_STAT_STATE g) ⟨g, rfl⟩).trans (g_p_self _ _ _ (Nat.le_of_ble_eq_true rfl)), agU_congr hag, ?_, hout⟩
  refine List.all_eq_true.mpr fun m hm => beq_iff_eq.mpr (membersBegin_moving _ (.inr ?_))
  exact List.mem_map_of_mem hm

/-- With a member no longer idle it ends instead. -/
theorem agStart_ends (h : (agU s g).members.any (fun m => axState s m.1 != Axs.idle) = true) : agState (agStart g s) g = 0 ∧
    (agStart g s).g (AG_STAT_RESULT g) = Sts.badState ∧ (agStart g s).out = s.out := by
  have hclear : Clear (AG_STAT_STATE g) (AG_STAT_RESULT g) := clear_inst rfl
  obtain ⟨hst, -, -, hout, -⟩ := agEndMove_spec (g := g) (s := s)
  rw [agStart_eq, if_pos h]
  exact ⟨(g_p_clear _ _ hclear).trans hst, g_p_self _ _ _ (Nat.le_of_ble_eq_true rfl), hout⟩

theorem agPulse_waiting (hw : agState s g = Axs.waiting) (hk : s.psq.stopInForce = false ∨ s.on (AG_CTRL_KEEP g) = true) :
    agPulse g s = agStart g s := by
  have hs : (!stopped s (AG_CTRL_KEEP g)) = true := by
    unfold stopped
    rcases hk with h | h <;> simp [h]
  exact if_pos ⟨hw, hs⟩

end

end Sys2Proof.Machine
end

section
/-!
PROOFS. GO of axis groups (spec/11_step_motion.md R264-R267).
-/

namespace Sys2Proof.Machine

open Reg

set_option Elab.async false

section
variable {n g : Nat} {s t u : State} {v : Word}

/-! ## What a GO reads of the axes -/

section
variable (h : Alike AxisPage s t) (hn : n < 64)
include h hn

theorem axis_reg {a : Nat} (ha : Nat.ble a 0x80203C = true) : t.reg (a + 0x40 * n) = s.reg (a + 0x40 * n) :=
  h _ (by
    have := Nat.le_of_ble_eq_true ha
    unfold AxisPage
    omega)

theorem axis_g {a l w : Nat} (ha : Nat.ble a 0x80203C = true) : t.g ⟨a + 0x40 * n, l, w⟩ = s.g ⟨a + 0x40 * n, l, w⟩ := by
  unfold State.g
  dsimp only
  rw [axis_reg h hn ha]

theorem axis_on {a l w : Nat} (ha : Nat.ble a 0x80203C = true) : t.on ⟨a + 0x40 * n, l, w⟩ = s.on ⟨a + 0x40 * n, l, w⟩ :=
  on_eq_of_g (axis_g h hn ha)

theorem axState_page : axState t n = axState s n := axis_g h hn rfl

theorem memberOf_page (k : Nat) : memberOf t n k = memberOf s n k := by
  have hin : t.on (AX_CTRL_IN_GROUP n) = s.on (AX_CTRL_IN_GROUP n) := axis_on h hn rfl
  have hg : t.g (AX_CTRL_GROUP n) = s.g (AX_CTRL_GROUP n) := axis_g h hn rfl
  unfold memberOf
  rw [hin, hg]

theorem axDelta_page : axDelta t n = axDelta s n := by
  have htarget : t.reg (AX_TARGET n) = s.reg (AX_TARGET n) := axis_reg h hn rfl
  have hpos : t.reg (AX_POS n) = s.reg (AX_POS n) := axis_reg h hn rfl
  have hrel : t.on (AX_CTRL_REL n) = s.on (AX_CTRL_REL n) := axis_on h hn rfl
  unfold axDelta
  rw [htarget, hpos, hrel]

theorem goParam_page (vmax acc dec x y : Nat) (position : Bool) : goParam t n vmax acc dec x y position = goParam s n vmax acc dec x y position := by
  have hth : t.g (AX_TIMING_TH n) = s.g (AX_TIMING_TH n) := axis_g h hn rfl
  have hmax : t.g (AX_MSTEP_MAXLEVEL n) = s.g (AX_MSTEP_MAXLEVEL n) := axis_g h hn rfl
  have hmin : t.g (AX_MSTEP_MINLEVEL n) = s.g (AX_MSTEP_MINLEVEL n) := axis_g h hn rfl
  have hph : t.g (AX_PHREF_PHREF n) = s.g (AX_PHREF_PHREF n) := axis_g h hn rfl
  have hpos : t.reg (AX_POS n) = s.reg (AX_POS n) := axis_reg h hn rfl
  unfold goParam rateOk decelOk withinLimit
  rw [hth, hmax, hmin, hph, hpos, axDelta_page h hn]

end

theorem membersOf_page (h : Alike AxisPage s t) (hp : t.part = s.part) (k : Nat) : membersOf t k = membersOf s k := by
  unfold membersOf
  rw [hp]
  exact List.filter_congr fun m hm => memberOf_page h (axis_lt (List.mem_range.mp hm)) k

theorem deltasOf_page (h : Alike AxisPage s t) (hp : t.part = s.part) (k : Nat) : deltasOf t k = deltasOf s k := by
  unfold deltasOf
  rw [membersOf_page h hp]
  refine List.map_congr_left fun m hm => ?_
  rw [axDelta_page h (membersOf_lt hm)]

theorem deltasOf_fst : (deltasOf s g).map Prod.fst = membersOf s g := by
  unfold deltasOf
  rw [List.map_map]
  exact List.map_id _

theorem deltasOf_lt {d : Nat × Int} (h : d ∈ deltasOf s g) : d.1 < 64 := by
  have hm : d.1 ∈ (deltasOf s g).map Prod.fst := List.mem_map_of_mem h
  rw [deltasOf_fst] at hm
  exact membersOf_lt hm

theorem deltasOf_nodup : ((deltasOf s g).map Prod.fst).Nodup := by
  rw [deltasOf_fst]
  exact List.nodup_range.filter _

theorem leaderOf_lt {ds : List (Nat × Int)} (h : ∀ d ∈ ds, d.1 < 64) : (leaderOf ds).1 < 64 := by
  have hfold (b : Nat × Int) (hb : b.1 < 64) (l : List (Nat × Int)) (hl : ∀ d ∈ l, d.1 < 64) :
      (l.foldl (fun b d => if b.2.natAbs < d.2.natAbs then d else b) b).1 < 64 := by
    induction l generalizing b with
    | nil => exact hb
    | cons d r ih =>
      refine ih _ ?_ fun e he => hl e (List.mem_cons_of_mem _ he)
      dsimp only
      split
      · exact hl d List.mem_cons_self
      · exact hb
  cases ds with
  | nil => exact hfold _ (by decide) _ h
  | cons d r => exact hfold _ (h d List.mem_cons_self) _ h

/-! ## GO of a group -/

/-- A group whose GO may move it: nothing in the way, the members idle and within their limits, and a distance to go. -/
structure GroupFit (g : Nat) (s : State) : Prop where
  rests : agState s g = 0
  noStop : (agU s g).stopTick = false
  noForce : s.psq.stopInForce = false
  idle : ∀ d ∈ deltasOf s g, axState s d.1 = Axs.idle
  vmax : s.g (AG_VMAX_VALUE g) ≠ 0
  accel : s.g (AG_ACCEL_VALUE g) ≠ 0
  decel : s.g (AG_DECEL_VALUE g) ≠ 0
  limits : ∀ d ∈ deltasOf s g, memberParam s g (leaderOf (deltasOf s g)).2.natAbs d = false
  distance : (leaderOf (deltasOf s g)).2.natAbs ≠ 0

/-- The group's plain fields written, and a GO taken. -/
def groupCalled (g : Nat) (v : Word) (s : State) : State :=
  modAg g (fun u => { u with went := true }) ((s.p (AG_CTRL_KEEP g) (fieldOf (AG_CTRL_KEEP g) v)).p (AG_CTRL_WAIT_EV g) (fieldOf (AG_CTRL_WAIT_EV g) v))

theorem groupCalled_regs : OnlyRegs [AG_CTRL g] s (groupCalled g v s) :=
  (((onlyRegs_refl _ s).p (AG_CTRL_KEEP g) _ List.mem_cons_self).p (AG_CTRL_WAIT_EV g) _ List.mem_cons_self).of_reg (modAg_reg _ _ _)

theorem groupCalled_page : Alike AxisPage s (groupCalled g v s) := groupCalled_regs.alike.mono fun off ho hm => by
  rw [List.mem_singleton.mp hm] at ho
  exact not_axisPage_ctrl ho

theorem groupCalled_agU : agU (groupCalled g v s) g = { agU s g with went := true } := by
  unfold groupCalled
  rw [agU_modAg_self, agU_p, agU_p]

theorem groupCalled_out : (groupCalled g v s).out = s.out := rfl
theorem groupCalled_part : (groupCalled g v s).part = s.part := rfl
theorem groupCalled_psq : (groupCalled g v s).psq = s.psq := rfl
theorem groupCalled_mot : (groupCalled g v s).mot = { s.mot with ag := (groupCalled g v s).mot.ag } := rfl

/-- A group's other registers stay. -/
theorem groupCalled_g {a l w : Nat} (ha : Nat.beq a 0x803000 = false) :
    (groupCalled g v s).g ⟨a + 0x20 * g, l, w⟩ = s.g ⟨a + 0x20 * g, l, w⟩ := by
  refine groupCalled_regs.alike.g fun hm => ?_
  have he : a + 0x20 * g = AG_CTRL g := List.mem_singleton.mp hm
  exact Nat.ne_of_beq_eq_false ha (Nat.add_right_cancel he)

theorem groupCalled_state : agState (groupCalled g v s) g = agState s g := groupCalled_g rfl

theorem groupCalled_waits : (groupCalled g v s).g (AG_CTRL_WAIT_EV g) = fieldOf (AG_CTRL_WAIT_EV g) v % 2 :=
  (modAg_g _ _ _ _).trans (g_p_self _ _ _ (Nat.le_of_ble_eq_true rfl))

theorem memberParam_page (h : Alike AxisPage s t) {d : Nat × Int} (hd : d.1 < 64) (lead : Nat)
    (hv : t.g (AG_VMAX_VALUE g) = s.g (AG_VMAX_VALUE g)) (ha : t.g (AG_ACCEL_VALUE g) = s.g (AG_ACCEL_VALUE g))
    (hc : t.g (AG_DECEL_VALUE g) = s.g (AG_DECEL_VALUE g)) : memberParam t g lead d = memberParam s g lead d := by
  unfold memberParam
  rw [hv, ha, hc, goParam_page h hd]

theorem GroupFit.called (h : GroupFit g s) : GroupFit g (groupCalled g v s) := by
  have hpage := groupCalled_page (g := g) (v := v) (s := s)
  have hds : deltasOf (groupCalled g v s) g = deltasOf s g := deltasOf_page hpage groupCalled_part g
  have hv : (groupCalled g v s).g (AG_VMAX_VALUE g) = s.g (AG_VMAX_VALUE g) := groupCalled_g rfl
  have ha : (groupCalled g v s).g (AG_ACCEL_VALUE g) = s.g (AG_ACCEL_VALUE g) := groupCalled_g rfl
  have hc : (groupCalled g v s).g (AG_DECEL_VALUE g) = s.g (AG_DECEL_VALUE g) := groupCalled_g rfl
  refine ⟨groupCalled_state.trans h.rests, by rw [groupCalled_agU]; exact h.noStop, h.noForce, ?_, ?_, ?_, ?_, ?_, ?_⟩
  · rw [hds]
    exact fun d hd => (axState_page hpage (deltasOf_lt hd)).trans (h.idle d hd)
  · rw [hv]
    exact h.vmax
  · rw [ha]
    exact h.accel
  · rw [hc]
    exact h.decel
  · rw [hds]
    exact fun d hd => (memberParam_page hpage (deltasOf_lt hd) _ hv ha hc).trans (h.limits d hd)
  · rw [hds]
    exact h.distance

/-- A group whose GO was accepted, its move latched. -/
def groupLatched (g : Nat) (s : State) : State :=
  modAg g (fun u => { u with dist := (leaderOf (deltasOf s g)).2.natAbs, members := deltasOf s g, goTick := true })
    ((s.p (AG_STAT_LEADER g) (leaderOf (deltasOf s g)).1).p (AG_STAT_RESULT g) Sts.ok)

theorem list_any_false {β : Type} {l : List β} {p : β → Bool} (h : ∀ x ∈ l, p x = false) : l.any p = false := by
  rw [List.any_eq_false]
  exact fun x hx => by rw [h x hx]; decide

/-- AGg_CTRL.GO, once the group's fields are written. -/
def agGoCalled (g : Nat) (s : State) : State :=
  if agState s g ≠ 0 ∨ (agU s g).stopTick ∨ stopped s (AG_CTRL_KEEP g) then agResult g Sts.badState s
  else if (deltasOf s g).any (fun d => axMoving (axState s d.1) || axState s d.1 == Axs.waiting) then agResult g Sts.busy s
  else if (deltasOf s g).any (fun d => axState s d.1 != Axs.idle) then agResult g Sts.badState s
  else if s.g (AG_VMAX_VALUE g) = 0 ∨ s.g (AG_ACCEL_VALUE g) = 0 ∨ s.g (AG_DECEL_VALUE g) = 0 ∨
      (deltasOf s g).any (memberParam s g (leaderOf (deltasOf s g)).2.natAbs) then agResult g Sts.param s
  else if (leaderOf (deltasOf s g)).2.natAbs = 0 then (agResult g Sts.ok (s.p (AG_STAT_LEADER g) (leaderOf (deltasOf s g)).1)).event (.agDone g)
  else if s.on (AG_CTRL_WAIT_EV g) then (groupLatched g s).p (AG_STAT_STATE g) Axs.waiting else agStart g (groupLatched g s)

theorem agCtrlWrite_go (hgo : fieldOf (AG_CTRL_GO g) v = 1) (hstop : fieldOf (AG_CTRL_STOP g) v = 0) (hs : agSettle g s = s) :
    agCtrlWrite g v s = agGoCalled g (groupCalled g v s) := by
  have hne : ¬ (0 : Nat) = 1 := by decide
  unfold agCtrlWrite
  dsimp only
  rw [hgo, hstop, if_pos (rfl : (1 : Nat) = 1), if_neg hne, if_neg hne, hs]
  rfl

theorem GroupFit.go (h : GroupFit g s) : agGoCalled g s =
    if s.on (AG_CTRL_WAIT_EV g) then (groupLatched g s).p (AG_STAT_STATE g) Axs.waiting else agStart g (groupLatched g s) := by
  have hforce : stopped s (AG_CTRL_KEEP g) = false := by
    unfold stopped
    rw [h.noForce]
    rfl
  have hbusy : (deltasOf s g).any (fun d => axMoving (axState s d.1) || axState s d.1 == Axs.waiting) = false :=
    list_any_false fun d hd => by
      rw [h.idle d hd]
      decide
  have hidle : (deltasOf s g).any (fun d => axState s d.1 != Axs.idle) = false := list_any_false fun d hd => by
    rw [h.idle d hd]
    decide
  have hlim := list_any_false h.limits
  unfold agGoCalled
  rw [if_neg (by simp [h.rests, h.noStop, hforce]), if_neg (by simp [hbusy]), if_neg (by simp [hidle]),
    if_neg (by simp [h.vmax, h.accel, h.decel, hlim]), if_neg h.distance]

theorem groupLatched_regs : OnlyRegs [AG_STAT g] s (groupLatched g s) :=
  OnlyRegs.of_reg (OnlyRegs.p (OnlyRegs.p (onlyRegs_refl [AG_STAT g] s) (AG_STAT_LEADER g) _ List.mem_cons_self) (AG_STAT_RESULT g) _
    List.mem_cons_self) (modAg_reg _ _ _)

/-- What a latched move shows of its group. -/
theorem groupLatched_spec : agState (groupLatched g s) g = agState s g ∧ (groupLatched g s).g (AG_STAT_RESULT g) = Sts.ok ∧
    (groupLatched g s).g (AG_STAT_LEADER g) = (leaderOf (deltasOf s g)).1 ∧
    (agU (groupLatched g s) g).dist = (leaderOf (deltasOf s g)).2.natAbs ∧ (agU (groupLatched g s) g).members = deltasOf s g ∧
    (groupLatched g s).out = s.out ∧ OnlyRegs [AG_STAT g] s (groupLatched g s) := by
  have hsr : Clear (AG_STAT_STATE g) (AG_STAT_RESULT g) := clear_inst rfl
  have hsl : Clear (AG_STAT_STATE g) (AG_STAT_LEADER g) := clear_inst rfl
  have hlr : Clear (AG_STAT_LEADER g) (AG_STAT_RESULT g) := clear_inst rfl
  have hlead : (leaderOf (deltasOf s g)).1 % 2 ^ 6 = (leaderOf (deltasOf s g)).1 := Nat.mod_eq_of_lt (leaderOf_lt fun d hd => deltasOf_lt hd)
  unfold groupLatched agState
  rw [modAg_g, modAg_g, modAg_g, g_p_clear _ _ hsr, g_p_clear _ _ hsl, g_p_clear _ _ hlr, agU_modAg_self, modAg_out, State.p_out, State.p_out]
  exact ⟨rfl, g_p_self _ _ _ (Nat.le_of_ble_eq_true rfl), (g_p_self _ _ _ (Nat.le_of_ble_eq_true rfl)).trans hlead, rfl, rfl, rfl,
    groupLatched_regs⟩

theorem onlyStat_page (h : OnlyRegs [AG_STAT g] s t) : Alike AxisPage s t := h.alike.mono fun off ho hm => by
  rw [List.mem_singleton.mp hm] at ho
  exact not_axisPage_stat ho

/-- What the start of a group's idle members leaves of its status. -/
theorem agStart_shown (h : (agU s g).members.all (fun d => axState s d.1 == Axs.idle) = true) {f : Fld} (hf : f.off = AG_STAT g)
    (hc : Clear f (AG_STAT_STATE g)) : (agStart g s).g f = s.g f := by
  rw [agStart_idle h]
  exact ((membersBegin_kept _).1.g ⟨g, hf⟩).trans (g_p_clear _ _ hc)

theorem agStart_dist (h : (agU s g).members.all (fun d => axState s d.1 == Axs.idle) = true)
    (hd : ((agU s g).members.map Prod.fst).Nodup) {d : Nat × Int} (hm : d ∈ (agU s g).members) :
    (axU (agStart g s) d.1).dist = d.2.natAbs := by
  rw [agStart_idle h]
  exact membersBegin_dist _ hd hm

theorem GroupFit.latchedIdle (h : GroupFit g s) :
    (agU (groupLatched g s) g).members.all (fun d => axState (groupLatched g s) d.1 == Axs.idle) = true := by
  obtain ⟨-, -, -, -, hmem, -, hregs⟩ := groupLatched_spec (g := g) (s := s)
  have hpage := onlyStat_page hregs
  generalize groupLatched g s = w at hmem hpage ⊢
  rw [hmem]
  exact List.all_eq_true.mpr fun d hd => beq_iff_eq.mpr ((axState_page hpage (deltasOf_lt hd)).trans (h.idle d hd))

/-- A group that GO starts. -/
theorem GroupFit.moves (h : GroupFit g s) : agState (agStart g (groupLatched g s)) g = Axs.moving ∧
    (agStart g (groupLatched g s)).g (AG_STAT_RESULT g) = Sts.ok ∧
    (agStart g (groupLatched g s)).g (AG_STAT_LEADER g) = (leaderOf (deltasOf s g)).1 ∧
    (agU (agStart g (groupLatched g s)) g).dist = (leaderOf (deltasOf s g)).2.natAbs ∧
    (agU (agStart g (groupLatched g s)) g).members = deltasOf s g ∧
    (deltasOf s g).all (fun d => axState (agStart g (groupLatched g s)) d.1 == Axs.moving &&
      (axU (agStart g (groupLatched g s)) d.1).dist == d.2.natAbs) = true ∧ (agStart g (groupLatched g s)).out = s.out := by
  obtain ⟨-, hres, hlead, hdist, hmem, hout, -⟩ := groupLatched_spec (g := g) (s := s)
  have hidle := h.latchedIdle
  have hnodup := deltasOf_nodup (s := s) (g := g)
  generalize groupLatched g s = w at hres hlead hdist hmem hout hidle ⊢
  generalize deltasOf s g = ds at hlead hdist hmem hnodup ⊢
  have hres' : (agStart g w).g (AG_STAT_RESULT g) = w.g (AG_STAT_RESULT g) := agStart_shown hidle rfl (clear_inst rfl)
  have hlead' : (agStart g w).g (AG_STAT_LEADER g) = w.g (AG_STAT_LEADER g) := agStart_shown hidle rfl (clear_inst rfl)
  obtain ⟨hst, hu, hall, hout'⟩ := agStart_moves hidle
  have hd (d : Nat × Int) (hm : d ∈ ds) : (axU (agStart g w) d.1).dist = d.2.natAbs :=
    agStart_dist hidle (by rw [hmem]; exact hnodup) (by rw [hmem]; exact hm)
  rw [hmem] at hall
  generalize agStart g w = x at hres' hlead' hst hu hall hout' hd ⊢
  refine ⟨hst, hres'.trans hres, hlead'.trans hlead, ?_, ?_, ?_, hout'.trans hout⟩
  · rw [hu, hdist]
  · rw [hu, hmem]
  · refine List.all_eq_true.mpr fun d hm => ?_
    rw [Bool.and_eq_true]
    exact ⟨List.all_eq_true.mp hall d hm, beq_iff_eq.mpr (hd d hm)⟩

/-- A group whose GO waits for its start input. -/
theorem groupLatched_waits : agState ((groupLatched g s).p (AG_STAT_STATE g) Axs.waiting) g = Axs.waiting ∧
    ((groupLatched g s).p (AG_STAT_STATE g) Axs.waiting).g (AG_STAT_RESULT g) = Sts.ok ∧
    (agU ((groupLatched g s).p (AG_STAT_STATE g) Axs.waiting) g).members = deltasOf s g ∧
    ((groupLatched g s).p (AG_STAT_STATE g) Axs.waiting).out = s.out ∧
    OnlyRegs [AG_STAT g] s ((groupLatched g s).p (AG_STAT_STATE g) Axs.waiting) := by
  obtain ⟨-, hres, -, -, hmem, hout, hregs⟩ := groupLatched_spec (g := g) (s := s)
  have hrs : Clear (AG_STAT_RESULT g) (AG_STAT_STATE g) := clear_inst rfl
  generalize groupLatched g s = w at hres hmem hout hregs ⊢
  rw [agU_p, State.p_out, g_p_clear _ _ hrs]
  exact ⟨g_p_self _ _ _ (Nat.le_of_ble_eq_true rfl), hres, hmem, hout, hregs.p (AG_STAT_STATE g) _ List.mem_cons_self⟩

/-- A group not idle refuses a GO. -/
theorem agGoCalled_refused (h : agState s g ≠ 0) : agGoCalled g s = agResult g Sts.badState s := if_pos (.inl h)

theorem groupCalled_refused : (agResult g Sts.badState (groupCalled g v s)).g (AG_STAT_RESULT g) = Sts.badState ∧
    agState (agResult g Sts.badState (groupCalled g v s)) g = agState s g ∧
    agU (agResult g Sts.badState (groupCalled g v s)) g = { agU s g with went := true } ∧
    (agResult g Sts.badState (groupCalled g v s)).mot = { s.mot with ag := (agResult g Sts.badState (groupCalled g v s)).mot.ag } ∧
    (agResult g Sts.badState (groupCalled g v s)).out = s.out ∧
    OnlyRegs [AG_CTRL g, AG_STAT g] s (agResult g Sts.badState (groupCalled g v s)) := by
  have hsr : Clear (AG_STAT_STATE g) (AG_STAT_RESULT g) := clear_inst rfl
  have hst := groupCalled_state (g := g) (v := v) (s := s)
  have hu := groupCalled_agU (g := g) (v := v) (s := s)
  have hmot := groupCalled_mot (g := g) (v := v) (s := s)
  have hout := groupCalled_out (g := g) (v := v) (s := s)
  have hregs := groupCalled_regs (g := g) (v := v) (s := s)
  generalize groupCalled g v s = w at hst hu hmot hout hregs ⊢
  have hboth : OnlyRegs [AG_CTRL g, AG_STAT g] s w := fun off ho => hregs off fun hm => ho (List.mem_cons.mpr (.inl (List.mem_singleton.mp hm)))
  unfold agResult
  rw [agU_p, State.p_mot, State.p_out]
  exact ⟨g_p_self _ _ _ (Nat.le_of_ble_eq_true rfl), (g_p_clear _ _ hsr).trans hst, hu, hmot, hout,
    hboth.p (AG_STAT_RESULT g) _ (List.mem_cons_of_mem _ List.mem_cons_self)⟩

end

end Sys2Proof.Machine
end

section
/-!
PROOFS. STOP of axis groups, and O53 (spec/11_step_motion.md R264-R267).
-/

namespace Sys2Proof.Machine

open Reg

set_option Elab.async false

section
variable {n g : Nat} {s t u : State} {v : Word}

/-! ## What a tick took, undone -/

/-- The registers of the groups, and what lies after them. -/
def GroupPage (off : Nat) : Prop := 0x803000 ≤ off

theorem restRegs_groupPage (hn : n < 64) {off : Nat} (h : GroupPage off) : off ∉ restRegs n := not_restRegs fun k hk => by
  unfold GroupPage at h
  omega

theorem not_groupPage_target (hn : n < 64) : ¬ GroupPage (AX_TARGET n) := by
  unfold GroupPage AX_TARGET
  omega

theorem not_groupPage_stat (hn : n < 64) : ¬ GroupPage (AX_STAT n) := by
  unfold GroupPage AX_STAT
  omega

/-- GOs and targets of axes undone: the groups stand, and nothing is shown. -/
structure Unwound (s t : State) : Prop where
  regs : Alike GroupPage s t
  out : t.out = s.out
  groups : t.mot.ag = s.mot.ag
  ended : ∀ m, (axU t m).ended = (axU s m).ended

theorem Unwound.refl (s : State) : Unwound s s := ⟨.refl s, rfl, rfl, fun _ => rfl⟩

theorem Unwound.trans (h : Unwound s t) (k : Unwound t u) : Unwound s u :=
  ⟨h.regs.trans k.regs, k.out.trans h.out, k.groups.trans h.groups, fun m => (k.ended m).trans (h.ended m)⟩

theorem unwound_axEndMove (hn : n < 64) : Unwound s (axEndMove n s) :=
  ⟨fun _ ho => axEndMove_regs _ (restRegs_groupPage hn ho), axEndMove_kept.outs (.inl rfl), axEndMove_ag, fun _ => axEndMove_ended⟩

theorem unwound_target (hn : n < 64) (x : Word) : Unwound s (s.setReg (AX_TARGET n) x) :=
  ⟨(Alike.refl s).setReg x (not_groupPage_target hn), rfl, rfl, fun m => by rw [axU_setReg]⟩

/-- The targets of a tick, undone. -/
def targetBack (n : Nat) (s : State) : State :=
  if (axU s n).calls.any Option.isSome then s.setReg (AX_TARGET n) (axU s n).tgt0 else s

theorem axUnwind_eq (he : (axU s n).ended = none) :
    axUnwind n s = if (axU s n).goTick then axEndMove n (targetBack n s) else targetBack n s := by
  unfold axUnwind
  dsimp only
  rw [he]
  rfl

theorem unwound_axUnwind (hn : n < 64) (he : (axU s n).ended = none) : Unwound s (axUnwind n s) := by
  have hback : Unwound s (targetBack n s) := by
    unfold targetBack
    split
    · exact unwound_target hn _
    · exact .refl s
  rw [axUnwind_eq he]
  split
  · exact hback.trans (unwound_axEndMove hn)
  · exact hback

theorem unwound_members (l : List Nat) (hl : ∀ m ∈ l, m < 64 ∧ (axU s m).ended = none) :
    Unwound s (l.foldl (fun s m => axUnwind m s) s) :=
  foldl_keeps (P := Unwound s) (fun _ m hm hw => hw.trans (unwound_axUnwind (hl m hm).1 ((hw.ended m).trans (hl m hm).2))) (.refl s)

/-- A group that took neither GO nor end in this tick. -/
theorem unwound_agUnwind (hgo : (agU s g).goTick = false) (he : (agU s g).ended = none)
    (hm : (membersOf s g).all (fun m => (axU s m).ended.isNone) = true) : Unwound s (agUnwind g s) := by
  have heq : agUnwind g s = (membersOf s g).foldl (fun s n => axUnwind n s) s := by
    unfold agUnwind
    dsimp only
    rw [he, hgo]
    rfl
  rw [heq]
  exact unwound_members _ fun m hmem => ⟨membersOf_lt hmem, Option.isNone_iff_eq_none.mp (List.all_eq_true.mp hm m hmem)⟩

/-! ## And taken again -/

/-- Calls taken again: states, groups and STOP stand, and nothing is shown. -/
structure Replayed (g : Nat) (s t : State) : Prop where
  axes : ∀ m, axState t m = axState s m
  group : agState t g = agState s g
  stop : t.on (AG_CTRL_STOP g) = s.on (AG_CTRL_STOP g)
  out : t.out = s.out
  groups : t.mot.ag = s.mot.ag

theorem Replayed.refl (g : Nat) (s : State) : Replayed g s s := ⟨fun _ => rfl, rfl, rfl, rfl, rfl⟩

theorem Replayed.trans (h : Replayed g s t) (k : Replayed g t u) : Replayed g s u :=
  ⟨fun m => (k.axes m).trans (h.axes m), k.group.trans h.group, k.stop.trans h.stop, k.out.trans h.out, k.groups.trans h.groups⟩

/-- A status field that is no state, written. -/
theorem replayed_p {f : Fld} (x : Nat) (ha : ∀ m, Clear (AX_STAT_STATE m) f) (hg : Clear (AG_STAT_STATE g) f) (hc : Clear (AG_CTRL_STOP g) f) :
    Replayed g s (s.p f x) :=
  ⟨fun m => g_p_clear _ _ (ha m), g_p_clear _ _ hg, on_p_clear _ _ hc, rfl, rfl⟩

theorem replayed_axResult (code : Nat) : Replayed g s (axResult n code s) :=
  replayed_p (f := AX_STAT_RESULT n) code (fun _ => ⟨Nat.le_of_ble_eq_true rfl, .inr (.inl (Nat.le_of_ble_eq_true rfl))⟩)
    ⟨Nat.le_of_ble_eq_true rfl, .inr (.inl (Nat.le_of_ble_eq_true rfl))⟩ ⟨Nat.le_of_ble_eq_true rfl, .inr (.inl (Nat.le_of_ble_eq_true rfl))⟩

theorem replayed_target (hn : n < 64) (w : Word) : Replayed g s (s.setReg (AX_TARGET n) w) := by
  have hpage : Alike GroupPage s (s.setReg (AX_TARGET n) w) := (Alike.refl s).setReg w (not_groupPage_target hn)
  refine ⟨fun m => ?_, hpage.g (by unfold GroupPage AG_STAT_STATE AG_STAT; dsimp only; omega),
    hpage.on (by unfold GroupPage AG_CTRL_STOP AG_CTRL; dsimp only; omega), rfl, rfl⟩
  refine ((onlyRegs_refl [AX_TARGET n] s).setReg w List.mem_cons_self).alike.g fun hm => ?_
  have he : AX_STAT m = AX_TARGET n := List.mem_singleton.mp hm
  unfold AX_STAT AX_TARGET at he
  omega

theorem replayed_axReplay (hn : n < 64) : Replayed g s (axReplay n s) := by
  unfold axReplay
  refine foldl_keeps (P := Replayed g s) (fun w c _ hw => ?_) (.refl g s)
  cases c with
  | none => exact hw.trans (replayed_axResult _)
  | some x =>
    refine hw.trans ?_
    dsimp only
    unfold axTargetPut
    split
    · exact replayed_axResult _
    · exact (replayed_target hn _).trans (replayed_axResult _)

theorem replayed_agResult (code : Nat) : Replayed g s (agResult g code s) :=
  replayed_p (f := AG_STAT_RESULT g) code (fun _ => ⟨Nat.le_of_ble_eq_true rfl, .inr (.inl (Nat.le_of_ble_eq_true rfl))⟩)
    (clear_inst rfl) (clear_inst rfl)

theorem replayed_agReplay : Replayed g s (agReplay g s) := by
  have hm : Replayed g s ((membersOf s g).foldl (fun s n => axReplay n s) s) :=
    foldl_keeps (P := Replayed g s) (fun w m hmem hw => hw.trans (replayed_axReplay (membersOf_lt hmem))) (.refl g s)
  unfold agReplay
  dsimp only
  split
  · exact hm.trans (replayed_agResult _)
  · exact hm

/-! ## STOP of a group -/

/-- A group that was told to stop, before the stop takes effect. -/
def stopMarked (g : Nat) (s : State) : State := (modAg g (fun u => { u with stopTick := true }) (agUnwind g s)).pb (AG_CTRL_STOP g) true

/-- The stop of every member. -/
def membersStop (ms : List (Nat × Int)) (s : State) : State := ms.foldl (fun s m => s.p (AX_STAT_STATE m.1) Axs.stopping) s

theorem agStop_eq : agStop g s = agReplay g (if agState (stopMarked g s) g = Axs.waiting then agEndMove g (stopMarked g s)
    else if agState (stopMarked g s) g = Axs.moving then
      membersStop (agU (stopMarked g s) g).members ((stopMarked g s).p (AG_STAT_STATE g) Axs.stopping)
    else stopMarked g s) := rfl

theorem stopMarked_spec (h : Unwound s (agUnwind g s)) : agState (stopMarked g s) g = agState s g ∧
    (stopMarked g s).on (AG_CTRL_STOP g) = true ∧ (agU (stopMarked g s) g).members = (agU s g).members ∧ (stopMarked g s).out = s.out := by
  have hc : Clear (AG_STAT_STATE g) (AG_CTRL_STOP g) := clear_inst rfl
  have hst : agState (agUnwind g s) g = agState s g := h.regs.g (by unfold GroupPage AG_STAT_STATE AG_STAT; dsimp only; omega)
  have hu : agU (agUnwind g s) g = agU s g := agU_congr h.groups
  have hout := h.out
  unfold stopMarked
  generalize agUnwind g s = w at hst hu hout ⊢
  unfold agState at hst ⊢
  rw [g_pb_clear _ _ hc, modAg_g, agU_pb, agU_modAg_self, State.pb_out, modAg_out, hu]
  exact ⟨hst, on_pb_same _ _ rfl, rfl, hout⟩

theorem membersStop_kept (ms : List (Nat × Int)) : (membersStop ms s).out = s.out ∧ agState (membersStop ms s) g = agState s g ∧
    (membersStop ms s).on (AG_CTRL_STOP g) = s.on (AG_CTRL_STOP g) :=
  foldl_keeps (P := fun t => t.out = s.out ∧ agState t g = agState s g ∧ t.on (AG_CTRL_STOP g) = s.on (AG_CTRL_STOP g))
    (fun u m _ ⟨hout, hst, hstop⟩ => by
      have hs : Clear (AG_STAT_STATE g) (AX_STAT_STATE m.1) := ⟨Nat.le_of_ble_eq_true rfl, .inl fun e => stat_groupStat ⟨g, Eq.symm e⟩⟩
      have hc : Clear (AG_CTRL_STOP g) (AX_STAT_STATE m.1) := ⟨Nat.le_of_ble_eq_true rfl, .inl groupCtrl_ne_stat⟩
      exact ⟨hout, (g_p_clear _ _ hs).trans hst, (on_p_clear _ _ hc).trans hstop⟩) ⟨rfl, rfl, rfl⟩

theorem membersStop_stopping {m : Nat} (ms : List (Nat × Int)) (h : axState s m = Axs.stopping ∨ m ∈ ms.map Prod.fst) :
    axState (membersStop ms s) m = Axs.stopping := by
  induction ms generalizing s with
  | nil => exact h.resolve_right List.not_mem_nil
  | cons d r ih =>
    refine ih (s := s.p (AX_STAT_STATE d.1) Axs.stopping) ?_
    by_cases hm : m = d.1
    · subst hm
      exact .inl (g_p_self _ _ _ (Nat.le_of_ble_eq_true rfl))
    · exact h.imp (fun hs => (((onlyRegs_refl _ s).p (AX_STAT_STATE d.1) _ List.mem_cons_self).alike.g (stat_injective hm)).trans hs)
        fun hmem => (List.mem_cons.mp hmem).resolve_left hm

/-- STOP of a moving group. -/
theorem agStop_moving (hst : agState s g = Axs.moving) (h : Unwound s (agUnwind g s)) : agState (agStop g s) g = Axs.stopping ∧
    (agStop g s).on (AG_CTRL_STOP g) = true ∧ (agU s g).members.all (fun m => axState (agStop g s) m.1 == Axs.stopping) = true ∧
    (agStop g s).out = s.out := by
  have hc : Clear (AG_CTRL_STOP g) (AG_STAT_STATE g) := clear_inst rfl
  obtain ⟨hmst, hstop, hmem, hout⟩ := stopMarked_spec h
  rw [agStop_eq, hmst, hst, if_neg (by decide), if_pos rfl, hmem]
  generalize stopMarked g s = w at hstop hout ⊢
  obtain ⟨hmo, hms, hmc⟩ := membersStop_kept (s := w.p (AG_STAT_STATE g) Axs.stopping) (g := g) (agU s g).members
  have hall (m : Nat × Int) (hm : m ∈ (agU s g).members) :
      axState (membersStop (agU s g).members (w.p (AG_STAT_STATE g) Axs.stopping)) m.1 = Axs.stopping :=
    membersStop_stopping _ (.inr (List.mem_map_of_mem hm))
  have hself : agState (w.p (AG_STAT_STATE g) Axs.stopping) g = Axs.stopping := g_p_self _ _ _ (Nat.le_of_ble_eq_true rfl)
  rw [on_p_clear _ _ hc] at hmc
  rw [State.p_out] at hmo
  generalize membersStop (agU s g).members (w.p (AG_STAT_STATE g) Axs.stopping) = x at hmo hms hmc hall ⊢
  have hr := replayed_agReplay (g := g) (s := x)
  generalize agReplay g x = y at hr ⊢
  refine ⟨(hr.group.trans hms).trans hself, (hr.stop.trans hmc).trans hstop, List.all_eq_true.mpr fun m hm => ?_, (hr.out.trans hmo).trans hout⟩
  exact beq_iff_eq.mpr ((hr.axes m.1).trans (hall m hm))

/-- STOP of a waiting group. -/
theorem agStop_waiting (hst : agState s g = Axs.waiting) (h : Unwound s (agUnwind g s)) : agState (agStop g s) g = 0 ∧
    (agStop g s).on (AG_CTRL_STOP g) = false ∧ (agU (agStop g s) g).members = [] ∧ (agStop g s).out = s.out := by
  obtain ⟨hmst, -, -, hout⟩ := stopMarked_spec h
  rw [agStop_eq, if_pos (hmst.trans hst)]
  generalize stopMarked g s = w at hout ⊢
  obtain ⟨hend, hmem, hstop, hout', -⟩ := agEndMove_spec (g := g) (s := w)
  generalize agEndMove g w = x at hend hmem hstop hout' ⊢
  have hr := replayed_agReplay (g := g) (s := x)
  generalize agReplay g x = y at hr ⊢
  refine ⟨hr.group.trans hend, hr.stop.trans hstop, ?_, (hr.out.trans hout').trans hout⟩
  rw [agU_congr hr.groups]
  exact hmem

/-- The group's plain fields, written. -/
def groupWritten (g : Nat) (v : Word) (s : State) : State :=
  (s.p (AG_CTRL_KEEP g) (fieldOf (AG_CTRL_KEEP g) v)).p (AG_CTRL_WAIT_EV g) (fieldOf (AG_CTRL_WAIT_EV g) v)

theorem agCtrlWrite_stop (hgo : fieldOf (AG_CTRL_GO g) v = 0) (hstop : fieldOf (AG_CTRL_STOP g) v = 1) :
    agCtrlWrite g v s = agStop g (groupWritten g v s) := by
  have hne : ¬ (0 : Nat) = 1 := by decide
  unfold agCtrlWrite
  dsimp only
  rw [hgo, hstop, if_neg hne, if_pos (rfl : (1 : Nat) = 1), if_pos (rfl : (1 : Nat) = 1)]
  rfl

theorem groupWritten_regs : OnlyRegs [AG_CTRL g] s (groupWritten g v s) :=
  ((onlyRegs_refl [AG_CTRL g] s).p (AG_CTRL_KEEP g) _ List.mem_cons_self).p (AG_CTRL_WAIT_EV g) _ List.mem_cons_self

theorem groupWritten_kept : (groupWritten g v s).part = s.part ∧ (groupWritten g v s).out = s.out ∧ (groupWritten g v s).mot = s.mot := by
  unfold groupWritten
  rw [State.p_part, State.p_part, State.p_out, State.p_out, State.p_mot, State.p_mot]
  exact ⟨rfl, rfl, rfl⟩

/-- A STOP finds the group as the write of its fields left it. -/
theorem groupWritten_unwinds (hgo : (agU s g).goTick = false) (he : (agU s g).ended = none)
    (hm : (membersOf s g).all (fun m => (axU s m).ended.isNone) = true) :
    Unwound (groupWritten g v s) (agUnwind g (groupWritten g v s)) ∧ agState (groupWritten g v s) g = agState s g ∧
    agU (groupWritten g v s) g = agU s g ∧ (groupWritten g v s).out = s.out := by
  obtain ⟨hpart, hout, hmot⟩ := groupWritten_kept (g := g) (v := v) (s := s)
  have hregs := groupWritten_regs (g := g) (v := v) (s := s)
  generalize groupWritten g v s = w at hpart hout hmot hregs ⊢
  have hpage : Alike AxisPage s w := hregs.alike.mono fun off ho hmem => by
    rw [List.mem_singleton.mp hmem] at ho
    exact not_axisPage_ctrl ho
  have hu : agU w g = agU s g := agU_congr (congrArg (·.ag) hmot)
  have hax (m : Nat) : axU w m = axU s m := axU_congr (congrArg (·.ax) hmot)
  have hst : agState w g = agState s g := hregs.alike.g fun hmem => by
    have he : AG_STAT g = AG_CTRL g := List.mem_singleton.mp hmem
    unfold AG_STAT AG_CTRL at he
    omega
  refine ⟨unwound_agUnwind ?_ ?_ ?_, hst, hu, hout⟩
  · rw [hu]
    exact hgo
  · rw [hu]
    exact he
  · rw [membersOf_page hpage hpart]
    refine List.all_eq_true.mpr fun m hmem => ?_
    rw [hax]
    exact List.all_eq_true.mp hm m hmem

theorem agSettle_rest (h : agState s g = 0) : agSettle g s = s := if_neg (by rw [h]; decide)

theorem groupFit_of (hst : agState s g = 0) (hstop : (agU s g).stopTick = false) (hforce : s.psq.stopInForce = false)
    (hidle : (deltasOf s g).all (fun d => axState s d.1 == Axs.idle) = true) (hv : s.g (AG_VMAX_VALUE g) ≠ 0)
    (ha : s.g (AG_ACCEL_VALUE g) ≠ 0) (hd : s.g (AG_DECEL_VALUE g) ≠ 0)
    (hlim : (deltasOf s g).any (memberParam s g (leaderOf (deltasOf s g)).2.natAbs) = false)
    (hlead : (leaderOf (deltasOf s g)).2.natAbs ≠ 0) : GroupFit g s :=
  ⟨hst, hstop, hforce, fun d hm => beq_iff_eq.mp (List.all_eq_true.mp hidle d hm), hv, ha, hd,
    fun d hm => Bool.eq_false_iff.mpr (List.any_eq_false.mp hlim d hm), hlead⟩

end

/-- Settles O53: the one moving axis takes its tick alone, and a group's members begin, stop and end together because the
registers of axes and of groups lie apart. -/
theorem axisMotion : Obligations.AxisMotion := by
  unfold Obligations.AxisMotion
  intro s n raw g v
  refine ⟨fun hd hin hw hk => .of_live rfl hd ?_, fun hd hn hm hb he ho hg hv => .of_live rfl hd ?_,
    fun hd hn hm hb he ho hg hv => .of_live rfl hd ?_, fun hd ht hb hdis => .of_live rfl hd (axMoveEnd_idle ht hb hdis),
    fun hd hb ht => .of_live rfl hd (axMoveEnd_groupEnds hb rfl ht), fun hd hsh he ho hf hx => .of_live rfl hd ?_,
    fun hd hsh he ho hf hle hw => .of_live rfl hd ?_,
    fun hr hgo hstop hwait hst htick hforce hidle hvm ha hdec hlim hlead => .of_hostAt rfl hr ?_,
    fun hr hgo hstop hwait hst htick hforce hidle hvm ha hdec hlim hlead => .of_hostAt rfl hr ?_,
    fun hr hgo hstop hst hset => .of_hostAt rfl hr ?_, fun hr hgo hstop hst htick hend hm _ => .of_hostAt rfl hr ?_,
    fun hr hgo hstop hst htick hend hm => .of_hostAt rfl hr ?_, fun hd hin hw hk hms => .of_live rfl hd ?_,
    fun hd hin hw hk hms => .of_live rfl hd ?_⟩
  · have hb := begun_axBegin (n := n) (s := s) (axU s n).latch.1 false (axU s n).latch.2
    rw [if_pos hin, axPulse_waiting hw hk]
    exact ⟨hb.state, hb.mode, hb.dist, hb.emitted, hb.out, hb.regs⟩
  · obtain ⟨hst, hvel, hprog⟩ := profileTick_one hn hm hb he (fun m hne => ho m fun e => hne (congrArg Fin.val e)) hg
    rw [hvel, hprog]
    unfold tickProg
    rw [if_pos hv]
    refine ⟨hst, ?_, rfl⟩
    unfold tickVel
    rw [if_pos hv]
  · obtain ⟨hst, hvel, hprog⟩ := profileTick_one hn hm hb he (fun m hne => ho m fun e => hne (congrArg Fin.val e)) hg
    rw [hvel, hprog]
    unfold tickProg
    rw [if_neg (by simp [hv])]
    refine ⟨hst, ?_, rfl⟩
    unfold tickVel
    rw [if_neg (by simp [hv])]
  · rw [hsh]
    exact axEncoder_past he ho hf hx
  · rw [hsh]
    exact axEncoder_backlash he ho hf hle hw
  · have hfit : GroupFit g (groupCalled g v s) := (groupFit_of hst htick hforce hidle hvm ha hdec hlim hlead).called
    have hds : deltasOf (groupCalled g v s) g = deltasOf s g := deltasOf_page groupCalled_page groupCalled_part g
    have hon : ¬ (groupCalled g v s).on (AG_CTRL_WAIT_EV g) = true := by
      unfold State.on
      rw [groupCalled_waits, hwait]
      decide
    obtain ⟨hmst, hres, hl, hdist, hmem, hall, hout⟩ := hfit.moves
    rw [agCtrlWrite_go hgo hstop (agSettle_rest hst), hfit.go, if_neg hon, ← hds]
    exact ⟨hmst, hres, hl, hdist, hmem, hall, hout.trans groupCalled_out⟩
  · have hfit : GroupFit g (groupCalled g v s) := (groupFit_of hst htick hforce hidle hvm ha hdec hlim hlead).called
    have hds : deltasOf (groupCalled g v s) g = deltasOf s g := deltasOf_page groupCalled_page groupCalled_part g
    have hon : (groupCalled g v s).on (AG_CTRL_WAIT_EV g) = true := by
      unfold State.on
      rw [groupCalled_waits, hwait]
      decide
    obtain ⟨hmst, hres, hmem, hout, hregs⟩ := groupLatched_waits (g := g) (s := groupCalled g v s)
    rw [agCtrlWrite_go hgo hstop (agSettle_rest hst), hfit.go, if_pos hon, ← hds]
    refine ⟨hmst, hres, hmem, hout.trans groupCalled_out, fun off ho => (hregs off fun hm => ?_).trans (groupCalled_regs off fun hm => ?_)⟩
    · exact ho (List.mem_cons_of_mem _ hm)
    · exact ho (List.mem_cons.mpr (.inl (List.mem_singleton.mp hm)))
  · rw [agCtrlWrite_go hgo hstop hset, agGoCalled_refused (by rw [groupCalled_state]; exact hst)]
    exact groupCalled_refused
  · obtain ⟨hu, hst', hag, hout⟩ := groupWritten_unwinds (v := v) htick hend hm
    obtain ⟨hsst, hstp, hall, hsout⟩ := agStop_moving (hst'.trans hst) hu
    rw [agCtrlWrite_stop hgo hstop]
    rw [hag] at hall
    exact ⟨hsst, hstp, hall, hsout.trans hout⟩
  · obtain ⟨hu, hst', -, hout⟩ := groupWritten_unwinds (v := v) htick hend hm
    obtain ⟨hsst, hstp, hmem, hsout⟩ := agStop_waiting (hst'.trans hst) hu
    rw [agCtrlWrite_stop hgo hstop]
    exact ⟨hsst, hstp, hmem, hsout.trans hout⟩
  · have hidle : (agU s g).members.all (fun d => axState s d.1 == Axs.idle) = true :=
      List.all_eq_true.mpr fun m hm => (Bool.and_eq_true _ _ ▸ List.all_eq_true.mp hms m hm).2
    obtain ⟨hst, hu, hall, hout⟩ := agStart_moves hidle
    rw [if_pos hin, agPulse_waiting hw hk]
    exact ⟨hst, congrArg Ag.members hu, hall, hout⟩
  · rw [if_pos hin, agPulse_waiting hw hk]
    exact agStart_ends hms

end Sys2Proof.Machine
end

section
/-!
PROOFS. A corner of SHEET_COMMIT: an error that its reads meet is told on completion ring 0, which its own completion may
then find full (spec/03_host_rep.md R64; spec/18_dram.md R391; spec/20_monitors_errors.md R416).
-/

namespace Sys2Proof.Machine

open Reg

set_option Elab.async false

/-- The descriptor of a continuous-tone plane of 32 pixels whose band table, of one entry, is at 1 MiB. -/
def smallDescriptor : List Byte := [1, 0, 0, 0, 32, 0, 0, 0, 1, 0, 0, 0, 0, 0, 0, 0, 0, 0, 16]

/-- A READY block with a session open, one entry queued on pair 0 and one free slot in its completion ring. -/
def lastSlot : State := (oneQueued.p REP_STAT_ENGINE Eng.ready).p (REP_QSTAT_CQ_TAIL 0) 14

/-- A passage wide enough for a sheet of one line, a sheet of MODE 1 ARMED in it. -/
def sheetArmed : State :=
  ((((lastSlot.p DRAM_CFG_INSTALLED 1).p PSQ_CPL_CPL 1).p (PSQ_POS_COUNTS 1) 100).p (PCTX_STATE_STATE 0) Px.armed).p (PCTX_STATE_MODE 0) 1

/-- As `sheetArmed`, station 0 configured for the descriptor at address 0, whose burst, touched, holds a wrong symbol. -/
def weakDescriptor : State :=
  { sheetArmed.modStn 0 (fun u => { u with newest := { u.newest with enable := true, num := 1, width := 32 } }) with
    ctx := [(0, {})], mem := memWrite [] 0 smallDescriptor, dram.touch := [0], dram.weak := [0] }


/-! ## What a record leaves of a completion ring -/

/-- The registers of the queue pairs. -/
def PairRegs (off : Nat) : Prop := 0x311000 ≤ off ∧ off < 0x312000

/-- A completion of a SHEET_COMMIT. -/
def commitEnd (o : Out) : Bool :=
  match o with
  | .cqe _ _ c => c.op == 0x20
  | _ => false

section
variable {a s : State}

/-- The registers of the queue pairs as they were, and no SHEET_COMMIT completed. -/
structure Aloof (s t : State) : Prop where
  regs : Alike PairRegs s t
  host : t.host = s.host
  ends : t.out.any commitEnd = s.out.any commitEnd

theorem Aloof.setReg (h : Aloof a s) {off : Nat} (w : Word) (ho : off < 0x311000) : Aloof a (s.setReg off w) :=
  ⟨h.regs.setReg w fun hz => Nat.not_lt.mpr hz.1 ho, h.host, h.ends⟩

theorem Aloof.p (h : Aloof a s) {f : Fld} (x : Nat) (ho : f.off < 0x311000) : Aloof a (s.p f x) := h.setReg _ ho

theorem Aloof.err (h : Aloof a s) (u : ErrU) : Aloof a { s with err := u } := ⟨h.regs.of_regs ⟨rfl, rfl, rfl⟩, h.host, h.ends⟩

theorem Aloof.msix (h : Aloof a s) {v : Nat} (hv : v < 256) : Aloof a (s.msix v) := by
  unfold State.msix
  split
  · exact h.setReg _ (by unfold MSIX_PBA; omega)
  · refine ⟨h.regs.of_regs ⟨rfl, rfl, rfl⟩, h.host, ?_⟩
    unfold State.emit
    rw [List.any_append, h.ends]
    exact Bool.or_false _

theorem Aloof.putWords {off : Nat} {l : List Nat} (h : Aloof a s) (hl : off + 4 * l.length ≤ 0x110000) : Aloof a (putWords off l s) := by
  induction l generalizing off s with
  | nil => exact h
  | cons w r ih =>
    rw [List.length_cons] at hl
    exact ih (h.setReg _ (by omega)) (by omega)

theorem Aloof.pendSet {r : Nat} (h : Aloof a s) (sev : Nat) (hr : r < 7) : Aloof a (pendSet r sev s) := by
  have hpend : Aloof a (s.p (ERR_PEND_SEV r) (Nat.lor (s.g (ERR_PEND_SEV r)) (2 ^ sev))) :=
    h.p _ (by unfold ERR_PEND_SEV ERR_PEND; dsimp only; omega)
  unfold Machine.pendSet
  generalize s.p (ERR_PEND_SEV r) (Nat.lor (s.g (ERR_PEND_SEV r)) (2 ^ sev)) = t at hpend ⊢
  have hstat : Aloof a (t.p CHIP_IRQ_STAT_REGION (irqLines t)) := hpend.p _ (by decide)
  unfold irqSync
  dsimp only
  split
  · exact (hstat.err _).msix (g_lt _ _)
  · exact hstat

/-- The state in which the FAULT of a new record is posted. -/
def recordReady (reg sev : Nat) (s : State) : State :=
  { (((if s.g (ERR_REC_WORD (s.g ERR_HEAD_NEXT) 0) ≠ 0 then s.p ERR_HEAD_WRAPPED 1 else s).p ERR_HEAD_NEXT
      ((s.g ERR_HEAD_NEXT + 1) % 256)).p ERR_SEQ_SEQ ((s.g ERR_SEQ_SEQ + 1) % 2 ^ 32)).inc (cntFld reg sev) with
    staySeq := (s.g ERR_SEQ_SEQ + 1) % 2 ^ 32 }

/-- A new record of an error that is told and ends nothing. -/
theorem aloof_newRecord {e : ErrIn} (hq : e.quiet = false) (hs : e.sev < 2) (hr : e.reg < 7) :
    Aloof (postFault (s.g ERR_HEAD_NEXT) e (recordReady e.reg e.sev s)).1 (newRecord e s) := by
  have hslot : s.g ERR_HEAD_NEXT < 256 := g_lt _ _
  have hne : ¬ 2 ≤ e.sev := Nat.not_le.mpr hs
  have hready : (if e.quiet then (recordReady e.reg e.sev s, false) else postFault (s.g ERR_HEAD_NEXT) e (recordReady e.reg e.sev s)) =
      postFault (s.g ERR_HEAD_NEXT) e (recordReady e.reg e.sev s) := if_neg (by simp [hq])
  unfold recordReady at hready ⊢
  unfold newRecord
  dsimp only at hready ⊢
  rw [hready]
  generalize postFault (s.g ERR_HEAD_NEXT) e _ = pr
  obtain ⟨t, posted⟩ := pr
  dsimp only
  rw [if_neg hne]
  refine Aloof.pendSet (.err (.putWords ⟨.refl t, rfl, rfl⟩ ?_) _) _ hr
  have hlen (x y : Nat) : (recWords x e y s.time).length = 8 := rfl
  rw [hlen]
  unfold ERR_REC
  omega

end


/-! ## A burst corrected -/

section
variable {s : State} {a n : Nat}

/-- A read that reaches nothing. -/
theorem meet_idle (hr : reaches s a n = false) (hb : ((burstsOf a n).filter fun b => touched s (64 * b)) = []) : meet a n s = s := by
  have hact (u : State) : activations [] u = u := by
    unfold activations
    split <;> rfl
  have hw : wakeRead a n s = s := if_neg (by simp [hr])
  unfold meet
  dsimp only
  rw [hw, hb, hact]
  rfl

/-- A read of an awake channel that meets one wrong symbol, in the burst at address 0. -/
theorem meet_corrected (h1 : s.g DRAM_SR_STATE ≠ 1) (h2 : s.g DRAM_SR_STATE ≠ 2)
    (hb : ((burstsOf 0 n).filter fun b => touched s (64 * b)) = [0]) (hd : ((List.range 2).all fun n => (ddrU s n).draw.isEmpty) = true)
    (hue : isUe s 0 = false) (hce : isCe s 0 = true) : meet 0 n s = ceErr 0 s := by
  have hw : wakeRead 0 n s = s := by
    unfold wakeRead wake
    rw [if_neg h1, if_neg h2, ite_self]
  have hact : activations [0] s = s := if_pos hd
  have hmet : burstMet false s 0 = ceErr 0 s := by
    unfold burstMet
    rw [hue, hce, if_neg (by decide), if_pos rfl]
  have hfilter : ([0].filter fun b => isUe s (64 * b) || isCe s (64 * b)) = [0] := by simp [hce]
  unfold meet
  dsimp only
  rw [hw, hb, hact, hfilter, List.foldl_cons, List.foldl_nil, Nat.mul_zero, hmet]

/-- A corrected burst counted and queued for its write-back. -/
def corrCounted (n a : Nat) (s : State) : State :=
  modDdr n (fun d => { d with writeBack := if d.writeBack.contains (a / 64) then d.writeBack else d.writeBack ++ [a / 64],
                              lastFault := some s.clock }) (s.inc (DDR_ECC_CE n))

/-- The corrected error of a channel. -/
def corrError (n : Nat) : ErrIn := { sev := 0, cls := 0x30, inst := n, code := (Config.errCode 0).toNat, level := 0 }

/-- The first corrected error of a channel makes a record. -/
theorem ceErr_first (hn : (place s a).chan = n) (hl : (ddrU s n).lastFault = none)
    (hlive : ¬ ((!(corrCounted n a s).rigged) = true ∨ (corrCounted n a s).dead = true))
    (hreset : errInReset (corrCounted n a s) (corrError n) = false)
    (hlatest : latestOf (corrCounted n a s) 0x30 n = none) : ceErr a s = newRecord (corrError n) (corrCounted n a s) := by
  have hrec : ceErr a s = record (corrError n) (corrCounted n a s) := by
    unfold ceErr
    dsimp only
    rw [hn, hl]
    rfl
  rw [hrec]
  unfold record
  rw [if_neg hlive, hreset, if_neg (by decide)]
  have hl' : latestOf (corrCounted n a s) (corrError n).cls (corrError n).inst = none := hlatest
  rw [hl']

end

/-! ## The last free slot -/

/-- The state in which the descriptor is read. -/
def weakFetched : State := fetchEntry 0 weakDescriptor

/-- The error that its read met, recorded. -/
def weakMet : State := newRecord (corrError 0) (corrCounted 0 0 weakFetched)

theorem ceErr_weak : ceErr 0 weakFetched = weakMet :=
  ceErr_first (by decide +kernel) (by decide +kernel) (by decide +kernel) (by decide +kernel) (by decide +kernel)

theorem meet_weak : meet 0 64 weakFetched = weakMet :=
  (meet_corrected (by decide +kernel) (by decide +kernel) (by decide +kernel) (by decide +kernel) (by decide +kernel)
    (by decide +kernel)).trans ceErr_weak

theorem weakMet_dram : weakMet.dram = (corrCounted 0 0 weakFetched).dram :=
  (kept_newRecord (K := (· = .dram)) (by decide) (by decide) (by decide) (by decide) (by decide) (by decide) (by decide) _ (.refl _)).same
    .dram rfl

theorem meetAll_weak : meetAll (commitReads ⟨1, 0, 1, 0, 1, 0, 0⟩ weakFetched) weakFetched = weakMet := by
  have hreads : commitReads ⟨1, 0, 1, 0, 1, 0, 0⟩ weakFetched = [(0, 64), (2 ^ 20, 16), (0, 0)] := by decide +kernel
  have hin : 0 + 64 ≤ weakFetched.installed := by decide +kernel
  have htouch (x k : Nat) : reaches weakMet x k = reaches (corrCounted 0 0 weakFetched) x k := by
    unfold reaches
    rw [weakMet_dram]
  have htouched (x : Nat) : touched weakMet x = touched (corrCounted 0 0 weakFetched) x := by
    unfold touched
    rw [weakMet_dram]
  have htable : meet (2 ^ 20) 16 weakMet = weakMet :=
    meet_idle (by rw [htouch]; decide +kernel) (by simp only [htouched]; decide +kernel)
  have hnone : meet 0 0 weakMet = weakMet := meet_idle (by rw [htouch]; decide +kernel) rfl
  rw [hreads]
  unfold meetAll
  rw [List.foldl_cons, List.foldl_cons, List.foldl_cons, List.foldl_nil, if_pos hin, meet_weak, htable, ite_self, hnone, ite_self]

/-- The ring as the FAULT of that error leaves it. -/
def weakPosted : State :=
  (postFault ((corrCounted 0 0 weakFetched).g ERR_HEAD_NEXT) (corrError 0) (recordReady 3 0 (corrCounted 0 0 weakFetched))).1

theorem aloof_weakMet : Aloof weakPosted weakMet := aloof_newRecord (e := corrError 0) rfl (by decide) (by decide)

theorem full_weakMet : weakMet.cqFull 0 = true := by
  have hposted : weakPosted.cqFull 0 = true := by decide +kernel
  have htail : weakMet.g (REP_QSTAT_CQ_TAIL 0) = weakPosted.g (REP_QSTAT_CQ_TAIL 0) := aloof_weakMet.regs.g (by unfold PairRegs; decide)
  have hsize : weakMet.g (REP_QCFG_CQ_LOG2 0) = weakPosted.g (REP_QCFG_CQ_LOG2 0) := aloof_weakMet.regs.g (by unfold PairRegs; decide)
  have hhead : weakMet.g (REP_QCQH_HEAD 0) = weakPosted.g (REP_QCQH_HEAD 0) := aloof_weakMet.regs.g (by unfold PairRegs; decide)
  unfold State.cqFull State.cqSize at hposted ⊢
  rw [htail, hsize, hhead]
  exact hposted

theorem ends_weakMet : weakMet.out.any commitEnd = false := by
  have hposted : weakPosted.out.any commitEnd = false := by decide +kernel
  exact aloof_weakMet.ends.trans hposted

theorem mode_weakMet : (anyCtx weakMet fun c => armedLater (ctxState weakMet c) && weakMet.g (PCTX_STATE_MODE c) != 0) = true := by
  have hctx : weakMet.ctx = [(0, {})] := by
    have hkept : weakMet.ctx = (corrCounted 0 0 weakFetched).ctx := (kept_newRecord (K := (· = .ctx)) (by decide) (by decide) (by decide)
      (by decide) (by decide) (by decide) (by decide) _ (.refl _)).same .ctx rfl
    rw [hkept]
    decide +kernel
  have haside : Alike Aside (corrCounted 0 0 weakFetched) weakMet := aside_newRecord (.refl _) (by decide)
  have hst : ctxState weakMet 0 = Px.armed := (haside.g (f := PCTX_STATE_STATE 0) (by unfold Aside; decide)).trans (by decide +kernel)
  have hmode : weakMet.g (PCTX_STATE_MODE 0) = 1 := (haside.g (f := PCTX_STATE_MODE 0) (by unfold Aside; decide)).trans (by decide +kernel)
  unfold anyCtx ctxKeys
  rw [hctx]
  simp only [List.map_cons, List.map_nil, List.any_cons, List.any_nil, Bool.or_false, hst, hmode]
  decide

theorem sheetCommit_mode {s : State} {e : Entry} {k : CommitIn}
    (h : (anyCtx s fun c => armedLater (ctxState s c) && s.g (PCTX_STATE_MODE c) != k.mode) = true) :
    sheetCommit e k s = done e 0x20 Sts.badState 0 s := if_pos h

/-- A command that ends at once whatever the checks of R67 find in what its reads left. -/
theorem judge_ends {s m : State} {e : Entry} {op : Nat} {absent ok : State → Bool} {run : State → State} {reads : State → List (Nat × Nat)}
    (hcond : (sessionTakes s && knownOp s op && e.clean) = true) (hread : meetAll (reads s) s = m)
    (hrun : ∃ st, run m = done e op st 0 m) : ∃ st, judge e op absent ok run reads s = done e op st 0 m := by
  unfold judge
  dsimp only
  rw [if_pos hcond, hread]
  split
  · exact ⟨_, rfl⟩
  · exact hrun

theorem done_full {s : State} {e : Entry} (h : s.cqFull e.q = true) (op st res : Nat) : (done e op st res s).out = s.out := by
  unfold done post
  split
  · rfl
  · rw [if_pos (by simp [h])]
    rfl

theorem command_ends {s m : State} {c : Instr} {e : Entry} {op : Nat} {absent ok : State → Bool} {run : State → State}
    {reads : State → List (Nat × Nat)} (hturn : Turn s e.q)
    (hcond : (sessionTakes (fetchEntry e.q s) && knownOp (fetchEntry e.q s) op && e.clean) = true)
    (hread : meetAll (reads (fetchEntry e.q s)) (fetchEntry e.q s) = m) (hrun : ∃ st, run m = done e op st 0 m) :
    ∃ st, live (command c e op absent ok run reads) s = done e op st 0 m := by
  rw [live_of hturn.live]
  unfold command
  rw [take_turn _ _ hturn]
  exact judge_ends hcond hread hrun

theorem sheetCommit_weak : ∃ st, cmdSheetCommit firstEntry 1 0 1 0 1 0 0 weakDescriptor = done firstEntry 0x20 st 0 weakMet :=
  command_ends (turn_spec (by decide +kernel)) (by decide +kernel) meetAll_weak ⟨_, sheetCommit_mode mode_weakMet⟩

/-- A completion of a SHEET_COMMIT stands in what is shown. -/
theorem commitEnd_of_completes {s t : State} {q cid st res : Nat} (h : completes q cid 0x20 st res s t = true) : t.out.any commitEnd = true := by
  unfold completes at h
  obtain ⟨o, ho, hm⟩ := List.any_eq_true.mp h
  refine List.any_eq_true.mpr ⟨o, List.mem_of_mem_drop ho, ?_⟩
  cases o <;> simp_all [commitEnd]

/-- Refutes O37: the corrected error that a SHEET_COMMIT of another MODE meets in its descriptor takes the last free slot of
ring 0, and the completion with BAD_STATE is held. -/
theorem not_sheetCommands : ¬ Obligations.SheetCommands := by
  unfold Obligations.SheetCommands
  intro h
  obtain ⟨_, _, hmode, _⟩ := h weakDescriptor firstEntry 1 1 0 0 1 0 0 0 0
  have hnext : exec (.sheetCommit firstEntry 1 0 1 0 1 0 0) weakDescriptor = .next (cmdSheetCommit firstEntry 1 0 1 0 1 0 0 weakDescriptor) := rfl
  obtain ⟨hdone, _⟩ := (hmode (by decide +kernel) (by decide +kernel)).of_next hnext
  obtain ⟨st, heq⟩ := sheetCommit_weak
  have hend := commitEnd_of_completes hdone
  have hout := done_full (e := firstEntry) full_weakMet 0x20 st 0
  rw [heq, hout, ends_weakMet] at hend
  exact absurd hend (by decide)

end Sys2Proof.Machine
end

section
/-!
PROOFS. A read of the BAR2 window that activates a row (spec/18_dram.md R389): selected while another row of its bank waits,
it is dropped and counted, so that a register changes.
-/

namespace Sys2Proof.Machine

open Reg

set_option Elab.async false

/-- A RIGGED block with 1 GiB of trained DRAM behind a window of 1 GiB, MiB 0 touched: a row of the first bank waits, and the
random source selects the next row activated. -/
def rowPending : State :=
  { ((State.reset.p CHIP_RIGSTAT_STATE Rg.rigged).p DRAM_TSTAT_STATE 3).p DRAM_CFG_INSTALLED 1 with
    host.bar2 := 2 ^ 30, dram.touch := [0], dram.ddr := [(0, { draw := [true], pend := [(0, 7)] })] }

theorem regs_dropped : (live (bar2Access 0 1 none false) rowPending).regs ≠ rowPending.regs := by decide +kernel

/-- Refutes O32: a read of the window that shows its bytes activates their row, and one selected while a row of its bank waits
adds to DDRn_RH's count of dropped rows, so the registers do not stay as they were. -/
theorem not_linkResetWindowAndMailboxes : ¬ Obligations.LinkResetWindowAndMailboxes := by
  unfold Obligations.LinkResetWindowAndMailboxes
  intro h
  obtain ⟨_, _, _, _, _, _, _, _, hread, _⟩ := h rowPending 0 1 [] 0 none 0 none 0 0 0 0
  obtain ⟨_, _, hregs⟩ := (hread (by decide +kernel) (by decide +kernel) (by decide +kernel) (by decide +kernel)
    (by decide +kernel) (by decide +kernel) (by decide +kernel)).of_next rfl
  exact regs_dropped hregs

end Sys2Proof.Machine
end

section
/-!
PROOFS. A reload in a state that lists a context no chip has: the registers of so high a number lie among a station's, so that
the generation which the reload shows reads as a sheet due there (spec/06_station_pipeline.md R149).
-/

namespace Sys2Proof.Machine

open Reg

set_option Elab.async false

/-- The generation that is loaded, and the one that follows it among those held. -/
def loadedGen : Gen := { num := Px.inPath }
def laterGen : Gen := { num := 2 }

/-- The context number whose PCTX_STATE would lie where STN0_CFGSTAT does. -/
def farContext : Nat := 0xBFF01

theorem farContext_off : PCTX_STATE farContext = STN_CFGSTAT 0 := rfl

/-- Station 0 reloads its newest generation, and a context of number `farContext` bears the other one it holds. STN0_CFGSTAT
reads 0, so that context reads as FREE until the reload ends. -/
def farReload : State :=
  { State.reset.modStn 0 (fun u => { u with reloadFor := some loadedGen.num, held := [loadedGen, laterGen], newest := loadedGen }) with
    ctx := [(farContext, { gen := [laterGen.num] })] }

theorem active_farReload : ((live (reloadDone 0 0) farReload).stnU 0).active.num = laterGen.num := by decide +kernel

/-- Refutes O44: its third clause does not ask that the contexts be of numbers the chip has. STN0_CFGSTAT, written as the
loaded generation becomes active, makes `farContext` read as IN_PATH and due at station 0, and the station goes on at once to
the generation that context bears. -/
theorem not_stationGenerationsAndTables : ¬ Obligations.StationGenerationsAndTables := by
  unfold Obligations.StationGenerationsAndTables
  intro h
  obtain ⟨_, _, hdone, _⟩ := h farReload 0 loadedGen 0 0 0 0 0 0 loadedGen.num
  obtain ⟨_, _, _, hactive⟩ := (hdone (by decide +kernel) (by decide +kernel) (by decide +kernel) (by decide +kernel)
    (by decide +kernel) (by decide +kernel) (by decide +kernel)).of_next rfl
  exact absurd (active_farReload.symm.trans (congrArg Gen.num hactive)) (by decide)

end Sys2Proof.Machine
end
